-- ==== Sys2Proof/Word.lean ====
section
/-!
DEFINITION. The word types of the register windows, fleet time in units of 2^-16 ns, and the sparse table
that holds every numbered collection of the block in one canonical form.
-/
namespace Sys2Proof

/-- One register word (R60: every register access is one aligned 32-bit word). -/
abbrev Word := BitVec 32

/-- One byte of a frame, a record or a host-memory structure (R7: little-endian where they hold numbers). -/
abbrev Byte := BitVec 8

/-- A fleet time: the FT80 number of R5, counted in units of 2^-16 ns since the fleet epoch.
It is a number that is added and compared; where software sees it, it is cut to 80 bits. -/
abbrev FT := Nat

/-- A numbered collection of like things: pairs of a number and what stands there, numbers strictly
rising, no entry equal to what an unlisted number reads as. -/
abbrev Tab (α : Type) := List (Nat × α)

end Sys2Proof
end

