-- ==== Sys2Proof/Types.lean ====
section
/-!
DEFINITION. The operands that commands carry and the things the block sends out: privilege tags, responses,
register accesses, frames and signals.
-/
namespace Sys2Proof

/-- The privilege tags, lowest first (R8). -/
inductive Tag where
  | tenant | operator | firmware | rot
deriving DecidableEq, Repr

/-- The order of R8, in the encoding of PAGE_PRIV (R65). -/
def Tag.rank : Tag → Nat
  | .tenant => 0 | .operator => 1 | .firmware => 2 | .rot => 3

/-- Access granted to a tag is granted to every higher tag (R8). -/
def Tag.atLeast (t u : Tag) : Bool := decide (u.rank ≤ t.rank)

/-- The four host-port responses (scope chapter, "Responses and privilege"; codes of R508). -/
inductive Resp where
  | ok | retry | error | denied
deriving DecidableEq, Repr

/-- The response code on HR_RSP_CODE (R508). -/
def Resp.code : Resp → Nat
  | .ok => 0 | .retry => 1 | .error => 2 | .denied => 3

/-- Where a register access comes from: the host register port, a proxy request by link, the TAP, or the
root-of-trust processor. Only the last can carry the tag ROT (R479). -/
inductive Port where
  | host | proxy | tap | rot
deriving DecidableEq, Repr

/-- Who asks: the port, the tag as the requester encodes it (HR_PRIV), its job and its identifier (R59). -/
structure Req where
  port : Port
  priv : BitVec 2
  job  : BitVec 16
  rid  : Byte
deriving DecidableEq, Repr

/-- The tag a request is processed with: 0b11 counts as FIRMWARE from every port but the RoT's own (R479, R508). -/
def Req.tag (q : Req) : Tag :=
  if q.priv = 0 then .tenant
  else if q.priv = 1 then .operator
  else if q.priv = 2 then .firmware
  else if q.port = .rot then .rot else .firmware

/-- One register access (R59, R60, R508). -/
structure Access where
  addr : BitVec 24
  be   : BitVec 4
  wr   : Bool
  data : Word
  req  : Req
deriving DecidableEq, Repr

/-- A CMD write of a named command: the command page (`pkg` when it is one of the package window), the
requester, and NARGS. The arguments stand in the page's ARG words (R80). -/
structure CmdIn where
  pkg   : Bool
  page  : BitVec 3
  req   : Req
  nargs : Byte
deriving DecidableEq, Repr

/-- The role of the block (R1, R86). A package head is a die-role block that was elected. -/
inductive Role where
  | die | system
deriving DecidableEq, Repr

/-- The class of a pace converter or of a handshake channel's far side (R51, R533). -/
inductive ConvClass where
  | probe | host | ucie | klink | eth | pwr | tap | timekeeper
deriving DecidableEq, Repr

/-- The code of R533. -/
def ConvClass.code : ConvClass → Nat
  | .probe => 0 | .host => 1 | .ucie => 2 | .klink => 3 | .eth => 4 | .pwr => 5 | .tap => 6 | .timekeeper => 7

/-- A handshake channel that crosses a subsystem boundary (R47, R533), with its probe, cluster, region,
subsystem page or port. -/
inductive Channel where
  | probeConc (probe : Nat)
  | concRegion (cluster : Nat)
  | regionHub (region : Nat)
  | subsystem (page : Nat)
  | converter (cls : ConvClass) (index : Nat)
deriving DecidableEq, Repr

/-- The channel code of R533. -/
def Channel.code : Channel → Nat
  | .probeConc p => p % 65536
  | .concRegion c => 2 ^ 28 + c % 65536
  | .regionHub r => 2 * 2 ^ 28 + r % 65536
  | .subsystem p => 3 * 2 ^ 28 + p % 65536
  | .converter c i => 4 * 2 ^ 28 + c.code * 2 ^ 24 + i % 65536

/-- The phase in which a channel stuck (R47, R532). -/
inductive HsPhase where
  | ackAwaited | releaseAwaited
deriving DecidableEq, Repr

def HsPhase.code : HsPhase → Nat
  | .ackAwaited => 1 | .releaseAwaited => 2

/-- A unit's state as its port reports it at an edge (R88). -/
inductive UnitState where
  | idle | busy | stall | illegal
deriving DecidableEq, Repr

/-- The code on STATE[1:0]. -/
def UnitState.code : UnitState → Nat
  | .idle => 0 | .busy => 1 | .stall => 2 | .illegal => 3

/-- A trigger of Geyser (R115) as it reaches the controller: an EVT line of a probe, a verdict of an entity,
or a rising TRIG_IN line; `fleetTime` is the arrival of T. -/
inductive GeyserTrigger where
  | fleetTime
  | event (probe : Nat) (line : BitVec 4)
  | verdict (entity : Nat) (code : Byte)
  | trigIn (line : BitVec 2)
deriving DecidableEq, Repr

/-- An array access and its user (R44, R427): the array's number, its word, the page that owns it, and the
command page or the requester that waits for it, where one does. -/
structure ArrayUse where
  array : Byte
  word  : BitVec 24
  page  : Nat
  cmd   : Option (Bool × Nat)
  req   : Option Req
deriving DecidableEq, Repr

/-- What a word of an SRAM array holds, where losing it has an effect of its own (R197, R428). -/
inductive WordHolds where
  | plain
  | record (logno : BitVec 32)
  | shadow (engine tree : Nat)
deriving DecidableEq, Repr

/-- What one die hub of the package reports on its package links (R14, R15, R63). -/
structure DieReport where
  index   : BitVec 3
  headEn  : Bool
  bistOk  : Bool
  trained : Bool
  incarn  : BitVec 4
deriving DecidableEq, Repr

/-- The supply rails (R400). -/
inductive Rail where
  | vddk | vddaon | vddt | vddio
deriving DecidableEq, Repr

/-- The strap pins as they are sampled (R404, R518). -/
structure StrapIn where
  dieIdx    : BitVec 3
  headEn    : Bool
  twinSel   : Bool
  cascade   : Bool
  refclkSel : BitVec 3
deriving DecidableEq, Repr

/-- A region's calibrated ring coefficients (R55). -/
structure CalIn where
  v0 : Int
  vMv : Int
  vT : Int
  t0 : Int
  tMv : Int
  tT : Int
deriving DecidableEq, Repr

/-- What BIST finds (R412, R413): SRAM repairs (KIND 6 a row, 7 a column; INDEX; DETAIL), TCAM rows by engine, bank and
row, cluster concentrators, region concentrators and forest banks that fail, the number of other arrays that cannot be
repaired, the calibration where its references are available, STROBE_LEAD, and the straps where they are sampled. -/
structure BistIn where
  repairs  : List (Nat × Nat × Nat)
  rows     : List (Nat × Nat × Nat)
  clusters : List Nat
  regions  : List Nat
  banks    : List (Nat × Nat)
  failed   : Byte
  cal      : Option (List CalIn)
  lead     : BitVec 16
  straps   : StrapIn
deriving DecidableEq, Repr

/-- A received TS2 block (R276): its port, and the lanes that failed at the partner's receiver in this training (byte 6). -/
structure TrainIn where
  port   : Nat
  failed : BitVec 5
deriving DecidableEq, Repr

/-- What the block measures over one slow tick: the two ring counts of each region in order (R54), and the
highest neighbour clock in MHz of the classes PROBE, HOST, UCIE, KLINK, ETH and PWR (R52). -/
structure TickIn where
  rings  : List (Nat × Nat)
  clocks : List Nat
deriving DecidableEq, Repr

/-- The state of an operator over a window, or of a tracker (R134, R139, R140). Values are raw (R130). -/
inductive OpState where
  | sum (p m : Nat)
  | sumsq (v : Nat)
  | min (v : Int) (id : Nat)
  | max (v : Int) (id : Nat)
  | count (n : Nat)
  | ratio (np nm dp dm : Nat)
  | hist (under above : Nat) (c : Tab Nat)
  | topk (pairs : List (Int × Nat))
  | ewma (yExt last : Int) (updates : Nat)
  | cusum (sp sn : Int) (alarms last : Nat)
deriving DecidableEq, Repr

/-- A partial (R143): slot, window, RULE_CHK, flags in the places of SLOT_STAT (R156), UNITS, DIES, the
operator's state, and the instant of the window's last close. -/
structure RedPartial where
  slot   : Nat
  window : Nat
  chk    : Word
  flags  : Word
  units  : Nat
  dies   : Nat
  op     : OpState
  close  : FT
deriving DecidableEq, Repr

/-- Where a message goes. Routing turns it into ports (R253, R257, R258). -/
inductive Dest where
  /-- one port -/
  | port (p : Nat)
  /-- the primary parent -/
  | up
  /-- both parents -/
  | upBoth
  /-- every child port -/
  | down
  /-- every package link -/
  | package
  /-- the mirror peer (R430) -/
  | peer
  /-- a node of R258 -/
  | node (n : BitVec 16)
deriving DecidableEq, Repr

/-- A message handed to the link layer: its frame TYPE (R257), transaction tag, destination and payload; for a
frame that is forwarded, the originator and the HOPS that remain, and its SZ, MORE and FRAG (R255, R258). -/
structure Msg where
  typ     : Byte
  tag     : BitVec 16
  dest    : Dest
  payload : List Byte
  src     : Option (BitVec 16) := none
  hops    : Nat := 8
  sz      : Bool := false
  more    : Bool := false
  frag    : Nat := 0
  /-- the channel that a forwarded message came in on (R266) -/
  came    : Option Nat := none
deriving DecidableEq, Repr

/-- A LINK_CTRL payload (R269). -/
structure LinkCtrl where
  ka       : Bool
  nak      : Bool
  swap     : Bool
  swapAck  : Bool
  takeover : Bool
  head     : Bool
  primary  : Bool
  nakWhy   : BitVec 4
  swapLane : BitVec 4
  nakSeq   : BitVec 16
  crd2     : BitVec 16
  crd3     : BitVec 16
  crd7     : BitVec 16
  swapAt   : BitVec 32
deriving DecidableEq, Repr

/-- The dataset of an IEEE 1588 Announce (R231): the grandmaster's attributes, STEPS_REMOVED, and the flags
and time properties, which are carried on as received. -/
structure PtpAnn where
  priority1 : Byte
  clkClass  : Byte
  accuracy  : Byte
  variance  : BitVec 16
  priority2 : Byte
  gm        : BitVec 64
  removed   : BitVec 16
  utc       : BitVec 16
  source    : Byte
  flags     : Byte
  /-- the sender's clock identity and port number -/
  sender    : BitVec 64
  port      : BitVec 16
deriving DecidableEq, Repr

/-- The fields of a received IEEE 1588 message that the profile of R231 uses. `sdo` holds majorSdoId and
minorSdoId; `tlvs` counts TLVs the block does not support; `forMe` says that a Delay_Resp names this port as
its requester; `corr` is the signed correctionField. -/
structure PtpMsg where
  domain  : Byte
  sdo     : BitVec 12
  good    : Bool
  tlvs    : Nat
  seq     : BitVec 16
  twoStep : Bool
  sec     : BitVec 48
  nsec    : BitVec 32
  corr    : Int
  sender  : BitVec 64
  port    : BitVec 16
  forMe   : Bool
deriving DecidableEq, Repr

/-- A BCAST payload (R321). -/
structure Bcast where
  seq     : BitVec 32
  origin  : BitVec 16
  kind    : Byte
  immediate : Bool
  waves   : Bool
  job     : BitVec 16
  guard   : BitVec 16
  t       : FT
  runtime : BitVec 16
  args    : List Byte
deriving DecidableEq, Repr

/-- A BCAST_ACK payload (R325). -/
structure BcastAck where
  seq       : BitVec 32
  origin    : BitVec 16
  sender    : BitVec 16
  armed     : BitVec 16
  notArmed  : BitVec 16
  notMember : BitVec 16
  missing   : BitVec 16
  reason    : Byte
  first     : BitVec 16
deriving DecidableEq, Repr

/-- A HEARTBEAT payload (R336): the level codes of the sender's children in order. -/
structure Beat where
  epochLo : BitVec 32
  head    : Bool
  primary : Bool
  parked  : Bool
  levels  : List (BitVec 2)
deriving DecidableEq, Repr

/-- A step partial (R331, R347): the job, STEP_NO, DIES and EXPECT, the histogram, the pairs of duration and
ELEM_ID, and the flags STALE and LATE. -/
structure StepPart where
  job    : BitVec 16
  step   : BitVec 32
  dies   : Nat
  expect : Nat
  under  : Nat
  above  : Nat
  c      : Tab Nat
  pairs  : List (Int × Nat)
  stale  : Bool
  late   : Bool
deriving DecidableEq, Repr

/-- One measurement block of a report (R491, R492): index, DMTF value type with its raw bit, and value. -/
structure MeasBlock where
  index : Nat
  typ   : Byte
  value : List Byte
deriving DecidableEq, Repr

/-- An SPDM error that the manual names, or one that DMTF SPDM gives a request out of place (R490, R493, R495, R497). -/
inductive SpdmError where
  | unsupportedRequest
  | sessionLimitExceeded
  | responseNotReady (rdtExponent rdtm : Nat) (token : Byte)
  | requestResynch
  | invalidRequest
  | invalidSession
  | unspecified
deriving DecidableEq, Repr

/-- A response of the SPDM responder: what the rules say it holds. Its bytes are those of DMTF SPDM 1.3. -/
inductive SpdmRsp where
  /-- the version numbers listed -/
  | version (list : List Byte)
  | capabilities (flags : Word) (ctExponent dataTransferSize maxMsgSize : Nat)
  /-- the selected algorithm bits: BaseAsym, ReqBaseAsym, BaseHash, MeasurementHash, DHE, AEAD, key schedule, specification -/
  | algorithms (baseAsym reqAsym baseHash measHash dhe aead schedule spec : Nat)
  | digests (slots : Byte) (chain : List Byte)
  | certificate (slot : Nat) (portion : List Byte) (remainder : Nat)
  | challengeAuth (slot : Nat) (chain : List Byte) (blocks : List MeasBlock) (sig : List Byte)
  | measurements (count : Nat) (blocks : List MeasBlock) (sig : List Byte)
  | keyExchangeRsp (session : Word) (auth : Bool) (heartbeat : Nat) (point sig : List Byte)
  | finishRsp
  | heartbeatAck
  | keyUpdateAck (op : Nat)
  | endSessionAck
  /-- a vendor-defined response: its payload -/
  | vendor (payload : List Byte)
  | error (e : SpdmError)
deriving DecidableEq, Repr

/-- Where an SPDM request came from: the command page of its SPDM_XFER, and the session it is secured under (R496). -/
structure SpdmIn where
  pkg     : Bool
  page    : BitVec 3
  session : Option Word
deriving DecidableEq, Repr

/-- An entry of REG_ACCESS (R498). -/
structure RegEntry where
  addr : BitVec 24
  data : Word
  wr   : Bool
deriving DecidableEq, Repr

/-- What the RoT finds at its start (R481, R484, R517): the flash's JEDEC ID, whether the helper data passes its CRC, a
fuzzy-extractor block that could not be corrected, the 256-bit secret reconstructed, and the flash's contents from the
counter copies on. -/
structure BootIn where
  jedec    : BitVec 24
  helperOk : Bool
  badBlock : Option Nat
  uds      : List Byte
  ctr0     : List Byte
  ctr1     : List Byte
  cert     : List Byte
  slotA    : List Byte
  slotB    : List Byte
deriving DecidableEq, Repr

/-- What leaves the block at its ports (R507), other than the levels of pins, which are state. -/
inductive Out where
  /-- a response on the host register port (R508) -/
  | response (rid : Byte) (code : Resp) (data : Word)
  /-- a host-memory request: address, write, byte count, tag, write data (R510) -/
  | hostMemory (addr : Nat) (wr : Bool) (len : Nat) (tag : Nat) (data : List Byte)
  /-- a KX frame on a port (R255) -/
  | frame (port : Nat) (bytes : List Byte)
  /-- a codeword block, training block or marker on a K-link lane (R275, R276) -/
  | lane (port lane : Nat) (bytes : List Byte)
  /-- an Ethernet frame on an uplink (R280) -/
  | ethernet (port : Nat) (bytes : List Byte)
  /-- a word on a clock, regulator, PMBus or wave signal: a name number, an index and a value (R354, R356, R379) -/
  | power (signal index value : Nat)
  /-- bits shifted out of the TAP (R471) -/
  | tdo (bits : Nat) (value : Nat)
  /-- an SPDM response of the root of trust, and the session it is secured under (R495, R496); its bytes go to host memory -/
  | spdm (session : Option Word) (r : SpdmRsp)
  /-- a boot-flash operation: command byte, address, data (R517) -/
  | flash (cmd addr : Nat) (data : List Byte)
deriving DecidableEq, Repr

end Sys2Proof
end

