-- ==== Sys2Proof/Syntax.lean ====
section
/-!
DEFINITION. The commands and events of the block: one constructor for each row of the table of operations,
in the table's order, with the operands its rules name. An event of the block's own logic carries what its
surroundings or its circuits supply at that instant; everything else stands in State.
-/
namespace Sys2Proof

inductive Instr where
  /-- HEAD_ELECTION (R14): Package head election ends 50 µs after the last eligible die hub passes BIST, and the lowest eligible die index becomes head. -/
  | headElection (reports : List DieReport)
  /-- HEAD_KEEPALIVE_SEND (R16): The head sends a keepalive on every package link every 1 µs. -/
  | headKeepaliveSend
  /-- HEAD_LOST (R16): After 8 missing keepalives on all links to the head, the next eligible die hub becomes head. -/
  | headLost
  /-- PACKAGE_WINDOW_REQUEST (R17): A package-window request is forwarded to the head, and it is answered RETRY when the head changes while the request is in flight. -/
  | packageWindowRequest (a : Access)
  /-- CONC_SELFCHK_FAIL (R111): A failed residue check or a watchdog expiry on a cluster concentrator starts the spare's adoption of that cluster. -/
  | concSelfchkFail (cluster : Nat)
  /-- REGION_CONC_FAIL (R13): A region concentrator failure marks the region ABSENT, writes a severity-6 record and emits REPLACE_TRAY. -/
  | regionConcFail (region : Nat)
  /-- CODE_ERR (R42): A completion detector sees an illegal 0b11 bit pair, withholds the acknowledge and logs the channel. -/
  | codeErr (ch : Channel)
  /-- ARRAY_ACCESS_TIMEOUT (R44): An array access not complete after four matched delays is retried once, and a second timeout is treated as uncorrectable. -/
  | arrayAccessTimeout (u : ArrayUse) (second : Bool) (holds : WordHolds)
  /-- HS_TIMEOUT (R47): A handshake watchdog expires, forces the channel to the spacer and hands it to its owner. -/
  | hsTimeout (ch : Channel) (phase : HsPhase)
  /-- SLOW_TICK (R57): On each 1 µs slow tick the block refreshes RS registers, counts tick-based intervals and refills token buckets. -/
  | slowTick (m : TickIn)
  /-- PACE_HSTO_WRITE (R48): A write of the watchdog TIMEOUT is clamped to 2 to 8, and a clamped value sets HSTO_CLAMP. -/
  | paceHstoWrite (a : Access)
  /-- REGISTER_WRITE (R61): A host register write to a register without a row of its own is checked for privilege and reset and then applied. -/
  | registerWrite (a : Access)
  /-- GUARD_ARM (R73): A write to an RWG offset arms the page's guard latch and changes nothing. -/
  | guardArm (a : Access)
  /-- GUARD_COMMIT (R73): A complement write from the same requester to X + 0x800 commits the guarded value. -/
  | guardCommit (a : Access)
  /-- GUARD_EXPIRE (R74): The latch is discarded at the eighth slow tick after arming, and GUARD_ERR is set. -/
  | guardExpire (page : Nat)
  /-- WIDE_CAPTURE (R76): A read of the lowest word of a wide register captures the whole value into the page's wide latch. -/
  | wideCapture (a : Access)
  /-- WIDE_WRITE_COMMIT (R76): A write of the lowest word of a wide register commits all of its words together. -/
  | wideWriteCommit (a : Access)
  /-- SNAP_TAKE (R77): A write of TAKE copies every counter of the scope into the holding registers in one wavefront. -/
  | snapTake (a : Access)
  /-- UNITWIN_ACCESS (R79): A data-window access through a context is checked and reads or writes the selected record. -/
  | unitwinAccess (a : Access)
  /-- RING_RPTR_WRITE (R534): A write of a ring RPTR is taken modulo the ring size and frees space in the ring. -/
  | ringRptrWrite (a : Access)
  /-- RING_SIZE_WRITE (R534): A write of RING_SIZE.LOG2 is clamped to 12 to 24. -/
  | ringSizeWrite (a : Access)
  /-- CMD_LOCK (R82): A write to LOCK takes or frees a command page, or is denied to a requester other than HOLDER. -/
  | cmdLock (a : Access)
  /-- CMD_DONE_CLEAR (R80): Writing 1 to STAT.DONE clears it and withdraws the completion interrupt. -/
  | cmdDoneClear (a : Access)
  /-- CMD_REJECT (R80): A CMD write that fails the privilege, lock or BUSY check is answered DENIED or RETRY without execution. -/
  | cmdReject (a : Access)
  /-- NOP (R80): Command NOP completes OK and has no effect. -/
  | nop (c : CmdIn)
  /-- ECHO (R80): Command ECHO copies the argument words into the result words. -/
  | echo (c : CmdIn)
  /-- PROXY_REQUEST (R64): An access to a proxy window is sent to its target as a C0 PROXY_REQ. -/
  | proxyRequest (a : Access)
  /-- PROXY_WRITE (R87): A change of a PROXY_n register applies to every proxy request accepted after the write. -/
  | proxyWrite (a : Access)
  /-- UNIT_EDGE (R93): A committed UCLK edge advances the selected counters, and CMD_START on the edge requests a command-count reset. -/
  | unitEdge (probe : Nat) (st : UnitState) (reason : BitVec 3) (evt : BitVec 16) (cmdStart : Bool)
  /-- COUNTER_RESET (R107): A granted reset request clears the masked command counts and advances GEN and RSTS. -/
  | counterReset (probe : Nat)
  /-- EPOCH_CLOSE (R94): At each grid instant every probe samples, and the epoch's reductions, flags and numbering proceed. -/
  | epochClose (ties stuck : List Nat)
  /-- EPOCH_ORIGIN (R97): A pending SET_EPOCH takes effect at its ORIGIN, and the new grid starts there. -/
  | epochOrigin (stuck : List Nat)
  /-- RECORD_DELIVER (R101): The concentrator acknowledges a probe record, checks it and adds its deltas into the totals. -/
  | recordDeliver (probe : Nat)
  /-- CONC_COMMIT (R101): Once the region has taken the mirrored totals, the concentrator sends COMMIT to its probes. -/
  | concCommit (cluster : Nat)
  /-- SET_EPOCH (R97): Command SET_EPOCH schedules a new PERIOD and ORIGIN, and completes when the ORIGIN has taken effect. -/
  | setEpoch (c : CmdIn)
  /-- PROBE_RESET (R106): Command PROBE_RESET resets the probes of a range region by region. -/
  | probeReset (c : CmdIn)
  /-- CLEAR_TOTALS (R120): Command CLEAR_TOTALS zeroes the totals of a range at the next close. -/
  | clearTotals (c : CmdIn)
  /-- FORCE_ADOPT (R120): Command FORCE_ADOPT makes the spare adopt a cluster without a fault. -/
  | forceAdopt (c : CmdIn)
  /-- GEYSER_ARM (R114): Command GEYSER_ARM checks the rate and staging limits and arms a capture window. -/
  | geyserArm (c : CmdIn)
  /-- GEYSER_STOP (R115): Command GEYSER_STOP ends the window with an end record. -/
  | geyserStop (c : CmdIn)
  /-- GEYSER_SAMPLE (R113): At each Geyser grid instant the block captures the deltas of the chosen units as records. -/
  | geyserSample
  /-- GEYSER_TRIGGER (R115): A trigger of the armed kind fixes sample 0 of the window. -/
  | geyserTrigger (t : GeyserTrigger)
  /-- PARTIAL (R145): A received partial is merged, or is discarded as late, duplicate or mismatched. -/
  | partialMsg (src : BitVec 16) (p : RedPartial)
  /-- PARTIAL_ACK (R146): A received acknowledgement frees the child's retained partial. -/
  | partialAck (slot window : Nat)
  /-- MERGE_WAIT_EXPIRE (R144): KX_RED_WAIT elapses and the node emits the window STALE. -/
  | mergeWaitExpire (slot window : Nat)
  /-- SLOT_CAPTURE (R152): A read of offset 0x200 captures the selected slot record into the record latch. -/
  | slotCapture (a : Access)
  /-- QP_WRITE (R159): A write of KX_RED_QP recaptures the slot record and computes QVAL and QINFO. -/
  | qpWrite (a : Access)
  /-- RED_LOAD (R154): Command RED_LOAD reads, checks and submits a program image for measurement. -/
  | redLoad (c : CmdIn)
  /-- RED_ACTIVATE (R155): Command RED_ACTIVATE activates the inactive program at its close. -/
  | redActivate (c : CmdIn)
  /-- RED_CLEAR_SLOT (R162): Command RED_CLEAR_SLOT resets the tracker state and sticky flags at the next window start. -/
  | redClearSlot (c : CmdIn)
  /-- RED_COPY_SLOT (R158): Command RED_COPY_SLOT writes a slot record to host memory. -/
  | redCopySlot (c : CmdIn)
  /-- RED_DUMP (R162): Command RED_DUMP writes a copy of the program image to host memory. -/
  | redDump (c : CmdIn)
  /-- BATCH_START (R183): A forest batch starts after the close, or after the TRIG_SLOT window is emitted. -/
  | batchStart (engine : Nat)
  /-- INFERENCE_ISSUE (R183): The engine issues one inference every 40 ns while the batch has time left. -/
  | inferenceIssue (engine : Nat)
  /-- VERDICT_OUT (R184): An inference completes and its verdict goes to the consumers, the table, the ring and upward. -/
  | verdictOut (engine : Nat)
  /-- SCRUB_ROW (R194): The scrubber checks one TCAM row against parity and the shadow every PERIOD. -/
  | scrubRow (engine bank : Nat) (bad stuck : Bool)
  /-- BANK_MOVE (R196): A failing bank's logical index moves to the spare bank, or the bank is disabled when no spare is left. -/
  | bankMove (engine bank : Nat)
  /-- TCAM_REWRITE (R193): The TCAM, node tables and leaf stores are rewritten from a copy, and the copies are swapped. -/
  | tcamRewrite (engine : Nat)
  /-- FOREST_LOAD (R192): Command FOREST_LOAD reads, checks and submits a forest image for measurement. -/
  | forestLoad (c : CmdIn)
  /-- FOREST_ACTIVATE (R193): Command FOREST_ACTIVATE activates the inactive image at its close. -/
  | forestActivate (c : CmdIn)
  /-- FOREST_SCORE (R202): Command FOREST_SCORE scores the given codes against the active image in a free issue slot. -/
  | forestScore (c : CmdIn)
  /-- FOREST_DUMP (R202): Command FOREST_DUMP writes a copy of the forest image to host memory. -/
  | forestDump (c : CmdIn)
  /-- FTAB_LOAD (R186): Command FTAB_LOAD loads the inactive feature table and has it measured. -/
  | ftabLoad (c : CmdIn)
  /-- FTAB_SEAL (R187): Command FTAB_SEAL has the RoT measure the inactive table in its canonical form. -/
  | ftabSeal (c : CmdIn)
  /-- FTAB_ACTIVATE (R187): Command FTAB_ACTIVATE swaps the feature-table copies at its close. -/
  | ftabActivate (c : CmdIn)
  /-- FTAB_COPY (R202): Command FTAB_COPY copies the active feature table into the inactive copy. -/
  | ftabCopy (c : CmdIn)
  /-- FTAB_WRITE (R201): A DIR or DATA write changes the inactive table, or is discarded when the active copy is selected. -/
  | ftabWrite (a : Access)
  /-- TILE_REPORT (R207): A complete seven-word tile report is checked by checksum and range tests. -/
  | tileReport (probe : Nat) (words : List Word) (last : Bool)
  /-- KAT_START (R213): The checker selects an eligible idle unit and raises TEST. -/
  | katStart
  /-- TEST_ACK (R214): The unit acknowledges TEST and runs its known-answer routine. -/
  | testAck (probe : Nat)
  /-- SIGNATURE_REPORT (R214): A signature report is compared with the unit's signature entry, and the test passes or fails. -/
  | signatureReport (probe : Nat) (words : List Word)
  /-- KAT_TIMEOUT (R214): No signature arrives within KAT_LIMIT, and the test fails with KAT_TIMEOUT. -/
  | katTimeout
  /-- POISON (R223): A received poison notice is written to the ring once and acknowledged. -/
  | poison (bytes : List Byte)
  /-- POISON_ACK (R223): A received acknowledgement ends the resending of that notice. -/
  | poisonAck (seq : BitVec 32) (loc : BitVec 16)
  /-- POISON_RESEND (R223): An unacknowledged notice is resent every 5 µs up to 8 times, and is then counted undelivered. -/
  | poisonResend (seq : BitVec 32) (loc : BitVec 16)
  /-- KERNEL_WRITE (R208): A kernel entry write with invalid tolerances or bounds clears VALID and sets KERNEL_BAD. -/
  | kernelWrite (a : Access)
  /-- CHECK_REGISTER (R221): Command CHECK_REGISTER adds a poison consumer registration. -/
  | checkRegister (c : CmdIn)
  /-- CHECK_UNREGISTER (R229): Command CHECK_UNREGISTER clears a registration entry. -/
  | checkUnregister (c : CmdIn)
  /-- CHECK_POISON (R229): Command CHECK_POISON sends a SOFTWARE poison notice. -/
  | checkPoison (c : CmdIn)
  /-- KAT_RUN (R229): Command KAT_RUN queues a unit first for a known-answer test and waits for the result. -/
  | katRun (c : CmdIn)
  /-- FENCE (R229): Command FENCE fences a unit with cause SOFTWARE. -/
  | fence (c : CmdIn)
  /-- UNFENCE (R219): Command UNFENCE runs a test on the unit and releases the fence on a pass. -/
  | unfence (c : CmdIn)
  /-- CHECK_CLEAR_STATS (R229): Command CHECK_CLEAR_STATS clears the entry counts and RESID at the next taint-epoch end. -/
  | checkClearStats (c : CmdIn)
  /-- PTP_SYNC (R235): A received Sync is timestamped and, when complete, yields an offset sample. -/
  | ptpSync (port : Nat) (m : PtpMsg) (ts : Nat)
  /-- PTP_FOLLOW_UP (R235): A received Follow_Up completes a two-step Sync exchange. -/
  | ptpFollowUp (port : Nat) (m : PtpMsg)
  /-- PTP_DELAY_REQ (R231): A master port answers a received Delay_Req with a Delay_Resp. -/
  | ptpDelayReq (port : Nat) (m : PtpMsg) (ts : Nat)
  /-- PTP_DELAY_RESP (R235): A received Delay_Resp completes the delay exchange. -/
  | ptpDelayResp (port : Nat) (m : PtpMsg)
  /-- PTP_ANNOUNCE (R232): A received Announce feeds the BMCA and the parent data. -/
  | ptpAnnounce (port : Nat) (m : PtpMsg) (ann : PtpAnn)
  /-- SYNC_SEND (R231): A master port sends a Sync and its Follow_Up every logSyncInterval. -/
  | syncSend (port ts : Nat)
  /-- DELAY_REQ_SEND (R235): A slave or standby port sends a Delay_Req every logMinDelayReqInterval. -/
  | delayReqSend (port ts : Nat)
  /-- ANNOUNCE_TIMER (R251): The Announce timer expires, an Announce may be sent, and a pending ROLE change takes effect. -/
  | announceTimer (port : Nat)
  /-- TSLOST (R235): A missing Follow_Up or Delay_Resp counts in TSLOST. -/
  | tslost (port : Nat) (delay : Bool)
  /-- LOCK_STEP (R238): At the first slow tick after sample N, the servo steps fleet time, sets the rate and enters LOCKED. -/
  | lockStep
  /-- SYNC_TIMEOUT (R241): No Sync for announceReceiptTimeout sends the servo to HOLDOVER or FREE. -/
  | syncTimeout
  /-- RELOCK_STEP (R243): A relock steps fleet time once its samples are held, at T where one is named. -/
  | relockStep
  /-- PPS_IN_EDGE (R247): A PPS_IN edge is timestamped and used as the servo source in SOURCE mode. -/
  | ppsInEdge (ts : Nat)
  /-- PPS_OUT_PULSE (R248): PPS_OUT rises at each whole second of PTP time. -/
  | ppsOutPulse
  /-- EPOCH_BASE_WRITE (R250): A write of EPOCH_BASE outside FREE is discarded and sets BASE_LOCKED. -/
  | epochBaseWrite (a : Access)
  /-- REFCLK_WRITE (R518): A write of KX_TIME_REFCLK.KHZ sets the REFCLK frequency and releases the timekeeper from reset. -/
  | refclkWrite (a : Access)
  /-- TIME_RELOCK (R243): Command TIME_RELOCK repeats acquisition and the step, optionally at T and for the subtree. -/
  | timeRelock (c : CmdIn)
  /-- TIME_SET (R252): Command TIME_SET sets fleet time as grandmaster, now or at the next PPS edge. -/
  | timeSet (c : CmdIn)
  /-- TIME_HOLD (R252): Command TIME_HOLD forces holdover or releases it. -/
  | timeHold (c : CmdIn)
  /-- FRAME_RECEIVE (R264): A received frame is accepted, discarded as a duplicate, or discarded with a NAK by its LSEQ and checks. -/
  | frameReceive (port : Nat)
  /-- CODEWORD_RECEIVE (R263): A received codeword is corrected, or its frames are discarded with a NAK. -/
  | codewordReceive (port : Nat) (lanes : List (List Byte))
  /-- LINK_CTRL (R269): A received LINK_CTRL delivers keepalive, NAK, swap, takeover and credit information. -/
  | linkCtrl (chan : Nat) (dst ack : BitVec 16) (m : LinkCtrl)
  /-- ACK_TIMER (R264): An owed ACK with nothing sent for 200 ns sends a LINK_CTRL. -/
  | ackTimer (chan : Nat)
  /-- CREDIT_RETURN (R266): A receiver that has freed 16 units sends a LINK_CTRL with its credit counts within 200 ns. -/
  | creditReturn (chan : Nat)
  /-- KEEPALIVE_SEND (R270): A port that has sent nothing for one period sends a keepalive. -/
  | keepaliveSend (chan : Nat)
  /-- PARTNER_LOST (R270): A partner silent for the loss limit, or reported down, is taken as lost. -/
  | partnerLost (chan : Nat) (phy : Bool)
  /-- LINK_UP (R276): A port reaches UP, sends its credits and re-sends pending broadcasts. -/
  | linkUp (port : Nat)
  /-- TRAIN_TS1 (R276): Received TS1 blocks train each lane and correct its polarity. -/
  | trainTs1 (port : Nat) (lanes : List (List Byte))
  /-- TRAIN_TS2 (R276): Received TS2 blocks lead to the alignment marker and the start of the codeword stream. -/
  | trainTs2 (b : TrainIn)
  /-- TRAIN_TIMEOUT (R276): A training attempt not UP within 1 ms restarts, and the port enters FAILED after 8 attempts. -/
  | trainTimeout (port : Nat)
  /-- ALIGNMENT_MARKER (R275): A received marker deskews the lanes and seeds the descrambler. -/
  | alignmentMarker (port : Nat) (lanes : List (List Byte))
  /-- UCIE_ALIGN (R272): ALIGN chunks at link-up start codeword group 0. -/
  | ucieAlign (port : Nat) (chunk : List Byte)
  /-- UCIE_ACTIVE_CHANGE (R271): The adapter reports the link active or inactive. -/
  | ucieActiveChange (port : Nat) (active : Bool)
  /-- UCIE_REPAIR (R271): An adapter lane repair is entered in the spare map. -/
  | ucieRepair (port lane : Nat)
  /-- LANE_FAIL (R277): A lane is taken as failed, and the receiver requests a swap. -/
  | laneFail (port lane : Nat)
  /-- SWAP_REPEAT (R278): SWAP is repeated every 300 ns until acknowledged, and the link resets after 4 repeats. -/
  | swapRepeat (port : Nat)
  /-- LANE_SWITCH (R278): At pair SWAP_AT the failed logical lane moves to the spare. -/
  | laneSwitch (port : Nat) (tx : Bool)
  /-- LINK_RESET_EVENT (R265): A link reset empties the replay buffer and queues and retrains the port. -/
  | linkResetEvent (port : Nat)
  /-- FRAME_SELECT (R283): At each frame boundary the port chooses the next frame by priority, caps, credits, gates and fair queueing. -/
  | frameSelect (port : Nat)
  /-- FRAME_ENQUEUE (R285): A frame enters its class queue with a fair-queueing tag, or is tail-dropped. -/
  | frameEnqueue (port : Nat)
  /-- ETHERNET_FRAME (R280): A received Ethernet frame is unpacked into KX frames, or discarded. -/
  | ethernetFrame (port : Nat) (bytes : List Byte)
  /-- GATE_SWITCH (R289): The pending gate list becomes active at T. -/
  | gateSwitch (port : Nat)
  /-- PARENT_CHANGE (R292): The standby port becomes primary and the old port's queues are moved or discarded. -/
  | parentChange (port : Nat)
  /-- PROXY_REQ (R268): A received PROXY_REQ is executed at the target window and answered. -/
  | proxyReq (port : Nat) (src tag : BitVec 16) (addr : BitVec 24) (wr : Bool) (data : Word) (priv : BitVec 2) (rid : Byte) (job : BitVec 16)
  /-- PROXY_RSP (R268): A received PROXY_RSP completes the proxy request that holds its tag. -/
  | proxyRsp (port : Nat) (tag : BitVec 16) (rsp : BitVec 8) (data : Word)
  /-- PROXY_TIMEOUT (R268): A proxy request without a response after 1 ms is answered ERROR. -/
  | proxyTimeout (tag : Nat)
  /-- LINK_RESET (R297): Command LINK_RESET resets and retrains a port. -/
  | linkReset (c : CmdIn)
  /-- GATE_SET (R289): Command GATE_SET checks the pending gate list and schedules it for T. -/
  | gateSet (c : CmdIn)
  /-- PARENT_SWAP (R293): Command PARENT_SWAP moves traffic to the other parent once its mirror is current. -/
  | parentSwap (c : CmdIn)
  /-- LANE_RETIRE (R297): Command LANE_RETIRE runs lane failover for test. -/
  | laneRetire (c : CmdIn)
  /-- LINK_STATS_CLEAR (R297): Command LINK_STATS_CLEAR clears the port counters. -/
  | linkStatsClear (c : CmdIn)
  /-- SINTER_ENCODE_BLOCK (R300): The compressor completes one block, coded or raw. -/
  | sinterEncodeBlock
  /-- SINTER_DECODE_BLOCK (R302): The decompressor completes one block, or rejects it. -/
  | sinterDecodeBlock
  /-- SINTER_PACK (R311): Command SINTER_PACK writes a stream to host memory. -/
  | sinterPack (c : CmdIn)
  /-- SINTER_UNPACK (R312): Command SINTER_UNPACK checks a stream and decodes its blocks. -/
  | sinterUnpack (c : CmdIn)
  /-- BCAST (R322): A new broadcast is acted on and forwarded, and a duplicate is discarded. -/
  | bcast (port : Nat) (b : Bcast)
  /-- BCAST_ACK (R325): A received cumulative acknowledgement updates the parent's counts. -/
  | bcastAck (a : BcastAck)
  /-- BCAST_ACK_SEND (R325): A node sends a new cumulative acknowledgement, at most once per 1 µs, when its counts change. -/
  | bcastAckSend (origin : BitVec 16) (seq : BitVec 32)
  /-- PENDING_EXPIRE (R323): A pending broadcast leaves the table 1 ms after its T. -/
  | pendingExpire (origin : BitVec 16) (seq : BitVec 32)
  /-- JOB_RELEASE (R327): At T the armed job becomes RUNNING and STARTED is written. -/
  | jobRelease (job : BitVec 16)
  /-- JOB_START (R327): Command JOB_START broadcasts a start and completes at T with the counts. -/
  | jobStart (c : CmdIn)
  /-- JOB_END (R328): Command JOB_END removes the job from its subtree. -/
  | jobEnd (c : CmdIn)
  /-- STEP_MARK (R329): Command STEP_MARK measures a step duration and inserts it into the step window. -/
  | stepMark (c : CmdIn)
  /-- JOB_LIVENESS (R342): Command JOB_LIVENESS asserts the runtime's view of a die through the root. -/
  | jobLiveness (c : CmdIn)
  /-- RUNTIME_SET (R344): Command RUNTIME_SET names a new runtime for the job. -/
  | runtimeSet (c : CmdIn)
  /-- STEP_PARTIAL (R331): A received step partial is merged, or is forwarded LATE. -/
  | stepPartial (src : BitVec 16) (p : StepPart)
  /-- STEP_WAIT_EXPIRE (R331): STEP_WAIT passes and the window is emitted STALE with LAGGING notices. -/
  | stepWaitExpire (job : BitVec 16) (step : BitVec 32)
  /-- HEARTBEAT (R337): A received HEARTBEAT marks its sender as heard. -/
  | heartbeat (src : BitVec 16) (b : Beat)
  /-- LIVENESS_CHECK (R338): At close + GRACE the watcher counts MISSED and decides the levels. -/
  | livenessCheck
  /-- NOTICE (R348): A received service notice is written once to the service ring. -/
  | notice (bytes : List Byte)
  /-- VERIFY_DECISION (R503): The RoT recomputes a logged service decision and logs any mismatch. -/
  | verifyDecision (result : Word)
  /-- POWER_DECISION (R364): Every CTRL_US the power manager shares the cap and forms a change set. -/
  | powerDecision
  /-- FC_ACK (R359): A frequency code load is acknowledged and the change set advances. -/
  | fcAck
  /-- FC_GO_ACK (R359): The new frequencies run, F_NOW updates and the change set advances. -/
  | fcGoAck
  /-- VID_ACK (R359): A VID rail settles and the change set advances. -/
  | vidAck
  /-- PMBUS_VOUT_POLL (R356): A READ_VOUT poll acknowledges a PMBus point change when within tolerance. -/
  | pmbusVoutPoll (mv : Option Nat)
  /-- VFAULT (R357): A point change that misses its deadline puts the rail in VFAULT. -/
  | vfault
  /-- K_CORRECTION (R362): Every 1 ms each rail's correction K is recomputed. -/
  | kCorrection (iout : List (Nat × Nat))
  /-- DROOP_DETECT (R370): A long V-ring half-period raises STRETCH_REQ for its region. -/
  | droopDetect (r : BitVec 4) (halfFs : Nat)
  /-- DROOP_CLEAR (R370): CLEAR_N short half-periods lower STRETCH_REQ and start the hold. -/
  | droopClear (r : BitVec 4) (halvesFs : List Nat)
  /-- DROOP_HOLD_END (R372): The hold ends and the change set resumes. -/
  | droopHoldEnd (r : BitVec 4)
  /-- SUSTAINED_DROOP (R374): A droop lasting LONG_US limits the region's cores. -/
  | sustainedDroop (r : BitVec 4)
  /-- ALERT_N (R376): ALERT_N low for 100 ns forces the lowest state. -/
  | alertN (low : Bool) (status : List Nat)
  /-- SENSOR_READING (R512): A sensor word delivers a channel reading. -/
  | sensorReading (ch : BitVec 6) (val : BitVec 16)
  /-- SENSOR_QUIET (R512): A channel without a reading for 16 ticks counts as having none and is logged. -/
  | sensorQuiet (ch : BitVec 6)
  /-- WAVE_RELEASE (R379): A release wave pulses WAVE_GO at its instant, or is deferred. -/
  | waveRelease
  /-- HPWR_SET_CAP (R364): Command HPWR_SET_CAP sets the cap, the minima and the order. -/
  | hpwrSetCap (c : CmdIn)
  /-- HPWR_RESUME (R376): Command HPWR_RESUME leaves the forced-lowest state. -/
  | hpwrResume (c : CmdIn)
  /-- HPWR_TRIP_CLEAR (R377): Command HPWR_TRIP_CLEAR releases TRIP_N when the readings are cool. -/
  | hpwrTripClear (c : CmdIn)
  /-- HPWR_RAIL_CLEAR (R383): Command HPWR_RAIL_CLEAR clears VFAULT and requests the target point again. -/
  | hpwrRailClear (c : CmdIn)
  /-- BARRIER (R378): Command BARRIER broadcasts a barrier and releases its waves at T. -/
  | barrier (c : CmdIn)
  /-- IDLE_TIMER_DOZE (R391): The idle timer enters DOZE after DOZE_AFTER_US of idleness. -/
  | idleTimerDoze
  /-- IDLE_TIMER_EMBER (R391): The idle timer enters EMBER after EMBER_AFTER_MS in DOZE. -/
  | idleTimerEmber
  /-- BPWR_ENTER (R392): Command BPWR_ENTER asks each subsystem and gates the domains when all accept. -/
  | bpwrEnter (c : CmdIn)
  /-- SUBSYSTEM_ANSWER (R392): A subsystem accepts, delays or refuses a handshake entry. -/
  | subsystemAnswer (sub : Nat)
  /-- ENTRY_TIMEOUT (R392): A delay that outlasts ENTRY_TMO_US refuses the entry. -/
  | entryTimeout
  /-- WAKE (R395): A wake source brings the block out of DOZE, EMBER or OFF. -/
  | wake (periods : Nat)
  /-- WAKE_N (R395): WAKE_N low for 100 ns wakes the block. -/
  | wakeN
  /-- WAKE_LEAD (R396): The sequencer wakes the block WAKE_LEAD_US before a pending event. -/
  | wakeLead
  /-- EMBER_WAKE_TIMER (R395): EMBER_WAKE.MS elapses and wakes the block. -/
  | emberWakeTimer
  /-- WICK_CYCLE (R399): At each WICK_DIV-th close in DOZE, each named cluster is woken, sampled and compared. -/
  | wickCycle (running : Bool)
  /-- SUPPLY_GOOD (R401): A rail becomes good and its domains take their power-on. -/
  | supplyGood (r : Rail) (refclk : Bool)
  /-- BROWNOUT (R402): A rail falls below its threshold and its domains are off. -/
  | brownout (r : Rail)
  /-- PIN_RESET (R404): RST_N low for 1 µs resets every domain except the monitors. -/
  | pinReset
  /-- ROT_RESET (R504): A RoT-initiated reset acts as a pin reset and restarts the RoT from ROM. -/
  | rotReset
  /-- BIST_DONE (R412): Power-on BIST completes, with repairs, calibration and its pass or fail. -/
  | bistDone (b : BistIn)
  /-- REFCLK_LOSS (R398): REFCLK absent for 10 µs in EMBER discards the time extrapolation. -/
  | refclkLoss
  /-- BPWR_RESET (R415): Command BPWR_RESET orders a warm, package or region reset. -/
  | bpwrReset (c : CmdIn)
  /-- WARM_RESET (R404): A warm reset resets the die hub logic outside the link layer, timekeeper and power outputs. -/
  | warmReset
  /-- PACKAGE_RESET (R404): A package reset warm-resets every member, resets the package links and re-elects. -/
  | packageReset
  /-- REGION_RESET (R407): A region reset starts, advances the incarnation and answers held requests. -/
  | regionReset (region : BitVec 4) (rot : Bool)
  /-- REGION_RESET_END (R407): The region reset ends, and the waiting records and retried requests proceed. -/
  | regionResetEnd (region : BitVec 4)
  /-- TRANSACTION_RETIRE (R409): A transaction older than 1 ms is retired with ERROR. -/
  | transactionRetire (tag : Nat)
  /-- BPWR_WICK_TEST (R415): Command BPWR_WICK_TEST evaluates the Wick entries against the latest deltas. -/
  | bpwrWickTest (c : CmdIn)
  /-- LOG_WRITE (R419): The write port takes a record and places it under the severity rule. -/
  | logWrite
  /-- EVENT (R422): A received EVENT record is written to the parent's log. -/
  | event (bytes : List Byte)
  /-- LOG_CAPTURE (R423): A write of RIDX captures a record into the read window. -/
  | logCapture (a : Access)
  /-- PATROL_READ (R427): The patrol reader checks one word and corrects or reports it. -/
  | patrolRead (u : ArrayUse) (stored : BitVec 72) (valid : BitVec 2) (holds : WordHolds)
  /-- MIRROR (R431): A received MIRROR frame updates or replaces the peer's replica. -/
  | mirror (src : BitVec 16) (bytes : List Byte)
  /-- MIRROR_UPDATE (R431): A node sends a mirror update of an item to its peer. -/
  | mirrorUpdate (item : Nat)
  /-- FUM_DUMP (R424): Command FUM_DUMP copies the held records to host memory. -/
  | fumDump (c : CmdIn)
  /-- FUM_CLEAR (R438): Command FUM_CLEAR removes the records below a severity. -/
  | fumClear (c : CmdIn)
  /-- FUM_WRITE (R438): Command FUM_WRITE writes a software record. -/
  | fumWrite (c : CmdIn)
  /-- STATE_CKPT (R434): Command STATE_CKPT writes a checkpoint to host memory. -/
  | stateCkpt (c : CmdIn)
  /-- STATE_RESTORE (R436): Command STATE_RESTORE checks a checkpoint and installs its items. -/
  | stateRestore (c : CmdIn)
  /-- STATE_PULL (R433): Command STATE_PULL asks the peer for its replica and installs it. -/
  | statePull (c : CmdIn)
  /-- STATE_DIGESTS (R438): Command STATE_DIGESTS writes the digest table to host memory. -/
  | stateDigests (c : CmdIn)
  /-- TRACE_PACKET_PLACE (R446): The router stamps a packet and places it into the rings that take it. -/
  | tracePacketPlace (probe : Option Nat)
  /-- TRACE_SYNC_TIMER (R443): Every SYNC_MS the router writes a periodic SYNC. -/
  | traceSyncTimer
  /-- TRACE_STALL_LIMIT (R447): A stalled source waits longer than STALL_US and its packet is dropped. -/
  | traceStallLimit (ring : Nat)
  /-- TRACE (R448): A received TRACE frame is rebased and written to the ring. -/
  | trace (src : BitVec 16) (bytes : List Byte)
  /-- TRACE_SESSION_START (R449): The session starts on its selected start condition. -/
  | traceSessionStart
  /-- TRACE_SESSION_STOP (R449): The session stops on its selected stop condition. -/
  | traceSessionStop
  /-- TRIG_IN (R453): A TRIG_IN edge is timestamped and performs its line's ACTION. -/
  | trigIn (line : BitVec 2) (rising : Bool) (ts : Nat)
  /-- TRIG_OUT_PULSE (R454): TRIG_OUT pulses on its source event. -/
  | trigOutPulse (line : BitVec 2)
  /-- TRIG_OUT_END (R454): The TRIG_OUT pulse ends after WIDTH_NS. -/
  | trigOutEnd (line : BitVec 2)
  /-- TRACE_START (R477): Command TRACE_START starts the session. -/
  | traceStart (c : CmdIn)
  /-- TRACE_STOP (R477): Command TRACE_STOP stops the session. -/
  | traceStop (c : CmdIn)
  /-- TRACE_MARK (R477): Command TRACE_MARK writes a MARK packet. -/
  | traceMark (c : CmdIn)
  /-- TRACE_AUTH (R451): Command TRACE_AUTH presents, or withdraws, an authorisation token. -/
  | traceAuth (c : CmdIn)
  /-- SNUFF_IN_N (R458): SNUFF_IN_N low for 10 ns triggers a cut. -/
  | snuffInN (low : Bool)
  /-- SNUFF_CUT (R460): The node cuts: the probes record the image, raise STOP and the node sends MARKERs. -/
  | snuffCut
  /-- STOP_ACK (R461): A unit acknowledges STOP and the stop latency is recorded. -/
  | stopAck (probe edges : Nat)
  /-- SNUFF_CLEAR_APPLY (R467): At the clear the node resumes its paused parts and processes the held frames. -/
  | snuffClearApply
  /-- SNUFF_NOW (R477): Command SNUFF_NOW cuts this node at once. -/
  | snuffNow (c : CmdIn)
  /-- SNUFF_AT (R466): Command SNUFF_AT schedules a Snuff at T from the scope root. -/
  | snuffAt (c : CmdIn)
  /-- SNUFF_CLEAR (R467): Command SNUFF_CLEAR sends a CLEAR to the scope. -/
  | snuffClear (c : CmdIn)
  /-- SNUFF_DUMP (R469): Command SNUFF_DUMP writes the cut image to host memory. -/
  | snuffDump (c : CmdIn)
  /-- SNUFF_RELEASE (R477): Command SNUFF_RELEASE discards the image. -/
  | snuffRelease (c : CmdIn)
  /-- LOOP_RUN (R473): Command LOOP_RUN runs a loop-back at the chosen depth. -/
  | loopRun (c : CmdIn)
  /-- EXTEST (R471): TAP instruction EXTEST drives the boundary on the KXA-32. -/
  | extest (shift pins : List Bool)
  /-- IDCODE (R471): TAP instruction IDCODE returns the identification code. -/
  | idcode
  /-- SAMPLE_PRELOAD (R471): TAP instruction SAMPLE/PRELOAD samples the boundary on the KXA-32. -/
  | samplePreload (shift pins : List Bool)
  /-- KX_ACCESS (R472): TAP instruction KX_ACCESS performs a register access and returns the previous response. -/
  | kxAccess (dr : BitVec 60)
  /-- SNUFF_SCAN (R471): TAP instruction SNUFF_SCAN reads the next word of the cut image. -/
  | snuffScan (restart : Bool)
  /-- FUNNEL_READ (R471): TAP instruction FUNNEL_READ reads the next word of the funnel. -/
  | funnelRead (restart : Bool)
  /-- SNUFF_REQ (R471): TAP instruction SNUFF_REQ triggers a Snuff. -/
  | snuffReq (v : Bool)
  /-- BYPASS (R471): TAP instruction BYPASS passes TDI through one bit. -/
  | bypass (shift : List Bool)
  /-- ROT_BOOT (R487): The ROM reconstructs the UDS, checks the counters and the image, and boots or enters RECOVERY. -/
  | rotBoot (b : BootIn)
  /-- MEASURE_DONE (R491): The RoT finishes measuring an item and records its digest. -/
  | measureDone
  /-- REHASH (R494): After a warm or package reset, the RoT re-hashes each kept copy and marks it MEASURED or MISMATCH. -/
  | rehash (digest : List Byte)
  /-- FIRMWARE_REHASH (R504): Once each second the RoT re-hashes its resident firmware and resets on a difference. -/
  | firmwareRehash (same : Bool)
  /-- GET_VERSION (R495): SPDM GET_VERSION is answered with version 1.3. -/
  | getVersion (m : SpdmIn)
  /-- GET_CAPABILITIES (R495): SPDM GET_CAPABILITIES is answered. -/
  | getCapabilities (m : SpdmIn)
  /-- NEGOTIATE_ALGORITHMS (R495): SPDM NEGOTIATE_ALGORITHMS is answered. -/
  | negotiateAlgorithms (m : SpdmIn)
  /-- GET_DIGESTS (R495): SPDM GET_DIGESTS is answered for slot 0. -/
  | getDigests (m : SpdmIn)
  /-- GET_CERTIFICATE (R483): SPDM GET_CERTIFICATE returns the slot-0 chain. -/
  | getCertificate (m : SpdmIn) (slot offset length : Nat)
  /-- CHALLENGE (R495): SPDM CHALLENGE is answered, or deferred during the commit window. -/
  | challenge (m : SpdmIn) (slot : Nat)
  /-- GET_MEASUREMENTS (R493): SPDM GET_MEASUREMENTS returns blocks from one copy of the log. -/
  | getMeasurements (m : SpdmIn) (op : Nat) (signed : Bool)
  /-- KEY_EXCHANGE (R497): SPDM KEY_EXCHANGE opens a session, with mutual authentication when OWNER is set. -/
  | keyExchange (m : SpdmIn) (reqId : BitVec 16) (point : List Byte)
  /-- FINISH (R497): SPDM FINISH completes the session after checking the requester's root. -/
  | finish (m : SpdmIn) (root : Option (List Byte)) (good : Bool)
  /-- SPDM_HEARTBEAT (R495): SPDM HEARTBEAT keeps a session alive. -/
  | spdmHeartbeat (m : SpdmIn)
  /-- KEY_UPDATE (R495): SPDM KEY_UPDATE updates the session keys. -/
  | keyUpdate (m : SpdmIn) (op : Nat)
  /-- END_SESSION (R501): SPDM END_SESSION ends a session and leaves the link keys in place. -/
  | endSession (m : SpdmIn)
  /-- RESPOND_IF_READY (R490): SPDM RESPOND_IF_READY returns a deferred answer once ready. -/
  | respondIfReady (m : SpdmIn) (token : Byte)
  /-- SESSION_TIMEOUT (R495): A session without a message for 120 s ends. -/
  | sessionTimeout (id : Word)
  /-- REG_ACCESS (R498): Vendor request REG_ACCESS performs register accesses at tag ROT. -/
  | regAccess (m : SpdmIn) (entries : List RegEntry)
  /-- LINK_SHARE (R499): Vendor request LINK_SHARE draws an ephemeral key and returns a signed share. -/
  | linkShare (m : SpdmIn) (port : Nat)
  /-- LINK_INSTALL (R500): Vendor request LINK_INSTALL checks the partner's share and installs the receive key. -/
  | linkInstall (m : SpdmIn) (port : Nat) (share chain : List Byte)
  /-- LINK_ARM (R501): Vendor request LINK_ARM starts link protection. -/
  | linkArm (m : SpdmIn) (port : Nat)
  /-- TRACE_TOKEN (R502): Vendor request TRACE_TOKEN issues a trace token. -/
  | traceToken (m : SpdmIn) (sources dests : Byte) (notAfter : Nat)
  /-- SHARE_EXPIRE (R499): An unused link private key is erased after 1 s. -/
  | shareExpire (port : Nat)
  /-- SPDM_XFER (R496): Command SPDM_XFER carries one SPDM request and its response. -/
  | spdmXfer (c : CmdIn)
  /-- FW_STAGE (R488): Command FW_STAGE writes and checks an image in the inactive slot. -/
  | fwStage (c : CmdIn)
  /-- FW_COMMIT (R489): Command FW_COMMIT writes a counter copy that selects the staged slot. -/
  | fwCommit (c : CmdIn)
  /-- FW_ABORT (R506): Command FW_ABORT erases the staged slot. -/
  | fwAbort (c : CmdIn)
  /-- ROT_CTRL_RESET (R504): A write of 1 to KX_ROT_CTRL.RESET orders a RoT-initiated reset. -/
  | rotCtrlReset (a : Access)
  /-- HOST_MEMORY_RESPONSE (R510): A host memory response beat completes, retries or fails a request. -/
  | hostMemoryResponse (tag : Nat) (code : BitVec 2) (last : Bool) (data : List Byte)
  /-- HOST_MEMORY_RETRY (R511): A request answered RETRY is reissued after 1 µs, up to 8 times. -/
  | hostMemoryRetry (tag : Nat)
  /-- HOST_RESPONSE_ACK (R509): The host acknowledges a register response. -/
  | hostResponseAck
  /-- MODULE_VIN (R529): The module input crosses a turn-on or turn-off threshold. -/
  | moduleVin (mv : Nat)
  /-- CONVERTER_POLL (R529): Every 10 ms the PMBus master polls the converters and logs faults. -/
  | converterPoll (words : List (BitVec 16))
  /-- PRESENT_N (R530): PRESENT_N falls and the module rails start, or it rises and the converters turn off. -/
  | presentN (low : Bool)
  /-- EJECT_N (R531): Opening the latch issues PARENT_SWAP and turns the module off after success. -/
  | ejectN (low : Bool) (c : CmdIn)
  /-- FENCE_ACK (R217): The unit raises FENCE_ACK, which binds it to accept no new host command, and the block then lowers FENCE. -/
  | fenceAck (probe : Nat)
  /-- PPS_MISS (R247): In SOURCE mode PPS_IN stays missing for 2 s, which sets PAGE_ERR.PPS_MISS. -/
  | ppsMiss
  /-- REFCLK_RETURN (R519): REFCLK starts running, the missing-clock detector releases the timekeeper from reset, and the timekeeper's tick takes over from the AON tick. -/
  | refclkReturn
  /-- PIN_RESET_RELEASE (R404): RST_N is released, the straps are sampled, and the reset with BIST runs to its end. -/
  | pinResetRelease (straps : StrapIn)
  /-- WARM_RESET_END (R226): The warm reset ends: BPWR_RESET completes, RESET_LOST poison notices are sent, and the re-hash and TCAM rebuild start. -/
  | warmResetEnd
  /-- BUSY_REPLAY (R267): A sender that was NAKed with reason BUSY replays from the named LSEQ once its 1 µs wait has passed. -/
  | busyReplay (chan : Nat)
  /-- GATE_WINDOW_OPEN (R288): A class's gate window opens at its fleet-time instant, and a frame waiting for that window becomes eligible to start. -/
  | gateWindowOpen (port cls : Nat)
  /-- IDLE_WINDOW_TIMEOUT (R229): A KAT_RUN or UNFENCE that finds no idle window within 10 ms completes TIMEOUT. -/
  | idleWindowTimeout (pkg : Bool) (page : BitVec 3)
  /-- SCORE_SLOT_TIMEOUT (R198): A FOREST_SCORE that finds no free issue slot within 1 ms completes TIMEOUT. -/
  | scoreSlotTimeout (pkg : Bool) (page : BitVec 3)
  /-- NOT_SYNCED (R293): A PARENT_SWAP whose new parent's mirror is not current within 20 µs completes ERROR NOT_SYNCED. -/
  | notSynced
  /-- LOOP_TIMEOUT (R474): A loop-back that has not finished within 100 ms completes TIMEOUT. -/
  | loopTimeout (pkg : Bool) (page : BitVec 3)
  /-- NO_MASTER (R252): A time command that finds no SLAVE port or PPS_IN source within 1 s completes ERROR NO_MASTER. -/
  | noMaster (pkg : Bool) (page : BitVec 3)
deriving DecidableEq, Repr

end Sys2Proof
end

