-- ==== Sys2Proof/Decode.lean ====
section
/-!
DEFINITION. The table of operations gives no row any bits: a command of this block is a register access, a message or an
event, not a word. No word spells one.
-/
namespace Sys2Proof

/-- The command that a word spells by the table's bits: none does. -/
def decodeTableWord (_nbits _w : Nat) : Option Instr := none

end Sys2Proof
end

