-- ==== Sys2Proof/Config.lean ====
section
/-!
DEFINITION. What an implementation fixes and the manual leaves open: constants without a body where the
manual gives no value, and the shipped die's counts where it does.
-/
namespace Sys2Proof

/-- The free value number `n`, `w` bits wide: a value the manual leaves open. Nothing constrains it. -/
opaque Config.freeValue (w : Nat) (n : Nat) : BitVec w

/-- PAGE_VER of a page (R65: "per page"; the manual gives no value). -/
opaque Config.pageVer (page : Nat) : BitVec 32

/-- KX_DIR_IMPL: IMPL_ID and STEP (R86: "impl"), bits [31:8]. -/
opaque Config.implId : BitVec 24

/-- The bit of an SRAM word that an injection flips; a second flip takes the next one (R68: which bits is not given). -/
opaque Config.flipBit (page : Nat) : Nat

/-- TYPE of the KXA-32's package summary pages (R69: not given). -/
opaque Config.summaryType : BitVec 16

/-- The block's IEEE 1588 clockIdentity (R231, R250: its value is not given). -/
opaque Config.clockId : BitVec 64

/-- CORE_MAP0 and CORE_MAP1 of a core, and the KIND and REGION of a sensor channel (R351, R382: "design"). -/
opaque Config.coreMap0 (core : Nat) : BitVec 32
opaque Config.coreMap1 (core : Nat) : BitVec 32
opaque Config.sensorMap (channel : Nat) : BitVec 6

/-- CODE and severity of the record that the consumer with the given page writes for a gap (R32: the catalogue of R532 names
none). -/
opaque Config.gapCode (page : Nat) : Nat
opaque Config.gapSeverity (page : Nat) : Nat

/-- What the RoT ROM holds (R482, R483, R485, R491): its own measurement, its two signing keys, Sundaskan's root
certificate and its digest, and the layout of the certificates it issues and reads. -/
opaque Config.romDigest : List (BitVec 8)
opaque Config.romKey (idx : Nat) : List (BitVec 8)
opaque Config.rootCert : List (BitVec 8)
opaque Config.aliasCert (pub image : List (BitVec 8)) (svn minSvn : Nat) (sig : List (BitVec 8)) : List (BitVec 8)
/-- The root certificate of a chain, and the public key of its last certificate where every signature in it verifies. -/
opaque Config.chainRoot (chain : List (BitVec 8)) : List (BitVec 8)
opaque Config.chainKey (chain : List (BitVec 8)) : Option (List (BitVec 8))

/-- Counts of the shipped die (R10, R86). -/
def Config.probes : Nat := 8192
def Config.clusters : Nat := 256
def Config.regions : Nat := 16
def Config.probesPerCluster : Nat := 32
def Config.clustersPerRegion : Nat := 16
def Config.slots : Nat := 256
def Config.entities : Nat := 16384

end Sys2Proof
end

