-- ==== Sys2Proof/Machine/Tab.lean ====
section
/-!
DEFINITION. Reading and writing a sparse table. `d k` is what the unlisted number `k` reads as.
-/
namespace Sys2Proof

/-- What stands at number `k`. -/
def Tab.read {α : Type} (d : Nat → α) : Tab α → Nat → α
  | [], k => d k
  | (a, v) :: t, k => if k = a then v else Tab.read d t k

/-- List `v` at `k`, in order, in place of what was listed there. -/
def Tab.insert {α : Type} (k : Nat) (v : α) : Tab α → Tab α
  | [] => [(k, v)]
  | (a, w) :: t =>
    if k = a then (k, v) :: t
    else if k < a then (k, v) :: (a, w) :: t
    else (a, w) :: Tab.insert k v t

/-- Unlist number `k`. -/
def Tab.remove {α : Type} (k : Nat) (t : Tab α) : Tab α := t.filter fun e => decide (e.1 ≠ k)

/-- Write `v` at number `k`, keeping the canonical form. -/
def Tab.write {α : Type} [DecidableEq α] (d : Nat → α) (t : Tab α) (k : Nat) (v : α) : Tab α :=
  if v = d k then Tab.remove k t else Tab.insert k v t

/-- Change what stands at number `k`. -/
def Tab.modify {α : Type} [DecidableEq α] (d : Nat → α) (t : Tab α) (k : Nat) (f : α → α) : Tab α :=
  Tab.write d t k (f (Tab.read d t k))

/-- Every listed number above `lo`, numbers strictly rising, no entry equal to its default. -/
def Tab.wfFrom {α : Type} [DecidableEq α] (d : Nat → α) : Option Nat → Tab α → Bool
  | _, [] => true
  | lo, (a, v) :: t =>
    (match lo with
     | none => true
     | some l => decide (l < a)) && decide (v ≠ d a) && Tab.wfFrom d (some a) t

/-- The canonical form of a table. -/
def Tab.wf {α : Type} [DecidableEq α] (d : Nat → α) (t : Tab α) : Bool := Tab.wfFrom d none t

/-- Drop every listed entry whose number fails `keep` (it then reads as unlisted). -/
def Tab.keep {α : Type} (p : Nat → Bool) (t : Tab α) : Tab α := t.filter fun e => p e.1

/-- Map the listed entries, keeping the canonical form. -/
def Tab.mapTab {α : Type} [DecidableEq α] (d : Nat → α) (f : Nat → α → α) (t : Tab α) : Tab α :=
  (t.map fun e => (e.1, f e.1 e.2)).filter fun e => decide (e.2 ≠ d e.1)

/-- Write `f k` at every number of `ks`. -/
def Tab.writeAll {α : Type} [DecidableEq α] (d : Nat → α) (f : Nat → α → α) : List Nat → Tab α → Tab α
  | [], t => t
  | k :: ks, t => Tab.writeAll d f ks (Tab.modify d t k (f k))

end Sys2Proof
end

