-- ==== Sys2Proof/Machine/StateLink.lean ====
section
/-!
DEFINITION. State of the links, of Sinter, of the fleet services and of fleet time.
-/
/-! State of the links (chapter "Links, Frames and Traffic Control"). A channel is one direction pair of numbered
delivery: that of a port, numbered as the port, or that of an uplink peer, numbered 256 and its entry in the peer
table (R281). The region links of a die hub are ports 64 to 79 (R253: they stand in no page). -/

namespace Sys2Proof

/-- A proxy or package-window request that awaits its response (R17, R64, R268): its requester, when it was sent, whether
its tag is withheld after a time-out, the port it went to, and, for one passed on from a link, the port, the node and the
tag of the request that came; and its number among the forwarded ones (R62). -/
structure ProxyTag where
  req  : Req
  sent : FT
  dead : Bool
  port : Nat
  back : Option (Nat × BitVec 16 × BitVec 16)
  num  : Nat
  /-- the channel it went over: the peer of an Ethernet port (R270) -/
  chan : Nat
deriving DecidableEq, Repr

/-- PSTAT.STATE of a port (R295). -/
inductive PortState where
  | down | training | up | standby | quarantined | failed
deriving DecidableEq, Repr

def PortState.code : PortState → Nat
  | .down => 0 | .training => 1 | .up => 2 | .standby => 3 | .quarantined => 4 | .failed => 5

/-- A frame that waits in an egress queue: everything of its header but LSEQ and ACK, its payload, the channel
it leaves on, and its fair-queueing tag (R255, R285). -/
structure QFrame where
  typ     : Byte
  sz      : Bool
  more    : Bool
  frag    : Nat
  src     : BitVec 16
  dst     : BitVec 16
  hops    : Nat
  tag     : BitVec 16
  payload : List Byte
  chan    : Nat
  ftag    : BitVec 64
  /-- the channel whose receive buffer holds a forwarded frame until it is sent (R266) -/
  came    : Option Nat := none
deriving DecidableEq, Repr

/-- A frame in a replay buffer, as stored (R264), with its header fields for a parent change (R292). -/
structure Sent where
  seq   : BitVec 16
  bytes : List Byte
  frame : QFrame
deriving DecidableEq, Repr

/-- A message in reassembly (R259): its TYPE, originator and tag, the next fragment index, the payload so far, and
whether a rejected fragment has it discarded (R309). -/
structure Reasm where
  typ  : Byte
  src  : BitVec 16
  tag  : BitVec 16
  next : Nat
  data : List Byte
  bad  : Bool := false
deriving DecidableEq, Repr

/-- Link keys of one direction: key, salt and counter (R260, R500). -/
structure LinkKey where
  key  : List Byte
  salt : List Byte
  ctr  : BitVec 64
deriving DecidableEq, Repr

/-- Delivery on one channel (R264 to R267). -/
structure Chan where
  /-- next LSEQ to send, next LSEQ expected, and whether a frame has been accepted since the counters reset -/
  txSeq   : BitVec 16
  rxSeq   : BitVec 16
  replay  : List Sent
  /-- frames still to be sent again after a NAK, oldest first -/
  again   : List Sent
  /-- BUSY: no replay before this instant (R267) -/
  busyTo  : FT
  /-- NAKs received for one LSEQ without an ACK passing it (R265) -/
  nakSeq  : BitVec 16
  naks    : Nat
  /-- the last NAK sent: its LSEQ and instant (R264) -/
  sentNak : Option (BitVec 16 × FT)
  /-- an ACK is owed (R264) -/
  owesAck : Bool
  /-- C2, C3, C7: units freed here, units reported in the latest LINK_CTRL, units received; the partner's
  count, and units used toward it (R266) -/
  freed   : Tab Nat
  told    : Tab Nat
  got     : Tab Nat
  count   : Tab Nat
  used    : Tab Nat
  /-- LINK_CTRL frames to send, and when something was last sent and heard (R270) -/
  ctl     : List LinkCtrl
  sentAt  : FT
  heardAt : FT
  reasm   : Tab (Option Reasm)
  /-- by class, the Sinter fragments of a message for another node, until its last has come (R259, R309) -/
  szParts : Tab (List Msg)
  txKey   : Option LinkKey
  rxKey   : Option LinkKey
  armed   : Bool
deriving DecidableEq, Repr

def Chan.reset (_ : Nat) : Chan :=
  { txSeq := 0, rxSeq := 0, replay := [], again := [], busyTo := 0, nakSeq := 0, naks := 0, sentNak := none,
    owesAck := false, freed := [], told := [], got := [], count := [], used := [], ctl := [], sentAt := 0, heardAt := 0,
    reasm := [], szParts := [], txKey := none, rxKey := none, armed := false }

/-- The phase of a K-link's training (R276), and of a package link's alignment (R272). -/
inductive TrainPhase where
  | idle | ts1 | ts2 | stream
deriving DecidableEq, Repr

/-- A lane swap asked for by this receiver (R278): the lane, SWAP_AT, whether it is answered, repeats sent. -/
structure Swap where
  lane     : Nat
  atPair   : Nat
  answered : Bool
  repeats  : Nat
deriving DecidableEq, Repr

/-- One direction's lane map (LANEMAP of R295): failed lanes, the free spare (7 none), and the physical lanes
of logical lanes 0 to 3. -/
structure LaneMap where
  failed : BitVec 5
  spare  : BitVec 3
  map    : BitVec 12
deriving DecidableEq, Repr

def LaneMap.reset : LaneMap := { failed := 0, spare := 4, map := 0x688 }

/-- A time-gate list: entries of GATES and DURATION (R288). -/
structure GateList where
  entries : List (Byte × Nat)
  base    : FT
deriving DecidableEq, Repr

/-- One link port. -/
structure LinkPort where
  state    : PortState
  trains   : Nat
  peer     : BitVec 16
  /-- the partner is an aggregator, says it is primary, and lets its spare be used (TS1, TS2) -/
  agg      : Bool
  primary  : Bool
  phase    : TrainPhase
  attempts : Nat
  /-- consecutive good TS1 blocks, inverted polarity and trained, by physical lane -/
  good     : Tab Nat
  invert   : BitVec 5
  trained  : BitVec 5
  ts2Got   : Nat
  ts2Sent  : Nat
  /-- UCIe: the adapter reports the link active, and ALIGN chunks seen (R271, R272) -/
  active   : Bool
  aligns   : Nat
  rxMap    : LaneMap
  txMap    : LaneMap
  swap     : Option Swap
  /-- the sender's answered swap: lane and pair (R278) -/
  txSwap   : Option (Nat × Nat)
  rxPair   : Nat
  txPair   : Nat
  rxScr    : BitVec 58
  txScr    : BitVec 58
  /-- corrected bytes by physical lane in the present 250 ns, that interval's number, missing markers by lane -/
  laneErr  : Tab Nat
  laneSlot : Nat
  missing  : Tab Nat
  /-- consecutive uncorrectable codewords (R272, R277) -/
  badRun   : Nat
  /-- the frame in progress in the received stream, and whether the receiver waits for the next FFP (R262) -/
  rxBuf    : List Byte
  rxSkip   : Bool
  /-- received frames not yet handled, with their channels -/
  rx       : List (Nat × List Byte)
  /-- stream bytes to send, and where in them frames begin -/
  txBuf    : List Byte
  txStarts : List Nat
  /-- egress queues by class, oldest first -/
  queues   : Tab (List QFrame)
  /-- C0 and C1 frames that wait in the ingress buffer for another port's queue (R284) -/
  held     : List (Nat × Msg)
  vtime    : BitVec 64
  finish   : Tab (BitVec 64)
  /-- C0 and C1 tokens (R284), and the policing buckets by class and place (R286) -/
  tokens   : Tab Nat
  sources  : Tab (List (BitVec 16))
  police   : Tab Nat
  /-- gate lists (R288, R289): the one in force, the one awaiting its BASE, the one being written, the number
  of lists made active, and the first instant at which a window may open after a step of fleet time -/
  gates    : GateList
  nextGates : Option GateList
  written  : Tab Word
  gateNo   : Nat
  gateFrom : FT
  gatePage : Option (Bool × Nat)
  /-- what a fault found in a received codeword or lane owes the port: the end of the link (true) or its reset (R265, R279) -/
  due      : Option Bool
deriving DecidableEq, Repr

/-- Full C0 and C1 buckets at reset (CAP.BURST of R295). -/
def tokensReset (_ : Nat) : Nat := 4096

def LinkPort.reset (_ : Nat) : LinkPort :=
  { state := .down, trains := 0, peer := 0, agg := false, primary := false, phase := .idle, attempts := 0, good := [],
    invert := 0, trained := 0, ts2Got := 0, ts2Sent := 0, active := false, aligns := 0, rxMap := LaneMap.reset,
    txMap := LaneMap.reset, swap := none, txSwap := none, rxPair := 0, txPair := 0, rxScr := BitVec.allOnes 58,
    txScr := BitVec.allOnes 58, laneErr := [], laneSlot := 0, missing := [], badRun := 0, rxBuf := [], rxSkip := false,
    rx := [], txBuf := [], txStarts := [], queues := [], held := [], vtime := 0, finish := [], tokens := [],
    sources := [], police := [], gates := { entries := [], base := 0 }, nextGates := none, written := [], gateNo := 0,
    gateFrom := 0, gatePage := none, due := none }

/-- An entry of the ETH peer table (R281, R296): MAC, valid, port U0 to U3, and node. -/
structure EthPeer where
  mac   : BitVec 48
  valid : Bool
  port  : BitVec 2
  node  : BitVec 16
deriving DecidableEq, Repr

def EthPeer.reset (_ : Nat) : EthPeer := { mac := 0, valid := false, port := 0, node := 0 }

/-- TWIN_STAT.STATE (R296). -/
inductive TwinState where
  | alone | paired | mirroring | lost
deriving DecidableEq, Repr

def TwinState.code : TwinState → Nat
  | .alone => 0 | .paired => 1 | .mirroring => 2 | .lost => 3

/-- A PARENT_SWAP that waits for the new parent's mirror (R293): the page, the downlinks, and its start. -/
structure SwapWait where
  pkg   : Bool
  page  : Nat
  down  : Nat
  start : FT
deriving DecidableEq, Repr

/-- The links. -/
structure Links where
  /-- TRAY and DOWN of this node, learned from the first LINK_CTRL of the parent (R258) -/
  tray    : Nat
  trayKnown : Bool
  down    : Nat
  /-- system role: the uplink port toward the primary parent, 32 (U0) or 33 (U1), or 35 after failover (R20) -/
  upPort  : Nat
  /-- tray KXA-32: the uplink, 32 or 33, whose traffic U3 has taken (R20) -/
  spareFor : Option Nat
  /-- pod role: the trays heard below, rising (R258) -/
  trays   : List Nat
  ports   : Tab LinkPort
  chans   : Tab Chan
  proxies : Tab (Option ProxyTag)
  peers   : Tab EthPeer
  /-- parent changes (PARENT.CHANGES); outputs are held until a takeover completes (R292) -/
  changes : Nat
  holding : Bool
  /-- the twin's state (R296): its state, takeovers, and the downlinks this KXA-32 is primary for -/
  twin      : TwinState
  takeovers : Nat
  downPrimary : BitVec 32
  swapWait : Option SwapWait
deriving DecidableEq, Repr

def Links.reset : Links :=
  { tray := 0, trayKnown := false, down := 0, upPort := 32, spareFor := none, trays := [], ports := [], chans := [],
    proxies := [], peers := [], changes := 0, holding := false, twin := .alone, takeovers := 0,
    downPrimary := 0xFFFFFFFF, swapWait := none }

end Sys2Proof

/-! State of the Sinter codec (chapter "Sinter Compression"). -/

namespace Sys2Proof

/-- A message in the compressor's queue (R307, R308): its port, the bytes still to be covered, and the blocks
formed so far. -/
structure EncWork where
  port   : Nat
  msg    : Msg
  rest   : List Byte
  blocks : List (List Byte)
deriving DecidableEq, Repr

/-- A frame in the decompressor's queue (R309): the port and channel it came on, its header fields, its payload,
and the C7 credit units that are freed once it is decoded. -/
structure DecWork where
  port    : Nat
  chan    : Nat
  typ     : Byte
  cls     : Nat
  more    : Bool
  frag    : Nat
  src     : BitVec 16
  tag     : BitVec 16
  payload : List Byte
  units   : Nat
deriving DecidableEq, Repr

/-- A SINTER_PACK in progress (R310, R311): its arguments, the next block, the next output offset, block offsets
so far, RAW blocks, and the input bytes of the next block once they have been read. -/
structure PackJob where
  pkg    : Bool
  page   : Nat
  inAt   : Nat
  total  : Nat
  outAt  : Nat
  cap    : Nat
  blkIn  : Nat
  next   : Nat
  pos    : Nat
  offs   : List Nat
  raws   : Nat
  buf    : Option (List Byte)
  /-- 0 blocks, 1 index, 2 header -/
  phase  : Nat
  /-- a write has completed in a Snuff: the command goes on once it is cleared (R315) -/
  stop   : Bool := false
deriving DecidableEq, Repr

/-- A SINTER_UNPACK in progress (R312): its arguments, the stream's fields, block offsets, the block in hand and
its bytes once read, and the counts for the results. -/
structure UnpackJob where
  pkg    : Bool
  page   : Nat
  inAt   : Nat
  len    : Nat
  outAt  : Nat
  first  : Nat
  count  : Nat
  blkIn  : Nat
  total  : Nat
  nblk   : Nat
  chk    : Nat
  offs   : List Nat
  next   : Nat
  buf    : Option (List Byte)
  wrote  : Nat
  good   : Nat
  bad    : Nat
  badAt  : Nat
  /-- 0 header, 1 index, 2 blocks -/
  phase  : Nat
deriving DecidableEq, Repr

/-- Compressor and decompressor. -/
structure Sinter where
  enc    : List EncWork
  dec    : List DecWork
  pack   : Option PackJob
  unpack : Option UnpackJob
deriving DecidableEq, Repr

def Sinter.reset : Sinter := { enc := [], dec := [], pack := none, unpack := none }

end Sys2Proof

/-! State of the service processors (chapter "Fleet Services: Stragglers, Drift, Liveness and Job Start"). -/

namespace Sys2Proof

/-- JDATA_0.STATE. -/
inductive JobState where
  | idle | armed | running | ended
deriving DecidableEq, Repr

def JobState.code : JobState → Nat
  | .idle => 0 | .armed => 1 | .running => 2 | .ended => 3

/-- An entry of the job table (R318, R349). -/
structure JobEntry where
  root    : Bool
  state   : JobState
  member  : Bool
  job     : BitVec 16
  runtime : BitVec 16
  /-- the job's root node, and the broadcast that started it -/
  rootNode : BitVec 16
  seq     : BitVec 32
  qp      : BitVec 16
  ratio   : BitVec 16
  loExp   : BitVec 6
  /-- in µs -/
  stepWait : BitVec 32
  t       : FT
  waves   : Bool
  /-- LAST_STEP and LAST_Q -/
  lastStep : BitVec 32
  lastQ   : BitVec 32
  armedAtT : BitVec 16
  stragglers : BitVec 16
  stepGap : BitVec 16
  /-- the previous mark: its instant and, after the first, its STEP_NO -/
  mark    : FT
  markNo  : Option (BitVec 32)
  /-- a Snuff has cut the node since the previous mark (R335) -/
  snuffed : Bool
  /-- the job's children with their latest ARMED counts (R325) -/
  kids    : Tab Nat
  /-- the quantile of each step emitted here (R332) -/
  done    : Tab (Option (Nat × List Nat))
  /-- late pairs already tested: step and ELEM_ID -/
  lates   : List (Nat × Nat)
deriving DecidableEq, Repr

/-- An open step window (R330, R331): histogram, pairs, elements held, children that have contributed, the
node's first contribution, and LATE pairs that came before the quantile was found. -/
structure StepWin where
  job   : BitVec 16
  step  : BitVec 32
  under : Nat
  above : Nat
  c     : Tab Nat
  pairs : List (Int × Nat)
  dies  : Nat
  /-- the sum of the EXPECTs of the partials it holds (R331) -/
  expect : Nat
  got   : List Nat
  since : FT
  stale : Bool
  late  : List (Int × Nat)
deriving DecidableEq, Repr

/-- Counts of a broadcast's acknowledgement (R325). -/
structure AckCounts where
  armed     : Nat
  notArmed  : Nat
  notMember : Nat
  missing   : Nat
deriving DecidableEq, Repr

def AckCounts.zero (_ : Nat) : AckCounts := { armed := 0, notArmed := 0, notMember := 0, missing := 0 }

/-- A pending broadcast (R323): its payload, when it leaves the table, this node's own counts, the children it
was forwarded to, their latest acknowledgements, the first refusal seen, and what was last sent upward. -/
structure PendBcast where
  b       : Bcast
  leaves  : FT
  own     : AckCounts
  expect  : List Nat
  acks    : Tab (Option AckCounts)
  reason  : Byte
  first   : BitVec 16
  sent    : Option (AckCounts × FT)
deriving DecidableEq, Repr

/-- The level of a watched node (R338). -/
inductive Level where
  | ok | suspect | dead | absent
deriving DecidableEq, Repr

def Level.code : Level → Nat
  | .ok => 0 | .suspect => 1 | .dead => 2 | .absent => 3

/-- A watched node (R337 to R340): MISSED, its level, whether it has been heard since the last check and since
power-on, consecutive heard checks, PARKED, and checks spent parked with its ports down. -/
structure Watch where
  missed : Nat
  level  : Level
  heard  : Bool
  ever   : Bool
  heardRun : Nat
  parked : Bool
  downs  : Nat
deriving DecidableEq, Repr

def Watch.reset (_ : Nat) : Watch :=
  { missed := 0, level := .absent, heard := false, ever := false, heardRun := 0, parked := false, downs := 0 }

/-- An assertion (R342, R343): 1 ALIVE, 2 DEAD. -/
structure Assertion where
  job    : BitVec 16
  target : BitVec 16
  claim  : BitVec 2
  contested : Bool
  excluded  : Bool
deriving DecidableEq, Repr

def levelAbsent (_ : Nat) : Level := .absent
def ddataReset (_ : Nat) : Word := 0x00100000

/-- The service processors. -/
structure Svc where
  /-- the consumers have recorded the gap in progress (R32) -/
  gap     : Bool
  jobs    : Tab (Option JobEntry)
  wins    : List StepWin
  pend    : List PendBcast
  /-- the last 256 pairs (ORIGIN, SEQ) that have left the pending table, newest first -/
  past    : List (BitVec 16 × BitVec 32)
  /-- broadcasts originated since the page's incarnation began -/
  count   : BitVec 28
  /-- jobs for which this die hub is the runtime, with their roots -/
  runtimes : Tab (Option (BitVec 16))
  /-- broadcasts that an injection delays: instant, ports, payload -/
  delayed : List (FT × List Nat × Bcast)
  watch   : Tab Watch
  /-- the die table of a tray aggregator, at 8 × downlink + die -/
  dies    : Tab Level
  /-- the next liveness check -/
  checkAt : List FT
  claims  : List Assertion
  /-- drift watch entries as DDATA words, and the window of each one's latest notice, plus one -/
  drift   : Tab Word
  driftLast : Tab Nat
  /-- batch number of the latest PREDICT notice, plus one, at entity × 256 + code -/
  predict : Tab Nat
  /-- batches seen of each forest engine, and the close of the latest, plus one -/
  batches : Tab Nat
  batchAt : Tab Nat
  noticeSeq : BitVec 32
  /-- the last 256 pairs (ORIGIN, SEQ) of notices written to the ring, newest first -/
  written : List (BitVec 16 × BitVec 32)
deriving DecidableEq, Repr

def Svc.reset : Svc :=
  { gap := false, jobs := [], wins := [], pend := [], past := [], count := 0, runtimes := [], delayed := [], watch := [], dies := [],
    checkAt := [], claims := [], drift := [], driftLast := [], predict := [], batches := [], batchAt := [], noticeSeq := 0, written := [] }

end Sys2Proof

/-! State of the timekeeper (chapter "Fleet Time"): the servo, the ports' IEEE 1588 exchanges, the pending fleet-time
events and the pulse-per-second pins. -/

namespace Sys2Proof

/-- The servo's state (R237). -/
inductive Servo where
  | free | acquire | locked | holdover | fault
deriving DecidableEq, Repr

def Servo.code : Servo → Nat
  | .free => 0 | .acquire => 1 | .locked => 2 | .holdover => 3 | .fault => 4

/-- TPORT STAT.STATE of a port (R251). -/
inductive PtpState where
  | disabled | master | slave | standby | listening | passive | faulty
deriving DecidableEq, Repr

def PtpState.code : PtpState → Nat
  | .disabled => 0 | .master => 1 | .slave => 2 | .standby => 3 | .listening => 4 | .passive => 5 | .faulty => 6

/-- The latest completed Delay_Req exchange of a port (R235): corrected t3, t4, the correction, and when it
completed. -/
structure DelayExchange where
  t3   : Int
  t4   : Int
  corr : Int
  done : FT
deriving DecidableEq, Repr

/-- A two-step Sync that awaits its Follow_Up: sequence number, corrected t2, correction, arrival (R235). -/
structure SyncWait where
  seq  : BitVec 16
  t2   : Int
  corr : Int
  came : FT
deriving DecidableEq, Repr

/-- A Delay_Req that awaits its Delay_Resp: sequence number, corrected t3, when it was sent (R235). -/
structure DelayWait where
  seq  : BitVec 16
  t3   : Int
  sent : FT
deriving DecidableEq, Repr

/-- The IEEE 1588 state of one port (R231 to R235, R251). -/
structure TPort where
  state : PtpState
  /-- ROLE in force: a written ROLE takes its place at the next expiry of the Announce timer -/
  role  : Nat
  sync  : Option SyncWait
  dreq  : Option DelayWait
  exch  : Option DelayExchange
  /-- the latest sample: offset and the local time of its t2 -/
  last  : Option (Int × Int)
  lastAt : FT
  mpd   : Int
  /-- when the latest Sync arrived, or the role was taken -/
  heard : FT
  /-- the latest Announce received, and how many have been received of this master -/
  ann   : Option PtpAnn
  annCount : Nat
  /-- when it was received (R231, announceReceiptTimeout) -/
  annAt : FT
  syncSeq : BitVec 16
  dreqSeq : BitVec 16
  annSeq  : BitVec 16
deriving DecidableEq, Repr

def TPort.reset (_ : Nat) : TPort :=
  { state := .disabled, role := 7, sync := none, dreq := none, exch := none, last := none, lastAt := 0, mpd := 0,
    heard := 0, ann := none, annCount := 0, annAt := 0, syncSeq := 0, dreqSeq := 0, annSeq := 0 }

/-- What a pending fleet-time event is for (R245). -/
inductive EvtKind where
  | jobStart | wave | snuff | geyser | epochOrigin | relock
deriving DecidableEq, Repr

/-- A pending fleet-time event: its kind, its instant, and a number of the kind's own (a job, a wave, a Snuff
scope). -/
structure Evt where
  kind : EvtKind
  t    : FT
  key  : Nat
deriving DecidableEq, Repr

/-- A TIME_RELOCK in progress (R243): its T where it names one, whether T has come, whether a sample has been
gathered, and the command page that waits (none at a timekeeper reached by the broadcast). -/
structure Relock where
  t       : Option FT
  due     : Bool
  started : Bool
  page    : Option (Bool × Nat)
deriving DecidableEq, Repr

/-- The timekeeper. Fleet time itself is the block's `now`. -/
structure Time where
  servo   : Servo
  /-- its clock runs and it is out of reset (R56, R518) -/
  running : Bool
  /-- RATE, the base rate and the integrator, in 2^-40 ns per ns (R238, R239) -/
  rate    : Int
  base    : Int
  integ   : Int
  /-- the SLAVE port the servo follows -/
  slave   : Option Nat
  /-- acting as grandmaster -/
  gm      : Bool
  /-- samples gathered by an acquisition or a relock: offset and local time, oldest first -/
  samples : List (Int × Int)
  /-- whether each of the last samples, at most four, was within LOCK_NS -/
  settled : List Bool
  /-- consecutive outliers (R240) -/
  run     : Nat
  offset  : Int
  mpd     : Int
  lastStep : FT
  stepSize : Int
  steps    : Nat
  outliers : Nat
  masterChg : Nat
  gmId    : BitVec 64
  removed : BitVec 16
  /-- STROBE_LEAD.PS: 0 until BIST has measured it (R246) -/
  lead    : BitVec 16
  /-- TIME_HOLD has forced HOLDOVER -/
  forced  : Bool
  holdFrom : FT
  holdMs  : Nat
  relock  : Option Relock
  /-- a relock asked for by a broadcast has failed and is not reported yet -/
  relockBad : Bool
  /-- a TIME_SET that waits for the next PPS_IN edge: its value and its command page -/
  setPps  : Option (FT × Bool × Nat)
  ppsIn   : FT
  ppsPrev : Option FT
  ppsOut  : Bool
  ppsFall : FT
  /-- the PTP second of the latest PPS_OUT pulse -/
  ppsLast : Nat
  evts    : List Evt
  ports   : Tab TPort
deriving DecidableEq, Repr

def Time.reset : Time :=
  { servo := .free, running := true, rate := 0, base := 0, integ := 0, slave := none, gm := false, samples := [],
    settled := [], run := 0, offset := 0, mpd := 0, lastStep := 0, stepSize := 0, steps := 0, outliers := 0,
    masterChg := 0, gmId := 0, removed := 0, lead := 0, forced := false, holdFrom := 0, holdMs := 0,
    relock := none, relockBad := false, setPps := none, ppsIn := 0, ppsPrev := none, ppsOut := false, ppsFall := 0, ppsLast := 0,
    evts := [], ports := [] }

end Sys2Proof
end

