-- ==== Sys2Proof/Machine/Bits.lean ====
section
/-!
DEFINITION. Bit fields of words, little-endian byte sequences, saturating counts and two's-complement
numbers: the plain arithmetic every chapter of the manual uses.
-/
namespace Sys2Proof

/-- The field of `len` bits whose least significant bit is bit `lo`. -/
def fld {n : Nat} (w : BitVec n) (lo len : Nat) : Nat := (w.toNat / 2 ^ lo) % 2 ^ len

/-- Bit `i`. -/
def bit {n : Nat} (w : BitVec n) (i : Nat) : Bool := w.getLsbD i

/-- `w` with the field of `len` bits at bit `lo` replaced by `v`. -/
def setFld {n : Nat} (w : BitVec n) (lo len v : Nat) : BitVec n :=
  BitVec.ofNat n (w.toNat - fld w lo len * 2 ^ lo + (v % 2 ^ len) * 2 ^ lo)

/-- `w` with bit `i` set to `b`. -/
def setBit {n : Nat} (w : BitVec n) (i : Nat) (b : Bool) : BitVec n :=
  if b then w ||| BitVec.ofNat n (2 ^ i) else w &&& ~~~ (BitVec.ofNat n (2 ^ i))

/-- The word that holds the number `v` modulo 2^32. -/
def word (v : Nat) : Word := BitVec.ofNat 32 v

/-- The word in which only bit `i` is set. -/
def bw (i : Nat) : Word := BitVec.ofNat 32 (2 ^ i)

/-- Word `i` of a number, the least significant word first (R76). -/
def wordOf (v i : Nat) : Word := BitVec.ofNat 32 (v / 2 ^ (32 * i))

/-- The number that words, least significant first, spell. -/
def ofWords : List Word → Nat
  | [] => 0
  | w :: ws => w.toNat + 2 ^ 32 * ofWords ws

/-- The `n` bytes of `v`, least significant first (R7). -/
def leBytes : Nat → Nat → List Byte
  | 0, _ => []
  | n + 1, v => BitVec.ofNat 8 v :: leBytes n (v / 256)

/-- The `n` bytes of `v`, most significant first (link byte order). -/
def beBytes (n v : Nat) : List Byte := (leBytes n v).reverse

/-- The number that bytes, least significant first, spell. -/
def ofLe : List Byte → Nat
  | [] => 0
  | b :: bs => b.toNat + 256 * ofLe bs

/-- The number that bytes, most significant first, spell. -/
def ofBe (bs : List Byte) : Nat := ofLe bs.reverse

/-- Bytes `lo` to `lo + n - 1` of a list, zero beyond its end. -/
def slice (bs : List Byte) (lo n : Nat) : List Byte :=
  let t := (bs.drop lo).take n
  t ++ List.replicate (n - t.length) 0

/-- The little-endian number in bytes `lo` to `lo + n - 1`. -/
def leAt (bs : List Byte) (lo n : Nat) : Nat := ofLe (slice bs lo n)

/-- The little-endian two's-complement number in bytes `lo` to `lo + n - 1`. -/
def leIntAt (bs : List Byte) (lo n : Nat) : Int :=
  let v := leAt bs lo n
  if 2 ^ (8 * n - 1) ≤ v then (v : Int) - 2 ^ (8 * n) else v

/-- The bytes of words, least significant byte first (R7). -/
def bytesOfWords : List Word → List Byte
  | [] => []
  | w :: ws => leBytes 4 w.toNat ++ bytesOfWords ws

/-- `n` zero bytes. -/
def zeros (n : Nat) : List Byte := List.replicate n 0

/-- A list of bytes padded with zeros to `n`, or cut to it. -/
def padTo (n : Nat) (bs : List Byte) : List Byte := slice bs 0 n

/-- An unsigned count that stops at 2^w - 1. -/
def satAdd (w a b : Nat) : Nat := min (a + b) (2 ^ w - 1)

/-- Limit `v` to the range `lo` to `hi`. -/
def clamp (lo hi v : Nat) : Nat := if v < lo then lo else if hi < v then hi else v

/-- Limit an integer to a signed width. -/
def clampInt (lo hi v : Int) : Int := if v < lo then lo else if hi < v then hi else v

/-- The two's-complement number of `w` bits that `v` spells. -/
def sgn (w v : Nat) : Int :=
  let u := v % 2 ^ w
  if 2 ^ (w - 1) ≤ u then (u : Int) - 2 ^ w else u

/-- The `w`-bit two's-complement pattern of an integer. -/
def unsgn (w : Nat) (v : Int) : Nat := (v % (2 ^ w : Int)).toNat

/-- Division that rounds toward minus infinity. -/
def floorDiv (a b : Int) : Int := a.fdiv b

/-- Division of naturals that rounds up. -/
def ceilDiv (a b : Nat) : Nat := (a + b - 1) / b

/-- The integer square root and logarithm are not used by the block; the floor of log2 is. -/
def log2Floor (v : Nat) : Nat := v.log2

/-- The numbers `a`, `a + 1`, ... of which there are `n`. -/
def range' (a n : Nat) : List Nat := List.range' a n

/-- One nanosecond, one microsecond and one millisecond of fleet time, in 2^-16 ns (R5). -/
def ns : FT := 65536
def us : FT := 1000 * ns
def ms : FT := 1000 * us

/-- R6: every FT80 value the block produces or takes is cut to 1/64 ns, toward the earlier time. -/
def truncFT (t : FT) : FT := t - t % 1024

/-- Replace item `i` of a list. -/
def setNth {α : Type} (i : Nat) (v : α) : List α → List α
  | [] => []
  | x :: xs => match i with
    | 0 => v :: xs
    | j + 1 => x :: setNth j v xs

/-- Change item `i` of a list. -/
def modNth {α : Type} (i : Nat) (f : α → α) : List α → List α
  | [] => []
  | x :: xs => match i with
    | 0 => f x :: xs
    | j + 1 => x :: modNth j f xs

end Sys2Proof
end

