-- ==== Sys2Proof/Machine/RegMap.lean ====
section
/-!
DEFINITION. The register maps of the pages, one row per register or array of registers, from the register
tables of the chapters: where it stands, how many words it has, which bits a plain write changes, which bits
are cleared by writing one, and its reset value. What a write does beyond that is in Machine/RegWrite.lean.
-/
namespace Sys2Proof

/-- One register, or `count` registers `stride` bytes apart, of `words` words each.
`rw`: the bits a write changes (R4: every other bit is ignored). `w1c`: the bits that writing 1 clears.
`guarded`: RWG (R73). `aon`: its state lives in the always-on domain (R75). -/
structure RegRow where
  off : Nat
  count : Nat
  stride : Nat
  words : Nat
  rw : Nat
  w1c : Nat
  reset : Nat
  guarded : Bool
  aon : Bool
deriving DecidableEq, Repr

/-- A plain register or array. -/
def rrow (off count stride words rw w1c reset : Nat) : RegRow :=
  { off, count, stride, words, rw, w1c, reset, guarded := false, aon := false }

/-- A guarded register (RWG). -/
def grow (off rw reset : Nat) : RegRow :=
  { off, count := 1, stride := 4, words := 1, rw, w1c := 0, reset, guarded := true, aon := false }

/-- A register, or array, of the always-on domain (R75). -/
def arow (off count stride words rw w1c reset : Nat) : RegRow :=
  { off, count, stride, words, rw, w1c, reset, guarded := false, aon := true }

/-- The page-specific registers of DIR (R86). -/
def regRows01 : List RegRow := [
  rrow 0x040 1 4 1 0 0 0,  -- DIR_ROLE
  rrow 0x044 1 4 1 0 0 0x20001008,  -- DIR_COUNT0
  rrow 0x048 1 4 1 0 0 0x1004000,  -- DIR_COUNT1
  rrow 0x04C 1 4 1 0 0 0x1000040,  -- DIR_COUNT2
  rrow 0x050 1 4 1 0 0 0xC040000,  -- DIR_COUNT3
  rrow 0x054 1 4 1 0 0 0,  -- DIR_IMPL
  rrow 0x080 4 16 1 0xFFFFFFFC 0 0,  -- DIR_MSG_ADDR_LO
  rrow 0x084 4 16 1 0xFFFFFFFF 0 0,  -- DIR_MSG_ADDR_HI
  rrow 0x088 4 16 1 0xFFFFFFFF 0 0,  -- DIR_MSG_DATA
  rrow 0x0C0 8 4 1 0xC000FF0F 0 0  -- DIR_PROXY
]

/-- The page-specific registers of PACE (R58). -/
def regRows02 : List RegRow := [
  grow 0x040 0xFFF 0xFFF,  -- PACE_SYNC
  rrow 0x044 1 4 1 0xF 0 0x4,  -- PACE_HSTO
  rrow 0x048 3 4 1 0 0 0,  -- PACE_NCLK
  rrow 0x054 1 4 1 0 0 0,  -- PACE_SPEED
  rrow 0x058 1 4 1 0 0 0,  -- PACE_ARB_CLOSE
  rrow 0x05C 1 4 1 0 0x1F 0,  -- PACE_FAULT
  rrow 0x080 16 4 1 0 0 0,  -- PACE_RING
  rrow 0x0C0 16 4 1 0 0 0  -- PACE_EST
]

/-- The page-specific registers of UNITWIN (R77, R79). -/
def regRows03 : List RegRow := [
  rrow 0x040 1 4 3 0 0 0,  -- UNITWIN_SNAP_TIME
  rrow 0x050 4 4 1 0xE000FFFF 0 0,  -- UNITWIN_INDEX
  rrow 0x060 2 4 1 0 0 0  -- UNITWIN_INCARN
]

/-- The page-specific registers of JOB (R70). -/
def regRows04 : List RegRow := [
  rrow 0x100 128 4 1 0xFFFFFFFF 0 0  -- JOB_SLOT
]

/-- The page-specific registers of CMD (R80, R82). -/
def regRows08 : List RegRow := [
  rrow 0x040 1 4 1 0 0 0,  -- CMD_CMD
  rrow 0x044 1 4 1 0 0x40000000 0,  -- CMD_STAT
  rrow 0x048 1 4 1 0xFFFF 0 0,  -- CMD_LOCK
  rrow 0x080 32 4 1 0xFFFFFFFF 0 0,  -- CMD_ARG
  rrow 0x100 32 4 1 0 0 0  -- CMD_RES
]

/-- The page-specific registers of SAMP (R118). -/
def regRows10 : List RegRow := [
  rrow 0x040 1 4 1 0 0 0xF4240,  -- SAMP_PERIOD
  rrow 0x044 1 4 1 0x6 0 0x6,  -- SAMP_CFG
  rrow 0x048 1 4 3 0 0 0,  -- SAMP_ORIGIN
  rrow 0x058 1 4 2 0 0 0,  -- SAMP_EPOCH_NO
  rrow 0x060 1 4 3 0 0 0,  -- SAMP_LAST_CLOSE
  rrow 0x06C 1 4 1 0 0 0,  -- SAMP_CLOSE_FLAGS
  rrow 0x070 1 4 1 0 0 0,  -- SAMP_PEND_PERIOD
  rrow 0x078 1 4 3 0 0 0,  -- SAMP_PEND_ORIGIN
  rrow 0x088 1 4 2 0 0 0,  -- SAMP_BASE_NO
  rrow 0x100 16 8 1 0xFFFFFFFF 0 0x76543210,  -- SAMP_EVSEL
  rrow 0x104 16 8 1 0x7FFFF 0 0x7FFFF  -- SAMP_RMASK
]

/-- The page-specific registers of GEYSER (R119). -/
def regRows11 : List RegRow := [
  rrow 0x040 1 4 1 0x3FFF 0 0x1028,  -- GEYSER_CFG
  rrow 0x044 1 4 1 0xFFFFFFFF 0 0,  -- GEYSER_PREPOST
  rrow 0x048 1 4 3 0xFFFFFFFFFFFFFFFFFC00 0 0,  -- GEYSER_TRIG_TIME
  rrow 0x054 1 4 1 0xFFFFF1FF 0 0,  -- GEYSER_TRIG_SRC
  rrow 0x060 1 4 1 0 0 0,  -- GEYSER_STATUS
  rrow 0x068 1 4 2 0xFFFFFFFFFFFFFFC0 0 0,  -- GEYSER_RING_BASE
  rrow 0x070 1 4 1 0x1F 0 0xC,  -- GEYSER_RING_SIZE
  rrow 0x074 1 4 1 0 0 0,  -- GEYSER_WPTR
  rrow 0x078 1 4 1 0xFFFFFFFF 0 0,  -- GEYSER_RPTR
  rrow 0x100 32 4 1 0x9FFF9FFF 0 0  -- GEYSER_UNIT
]

/-- The page-specific registers of SPARE (R220). -/
def regRows12 : List RegRow := [
  rrow 0x040 1 4 1 0 0 0x400,  -- SPARE_CAP
  rrow 0x044 1 4 1 0 0 0,  -- SPARE_COUNT
  rrow 0x048 1 4 1 0xFFFF 0 0,  -- SPARE_IDX
  rrow 0x050 4 4 1 0 0 0  -- SPARE_ENTRY
]

/-- The page-specific registers of RED (R161). -/
def regRows18 : List RegRow := [
  rrow 0x040 1 4 1 0 0 0,  -- RED_PROG
  rrow 0x044 1 4 1 0xFFFF 0 0,  -- RED_WAIT
  rrow 0x048 1 4 1 0 0 0,  -- RED_LATE
  rrow 0x04C 1 4 1 0 0 0,  -- RED_DUP
  rrow 0x050 1 4 1 0 0 0,  -- RED_REJECT
  rrow 0x054 1 4 1 0xFF 0 0,  -- RED_SLOT_INDEX
  rrow 0x058 1 4 1 0xFFFF 0 0x8000,  -- RED_QP
  rrow 0x05C 1 4 1 0 0 0,  -- RED_QINFO
  rrow 0x060 1 4 2 0 0 0,  -- RED_QVAL
  rrow 0x100 64 4 1 0xFFFFFFFF 0 0,  -- RED_MVAL
  rrow 0x200 274 4 1 0 0 0  -- RED_SLOT_RECORD
]

/-- The page-specific registers of FOREST (R200). -/
def regRows20 : List RegRow := [
  rrow 0x040 1 4 1 0 0 0,  -- FOREST_IMG
  rrow 0x044 1 4 1 0x6 0 0x2,  -- FOREST_CFG
  rrow 0x048 1 4 1 0xFFFF 0 0x64,  -- FOREST_SCRUB
  rrow 0x04C 1 4 1 0 0 0,  -- FOREST_BATCH
  rrow 0x050 1 4 1 0 0 0,  -- FOREST_NEXT
  rrow 0x054 1 4 1 0 0 0,  -- FOREST_SKIP
  rrow 0x058 1 4 1 0 0 0,  -- FOREST_UNSCORED
  rrow 0x05C 1 4 1 0 0 0,  -- FOREST_DEFHIT
  rrow 0x060 1 4 1 0 0 0,  -- FOREST_SCRUBFIX
  rrow 0x064 1 4 1 0 0 0,  -- FOREST_SPARE
  rrow 0x068 1 4 1 0x3FFF 0 0,  -- FOREST_VIDX
  rrow 0x06C 1 4 1 0 0 0,  -- FOREST_VDATA
  rrow 0x070 1 4 2 0xFFFFFFFFFFFFFFE0 0 0,  -- FOREST_RING_BASE
  rrow 0x078 1 4 1 0x1F 0 0xC,  -- FOREST_RING_SIZE
  rrow 0x07C 1 4 1 0 0 0,  -- FOREST_WPTR
  rrow 0x080 1 4 1 0xFFFFFFFF 0 0,  -- FOREST_RPTR
  rrow 0x084 1 4 1 0 0 0,  -- FOREST_RING_DROP
  rrow 0x100 64 4 1 0 0 0  -- FOREST_BANK
]

/-- The page-specific registers of FTAB (R201). -/
def regRows21 : List RegRow := [
  rrow 0x040 1 4 1 0 0 0,  -- FTAB_STAT
  rrow 0x044 1 4 1 0x80003FFF 0 0,  -- FTAB_INDEX
  rrow 0x048 1 4 1 0xFFFFFFFF 0 0,  -- FTAB_DIR
  rrow 0x080 16 4 1 0xFFFFFFFF 0 0  -- FTAB_DATA
]

/-- The page-specific registers of CHECK (R228). -/
def regRows28 : List RegRow := [
  rrow 0x040 1 4 1 0x2 0 0x2,  -- CHECK_CFG
  rrow 0x044 1 4 1 0xFFFF 0 0x1,  -- CHECK_TAINT
  rrow 0x048 1 4 1 0 0 0,  -- CHECK_TEPOCH
  rrow 0x04C 1 4 1 0xFFFFFF 0 0x4E20,  -- CHECK_KAT_IDLE
  rrow 0x050 1 4 1 0xFFFF 0 0x64,  -- CHECK_KAT_LIMIT
  rrow 0x054 1 4 1 0 0 0,  -- CHECK_KAT_STAT
  rrow 0x058 1 4 1 0 0 0,  -- CHECK_KAT_AGE
  rrow 0x05C 1 4 1 0xFF 0 0,  -- CHECK_KIDX
  rrow 0x060 14 4 1 0xFFFFFFFF 0 0,  -- CHECK_KDATA
  rrow 0x098 1 4 1 0 0 0,  -- CHECK_RESID
  rrow 0x09C 1 4 1 0xFF 0 0x10,  -- CHECK_FENCE_CAP
  rrow 0x0A0 1 4 1 0 0 0,  -- CHECK_UNDELIV
  rrow 0x0A4 1 4 1 0xFF 0 0,  -- CHECK_REG_IDX
  rrow 0x0A8 1 4 1 0xBFFFFFFF 0 0,  -- CHECK_REG_DATA
  rrow 0x0B0 1 4 2 0xFFFFFFFFFFFFFFC0 0 0,  -- CHECK_RING_BASE
  rrow 0x0B8 1 4 1 0x1F 0 0xC,  -- CHECK_RING_SIZE
  rrow 0x0BC 1 4 1 0 0 0,  -- CHECK_WPTR
  rrow 0x0C0 1 4 1 0xFFFFFFFF 0 0,  -- CHECK_RPTR
  rrow 0x0C4 1 4 1 0 0 0,  -- CHECK_RING_DROP
  rrow 0x100 16 32 1 0x8000FFFF 0 0,  -- CHECK_SIG_0
  rrow 0x104 16 32 1 0xFFFFFFFF 0 0,  -- CHECK_SIG_1
  rrow 0x108 16 32 1 0xFFFFFFFF 0 0,  -- CHECK_SIG_2
  rrow 0x10C 16 32 1 0xFFFFFFFF 0 0,  -- CHECK_SIG_3
  rrow 0x110 16 32 1 0xFFFFFFFF 0 0  -- CHECK_SIG_4
]

/-- The page-specific registers of TIME (R250). -/
def regRows30 : List RegRow := [
  rrow 0x040 1 4 3 0 0 0,  -- TIME_NOW
  rrow 0x04C 1 4 1 0 0 0xFF,  -- TIME_STATE
  rrow 0x050 1 4 1 0xFFFFFFFF 0 0x8080F800,  -- TIME_DS
  rrow 0x054 1 4 1 0xFFFFFFFF 0 0x89700897,  -- TIME_SERVO
  rrow 0x058 1 4 1 0xFFFFFFFF 0 0x3E8,  -- TIME_STEP_LIMIT
  rrow 0x05C 1 4 1 0xFFF0FF 0 0x83004,  -- TIME_LOCK
  rrow 0x060 1 4 1 0 0 0,  -- TIME_RATE
  rrow 0x068 1 4 2 0 0 0,  -- TIME_OFFSET
  rrow 0x070 1 4 2 0 0 0,  -- TIME_MPD
  rrow 0x078 1 4 3 0 0 0,  -- TIME_LAST_STEP
  rrow 0x088 1 4 2 0 0 0,  -- TIME_STEP_SIZE
  rrow 0x090 1 4 3 0xFFFFFFFFFFFFFFFFFFFF 0 0,  -- TIME_EPOCH_BASE
  rrow 0x09C 1 4 1 0 0 0,  -- TIME_STROBE_LEAD
  rrow 0x0A0 1 4 1 0xE0FFFFFF 0 0x64,  -- TIME_PPS_CFG
  rrow 0x0A4 1 4 1 0xFFFFFFFF 0 0,  -- TIME_PPS_COMP
  rrow 0x0A8 1 4 3 0 0 0,  -- TIME_PPS_IN_TS
  rrow 0x0B4 1 4 1 0 0 0,  -- TIME_HOLD
  rrow 0x0B8 1 4 1 0 0 0x2000,  -- TIME_EVT
  rrow 0x0BC 1 4 1 0 0 0,  -- TIME_COUNTS
  rrow 0x0C0 1 4 2 0 0 0,  -- TIME_GM_ID
  rrow 0x0C8 1 4 1 0 0 0,  -- TIME_PARENT
  rrow 0x0CC 1 4 1 0x3FFFF 0 0  -- TIME_REFCLK
]

/-- The page-specific registers of TPORT (R251). -/
def regRows31 : List RegRow := [
  rrow 0x040 1 4 1 0 0 0x9,  -- TPORT_COUNT
  rrow 0x100 40 64 1 0xE0FFFFFF 0 0xE0F9F903,  -- TPORT_CFG
  rrow 0x104 40 64 1 0xFFFFFFFF 0 0,  -- TPORT_INGRESS
  rrow 0x108 40 64 1 0xFFFFFFFF 0 0,  -- TPORT_EGRESS
  rrow 0x10C 40 64 1 0xFFFFFFFF 0 0,  -- TPORT_CABLE
  rrow 0x110 40 64 1 0 0 0,  -- TPORT_STAT
  rrow 0x118 40 64 2 0 0 0,  -- TPORT_OFFSET
  rrow 0x120 40 64 2 0 0 0,  -- TPORT_MPD
  rrow 0x128 40 64 1 0 0 0,  -- TPORT_RXERR
  rrow 0x12C 40 64 1 0 0 0  -- TPORT_TSLOST
]

/-- The page-specific registers of PLINK (R295). -/
def regRows38 : List RegRow := [
  rrow 0x040 1 4 1 0 0 0x9,  -- PLINK_COUNT
  rrow 0x044 1 4 1 0 0 0,  -- PLINK_PARENT
  rrow 0x048 1 4 1 0xFF007F 0 0,  -- PLINK_GIDX
  rrow 0x04C 1 4 1 0xFFFFFFFF 0 0,  -- PLINK_GDATA
  rrow 0x100 9 128 1 0x80FFFF1C 0 0x80400810,  -- PLINK_PCFG
  rrow 0x104 9 128 1 0 0 0,  -- PLINK_PSTAT
  rrow 0x108 9 128 1 0 0 0x4688,  -- PLINK_LANEMAP
  rrow 0x10C 9 128 1 0xFFFFFFFF 0 0x8082040,  -- PLINK_WEIGHT_A
  rrow 0x110 9 128 1 0xFFFF 0 0x1004,  -- PLINK_WEIGHT_B
  rrow 0x114 9 128 1 0xFFFFFFFF 0 0x3001000,  -- PLINK_CAP0
  rrow 0x118 9 128 1 0xFFFFFFFF 0 0x3001000,  -- PLINK_CAP1
  rrow 0x11C 9 128 1 0xFFFFFFFF 0 0x4002000,  -- PLINK_POL4
  rrow 0x120 9 128 1 0xFFFFFFFF 0 0x8004000,  -- PLINK_POL5
  rrow 0x124 9 128 1 0xFFFFFFFF 0 0x4002000,  -- PLINK_POL6
  rrow 0x128 9 128 1 0 0 0,  -- PLINK_GATE
  rrow 0x12C 9 128 1 0 0 0,  -- PLINK_FEC_CORR
  rrow 0x130 9 128 1 0 0 0,  -- PLINK_FEC_UNC
  rrow 0x134 9 128 1 0 0 0,  -- PLINK_REPLAY
  rrow 0x138 9 128 1 0 0 0,  -- PLINK_POL_DROP4
  rrow 0x13C 9 128 1 0 0 0,  -- PLINK_POL_DROP5
  rrow 0x140 9 128 1 0 0 0,  -- PLINK_POL_DROP6
  rrow 0x144 9 128 1 0 0 0,  -- PLINK_QDROP
  rrow 0x148 9 128 1 0 0 0,  -- PLINK_FO_DROP
  rrow 0x14C 9 128 1 0 0 0,  -- PLINK_VIOL
  rrow 0x150 9 128 1 0 0 0,  -- PLINK_CRD_AVAIL
  rrow 0x154 9 128 1 0 0 0  -- PLINK_GCYCLE
]

/-- The page-specific registers of SINTER (R316). -/
def regRows39 : List RegRow := [
  rrow 0x040 1 4 1 0xE0 0 0x80,  -- SINTER_CFG
  rrow 0x044 1 4 1 0 0 0xE1000,  -- SINTER_CAP
  rrow 0x048 1 4 1 0 0 0,  -- SINTER_STAT
  rrow 0x050 1 4 2 0 0 0,  -- SINTER_IN_BYTES
  rrow 0x058 1 4 2 0 0 0,  -- SINTER_OUT_BYTES
  rrow 0x060 1 4 1 0 0 0,  -- SINTER_BLOCKS
  rrow 0x064 1 4 1 0 0 0,  -- SINTER_RAW
  rrow 0x068 1 4 1 0 0 0,  -- SINTER_BYPASS
  rrow 0x06C 1 4 1 0 0 0,  -- SINTER_DEC_ERR
  rrow 0x070 1 4 1 0 0 0  -- SINTER_LAST_ERR
]

/-- The page-specific registers of SVC (R349). -/
def regRows40 : List RegRow := [
  rrow 0x040 1 4 1 0x7 0 0x7,  -- SVC_CFG
  rrow 0x044 1 4 1 0xFFFFFF 0 0x101F4,  -- SVC_HB
  rrow 0x048 1 4 1 0xFFFFFFFF 0 0x20080204,  -- SVC_SUSP
  rrow 0x04C 1 4 1 0xFFFF0000 0 0xA0020,  -- SVC_BCAST
  rrow 0x050 1 4 1 0 0 0,  -- SVC_COUNTS
  rrow 0x054 1 4 1 0 0 0,  -- SVC_DROP
  rrow 0x058 1 4 2 0xFFFFFFFFFFFFFFC0 0 0,  -- SVC_RING_BASE
  rrow 0x060 1 4 1 0x1F 0 0xC,  -- SVC_RING_SIZE
  rrow 0x064 1 4 1 0 0 0,  -- SVC_WPTR
  rrow 0x068 1 4 1 0xFFFFFFFF 0 0,  -- SVC_RPTR
  rrow 0x06C 1 4 1 0 0 0,  -- SVC_RING_DROP
  rrow 0x070 1 4 1 0x3F 0 0x100000,  -- SVC_JIDX
  rrow 0x080 8 4 1 0xFFFFFFFF 0 0,  -- SVC_JDATA
  rrow 0x0A0 1 4 1 0xFFFF 0 0,  -- SVC_LIDX
  rrow 0x0A4 1 4 1 0 0 0,  -- SVC_LDATA
  rrow 0x0A8 1 4 1 0x1F 0 0,  -- SVC_DIDX
  rrow 0x0AC 1 4 1 0xFCFF00FF 0 0,  -- SVC_DDATA
  rrow 0x0B0 1 4 1 0x3F 0 0,  -- SVC_AIDX
  rrow 0x0B4 1 4 1 0 0 0,  -- SVC_ADATA0
  rrow 0x0B8 1 4 1 0 0 0,  -- SVC_ADATA1
  rrow 0x100 16 4 1 0xFFFFFFFF 0 0  -- SVC_VACT
]

/-- The page-specific registers of HPWR (R382). -/
def regRows48 : List RegRow := [
  rrow 0x040 1 4 1 0 0 0x40084008,  -- HPWR_COUNT
  rrow 0x044 1 4 1 0x7 0 0,  -- HPWR_CFG
  rrow 0x048 1 4 1 0 0 0xFFFFFFFF,  -- HPWR_CAP
  rrow 0x04C 1 4 1 0 0 0,  -- HPWR_MIN0
  rrow 0x050 1 4 1 0 0 0x240000,  -- HPWR_MIN1
  rrow 0x054 1 4 1 0xFFFFFFFF 0 0xA1964,  -- HPWR_CTRL
  rrow 0x058 1 4 1 0 0 0,  -- HPWR_EST
  rrow 0x05C 3 4 1 0 0 0,  -- HPWR_GRP
  rrow 0x068 1 4 1 0xFFFFFFFF 0 0x12011010,  -- HPWR_DROOP
  rrow 0x06C 1 4 1 0xFFFFFF00 0 0x3E80200,  -- HPWR_DHOLD
  rrow 0x070 1 4 1 0 0 0,  -- HPWR_DSTAT
  grow 0x074 0x3FF 0x373,  -- HPWR_LASTLINE
  rrow 0x078 1 4 1 0 0 0,  -- HPWR_STATE
  rrow 0x07C 1 4 1 0xFFFF0000 0 0x640000,  -- HPWR_PORTS
  rrow 0x080 1 4 1 0xFFFFFFFF 0 0xC80A8A,  -- HPWR_PMBUS
  rrow 0x084 1 4 1 0xFFFFFFFF 0 0x19007D0,  -- HPWR_RAMP
  rrow 0x088 1 4 1 0x8000FFFF 0 0x80000064,  -- HPWR_RAMP2
  rrow 0x08C 2 4 1 0xFFFFFFFF 0 0,  -- HPWR_WAVE_I
  rrow 0x094 1 4 1 0x73F 0 0,  -- HPWR_CIDX
  rrow 0x098 1 4 1 0 0 0,  -- HPWR_CORE_MAP0
  rrow 0x09C 1 4 1 0 0 0,  -- HPWR_CORE_MAP1
  rrow 0x0A0 1 4 1 0xFFFF0000 0 0,  -- HPWR_CORE_F
  rrow 0x0A4 1 4 1 0xFFFFFFFF 0 0,  -- HPWR_CORE_LIM
  rrow 0x0A8 1 4 1 0xFFFFFFFF 0 0,  -- HPWR_CORE_FIX
  rrow 0x0AC 1 4 1 0xFFFF 0 0,  -- HPWR_FMAX
  rrow 0x0B0 1 4 1 0x7 0 0,  -- HPWR_RIDX
  rrow 0x0B4 1 4 1 0xFFFFFF00 0 0xFF00,  -- HPWR_RAIL_CFG
  rrow 0x0B8 1 4 1 0 0 0x4000,  -- HPWR_RAIL_STAT
  rrow 0x0BC 1 4 1 0x3F 0 0,  -- HPWR_SIDX
  rrow 0x0C0 1 4 1 0 0 0,  -- HPWR_SDATA
  rrow 0x0C4 1 4 1 0xF 0 0,  -- HPWR_WIDX
  rrow 0x0C8 6 4 1 0xFFFFFFFF 0 0,  -- HPWR_WDATA
  rrow 0x0E0 1 4 1 0xFFFF 0 0x226,  -- HPWR_POINT_0
  rrow 0x0E4 1 4 1 0xFFFF 0 0x258,  -- HPWR_POINT_1
  rrow 0x0E8 1 4 1 0xFFFF 0 0x28A,  -- HPWR_POINT_2
  rrow 0x0EC 1 4 1 0xFFFF 0 0x2BC,  -- HPWR_POINT_3
  rrow 0x0F0 1 4 1 0xFFFF 0 0x2EE,  -- HPWR_POINT_4
  rrow 0x0F4 1 4 1 0xFFFF 0 0x320,  -- HPWR_POINT_5
  rrow 0x0F8 1 4 1 0xFFFF 0 0x352,  -- HPWR_POINT_6
  rrow 0x0FC 1 4 1 0xFFFF 0 0x384,  -- HPWR_POINT_7
  rrow 0x100 16 4 1 0xE0FFFFFF 0 0x46400,  -- HPWR_VPWR
  rrow 0x140 1 4 1 0x1F 0 0,  -- HPWR_DMAP_IDX
  rrow 0x144 1 4 1 0xFFFF 0 0x19,  -- HPWR_AGE
  rrow 0x148 1 4 2 0xFFFFFFFFFFFFFFFF 0 0  -- HPWR_DMAP
]

/-- The page-specific registers of BPWR (R414). -/
def regRows50 : List RegRow := [
  rrow 0x040 1 4 1 0 0 0,  -- BPWR_STATE
  arow 0x044 1 4 1 0xF0FFFFFF 0 0x106403E8,  -- BPWR_CFG
  arow 0x048 1 4 1 0xFFFFFFFF 0 0x3E803E8,  -- BPWR_TIMER
  arow 0x04C 1 4 1 0xF0FFFFFF 0 0xF0140400,  -- BPWR_WAKE
  arow 0x050 1 4 1 0xFFFFFFFF 0 0,  -- BPWR_EMBER_WAKE
  rrow 0x054 1 4 1 0 0 0,  -- BPWR_CAUSE
  rrow 0x058 1 4 1 0 0 0x10000000,  -- BPWR_RESET
  arow 0x05C 1 4 1 0 0x7FFFF 0x7FFFF,  -- BPWR_LOSS
  arow 0x060 1 4 1 0 0x870000 0,  -- BPWR_SUPPLY
  rrow 0x064 1 4 1 0 0 0,  -- BPWR_BIST
  rrow 0x068 1 4 1 0 0 0,  -- BPWR_STALE
  arow 0x080 16 8 1 0xC01F00FF 0 0,  -- BPWR_WICK_0
  arow 0x084 16 8 1 0xFFFFFFFF 0 0  -- BPWR_WICK_1
]

/-- The page-specific registers of FUM (R437). -/
def regRows58 : List RegRow := [
  rrow 0x040 1 4 1 0xFF000000 0 0xBE000000,  -- FUM_CFG
  rrow 0x044 1 4 1 0 0 0x1000,  -- FUM_CAP
  rrow 0x048 1 4 1 0 0 0,  -- FUM_USED
  rrow 0x04C 1 4 1 0 0 0,  -- FUM_FIRST
  rrow 0x050 1 4 1 0 0 0,  -- FUM_NEXT
  rrow 0x054 1 4 1 0 0 0,  -- FUM_DROP_COUNT
  rrow 0x058 1 4 1 0 0 0,  -- FUM_DROP_SEV
  rrow 0x05C 1 4 1 0 0 0,  -- FUM_SEQ
  rrow 0x060 1 4 1 0xFFFFFFFF 0 0,  -- FUM_RIDX
  rrow 0x064 1 4 1 0 0 0,  -- FUM_RSTAT
  rrow 0x068 1 4 1 0xFFFF 0 0x64,  -- FUM_PATROL
  rrow 0x06C 1 4 1 0 0 0,  -- FUM_CE_COUNT
  rrow 0x070 1 4 1 0 0 0,  -- FUM_UE_COUNT
  rrow 0x074 1 4 1 0 0 0,  -- FUM_UE_LOC
  rrow 0x078 1 4 1 0x8000FFFF 0 0x800003E8,  -- FUM_MIRROR
  rrow 0x07C 1 4 1 0 0 0,  -- FUM_MSTAT
  rrow 0x080 1 4 1 0 0 0,  -- FUM_MLAG
  rrow 0x084 1 4 1 0xFFFF 0 0x7D0,  -- FUM_MWIN
  rrow 0x100 64 4 1 0 0 0  -- FUM_RDATA
]

/-- The page-specific registers of TRACE (R475). -/
def regRows60 : List RegRow := [
  rrow 0x040 1 4 1 0xE3FFFFFF 0 0x80640064,  -- TRACE_CFG
  rrow 0x044 1 4 1 0xFFC000FF 0 0,  -- TRACE_CTRL
  rrow 0x048 1 4 3 0xFFFFFFFFFFFFFFFFFC00 0 0,  -- TRACE_T_START
  rrow 0x058 1 4 3 0xFFFFFFFFFFFFFFFFFC00 0 0,  -- TRACE_T_STOP
  rrow 0x064 1 4 1 0xFFFFFFFF 0 0,  -- TRACE_STOP_COUNT
  rrow 0x068 1 4 1 0x1FFF3FFF 0 0,  -- TRACE_UNITS
  rrow 0x06C 1 4 1 0xFFFF0003 0 0x400000,  -- TRACE_UMODE
  rrow 0x070 4 4 1 0xFFFFFFFF 0 0,  -- TRACE_PAGES
  rrow 0x080 1 4 1 0 0 0,  -- TRACE_AUTH
  rrow 0x084 1 4 3 0 0 0,  -- TRACE_AUTH_END
  rrow 0x090 1 4 1 0xF0F0F0F 0 0,  -- TRACE_TRIG_IN
  rrow 0x094 1 4 1 0xF0F0F0F 0 0,  -- TRACE_TRIG_OUT
  rrow 0x098 1 4 1 0xFFFF 0 0x64,  -- TRACE_TOUT
  rrow 0x09C 1 4 1 0 0 0,  -- TRACE_FUNNEL
  rrow 0x0A0 1 4 1 0x3FFF 0 0,  -- TRACE_FIDX
  rrow 0x0A4 1 4 1 0 0 0,  -- TRACE_FDATA
  rrow 0x100 4 32 1 0xFFF0FFFF 0 0x10B00000,  -- TRACE_RCFG
  rrow 0x104 4 32 1 0x1F 0 0xC,  -- TRACE_RSIZE
  rrow 0x108 4 32 2 0xFFFFFFFFFFFFFFC0 0 0,  -- TRACE_RBASE
  rrow 0x110 4 32 1 0 0 0,  -- TRACE_WPTR
  rrow 0x114 4 32 1 0xFFFFFFFF 0 0,  -- TRACE_RPTR
  rrow 0x118 4 32 1 0 0 0  -- TRACE_RDROP
]

/-- The page-specific registers of SNUFF (R476). -/
def regRows61 : List RegRow := [
  rrow 0x040 1 4 1 0xF0000000 0 0xC0000000,  -- SNUFF_CFG
  rrow 0x044 1 4 1 0 0 0,  -- SNUFF_STAT
  rrow 0x048 1 4 1 0 0 0,  -- SNUFF_CUT_NO
  rrow 0x04C 1 4 1 0 0 0xFF0000,  -- SNUFF_FROM
  rrow 0x050 1 4 3 0 0 0,  -- SNUFF_CUT_TIME
  rrow 0x060 1 4 2 0 0 0,  -- SNUFF_OPEN
  rrow 0x068 1 4 2 0 0 0,  -- SNUFF_BOUND
  rrow 0x070 1 4 1 0 0 0,  -- SNUFF_LOG
  rrow 0x074 1 4 1 0 0 0x10000,  -- SNUFF_LOGCAP
  rrow 0x078 1 4 1 0x1FFF 0 0,  -- SNUFF_UIDX
  rrow 0x07C 1 4 1 0 0 0  -- SNUFF_UDATA
]

/-- The page-specific registers of ROT (R505). -/
def regRows68 : List RegRow := [
  rrow 0x040 1 4 1 0 0 0,  -- ROT_STATE
  rrow 0x044 1 4 1 0 0 0,  -- ROT_FW
  rrow 0x048 1 4 1 0 0 0,  -- ROT_CTR
  rrow 0x04C 1 4 1 0 0 0,  -- ROT_GEN
  rrow 0x050 1 4 1 0 0 0,  -- ROT_MEAS
  rrow 0x054 1 4 1 0xF 0 0x4,  -- ROT_VERIFY
  rrow 0x058 1 4 1 0 0 0,  -- ROT_CTRL
  rrow 0x05C 1 4 1 0xFF 0 0,  -- ROT_LIDX
  rrow 0x060 1 4 1 0 0 0,  -- ROT_LDATA
  rrow 0x080 12 4 1 0 0 0  -- ROT_DEVID
]

/-- The page-specific registers of PKGDIR (R63). -/
def regRows80 : List RegRow := [
  rrow 0x040 8 4 1 0 0 0  -- PKGDIR_MEMBER
]

/-- The page-specific registers of KLINK (R296). -/
def regRows90 : List RegRow := [
  rrow 0x040 1 4 1 0 0 0x20,  -- KLINK_COUNT
  rrow 0x048 1 4 1 0xFF007F 0 0,  -- KLINK_GIDX
  rrow 0x04C 1 4 1 0xFFFFFFFF 0 0  -- KLINK_GDATA
]

/-- The page-specific registers of ETH (R296). -/
def regRows91 : List RegRow := [
  rrow 0x040 1 4 1 0xFFFFFFFF 0 0,  -- ETH_MAC_LO
  rrow 0x044 1 4 1 0xFFFF 0 0,  -- ETH_MAC_HI
  rrow 0x048 1 4 1 0xFF007F 0 0,  -- ETH_GIDX
  rrow 0x04C 1 4 1 0xFFFFFFFF 0 0,  -- ETH_GDATA
  rrow 0x050 1 4 1 0x80000FFF 0 0,  -- ETH_VLAN
  rrow 0x054 1 4 1 0xFFFFFF 0 0x53B37,  -- ETH_PCP
  rrow 0x058 1 4 1 0x3FFF 0 0x5DC,  -- ETH_MTU
  rrow 0x060 1 4 1 0xFF 0 0,  -- ETH_PEER_IDX
  rrow 0x064 1 4 1 0xFFFFFFFF 0 0,  -- ETH_PEER_LO
  rrow 0x068 1 4 1 0xE000FFFF 0 0,  -- ETH_PEER_HI
  rrow 0x06C 1 4 1 0xFFFF 0 0,  -- ETH_PEER_NODE
  rrow 0x100 4 128 1 0x80FFFF1C 0 0x80400810,  -- ETH_PCFG
  rrow 0x104 4 128 1 0 0 0,  -- ETH_PSTAT
  rrow 0x108 4 128 1 0 0 0x4688,  -- ETH_LANEMAP
  rrow 0x10C 4 128 1 0xFFFFFFFF 0 0x8082040,  -- ETH_WEIGHT_A
  rrow 0x110 4 128 1 0xFFFF 0 0x1004,  -- ETH_WEIGHT_B
  rrow 0x114 4 128 1 0xFFFFFFFF 0 0x3001000,  -- ETH_CAP0
  rrow 0x118 4 128 1 0xFFFFFFFF 0 0x3001000,  -- ETH_CAP1
  rrow 0x11C 4 128 1 0xFFFFFFFF 0 0x4002000,  -- ETH_POL4
  rrow 0x120 4 128 1 0xFFFFFFFF 0 0x8004000,  -- ETH_POL5
  rrow 0x124 4 128 1 0xFFFFFFFF 0 0x4002000,  -- ETH_POL6
  rrow 0x128 4 128 1 0 0 0,  -- ETH_GATE
  rrow 0x12C 4 128 1 0 0 0,  -- ETH_FEC_CORR
  rrow 0x130 4 128 1 0 0 0,  -- ETH_FEC_UNC
  rrow 0x134 4 128 1 0 0 0,  -- ETH_REPLAY
  rrow 0x138 4 128 1 0 0 0,  -- ETH_POL_DROP4
  rrow 0x13C 4 128 1 0 0 0,  -- ETH_POL_DROP5
  rrow 0x140 4 128 1 0 0 0,  -- ETH_POL_DROP6
  rrow 0x144 4 128 1 0 0 0,  -- ETH_QDROP
  rrow 0x148 4 128 1 0 0 0,  -- ETH_FO_DROP
  rrow 0x14C 4 128 1 0 0 0,  -- ETH_VIOL
  rrow 0x150 4 128 1 0 0 0,  -- ETH_CRD_AVAIL
  rrow 0x154 4 128 1 0 0 0  -- ETH_GCYCLE
]

/-- The page-specific registers of TWIN (R296). -/
def regRows92 : List RegRow := [
  rrow 0x040 1 4 1 0 0 0,  -- TWIN_STAT
  rrow 0x044 1 4 1 0 0 0,  -- TWIN_PRIMARY
  rrow 0x048 1 4 1 0 0 0  -- TWIN_LAG
]

/-- The page-specific registers of DLINK (R296). -/
def regRows93 : List RegRow := [
  rrow 0x100 1 128 1 0x80FFFF1C 0 0x80400810,  -- DLINK_PCFG
  rrow 0x104 1 128 1 0 0 0,  -- DLINK_PSTAT
  rrow 0x108 1 128 1 0 0 0x4688,  -- DLINK_LANEMAP
  rrow 0x10C 1 128 1 0xFFFFFFFF 0 0x8082040,  -- DLINK_WEIGHT_A
  rrow 0x110 1 128 1 0xFFFF 0 0x1004,  -- DLINK_WEIGHT_B
  rrow 0x114 1 128 1 0xFFFFFFFF 0 0x3001000,  -- DLINK_CAP0
  rrow 0x118 1 128 1 0xFFFFFFFF 0 0x3001000,  -- DLINK_CAP1
  rrow 0x11C 1 128 1 0xFFFFFFFF 0 0x4002000,  -- DLINK_POL4
  rrow 0x120 1 128 1 0xFFFFFFFF 0 0x8004000,  -- DLINK_POL5
  rrow 0x124 1 128 1 0xFFFFFFFF 0 0x4002000,  -- DLINK_POL6
  rrow 0x128 1 128 1 0 0 0,  -- DLINK_GATE
  rrow 0x12C 1 128 1 0 0 0,  -- DLINK_FEC_CORR
  rrow 0x130 1 128 1 0 0 0,  -- DLINK_FEC_UNC
  rrow 0x134 1 128 1 0 0 0,  -- DLINK_REPLAY
  rrow 0x138 1 128 1 0 0 0,  -- DLINK_POL_DROP4
  rrow 0x13C 1 128 1 0 0 0,  -- DLINK_POL_DROP5
  rrow 0x140 1 128 1 0 0 0,  -- DLINK_POL_DROP6
  rrow 0x144 1 128 1 0 0 0,  -- DLINK_QDROP
  rrow 0x148 1 128 1 0 0 0,  -- DLINK_FO_DROP
  rrow 0x14C 1 128 1 0 0 0,  -- DLINK_VIOL
  rrow 0x150 1 128 1 0 0 0,  -- DLINK_CRD_AVAIL
  rrow 0x154 1 128 1 0 0 0  -- DLINK_GCYCLE
]

/-- The register rows of a page type. -/
def regRows (ty : Nat) : List RegRow :=
  match ty with
  | 0x01 => regRows01
  | 0x02 => regRows02
  | 0x03 => regRows03
  | 0x04 => regRows04
  | 0x08 => regRows08
  | 0x10 => regRows10
  | 0x11 => regRows11
  | 0x12 => regRows12
  | 0x18 => regRows18
  | 0x20 => regRows20
  | 0x21 => regRows21
  | 0x28 => regRows28
  | 0x30 => regRows30
  | 0x31 => regRows31
  | 0x38 => regRows38
  | 0x39 => regRows39
  | 0x40 => regRows40
  | 0x48 => regRows48
  | 0x50 => regRows50
  | 0x58 => regRows58
  | 0x60 => regRows60
  | 0x61 => regRows61
  | 0x68 => regRows68
  | 0x80 => regRows80
  | 0x90 => regRows90
  | 0x91 => regRows91
  | 0x92 => regRows92
  | 0x93 => regRows93
  | _ => []

/-- Does offset `off` fall in row `r`? Then which register of the array, and which word of it. -/
def RegRow.hit (r : RegRow) (off : Nat) : Option (Nat × Nat) :=
  if off < r.off then none
  else
    let i := (off - r.off) / r.stride
    let j := (off - r.off) % r.stride
    if r.count = 1 then
      if off - r.off < 4 * r.words then some (0, (off - r.off) / 4) else none
    else if i < r.count ∧ j < 4 * r.words then some (i, j / 4) else none

/-- The row that holds a word offset, with the register's number in its array and the word's number in it. -/
def findReg (off : Nat) : List RegRow → Option (RegRow × Nat × Nat)
  | [] => none
  | r :: rs => match r.hit off with
    | some (i, w) => some (r, i, w)
    | none => findReg off rs

/-- The register at an offset of a page type. -/
def regAt (ty off : Nat) : Option (RegRow × Nat × Nat) := findReg off (regRows ty)

/-- The offset ÷ 4 of the highest implemented page-specific register (PAGE_CAP.LAST, R65). -/
def lastReg (ty : Nat) : Nat :=
  (regRows ty).foldl (fun m r => max m ((r.off + (r.count - 1) * r.stride + 4 * (r.words - 1)) / 4)) 0

/-- Does the page type hold a guarded, or a wide, page-specific register? -/
def hasGuarded (ty : Nat) : Bool := (regRows ty).any (·.guarded)
def hasWide (ty : Nat) : Bool := (regRows ty).any fun r => decide (1 < r.words)

/-- Number of a page among the pages the machine holds: type, instance, and 1 in the package window. -/
def pageKey (ty inst scope : Nat) : Nat := ty + 256 * inst + 65536 * scope
def keyType (k : Nat) : Nat := k % 256
def keyInst (k : Nat) : Nat := k / 256 % 256
def keyScope (k : Nat) : Nat := k / 65536

/-- The page number of a page, as records name it (R532): the window tables of the register chapter. -/
def pageNo (k : Nat) : Nat :=
  let t := keyType k
  if t ≤ 4 then t - 1 else if t = 0x08 then 8 + keyInst k % 8 else if t = 0x31 then 0x31 + keyInst k
  else if t = 0x93 then 0x38 else t

/-- Number of a register word: its page and its offset in the page's 4,096 bytes. -/
def regKey (page off : Nat) : Nat := page * 1024 + off / 4 % 1024

/-- The reset value of a register word (R65 and the register tables). -/
def regReset (k : Nat) : Word :=
  if k = regKey (pageKey 0x18 0 1) 0x44 then 100  -- KX_RED_WAIT of the package window (R161)
  else if keyType (k / 1024) = 0x31 ∧ keyInst (k / 1024) = 1 ∧ 0x100 + 0x40 * 14 ≤ k % 1024 * 4 ∧ k % 16 = 0 then
    0xE0FCFC03  -- KX_TPORT_CFG of the uplinks: SYNC_LOG and DREQ_LOG -4 (R251)
  else match regAt (keyType (k / 1024)) (k % 1024 * 4) with
  | some (r, _, w) => wordOf r.reset w
  | none => 0

end Sys2Proof
end

