-- ==== Sys2Proof/Machine/StatePage.lean ====
section
/-!
DEFINITION. State of the surroundings, of the register pages and of trace and Snuff.
-/
/-! State of the levels (chapter "Architecture and the Six Levels") and of the pace logic (chapter "Handshake Timing,
Pace Converters and Pace Rings"): straps, the package and its head, ring calibration. -/

namespace Sys2Proof

/-- The straps, as last sampled (R404, R518), and the role, which the part's design fixes (R1). -/
structure Straps where
  role      : Role
  dieIdx    : BitVec 3
  headEn    : Bool
  twinSel   : Bool
  cascade   : Bool
  refclkSel : BitVec 3
deriving DecidableEq, Repr

/-- One die hub of the package, as PKGDIR shows it (R63), with HEAD_EN and the training of its links (R14). -/
structure Member where
  present  : Bool
  bistOk   : Bool
  headEn   : Bool
  trained  : Bool
  conflict : Bool
  incarn   : BitVec 4
deriving DecidableEq, Repr

def Member.none (_ : Nat) : Member :=
  { present := false, bistOk := false, headEn := false, trained := false, conflict := false, incarn := 0 }

/-- The package as this die hub knows it (R14 to R17). -/
structure Package where
  members : Tab Member
  /-- the die index of the elected head -/
  head    : Option (BitVec 3)
  /-- consecutive 1 µs periods without a keepalive on any link to the head (R16) -/
  missed  : Nat
  /-- a frame of the head has been heard since the last slow tick -/
  heard   : Bool
  /-- the package telemetry stream shows a gap as STALE (R16) -/
  stale   : Bool
  /-- the epoch in which the head was last lost: the package windows that hold it are STALE (R16) -/
  gap     : Option Nat
  /-- the election has ended since the package's reset, and this die hub has taken a lost head's place (R14, R16, R17) -/
  elected : Bool
  tookHead : Bool
deriving DecidableEq, Repr

def Package.reset : Package :=
  { members := [], head := Option.none, missed := 0, heard := false, stale := false, gap := Option.none, elected := false, tookHead := false }

/-- Calibration of one region's rings (R54, R55): counts at 750 mV and 25 °C in hundredths, and slopes in
hundredths of a count per mV and per °C. -/
structure RingCal where
  v0 : Int
  vMv : Int
  vT : Int
  t0 : Int
  tMv : Int
  tT : Int
deriving DecidableEq, Repr

/-- The factory-typical coefficients: the ring table of the pace-ring section (R55). -/
def RingCal.typical (_ : Nat) : RingCal :=
  { v0 := 100000, vMv := 154, vT := -141, t0 := 40000, tMv := 30, tT := -90 }

/-- Pace state: the flop counts in force and, where a write is pending, the pending ones read in
KX_PACE_SYNC (R53); calibration; and boundary handshakes under watch with their ticks (R47). -/
structure Pace where
  syncNow : Word
  cal     : Tab RingCal
  watch   : Tab Nat
  /-- the channels among them that an injection holds (R68) -/
  injected : List Nat
deriving DecidableEq, Repr

/-- Three flops on every class (R58). -/
def Pace.reset : Pace := { syncNow := 0xFFF, cal := [], watch := [], injected := [] }

end Sys2Proof

/-! State of the register pages (chapter "Register Pages and Command Pages"): the header of each page, the guard and
wide latches, the command pages, the snapshot, and the two host ports. -/

namespace Sys2Proof

/-- An armed guard latch: offset, value, requester, and the slow ticks passed since arming (R73). -/
structure Guard where
  off   : Nat
  value : Word
  rid   : Byte
  ticks : Nat
deriving DecidableEq, Repr

/-- The header state of one page (R65) and its latches (R73, R75, R76). -/
structure Header where
  ctrl    : Word
  stat    : Word
  err     : Word
  errMask : Word
  irqEn   : Word
  incarn  : BitVec 4
  rd      : BitVec 2
  wr      : BitVec 2
  inj     : Word
  guard   : Option Guard
  /-- the wide latch: first offset of the register it holds, and the captured words (R76) -/
  wide    : Option (Nat × List Word)
  /-- higher words written and not yet committed, by offset (R76) -/
  staged  : Tab Word
  /-- writes that await the always-on domain, by offset (R75) -/
  aonPend : Tab Word
  /-- values that read-backs of the always-on domain still show until the next slow tick, by offset (R75) -/
  aonOld  : Tab Word
deriving DecidableEq, Repr

/-- Read and write floors of a page type, encoded as in PAGE_PRIV (R65; the die-window table). -/
def pageFloor (ty : Nat) : BitVec 2 × BitVec 2 :=
  if ty = 0x01 then (0, 2) else if ty = 0x02 then (1, 2) else if ty = 0x03 then (0, 1)
  else if ty = 0x04 then (1, 1) else if ty = 0x08 then (0, 0) else if ty = 0x10 then (1, 1)
  else if ty = 0x11 then (1, 1) else if ty = 0x18 then (0, 1) else if ty = 0x30 then (0, 2)
  else if ty = 0x40 then (2, 2) else if ty = 0x48 then (2, 2) else if ty = 0x68 then (1, 3)
  else if ty = 0x80 then (0, 2) else (1, 2)

/-- A page right after reset: ENABLE reads 1, RD and WR at their floors, everything else 0 (R65). -/
def Header.reset (key : Nat) : Header :=
  { ctrl := 1, stat := 0, err := 0, errMask := 0, irqEn := 0, incarn := 0,
    rd := (pageFloor (keyType key)).1, wr := (pageFloor (keyType key)).2, inj := 0,
    guard := none, wide := none, staged := [], aonPend := [], aonOld := [] }

/-- What a command that stays BUSY waits for (R80, R81). -/
inductive Wait where
  /-- nothing: the page is idle, or the command completes in its own step -/
  | none
  /-- a host-memory transfer -/
  | transfer (id : Nat)
  /-- an epoch close of this number or later (R27, R155) -/
  | close (epoch : Nat)
  /-- a fleet time (R81) -/
  | time (t : FT)
  /-- a measurement of the root of trust (R154, R186, R192) -/
  | measure (item : Nat)
  /-- an event of the command's own chapter, with the ticks already waited -/
  | event (code : Nat) (arg : Nat)
deriving DecidableEq, Repr

/-- A command page (R80): the command that executes, who wrote it, and what it waits for. -/
structure CmdPage where
  busy   : Bool
  done   : Bool
  status : Byte
  seq    : Byte
  detail : Byte
  owner  : BitVec 16
  holder : Byte
  cmd    : Word
  req    : Req
  wait   : Wait
  /-- slow ticks since acceptance, for commands with a time limit of their own -/
  ticks  : Nat
  /-- the place of its acceptance among those of all pages (R83) -/
  order  : Nat
deriving DecidableEq, Repr

def Req.zero : Req := { port := .host, priv := 0, job := 0, rid := 0 }

def CmdPage.reset (_ : Nat) : CmdPage :=
  { busy := false, done := false, status := 0, seq := 0, detail := 0, owner := 0, holder := 0,
    cmd := 0, req := Req.zero, wait := .none, ticks := 0, order := 0 }

/-- Whose host-memory transfer it is: what happens when it completes. -/
inductive XferOwner where
  /-- a command page waits for it -/
  | command (pkg : Bool) (page : Nat)
  /-- a message write of R85 -/
  | message
  /-- a ring write of a page, by the place of its WPTR: Geyser, verdict, poison, service or trace ring -/
  | ring (page wptr : Nat)
deriving DecidableEq, Repr

/-- A host-memory transfer in progress: it issues requests of at most 256 bytes that do not cross a
256-byte boundary (R510), and gathers what it reads. -/
structure Xfer where
  owner  : XferOwner
  wr     : Bool
  addr   : Nat
  len    : Nat
  /-- bytes already requested -/
  issued : Nat
  /-- bytes to write, or bytes read so far -/
  data   : List Byte
  failed : Bool
  /-- bytes whose requests have been answered, and the region it serves, where it serves one (R408) -/
  done   : Nat := 0
  region : Option Nat := Option.none
deriving DecidableEq, Repr

/-- A record on its way into a ring (R534, R408): the ring by its page and the place of its WPTR, the bytes, the region
it comes from, and its transfers that are not complete; none before it is issued. -/
structure RingWrite where
  page   : Nat
  wptr   : Nat
  bytes  : List Byte
  region : Option Nat
  xfers  : Option (List Nat)
deriving DecidableEq, Repr

/-- Host-memory writes that a command still has to make, in order, and its RES_0 (STATE_CKPT, STATE_DIGESTS,
SNUFF_DUMP: R434, R438, R469). -/
structure WritePlan where
  pkg    : Bool
  page   : Nat
  writes : List (Nat × List Byte)
  res    : Nat
deriving DecidableEq, Repr

/-- An outstanding host-memory tag (R510, R511): its transfer, the request, the bytes and beats received, and the RETRY
answers so far. -/
structure HmTag where
  xfer    : Nat
  addr    : Nat
  len     : Nat
  wr      : Bool
  data    : List Byte
  beats   : Nat
  retries : Nat
  /-- when it was first issued -/
  sent    : FT
  /-- answered RETRY: when it is issued again -/
  again   : Option FT
  /-- withheld after a time-out -/
  dead    : Bool
  /-- the page and the region that issued it, with their incarnations then (R408) -/
  page    : Nat
  region  : Option Nat
  incarn  : BitVec 4
  rIncarn : BitVec 4
deriving DecidableEq, Repr

/-- A request in the order of its requester (R62): the number of a forwarded one, the requester, and the answer that is
there. -/
structure Ordered where
  num : Option Nat
  req : Req
  ans : Option (Resp × Word)
deriving DecidableEq, Repr

/-- The host register port (R509): responses the host has not acknowledged, and the slow ticks for which the oldest has
waited (R47); and, of every port, the forwarded requests
without an answer, with the answers that wait behind one of them (R62). -/
structure HostPort where
  unacked : List Byte
  waited  : Nat
  order   : List Ordered
deriving DecidableEq, Repr

/-- All page, command and host-port state. -/
structure Pages where
  /-- register words, by `regKey`; unlisted ones hold their reset values -/
  regs     : Tab Word
  hdr      : Tab Header
  cmds     : Tab CmdPage
  /-- KX_IRQ_N lines driven low, bit n (R85) -/
  irq      : BitVec 4
  /-- the pages whose interrupt cause was present after the last step (R85) -/
  causes   : List Nat
  /-- snapshot: SEQ, PARTIAL and instant of UNITWIN (R77) -/
  snapSeq     : Byte
  snapPartial : Bool
  snapBusy    : Bool
  snapTime    : FT
  xfers    : Tab (Option Xfer)
  nextXfer : Nat
  hmTags   : Tab (Option HmTag)
  ringQ    : List RingWrite
  host     : HostPort
deriving DecidableEq, Repr

def Pages.reset : Pages :=
  { regs := [], hdr := [], cmds := [], irq := 0, causes := [], snapSeq := 0, snapPartial := false, snapBusy := false,
    snapTime := 0, xfers := [], nextXfer := 0, hmTags := [], ringQ := [], host := { unacked := [], waited := 0, order := [] } }

end Sys2Proof

/-! State of trace, Snuff, loop-backs and the TAP (chapter "Trace, Debug, Snuff and Loop-backs"). -/

namespace Sys2Proof

/-- A trace packet on its way (R441, R442): TYPE, SRC, instant, the body from byte 8 on, the job of a unit or
software packet, and the node of a packet that came in a TRACE frame. -/
structure TPacket where
  typ  : Nat
  src  : BitVec 16
  time : FT
  body : List Byte
  job  : BitVec 16
  node : Option (BitVec 16)
deriving DecidableEq, Repr

/-- A ring of the router, or the funnel (R443, R447, R448): the instant of its latest SYNC, packets written since,
packets lost and not yet reported with their reason, the CAUSE of a SYNC owed, the node of the latest remote packet, and
the packet a stalled source waits with, since when. -/
structure TRing where
  base  : Option FT
  since : Nat
  lost  : Nat
  why   : Nat
  owed  : Option Nat
  node  : Option (BitVec 16)
  wait  : Option (TPacket × FT)
deriving DecidableEq, Repr

def TRing.reset (_ : Nat) : TRing := { base := none, since := 0, lost := 0, why := 0, owed := none, node := none, wait := none }

/-- A probe's trace latch (R445): edges of the run in progress, edges of runs too short to report, the packets in the
latch, one that waits while the unit is held, and packets lost since the last that left. -/
structure TLatch where
  run   : Nat
  short : Nat
  latch : List TPacket
  held  : Option TPacket
  lost  : Nat
deriving DecidableEq, Repr

def TLatch.reset (_ : Nat) : TLatch := { run := 0, short := 0, latch := [], held := none, lost := 0 }

/-- An authorisation token that the root of trust has verified (R451). -/
structure Token where
  sources  : Byte
  dests    : Byte
  notAfter : FT
deriving DecidableEq, Repr

/-- The trace router. -/
structure Trace where
  /-- a session runs, and the packets written in it (R449) -/
  run     : Bool
  written : Nat
  /-- a start or stop condition has come; T_START and T_STOP have been used; TRIG_OUT source 6 has pulsed -/
  startDue : Bool
  stopDue  : Bool
  startUsed : Bool
  stopUsed : Bool
  outUsed  : Bool
  /-- packets at their sources, oldest first -/
  staged  : List TPacket
  rings   : Tab TRing
  latches : Tab TLatch
  /-- the funnel: its packets, oldest first (R450) -/
  funnel  : List (List Byte)
  overwr  : Nat
  token   : Option Token
  /-- output pulses owed by line, and the end of the pulse in progress (R454) -/
  outDue  : List Nat
  outEnd  : Tab FT
  /-- the latest instant a periodic SYNC was written -/
  syncAt  : FT
deriving DecidableEq, Repr

def Trace.reset : Trace :=
  { run := false, written := 0, startDue := false, stopDue := false, startUsed := false, stopUsed := false, outUsed := false,
    staged := [], rings := [], latches := [], funnel := [], overwr := 0, token := none, outDue := [], outEnd := [], syncAt := 0 }

/-- KX_SNUFF_STAT.STATE (R476). -/
inductive SnuffState where
  | none | armed | cut
deriving DecidableEq, Repr

def SnuffState.code : SnuffState → Nat
  | .none => 0 | .armed => 1 | .cut => 2

/-- What cut a node (KX_SNUFF_STAT.CAUSE). -/
inductive SnuffCause where
  | pin | time | marker | order | command | trigIn | tap
deriving DecidableEq, Repr

def SnuffCause.code : SnuffCause → Nat
  | .pin => 0 | .time => 1 | .marker => 2 | .order => 3 | .command => 4 | .trigIn => 5 | .tap => 6

/-- The order of R468 among triggers that meet. -/
def SnuffCause.rank : SnuffCause → Nat
  | .time => 0 | .pin => 1 | .marker => 2 | .order => 2 | .command => 3 | .trigIn => 3 | .tap => 3

/-- A trigger that has come (R458): cause, scope, initiator, the initiator's cut number, and the port of a MARKER. -/
structure SnuffTrig where
  cause : SnuffCause
  scope : Nat
  init  : BitVec 16
  no    : Option (BitVec 32)
  port  : Option Nat
deriving DecidableEq, Repr

/-- A scheduled Snuff (R466): T, scope, initiator, its cut number, and the broadcast that ordered it. -/
structure SnuffOrder where
  t     : FT
  scope : Nat
  init  : BitVec 16
  no    : BitVec 32
  seq   : BitVec 32
deriving DecidableEq, Repr

/-- A stop entry (R460). -/
structure StopEntry where
  lat   : Nat
  acked : Bool
  hold  : Bool
  noAck : Bool
deriving DecidableEq, Repr

def StopEntry.zero (_ : Nat) : StopEntry := { lat := 0, acked := false, hold := false, noAck := false }

/-- A frame of the channel log or the egress hold (R470). -/
structure LogFrame where
  port  : Nat
  cls   : Nat
  lseq  : BitVec 16
  bytes : List Byte
deriving DecidableEq, Repr

/-- A received frame that waits for the clear (R463): the port and channel it came on, and its bytes as accepted. -/
structure HeldFrame where
  port  : Nat
  chan  : Nat
  bytes : List Byte
  payload : List Byte
deriving DecidableEq, Repr

structure Snuff where
  state   : SnuffState
  cause   : SnuffCause
  scope   : Nat
  late    : Bool
  logFull : Bool
  cutNo   : BitVec 32
  fromPort : Option Nat
  init    : BitVec 16
  /-- the initiator's cut number, as MARKERs carry it -/
  initNo  : BitVec 32
  cutTime : FT
  openCh  : BitVec 64
  bound   : BitVec 64
  log     : List LogFrame
  logUsed : Nat
  held    : List HeldFrame
  /-- an image is held: stop entries, egress hold, and the PAUSE section -/
  image   : Bool
  stops   : Tab StopEntry
  egress  : List LogFrame
  pause   : List Byte
  imageLost : Bool
  missedEmber : Bool
  /-- a Snuff instant that fell in EMBER and is not recorded yet (R397) -/
  missedAt : Option FT
  trigs   : List SnuffTrig
  order   : Option SnuffOrder
  /-- a clear that is due: at once, or at T -/
  clearAt : Option FT
  pinLow  : Bool
  dumps   : List WritePlan
deriving DecidableEq, Repr

def Snuff.reset : Snuff :=
  { state := .none, cause := .pin, scope := 0, late := false, logFull := false, cutNo := 0, fromPort := none, init := 0, initNo := 0,
    cutTime := 0, openCh := 0, bound := 0, log := [], logUsed := 0, held := [], image := false, stops := [], egress := [],
    pause := [], imageLost := false, missedEmber := false, missedAt := none, trigs := [], order := none, clearAt := none, pinLow := false, dumps := [] }

/-- The TAP (R471, R472): the boundary cells and whether they drive the pins, the response to the latest KX_ACCESS and
to the one before, the instant of the latest Update-DR, and the next words of SNUFF_SCAN and FUNNEL_READ. -/
structure Tap where
  cells : List Bool
  drive : Bool
  last  : Resp × Word
  prev  : Resp × Word
  at'   : FT
  scan  : Nat
  funnel : Nat
deriving DecidableEq, Repr

def Tap.reset : Tap := { cells := [], drive := false, last := (.ok, 0), prev := (.ok, 0), at' := 0, scan := 0, funnel := 0 }

end Sys2Proof
end

