-- ==== Sys2Proof/Machine/StateProbe.lean ====
section
/-!
DEFINITION. State of probes and sampling, of the reductions, of the forest engines and of the silent-error checker.
-/
/-! State of the probes, concentrators, regions, the epoch grid and Geyser (chapter "Probes, Counters and Sampling
Epochs"). Counters are numbered 0 to 18 as the manual numbers them. -/

namespace Sys2Proof

/-- Which gate (R88). -/
inductive GateKind where
  | test | fence | stop
deriving DecidableEq, Repr

/-- One gate and its acknowledge (R89). -/
structure Gate where
  raised : Bool
  ack    : Bool
  /-- slow ticks since the gate was raised or lowered without its acknowledge following (R47) -/
  ticks  : Nat
deriving DecidableEq, Repr

def Gate.reset : Gate := { raised := false, ack := false, ticks := 0 }

/-- A probe record: the deltas D, the command counts S, GEN, RSTS, MISSED, the LOST flag it carries, and the
epoch number of its close (R93, R101). -/
structure ProbeRec where
  d      : Tab (BitVec 40)
  s      : Tab (BitVec 40)
  gen    : Byte
  rsts   : Byte
  missed : Byte
  lost   : Bool
  /-- its deltas stay out of the sums: the unit was fenced or its region ABSENT at its close (R104) -/
  excl   : Bool
  epoch  : Nat
deriving DecidableEq, Repr

/-- A probe with its unit's port (R88 to R93), its record (R108) and its totals, which its concentrator
holds (R101). -/
structure Probe where
  ustate  : UnitState
  reason  : BitVec 3
  e       : Tab (BitVec 40)
  c       : Tab (BitVec 40)
  /-- command counts that began at CMD_START edges whose resets are not granted yet, oldest first (R93) -/
  divs    : List (Tab (BitVec 40))
  gen     : Byte
  rsts    : Byte
  missed  : Byte
  /-- the next record carries LOST (R91, R106) -/
  lostNext : Bool
  latch   : Option ProbeRec
  /-- the last acknowledged and not yet committed record (R101) -/
  acked   : Option ProbeRec
  /-- totals T at the concentrator, and the region's mirror of them (R101) -/
  t       : Tab (BitVec 64)
  mirror  : Tab (BitVec 64)
  /-- what its deltas have put into its cluster's sums (R104, R109), and the mirror of that -/
  inSum   : Tab (BitVec 64)
  inSumMirror : Tab (BitVec 64)
  /-- the latest accepted record's S (word 39 to 62, and S_prev of R102), GEN, RSTS, MISSED and tag -/
  s       : Tab (BitVec 40)
  recGen  : Byte
  recRsts : Byte
  recMissed : Byte
  tag     : Byte
  /-- the deltas of the latest accepted record, and whether it contributed at the latest close -/
  last    : Tab (BitVec 40)
  counted : Bool
  /-- the deltas that have arrived since the reductions of the latest close, and whether a record has (R122) -/
  arr     : Tab (BitVec 64)
  arrived : Bool
  /-- the same with those of a fenced unit, for the power model (R361) -/
  arrAll  : Tab (BitVec 64)
  lost     : Bool
  stateErr : Bool
  wrap     : Bool
  mismatch : Bool
  stale    : Bool
  fenced   : Bool
  /-- FENCED or ABSENT since before the latest close: its deltas are out of the sums (R104) -/
  excluded : Bool
  profile     : BitVec 4
  profileNext : BitVec 4
  job     : BitVec 16
  jobNext : BitVec 16
  /-- totals are to be cleared at the next close (CLEAR_TOTALS) -/
  clear   : Bool
  test    : Gate
  fence   : Gate
  stop    : Gate
  /-- the Geyser interval whose counts and flags these are, by the grid instant that begins it (R113) -/
  ginst   : FT
  /-- edges since that instant -/
  gcount  : Tab (BitVec 16)
  ghrst   : Bool
  glost   : Bool
  /-- the reset mask in force at each CMD_START whose reset is not granted yet, oldest first (R92) -/
  dmasks  : List Word
deriving DecidableEq, Repr

def Probe.reset (_ : Nat) : Probe :=
  { ustate := .idle, reason := 0, e := [], c := [], divs := [], gen := 0, rsts := 0, missed := 0,
    lostNext := false, latch := none, acked := none, t := [], mirror := [], inSum := [], inSumMirror := [], s := [], recGen := 0,
    recRsts := 0, recMissed := 0, tag := 0, last := [], counted := false, arr := [], arrived := false, arrAll := [], lost := false,
    stateErr := false, wrap := false, mismatch := false, stale := false, fenced := false,
    excluded := false, profile := 0, profileNext := 0, job := 0, jobNext := 0, clear := false,
    test := Gate.reset, fence := Gate.reset, stop := Gate.reset, ginst := 0, gcount := [], ghrst := false,
    glost := false, dmasks := [] }

/-- A cluster: its totals, their mirror, and its flags (R101, R109, R111, R12). -/
structure Cluster where
  t       : Tab (BitVec 64)
  mirror  : Tab (BitVec 64)
  stale   : Bool
  adopted : Bool
  selfchk : Bool
  lost    : Bool
  /-- probes that contributed at the latest close -/
  units   : Nat
  /-- members that missed the latest close, bit i -/
  missing : Word
deriving DecidableEq, Repr

def Cluster.reset (_ : Nat) : Cluster :=
  { t := [], mirror := [], stale := false, adopted := false, selfchk := false, lost := false,
    units := 0, missing := 0 }

/-- A region (R109, R11 to R13, R407). -/
structure Region where
  absent    : Bool
  spareUsed : Bool
  adopted   : Byte
  incarn    : BitVec 4
  inReset   : Bool
  /-- the consumers of its products have recorded the gap of the reset (R32) -/
  gapped    : Bool
deriving DecidableEq, Repr

def Region.reset (_ : Nat) : Region :=
  { absent := false, spareUsed := false, adopted := 0, incarn := 0, inReset := false, gapped := false }

/-- The held values of one record (R77, R110). -/
structure Held where
  t   : Tab (BitVec 64)
  s   : Tab (BitVec 40)
  gen : Byte
deriving DecidableEq, Repr

def Held.zero (_ : Nat) : Held := { t := [], s := [], gen := 0 }

/-- A SET_EPOCH that awaits its ORIGIN (R97): PERIOD, ORIGIN and the command page that waits, if any. -/
structure PendEpoch where
  period : Nat
  origin : FT
  page   : Option (Bool × Nat)
deriving DecidableEq, Repr

/-- The epoch grid (R94 to R98, R118). -/
structure Grid where
  period  : Nat
  origin  : FT
  baseNo  : Nat
  epochNo : Nat
  /-- a close has occurred since power-on (R98) -/
  closed  : Bool
  lastClose : FT
  /-- the next close is the first grid instant after this one: the latest close or step, the start of closing -/
  since   : FT
  flags   : Word
  pend    : Option PendEpoch
deriving DecidableEq, Repr

/-- R95: PERIOD 1,000,000 ns and ORIGIN FT+0 after power-on. -/
def Grid.reset : Grid :=
  { period := 1000000, origin := 0, baseNo := 0, epochNo := 0, closed := false, lastClose := 0, since := 0, flags := 0,
    pend := none }

/-- The state of the Geyser window (R115, STATUS of R119). -/
inductive GeyserState where
  | idle | armed | pre | post | done
deriving DecidableEq, Repr

def GeyserState.code : GeyserState → Nat
  | .idle => 0 | .armed => 1 | .pre => 2 | .post => 3 | .done => 4

/-- Geyser capture (R113 to R117): state, the instant of sample 0 where it is known, the entity of a kind-3
trigger, the next grid instant, the next sample number, the sample records kept before the trigger, records
dropped in this window, whether an overrun record is owed, and the command page that waits for T. -/
structure Geyser where
  state   : GeyserState
  zero    : Option FT
  entity  : Nat
  next    : FT
  seq     : Int
  staging : List (FT × List Byte)
  overrun : Nat
  owed    : Nat
  page    : Option (Bool × Nat)
deriving DecidableEq, Repr

def Geyser.reset : Geyser :=
  { state := .idle, zero := none, entity := 0, next := 0, seq := 0, staging := [], overrun := 0, owed := 0,
    page := none }

/-- All sampling state. -/
structure Samp where
  /-- probe slots 0 to units − 1 have PRESENT high (R88, R90) -/
  units    : Nat
  probes   : Tab Probe
  clusters : Tab Cluster
  regions  : Tab Region
  /-- profiles in force since the latest close, by number (R92) -/
  evsel    : Tab Word
  rmask    : Tab Word
  /-- job bindings of slots in force since the latest close (R70) -/
  slotJob  : Tab (BitVec 16)
  heldP    : Tab Held
  heldC    : Tab Held
  heldTag  : Byte
  grid     : Grid
  geyser   : Geyser
deriving DecidableEq, Repr

def evselReset (_ : Nat) : Word := 0x76543210
def rmaskReset (_ : Nat) : Word := 0x7FFFF

/-- Every probe slot of the shipped die has a unit; every total and flag is zero. -/
def Samp.reset : Samp :=
  { units := 8192, probes := [], clusters := [], regions := [], evsel := [], rmask := [], slotJob := [],
    heldP := [], heldC := [], heldTag := 0, grid := Grid.reset, geyser := Geyser.reset }

end Sys2Proof

/-! State of the reduction engine at each of its levels (chapter "Reduction Programs and Exact Arithmetic"). -/

namespace Sys2Proof

/-- The operators (R127). -/
inductive Oper where
  | sum | sumsq | min | max | count | ratio | hist | topk | ewma | cusum
deriving DecidableEq, Repr

def Oper.code : Oper → Nat
  | .sum => 1 | .sumsq => 2 | .min => 3 | .max => 4 | .count => 5
  | .ratio => 6 | .hist => 7 | .topk => 8 | .ewma => 9 | .cusum => 10

/-- A rule descriptor (R127), its words and its fields as they read. -/
structure Rule where
  oper    : Oper
  slot    : Nat
  /-- 0 die, 1 package, 2 tray, 3 pod -/
  dest    : Nat
  cls     : Nat
  /-- the Q32.32 domain -/
  dom     : Bool
  src     : Nat
  fmt     : Nat
  mask    : Nat
  sel     : Nat
  maskArg : Word
  pshift  : Nat
  div     : Nat
  p0      : Word
  p1      : Word
  p2      : Word
  chk     : Word
deriving DecidableEq, Repr

/-- One copy of a program (R153): its image, its rules in program order, its unit sets, whether it passed the
loader's checks. Whether it is measured stands in the measurement log (R28, R491). -/
structure RedCopy where
  image    : List Byte
  rules    : List Rule
  sets     : List (List Byte)
  valid    : Bool
deriving DecidableEq, Repr

def RedCopy.empty : RedCopy := { image := [], rules := [], sets := [], valid := false }

/-- An open window of a slot at one node: number, flags so far, elements, dies, operator state, the children
that have delivered, those expected once the window's last close has passed, and that close. -/
structure Win where
  slot     : Nat
  window   : Nat
  flags    : Word
  units    : Nat
  dies     : Nat
  op       : OpState
  got      : List Nat
  expected : Option (List Nat)
  close    : FT
  /-- the instant from which the merge wait runs (R144, R146) -/
  since    : FT
deriving DecidableEq, Repr

/-- A slot record as emitted (R156): what its bytes are computed from. -/
structure SlotRec where
  stat   : Word
  chk    : Word
  window : Nat
  units  : Nat
  dies   : Nat
  close  : FT
  scalar : Int
  op     : OpState
  /-- K of a TOPK rule (R157) -/
  k      : Nat
  /-- LO_EXP of a HIST rule, for the quantile readout (R159) -/
  loExp  : Nat
deriving DecidableEq, Repr

/-- A slot of which no window has been emitted: it reads zero. -/
def SlotRec.empty (_ : Nat) : SlotRec :=
  { stat := 0, chk := 0, window := 0, units := 0, dies := 0, close := 0, scalar := 0, op := .sum 0 0, k := 0, loExp := 0 }

/-- A pending activation (R155), in order of acceptance: its command page, the epoch number it names with
AT = 1, and the earliest close instant it can take with AT = 0. -/
structure PendAct where
  pkg       : Bool
  page      : Nat
  epoch     : Option Nat
  notBefore : FT
  /-- the last close number when it was accepted -/
  after     : Nat
deriving DecidableEq, Repr

/-- A partial kept until the parent acknowledges it (R146), its rule's CLASS and K, and whether it was sent. -/
structure Retained where
  partl : RedPartial
  cls   : Nat
  k     : Nat
  sent  : Bool
deriving DecidableEq, Repr

/-- A tracker alarm on its way to the service processors (R141): slot, input, window, which
alarm, and whether the deviation or the sum was positive. -/
structure RedAlarm where
  scope  : Nat
  slot   : Nat
  x      : Int
  window : Nat
  kind   : Nat
  up     : Bool
deriving DecidableEq, Repr

/-- The reduction engine of one node: the die, the package at its head, or the aggregator. -/
structure Red where
  active   : RedCopy
  inactive : RedCopy
  act      : Byte
  acts     : List PendAct
  wins     : List Win
  slots    : Tab SlotRec
  /-- tracker states by slot; an unlisted slot is in the reset state (R139, R140) -/
  trackers : Tab (Option OpState)
  /-- SAT_STICKY and NAN_STICKY of a slot, at their places in SLOT_STAT -/
  sticky   : Tab Word
  /-- slots to be cleared at their next window start, with the command page that waits (R162) -/
  clears   : List (Nat × Bool × Nat)
  /-- slots that start in the reset state from the window after the one named, whose merge is still open (R162) -/
  clearAt  : List (Nat × Nat)
  /-- windows that ended in DOZE and are owed at the first close after exit, with the instants of their last closes (R151) -/
  owed     : List (Nat × Nat × FT)
  /-- last emitted window of a slot, plus one -/
  emitted  : Tab Nat
  retained : List Retained
  /-- the partials merged of each child, at slot × 256 + child, the latest last (R171) -/
  kids     : Tab (List RedPartial)
  /-- acknowledgements owed to children once the merged state is mirrored (R146): child node, slot, window, and the
  update count of item 0x05 that holds the merge -/
  acksOwed : List (Nat × Nat × Nat × Nat)
  /-- the record latch (R152) and its operator, for the quantile readout (R159) -/
  latch    : List Byte
  latchRec : SlotRec
  alarms   : List RedAlarm
deriving DecidableEq, Repr

def Red.reset (_ : Nat) : Red :=
  { active := RedCopy.empty, inactive := RedCopy.empty, act := 0, acts := [], wins := [], slots := [],
    trackers := [], sticky := [], clears := [], clearAt := [], owed := [], emitted := [], retained := [], kids := [], acksOwed := [],
    latch := [], latchRec := SlotRec.empty 0, alarms := [] }

/-- An element on its way into the rules of this close (R124): element number and value, with what selects
it: CHECK tiles, ENTITY verdicts and SERVICE values arrive between closes. -/
structure Elem where
  id : Nat
  v  : Int
deriving DecidableEq, Repr

/-- A tile report as a CHECK element (R124, R209): the reporting probe, abs(actual − predicted), tile min and
max as binary32, and the NaN and Inf counts. -/
structure TileElem where
  probe : Nat
  diff  : Word
  tmin  : Word
  tmax  : Word
  nans  : Nat
  infs  : Nat
deriving DecidableEq, Repr

/-- All reduction state: the node of the block's own window (0) and of the package window (1), and the
elements gathered since the latest close. -/
structure Reds where
  nodes    : Tab Red
  tiles    : List TileElem
  /-- entity, verdict code, winning vote sum -/
  verdicts : List (Nat × Nat × Int)
  /-- the entities among them whose verdict is STALE (R30) -/
  staleVerdicts : List Nat
  /-- service kind (0 step duration, 1 heartbeats missed) and value -/
  services : List (Nat × Nat)
deriving DecidableEq, Repr

def Reds.reset : Reds := { nodes := [], tiles := [], verdicts := [], staleVerdicts := [], services := [] }

end Sys2Proof

/-! State of the forest engines and of the entity feature table (chapter "Forest Engine: Tree Ensembles in Associative
Memory"). -/

namespace Sys2Proof

/-- A feature descriptor (R190). -/
structure FeatDesc where
  src   : Nat
  qkind : Nat
  shift : Nat
  used  : Bool
  sel   : Nat
  sel2  : Nat
  bias  : Int
deriving DecidableEq, Repr

/-- A row record (R167, R191). -/
structure LeafRow where
  value : BitVec 256
  care  : BitVec 256
  leaf  : Word
deriving DecidableEq, Repr

/-- A tree of an image (R163, R191): place, node entries (feature, threshold) and rows in priority order. -/
structure Tree where
  bank  : Nat
  seg   : Nat
  nseg  : Nat
  nbase : Nat
  nodes : List (Nat × Nat)
  rows  : List LeafRow
deriving DecidableEq, Repr

/-- A copy of a forest image (R188): its bytes, and what they spell. -/
structure ForestCopy where
  image : List Byte
  feats : List FeatDesc
  trees : List Tree
  valid : Bool
deriving DecidableEq, Repr

def ForestCopy.empty : ForestCopy := { image := [], feats := [], trees := [], valid := false }

/-- What one close leaves to the engine (R27, R172): probes, clusters and regions as of that close, and the feature table
in force at it with its count. -/
structure CloseSnap where
  epoch    : Nat
  dir      : Tab Word
  cols     : Tab (BitVec 16)
  ftabAct  : Byte
  probes   : Tab Probe
  clusters : Tab Cluster
  regions  : Tab Region
deriving DecidableEq, Repr

/-- A batch in progress (R172, R182, R183): its close, its start, the entities not issued yet, inferences
issued, the window and values that stand for the whole batch, suppressed inferences with the first entity
and feature, trees already recorded for their default leaf, and the feature table's count. -/
structure Batch where
  epoch    : Nat
  start    : FT
  limit    : Option FT
  todo     : List Nat
  issued   : Nat
  window   : Nat
  slots    : Tab SlotRec
  rules    : List Rule
  kids     : Tab (List RedPartial)
  snap     : CloseSnap
  dir      : Tab Word
  cols     : Tab (BitVec 16)
  ftabAct  : Byte
  nans     : Nat
  firstNan : Nat × Nat
  defTrees : List Nat
deriving DecidableEq, Repr

/-- A verdict on its way out (R179). -/
structure Verdict where
  entity  : Nat
  code    : Byte
  cls     : Byte
  flags   : BitVec 16
  sum     : Int
  act     : Byte
  ftabAct : Byte
  epoch   : Nat
deriving DecidableEq, Repr

/-- A rewrite of the TCAM, node tables and leaf stores (R193, R196, R198), in order of their starts. -/
inductive Rebuild where
  /-- of an activation: at its end the copy that stood inactive at the activation's close is active -/
  | activate
  /-- after wake or reset, from the active copy -/
  | restore
  /-- a bank's move to the spare bank -/
  | move (bank : Nat)
deriving DecidableEq, Repr

/-- A FOREST_SCORE that waits for a free issue slot: its command page. -/
structure ScoreReq where
  pkg  : Bool
  page : Nat
deriving DecidableEq, Repr

/-- One forest engine. -/
structure Forest where
  active   : ForestCopy
  inactive : ForestCopy
  act      : Byte
  acts     : List PendAct
  next     : Nat
  /-- the latest close with a batch, or without one, plus one -/
  done     : Nat
  batch    : Option Batch
  tag      : Byte
  issued   : Nat
  flight   : List Verdict
  /-- the verdict table: VDATA words by entity (R200) -/
  table    : Tab Word
  rebuild  : List Rebuild
  /-- trees disabled by R197 until the next activation -/
  disabled : List Nat
  /-- spare rows in use: bank × 1024 + row, with the spare row -/
  rowSpare : List (Nat × Nat)
  bankFor  : Option Nat
  dead     : List Nat
  /-- the row each bank's scrubber reads next, and the last clean check of each row -/
  scrubRow : Tab Nat
  clean    : Tab FT
  scores   : List ScoreReq
deriving DecidableEq, Repr

def Forest.reset (_ : Nat) : Forest :=
  { active := ForestCopy.empty, inactive := ForestCopy.empty, act := 0, acts := [], next := 0, done := 0,
    batch := none, tag := 0, issued := 0, flight := [], table := [], rebuild := [], disabled := [], rowSpare := [],
    bankFor := none, dead := [], scrubRow := [], clean := [], scores := [] }

/-- One copy of the entity feature table (R185): directory words, and columns at 32 × entity + column. -/
structure FtabCopy where
  dir   : Tab Word
  cols  : Tab (BitVec 16)
  /-- a table has been loaded, sealed or copied into it, or written -/
  valid : Bool
deriving DecidableEq, Repr

def FtabCopy.empty : FtabCopy := { dir := [], cols := [], valid := false }

/-- The entity feature table. -/
structure Ftab where
  active   : FtabCopy
  inactive : FtabCopy
  act      : Byte
  acts     : List PendAct
  dirty    : Bool
deriving DecidableEq, Repr

/-- All forest state: the engines (one in a die hub, 16 in the KXA-32), the one feature table, and what the
latest closes left for the engines. -/
structure Forests where
  engines : Tab Forest
  ftab    : Ftab
  snaps   : List CloseSnap
deriving DecidableEq, Repr

def Forests.reset : Forests :=
  { engines := [], ftab := { active := FtabCopy.empty, inactive := FtabCopy.empty, act := 0, acts := [], dirty := false },
    snaps := [] }

end Sys2Proof

/-! State of the checker, of fencing and of the spare map (chapter "Silent-Error Checking, Fencing and Taint"), and the
violation counts of R523 and R524. -/

namespace Sys2Proof

/-- A spare-map entry (R220). -/
structure SpareEntry where
  kind     : Nat
  cause    : Nat
  released : Bool
  index    : BitVec 16
  detail   : Word
  /-- whole nanoseconds of the instant -/
  time     : BitVec 64
deriving DecidableEq, Repr

/-- A port at which a partner can violate the protocol (R523, R533). -/
inductive PortId where
  | link (port : Nat)
  | probe (unit : Nat)
  | sensor (channel : Nat)
  | hostMemory
  | hostRegister
deriving DecidableEq, Repr

/-- The SUBJECT form of R533. -/
def PortId.subject : PortId → Nat
  | .link p => p % 65536
  | .probe u => 2 ^ 28 + u % 65536
  | .sensor c => 2 * 2 ^ 28 + c % 65536
  | .hostMemory => 3 * 2 ^ 28
  | .hostRegister => 4 * 2 ^ 28

/-- A kernel table entry (R207, R227, R228): its configuration words and its counts. -/
structure Kernel where
  absTol    : Word
  relTol    : Word
  lo        : Word
  hi        : Word
  limits    : Word
  ctl       : Word
  lambda    : Word
  escape    : Word
  checked   : BitVec 64
  unchecked : BitVec 64
  failed    : Word
deriving DecidableEq, Repr

/-- FENCE resets to 1 (R228). -/
def Kernel.reset (_ : Nat) : Kernel :=
  { absTol := 0, relTol := 0, lo := 0, hi := 0, limits := 0, ctl := 0x10000000, lambda := 0, escape := 0,
    checked := 0, unchecked := 0, failed := 0 }

/-- The known-answer test in progress (R213, R214, R216): its unit, whether the unit has acknowledged TEST and
when, the taint epoch in which it began, whether it was abandoned before the acknowledge. -/
structure KatRun where
  unit      : Nat
  acked     : Bool
  ackTime   : FT
  taint     : Nat
  abandoned : Bool
deriving DecidableEq, Repr

/-- A unit queued first for a test (R219, R229): the command page that waits, and whether it is an UNFENCE. -/
structure KatReq where
  unit    : Nat
  unfence : Bool
  pkg     : Bool
  page    : Nat
deriving DecidableEq, Repr

/-- The last passed test of a unit: its instant, and the taint epoch in which it began (R215). -/
structure KatPass where
  time  : FT
  taint : Nat
deriving DecidableEq, Repr

def noPass (_ : Nat) : Option KatPass := none

/-- A notice sent to a consumer and not acknowledged (R223). -/
structure Notice where
  loc   : BitVec 16
  seq   : BitVec 32
  bytes : List Byte
  tries : Nat
  sent  : FT
deriving DecidableEq, Repr

/-- The checker. -/
structure Check where
  spare   : List SpareEntry
  /-- units marked SUSPECT (R210, R216, R218, R523) -/
  suspect : Tab Bool
  /-- instants of the fences of the last 1 ms (R218) -/
  fences  : List FT
  /-- instants of the counted violations of the last 1 ms, by `PortId.subject` (R524) -/
  violations : Tab (List FT)
  kernels : Tab Kernel
  /-- the registration table (R221): REG_DATA words by index -/
  regs    : Tab Word
  /-- idle runs by unit (R213) -/
  idle    : Tab Nat
  passes  : Tab (Option KatPass)
  kat     : Option KatRun
  katReqs : List KatReq
  katLast : Nat
  katLastUnit : Nat
  /-- units whose FENCED clears at the next close (R219) -/
  unfence : List Nat
  /-- taint epochs (R206): TDIV in force, the number in progress and the one before it -/
  tdiv    : Nat
  taint   : Nat
  taintPrev : Nat
  /-- counts and RESID are to be cleared at the next taint-epoch end, and the commands that wait -/
  clears  : List (Bool × Nat)
  /-- reports that wait at their probes: Snuff, or the checker gated (R226) -/
  held    : Tab (Option (List Word × Bool))
  /-- one more than the probe each region's check lane served last; 0 for none (R204) -/
  lane    : Tab Nat
  /-- taint epochs whose reports a warm reset lost, by job: first and last tag (R226) -/
  lost    : List (Nat × Nat × Nat)
  nextSeq : BitVec 32
  unacked : List Notice
  /-- notices written to this hub's ring: ORIGIN and SEQ (R223) -/
  seen    : List (Nat × Nat)
deriving DecidableEq, Repr

def noTimes (_ : Nat) : List FT := []
def noReport (_ : Nat) : Option (List Word × Bool) := none

def Check.reset : Check :=
  { spare := [], suspect := [], fences := [], violations := [], kernels := [], regs := [], idle := [], passes := [],
    kat := none, katReqs := [], katLast := 0, katLastUnit := 0, unfence := [], tdiv := 1, taint := 0, taintPrev := 0,
    clears := [], held := [], lane := [], lost := [], nextSeq := 0, unacked := [], seen := [] }

end Sys2Proof
end

