-- ==== Sys2Proof/Machine/StateFum.lean ====
section
/-!
DEFINITION. State of Fumarole and of the twin mirror.
-/
/-! The items of state that travel to the mirror peer (R429), and their forms in bytes, which the manual does not give:
constants without a body. -/

namespace Sys2Proof

/-- Totals of a probe: T, and what it has put into its cluster's sums. -/
structure ProbeTotals where
  t     : Tab (BitVec 64)
  inSum : Tab (BitVec 64)
deriving DecidableEq, Repr

def ProbeTotals.zero (_ : Nat) : ProbeTotals := { t := [], inSum := [] }

/-- State of a slot with an open window: its GEN, which is the window, and its tracker (R433). -/
structure SlotState where
  slot    : Nat
  gen     : Nat
  win     : Win
  tracker : Option OpState
deriving DecidableEq, Repr

/-- An entry of the digest table (R429 item 0x09, R434): item, copy 0 active or 1 inactive, engine, ACT, digest. -/
structure DigestEntry where
  id     : Nat
  copy   : Nat
  engine : Nat
  act    : Nat
  digest : List Byte
deriving DecidableEq, Repr

/-- The mirrored items (R429). -/
inductive MirrorItem where
  | totals (probes : Tab ProbeTotals) (clusters : Tab (Tab (BitVec 64)))
  | slots (l : List SlotState)
  | servo (state : Servo) (rate base integ offset mpd : Int)
  | liveness (watch : Tab Watch) (claims : List Assertion)
  | merge (wins : List Win) (emitted : Tab Nat)
  | steps (wins : List StepWin)
  | jobs (jobs : Tab (Option JobEntry))
  | spares (l : List SpareEntry)
  | digests (l : List DigestEntry)
deriving DecidableEq, Repr

def MirrorItem.id : MirrorItem → Nat
  | .totals _ _ => 1 | .slots _ => 2 | .servo _ _ _ _ _ _ => 3 | .liveness _ _ => 4 | .merge _ _ => 5
  | .steps _ => 6 | .jobs _ => 7 | .spares _ => 8 | .digests _ => 9

/-- An item as the bytes of its mirror frames, and what the bytes of a whole copy spell: the manual gives no layout. -/
opaque Config.mirrorBytes (i : MirrorItem) : List Byte
opaque Config.mirrorItem (item : Nat) (bytes : List Byte) : Option MirrorItem

/-- The request of a STATE_PULL to the peer (R433): the manual gives it no form. Items by bit, item 0x01 at bit 0. -/
opaque Config.pullAsk (items : Nat) : List Byte
opaque Config.pullAsked (bytes : List Byte) : Option Nat

/-- The SCHEMA of a record for which the manual states none (R416, R417), by page and CODE. -/
opaque Config.schema (page code : Nat) : Byte

end Sys2Proof

/-! State of the Fumarole recorder and of state preservation (chapter "Fumarole Recorder, Memory Protection and State
Preservation"). -/

namespace Sys2Proof

/-- A record as its source forms it (R416): header fields and body. CHK is formed when it is written. -/
structure LogRec where
  sev    : Nat
  inj    : Bool
  unlocked : Bool
  schema : Byte
  seq    : BitVec 32
  time   : FT
  page   : Byte
  inst   : Byte
  code   : BitVec 16
  origin : BitVec 16
  body   : List Byte
deriving DecidableEq, Repr

/-- A record held in the log: its LOGNO and its bytes, CHK included, as stored (R419), and whether its copy
to host memory has begun (R420). -/
structure LogEntry where
  logno   : BitVec 32
  bytes   : List Byte
  copying : Bool
deriving DecidableEq, Repr

/-- The mirror toward the peer (R429 to R432): KX_FUM_MSTAT.STATE. -/
inductive MirrorState where
  | none | syncing | current | lagging | lost
deriving DecidableEq, Repr

def MirrorState.code : MirrorState → Nat
  | .none => 0 | .syncing => 1 | .current => 2 | .lagging => 3 | .lost => 4

/-- A STATE_PULL, or a STATE_RESTORE that needs the peer's digest table, which waits for the peer's FULL frames
(R433, R436): items asked for and not yet whole by bit, the command page, and slots left STALE so far. -/
structure Pull where
  items   : Nat
  pkg     : Bool
  page    : Nat
  stale   : Nat
  restore : Bool
deriving DecidableEq, Repr

/-- A FUM_DUMP in progress (R424): its arguments, the first LOGNO and NEXT at acceptance, records still to copy, the
one under copy, bytes and records written, skipped and with a bad CRC, and the instant of acceptance. -/
structure Dump where
  pkg     : Bool
  page    : Nat
  addr    : Nat
  release : Bool
  first   : BitVec 32
  upTo    : BitVec 32
  todo    : List (BitVec 32)
  cur     : Option (BitVec 32)
  pos     : Nat
  count   : Nat
  skipped : Nat
  badCrc  : Nat
  time    : FT
deriving DecidableEq, Repr

/-- A STATE_RESTORE in progress (R436): the items asked for, FORCE, and the checkpoint's bytes once read. -/
structure Restore where
  pkg   : Bool
  page  : Nat
  items : Nat
  force : Bool
  bytes : List Byte
deriving DecidableEq, Repr

/-- The recorder, memory protection and the mirror. -/
structure Fum where
  /-- records that wait at their sources for the write port, oldest first (R419) -/
  waiting : List LogRec
  /-- held records in LOGNO order -/
  log     : List LogEntry
  next    : BitVec 32
  seq     : BitVec 32
  dropCount : BitVec 32
  dropSev   : Byte
  /-- drops since the previous LOST record: count, severities, first and last instant (R421) -/
  lostCount : Nat
  lostMask  : Byte
  lostFirst : FT
  lostLast  : FT
  /-- the captured record of RIDX (R423) -/
  window    : List Byte
  captured  : Bool
  capCrcBad : Bool
  capLen    : Nat
  /-- CE and UE counts, the first failing location, and words corrected at their latest patrol (R427, R428), numbered
  array × 2^24 + word -/
  ceCount   : BitVec 32
  ueCount   : BitVec 32
  ueLoc     : Word
  ceWords   : Tab Bool
  /-- the peer and the mirror's state; the update count of each item, the count last sent, items of which a FULL copy
  is still to be sent; the window whose end came last; frames not acknowledged, oldest first, with item, update
  count and instant; ticks toward the next update of item 0x01 (R429 to R432) -/
  peer      : Option (BitVec 16)
  mirror    : MirrorState
  gens      : Tab Nat
  sent      : Tab Nat
  full      : List Nat
  lastWin   : Nat
  unacked   : List (Nat × Nat × FT)
  totTicks  : Nat
  /-- replicas held for other nodes, at node × 16 + item, with the GEN last received, and the parts of FULL copies in progress (R431, R432) -/
  replica   : Tab (List Byte)
  replicaGen : Tab Nat
  parts     : Tab (List Byte)
  /-- replicas asked for by other nodes, to be taken at the next close (R433): node and items -/
  asks      : List (BitVec 16 × Nat)
  pulls     : List Pull
  /-- a digest table pulled from the peer, with the item's update count then -/
  pulled    : Option (Nat × List DigestEntry)
  dumps     : List Dump
  ckpts     : List WritePlan
  restores  : List Restore
  /-- an injection has fired in this step: its records carry the injected flag (R68) -/
  injNow    : Bool
  /-- words that an injection has upset at their writing: the page and how many bits (R68) -/
  flips     : List (Nat × Nat)
deriving DecidableEq, Repr

def boolFalse (_ : Nat) : Bool := false
def natZero (_ : Nat) : Nat := 0
def noBytes (_ : Nat) : List Byte := []
def wordZero (_ : Nat) : Word := 0
def bv64Zero (_ : Nat) : BitVec 64 := 0
def bv40Zero (_ : Nat) : BitVec 40 := 0
def bv16Zero (_ : Nat) : BitVec 16 := 0

/-- An empty log at LOGNO 0 (R437), no peer, no counts. -/
def Fum.reset : Fum :=
  { waiting := [], log := [], next := 0, seq := 0, dropCount := 0, dropSev := 0, lostCount := 0, lostMask := 0,
    lostFirst := 0, lostLast := 0, window := [], captured := false, capCrcBad := false, capLen := 0,
    ceCount := 0, ueCount := 0, ueLoc := 0, ceWords := [], peer := none, mirror := .none,
    gens := [], sent := [], full := [], lastWin := 0, unacked := [], totTicks := 0, replica := [], replicaGen := [], parts := [], asks := [],
    pulls := [], pulled := none, dumps := [], ckpts := [], restores := [], injNow := false, flips := [] }

end Sys2Proof
end

