-- ==== Sys2Proof/Machine/StatePower.lean ====
section
/-!
DEFINITION. State of the power sequencer, the power manager, the tray module and the root of trust.
-/
/-! State of block power, supplies and resets (chapter "Block Power States, Supplies and Resets"). -/

namespace Sys2Proof

/-- The block's power state (KX_BPWR_STATE, with EMBER and OFF, in which the page does not answer). -/
inductive PowerState where
  | run | idle | doze | ember | off | entering | exiting
deriving DecidableEq, Repr

/-- A handshake entry in progress (R392, R393): the state asked for, the command page, its start, the reasons of
the subsystems that delay, and the latest delay reason given. -/
structure Entry where
  target : Nat
  pkg    : Bool
  page   : Nat
  start  : FT
  delays : List (Nat × Nat)
  last   : Nat
deriving DecidableEq, Repr

/-- The reset kinds that end with a step of their own (R404): the code of BPWR_RESET.LAST. -/
inductive ResetKind where
  | poAon | poVddk | poVddt | pin | warm | package | region (r : Nat) | emberExit | rot | offExit
deriving DecidableEq, Repr

def ResetKind.code : ResetKind → Nat
  | .poAon => 1 | .poVddk => 2 | .poVddt => 3 | .pin => 5 | .warm => 6 | .package => 7 | .region _ => 8
  | .emberExit => 11 | .rot => 12 | .offExit => 13

/-- A rail's place in SUPPLY.PG. -/
def Rail.bit : Rail → Nat
  | .vddaon => 3 | .vddt => 2 | .vddk => 1 | .vddio => 0

/-- The time-extrapolation state (R398): fleet time at EMBER entry and RATE. -/
structure Extrap where
  t    : FT
  rate : Int
deriving DecidableEq, Repr

structure Bpwr where
  state : PowerState
  /-- the latest entry was by handshake -/
  mode  : Bool
  entry : Option Entry
  /-- when the present DOZE and EMBER were entered -/
  dozeAt  : FT
  emberAt : FT
  /-- the last instant at which the idle conditions did not hold, and whether they held after the last step (R391) -/
  busyAt : FT
  quiet  : Bool
  /-- consecutive active edges of the unit that has most, by probe (R395) -/
  active : Tab Nat
  wickSkip : Nat
  wicks    : Nat
  /-- the epoch of the latest Wick cycle, plus one -/
  wickAt   : Nat
  /-- which rails are good, in the order of SUPPLY.PG: bit 3 VDDAON, 2 VDDT, 1 VDDK, 0 VDDIO; and those that have
  fallen since VDDAON rose (R402) -/
  pg     : BitVec 4
  fell   : BitVec 4
  refclk : Bool
  extrap : Option Extrap
  rstLow : Bool
  /-- the reset of the die hub or of more that has begun and not ended -/
  under  : Option ResetKind
  /-- instants of resets within the last millisecond by scope: 0 the die hub, 1 + region (R409) -/
  times  : Tab (List FT)
  /-- BIST has failed (R413) -/
  failed : Bool
  /-- CAUSE, RESET and SUPPLY as of the latest slow tick, by their offsets (R57) -/
  shown  : Tab Word
deriving DecidableEq, Repr

/-- RUN, every rail good, REFCLK running. -/
def Bpwr.reset : Bpwr :=
  { state := .run, mode := false, entry := none, dozeAt := 0, emberAt := 0, busyAt := 0, quiet := true, active := [],
    wickSkip := 0, wicks := 0, wickAt := 0, pg := 0xF, fell := 0, refclk := true, extrap := none, rstLow := false, under := none, times := [],
    failed := false, shown := [] }

end Sys2Proof

/-! State of the power manager of the host die (chapter "Power, Droop and Thermal Control of the Host Die"). -/

namespace Sys2Proof

/-- A core: the words CORE_F (F_REQ), CORE_LIM and CORE_FIX, FMAX by point, F_NOW, a loaded code, the modelled
power of the latest close in mW, and the limits in force (R364, R367, R374). -/
structure PwrCore where
  f      : Word
  lim    : Word
  fix    : Word
  fmax   : Tab Nat
  now    : Nat
  loaded : Option Nat
  model  : Nat
  thermal : Option Nat
  droop   : Option Nat
deriving DecidableEq, Repr

def PwrCore.reset (_ : Nat) : PwrCore :=
  { f := 0, lim := 0, fix := 0, fmax := [], now := 0, loaded := none, model := 0, thermal := none, droop := none }

/-- A rail: RAIL_CFG, the acknowledged point, the target point, the point that counts for interlock 1, VFAULT, K,
the sums of the present millisecond, and the latest READ_IOUT in mA (R357, R358, R362). -/
structure PwrRail where
  cfg    : Word
  now    : Nat
  tgt    : Nat
  ack    : Nat
  vfault : Bool
  k      : Nat
  sumMeas  : Nat
  sumModel : Nat
  iout   : Option Nat
deriving DecidableEq, Repr

def PwrRail.reset (_ : Nat) : PwrRail :=
  { cfg := 0x0000FF00, now := 0, tgt := 0, ack := 0, vfault := false, k := 16384, sumMeas := 0, sumModel := 0, iout := none }

/-- A sensor channel: its latest reading, where it has one, and the slow ticks since (R354, R512). -/
structure Sensor where
  raw   : Option (BitVec 16)
  ticks : Nat
  quiet : Bool
deriving DecidableEq, Repr

def Sensor.reset (_ : Nat) : Sensor := { raw := none, ticks := 0, quiet := false }

/-- A change set (R359): target frequencies by core and target points by rail; a forced one loads F_MIN into every
core and moves every rail to point 0, and no droop holds it (R376). -/
structure ChangeSet where
  freqs  : List (Nat × Nat)
  points : List (Nat × Nat)
  forced : Bool
deriving DecidableEq, Repr

/-- The handshake a running change set waits for. -/
inductive PwrWait where
  | none
  | fc (core mhz : Nat)
  | go
  | rail (rail point : Nat)
deriving DecidableEq, Repr

/-- The change set that runs (R359, R360): its step, 1 to 6, what is left of the step, the handshake in progress,
and whether it ends after that handshake. -/
structure Running where
  set   : ChangeSet
  step  : Nat
  todo  : List Nat
  doing : PwrWait
  abort : Bool
deriving DecidableEq, Repr

/-- A region's droop detector (R370 to R374): the half-periods of the last slow-tick intervals without a droop, in
2^-16 ps, newest first; whether it droops and since when; the hold's end; detections and stretch time of this
close; the latest detection; and a sustained droop that the next decision answers. -/
structure Droop where
  halves  : List Nat
  on      : Bool
  since   : FT
  seen    : Bool
  hold    : Option FT
  events  : Nat
  stretch : Nat
  last    : FT
  long    : Bool
deriving DecidableEq, Repr

def Droop.reset (_ : Nat) : Droop :=
  { halves := [], on := false, since := 0, seen := false, hold := none, events := 0, stretch := 0, last := 0, long := false }

/-- A verdict limit (R368): entity, VPWR entry, the unit it names, the batch that set it, batches it skips. -/
structure VHold where
  entity : Nat
  entry  : Nat
  unit   : Nat
  batch  : Nat
  skips  : Nat
deriving DecidableEq, Repr

/-- Release waves armed at this node (R378 to R380): a barrier's broadcast pair, or a job; the identifier of its
record; T; the waves with their instants; waves released; deferrals; and whether T has come. -/
structure WaveSet where
  origin  : BitVec 16
  seq     : BitVec 32
  job     : Bool
  ident   : BitVec 32
  t       : FT
  waves   : List (Nat × FT)
  gone    : Byte
  defers  : Nat
  begun   : Bool
deriving DecidableEq, Repr

/-- The power manager. -/
structure Hpwr where
  cores   : Tab PwrCore
  rails   : Tab PwrRail
  sensors : Tab Sensor
  /-- WDATA words at 6 × profile + w -/
  weights : Tab Word
  /-- DMAP entries -/
  dmap    : Tab (BitVec 64)
  /-- the points in force, in mV (R353) -/
  points  : List Nat
  running : Option Running
  held    : Option ChangeSet
  goHeld  : Bool
  forced  : Bool
  /-- 1 ALERT, 2 TRIP, 3 both -/
  cause   : BitVec 2
  fixedFloor : Bool
  /-- BUDGET_W of the groups, in mW -/
  budgets : Tab Nat
  decidedAt : FT
  corrAt  : FT
  /-- the latest CAP_UNMET record of a group, plus one -/
  unmetAt : Tab Nat
  /-- STRETCH_REQ levels, TRIP_N driven low, ALERT_N low, and when it went high -/
  stretch : BitVec 16
  tripLow : Bool
  alertLow : Bool
  alertHigh : FT
  /-- ALERT_N fell in EMBER: its STATUS_WORDs, until the hub is up (R397) -/
  alertHeld : Option (List Nat)
  droops  : Tab Droop
  vholds  : List VHold
  waves   : List WaveSet
  /-- the readings that SDATA shows: those of the latest slow tick, by channel (R57) -/
  shown   : Tab Nat
deriving DecidableEq, Repr

def pointsReset : List Nat := [550, 600, 650, 700, 750, 800, 850, 900]

def Hpwr.reset : Hpwr :=
  { cores := [], rails := [], sensors := [], weights := [], dmap := [], points := pointsReset, running := none, held := none,
    goHeld := false, forced := false, cause := 0, fixedFloor := false, budgets := [], decidedAt := 0, corrAt := 0,
    unmetAt := [], stretch := 0, tripLow := false, alertLow := false, alertHigh := 0, alertHeld := none, droops := [], vholds := [], waves := [], shown := [] }

end Sys2Proof

/-! State of the module that carries a KXA-32 (R529 to R531): its input, its connector, its latch, its converters and
its LED. -/

namespace Sys2Proof

/-- The module's LED (R531). -/
inductive Led where
  | off | amber | blue
deriving DecidableEq, Repr

structure Board where
  /-- the input stands within the turn-on and turn-off limits -/
  vinOk   : Bool
  /-- PRESENT_N is low -/
  present : Bool
  /-- EJECT_N is low -/
  eject   : Bool
  /-- the controller has switched the converters off after an ejection -/
  ejected : Bool
  led     : Led
  /-- the command page on which PARENT_SWAP runs for the latch -/
  swap    : Option (Bool × Nat)
  /-- when the converters switch off -/
  offAt   : Option FT
  /-- the last STATUS_WORD of each converter, from PMBus address 0x40 on -/
  status  : Tab (BitVec 16)
deriving DecidableEq, Repr

/-- Mated, powered, latched. -/
def Board.reset : Board :=
  { vinOk := true, present := true, eject := false, ejected := false, led := .off, swap := none, offAt := none, status := [] }

/-- The converters run. -/
def Board.on (m : Board) : Bool := m.vinOk && m.present && !m.ejected

end Sys2Proof

/-! State of the root of trust (chapter "Root of Trust, Attestation and Sessions"). -/

namespace Sys2Proof

/-- An item submitted for measurement (R28, R491): its number, its digest, and the command page that waits. -/
structure MeasReq where
  item   : Nat
  digest : List Byte
  page   : Option (Bool × Nat)
deriving DecidableEq, Repr

/-- The status of a measurement index (R492). -/
inductive MeasStatus where
  | measured | unmeasured | absent | mismatch
deriving DecidableEq, Repr

def MeasStatus.code : MeasStatus → Nat
  | .measured => 0 | .unmeasured => 1 | .absent => 2 | .mismatch => 3

/-- An entry of the measurement log (R491). -/
structure MeasEntry where
  status : MeasStatus
  digest : List Byte
deriving DecidableEq, Repr

def MeasEntry.none (_ : Nat) : MeasEntry := { status := .absent, digest := [] }

/-- KX_ROT_STATE.STATE (R505). -/
inductive RotState where
  | boot | run | recovery | commit
deriving DecidableEq, Repr

def RotState.code : RotState → Nat
  | .boot => 0 | .run => 1 | .recovery => 2 | .commit => 3

/-- The fields of a counter block (R486). -/
structure Counters where
  gen     : Nat
  minSvn  : Nat
  pendMin : Nat
  active  : Bool
  revoked : Byte
  pendRevoke : Byte
deriving DecidableEq, Repr

def Counters.zero : Counters := { gen := 0, minSvn := 0, pendMin := 0, active := false, revoked := 0, pendRevoke := 0 }

/-- What is kept of a firmware image (R485): its measurement, SVN, MIN_SVN_NEW, REVOKE, OWNER, and its slot (true: B). -/
structure FwImage where
  digest : List Byte
  svn    : Nat
  minNew : Nat
  revoke : Byte
  owner  : List Byte
  slot   : Bool
deriving DecidableEq, Repr

def FwImage.zero : FwImage := { digest := [], svn := 0, minNew := 0, revoke := 0, owner := [], slot := false }

/-- A commit window (R489): the counter block written, whether a reset follows, the command page, the STATE before it,
and slow ticks since it opened. -/
structure Commit where
  ctr   : Counters
  rst   : Bool
  pkg   : Bool
  page  : Nat
  prior : RotState
  ticks : Nat
deriving DecidableEq, Repr

/-- An SPDM session (R495 to R497): established by FINISH, mutually authenticated, the shared secret its keys come from,
the number of key updates, the implicit sequence numbers, and the instant of its latest message. -/
structure Session where
  done   : Bool
  auth   : Bool
  secret : List Byte
  keyGen : Nat
  rx     : Nat
  tx     : Nat
  last   : FT
deriving DecidableEq, Repr

/-- A request deferred by the commit window (R490). -/
inductive Deferred where
  | challenge (slot : Nat)
  | measurements (op : Nat) (signed : Bool)
  | keyExchange (reqId : BitVec 16) (point : List Byte)
deriving DecidableEq, Repr

/-- An ephemeral key held for a port (R499): the private scalar, its NONCE, and when it was drawn. -/
structure Share where
  priv  : Nat
  nonce : List Byte
  at'   : FT
deriving DecidableEq, Repr

/-- A decision in the verification log (R503): kind, inputs as logged, result, and its instant. -/
structure Decision where
  kind   : Nat
  inputs : List Byte
  result : Word
  at'    : FT
deriving DecidableEq, Repr

/-- Keys a port's LINK_INSTALL left for LINK_ARM, and the node they were agreed with (R500, R501). -/
structure LinkAgreed where
  key  : List Byte
  salt : List Byte
  peer : BitVec 16
deriving DecidableEq, Repr

structure Rot where
  state   : RotState
  queue   : List MeasReq
  /-- the measurement log, by index; an item of the package window's program stands at index + 0x100 -/
  log     : Tab MeasEntry
  measGen : Nat
  updatePending : Bool
  committed  : Bool
  fallback   : Bool
  identityOk : Bool
  /-- the running image, the counter block in force and which copy holds it, and the staged image -/
  image   : FwImage
  ctr     : Counters
  ctrCopy : Bool
  staged  : Option FwImage
  commit  : Option Commit
  /-- the key store: UDS, the private scalars of DeviceID and Alias, K_mem and K_trace -/
  uds     : List Byte
  devKey  : Nat
  aliasKey : Nat
  kMem    : List Byte
  kTrace  : List Byte
  /-- the DeviceID and Alias certificates -/
  devCert : List Byte
  aliasCert : List Byte
  /-- trace tokens issued since the RoT started (R502) -/
  tokens  : Nat
  /-- SPDM: sessions by id, KEY_EXCHANGEs answered, MEAS_GEN of unsigned blocks in the transcripts by session, the
  deferred request with its token and session, and tokens given -/
  sessions : Tab (Option Session)
  exchanges : Nat
  transcript : List (Option Word × Nat)
  deferred : Option (Byte × Option Word × Deferred)
  deferrals : Nat
  /-- link keys by port -/
  shares  : Tab (Option Share)
  agreed  : Tab (Option LinkAgreed)
  /-- kept copies still to be hashed again, in order (R494) -/
  rehash  : List Nat
  /-- the verification log, oldest first, other watcher checks seen, and the instant of the latest mismatch (R503) -/
  verify  : List Decision
  checks  : Nat
  mismatchAt : Option FT
  /-- a RoT-initiated reset ordered, with its cause, and a warm reset ordered (R503, R504) -/
  resetDue : Option Nat
  warmDue  : Bool
  /-- the latest re-hash of the resident firmware -/
  fwAt    : FT
deriving DecidableEq, Repr

def noSession (_ : Nat) : Option Session := none
def noShare (_ : Nat) : Option Share := none
def noAgreed (_ : Nat) : Option LinkAgreed := none

/-- The RoT before its ROM has run (R480). -/
def Rot.reset : Rot :=
  { state := .boot, queue := [], log := [], measGen := 0, updatePending := false, committed := false, fallback := false,
    identityOk := false, image := FwImage.zero, ctr := Counters.zero, ctrCopy := false, staged := none, commit := none, uds := [],
    devKey := 0, aliasKey := 0, kMem := [], kTrace := [], devCert := [], aliasCert := [], tokens := 0, sessions := [],
    exchanges := 0, transcript := [], deferred := none, deferrals := 0, shares := [], agreed := [], rehash := [], verify := [],
    checks := 0, mismatchAt := none, resetDue := none, warmDue := false, fwAt := 0 }

end Sys2Proof
end

