-- ==== Sys2Proof/Machine/State.lean ====
section
/-!
DEFINITION. The whole state of the block, the reasons a step can stop, and the state after reset.
-/
namespace Sys2Proof.Machine

/-- A step of this model never stops with a fault: no rule of the manual names an access or a command that
halts the block. The one constructor stands for an address space that the manual says does not exist and
is raised by no command. -/
inductive Fault where
  /-- Raised by no command: every access outside the windows is answered ERROR (R61). Safe. -/
  | outsideWindows
deriving DecidableEq, Repr

/-- Why a command has no meaning here. -/
inductive Refusal where
  /-- The command of this mnemonic has no meaning yet. Raised by the command switch only. Safe. -/
  | notModelled (mnemonic : String)
deriving DecidableEq, Repr

structure State where
  straps : Straps
  pkg    : Package
  pace   : Pace
  pages  : Pages
  samp   : Samp
  reds   : Reds
  forest : Forests
  check  : Check
  rot    : Rot
  time   : Time
  bpwr   : Bpwr
  trace  : Trace
  snuff  : Snuff
  tap    : Tap
  links  : Links
  sinter : Sinter
  svc    : Svc
  hpwr   : Hpwr
  fum    : Fum
  board  : Board
  /-- the present fleet time (R5) and the instant of the latest slow tick (R57) -/
  now    : FT
  tick   : FT
  /-- slow ticks since power-on -/
  ticks  : Nat
  /-- messages handed to the link layer, with their ports, oldest first -/
  mbox   : List (Nat × Msg)
  /-- what has left the block at its ports, newest first -/
  out    : List Out
  /-- how many free values have been drawn: the model's own field -/
  free   : Nat
  /-- commands that wait, first in, first out: the model's own field -/
  pending : List Instr
deriving DecidableEq, Repr

/-- The straps of the modelled die: die role, index 0, HEAD_EN high, REFCLK 25 MHz. -/
def Straps.reset : Straps :=
  { role := .die, dieIdx := 0, headEn := true, twinSel := false, cascade := false, refclkSel := 0 }

/-- The block right after power-on of VDDAON (R404, R411). -/
def State.reset : State :=
  { straps := Straps.reset, pkg := Package.reset, pace := Pace.reset, pages := Pages.reset,
    samp := Samp.reset, reds := Reds.reset, forest := Forests.reset, check := Check.reset, rot := Rot.reset, time := Time.reset, bpwr := Bpwr.reset,
    trace := Trace.reset, snuff := Snuff.reset, tap := Tap.reset, links := Links.reset, sinter := Sinter.reset, svc := Svc.reset, hpwr := Hpwr.reset, fum := Fum.reset, board := Board.reset, now := 0, tick := 0, ticks := 0,
    mbox := [], out := [], free := 0, pending := [] }

end Sys2Proof.Machine
end

