-- ==== Sys2Proof/Machine/Flags.lean ====
section
/-!
DEFINITION. The block's flags: the interrupt cause of a page, the lines that causes pull low, and the messages that new
causes send (R85). The block has no arithmetic flags.
-/
namespace Sys2Proof.Machine

/-- Has a page a cause for its interrupt: an unmasked PAGE_ERR bit with ERR enabled, or a DONE with CMD_DONE
enabled (R85)? -/
def pageCause (cmds : Tab CmdPage) (page : Nat) (h : Header) : Bool :=
  (bit h.irqEn 0 && decide (h.err &&& ~~~ h.errMask ≠ 0)) ||
  (decide (keyType page = 0x08) && bit h.irqEn 1 &&
    (Tab.read CmdPage.reset cmds (keyInst page % 8 + if keyScope page = 1 then 8 else 0)).done)

/-- The lines that pages with WIRE drive for a present cause (R85). -/
def linesOf (cmds : Tab CmdPage) : Tab Header → BitVec 4
  | [] => 0
  | (k, h) :: t =>
    (if pageCause cmds k h && bit h.irqEn 29 then setBit 0#4 (fld h.irqEn 30 2) true else 0) ||| linesOf cmds t

/-- A page's cause for its line, as a number: it has WIRE = 1 and a present cause (R85). -/
def lineCause (cmds : Tab CmdPage) (k : Nat) (h : Header) : Option Nat :=
  if pageCause cmds k h && bit h.irqEn 29 then some (4 * k + fld h.irqEn 30 2) else none

/-- The present causes, each of a page for its line. -/
def causesOf (cmds : Tab CmdPage) : Tab Header → List Nat
  | [] => []
  | (k, h) :: t => match lineCause cmds k h with
    | some c => c :: causesOf cmds t
    | none => causesOf cmds t

/-- The lines of pages with MSG = 1 whose cause for the line has come; `old` are the causes that were present. -/
def newMessages (cmds : Tab CmdPage) (old : List Nat) : Tab Header → List Nat
  | [] => []
  | (k, h) :: t =>
    match lineCause cmds k h with
    | some c => if !old.contains c && bit h.irqEn 28 then fld h.irqEn 30 2 :: newMessages cmds old t else newMessages cmds old t
    | none => newMessages cmds old t

end Sys2Proof.Machine
end

