-- ==== Sys2Proof/Machine/Ops.lean ====
section
/-!
DEFINITION. The shared operations: registers and page headers, free values, records toward the log,
messages toward the links, host-memory transfers, and the interrupt lines, which every command settles
when it ends.
-/
namespace Sys2Proof.Machine

/-! ### Page numbers -/

/-- The page of a TYPE in the block's own window, instance 0. -/
def pg (ty : Nat) : Nat := pageKey ty 0 0

/-! ### Register words -/

/-- The stored word of a register. -/
def State.reg (s : State) (page off : Nat) : Word := Tab.read regReset s.pages.regs (regKey page off)

/-- Store a register word. -/
def State.setReg (s : State) (page off : Nat) (w : Word) : State :=
  { s with pages := { s.pages with regs := Tab.write regReset s.pages.regs (regKey page off) w } }

/-- The number in `n` words from `off` on, least significant word first (R76). -/
def State.regWide (s : State) (page off n : Nat) : Nat :=
  ofWords ((List.range n).map fun i => s.reg page (off + 4 * i))

/-- Store a number in `n` words from `off` on. -/
def State.setRegWide (s : State) (page off : Nat) (n v : Nat) : State :=
  (List.range n).foldl (fun s i => s.setReg page (off + 4 * i) (wordOf v i)) s

/-- A field of a register. -/
def State.regFld (s : State) (page off lo len : Nat) : Nat := fld (s.reg page off) lo len

/-- Replace a field of a register. -/
def State.setRegFld (s : State) (page off lo len v : Nat) : State :=
  s.setReg page off (setFld (s.reg page off) lo len v)

/-- Advance a counter field that stops at its largest value. -/
def State.bumpFld (s : State) (page off lo len n : Nat) : State :=
  s.setRegFld page off lo len (satAdd len (s.regFld page off lo len) n)

/-- Advance a 32-bit counter that stops at 0xFFFF_FFFF. -/
def State.bump (s : State) (page off n : Nat) : State := s.bumpFld page off 0 32 n

/-! ### Page headers -/

def State.hdr (s : State) (page : Nat) : Header := Tab.read Header.reset s.pages.hdr page

def State.modHdr (s : State) (page : Nat) (f : Header → Header) : State :=
  { s with pages := { s.pages with hdr := Tab.modify Header.reset s.pages.hdr page f } }

/-- Set a PAGE_ERR bit (R65). -/
def State.setErr (s : State) (page b : Nat) : State :=
  s.modHdr page fun h => { h with err := setBit h.err b true }

/-- Set or clear a PAGE_STAT bit. -/
def State.setStat (s : State) (page b : Nat) (v : Bool) : State :=
  s.modHdr page fun h => { h with stat := setBit h.stat b v }

/-- PAGE_ERR bits common to every page (R65). -/
def errAccess : Nat := 0
def errInjFired : Nat := 2
def errStaleReply : Nat := 3
def errCe : Nat := 4
def errUe : Nat := 5
def errPrivClamp : Nat := 6
def errGuard : Nat := 7

/-- PAGE_STAT bits common to every page (R65). -/
def statReady : Nat := 0
def statUnmeasured : Nat := 1
def statStale : Nat := 2
def statInReset : Nat := 3
def statSyncPend : Nat := 4

/-! ### Free values -/

/-- Draw a fresh free value of `w` bits. -/
def State.draw (s : State) (w : Nat) : BitVec w × State :=
  (Config.freeValue w s.free, { s with free := s.free + 1 })

/-! ### What the role is -/

def State.isSystem (s : State) : Bool := decide (s.straps.role = .system)
def State.isDie (s : State) : Bool := decide (s.straps.role = .die)

/-- This die hub is the package head (R14). -/
def State.isHead (s : State) : Bool := s.isDie && decide (s.pkg.head = some s.straps.dieIdx)

/-- The log's slots (R420): 4,096 in a die hub, 65,536 in the KXA-32. -/
def State.logSlots (s : State) : Nat := if s.isSystem then 65536 else 4096

/-- Outstanding transaction tags (R268): 12-bit in a die hub, 16-bit in the KXA-32. -/
def State.tagPool (s : State) : Nat := if s.isSystem then 65536 else 4096

/-! ### Leaving the block -/

def State.emit (s : State) (o : Out) : State := { s with out := o :: s.out }

/-- An answer leaves on its port: on the host register port (R508), or to the TAP's next capture (R472); the others'
answers travel in the step that asked. -/
def State.answerNow (s : State) (q : Req) (code : Resp) (data : Word) : State :=
  if q.port = .host then
    let s := s.emit (.response q.rid code data)
    { s with pages := { s.pages with host := { s.pages.host with unacked := s.pages.host.unacked ++ [q.rid] } } }
  else if q.port = .tap then { s with tap := { s.tap with last := (code, data) } }
  else s

/-- Two requests of one requester (R62). -/
def sameRequester (a b : Req) : Bool := decide (a.port = b.port) && decide (a.rid = b.rid)

/-- Answer a request: at once, or behind an earlier request of the same requester that another node has (R62). -/
def State.respond (s : State) (q : Req) (code : Resp) (data : Word) : State :=
  if s.pages.host.order.any fun e => sameRequester e.req q then
    { s with pages := { s.pages with host := { s.pages.host with
        order := s.pages.host.order ++ [{ num := none, req := q, ans := some (code, data) }] } } }
  else s.answerNow q code data

/-- The answers of requester `q` that no unanswered request precedes leave, in order; `held` has those that stay. -/
def State.orderFlush (q : Req) (s : State) (held : List Ordered) : List Ordered → State
  | [] => { s with pages := { s.pages with host := { s.pages.host with order := held } } }
  | e :: l =>
    match e.ans with
    | some (r, d) =>
      if sameRequester e.req q && !(held.any fun x => sameRequester x.req q) then (s.answerNow e.req r d).orderFlush q held l
      else s.orderFlush q (held ++ [e]) l
    | none => s.orderFlush q (held ++ [e]) l

/-- The answer to forwarded request `num` of requester `q` is there (R62). -/
def State.orderAnswer (s : State) (num : Nat) (q : Req) (code : Resp) (data : Word) : State :=
  s.orderFlush q [] (s.pages.host.order.map fun e => if e.num = some num then { e with ans := some (code, data) } else e)

/-! ### Power and loss, as every chapter reaches them -/

/-- BPWR: a class of R410 was lost: its bit in KX_BPWR_LOSS and PAGE_ERR.LOSS set (R411). -/
def State.loseBits (s : State) (l : List Nat) : State :=
  if l = [] then s
  else
    (s.setReg (pg 0x50) 0x5C (s.reg (pg 0x50) 0x5C ||| word ((l.map fun k => 2 ^ k).sum))).setErr (pg 0x50) 18

/-- The flop count of class field `lo` of KX_PACE_SYNC that is pending takes effect (R53). -/
def State.applySync (s : State) (lo : Nat) : State :=
  { s with pace := { s.pace with syncNow := setFld s.pace.syncNow lo 2 (s.regFld (pg 0x02) 0x40 lo 2) } }

/-- Work has begun: the block is in RUN, and the IDLE condition starts afresh (R385). -/
def State.work (s : State) : State :=
  { s with bpwr := { s.bpwr with
      quiet := false
      state := if s.bpwr.state = .idle then .run else s.bpwr.state } }

/-- An activity that restarts the idle timer (R391). -/
def State.busyNow (s : State) : State :=
  let s := s.work
  { s with bpwr := { s.bpwr with busyAt := s.now } }

/-- The block's logic runs: RUN, IDLE, or asked to leave them (R384). -/
def State.awake (s : State) : Bool :=
  decide (s.bpwr.state = .run) || decide (s.bpwr.state = .idle) || decide (s.bpwr.state = .entering)

/-- The host ports do not answer: EMBER, OFF, or the supplies of HUB are not good (R387, R401). -/
def State.dark (s : State) : Bool :=
  decide (s.bpwr.state = .ember) || decide (s.bpwr.state = .off) || !bit s.bpwr.pg 3 || !bit s.bpwr.pg 1

/-! ### Time -/

/-- Fleet time is not locked yet: TIME taken now is flagged UNLOCKED (R237, R416). -/
def State.unlocked (s : State) : Bool := decide (s.time.servo = .free) || decide (s.time.servo = .acquire)

/-- Fleet time goes forward to `t`, never back. -/
def State.advanceTo (s : State) (t : FT) : State := { s with now := max s.now t }

/-- The next close is the first grid instant after `t` (R95). -/
def State.gridFrom (s : State) (t : FT) : State := { s with samp := { s.samp with grid := { s.samp.grid with since := t } } }

/-- The present fleet time as the block produces it (R6). -/
def State.ft (s : State) : FT := truncFT s.now

/-! ### CRC-32C (R129): reflected, polynomial 0x1EDC6F41, all ones in, all ones out -/

/-- One bit of the reflected division. -/
def crcBit (c : BitVec 32) : BitVec 32 :=
  if bit c 0 then (c >>> 1) ^^^ 0x82F63B78 else c >>> 1

/-- One byte. -/
def crcByte (c : BitVec 32) (b : Byte) : BitVec 32 :=
  let c := c ^^^ b.setWidth 32
  crcBit (crcBit (crcBit (crcBit (crcBit (crcBit (crcBit (crcBit c)))))))

/-- CRC-32C of a byte sequence. -/
def crc32c (bs : List Byte) : BitVec 32 := ~~~ (bs.foldl crcByte 0xFFFFFFFF)

/-! ### This node (R258) -/

/-- A die hub's node number within tray `tray` and downlink `down`; aggregators give the twin strap. -/
def nodeOf (kind tray down die : Nat) : BitVec 16 :=
  BitVec.ofNat 16 ((kind % 4) * 2 ^ 14 + (tray % 64) * 2 ^ 8 + (down % 32) * 8 + die % 8)

/-- This node's own number: a die hub, or an aggregator (R258). -/
def State.node (s : State) : BitVec 16 :=
  if s.isDie then nodeOf 0 s.links.tray s.links.down s.straps.dieIdx.toNat
  else nodeOf (if s.straps.cascade then 3 else 2) s.links.tray 0 (if s.straps.twinSel then 1 else 0)

/-! ### Routing (R253, R18 to R20, R430) -/

/-- The package-link port that leads to die index `d` (R253). -/
def State.diePort (s : State) (d : Nat) : Nat :=
  if d < s.straps.dieIdx.toNat then d else d - 1

/-- The die index that package-link port `p` leads to (R253). -/
def State.portDie (s : State) (p : Nat) : Nat :=
  if p < s.straps.dieIdx.toNat then p else p + 1

/-- Die indexes of the other members that have answered (R63). -/
def State.otherDies (s : State) : List Nat :=
  (List.range 8).filter fun d =>
    decide (d ≠ s.straps.dieIdx.toNat) && (Tab.read Member.none s.pkg.members d).present

/-- The primary K-link of a head: 7 + PRIMARY (R295). -/
def State.primaryKlink (s : State) : Nat := 7 + s.regFld (pg 0x38) 0x44 0 1

/-- The ports a destination stands for. -/
def State.route (s : State) : Dest → List Nat
  | .port p => [p]
  | .up =>
    if s.isSystem then (if s.straps.cascade then [] else [s.links.upPort])
    else if s.isHead then [s.primaryKlink]
    else match s.pkg.head with
      | some h => [s.diePort h.toNat]
      | none => []
  | .upBoth =>
    if s.isSystem then (if s.straps.cascade then [] else [32, 33].map fun p => if s.links.spareFor = some p then 35 else p)
    else if s.isHead then [7, 8]
    else match s.pkg.head with
      | some h => [s.diePort h.toNat]
      | none => []
  | .down =>
    if s.isSystem then (if s.straps.cascade then [32, 33, 35] else List.range 32)
    else if s.isHead then s.otherDies.map s.diePort else []
  | .package => if s.isSystem then [] else s.otherDies.map s.diePort
  | .peer =>
    if s.isSystem then [34]
    else match s.fum.peer with
      | some n => [s.diePort (n.toNat % 8)]
      | none => []
  | .node n =>
    let k := n.toNat / 2 ^ 14
    if s.isSystem then
      if s.straps.cascade then
        (if k = 3 then [34]
         else match s.links.peers.find? fun e => e.2.valid && decide (e.2.node.toNat / 2 ^ 8 % 64 = n.toNat / 2 ^ 8 % 64) with
          | some e => [32 + e.2.port.toNat]
          | none => [32])
      else if decide ((n.toNat / 2 ^ 8) % 64 ≠ s.links.tray) && decide (k ≤ 2) then
        (match s.links.peers.find? fun e => e.2.valid && decide (e.2.node.toNat / 2 ^ 14 = 2) &&
            decide (e.2.node.toNat / 2 ^ 8 % 64 = n.toNat / 2 ^ 8 % 64) with
          | some e => [32 + e.2.port.toNat]
          | none => [s.links.upPort])
      else if (n.toNat / 2 ^ 8) % 64 = s.links.tray && decide (k ≤ 1) then [(n.toNat / 8) % 32]
      else if k = 2 && decide ((n.toNat / 2 ^ 8) % 64 = s.links.tray) then [34] else [s.links.upPort]
    else
      let mine := n.toNat / 8 = s.node.toNat / 8
      if k = 0 && decide mine then [s.diePort (n.toNat % 8)]
      else if s.isHead then [s.primaryKlink]
      else match s.pkg.head with
        | some h => [s.diePort h.toNat]
        | none => []

/-- Hand a message to the link layer, one copy for each port of its destination. -/
def State.send (s : State) (m : Msg) : State :=
  { s with mbox := s.mbox ++ (s.route m.dest).map fun p => (p, m) }

/-- A message of a frame TYPE to a destination. -/
def State.sendTyp (s : State) (typ : Byte) (dest : Dest) (payload : List Byte) : State :=
  s.send { typ, tag := 0, dest, payload }

/-! ### Records toward the log (R416, R419, R533) -/

/-- A record dropped at its source or at the log: DROP_COUNT, DROP_SEV, and the counts of the next LOST
record (R420, R421, R437). -/
def State.dropRec (s : State) (sev : Nat) : State :=
  let f := s.fum
  { s with fum := { f with
      dropCount := BitVec.ofNat 32 (satAdd 32 f.dropCount.toNat 1),
      dropSev := setBit f.dropSev sev true,
      lostFirst := if f.lostCount = 0 then s.ft else f.lostFirst,
      lostLast := s.ft, lostCount := f.lostCount + 1, lostMask := setBit f.lostMask sev true } }
    |>.setErr (pg 0x58) 16

/-- SRC of a packet of a page (R441): PRIV for the pages of the service processors, the power manager and the root of
trust. -/
def traceSrc (page inst : Nat) : BitVec 16 :=
  if page = 0x40 ∨ page = 0x48 ∨ page = 0x68 then BitVec.ofNat 16 (2 * 2 ^ 13 + page)
  else BitVec.ofNat 16 (2 ^ 13 + inst % 32 * 256 + page % 256)

/-- A packet joins the router's sources; outside a session it would not be written (R444, R449). -/
def State.traceStage (s : State) (p : TPacket) : State :=
  if s.trace.run then { s with trace := { s.trace with staged := s.trace.staged ++ [p] } } else s

/-- A page set in KX_TRACE_PAGES emits a REC packet for its record of severity at least REC_SEV (R442, R444). -/
def State.traceRec (s : State) (r : LogRec) : State :=
  let p := r.page.toNat
  if bit (s.reg (pg 0x60) (0x70 + 4 * (p / 32))) (p % 32) && decide (s.regFld (pg 0x60) 0x40 29 3 ≤ r.sev) && decide (p < 128) then
    let b := r.body.take 52
    s.traceStage { typ := 7, src := traceSrc p r.inst.toNat, time := r.time, job := 0, node := none,
                   body := leBytes 2 r.code.toNat ++ [BitVec.ofNat 8 r.sev, r.schema] ++ b ++
                     zeros (if b.length < 20 then 20 - b.length else (4 - b.length % 4) % 4) }
  else s

/-- A source forms a record and hands it to the write port; it takes its SEQ at once. The port holds four
waiting records of a source, and a fifth is dropped (R416, R419). -/
def State.logRec (s : State) (page inst code sev : Nat) (inj : Bool) (schema : Byte) (body : List Byte) : State :=
  let r : LogRec :=
    { sev, inj := inj || s.fum.injNow, unlocked := s.unlocked, schema := if 228 < body.length then schema ||| 1 else schema,
      seq := s.fum.seq, time := s.ft, page := BitVec.ofNat 8 page, inst := BitVec.ofNat 8 inst,
      code := BitVec.ofNat 16 code, origin := s.node, body := body.take 228 }
  let s := ({ s with fum := { s.fum with seq := s.fum.seq + 1 } }).traceRec r
  if 4 ≤ (s.fum.waiting.filter fun w => decide (w.page = r.page)).length then s.dropRec sev
  else { s with fum := { s.fum with waiting := s.fum.waiting ++ [r] } }

/-- A catalogued record (R532): SUBJECT, ARG and CONTENT padded to a multiple of 4 (R533), SCHEMA 0x02. -/
def State.log (s : State) (page inst code sev subject arg : Nat) (content : List Byte) : State :=
  s.logRec page inst code sev false 2
    (leBytes 4 subject ++ leBytes 4 arg ++ content ++ zeros ((4 - content.length % 4) % 4))

/-- The REPLACE_TRAY recommendation: the C1 message and its severity-6 record (R39, R417). -/
def State.replaceTray (s : State) (page inst subject cause : Nat) : State :=
  (s.log page inst 0xFFF3 6 subject cause []).sendTyp 0x12 .up (leBytes 4 subject ++ leBytes 4 cause)

/-- A C1 FAULT message upward, with the page and code of the record it goes with and its content (DESIGN CHOICE: its
payload is not given). -/
def State.faultMsg (s : State) (page code : Nat) (content : List Byte) : State :=
  s.sendTyp 0x11 .up (leBytes 4 (page * 2 ^ 16 + code) ++ content)

/-! ### The root of trust as the other subsystems reach it -/

def State.modRot (s : State) (f : Rot → Rot) : State := { s with rot := f s.rot }

/-- The RoT orders a RoT-initiated reset (R504): the severity-7 record with its cause and the FAULT message come before
it; the first order stands. -/
def State.rotOrder (s : State) (cause : Nat) : State :=
  if s.rot.resetDue.isSome then s
  else ((s.modRot fun r => { r with resetDue := some cause }).log 0x68 0 0x0006 7 cause 0 []).faultMsg 0x68 0x0006 (leBytes 4 cause)

/-- The service processors write a decision's inputs and result to the verification log; of kind 4, one in 2^RATE
(R503). -/
def State.decided (s : State) (kind : Nat) (inputs : List Byte) (result : Nat) : State :=
  let add (r : Rot) : Rot := { r with verify := r.verify ++ [{ kind, inputs, result := word result, at' := s.now }] }
  if kind = 4 then
    let n := s.rot.checks + 1
    let s := s.modRot fun r => { r with checks := n }
    if n % 2 ^ s.regFld (pg 0x68) 0x54 0 4 = 0 then s.modRot add else s
  else s.modRot add

/-- A guarded write was discarded: GUARD_ERR and the severity-2 record (R74, R417). -/
def State.guardDiscard (s : State) (page off : Nat) (rid : Byte) (reason : Nat) : State :=
  (s.setErr page errGuard).log (pageNo page) (keyInst page) 0xFFF6 2 off (rid.toNat + 256 * reason) []

/-! ### Fault injection (R68) -/

/-- An eligible operation of an injection kind at a page: does the armed injection fire here? It passes over
DELAY operations, fires once, clears ARM and sets INJ_FIRED. -/
def State.injTake (s : State) (page kind : Nat) : Bool × State :=
  let w := (s.hdr page).inj
  if bit w 31 ∧ fld w 16 8 = kind then
    if fld w 0 8 = 0 then
      let s := (s.modHdr page fun h => { h with inj := setBit h.inj 31 false }).setErr page errInjFired
      (true, { s with fum := { s.fum with injNow := true } })
    else (false, s.modHdr page fun h => { h with inj := setFld h.inj 0 8 (fld h.inj 0 8 - 1) })
  else (false, s)

/-! ### Items of state toward the mirror (R429, R431) and toward the root of trust (R28, R491) -/

/-- An item of state has changed: its update count advances. -/
def State.touchItem (s : State) (item : Nat) : State :=
  { s with fum := { s.fum with gens := Tab.modify natZero s.fum.gens item (· + 1) } }

/-- A window has ended: item 0x02 has changed, and its GEN is the window (R431). -/
def State.touchWindow (s : State) (w : Nat) : State :=
  { s with fum := { s.fum with lastWin := w } } |>.touchItem 0x02

/-- An entry of the measurement log. -/
def State.meas (s : State) (item : Nat) : MeasEntry := Tab.read MeasEntry.none s.rot.log item

def State.putMeas (s : State) (item : Nat) (e : MeasEntry) : State :=
  { s with rot := { s.rot with log := Tab.write MeasEntry.none s.rot.log item e } }

/-- Change an entry of the log: MEAS_GEN advances with every change (R493). -/
def State.setMeas (s : State) (item : Nat) (e : MeasEntry) : State :=
  if s.meas item = e then s
  else
    let s := s.putMeas item e
    { s with rot := { s.rot with measGen := s.rot.measGen + 1 } }

/-- The item's digest stands in the measurement report (R28). -/
def State.isMeasured (s : State) (item : Nat) : Bool := decide ((s.meas item).status = .measured)

/-- Submit an item to the root of trust (R28, R154): its entry reads UNMEASURED until the digest is recorded. An earlier
submission of the item that still waits takes the new content. -/
def State.measure (s : State) (item : Nat) (digest : List Byte) (page : Option (Bool × Nat)) : State :=
  let s := (s.setMeas item { status := .unmeasured, digest := [] }).touchItem 0x09
  { s with rot := { s.rot with
      queue := (s.rot.queue.map fun q => if q.item = item then { q with digest } else q) ++ [{ item, digest, page }] } }

/-- An activation swaps the entries of the two copies, and MEAS_GEN advances (R491). -/
def State.measSwap (s : State) (a b : Nat) : State :=
  let x := s.meas a
  let y := s.meas b
  let s := ((s.putMeas a y).putMeas b x).touchItem 0x09
  { s with rot := { s.rot with measGen := s.rot.measGen + 1 } }

/-! ### Host-memory transfers (R510, R511) -/

def noXfer (_ : Nat) : Option Xfer := none
def noHmTag (_ : Nat) : Option HmTag := none
def noProxy (_ : Nat) : Option ProxyTag := none

/-- A tag number no transaction holds or withholds (R268, R510), searched from `n` on. -/
def State.freeTagFrom (s : State) : Nat → Nat → Option Nat
  | 0, _ => none
  | fuel + 1, n =>
    if (Tab.read noHmTag s.pages.hmTags n).isNone && (Tab.read noProxy s.links.proxies n).isNone then some n
    else s.freeTagFrom fuel (n + 1)

def State.freeTag (s : State) : Option Nat := s.freeTagFrom s.tagPool 0

/-- The page a transfer belongs to (R408). -/
def XferOwner.key : XferOwner → Nat
  | .command pkg n => pageKey 0x08 (n % 8) (if pkg then 1 else 0)
  | .message => pg 0x01
  | .ring page _ => page

/-- Issue the next request of a transfer: at most 256 bytes in multiples of 4, not across a 256-byte boundary, one
outstanding request for each transfer; a transfer waits when no tag is free. -/
def State.issueXfer (s : State) (id : Nat) : State :=
  match Tab.read noXfer s.pages.xfers id with
  | none => s
  | some x =>
    if x.len ≤ x.issued ∨ x.done < x.issued then s
    else match s.freeTag with
      | none => s
      | some tag =>
        let a := x.addr + x.issued
        let n := min (256 - a % 256) (x.len - x.issued)
        let d := if x.wr then slice x.data x.issued n else []
        let key := XferOwner.key x.owner
        let inc : BitVec 4 := match x.region with
          | some r => (Tab.read Region.reset s.samp.regions r).incarn
          | none => 0
        let t : HmTag := { xfer := id, addr := a, len := n, wr := x.wr, data := d, beats := 0, retries := 0,
                           sent := s.now, again := none, dead := false, page := key, region := x.region,
                           incarn := (s.hdr key).incarn, rIncarn := inc }
        { s with pages := { s.pages with
            xfers := Tab.write noXfer s.pages.xfers id (some { x with issued := x.issued + n }),
            hmTags := Tab.write noHmTag s.pages.hmTags tag (some t) } }
          |>.emit (.hostMemory a x.wr (4 * ((n + 3) / 4)) tag (if x.wr then padTo (4 * ((n + 3) / 4)) d else []))

/-- Start a transfer that serves a region; its number is `nextXfer` before the step. -/
def State.startXferOf (s : State) (region : Option Nat) (owner : XferOwner) (wr : Bool) (addr len : Nat) (data : List Byte) : State :=
  let id := s.pages.nextXfer
  { s with pages := { s.pages with
      nextXfer := id + 1,
      xfers := Tab.write noXfer s.pages.xfers id
        (some { owner, wr, addr, len, issued := 0, data, failed := false, region }) } }
    |>.issueXfer id

/-- Start a transfer. -/
def State.startXfer (s : State) (owner : XferOwner) (wr : Bool) (addr len : Nat) (data : List Byte) : State :=
  s.startXferOf none owner wr addr len data

/-! ### Interrupts (R85) -/

def State.cmd (s : State) (pkg : Bool) (n : Nat) : CmdPage :=
  Tab.read CmdPage.reset s.pages.cmds (n % 8 + if pkg then 8 else 0)

def State.setCmd (s : State) (pkg : Bool) (n : Nat) (c : CmdPage) : State :=
  { s with pages := { s.pages with
      cmds := Tab.write CmdPage.reset s.pages.cmds (n % 8 + if pkg then 8 else 0) c } }

/-- The message write of line `n` (R85): MSG_DATA_n to the address in MSG_ADDR_n. -/
def State.messageWrite (s : State) (n : Nat) : State :=
  let a := (s.reg (pg 0x01) (0x80 + 0x10 * n)).toNat + 2 ^ 32 * (s.reg (pg 0x01) (0x84 + 0x10 * n)).toNat
  s.startXfer .message true a 4 (leBytes 4 (s.reg (pg 0x01) (0x88 + 0x10 * n)).toNat)

/-- Settle the interrupts at the end of a step: every line with a present cause is low, each new cause of a
page with MSG sends its message, and the pages with a present cause are remembered. A line that has lost
its causes stays low until the next slow tick (R85). -/
def State.settle (s : State) : State :=
  (newMessages s.pages.cmds s.pages.causes s.pages.hdr).foldl State.messageWrite
    { s with
      fum := { s.fum with injNow := false }
      pages := { s.pages with
        irq := s.pages.irq ||| linesOf s.pages.cmds s.pages.hdr
        causes := causesOf s.pages.cmds s.pages.hdr } }

/-- Every command that has an effect ends here: the state it leaves, with its interrupts settled. -/
def finish (s : State) : Host.Outcome State Fault Refusal := .next s.settle

end Sys2Proof.Machine
end

