-- ==== Sys2Proof/Machine/Operands.lean ====
section
/-!
DEFINITION. Command pages (R80 to R84): accepting a CMD write, the argument and result words, completion,
and the commands that stay BUSY.
-/
namespace Sys2Proof.Machine

/-- The page of a command page (R59: its own window, or the package window's copy). -/
def cmdKey (pkg : Bool) (n : Nat) : Nat := pageKey 0x08 (n % 8) (if pkg then 1 else 0)

/-- ARG word `k` of a command's page. -/
def argW (c : CmdIn) (s : State) (k : Nat) : Word := s.reg (cmdKey c.pkg c.page.toNat) (0x80 + 4 * k)

/-- A field of an ARG word. -/
def argFld (c : CmdIn) (s : State) (k lo len : Nat) : Nat := fld (argW c s k) lo len

/-- The 64-bit number in ARG words `k` and `k + 1`. -/
def arg64 (c : CmdIn) (s : State) (k : Nat) : Nat := (argW c s k).toNat + 2 ^ 32 * (argW c s (k + 1)).toNat

/-- The 80-bit number in ARG words `k` to `k + 2` (R120: bits [31:0], [63:32], [79:64]), as written. -/
def argFTraw (c : CmdIn) (s : State) (k : Nat) : Nat :=
  (argW c s k).toNat + 2 ^ 32 * (argW c s (k + 1)).toNat + 2 ^ 64 * ((argW c s (k + 2)).toNat % 2 ^ 16)

/-- The FT80 value there, cut to 1/64 ns (R6). -/
def argFT (c : CmdIn) (s : State) (k : Nat) : FT := truncFT (argFTraw c s k)

/-- Write RES word `k`. -/
def State.setRes (s : State) (pkg : Bool) (n k v : Nat) : State :=
  s.setReg (cmdKey pkg n) (0x100 + 4 * k) (word v)

/-- The channel passes words: its watchdog runs on no withheld acknowledge (R42, R47). -/
def State.chanOpen (s : State) (c : Channel) : Bool := decide (Tab.read natZero s.pace.watch c.code = 0)

/-- RES_0 to RES_31 cleared to zero. -/
def State.clearRes (s : State) (pkg : Bool) (n : Nat) : State :=
  (List.range 32).foldl (fun s k => s.setReg (cmdKey pkg n) (0x100 + 4 * k) 0) s

/-- STATUS codes (R80). -/
def stOk : Byte := 0
def stError : Byte := 1
def stDenied : Byte := 2
def stBadOpcode : Byte := 3
def stBadArg : Byte := 4
def stTimeout : Byte := 5
def stSnuffed : Byte := 6
def stUnmeasured : Byte := 7
def stRefused : Byte := 8
def stReset : Byte := 9

/-- Complete the command of a page: BUSY clears, DONE sets, STATUS and DETAIL are written (R80). -/
def State.complete (s : State) (pkg : Bool) (n : Nat) (status : Byte) (detail : Nat) : State :=
  s.setCmd pkg n { s.cmd pkg n with
    busy := false, done := true, status, detail := BitVec.ofNat 8 detail, wait := .none, ticks := 0 }

/-- Complete the command of a page where it still waits for what `w` says: a reset may have ended it before. -/
def State.endWait (s : State) (pkg : Bool) (n : Nat) (w : Wait) (status : Byte) (detail : Nat) : State :=
  if (s.cmd pkg n).busy ∧ (s.cmd pkg n).wait = w then s.complete pkg n status detail else s

/-- Complete the command that came in `c`. -/
def State.done (s : State) (c : CmdIn) (status : Byte) (detail : Nat) : State :=
  s.complete c.pkg c.page.toNat status detail

def State.ok (s : State) (c : CmdIn) : State := s.done c stOk 0
def State.failCmd (s : State) (c : CmdIn) (detail : Nat) : State := s.done c stError detail
def State.badArg (s : State) (c : CmdIn) : State := s.done c stBadArg 0

/-- RES word `k` of the command that came in `c`. -/
def State.res (s : State) (c : CmdIn) (k v : Nat) : State := s.setRes c.pkg c.page.toNat k v

/-- The command stays BUSY and waits (R81). -/
def State.waitFor (s : State) (c : CmdIn) (w : Wait) : State :=
  s.setCmd c.pkg c.page.toNat { s.cmd c.pkg c.page.toNat with wait := w, ticks := 0 }

/-- Change what a page waits for. -/
def State.waitPage (s : State) (pkg : Bool) (n : Nat) (w : Wait) : State :=
  s.setCmd pkg n { s.cmd pkg n with wait := w, ticks := 0 }

/-- The command pages, die window and package window. -/
def allPages : List (Bool × Nat) :=
  (List.range 8).map (fun n => (false, n)) ++ (List.range 8).map fun n => (true, n)

/-- A command page among others in the order of acceptance. -/
def State.inOrder (s : State) (x : Bool × Nat) : List (Bool × Nat) → List (Bool × Nat)
  | [] => [x]
  | y :: l => if (s.cmd x.1 x.2).order ≤ (s.cmd y.1 y.2).order then x :: y :: l else y :: s.inOrder x l

/-- The command pages whose commands wait for something `p` says, in the order of their accepted CMD writes (R83). -/
def State.waiters (s : State) (p : Wait → Bool) : List (Bool × Nat) :=
  (allPages.filter fun x => (s.cmd x.1 x.2).busy && p (s.cmd x.1 x.2).wait).foldr s.inOrder []

/-- Must a command wait for resource `k`: it is taken, or an earlier command waits for it, unless this is the one that now
goes on (R83)? -/
def State.resourceTaken (s : State) (c : CmdIn) (k : Nat) (taken : Bool) : Bool :=
  taken || (decide ((s.cmd c.pkg c.page.toNat).wait ≠ .event 20 1) && decide ((s.waiters fun w => decide (w = .event 39 k)) ≠ []))

/-- Does the page exist here: the die window's pages always, the package window's at a head (R17, R59)? -/
def State.cmdReach (s : State) (pkg : Bool) : Bool := !pkg || s.isHead

/-- The checks of R80 before acceptance: a failed BIST (R413), the privilege to write the page (R67), its scope's reset
(R61), the page lock (R82), BUSY. -/
def State.cmdGate (s : State) (pkg : Bool) (n : Nat) (q : Req) : Resp :=
  let h := s.hdr (cmdKey pkg n)
  let c := s.cmd pkg n
  if !s.cmdReach pkg || s.bpwr.failed then .error
  else if q.tag.rank < h.wr.toNat then .denied
  else if bit h.stat statInReset then .retry
  else if c.owner ≠ 0 && decide (c.holder ≠ q.rid) then .denied
  else if c.busy then .retry
  else .ok

/-! ### Wake sources, as every chapter reaches them (R394, R395) -/

/-- A handshake entry ends REFUSED, and no domain is gated (R392). -/
def State.refuseEntry (s : State) (e : Entry) (reason sub : Nat) : State :=
  let s : State := { s with bpwr := { s.bpwr with state := .run, entry := none } }
  ((s.setRes e.pkg e.page 0 sub).setRes e.pkg e.page 1 e.last).complete e.pkg e.page stRefused reason

/-- The exit begins: EXITING, with the state left and the source in KX_BPWR_CAUSE. -/
def State.leave (s : State) (src cause wick : Nat) : State :=
  let s : State := { s with bpwr := { s.bpwr with state := .exiting } }
  s.setReg (pg 0x50) 0x54 (word (src * 2 ^ 28 + cause * 2 ^ 24 + wick * 2 ^ 16))

/-- Does a source act in a state, by its number as BPWR_ENTER takes it: 2 DOZE, 3 EMBER, 4 OFF (R395)? -/
def wakesFrom (target cause : Nat) : Bool :=
  if target = 2 then decide (cause ≠ 8)
  else if target = 3 then decide (cause = 1) || decide (cause = 7) || decide (cause = 8) || decide (cause = 9)
  else decide (cause = 1)

/-- A wake source acts (R394, R395): it ends an entry that has not passed its point of no return, and it wakes DOZE, EMBER
or OFF, where the table lets it. -/
def State.wakeSrc (s : State) (cause : Nat) (wick : Nat := 0) : State :=
  match s.bpwr.state with
  | .entering => match s.bpwr.entry with
    | some e => if wakesFrom e.target cause then s.refuseEntry e 0x0A 0 else s
    | none => s
  | .doze => if wakesFrom 2 cause then s.leave 2 cause wick else s
  | .ember => if wakesFrom 3 cause then s.leave 3 cause wick else s
  | .off => if wakesFrom 4 cause then s.leave 4 cause wick else s
  | .idle => s.work
  | .run => s
  | .exiting => s

/-- A host request in DOZE to a page other than DIR and BPWR, or during an exit: RETRY, and with WAKE.HOST it wakes the
block (R395). -/
def State.dozeRetry (s : State) (q : Req) : State :=
  let s := if bit (s.reg (pg 0x50) 0x4C) 29 then s.wakeSrc 5 else s
  s.respond q .retry 0

/-- A host request while an entry is in progress: it ends an entry into DOZE where WAKE.HOST is set (R394, R395). -/
def State.hostWakes (s : State) : State :=
  if s.bpwr.state = .entering ∧ bit (s.reg (pg 0x50) 0x4C) 29 = true then s.wakeSrc 5 else s

/-- The state with a refused CMD write answered; DENIED and ERROR also set ACCESS_ERR (R65). -/
def State.cmdTurnAway (s : State) (pkg : Bool) (n : Nat) (q : Req) (r : Resp) : State :=
  let s := if r = .denied || r = .error then s.setErr (cmdKey pkg n) errAccess else s
  s.respond q r 0

/-- Causes that are present no more are forgotten at once, so that one that returns in the same step counts as come (R85). -/
def State.causesFall (s : State) : State :=
  { s with pages := { s.pages with
    causes := s.pages.causes.filter fun c => (causesOf s.pages.cmds s.pages.hdr).contains c } }

/-- Acceptance (R80): SEQ advances, DONE clears, BUSY sets, the result words clear, and the write is
answered OK. -/
def State.accept (s : State) (pkg : Bool) (n : Nat) (q : Req) (w : Word) : State :=
  let c := s.cmd pkg n
  ((s.clearRes pkg n).setCmd pkg n
    { c with busy := true, done := false, seq := c.seq + 1, status := 0, detail := 0, cmd := w, req := q,
             wait := .none, ticks := 0, order := (s.pages.cmds.map fun e => e.2.order).foldl max 0 + 1 }).causesFall
    |>.respond q .ok 0

/-- The subsystem of a command (R393): by its class, Sinter by its opcode. -/
def subsystemOf (w : Word) : Nat :=
  match fld w 24 8 with
  | 0x10 => 0 | 0x18 => 1 | 0x20 => 2 | 0x28 => 3 | 0x30 => 4
  | 0x38 => if fld w 8 16 < 0x100 then 5 else 6
  | 0x40 => 7 | 0x48 => 8 | 0x58 => 9 | 0x60 => 10 | 0x68 => 11
  | _ => 5

/-- The subsystems that pause (R462). -/
def subsystemPauses (n : Nat) : Bool := [1, 2, 3, 6, 7].contains n

/-- A Snuff has cut this node, and the command's subsystem pauses: the command waits for the clear (R462, R467). -/
def State.cmdPaused (s : State) (w : Word) : Bool := decide (s.snuff.state = .cut) && subsystemPauses (subsystemOf w)

/-- A CMD write of opcode `op` of class `cls`, whose tag is `tag`, in a role that knows it when `known`:
acceptance, then NARGS, then the opcode, then its effect (R80). In RECOVERY only classes 0x00 and 0x68 are known (R487).
In EMBER, in OFF and without supply the port does not answer (R387); in DOZE and while the block wakes it answers RETRY, but
for BPWR_RESET where WAKE.HOST is 0 (R395, R405). A command held by a Snuff has its effect at the clear (R462, R467). -/
def runCmd (c : CmdIn) (cls op : Nat) (tag : Tag) (known : Bool) (effect : State → State) (s : State) : State :=
  let n := c.page.toNat
  if (s.cmd c.pkg n).busy ∧ (s.cmd c.pkg n).wait = .event 20 1 then effect (s.waitPage c.pkg n .none)
  else if s.dark then s
  else if !s.awake && !(decide (cls = 0x50) && decide (op = 0x0002) && !bit (s.reg (pg 0x50) 0x4C) 29) then s.dozeRetry c.req
  else match s.cmdGate c.pkg n c.req with
  | .ok =>
    let s := s.hostWakes.busyNow.accept c.pkg n c.req (word (cls * 2 ^ 24 + op * 2 ^ 8 + c.nargs.toNat))
    if 32 < c.nargs.toNat then s.badArg c
    else if !known || (decide (s.rot.state = .recovery) && decide (cls ≠ 0x00) && decide (cls ≠ 0x68)) then
      s.done c stBadOpcode 0
    else if !c.req.tag.atLeast tag then s.done c stDenied 0
    else if s.cmdPaused (s.cmd c.pkg n).cmd then s.waitFor c (.event 20 0)
    else effect s
  | r => s.cmdTurnAway c.pkg n c.req r

end Sys2Proof.Machine
end

