-- ==== Sys2Proof/Machine/Fence.lean ====
section
/-!
DEFINITION. Operations shared by every chapter that meets a faulty unit or partner: probes and their gates,
the spare map, fencing with its storm limit, and protocol violations with quarantine.
-/
namespace Sys2Proof.Machine

/-! ### Probes, clusters, regions -/

def State.probe (s : State) (p : Nat) : Probe := Tab.read Probe.reset s.samp.probes p
def State.setProbe (s : State) (p : Nat) (x : Probe) : State :=
  { s with samp := { s.samp with probes := Tab.write Probe.reset s.samp.probes p x } }
def State.modProbe (s : State) (p : Nat) (f : Probe → Probe) : State := s.setProbe p (f (s.probe p))
def State.cluster (s : State) (c : Nat) : Cluster := Tab.read Cluster.reset s.samp.clusters c
def State.modCluster (s : State) (c : Nat) (f : Cluster → Cluster) : State :=
  { s with samp := { s.samp with clusters := Tab.modify Cluster.reset s.samp.clusters c f } }
def State.region (s : State) (r : Nat) : Region := Tab.read Region.reset s.samp.regions r
def State.modRegion (s : State) (r : Nat) (f : Region → Region) : State :=
  { s with samp := { s.samp with regions := Tab.modify Region.reset s.samp.regions r f } }

/-- The shipped die's memberships (R10). -/
def clusterOf (p : Nat) : Nat := p / 32
def regionOf (c : Nat) : Nat := c / 16
def probesOf (c : Nat) : List Nat := List.range' (32 * c) 32
def clustersOf (r : Nat) : List Nat := List.range' (16 * r) 16

/-- PRESENT of a probe slot (R90); the system role has no probes (R2). -/
def State.present (s : State) (p : Nat) : Bool := s.isDie && decide (p < s.samp.units)

/-- A probe whose region is ABSENT or whose cluster is LOST (R12, R108). -/
def State.absent (s : State) (p : Nat) : Bool :=
  (s.region (regionOf (clusterOf p))).absent || (s.cluster (clusterOf p)).lost

/-! ### Gates (R89) -/

def gateOf (x : Probe) : GateKind → Gate
  | .test => x.test | .fence => x.fence | .stop => x.stop

def setGate (x : Probe) (k : GateKind) (g : Gate) : Probe :=
  match k with
  | .test => { x with test := g }
  | .fence => { x with fence := g }
  | .stop => { x with stop := g }

/-- Raise a gate: not before its acknowledge is low (R89), and only toward a unit (R90). -/
def State.raiseGate (s : State) (p : Nat) (k : GateKind) : State :=
  let g := gateOf (s.probe p) k
  if s.present p && !g.raised && !g.ack then
    s.modProbe p fun x => setGate x k { raised := true, ack := false, ticks := 0 }
  else s

/-- Step 4 of R89: the acknowledge of a gate that has fallen falls. -/
def State.ackFalls (s : State) (p : Nat) (k : GateKind) : State :=
  let g := gateOf (s.probe p) k
  if g.ack && !g.raised then s.modProbe p fun x => setGate x k Gate.reset else s

/-- Lower a gate: step 3 of R89. -/
def State.lowerGate (s : State) (p : Nat) (k : GateKind) : State :=
  s.modProbe p fun x => setGate x k { gateOf x k with raised := false, ticks := 0 }

/-- The unit raises the acknowledge of a raised gate (R89). -/
def State.ackGate (s : State) (p : Nat) (k : GateKind) : State :=
  s.modProbe p fun x => setGate x k { gateOf x k with ack := true, ticks := 0 }


/-! ### Spare map (R220) -/

def spareBytes (e : SpareEntry) : List Byte :=
  leBytes 4 (e.kind * 2 ^ 28 + e.cause * 2 ^ 24 + (if e.released then 2 ^ 23 else 0) + e.index.toNat) ++
  leBytes 4 e.detail.toNat ++ leBytes 8 e.time.toNat

/-- Add an entry; on a full map the action stands and the entry is logged instead (R220). -/
def State.spareAdd (s : State) (kind cause index detail : Nat) : State :=
  let e : SpareEntry := { kind, cause, released := false, index := BitVec.ofNat 16 index, detail := word detail,
                          time := BitVec.ofNat 64 (s.ft / 65536) }
  if (s.reg (pg 0x12) 0x40).toNat ≤ s.check.spare.length then
    (s.setErr (pg 0x12) 16).log 0x12 0 0x0001 5 kind 0 (spareBytes e)
  else ({ s with check := { s.check with spare := s.check.spare ++ [e] } }).touchItem 0x08

/-- Mark entries no longer in force. -/
def State.spareRelease (s : State) (kind index : Nat) : State :=
  let mark (e : SpareEntry) : SpareEntry :=
    if e.kind = kind ∧ e.index = BitVec.ofNat 16 index then { e with released := true } else e
  ({ s with check := { s.check with spare := s.check.spare.map mark } }).touchItem 0x08

/-! ### Fencing (R217, R218) -/

/-- The instants of a list that lie within the last millisecond. -/
def withinMs (now : FT) (l : List FT) : List FT := l.filter fun t => decide (now < t + ms)

def State.markSuspect (s : State) (u : Nat) : State :=
  { s with check := { s.check with suspect := Tab.write boolFalse s.check.suspect u true } }

/-- CHECK.PAGE_ERR.STORM (R218). -/
def errStorm : Nat := 20

/-- Fence a unit: FENCED, the FENCE handshake and the spare-map entry (R217); more than CAP fences within
1 ms stop fencing until software clears STORM, and the unit is marked SUSPECT instead (R218). -/
def State.fenceUnit (s : State) (u cause detail : Nat) : State :=
  let recent := withinMs s.now s.check.fences
  let cap := s.regFld (pg 0x28) 0x9C 0 8
  if (s.probe u).fenced then s
  else if bit (s.hdr (pg 0x28)).err errStorm then s.markSuspect u
  else if cap < recent.length + 1 then
    ((s.setErr (pg 0x28) errStorm).log 0x28 0 0x0004 6 (recent.length + 1) cap []).markSuspect u
  else
    let s := { s with check := { s.check with fences := recent ++ [s.now] } }
    ((s.modProbe u fun x => { x with fenced := true }).raiseGate u .fence).spareAdd 1 cause u detail

/-! ### Protocol violations (R523 to R525) -/

/-- The page and offset of a link port's register block (R295, R296). A region link stands in no page (R253):
its settings are the reset values of a block that no access reaches. -/
def State.portPage (s : State) (p : Nat) : Nat :=
  if s.isSystem then (if p < 32 then pageKey 0x93 p 0 else pg 0x91)
  else if p < 64 then pg 0x38 else pageKey 0x93 p 0
def State.portOff (s : State) (p off : Nat) : Nat :=
  if s.isSystem then (if p < 32 then 0x100 + off else 0x100 + 0x80 * (p - 32) + off)
  else if p < 64 then 0x100 + 0x80 * p + off else 0x100 + off

def State.port (s : State) (p : Nat) : LinkPort := Tab.read LinkPort.reset s.links.ports p
def State.modPort (s : State) (p : Nat) (f : LinkPort → LinkPort) : State :=
  { s with links := { s.links with ports := Tab.modify LinkPort.reset s.links.ports p f } }

/-- Advance a counter of a port block. -/
def State.bumpPort (s : State) (p off n : Nat) : State := s.bump (s.portPage p) (s.portOff p off) n

/-- The page a violation is reported under, and its instance (R532). -/
def violSource : PortId → Nat × Nat
  | .link p => (0x38, p)
  | .probe _ => (0x10, 0)
  | .sensor c => (0x48, c)
  | .hostMemory => (0x00, 0)
  | .hostRegister => (0x00, 0)

/-- Can the port be quarantined (R524)? -/
def portQuarantines : PortId → Bool
  | .link _ => true
  | .probe _ => true
  | _ => false

/-- Sixteen counted violations within 1 ms: a link port is QUARANTINED, a probe is fenced with CAUSE 10, and a
severity-5 record is written (R524). -/
def State.quarantine (s : State) (port : PortId) (count : Nat) : State :=
  let src := violSource port
  let s := s.log src.1 src.2 0xFFF5 5 port.subject count []
  match port with
  | .link p => s.modPort p fun x => { x with state := .quarantined }
  | .probe u => s.fenceUnit u 10 0
  | _ => s

/-- A violation of class `cls` at a port, with the first 16 bytes of the item: the port's VIOL counter, the
PROTOCOL record, and the count toward quarantine where it counts: not during a link reset or training (R523 to R525). -/
def State.violate (s : State) (port : PortId) (cls : Nat) (item : List Byte) (counted : Bool) : State :=
  let src := violSource port
  let s := s.log src.1 src.2 0xFFF4 3 port.subject cls (padTo 16 item)
  let s := match port with
    | .link p => s.bumpPort p 0x4C 1
    | _ => s
  let training := match port with
    | .link p => decide ((s.port p).state = .training) || decide ((s.port p).state = .down)
    | _ => false
  if counted && portQuarantines port && !training then
    let l := withinMs s.now (Tab.read noTimes s.check.violations port.subject) ++ [s.now]
    if 16 ≤ l.length then
      let s := { s with check := { s.check with violations := Tab.write noTimes s.check.violations port.subject [] } }
      s.quarantine port l.length
    else { s with check := { s.check with violations := Tab.write noTimes s.check.violations port.subject l } }
  else s

/-- The first instant of the grid in force after the latest close (R94). -/
def nextGrid (g : Grid) : FT :=
  let p := g.period * ns
  if g.since < g.origin then g.origin else g.origin + ((g.since - g.origin) / p + 1) * p

/-- The number the close with index `n` takes, and BASE_NO from then on (R98). -/
def closeNumber (g : Grid) (n : Nat) : Nat × Nat :=
  if g.baseNo + n ≤ g.epochNo then (g.epochNo + 1, g.epochNo + 1 - n) else (g.baseNo + n, g.baseNo)

/-- The first instant of the grid in force after the latest close, or a pending ORIGIN that comes first or with it (R94, R95, R97). -/
def State.nextClose (s : State) : FT :=
  let g := s.samp.grid
  let t := nextGrid g
  match g.pend with
  | some q => min t q.origin
  | none => t

/-- Epochs close: the timekeeper runs, and its time is locked or RUN_UNLOCKED is 1 (R95). -/
def State.closesRun (s : State) : Bool :=
  s.time.running && !s.dark && (!s.unlocked || bit (s.reg (pg 0x10) 0x44) 2)

/-- Where an event stands among those due at one instant (R25): 1 the epoch close, with a SET_EPOCH's ORIGIN, to 7 the relock. -/
def evtRank : EvtKind → Nat
  | .epochOrigin => 1
  | .snuff => 2
  | .jobStart => 3
  | .wave => 4
  | .geyser => 5
  | .relock => 7

/-- The condition that starts, and the one that stops, a trace session (R439). -/
def State.startSrc (s : State) : Nat := s.regFld (pg 0x60) 0x44 29 3
def State.stopSrc (s : State) : Nat := s.regFld (pg 0x60) 0x44 26 3

/-- Does a trace session start or stop at instant `t`, or is TRIG_OUT source 6 due then (R25, R454)? -/
def State.traceDue (s : State) (t : FT) : Bool :=
  (decide (truncFT (s.regWide (pg 0x60) 0x48 3) = t) &&
    ((decide (s.startSrc = 2) && !s.trace.startUsed && !s.trace.run) || (!s.trace.outUsed && decide (t ≠ 0)))) ||
  (decide (truncFT (s.regWide (pg 0x60) 0x58 3) = t) && decide (s.stopSrc = 2) && !s.trace.stopUsed && s.trace.run)

/-- Is an event due at instant `t` that takes effect before one of rank `rank` (R25)? -/
def State.earlierDue (s : State) (t : FT) (rank : Nat) : Bool :=
  (decide (1 < rank) && s.closesRun && decide (s.nextClose = t)) || (decide (6 < rank) && s.traceDue t) ||
  s.time.evts.any fun e => decide (e.t = t) && decide (evtRank e.kind < rank)

/-- A Snuff is in effect, or one is armed for an instant at or before `t`: a release due at `t` is not made (R26). -/
def State.snuffedBy (s : State) (t : FT) : Bool :=
  decide (s.snuff.state = .cut) || s.snuff.order.any fun o => decide (o.t ≤ t)

end Sys2Proof.Machine
end

