-- ==== Sys2Proof/Machine/Rings.lean ====
section
/-!
DEFINITION. The rings in host memory (R534): Geyser, verdict, poison, service and trace rings.
-/
namespace Sys2Proof.Machine

/-- Where a ring's registers stand: RING_BASE, RING_SIZE, WPTR and RPTR. -/
structure RingRegs where
  page : Nat
  base : Nat
  size : Nat
  wptr : Nat
  rptr : Nat

def geyserRing : RingRegs := { page := pg 0x11, base := 0x68, size := 0x70, wptr := 0x74, rptr := 0x78 }
def verdictRing (page : Nat) : RingRegs := { page, base := 0x70, size := 0x78, wptr := 0x7C, rptr := 0x80 }
def poisonRing : RingRegs := { page := pg 0x28, base := 0xB0, size := 0xB8, wptr := 0xBC, rptr := 0xC0 }
def serviceRing : RingRegs := { page := pg 0x40, base := 0x58, size := 0x60, wptr := 0x64, rptr := 0x68 }
def traceRing (r : Nat) : RingRegs :=
  { page := pg 0x60, base := 0x108 + 0x20 * r, size := 0x104 + 0x20 * r, wptr := 0x110 + 0x20 * r,
    rptr := 0x114 + 0x20 * r }

/-- The ring whose RPTR (or RING_SIZE) stands at an offset of a page type. -/
def ringOf (page off : Nat) : Option RingRegs :=
  let l : List RingRegs := match keyType page with
    | 0x11 => [{ geyserRing with page }]
    | 0x20 => [verdictRing page]
    | 0x28 => [{ poisonRing with page }]
    | 0x40 => [{ serviceRing with page }]
    | 0x60 => (List.range 4).map fun r => { traceRing r with page }
    | _ => []
  l.find? fun r => decide (r.rptr = off) || decide (r.size = off)

/-- The ring's size in bytes, 2^LOG2. -/
def State.ringSize (s : State) (r : RingRegs) : Nat := 2 ^ s.regFld r.page r.size 0 5

/-- Records of a ring on their way. -/
def State.ringWaiting (s : State) (r : RingRegs) : List RingWrite :=
  s.pages.ringQ.filter fun w => decide (w.page = r.page) && decide (w.wptr = r.wptr)

/-- Bytes held, from RPTR up to WPTR, and bytes of records on their way. -/
def State.ringUsed (s : State) (r : RingRegs) : Nat :=
  let n := s.ringSize r
  ((s.reg r.page r.wptr).toNat + n - (s.reg r.page r.rptr).toNat % n) % n + ((s.ringWaiting r).map fun w => w.bytes.length).sum

/-- Is there room for `k` more bytes: writing them does not make WPTR equal to RPTR (R534)? -/
def State.ringRoom (s : State) (r : RingRegs) (k : Nat) : Bool := decide (s.ringUsed r + k < s.ringSize r)

/-- The ring at a page whose WPTR stands at an offset. -/
def ringAt (page wptr : Nat) : Option RingRegs :=
  let l : List RingRegs := match keyType page with
    | 0x11 => [{ geyserRing with page }]
    | 0x20 => [verdictRing page]
    | 0x28 => [{ poisonRing with page }]
    | 0x40 => [{ serviceRing with page }]
    | 0x60 => (List.range 4).map fun r => { traceRing r with page }
    | _ => []
  l.find? fun r => decide (r.wptr = wptr)

/-- Issue the oldest record of a ring where none of its is under way: at WPTR, wrapping at the ring's end. -/
def State.ringGo (s : State) (r : RingRegs) : State :=
  match s.ringWaiting r with
  | w :: _ =>
    if w.xfers.isSome then s
    else
      let n := s.ringSize r
      let at' := (s.reg r.page r.wptr).toNat % n
      let a := s.regWide r.page r.base 2
      let k := min w.bytes.length (n - at')
      let own := XferOwner.ring r.page r.wptr
      let id := s.pages.nextXfer
      let two := decide (k < w.bytes.length)
      let w' : RingWrite := { w with xfers := some (if two then [id, id + 1] else [id]) }
      let s := { s with pages := { s.pages with ringQ := s.pages.ringQ.replace w w' } }
      let s := s.startXferOf w.region own true (a + at') k (w.bytes.take k)
      if two then s.startXferOf w.region own true a (w.bytes.length - k) (w.bytes.drop k) else s
  | [] => s

/-- Write a record of a region into a ring; WPTR advances past it when its write has completed (R408). The caller has
asked for room. -/
def State.ringPutOf (s : State) (region : Option Nat) (r : RingRegs) (bytes : List Byte) : State :=
  let w : RingWrite := { page := r.page, wptr := r.wptr, bytes, region, xfers := none }
  let s : State := { s with pages := { s.pages with ringQ := s.pages.ringQ ++ [w] } }
  s.ringGo r

/-- Write a record into a ring. -/
def State.ringPut (s : State) (r : RingRegs) (bytes : List Byte) : State := s.ringPutOf none r bytes

/-- A notice's ORIGIN and SEQ. -/
def noticeKey (b : List Byte) : Nat × Nat := (leAt b 16 4, leAt b 20 4)

/-- The acknowledgement of a notice to its ORIGIN (R223). -/
def State.poisonAck (s : State) (b : List Byte) : State :=
  let o := word (leAt b 16 4)
  let src := nodeOf 0 (fld o 22 6) (fld o 17 5) (fld o 14 3)
  if src = s.node then s
  else s.sendTyp 0x32 (.node src) (leBytes 4 o.toNat ++ leBytes 4 (leAt b 20 4) ++ leBytes 2 s.node.toNat ++ zeros 2)

/-- A record of a ring is written, or ends unwritten: a taint notice is acknowledged once it is written (R223), and one
that is not written may come again. -/
def State.ringEnded (s : State) (r : RingRegs) (b : List Byte) (good : Bool) : State :=
  if r.page = pg 0x28 then
    if good then (s.setErr (pg 0x28) 18).poisonAck b
    else { s with check := { s.check with seen := s.check.seen.filter fun k => decide (k ≠ noticeKey b) } }
  else s

/-- A transfer of a ring is complete: a record with none left is in the ring, and WPTR passes it; one that failed, or
whose completion was dropped, is not written, and the next record takes its slot (R408). Answers whether a record has
ended unwritten. -/
def State.ringDone (s : State) (r : RingRegs) (id : Nat) (good : Bool) : Bool × State :=
  match (s.ringWaiting r).find? fun w => (w.xfers.getD []).contains id with
  | none => (false, s)
  | some w =>
    let left := (w.xfers.getD []).erase id
    let w' : RingWrite := { w with xfers := some left }
    let q := s.pages.ringQ
    let cut : State := { s with pages := { s.pages with ringQ := q.erase w } }
    if !good then (true, (cut.ringEnded r w.bytes false).ringGo r)
    else if left ≠ [] then (false, { s with pages := { s.pages with ringQ := q.replace w w' } })
    else
      (false, ((cut.setReg r.page r.wptr (word (((s.reg r.page r.wptr).toNat + w.bytes.length) % s.ringSize r))).ringEnded r w.bytes true).ringGo r)

/-- A write of RPTR is taken modulo the ring size (R534). -/
def State.ringSetRptr (s : State) (r : RingRegs) (v : Word) : State :=
  s.setReg r.page r.rptr (word (v.toNat % s.ringSize r))

/-- A write of RING_SIZE.LOG2 is clamped to 12 to 24; WPTR and RPTR stay below the size, the bits above it reading zero
(R534). -/
def State.ringSetSize (s : State) (r : RingRegs) (v : Word) : State :=
  let n := clamp 12 24 (fld v 0 5)
  let below (x : Word) : Word := word (x.toNat % 2 ^ n)
  ((s.setReg r.page r.size (word n)).setReg r.page r.wptr (below (s.reg r.page r.wptr))).setReg r.page r.rptr
    (below (s.reg r.page r.rptr))

end Sys2Proof.Machine
end

