-- ==== Sys2Proof/Machine/Probes.lean ====
section
/-!
DEFINITION. Probes and concentrators: edges, resets, samples, delivery and commit of records, adoption by the
spare concentrator, and the sampling commands that act on probes (R88 to R112, R120).
-/
namespace Sys2Proof.Machine

/-! ### Edges (R90 to R93) -/

/-- The counters an edge advances (the table of the counters of a probe). -/
def edgeCounters (st : UnitState) (reason : BitVec 3) (evt : BitVec 16) (sel : Word) : List Nat :=
  (match st with
   | .busy => [0]
   | .stall => [1, 3 + reason.toNat]
   | .idle => [2]
   | .illegal => [2]) ++
  ((List.range 8).filter fun e => bit evt (fld sel (4 * e) 4)).map fun e => 11 + e

/-- E[k] advances, or stays at 2^40 − 1 and the record is LOST (R91). -/
def bumpE (x : Probe) (k : Nat) : Probe :=
  let v := Tab.read bv40Zero x.e k
  if v = BitVec.allOnes 40 then { x with lost := true, lostNext := true }
  else { x with e := Tab.write bv40Zero x.e k (v + 1) }

/-- A command count advances modulo 2^40, and says whether it wrapped (R91). -/
def bumpTab (t : Tab (BitVec 40)) (k : Nat) : Tab (BitVec 40) × Bool :=
  let v := Tab.read bv40Zero t k
  (Tab.write bv40Zero t k (v + 1), decide (v = BitVec.allOnes 40))

/-- Advance item `k` of the newest of a list of count tables, oldest first, whose mask names it; did one, and has it
wrapped? -/
def bumpNewest (k : Nat) : List (Tab (BitVec 40)) → List Word → List (Tab (BitVec 40)) × Option Bool
  | t :: ts, m :: ms =>
    match bumpNewest k ts ms with
    | (ts, some w) => (t :: ts, some w)
    | (ts, none) => if bit m k then ((bumpTab t k).1 :: ts, some (bumpTab t k).2) else (t :: ts, none)
  | ts, _ => (ts, none)

/-- C[k] advances. After CMD_STARTs whose resets are not granted yet, a counter counts toward the new value of the latest
one whose reset mask names it (R92, R93). -/
def bumpC (x : Probe) (k : Nat) : Probe :=
  match bumpNewest k x.divs x.dmasks with
  | (divs, some w) => { x with divs, wrap := x.wrap || w }
  | (_, none) =>
    let r := bumpTab x.c k
    { x with c := r.1, wrap := x.wrap || r.2 }

/-- One more edge of counter `k` in the Geyser interval (R113). -/
def bumpG (x : Probe) (k : Nat) : Probe :=
  { x with gcount := Tab.modify bv16Zero x.gcount k (· + 1) }

/-- The counts and flags of an earlier Geyser interval are dropped (R113, R117). -/
def gyRoll (start : FT) (x : Probe) : Probe :=
  if x.ginst = start then x else { x with ginst := start, gcount := [], ghrst := false, glost := false }

/-- A committed UCLK edge at a probe whose profile has selectors `sel` and reset mask `mask` (R92, R93). -/
def edgeProbe (sel mask : Word) (start : FT) (st : UnitState) (reason : BitVec 3) (evt : BitVec 16)
    (cmdStart : Bool) (x : Probe) : Probe :=
  let ks := edgeCounters st reason evt sel
  let x := ks.foldl (fun x k => bumpC (bumpE x k) k) x
  let x := ks.foldl bumpG (gyRoll start x)
  let x := { x with ustate := st, reason, stateErr := x.stateErr || decide (st = .illegal) }
  if cmdStart then { x with divs := x.divs ++ [[]], dmasks := x.dmasks ++ [mask] } else x

/-- The grid instant that begins the Geyser interval now (R113): of a window, the one before its next sample; else, and
before a window that waits for T comes near it, the latest one of the grid. -/
def State.gyStart (s : State) : FT :=
  let gi := max 1 (8 * s.regFld (pg 0x11) 0x40 0 12 * ns)
  let g := s.samp.geyser
  if (decide (g.state = .armed) || decide (g.state = .pre) || decide (g.state = .post)) && decide (g.next ≤ s.now + gi) then g.next - gi
  else s.now / gi * gi

/-- The counts of an edge (R90: an empty slot counts nothing). -/
def State.countEdge (s : State) (p : Nat) (st : UnitState) (reason : BitVec 3) (evt : BitVec 16)
    (cmdStart : Bool) : State :=
  if s.present p then
    let pr := (s.probe p).profile.toNat
    let sel := Tab.read evselReset s.samp.evsel pr
    let mask := Tab.read rmaskReset s.samp.rmask pr
    let edge := edgeProbe sel mask s.gyStart st reason evt cmdStart
    let lose := (edge { s.probe p with lost := false }).lost
    let s := s.modProbe p edge
    let s := if lose then s.setErr (pg 0x10) 19 else s
    if st = .illegal then s.setErr (pg 0x10) 18 else s
  else s

/-- A granted reset request: every counter of the mask that was in force at its CMD_START (R92) takes the count since
then, GEN and RSTS advance (R93, R107). -/
def resetProbe (mask : Word) (x : Probe) : Probe :=
  match x.divs with
  | [] => x
  | d :: ds =>
    let mask := x.dmasks.headD mask
    let c := (List.range 19).foldl
      (fun c k => if bit mask k then Tab.write bv40Zero c k (Tab.read bv40Zero d k) else c) x.c
    { x with c, divs := ds, dmasks := x.dmasks.drop 1, gen := x.gen + 1, rsts := BitVec.ofNat 8 (satAdd 8 x.rsts.toNat 1), ghrst := true }

/-- The reset of probe `p`, where one was requested. -/
def State.grantReset (s : State) (p : Nat) : State :=
  let mask := Tab.read rmaskReset s.samp.rmask (s.probe p).profile.toNat
  if s.present p then s.modProbe p fun x => resetProbe mask (gyRoll s.gyStart x) else s

/-! ### Samples (R93, R103) -/

/-- The probe samples at close `epoch`, or advances MISSED when its output latch is still full. -/
def sampleProbe (epoch : Nat) (excl : Bool) (x : Probe) : Probe :=
  match x.latch with
  | some _ => { x with missed := BitVec.ofNat 8 (satAdd 8 x.missed.toNat 1), stale := true, counted := false }
  | none =>
    { x with
      latch := some { d := x.e, s := x.c, gen := x.gen, rsts := x.rsts, missed := x.missed, lost := x.lostNext,
                      excl, epoch }
      e := [], rsts := 0, missed := 0, lostNext := false, stale := true, counted := false }

/-! ### Delivery (R101, R102) -/

/-- Add deltas to 64-bit totals, which saturate; says whether one did (R101). -/
def addDeltas (d : Tab (BitVec 40)) (t : Tab (BitVec 64)) : Tab (BitVec 64) × Bool :=
  d.foldl (fun r e =>
    let v := (Tab.read bv64Zero r.1 e.1).toNat + e.2.toNat
    (Tab.write bv64Zero r.1 e.1 (BitVec.ofNat 64 (min v (2 ^ 64 - 1))), r.2 || decide (2 ^ 64 ≤ v))) (t, false)

/-- The check of R102: for every counter, S minus the previous S equals D modulo 2^40. -/
def recordPasses (prev : Tab (BitVec 40)) (r : ProbeRec) : Bool :=
  (List.range 19).all fun k =>
    decide (Tab.read bv40Zero r.s k - Tab.read bv40Zero prev k = Tab.read bv40Zero r.d k)

/-- The record's own fields as they read after acceptance (R108). -/
def acceptRec (latest : Nat) (r : ProbeRec) (x : Probe) : Probe :=
  { x with s := r.s, recGen := r.gen, recRsts := r.rsts, recMissed := r.missed, tag := BitVec.ofNat 8 r.epoch,
           last := r.d, lost := x.lost || r.lost, stale := decide (r.epoch < latest) }

/-- Does a region total that the deltas name pass 2^64 − 1 (R101)? -/
def State.regionOver (s : State) (c : Nat) (d : Tab (BitVec 40)) : Bool :=
  d.any fun e => decide (2 ^ 64 ≤ (((clustersOf (regionOf c)).map fun k => (Tab.read bv64Zero (s.cluster k).t e.1).toNat).sum))

/-- Add an accepted record to the probe's totals and, unless it is excluded, to its cluster's (R101, R104). -/
def State.addRecord (s : State) (p : Nat) (r : ProbeRec) : State :=
  let a := addDeltas r.d (s.probe p).t
  let s := s.modProbe p fun x => { x with t := a.1, counted := !r.excl, arrAll := (addDeltas r.d x.arrAll).1 }
  let s := if a.2 then s.setErr (pg 0x10) 20 else s
  if r.excl then s
  else
    let c := clusterOf p
    let b := addDeltas r.d (s.cluster c).t
    let s := s.modCluster c fun y => { y with t := b.1 }
    let s := s.modProbe p fun x => { x with
      inSum := (addDeltas r.d x.inSum).1, arr := (addDeltas r.d x.arr).1, arrived := true }
    if b.2 || s.regionOver c r.d then s.setErr (pg 0x10) 20 else s

/-- A record the region mirror does not hold yet is added to the totals again; the reductions have taken its deltas
already (R111 step 5, R122). -/
def State.addAgain (s : State) (p : Nat) (r : ProbeRec) : State :=
  let x := s.probe p
  (s.addRecord p r).modProbe p fun y => { y with arr := x.arr, arrAll := x.arrAll, arrived := x.arrived }

/-- The concentrator takes a record: it acknowledges it, checks it where R102 asks for it, and adds it. -/
def State.takeRecord (s : State) (p : Nat) (r : ProbeRec) : State :=
  let prev := (s.probe p).s
  let checked := bit (s.reg (pg 0x10) 0x44) 1 && decide (r.rsts = 0) && !r.lost
  let s := s.modProbe p (acceptRec s.samp.grid.epochNo r)
  if checked && !recordPasses prev r then
    ((s.modProbe p fun x => { x with mismatch := true, counted := false, acked := none }).setErr (pg 0x10) 17).violate
      (.probe p) 6 [] true
  else s.addRecord p r


/-- Is the probe's concentrator there to take records: powered (R105), its region not under reset (R106), its
cluster not LOST (R12), no Snuff in effect (R462), and no channel on the way stuck (R42)? -/
def State.concReady (s : State) (p : Nat) : Bool :=
  s.present p && (decide (s.bpwr.state = .run) || decide (s.bpwr.state = .idle) || decide (s.bpwr.state = .entering)) &&
  !(s.region (regionOf (clusterOf p))).inReset && !(s.cluster (clusterOf p)).lost && decide (s.snuff.state ≠ .cut) &&
  s.chanOpen (.probeConc p) && s.chanOpen (.concRegion (clusterOf p)) && s.chanOpen (.regionHub (regionOf (clusterOf p)))

/-- Deliver the record in the probe's output latch: the latch empties, and the probe keeps the acknowledged
record until COMMIT (R101). -/
def State.deliver (s : State) (p : Nat) : State :=
  match (s.probe p).latch with
  | none => s
  | some r =>
    if s.concReady p then
      (s.modProbe p fun x => { x with latch := none, acked := some r }).takeRecord p r
    else s

/-- COMMIT of a cluster: the region has taken the mirrored totals, and the probes drop their copies (R101). -/
def State.commit (s : State) (c : Nat) : State :=
  let s := (probesOf c).foldl (fun s p => s.modProbe p fun x =>
    { x with mirror := x.t, inSumMirror := x.inSum, acked := none }) s
  s.modCluster c fun y => { y with mirror := y.t }

/-! ### Adoption and loss of a concentrator (R11 to R13, R111, R112) -/

/-- The cluster's totals as of the last committed epoch. -/
def State.loadMirror (s : State) (c : Nat) : State :=
  let s := (probesOf c).foldl (fun s p => s.modProbe p fun x =>
    { x with t := x.mirror, inSum := x.inSumMirror }) s
  s.modCluster c fun y => { y with t := y.mirror }

/-- A probe re-sends its acknowledged but uncommitted record, then its latched record (R111 step 4). -/
def State.resend (s : State) (p : Nat) : State :=
  let s := match (s.probe p).acked with
    | some r => s.addAgain p r
    | none => s
  s.deliver p

/-- A channel whose watchdog or fault is dealt with: it is open again. -/
def State.chanClear (s : State) (c : Channel) : State :=
  { s with pace := { s.pace with watch := Tab.write natZero s.pace.watch c.code 0 } }

/-- The spare adopts cluster `c` (R111): its channels lead to the spare; the cluster is STALE, the spare loads the mirror, takes the re-sent
records once and commits them, and the spare map and the region record say so. -/
def State.adopt (s : State) (c cause arg : Nat) : State :=
  let r := regionOf c
  let s := (s.chanClear (.concRegion c)).modCluster c fun y => { y with stale := true }
  let s := (probesOf c).foldl (fun s p => s.chanClear (.probeConc p)) s
  let s := s.loadMirror c
  let s := (probesOf c).foldl State.resend s
  let s := s.commit c
  let s := s.modCluster c fun y => { y with adopted := true, selfchk := y.selfchk || decide (arg = 1) }
  let s := s.modRegion r fun y => { y with spareUsed := true, adopted := BitVec.ofNat 8 c }
  let s := (s.setErr (pg 0x10) 16).spareAdd 2 cause c r
  s.log 0x10 r 0x0001 5 c arg []

/-- A further concentrator failure of the region: the cluster is LOST (R12). -/
def State.loseCluster (s : State) (c cause : Nat) : State :=
  let s := s.modCluster c fun y => { y with lost := true }
  (s.spareAdd 2 cause c 0xFFFFFFFF).replaceTray (pg 0x10) (regionOf c) c 1

/-- A cluster concentrator has failed (R11, R12): the spare adopts the cluster, or the cluster is LOST. A
region whose own concentrator is lost can connect no spare. `cause` is the spare map's, `arg` the log's. -/
def State.concFail (s : State) (c cause arg : Nat) : State :=
  if Config.clusters ≤ c ∨ (s.cluster c).lost = true ∨ (s.region (regionOf c)).absent = true then s
  else if (s.region (regionOf c)).spareUsed then s.loseCluster c cause
  else s.adopt c cause arg

/-- A region concentrator has failed (R13). -/
def State.regionFail (s : State) (r : Nat) : State :=
  if Config.regions ≤ r ∨ (s.region r).absent = true then s
  else (s.modRegion r fun y => { y with absent := true }).replaceTray (pg 0x10) r r 2

/-- CONC_SELFCHK_FAIL: a residue check failed (R111). -/
def execConcSelfchkFail (cluster : Nat) (s : State) : Host.Outcome State Fault Refusal :=
  finish (if s.isDie then s.concFail cluster 6 1 else s)

/-- REGION_CONC_FAIL (R13). -/
def execRegionConcFail (region : Nat) (s : State) : Host.Outcome State Fault Refusal :=
  finish (if s.isDie then s.regionFail region else s)

/-- A handshake whose acknowledge is withheld comes under its watchdog (R47): 1 more than the slow ticks counted. -/
def State.watchChannel (s : State) (c : Channel) : State :=
  { s with pace := { s.pace with watch := Tab.write natZero s.pace.watch c.code 1 } }

/-- RECORD_DELIVER (R101, R102). An armed injection of KIND 0x03 holds the acknowledge until the watchdog expires
(R68). -/
def execRecordDeliver (probe : Nat) (s : State) : Host.Outcome State Fault Refusal :=
  finish (
    if (s.probe probe).latch.isSome = true ∧ s.concReady probe = true then
      let inj := s.injTake (pg 0x10) 3
      if inj.1 then
        let s := inj.2.watchChannel (.probeConc probe)
        { s with pace := { s.pace with injected := (Channel.probeConc probe).code :: s.pace.injected } }
      else inj.2.deliver probe
    else s)

/-- CONC_COMMIT (R101). -/
def execConcCommit (cluster : Nat) (s : State) : Host.Outcome State Fault Refusal :=
  finish (if s.isDie && decide (cluster < Config.clusters) then s.commit cluster else s)

/-! ### Sampling commands on probes (R106, R120) -/

/-- Did the probe hold any count (R106)? -/
def holdsCount (x : Probe) : Bool :=
  decide (x.e ≠ []) || (match x.latch with | some r => decide (r.d ≠ []) | none => false)

/-- A probe reset (R106): E, C, GEN, RSTS and MISSED clear, and the output latch empties. -/
def clearProbe (x : Probe) : Probe :=
  { x with e := [], c := [], divs := [], dmasks := [], gen := 0, rsts := 0, missed := 0, latch := none,
           lostNext := x.lostNext || holdsCount x, glost := true }

def State.probeReset (s : State) (p : Nat) : State :=
  if s.present p then
    let s := if holdsCount (s.probe p) then s.setErr (pg 0x10) 19 else s
    s.modProbe p fun x => clearProbe (gyRoll s.gyStart x)
  else s

/-- The part of a probe range before the first region under reset: the range is taken in ascending order and
a region reset ends the command (R120). -/
def State.rangeDone (s : State) (l : List Nat) : List Nat :=
  l.takeWhile fun p => !(s.region (regionOf (clusterOf p))).inReset

/-- The checks of a probe range, and the command over it: `act` for each probe, then `fin` with the number
done, or STATUS RESET when a region of the range is under reset (R120). -/
def probeRange (c : CmdIn) (act : State → Nat → State) (fin : State → Nat → State) (s : State) : State :=
  let first := argFld c s 0 0 13
  let count := argFld c s 1 0 14
  if count = 0 then s.badArg c
  else if Config.probes < first + count then s.failCmd c 2
  else
    let all := List.range' first count
    let l := s.rangeDone all
    let s := l.foldl act s
    if l.length < all.length then (s.res c 0 l.length).done c stReset 0 else fin s l.length

/-- PROBE_RESET (R106, R120). -/
def execProbeReset (c : CmdIn) (s : State) : Host.Outcome State Fault Refusal :=
  finish (runCmd c 0x10 0x0002 .operator s.isDie
    (fun s => probeRange c State.probeReset (fun s n => (((s.applySync 0).loseBits [0]).res c 0 n).ok c) s) s)

/-- CLEAR_TOTALS (R120): the totals are cleared at the next close, and the command waits for it. -/
def execClearTotals (c : CmdIn) (s : State) : Host.Outcome State Fault Refusal :=
  finish (runCmd c 0x10 0x0003 .operator s.isDie
    (fun s => probeRange c (fun s p => s.modProbe p fun x => { x with clear := true })
      (fun s n => (s.res c 0 n).waitFor c (.close (s.samp.grid.epochNo + 1))) s) s)

/-- FORCE_ADOPT (R120): adoption without a fault. -/
def execForceAdopt (c : CmdIn) (s : State) : Host.Outcome State Fault Refusal :=
  finish (runCmd c 0x10 0x0004 .firmware s.isDie
    (fun s =>
      let k := argFld c s 0 0 8
      let r := s.region (regionOf k)
      if r.absent then s.failCmd c 6
      else if r.spareUsed || (s.cluster k).lost then s.failCmd c 5
      else (s.adopt k 5 3).ok c) s)

/-- A probe whose totals are to be cleared: they are set to zero and taken out of its cluster's sums, after
the close's deltas were added (R120). -/
def State.clearTotal (s : State) (p : Nat) : State :=
  let x := s.probe p
  if x.clear then
    let sub (t : Tab (BitVec 64)) : Tab (BitVec 64) :=
      x.inSum.foldl (fun t e => Tab.modify bv64Zero t e.1 fun v => BitVec.ofNat 64 (v.toNat - e.2.toNat)) t
    let subMirror (t : Tab (BitVec 64)) : Tab (BitVec 64) :=
      x.inSumMirror.foldl (fun t e => Tab.modify bv64Zero t e.1 fun v => BitVec.ofNat 64 (v.toNat - e.2.toNat)) t
    (s.modProbe p fun x => { x with t := [], mirror := [], inSum := [], inSumMirror := [], acked := none, clear := false }).modCluster
      (clusterOf p) fun y => { y with t := sub y.t, mirror := subMirror y.mirror }
  else s

end Sys2Proof.Machine
end

