-- ==== Sys2Proof/Machine/Time.lean ====
section
/-!
DEFINITION. The timekeeper (R230 to R243, R247, R248, R251): exchanges, the offset, the servo, port roles, and
the list of pending fleet-time events. The step of fleet time is in Machine/TimeStep.lean.
-/
namespace Sys2Proof.Machine

def timePage : Nat := pg 0x30

def State.modTime (s : State) (f : Time → Time) : State := { s with time := f s.time }

/-! ### The TPORT page (R251) -/

def State.tport (s : State) (p : Nat) : TPort := Tab.read TPort.reset s.time.ports p
def State.modTport (s : State) (p : Nat) (f : TPort → TPort) : State :=
  s.modTime fun t => { t with ports := Tab.modify TPort.reset t.ports p f }

/-- The link ports of this role: 9 in a die hub, 36 in a KXA-32 (R251). -/
def State.portCount (s : State) : Nat := if s.isSystem then 36 else 9

/-- The page and offset of a register of port `p`'s block. -/
def tportPage (p : Nat) : Nat := pageKey 0x31 (p / 18) 0
def tportOff (p off : Nat) : Nat := 0x100 + 0x40 * (p % 18) + off
def State.tportReg (s : State) (p off : Nat) : Word := s.reg (tportPage p) (tportOff p off)

/-- KIND of a port (R251): 0 package link, 1 K-link, 2 Ethernet. -/
def State.portKind (s : State) (p : Nat) : Nat :=
  if s.isSystem then (if p < 32 then 1 else 2) else if p < 7 then 0 else 1

/-- The interval 2^log seconds in fleet time. -/
def logInterval (log : Int) : FT :=
  if 0 ≤ log then 10 ^ 9 * ns * 2 ^ log.toNat else 10 ^ 9 * ns / 2 ^ (-log).toNat

def State.syncInterval (s : State) (p : Nat) : FT := logInterval (sgn 8 (fld (s.tportReg p 0) 16 8))
def State.dreqInterval (s : State) (p : Nat) : FT := logInterval (sgn 8 (fld (s.tportReg p 0) 8 8))
def State.annInterval (s : State) (p : Nat) : FT := logInterval (sgn 4 (fld (s.tportReg p 0) 4 4))

/-- Picoseconds in a signed register field, in 2^-16 ns, truncated toward zero (R234). -/
def psToFT (ps : Int) : Int := (ps * 65536).tdiv 1000

def State.portPs (s : State) (p off : Nat) : Int := psToFT (sgn 32 (s.tportReg p off).toNat)

/-- Advance RXERR.BAD, RXERR.IGNORED or TSLOST of a port (R231, R235, R251). -/
def State.ptpBad (s : State) (p : Nat) : State := s.bumpFld (tportPage p) (tportOff p 0x28) 16 16 1
def State.ptpIgnored (s : State) (p n : Nat) : State := s.bumpFld (tportPage p) (tportOff p 0x28) 0 16 n
def State.ptpLost (s : State) (p : Nat) : State := s.bump (tportPage p) (tportOff p 0x2C) 1

/-! ### PTP time and fleet time (R230) -/

/-- EPOCH_BASE in units of fleet time since the PTP epoch. -/
def State.epochBase (s : State) : FT :=
  let w := s.regWide timePage 0x90 3
  (w / 2 ^ 32 % 2 ^ 48 * 10 ^ 9 + w % 2 ^ 32) * ns

/-- A PTP timestamp as a fleet time; negative when it lies before EPOCH_BASE. -/
def State.ptpToFT (s : State) (sec : BitVec 48) (nsec : BitVec 32) : Int :=
  ((sec.toNat * 10 ^ 9 + nsec.toNat) * ns : Nat) - (s.epochBase : Int)

/-! ### Messages sent (R231) -/

/-- The header of an IEEE 1588 message of this timekeeper, in the standard's byte order. -/
def State.ptpHeader (s : State) (p ty len : Nat) (flags : Nat) (corr : Int) (seq : BitVec 16) (log : Nat) : List Byte :=
  [BitVec.ofNat 8 ty, 0x12] ++ beBytes 2 len ++ [BitVec.ofNat 8 (s.regFld timePage 0x50 0 7), 0] ++ beBytes 2 flags ++
  beBytes 8 (unsgn 64 corr) ++ zeros 4 ++ beBytes 8 Config.clockId.toNat ++ beBytes 2 (p + 1) ++
  beBytes 2 seq.toNat ++ [BitVec.ofNat 8 (if ty = 0 then 0 else if ty = 1 then 1 else if ty = 8 then 2 else if ty = 9 then 3 else 5)] ++
  [BitVec.ofNat 8 log]

/-- A fleet time as a PTP Timestamp: 48-bit seconds and 32-bit nanoseconds; its fraction goes elsewhere. -/
def State.ptpStamp (s : State) (t : Int) : List Byte :=
  let n := (floorDiv (t + s.epochBase) 65536).toNat
  beBytes 6 (n / 10 ^ 9) ++ beBytes 4 (n % 10 ^ 9)

/-- The fraction below a nanosecond, which correctionField carries (R231, R234). -/
def ptpFrac (t : Int) : Int := t % 65536

/-- Hand a PTP message to a port. -/
def State.ptpSend (s : State) (p : Nat) (bytes : List Byte) : State := s.sendTyp 0x01 (.port p) bytes

/-- A message of this domain and sdoId, well formed (R231, RXERR of R251). -/
def State.ptpFits (s : State) (m : PtpMsg) : Bool :=
  m.good && decide (m.domain.toNat = s.regFld timePage 0x50 0 7) && decide (m.sdo = 0)

/-- Take a received message: wrong ones are counted BAD, unsupported TLVs IGNORED (R231). -/
def State.ptpTake (s : State) (p : Nat) (m : PtpMsg) (act : State → State) : State :=
  if s.time.running = true ∧ p < s.portCount ∧ (s.tport p).state ≠ .disabled then
    if s.ptpFits m then act (s.ptpIgnored p m.tlvs) else s.ptpBad p
  else s

/-! ### The pending events (R245) -/

/-- A new event takes one of the 32 entries; none when they are all in use (EVT_FULL). -/
def State.evtAdd (s : State) (kind : EvtKind) (t : FT) (key : Nat) : Option State :=
  if 32 ≤ s.time.evts.length then none
  else some (s.modTime fun x => { x with evts := x.evts ++ [{ kind, t, key }] })

/-- An event leaves its entry: it has taken effect, or is withdrawn. -/
def State.evtDrop (s : State) (kind : EvtKind) (key : Nat) : State :=
  s.modTime fun x => { x with evts := x.evts.filter fun e => !(decide (e.kind = kind) && decide (e.key = key)) }

/-! ### The servo (R237 to R242) -/

def rateMax : Int := 549755814

def State.timeErr (s : State) (b : Nat) : State := s.setErr timePage b
def errPpsMiss : Nat := 16
def errMasterChg : Nat := 17
def errHoldover : Nat := 18
def errTimeFault : Nat := 19
def errRateClamp : Nat := 20
def errBaseLocked : Nat := 21
def errBeforeEpoch : Nat := 22

/-- SLAVE_PORT, 0xFF for none. -/
def State.slaveCode (s : State) : Nat := s.time.slave.getD 0xFF

/-- The servo takes a state. Outside LOCKED and HOLDOVER, PPS_OUT stays low (R248). -/
def State.setServo (s : State) (v : Servo) : State :=
  s.modTime fun t => { t with servo := v, ppsOut := t.ppsOut && (decide (v = .locked) || decide (v = .holdover)) }

/-- FAULT (R240): the rate is frozen, and it is reported in four ways. The FAULT message holds the record's page
and code and the offset (DESIGN CHOICE: its payload is not given). -/
def State.timeFault (s : State) : State :=
  let off := leBytes 8 (unsgn 64 s.time.offset)
  ((((s.setServo .fault).modTime fun t => { t with run := 0 }).timeErr errTimeFault).faultMsg 0x30 0x0002 off).log
    0x30 0 0x0002 6 s.slaveCode 0 off

/-- Rate tracking (R239). -/
def State.track (s : State) (off : Int) : State :=
  let e := -off
  let pr := floorDiv (e * s.regFld timePage 0x54 16 16) 65536
  let i := s.time.integ + floorDiv (e * s.regFld timePage 0x54 0 16) 65536
  let r := s.time.base + i + pr
  if rateMax < r ∨ r < -rateMax then
    (s.modTime fun t => { t with rate := if 0 < r then rateMax else -rateMax }).timeErr errRateClamp
  else s.modTime fun t => { t with rate := r, integ := i }

/-- HOLDOVER is entered (R241): its flag, its time count and its record. -/
def State.enterHoldover (s : State) (port why : Nat) : State :=
  (((s.setServo .holdover).modTime fun t => { t with holdFrom := s.now, run := 0 }).timeErr errHoldover).log
    0x30 0 0x0003 4 port why []

/-- End a relock in progress with a DETAIL; RES_0 counts this timekeeper as one that did not step (R243). -/
def State.relockFail (s : State) (detail : Nat) : State :=
  match s.time.relock with
  | none => s
  | some r =>
    let s := (s.modTime fun t => { t with relock := none, relockBad := r.page.isNone, samples := [] }).evtDrop .relock 0
    match r.page with
    | some (pkg, n) => (s.setRes pkg n 0 1).complete pkg n stError detail
    | none => s

/-- The servo's master is gone (R238, R241, R243): `why` is 1 port lost, 2 Sync timeout, 3 new grandmaster. -/
def State.masterLost (s : State) (why : Nat) : State :=
  let port := s.slaveCode
  let s := if why = 1 then s.relockFail 0x01 else s
  let s := if why = 1 then s.modTime fun t => { t with slave := none } else s
  let s := if why = 3 then (s.modTime fun t => { t with masterChg := satAdd 8 t.masterChg 1 }).timeErr errMasterChg else s
  match s.time.servo with
  | .acquire => (s.setServo .free).modTime fun t => { t with samples := [] }
  | .locked => s.enterHoldover port why
  | _ => s

/-- The offset limit of R240 in 2^-16 ns. -/
def State.stepLimit (s : State) : Nat := (s.reg timePage 0x58).toNat * 65536
def State.acqN (s : State) : Nat := s.regFld timePage 0x5C 16 8

/-- One more gathered sample: an acquisition stops at ACQ_N, a relock keeps the latest ACQ_N. -/
def keepLast {α : Type} (n : Nat) (l : List α) : List α := l.drop (l.length - n)

/-- A sample of the followed source (R238 to R241, R243). -/
def State.servoSample (s : State) (off l : Int) : State :=
  let s := (s.modTime fun t => { t with offset := off }).touchItem 0x03
  let gather (s : State) : State :=
    s.modTime fun t => { t with samples := keepLast s.acqN (t.samples ++ [(off, l)]) }
  let near := decide (off.natAbs ≤ s.regFld timePage 0x5C 0 8 * 65536)
  let small := decide (off.natAbs ≤ s.stepLimit)
  let mark (s : State) : State := s.modTime fun t => { t with settled := keepLast 4 (t.settled ++ [near]) }
  match s.time.servo, s.time.relock with
  | .free, _ => s
  | .acquire, _ => gather (s.modTime fun t => { t with relock := t.relock.map fun r => { r with started := true } })
  | _, some r => gather (mark (s.modTime fun t => { t with
      relock := some { r with started := true }, samples := if r.started then t.samples else [] }))
  | .locked, none =>
    let s := mark s
    if small then (s.modTime fun t => { t with run := 0 }).track off
    else
      let s := s.modTime fun t => { t with outliers := satAdd 16 t.outliers 1, run := t.run + 1 }
      if s.regFld timePage 0x5C 12 4 ≤ s.time.run then s.timeFault else s
  | .holdover, none =>
    if s.time.forced then mark s
    else if small then ((mark s).setServo .locked).track off
    else (mark s).timeFault
  | .fault, none => mark s

/-- A sample that fails R235 restarts the count (R238). -/
def State.sampleFails (s : State) (p : Nat) : State :=
  if s.time.slave = some p then s.modTime fun t => { t with samples := [] } else s

/-- A completed Sync: t1 at the master, t2 here, and the corrections of Sync and Follow_Up together (R235). The servo
keeps the local time at which t2 was taken, before its correction, as the worked example of R249's section does. A
master time before EPOCH_BASE fails the acquisition (R230). -/
def State.syncDone (s : State) (p : Nat) (t1 t2 corr : Int) : State :=
  let x := s.tport p
  if t1 < 0 then (s.timeErr errBeforeEpoch).sampleFails p
  else match x.exch with
  | none => s.sampleFails p
  | some e =>
    if e.done + 4 * s.dreqInterval p < s.now then s.sampleFails p
    else
      let m := (t2 - t1) - corr
      let sm := (e.t4 - e.t3) - e.corr
      let mpd := floorDiv (m + sm) 2
      let off := m - mpd - s.portPs p 0x0C
      let l := t2 + s.portPs p 0x04
      let s := s.modTport p fun x => { x with last := some (off, l), lastAt := s.now, mpd }
      if s.time.slave = some p then (s.modTime fun t => { t with mpd }).servoSample off l else s

/-! ### Receiving (R231 to R235) -/

/-- A port that measures its master: SLAVE or STANDBY. -/
def measures (x : TPort) : Bool := decide (x.state = .slave) || decide (x.state = .standby)

/-- A received Sync with its ingress timestamp `ts` to 1/64 ns (R233 to R235). A two-step Sync that still waits for its
Follow_Up when the next one comes yields no sample and advances TSLOST. -/
def State.ptpSync (s : State) (p : Nat) (m : PtpMsg) (ts : FT) : State :=
  let ts := truncFT ts
  let s := s.advanceTo ts
  let t2 := (ts : Int) - s.portPs p 0x04
  if measures (s.tport p) then
    let s := s.modTport p fun x => { x with heard := s.now }
    let s := if (s.tport p).sync.isSome then (s.ptpLost p).sampleFails p else s
    if m.twoStep then
      s.modTport p fun x => { x with sync := some { seq := m.seq, t2, corr := m.corr, came := s.now } }
    else (s.modTport p fun x => { x with sync := none }).syncDone p (s.ptpToFT m.sec m.nsec) t2 m.corr
  else s

/-- PTP_SYNC (R235). -/
def execPtpSync (port : Nat) (m : PtpMsg) (ts : Nat) (s : State) : Host.Outcome State Fault Refusal :=
  finish (s.ptpTake port m fun s => s.ptpSync port m ts)

/-- PTP_FOLLOW_UP: completes the two-step Sync of its sequence number (R235). -/
def execPtpFollowUp (port : Nat) (m : PtpMsg) (s : State) : Host.Outcome State Fault Refusal :=
  finish (s.ptpTake port m fun s =>
    match (s.tport port).sync with
    | some w =>
      if w.seq = m.seq ∧ measures (s.tport port) = true then
        (s.modTport port fun x => { x with sync := none }).syncDone port (s.ptpToFT m.sec m.nsec) w.t2 (w.corr + m.corr)
      else s
    | none => s)

/-- PTP_DELAY_REQ: a master port answers with the corrected ingress time; the fraction of that time is taken out
of correctionField, as R231 does for Follow_Up (R234). -/
def execPtpDelayReq (port : Nat) (m : PtpMsg) (ts : Nat) (s : State) : Host.Outcome State Fault Refusal :=
  finish (s.ptpTake port m fun s =>
    let ts := truncFT ts
    let s := s.advanceTo ts
    let t4 := (ts : Int) - s.portPs port 0x04
    if (s.tport port).state = .master then
      s.ptpSend port (s.ptpHeader port 9 54 0 (m.corr - ptpFrac t4) m.seq (fld (s.tportReg port 0) 8 8) ++ s.ptpStamp t4 ++
        beBytes 8 m.sender.toNat ++ beBytes 2 m.port.toNat)
    else s)

/-- PTP_DELAY_RESP: completes the Delay_Req exchange of its sequence number (R235); a master time before EPOCH_BASE fails
the acquisition (R230). -/
def execPtpDelayResp (port : Nat) (m : PtpMsg) (s : State) : Host.Outcome State Fault Refusal :=
  finish (s.ptpTake port m fun s =>
    match (s.tport port).dreq with
    | some w =>
      if w.seq = m.seq ∧ m.forMe = true ∧ measures (s.tport port) = true ∧ s.ptpToFT m.sec m.nsec < 0 then
        ((s.modTport port fun x => { x with dreq := none }).timeErr errBeforeEpoch).sampleFails port
      else if w.seq = m.seq ∧ m.forMe = true ∧ measures (s.tport port) = true then
        s.modTport port fun x => { x with
          dreq := none, exch := some { t3 := w.t3, t4 := s.ptpToFT m.sec m.nsec, corr := m.corr, done := s.now } }
      else s
    | none => s)

/-! ### Sending (R231, R233, R234) -/

/-- SYNC_SEND: a master port sends a two-step Sync and its Follow_Up; `ts` is the egress timestamp. -/
def execSyncSend (port ts : Nat) (s : State) : Host.Outcome State Fault Refusal :=
  finish (
    if s.time.running = true ∧ port < s.portCount ∧ (s.tport port).state = .master then
      let ts := truncFT ts
      let s := s.advanceTo ts
      let t1 := (ts : Int) + s.portPs port 0x08
      let q := (s.tport port).syncSeq
      let log := fld (s.tportReg port 0) 16 8
      let s := s.ptpSend port (s.ptpHeader port 0 44 0x0200 0 q log ++ zeros 10)
      let s := s.ptpSend port (s.ptpHeader port 8 44 0 (ptpFrac t1) q log ++ s.ptpStamp t1)
      s.modTport port fun x => { x with syncSeq := q + 1 }
    else s)

/-- DELAY_REQ_SEND: a SLAVE or STANDBY port sends a Delay_Req with egress timestamp `ts` (R235). -/
def execDelayReqSend (port ts : Nat) (s : State) : Host.Outcome State Fault Refusal :=
  finish (
    if s.time.running = true ∧ port < s.portCount ∧ measures (s.tport port) = true then
      let ts := truncFT ts
      let s := s.advanceTo ts
      let q := (s.tport port).dreqSeq
      let s := if (s.tport port).dreq.isSome then s.ptpLost port else s
      let s := s.ptpSend port (s.ptpHeader port 1 44 0 0 q 0x7F ++ zeros 10)
      s.modTport port fun x => { x with
        dreqSeq := q + 1, dreq := some { seq := q, t3 := (ts : Int) + s.portPs port 0x08, sent := s.now } }
    else s)

/-- TSLOST: a Follow_Up has not come within one Sync interval, or (`delay`) a Delay_Resp within one Delay_Req
interval (R235). The previous Delay_Req exchange stays in use. -/
def execTslost (port : Nat) (delay : Bool) (s : State) : Host.Outcome State Fault Refusal :=
  finish (
    let x := s.tport port
    if delay then
      match x.dreq with
      | some w => ((s.advanceTo (w.sent + s.dreqInterval port)).modTport port fun x => { x with dreq := none }).ptpLost port
      | none => s
    else
      match x.sync with
      | some w => (((s.advanceTo (w.came + s.syncInterval port)).modTport port fun x => { x with sync := none }).ptpLost port).sampleFails port
      | none => s)

/-- SYNC_TIMEOUT: no Sync on the SLAVE port for announceReceiptTimeout Announce intervals (R238, R241). From
ACQUIRE the port listens until its next Announce boundary, where it takes its role afresh. -/
def execSyncTimeout (s : State) : Host.Outcome State Fault Refusal :=
  finish (match s.time.slave with
    | some p =>
      let s := s.advanceTo ((s.tport p).heard + fld (s.tportReg p 0) 0 4 * s.annInterval p)
      if s.time.servo = .acquire then
        ((s.masterLost 2).modTime fun t => { t with slave := none }).modTport p fun x => { x with state := .listening }
      else s.masterLost 2
    | none => s)

/-! ### Roles (R232, R251) -/

/-- Is the port's link there to carry traffic (PSTAT UP or STANDBY)? -/
def State.linkUp (s : State) (p : Nat) : Bool :=
  decide ((s.port p).state = .up) || decide ((s.port p).state = .standby)

/-- The role of a port under AUTO (R232). A KXA-32 at pod level takes part in the BMCA on U0, U1 and U3. -/
def State.autoRole (s : State) (p : Nat) : PtpState :=
  if s.isSystem then
    if s.straps.cascade then (if p = 32 ∨ p = 33 ∨ p = 35 then .listening else .disabled)
    else if p < 32 then .master
    else if p = s.links.upPort then .slave
    else if p = 32 ∨ p = 33 then (if s.links.spareFor = some p then .disabled else .standby)
    else if p = 35 ∧ s.links.spareFor.isSome = true then .standby
    else .disabled
  else if s.isHead then
    if p < 7 then .master else if p = s.primaryKlink then .slave else .standby
  else match s.pkg.head with
    | some h => if p = s.diePort h.toNat ∧ p < 7 then .slave else .disabled
    | none => .disabled

/-- The state a port's ROLE in force asks for; DISABLED while its link is not up. -/
def State.wantRole (s : State) (p : Nat) : PtpState :=
  if s.linkUp p then
    match (s.tport p).role with
    | 1 => .master | 2 => .slave | 3 => .standby | 4 => .listening | 7 => s.autoRole p | _ => .disabled
  else .disabled

/-- The port takes part in the BMCA (R231): ROLE BMCA, or AUTO at pod level. -/
def State.isBmca (s : State) (p : Nat) : Bool :=
  s.linkUp p && (decide ((s.tport p).role = 4) ||
    (decide ((s.tport p).role = 7) && s.isSystem && s.straps.cascade && (decide (p = 32) || decide (p = 33) || decide (p = 35))))

/-- A port takes a PTP state. One that becomes SLAVE is followed, and starts an acquisition from FREE (R238);
one that leaves SLAVE is lost to the servo (R241). -/
def State.takeState (s : State) (p : Nat) (st : PtpState) : State :=
  let old := (s.tport p).state
  if old = st then s
  else
    let s := s.modTport p fun x => { x with
      state := st, heard := s.now, sync := none, dreq := none,
      exch := if st = .slave ∨ st = .standby then x.exch else none }
    let s := if old = .slave ∧ s.time.slave = some p then s.masterLost 1 else s
    if st = .slave then
      let s := s.modTime fun t => { t with slave := some p, gm := false, samples := [] }
      if s.time.servo = .free then s.setServo .acquire else s
    else s

/-- R242: the STANDBY port `p` becomes SLAVE without HOLDOVER, and its latest sample is the next sample. -/
def State.takeOver (s : State) (old : Option Nat) (p : Nat) (off l : Int) : State :=
  let s := match old with
    | some o => s.modTport o fun x => { x with state := s.wantRole o, sync := none, dreq := none }
    | none => s
  let s := s.relockFail 0x01
  let s := s.modTport p fun x => { x with state := .slave }
  let s := s.modTime fun t => { t with
    slave := some p, masterChg := satAdd 8 t.masterChg 1, gm := false, mpd := (s.tport p).mpd,
    samples := if t.servo = .acquire then [] else t.samples }
  ((s.timeErr errMasterChg).log 0x30 0 0x0004 3 p 0 (leBytes 8 (unsgn 64 off))).servoSample off l

/-- Give every port that takes no part in the BMCA the state its role asks for: first a takeover by a STANDBY
port whose sample is fresh (R242), then the others. -/
def State.rerole (s : State) : State :=
  let ps := (List.range s.portCount).filter fun p => !s.isBmca p
  let s : State := match ps.find? fun p => decide (s.wantRole p = .slave) && decide (s.time.slave ≠ some p) with
    | some p =>
      let x := s.tport p
      match x.state, x.last with
      | .standby, some (off, l) =>
        if s.now ≤ x.lastAt + 2 * s.syncInterval p ∧ s.time.servo ≠ .free then s.takeOver s.time.slave p off l else s
      | _, _ => s
    | none => s
  let s : State := match s.time.slave with
    | some o => if (s.tport o).state = .disabled then s.masterLost 1 else s
    | none => s
  let leaving := ps.filter fun p => decide (s.wantRole p ≠ .slave)
  let coming := ps.filter fun p => decide (s.wantRole p = .slave)
  let s := leaving.foldl (fun s p => s.takeState p (s.wantRole p)) s
  coming.foldl (fun s p => s.takeState p .slave) s

/-! ### The best master clock algorithm (R231, R232): the default algorithm of IEEE 1588 -/

/-- A lexicographic comparison of attribute lists: is the first better (lower)? -/
def lexLess : List Nat → List Nat → Bool
  | a :: as, b :: bs => if a < b then true else if b < a then false else lexLess as bs
  | _, _ => false

/-- Is dataset `a` better than `b`: by the grandmasters' attributes, or for one grandmaster by topology? -/
def annBetter (a b : PtpAnn) : Bool :=
  if a.gm = b.gm then
    lexLess [a.removed.toNat, a.sender.toNat, a.port.toNat] [b.removed.toNat, b.sender.toNat, b.port.toNat]
  else
    lexLess [a.priority1.toNat, a.clkClass.toNat, a.accuracy.toNat, a.variance.toNat, a.priority2.toNat, a.gm.toNat]
      [b.priority1.toNat, b.clkClass.toNat, b.accuracy.toNat, b.variance.toNat, b.priority2.toNat, b.gm.toNat]

/-- This timekeeper's own dataset as a grandmaster (KX_TIME_DS). Accuracy and variance are the standard's
"unknown". -/
def State.ownAnn (s : State) : PtpAnn :=
  let w := s.reg timePage 0x50
  { priority1 := BitVec.ofNat 8 (fld w 24 8), clkClass := BitVec.ofNat 8 (fld w 8 8), accuracy := 0xFE, variance := 0xFFFF,
    priority2 := BitVec.ofNat 8 (fld w 16 8), gm := Config.clockId, removed := 0, utc := 0, source := 0xA0, flags := 8,
    sender := Config.clockId, port := 0 }

def State.gmEn (s : State) : Bool := bit (s.reg timePage 0x50) 7

/-- The best Announce heard by the ports of a list; a master counts once it has been heard twice. -/
def State.bestAnn (s : State) : List Nat → Option (Nat × PtpAnn)
  | [] => none
  | p :: ps =>
    let r := s.bestAnn ps
    match (s.tport p).ann with
    | none => r
    | some a =>
      if (s.tport p).annCount < 2 then r
      else match r with
      | some (q, b) => if annBetter b a then some (q, b) else some (p, a)
      | none => some (p, a)

/-- A port has heard no Announce for announceReceiptTimeout intervals: its master is forgotten (R231). -/
def State.annExpire (s : State) (p : Nat) : State :=
  let x := s.tport p
  if x.ann.isSome ∧ x.annAt + fld (s.tportReg p 0) 0 4 * s.annInterval p < s.now then
    s.modTport p fun x => { x with ann := none, annCount := 0 }
  else s

/-- Is the best dataset `b` better by topology than `a`, heard on port `p`: one grandmaster, and as many steps, or one step
less where this port's identity is above the sender's (R231: IEEE 1588-2019, clause 9.3.4)? -/
def byTopology (p : Nat) (b a : PtpAnn) : Bool :=
  decide (a.gm = b.gm) && (decide (a.removed = b.removed) ||
    (decide (a.removed.toNat = b.removed.toNat + 1) &&
      lexLess [a.sender.toNat, a.port.toNat] [Config.clockId.toNat, p + 1]))

/-- The states the BMCA gives its ports: with a clockClass of 1 to 127 of its own, a port is master, or passive where it
hears a better dataset; it is never a slave. -/
def State.bmca (s : State) : State :=
  let ps := (List.range s.portCount).filter s.isBmca
  let s := ps.foldl State.annExpire s
  let best := s.bestAnn ps
  let own := s.ownAnn
  let decideState (p : Nat) : PtpState :=
    if s.gmEn = true ∧ 1 ≤ own.clkClass.toNat ∧ own.clkClass.toNat ≤ 127 then
      match (s.tport p).ann with
      | some a => if 2 ≤ (s.tport p).annCount ∧ annBetter a own = true then .passive else .master
      | none => .master
    else match best with
    | none => if s.gmEn then .master else .listening
    | some (q, b) =>
      if s.gmEn = true ∧ annBetter own b = true then .master
      else if q = p then .slave
      else match (s.tport p).ann with
      | some a => if 2 ≤ (s.tport p).annCount ∧ byTopology p b a = true then .passive else .master
      | none => .master
  let before := s.time.slave.bind fun p => if s.isBmca p then (s.tport p).ann else none
  let s := match before, best with
    | some a, some (q, b) =>
      if a.gm ≠ b.gm ∧ s.time.slave ≠ some q ∧ s.time.servo = .locked then s.masterLost 3 else s
    | _, _ => s
  let leaving := ps.filter fun p => decide (decideState p ≠ .slave)
  let coming := ps.filter fun p => decide (decideState p = .slave)
  let s := leaving.foldl (fun s p => s.takeState p (decideState p)) s
  coming.foldl (fun s p => s.takeState p .slave) s

/-- PPS_IN as the servo's source: SOURCE mode, GM_EN and no SLAVE port. -/
def State.ppsSource (s : State) : Bool :=
  decide (s.regFld timePage 0xA0 30 2 = 2) && s.gmEn && s.time.slave.isNone

/-- Acting as grandmaster (KX_TIME_STATE.GM): with GM_EN and no SLAVE port, after a TIME_SET, on PPS_IN as the servo's
source, or as a master by the BMCA (R231, R247, R250). -/
def State.actsGm (s : State) : Bool :=
  s.gmEn && s.time.slave.isNone &&
  (s.time.gm || (s.ppsSource && (decide (s.time.servo = .locked) || decide (s.time.servo = .holdover))) ||
    (List.range s.portCount).any fun p => s.isBmca p && decide ((s.tport p).state = .master))

/-- The parent data of the followed port (GM_ID, PARENT). -/
def State.parentData (s : State) (p : Nat) (a : PtpAnn) : State :=
  if s.time.slave = some p then s.modTime fun t => { t with gmId := a.gm, removed := a.removed } else s

/-- PTP_ANNOUNCE: parent data, and the BMCA on ports that take part in it (R231, R232, R241). -/
def execPtpAnnounce (port : Nat) (m : PtpMsg) (ann : PtpAnn) (s : State) : Host.Outcome State Fault Refusal :=
  finish (s.ptpTake port m fun s =>
    let x := s.tport port
    let same := match x.ann with | some a => decide (a.sender = ann.sender ∧ a.port = ann.port) | none => false
    let s := s.modTport port fun x => { x with ann := some ann, annCount := if same then x.annCount + 1 else 1, annAt := s.now }
    let changed := s.time.slave = some port ∧ s.isBmca port = true ∧ x.ann.any (fun a => decide (a.gm ≠ ann.gm)) = true
    let s := if changed then s.masterLost 3 else s
    let s := if s.isBmca port then s.bmca else s
    s.parentData port ann)

/-- The dataset a master port announces: the followed master's, one step on, or this timekeeper's own. -/
def State.sentAnn (s : State) : PtpAnn :=
  match s.time.slave with
  | some p =>
    match (s.tport p).ann with
    | some a => { a with removed := a.removed + 1 }
    | none => s.ownAnn
  | none => s.ownAnn

/-- ANNOUNCE_TIMER of a port: a written ROLE takes effect, and a master port sends an Announce (R251). -/
def execAnnounceTimer (port : Nat) (s : State) : Host.Outcome State Fault Refusal :=
  finish (
    if s.time.running = true ∧ port < s.portCount ∧ s.linkUp port = true then
      let s := s.modTport port fun x => { x with role := fld (s.tportReg port 0) 29 3 }
      let s := if s.isBmca port then
          (if (s.tport port).state = .disabled then s.takeState port .listening else s).bmca
        else s.rerole
      if (s.tport port).state = .master then
        let a := s.sentAnn
        let q := (s.tport port).annSeq
        let body := zeros 10 ++ beBytes 2 a.utc.toNat ++ zeros 1 ++ [a.priority1, a.clkClass, a.accuracy] ++
          beBytes 2 a.variance.toNat ++ [a.priority2] ++ beBytes 8 a.gm.toNat ++ beBytes 2 a.removed.toNat ++ [a.source]
        (s.ptpSend port (s.ptpHeader port 11 64 a.flags.toNat 0 q (fld (s.tportReg port 0) 4 4) ++ body)).modTport port
          fun x => { x with annSeq := q + 1 }
      else s
    else s)

/-- A port's link has come up, or a parent or a head has changed (R232). -/
def State.timeLinks (s : State) : State :=
  if s.time.running then
    let s := s.rerole
    ((List.range s.portCount).filter fun p => s.isBmca p && decide ((s.tport p).state = .disabled)).foldl
      (fun s p => s.takeState p .listening) s
  else s

/-- Is a STANDBY port there whose sample is fresh, so that its parent can take the servo over without HOLDOVER (R242)? -/
def State.standbyReady (s : State) : Bool :=
  decide (s.time.servo ≠ .free) && (List.range s.portCount).any fun q =>
    decide ((s.tport q).state = .standby) && s.linkUp q && (s.tport q).last.isSome &&
      decide (s.now ≤ (s.tport q).lastAt + 2 * s.syncInterval q)

/-- A port's link is gone: its master with it (R241), or, with a STANDBY port ready, the servo goes on until the parent
changes (R242). -/
def State.timePortLost (s : State) (p : Nat) : State :=
  let s := if s.time.slave = some p ∧ s.standbyReady = true then
      s.modTport p fun x => { x with state := .disabled, sync := none, dreq := none, exch := none }
    else s.takeState p .disabled
  s.modTport p fun x => { x with ann := none, annCount := 0 }

/-! ### 1PPS (R247, R248) -/

/-- One second of fleet time. -/
def second : FT := 10 ^ 9 * ns

/-- The offset of an edge from the nearest whole second of PTP time. -/
def State.ppsOffset (s : State) (t : Int) : Int :=
  let r := (t + s.epochBase) % second
  if (second : Int) < 2 * r then r - second else r

/-- PPS_MISS: no edge for 2 s in SOURCE mode (R247). -/
def execPpsMiss (s : State) : Host.Outcome State Fault Refusal :=
  finish (
    if s.ppsSource then
      (s.advanceTo (match s.time.ppsPrev with | some t => t + 2 * second | none => s.now)).timeErr errPpsMiss
    else s)

/-- PPS_OUT_PULSE: PPS_OUT rises for the next whole second of PTP time, earlier by OUT_PS, and stays high for
WIDTH_US. A second that has had its pulse gets no second one (R244, R248). -/
def execPpsOutPulse (s : State) : Host.Outcome State Fault Refusal :=
  finish (
    let live := decide (s.time.servo = .locked) || decide (s.time.servo = .holdover)
    if bit (s.reg timePage 0xA0) 29 && live && s.time.running then
      let k := (s.now + s.epochBase) / second + 1
      let rise := ((k * second : Nat) : Int) - s.epochBase - psToFT (sgn 16 (s.regFld timePage 0xA4 0 16))
      if s.time.ppsLast < k then
        let s := s.advanceTo rise.toNat
        s.modTime fun t => { t with
          ppsOut := true, ppsLast := k,
          ppsFall := rise.toNat + clamp 1 500000 (s.regFld timePage 0xA0 0 24) * us }
      else s
    else s)

/-- The PPS_OUT ball: high while the width of its pulse has not passed (R248). -/
def State.ppsPin (s : State) : Bool := s.time.ppsOut && decide (s.now < s.time.ppsFall)

/-- A pulse of PPS_OUT is over once its width has passed, and KX_TIME_HOLD is refreshed: at each slow tick. -/
def State.timeTick (s : State) : State :=
  s.modTime fun t => { t with
    ppsOut := t.ppsOut && decide (s.now < t.ppsFall),
    holdMs := if t.servo = .holdover then min ((s.now - t.holdFrom) / ms) (2 ^ 32 - 1) else t.holdMs }

/-! ### Commands (R243, R252) -/

/-- Accept a relock at this timekeeper (R243): the detail of a refusal, or the state that gathers. -/
def State.relockStart (s : State) (t : Option FT) (page : Option (Bool × Nat)) : Except Nat State :=
  if s.time.servo = .free ∨ s.time.relock.isSome = true then .error 0x03
  else
    let arm (s : State) : State := s.modTime fun x => { x with
      relock := some { t, due := t.isNone, started := false, page }, samples := [] }
    match t with
    | none => .ok (arm s)
    | some t =>
      if t < s.now + 10 * us then .error 0x02
      else match s.evtAdd .relock t 0 with
        | some s => .ok (arm s)
        | none => .error 0x21

/-- NO_MASTER: a time command has met no SLAVE port and no PPS edge within 1 s of its acceptance (R252). -/
def execNoMaster (pkg : Bool) (page : BitVec 3) (s : State) : Host.Outcome State Fault Refusal :=
  finish (
    let n := page.toNat
    if s.time.relock.any (fun r => decide (r.page = some (pkg, n)) && !r.started) then s.relockFail 0x01
    else match s.time.setPps with
      | some (_, g, m) =>
        if g = pkg ∧ m = n then (s.modTime fun t => { t with setPps := none }).complete pkg n stError 0x01 else s
      | none => s)

/-- TIME_HOLD (R252): forces HOLDOVER from LOCKED, or releases it to R241. -/
def execTimeHold (c : CmdIn) (s : State) : Host.Outcome State Fault Refusal :=
  finish (runCmd c 0x30 0x0003 .firmware true
    (fun s =>
      if argFld c s 0 0 1 = 1 then
        match s.time.servo with
        | .locked => ((s.enterHoldover s.slaveCode 0).modTime fun t => { t with forced := true }).ok c
        | .holdover => (s.modTime fun t => { t with forced := true }).ok c
        | _ => s.failCmd c 0x03
      else (s.modTime fun t => { t with forced := false }).ok c) s)

end Sys2Proof.Machine
end

