-- ==== Sys2Proof/Machine/Geyser.lean ====
section
/-!
DEFINITION. Geyser capture (R113 to R117, R119, R120).
-/
namespace Sys2Proof.Machine

def gyPage : Nat := pg 0x11

/-- GI in units of fleet time (R113, R119). -/
def State.gyGI (s : State) : FT := 8 * s.regFld gyPage 0x40 0 12 * ns
def State.gyPre (s : State) : Nat := s.regFld gyPage 0x44 16 16
def State.gyPost (s : State) : Nat := s.regFld gyPage 0x44 0 16
def State.gyKind (s : State) : Nat := s.regFld gyPage 0x54 29 3

/-- The chosen units, in entry order (R119). -/
def State.gyUnits (s : State) : List Nat :=
  (List.range 32).flatMap fun j =>
    let w := s.reg gyPage (0x100 + 4 * j)
    (if bit w 15 then [fld w 0 13] else []) ++ (if bit w 31 then [fld w 16 13] else [])

def State.gyActive (s : State) : Bool :=
  decide (s.samp.geyser.state = .armed) || decide (s.samp.geyser.state = .pre) || decide (s.samp.geyser.state = .post)

def State.modGeyser (s : State) (f : Geyser → Geyser) : State :=
  { s with samp := { s.samp with geyser := f s.samp.geyser } }

/-- The first grid instant after `t`, and the first at or after it: multiples of GI (R113, R115). -/
def gridAfter (gi t : FT) : FT := (t / gi + 1) * gi
def gridAt (gi t : FT) : FT := (t + gi - 1) / gi * gi

/-- A sample record of a unit, its SEQ left at zero (record table). -/
def gyRecord (p : Nat) (x : Probe) : List Byte :=
  leBytes 2 (p % 2 ^ 13) ++ [x.gen] ++
  [BitVec.ofNat 8 (x.ustate.code * 64 + x.reason.toNat * 8 + (if x.fenced then 4 else 0) + (if x.glost then 2 else 0) +
    (if x.ghrst then 1 else 0))] ++
  zeros 4 ++ (List.range 19).flatMap (fun k => leBytes 2 (Tab.read bv16Zero x.gcount k).toNat) ++ zeros 2

/-- SEQ, a signed i32, in bytes 7:4 of a record. -/
def gySeq (seq : Int) (r : List Byte) : List Byte := r.take 4 ++ leBytes 4 (unsgn 32 seq) ++ r.drop 8

/-- A record of TYPE 1 (window start), 2 (window end) or 3 (overrun), with bytes 8 on. -/
def gyMark (ty : Nat) (body : List Byte) : List Byte := padTo 48 (leBytes 2 (ty * 2 ^ 13) ++ zeros 6 ++ body)

/-- Has the 48 KiB staging ring room for a record: the records before the trigger and those on their way to the host ring
stand in it (R114, R117). -/
def State.gyStages (s : State) : Bool :=
  decide (s.samp.geyser.staging.length + (s.ringWaiting geyserRing).length < 1024)

/-- Send one record where DEST says (R117). A record the host ring has no room for is dropped and counted,
and one overrun record follows once there is room. -/
def State.gyOut (s : State) (r : List Byte) : State :=
  let dest := s.regFld gyPage 0x40 12 2
  let s := if dest / 2 = 1 then s.sendTyp 0x50 .up r else s
  if dest % 2 = 0 then s
  else
    let s := if s.samp.geyser.owed ≠ 0 ∧ s.ringRoom geyserRing 48 = true ∧ s.gyStages = true then
        (s.ringPut geyserRing (gyMark 3 (leBytes 4 s.samp.geyser.owed))).modGeyser fun g => { g with owed := 0 }
      else s
    if s.ringRoom geyserRing 48 && s.gyStages then s.ringPut geyserRing r
    else s.modGeyser fun g => { g with overrun := satAdd 24 g.overrun 1, owed := g.owed + 1 }

/-- The window-start record and the staged records from sample −PRE on (R115). -/
def State.gyOpen (s : State) (z : FT) : State :=
  let gi := s.gyGI
  let pre := s.gyPre
  let s := s.gyOut (gyMark 1 (leBytes 10 z ++ leBytes 2 (s.regFld gyPage 0x40 0 12) ++
    leBytes 2 s.gyUnits.length ++ [BitVec.ofNat 8 s.gyKind] ++ zeros 1 ++ leBytes 4 pre ++
    leBytes 4 s.gyPost))
  let kept := s.samp.geyser.staging.filter fun e => decide (z ≤ e.1 + pre * gi)
  let s := kept.foldl (fun s e => s.gyOut (gySeq (((e.1 : Int) - z) / gi) e.2)) s
  s.modGeyser fun g => { g with staging := [] }

/-- The window ends: its end record, and STATE DONE (R115, R116). -/
def State.gyEnd (s : State) (snuffed : Bool) : State :=
  let s := s.gyOut (gyMark 2 (leBytes 10 s.ft ++ [if snuffed then 1 else 0]))
  let s := match s.samp.geyser.page with
    | some (pkg, n) => (s.evtDrop .geyser 0).complete pkg n stOk 0
    | none => s
  s.modGeyser fun g => { g with state := .done, zero := none, staging := [], page := none }

/-- A Snuff meets the window (R116): one that runs ends there; one that has not started does not start, and
the command that waits for T completes SNUFFED. -/
def State.gySnuff (s : State) : State :=
  match s.samp.geyser.page with
  | some (pkg, n) =>
    if s.samp.geyser.state = .armed then
      ((s.evtDrop .geyser 0).complete pkg n stSnuffed 0).modGeyser fun g => { g with state := .done, zero := none, staging := [], page := none }
    else ((s.evtDrop .geyser 0).complete pkg n stOk 0).gyEnd true
  | none =>
    if s.samp.geyser.state = .armed then s.modGeyser fun g => { g with state := .done, zero := none, staging := [], page := none }
    else if s.gyActive then s.gyEnd true else s

/-- GEYSER_ARM (R114, R115, R116, R120). -/
def gyArm (c : CmdIn) (s : State) : State :=
  let units := s.gyUnits
  let gi := s.gyGI
  let kind := s.gyKind
  let start (z : Option FT) (st : GeyserState) (nx : FT) (pg : Option (Bool × Nat)) : State :=
    s.modGeyser fun g =>
      { g with state := st, zero := z, entity := argFld c s 0 0 14, next := nx, seq := 0, staging := [],
               overrun := 0, owed := 0, page := pg }
  if s.gyActive then s.failCmd c 4
  else if 32 * (gi / ns) < 480 * units.length ∨ 512 < s.gyPre * units.length then s.done c stBadArg 3
  else if kind = 3 ∧ Config.entities ≤ argFld c s 0 0 14 then s.failCmd c 2
  else if 4 < kind ∨ (kind = 0 ∧ s.gyPre ≠ 0) then s.badArg c
  else if s.snuff.state = .cut then s.done c stSnuffed 0
  else if kind = 0 then
    let z := gridAfter gi s.now
    (start (some z) .armed z none).ok c
  else if kind = 1 then
    let t0 := truncFT (s.regWide gyPage 0x48 3)
    let t := gridAt gi t0
    if t0 < s.now + s.gyPre * gi + 10 * us then s.failCmd c 1
    else match (start (some t) .armed (t - s.gyPre * gi) (some (c.pkg, c.page.toNat))).evtAdd .geyser t 0 with
      | some s => s.waitFor c (.time t)
      | none => s.failCmd c 0x21
  else (start none .armed (gridAfter gi s.now) none).ok c

/-- GEYSER_ARM. -/
def execGeyserArm (c : CmdIn) (s : State) : Host.Outcome State Fault Refusal :=
  finish (runCmd c 0x10 0x0010 .operator s.isDie (gyArm c) s)

/-- GEYSER_STOP: an active window ends with its end record; one that waits for T leaves it (R115, R120). -/
def gyStop (c : CmdIn) (s : State) : State :=
  let s := match s.samp.geyser.page with
    | some (pkg, n) => (s.evtDrop .geyser 0).complete pkg n stOk 0
    | none => s
  (if s.gyActive then s.gyEnd false else s).ok c

def execGeyserStop (c : CmdIn) (s : State) : Host.Outcome State Fault Refusal :=
  finish (runCmd c 0x10 0x0011 .operator s.isDie (gyStop c) s)

/-- Does a trigger match the armed configuration (R115, TRIG_SRC of R119)? -/
def State.gyMatches (s : State) : GeyserTrigger → Bool
  | .fleetTime => decide (s.gyKind = 1)
  | .event p l =>
    decide (s.gyKind = 2) && decide (s.regFld gyPage 0x54 16 13 = p) && decide (s.regFld gyPage 0x54 12 4 = l.toNat)
  | .verdict e v =>
    decide (s.gyKind = 3) && decide (s.regFld gyPage 0x54 0 8 = v.toNat) &&
      (bit (s.reg gyPage 0x54) 8 || decide (s.samp.geyser.entity = e))
  | .trigIn l => decide (s.gyKind = 4) && decide (s.regFld gyPage 0x54 12 2 = l.toNat)

/-- A trigger of the armed kind fixes sample 0 at the first grid instant after it (R115). -/
def State.gyTrigger (s : State) (t : GeyserTrigger) : State :=
  if s.samp.geyser.state = .armed ∧ s.samp.geyser.zero = none ∧ s.gyMatches t = true then
    let z := gridAfter s.gyGI s.now
    (s.modGeyser fun g => { g with zero := some z, state := .pre }).gyOpen z
  else s

/-- GEYSER_TRIGGER (R115, R245). The arrival of a fleet-time trigger's T completes the command that waits
for it; its sample 0 was fixed when it was armed. -/
def execGeyserTrigger (t : GeyserTrigger) (s : State) : Host.Outcome State Fault Refusal :=
  finish (match t with
    | .fleetTime =>
      match s.samp.geyser.page, s.samp.geyser.zero with
      | some (pkg, n), some z =>
        if s.gyKind = 1 ∧ s.gyActive = true ∧ s.earlierDue z 5 = false then
          (((s.advanceTo z).evtDrop .geyser 0).complete pkg n stOk 0).modGeyser fun g => { g with page := none }
        else s
      | _, _ => s
    | _ => s.gyTrigger t)

/-- One unit's sample at a grid instant: sent with its SEQ once sample 0 is fixed, staged before (R115). -/
def State.gySampleUnit (s : State) (p : Nat) : State :=
  let g := s.samp.geyser
  let r := gyRecord p (gyRoll (g.next - s.gyGI) (s.probe p))
  let s := s.modProbe p (gyRoll g.next)
  match g.zero with
  | some z => s.gyOut (gySeq (((g.next : Int) - z) / s.gyGI) r)
  | none =>
    let room := s.gyPre * s.gyUnits.length
    s.modGeyser fun g =>
      let l := g.staging ++ [(g.next, r)]
      { g with staging := l.drop (l.length - room) }

/-- GEYSER_SAMPLE at the next grid instant (R113, R115): the window opens at its first sample for kind 1, and
ends after sample POST − 1. -/
def gySample (s : State) : State :=
  if s.gyActive && !s.earlierDue s.samp.geyser.next 5 then
    let g := s.samp.geyser
    let s := s.advanceTo g.next
    let s := match g.zero with
      | some z =>
        let s := if g.state = GeyserState.armed ∧ s.gyKind < 2 then s.gyOpen z else s
        s.modGeyser fun h => { h with state := if z ≤ g.next then .post else .pre }
      | none => s
    let past := match g.zero with
      | some z => decide (z + s.gyPost * s.gyGI ≤ g.next)
      | none => false
    let s := if past then s else s.gyUnits.foldl State.gySampleUnit s
    let s := s.modGeyser fun h => { h with next := g.next + s.gyGI }
    match g.zero with
    | some z => if z + (s.gyPost : FT) * s.gyGI ≤ g.next + s.gyGI then s.gyEnd false else s
    | none => s
  else s

def execGeyserSample (s : State) : Host.Outcome State Fault Refusal := finish (gySample s)

/-- Space has returned in the ring: an owed overrun record is written (R117). -/
def State.gyRoom (s : State) : State :=
  if s.samp.geyser.owed ≠ 0 ∧ s.ringRoom geyserRing 48 = true then
    (s.ringPut geyserRing (gyMark 3 (leBytes 4 s.samp.geyser.owed))).modGeyser fun g => { g with owed := 0 }
  else s

end Sys2Proof.Machine
end

