-- ==== Sys2Proof/Machine/RedArith.lean ====
section
/-!
DEFINITION. The exact arithmetic of the reduction engine: conversion of elements (R130, R131), the operators'
identity, insertion and merge (R134 to R137), the trackers (R139, R140), the readouts (R136, R138, R160) and
the bytes of a slot record (R156, R157).
-/
namespace Sys2Proof.Machine

def i64Max : Int := 2 ^ 63 - 1
def i64Min : Int := -(2 ^ 63)
def u128Max : Nat := 2 ^ 128 - 1

/-! ### Conversion of inputs -/

/-- Shift right, rounding to nearest with ties to even (R131). -/
def rneShr (v n : Nat) : Nat :=
  if n = 0 then v
  else if 128 ≤ n then 0
  else
    let q := v / 2 ^ n
    let rem := v % 2 ^ n
    let half := 2 ^ (n - 1)
    if half < rem ∨ (rem = half ∧ q % 2 = 1) then q + 1 else q

/-- The same of a signed number (R139). -/
def rneShrInt (v : Int) (n : Nat) : Int :=
  if 0 ≤ v then (rneShr v.toNat n : Int) else -(rneShr (-v).toNat n : Int)

/-- A converted element: its raw value, and whether it is a NaN or saturated. -/
structure Raw where
  v   : Int
  nan : Bool
  sat : Bool
deriving DecidableEq, Repr

/-- binary32 to raw Q32.32 (R131). -/
def f32ToRaw (b : Nat) : Raw :=
  let s := decide (b / 2 ^ 31 % 2 = 1)
  let e0 := b / 2 ^ 23 % 256
  let m0 := b % 2 ^ 23
  if e0 = 255 then
    if m0 ≠ 0 then { v := 0, nan := true, sat := false }
    else { v := if s then i64Min else i64Max, nan := false, sat := true }
  else
    let e := if e0 = 0 then 1 else e0
    let m := if e0 = 0 then m0 else m0 + 2 ^ 23
    let mag := if 118 + 64 < e then u128Max else if 118 ≤ e then m * 2 ^ (e - 118) else rneShr m (118 - e)
    let lim := if s then 2 ^ 63 else 2 ^ 63 - 1
    let sat := decide (lim < mag)
    let mag := min mag lim
    { v := if s then -(mag : Int) else mag, nan := false, sat }

/-- binary16 widened to binary32, exactly (R131). -/
def f16To32 (h : Nat) : Nat :=
  let s := h / 2 ^ 15 % 2
  let e := h / 2 ^ 10 % 32
  let m := h % 2 ^ 10
  let body :=
    if e = 31 then 255 * 2 ^ 23 + m * 2 ^ 13
    else if e ≠ 0 then (e + 112) * 2 ^ 23 + m * 2 ^ 13
    else if m = 0 then 0
    else (m.log2 + 103) * 2 ^ 23 + m * 2 ^ (23 - m.log2) % 2 ^ 23
  s * 2 ^ 31 + body

/-- bfloat16 widened to binary32 (R131). -/
def bf16To32 (h : Nat) : Nat := h % 2 ^ 16 * 2 ^ 16

/-- A value saturated to i64. -/
def satI64 (v : Int) : Int := clampInt i64Min i64Max v

/-- An integer value in its domain (R130). -/
def intRaw (dom : Bool) (v : Int) : Raw :=
  let r := if dom then v * 2 ^ 32 else v
  { v := satI64 r, nan := false, sat := decide (satI64 r ≠ r) }

/-- The raw value of a source value in a format (R124, R130, R131): `w` is the register word or the number. -/
def toRaw (fmt : Nat) (dom : Bool) (v : Int) : Raw :=
  match fmt with
  | 1 => f32ToRaw v.toNat
  | 2 => f32ToRaw (f16To32 v.toNat)
  | 3 => f32ToRaw (bf16To32 v.toNat)
  | 4 => intRaw dom (sgn 32 v.toNat)
  | _ => intRaw dom v

/-- A scaled parameter: the signed word shifted left by PSHIFT, as an i64 (R128). -/
def scaled (p : Word) (shift : Nat) : Int := sgn 64 (unsgn 64 (sgn 32 p.toNat * 2 ^ shift))

/-! ### Histogram buckets (R137) -/

/-- The table B of R137. -/
def histEdges : List Nat := [5932, 12400, 19454, 27146, 35535, 44682, 54658]

/-- The table G of R138. -/
def histMids : List Nat := [34219, 37316, 40693, 44376, 48393, 52773, 57549, 62757]

/-- Where a raw value counts: UNDER, OVER or a bucket. -/
inductive HistPlace where
  | under | above | bucket (i : Nat)
deriving DecidableEq, Repr

def histPlace (l : Nat) (r : Int) : HistPlace :=
  if r ≤ 0 then .under
  else
    let n := r.toNat
    let e := n.log2
    let f := (if 16 ≤ e then n / 2 ^ (e - 16) else n * 2 ^ (16 - e)) % 2 ^ 16
    let s := (histEdges.filter fun b => decide (b ≤ f)).length
    if e < l then .under else if l + 32 ≤ e then .above else .bucket (8 * (e - l) + s)

/-! ### Operators (R134 to R136) -/

/-- The identity state of a rule's operator; the reset state of a tracker. -/
def opIdentity : Oper → OpState
  | .sum => .sum 0 0
  | .sumsq => .sumsq 0
  | .min => .min i64Max 0xFFFFFFFF
  | .max => .max i64Min 0xFFFFFFFF
  | .count => .count 0
  | .ratio => .ratio 0 0 0 0
  | .hist => .hist 0 0 []
  | .topk => .topk []
  | .ewma => .ewma 0 0 0
  | .cusum => .cusum 0 0 0 0

/-- Does `x` come before `y` in TOPK's order (R135)? -/
def topkBefore (smallest : Bool) (x y : Int × Nat) : Bool :=
  if x.1 ≠ y.1 then (if smallest then decide (x.1 < y.1) else decide (y.1 < x.1)) else decide (x.2 ≤ y.2)

/-- Insert a pair into an ordered list. -/
def topkInsert (smallest : Bool) (x : Int × Nat) : List (Int × Nat) → List (Int × Nat)
  | [] => [x]
  | y :: ys => if topkBefore smallest x y then x :: y :: ys else y :: topkInsert smallest x ys

/-- The first `k` pairs of the union, in order. -/
def topkMerge (k : Nat) (smallest : Bool) (a b : List (Int × Nat)) : List (Int × Nat) :=
  (b.foldl (fun l x => topkInsert smallest x l) a).take k

/-- K and SMALLEST of a TOPK rule (R128). -/
def ruleK (r : Rule) : Nat := fld r.p0 0 5
def ruleSmallest (r : Rule) : Bool := bit r.p0 8

/-- A sum of counts with a cap, and whether it was reached. -/
def capAdd (cap a b : Nat) : Nat × Bool := (min (a + b) cap, decide (cap < a + b))

/-- Bucket counts added entry by entry, each capped (R134). -/
def histAdd (a b : Tab Nat) : Tab Nat × Bool :=
  b.foldl (fun r e =>
    let x := capAdd (2 ^ 32 - 1) (Tab.read natZero r.1 e.1) e.2
    (Tab.write natZero r.1 e.1 x.1, r.2 || x.2)) (a, false)

/-- Merge two states of one rule; the flag says that a cap was reached (R134). -/
def opMerge (r : Rule) (a b : OpState) : OpState × Bool :=
  match a, b with
  | .sum ap am, .sum bp bm =>
    let p := capAdd u128Max ap bp
    let m := capAdd u128Max am bm
    (.sum p.1 m.1, p.2 || m.2)
  | .sumsq x, .sumsq y => let v := capAdd u128Max x y; (.sumsq v.1, v.2)
  | .min v i, .min w j => (if w < v ∨ (w = v ∧ j < i) then .min w j else .min v i, false)
  | .max v i, .max w j => (if v < w ∨ (w = v ∧ j < i) then .max w j else .max v i, false)
  | .count x, .count y => let v := capAdd (2 ^ 64 - 1) x y; (.count v.1, v.2)
  | .ratio a1 a2 a3 a4, .ratio b1 b2 b3 b4 =>
    let x := capAdd u128Max a1 b1
    let y := capAdd u128Max a2 b2
    let z := capAdd u128Max a3 b3
    let w := capAdd u128Max a4 b4
    (.ratio x.1 y.1 z.1 w.1, x.2 || y.2 || z.2 || w.2)
  | .hist au ao ac, .hist bu bo bc =>
    let u := capAdd (2 ^ 32 - 1) au bu
    let o := capAdd (2 ^ 32 - 1) ao bo
    let c := histAdd ac bc
    (.hist u.1 o.1 c.1, u.2 || o.2 || c.2)
  | .topk x, .topk y => (.topk (topkMerge (ruleK r) (ruleSmallest r) x y), false)
  | a, _ => (a, false)

/-- Does a COUNT rule count the value (R128)? -/
def countCmp (r : Rule) (x : Int) : Bool :=
  let t := scaled r.p1 r.pshift
  match fld r.p0 0 3 with
  | 0 => true
  | 1 => decide (t ≤ x)
  | 2 => decide (x < t)
  | 3 => decide (x ≠ 0)
  | _ => decide (x = t)

/-- The state of the single element `x` with identifier `id` and, for RATIO, its denominator element. -/
def opSingle (r : Rule) (x : Int) (id : Nat) (den : Int) : OpState :=
  match r.oper with
  | .sum => .sum x.toNat (-x).toNat
  | .sumsq => .sumsq (x.natAbs * x.natAbs)
  | .min => .min x id
  | .max => .max x id
  | .count => .count (if countCmp r x then 1 else 0)
  | .ratio => .ratio x.toNat (-x).toNat den.toNat (-den).toNat
  | .hist => match histPlace (fld r.p0 0 6) x with
    | .under => .hist 1 0 []
    | .above => .hist 0 1 []
    | .bucket i => .hist 0 0 [(i, 1)]
  | .topk => .topk [(x, id)]
  | .ewma => .ewma 0 0 0
  | .cusum => .cusum 0 0 0 0

/-- Fill in the identifiers a level adds to a child's elements on ingest (R126): `add` to every identifier. -/
def opFill (lo len v : Nat) : OpState → OpState
  | .min w i => .min w (if i = 0xFFFFFFFF then i else (setFld (word i) lo len v).toNat)
  | .max w i => .max w (if i = 0xFFFFFFFF then i else (setFld (word i) lo len v).toNat)
  | .topk l => .topk (l.map fun p => (p.1, (setFld (word p.2) lo len v).toNat))
  | o => o

/-! ### Readouts -/

/-- The Q32.32 quotient, rounded to nearest, ties to even (R136): value, DIV0, SAT. -/
def ratioQ (np nm dp dm : Nat) : Int × Bool × Bool :=
  let n : Int := np - nm
  let d : Int := dp - dm
  if d = 0 then (0, true, false)
  else
    let neg := decide (n < 0) != decide (d < 0)
    let a := n.natAbs * 2 ^ 32
    let b := d.natAbs
    let q0 := a / b
    let r := a % b
    let q := if b < 2 * r ∨ (2 * r = b ∧ q0 % 2 = 1) then q0 + 1 else q0
    let lim := if neg then 2 ^ 63 else 2 ^ 63 - 1
    let v := min q lim
    (if neg then -(v : Int) else v, false, decide (lim < q))

/-- Where a quantile was found (QINFO, R161): 0 bucket, 1 UNDER, 2 OVER, 3 empty. -/
structure Quant where
  v      : Int
  where_ : Nat
  bucket : Nat
deriving DecidableEq, Repr

/-- The geometric midpoint of bucket `i` (R138). -/
def histRep (i l : Nat) : Int :=
  let e := l + i / 8
  let g := histMids.getD (i % 8) 0
  if 15 ≤ e then (g * 2 ^ (e - 15) : Nat) else (rneShr g (15 - e) : Nat)

/-- The first bucket, in order, whose running count reaches `rank`. -/
def histFind (rank : Nat) : Nat → Tab Nat → Option Nat
  | _, [] => none
  | run, (i, c) :: t => if rank ≤ run + c then some i else histFind rank (run + c) t

/-- The quantile readout (R138). -/
def histQuantile (under above : Nat) (c : Tab Nat) (qp l : Nat) : Quant :=
  let n := under + above + (c.map (·.2)).sum
  if n = 0 then { v := 0, where_ := 3, bucket := 0 }
  else
    let rank := max 1 ((qp * n + 0xFFFF) / 2 ^ 16)
    if rank ≤ under then { v := 2 ^ l, where_ := 1, bucket := 0 }
    else match histFind rank under c with
      | some i => { v := histRep i l, where_ := 0, bucket := i }
      | none => { v := if l + 32 ≤ 62 then 2 ^ (l + 32) else i64Max, where_ := 2, bucket := 0 }

/-- The sum of a SUM state, saturated to i128, and SAT (R134). -/
def sumValue (p m : Nat) : Int × Bool :=
  let v : Int := p - m
  let c := clampInt (-(2 ^ 127)) (2 ^ 127 - 1) v
  (c, decide (c ≠ v) || decide (p = u128Max) || decide (m = u128Max))

/-- A value saturated to i64, and SAT. -/
def satOf (v : Int) (sat : Bool) : Int × Bool := (satI64 v, sat || decide (satI64 v ≠ v))

/-- The scalar of a state (R160) with SAT and DIV0. An EMPTY slot's is 0. -/
def opScalar (r : Rule) (o : OpState) : Int × Bool × Bool :=
  match o with
  | .sum p m => let v := sumValue p m; let s := satOf v.1 v.2; (s.1, s.2, false)
  | .sumsq v => let s := satOf v (decide (v = u128Max)); (s.1, s.2, false)
  | .min v _ => (v, false, false)
  | .max v _ => (v, false, false)
  | .count n => let s := satOf n false; (s.1, s.2, false)
  | .ratio a b c d => let q := ratioQ a b c d; (q.1, q.2.2, q.2.1)
  | .hist u ov c => ((histQuantile u ov c (fld r.p1 0 16) (fld r.p0 0 6)).v, false, false)
  | .topk l => (match l with | [] => 0 | p :: _ => p.1, false, false)
  | .ewma y _ _ => (satI64 (rneShrInt y 32), false, false)
  | .cusum p n _ _ => let s := satOf (if n ≤ p then p else -n) false; (s.1, s.2, false)

/-! ### Trackers (R139, R140): the new state and the alarm, 0 none, 1 EWMA, 2 CUSUM up, 3 CUSUM down -/

def trackerStep (r : Rule) (st : Option OpState) (x : Int) : OpState × Nat :=
  match r.oper with
  | .ewma =>
    match st with
    | some (.ewma y _ n) =>
      let dev := x - rneShrInt y 32
      let a := scaled r.p1 r.pshift
      (.ewma (y + floorDiv (x * 2 ^ 32 - y) (2 ^ fld r.p0 0 6)) x (satAdd 32 n 1),
        if a ≠ 0 ∧ a < (dev.natAbs : Int) then 1 else 0)
    | _ => (.ewma (x * 2 ^ 32) x 1, 0)
  | _ =>
    let sp0 := match st with | some (.cusum p _ _ _) => p | _ => 0
    let sn0 := match st with | some (.cusum _ n _ _) => n | _ => 0
    let al := match st with | some (.cusum _ _ k _) => k | _ => 0
    let last := match st with | some (.cusum _ _ _ l) => l | _ => 0
    let mu := scaled r.p0 r.pshift
    let ka := scaled r.p1 r.pshift
    let h := scaled r.p2 r.pshift
    let sp := max 0 (sp0 + (x - mu - ka))
    let sn := max 0 (sn0 + (mu - ka - x))
    if h < sp then (.cusum 0 0 (satAdd 32 al 1) 1, 2)
    else if h < sn then (.cusum 0 0 (satAdd 32 al 1) 2, 3)
    else (.cusum sp sn al last, 0)

/-! ### Bytes of a slot record (R156, R157) -/

def i64Bytes (v : Int) : List Byte := leBytes 8 (unsgn 64 v)
def i128Bytes (v : Int) : List Byte := leBytes 16 (unsgn 128 (clampInt (-(2 ^ 127)) (2 ^ 127 - 1) v))

/-- The payload, from byte 64 on. `k` is a TOPK rule's K. -/
def opBytes (k : Nat) : OpState → List Byte
  | .sum p m => i128Bytes (sumValue p m).1 ++ leBytes 16 p ++ leBytes 16 m
  | .sumsq v => leBytes 16 v
  | .min v i => i64Bytes v ++ leBytes 4 i ++ zeros 4
  | .max v i => i64Bytes v ++ leBytes 4 i ++ zeros 4
  | .count n => leBytes 8 n
  | .ratio a b c d =>
    i64Bytes (ratioQ a b c d).1 ++ i128Bytes ((a : Int) - b) ++ i128Bytes ((c : Int) - d) ++
    leBytes 16 a ++ leBytes 16 b ++ leBytes 16 c ++ leBytes 16 d
  | .hist u o c =>
    leBytes 4 u ++ leBytes 4 o ++ (List.range 256).flatMap fun i => leBytes 4 (Tab.read natZero c i)
  | .topk l =>
    leBytes 4 l.length ++ leBytes 4 k ++ l.flatMap fun p => i64Bytes p.1 ++ leBytes 4 p.2 ++ zeros 4
  | .ewma y x n => i128Bytes y ++ i64Bytes x ++ leBytes 4 n
  | .cusum p n al last => i128Bytes p ++ i128Bytes n ++ leBytes 4 al ++ leBytes 4 last

/-- FT80 bytes of an instant (R5): 80 bits, little-endian. -/
def ftBytes (t : FT) : List Byte := leBytes 10 (truncFT t)

/-- A slot record's bytes. -/
def slotBytes (x : SlotRec) : List Byte :=
  leBytes 4 x.stat.toNat ++ leBytes 4 x.chk.toNat ++ leBytes 8 x.window ++ leBytes 4 x.units ++
  leBytes 4 x.dies ++ ftBytes x.close ++ zeros 6 ++ i64Bytes x.scalar ++ zeros 16 ++ opBytes x.k x.op

end Sys2Proof.Machine
end

