-- ==== Sys2Proof/Machine/Red.lean ====
section
/-!
DEFINITION. The reduction engine: elements, windows, emission, trackers, partials and activation (R121 to
R152, R155). Node 0 is the block's own window, node 1 the package window of a head.
-/
namespace Sys2Proof.Machine

def State.red (s : State) (sc : Nat) : Red := Tab.read Red.reset s.reds.nodes sc

def State.modRed (s : State) (sc : Nat) (f : Red → Red) : State :=
  { s with reds := { s.reds with nodes := Tab.modify Red.reset s.reds.nodes sc f } }

/-- The node's RED page. -/
def redPage (sc : Nat) : Nat := pageKey 0x18 0 sc

/-- Measurement indices of the active and of the inactive copy (R491). -/
def redItem (sc : Nat) (inactive : Bool) : Nat := 0x10 + (if inactive then 1 else 0) + 0x100 * sc

/-- The level at which the node stands, in the encoding of DEST (R127). -/
def State.redLevel (s : State) (sc : Nat) : Nat :=
  if s.isSystem then (if s.straps.cascade then 3 else 2) else sc

/-- A port is usable toward its partner: UP, or the trained standby. -/
def State.portUp (s : State) (p : Nat) : Bool :=
  decide ((s.port p).state = .up) || decide ((s.port p).state = .standby)

/-- Does a path exist above the node (R142)? -/
def State.redAbove (s : State) (sc : Nat) : Bool :=
  if s.isSystem then !s.straps.cascade && (s.portUp 32 || s.portUp 33 || s.portUp 35)
  else if sc = 0 then s.pkg.head.isSome
  else s.portUp 7 || s.portUp 8

/-- The node is where the rule's output ends (R142). -/
def State.redFinal (s : State) (sc : Nat) (r : Rule) : Bool :=
  decide (r.dest ≤ s.redLevel sc) || !s.redAbove sc

/-- The rules of the active program that the node runs: a node above DEST does nothing with a rule (R142). -/
def State.redRules (s : State) (sc : Nat) : List Rule :=
  (s.red sc).active.rules.filter fun r => decide (s.redLevel sc ≤ r.dest)

def State.redRule (s : State) (sc slot : Nat) : Option Rule :=
  (s.redRules sc).find? fun r => decide (r.slot = slot)

/-- The liveness table says ABSENT of watched child `w` (R144, R338). -/
def State.childAbsent (s : State) (w : Nat) : Bool := decide ((Tab.read Watch.reset s.svc.watch w).level = .absent)

/-- A peer of tray `t` stands on a trained uplink (R144, R281). -/
def State.trayLinked (s : State) (t : Nat) : Bool :=
  s.links.peers.any fun e => e.2.valid && decide (fld e.2.node 8 6 = t) && s.portUp (32 + e.2.port.toNat)

/-- The children a merging node expects: those whose link is trained and that are not ABSENT (R144). -/
def State.redChildren (s : State) : List (BitVec 16) :=
  if s.isSystem then
    if s.straps.cascade then
      (s.links.trays.filter fun t => s.trayLinked t && !s.childAbsent t).map fun t => nodeOf 2 t 0 0
    else ((List.range 32).filter fun p => s.portUp p && !s.childAbsent p).map fun p => nodeOf 0 s.links.tray p 0
  else
    s.node :: (s.otherDies.filter fun d => s.portUp (s.diePort d) && !s.childAbsent d).map fun d =>
      nodeOf 0 s.links.tray s.links.down d

/-- The number by which a merging node knows a child: its die, its downlink, or its tray (R126). -/
def State.childOf (s : State) (src : BitVec 16) : Nat :=
  if s.isSystem then (if s.straps.cascade then fld src 8 6 else fld src 3 5) else fld src 0 3

/-! ### Slot flags (R156) -/

def flStale : Nat := 30
def flSat : Nat := 28
def flNan : Nat := 26
def flDiv0 : Nat := 24
def flMismatch : Nat := 23
def flShort : Nat := 21

/-- The flags that a partial carries and a merge ORs (R143, R148). -/
def flagMask : Word := 0x55BE0000

/-- The RED page's error bits for flags: SAT, NAN, DIV0, MISMATCH (R161). -/
def State.redErr (s : State) (sc : Nat) (flags : Word) : State :=
  let s := if bit flags flSat then s.setErr (redPage sc) 16 else s
  let s := if bit flags flNan then s.setErr (redPage sc) 17 else s
  let s := if bit flags flDiv0 then s.setErr (redPage sc) 18 else s
  if bit flags flMismatch then s.setErr (redPage sc) 19 else s

/-- SAT_STICKY and NAN_STICKY (R132). -/
def stickyOf (flags : Word) : Word :=
  (if bit flags flSat then bw 27 else 0) ||| (if bit flags flNan then bw 25 else 0)

/-! ### Open windows -/

def freshWin (r : Rule) (window : Nat) (short : Bool) : Win :=
  { slot := r.slot, window, flags := if short then bw 21 else 0, units := 0, dies := 0, op := opIdentity r.oper,
    got := [], expected := none, close := 0, since := 0 }

def State.redWin (s : State) (sc slot window : Nat) : Option Win :=
  (s.red sc).wins.find? fun w => decide (w.slot = slot) && decide (w.window = window)

def State.setWin (s : State) (sc : Nat) (w : Win) : State :=
  s.modRed sc fun n => { n with
    wins := (n.wins.filter fun v => !(decide (v.slot = w.slot) && decide (v.window = w.window))) ++ [w] }

def State.dropWin (s : State) (sc slot window : Nat) : State :=
  s.modRed sc fun n => { n with
    wins := n.wins.filter fun v => !(decide (v.slot = slot) && decide (v.window = window)) }

/-! ### Elements (R124 to R126) -/

/-- An element before conversion: its identifier, its value, and its RATIO denominator as a raw value. -/
structure Feed where
  id  : Nat
  v   : Int
  den : Raw

def State.elemId (s : State) (kind num : Nat) : Nat :=
  kind * 2 ^ 28 + s.straps.dieIdx.toNat * 2 ^ 14 + num % 2 ^ 14

/-- The units a PROBE rule selects (R125): present, not fenced, not of an ABSENT region. -/
def State.maskUnits (s : State) (sc : Nat) (r : Rule) : List Nat :=
  let all := (List.range s.samp.units).filter fun p => s.present p && !(s.probe p).fenced && !s.absent p
  match r.mask with
  | 1 => all.filter fun p => decide ((s.probe p).job.toNat = fld r.maskArg 0 16)
  | 2 => all.filter fun p => bit (BitVec.ofNat 8 (((((s.red sc).active.sets.getD (fld r.maskArg 0 4) []).getD (p / 8) 0)).toNat)) (p % 8)
  | 3 => all.filter fun p => decide (fld r.maskArg 0 14 ≤ p) && decide (p < fld r.maskArg 0 14 + fld r.maskArg 16 15)
  | _ => all

/-- The sum of the counters of a set among the deltas that arrived (R124). -/
def setSum (set : Nat) (x : Probe) : Nat :=
  (x.arr.map fun e => if bit (word set) e.1 then e.2.toNat else 0).sum

/-- The denominator element of a RATIO rule (R136). -/
def denOf (r : Rule) (x : Probe) : Raw :=
  match fld r.p0 29 3 with
  | 0 => intRaw r.dom (setSum (fld r.p0 0 19) x)
  | 1 => intRaw r.dom 1
  | _ => { v := 0, nan := false, sat := false }

def denPlain (r : Rule) : Raw :=
  if fld r.p0 29 3 = 1 then intRaw r.dom 1 else { v := 0, nan := false, sat := false }

/-- Is element number `n` in the rule's range (R125)? -/
def inMask (r : Rule) (n : Nat) : Bool :=
  r.mask ≠ 3 || (decide (fld r.maskArg 0 14 ≤ n) && decide (n < fld r.maskArg 0 14 + fld r.maskArg 16 15))

/-- The value of a tile report under a selector of CHECK (R124). -/
def tileValue (sel : Nat) (t : TileElem) : Nat :=
  match sel with
  | 0 => t.diff.toNat | 1 => t.tmin.toNat | 2 => t.tmax.toNat | 3 => t.nans | _ => t.infs

/-- The elements of a rule at this close. `sens` gives the readings of a sensor code by element number. SLOT
rules take their element when their source is emitted. -/
def State.redElems (s : State) (sens : Nat → List (Nat × Int)) (sc : Nat) (r : Rule) : List Feed :=
  let plain (kind : Nat) (l : List (Nat × Int)) : List Feed :=
    (l.filter fun e => inMask r e.1).map fun e => { id := s.elemId kind e.1, v := e.2, den := denPlain r }
  if s.isSystem then []
  else match r.src with
  | 0 => ((s.maskUnits sc r).filter fun p => (s.probe p).arrived).map fun p =>
      { id := s.elemId 0 p, v := setSum r.sel (s.probe p), den := denOf r (s.probe p) }
  | 1 => (List.range' (r.sel % 64) (fld r.maskArg 16 15)).map fun i =>
      { id := s.elemId 2 i, v := (s.reg (pg 0x18) (0x100 + 4 * i)).toNat, den := denPlain r }
  | 2 => plain 3 (sens (r.sel % 256))
  | 3 => plain 5 (s.reds.tiles.map fun t => (t.probe, (tileValue (r.sel % 8) t : Int)))
  | 4 => plain 1 (s.reds.verdicts.map fun v => (v.1, if r.sel % 2 = 0 then (v.2.1 : Int) else v.2.2))
  | 5 => plain 4 ((s.reds.services.filter fun v => decide (v.1 = r.sel % 256)).map fun v => (0, (v.2 : Int)))
  | _ => []

/-- Insert one element into a window (R132, R134). -/
def feedWin (r : Rule) (w : Win) (f : Feed) : Win :=
  let x := toRaw r.fmt r.dom f.v
  if x.nan then { w with flags := setBit w.flags flNan true }
  else
    let m := opMerge r w.op (opSingle r x.v f.id f.den.v)
    { w with
      op := m.1, units := satAdd 32 w.units 1,
      flags := if x.sat || m.2 || f.den.sat then setBit w.flags flSat true else w.flags }

/-- Did the source of a rule include a STALE output: a STALE cluster or a region under reset for PROBE, a STALE verdict for
ENTITY (R30, R122, R151)? -/
def State.sourceStale (s : State) (sc : Nat) (r : Rule) : Bool :=
  (decide (r.src = 0) && (s.maskUnits sc r).any fun p =>
    (s.cluster (clusterOf p)).stale || (s.region (regionOf (clusterOf p))).inReset) ||
  (decide (r.src = 4) && s.reds.staleVerdicts.any (inMask r))

/-! ### Emission (R122, R141, R148, R156, R160) -/

/-- A cleared slot starts its windows after the one that was open then in the reset state (R162). -/
def State.redClearAt (s : State) (sc slot window : Nat) : State :=
  if (s.red sc).clearAt.any fun x => decide (x.1 = slot) && decide (x.2 < window) then
    s.modRed sc fun n => { n with
      trackers := Tab.remove slot n.trackers, sticky := Tab.remove slot n.sticky
      clearAt := n.clearAt.filter fun x => !(decide (x.1 = slot) && decide (x.2 < window)) }
  else s

/-- Record a window at a node: the slot record, the sticky flags and the errors; its partial waits to go up
where the rule's output does not end here (R143). -/
def State.redRecord (s : State) (sc : Nat) (r : Rule) (w : Win) (alarm : Nat) : State :=
  let s := s.redClearAt sc r.slot w.window
  let n := s.red sc
  let v := opScalar r w.op
  let flags := w.flags ||| (if v.2.1 then bw 28 else 0) ||| (if v.2.2 then bw 24 else 0)
  let sticky := Tab.read wordZero n.sticky r.slot ||| stickyOf flags
  let stat := flags ||| bw 31 ||| (if w.units = 0 then bw 29 else 0) ||| (if alarm ≠ 0 then bw 22 else 0) |||
    sticky ||| word (n.act.toNat * 256 + r.oper.code)
  let x : SlotRec := { stat, chk := r.chk, window := w.window, units := w.units, dies := w.dies, close := w.close,
                       scalar := if w.units = 0 then 0 else v.1, op := w.op, k := ruleK r, loExp := fld r.p0 0 6 }
  let s := s.modRed sc fun n => { n with
    slots := Tab.insert r.slot x n.slots,
    sticky := Tab.write wordZero n.sticky r.slot sticky,
    emitted := Tab.write natZero n.emitted r.slot (w.window + 1) }
  let s := (s.dropWin sc r.slot w.window).redErr sc flags
  let s := s.touchWindow w.window
  if s.redFinal sc r then s
  else
    let p : RedPartial := { slot := r.slot, window := w.window, chk := r.chk, flags := flags &&& flagMask,
                            units := w.units, dies := w.dies, op := w.op, close := w.close }
    s.modRed sc fun n => { n with retained := n.retained ++ [{ partl := p, cls := r.cls, k := ruleK r, sent := false }] }

/-- The slot record of a window, where it is the latest emitted one. -/
def State.slotOf (s : State) (sc slot window : Nat) : Option SlotRec :=
  let x := Tab.read SlotRec.empty (s.red sc).slots slot
  if bit x.stat 31 && decide (x.window = window) then some x else none

/-- A RATIO over a SUM slot takes that slot's parts as its denominator, and its STALE flag (R136, R30). -/
def State.ratioDen (s : State) (sc : Nat) (r : Rule) (w : Win) : Win :=
  match r.oper, w.op, s.slotOf sc (fld r.p0 0 8) w.window with
  | .ratio, .ratio a b _ _, some x =>
    if fld r.p0 29 3 = 2 then
      let flags := if bit x.stat flStale then setBit w.flags flStale true else w.flags
      match x.op with
      | .sum p m => { w with op := .ratio a b p m, flags }
      | _ => w
    else w
  | _, _, _ => w

/-- An alarm of a tracker (R141): ALARM, its record, and the notice on its way to the service processors. -/
def State.redAlarm (s : State) (sc : Nat) (r : Rule) (x : Int) (window alarm : Nat) (up : Bool) : State :=
  if alarm = 0 then s
  else
    let s := (s.setErr (redPage sc) 22).log 0x18 0 0x0003 4 r.slot alarm (i64Bytes x ++ leBytes 8 window)
    s.modRed sc fun n => { n with alarms := n.alarms ++ [{ scope := sc, slot := r.slot, x, window, kind := alarm, up }] }

/-- The flags a SLOT rule takes from its source: STALE and the flags of the closes (R30, R148). -/
def slotPass : Word := 0x403E0000

/-- A SLOT rule takes its source's window (R124, R139 to R141), at the node where its output ends. -/
def State.redSlotRule (s : State) (sc : Nat) (r : Rule) (x : SlotRec) : State :=
  let s := s.redClearAt sc r.slot x.window
  let w0 := { freshWin r x.window false with flags := x.stat &&& slotPass, dies := x.dies, close := x.close }
  let empty := bit x.stat 29 || !inMask r (r.sel % 256)
  if r.oper = .ewma ∨ r.oper = .cusum then
    let st := Tab.read (fun _ => none) (s.red sc).trackers r.slot
    if empty || bit x.stat flStale then
      s.redRecord sc r { w0 with op := st.getD (opIdentity r.oper), units := if empty then 0 else 1 } 0
    else
      let t := trackerStep r st x.scalar
      let s := s.modRed sc fun n => { n with trackers := Tab.write (fun _ => none) n.trackers r.slot (some t.1) }
      (s.redRecord sc r { w0 with op := t.1, units := 1 } t.2).redAlarm sc r x.scalar x.window t.2
        (match st with
         | some (.ewma y _ _) => decide (rneShrInt y 32 ≤ x.scalar)
         | _ => decide (t.2 = 2))
  else
    let w := if empty then w0
      else feedWin r w0 { id := s.elemId 6 (r.sel % 256), v := x.scalar, den := denPlain r }
    s.redRecord sc r (s.ratioDen sc r w) 0

/-- The slot that a rule takes its denominator from (R136). -/
def denSlot (r : Rule) : Option Nat :=
  if r.oper = .ratio ∧ fld r.p0 29 3 = 2 then some (fld r.p0 0 8) else none

/-- A SLOT rule that reads slot `slot` as its source or its denominator. -/
def readsSlot (slot : Nat) (r : Rule) : Bool :=
  decide (r.src = 6) && (decide (r.sel % 256 = slot) || decide (denSlot r = some slot))

/-- The record a SLOT rule takes for a window once every slot it reads holds that window, and it has not taken it yet: a
rule is evaluated after the earlier rules it reads (R123). -/
def State.slotReady (s : State) (sc : Nat) (r : Rule) (window : Nat) : Option SlotRec :=
  let den := match denSlot r with
    | some d => (s.slotOf sc d window).isSome
    | none => true
  if den && decide (Tab.read natZero (s.red sc).emitted r.slot ≤ window) then s.slotOf sc (r.sel % 256) window else none

/-- Every SLOT rule that reads slot `slot`, directly or through another slot, takes its window, in program order (R123). -/
def redDepends (sc : Nat) : Nat → State → Nat → Nat → State
  | 0, s, _, _ => s
  | fuel + 1, s, slot, window =>
    ((s.redRules sc).filter fun r => readsSlot slot r && s.redFinal sc r).foldl
      (fun s r => match s.slotReady sc r window with
        | some x => redDepends sc fuel (s.redSlotRule sc r x) r.slot window
        | none => s) s

/-- Is a rule's denominator slot one that a SLOT rule fills at this node, where its output ends (R124, R136)? -/
def State.denHere (s : State) (sc : Nat) (r : Rule) : Bool :=
  match denSlot r with
  | some d => (s.redRules sc).any fun q => decide (q.slot = d) && decide (q.src = 6) && s.redFinal sc q
  | none => false

/-- Emit a window (R122): its record, and after it the slots that read it. -/
def State.redEmit (s : State) (sc : Nat) (r : Rule) (w : Win) : State :=
  redDepends sc 256 (s.redRecord sc r (if s.redLevel sc = 0 || s.denHere sc r then s.ratioDen sc r w else w) 0) r.slot w.window

/-! ### Merging (R142 to R148) -/

/-- Emit a merged window once its last close has passed and every expected child has delivered (R144). -/
def State.redTry (s : State) (sc : Nat) (r : Rule) (window : Nat) : State :=
  match s.redWin sc r.slot window with
  | some w =>
    match w.expected with
    | some ex => if ex.all fun c => w.got.contains c then s.redEmit sc r w else s
    | none => s
  | none => s

/-- A partial that cannot be merged: its counter, its record (R145). `arg` 1 LATE, 2 DUP, 3 RULE_CHK. -/
def State.redReject (s : State) (sc : Nat) (src : BitVec 16) (p : RedPartial) (arg : Nat) : State :=
  let s := s.bump (redPage sc) (if arg = 1 then 0x48 else if arg = 2 then 0x4C else 0x50) 1
  let s := if arg = 1 then s.setErr (redPage sc) 20 else if arg = 3 then s.setErr (redPage sc) 19 else s
  s.log 0x18 0 0x0002 3 p.slot arg (leBytes 8 p.window ++ leBytes 4 p.chk.toNat ++ leBytes 2 src.toNat ++ zeros 2)

/-- Merge a partial's state into a window (R126, R148). -/
def mergeWin (fill : OpState → OpState) (r : Rule) (child : Nat) (p : RedPartial) (w : Win) : Win :=
  let m := opMerge r w.op (fill p.op)
  { w with
    op := m.1, units := satAdd 32 w.units p.units, dies := w.dies + p.dies,
    flags := w.flags ||| (p.flags &&& flagMask) ||| (if m.2 then bw 28 else 0), got := w.got ++ [child],
    close := if w.expected.isNone then p.close else w.close }

/-- The field of ELEM_ID that this node fills (R126). -/
def State.fillOf (s : State) (child : Nat) : OpState → OpState :=
  if s.isSystem then (if s.straps.cascade then opFill 22 6 child else opFill 17 5 child) else id

def noKids (_ : Nat) : List RedPartial := []

/-- The trigger slots of the images with CHILD features that read this node (R183). -/
def State.trigSlots (s : State) : List Nat :=
  (s.forest.engines.filter fun e => e.2.active.feats.any fun d => d.used && decide (d.src = 4)).map fun e => leAt e.2.active.image 15 1

/-- The oldest window, plus one, whose partials may still be read: the latest emitted of the slot and of the trigger slots
(R171). -/
def State.kidsFrom (s : State) (sc slot : Nat) : Nat :=
  let n := s.red sc
  s.trigSlots.foldl (fun m t => min m (Tab.read natZero n.emitted t)) (Tab.read natZero n.emitted slot)

/-- The partials of a child that may still be read: those of windows not older than the latest emitted one (R171). -/
def keepKids (emitted : Nat) (l : List RedPartial) (p : RedPartial) : List RedPartial :=
  (l.filter fun q => decide (emitted ≤ q.window + 1) && decide (q.window ≠ p.window)) ++ [p]

/-- A partial of a child reaches node `sc` (R143 to R148). -/
def State.redIngest (s : State) (sc : Nat) (src : BitVec 16) (p : RedPartial) : State :=
  let child := s.childOf src
  match s.redRule sc p.slot with
  | none =>
    if (s.red sc).active.rules.any fun r => decide (r.slot = p.slot) then s else s.redReject sc src p 3
  | some r =>
    let w := (s.redWin sc p.slot p.window).getD (freshWin r p.window false)
    if p.window < Tab.read natZero (s.red sc).emitted p.slot then s.redReject sc src p 1
    else if w.got.contains child then s.redReject sc src p 2
    else if p.chk ≠ r.chk then
      (s.setWin sc { w with flags := setBit w.flags flMismatch true }).redReject sc src p 3
    else
      let s := (s.setWin sc (mergeWin (s.fillOf child) r child p w)).modRed sc fun n => { n with
        kids := Tab.modify noKids n.kids (p.slot * 256 + child) fun l => keepKids (s.kidsFrom sc p.slot) l p }
      (s.redErr sc (p.flags &&& flagMask)).redTry sc r p.window

/-- Payload of a PARTIAL frame: the slot, and the slot record's bytes (R143). -/
def partialBytes (k : Nat) (p : RedPartial) : List Byte :=
  leBytes 4 p.slot ++ slotBytes { stat := p.flags, chk := p.chk, window := p.window, units := p.units, dies := p.dies,
                                  close := p.close, scalar := 0, op := p.op, k, loExp := 0 }

def redPartialTyp (cls : Nat) : Byte := if cls = 4 then 0x41 else 0x20

/-- Send retained partials that were not sent yet, while fewer than 512 wait for an acknowledgement (R146). -/
def State.redTransmit (s : State) (sc : Nat) : State :=
  let n := s.red sc
  let room := 512 - (n.retained.filter (·.sent)).length
  let go := (n.retained.filter fun x => !x.sent).take room
  let s := go.foldl (fun s x => s.sendTyp (redPartialTyp x.cls) .up (partialBytes x.k x.partl)) s
  s.modRed sc fun n => { n with
    retained := (n.retained.filter (·.sent)) ++ go.map (fun x => { x with sent := true }) ++
      (n.retained.filter fun x => !x.sent).drop room }

/-- Hand on what waits to go up: at a head, the die's own partials enter the package node directly (R142). -/
def State.redFlush (s : State) : State :=
  if s.isHead then
    let l := (s.red 0).retained
    let s := s.modRed 0 fun n => { n with retained := [] }
    let s := l.foldl (fun s x => s.redIngest 1 s.node x.partl) s
    s.redTransmit 1
  else s.redTransmit 0

/-- The merges that update `gen` of item 0x05 covers are mirrored: their acknowledgements are sent (R146). -/
def State.redAcks (s : State) (sc gen : Nat) : State :=
  let l := (s.red sc).acksOwed.filter fun a => decide (a.2.2.2 ≤ gen)
  let s := s.modRed sc fun n => { n with acksOwed := n.acksOwed.filter fun a => !decide (a.2.2.2 ≤ gen) }
  l.foldl (fun s a => s.sendTyp 0x21 (.node (BitVec.ofNat 16 a.1)) (leBytes 4 a.2.1 ++ leBytes 8 a.2.2.1)) s

/-- Mirroring runs toward a peer (R430, R437). -/
def State.mirrors (s : State) : Bool := s.fum.peer.isSome && bit (s.reg (pg 0x58) 0x78) 31

/-- A child's partial is merged or discarded, and its acknowledgement is owed; with no peer it is sent at once
(R145, R146). -/
def State.redReceive (s : State) (src : BitVec 16) (p : RedPartial) : State :=
  let sc := if s.isHead then 1 else 0
  let s := (s.redIngest sc src p).touchItem 0x05
  let g := Tab.read natZero s.fum.gens 0x05
  let s := s.modRed sc fun n => { n with acksOwed := n.acksOwed ++ [(src.toNat, p.slot, p.window, g)] }
  let s := if s.mirrors then s else s.redAcks sc g
  s.redFlush

/-! ### A close (R121, R122, R144, R150, R151, R155) -/

/-- The close that reductions evaluate: number, instant, KX_SAMP_CLOSE_FLAGS, and the previous close. -/
structure CloseInfo where
  no    : Nat
  time  : FT
  flags : Word
  prev  : FT

/-- The close's flags in the places of SLOT_STAT (R156). -/
def CloseInfo.slotFlags (c : CloseInfo) : Word := (c.flags &&& 0x1F) <<< 17

/-- One rule of the die at a close: its elements enter the window; at the last close the window is emitted. -/
def State.redDieRule (s : State) (sens : Nat → List (Nat × Int)) (c : CloseInfo) (r : Rule) : State :=
  let window := c.no / r.div
  let w := (s.redWin 0 r.slot window).getD (freshWin r window false)
  let feeds := s.redElems sens 0 r
  let nan := if bit w.flags flNan then none
    else feeds.find? fun f => (toRaw r.fmt r.dom f.v).nan
  let w := { w with flags := w.flags ||| c.slotFlags ||| (if s.sourceStale 0 r then bw 30 else 0),
                    dies := 1, close := c.time }
  let w := feeds.foldl (feedWin r) w
  let s := match nan with
    | some f => s.log 0x18 0 0x0001 2 r.slot window (leBytes 4 f.id)
    | none => s
  let s := (s.redErr 0 w.flags).modRed 0 fun n => { n with
    sticky := Tab.modify wordZero n.sticky r.slot (· ||| stickyOf w.flags) }
  if c.no % r.div = r.div - 1 then s.redEmit 0 r w else s.setWin 0 w

/-- Windows of other numbers still open at the die: their last close was passed over by a step, and they end
here, SHORT. -/
def State.redStray (s : State) (c : CloseInfo) : State :=
  (s.redRules 0).foldl (fun s r =>
    ((s.red 0).wins.filter fun w => decide (w.slot = r.slot) && decide (w.window < c.no / r.div)).foldl
      (fun s w => s.redEmit 0 r { w with flags := setBit w.flags flShort true }) s) s

/-- Windows that ended in DOZE are emitted at the first close after exit, STALE and PARTIAL (R151). -/
def State.redOwed (s : State) (sc : Nat) : State :=
  let l := (s.red sc).owed
  let s := s.modRed sc fun n => { n with owed := [] }
  l.foldl (fun s o =>
    match s.redRule sc o.1 with
    | none => s
    | some r =>
      if o.2.1 < Tab.read natZero (s.red sc).emitted r.slot then s
      else
        let w := (s.redWin sc o.1 o.2.1).getD (freshWin r o.2.1 false)
        s.redEmit sc r { w with
          flags := setBit (setBit w.flags flStale true) 17 true, dies := if s.redLevel sc = 0 then 1 else w.dies, close := o.2.2 }) s

/-- Does a package window hold the epoch in which the head was lost (R16)? -/
def State.inGap (s : State) (sc : Nat) (r : Rule) (window : Nat) : Bool :=
  decide (sc = 1) && match s.pkg.gap with
    | some g => decide (g / r.div = window)
    | none => false

/-- A window whose last close is this one or has passed now expects its children (R144). -/
def State.redExpect (s : State) (sc : Nat) (c : CloseInfo) (r : Rule) (w : Win) : State :=
  let kids := s.redChildren.map s.childOf
  (s.setWin sc { w with expected := some kids, close := c.time, since := c.time,
                        flags := w.flags ||| c.slotFlags ||| (if s.inGap sc r w.window then bw 30 else 0) }).redTry sc r w.window

/-- Windows whose last close a step of fleet time or a gap has passed over expect their children from this close on (R144). -/
def State.redPassed (s : State) (sc : Nat) (c : CloseInfo) : State :=
  (s.redRules sc).foldl (fun s r =>
    ((s.red sc).wins.filter fun w =>
      decide (w.slot = r.slot) && w.expected.isNone && decide (w.window < c.no / r.div)).foldl (fun s w => s.redExpect sc c r w) s) s

/-- A merging node's part of a close: a window whose last close this is now expects its children (R144). -/
def State.redMergeRule (s : State) (sc : Nat) (c : CloseInfo) (r : Rule) : State :=
  if c.no % r.div = r.div - 1 then
    let window := c.no / r.div
    if window < Tab.read natZero (s.red sc).emitted r.slot then s
    else s.redExpect sc c r ((s.redWin sc r.slot window).getD (freshWin r window false))
  else s

/-- Slots to be cleared start their next window in the reset state (R162), and their commands complete. A merging node has
yet to emit the window that ends here: its slot is reset once that is done. -/
def State.redClears (s : State) (sc : Nat) (c : CloseInfo) : State :=
  let due (x : Nat × Bool × Nat) : Bool := match s.redRule sc x.1 with
    | some r => decide (c.no % r.div = r.div - 1)
    | none => true
  let l := (s.red sc).clears.filter due
  let open' (slot : Nat) : Option Nat := match s.redRule sc slot with
    | some r =>
      let w := c.no / r.div
      if s.redLevel sc ≠ 0 ∧ Tab.read natZero (s.red sc).emitted slot ≤ w then some w else none
    | none => none
  let now := l.filter fun x => (open' x.1).isNone
  let s := s.modRed sc fun n => { n with
    clears := n.clears.filter fun x => !due x,
    clearAt := n.clearAt ++ l.filterMap fun x => (open' x.1).map fun w => (x.1, w)
    trackers := now.foldl (fun t x => Tab.remove x.1 t) n.trackers,
    sticky := now.foldl (fun t x => Tab.remove x.1 t) n.sticky }
  l.foldl (fun s x => s.complete x.2.1 x.2.2 stOk 0) s

/-- The incomplete windows of a rule before close `c`: those that are open, and at a merging node the present one, though no
partial of it has come (R150). -/
def State.redOpen (s : State) (sc : Nat) (c : CloseInfo) (r : Rule) : List Win :=
  let l := (s.red sc).wins.filter fun w => decide (w.slot = r.slot)
  let window := c.no / r.div
  if s.redLevel sc ≠ 0 ∧ r.src ≠ 6 ∧ c.no % r.div ≠ 0 ∧ Tab.read natZero (s.red sc).emitted r.slot ≤ window ∧
      l.all (fun w => decide (w.window ≠ window)) = true then l ++ [freshWin r window false]
  else l

/-- The activation of the inactive copy at close `c` (R150, R155, R491). -/
def State.redActivate (s : State) (sc : Nat) (c : CloseInfo) (a : PendAct) : State :=
  let old := (s.red sc).active.rules
  let s := (s.redRules sc).foldl (fun s r =>
    (s.redOpen sc c r).foldl (fun s w =>
      let missing := match w.expected with
        | some ex => !(ex.all fun k => w.got.contains k)
        | none => s.redLevel sc ≠ 0 && !(s.redChildren.all fun k => w.got.contains (s.childOf k))
      let w := { w with
        flags := w.flags ||| (if w.expected.isNone then bw 21 else 0) ||| (if missing then bw 30 else 0),
        close := if w.expected.isNone then c.prev else w.close }
      s.redEmit sc r w) s) s
  let same (slot : Nat) : Bool := (s.red sc).inactive.rules.any fun r =>
    decide (r.slot = slot) && old.any fun o => decide (o.slot = slot) && decide (o.chk = r.chk)
  let s := s.modRed sc fun n => { n with
    active := n.inactive, inactive := n.active, act := n.act + 1, wins := [], owed := [],
    trackers := Tab.keep same n.trackers, sticky := Tab.keep same n.sticky,
    clearAt := n.clearAt.filter fun x => same x.1
    slots := Tab.mapTab SlotRec.empty (fun _ x => { x with stat := setBit x.stat 31 false }) (Tab.keep same n.slots),
    emitted := [] }
  let s := s.modRed sc fun n => { n with
    emitted := n.active.rules.foldl (fun t r => Tab.write natZero t r.slot (c.no / r.div)) [],
    wins := (n.active.rules.filter fun r => decide (r.src ≠ 6) && decide (c.no % r.div ≠ 0)).map fun r =>
      freshWin r (c.no / r.div) true }
  let s := s.measSwap (redItem sc false) (redItem sc true)
  ((s.setRes a.pkg a.page 0 c.no).setRes a.pkg a.page 1 (c.no / 2 ^ 32)).setRes a.pkg a.page 2 (s.red sc).act.toNat
    |>.complete a.pkg a.page stOk 0

/-- Is a pending activation due at close `c` (R27, R155)? -/
def actDue (c : CloseInfo) (a : PendAct) : Bool :=
  match a.epoch with
  | some e => decide (e = c.no)
  | none => decide (a.notBefore ≤ c.time) && decide (a.after < c.no)

/-- Has a step of fleet time passed over its target (R155)? -/
def actStepped (c : CloseInfo) (a : PendAct) : Bool :=
  match a.epoch with
  | some e => decide (e < c.no)
  | none => false

/-- The pending activations of a node at a close. An activation whose copy is no longer there or no longer
measured completes as at acceptance. -/
def State.redActs (s : State) (sc : Nat) (c : CloseInfo) : State :=
  let l := (s.red sc).acts
  let s := s.modRed sc fun n => { n with acts := n.acts.filter fun a => !actDue c a && !actStepped c a }
  l.foldl (fun s a =>
    if actStepped c a then s.complete a.pkg a.page stError 0x20
    else if actDue c a then
      if !(s.red sc).inactive.valid then s.complete a.pkg a.page stError 0x0E
      else if !s.isMeasured (redItem sc true) then s.complete a.pkg a.page stUnmeasured 0
      else s.redActivate sc c a
    else s) s

/-- The reductions of a close: at the die and, at a head, at the package node; or at the aggregator. -/
def State.redClose (s : State) (sens : Nat → List (Nat × Int)) (c : CloseInfo) : State :=
  let s := s.redOwed 0
  let s := if s.isHead then (s.redFlush).redOwed 1 else s
  let s := s.redActs 0 c
  let s := if s.isDie then (s.redFlush).redActs 1 c else s
  let s := if s.isDie then
      ((s.redRules 0).filter fun r => decide (r.src ≠ 6)).foldl (fun s r => s.redDieRule sens c r) (s.redStray c)
    else ((s.redRules 0).filter fun r => decide (r.src ≠ 6)).foldl (fun s r => s.redMergeRule 0 c r) (s.redPassed 0 c)
  let s := s.redClears 0 c
  let s := s.redFlush
  let s := if s.isHead then
      let s := ((s.redRules 1).filter fun r => decide (r.src ≠ 6)).foldl (fun s r => s.redMergeRule 1 c r) (s.redPassed 1 c)
      (s.redClears 1 c).redFlush
    else s
  { s with
    reds := { s.reds with tiles := [], verdicts := [], staleVerdicts := [], services := [] },
    samp := { s.samp with probes := Tab.mapTab Probe.reset (fun _ x => { x with arr := [], arrived := false, arrAll := [] }) s.samp.probes } }

/-- A close in DOZE: nothing is evaluated; windows that end are owed (R151). -/
def State.redDozeClose (s : State) (c : CloseInfo) : State :=
  let owe (s : State) (sc : Nat) : State :=
    let due := (s.redRules sc).filter fun r => decide (r.src ≠ 6) && decide (c.no % r.div = r.div - 1)
    s.modRed sc fun n => { n with owed := n.owed ++ due.map fun r => (r.slot, c.no / r.div, c.time) }
  let s := owe s 0
  let s := if s.isHead then owe s 1 else s
  { s with reds := { s.reds with tiles := [], verdicts := [], staleVerdicts := [], services := [] } }

/-! ### Events of merging -/

/-- MERGE_WAIT_EXPIRE (R144): KX_RED_WAIT has passed since the window's last close or since the takeover
(R146); the window is emitted STALE. -/
def State.redExpire (s : State) (slot window : Nat) : State :=
  let sc := if s.isSystem then 0 else 1
  match s.redRule sc slot, s.redWin sc slot window with
  | some r, some w =>
    if w.expected.isSome then
      let s := s.advanceTo (w.since + s.regFld (redPage sc) 0x44 0 16 * 10 * ns)
      (s.redEmit sc r { w with flags := setBit w.flags flStale true }).redFlush
    else s
  | _, _ => s

/-- PARTIAL_ACK (R146): the parent has merged and mirrored a partial; it leaves the retention buffer, and one
that waited for room is sent. -/
def State.redAck (s : State) (slot window : Nat) : State :=
  let sc := if s.isHead then 1 else 0
  (s.modRed sc fun n => { n with
    retained := n.retained.filter fun x => !(x.sent && decide (x.partl.slot = slot) && decide (x.partl.window = window)) })
    |>.redTransmit sc

def execPartialAck (slot window : Nat) (s : State) : Host.Outcome State Fault Refusal :=
  finish (s.redAck slot window)

end Sys2Proof.Machine
end

