-- ==== Sys2Proof/Machine/Sha.lean ====
section
/-!
DEFINITION. SHA-384, the digest of images, measurements and checkpoints (R153, R491). The function is the
public one of FIPS 180-4; the manual names it and does not restate it.
-/
namespace Sys2Proof

abbrev W64 := BitVec 64

/-- `n` words of 64 bits packed in one number, the first in its highest bits. -/
def packed : Nat → Nat → List W64
  | 0, _ => []
  | n + 1, v => BitVec.ofNat 64 (v >>> (64 * n)) :: packed n v

/-- The 80 round constants, sixteen to a number. -/
def shaK : List W64 :=
  packed 16 0x428a2f98d728ae227137449123ef65cdb5c0fbcfec4d3b2fe9b5dba58189dbbc3956c25bf348b53859f111f1b605d019923f82a4af194f9bab1c5ed5da6d8118d807aa98a303024212835b0145706fbe243185be4ee4b28c550c7dc3d5ffb4e272be5d74f27b896f80deb1fe3b1696b19bdc06a725c71235c19bf174cf692694 ++
  packed 16 0xe49b69c19ef14ad2efbe4786384f25e30fc19dc68b8cd5b5240ca1cc77ac9c652de92c6f592b02754a7484aa6ea6e4835cb0a9dcbd41fbd476f988da831153b5983e5152ee66dfaba831c66d2db43210b00327c898fb213fbf597fc7beef0ee4c6e00bf33da88fc2d5a79147930aa72506ca6351e003826f142929670a0e6e70 ++
  packed 16 0x27b70a8546d22ffc2e1b21385c26c9264d2c6dfc5ac42aed53380d139d95b3df650a73548baf63de766a0abb3c77b2a881c2c92e47edaee692722c851482353ba2bfe8a14cf10364a81a664bbc423001c24b8b70d0f89791c76c51a30654be30d192e819d6ef5218d69906245565a910f40e35855771202a106aa07032bbd1b8 ++
  packed 16 0x19a4c116b8d2d0c81e376c085141ab532748774cdf8eeb9934b0bcb5e19b48a8391c0cb3c5c95a634ed8aa4ae3418acb5b9cca4f7763e373682e6ff3d6b2b8a3748f82ee5defb2fc78a5636f43172f6084c87814a1f0ab728cc702081a6439ec90befffa23631e28a4506cebde82bde9bef9a3f7b2c67915c67178f2e372532b ++
  packed 16 0xca273eceea26619cd186b8c721c0c207eada7dd6cde0eb1ef57d4f7fee6ed17806f067aa72176fba0a637dc5a2c898a6113f9804bef90dae1b710b35131c471b28db77f523047d8432caab7b40c724933c9ebe0a15c9bebc431d67c49c100d4c4cc5d4becb3e42b6597f299cfc657e2a5fcb6fab3ad6faec6c44198c4a475817

/-- The eight working words before the first block. -/
def shaInit : List W64 :=
  packed 8 0xcbbb9d5dc1059ed8629a292a367cd5079159015a3070dd17152fecd8f70e593967332667ffc00b318eb44a8768581511db0c2e0d64f98fa747b5481dbefa4fa4

/-- A word turned right by each of `turns`, the turned words added without carry to `start`. -/
def turned (turns : List Nat) (start x : W64) : W64 := turns.foldl (fun acc n => acc ^^^ x.rotateRight n) start

/-- The message schedule, newest word first: `n` more words. -/
def shaExtend : Nat → List W64 → List W64
  | 0, l => l
  | n + 1, l =>
    let near := l.getD 1 0
    let far := l.getD 14 0
    shaExtend n ((turned [19, 61] (near >>> 6) near + l.getD 6 0 + turned [1, 8] (far >>> 7) far + l.getD 15 0) :: l)

/-- One round; `kw` is its constant and its schedule word. The words move one place on, and two of them are made anew. -/
def shaRound (s : List W64) (kw : W64 × W64) : List W64 :=
  let at' (i : Nat) : W64 := s.getD i 0
  let choice := at' 6 ^^^ (at' 4 &&& (at' 5 ^^^ at' 6))
  let majority := (at' 0 &&& at' 1) ||| (at' 2 &&& (at' 0 ||| at' 1))
  let inner := at' 7 + kw.1 + kw.2 + choice + turned [14, 18, 41] 0 (at' 4)
  (inner + majority + turned [28, 34, 39] 0 (at' 0)) :: (s.take 3 ++ (at' 3 + inner) :: (s.drop 4).take 3)

/-- The words of a block, first word first. -/
def shaWords : Nat → List Byte → List W64
  | 0, _ => []
  | n + 1, bs => BitVec.ofNat 64 (ofBe (bs.take 8)) :: shaWords n (bs.drop 8)

/-- One 128-byte block. -/
def shaBlock (s : List W64) (bs : List Byte) : List W64 :=
  let w := (shaExtend 64 (shaWords 16 bs).reverse).reverse
  List.zipWith (· + ·) s ((shaK.zip w).foldl shaRound s)

def shaBlocks : Nat → List W64 → List Byte → List W64
  | 0, s, _ => s
  | n + 1, s, bs => shaBlocks n (shaBlock s (bs.take 128)) (bs.drop 128)

/-- The padded message. -/
def shaPad (bs : List Byte) : List Byte :=
  bs ++ [0x80] ++ zeros ((239 - bs.length % 128) % 128) ++ beBytes 16 (8 * bs.length)

/-- The 48-byte SHA-384 digest. -/
def sha384 (bs : List Byte) : List Byte :=
  let p := shaPad bs
  ((shaBlocks (p.length / 128) shaInit p).take 6).flatMap fun w => beBytes 8 w.toNat

end Sys2Proof
end

