-- ==== Sys2Proof/Machine/RedCmd.lean ====
section
/-!
DEFINITION. Program images and their loader (R127, R128, R153, R154), the reduction commands (R155, R158,
R162), the record latch and the quantile readout (R152, R159).
-/
namespace Sys2Proof.Machine

/-! ### The record latch (R152) and the quantile readout (R159) -/

/-- Capture the selected slot's record as it stands at its latest emitted window. -/
def State.redCapture (s : State) (sc : Nat) : State :=
  let x := Tab.read SlotRec.empty (s.red sc).slots (s.regFld (redPage sc) 0x54 0 8)
  s.modRed sc fun n => { n with latch := padTo 1096 (slotBytes x), latchRec := x }

/-- Word `off` of the captured record; beyond 0x647 the page has none. -/
def State.redLatchWord (s : State) (sc off : Nat) : Word := word (leAt (s.red sc).latch (off - 0x200) 4)

/-- A write of KX_RED_QP: 0 stores 1; the record is captured afresh; QVAL and QINFO follow (R159, R161). -/
def State.redQuantile (s : State) (sc : Nat) (w : Word) : State :=
  let qp := if fld w 0 16 = 0 then 1 else fld w 0 16
  let s := (s.setReg (redPage sc) 0x58 (word qp)).redCapture sc
  let x := (s.red sc).latchRec
  match x.op with
  | .hist u o c =>
    if bit x.stat 31 then
      let q := histQuantile u o c qp x.loExp
      let info := 2 ^ 31 + q.where_ * 2 ^ 29 + (if q.where_ = 0 then q.bucket else 0)
      (s.setReg (redPage sc) 0x5C (word info)).setRegWide (redPage sc) 0x60 2 (unsgn 64 q.v)
    else (s.setReg (redPage sc) 0x5C 0).setRegWide (redPage sc) 0x60 2 0
  | _ => (s.setReg (redPage sc) 0x5C 0).setRegWide (redPage sc) 0x60 2 0

/-! ### Images (R127, R153) -/

def operOf : Nat → Option Oper
  | 1 => some .sum | 2 => some .sumsq | 3 => some .min | 4 => some .max | 5 => some .count
  | 6 => some .ratio | 7 => some .hist | 8 => some .topk | 9 => some .ewma | 10 => some .cusum
  | _ => none

/-- Word `k` of a descriptor. -/
def descW (d : List Byte) (k : Nat) : Word := word (leAt d (4 * k) 4)

/-- The rule a descriptor spells. -/
def ruleOf (d : List Byte) (o : Oper) : Rule :=
  let w0 := descW d 0
  let w1 := descW d 1
  let w3 := descW d 3
  { oper := o, slot := fld w0 16 8, dest := fld w0 14 2, cls := fld w0 11 3, dom := bit w0 10, src := fld w1 29 3,
    fmt := fld w1 26 3, mask := fld w1 24 2, sel := fld w1 0 19, maskArg := descW d 2, pshift := fld w3 26 6,
    div := fld w3 0 16, p0 := descW d 4, p1 := descW d 5, p2 := descW d 6, chk := descW d 7 }

/-- Is the source, format, mask and domain combination allowed (R124, R125, R130)? -/
def sourceOk (r : Rule) (sets : Nat) : Bool :=
  let first := fld r.maskArg 0 14
  let count := fld r.maskArg 16 15
  (match r.src with
   | 0 => decide (r.fmt = 0)
   | 1 => decide (1 ≤ r.fmt) && decide (r.fmt ≤ 5) && decide (r.sel < 64)
   | 2 => decide (r.fmt = 0) && decide (r.sel < 256)
   | 3 => decide (r.sel ≤ 4) && decide (r.fmt = if r.sel ≤ 2 then 1 else 0)
   | 4 => decide (r.fmt = 0) && decide (r.sel ≤ 1)
   | 5 => decide (r.fmt = 0) && decide (r.sel ≤ 1)
   | 6 => decide (r.fmt = 0) && decide (r.sel < 256)
   | _ => false) &&
  (r.dom || !(decide (1 ≤ r.fmt) && decide (r.fmt ≤ 3))) &&
  (match r.mask with
   | 0 => decide (r.maskArg = 0) && decide (r.src ≠ 1)
   | 1 => decide (r.src = 0)
   | 2 => decide (r.src = 0) && decide (fld r.maskArg 0 4 < sets)
   | _ => decide (1 ≤ count) && decide (count ≤ 16384) && decide (first + count ≤ 16384) &&
          (decide (r.src ≠ 1) || (decide (first = 0) && decide (r.sel + count ≤ 64)))) &&
  (decide (r.src = 6) || !(decide (r.oper = .ewma) || decide (r.oper = .cusum)))

/-- Are the parameters in range and the reserved bits zero (R127, R128)? -/
def paramOk (d : List Byte) (r : Rule) : Bool :=
  decide (r.div ≠ 0) && decide (fld (descW d 0) 0 10 = 0) && decide (fld (descW d 1) 19 5 = 0) &&
  decide (fld (descW d 3) 16 10 = 0) &&
  match r.oper with
  | .count => decide (r.p0.toNat ≤ 4) && decide (r.p2 = 0)
  | .ratio =>
    decide (r.p1 = 0) && decide (r.p2 = 0) &&
    (match fld r.p0 29 3 with
     | 0 => decide (r.src = 0) && decide (fld r.p0 19 10 = 0)
     | 1 => decide (fld r.p0 0 29 = 0)
     | 2 => decide (fld r.p0 8 21 = 0)
     | _ => false)
  | .hist => decide (r.p0.toNat ≤ 62) && decide (1 ≤ r.p1.toNat) && decide (r.p1.toNat ≤ 65535) && decide (r.p2 = 0)
  | .topk =>
    decide (1 ≤ ruleK r) && decide (ruleK r ≤ 16) && decide (fld r.p0 5 3 = 0) && decide (fld r.p0 9 23 = 0) &&
    decide (r.p1 = 0) && decide (r.p2 = 0)
  | .ewma => decide (1 ≤ r.p0.toNat) && decide (r.p0.toNat ≤ 32) && decide (r.p2 = 0)
  | .cusum => decide (0 ≤ scaled r.p1 r.pshift) && decide (0 < scaled r.p2 r.pshift)
  | _ => decide (r.p0 = 0) && decide (r.p1 = 0) && decide (r.p2 = 0)

/-- Do the slots a rule names belong to earlier rules of the same DEST and DIV (R154)? -/
def refOk (prev : List Rule) (r : Rule) : Bool :=
  let earlier (slot : Nat) (sum : Bool) : Bool := prev.any fun q =>
    decide (q.slot = slot) && decide (q.dest = r.dest) && decide (q.div = r.div) && (!sum || decide (q.oper = .sum))
  (decide (r.src ≠ 6) || earlier (r.sel % 256) false) &&
  (!(decide (r.oper = .ratio) && decide (fld r.p0 29 3 = 2)) || earlier (fld r.p0 0 8) true)

/-- One descriptor after the rules before it: the rule, or the DETAIL of R154. -/
def loadRule (sets : Nat) (prev : List Rule) (d : List Byte) : Nat ⊕ Rule :=
  if crc32c (d.take 28) ≠ descW d 7 then .inl 5
  else match operOf (fld (descW d 0) 24 8) with
    | none => .inl 6
    | some o =>
      let r := ruleOf d o
      if !sourceOk r sets then .inl 7
      else if prev.any fun q => decide (q.slot = r.slot) then .inl 8
      else if !paramOk d r then .inl 9
      else if !refOk prev r then .inl 10
      else if r.cls ≠ 2 ∧ r.cls ≠ 4 then .inl 11
      else .inr r

/-- Descriptors in program order; a failure gives its DETAIL and the rule's index. -/
def loadRules (sets : Nat) : Nat → List Byte → List Rule → (Nat × Nat) ⊕ List Rule
  | 0, _, prev => .inr prev
  | n + 1, bs, prev =>
    match loadRule sets prev (bs.take 32) with
    | .inl e => .inl (e, prev.length)
    | .inr r => loadRules sets n (bs.drop 32) (prev ++ [r])

/-- The loader's checks on what was read (R153, R154): DETAIL and rule index, or the copy. `arg` is the length
argument. -/
def loadImage (bs : List Byte) (arg : Nat) : (Nat × Nat) ⊕ RedCopy :=
  let rules := leAt bs 6 2
  let sets := leAt bs 12 1
  let len := leAt bs 8 4
  if leAt bs 0 4 ≠ 0x5052584B then .inl (1, 0)
  else if leAt bs 4 1 ≠ 1 then .inl (2, 0)
  else if len ≠ 80 + 32 * rules + 1024 * sets ∨ arg < len then .inl (3, 0)
  else if rules = 0 ∨ 256 < rules ∨ 16 < sets ∨ leAt bs 13 3 ≠ 0 then .inl (9, 0)
  else if sha384 (bs.take (len - 48)) ≠ slice bs (len - 48) 48 then .inl (4, 0)
  else match loadRules sets rules (bs.drop 32) [] with
    | .inl e => .inl e
    | .inr l => .inr { image := bs.take len, rules := l, valid := true,
                       sets := (List.range sets).map fun i => slice bs (32 + 32 * rules + 1024 * i) 1024 }

/-- The largest program image in bytes (R153). -/
def redMaxImage : Nat := 80 + 32 * 256 + 1024 * 16

/-! ### Commands (R162) -/

def scopeOf (pkg : Bool) : Nat := if pkg then 1 else 0


/-- RED_LOAD has its image, or its read failed. -/
def State.redLoaded (s : State) (pkg : Bool) (n : Nat) (data : List Byte) (failed : Bool) : State :=
  let sc := scopeOf pkg
  let arg := (s.reg (cmdKey pkg n) 0x88).toNat
  let r := if failed then .inl (12, 0) else loadImage data arg
  match r with
  | .inl e => ((s.setErr (redPage sc) 21).setRes pkg n 0 e.2).complete pkg n stError e.1
  | .inr cp =>
    let item := redItem sc true
    ((s.modRed sc fun x => { x with inactive := cp }).measure item (sha384 (cp.image.take (cp.image.length - 48)))
      (some (pkg, n))).waitPage pkg n (.measure item)

/-- RED_LOAD (R154). -/
def redLoad (c : CmdIn) (s : State) : State :=
  let len := min (argW c s 2).toNat redMaxImage
  if len = 0 then s.redLoaded c.pkg c.page.toNat [] false
  else
    let id := s.pages.nextXfer
    (s.waitFor c (.transfer id)).startXfer (.command c.pkg c.page.toNat) false (arg64 c s 0) len []

def execRedLoad (c : CmdIn) (s : State) : Host.Outcome State Fault Refusal :=
  finish (runCmd c 0x18 0x0001 .operator true (redLoad c) s)

/-- The instant at which epoch `e` closes: on the grid in force, or, from the close at a pending ORIGIN on, on the new one
(R94, R97, R98). -/
def State.closeInstant (s : State) (e : Nat) : FT :=
  let g := s.samp.grid
  let base := (closeNumber g ((nextGrid g - g.origin) / (g.period * ns))).2
  let old := g.origin + (e - base) * g.period * ns
  match g.pend with
  | some q =>
    let first := base + (q.origin - g.origin + g.period * ns - 1) / (g.period * ns)
    if e < first then old else q.origin + (e - first) * q.period * ns
  | none => old

/-- The checks every activation shares (R27, R28, R155): DETAIL LATE is `late`, NO_IMAGE is `noImage`. -/
def State.actCheck (s : State) (c : CmdIn) (valid measured : Bool) (late noImage : Nat) (good : State) : State :=
  if !valid then s.failCmd c noImage
  else if !measured then s.done c stUnmeasured 0
  else if bit (argW c s 0) 0 ∧ (arg64 c s 1 ≤ s.samp.grid.epochNo ∨ s.closeInstant (arg64 c s 1) < s.now + 10 * us) then
    s.failCmd c late
  else good.waitFor c (.event 1 0)

/-- The pending activation a command asks for. -/
def State.pendAct (s : State) (c : CmdIn) : PendAct :=
  { pkg := c.pkg, page := c.page.toNat, epoch := if bit (argW c s 0) 0 then some (arg64 c s 1) else none,
    notBefore := s.now + us, after := s.samp.grid.epochNo }

def redActivateCmd (c : CmdIn) (s : State) : State :=
  let sc := scopeOf c.pkg
  s.actCheck c (s.red sc).inactive.valid (s.isMeasured (redItem sc true)) 0x0D 0x0E
    (s.modRed sc fun n => { n with acts := n.acts ++ [s.pendAct c] })

/-- RED_ACTIVATE (R155). -/
def execRedActivate (c : CmdIn) (s : State) : Host.Outcome State Fault Refusal :=
  finish (runCmd c 0x18 0x0002 .operator true (redActivateCmd c) s)

/-- RED_CLEAR_SLOT (R162): the slot is cleared at its next window start, and the command completes there. -/
def redClearSlot (c : CmdIn) (s : State) : State :=
  let sc := scopeOf c.pkg
  let slot := argFld c s 0 0 8
  if (s.red sc).active.rules.any fun r => decide (r.slot = slot) then
    (s.modRed sc fun n => { n with clears := n.clears ++ [(slot, c.pkg, c.page.toNat)] }).waitFor c (.event 2 slot)
  else s.failCmd c 0x0F

def execRedClearSlot (c : CmdIn) (s : State) : Host.Outcome State Fault Refusal :=
  finish (runCmd c 0x18 0x0003 .operator true (redClearSlot c) s)

/-- Write bytes to host memory for a command, which waits for the transfer; nothing to write completes at
once. -/
def State.writeOut (s : State) (c : CmdIn) (addr : Nat) (bytes : List Byte) : State :=
  if bytes = [] then s.ok c
  else
    let id := s.pages.nextXfer
    (s.waitFor c (.transfer id)).startXfer (.command c.pkg c.page.toNat) true addr bytes.length bytes

/-- May a TENANT request use slot `slot` (R24, R70, R158)? -/
def State.slotBound (s : State) (q : Req) (slot : Nat) : Bool :=
  q.tag ≠ .tenant || (decide (q.job ≠ 0) && decide (Tab.read bv16Zero s.samp.slotJob slot = q.job))

/-- RED_COPY_SLOT (R157, R158, R162). -/
def redCopySlot (c : CmdIn) (s : State) : State :=
  let slot := argFld c s 0 0 8
  let addr := arg64 c s 1
  if !s.slotBound c.req slot then s.done c stDenied 0
  else if addr % 64 ≠ 0 then s.badArg c
  else
    let bytes := slotBytes (Tab.read SlotRec.empty (s.red (scopeOf c.pkg)).slots slot)
    (s.res c 0 bytes.length).writeOut c addr bytes

def execRedCopySlot (c : CmdIn) (s : State) : Host.Outcome State Fault Refusal :=
  finish (runCmd c 0x18 0x0004 .tenant true (redCopySlot c) s)

/-- RED_DUMP (R162). -/
def redDump (c : CmdIn) (s : State) : State :=
  let n := s.red (scopeOf c.pkg)
  let cp := if bit (argW c s 0) 0 then n.inactive else n.active
  if !cp.valid then s.failCmd c 0x0E
  else (s.res c 0 cp.image.length).writeOut c (arg64 c s 1) cp.image

def execRedDump (c : CmdIn) (s : State) : Host.Outcome State Fault Refusal :=
  finish (runCmd c 0x18 0x0005 .operator true (redDump c) s)

end Sys2Proof.Machine
end

