-- ==== Sys2Proof/Machine/Forest.lean ====
section
/-!
DEFINITION. Forest images: quantisers (R173, R174), the loader and its checks (R186 to R192), the search and
the vote (R164 to R168, R176, R177).
-/
namespace Sys2Proof.Machine

/-! ### Quantisers (R173, R174) -/

/-- The order code of a 16-bit float pattern. -/
def key16 (b : Nat) : Nat := if 2 ^ 15 ≤ b % 2 ^ 16 then 2 ^ 16 - 1 - b % 2 ^ 16 else b % 2 ^ 16 + 2 ^ 15

def qLin (x bias : Int) (shift : Nat) : Nat := (clampInt 0 0xFFFF (floorDiv (x - bias) (2 ^ shift))).toNat

/-- x × 2^−SHIFT as bfloat16 rounded toward minus infinity, then its order code. -/
def qFlt (x : Int) (shift : Nat) : Nat :=
  if x = 0 then 0x8000
  else
    let neg := decide (x < 0)
    let m := x.natAbs
    let p := m.log2
    let sig0 := if 7 ≤ p then m / 2 ^ (p - 7) else m * 2 ^ (7 - p)
    let up := neg && decide (7 < p) && decide (m % 2 ^ (p - 7) ≠ 0)
    let sig1 := if up then sig0 + 1 else sig0
    let sig := if sig1 = 0x100 then 0x80 else sig1
    let e := if sig1 = 0x100 then p + 1 else p
    key16 ((if neg then 2 ^ 15 else 0) + (e + 127 - shift) * 2 ^ 7 + sig % 2 ^ 7)

/-- The order code of a bfloat16 value; none for a NaN. -/
def qBf16 (b : Nat) : Option Nat :=
  if b / 2 ^ 7 % 2 ^ 8 = 255 then
    if b % 2 ^ 7 ≠ 0 then none else some (if 2 ^ 15 ≤ b then 0 else 0xFFFF)
  else if b % 2 ^ 15 = 0 then some 0x8000
  else some (key16 b)

/-- The order code of a binary16 value through binary32; none for a NaN. -/
def qF16 (h : Nat) : Option Nat :=
  let w := f16To32 h
  if w / 2 ^ 23 % 2 ^ 8 = 255 then
    if w % 2 ^ 23 ≠ 0 then none else some (if 2 ^ 31 ≤ w then 0 else 0xFFFF)
  else if w % 2 ^ 31 = 0 then some 0x8000
  else some ((if 2 ^ 31 ≤ w then 2 ^ 32 - 1 - w else w + 2 ^ 31) / 2 ^ 16)

/-- The code of a static column (R173). -/
def qStatic (qkind : Nat) (v : BitVec 16) : Option Nat :=
  match qkind with
  | 2 => some (v ^^^ 0x8000).toNat
  | 4 => qBf16 v.toNat
  | 5 => qF16 v.toNat
  | _ => some v.toNat

/-- The code of a dynamic value (R173). -/
def qDynamic (d : FeatDesc) (x : Int) : Nat := if d.qkind = 0 then qLin x d.bias d.shift else qFlt x d.shift

/-! ### Reading an image (R188 to R191) -/

/-- Bits of a row record, bit b at byte b ÷ 8. -/
def bits256 (bs : List Byte) : BitVec 256 := BitVec.ofNat 256 (ofLe (bs.take 32))

def featOf (d : List Byte) : FeatDesc :=
  let w0 := descW d 0
  { src := fld w0 29 3, qkind := fld w0 26 3, shift := fld w0 20 6, used := bit w0 19, sel := fld w0 0 19,
    sel2 := fld (descW d 1) 0 19, bias := leIntAt d 8 8 }

def featsOf (bs : List Byte) : List FeatDesc :=
  (List.range 64).map fun i => featOf (slice bs (128 + 16 * i) 16)

/-- The tree directory's words (R191). -/
def treeDir (bs : List Byte) (n : Nat) : List (Word × Word) :=
  (List.range n).map fun i => (word (leAt bs (1152 + 8 * i) 4), word (leAt bs (1156 + 8 * i) 4))

def dirNodes (e : Word × Word) : Nat := fld e.2 24 8
def dirRows (e : Word × Word) : Nat := fld e.2 15 9

def nodesOf : Nat → List Byte → List (Nat × Nat)
  | 0, _ => []
  | n + 1, bs =>
    let w := word (leAt bs 0 4)
    (fld w 16 6, fld w 0 16) :: nodesOf n (bs.drop 4)

def rowsOf : Nat → List Byte → List LeafRow
  | 0, _ => []
  | n + 1, bs =>
    { value := bits256 bs, care := bits256 (bs.drop 32), leaf := word (leAt bs 64 4) } :: rowsOf n (bs.drop 68)

def treesOf : List (Word × Word) → List Byte → List Byte → List Tree
  | [], _, _ => []
  | e :: es, nb, rb =>
    { bank := fld e.1 26 6, seg := fld e.1 20 6, nseg := fld e.1 15 5, nbase := fld e.1 0 10,
      nodes := nodesOf (dirNodes e) nb, rows := rowsOf (dirRows e) rb } ::
    treesOf es (nb.drop (4 * dirNodes e)) (rb.drop (68 * dirRows e))

/-- Fields of the header (R189). -/
def fiTrees (bs : List Byte) : Nat := leAt bs 6 2
def fiLength (bs : List Byte) : Nat := leAt bs 8 4
def fiClasses (bs : List Byte) : Nat := leAt bs 12 1
def fiDecide (bs : List Byte) : Nat := leAt bs 13 1
def fiMasked (bs : List Byte) : Bool := decide (leAt bs 14 1 % 2 = 1)
def fiTrig (bs : List Byte) : Nat := leAt bs 15 1
def fiPerClose (bs : List Byte) : Nat := leAt bs 16 2
def fiThresh (bs : List Byte) : Int := leIntAt bs 20 4
def fiBias (bs : List Byte) (c : Nat) : Int := leIntAt bs (24 + 4 * c) 4
def fiCode (bs : List Byte) (c : Nat) : Byte := BitVec.ofNat 8 (leAt bs (56 + c) 1)
def fiCodeNone (bs : List Byte) : Byte := BitVec.ofNat 8 (leAt bs 64 1)
def fiReport (bs : List Byte) (code : Byte) : Bool := decide (leAt bs (96 + code.toNat / 8) 1 / 2 ^ (code.toNat % 8) % 2 = 1)

/-- LENGTH as the parts add up to (R188). -/
def fiSum (bs : List Byte) (dir : List (Word × Word)) : Nat :=
  1152 + 8 * dir.length + 4 * (dir.map dirNodes).sum + 68 * (dir.map dirRows).sum +
  (if fiMasked bs then 2048 else 0) + 48

/-- Bit e of the entity mask, which stands before the digest (R188). -/
def fiMaskBit (bs : List Byte) (e : Nat) : Bool :=
  !fiMasked bs || decide (leAt bs (fiLength bs - 48 - 2048 + e / 8) 1 / 2 ^ (e % 8) % 2 = 1)

/-! ### The loader's checks (R192) -/

/-- Is a feature descriptor allowed at its index and in this role (R170, R171, R173, R190)? -/
def featOk (sys child : Bool) (i : Nat) (raw : List Byte) : Bool :=
  let d := featOf raw
  if !d.used then decide (ofLe raw = 0)
  else
    decide (fld (descW raw 1) 19 13 = 0) && (decide (d.src = 3) || decide (d.sel2 = 0)) &&
    (decide (d.qkind = 0) || decide (d.bias = 0)) && (decide (d.qkind ≤ 1) || decide (d.shift = 0)) &&
    (if i < 32 then
      decide (d.qkind ≤ 1) &&
      (match d.src with
       | 0 => decide (d.sel < 256)
       | 1 => decide (d.sel < 256)
       | 2 => !sys
       | 3 => !sys
       | 4 => child && decide (d.sel < 256)
       | _ => false)
    else decide (d.src = 7) && decide (d.sel = 0) && decide (2 ≤ d.qkind) && decide (d.qkind ≤ 6))

/-- The first number below `n` that satisfies `p`. -/
def firstBad (n : Nat) (p : Nat → Bool) : Option Nat := (List.range n).find? p

/-- Ranges of two trees in one bank that meet. -/
def clash (a b : Tree) : Bool :=
  decide (a.bank = b.bank) &&
  ((decide (a.seg < b.seg + b.nseg) && decide (b.seg < a.seg + a.nseg)) ||
   (decide (a.nodes ≠ []) && decide (b.nodes ≠ []) &&
    decide (a.nbase < b.nbase + b.nodes.length) && decide (b.nbase < a.nbase + a.nodes.length)))

/-- A tree's own place (R163, R192). -/
def placeOk (t : Tree) : Bool :=
  decide (1 ≤ t.nseg) && decide (t.nseg ≤ 17) && decide (t.seg + t.nseg ≤ 64) && decide (1 ≤ t.rows.length) &&
  decide (t.rows.length ≤ 257) && decide (t.rows.length ≤ 16 * t.nseg) && decide (t.nbase + t.nodes.length ≤ 1024)

/-- Bit 255. -/
def bit255 : BitVec 256 := BitVec.ofNat 256 (2 ^ 255)

def isDefault (r : LeafRow) : Bool := decide (r.value = bit255) && decide (r.care = bit255)

def rowOk (nodes classes : Nat) (r : LeafRow) : Bool :=
  bit r.value 255 && bit r.care 255 && decide (r.value &&& ~~~ r.care = 0) &&
  decide (fld r.care nodes (255 - nodes) = 0) && decide (fld r.leaf 16 3 < classes) && decide (fld r.leaf 19 13 = 0)

/-- Two rows that both match some key. -/
def rowsMeet (a b : LeafRow) : Bool := decide (a.care &&& b.care &&& (a.value ^^^ b.value) = 0)

/-- Do two of a tree's rows other than its last both match some key? -/
def treeOverlap (t : Tree) : Bool :=
  let rec go : List LeafRow → Bool
    | [] => false
    | r :: rs => rs.any (rowsMeet r) || go rs
  go t.rows.dropLast

/-- Header parameters (R189, R177, R178). -/
def headerOk (bs : List Byte) (feats : List FeatDesc) : Bool :=
  decide (1 ≤ fiTrees bs) && decide (fiTrees bs ≤ 4096) && decide (1 ≤ fiClasses bs) && decide (fiClasses bs ≤ 8) &&
  decide (fiDecide bs ≤ 2) && (decide (fiDecide bs ≠ 1) || decide (fiClasses bs = 1)) &&
  decide (leAt bs 14 1 ≤ 1) && decide (1 ≤ fiPerClose bs) && decide (fiPerClose bs ≤ 16384) &&
  (decide (fiTrig bs = 0) || feats.any fun d => d.used && decide (d.src = 4)) &&
  decide (leAt bs 18 2 = 0) && decide (leAt bs 65 15 = 0) &&
  ((List.range 8).all fun c =>
    decide ((fiBias bs c).natAbs ≤ 2 ^ 30) && (decide (c < fiClasses bs) || decide (fiBias bs c = 0)) &&
    decide (fiCode bs c ≠ 0xFF)) && decide (fiCodeNone bs ≠ 0xFF)

/-- The loader (R192) on what was read: DETAIL and index, or the copy. The failing index is a tree's, or a
feature's for BAD_FEATURE. -/
def forestLoad (sys child : Bool) (dead : List Nat) (bs : List Byte) (arg : Nat) : (Nat × Nat) ⊕ ForestCopy :=
  let n := fiTrees bs
  let dir := treeDir bs n
  let len := fiSum bs dir
  if leAt bs 0 4 ≠ 0x4946584B then .inl (1, 0)
  else if leAt bs 4 1 ≠ 1 then .inl (2, 0)
  else if fiLength bs ≠ len ∨ arg < len then .inl (3, 0)
  else if sha384 (bs.take (len - 48)) ≠ slice bs (len - 48) 48 then .inl (4, 0)
  else
    let feats := featsOf bs
    let nodes := bs.drop (1152 + 8 * n)
    let trees := treesOf dir nodes (nodes.drop (4 * (dir.map dirNodes).sum))
    let at? (p : Tree → Bool) : Option Nat := trees.findIdx? p
    let clashes (i : Nat) : Bool := match trees[i]? with
      | none => false
      | some t => (trees.take i).any (clash t)
    match at? fun t => !placeOk t with
    | some i => .inl (5, i)
    | none => match firstBad n clashes with
    | some i => .inl (5, i)
    | none => match at? fun t => !((t.rows.getLast?.map isDefault).getD false) with
    | some i => .inl (6, i)
    | none => match at? fun t => !(t.rows.all (rowOk t.nodes.length (fiClasses bs))) with
    | some i => .inl (7, i)
    | none => match at? treeOverlap with
    | some i => .inl (8, i)
    | none => match firstBad 64 fun i => !featOk sys child i (slice bs (128 + 16 * i) 16) with
    | some i => .inl (9, i)
    | none => match (trees.flatMap (·.nodes)).find? fun x => !((feats[x.1]?.map (·.used)).getD false) with
    | some x => .inl (9, x.1)
    | none =>
      if !headerOk bs feats then .inl (10, 0)
      else match at? fun t => dead.contains t.bank with
        | some i => .inl (11, i)
        | none => .inr { image := bs.take len, feats, trees, valid := true }

/-- The largest forest image in bytes (R163, R188). -/
def forestMax : Nat := 1152 + 8 * 4096 + 4 * 65536 + 68 * 65536 + 2048 + 48

/-! ### Search and vote (R164 to R168, R176, R177) -/

/-- The search key of a tree (R164, R166). -/
def treeKey (codes : List Nat) (t : Tree) : BitVec 256 :=
  BitVec.ofNat 256 (2 ^ 255 + ofBits (t.nodes.map fun n => decide (n.2 ≤ codes.getD n.1 0)))
where
  /-- The number whose bit i is item i. -/
  ofBits : List Bool → Nat
    | [] => 0
    | b :: bs => (if b then 1 else 0) + 2 * ofBits bs

/-- A row matches a key (R167). -/
def rowHit (key : BitVec 256) (r : LeafRow) : Bool := decide ((key ^^^ r.value) &&& r.care = 0)

/-- The flags of a verdict (R179). -/
def vfDegraded : Nat := 8
def vfDefault : Nat := 7
def vfDiv0 : Nat := 6
def vfEmpty : Nat := 5
def vfNan : Nat := 4
def vfStale : Nat := 3
def vfLow : Nat := 2
def vfTest : Nat := 1
def vfUnscored : Nat := 0

/-- Class sums so far, flags, and the trees that chose their default leaf with their banks and keys. -/
structure Tally where
  sums  : List Int
  flags : BitVec 16
  defs  : List (Nat × Nat × BitVec 256)

/-- One tree's vote. `gives` says whether the tree can vote (R165, R196, R197). -/
def voteTree (codes : List Nat) (gives : Bool) (i : Nat) (t : Tree) (a : Tally) : Tally :=
  if !gives then { a with flags := setBit a.flags vfDegraded true }
  else
    let key := treeKey codes t
    match t.rows.findIdx? (rowHit key) with
    | none => { a with flags := setBit a.flags vfDegraded true }
    | some r =>
      let leaf := ((t.rows[r]?).map (·.leaf)).getD 0
      let sums := modNth (fld leaf 16 3) (· + sgn 16 (fld leaf 0 16)) a.sums
      if r = t.rows.length - 1 ∧ 1 < t.rows.length then
        { sums, flags := setBit a.flags vfDefault true, defs := a.defs ++ [(i, t.bank, key)] }
      else { a with sums }

/-- Every tree votes (R176). -/
def voteAll (codes : List Nat) (gives : Nat → Tree → Bool) : Nat → List Tree → Tally → Tally
  | _, [], a => a
  | i, t :: ts, a => voteAll codes gives (i + 1) ts (voteTree codes (gives i t) i t a)

/-- The winner among class sums: the highest, ties to the lower index (R177). -/
def argMax (sums : List Int) : Nat × Int :=
  let rec go : Nat → List Int → Nat × Int → Nat × Int
    | _, [], best => best
    | i, x :: xs, best => go (i + 1) xs (if best.2 < x then (i, x) else best)
  match sums with
  | [] => (0, 0)
  | x :: xs => go 1 xs (0, x)

/-- Class, sum, code and whether LOW_CONF (R177). -/
def decideClass (bs : List Byte) (sums : List Int) : Nat × Int × Byte × Bool :=
  let w := argMax (sums.take (fiClasses bs))
  match fiDecide bs with
  | 1 => (0, w.2, if fiThresh bs ≤ w.2 then fiCode bs 1 else fiCode bs 0, false)
  | 2 => if w.2 < fiThresh bs then (w.1, w.2, fiCodeNone bs, true) else (w.1, w.2, fiCode bs w.1, false)
  | _ => (w.1, w.2, fiCode bs w.1, false)

end Sys2Proof.Machine
end

