-- ==== Sys2Proof/Machine/ForestRun.lean ====
section
/-!
DEFINITION. The forest engine at work: batches, inferences, verdicts, scrubbing, bank moves, rewrites and
activations (R170 to R172, R175, R179 to R187, R193 to R198, R202).
-/
namespace Sys2Proof.Machine

def State.engine (s : State) (e : Nat) : Forest := Tab.read Forest.reset s.forest.engines e

def State.modEngine (s : State) (e : Nat) (f : Forest → Forest) : State :=
  { s with forest := { s.forest with engines := Tab.modify Forest.reset s.forest.engines e f } }

def State.modFtab (s : State) (f : Ftab → Ftab) : State :=
  { s with forest := { s.forest with ftab := f s.forest.ftab } }

/-- Engines of this role: one in a die hub, 16 in the KXA-32 (R163, R199). -/
def State.engineCount (s : State) : Nat := if s.isSystem then 16 else 1

def fPage (e : Nat) : Nat := pageKey 0x20 e 0

/-- Measurement indices of an engine's copies and of the table's (R491). -/
def forestItem (e : Nat) (inactive : Bool) : Nat := 0x20 + 2 * e + if inactive then 1 else 0
def ftabItem (inactive : Bool) : Nat := 0x40 + if inactive then 1 else 0

/-- An image with CHILD features (R183). -/
def hasChild (c : ForestCopy) : Bool := c.feats.any fun d => d.used && decide (d.src = 4)

/-- The reduction node whose slots an engine reads: the merging node for an image with CHILD features. -/
def State.forestNode (s : State) (c : ForestCopy) : Nat := if s.isHead && hasChild c then 1 else 0

/-- The block can issue inferences: powered and not cut (R198, R462). -/
def State.forestRuns (s : State) : Bool :=
  (decide (s.bpwr.state = .run) || decide (s.bpwr.state = .idle) || decide (s.bpwr.state = .entering)) &&
    decide (s.snuff.state ≠ .cut)

/-! ### FOREST_SCORE (R198, R202) -/

/-- Does a tree give a vote: not disabled, its bank neither dead nor moving (R196, R197)? -/
def treeGives (f : Forest) (i : Nat) (t : Tree) : Bool :=
  !f.disabled.contains i && !f.dead.contains t.bank && !(f.rebuild.any fun r => decide (r = .move t.bank))

/-- A rewrite of the whole TCAM runs or waits (R193, R198); a bank's move is none (R196). -/
def rewrites (f : Forest) : Bool := f.rebuild.any fun r => match r with
  | .move _ => false
  | _ => true

/-- The class sums, flags and default leaves of a set of codes under the active image (R176). -/
def scoreCodes (f : Forest) (codes : List Nat) : Tally :=
  voteAll codes (treeGives f) 0 f.active.trees
    { sums := (List.range 8).map fun c => if c < fiClasses f.active.image then fiBias f.active.image c else 0,
      flags := 0, defs := [] }

/-- Score the codes in a page's ARG words and complete its command (R202). -/
def State.scoreNow (s : State) (e : Nat) (pkg : Bool) (page : Nat) : State :=
  let f := s.engine e
  let codes := (List.range 32).flatMap fun k =>
    let w := s.reg (cmdKey pkg page) (0x80 + 4 * k)
    [fld w 0 16, fld w 16 16]
  let t := scoreCodes f codes
  let d := decideClass f.active.image t.sums
  let flags := setBit (if d.2.2.2 then setBit t.flags vfLow true else t.flags) vfTest true
  let s := if t.defs = [] then s else (s.bump (fPage e) 0x5C t.defs.length).setErr (fPage e) 18
  let s := if bit flags vfDegraded then s.setErr (fPage e) 20 else s
  let s := (List.range 8).foldl (fun s c => s.setRes pkg page c (unsgn 32 (t.sums.getD c 0))) s
  (s.setRes pkg page 8 (d.2.2.1.toNat + d.1 * 2 ^ 8 + flags.toNat * 2 ^ 16)).complete pkg page stOk 0

/-- Is the next issue slot free of a batch (R198)? -/
def scoreFree (f : Forest) : Bool :=
  f.active.valid && !rewrites f && (match f.batch with | some b => decide (b.todo = []) | none => true)

/-- Serve the commands that wait for an issue slot, once one is free. -/
def State.scoreServe (s : State) (e : Nat) : State :=
  let f := s.engine e
  if scoreFree f then
    let s := f.scores.foldl (fun s r => s.scoreNow e r.pkg r.page) s
    s.modEngine e fun f => { f with scores := [] }
  else s

/-! ### Batches (R172, R182, R183) -/

/-- Entities of a directory that the image admits, in ascending order from `next`, wrapping (R182). -/
def eligible (c : ForestCopy) (dir : Tab Word) (next : Nat) : List Nat :=
  let l := (dir.filter fun e => bit e.2 31 && decide (e.1 < 16384) && fiMaskBit c.image e.1).map (·.1)
  ((l.filter fun e => decide (next ≤ e)) ++ l.filter fun e => decide (e < next)).take (fiPerClose c.image)

/-- End the batch in progress: what was not issued is counted in SKIP, and the batch's NaN record is written
(R175, R183). -/
def State.batchEnd (s : State) (e : Nat) : State :=
  match (s.engine e).batch with
  | none => s
  | some b =>
    let s := s.modEngine e fun f => { f with batch := none }
    let s := s.bump (fPage e) 0x54 b.todo.length
    if b.nans = 0 then s
    else s.log 0x20 e 0x0002 3 b.firstNan.1 b.firstNan.2 (leBytes 4 b.nans ++ leBytes 8 b.epoch)

/-- What a close leaves to the engines (R27, R172). -/
def State.closeSnap (s : State) (epoch : Nat) : CloseSnap :=
  { epoch, dir := s.forest.ftab.active.dir, cols := s.forest.ftab.active.cols, ftabAct := s.forest.ftab.act,
    probes := s.samp.probes, clusters := s.samp.clusters, regions := s.samp.regions }

/-- What a close left, or the latest one (R172). -/
def State.snapOf (s : State) (epoch : Nat) : CloseSnap :=
  (s.forest.snaps.find? fun x => decide (x.epoch = epoch)).getD (s.closeSnap epoch)

/-- The close that a batch would belong to, and the window that starts it: the latest close, or for an image
with CHILD features the close that ended TRIG_SLOT's latest window (R183). -/
def State.batchClose (s : State) (c : ForestCopy) : Option (Nat × Nat) :=
  if hasChild c then
    let n := s.red (s.forestNode c)
    match n.active.rules.find? fun r => decide (r.slot = fiTrig c.image) with
    | none => none
    | some r =>
      let x := Tab.read SlotRec.empty n.slots r.slot
      if bit x.stat 31 then some (x.window * r.div + r.div - 1, x.window) else none
  else if s.samp.grid.closed then some (s.samp.grid.epochNo, 0) else none

/-- BATCH_START (R183, R193, R198): a batch of the latest close starts, or, while the TCAM is rewritten, its
entities are counted in SKIP. -/
def State.batchStart (s : State) (e : Nat) : State :=
  let f := s.engine e
  if !f.active.valid || !s.forestRuns || !decide (e < s.engineCount) then s
  else match s.batchClose f.active with
  | none => s
  | some (epoch, window) =>
    if epoch < f.done then s
    else
      let snap := s.snapOf epoch
      let todo := eligible f.active snap.dir f.next
      let s := (s.batchEnd e).modEngine e fun f => { f with done := epoch + 1 }
      if rewrites f then s.bump (fPage e) 0x54 todo.length
      else
        let n := s.red (s.forestNode f.active)
        let child := hasChild f.active
        let start := max s.now (s.samp.grid.lastClose + if child then 0 else 80 * ns)
        let b : Batch :=
          { epoch, start, limit := if child then none else some (s.nextClose + 80 * ns), todo, issued := 0, window,
            slots := n.slots, rules := n.active.rules, kids := n.kids, snap,
            dir := snap.dir, cols := snap.cols, ftabAct := snap.ftabAct,
            nans := 0, firstNan := (0, 0), defTrees := [] }
        ((s.advanceTo start).modEngine e fun f => { f with batch := some b, tag := BitVec.ofNat 8 epoch, issued := 0 })
          |>.scoreServe e

def execBatchStart (engine : Nat) (s : State) : Host.Outcome State Fault Refusal := finish (s.batchStart engine)

/-! ### Features (R171, R172, R175) -/

/-- The sum of a probe's latest deltas over a counter set. -/
def lastSum (set : Nat) (x : Probe) : Nat := (x.last.map fun e => if bit (word set) e.1 then e.2.toNat else 0).sum

/-- A unit's input is doubtful: its cluster STALE or LOST, its region ABSENT or under reset (R172). -/
def unitDoubt (x : CloseSnap) (p : Nat) : Bool :=
  let c := Tab.read Cluster.reset x.clusters (clusterOf p)
  let r := Tab.read Region.reset x.regions (regionOf (clusterOf p))
  c.stale || c.lost || r.absent || r.inReset

/-- A slot's scalar with its flags (R172). -/
def slotInput (b : Batch) (slot : Nat) : Int × BitVec 16 :=
  if 256 ≤ slot ∨ !(b.rules.any fun r => decide (r.slot = slot)) then (0, 2 ^ vfEmpty)
  else
    let x := Tab.read SlotRec.empty b.slots slot
    let stale : BitVec 16 := if bit x.stat 31 ∧ bit x.stat flStale then 2 ^ vfStale else 0
    if !bit x.stat 31 || bit x.stat 29 then (0, stale ||| 2 ^ vfEmpty) else (x.scalar, stale)

/-- The partial of a child for the batch's window (R171, R172). -/
def childInput (b : Batch) (slot child : Nat) : Int × BitVec 16 :=
  match b.rules.find? fun r => decide (r.slot = slot),
      (Tab.read noKids b.kids (slot * 256 + child)).find? fun p => decide (p.window = b.window) with
  | some r, some p =>
    let stale : BitVec 16 := if bit p.flags flStale then 2 ^ vfStale else 0
    if p.units = 0 then (0, stale ||| 2 ^ vfEmpty) else ((opScalar r p.op).1, stale)
  | _, _ => (0, 2 ^ vfEmpty)

/-- The value of a dynamic feature for an entity with directory word `dw` (R171, R172). `units` is the number
of probes. -/
def dynInput (units : Nat) (b : Batch) (dw : Word) (d : FeatDesc) : Int × BitVec 16 :=
  let p := fld dw 16 13
  let x := Tab.read Probe.reset b.snap.probes p
  let fl : BitVec 16 := if unitDoubt b.snap p then 2 ^ vfStale else 0
  match d.src with
  | 0 => slotInput b d.sel
  | 1 => slotInput b (d.sel + fld dw 8 8)
  | 2 => if units ≤ p then (0, 2 ^ vfEmpty) else (lastSum d.sel x, fl)
  | 3 =>
    if units ≤ p then (0, 2 ^ vfEmpty)
    else
      let q := ratioQ (lastSum d.sel x) 0 (lastSum d.sel2 x) 0
      (q.1, fl ||| if q.2.1 then 2 ^ vfDiv0 else 0)
  | 4 => childInput b d.sel (fld dw 0 8)
  | _ => (0, 0)

/-- The codes of an entity's features, its flags, and the first feature that met a NaN. `forced`: an injected
NaN stands at the first used static feature (R200). -/
structure Coded where
  codes : List Nat
  flags : BitVec 16
  nan   : Option Nat
  forced : Bool

def codeFeat (units : Nat) (b : Batch) (entity : Nat) (dw : Word) (a : Coded) (i : Nat) (d : FeatDesc) : Coded :=
  if !d.used then { a with codes := a.codes ++ [0] }
  else if i < 32 then
    let v := dynInput units b dw d
    { a with codes := a.codes ++ [qDynamic d v.1], flags := a.flags ||| v.2 }
  else
    let q := if a.forced then none else qStatic d.qkind (Tab.read bv16Zero b.cols (32 * entity + (i - 32)))
    match q with
    | some c => { a with codes := a.codes ++ [c] }
    | none => { a with codes := a.codes ++ [0], nan := some (a.nan.getD i), forced := false }

def codeAll (units : Nat) (b : Batch) (entity : Nat) (dw : Word) : Nat → List FeatDesc → Coded → Coded
  | _, [], a => a
  | i, d :: ds, a => codeAll units b entity dw (i + 1) ds (codeFeat units b entity dw a i d)

/-! ### Inferences (R175, R183, R184) -/

/-- The verdict of one entity, with the tally of its votes. -/
def inferOne (units : Nat) (f : Forest) (b : Batch) (entity : Nat) (forced : Bool) : Verdict × Tally × Option Nat :=
  let dw := Tab.read wordZero b.dir entity
  let c := codeAll units b entity dw 0 f.active.feats { codes := [], flags := 0, nan := none, forced }
  match c.nan with
  | some k =>
    ({ entity, code := 0xFF, cls := 0xFF, flags := 2 ^ vfNan ||| 2 ^ vfUnscored, sum := 0, act := f.act,
       ftabAct := b.ftabAct, epoch := b.epoch }, { sums := [], flags := 0, defs := [] }, some k)
  | none =>
    let t := scoreCodes f c.codes
    let d := decideClass f.active.image t.sums
    ({ entity, code := d.2.2.1, cls := BitVec.ofNat 8 d.1,
       flags := c.flags ||| t.flags ||| (if d.2.2.2 then 2 ^ vfLow else 0), sum := d.2.1, act := f.act,
       ftabAct := b.ftabAct, epoch := b.epoch }, t, none)

/-- Record the default leaves that trees selected, once per tree and batch (R168). -/
def State.defaultHits (s : State) (e epoch : Nat) (defs : List (Nat × Nat × BitVec 256)) : State :=
  let s := if defs = [] then s else (s.bump (fPage e) 0x5C defs.length).setErr (fPage e) 18
  defs.foldl (fun s d =>
    match (s.engine e).batch with
    | some b =>
      if b.defTrees.contains d.1 then s
      else
        (s.log 0x20 e 0x0001 4 d.1 d.2.1 (leBytes 32 d.2.2.toNat ++ leBytes 8 epoch)).modEngine e fun f =>
          { f with batch := some { b with defTrees := d.1 :: b.defTrees } }
    | none => s) s

/-- INFERENCE_ISSUE (R183): the next entity of the batch, while the batch has time left. -/
def State.inferIssue (s : State) (e : Nat) : State :=
  let f := s.engine e
  match f.batch with
  | none => s
  | some b =>
    match b.todo with
    | [] => s
    | x :: rest =>
      let inTime := match b.limit with
        | some l => decide (b.start + 40 * ns * (b.issued + 1) ≤ l)
        | none => true
      if !inTime || !s.forestRuns || rewrites f then s
      else
        let s := s.advanceTo (b.start + 40 * ns * b.issued)
        let s := s.bump (pg 0x02) 0x58 (if f.scores = [] then 0 else 1)
        let static := f.active.feats.drop 32 |>.any (·.used)
        let inj := if static then s.injTake (fPage e) 0x11 else (false, s)
        let s := inj.2
        let r := inferOne (if s.isDie then s.samp.units else 0) f b x inj.1
        let s := s.modEngine e fun f => { f with
          next := (x + 1) % 16384, issued := f.issued + 1, flight := f.flight ++ [r.1],
          batch := some { b with
            todo := rest, issued := b.issued + 1, nans := b.nans + (if r.2.2.isSome then 1 else 0),
            firstNan := match r.2.2 with
              | some k => if b.nans = 0 then (x, k) else b.firstNan
              | none => b.firstNan } }
        let s := match r.2.2 with
          | some _ => (s.setErr (fPage e) 16).bump (fPage e) 0x58 1
          | none => s.defaultHits e b.epoch r.2.1.defs
        let s := if bit r.1.flags vfDegraded then s.setErr (fPage e) 20 else s
        if rest = [] then (s.batchEnd e).scoreServe e else s

def execInferenceIssue (engine : Nat) (s : State) : Host.Outcome State Fault Refusal := finish (s.inferIssue engine)

/-! ### Verdicts (R179, R180) -/

/-- The bytes of a verdict record. -/
def State.verdictBytes (s : State) (v : Verdict) : List Byte :=
  leBytes 2 v.entity ++ [v.code, v.cls] ++ leBytes 4 v.flags.toNat ++ leBytes 4 (unsgn 32 v.sum) ++ [v.act, v.ftabAct] ++
  zeros 2 ++ leBytes 8 v.epoch ++ leBytes 4 (s.elemId 1 v.entity) ++ zeros 4

/-- The verdict table's word (VDATA, R200). -/
def vdataWord (v : Verdict) : Word :=
  let b (i j : Nat) : Nat := if bit v.flags i then 2 ^ j else 0
  word (v.code.toNat * 2 ^ 24 + v.epoch % 256 * 2 ^ 16 + v.act.toNat * 2 ^ 8 + 2 ^ 7 + b vfStale 6 + b vfNan 5 +
    b vfEmpty 4 + b vfDefault 3 + b vfDegraded 2 + b vfDiv0 1 + b vfLow 0)

/-- Where a verdict goes inside this chapter (R180): the table, the ENTITY source, the Geyser trigger, the ring,
and upward. An UNSCORED verdict is no ENTITY element (R124). -/
def State.verdictPost (s : State) (e : Nat) (v : Verdict) : State :=
  let f := s.engine e
  let s := s.modEngine e fun f => { f with table := Tab.write wordZero f.table v.entity (vdataWord v) }
  let s := if bit v.flags vfUnscored then s
    else { s with reds := { s.reds with
      verdicts := s.reds.verdicts ++ [(v.entity, v.code.toNat, v.sum)]
      staleVerdicts := if bit v.flags vfStale then s.reds.staleVerdicts ++ [v.entity] else s.reds.staleVerdicts } }
  let s := s.gyTrigger (.verdict v.entity v.code)
  let s := if bit (s.reg (fPage e) 0x44) 2 then
      let ring := verdictRing (fPage e)
      if s.ringRoom ring 32 then s.ringPut ring (s.verdictBytes v) else s.bump (fPage e) 0x84 1
    else s
  if bit (s.reg (fPage e) 0x44) 1 && fiReport f.active.image v.code then s.sendTyp 0x30 .up (s.verdictBytes v) else s

/-! ### Rewrites and activations (R187, R193, R198) -/


/-- Start a rewrite; it runs after those before it (R198). -/
def State.rebuildStart (s : State) (e : Nat) (k : Rebuild) : State :=
  s.modEngine e fun f => { f with rebuild := f.rebuild ++ [k] }

/-- The first batch of an engine is that of the first close after now (R193, R198). -/
def State.batchAfter (s : State) (e : Nat) : State :=
  s.modEngine e fun f => { f with done := max f.done (s.samp.grid.epochNo + 1) }

/-- TCAM_REWRITE (R193): the rewrite that runs ends; an activation's makes its copy active. -/
def State.rebuildEnd (s : State) (e : Nat) : State :=
  match (s.engine e).rebuild with
  | [] => s
  | k :: ks =>
    let s := s.modEngine e fun f => { f with rebuild := ks }
    let s := match k with
      | .activate =>
        if (s.engine e).inactive.valid && s.isMeasured (forestItem e true) then
          (((s.modEngine e fun f => { f with
            active := f.inactive, inactive := f.active, act := f.act + 1, next := 0, table := [], disabled := [] }).measSwap
              (forestItem e false) (forestItem e true)).batchAfter e)
        else s.batchAfter e
      | .restore => s.batchAfter e
      | .move _ => s
    s.scoreServe e

def execTcamRewrite (engine : Nat) (s : State) : Host.Outcome State Fault Refusal := finish (s.rebuildEnd engine)

/-- The pending activations of an engine at a close (R193): the batch in progress ends, the rewrite starts, the copy that
it replaces is the inactive one from then on, the digests swap (R491), and the command completes. -/
def State.forestActs (s : State) (e : Nat) (c : CloseInfo) : State :=
  let l := (s.engine e).acts
  let s := s.modEngine e fun f => { f with acts := f.acts.filter fun a => !actDue c a && !actStepped c a }
  l.foldl (fun s a =>
    if actStepped c a then s.complete a.pkg a.page stError 0x20
    else if actDue c a then
      if !(s.engine e).inactive.valid then s.complete a.pkg a.page stError 0x0E
      else if !s.isMeasured (forestItem e true) then s.complete a.pkg a.page stUnmeasured 0
      else
        let pend := ((s.engine e).rebuild.filter fun r => match r with
          | .activate => true
          | _ => false).length
        let act := ((s.engine e).act.toNat + pend + 1) % 256
        let s := (s.batchEnd e).rebuildStart e .activate
        (((s.setRes a.pkg a.page 0 c.no).setRes a.pkg a.page 1 (c.no / 2 ^ 32)).setRes a.pkg a.page 2 act)
          |>.complete a.pkg a.page stOk 0
    else s) s

/-- The pending activations of the feature table at a close: the copies swap, with no gap (R187). -/
def State.ftabActs (s : State) (c : CloseInfo) : State :=
  let l := s.forest.ftab.acts
  let s := s.modFtab fun f => { f with acts := f.acts.filter fun a => !actDue c a && !actStepped c a }
  l.foldl (fun s a =>
    if actStepped c a then s.complete a.pkg a.page stError 0x20
    else if actDue c a then
      if !s.forest.ftab.inactive.valid then s.complete a.pkg a.page stError 0x0E
      else if !s.isMeasured (ftabItem true) then s.complete a.pkg a.page stUnmeasured 0
      else
        let s := s.modFtab fun f => { f with active := f.inactive, inactive := f.active, act := f.act + 1, dirty := false }
        let s := (List.range s.engineCount).foldl (fun s e => s.modEngine e fun f => { f with next := 0 }) s
        let s := s.measSwap (ftabItem false) (ftabItem true)
        (((s.setRes a.pkg a.page 0 c.no).setRes a.pkg a.page 1 (c.no / 2 ^ 32)).setRes a.pkg a.page 2
          s.forest.ftab.act.toNat).complete a.pkg a.page stOk 0
    else s) s

/-- The engine's part of a close: activations, and what the close leaves to the batches (R172). -/
def State.forestClose (s : State) (c : CloseInfo) : State :=
  let s := (List.range s.engineCount).foldl (fun s e => s.forestActs e c) s
  let s := s.ftabActs c
  { s with forest := { s.forest with snaps := (s.closeSnap c.no :: s.forest.snaps).take 1024 } }

/-! ### Scrubbing, spares, damaged trees (R194 to R197) -/

/-- The tree that owns a row of a bank. -/
def treeOfRow (c : ForestCopy) (bank row : Nat) : Nat :=
  (c.trees.findIdx? fun t => decide (t.bank = bank) && decide (16 * t.seg ≤ row) && decide (row < 16 * (t.seg + t.nseg))).getD 0xFFFF

/-- A failing bank (R196): its logical index moves to the spare bank, or it is disabled. -/
def State.bankMove (s : State) (e bank : Nat) : State :=
  let f := s.engine e
  if f.dead.contains bank then s
  else if f.bankFor.isNone then
    let s := s.modEngine e fun f => { f with
      bankFor := some bank, rowSpare := f.rowSpare.filter fun r => decide (r.1 / 1024 ≠ bank) }
    ((s.setErr (fPage e) 21).spareAdd 4 8 bank e).rebuildStart e (.move bank)
  else
    (s.modEngine e fun f => { f with dead := f.dead ++ [bank] }).replaceTray (fPage e) e bank 6

def execBankMove (engine bank : Nat) (s : State) : Host.Outcome State Fault Refusal :=
  finish (if engine < s.engineCount ∧ bank < 64 then s.bankMove engine bank else s)

/-- A TCAM row as the bank holds it: VALUE, CARE and the two parity bits that the engine writes (R167). -/
structure TcamRow where
  value   : BitVec 256
  care    : BitVec 256
  valuePar : Bool
  carePar  : Bool

/-- The parity of a 256-bit field. -/
def parity256 (x : BitVec 256) : Bool := (List.range 256).foldl (fun p i => p != x.getLsbD i) false

/-- The row that the engine writes from a row of the shadow. -/
def tcamRow (r : LeafRow) : TcamRow :=
  { value := r.value, care := r.care, valuePar := parity256 r.value, carePar := parity256 r.care }

/-- One stored bit of the row has flipped. -/
def TcamRow.upset (t : TcamRow) : TcamRow := { t with value := t.value ^^^ 1 }

/-- The scrubber's check: the two parity bits, and the compare with the shadow (R194). -/
def rowFails (t : TcamRow) (shadow : LeafRow) : Bool :=
  parity256 t.value != t.valuePar || parity256 t.care != t.carePar || decide (t.value ≠ shadow.value) || decide (t.care ≠ shadow.care)

/-- An unused row of a segment (R167). -/
def emptyRow : LeafRow := { value := 0, care := bit255, leaf := 0 }

/-- The shadow's content of a row of a bank. -/
def shadowRow (c : ForestCopy) (bank row : Nat) : LeafRow :=
  match c.trees.find? fun t => decide (t.bank = bank) && decide (16 * t.seg ≤ row) && decide (row < 16 * (t.seg + t.nseg)) with
  | some t => (t.rows[row - 16 * t.seg]?).getD emptyRow
  | none => emptyRow

/-- The row that a physical row of a bank serves: its own, or for a spare row the one mapped to it. -/
def servedRow (f : Forest) (bank row : Nat) : Nat :=
  if row < 1024 then row
  else ((f.rowSpare.find? fun r => decide (r.1 / 1024 = bank) && decide (r.2 = row - 1024)).map fun r => r.1 % 1024).getD row

/-- Spare rows of a bank in use. -/
def bankSpares (f : Forest) (bank : Nat) : Nat := (f.rowSpare.filter fun r => decide (r.1 / 1024 = bank)).length

/-- SCRUB_ROW (R194, R195): the bank's next row is checked. `bad`: a stored bit of it has flipped since it was written;
`stuck`: the read-back after the rewrite still differs. -/
def State.scrubRowAt (s : State) (e bank : Nat) (bad stuck : Bool) : State :=
  let f := s.engine e
  let row := Tab.read natZero f.scrubRow bank
  let key := bank * 1026 + row
  let inj := s.injTake (fPage e) 0x10
  let s := inj.2
  let s := s.modEngine e fun f => { f with scrubRow := Tab.write natZero f.scrubRow bank (if row = 1025 then 0 else row + 1) }
  let own := servedRow f bank row
  let shadow := shadowRow f.active bank own
  let stored := if bad || inj.1 then (tcamRow shadow).upset else tcamRow shadow
  if rowFails stored shadow then
    let tree := treeOfRow f.active bank own
    let s := ((s.bump (fPage e) 0x60 1).setErr (fPage e) 19).log 0x20 e 0x0003 4 tree (bank * 2 ^ 16 + row)
      (ftBytes (Tab.read natZero f.clean key) ++ ftBytes s.ft ++ zeros 4)
    if stuck && decide (own < 1024) then
      let n := bankSpares f bank
      if 2 ≤ n then s.bankMove e bank
      else
        let s := s.modEngine e fun f => { f with rowSpare := f.rowSpare ++ [(bank * 1024 + own % 1024, n)] }
        ((s.setErr (fPage e) 21).spareAdd 3 8 (bank * 1024 + own % 1024) n).log 0x20 e 0x0004 5 bank row []
    else s
  else s.modEngine e fun f => { f with clean := Tab.write natZero f.clean key s.ft }

def execScrubRow (engine bank : Nat) (bad stuck : Bool) (s : State) : Host.Outcome State Fault Refusal :=
  finish (if engine < s.engineCount ∧ bank < 64 ∧ s.bpwr.state ≠ .doze then s.scrubRowAt engine bank bad stuck else s)

/-- An uncorrectable shadow word of a tree disables the tree until the next activation (R197). -/
def State.treeDisable (s : State) (e tree : Nat) : State :=
  (s.modEngine e fun f => { f with disabled := if f.disabled.contains tree then f.disabled else f.disabled ++ [tree] })
    |>.log 0x20 e 0x0005 6 tree 0 []

end Sys2Proof.Machine
end

