-- ==== Sys2Proof/Machine/ForestCmd.lean ====
section
/-!
DEFINITION. The forest and feature-table commands, and writes through the FTAB window (R186, R187, R192, R193,
R198, R201, R202).
-/
namespace Sys2Proof.Machine

/-- The engine a command names: ARG_3[3:0] in system role, else the one engine (R202). -/
def engineArg (c : CmdIn) (s : State) : Nat := if s.isSystem then argFld c s 3 0 4 else 0

/-! ### Images -/

/-- FOREST_LOAD (R192): the image is read, then checked and measured. -/
def forestLoadCmd (c : CmdIn) (s : State) : State :=
  let len := (argW c s 2).toNat
  let e := engineArg c s
  let id := s.pages.nextXfer
  if len = 0 then (s.setErr (fPage e) 17).failCmd c 1
  else (s.waitFor c (.transfer id)).startXfer (.command c.pkg c.page.toNat) false (arg64 c s 0) len []

def execForestLoad (c : CmdIn) (s : State) : Host.Outcome State Fault Refusal :=
  finish (runCmd c 0x20 0x0001 .firmware true (forestLoadCmd c) s)

/-- FOREST_LOAD has its image, or its read failed. -/
def State.forestLoaded (s : State) (pkg : Bool) (n : Nat) (data : List Byte) (failed : Bool) : State :=
  let e := if s.isSystem then fld (s.reg (cmdKey pkg n) 0x8C) 0 4 else 0
  let arg := (s.reg (cmdKey pkg n) 0x88).toNat
  let r := if failed then .inl (12, 0) else forestLoad s.isSystem (s.isSystem || s.isHead) (s.engine e).dead data arg
  match r with
  | .inl x =>
    ((s.setErr (fPage e) 17).setRes pkg n 0 x.2).complete pkg n stError x.1
  | .inr cp =>
    let item := forestItem e true
    ((s.modEngine e fun f => { f with inactive := cp }).measure item (sha384 (cp.image.take (cp.image.length - 48)))
      (some (pkg, n))).waitPage pkg n (.measure item)

/-- FOREST_ACTIVATE (R193, R155). -/
def forestActivateCmd (c : CmdIn) (s : State) : State :=
  let e := engineArg c s
  s.actCheck c (s.engine e).inactive.valid (s.isMeasured (forestItem e true)) 0x0D 0x0E
    (s.modEngine e fun f => { f with acts := f.acts ++ [s.pendAct c] })

def execForestActivate (c : CmdIn) (s : State) : Host.Outcome State Fault Refusal :=
  finish (runCmd c 0x20 0x0002 .firmware true (forestActivateCmd c) s)

/-- FOREST_SCORE (R198, R202): the first issue slot that no batch uses. The command names no engine: engine 0. -/
def forestScoreCmd (c : CmdIn) (s : State) : State :=
  if c.nargs ≠ 32 then s.badArg c
  else if !(s.engine 0).active.valid then s.failCmd c 0x0E
  else
    ((s.modEngine 0 fun f => { f with scores := f.scores ++ [{ pkg := c.pkg, page := c.page.toNat }] }).waitFor c (.event 3 0))
      |>.scoreServe 0

def execForestScore (c : CmdIn) (s : State) : Host.Outcome State Fault Refusal :=
  finish (runCmd c 0x20 0x0003 .operator true (forestScoreCmd c) s)

/-- SCORE_SLOT_TIMEOUT (R198): a FOREST_SCORE that found no free issue slot within 1 ms. -/
def execScoreSlotTimeout (pkg : Bool) (page : BitVec 3) (s : State) : Host.Outcome State Fault Refusal :=
  finish (
    if (s.engine 0).scores.any fun r => decide (r.pkg = pkg) && decide (r.page = page.toNat) then
      (s.modEngine 0 fun f => { f with
        scores := f.scores.filter fun r => !(decide (r.pkg = pkg) && decide (r.page = page.toNat)) })
        |>.complete pkg page.toNat stTimeout 0
    else s)

/-- FOREST_DUMP (R202). -/
def forestDumpCmd (c : CmdIn) (s : State) : State :=
  let f := s.engine 0
  let cp := if bit (argW c s 0) 0 then f.inactive else f.active
  if !cp.valid then s.failCmd c 0x0E
  else (s.res c 0 cp.image.length).writeOut c (arg64 c s 1) cp.image

def execForestDump (c : CmdIn) (s : State) : Host.Outcome State Fault Refusal :=
  finish (runCmd c 0x20 0x0004 .firmware true (forestDumpCmd c) s)

/-! ### The feature table (R185 to R187, R201) -/

def ftabPage : Nat := pg 0x21

/-- The largest table image in bytes (R186). -/
def ftabMax : Nat := 64 + 4 * 16384 + 2 * 16384 * 32 + 48

def ftabLoadCmd (c : CmdIn) (s : State) : State :=
  let len := min (argW c s 2).toNat ftabMax
  let id := s.pages.nextXfer
  if len = 0 then (s.setErr ftabPage 17).failCmd c 1
  else (s.waitFor c (.transfer id)).startXfer (.command c.pkg c.page.toNat) false (arg64 c s 0) len []

def execFtabLoad (c : CmdIn) (s : State) : Host.Outcome State Fault Refusal :=
  finish (runCmd c 0x20 0x0010 .firmware true (ftabLoadCmd c) s)

/-- A directory word as the table holds it: its reserved bits are zero (R185). -/
def dirWord (w : Word) : Word := w &&& 0x9FFFFFFF

/-- Check a table image (R186): DETAIL, or the copy it spells. -/
def ftabOf (bs : List Byte) (arg : Nat) : Nat ⊕ FtabCopy :=
  let n := leAt bs 6 2
  let k := leAt bs 12 1
  let len := 64 + 4 * n + 2 * n * k + 48
  if leAt bs 0 4 ≠ 0x5446584B then .inl 1
  else if leAt bs 4 1 ≠ 1 then .inl 2
  else if leAt bs 8 4 ≠ len ∨ arg < len ∨ n = 0 ∨ 16384 < n ∨ 32 < k then .inl 3
  else if sha384 (bs.take (len - 48)) ≠ slice bs (len - 48) 48 then .inl 4
  else
    let dir := (List.range n).map fun e => (e, dirWord (word (leAt bs (64 + 4 * e) 4)))
    let cols := (List.range (n * k)).map fun i =>
      (32 * (i / k) + i % k, BitVec.ofNat 16 (leAt bs (64 + 4 * n + 2 * i) 2))
    .inr { dir := dir.filter fun x => decide (x.2 ≠ 0), cols := cols.filter fun x => decide (x.2 ≠ 0), valid := true }

/-- FTAB_LOAD has its image, or its read failed. -/
def State.ftabLoaded (s : State) (pkg : Bool) (n : Nat) (data : List Byte) (failed : Bool) : State :=
  let arg := (s.reg (cmdKey pkg n) 0x88).toNat
  let r := if failed then .inl 12 else ftabOf data arg
  match r with
  | .inl x => (s.setErr ftabPage 17).complete pkg n stError x
  | .inr cp =>
    let len := leAt data 8 4
    ((s.modFtab fun f => { f with inactive := cp, dirty := false }).measure (ftabItem true) (sha384 (data.take (len - 48)))
      (some (pkg, n))).waitPage pkg n (.measure (ftabItem true))

/-- The canonical image of a copy without its digest (R187). -/
def ftabCanonical (f : FtabCopy) : List Byte :=
  leBytes 4 0x5446584B ++ [1, 0] ++ leBytes 2 16384 ++ leBytes 4 ftabMax ++ [32, 0, 0, 0] ++ zeros 48 ++
  ((List.range 16384).flatMap fun e => leBytes 4 (Tab.read wordZero f.dir e).toNat) ++
  ((List.range (16384 * 32)).flatMap fun i => leBytes 2 (Tab.read bv16Zero f.cols i).toNat)

/-- FTAB_SEAL (R187). -/
def ftabSealCmd (c : CmdIn) (s : State) : State :=
  let f := s.forest.ftab.inactive
  if !f.valid then s.failCmd c 0x0E
  else
    ((s.modFtab fun f => { f with dirty := false }).measure (ftabItem true)
      (sha384 (ftabCanonical f)) (some (c.pkg, c.page.toNat))).waitFor c (.measure (ftabItem true))

def execFtabSeal (c : CmdIn) (s : State) : Host.Outcome State Fault Refusal :=
  finish (runCmd c 0x20 0x0011 .firmware true (ftabSealCmd c) s)

/-- FTAB_ACTIVATE (R187). -/
def ftabActivateCmd (c : CmdIn) (s : State) : State :=
  s.actCheck c s.forest.ftab.inactive.valid (s.isMeasured (ftabItem true)) 0x0D 0x0E
    (s.modFtab fun f => { f with acts := f.acts ++ [s.pendAct c] })

def execFtabActivate (c : CmdIn) (s : State) : Host.Outcome State Fault Refusal :=
  finish (runCmd c 0x20 0x0012 .firmware true (ftabActivateCmd c) s)

/-- FTAB_COPY (R202): the inactive copy becomes the active one's, and stays measured as it is. -/
def ftabCopyCmd (c : CmdIn) (s : State) : State :=
  if !s.forest.ftab.active.valid then s.failCmd c 0x0E
  else
    ((s.modFtab fun f => { f with inactive := f.active, dirty := false }).setMeas (ftabItem true)
      (s.meas (ftabItem false))).ok c

def execFtabCopy (c : CmdIn) (s : State) : Host.Outcome State Fault Refusal :=
  finish (runCmd c 0x20 0x0013 .firmware true (ftabCopyCmd c) s)

/-- The word of DIR (offset 0x048) or DATA_j that the selected entity of the selected copy shows (R201). -/
def State.ftabRead (s : State) (off : Nat) : Word :=
  let ix := s.reg ftabPage 0x44
  let f := if bit ix 31 then s.forest.ftab.inactive else s.forest.ftab.active
  let e := fld ix 0 14
  if off = 0x48 then Tab.read wordZero f.dir e
  else
    let j := (off - 0x80) / 4
    word ((Tab.read bv16Zero f.cols (32 * e + 2 * j)).toNat +
      (Tab.read bv16Zero f.cols (32 * e + 2 * j + 1)).toNat * 2 ^ 16)

/-- Submissions of an item whose content has changed since leave the queue; the commands that wait for them end UNMEASURED. -/
def State.measDrop (s : State) (item : Nat) : State :=
  let l := s.rot.queue.filter fun q => decide (q.item = item)
  let s : State := { s with rot := { s.rot with queue := s.rot.queue.filter fun q => decide (q.item ≠ item) } }
  l.foldl (fun s q => match q.page with
    | some (pkg, page) => s.complete pkg page stUnmeasured 0
    | none => s) s

/-- A write of DIR or DATA_j (R187, R201): it changes the inactive copy, or is discarded when the active copy is
selected. -/
def State.ftabWrite (s : State) (off : Nat) (w : Word) : State :=
  let ix := s.reg ftabPage 0x44
  let e := fld ix 0 14
  if !bit ix 31 then s.setErr ftabPage 16
  else
    let s := s.modFtab fun f => { f with
      dirty := true,
      inactive :=
        if off = 0x48 then { f.inactive with valid := true, dir := Tab.write wordZero f.inactive.dir e (dirWord w) }
        else
          let k := 32 * e + 2 * ((off - 0x80) / 4)
          { f.inactive with
            valid := true,
            cols := Tab.write bv16Zero (Tab.write bv16Zero f.inactive.cols k (w.setWidth 16)) (k + 1)
              ((w >>> 16).setWidth 16) } }
    (s.measDrop (ftabItem true)).setMeas (ftabItem true) { status := .unmeasured, digest := [] }

end Sys2Proof.Machine
end

