-- ==== Sys2Proof/Machine/Tiles.lean ====
section
/-!
DEFINITION. Tile reports (R203 to R212), kernel entries (R208), poison notices (R221 to R223) and taint epochs
(R206, R227).
-/
namespace Sys2Proof.Machine

def chkPage : Nat := pg 0x28

def State.modCheck (s : State) (f : Check → Check) : State := { s with check := f s.check }

/-! ### binary32 as exact numbers (R207) -/

/-- A finite binary32 as an integer multiple of 2^−149; none for a NaN or an infinity. -/
def f32Int (w : Word) : Option Int :=
  let e := fld w 23 8
  let m := fld w 0 23
  if e = 255 then none
  else
    let v : Int := if e = 0 then m else (m + 2 ^ 23) * 2 ^ (e - 1)
    some (if bit w 31 then -v else v)

def f32Nan (w : Word) : Bool := decide (fld w 23 8 = 255) && decide (fld w 0 23 ≠ 0)

/-- A number for comparison, with the infinities beyond every finite value; none for a NaN. -/
def f32Ord (w : Word) : Option Int :=
  if f32Nan w then none
  else match f32Int w with
    | some v => some v
    | none => some (if bit w 31 then -(2 ^ 400) else 2 ^ 400)

/-- A magnitude in units of 2^−149, rounded to the nearest binary32, ties to even (R209). -/
def f32OfMag (n : Nat) : Word :=
  if n < 2 ^ 23 then word n
  else
    let sh := n.log2 - 23
    let q := n / 2 ^ sh
    let rem := 2 * (n % 2 ^ sh)
    let q := if 2 ^ sh < rem ∨ (rem = 2 ^ sh ∧ sh ≠ 0 ∧ q % 2 = 1) then q + 1 else q
    let e := if q = 2 ^ 24 then sh + 2 else sh + 1
    let m := if q = 2 ^ 24 then 0 else q - 2 ^ 23
    if 255 ≤ e then 0x7F800000 else word (e * 2 ^ 23 + m)

/-- |ACT − PRED| as a CHECK element (R209): a NaN when either operand is one, or for two equal infinities. -/
def tileDiff (pred act : Word) : Word :=
  if f32Nan pred || f32Nan act then 0x7FC00000
  else match f32Int pred, f32Int act with
    | some p, some a => f32OfMag (a - p).natAbs
    | _, _ => if pred = act then 0x7FC00000 else 0x7F800000

/-- The checksum test: none when it does not run, else whether it fails (R207). -/
def cksFails (k : Kernel) (pred act : Word) : Option Bool :=
  match f32Int pred, f32Int act, f32Int k.absTol, f32Int k.relTol with
  | some p, some a, some t, some r => some (decide (t * 2 ^ 149 + r * (p.natAbs : Int) < ((a - p).natAbs : Int) * 2 ^ 149))
  | _, _, _, _ => none

/-- The range test (R207). -/
def rangeFails (k : Kernel) (tmin tmax : Word) (nans infs : Nat) : Bool :=
  (match f32Ord tmin, f32Ord tmax with
   | some a, some b =>
     decide (b < a) ||
     (match f32Ord k.lo with | some l => decide (a < l) | none => false) ||
     (match f32Ord k.hi with | some h => decide (h < b) | none => false)
   | _, _ => true) ||
  decide (fld k.limits 16 16 < nans) || decide (fld k.limits 0 16 < infs)

/-! ### Kernel entries (R208, R228) -/

def State.kernel (s : State) (k : Nat) : Kernel := Tab.read Kernel.reset s.check.kernels k
def State.modKernel (s : State) (k : Nat) (f : Kernel → Kernel) : State :=
  s.modCheck fun c => { c with kernels := Tab.modify Kernel.reset c.kernels k f }

/-- Does an entry hold values that make it invalid (R208)? -/
def kernelBad (k : Kernel) : Bool :=
  let neg (w : Word) : Bool := match f32Int w with
    | none => true
    | some v => decide (v < 0)
  neg k.absTol || neg k.relTol ||
  (match f32Ord k.lo, f32Ord k.hi with | some l, some h => decide (h < l) | _, _ => false)

/-- The kernel item has changed: it is measured anew (index 0x42 of R491; DESIGN CHOICE: when is not given). -/
def State.kernelChanged (s : State) : State := s.measure 0x42 [] none

/-- A write of KDATA word `w` of the selected entry (R208, R228); entry 255 ignores it. -/
def State.kernelWrite (s : State) (w : Nat) (v : Word) : State :=
  let k := s.regFld chkPage 0x5C 0 8
  if k = 255 then s
  else
    let s := (s.kernelChanged).modKernel k fun x =>
      if w = 0 then { x with absTol := v } else if w = 1 then { x with relTol := v }
      else if w = 2 then { x with lo := v } else if w = 3 then { x with hi := v }
      else if w = 4 then { x with limits := v } else if w = 5 then { x with ctl := v &&& 0xF8000000 }
      else if w = 6 then { x with lambda := v } else if w = 7 then { x with escape := v } else x
    if w < 6 ∧ kernelBad (s.kernel k) = true then
      (s.modKernel k fun x => { x with ctl := setBit x.ctl 31 false }).setErr chkPage 19
    else s

/-- KDATA word `w` of the selected entry. -/
def State.kernelWord (s : State) (w : Nat) : Word :=
  let k := s.regFld chkPage 0x5C 0 8
  let x := s.kernel k
  if k = 255 then 0
  else match w with
    | 0 => x.absTol | 1 => x.relTol | 2 => x.lo | 3 => x.hi | 4 => x.limits | 5 => x.ctl
    | 6 => x.lambda | 7 => x.escape
    | 8 => x.checked.setWidth 32 | 9 => (x.checked >>> 32).setWidth 32
    | 10 => x.unchecked.setWidth 32 | 11 => (x.unchecked >>> 32).setWidth 32
    | 12 => x.failed
    | _ => 0

def satAdd64 (a : BitVec 64) : BitVec 64 := BitVec.ofNat 64 (satAdd 64 a.toNat 1)

def State.countChecked (s : State) (k : Nat) : State := s.modKernel k fun x => { x with checked := satAdd64 x.checked }
def State.countUnchecked (s : State) (k : Nat) : State := s.modKernel k fun x => { x with unchecked := satAdd64 x.unchecked }

/-! ### Poison notices (R221 to R223) -/

/-- This die hub's ORIGIN word (R222, in the places of R126). -/
def State.originWord (s : State) : Nat := s.links.tray * 2 ^ 22 + s.links.down * 2 ^ 17 + s.straps.dieIdx.toNat * 2 ^ 14

/-- The ORIGIN of a consumer location or node number. -/
def locNode (loc : BitVec 16) : BitVec 16 := loc &&& 0x3FFF

/-- What a notice says. -/
structure NoticeArgs where
  cause  : Nat
  job    : Nat
  first  : Nat
  last   : Nat
  unit   : Nat
  kernel : Nat
  clip   : Bool
  tile   : Word
  pred   : Word
  act    : Word

/-- Bytes 0 to 59 and CHK (R222). `resent` is FLAGS[1]. -/
def noticeSeal (body : List Byte) : List Byte := body ++ leBytes 4 (crc32c body).toNat

def State.noticeBody (s : State) (n : NoticeArgs) (seq : BitVec 32) : List Byte :=
  [1, BitVec.ofNat 8 n.cause] ++ leBytes 2 n.job ++ leBytes 2 n.first ++ leBytes 2 n.last ++ leBytes 2 n.unit ++
  [BitVec.ofNat 8 n.kernel, if n.clip then 1 else 0] ++ leBytes 4 n.tile.toNat ++ leBytes 4 s.originWord ++
  leBytes 4 seq.toNat ++ ftBytes s.ft ++ leBytes 4 n.pred.toNat ++ leBytes 4 n.act.toNat ++ zeros 18

/-- A resent notice (R223): RESENT set, CHK formed again. -/
def noticeResent (b : List Byte) : List Byte := noticeSeal (modNth 11 (fun f => f ||| 2) (b.take 60))

/-- Write a notice to this hub's ring, once for each ORIGIN and SEQ (R223, R534). -/
def State.poisonStore (s : State) (b : List Byte) : State :=
  let key := noticeKey b
  if s.check.seen.contains key then s
  else if s.ringRoom poisonRing 64 then
    (s.modCheck fun c => { c with seen := c.seen ++ [key] }).ringPut poisonRing b
  else (s.bump chkPage 0xC4 1).poisonAck b

/-- Registered consumers of a job (R221, R212), each once. -/
def State.consumers (s : State) (job : Nat) : List (BitVec 16) :=
  if job = 0 then []
  else ((s.check.regs.filter fun e => bit e.2 31 && decide (fld e.2 0 16 = job)).map fun e =>
    BitVec.ofNat 16 (fld e.2 16 14)).eraseDups

/-- Form a notice: to this hub's own ring always, and to every registered consumer (R210, R221). -/
def State.poisonSend (s : State) (n : NoticeArgs) : State :=
  let seq := s.check.nextSeq
  let b := noticeSeal (s.noticeBody n seq)
  let s := s.modCheck fun c => { c with nextSeq := c.nextSeq + 1 }
  let s := s.poisonStore b
  let dests := (s.consumers n.job).filter fun l => decide (locNode l ≠ locNode s.node)
  dests.foldl (fun s l =>
    (s.sendTyp 0x31 (.node (locNode l)) b).modCheck fun c => { c with
      unacked := c.unacked ++ [{ loc := l, seq, bytes := b, tries := 0, sent := s.now }] }) s

/-- POISON (R223): a notice for this die hub is written once and acknowledged to its ORIGIN once it is written
(`State.ringDone`); a damaged one is discarded without acknowledgement, so that it comes again. -/
def State.poisonReceive (s : State) (b : List Byte) : State :=
  if b.length ≠ 64 ∨ b.getD 0 0 ≠ 1 ∨ crc32c (b.take 60) ≠ word (leAt b 60 4) then s
  else
    let queued := (s.ringWaiting poisonRing).any fun w => decide (noticeKey w.bytes = noticeKey b)
    if s.check.seen.contains (noticeKey b) = true ∧ queued = false then s.poisonAck b else s.poisonStore b

def execPoison (bytes : List Byte) (s : State) : Host.Outcome State Fault Refusal :=
  finish (if s.isDie then s.poisonReceive bytes else s)

/-- POISON_ACK (R223). -/
def execPoisonAck (seq : BitVec 32) (loc : BitVec 16) (s : State) : Host.Outcome State Fault Refusal :=
  finish (s.modCheck fun c => { c with
    unacked := c.unacked.filter fun n => !(decide (n.seq = seq) && decide (locNode n.loc = locNode loc)) })

/-- POISON_RESEND (R223): 5 µs after the last sending; after the eighth re-sending the notice is undelivered. -/
def State.poisonAgain (s : State) (seq : BitVec 32) (loc : BitVec 16) : State :=
  match s.check.unacked.find? fun n => decide (n.seq = seq) && decide (locNode n.loc = locNode loc) with
  | none => s
  | some n =>
    let s := s.advanceTo (n.sent + 5 * us)
    let rest := s.check.unacked.filter fun m => !(decide (m.seq = n.seq) && decide (m.loc = n.loc))
    if n.tries < 8 then
      let b := noticeResent n.bytes
      (s.sendTyp 0x31 (.node (locNode n.loc)) b).modCheck fun c => { c with
        unacked := rest ++ [{ n with bytes := b, tries := n.tries + 1, sent := s.now }] }
    else
      ((s.modCheck fun c => { c with unacked := rest }).bump chkPage 0xA0 1).log 0x28 0 0x0005 6 n.loc.toNat n.seq.toNat []

def execPoisonResend (seq : BitVec 32) (loc : BitVec 16) (s : State) : Host.Outcome State Fault Refusal :=
  finish (s.poisonAgain seq loc)

/-! ### The tile check (R204, R205, R207, R209 to R212) -/

/-- The checker takes reports: its domain powered and not under reset, and the die not cut (R226). -/
def State.checkerRuns (s : State) : Bool :=
  s.awake && s.bpwr.under.isNone && decide (s.snuff.state ≠ .cut)

def State.isSuspect (s : State) (u : Nat) : Bool := Tab.read boolFalse s.check.suspect u

/-- What follows a failed tile check, in order (R210, R211). `cause` 1 CKS, 2 RANGE. -/
def State.tileFail (s : State) (u k cause : Nat) (w : List Word) : State :=
  let at' (i : Nat) : Word := w.getD i 0
  let job := (s.probe u).job.toNat
  let te := fld (at' 0) 0 16
  let s := s.poisonSend { cause, job, first := te, last := te, unit := u, kernel := k, clip := false,
                          tile := at' 1, pred := at' 2, act := at' 3 }
  let s := if (s.probe u).fenced then s
    else if bit (s.kernel k).ctl 28 || s.isSuspect u then s.fenceUnit u cause k
    else s.markSuspect u
  let s := s.modKernel k fun x => { x with failed := word (satAdd 32 x.failed.toNat 1) }
  (s.setErr chkPage 16).log 0x28 0 0x0001 5 u k (bytesOfWords (w.take 7))

/-- The tests of a complete report (R207). -/
def State.tileCheck (s : State) (u : Nat) (w : List Word) : State :=
  let at' (i : Nat) : Word := w.getD i 0
  let k := fld (at' 0) 24 8
  let x := s.kernel k
  if k = 255 ∨ !bit x.ctl 31 then s.countUnchecked k
  else if bit x.ctl 30 && ((f32Int (at' 2)).isNone || (f32Int (at' 3)).isNone) then s.countUnchecked k
  else
    let c := if bit x.ctl 30 then cksFails x (at' 2) (at' 3) else none
    let r := if bit x.ctl 29 then some (rangeFails x (at' 4) (at' 5) (fld (at' 6) 16 16) (fld (at' 6) 0 16)) else none
    if c.isNone && r.isNone then s.countUnchecked k
    else
      let s := s.countChecked k
      if c = some true then s.tileFail u k 1 w
      else if r = some true then s.tileFail u k 2 w
      else s

/-- The report's element for the CHECK source (R209). -/
def State.tileElem (s : State) (u : Nat) (w : List Word) : State :=
  let at' (i : Nat) : Word := w.getD i 0
  { s with reds := { s.reds with tiles := s.reds.tiles ++
      [{ probe := u, diff := tileDiff (at' 2) (at' 3), tmin := at' 4, tmax := at' 5,
         nans := fld (at' 6) 16 16, infs := fld (at' 6) 0 16 }] } }

/-- A report of wrong length (R205): discarded, and counted as unchecked for its kernel if word 0 arrived. -/
def State.tileBadLength (s : State) (u : Nat) (w : List Word) : State :=
  let s := match w with
    | [] => s
    | a :: _ => if fld a 24 8 = 255 then s else s.countUnchecked (fld a 24 8)
  s.violate (.probe u) 2 (bytesOfWords w) true

/-- A well-formed tile report at its check lane. -/
def State.tileTake (s : State) (u : Nat) (w : List Word) : State :=
  let te := fld (w.getD 0 0) 0 16
  let s := if te = s.check.taint % 2 ^ 16 ∨ te = s.check.taintPrev % 2 ^ 16 then s
    else s.violate (.probe u) 1 (bytesOfWords w) true
  let inj := s.injTake chkPage 0x10
  let w := if inj.1 then modNth 3 (fun a => a ^^^ 0x00100000) w else w
  (inj.2.tileElem u w).tileCheck u w

/-! ### Taint epochs (R206, R227) -/

/-- One entry's part of RESID (R227). -/
def residOf (k : Kernel) : Nat :=
  let n := k.checked.toNat + k.unchecked.toNat
  if bit k.ctl 31 && bit k.ctl 27 && decide (n ≠ 0) then
    k.lambda.toNat * 1000 * (k.unchecked.toNat * 2 ^ 32 + k.checked.toNat * k.escape.toNat) % 2 ^ 128 / (n * 2 ^ 32)
  else 0

/-- RESID over the listed entries, saturated to 32 bits. -/
def residAll (t : Tab Kernel) : Nat := min ((t.map fun e => if e.1 < 255 then residOf e.2 else 0).sum) 0xFFFFFFFF

/-- The end of a taint epoch (R227): RESID, its error, and the clearing that CHECK_CLEAR_STATS asked for. -/
def State.taintEnd (s : State) (tag : Nat) : State :=
  let r := residAll s.check.kernels
  let s := s.setReg chkPage 0x98 (word r)
  let s := if 1000000 < r then (s.setErr chkPage 21).log 0x28 0 0x0006 4 r (tag % 2 ^ 16) [] else s
  match s.check.clears with
  | [] => s
  | l =>
    let s := s.modCheck fun c => { c with
      clears := [],
      kernels := Tab.mapTab Kernel.reset (fun _ k => { k with checked := 0, unchecked := 0, failed := 0 }) c.kernels }
    l.foldl (fun s x => s.complete x.1 x.2 stOk 0) (s.setReg chkPage 0x98 0)

/-- Units that passed their test leave their fences at the close (R219). -/
def State.unfenceClose (s : State) : State :=
  let s := s.check.unfence.foldl (fun s u => s.modProbe u fun x => { x with fenced := false }) s
  s.modCheck fun c => { c with unfence := [] }

/-- The taint epoch that a close belongs to; TDIV may change there (R206). -/
def State.checkEpoch (s : State) (no : Nat) : State :=
  let td := max 1 (s.regFld chkPage 0x44 0 16)
  let s := if no % td = 0 then s.modCheck fun c => { c with tdiv := td } else s
  let t := no / s.check.tdiv
  if t = s.check.taint then s else s.modCheck fun c => { c with taintPrev := c.taint, taint := t }

/-- The checker's part of a close: TDIV changes, taint epochs end (R206). -/
def State.checkClose (s : State) (no : Nat) : State :=
  let old := s.check.taint
  let s := s.checkEpoch no
  if s.check.taint = old then s else s.taintEnd old

end Sys2Proof.Machine
end

