-- ==== Sys2Proof/Machine/Kat.lean ====
section
/-!
DEFINITION. Known-answer tests (R213 to R216), fencing by command and release (R217, R219), and the checker's
commands (R229).
-/
namespace Sys2Proof.Machine

/-- The signature entry of a unit's profile: word `w` (R213, R228). -/
def State.sigWord (s : State) (u w : Nat) : Word := s.reg chkPage (0x100 + 0x20 * (s.probe u).profile.toNat + 4 * w)

/-- May the unit be tested now (R213)? `fenced` admits a fenced unit, for UNFENCE (R219). -/
def State.katEligible (s : State) (u : Nat) (fenced : Bool) : Bool :=
  s.present u && decide (s.regFld chkPage 0x4C 0 24 ≤ Tab.read natZero s.check.idle u) &&
  (fenced || !(s.probe u).fenced) && bit (s.sigWord u 0) 31 && !(s.probe u).test.raised && !(s.probe u).test.ack &&
  !(s.region (regionOf (clusterOf u))).inReset

/-- Age order (R213): a unit that never passed is oldest, then the older pass, then the lower number. -/
def State.katOlder (s : State) (a b : Nat) : Bool :=
  match Tab.read noPass s.check.passes a, Tab.read noPass s.check.passes b with
  | none, none => decide (a ≤ b)
  | none, some _ => true
  | some _, none => false
  | some x, some y => decide (x.time < y.time) || (decide (x.time = y.time) && decide (a ≤ b))

/-- The oldest of a list of units. -/
def State.katOldest (s : State) : List Nat → Option Nat
  | [] => none
  | u :: us =>
    match s.katOldest us with
    | none => some u
    | some v => some (if s.katOlder u v then u else v)

/-- The unit that is tested next: a queued unit first, else a SUSPECT one, else the one whose pass is oldest. -/
def State.katSelect (s : State) : Option Nat :=
  match s.check.katReqs.find? fun r => s.katEligible r.unit r.unfence with
  | some r => some r.unit
  | none =>
    if bit (s.reg chkPage 0x40) 1 then
      let all := if s.regFld chkPage 0x4C 0 24 = 0 then List.range s.samp.units else s.check.idle.map (·.1)
      let l := all.filter fun u => s.katEligible u false
      let sus := l.filter s.isSuspect
      s.katOldest (if sus = [] then l else sus)
    else none

/-- KAT_START (R213, R214): one test at a time, none in DOZE and none in a cut. -/
def State.katStart (s : State) : State :=
  if s.check.kat.isSome || !s.checkerRuns then s
  else match s.katSelect with
    | none => s
    | some u =>
      (s.raiseGate u .test).modCheck fun c => { c with
        kat := some { unit := u, acked := false, ackTime := 0, taint := s.check.taint, abandoned := false } }

def execKatStart (s : State) : Host.Outcome State Fault Refusal := finish s.katStart

/-- TEST_ACK (R214): the unit runs its routine; after an abandoned raise TEST falls at once (R216). -/
def State.testAck (s : State) (u : Nat) : State :=
  match s.check.kat with
  | none => s.ackFalls u .test
  | some k =>
    if k.unit ≠ u then s.ackFalls u .test
    else if k.acked = true then s
    else if k.abandoned then ((s.ackGate u .test).lowerGate u .test).modCheck fun c => { c with kat := none }
    else (s.ackGate u .test).modCheck fun c => { c with kat := some { k with acked := true, ackTime := s.now } }

def execTestAck (probe : Nat) (s : State) : Host.Outcome State Fault Refusal :=
  finish (if s.chanOpen (.converter .probe probe) then s.testAck probe else s)

/-- The test has a result (KAT_STAT.LAST, R228): TEST falls, and the commands that wait for the unit complete.
An UNFENCE goes on waiting after an abandoned test. -/
def State.katResult (s : State) (u last : Nat) : State :=
  let s := s.lowerGate u .test
  let l := s.check.katReqs.filter fun r => decide (r.unit = u) && !(r.unfence && decide (last = 4))
  let s := s.modCheck fun c => { c with
    kat := none, katLast := last, katLastUnit := u,
    katReqs := c.katReqs.filter fun r => !(decide (r.unit = u) && !(r.unfence && decide (last = 4))) }
  l.foldl (fun s r =>
    if r.unfence then
      if last = 1 then
        ((s.modCheck fun c => { c with
          unfence := c.unfence ++ [u], violations := Tab.remove (PortId.probe u).subject c.violations }).spareRelease 1 u)
          |>.complete r.pkg r.page stOk 0
      else s.complete r.pkg r.page stError 3
    else (s.setRes r.pkg r.page 0 last).complete r.pkg r.page stOk 0) s

/-- The taint epochs a failed test covers (R215): first, last, and RANGE_CLIPPED. -/
def State.katRange (s : State) (u : Nat) : Nat × Nat × Bool :=
  let cur := s.check.taint
  let first := match Tab.read noPass s.check.passes u with
    | some p => p.taint
    | none => 0
  if cur < first ∨ 65536 < cur + 1 - first then (cur + 1 - 65536, cur, true) else (first, cur, false)

/-- A failed test (R215): fence, notice, record. `cause` 3 KAT_FAIL, 4 KAT_TIMEOUT in the spare map. -/
def State.katFail (s : State) (u cause : Nat) (content : List Byte) : State :=
  let s := s.fenceUnit u cause 0
  let r := s.katRange u
  let s := s.poisonSend { cause := cause + 1, job := (s.probe u).job.toNat, first := r.1 % 2 ^ 16, last := r.2.1 % 2 ^ 16,
                          unit := u, kernel := 0xFF, clip := r.2.2, tile := 0, pred := 0, act := 0 }
  let s := (s.setErr chkPage 17).log 0x28 0 0x0002 6 u (cause - 2) content
  s.katResult u (cause - 1)

/-- A passed test: SUSPECT clears, and the pass is recorded (R215). -/
def State.katPass (s : State) (u taint : Nat) : State :=
  (s.modCheck fun c => { c with
    suspect := Tab.write boolFalse c.suspect u false,
    passes := Tab.write noPass c.passes u (some { time := s.now, taint }) }).katResult u 1

/-- SIGNATURE_REPORT (R214): routine number and signature against the unit's signature entry. -/
def State.signature (s : State) (u : Nat) (w : List Word) : State :=
  match s.check.kat with
  | none => s
  | some k =>
    if k.unit ≠ u ∨ k.acked = false then s
    else
      let inj := s.injTake chkPage 0x11
      let s := inj.2
      let w := if inj.1 then modNth 2 (fun a => a ^^^ 1) w else w
      let good := decide (fld (w.getD 1 0) 0 32 = fld (s.sigWord u 0) 0 16) &&
        (List.range 4).all fun i => decide (w.getD (2 + i) 0 = s.sigWord u (1 + i))
      if good then s.katPass u k.taint
      else s.katFail u 3 (leBytes 4 (w.getD 1 0).toNat ++ bytesOfWords ((w.drop 2).take 4))

/-- A report at the side-channel (R203 to R206, R214, R226): `last` says that CKS_LAST came with its last word. A
probe holds one report while the checker does not run. -/
def State.sideReport (s : State) (u : Nat) (w : List Word) (last : Bool) : State :=
  if !s.present u then s
  else if !s.checkerRuns then
    match Tab.read noReport s.check.held u with
    | some _ => s
    | none => s.modCheck fun c => { c with held := Tab.write noReport c.held u (some (w, last)) }
  else
    let s := s.modCheck fun c => { c with lane := Tab.write natZero c.lane (regionOf (clusterOf u)) (u + 1) }
    if w.length ≠ 7 ∨ last = false then s.tileBadLength u w
    else if fld (w.getD 0 0) 24 8 = 255 then s.signature u w
    else s.tileTake u w

/-- Reports that waited at their probes are checked once the checker runs again (R226): the lane of each region serves
them round-robin in ascending probe number, starting after the probe it served last (R204). -/
def State.sideResume (s : State) : State :=
  let l := (List.range 16).flatMap fun r =>
    let h := s.check.held.filter fun e => decide (regionOf (clusterOf e.1) = r)
    let n := Tab.read natZero s.check.lane r
    h.filter (fun e => decide (n ≤ e.1)) ++ h.filter fun e => decide (e.1 < n)
  (s.modCheck fun c => { c with held := [] }) |> fun s => l.foldl (fun s e =>
    match e.2 with
    | some r => s.sideReport e.1 r.1 r.2
    | none => s) s

def execTileReport (probe : Nat) (words : List Word) (last : Bool) (s : State) : Host.Outcome State Fault Refusal :=
  finish (if s.chanOpen (.converter .probe probe) then s.sideReport probe words last else s)

def execSignatureReport (probe : Nat) (words : List Word) (s : State) : Host.Outcome State Fault Refusal :=
  finish (if s.chanOpen (.converter .probe probe) then s.sideReport probe words true else s)

/-- KAT_TIMEOUT (R214, R215): KAT_LIMIT after TEST_ACK. -/
def State.katTimeout (s : State) : State :=
  match s.check.kat with
  | none => s
  | some k =>
    if k.acked then
      (s.advanceTo (k.ackTime + s.regFld chkPage 0x50 0 16 * us)).katFail k.unit 4 (zeros 20)
    else s

def execKatTimeout (s : State) : Host.Outcome State Fault Refusal := finish s.katTimeout

/-! ### A test meets other events (R216) -/

/-- A region reset ends the test: TEST falls, and the commands that wait for the unit's test go on waiting; it is made
again at the unit's next idle window (R216). -/
def State.katPutOff (s : State) (u : Nat) : State :=
  (s.lowerGate u .test).modCheck fun c => { c with
    kat := none, katLast := 4, katLastUnit := u, idle := Tab.write natZero c.idle u 0 }

/-- The test is abandoned and logged: 1 command, 2 illegal command order, 3 Snuff, 4 region reset. -/
def State.katAbandon (s : State) (why : Nat) : State :=
  match s.check.kat with
  | none => s
  | some k =>
    if k.abandoned then s
    else
      let s := s.log 0x28 0 0x0003 3 k.unit why []
      if why = 4 then s.katPutOff k.unit
      else if k.acked then s.katResult k.unit 4
      else
        let s := s.katResult k.unit 4
        (s.raiseGate k.unit .test).modCheck fun c => { c with kat := some { k with abandoned := true } }

/-- CMD_START reaches the probe of unit `u` (R216). -/
def State.katCommand (s : State) (u : Nat) : State :=
  match s.check.kat with
  | none => s
  | some k =>
    if k.unit ≠ u then s
    else if k.acked then ((s.violate (.probe u) 4 [] true).katAbandon 2).markSuspect u
    else s.katAbandon 1

/-- The idle run of a unit at an edge (R213). -/
def State.katEdge (s : State) (u : Nat) (idle : Bool) : State :=
  s.modCheck fun c => { c with
    idle := Tab.write natZero c.idle u (if idle then min (Tab.read natZero c.idle u + 1) (2 ^ 24 - 1) else 0) }

/-! ### Fencing (R217, R219) -/

/-- FENCE_ACK (R217): the unit accepts no new host command, and the block lowers FENCE. -/
def State.fenceAck (s : State) (u : Nat) : State :=
  if (s.probe u).fence.raised then (s.ackGate u .fence).lowerGate u .fence else s.ackFalls u .fence

def execFenceAck (probe : Nat) (s : State) : Host.Outcome State Fault Refusal :=
  finish (if s.chanOpen (.converter .probe probe) then s.fenceAck probe else s)

/-! ### Commands (R229) -/

/-- CHECK_REGISTER (R221). -/
def checkRegisterCmd (c : CmdIn) (s : State) : State :=
  match (List.range 256).find? fun i => !bit (Tab.read wordZero s.check.regs i) 31 with
  | none => s.failCmd c 2
  | some i =>
    let w := setBit (argW c s 0 &&& 0xBFFFFFFF) 31 true
    (((s.modCheck fun x => { x with regs := Tab.write wordZero x.regs i w }).kernelChanged).res c 0 i).ok c

def execCheckRegister (c : CmdIn) (s : State) : Host.Outcome State Fault Refusal :=
  finish (runCmd c 0x28 0x0001 .operator s.isDie (checkRegisterCmd c) s)

/-- CHECK_UNREGISTER. -/
def checkUnregisterCmd (c : CmdIn) (s : State) : State :=
  ((s.modCheck fun x => { x with regs := Tab.write wordZero x.regs (argFld c s 0 0 8) 0 }).kernelChanged).ok c

def execCheckUnregister (c : CmdIn) (s : State) : Host.Outcome State Fault Refusal :=
  finish (runCmd c 0x28 0x0002 .operator s.isDie (checkUnregisterCmd c) s)

/-- CHECK_POISON. -/
def checkPoisonCmd (c : CmdIn) (s : State) : State :=
  (s.poisonSend { cause := 7, job := argFld c s 0 0 16, first := argFld c s 1 0 16, last := argFld c s 1 16 16,
                  unit := 0x1FFF, kernel := 0xFF, clip := false, tile := 0, pred := 0, act := 0 }).ok c

def execCheckPoison (c : CmdIn) (s : State) : Host.Outcome State Fault Refusal :=
  finish (runCmd c 0x28 0x0003 .operator s.isDie (checkPoisonCmd c) s)

/-- Queue a unit first, and wait. -/
def State.katQueue (s : State) (c : CmdIn) (u : Nat) (unfence : Bool) : State :=
  (s.modCheck fun x => { x with
    katReqs := { unit := u, unfence, pkg := c.pkg, page := c.page.toNat } :: x.katReqs }).waitFor c (.event 5 u)

/-- KAT_RUN (R213, R229). -/
def katRunCmd (c : CmdIn) (s : State) : State :=
  let u := argFld c s 0 0 13
  if s.present u then s.katQueue c u false else s.failCmd c 1

def execKatRun (c : CmdIn) (s : State) : Host.Outcome State Fault Refusal :=
  finish (runCmd c 0x28 0x0004 .firmware s.isDie (katRunCmd c) s)

/-- FENCE (R217). -/
def fenceCmd (c : CmdIn) (s : State) : State :=
  let u := argFld c s 0 0 13
  if s.present u then (s.fenceUnit u 5 0).ok c else s.failCmd c 1

def execFence (c : CmdIn) (s : State) : Host.Outcome State Fault Refusal :=
  finish (runCmd c 0x28 0x0005 .firmware s.isDie (fenceCmd c) s)

/-- UNFENCE (R219). -/
def unfenceCmd (c : CmdIn) (s : State) : State :=
  let u := argFld c s 0 0 13
  if !s.present u then s.failCmd c 1
  else if !(s.probe u).fenced then s.failCmd c 5
  else s.katQueue c u true

def execUnfence (c : CmdIn) (s : State) : Host.Outcome State Fault Refusal :=
  finish (runCmd c 0x28 0x0006 .firmware s.isDie (unfenceCmd c) s)

/-- CHECK_CLEAR_STATS: at the next taint-epoch end, for which the command waits. -/
def checkClearCmd (c : CmdIn) (s : State) : State :=
  (s.modCheck fun x => { x with clears := x.clears ++ [(c.pkg, c.page.toNat)] }).waitFor c (.event 4 0)

def execCheckClearStats (c : CmdIn) (s : State) : Host.Outcome State Fault Refusal :=
  finish (runCmd c 0x28 0x0007 .operator s.isDie (checkClearCmd c) s)

/-- IDLE_WINDOW_TIMEOUT (R229): a KAT_RUN or UNFENCE found no idle window within 10 ms. -/
def execIdleWindowTimeout (pkg : Bool) (page : BitVec 3) (s : State) : Host.Outcome State Fault Refusal :=
  finish (
    let mine (r : KatReq) : Bool := decide (r.pkg = pkg) && decide (r.page = page.toNat)
    match s.check.katReqs.find? mine with
    | none => s
    | some r =>
      if (s.check.kat.map fun k => decide (k.unit = r.unit) && !k.abandoned) = some true then s
      else (s.modCheck fun c => { c with katReqs := c.katReqs.filter fun r => !mine r }).complete pkg page.toNat stTimeout 0)

end Sys2Proof.Machine
end

