-- ==== Sys2Proof/Machine/Codec.lean ====
section
/-!
DEFINITION. The Sinter code and its blocks (R298 to R305, R307): pure functions on bytes.
-/
namespace Sys2Proof.Machine

/-- The width of code `k` of a block (R299). -/
def szWidth (k : Nat) : Nat :=
  let m := 256 + k
  if m < 2 ^ 9 then 9 else if m < 2 ^ 10 then 10 else if m < 2 ^ 11 then 11 else if m < 2 ^ 12 then 12
  else if m < 2 ^ 13 then 13 else 14

/-- The first free code, and the number of codes a dictionary holds (R298). -/
def szFirst : Nat := 257
def szCodes : Nat := 16384

/-- Find the entry for a code's string and one more byte: entries are (code, byte) pairs, newest first, numbered
down from `next` − 1. -/
def szFind (p : Nat) (b : Byte) : List (Nat × Byte) → Nat → Option Nat
  | [], _ => none
  | (q, c) :: es, next => if q = p ∧ c = b then some (next - 1) else szFind p b es (next - 1)

/-- The greedy rule (R300). `frame` applies the cut of R307. Answers the codes in order and the input bytes
consumed. `bits` counts what has been written, `i` the bytes consumed. -/
def szEncode (frame : Bool) : List Byte → (p k next bits i : Nat) → List (Nat × Byte) → List Nat → List Nat × Nat
  | [], p, _, _, _, i, _, acc => ((256 :: p :: acc).reverse, i)
  | b :: bs, p, k, next, bits, i, es, acc =>
    if frame && (decide (i = 4096) || decide (8096 < bits + 42)) then ((256 :: p :: acc).reverse, i)
    else match szFind p b es next with
    | some c => szEncode frame bs c k next bits (i + 1) es acc
    | none =>
      if next < szCodes then
        szEncode frame bs b.toNat (k + 1) (next + 1) (bits + szWidth k) (i + 1) ((p, b) :: es) (p :: acc)
      else szEncode frame bs b.toNat (k + 1) next (bits + szWidth k) (i + 1) es (p :: acc)

/-- Codes packed least significant bit first (R301), as a number and its bits. -/
def szPackBits : List Nat → (k bits v : Nat) → Nat × Nat
  | [], _, bits, v => (bits, v)
  | c :: cs, k, bits, v => szPackBits cs (k + 1) (bits + szWidth k) (v + c * 2 ^ bits)

/-- The body of a block's codes. -/
def szBody (codes : List Nat) : List Byte :=
  let r := szPackBits codes 0 0 0
  leBytes ((r.1 + 7) / 8) r.2

/-- The body that codes some input bytes, and how many of them it covers. -/
def szCompress (frame : Bool) : List Byte → List Byte × Nat
  | [] => ([], 0)
  | b :: bs =>
    let r := szEncode frame bs b.toNat 0 szFirst 0 1 [] []
    (szBody r.1, r.2)

/-- A block (R303): header, body and check value over header and input. -/
def szBlock (raw : Bool) (input body : List Byte) : List Byte :=
  let h := leBytes 2 (input.length + if raw then 0x8000 else 0) ++ leBytes 2 body.length
  h ++ body ++ leBytes 4 (crc32c (h ++ input)).toNat

/-- One block of a host-memory stream: coded, or RAW when it does not shrink (R304). -/
def szEncodeBlock (input : List Byte) : List Byte × Bool :=
  let r := szCompress false input
  if r.1.length < input.length then (szBlock false input r.1, false) else (szBlock true input input, true)

/-- One block of a frame message: the block, the input bytes it covers, and whether it is RAW (R307). -/
def szFrameBlock (rest : List Byte) : List Byte × Nat × Bool :=
  let r := szCompress true rest
  if r.1.length < r.2 then (szBlock false (rest.take r.2) r.1, r.2, false)
  else
    let n := min rest.length 1012
    (szBlock true (rest.take n) (rest.take n), n, true)

/-- The string of a code: entries are strings, newest first, numbered down from `next` − 1. -/
def szString (es : List (List Byte)) (next c : Nat) : List Byte :=
  if c < 256 then [BitVec.ofNat 8 c] else (es[next - 1 - c]?).getD []

/-- Causes of R305. -/
def szBadHdr : Nat := 1
def szBadCode : Nat := 2
def szTrunc : Nat := 3
def szLength : Nat := 4
def szPad : Nat := 5
def szCrc : Nat := 6
def szBadStream : Nat := 7
def szHostErr : Nat := 8

/-- The decompressor (R302): `v` holds the `left` bits not yet read, `out` the bytes so far. On STOP, pad bits and
bytes after the STOP byte must be zero and absent. -/
def szDecode (inLen : Nat) : Nat → (v left k next : Nat) → Option Nat → List (List Byte) → List Byte → Except Nat (List Byte)
  | 0, _, _, _, _, _, _, _ => .error szTrunc
  | fuel + 1, v, left, k, next, prev, es, out =>
    let w := szWidth k
    if left < w then .error szTrunc
    else
      let c := v % 2 ^ w
      let v := v / 2 ^ w
      let left := left - w
      if c = 256 then
        if out.length ≠ inLen then .error szLength
        else if 8 ≤ left ∨ v ≠ 0 then .error szPad
        else .ok out
      else
        match prev with
        | none =>
          if 255 < c then .error szBadCode
          else
            let st := [BitVec.ofNat 8 c]
            if inLen < out.length + 1 then .error szLength
            else szDecode inLen fuel v left (k + 1) next (some c) es (out ++ st)
        | some p =>
          let ps := szString es next p
          if c < next then
            let st := szString es next c
            if inLen < out.length + st.length then .error szLength
            else if next < szCodes then
              szDecode inLen fuel v left (k + 1) (next + 1) (some c) ((ps ++ st.take 1) :: es) (out ++ st)
            else szDecode inLen fuel v left (k + 1) next (some c) es (out ++ st)
          else if c = next then
            let st := ps ++ ps.take 1
            if inLen < out.length + st.length then .error szLength
            else szDecode inLen fuel v left (k + 1) (next + 1) (some c) (st :: es) (out ++ st)
          else .error szBadCode

/-- Decode the block at the start of a container (R303, R305): its input bytes, or the cause of its rejection. -/
def szDecodeBlock (box : List Byte) : Except Nat (List Byte) :=
  let h0 := leAt box 0 2
  let h1 := leAt box 2 2
  let raw := decide (h0 / 2 ^ 15 = 1)
  let inLen := h0 % 2 ^ 13
  let outLen := h1 % 2 ^ 13
  if box.length < 8 ∨ h0 / 2 ^ 13 % 4 ≠ 0 ∨ h1 / 2 ^ 13 ≠ 0 ∨ inLen = 0 ∨ 4096 < inLen ∨ (raw = true ∧ outLen ≠ inLen) ∨
      (raw = false ∧ inLen ≤ outLen) ∨ box.length < outLen + 8 then .error szBadHdr
  else
    let body := slice box 4 outLen
    let r : Except Nat (List Byte) :=
      if raw then .ok body else szDecode inLen (8 * outLen / 9 + 1) (ofLe body) (8 * outLen) 0 szFirst none [] []
    match r with
    | .error e => .error e
    | .ok data =>
      if leAt box (4 + outLen) 4 = (crc32c (box.take 4 ++ data)).toNat then .ok data else .error szCrc

end Sys2Proof.Machine
end

