-- ==== Sys2Proof/Machine/Fec.lean ====
section
/-!
DEFINITION. The Reed-Solomon codes of the links and the K-link scrambler (R261, R274).
-/
namespace Sys2Proof.Machine

/-! ### GF(2^8) with field polynomial x^8 + x^4 + x^3 + x^2 + 1 -/

def gfX (b : Byte) : Byte := if bit b 7 then (b <<< 1) ^^^ 0x1D else b <<< 1

def gfMul (a b : Byte) : Byte :=
  (List.range 8).foldl (fun (r : Byte × Byte) i => (if bit b i then r.1 ^^^ r.2 else r.1, gfX r.2)) ((0 : Byte), a) |>.1

/-- α^n, α = 0x02. -/
def gfPow : Nat → Byte
  | 0 => 1
  | n + 1 => gfX (gfPow n)

/-- The inverse, b^254. -/
def gfInv (b : Byte) : Byte :=
  let b2 := gfMul b b
  let b4 := gfMul b2 b2
  let b8 := gfMul b4 b4
  let b16 := gfMul b8 b8
  let b32 := gfMul b16 b16
  let b64 := gfMul b32 b32
  gfMul (gfMul b64 b64) (gfMul b64 (gfMul b32 (gfMul b16 (gfMul b8 (gfMul b4 b2)))))

def gfDiv (a b : Byte) : Byte := gfMul a (gfInv b)

/-! ### RS(136,132): generator roots α^0 to α^3 -/

/-- The four coefficients of the monic generator, highest first. -/
def rsGen : List Byte :=
  (List.range 4).foldl (fun g i =>
    let shifted := g ++ [0]
    let scaled := 0 :: g.map (gfMul (gfPow i))
    xor2 shifted scaled) [1] |>.drop 1
where
  xor2 (a b : List Byte) : List Byte := List.zipWith (· ^^^ ·) a b

/-- The parity bytes that follow the data bytes. -/
def rsParity (data : List Byte) : List Byte :=
  data.foldl (fun r d =>
    match r with
    | r0 :: rest => List.zipWith (· ^^^ ·) (rest ++ [0]) (rsGen.map (gfMul (d ^^^ r0)))
    | [] => []) [0, 0, 0, 0]

def rsEncode (data : List Byte) : List Byte := data ++ rsParity data

/-- Syndrome `k`: the codeword at α^k. -/
def rsSyndrome (cw : List Byte) (k : Nat) : Byte := cw.foldl (fun a b => gfMul a (gfPow k) ^^^ b) 0

/-- Correct up to two byte errors of a codeword of 136 bytes: the codeword and the places corrected, or none. -/
def rsDecode (cw : List Byte) : Option (List Byte × List Nat) :=
  let s0 := rsSyndrome cw 0
  let s1 := rsSyndrome cw 1
  let s2 := rsSyndrome cw 2
  let s3 := rsSyndrome cw 3
  let n := cw.length
  let place (i : Nat) : Byte := gfPow (n - 1 - i)
  let fix (i : Nat) (e : Byte) (l : List Byte) : List Byte := modNth i (· ^^^ e) l
  if s0 = 0 ∧ s1 = 0 ∧ s2 = 0 ∧ s3 = 0 then some (cw, [])
  else
    match (List.range n).find? fun i =>
      decide (s0 ≠ 0) && decide (gfMul s0 (place i) = s1) && decide (gfMul s1 (place i) = s2) && decide (gfMul s2 (place i) = s3) with
    | some i => some (fix i s0 cw, [i])
    | none =>
      let det := gfMul s1 s1 ^^^ gfMul s0 s2
      if det = 0 then none
      else
        let l1 := gfDiv (gfMul s1 s2 ^^^ gfMul s0 s3) det
        let l2 := gfDiv (gfMul s2 s2 ^^^ gfMul s1 s3) det
        let roots := (List.range n).filter fun i =>
          let x := place i
          decide (gfMul x x ^^^ gfMul l1 x ^^^ l2 = 0)
        match roots with
        | [i, j] =>
          let xi := place i
          let xj := place j
          let ej := gfDiv (s1 ^^^ gfMul s0 xi) (xi ^^^ xj)
          let ei := s0 ^^^ ej
          if ei = 0 ∨ ej = 0 then none else some (fix j ej (fix i ei cw), [i, j])
        | _ => none

/-- The even and the odd bytes of a list. -/
def evens : List Byte → List Byte
  | [] => []
  | [a] => [a]
  | a :: _ :: l => a :: evens l
def odds : List Byte → List Byte
  | [] => []
  | [_] => []
  | _ :: b :: l => b :: odds l
def interleave : List Byte → List Byte → List Byte
  | a :: as, b :: bs => a :: b :: interleave as bs
  | _, _ => []

/-- RS(272,264): two interleaved RS(136,132) codewords (R261). -/
def rsPairEncode (data : List Byte) : List Byte := interleave (rsEncode (evens data)) (rsEncode (odds data))

def rsPairDecode (cw : List Byte) : Option (List Byte × List Nat) :=
  match rsDecode (evens cw), rsDecode (odds cw) with
  | some (a, ia), some (b, ib) => some (interleave a b, ia.map (2 * ·) ++ ib.map (2 * · + 1))
  | _, _ => none

/-! ### The additive scrambler 1 + x^39 + x^58 (R274) -/

/-- Scramble a byte, bit 0 first; the state's bit k is the stream's bit k + 1 steps ago. -/
def scrambleByte (st : BitVec 58) (b : Byte) : BitVec 58 × Byte :=
  (List.range 8).foldl (fun (r : BitVec 58 × Byte) i =>
    let o := bit r.1 38 != bit r.1 57
    ((r.1 <<< 1) ||| (if o then 1 else 0), if o then r.2 ^^^ BitVec.ofNat 8 (2 ^ i) else r.2)) (st, b)

def scramble (st : BitVec 58) : List Byte → BitVec 58 × List Byte
  | [] => (st, [])
  | b :: bs =>
    let r := scrambleByte st b
    let q := scramble r.1 bs
    (q.1, r.2 :: q.2)

end Sys2Proof.Machine
end

