-- ==== Sys2Proof/Machine/Gcm.lean ====
section
/-!
DEFINITION. AES-256-GCM (FIPS 197, SP 800-38D), which protects frames, the mirror's keys and the boot image
(R260, R485), and the CRC-32 of Ethernet (IEEE 802.3).
-/
namespace Sys2Proof.Machine

/-! ### AES-256 -/

/-- Multiplication by x in the field of AES. -/
def aesX (b : Byte) : Byte := if bit b 7 then (b <<< 1) ^^^ 0x1B else b <<< 1

/-- Multiplication in the field of AES, by the bits of the second factor. -/
def aesMul (a b : Byte) : Byte :=
  (List.range 8).foldl (fun (r : Byte × Byte) i => (if bit b i then r.1 ^^^ r.2 else r.1, aesX r.2)) ((0 : Byte), a) |>.1

/-- The inverse, b^254, and 0 for 0. -/
def aesInv (b : Byte) : Byte :=
  let b2 := aesMul b b
  let b4 := aesMul b2 b2
  let b8 := aesMul b4 b4
  let b16 := aesMul b8 b8
  let b32 := aesMul b16 b16
  let b64 := aesMul b32 b32
  let b128 := aesMul b64 b64
  aesMul b128 (aesMul b64 (aesMul b32 (aesMul b16 (aesMul b8 (aesMul b4 b2)))))

def aesSub (b : Byte) : Byte :=
  let i := aesInv b
  i ^^^ i.rotateLeft 1 ^^^ i.rotateLeft 2 ^^^ i.rotateLeft 3 ^^^ i.rotateLeft 4 ^^^ 0x63

def xorBytes (a b : List Byte) : List Byte := List.zipWith (· ^^^ ·) a b

/-- The 60 words of the key schedule, in order, four bytes each. -/
def aesSchedule (key : List Byte) : List (List Byte) :=
  let w0 := (List.range 8).map fun i => slice key (4 * i) 4
  let step (st : List (List Byte) × Byte) (i : Nat) : List (List Byte) × Byte :=
    let prev := (st.1.getLast?).getD []
    let t := if i % 8 = 0 then
        match (prev.drop 1 ++ prev.take 1).map aesSub with
        | b :: bs => (b ^^^ st.2) :: bs
        | [] => []
      else if i % 8 = 4 then prev.map aesSub else prev
    (st.1 ++ [xorBytes ((st.1[i - 8]?).getD []) t], if i % 8 = 0 then aesX st.2 else st.2)
  ((List.range' 8 52).foldl step (w0, 1)).1

/-- Round key `r` of a schedule. -/
def roundKey (ks : List (List Byte)) (r : Nat) : List Byte := ((ks.drop (4 * r)).take 4).flatten

/-- ShiftRows of a state in column order. -/
def shiftRows (s : List Byte) : List Byte :=
  (List.range 16).map fun i => (s[(i + 4 * (i % 4)) % 16]?).getD 0

def mixColumn (c : List Byte) : List Byte :=
  match c with
  | [a, b, d, e] =>
    [aesX a ^^^ (aesX b ^^^ b) ^^^ d ^^^ e, a ^^^ aesX b ^^^ (aesX d ^^^ d) ^^^ e,
     a ^^^ b ^^^ aesX d ^^^ (aesX e ^^^ e), (aesX a ^^^ a) ^^^ b ^^^ d ^^^ aesX e]
  | l => l

def mixColumns (s : List Byte) : List Byte := (List.range 4).flatMap fun i => mixColumn (slice s (4 * i) 4)

/-- Encrypt one block under a schedule. -/
def aesBlock (ks : List (List Byte)) (x : List Byte) : List Byte :=
  let s := xorBytes x (roundKey ks 0)
  let s := (List.range' 1 13).foldl (fun s r => xorBytes (mixColumns (shiftRows (s.map aesSub))) (roundKey ks r)) s
  xorBytes (shiftRows (s.map aesSub)) (roundKey ks 14)

/-! ### GCM -/

/-- Multiplication in GF(2^128) as GCM orders its bits (bit 0 is the most significant bit of byte 0). -/
def ghashMul (x y : BitVec 128) : BitVec 128 :=
  (List.range 128).foldl (fun (r : BitVec 128 × BitVec 128) i =>
    let z := if bit x (127 - i) then r.1 ^^^ r.2 else r.1
    let v := if bit r.2 0 then (r.2 >>> 1) ^^^ (BitVec.ofNat 128 (0xE1 * 2 ^ 120)) else r.2 >>> 1
    (z, v)) ((0 : BitVec 128), y) |>.1

/-- The 16-byte blocks of a byte list, the last one padded with zeros. -/
def blocks16 : Nat → List Byte → List (List Byte)
  | 0, _ => []
  | fuel + 1, bs => if bs = [] then [] else padTo 16 bs :: blocks16 fuel (bs.drop 16)

def ghash (h : BitVec 128) (aad ct : List Byte) : BitVec 128 :=
  let bl := blocks16 (aad.length + 1) aad ++ blocks16 (ct.length + 1) ct ++
    [beBytes 8 (8 * aad.length) ++ beBytes 8 (8 * ct.length)]
  bl.foldl (fun y b => ghashMul (y ^^^ BitVec.ofNat 128 (ofBe b)) h) 0

/-- The counter-mode stream from counter `n` on, applied to a text. -/
def gcmCtr (ks : List (List Byte)) (iv : List Byte) : Nat → Nat → List Byte → List Byte
  | 0, _, _ => []
  | fuel + 1, n, bs =>
    if bs = [] then []
    else xorBytes (bs.take 16) (aesBlock ks (iv ++ beBytes 4 n)) ++ gcmCtr ks iv fuel (n + 1) (bs.drop 16)

/-- The 16-byte tag. -/
def gcmTag (ks : List (List Byte)) (iv aad ct : List Byte) : List Byte :=
  let h := BitVec.ofNat 128 (ofBe (aesBlock ks (zeros 16)))
  xorBytes (beBytes 16 (ghash h aad ct).toNat) (aesBlock ks (iv ++ beBytes 4 1))

/-- Encrypt: ciphertext and tag, for a 32-byte key and a 12-byte nonce. -/
def gcmSeal (key iv aad pt : List Byte) : List Byte × List Byte :=
  let ks := aesSchedule key
  let ct := gcmCtr ks iv (pt.length + 1) 2 pt
  (ct, gcmTag ks iv aad ct)

/-- Decrypt, where the tag is right. -/
def gcmOpen (key iv aad ct tag : List Byte) : Option (List Byte) :=
  let ks := aesSchedule key
  if gcmTag ks iv aad ct = tag then some (gcmCtr ks iv (ct.length + 1) 2 ct) else none

/-! ### CRC-32 of Ethernet -/

def fcsBit (c : BitVec 32) : BitVec 32 := if bit c 0 then (c >>> 1) ^^^ 0xEDB88320 else c >>> 1

def fcsByte (c : BitVec 32) (b : Byte) : BitVec 32 :=
  let c := c ^^^ b.setWidth 32
  fcsBit (fcsBit (fcsBit (fcsBit (fcsBit (fcsBit (fcsBit (fcsBit c)))))))

/-- The frame check sequence, as it is sent: least significant byte first. -/
def fcs (bs : List Byte) : List Byte := leBytes 4 (~~~ (bs.foldl fcsByte 0xFFFFFFFF)).toNat

end Sys2Proof.Machine
end

