-- ==== Sys2Proof/Machine/Links.lean ====
section
/-!
DEFINITION. Links: channels, queues, gates, frames as bytes, LINK_CTRL, ACK, NAK and credits, and what a link
reset or a lost parent does with queued frames (R253 to R270, R283 to R292).
-/
namespace Sys2Proof.Machine

/-! ### Channels -/

def State.chan (s : State) (c : Nat) : Chan := Tab.read Chan.reset s.links.chans c
def State.modChan (s : State) (c : Nat) (f : Chan → Chan) : State :=
  { s with links := { s.links with chans := Tab.modify Chan.reset s.links.chans c f } }
def State.modLinks (s : State) (f : Links → Links) : State := { s with links := f s.links }

/-- The port a channel runs on. -/
def State.chanPort (s : State) (c : Nat) : Nat :=
  if 256 ≤ c then 32 + (Tab.read EthPeer.reset s.links.peers (c - 256)).port.toNat else c

def State.isEth (s : State) (p : Nat) : Bool := s.isSystem && decide (32 ≤ p) && decide (p < 64)

/-- The channels of a port: its valid peers on an Ethernet port, else the port itself (R281). -/
def State.portChans (s : State) (p : Nat) : List Nat :=
  if s.isEth p then
    (s.links.peers.filter fun e => e.2.valid && decide (32 + e.2.port.toNat = p)).map fun e => 256 + e.1
  else [p]

def State.peerOf (s : State) (c : Nat) : EthPeer := Tab.read EthPeer.reset s.links.peers (c - 256)

/-- A register of a port's block. -/
def State.portReg (s : State) (p off : Nat) : Word := s.reg (s.portPage p) (s.portOff p off)

/-- KIND of a port (R295): 0 package link (and region link), 1 K-link, 2 Ethernet, 3 twin. -/
def State.linkKind (s : State) (p : Nat) : Nat :=
  if s.isSystem then (if p < 32 then 1 else if p = 34 then 3 else 2) else if p = 7 ∨ p = 8 then 1 else 0

/-- The pace converter of a port (R51, R533). -/
def State.linkConv (s : State) (p : Nat) : Channel :=
  .converter (if s.isEth p then .eth else if s.linkKind p = 1 then .klink else .ucie) p

def errCrdOverrun : Nat := 16
def errReplayLimit : Nat := 17
def errPolDrop : Nat := 18
def errFecUnc : Nat := 19
def errParentChg : Nat := 20
def errSpareLost : Nat := 21
def errLaneFail : Nat := 22

def State.portErr (s : State) (p b : Nat) : State := s.setErr (s.portPage p) b

/-- The page instance a link record carries: the port (R532). -/
def State.linkLog (s : State) (p code sev subject arg : Nat) : State := s.log 0x38 p code sev subject arg []

/-- Can numbered frames leave the port? -/
def State.carries (s : State) (p : Nat) : Bool := s.linkUp p

/-! ### Frames as bytes (R255, R256, R260) -/

/-- CLASS of a TYPE (R257): the high half of the code. -/
def typeClass (typ : Byte) : Nat := typ.toNat / 16

/-- The TYPEs of R257. -/
def knownType (typ : Byte) : Bool :=
  [0x00, 0x01, 0x02, 0x03, 0x04, 0x05, 0x10, 0x11, 0x12, 0x20, 0x21, 0x22, 0x30, 0x31, 0x32, 0x33, 0x40, 0x41,
   0x50, 0x60, 0x70].contains typ.toNat

/-- LEN of a frame: header, payload padded to make LEN 32, tag and trailer. -/
def frameLen (sec : Bool) (n : Nat) : Nat := max 32 (20 + n + if sec then 16 else 0)

/-- The 16-byte header. -/
def frameHeader (f : QFrame) (sec : Bool) (lseq ack : BitVec 16) : List Byte :=
  [BitVec.ofNat 8 (0x40 + typeClass f.typ * 8 + (if sec then 4 else 0) + (if f.sz then 2 else 0) + (if f.more then 1 else 0)),
   f.typ] ++ leBytes 2 (f.frag % 16 * 4096 + frameLen sec f.payload.length) ++ leBytes 2 f.src.toNat ++
  leBytes 2 f.dst.toNat ++ leBytes 2 lseq.toNat ++ leBytes 2 ack.toNat ++ leBytes 2 (f.hops % 16) ++ leBytes 2 f.tag.toNat

/-- The nonce: the salt and the 64-bit counter (R260). -/
def linkNonce (k : LinkKey) : List Byte := k.salt ++ leBytes 8 k.ctr.toNat

/-- A frame under its link key, or in the clear. -/
def frameBytes (f : QFrame) (key : Option LinkKey) (lseq ack : BitVec 16) : List Byte :=
  let body := match key with
    | some k =>
      let h := frameHeader f true lseq ack
      let r := gcmSeal k.key (linkNonce k) h f.payload
      h ++ r.1 ++ r.2
    | none => frameHeader f false lseq ack ++ padTo (max 12 f.payload.length) f.payload
  body ++ leBytes 4 (crc32c body).toNat

/-- The trailer is good (R256). -/
def trailerGood (bytes : List Byte) : Bool :=
  let n := bytes.length - 4
  decide (leAt bytes n 4 = (crc32c (bytes.take n)).toNat)

/-! ### LINK_CTRL (R269) -/

/-- A LINK_CTRL of this node with nothing in it yet; its credit counts are filled in when it is sent. -/
def State.linkCtrl0 (s : State) (p : Nat) : LinkCtrl :=
  { ka := false, nak := false, swap := false, swapAck := false, takeover := false, head := s.isHead,
    primary := s.isSystem && (if p < 32 then bit s.links.downPrimary p else !s.straps.twinSel),
    nakWhy := 0, swapLane := 0, nakSeq := 0, crd2 := 0, crd3 := 0, crd7 := 0, swapAt := 0 }

def State.pushCtl (s : State) (c : Nat) (m : LinkCtrl) : State := s.modChan c fun x => { x with ctl := x.ctl ++ [m] }

/-- The receive buffer of a credited class, in units of 64 bytes: 16 KiB, as the saturated-package example
has it. -/
def creditUnits : Nat := 256

/-- Units of a frame under credit (R266). -/
def creditOf (len : Nat) : Nat := (len + 63) / 64

def noFrames (_ : Nat) : List QFrame := []

/-- Units of a channel's receive buffer that forwarded frames still hold, as their next link's queues have them: they are
freed when the frame is sent (R266). -/
def State.heldUnits (s : State) (c cls : Nat) : Nat :=
  ((List.range (if s.isSystem then 36 else 9)).map fun p =>
    (((Tab.read noFrames (s.port p).queues cls).filter fun f => decide (f.came = some c)).map fun f =>
      creditOf (frameLen false f.payload.length)).sum).sum

/-- The cumulative count of a credited class: the buffer's size and every unit freed (R266). -/
def State.creditCount (s : State) (c cls : Nat) : Nat :=
  creditUnits + Tab.read natZero (s.chan c).freed cls - s.heldUnits c cls

def State.ctrlPayload (s : State) (c : Nat) (m : LinkCtrl) : List Byte :=
  let crd (k : Nat) := leBytes 2 (s.creditCount c k)
  let b0 := (if m.ka then 1 else 0) + (if m.nak then 2 else 0) + (if m.swap then 4 else 0) + (if m.swapAck then 8 else 0) +
    (if m.takeover then 16 else 0) + (if m.head then 32 else 0) + (if m.primary then 64 else 0)
  [BitVec.ofNat 8 b0, BitVec.ofNat 8 (m.nakWhy.toNat * 16 + m.swapLane.toNat)] ++ leBytes 2 m.nakSeq.toNat ++
  crd 2 ++ crd 3 ++ crd 7 ++ zeros 2 ++ leBytes 4 m.swapAt.toNat

/-- The LINK_CTRL that 16 payload bytes spell. -/
def ctrlOf (b : List Byte) : LinkCtrl :=
  let f := BitVec.ofNat 8 (leAt b 0 1)
  let g := BitVec.ofNat 8 (leAt b 1 1)
  { ka := bit f 0, nak := bit f 1, swap := bit f 2, swapAck := bit f 3, takeover := bit f 4, head := bit f 5,
    primary := bit f 6, nakWhy := BitVec.ofNat 4 (fld g 4 4), swapLane := BitVec.ofNat 4 (fld g 0 4),
    nakSeq := BitVec.ofNat 16 (leAt b 2 2), crd2 := BitVec.ofNat 16 (leAt b 4 2), crd3 := BitVec.ofNat 16 (leAt b 6 2),
    crd7 := BitVec.ofNat 16 (leAt b 8 2), swapAt := BitVec.ofNat 32 (leAt b 12 4) }

/-- A NAK names the expected LSEQ, unless one did within the last 1 µs (R264). `why`: 1 FEC, 2 CRC, 3 gap, 4 SEC,
5 BUSY. -/
def State.sendNak (s : State) (c why : Nat) : State :=
  let x := s.chan c
  let recent := match x.sentNak with
    | some (q, t) => decide (q = x.rxSeq) && decide (s.now < t + us)
    | none => false
  if recent then s
  else (s.modChan c fun x => { x with sentNak := some (x.rxSeq, s.now) }).pushCtl c
    { s.linkCtrl0 (s.chanPort c) with nak := true, nakWhy := BitVec.ofNat 4 why, nakSeq := x.rxSeq }

/-- Does `a` lie at or before `b`, modulo 65,536? -/
def seqLe (a b : BitVec 16) : Bool := decide ((b - a).toNat < 32768)

/-- An ACK covers frames up to it (R264). -/
def State.takeAck (s : State) (c : Nat) (ack : BitVec 16) : State :=
  s.modChan c fun x =>
    { x with
      replay := x.replay.filter fun f => !seqLe f.seq ack
      again := x.again.filter fun f => !seqLe f.seq ack
      naks := if seqLe x.nakSeq ack then 0 else x.naks }

/-- Frames outside a cut: LINK_CTRL, C0, C1, POISON and POISON_ACK (R463). -/
def exemptType (typ : Byte) : Bool := decide (typ.toNat < 0x20) || decide (typ = 0x31) || decide (typ = 0x32)

/-- A node in Snuff neither sends nor handles the other frames (R463). -/
def State.snuffBars (s : State) (typ : Byte) : Bool := decide (s.snuff.state = .cut) && !exemptType typ

/-! ### Egress queues (R284, R285, R287) -/

def State.queue (s : State) (p cls : Nat) : List QFrame := Tab.read noFrames (s.port p).queues cls
def State.setQueue (s : State) (p cls : Nat) (q : List QFrame) : State :=
  s.modPort p fun x => { x with queues := Tab.write noFrames x.queues cls q }

/-- Frames of a channel leave protected once it is armed (R260, R501). -/
def State.isArmed (s : State) (c : Nat) : Bool := (s.chan c).armed

def State.qLen (s : State) (f : QFrame) : Nat := frameLen (s.isArmed f.chan && decide (f.typ ≠ 0)) f.payload.length
def State.queueBytes (s : State) (p cls : Nat) : Nat := ((s.queue p cls).map s.qLen).sum

/-- The weight of a class (WEIGHT_A and WEIGHT_B of R295). -/
def State.weight (s : State) (p cls : Nat) : Nat :=
  if cls < 6 then fld (s.portReg p 0x0C) (8 * (cls - 2)) 8 else fld (s.portReg p 0x10) (8 * (cls - 6)) 8

/-- `after` of R285: tags compared by signed difference. -/
def tagAfter (a b : BitVec 64) : Bool := decide (0 < (a - b).toNat) && decide ((a - b).toNat < 2 ^ 63)

/-- Place a frame into its class queue: C4, C5 and C6 are dropped at the tail when their 16 KiB are full (R287),
and the others get their fair-queueing tag (R285). -/
def State.enqueue (s : State) (p : Nat) (f : QFrame) : State :=
  let cls := typeClass f.typ
  let len := s.qLen f
  if 4 ≤ cls ∧ cls ≤ 6 ∧ 16384 < s.queueBytes p cls + len then s.bumpPort p 0x44 1
  else if cls < 2 then s.setQueue p cls (s.queue p cls ++ [f])
  else
    let x := s.port p
    let last := Tab.read bv64Zero x.finish cls
    let st := if tagAfter last x.vtime then last else x.vtime
    let t := st + BitVec.ofNat 64 (len * (2 ^ 24 / max 1 (s.weight p cls)))
    (s.setQueue p cls (s.queue p cls ++ [{ f with ftag := t }])).modPort p fun x =>
      { x with finish := Tab.write bv64Zero x.finish cls t }

/-- A C0 or C1 queue has room for so many more bytes (R284). -/
def State.controlRoom (s : State) (p cls n : Nat) : Bool := decide (s.queueBytes p cls + n ≤ 8192)

/-- The channels a message takes on a port. On an Ethernet port: the peer that is the destination, or whose
tray or pod holds it; PTP goes to every peer at once and takes the port itself (R231, R281). -/
def State.chansFor (s : State) (p : Nat) (m : Msg) : List Nat :=
  let cs := s.portChans p
  if !s.isEth p then [p]
  else if m.typ = 0x01 then [p]
  else
    let kind (c : Nat) := (s.peerOf c).node.toNat / 2 ^ 14
    let tray (c : Nat) := (s.peerOf c).node.toNat / 2 ^ 8 % 64
    let trayPeer (c : Nat) := match m.dest with
      | .node n => decide (kind c = 2) && decide (tray c = n.toNat / 2 ^ 8 % 64)
      | _ => false
    match m.dest with
    | .up => cs.filter fun c => decide (kind c = 3)
    | .upBoth => cs.filter fun c => decide (kind c = 3)
    | .down => cs.filter fun c => decide (kind c = 2)
    | .node n =>
      match cs.find? fun c => decide ((s.peerOf c).node = n) with
      | some c => [c]
      | none =>
        (cs.filter fun c =>
          if s.straps.cascade then decide (kind c = 2) && decide (tray c = n.toNat / 2 ^ 8 % 64)
          else trayPeer c || (!cs.any trayPeer && decide (kind c = 3))).take 1
    | _ => cs.take 1

/-- DST of a message: a node, or the link partner (R255). -/
def destNode : Dest → BitVec 16
  | .node n => n
  | _ => 0xFFFF

/-- The pieces of a payload, at most `n` bytes each (R259). -/
def pieces (n : Nat) : Nat → List Byte → List (List Byte)
  | 0, bs => [bs]
  | fuel + 1, bs => if bs.length ≤ n then [bs] else bs.take n :: pieces n fuel (bs.drop n)

/-- The frames of a message on a channel: up to 16 fragments (R259). -/
def State.framesOf (s : State) (c : Nat) (m : Msg) : List QFrame :=
  let ps := pieces (if s.isArmed c then 1020 else 1036) 15 m.payload
  let n := ps.length
  (List.range n).map fun i =>
    { typ := m.typ, sz := m.sz, more := if n = 1 then m.more else decide (i + 1 < n), frag := if n = 1 then m.frag else i,
      src := m.src.getD s.node, dst := destNode m.dest, hops := m.hops, tag := m.tag,
      payload := (ps[i]?).getD [], chan := c, ftag := 0, came := m.came }

/-- A message enters the egress queues of a port. -/
def State.msgBytes (s : State) (p : Nat) (m : Msg) : Nat :=
  ((s.chansFor p m).map fun c => ((s.framesOf c m).map s.qLen).sum).sum

/-- A message enters the queues of a port: one copy for each channel it leaves on. -/
def State.enqueueMsg (s : State) (p : Nat) (m : Msg) : State :=
  (s.chansFor p m).foldl (fun s c => (s.framesOf c m).foldl (fun s f => s.enqueue p f) s) s

/-! ### Gates (R288, R289) -/

/-- The cycle of a list, in ns. -/
def gateCycle (g : GateList) : Nat := (g.entries.map (·.2)).sum

/-- From entry `i` on at `rest` ns of it: how long class `c` stays open, over at most `fuel` entries. -/
def openSpan (es : List (Byte × Nat)) (c : Nat) : Nat → Nat → Nat → Nat
  | 0, _, _ => 0
  | fuel + 1, i, rest =>
    match es[i % es.length]? with
    | none => 0
    | some (g, d) => if bit g c then (d - rest) + openSpan es c fuel (i + 1) 0 else 0

/-- The entry in force at `pos` ns of the cycle, and how far into it. -/
def gateAtPos : List (Byte × Nat) → Nat → Nat → Nat × Nat
  | [], i, _ => (i, 0)
  | (_, d) :: es, i, pos => if pos < d then (i, pos) else gateAtPos es (i + 1) (pos - d)

/-- For how many ps the window of a class stays open from now on; none when nothing closes it. -/
def State.gateSpan (s : State) (p cls : Nat) : Option Nat :=
  let x := s.port p
  let g := x.gates
  let later := match x.nextGates with
    | some n => if n.entries.all fun q => bit q.1 cls then none else some ((n.base - s.now) * 1000 / ns)
    | none => none
  if !bit (s.portReg p 0x00) 2 then none
  else if decide (g.entries = []) || (decide (x.gateFrom ≤ s.now) && g.entries.all fun q => bit q.1 cls) then later
  else if s.now < x.gateFrom then some 0
  else
    let pos := (s.now - g.base) / ns % gateCycle g
    let e := gateAtPos g.entries 0 pos
    let part := ((s.now - g.base) % ns * 1000 + ns - 1) / ns
    let span := openSpan g.entries cls (g.entries.length + 1) e.1 e.2 * 1000 - part
    match x.nextGates with
    | some n => some (min span ((n.base - s.now) * 1000 / ns))
    | none => some span

/-- Time of a frame on the port's medium in ps (R288). -/
def State.frameTime (s : State) (p len : Nat) : Nat :=
  match s.linkKind p with
  | 0 => len * 17
  | 1 => len * 65
  | _ => (len + 24) * 20

/-- The gate admits a frame of `len` bytes of a class. -/
def State.gateAdmits (s : State) (p cls len : Nat) : Bool :=
  match s.gateSpan p cls with
  | none => true
  | some n => decide (s.frameTime p len ≤ n)

/-! ### What a link reset or a lost parent does with a port's frames (R265, R292) -/

/-- The response code of a PROXY_RSP (R268). -/
def respByte (r : Resp) : Byte := BitVec.ofNat 8 r.code

/-- Send a PROXY_RSP (R268). -/
def State.proxyRsp (s : State) (p : Nat) (node tag : BitVec 16) (r : Resp) (data : Word) : State :=
  let m : Msg := { typ := 0x03, tag, dest := .node node, payload := [respByte r, 0, 0, 0] ++ leBytes 4 data.toNat ++ zeros 4 }
  { s with mbox := s.mbox ++ [(p, m)] }

/-- A proxy request has its answer: to the requester here, or back to the node it came from. -/
def State.proxyAnswer (s : State) (t : ProxyTag) (r : Resp) (data : Word) : State :=
  match t.back with
  | some (p, node, tag) => s.proxyRsp p node tag r data
  | none => s.orderAnswer t.num t.req r data

/-- The proxy requests a test picks are answered RETRY, and their tags are free again (R17, R64, R292). -/
def State.retryWhere (s : State) (f : ProxyTag → Bool) : State :=
  let hit := s.links.proxies.filter fun e => match e.2 with
    | some t => f t && !t.dead
    | none => false
  let s := hit.foldl (fun s e => match e.2 with
    | some t => s.proxyAnswer t .retry 0
    | none => s) s
  s.modLinks fun l => { l with proxies := hit.foldl (fun t e => Tab.write noProxy t e.1 none) l.proxies }

/-- Every proxy request of the port is answered RETRY, and its tag is free again (R17, R64, R292). -/
def State.retryProxies (s : State) (p : Nat) : State := s.retryWhere fun t => decide (t.port = p)

/-- The frames of one class that a port still holds, in their original order: replay buffer, then queue. -/
def State.holdsOf (s : State) (p cls : Nat) : List QFrame :=
  (s.portChans p).flatMap (fun c => ((s.chan c).replay.map (·.frame)).filter fun f => decide (typeClass f.typ = cls)) ++
  s.queue p cls

/-- The old port's queues (R292): C1, C2 and C3 go to `dst` with new tags, proxy requests are answered RETRY,
other C0 frames are discarded, and C4 to C7 are discarded and counted in FO_DROP. -/
def State.moveFrames (s : State) (p dst : Nat) : State :=
  let toChan := ((s.portChans dst).head?).getD dst
  let keep := s.holdsOf p 1 ++ s.holdsOf p 2 ++ s.holdsOf p 3
  let lost := (s.holdsOf p 4).length + (s.holdsOf p 5).length + (s.holdsOf p 6).length + (s.holdsOf p 7).length
  let s := (s.retryProxies p).bumpPort p 0x48 lost
  let s := s.modPort p fun x => { x with queues := [], vtime := 0, finish := [] }
  let s := (s.portChans p).foldl (fun s c => s.modChan c fun x => { x with replay := [], again := [] }) s
  let chanOf (f : QFrame) : Nat := ((s.portChans dst).find? fun c => decide ((s.peerOf c).node = f.dst)).getD toChan
  keep.foldl (fun s f => s.enqueue dst { f with chan := if dst = p then f.chan else chanOf f, ftag := 0 }) s

/-- A channel's numbering, credits and reassembly start afresh (R265), and its link keys are erased (R501). A message in
reassembly is discarded and counted as a malformed frame (R259). -/
def State.resetChan (s : State) (c : Nat) : State :=
  let x := s.chan c
  let broken := (x.reasm.filter fun e => e.2.isSome).length + x.szParts.length
  let s := s.modChan c fun x => { Chan.reset c with sentAt := x.sentAt, heardAt := s.now }
  (List.range broken).foldl (fun s _ => s.violate (.link (s.chanPort c)) 1 [] false) s

/-! ### Training starts (R272, R276) -/

/-- A TS1 or TS2 block of a lane (R276). -/
def State.tsBlock (s : State) (p : Nat) (second : Bool) (lane : Nat) : List Byte :=
  let flags := (if s.isSystem then 1 else 0) + (if (s.linkCtrl0 p).primary then 2 else 0) + (if bit (s.portReg p 0) 4 then 4 else 0)
  [if second then 0xA6 else 0xA5, BitVec.ofNat 8 lane, 0x10, BitVec.ofNat 8 flags] ++ leBytes 2 s.node.toNat ++
  [BitVec.ofNat 8 (if second then ~~~ (s.port p).trained else (s.port p).rxMap.failed).toNat] ++ zeros 9

def State.emitLanes (s : State) (p : Nat) (f : Nat → List Byte) : State :=
  (List.range 5).foldl (fun s l => s.emit (.lane p l (f l))) s

/-- A K-link downlink of a pod-level KXA-32, which is not in use (R20). -/
def State.unusedDownlink (s : State) (p : Nat) : Bool := s.isSystem && s.straps.cascade && decide (p < 32)

/-- The port begins to train: TS1 on every lane of a K-link, four ALIGN chunks on an active package link. -/
def State.startTraining (s : State) (p : Nat) : State :=
  if (s.port p).state = .quarantined then s
  else if !bit (s.portReg p 0) 31 || s.unusedDownlink p then s.modPort p fun x => { x with state := .down, phase := .idle }
  else
    let s := s.modPort p fun x => { x with
      state := .training, phase := .ts1, good := [], invert := 0, trained := 0, ts2Got := 0, ts2Sent := 0, aligns := 0,
      swap := none, txSwap := none, badRun := 0, rxBuf := [], rxSkip := false, rx := [], txBuf := [], txStarts := [],
      laneErr := [], missing := [] }
    match s.linkKind p with
    | 1 => s.emitLanes p (s.tsBlock p false)
    | 0 => if (s.port p).active then (List.range 4).foldl (fun s _ => s.emit (.lane p 0 (List.replicate 64 0xA5))) s else s
    | _ => s

/-- The field of KX_PACE_SYNC of a port's converters (R58). -/
def State.syncField (s : State) (p : Nat) : Nat :=
  match s.linkKind p with
  | 0 => 4
  | 1 => 6
  | _ => 8

/-- A link reset (R265): replay buffer and queues are emptied under R292, LSEQ and credit counters restart, and
the port trains again. Frames of C1, C2 and C3 go to `dst`. -/
def State.linkReset (s : State) (p dst : Nat) : State :=
  let s := (s.moveFrames p dst).applySync (s.syncField p)
  let s := (s.portChans p).foldl State.resetChan s
  let s := s.modRot fun r => { r with agreed := Tab.write noAgreed r.agreed p none }
  let s := { s with check := { s.check with violations := Tab.write noTimes s.check.violations (PortId.link p).subject [] } }
  ((s.loseBits [15]).modPort p fun x => { x with attempts := 1 }).startTraining p

end Sys2Proof.Machine
end

