-- ==== Sys2Proof/Machine/LinkRx.lean ====
section
/-!
DEFINITION. Receiving: codewords, Ethernet frames, KX frames, LINK_CTRL, lanes and training (R256 to R280).
-/
namespace Sys2Proof.Machine

/-! ### The stream of a port (R262) -/

/-- The parser of a codeword's stream bytes: the frame in progress, whether it waits for the next FFP, frames
completed, bad frame starts and bad lengths. -/
structure StreamAcc where
  buf    : List Byte
  skip   : Bool
  frames : List (List Byte)
  starts : Nat
  lens   : Nat

/-- One stream byte. -/
def streamByte (a : StreamAcc) (b : Byte) : StreamAcc :=
  if a.skip then a
  else if a.buf = [] then
    if b = 0 then a
    else if 0x40 ≤ b.toNat ∧ b.toNat < 0x80 then { a with buf := [b] }
    else { a with skip := true, starts := a.starts + 1 }
  else
    let buf := a.buf ++ [b]
    let len := leAt buf 2 2 % 2048
    if buf.length < 4 then { a with buf }
    else if len < 32 ∨ 1056 < len then { a with buf := [], skip := true, lens := a.lens + 1 }
    else if buf.length = len then { a with buf := [], frames := a.frames ++ [buf] }
    else { a with buf }

/-- The data bytes of a good codeword: FFP, then the stream (R262). -/
def State.takeStream (s : State) (p : Nat) (data : List Byte) : State :=
  let x := s.port p
  let ffp := leAt data 0 2
  let body := data.drop 2
  let body := if x.rxSkip then (if ffp = 0xFFFF then [] else body.drop ffp) else body
  let a := body.foldl streamByte
    { buf := if x.rxSkip then [] else x.rxBuf, skip := x.rxSkip && decide (ffp = 0xFFFF), frames := [], starts := 0, lens := 0 }
  let s := s.modPort p fun x => { x with rxBuf := a.buf, rxSkip := a.skip, rx := x.rx ++ a.frames.map fun f => (p, f) }
  let s := if 0 < a.starts then s.violate (.link p) 1 [] true else s
  if 0 < a.lens then (s.violate (.link p) 2 [] true).sendNak p 2 else s

/-- An uncorrectable codeword (R263): it is counted, frames with bytes in it are discarded, a NAK says FEC, and
after 8 in a row the link is reset, unless a lane swap is under way (R272, R277). -/
def State.codewordBad (s : State) (p : Nat) : State :=
  let s := ((s.bumpPort p 0x30 1).portErr p errFecUnc).sendNak p 1
  let s := s.modPort p fun x => { x with rxBuf := [], rxSkip := true, badRun := x.badRun + 1 }
  if 8 ≤ (s.port p).badRun ∧ (s.port p).swap = none then s.modPort p fun x => { x with due := some false } else s

/-! ### Lanes (R274, R277 to R279) -/

/-- The physical lane of logical lane `k` in a map. -/
def mapLane (m : LaneMap) (k : Nat) : Nat := fld m.map (3 * k) 3

/-- The lane map after physical lane `l` has moved to the spare. -/
def laneAfter (m : LaneMap) (l : Nat) : LaneMap :=
  let place (k : Nat) : Nat := if mapLane m k = l then m.spare.toNat else mapLane m k
  { failed := m.failed, spare := 7,
    map := BitVec.ofNat 12 (place 0 + 8 * place 1 + 64 * place 2 + 512 * place 3) }

/-- LANEMAP as a word (R295). -/
def laneWord (m : LaneMap) : Nat := m.failed.toNat * 2 ^ 15 + m.spare.toNat * 2 ^ 12 + m.map.toNat

/-- Send the SWAP request of a swap (R278). -/
def State.sendSwap (s : State) (p : Nat) (w : Swap) : State :=
  s.pushCtl p { s.linkCtrl0 p with swap := true, swapLane := BitVec.ofNat 4 w.lane, swapAt := BitVec.ofNat 32 w.atPair }

/-- A spare is lost (R279): the flag and the record; the link goes down and REPLACE_TRAY is sent when a lane
that carries data has no spare. -/
def State.spareLost (s : State) (p l : Nat) (down : Bool) : State :=
  let s := s.portErr p errSpareLost
  if down then (s.modPort p fun x => { x with due := some true }).replaceTray 0x38 p p 3
  else s.linkLog p 0x0004 6 l (laneWord (s.port p).rxMap)

/-- The receiver takes physical lane `l` as failed (R277 to R279); `cause` is the spare map's. -/
def State.laneFail (s : State) (p l cause : Nat) : State :=
  let m := (s.port p).rxMap
  if 5 ≤ l ∨ bit m.failed l = true then s
  else
    let s := s.modPort p fun x => { x with rxMap := { m with failed := setBit m.failed l true } }
    let serves := (List.range 4).any fun k => decide (mapLane m k = l)
    if !serves then
      let free := decide (m.spare.toNat = l)
      let s := s.modPort p fun x => { x with rxMap := { x.rxMap with spare := if free then 7 else m.spare } }
      s.spareLost p l (free && (s.port p).swap.isSome)
    else if m.spare = 7 ∨ bit (s.portReg p 0) 4 = false ∨ (s.port p).swap.isSome = true then s.spareLost p l true
    else
      let w : Swap := { lane := l, atPair := (s.port p).rxPair + 32, answered := false, repeats := 0 }
      let s := (s.modPort p fun x => { x with swap := some w }).sendSwap p w
      ((s.spareAdd 5 cause l (256 * p + m.spare.toNat)).portErr p errLaneFail).linkLog p 0x0003 5 l
        (laneWord (laneAfter (s.port p).rxMap l))

/-- LANE_SWITCH: at pair SWAP_AT of the answer the failed lane's logical lane moves to the spare, in the receiver
(`tx` false) or in the sender (R278). -/
def execLaneSwitch (port : Nat) (tx : Bool) (s : State) : Host.Outcome State Fault Refusal :=
  finish (
    if tx then
      match (s.port port).txSwap with
      | some (l, a) =>
        if a ≤ (s.port port).txPair then s.modPort port fun x => { x with txSwap := none, txMap := laneAfter x.txMap l } else s
      | none => s
    else
      match (s.port port).swap with
      | some w =>
        if w.answered ∧ w.atPair ≤ (s.port port).rxPair then
          s.modPort port fun x => { x with swap := none, rxMap := laneAfter x.rxMap w.lane, badRun := 0 }
        else s
      | none => s)

/-- Corrected bytes by lane: more than LANE_ERR_TH within one of the 250 ns intervals counted from link-up takes
the lane as failed (R277). A codeword pair takes 17 ns (R274). -/
def State.laneErrors (s : State) (p : Nat) (places : List Nat) : State :=
  let x := s.port p
  let slot := x.rxPair * 17 / 250
  let s := s.modPort p fun x => if x.laneSlot = slot then x else { x with laneSlot := slot, laneErr := [] }
  let s := places.foldl (fun s i =>
    s.modPort p fun y => { y with laneErr := Tab.modify natZero y.laneErr (mapLane y.rxMap (i % 4)) (· + 1) }) s
  let th := fld (s.portReg p 0) 16 8
  (List.range 5).foldl (fun s l => if th < Tab.read natZero (s.port p).laneErr l then s.laneFail p l 6 else s) s

/-- The 272 bytes of a codeword pair from the five physical lanes (R274). -/
def gatherLanes (m : LaneMap) (invert : BitVec 5) (lanes : List (List Byte)) : List Byte :=
  (List.range 272).map fun i =>
    let l := mapLane m (i % 4)
    let b := (((lanes[l]?).getD [])[i / 4]?).getD 0
    if bit invert l then ~~~ b else b

/-- At pair SWAP_AT of the answer the receiver reads the failed lane's logical lane on the spare (R278). -/
def State.rxSwitch (s : State) (p : Nat) : State :=
  match (s.port p).swap with
  | some w =>
    if w.answered ∧ w.atPair ≤ (s.port p).rxPair then
      s.modPort p fun x => { x with swap := none, rxMap := laneAfter x.rxMap w.lane, badRun := 0 }
    else s
  | none => s

/-- CODEWORD_RECEIVE (R261 to R263, R274): a package link's codeword of 136 bytes, or the five lanes' 68 bytes of
a K-link's codeword pair. -/
def State.codeword (s : State) (p : Nat) (lanes : List (List Byte)) : State :=
  let x := s.port p
  if s.isEth p = true ∨ x.state = .down ∨ x.state = .training ∨ x.state = .failed then s
  else if s.linkKind p = 1 then
    let s := s.rxSwitch p
    let x := s.port p
    let r := scramble x.rxScr (gatherLanes x.rxMap x.invert lanes)
    let s := s.modPort p fun x => { x with rxPair := x.rxPair + 1, rxScr := r.1 }
    match rsPairDecode r.2 with
    | some (cw, fixed) =>
      let s := (s.bumpPort p 0x2C fixed.length).laneErrors p fixed
      (s.modPort p fun x => { x with badRun := 0 }).takeStream p
        (interleave ((evens cw).take 132) ((odds cw).take 132))
    | none => s.codewordBad p
  else
    match rsDecode (padTo 136 ((lanes[0]?).getD [])) with
    | some (cw, fixed) =>
      ((s.bumpPort p 0x2C fixed.length).modPort p fun x => { x with badRun := 0 }).takeStream p (cw.take 132)
    | none => s.codewordBad p

/-! ### Training (R271, R272, R276) -/

/-- TRAIN_TS1: one block of each physical lane (empty where none came). 0x5A in place of 0xA5 inverts the lane's
polarity. After 64 consecutive good blocks on each of four lanes the port sends TS2 (R276). -/
def execTrainTs1 (port : Nat) (lanes : List (List Byte)) (s : State) : Host.Outcome State Fault Refusal :=
  finish (
    if s.linkKind port = 1 ∧ (s.port port).state = .training ∧ (s.port port).phase = .ts1 then
      let s := (List.range 5).foldl (fun s l =>
        let b := (lanes[l]?).getD []
        let inv := decide (leAt b 0 1 = 0x5A)
        let b' := if inv then b.map (~~~ ·) else b
        let ok := decide (b'.length = 16) && decide (leAt b' 0 1 = 0xA5) && decide (leAt b' 1 1 = l) && decide (leAt b' 2 1 / 16 = 1)
        s.modPort port fun x =>
          let g := if ok then Tab.read natZero x.good l + 1 else 0
          let fl := BitVec.ofNat 8 (leAt b' 3 1)
          { x with
            good := Tab.write natZero x.good l g,
            invert := if ok then setBit x.invert l inv else x.invert,
            trained := if 64 ≤ g then setBit x.trained l true else x.trained,
            agg := if ok then bit fl 0 else x.agg, primary := if ok then bit fl 1 else x.primary,
            peer := if ok then BitVec.ofNat 16 (leAt b' 4 2) else x.peer,
            txMap := if ok then { x.txMap with failed := BitVec.ofNat 5 (leAt b' 6 1) } else x.txMap }) s
      let n := ((List.range 5).filter fun l => bit (s.port port).trained l).length
      if 4 ≤ n then (s.modPort port fun x => { x with phase := .ts2 }).emitLanes port (s.tsBlock port true) else s
    else s)

/-- The alignment marker of every lane before the next codeword pair (R275). -/
def State.emitMarkers (s : State) (p : Nat) : State :=
  s.emitLanes p fun l =>
    [0xA7, BitVec.ofNat 8 l] ++ leBytes 4 (s.port p).txPair ++ leBytes 8 (s.port p).txScr.toNat ++ zeros 2

/-- TRAIN_TS2: a TS2 block has come, with the lanes that failed at the partner's receiver (byte 6). After 16 received and
16 sent, the marker goes out on every lane and the codeword stream starts (R276). -/
def execTrainTs2 (b : TrainIn) (s : State) : Host.Outcome State Fault Refusal :=
  finish (
    if s.linkKind b.port = 1 ∧ (s.port b.port).state = .training ∧ (s.port b.port).phase = .ts2 then
      let s := s.modPort b.port fun x => { x with
        ts2Got := x.ts2Got + 1, ts2Sent := x.ts2Sent + 1, txMap := { x.txMap with failed := b.failed } }
      if 16 ≤ (s.port b.port).ts2Got ∧ 16 ≤ (s.port b.port).ts2Sent then
        (s.modPort b.port fun x => { x with phase := .stream, rxPair := 0, txPair := 0 }).emitMarkers b.port
      else s
    else s)

/-- The trained lanes give the lane maps: one untrained lane leaves no spare, and the logical lanes take the
trained ones in order. -/
def trainedMap (trained : BitVec 5) : LaneMap :=
  let ok := (List.range 5).filter fun l => bit trained l
  if ok.length = 5 then LaneMap.reset
  else
    let at' (k : Nat) : Nat := (ok[k]?).getD 0
    { failed := ~~~ trained, spare := if bit trained 4 && decide (ok.length = 5) then 4 else 7,
      map := BitVec.ofNat 12 (at' 0 + 8 * at' 1 + 64 * at' 2 + 512 * at' 3) }

/-- UCIE_ALIGN: a chunk at link-up. The first chunk after the last ALIGN chunk starts codeword group 0 (R272). -/
def execUcieAlign (port : Nat) (chunk : List Byte) (s : State) : Host.Outcome State Fault Refusal :=
  finish (
    if s.linkKind port = 0 ∧ (s.port port).state = .training ∧ (s.port port).active = true then
      if chunk = List.replicate 64 0xA5 then s.modPort port fun x => { x with aligns := x.aligns + 1 }
      else if 0 < (s.port port).aligns then
        s.modPort port fun x => { x with phase := .stream, rxBuf := [], rxSkip := false, badRun := 0 }
      else s
    else s)

/-- UCIE_REPAIR: the adapter reports a lane repair, which is recorded in the spare map: KIND LANE, CAUSE BIST
(R271, R514). -/
def execUcieRepair (port lane : Nat) (s : State) : Host.Outcome State Fault Refusal :=
  finish (if s.linkKind port = 0 ∧ s.isDie = true then s.spareAdd 5 9 lane (256 * port) else s)

/-! ### Ethernet (R280, R516) -/

/-- The MAC of port U`u` (R296). -/
def State.portMac (s : State) (p : Nat) : Nat :=
  (s.reg (pg 0x91) 0x40).toNat + 2 ^ 32 * s.regFld (pg 0x91) 0x44 0 16 + (p - 32)

/-- The KX frames back to back in an Ethernet frame's payload; none when one has a wrong length. -/
def unpackFrames : Nat → List Byte → Option (List (List Byte))
  | 0, _ => some []
  | n + 1, bs =>
    let len := leAt bs 2 2 % 2048
    if len < 32 ∨ 1056 < len ∨ bs.length < len then none
    else (unpackFrames n (bs.drop len)).map fun l => bs.take len :: l

/-- A PTP message that is signalling or management is counted in IGNORED and discarded (R231). -/
def State.ptpOther (s : State) (p : Nat) (b : List Byte) : State :=
  let k := (b.getD 0 0).toNat % 16
  if s.time.running = true ∧ p < s.portCount ∧ (s.tport p).state ≠ .disabled ∧ (k = 12 ∨ k = 13) then s.ptpIgnored p 1 else s

/-- ETHERNET_FRAME: a frame as the MAC receives it, FCS included (R280). A failed FCS drops it. -/
def execEthernetFrame (port : Nat) (bytes : List Byte) (s : State) : Host.Outcome State Fault Refusal :=
  finish (
    if s.isEth port = true ∧ (s.linkUp port || decide ((s.port port).state = .quarantined)) = true ∧ s.chanOpen (s.linkConv port) = true then
      let n := bytes.length - 4
      if bytes.length < 64 ∨ bytes.drop n ≠ fcs (bytes.take n) then s
      else
        let tagged := decide (ofBe (slice bytes 12 2) = 0x8100)
        let o := if tagged then 16 else 12
        let ty := ofBe (slice bytes o 2)
        let src := ofBe (slice bytes 6 6)
        let body := (bytes.take n).drop (o + 2)
        let peer := s.links.peers.find? fun e => e.2.valid && decide (32 + e.2.port.toNat = port) && decide (e.2.mac.toNat = src)
        match peer with
        | none => s.violate (.link port) 1 (bytes.take 16) true
        | some e =>
          if ty = 0x88F7 then (if s.linkUp port then s.ptpOther port body else s)
          else if ty ≠ 0x88B5 then s.violate (.link port) 1 (bytes.take 16) true
          else
          let cnt := leAt body 1 1
          if leAt body 0 1 ≠ 1 ∨ cnt = 0 ∨ 8 < cnt ∨ leAt body 2 2 ≠ 0 then s.violate (.link port) 1 (bytes.take 16) true
          else match unpackFrames cnt (body.drop 4) with
          | none => (s.violate (.link port) 2 (bytes.take 16) true).sendNak (256 + e.1) 2
          | some fs => s.modPort port fun x => { x with rx := x.rx ++ fs.map fun f => (256 + e.1, f) }
    else s)

/-! ### KX frames (R255 to R260, R264, R266, R267, R286) -/

/-- The fields of a received header. -/
structure RxHeader where
  ver  : Nat
  cls  : Nat
  sec  : Bool
  sz   : Bool
  more : Bool
  typ  : Byte
  frag : Nat
  len  : Nat
  src  : BitVec 16
  dst  : BitVec 16
  lseq : BitVec 16
  ack  : BitVec 16
  hops : Nat
  tag  : BitVec 16

def rxHeader (b : List Byte) : RxHeader :=
  let f := BitVec.ofNat 8 (leAt b 0 1)
  { ver := fld f 6 2, cls := fld f 3 3, sec := bit f 2, sz := bit f 1, more := bit f 0, typ := BitVec.ofNat 8 (leAt b 1 1),
    frag := leAt b 2 2 / 4096, len := leAt b 2 2 % 2048, src := BitVec.ofNat 16 (leAt b 4 2),
    dst := BitVec.ofNat 16 (leAt b 6 2), lseq := BitVec.ofNat 16 (leAt b 8 2), ack := BitVec.ofNat 16 (leAt b 10 2),
    hops := leAt b 12 2 % 16, tag := BitVec.ofNat 16 (leAt b 14 2) }

/-- The payload of a received frame: in the clear, or opened with the receive key; none when the tag fails. -/
def rxPayload (h : RxHeader) (key : Option LinkKey) (b : List Byte) : Option (List Byte) :=
  let body := (b.take (h.len - 4)).drop 16
  if h.sec then
    match key with
    | some k => gcmOpen k.key (linkNonce k) (b.take 16) (body.take (body.length - 16)) (body.drop (body.length - 16))
    | none => none
  else some body

/-- LEN disagrees with a TYPE of fixed payload (R268, R269). -/
def badTypeLen (h : RxHeader) : Bool :=
  (decide (h.typ = 0x00) && decide (h.len ≠ 36)) ||
  ((decide (h.typ = 0x02) || decide (h.typ = 0x03)) && decide (h.len ≠ frameLen h.sec 12))

/-- The destination is this node (R258). -/
def State.isHere (s : State) (n : BitVec 16) : Bool :=
  decide (n = 0xFFFF) || decide (n = s.node) ||
  (s.isHead && decide (n.toNat / 2 ^ 14 = 1) && decide (n.toNat / 8 % 2 ^ 11 = s.node.toNat / 8 % 2 ^ 11))


def isCredited (cls : Nat) : Bool := decide (cls = 2) || decide (cls = 3) || decide (cls = 7)

def noSources (_ : Nat) : List (BitVec 16) := []

/-- Policing of a C4, C5 or C6 frame (R286): is it dropped? Otherwise it takes its LEN. -/
def State.police (s : State) (p cls : Nat) (src : BitVec 16) (len : Nat) : Bool × State :=
  let w := s.portReg p (0x1C + 4 * (cls - 4))
  if fld w 16 16 = 0 then (false, s)
  else
    let l := Tab.read noSources (s.port p).sources 0
    let known := l.findIdx fun x => decide (x = src)
    let fresh := decide (known = l.length) && decide (l.length < 256)
    let i := min known 255
    let key := cls * 1024 + i
    let s := if fresh then s.modPort p fun x => { x with
        sources := Tab.write noSources x.sources 0 (l ++ [src]),
        police := [4, 5, 6].foldl (fun t k => Tab.write natZero t (k * 1024 + i) (fld (s.portReg p (0x1C + 4 * (k - 4))) 0 16)) x.police }
      else s
    let have' := Tab.read natZero (s.port p).police key
    if have' < len then (true, (s.bumpPort p (0x38 + 4 * (cls - 4)) 1).portErr p errPolDrop)
    else (false, s.modPort p fun x => { x with police := Tab.write natZero x.police key (have' - len) })

/-- Bytes of a class that wait in the ingress buffer of a port for another port's queue (R284). -/
def State.heldBytes (s : State) (p cls : Nat) : Nat :=
  (((s.port p).held.filter fun e => decide (typeClass e.2.typ = cls)).map fun e => frameLen false e.2.payload.length).sum

/-- Pass a frame on: to the egress queue, or to wait where a C0 or C1 queue is full (R284). -/
def State.forward (s : State) (p q : Nat) (m : Msg) : State :=
  let cls := typeClass m.typ
  if cls < 2 && !s.controlRoom q cls (s.msgBytes q m) then
    s.modPort p fun x => { x with held := x.held ++ [(q, m)] }
  else s.enqueueMsg q m

/-- Messages for which the manual names no step at a receiving node between the sender and the root: they are
passed on to this node's own parent (DESIGN CHOICE). -/
def relayedUp (typ : Byte) : Bool :=
  decide (typ = 0x11) || decide (typ = 0x12) || decide (typ = 0x30) || decide (typ = 0x50)

def noReasm (_ : Nat) : Option Reasm := none

/-- A frame joins its message (R259): fragments are gathered, and a broken sequence is a malformed frame. Answers the whole
message once its last fragment has come. -/
def State.gatherStep (s : State) (p c : Nat) (h : RxHeader) (payload : List Byte) : State × Option (List Byte) :=
  let set (s : State) (r : Option Reasm) : State := s.modChan c fun x => { x with reasm := Tab.write noReasm x.reasm h.cls r }
  let start : Option Reasm :=
    if h.more then some { typ := h.typ, src := h.src, tag := h.tag, next := 1, data := payload } else none
  match Tab.read noReasm (s.chan c).reasm h.cls with
  | none =>
    if h.frag = 0 then (set s start, if h.more then none else some payload)
    else (s.violate (.link p) 1 [] true, none)
  | some r =>
    if r.typ = h.typ ∧ r.src = h.src ∧ r.tag = h.tag ∧ r.next = h.frag then
      if h.more then (set s (some { r with next := r.next + 1, data := r.data ++ payload }), none)
      else (set s none, some (r.data ++ payload))
    else
      let s := set s none |>.violate (.link p) 1 [] true
      if h.frag = 0 then (set s start, if h.more then none else some payload) else (s, none)

/-- A frame whose destination is here. What a whole message then does is the step of its TYPE; PTP messages that no step
takes are counted. -/
def State.gather (s : State) (p c : Nat) (h : RxHeader) (payload : List Byte) : State :=
  match s.gatherStep p c h payload with
  | (s, some b) => if h.typ = 0x01 then s.ptpOther p b else s
  | (s, none) => s

/-- A frame for another node (R259): its message goes on as a whole, in the fragments of the next link, so that no fragment
of another message of its class comes between them. -/
def State.relay (s : State) (p c : Nat) (h : RxHeader) (dest : Dest) (payload : List Byte) : State :=
  match s.gatherStep p c h payload with
  | (s, some b) => (s.route dest).foldl (fun s q => s.forward p q
      { typ := h.typ, tag := h.tag, dest, payload := b, src := some h.src, hops := h.hops - 1, came := some c }) s
  | (s, none) => s

def noParts (_ : Nat) : List Msg := []

/-- Put the Sinter fragments of a message in reassembly aside. -/
def State.setParts (s : State) (c cls : Nat) (l : List Msg) : State :=
  s.modChan c fun x => { x with szParts := Tab.write noParts x.szParts cls l }

/-- A Sinter fragment for another node (R259, R309): its payload goes on unchanged, and the fragments of a message one after
another; a broken sequence is a malformed frame. -/
def State.relaySz (s : State) (p c : Nat) (h : RxHeader) (m : Msg) : State :=
  let old := Tab.read noParts (s.chan c).szParts h.cls
  let good := decide (h.frag = old.length) && old.all fun e => decide (e.typ = m.typ ∧ e.src = m.src ∧ e.tag = m.tag)
  let l := if good then old ++ [m] else if h.frag = 0 then [m] else []
  let s := if good then s else s.violate (.link p) 1 [] true
  if h.more then s.setParts c h.cls l
  else l.foldl (fun s m => (s.route m.dest).foldl (fun s q => s.forward p q m) s) (s.setParts c h.cls [])

/-- An accepted SZ frame at its destination enters the decompressor's queue (R309): a C5 or C6 frame that finds
16 KiB held is dropped and counted in QDROP. SZ in another class is a malformed frame (R306). -/
def State.sinterIn (s : State) (p c : Nat) (h : RxHeader) (payload : List Byte) : State :=
  if h.cls < 5 then s.violate (.link p) 1 [] true
  else if h.cls < 7 ∧ 16384 < (s.sinter.dec.map fun w => w.payload.length).sum + payload.length then s.bumpPort p 0x44 1
  else
    let w : DecWork := { port := p, chan := c, typ := h.typ, cls := h.cls, more := h.more, frag := h.frag, src := h.src,
                         tag := h.tag, payload, units := if h.cls = 7 then creditOf h.len else 0 }
    { s with sinter := { s.sinter with dec := s.sinter.dec ++ [w] } }

/-- Does an upward message go on from here (R253)? -/
def State.hasParent (s : State) : Bool := decide (s.route .up ≠ [])

/-- An accepted frame at its node: forwarded, or taken here. `dead` says that the frame's class is discarded for
this destination (R339). -/
def State.dispatch (s : State) (p c : Nat) (h : RxHeader) (payload : List Byte) (dead : Bool) (raw : List Byte) : State :=
  let m : Msg := { typ := h.typ, tag := h.tag, dest := .node h.dst, payload, src := some h.src, hops := h.hops - 1,
                   sz := h.sz, more := h.more, frag := h.frag, came := some c }
  if s.isHere h.dst then
    if h.sz then s.sinterIn p c h payload
    else if relayedUp h.typ && s.hasParent then s.relay p c h .up payload
    else s.gather p c h payload
  else if h.hops = 0 then s.violate (.link p) 1 (raw.take 16) true
  else if dead then s.bumpFld (pg 0x40) 0x54 16 16 1
  else if h.sz then s.relaySz p c h m
  else s.relay p c h (.node h.dst) payload

/-- The channel log's capacity (KX_SNUFF_LOGCAP). -/
def State.snuffCap (s : State) : Nat := if s.isSystem then 1048576 else 65536

/-- A frame as received, with its protection removed (R470). -/
def unprotected (h : RxHeader) (b payload : List Byte) : List Byte :=
  if h.sec then b.take 16 ++ payload ++ b.drop (b.length - 4) else b

/-- A frame that is not exempt is held; while its port's channel is open it is also logged (R463). -/
def State.snuffHold (s : State) (p c : Nat) (h : RxHeader) (payload b : List Byte) : State :=
  let s := { s with snuff := { s.snuff with held := s.snuff.held ++ [{ port := p, chan := c, bytes := b, payload }] } }
  let raw := unprotected h b payload
  let n := 8 + 8 * ceilDiv raw.length 8
  if !bit s.snuff.openCh p || decide (64 ≤ p) then s
  else if s.snuffCap < s.snuff.logUsed + n then
    ({ s with snuff := { s.snuff with logFull := true } }).setErr (pg 0x61) 19
  else { s with snuff := { s.snuff with
    log := s.snuff.log ++ [{ port := p, cls := h.cls, lseq := h.lseq, bytes := raw }]
    logUsed := s.snuff.logUsed + n } }

/-- An accepted frame is handled, or held by a Snuff. -/
def State.arrive (s : State) (p c : Nat) (h : RxHeader) (payload : List Byte) (dead : Bool) (raw : List Byte) : State :=
  if s.snuffBars h.typ then s.snuffHold p c h payload raw else s.dispatch p c h payload dead raw

/-- Take the oldest received frame of a port (R264 and the table of R523). `dead` is R339's discard of a class for
a node. LINK_CTRL frames act by their own step; here they carry their ACK. -/
def State.frameReceive (s : State) (p : Nat) (dead : BitVec 16 → Nat → Bool) : State :=
  match (s.port p).rx with
  | [] => s
  | (c, b) :: rest =>
    let s := s.modPort p fun x => { x with rx := rest }
    let h := rxHeader b
    let v (s : State) (cls : Nat) : State := s.violate (.link p) cls (b.take 16) true
    if b.length ≠ h.len ∨ h.len < 32 then (v s 2).sendNak c 2
    else if !trailerGood b then (v s 1).sendNak c 2
    else
      let s := (s.modChan c fun x => { x with heardAt := s.now })
      if h.typ = 0 then (if h.cls = 0 then s.takeAck c h.ack else v s 1)
      else if (s.port p).state = .quarantined ∨ s.linkUp p = false then s
      else
        let s := s.takeAck c h.ack
        let x := s.chan c
        if h.lseq ≠ x.rxSeq then
          if seqLe h.lseq (x.rxSeq - 1) then s else s.sendNak c 3
        else
          let accept (s : State) : State :=
            s.modChan c fun x => { x with
              rxSeq := x.rxSeq + 1, owesAck := true,
              rxKey := if h.sec then x.rxKey.map fun k => { k with ctr := k.ctr + 1 } else x.rxKey }
          match rxPayload h x.rxKey b with
          | none => (v s 1).sendNak c 4
          | some payload =>
            if !h.sec && bit (s.portReg p 0) 3 then v (accept s) 1
            else if h.ver ≠ 1 ∨ !knownType h.typ ∨ h.cls ≠ typeClass h.typ ∨ (h.sz = true ∧ h.cls < 5) then v (accept s) 1
            else if badTypeLen h then (v s 2).sendNak c 2
            else if isCredited h.cls ∧
                s.creditCount c h.cls < Tab.read natZero x.got h.cls + creditOf h.len then
              ((v s 3).portErr p errCrdOverrun).sendNak c 5
            else if h.cls < 2 ∧ 8192 < s.heldBytes p h.cls + h.len then s.sendNak c 5
            else
              let s := accept s
              let s := if isCredited h.cls then s.modChan c fun x => { x with
                  got := Tab.modify natZero x.got h.cls (· + creditOf h.len),
                  freed := if h.sz && decide (h.cls = 7) && s.isHere h.dst then x.freed
                    else Tab.modify natZero x.freed h.cls (· + creditOf h.len) } else s
              if 4 ≤ h.cls ∧ h.cls ≤ 6 then
                let r := s.police p h.cls h.src h.len
                if r.1 then r.2 else r.2.arrive p c h payload (dead h.dst h.cls) b
              else s.arrive p c h payload (dead h.dst h.cls) b

/-! ### LINK_CTRL received (R264, R265, R266, R269, R278) -/

/-- The answer to a SWAP (R278): the requested pair when it lies ahead, else the next pair plus 4. -/
def State.answerSwap (s : State) (p : Nat) (m : LinkCtrl) : State :=
  let next := (s.port p).txPair
  let ahead := (m.swapAt - BitVec.ofNat 32 next).toNat
  let a := if ahead < 2 ^ 31 then next + ahead else next + 4
  (s.modPort p fun x => { x with
      txSwap := some (m.swapLane.toNat, a),
      txMap := { x.txMap with failed := setBit x.txMap.failed m.swapLane.toNat true } }).pushCtl p
    { s.linkCtrl0 p with swapAck := true, swapLane := m.swapLane, swapAt := BitVec.ofNat 32 a }

/-- A NAK (R264, R265, R267): every buffered frame from the named LSEQ is sent again; REPLAY_MAX of them for one
LSEQ are recorded, and the link reset follows (`State.nakReset`). -/
def State.takeNak (s : State) (c : Nat) (m : LinkCtrl) : State :=
  let p := s.chanPort c
  let x := s.chan c
  let n := if x.nakSeq = m.nakSeq then x.naks + 1 else 1
  if max 1 (fld (s.portReg p 0) 8 8) ≤ n then
    ((s.modChan c fun x => { x with nakSeq := m.nakSeq, naks := n }).portErr p errReplayLimit).linkLog p 0x0001 5 m.nakSeq.toNat 0
  else
    let l := x.replay.filter fun f => seqLe m.nakSeq f.seq
    (s.modChan c fun x => { x with
        again := l, nakSeq := m.nakSeq, naks := n,
        busyTo := if m.nakWhy = 5 then s.now + us else x.busyTo }).bumpPort p 0x34 l.length

/-- Where this node stands, from the first LINK_CTRL of its parent, whose DST names it (R258). -/
def State.learnNode (s : State) (p : Nat) (dst : BitVec 16) : State :=
  if s.links.trayKnown ∨ dst = 0xFFFF ∨ !(s.route .upBoth).contains p then s
  else s.modLinks fun l => { l with
    trayKnown := true, tray := dst.toNat / 2 ^ 8 % 64, down := if s.isDie then dst.toNat / 8 % 32 else 0 }

/-- What a LINK_CTRL says, but for a TAKEOVER. -/
def State.linkCtrl (s : State) (c : Nat) (dst ack : BitVec 16) (m : LinkCtrl) : State :=
  let p := s.chanPort c
  let s := s.modChan c fun x => { x with
    heardAt := s.now,
    count := Tab.write natZero (Tab.write natZero (Tab.write natZero x.count 2 m.crd2.toNat) 3 m.crd3.toNat) 7 m.crd7.toNat }
  let s := (s.takeAck c ack).learnNode p dst
  let s := if m.head ∧ s.isDie = true ∧ p < 7 ∧ s.pkg.head = some (BitVec.ofNat 3 (s.portDie p)) then
      { s with pkg := { s.pkg with heard := true, missed := 0 } }
    else if m.head ∧ s.isDie = true ∧ p < 7 ∧ s.pkg.head = none then
      { s with pkg := { s.pkg with head := some (BitVec.ofNat 3 (s.portDie p)), heard := true, missed := 0 } }
    else s
  let s := if m.swap then s.answerSwap p m else s
  let s := if m.swapAck then
      match (s.port p).swap with
      | some w => s.modPort p fun x =>
          let ahead := (m.swapAt - BitVec.ofNat 32 x.rxPair).toNat
          { x with swap := some { w with answered := true, atPair := x.rxPair + if ahead < 2 ^ 31 then ahead else 0 } }
      | none => s.violate (.link p) 4 (s.ctrlPayload c m) true
    else s
  if m.nak then s.takeNak c m else s

end Sys2Proof.Machine
end

