-- ==== Sys2Proof/Machine/LinkTx.lean ====
section
/-!
DEFINITION. Sending: the choice of the next frame, the codeword stream and Ethernet frames it leaves in, gates,
and the link commands that act on one port (R261, R262, R274, R275, R280, R283 to R290, R297).
-/
namespace Sys2Proof.Machine

/-! ### The stream sent (R262, R274, R275) -/

/-- The bytes of a codeword pair on each physical lane; a lane that serves no logical lane carries a copy of
logical lane 0 (R274). -/
def spreadLanes (m : LaneMap) (cw : List Byte) (l : Nat) : List Byte :=
  let k := ((List.range 4).find? fun k => decide (mapLane m k = l)).getD 0
  (List.range 68).map fun i => (cw[4 * i + k]?).getD 0

/-- At pair SWAP_AT of the answer the sender moves the failed lane's logical lane to the spare (R278). -/
def State.txSwitch (s : State) (p : Nat) : State :=
  match (s.port p).txSwap with
  | some (l, a) =>
    if a ≤ (s.port p).txPair then s.modPort p fun x => { x with txSwap := none, txMap := laneAfter x.txMap l } else s
  | none => s

/-- Send one codeword (or pair) that holds `body` as its stream bytes, with its first-frame pointer. -/
def State.sendCodeword (s : State) (p : Nat) (ffp : Nat) (body : List Byte) : State :=
  let s := s.txSwitch p
  let data := leBytes 2 ffp ++ body
  if s.linkKind p = 1 then
    let r := scramble (s.port p).txScr (rsPairEncode data)
    let s := s.emitLanes p (spreadLanes (s.port p).txMap r.2)
    let s := s.modPort p fun x => { x with txPair := x.txPair + 1, txScr := r.1 }
    if (s.port p).txPair % 2048 = 0 then s.emitMarkers p else s
  else s.emit (.lane p 0 (rsEncode data))

/-- Send every full codeword of the stream, `n` stream bytes each. -/
def State.drainStream (s : State) (p n : Nat) : Nat → State
  | 0 => s
  | fuel + 1 =>
    let x := s.port p
    if x.txBuf.length < n then s
    else
      let ffp := match x.txStarts with
        | f :: _ => if f < n then f else 0xFFFF
        | [] => 0xFFFF
      let s := s.sendCodeword p ffp (x.txBuf.take n)
      let s := s.modPort p fun y => { y with
        txBuf := x.txBuf.drop n, txStarts := (x.txStarts.filter fun f => decide (n ≤ f)).map (· - n) }
      s.drainStream p n fuel

/-- Stream bytes of a codeword: 130, or 262 in a pair (R262). -/
def State.streamBytes (s : State) (p : Nat) : Nat := if s.linkKind p = 1 then 262 else 130

/-- A frame enters the stream. -/
def State.pushStream (s : State) (p : Nat) (bytes : List Byte) : State :=
  let s := s.modPort p fun x => { x with txStarts := x.txStarts ++ [x.txBuf.length], txBuf := x.txBuf ++ bytes }
  s.drainStream p (s.streamBytes p) 12

/-- No frame is ready: the codeword in progress is filled with zero bytes and sent. -/
def State.fillStream (s : State) (p : Nat) : State :=
  let n := s.streamBytes p
  if (s.port p).txBuf = [] ∨ s.isEth p = true then s
  else (s.modPort p fun x => { x with txBuf := x.txBuf ++ zeros ((n - x.txBuf.length % n) % n) }).drainStream p n 12

/-! ### Ethernet frames (R280) -/

/-- The Ethernet frame of some KX frames of one class for one peer, or of one PTP message. -/
def State.ethFrame (s : State) (p c cls : Nat) (ptp : Bool) (frames : List (List Byte)) : List Byte :=
  let v := s.reg (pg 0x91) 0x50
  let pcp := s.regFld (pg 0x91) 0x54 (3 * cls) 3
  let tag := if bit v 31 then beBytes 2 0x8100 ++ beBytes 2 (pcp * 2 ^ 13 + fld v 0 12) else []
  let dst := if ptp then beBytes 6 0x011B19000000 else beBytes 6 (s.peerOf c).mac.toNat
  let body := if ptp then beBytes 2 0x88F7 ++ frames.flatten
    else beBytes 2 0x88B5 ++ [1, BitVec.ofNat 8 frames.length, 0, 0] ++ frames.flatten
  let b := dst ++ beBytes 6 (s.portMac p) ++ tag ++ body
  let b := b ++ zeros ((if bit v 31 then 64 else 60) - b.length)
  b ++ fcs b

/-! ### Choosing the next frame (R283) -/

/-- The replay buffer of a channel (R253). -/
def State.replayCap (s : State) (c : Nat) : Nat :=
  let p := s.chanPort c
  if 64 ≤ p then 4096 else match s.linkKind p with
  | 0 => 16384 | 1 => 32768 | _ => 65536

/-- A new numbered frame may leave on its channel: nothing is to be sent again first, and the replay buffer has
room (R264, R265). PTP on Ethernet is not a KX frame and has no number. -/
def State.mayNumber (s : State) (p : Nat) (f : QFrame) : Bool :=
  let x := s.chan f.chan
  (s.isEth p && decide (f.typ = 0x01)) ||
  (decide (x.again = []) && decide ((x.replay.map fun r => r.bytes.length).sum + s.qLen f ≤ s.replayCap f.chan))

/-- Credits cover a frame (R266). -/
def State.credits (s : State) (c cls : Nat) : Nat :=
  let x := s.chan c
  (Tab.read natZero x.count cls + 65536 - Tab.read natZero x.used cls % 65536) % 65536

/-- The head frame of a class, when it is eligible (R283). -/
def State.eligible (s : State) (p cls : Nat) : Option QFrame :=
  match (s.queue p cls).find? fun f => !s.snuffBars f.typ with
  | none => none
  | some f =>
    let len := s.qLen f
    if s.mayNumber p f && s.gateAdmits p cls len &&
        (decide (2 ≤ cls) || decide (len ≤ Tab.read tokensReset (s.port p).tokens cls)) &&
        (!isCredited cls || decide (creditOf len ≤ s.credits f.chan cls)) then some f else none

/-- The choice among C2 to C7 (R285). -/
def State.fairest (s : State) (p : Nat) : List Nat → Option QFrame → Option QFrame
  | [], best => best
  | c :: cs, best =>
    match s.eligible p c, best with
    | some f, some b => s.fairest p cs (if tagAfter b.ftag f.ftag then some f else some b)
    | some f, none => s.fairest p cs (some f)
    | none, b => s.fairest p cs b

/-- Number, protect and store a frame; its bytes (R260, R264, R266). -/
def State.numberFrame (s : State) (f : QFrame) : List Byte × State :=
  let x := s.chan f.chan
  let key := if x.armed then x.txKey else none
  let b := frameBytes f key x.txSeq (x.rxSeq - 1)
  let cls := typeClass f.typ
  (b, s.modChan f.chan fun x => { x with
    txSeq := x.txSeq + 1, replay := x.replay ++ [{ seq := x.txSeq, bytes := b, frame := f }], owesAck := false, sentAt := s.now,
    txKey := if x.armed then x.txKey.map fun k => { k with ctr := k.ctr + 1 } else x.txKey,
    used := if isCredited cls then Tab.modify natZero x.used cls (· + creditOf b.length) else x.used })

/-- Take a chosen frame out of its queue; virtual time follows it (R285), tokens are taken (R284). -/
def State.unqueue (s : State) (p : Nat) (f : QFrame) : State :=
  let cls := typeClass f.typ
  let len := s.qLen f
  let s := s.setQueue p cls ((s.queue p cls).erase f)
  if cls < 2 then s.modPort p fun x => { x with tokens := Tab.modify tokensReset x.tokens cls (· - len) }
  else
    let s := s.modPort p fun x => { x with vtime := f.ftag }
    if (List.range' 2 6).all fun c => decide (s.queue p c = []) then
      s.modPort p fun x => { x with vtime := 0, finish := [] }
    else s

/-- More frames of one class and peer join an Ethernet frame while they are ready and fit (R280). -/
def State.packMore (s : State) (p c cls : Nat) (have' : List (List Byte)) : Nat → List (List Byte) × State
  | 0 => (have', s)
  | fuel + 1 =>
    match s.eligible p cls with
    | some f =>
      let sum := (have'.map List.length).sum + s.qLen f
      if f.chan = c ∧ sum + 4 ≤ s.regFld (pg 0x91) 0x58 0 14 ∧ s.gateAdmits p cls sum = true then
        let r := (s.unqueue p f).numberFrame f
        r.2.packMore p c cls (have' ++ [r.1]) fuel
      else (have', s)
    | none => (have', s)

/-- Send a chosen new frame. An armed injection of KIND 0x04 discards it on its way out (R68): it is numbered and
stays in the replay buffer. -/
def State.sendNew (s : State) (p : Nat) (f : QFrame) : State :=
  let cls := typeClass f.typ
  let s := s.unqueue p f
  if s.isEth p then
    if f.typ = 0x01 then s.emit (.ethernet p (s.ethFrame p 0 cls true [f.payload]))
    else
      let r := s.numberFrame f
      let r := r.2.packMore p f.chan cls [r.1] 7
      let inj := r.2.injTake (s.portPage p) 4
      if inj.1 then inj.2 else inj.2.emit (.ethernet p (r.2.ethFrame p f.chan cls false r.1))
  else
    let r := s.numberFrame f
    let inj := r.2.injTake (s.portPage p) 4
    if inj.1 then inj.2 else (inj.2.emit (.frame p r.1)).pushStream p r.1

/-- Send bytes as they are: a LINK_CTRL frame or a replayed one. -/
def State.sendRaw (s : State) (p c cls : Nat) (b : List Byte) : State :=
  let s := s.modChan c fun x => { x with sentAt := s.now }
  if s.isEth p then s.emit (.ethernet p (s.ethFrame p c cls false [b])) else (s.emit (.frame p b)).pushStream p b

/-- Whom a LINK_CTRL's DST names: a child, so that it learns its place (R258), or the link partner. -/
def State.ctrlDst (s : State) (p c : Nat) : BitVec 16 :=
  if s.isEth p then (s.peerOf c).node
  else if s.isSystem then nodeOf 0 s.links.tray p 0
  else if p < 7 ∧ s.isHead = true then nodeOf 0 s.links.tray s.links.down (s.portDie p)
  else 0xFFFF

/-- A count that has not been reported yet is the buffer's size. -/
def creditsZero (_ : Nat) : Nat := creditUnits

/-- Send the oldest LINK_CTRL of a channel (R269): not numbered, not protected, with the ACK and the credits of
the moment. -/
def State.sendCtl (s : State) (p c : Nat) (m : LinkCtrl) : State :=
  let x := s.chan c
  let f : QFrame := { typ := 0, sz := false, more := false, frag := 0, src := s.node, dst := s.ctrlDst p c, hops := 8, tag := 0,
                      payload := s.ctrlPayload c m, chan := c, ftag := 0 }
  let b := frameBytes f none 0 (x.rxSeq - 1)
  let told := [2, 3, 7].foldl (fun t k => Tab.write creditsZero t k (s.creditCount c k)) x.told
  let s := s.modChan c fun x => { x with ctl := x.ctl.drop 1, owesAck := false, told }
  s.sendRaw p c 0 b

/-- Forwarded C0 and C1 frames that waited for room in this port's queues move in, in order (R284). -/
def State.unhold (s : State) (q : Nat) : State :=
  (List.range (if s.isSystem then 36 else 9)).foldl (fun s p =>
    (s.port p).held.foldl (fun s e =>
      if e.1 = q ∧ s.controlRoom q (typeClass e.2.typ) (s.msgBytes q e.2) = true then
        (s.modPort p fun x => { x with held := x.held.erase e }).enqueueMsg q e.2
      else s) s) s

/-- FRAME_SELECT: the port chooses and sends its next frame (R283). With nothing to send, it completes the codeword
in progress with fill. -/
def State.frameSelect (s : State) (p : Nat) : State :=
  let cs := s.portChans p
  let up := s.linkUp p
  match cs.findSome? fun c => (s.chan c).ctl.head?.map fun m => (c, m) with
  | some (c, m) => if up ∨ (s.port p).state = .quarantined then s.sendCtl p c m else s
  | none =>
    if !up then s
    else
      let replayed := cs.findSome? fun c => match (s.chan c).again with
        | f :: _ => if (s.chan c).busyTo ≤ s.now ∧ s.gateAdmits p (typeClass f.frame.typ) f.bytes.length = true then some (c, f) else none
        | [] => none
      match replayed with
      | some (c, f) =>
        (s.modChan c fun x => { x with again := x.again.drop 1 }).sendRaw p c (typeClass f.frame.typ) f.bytes
      | none =>
        match s.eligible p 0, s.eligible p 1, s.fairest p (List.range' 2 6) none with
        | some f, _, _ => (s.sendNew p f).unhold p
        | none, some f, _ => (s.sendNew p f).unhold p
        | none, none, some f => s.sendNew p f
        | none, none, none => s.fillStream p

/-- FRAME_SELECT. -/
def execFrameSelect (port : Nat) (s : State) : Host.Outcome State Fault Refusal := finish (s.frameSelect port)

/-! ### LINK_CTRL sent for its own sake (R264, R266, R267, R270) -/

/-- Does the port send LINK_CTRL frames: UP, STANDBY or QUARANTINED (R294)? -/
def State.ctrlGoes (s : State) (p : Nat) : Bool := s.linkUp p || decide ((s.port p).state = .quarantined)

/-- ACK_TIMER: an ACK owed with nothing sent for 200 ns sends a LINK_CTRL (R264). -/
def execAckTimer (chan : Nat) (s : State) : Host.Outcome State Fault Refusal :=
  finish (if (s.chan chan).owesAck = true ∧ s.ctrlGoes (s.chanPort chan) = true then
      (s.advanceTo ((s.chan chan).sentAt + 200 * ns)).pushCtl chan (s.linkCtrl0 (s.chanPort chan))
    else s)

/-- Units freed since the latest report, of the class with the most. -/
def State.untold (s : State) (c : Nat) : Nat :=
  ([2, 3, 7].map fun k => s.creditCount c k - Tab.read creditsZero (s.chan c).told k).foldl max 0

/-- CREDIT_RETURN: 16 units freed are reported within 200 ns (R266). -/
def execCreditReturn (chan : Nat) (s : State) : Host.Outcome State Fault Refusal :=
  finish (if 16 ≤ s.untold chan ∧ s.ctrlGoes (s.chanPort chan) = true then
      s.pushCtl chan (s.linkCtrl0 (s.chanPort chan)) else s)

/-- The keepalive period of a channel (R270). -/
def State.keepPeriod (s : State) (c : Nat) : FT := if s.linkKind (s.chanPort c) = 2 then 2 * us else us

/-- KEEPALIVE_SEND (R270). -/
def execKeepaliveSend (chan : Nat) (s : State) : Host.Outcome State Fault Refusal :=
  finish (if s.ctrlGoes (s.chanPort chan) then
      (s.advanceTo ((s.chan chan).sentAt + s.keepPeriod chan)).pushCtl chan { s.linkCtrl0 (s.chanPort chan) with ka := true }
    else s)

/-- BUSY_REPLAY: the 1 µs wait of a sender that was NAKed BUSY has passed (R267); the replay goes on in
FRAME_SELECT. -/
def execBusyReplay (chan : Nat) (s : State) : Host.Outcome State Fault Refusal :=
  finish (if (s.chan chan).again = [] then s
    else (s.advanceTo (s.chan chan).busyTo).modChan chan fun x => { x with busyTo := 0 })

/-! ### Gates (R288 to R290) -/

/-- The start in ns of the next window of class `c` after position `pos` in a list: entries from `i` on, the
first of which starts at `start`. -/
def nextOpen (c pos : Nat) : List (Byte × Nat) → Nat → Bool → Option Nat
  | [], _, _ => none
  | (g, d) :: es, start, wasOpen =>
    if bit g c && !wasOpen && decide (pos < start) then some start else nextOpen c pos es (start + d) (bit g c)

/-- GATE_WINDOW_OPEN: fleet time reaches the next opening of a class's window, and a frame that waited for it is
eligible from here on (R288). -/
def execGateWindowOpen (port cls : Nat) (s : State) : Host.Outcome State Fault Refusal :=
  finish (
    let g := (s.port port).gates
    if bit (s.portReg port 0) 2 = true ∧ g.entries ≠ [] then
      let cyc := gateCycle g
      let from' := max s.now (s.port port).gateFrom
      let k := (from' - g.base) / ns / cyc
      let pos := (from' - g.base) / ns % cyc
      match nextOpen cls pos (g.entries ++ g.entries) 0 true with
      | some t => s.advanceTo (g.base + (k * cyc + t) * ns)
      | none => s
    else s)

/-- Word `i` of the list being written (GDATA with LIST 1). -/
def gdataReset (_ : Nat) : Word := 0xFF000000

/-- The written list, `n` entries. -/
def writtenList (x : LinkPort) (n : Nat) : List (Byte × Nat) :=
  (List.range n).map fun i =>
    let w := Tab.read gdataReset x.written i
    (BitVec.ofNat 8 (fld w 24 8), fld w 0 24)

/-- The longest window of a class, in ns: none where it never closes. -/
def longestWindow (es : List (Byte × Nat)) (c : Nat) : Option Nat :=
  if es.all fun e => bit e.1 c then none
  else some (((List.range es.length).map fun i => openSpan es c (es.length + 1) i 0).foldl max 0)

/-- GATE_SET (R289, R290, R297). One that comes while an earlier one waits takes its place, and the earlier ends LATE. -/
def gateSet (c : CmdIn) (s : State) : State :=
  let p := argFld c s 0 0 8
  let n := argFld c s 0 8 7
  let t := argFT c s 1
  let es := writtenList (s.port p) n
  let closed (k : Nat) := es.all fun e => !bit e.1 k
  if s.portCount ≤ p ∨ n = 0 ∨ 64 < n then s.failCmd c 1
  else if (es.any fun e => decide (e.2 = 0) || decide (1000000 < e.2)) = true ∨ 1000000 < (es.map (·.2)).sum then s.failCmd c 1
  else if ((List.range 4).any closed) = true then s.done c stBadArg 4
  else if (List.range 8).any fun k => !closed k && (match longestWindow es k with
      | some w => decide (w * 1000 < s.frameTime p 1056)
      | none => false) then s.done c stBadArg 3
  else if t < s.now + 10 * us then s.failCmd c 2
  else
    let s := match (s.port p).gatePage with
      | some (pkg, n) => s.complete pkg n stError 2
      | none => s
    (s.modPort p fun x => { x with nextGates := some { entries := es, base := t }, gatePage := some (c.pkg, c.page.toNat) }).waitFor c
      (.time t)

def execGateSet (c : CmdIn) (s : State) : Host.Outcome State Fault Refusal :=
  finish (runCmd c 0x38 0x0002 .firmware true (gateSet c) s)

/-- The pending list becomes active (R289). -/
def State.gateSwitch (s : State) (p : Nat) : State :=
  let x := s.port p
  match x.nextGates with
  | some g =>
    let s := s.modPort p fun x => { x with gates := g, nextGates := none, gateNo := x.gateNo + 1, gatePage := none }
    match x.gatePage with
    | some (pkg, n) => s.complete pkg n stOk 0
    | none => s
  | none => s

/-- GATE_SWITCH: T has come. -/
def execGateSwitch (port : Nat) (s : State) : Host.Outcome State Fault Refusal :=
  finish (match (s.port port).nextGates with
    | some g => (s.advanceTo g.base).gateSwitch port
    | none => s)

/-- A step of fleet time (R289): lists passed over take effect, and cycles restart at the first boundary after. -/
def State.gatesStep (s : State) : State :=
  (List.range s.portCount).foldl (fun s p =>
    let s := match (s.port p).nextGates with
      | some g => if g.base ≤ s.now then s.gateSwitch p else s
      | none => s
    let g := (s.port p).gates
    if g.entries = [] then s
    else
      let c := gateCycle g * ns
      let from' := if s.now < g.base then g.base else g.base + ((s.now - g.base) / c + 1) * c
      s.modPort p fun x => { x with gateFrom := from' }) s

/-! ### Commands and counters (R284, R286, R297) -/

/-- At each slow tick: C0 and C1 tokens, and every policing bucket (R284, R286). -/
def State.linkTick (s : State) : State :=
  (List.range s.portCount).foldl (fun s p =>
    let cap (k : Nat) : Word := s.portReg p (0x14 + 4 * k)
    let x := s.port p
    let refill (t : Tab Nat) (k : Nat) : Tab Nat :=
      Tab.modify tokensReset t k fun v => min (fld (cap k) 0 16) (v + fld (cap k) 16 16)
    let police := [4, 5, 6].foldl (fun t cls =>
      let w := s.portReg p (0x1C + 4 * (cls - 4))
      (List.range (Tab.read noSources x.sources 0).length).foldl (fun t i =>
        Tab.modify natZero t (cls * 1024 + i) fun v => min (fld w 0 16) (v + fld w 16 16)) t) x.police
    s.modPort p fun x => { x with tokens := refill (refill x.tokens 0) 1, police }) s

/-- Clear the counters of a port (R295, R297). -/
def State.clearPort (s : State) (p : Nat) : State :=
  (List.range 9).foldl (fun s i => s.setReg (s.portPage p) (s.portOff p (0x2C + 4 * i)) 0) s

/-- LINK_STATS_CLEAR (R297). -/
def execLinkStatsClear (c : CmdIn) (s : State) : Host.Outcome State Fault Refusal :=
  finish (runCmd c 0x38 0x0005 .operator true
    (fun s =>
      let p := argFld c s 0 0 8
      if p = 0xFF then ((List.range s.portCount).foldl State.clearPort s).ok c
      else if s.portCount ≤ p then s.failCmd c 1
      else (s.clearPort p).ok c) s)

/-! ### Proxy responses (R268) -/

/-- PROXY_RSP: it completes the request that holds its tag; one whose tag is not outstanding is a malformed
frame. -/
def execProxyRsp (port : Nat) (tag : BitVec 16) (rsp : BitVec 8) (data : Word) (s : State) :
    Host.Outcome State Fault Refusal :=
  finish (match Tab.read noProxy s.links.proxies tag.toNat with
    | some t =>
      if t.dead then s.violate (.link port) 1 (leBytes 4 rsp.toNat ++ leBytes 4 data.toNat) true
      else
        let code : Resp := if rsp = 0 then .ok else if rsp = 1 then .retry else if rsp = 2 then .error else .denied
        (s.modLinks fun l => { l with proxies := Tab.write noProxy l.proxies tag.toNat none }).proxyAnswer t code data
    | none => s.violate (.link port) 1 (leBytes 4 rsp.toNat ++ leBytes 4 data.toNat) true)

/-- PROXY_TIMEOUT: no response after 1 ms is answered ERROR, and the tag is withheld for 1 ms more; then it is free
again (R268). -/
def execProxyTimeout (tag : Nat) (s : State) : Host.Outcome State Fault Refusal :=
  finish (match Tab.read noProxy s.links.proxies tag with
    | some t =>
      if t.dead then
        (s.advanceTo (t.sent + 2 * ms)).modLinks fun l => { l with proxies := Tab.write noProxy l.proxies tag none }
      else ((s.advanceTo (t.sent + ms)).modLinks fun l => { l with
          proxies := Tab.write noProxy l.proxies tag (some { t with dead := true }) }).proxyAnswer t .error 0
    | none => s)

end Sys2Proof.Machine
end

