-- ==== Sys2Proof/Machine/Sinter.lean ====
section
/-!
DEFINITION. The Sinter codec (R304 to R317): frame messages into and out of blocks, and the streams in host
memory.
-/
namespace Sys2Proof.Machine

def szPage : Nat := pg 0x39
def State.modSinter (s : State) (f : Sinter → Sinter) : State := { s with sinter := f s.sinter }

/-- A snuffed node starts no further block (R315). -/
def State.szStopped (s : State) : Bool := decide (s.snuff.state = .cut)

/-- Bytes in the compressor's queue (ENC_Q) and in the decompressor's (DEC_Q). -/
def State.encBytes (s : State) : Nat := (s.sinter.enc.map fun w => w.rest.length).sum
def State.decBytes (s : State) : Nat := (s.sinter.dec.map fun w => w.payload.length).sum

/-- Advance a 64-bit count of the page, which saturates. -/
def State.szCount (s : State) (off n : Nat) : State :=
  s.setRegWide szPage off 2 (min (s.regWide szPage off 2 + n) (2 ^ 64 - 1))

/-- The counts of one block written (R316), and the injected body bit (PAGE_INJ kind 0x10). -/
def State.szWrote (s : State) (inN : Nat) (block : List Byte) (raw : Bool) : List Byte × State :=
  let s := ((s.szCount 0x50 inN).szCount 0x58 block.length).bump szPage 0x60 1
  let s := if raw then s.bump szPage 0x64 1 else s
  let inj := s.injTake szPage 0x10
  (if inj.1 then modNth 4 (· ^^^ 1) block else block, inj.2)

/-- A rejected block (R305): `cls` is the frame's class or 0xFF, `src` its originator or the block's index. -/
def State.szReject (s : State) (cause cls src : Nat) (box : List Byte) : State :=
  ((s.bump szPage 0x6C 1).setErr szPage 16).setReg szPage 0x70 (word (cause * 2 ^ 24 + cls * 2 ^ 16 + src))
    |>.log 0x39 0 0x0001 3 (cls * 2 ^ 24 + src) cause (padTo 20 (slice box 0 4 ++ (box.drop 4).take (min 16 (leAt box 2 2 % 2 ^ 13))))

/-! ### Messages into frames (R306 to R308) -/

/-- KX_SINTER_CFG enables a class. -/
def State.szEnabled (s : State) (cls : Nat) : Bool :=
  decide (5 ≤ cls) && decide (cls ≤ 7) && bit (s.reg szPage 0x40) cls

/-- A message enters its port's queues: through the compressor where its class is enabled at its originator, or
framed as it is when the compressor's queue is full (R306, R308). -/
def State.frameMsg (s : State) (p : Nat) (m : Msg) : State :=
  if s.szEnabled (typeClass m.typ) && m.src.isNone && !m.sz && decide (m.payload ≠ []) then
    if 16384 < s.encBytes + m.payload.length then ((s.bump szPage 0x68 1).setErr szPage 17).enqueueMsg p m
    else s.modSinter fun x => { x with enc := x.enc ++ [{ port := p, msg := m, rest := m.payload, blocks := [] }] }
  else s.enqueueMsg p m

/-- FRAME_ENQUEUE: the oldest message for a port that its queue can take; a source that finds the C0 or C1 queue
full waits (R284, R285, R287, R308). -/
def execFrameEnqueue (port : Nat) (s : State) : Host.Outcome State Fault Refusal :=
  finish (
    let fits (e : Nat × Msg) : Bool :=
      decide (e.1 = port) && (decide (2 ≤ typeClass e.2.typ) ||
        s.controlRoom port (typeClass e.2.typ) (s.msgBytes port e.2))
    match s.mbox.find? fits with
    | some e => { s with mbox := s.mbox.erase e } |>.frameMsg port e.2
    | none => s)

/-- The blocks of a whole message become its fragments, all with SZ; more than 16 of them send it uncompressed
(R306). -/
def State.szEmit (s : State) (w : EncWork) : State :=
  let n := w.blocks.length
  if 16 < n then s.enqueueMsg w.port w.msg
  else
    (s.chansFor w.port w.msg).foldl (fun s c =>
      (List.range n).foldl (fun s i =>
        s.enqueue w.port
          { typ := w.msg.typ, sz := true, more := decide (i + 1 < n), frag := i, src := w.msg.src.getD s.node,
            dst := destNode w.msg.dest, hops := w.msg.hops, tag := w.msg.tag, payload := (w.blocks[i]?).getD [], chan := c,
            ftag := 0, came := w.msg.came }) s) s

/-! ### SINTER_PACK (R310, R311) -/

/-- Issue a transfer of a command page. -/
def State.cmdXfer (s : State) (pkg : Bool) (page : Nat) (wr : Bool) (addr len : Nat) (data : List Byte) : State :=
  let id := s.pages.nextXfer
  (s.startXfer (.command pkg page) wr addr len data).waitPage pkg page (.transfer id)

def endPack (x : Sinter) : Sinter := { x with pack := none }

/-- Read the input of the next block, or write the index when all are written. -/
def State.packNext (s : State) (j : PackJob) : State :=
  let n := ceilDiv j.total j.blkIn
  if j.next < n then
    let k := min j.blkIn (j.total - j.next * j.blkIn)
    (s.modSinter fun x => { x with pack := some j }).cmdXfer j.pkg j.page false (j.inAt + j.next * j.blkIn) k []
  else
    (s.modSinter fun x => { x with pack := some { j with phase := 1 } }).cmdXfer j.pkg j.page true (j.outAt + 32) (4 * n)
      (j.offs.flatMap fun o => leBytes 4 o)

/-- The stream header (R310). -/
def szHeader (total blkIn : Nat) (offs : List Nat) : List Byte :=
  let ix := offs.flatMap fun o => leBytes 4 o
  let h := leBytes 4 0x5A53584B ++ [1, 0] ++ leBytes 2 blkIn ++ leBytes 4 total ++ leBytes 4 offs.length ++ zeros 8 ++
    leBytes 4 (crc32c ix).toNat
  h ++ leBytes 4 (crc32c h).toNat

/-- A block, the index or the header of a SINTER_PACK has been written: what comes next. -/
def State.packWritten (s : State) (j : PackJob) : State :=
    match j.phase with
    | 0 => s.packNext j
    | 1 =>
      (s.modSinter fun x => { x with pack := some { j with phase := 2 } }).cmdXfer j.pkg j.page true j.outAt 32
        (szHeader j.total j.blkIn j.offs)
    | _ =>
      let s := ((s.setRes j.pkg j.page 0 j.pos).setRes j.pkg j.page 1 j.offs.length).setRes j.pkg j.page 2 j.raws
      (s.modSinter endPack).complete j.pkg j.page stOk 0

/-- A transfer of a SINTER_PACK has completed: an input block has been read, or a block, the index or the header
has been written. In a Snuff the command stays as it is until the clear (R315). -/
def State.packLoaded (s : State) (data : List Byte) (wr failed : Bool) : State :=
  match s.sinter.pack with
  | none => s
  | some j =>
    if failed then (s.modSinter endPack).complete j.pkg j.page stError szHostErr
    else if !wr then
      (s.modSinter fun x => { x with pack := some { j with buf := some data } }).waitPage j.pkg j.page (.event 9 0)
    else if s.szStopped then
      (s.modSinter fun x => { x with pack := some { j with stop := true } }).waitPage j.pkg j.page (.event 9 0)
    else s.packWritten j

/-- A SINTER_PACK that a Snuff has stopped goes on (R315). -/
def State.packResume (s : State) : State :=
  match s.sinter.pack with
  | some j => if j.stop then s.packWritten { j with stop := false } else s
  | none => s

/-- The compressor forms the next block of a SINTER_PACK; one that would exceed the capacity ends it FULL. -/
def State.packBlock (s : State) (j : PackJob) (data : List Byte) : State :=
  let r := szEncodeBlock data
  let w := s.szWrote data.length r.1 r.2
  if j.cap < j.pos + r.1.length then (w.2.modSinter endPack).complete j.pkg j.page stError 0x10
  else
    let j' := { j with next := j.next + 1, pos := j.pos + r.1.length, offs := j.offs ++ [j.pos],
                       raws := j.raws + (if r.2 then 1 else 0), buf := none }
    (w.2.modSinter fun x => { x with pack := some j' }).cmdXfer j.pkg j.page true (j.outAt + j.pos) w.1.length w.1

/-- SINTER_PACK (R311, R317). -/
def execSinterPack (c : CmdIn) (s : State) : Host.Outcome State Fault Refusal :=
  finish (runCmd c 0x38 0x0100 .operator true
    (fun s =>
      let total := (argW c s 2).toNat
      let b := argFld c s 6 0 13
      let n := ceilDiv total b
      let cap := (argW c s 5).toNat
      if total = 0 ∨ b = 0 ∨ 4096 < b then s.badArg c
      else if s.resourceTaken c 0 s.sinter.pack.isSome then s.waitFor c (.event 39 0)
      else if cap < 32 + 4 * n then s.failCmd c 0x10
      else s.packNext
        { pkg := c.pkg, page := c.page.toNat, inAt := arg64 c s 0, total, outAt := arg64 c s 3, cap, blkIn := b, next := 0,
          pos := 32 + 4 * n, offs := [], raws := 0, buf := none, phase := 0 }) s)

/-- SINTER_ENCODE_BLOCK: the compressor completes one block, of a frame message first and else of a command
(R304, R307, R314). -/
def execSinterEncodeBlock (s : State) : Host.Outcome State Fault Refusal :=
  finish (
    if s.szStopped then s
    else match s.sinter.enc with
    | w :: rest =>
      let r := szFrameBlock w.rest
      let b := s.szWrote r.2.1 r.1 r.2.2
      let w' := { w with rest := w.rest.drop r.2.1, blocks := w.blocks ++ [b.1] }
      if w'.rest = [] then (b.2.modSinter fun x => { x with enc := rest }).szEmit w'
      else b.2.modSinter fun x => { x with enc := w' :: rest }
    | [] =>
      match s.sinter.pack with
      | some j => match j.buf with
        | some d => s.packBlock j d
        | none => s
      | none => s)

/-! ### SINTER_UNPACK (R312) -/

def endUnpack (x : Sinter) : Sinter := { x with unpack := none }

/-- Complete a SINTER_UNPACK with its results. -/
def State.unpackEnd (s : State) (j : UnpackJob) (st : Byte) (detail : Nat) : State :=
  let r (s : State) (k v : Nat) := s.setRes j.pkg j.page k v
  ((r (r (r (r s 0 j.wrote) 1 j.good) 2 j.bad) 3 j.badAt).modSinter endUnpack).complete j.pkg j.page st detail

/-- Read the next block, or end. -/
def State.unpackNext (s : State) (j : UnpackJob) : State :=
  if j.next < j.first + j.count then
    let o := (j.offs[j.next]?).getD 0
    let e := (j.offs[j.next + 1]?).getD j.len
    if e ≤ o then
      (s.modSinter fun x => { x with unpack := some { j with buf := some [] } }).waitPage j.pkg j.page (.event 9 1)
    else (s.modSinter fun x => { x with unpack := some j }).cmdXfer j.pkg j.page false (j.inAt + o) (min (e - o) 4104) []
  else if j.bad = 0 then s.unpackEnd j stOk 0 else s.unpackEnd j stError 0x11

/-- A transfer of a SINTER_UNPACK has completed: the header, the index, a block read, or a block written. -/
def State.unpackLoaded (s : State) (data : List Byte) (wr failed : Bool) : State :=
  match s.sinter.unpack with
  | none => s
  | some j =>
    let bad : State := (s.szReject szBadStream 0xFF 0 data).unpackEnd j stError szBadStream
    if failed then
      if wr then
        let k := j.next - 1
        let size := min j.blkIn (j.total - k * j.blkIn)
        (s.szReject szHostErr 0xFF (k % 65536) []).unpackNext
          { j with wrote := j.wrote - size, good := j.good - 1, bad := j.bad + 1, badAt := if j.bad = 0 then k else j.badAt }
      else if j.phase = 2 then
        (s.szReject szHostErr 0xFF (j.next % 65536) []).unpackNext
          { j with next := j.next + 1, bad := j.bad + 1, badAt := if j.bad = 0 then j.next else j.badAt }
      else (s.szReject szHostErr 0xFF 0 []).unpackEnd j stError szHostErr
    else if wr then s.unpackNext j
    else match j.phase with
    | 0 =>
      let total := leAt data 8 4
      let b := leAt data 6 2
      let n := leAt data 12 4
      if leAt data 0 4 ≠ 0x5A53584B ∨ leAt data 4 1 ≠ 1 ∨ leAt data 28 4 ≠ (crc32c (data.take 28)).toNat ∨ total = 0 ∨
          b = 0 ∨ 4096 < b ∨ n ≠ ceilDiv total b ∨ j.len < 32 + 4 * n then bad
      else
        let count := if j.count = 0 then n - j.first else j.count
        let j := { j with total, blkIn := b, nblk := n, count, chk := leAt data 24 4, phase := 1 }
        (s.modSinter fun x => { x with unpack := some j }).cmdXfer j.pkg j.page false (j.inAt + 32) (4 * n) []
    | 1 =>
      if j.chk ≠ (crc32c data).toNat then bad
      else if j.nblk ≤ j.first ∨ j.nblk < j.first + j.count then s.unpackEnd j stBadArg 0
      else s.unpackNext { j with offs := (List.range j.nblk).map (fun i => leAt data (4 * i) 4), next := j.first, phase := 2 }
    | _ => (s.modSinter fun x => { x with unpack := some { j with buf := some data } }).waitPage j.pkg j.page (.event 9 1)

/-- The decompressor decodes the block in hand: a rejected block writes nothing (R312). -/
def State.unpackBlock (s : State) (j : UnpackJob) (box : List Byte) : State :=
  let k := j.next
  let j' := { j with next := k + 1, buf := none }
  match szDecodeBlock box with
  | .ok d =>
    (s.modSinter fun x => { x with unpack := some { j' with wrote := j.wrote + d.length, good := j.good + 1 } }).cmdXfer
      j.pkg j.page true (j.outAt + (k - j.first) * j.blkIn) d.length d
  | .error e =>
    (s.szReject e 0xFF (k % 65536) box).unpackNext { j' with bad := j.bad + 1, badAt := if j.bad = 0 then k else j.badAt }

/-- SINTER_UNPACK (R312, R317). -/
def execSinterUnpack (c : CmdIn) (s : State) : Host.Outcome State Fault Refusal :=
  finish (runCmd c 0x38 0x0101 .operator true
    (fun s =>
      if s.resourceTaken c 1 s.sinter.unpack.isSome then s.waitFor c (.event 39 1)
      else if (argW c s 2).toNat < 32 then s.failCmd c szBadStream
      else
        let j : UnpackJob :=
          { pkg := c.pkg, page := c.page.toNat, inAt := arg64 c s 0, len := (argW c s 2).toNat, outAt := arg64 c s 3,
            first := (argW c s 5).toNat, count := (argW c s 6).toNat, blkIn := 0, total := 0, nblk := 0, chk := 0, offs := [],
            next := 0, buf := none, wrote := 0, good := 0, bad := 0, badAt := 0, phase := 0 }
        (s.modSinter fun x => { x with unpack := some j }).cmdXfer c.pkg c.page.toNat false j.inAt 32 []) s)

/-! ### Frames into messages (R309) -/

/-- Take a decoded fragment into its message, or discard the message whole (R309). -/
def State.szGather (s : State) (w : DecWork) (data : Option (List Byte)) : State :=
  let put (s : State) (r : Option Reasm) : State :=
    s.modChan w.chan fun x => { x with reasm := Tab.write noReasm x.reasm (w.cls + 16) r }
  let fresh : Reasm := { typ := w.typ, src := w.src, tag := w.tag, next := 0, data := [] }
  let old := Tab.read noReasm (s.chan w.chan).reasm (w.cls + 16)
  let s := if w.frag = 0 ∧ old.isSome = true then s.violate (.link w.port) 1 [] true else s
  let r := if w.frag = 0 then fresh else old.getD fresh
  if r.next ≠ w.frag ∨ r.typ ≠ w.typ ∨ r.src ≠ w.src ∨ r.tag ≠ w.tag then (put s none).violate (.link w.port) 1 [] true
  else
    let r' : Reasm := match data with
      | some d => { r with next := r.next + 1, data := if r.bad then [] else r.data ++ d }
      | none => { r with next := r.next + 1, data := [], bad := true }
    if w.more then put s (some r')
    else if r'.bad = false ∧ relayedUp w.typ = true ∧ s.hasParent = true then
      (s.route .up).foldl (fun s q => s.forward w.port q
        { typ := w.typ, tag := w.tag, dest := .up, payload := r'.data, src := some w.src }) (put s none)
    else put s none

/-- SINTER_DECODE_BLOCK: the decompressor completes one block, of a frame first and else of a command; a C7
frame's units are freed with it (R305, R309, R314). -/
def execSinterDecodeBlock (s : State) : Host.Outcome State Fault Refusal :=
  finish (
    if s.szStopped then s
    else match s.sinter.dec with
    | w :: rest =>
      let s := s.modSinter fun x => { x with dec := rest }
      let s := if w.cls = 7 then s.modChan w.chan fun x => { x with
          freed := Tab.modify natZero x.freed 7 (· + w.units) } else s
      match szDecodeBlock w.payload with
      | .ok d => s.szGather w (some d)
      | .error e =>
        ((s.szReject e w.cls w.src.toNat w.payload).violate (.link w.port) 1 (w.payload.take 16) true).szGather w none
    | [] =>
      match s.sinter.unpack with
      | some j => match j.buf with
        | some d => s.unpackBlock j d
        | none => s
      | none => s)

/-- Either half is at work (R315: no DOZE entry meanwhile). -/
def State.szBusy (s : State) : Bool :=
  decide (s.sinter.enc ≠ []) || decide (s.sinter.dec ≠ []) || s.sinter.pack.isSome || s.sinter.unpack.isSome

end Sys2Proof.Machine
end

