-- ==== Sys2Proof/Machine/Svc.lean ====
section
/-!
DEFINITION. The service processors: notices, the broadcast tree, jobs, step windows and stragglers (R318 to
R335, R344 to R348).
-/
namespace Sys2Proof.Machine

def svcPage : Nat := pg 0x40
def State.modSvc (s : State) (f : Svc → Svc) : State := { s with svc := f s.svc }
def State.svcErr (s : State) (b : Nat) : State := s.setErr svcPage b

def errBcastFull : Nat := 16
def errTableFull : Nat := 17
def errLiveness : Nat := 18
def errDrift : Nat := 19
def errStraggler : Nat := 20
def errContested : Nat := 21
def errNotArmed : Nat := 22

/-- DETAIL codes of class 0x40 (R350). -/
def svLate : Nat := 0x01
def svNotAll : Nat := 0x02
def svCancelled : Nat := 0x03
def svNoJob : Nat := 0x04
def svNotRuntime : Nat := 0x05
def svTableFull : Nat := 0x06
def svBusy : Nat := 0x07
def svStepped : Nat := 0x20
def svEvtFull : Nat := 0x21

/-! ### Notices (R347, R348) -/

/-- A 64-byte notice: PARAM of 8 bytes, BODY of 28, CHK. -/
def noticeBytes (kind : Nat) (job origin subject : BitVec 16) (seq : BitVec 32) (when' : FT) (flags : Nat)
    (param body : List Byte) : List Byte :=
  let b := [1, BitVec.ofNat 8 kind] ++ leBytes 2 job.toNat ++ leBytes 2 origin.toNat ++ leBytes 2 subject.toNat ++
    leBytes 4 seq.toNat ++ leBytes 10 (truncFT when') ++ leBytes 2 flags ++ padTo 8 param ++ padTo 28 body
  b ++ leBytes 4 (crc32c b).toNat

/-- Write a record into this node's service ring; a full ring drops it (R348). -/
def State.svcRing (s : State) (bytes : List Byte) : State :=
  if s.ringRoom serviceRing bytes.length then s.ringPut serviceRing bytes else s.bump svcPage 0x6C 1

/-- Bring a notice to a recipient: into the ring here, or as a NOTICE frame. -/
def State.noticeTo (s : State) (bytes : List Byte) (n : BitVec 16) : State :=
  if n = s.node then s.svcRing bytes else s.sendTyp 0x33 (.node n) bytes

/-- The operator ring's node (R348): the pod primary with CFG.UP, else this node. -/
def State.operatorNode (s : State) : BitVec 16 :=
  if bit (s.reg svcPage 0x40) 0 then nodeOf 3 0 0 0 else s.node

/-- Send one notice to every recipient; it takes one SEQ. -/
def State.notice (s : State) (kind : Nat) (job subject : BitVec 16) (when' : FT) (flags : Nat) (param body : List Byte)
    (dests : List (BitVec 16)) : State :=
  let b := noticeBytes kind job s.node subject s.svc.noticeSeq when' flags param body
  dests.eraseDups.foldl (fun s n => s.noticeTo b n) (s.modSvc fun x => { x with noticeSeq := x.noticeSeq + 1 })

/-! ### The job table (R318) -/

def noJobEntry (_ : Nat) : Option JobEntry := none
def State.jobSlots (s : State) : Nat := if s.isSystem then 64 else 16

/-- The listed entries with their places. -/
def State.jobs (s : State) : List (Nat × JobEntry) := s.svc.jobs.filterMap fun e => e.2.map fun j => (e.1, j)

def State.jobOf (s : State) (job : BitVec 16) : Option (Nat × JobEntry) :=
  s.jobs.find? fun e => decide (e.2.job = job)

def State.setJob (s : State) (i : Nat) (j : Option JobEntry) : State :=
  (s.modSvc fun x => { x with jobs := Tab.write noJobEntry x.jobs i j }).touchItem 0x07

def State.modJob (s : State) (job : BitVec 16) (f : JobEntry → JobEntry) : State :=
  match s.jobOf job with
  | some (i, j) => s.setJob i (some (f j))
  | none => s

/-- The lowest free place. -/
def State.jobFree (s : State) : Option Nat :=
  (List.range s.jobSlots).find? fun i => (Tab.read noJobEntry s.svc.jobs i).isNone

/-- Has the job an armed or running entry here? -/
def State.jobBusy (s : State) (job : BitVec 16) : Bool :=
  match s.jobOf job with
  | some (_, j) => decide (j.state = .armed) || decide (j.state = .running)
  | none => false

/-- PAGE_STAT: START_PEND and ROOT (R349). -/
def State.svcStat (s : State) : State :=
  (s.setStat svcPage 17 (s.jobs.any fun e => decide (e.2.state = .armed))).setStat svcPage 16
    (s.jobs.any fun e => e.2.root)

/-- This die hub is a member of the job: a probe is bound to it (R319). -/
def State.isMember (s : State) (job : BitVec 16) : Bool :=
  s.isDie && decide (job ≠ 0) && (List.range s.samp.units).any fun p => decide ((s.probe p).job = job)

/-- The ARGS of a JOB_START (R321 gives no layout): QP and RATIO, STEP_WAIT, LO_EXP. -/
def startArgs (qpRatio stepWait loExp : Nat) : List Byte :=
  padTo 32 (leBytes 4 qpRatio ++ leBytes 4 stepWait ++ leBytes 1 loExp)

/-- The entry a JOB_START makes. -/
def jobEntry (b : Bcast) (root member : Bool) : JobEntry :=
  let nz (v d : Nat) : Nat := if v = 0 then d else v
  { root, state := .armed, member, job := b.job, runtime := b.runtime, rootNode := b.origin, seq := b.seq,
    qp := BitVec.ofNat 16 (nz (leAt b.args 0 2) 0xFD71), ratio := BitVec.ofNat 16 (nz (leAt b.args 2 2) 0x0180),
    loExp := BitVec.ofNat 6 (min 62 (leAt b.args 8 1 % 64)), stepWait := BitVec.ofNat 32 (nz (leAt b.args 4 4) 100000), t := b.t,
    waves := b.waves, lastStep := 0, lastQ := 0, armedAtT := 0, stragglers := 0, stepGap := 0, mark := b.t,
    markNo := none, snuffed := false, kids := [], done := [], lates := [] }

/-- Put the entry in the table: in the place of an idle entry of the job, or in the lowest free one. -/
def State.putJob (s : State) (j : JobEntry) : Option State :=
  match s.jobOf j.job, s.jobFree with
  | some (i, _), _ => some (s.setJob i (some j)).svcStat
  | none, some i => some (s.setJob i (some j)).svcStat
  | none, none => none

/-- The entry, its windows, its assertions and its pending start go (R328, R335). -/
def State.dropJob (s : State) (job : BitVec 16) : State :=
  let s := match s.jobOf job with
    | some (i, _) => s.setJob i none
    | none => s
  ((s.modSvc fun x => { x with
      wins := x.wins.filter fun w => decide (w.job ≠ job)
      claims := x.claims.filter fun a => decide (a.job ≠ job)
      runtimes := Tab.write (fun _ => none) x.runtimes job.toNat none }).evtDrop .jobStart job.toNat).svcStat

/-! ### Watched nodes (R336 to R339) -/

/-- A die hub that is not its package's head: the other such die hubs are its second parents. -/
def State.isMate (s : State) : Bool := s.isDie && !s.isHead

/-- The nodes this node watches, by child number; 64 is the twin (R336, R337). A member watches the other members, whose
second parent it is. -/
def State.watchList (s : State) : List Nat :=
  if s.isSystem then (if s.straps.cascade then s.links.trays else List.range 32) ++ [64]
  else (List.range 8).filter fun d => decide (d ≠ s.straps.dieIdx.toNat) && decide (s.pkg.head.map (·.toNat) ≠ some d)

def State.watchNode (s : State) (w : Nat) : BitVec 16 :=
  let twin := if s.straps.twinSel then 0 else 1
  if s.isSystem then
    if w = 64 then nodeOf (if s.straps.cascade then 3 else 2) s.links.tray 0 twin
    else if s.straps.cascade then nodeOf 2 w 0 0 else nodeOf 1 s.links.tray w 0
  else nodeOf 0 s.links.tray s.links.down w

/-- The ports that lead to a watched node. -/
def State.watchPorts (s : State) (w : Nat) : List Nat :=
  if s.isSystem then
    if w = 64 then [34]
    else if s.straps.cascade then
      ((s.links.peers.filter fun e => e.2.valid && decide (e.2.node.toNat / 2 ^ 14 = 2) &&
        decide (e.2.node.toNat / 2 ^ 8 % 64 = w)).map fun e => 32 + e.2.port.toNat).eraseDups
    else [w]
  else [s.diePort w]

def State.watchUp (s : State) (w : Nat) : Bool := (s.watchPorts w).any s.portUp
def State.watch (s : State) (w : Nat) : Watch := Tab.read Watch.reset s.svc.watch w
def State.modWatch (s : State) (w : Nat) (f : Watch → Watch) : State :=
  s.modSvc fun x => { x with watch := Tab.modify Watch.reset x.watch w f }

/-- The detector's level of a die hub, as far as this node knows it. -/
def State.dieLevel (s : State) (n : BitVec 16) : Level :=
  if n.toNat / 2 ^ 14 ≠ 0 then .ok
  else if s.isSystem then
    if s.straps.cascade then .ok else Tab.read levelAbsent s.svc.dies (fld n 0 8)
  else if n.toNat / 8 = s.node.toNat / 8 ∧ fld n 0 3 ∈ s.watchList then (s.watch (fld n 0 3)).level else .ok

/-- A die that any job's assertion, or that of one job, marks CONTESTED; one that is EXCLUDED from a job (R343). -/
def State.contestedAny (s : State) (n : BitVec 16) : Bool :=
  s.svc.claims.any fun a => a.contested && decide (a.target = n)
def State.contestedIn (s : State) (job n : BitVec 16) : Bool :=
  s.svc.claims.any fun a => a.contested && decide (a.target = n) && decide (a.job = job)
def State.excludedIn (s : State) (job n : BitVec 16) : Bool :=
  s.svc.claims.any fun a => a.excluded && decide (a.target = n) && decide (a.job = job)

/-- A child that is DEAD and not CONTESTED leaves the expected sets (R325, R331, R339). -/
def State.childGone (s : State) (job : BitVec 16) (w : Nat) : Bool :=
  decide ((s.watch w).level = .dead) && !s.contestedIn job (s.watchNode w)

/-! ### The broadcast tree (R321 to R326) -/

def bcastBytes (b : Bcast) : List Byte :=
  leBytes 4 b.seq.toNat ++ leBytes 2 b.origin.toNat ++ [b.kind, (if b.immediate then 1 else 0) + (if b.waves then 2 else 0)] ++
  leBytes 2 b.job.toNat ++ leBytes 2 b.guard.toNat ++ leBytes 10 b.t ++ leBytes 2 b.runtime.toNat ++ padTo 32 b.args ++ zeros 8

/-- Put a message on one port. -/
def State.sendOn (s : State) (p : Nat) (typ : Byte) (dest : Dest) (payload : List Byte) : State :=
  { s with mbox := s.mbox ++ [(p, { typ, tag := 0, dest, payload })] }

/-- Is a node in the scope of a Snuff (R464): 0 DIE, 1 PACKAGE, 2 TRAY, 3 POD? -/
def nodeInScope (scope : Nat) (init n : BitVec 16) : Bool :=
  let kind := n.toNat / 2 ^ 14
  match scope with
  | 0 => decide (n = init)
  | 1 => decide (kind < 2) && decide (fld n 8 6 = fld init 8 6) && decide (fld n 3 5 = fld init 3 5)
  | 2 => decide (kind ≠ 3) && decide (fld n 8 6 = fld init 8 6)
  | _ => true

/-- The node behind a port, as far as its place says: TRAY and DOWN (R253, R258). -/
def State.partner (s : State) (p : Nat) : BitVec 16 :=
  if s.isSystem then
    if s.straps.cascade then (if p = 34 then nodeOf 3 s.links.tray 0 0 else (s.port p).peer)
    else if p < 32 then nodeOf 0 s.links.tray p 0
    else if p = 34 then nodeOf 2 s.links.tray 0 0 else nodeOf 3 0 0 0
  else if p < 7 then nodeOf 0 s.links.tray s.links.down (s.portDie p)
  else nodeOf 2 s.links.tray 0 0

/-- The partner of a port lies in the scope. -/
def State.portInScope (s : State) (scope : Nat) (init : BitVec 16) (p : Nat) : Bool := nodeInScope scope init (s.partner p)

/-- The child and sibling ports (R322). -/
def State.treePorts (s : State) : List Nat :=
  if s.isSystem then (if s.straps.cascade then [32, 33, 35, 34] else List.range 32 ++ [34]) else List.range 7

/-- The ports a broadcast is forwarded to: those that are UP, but not the one it came from. -/
def State.forwardPorts (s : State) (came : Option Nat) (b : Bcast) : List Nat :=
  s.treePorts.filter fun p => s.portUp p && decide (some p ≠ came) &&
    (decide (b.kind ≠ 8) || s.portInScope (leAt b.args 1 1) (BitVec.ofNat 16 (leAt b.args 2 2)) p)

def State.sendBcast (s : State) (b : Bcast) (p : Nat) : State :=
  s.sendOn p 0x04 (if s.isSystem && decide (p ≠ 34) then .down else .port p) (bcastBytes b)

/-- The children whose ports are UP (R325): dies of a head, downlinks, or trays. -/
def State.upChildren (s : State) : List Nat :=
  if s.isMate then [] else (s.watchList.filter fun w => decide (w ≠ 64)).filter s.watchUp

/-- The pair that identifies a broadcast (R323). -/
def bcastKey (b : Bcast) : BitVec 16 × BitVec 32 := (b.origin, b.seq)

def State.bcastKnown (s : State) (k : BitVec 16 × BitVec 32) : Bool :=
  (s.svc.pend.any fun e => decide (bcastKey e.b = k)) || s.svc.past.any fun e => decide (e = k)

def State.pendOf (s : State) (k : BitVec 16 × BitVec 32) : Option PendBcast :=
  s.svc.pend.find? fun e => decide (bcastKey e.b = k)

def State.modPend (s : State) (k : BitVec 16 × BitVec 32) (f : PendBcast → PendBcast) : State :=
  s.modSvc fun x => { x with pend := x.pend.map fun e => if bcastKey e.b = k then f e else e }

/-- Forward a broadcast; an injection (kind 0x11) delays it by 20 µs (R322, R349). -/
def State.bcastForward (s : State) (b : Bcast) (ports : List Nat) : State :=
  if ports = [] then s
  else
    let i := s.injTake svcPage 0x11
    if i.1 then i.2.modSvc fun x => { x with delayed := x.delayed ++ [(s.now + 20 * us, ports, b)] }
    else ports.foldl (fun s p => s.sendBcast b p) i.2

/-- Delayed broadcasts whose time has come leave. -/
def State.bcastDelayed (s : State) : State :=
  let due := s.svc.delayed.filter fun d => decide (d.1 ≤ s.now)
  due.foldl (fun s d => d.2.1.foldl (fun s p => s.sendBcast d.2.2 p) s)
    (s.modSvc fun x => { x with delayed := x.delayed.filter fun d => decide (s.now < d.1) })

/-- What acting on a broadcast gives: the state and this node's own counts, with the reason of a refusal. -/
structure Acted where
  s      : State
  own    : AckCounts
  reason : Nat

/-- A node takes a broadcast: the first receipt acts and forwards, a duplicate is counted (R322, R323). -/
def State.bcastTake (s : State) (came : Option Nat) (b : Bcast) (act : State → Bcast → Acted) : State :=
  if s.bcastKnown (bcastKey b) then s.bumpFld svcPage 0x50 16 8 1
  else
    let ports := s.forwardPorts came b
    let expect := s.upChildren.filter fun w => (s.watchPorts w).any fun p => decide (p ∈ ports)
    let full := decide (32 ≤ s.svc.pend.length)
    let s := if full then (s.svcErr errBcastFull).modSvc fun x => { x with past := (bcastKey b :: x.past).take 256 }
      else s.modSvc fun x => { x with pend := x.pend ++
        [{ b, leaves := (if b.immediate then s.now else b.t) + ms, own := AckCounts.zero 0, expect, acks := [],
           reason := 0, first := 0, sent := none }] }
    let a := act s b
    (a.s.modPend (bcastKey b) fun e => { e with
        own := a.own, reason := BitVec.ofNat 8 a.reason, first := if a.reason = 0 then 0 else s.node })
      |>.bcastForward b ports

/-- Originate a broadcast: SEQ counts up within the page's incarnation (R321). -/
def State.bcastNew (s : State) (kind : Nat) (immediate waves : Bool) (job guard : Nat) (t : FT) (runtime : Nat)
    (args : List Byte) : Bcast × State :=
  let seq : BitVec 32 := (s.hdr svcPage).incarn ++ s.svc.count
  ({ seq, origin := s.node, kind := BitVec.ofNat 8 kind, immediate, waves, job := BitVec.ofNat 16 job,
     guard := BitVec.ofNat 16 (max 1 guard), t, runtime := BitVec.ofNat 16 runtime, args := padTo 32 args },
   s.modSvc fun x => { x with count := x.count + 1 })

/-- Add counts. -/
def ackAdd (a b : AckCounts) : AckCounts :=
  { armed := a.armed + b.armed, notArmed := a.notArmed + b.notArmed, notMember := a.notMember + b.notMember,
    missing := a.missing + b.missing }

def ackSize (a : AckCounts) : Nat := a.armed + a.notArmed + a.notMember

/-- The number an acknowledgement of a child twin, or of this node's own twin (1000), stands under. -/
def State.ackKey (s : State) (n : BitVec 16) : Nat :=
  if s.isSystem ∧ n.toNat / 2 ^ 14 = (if s.straps.cascade then 3 else 2) then 1000
  else 2 * s.childOf n + if s.isSystem && s.straps.cascade then fld n 0 1 else 0

def noAck (_ : Nat) : Option AckCounts := none

/-- A child's counts: of a twin pair, those with the larger sum (R325). -/
def childAck (e : PendBcast) (w : Nat) : Option AckCounts :=
  match Tab.read noAck e.acks (2 * w), Tab.read noAck e.acks (2 * w + 1) with
  | some a, some b => if ackSize a < ackSize b then some b else some a
  | some a, none => some a
  | none, b => b

/-- The cumulative counts of a node's subtree (R325). The twin's counts stand for the same subtree. -/
def State.ackCounts (s : State) (e : PendBcast) : AckCounts :=
  let kids := if s.isMate then [] else ((e.acks.map fun a => a.1 / 2).filter fun w => decide (w < 500)).eraseDups
  let sum := kids.foldl (fun r w => match childAck e w with
    | some a => ackAdd r a
    | none => r) e.own
  let silent := e.expect.filter fun w => (childAck e w).isNone && !s.childGone e.b.job w
  let own := { sum with missing := sum.missing + silent.length }
  match Tab.read noAck e.acks 1000 with
  | some t => if ackSize own < ackSize t then t else own
  | none => own

/-- The counts of a broadcast, if it stands in the pending table. -/
def State.countsOf (s : State) (k : BitVec 16 × BitVec 32) : AckCounts :=
  match s.pendOf k with
  | some e => s.ackCounts e
  | none => AckCounts.zero 0

/-- The parents an acknowledgement, a step partial or a heartbeat goes to: the head and the other members of a member, the
tray twins of a head, the pod twins of a tray, and of a pod its twin. -/
def State.parentDests (s : State) : Dest :=
  if s.isSystem && s.straps.cascade then .peer else if s.isMate then .package else .upBoth

/-- End the commands that wait on a broadcast of this node: RES_0 is the number of nodes that refused or are silent. -/
def State.endBcast (s : State) (w : Wait) (count : Nat) (st : Byte) (detail : Nat) : State :=
  (s.waiters fun x => decide (x = w)).foldl (fun s p => (s.setRes p.1 p.2 0 count).complete p.1 p.2 st detail) s

/-- Complete commands that wait for their broadcast's subtree: JOB_END, RUNTIME_SET, JOB_LIVENESS at the root (event 11);
SET_EPOCH once every die has acknowledged and the ORIGIN has taken effect here, or LATE (event 28, R99); TIME_RELOCK with
SUBTREE once this timekeeper has stepped (event 29, R243). -/
def State.bcastDone (s : State) : State :=
  s.svc.pend.foldl (fun s e =>
    let n := s.ackCounts e
    let q := e.b.seq.toNat
    if e.b.origin = s.node ∧ n.missing = 0 then
      let s := (s.waiters fun w => decide (w = .event 11 q)).foldl (fun s p => s.complete p.1 p.2 stOk 0) s
      let s := if 0 < n.notArmed then s.endBcast (.event 28 q) n.notArmed stError 0x01
        else if s.samp.grid.pend.isSome then s
        else s.endBcast (.event 28 q) 0 stOk 0
      if 0 < n.notArmed then s.endBcast (.event 29 q) n.notArmed stError 0x03 else s.endBcast (.event 29 q) 0 stOk 0
    else s) s

/-! ### Starting and ending a job (R324, R327, R328) -/

/-- A NOT_ARMED notice to the runtime (R324, R327). -/
def State.notArmed (s : State) (job runtime : BitVec 16) (reason : Nat) (t : FT) : State :=
  (s.svcErr errNotArmed).notice 0x08 job s.node s.ft 0 [BitVec.ofNat 8 reason] (ftBytes t) [runtime]

/-- A JOB_START reaches a node (R324). -/
def State.jobArm (s : State) (b : Bcast) (root : Bool) : Acted :=
  let s := if s.isDie then
      s.modSvc fun x => { x with
        runtimes := Tab.write (fun _ => none) x.runtimes b.job.toNat (if b.runtime = s.node then some b.origin else none) }
    else s
  let j := jobEntry b root (s.isMember b.job)
  if s.isMember b.job then
    let guard := b.guard.toNat * us
    let reason : Nat :=
      if b.t ≤ s.now + guard then 1
      else if 32 ≤ s.time.evts.length then 2
      else if (s.putJob j).isNone then 3
      else if s.jobBusy b.job then 4 else 0
    if reason = 0 then
      let s := (s.putJob j).getD s
      { s := (s.evtAdd .jobStart b.t b.job.toNat).getD s, own := { AckCounts.zero 0 with armed := 1 }, reason := 0 }
    else
      let s := s.bumpFld svcPage 0x50 8 8 1
      let s := if reason = 3 then s.svcErr errTableFull else s
      let s := s.decided 3 (leBytes 2 b.job.toNat ++ leBytes 2 b.guard.toNat ++ ftBytes b.t) reason
      { s := (s.notArmed b.job b.runtime reason b.t).log 0x40 0 0x0001 5 b.job.toNat reason (ftBytes b.t),
        own := { AckCounts.zero 0 with notArmed := 1 }, reason }
  else
    let own := if s.isDie then { AckCounts.zero 0 with notMember := 1 } else AckCounts.zero 0
    if root then
      let s := (s.putJob j).getD s
      { s := (s.evtAdd .jobStart b.t b.job.toNat).getD s, own, reason := 0 }
    else { s, own, reason := 0 }

/-- Results of JOB_START (R327). -/
def State.startResults (s : State) (p : Bool × Nat) (j : JobEntry) : State :=
  let c := s.countsOf (j.rootNode, j.seq)
  ((((s.setRes p.1 p.2 0 c.armed).setRes p.1 p.2 1 c.notArmed).setRes p.1 p.2 2 c.notMember).setRes p.1 p.2 3 c.missing)
    |>.setRes p.1 p.2 4 j.seq.toNat

/-- Complete the JOB_START of a job that waits at this node. -/
def State.startEnd (s : State) (j : JobEntry) (st : Byte) (detail : Nat) : State :=
  (s.waiters fun w => decide (w = .event 10 j.job.toNat)).foldl
    (fun s p => (s.startResults p j).complete p.1 p.2 st detail) s

/-- A Snuff (5) or a forward step (6) prevents a release (R26, R244, R327). -/
def State.startFail (s : State) (job : BitVec 16) (reason : Nat) : State :=
  match s.jobOf job with
  | some (i, j) =>
    if j.state = .armed then
      let s := (s.evtDrop .jobStart job.toNat).startEnd j (if reason = 5 then stSnuffed else stError)
        (if reason = 5 then 0 else svStepped)
      let s := if j.member then s.notArmed job j.runtime reason j.t else s
      (s.setJob i (some { j with state := .idle })).svcStat
    else s
  | none => s

/-- The release at T (R327): the entry runs, the step clock starts, STARTED is written, the origin's command
completes. Waves are the host power controller's. -/
def State.jobRelease (s : State) (job : BitVec 16) : State :=
  match s.jobOf job with
  | some (i, j) =>
    if j.state = .armed then
      let snuffed := s.snuffedBy j.t
      let s := s.advanceTo j.t
      if snuffed then s.startFail job 5
      else
        let c := s.countsOf (j.rootNode, j.seq)
        let s := (s.setJob i (some { j with
            state := .running, armedAtT := BitVec.ofNat 16 c.armed, mark := j.t, markNo := none, snuffed := false })).evtDrop .jobStart job.toNat |>.svcStat
        let s := if j.member then s.notice 0x0B job s.node j.t 0 [] (ftBytes j.t) [s.node] else s
        if c.notArmed = 0 ∧ c.missing = 0 then s.startEnd j stOk 0 else s.startEnd j stError svNotAll
    else s
  | none => s

/-- A JOB_END reaches a node (R328). -/
def State.jobEndHere (s : State) (job : BitVec 16) : State :=
  let s : State := match s.jobOf job with
    | some (_, j) => if j.state = .armed then s.startEnd j stError svCancelled else s
    | none => s
  s.dropJob job

/-- A RUNTIME broadcast reaches a node (R344). -/
def State.runtimeHere (s : State) (b : Bcast) : State :=
  let n : BitVec 16 := BitVec.ofNat 16 (leAt b.args 0 2)
  let s := s.modJob b.job fun j => { j with runtime := n }
  let r := if n = s.node then some b.origin else none
  s.modSvc fun x => { x with runtimes := Tab.write (fun _ => none) x.runtimes b.job.toNat r }

/-! ### Step windows (R329 to R333) -/

/-- 16-bit counts that saturate (R330). -/
def stepHist (a b : Tab Nat) : Tab Nat := b.foldl (fun r e => Tab.modify natZero r e.1 fun n => min (n + e.2) 65535) a

/-- The children of a job that a node waits for; this die's own element stands under its own number (R331). -/
def State.stepExpect (s : State) (j : JobEntry) : List Nat :=
  let own := if j.member then [s.straps.dieIdx.toNat] else []
  let mine := own.filter fun _ => !s.excludedIn j.job s.node
  mine ++ ((j.kids.filter fun e => decide (0 < e.2)).map (·.1)).filter fun w =>
    !s.childGone j.job w && !s.excludedIn j.job (s.watchNode w)

/-- The die hubs that the children who are still to contribute are expected to hold (EXPECT). -/
def State.stepDies (s : State) (j : JobEntry) (got : List Nat) : Nat :=
  (((s.stepExpect j).filter fun w => decide (w ∉ got)).map fun w =>
    if s.isDie then 1
    else Tab.read natZero j.kids w -
      (s.svc.claims.filter fun a => a.excluded && decide (a.job = j.job) && decide (s.childOf a.target = w)).length).sum

def stepPartBytes (p : StepPart) (origin : BitVec 16) (seq : BitVec 32) (when' : FT) : List Byte :=
  let b := [1, 2] ++ leBytes 2 p.job.toNat ++ leBytes 2 origin.toNat ++ leBytes 2 origin.toNat ++ leBytes 4 seq.toNat ++
    leBytes 10 (truncFT when') ++ leBytes 2 ((if p.stale then 1 else 0) + if p.late then 2 else 0) ++
    leBytes 4 p.step.toNat ++ leBytes 2 p.dies ++ leBytes 2 p.expect ++ leBytes 2 p.under ++ leBytes 2 p.above ++
    (List.range 256).flatMap (fun i => leBytes 2 (Tab.read natZero p.c i)) ++ leBytes 4 p.pairs.length ++
    padTo 64 (p.pairs.flatMap fun x => leBytes 4 x.1.toNat ++ leBytes 4 x.2)
  b ++ leBytes 4 (crc32c b).toNat

/-- A step partial travels to both parents (R331, R348). -/
def State.sendStep (s : State) (p : StepPart) : State :=
  (s.sendTyp 0x33 s.parentDests (stepPartBytes p s.node s.svc.noticeSeq s.ft)).modSvc fun x => { x with noticeSeq := x.noticeSeq + 1 }

/-- The die hub that an ELEM_ID names (R126, R258). -/
def State.elemDie (s : State) (id : Nat) : BitVec 16 :=
  let w := word id
  if s.isSystem then nodeOf 0 (if s.straps.cascade then fld w 22 6 else s.links.tray) (fld w 17 5) (fld w 14 3)
  else nodeOf 0 s.links.tray s.links.down (fld w 14 3)

/-- The straggler test (R333). -/
def straggler (v q ratio : Nat) : Bool := decide (q * ratio % 2 ^ 64 ≤ v * 256 % 2 ^ 64)

/-- Test pairs in order and send a notice for each that passes; `more` says that the last one carries MORE. -/
def State.stepTest (s : State) (job : BitVec 16) (step q sub flags : Nat) (more : Bool) : List (Int × Nat) → State
  | [] => s
  | (v, id) :: rest =>
    match s.jobOf job with
    | none => s
    | some (i, j) =>
      let s :=
        if straggler v.toNat q j.ratio.toNat then
          let fl := flags + if more && decide (rest = []) then 4 else 0
          let s := s.decided 1 (leBytes 4 v.toNat ++ leBytes 8 q ++ leBytes 2 j.ratio.toNat) 1
          ((s.setJob i (some { j with stragglers := BitVec.ofNat 16 (satAdd 16 j.stragglers.toNat 1) })).svcErr errStraggler).notice
            0x01 job (s.elemDie id) s.ft fl (leBytes 4 step ++ [BitVec.ofNat 8 sub])
            (leBytes 4 v.toNat ++ leBytes 8 q ++ leBytes 2 j.ratio.toNat ++ leBytes 2 (id % 2 ^ 14)) [j.runtime]
        else s
      s.stepTest job step q sub flags more rest

/-- The root tests LATE pairs against the quantile already found, each pair once (R332, R333). -/
def State.stepLate (s : State) (job : BitVec 16) (step : BitVec 32) (q : Nat) (pairs : List (Int × Nat)) : State :=
  match s.jobOf job with
  | none => s
  | some (i, j) =>
    let fresh := pairs.filter fun p => !(j.lates.any fun e => decide (e = (step.toNat, p.2)))
    (s.setJob i (some { j with lates := j.lates ++ fresh.map fun p => (step.toNat, p.2) })).stepTest job step.toNat q 2 2 false fresh

/-- Emit a step window (R331, R333): the root tests its pairs, another node sends it to both parents. -/
def State.stepEmit (s : State) (w : StepWin) : State :=
  match s.jobOf w.job with
  | none => s
  | some (i, j) =>
    let s := (s.modSvc fun x => { x with wins := x.wins.filter fun v => !(decide (v.job = w.job) && decide (v.step = w.step)) }).touchItem 0x06
    let missing := (s.stepExpect j).filter fun k => decide (k ∉ w.got)
    if j.root then
      let q := (histQuantile w.under w.above w.c j.qp.toNat j.loExp.toNat).v.toNat
      let s := s.setJob i (some { j with
          lastStep := w.step, lastQ := BitVec.ofNat 32 (min q (2 ^ 32 - 1)), done := Tab.write (fun _ => none) j.done w.step.toNat (some (q, w.got)) })
      let stale := if w.stale then 1 else 0
      let eight := decide (w.pairs.length = 8) && ((w.pairs[7]?).map fun p => straggler p.1.toNat q j.ratio.toNat).getD false
      let s := s.stepTest w.job w.step.toNat q 0 stale eight w.pairs
      let s := if w.stale then
          missing.foldl (fun s k =>
            ((s.decided 1 (leBytes 4 0 ++ leBytes 8 q ++ leBytes 2 j.ratio.toNat) 1).modJob w.job fun j => { j with
                stragglers := BitVec.ofNat 16 (satAdd 16 j.stragglers.toNat 1) }).svcErr errStraggler
              |>.notice 0x01 w.job (if s.isDie && decide (k = s.straps.dieIdx.toNat) then s.node else s.watchNode k) s.ft 1
                (leBytes 4 w.step.toNat ++ [1]) (zeros 4 ++ leBytes 8 q ++ leBytes 2 j.ratio.toNat) [j.runtime]) s
        else s
      s.stepLate w.job w.step q w.late
    else
      (s.setJob i (some { j with lastStep := w.step, done := Tab.write (fun _ => none) j.done w.step.toNat (some (0, w.got)) })).sendStep
        { job := w.job, step := w.step, dies := w.dies, expect := w.expect + s.stepDies j w.got, under := w.under, above := w.above, c := w.c,
          pairs := w.pairs, stale := w.stale, late := false }

/-- Emit the window if its expected set has contributed. -/
def State.stepTry (s : State) (job : BitVec 16) (step : BitVec 32) : State :=
  match s.jobOf job, s.svc.wins.find? fun w => decide (w.job = job) && decide (w.step = step) with
  | some (_, j), some w => if (s.stepExpect j).all fun k => decide (k ∈ w.got) then s.stepEmit w else s
  | _, _ => s

/-- Every open window is tried again: an expected set has become smaller (R335). -/
def State.stepRetry (s : State) : State := s.svc.wins.foldl (fun s w => s.stepTry w.job w.step) s

/-- A contribution from child `k` enters the window (R330, R331): each child once. -/
def State.stepAdd (s : State) (k : Nat) (p : StepPart) : State :=
  let here (w : StepWin) : Bool := decide (w.job = p.job) && decide (w.step = p.step)
  let w0 : StepWin := (s.svc.wins.find? here).getD
    { job := p.job, step := p.step, under := 0, above := 0, c := [], pairs := [], dies := 0, expect := 0, got := [], since := s.now,
      stale := false, late := [] }
  if k ∈ w0.got then s
  else
    let w := { w0 with
      under := min (w0.under + p.under) 65535, above := min (w0.above + p.above) 65535, c := stepHist w0.c p.c, pairs := topkMerge 8 false w0.pairs p.pairs, dies := w0.dies + p.dies, expect := w0.expect + p.expect, got := w0.got ++ [k] }
    ((s.modSvc fun x => { x with wins := (x.wins.filter fun v => !here v) ++ [w] }).touchItem 0x06).stepTry p.job p.step

/-- Fill in the identifiers of a child's pairs on ingest (R126). -/
def State.stepFill (s : State) (k : Nat) (pairs : List (Int × Nat)) : List (Int × Nat) :=
  let f (lo len : Nat) := pairs.map fun p => (p.1, (setFld (word p.2) lo len k).toNat)
  if s.isSystem then (if s.straps.cascade then f 22 6 else f 17 5) else pairs

/-- A received step partial (R331, R332): one of each child, and a copy that a twin sends of one merged is dropped. A member
merges no other member's: the head does. -/
def State.stepReceive (s : State) (src : BitVec 16) (p : StepPart) : State :=
  match s.jobOf p.job with
  | none => s
  | some (_, j) =>
    if s.isMate then s else
    let k := s.childOf src
    let p := { p with pairs := s.stepFill k p.pairs }
    if !s.isSystem && s.excludedIn p.job src then s.bumpFld svcPage 0x50 0 8 1
    else
      let done := Tab.read (fun _ => none) j.done p.step.toNat
      if p.late = false ∧ ((done.map (·.2)).getD []).contains k = true then s
      else if p.late ∨ done.isSome = true then
        if j.root then
          let s := s.bumpFld svcPage 0x50 24 8 1
          match done with
          | some q => s.stepLate p.job p.step q.1 p.pairs
          | none => s.modSvc fun x => { x with wins := x.wins.map fun w =>
              if w.job = p.job ∧ w.step = p.step then { w with late := w.late ++ p.pairs } else w }
        else s.sendStep { p with late := true }
      else s.stepAdd k p

/-- STEP_PARTIAL: a step partial from node `src`. -/
def execStepPartial (src : BitVec 16) (p : StepPart) (s : State) : Host.Outcome State Fault Refusal :=
  finish (s.stepReceive src p)

/-- STEP_WAIT_EXPIRE: the job's STEP_WAIT has passed since the first contribution (R331). -/
def execStepWaitExpire (job : BitVec 16) (step : BitVec 32) (s : State) : Host.Outcome State Fault Refusal :=
  finish (
    match s.jobOf job, s.svc.wins.find? fun w => decide (w.job = job) && decide (w.step = step) with
    | some (_, j), some w => (s.advanceTo (w.since + j.stepWait.toNat * us)).stepEmit { w with stale := true }
    | _, _ => s)

/-- The effect of STEP_MARK (R329, R330, R334, R335). -/
def stepMark (c : CmdIn) (s : State) : State :=
  let job := c.req.job
  match s.jobOf job with
  | none => s.failCmd c svNoJob
  | some (i, j) =>
    if j.state ≠ .running ∨ j.member = false then s.failCmd c svNoJob
    else
      let no := argW c s 0
      let shard := argFld c s 1 0 14
      let backup := bit (argW c s 1) 16
      let dur := min ((s.now - j.mark) / ns) (2 ^ 32 - 1)
      let next : Bool := match j.markNo with
        | none => true
        | some m => decide (no = m + 1)
      let good := next && !j.snuffed
      let gap := if backup || good then j.stepGap else BitVec.ofNat 16 (satAdd 16 j.stepGap.toNat 1)
      let s := s.setJob i (some { j with mark := s.now, markNo := some no, snuffed := false, stepGap := gap })
      let s := if backup then
          s.notice 0x09 job s.node s.ft 0 (leBytes 4 no.toNat ++ leBytes 2 shard) (leBytes 4 dur) [j.runtime]
        else
          let s := if j.snuffed then s else { s with reds := { s.reds with services := s.reds.services ++ [(0, dur)] } }
          if good then
            let h := histPlace j.loExp.toNat (dur : Int)
            s.stepAdd s.straps.dieIdx.toNat
              { job, step := no, dies := 1, expect := 1, under := if h = .under then 1 else 0, above := if h = .above then 1 else 0,
                c := match h with
                  | .bucket b => [(b, 1)]
                  | _ => []
                pairs := [((dur : Int), s.elemId 4 shard)], stale := false, late := false }
          else s
      (s.res c 0 dur).ok c

/-- STEP_MARK. -/
def execStepMark (c : CmdIn) (s : State) : Host.Outcome State Fault Refusal :=
  finish (runCmd c 0x40 0x0003 .tenant true (stepMark c) s)

/-! ### Drift and verdicts (R345, R346) -/

/-- The runtimes of the jobs of which this die hub is a member. -/
def State.runtimesHere (s : State) : List (BitVec 16) := (s.jobs.filter fun e => e.2.member).map fun e => e.2.runtime

/-- One alarm against one drift watch entry: the notice, and whether it passes to the power manager (R345). -/
def State.driftEntry (s : State) (a : RedAlarm) (i : Nat) : State × Bool :=
  let w := Tab.read ddataReset s.svc.drift i
  let last := Tab.read natZero s.svc.driftLast i
  if bit w 31 && decide (fld w 0 8 = a.slot) && !(decide (0 < last) && decide (a.window + 1 ≤ last + fld w 16 8)) then
    let dests := (if bit w 28 then [s.operatorNode] else []) ++ if bit w 29 then s.runtimesHere else []
    let s := (s.svcErr errDrift).modSvc fun x => { x with driftLast := Tab.write natZero x.driftLast i (a.window + 1) }
    let s := if dests = [] then s else
      s.notice 0x06 0 s.node s.ft 0 [BitVec.ofNat 8 (fld w 26 2), if a.up then 0 else 1, BitVec.ofNat 8 a.slot]
        (i64Bytes a.x ++ leBytes 8 a.window) dests
    (s, bit w 30 && decide (fld w 26 2 = 0))
  else (s, false)

/-- Alarms on their way to the service processors are handled (R141, R345); the answer holds those of
KIND FMAX that pass to the power manager, with their entries. -/
def State.driftAll (s : State) : State × List (Nat × RedAlarm) :=
  let l := (s.red 0).alarms ++ (s.red 1).alarms
  let s := if l = [] then s else (s.modRed 0 fun n => { n with alarms := [] }).modRed 1 fun n => { n with alarms := [] }
  if bit (s.reg svcPage 0x40) 1 then
    l.foldl (fun r a => (List.range 32).foldl (fun r i =>
      let e := r.1.driftEntry a i
      (e.1, if e.2 then r.2 ++ [(i, a)] else r.2)) r) (s, [])
  else (s, [])

/-- VACT of a verdict code. -/
def State.vact (s : State) (code : Nat) : Nat := s.regFld svcPage (0x100 + 4 * (code / 16)) (2 * (code % 16)) 2

/-- A verdict of engine `e` reaches the service processors (R346). -/
def State.svcVerdict (s : State) (e : Nat) (v : Verdict) : State :=
  let s := if Tab.read natZero s.svc.batchAt e = v.epoch + 1 then s
    else s.modSvc fun x => { x with batches := Tab.modify natZero x.batches e (· + 1), batchAt := Tab.write natZero x.batchAt e (v.epoch + 1) }
  let n := Tab.read natZero s.svc.batches e
  let k := v.entity * 256 + v.code.toNat
  let last := Tab.read natZero s.svc.predict k
  let act := s.vact v.code.toNat
  if !bit (s.reg svcPage 0x40) 2 || decide (act = 0) || bit v.flags vfStale || bit v.flags vfUnscored || bit v.flags vfDegraded then s
  else
    let s := if 0 < last ∧ n + 1 < last + 1000 then s
      else (s.modSvc fun x => { x with predict := Tab.write natZero x.predict k (n + 1) }).notice 0x07 0 s.node s.ft 0
        [v.code, v.cls, BitVec.ofNat 8 v.entity, BitVec.ofNat 8 (v.entity / 256)] (leBytes 4 (unsgn 32 v.sum))
        ([s.operatorNode] ++ if 2 ≤ act then s.runtimesHere else [])
    if act = 3 ∧ s.isDie = true then s.markSuspect v.entity else s

end Sys2Proof.Machine
end

