-- ==== Sys2Proof/Machine/SvcCmd.lean ====
section
/-!
DEFINITION. The service processors: liveness, assertions, acknowledgements of broadcasts, received notices, and
the commands of class 0x40 (R325, R326, R336 to R344, R348, R350).
-/
namespace Sys2Proof.Machine

/-! ### Levels and their effects (R338, R339, R343) -/

/-- The spare-map entry that stands for a DEAD die hub which is not CONTESTED (R339). -/
def isDeadEntry (n : BitVec 16) (e : SpareEntry) : Bool :=
  decide (e.kind = 1) && decide (e.index = 0x1FFF) && decide (e.detail = word n.toNat) && !e.released

/-- Bring the spare map in line with the levels of the dies this head watches. -/
def State.deadSync (s : State) : State :=
  if s.isDie then
    s.watchList.foldl (fun s w =>
      let n := s.watchNode w
      let want := decide ((s.watch w).level = .dead) && !s.contestedAny n
      let held := s.check.spare.any (isDeadEntry n)
      if want && !held then s.spareAdd 1 7 0x1FFF n.toNat
      else if held && !want then
        let free (e : SpareEntry) : SpareEntry := if isDeadEntry n e then { e with released := true } else e
        { s with check := { s.check with spare := s.check.spare.map free } }
      else s) s
  else s

/-- An assertion's marks against the detector's level (R343), with their records and notices as they come. -/
def State.claimMark (s : State) (a : Assertion) : State :=
  let dead := decide (s.dieLevel a.target = .dead)
  let contested := decide (a.claim = 1) && dead
  let excluded := decide (a.claim = 2)
  let tell (s : State) (code kind : Nat) : State :=
    let dest := match s.jobOf a.job with
      | some (_, j) => [j.runtime]
      | none => []
    (s.log 0x40 0 code 5 a.target.toNat a.job.toNat []).notice kind a.job a.target s.ft 0
      [BitVec.ofNat 8 (s.dieLevel a.target).code] [] dest
  let s := s.modSvc fun x => { x with claims := x.claims.map fun b =>
    if b.job = a.job ∧ b.target = a.target then { b with contested, excluded } else b }
  let s := if contested && !a.contested then (tell s 3 0x04).svcErr errContested else s
  if excluded && !a.excluded then tell s 4 0x05 else s

/-- Levels or assertions have changed: marks, spare map and expected sets follow (R335, R339, R343). -/
def State.claimSync (s : State) : State := (s.svc.claims.foldl State.claimMark s).deadSync.stepRetry

/-- A watched node's level changes (R338). -/
def State.setLevel (s : State) (w : Nat) (l : Level) : State :=
  let old := (s.watch w).level
  if old = l then s
  else
    let n := s.watchNode w
    let missed := (s.watch w).missed
    let s := (s.modWatch w fun x => { x with level := l }).log 0x40 0 0x0002 (if l = .dead then 6 else 4) n.toNat
      (l.code + 4 * old.code + 256 * missed) []
    let s := s.decided 2 (leBytes 2 n.toNat ++ [BitVec.ofNat 8 missed, BitVec.ofNat 8 old.code]) l.code
    let s := if l = .dead ∨ l = .suspect then s.svcErr errLiveness else s
    let dest := ((s.jobs.filter fun e => decide (0 < Tab.read natZero e.2.kids w)).map fun e => e.2.runtime) ++ [s.operatorNode]
    let s := s.notice 0x03 0 n s.ft 0 [BitVec.ofNat 8 l.code, BitVec.ofNat 8 old.code, BitVec.ofNat 8 missed] [] dest
    if l = .dead ∧ s.isSystem = true ∧ s.straps.cascade = false ∧ w < 32 then
      let f (_ : Nat) (v : Level) : Level := if v = .absent then .absent else .suspect
      s.modSvc fun x => { x with dies := Tab.writeAll levelAbsent f (List.range' (8 * w) 8) x.dies }
    else s

/-- The level of a watched node at a check (R338, R340). -/
def levelAt (suspectN deadN hungN recoverN : Nat) (up : Bool) (x : Watch) : Level :=
  if x.level = .dead ∧ x.heardRun < recoverN then .dead
  else if x.parked then (if up then x.level else if hungN ≤ x.downs then .dead else .suspect)
  else if (deadN ≤ x.missed ∧ up = false) ∨ hungN ≤ x.missed then .dead
  else if suspectN ≤ x.missed ∨ up = false then .suspect
  else .ok

/-- Check one watched node (R337, R338). One that was never heard, and no port to which was ever UP, is ABSENT. -/
def State.checkNode (s : State) (w : Nat) : State :=
  let x := s.watch w
  let up := s.watchUp w
  if !x.ever && !up && !(s.watchPorts w).any fun p => decide (0 < (s.port p).trains) then s
  else
    let r := s.reg svcPage 0x48
    let x' := { x with
      heard := false, missed := if x.parked then x.missed else if x.heard then 0 else satAdd 8 x.missed 1,
      heardRun := if x.heard then x.heardRun + 1 else 0, downs := if x.parked && !up then x.downs + 1 else 0 }
    let l := levelAt (fld r 8 8) (fld r 16 8) (fld r 24 8) (fld r 0 8) up x'
    let s := s.modWatch w fun _ => x'
    if x.level = l then
      s.decided 4 (leBytes 2 (s.watchNode w).toNat ++ [BitVec.ofNat 8 x'.missed, BitVec.ofNat 8 x.level.code]) l.code
    else s.setLevel w l

/-- LIVENESS_CHECK: a heartbeat close plus GRACE. None is counted between a parent's loss and the takeover (R341). -/
def execLivenessCheck (s : State) : Host.Outcome State Fault Refusal :=
  finish (
    match s.svc.checkAt with
    | [] => s
    | t :: rest =>
      let s := (s.advanceTo t).modSvc fun x => { x with checkAt := rest }
      if s.links.holding || decide (s.snuff.state = .cut) then s
      else ((s.watchList.foldl State.checkNode s).touchItem 0x04).claimSync)

/-- The watched node a heartbeat comes from. -/
def State.watchOf (s : State) (src : BitVec 16) : Nat :=
  if s.isSystem ∧ src.toNat / 2 ^ 14 = (if s.straps.cascade then 3 else 2) then 64 else s.childOf src

/-- A head's levels enter the die table of a tray aggregator (R336). -/
def State.dieTable (s : State) (down die : Nat) (levels : List (BitVec 2)) : State :=
  let lv (c : BitVec 2) : Level := if c = 0 then .ok else if c = 1 then .suspect else if c = 2 then .dead else .absent
  let f (d : Nat) (old : Level) : Level :=
    let i := d - 8 * down
    if i = die then .ok
    else match levels[if i < die then i else i - 1]? with
      | some c => lv c
      | none => old
  s.modSvc fun x => { x with dies := Tab.writeAll levelAbsent f (List.range' (8 * down) 8) x.dies }

/-- HEARTBEAT from node `src` (R337, R340). -/
def execHeartbeat (src : BitVec 16) (b : Beat) (s : State) : Host.Outcome State Fault Refusal :=
  finish (
    let w := s.watchOf src
    if w ∈ s.watchList then
      let s := s.modWatch w fun x => { x with heard := true, ever := true, parked := b.parked, downs := 0 }
      if s.isSystem ∧ s.straps.cascade = false ∧ w < 32 then (s.dieTable w (fld src 0 3) b.levels).claimSync else s
    else s)

/-! ### Sending heartbeats (R336, R340) -/

/-- Two bits for each child, four to a byte. -/
def levelBytes : Nat → List Nat → List Byte
  | 0, _ => []
  | _, [] => []
  | n + 1, l =>
    let g (i : Nat) := (l[i]?).getD 0
    BitVec.ofNat 8 (g 0 + 4 * g 1 + 16 * g 2 + 64 * g 3) :: levelBytes n (l.drop 4)

def State.beatBytes (s : State) (epoch : Nat) (parked : Bool) : List Byte :=
  let kids := s.watchList.filter fun w => decide (w ≠ 64)
  let primary := s.isSystem && (if s.straps.cascade then !s.straps.twinSel else decide (s.links.downPrimary ≠ 0))
  let fl := (if s.isHead then 1 else 0) + (if primary then 2 else 0) + if parked then 4 else 0
  leBytes 4 epoch ++ [BitVec.ofNat 8 fl, BitVec.ofNat 8 kids.length] ++ zeros 2 ++
    levelBytes 16 (kids.map fun w => (s.watch w).level.code)

/-- A heartbeat to each parent, and an aggregator's to its twin (R336). -/
def State.sendBeat (s : State) (epoch : Nat) (parked : Bool) : State :=
  let b := s.beatBytes epoch parked
  let s := s.sendTyp 0x10 s.parentDests b
  if s.isSystem && !s.straps.cascade then s.sendTyp 0x10 .peer b else s

/-- A close of number `epoch` at instant `t`: MISSED as SERVICE elements, the heartbeat, the next check. -/
def State.svcClose (s : State) (epoch : Nat) (t : FT) : State :=
  let s := { s with reds := { s.reds with services := s.reds.services ++ s.watchList.map fun w => (1, (s.watch w).missed) } }
  if epoch % max 1 (s.regFld svcPage 0x44 16 8) = 0 then
    let i := s.injTake svcPage 0x10
    let s := if i.1 then i.2 else i.2.sendBeat epoch (decide (s.snuff.state = .cut))
    s.modSvc fun x => { x with checkAt := x.checkAt ++ [t + 10 * s.regFld svcPage 0x44 0 16 * ns] }
  else s

/-! ### Assertions (R342, R343) -/

/-- Is the node on the target's path, or the target itself? -/
def State.onPath (s : State) (n : BitVec 16) : Bool :=
  if s.isSystem then s.straps.cascade || decide (fld n 8 6 = s.links.tray)
  else decide (n = s.node) || (s.isHead && decide (fld n 3 11 = fld s.node 3 11))

/-- An ASSERT broadcast reaches a node (R328, R343). -/
def State.assertHere (s : State) (b : Bcast) : State :=
  let target : BitVec 16 := BitVec.ofNat 16 (leAt b.args 0 2)
  let claim : BitVec 2 := BitVec.ofNat 2 (leAt b.args 2 1)
  let same (a : Assertion) : Bool := decide (a.job = b.job) && decide (a.target = target)
  let held := s.svc.claims.any same
  let wait := Wait.event 12 (b.job.toNat * 2 ^ 16 + target.toNat)
  let fin (s : State) (st : Byte) (d : Nat) : State :=
    (s.waiters fun w => decide (w = wait)).foldl (fun s p => s.complete p.1 p.2 st d) s
  if !s.onPath target then fin s stOk 0
  else if claim = 0 ∨ claim = 3 then
    fin (s.modSvc fun x => { x with claims := x.claims.filter fun a => !same a }).claimSync stOk 0
  else if !held ∧ 64 ≤ s.svc.claims.length then fin (s.svcErr errTableFull) stError svTableFull
  else
    let s := s.modSvc fun x => { x with claims := if held then x.claims.map fun a => if same a then { a with claim } else a
      else x.claims ++ [{ job := b.job, target, claim, contested := false, excluded := false }] }
    fin (s.claimSync.touchItem 0x04) stOk 0

/-- What a node does with a broadcast of the service kinds (R324, R328). Other kinds act in their own chapters. -/
def actSvc (s : State) (b : Bcast) : Acted :=
  let own := if s.isDie then { AckCounts.zero 0 with armed := 1 } else AckCounts.zero 0
  match b.kind.toNat with
  | 1 => s.jobArm b (decide (b.origin = s.node))
  | 2 => { s := s.jobEndHere b.job, own, reason := 0 }
  | 3 => { s := s.assertHere b, own, reason := 0 }
  | 6 => { s := s.runtimeHere b, own, reason := 0 }
  | _ => { s, own, reason := 0 }

/-- Originate a broadcast and let this node take it; the answer's number is its SEQ. -/
def State.bcastSend (s : State) (kind : Nat) (immediate waves : Bool) (job guard : Nat) (t : FT) (runtime : Nat)
    (args : List Byte) (act : State → Bcast → Acted) : Nat × State :=
  let r := s.bcastNew kind immediate waves job guard t runtime args
  (r.1.seq.toNat, r.2.bcastTake none r.1 act)

/-- The root broadcasts an assertion (R342). -/
def State.assertRoot (s : State) (job target : BitVec 16) (claim : Nat) : Nat × State :=
  s.bcastSend 3 true false job.toNat 0 0 0 (leBytes 2 target.toNat ++ leBytes 1 claim) actSvc

/-! ### Acknowledgements and repair (R325, R326) -/

/-- A child's acknowledgement of a start: it is the job's child while it has armed dies; a node above a member
keeps an entry (R324, R325). -/
def State.jobKid (s : State) (e : PendBcast) (w armed members : Nat) : State :=
  if e.b.kind = 1 then
    let s := if 0 < members ∧ (s.jobOf e.b.job).isNone = true then
        (match s.putJob { jobEntry e.b false false with state := if e.b.t ≤ s.now then .running else .armed } with
         | some s => s
         | none => s.svcErr errTableFull)
      else s
    s.modJob e.b.job fun j => { j with runtime := e.b.runtime, kids := Tab.write natZero j.kids w armed }
  else s

/-- BCAST_ACK: an acknowledgement replaces the sender's earlier one (R325). -/
def execBcastAck (a : BcastAck) (s : State) : Host.Outcome State Fault Refusal :=
  finish (
    let k := (a.origin, a.seq)
    match s.pendOf k with
    | none => s
    | some _ =>
      let c : AckCounts := { armed := a.armed.toNat, notArmed := a.notArmed.toNat, notMember := a.notMember.toNat, missing := a.missing.toNat }
      let n := s.ackKey a.sender
      let s := s.modPend k fun e => { e with
        acks := Tab.write noAck e.acks n (some c)
        reason := if e.reason = 0 then a.reason else e.reason
        first := if e.reason = 0 then a.first else e.first }
      match s.pendOf k with
      | some e =>
        let w := n / 2
        let s := if n < 1000 ∧ s.isMate = false then
            s.jobKid e w ((childAck e w).map (·.armed) |>.getD 0) ((childAck e w).map (fun a => a.armed + a.notArmed) |>.getD 0)
          else s
        s.bcastDone
      | none => s)

def ackBytes (e : PendBcast) (c : AckCounts) (node : BitVec 16) : List Byte :=
  leBytes 4 e.b.seq.toNat ++ leBytes 2 e.b.origin.toNat ++ leBytes 2 node.toNat ++ leBytes 2 c.armed ++ leBytes 2 c.notArmed ++
  leBytes 2 c.notMember ++ leBytes 2 c.missing ++ [e.reason, 0] ++ leBytes 2 e.first.toNat ++ zeros 12

/-- BCAST_ACK_SEND: the counts of a pending broadcast have changed; at most once per 1 µs, until T (R325). -/
def execBcastAckSend (origin : BitVec 16) (seq : BitVec 32) (s : State) : Host.Outcome State Fault Refusal :=
  finish (
    match s.pendOf (origin, seq) with
    | none => s
    | some e =>
      let c := s.ackCounts e
      let at' := match e.sent with
        | some (_, t) => t + us
        | none => 0
      let t := max s.now at'
      if e.b.origin = s.node ∨ e.sent.map (·.1) = some c ∨ (e.b.immediate = false ∧ e.b.t ≤ t) then s
      else ((s.advanceTo t).sendTyp 0x05 s.parentDests (ackBytes e c s.node)).modPend (origin, seq) fun e => { e with sent := some (c, t) })

/-- A RELOCK broadcast some of whose timekeepers say that they have still to step (R243). -/
def relockOpen (e : PendBcast) : Bool :=
  decide (e.b.kind = 5) && (decide (0 < e.own.missing) || e.acks.any fun a => match a.2 with
    | some c => decide (0 < c.missing)
    | none => false)

/-- PENDING_EXPIRE: a broadcast leaves the table 1 ms after T, or after its receipt (R323); a RELOCK stays while a
timekeeper it reached has still to step (R243). -/
def execPendingExpire (origin : BitVec 16) (seq : BitVec 32) (s : State) : Host.Outcome State Fault Refusal :=
  finish (
    match s.pendOf (origin, seq) with
    | none => s
    | some e =>
      if relockOpen e then s else
      let n := s.ackCounts e
      let s := (s.advanceTo e.leaves).modSvc fun x => { x with
        pend := x.pend.filter fun v => !decide (bcastKey v.b = (origin, seq))
        past := ((origin, seq) :: x.past).take 256 }
      if origin = s.node ∧ 0 < n.notArmed + n.missing then
        let s := (s.waiters fun w => decide (w = .event 30 seq.toNat)).foldl (fun s p => s.setRes p.1 p.2 0 (n.notArmed + n.missing)) s
        if n.missing = 0 then s else
        (s.endBcast (.event 28 seq.toNat) (n.notArmed + n.missing) stTimeout 0).endBcast (.event 29 seq.toNat)
          (n.notArmed + n.missing) stTimeout 0
      else s)

/-- Re-send every pending broadcast whose T has not passed to a port that has come UP (R326). -/
def State.bcastRepair (s : State) (p : Nat) : State :=
  if p ∈ s.treePorts then
    (s.svc.pend.filter fun e => decide (s.now < if e.b.immediate then e.leaves else e.b.t)).foldl (fun s e =>
      let kids := s.watchList.filter fun w => decide (w ≠ 64) && decide (p ∈ s.watchPorts w)
      (s.modPend (bcastKey e.b) fun e => { e with expect := (e.expect ++ kids).eraseDups }).sendBcast e.b p) s
  else s

/-! ### Received notices (R348) -/

/-- NOTICE: a 64-byte notice that names this node; it is written once, and an ASSERT reaches the job's root. -/
def execNotice (bytes : List Byte) (s : State) : Host.Outcome State Fault Refusal :=
  finish (
    let key := (BitVec.ofNat 16 (leAt bytes 4 2), BitVec.ofNat 32 (leAt bytes 8 4))
    if bytes.length ≠ 64 ∨ leAt bytes 0 1 ≠ 1 ∨ leAt bytes 60 4 ≠ (crc32c (bytes.take 60)).toNat ∨ key ∈ s.svc.written then s
    else
      let s := (s.modSvc fun x => { x with written := (key :: x.written).take 256 }).svcRing bytes
      let job : BitVec 16 := BitVec.ofNat 16 (leAt bytes 2 2)
      match leAt bytes 1 1, s.jobOf job with
      | 0x0A, some (_, j) =>
        if j.root = true ∧ j.runtime = key.1 then (s.assertRoot job (BitVec.ofNat 16 (leAt bytes 24 2)) (leAt bytes 26 1)).2 else s
      | _, _ => s)

/-! ### Commands of class 0x40 (R350) -/

def jobStart (c : CmdIn) (s : State) : State :=
  let job : BitVec 16 := BitVec.ofNat 16 (argFld c s 0 0 16)
  let t := argFT c s 2
  let g0 := argFld c s 5 0 16
  let guard := if g0 = 0 then s.regFld svcPage 0x4C 16 16 else g0
  if job = 0 ∨ argFld c s 1 14 2 ≠ 0 then s.badArg c
  else if t < s.now + (guard + 10) * us then s.failCmd c svLate
  else if s.jobBusy job then s.failCmd c svBusy
  else if (s.jobOf job).isNone ∧ s.jobFree.isNone then (s.svcErr errTableFull).failCmd c svTableFull
  else if 32 ≤ s.time.evts.length then s.failCmd c svEvtFull
  else
    let args := startArgs (argW c s 6).toNat (argW c s 7).toNat (argFld c s 8 0 6)
    (s.bcastSend 1 false (bit (argW c s 0) 16) job.toNat guard t (argFld c s 1 0 16) args actSvc).2.waitFor c
      (.event 10 job.toNat)

/-- JOB_START. -/
def execJobStart (c : CmdIn) (s : State) : Host.Outcome State Fault Refusal :=
  finish (runCmd c 0x40 0x0001 .operator true (jobStart c) s)

/-- JOB_END. -/
def execJobEnd (c : CmdIn) (s : State) : Host.Outcome State Fault Refusal :=
  finish (runCmd c 0x40 0x0002 .operator true
    (fun s =>
      let job : BitVec 16 := BitVec.ofNat 16 (argFld c s 0 0 16)
      if (s.jobOf job).isNone then s.failCmd c svNoJob
      else
        let r := s.bcastSend 2 true false job.toNat 0 0 0 [] actSvc
        (r.2.waitFor c (.event 11 r.1)).bcastDone) s)

def jobLiveness (c : CmdIn) (s : State) : State :=
  let job := c.req.job
  let target : BitVec 16 := BitVec.ofNat 16 (argFld c s 0 0 16)
  let claim := argFld c s 1 0 2
  match Tab.read (fun _ => none) s.svc.runtimes job.toNat with
  | none => s.done c stDenied svNotRuntime
  | some root =>
    if claim = 3 then s.badArg c
    else if root = s.node then
      if !(s.jobOf job).any fun e => e.2.root then s.failCmd c svNoJob
      else if 64 ≤ s.svc.claims.length ∧ s.svc.claims.all (fun a => !(decide (a.job = job) && decide (a.target = target))) = true ∧ claim ≠ 0 then
        (s.svcErr errTableFull).failCmd c svTableFull
      else
        let r := s.assertRoot job target claim
        (r.2.waitFor c (.event 11 r.1)).bcastDone
    else
      (s.notice 0x0A job target s.ft 0 (leBytes 2 target.toNat ++ leBytes 1 claim) [] [root]).waitFor c
        (.event 12 (job.toNat * 2 ^ 16 + target.toNat))

/-- JOB_LIVENESS. -/
def execJobLiveness (c : CmdIn) (s : State) : Host.Outcome State Fault Refusal :=
  finish (runCmd c 0x40 0x0004 .tenant s.isDie (jobLiveness c) s)

/-- RUNTIME_SET. -/
def execRuntimeSet (c : CmdIn) (s : State) : Host.Outcome State Fault Refusal :=
  finish (runCmd c 0x40 0x0005 .operator true
    (fun s =>
      let job : BitVec 16 := BitVec.ofNat 16 (argFld c s 0 0 16)
      if !(s.jobOf job).any fun e => e.2.root then s.failCmd c svNoJob
      else if argFld c s 1 14 2 ≠ 0 then s.badArg c
      else
        let r := s.bcastSend 6 true false job.toNat 0 0 0 (leBytes 2 (argFld c s 1 0 16)) actSvc
        (r.2.waitFor c (.event 11 r.1)).bcastDone) s)

/-! ### Resets (R350) -/

/-- MISSED counts and open step windows do not survive a warm reset. -/
def State.svcWarm (s : State) : State :=
  s.modSvc fun x => { x with count := 0, wins := [], watch := x.watch.map (fun e => (e.1, { e.2 with missed := 0 })) |>.filter fun e => decide (e.2 ≠ Watch.reset e.1) }

/-- A Snuff cuts the node: the steps in progress span it (R335). -/
def State.svcSnuff (s : State) : State :=
  s.modSvc fun x => { x with jobs := x.jobs.map fun e => (e.1, e.2.map fun j => { j with snuffed := true }) }

end Sys2Proof.Machine
end

