-- ==== Sys2Proof/Machine/Hpwr.lean ====
section
/-!
DEFINITION. The power manager: change sets and their handshakes, droop, the last lines, power estimates and
decisions (R351 to R377, R381, R383).
-/
namespace Sys2Proof.Machine

def hpPage : Nat := pg 0x48
def State.modHp (s : State) (f : Hpwr → Hpwr) : State := { s with hpwr := f s.hpwr }
def State.hpErr (s : State) (b : Nat) : State := s.setErr hpPage b

def errCapUnmet : Nat := 16
def errVfault : Nat := 17
def errDroop : Nat := 18
def errTrip : Nat := 19
def errAlert : Nat := 20
def errThermal : Nat := 21
def errFmaxFloor : Nat := 22
def errRampLong : Nat := 23
def errPointBad : Nat := 24
def errLlClamp : Nat := 25
def errInterlock : Nat := 26

/-- Names of the signals of R354 in the block's outputs. -/
def sigFcReq : Nat := 0
def sigFcGo : Nat := 1
def sigStretch : Nat := 2
def sigVidReq : Nat := 3
def sigVout : Nat := 4
def sigTripN : Nat := 5
def sigWaveGo : Nat := 6
def sigClearFaults : Nat := 7

/-! ### Cores, rails, points (R351, R352) -/

def State.core (s : State) (c : Nat) : PwrCore := Tab.read PwrCore.reset s.hpwr.cores c
def State.modCore (s : State) (c : Nat) (f : PwrCore → PwrCore) : State :=
  s.modHp fun x => { x with cores := Tab.modify PwrCore.reset x.cores c f }
def State.rail (s : State) (r : Nat) : PwrRail := Tab.read PwrRail.reset s.hpwr.rails r
def State.modRail (s : State) (r : Nat) (f : PwrRail → PwrRail) : State :=
  s.modHp fun x => { x with rails := Tab.modify PwrRail.reset x.rails r f }
def State.droop (s : State) (r : Nat) : Droop := Tab.read Droop.reset s.hpwr.droops r
def State.modDroop (s : State) (r : Nat) (f : Droop → Droop) : State :=
  s.modHp fun x => { x with droops := Tab.modify Droop.reset x.droops r f }

/-- Counts of COUNT (R382). -/
def State.nCores (s : State) : Nat := s.regFld hpPage 0x40 24 8
def State.nRails (s : State) : Nat := s.regFld hpPage 0x40 16 8

def coreFirst (c : Nat) : Nat := fld (Config.coreMap0 c) 19 13
def coreUnits (c : Nat) : List Nat := List.range' (coreFirst c) (fld (Config.coreMap0 c) 5 14)
def coreGroup (c : Nat) : Nat := fld (Config.coreMap1 c) 30 2
def coreRail (c : Nat) : Nat := fld (Config.coreMap1 c) 27 3
def coreRegion (c : Nat) : Nat := fld (Config.coreMap1 c) 23 4

def State.coresOf (s : State) (p : Nat → Bool) : List Nat := (List.range s.nCores).filter p
def State.railCores (s : State) (r : Nat) : List Nat := s.coresOf fun c => decide (coreRail c = r)

/-- The core of a unit. -/
def State.unitCore (s : State) (u : Nat) : Option Nat := (List.range s.nCores).find? fun c => decide (u ∈ coreUnits c)

def State.fReq (s : State) (c : Nat) : Nat := fld (s.core c).f 16 16
def State.fBoost (s : State) (c : Nat) : Nat := fld (s.core c).lim 16 16
def State.fMin (s : State) (c : Nat) : Nat := fld (s.core c).lim 0 16
def State.fFix (s : State) (c : Nat) : Nat := fld (s.core c).fix 16 16
def State.fFloor (s : State) (c : Nat) : Nat := fld (s.core c).fix 0 16
def State.fmax (s : State) (c p : Nat) : Nat := Tab.read natZero (s.core c).fmax p
def State.pointMv (s : State) (p : Nat) : Nat := s.hpwr.points.getD p 0

/-- Round down to a multiple of FSTEP; 0 stores 1 (R352, R382). -/
def State.stepDown (s : State) (f : Nat) : Nat :=
  let st := max 1 (s.regFld hpPage 0x54 8 8)
  f / st * st

/-- The lowest point at which a frequency is within FMAX, else point 7. -/
def State.pointFor (s : State) (c f : Nat) : Nat := ((List.range 8).find? fun p => decide (f ≤ s.fmax c p)).getD 7

/-- A region is held from its detection until its hold has ended (R372). -/
def State.regionHeld (s : State) (r : Nat) : Bool := (s.droop r).on || (s.droop r).hold.isSome

/-- A rail feeds a held region. -/
def State.railHeld (s : State) (r : Nat) : Bool := (s.railCores r).any fun c => s.regionHeld (coreRegion c)

/-- PAGE_STAT: CHANGING and FORCED. -/
def State.hpStat (s : State) : State :=
  (s.setStat hpPage 17 s.hpwr.running.isSome).setStat hpPage 16 s.hpwr.forced

/-! ### Running a change set (R358 to R360, R372, R373) -/

/-- What a step of a set has to do. -/
def State.stepTodo (s : State) (t : ChangeSet) (n : Nat) : List Nat :=
  let loaded := s.coresOf fun c => (s.core c).loaded.isSome
  match n with
  | 1 => (t.freqs.filter fun e => t.forced || decide (e.2 < (s.core e.1).now)).map (·.1)
  | 2 => if loaded = [] then [] else [0]
  | 3 => (t.points.filter fun e => decide (e.2 < (s.rail e.1).now)).map (·.1)
  | 4 => (t.points.filter fun e => decide ((s.rail e.1).now < e.2)).map (·.1)
  | 5 => if t.forced then [] else (t.freqs.filter fun e => decide ((s.core e.1).now < e.2)).map (·.1)
  | 6 => if loaded = [] then [] else [0]
  | _ => []

def lookup (l : List (Nat × Nat)) (k : Nat) : Nat := ((l.find? fun e => decide (e.1 = k)).map (·.2)).getD 0

def State.setRunning (s : State) (r : Option Running) : State := (s.modHp fun x => { x with running := r }).hpStat

/-- An interlock stops a request: it is not issued, and the change is replanned at the next decision (R358). -/
def State.interlock (s : State) : State := (s.hpErr errInterlock).setRunning none

/-- Ask a rail for a point: a VID handshake or a PMBus write (R355, R356). A lower point counts as acknowledged for
interlock 1 from now on (R358). -/
def State.askRail (s : State) (t : Running) (r p : Nat) : State :=
  let mv := s.pointMv p
  let s := s.modRail r fun x => { x with tgt := p, ack := min x.ack p }
  let s := if bit (s.rail r).cfg 31 then s.emit (.power sigVout r mv) else s.emit (.power sigVidReq r ((mv - 250) / 5))
  s.setRunning (some { t with todo := t.todo.drop 1, doing := .rail r p })

/-- One decision of the sequencer: issue the next handshake, skip, go to the next step, or wait for a hold to end. The
second answer says whether there is more to do at once. -/
def State.hpTry (s : State) (t : Running) : State × Bool :=
  let skip : State × Bool := (s.setRunning (some { t with todo := t.todo.drop 1 }), true)
  match t.todo with
  | [] =>
    if 6 ≤ t.step then
      match s.hpwr.held with
      | some n => ((s.modHp fun x => { x with held := none }).setRunning
          (some { set := n, step := 1, todo := s.stepTodo n 1, doing := .none, abort := false }), true)
      | none => (s.setRunning none, false)
    else (s.setRunning (some { t with step := t.step + 1, todo := s.stepTodo t.set (t.step + 1) }), true)
  | x :: _ =>
    match t.step with
    | 1 | 5 =>
      if !t.set.forced && s.regionHeld (coreRegion x) then (s, false)
      else if t.step = 5 ∧ (s.rail (coreRail x)).vfault = true then skip
      else
        let f := lookup t.set.freqs x
        ((s.emit (.power sigFcReq x f)).setRunning (some { t with todo := t.todo.drop 1, doing := .fc x f }), false)
    | 2 | 6 =>
      let loaded := s.coresOf fun c => (s.core c).loaded.isSome
      if loaded.any fun c => decide (s.fmax c (s.rail (coreRail c)).ack < (s.core c).loaded.getD 0) then (s.interlock, false)
      else match if t.set.forced then none else loaded.find? fun c => s.regionHeld (coreRegion c) with
        | some c =>
          if s.hpwr.goHeld then (s, false)
          else ((s.modHp fun y => { y with goHeld := true }).log 0x48 0 0x0005 3 (coreRegion c) 1 [], false)
        | none =>
          ((s.modHp fun y => { y with goHeld := false }).emit (.power sigFcGo 0 1)
            |>.setRunning (some { t with todo := t.todo.drop 1, doing := .go }), false)
    | 3 =>
      let p := lookup t.set.points x
      if (s.rail x).vfault then skip
      else if !t.set.forced && s.railHeld x then (s, false)
      else if (s.railCores x).any fun c => decide (s.fmax c p < max (s.core c).now ((s.core c).loaded.getD 0)) then
        (if t.set.forced then ((s.hpErr errInterlock).setRunning (some { t with todo := t.todo.drop 1 }), true) else (s.interlock, false))
      else (s.askRail t x p, false)
    | _ =>
      let p := lookup t.set.points x
      if (s.rail x).vfault then skip else (s.askRail t x p, false)

/-- Run the sequencer until it waits. -/
def hpAdvance : Nat → State → State
  | 0, s => s
  | fuel + 1, s =>
    match s.hpwr.running with
    | none => s
    | some t =>
      if t.doing = .none then
        let r := s.hpTry t
        if r.2 then hpAdvance fuel r.1 else r.1
      else s

/-- Start a set, or hold it while one runs; a later decision replaces a held one (R360). -/
def State.hpStart (s : State) (t : ChangeSet) : State :=
  if s.hpwr.running.isSome then s.modHp fun x => { x with held := some t }
  else hpAdvance 400 (s.setRunning (some { set := t, step := 1, todo := s.stepTodo t 1, doing := .none, abort := false }))

/-- The handshake in progress has ended: the set goes on, or a set that was aborted makes room for a held one. -/
def State.hpNext (s : State) (t : Running) : State :=
  if t.abort then
    match s.hpwr.held with
    | some n => ((s.modHp fun x => { x with held := none }).setRunning none).hpStart n
    | none => s.setRunning none
  else hpAdvance 400 (s.setRunning (some { t with doing := .none }))

/-- FC_ACK: a code is loaded, so the change is committed (R359, R372). -/
def execFcAck (s : State) : Host.Outcome State Fault Refusal :=
  finish (
    if !s.chanOpen (.converter .pwr 0) then s else match s.hpwr.running with
    | some t => match t.doing with
      | .fc c f => (s.modCore c fun x => { x with loaded := some f }).hpNext t
      | _ => s
    | none => s)

/-- FC_GO_ACK: the new frequencies run. -/
def execFcGoAck (s : State) : Host.Outcome State Fault Refusal :=
  finish (
    match s.hpwr.running with
    | some t => match t.doing with
      | .go =>
        let f (_ : Nat) (x : PwrCore) : PwrCore := { x with now := x.loaded.getD x.now, loaded := none }
        (s.modHp fun x => { x with cores := Tab.mapTab PwrCore.reset f x.cores, goHeld := false }).hpNext t
      | _ => s
    | none => s)

/-- A point change misses its deadline (R357). -/
def State.vfault (s : State) (t : Running) (r p : Nat) : State :=
  ((s.modRail r fun x => { x with vfault := true, ack := min x.now p }).hpErr errVfault).log 0x48 0 0x0002 6 r p []
    |>.hpNext t

/-- A rail stands at its target point; an injection (kind 0x10) makes the acknowledgement miss its deadline. -/
def State.railAck (s : State) (t : Running) (r p : Nat) : State :=
  let i := s.injTake hpPage 0x10
  if i.1 then i.2.vfault t r p else (i.2.modRail r fun x => { x with now := p, ack := p }).hpNext t

/-- VID_ACK. -/
def execVidAck (s : State) : Host.Outcome State Fault Refusal :=
  finish (
    if !s.chanOpen (.converter .pwr 0) then s else match s.hpwr.running with
    | some t => match t.doing with
      | .rail r p => if bit (s.rail r).cfg 31 then s else s.railAck t r p
      | _ => s
    | none => s)

/-- PMBUS_VOUT_POLL: READ_VOUT in mV, or none for a transaction that failed three times (R356). -/
def execPmbusVoutPoll (mv : Option Nat) (s : State) : Host.Outcome State Fault Refusal :=
  finish (
    match s.hpwr.running with
    | some t => match t.doing with
      | .rail r p =>
        if bit (s.rail r).cfg 31 then
          match mv with
          | none => s.vfault t r p
          | some v =>
            let tol := s.regFld hpPage 0x80 8 8
            if v ≤ s.pointMv p + tol ∧ s.pointMv p ≤ v + tol then s.railAck t r p else s
        else s
      | _ => s
    | none => s)

/-- VFAULT: the deadline of the point change in progress passes. -/
def execVfault (s : State) : Host.Outcome State Fault Refusal :=
  finish (
    match s.hpwr.running with
    | some t => match t.doing with
      | .rail r p => s.vfault t r p
      | _ => s
    | none => s)

/-! ### The lowest state and the last lines (R376, R377) -/

/-- Force the lowest state: the running set ends after its handshake, then F_MIN and point 0 for all. -/
def State.forceLowest (s : State) (cause : BitVec 2) : State :=
  let set : ChangeSet :=
    { freqs := (List.range s.nCores).map fun c => (c, s.fMin c), points := (List.range s.nRails).map fun r => (r, 0), forced := true }
  let already := s.hpwr.forced
  let s := s.modHp fun x => { x with forced := true, cause := x.cause ||| cause }
  let s := if already then s
    else match s.hpwr.running with
      | some t =>
        if t.doing = .none then ((s.modHp fun x => { x with held := none, goHeld := false }).setRunning none).hpStart set
        else (s.modHp fun x => { x with held := some set, goHeld := false }).setRunning (some { t with abort := true })
      | none => s.hpStart set
  s.hpStat

/-- A cause of the forced state ends. -/
def State.unforce (s : State) (cause : BitVec 2) : State :=
  (s.modHp fun x => { x with cause := x.cause &&& ~~~ cause, forced := decide (x.cause &&& ~~~ cause ≠ 0) }).hpStat

/-- The STATUS_WORDs of the rails, as a record's content: zero for a VID rail. -/
def State.statusBytes (s : State) (st : List Nat) : List Byte :=
  (List.range 8).flatMap fun r => leBytes 2 (if bit (s.rail r).cfg 31 then st.getD r 0 else 0)

/-- The hottest reading in 1/16 °C: thermal channels with a reading, and region estimates (R367, R377). -/
def State.regionTemp (s : State) (r : Nat) : Int := sgn 12 (s.regFld (pg 0x02) (0xC0 + 4 * r) 0 12)

def sensorKind (ch : Nat) : Nat := fld (Config.sensorMap ch) 4 2
def sensorRegion (ch : Nat) : Nat := fld (Config.sensorMap ch) 0 4
def State.sensor (s : State) (ch : Nat) : Sensor := Tab.read Sensor.reset s.hpwr.sensors ch
def State.nChannels (s : State) : Nat := s.regFld hpPage 0x40 8 8

/-- A channel's reading: none while it is quiet. -/
def State.reading (s : State) (ch : Nat) : Option (BitVec 16) := if (s.sensor ch).quiet then none else (s.sensor ch).raw

/-- Thermal readings with their regions. -/
def State.thermals (s : State) : List (Nat × Int) :=
  (List.range s.nChannels).filterMap fun ch =>
    if sensorKind ch = 1 then (s.reading ch).map fun v => (sensorRegion ch, v.toInt) else none

def maxInt (l : List Int) (d : Int) : Int := l.foldl max d

def State.hottest (s : State) : Int :=
  maxInt ((List.range 16).map s.regionTemp ++ s.thermals.map (·.2)) (-(2 ^ 15))

/-- TRIP_N goes low. -/
def State.tripLine (s : State) : State :=
  if s.hpwr.tripLow then s else (s.modHp fun x => { x with tripLow := true }).emit (.power sigTripN 0 0)

/-- The comparator of R377, once per slow tick. In EMBER it drives TRIP_N at once and wakes the block, and the forced-lowest
state follows when the hub is up (R397). -/
def State.tripTick (s : State) : State :=
  let ll := s.reg hpPage 0x74
  if (fld ll 0 8 : Int) * 16 ≤ s.hottest ∧ bit s.hpwr.cause 1 = false ∧ s.bpwr.state ≠ .off then
    let s := if bit ll 8 then s.tripLine else s
    if s.bpwr.state = .ember then s.wakeSrc 8
    else if s.dark then s
    else ((s.hpErr errTrip).log 0x48 0 0x0006 6 2 0 (s.statusBytes [])).forceLowest 2
  else s

/-- ALERT_N forces the lowest state (R376). -/
def State.alertForce (s : State) (status : List Nat) : State :=
  let s := ((s.hpErr errAlert).log 0x48 0 0x0006 6 1 0 (s.statusBytes status)).forceLowest 1
  ((List.range s.nRails).filter fun r => bit (s.rail r).cfg 31).foldl (fun s r => s.emit (.power sigClearFaults r 1)) s

/-- At a slow tick with the hub up: what ALERT_N asked for in EMBER (R397). -/
def State.alertTick (s : State) : State :=
  match s.hpwr.alertHeld with
  | some l => if s.dark then s else (s.modHp fun x => { x with alertHeld := none }).alertForce l
  | none => s

/-- ALERT_N has been low for 100 ns, with the STATUS_WORDs that the PMBus rails give, or has gone high (R376). In
system role it forces nothing; a converter's fault is logged by the poll (R529). -/
def execAlertN (low : Bool) (status : List Nat) (s : State) : Host.Outcome State Fault Refusal :=
  finish (
    if low then
      let s := s.modHp fun x => { x with alertLow := true }
      if s.isSystem then s.log 0x48 0 0x0009 5 0x40 (status.getD 0 0) []
      else if bit (s.reg hpPage 0x74) 9 ∧ s.bpwr.state ≠ .off then
        if s.dark then (s.modHp fun x => { x with alertHeld := some status }).wakeSrc 8
        else s.alertForce status
      else s
    else s.modHp fun x => { x with alertHigh := if x.alertLow then s.now else x.alertHigh, alertLow := false })

/-- HPWR_RESUME. -/
def execHpwrResume (c : CmdIn) (s : State) : Host.Outcome State Fault Refusal :=
  finish (runCmd c 0x48 0x0002 .firmware s.isDie
    (fun s =>
      if s.hpwr.alertLow ∨ (bit s.hpwr.cause 0 = true ∧ s.now < s.hpwr.alertHigh + ms) then s.failCmd c 0x03
      else (s.unforce 1).ok c) s)

/-- HPWR_TRIP_CLEAR. -/
def execHpwrTripClear (c : CmdIn) (s : State) : Host.Outcome State Fault Refusal :=
  finish (runCmd c 0x48 0x0003 .firmware s.isDie
    (fun s =>
      if s.hottest < ((s.regFld hpPage 0x74 0 8 : Int) - 10) * 16 then
        let s := if s.hpwr.tripLow then (s.modHp fun x => { x with tripLow := false }).emit (.power sigTripN 0 1) else s
        (s.unforce 2).ok c
      else s.failCmd c 0x04) s)

/-- HPWR_RAIL_CLEAR. -/
def execHpwrRailClear (c : CmdIn) (s : State) : Host.Outcome State Fault Refusal :=
  finish (runCmd c 0x48 0x0004 .firmware s.isDie
    (fun s =>
      let r := argFld c s 0 0 3
      if s.nRails ≤ r then s.failCmd c 0x05
      else
        let s := s.modRail r fun x => { x with vfault := false }
        (s.hpStart { freqs := [], points := [(r, (s.rail r).tgt)], forced := false }).ok c) s)

/-- HPWR_SET_CAP (R364). -/
def execHpwrSetCap (c : CmdIn) (s : State) : Host.Outcome State Fault Refusal :=
  finish (runCmd c 0x48 0x0001 .firmware s.isDie
    (fun s =>
      let o := [argFld c s 2 20 2, argFld c s 2 18 2, argFld c s 2 16 2]
      if (argW c s 0).toNat < 1000 * (argFld c s 1 0 16 + argFld c s 1 16 16 + argFld c s 2 0 16) then s.failCmd c 0x01
      else if !([0, 1, 2].all fun g => decide (g ∈ o)) then s.failCmd c 0x02
      else
        let s := ((s.setReg hpPage 0x48 (argW c s 0)).setReg hpPage 0x4C (argW c s 1)).setReg hpPage 0x50
          (word (argFld c s 2 0 22))
        s.ok c) s)

/-! ### Sensors (R354, R512) -/

def State.modSensor (s : State) (ch : Nat) (f : Sensor → Sensor) : State :=
  s.modHp fun x => { x with sensors := Tab.modify Sensor.reset x.sensors ch f }

/-- SENSOR_READING. A channel the die does not have is a malformed frame of the sensor port. -/
def execSensorReading (ch : BitVec 6) (val : BitVec 16) (s : State) : Host.Outcome State Fault Refusal :=
  finish (
    let n := ch.toNat
    if s.isSystem then s
    else if s.nChannels ≤ n then s.violate (.sensor n) 1 [] true
    else
      let was := (s.sensor n).quiet
      let s := s.modSensor n fun _ => { raw := some val, ticks := 0, quiet := false }
      if was then s.log 0x48 0 0x0008 4 n 2 [] else s)

/-- SENSOR_QUIET: 16 slow ticks have passed without a reading. -/
def execSensorQuiet (ch : BitVec 6) (s : State) : Host.Outcome State Fault Refusal :=
  finish (
    let x := s.sensor ch.toNat
    if x.raw.isSome ∧ x.quiet = false ∧ 16 ≤ x.ticks then
      (s.modSensor ch.toNat fun x => { x with quiet := true }).log 0x48 0 0x0008 4 ch.toNat 1 []
    else s)

/-! ### Droop (R370 to R374) -/

/-- NOMINAL of a region in 2^-16 ps: the mean of the last 64 intervals without a droop. -/
def nominal (d : Droop) : Nat := if d.halves = [] then 0 else d.halves.sum / d.halves.length

/-- DROOP_DETECT: a half-period of the V ring of region `r`, in fs, is longer than the trip threshold. The release of a
frequency change that was already committed completes under the stretch (R373). -/
def State.droopAt (s : State) (r : Nat) : State :=
  let goes := (s.coresOf fun c => (s.core c).loaded.isSome && decide (coreRegion c = r)) ≠ []
  let s := s.bump (pg 0x02) 0x58 (if goes then 1 else 0)
  let s : State := match s.hpwr.running with
    | some t => if t.doing = .go ∧ goes then s.log 0x48 0 0x0005 3 r 2 [] else s
    | none => s
  ((s.modDroop r fun d => { d with
      on := true, since := if d.on then d.since else s.now, seen := true, hold := none, events := d.events + 1, last := s.now }).modHp
      fun x => { x with stretch := setBit x.stretch r true }).hpErr errDroop
    |>.bumpFld hpPage 0x70 0 16 1 |>.emit (.power sigStretch r 1)

def execDroopDetect (r : BitVec 4) (halfFs : Nat) (s : State) : Host.Outcome State Fault Refusal :=
  finish (
    let d := s.droop r.toNat
    if s.isDie ∧ d.on = false ∧ d.halves ≠ [] ∧ nominal d * s.regFld hpPage 0x68 20 12 * 1000 < halfFs * 65536 * 256 then s.droopAt r.toNat
    else s)

/-- DROOP_CLEAR: the latest half-periods, in fs, the last CLEAR_N of them below the clearing threshold (R370, R372). -/
def execDroopClear (r : BitVec 4) (halvesFs : List Nat) (s : State) : Host.Outcome State Fault Refusal :=
  finish (
    let n := r.toNat
    let d := s.droop n
    let need := max 1 (s.regFld hpPage 0x68 0 8)
    let tail := halvesFs.drop (halvesFs.length - need)
    let short (h : Nat) : Bool := decide (h * 65536 * 256 < nominal d * s.regFld hpPage 0x68 8 12 * 1000)
    if d.on = true ∧ need ≤ halvesFs.length ∧ tail.all short = true then
      (s.modDroop n fun d => { d with
          on := false, hold := some (s.now + s.regFld hpPage 0x6C 16 16 * ns), stretch := d.stretch + (s.now - d.since) / ns }).modHp
          (fun x => { x with stretch := setBit x.stretch n false })
        |>.emit (.power sigStretch n 0)
    else s)

/-- DROOP_HOLD_END: the hold of a region ends, and the set resumes where it stopped (R372). -/
def execDroopHoldEnd (r : BitVec 4) (s : State) : Host.Outcome State Fault Refusal :=
  finish (
    match (s.droop r.toNat).hold with
    | some t => hpAdvance 400 ((s.advanceTo t).modDroop r.toNat fun d => { d with hold := none })
    | none => s)

/-- SUSTAINED_DROOP: LONG_US have passed without clearing (R374). -/
def execSustainedDroop (r : BitVec 4) (s : State) : Host.Outcome State Fault Refusal :=
  finish (
    let d := s.droop r.toNat
    if d.on then (s.advanceTo (d.since + s.regFld hpPage 0x6C 8 8 * us)).modDroop r.toNat fun d => { d with long := true }
    else s)

/-- A slow tick: sensors age, and the detectors take the interval's ring count (R370, R512).
An injection (kind 0x11) makes region 0 report one droop. -/
def State.hpTick (s : State) (vcounts : List Nat) : State :=
  if s.isSystem then s
  else
    let s := s.modHp fun x => { x with sensors := Tab.mapTab Sensor.reset (fun _ y => { y with ticks := min 16 (y.ticks + 1) }) x.sensors }
    let s := (List.range vcounts.length).foldl (fun s r =>
      let n := vcounts.getD r 0
      let d := s.droop r
      if n = 0 ∨ d.seen ∨ d.on then s.modDroop r fun d => { d with seen := d.on }
      else s.modDroop r fun d => { d with halves := (500000 * 65536 / n :: d.halves).take 64, seen := d.on }) s
    let i := s.injTake hpPage 0x11
    if i.1 then i.2.droopAt 0 else i.2

/-! ### Estimating power (R361 to R363) -/

def State.pjWeight (s : State) (p j : Nat) : Nat :=
  fld (Tab.read wordZero s.hpwr.weights (6 * p + j / 2)) (16 * (j % 2)) 16

/-- Energy of a unit's deltas in pJ. -/
def State.unitPj (s : State) (u : Nat) : Nat :=
  let x := s.probe u
  let d (k : Nat) := (Tab.read bv64Zero x.arrAll k).toNat
  let w (j : Nat) := s.pjWeight x.profile.toNat j
  w 0 * d 0 + w 1 * d 1 + w 2 * d 2 + ((List.range 8).map fun e => w (3 + e) * d (11 + e)).sum

/-- The modelled power of a core at a close in mW; a core with a STALE cluster keeps its previous value. -/
def State.coreModel (s : State) (c : Nat) : Nat :=
  let us' := (coreUnits c).filter s.present
  if us'.any fun u => (s.cluster (clusterOf u)).stale then (s.core c).model
  else (us'.map s.unitPj).sum / max 1 s.samp.grid.period

/-- A core's estimate in mW (R362). -/
def State.coreEst (s : State) (c : Nat) : Nat := (s.core c).model * (s.rail (coreRail c)).k / 2 ^ 14

def State.estOf (s : State) (l : List Nat) : Nat := (l.map s.coreEst).sum

/-- A rail's current in mA: its channel's reading, or READ_IOUT (R362). -/
def State.railMa (s : State) (r : Nat) : Option Nat :=
  let ch := fld (s.rail r).cfg 8 8
  if ch ≠ 0xFF then (s.reading ch).map fun v => v.toNat * 10
  else if bit (s.rail r).cfg 31 then (s.rail r).iout else none

/-- Its measured power in mW. -/
def State.railMeas (s : State) (r : Nat) : Option Nat := (s.railMa r).map fun i => s.pointMv (s.rail r).now * i / 1000

/-- The power model of a close (R361), and the sums toward K (R362). -/
def State.hpClose (s : State) : State :=
  if s.isSystem then s
  else
    let s := (List.range s.nCores).foldl (fun s c => let m := s.coreModel c; s.modCore c fun x => { x with model := m }) s
    (List.range s.nRails).foldl (fun s r =>
      match s.railMeas r with
      | some m =>
        let e := ((s.railCores r).map fun c => (s.core c).model).sum
        s.modRail r fun x => { x with sumMeas := x.sumMeas + m, sumModel := x.sumModel + e }
      | none => s) s

/-- The counts of a close are read; the next close's begin (R363). -/
def State.hpClosed (s : State) : State :=
  s.modHp fun x => { x with droops := Tab.mapTab Droop.reset (fun _ d =>
    { d with events := 0, stretch := 0, since := if d.on then max d.since s.now else d.since }) x.droops }

/-- The readings of the SENSOR source (R363): element number and value. -/
def State.sens (s : State) (code : Nat) : List (Nat × Int) :=
  let regions := List.range 16
  match code with
  | 0x00 => regions.map fun r => (r, (s.regFld (pg 0x02) (0xC0 + 4 * r) 16 12 : Int))
  | 0x01 => regions.map fun r => (r, s.regionTemp r)
  | 0x02 => (List.range s.nCores).map fun c => (c, ((s.core c).now : Int))
  | 0x03 => (List.range s.nCores).map fun c => (c, (s.fmax c (s.rail (coreRail c)).now : Int) - (s.core c).now)
  | 0x04 => (List.range s.nRails).map fun r => (r, (s.estOf (s.railCores r) : Int))
  | 0x05 => (List.range s.nRails).filterMap fun r => (s.railMeas r).map fun m => (r, (m : Int))
  | 0x06 => (List.range 3).map fun g => (g, (s.estOf (s.coresOf fun c => decide (coreGroup c = g)) : Int))
  | 0x07 => (List.range s.nChannels).filterMap fun ch =>
      (s.reading ch).map fun v => (ch, if sensorKind ch = 1 then v.toInt else (v.toNat : Int))
  | 0x08 => regions.map fun r => (r, ((s.droop r).events : Int))
  | 0x09 => regions.map fun r =>
      let d := s.droop r
      (r, ((d.stretch + if d.on then (s.now - d.since) / ns else 0 : Nat) : Int))
  | _ => []

/-- K_CORRECTION, every 1 ms (R362); `iout` holds the READ_IOUT of PMBus rails in mA. -/
def execKCorrection (iout : List (Nat × Nat)) (s : State) : Host.Outcome State Fault Refusal :=
  finish (
    if s.isSystem then s
    else
      let s := (s.advanceTo (s.hpwr.corrAt + ms)).modHp fun x => { x with corrAt := max s.now (x.corrAt + ms) }
      let s := (List.range s.nRails).foldl (fun s r => s.modRail r fun x => { x with
        k := if x.sumModel = 0 ∨ (s.railMa r).isNone = true then x.k else clamp 8192 32768 (16384 * x.sumMeas / x.sumModel)
        sumMeas := 0, sumModel := 0 }) s
      iout.foldl (fun s e => s.modRail e.1 fun x => { x with iout := some e.2 }) s)

/-! ### Decisions (R353, R364 to R368) -/

/-- The first point that fails the check of R353. -/
def State.badPoint (s : State) (ps : List Nat) : Option Nat :=
  let vid := (List.range s.nRails).any fun r => !bit (s.rail r).cfg 31
  (List.range 8).find? fun i =>
    let mv := ps.getD i 0
    decide (mv < 500) || decide (900 < mv) || (decide (0 < i) && decide (mv ≤ ps.getD (i - 1) 0)) ||
    (vid && (decide (mv < 250) || decide ((mv - 250) % 5 ≠ 0) || decide (255 < (mv - 250) / 5)))

/-- Written points are checked at the control interval: good ones come into force, else the previous ones stand. -/
def State.takePoints (s : State) : State :=
  let ps := (List.range 8).map fun i => s.regFld hpPage (0xE0 + 4 * i) 0 16
  if ps = s.hpwr.points then s
  else match s.badPoint ps with
    | none => s.modHp fun x => { x with points := ps }
    | some i =>
      let old := s.hpwr.points
      ((List.range 8).foldl (fun s i => s.setReg hpPage (0xE0 + 4 * i) (word (old.getD i 0))) (s.hpErr errPointBad)).log 0x48 0
        0x0001 4 i (ps.getD i 0) []

/-- A core's temperature in 1/16 °C (R367). -/
def State.coreTemp (s : State) (c : Nat) : Int :=
  maxInt ((s.thermals.filter fun e => decide (e.1 = coreRegion c)).map (·.2)) (s.regionTemp (coreRegion c))

def State.fstep (s : State) : Nat := max 1 (s.regFld hpPage 0x54 8 8)

/-- THERMAL_LIMIT: a core at TJ_MAX is limited, and the limit rises again below TJ_MAX − 2 °C (R367). -/
def State.thermalLimit (s : State) (c tgt : Nat) : State :=
  let t := s.coreTemp c
  let tj : Int := (s.regFld hpPage 0x54 0 8 : Int) * 16
  let x := s.core c
  if tj ≤ t then
    let s := if x.thermal.isNone then (s.hpErr errThermal).log 0x48 0 0x0004 4 c (unsgn 32 t) [] else s
    s.modCore c fun x => { x with thermal := some (x.now - s.fstep) }
  else match x.thermal with
    | some l =>
      if t < tj - 32 then s.modCore c fun x => { x with thermal := if tgt ≤ l + s.fstep then none else some (l + s.fstep) } else s
    | none => s

/-- The limit of a sustained droop, and its lifting after 1 ms without a detection (R374). -/
def State.droopLimit (s : State) (c tgt : Nat) : State :=
  let d := s.droop (coreRegion c)
  if d.long then s.modCore c fun x => { x with droop := some (x.now - s.fstep) }
  else match (s.core c).droop with
    | some l => if d.last + ms ≤ s.now ∧ d.on = false then
        s.modCore c fun x => { x with droop := if tgt ≤ l + s.fstep then none else some (l + s.fstep) } else s
    | none => s

/-- The lowest limit that verdicts set on a core (R368). -/
def State.verdictLimit (s : State) (c : Nat) : Option Nat :=
  (s.hpwr.vholds.filter fun v => decide (v.unit ∈ coreUnits c)).foldl (fun r v =>
    let w := s.reg hpPage (0x100 + 4 * v.entry)
    let l : Option Nat := match fld w 29 2 with
      | 1 => some (s.fReq c)
      | 2 => some (s.stepDown (s.fReq c * fld w 8 8 / 100))
      | 3 => some (s.fMin c)
      | _ => none
    match r, l with
    | some a, some b => some (min a b)
    | none, b => b
    | a, none => a) none

def capBy (f : Nat) : Option Nat → Nat
  | some l => min f l
  | none => f

/-- A core's target after every limit in force (R364). -/
def State.coreTgt (s : State) (c : Nat) : Nat :=
  let base := if bit (s.reg hpPage 0x44) 2 then s.fFix c
    else if bit (s.reg hpPage 0x44) 1 then s.fBoost c else s.fReq c
  if bit (s.reg hpPage 0x44) 2 then base
  else capBy (capBy (capBy base (s.core c).thermal) (s.core c).droop) (s.verdictLimit c)

/-- A core's demand in mW at its target (R364). -/
def State.coreDem (s : State) (c tgt : Nat) : Nat :=
  let x := s.core c
  let pn := s.pointMv (s.rail (coreRail c)).now
  let pt := s.pointMv (s.pointFor c tgt)
  if x.now = 0 then 0 else s.coreEst c * tgt * pt * pt / (x.now * pn * pn)

/-- The budgets in the order of priority: what remains, and the budgets so far. -/
def shareCap (minMw dem : Nat → Nat) : List Nat → Nat → List (Nat × Nat)
  | [], _ => []
  | g :: gs, rem =>
    let x := min (dem g - minMw g) rem
    (g, minMw g + x) :: shareCap minMw dem gs (rem - x)

/-- The frequency of a core under its group's budget (R364, R365). -/
def State.coreFreq (s : State) (c tgt dem budget : Nat) : Nat :=
  let sc := if dem ≤ budget then 65536 else budget * 65536 / dem
  if (s.core c).now = 0 then s.fMin c
  else if bit (s.reg hpPage 0x44) 2 then (if sc = 65536 then s.fFix c else s.fFloor c)
  else max (s.fMin c) (s.stepDown (tgt * sc / 65536))

/-- The set that reaches the chosen frequencies: R352's points, limits at point 7, and rails in VFAULT left alone. -/
def State.planSet (s : State) (f : Nat → Nat) : ChangeSet :=
  let pick (r : Nat) : Nat :=
    if (s.rail r).vfault then (s.rail r).now
    else ((List.range 8).find? fun p => (s.railCores r).all fun c => decide (f c ≤ s.fmax c p)).getD 7
  let fit (c : Nat) : Nat :=
    let r := coreRail c
    if (s.rail r).vfault then (s.core c).now
    else if f c ≤ s.fmax c (pick r) then f c else s.stepDown (s.fmax c 7)
  { freqs := ((List.range s.nCores).map fun c => (c, fit c)).filter fun e => decide (e.2 ≠ (s.core e.1).now)
    points := ((List.range s.nRails).map fun r => (r, pick r)).filter fun e => decide (e.2 ≠ (s.rail e.1).now)
    forced := false }

/-- A group at its lowest frequencies above its budget (R366). -/
def State.capUnmet (s : State) (g budget : Nat) : State :=
  let cs := s.coresOf fun c => decide (coreGroup c = g)
  let low (c : Nat) : Bool := decide ((s.core c).now = if bit (s.reg hpPage 0x44) 2 then s.fFloor c else s.fMin c)
  let est := s.estOf cs
  let last := Tab.read natZero s.hpwr.unmetAt g
  if cs.all low && decide (budget < est) && (decide (last = 0) || decide (last + ms ≤ s.now + 1)) then
    ((s.hpErr errCapUnmet).log 0x48 0 0x0003 5 g est []).modHp fun x => { x with unmetAt := Tab.write natZero x.unmetAt g (s.now + 1) }
  else s

/-- The limits that a decision starts from: pending points, thermal and droop limits of every core. -/
def State.powerLimits (s : State) : State :=
  let s := s.takePoints
  let base (c : Nat) := if bit (s.reg hpPage 0x44) 1 then s.fBoost c else s.fReq c
  let s := (List.range s.nCores).foldl (fun s c => (s.thermalLimit c (base c)).droopLimit c (base c)) s
  s.modHp fun x => { x with droops := Tab.mapTab Droop.reset (fun _ d => { d with long := false }) x.droops }

/-- The cores of a group, and the power they ask for. -/
def State.groupCores (s : State) (g : Nat) : List Nat := s.coresOf fun c => decide (coreGroup c = g)
def State.groupDem (s : State) (g : Nat) : Nat := ((s.groupCores g).map fun c => s.coreDem c (s.coreTgt c)).sum

/-- A group's minimum, in mW. -/
def State.groupMin (s : State) (g : Nat) : Nat :=
  1000 * (if g = 0 then s.regFld hpPage 0x4C 0 16 else if g = 1 then s.regFld hpPage 0x4C 16 16 else s.regFld hpPage 0x50 0 16)

/-- What each group gets of the cap. -/
def State.groupBudget (s : State) (g : Nat) : Nat :=
  let order := [s.regFld hpPage 0x50 20 2, s.regFld hpPage 0x50 18 2, s.regFld hpPage 0x50 16 2]
  lookup (shareCap s.groupMin s.groupDem order
    ((s.reg hpPage 0x48).toNat - (s.groupMin 0 + s.groupMin 1 + s.groupMin 2))) g

/-- The frequencies and points that a decision wants. -/
def State.powerSet (s : State) : ChangeSet :=
  s.planSet fun c => s.coreFreq c (s.coreTgt c) (s.groupDem (coreGroup c)) (s.groupBudget (coreGroup c))

/-- The decision (R364). -/
def State.powerDecide (s : State) : State :=
  let s := s.powerLimits
  let set := s.powerSet
  let budget := s.groupBudget
  let floor := bit (s.reg hpPage 0x44) 2 && (List.range 3).any fun g => decide (s.groupCores g ≠ []) && decide (budget g < s.groupDem g)
  let s := s.modHp fun x => { x with
    budgets := [0, 1, 2].foldl (fun t g => Tab.write natZero t g (budget g)) x.budgets, fixedFloor := floor }
  let s := (List.range 3).foldl (fun s g => s.capUnmet g (budget g)) s
  if set.freqs = [] ∧ set.points = [] then s else s.hpStart set

/-- POWER_DECISION: the first epoch close after CTRL_US have passed. -/
def execPowerDecision (s : State) : Host.Outcome State Fault Refusal :=
  finish (
    if s.isDie ∧ bit (s.reg hpPage 0x44) 0 = true ∧ s.hpwr.forced = false ∧ s.snuff.state ≠ .cut ∧
        s.hpwr.decidedAt + max 1 (s.regFld hpPage 0x54 16 16) * us ≤ s.samp.grid.lastClose then
      (s.modHp fun x => { x with decidedAt := s.samp.grid.lastClose }).powerDecide
    else s)

/-- A verdict reaches the power manager (R368). -/
def State.pwrVerdict (s : State) (v : Verdict) : State :=
  let dw := Tab.read wordZero s.forest.ftab.active.dir v.entity
  let n := Tab.read natZero s.svc.batches 0
  if s.isSystem || !bit dw 31 then s
  else if bit v.flags vfStale || bit v.flags vfUnscored || bit v.flags vfDegraded then
    s.modHp fun x => { x with vholds := x.vholds.map fun h => if h.entity = v.entity then { h with skips := h.skips + 1 } else h }
  else
    let hit := (List.range 16).filter fun i =>
      let w := s.reg hpPage (0x100 + 4 * i)
      bit w 31 && decide (fld w 0 8 = v.code.toNat)
    let keep (h : VHold) : Bool := !(decide (h.entity = v.entity) && decide (h.entry ∈ hit)) &&
      decide (n ≤ h.batch + h.skips + max 1 (s.regFld hpPage (0x100 + 4 * h.entry) 16 8))
    s.modHp fun x => { x with vholds := x.vholds.filter keep ++ hit.map fun i =>
      { entity := v.entity, entry := i, unit := fld dw 16 13, batch := n, skips := 0 } }

/-- A drift notice of KIND FMAX with direction down ages the cores of its DMAP entry (R369). -/
def State.pwrAge (s : State) (entry : Nat) (a : RedAlarm) : State :=
  if a.up then s
  else
    let m := Tab.read bv64Zero s.hpwr.dmap entry
    let st := s.regFld hpPage 0x144 0 16
    ((List.range s.nCores).filter fun c => bit m c).foldl (fun s c =>
      let lo := s.fMin c
      let low := (List.range 8).any fun p => decide (s.fmax c p - st ≤ lo)
      let s := s.modCore c fun x => { x with fmax := Tab.writeAll natZero (fun _ f => max lo (f - st)) (List.range 8) x.fmax }
      if low then s.hpErr errFmaxFloor else s) s

/-- Alarms that drift notices pass to the power manager (R345, R369). -/
def State.drift (s : State) : State :=
  let r := s.driftAll
  if s.isSystem then r.1 else r.2.foldl (fun s e => s.pwrAge e.1 e.2) r.1

/-- A warm reset: the handshake in progress completes, and no further step of the set is issued (R381). -/
def State.hpWarm (s : State) : State :=
  let s := s.modHp fun x => { x with held := none, goHeld := false }
  match s.hpwr.running with
  | some t => if t.doing = .none then s.setRunning none else s.setRunning (some { t with abort := true })
  | none => s

end Sys2Proof.Machine
end

