-- ==== Sys2Proof/Machine/Fum.lean ====
section
/-!
DEFINITION. The Fumarole log: forming and placing records, capture, dump, clear and software records; memory
protection (R416 to R428, R437, R438).
-/
namespace Sys2Proof.Machine

def fumPage : Nat := pg 0x58
def errRec : Nat := 17
def errMirrorLost : Nat := 18
def errRestoreFail : Nat := 19
def errCrcBad : Nat := 20
def statCkptBusy : Nat := 16
def statDumping : Nat := 17

def State.modFum (s : State) (f : Fum → Fum) : State := { s with fum := f s.fum }

/-! ### Records as bytes (R416) -/

/-- The bytes of a record, CHK included. -/
def recordBytes (r : LogRec) : List Byte :=
  let body := r.body ++ zeros ((4 - r.body.length % 4) % 4)
  let flags := r.sev % 8 * 32 + (if r.inj then 16 else 0) + (if r.unlocked then 8 else 0)
  let b := leBytes 2 (28 + body.length) ++ [BitVec.ofNat 8 flags, r.schema] ++ leBytes 4 r.seq.toNat ++ ftBytes r.time ++
    [r.inst, r.page] ++ leBytes 2 r.code.toNat ++ leBytes 2 r.origin.toNat ++ body
  b ++ leBytes 4 (crc32c b).toNat

def recordSev (b : List Byte) : Nat := leAt b 2 1 / 32
def recordLen (b : List Byte) : Nat := leAt b 0 2

/-- CHK recomputed agrees. -/
def recordGood (b : List Byte) : Bool :=
  decide (leBytes 4 (crc32c (b.take (b.length - 4))).toNat = b.drop (b.length - 4))

def recordSlots (b : List Byte) : Nat := ceilDiv b.length 64

/-- Slots in use (KX_FUM_USED). -/
def logUsed (l : List LogEntry) : Nat := (l.map fun e => recordSlots e.bytes).sum

/-- KX_FUM_FIRST: the oldest record held, or the next number when none is. -/
def State.logFirst (s : State) : BitVec 32 :=
  match s.fum.log with
  | e :: _ => e.logno
  | [] => s.fum.next

def State.logHeld (s : State) (n : BitVec 32) : Option LogEntry := s.fum.log.find? fun e => decide (e.logno = n)

/-! ### Placing a record (R420 to R422) -/

/-- Remove the oldest records of severity below `sev` whose copy has not begun, until `need` slots are free: the
records kept, and the slots then free. -/
def makeRoom (sev need : Nat) : Nat → List LogEntry → List LogEntry × Nat
  | free, [] => ([], free)
  | free, e :: es =>
    if free < need ∧ recordSev e.bytes < sev ∧ e.copying = false then makeRoom sev need (free + recordSlots e.bytes) es
    else
      let r := makeRoom sev need free es
      (e :: r.1, r.2)

/-- The record goes up in an EVENT frame where its severity reaches UP_SEV (R422). -/
def State.eventUp (s : State) (b : List Byte) : State :=
  let cfg := s.reg fumPage 0x40
  if bit cfg 28 ∧ fld cfg 29 3 ≤ recordSev b then s.sendTyp 0x40 .up b else s

/-- Place a record's bytes, or drop it (R420). -/
def State.placeRecord (s : State) (b : List Byte) : State :=
  let sev := recordSev b
  let room := s.logSlots - logUsed s.fum.log
  let r := makeRoom sev (recordSlots b) room s.fum.log
  if r.2 < recordSlots b then s.dropRec sev
  else
    let s := s.modFum fun f => { f with
      log := r.1 ++ [{ logno := f.next, bytes := b, copying := false }]
      next := f.next + 1 }
    if s.regFld fumPage 0x40 24 3 ≤ sev then s.setErr fumPage errRec else s

/-- A record formed by the recorder itself is written at once. -/
def State.writeOwn (s : State) (code sev : Nat) (schema : Byte) (body : List Byte) : State :=
  let r : LogRec :=
    { sev, inj := s.fum.injNow, unlocked := s.unlocked, schema, seq := s.fum.seq, time := s.ft, page := 0x58, inst := 0,
      code := BitVec.ofNat 16 code, origin := s.node, body }
  let s := s.modFum fun f => { f with seq := f.seq + 1 }
  (s.placeRecord (recordBytes r)).eventUp (recordBytes r)

/-- The highest severity in a mask. -/
def topSev (m : Byte) : Nat := ((List.range 8).filter fun i => bit m i).foldl max 0

/-- Slots have become free: after drops the LOST record is written first (R421). -/
def State.slotsFreed (s : State) : State :=
  let f := s.fum
  if f.lostCount = 0 then s
  else
    let body := leBytes 4 (min f.lostCount (2 ^ 32 - 1)) ++ [f.lostMask] ++ zeros 3 ++ ftBytes f.lostFirst ++ ftBytes f.lostLast
    let s := s.modFum fun f => { f with lostCount := 0, lostMask := 0 }
    s.writeOwn 0x0001 (topSev f.lostMask) 2 body

/-- A record of a page for which the manual gives no SCHEMA. -/
def State.logPlain (s : State) (page code sev : Nat) (body : List Byte) : State :=
  s.logRec (pageNo page) (keyInst page) code sev false (Config.schema (pageNo page) code) body

/-! ### The write port (R419) -/

/-- Is `a` granted before `b`: higher severity, then the lower SOURCE, then the older one (R33)? -/
def recBefore (a b : LogRec) : Bool :=
  decide (b.sev < a.sev) || (decide (a.sev = b.sev) &&
    decide (a.page.toNat * 256 + a.inst.toNat < b.page.toNat * 256 + b.inst.toNat))

/-- The waiting record that is granted. -/
def grantRec : List LogRec → Option LogRec
  | [] => none
  | r :: rs => match grantRec rs with
    | some q => if recBefore q r then some q else some r
    | none => some r

/-- Flip stored bit `i` of a record. -/
def flipBit (i : Nat) (b : List Byte) : List Byte := modNth (i / 8) (fun x => x ^^^ BitVec.ofNat 8 (2 ^ (i % 8))) b

/-- LOG_WRITE: one waiting record is written; PAGE_INJ kind 0x10 flips one of its stored bits (R419, R437). -/
def execLogWrite (s : State) : Host.Outcome State Fault Refusal :=
  finish (match grantRec s.fum.waiting with
    | none => s
    | some r =>
      let s := s.bump (pg 0x02) 0x58 (if s.fum.waiting.any fun q => decide (q.page ≠ r.page ∨ q.inst ≠ r.inst) then 1 else 0)
      let s := s.modFum fun f => { f with waiting := f.waiting.erase r }
      let inj := s.injTake fumPage 0x10
      let b := recordBytes r
      if inj.1 then
        let d := inj.2.draw 11
        (d.2.placeRecord (flipBit (d.1.toNat % (8 * b.length)) b)).eventUp b
      else (inj.2.placeRecord b).eventUp b)

/-- EVENT: a child's record goes up, and with KEEP_REMOTE into this log unchanged (R422). -/
def execEvent (bytes : List Byte) (s : State) : Host.Outcome State Fault Refusal :=
  let b := bytes.take (recordLen bytes)
  finish (
    if recordLen b < 28 ∨ 256 < recordLen b ∨ recordLen b % 4 ≠ 0 ∨ b.length ≠ recordLen b then s
    else
      let s := if bit (s.reg fumPage 0x40) 27 then s.placeRecord b else s
      s.eventUp b)

/-! ### Reading (R423) -/

/-- A write of LOGNO to RIDX captures the record. -/
def State.logCapture (s : State) (n : BitVec 32) : State :=
  match s.logHeld n with
  | none => s.modFum fun f => { f with window := [], captured := false, capCrcBad := false, capLen := 0 }
  | some e =>
    let bad := !recordGood e.bytes
    let s := if bad then s.setErr fumPage errCrcBad else s
    s.modFum fun f => { f with window := e.bytes, captured := true, capCrcBad := bad, capLen := e.bytes.length }

/-- KX_FUM_RDATA_w. -/
def State.logWindow (s : State) (w : Nat) : Word := word (leAt s.fum.window (4 * w) 4)

/-- KX_FUM_RSTAT. -/
def State.logRstat (s : State) : Word :=
  let f := s.fum
  word ((if f.captured then 2 ^ 31 else 0) + (if f.capCrcBad then 2 ^ 30 else 0) + f.capLen)

/-! ### FUM_DUMP (R424) -/

/-- Set or clear the copying mark of a record. -/
def State.markCopy (s : State) (n : BitVec 32) (v : Bool) : State :=
  s.modFum fun f => { f with log := f.log.map fun e => if e.logno = n then { e with copying := v } else e }

/-- Remove one record. -/
def State.freeRecord (s : State) (n : BitVec 32) : State :=
  (s.modFum fun f => { f with log := f.log.filter fun e => !decide (e.logno = n) }).slotsFreed

def State.setDump (s : State) (d : Dump) : State :=
  s.modFum fun f => { f with dumps := (f.dumps.filter fun x => !(decide (x.pkg = d.pkg) && decide (x.page = d.page))) ++ [d] }

/-- The dump of a page ends. -/
def State.dropDump (s : State) (pkg : Bool) (page : Nat) : State :=
  let s := s.modFum fun f => { f with dumps := f.dumps.filter fun x => !(decide (x.pkg = pkg) && decide (x.page = page)) }
  if s.fum.dumps.isEmpty then s.setStat fumPage statDumping false else s

/-- The header of a dump, written last. -/
def dumpHeader (node : BitVec 16) (d : Dump) : List Byte :=
  let b := leBytes 4 0x4446584B ++ leBytes 4 d.first.toNat ++ leBytes 4 d.count ++ leBytes 4 d.pos ++ ftBytes d.time ++
    leBytes 2 node.toNat
  b ++ leBytes 4 (crc32c b).toNat

/-- The next record of a dump, or its header; records removed meanwhile are skipped. -/
def State.dumpNext (s : State) (d : Dump) : State :=
  let gone := d.todo.takeWhile fun n => (s.logHeld n).isNone
  let rest := d.todo.drop gone.length
  let d := { d with skipped := d.skipped + gone.length }
  match rest with
  | [] => (s.setDump { d with todo := [], cur := none }).cmdXfer d.pkg d.page true d.addr 32 (dumpHeader s.node d)
  | n :: ns =>
    match s.logHeld n with
    | none => s
    | some e =>
      let bad := !recordGood e.bytes
      let s := if bad then s.setErr fumPage errCrcBad else s
      let d' := { d with todo := ns, cur := some n, pos := d.pos + 8 + e.bytes.length, count := d.count + 1,
                         badCrc := d.badCrc + if bad then 1 else 0 }
      ((s.markCopy n true).setDump d').cmdXfer d.pkg d.page true (d.addr + d.pos) (8 + e.bytes.length)
        (leBytes 4 n.toNat ++ [if bad then 1 else 0, 0, 0, 0] ++ e.bytes)

/-- A write of a dump has completed. -/
def State.dumpLoaded (s : State) (pkg : Bool) (page : Nat) (failed : Bool) : State :=
  match s.fum.dumps.find? fun d => decide (d.pkg = pkg) && decide (d.page = page) with
  | none => s
  | some d =>
    let s := match d.cur with
      | some n => s.markCopy n false
      | none => s
    if failed then (s.dropDump pkg page).complete pkg page stError 6
    else match d.cur with
    | some n => (if d.release then s.freeRecord n else s).dumpNext d
    | none =>
      let s := ((((s.setRes pkg page 0 d.pos).setRes pkg page 1 d.count).setRes pkg page 2 d.skipped).setRes
        pkg page 3 d.badCrc).setRes pkg page 4 d.upTo.toNat
      (s.dropDump pkg page).complete pkg page stOk 0

/-- FUM_DUMP: the records held from the given LOGNO up to NEXT; a capacity too small for them ends it FULL. -/
def fumDumpCmd (c : CmdIn) (s : State) : State :=
  let addr := arg64 c s 0
  let first := if argW c s 4 = 0xFFFFFFFF then s.logFirst else argW c s 4
  let span := (s.fum.next - first).toNat
  let held := s.fum.log.filter fun e => decide ((e.logno - first).toNat < span)
  let size := 32 + (held.map fun e => 8 + e.bytes.length).sum
  if addr % 64 ≠ 0 then s.badArg c
  else if (argW c s 2).toNat < size then s.failCmd c 1
  else
    (s.setStat fumPage statDumping true).dumpNext
      { pkg := c.pkg, page := c.page.toNat, addr, release := bit (argW c s 3) 0, first, upTo := s.fum.next,
        todo := held.map (·.logno), cur := none, pos := 32, count := 0, skipped := 0, badCrc := 0, time := s.ft }

def execFumDump (c : CmdIn) (s : State) : Host.Outcome State Fault Refusal :=
  finish (runCmd c 0x58 0x0001 .operator true (fumDumpCmd c) s)

/-! ### FUM_CLEAR and FUM_WRITE (R438) -/

/-- FUM_CLEAR: records of severity below S are removed, but for those under copy. -/
def fumClearCmd (c : CmdIn) (s : State) : State :=
  let lim := argFld c s 0 0 4
  if 8 < lim then s.badArg c
  else
    let keep := s.fum.log.filter fun e => decide (lim ≤ recordSev e.bytes) || e.copying
    let freed := decide (keep.length < s.fum.log.length)
    let s := s.modFum fun f => { f with log := keep }
    let s := if bit (argW c s 0) 8 then s.modFum fun f => { f with dropCount := 0, dropSev := 0 } else s
    (if freed then s.slotsFreed else s).ok c

def execFumClear (c : CmdIn) (s : State) : Host.Outcome State Fault Refusal :=
  finish (runCmd c 0x58 0x0002 .firmware true (fumClearCmd c) s)

/-- FUM_WRITE: a software record with SOURCE page 0x08, whose body is the arguments after ARG_0. -/
def fumWriteCmd (c : CmdIn) (s : State) : State :=
  let sev := argFld c s 0 0 3
  let code := argFld c s 0 16 16
  if 5 < sev then s.failCmd c 5
  else
    let body := (List.range (c.nargs.toNat - 1)).flatMap fun i => leBytes 4 (argW c s (i + 1)).toNat
    (s.logRec 0x08 (argFld c s 0 8 8) code sev false (Config.schema 0x08 code &&& 0xFE) body).ok c

def execFumWrite (c : CmdIn) (s : State) : Host.Outcome State Fault Refusal :=
  finish (runCmd c 0x58 0x0003 .operator true (fumWriteCmd c) s)

/-! ### SECDED (R425, R426) -/

/-- The code positions of data bits 0 to 63: 1 to 71 without the powers of two. -/
def dataPlaces : List Nat := (List.range' 1 71).filter fun p => decide (2 ^ p.log2 ≠ p)

/-- Check bit `j` of 64 data bits, for j = 0 to 6. -/
def checkBit (d : BitVec 72) (j : Nat) : Bool :=
  ((List.range 64).zip dataPlaces).foldl (fun x e => xor x (bit d e.1 && e.2.testBit j)) false

/-- The syndrome of a stored word, data in bits 63:0 and check bits from bit 64 on: bits 6:0 from c_0 to c_6, and
bit 7 when the overall parity is wrong. -/
def syndrome (w : BitVec 72) : Byte :=
  let low := (List.range 7).foldl (fun (y : Byte) j => setBit y j (xor (checkBit w j) (bit w (64 + j)))) 0
  let parity := (List.range 72).foldl (fun x i => xor x (bit w i)) false
  setBit low 7 parity

/-- What a read finds. -/
inductive EccResult where
  | clean | corrected | uncorrectable
deriving DecidableEq, Repr

/-- R425 and R426: the two copies of the valid bit, then the syndrome. -/
def eccRead (w : BitVec 72) (valid : BitVec 2) : EccResult :=
  if valid = 0 then .clean
  else if valid ≠ 3 then .uncorrectable
  else if bit (syndrome w) 7 then .corrected
  else if syndrome w = 0 then .clean
  else .uncorrectable

/-! ### Patrol and uncorrectable words (R427, R428, R44) -/

/-- The body of UE and CE_REPEAT records (R417). -/
def ueBody (u : ArrayUse) (syn : Byte) : List Byte := [u.array] ++ leBytes 3 u.word.toNat ++ [syn] ++ zeros 3

/-- An uncorrectable word: counts, the record, ERROR to who needed it, and what its holder loses (R428); one of the RoT's
own SRAM has it order a reset (R504). -/
def State.uncorrectable (s : State) (u : ArrayUse) (syn : Byte) (holds : WordHolds) : State :=
  let first := s.fum.ueCount = 0
  let s := s.modFum fun f => { f with
    ueCount := BitVec.ofNat 32 (satAdd 32 f.ueCount.toNat 1)
    ueLoc := if first then word (u.array.toNat * 2 ^ 24 + u.word.toNat) else f.ueLoc }
  let s := (s.setErr u.page errUe).logPlain u.page 0xFFF0 6 (ueBody u syn)
  let s := match u.req with
    | some q => (s.setErr u.page errAccess).respond q .error 0
    | none => s
  let s := match u.cmd with
    | some (pkg, n) => if (s.cmd pkg n).busy then s.complete pkg n stError 0 else s
    | none => s
  let s := if keyType u.page = 0x68 then s.rotOrder 3 else s
  match holds with
  | .plain => s
  | .record n => if (s.logHeld n).isSome then (s.logPlain fumPage 0x0002 6 (leBytes 4 n.toNat ++ zeros 4)).freeRecord n else s
  | .shadow e t => s.treeDisable e t

/-- The word as it is read: an injection that upset the page's latest written word shows in the first one read (R68). -/
def State.flipped (s : State) (page : Nat) (stored : BitVec 72) : BitVec 72 × State :=
  match s.fum.flips.find? fun e => decide (e.1 = page) with
  | some e =>
    let b := Config.flipBit page % 72
    let mask : BitVec 72 := (if e.2 = 1 then 1 else 3) <<< b ||| (if e.2 = 2 ∧ b = 71 then 1 else 0)
    (stored ^^^ mask, s.modFum fun f => { f with flips := f.flips.erase e, injNow := true })
  | none => (stored, s)

/-- PATROL_READ: one word is read, corrected and written back, or reported (R427). -/
def execPatrolRead (u : ArrayUse) (stored : BitVec 72) (valid : BitVec 2) (holds : WordHolds) (s : State) :
    Host.Outcome State Fault Refusal :=
  let key := u.array.toNat * 2 ^ 24 + u.word.toNat
  let again := Tab.read boolFalse s.fum.ceWords key
  let r := s.flipped u.page stored
  let stored := r.1
  let s := r.2
  let s' := s.modFum fun f => { f with ceWords := Tab.write boolFalse f.ceWords key (decide (eccRead stored valid = .corrected)) }
  finish (match eccRead stored valid with
    | .clean => s'
    | .corrected =>
      let s := (s'.modFum fun f => { f with ceCount := BitVec.ofNat 32 (satAdd 32 f.ceCount.toNat 1) }).setErr u.page errCe
      if again then s.logPlain u.page 0xFFF1 4 (ueBody u (syndrome stored)) else s
    | .uncorrectable => s'.uncorrectable u (syndrome stored) holds)

/-- ARRAY_ACCESS_TIMEOUT: the access is tried again once; a second time-out is an uncorrectable word, whose
syndrome no rule gives (R44). -/
def execArrayAccessTimeout (u : ArrayUse) (second : Bool) (holds : WordHolds) (s : State) : Host.Outcome State Fault Refusal :=
  finish (if second then (s.draw 8).2.uncorrectable u (s.draw 8).1 holds else s)

end Sys2Proof.Machine
end

