-- ==== Sys2Proof/Machine/Walk.lean ====
section
/-!
DEFINITION. The pages of each window and where they stand (R59, the window tables), and the words of the common header
(R65 to R69).
-/
namespace Sys2Proof.Machine

/-- Page numbers of the die window with their page types, CMD pages aside. -/
def dieTypes : List (Nat × Nat) :=
  [(0x00, 0x01), (0x01, 0x02), (0x02, 0x03), (0x03, 0x04)]

/-- The pages after the command pages. -/
def upperTypes : List (Nat × Nat) :=
  [(0x10, 0x10), (0x11, 0x11), (0x12, 0x12), (0x18, 0x18), (0x20, 0x20), (0x21, 0x21), (0x28, 0x28), (0x30, 0x30),
   (0x31, 0x31), (0x38, 0x38), (0x39, 0x39), (0x40, 0x40), (0x48, 0x48), (0x50, 0x50), (0x58, 0x58), (0x60, 0x60),
   (0x61, 0x61), (0x68, 0x68)]

/-- The 30 pages of the die window, rising: number and key. -/
def diePages : List (Nat × Nat) :=
  (dieTypes.map fun e => (e.1, pageKey e.2 0 0)) ++ ((List.range 8).map fun n => (8 + n, pageKey 0x08 n 0)) ++
    upperTypes.map fun e => (e.1, pageKey e.2 0 0)

/-- The package window: PKGDIR, and the package-scope copies of the die pages (R63). -/
def packagePages : List (Nat × Nat) :=
  diePages.map fun e => (e.1, if e.1 = 0 then pageKey 0x80 0 1 else e.2 + pageKey 0 0 1)

/-- The KXA-32 window, without the proxy windows. -/
def systemPages : List (Nat × Nat) :=
  (diePages.filter fun e => decide (e.1 ∉ [0x02, 0x20, 0x28, 0x48]) && decide (e.1 ≤ 0x31)) ++
    [(0x32, pageKey 0x31 1 0)] ++ (diePages.filter fun e => decide (0x32 < e.1) && decide (e.1 ≠ 0x48)) ++
    [(0x90, pageKey 0x90 0 0), (0x91, pageKey 0x91 0 0), (0x92, pageKey 0x92 0 0)] ++
    ((List.range 16).map fun e => (0xA0 + e, pageKey 0x20 e 0)) ++
    (List.range 32).flatMap fun d => (0x100 + 16 * d, pageKey 0x93 d 0) ::
      (List.range' 1 15).map fun k => (0x100 + 16 * d + k, pageKey 0x94 d (16 + k))

/-- The pages of the block's own window. -/
def State.ownPages (s : State) : List (Nat × Nat) := if s.isSystem then systemPages else diePages

/-! ### The common header (R65) -/

/-- Page types with PAGE_INJ (DESIGN CHOICE: the pages whose chapters give injection kinds). -/
def injTypes : List Nat := [0x10, 0x20, 0x28, 0x38, 0x39, 0x40, 0x48, 0x58, 0x60, 0x61, 0x91, 0x93]

/-- PAGE_ID: TYPE, INSTANCE and LEVEL. -/
def State.pageId (s : State) (key : Nat) : Word :=
  let ty := if keyType key = 0x94 then Config.summaryType.toNat else keyType key
  word (ty * 2 ^ 16 + keyInst key * 2 ^ 8 + if keyScope key = 1 then 5 else if s.isSystem then 6 else 4)

/-- PAGE_CAP. -/
def pageCap (sys : Bool) (key : Nat) : Word :=
  let t := keyType key
  let last := match t with
    | 0x01 => if sys then lastReg t else 0xB8 / 4
    | 0x03 => 0x4FC / 4
    | 0x31 => (0x100 + 0x40 * ((if sys then 18 else 9) - 1) + 0x2C) / 4
    | _ => lastReg t
  word ((if t = 0x03 then 2 ^ 31 else 0) + (if hasGuarded t then 2 ^ 30 else 0) + (if t ∈ injTypes then 2 ^ 29 else 0) +
    (if t = 0x08 then 2 ^ 28 else 0) + (if hasWide t then 2 ^ 27 else 0) + last % 4096)

/-- PAGE_NEXT of page number `n` in a window's list. -/
def pageNext (n : Nat) : List (Nat × Nat) → Word
  | [] => 0x80000000
  | (a, _) :: t => if n < a then word (a * 2 ^ 12) else pageNext n t

/-- PAGE_PRIV. -/
def privWord (key : Nat) (h : Header) : Word :=
  let f := pageFloor (keyType key)
  word (h.rd.toNat * 2 ^ 30 + h.wr.toNat * 2 ^ 28 + f.1.toNat * 2 ^ 22 + f.2.toNat * 2 ^ 20)

/-- The kinds of injection that a page supports (R68): the flipped bits of a written word, those its chapter gives, the
discarded frame at the link pages, and the withheld acknowledge at the concentrators. -/
def injKinds (ty : Nat) : List Nat :=
  (if ty ∈ injTypes then [1, 2] else []) ++
  match ty with
  | 0x10 => [3]
  | 0x20 => [0x10, 0x11] | 0x28 => [0x10, 0x11] | 0x40 => [0x10, 0x11] | 0x48 => [0x10, 0x11]
  | 0x38 => [4] | 0x91 => [4] | 0x93 => [4]
  | 0x39 => [0x10] | 0x58 => [0x10] | 0x60 => [0x10] | 0x61 => [0x10]
  | _ => []

/-- The PAGE_ERR bits of a page: the common ones, and its own from bit 16 on. -/
def errBits (ty : Nat) : Word :=
  let own : Nat := match ty with
    | 0x10 => 5 | 0x18 => 7 | 0x20 => 6 | 0x21 => 2 | 0x28 => 6 | 0x30 => 7 | 0x38 => 7 | 0x91 => 7 | 0x93 => 7 | 0x39 => 2
    | 0x40 => 7 | 0x48 => 11 | 0x50 => 4 | 0x58 => 5 | 0x60 => 6 | 0x61 => 5 | 0x68 => 5 | _ => 0
  word (0xFD + (2 ^ own - 1) * 2 ^ 16)

/-! ### Guarded configuration (R491, R434) -/

/-- One 8-byte entry: window address and value. -/
def cfgEntry (page off : Nat) (w : Word) : List Byte := leBytes 4 (page * 4096 + off) ++ leBytes 4 w.toNat

/-- The RWG registers of a page in the order of their offsets: PAGE_PRIV, PAGE_INJ where it exists, and its own. -/
def State.guardedOf (s : State) (page key : Nat) : List Byte :=
  let h := s.hdr key
  cfgEntry page 0x2C (privWord key h) ++ (if keyType key ∈ injTypes then cfgEntry page 0x30 h.inj else []) ++
    ((regRows (keyType key)).filter (·.guarded)).flatMap fun r =>
      (List.range r.count).flatMap fun i => cfgEntry page (r.off + i * r.stride) (s.reg key (r.off + i * r.stride))

/-- Every RWG register, in walk order. -/
def State.guardedImage (s : State) : List Byte := s.ownPages.flatMap fun e => s.guardedOf e.1 e.2

/-- A register that shows an entry of a table, or that item 0x12 or 0x13 holds: no word of item 0x14 (DESIGN CHOICE). -/
def cfgWindow (ty off : Nat) : Bool :=
  match ty with
  | 0x21 => decide (0x48 ≤ off)
  | 0x28 => (decide (0x60 ≤ off) && decide (off < 0x98)) || decide (off = 0xA8) || decide (0x100 ≤ off)
  | 0x38 => decide (off = 0x4C)
  | 0x90 => decide (off = 0x4C)
  | 0x91 => decide (off = 0x4C) || (decide (0x64 ≤ off) && decide (off < 0x70))
  | 0x40 => (decide (0x80 ≤ off) && decide (off < 0xA0)) || decide (off = 0xAC)
  | 0x48 => (decide (0xA0 ≤ off) && decide (off < 0xB0)) || decide (off = 0xB4) || (decide (0xC8 ≤ off) && decide (off < 0xE0)) ||
      decide (0x148 ≤ off)
  | _ => false

/-- The entries of item 0x14 for one page: its RW and RWG registers in the order of their offsets (R429, R434). -/
def State.configOf (s : State) (page key : Nat) : List Byte :=
  let h := s.hdr key
  let ty := keyType key
  cfgEntry page 0x10 h.ctrl ++ cfgEntry page 0x1C h.errMask ++ cfgEntry page 0x20 h.irqEn ++ cfgEntry page 0x2C (privWord key h) ++
    (if ty ∈ injTypes then cfgEntry page 0x30 h.inj else []) ++
    (List.range' 16 (lastReg ty)).flatMap fun i =>
      match regAt ty (4 * i) with
      | some (r, _, w) =>
        if wordOf r.rw w ≠ 0 ∧ cfgWindow ty (4 * i) = false then cfgEntry page (4 * i) (s.reg key (4 * i)) else []
      | none => []

/-- Every RW and RWG register, in walk order. -/
def State.configWords (s : State) : List Byte := s.ownPages.flatMap fun e => s.configOf e.1 e.2

end Sys2Proof.Machine
end

