-- ==== Sys2Proof/Machine/Mirror.lean ====
section
/-!
DEFINITION. Mirroring toward the peer, replicas held for others, and STATE_PULL (R429 to R433).
-/
namespace Sys2Proof.Machine

/-! ### The digest table (R429 item 0x09) -/

/-- The digest that ends an image. -/
def imageDigest (img : List Byte) : List Byte := img.drop (img.length - 48)

/-- An image's entry, where there is an image. -/
def digestOf (id copy engine act : Nat) (img : List Byte) : List DigestEntry :=
  if img = [] then [] else [{ id, copy, engine, act, digest := imageDigest img }]

/-- The header of a KXKT or KXCF image after its MAGIC: the manual gives no values. -/
opaque Config.imageHeader (magic i : Nat) : Byte

def imageHead (magic : Nat) : List Byte := leBytes 4 magic ++ (List.range 60).map (Config.imageHeader magic)

/-- An image with its digest. -/
def sealed (b : List Byte) : List Byte := b ++ sha384 b

def kernelBytes (k : Kernel) : List Byte :=
  bytesOfWords [k.absTol, k.relTol, k.lo, k.hi, k.limits, k.ctl, k.lambda, k.escape]

/-- Item 0x13: the kernel table, signatures and registrations as a KXKT image (R434). -/
def State.kernelImage (s : State) : List Byte :=
  sealed (imageHead 0x544B584B ++
    ((List.range' 1 255).flatMap fun k => kernelBytes (Tab.read Kernel.reset s.check.kernels k)) ++
    ((List.range 16).flatMap fun i => (List.range 5).flatMap fun j => leBytes 4 (s.reg (pg 0x28) (0x100 + 32 * i + 4 * j)).toNat) ++
    ((List.range 256).flatMap fun i => leBytes 4 (Tab.read wordZero s.check.regs i).toNat))

/-- Item 0x12: a copy of the feature table in canonical form (R187). -/
def ftabImage (f : FtabCopy) : List Byte := if f.valid then sealed (ftabCanonical f) else []

/-- Item 0x14: the configuration as a KXCF image (R434). -/
def State.configImage (s : State) : List Byte := sealed (imageHead 0x4643584B ++ s.configWords)

/-- The copies of an item: copy, engine, ACT and image. -/
def State.itemCopies (s : State) (item : Nat) : List (Nat × Nat × Nat × List Byte) :=
  if item = 0x10 then
    let r := s.red 0
    [(0, 0, r.act.toNat, r.active.image), (1, 0, r.act.toNat, r.inactive.image)]
  else if item = 0x11 then
    (List.range s.engineCount).flatMap fun e =>
      let f := s.engine e
      [(0, e, f.act.toNat, f.active.image), (1, e, f.act.toNat, f.inactive.image)]
  else if item = 0x12 then
    let f := s.forest.ftab
    [(0, 0, f.act.toNat, ftabImage f.active), (1, 0, f.act.toNat, ftabImage f.inactive)]
  else if item = 0x13 then (if s.isDie then [(0, 0, 0, s.kernelImage)] else [])
  else if item = 0x14 then [(0, 0, 0, s.configImage)]
  else []

/-- This node's digest table: pulled from the peer, until a copy changes. -/
def State.digestTable (s : State) : List DigestEntry :=
  let own := [0x10, 0x11, 0x12, 0x13, 0x14].flatMap fun i => (s.itemCopies i).flatMap fun c => digestOf i c.1 c.2.1 c.2.2.1 c.2.2.2
  match s.fum.pulled with
  | some (g, l) => if g = Tab.read natZero s.fum.gens 0x09 then l else own
  | none => own

/-! ### Items (R429) -/

/-- An item of this node's state. -/
def State.mirrorItem (s : State) (item : Nat) : MirrorItem :=
  let sc := if s.isHead then 1 else 0
  match item with
  | 1 => .totals (s.samp.probes.map fun e => (e.1, { t := e.2.t, inSum := e.2.inSum })) (s.samp.clusters.map fun e => (e.1, e.2.t))
  | 2 => .slots ((s.red 0).wins.map fun w =>
      { slot := w.slot, gen := w.window, win := w, tracker := Tab.read (fun _ => none) (s.red 0).trackers w.slot })
  | 3 => .servo s.time.servo s.time.rate s.time.base s.time.integ s.time.offset s.time.mpd
  | 4 => .liveness s.svc.watch s.svc.claims
  | 5 => .merge (s.red sc).wins (s.red sc).emitted
  | 6 => .steps s.svc.wins
  | 7 => .jobs s.svc.jobs
  | 8 => .spares s.check.spare
  | _ => .digests s.digestTable

/-! ### The peer (R430, R432) -/

/-- The peer that R430 names now: the next eligible die hub above, or the twin. -/
def State.nextPeer (s : State) : Option (BitVec 16) :=
  if s.isSystem then
    if s.linkUp 34 then some (nodeOf (if s.straps.cascade then 3 else 2) s.links.tray 0 (if s.straps.twinSel then 0 else 1)) else none
  else
    let me := s.straps.dieIdx.toNat
    let good (d : Nat) : Bool :=
      let m := Tab.read Member.none s.pkg.members d
      m.present && m.bistOk && s.linkUp (s.diePort d)
    (((List.range' 1 7).map fun i => (me + i) % 8).find? good).map fun d => nodeOf 0 s.links.tray s.links.down d

/-- The port that leads to the peer. -/
def State.peerPort (s : State) (n : BitVec 16) : Nat := if s.isSystem then 34 else s.diePort (n.toNat % 8)

/-- Choose the peer; a new one gets a FULL copy of every item (R430, R432). -/
def State.peerCheck (s : State) : State :=
  let n := s.nextPeer
  if n = s.fum.peer then s
  else s.modFum fun f => { f with
    peer := n
    mirror := if n.isSome then .syncing else if f.mirror = .lost then .lost else .none
    full := if n.isSome then List.range' 1 9 else []
    unacked := [] }

/-- A pull ends. -/
def State.dropPull (s : State) (p : Pull) : State := s.modFum fun f => { f with pulls := f.pulls.erase p }

/-- The peer is taken as lost (R432): pulls from it end, and the next peer is chosen. -/
def State.mirrorLost (s : State) : State :=
  match s.fum.peer with
  | none => s
  | some n =>
    let s := (s.setErr fumPage errMirrorLost).logPlain fumPage 0x0005 5 (leBytes 4 n.toNat ++ zeros 4)
    let left := s.fum.restores.filter fun r => !s.fum.pulls.any fun p => decide (p.pkg = r.pkg) && decide (p.page = r.page)
    let s := s.fum.pulls.foldl (fun s p => (s.dropPull p).complete p.pkg p.page stError 7) s
    (s.modFum fun f => { f with peer := none, mirror := .lost, full := [], unacked := [], restores := left }).peerCheck

/-- Mirror frames toward the peer that the link has not acknowledged (R431). -/
def State.mirrorLeft (s : State) : Nat :=
  match s.fum.peer with
  | none => 0
  | some n =>
    let p := s.peerPort n
    (s.mbox.filter fun e => decide (e.1 = p) && decide (e.2.typ = 0x22)).length +
    ((s.queue p 2).filter fun q => decide (q.typ = 0x22)).length +
    ((s.portChans p).map fun c => ((s.chan c).replay.filter fun x => decide (x.frame.typ = 0x22)).length).sum

/-- Frames that the link has acknowledged leave the list; merges they covered are acknowledged to the children, and
a completed FULL copy makes the mirror current (R146, R431, R432). -/
def State.mirrorAcked (s : State) : State :=
  let n := s.fum.unacked.length - s.mirrorLeft
  let gone := s.fum.unacked.take n
  let s := s.modFum fun f => { f with unacked := f.unacked.drop n }
  let s := gone.foldl (fun s u => if u.1 = 5 then (s.redAcks 0 u.2.1).redAcks 1 u.2.1 else s) s
  if s.fum.mirror = .syncing ∧ s.fum.full = [] ∧ s.fum.unacked = [] then s.modFum fun f => { f with mirror := .current } else s

/-- KX_FUM_MLAG: the age in ns of the oldest unacknowledged update, as far as the link has reported. -/
def State.mirrorLag (s : State) : Nat :=
  match s.fum.unacked with
  | [] => 0
  | u :: _ => (s.now - u.2.2) / 65536

/-- The mirror is CURRENT (R431). -/
def State.mirrorCurrent (s : State) : Bool :=
  decide (s.fum.mirror = .current) && decide (s.mirrorLag ≤ s.regFld fumPage 0x84 0 16)

/-- KX_FUM_MSTAT: CURRENT reads LAGGING while the lag is above CURRENT_NS. -/
def State.mirrorStat (s : State) : Word :=
  let st := if s.fum.mirror = .current ∧ s.mirrorCurrent = false then 3 else s.fum.mirror.code
  word (st * 2 ^ 29 + (s.fum.peer.getD 0).toNat)

/-! ### Sending (R431) -/

/-- The frames of one item: item, FULL, GEN and bytes in pieces that fit a frame. -/
def mirrorFrames (item : Nat) (full : Bool) (gen : Nat) (data : List Byte) : List (List Byte) :=
  let n := max 1 (ceilDiv data.length 1004)
  (List.range n).map fun i =>
    [BitVec.ofNat 8 item, BitVec.ofNat 8 ((if full then 1 else 0) + if i + 1 = n then 2 else 0), 0, 0] ++ leBytes 8 gen ++
      leBytes 4 (1004 * i) ++ (data.drop (1004 * i)).take 1004

/-- Send frames to the peer; each waits for the link's acknowledgement. -/
def State.mirrorSend (s : State) (item gen : Nat) (frames : List (List Byte)) : State :=
  let s := frames.foldl (fun s b => s.sendTyp 0x22 .peer b) s
  s.modFum fun f => { f with unacked := f.unacked ++ frames.map fun _ => (item, gen, s.now) }

/-- MIRROR_UPDATE: an item that has changed, or of which a FULL copy is owed, is sent (R429, R431, R432). -/
def execMirrorUpdate (item : Nat) (s : State) : Host.Outcome State Fault Refusal :=
  let count := Tab.read natZero s.fum.gens item
  let full := s.fum.full.contains item
  finish (
    if !s.mirrors || item < 1 || 9 < item || (!full && decide (count = Tab.read natZero s.fum.sent item)) then s
    else
      let gen := if item = 2 then s.fum.lastWin else count
      let s := s.modFum fun f => { f with sent := Tab.write natZero f.sent item count, full := f.full.erase item }
      s.mirrorSend item (if item = 5 then count else gen) (mirrorFrames item full gen (Config.mirrorBytes (s.mirrorItem item))))

/-- A slow tick: item 0x01 is due every TOT_US (R429). -/
def State.mirrorTick (s : State) : State :=
  let n := s.fum.totTicks + 1
  if max 1 (s.regFld fumPage 0x78 0 16) ≤ n then (s.modFum fun f => { f with totTicks := 0 }).touchItem 0x01
  else s.modFum fun f => { f with totTicks := n }

/-! ### Installing what a pull brings (R433) -/

/-- Replace one window by the replica's, where its GEN is the open window's. -/
def State.installSlot (s : State) (x : SlotState) : State :=
  match s.redWin 0 x.slot x.gen with
  | some _ => (s.setWin 0 x.win).modRed 0 fun n => { n with trackers := Tab.write (fun _ => none) n.trackers x.slot x.tracker }
  | none => s

/-- Mark the open windows of the other slots STALE. -/
def State.staleSlots (s : State) (l : List SlotState) : Nat × State :=
  let bad := (s.red 0).wins.filter fun w => !l.any fun x => decide (x.slot = w.slot) && decide (x.gen = w.window)
  (bad.length, bad.foldl (fun s w => s.setWin 0 { w with flags := setBit w.flags flStale true }) s)

/-- Install an item: the slots left STALE, and the state (R433). -/
def State.install (s : State) : MirrorItem → Nat × State
  | .totals ps cs =>
    let s := (List.range s.samp.units).foldl (fun s u =>
      let v := Tab.read ProbeTotals.zero ps u
      s.modProbe u fun p => { p with t := v.t, mirror := v.t, inSum := v.inSum, inSumMirror := v.inSum, lost := true }) s
    (0, (List.range 256).foldl (fun s c =>
      let v := Tab.read (fun _ => []) cs c
      s.modCluster c fun x => { x with t := v, mirror := v }) s)
  | .slots l =>
    let r := s.staleSlots l
    (r.1, l.foldl State.installSlot r.2)
  | .servo _ rate _ _ _ _ =>
    (0, if s.time.servo = .free ∨ s.time.servo = .acquire then { s with time := { s.time with rate } } else s)
  | .liveness watch claims => (0, { s with svc := { s.svc with watch, claims } })
  | .merge wins emitted => (0, s.modRed (if s.isHead then 1 else 0) fun n => { n with wins, emitted })
  | .steps wins => (0, { s with svc := { s.svc with wins } })
  | .jobs jobs => (0, { s with svc := { s.svc with jobs } })
  | .spares l => (0, { s with check := { s.check with spare := l } })
  | .digests l => (0, s.modFum fun f => { f with pulled := some (Tab.read natZero f.gens 0x09, l) })

/-- A whole item has come for the pulls that asked for it; a pull with nothing left completes. A restore's digest
table is kept, not installed: the restore goes on in its own chapter. -/
def State.pullTake (s : State) (item : Nat) (data : List Byte) : State :=
  let b := 2 ^ (item - 1)
  let asks (p : Pull) : Bool := p.items.testBit (item - 1)
  let r := match Config.mirrorItem item data with
    | some x => if s.fum.pulls.any (fun p => asks p && !p.restore) then s.install x else (0, s)
    | none => (0, s)
  let step (s : State) (p : Pull) : State :=
    if !asks p || p.restore then s
    else
      let p' : Pull := { p with items := p.items - b, stale := p.stale + r.1 }
      let s := s.dropPull p
      if p'.items = 0 then (s.setRes p.pkg p.page 1 p'.stale).complete p.pkg p.page stOk 0
      else s.modFum fun f => { f with pulls := f.pulls ++ [p'] }
  r.2.fum.pulls.foldl step r.2

/-! ### Receiving (R431 to R433) -/

def replicaKey (src : BitVec 16) (item : Nat) : Nat := src.toNat * 16 + item

/-- Bytes written at an offset of a replica. -/
def patch (old : List Byte) (off : Nat) (data : List Byte) : List Byte :=
  padTo off old ++ data ++ old.drop (off + data.length)

/-- A frame of an update or of a whole copy enters the replica of its sender; the whole copy of an item that a pull
asked for is this node's own state. Answers what the pull has got. -/
def State.mirrorTake (s : State) (src : BitVec 16) (bytes : List Byte) : Option (Nat × List Byte) × State :=
  let item := leAt bytes 0 1
  let flags := leAt bytes 1 1
  let off := leAt bytes 12 4
  let data := bytes.drop 16
  let k := replicaKey src item
  let gen := leAt bytes 4 8
  let mine := decide (s.fum.peer = some src) && s.fum.pulls.any fun p => p.items.testBit (item - 1)
  if item < 1 ∨ 9 < item then (none, s)
  else if flags.testBit 0 then
    let whole := patch (if off = 0 then [] else Tab.read noBytes s.fum.parts k) off data
    if !flags.testBit 1 then (none, s.modFum fun f => { f with parts := Tab.write noBytes f.parts k whole })
    else
      let s := s.modFum fun f => { f with parts := Tab.write noBytes f.parts k [] }
      if mine then (some (item, whole), s)
      else (none, s.modFum fun f => { f with
        replica := Tab.write noBytes f.replica k whole, replicaGen := Tab.write natZero f.replicaGen k gen })
  else
    let s := s.modFum fun f => { f with
      replica := Tab.write noBytes f.replica k (patch (Tab.read noBytes f.replica k) off data)
      replicaGen := Tab.write natZero f.replicaGen k gen }
    let owed := s.mbox.any fun e => decide (e.2.typ = 0x22) && decide (e.2.dest = .node src)
    (none, if owed then s.sendTyp 0x22 (.node src) bytes else s)

/-- At a close: replicas asked for are taken and sent as FULL frames (R433). -/
def State.answerPulls (s : State) : State :=
  let one (s : State) (a : BitVec 16 × Nat) : State :=
    ((List.range' 1 9).filter fun i => a.2.testBit (i - 1)).foldl (fun s i =>
      (mirrorFrames i true (Tab.read natZero s.fum.replicaGen (replicaKey a.1 i))
        (Tab.read noBytes s.fum.replica (replicaKey a.1 i))).foldl
        (fun s b => s.sendTyp 0x22 (.node a.1) b) s) s
  (s.fum.asks.foldl one s).modFum fun f => { f with asks := [] }

/-- STATE_PULL (R433). -/
def statePullCmd (c : CmdIn) (s : State) : State :=
  let items := argFld c s 0 0 9
  match s.fum.peer with
  | none => s.failCmd c 7
  | some _ =>
    if items = 0 then s.ok c
    else
      let s := s.modFum fun f => { f with pulls := f.pulls ++
        [{ items, pkg := c.pkg, page := c.page.toNat, stale := 0, restore := false }] }
      (s.mirrorSend 0 0 [Config.pullAsk items]).waitFor c (.event 14 0)

def execStatePull (c : CmdIn) (s : State) : Host.Outcome State Fault Refusal :=
  finish (runCmd c 0x58 0x0012 .firmware true (statePullCmd c) s)

end Sys2Proof.Machine
end

