-- ==== Sys2Proof/Machine/Trace.lean ====
section
/-!
DEFINITION. Trace: packets, the router, its rings and the funnel, sessions and triggers (R439, R441 to R457, R475).
-/
namespace Sys2Proof.Machine

def tracePage : Nat := pg 0x60
def errTraceHold : Nat := 17
def errTraceDrop : Nat := 18
def errStallLimit : Nat := 19
def errAuthExpired : Nat := 20
def errAuthLost : Nat := 21

def State.modTrace (s : State) (f : Trace → Trace) : State := { s with trace := f s.trace }

/-! ### Packets (R441, R442) -/

def srcRouter : BitVec 16 := 0xE000

/-- The kind of a SRC. -/
def srcKind (src : BitVec 16) : Nat := src.toNat / 2 ^ 13

/-- Whole nanoseconds from `base` to `t`. -/
def deltaNs (base t : FT) : Int := floorDiv ((t : Int) - base) 65536

/-- A packet's bytes, with DT counted from `base`. -/
def packetBytes (p : TPacket) (base : FT) : List Byte :=
  let body := p.body ++ zeros ((4 - p.body.length % 4) % 4)
  [BitVec.ofNat 8 p.typ, BitVec.ofNat 8 ((8 + body.length) / 4)] ++ leBytes 2 p.src.toNat ++
    leBytes 4 (unsgn 32 (deltaNs base p.time)) ++ body

/-- A packet of the router itself. -/
def routerPacket (typ : Nat) (time : FT) (body : List Byte) : TPacket :=
  { typ, src := srcRouter, time, body, job := 0, node := none }

/-- A SYNC: instant, CAUSE, packets since the previous SYNC. -/
def syncPacket (time : FT) (cause since : Nat) : TPacket :=
  routerPacket 1 time (ftBytes time ++ [BitVec.ofNat 8 cause, 0] ++ leBytes 4 (min since (2 ^ 32 - 1)))

/-- A DROP: packets lost, reason. -/
def dropPacket (time : FT) (lost why : Nat) : TPacket :=
  routerPacket 3 time (leBytes 4 (min lost (2 ^ 32 - 1)) ++ [BitVec.ofNat 8 why, 0, 0, 0])

def originPacket (time : FT) (node : BitVec 16) : TPacket := routerPacket 9 time (leBytes 2 node.toNat ++ zeros 6)

/-! ### Which ring takes what (R439, R446, R449 to R451) -/

def State.ringCfg (s : State) (r : Nat) : Word := s.reg tracePage (0x100 + 0x20 * r)
def State.tring (s : State) (r : Nat) : TRing := Tab.read TRing.reset s.trace.rings r
def State.modRing (s : State) (r : Nat) (f : TRing → TRing) : State :=
  s.modTrace fun t => { t with rings := Tab.modify TRing.reset t.rings r f }

/-- The number under which the funnel's SYNC base is kept. -/
def funnelRing : Nat := 4

/-- The held token names a source bit and a destination bit. -/
def State.authorised (s : State) (source dest : Nat) : Bool :=
  match s.trace.token with
  | some t => bit t.sources source && bit t.dests dest
  | none => false

/-- The source bit of a PRIV packet. -/
def privSource (src : BitVec 16) : Nat :=
  let p := src.toNat % 256
  if p = 0x40 then 0 else if p = 0x48 then 1 else 2

/-- Ring `r` takes the packet. -/
def State.ringTakes (s : State) (r : Nat) (p : TPacket) : Bool :=
  let cfg := s.ringCfg r
  let k := srcKind p.src
  let job := fld cfg 0 16
  let jobs :=
    decide (job = 0) || decide (k = 7) ||
    ((decide (k = 0) || decide (k = 3)) && p.node.isNone && decide (p.job.toNat = job)) ||
    (decide (k = 0) && p.node.isNone && s.authorised 3 r)
  bit cfg 31 && (decide (k = 7) || (bit cfg (20 + k) && s.trace.run)) && jobs &&
    (decide (k ≠ 2) || (decide (job = 0) && s.authorised (privSource p.src) r))

def State.funnelTakes (s : State) (p : TPacket) : Bool :=
  decide (srcKind p.src = 2) && s.trace.run && s.authorised (privSource p.src) 4

/-! ### TRIG_OUT (R454) -/

/-- A source event of TRIG_OUT. -/
def State.trigOut (s : State) (code : Nat) : State :=
  let w := s.reg tracePage 0x94
  s.modTrace fun t => { t with outDue := t.outDue ++ (List.range 4).filter fun n => decide (fld w (8 * n) 4 = code) }

/-! ### Writing into a ring (R443, R447, R448) -/

/-- A packet is dropped at a ring. -/
def State.ringDrop (s : State) (r why : Nat) : State :=
  (((s.modRing r fun x => { x with lost := x.lost + 1, why }).bump tracePage (0x118 + 0x20 * r) 1).setErr
    tracePage errTraceDrop).trigOut 7

/-- What precedes a packet in a ring: SYNC after wake and DROP, or DROP and SYNC, as they are owed; a SYNC where DT
would leave its range; ORIGIN where the node changes. The packets, and the base from then on. -/
def ringLead (now : FT) (x : TRing) (p : TPacket) : List TPacket × FT :=
  let wake := decide (x.owed = some 2)
  let drop := if x.lost = 0 then [] else [dropPacket now x.lost x.why]
  let far := match x.base with
    | none => true
    | some b => decide (deltaNs b p.time < -2 ^ 31) || decide (2 ^ 31 ≤ deltaNs b p.time)
  let cause : Option Nat :=
    if wake then some 2 else if x.lost ≠ 0 then some 3
    else match x.owed, x.base with
    | some c, _ => some c
    | none, none => some 0
    | none, some _ => if far then some 5 else none
  let sync := match cause with
    | some c => [syncPacket now c x.since]
    | none => []
  let origin := match p.node with
    | some n => if x.node = some n ∧ cause = none then [] else [originPacket now n]
    | none => []
  ((if wake then sync ++ drop else drop ++ sync) ++ origin, if cause.isSome then now else x.base.getD now)

/-- The bytes of packets: DT of each counted from the base that holds at its place. -/
def leadBytes (old new : FT) : List TPacket → List Byte
  | [] => []
  | p :: ps => if p.typ = 1 then packetBytes p new ++ leadBytes new new ps else packetBytes p old ++ leadBytes old new ps

/-- The region of a unit packet of this die (R408). -/
def packetRegion (p : TPacket) : Option Nat :=
  if srcKind p.src = 0 ∧ p.node.isNone = true then some (regionOf (clusterOf (p.src.toNat % 2 ^ 13))) else none

/-- Put packets into ring `r` where they fit: into the host ring, upward in TRACE frames, or both. False where they
do not fit. An injection of KIND 0x10 fails the next write of ring 0 (R475). -/
def State.ringWrite (s : State) (r : Nat) (p : TPacket) : Bool × State :=
  let x := s.tring r
  let lead := ringLead s.now x p
  let bytes := leadBytes (x.base.getD s.now) lead.2 (lead.1 ++ [p])
  let host := bit (s.ringCfg r) 28
  if host && !s.ringRoom (traceRing r) bytes.length then (false, s)
  else
    let inj := if host && decide (r = 0) then s.injTake tracePage 0x10 else (false, s)
    let s := inj.2
    if inj.1 then (true, s.ringDrop r 3)
    else
      let s := if host then s.ringPutOf (packetRegion p) (traceRing r) bytes else s
      let s := if bit (s.ringCfg r) 29 then
          s.sendTyp 0x60 .up (leBytes 2 (lead.1.length + 1) ++ [0, 0] ++ ftBytes lead.2 ++
            (lead.1 ++ [p]).flatMap fun q => packetBytes q lead.2)
        else s
      let synced := lead.1.any fun q => decide (q.typ = 1)
      (true, s.modRing r fun x => { x with
        base := some lead.2
        since := (if synced then 0 else x.since) + 1
        lost := 0, owed := none, node := if p.node.isSome then p.node else if synced then none else x.node })

/-- Append to the funnel; it overwrites its oldest packets (R450). -/
def funnelFit (cap : Nat) : Nat → List (List Byte) → List (List Byte) × Nat
  | 0, l => (l, 0)
  | fuel + 1, l =>
    if (l.map List.length).sum ≤ cap then (l, 0)
    else
      let r := funnelFit cap fuel (l.drop 1)
      (r.1, r.2 + 1)

def State.funnelWrite (s : State) (p : TPacket) : State :=
  let x := s.tring funnelRing
  let lead := ringLead s.now x p
  let all := (lead.1 ++ [p]).map fun q => packetBytes q (if q.typ = 1 then lead.2 else x.base.getD lead.2)
  let l := s.trace.funnel ++ all
  let r := funnelFit 65536 l.length l
  (s.modTrace fun t => { t with funnel := r.1, overwr := satAdd 16 t.overwr r.2 }).modRing funnelRing fun x =>
    { x with base := some lead.2, since := x.since + 1, lost := 0, owed := none }

/-- Offer a packet to ring `r`. A die-hub source of a STALL ring waits where it does not fit; else it is dropped. -/
def State.ringOffer (s : State) (p : TPacket) (r : Nat) : State :=
  if s.ringTakes r p then
    let w := s.ringWrite r p
    if w.1 then w.2
    else if bit (s.ringCfg r) 30 && p.node.isNone && decide (srcKind p.src ≠ 0) && (s.tring r).wait.isNone then
      s.modRing r fun x => { x with wait := some (p, s.now) }
    else s.ringDrop r 0
  else s

/-- A packet that waits at ring `r` is written once there is room. -/
def State.ringRetry (s : State) (r : Nat) : State :=
  match (s.tring r).wait with
  | none => s
  | some (p, _) =>
    let w := s.ringWrite r p
    if w.1 then w.2.modRing r fun x => { x with wait := none } else s

/-- Place a packet: into the rings and the funnel that take it; it counts toward STOP_COUNT (R449). -/
def State.placePacket (s : State) (p : TPacket) : State :=
  let taken := (List.range 4).any (fun r => s.ringTakes r p) || s.funnelTakes p
  let s := (List.range 4).foldl (fun s r => s.ringOffer p r) s
  let s := if s.funnelTakes p then s.funnelWrite p else s
  if taken && s.trace.run then
    let n := s.trace.written + 1
    s.modTrace fun t => { t with
      written := n
      stopDue := t.stopDue || (decide (s.regFld tracePage 0x44 26 3 = 4) && decide ((s.reg tracePage 0x64).toNat ≤ n)) }
  else s

/-- A source is stalled: a ring that would take its packet holds one already. -/
def State.stalled (s : State) (p : TPacket) : Bool :=
  (List.range 4).any fun r => (s.tring r).wait.isSome && s.ringTakes r p

/-! ### Probe latches (R445) -/

def State.tlatch (s : State) (p : Nat) : TLatch := Tab.read TLatch.reset s.trace.latches p
def State.modLatch (s : State) (p : Nat) (f : TLatch → TLatch) : State :=
  s.modTrace fun t => { t with latches := Tab.modify TLatch.reset t.latches p f }

/-- The probe is in the range of KX_TRACE_UNITS and UMODE.EN is 1. -/
def State.traced (s : State) (p : Nat) : Bool :=
  let w := s.reg tracePage 0x68
  bit (s.reg tracePage 0x6C) 0 && decide (fld w 16 13 ≤ p) && decide (p < fld w 16 13 + fld w 0 14)

/-- A STATE packet enters the latch; a full one loses it, or holds the unit by its STOP gate. -/
def State.latchPacket (s : State) (p : Nat) (q : TPacket) : State :=
  let x := s.tlatch p
  let hold := bit (s.reg tracePage 0x6C) 1 && decide (s.bpwr.state ≠ .doze)
  if x.latch.length < 2 then s.modLatch p fun x => { x with latch := x.latch ++ [q] }
  else if hold && x.held.isNone then
    ((s.modLatch p fun x => { x with held := some q }).raiseGate p .stop).setErr tracePage errTraceHold
  else s.modLatch p fun x => { x with lost := x.lost + 1 }

/-- An edge of a traced unit, before its STATE is taken over: a change of STATE ends the run in progress. -/
def State.traceEdge (s : State) (p : Nat) (st : UnitState) (reason : BitVec 3) : State :=
  let old := (s.probe p).ustate
  let x := s.tlatch p
  if !s.traced p then s
  else if old = st then s.modLatch p fun x => { x with run := x.run + 1 }
  else if x.run < max 1 (s.regFld tracePage 0x6C 16 16) then
    s.modLatch p fun x => { x with run := 1, short := satAdd 16 x.short 1 }
  else
    let q : TPacket :=
      { typ := 5, src := BitVec.ofNat 16 (p % 2 ^ 13), time := s.ft, job := (s.probe p).job, node := none,
        body := [BitVec.ofNat 8 (st.code + 4 * reason.toNat), 0] ++ leBytes 2 x.short ++ leBytes 4 (min x.run (2 ^ 32 - 1)) }
    (s.modLatch p fun x => { x with run := 1, short := 0 }).latchPacket p q

/-- The oldest packet leaves a latch, stamped on arrival at its region concentrator and preceded by a DROP where
packets were lost; a unit held for trace goes on once the latch has room, unless a Snuff holds it (R444, R445, R461). -/
def State.latchOut (s : State) (p : Nat) : State :=
  match (s.tlatch p).latch with
  | [] => s
  | q :: qs =>
    let x := s.tlatch p
    let drop : List TPacket := if x.lost = 0 then [] else
      [{ dropPacket s.ft x.lost 4 with src := BitVec.ofNat 16 (p % 2 ^ 13), job := q.job }]
    let s := s.modLatch p fun x => { x with
      latch := qs ++ x.held.toList, held := none, lost := 0 }
    let s := if x.held.isSome ∧ s.snuff.state ≠ .cut then s.lowerGate p .stop else s
    let s := drop.foldl State.placePacket s
    s.placePacket { q with time := s.ft }

/-- TRACE_PACKET_PLACE: the oldest packet of a source that is not stalled, or of a probe's latch, is placed (R444,
R446). -/
def execTracePacketPlace (probe : Option Nat) (s : State) : Host.Outcome State Fault Refusal :=
  let s := (List.range 4).foldl State.ringRetry s
  finish (match probe with
    | some p => if s.bpwr.state = .doze then s else s.latchOut p
    | none =>
      match s.trace.staged.find? fun p => !s.stalled p with
      | some p => (s.modTrace fun t => { t with staged := t.staged.erase p }).placePacket p
      | none => s)

/-! ### SYNC (R443) -/

/-- Write a SYNC into a ring, or owe it where there is no room. -/
def State.ringSync (s : State) (cause r : Nat) : State :=
  if bit (s.ringCfg r) 31 then
    let x := s.tring r
    let b := packetBytes (syncPacket s.now cause x.since) s.now
    let host := bit (s.ringCfg r) 28
    if host && (!s.ringRoom (traceRing r) b.length || decide (x.lost ≠ 0)) then s.modRing r fun x => { x with owed := some cause }
    else
      let s := if host then s.ringPut (traceRing r) b else s
      let s := if bit (s.ringCfg r) 29 then s.sendTyp 0x60 .up (leBytes 2 1 ++ [0, 0] ++ ftBytes s.now ++ b) else s
      s.modRing r fun x => { x with base := some s.now, since := 0, owed := none, node := none }
  else s

/-- A SYNC of one CAUSE into every enabled ring. -/
def State.syncAll (s : State) (cause : Nat) : State := (List.range 4).foldl (fun s r => s.ringSync cause r) s

/-- TRACE_SYNC_TIMER: the periodic SYNC, every SYNC_MS. -/
def execTraceSyncTimer (s : State) : Host.Outcome State Fault Refusal :=
  let due := s.trace.syncAt + max 1 (s.regFld tracePage 0x40 16 10) * ms
  let s := s.advanceTo due
  finish ((s.syncAll 1).modTrace fun t => { t with syncAt := due })

/-- TRACE_STALL_LIMIT: a source has waited longer than STALL_US at a ring; its packet is dropped (R447). -/
def execTraceStallLimit (ring : Nat) (s : State) : Host.Outcome State Fault Refusal :=
  finish (match (s.tring ring).wait with
    | none => s
    | some (_, since) =>
      if 3 < ring then s
      else
        let s := s.advanceTo (since + s.regFld tracePage 0x40 0 16 * us)
        ((s.modRing ring fun x => { x with wait := none }).ringDrop ring 1).setErr tracePage errStallLimit)

/-! ### Remote packets (R448) -/

/-- The packets of a TRACE frame: each with its instant. -/
def remotePackets (node : BitVec 16) (base : FT) : Nat → List Byte → List TPacket
  | 0, _ => []
  | n + 1, b =>
    let len := 4 * leAt b 1 1
    if len < 8 ∨ 64 < len ∨ b.length < len then []
    else
      { typ := leAt b 0 1, src := BitVec.ofNat 16 (leAt b 2 2), job := 0, node := some node,
        time := (base + leIntAt b 4 4 * 65536).toNat, body := (b.take len).drop 8 } :: remotePackets node base n (b.drop len)

/-- TRACE: the packets of a received frame are rebased and written to the rings that take them. -/
def execTrace (src : BitVec 16) (bytes : List Byte) (s : State) : Host.Outcome State Fault Refusal :=
  finish ((remotePackets src (leAt bytes 4 10) (leAt bytes 0 2) (bytes.drop 14)).foldl State.placePacket s)

/-! ### Sessions (R449) -/

def State.sessionStart (s : State) : State :=
  if s.trace.run then s
  else
    let s := (s.modTrace fun t => { t with run := true, written := 0, startDue := false, stopDue := false }).setStat tracePage 16 true
    (s.syncAll 0).trigOut 1

def State.sessionStop (s : State) : State :=
  if s.trace.run then
    ((s.modTrace fun t => { t with run := false, startDue := false, stopDue := false }).setStat tracePage 16 false).trigOut 2
  else s



/-- TRACE_SESSION_START: a start condition has come, or T_START comes. -/
def execTraceSessionStart (s : State) : Host.Outcome State Fault Refusal :=
  finish (
    if s.trace.startDue then s.sessionStart
    else if s.startSrc = 2 ∧ s.trace.startUsed = false ∧ s.trace.run = false ∧
        s.earlierDue (truncFT (s.regWide tracePage 0x48 3)) 6 = false then
      ((s.advanceTo (truncFT (s.regWide tracePage 0x48 3))).modTrace fun t => { t with startUsed := true }).sessionStart
    else s)

/-- TRACE_SESSION_STOP: a stop condition has come, or T_STOP comes. -/
def execTraceSessionStop (s : State) : Host.Outcome State Fault Refusal :=
  finish (
    if s.trace.stopDue then s.sessionStop
    else if s.stopSrc = 2 ∧ s.trace.stopUsed = false ∧ s.trace.run = true ∧
        s.earlierDue (truncFT (s.regWide tracePage 0x58 3)) 6 = false then
      ((s.advanceTo (truncFT (s.regWide tracePage 0x58 3))).modTrace fun t => { t with stopUsed := true }).sessionStop
    else s)

/-- A verdict leaves a forest engine: start and stop conditions of kind 3, TRIG_OUT source 5 (R449, R454). -/
def State.traceVerdict (s : State) (code : Byte) : State :=
  if s.regFld tracePage 0x44 0 8 = code.toNat then
    (s.modTrace fun t => { t with
      startDue := t.startDue || (decide (s.startSrc = 3) && !t.run)
      stopDue := t.stopDue || (decide (s.stopSrc = 3) && t.run) }).trigOut 5
  else s

/-- A slow tick: TRIG_OUT source 6 has its instant once fleet time reaches T_START; a token expires (R452, R454). -/
def State.traceTick (s : State) : State :=
  let t := truncFT (s.regWide tracePage 0x48 3)
  let s := if s.trace.outUsed = false ∧ t ≤ s.now ∧ t ≠ 0 ∧ s.earlierDue t 6 = false then (s.modTrace fun x => { x with outUsed := true }).trigOut 6 else s
  match s.trace.token with
  | some k => if k.notAfter < s.now then (s.modTrace fun x => { x with token := none }).setErr tracePage errAuthExpired else s
  | none => s

/-! ### Triggers (R453, R454) -/

/-- A TRIG packet. -/
def trigPacket (out : Bool) (line : Nat) (rising : Bool) (t : FT) : TPacket :=
  { typ := 4, src := BitVec.ofNat 16 (4 * 2 ^ 13 + line), time := t, job := 0, node := none,
    body := [if out then 1 else 0, BitVec.ofNat 8 line, if rising then 0 else 1, 0] ++ leBytes 2 (t % 65536) ++ zeros 2 }

/-- A trigger of Snuff at this node (R458): it joins those that have come, unless a Snuff is in effect (R468). -/
def State.snuffTrig (s : State) (cause : SnuffCause) (scope : Nat) (init : BitVec 16) (port : Option Nat) : State :=
  if s.snuff.state = .cut then s
  else { s with snuff := { s.snuff with trigs := s.snuff.trigs ++ [{ cause, scope, init, no := none, port }] } }

/-- IN_SCOPE. -/
def State.inScopeField (s : State) : Nat := s.regFld (pg 0x61) 0x40 28 2

/-- TRIG_IN: an edge at its instant; a packet, the session, and the line's ACTION. -/
def execTrigIn (line : BitVec 2) (rising : Bool) (ts : Nat) (s : State) : Host.Outcome State Fault Refusal :=
  let n := line.toNat
  let s := s.advanceTo ts
  let s := s.traceStage (trigPacket false n rising (truncFT ts))
  let f := s.regFld tracePage 0x90 (8 * n) 4
  let hit := decide (rising = decide (f < 8))
  let act := f % 8
  finish (
    if !hit then s
    else
      let s := s.modTrace fun t => { t with
        startDue := t.startDue || (!t.run && ((decide (s.startSrc = 1) && decide (s.regFld tracePage 0x44 24 2 = n)) || decide (act = 1)))
        stopDue := t.stopDue || (t.run && ((decide (s.stopSrc = 1) && decide (s.regFld tracePage 0x44 22 2 = n)) || decide (act = 2))) }
      if act = 3 then s.snuffTrig .trigIn s.inScopeField s.node none
      else if act = 4 then
        s.traceStage { typ := 6, src := BitVec.ofNat 16 (4 * 2 ^ 13 + n), time := s.ft, job := 0, node := none,
                       body := leBytes 4 n ++ zeros 4 }
      else s)

/-- TRIG_OUT_PULSE: an output owed a pulse rises, or its pulse in progress lengthens. -/
def execTrigOutPulse (line : BitVec 2) (s : State) : Host.Outcome State Fault Refusal :=
  let n := line.toNat
  finish (
    if s.trace.outDue.contains n && decide (s.bpwr.state ≠ .doze) then
      let e := s.now + clamp 8 1000 (s.regFld tracePage 0x98 0 16) * ns
      let high := decide (Tab.read natZero s.trace.outEnd n ≠ 0)
      let s := s.modTrace fun t => { t with outDue := t.outDue.erase n, outEnd := Tab.write natZero t.outEnd n e }
      if high then s else s.traceStage (trigPacket true n true s.ft)
    else s)

/-- TRIG_OUT_END: a pulse ends after WIDTH_NS. -/
def execTrigOutEnd (line : BitVec 2) (s : State) : Host.Outcome State Fault Refusal :=
  let n := line.toNat
  let e := Tab.read natZero s.trace.outEnd n
  finish (
    if e = 0 then s
    else
      let s := (s.advanceTo e).modTrace fun t => { t with outEnd := Tab.write natZero t.outEnd n 0 }
      s.traceStage (trigPacket true n false s.ft))

/-! ### Low-power states (R455 to R457) -/

/-- A PWR packet into every enabled ring and into the funnel. -/
def State.tracePwr (s : State) (state : Nat) (handshake : Bool) : State :=
  let p := routerPacket 2 s.ft [BitVec.ofNat 8 state, if handshake then 1 else 0, 0, 0, 0, 0, 0, 0]
  ((List.range 4).foldl (fun s r => s.ringOffer p r) s).funnelWrite p

/-- After an exit: a SYNC with CAUSE WAKE comes first in every enabled ring and the funnel, then a DROP of `lost` packets. -/
def State.traceWake (s : State) (lost : Nat) : State :=
  ((List.range 5).filter fun r => decide (r = funnelRing) || bit (s.ringCfg r) 31).foldl (fun s r => s.modRing r fun x =>
    if lost = 0 then { x with owed := some 2 } else { x with owed := some 2, lost := lost, why := 2 }) s

/-- Staging buffer, funnel contents, probe latches and token are lost (R456). -/
def State.traceLose (s : State) : State :=
  let had := s.trace.token.isSome
  let s := s.modTrace fun t => { t with staged := [], funnel := [], latches := [], token := none }
  if had then s.setErr tracePage errAuthLost else s

/-- Any reset that reaches HUB loses the token (R452). -/
def State.tokenLose (s : State) : State :=
  if s.trace.token.isSome then (s.modTrace fun t => { t with token := none }).setErr tracePage errAuthLost else s

/-! ### The funnel's window (R450) -/

def State.funnelBytes (s : State) : List Byte := s.trace.funnel.flatMap id

/-- KX_TRACE_FDATA: the word that FIDX names, oldest first. -/
def State.funnelWord (s : State) (i : Nat) : Word := word (leAt s.funnelBytes (4 * i) 4)

/-- KX_TRACE_FUNNEL. -/
def State.funnelStat (s : State) : Word := word (s.trace.overwr % 65536 * 65536 + s.funnelBytes.length / 4)

/-! ### Commands (R477) -/

def execTraceStart (c : CmdIn) (s : State) : Host.Outcome State Fault Refusal :=
  finish (runCmd c 0x60 0x0001 .firmware true (fun s => s.sessionStart.ok c) s)

def execTraceStop (c : CmdIn) (s : State) : Host.Outcome State Fault Refusal :=
  finish (runCmd c 0x60 0x0002 .firmware true (fun s => s.sessionStop.ok c) s)

/-- TRACE_MARK: SRC kind SOFT with the requester's identifier, and the requester's job. -/
def execTraceMark (c : CmdIn) (s : State) : Host.Outcome State Fault Refusal :=
  finish (runCmd c 0x60 0x0003 .tenant true
    (fun s =>
      (s.traceStage { typ := 6, src := BitVec.ofNat 16 (3 * 2 ^ 13 + c.req.rid.toNat), time := s.ft, job := c.req.job,
                      node := none, body := leBytes 4 (argW c s 0).toNat ++ leBytes 4 (argW c s 1).toNat }).ok c) s)

end Sys2Proof.Machine
end

