-- ==== Sys2Proof/Machine/UnitWin.lean ====
section
/-!
DEFINITION. The records of the unit window and the snapshot (R77, R78, R108 to R110).
-/
namespace Sys2Proof.Machine

/-! ### Totals -/

/-- What a probe holds that its concentrator has not taken yet: the latched record and the counts since. -/
def pendingCounts (x : Probe) (t : Tab (BitVec 64)) : Tab (BitVec 64) :=
  let t := match x.latch with
    | some r => (addDeltas r.d t).1
    | none => t
  (addDeltas x.e t).1

/-- The sum of 64-bit totals, saturating. -/
def addTotals (a b : Tab (BitVec 64)) : Tab (BitVec 64) :=
  b.foldl (fun r e => Tab.write bv64Zero r e.1
    (BitVec.ofNat 64 (min ((Tab.read bv64Zero r e.1).toNat + e.2.toNat) (2 ^ 64 - 1)))) a

def noTotals (_ : Nat) : Tab (BitVec 64) := []

/-! ### The snapshot (R77, R78, R110) -/

def State.regionReset (s : State) (p : Nat) : Bool := (s.region (regionOf (clusterOf p))).inReset

/-- Copy every probe and cluster into the holding registers; a region under reset leaves zeros and sets PARTIAL. -/
def State.snapHold (s : State) : State :=
  let ps := (s.samp.probes.filter fun e => !s.regionReset e.1).map fun e =>
    (e.1, ({ t := pendingCounts e.2 e.2.t, s := e.2.c, gen := e.2.gen } : Held))
  let more (c : Nat) (t : Tab (BitVec 64)) : Tab (BitVec 64) :=
    (s.samp.probes.filter fun e => decide (clusterOf e.1 = c) && !e.2.excluded).foldl (fun t e => pendingCounts e.2 t) t
  let cs := ((List.range 256).filter fun c => !(s.region (regionOf c)).inReset).map fun c =>
    (c, ({ t := more c (s.cluster c).t, s := [], gen := 0 } : Held))
  let part := (List.range 16).any fun r => (s.region r).inReset
  { s with
    samp := { s.samp with
      heldP := ps.filter fun e => decide (e.2 ≠ Held.zero e.1)
      heldC := cs.filter fun e => decide (e.2 ≠ Held.zero e.1)
      heldTag := BitVec.ofNat 8 s.samp.grid.epochNo }
    pages := { s.pages with snapPartial := part } }

/-- A TAKE: the wavefront begins, with its number and its instant. -/
def State.snapTake (s : State) : State :=
  let s := s.snapHold
  { s with pages := { s.pages with snapSeq := s.pages.snapSeq + 1, snapBusy := true, snapTime := s.ft } }

/-- The wavefront of the latest TAKE still runs: 16 ns at most from its instant (R77). -/
def State.snapRuns (s : State) : Bool := s.pages.snapBusy && decide (s.now < s.pages.snapTime + 16 * ns)

/-- A close that meets a wavefront wins: the snapshot holds the values after its sampling (R78). -/
def State.snapClose (s : State) : State := if s.snapRuns then s.snapHold else s

/-! ### Record words (R108, R109) -/

/-- Word `w` of 38 words of totals, from word 1 on. -/
def totalWord (t : Tab (BitVec 64)) (w : Nat) : Word := wordOf (Tab.read bv64Zero t ((w - 1) / 2)).toNat ((w - 1) % 2)

/-- S[k], low words, high bytes and EPOCH_TAG: words 39 to 62. -/
def countWord (c : Tab (BitVec 40)) (tag : Byte) (w : Nat) : Word :=
  if w < 58 then word ((Tab.read bv40Zero c (w - 39)).toNat % 2 ^ 32)
  else
    let hi (k : Nat) : Nat := if k = 19 then tag.toNat else (Tab.read bv40Zero c k).toNat / 2 ^ 32
    let k := 4 * (w - 58)
    word (hi k + 2 ^ 8 * hi (k + 1) + 2 ^ 16 * hi (k + 2) + 2 ^ 24 * hi (k + 3))

def b01 (b : Bool) (i : Nat) : Nat := if b then 2 ^ i else 0

/-- Word `w` of a probe record; `held` reads words 1 to 62 of the snapshot. -/
def State.probeWord (s : State) (held : Bool) (p w : Nat) : Word :=
  let x := s.probe p
  let h := Tab.read Held.zero s.samp.heldP p
  if w = 0 then
    word (b01 (s.present p) 31 + b01 x.fenced 30 + b01 (s.absent p) 29 + b01 x.stale 28 + b01 x.lost 27 + b01 x.stateErr 26 +
      b01 x.wrap 25 + b01 x.mismatch 24 + x.profileNext.toNat * 2 ^ 20 + clusterOf p % 256 * 256 + x.recMissed.toNat)
  else if w < 39 then totalWord (if held then h.t else x.t) w
  else if w < 63 then countWord (if held then h.s else x.s) (if held then s.samp.heldTag else x.tag) w
  else word (x.recGen.toNat * 2 ^ 24 + x.recRsts.toNat * 2 ^ 16 + x.jobNext.toNat)

def bitsOf (n : Nat) (f : Nat → Bool) : Nat := ((List.range n).map fun i => b01 (f i) i).sum

/-- Word `w` of a cluster record. -/
def State.clusterWord (s : State) (held : Bool) (c w : Nat) : Word :=
  let y := s.cluster c
  if w = 0 then
    word (b01 y.stale 31 + b01 y.adopted 30 + b01 y.selfchk 29 + b01 y.lost 28 + regionOf c % 16 * 2 ^ 20 + 32 * 256 + y.units % 256)
  else if w < 39 then totalWord (if held then (Tab.read Held.zero s.samp.heldC c).t else y.t) w
  else if w = 39 then word (bitsOf 32 fun i => (s.probe (32 * c + i)).fenced)
  else if w = 40 then y.missing
  else if w < 57 then word (32 * c + 2 * (w - 41) + (32 * c + 2 * (w - 41) + 1) * 2 ^ 16)
  else 0

/-- Word `w` of a region record: sums over its clusters. -/
def State.regionWord (s : State) (held : Bool) (r w : Nat) : Word :=
  let y := s.region r
  if w = 0 then
    word (b01 y.absent 31 + b01 y.spareUsed 30 + y.adopted.toNat * 2 ^ 16 + 16 * 256 + y.incarn.toNat)
  else if w < 39 then
    totalWord ((clustersOf r).foldl (fun t c =>
      addTotals t (if held then (Tab.read Held.zero s.samp.heldC c).t else (s.cluster c).t)) []) w
  else if w < 47 then word (16 * r + 2 * (w - 39) + (16 * r + 2 * (w - 39) + 1) * 2 ^ 16)
  else 0

end Sys2Proof.Machine
end

