-- ==== Sys2Proof/Machine/Snuff.lean ====
section
/-!
DEFINITION. Snuff: triggers, the cut and its image, markers, orders and the clear (R458 to R468, R476, R477).
-/
namespace Sys2Proof.Machine

def snuffPage : Nat := pg 0x61
def errScopeIgn : Nat := 16
def errMissedEmber : Nat := 17
def errNoAck : Nat := 18
def errImageLost : Nat := 20

def State.modSnuff (s : State) (f : Snuff → Snuff) : State := { s with snuff := f s.snuff }
def State.isCut (s : State) : Bool := decide (s.snuff.state = .cut)

/-- The page's IN_EFFECT bit follows the state. -/
def State.snuffState (s : State) (v : SnuffState) : State :=
  (s.modSnuff fun x => { x with state := v }).setStat snuffPage 16 (decide (v = .cut))

/-! ### The image (R460, R463, R469) -/

/-- Position of a paused subsystem in the PAUSE section where the manual names none. -/
opaque Config.pausePosition (sub : Nat) : BitVec 64

/-- The PAUSE section: 16 bytes for each subsystem. -/
def State.pauseBytes (s : State) : List Byte :=
  (List.range 12).flatMap fun n =>
    let held := (allPages.filter fun p => (s.cmd p.1 p.2).busy && decide (subsystemOf (s.cmd p.1 p.2).cmd = n)).length
    let idle := decide (n = 2) && (s.engine 0).batch.isNone
    let st := if subsystemPauses n || decide (n = 0) || decide (n = 8) then (if idle then 2 else 0) else 1
    let pos := if n = 1 then s.fum.lastWin else if n = 2 then (s.engine 0).issued else (Config.pausePosition n).toNat
    [BitVec.ofNat 8 n, BitVec.ofNat 8 st, 0, 0] ++ leBytes 4 held ++ leBytes 8 pos

/-- The node's link ports that have a page. -/
def State.linkPorts (s : State) : List Nat := if s.isSystem then List.range 36 else List.range 9

/-- The frames that stay in the egress queues: the egress hold. -/
def State.egressHold (s : State) : List LogFrame :=
  s.linkPorts.flatMap fun p => (List.range 8).flatMap fun cls =>
    ((s.queue p cls).filter fun f => !exemptType f.typ).map fun f =>
      { port := p, cls, lseq := 0, bytes := frameBytes f none 0 0 }

/-! ### Markers (R464, R465) -/

/-- ARGS of a SNUFF broadcast. -/
def snuffArgs (role scope : Nat) (init : BitVec 16) (no : BitVec 32) : List Byte :=
  padTo 32 ([BitVec.ofNat 8 role, BitVec.ofNat 8 scope] ++ leBytes 2 init.toNat ++ leBytes 4 no.toNat)

/-- Put a MARKER at the head of a port's C0 queue. -/
def State.markerOn (s : State) (b : Bcast) (p : Nat) : State :=
  let dest : Dest := if s.isSystem && decide (p ≠ 34) then
      (if !s.straps.cascade && decide (32 ≤ p) then .up else .down) else .port p
  let m : Msg := { typ := 0x04, tag := 0, dest, payload := bcastBytes b }
  (s.chansFor p m).foldl (fun s c => s.setQueue p 0 (s.framesOf c m ++ s.queue p 0)) s

/-- The node's MARKER. -/
def State.markerBcast (s : State) : Bcast × State :=
  s.bcastNew 8 true false 0 0 0 0 (snuffArgs 1 s.snuff.scope s.snuff.init s.snuff.initNo)

/-- A port that comes UP during a Snuff sends a MARKER and opens its channel (R465). -/
def State.snuffLinkUp (s : State) (p : Nat) : State :=
  if s.isCut && s.portInScope s.snuff.scope s.snuff.init p && decide (p < 64) then
    let m := s.markerBcast
    (m.2.markerOn m.1 p).modSnuff fun x => { x with openCh := setBit x.openCh p true }
  else s

/-- A port is lost in a Snuff: its channel closes with its OPEN bit set, and it counts as a boundary (R468). -/
def State.snuffPortLost (s : State) (p : Nat) : State :=
  if s.isCut && decide (p < 64) then s.modSnuff fun x => { x with bound := setBit x.bound p true } else s

/-! ### The cut (R459 to R462) -/

/-- STOP at one probe, and its stop entry: HOLD says that STOP was raised for trace. -/
def State.stopProbe (s : State) (p : Nat) : State :=
  let hold := (s.probe p).stop.raised
  (s.raiseGate p .stop).modSnuff fun x => { x with
    stops := Tab.write StopEntry.zero x.stops p { lat := 0, acked := (s.probe p).stop.ack, hold, noAck := false } }

/-- The Snuff packet of the router (R442, R462). -/
def State.snuffPacket (s : State) (clear : Bool) : State :=
  let p := routerPacket 8 s.ft ([if clear then 1 else 0, BitVec.ofNat 8 s.snuff.scope, 0, 0] ++ leBytes 4 s.snuff.cutNo.toNat)
  (List.range 4).foldl (fun s r => s.ringOffer p r) s

/-- The node cuts. -/
def State.snuffCut (s : State) (t : SnuffTrig) (late : Bool) : State :=
  let no := s.snuff.cutNo + 1
  let live := s.linkPorts.filter s.portUp
  let inside := live.filter fun p => s.portInScope t.scope t.init p
  let mask (l : List Nat) : BitVec 64 := l.foldl (fun m p => setBit m p true) 0
  let s := s.snapTake
  let pause := s.pauseBytes
  let egress := s.egressHold
  let s := (s.modSnuff fun x => { x with
    cause := t.cause, scope := t.scope, late, logFull := false, cutNo := no, fromPort := t.port, init := t.init,
    initNo := t.no.getD no, cutTime := s.ft, openCh := mask (inside.filter fun p => decide (some p ≠ t.port)),
    bound := mask (live.filter fun p => !s.portInScope t.scope t.init p), log := [], logUsed := 0, image := true,
    stops := [], egress, pause, imageLost := false, missedEmber := false, trigs := [] }).snuffState .cut
  let s := ((List.range s.samp.units).filter s.present).foldl State.stopProbe s
  let inj := s.injTake snuffPage 0x10
  let s := if inj.1 then inj.2 else
    let m := inj.2.markerBcast
    inside.foldl (fun s p => s.markerOn m.1 p) m.2
  let s := (List.range s.engineCount).foldl State.batchEnd s
  let s := (s.gySnuff.svcSnuff.katAbandon 3)
  (s.snuffPacket false).trigOut 3

/-- Results of SNUFF_AT (R327, R466). -/
def State.snuffAtDone (s : State) (o : SnuffOrder) (st : Byte) (detail absorbed : Nat) : State :=
  let c := s.countsOf (o.init, o.seq)
  (s.waiters fun w => decide (w = .event 15 o.seq.toNat)).foldl (fun s p =>
    ((((((s.setRes p.1 p.2 0 c.armed).setRes p.1 p.2 1 c.notArmed).setRes p.1 p.2 2 c.notMember).setRes p.1 p.2 3 c.missing).setRes
      p.1 p.2 4 o.seq.toNat).setRes p.1 p.2 5 absorbed).complete p.1 p.2 st detail) s

/-- T of the order has come here: the commanding page completes (R466). -/
def State.snuffAtEnd (s : State) (o : SnuffOrder) (absorbed : Nat) : State :=
  let c := s.countsOf (o.init, o.seq)
  if c.notArmed = 0 ∧ c.missing = 0 then s.snuffAtDone o stOk 0 absorbed else s.snuffAtDone o stError 3 absorbed

/-- SNUFF_NOW commands that wait for the cut. -/
def State.snuffNowDone (s : State) : State :=
  (s.waiters fun w => decide (w = .event 16 0)).foldl (fun s p => s.complete p.1 p.2 stOk 0) s

/-- The trigger that wins among those that have come (R468). -/
def firstTrig : List SnuffTrig → Option SnuffTrig
  | [] => none
  | t :: ts => match firstTrig ts with
    | some u => if u.cause.rank < t.cause.rank then some u else some t
    | none => some t

/-- The scheduled instant has come (R466): the order's entry is free, and the node cuts, or the Snuff in effect absorbs
it (R468). -/
def State.snuffTime (s : State) (o : SnuffOrder) : State :=
  let s := ((s.advanceTo o.t).evtDrop .snuff 0).modSnuff fun x => { x with order := none }
  if s.isCut then s.snuffAtDone o stOk 0 1
  else ((s.snuffCut { cause := .time, scope := o.scope, init := o.init, no := some o.no, port := none } false).snuffAtEnd o 0).snuffNowDone

/-- SNUFF_CUT: the node cuts on the triggers that have come, or at the scheduled instant (R458, R459, R468). -/
def execSnuffCut (s : State) : Host.Outcome State Fault Refusal :=
  let due (o : SnuffOrder) : Bool := s.snuff.trigs.isEmpty || decide (o.t ≤ s.now)
  finish (
    match s.snuff.order.filter due, firstTrig s.snuff.trigs with
    | some o, _ => if s.earlierDue o.t 2 then s else s.snuffTime o
    | none, some t =>
      if s.isCut then s.modSnuff fun x => { x with trigs := [] }
      else (s.snuffCut t (decide (t.cause = .order))).snuffNowDone
    | none, none => s)

/-- SNUFF_IN_N: held low for 10 ns, or high again (R458). In a low-power state it also wakes (R397). -/
def State.snuffPin (s : State) (low : Bool) : State :=
  let s := s.modSnuff fun x => { x with pinLow := low }
  if low && bit (s.reg snuffPage 0x40) 31 then s.snuffTrig .pin s.inScopeField s.node none else s

/-- STOP_ACK: the unit's edges from the cut to its acknowledge (R460, R461). -/
def execStopAck (probe edges : Nat) (s : State) : Host.Outcome State Fault Refusal :=
  finish (
    let g := (s.probe probe).stop
    if !g.raised || !s.chanOpen (.converter .probe probe) then
      if s.chanOpen (.converter .probe probe) then s.ackFalls probe .stop else s
    else if s.present probe && !g.ack then
      let s := s.ackGate probe .stop
      if s.isCut then s.modSnuff fun x => { x with
        stops := Tab.modify StopEntry.zero x.stops probe fun e => { e with lat := min edges 255, acked := true } }
      else s
    else s)

/-- A STOP whose acknowledge has not followed within the watchdog time (R461). -/
def State.stopNoAck (s : State) (p : Nat) : State :=
  if s.isCut then (s.modSnuff fun x => { x with
    stops := Tab.modify StopEntry.zero x.stops p fun e => { e with noAck := true } }).setErr snuffPage errNoAck
  else s

/-! ### Broadcasts of KIND 8 (R464 to R467) -/

/-- A MARKER arrives on a port. -/
def State.markerTake (s : State) (p : Nat) (b : Bcast) : State :=
  let scope := leAt b.args 1 1
  let init : BitVec 16 := BitVec.ofNat 16 (leAt b.args 2 2)
  let no : BitVec 32 := BitVec.ofNat 32 (leAt b.args 4 4)
  if s.isCut then s.modSnuff fun x => { x with openCh := setBit x.openCh p false }
  else if nodeInScope scope init s.node then
    s.modSnuff fun x => { x with trigs := x.trigs ++ [{ cause := .marker, scope, init, no := some no, port := some p }] }
  else s.setErr snuffPage errScopeIgn

/-- An ORDER or a CLEAR reaches a node. -/
def actSnuff (s : State) (b : Bcast) : Acted :=
  let scope := leAt b.args 1 1
  let init : BitVec 16 := BitVec.ofNat 16 (leAt b.args 2 2)
  let no : BitVec 32 := BitVec.ofNat 32 (leAt b.args 4 4)
  let none' := AckCounts.zero 0
  let yes := if s.isDie then { none' with armed := 1 } else none'
  let no' (r : Nat) : Acted := { s, own := if s.isDie then { none' with notArmed := 1 } else none', reason := r }
  if !nodeInScope scope init s.node then { s, own := none', reason := 0 }
  else if leAt b.args 0 1 = 0 then
    if s.isCut || b.t ≤ s.now then
      { s := if s.isCut then s else s.modSnuff fun x => { x with trigs := x.trigs ++ [{ cause := .order, scope, init, no := some no, port := none }] },
        own := yes, reason := 0 }
    else if s.snuff.order.isSome then no' 4
    else match s.evtAdd .snuff b.t 0 with
      | none => no' 2
      | some s => { s := (s.modSnuff fun x => { x with order := some { t := b.t, scope, init, no, seq := b.seq } }).snuffState .armed,
                    own := yes, reason := 0 }
  else
    { s := if s.isCut then s.modSnuff fun x => { x with clearAt := some (if b.immediate then s.now else b.t) } else s,
      own := yes, reason := 0 }

/-- A scheduled Snuff that a forward step passes over does not take effect (R244, R466). -/
def State.snuffStepped (s : State) : State :=
  match s.snuff.order with
  | some o =>
    let s := (s.evtDrop .snuff 0).modSnuff fun x => { x with order := none }
    (if s.isCut then s else s.snuffState .none).snuffAtDone o stError 0x20 0
  | none => s

/-! ### Commands (R466, R467, R477) -/

/-- The node is the root of a scope. -/
def State.scopeRoot (s : State) (scope : Nat) : Bool :=
  match scope with
  | 0 => s.isDie
  | 1 => s.isHead
  | 2 => s.isSystem && !s.straps.cascade
  | _ => s.isSystem && s.straps.cascade

/-- SNUFF_NOW: the command completes at the cut; one met in a Snuff is absorbed. -/
def snuffNowCmd (c : CmdIn) (s : State) : State :=
  if s.isCut then s.ok c
  else (s.snuffTrig .command (argFld c s 0 0 2) s.node none).waitFor c (.event 16 0)

def execSnuffNow (c : CmdIn) (s : State) : Host.Outcome State Fault Refusal :=
  finish (runCmd c 0x60 0x0010 .firmware true (snuffNowCmd c) s)

/-- SNUFF_AT. -/
def snuffAtCmd (c : CmdIn) (s : State) : State :=
  let scope := argFld c s 0 0 2
  let t := argFT c s 1
  if !s.scopeRoot scope then s.failCmd c 1
  else if t < s.now + 10 * us then s.failCmd c 2
  else if s.isCut then (s.res c 5 1).ok c
  else if 32 ≤ s.time.evts.length then s.failCmd c 0x21
  else
    let r := s.bcastSend 8 false false 0 0 t 0 (snuffArgs 0 scope s.node (s.snuff.cutNo + 1)) actSnuff
    r.2.waitFor c (.event 15 r.1)

def execSnuffAt (c : CmdIn) (s : State) : Host.Outcome State Fault Refusal :=
  finish (runCmd c 0x60 0x0011 .firmware true (snuffAtCmd c) s)

/-- SNUFF_CLEAR: it completes at the clear of this node. -/
def snuffClearCmd (c : CmdIn) (s : State) : State :=
  let scope := argFld c s 0 0 2
  let timed := bit (argW c s 0) 8
  let t := argFT c s 1
  if !s.isCut then s.failCmd c 8
  else if !s.scopeRoot scope then s.failCmd c 1
  else if timed ∧ t < s.now + 10 * us then s.failCmd c 2
  else (s.bcastSend 8 (!timed) false 0 0 t 0 (snuffArgs 2 scope s.snuff.init s.snuff.initNo) actSnuff).2.waitFor c (.event 17 0)

def execSnuffClear (c : CmdIn) (s : State) : Host.Outcome State Fault Refusal :=
  finish (runCmd c 0x60 0x0012 .firmware true (snuffClearCmd c) s)

/-- SNUFF_RELEASE. -/
def execSnuffRelease (c : CmdIn) (s : State) : Host.Outcome State Fault Refusal :=
  finish (runCmd c 0x60 0x0014 .firmware true (fun s =>
    (s.modSnuff fun x => { x with image := false, stops := [], egress := [], pause := [], log := [], logUsed := 0 }).ok c) s)

/-- TAKE is answered RETRY while a Snuff is in effect or its image is held (R460, R477). -/
def State.takeBarred (s : State) : Bool := s.isCut || s.snuff.image

/-! ### The clear (R467) -/

/-- Steps 1 to 5: STOP falls where no trace hold remains, the parts go on, held frames are handled in order. `dead`
is R339's discard. The commands held BUSY go on in their own chapters. -/
def State.snuffResume (s : State) (dead : BitVec 16 → Nat → Bool) : State :=
  let held := s.snuff.held
  let s := (s.modSnuff fun x => { x with held := [], clearAt := none }).snuffState
    (if s.snuff.order.isSome then .armed else .none)
  let s := ((List.range s.samp.units).filter fun p => s.present p && (s.tlatch p).held.isNone && (s.probe p).stop.raised).foldl
    (fun s p => s.lowerGate p .stop) s
  let s := held.foldl (fun s f =>
    let h := rxHeader f.bytes
    s.dispatch f.port f.chan h f.payload (dead h.dst h.cls) f.bytes) s
  let s := ((s.snuffPacket true).trigOut 4).packResume
  let s := (List.range s.engineCount).foldl State.batchAfter s.sideResume
  (s.waiters fun w => decide (w = .event 17 0)).foldl (fun s p => s.complete p.1 p.2 stOk 0) s

/-! ### The image in bytes (R469, R470) -/

/-- An entry of R470. -/
def logEntry (e : LogFrame) : List Byte :=
  [BitVec.ofNat 8 e.port, BitVec.ofNat 8 e.cls] ++ leBytes 2 e.bytes.length ++ leBytes 2 e.lseq.toNat ++ [0, 0] ++
    padTo (8 * ceilDiv e.bytes.length 8) e.bytes

/-- A stop entry (R460). -/
def stopWord (e : StopEntry) : Word := word (e.lat + b01 e.acked 8 + b01 e.hold 9 + b01 e.noAck 10)

/-- The sections of the image: ID and content. -/
def State.imageSections (s : State) : List (Nat × List Byte) :=
  let x := s.snuff
  let units := List.range s.samp.units
  let die : List (Nat × List Byte) := if s.isDie then
      [(1, units.flatMap fun p => (List.range 64).flatMap fun w => leBytes 4 (s.probeWord true p w).toNat),
       (2, units.flatMap fun p => leBytes 4 (stopWord (Tab.read StopEntry.zero x.stops p)).toNat)]
    else []
  die ++ [(3, x.log.flatMap logEntry), (4, x.egress.flatMap logEntry), (5, x.pause)]

/-- Offsets of sections laid one after another. -/
def sectionPlaces : Nat → List (Nat × List Byte) → List (Nat × Nat × List Byte)
  | _, [] => []
  | off, (id, b) :: rest => (id, off, b) :: sectionPlaces (off + b.length) rest

/-- Directory and sections: the bytes after the header, with the sections' places. -/
def imagePlaces (l : List (Nat × List Byte)) : List (Nat × Nat × List Byte) := sectionPlaces (64 + 16 * l.length) l

def imageDir (l : List (Nat × Nat × List Byte)) : List Byte :=
  l.flatMap fun e => [BitVec.ofNat 8 e.1, 0, 0, 0] ++ leBytes 4 e.2.1 ++ leBytes 4 e.2.2.length ++ leBytes 4 (crc32c e.2.2).toNat

/-- The 64-byte header. -/
def State.imageHeader (s : State) (n len : Nat) : List Byte :=
  let x := s.snuff
  let b := leBytes 4 0x4E53584B ++ [1, 0] ++ leBytes 2 n ++ leBytes 4 len ++ ftBytes x.cutTime ++ leBytes 2 s.node.toNat ++
    leBytes 4 x.cutNo.toNat ++ [BitVec.ofNat 8 x.cause.code, BitVec.ofNat 8 x.scope,
      BitVec.ofNat 8 (b01 x.late 0 + b01 x.logFull 1 + b01 x.imageLost 2 + b01 x.missedEmber 3), 0] ++
    leBytes 8 x.openCh.toNat ++ leBytes 8 x.bound.toNat ++ zeros 12
  b ++ leBytes 4 (crc32c b).toNat

/-- The whole image, in dump layout and order. -/
def State.imageBytes (s : State) : List Byte :=
  let l := imagePlaces s.imageSections
  let body := imageDir l ++ l.flatMap fun e => e.2.2
  s.imageHeader l.length (64 + body.length) ++ body

/-! ### SNUFF_DUMP (R469) -/

def State.setSnuffDump (s : State) (d : WritePlan) : State :=
  s.modSnuff fun x => { x with
    dumps := (x.dumps.filter fun e => !(decide (e.pkg = d.pkg) && decide (e.page = d.page))) ++ [d] }

/-- The next write of a dump, or its end. -/
def State.snuffDumpNext (s : State) (d : WritePlan) : State :=
  match d.writes with
  | [] => ((s.modSnuff fun x => { x with dumps := x.dumps.filter fun e => !(decide (e.pkg = d.pkg) && decide (e.page = d.page)) }).setRes
      d.pkg d.page 0 d.res).complete d.pkg d.page stOk 0
  | w :: ws => (s.setSnuffDump { d with writes := ws }).cmdXfer d.pkg d.page true w.1 w.2.length w.2

/-- A write of a dump has completed; one that failed ends it. -/
def State.snuffDumpLoaded (s : State) (pkg : Bool) (page : Nat) (failed : Bool) : State :=
  match s.snuff.dumps.find? fun e => decide (e.pkg = pkg) && decide (e.page = page) with
  | none => s
  | some d =>
    if failed then
      (s.modSnuff fun x => { x with dumps := x.dumps.filter fun e => !(decide (e.pkg = pkg) && decide (e.page = page)) }).complete
        pkg page stError 0
    else s.snuffDumpNext d

def snuffDumpCmd (c : CmdIn) (s : State) : State :=
  let addr := arg64 c s 0
  let b := s.imageBytes
  if addr % 64 ≠ 0 then s.badArg c
  else if !s.snuff.image then s.failCmd c 8
  else if (argW c s 2).toNat < b.length then s.failCmd c 7
  else s.snuffDumpNext { pkg := c.pkg, page := c.page.toNat, writes := [(addr + 64, b.drop 64), (addr, b.take 64)], res := b.length }

def execSnuffDump (c : CmdIn) (s : State) : Host.Outcome State Fault Refusal :=
  finish (runCmd c 0x60 0x0013 .operator true (snuffDumpCmd c) s)

/-! ### Resets (R468) -/

/-- A warm reset in a Snuff: the image's die-hub sections and the holding registers are lost; the Snuff stays. -/
def State.snuffWarm (s : State) : State :=
  if s.snuff.image then
    (({ s with samp := { s.samp with heldP := [], heldC := [] } }).modSnuff fun x => { x with
      log := [], logUsed := 0, egress := [], pause := [], imageLost := true }).setErr snuffPage errImageLost
  else s

/-- A region reset in a Snuff: its probe records in the image read zero (R78, R468). -/
def State.snuffRegion (s : State) (r : Nat) : State :=
  if s.snuff.image then
    (({ s with samp := { s.samp with
        heldP := s.samp.heldP.filter fun e => decide (regionOf (clusterOf e.1) ≠ r)
        heldC := s.samp.heldC.filter fun e => decide (regionOf e.1 ≠ r) } }).modSnuff fun x => { x with imageLost := true }).setErr
      snuffPage errImageLost
  else s

end Sys2Proof.Machine
end

