-- ==== Sys2Proof/Machine/Keys.lean ====
section
/-!
DEFINITION. The keyed functions of the root of trust (R482, R486, R499, R500, R502): HMAC and HKDF with SHA-384, and the
group P-384 with ECDSA and Diffie-Hellman. They are the public functions of RFC 2104, RFC 5869 and FIPS 186-4; the manual
names them and does not restate them.
-/
namespace Sys2Proof

/-! ### HMAC and HKDF -/

/-- A key as one block of 128 bytes. -/
def hmacKey (key : List Byte) : List Byte := padTo 128 (if 128 < key.length then sha384 key else key)

def hmac384 (key msg : List Byte) : List Byte :=
  let k := hmacKey key
  sha384 (k.map (· ^^^ 0x5C) ++ sha384 (k.map (· ^^^ 0x36) ++ msg))

def hkdfExtract (salt ikm : List Byte) : List Byte := hmac384 salt ikm

def hkdfBlocks (prk info : List Byte) : Nat → Nat → List Byte → List Byte
  | 0, _, _ => []
  | n + 1, i, prev =>
    let t := hmac384 prk (prev ++ info ++ [BitVec.ofNat 8 i])
    t ++ hkdfBlocks prk info n (i + 1) t

def hkdfExpand (prk info : List Byte) (len : Nat) : List Byte :=
  (hkdfBlocks prk info (ceilDiv len 48) 1 []).take len

/-- HKDF of R482: no salt, the label as info. -/
def hkdf (ikm label : List Byte) (len : Nat) : List Byte := hkdfExpand (hkdfExtract (zeros 48) ikm) label len

/-- The bytes of an ASCII label. -/
def ascii (s : String) : List Byte := s.toList.map fun c => BitVec.ofNat 8 c.toNat

/-! ### P-384 -/

def p384P : Nat := 2 ^ 384 - 2 ^ 128 - 2 ^ 96 + 2 ^ 32 - 1
def p384N : Nat := 0xffffffffffffffffffffffffffffffffffffffffffffffffc7634d81f4372ddf581a0db248b0a77aecec196accc52973
def p384B : Nat := 0xb3312fa7e23ee7e4988e056be3f82d19181d9c6efe8141120314088f5013875ac656398d8a2ed19d2a85c8edd3ec2aef
def p384Gx : Nat := 0xaa87ca22be8b05378eb1c71ef320ad746e1d3b628ba79b9859f741e082542a385502f25dbf55296c3a545e3872760ab7
def p384Gy : Nat := 0x3617de4a96262c6f5d9e98bf9292dc29f8f41dbd289a147ce9da3113b5f0b8c00a60b1ce1d7e819d7a431d7c90ea0e5f

/-- `a` to the power `e` modulo `m`, by `fuel` bits of `e`. -/
def powMod (m : Nat) : Nat → Nat → Nat → Nat
  | 0, _, _ => 1
  | fuel + 1, a, e =>
    let r := powMod m fuel (a * a % m) (e / 2)
    if e % 2 = 1 then a * r % m else r

/-- The inverse modulo a prime. -/
def invMod (m a : Nat) : Nat := powMod m 384 (a % m) (m - 2)

/-- The sum of two points; none is the point at infinity. -/
def ecAdd : Option (Nat × Nat) → Option (Nat × Nat) → Option (Nat × Nat)
  | none, q => q
  | p, none => p
  | some (x1, y1), some (x2, y2) =>
    let m := p384P
    let line (l : Nat) : Option (Nat × Nat) :=
      let x := (l * l + 2 * m - x1 - x2) % m
      some (x, (l * (x1 + m - x) + m - y1) % m)
    if x1 = x2 then
      if (y1 + y2) % m = 0 then none
      else line ((3 * x1 * x1 + m - 3) * invMod m (2 * y1) % m)
    else line ((y2 + m - y1) * invMod m (x2 + m - x1) % m)

/-- `k` times a point, by `fuel` bits of `k`. -/
def ecMulBits : Nat → Nat → Option (Nat × Nat) → Option (Nat × Nat)
  | 0, _, _ => none
  | fuel + 1, k, p =>
    let r := ecMulBits fuel (k / 2) (ecAdd p p)
    if k % 2 = 1 then ecAdd p r else r

def ecMul (k : Nat) (p : Option (Nat × Nat)) : Option (Nat × Nat) := ecMulBits 384 k p

def ecBase : Option (Nat × Nat) := some (p384Gx, p384Gy)

/-- A point, uncompressed, in 97 bytes. -/
def ecBytes : Option (Nat × Nat) → List Byte
  | none => zeros 97
  | some (x, y) => [4] ++ beBytes 48 x ++ beBytes 48 y

/-- The point that 97 bytes spell, where they spell one of the curve. -/
def ecPoint (b : List Byte) : Option (Nat × Nat) :=
  let x := ofBe (slice b 1 48)
  let y := ofBe (slice b 49 48)
  if b.take 1 = [4] ∧ x < p384P ∧ y < p384P ∧ y * y % p384P = (x * x * x + (p384P - 3) * x + p384B) % p384P then some (x, y)
  else none

/-- The public key of a private scalar. -/
def ecPublic (d : Nat) : List Byte := ecBytes (ecMul d ecBase)

/-- The 48-byte x-coordinate of the shared point; none where the other's point is not of the curve. -/
def ecdh (d : Nat) (pub : List Byte) : Option (List Byte) :=
  match ecMul d (ecPoint pub) with
  | some (x, _) => some (beBytes 48 x)
  | none => none

/-- The signature (r, s), big-endian, of a 48-byte digest under key `d`, made with the number `k`. -/
def ecdsaSign (d k : Nat) (digest : List Byte) : List Byte :=
  let r := match ecMul k ecBase with
    | some (x, _) => x % p384N
    | none => 0
  beBytes 48 r ++ beBytes 48 (invMod p384N k * (ofBe digest + r * d) % p384N)

/-- Does the signature of a digest verify under a public key? -/
def ecdsaVerify (pub digest sig : List Byte) : Bool :=
  let r := ofBe (slice sig 0 48)
  let t := ofBe (slice sig 48 48)
  match ecPoint pub with
  | none => false
  | some q =>
    if r = 0 ∨ t = 0 ∨ p384N ≤ r ∨ p384N ≤ t then false
    else
      let w := invMod p384N t
      match ecAdd (ecMul (ofBe digest * w % p384N) ecBase) (ecMul (r * w % p384N) (some q)) with
      | some (x, _) => decide (x % p384N = r)
      | none => false

/-- R482: the private scalar in 448 bits of output. -/
def ecScalar (x : List Byte) : Nat := ofBe x % (p384N - 1) + 1

end Sys2Proof
end

