-- ==== Sys2Proof/Machine/Rot.lean ====
section
/-!
DEFINITION. The root of trust: boot, firmware update, measurement and re-hash, decisions checked again (R478 to R494,
R503 to R506).
-/
namespace Sys2Proof.Machine

def rotPage : Nat := pg 0x68
def errVerify : Nat := 16
def errFallback : Nat := 17
def errCommitFail : Nat := 18
def errAuthFail : Nat := 19
def errMismatch : Nat := 20
def statRehash : Nat := 16

/-- DETAIL codes of class 0x68 (R506). -/
def rtBadImage : Nat := 1
def rtRollback : Nat := 2
def rtRevoked : Nat := 3
def rtNotStaged : Nat := 4
def rtInCommit : Nat := 5
def rtFlashErr : Nat := 6
def rtTooLarge : Nat := 7
def rtHostErr : Nat := 8

/-! ### Boot flash (R484, R517) -/

/-- Erase the 4 KiB sectors of `n` bytes from address `a`. -/
def State.flashErase (s : State) (a n : Nat) : State :=
  (List.range (ceilDiv n 4096)).foldl (fun s i => (s.emit (.flash 0x06 0 [])).emit (.flash 0x20 (a + 4096 * i) [])) s

/-- Program bytes, 256 at a time. -/
def State.flashWrite (s : State) (a : Nat) (b : List Byte) : State :=
  (List.range (ceilDiv b.length 256)).foldl (fun s i =>
    (s.emit (.flash 0x06 0 [])).emit (.flash 0x02 (a + 256 * i) ((b.drop (256 * i)).take 256))) s

/-- The address of a firmware slot (false: A), and of a counter copy. -/
def slotAddr (b : Bool) : Nat := if b then 0x200000 else 0x100000
def ctrAddr (copy : Bool) : Nat := if copy then 0x2000 else 0x1000

/-! ### Counter blocks (R486) -/

def Counters.body (c : Counters) : List Byte :=
  leBytes 4 0x5443584B ++ leBytes 4 c.gen ++ leBytes 4 c.minSvn ++ leBytes 4 c.pendMin ++
    [if c.active then 1 else 0, c.revoked, c.pendRevoke] ++ zeros 13

/-- A copy's 80 bytes. -/
def counterBytes (kCtr : List Byte) (c : Counters) : List Byte := Counters.body c ++ hmac384 kCtr (Counters.body c)

/-- The counters of a valid copy. -/
def counterOf (kCtr b : List Byte) : Option Counters :=
  if leAt b 0 4 = 0x5443584B ∧ hmac384 kCtr (slice b 0 32) = slice b 32 48 then
    some { gen := leAt b 4 4, minSvn := leAt b 8 4, pendMin := leAt b 12 4, active := decide (leAt b 16 1 = 1),
           revoked := BitVec.ofNat 8 (leAt b 17 1), pendRevoke := BitVec.ofNat 8 (leAt b 18 1) }
  else none

/-- The valid copy with the higher GEN, and which one it is. -/
def counterPick : Option Counters → Option Counters → Option (Counters × Bool)
  | some a, some b => if a.gen < b.gen then some (b, true) else some (a, false)
  | some a, none => some (a, false)
  | none, some b => some (b, true)
  | none, none => none

/-- K_ctr. -/
def State.kCtr (s : State) : List Byte := hkdf s.rot.uds (ascii "KX CTR") 48

/-- Write the counter copy that is not in force. -/
def State.writeCounters (s : State) (c : Counters) : State :=
  let a := ctrAddr (!s.rot.ctrCopy)
  (s.flashErase a 80).flashWrite a (counterBytes s.kCtr c)

/-- A counter copy written and read back is in force, and index 4 is recorded anew (R489, R491). -/
def State.takeCounters (s : State) (c : Counters) : State :=
  s.modRot fun r => { r with ctr := c, ctrCopy := !r.ctrCopy }

/-! ### Firmware images (R485, R487) -/

/-- The check of step 3 of R487: the image, or the DETAIL of the first check that fails. `len` is the number of bytes
given, `minSvn` the SVN enforced. -/
def imageCheck (system : Bool) (revoked : Byte) (minSvn : Nat) (slot : Bool) (b : List Byte) : Nat ⊕ FwImage :=
  let len := leAt b 8 4
  let img := b.take len
  let key := leAt b 6 1
  if leAt b 0 4 ≠ 0x5746584B ∨ len < 257 ∨ 1048576 < len ∨ b.length < len ∨
      bit (BitVec.ofNat 8 (leAt b 20 1) : Byte) (if system then 1 else 0) = false ∨ 1 < key then .inl rtBadImage
  else if bit revoked key then .inl rtRevoked
  else if ecdsaVerify (Config.romKey key) (sha384 (slice img 0 160)) (slice img 160 96) = false ∨
      sha384 (img.drop 256) ≠ slice img 112 48 then .inl rtBadImage
  else if leAt b 12 4 < minSvn then .inl rtRollback
  else .inr { digest := sha384 img, svn := leAt b 12 4, minNew := leAt b 16 4, revoke := BitVec.ofNat 8 (leAt b 7 1),
              owner := slice img 64 48, slot }

/-- FW_STAGE's further rule: an image may not revoke its own key (R485). -/
def ownKeyRevoked (b : List Byte) : Bool := bit (BitVec.ofNat 8 (leAt b 7 1) : Byte) (leAt b 6 1)

/-! ### The measurement log (R491 to R493) -/

/-- Index 4: 16 raw bytes. -/
def State.securityState (s : State) : List Byte :=
  let c := s.rot.ctr
  let t := s.straps
  let strap := if s.isSystem then (if t.cascade then 128 else 0) + (if t.twinSel then 64 else 0) + 48
    else 16 + (if t.headEn then 8 else 0) + t.dieIdx.toNat
  leBytes 4 c.gen ++ leBytes 4 c.minSvn ++ leBytes 4 c.pendMin ++
    [if c.active then 1 else 0, c.revoked, if s.rot.fallback then 1 else 0, BitVec.ofNat 8 strap]

def State.record (s : State) (item : Nat) (value : List Byte) : State :=
  s.setMeas item { status := .measured, digest := value }

/-- The indices a report lists besides the status block, rising. -/
def State.measIndices (s : State) : List Nat :=
  [1, 2, 3, 4, 5, 0x10, 0x11] ++ List.range' 0x20 (if s.isSystem then 32 else 2) ++ [0x40, 0x41, 0x42]

/-- DMTF value types, with the raw bit. -/
def measType (i : Nat) : Byte :=
  if i = 1 then 0x00 else if i = 2 ∨ i = 3 then 0x01 else if i = 4 then 0x82 else if i = 0x50 then 0x84 else 0x03

/-- The status block (R492). -/
def State.statusBlock (s : State) : List Byte :=
  let r := s.rot
  let f := (if r.updatePending then 1 else 0) + (if r.committed then 2 else 0) + (if r.fallback then 4 else 0) +
    (if r.state = .recovery then 8 else 0)
  leBytes 4 r.measGen ++ [BitVec.ofNat 8 f] ++ s.measIndices.map fun i => BitVec.ofNat 8 (s.meas i).status.code

/-- One block of a report. -/
def State.measBlock (s : State) (i : Nat) : MeasBlock :=
  { index := i, typ := measType i,
    value := if i = 0x50 then s.statusBlock else if (s.meas i).status = .measured then (s.meas i).digest else zeros 48 }

/-- Every block, from one copy of the log. -/
def State.report (s : State) : List MeasBlock := (s.measIndices ++ [0x50]).map s.measBlock

/-- The digest of an item measured: guarded configuration and the kernel item are hashed as they stand. -/
def State.itemDigest (s : State) (q : MeasReq) : List Byte :=
  if q.item = 5 then sha384 s.guardedImage
  else if q.item = 0x42 then imageDigest s.kernelImage
  else q.digest

/-- MEASURE_DONE: the oldest submitted item is measured, its digest recorded, and the command that waits for it
completes (R28, R154, R491). -/
def execMeasureDone (s : State) : Host.Outcome State Fault Refusal :=
  finish (if s.rot.state = .boot then s else match s.rot.queue with
    | [] => s
    | q :: rest =>
      let s := (s.modRot fun r => { r with queue := rest }).record q.item (s.itemDigest q) |>.touchItem 0x09

      match q.page with
      | some (pkg, n) => s.endWait pkg n (.measure q.item) stOk 0
      | none => s)

/-! ### Boot (R481, R487) -/

/-- RECOVERY is entered; `step` is the boot step that failed. -/
def State.recover (s : State) (step : Option Nat) : State :=
  let s := s.modRot fun r => { r with state := .recovery }
  match step with
  | some n => s.log 0x68 0 0x0003 7 n 0 []
  | none => s

/-- The keys a start derives or draws (R482). -/
def State.bootKeys (s : State) (uds : List Byte) : State :=
  let m := s.draw 256
  let t := m.2.draw 384
  t.2.modRot fun r => { r with
    uds, devKey := ecScalar (hkdf uds (ascii "KX DEVID") 56), kMem := leBytes 32 m.1.toNat, kTrace := leBytes 48 t.1.toNat,
    identityOk := true }

/-- Step 5: pending minimum and revocations come into force once ACTIVE has booted. -/
def State.applyPending (s : State) : State :=
  let c := s.rot.ctr
  if c.minSvn < c.pendMin ∨ c.pendRevoke ≠ 0 then
    let c' := { c with gen := c.gen + 1, minSvn := c.pendMin, revoked := c.revoked ||| c.pendRevoke, pendRevoke := 0 }
    (s.writeCounters c').takeCounters c'
  else s

/-- Step 6: the Alias key and certificate, indices 1, 2 and 4, and the firmware starts: it submits guarded
configuration and the kernel item (DESIGN CHOICE: when those are first measured is not given). -/
def State.startFirmware (s : State) (img : FwImage) : State :=
  let k := ecScalar (hkdf s.rot.uds (ascii "KX ALIAS" ++ img.digest ++ leBytes 4 s.rot.ctr.minSvn) 56)
  let d := s.draw 384
  let s := d.2.modRot fun r => { r with
    state := .run, image := img, aliasKey := k,
    aliasCert := Config.aliasCert (ecPublic k) img.digest img.svn r.ctr.minSvn
      (ecdsaSign r.devKey d.1.toNat (sha384 (ecPublic k ++ img.digest ++ leBytes 4 img.svn ++ leBytes 4 r.ctr.minSvn))),
    fwAt := s.now }
  ((((s.record 1 Config.romDigest).record 2 img.digest).record 4 s.securityState).setStat rotPage statReady true).measure 5 [] none
    |>.measure 0x42 [] none

/-- ROT_BOOT: the ROM's six steps. -/
def State.romBoot (s : State) (b : BootIn) : State :=
  if b.jedec = 0 ∨ b.jedec = 0xFFFFFF then s.recover (some 1)
  else if !b.helperOk then (s.log 0x68 0 0x0001 7 0xFFFFFFFF 0 []).recover none
  else match b.badBlock with
  | some k => (s.log 0x68 0 0x0001 7 k 0 []).recover none
  | none =>
    let s := s.bootKeys (padTo 32 b.uds)
    match counterPick (counterOf s.kCtr b.ctr0) (counterOf s.kCtr b.ctr1) with
    | none => s.recover (some 2)
    | some (c, copy) =>
      let s := s.modRot fun r => { r with ctr := c, ctrCopy := copy, devCert := b.cert }
      let check (slot : Bool) := imageCheck s.isSystem c.revoked c.minSvn slot (if slot then b.slotB else b.slotA)
      match check c.active with
      | .inr img => s.applyPending.startFirmware img
      | .inl _ => match check (!c.active) with
        | .inr img =>
          let s := ((s.modRot fun r => { r with fallback := true }).setErr rotPage errFallback).log 0x68 0 0x0002 6
            (if c.active then 0 else 1) 0 []
          s.startFirmware img
        | .inl _ => s.recover (some 4)

def execRotBoot (b : BootIn) (s : State) : Host.Outcome State Fault Refusal :=
  finish (if s.rot.state = .boot then s.romBoot b else s)

/-! ### Firmware update (R488 to R490) -/

/-- The slot that is not ACTIVE. -/
def State.spareSlot (s : State) : Bool := !s.rot.ctr.active

def State.inCommit (s : State) : Bool := decide (s.rot.state = .commit)

/-- Forget a staged image: its slot is erased and index 3 is ABSENT. -/
def State.unstage (s : State) (slot : Bool) : State :=
  ((s.flashErase (slotAddr slot) 1048576).modRot fun r => { r with staged := none, updatePending := false }).setMeas 3
    (MeasEntry.none 3)

/-- FW_STAGE has its image: it is written to the slot that is not ACTIVE, read back and checked. Whether the flash
holds what was written is the flash's own: a free value. -/
def State.fwStaged (s : State) (pkg : Bool) (n : Nat) (data : List Byte) (failed : Bool) : State :=
  let slot := s.spareSlot
  if s.inCommit then s.complete pkg n stError rtInCommit
  else if failed then s.complete pkg n stError rtHostErr
  else
    let s := (s.flashErase (slotAddr slot) data.length).flashWrite (slotAddr slot) data
    let f := s.draw 1
    let s := f.2
    let r : Nat ⊕ FwImage :=
      if f.1 = 1 then .inl rtFlashErr
      else if leAt data 8 4 ≠ data.length then .inl rtBadImage
      else if ownKeyRevoked data then .inl rtRevoked
      else imageCheck s.isSystem s.rot.ctr.revoked (max s.rot.ctr.minSvn s.rot.ctr.pendMin) slot data
    match r with
    | .inl d => (s.unstage slot).complete pkg n stError d
    | .inr img =>
      ((s.modRot fun r => { r with staged := some img, updatePending := true }).record 3 img.digest).complete pkg n stOk 0

/-- FW_STAGE (R488). -/
def fwStageCmd (c : CmdIn) (s : State) : State :=
  let len := (argW c s 2).toNat
  if s.inCommit then s.failCmd c rtInCommit
  else if 1048576 < len then s.failCmd c rtTooLarge
  else if len = 0 then s.failCmd c rtBadImage
  else s.cmdXfer c.pkg c.page.toNat false (arg64 c s 0) len []

def execFwStage (c : CmdIn) (s : State) : Host.Outcome State Fault Refusal :=
  finish (runCmd c 0x68 0x0002 .firmware true (fwStageCmd c) s)

/-- FW_COMMIT opens the commit window (R489). -/
def fwCommitCmd (c : CmdIn) (s : State) : State :=
  if s.inCommit then s.failCmd c rtInCommit
  else match s.rot.staged with
  | none => s.failCmd c rtNotStaged
  | some img =>
    let k := s.rot.ctr
    let k' := { k with gen := k.gen + 1, active := img.slot, pendMin := max k.pendMin img.minNew, pendRevoke := k.pendRevoke ||| img.revoke }
    ((s.writeCounters k').modRot fun r => { r with
      state := .commit,
      commit := some { ctr := k', rst := bit (argW c s 0) 0, pkg := c.pkg, page := c.page.toNat, prior := r.state, ticks := 0 } }).waitFor c
      (.event 22 0)

def execFwCommit (c : CmdIn) (s : State) : Host.Outcome State Fault Refusal :=
  finish (runCmd c 0x68 0x0003 .firmware true (fwCommitCmd c) s)

/-- The window's read-back: the copy is in force, or the flash failed and the earlier one stands. With RESET = 1 the
window stays open until the reset that is now ordered. -/
def State.commitEnd (s : State) (w : Commit) : State :=
  let f := s.draw 1
  let s := f.2
  if f.1 = 1 then
    let s := (s.modRot fun r => { r with state := w.prior, commit := none }).setErr rotPage errCommitFail
    s.endWait w.pkg w.page (.event 22 0) stError rtFlashErr
  else
    let s := s.takeCounters w.ctr
    let s := (s.modRot fun r => { r with committed := true, commit := none }).record 4 s.securityState
    if w.rst then s.rotOrder 1
    else (s.modRot fun r => { r with state := w.prior }).endWait w.pkg w.page (.event 22 0) stOk 0

/-- A slow tick: the window closes after at most 3 ms; when within them is the flash's own. -/
def State.commitTick (s : State) : State :=
  match s.rot.commit with
  | none => s
  | some w =>
    let f := s.draw 1
    if f.1 = 1 ∨ 2999 ≤ w.ticks then f.2.commitEnd w
    else f.2.modRot fun r => { r with commit := some { w with ticks := w.ticks + 1 } }

/-- FW_ABORT (R506). -/
def fwAbortCmd (c : CmdIn) (s : State) : State :=
  if s.inCommit || s.rot.committed then s.failCmd c rtInCommit
  else match s.rot.staged with
  | none => s.failCmd c rtNotStaged
  | some img => (s.unstage img.slot).ok c

def execFwAbort (c : CmdIn) (s : State) : Host.Outcome State Fault Refusal :=
  finish (runCmd c 0x68 0x0004 .firmware true (fwAbortCmd c) s)

/-! ### Re-hash (R494, R504) -/

/-- The copies a warm or package reset has kept, feature tables first. -/
def State.rehashItems (s : State) : List Nat :=
  [0x41, 0x40, 0x42, 0x10, 0x11] ++ List.range' 0x20 (if s.isSystem then 32 else 2) ++ [5]

/-- The reset: every kept copy that is MEASURED reads UNMEASURED, and its re-hash is owed. -/
def State.rehashStart (s : State) : State :=
  let l := (s.rehashItems ++ [0x110, 0x111]).filter fun i => decide ((s.meas i).status = MeasStatus.measured)
  let s : State := l.foldl (fun (s : State) i => s.setMeas i { s.meas i with status := .unmeasured }) s
  (s.modRot fun r => { r with rehash := l }).setStat rotPage statRehash (decide (l ≠ []))

/-- Discard a copy, as if it had never been loaded. -/
def State.discardCopy (s : State) (item : Nat) : State :=
  if item = 0x10 then s.modRed 0 fun n => { n with active := RedCopy.empty }
  else if item = 0x11 then s.modRed 0 fun n => { n with inactive := RedCopy.empty }
  else if item = 0x110 then s.modRed 1 fun n => { n with active := RedCopy.empty }
  else if item = 0x111 then s.modRed 1 fun n => { n with inactive := RedCopy.empty }
  else if item = 0x40 then s.modFtab fun f => { f with active := FtabCopy.empty }
  else if item = 0x41 then s.modFtab fun f => { f with inactive := FtabCopy.empty }
  else if 0x20 ≤ item ∧ item < 0x40 then
    s.modEngine ((item - 0x20) / 2) fun f =>
      if item % 2 = 0 then { f with active := ForestCopy.empty } else { f with inactive := ForestCopy.empty }
  else if item = 0x42 then { s with check := { s.check with kernels := [], regs := [] } }
  else s

/-- REHASH: the next kept copy has been hashed again; `digest` is what the RoT finds in the hub's SRAM (R494). -/
def execRehash (digest : List Byte) (s : State) : Host.Outcome State Fault Refusal :=
  finish (match s.rot.rehash with
    | [] => s
    | i :: rest =>
      let e := s.meas i
      let s := (s.modRot fun r => { r with rehash := rest }).setStat rotPage statRehash (decide (rest ≠ []))
      if e.digest = digest then s.setMeas i { e with status := .measured }
      else
        ((((s.discardCopy i).setMeas i { status := .mismatch, digest := [] }).setErr rotPage errMismatch).touchItem 0x09).log
          0x68 0 0x0004 7 (i % 256) 0 (padTo 48 e.digest ++ padTo 48 digest))

/-- FIRMWARE_REHASH: once each second the resident firmware is hashed; `same` says that it agrees with index 2. -/
def execFirmwareRehash (same : Bool) (s : State) : Host.Outcome State Fault Refusal :=
  finish (
    if s.rot.state = .boot ∨ s.now < s.rot.fwAt + 1000 * ms then s
    else
      let s := s.modRot fun r => { r with fwAt := s.now }
      if same then s else s.rotOrder 4)

/-! ### Decisions checked again (R503) -/

/-- VERIFY_DECISION: the oldest decision in the verification log, at least 1 µs old, is recomputed; `result` is what the
RoT's core finds. -/
def execVerifyDecision (result : Word) (s : State) : Host.Outcome State Fault Refusal :=
  finish (match s.rot.verify with
    | [] => s
    | d :: rest =>
      if s.now < d.at' + us then s
      else
        let s := s.modRot fun r => { r with verify := rest }
        if result = d.result then s
        else
          let again := match s.rot.mismatchAt with
            | some t => decide (s.now ≤ t + 1000 * ms)
            | none => false
          let s := ((s.bumpFld rotPage 0x54 16 16 1).setErr rotPage errVerify).log 0x68 0 0x0005 7 d.kind 0
            (leBytes 4 result.toNat ++ leBytes 4 d.result.toNat ++ d.inputs)
          let s := s.faultMsg 0x68 0x0005 (leBytes 4 d.kind)
          s.modRot fun r => { r with mismatchAt := some s.now, warmDue := r.warmDue || again })

end Sys2Proof.Machine
end

