-- ==== Sys2Proof/Machine/Spdm.lean ====
section
/-!
DEFINITION. The SPDM responder and its vendor-defined requests, but for REG_ACCESS, which performs register accesses
(R495 to R502). A request is brought by SPDM_XFER on a command page; each request row is what the RoT does with one
such message, whose fields stand in its operands. The bytes of messages are those of DMTF SPDM 1.3, which the manual
names: a response is its content here, and its bytes are a function of that content.
-/
namespace Sys2Proof.Machine

/-- Is a request one of those the responder supports (R495)? -/
opaque Config.spdmListed (request : List Byte) : Bool

/-- The bytes of a response, secured under a session where it has one. -/
opaque Config.spdmBytes (session : Option Word) (r : SpdmRsp) : List Byte

/-! ### SPDM_XFER (R496) -/

/-- The page has brought a request that awaits its answer. -/
def State.spdmHolds (s : State) (m : SpdmIn) : Bool :=
  let c := s.cmd m.pkg m.page.toNat
  c.busy && decide (c.wait = .event 23 0)

/-- The response leaves: its bytes go to the response address of the command; more than the capacity ends it. -/
def State.spdmSend (s : State) (m : SpdmIn) (r : SpdmRsp) : State :=
  let n := m.page.toNat
  let key := cmdKey m.pkg n
  let b := Config.spdmBytes m.session r
  let s := s.emit (.spdm m.session r)
  let s := match m.session with
    | some id => s.modRot fun x =>
        let up (e : Session) : Session := { e with tx := e.tx + 1 }
        let l := Tab.modify noSession x.sessions id.toNat fun o => o.map up
        { x with sessions := l }
    | none => s
  if (s.reg key 0x94).toNat < b.length then s.complete m.pkg n stError rtTooLarge
  else
    s.cmdXfer m.pkg n true ((s.reg key 0x8C).toNat + 2 ^ 32 * (s.reg key 0x90).toNat) b.length b

def State.spdmError (s : State) (m : SpdmIn) (e : SpdmError) : State := s.spdmSend m (.error e)

/-- A transfer of SPDM_XFER has completed: the request has been read, or the response written. -/
def State.spdmLoaded (s : State) (pkg : Bool) (n : Nat) (data : List Byte) (wr failed : Bool) : State :=
  if failed then s.complete pkg n stError rtHostErr
  else if wr then (s.setRes pkg n 0 data.length).complete pkg n stOk 0
  else if Config.spdmListed data then s.waitPage pkg n (.event 23 0)
  else s.spdmError { pkg, page := BitVec.ofNat 3 n, session := none } .unsupportedRequest

def spdmXferCmd (c : CmdIn) (s : State) : State :=
  let len := (argW c s 2).toNat
  if len = 0 then s.badArg c
  else if 4096 < len then s.failCmd c rtTooLarge
  else s.cmdXfer c.pkg c.page.toNat false (arg64 c s 0) len []

def execSpdmXfer (c : CmdIn) (s : State) : Host.Outcome State Fault Refusal :=
  finish (runCmd c 0x68 0x0001 .operator true (spdmXferCmd c) s)

/-! ### Taking a request -/

def State.session (s : State) (id : Word) : Option Session := Tab.read noSession s.rot.sessions id.toNat

def State.setSession (s : State) (id : Word) (e : Option Session) : State :=
  s.modRot fun x => { x with sessions := Tab.write noSession x.sessions id.toNat e }

/-- Take a request: one that names a session that is not open is turned away; one of a session counts in it (R495,
R496). -/
def State.spdmTake (s : State) (m : SpdmIn) (act : State → State) : State :=
  if !s.spdmHolds m then s
  else match m.session with
  | none => act s
  | some id => match s.session id with
    | none => s.spdmError m .invalidSession
    | some e => act (s.setSession id (some { e with rx := e.rx + 1, last := s.now }))

/-- The slot-0 certificate chain (R483). -/
def State.certChain (s : State) : List Byte := Config.rootCert ++ s.rot.devCert ++ s.rot.aliasCert

/-- GET_VERSION: 1.3 only; the connection begins again. -/
def execGetVersion (m : SpdmIn) (s : State) : Host.Outcome State Fault Refusal :=
  finish (s.spdmTake m fun s =>
    (s.modRot fun x => { x with transcript := x.transcript.filter fun e => decide (e.1 ≠ m.session) }).spdmSend m (.version [0x13]))

/-- Capability flags: CERT, CHAL, MEAS with signature, ENCRYPT, MAC, MUT_AUTH, KEY_EX, HBEAT, KEY_UPD. -/
def spdmFlags : Word := 0x63D6

def execGetCapabilities (m : SpdmIn) (s : State) : Host.Outcome State Fault Refusal :=
  finish (s.spdmTake m fun s => s.spdmSend m (.capabilities spdmFlags 11 4096 4096))

/-- ECDSA P-384 both ways, SHA-384, secp384r1, AES-256-GCM, the SPDM key schedule, DMTF measurements. -/
def execNegotiateAlgorithms (m : SpdmIn) (s : State) : Host.Outcome State Fault Refusal :=
  finish (s.spdmTake m fun s => s.spdmSend m (.algorithms 0x80 0x80 0x02 0x04 0x10 0x02 0x01 0x01))

def execGetDigests (m : SpdmIn) (s : State) : Host.Outcome State Fault Refusal :=
  finish (s.spdmTake m fun s => s.spdmSend m (.digests 1 (sha384 s.certChain)))

/-- GET_CERTIFICATE: a portion of the chain of slot 0; no other slot exists. -/
def execGetCertificate (m : SpdmIn) (slot offset length : Nat) (s : State) : Host.Outcome State Fault Refusal :=
  finish (s.spdmTake m fun s =>
    let chain := s.certChain
    if slot ≠ 0 then s.spdmError m .invalidRequest
    else
      let p := (chain.drop offset).take length
      s.spdmSend m (.certificate 0 p (chain.length - offset - p.length)))

/-- A signature of the Alias key: its value depends on the RoT's random number. -/
def State.spdmSign (s : State) : List Byte × State :=
  let d := s.draw 768
  (leBytes 96 d.1.toNat, d.2)

/-! ### Deferral during the commit window (R490) -/

/-- Answer ResponseNotReady, and keep the request under a token. -/
def State.spdmDefer (s : State) (m : SpdmIn) (d : Deferred) : State :=
  let token := BitVec.ofNat 8 s.rot.deferrals
  (s.modRot fun x => { x with deferrals := x.deferrals + 1, deferred := some (token, m.session, d) }).spdmError m
    (.responseNotReady 12 2 token)

/-! ### CHALLENGE and GET_MEASUREMENTS (R491 to R493) -/

def State.answerChallenge (s : State) (m : SpdmIn) (slot : Nat) : State :=
  if slot ≠ 0 then s.spdmError m .invalidRequest
  else
    let g := s.spdmSign
    g.2.spdmSend m (.challengeAuth 0 (sha384 g.2.certChain) g.2.report g.1)

def execChallenge (m : SpdmIn) (slot : Nat) (s : State) : Host.Outcome State Fault Refusal :=
  finish (s.spdmTake m fun s => if s.inCommit then s.spdmDefer m (.challenge slot) else s.answerChallenge m slot)

/-- The MEAS_GENs of the unsigned blocks in this transcript. -/
def State.transcriptOf (s : State) (session : Option Word) : List Nat :=
  (s.rot.transcript.filter fun e => decide (e.1 = session)).map (·.2)

def State.endTranscript (s : State) (session : Option Word) : State :=
  s.modRot fun x => { x with transcript := x.transcript.filter fun e => decide (e.1 ≠ session) }

/-- The blocks an operation asks for: 0 their number only, 0xFF all, else one index. -/
def State.askedBlocks (s : State) (op : Nat) : Option (List MeasBlock) :=
  if op = 0 then some [] else if op = 0xFF then some s.report
  else if op ∈ s.measIndices ++ [0x50] then some [s.measBlock op] else none

/-- An unsigned answer adds to the transcript; a signed one whose transcript holds blocks of another MEAS_GEN is
answered RequestResynch (R493). -/
def State.answerMeasurements (s : State) (m : SpdmIn) (op : Nat) (signed : Bool) : State :=
  match s.askedBlocks op with
  | none => s.spdmError m .invalidRequest
  | some bs =>
    let count := s.measIndices.length + 1
    if signed then
      if (s.transcriptOf m.session).any fun g => decide (g ≠ s.rot.measGen) then (s.endTranscript m.session).spdmError m .requestResynch
      else
        let g := s.spdmSign
        (g.2.endTranscript m.session).spdmSend m (.measurements count bs g.1)
    else
      let s := if bs = [] then s
        else s.modRot fun x => { x with transcript := x.transcript ++ [(m.session, s.rot.measGen)] }
      s.spdmSend m (.measurements count bs [])

def execGetMeasurements (m : SpdmIn) (op : Nat) (signed : Bool) (s : State) : Host.Outcome State Fault Refusal :=
  finish (s.spdmTake m fun s =>
    if s.inCommit then s.spdmDefer m (.measurements op signed) else s.answerMeasurements m op signed)

/-! ### Sessions (R495, R497) -/

/-- Sessions open. -/
def State.sessionCount (s : State) : Nat := s.rot.sessions.length

/-- The running image's owner is named. -/
def State.owned (s : State) : Bool := decide (s.rot.image.owner ≠ zeros 48) && decide (s.rot.image.owner ≠ [])

/-- KEY_EXCHANGE opens a session, at most four; with an OWNER it asks for mutual authentication. -/
def State.answerKeyExchange (s : State) (m : SpdmIn) (reqId : BitVec 16) (point : List Byte) : State :=
  if 4 ≤ s.sessionCount then s.spdmError m .sessionLimitExceeded
  else
    let k := s.draw 384
    let d := k.1.toNat % (p384N - 1) + 1
    match ecdh d point with
    | none => k.2.spdmError m .invalidRequest
    | some secret =>
      let id : Word := word (reqId.toNat + 2 ^ 16 * (k.2.rot.exchanges % 2 ^ 16))
      let g := (k.2.modRot fun x => { x with exchanges := x.exchanges + 1 }).spdmSign
      let s := g.2.setSession id (some { done := false, auth := false, secret, keyGen := 0, rx := 0, tx := 0, last := s.now })
      s.spdmSend m (.keyExchangeRsp id s.owned 60 (ecPublic d) g.1)

def execKeyExchange (m : SpdmIn) (reqId : BitVec 16) (point : List Byte) (s : State) : Host.Outcome State Fault Refusal :=
  finish (s.spdmTake m fun s =>
    if s.inCommit then s.spdmDefer m (.keyExchange reqId point) else s.answerKeyExchange m reqId point)

/-- FINISH: `root` is the root certificate of the chain the requester proved, `good` that the message verifies. With an
OWNER it succeeds only when the root's SHA-384 is OWNER (R497). -/
def State.finishOk (s : State) (root : Option (List Byte)) (good : Bool) : Bool :=
  good && (!s.owned || match root with
    | some r => decide (sha384 r = s.rot.image.owner)
    | none => false)

def execFinish (m : SpdmIn) (root : Option (List Byte)) (good : Bool) (s : State) : Host.Outcome State Fault Refusal :=
  finish (s.spdmTake m fun s =>
    match m.session.bind fun id => (s.session id).map fun e => (id, e) with
    | none => s.spdmError m .invalidRequest
    | some (id, e) =>
      if e.done then s.spdmError m .invalidRequest
      else if s.finishOk root good then
        (s.setSession id (some { e with done := true, auth := s.owned })).spdmSend m .finishRsp
      else (s.spdmError m .unspecified).setSession id none)

/-- Act within an established session. -/
def State.inSession (s : State) (m : SpdmIn) (act : Word → Session → State → State) : State :=
  match m.session.bind fun id => (s.session id).map fun e => (id, e) with
  | none => s.spdmError m .invalidRequest
  | some (id, e) => if e.done then act id e s else s.spdmError m .invalidRequest

def execSpdmHeartbeat (m : SpdmIn) (s : State) : Host.Outcome State Fault Refusal :=
  finish (s.spdmTake m fun s => s.inSession m fun _ _ s => s.spdmSend m .heartbeatAck)

/-- KEY_UPDATE: operations 1 and 2 take new keys, 3 verifies them. -/
def execKeyUpdate (m : SpdmIn) (op : Nat) (s : State) : Host.Outcome State Fault Refusal :=
  finish (s.spdmTake m fun s => s.inSession m fun id e s =>
    if op = 1 then (s.setSession id (some { e with keyGen := e.keyGen + 1, rx := 0 })).spdmSend m (.keyUpdateAck op)
    else if op = 2 then (s.setSession id (some { e with keyGen := e.keyGen + 1, rx := 0, tx := 0 })).spdmSend m (.keyUpdateAck op)
    else if op = 3 then s.spdmSend m (.keyUpdateAck op)
    else s.spdmError m .invalidRequest)

/-- END_SESSION: link keys stay (R501). -/
def State.dropSession (s : State) (id : Word) : State := (s.setSession id none).endTranscript (some id)

def execEndSession (m : SpdmIn) (s : State) : Host.Outcome State Fault Refusal :=
  finish (s.spdmTake m fun s => s.inSession m fun id _ s => (s.spdmSend m .endSessionAck).dropSession id)

/-- SESSION_TIMEOUT: 120 s without a message (R495). -/
def execSessionTimeout (id : Word) (s : State) : Host.Outcome State Fault Refusal :=
  finish (match s.session id with
    | some e => if e.last + 120000 * ms ≤ s.now then s.dropSession id else s
    | none => s)

/-- RESPOND_IF_READY (R490): not ready while the window is open; then the answer, from the state after it; a request
the RoT no longer holds is answered RequestResynch. -/
def execRespondIfReady (m : SpdmIn) (token : Byte) (s : State) : Host.Outcome State Fault Refusal :=
  finish (s.spdmTake m fun s =>
    match s.rot.deferred with
    | none => s.spdmError m .requestResynch
    | some (t, sess, d) =>
      if t ≠ token ∨ sess ≠ m.session then s.spdmError m .requestResynch
      else if s.inCommit then s.spdmError m (.responseNotReady 12 2 token)
      else
        let s := s.modRot fun x => { x with deferred := none }
        match d with
        | .challenge slot => s.answerChallenge m slot
        | .measurements op signed => s.answerMeasurements m op signed
        | .keyExchange reqId point => s.answerKeyExchange m reqId point)

/-! ### Vendor-defined requests (R497, R498) -/

/-- A vendor request acts only in a mutually authenticated session (R497). -/
def State.vendorTake (s : State) (m : SpdmIn) (act : State → State) : State :=
  s.spdmTake m fun s =>
    match m.session.bind s.session with
    | some e => if e.done && e.auth then act s else (s.setErr rotPage errAuthFail).spdmError m .unsupportedRequest
    | none => (s.setErr rotPage errAuthFail).spdmError m .unsupportedRequest

/-- A response: its status byte, and what follows. -/
def State.vendorSend (s : State) (m : SpdmIn) (status : Byte) (body : List Byte) : State := s.spdmSend m (.vendor (status :: body))

def vsBadPort : Byte := 1
def vsBadShare : Byte := 2
def vsWrongPeer : Byte := 3
def vsNoShare : Byte := 4
def vsNotInstalled : Byte := 5
def vsRole : Byte := 6

/-- A port number the block has: none where it has, ROLE for a port of the other role, else BAD_PORT (DESIGN CHOICE:
the manual names ROLE and does not say when). -/
def State.portStatus (s : State) (p : Nat) : Option Byte :=
  if s.isSystem then (if p ≤ 35 then none else some vsBadPort)
  else if p ≤ 8 then none else if p ≤ 35 then some vsRole else some vsBadPort

def State.share (s : State) (p : Nat) : Option Share := Tab.read noShare s.rot.shares p
def State.setShare (s : State) (p : Nat) (x : Option Share) : State :=
  s.modRot fun r => { r with shares := Tab.write noShare r.shares p x }

/-- The first 136 bytes of a share (R499). -/
def shareBody (own peer : BitVec 16) (port : Nat) (point nonce : List Byte) : List Byte :=
  leBytes 2 own.toNat ++ leBytes 2 peer.toNat ++ [BitVec.ofNat 8 port, 0, 0, 0] ++ point ++ nonce

/-- LINK_SHARE: an ephemeral key pair for the port, in place of an older one (R499). -/
def execLinkShare (m : SpdmIn) (port : Nat) (s : State) : Host.Outcome State Fault Refusal :=
  finish (s.vendorTake m fun s =>
    match s.portStatus port with
    | some st => s.vendorSend m st []
    | none =>
      let k := s.draw 384
      let d := k.1.toNat % (p384N - 1) + 1
      let n := k.2.draw 248
      let z := n.2.draw 384
      let nonce := leBytes 31 n.1.toNat
      let s := z.2.setShare port (some { priv := d, nonce, at' := s.now })
      let b := shareBody s.node (s.port port).peer port (ecPublic d) nonce
      s.vendorSend m 0 (b ++ ecdsaSign s.rot.aliasKey (z.1.toNat % (p384N - 1) + 1) (sha384 b)))

/-- R500 1: the chain roots at the ROM's root, and the share's signature verifies with its Alias key. -/
def shareGood (share chain : List Byte) : Bool :=
  decide (share.length = 232) && decide (Config.chainRoot chain = Config.rootCert) &&
    match Config.chainKey chain with
    | some k => ecdsaVerify k (sha384 (slice share 0 136)) (slice share 136 96)
    | none => false

/-- The 72 bytes of key material, the lower node first (R500). -/
def linkMaterial (own peer : Nat) (mine theirs z : List Byte) : List Byte :=
  let lo := own < peer
  let salt := if lo then mine ++ theirs else theirs ++ mine
  let ends := if lo then leBytes 2 own ++ leBytes 2 peer else leBytes 2 peer ++ leBytes 2 own
  hkdfExpand (hkdfExtract salt z) (ascii "KX LINK" ++ ends) 72

/-- LINK_INSTALL (R500): the checks in order; then the receive key is installed and the send key waits for LINK_ARM. -/
def State.linkInstall (s : State) (port : Nat) (share chain : List Byte) : Byte × State :=
  let peer := (s.port port).peer
  if !shareGood share chain then (vsBadShare, s)
  else if leAt share 0 2 ≠ peer.toNat ∨ leAt share 2 2 ≠ s.node.toNat then (vsWrongPeer, s)
  else match s.share port with
  | none => (vsNoShare, s)
  | some x => match ecdh x.priv (slice share 8 97) with
    | none => (vsBadShare, s)
    | some z =>
      let okm := linkMaterial s.node.toNat peer.toNat x.nonce (slice share 105 31) z
      let lo := decide (s.node.toNat < peer.toNat)
      let out (b : Bool) : LinkKey := { key := slice okm (if b then 0 else 32) 32, salt := slice okm (if b then 64 else 68) 4, ctr := 0 }
      let tx := out lo
      let s := (s.setShare port none).modChan port fun c => { c with rxKey := some (out (!lo)) }
      (0, s.modRot fun r => { r with agreed := Tab.write noAgreed r.agreed port (some { key := tx.key, salt := tx.salt, peer }) })

def execLinkInstall (m : SpdmIn) (port : Nat) (share chain : List Byte) (s : State) : Host.Outcome State Fault Refusal :=
  finish (s.vendorTake m fun s =>
    match s.portStatus port with
    | some st => s.vendorSend m st []
    | none =>
      let r := s.linkInstall port share chain
      r.2.vendorSend m r.1 [])

/-- LINK_ARM: frames sent for the first time from now on carry SEC 1, counted from 0 (R501). -/
def State.linkArm (s : State) (port : Nat) : Byte × State :=
  match Tab.read noAgreed s.rot.agreed port with
  | none => (vsNotInstalled, s)
  | some k =>
    if (s.chan port).rxKey.isNone then (vsNotInstalled, s)
    else (0, s.modChan port fun c => { c with armed := true, txKey := some { key := k.key, salt := k.salt, ctr := 0 } })

def execLinkArm (m : SpdmIn) (port : Nat) (s : State) : Host.Outcome State Fault Refusal :=
  finish (s.vendorTake m fun s =>
    match s.portStatus port with
    | some st => s.vendorSend m st []
    | none =>
      let r := s.linkArm port
      r.2.vendorSend m r.1 [])

/-- SHARE_EXPIRE: an unused private key is erased after 1 s (R499). -/
def execShareExpire (port : Nat) (s : State) : Host.Outcome State Fault Refusal :=
  finish (match s.share port with
    | some x => if x.at' + 1000 * ms ≤ s.now then s.setShare port none else s
    | none => s)

/-! ### Trace tokens (R451, R502) -/

/-- The first 32 bytes of a token. -/
def tokenBody (sources dests : Byte) (node : BitVec 16) (notAfter : FT) (nonce : Nat) : List Byte :=
  [1, sources, dests, 0] ++ leBytes 2 node.toNat ++ zeros 2 ++ ftBytes notAfter ++ zeros 2 ++ leBytes 4 nonce ++ zeros 8

/-- TAG. -/
def State.tokenTag (s : State) (body : List Byte) : List Byte := (hmac384 s.rot.kTrace body).take 16

/-- 24 h. -/
def dayFT : FT := 24 * 3600 * 1000 * ms

/-- TRACE_TOKEN: a token for this node, at most 24 h long; every earlier one is revoked (R502). -/
def execTraceToken (m : SpdmIn) (sources dests : Byte) (notAfter : Nat) (s : State) : Host.Outcome State Fault Refusal :=
  finish (s.vendorTake m fun s =>
    let s := s.modRot fun r => { r with tokens := r.tokens + 1 }
    let b := tokenBody sources dests s.node (min (truncFT notAfter) (s.ft + dayFT)) s.rot.tokens
    s.vendorSend m 0 (b ++ s.tokenTag b))

/-- What a presented token allows; none where it is refused (R451, R502). -/
def State.tokenOf (s : State) (b : List Byte) : Option Token :=
  let body := slice b 0 32
  let t : Token := { sources := BitVec.ofNat 8 (leAt b 1 1), dests := BitVec.ofNat 8 (leAt b 2 1), notAfter := leAt b 8 10 }
  if b.length = 48 ∧ body = tokenBody t.sources t.dests s.node t.notAfter (leAt b 20 4) ∧ leAt b 20 4 = s.rot.tokens ∧ 0 < s.rot.tokens ∧
      slice b 32 16 = s.tokenTag body ∧ s.now ≤ t.notAfter then some t
  else none

/-- TRACE_AUTH has its token. The manual names no DETAIL for a host memory failure here. -/
def State.authLoaded (s : State) (pkg : Bool) (n : Nat) (data : List Byte) (failed : Bool) : State :=
  match if failed then none else s.tokenOf data with
  | some t => ({ s with trace := { s.trace with token := some t } }).complete pkg n stOk 0
  | none => s.complete pkg n stError 4

/-- TRACE_AUTH (R451): length 0 withdraws the token. -/
def traceAuthCmd (c : CmdIn) (s : State) : State :=
  let len := (argW c s 2).toNat
  if len = 0 then ({ s with trace := { s.trace with token := none } }).ok c
  else if len ≠ 48 then s.badArg c
  else s.cmdXfer c.pkg c.page.toNat false (arg64 c s 0) 48 []

def execTraceAuth (c : CmdIn) (s : State) : Host.Outcome State Fault Refusal :=
  finish (runCmd c 0x60 0x0004 .firmware true (traceAuthCmd c) s)

end Sys2Proof.Machine
end

