-- ==== Sys2Proof/Machine/Waves.lean ====
section
/-!
DEFINITION. Release waves: the barrier broadcast, its arming, the waves and their deferral, and the release of a
job with waves (R327, R378 to R380).
-/
namespace Sys2Proof.Machine

/-- The current step of a wave in A (WAVE_I0, WAVE_I1). -/
def State.waveAmps (s : State) (k : Nat) : Nat := s.regFld hpPage (0x8C + 4 * (k / 4)) (8 * (k % 4)) 8

/-- The gap of each wave in ns (R379). -/
def State.waveGap (s : State) (window n k : Nat) : Nat :=
  max (window / n) (ceilDiv (1000 * s.waveAmps k) (max 1 (s.regFld hpPage 0x84 0 16)))

/-- Starts of the waves from instant `t` on, and the end of the last gap. -/
def State.waveStarts (s : State) (window n : Nat) : FT → List Nat → List (Nat × FT) × FT
  | t, [] => ([], t)
  | t, k :: ks =>
    let r := s.waveStarts window n (t + s.waveGap window n k * ns) ks
    ((k, t) :: r.1, r.2)

/-- Arm the waves of a mask at T (R379): instants are fixed now; RAMP_LONG when they outlast the window. -/
def State.waveArm (s : State) (origin : BitVec 16) (seq : BitVec 32) (job : Bool) (ident : BitVec 32) (t : FT) (mask window : Nat) : State :=
  let w := if window = 0 then s.regFld hpPage 0x84 16 16 else window
  let ks := if s.isDie then (List.range 8).filter fun k => decide (mask / 2 ^ k % 2 = 1) else []
  let r := s.waveStarts w ks.length t ks
  let s := if t + w * ns < r.2 ∧ ks ≠ [] then s.hpErr errRampLong else s
  s.modHp fun x => { x with waves := x.waves ++
    [{ origin, seq, job, ident, t, waves := r.1, gone := 0, defers := 0, begun := job }] }

/-- The number of a barrier's event. -/
def waveKey (w : WaveSet) : Nat := w.origin.toNat * 2 ^ 32 + w.seq.toNat

/-- A BARRIER broadcast reaches a node (R378): every die hub takes part, and the origin holds the event for its command. -/
def State.barrierArm (s : State) (b : Bcast) : Acted :=
  let ident : BitVec 32 := BitVec.ofNat 32 (leAt b.args 0 4)
  let zero := AckCounts.zero 0
  if s.isDie || decide (b.origin = s.node) then
    let reason : Nat := if b.t ≤ s.now + b.guard.toNat * us then 1 else if 32 ≤ s.time.evts.length then 2 else 0
    if reason = 0 then
      let s := (s.evtAdd .wave b.t (b.origin.toNat * 2 ^ 32 + b.seq.toNat)).getD s
      { s := s.waveArm b.origin b.seq false ident b.t (leAt b.args 4 1) (leAt b.args 6 2)
        own := if s.isDie then { zero with armed := 1 } else zero, reason := 0 }
    else
      { s := (s.bumpFld svcPage 0x50 8 8 1).svcErr errNotArmed |>.log 0x40 0 0x0001 5 b.job.toNat reason (ftBytes b.t)
        own := { zero with notArmed := 1 }, reason }
  else { s, own := zero, reason := 0 }

/-- Complete the BARRIER command that waits for a set, with the counts of its broadcast (R327, R378). -/
def State.barrierEnd (s : State) (w : WaveSet) (st : Byte) (detail : Nat) : State :=
  let c := s.countsOf (w.origin, w.seq)
  (s.waiters fun x => decide (w.origin = s.node) && decide (x = .event 13 w.seq.toNat)).foldl (fun s p =>
    let r (s : State) (k v : Nat) : State := s.setRes p.1 p.2 k v
    (r (r (r (r (r s 0 c.armed) 1 c.notArmed) 2 c.notMember) 3 c.missing) 4 w.seq.toNat).complete p.1 p.2 st detail) s

/-- The WAVES record (R380). -/
def State.waveLog (s : State) (w : WaveSet) : State := s.log 0x48 0 0x0007 4 w.ident.toNat w.gone.toNat []

def State.waveDrop (s : State) (w : WaveSet) : State :=
  (s.modHp fun x => { x with waves := x.waves.filter fun v => !(decide (waveKey v = waveKey w) && decide (v.job = w.job)) }).evtDrop .wave
    (waveKey w)

/-- The instant at which a set is next due: T before it has come, then its next wave. -/
def waveDue (w : WaveSet) : FT :=
  if w.begun then (match w.waves with
    | (_, t) :: _ => t
    | [] => w.t) else w.t

/-- The set that is due first. -/
def firstDue : List WaveSet → Option WaveSet
  | [] => none
  | w :: ws => match firstDue ws with
    | some v => if waveDue v < waveDue w then some v else some w
    | none => some w

/-- T of a barrier passes with its release prevented: by a Snuff (status SNUFFED) or a forward step (R26, R244). -/
def State.waveFail (s : State) (w : WaveSet) (snuffed : Bool) : State :=
  let s := if w.begun || decide (w.waves ≠ []) then s.waveLog w else s
  (if w.begun then s else s.barrierEnd w (if snuffed then stSnuffed else stError) (if snuffed then 0 else 0x20)).waveDrop w

/-- Put a set back in its place. -/
def State.wavePut (s : State) (w : WaveSet) : State :=
  s.modHp fun x => { x with waves := x.waves.map fun v => if waveKey v = waveKey w ∧ v.job = w.job then w else v }

/-- The next wave of a set that is due (R379, R380): it is released, or put off with all later ones. -/
def State.waveStep (s : State) (w : WaveSet) : State :=
  match w.waves with
  | [] => (if w.defers = 4 then s.waveLog w else s).waveDrop w
  | (k, _) :: rest =>
    if bit (s.reg hpPage 0x88) 31 && decide (w.defers < 4) && (List.range 16).any s.regionHeld then
      let d := s.regFld hpPage 0x88 0 16 * ns
      s.wavePut { w with waves := w.waves.map fun e => (e.1, e.2 + d), defers := w.defers + 1 }
    else
      let s := s.emit (.power sigWaveGo k 8)
      let w := { w with waves := rest, gone := setBit w.gone k true }
      if rest = [] then (if w.defers = 4 then s.waveLog w else s).waveDrop w else s.wavePut w

/-- WAVE_RELEASE: T of a barrier comes, or the instant of a wave. -/
def execWaveRelease (s : State) : Host.Outcome State Fault Refusal :=
  finish (
    match firstDue s.hpwr.waves with
    | none => s
    | some w =>
      if !s.snuffedBy (waveDue w) && s.earlierDue (waveDue w) 4 then s else
      let snuffed := s.snuffedBy (waveDue w)
      let s := s.advanceTo (waveDue w)
      if snuffed then s.waveFail w true
      else if w.begun then s.waveStep w
      else
        let c := s.countsOf (w.origin, w.seq)
        let s := if c.notArmed = 0 ∧ c.missing = 0 then s.barrierEnd w stOk 0 else s.barrierEnd w stError 0x10
        let w := { w with begun := true }
        ((s.evtDrop .wave (waveKey w)).wavePut w).waveStep w)

/-- JOB_RELEASE: T of an armed job comes; with WAVES the release goes to the host units in waves, every wave line in
the mask (R327, R378). -/
def execJobRelease (job : BitVec 16) (s : State) : Host.Outcome State Fault Refusal :=
  finish (
    match s.jobOf job with
    | some (_, j) =>
      if s.earlierDue j.t 2 then s else
      let armed := decide (j.state = .armed)
      let s := s.jobRelease job
      let runs := (s.jobOf job).any fun e => decide (e.2.state = .running)
      if armed && runs && j.waves && j.member then s.waveArm j.rootNode j.seq true (BitVec.ofNat 32 job.toNat) j.t 0xFF 0 else s
    | none => s)

/-- What a node does with a broadcast of the service kinds and of BARRIER. -/
def actWaves (s : State) (b : Bcast) : Acted := if b.kind = 7 then s.barrierArm b else actSvc s b

/-- The effect of BARRIER (R378, R383). -/
def barrier (c : CmdIn) (s : State) : State :=
  let t := argFT c s 2
  let g0 := argFld c s 5 0 16
  let guard := if g0 = 0 then s.regFld svcPage 0x4C 16 16 else g0
  if t < s.now + (guard + 10) * us then s.failCmd c 0x11
  else if 32 ≤ s.time.evts.length then s.failCmd c 0x21
  else
    let args := padTo 32 (leBytes 4 (argW c s 0).toNat ++ leBytes 1 (argFld c s 1 0 8) ++ [0] ++ leBytes 2 (argFld c s 1 16 16))
    let r := s.bcastSend 7 false true 0 guard t 0 args actWaves
    r.2.waitFor c (.event 13 r.1)

/-- BARRIER. -/
def execBarrier (c : CmdIn) (s : State) : Host.Outcome State Fault Refusal :=
  finish (runCmd c 0x48 0x0010 .operator true (barrier c) s)

end Sys2Proof.Machine
end

