-- ==== Sys2Proof/Machine/Loss.lean ====
section
/-!
DEFINITION. What each reset loses and keeps (R404 to R411): the survival table, the incarnations, the pages and commands
in a reset's scope, and the loss of supply.
-/
namespace Sys2Proof.Machine

def bpPage : Nat := pg 0x50
def errBistFail : Nat := 16
def errBrownout : Nat := 17
def errRefclkLost : Nat := 19

def State.modBpwr (s : State) (f : Bpwr → Bpwr) : State := { s with bpwr := f s.bpwr }

/-- The classes of R410 with an L in a reset kind's column. `refclkLost` is the case of R398. -/
def lostBy (refclkLost : Bool) : ResetKind → List Nat
  | .poAon => List.range 19
  | .offExit => List.range 19
  | .pin => [0, 1, 2, 3, 8, 9, 10, 11, 12, 13, 14, 15, 16, 17, 18]
  | .rot => [0, 1, 2, 3, 8, 9, 10, 11, 12, 13, 14, 15, 16, 17, 18]
  | .poVddk => [0, 1, 10, 11, 12, 13, 14, 15, 16, 18]
  | .emberExit => [0, 1, 10, 11, 12, 13, 14, 15, 16, 18] ++ if refclkLost then [8] else []
  | .poVddt => [8]
  | .warm => [12, 13, 16, 18]
  | .package => [12, 13, 15, 16, 18]
  | .region _ => [15]

/-- Does a reset that removes supply keep configuration (class 2)? -/
def keepsConfig : ResetKind → Bool
  | .poVddk => true
  | .emberExit => true
  | _ => false

/-- Is all of VDDAON's content lost? -/
def losesAon : ResetKind → Bool
  | .poAon => true
  | .offExit => true
  | _ => false

/-- KX_BPWR_RESET: the latest kind and the count of resets since power-on of VDDAON. -/
def State.noteReset (s : State) (k : ResetKind) : State :=
  let n := if losesAon k then 0 else satAdd 24 (s.regFld bpPage 0x58 0 24) 1
  s.setReg bpPage 0x58 (word (k.code * 2 ^ 28 + n))

/-! ### Pages and commands in scope -/

/-- The pages that a warm reset reaches: the die hub's logic but for the timekeeper, the always-on domain and the root of
trust (R404, R480). -/
def warmPage (key : Nat) : Bool :=
  !(decide (keyType key = 0x30) || decide (keyType key = 0x31) || decide (keyType key = 0x50) || decide (keyType key = 0x68))

/-- The pages of the block, its own and the package window's. -/
def State.allPageKeys (s : State) : List Nat := (s.ownPages ++ if s.isDie then packagePages else []).map (·.2)

/-- PAGE_INCARN advances (R65). -/
def State.nextIncarn (s : State) (keys : List Nat) : State :=
  keys.foldl (fun s k => s.modHdr k fun h => { h with incarn := h.incarn + 1 }) s

/-- IN_RESET of the pages in scope; DIR and PKGDIR go on answering. -/
def State.pagesInReset (s : State) (keys : List Nat) (v : Bool) : State :=
  (keys.filter fun k => decide (keyType k ≠ 0x01) && decide (keyType k ≠ 0x80)).foldl (fun s k => s.setStat k statInReset v) s

/-- The record of an armed guard latch that a reset discards (R74, R417). -/
def State.tellLatch (s : State) (key : Nat) : State :=
  match (s.hdr key).guard with
  | some g => s.log (pageNo key) (keyInst key) 0xFFF6 2 g.off (g.rid.toNat + 256 * 3) []
  | none => s

/-- The latches of a page are lost: an armed guard is discarded with its record (R74), the wide latch empties (R410 class
18). -/
def State.dropLatches (s : State) (key : Nat) : State :=
  let h := s.hdr key
  let s := s.modHdr key fun h => { h with guard := none, wide := none, staged := [] }
  match h.guard with
  | some g => s.guardDiscard key g.off g.rid 3
  | none => s

/-- A reset reaches a command page (R84): a command that runs ends with STATUS RESET, an idle page's STAT and results
return to zero. The command that ordered the reset, by its order's code, goes on (R406). -/
def State.cmdReset (s : State) (code : Nat) (pkg : Bool) (n : Nat) : State :=
  let c := s.cmd pkg n
  if c.wait = .event 24 code then s
  else if c.busy then (s.clearRes pkg n).complete pkg n stReset 0
  else (s.clearRes pkg n).setCmd pkg n { c with done := false, status := 0, detail := 0 }

def State.cmdsReset (s : State) (code : Nat) : State := allPages.foldl (fun s x => s.cmdReset code x.1 x.2) s

/-- Nothing waits any more for a command that a reset has ended. -/
def State.dropWaits (s : State) : State :=
  let s : State := { s with
    reds := { s.reds with nodes := s.reds.nodes.map fun e => (e.1, { e.2 with acts := [], clears := [] }) }
    forest := { s.forest with
      engines := s.forest.engines.map fun e => (e.1, { e.2 with acts := [], scores := [] })
      ftab := { s.forest.ftab with acts := [] } }
    check := { s.check with katReqs := [], clears := [] }
    samp := { s.samp with
      grid := { s.samp.grid with pend := s.samp.grid.pend.map fun p => { p with page := none } }
      geyser := { s.samp.geyser with page := none } }
    time := { s.time with
      setPps := none
      relock := s.time.relock.map fun r => { r with page := none } }
    links := { s.links with
      swapWait := none
      ports := s.links.ports.map fun e => (e.1, { e.2 with gatePage := none }) }
    fum := { s.fum with pulls := [], dumps := [], ckpts := [], restores := [] }
    snuff := { s.snuff with dumps := [] } }
  s.modRot fun r => { r with queue := r.queue.map fun q => { q with page := none } }

/-- Host-memory transfers of a reset scope end; the tags stay until their replies come, which are then dropped (R408). -/
def State.dropXfers (s : State) (p : Option Nat → Bool) : State :=
  let gone (id : Nat) : Bool := match Tab.read noXfer s.pages.xfers id with
    | some x => p x.region
    | none => false
  let notices := (s.pages.ringQ.filter fun w => p w.region && decide (w.page = pg 0x28)).map fun w => noticeKey w.bytes
  { s with
    check := { s.check with seen := s.check.seen.filter fun k => !notices.contains k }
    pages := { s.pages with
      xfers := s.pages.xfers.filter fun e => !gone e.1
      ringQ := s.pages.ringQ.filter fun w => !p w.region
      hmTags := s.pages.hmTags.filter fun e => match e.2 with
        | some t => !(gone t.xfer && t.again.isSome)
        | none => true } }

/-! ### The counters that a warm reset clears (R410 class 16) -/

/-- Offsets of the counters by page type. -/
def warmCounters (key : Nat) : List Nat :=
  let block : List Nat := [0x2C, 0x30, 0x34, 0x38, 0x3C, 0x40, 0x44, 0x48, 0x4C]
  let ports (n : Nat) : List Nat := (List.range n).flatMap fun p => block.map fun o => 0x100 + 128 * p + o
  match keyType key with
  | 0x02 => [0x58]
  | 0x18 => [0x48, 0x4C, 0x50]
  | 0x20 => [0x54, 0x58, 0x5C, 0x60, 0x84]
  | 0x38 => ports 9
  | 0x39 => [0x50, 0x54, 0x58, 0x5C, 0x60, 0x64, 0x68, 0x6C, 0x70]
  | 0x40 => [0x50, 0x54, 0x6C]
  | 0x91 => ports 4
  | 0x93 => ports 1
  | _ => []

def State.clearCounters (s : State) (keys : List Nat) : State :=
  keys.foldl (fun s k => (warmCounters k).foldl (fun s o => s.setReg k o 0) s) s

/-! ### A warm reset (R404) -/

/-- The probes' snapshot holding registers and the record latch are lost; a snapshot in progress is abandoned (R78). -/
def State.dropHeld (s : State) : State :=
  { s with
    samp := { s.samp with heldP := [], heldC := [] }
    pages := { s.pages with
      snapBusy := false, snapPartial := s.pages.snapPartial || s.snapRuns
      snapSeq := if s.snapRuns then s.pages.snapSeq - 1 else s.pages.snapSeq }
    reds := { s.reds with nodes := s.reds.nodes.map fun e => (e.1, { e.2 with latch := [], latchRec := SlotRec.empty 0 }) }
    fum := { s.fum with window := [], captured := false, capCrcBad := false, capLen := 0 } }

/-- A reduction node after a warm reset: the two copies stand, slots, trackers and windows are lost (R162). -/
def Red.warm (x : Red) : Red := { Red.reset 0 with active := x.active, inactive := x.inactive, act := x.act }

/-- A forest engine after a warm reset: the two copies and its spares stand; the verdict table, NEXT and what was in
flight are lost (R202). -/
def Forest.warm (f : Forest) : Forest :=
  { Forest.reset 0 with
    active := f.active, inactive := f.inactive, act := f.act, disabled := f.disabled, rowSpare := f.rowSpare,
    bankFor := f.bankFor, dead := f.dead, scrubRow := f.scrubRow, clean := f.clean }

/-- The engines whose active image is valid rewrite their TCAMs from the shadow (R193, R198). -/
def State.tcamRestore (s : State) : State :=
  (List.range s.engineCount).foldl (fun s e => if (s.engine e).active.valid then s.rebuildStart e .restore else s) s

/-- The first and last of the taint epochs of a job's reports. -/
def addLost (l : List (Nat × Nat × Nat)) (job te : Nat) : List (Nat × Nat × Nat) :=
  if l.any fun e => decide (e.1 = job) then
    l.map fun e => if e.1 = job then (job, min e.2.1 te, max e.2.2 te) else e
  else l ++ [(job, te, te)]

/-- Reports received and not yet checked are lost, by job (R226). -/
def State.loseReports (s : State) : State :=
  let l := s.check.held.foldl (fun l e => match e.2 with
    | some (w, _) =>
      let te := fld (w.getD 0 0) 0 16
      addLost l (s.probe e.1).job.toNat (s.check.taint - (s.check.taint + 2 ^ 16 - te) % 2 ^ 16)
    | none => l) s.check.lost
  s.modCheck fun c => { c with held := [], lost := l }

/-- The known-answer test in progress ends with the logic that runs it, and TEST falls. -/
def State.katDrop (s : State) : State :=
  match s.check.kat with
  | some k => (s.lowerGate k.unit .test).modCheck fun c => { c with kat := none }
  | none => s

/-- Every PACE class whose port the reset reaches takes its pending flop count (R53): HOST and PWR at a warm reset. -/
def State.syncWarm (s : State) : State := (s.applySync 2).applySync 10

/-- The trace router's logic restarts; the latches stand at the probes, and the token is lost (R452). -/
def State.traceWarm (s : State) : State :=
  s.tokenLose.modTrace fun t => { Trace.reset with latches := t.latches, syncAt := t.syncAt }

/-- What a warm reset of the die hub does at its start: the logic of HUB and ENG restarts, the link layer, the timekeeper,
the root of trust, the probes and the power manager's outputs do not. -/
def State.warmStart (s : State) (code : Nat) : State :=
  let keys := s.allPageKeys.filter warmPage
  let s := s.loseReports.katDrop.hpWarm.svcWarm.snuffWarm.traceWarm
  let s := keys.foldl State.dropLatches s
  let s := ((s.cmdsReset code).dropWaits.dropXfers fun _ => true).dropHeld.clearCounters keys
  let s : State := { s with
    reds := { nodes := s.reds.nodes.map fun e => (e.1, Red.warm e.2), tiles := [], verdicts := [], staleVerdicts := [], services := [] }
    forest := { s.forest with engines := s.forest.engines.map fun e => (e.1, Forest.warm e.2), snaps := [] }
    samp := { s.samp with geyser := Geyser.reset }
    sinter := Sinter.reset
    pace := { s.pace with watch := [] } }
  ((s.syncWarm.nextIncarn keys).pagesInReset keys true)

/-! ### A package reset (R404, R501) -/

/-- A package link's keys are lost with the package reset (R501), and the link is reset. -/
def State.packageLinks (s : State) : State :=
  (List.range 7).foldl (fun s p => s.linkReset p p) s

/-! ### A region reset (R407, R408) -/

/-- Requests of CLEAR_TOTALS that wait for a close and name a probe of the region end with STATUS RESET (R120). -/
def State.clearTotalsReset (s : State) (r : Nat) : State :=
  allPages.foldl (fun s x =>
    let c := s.cmd x.1 x.2
    let first := fld (s.reg (cmdKey x.1 x.2) 0x80) 0 13
    let l := List.range' first (fld (s.reg (cmdKey x.1 x.2) 0x84) 0 14)
    let other (p : Nat) : Bool := allPages.any fun y =>
      let c := s.cmd y.1 y.2
      let first := fld (s.reg (cmdKey y.1 y.2) 0x80) 0 13
      decide (y ≠ x) && c.busy && decide (fld c.cmd 8 24 = 0x100003) && decide (first ≤ p) &&
        decide (p < first + fld (s.reg (cmdKey y.1 y.2) 0x84) 0 14)
    if c.busy && decide (fld c.cmd 8 24 = 0x100003) && l.any fun p => decide (regionOf (clusterOf p) = r) then
      ((l.foldl (fun s' p => s'.modProbe p fun y => { y with clear := y.clear && other p }) s).setRes x.1 x.2 0 0).complete x.1 x.2 stReset 0
    else s) s

/-- The start of a region reset. -/
def State.regionStart (s : State) (r : Nat) : State :=
  let s := s.modRegion r fun y => { y with incarn := y.incarn + 1, inReset := true }
  let s := (s.clearTotalsReset r).dropXfers fun x => decide (x = some r)
  let s := (s.gyUnits.filter fun p => decide (regionOf (clusterOf p) = r)).foldl (fun s p => s.modProbe p fun x => { gyRoll s.gyStart x with glost := true }) s
  let s := s.snuffRegion r
  let s := match s.check.kat with
    | some k => if regionOf (clusterOf k.unit) = r then s.katAbandon 4 else s
    | none => s
  let s := (s.resetChan (64 + r)).modPort (64 + r) fun _ => LinkPort.reset (64 + r)
  ((List.range 4).foldl (fun s k => s.ringGo (traceRing k)) s).loseBits [15]

/-- The end of a region reset: records that wait in the probes' latches are taken at once (R407). -/
def State.regionFinish (s : State) (r : Nat) : State :=
  let s := s.modRegion r fun y => { y with inReset := false, gapped := false }
  (clustersOf r).foldl (fun s c => ((probesOf c).foldl State.deliver s).commit c) s

/-! ### Loss of supply (R402, R404, R410) -/

/-- A register word after its supply was lost and its configuration kept: RW bits stand, every other bit returns to its
reset value. The trace pointers are configuration, and KX_BPWR lives in the always-on domain. -/
def keptWord (k : Nat) (w : Word) : Word :=
  let ty := keyType (k / 1024)
  let off := k % 1024 * 4
  if ty = 0x50 then w
  else if ty = 0x60 ∧ 0x110 ≤ off then w
  else match regAt ty off with
    | some (r, _, i) =>
      let m := wordOf r.rw i
      (w &&& m) ||| (regReset k &&& ~~~ m)
    | none => regReset k

/-- The registers after a reset: KX_BPWR's status words live in the always-on domain, and lose nothing but by a loss of
VDDAON; a pin reset clears KX_BPWR_STALE. -/
def regsAfter (k : ResetKind) (t : Tab Word) : Tab Word :=
  if losesAon k then []
  else if keepsConfig k then Tab.mapTab regReset keptWord t
  else t.filter fun e => decide (e.1 / 1024 = bpPage) &&
    [0x54, 0x58, 0x5C, 0x60].contains (e.1 % 1024 * 4)

/-- The reset of a page's scope discards an armed guard latch, which GUARD_ERR then tells (R74). -/
def fellGuard (h z : Header) : Header :=
  if h.guard.isSome then { z with err := setBit z.err errGuard true } else z

/-- A page's header after a reset: its INCARN has advanced; its RW fields follow class 2. -/
def hdrAfter (k : ResetKind) (key : Nat) (h : Header) : Header :=
  let z := Header.reset key
  let z : Header := { z with incarn := h.incarn + 1 }
  if keepsConfig k then
    let y : Header := { z with ctrl := h.ctrl, errMask := h.errMask, irqEn := h.irqEn, rd := h.rd, wr := h.wr, inj := h.inj, aonPend := h.aonPend, aonOld := h.aonOld }
    fellGuard h (if keyType key = 0x50 then { y with stat := h.stat, err := h.err } else y)
  else fellGuard h z

/-- A command page after a reset (R84). -/
def cmdAfter (k : ResetKind) (n : Nat) (c : CmdPage) : CmdPage :=
  let z := CmdPage.reset n
  let z : CmdPage := if keepsConfig k then { z with seq := c.seq, owner := c.owner, holder := c.holder } else z
  if c.busy then { z with done := true, status := stReset } else z

/-- A probe after its supply was lost: its bindings follow class 2, FENCED class 4; the unit's own state is the host's. -/
def probeAfter (k : ResetKind) (p : Nat) (x : Probe) : Probe :=
  let z := Probe.reset p
  let z : Probe := { z with ustate := x.ustate, reason := x.reason }
  let z : Probe := if keepsConfig k then
    { z with profile := x.profile, profileNext := x.profileNext, job := x.job, jobNext := x.jobNext } else z
  if losesAon k then z else { z with fenced := x.fenced, excluded := x.fenced }

def isFenceOrLane (e : SpareEntry) : Bool := decide (e.kind = 1) || decide (e.kind = 5)

/-- The checker's state after a reset: class 3 with the configuration, class 4 and 5 in RET. -/
def checkAfter (k : ResetKind) (c : Check) : Check :=
  let spare := if losesAon k then [] else if keepsConfig k then c.spare else c.spare.filter fun e => isFenceOrLane e || decide (e.kind = 2)
  if keepsConfig k then
    { Check.reset with
      spare, regs := c.regs, tdiv := c.tdiv, taint := c.taint, taintPrev := c.taintPrev
      kernels := Tab.mapTab Kernel.reset (fun _ x => { x with checked := 0, unchecked := 0, failed := 0 }) c.kernels }
  else { Check.reset with spare }

/-- A port after a reset: its gate lists are configuration. -/
def portAfter (k : ResetKind) (p : Nat) (x : LinkPort) : LinkPort :=
  let z := LinkPort.reset p
  let z : LinkPort := { z with active := x.active }
  if keepsConfig k then { z with gates := x.gates, nextGates := x.nextGates, written := x.written, gateNo := x.gateNo } else z

def linksAfter (k : ResetKind) (l : Links) : Links :=
  { Links.reset with
    ports := Tab.mapTab LinkPort.reset (portAfter k) l.ports
    peers := if keepsConfig k then l.peers else [] }

/-- The power manager after a reset: settings with class 2, F_NOW, points, VFAULT, the forced state and TRIP with class 17;
the change set in progress, the droop detectors and what waits are logic. -/
def hpwrAfter (k : ResetKind) (h : Hpwr) : Hpwr :=
  if keepsConfig k then
    { h with running := none, held := none, goHeld := false, droops := [], waves := [], vholds := [], stretch := 0,
             cores := h.cores.map fun e => (e.1, { e.2 with loaded := none, model := 0, thermal := none, droop := none }) }
  else { Hpwr.reset with alertLow := h.alertLow, tripLow := h.tripLow && !losesAon k, alertHeld := h.alertHeld }

/-- The recorder after a reset: the log with its counts is in RET (class 6); mirror and replicas are not. -/
def fumAfter (k : ResetKind) (f : Fum) : Fum :=
  if losesAon k then Fum.reset
  else
    let z : Fum := { Fum.reset with
      waiting := f.waiting, log := f.log.map fun e => { e with copying := false }
      next := f.next, seq := f.seq, dropCount := f.dropCount, dropSev := f.dropSev
      lostCount := f.lostCount, lostMask := f.lostMask, lostFirst := f.lostFirst, lostLast := f.lostLast }
    if keepsConfig k then { z with ceCount := f.ceCount, ueCount := f.ueCount, ueLoc := f.ueLoc } else z

/-- The timekeeper after a reset: it stands at a power-on of VDDK; else the servo is FREE (R237), STROBE_LEAD waits for
BIST, and pending events follow class 9. -/
def timeAfter (k : ResetKind) (t : Time) : Time :=
  match k with
  | .poVddk => { t with setPps := none, relock := t.relock.map fun r => { r with page := none } }
  | .emberExit => { Time.reset with running := t.running, rate := t.rate, base := t.rate }
  | .poVddt => { Time.reset with running := t.running, evts := t.evts, lead := t.lead }
  | _ => { Time.reset with running := t.running }

/-- The epoch grid follows class 2; a SET_EPOCH that waits has lost its page, and its event follows class 9. -/
def gridAfter' (k : ResetKind) (g : Grid) : Grid :=
  match k with
  | .poVddk => { g with pend := g.pend.map fun p => { p with page := none } }
  | .emberExit => { g with pend := none }
  | _ => Grid.reset

/-- The Snuff after a reset that resets the probes: the node leaves it and its image is lost (R468); a scheduled one is a
pending event (class 9). -/
def snuffAfter (k : ResetKind) (x : Snuff) : Snuff :=
  let z : Snuff := { Snuff.reset with pinLow := x.pinLow }
  match k with
  | .poVddk => { z with order := x.order, state := if x.order.isSome then .armed else .none, missedEmber := x.missedEmber, missedAt := x.missedAt }
  | .emberExit => { z with missedEmber := x.missedEmber, missedAt := x.missedAt }
  | _ => z

/-- Regions after a reset of CONC: their totals are lost, what BIST decides waits for BIST, and their incarnation
advances. -/
def regionAfter (t : Tab Region) : Tab Region :=
  Tab.writeAll Region.reset (fun _ y => { Region.reset 0 with
    incarn := y.incarn + 1 }) (List.range 16) t

/-- The pages as a loss leaves them. -/
def State.pagesAfter (s : State) (k : ResetKind) : Pages :=
  { Pages.reset with
    regs := regsAfter k s.pages.regs
    hdr := Tab.writeAll Header.reset (hdrAfter k) s.allPageKeys s.pages.hdr
    cmds := Tab.mapTab CmdPage.reset (fun _ c => c) (s.pages.cmds.map fun e => (e.1, cmdAfter k e.1 e.2))
    snapPartial := s.snapRuns
    nextXfer := s.pages.nextXfer
    hmTags := s.pages.hmTags.filter fun e => match e.2 with
      | some t => t.again.isNone
      | none => true }

/-- Sampling as a loss leaves it. -/
def sampAfter (k : ResetKind) (x : Samp) : Samp :=
  { Samp.reset with
    units := x.units
    probes := Tab.mapTab Probe.reset (probeAfter k) x.probes
    regions := regionAfter x.regions
    evsel := if keepsConfig k then x.evsel else []
    rmask := if keepsConfig k then x.rmask else []
    slotJob := if keepsConfig k then x.slotJob else []
    grid := gridAfter' k x.grid }

/-- Pace state as a loss leaves it. -/
def State.paceAfter (s : State) (k : ResetKind) : Pace :=
  { syncNow := if keepsConfig k then s.reg (pg 0x02) 0x40 else 0xFFF
    cal := if k = .emberExit then s.pace.cal else [], watch := [], injected := [] }

/-- The guard latches that fall with the pages are discarded, and recorded (R74). -/
def State.latchesFall (s : State) (k : ResetKind) : State :=
  if losesAon k then s
  else s.allPageKeys.foldl State.tellLatch s

/-- Everything that falls with VDDK: PRB, CONC, HUB and ENG; and with the kinds that reset more, that too (R404, R410).
Free values, the commands that wait and what has left the block are the model's own and stand. -/
def State.fallen (s : State) (k : ResetKind) : State :=
  { s with
    pkg := Package.reset
    pace := s.paceAfter k
    pages := s.pagesAfter k
    samp := sampAfter k s.samp
    reds := Reds.reset
    forest := Forests.reset
    check := checkAfter k s.check
    rot := Rot.reset
    time := timeAfter k s.time
    trace := Trace.reset
    snuff := snuffAfter k s.snuff
    tap := if losesAon k then Tap.reset else s.tap
    links := linksAfter k s.links
    sinter := Sinter.reset
    svc := { Svc.reset with drift := if keepsConfig k then s.svc.drift else [] }
    hpwr := hpwrAfter k s.hpwr
    fum := fumAfter k s.fum
    mbox := [] }

/-- The loss of the supplies: the latches, and then everything else. -/
def State.powerLost (s : State) (k : ResetKind) : State := (s.latchesFall k).fallen k

end Sys2Proof.Machine
end

