-- ==== Sys2Proof/Machine/Reset.lean ====
section
/-!
DEFINITION. Supplies, resets and BIST (R400 to R413, R504).
-/
namespace Sys2Proof.Machine

/-! ### REFCLK and the timekeeper's domain (R398, R518, R519) -/

/-- The REFCLK frequency in kHz that the straps, or KX_TIME_REFCLK where they select PROG, name. -/
def State.refclkKhz (s : State) : Option Nat :=
  match s.straps.refclkSel.toNat with
  | 0 => some 25000
  | 1 => some 50000
  | 2 => some 100000
  | 3 => some 125000
  | 4 => some 156250
  | 5 => if s.regFld timePage 0xCC 0 18 = 0 then none else some (s.regFld timePage 0xCC 0 18)
  | _ => none

/-- The timekeeper is out of reset: its rails, REFCLK, and a frequency it can use. -/
def State.timeRuns (s : State) : Bool := bit s.bpwr.pg 3 && bit s.bpwr.pg 2 && s.bpwr.refclk && s.refclkKhz.isSome

/-- The TIME and TPORT pages. -/
def State.timePages (s : State) : List Nat :=
  s.allPageKeys.filter fun k => decide (keyType k = 0x30) || decide (keyType k = 0x31)

/-- The timekeeper runs or stands in reset as its inputs say; its pages show it. -/
def State.timeStart (s : State) : State :=
  let v := s.timeRuns
  ({ s with time := { s.time with running := v } }).pagesInReset s.timePages (!v)

/-- Straps are sampled; the role is the part's own. A REFCLK_SEL of 6 or 7 starts no timekeeper and is recorded. -/
def State.takeStraps (s : State) (i : StrapIn) : State :=
  let s : State := { s with straps := { s.straps with
      dieIdx := i.dieIdx, headEn := i.headEn, twinSel := i.twinSel, cascade := i.cascade, refclkSel := i.refclkSel } }
  if 6 ≤ i.refclkSel.toNat then s.log 0x30 0 0x0005 7 i.refclkSel.toNat 0 [] else s

/-! ### Resets that remove supply (R402, R404) -/

/-- The always-on domain after a reset: what the monitors hold stands, the sequencer starts afresh where the reset reaches
it, and BIST is awaited. -/
def bpwrAfter (k : ResetKind) (b : Bpwr) : Bpwr :=
  let y : Bpwr := if keepsConfig k then b else
    { Bpwr.reset with pg := b.pg, fell := if losesAon k then 0 else b.fell, refclk := b.refclk, rstLow := b.rstLow }
  { y with state := .exiting, entry := none, under := some k, times := [], failed := false, active := [], extrap := none }

/-- A reset that starts the VDDK domains afresh, with BIST; `t` is fleet time from then on. -/
def State.powerReset (s : State) (k : ResetKind) (t : FT) : State :=
  let ref := s.bpwr.extrap.isNone
  let s := (((s.powerLost k).pagesInReset s.allPageKeys true).setStat bpPage statReady false).noteReset k
  let s := ((s.loseBits (lostBy ref k)).setReg bpPage 0x64 0).modBpwr (bpwrAfter k)
  if k = .poVddk then s else ({ s with now := t, tick := t }).gridFrom t

/-- Power-on of VDDT: the timekeeper starts from FT+0 in FREE, with its pages' incarnations advanced (R404). -/
def State.vddtReset (s : State) : State :=
  let s := s.timePages.foldl State.dropLatches s
  let s := (allPages.filter fun x => (s.cmd x.1 x.2).busy && decide (fld (s.cmd x.1 x.2).cmd 24 8 = 0x30)).foldl
    (fun s x => s.complete x.1 x.2 stReset 0) s
  let s := ((s.nextIncarn s.timePages).noteReset .poVddt).loseBits (lostBy false .poVddt)
  (({ s with time := timeAfter .poVddt s.time, now := 0, tick := 0 }).gridFrom 0).timeStart

/-- A larger reset is in progress, and governs (R405). -/
def coversVddk : Option ResetKind → Bool
  | some .poAon => true
  | some .offExit => true
  | some .pin => true
  | some .rot => true
  | some .emberExit => true
  | _ => false

/-- A rail that had fallen is good again: SUPPLY.BROWNOUT (R402). -/
def State.brownoutBack (s : State) (r : Rail) : State :=
  if r ≠ .vddaon ∧ bit s.bpwr.fell r.bit = true then
    let b := match r with
      | .vddt => 18 | .vddk => 17 | _ => 16
    let s := s.modBpwr fun b => { b with fell := setBit b.fell r.bit false }
    (s.setReg bpPage 0x60 (s.reg bpPage 0x60 ||| bw b)).setErr bpPage errBrownout
  else s

/-- The power-on of a rail's domains, where VDDAON is good too (R401). -/
def State.railReset (s : State) (r : Rail) : State :=
  match r with
  | .vddaon => s.powerReset .poAon 0
  | .vddk => if !bit s.bpwr.pg 3 || coversVddk s.bpwr.under then s else s.powerReset .poVddk s.now
  | .vddt => if !bit s.bpwr.pg 3 || coversVddk s.bpwr.under then s.timeStart else s.vddtReset
  | .vddio => s

/-- SUPPLY_GOOD: a rail is good, and REFCLK runs or not (R401, R402, R519). -/
def execSupplyGood (r : Rail) (refclk : Bool) (s : State) : Host.Outcome State Fault Refusal :=
  finish (
    if bit s.bpwr.pg r.bit then s
    else
      let s := s.modBpwr fun b => { b with pg := setBit b.pg r.bit true, refclk := if r = .vddt then refclk else b.refclk }
      (s.railReset r).brownoutBack r)

/-- BROWNOUT: a rail falls; its domains are off at that instant, and what they held is lost with their next power-on
(R402). -/
def execBrownout (r : Rail) (s : State) : Host.Outcome State Fault Refusal :=
  finish (
    if bit s.bpwr.pg r.bit then
      let s := s.modBpwr fun b => { b with pg := setBit b.pg r.bit false, fell := setBit b.fell r.bit true }
      s.timeStart
    else s)

/-- PIN_RESET: RST_N has been low for 1 µs. It acts in every state but OFF; one that meets a pin reset is absorbed
(R404, R405). -/
def execPinReset (s : State) : Host.Outcome State Fault Refusal :=
  finish (
    if s.bpwr.state = .off ∨ bit s.bpwr.pg 3 = false then s
    else
      let s := if s.bpwr.under = some .pin ∨ losesAon (s.bpwr.under.getD .warm) = true then s else s.powerReset .pin 0
      s.modBpwr fun b => { b with rstLow := true })

/-- PIN_RESET_RELEASE: the straps are sampled, and BIST runs to the reset's end (R404). -/
def execPinResetRelease (i : StrapIn) (s : State) : Host.Outcome State Fault Refusal :=
  finish (
    if s.bpwr.rstLow then ((s.modBpwr fun b => { b with rstLow := false }).takeStraps i).timeStart else s)

/-- ROT_RESET: the reset that the RoT has ordered (R404, R504); no straps are sampled. -/
def execRotReset (s : State) : Host.Outcome State Fault Refusal :=
  finish (if s.rot.resetDue.isSome ∧ s.dark = false then s.powerReset .rot 0 else s)

/-! ### BIST (R412, R413) -/

/-- Entries that BIST makes anew are no longer in force. -/
def bistOwned (e : SpareEntry) : Bool :=
  decide (e.kind = 2) || decide (e.kind = 3) || decide (e.kind = 4) || decide (e.kind = 6) || decide (e.kind = 7)

/-- A TCAM row that fails: a spare row of its bank, or the bank fails. -/
def State.bistRow (s : State) (x : Nat × Nat × Nat) : State :=
  let n := bankSpares (s.engine x.1) x.2.1
  if 2 ≤ n then s
  else
    let key := x.2.1 * 1024 + x.2.2
    ((s.modEngine x.1 fun f => { f with rowSpare := f.rowSpare ++ [(key, n)] }).setErr (fPage x.1) 21).spareAdd 3 9 key n

/-- A forest bank that fails: the spare bank, or it is disabled (R196). -/
def State.bistBank (s : State) (x : Nat × Nat) : State :=
  let f := s.engine x.1
  if f.dead.contains x.2 then s
  else if f.bankFor.isNone then
    ((s.modEngine x.1 fun f => { f with bankFor := some x.2 }).setErr (fPage x.1) 21).spareAdd 4 9 x.2 x.1
  else (s.modEngine x.1 fun f => { f with dead := f.dead ++ [x.2] }).replaceTray (fPage x.1) x.1 x.2 6

/-- Banks that a third failing row takes out with them. -/
def rowBanks (l : List (Nat × Nat × Nat)) : List (Nat × Nat) :=
  (l.filterMap fun x => if 3 ≤ (l.filter fun y => decide (y.1 = x.1) && decide (y.2.1 = x.2.1)).length then some (x.1, x.2.1) else none).eraseDups

/-- Repairs and what cannot be repaired (R412, R413). -/
def State.bistRepair (s : State) (b : BistIn) : State :=
  let s := { s with check := { s.check with
    spare := s.check.spare.map fun e => if bistOwned e then { e with released := true } else e } }
  let s := b.repairs.foldl (fun s x => s.spareAdd x.1 9 x.2.1 x.2.2) s
  let s := b.rows.foldl State.bistRow s
  let s := (b.banks ++ rowBanks b.rows).foldl State.bistBank s
  if s.isDie then (b.clusters.foldl (fun s c => s.concFail c 9 4) s) |> b.regions.foldl State.regionFail else s

/-- Spares that the latest BIST has taken. -/
def State.bistSpares (s : State) (b : BistIn) : Nat :=
  b.repairs.length + ((List.range s.engineCount).map fun e =>
    (s.engine e).rowSpare.length + if (s.engine e).bankFor.isSome then 1 else 0).sum +
    ((List.range 16).filter fun r => (s.region r).spareUsed).length

def calOf (c : CalIn) : RingCal := { v0 := c.v0, vMv := c.vMv, vT := c.vT, t0 := c.t0, tMv := c.tMv, tT := c.tT }

/-- Ring calibration (R55, R410): the measured coefficients; without references the kept ones at an EMBER exit, else the
factory-typical ones with PACE_FAULT.RING_CAL. -/
def State.bistCal (s : State) (b : BistIn) : State :=
  match b.cal with
  | some l => { s with pace := { s.pace with
      cal := Tab.writeAll RingCal.typical (fun r y => ((l.map calOf)[r]?).getD y) (List.range 16) s.pace.cal } }
  | none =>
    if s.bpwr.under = some .emberExit then s
    else ({ s with pace := { s.pace with cal := [] } }).setReg (pg 0x02) 0x5C (s.reg (pg 0x02) 0x5C ||| 1)

/-- The FENCE handshake is repeated to each fenced unit (R217). -/
def State.fencesAgain (s : State) : State :=
  ((List.range s.samp.units).filter fun p => s.present p && (s.probe p).fenced).foldl (fun s p => s.raiseGate p .fence) s

/-- What an exit from EMBER or OFF, or a reset that ends, leaves to the running logic (R397, R457). -/
def State.rise (s : State) (k : Option ResetKind) : State :=
  let s := s.fencesAgain
  let s := s.linkPorts.foldl State.startTraining s
  let s := if k = some .emberExit then s.traceWake 0xFFFFFFFF else if k = some .offExit then s.traceWake 0 else s
  let s := if s.hpwr.tripLow then s.forceLowest 2 else s
  match s.snuff.missedAt with
  | some t =>
    (({ s with snuff := { s.snuff with missedAt := none } }).setErr (pg 0x61) errMissedEmber).log 0x61 0 0x0001 5 0 0 (leBytes 10 t)
  | none => s

/-- What a system-role block takes at the end of BIST: the WAIT of its reductions, where the configuration was lost (R161),
and the twin it announces itself as on its downlinks (R18). -/
def State.systemStart (s : State) (k : Option ResetKind) : State :=
  if s.isSystem then
    let s := if k.any keepsConfig then s else s.setReg (pg 0x18) 0x44 (if s.straps.cascade then 800 else 300)
    { s with links := { s.links with downPrimary := if s.straps.twinSel then 0 else BitVec.allOnes 32 } }
  else s

/-- The end of BIST for a block that passes or fails (R413, R14). -/
def State.bistEnd (s : State) (b : BistIn) : State :=
  let keys := s.allPageKeys
  let pass := decide (b.failed = 0)
  let k := s.bpwr.under
  let w := 2 ^ 31 + (if pass then 2 ^ 30 else 0) + b.failed.toNat * 2 ^ 16 + min (s.bistSpares b) 65535
  let s := s.setReg bpPage 0x64 (word w)
  let s := (keys.foldl (fun s k => s.setStat k statReady true) s).pagesInReset keys false
  let s := (({ s with time := { s.time with lead := b.lead } }).timeStart).systemStart k
  let s := if s.isDie then
      { s with pkg := { s.pkg with members := Tab.modify Member.none s.pkg.members s.straps.dieIdx.toNat fun m =>
          { m with present := true, bistOk := pass, headEn := s.straps.headEn, incarn := (s.hdr (pg 0x01)).incarn } } }
    else s
  let s := s.modBpwr fun x => { x with under := none, state := .run, failed := !pass, busyAt := s.now, quiet := false }
  if pass then s.rise k
  else (s.setErr bpPage errBistFail).replaceTray bpPage 0 0 7

/-- BIST may end: its domains are powered and out of pin reset, and it has not ended. -/
def State.bistRuns (s : State) : Bool :=
  !bit (s.reg bpPage 0x64) 31 && !s.bpwr.rstLow && !s.dark &&
    match s.bpwr.under with
    | some .warm => false
    | some .package => false
    | _ => true

/-- BIST_DONE (R404, R412, R413): straps are sampled at the end of a power-on of VDDAON; spares are taken; the block runs. -/
def execBistDone (b : BistIn) (s : State) : Host.Outcome State Fault Refusal :=
  finish (
    if s.bistRuns then
      let s := if losesAon (s.bpwr.under.getD .poAon) then s.takeStraps b.straps else s
      ((s.bistRepair b).bistCal b).bistEnd b
    else s)

/-! ### Resets by command (R404 to R409, R415) -/

/-- The code of an order: what its command page waits for. -/
def orderCode (kind region : Nat) : Nat := kind + 4 * region

/-- The pages whose order of a code waits. -/
def State.orders (s : State) (code : Nat) : List (Bool × Nat) := s.waiters fun w => decide (w = .event 24 code)

/-- The number under which a kind's resets within the last millisecond are counted. -/
def resetScope (kind region : Nat) : Nat := if kind = 2 then 1 + region else 0

def State.resetTimes (s : State) (scope : Nat) : List FT := withinMs s.now (Tab.read noTimes s.bpwr.times scope)

def State.countReset (s : State) (scope : Nat) : State :=
  s.modBpwr fun b => { b with times := Tab.write noTimes b.times scope (s.resetTimes scope ++ [s.now]) }

/-- BPWR_RESET: the order waits for its reset; in a low-power state it wakes the block first (R405). -/
def bpwrResetCmd (c : CmdIn) (s : State) : State :=
  let kind := argFld c s 0 0 2
  let r := argFld c s 1 0 4
  if kind = 3 then s.badArg c
  else if kind = 1 ∧ s.isHead = false then s.failCmd c 1
  else if kind = 2 ∧ (s.isSystem = true ∨ Config.regions ≤ r) then s.failCmd c 2
  else if !(decide (kind = 2) && (s.region r).inReset) && decide (15 ≤ (s.resetTimes (resetScope kind r)).length) then s.failCmd c 3
  else (s.wakeSrc 10).waitFor c (.event 24 (orderCode kind (if kind = 2 then r else 0)))

def execBpwrReset (c : CmdIn) (s : State) : Host.Outcome State Fault Refusal :=
  finish (runCmd c 0x50 0x0002 .firmware true (bpwrResetCmd c) s)

/-- An order can start: the block is awake and its hub not under reset. -/
def State.resetFree (s : State) : Bool := s.awake && !s.dark && s.bpwr.under.isNone

/-- A warm reset of this hub starts, of its own or as part of a package reset; an entry in progress ends. -/
def State.hubReset (s : State) (k : ResetKind) (code : Nat) : State :=
  let s := s.modBpwr fun b => { b with entry := none, state := if b.state = .entering then .run else b.state }
  let s := ((s.countReset 0).noteReset k).modBpwr fun b => { b with under := some k }
  ((s.warmStart code).loseBits (lostBy false k)).busyNow

/-- WARM_RESET: the one that a BPWR_RESET or the RoT has ordered (R404). -/
def execWarmReset (s : State) : Host.Outcome State Fault Refusal :=
  finish (
    if s.resetFree && (decide (s.orders 0 ≠ []) || s.rot.warmDue) then
      (s.modRot fun r => { r with warmDue := false }).hubReset .warm 0
    else s)

/-- PACKAGE_RESET: at the head by its BPWR_RESET, at another member by the head's order (R404, R501). -/
def execPackageReset (s : State) : Host.Outcome State Fault Refusal :=
  finish (
    if s.isDie && s.resetFree && (!s.isHead || decide (s.orders 1 ≠ [])) then
      let s := (s.hubReset .package 1).packageLinks
      { s with pkg := { s.pkg with head := none, missed := 0, heard := false, elected := false } }
    else s)

/-- RESET_LOST notices for the reports that the reset has lost, by job (R226). -/
def State.lostNotices (s : State) : State :=
  let l := s.check.lost
  l.foldl (fun s e => s.poisonSend { cause := 6, job := e.1, first := e.2.1 % 2 ^ 16, last := e.2.2 % 2 ^ 16, unit := 0x1FFF, kernel := 0xFF,
                                     clip := false, tile := 0, pred := 0, act := 0 })
    (s.modCheck fun c => { c with lost := [] })

/-- WARM_RESET_END: the pages answer again, its order completes, lost reports are told of, kept copies are hashed again and
the TCAMs rebuilt (R226, R404, R406, R494). The order of a package reset waits for the election (R14). -/
def State.hubResetEnd (s : State) (code : Nat) : State :=
  let s := (s.modBpwr fun b => { b with under := none }).pagesInReset (s.allPageKeys.filter warmPage) false
  let s := (s.lostNotices.fencesAgain.tcamRestore.rehashStart).sideResume
  (s.orders code).foldl (fun s x => if code = 0 then s.complete x.1 x.2 stOk 0 else s.waitPage x.1 x.2 (.event 25 0)) s

def execWarmResetEnd (s : State) : Host.Outcome State Fault Refusal :=
  finish (match s.bpwr.under with
    | some .warm => s.hubResetEnd 0
    | some .package => s.hubResetEnd 1
    | _ => s)

/-- REGION_RESET: by its BPWR_RESET, or by the RoT (R407). -/
def execRegionReset (region : BitVec 4) (rot : Bool) (s : State) : Host.Outcome State Fault Refusal :=
  finish (
    let r := region.toNat
    if s.isDie && s.resetFree && !(s.region r).inReset && (rot || decide (s.orders (orderCode 2 r) ≠ [])) then
      (((s.countReset (1 + r)).noteReset (.region r)).regionStart r).busyNow
    else s)

/-- REGION_RESET_END: waiting records are taken, what the region held up goes on, and the order completes (R407). -/
def execRegionResetEnd (region : BitVec 4) (s : State) : Host.Outcome State Fault Refusal :=
  finish (
    let r := region.toNat
    if (s.region r).inReset then
      (s.orders (orderCode 2 r)).foldl (fun s x => s.complete x.1 x.2 stOk 0) ((s.regionFinish r).startTraining (64 + r))
    else s)

end Sys2Proof.Machine
end

