-- ==== Sys2Proof/Machine/Power.lean ====
section
/-!
DEFINITION. Power states: the idle timer, the handshake entry, wake sources, exits and Wick mode (R384 to R399, R415).
-/
namespace Sys2Proof.Machine

/-! ### Idleness (R385, R391) -/

/-- A host-memory transfer or ring write is outstanding. -/
def State.memBusy (s : State) : Bool := decide (s.pages.ringQ ≠ []) || s.pages.xfers.any fun e => e.2.isSome

def State.cmdBusy (s : State) : Bool := allPages.any fun x => (s.cmd x.1 x.2).busy

/-- A page waits for the always-on domain (R75). -/
def State.syncPending (s : State) (p : Nat → Bool) : Bool :=
  s.pages.hdr.any fun e => p e.1 && decide (e.2.aonPend ≠ [])

/-- A forest batch is in progress. -/
def State.batchRuns (s : State) : Bool := (List.range s.engineCount).any fun e => (s.engine e).batch.isSome

/-- No work runs in the subsystems. -/
def State.calm (s : State) : Bool :=
  !s.memBusy && !s.cmdBusy && !s.gyActive && s.check.kat.isNone && !s.szBusy && !s.batchRuns && s.mbox.isEmpty

/-- The idle timer's conditions as they stand, but for the events due. -/
def State.idleHolds (s : State) : Bool :=
  !s.memBusy && !s.cmdBusy && !s.gyActive && s.check.kat.isNone && !s.szBusy && !s.syncPending (fun _ => true) &&
    (List.range s.samp.units).all fun p => !s.present p || (s.probe p).fenced || decide ((s.probe p).ustate = .idle)

/-- A slow tick in RUN or IDLE: IDLE once the block has been calm for a whole tick; a condition that does not hold restarts
the idle timer. -/
def State.idleTick (s : State) : State :=
  let calm := s.calm
  let s := if s.idleHolds then s else s.modBpwr fun b => { b with busyAt := s.now }
  if s.bpwr.state = .run ∨ s.bpwr.state = .idle then
    s.modBpwr fun b => { b with state := if calm && b.quiet then .idle else .run, quiet := calm }
  else s

/-! ### Entering (R391, R392) -/

/-- The DOZE exit maximum of R390. -/
def dozeExitMax : FT := 4 * us

def State.wakeLead (s : State) : FT := s.regFld bpPage 0x4C 16 8 * us

/-- No fleet-time event falls due by `t`. -/
def State.noEventBy (s : State) (t : FT) : Bool := s.time.evts.all fun e => decide (t < e.t)

/-- The domains are gated. `hand`: by handshake. -/
def State.gateDomains (s : State) (target : Nat) (hand : Bool) : State :=
  let s := s.tracePwr target hand
  let b := s.bpwr
  let x : Option Extrap := if target = 3 then some { t := s.ft, rate := s.time.rate } else none
  let st : PowerState := if target = 2 then .doze else if target = 3 then .ember else .off
  let s := s.modBpwr fun _ => { b with
    state := st, mode := hand, entry := none, active := [], extrap := x
    dozeAt := if target = 2 then s.now else b.dozeAt
    emberAt := if target = 3 then s.now else b.emberAt }
  if target = 2 then s else s.traceLose

/-- IDLE_TIMER_DOZE. -/
def execIdleTimerDoze (s : State) : Host.Outcome State Fault Refusal :=
  let at' := s.bpwr.busyAt + s.regFld bpPage 0x48 16 16 * us
  finish (
    if s.isDie && bit (s.reg bpPage 0x44) 31 && (decide (s.bpwr.state = .run) || decide (s.bpwr.state = .idle)) &&
        s.bpwr.under.isNone && s.idleHolds && s.noEventBy (max s.now at' + s.wakeLead + dozeExitMax) then
      (s.advanceTo at').gateDomains 2 false
    else s)

/-- IDLE_TIMER_EMBER. -/
def execIdleTimerEmber (s : State) : Host.Outcome State Fault Refusal :=
  finish (
    if decide (s.bpwr.state = .doze) && bit (s.reg bpPage 0x44) 30 && s.jobs.isEmpty && s.time.evts.isEmpty && !s.isHead then
      (s.advanceTo (s.bpwr.dozeAt + s.regFld bpPage 0x48 0 16 * ms)).gateDomains 3 false
    else s)

/-! ### The handshake (R392, R393) -/

/-- A subsystem's answer. -/
inductive Answer where
  | accept
  | delay (reason : Nat)
  | refuse (reason : Nat)
deriving DecidableEq, Repr

/-- The subsystem of a page's ring or configuration. -/
def pageSubsystem (key : Nat) : Nat :=
  match keyType key with
  | 0x10 => 0 | 0x11 => 0 | 0x12 => 3 | 0x18 => 1 | 0x20 => 2 | 0x21 => 2 | 0x28 => 3 | 0x30 => 4 | 0x31 => 4
  | 0x39 => 6 | 0x40 => 7 | 0x48 => 8 | 0x58 => 9 | 0x60 => 10 | 0x61 => 10 | 0x68 => 11
  | _ => 5

/-- Another command than the entry's own runs in a subsystem. -/
def State.busyIn (s : State) (own : Bool × Nat) (n : Nat) : Bool :=
  allPages.any fun x => decide (x ≠ own) && (s.cmd x.1 x.2).busy && decide (subsystemOf (s.cmd x.1 x.2).cmd = n)

/-- The head of a package still has a member whose link is up: one that is not in EMBER or OFF. -/
def State.headNeeded (s : State) : Bool := s.isHead && s.otherDies.any fun d => s.portUp (s.diePort d)

/-- Work in flight in a subsystem that does not end of itself. -/
def State.atWork (s : State) (own : Bool × Nat) (n : Nat) : Bool :=
  s.busyIn own n || (decide (n = 0) && s.gyActive) || (decide (n = 2) && s.batchRuns) || (decide (n = 6) && s.szBusy)

/-- Why a subsystem refuses; 0 where it does not. -/
def State.refusal (s : State) (own : Bool × Nat) (target n : Nat) : Nat :=
  if n = 10 ∧ s.isCut = true then 8
  else if n = 4 ∧ target ≠ 2 ∧ s.time.evts ≠ [] then 2
  else if n = 7 ∧ target ≠ 2 ∧ s.jobs ≠ [] then 3
  else if n = 5 ∧ target ≠ 2 ∧ s.headNeeded = true then 5
  else if s.syncPending (fun k => decide (pageSubsystem k = n)) then 4
  else if n = 9 ∧ s.mirrors = true ∧ s.mirrorCurrent = false then 6
  else if n = 11 ∧ s.inCommit = true then 7
  else if s.atWork own n then 1
  else 0

/-- Why a subsystem delays; 0 where it does not: a test, a trace write, a host-memory write. -/
def State.delayOf (s : State) (n : Nat) : Nat :=
  let ring (q : Nat → Bool) : Bool := s.pages.ringQ.any fun w => q (pageSubsystem w.page)
  if n = 3 ∧ s.check.kat.isSome = true then 0x11
  else if n = 10 ∧ (ring (fun m => decide (m = 10)) || decide (s.trace.staged ≠ [])) = true then 0x10
  else if ring (fun m => decide (m = n)) then 0x12
  else if n = 5 ∧ (s.pages.xfers.any fun e => match e.2 with
      | some x => decide (x.owner = .message)
      | none => false) = true then 0x12
  else 0

def State.answerOf (s : State) (own : Bool × Nat) (target n : Nat) : Answer :=
  if s.refusal own target n ≠ 0 then .refuse (s.refusal own target n)
  else if s.delayOf n ≠ 0 then .delay (s.delayOf n)
  else .accept

/-- Every subsystem has accepted: the last HEARTBEAT with PARKED on every port, the trace marker, and the command completes;
then the domains are gated (R392 steps 3 to 6). -/
def State.enterNow (s : State) (target : Nat) (own : Bool × Nat) : State :=
  let b := s.beatBytes s.samp.grid.epochNo true
  let s := (s.linkPorts.filter s.portUp).foldl (fun s p => s.sendTyp 0x10 (.port p) b) s
  (s.gateDomains target true).complete own.1 own.2 stOk 0

/-- The first refusal among the subsystems, and the delays. -/
def State.firstRefusal (s : State) (own : Bool × Nat) (target : Nat) : Option Nat :=
  (List.range 12).find? fun n => decide (s.refusal own target n ≠ 0)

def State.delays (s : State) : List (Nat × Nat) :=
  ((List.range 12).map fun n => (n, s.delayOf n)).filter fun e => decide (e.2 ≠ 0)

/-- BPWR_ENTER. -/
def bpwrEnterCmd (c : CmdIn) (s : State) : State :=
  let target := argFld c s 0 0 3
  let own : Bool × Nat := (c.pkg, c.page.toNat)
  let refused (s : State) (sub reason : Nat) : State := ((s.res c 0 sub).res c 1 0).done c stRefused reason
  if target < 2 ∨ 4 < target then s.badArg c
  else if s.isSystem then refused s 8 0x0B
  else if s.bpwr.state = .entering then refused s 8 1
  else match s.firstRefusal own target with
    | some n => refused s n (s.refusal own target n)
    | none =>
      let l := s.delays
      if l = [] then s.enterNow target own
      else
        let e : Entry := { target, pkg := c.pkg, page := c.page.toNat, start := s.now, delays := l, last := (l.getLast?.map (·.2)).getD 0 }
        (s.modBpwr fun b => { b with state := .entering, entry := some e }).waitFor c (.event 26 0)

def execBpwrEnter (c : CmdIn) (s : State) : Host.Outcome State Fault Refusal :=
  finish (runCmd c 0x50 0x0001 .firmware true (bpwrEnterCmd c) s)

/-- SUBSYSTEM_ANSWER: a subsystem that has delayed answers again (R392). -/
def execSubsystemAnswer (sub : Nat) (s : State) : Host.Outcome State Fault Refusal :=
  finish (match s.bpwr.entry with
    | none => s
    | some e =>
      if e.delays.all fun d => decide (d.1 ≠ sub) then s
      else
        let own : Bool × Nat := (e.pkg, e.page)
        match s.answerOf own e.target sub with
        | .refuse r => s.refuseEntry e r sub
        | .delay r => s.modBpwr fun b => { b with entry := some { e with
            delays := e.delays.map (fun d => if d.1 = sub then (sub, r) else d), last := r } }
        | .accept =>
          let rest := e.delays.filter fun d => decide (d.1 ≠ sub)
          if rest = [] then s.enterNow e.target own
          else s.modBpwr fun b => { b with entry := some { e with delays := rest } })

/-- ENTRY_TIMEOUT: the last delay has not cleared within ENTRY_TMO_US. -/
def execEntryTimeout (s : State) : Host.Outcome State Fault Refusal :=
  finish (match s.bpwr.entry with
    | none => s
    | some e =>
      let s := s.advanceTo (e.start + max 1 (s.regFld bpPage 0x44 0 16) * us)
      s.refuseEntry e 9 ((e.delays.getLast?.map (·.1)).getD 0))

/-! ### Waking (R395 to R398) -/

/-- Fleet time at an EMBER exit: extrapolated over the REFCLK periods that the always-on domain has counted, or FT+0. -/
def State.emberTime (s : State) (periods : Nat) : FT :=
  match s.bpwr.extrap, s.refclkKhz with
  | some x, some khz =>
    truncFT (x.t + ((periods * 65536 * 1000000 : Int) * ((2 : Int) ^ 40 + x.rate) / (khz * 2 ^ 40)).toNat)
  | _, _ => 0

/-- The concentrators have power again: they take the records that wait in the output latches (R105), and the region
mirror is brought up to date (R399). -/
def State.mirrorWake (s : State) : State :=
  (List.range Config.clusters).foldl (fun s c =>
    let s := (probesOf c).foldl State.deliver s
    if (probesOf c).all (fun p => (s.probe p).latch.isNone) || (probesOf c).all (fun p => (s.probe p).acked.isNone) then s.commit c
    else s) s

/-- An exit from DOZE ends: the TCAMs are rewritten from their shadows (R198, R386, R457). -/
def State.dozeExit (s : State) : State :=
  ((((s.modBpwr fun b => { b with state := .run, active := [] }).mirrorWake).traceWake 0).tcamRestore.sideResume).busyNow

/-- WAKE: the exit ends. From EMBER and OFF the reset of R404 begins, and BIST_DONE ends it; `periods` counts REFCLK since
the entry to EMBER (R398). -/
def execWake (periods : Nat) (s : State) : Host.Outcome State Fault Refusal :=
  finish (
    if s.bpwr.state ≠ .exiting ∨ s.bpwr.under.isSome = true then s
    else match s.regFld bpPage 0x54 28 4 with
      | 2 => s.dozeExit
      | 3 =>
        let st := s.powerReset .emberExit (s.emberTime periods)
        st.timeStart
      | 4 => s.powerReset .offExit 0
      | _ => s)

/-- WAKE_N: low for at least 100 ns. -/
def execWakeN (s : State) : Host.Outcome State Fault Refusal := finish (s.wakeSrc 1)

/-- The earliest pending fleet-time event. -/
def State.firstEvent (s : State) : Option FT :=
  s.time.evts.foldl (fun m e => some (match m with
    | some t => min t e.t
    | none => e.t)) none

/-- WAKE_LEAD: WAKE_LEAD_US before a pending event (R396). -/
def execWakeLead (s : State) : Host.Outcome State Fault Refusal :=
  finish (match s.firstEvent with
    | none => s
    | some t =>
      if s.bpwr.state = .doze ∧ bit (s.reg bpPage 0x4C) 28 = true then (s.advanceTo (t - s.wakeLead)).wakeSrc 2 else s)

/-- EMBER_WAKE_TIMER. -/
def execEmberWakeTimer (s : State) : Host.Outcome State Fault Refusal :=
  finish (
    let n := (s.reg bpPage 0x50).toNat
    if s.bpwr.state = .ember ∧ n ≠ 0 then s.wakeSrc 9 else s)

/-- REFCLK_LOSS: REFCLK has been absent for 10 µs. In EMBER the extrapolation is discarded (R398); elsewhere the
missing-clock detector holds the timekeeper in reset until REFCLK runs (R519). -/
def execRefclkLoss (s : State) : Host.Outcome State Fault Refusal :=
  finish (
    let s := s.modBpwr fun b => { b with refclk := false }
    if s.bpwr.state = .ember then
      let s := (s.modBpwr fun b => { b with extrap := none }).setReg bpPage 0x60 (s.reg bpPage 0x60 ||| bw 23)
      (s.setErr bpPage errRefclkLost).loseBits [8]
    else s.timeStart)

/-- REFCLK_RETURN: REFCLK runs; the timekeeper leaves the missing-clock detector's reset and starts in FREE, and its tick
takes over (R57, R519). -/
def execRefclkReturn (s : State) : Host.Outcome State Fault Refusal :=
  finish (
    let was := s.time.running
    let s := s.modBpwr fun b => { b with refclk := true }
    if s.dark || was || !s.timeRuns then s
    else (({ s with time := timeAfter .poVddt s.time, now := 0, tick := 0 }).gridFrom 0).timeStart)

/-! ### Wick mode (R399, R415) -/

/-- The valid entries, with their fields: number, counter, cluster, CMP, THRESH. -/
def State.wickEntries (s : State) : List (Nat × Nat × Nat × Bool × Nat) :=
  ((List.range 16).filter fun n => bit (s.reg bpPage (0x80 + 8 * n)) 31).map fun n =>
    let w := s.reg bpPage (0x80 + 8 * n)
    (n, fld w 16 5, fld w 0 8, bit w 30, (s.reg bpPage (0x84 + 8 * n)).toNat)

/-- An entry is met by a delta. -/
def wickMet (below : Bool) (thresh delta : Nat) : Bool := if below then decide (delta < thresh) else decide (thresh ≤ delta)

/-- The cluster delta Σ D[k] over present, unfenced probes, of the records named. -/
def State.wickDelta (s : State) (d : Nat → Tab (BitVec 40)) (c k : Nat) : Nat :=
  (((probesOf c).filter fun p => s.present p && !(s.probe p).fenced).map fun p => (Tab.read bv40Zero (d p) k).toNat).sum

/-- The concentrator, powered for its turn, takes a probe's waiting record. -/
def State.wickTake (s : State) (p : Nat) : State :=
  match (s.probe p).latch with
  | some r => (s.modProbe p fun x => { x with latch := none, acked := none }).takeRecord p r
  | none => s

/-- One cluster's turn: its records are taken and committed, and its entries compared. -/
def State.wickCluster (s : State) (c : Nat) : State :=
  if (s.cluster c).lost || (s.region (regionOf c)).inReset then s
  else
    let d (p : Nat) : Tab (BitVec 40) := match (s.probe p).latch with
      | some r => r.d
      | none => []
    let delta (k : Nat) : Nat := s.wickDelta d c k
    let es := s.wickEntries.filter fun e => decide (e.2.2.1 = c)
    let s := (probesOf c).foldl State.wickTake s
    es.foldl (fun s e =>
      let v := delta e.2.1
      if wickMet e.2.2.2.1 e.2.2.2.2 v then
        (s.log 0x50 0 0x0001 3 c e.2.1 (leBytes 8 v ++ leBytes 4 e.2.2.2.2)).wakeSrc 4 e.1
      else s) s

/-- WICK_CYCLE: at a close whose number is a multiple of WICK_DIV. `running`: the cycle before still runs, and this one is
skipped. -/
def execWickCycle (running : Bool) (s : State) : Host.Outcome State Fault Refusal :=
  let n := s.samp.grid.epochNo
  finish (
    if s.bpwr.state = .doze ∧ bit (s.reg bpPage 0x44) 29 = true ∧ n % max 1 (s.regFld bpPage 0x44 16 8) = 0 ∧
        s.bpwr.wickAt ≠ n + 1 then
      let s := s.modBpwr fun b => { b with wickAt := n + 1 }
      if running then s.modBpwr fun b => { b with wickSkip := satAdd 8 b.wickSkip 1 }
      else
        let s := s.modBpwr fun b => { b with wicks := satAdd 16 b.wicks 1 }
        let cs := (List.range Config.clusters).filter fun c => s.wickEntries.any fun e => decide (e.2.2.1 = c)
        cs.foldl State.wickCluster s
    else s)

/-- BPWR_WICK_TEST: every valid entry against the deltas of the latest close. -/
def execBpwrWickTest (c : CmdIn) (s : State) : Host.Outcome State Fault Refusal :=
  finish (runCmd c 0x50 0x0003 .operator true (fun s =>
    let met := s.wickEntries.filter fun e => wickMet e.2.2.2.1 e.2.2.2.2 (s.wickDelta (fun p => (s.probe p).last) e.2.2.1 e.2.1)
    (s.res c 0 ((met.map fun e => 2 ^ e.1).sum)).ok c) s)

end Sys2Proof.Machine
end

