-- ==== Sys2Proof/Machine/RegRead.lean ====
section
/-!
DEFINITION. What each page-specific register reads as: the stored word, or the word that the page's state gives. Registers
shown through an index register read the entry it names.
-/
namespace Sys2Proof.Machine

/-- Word `i` of the 8-byte two's complement of a signed number. -/
def intWord (v : Int) (i : Nat) : Word := wordOf (unsgn 64 v) i

/-! ### Pages 0x00 to 0x12 (R86, R110, R118, R119, R79) -/

def State.dirWord (s : State) (off : Nat) : Option Word :=
  match off with
  | 0x40 => some (word (b01 s.straps.cascade 7 + b01 s.straps.twinSel 6 + (if s.isSystem then 3 else 1) * 16 + b01 s.isHead 3 +
      (if s.isSystem then 0 else s.straps.dieIdx.toNat)))
  | 0x44 => some (word ((if s.isSystem then 0 else Config.probes * 2 ^ 16) + Config.regions * 2 ^ 8 + 8))
  | 0x48 => some (word (Config.clusters * 2 ^ 16 + Config.entities))
  | 0x4C => some (word (256 * 2 ^ 16 + if s.isSystem then 1024 else 64))
  | 0x50 => some (word (if s.isSystem then 16 * 2 ^ 24 + 4194304 else 12 * 2 ^ 24 + 262144))
  | 0x54 => some (word (Config.implId.toNat * 2 ^ 8 + if s.isSystem then 24 else 20))
  | _ => none

/-- This die hub has passed its power-on BIST. -/
def State.bistPass (s : State) : Bool := bit (s.reg bpPage 0x64) 30 && !s.bpwr.failed

/-- One package link at least has trained. -/
def State.linkTrained (s : State) : Bool := (List.range 7).any s.linkUp

/-- This die hub as it reports itself. -/
def State.ownMember (s : State) (conflict : Bool) : Member :=
  { present := true, bistOk := s.bistPass, headEn := s.straps.headEn, trained := s.linkTrained, conflict,
    incarn := (s.hdr (pg 0x01)).incarn }

/-- One member of PKGDIR (R63). -/
def State.memberWord (s : State) (d : Nat) : Word :=
  let e := Tab.read Member.none s.pkg.members d
  let x := if d = s.straps.dieIdx.toNat then s.ownMember e.conflict else e
  word (x.incarn.toNat * 2 ^ 8 + b01 x.conflict 4 + b01 (decide (s.pkg.head.map (·.toNat) = some d)) 3 +
    b01 (x.headEn && x.bistOk && x.trained) 2 + b01 x.bistOk 1 + b01 x.present 0)

/-- Region incarnations, four bits each, eight to a word. -/
def State.incarnWord (s : State) (i : Nat) : Word :=
  word (((List.range 8).map fun r => (s.region (8 * i + r)).incarn.toNat * 2 ^ (4 * r)).sum)

def State.sampWord (s : State) (off : Nat) : Option Word :=
  let g := s.samp.grid
  let pendT := match g.pend with
    | some q => q.origin
    | none => 0
  match off with
  | 0x40 => some (word g.period)
  | 0x48 => some (wordOf g.origin 0) | 0x4C => some (wordOf g.origin 1) | 0x50 => some (wordOf g.origin 2)
  | 0x58 => some (wordOf g.epochNo 0) | 0x5C => some (wordOf g.epochNo 1)
  | 0x60 => some (wordOf g.lastClose 0) | 0x64 => some (wordOf g.lastClose 1) | 0x68 => some (wordOf g.lastClose 2)
  | 0x6C => some g.flags
  | 0x70 => some (word (match g.pend with | some q => q.period | none => 0))
  | 0x78 => some (wordOf pendT 0) | 0x7C => some (wordOf pendT 1) | 0x80 => some (wordOf pendT 2)
  | 0x88 => some (wordOf g.baseNo 0) | 0x8C => some (wordOf g.baseNo 1)
  | _ => none

def State.geyserWord (s : State) (off : Nat) : Option Word :=
  if off = 0x60 then some (word (s.samp.geyser.state.code * 2 ^ 29 + s.samp.geyser.overrun)) else none

def State.spareWord (s : State) (off : Nat) : Option Word :=
  if off = 0x44 then some (word s.check.spare.length)
  else if 0x50 ≤ off ∧ off < 0x60 then
    match s.check.spare[s.regFld (pg 0x12) 0x48 0 16]? with
    | some e => some (word (leAt (spareBytes e) (off - 0x50) 4))
    | none => some 0
  else none

/-! ### Reduction, forests, the feature table, the checker (R161, R200, R201, R228) -/

def State.redWord (s : State) (sc off : Nat) : Option Word :=
  let r := s.red sc
  if off = 0x40 then
    some (word (r.act.toNat * 2 ^ 24 + b01 (s.isMeasured (redItem sc true)) 17 + b01 r.inactive.valid 16 + r.active.rules.length))
  else if 0x200 ≤ off ∧ off < 0x648 then some (s.redLatchWord sc off)
  else none

def State.forestWord (s : State) (e off : Nat) : Option Word :=
  let f := s.engine e
  match off with
  | 0x40 => some (word (f.act.toNat * 2 ^ 24 + b01 (s.isMeasured (forestItem e true)) 17 + b01 f.inactive.valid 16 + f.active.trees.length))
  | 0x4C => some (word (f.tag.toNat * 2 ^ 24 + f.issued))
  | 0x50 => some (word f.next)
  | 0x64 => some (word (b01 f.bankFor.isSome 31 + f.bankFor.getD 0 * 2 ^ 16 + f.dead.length * 2 ^ 8 + f.rowSpare.length))
  | 0x6C => some (Tab.read wordZero f.table (s.regFld (fPage e) 0x68 0 14))
  | _ =>
    if 0x100 ≤ off ∧ off < 0x200 then
      let b := (off - 0x100) / 4
      let ts := f.active.trees.filter fun t => decide (t.bank = b)
      some (word (b01 (f.dead.contains b) 31 + b01 (decide (f.bankFor = some b)) 30 + bankSpares f b * 2 ^ 28 +
        (ts.map fun t => t.nodes.length).sum * 2 ^ 16 + (ts.map fun t => t.rows.length).sum))
    else none

def State.ftabWord (s : State) (off : Nat) : Option Word :=
  let f := s.forest.ftab
  if off = 0x40 then
    some (word (f.act.toNat * 2 ^ 24 + b01 (s.isMeasured (ftabItem true)) 17 + b01 f.dirty 16 +
      (f.active.dir.filter fun e => bit e.2 31).length))
  else if off = 0x48 ∨ (0x80 ≤ off ∧ off < 0xC0) then some (s.ftabRead off)
  else none

/-- KAT_AGE: the age of the oldest last pass among the units whose profile's signature entry is enabled (R213). -/
def State.katAge (s : State) : Nat :=
  let l := s.check.passes.filter fun e => bit (s.sigWord e.1 0) 31
  min ((l.map fun e => match e.2 with | some x => (s.now - x.time) / ms | none => 0).foldl max 0) 0xFFFFFFFF

def State.checkWord (s : State) (off : Nat) : Option Word :=
  let c := s.check
  match off with
  | 0x48 => some (word (c.taint % 2 ^ 16))
  | 0x54 =>
    let st := match c.kat with
      | none => 0
      | some k => (if k.acked then 2 else 1) * 2 ^ 29 + k.unit * 2 ^ 16
    some (word (st + c.katLast * 2 ^ 13 + c.katLastUnit))
  | 0xA8 => some (Tab.read wordZero c.regs (s.regFld chkPage 0xA4 0 8))
  | _ => if 0x60 ≤ off ∧ off < 0x98 then some (s.kernelWord ((off - 0x60) / 4)) else none

/-! ### Fleet time (R250, R251) -/

def State.timeWord (s : State) (off : Nat) : Option Word :=
  let t := s.time
  match off with
  | 0x40 => some (wordOf s.ft 0) | 0x44 => some (wordOf s.ft 1) | 0x48 => some (wordOf s.ft 2)
  | 0x4C => some (word (t.servo.code * 2 ^ 29 + b01 (decide (t.settled.length = 4) && t.settled.all id) 28 + b01 s.actsGm 27 +
      (if t.servo = .acquire then t.samples.length * 2 ^ 8 else 0) + s.slaveCode))
  | 0x60 => some (word (unsgn 32 t.rate))
  | 0x68 => some (intWord t.offset 0) | 0x6C => some (intWord t.offset 1)
  | 0x70 => some (intWord t.mpd 0) | 0x74 => some (intWord t.mpd 1)
  | 0x78 => some (wordOf t.lastStep 0) | 0x7C => some (wordOf t.lastStep 1) | 0x80 => some (wordOf t.lastStep 2)
  | 0x88 => some (intWord t.stepSize 0) | 0x8C => some (intWord t.stepSize 1)
  | 0x9C => some (word t.lead.toNat)
  | 0xA8 => some (wordOf t.ppsIn 0) | 0xAC => some (wordOf t.ppsIn 1) | 0xB0 => some (wordOf t.ppsIn 2)
  | 0xB4 => some (word t.holdMs)
  | 0xB8 => some (word (32 * 2 ^ 8 + t.evts.length))
  | 0xBC => some (word (t.outliers * 2 ^ 16 + t.steps * 2 ^ 8 + t.masterChg))
  | 0xC0 => some (wordOf (if s.actsGm then Config.clockId.toNat else t.gmId.toNat) 0)
  | 0xC4 => some (wordOf (if s.actsGm then Config.clockId.toNat else t.gmId.toNat) 1)
  | 0xC8 => some (word t.removed.toNat)
  | _ => none

/-- The node at a port's far end, as PEER shows it. -/
def State.tportPeer (s : State) (p : Nat) : Nat :=
  if s.isSystem then (if p < 32 then p else (s.port p).peer.toNat / 2 ^ 8 % 64)
  else if p < 7 then s.portDie p else s.links.down

def State.absentBlock (s : State) (inst off : Nat) : Bool :=
  decide (0x100 + 0x40 * (if s.isSystem then 18 else 9) ≤ off) || (!s.isSystem && decide (inst ≠ 0))

def State.tportWord (s : State) (inst off : Nat) : Option Word :=
  let per := if s.isSystem then 18 else 9
  if off = 0x40 then some (word (per + 18 * inst * 2 ^ 8))
  else if s.absentBlock inst off then some 0
  else if 0x100 ≤ off ∧ off < 0x100 + 0x40 * per then
    let p := 18 * inst + (off - 0x100) / 0x40
    let x := s.tport p
    match (off - 0x100) % 0x40 with
    | 0x00 => some (word (setFld (s.tportReg p 0) 24 2 (s.portKind p)).toNat)
    | 0x10 => some (word (x.state.code * 2 ^ 29 + s.tportPeer p * 2 ^ 8))
    | 0x18 => some (intWord (match x.last with | some (o, _) => o | none => 0) 0)
    | 0x1C => some (intWord (match x.last with | some (o, _) => o | none => 0) 1)
    | 0x20 => some (intWord x.mpd 0)
    | 0x24 => some (intWord x.mpd 1)
    | _ => none
  else none

/-! ### Links and Sinter (R295, R296, R316) -/

/-- The primary parent's port. -/
def State.parentPort (s : State) : Option Nat := (s.route .up).head?

/-- KIND of a port (R295): 0 package link, 1 K-link, 2 Ethernet, 3 twin. -/
def State.pcfgKind (s : State) (p : Nat) : Nat :=
  if s.isSystem then (if p < 32 then 1 else if p = 34 then 3 else 2) else if p < 7 then 0 else 1

/-- The partner's node, as PSTAT shows it: a die of the package, the first peer of an Ethernet port, or the one that training
told (R258, R295). -/
def State.partnerNode (s : State) (p : Nat) : BitVec 16 :=
  if s.isEth p then ((s.portChans p).head?.map fun c => (s.peerOf c).node).getD 0
  else if s.linkKind p = 0 then (if s.linkUp p then nodeOf 0 s.links.tray s.links.down (s.portDie p) else 0)
  else (s.port p).peer

/-- The word of a port block. -/
def State.portWord (s : State) (p off : Nat) : Option Word :=
  let x := s.port p
  match off with
  | 0x00 => some (setFld (s.portReg p 0) 28 3 (s.pcfgKind p))
  | 0x04 =>
    let parent := if s.isSystem then decide (p = s.links.upPort) && !s.straps.cascade
      else if s.isHead then decide (p = s.primaryKlink) else decide (s.parentPort = some p)
    let sec := (s.portChans p).any fun c => (s.chan c).armed && (s.chan c).txKey.isSome
    some (word (x.state.code * 2 ^ 29 + b01 parent 28 + b01 sec 27 + (s.partnerNode p).toNat * 2 ^ 10 + min x.trains 255))
  | 0x08 => some (if s.isSystem && decide (32 ≤ p) then 0 else word (laneWord x.rxMap))
  | 0x28 => some (word (b01 x.nextGates.isSome 31 + b01 (decide (x.gateNo % 2 = 1)) 30 + x.gates.entries.length))
  | 0x50 =>
    let c := (s.portChans p).headD p
    some (word (min (s.credits c 2) 4095 * 2 ^ 20 + min (s.credits c 3) 1023 * 2 ^ 10 + min (s.credits c 7) 1023))
  | 0x54 => some (word (gateCycle x.gates))
  | _ => none

/-- The ports that a page's GIDX reaches (R295, R296): PLINK's 9, KLINK's 32, or U0 to U3. -/
def gatePort (page p : Nat) : Bool :=
  match keyType page with
  | 0x90 => decide (p < 32)
  | 0x91 => decide (32 ≤ p) && decide (p < 36)
  | _ => decide (p < 9)

/-- GDATA: the entry of the list that GIDX names. -/
def State.gdataWord (s : State) (page : Nat) : Word :=
  let ix := s.reg page 0x48
  let x := s.port (fld ix 16 8)
  if !gatePort page (fld ix 16 8) then 0
  else if bit ix 6 then Tab.read gdataReset x.written (fld ix 0 6)
  else match x.gates.entries[fld ix 0 6]? with
    | some e => word (e.1.toNat * 2 ^ 24 + e.2)
    | none => gdataReset 0

def State.plinkWord (s : State) (off : Nat) : Option Word :=
  match off with
  | 0x40 => some 9
  | 0x44 => some (word (min s.links.changes 15 * 16 + b01 (!s.portUp 7 && !s.portUp 8) 1 + s.regFld (pg 0x38) 0x44 0 1))
  | 0x4C => some (s.gdataWord (pg 0x38))
  | _ => if 0x100 ≤ off ∧ off < 0x100 + 0x80 * 9 then s.portWord ((off - 0x100) / 0x80) ((off - 0x100) % 0x80) else none

/-- The addressing table's entry that PEER_IDX names. -/
def noPeer (_ : Nat) : EthPeer := { mac := 0, valid := false, port := 0, node := 0 }

def State.ethWord (s : State) (off : Nat) : Option Word :=
  let e := Tab.read noPeer s.links.peers (s.regFld (pg 0x91) 0x60 0 8)
  match off with
  | 0x4C => some (s.gdataWord (pg 0x91))
  | 0x64 => some (word (e.mac.toNat % 2 ^ 32))
  | 0x68 => some (word (b01 e.valid 31 + e.port.toNat * 2 ^ 29 + e.mac.toNat / 2 ^ 32))
  | 0x6C => some (word e.node.toNat)
  | _ => if 0x100 ≤ off ∧ off < 0x300 then s.portWord (32 + (off - 0x100) / 0x80) ((off - 0x100) % 0x80) else none

/-- TWIN: PAIRED reads MIRRORING while the mirror is current (R296). -/
def State.twinWord (s : State) (off : Nat) : Option Word :=
  match off with
  | 0x40 =>
    let st := if s.links.twin.code = 1 ∧ s.mirrorCurrent = true then 2 else s.links.twin.code
    some (word (st * 2 ^ 29 + min s.links.takeovers 255))
  | 0x44 => some s.links.downPrimary
  | _ => none

def State.sinterWord (s : State) (off : Nat) : Option Word :=
  if off = 0x48 then
    let enc := decide (s.sinter.enc ≠ []) || s.sinter.pack.any fun j => j.buf.isSome
    let dec := decide (s.sinter.dec ≠ []) || s.sinter.unpack.any fun j => j.buf.isSome
    some (word (b01 enc 31 + b01 dec 30 + min s.encBytes 16384 * 2 ^ 15 +
      min s.decBytes 16384))
  else none

/-! ### Fleet services (R349) -/

/-- The nodes of LIDX: those watched, then a tray aggregator's die table. -/
def State.lidxCount (s : State) : Nat :=
  s.watchList.length + if s.isSystem && !s.straps.cascade then 256 else 0

def State.ldataWord (s : State) (i : Nat) : Word :=
  let contested (n : BitVec 16) : Nat := b01 (s.svc.claims.any fun a => a.contested && decide (a.target = n)) 29
  match s.watchList[i]? with
  | some w =>
    let x := s.watch w
    let n := s.watchNode w
    word (x.level.code * 2 ^ 30 + contested n + b01 (s.watchUp w) 28 + b01 x.parked 27 + min x.missed 255 * 2 ^ 16 + n.toNat)
  | none =>
    if i < s.lidxCount then
      let k := i - s.watchList.length
      let n := nodeOf 0 s.links.tray (k / 8) (k % 8)
      word ((Tab.read levelAbsent s.svc.dies k).code * 2 ^ 30 + contested n + b01 (s.portUp (k / 8)) 28 + 2 ^ 26 + n.toNat)
    else word (3 * 2 ^ 30)

/-- JDATA_k of the entry that JIDX names; an entry not in use reads the reset values. -/
def State.jdataWord (s : State) (k : Nat) : Word :=
  match Tab.read noJobEntry s.svc.jobs (s.regFld svcPage 0x70 0 6) with
  | none => match k with
    | 1 => 0xFD71 | 2 => 0x0180000A | 3 => 100000 | _ => 0
  | some j => match k with
    | 0 => word (2 ^ 31 + b01 j.root 30 + j.state.code * 2 ^ 28 + b01 j.member 27 + j.job.toNat)
    | 1 => word (j.runtime.toNat * 2 ^ 16 + j.qp.toNat)
    | 2 => word (j.ratio.toNat * 2 ^ 16 + j.loExp.toNat)
    | 3 => j.stepWait
    | 4 => j.lastStep
    | 5 => j.lastQ
    | 6 => word (j.armedAtT.toNat * 2 ^ 16 + s.stepDies j [] % 2 ^ 16)
    | _ => word (j.stragglers.toNat * 2 ^ 16 + j.stepGap.toNat)

def State.svcWord (s : State) (off : Nat) : Option Word :=
  match off with
  | 0x4C => some (setFld (setFld (s.reg svcPage 0x4C) 8 8 s.svc.pend.length) 0 8 32)
  | 0x70 => some (setFld (s.reg svcPage 0x70) 16 16 (if s.isSystem then 64 else 16))
  | 0xA0 => some (setFld (s.reg svcPage 0xA0) 16 16 s.lidxCount)
  | 0xA4 => some (s.ldataWord (s.regFld svcPage 0xA0 0 16))
  | 0xAC => some (Tab.read ddataReset s.svc.drift (s.regFld svcPage 0xA8 0 5))
  | 0xB0 => some (setFld (s.reg svcPage 0xB0) 16 16 s.svc.claims.length)
  | 0xB4 => some (match s.svc.claims[s.regFld svcPage 0xB0 0 6]? with
    | some a => word (a.target.toNat * 2 ^ 16 + a.job.toNat)
    | none => 0)
  | 0xB8 => some (match s.svc.claims[s.regFld svcPage 0xB0 0 6]? with
    | some a => word (2 ^ 31 + a.claim.toNat * 2 ^ 29 + b01 a.contested 28 + b01 a.excluded 27)
    | none => 0)
  | _ => if 0x80 ≤ off ∧ off < 0xA0 then some (s.jdataWord ((off - 0x80) / 4)) else none

/-! ### Host power (R383) -/

def State.hpwrWord (s : State) (off : Nat) : Option Word :=
  let h := s.hpwr
  let c := s.regFld hpPage 0x94 0 6
  let r := s.rail (s.regFld hpPage 0xB0 0 3)
  let ch := s.regFld hpPage 0xBC 0 6
  match off with
  | 0x58 => some (word (s.estOf (s.coresOf fun _ => true)))
  | 0x5C => some (word (s.estOf (s.coresOf fun c => decide (coreGroup c = 0)) / 1000 * 2 ^ 16 + Tab.read natZero h.budgets 0))
  | 0x60 => some (word (s.estOf (s.coresOf fun c => decide (coreGroup c = 1)) / 1000 * 2 ^ 16 + Tab.read natZero h.budgets 1))
  | 0x64 => some (word (s.estOf (s.coresOf fun c => decide (coreGroup c = 2)) / 1000 * 2 ^ 16 + Tab.read natZero h.budgets 2))
  | 0x70 => some (setFld (s.reg hpPage 0x70) 16 16 (((List.range 16).map fun r => b01 (s.droop r).on r).sum))
  | 0x78 => some (word (b01 h.forced 31 + h.cause.toNat * 2 ^ 29 + b01 h.fixedFloor 28 + b01 h.running.isSome 27 + b01 h.goHeld 26))
  | 0x98 => some (Config.coreMap0 c &&& 0xFFFFFFE0)
  | 0x9C => some (Config.coreMap1 c &&& 0xFF800000)
  | 0xA0 => some (setFld (s.core c).f 0 16 (s.core c).now)
  | 0xA4 => some (s.core c).lim
  | 0xA8 => some (s.core c).fix
  | 0xAC => some (word (Tab.read natZero (s.core c).fmax (s.regFld hpPage 0x94 8 3)))
  | 0xB4 => some r.cfg
  | 0xB8 => some (word (b01 r.vfault 31 + r.ack * 2 ^ 28 + r.tgt * 2 ^ 25 + r.k))
  | 0xC0 => some (word (sensorKind ch * 2 ^ 30 + sensorRegion ch * 2 ^ 26 + Tab.read natZero h.shown ch))
  | 0x148 => some (wordOf (Tab.read bv64Zero h.dmap (s.regFld hpPage 0x140 0 5)).toNat 0)
  | 0x14C => some (wordOf (Tab.read bv64Zero h.dmap (s.regFld hpPage 0x140 0 5)).toNat 1)
  | _ => if 0xC8 ≤ off ∧ off < 0xE0 then some (Tab.read wordZero h.weights (6 * s.regFld hpPage 0xC4 0 4 + (off - 0xC8) / 4)) else none

/-! ### Block power, the log, trace, Snuff and the root of trust (R415, R437, R476, R504) -/

/-- KX_BPWR_STATE, as the slow tick copies it (R75). -/
def State.bpwrStat (s : State) : Word :=
  let b := s.bpwr
  let st := match b.state with
    | .run => 0 | .idle => 1 | .doze => 2 | .entering => 4 | .exiting => 5 | .ember => 0 | .off => 0
  word (st * 2 ^ 29 + b01 b.mode 28 + b.wickSkip * 2 ^ 16 + b.wicks)

/-- A word that no slow tick has copied yet: its reset value. -/
def bpwrUnshown (off : Nat) : Word := regReset (regKey bpPage off)

/-- CAUSE, RESET and SUPPLY show what the latest slow tick copied (R57). -/
def State.bpwrWord (s : State) (off : Nat) : Option Word :=
  if off = 0x54 ∨ off = 0x58 ∨ off = 0x60 then some (Tab.read bpwrUnshown s.bpwr.shown off) else none

def State.fumWord (s : State) (off : Nat) : Option Word :=
  let f := s.fum
  match off with
  | 0x44 => some (word s.logSlots)
  | 0x48 => some (word f.log.length)
  | 0x4C => some s.logFirst
  | 0x50 => some f.next
  | 0x54 => some f.dropCount
  | 0x58 => some (f.dropSev.setWidth 32)
  | 0x5C => some f.seq
  | 0x64 => some s.logRstat
  | 0x6C => some f.ceCount
  | 0x70 => some f.ueCount
  | 0x74 => some f.ueLoc
  | 0x7C => some s.mirrorStat
  | _ => if 0x100 ≤ off ∧ off < 0x200 then some (s.logWindow ((off - 0x100) / 4)) else none

def State.traceWord (s : State) (off : Nat) : Option Word :=
  let t := s.trace
  let ends := match t.token with
    | some k => k.notAfter
    | none => 0
  match off with
  | 0x44 => some (setFld (s.reg tracePage 0x44) 21 1 (b01 t.run 0))
  | 0x80 => some (match t.token with
    | some k => word (2 ^ 31 + k.sources.toNat * 2 ^ 16 + k.dests.toNat * 2 ^ 8)
    | none => 0)
  | 0x84 => some (wordOf ends 0) | 0x88 => some (wordOf ends 1) | 0x8C => some (wordOf ends 2)
  | 0x9C => some s.funnelStat
  | 0xA4 => some (s.funnelWord (s.regFld tracePage 0xA0 0 14))
  | _ => none

def State.snuffWord (s : State) (off : Nat) : Option Word :=
  let x := s.snuff
  match off with
  | 0x44 => some (word (x.state.code * 2 ^ 29 + x.cause.code * 2 ^ 26 + x.scope * 2 ^ 24 + b01 x.late 23 + b01 x.logFull 22))
  | 0x48 => some x.cutNo
  | 0x4C => some (word (x.fromPort.getD 0xFF * 2 ^ 16 + x.init.toNat))
  | 0x50 => some (wordOf x.cutTime 0) | 0x54 => some (wordOf x.cutTime 1) | 0x58 => some (wordOf x.cutTime 2)
  | 0x60 => some (wordOf x.openCh.toNat 0) | 0x64 => some (wordOf x.openCh.toNat 1)
  | 0x68 => some (wordOf x.bound.toNat 0) | 0x6C => some (wordOf x.bound.toNat 1)
  | 0x70 => some (word x.logUsed)
  | 0x74 => some (word (if s.isSystem then 1048576 else 65536))
  | 0x7C => some (stopWord (Tab.read StopEntry.zero x.stops (s.regFld snuffPage 0x78 0 13)))
  | _ => none

def State.rotWord (s : State) (off : Nat) : Option Word :=
  let r := s.rot
  match off with
  | 0x40 => some (word (r.state.code * 2 ^ 29 + b01 r.updatePending 28 + b01 r.committed 27 + b01 r.fallback 26 + b01 r.identityOk 25 +
      b01 r.image.slot 24 + r.sessions.length % 16 * 2 ^ 16))
  | 0x44 => some (word r.image.svn)
  | 0x48 => some (word r.ctr.minSvn)
  | 0x4C => some (word r.ctr.gen)
  | 0x50 => some (word r.measGen)
  | 0x58 => some 0
  | 0x60 =>
    let p := s.regFld rotPage 0x5C 0 8
    let a := Tab.read noAgreed r.agreed p
    some (word (b01 (s.chan p).rxKey.isSome 31 + b01 (s.chan p).armed 30 + b01 (s.share p).isSome 29 +
      (match a with | some k => k.peer.toNat | none => if (s.chan p).rxKey.isSome then (s.port p).peer.toNat else 0)))
  | _ =>
    if 0x80 ≤ off ∧ off < 0xB0 then
      some (if r.identityOk then word (leAt (sha384 (ecPublic r.devKey)) (off - 0x80) 4) else 0)
    else none

/-! ### Any page-specific register -/

/-- What the state gives for a register that is not a stored word. -/
def State.liveWord (s : State) (key off : Nat) : Option Word :=
  let inst := keyInst key
  match keyType key with
  | 0x01 => s.dirWord off
  | 0x03 => if 0x40 ≤ off ∧ off < 0x4C then some (wordOf s.pages.snapTime ((off - 0x40) / 4)) else if off = 0x60 then some (s.incarnWord 0) else if off = 0x64 then some (s.incarnWord 1) else none
  | 0x10 => s.sampWord off
  | 0x11 => s.geyserWord off
  | 0x12 => s.spareWord off
  | 0x18 => s.redWord (keyScope key) off
  | 0x20 => s.forestWord inst off
  | 0x21 => s.ftabWord off
  | 0x28 => s.checkWord off
  | 0x30 => s.timeWord off
  | 0x31 => s.tportWord inst off
  | 0x38 => s.plinkWord off
  | 0x39 => s.sinterWord off
  | 0x40 => s.svcWord off
  | 0x48 => s.hpwrWord off
  | 0x50 => s.bpwrWord off
  | 0x58 => s.fumWord off
  | 0x60 => s.traceWord off
  | 0x61 => s.snuffWord off
  | 0x68 => s.rotWord off
  | 0x80 => if 0x40 ≤ off ∧ off < 0x60 then some (s.memberWord ((off - 0x40) / 4)) else none
  | 0x90 => if off = 0x40 then some 32 else if off = 0x4C then some (s.gdataWord key) else none
  | 0x91 => s.ethWord off
  | 0x92 => s.twinWord off
  | 0x93 => if 0x100 ≤ off ∧ off < 0x180 then s.portWord inst (off - 0x100) else none
  | _ => none

/-- What a page-specific register reads as now; an offset the page does not implement reads zero (R61). -/
def State.pageWord (s : State) (key off : Nat) : Word :=
  match (s.hdr key).aonOld.find? fun e => decide (e.1 = off) with
  | some e => e.2
  | none => match s.liveWord key off with
    | some w => w
    | none => if (regAt (keyType key) off).isSome then s.reg key off else 0

/-! ### PAGE_STAT (R65) -/

/-- The item that an UNMEASURED bit stands for: the measured items of a page (R28, R491). -/
def pageItems (key : Nat) : List Nat :=
  let i := keyInst key
  match keyType key with
  | 0x18 => [redItem (keyScope key) false, redItem (keyScope key) true]
  | 0x20 => [forestItem i false, forestItem i true]
  | 0x21 => [ftabItem false, ftabItem true]
  | 0x28 => [0x42]
  | _ => []

/-- A command of class and opcode `op` runs on a command page of a window, and its ARG_3[3:0] is `arg`; an `arg` of 16 or
more stands for any, as does every argument of another command (R83, R161). -/
def State.commandRuns (s : State) (pkg : Bool) (op arg : Nat) : Bool :=
  (List.range 8).any fun n =>
    (s.cmd pkg n).busy && decide (fld (s.cmd pkg n).cmd 8 24 = op) &&
      (!s.isSystem || op ≠ 0x200001 || decide (16 ≤ arg) || decide (fld (s.reg (cmdKey pkg n) 0x8C) 0 4 = arg))

def State.eitherRuns (s : State) (op : Nat) : Bool := s.commandRuns false op 16 || s.commandRuns true op 16

/-- A FOREST_LOAD of engine `e` runs (R200). -/
def State.engineLoads (s : State) (e : Nat) : Bool := s.commandRuns false 0x200001 e || s.commandRuns true 0x200001 e

/-- The page-specific bits that follow the state. -/
def State.liveStat (s : State) (key : Nat) : List (Nat × Bool) :=
  let locked := !s.unlocked
  let ports (l : List Nat) : List (Nat × Bool) :=
    [(17, l.any fun p => decide ((s.port p).state = .quarantined)),
     (16, l.any fun p => decide ((s.port p).rxMap.spare = 7) && decide ((s.port p).rxMap.map ≠ 0x688) ||
       decide ((s.port p).txMap.spare = 7) && decide ((s.port p).txMap.map ≠ 0x688))]
  let acts (l : List PendAct) : Bool := decide (l ≠ [])
  match keyType key with
  | 0x18 => [(17, s.commandRuns (decide (keyScope key = 1)) 0x180001 0), (16, acts (s.red (keyScope key)).acts)]
  | 0x20 => [(18, decide ((s.engine (keyInst key)).rebuild ≠ [])), (17, s.engineLoads (keyInst key)), (16, acts (s.engine (keyInst key)).acts)]
  | 0x21 => [(16, s.eitherRuns 0x200010 || s.eitherRuns 0x200011)]
  | 0x10 => [(17, s.samp.grid.pend.isSome), (16, locked)]
  | 0x30 => [(17, s.time.relock.any fun r => r.t.isSome), (16, locked)]
  | 0x38 => ports (List.range 9)
  | 0x91 => ports [32, 33, 34, 35]
  | 0x93 => ports [keyInst key]
  | 0x58 => [(16, decide (s.fum.ckpts ≠ []) || decide (s.fum.restores ≠ []))]
  | 0x60 => [(17, decide (s.bpwr.state = .entering) && (List.range 4).any fun r => decide (s.ringWaiting (traceRing r) ≠ []))]
  | _ => []

/-- PAGE_STAT as read. -/
def State.statWord (s : State) (key : Nat) : Word :=
  let w := (s.liveStat key).foldl (fun w e => setBit w e.1 e.2) (s.hdr key).stat
  let w := setBit w statSyncPend (decide ((s.hdr key).aonPend ≠ []))
  let open' := (pageItems key).any fun i => decide ((s.meas i).status = .unmeasured)
  let w := setBit w statUnmeasured (bit w statUnmeasured || open')
  setBit w statStale (bit w statStale || (decide (keyScope key = 1) && s.pkg.stale))

end Sys2Proof.Machine
end

