-- ==== Sys2Proof/Machine/RegWrite.lean ====
section
/-!
DEFINITION. What a write of a page-specific register does once it has passed the checks of its page: the bits it changes, the
values it is limited to, the entry it reaches through an index register, and what follows from it.
-/
namespace Sys2Proof.Machine

/-! ### The stored word (R4, R65) -/

/-- The RW and W1C bits of the word at an offset. -/
def writeMasks (key off : Nat) : Word × Word :=
  match regAt (keyType key) off with
  | some (r, _, i) => (wordOf r.rw i, wordOf r.w1c i)
  | none => (0, 0)

/-- A word after a write: its RW bits are taken, its W1C bits that are written 1 clear, the rest stands. -/
def mergeWrite (rw w1c old w : Word) : Word := ((old &&& ~~~rw) ||| (w &&& rw)) &&& ~~~(w &&& w1c)

/-- A field in which 0 stores 1. -/
def atLeast1 (lo len : Nat) (w : Word) : Word := if fld w lo len = 0 then setFld w lo len 1 else w

/-- A field limited to a range. -/
def limitFld (lo len a b : Nat) (w : Word) : Word := setFld w lo len (clamp a b (fld w lo len))

/-- The limits of a port block's registers (R295). -/
def fixPort (off : Nat) (w : Word) : Word :=
  match off with
  | 0x00 => atLeast1 8 8 w
  | 0x0C => atLeast1 0 8 (atLeast1 8 8 (atLeast1 16 8 (atLeast1 24 8 w)))
  | 0x10 => atLeast1 0 8 (atLeast1 8 8 w)
  | _ => if 0x14 ≤ off ∧ off ≤ 0x24 then limitFld 0 16 1056 65535 w else w

/-- The limits that the register tables give, by page type and offset. -/
def fixWord (ty off : Nat) (w : Word) : Word :=
  match ty with
  | 0x02 => if off = 0x44 then limitFld 0 4 2 8 w else w
  | 0x11 => if off = 0x40 then limitFld 0 12 4 2048 w else w
  | 0x20 => if off = 0x48 then limitFld 0 16 10 65535 w else w
  | 0x28 => if off = 0x44 then atLeast1 0 16 w else w
  | 0x30 => if off = 0x58 then limitFld 0 32 20 0xFFFFFFFF w
      else if off = 0x5C then limitFld 16 8 2 64 (atLeast1 12 4 w) else w
  | 0x38 => if 0x100 ≤ off then fixPort ((off - 0x100) % 0x80) w else w
  | 0x91 => if 0x100 ≤ off then fixPort ((off - 0x100) % 0x80) w else if off = 0x58 then limitFld 0 14 1100 9000 w else w
  | 0x93 => if 0x100 ≤ off then fixPort (off - 0x100) w else w
  | 0x40 => if off = 0x44 then atLeast1 16 8 w else if off = 0x48 then atLeast1 0 8 (atLeast1 8 8 w)
      else if off = 0x4C then atLeast1 16 16 w else w
  | 0x48 => if off = 0x54 then atLeast1 8 8 (atLeast1 16 16 w) else if off = 0x68 then atLeast1 0 8 w
      else if off = 0x74 then (if fld w 8 2 = 0 then setBit w 8 true else w)
      else if off = 0x80 then atLeast1 0 6 w else if off = 0x84 then atLeast1 0 16 w
      else if 0x100 ≤ off ∧ off < 0x140 then atLeast1 16 8 w else w
  | 0x50 => if off = 0x44 then atLeast1 0 16 (atLeast1 16 8 w) else if off = 0x4C then atLeast1 0 16 w else w
  | 0x58 => if off = 0x68 then limitFld 0 16 20 65535 w else if off = 0x78 then atLeast1 0 16 w else w
  | 0x60 => if off = 0x40 then atLeast1 16 10 w else if off = 0x6C then atLeast1 16 16 w
      else if off = 0x98 then limitFld 0 16 8 1000 w else w
  | _ => w

/-- What the word at an offset holds after a write of `w`. -/
def State.newWord (s : State) (key off : Nat) (w : Word) : Word :=
  let m := writeMasks key off
  fixWord (keyType key) off (mergeWrite m.1 m.2 (s.reg key off) w)

/-- Store a write. -/
def State.storeWord (s : State) (key off : Nat) (w : Word) : State := s.setReg key off (s.newWord key off w)

/-! ### Entries behind index registers -/

/-- A field of an entry's word under the register's RW bits. -/
def underMask (key off : Nat) (old w : Word) : Word :=
  let m := writeMasks key off
  mergeWrite m.1 m.2 old w

/-- JDATA_1 to JDATA_3 (R349): QP and RATIO at the root only; an entry not in use takes nothing. -/
def State.jobWrite (s : State) (k : Nat) (w : Word) : State :=
  let i := s.regFld svcPage 0x70 0 6
  match Tab.read noJobEntry s.svc.jobs i with
  | none => s
  | some j =>
    let j' : JobEntry :=
      if k = 1 then (if j.root then { j with qp := BitVec.ofNat 16 (max 1 (fld w 0 16)) } else j)
      else if k = 2 then
        let j : JobEntry := if j.root then { j with ratio := BitVec.ofNat 16 (fld w 16 16) } else j
        { j with loExp := BitVec.ofNat 6 (fld w 0 6) }
      else if k = 3 then { j with stepWait := BitVec.ofNat 32 (max 1 w.toNat) }
      else j
    s.modSvc fun x => { x with jobs := Tab.write noJobEntry x.jobs i (some j') }

/-- The SVC registers that show entries. -/
def State.svcWrite (s : State) (off : Nat) (w : Word) : State :=
  if off = 0xAC then
    let i := s.regFld svcPage 0xA8 0 5
    let v := atLeast1 16 8 (underMask svcPage off (Tab.read ddataReset s.svc.drift i) w)
    s.modSvc fun x => { x with drift := Tab.write ddataReset x.drift i v }
  else if 0x80 ≤ off ∧ off < 0xA0 then s.jobWrite ((off - 0x80) / 4) w
  else s.storeWord svcPage off w

/-- The HPWR registers that show entries (R382), and LASTLINE, which never clears both enables (R375). -/
def State.hpwrWrite (s : State) (off : Nat) (w : Word) : State :=
  let c := s.regFld hpPage 0x94 0 6
  let i := s.regFld hpPage 0xB0 0 3
  match off with
  | 0x74 =>
    let s := s.storeWord hpPage 0x74 w
    if fld w 8 2 = 0 then s.setErr hpPage errLlClamp else s
  | 0xA0 => s.modCore c fun x => { x with f := underMask hpPage off x.f w }
  | 0xA4 => s.modCore c fun x => { x with lim := w }
  | 0xA8 => s.modCore c fun x => { x with fix := w }
  | 0xAC => s.modCore c fun x => { x with fmax := Tab.write natZero x.fmax (s.regFld hpPage 0x94 8 3) (fld w 0 16) }
  | 0xB4 => s.modRail i fun x => { x with cfg := underMask hpPage off x.cfg w }
  | _ =>
    if 0xC8 ≤ off ∧ off < 0xE0 then
      let v := if off = 0xDC then w &&& 0xFFFF else w
      s.modHp fun x => { x with weights := Tab.write wordZero x.weights (6 * s.regFld hpPage 0xC4 0 4 + (off - 0xC8) / 4) v }
    else s.storeWord hpPage off w

/-- GDATA: an entry of the pending list, where GIDX selects that list (R295). -/
def State.gdataWrite (s : State) (key : Nat) (w : Word) : State :=
  let ix := s.reg key 0x48
  if bit ix 6 && gatePort key (fld ix 16 8) then
    s.modPort (fld ix 16 8) fun x => { x with written := Tab.write gdataReset x.written (fld ix 0 6) w }
  else s

/-- The addressing table of the uplinks (R296). -/
def State.peerWrite (s : State) (off : Nat) (w : Word) : State :=
  let i := s.regFld (pg 0x91) 0x60 0 8
  let old := Tab.read EthPeer.reset s.links.peers i
  let e : EthPeer :=
    if off = 0x64 then { old with mac := BitVec.ofNat 48 (old.mac.toNat / 2 ^ 32 * 2 ^ 32 + w.toNat) }
    else if off = 0x68 then
      { old with valid := bit w 31, port := BitVec.ofNat 2 (fld w 29 2), mac := BitVec.ofNat 48 (fld w 0 16 * 2 ^ 32 + old.mac.toNat % 2 ^ 32) }
    else { old with node := BitVec.ofNat 16 (fld w 0 16) }
  { s with links := { s.links with peers := Tab.write EthPeer.reset s.links.peers i e } }

/-- A peer of the addressing table has frames outstanding. -/
def State.peerBusy (s : State) : Bool :=
  let c := 256 + s.regFld (pg 0x91) 0x60 0 8
  decide ((s.chan c).replay ≠ []) || (List.range 8).any fun k => (s.queue (s.chanPort c) k).any fun f => decide (f.chan = c)

/-! ### Registers whose write does something (each rule with its register) -/

/-- The highest neighbour clock of class `k` in MHz, as KX_PACE_NCLK0 to 2 show it: PROBE, HOST, UCIE, KLINK, ETH, PWR. -/
def State.nclk (s : State) (k : Nat) : Nat := s.regFld (pg 0x02) (0x48 + 4 * (k / 2)) (16 * (k % 2)) 12

/-- KX_PACE_SYNC (R51 to R53, R58): each class's field takes two or three flops; codes 0b00 and 0b01 leave it and set
SYNC_REJ, and so does two flops where a neighbour clock of the class runs above 1,600 MHz. The counts come into force at the
class's next port reset. -/
def State.paceSync (s : State) (w : Word) : State :=
  let page := pg 0x02
  (List.range 6).foldl (fun (s : State) k =>
    let v := fld w (2 * k) 2
    if v < 2 || (decide (v = 2) && decide (1600 < s.nclk k)) then s.setReg page 0x5C (setBit (s.reg page 0x5C) 2 true)
    else s.setRegFld page 0x40 (2 * k) 2 v) s

/-- KX_PACE_HSTO: TIMEOUT is limited to 2 to 8, and a limited value sets HSTO_CLAMP (R48). -/
def State.hstoWrite (s : State) (w : Word) : State :=
  let s' := s.storeWord (pg 0x02) 0x44 w
  let v := fld w 0 4
  if v < 2 ∨ 8 < v then s'.setReg (pg 0x02) 0x5C (setBit (s'.reg (pg 0x02) 0x5C) 1 true) else s'

/-- KX_SAMP_CFG: closes before lock begin at the next grid instant (R95). -/
def State.sampCfgWrite (s : State) (w : Word) : State :=
  let was := bit (s.reg (pg 0x10) 0x44) 2
  let s := s.storeWord (pg 0x10) 0x44 w
  if !was && bit (s.reg (pg 0x10) 0x44) 2 && s.unlocked then s.gridFrom s.now else s

/-- KX_TIME_REFCLK.KHZ (R250, R518): a value out of range, or a write once the timekeeper has started, is discarded. -/
def State.refclkWrite (s : State) (w : Word) : State :=
  let k := fld w 0 18
  if k < 25000 ∨ 156250 < k ∨ s.time.running = true then s.setErr (pg 0x30) errBaseLocked
  else (s.storeWord (pg 0x30) 0xCC w).timeStart

/-- KX_CHECK_REG_DATA: the registration entry that REG_IDX names (R221, R228). -/
def State.regDataWrite (s : State) (w : Word) : State :=
  let i := s.regFld chkPage 0xA4 0 8
  (s.modCheck fun x => { x with regs := Tab.write wordZero x.regs i (underMask chkPage 0xA8 (Tab.read wordZero x.regs i) w) }).kernelChanged

/-- A trace ring that is enabled starts with a SYNC packet (R443). -/
def State.rcfgWrite (s : State) (r off : Nat) (w : Word) : State :=
  let was := bit (s.reg tracePage off) 31
  let s := s.storeWord tracePage off w
  if !was && bit w 31 then s.ringSync 0 r else s

/-- CTRL, T_START and T_STOP: what they name may happen once more (R449, R454). -/
def State.traceArm (s : State) : State :=
  s.modTrace fun t => { t with startUsed := false, stopUsed := false, outUsed := false }

/-- A ring's RPTR: taken modulo the ring size, and what waits for room is written (R117, R447, R534). -/
def State.rptrWrite (s : State) (r : RingRegs) (w : Word) : State :=
  let s := s.ringSetRptr r w
  if keyType r.page = 0x60 then s.ringRetry ((r.rptr - 0x114) / 0x20)
  else if keyType r.page = 0x11 then s.gyRoom
  else s

/-- The GEYSER registers that a window holds fixed: CFG, PREPOST, TRIG_TIME, TRIG_SRC, RING_BASE, RING_SIZE and the UNIT
entries (R119). -/
def gyFixed (off : Nat) : Bool :=
  (decide (0x40 ≤ off) && decide (off ≤ 0x54)) || (decide (0x68 ≤ off) && decide (off < 0x74)) || (decide (0x100 ≤ off) && decide (off < 0x180))

/-- A write to a register answers RETRY now (R119, R200, R201, R296). -/
def State.writeBusy (s : State) (key off : Nat) : Bool :=
  if keyScope key ≠ 0 then false
  else match keyType key with
  | 0x11 => gyFixed off && decide (s.samp.geyser.state ≠ .idle) && decide (s.samp.geyser.state ≠ .done)
  | 0x20 => (decide (off = 0x70) || decide (off = 0x74) || decide (off = 0x78)) && bit (s.reg key 0x44) 2
  | 0x21 => (decide (off = 0x48) || decide (0x80 ≤ off)) && s.eitherRuns 0x200010
  | 0x91 => (decide (off = 0x64) || decide (off = 0x68) || decide (off = 0x6C)) && s.peerBusy
  | _ => false

/-- A write of a register of one word, past every check. A register of the always-on domain waits for the next slow tick
(R75). -/
def State.writeWord (s : State) (key off : Nat) (w : Word) : State :=
  if keyType key = 0x18 then
    if off = 0x58 then s.redQuantile (keyScope key) w else s.storeWord key off w
  else if keyScope key ≠ 0 then
    match ringOf key off with
    | some r => if r.rptr = off then s.ringSetRptr r w else s.ringSetSize r w
    | none => s.storeWord key off w
  else match ringOf key off with
  | some r => if r.rptr = off then s.rptrWrite r w else s.ringSetSize r w
  | none =>
    match keyType key with
    | 0x01 => if 0xC0 ≤ off ∧ s.isSystem = false then s else s.storeWord key off w
    | 0x02 =>
      if off = 0x40 then s.paceSync w else if off = 0x44 then s.hstoWrite w else s.storeWord key off w
    | 0x10 => if off = 0x44 then s.sampCfgWrite w else s.storeWord key off w
    | 0x21 => if off = 0x44 then s.storeWord key off w else s.ftabWrite off w
    | 0x28 =>
      if 0x60 ≤ off ∧ off < 0x98 then s.kernelWrite ((off - 0x60) / 4) w
      else if off = 0xA8 then s.regDataWrite w else s.storeWord key off w
    | 0x30 => if off = 0xCC then s.refclkWrite w else s.storeWord key off w
    | 0x31 => if s.absentBlock (keyInst key) off then s else s.storeWord key off w
    | 0x38 => if off = 0x4C then s.gdataWrite key w else s.storeWord key off w
    | 0x90 => if off = 0x4C then s.gdataWrite key w else s.storeWord key off w
    | 0x91 =>
      if off = 0x4C then s.gdataWrite key w
      else if off = 0x64 ∨ off = 0x68 ∨ off = 0x6C then s.peerWrite off w else s.storeWord key off w
    | 0x40 => s.svcWrite off w
    | 0x48 => s.hpwrWrite off w
    | 0x58 => if off = 0x60 then (s.storeWord key off w).logCapture w else s.storeWord key off w
    | 0x60 =>
      if off = 0x44 then (s.storeWord key off w).traceArm
      else if 0x100 ≤ off ∧ (off - 0x100) % 0x20 = 0 then s.rcfgWrite ((off - 0x100) / 0x20) off w
      else s.storeWord key off w
    | 0x68 => if off = 0x58 then (if bit w 0 then s.rotOrder 2 else s) else s.storeWord key off w
    | _ => s.storeWord key off w

/-! ### The always-on domain (R75) -/

/-- Replace the entry at an offset, whatever it holds. -/
def putAt (l : Tab Word) (off : Nat) (w : Word) : Tab Word := l.filter (fun e => decide (e.1 ≠ off)) ++ [(off, w)]

def isAon (key off : Nat) : Bool :=
  match regAt (keyType key) off with
  | some (r, _, _) => r.aon
  | none => false

/-- A write to a register of the always-on domain: it is pending until the next slow tick; a second write replaces it. -/
def State.aonWrite (s : State) (key off : Nat) (w : Word) : State :=
  s.modHdr key fun h => { h with aonPend := putAt h.aonPend off w }

/-- The copy of a page's pending writes at a slow tick: the values act from now on, and read-backs show them from the next
tick. -/
def State.aonCopyPage (s : State) (key : Nat) : State :=
  let h := s.hdr key
  let s := s.modHdr key fun h => { h with aonOld := [] }
  let olds : Tab Word := h.aonPend.map fun e => (e.1, s.pageWord key e.1)
  let s := h.aonPend.foldl (fun (s : State) e => s.storeWord key e.1 e.2) s
  s.modHdr key fun h => { h with aonPend := [], aonOld := olds }

/-- Every page's copy. -/
def State.aonCopy (s : State) : State :=
  (s.pages.hdr.filter fun e => decide (e.2.aonPend ≠ []) || decide (e.2.aonOld ≠ [])).foldl (fun s e => s.aonCopyPage e.1) s

/-! ### Wide registers (R76) -/

/-- The first offset, the number of words, and the word's place, of the wide register at an offset. -/
def wideAt (ty off : Nat) : Option (Nat × Nat × Nat) :=
  match regAt ty off with
  | some (r, _, i) => if 1 < r.words then some (off - 4 * i, r.words, i) else none
  | none => none

/-- All words of a wide register together: KX_TIME_EPOCH_BASE only in FREE (R250). -/
def State.writeWide (s : State) (key base : Nat) (ws : List Word) : State :=
  let all (s : State) : State := (List.range ws.length).foldl (fun s i => s.storeWord key (base + 4 * i) (ws.getD i 0)) s
  if keyScope key ≠ 0 then all s
  else match keyType key with
    | 0x30 => if base = 0x90 ∧ s.time.servo ≠ .free then s.setErr key errBaseLocked else all s
    | 0x48 =>
      if base = 0x148 then
        s.modHp fun x => { x with dmap := Tab.write bv64Zero x.dmap (s.regFld hpPage 0x140 0 5) (BitVec.ofNat 64 (ofWords ws)) }
      else all s
    | 0x60 => if base = 0x48 ∨ base = 0x58 then (all s).traceArm else all s
    | _ => all s

/-- A write of a word of a wide register: higher words are staged, and the lowest commits all; a higher word that was not
written keeps its value. -/
def State.wideWrite (s : State) (key base words i : Nat) (w : Word) : State :=
  if i ≠ 0 then s.modHdr key fun h => { h with staged := putAt h.staged (base + 4 * i) w }
  else
    let st := (s.hdr key).staged
    let at' (j : Nat) : Word :=
      if j = 0 then w
      else match st.find? fun e => decide (e.1 = base + 4 * j) with
        | some e => e.2
        | none => s.pageWord key (base + 4 * j)
    let s := s.modHdr key fun h => { h with
      staged := h.staged.filter fun e => decide (e.1 < base) || decide (base + 4 * words ≤ e.1) }
    s.writeWide key base ((List.range words).map at')

/-- A write to a page-specific register, past the checks of its page: RETRY where the register turns it away. -/
def State.writeReg (s : State) (key off : Nat) (w : Word) : Resp × State :=
  let s := if (writeMasks key off).1 = 0 ∨ cfgWindow (keyType key) off = true then s else s.touchItem 0x09
  if s.writeBusy key off then (.retry, s)
  else if isAon key off then (.ok, s.aonWrite key off w)
  else match wideAt (keyType key) off with
    | some (base, words, i) => (.ok, s.wideWrite key base words i w)
    | none => (.ok, s.writeWord key off w)

/-- A write of a register of the common header, past its checks (R65 to R68): ENABLE reads 1; PAGE_ERR bits clear where 1 is
written; PAGE_PRIV keeps to its floors; PAGE_INJ arms a kind the page supports. -/
def State.writeHead (s : State) (key off : Nat) (w : Word) : State :=
  let ty := keyType key
  match off with
  | 0x10 => if ty = 0x03 then s.modHdr key fun h => { h with ctrl := 1 ||| (w &&& 2) } else s
  | 0x18 => s.modHdr key fun h => { h with err := h.err &&& ~~~w }
  | 0x1C => s.modHdr key fun h => { h with errMask := w &&& errBits ty }
  | 0x20 => s.modHdr key fun h => { h with irqEn := w &&& (if ty = 0x08 then 0xF0000003 else 0xF0000001) }
  | 0x2C =>
    let f := pageFloor ty
    let rd := max f.1.toNat (fld w 30 2)
    let wr := max f.2.toNat (fld w 28 2)
    let s := s.modHdr key fun h => { h with rd := BitVec.ofNat 2 rd, wr := BitVec.ofNat 2 wr }
    if fld w 30 2 < f.1.toNat ∨ fld w 28 2 < f.2.toNat then s.setErr key errPrivClamp else s
  | 0x30 =>
    if ty ∈ injTypes then
      let v := w &&& 0x80FF00FF
      s.modHdr key fun h => { h with inj := if (injKinds ty).contains (fld w 16 8) then v else setBit v 31 false }
    else s
  | _ => s

/-- A write that no check of the bus delays: a restored register (R436). -/
def State.putReg (s : State) (key off : Nat) (w : Word) : State := (s.writeReg key off w).2

/-- Reading a page-specific register: the wide latch (R76), the record latch (R152), the held SNAP_TIME (R77). -/
def State.readReg (s : State) (key off : Nat) : Word × State :=
  match wideAt (keyType key) off with
  | some (base, words, i) =>
    if i = 0 then
      let ws := (List.range words).map fun j => s.pageWord key (base + 4 * j)
      (ws.getD 0 0, s.modHdr key fun h => { h with wide := some (base, ws) })
    else match (s.hdr key).wide with
      | some (b, ws) => (if b = base then ws.getD i 0 else s.pageWord key off, s)
      | none => (s.pageWord key off, s)
  | none =>
    if keyType key = 0x18 ∧ off = 0x200 then
      let s := s.redCapture (keyScope key)
      (s.pageWord key off, s)
    else (s.pageWord key off, s)

end Sys2Proof.Machine
end

