-- ==== Sys2Proof/Machine/Ckpt.lean ====
section
/-!
DEFINITION. Checkpoints: STATE_CKPT, STATE_RESTORE, STATE_DIGESTS, and the MIRROR frames that answer a restore (R431 to R436,
R438).
-/
namespace Sys2Proof.Machine

/-! ### Plans of host-memory writes -/

/-- Make a plan's next write, or complete its command: RES_0 holds what the plan says. -/
def State.planNext (s : State) (p : WritePlan) : State :=
  match p.writes with
  | [] =>
    let s := s.modFum fun f => { f with ckpts := f.ckpts.filter fun q => decide (q.pkg ≠ p.pkg) || decide (q.page ≠ p.page) }
    (s.setRes p.pkg p.page 0 p.res).complete p.pkg p.page stOk 0
  | w :: rest =>
    let s := s.modFum fun f => { f with
      ckpts := (f.ckpts.filter fun q => decide (q.pkg ≠ p.pkg) || decide (q.page ≠ p.page)) ++ [{ p with writes := rest }] }
    s.cmdXfer p.pkg p.page true w.1 w.2.length w.2

/-- A write of a plan has completed, or failed: DETAIL HOST_ERR. -/
def State.planLoaded (s : State) (pkg : Bool) (n : Nat) (failed : Bool) : State :=
  match s.fum.ckpts.find? fun p => decide (p.pkg = pkg) && decide (p.page = n) with
  | none => s
  | some p =>
    if failed then
      (s.modFum fun f => { f with ckpts := f.ckpts.erase p }).complete pkg n stError 6
    else s.planNext p

/-! ### STATE_CKPT (R434, R435) -/

/-- One copy of one item: its entry without OFFSET and STREAM_LEN, and its image. -/
structure CkptImage where
  id     : Nat
  copy   : Nat
  engine : Nat
  act    : Nat
  image  : List Byte

/-- The images of the items asked for, item 0x10 at bit 0, as they stand. -/
def State.ckptImages (s : State) (items : Nat) : List CkptImage :=
  ((List.range 5).filter fun i => items.testBit i).flatMap fun i =>
    ((s.itemCopies (0x10 + i)).filter fun c => decide (c.2.2.2 ≠ [])).map fun c =>
      { id := 0x10 + i, copy := c.1, engine := c.2.1, act := c.2.2.1, image := c.2.2.2 }

/-- The blocks of an image of at most 4,096 bytes each (DESIGN CHOICE), through the compressor. -/
def State.packImage (s : State) (img : List Byte) : List Byte × State :=
  let n := ceilDiv img.length 4096
  let start := 32 + 4 * n
  let r := (List.range n).foldl (fun (a : List Nat × List Byte × State) i =>
    let part := slice img (4096 * i) (min 4096 (img.length - 4096 * i))
    let b := szEncodeBlock part
    let w := a.2.2.szWrote part.length b.1 b.2
    (a.1 ++ [start + a.2.1.length], a.2.1 ++ w.1, w.2)) ([], [], s)
  (szHeader img.length 4096 r.1 ++ r.1.flatMap (leBytes 4) ++ r.2.1, r.2.2)

/-- A directory entry (R434). -/
def ckptEntry (x : CkptImage) (off len : Nat) : List Byte :=
  [BitVec.ofNat 8 x.id, BitVec.ofNat 8 x.copy, BitVec.ofNat 8 x.engine, BitVec.ofNat 8 x.act] ++ leBytes 4 off ++ leBytes 4 len ++
    leBytes 4 x.image.length ++ imageDigest x.image

/-- The streams of the images, with their entries; each starts at the next multiple of 64 after the directory (DESIGN
CHOICE). -/
def State.ckptStreams (s : State) (imgs : List CkptImage) : List (Nat × List Byte) × List Byte × Nat × State :=
  imgs.foldl (fun (a : List (Nat × List Byte) × List Byte × Nat × State) x =>
    let p := a.2.2.2.packImage x.image
    let off := ceilDiv a.2.2.1 64 * 64
    (a.1 ++ [(off, p.1)], a.2.1 ++ ckptEntry x off p.1.length, off + p.1.length, p.2)) ([], [], 64 + 64 * imgs.length, s)

/-- The header. -/
def ckptHeader (items len : Nat) (t : FT) (origin : BitVec 16) (dir : List Byte) : List Byte :=
  let h := leBytes 4 0x4B43584B ++ [1, 0] ++ leBytes 2 items ++ leBytes 4 len ++ leBytes 10 t ++ leBytes 2 origin.toNat ++
    zeros 32 ++ leBytes 4 (crc32c dir).toNat
  h ++ leBytes 4 (crc32c h).toNat

/-- STATE_CKPT: streams, then the directory, then the header; FULL where they do not fit the capacity. -/
def stateCkptCmd (c : CmdIn) (s : State) : State :=
  let items := argFld c s 0 0 5
  let addr := arg64 c s 1
  let r := s.ckptStreams (s.ckptImages items)
  let len := r.2.2.1
  if (argW c s 3).toNat < len then s.failCmd c 1
  else
    let plan : WritePlan :=
      { pkg := c.pkg, page := c.page.toNat, res := len
        writes := (r.1.map fun w => (addr + w.1, w.2)) ++ (if r.2.1 = [] then [] else [(addr + 64, r.2.1)]) ++
          [(addr, ckptHeader items len s.ft s.node r.2.1)] }
    r.2.2.2.planNext plan

def execStateCkpt (c : CmdIn) (s : State) : Host.Outcome State Fault Refusal :=
  finish (runCmd c 0x58 0x0010 .firmware true (stateCkptCmd c) s)

/-! ### STATE_DIGESTS (R438) -/

/-- The digest table as STATE_DIGESTS writes it: OFFSET and lengths zero. -/
def digestBytes (e : DigestEntry) : List Byte :=
  [BitVec.ofNat 8 e.id, BitVec.ofNat 8 e.copy, BitVec.ofNat 8 e.engine, BitVec.ofNat 8 e.act] ++ zeros 12 ++ padTo 48 e.digest

def stateDigestsCmd (c : CmdIn) (s : State) : State :=
  let l := s.digestTable
  let b := l.flatMap digestBytes
  s.planNext { pkg := c.pkg, page := c.page.toNat, res := l.length, writes := if b = [] then [] else [(arg64 c s 0, b)] }

def execStateDigests (c : CmdIn) (s : State) : Host.Outcome State Fault Refusal :=
  finish (runCmd c 0x58 0x0013 .operator true (stateDigestsCmd c) s)

/-! ### STATE_RESTORE (R436) -/

/-- A directory entry as read. -/
structure DirEntry where
  id     : Nat
  copy   : Nat
  engine : Nat
  act    : Nat
  off    : Nat
  len    : Nat
  image  : Nat
  digest : List Byte

def dirEntry (b : List Byte) : DirEntry :=
  { id := leAt b 0 1, copy := leAt b 1 1, engine := leAt b 2 1, act := leAt b 3 1, off := leAt b 4 4, len := leAt b 8 4,
    image := leAt b 12 4, digest := slice b 16 48 }

/-- Step 1: the header and the directory. The directory ends where the first stream begins (DEDUCED). -/
def ckptDir (b : List Byte) : Option (List DirEntry) :=
  let n := if leAt b 6 2 = 0 then 0 else (leAt b (64 + 4) 4 - 64) / 64
  let dir := slice b 64 (64 * n)
  if b.length < 64 ∨ leAt b 0 4 ≠ 0x4B43584B ∨ leAt b 4 1 ≠ 1 ∨ leAt b 60 4 ≠ (crc32c (b.take 60)).toNat ∨
      b.length < 64 + 64 * n ∨ leAt b 56 4 ≠ (crc32c dir).toNat then none
  else some ((List.range n).map fun i => dirEntry (slice dir (64 * i) 64))

/-- The bytes of block `i` of a stream of `n` blocks (R310). -/
def blockAt (st : List Byte) (n i : Nat) : List Byte :=
  let o := leAt st (32 + 4 * i) 4
  let e := if i + 1 < n then leAt st (32 + 4 * (i + 1)) 4 else st.length
  slice st o (e - o)

/-- Decode the blocks of a stream from block `i` on. -/
def unpackFrom (st : List Byte) (n : Nat) : Nat → Nat → List Byte → Option (List Byte)
  | 0, _, acc => some acc
  | k + 1, i, acc =>
    match szDecodeBlock (blockAt st n i) with
    | .ok d => unpackFrom st n k (i + 1) (acc ++ d)
    | .error _ => none

/-- A stream's header and index hold (R310). -/
def streamGood (st : List Byte) : Bool :=
  let n := leAt st 12 4
  decide (leAt st 0 4 = 0x5A53584B ∧ leAt st 4 1 = 1 ∧ leAt st 28 4 = (crc32c (st.take 28)).toNat ∧ 32 + 4 * n ≤ st.length ∧
    leAt st 24 4 = (crc32c (slice st 32 (4 * n))).toNat)

/-- Unpack a stream (R310, R312). -/
def unpackStream (st : List Byte) : Option (List Byte) :=
  let n := leAt st 12 4
  if streamGood st then (unpackFrom st n n 0 []).bind fun d => if d.length = leAt st 8 4 then some d else none else none

/-- The blocks of a stream that the decompressor rejects: index, cause and bytes (R305). -/
def streamBad (st : List Byte) : List (Nat × Nat × List Byte) :=
  let n := leAt st 12 4
  if streamGood st then (List.range n).filterMap fun i => match szDecodeBlock (blockAt st n i) with
    | .ok _ => none
    | .error e => some (i, e, blockAt st n i)
  else []

/-- Step 2: the image of an entry, where it unpacks to its length and digest. -/
def entryImage (b : List Byte) (e : DirEntry) : Option (List Byte) :=
  if b.length < e.off + e.len then none
  else (unpackStream (slice b e.off e.len)).bind fun img =>
    if img.length = e.image ∧ 48 ≤ img.length ∧ sha384 (img.take (img.length - 48)) = e.digest ∧ imageDigest img = e.digest then
      some img
    else none

/-- Step 3: DETAIL NO_REPLICA or REPLICA_MISMATCH, or 0. -/
def replicaCheck (table : List DigestEntry) (e : DirEntry) : Nat :=
  match table.find? fun d => decide (d.id = e.id) && decide (d.copy = e.copy) && decide (d.engine = e.engine) && decide (d.act = e.act) with
  | none => 4
  | some d => if d.digest = e.digest then 0 else 3

/-- A kernel entry of a KXKT image. -/
def kernelAt (img : List Byte) (k : Nat) : Kernel :=
  let w (i : Nat) : Word := word (leAt img (64 + 32 * (k - 1) + 4 * i) 4)
  { Kernel.reset k with
    absTol := w 0, relTol := w 1, lo := w 2, hi := w 3, limits := w 4, ctl := w 5, lambda := w 6, escape := w 7 }

/-- Install a KXKT image: kernels, signature entries, registrations; item 0x42 is measured. -/
def State.installKernels (s : State) (img : List Byte) : State :=
  let sig := 64 + 32 * 255
  let reg := sig + 320
  let s := (List.range' 1 255).foldl (fun (s : State) k => s.modKernel k fun x =>
    { kernelAt img k with checked := x.checked, unchecked := x.unchecked, failed := x.failed }) s
  let s := (List.range 80).foldl (fun (s : State) i =>
    s.storeWord chkPage (0x100 + 32 * (i / 5) + 4 * (i % 5)) (word (leAt img (sig + 4 * i) 4))) s
  let s := (List.range 256).foldl (fun (s : State) i => s.modCheck fun x => { x with
    regs := Tab.write wordZero x.regs i (word (leAt img (reg + 4 * i) 4)) }) s
  s.kernelChanged

/-- One entry of a KXCF image, at its window address. -/
def State.installConfig (s : State) (a : Nat) (v : Word) : State :=
  match s.ownPages.find? fun e => decide (e.1 = a / 4096) with
  | none => s
  | some e =>
    let off := a % 4096
    if off < 0x40 then s.writeHead e.2 off v
    else if keyType e.2 = 0x08 then
      (if 0x80 ≤ off ∧ off < 0x100 ∧ (s.cmd false (keyInst e.2)).busy = false then s.setReg e.2 off v else s)
    else match wideAt (keyType e.2) off with
      | some (base, words, i) => s.writeWide e.2 base ((List.range words).map fun j => if j = i then v else s.reg e.2 (base + 4 * j))
      | none => s.putReg e.2 off v

/-- Load an image through its own path into the inactive copy: DETAIL, or the state (step 4). -/
def State.loadItem (s : State) (e : DirEntry) (img : List Byte) : Nat ⊕ State :=
  if e.id = 0x10 then
    match loadImage img img.length with
    | .inl _ => .inl 2
    | .inr cp => .inr ((s.modRed 0 fun x => { x with inactive := cp }).measure (redItem 0 true) e.digest none)
  else if e.id = 0x11 then
    if s.engineCount ≤ e.engine then .inl 2
    else match forestLoad s.isSystem (s.isSystem || s.isHead) (s.engine e.engine).dead img img.length with
      | .inl _ => .inl 2
      | .inr cp => .inr ((s.modEngine e.engine fun f => { f with inactive := cp }).measure (forestItem e.engine true) e.digest none)
  else if e.id = 0x12 then
    match ftabOf img img.length with
    | .inl _ => .inl 2
    | .inr cp => .inr ((s.modFtab fun f => { f with inactive := cp, dirty := false }).measure (ftabItem true) e.digest none)
  else if e.id = 0x13 then (if img.length = 9616 ∧ s.isDie = true then .inr (s.installKernels img) else .inl 2)
  else
    let n := (img.length - 112) / 8
    let l := (List.range n).map fun i => (leAt img (64 + 8 * i) 4, word (leAt img (68 + 8 * i) 4))
    .inr ((l.foldl (fun s x => s.installConfig x.1 x.2) s).measure 5 [] none)

/-- Is an entry the one that is loaded: the copy that was active, where the checkpoint holds it (DESIGN CHOICE)? -/
def loads (es : List DirEntry) (e : DirEntry) : Bool :=
  decide (e.copy = 0) || !es.any fun x => decide (x.id = e.id) && decide (x.engine = e.engine) && decide (x.copy = 0)

/-- One item: 0, or the DETAIL for which it is refused. Every copy is checked before any is loaded. -/
def State.restoreItem (s : State) (b : List Byte) (es : List DirEntry) (table : Option (List DigestEntry)) (item : Nat) : Nat × State :=
  let mine := es.filter fun e => decide (e.id = item)
  let imgs := mine.filterMap fun e => (entryImage b e).map fun i => (e, i)
  let s := (mine.flatMap fun e => streamBad (slice b e.off e.len)).foldl (fun s x => s.szReject x.2.1 0xFF (x.1 % 65536) x.2.2) s
  let step3 := match table with
    | none => 0
    | some t => (mine.map (replicaCheck t)).foldl (fun a d => if a = 0 then d else a) 0
  if mine = [] ∨ imgs.length ≠ mine.length then (2, s)
  else if step3 ≠ 0 then (step3, s)
  else (imgs.filter fun x => loads mine x.1).foldl (fun (a : Nat × State) x =>
    if a.1 ≠ 0 then a
    else match a.2.loadItem x.1 x.2 with
      | .inl d => (d, a.2)
      | .inr t => (0, t)) (0, s)

/-- The restore ends: refused items in RES_0, the first refusal's DETAIL, the record, and RESTORE_FAIL. -/
def State.restoreEnd (s : State) (r : Restore) (refused detail : Nat) : State :=
  let s := s.modFum fun f => { f with restores := f.restores.filter fun q => decide (q.pkg ≠ r.pkg) || decide (q.page ≠ r.page) }
  let s := s.logPlain fumPage 0x0006 (if refused = 0 then 4 else 5) (leBytes 4 r.items ++ leBytes 4 refused)
  let s := if r.force then s.logPlain fumPage 0x0007 7 (leBytes 4 r.items ++ leBytes 4 refused) else s
  let s := if refused = 0 then s else s.setErr fumPage errRestoreFail
  (s.setRes r.pkg r.page 0 refused).complete r.pkg r.page (if refused = 0 then stOk else stError) detail

/-- Steps 2 to 4, with the replica's digest table where step 3 is made. -/
def State.restoreRun (s : State) (r : Restore) (table : Option (List DigestEntry)) : State :=
  match ckptDir r.bytes with
  | none => s.restoreEnd r r.items 2
  | some es =>
    let a := ((List.range 5).filter fun i => r.items.testBit i).foldl (fun (a : Nat × Nat × State) i =>
      let x := a.2.2.restoreItem r.bytes es table (0x10 + i)
      if x.1 = 0 then (a.1, a.2.1, x.2) else (a.1 + 2 ^ i, if a.2.1 = 0 then x.1 else a.2.1, x.2)) (0, 0, s)
    a.2.2.restoreEnd r a.1 a.2.1

/-- A restore has its bytes: step 1, then the replica's table is asked for, unless FORCE is set. -/
def State.restoreGo (s : State) (r : Restore) : State :=
  match ckptDir r.bytes with
  | none => s.restoreEnd r r.items 2
  | some _ =>
    if r.force then s.restoreRun r none
    else if s.fum.peer.isNone then s.restoreEnd r r.items 7
    else
      let s := s.modFum fun f => { f with
        restores := (f.restores.filter fun q => decide (q.pkg ≠ r.pkg) || decide (q.page ≠ r.page)) ++ [r]
        pulls := f.pulls ++ [{ items := 2 ^ 8, pkg := r.pkg, page := r.page, stale := 0, restore := true }] }
      (s.mirrorSend 0 0 [Config.pullAsk (2 ^ 8)]).waitPage r.pkg r.page (.event 18 0)

/-- The checkpoint's bytes have come, or their read failed: DETAIL HOST_ERR. -/
def State.restoreLoaded (s : State) (pkg : Bool) (n : Nat) (data : List Byte) (failed : Bool) : State :=
  match s.fum.restores.find? fun r => decide (r.pkg = pkg) && decide (r.page = n) with
  | none => s
  | some r =>
    if failed then (s.modFum fun f => { f with restores := f.restores.erase r }).complete pkg n stError 6
    else s.restoreGo { r with bytes := data }

/-- STATE_RESTORE. -/
def stateRestoreCmd (c : CmdIn) (s : State) : State :=
  let r : Restore := { pkg := c.pkg, page := c.page.toNat, items := argFld c s 0 0 5, force := bit (argW c s 4) 0, bytes := [] }
  let len := (argW c s 3).toNat
  if len = 0 then s.restoreEnd r r.items 2
  else (s.modFum fun f => { f with restores := f.restores ++ [r] }).cmdXfer c.pkg c.page.toNat false (arg64 c s 1) len []

def execStateRestore (c : CmdIn) (s : State) : Host.Outcome State Fault Refusal :=
  finish (runCmd c 0x58 0x0011 (if bit (argW c s 4) 0 then .rot else .firmware) true (stateRestoreCmd c) s)

/-- A whole digest table has come: the restores that wait for it go on with step 2. -/
def State.restoresGoOn (s : State) (data : List Byte) : State :=
  let table := match Config.mirrorItem 9 data with
    | some (.digests l) => l
    | _ => []
  (s.fum.pulls.filter (·.restore)).foldl (fun s p =>
    let s := s.dropPull p
    match s.fum.restores.find? fun r => decide (r.pkg = p.pkg) && decide (r.page = p.page) with
    | some r => s.restoreRun r (some table)
    | none => s) s

/-- A RETRY or a peer's MIRROR frame (R431 to R433): a request to pull is kept for the next close; else the frame enters the
replica of its sender, and a whole item that was asked for is installed, or lets a restore go on. -/
def mirrorRow (src : BitVec 16) (bytes : List Byte) (s : State) : State :=
  match Config.pullAsked bytes with
  | some items => s.modFum fun f => { f with asks := f.asks ++ [(src, items)] }
  | none => match s.mirrorTake src bytes with
    | (none, s) => s
    | (some (item, data), s) =>
      let s := s.pullTake item data
      if item = 9 then s.restoresGoOn data else s

def execMirror (src : BitVec 16) (bytes : List Byte) (s : State) : Host.Outcome State Fault Refusal :=
  finish (mirrorRow src bytes s)

end Sys2Proof.Machine
end

