-- ==== Sys2Proof/Machine/HostMem.lean ====
section
/-!
DEFINITION. The host memory port's answers and the host register port's acknowledge (R408, R409, R509 to R511).
-/
namespace Sys2Proof.Machine

/-! ### What follows a transfer -/

/-- The transfer of a command has ended: its chapter goes on, where the page still waits for it. -/
def State.cmdLoaded (s : State) (pkg : Bool) (n id : Nat) (x : Xfer) : State :=
  let c := s.cmd pkg n
  if c.busy = false ∨ c.wait ≠ .transfer id then s
  else match fld c.cmd 8 24 with
    | 0x180001 => s.redLoaded pkg n x.data x.failed
    | 0x200001 => s.forestLoaded pkg n x.data x.failed
    | 0x200010 => s.ftabLoaded pkg n x.data x.failed
    | 0x380100 => s.packLoaded x.data x.wr x.failed
    | 0x380101 => s.unpackLoaded x.data x.wr x.failed
    | 0x580001 => s.dumpLoaded pkg n x.failed
    | 0x580010 => s.planLoaded pkg n x.failed
    | 0x580011 => s.restoreLoaded pkg n x.data x.failed
    | 0x580013 => s.planLoaded pkg n x.failed
    | 0x600004 => s.authLoaded pkg n x.data x.failed
    | 0x600013 => s.snuffDumpLoaded pkg n x.failed
    | 0x680001 => s.spdmLoaded pkg n x.data x.wr x.failed
    | 0x680002 => s.fwStaged pkg n x.data x.failed
    | _ => if x.failed then s.complete pkg n stError 0x0C else s.complete pkg n stOk 0

/-- A record that has not come into its ring is counted as its ring counts a drop. -/
def State.ringLost (s : State) (page wptr : Nat) : State :=
  match keyType page with
  | 0x11 => s.modGeyser fun g => { g with overrun := satAdd 24 g.overrun 1, owed := g.owed + 1 }
  | 0x20 => s.bump page 0x84 1
  | 0x28 => s.bump chkPage 0xC4 1
  | 0x40 => s.bump svcPage 0x6C 1
  | 0x60 => s.ringDrop ((wptr - 0x110) / 0x20) 3
  | _ => s

/-- A transfer has ended. -/
def State.xferEnd (s : State) (id : Nat) (x : Xfer) : State :=
  let s : State := { s with pages := { s.pages with xfers := Tab.write noXfer s.pages.xfers id none } }
  match x.owner with
  | .command pkg n => s.cmdLoaded pkg n id x
  | .message => s
  | .ring page wptr => match ringAt page wptr with
    | some r =>
      let d := s.ringDone r id (!x.failed)
      if d.1 then d.2.ringLost page wptr else if keyType page = 0x11 then d.2.gyRoom else d.2
    | none => s

/-! ### Tags -/

def State.hmTag (s : State) (tag : Nat) : Option HmTag := Tab.read noHmTag s.pages.hmTags tag
def State.setHmTag (s : State) (tag : Nat) (t : Option HmTag) : State :=
  { s with pages := { s.pages with hmTags := Tab.write noHmTag s.pages.hmTags tag t } }

/-- The operations of class and opcode that read or write a checkpoint, or stand in its place: STATE_CKPT, STATE_RESTORE,
SINTER_PACK and SINTER_UNPACK (R33, R314). -/
def ckptOps : List Nat := [0x580010, 0x580011, 0x380100, 0x380101]

/-- The priority of a transfer at the host memory port: checkpoint, then Geyser, trace last (R33). -/
def State.xferRank (s : State) (x : Xfer) : Nat :=
  match x.owner with
  | .command pkg n => if ckptOps.contains (fld (s.cmd pkg n).cmd 8 24) then 0 else 2
  | .ring page _ => if keyType page = 0x11 then 1 else if keyType page = 0x60 then 3 else 2
  | .message => 2

/-- Transfers that wait for a tag take one, in the order of R33. -/
def State.hmPump (s : State) : State :=
  let ready := (s.pages.xfers.filter fun e => match e.2 with
    | some x => decide (x.issued < x.len) && decide (x.issued ≤ x.done)
    | none => false).length
  let s := s.bump (pg 0x02) 0x58 (if 2 ≤ ready && s.freeTag.isSome then 1 else 0)
  (List.range 4).foldl (fun s k =>
    ((s.pages.xfers.filter fun e => match e.2 with
      | some x => decide (s.xferRank x = k)
      | none => false).map (·.1)).foldl State.issueXfer s) s

/-- A request has been answered for good: its transfer goes on, or ends. -/
def State.hmDone (s : State) (t : HmTag) (good : Bool) (data : List Byte) : State :=
  match Tab.read noXfer s.pages.xfers t.xfer with
  | none => s
  | some x =>
    let y : Xfer := { x with done := x.done + t.len, data := if x.wr then x.data else x.data ++ padTo t.len data, failed := x.failed || !good }
    if y.failed || decide (y.len ≤ y.done) then s.xferEnd t.xfer y
    else { s with pages := { s.pages with xfers := Tab.write noXfer s.pages.xfers t.xfer (some y) } }

/-- The tag is free again. -/
def State.hmAnswer (s : State) (tag : Nat) (t : HmTag) (good : Bool) (data : List Byte) : State :=
  ((s.setHmTag tag none).hmDone t good data).hmPump

/-- The scope that issued the request has been reset since (R408): expected and received incarnations. -/
def State.staleReply (s : State) (t : HmTag) : Option (BitVec 4 × BitVec 4) :=
  if (s.hdr t.page).incarn ≠ t.incarn then some ((s.hdr t.page).incarn, t.incarn)
  else match t.region with
    | some r => if (s.region r).incarn ≠ t.rIncarn then some ((s.region r).incarn, t.rIncarn) else none
    | none => none

/-- The page an incarnation's loss is reported in. -/
def State.dropReply (s : State) (t : HmTag) (e : BitVec 4 × BitVec 4) : State :=
  ((s.bump bpPage 0x68 1).setErr t.page errStaleReply).logRec (pageNo t.page) (keyInst t.page) 0xFFF2 3 false
    (Config.schema (pageNo t.page) 0xFFF2) [BitVec.ofNat 8 e.1.toNat, BitVec.ofNat 8 e.2.toNat, 0, 0]

/-- Response beats of a request (R510). -/
def hmBeats (t : HmTag) : Nat := if t.wr then 1 else ceilDiv (4 * ceilDiv t.len 4) 32

/-- RETRY: the request is issued again after 1 µs, up to 8 times; then it counts as ERROR (R511). -/
def State.hmRetry (s : State) (tag : Nat) (t : HmTag) : State :=
  if t.retries < 8 then s.setHmTag tag (some { t with retries := t.retries + 1, again := some (s.now + us), data := [], beats := 0 })
  else s.hmAnswer tag t false []

/-- A beat of code OK. -/
def State.hmBeat (s : State) (tag : Nat) (t : HmTag) (last : Bool) (data : List Byte) : State :=
  let y : HmTag := { t with beats := t.beats + 1, data := if t.wr then [] else t.data ++ padTo 32 data }
  if last && decide (y.beats = hmBeats t) then s.hmAnswer tag y true y.data
  else if last || decide (hmBeats t ≤ y.beats) then (s.violate .hostMemory 2 data false).hmAnswer tag y false []
  else s.setHmTag tag (some y)

/-- HOST_MEMORY_RESPONSE (R408, R510, R511, R523). -/
def execHostMemoryResponse (tag : Nat) (code : BitVec 2) (last : Bool) (data : List Byte) (s : State) :
    Host.Outcome State Fault Refusal :=
  finish (if !s.chanOpen (.converter .host 1) then s else match s.hmTag tag with
    | none => s.violate .hostMemory 4 data false
    | some t =>
      if t.dead || t.again.isSome then s.violate .hostMemory 4 data false
      else match s.staleReply t with
        | some e => if last || decide (code ≠ 0) then ((s.setHmTag tag none).dropReply t e).hmPump else s
        | none =>
          if code = 0 then s.hmBeat tag t last data
          else if code = 1 then s.hmRetry tag t
          else if code = 2 then s.hmAnswer tag t false []
          else (s.violate .hostMemory 1 data false).hmAnswer tag t false [])

/-- HOST_MEMORY_RETRY: 1 µs after a RETRY the request is issued again (R511). -/
def execHostMemoryRetry (tag : Nat) (s : State) : Host.Outcome State Fault Refusal :=
  finish (match s.hmTag tag with
    | none => s
    | some t => match t.again with
      | none => s
      | some at' =>
        let s := (s.advanceTo at').setHmTag tag (some { t with again := none })
        let n := 4 * ceilDiv t.len 4
        let d := match Tab.read noXfer s.pages.xfers t.xfer with
          | some x => slice x.data (t.addr - x.addr) t.len
          | none => []
        s.emit (.hostMemory t.addr t.wr n tag (if t.wr then padTo n d else [])))

/-- TRANSACTION_RETIRE: a transaction older than 1 ms ends with ERROR; a host-memory tag is withheld for a further 1 ms
(R409, R511). -/
def execTransactionRetire (tag : Nat) (s : State) : Host.Outcome State Fault Refusal :=
  finish (match s.hmTag tag with
    | none => s
    | some t =>
      if t.dead then s
      else
        let s := s.advanceTo (t.sent + ms)
        ((s.setHmTag tag (some { t with dead := true, again := none })).hmDone t false []).hmPump)

/-- A slow tick: withheld tags return to the pool. -/
def State.hostTick (s : State) : State :=
  ({ s with pages := { s.pages with hmTags := s.pages.hmTags.filter fun e => match e.2 with
      | some t => !(t.dead && decide (t.sent + 2 * ms ≤ s.now))
      | none => false } }).hmPump

/-- HOST_RESPONSE_ACK: the host takes the oldest response (R509). -/
def execHostResponseAck (s : State) : Host.Outcome State Fault Refusal :=
  finish { s with pages := { s.pages with host := { s.pages.host with unacked := s.pages.host.unacked.drop 1, waited := 0 } } }

end Sys2Proof.Machine
end

