-- ==== Sys2Proof/Machine/LinkLate.lean ====
section
/-!
DEFINITION. Links and their partners: received frames in every power state, ports that come up and fail, parents that are
lost, taken over and swapped (R16 to R20, R264, R270, R271, R276, R291 to R294, R297).
-/
namespace Sys2Proof.Machine

/-! ### Received frames -/

/-- C0 and C3 frames for a die hub that is DEAD and not CONTESTED are discarded (R339). -/
def State.deadFor (s : State) (n : BitVec 16) (cls : Nat) : Bool :=
  (decide (cls = 0) || decide (cls = 3)) && decide (s.dieLevel n = .dead) && !s.contestedAny n

/-- Frames that the timekeeper and the link layer take in DOZE; any other is a wake source (R395). -/
def dozeTypes : List Byte := [0x00, 0x01, 0x10]

/-- TYPE of the oldest received frame of a port. -/
def State.rxTyp (s : State) (p : Nat) : Option Byte := (s.port p).rx.head?.map fun e => (rxHeader e.2).typ

/-- TYPEs sent to the primary parent alone: PARTIAL and VERDICT. -/
def upTypes : List Byte := [0x20, 0x41, 0x30]

/-- The items of the mirror that continue the merges of a lost twin, with its trackers, or of a lost head, whose own die's
slots are not the new head's. -/
def State.takeoverItems (s : State) : List Nat := if s.isSystem then [0x02, 0x05, 0x06] else [0x05, 0x06]

/-- What a takeover installs of an item: the replica's open windows and trackers beside those of this node (R146). -/
def State.takeItem (s : State) : MirrorItem → State
  | .slots l => l.foldl State.installSlot s
  | x => (s.install x).2

/-- The waits of windows that wait for children begin again (R146). -/
def State.waitsAgain (s : State) : State :=
  { s with reds := { s.reds with nodes := Tab.mapTab Red.reset (fun _ n => { n with
      wins := n.wins.map fun w => if w.expected.isSome then { w with since := s.now } else w }) s.reds.nodes } }

/-- The replica of a node's merges becomes this node's own state (R19, R146). -/
def State.takeReplica (s : State) (src : BitVec 16) : State :=
  (s.takeoverItems.foldl (fun s i =>
    match Config.mirrorItem i (Tab.read noBytes s.fum.replica (replicaKey src i)) with
    | some x => s.takeItem x
    | none => s) s).waitsAgain

/-- The node's outputs are held at their last values, or go on (R19). -/
def State.holdOutputs (s : State) (v : Bool) : State :=
  ((s.modLinks fun l => { l with holding := v }).setStat (redPage 0) statStale v).setStat (redPage 1) statStale v

/-- This KXA-32 becomes primary parent of a downlink (R19): it says so, and repairs broadcasts (R292, R326). -/
def State.takeDownlink (s : State) (d : Nat) : State :=
  if bit s.links.downPrimary d then s
  else
    let s := s.modLinks fun l => { l with downPrimary := setBit l.downPrimary d true }
    if s.linkUp d then (s.pushCtl d { s.linkCtrl0 d with takeover := true }).bcastRepair d else s

/-- FRAME_RECEIVE (R264, R339, R395). A secondary parent that gets its child's upward traffic has become the primary. -/
def State.frameIn (s : State) (p : Nat) : State :=
  match s.rxTyp p with
  | none => s
  | some t =>
    if s.dark then s
    else if !s.awake && !dozeTypes.contains t then
      if bit (s.reg bpPage 0x4C) 30 then s.wakeSrc 6 else s
    else
      let s := if t = 0 then s else s.busyNow
      let s := (s.frameReceive p s.deadFor).mirrorAcked
      if s.isSystem && decide (p < 32) && upTypes.contains t && !s.straps.cascade then s.takeDownlink p else s

/-- FRAME_RECEIVE. -/
def execFrameReceive (port : Nat) (s : State) : Host.Outcome State Fault Refusal := finish (s.frameIn port)

/-! ### Parents (R16, R19, R20, R292, R293) -/

/-- The ports that can lead to a parent: a head's K-links, a tray aggregator's U0, U1 and U3, or a member's package links. -/
def State.parentPorts (s : State) : List Nat :=
  if s.isSystem then (if s.straps.cascade then [] else [32, 33, 35])
  else if s.isHead then [7, 8]
  else List.range 7

/-- Another parent's port that can carry traffic: U3 first (R20, R292). -/
def State.otherParent (s : State) (p : Nat) : Option Nat :=
  (s.parentPorts.reverse.find? fun q => decide (q ≠ p) && s.linkUp q)

/-- Messages not yet framed move with the queues (R292), and those in the compressor go to the new port (R315). -/
def State.moveMbox (s : State) (p q : Nat) : State :=
  let keep (e : Nat × Msg) : Bool := decide (e.1 ≠ p) || (decide (1 ≤ typeClass e.2.typ) && decide (typeClass e.2.typ ≤ 3))
  { s with
    mbox := (s.mbox.filter keep).map fun e => if e.1 = p then (q, e.2) else e
    sinter := { s.sinter with enc := s.sinter.enc.map fun w => if w.port = p then { w with port := q } else w } }

/-- Retained partials go to the new parent again, in order (R146). -/
def State.resendPartials (s : State) : State :=
  let again (n : Red) : Red := { n with retained := n.retained.map fun x => { x with sent := false } }
  ((s.modRed 0 again).modRed 1 again).redFlush

/-- The port leads to the primary parent: PRIMARY of PLINK, or the KXA-32's uplink. -/
def State.setParent (s : State) (q : Nat) : State :=
  if s.isSystem then s.modLinks fun l => { l with upPort := q }
  else if s.isHead then s.setRegFld (pg 0x38) 0x44 0 1 (q - 7)
  else { s with pkg := { s.pkg with head := some (BitVec.ofNat 3 (s.portDie q)), missed := 0, heard := true } }

/-- The port `q` to the other parent becomes primary (R292): the old port's frames move or are discarded, partials are sent
again, and the servo follows (R242). Outputs that are held stay so until the new parent announces TAKEOVER. -/
def State.parentChange (s : State) (q : Nat) : State :=
  match s.parentPort with
  | none => s
  | some p =>
    if p = q then s
    else
      let s := (s.moveFrames p q).moveMbox p q
      let s := s.setParent q
      let s := s.modLinks fun l => { l with changes := satAdd 4 l.changes 1 }
      let s := s.portErr q errParentChg
      let s := s.modPort q fun x => { x with state := if x.state = .standby then .up else x.state }
      let s := s.modPort p fun x => { x with state := if x.state = .up && !s.isDie then .standby else if x.state = .up && s.isHead then .standby else x.state }
      (s.timeLinks.resendPartials.stepRetry).peerCheck

/-- PARENT_CHANGE (R292): the child has taken its parent as lost, and the port to the other one becomes primary. -/
def execParentChange (port : Nat) (s : State) : Host.Outcome State Fault Refusal :=
  finish (
    let lost := match s.parentPort with
      | some p => !s.linkUp p
      | none => false
    if port ∈ s.parentPorts ∧ s.linkUp port = true ∧ (s.links.holding || lost) = true then s.parentChange port else s)

/-! ### A partner is lost (R270) -/

/-- A message in a link record or a loss: the downlink's package is this tray aggregator's child no more. -/
def State.dropDownlink (s : State) (d : Nat) : State :=
  s.modLinks fun l => { l with downPrimary := setBit l.downPrimary d false }

/-- The twin is lost (R19): this KXA-32 becomes primary for every downlink that it is not primary for, its replica of the
twin's merges goes on, and REPLACE_TRAY names the twin. -/
def State.twinLost (s : State) : State :=
  let peer := nodeOf (if s.straps.cascade then 3 else 2) s.links.tray 0 (if s.straps.twinSel then 0 else 1)
  let s := s.modLinks fun l => { l with twin := if l.downPrimary = BitVec.allOnes 32 then .alone else .lost }
  let s := s.replaceTray 0x38 34 peer.toNat 5
  if s.links.downPrimary = BitVec.allOnes 32 then s
  else
    let s := (s.takeReplica peer).modLinks fun l => { l with takeovers := satAdd 8 l.takeovers 1 }
    (List.range 32).foldl State.takeDownlink s

/-- U3 takes the traffic of a failed U0 or U1 (R20): the port's peers are reached over it. -/
def State.u3Takes (s : State) (p : Nat) : State :=
  if (p = 32 ∨ p = 33) ∧ s.linkUp 35 = true ∧ s.links.spareFor = none then
    let keep := s.holdsOf p 1 ++ s.holdsOf p 2 ++ s.holdsOf p 3
    let lost := (s.holdsOf p 4).length + (s.holdsOf p 5).length + (s.holdsOf p 6).length + (s.holdsOf p 7).length
    let s := (s.retryProxies p).bumpPort p 0x48 lost
    let s := (s.portChans p).foldl State.resetChan s
    let s := s.modPort p fun x => { x with queues := [], vtime := 0, finish := [] }
    let u : BitVec 2 := BitVec.ofNat 2 (p - 32)
    let s := s.modLinks fun l => { l with
      spareFor := some p
      peers := l.peers.map fun e => (e.1, if e.2.port = u then { e.2 with port := 3 } else e.2) }
    let s := (keep.foldl (fun s f => s.enqueue 35 { f with ftag := 0 }) s).moveMbox p 35
    let s := if s.links.upPort = p then s.modLinks fun l => { l with upPort := 35, changes := satAdd 4 l.changes 1 } else s
    (s.portErr 35 errParentChg).timeLinks
  else s

/-- The port's link is gone: its frames end under R292, its channels and its training start afresh, and what hangs on the
link follows. `lost`: the partner is taken as lost (R270); a link reset only restarts the link (R265). -/
def State.portGone (s : State) (p : Nat) (lost : Bool) : State :=
  let parent := decide (s.parentPort = some p)
  let s := s.linkReset p p
  let s := if s.isSystem ∧ p ≠ 34 ∧ 32 ≤ p then s.u3Takes p else s
  let s := (s.timePortLost p).snuffPortLost p
  let s := if s.linkKind p = 0 ∧ (s.port p).active = false ∧ (s.port p).state ≠ .quarantined then s.modPort p fun x => { x with state := .down, phase := .idle } else s
  let s := if parent then s.holdOutputs true else s
  let s := match s.fum.peer with
    | some n => if s.peerPort n = p then s.mirrorLost else s
    | none => s
  if s.isSystem then
    if p = 34 then (if lost then s.twinLost else s)
    else if p < 32 then s.dropDownlink p
    else s
  else if lost = true ∧ p < 7 ∧ s.isHead = true ∧ (Tab.read Member.none s.pkg.members (s.portDie p)).present = true ∧
      (s.watch (s.portDie p)).parked = false then
    s.replaceTray 0x38 p (nodeOf 0 s.links.tray s.links.down (s.portDie p)).toNat 4
  else s

/-- A silent peer of an Ethernet port: its channel starts afresh, its C1, C2 and C3 frames stay for it, and the rest is
discarded and counted (R292). -/
def State.peerGone (s : State) (c : Nat) : State :=
  let p := s.chanPort c
  let mine := (s.chan c).replay.map (·.frame)
  let waits (k : Nat) : List QFrame := (s.queue p k).filter fun f => decide (f.chan = c)
  let keep := [1, 2, 3].flatMap fun k => (mine.filter fun f => decide (typeClass f.typ = k)) ++ waits k
  let lost := (mine.filter fun f => decide (4 ≤ typeClass f.typ)).length +
    ([4, 5, 6, 7].map fun k => (waits k).length).sum
  let s := (List.range 8).foldl (fun s k => s.setQueue p k ((s.queue p k).filter fun f => decide (f.chan ≠ c))) s
  let s := ((s.resetChan c).bumpPort p 0x48 lost).retryWhere fun t => decide (t.chan = c)
  let s := keep.foldl (fun s f => s.enqueue p { f with ftag := 0 }) s
  if s.parentPort = some p ∧ (s.peerOf c).node.toNat / 2 ^ 14 = 3 then s.holdOutputs true else s

/-- The loss limit: 8 periods of 1 µs, or 4 of 2 µs (R270). -/
def lossLimit : FT := 8 * us

/-- PARTNER_LOST (R270): a partner silent for the loss limit, or reported down by its PHY or adapter. -/
def execPartnerLost (chan : Nat) (phy : Bool) (s : State) : Host.Outcome State Fault Refusal :=
  finish (
    let p := s.chanPort chan
    if s.linkUp p || decide ((s.port p).state = .quarantined) then
      let s := if phy then s else s.advanceTo ((s.chan chan).heardAt + lossLimit)
      if phy || !s.isEth p || decide (p = 34) then s.portGone p true else s.peerGone chan
    else s)

/-! ### Ports that come up, and training that does not end (R271, R276) -/

/-- Lanes trained, of a K-link. -/
def lanesTrained (x : LinkPort) : Nat := ((List.range 5).filter fun l => bit x.trained l).length

/-- The port's training has come to its end (R272, R276); an Ethernet port comes up with its PHY. -/
def State.trainedUp (s : State) (p : Nat) : Bool :=
  let x := s.port p
  bit (s.portReg p 0) 31 && !s.unusedDownlink p &&
  (match s.linkKind p with
   | 0 => decide (x.state = .training) && x.active && decide (x.phase = .stream)
   | 1 => decide (x.state = .training) && decide (x.phase = .stream) && decide (4 ≤ lanesTrained x)
   | _ => decide (x.state = .down) || decide (x.state = .training))

/-- UP, or STANDBY on a port toward the other parent. -/
def State.upState (s : State) (p : Nat) : PortState :=
  if s.isHead then (if p = 7 ∨ p = 8 then (if p = s.primaryKlink then .up else .standby) else .up)
  else if s.isSystem && !s.straps.cascade && (decide (p = 32) || decide (p = 33) || decide (p = 35)) then
    (if p = s.links.upPort then .up else .standby)
  else .up

/-- Commands that wait for a port to train (LINK_RESET). -/
def State.resetWaiters (s : State) (p : Nat) : List (Bool × Nat) := s.waiters fun w => decide (w = .event 27 p)

/-- A port reaches UP (R276): it sends its credits, and everything that hangs on a link follows. -/
def State.linkGoesUp (s : State) (p : Nat) : State :=
  let s := s.modPort p fun x => { x with
    trains := satAdd 8 x.trains 1, attempts := 0, badRun := 0
    rxMap := if s.linkKind p = 1 then trainedMap x.trained else x.rxMap
    txMap := if s.linkKind p = 1 then trainedMap (~~~ x.txMap.failed) else x.txMap }
  let s := if p = 7 ∨ p = 8 then
      if s.isDie ∧ (s.port p).primary = true ∧ s.links.changes = 0 ∧ !(decide (p = 8) && s.linkUp 7 && (s.port 7).primary) then s.setRegFld (pg 0x38) 0x44 0 1 (p - 7) else s
    else s
  let s := s.modPort p fun x => { x with state := s.upState p }
  let s := (s.portChans p).foldl (fun s c => (s.modChan c fun x => { x with heardAt := s.now, sentAt := s.now }).pushCtl c
    { s.linkCtrl0 p with takeover := s.isHead && s.pkg.tookHead && decide (p < 7) }) s
  let s := if s.isDie ∧ p < 7 then
      let d := s.portDie p
      { s with pkg := { s.pkg with members := Tab.modify Member.none s.pkg.members d fun m => { m with present := true, trained := true } } }
    else s
  let s := if s.isSystem ∧ p = 34 then s.modLinks fun l => { l with twin := .paired } else s
  let s := (((s.timeLinks.bcastRepair p).snuffLinkUp p).peerCheck).redFlush
  (s.resetWaiters p).foldl (fun s x => s.complete x.1 x.2 stOk 0) s

/-- LINK_UP. -/
def execLinkUp (port : Nat) (s : State) : Host.Outcome State Fault Refusal :=
  finish (if s.trainedUp port then s.linkGoesUp port else s)

/-- TRAIN_TIMEOUT (R276): an attempt that has not reached UP within 1 ms starts again; after 8 the port is FAILED. -/
def execTrainTimeout (port : Nat) (s : State) : Host.Outcome State Fault Refusal :=
  finish (
    let x := s.port port
    if x.state = .training then
      if 8 ≤ x.attempts then
        let s := (s.modPort port fun x => { x with state := .failed, phase := .idle }).linkLog port 0x0002 6 x.attempts x.trained.toNat
        (s.resetWaiters port).foldl (fun s w => s.complete w.1 w.2 stTimeout 0) s
      else (s.modPort port fun x => { x with attempts := x.attempts + 1 }).startTraining port
    else s)

/-- UCIE_ACTIVE_CHANGE (R271): the adapter reports the link active, or not. -/
def execUcieActiveChange (port : Nat) (active : Bool) (s : State) : Host.Outcome State Fault Refusal :=
  finish (
    if s.linkKind port = 0 ∧ s.isDie = true ∧ port < 7 then
      let was := s.linkUp port
      let s := s.modPort port fun x => { x with active }
      if active then (if was then s else (s.modPort port fun x => { x with attempts := 1 }).startTraining port)
      else if was then s.portGone port true
      else if (s.port port).state = .quarantined then s
      else s.modPort port fun x => { x with state := .down, phase := .idle }
    else s)

/-- A link reset (R265): a parent's port hands its traffic to the other parent first (R292). -/
def State.resetPort (s : State) (p : Nat) : State :=
  let up := s.linkUp p
  let s := if s.parentPort = some p then
      match s.otherParent p with
      | some q => s.parentChange q
      | none => s
    else s
  if up then s.portGone p false else s.linkReset p p

/-- The link reset that REPLAY_MAX NAKs for one LSEQ cause (R265). -/
def State.nakReset (s : State) (c : Nat) (m : LinkCtrl) : State :=
  if m.nak ∧ (s.chan c).nakSeq = m.nakSeq ∧ max 1 (fld (s.portReg (s.chanPort c) 0) 8 8) ≤ (s.chan c).naks then
    s.resetPort (s.chanPort c)
  else s

/-- LINK_RESET_EVENT (R265, R272, R277, R278, R523): the port's own logic resets its link. -/
def execLinkResetEvent (port : Nat) (s : State) : Host.Outcome State Fault Refusal :=
  finish (if port < s.portCount ∧ s.dark = false then s.resetPort port else s)

/-- LINK_RESET (R265, R294, R297): it stays BUSY until the port has trained or has failed; a port that is not enabled
stays DOWN. -/
def execLinkReset (c : CmdIn) (s : State) : Host.Outcome State Fault Refusal :=
  finish (runCmd c 0x38 0x0001 .firmware true
    (fun s =>
      let p := argFld c s 0 0 8
      if s.portCount ≤ p then s.failCmd c 1
      else
        let s := s.resetPort p
        let s := if (s.port p).state = .quarantined then (s.modPort p fun x => { x with state := .down }).startTraining p else s
        if (s.port p).state = .training then s.waitFor c (.event 27 p) else s.ok c) s)

/-! ### LINK_CTRL and the parent swap (R269, R292, R293) -/

/-- The downlinks that a PARENT_SWAP of a KXA-32 hands to the twin: it stops being their primary parent, and says so. -/
def State.swapDownlinks (s : State) (down : Nat) : State :=
  (List.range 32).foldl (fun s d =>
    if (down = 0xFF ∨ down = d) ∧ bit s.links.downPrimary d = true then
      let s := s.dropDownlink d
      if s.linkUp d then s.pushCtl d (s.linkCtrl0 d) else s
    else s) s

/-- A parent swap that waits: at a KXA-32, its mirror has become current; the traffic moves. -/
def State.swapCheck (s : State) : State :=
  match s.links.swapWait with
  | some w =>
    if s.isSystem && s.mirrorCurrent then
      ((s.swapDownlinks w.down).modLinks fun l => { l with swapWait := none }).complete w.pkg w.page stOk 0
    else s
  | none => s

/-- This die hub is no longer head: what its K-links held goes to the new head over `p` (R17, R292). -/
def State.deposed (s : State) (p : Nat) : State :=
  let k := s.primaryKlink
  ((((s.moveFrames k p).moveMbox k p).timeLinks.resendPartials).stepRetry).peerCheck

/-- The parent on port `p` announces TAKEOVER (R292, R293): the traffic moves to it, held outputs go on, and a die hub's
PARENT_SWAP that waits for the move completes. -/
def State.takenOver (s : State) (p : Nat) : State :=
  let moved := decide (s.parentPort ≠ some p)
  let s := (s.parentChange p).holdOutputs false
  match s.links.swapWait with
  | some w =>
    if moved && s.isDie then (s.modLinks fun l => { l with swapWait := none }).complete w.pkg w.page stOk 0 else s
  | none => s

/-- A parent announces TAKEOVER, or is no longer the primary: the traffic of a child moves (R292, R293). A head that hears
another die hub's takeover gives way (R17). -/
def State.parentSays (s : State) (p : Nat) (m : LinkCtrl) : State :=
  if s.isHead ∧ p < 7 then
    if m.takeover ∧ m.head = true then
      ({ s with pkg := { s.pkg with tookHead := false, head := some (BitVec.ofNat 3 (s.portDie p)), missed := 0, heard := true } }).deposed p
    else s
  else if !(p ∈ s.parentPorts) then s
  else if s.isDie && !s.isHead then
    if m.takeover ∧ m.head = true then s.takenOver p else s
  else if m.takeover then s.takenOver p
  else if s.isHead ∧ s.parentPort = some p ∧ m.primary = false then
    match s.otherParent p with
    | some q => s.parentChange q
    | none => s
  else s

/-- LINK_CTRL (R269). -/
def execLinkCtrl (chan : Nat) (dst ack : BitVec 16) (m : LinkCtrl) (s : State) : Host.Outcome State Fault Refusal :=
  finish (
    if s.dark then s
    else ((((s.linkCtrl chan dst ack m).nakReset chan m).mirrorAcked).parentSays (s.chanPort chan) m).swapCheck)

/-- PARENT_SWAP (R293, R297). At a KXA-32 the traffic of the downlinks moves to the twin once the mirror is current; at a
package head it moves once the other parent has announced itself. -/
def parentSwap (c : CmdIn) (s : State) : State :=
  let down := argFld c s 0 0 8
  let wait := { pkg := c.pkg, page := c.page.toNat, down, start := s.now : SwapWait }
  if s.isSystem then
    if s.straps.cascade ∧ down = 0xFF then s.ok c
    else if s.straps.cascade ∨ (down ≠ 0xFF ∧ 32 ≤ down) then s.failCmd c 1
    else if s.resourceTaken c 2 s.links.swapWait.isSome then s.waitFor c (.event 39 2)
    else ((s.modLinks fun l => { l with swapWait := some wait }).waitFor c (.event 8 0)).swapCheck
  else if s.resourceTaken c 2 s.links.swapWait.isSome then s.waitFor c (.event 39 2)
  else (s.modLinks fun l => { l with swapWait := some wait }).waitFor c (.event 8 0)

def execParentSwap (c : CmdIn) (s : State) : Host.Outcome State Fault Refusal :=
  finish (runCmd c 0x38 0x0003 .firmware true (parentSwap c) s)

/-! ### Quarantine and the parent (R294) -/

/-- A parent port in state QUARANTINED counts as lost. -/
def State.quarantineLost (s : State) : State :=
  match s.parentPort with
  | some p => if (s.port p).state = .quarantined ∧ s.links.holding = false then s.holdOutputs true else s
  | none => s

/-! ### What a fault on a link brings (R263, R265, R278, R279) -/

/-- The end or the reset of a link that a fault has asked for, and the end of a link whose port is no longer enabled (R295). -/
def State.settleLink (s : State) (p : Nat) : State :=
  let down (s : State) : State := (s.portGone p true).modPort p fun x => { x with state := .down, phase := .idle }
  match (s.port p).due with
  | some lost =>
    let s := s.modPort p fun x => { x with due := none }
    if lost then down s else s.resetPort p
  | none => if s.linkUp p && !bit (s.portReg p 0) 31 then down s else s

/-- LANE_FAIL: the PHY reports loss of signal or lock, or two markers of the lane are missing (R277). -/
def execLaneFail (port lane : Nat) (s : State) : Host.Outcome State Fault Refusal :=
  finish (if s.linkKind port = 1 ∧ s.linkUp port = true then (s.laneFail port lane 6).settleLink port else s)

/-- SWAP_REPEAT: every 300 ns until the answer; after 4 repeats the link is reset (R278). -/
def execSwapRepeat (port : Nat) (s : State) : Host.Outcome State Fault Refusal :=
  finish (match (s.port port).swap with
    | some w =>
      if w.answered then s
      else if 4 ≤ w.repeats then (s.modPort port fun x => { x with due := some false }).settleLink port
      else
        let w := { w with repeats := w.repeats + 1 }
        (s.modPort port fun x => { x with swap := some w }).sendSwap port w
    | none => s)

def execCodewordReceive (port : Nat) (lanes : List (List Byte)) (s : State) : Host.Outcome State Fault Refusal :=
  finish (if s.chanOpen (s.linkConv port) then (s.codeword port lanes).settleLink port else s)

/-- ALIGNMENT_MARKER: each lane's 16-byte marker, or an empty list for a lane that shows none. The descrambler is
seeded and the pairs are numbered from it; two consecutive missing markers fail the lane (R275, R277). -/
def execAlignmentMarker (port : Nat) (lanes : List (List Byte)) (s : State) : Host.Outcome State Fault Refusal :=
  finish (
    let good (l : Nat) : Option (List Byte) :=
      match lanes[l]? with
      | some b =>
        let b := if bit (s.port port).invert l then b.map (~~~ ·) else b
        if b.length = 16 ∧ leAt b 0 1 = 0xA7 ∧ leAt b 1 1 = l then some b else none
      | none => none
    if s.linkKind port = 1 ∧ (s.port port).phase = .stream then
      let s := match (List.range 5).findSome? good with
        | some b => s.modPort port fun x => { x with
            rxPair := leAt b 2 4, rxScr := BitVec.ofNat 58 (leAt b 6 8),
            laneSlot := leAt b 2 4 * 17 / 250, laneErr := if x.rxPair = leAt b 2 4 then x.laneErr else [] }
        | none => s
      ((List.range 5).foldl (fun s l =>
        if (good l).isSome then s.modPort port fun x => { x with missing := Tab.write natZero x.missing l 0 }
        else
          let s := s.modPort port fun x => { x with missing := Tab.modify natZero x.missing l (· + 1) }
          if 2 ≤ Tab.read natZero (s.port port).missing l ∧ bit (s.port port).trained l = true then s.laneFail port l 6
          else s) s).settleLink port
    else s)

/-- LANE_RETIRE: failover of a lane for test (R297). -/
def execLaneRetire (c : CmdIn) (s : State) : Host.Outcome State Fault Refusal :=
  finish (runCmd c 0x38 0x0004 .firmware true
    (fun s =>
      let p := argFld c s 0 0 8
      let l := argFld c s 1 0 3
      if s.portCount ≤ p ∨ s.linkKind p ≠ 1 ∨ 5 ≤ l then s.failCmd c 1
      else if (s.port p).rxMap.spare = 7 ∨ bit (s.portReg p 0) 4 = false ∨ s.linkUp p = false ∨ (s.port p).swap.isSome = true then
        s.failCmd c 6
      else ((s.laneFail p l 5).settleLink p).ok c) s)

/-- NOT_SYNCED: the new parent's mirror is not current within 20 µs of the command (R293). -/
def execNotSynced (s : State) : Host.Outcome State Fault Refusal :=
  finish (match s.links.swapWait with
    | some w =>
      if s.isSystem && s.mirrorCurrent then s.swapCheck else
      ((s.advanceTo (w.start + 20 * us)).modLinks fun l => { l with swapWait := none }).complete w.pkg w.page stError 5
    | none => s)

end Sys2Proof.Machine
end

