-- ==== Sys2Proof/Machine/Levels.lean ====
section
/-!
DEFINITION. The package head and the boundary handshakes: the election, keepalives and the loss of the head (R14 to R17),
and what a stuck or illegal handshake leads to (R42, R47, R523).
-/
namespace Sys2Proof.Machine

/-! ### The election (R14, R15, R63) -/

/-- The members table from the reports: an index reported twice, or that of this die hub, is a conflict. -/
def memberTable (own : Nat) (me : Bool → Member) (rs : List DieReport) : Tab Member :=
  let count (d : Nat) : Nat := (rs.filter fun r => decide (r.index.toNat = d)).length + if d = own then 1 else 0
  (List.range 8).foldl (fun t d =>
    let m : Member := if d = own then me (decide (1 < count d)) else
      match rs.find? fun r => decide (r.index.toNat = d) with
      | some r => { present := true, bistOk := r.bistOk, headEn := r.headEn, trained := r.trained,
                    conflict := decide (1 < count d), incarn := r.incarn }
      | none => Member.none d
    Tab.write Member.none t d m) []

/-- Eligible: HEAD_EN high, BIST passed, a link trained or alone in its package, and no conflict. -/
def eligibleDie (alone : Bool) (m : Member) : Bool :=
  m.present && m.headEn && m.bistOk && (m.trained || alone) && !m.conflict

/-- The lowest eligible die index that `p` admits. -/
def lowestDie (t : Tab Member) (alone : Bool) (p : Nat → Bool) : Option (BitVec 3) :=
  ((List.range 8).find? fun d => p d && eligibleDie alone (Tab.read Member.none t d)).map fun d => BitVec.ofNat 3 d

/-- Commands that wait for the package's election (R405). -/
def State.electionWaiters (s : State) : List (Bool × Nat) := s.waiters fun w => decide (w = .event 25 0)

/-- The election ends: the lowest eligible die index is head, unless the package has one (R17). A package of one has every
package-link adapter inactive. -/
def State.elect (s : State) (rs : List DieReport) : State :=
  let own := s.straps.dieIdx.toNat
  let alone := decide (rs = []) && (List.range 7).all fun p => !(s.port p).active && !s.linkUp p
  let t := memberTable own s.ownMember rs
  let head := match s.pkg.head with
    | some h => some h
    | none => lowestDie t alone fun _ => true
  let s : State := { s with pkg := { s.pkg with members := t, head, missed := 0, heard := true, elected := true } }
  let s := if (Tab.read Member.none t own).conflict then s.log 0x00 0 0x0001 7 own 0 [] else s
  let s := (s.timeLinks.peerCheck).redFlush
  s.electionWaiters.foldl (fun s x => s.complete x.1 x.2 stOk 0) s

/-- HEAD_ELECTION (R14, R15): the reports of the other die hubs on the package links. A head changes only on package reset
or loss. -/
def execHeadElection (reports : List DieReport) (s : State) : Host.Outcome State Fault Refusal :=
  finish (if s.isDie = true ∧ s.pkg.elected = false ∧ s.awake = true then s.elect reports else s)

/-! ### Keepalives and the loss of the head (R16, R17) -/

/-- HEAD_KEEPALIVE_SEND (R16). -/
def execHeadKeepaliveSend (s : State) : Host.Outcome State Fault Refusal :=
  finish (if s.isHead then
      ((List.range 7).filter s.linkUp).foldl (fun s p => s.pushCtl p { s.linkCtrl0 p with ka := true }) s
    else s)

/-- At a slow tick: a period in which nothing of the head was heard counts (R16). -/
def State.headTick (s : State) : State :=
  match s.pkg.head with
  | some h =>
    if s.isDie = true ∧ h ≠ s.straps.dieIdx then
      { s with pkg := { s.pkg with missed := if s.pkg.heard then 0 else s.pkg.missed + 1, heard := false } }
    else s
  | none => s

/-- This die hub becomes head in the old one's place: its K-links take over, with the merges mirrored here. -/
def State.becomeHead (s : State) (old : BitVec 3) : State :=
  let p := s.diePort old.toNat
  let peer := nodeOf 0 s.links.tray s.links.down old.toNat
  let k := s.primaryKlink
  let s := (s.moveFrames p k).moveMbox p k
  let s : State := { s with pkg := { s.pkg with head := some s.straps.dieIdx, missed := 0, heard := true, tookHead := true } }
  let s := (s.takeReplica peer).portErr k errParentChg
  let s := ((List.range 7).filter s.linkUp).foldl (fun s q => s.pushCtl q { s.linkCtrl0 q with takeover := true, head := true }) s
  ((List.range 7).filter s.linkUp).foldl State.bcastRepair ((s.timeLinks.resendPartials.stepRetry).peerCheck)

/-- The head is lost: the eligible die hub with the next lowest index takes its place (R16). Forwarded requests that were in
flight are answered RETRY (R17). -/
def State.headLost (s : State) (h : BitVec 3) : State :=
  let p := s.diePort h.toNat
  let next := lowestDie s.pkg.members false fun d => decide (d ≠ h.toNat) &&
    (decide (d = s.straps.dieIdx.toNat) || s.linkUp (s.diePort d))
  let s := s.retryProxies p
  let s : State := { s with pkg := { s.pkg with
    stale := true
    gap := some (s.samp.grid.epochNo + 1)
    members := Tab.modify Member.none s.pkg.members h.toNat fun m => { m with trained := false } } }
  match next with
  | some d =>
    if d = s.straps.dieIdx then (s.becomeHead h).replaceTray 0x38 p (nodeOf 0 s.links.tray s.links.down h.toNat).toNat 4
    else if s.linkUp (s.diePort d.toNat) then s.parentChange (s.diePort d.toNat)
    else { s with pkg := { s.pkg with head := some d, missed := 0 } }
  | none => { s with pkg := { s.pkg with head := none, missed := 0 } }

/-- HEAD_LOST (R16). -/
def execHeadLost (s : State) : Host.Outcome State Fault Refusal :=
  finish (match s.pkg.head with
    | some h =>
      if s.isDie = true ∧ h ≠ s.straps.dieIdx ∧ (8 ≤ s.pkg.missed ∨ s.linkUp (s.diePort h.toNat) = false) then s.headLost h else s
    | none => s)

/-! ### Boundary handshakes (R42, R47, R48) -/

def pacePage : Nat := pg 0x02

/-- Set a bit of KX_PACE_FAULT. -/
def State.paceFault (s : State) (b : Nat) : State := s.setReg pacePage 0x5C (s.reg pacePage 0x5C ||| bw b)

/-- CODE_ERR (R42): the acknowledge is withheld, so the channel comes under its watchdog. -/
def execCodeErr (ch : Channel) (s : State) : Host.Outcome State Fault Refusal :=
  finish (if s.dark then s else ((s.paceFault 4).log 0x01 0 0x0001 6 ch.code 0 []).watchChannel ch)

/-- KX_PACE_HSTO.TIMEOUT. -/
def State.hsTimeoutTicks (s : State) : Nat := s.regFld pacePage 0x44 0 4

/-- A gate of a probe whose acknowledge has not followed it in time. -/
def State.gateStuck (s : State) (g : Gate) : Bool := decide (g.raised ≠ g.ack) && decide (s.hsTimeoutTicks ≤ g.ticks)

/-- The probe port's gates after a time-out: a test fails, a fence stands, a STOP reads NO_ACK (R214, R217, R461). -/
def State.gatesStuck (s : State) (p : Nat) : State :=
  let x := s.probe p
  let s := if s.gateStuck x.stop && x.stop.raised then s.stopNoAck p else s
  let s := match s.check.kat with
    | some k =>
      if s.gateStuck x.test && x.test.raised && decide (k.unit = p) then
        if k.abandoned then (s.lowerGate p .test).modCheck fun c => { c with kat := none } else s.katFail p 4 (zeros 20)
      else s
    | none => s
  [GateKind.test, .fence, .stop].foldl (fun s k => if s.gateStuck (gateOf x k) then s.ackFalls p k else s) s

/-- Every outstanding host-memory request completes ERROR (R523). -/
def State.hmFailAll (s : State) : State :=
  let live := s.pages.hmTags.filter fun e => match e.2 with
    | some t => !t.dead
    | none => false
  live.foldl (fun s e => match s.hmTag e.1 with
    | some t => if t.dead then s else s.hmAnswer e.1 t false []
    | none => s) s

/-- A stuck side-channel phase: the report its probe holds is discarded and counted as unchecked for its kernel (R205). -/
def State.sideDrop (s : State) (u : Nat) : State :=
  match Tab.read noReport s.check.held u with
  | some r =>
    if r.1 = [] then s.modCheck fun c => { c with held := Tab.write noReport c.held u none }
    else (s.modCheck fun c => { c with held := Tab.write noReport c.held u none }).countUnchecked (fld (r.1.getD 0 0) 24 8)
  | none => s

/-- What the owner of a pace converter does (R523, class 5). The host converters are 0 the register port and 1 the memory
port. -/
def State.converterStuck (s : State) (cls : ConvClass) (i : Nat) : State :=
  match cls with
  | .probe => if s.present i then (((s.sideDrop i).violate (.probe i) 5 [] true).gatesStuck i).markSuspect i else s
  | .host =>
    if i = 0 then { s.violate .hostRegister 5 [] false with pages := { (s.violate .hostRegister 5 [] false).pages with
        host := { (s.violate .hostRegister 5 [] false).pages.host with unacked := s.pages.host.unacked.drop 1, waited := 0 } } }
    else (s.violate .hostMemory 5 [] false).hmFailAll
  | .ucie => if i < 7 ∧ s.isDie = true then (s.violate (.link i) 5 [] true).resetPort i else s
  | .klink => if i < s.portCount then (s.violate (.link i) 5 [] true).resetPort i else s
  | .eth => if i < s.portCount then (s.violate (.link i) 5 [] true).resetPort i else s
  | .pwr => s.interlock
  | .tap => s
  | .timekeeper => s

/-- The owner of a channel acts (R11, R13, R47). -/
def State.channelStuck (s : State) : Channel → State
  | .probeConc p => if s.isDie then s.concFail (clusterOf p) 7 2 else s
  | .concRegion c => if s.isDie then s.concFail c 7 2 else s
  | .regionHub r => if s.isDie then s.regionFail r else s
  | .subsystem _ => s
  | .converter cls i => s.converterStuck cls i

/-- The fault that an armed injection made carries its flag into this record (R68). -/
def State.paceInject (s : State) (ch : Channel) : State :=
  if s.pace.injected.contains ch.code then
    { s with fum := { s.fum with injNow := true }, pace := { s.pace with injected := s.pace.injected.filter fun k => decide (k ≠ ch.code) } }
  else s

/-- Is the domain of a channel, by its code, powered: all of them awake; in DOZE those of PRB, HUB, TK and AON: the pace
converters and the channels of the pages there (R48, R384)? -/
def State.watchRuns (s : State) (code : Nat) : Bool :=
  s.awake || decide (4 * 2 ^ 28 ≤ code) ||
    (decide (3 * 2 ^ 28 ≤ code) && [0x00, 0x01, 0x30, 0x31, 0x38, 0x48, 0x50, 0x58, 0x61, 0x68].contains (code % 256))

/-- HS_TIMEOUT (R47): a watchdog that the block runs itself has counted TIMEOUT ticks; the channel is forced to the spacer
and handed to its owner. -/
def execHsTimeout (ch : Channel) (phase : HsPhase) (s : State) : Host.Outcome State Fault Refusal :=
  finish (
    let n := Tab.read natZero s.pace.watch ch.code
    let answer := decide (ch = .converter .host 0) && decide (s.pages.host.unacked ≠ []) &&
      decide (s.pages.host.waited < s.hsTimeoutTicks)
    if s.dark || !s.watchRuns ch.code || (decide (0 < n) && decide (n ≤ s.hsTimeoutTicks)) || (decide (n = 0) && answer) then s
    else
      let s := (s.paceInject ch).paceFault 3 |>.log 0x01 0 0x0002 5 ch.code phase.code []
      let s : State := { s with pace := { s.pace with watch := Tab.write natZero s.pace.watch ch.code 0 } }
      s.channelStuck ch)

/-- At a slow tick the watchdogs of running channels and gates count; those of gated domains start from zero (R47, R48). The
gates stand in PRB; the TEST gate's owner is the checker. -/
def State.watchTick (s : State) : State :=
  let gate (on : Bool) (g : Gate) : Gate := if g.raised ≠ g.ack then { g with ticks := if on then g.ticks + 1 else 0 } else g
  { s with
    pages := { s.pages with host := { s.pages.host with waited := if s.pages.host.unacked = [] then 0 else s.pages.host.waited + 1 } }
    pace := { s.pace with watch := Tab.mapTab natZero (fun k n => if s.watchRuns k then n + 1 else 1) s.pace.watch }
    samp := { s.samp with
      probes := Tab.mapTab Probe.reset (fun _ x => { x with
        test := gate s.awake x.test, fence := gate true x.fence, stop := gate true x.stop }) s.samp.probes } }

end Sys2Proof.Machine
end

