-- ==== Sys2Proof/Machine/Close.lean ====
section
/-!
DEFINITION. Unit edges and command-count resets, the epoch closes and the grid (R93 to R107), SET_EPOCH, partials and
verdicts as they reach every subsystem.
-/
namespace Sys2Proof.Machine

/-! ### Unit edges (R93, R107) -/

/-- A present, unfenced probe that leaves IDLE breaks the idle timer (R391), and in DOZE wakes the block after ACT_EDGES
consecutive edges (R395). -/
def State.edgeActive (s : State) (p : Nat) (st : UnitState) : State :=
  if s.absent p || (s.probe p).fenced then s
  else if st = .idle then s.modBpwr fun b => { b with active := Tab.remove p b.active }
  else
    let s := s.modBpwr fun b => { b with busyAt := s.now }
    if s.bpwr.state = .doze then
      let n := Tab.read natZero s.bpwr.active p + 1
      let s := s.modBpwr fun b => { b with active := Tab.write natZero b.active p n }
      if bit (s.reg bpPage 0x4C) 31 ∧ max 1 (s.regFld bpPage 0x4C 0 16) ≤ n then s.wakeSrc 3 else s
    else s

/-- UNIT_EDGE: a committed UCLK edge with what the unit drives on it. -/
def execUnitEdge (probe : Nat) (st : UnitState) (reason : BitVec 3) (evt : BitVec 16) (cmdStart : Bool) (s : State) :
    Host.Outcome State Fault Refusal :=
  finish (
    if s.dark || !s.present probe || !s.chanOpen (.converter .probe probe) then s
    else
      let s := ((s.traceEdge probe st reason).countEdge probe st reason evt cmdStart).katEdge probe (decide (st = .idle))
      let s := s.edgeActive probe st
      if cmdStart then s.katCommand probe else s)

/-- COUNTER_RESET: the arbiter grants the reset that a CMD_START requested. -/
def execCounterReset (probe : Nat) (s : State) : Host.Outcome State Fault Refusal :=
  finish (if s.dark then s else s.grantReset probe)

/-! ### A close -/

/-- Every present probe samples, its exclusion of R104 and its bindings of R70 and R92 being those of this close. -/
def State.sampleAll (s : State) (no : Nat) : State :=
  (List.range s.samp.units).foldl (fun s p =>
    if s.present p then
      let excl := (s.probe p).fenced || s.absent p
      s.modProbe p fun x =>
        { sampleProbe no excl x with excluded := excl, profile := x.profileNext, job := x.jobNext }
    else s) s

/-- Selectors, masks and slot bindings written before the close take effect (R70, R92). -/
def State.bindClose (s : State) : State :=
  { s with samp := { s.samp with
      evsel := Tab.writeAll evselReset (fun p _ => s.reg (pg 0x10) (0x100 + 8 * p)) (List.range 16) s.samp.evsel
      rmask := Tab.writeAll rmaskReset (fun p _ => s.reg (pg 0x10) (0x104 + 8 * p)) (List.range 16) s.samp.rmask
      slotJob := Tab.writeAll bv16Zero (fun n _ => BitVec.ofNat 16 (s.regFld (pg 0x04) (0x100 + 4 * (n / 2)) (16 * (n % 2)) 16))
        (List.range 256) s.samp.slotJob } }

/-- A cluster's flags after a close: the members that missed it, STALE, and the units that contributed (R109). -/
def State.clusterClose (s : State) (c : Nat) : State :=
  let here := (probesOf c).filter s.present
  if (s.cluster c).lost then
    s.modCluster c fun y => { y with
      stale := decide (here ≠ []), missing := word ((here.map fun p => 2 ^ (p % 32)).sum), units := 0 }
  else
    let missed := here.filter fun p => (s.probe p).stale
    s.modCluster c fun y => { y with
      stale := decide (missed ≠ [])
      missing := word ((missed.map fun p => 2 ^ (p % 32)).sum)
      units := (here.filter fun p => (s.probe p).counted).length }

/-- The PARTIAL flag: a cluster STALE, a region or the die under reset, or the block asleep (R96, R386). -/
def State.closePartial (s : State) : Bool :=
  s.isDie && (!s.awake || s.bpwr.under.isSome ||
    ((List.range Config.regions).any fun r => (s.region r).inReset) ||
    (List.range Config.clusters).any fun c => (s.cluster c).stale && !(s.region (c / 16)).absent)

/-- The five flags of KX_SAMP_CLOSE_FLAGS. -/
def State.closeFlags (s : State) (short part : Bool) : Word :=
  word ((if short then 16 else 0) + (if s.unlocked then 8 else 0) + (if s.time.servo = .holdover then 4 else 0) +
    (if s.time.servo = .fault then 2 else 0) + if part then 1 else 0)

/-- The heartbeat of a close in DOZE: from the last template, which carries PARKED after an entry by handshake (R340, R391). -/
def State.dozeBeat (s : State) (no : Nat) : State :=
  if bit (s.reg bpPage 0x44) 28 ∧ no % max 1 (s.regFld svcPage 0x44 16 8) = 0 then s.sendBeat no s.bpwr.mode else s

/-- Fleet services and the power manager receive no product of a gated engine: each records the gap once, at its first
close (R32). -/
def State.gapStart (s : State) : State :=
  if s.svc.gap || !s.isDie then s
  else ([svcPage, pg 0x48, pg 0x28].foldl (fun s p => s.log p 0 (Config.gapCode p % 2 ^ 16) (Config.gapSeverity p % 8) 0 0 []) s).modSvc
    fun x => { x with gap := true }

/-- The consumers of a region's products under reset, reductions and forest engine, record the gap once each (R32). -/
def State.regionGaps (s : State) : State :=
  ((List.range 16).filter fun r => (s.region r).inReset && !(s.region r).gapped).foldl (fun s r =>
    ([redPage 0, pg 0x20].foldl (fun s p => s.log p 0 (Config.gapCode p % 2 ^ 16) (Config.gapSeverity p % 8) r 0 []) s).modRegion r
      fun y => { y with gapped := true }) s

/-- Products come again. -/
def State.gapEnd (s : State) : State := s.modSvc fun x => { x with gap := false }

/-- What the subsystems do at a close. Asleep or cut, windows that end are owed (R151, R462); under a reset of the die
nothing is evaluated. -/
def State.closeWork (s : State) (c : CloseInfo) : State :=
  if s.bpwr.under.isSome then s.gapStart.checkEpoch c.no
  else if !s.awake then ((s.gapStart.dozeBeat c.no).redDozeClose c).checkClose c.no
  else if s.isCut then ((s.svcClose c.no c.time).redDozeClose c).checkClose c.no
  else
    let s := ((s.gapEnd.regionGaps.svcClose c.no c.time).hpClose)
    let s := ((s.redClose s.sens c).forestClose c).checkClose c.no
    s.hpClosed.drift.answerPulls

/-- The close numbered `no` at instant `t` (R94 to R105): every present probe samples; the concentrators take the records of
probes not in `stuck`; the flags stand, and the subsystems work. `ties` are the probes whose reset request met the
strobe (R107). -/
def State.closeAt (s : State) (no : Nat) (t : FT) (short : Bool) (ties stuck : List Nat) : State :=
  let prev := s.samp.grid.lastClose
  let s := (s.work.bindClose.unfenceClose).bump (pg 0x02) 0x58 ties.length
  let s : State := { s with samp := { s.samp with grid := { s.samp.grid with epochNo := no, closed := true, lastClose := t, since := t } } }
  let s := s.sampleAll no
  let s := ((List.range s.samp.units).filter fun p => !stuck.contains p).foldl State.deliver s
  let s := if s.isDie then (List.range Config.clusters).foldl State.clusterClose s else s
  let s := ((List.range s.samp.units).foldl State.clearTotal s).snapClose
  let flags := s.closeFlags short s.closePartial
  let s : State := { s with samp := { s.samp with grid := { s.samp.grid with flags } } }
  let s := s.closeWork { no, time := t, flags, prev }
  let s : State := { s with pkg := { s.pkg with stale := false } }
  (s.waiters fun w => match w with
    | .close n => decide (n ≤ no)
    | _ => false).foldl (fun s p => s.complete p.1 p.2 stOk 0) s

/-- The command that scheduled the new grid ends: its own page, or the broadcast's root. -/
def State.originEnd (s : State) (q : PendEpoch) (st : Byte) (detail : Nat) : State :=
  let s := ({ s with samp := { s.samp with grid := { s.samp.grid with pend := none } } }).evtDrop .epochOrigin 0
  (match q.page with
    | some p => s.endWait p.1 p.2 (.time q.origin) st detail
    | none => s).bcastDone

/-- A pending SET_EPOCH takes effect at its ORIGIN: the epoch in progress closes there, SHORT when it is shorter than the
old PERIOD, as index 0 of the new grid; where none is in progress the grid only starts (R97, R98). -/
def State.originStep (s : State) (q : PendEpoch) (ties stuck : List Nat) : State :=
  let g := s.samp.grid
  let s := s.advanceTo q.origin
  let start (base : Nat) : State :=
    { s with samp := { s.samp with grid := { g with period := q.period, origin := q.origin, baseNo := base, since := q.origin, pend := none } } }
  if s.closesRun then
    let no := g.epochNo + 1
    ((start no).closeAt no q.origin (decide (q.origin < (if g.closed then g.lastClose else 0) + g.period * ns)) ties stuck).originEnd q stOk 0
  else (start g.epochNo).originEnd q stOk 0

/-- EPOCH_CLOSE: the next instant of the grid, or the ORIGIN that comes first. -/
def execEpochClose (ties stuck : List Nat) (s : State) : Host.Outcome State Fault Refusal :=
  finish (
    let t := s.nextClose
    let g := s.samp.grid
    if !s.closesRun then s
    else match g.pend with
      | some q => if q.origin = t then s.originStep q ties stuck
        else
          let k := closeNumber g ((t - g.origin) / (g.period * ns))
          let s : State := { s with samp := { s.samp with grid := { g with baseNo := k.2 } } }
          (s.advanceTo t).closeAt k.1 t false ties stuck
      | none =>
        let k := closeNumber g ((t - g.origin) / (g.period * ns))
        let s : State := { s with samp := { s.samp with grid := { g with baseNo := k.2 } } }
        (s.advanceTo t).closeAt k.1 t false ties stuck)

/-- EPOCH_ORIGIN: a pending SET_EPOCH takes effect, once no close of the old grid is due before its ORIGIN (R97). -/
def execEpochOrigin (stuck : List Nat) (s : State) : Host.Outcome State Fault Refusal :=
  finish (match s.samp.grid.pend with
    | none => s
    | some q =>
      if s.dark || (s.closesRun && decide (s.nextClose ≠ q.origin)) then s else s.originStep q [] stuck)

/-! ### SET_EPOCH (R97, R99) -/

/-- A grid change becomes pending: LATE, PENDING and EVT_FULL by their DETAIL codes, or the state that holds it. -/
def State.gridPend (s : State) (period : Nat) (origin : FT) (page : Option (Bool × Nat)) : Except Nat State :=
  if s.samp.grid.pend.isSome then .error 7
  else if origin < s.now + 10 * us then .error 1
  else match s.evtAdd .epochOrigin origin 0 with
    | none => .error 0x21
    | some s => .ok { s with samp := { s.samp with grid := { s.samp.grid with pend := some { period, origin, page } } } }

/-- A SET_EPOCH broadcast reaches a node: a die that holds it later than ORIGIN − 10 µs refuses it (R99). -/
def actEpoch (s : State) (b : Bcast) : Acted :=
  let z := AckCounts.zero 0
  match s.gridPend (leAt b.args 0 4) (leAt b.args 4 10) none with
  | .ok s => { s, own := if s.isDie then { z with armed := 1 } else z, reason := 0 }
  | .error d => { s, own := if s.isDie then { z with notArmed := 1 } else z, reason := if d = 1 then 1 else if d = 7 then 4 else 2 }

/-- SET_EPOCH: at this die; in the package window by every member; in system role by every die below (R99). -/
def setEpochCmd (c : CmdIn) (s : State) : State :=
  let period := (argW c s 0).toNat
  let origin := argFT c s 1
  if period < 1024 ∨ origin % ns ≠ 0 then s.badArg c
  else match s.gridPend period origin (some (c.pkg, c.page.toNat)) with
    | .error d => s.failCmd c d
    | .ok s' =>
      if c.pkg || s.isSystem then
        let r := s.bcastSend 4 false false 0 10 origin 0 (padTo 32 (leBytes 4 period ++ leBytes 10 origin)) actEpoch
        (r.2.waitFor c (.event 28 r.1)).bcastDone
      else s'.waitFor c (.time origin)

def execSetEpoch (c : CmdIn) (s : State) : Host.Outcome State Fault Refusal :=
  finish (runCmd c 0x10 0x0001 .operator true (setEpochCmd c) s)

/-! ### Partials and verdicts as they reach the other subsystems -/

/-- PARTIAL: a child's partial arrives; an alarm it leads to becomes a drift notice (R145, R345). -/
def execPartialMsg (src : BitVec 16) (p : RedPartial) (s : State) : Host.Outcome State Fault Refusal :=
  finish (if s.dark then s else (s.redReceive src p).drift)

/-- MERGE_WAIT_EXPIRE (R144). -/
def execMergeWaitExpire (slot window : Nat) (s : State) : Host.Outcome State Fault Refusal :=
  finish (if s.dark then s else (s.redExpire slot window).drift)

/-- VERDICT_OUT: the oldest inference in flight completes, and its verdict goes to the table, the ring and upward, to the
service processors, the power manager and the trace router (R180, R184). -/
def execVerdictOut (engine : Nat) (s : State) : Host.Outcome State Fault Refusal :=
  finish (match (s.engine engine).flight with
    | [] => s
    | v :: vs =>
      let s := s.modEngine engine fun f => { f with flight := vs }
      let s := ((s.verdictPost engine v).svcVerdict engine v)
      (if engine = 0 then s.pwrVerdict v else s).traceVerdict v.code)

end Sys2Proof.Machine
end

