-- ==== Sys2Proof/Machine/TimeStep.lean ====
section
/-!
DEFINITION. Steps of fleet time and what they do to scheduled time (R238, R243, R244), TIME_RELOCK and TIME_SET, PPS_IN
(R247), and the broadcasts of every kind as they reach this node.
-/
namespace Sys2Proof.Machine

/-! ### A step (R244) -/

/-- A pending event that a forward step passes over ends with STEPPED. -/
def State.evtStepped (s : State) (e : Evt) : State :=
  match e.kind with
  | .jobStart => s.startFail (BitVec.ofNat 16 e.key) 6
  | .wave => (s.hpwr.waves.filter fun w => decide (waveKey w = e.key) && !w.begun).foldl (fun s w => s.waveFail w false) s
  | .snuff => s.snuffStepped
  | .geyser =>
    let s := s.evtDrop .geyser 0
    let s := match s.samp.geyser.page with
      | some p => s.complete p.1 p.2 stError 0x20
      | none => s
    s.modGeyser fun g => { g with state := .idle, page := none }
  | .epochOrigin => match s.samp.grid.pend with
    | some q =>
      let s := (s.svc.pend.filter fun x => decide (x.b.origin = s.node) && decide (x.b.kind = 4)).foldl
        (fun s x => s.endBcast (.event 28 x.b.seq.toNat) 0 stError 0x20) s
      s.originEnd q stError 0x20
    | none => s
  | .relock => s.relockFail 0x20

/-- The Geyser grid instants that a forward step passes over yield no sample. -/
def State.geyserStepped (s : State) (vNew : FT) : State :=
  let g := s.samp.geyser
  let gi := max 1 s.gyGI
  if s.gyActive && decide (g.next ≤ vNew) then
    s.modGeyser fun g => { g with next := g.next + ((vNew - g.next) / gi + 1) * gi }
  else s

/-- Times of the servo's ports move with the step; exchanges begun before it cannot be used after it (DEDUCED). -/
def portStepped (d : Int) (_ : Nat) (x : TPort) : TPort :=
  { x with sync := none, dreq := none, exch := none, last := none,
           lastAt := ((x.lastAt : Int) + d).toNat, heard := ((x.heard : Int) + d).toNat
           annAt := ((x.annAt : Int) + d).toNat }

/-- The earliest close of a pending activation moves with the step, so that it stays 1 µs after acceptance (R155). -/
def actsStepped (d : Int) (l : List PendAct) : List PendAct :=
  l.map fun a => { a with notBefore := ((a.notBefore : Int) + d).toNat }

/-- The pending activations follow a step. -/
def State.actsStep (s : State) (d : Int) : State :=
  { s with
    reds := { s.reds with nodes := s.reds.nodes.map fun e => (e.1, { e.2 with acts := actsStepped d e.2.acts }) }
    forest := { s.forest with
      engines := s.forest.engines.map fun e => (e.1, { e.2 with acts := actsStepped d e.2.acts })
      ftab := { s.forest.ftab with acts := actsStepped d s.forest.ftab.acts } } }

/-- Fleet time steps from `vOld` to `vNew`: events passed over end, the epoch in progress closes SHORT, the next slow tick is
the first multiple of 1 µs after `vNew`, and the gate cycles and trace streams follow. -/
def State.stepTime (s : State) (vOld vNew : FT) : State :=
  let d : Int := (vNew : Int) - vOld
  let run := s.closesRun
  let s : State := { s with now := vNew, tick := vNew / us * us }
  let s := s.modTime fun t => { t with
    lastStep := vNew, stepSize := d, steps := satAdd 8 t.steps 1, samples := [], settled := [], run := 0
    ppsPrev := t.ppsPrev.map fun q => ((q : Int) + d).toNat, ppsFall := ((t.ppsFall : Int) + d).toNat
    ports := Tab.mapTab TPort.reset (portStepped d) t.ports }
  let s := s.actsStep d
  let passed := s.time.evts.filter fun e => decide (vOld < e.t) && decide (e.t ≤ vNew)
  let s := passed.foldl State.evtStepped s
  let s := s.geyserStepped vNew
  let s := if run then s.closeAt (s.samp.grid.epochNo + 1) vNew true [] [] else s.gridFrom vNew
  s.gatesStep.syncAll 4

/-- The servo enters LOCKED at a step: its record holds the times before and after the step and the rate (R238). -/
def State.lockAt (s : State) (vOld vNew : FT) (rate : Int) : State :=
  let r := clampInt (-rateMax) rateMax rate
  let s := s.stepTime vOld vNew
  let s := if r ≠ rate then s.timeErr errRateClamp else s
  let s := (s.setServo .locked).modTime fun t => { t with rate := r, base := r, integ := 0, forced := false }
  s.log 0x30 0 0x0001 4 s.slaveCode 0 (ftBytes vOld ++ ftBytes vNew ++ leBytes 4 (unsgn 32 r))

/-- `num / den` rounded to the nearest integer, ties away from zero. -/
def roundAway (num den : Int) : Int :=
  let n := num.natAbs
  let d := den.natAbs
  let q : Int := ((2 * n + d) / (2 * d) : Nat)
  if (num < 0) = (den < 0) then q else -q

/-- The first slow tick after local time `l`, not before the present. -/
def State.tickAfter (s : State) (l : Int) : FT :=
  max ((l.toNat / us + 1) * us) (ceilDiv s.now us * us)

/-- The step from the samples gathered: the extrapolated offset at the tick `ls`, to the nearest 1/64 ns, and the rate less
the slope; a slope beyond ±500 ppm is clamped (R238). -/
def State.sampleStep (s : State) (ls : FT) (first last : Int × Int) : State :=
  let a := last.1 - first.1
  let b := if last.2 = first.2 then 1 else last.2 - first.2
  let steep := decide (rateMax * (b.natAbs : Int) < a * 2 ^ 40) || decide (a * 2 ^ 40 < -(rateMax * (b.natAbs : Int)))
  let a' := if 0 < a then rateMax else -rateMax
  let s := if steep then s.timeErr errRateClamp else s
  let (a, b) : Int × Int := if steep then (a', 2 ^ 40) else (a, b)
  let step : Int := -(roundAway (last.1 * b + a * ((ls : Int) - last.2)) (b * 1024) * 1024)
  let rate := s.time.rate - roundAway (a * 2 ^ 40) b
  (s.lockAt ls ((ls : Int) + step).toNat rate)

/-- LOCK_STEP: the first slow tick after the last of ACQ_N samples. -/
def execLockStep (s : State) : Host.Outcome State Fault Refusal :=
  finish (
    if s.dark || !s.time.running || decide (s.time.servo ≠ .acquire) || decide (s.time.samples.length < s.acqN) then s
    else match s.time.samples.head?, s.time.samples.getLast? with
      | some x, some y => s.sampleStep (s.tickAfter y.2) x y
      | _, _ => s)

/-! ### TIME_RELOCK (R243) -/

/-- The command that asked for a relock, once this timekeeper has stepped: it is done, or it waits for the subtree. -/
def State.relockDone (s : State) (p : Bool × Nat) : State :=
  match (s.cmd p.1 p.2).wait with
  | .event 30 q =>
    if (s.svc.pend.any fun e => decide (e.b.origin = s.node) && decide (e.b.seq.toNat = q)) then
      (s.waitPage p.1 p.2 (.event 29 q)).bcastDone
    else if s.reg (cmdKey p.1 p.2) 0x100 = 0 then s.endWait p.1 p.2 (.event 30 q) stOk 0
    else s.endWait p.1 p.2 (.event 30 q) stError 0x03
  | w => s.endWait p.1 p.2 w stOk 0

/-- The relocks that broadcasts asked of this node: what its acknowledgement says of it, missing until it steps, armed
once it has, refused if it fails (R243). -/
def State.relockOwn (s : State) (ok : Bool) : State :=
  s.modSvc fun x => { x with pend := x.pend.map fun e =>
    if e.b.kind = 5 ∧ 0 < e.own.missing then
      if ok then { e with own := { e.own with armed := 1, missing := 0 } }
      else { e with own := { e.own with notArmed := 1, missing := 0 }, reason := if e.reason = 0 then 4 else e.reason }
    else e }

/-- RELOCK_STEP: a relock that holds its samples steps, at the first slow tick at or after T where one is named. -/
def execRelockStep (s : State) : Host.Outcome State Fault Refusal :=
  finish (match s.time.relock with
    | none => s
    | some r =>
      if s.dark || !s.time.running || decide (s.time.servo = .acquire) || decide (s.time.samples.length < s.acqN) then s
      else match s.time.samples.head?, s.time.samples.getLast? with
        | some x, some y =>
          let ls := max (s.tickAfter y.2) (match r.t with | some t => ceilDiv t us * us | none => 0)
          if s.earlierDue ls 7 then s else
          let s := (s.evtDrop .relock 0).modTime fun t => { t with relock := none }
          let s := s.sampleStep ls x y
          (match r.page with
            | some p => s.relockDone p
            | none => s.relockOwn true)
        | _, _ => s)

/-- A RELOCK broadcast reaches a node: its timekeeper accepts the relock or refuses it. -/
def actRelock (s : State) (b : Bcast) : Acted :=
  let z := AckCounts.zero 0
  if b.origin = s.node then { s, own := { z with armed := 1 }, reason := 0 }
  else match s.relockStart (if b.immediate then none else some b.t) none with
    | .ok s => { s, own := { z with missing := 1 }, reason := 0 }
    | .error d => { s, own := { z with notArmed := 1 }, reason := if d = 2 then 1 else if d = 0x21 then 2 else 4 }

/-- TIME_RELOCK. -/
def timeRelockCmd (c : CmdIn) (s : State) : State :=
  let at' := bit (argW c s 0) 0
  let t := argFT c s 1
  match s.relockStart (if at' then some t else none) (some (c.pkg, c.page.toNat)) with
  | .error d => s.failCmd c d
  | .ok s =>
    if bit (argW c s 0) 1 then
      let r := s.bcastSend 5 (!at') false 0 0 (if at' then t else 0) 0 (leBytes 1 (argFld c s 0 0 2)) actRelock
      r.2.waitFor c (.event 30 r.1)
    else s.waitFor c (.event 6 0)

def execTimeRelock (c : CmdIn) (s : State) : Host.Outcome State Fault Refusal :=
  finish (runCmd c 0x30 0x0001 .firmware true (timeRelockCmd c) s)

/-- A relock that a broadcast asked for and that failed turns this node's acknowledgement into a refusal (R243). -/
def State.relockReport (s : State) : State :=
  if s.time.relockBad then (s.modTime fun t => { t with relockBad := false }).relockOwn false
  else s

/-! ### TIME_SET and PPS_IN (R247, R252) -/

/-- The grandmaster's time is set: this is the step at lock, and the rate in force stands. -/
def State.timeSetAt (s : State) (vOld vNew : FT) : State :=
  (s.lockAt vOld vNew s.time.rate).modTime fun t => { t with gm := t.slave.isNone }

/-- TIME_SET. -/
def execTimeSet (c : CmdIn) (s : State) : Host.Outcome State Fault Refusal :=
  finish (runCmd c 0x30 0x0002 .firmware true
    (fun s =>
      if !s.gmEn || decide (s.time.servo ≠ .free) || s.time.setPps.isSome then s.failCmd c 0x03
      else if bit (argW c s 0) 0 then
        (s.modTime fun t => { t with setPps := some (argFT c s 1, c.pkg, c.page.toNat) }).waitFor c (.event 7 0)
      else (s.timeSetAt s.now (argFT c s 1)).ok c) s)

/-- The edge as the servo's source: one more than 1 µs from a whole number of seconds after the last good one is not used;
in FREE it starts an acquisition. -/
def State.ppsSample (s : State) (t : Int) : State :=
  let bad := match s.time.ppsPrev with
    | some q =>
      let d := (t - q) % second
      decide ((us : Int) < d) && decide (d < (second : Int) - us)
    | none => false
  if bad then s.timeErr errPpsMiss
  else
    let s := s.modTime fun x => { x with ppsPrev := some t.toNat }
    let s := if s.time.servo = .free then (s.setServo .acquire).modTime fun x => { x with samples := [] } else s
    s.servoSample (s.ppsOffset t) t

/-- PPS_IN_EDGE: a rising edge of PPS_IN, sampled at `ts`. -/
def execPpsInEdge (ts : Nat) (s : State) : Host.Outcome State Fault Refusal :=
  finish (
    let mode := s.regFld timePage 0xA0 30 2
    if s.dark || !s.time.running || decide (mode = 0) then s
    else
      let ts := truncFT ts
      let s := s.advanceTo ts
      let t : Int := (ts : Int) - psToFT (sgn 16 (s.regFld timePage 0xA4 16 16))
      let s := s.modTime fun x => { x with ppsIn := truncFT t.toNat }
      match if mode = 1 then none else s.time.setPps with
      | some (v, pkg, n) =>
        let s := s.modTime fun x => { x with setPps := none, ppsPrev := some t.toNat }
        (s.timeSetAt t.toNat v).endWait pkg n (.event 7 0) stOk 0
      | none => if s.ppsSource then s.ppsSample t else s)

/-! ### Broadcasts (R322, R328) -/

/-- What a broadcast of any kind does at a node. -/
def actAll (s : State) (b : Bcast) : Acted :=
  match b.kind.toNat with
  | 4 => actEpoch s b
  | 5 => actRelock s b
  | 8 => actSnuff s b
  | _ => actWaves s b

/-- BCAST: a broadcast arrives at a port. A MARKER concerns this node alone; in DOZE a broadcast is held until the exit
(R388, R396). -/
def execBcast (port : Nat) (b : Bcast) (s : State) : Host.Outcome State Fault Refusal :=
  finish (
    if s.dark || !s.awake then s
    else if b.kind = 8 ∧ leAt b.args 0 1 = 1 then s.markerTake port b
    else s.bcastTake (some port) b actAll)

end Sys2Proof.Machine
end

