-- ==== Sys2Proof/Machine/Loop.lean ====
section
/-!
DEFINITION. NOP and ECHO (class 0x00), and the loop-backs (R473, R474).
-/
namespace Sys2Proof.Machine

/-- NOP completes OK and has no effect. -/
def execNop (c : CmdIn) (s : State) : Host.Outcome State Fault Refusal :=
  finish (runCmd c 0x00 0x0000 .tenant true (fun s => s.ok c) s)

/-- ECHO copies the argument words into the result words. -/
def execEcho (c : CmdIn) (s : State) : Host.Outcome State Fault Refusal :=
  finish (runCmd c 0x00 0x0001 .tenant true
    (fun s => ((List.range c.nargs.toNat).foldl (fun (s : State) k => s.res c k (argW c s k).toNat) s).ok c) s)

/-! ### Loop-backs -/

/-- The depths that a port has: the loop points of its kind. -/
def State.loopHas (s : State) (depth p : Nat) : Bool :=
  let k := s.linkKind p
  decide (depth = 2) || decide (depth = 3) || (decide (depth = 4) && decide (k = 0)) ||
    ((decide (depth = 5) || decide (depth = 6)) && decide (k = 1)) || (decide (depth = 7) && decide (2 ≤ k))

/-- The results: frames sent, good and bad, bytes corrected, uncorrectable codewords (only loops that pass the code have the
last two), and the round-trip times at 1/64 ns. What a loop finds is the hardware's: free values. -/
def State.loopResults (s : State) (c : CmdIn) (depth frames : Nat) : Nat × State :=
  let b := s.draw 32
  let k := b.2.draw 32
  let u := k.2.draw 32
  let m := u.2.draw 26
  let x := m.2.draw 26
  let a := x.2.draw 26
  let bad := b.1.toNat % (frames + 1)
  let code := decide (3 ≤ depth) && decide (depth ≠ 7)
  let unc := if code then u.1.toNat else 0
  let ps (v : BitVec 26) : Nat := v.toNat * 15625 / 1000
  let s := ((((a.2.res c 0 frames).res c 1 (frames - bad)).res c 2 bad).res c 3 (if code then k.1.toNat else 0)).res c 4 unc
  (unc, ((s.res c 5 (ps m.1)).res c 6 (ps x.1)).res c 7 (ps a.1))

/-- The loop has finished: CODE_FAIL where a codeword was uncorrectable. -/
def State.loopDone (s : State) (c : CmdIn) (depth frames : Nat) : State :=
  let r := s.loopResults c depth frames
  if r.1 = 0 then r.2.ok c else r.2.failCmd c 6

/-- A port loop: the port is out of service; one that cannot finish within 100 ms stays BUSY until it is timed out. -/
def State.loopPort (s : State) (c : CmdIn) (depth p frames len : Nat) : State :=
  let up := s.linkUp p
  if up && !bit (argW c s 3) 0 then s.failCmd c 5
  else
    let s := if up then s.resetPort p else s
    if frames * s.frameTime p len ≤ 100 * 1000000000 ∧ (depth ≠ 6 ∨ up = true) then s.loopDone c depth frames
    else (s.modPort p fun x => { x with state := .down }).waitFor c (.event 19 p)

/-- LOOP_RUN (R473, R477). -/
def loopRunCmd (c : CmdIn) (s : State) : State :=
  let depth := argFld c s 0 28 4
  let n := argFld c s 0 0 13
  let frames := (argW c s 1).toNat
  let len := argFld c s 2 0 11
  if frames = 0 ∨ 2 ^ 24 < frames ∨ len < 32 ∨ 1056 < len ∨ 5 < argFld c s 2 12 4 ∨ 7 < depth then s.badArg c
  else if depth = 0 then
    if s.present n = false then s.badArg c
    else if (s.probe n).fenced = false ∧ (s.probe n).job ≠ 0 then s.failCmd c 5
    else (s.modProbe n fun x => { x with lostNext := true }).loopDone c depth frames
  else if depth = 1 then (if s.isDie = false ∨ Config.clusters ≤ n then s.badArg c else s.loopDone c depth frames)
  else if s.portCount ≤ n ∨ s.loopHas depth n = false then s.badArg c
  else s.loopPort c depth n frames len

def execLoopRun (c : CmdIn) (s : State) : Host.Outcome State Fault Refusal :=
  finish (runCmd c 0x60 0x0020 .firmware true (loopRunCmd c) s)

/-- LOOP_TIMEOUT: a loop-back that has not finished within 100 ms completes TIMEOUT, and its port trains again (R474). -/
def execLoopTimeout (pkg : Bool) (page : BitVec 3) (s : State) : Host.Outcome State Fault Refusal :=
  finish (match (s.cmd pkg page.toNat).busy, (s.cmd pkg page.toNat).wait with
    | true, .event 19 p => (s.startTraining p).complete pkg page.toNat stTimeout 0
    | _, _ => s)

end Sys2Proof.Machine
end

