-- ==== Sys2Proof/Machine/Command.lean ====
section
/-!
DEFINITION. CMD writes by their class and opcode (R80), the pin and the clear of a Snuff (R397, R458, R467).
-/
namespace Sys2Proof.Machine

/-- The state that a step leaves. -/
def after (s : State) : Host.Outcome State Fault Refusal → State
  | .next t => t
  | _ => s

/-- An opcode that no role knows. -/
def noCommand (cls op : Nat) (c : CmdIn) (s : State) : Host.Outcome State Fault Refusal :=
  finish (runCmd c cls op .tenant false (fun s => s) s)

/-- The commands of class 0x00. -/
def baseCommand (op : Nat) (c : CmdIn) (s : State) : Host.Outcome State Fault Refusal :=
  match op with
  | 0x0000 => execNop c s
  | 0x0001 => execEcho c s
  | op => noCommand 0x00 op c s

/-- The commands of class 0x10. -/
def samplingCommand (op : Nat) (c : CmdIn) (s : State) : Host.Outcome State Fault Refusal :=
  match op with
  | 0x0001 => execSetEpoch c s
  | 0x0002 => execProbeReset c s
  | 0x0003 => execClearTotals c s
  | 0x0004 => execForceAdopt c s
  | 0x0010 => execGeyserArm c s
  | 0x0011 => execGeyserStop c s
  | op => noCommand 0x10 op c s

/-- The commands of class 0x18. -/
def reductionCommand (op : Nat) (c : CmdIn) (s : State) : Host.Outcome State Fault Refusal :=
  match op with
  | 0x0001 => execRedLoad c s
  | 0x0002 => execRedActivate c s
  | 0x0003 => execRedClearSlot c s
  | 0x0004 => execRedCopySlot c s
  | 0x0005 => execRedDump c s
  | op => noCommand 0x18 op c s

/-- The commands of class 0x20. -/
def forestCommand (op : Nat) (c : CmdIn) (s : State) : Host.Outcome State Fault Refusal :=
  match op with
  | 0x0001 => execForestLoad c s
  | 0x0002 => execForestActivate c s
  | 0x0003 => execForestScore c s
  | 0x0004 => execForestDump c s
  | 0x0010 => execFtabLoad c s
  | 0x0011 => execFtabSeal c s
  | 0x0012 => execFtabActivate c s
  | 0x0013 => execFtabCopy c s
  | op => noCommand 0x20 op c s

/-- The commands of class 0x28. -/
def checkCommand (op : Nat) (c : CmdIn) (s : State) : Host.Outcome State Fault Refusal :=
  match op with
  | 0x0001 => execCheckRegister c s
  | 0x0002 => execCheckUnregister c s
  | 0x0003 => execCheckPoison c s
  | 0x0004 => execKatRun c s
  | 0x0005 => execFence c s
  | 0x0006 => execUnfence c s
  | 0x0007 => execCheckClearStats c s
  | op => noCommand 0x28 op c s

/-- The commands of class 0x30. -/
def timeCommand (op : Nat) (c : CmdIn) (s : State) : Host.Outcome State Fault Refusal :=
  match op with
  | 0x0001 => execTimeRelock c s
  | 0x0002 => execTimeSet c s
  | 0x0003 => execTimeHold c s
  | op => noCommand 0x30 op c s

/-- The commands of class 0x38. -/
def linkCommand (op : Nat) (c : CmdIn) (s : State) : Host.Outcome State Fault Refusal :=
  match op with
  | 0x0001 => execLinkReset c s
  | 0x0002 => execGateSet c s
  | 0x0003 => execParentSwap c s
  | 0x0004 => execLaneRetire c s
  | 0x0005 => execLinkStatsClear c s
  | 0x0100 => execSinterPack c s
  | 0x0101 => execSinterUnpack c s
  | op => noCommand 0x38 op c s

/-- The commands of class 0x40. -/
def serviceCommand (op : Nat) (c : CmdIn) (s : State) : Host.Outcome State Fault Refusal :=
  match op with
  | 0x0001 => execJobStart c s
  | 0x0002 => execJobEnd c s
  | 0x0003 => execStepMark c s
  | 0x0004 => execJobLiveness c s
  | 0x0005 => execRuntimeSet c s
  | op => noCommand 0x40 op c s

/-- The commands of class 0x48. -/
def powerCommand (op : Nat) (c : CmdIn) (s : State) : Host.Outcome State Fault Refusal :=
  match op with
  | 0x0001 => execHpwrSetCap c s
  | 0x0002 => execHpwrResume c s
  | 0x0003 => execHpwrTripClear c s
  | 0x0004 => execHpwrRailClear c s
  | 0x0010 => execBarrier c s
  | op => noCommand 0x48 op c s

/-- The commands of class 0x50. -/
def blockCommand (op : Nat) (c : CmdIn) (s : State) : Host.Outcome State Fault Refusal :=
  match op with
  | 0x0001 => execBpwrEnter c s
  | 0x0002 => execBpwrReset c s
  | 0x0003 => execBpwrWickTest c s
  | op => noCommand 0x50 op c s

/-- The commands of class 0x58. -/
def fumCommand (op : Nat) (c : CmdIn) (s : State) : Host.Outcome State Fault Refusal :=
  match op with
  | 0x0001 => execFumDump c s
  | 0x0002 => execFumClear c s
  | 0x0003 => execFumWrite c s
  | 0x0010 => execStateCkpt c s
  | 0x0011 => execStateRestore c s
  | 0x0012 => execStatePull c s
  | 0x0013 => execStateDigests c s
  | op => noCommand 0x58 op c s

/-- The commands of class 0x60. -/
def debugCommand (op : Nat) (c : CmdIn) (s : State) : Host.Outcome State Fault Refusal :=
  match op with
  | 0x0001 => execTraceStart c s
  | 0x0002 => execTraceStop c s
  | 0x0003 => execTraceMark c s
  | 0x0004 => execTraceAuth c s
  | 0x0010 => execSnuffNow c s
  | 0x0011 => execSnuffAt c s
  | 0x0012 => execSnuffClear c s
  | 0x0013 => execSnuffDump c s
  | 0x0014 => execSnuffRelease c s
  | 0x0020 => execLoopRun c s
  | op => noCommand 0x60 op c s

/-- The commands of class 0x68. -/
def rootCommand (op : Nat) (c : CmdIn) (s : State) : Host.Outcome State Fault Refusal :=
  match op with
  | 0x0001 => execSpdmXfer c s
  | 0x0002 => execFwStage c s
  | 0x0003 => execFwCommit c s
  | 0x0004 => execFwAbort c s
  | op => noCommand 0x68 op c s

/-- A CMD write: the command that CLASS and OP name; another is unknown in every role. -/
def State.command (s : State) (c : CmdIn) (w : Word) : State :=
  let op := fld w 8 16
  after s (match fld w 24 8 with
    | 0x00 => baseCommand op c s
    | 0x10 => samplingCommand op c s
    | 0x18 => reductionCommand op c s
    | 0x20 => forestCommand op c s
    | 0x28 => checkCommand op c s
    | 0x30 => timeCommand op c s
    | 0x38 => linkCommand op c s
    | 0x40 => serviceCommand op c s
    | 0x48 => powerCommand op c s
    | 0x50 => blockCommand op c s
    | 0x58 => fumCommand op c s
    | 0x60 => debugCommand op c s
    | 0x68 => rootCommand op c s
    | cls => noCommand cls op c s)

/-! ### SNUFF_IN_N (R397, R458) -/

/-- The Snuff pin: in EMBER the cut is missed and the pin wakes the block; elsewhere it cuts, and ends a low-power state. -/
def State.snuffIn (s : State) (low : Bool) : State :=
  let acts := low && bit (s.reg snuffPage 0x40) 31
  if s.bpwr.state = .ember then
    let s := s.modSnuff fun x => { x with pinLow := low }
    if acts then (s.modSnuff fun x => { x with missedEmber := true, missedAt := some (truncFT s.now) }).wakeSrc 7 else s
  else if s.dark then s.modSnuff fun x => { x with pinLow := low }
  else
    let s := s.snuffPin low
    if acts then s.wakeSrc 7 else s

def execSnuffInN (low : Bool) (s : State) : Host.Outcome State Fault Refusal := finish (s.snuffIn low)

/-! ### The clear (R467) -/

/-- A command that the Snuff held has its effect now. -/
def State.commandGoesOn (s : State) (p : Bool × Nat) : State :=
  let x := s.cmd p.1 p.2
  (s.waitPage p.1 p.2 (.event 20 1)).command
    { pkg := p.1, page := BitVec.ofNat 3 p.2, req := x.req, nargs := x.cmd.setWidth 8 } x.cmd

/-- SNUFF_CLEAR_APPLY: the node resumes its paused parts, handles the held frames, and the held commands go on. -/
def execSnuffClearApply (s : State) : Host.Outcome State Fault Refusal :=
  finish (match s.snuff.clearAt with
    | none => s
    | some t =>
      let s := (s.advanceTo t).snuffResume s.deadFor
      (s.waiters fun w => decide (w = .event 20 0)).foldl State.commandGoesOn s)

end Sys2Proof.Machine
end

