-- ==== Sys2Proof/Machine/Board.lean ====
section
/-!
DEFINITION. The module around a KXA-32 (R529 to R531): its input, its converters and their supervision by PMBus, its
connector, its latch and its LED. The fall of the rails themselves reaches the block as its supply events do.
-/
namespace Sys2Proof.Machine

def State.modBoard (s : State) (f : Board → Board) : State := { s with board := f s.board }

/-- The module turns on at 53 V rising and off at 51 V falling; off at 84 V rising and on again at 82 V falling (R529). -/
def vinAfter (on : Bool) (mv : Nat) : Bool :=
  if on then decide (51000 < mv) && decide (mv < 84000) else decide (53000 ≤ mv) && decide (mv ≤ 82000)

/-- MODULE_VIN: the input has moved to `mv` millivolts. -/
def execModuleVin (mv : Nat) (s : State) : Host.Outcome State Fault Refusal :=
  finish (if s.isSystem then s.modBoard fun b => { b with vinOk := vinAfter b.vinOk mv } else s)

/-- Fault bits of a STATUS_WORD: all but BUSY and OFF (PMBus). -/
def faultBits (w : BitVec 16) : BitVec 16 := w &&& 0xFF3F

/-- The master has read a converter's STATUS_WORD: a fault bit is logged with the word, and a converter that has turned off
leads to REPLACE_TRAY (R529). -/
def State.pollOne (s : State) (i : Nat) (w : BitVec 16) : State :=
  let old := Tab.read (fun _ => (0 : BitVec 16)) s.board.status i
  let s := s.modBoard fun b => { b with status := Tab.write (fun _ => (0 : BitVec 16)) b.status i w }
  let s := if faultBits w = 0 then s else s.log 0x48 0 0x0009 5 (0x40 + i) w.toNat []
  if bit w 6 && !bit old 6 then s.replaceTray 0x48 0 (0x40 + i) 8 else s

/-- CONVERTER_POLL: the STATUS_WORDs of the converters at addresses 0x40 to 0x43, in order. -/
def execConverterPoll (words : List (BitVec 16)) (s : State) : Host.Outcome State Fault Refusal :=
  finish (if s.isSystem && !s.dark then
      (List.range (min 4 words.length)).foldl (fun s i => s.pollOne i (words.getD i 0)) s
    else s)

/-- PRESENT_N: low, the module is mated; high, its converters are off within 100 µs (R530, R531). -/
def execPresentN (low : Bool) (s : State) : Host.Outcome State Fault Refusal :=
  finish (if s.isSystem then
      if low && !s.board.present then
        s.modBoard fun b => { b with present := true, ejected := false, led := .off, swap := none, offAt := none }
      else s.modBoard fun b => { b with present := low }
    else s)

/-- The module controller issues PARENT_SWAP with downlink 0xFF on a command page (R531). -/
def State.ejectSwap (s : State) (c : CmdIn) : State :=
  let n := c.page.toNat
  let seq := (s.cmd c.pkg n).seq
  let s := s.setReg (cmdKey c.pkg n) 0x80 0xFF
  let s := runCmd c 0x38 0x0003 .firmware true (parentSwap c) s
  if (s.cmd c.pkg n).seq = seq then s else s.modBoard fun b => { b with swap := some (c.pkg, n) }

/-- EJECT_N: the latch opens, and the module controller issues PARENT_SWAP; a lost twin leaves the module on as the sole
parent, without one. The latch closes. -/
def execEjectN (low : Bool) (c : CmdIn) (s : State) : Host.Outcome State Fault Refusal :=
  finish (if s.isSystem then
      if low && !s.board.eject then
        let s := s.modBoard fun b => { b with eject := true, led := .amber }
        if s.links.twin = .lost ∨ s.board.swap.isSome = true then s else s.ejectSwap c
      else s.modBoard fun b => { b with eject := low }
    else s)

/-- At a slow tick the controller looks at the PARENT_SWAP it issued: OK turns the LED blue, and 100 ms later the
converters off; anything else leaves the module on, with the LED amber (R531). -/
def State.boardTick (s : State) : State :=
  let s := match s.board.swap with
    | some (pkg, n) =>
      let p := s.cmd pkg n
      if p.busy then s
      else if p.status = stOk then s.modBoard fun b => { b with swap := none, led := .blue, offAt := some (s.now + 100 * ms) }
      else s.modBoard fun b => { b with swap := none, led := .amber }
    | none => s
  match s.board.offAt with
  | some t => if t ≤ s.now then s.modBoard fun b => { b with offAt := none, ejected := true } else s
  | none => s

end Sys2Proof.Machine
end

