-- ==== Sys2Proof/Machine/Tap.lean ====
section
/-!
DEFINITION. The test access port (R471), but for KX_ACCESS, which performs register accesses. Each row is one scan of
its instruction: what is captured leaves on TDO, and what is shifted in acts at Update-DR.
-/
namespace Sys2Proof.Machine

def State.modTap (s : State) (f : Tap → Tap) : State := { s with tap := f s.tap }

/-- The TAP lives in AON: off in OFF, and in EMBER only BYPASS and IDCODE act (R471). -/
def State.tapOff (s : State) : Bool := decide (s.bpwr.state = .off)
def State.tapActs (s : State) : Bool := !s.tapOff && decide (s.bpwr.state ≠ .ember)

/-- The number that bits spell, the first one least significant. -/
def bitsNat : List Bool → Nat
  | [] => 0
  | b :: bs => (if b then 1 else 0) + 2 * bitsNat bs

/-- `n` bits leave on TDO. -/
def State.tdo (s : State) (n v : Nat) : State := if s.tapOff then s else s.emit (.tdo n v)

/-- One bit of delay, captured as zero. -/
def State.bypass (s : State) (shift : List Bool) : State :=
  s.tdo shift.length (bitsNat ((false :: shift).take shift.length))

def execBypass (shift : List Bool) (s : State) : Host.Outcome State Fault Refusal := finish (s.bypass shift)

/-- STEP of the part. -/
def implStep : Nat := fld Config.implId 0 8

/-- IDCODE: STEP, the part, the maker, and 1. -/
def State.idcode (s : State) : Nat :=
  implStep % 16 * 2 ^ 28 + (if s.isDie then 0x0B71 else 0x0B72) * 2 ^ 12 + 0x2E5 * 2 + 1

def execIdcode (s : State) : Host.Outcome State Fault Refusal := finish (s.tdo 32 s.idcode)

/-- Cells of the boundary register: one for each signal ball but those of SerDes pairs and clock pairs (R527): PERST_N, PPS_IN
and PPS_OUT, 16 of debug and control, 5 straps, 4 of power management, 13 of flash, TAP and thermal diode. -/
def boundaryCells : Nat := 1 + 2 + 16 + 5 + 4 + 13

/-- A scan of the boundary register: what was captured leaves first, then what came in; the cells hold the rest. -/
def State.boundaryScan (s : State) (shift pins : List Bool) (drive : Bool) : State :=
  let cap := (pins ++ List.replicate boundaryCells false).take boundaryCells
  if s.tapActs then
    (s.tdo shift.length (bitsNat ((cap ++ shift).take shift.length))).modTap fun t => { t with
      cells := (cap ++ shift).drop shift.length, drive }
  else s.tdo shift.length (bitsNat ((List.replicate boundaryCells false ++ shift).take shift.length))

/-- SAMPLE/PRELOAD: the pins are captured, and the boundary cells take what is shifted in; KXA-32 only. -/
def execSamplePreload (shift pins : List Bool) (s : State) : Host.Outcome State Fault Refusal :=
  finish (
    if s.isDie then s.bypass shift else s.boundaryScan shift pins false)

/-- EXTEST: as SAMPLE/PRELOAD, and the cells drive the pins; KXA-32 only. -/
def execExtest (shift pins : List Bool) (s : State) : Host.Outcome State Fault Refusal :=
  finish (
    if s.isDie then s.bypass shift else s.boundaryScan shift pins true)

/-- Word `i` of a byte sequence, with VALID in bit 32. -/
def scanWord (b : List Byte) (i : Nat) : Nat := if 4 * i < b.length then 2 ^ 32 + leAt b (4 * i) 4 else 0

/-- SNUFF_SCAN: the next word of the image; Update-IR starts again at word 0. -/
def execSnuffScan (restart : Bool) (s : State) : Host.Outcome State Fault Refusal :=
  finish (
    if restart then (if s.tapActs then s.modTap fun t => { t with scan := 0 } else s)
    else if s.tapActs then
      (s.tdo 33 (scanWord (if s.snuff.image then s.imageBytes else []) s.tap.scan)).modTap fun t => { t with scan := t.scan + 1 }
    else s.tdo 33 0)

/-- FUNNEL_READ: as SNUFF_SCAN, over the funnel, oldest first. -/
def execFunnelRead (restart : Bool) (s : State) : Host.Outcome State Fault Refusal :=
  finish (
    if restart then (if s.tapActs then s.modTap fun t => { t with funnel := 0 } else s)
    else if s.tapActs then (s.tdo 33 (scanWord s.funnelBytes s.tap.funnel)).modTap fun t => { t with funnel := t.funnel + 1 }
    else s.tdo 33 0)

/-- SNUFF_REQ: Update-DR with 1 triggers a Snuff with scope IN_SCOPE (R458). -/
def execSnuffReq (v : Bool) (s : State) : Host.Outcome State Fault Refusal :=
  finish (
    let act := s.tapActs
    let s := s.tdo 1 0
    if v && act then s.snuffTrig .tap s.inScopeField s.node none else s)

end Sys2Proof.Machine
end

