-- ==== Sys2Proof/Machine/Bus.lean ====
section
/-!
DEFINITION. Register accesses: windows, pages, privilege, guarded, wide and indirect accesses, command pages, proxies (R17,
R59 to R87, R201, R268, R472, R479, R498, R508, R526). Every row that is an access of its own kind is the one access
operation on the operands that reach it.
-/
namespace Sys2Proof.Machine

/-! ### Where an address leads (R59, R61, R64) -/

/-- The target of an address. -/
inductive Target where
  /-- a page of this block, and the offset in it -/
  | page (key page off : Nat)
  /-- another node, by a message to a destination, with the address it is sent -/
  | forward (dest : Dest) (addr : Nat)
  /-- no target: ERROR -/
  | nowhere
  /-- a target that has moved while the request was in flight: RETRY (R17) -/
  | moved
deriving DecidableEq

/-- A page of a window's list. -/
def pageTarget (l : List (Nat × Nat)) (n off : Nat) : Target :=
  match l.find? fun e => decide (e.1 = n) with
  | some e => .page e.2 n off
  | none => .nowhere

/-- The target of an address in the die role; `byLink` says that it came as a proxy request. -/
def State.dieTarget (s : State) (byLink : Bool) (a : Nat) : Target :=
  let win := a / 2 ^ 20
  let n := a / 4096 % 256
  let off := a % 4096
  let d := win - 8
  if win = 0 then pageTarget diePages n off
  else if win = 1 ∧ s.isHead = true then pageTarget packagePages n off
  else if 8 ≤ win ∧ s.isHead = true then
    if d = s.straps.dieIdx.toNat then pageTarget diePages n off
    else if (Tab.read Member.none s.pkg.members d).present then .forward (.port (s.diePort d)) (a % 2 ^ 20)
    else .nowhere
  else if win = 1 ∨ 8 ≤ win then
    match s.pkg.head with
    | some h => if byLink then .moved else .forward (.port (s.diePort h.toNat)) a
    | none => if byLink then .moved else .nowhere
  else .nowhere

/-- The target behind proxy window `n` (R64, R86). -/
def State.proxyTarget (s : State) (n a : Nat) : Target :=
  let r := s.reg (pg 0x01) (0xC0 + 4 * n)
  let t := fld r 8 8
  let addr := fld r 0 4 * 2 ^ 20 + a % 2 ^ 20
  if !bit r 31 then .nowhere
  else if bit r 30 then (if t < 64 ∧ s.straps.cascade = true then .forward (.node (nodeOf 2 t 0 0)) addr else .nowhere)
  else if t < 32 ∧ s.straps.cascade = false then .forward (.port t) addr
  else .nowhere

/-- The target of an address. -/
def State.target (s : State) (byLink : Bool) (a : Nat) : Target :=
  if s.isDie then s.dieTarget byLink a
  else if 2 ^ 23 ≤ a then s.proxyTarget ((a - 2 ^ 23) / 2 ^ 20) a
  else pageTarget systemPages (a / 4096) (a % 4096)

/-- A page's number in the walk order of its window, for PAGE_NEXT. -/
def State.windowOf (s : State) (key : Nat) : List (Nat × Nat) := if keyScope key = 1 then packagePages else s.ownPages

/-! ### Reading (R65, R72, R76, R79, R80) -/

/-- KX_page_PAGE_SNAP of UNITWIN (R77). -/
def State.snapWord (s : State) : Word :=
  word (b01 s.snapRuns 31 + b01 s.pages.snapPartial 30 + s.pages.snapSeq.toNat * 2 ^ 16)

/-- A word of the common header. -/
def State.headWord (s : State) (key page off : Nat) : Word :=
  let h := s.hdr key
  let ty := keyType key
  match off with
  | 0x00 => s.pageId key
  | 0x04 => Config.pageVer ty
  | 0x08 => pageCap s.isSystem key
  | 0x0C => pageNext page (s.windowOf key)
  | 0x10 => h.ctrl
  | 0x14 => s.statWord key
  | 0x18 => h.err
  | 0x1C => h.errMask
  | 0x20 => h.irqEn
  | 0x24 => if ty = 0x03 then s.snapWord else 0
  | 0x28 => word h.incarn.toNat
  | 0x2C => privWord key h
  | 0x30 => if ty ∈ injTypes then h.inj else 0
  | _ => 0

/-- KX_CMDn_STAT. -/
def cmdStat (c : CmdPage) : Word :=
  word (b01 c.busy 31 + b01 c.done 30 + c.status.toNat * 2 ^ 16 + c.seq.toNat * 2 ^ 8 + c.detail.toNat)

/-- A word of a command page: RES answers RETRY while BUSY. -/
def State.cmdRead (s : State) (pkg : Bool) (n off : Nat) : Resp × Word :=
  let c := s.cmd pkg n
  if off = 0x44 then (.ok, cmdStat c)
  else if off = 0x48 then (.ok, word (c.holder.toNat * 2 ^ 24 + c.owner.toNat))
  else if 0x80 ≤ off ∧ off < 0x100 then (.ok, s.reg (cmdKey pkg n) off)
  else if 0x100 ≤ off ∧ off < 0x180 then if c.busy then (.retry, 0) else (.ok, s.reg (cmdKey pkg n) off)
  else (.ok, 0)

/-- The unit that context `c` of UNITWIN has selected: LEVEL and INDEX. -/
def State.context (s : State) (c : Nat) : Nat × Nat :=
  let w := s.reg (pg 0x03) (0x50 + 4 * c)
  (fld w 30 2, fld w 0 16)

/-- Is `off` in a data window of UNITWIN? Then its context and its word. -/
def dataWindow (key off : Nat) : Option (Nat × Nat) :=
  if keyType key = 0x03 ∧ 0x100 ≤ off ∧ off < 0x500 then some ((off - 0x100) / 0x100, off % 0x100 / 4) else none

/-- The checks of a data-window access (R24, R70, R79). -/
def State.unitCheck (s : State) (q : Req) (level index : Nat) : Resp :=
  let count := if level = 0 then Config.probes else if level = 1 then Config.clusters else Config.regions
  let region := if level = 0 then regionOf (clusterOf index) else if level = 1 then regionOf index else index
  if level = 3 ∨ count ≤ index then .error
  else if (s.region region).inReset then .retry
  else if q.tag = .tenant ∧ ¬(level = 0 ∧ q.job ≠ 0 ∧ (s.probe index).job = q.job) then .denied
  else .ok

/-- Word `w` of the record selected, live or held as PAGE_CTRL.VIEW says (R77, R108, R109). -/
def State.unitWord (s : State) (level index w : Nat) : Word :=
  let held := bit (s.hdr (pg 0x03)).ctrl 1
  if level = 0 then s.probeWord held index w
  else if level = 1 then s.clusterWord held index w
  else s.regionWord held index w

/-- A read through a data window: a total is a wide register (R76, R108), and the read of word 63 may advance INDEX. -/
def State.unitRead (s : State) (c w off : Nat) : Word × State :=
  let x := s.context c
  let v := s.unitWord x.1 x.2 w
  let total := decide (1 ≤ w) && decide (w < 39)
  let r : Word × State :=
    if total && decide (w % 2 = 1) then
      (v, s.modHdr (pg 0x03) fun h => { h with wide := some (off, [v, s.unitWord x.1 x.2 (w + 1)]) })
    else if total then
      match (s.hdr (pg 0x03)).wide with
      | some (b, ws) => (if b + 4 = off then ws.getD 1 0 else v, s)
      | none => (v, s)
    else (v, s)
  let i := 0x50 + 4 * c
  if w = 63 ∧ bit (s.reg (pg 0x03) i) 29 = true then
    (r.1, r.2.setRegFld (pg 0x03) i 0 16 (x.2 + 1))
  else r

/-- A TENANT reads in the RED page the records and readouts of slots bound to its job alone (R24, R70, R158). -/
def State.redDenied (s : State) (key off : Nat) (q : Req) : Bool :=
  decide (keyType key = 0x18) && (decide (0x200 ≤ off) || (decide (0x5C ≤ off) && decide (off < 0x68))) &&
    !s.slotBound q (s.regFld key 0x54 0 8)

/-- The tag required to read a register: PAGE_PRIV, and OPERATOR for the TIME registers but NOW (R250). -/
def State.readRank (s : State) (key off : Nat) : Nat :=
  if keyType key = 0x30 ∧ 0x4C ≤ off then max 1 (s.hdr key).rd.toNat else (s.hdr key).rd.toNat

/-- A page-specific register is behind its page's reset: but for KX_TIME_REFCLK (R61, R250). -/
def State.behindReset (s : State) (key off : Nat) : Bool :=
  decide (0x40 ≤ off) && bit (s.hdr key).stat statInReset && !(decide (keyType key = 0x30) && decide (off = 0xCC))

/-- The page answers only with its header: after a failed BIST all but DIR and BPWR, in RECOVERY all but those, ROT and the
command pages (R413, R487). -/
def State.pageShut (s : State) (key : Nat) : Bool :=
  let t := keyType key
  let base := decide (t = 0x01) || decide (t = 0x50)
  (s.bpwr.failed && !base) ||
    (decide (s.rot.state = .recovery) && !base && decide (t ≠ 0x68) && decide (t ≠ 0x08))

/-- An access that is answered ERROR or DENIED sets ACCESS_ERR of its page (R65, R67). -/
def State.turnAway (s : State) (key : Nat) (r : Resp) : (Resp × Word) × State :=
  ((r, 0), if r = .error || r = .denied then s.setErr key errAccess else s)

/-- A read at an offset of the lower half of a page. -/
def State.readAt (s : State) (key page off : Nat) (q : Req) : (Resp × Word) × State :=
  if off < 0x10 then ((.ok, s.headWord key page off), s)
  else if q.tag.rank < s.readRank key off then s.turnAway key .denied
  else if off < 0x40 then ((.ok, s.headWord key page off), s)
  else if s.pageShut key then s.turnAway key .error
  else if s.behindReset key off then ((.retry, 0), s)
  else if keyType key = 0x08 then (s.cmdRead (decide (keyScope key = 1)) (keyInst key) off, s)
  else match dataWindow key off with
    | some (c, w) =>
      let x := s.context c
      match s.unitCheck q x.1 x.2 with
      | .ok =>
        let r := s.unitRead c w off
        ((.ok, r.1), r.2)
      | r => s.turnAway key r
    | none =>
      if s.redDenied key off q then s.turnAway key .denied
      else
        let r := s.readReg key off
        ((.ok, r.1), r.2)

/-- A read anywhere in a page: the upper half reads the complement, and captures nothing (R72). -/
def State.readPage (s : State) (key page off : Nat) (q : Req) : (Resp × Word) × State :=
  if off < 0x800 then s.readAt key page off q
  else match (s.readAt key page (off - 0x800) q).1 with
    | (.ok, w) => ((.ok, ~~~w), s)
    | (r, _) => s.turnAway key r

/-! ### Writing -/

/-- LOCK (R82): a nonzero OWNER takes a free page; the holder writes it, and FIRMWARE and ROT may free it. -/
def State.lockWrite (s : State) (pkg : Bool) (n : Nat) (q : Req) (w : Word) : Resp × State :=
  let c := s.cmd pkg n
  let v : BitVec 16 := w.setWidth 16
  if c.owner = 0 then
    (.ok, if v = 0 then s else s.setCmd pkg n { c with owner := v, holder := q.rid })
  else if c.holder = q.rid ∨ (v = 0 ∧ q.tag.atLeast .firmware = true) then
    (.ok, s.setCmd pkg n { c with owner := v, holder := if v = 0 then 0 else c.holder })
  else (.denied, s)

/-- A CMD write: accepted, or turned away (R80). The answer is the bus's, so the command answers nobody. -/
def State.cmdWrite (s : State) (pkg : Bool) (n : Nat) (q : Req) (w : Word) : Resp × State :=
  let r := s.cmdGate pkg n q
  let quiet : Req := { q with port := if q.port = .rot then .rot else .proxy }
  let t := s.command { pkg, page := BitVec.ofNat 3 n, req := quiet, nargs := w.setWidth 8 } w
  (r, if r = .ok then t.setCmd pkg n { t.cmd pkg n with req := q } else s)

/-- A write to a command page. -/
def State.cmdPageWrite (s : State) (pkg : Bool) (n off : Nat) (q : Req) (w : Word) : Resp × State :=
  let c := s.cmd pkg n
  if off = 0x40 then s.cmdWrite pkg n q w
  else if off = 0x44 then (.ok, if bit w 30 then s.setCmd pkg n { c with done := false } else s)
  else if off = 0x48 then s.lockWrite pkg n q w
  else if 0x80 ≤ off ∧ off < 0x100 then
    if c.owner ≠ 0 ∧ c.holder ≠ q.rid then (.denied, s)
    else if c.busy then (.retry, s)
    else (.ok, s.setReg (cmdKey pkg n) off w)
  else (.ok, s)

/-- A write through a data window: PROFILE, JOB_BIND and the W1C flags of a probe record (R79, R108). -/
def State.unitWrite (s : State) (level index w : Nat) (v : Word) : State :=
  if level ≠ 0 ∨ s.present index = false then s
  else if w = 0 then
    s.modProbe index fun x => { x with
      profileNext := BitVec.ofNat 4 (fld v 20 4)
      lost := x.lost && !bit v 27
      stateErr := x.stateErr && !bit v 26
      wrap := x.wrap && !bit v 25
      mismatch := x.mismatch && !bit v 24 }
  else if w = 63 then s.modProbe index fun x => { x with jobNext := v.setWidth 16 }
  else s

/-- A write of TAKE (R77, R78, R460). -/
def State.takeWrite (s : State) (w : Word) : Resp × State :=
  if !bit w 0 then (.ok, s)
  else if s.snapRuns || s.takeBarred then (.retry, s)
  else (.ok, s.snapTake)

/-- Is the register at an offset guarded: PAGE_PRIV, PAGE_INJ, or an RWG register of the page (R65, R73)? -/
def guardedAt (key off : Nat) : Bool :=
  if off < 0x40 then decide (off = 0x2C) || (decide (off = 0x30) && decide (keyType key ∈ injTypes))
  else match regAt (keyType key) off with
    | some (r, _, _) => r.guarded
    | none => false

/-- The tag required to write a register (R65, R68). -/
def State.writeRank (s : State) (key off : Nat) : Nat :=
  if off = 0x2C then 3 else if off = 0x30 ∧ keyType key ∈ injTypes then max 2 (s.hdr key).wr.toNat else (s.hdr key).wr.toNat

/-- A write that no latch concerns, past the checks of the page. -/
def State.plainWrite (s : State) (key off : Nat) (q : Req) (w : Word) : Resp × State :=
  if off = 0x24 ∧ keyType key = 0x03 then s.takeWrite w
  else if off < 0x40 then (.ok, s.writeHead key off w)
  else if keyType key = 0x08 then s.cmdPageWrite (decide (keyScope key = 1)) (keyInst key) off q w
  else match dataWindow key off with
    | some (c, i) =>
      let x := s.context c
      match s.unitCheck q x.1 x.2 with
      | .ok => (.ok, s.unitWrite x.1 x.2 i w)
      | r => (r, s)
    | none => s.writeReg key off w

/-- The guarded value is committed: configuration changes, and the RoT measures it (R73, R491). -/
def State.guardCommit (s : State) (key : Nat) (g : Guard) : State :=
  let s := s.modHdr key fun h => { h with guard := none }
  let s := (if g.off < 0x40 then s.writeHead key g.off g.value else (s.writeReg key g.off g.value).2).touchItem 0x09
  s.measure 5 [] none

/-- The latch of a page is discarded, for a reason of R417. -/
def State.latchDrop (s : State) (key : Nat) (g : Guard) (reason : Nat) : State :=
  (s.modHdr key fun h => { h with guard := none }).guardDiscard key g.off g.rid reason

/-- A write that finds no armed latch: a complement is discarded, a guarded register arms the latch (R73, R74). -/
def State.freshWrite (s : State) (key off : Nat) (q : Req) (w : Word) : Resp × State :=
  if 0x800 ≤ off then
    (.ok, s.guardDiscard key off q.rid (if guardedAt key (off - 0x800) then 6 else 5))
  else if guardedAt key off then
    (.ok, s.modHdr key fun h => { h with guard := some { off, value := w, rid := q.rid, ticks := 0 } })
  else s.plainWrite key off q w

/-- A write past the checks of the page, under the guard latch (R73, R74). -/
def State.latchedWrite (s : State) (key off : Nat) (q : Req) (w : Word) : Resp × State :=
  match (s.hdr key).guard with
  | none => s.freshWrite key off q w
  | some g =>
    if 8 ≤ g.ticks then (s.latchDrop key g 2).freshWrite key off q w
    else if g.rid = q.rid then
      if off = g.off + 0x800 ∧ w = ~~~g.value then (.ok, s.guardCommit key g)
      else (.ok, s.latchDrop key g 1)
    else (s.latchDrop key g 4).freshWrite key off q w

/-- An armed injection of kind 1 or 2 upsets the word that the page writes now (R68). -/
def State.injFlip (s : State) (key : Nat) : State :=
  [1, 2].foldl (fun s k =>
    let r := s.injTake key k
    if r.1 then { r.2 with fum := { r.2.fum with flips := r.2.fum.flips ++ [(key, k)] } } else r.2) s

/-- A write anywhere in a page. -/
def State.writePage (s : State) (key off : Nat) (q : Req) (w : Word) : Resp × State :=
  let x := off % 0x800
  if q.tag.rank < s.writeRank key x then (.denied, s)
  else if 0x40 ≤ x ∧ s.pageShut key = true then (.error, s)
  else if s.behindReset key x then (.retry, s)
  else
    let r := s.latchedWrite key off q w
    if r.1 = .ok ∧ 0x40 ≤ x ∧ bit (s.hdr key).inj 31 = true then (r.1, r.2.injFlip key) else r

/-- A write, with ACCESS_ERR; a posted write of the KXA-32's host sets it for every answer but OK (R65, R526). -/
def State.writeAnswered (s : State) (key off : Nat) (q : Req) (w : Word) : (Resp × Word) × State :=
  let r := s.writePage key off q w
  let mark := r.1 = .error || r.1 = .denied || (decide (r.1 = .retry) && s.isSystem && decide (q.port = .host))
  ((r.1, 0), if mark then r.2.setErr key errAccess else r.2)

/-- An access to a page of this block. -/
def State.pageAccess (s : State) (key page off : Nat) (a : Access) : (Resp × Word) × State :=
  if off % 4 ≠ 0 ∨ a.be ≠ 0xF then s.turnAway key .error
  else if a.wr then s.writeAnswered key off a.req a.data
  else s.readPage key page off a.req

/-! ### Proxy requests (R64, R87, R268) -/

/-- The payload of a PROXY_REQ. -/
def proxyPayload (addr : Nat) (a : Access) : List Byte :=
  leBytes 4 addr ++ leBytes 4 a.data.toNat ++ [BitVec.ofNat 8 (a.req.tag.rank + if a.wr then 128 else 0), a.req.rid] ++
    leBytes 2 a.req.job.toNat

/-- Send a request on to its target: it holds a tag until it is answered; RETRY where no tag is free. -/
def State.proxySend (s : State) (dest : Dest) (addr : Nat) (a : Access) (back : Option (Nat × BitVec 16 × BitVec 16)) :
    Option (Resp × Word) × State :=
  match s.freeTag, (s.route dest).head? with
  | some tag, some p =>
    let num := (s.pages.host.order.map fun e => e.num.getD 0).foldl max 0 + 1
    let m : Msg := { typ := 0x02, tag := BitVec.ofNat 16 tag, dest, payload := proxyPayload addr a }
    let t : ProxyTag := { req := a.req, sent := s.now, dead := false, port := p, back, num, chan := ((s.chansFor p m).head?).getD p }
    let s := s.modLinks fun l => { l with proxies := Tab.write noProxy l.proxies tag (some t) }
    let s : State := if back.isSome then s else { s with pages := { s.pages with host := { s.pages.host with
      order := s.pages.host.order ++ [{ num := some num, req := a.req, ans := none }] } } }
    (none, s.send { typ := 0x02, tag := BitVec.ofNat 16 tag, dest, payload := proxyPayload addr a })
  | none, _ => (some (.retry, 0), s)
  | _, none => (some (.error, 0), s)

/-! ### An access, from any port -/

/-- In DOZE and while the block wakes, only DIR and BPWR answer (R395), and the first four header words of every page (R65); a CMD write of BPWR_RESET is taken where WAKE.HOST is
0 (R405). -/
def State.dozeAnswers (s : State) (a : Access) : Target → Bool
  | .page key _ off => decide (keyType key = 0x01) || decide (keyType key = 0x50) || (decide (off % 0x800 < 0x10) && !a.wr) ||
      (decide (keyType key = 0x08) && decide (off = 0x40) && a.wr && decide (fld a.data 8 24 = 0x500002) &&
        !bit (s.reg (pg 0x50) 0x4C) 29)
  | _ => false

/-- Serve an access: its answer, or none while another node has it or the port is dark. -/
def State.serve (s : State) (a : Access) (back : Option (Nat × BitVec 16 × BitVec 16)) : Option (Resp × Word) × State :=
  let t := s.target back.isSome a.addr.toNat
  let bad := decide (a.addr.toNat % 4 ≠ 0) || decide (a.be ≠ 0xF)
  if s.dark then (none, s)
  else if bad then
    match t with
    | .page key _ _ => let r := s.turnAway key .error; (some r.1, r.2)
    | _ => (some (.error, 0), s)
  else if t = .nowhere then (some (.error, 0), s)
  else if !s.awake && !s.dozeAnswers a t then
    (some (.retry, 0), if bit (s.reg (pg 0x50) 0x4C) 29 then s.wakeSrc 5 else s)
  else
    let s := if s.awake then s.hostWakes.busyNow else s
    match t with
    | .page key page off =>
      if !s.chanOpen (.subsystem page) then (some (.retry, 0), s)
      else
        let r := s.pageAccess key page off a
        (some r.1, r.2)
    | .forward dest addr => s.proxySend dest addr a back
    | .nowhere => (some (.error, 0), s)
    | .moved => (some (.retry, 0), s)

/-- Requests of the host port that have no answer yet (R509). -/
def State.hostWaits (s : State) : Nat :=
  (s.links.proxies.filter fun e => match e.2 with
    | some t => decide (t.req.port = .host) && t.back.isNone && !t.dead
    | none => false).length

/-- An access at a port of the block, with its answer. The host port takes no request while 64 have no answer (R509). -/
def State.access (s : State) (a : Access) : State :=
  if a.req.port = .host ∧ (64 ≤ s.hostWaits ∨ s.chanOpen (.converter .host 0) = false) then s
  else match s.serve a none with
    | (some (r, d), t) => t.respond a.req r d
    | (none, t) => t

/-! ### The rows -/

/-- REGISTER_WRITE (R61). -/
def execRegisterWrite (a : Access) (s : State) : Host.Outcome State Fault Refusal := finish (s.access a)
/-- GUARD_ARM (R73). -/
def execGuardArm (a : Access) (s : State) : Host.Outcome State Fault Refusal := finish (s.access a)
/-- GUARD_COMMIT (R73). -/
def execGuardCommit (a : Access) (s : State) : Host.Outcome State Fault Refusal := finish (s.access a)
/-- WIDE_CAPTURE (R76). -/
def execWideCapture (a : Access) (s : State) : Host.Outcome State Fault Refusal := finish (s.access a)
/-- WIDE_WRITE_COMMIT (R76). -/
def execWideWriteCommit (a : Access) (s : State) : Host.Outcome State Fault Refusal := finish (s.access a)
/-- SNAP_TAKE (R77). -/
def execSnapTake (a : Access) (s : State) : Host.Outcome State Fault Refusal := finish (s.access a)
/-- UNITWIN_ACCESS (R79). -/
def execUnitwinAccess (a : Access) (s : State) : Host.Outcome State Fault Refusal := finish (s.access a)
/-- RING_RPTR_WRITE (R534). -/
def execRingRptrWrite (a : Access) (s : State) : Host.Outcome State Fault Refusal := finish (s.access a)
/-- RING_SIZE_WRITE (R534). -/
def execRingSizeWrite (a : Access) (s : State) : Host.Outcome State Fault Refusal := finish (s.access a)
/-- CMD_LOCK (R82). -/
def execCmdLock (a : Access) (s : State) : Host.Outcome State Fault Refusal := finish (s.access a)
/-- CMD_DONE_CLEAR (R80). -/
def execCmdDoneClear (a : Access) (s : State) : Host.Outcome State Fault Refusal := finish (s.access a)
/-- CMD_REJECT (R80). -/
def execCmdReject (a : Access) (s : State) : Host.Outcome State Fault Refusal := finish (s.access a)
/-- PROXY_REQUEST (R64). -/
def execProxyRequest (a : Access) (s : State) : Host.Outcome State Fault Refusal := finish (s.access a)
/-- PROXY_WRITE (R87). -/
def execProxyWrite (a : Access) (s : State) : Host.Outcome State Fault Refusal := finish (s.access a)
/-- SLOT_CAPTURE (R152). -/
def execSlotCapture (a : Access) (s : State) : Host.Outcome State Fault Refusal := finish (s.access a)
/-- QP_WRITE (R159). -/
def execQpWrite (a : Access) (s : State) : Host.Outcome State Fault Refusal := finish (s.access a)
/-- FTAB_WRITE (R201). -/
def execFtabWrite (a : Access) (s : State) : Host.Outcome State Fault Refusal := finish (s.access a)
/-- KERNEL_WRITE (R208). -/
def execKernelWrite (a : Access) (s : State) : Host.Outcome State Fault Refusal := finish (s.access a)
/-- EPOCH_BASE_WRITE (R250). -/
def execEpochBaseWrite (a : Access) (s : State) : Host.Outcome State Fault Refusal := finish (s.access a)
/-- REFCLK_WRITE (R518). -/
def execRefclkWrite (a : Access) (s : State) : Host.Outcome State Fault Refusal := finish (s.access a)
/-- LOG_CAPTURE (R423). -/
def execLogCapture (a : Access) (s : State) : Host.Outcome State Fault Refusal := finish (s.access a)
/-- PACE_HSTO_WRITE (R48). -/
def execPaceHstoWrite (a : Access) (s : State) : Host.Outcome State Fault Refusal := finish (s.access a)
/-- PACKAGE_WINDOW_REQUEST (R17). -/
def execPackageWindowRequest (a : Access) (s : State) : Host.Outcome State Fault Refusal := finish (s.access a)
/-- ROT_CTRL_RESET (R504). -/
def execRotCtrlReset (a : Access) (s : State) : Host.Outcome State Fault Refusal := finish (s.access a)

/-- GUARD_EXPIRE: the latch of a page is discarded at the eighth slow tick after arming (R74). -/
def execGuardExpire (page : Nat) (s : State) : Host.Outcome State Fault Refusal :=
  finish (match (s.hdr page).guard with
    | some g => s.latchDrop page g 2
    | none => s)

/-- PROXY_REQ: a proxy request by link is executed at its target window, and answered (R64, R268, R479). -/
def execProxyReq (port : Nat) (src tag : BitVec 16) (addr : BitVec 24) (wr : Bool) (data : Word) (priv : BitVec 2) (rid : Byte)
    (job : BitVec 16) (s : State) : Host.Outcome State Fault Refusal :=
  finish (match s.serve { addr, be := 0xF, wr, data, req := { port := .proxy, priv, job, rid } } (some (port, src, tag)) with
    | (some (r, d), t) => t.proxyRsp port src tag r d
    | (none, t) => t)

/-! ### KX_ACCESS (R472) and REG_ACCESS (R498) -/

/-- The requester that the TAP is: OPERATOR, or FIRMWARE while a token with SOURCES bit 4 is held. -/
def State.tapReq (s : State) : Req :=
  { port := .tap, priv := if s.trace.token.any (fun t => t.sources.toNat.testBit 4) then 2 else 1, job := 0, rid := 0xFE }

/-- What a capture shows: the response to the previous access; within 1 µs of Update-DR the one before. -/
def State.tapShows (s : State) : Resp × Word := if s.now < s.tap.at' + us then s.tap.prev else s.tap.last

/-- A scan of KX_ACCESS: the capture leaves on TDO, and Update-DR with GO performs an access. -/
def State.kxAccess (s : State) (dr : BitVec 60) : State :=
  if !s.tapActs then s.tdo 60 0
  else
    let shows := s.tapShows
    let s := s.tdo 60 (shows.1.code * 2 ^ 58 + shows.2.toNat)
    if bit dr 59 then
      (s.modTap fun t => { t with prev := shows, at' := s.now }).access
        { addr := BitVec.ofNat 24 (fld dr 32 24), be := 0xF, wr := bit dr 58, data := BitVec.ofNat 32 (fld dr 0 32), req := s.tapReq }
    else s

def execKxAccess (dr : BitVec 60) (s : State) : Host.Outcome State Fault Refusal := finish (s.kxAccess dr)

/-- One entry of REG_ACCESS at tag ROT; a window of another node is not reached from the RoT (DESIGN CHOICE): ERROR. -/
def State.regEntry (s : State) (e : RegEntry) : (Resp × Word) × State :=
  let q : Req := { port := .rot, priv := 3, job := 0, rid := 0xFD }
  match s.target false e.addr.toNat with
  | .page key page off => s.pageAccess key page off { addr := e.addr, be := 0xF, wr := e.wr, data := e.data, req := q }
  | _ => ((.error, 0), s)

/-- REG_ACCESS: 1 to 32 entries in order; each answers its response code and read data (R498). -/
def execRegAccess (m : SpdmIn) (entries : List RegEntry) (s : State) : Host.Outcome State Fault Refusal :=
  finish (s.vendorTake m fun s =>
    if entries = [] ∨ 32 < entries.length then s.spdmError m .invalidRequest
    else
      let r := entries.foldl (fun (a : List Byte × State) e =>
        let x := a.2.regEntry e
        (a.1 ++ [BitVec.ofNat 8 x.1.1.code, 0, 0, 0] ++ leBytes 4 x.1.2.toNat, x.2)) ([], s)
      r.2.vendorSend m 0 r.1)

end Sys2Proof.Machine
end

