-- ==== Sys2Proof/Machine/Tick.lean ====
section
/-!
DEFINITION. The slow tick (R57): fleet time reaches its instant, the shadow registers take their new values, intervals
counted in ticks advance, token buckets fill, and what the other subsystems do once per tick is done.
-/
namespace Sys2Proof.Machine

/-- The next tick: with fleet time locked, on a whole microsecond of it; else one period after the last. A tick is not
earlier than what has happened (R57). -/
def State.nextTick (s : State) : FT :=
  if !s.unlocked && s.time.running && !s.dark then
    let t := (s.tick / us + 1) * us
    if t < s.now then ceilDiv s.now us * us else t
  else
    let t := s.tick + us
    if t < s.now then s.tick + ceilDiv (s.now - s.tick) us * us else t

/-! ### Pace registers (R52 to R55, R58) -/

/-- Nearest integer to a quotient, halves upward. -/
def roundDiv (a b : Int) : Int := if b < 0 then floorDiv (2 * (-a) - b) (2 * -b) else floorDiv (2 * a + b) (2 * b)

/-- The point in mV and 1/16 °C that a region's ring counts stand for, by its calibration: the two linear laws of the rings
solved together; none where they do not determine it (R54). -/
def ringPoint (c : RingCal) (v t : Nat) : Option (Int × Int) :=
  let det := c.vMv * c.tT - c.vT * c.tMv
  let dv := 100 * (v : Int) - c.v0
  let dt := 100 * (t : Int) - c.t0
  if det = 0 then none
  else some (750 + roundDiv (dv * c.tT - c.vT * dt) det, 400 + roundDiv (16 * (c.vMv * dt - c.tMv * dv)) det)

/-- KX_PACE_EST of a region, from its ring counts. -/
def State.estimate (s : State) (r v t : Nat) : Word × State :=
  match ringPoint (Tab.read RingCal.typical s.pace.cal r) v t with
  | some (mv, c) => (word ((clampInt 0 4095 mv).toNat * 2 ^ 16 + unsgn 12 (clampInt (-2048) 2047 c)), s)
  | none => let f := s.draw 32; (f.1 &&& 0x0FFF0FFF, f.2)

/-- Stage time in ps of a region whose V ring counts `v` in 1 µs: 550 ps at 1,000 (R45, R54). -/
def stagePs (v : Nat) : Nat := if v = 0 then 0xFFFF else min 0xFFFF ((550000 + v / 2) / v)

/-- The slowest region: the lowest-numbered one with the longest stage time. -/
def slowest : List (Nat × Nat) → Nat × Nat
  | [] => (0, 0)
  | (r, p) :: t => let m := slowest t; if m.2 ≤ p then (r, p) else m

/-- Regions whose rings run: not ABSENT, not under reset (R58). -/
def State.ringsRun (s : State) (r : Nat) : Bool := !(s.region r).absent && !(s.region r).inReset

/-- KX_PACE_RING, KX_PACE_EST and KX_PACE_SPEED. -/
def State.ringTick (s : State) (rings : List (Nat × Nat)) : State :=
  let live := (List.range (min 16 rings.length)).filter s.ringsRun
  let s := live.foldl (fun s r =>
    let x := rings.getD r (0, 0)
    let s := s.setReg (pg 0x02) (0x80 + 4 * r) (word (x.2 % 2 ^ 16 * 2 ^ 16 + x.1 % 2 ^ 16))
    let e := s.estimate r (x.1 % 2 ^ 16) (x.2 % 2 ^ 16)
    e.2.setReg (pg 0x02) (0xC0 + 4 * r) e.1) s
  if live = [] then s
  else
    let m := slowest (live.map fun r => (r, stagePs ((rings.getD r (0, 0)).1 % 2 ^ 16)))
    s.setReg (pg 0x02) 0x54 (word (m.2 * 2 ^ 16 + m.1 * 2 ^ 12 + min 0xFFF (m.2 * 256 / 550)))

/-- KX_PACE_NCLK0 to 2; a class above 1,600 MHz whose field selects two flops goes back to three at its next port reset, and
SYNC_REJ is set (R52). -/
def State.clockTick (s : State) (clocks : List Nat) : State :=
  (List.range (min 6 clocks.length)).foldl (fun s k =>
    let v := min 0xFFF (clocks.getD k 0)
    let s := s.setRegFld (pg 0x02) (0x48 + 4 * (k / 2)) (16 * (k % 2)) 12 v
    if 1600 < v ∧ s.regFld (pg 0x02) 0x40 (2 * k) 2 = 2 then
      (s.setRegFld (pg 0x02) 0x40 (2 * k) 2 3).paceFault 2
    else s) s

/-! ### Shadows, latches and lines -/

/-- Shadow registers of the checker and the mirror (R57). -/
def State.shadows (s : State) : State :=
  let s := s.setReg (pg 0x28) 0x58 (word s.katAge)
  if s.isSystem then s.setReg (pg 0x92) 0x48 (word (min s.mirrorLag 0xFFFFFFFF))
  else s.setReg (pg 0x58) 0x80 (word (min s.mirrorLag 0xFFFFFFFF))

/-- Armed guard latches age (R73). -/
def State.guardTick (s : State) : State :=
  let f (h : Header) : Header := { h with guard := h.guard.map fun g => { g with ticks := g.ticks + 1 } }
  { s with pages := { s.pages with hdr := s.pages.hdr.map fun e => (e.1, f e.2) } }

/-- Interrupt lines that have lost their last cause rise (R85). -/
def State.lineTick (s : State) : State :=
  { s with pages := { s.pages with irq := linesOf s.pages.cmds s.pages.hdr } }

/-- What runs on supplies of the hub and of the other domains. -/
def State.hubTick (s : State) (m : TickIn) : State :=
  let s := (s.clockTick m.clocks).ringTick m.rings
  let vs := (List.range (min 16 m.rings.length)).map fun r => if s.ringsRun r then (m.rings.getD r (0, 0)).1 % 2 ^ 16 else 0
  let s := (((s.watchTick.headTick).quarantineLost).relockReport).linkTick
  let s := ((((s.hpTick vs).alertTick).bcastDelayed).mirrorTick).traceTick
  ((((s.commitTick).hostTick).swapCheck).shadows)

/-- The readings and the words of BPWR that RS registers show until the next tick (R57). -/
def State.rsTick (s : State) : State :=
  let s := s.modHp fun h => { h with shown := Tab.writeAll natZero (fun ch _ => ((s.sensor ch).raw.getD 0).toNat) (List.range 64) h.shown }
  s.modBpwr fun b => { b with shown :=
    [(0x54, s.reg bpPage 0x54), (0x58, s.reg bpPage 0x58), (0x60, setFld (s.reg bpPage 0x60) 28 4 b.pg.toNat)] }

/-- A shared resource is free: the packer, the unpacker, the parent swap (R83). -/
def State.resourceFree (s : State) (k : Nat) : Bool :=
  match k with
  | 0 => s.sinter.pack.isNone
  | 1 => s.sinter.unpack.isNone
  | _ => s.links.swapWait.isNone

/-- The oldest command that waits for a free resource has its effect (R83). -/
def State.resourceServe (s : State) : State :=
  (List.range 3).foldl (fun s k => match s.waiters fun w => decide (w = .event 39 k) with
    | p :: _ => if s.resourceFree k then s.commandGoesOn p else s
    | [] => s) s

/-- SLOW_TICK (R57): the ring counts of the regions over the last interval, and the highest clock of each class. -/
def execSlowTick (m : TickIn) (s : State) : Host.Outcome State Fault Refusal :=
  finish (
    let t := s.nextTick
    let s : State := { s with now := max s.now t, tick := t, ticks := s.ticks + 1 }
    let s := s.timeTick
    let s := if s.dark then s else s.hubTick m
    let s := if s.isSystem then s.boardTick else s.tripTick
    let s := if s.awake then s.linkPorts.foldl State.settleLink s else s
    let s := s.aonCopy.idleTick.resourceServe
    (s.setReg (pg 0x50) 0x40 s.bpwrStat).rsTick.guardTick.lineTick)

end Sys2Proof.Machine
end

