-- ==== Sys2Proof/Machine/Dispatch.lean ====
section
/-!
DEFINITION. One arm for each command, in the table's order.
-/
namespace Sys2Proof.Machine

def exec (i : Instr) (s : State) : Host.Outcome State Fault Refusal :=
  match i with
  | .headElection reports => Sys2Proof.Machine.execHeadElection reports s
  | .headKeepaliveSend => Sys2Proof.Machine.execHeadKeepaliveSend s
  | .headLost => Sys2Proof.Machine.execHeadLost s
  | .packageWindowRequest a => Sys2Proof.Machine.execPackageWindowRequest a s
  | .concSelfchkFail cluster => Sys2Proof.Machine.execConcSelfchkFail cluster s
  | .regionConcFail region => Sys2Proof.Machine.execRegionConcFail region s
  | .codeErr ch => Sys2Proof.Machine.execCodeErr ch s
  | .arrayAccessTimeout u second holds => Sys2Proof.Machine.execArrayAccessTimeout u second holds s
  | .hsTimeout ch phase => Sys2Proof.Machine.execHsTimeout ch phase s
  | .slowTick m => Sys2Proof.Machine.execSlowTick m s
  | .paceHstoWrite a => Sys2Proof.Machine.execPaceHstoWrite a s
  | .registerWrite a => Sys2Proof.Machine.execRegisterWrite a s
  | .guardArm a => Sys2Proof.Machine.execGuardArm a s
  | .guardCommit a => Sys2Proof.Machine.execGuardCommit a s
  | .guardExpire page => Sys2Proof.Machine.execGuardExpire page s
  | .wideCapture a => Sys2Proof.Machine.execWideCapture a s
  | .wideWriteCommit a => Sys2Proof.Machine.execWideWriteCommit a s
  | .snapTake a => Sys2Proof.Machine.execSnapTake a s
  | .unitwinAccess a => Sys2Proof.Machine.execUnitwinAccess a s
  | .ringRptrWrite a => Sys2Proof.Machine.execRingRptrWrite a s
  | .ringSizeWrite a => Sys2Proof.Machine.execRingSizeWrite a s
  | .cmdLock a => Sys2Proof.Machine.execCmdLock a s
  | .cmdDoneClear a => Sys2Proof.Machine.execCmdDoneClear a s
  | .cmdReject a => Sys2Proof.Machine.execCmdReject a s
  | .nop c => Sys2Proof.Machine.execNop c s
  | .echo c => Sys2Proof.Machine.execEcho c s
  | .proxyRequest a => Sys2Proof.Machine.execProxyRequest a s
  | .proxyWrite a => Sys2Proof.Machine.execProxyWrite a s
  | .unitEdge probe st reason evt cmdStart => Sys2Proof.Machine.execUnitEdge probe st reason evt cmdStart s
  | .counterReset probe => Sys2Proof.Machine.execCounterReset probe s
  | .epochClose ties stuck => Sys2Proof.Machine.execEpochClose ties stuck s
  | .epochOrigin stuck => Sys2Proof.Machine.execEpochOrigin stuck s
  | .recordDeliver probe => Sys2Proof.Machine.execRecordDeliver probe s
  | .concCommit cluster => Sys2Proof.Machine.execConcCommit cluster s
  | .setEpoch c => Sys2Proof.Machine.execSetEpoch c s
  | .probeReset c => Sys2Proof.Machine.execProbeReset c s
  | .clearTotals c => Sys2Proof.Machine.execClearTotals c s
  | .forceAdopt c => Sys2Proof.Machine.execForceAdopt c s
  | .geyserArm c => Sys2Proof.Machine.execGeyserArm c s
  | .geyserStop c => Sys2Proof.Machine.execGeyserStop c s
  | .geyserSample => Sys2Proof.Machine.execGeyserSample s
  | .geyserTrigger t => Sys2Proof.Machine.execGeyserTrigger t s
  | .partialMsg src p => Sys2Proof.Machine.execPartialMsg src p s
  | .partialAck slot window => Sys2Proof.Machine.execPartialAck slot window s
  | .mergeWaitExpire slot window => Sys2Proof.Machine.execMergeWaitExpire slot window s
  | .slotCapture a => Sys2Proof.Machine.execSlotCapture a s
  | .qpWrite a => Sys2Proof.Machine.execQpWrite a s
  | .redLoad c => Sys2Proof.Machine.execRedLoad c s
  | .redActivate c => Sys2Proof.Machine.execRedActivate c s
  | .redClearSlot c => Sys2Proof.Machine.execRedClearSlot c s
  | .redCopySlot c => Sys2Proof.Machine.execRedCopySlot c s
  | .redDump c => Sys2Proof.Machine.execRedDump c s
  | .batchStart engine => Sys2Proof.Machine.execBatchStart engine s
  | .inferenceIssue engine => Sys2Proof.Machine.execInferenceIssue engine s
  | .verdictOut engine => Sys2Proof.Machine.execVerdictOut engine s
  | .scrubRow engine bank bad stuck => Sys2Proof.Machine.execScrubRow engine bank bad stuck s
  | .bankMove engine bank => Sys2Proof.Machine.execBankMove engine bank s
  | .tcamRewrite engine => Sys2Proof.Machine.execTcamRewrite engine s
  | .forestLoad c => Sys2Proof.Machine.execForestLoad c s
  | .forestActivate c => Sys2Proof.Machine.execForestActivate c s
  | .forestScore c => Sys2Proof.Machine.execForestScore c s
  | .forestDump c => Sys2Proof.Machine.execForestDump c s
  | .ftabLoad c => Sys2Proof.Machine.execFtabLoad c s
  | .ftabSeal c => Sys2Proof.Machine.execFtabSeal c s
  | .ftabActivate c => Sys2Proof.Machine.execFtabActivate c s
  | .ftabCopy c => Sys2Proof.Machine.execFtabCopy c s
  | .ftabWrite a => Sys2Proof.Machine.execFtabWrite a s
  | .tileReport probe words last => Sys2Proof.Machine.execTileReport probe words last s
  | .katStart => Sys2Proof.Machine.execKatStart s
  | .testAck probe => Sys2Proof.Machine.execTestAck probe s
  | .signatureReport probe words => Sys2Proof.Machine.execSignatureReport probe words s
  | .katTimeout => Sys2Proof.Machine.execKatTimeout s
  | .poison bytes => Sys2Proof.Machine.execPoison bytes s
  | .poisonAck seq loc => Sys2Proof.Machine.execPoisonAck seq loc s
  | .poisonResend seq loc => Sys2Proof.Machine.execPoisonResend seq loc s
  | .kernelWrite a => Sys2Proof.Machine.execKernelWrite a s
  | .checkRegister c => Sys2Proof.Machine.execCheckRegister c s
  | .checkUnregister c => Sys2Proof.Machine.execCheckUnregister c s
  | .checkPoison c => Sys2Proof.Machine.execCheckPoison c s
  | .katRun c => Sys2Proof.Machine.execKatRun c s
  | .fence c => Sys2Proof.Machine.execFence c s
  | .unfence c => Sys2Proof.Machine.execUnfence c s
  | .checkClearStats c => Sys2Proof.Machine.execCheckClearStats c s
  | .ptpSync port m ts => Sys2Proof.Machine.execPtpSync port m ts s
  | .ptpFollowUp port m => Sys2Proof.Machine.execPtpFollowUp port m s
  | .ptpDelayReq port m ts => Sys2Proof.Machine.execPtpDelayReq port m ts s
  | .ptpDelayResp port m => Sys2Proof.Machine.execPtpDelayResp port m s
  | .ptpAnnounce port m ann => Sys2Proof.Machine.execPtpAnnounce port m ann s
  | .syncSend port ts => Sys2Proof.Machine.execSyncSend port ts s
  | .delayReqSend port ts => Sys2Proof.Machine.execDelayReqSend port ts s
  | .announceTimer port => Sys2Proof.Machine.execAnnounceTimer port s
  | .tslost port delay => Sys2Proof.Machine.execTslost port delay s
  | .lockStep => Sys2Proof.Machine.execLockStep s
  | .syncTimeout => Sys2Proof.Machine.execSyncTimeout s
  | .relockStep => Sys2Proof.Machine.execRelockStep s
  | .ppsInEdge ts => Sys2Proof.Machine.execPpsInEdge ts s
  | .ppsOutPulse => Sys2Proof.Machine.execPpsOutPulse s
  | .epochBaseWrite a => Sys2Proof.Machine.execEpochBaseWrite a s
  | .refclkWrite a => Sys2Proof.Machine.execRefclkWrite a s
  | .timeRelock c => Sys2Proof.Machine.execTimeRelock c s
  | .timeSet c => Sys2Proof.Machine.execTimeSet c s
  | .timeHold c => Sys2Proof.Machine.execTimeHold c s
  | .frameReceive port => Sys2Proof.Machine.execFrameReceive port s
  | .codewordReceive port lanes => Sys2Proof.Machine.execCodewordReceive port lanes s
  | .linkCtrl chan dst ack m => Sys2Proof.Machine.execLinkCtrl chan dst ack m s
  | .ackTimer chan => Sys2Proof.Machine.execAckTimer chan s
  | .creditReturn chan => Sys2Proof.Machine.execCreditReturn chan s
  | .keepaliveSend chan => Sys2Proof.Machine.execKeepaliveSend chan s
  | .partnerLost chan phy => Sys2Proof.Machine.execPartnerLost chan phy s
  | .linkUp port => Sys2Proof.Machine.execLinkUp port s
  | .trainTs1 port lanes => Sys2Proof.Machine.execTrainTs1 port lanes s
  | .trainTs2 b => Sys2Proof.Machine.execTrainTs2 b s
  | .trainTimeout port => Sys2Proof.Machine.execTrainTimeout port s
  | .alignmentMarker port lanes => Sys2Proof.Machine.execAlignmentMarker port lanes s
  | .ucieAlign port chunk => Sys2Proof.Machine.execUcieAlign port chunk s
  | .ucieActiveChange port active => Sys2Proof.Machine.execUcieActiveChange port active s
  | .ucieRepair port lane => Sys2Proof.Machine.execUcieRepair port lane s
  | .laneFail port lane => Sys2Proof.Machine.execLaneFail port lane s
  | .swapRepeat port => Sys2Proof.Machine.execSwapRepeat port s
  | .laneSwitch port tx => Sys2Proof.Machine.execLaneSwitch port tx s
  | .linkResetEvent port => Sys2Proof.Machine.execLinkResetEvent port s
  | .frameSelect port => Sys2Proof.Machine.execFrameSelect port s
  | .frameEnqueue port => Sys2Proof.Machine.execFrameEnqueue port s
  | .ethernetFrame port bytes => Sys2Proof.Machine.execEthernetFrame port bytes s
  | .gateSwitch port => Sys2Proof.Machine.execGateSwitch port s
  | .parentChange port => Sys2Proof.Machine.execParentChange port s
  | .proxyReq port src tag addr wr data priv rid job => Sys2Proof.Machine.execProxyReq port src tag addr wr data priv rid job s
  | .proxyRsp port tag rsp data => Sys2Proof.Machine.execProxyRsp port tag rsp data s
  | .proxyTimeout tag => Sys2Proof.Machine.execProxyTimeout tag s
  | .linkReset c => Sys2Proof.Machine.execLinkReset c s
  | .gateSet c => Sys2Proof.Machine.execGateSet c s
  | .parentSwap c => Sys2Proof.Machine.execParentSwap c s
  | .laneRetire c => Sys2Proof.Machine.execLaneRetire c s
  | .linkStatsClear c => Sys2Proof.Machine.execLinkStatsClear c s
  | .sinterEncodeBlock => Sys2Proof.Machine.execSinterEncodeBlock s
  | .sinterDecodeBlock => Sys2Proof.Machine.execSinterDecodeBlock s
  | .sinterPack c => Sys2Proof.Machine.execSinterPack c s
  | .sinterUnpack c => Sys2Proof.Machine.execSinterUnpack c s
  | .bcast port b => Sys2Proof.Machine.execBcast port b s
  | .bcastAck a => Sys2Proof.Machine.execBcastAck a s
  | .bcastAckSend origin seq => Sys2Proof.Machine.execBcastAckSend origin seq s
  | .pendingExpire origin seq => Sys2Proof.Machine.execPendingExpire origin seq s
  | .jobRelease job => Sys2Proof.Machine.execJobRelease job s
  | .jobStart c => Sys2Proof.Machine.execJobStart c s
  | .jobEnd c => Sys2Proof.Machine.execJobEnd c s
  | .stepMark c => Sys2Proof.Machine.execStepMark c s
  | .jobLiveness c => Sys2Proof.Machine.execJobLiveness c s
  | .runtimeSet c => Sys2Proof.Machine.execRuntimeSet c s
  | .stepPartial src p => Sys2Proof.Machine.execStepPartial src p s
  | .stepWaitExpire job step => Sys2Proof.Machine.execStepWaitExpire job step s
  | .heartbeat src b => Sys2Proof.Machine.execHeartbeat src b s
  | .livenessCheck => Sys2Proof.Machine.execLivenessCheck s
  | .notice bytes => Sys2Proof.Machine.execNotice bytes s
  | .verifyDecision result => Sys2Proof.Machine.execVerifyDecision result s
  | .powerDecision => Sys2Proof.Machine.execPowerDecision s
  | .fcAck => Sys2Proof.Machine.execFcAck s
  | .fcGoAck => Sys2Proof.Machine.execFcGoAck s
  | .vidAck => Sys2Proof.Machine.execVidAck s
  | .pmbusVoutPoll mv => Sys2Proof.Machine.execPmbusVoutPoll mv s
  | .vfault => Sys2Proof.Machine.execVfault s
  | .kCorrection iout => Sys2Proof.Machine.execKCorrection iout s
  | .droopDetect r halfFs => Sys2Proof.Machine.execDroopDetect r halfFs s
  | .droopClear r halvesFs => Sys2Proof.Machine.execDroopClear r halvesFs s
  | .droopHoldEnd r => Sys2Proof.Machine.execDroopHoldEnd r s
  | .sustainedDroop r => Sys2Proof.Machine.execSustainedDroop r s
  | .alertN low status => Sys2Proof.Machine.execAlertN low status s
  | .sensorReading ch val => Sys2Proof.Machine.execSensorReading ch val s
  | .sensorQuiet ch => Sys2Proof.Machine.execSensorQuiet ch s
  | .waveRelease => Sys2Proof.Machine.execWaveRelease s
  | .hpwrSetCap c => Sys2Proof.Machine.execHpwrSetCap c s
  | .hpwrResume c => Sys2Proof.Machine.execHpwrResume c s
  | .hpwrTripClear c => Sys2Proof.Machine.execHpwrTripClear c s
  | .hpwrRailClear c => Sys2Proof.Machine.execHpwrRailClear c s
  | .barrier c => Sys2Proof.Machine.execBarrier c s
  | .idleTimerDoze => Sys2Proof.Machine.execIdleTimerDoze s
  | .idleTimerEmber => Sys2Proof.Machine.execIdleTimerEmber s
  | .bpwrEnter c => Sys2Proof.Machine.execBpwrEnter c s
  | .subsystemAnswer sub => Sys2Proof.Machine.execSubsystemAnswer sub s
  | .entryTimeout => Sys2Proof.Machine.execEntryTimeout s
  | .wake periods => Sys2Proof.Machine.execWake periods s
  | .wakeN => Sys2Proof.Machine.execWakeN s
  | .wakeLead => Sys2Proof.Machine.execWakeLead s
  | .emberWakeTimer => Sys2Proof.Machine.execEmberWakeTimer s
  | .wickCycle running => Sys2Proof.Machine.execWickCycle running s
  | .supplyGood r refclk => Sys2Proof.Machine.execSupplyGood r refclk s
  | .brownout r => Sys2Proof.Machine.execBrownout r s
  | .pinReset => Sys2Proof.Machine.execPinReset s
  | .rotReset => Sys2Proof.Machine.execRotReset s
  | .bistDone b => Sys2Proof.Machine.execBistDone b s
  | .refclkLoss => Sys2Proof.Machine.execRefclkLoss s
  | .bpwrReset c => Sys2Proof.Machine.execBpwrReset c s
  | .warmReset => Sys2Proof.Machine.execWarmReset s
  | .packageReset => Sys2Proof.Machine.execPackageReset s
  | .regionReset region rot => Sys2Proof.Machine.execRegionReset region rot s
  | .regionResetEnd region => Sys2Proof.Machine.execRegionResetEnd region s
  | .transactionRetire tag => Sys2Proof.Machine.execTransactionRetire tag s
  | .bpwrWickTest c => Sys2Proof.Machine.execBpwrWickTest c s
  | .logWrite => Sys2Proof.Machine.execLogWrite s
  | .event bytes => Sys2Proof.Machine.execEvent bytes s
  | .logCapture a => Sys2Proof.Machine.execLogCapture a s
  | .patrolRead u stored valid holds => Sys2Proof.Machine.execPatrolRead u stored valid holds s
  | .mirror src bytes => Sys2Proof.Machine.execMirror src bytes s
  | .mirrorUpdate item => Sys2Proof.Machine.execMirrorUpdate item s
  | .fumDump c => Sys2Proof.Machine.execFumDump c s
  | .fumClear c => Sys2Proof.Machine.execFumClear c s
  | .fumWrite c => Sys2Proof.Machine.execFumWrite c s
  | .stateCkpt c => Sys2Proof.Machine.execStateCkpt c s
  | .stateRestore c => Sys2Proof.Machine.execStateRestore c s
  | .statePull c => Sys2Proof.Machine.execStatePull c s
  | .stateDigests c => Sys2Proof.Machine.execStateDigests c s
  | .tracePacketPlace probe => Sys2Proof.Machine.execTracePacketPlace probe s
  | .traceSyncTimer => Sys2Proof.Machine.execTraceSyncTimer s
  | .traceStallLimit ring => Sys2Proof.Machine.execTraceStallLimit ring s
  | .trace src bytes => Sys2Proof.Machine.execTrace src bytes s
  | .traceSessionStart => Sys2Proof.Machine.execTraceSessionStart s
  | .traceSessionStop => Sys2Proof.Machine.execTraceSessionStop s
  | .trigIn line rising ts => Sys2Proof.Machine.execTrigIn line rising ts s
  | .trigOutPulse line => Sys2Proof.Machine.execTrigOutPulse line s
  | .trigOutEnd line => Sys2Proof.Machine.execTrigOutEnd line s
  | .traceStart c => Sys2Proof.Machine.execTraceStart c s
  | .traceStop c => Sys2Proof.Machine.execTraceStop c s
  | .traceMark c => Sys2Proof.Machine.execTraceMark c s
  | .traceAuth c => Sys2Proof.Machine.execTraceAuth c s
  | .snuffInN low => Sys2Proof.Machine.execSnuffInN low s
  | .snuffCut => Sys2Proof.Machine.execSnuffCut s
  | .stopAck probe edges => Sys2Proof.Machine.execStopAck probe edges s
  | .snuffClearApply => Sys2Proof.Machine.execSnuffClearApply s
  | .snuffNow c => Sys2Proof.Machine.execSnuffNow c s
  | .snuffAt c => Sys2Proof.Machine.execSnuffAt c s
  | .snuffClear c => Sys2Proof.Machine.execSnuffClear c s
  | .snuffDump c => Sys2Proof.Machine.execSnuffDump c s
  | .snuffRelease c => Sys2Proof.Machine.execSnuffRelease c s
  | .loopRun c => Sys2Proof.Machine.execLoopRun c s
  | .extest shift pins => Sys2Proof.Machine.execExtest shift pins s
  | .idcode => Sys2Proof.Machine.execIdcode s
  | .samplePreload shift pins => Sys2Proof.Machine.execSamplePreload shift pins s
  | .kxAccess dr => Sys2Proof.Machine.execKxAccess dr s
  | .snuffScan restart => Sys2Proof.Machine.execSnuffScan restart s
  | .funnelRead restart => Sys2Proof.Machine.execFunnelRead restart s
  | .snuffReq v => Sys2Proof.Machine.execSnuffReq v s
  | .bypass shift => Sys2Proof.Machine.execBypass shift s
  | .rotBoot b => Sys2Proof.Machine.execRotBoot b s
  | .measureDone => Sys2Proof.Machine.execMeasureDone s
  | .rehash digest => Sys2Proof.Machine.execRehash digest s
  | .firmwareRehash same => Sys2Proof.Machine.execFirmwareRehash same s
  | .getVersion m => Sys2Proof.Machine.execGetVersion m s
  | .getCapabilities m => Sys2Proof.Machine.execGetCapabilities m s
  | .negotiateAlgorithms m => Sys2Proof.Machine.execNegotiateAlgorithms m s
  | .getDigests m => Sys2Proof.Machine.execGetDigests m s
  | .getCertificate m slot offset length => Sys2Proof.Machine.execGetCertificate m slot offset length s
  | .challenge m slot => Sys2Proof.Machine.execChallenge m slot s
  | .getMeasurements m op signed => Sys2Proof.Machine.execGetMeasurements m op signed s
  | .keyExchange m reqId point => Sys2Proof.Machine.execKeyExchange m reqId point s
  | .finish m root good => Sys2Proof.Machine.execFinish m root good s
  | .spdmHeartbeat m => Sys2Proof.Machine.execSpdmHeartbeat m s
  | .keyUpdate m op => Sys2Proof.Machine.execKeyUpdate m op s
  | .endSession m => Sys2Proof.Machine.execEndSession m s
  | .respondIfReady m token => Sys2Proof.Machine.execRespondIfReady m token s
  | .sessionTimeout id => Sys2Proof.Machine.execSessionTimeout id s
  | .regAccess m entries => Sys2Proof.Machine.execRegAccess m entries s
  | .linkShare m port => Sys2Proof.Machine.execLinkShare m port s
  | .linkInstall m port share chain => Sys2Proof.Machine.execLinkInstall m port share chain s
  | .linkArm m port => Sys2Proof.Machine.execLinkArm m port s
  | .traceToken m sources dests notAfter => Sys2Proof.Machine.execTraceToken m sources dests notAfter s
  | .shareExpire port => Sys2Proof.Machine.execShareExpire port s
  | .spdmXfer c => Sys2Proof.Machine.execSpdmXfer c s
  | .fwStage c => Sys2Proof.Machine.execFwStage c s
  | .fwCommit c => Sys2Proof.Machine.execFwCommit c s
  | .fwAbort c => Sys2Proof.Machine.execFwAbort c s
  | .rotCtrlReset a => Sys2Proof.Machine.execRotCtrlReset a s
  | .hostMemoryResponse tag code last data => Sys2Proof.Machine.execHostMemoryResponse tag code last data s
  | .hostMemoryRetry tag => Sys2Proof.Machine.execHostMemoryRetry tag s
  | .hostResponseAck => Sys2Proof.Machine.execHostResponseAck s
  | .moduleVin mv => Sys2Proof.Machine.execModuleVin mv s
  | .converterPoll words => Sys2Proof.Machine.execConverterPoll words s
  | .presentN low => Sys2Proof.Machine.execPresentN low s
  | .ejectN low c => Sys2Proof.Machine.execEjectN low c s
  | .fenceAck probe => Sys2Proof.Machine.execFenceAck probe s
  | .ppsMiss => Sys2Proof.Machine.execPpsMiss s
  | .refclkReturn => Sys2Proof.Machine.execRefclkReturn s
  | .pinResetRelease straps => Sys2Proof.Machine.execPinResetRelease straps s
  | .warmResetEnd => Sys2Proof.Machine.execWarmResetEnd s
  | .busyReplay chan => Sys2Proof.Machine.execBusyReplay chan s
  | .gateWindowOpen port cls => Sys2Proof.Machine.execGateWindowOpen port cls s
  | .idleWindowTimeout pkg page => Sys2Proof.Machine.execIdleWindowTimeout pkg page s
  | .scoreSlotTimeout pkg page => Sys2Proof.Machine.execScoreSlotTimeout pkg page s
  | .notSynced => Sys2Proof.Machine.execNotSynced s
  | .loopTimeout pkg page => Sys2Proof.Machine.execLoopTimeout pkg page s
  | .noMaster pkg page => Sys2Proof.Machine.execNoMaster pkg page s

end Sys2Proof.Machine
end

