-- ==== Sys2Proof/WellFormed.lean ====
section
/-!
DEFINITION. Which operands a command of the block can carry: indexes within the design's counts (R10, R86), ports that exist
(R253, R259), channels and engines that exist, lists no longer than the signal or the frame that brings them. An operand whose
type admits only what its signal admits needs no check; a register access is answered at every address and lane mask (R59 to
R61), and a command page takes every NARGS (R80).
-/
namespace Sys2Proof

def probeOk (p : Nat) : Bool := decide (p < Config.probes)
def clusterOk (c : Nat) : Bool := decide (c < Config.clusters)
def regionOk (r : Nat) : Bool := decide (r < Config.regions)
def slotOk (n : Nat) : Bool := decide (n < Config.slots)

/-- Ports 0 to 6, 7 and 8 of a die hub; 0 to 31 and 32 to 35 of a KXA-32; 64 to 79 the region links. -/
def portOk (p : Nat) : Bool := decide (p < 36) || (decide (64 ≤ p) && decide (p < 80))

/-- A port's channel, or one of the channels of the peers of Ethernet ports. -/
def chanOk (c : Nat) : Bool := portOk c || (decide (256 ≤ c) && decide (c < 512))

/-- A forest engine, and a bank with the spare (R157, R196). -/
def engineOk (e : Nat) : Bool := decide (e < 16)
def bankOk (b : Nat) : Bool := decide (b ≤ 64)

/-- Outstanding tags (R268). -/
def tagOk (t : Nat) : Bool := decide (t < 65536)

/-- The payload of a KX frame, and an Ethernet frame (R255, R516). -/
def payloadOk (bs : List Byte) : Bool := decide (bs.length ≤ 1056)
def ethernetOk (bs : List Byte) : Bool := decide (bs.length ≤ 9022)

/-- Lanes of a K-link (R274). -/
def lanesOk (l : List (List Byte)) : Bool := decide (l.length ≤ 5)
def laneOk (n : Nat) : Bool := decide (n < 256)

/-- An FT80 instant (R5). -/
def instantOk (t : Nat) : Bool := decide (t < 2 ^ 80)

/-- Words of a side-channel report (R205). -/
def reportOk (l : List Word) : Bool := decide (l.length ≤ 4096)

/-- Ring counts of at most 16 regions and clocks of at most six classes. -/
def tickOk (m : TickIn) : Bool :=
  decide (m.rings.length ≤ 16) && m.rings.all (fun x => decide (x.1 < 65536) && decide (x.2 < 65536)) && decide (m.clocks.length ≤ 6)

/-- The operands of a command are ones its signals can carry. -/
def Instr.wf : Instr → Bool
  | .headElection reports => decide (reports.length ≤ 8)
  | .concSelfchkFail c | .concCommit c => clusterOk c
  | .regionConcFail r => regionOk r
  | .slowTick m => tickOk m
  | .unitEdge p _ _ _ _ | .counterReset p | .recordDeliver p | .testAck p | .fenceAck p => probeOk p
  | .stopAck p _ => probeOk p
  | .epochClose a b => a.all probeOk && b.all probeOk
  | .epochOrigin b => b.all probeOk
  | .partialAck slot _ | .mergeWaitExpire slot _ => slotOk slot
  | .partialMsg _ p => slotOk p.slot
  | .batchStart e | .inferenceIssue e | .verdictOut e | .tcamRewrite e => engineOk e
  | .scrubRow e b _ _ | .bankMove e b => engineOk e && bankOk b
  | .tileReport p ws _ | .signatureReport p ws => probeOk p && reportOk ws
  | .poison bs | .event bs | .notice bs => payloadOk bs
  | .mirror _ bs | .trace _ bs => payloadOk bs
  | .ptpSync p _ ts | .ptpDelayReq p _ ts | .syncSend p ts | .delayReqSend p ts => portOk p && instantOk ts
  | .ptpFollowUp p _ | .ptpDelayResp p _ | .ptpAnnounce p _ _ | .announceTimer p | .tslost p _ => portOk p
  | .ppsInEdge ts | .trigIn _ _ ts => instantOk ts
  | .trainTs2 b => portOk b.port
  | .frameReceive p | .linkUp p | .trainTimeout p | .swapRepeat p | .linkResetEvent p | .frameSelect p
  | .frameEnqueue p | .gateSwitch p | .parentChange p | .shareExpire p => portOk p
  | .codewordReceive p l | .trainTs1 p l | .alignmentMarker p l => portOk p && lanesOk l
  | .ucieAlign p bs => portOk p && payloadOk bs
  | .ucieActiveChange p _ | .laneSwitch p _ | .bcast p _ | .proxyReq p _ _ _ _ _ _ _ _ | .proxyRsp p _ _ _ => portOk p
  | .ucieRepair p l | .laneFail p l => portOk p && laneOk l
  | .ethernetFrame p bs => portOk p && ethernetOk bs
  | .linkCtrl c _ _ _ | .ackTimer c | .creditReturn c | .keepaliveSend c | .busyReplay c => chanOk c
  | .partnerLost c _ => chanOk c
  | .gateWindowOpen p k => portOk p && decide (k < 8)
  | .proxyTimeout t | .transactionRetire t | .hostMemoryRetry t => tagOk t
  | .hostMemoryResponse t _ _ bs => tagOk t && decide (bs.length ≤ 32)
  | .pmbusVoutPoll mv => mv.all fun v => decide (v < 65536)
  | .kCorrection l => l.all fun x => decide (x.1 < 8) && decide (x.2 < 65536)
  | .droopClear _ l => decide (l.length ≤ 65536)
  | .alertN _ l => decide (l.length ≤ 8)
  | .subsystemAnswer n => decide (n < 12)
  | .mirrorUpdate n => decide (1 ≤ n) && decide (n ≤ 9)
  | .tracePacketPlace p => p.all probeOk
  | .traceStallLimit r => decide (r < 4)
  | .rehash d => decide (d.length = 48)
  | .getCertificate _ slot off len => decide (slot < 8) && decide (off < 65536) && decide (len < 65536)
  | .challenge _ slot => decide (slot < 8)
  | .getMeasurements _ op _ => decide (op < 256)
  | .keyExchange _ _ pt => decide (pt.length = 96)
  | .keyUpdate _ op => decide (op < 256)
  | .regAccess _ l => decide (l.length ≤ 32)
  | .linkShare _ p | .linkArm _ p => portOk p
  | .linkInstall _ p _ _ => portOk p
  | .converterPoll l => decide (l.length ≤ 4)
  | .moduleVin mv => decide (mv < 200000)
  | .headKeepaliveSend | .headLost | .packageWindowRequest _ | .codeErr _ | .arrayAccessTimeout _ _ _
  | .hsTimeout _ _ | .paceHstoWrite _ | .registerWrite _ | .guardArm _ | .guardCommit _ | .guardExpire _
  | .wideCapture _ | .wideWriteCommit _ | .snapTake _ | .unitwinAccess _ | .ringRptrWrite _ | .ringSizeWrite _
  | .cmdLock _ | .cmdDoneClear _ | .cmdReject _ | .nop _ | .echo _ | .proxyRequest _ | .proxyWrite _ | .setEpoch _
  | .probeReset _ | .clearTotals _ | .forceAdopt _ | .geyserArm _ | .geyserStop _ | .geyserSample | .geyserTrigger _
  | .slotCapture _ | .qpWrite _ | .redLoad _ | .redActivate _ | .redClearSlot _ | .redCopySlot _ | .redDump _
  | .forestLoad _ | .forestActivate _ | .forestScore _ | .forestDump _ | .ftabLoad _ | .ftabSeal _ | .ftabActivate _
  | .ftabCopy _ | .ftabWrite _ | .katStart | .katTimeout | .poisonAck _ _ | .poisonResend _ _ | .kernelWrite _
  | .checkRegister _ | .checkUnregister _ | .checkPoison _ | .katRun _ | .fence _ | .unfence _ | .checkClearStats _
  | .lockStep | .syncTimeout | .relockStep | .ppsOutPulse | .epochBaseWrite _ | .refclkWrite _ | .timeRelock _
  | .timeSet _ | .timeHold _ | .linkReset _ | .gateSet _ | .parentSwap _ | .laneRetire _ | .linkStatsClear _
  | .sinterEncodeBlock | .sinterDecodeBlock | .sinterPack _ | .sinterUnpack _ | .bcastAck _ | .bcastAckSend _ _
  | .pendingExpire _ _ | .jobRelease _ | .jobStart _ | .jobEnd _ | .stepMark _ | .jobLiveness _ | .runtimeSet _
  | .stepPartial _ _ | .stepWaitExpire _ _ | .heartbeat _ _ | .livenessCheck | .verifyDecision _ | .powerDecision
  | .fcAck | .fcGoAck | .vidAck | .vfault | .droopDetect _ _ | .droopHoldEnd _ | .sustainedDroop _
  | .sensorReading _ _ | .sensorQuiet _ | .waveRelease | .hpwrSetCap _ | .hpwrResume _ | .hpwrTripClear _
  | .hpwrRailClear _ | .barrier _ | .idleTimerDoze | .idleTimerEmber | .bpwrEnter _ | .entryTimeout | .wake _
  | .wakeN | .wakeLead | .emberWakeTimer | .wickCycle _ | .supplyGood _ _ | .brownout _ | .pinReset | .rotReset
  | .bistDone _ | .refclkLoss | .bpwrReset _ | .warmReset | .packageReset | .regionReset _ _ | .regionResetEnd _
  | .bpwrWickTest _ | .logWrite | .logCapture _ | .patrolRead _ _ _ _ | .fumDump _ | .fumClear _ | .fumWrite _
  | .stateCkpt _ | .stateRestore _ | .statePull _ | .stateDigests _ | .traceSyncTimer | .traceSessionStart
  | .traceSessionStop | .trigOutPulse _ | .trigOutEnd _ | .traceStart _ | .traceStop _ | .traceMark _ | .traceAuth _
  | .snuffInN _ | .snuffCut | .snuffClearApply | .snuffNow _ | .snuffAt _ | .snuffClear _ | .snuffDump _
  | .snuffRelease _ | .loopRun _ | .extest _ _ | .idcode | .samplePreload _ _ | .kxAccess _ | .snuffScan _
  | .funnelRead _ | .snuffReq _ | .bypass _ | .rotBoot _ | .measureDone | .firmwareRehash _ | .getVersion _
  | .getCapabilities _ | .negotiateAlgorithms _ | .getDigests _ | .finish _ _ _ | .spdmHeartbeat _ | .endSession _
  | .respondIfReady _ _ | .sessionTimeout _ | .traceToken _ _ _ _ | .spdmXfer _ | .fwStage _ | .fwCommit _
  | .fwAbort _ | .rotCtrlReset _ | .hostResponseAck | .presentN _ | .ejectN _ _ | .ppsMiss | .refclkReturn
  | .pinResetRelease _ | .warmResetEnd | .idleWindowTimeout _ _ | .scoreSlotTimeout _ _ | .notSynced
  | .loopTimeout _ _ | .noMaster _ _ => true

end Sys2Proof
end

