-- ==== Sys2Proof/Safety.lean ====
section
/-!
DEFINITION. The terms of the claims: a run that never stops, interrupt lines that are held, a command page that takes a command
and what it shows when the command has ended, and a host access that is served.
-/
namespace Sys2Proof.Machine

/-- The block goes on: the outcome is a next state. -/
def goesOn (o : Host.Outcome State Fault Refusal) : Prop := ∃ t, o = .next t

/-- Every page with WIRE and a present cause has its KX_IRQ_N line low (R85). -/
def State.LinesHeld (s : State) : Prop := linesOf s.pages.cmds s.pages.hdr &&& ~~~ s.pages.irq = 0

/-- The block runs, and nothing holds commands back: RUN or IDLE with supplies, firmware running, no Snuff in effect. -/
def State.serving (s : State) : Bool :=
  !s.dark && (decide (s.bpwr.state = .run) || decide (s.bpwr.state = .idle)) && decide (s.rot.state ≠ .recovery) &&
    decide (s.snuff.state ≠ .cut)

/-- The command page of `c` takes a command whose lowest tag is `tag`, and runs it (R80): the block serves, the page answers
OK, NARGS is at most 32 and the tag is high enough. -/
def State.takes (s : State) (c : CmdIn) (tag : Tag) : Bool :=
  s.serving && decide (s.cmdGate c.pkg c.page.toNat c.req = .ok) && decide (c.nargs.toNat ≤ 32) && c.req.tag.atLeast tag

/-- The state in which an accepted command's own effect begins (R80, R385). -/
def State.begun (s : State) (c : CmdIn) (cls op : Nat) : State :=
  s.busyNow.accept c.pkg c.page.toNat c.req (word (cls * 2 ^ 24 + op * 2 ^ 8 + c.nargs.toNat))

/-- The command of `c` has ended with this STATUS and DETAIL: BUSY 0, DONE 1 (R80). -/
def State.ended (t : State) (c : CmdIn) (status : Byte) (detail : Nat) : Prop :=
  (t.cmd c.pkg c.page.toNat).busy = false ∧ (t.cmd c.pkg c.page.toNat).done = true ∧
    (t.cmd c.pkg c.page.toNat).status = status ∧ (t.cmd c.pkg c.page.toNat).detail = BitVec.ofNat 8 detail

/-- The command of `c` has been accepted and stays BUSY, waiting for `w` (R81). -/
def State.waits (t : State) (c : CmdIn) (w : Wait) : Prop :=
  (t.cmd c.pkg c.page.toNat).busy = true ∧ (t.cmd c.pkg c.page.toNat).wait = w

/-- The parts of State, by their names; and, for a frame's list, all the words of a page TYPE, of every page, and every
header. -/
inductive Part where
  /-- the straps (R1, R404) -/
  | straps
  /-- the package and its head (R14 to R17) -/
  | pkg
  /-- pace state (R53, R47) -/
  | pace
  /-- the register word at an offset of the pages of a TYPE -/
  | word (ty off : Nat)
  /-- the headers and latches of the pages of a TYPE -/
  | hdr (ty : Nat)
  /-- the command pages: STAT, LOCK and what each command waits for (R80 to R82) -/
  | cmds
  /-- the interrupt lines (R85) -/
  | lines
  /-- the snapshot of UNITWIN (R77) -/
  | snap
  /-- host-memory transfers and their tags (R510) -/
  | xfers
  /-- records on their way into rings (R534) -/
  | ringQ
  /-- the host register port (R509) -/
  | host
  /-- the probes and their units -/
  | probes
  /-- the clusters -/
  | clusters
  /-- the regions -/
  | regions
  /-- units present, profiles and slot bindings in force -/
  | profiles
  /-- held records (R77) -/
  | heldRecs
  /-- the epoch grid (R94 to R98) -/
  | grid
  /-- Geyser capture (R113 to R117) -/
  | geyser
  /-- the reduction engines -/
  | redNodes
  /-- elements that wait for the next reduction -/
  | redInputs
  /-- the forest engines -/
  | engines
  /-- the forest table -/
  | ftab
  /-- entity values of the latest closes -/
  | snaps
  /-- the spare map -/
  | spares
  /-- units marked SUSPECT, and fences of the last 1 ms (R218) -/
  | suspects
  /-- counted link violations of the last 1 ms (R524) -/
  | violations
  /-- kernel signatures and registrations -/
  | kernels
  /-- known-answer tests -/
  | kats
  /-- taint epochs and reports held -/
  | taint
  /-- poison notices -/
  | notices
  /-- the state of the root of trust -/
  | rotState
  /-- the measurement log and queue -/
  | meas
  /-- firmware, counters and update -/
  | firmware
  /-- the key store, certificates and tokens issued -/
  | keys
  /-- SPDM sessions -/
  | spdm
  /-- link keys under agreement -/
  | linkKeys
  /-- the verification log -/
  | verify
  /-- resets that the root of trust has ordered -/
  | rotOrders
  /-- the fleet-time servo and its registers -/
  | clock
  /-- a relock in progress -/
  | relock
  /-- PPS input and output -/
  | pps
  /-- fleet-time event entries -/
  | evts
  /-- PTP ports -/
  | tports
  /-- the power state -/
  | power
  /-- the idle timer -/
  | activity
  /-- the rest of the block power manager -/
  | bpwr
  /-- trace packets at their sources -/
  | staged
  /-- the trace rings -/
  | rings
  /-- the trace latches of the units -/
  | latches
  /-- the trace token held -/
  | token
  /-- the rest of the trace router -/
  | trace
  /-- Snuff -/
  | snuff
  /-- the TAP -/
  | tap
  /-- the link ports -/
  | ports
  /-- the link channels -/
  | chans
  /-- proxy tags -/
  | proxies
  /-- Ethernet peers -/
  | peers
  /-- place, parents and twin of this node -/
  | links
  /-- the Sinter codecs -/
  | sinter
  /-- jobs, their step windows and claims -/
  | jobs
  /-- broadcasts -/
  | bcasts
  /-- the liveness watch -/
  | watch
  /-- drift watch and prediction -/
  | drift
  /-- service notices -/
  | svcNotices
  /-- power cores -/
  | cores
  /-- rails -/
  | rails
  /-- sensors -/
  | sensors
  /-- power tables -/
  | tables
  /-- the power change in progress -/
  | change
  /-- forced operation, stretching, TRIP_N and ALERT_N -/
  | forced
  /-- budgets and the instants of decisions -/
  | budgets
  /-- droops and voltage holds -/
  | droops
  /-- start waves -/
  | waves
  /-- records on their way to the log (R416 to R421) -/
  | recs
  /-- the log -/
  | log
  /-- error counts (R427) -/
  | errs
  /-- update counts of items of state (R431) -/
  | gens
  /-- the mirror -/
  | mirror
  /-- replicas held for other nodes -/
  | replicas
  /-- pulls, dumps, checkpoints and restores in progress -/
  | plans
  /-- an injection that has fired in this step, and bits that injections have flipped (R68) -/
  | inj
  /-- the package board -/
  | board
  /-- fleet time -/
  | now
  /-- the instant of the latest slow tick -/
  | tick
  /-- slow ticks -/
  | ticks
  /-- messages handed to the links -/
  | mbox
  /-- what has left the block -/
  | out
  /-- free values drawn -/
  | free
  /-- the queue of commands -/
  | pending
  /-- for a list: every word of the pages of a TYPE -/
  | regs (ty : Nat)
  /-- for a list: every word of every page -/
  | allRegs
  /-- for a list: every header -/
  | allHdrs
deriving DecidableEq, Repr

/-- A part holds in two states the same. -/
def Part.same (p : Part) (s t : State) : Prop :=
  match p with
  | .straps => t.straps = s.straps
  | .pkg => t.pkg = s.pkg
  | .pace => t.pace = s.pace
  | .word ty off => ∀ page, keyType page = ty → t.reg page off = s.reg page off
  | .hdr ty => ∀ page, keyType page = ty → t.hdr page = s.hdr page
  | .cmds => t.pages.cmds = s.pages.cmds
  | .lines =>
      (t.pages.irq, t.pages.causes) =
      (s.pages.irq, s.pages.causes)
  | .snap =>
      (t.pages.snapSeq, t.pages.snapPartial, t.pages.snapBusy, t.pages.snapTime) =
      (s.pages.snapSeq, s.pages.snapPartial, s.pages.snapBusy, s.pages.snapTime)
  | .xfers =>
      (t.pages.xfers, t.pages.nextXfer, t.pages.hmTags) =
      (s.pages.xfers, s.pages.nextXfer, s.pages.hmTags)
  | .ringQ => t.pages.ringQ = s.pages.ringQ
  | .host => t.pages.host = s.pages.host
  | .probes => t.samp.probes = s.samp.probes
  | .clusters => t.samp.clusters = s.samp.clusters
  | .regions => t.samp.regions = s.samp.regions
  | .profiles =>
      (t.samp.units, t.samp.evsel, t.samp.rmask, t.samp.slotJob) =
      (s.samp.units, s.samp.evsel, s.samp.rmask, s.samp.slotJob)
  | .heldRecs =>
      (t.samp.heldP, t.samp.heldC, t.samp.heldTag) =
      (s.samp.heldP, s.samp.heldC, s.samp.heldTag)
  | .grid => t.samp.grid = s.samp.grid
  | .geyser => t.samp.geyser = s.samp.geyser
  | .redNodes => t.reds.nodes = s.reds.nodes
  | .redInputs =>
      (t.reds.tiles, t.reds.verdicts, t.reds.staleVerdicts, t.reds.services) =
      (s.reds.tiles, s.reds.verdicts, s.reds.staleVerdicts, s.reds.services)
  | .engines => t.forest.engines = s.forest.engines
  | .ftab => t.forest.ftab = s.forest.ftab
  | .snaps => t.forest.snaps = s.forest.snaps
  | .spares => t.check.spare = s.check.spare
  | .suspects =>
      (t.check.suspect, t.check.fences) =
      (s.check.suspect, s.check.fences)
  | .violations => t.check.violations = s.check.violations
  | .kernels =>
      (t.check.kernels, t.check.regs) =
      (s.check.kernels, s.check.regs)
  | .kats =>
      (t.check.idle, t.check.passes, t.check.kat, t.check.katReqs, t.check.katLast, t.check.katLastUnit,
       t.check.unfence) =
      (s.check.idle, s.check.passes, s.check.kat, s.check.katReqs, s.check.katLast, s.check.katLastUnit,
       s.check.unfence)
  | .taint =>
      (t.check.tdiv, t.check.taint, t.check.taintPrev, t.check.clears, t.check.held, t.check.lane, t.check.lost) =
      (s.check.tdiv, s.check.taint, s.check.taintPrev, s.check.clears, s.check.held, s.check.lane, s.check.lost)
  | .notices =>
      (t.check.nextSeq, t.check.unacked, t.check.seen) =
      (s.check.nextSeq, s.check.unacked, s.check.seen)
  | .rotState => t.rot.state = s.rot.state
  | .meas =>
      (t.rot.queue, t.rot.log, t.rot.measGen, t.rot.rehash) =
      (s.rot.queue, s.rot.log, s.rot.measGen, s.rot.rehash)
  | .firmware =>
      (t.rot.updatePending, t.rot.committed, t.rot.fallback, t.rot.image, t.rot.ctr, t.rot.ctrCopy, t.rot.staged,
       t.rot.commit, t.rot.fwAt) =
      (s.rot.updatePending, s.rot.committed, s.rot.fallback, s.rot.image, s.rot.ctr, s.rot.ctrCopy, s.rot.staged,
       s.rot.commit, s.rot.fwAt)
  | .keys =>
      (t.rot.identityOk, t.rot.uds, t.rot.devKey, t.rot.aliasKey, t.rot.kMem, t.rot.kTrace, t.rot.devCert,
       t.rot.aliasCert, t.rot.tokens) =
      (s.rot.identityOk, s.rot.uds, s.rot.devKey, s.rot.aliasKey, s.rot.kMem, s.rot.kTrace, s.rot.devCert,
       s.rot.aliasCert, s.rot.tokens)
  | .spdm =>
      (t.rot.sessions, t.rot.exchanges, t.rot.transcript, t.rot.deferred, t.rot.deferrals) =
      (s.rot.sessions, s.rot.exchanges, s.rot.transcript, s.rot.deferred, s.rot.deferrals)
  | .linkKeys =>
      (t.rot.shares, t.rot.agreed) =
      (s.rot.shares, s.rot.agreed)
  | .verify =>
      (t.rot.verify, t.rot.checks, t.rot.mismatchAt) =
      (s.rot.verify, s.rot.checks, s.rot.mismatchAt)
  | .rotOrders =>
      (t.rot.resetDue, t.rot.warmDue) =
      (s.rot.resetDue, s.rot.warmDue)
  | .clock =>
      (t.time.servo, t.time.running, t.time.rate, t.time.base, t.time.integ, t.time.slave, t.time.gm,
       t.time.samples, t.time.settled, t.time.run, t.time.offset, t.time.mpd, t.time.lastStep, t.time.stepSize,
       t.time.steps, t.time.outliers, t.time.masterChg, t.time.gmId, t.time.removed, t.time.lead, t.time.forced,
       t.time.holdFrom, t.time.holdMs) =
      (s.time.servo, s.time.running, s.time.rate, s.time.base, s.time.integ, s.time.slave, s.time.gm,
       s.time.samples, s.time.settled, s.time.run, s.time.offset, s.time.mpd, s.time.lastStep, s.time.stepSize,
       s.time.steps, s.time.outliers, s.time.masterChg, s.time.gmId, s.time.removed, s.time.lead, s.time.forced,
       s.time.holdFrom, s.time.holdMs)
  | .relock =>
      (t.time.relock, t.time.relockBad) =
      (s.time.relock, s.time.relockBad)
  | .pps =>
      (t.time.setPps, t.time.ppsIn, t.time.ppsPrev, t.time.ppsOut, t.time.ppsFall, t.time.ppsLast) =
      (s.time.setPps, s.time.ppsIn, s.time.ppsPrev, s.time.ppsOut, s.time.ppsFall, s.time.ppsLast)
  | .evts => t.time.evts = s.time.evts
  | .tports => t.time.ports = s.time.ports
  | .power => t.bpwr.state = s.bpwr.state
  | .activity =>
      (t.bpwr.busyAt, t.bpwr.quiet) =
      (s.bpwr.busyAt, s.bpwr.quiet)
  | .bpwr =>
      (t.bpwr.mode, t.bpwr.entry, t.bpwr.dozeAt, t.bpwr.emberAt, t.bpwr.active, t.bpwr.wickSkip, t.bpwr.wicks,
       t.bpwr.wickAt, t.bpwr.pg, t.bpwr.fell, t.bpwr.refclk, t.bpwr.extrap, t.bpwr.rstLow, t.bpwr.under,
       t.bpwr.times, t.bpwr.failed, t.bpwr.shown) =
      (s.bpwr.mode, s.bpwr.entry, s.bpwr.dozeAt, s.bpwr.emberAt, s.bpwr.active, s.bpwr.wickSkip, s.bpwr.wicks,
       s.bpwr.wickAt, s.bpwr.pg, s.bpwr.fell, s.bpwr.refclk, s.bpwr.extrap, s.bpwr.rstLow, s.bpwr.under,
       s.bpwr.times, s.bpwr.failed, s.bpwr.shown)
  | .staged => t.trace.staged = s.trace.staged
  | .rings => t.trace.rings = s.trace.rings
  | .latches => t.trace.latches = s.trace.latches
  | .token => t.trace.token = s.trace.token
  | .trace =>
      (t.trace.run, t.trace.written, t.trace.startDue, t.trace.stopDue, t.trace.startUsed, t.trace.stopUsed,
       t.trace.outUsed, t.trace.funnel, t.trace.overwr, t.trace.outDue, t.trace.outEnd, t.trace.syncAt) =
      (s.trace.run, s.trace.written, s.trace.startDue, s.trace.stopDue, s.trace.startUsed, s.trace.stopUsed,
       s.trace.outUsed, s.trace.funnel, s.trace.overwr, s.trace.outDue, s.trace.outEnd, s.trace.syncAt)
  | .snuff => t.snuff = s.snuff
  | .tap => t.tap = s.tap
  | .ports => t.links.ports = s.links.ports
  | .chans => t.links.chans = s.links.chans
  | .proxies => t.links.proxies = s.links.proxies
  | .peers => t.links.peers = s.links.peers
  | .links =>
      (t.links.tray, t.links.trayKnown, t.links.down, t.links.upPort, t.links.spareFor, t.links.trays,
       t.links.changes, t.links.holding, t.links.twin, t.links.takeovers, t.links.downPrimary, t.links.swapWait) =
      (s.links.tray, s.links.trayKnown, s.links.down, s.links.upPort, s.links.spareFor, s.links.trays,
       s.links.changes, s.links.holding, s.links.twin, s.links.takeovers, s.links.downPrimary, s.links.swapWait)
  | .sinter => t.sinter = s.sinter
  | .jobs =>
      (t.svc.jobs, t.svc.wins, t.svc.runtimes, t.svc.claims) =
      (s.svc.jobs, s.svc.wins, s.svc.runtimes, s.svc.claims)
  | .bcasts =>
      (t.svc.pend, t.svc.past, t.svc.count, t.svc.delayed) =
      (s.svc.pend, s.svc.past, s.svc.count, s.svc.delayed)
  | .watch =>
      (t.svc.gap, t.svc.watch, t.svc.dies, t.svc.checkAt) =
      (s.svc.gap, s.svc.watch, s.svc.dies, s.svc.checkAt)
  | .drift =>
      (t.svc.drift, t.svc.driftLast, t.svc.predict, t.svc.batches, t.svc.batchAt) =
      (s.svc.drift, s.svc.driftLast, s.svc.predict, s.svc.batches, s.svc.batchAt)
  | .svcNotices =>
      (t.svc.noticeSeq, t.svc.written) =
      (s.svc.noticeSeq, s.svc.written)
  | .cores => t.hpwr.cores = s.hpwr.cores
  | .rails => t.hpwr.rails = s.hpwr.rails
  | .sensors =>
      (t.hpwr.sensors, t.hpwr.shown) =
      (s.hpwr.sensors, s.hpwr.shown)
  | .tables =>
      (t.hpwr.weights, t.hpwr.dmap, t.hpwr.points) =
      (s.hpwr.weights, s.hpwr.dmap, s.hpwr.points)
  | .change =>
      (t.hpwr.running, t.hpwr.held, t.hpwr.goHeld) =
      (s.hpwr.running, s.hpwr.held, s.hpwr.goHeld)
  | .forced =>
      (t.hpwr.forced, t.hpwr.cause, t.hpwr.fixedFloor, t.hpwr.stretch, t.hpwr.tripLow, t.hpwr.alertLow,
       t.hpwr.alertHigh, t.hpwr.alertHeld) =
      (s.hpwr.forced, s.hpwr.cause, s.hpwr.fixedFloor, s.hpwr.stretch, s.hpwr.tripLow, s.hpwr.alertLow,
       s.hpwr.alertHigh, s.hpwr.alertHeld)
  | .budgets =>
      (t.hpwr.budgets, t.hpwr.decidedAt, t.hpwr.corrAt, t.hpwr.unmetAt) =
      (s.hpwr.budgets, s.hpwr.decidedAt, s.hpwr.corrAt, s.hpwr.unmetAt)
  | .droops =>
      (t.hpwr.droops, t.hpwr.vholds) =
      (s.hpwr.droops, s.hpwr.vholds)
  | .waves => t.hpwr.waves = s.hpwr.waves
  | .recs =>
      (t.fum.waiting, t.fum.seq, t.fum.dropCount, t.fum.dropSev, t.fum.lostCount, t.fum.lostMask, t.fum.lostFirst,
       t.fum.lostLast) =
      (s.fum.waiting, s.fum.seq, s.fum.dropCount, s.fum.dropSev, s.fum.lostCount, s.fum.lostMask, s.fum.lostFirst,
       s.fum.lostLast)
  | .log =>
      (t.fum.log, t.fum.next, t.fum.window, t.fum.captured, t.fum.capCrcBad, t.fum.capLen) =
      (s.fum.log, s.fum.next, s.fum.window, s.fum.captured, s.fum.capCrcBad, s.fum.capLen)
  | .errs =>
      (t.fum.ceCount, t.fum.ueCount, t.fum.ueLoc, t.fum.ceWords) =
      (s.fum.ceCount, s.fum.ueCount, s.fum.ueLoc, s.fum.ceWords)
  | .gens => t.fum.gens = s.fum.gens
  | .mirror =>
      (t.fum.peer, t.fum.mirror, t.fum.sent, t.fum.full, t.fum.lastWin, t.fum.unacked, t.fum.totTicks) =
      (s.fum.peer, s.fum.mirror, s.fum.sent, s.fum.full, s.fum.lastWin, s.fum.unacked, s.fum.totTicks)
  | .replicas =>
      (t.fum.replica, t.fum.replicaGen, t.fum.parts, t.fum.asks) =
      (s.fum.replica, s.fum.replicaGen, s.fum.parts, s.fum.asks)
  | .plans =>
      (t.fum.pulls, t.fum.pulled, t.fum.dumps, t.fum.ckpts, t.fum.restores) =
      (s.fum.pulls, s.fum.pulled, s.fum.dumps, s.fum.ckpts, s.fum.restores)
  | .inj =>
      (t.fum.injNow, t.fum.flips) =
      (s.fum.injNow, s.fum.flips)
  | .board => t.board = s.board
  | .now => t.now = s.now
  | .tick => t.tick = s.tick
  | .ticks => t.ticks = s.ticks
  | .mbox => t.mbox = s.mbox
  | .out => t.out = s.out
  | .free => t.free = s.free
  | .pending => t.pending = s.pending
  | .regs _ => True
  | .allRegs => True
  | .allHdrs => True


/-- The TYPE whose words a part is. -/
def Part.wordType (p : Part) : Option Nat :=
  match p with
  | .word ty _ => some ty
  | .regs ty => some ty
  | _ => none

/-- The one word that a part is: its TYPE and its number in the page. -/
def Part.wordAt (p : Part) : Option (Nat × Nat) :=
  match p with
  | .word ty off => some (ty, off / 4 % 1024)
  | _ => none

/-- The part is headers. -/
def Part.isHdr (p : Part) : Bool :=
  match p with
  | .hdr _ => true
  | _ => false

/-- Does an entry of a frame's list name the part? -/
def Part.covers (q p : Part) : Bool :=
  decide (q = p) ||
    match q with
    | .word ty off => decide (p.wordAt = some (ty, off / 4 % 1024))
    | .regs ty => decide (p.wordType = some ty)
    | .allRegs => p.wordType.isSome
    | .allHdrs => p.isHdr
    | _ => false

/-- The frame of a step: every part of State that the list does not name is what it was. -/
def State.onlyChanges (s t : State) (l : List Part) : Prop := ∀ p, (∀ q ∈ l, q.covers p = false) → p.same s t

/-! ### Host accesses -/

/-- An access reaches the page `key` of this block at `off`: the block runs, the host port takes the request (R509), the address
leads to the page, whose channel is open (R42), and the access is one aligned whole word (R60). -/
def State.reaches (s : State) (a : Access) (key off : Nat) : Prop :=
  s.dark = false ∧ (s.bpwr.state = .run ∨ s.bpwr.state = .idle) ∧
    ¬(a.req.port = .host ∧ (64 ≤ s.hostWaits ∨ s.chanOpen (.converter .host 0) = false)) ∧
    (∃ page, s.target false a.addr.toNat = .page key page off ∧ s.chanOpen (.subsystem page) = true) ∧ off % 4 = 0 ∧ a.be = 0xF

/-- A write that the checks of its page let pass: tag, page open, out of reset (R61, R67); no injection is armed there that
could upset it (R68). -/
def State.mayWrite (s : State) (a : Access) (key off : Nat) : Prop :=
  s.reaches a key off ∧ a.wr = true ∧ s.writeRank key (off % 0x800) ≤ a.req.tag.rank ∧
    (0x40 ≤ off % 0x800 → s.pageShut key = false) ∧ s.behindReset key (off % 0x800) = false ∧ bit (s.hdr key).inj 31 = false

/-- A read of the lower half of a page, past its header, that the checks of the page let pass (R61, R67). -/
def State.mayRead (s : State) (a : Access) (key off : Nat) : Prop :=
  s.reaches a key off ∧ a.wr = false ∧ 0x40 ≤ off ∧ off < 0x800 ∧ s.readRank key off ≤ a.req.tag.rank ∧
    s.pageShut key = false ∧ s.behindReset key off = false

/-- The response and its data have left at the requester's port (R508, R472). -/
def State.delivered (s t : State) (q : Req) (r : Resp) (d : Word) : Prop :=
  if q.port = .host then (∃ l m, t.out = l ++ .response q.rid r d :: (m ++ s.out)) ∧ t.pages.host.unacked = s.pages.host.unacked ++ [q.rid]
  else if q.port = .tap then t.tap.last = (r, d) else True

/-- The request has been answered: its response has left, or it stands behind the unanswered requests of the same
requester (R62). -/
def State.answered (s t : State) (q : Req) (r : Resp) (d : Word) : Prop :=
  if s.pages.host.order.any (fun e => sameRequester e.req q) then
    t.pages.host.order = s.pages.host.order ++ [{ num := none, req := q, ans := some (r, d) }]
  else s.delivered t q r d

/-- What every access may change whatever it does: the idle timer, the answer at its port, the interrupt lines. -/
def accessParts : List Part := [.power, .activity, .out, .host, .tap, .lines, .xfers, .inj]

/-- What every accepted command may change whatever it does: its page, and the parts of an access. -/
def commandParts : List Part := [.cmds, .regs 0x08, .power, .activity, .out, .host, .tap, .lines, .xfers, .inj]

/-- Every register word but those that `own` names is what it was. -/
def State.keepsRegs (s t : State) (own : Nat → Nat → Prop) : Prop :=
  ∀ page off, (∀ p o, own p o → regKey page off ≠ regKey p o) → t.reg page off = s.reg page off

/-- The result words of a command's page. -/
def CmdIn.resultWords (c : CmdIn) (p o : Nat) : Prop :=
  p = cmdKey c.pkg c.page.toNat ∧ ∃ k < 32, o = 0x100 + 4 * k

end Sys2Proof.Machine
end

