-- ==== Sys2Proof/Certificates/Slice0/Obligations.lean ====
section
/-!
DEFINITION. The statements about the block, for the provers.
-/
open Sys2Proof Sys2Proof.Machine

/-! ### The machine -/

/-- One step takes the command at the front of the queue and runs it with the queue's rest. -/
def Obligations.StepTakesTheFrontCommand : Prop :=
  ∀ (i : Instr) (rest : List Instr) (s : State), s.pending = i :: rest → step s = exec i { s with pending := rest }

/-- With no command waiting the block idles (the model's choice: assumption 2). -/
def Obligations.EmptyQueueIdles : Prop := ∀ s : State, s.pending = [] → step s = .next s

/-- R85: after every step every line with a present cause is low; and a slow tick lets each line rise that has lost its last
cause, so that after it exactly the lines with causes are low. -/
def Obligations.EveryStepHoldsItsLines : Prop :=
  (∀ s t : State, s.LinesHeld → step s = .next t → t.LinesHeld) ∧
  (∀ (m : TickIn) (s t : State), exec (.slowTick m) s = .next t → t.pages.irq = linesOf t.pages.cmds t.pages.hdr)

/-- The lines are held right after reset. -/
def Obligations.ResetHoldsItsLines : Prop := State.reset.LinesHeld

/-! ### Levels of the fleet (R11 to R17) and handshakes (R42, R47) -/

/-- R14, R15: where no head is known, the election's head is an eligible die hub, and no lower index is eligible; with none
eligible there is no head. -/
def Obligations.ElectionTakesTheLowestEligibleDie : Prop :=
  ∀ (reports : List DieReport) (s : State), s.isDie = true → s.pkg.head = none → s.pkg.elected = false → s.awake = true →
    ∃ t, exec (.headElection reports) s = .next t ∧ s.onlyChanges t [.out, .xfers, .lines, .inj, .pkg, .staged, .recs, .hdr 0x58, .redNodes, .hdr 0x18, .gens,
        .mirror, .mbox, .tports, .evts, .clock, .relock, .cmds, .word 0x08 0x100, .hdr 0x30, .pps,
        .regs 0x18] ∧
      (let alone := decide (reports = []) && (List.range 7).all fun p => !(s.port p).active && !s.linkUp p
       let ok (d : Nat) : Bool := eligibleDie alone (Tab.read Member.none t.pkg.members d)
       (∀ d : BitVec 3, t.pkg.head = some d → ok d.toNat = true ∧ ∀ j < d.toNat, ok j = false) ∧
       (t.pkg.head = none → ∀ j < 8, ok j = false))

/-- R16: the head's keepalive goes out on every package link that is up; a head that was not heard of for eight periods, or
whose link is down, is followed by the lowest other eligible die hub within reach. -/
def Obligations.HeadKeepalivesAndItsLoss : Prop :=
  (∀ s : State, s.isHead = true → ∃ t, exec .headKeepaliveSend s = .next t ∧ s.onlyChanges t [.out, .xfers, .lines, .inj, .chans] ∧
    ∀ p < 7, if s.linkUp p = true then ∃ m : LinkCtrl, (t.chan p).ctl = (s.chan p).ctl ++ [m] ∧ m.ka = true ∧ m.head = true
      else t.chan p = s.chan p) ∧
  (∀ (s : State) (h : BitVec 3), s.isDie = true → s.pkg.head = some h → h ≠ s.straps.dieIdx →
    (8 ≤ s.pkg.missed ∨ s.linkUp (s.diePort h.toNat) = false) →
    ∃ t, exec .headLost s = .next t ∧ s.onlyChanges t [.out, .xfers, .lines, .inj, .mbox, .host, .tap, .proxies, .pkg, .staged, .recs, .hdr 0x58,
        .sinter, .regs 0x93, .regs 0x91, .regs 0x38, .ports, .chans, .hdr 0x93, .hdr 0x91,
        .hdr 0x38, .redNodes, .probes, .clusters, .clock, .watch, .jobs, .spares, .plans, .bcasts,
        .mirror, .gens, .verify, .ringQ, .word 0x40 0x6C, .svcNotices, .hdr 0x40, .hdr 0x18,
        .tports, .evts, .relock, .cmds, .word 0x08 0x100, .hdr 0x30, .pps, .links, .regs 0x18] ∧ t.pkg.stale = true ∧
      (let ok (d : Nat) : Bool := decide (d ≠ h.toNat) && (decide (d = s.straps.dieIdx.toNat) || s.linkUp (s.diePort d)) &&
         eligibleDie false (Tab.read Member.none s.pkg.members d)
       (∀ d : BitVec 3, t.pkg.head = some d → ok d.toNat = true ∧ ∀ j < d.toNat, ok j = false) ∧
       (t.pkg.head = none → ∀ j < 8, ok j = false)))

/-- R11 to R13: a cluster concentrator that fails is adopted by the region's spare, and with the spare in use it is LOST; a
region concentrator that fails leaves the region ABSENT, with one record. -/
def Obligations.ConcentratorFailuresAreAbsorbed : Prop :=
  (∀ (c : Nat) (s : State), s.isDie = true → c < Config.clusters → (s.cluster c).lost = false →
    (s.region (regionOf c)).absent = false →
    ∃ t, exec (.concSelfchkFail c) s = .next t ∧ s.onlyChanges t [.out, .xfers, .lines, .inj, .clusters, .mbox, .staged, .recs, .hdr 0x58, .hdr 0x12, .gens,
        .spares, .pace, .probes, .hdr 0x10, .regs 0x93, .regs 0x91, .regs 0x38, .violations, .ports,
        .suspects, .hdr 0x28, .regions] ∧
      (if (s.region (regionOf c)).spareUsed then (t.cluster c).lost = true
       else (t.cluster c).adopted = true ∧ (t.region (regionOf c)).spareUsed = true ∧
         (t.region (regionOf c)).adopted = BitVec.ofNat 8 c)) ∧
  (∀ (r : Nat) (s : State), s.isDie = true → r < Config.regions → (s.region r).absent = false →
    ∃ t, exec (.regionConcFail r) s = .next t ∧ s.onlyChanges t [.out, .xfers, .lines, .inj, .mbox, .staged, .recs, .hdr 0x58, .regions] ∧
      (t.region r).absent = true ∧ t.fum.seq = s.fum.seq + 1)

/-- R42, R47: a 0b11 pair sets CODE_ERR and puts its channel under the watchdog; a watchdog that expires sets HS_TIMEOUT, and
its channel is released. -/
def Obligations.StuckHandshakesAreReported : Prop :=
  (∀ (ch : Channel) (s : State), s.dark = false →
    ∃ t, exec (.codeErr ch) s = .next t ∧ s.onlyChanges t [.out, .xfers, .lines, .inj, .pace, .staged, .recs, .hdr 0x58, .word 0x02 0x5C] ∧
      bit (t.reg (pg 0x02) 0x5C) 4 = true ∧ Tab.read natZero t.pace.watch ch.code = 1) ∧
  (∀ (p : Nat) (phase : HsPhase) (s : State), s.dark = false → s.watchRuns (Channel.subsystem p).code = true →
    (Tab.read natZero s.pace.watch (Channel.subsystem p).code = 0 ∨
      s.hsTimeoutTicks < Tab.read natZero s.pace.watch (Channel.subsystem p).code) →
    ∃ t, exec (.hsTimeout (.subsystem p) phase) s = .next t ∧ s.onlyChanges t [.out, .xfers, .lines, .inj, .pace, .staged, .recs, .hdr 0x58, .word 0x02 0x5C] ∧
      bit (t.reg (pg 0x02) 0x5C) 3 = true ∧ Tab.read natZero t.pace.watch (Channel.subsystem p).code = 0)

/-- R44: an access that has not completed is retried once with nothing else changed; a second failure counts as uncorrectable:
the page's PAGE_ERR.UE is set and the count of uncorrectable errors advances. -/
def Obligations.SlowArrayAccessIsRetriedOnce : Prop :=
  (∀ (u : ArrayUse) (h : WordHolds) (s : State),
    ∃ t, exec (.arrayAccessTimeout u false h) s = .next t ∧ s.onlyChanges t [.lines, .xfers, .out, .inj]) ∧
  (∀ (u : ArrayUse) (s : State), u.req = none → u.cmd = none → keyType u.page ≠ 0x68 →
    ∃ t, exec (.arrayAccessTimeout u true .plain) s = .next t ∧
      s.onlyChanges t [.allHdrs, .errs, .recs, .staged, .free, .lines, .xfers, .out, .inj] ∧ bit (t.hdr u.page).err 5 = true ∧
      t.fum.ueCount = BitVec.ofNat 32 (min (s.fum.ueCount.toNat + 1) (2 ^ 32 - 1)))

/-- R57, R85: a slow tick moves fleet time on to the tick's instant, later than the tick before and no earlier than anything
seen; and a line rises that has lost its causes. -/
def Obligations.SlowTickMovesTimeAndLetsLinesRise : Prop :=
  ∀ (m : TickIn) (s : State), ∃ t, exec (.slowTick m) s = .next t ∧ s.onlyChanges t (([.out, .xfers, .lines, .inj, .now, .tick, .ticks, .clock, .pps, .free, .ports, .bcasts,
        .relock, .links, .pkg, .pace, .host, .probes, .trace, .token, .gens, .mirror, .mbox,
        .forced, .change, .staged, .recs, .rails, .sensors, .droops, .cmds, .chans, .rotState,
        .firmware, .meas, .rotOrders, .board, .power, .bpwr, .activity, .tap, .proxies, .violations,
        .suspects, .spares, .linkKeys, .peers, .sinter, .tports, .evts] : List Part) ++ ([.snuff,
        .plans, .redNodes, .clusters, .watch, .jobs, .verify, .ringQ, .svcNotices, .grid, .regions,
        .geyser, .engines, .ftab, .kernels, .notices, .kats, .taint, .waves, .profiles, .snap,
        .heldRecs, .redInputs, .cores, .snaps, .replicas, .drift, .rings, .latches, .log, .allHdrs,
        .allRegs] : List Part)) ∧
    t.ticks = s.ticks + 1 ∧ s.tick < t.tick ∧ s.now ≤ t.tick ∧ t.now = t.tick ∧
    t.pages.irq = linesOf t.pages.cmds t.pages.hdr

/-! ### Register pages (R59 to R87, R534) -/

/-- R60: a request to a page with address bits [1:0] nonzero, or with fewer than four byte lanes enabled, is answered ERROR; no
register of any page changes, and beside the answer only the page's error bit is set. -/
def Obligations.UnalignedAccessesHaveNoEffect : Prop :=
  ∀ (a : Access) (s : State) (key page off : Nat), s.dark = false → (s.bpwr.state = .run ∨ s.bpwr.state = .idle) →
    ¬(a.req.port = .host ∧ (64 ≤ s.hostWaits ∨ s.chanOpen (.converter .host 0) = false)) → s.target false a.addr.toNat = .page key page off → (off % 4 ≠ 0 ∨ a.be ≠ 0xF) →
    ∃ t, exec (.registerWrite a) s = .next t ∧ s.answered t a.req .error 0 ∧
      s.onlyChanges t (accessParts ++ [.hdr (keyType key)]) ∧ t.hdr key = { s.hdr key with err := setBit (s.hdr key).err 0 true } ∧
      ∀ k, k ≠ key → t.hdr k = s.hdr k

/-- R4, R61, R67: a write that its page lets pass changes the register's RW bits and clears the W1C bits written 1, and no other
register; below the page's tag it is DENIED, and behind a reset RETRY, with nothing written. -/
def Obligations.RegisterWritesChangeTheirOwnBits : Prop :=
  (∀ (a : Access) (s : State) (key off : Nat), keyType key ∈ [0x31, 0x39, 0x61, 0x92] → keyScope key = 0 → 0x40 ≤ off → off < 0x800 →
    s.mayWrite a key off → (s.hdr key).guard = none → guardedAt key off = false → isAon key off = false →
    wideAt (keyType key) off = none →
    ∃ t, exec (.registerWrite a) s = .next t ∧ s.answered t a.req .ok 0 ∧
      s.onlyChanges t (accessParts ++ [.word (keyType key) off, .gens]) ∧ s.keepsRegs t (fun p o => p = key ∧ o = off) ∧
      ∀ i < 32, bit (t.reg key off) i = if bit (writeMasks key off).1 i then bit a.data i
        else bit (s.reg key off) i && !(bit (writeMasks key off).2 i && bit a.data i)) ∧
  (∀ (a : Access) (s : State) (key off : Nat), s.reaches a key off → a.wr = true →
    a.req.tag.rank < s.writeRank key (off % 0x800) →
    ∃ t, exec (.registerWrite a) s = .next t ∧ s.answered t a.req .denied 0 ∧ bit (t.hdr key).err 0 = true ∧
      s.onlyChanges t (accessParts ++ [.hdr (keyType key)])) ∧
  (∀ (a : Access) (s : State) (key off : Nat), s.isSystem = false → s.reaches a key off → a.wr = true →
    s.writeRank key (off % 0x800) ≤ a.req.tag.rank → s.pageShut key = false → s.behindReset key (off % 0x800) = true →
    ∃ t, exec (.registerWrite a) s = .next t ∧ s.answered t a.req .retry 0 ∧ s.onlyChanges t accessParts)

/-- R48: a write of KX_PACE_HSTO stores TIMEOUT limited to 2 to 8, and a value that had to be limited sets HSTO_CLAMP. -/
def Obligations.HandshakeTimeoutIsClamped : Prop :=
  ∀ (a : Access) (s : State), s.mayWrite a (pg 0x02) 0x44 → (s.hdr (pg 0x02)).guard = none →
    ∃ t, exec (.paceHstoWrite a) s = .next t ∧ s.answered t a.req .ok 0 ∧
      s.onlyChanges t (accessParts ++ [.word 0x02 0x44, .word 0x02 0x5C, .gens]) ∧
      t.regFld (pg 0x02) 0x44 0 4 = min 8 (max 2 (fld a.data 0 4)) ∧
      (bit (t.reg (pg 0x02) 0x5C) 1 = true ↔ bit (s.reg (pg 0x02) 0x5C) 1 = true ∨ fld a.data 0 4 < 2 ∨ 8 < fld a.data 0 4)

/-- R17, R64, R87: a member sends a package-window request on to the head, and a KXA-32 a proxy-window request to its target, as
one PROXY_REQ under a free tag and with the address that the target sees; a write of PROXY_n leaves the requests in flight. -/
def Obligations.RequestsTravelToTheirTargets : Prop :=
  (∀ (a : Access) (s : State) (h : BitVec 3) (tag : Nat), s.isDie = true → s.pkg.head = some h → h ≠ s.straps.dieIdx →
    a.addr.toNat / 2 ^ 20 = 1 → a.addr.toNat % 4 = 0 → a.be = 0xF → s.dark = false →
    (s.bpwr.state = .run ∨ s.bpwr.state = .idle) → ¬(a.req.port = .host ∧ (64 ≤ s.hostWaits ∨ s.chanOpen (.converter .host 0) = false)) → s.freeTag = some tag →
    ∃ t, exec (.packageWindowRequest a) s = .next t ∧
      s.onlyChanges t [.host, .proxies, .mbox, .power, .activity, .lines, .xfers, .out, .inj] ∧
      t.mbox = s.mbox ++ [(s.diePort h.toNat, { typ := 0x02, tag := BitVec.ofNat 16 tag, dest := .port (s.diePort h.toNat), payload := proxyPayload a.addr.toNat a })] ∧
      (Tab.read noProxy t.links.proxies tag).map (·.req) = some a.req) ∧
  (∀ (a : Access) (s : State) (n tag : Nat), s.isSystem = true → s.straps.cascade = false → n < 8 →
    a.addr.toNat / 2 ^ 20 = 8 + n → a.addr.toNat % 4 = 0 → a.be = 0xF → s.dark = false →
    (s.bpwr.state = .run ∨ s.bpwr.state = .idle) → ¬(a.req.port = .host ∧ (64 ≤ s.hostWaits ∨ s.chanOpen (.converter .host 0) = false)) → s.freeTag = some tag →
    bit (s.reg (pg 0x01) (0xC0 + 4 * n)) 31 = true → bit (s.reg (pg 0x01) (0xC0 + 4 * n)) 30 = false →
    fld (s.reg (pg 0x01) (0xC0 + 4 * n)) 8 8 < 32 →
    ∃ t, exec (.proxyRequest a) s = .next t ∧
      s.onlyChanges t [.host, .proxies, .mbox, .power, .activity, .lines, .xfers, .out, .inj] ∧
      (let p := fld (s.reg (pg 0x01) (0xC0 + 4 * n)) 8 8
       let seen := fld (s.reg (pg 0x01) (0xC0 + 4 * n)) 0 4 * 2 ^ 20 + a.addr.toNat % 2 ^ 20
       t.mbox = s.mbox ++ [(p, { typ := 0x02, tag := BitVec.ofNat 16 tag, dest := .port p, payload := proxyPayload seen a })] ∧
       (Tab.read noProxy t.links.proxies tag).map (·.req) = some a.req)) ∧
  (∀ (a : Access) (s : State) (n : Nat), s.isSystem = true → n < 8 → s.mayWrite a (pg 0x01) (0xC0 + 4 * n) →
    (s.hdr (pg 0x01)).guard = none →
    ∃ t, exec (.proxyWrite a) s = .next t ∧ s.answered t a.req .ok 0 ∧
      s.onlyChanges t (accessParts ++ [.word 0x01 (0xC0 + 4 * n), .gens]) ∧
      t.reg (pg 0x01) (0xC0 + 4 * n) = (s.reg (pg 0x01) (0xC0 + 4 * n) &&& 0x3FFF00F0) ||| (a.data &&& 0xC000FF0F))

/-- R73, R74: a write to a guarded register only arms the latch; the complement at X + 0x800 from the same requester commits the
value (here of PAGE_PRIV, within its floors); any other write of that requester, and the eighth tick, discard it with
GUARD_ERR. -/
def Obligations.GuardedWritesNeedTheirComplement : Prop :=
  (∀ (a : Access) (s : State) (key off : Nat), off < 0x800 → guardedAt key off = true → s.mayWrite a key off →
    (s.hdr key).guard = none →
    ∃ t, exec (.guardArm a) s = .next t ∧ s.answered t a.req .ok 0 ∧ s.onlyChanges t (accessParts ++ [.hdr (keyType key)]) ∧
      t.hdr key = { s.hdr key with guard := some { off, value := a.data, rid := a.req.rid, ticks := 0 } }) ∧
  (∀ (a : Access) (s : State) (key : Nat) (g : Guard), (s.hdr key).guard = some g → g.off = 0x2C → g.ticks < 8 →
    g.rid = a.req.rid → s.mayWrite a key 0x82C → a.data = ~~~g.value →
    ∃ t, exec (.guardCommit a) s = .next t ∧ s.answered t a.req .ok 0 ∧
      s.onlyChanges t (accessParts ++ [.hdr (keyType key), .gens, .meas]) ∧ (t.hdr key).guard = none ∧
      (t.hdr key).rd.toNat = max (pageFloor (keyType key)).1.toNat (fld g.value 30 2) ∧
      (t.hdr key).wr.toNat = max (pageFloor (keyType key)).2.toNat (fld g.value 28 2) ∧
      (t.meas 5).status = .unmeasured) ∧
  (∀ (a : Access) (s : State) (key off : Nat) (g : Guard), (s.hdr key).guard = some g → g.ticks < 8 → g.rid = a.req.rid →
    s.mayWrite a key off → ¬(off = g.off + 0x800 ∧ a.data = ~~~g.value) →
    ∃ t, exec (.guardCommit a) s = .next t ∧ s.answered t a.req .ok 0 ∧
      s.onlyChanges t (accessParts ++ [.hdr (keyType key), .hdr 0x58, .recs, .staged]) ∧ (t.hdr key).guard = none ∧
      bit (t.hdr key).err 7 = true ∧ t.fum.seq = s.fum.seq + 1) ∧
  (∀ (page : Nat) (s : State) (g : Guard), (s.hdr page).guard = some g →
    ∃ t, exec (.guardExpire page) s = .next t ∧ s.onlyChanges t [.out, .xfers, .lines, .inj, .staged, .recs, .hdr 0x58, .hdr (keyType page)] ∧ (t.hdr page).guard = none ∧ bit (t.hdr page).err 7 = true ∧
      t.fum.seq = s.fum.seq + 1)

/-- R76: a read of a wide register's lowest word captures all its words in the page's latch and answers the lowest; a write of
the lowest word stores it together with the words staged before (here RING_BASE of the poison ring). -/
def Obligations.WideRegistersMoveWhole : Prop :=
  (∀ (a : Access) (s : State) (key off n : Nat), wideAt (keyType key) off = some (off, n, 0) → keyType key ≠ 0x08 →
    keyType key ≠ 0x03 → keyType key ≠ 0x18 → s.mayRead a key off → 0 < n →
    ∃ t, exec (.wideCapture a) s = .next t ∧ s.answered t a.req .ok (s.pageWord key off) ∧
      s.onlyChanges t (accessParts ++ [.hdr (keyType key)]) ∧
      (t.hdr key).wide = some (off, (List.range n).map fun j => s.pageWord key (off + 4 * j))) ∧
  (∀ (a : Access) (s : State) (hi : Word), s.mayWrite a (pg 0x28) 0xB0 → (s.hdr (pg 0x28)).guard = none →
    (s.hdr (pg 0x28)).staged = [(0xB4, hi)] →
    ∃ t, exec (.wideWriteCommit a) s = .next t ∧ s.answered t a.req .ok 0 ∧
      s.onlyChanges t (accessParts ++ [.hdr 0x28, .word 0x28 0xB0, .word 0x28 0xB4, .gens]) ∧
      t.reg (pg 0x28) 0xB4 = hi ∧ (t.reg (pg 0x28) 0xB0) &&& 0xFFFFFC00 = a.data &&& 0xFFFFFC00 ∧ (t.hdr (pg 0x28)).staged = [])

/-- R77, R79: TAKE copies every listed probe of a running region into the holding registers, with one tag, instant and sequence
number for all; a read through a data window answers the record's word, live or held as VIEW says, and a write of word 63
binds the unit to a job. -/
def Obligations.UnitWindowShowsRecords : Prop :=
  (∀ (a : Access) (s : State), s.mayWrite a (pg 0x03) 0x24 → (s.hdr (pg 0x03)).guard = none → bit a.data 0 = true →
    s.snapRuns = false → s.takeBarred = false →
    ∃ t, exec (.snapTake a) s = .next t ∧ s.answered t a.req .ok 0 ∧ s.onlyChanges t (accessParts ++ [.snap, .heldRecs]) ∧
      t.pages.snapSeq = s.pages.snapSeq + 1 ∧ t.pages.snapTime = s.ft ∧ t.samp.heldTag = BitVec.ofNat 8 s.samp.grid.epochNo ∧
      ∀ e ∈ s.samp.probes, s.regionReset e.1 = false →
        let h : Held := { t := pendingCounts e.2 e.2.t, s := e.2.c, gen := e.2.gen }
        h = Held.zero e.1 ∨ (e.1, h) ∈ t.samp.heldP) ∧
  (∀ (a : Access) (s : State) (c w off : Nat), c < 4 → w < 63 → (w = 0 ∨ 39 ≤ w) → off = 0x100 + 0x100 * c + 4 * w →
    s.mayRead a (pg 0x03) off → s.unitCheck a.req (s.context c).1 (s.context c).2 = .ok →
    ∃ t, exec (.unitwinAccess a) s = .next t ∧ s.onlyChanges t accessParts ∧
      s.answered t a.req .ok (s.unitWord (s.context c).1 (s.context c).2 w)) ∧
  (∀ (a : Access) (s : State) (c off p : Nat), c < 4 → off = 0x1FC + 0x100 * c → s.mayWrite a (pg 0x03) off →
    (s.hdr (pg 0x03)).guard = none → s.context c = (0, p) → s.unitCheck a.req 0 p = .ok → s.present p = true →
    ∃ t, exec (.unitwinAccess a) s = .next t ∧ s.answered t a.req .ok 0 ∧ s.onlyChanges t (accessParts ++ [.probes]) ∧
      t.probe p = { s.probe p with jobNext := a.data.setWidth 16 })

/-- R534: a ring's RPTR is stored modulo the ring's size, and LOG2 of RING_SIZE is limited to 12 to 24. -/
def Obligations.RingPointersStayInTheirRing : Prop :=
  (∀ (a : Access) (s : State) (r : RingRegs), r = poisonRing ∨ r = serviceRing → s.mayWrite a r.page r.rptr →
    (s.hdr r.page).guard = none →
    ∃ t, exec (.ringRptrWrite a) s = .next t ∧ s.answered t a.req .ok 0 ∧
      s.onlyChanges t (accessParts ++ [.word (keyType r.page) r.rptr, .gens]) ∧
      (t.reg r.page r.rptr).toNat = a.data.toNat % s.ringSize r) ∧
  (∀ (a : Access) (s : State) (r : RingRegs), r = poisonRing ∨ r = serviceRing → s.mayWrite a r.page r.size →
    (s.hdr r.page).guard = none →
    ∃ t, exec (.ringSizeWrite a) s = .next t ∧ s.answered t a.req .ok 0 ∧
      s.onlyChanges t (accessParts ++ [.word (keyType r.page) r.size, .word (keyType r.page) r.wptr, .word (keyType r.page) r.rptr, .gens]) ∧
      (t.reg r.page r.size).toNat = min 24 (max 12 (fld a.data 0 5)))

/-- R80, R82: LOCK gives a free page to who writes an OWNER and denies the page to every other requester; STAT.DONE clears where
1 is written; a CMD write to a page locked by another is DENIED, and to a BUSY one RETRY, with no command run. -/
def Obligations.CommandPagesAreLockedAndCleared : Prop :=
  (∀ (a : Access) (s : State) (n : Nat), n < 8 → s.mayWrite a (cmdKey false n) 0x48 → (s.hdr (cmdKey false n)).guard = none →
    ∃ t, exec (.cmdLock a) s = .next t ∧
      (let c := s.cmd false n
       if c.owner = 0 ∧ a.data.setWidth 16 ≠ (0 : BitVec 16) then
         s.answered t a.req .ok 0 ∧ t.cmd false n = { c with owner := a.data.setWidth 16, holder := a.req.rid } ∧
           s.onlyChanges t (accessParts ++ [.cmds])
       else c.owner ≠ 0 → c.holder ≠ a.req.rid → a.req.tag.atLeast .firmware = false →
         s.answered t a.req .denied 0 ∧ t.cmd false n = c ∧ s.onlyChanges t (accessParts ++ [.hdr 0x08]))) ∧
  (∀ (a : Access) (s : State) (n : Nat), n < 8 → s.mayWrite a (cmdKey false n) 0x44 → (s.hdr (cmdKey false n)).guard = none →
    bit a.data 30 = true →
    ∃ t, exec (.cmdDoneClear a) s = .next t ∧ s.answered t a.req .ok 0 ∧ s.onlyChanges t (accessParts ++ [.cmds]) ∧
      t.cmd false n = { s.cmd false n with done := false }) ∧
  (∀ (a : Access) (s : State) (n : Nat), n < 8 → s.isSystem = false → s.mayWrite a (cmdKey false n) 0x40 →
    (s.hdr (cmdKey false n)).guard = none → s.bpwr.failed = false →
    (bit (s.hdr (cmdKey false n)).stat 3 = false) →
    ((s.cmd false n).owner ≠ 0 → (s.cmd false n).holder ≠ a.req.rid →
      ∃ t, exec (.cmdReject a) s = .next t ∧ s.answered t a.req .denied 0 ∧ bit (t.hdr (cmdKey false n)).err 0 = true ∧
        s.onlyChanges t (accessParts ++ [.hdr 0x08])) ∧
    ((s.cmd false n).owner = 0 → (s.cmd false n).busy = true →
      ∃ t, exec (.cmdReject a) s = .next t ∧ s.answered t a.req .retry 0 ∧ s.onlyChanges t accessParts))

/-- R80: NOP completes OK with its result words zero; ECHO completes OK with the argument words in the result words. -/
def Obligations.NopAndEchoComplete : Prop :=
  (∀ (c : CmdIn) (s : State), s.takes c .tenant = true →
    ∃ t, exec (.nop c) s = .next t ∧ t.ended c stOk 0 ∧ s.onlyChanges t commandParts ∧
      ∀ k < 32, t.reg (cmdKey c.pkg c.page.toNat) (0x100 + 4 * k) = 0) ∧
  (∀ (c : CmdIn) (s : State), s.takes c .tenant = true →
    ∃ t, exec (.echo c) s = .next t ∧ t.ended c stOk 0 ∧ s.onlyChanges t commandParts ∧
      ∀ k < 32, t.reg (cmdKey c.pkg c.page.toNat) (0x100 + 4 * k) = if k < c.nargs.toNat then argW c s k else 0)

/-! ### Probes, counters and sampling epochs (R88 to R120) -/

/-- R91 to R93, R107: an edge advances by one exactly the edge counters that its STATE, REASON and selected events name (one at
2^40 - 1 stays and marks the record LOST) and, while no reset waits, the command counts modulo 2^40; a granted reset request
gives each counter of the mask the count since its CMD_START, and advances GEN. -/
def Obligations.EdgesCountAndResetsRestart : Prop :=
  (∀ (p : Nat) (st : UnitState) (reason : BitVec 3) (evt : BitVec 16) (start : Bool) (s : State), s.dark = false →
    s.present p = true → (start = true → s.check.kat = none) →
    ∃ t, exec (.unitEdge p st reason evt start) s = .next t ∧ s.onlyChanges t [.out, .xfers, .lines, .inj, .kats, .probes, .hdr 0x10, .latches, .hdr 0x60, .bpwr,
        .activity, .power, .cmds, .word 0x08 0x104, .word 0x08 0x100, .word 0x50 0x54, .suspects,
        .staged, .recs, .hdr 0x58, .gens, .spares, .violations, .regs 0x93, .regs 0x91, .regs 0x38,
        .ports, .hdr 0x28, .hdr 0x12] ∧
      (let x := s.probe p
       let ks := edgeCounters st reason evt (Tab.read evselReset s.samp.evsel x.profile.toNat)
       (t.probe p).ustate = st ∧ (t.probe p).reason = reason ∧
       (∀ k < 19, Tab.read bv40Zero (t.probe p).e k = if k ∈ ks ∧ Tab.read bv40Zero x.e k ≠ BitVec.allOnes 40 then
          Tab.read bv40Zero x.e k + 1 else Tab.read bv40Zero x.e k) ∧
       ((∃ k ∈ ks, Tab.read bv40Zero x.e k = BitVec.allOnes 40) → (t.probe p).lost = true) ∧
       (x.divs = [] → ∀ k < 19, Tab.read bv40Zero (t.probe p).c k = if k ∈ ks then Tab.read bv40Zero x.c k + 1 else Tab.read bv40Zero x.c k) ∧
       ∀ q, q ≠ p → t.probe q = s.probe q)) ∧
  (∀ (p : Nat) (s : State) (d : Tab (BitVec 40)) (ds : List (Tab (BitVec 40))), s.dark = false → s.present p = true →
    (s.probe p).divs = d :: ds →
    ∃ t, exec (.counterReset p) s = .next t ∧ s.onlyChanges t [.out, .xfers, .lines, .inj, .probes] ∧
      (t.probe p).divs = ds ∧ (t.probe p).gen = (s.probe p).gen + 1 ∧
      (t.probe p).rsts.toNat = min 255 ((s.probe p).rsts.toNat + 1) ∧
      (∀ k < 19, Tab.read bv40Zero (t.probe p).c k =
        if bit ((s.probe p).dmasks.headD (Tab.read rmaskReset s.samp.rmask (s.probe p).profile.toNat)) k then Tab.read bv40Zero d k
        else Tab.read bv40Zero (s.probe p).c k) ∧
      ∀ q, q ≠ p → t.probe q = s.probe q)

/-- R94, R95, R97, R98: a close happens at the first instant of the grid after the last one, and its number is that of the grid
index but never one already used; a SET_EPOCH whose ORIGIN has come starts its grid there, at the next number. -/
def Obligations.ClosesFollowTheirGrid : Prop :=
  (∀ (ties stuck : List Nat) (s : State), s.closesRun = true → s.samp.grid.pend = none →
    ∃ t, exec (.epochClose ties stuck) s = .next t ∧ s.onlyChanges t (([.out, .xfers, .lines, .inj, .now, .grid, .evts, .cmds, .word 0x08 0x100, .word 0x02 0x58,
        .probes, .kats, .profiles, .power, .activity, .staged, .recs, .hdr 0x58, .regs 0x93,
        .regs 0x91, .regs 0x38, .violations, .ports, .suspects, .hdr 0x28, .hdr 0x12, .gens,
        .spares, .hdr 0x10, .clusters, .snap, .heldRecs, .taint, .watch, .word 0x28 0x98, .kernels,
        .redNodes, .redInputs, .mbox, .hdr 0x40, .cores, .rails, .regions, .engines,
        .word 0x20 0x54, .word 0x08 0x108, .word 0x08 0x104, .ftab, .meas,
        .snaps] : List Part) ++ ([.hdr 0x18, .mirror, .replicas, .drift, .ringQ, .word 0x40 0x6C,
        .svcNotices, .hdr 0x48, .droops, .pkg, .regs 0x18] : List Part)) ∧
      (let g := s.samp.grid
       let n := (s.nextClose - g.origin) / (g.period * ns)
       t.samp.grid.epochNo = max (g.baseNo + n) (g.epochNo + 1) ∧ g.epochNo < t.samp.grid.epochNo ∧
       t.samp.grid.lastClose = s.nextClose ∧ t.samp.grid.closed = true ∧ t.samp.grid.period = g.period ∧
       t.samp.grid.origin = g.origin ∧ t.now = max s.now s.nextClose)) ∧
  (∀ (stuck : List Nat) (q : PendEpoch) (s : State), s.samp.grid.pend = some q → s.dark = false →
    (s.closesRun = true → s.nextClose = q.origin) →
    ∃ t, exec (.epochOrigin stuck) s = .next t ∧ s.onlyChanges t (([.out, .xfers, .lines, .inj, .now, .grid, .evts, .cmds, .word 0x08 0x100, .word 0x02 0x58,
        .probes, .kats, .profiles, .power, .activity, .staged, .recs, .hdr 0x58, .regs 0x93,
        .regs 0x91, .regs 0x38, .violations, .ports, .suspects, .hdr 0x28, .hdr 0x12, .gens,
        .spares, .hdr 0x10, .clusters, .snap, .heldRecs, .taint, .watch, .word 0x28 0x98, .kernels,
        .redNodes, .redInputs, .mbox, .hdr 0x40, .cores, .rails, .regions, .engines,
        .word 0x20 0x54, .word 0x08 0x108, .word 0x08 0x104, .ftab, .meas,
        .snaps] : List Part) ++ ([.hdr 0x18, .mirror, .replicas, .drift, .ringQ, .word 0x40 0x6C,
        .svcNotices, .hdr 0x48, .droops, .pkg, .regs 0x18] : List Part)) ∧
      t.samp.grid.period = q.period ∧ t.samp.grid.origin = q.origin ∧ t.samp.grid.pend = none ∧
      t.samp.grid.epochNo = (if s.closesRun then s.samp.grid.epochNo + 1 else s.samp.grid.epochNo) ∧
      (s.closesRun = true → t.samp.grid.baseNo = s.samp.grid.epochNo + 1 ∧ t.samp.grid.lastClose = q.origin))

/-- R101, R102: a record that passes its check empties the latch, is kept until COMMIT, and adds its deltas to the totals of its
probe and cluster; one that fails adds nothing and is marked MISMATCH; COMMIT mirrors the totals and drops the copies. -/
def Obligations.RecordsAreAddedOnceAndCommitted : Prop :=
  (∀ (p : Nat) (s : State) (r : ProbeRec), (s.probe p).latch = some r → s.concReady p = true → bit (s.hdr (pg 0x10)).inj 31 = false →
    r.excl = false →
    (bit (s.reg (pg 0x10) 0x44) 1 = false ∨ r.rsts ≠ 0 ∨ r.lost = true ∨ recordPasses (s.probe p).s r = true) →
    ∃ t, exec (.recordDeliver p) s = .next t ∧
      s.onlyChanges t [.probes, .clusters, .hdr 0x10, .lines, .xfers, .out, .inj] ∧
      (t.probe p).latch = none ∧ (t.probe p).acked = some r ∧ (t.probe p).s = r.s ∧ (t.probe p).counted = true ∧
      (t.probe p).t = (addDeltas r.d (s.probe p).t).1 ∧
      (t.cluster (clusterOf p)).t = (addDeltas r.d (s.cluster (clusterOf p)).t).1 ∧
      (∀ q, q ≠ p → t.probe q = s.probe q) ∧ ∀ c, c ≠ clusterOf p → t.cluster c = s.cluster c) ∧
  (∀ (p : Nat) (s : State) (r : ProbeRec), (s.probe p).latch = some r → s.concReady p = true → bit (s.hdr (pg 0x10)).inj 31 = false →
    bit (s.reg (pg 0x10) 0x44) 1 = true → r.rsts = 0 → r.lost = false → recordPasses (s.probe p).s r = false →
    ∃ t, exec (.recordDeliver p) s = .next t ∧ s.onlyChanges t [.out, .xfers, .lines, .inj, .hdr 0x10, .pace, .probes, .staged, .recs, .hdr 0x58,
        .regs 0x93, .regs 0x91, .regs 0x38, .violations, .ports, .suspects, .hdr 0x28, .hdr 0x12,
        .gens, .spares, .clusters] ∧
      (t.probe p).latch = none ∧ (t.probe p).mismatch = true ∧ (t.probe p).counted = false ∧ (t.probe p).t = (s.probe p).t ∧
      t.samp.clusters = s.samp.clusters ∧ bit (t.hdr (pg 0x10)).err 17 = true) ∧
  (∀ (c : Nat) (s : State), s.isDie = true → c < Config.clusters →
    ∃ t, exec (.concCommit c) s = .next t ∧ s.onlyChanges t [.out, .xfers, .lines, .inj, .probes, .clusters] ∧ (t.cluster c).mirror = (s.cluster c).t ∧
      (t.cluster c).t = (s.cluster c).t ∧
      ∀ p, if clusterOf p = c then t.probe p = { s.probe p with mirror := (s.probe p).t, inSumMirror := (s.probe p).inSum, acked := none }
        else t.probe p = s.probe p)

/-- R97, R106, R120: SET_EPOCH in the die window schedules a grid no nearer than 10 µs and waits for its ORIGIN, or ends LATE;
PROBE_RESET clears the counts of the present probes of a range, CLEAR_TOTALS marks them for the next close, both with their
number in RES_0; FORCE_ADOPT has the spare adopt a cluster, unless the spare is used or the region absent. -/
def Obligations.SamplingCommandsActOnTheirRange : Prop :=
  (∀ (c : CmdIn) (s : State), s.takes c .operator = true → c.pkg = false → s.isDie = true → 1024 ≤ (argW c s 0).toNat →
    argFTraw c s 1 % ns = 0 → s.samp.grid.pend = none → s.time.evts.length < 32 →
    ∃ t, exec (.setEpoch c) s = .next t ∧ s.onlyChanges t (commandParts ++ [.grid, .evts]) ∧
      (if argFTraw c s 1 < s.now + 10 * us then t.ended c stError 1 ∧ t.samp.grid = s.samp.grid
       else t.waits c (.time (argFTraw c s 1)) ∧
         t.samp.grid.pend = some { period := (argW c s 0).toNat, origin := argFTraw c s 1, page := some (false, c.page.toNat) })) ∧
  (∀ (c : CmdIn) (s : State), s.takes c .operator = true → s.isDie = true → 0 < argFld c s 1 0 14 →
    argFld c s 0 0 13 + argFld c s 1 0 14 ≤ 8192 →
    (∀ p, argFld c s 0 0 13 ≤ p → p < argFld c s 0 0 13 + argFld c s 1 0 14 → (s.region (regionOf (clusterOf p))).inReset = false) →
    (∃ t, exec (.probeReset c) s = .next t ∧ s.onlyChanges t [.out, .xfers, .lines, .inj, .cmds, .power, .bpwr, .word 0x50 0x54, .activity, .host, .tap,
        .regs 0x08, .hdr 0x08, .hdr 0x10, .probes, .hdr 0x50, .word 0x50 0x5C, .pace] ∧ t.ended c stOk 0 ∧
      t.reg (cmdKey c.pkg c.page.toNat) 0x100 = BitVec.ofNat 32 (argFld c s 1 0 14) ∧
      ∀ p, if argFld c s 0 0 13 ≤ p ∧ p < argFld c s 0 0 13 + argFld c s 1 0 14 ∧ s.present p = true then
          t.probe p = clearProbe (gyRoll s.gyStart (s.probe p)) else t.probe p = s.probe p) ∧
    (∃ t, exec (.clearTotals c) s = .next t ∧ s.onlyChanges t [.out, .xfers, .lines, .inj, .cmds, .power, .bpwr, .word 0x50 0x54, .activity, .host, .tap, .regs 0x08, .hdr 0x08, .probes] ∧ t.waits c (.close (s.samp.grid.epochNo + 1)) ∧
      t.reg (cmdKey c.pkg c.page.toNat) 0x100 = BitVec.ofNat 32 (argFld c s 1 0 14) ∧
      ∀ p, if argFld c s 0 0 13 ≤ p ∧ p < argFld c s 0 0 13 + argFld c s 1 0 14 then
          t.probe p = { s.probe p with clear := true } else t.probe p = s.probe p)) ∧
  (∀ (c : CmdIn) (s : State), s.takes c .firmware = true → s.isDie = true →
    ∃ t, exec (.forceAdopt c) s = .next t ∧ s.onlyChanges t [.out, .xfers, .lines, .inj, .cmds, .power, .bpwr, .word 0x50 0x54, .activity, .host, .tap,
        .regs 0x08, .hdr 0x08, .pace, .clusters, .probes, .hdr 0x10, .staged, .recs, .hdr 0x58,
        .regs 0x93, .regs 0x91, .regs 0x38, .violations, .ports, .suspects, .hdr 0x28, .hdr 0x12,
        .gens, .spares, .regions] ∧
      (let k := argFld c s 0 0 8
       if (s.region (regionOf k)).absent then t.ended c stError 6
       else if (s.region (regionOf k)).spareUsed || (s.cluster k).lost then t.ended c stError 5
       else t.ended c stOk 0 ∧ (t.cluster k).adopted = true ∧ (t.region (regionOf k)).spareUsed = true ∧
         (t.region (regionOf k)).adopted = BitVec.ofNat 8 k))

/-- R113 to R115: a window armed at once or for an event keeps its entity and samples from the first grid instant after now, and
one for a fleet time PRE intervals before T, and waits for it; before sample 0 each instant stages one record of every chosen unit,
and the last sample of the window ends it DONE; a trigger that matches fixes sample 0 at the first grid instant after it, and that of
a fleet time completes the command; GEYSER_STOP ends a window DONE, and with none active changes nothing. -/
def Obligations.GeyserWindowsOpenAndEnd : Prop :=
  (∀ (c : CmdIn) (s : State), s.takes c .operator = true → s.isDie = true → s.gyActive = false →
    480 * s.gyUnits.length ≤ 32 * (s.gyGI / ns) → s.gyPre * s.gyUnits.length ≤ 512 →
    (s.gyKind = 0 ∧ s.gyPre = 0 ∨ 2 ≤ s.gyKind ∧ s.gyKind ≤ 4) → (s.gyKind = 3 → argFld c s 0 0 14 < Config.entities) →
    ∃ t, exec (.geyserArm c) s = .next t ∧ s.onlyChanges t [.out, .xfers, .lines, .inj, .cmds, .power, .bpwr, .word 0x50 0x54, .activity, .host, .tap,
        .regs 0x08, .hdr 0x08, .geyser, .evts] ∧ t.ended c stOk 0 ∧
      t.samp.geyser.state = .armed ∧ t.samp.geyser.zero = (if s.gyKind = 0 then some (gridAfter s.gyGI s.now) else none) ∧
      t.samp.geyser.entity = argFld c s 0 0 14 ∧ t.samp.geyser.next = gridAfter s.gyGI s.now ∧ t.samp.geyser.staging = []) ∧
  (∀ (c : CmdIn) (s : State), s.takes c .operator = true → s.isDie = true → s.gyActive = false →
    480 * s.gyUnits.length ≤ 32 * (s.gyGI / ns) → s.gyPre * s.gyUnits.length ≤ 512 → s.gyKind = 1 → s.time.evts.length < 32 →
    s.now + s.gyPre * s.gyGI + 10 * us ≤ truncFT (s.regWide (pg 0x11) 0x48 3) →
    ∃ t, exec (.geyserArm c) s = .next t ∧ s.onlyChanges t [.out, .xfers, .lines, .inj, .cmds, .power, .bpwr, .word 0x50 0x54, .activity, .host, .tap,
        .regs 0x08, .hdr 0x08, .geyser, .evts] ∧
      (let z := gridAt s.gyGI (truncFT (s.regWide (pg 0x11) 0x48 3))
       t.waits c (.time z) ∧ t.samp.geyser.state = .armed ∧ t.samp.geyser.zero = some z ∧
       t.samp.geyser.next = z - s.gyPre * s.gyGI ∧ t.samp.geyser.page = some (c.pkg, c.page.toNat))) ∧
  (∀ (s : State), s.gyActive = true → s.samp.geyser.zero = none → s.earlierDue s.samp.geyser.next 5 = false →
    ∃ t, exec .geyserSample s = .next t ∧ s.onlyChanges t [.out, .xfers, .lines, .inj, .now, .mbox, .ringQ, .geyser, .probes, .cmds, .evts] ∧ t.now = max s.now s.samp.geyser.next ∧
      t.samp.geyser.next = s.samp.geyser.next + s.gyGI ∧ t.samp.geyser.state = s.samp.geyser.state ∧
      t.samp.geyser.staging.length ≤ max s.samp.geyser.staging.length (s.gyPre * s.gyUnits.length) ∧
      ∀ p ∈ s.gyUnits, (t.probe p).ginst = s.samp.geyser.next ∧
        ((s.probe p).ginst ≠ s.samp.geyser.next → (t.probe p).gcount = [])) ∧
  (∀ (z : FT) (s : State), s.gyActive = true → s.samp.geyser.zero = some z → s.earlierDue s.samp.geyser.next 5 = false →
    ∃ t, exec .geyserSample s = .next t ∧ s.onlyChanges t [.out, .xfers, .lines, .inj, .now, .mbox, .ringQ, .geyser, .probes, .cmds, .evts] ∧ t.now = max s.now s.samp.geyser.next ∧
      t.samp.geyser.next = s.samp.geyser.next + s.gyGI ∧
      (if z + s.gyPost * s.gyGI ≤ s.samp.geyser.next + s.gyGI then t.samp.geyser.state = .done ∧ t.samp.geyser.zero = none
       else t.samp.geyser.state = (if z ≤ s.samp.geyser.next then .post else .pre) ∧ t.samp.geyser.zero = some z)) ∧
  (∀ (g : GeyserTrigger) (s : State), g ≠ .fleetTime → s.samp.geyser.state = .armed → s.samp.geyser.zero = none → s.gyMatches g = true →
    ∃ t, exec (.geyserTrigger g) s = .next t ∧ s.onlyChanges t [.out, .xfers, .lines, .inj, .cmds, .evts, .now, .geyser, .mbox, .ringQ] ∧
      t.samp.geyser.zero = some (gridAfter s.gyGI s.now) ∧ t.samp.geyser.state = .pre ∧ t.samp.geyser.staging = []) ∧
  (∀ (pkg : Bool) (n : Nat) (z : FT) (s : State), s.samp.geyser.page = some (pkg, n) → s.samp.geyser.zero = some z → s.gyKind = 1 →
    s.gyActive = true → s.earlierDue z 5 = false →
    ∃ t, exec (.geyserTrigger .fleetTime) s = .next t ∧ s.onlyChanges t [.out, .xfers, .lines, .inj, .cmds, .evts, .now, .geyser, .mbox, .ringQ] ∧ t.now = max s.now z ∧
      t.samp.geyser = { s.samp.geyser with page := none } ∧ (t.cmd pkg n).busy = false ∧ (t.cmd pkg n).status = stOk) ∧
  (∀ (c : CmdIn) (s : State), s.takes c .operator = true → s.isDie = true →
    ∃ t, exec (.geyserStop c) s = .next t ∧ s.onlyChanges t [.out, .xfers, .lines, .inj, .cmds, .power, .bpwr, .word 0x50 0x54, .activity, .host, .tap,
        .regs 0x08, .hdr 0x08, .evts, .mbox, .ringQ, .geyser] ∧ t.ended c stOk 0 ∧
      (if s.gyActive then t.samp.geyser.state = .done ∧ t.samp.geyser.zero = none ∧ t.samp.geyser.page = none
       else t.samp.geyser = s.samp.geyser))

/-! ### Reductions (R121 to R162) -/

/-- R144 to R146: a child's partial is merged into its window, kept as that child's latest, and its acknowledgement owed or
sent; an expired wait emits the window, and its record is STALE; an acknowledgement empties the sent partial out of the
retention buffer, and no other. -/
def Obligations.PartialsMergeExpireAndAreKept : Prop :=
  (∀ (src : BitVec 16) (p : RedPartial) (s : State) (r : Rule) (w : Win), s.dark = false →
    (s.red 0).alarms = [] → (s.red 1).alarms = [] → s.redRule (if s.isHead then 1 else 0) p.slot = some r →
    s.redWin (if s.isHead then 1 else 0) p.slot p.window = some w →
    w.expected = none → w.got.contains (s.childOf src) = false →
    Tab.read natZero (s.red (if s.isHead then 1 else 0)).emitted p.slot ≤ p.window → p.chk = r.chk →
    ∃ t, exec (.partialMsg src p) s = .next t ∧ s.onlyChanges t [.out, .xfers, .lines, .inj, .redNodes, .hdr 0x40, .drift, .ringQ, .word 0x40 0x6C, .mbox,
        .svcNotices, .cores, .hdr 0x48, .gens, .hdr 0x18, .staged, .recs, .hdr 0x58, .mirror,
        .regs 0x18] ∧
      (let sc := if s.isHead then 1 else 0
       t.redWin sc p.slot p.window = some (mergeWin (s.fillOf (s.childOf src)) r (s.childOf src) p w) ∧
       p ∈ Tab.read noKids (t.red sc).kids (p.slot * 256 + s.childOf src) ∧ (t.red sc).slots = (s.red sc).slots ∧
       (s.mirrors = true → ∃ g, (src.toNat, p.slot, p.window, g) ∈ (t.red sc).acksOwed))) ∧
  (∀ (slot window : Nat) (s : State) (r : Rule) (w : Win), s.dark = false →
    (s.red 0).alarms = [] → (s.red 1).alarms = [] → s.redRule (if s.isSystem then 0 else 1) slot = some r →
    s.redWin (if s.isSystem then 0 else 1) slot window = some w →
    w.expected.isSome = true → (∀ q ∈ s.redRules (if s.isSystem then 0 else 1), q.src ≠ 6) →
    ∃ t, exec (.mergeWaitExpire slot window) s = .next t ∧ s.onlyChanges t [.out, .xfers, .lines, .inj, .redNodes, .hdr 0x40, .drift, .ringQ, .word 0x40 0x6C, .mbox,
        .svcNotices, .cores, .hdr 0x48, .now, .hdr 0x18, .staged, .recs, .hdr 0x58, .gens, .mirror,
        .regs 0x18] ∧
      (let sc := if s.isSystem then 0 else 1
       t.redWin sc slot window = none ∧ Tab.read natZero (t.red sc).emitted r.slot = w.window + 1 ∧
       bit (Tab.read SlotRec.empty (t.red sc).slots r.slot).stat flStale = true ∧
       (Tab.read SlotRec.empty (t.red sc).slots r.slot).window = w.window)) ∧
  (∀ (slot window : Nat) (s : State),
    ∃ t, exec (.partialAck slot window) s = .next t ∧ s.onlyChanges t [.out, .xfers, .lines, .inj, .mbox, .redNodes] ∧
      (let sc := if s.isHead then 1 else 0
       (∀ x ∈ (s.red sc).retained, (x.sent = true ∧ x.partl.slot = slot ∧ x.partl.window = window) ∨
         ∃ y ∈ (t.red sc).retained, y.partl = x.partl) ∧
       (∀ y ∈ (t.red sc).retained, ∃ x ∈ (s.red sc).retained, y.partl = x.partl ∧
         ¬(x.sent = true ∧ x.partl.slot = slot ∧ x.partl.window = window))))

/-- R155 to R162: RED_LOAD fetches its image and waits for it; RED_ACTIVATE waits for its close, and without an image or
unmeasured ends so with nothing pending; RED_CLEAR_SLOT waits for the slot's next window, RED_COPY_SLOT of a slot not bound
to the requester's job is DENIED, and RED_DUMP gives the image's length.
Completion, with nothing outside its frame changed: on every operand in every state redLoad, redActivate, redClearSlot,
redCopySlot, redDump each answer a next state. -/
def Obligations.ReductionCommandsLoadActivateAndCopy : Prop :=
  (∀ (c : CmdIn) (s : State), s.takes c .operator = true → 0 < min (argW c s 2).toNat redMaxImage →
    ∃ t, exec (.redLoad c) s = .next t ∧ s.onlyChanges t (commandParts ++ [.hdr 0x18]) ∧
      t.waits c (.transfer s.pages.nextXfer)) ∧
  (∀ (c : CmdIn) (s : State), s.takes c .operator = true →
    ∃ t, exec (.redActivate c) s = .next t ∧ s.onlyChanges t (commandParts ++ [.hdr 0x18, .redNodes]) ∧
      (if (s.red (scopeOf c.pkg)).inactive.valid = false then t.ended c stError 0x0E ∧ t.reds = s.reds
       else if s.isMeasured (redItem (scopeOf c.pkg) true) = false then t.ended c stUnmeasured 0 ∧ t.reds = s.reds
       else bit (argW c s 0) 0 = false → t.waits c (.event 1 0) ∧
         (t.red (scopeOf c.pkg)).acts = (s.red (scopeOf c.pkg)).acts ++ [s.pendAct c] ∧
         (t.red (scopeOf c.pkg)).active = (s.red (scopeOf c.pkg)).active)) ∧
  (∀ (c : CmdIn) (s : State), s.takes c .operator = true →
    ∃ t, exec (.redClearSlot c) s = .next t ∧ s.onlyChanges t (commandParts ++ [.redNodes]) ∧
      (if ((s.red (scopeOf c.pkg)).active.rules.any fun r => decide (r.slot = argFld c s 0 0 8)) = true then
         t.waits c (.event 2 (argFld c s 0 0 8)) ∧
           (t.red (scopeOf c.pkg)).clears = (s.red (scopeOf c.pkg)).clears ++ [(argFld c s 0 0 8, c.pkg, c.page.toNat)]
       else t.ended c stError 0x0F ∧ t.reds = s.reds)) ∧
  (∀ (c : CmdIn) (s : State), s.takes c .tenant = true →
    ∃ t, exec (.redCopySlot c) s = .next t ∧ s.onlyChanges t commandParts ∧
      (if s.slotBound c.req (argFld c s 0 0 8) = false then t.ended c stDenied 0
       else if arg64 c s 1 % 64 ≠ 0 then t.ended c stBadArg 0
       else t.reg (cmdKey c.pkg c.page.toNat) 0x100 =
         BitVec.ofNat 32 (slotBytes (Tab.read SlotRec.empty (s.red (scopeOf c.pkg)).slots (argFld c s 0 0 8))).length)) ∧
  (∀ (c : CmdIn) (s : State), s.takes c .operator = true →
    ∃ t, exec (.redDump c) s = .next t ∧ s.onlyChanges t commandParts ∧
      (let k := if bit (argW c s 0) 0 then (s.red (scopeOf c.pkg)).inactive else (s.red (scopeOf c.pkg)).active
       if k.valid = false then t.ended c stError 0x0E
       else t.reg (cmdKey c.pkg c.page.toNat) 0x100 = BitVec.ofNat 32 k.image.length)) ∧
  (∀ (c : CmdIn) (s : State),
    (∃ t, exec (.redLoad c) s = .next t ∧ s.onlyChanges t [.out, .xfers, .lines, .inj, .cmds, .power, .bpwr, .word 0x50 0x54, .activity, .host, .tap,
        .regs 0x08, .hdr 0x08, .hdr 0x18, .gens, .meas, .redNodes]) ∧
    (∃ t, exec (.redActivate c) s = .next t ∧ s.onlyChanges t [.out, .xfers, .lines, .inj, .cmds, .power, .bpwr, .word 0x50 0x54, .activity, .host, .tap, .regs 0x08, .hdr 0x08, .redNodes]) ∧
    (∃ t, exec (.redClearSlot c) s = .next t ∧ s.onlyChanges t [.out, .xfers, .lines, .inj, .cmds, .power, .bpwr, .word 0x50 0x54, .activity, .host, .tap, .regs 0x08, .hdr 0x08, .redNodes]) ∧
    (∃ t, exec (.redCopySlot c) s = .next t ∧ s.onlyChanges t [.out, .xfers, .lines, .inj, .cmds, .power, .bpwr, .word 0x50 0x54, .activity, .host, .tap, .regs 0x08, .hdr 0x08]) ∧
    (∃ t, exec (.redDump c) s = .next t ∧ s.onlyChanges t [.out, .xfers, .lines, .inj, .cmds, .power, .bpwr, .word 0x50 0x54, .activity, .host, .tap, .regs 0x08, .hdr 0x08]))

/-- R152, R159: a write of KX_RED_SLOT selects a slot, and a read of the captured record's first word captures that slot's
record; a write of KX_RED_QP stores QP, 0 as 1, and captures the record afresh.
Completion, with nothing outside its frame changed: on every operand in every state slotCapture, qpWrite each answer a next
state. -/
def Obligations.SlotRecordsAreCaptured : Prop :=
  (∀ (a : Access) (s : State), s.mayRead a (pg 0x18) 0x200 → s.redDenied (pg 0x18) 0x200 a.req = false →
    ∃ t, exec (.slotCapture a) s = .next t ∧ s.onlyChanges t (accessParts ++ [.redNodes]) ∧
      (let x := Tab.read SlotRec.empty (s.red 0).slots (s.regFld (pg 0x18) 0x54 0 8)
       (t.red 0).latchRec = x ∧ (t.red 0).latch = padTo 1096 (slotBytes x) ∧ (t.red 0).slots = (s.red 0).slots)) ∧
  (∀ (a : Access) (s : State), s.mayWrite a (pg 0x18) 0x58 → (s.hdr (pg 0x18)).guard = none →
    ∃ t, exec (.qpWrite a) s = .next t ∧ s.answered t a.req .ok 0 ∧ s.onlyChanges t (accessParts ++ [.regs 0x18, .redNodes, .gens]) ∧
      t.reg (pg 0x18) 0x58 = BitVec.ofNat 32 (if fld a.data 0 16 = 0 then 1 else fld a.data 0 16) ∧
      (t.red 0).latchRec = Tab.read SlotRec.empty (s.red 0).slots (s.regFld (pg 0x18) 0x54 0 8)) ∧
  (∀ (a : Access) (s : State),
    (∃ t, exec (.slotCapture a) s = .next t ∧ s.onlyChanges t (([.out, .xfers, .lines, .inj, .allHdrs, .power, .bpwr, .cmds, .activity, .staged, .recs,
        .snap, .heldRecs, .host, .tap, .evts, .grid, .bcasts, .mbox, .probes, .pace, .clusters,
        .violations, .ports, .suspects, .gens, .spares, .regions, .geyser, .ringQ, .meas, .redNodes,
        .engines, .ftab, .kernels, .notices, .kats, .taint, .clock, .relock, .pps, .now, .tick,
        .tports, .svcNotices, .jobs, .waves, .snuff, .profiles,
        .watch] : List Part) ++ ([.redInputs, .cores, .rails, .snaps, .mirror, .replicas, .drift,
        .droops, .pkg, .rings, .sinter, .proxies, .chans, .links, .verify, .linkKeys, .peers,
        .plans, .forced, .change, .trace, .latches, .token, .log, .free, .rotState, .firmware,
        .allRegs, .tables, .rotOrders] : List Part))) ∧
    (∃ t, exec (.qpWrite a) s = .next t ∧ s.onlyChanges t (([.out, .xfers, .lines, .inj, .allHdrs, .power, .bpwr, .cmds, .activity, .staged, .recs,
        .snap, .heldRecs, .host, .tap, .evts, .grid, .bcasts, .mbox, .probes, .pace, .clusters,
        .violations, .ports, .suspects, .gens, .spares, .regions, .geyser, .ringQ, .meas, .redNodes,
        .engines, .ftab, .kernels, .notices, .kats, .taint, .clock, .relock, .pps, .now, .tick,
        .tports, .svcNotices, .jobs, .waves, .snuff, .profiles,
        .watch] : List Part) ++ ([.redInputs, .cores, .rails, .snaps, .mirror, .replicas, .drift,
        .droops, .pkg, .rings, .sinter, .proxies, .chans, .links, .verify, .linkKeys, .peers,
        .plans, .forced, .change, .trace, .latches, .token, .log, .free, .rotState, .firmware,
        .allRegs, .tables, .rotOrders] : List Part))))

/-! ### The forest engine (R163 to R202) -/

/-- R175, R180, R183: a batch takes the eligible entities of its close once, each issue takes the next of them into flight, and
the oldest in flight leaves its verdict in the table and, unless UNSCORED, among the ENTITY elements.
Completion, with nothing outside its frame changed: on every operand in every state batchStart, inferenceIssue, verdictOut
each answer a next state. -/
def Obligations.BatchesIssueAndPostVerdicts : Prop :=
  (∀ (e epoch window : Nat) (s : State), e < s.engineCount → s.forestRuns = true → (s.engine e).active.valid = true →
    s.batchClose (s.engine e).active = some (epoch, window) → (s.engine e).done ≤ epoch → (s.engine e).batch = none →
    (s.engine e).scores = [] →
    ∃ t, exec (.batchStart e) s = .next t ∧ s.onlyChanges t [.out, .xfers, .lines, .inj, .engines, .word 0x20 0x54, .staged, .recs, .hdr 0x58,
        .hdr 0x20, .word 0x20 0x5C, .regs 0x08, .cmds, .now] ∧ (t.engine e).done = epoch + 1 ∧
      (let todo := eligible (s.engine e).active (s.snapOf epoch).dir (s.engine e).next
       if rewrites (s.engine e) = false then
         (t.engine e).batch.map (·.todo) = some todo ∧ (t.engine e).batch.map (·.epoch) = some epoch ∧
           (t.engine e).tag = BitVec.ofNat 8 epoch ∧ (t.engine e).issued = 0
       else (t.engine e).batch = none)) ∧
  (∀ (e x y : Nat) (rest : List Nat) (b : Batch) (s : State), (s.engine e).batch = some b → b.todo = x :: y :: rest → b.limit = none →
    s.forestRuns = true → rewrites (s.engine e) = false →
    ∃ t, exec (.inferenceIssue e) s = .next t ∧ s.onlyChanges t [.out, .xfers, .lines, .inj, .now, .word 0x02 0x58, .hdr 0x20, .engines, .word 0x20 0x58,
        .word 0x20 0x5C, .staged, .recs, .hdr 0x58, .regs 0x08, .cmds, .word 0x20 0x54] ∧
      (t.engine e).batch.map (·.todo) = some (y :: rest) ∧ (t.engine e).next = (x + 1) % 16384 ∧
      (t.engine e).issued = (s.engine e).issued + 1 ∧
      ∃ v : Verdict, (t.engine e).flight = (s.engine e).flight ++ [v] ∧ v.entity = x ∧ v.epoch = b.epoch) ∧
  (∀ (e : Nat) (v : Verdict) (vs : List Verdict) (s : State), (s.engine e).flight = v :: vs →
    ∃ t, exec (.verdictOut e) s = .next t ∧ s.onlyChanges t [.out, .xfers, .lines, .inj, .engines, .drift, .ringQ, .word 0x40 0x6C, .mbox, .svcNotices,
        .suspects, .redInputs, .geyser, .word 0x20 0x84, .trace, .droops] ∧
      (t.engine e).flight = vs ∧ Tab.read wordZero (t.engine e).table v.entity = vdataWord v ∧
      (t.engine e).active = (s.engine e).active ∧
      t.reds.verdicts = s.reds.verdicts ++ (if bit v.flags vfUnscored then [] else [(v.entity, v.code.toNat, v.sum)])) ∧
  (∀ (engine : Nat) (s : State),
    (∃ t, exec (.batchStart engine) s = .next t ∧ s.onlyChanges t [.out, .xfers, .lines, .inj, .engines, .word 0x20 0x54, .staged, .recs, .hdr 0x58,
        .hdr 0x20, .word 0x20 0x5C, .regs 0x08, .cmds, .now]) ∧
    (∃ t, exec (.inferenceIssue engine) s = .next t ∧ s.onlyChanges t [.out, .xfers, .lines, .inj, .now, .word 0x02 0x58, .hdr 0x20, .engines, .word 0x20 0x58,
        .word 0x20 0x5C, .staged, .recs, .hdr 0x58, .regs 0x08, .cmds, .word 0x20 0x54]) ∧
    (∃ t, exec (.verdictOut engine) s = .next t ∧ s.onlyChanges t [.out, .xfers, .lines, .inj, .engines, .drift, .ringQ, .word 0x40 0x6C, .mbox, .svcNotices,
        .suspects, .redInputs, .geyser, .word 0x20 0x84, .trace, .droops]))

/-- R193 to R196: scrubbing moves to the bank's next row, and a row that passes is marked clean; a failing bank moves to the spare bank, or is
dead where that is in use; the end of an activation's rewrite swaps the copies and advances ACT.
Completion, with nothing outside its frame changed: on every operand in every state scrubRow, bankMove, tcamRewrite each
answer a next state. -/
def Obligations.BanksAreScrubbedMovedAndRewritten : Prop :=
  (∀ (e bank : Nat) (bad : Bool) (s : State), e < s.engineCount → bank < 64 → s.bpwr.state ≠ .doze →
    ∃ t, exec (.scrubRow e bank bad false) s = .next t ∧ s.onlyChanges t [.out, .xfers, .lines, .inj, .hdr 0x20, .engines, .staged, .recs, .hdr 0x58, .word 0x20 0x60, .hdr 0x12, .gens, .spares, .mbox] ∧
      (let row := Tab.read natZero (s.engine e).scrubRow bank
       Tab.read natZero (t.engine e).scrubRow bank = (if row = 1025 then 0 else row + 1) ∧
       (bad = false → bit (s.hdr (pageKey 0x20 e 0)).inj 31 = false → Tab.read natZero (t.engine e).clean (bank * 1026 + row) = s.ft) ∧
       (bad = true → bit (t.hdr (pageKey 0x20 e 0)).err 19 = true ∧ t.fum.seq = s.fum.seq + 1))) ∧
  (∀ (e bank : Nat) (s : State), e < s.engineCount → bank < 64 → (s.engine e).dead.contains bank = false →
    ∃ t, exec (.bankMove e bank) s = .next t ∧ s.onlyChanges t [.out, .xfers, .lines, .inj, .engines, .staged, .recs, .hdr 0x58, .hdr 0x12, .gens, .spares, .hdr 0x20, .mbox] ∧
      (if (s.engine e).bankFor = none then
         (t.engine e).bankFor = some bank ∧ (t.engine e).rebuild = (s.engine e).rebuild ++ [.move bank]
       else (t.engine e).bankFor = (s.engine e).bankFor ∧ (t.engine e).dead = (s.engine e).dead ++ [bank])) ∧
  (∀ (e : Nat) (k : Rebuild) (ks : List Rebuild) (s : State), (s.engine e).rebuild = k :: ks → (s.engine e).scores = [] →
    ∃ t, exec (.tcamRewrite e) s = .next t ∧ s.onlyChanges t [.out, .xfers, .lines, .inj, .engines, .gens, .meas, .hdr 0x20, .word 0x20 0x5C, .regs 0x08, .cmds] ∧ (t.engine e).rebuild = ks ∧
      (match k with
       | .activate => if (s.engine e).inactive.valid = true ∧ s.isMeasured (forestItem e true) = true then
           (t.engine e).active = (s.engine e).inactive ∧ (t.engine e).inactive = (s.engine e).active ∧
             (t.engine e).act = (s.engine e).act + 1 ∧ (t.engine e).next = 0 ∧ (t.engine e).table = []
         else (t.engine e).active = (s.engine e).active ∧ (t.engine e).act = (s.engine e).act
       | _ => (t.engine e).active = (s.engine e).active ∧ (t.engine e).act = (s.engine e).act)) ∧
  (∀ (engine bank : Nat) (bad stuck : Bool) (s : State),
    ∃ t, exec (.scrubRow engine bank bad stuck) s = .next t ∧ s.onlyChanges t [.out, .xfers, .lines, .inj, .hdr 0x20, .engines, .staged, .recs, .hdr 0x58, .word 0x20 0x60, .hdr 0x12, .gens, .spares, .mbox]) ∧
  (∀ (engine bank : Nat) (s : State),
    ∃ t, exec (.bankMove engine bank) s = .next t ∧ s.onlyChanges t [.out, .xfers, .lines, .inj, .engines, .staged, .recs, .hdr 0x58, .hdr 0x12, .gens, .spares, .hdr 0x20, .mbox]) ∧
  (∀ (engine : Nat) (s : State),
    ∃ t, exec (.tcamRewrite engine) s = .next t ∧ s.onlyChanges t [.out, .xfers, .lines, .inj, .engines, .gens, .meas, .hdr 0x20, .word 0x20 0x5C, .regs 0x08, .cmds])

/-- R192 to R202: FOREST_LOAD and FTAB_LOAD fetch their image, and with no length end BAD_MAGIC; FOREST_ACTIVATE waits for its
close, or ends NO_IMAGE or UNMEASURED; FOREST_SCORE with a free slot ends OK, else waits for one and, after 1 ms, ends
TIMEOUT; FOREST_DUMP gives the image's length.
Completion, with nothing outside its frame changed: on every operand in every state forestLoad, forestActivate, forestScore,
forestDump, scoreSlotTimeout each answer a next state. -/
def Obligations.ForestCommandsLoadActivateAndScore : Prop :=
  (∀ (c : CmdIn) (s : State), s.takes c .firmware = true →
    ∃ t, exec (.forestLoad c) s = .next t ∧ s.onlyChanges t (commandParts ++ [.hdr 0x20]) ∧
      (if (argW c s 2).toNat = 0 then t.ended c stError 1 ∧ bit (t.hdr (fPage (engineArg c s))).err 17 = true
       else t.waits c (.transfer s.pages.nextXfer))) ∧
  (∀ (c : CmdIn) (s : State), s.takes c .firmware = true →
    ∃ t, exec (.forestActivate c) s = .next t ∧ s.onlyChanges t (commandParts ++ [.hdr 0x20, .engines]) ∧
      (let e := engineArg c s
       if (s.engine e).inactive.valid = false then t.ended c stError 0x0E ∧ t.forest = s.forest
       else if s.isMeasured (forestItem e true) = false then t.ended c stUnmeasured 0 ∧ t.forest = s.forest
       else bit (argW c s 0) 0 = false → t.waits c (.event 1 0) ∧
         (t.engine e).acts = (s.engine e).acts ++ [s.pendAct c] ∧ (t.engine e).active = (s.engine e).active)) ∧
  (∀ (c : CmdIn) (s : State), s.takes c .operator = true →
    ∃ t, exec (.forestScore c) s = .next t ∧ s.onlyChanges t (commandParts ++ [.engines, .hdr 0x20, .word 0x20 0x5C]) ∧
      (if c.nargs ≠ 32 then t.ended c stBadArg 0
       else if (s.engine 0).active.valid = false then t.ended c stError 0x0E
       else if scoreFree (s.engine 0) then t.ended c stOk 0
       else t.waits c (.event 3 0))) ∧
  (∀ (c : CmdIn) (s : State), s.takes c .firmware = true →
    ∃ t, exec (.forestDump c) s = .next t ∧ s.onlyChanges t commandParts ∧
      (let k := if bit (argW c s 0) 0 then (s.engine 0).inactive else (s.engine 0).active
       if k.valid = false then t.ended c stError 0x0E
       else t.reg (cmdKey c.pkg c.page.toNat) 0x100 = BitVec.ofNat 32 k.image.length)) ∧
  (∀ (pkg : Bool) (page : BitVec 3) (s : State), { pkg, page := page.toNat } ∈ (s.engine 0).scores →
    ∃ t, exec (.scoreSlotTimeout pkg page) s = .next t ∧ s.onlyChanges t [.out, .xfers, .lines, .inj, .cmds, .engines] ∧
      (t.cmd pkg page.toNat).busy = false ∧ (t.cmd pkg page.toNat).status = stTimeout ∧
      { pkg, page := page.toNat } ∉ (t.engine 0).scores) ∧
  (∀ (c : CmdIn) (s : State),
    (∃ t, exec (.forestLoad c) s = .next t ∧ s.onlyChanges t [.out, .xfers, .lines, .inj, .cmds, .power, .bpwr, .word 0x50 0x54, .activity, .host, .tap, .regs 0x08, .hdr 0x08, .hdr 0x20]) ∧
    (∃ t, exec (.forestActivate c) s = .next t ∧ s.onlyChanges t [.out, .xfers, .lines, .inj, .cmds, .power, .bpwr, .word 0x50 0x54, .activity, .host, .tap, .regs 0x08, .hdr 0x08, .engines]) ∧
    (∃ t, exec (.forestScore c) s = .next t ∧ s.onlyChanges t [.out, .xfers, .lines, .inj, .cmds, .power, .bpwr, .word 0x50 0x54, .activity, .host, .tap,
        .regs 0x08, .hdr 0x08, .hdr 0x20, .word 0x20 0x5C, .engines]) ∧
    (∃ t, exec (.forestDump c) s = .next t ∧ s.onlyChanges t [.out, .xfers, .lines, .inj, .cmds, .power, .bpwr, .word 0x50 0x54, .activity, .host, .tap, .regs 0x08, .hdr 0x08])) ∧
  (∀ (pkg : Bool) (page : BitVec 3) (s : State),
    ∃ t, exec (.scoreSlotTimeout pkg page) s = .next t ∧ s.onlyChanges t [.out, .xfers, .lines, .inj, .cmds, .engines])

/-- R187, R201, R202: FTAB_SEAL measures the inactive copy and FTAB_ACTIVATE waits for its close, FTAB_COPY makes the inactive
copy the active one's; a write of DIR changes the inactive copy, which is no longer measured, and with the active copy
selected only sets ACT_WRITE.
Completion, with nothing outside its frame changed: on every operand in every state ftabLoad, ftabSeal, ftabActivate,
ftabCopy, ftabWrite each answer a next state. -/
def Obligations.FeatureTableIsSealedActivatedAndWritten : Prop :=
  (∀ (c : CmdIn) (s : State), s.takes c .firmware = true →
    ∃ t, exec (.ftabLoad c) s = .next t ∧ s.onlyChanges t (commandParts ++ [.hdr 0x21]) ∧
      (if min (argW c s 2).toNat ftabMax = 0 then t.ended c stError 1 ∧ bit (t.hdr (pg 0x21)).err 17 = true
       else t.waits c (.transfer s.pages.nextXfer))) ∧
  (∀ (c : CmdIn) (s : State), s.takes c .firmware = true →
    ∃ t, exec (.ftabSeal c) s = .next t ∧ s.onlyChanges t (commandParts ++ [.hdr 0x21, .ftab, .meas, .gens]) ∧
      (if s.forest.ftab.inactive.valid = false then t.ended c stError 0x0E ∧ t.forest = s.forest
       else t.waits c (.measure (ftabItem true)) ∧ (t.meas (ftabItem true)).status = .unmeasured ∧
         t.forest.ftab = { s.forest.ftab with dirty := false })) ∧
  (∀ (c : CmdIn) (s : State), s.takes c .firmware = true →
    ∃ t, exec (.ftabActivate c) s = .next t ∧ s.onlyChanges t (commandParts ++ [.ftab]) ∧
      (if s.forest.ftab.inactive.valid = false then t.ended c stError 0x0E ∧ t.forest = s.forest
       else if s.isMeasured (ftabItem true) = false then t.ended c stUnmeasured 0 ∧ t.forest = s.forest
       else bit (argW c s 0) 0 = false → t.waits c (.event 1 0) ∧
         t.forest.ftab = { s.forest.ftab with acts := s.forest.ftab.acts ++ [s.pendAct c] })) ∧
  (∀ (c : CmdIn) (s : State), s.takes c .firmware = true →
    ∃ t, exec (.ftabCopy c) s = .next t ∧ s.onlyChanges t (commandParts ++ [.ftab, .meas]) ∧
      (if s.forest.ftab.active.valid = false then t.ended c stError 0x0E ∧ t.forest = s.forest
       else t.ended c stOk 0 ∧ t.forest.ftab = { s.forest.ftab with inactive := s.forest.ftab.active, dirty := false } ∧
         t.meas (ftabItem true) = s.meas (ftabItem false))) ∧
  (∀ (a : Access) (s : State), s.mayWrite a (pg 0x21) 0x48 → (s.hdr (pg 0x21)).guard = none → s.eitherRuns 0x200010 = false →
    ∃ t, exec (.ftabWrite a) s = .next t ∧ s.answered t a.req .ok 0 ∧
      s.onlyChanges t (accessParts ++ [.hdr 0x21, .ftab, .meas, .gens, .cmds]) ∧
      (if bit (s.reg (pg 0x21) 0x44) 31 = false then bit (t.hdr (pg 0x21)).err 16 = true ∧ t.forest = s.forest
       else Tab.read wordZero t.forest.ftab.inactive.dir (s.regFld (pg 0x21) 0x44 0 14) = a.data &&& 0x9FFFFFFF ∧
         t.forest.ftab.active = s.forest.ftab.active ∧ t.forest.ftab.dirty = true ∧
         (t.meas (ftabItem true)).status = .unmeasured)) ∧
  (∀ (c : CmdIn) (s : State),
    (∃ t, exec (.ftabLoad c) s = .next t ∧ s.onlyChanges t [.out, .xfers, .lines, .inj, .cmds, .power, .bpwr, .word 0x50 0x54, .activity, .host, .tap, .regs 0x08, .hdr 0x08, .hdr 0x21]) ∧
    (∃ t, exec (.ftabSeal c) s = .next t ∧ s.onlyChanges t [.out, .xfers, .lines, .inj, .cmds, .power, .bpwr, .word 0x50 0x54, .activity, .host, .tap,
        .regs 0x08, .hdr 0x08, .gens, .meas, .ftab]) ∧
    (∃ t, exec (.ftabActivate c) s = .next t ∧ s.onlyChanges t [.out, .xfers, .lines, .inj, .cmds, .power, .bpwr, .word 0x50 0x54, .activity, .host, .tap, .regs 0x08, .hdr 0x08, .ftab]) ∧
    (∃ t, exec (.ftabCopy c) s = .next t ∧ s.onlyChanges t [.out, .xfers, .lines, .inj, .cmds, .power, .bpwr, .word 0x50 0x54, .activity, .host, .tap,
        .regs 0x08, .hdr 0x08, .meas, .ftab])) ∧
  (∀ (a : Access) (s : State),
    ∃ t, exec (.ftabWrite a) s = .next t ∧ s.onlyChanges t (([.out, .xfers, .lines, .inj, .allHdrs, .power, .bpwr, .cmds, .activity, .staged, .recs,
        .snap, .heldRecs, .host, .tap, .evts, .grid, .bcasts, .mbox, .probes, .pace, .clusters,
        .violations, .ports, .suspects, .gens, .spares, .regions, .geyser, .ringQ, .meas, .redNodes,
        .engines, .ftab, .kernels, .notices, .kats, .taint, .clock, .relock, .pps, .now, .tick,
        .tports, .svcNotices, .jobs, .waves, .snuff, .profiles,
        .watch] : List Part) ++ ([.redInputs, .cores, .rails, .snaps, .mirror, .replicas, .drift,
        .droops, .pkg, .rings, .sinter, .proxies, .chans, .links, .verify, .linkKeys, .peers,
        .plans, .forced, .change, .trace, .latches, .token, .log, .free, .rotState, .firmware,
        .allRegs, .tables, .rotOrders] : List Part)))

/-! ### Silent-corruption checks (R203 to R229) -/

/-- R203, R209, R226: a report that comes while the checker does not run is held at its probe, one at most; a whole report of the
present taint epoch becomes one CHECK element.
Completion, with nothing outside its frame changed: on every operand in every state tileReport answers a next state. -/
def Obligations.TileReportsAreHeldOrTaken : Prop :=
  (∀ (u : Nat) (words : List Word) (last : Bool) (s : State), s.chanOpen (.converter .probe u) = true → s.present u = true → s.checkerRuns = false →
    ∃ t, exec (.tileReport u words last) s = .next t ∧ s.onlyChanges t [.taint, .lines, .xfers, .out, .inj] ∧
      Tab.read noReport t.check.held u = (match Tab.read noReport s.check.held u with
        | some r => some r
        | none => some (words, last)) ∧
      ∀ q, q ≠ u → Tab.read noReport t.check.held q = Tab.read noReport s.check.held q) ∧
  (∀ (u : Nat) (words : List Word) (s : State), s.chanOpen (.converter .probe u) = true → s.present u = true → s.checkerRuns = true → words.length = 7 →
    fld (words.getD 0 0) 24 8 ≠ 255 → fld (words.getD 0 0) 0 16 = s.check.taint % 2 ^ 16 → bit (s.hdr (pg 0x28)).inj 31 = false →
    ∃ t, exec (.tileReport u words true) s = .next t ∧ s.onlyChanges t [.out, .xfers, .lines, .inj, .taint, .kernels, .staged, .recs, .hdr 0x58, .regs 0x93,
        .regs 0x91, .regs 0x38, .violations, .ports, .suspects, .hdr 0x28, .hdr 0x12, .gens,
        .spares, .probes, .kats, .cmds, .word 0x08 0x100, .notices, .ringQ, .mbox, .word 0x28 0xC4,
        .redInputs] ∧
      t.reds.tiles = s.reds.tiles ++ [{ probe := u, diff := tileDiff (words.getD 2 0) (words.getD 3 0), tmin := words.getD 4 0, tmax := words.getD 5 0, nans := fld (words.getD 6 0) 16 16, infs := fld (words.getD 6 0) 0 16 }]) ∧
  (∀ (probe : Nat) (words : List Word) (last : Bool) (s : State),
    ∃ t, exec (.tileReport probe words last) s = .next t ∧ s.onlyChanges t [.out, .xfers, .lines, .inj, .taint, .kernels, .staged, .recs, .hdr 0x58, .regs 0x93,
        .regs 0x91, .regs 0x38, .violations, .ports, .suspects, .hdr 0x28, .hdr 0x12, .gens,
        .spares, .probes, .kats, .cmds, .word 0x08 0x100, .notices, .ringQ, .mbox, .word 0x28 0xC4,
        .redInputs])

/-- R213 to R215: one test runs at a time, on the selected unit, from the acknowledge of TEST; a signature that agrees records the
pass and clears SUSPECT, any other and the time limit fail the unit with TEST_FAIL, and TEST falls; an
acknowledge that stands after its gate has fallen falls.
Completion, with nothing outside its frame changed: on every operand in every state katStart, testAck, signatureReport,
katTimeout each answer a next state. -/
def Obligations.KnownAnswerTestsPassOrFail : Prop :=
  (∀ (u : Nat) (s : State), s.check.kat = none → s.checkerRuns = true → s.katSelect = some u →
    ∃ t, exec .katStart s = .next t ∧ s.onlyChanges t [.out, .xfers, .lines, .inj, .probes, .kats] ∧
      t.check.kat = some { unit := u, acked := false, ackTime := 0, taint := s.check.taint, abandoned := false } ∧
      (s.present u = true → (s.probe u).test.raised = false → (s.probe u).test.ack = false → (t.probe u).test.raised = true)) ∧
  (∀ (u : Nat) (s : State), s.chanOpen (.converter .probe u) = true → (∀ k, s.check.kat = some k → k.unit ≠ u) →
    (s.probe u).test.ack = true → (s.probe u).test.raised = false →
    ∃ t, exec (.testAck u) s = .next t ∧ s.onlyChanges t [.out, .xfers, .lines, .inj, .probes, .kats] ∧ t.check = s.check ∧
      t.probe u = { s.probe u with test := Gate.reset } ∧ ∀ q, q ≠ u → t.probe q = s.probe q) ∧
  (∀ (u : Nat) (k : KatRun) (s : State), s.chanOpen (.converter .probe u) = true → s.check.kat = some k → k.unit = u → k.acked = false →
    ∃ t, exec (.testAck u) s = .next t ∧ s.onlyChanges t [.out, .xfers, .lines, .inj, .probes, .kats] ∧
      (if k.abandoned then t.check.kat = none ∧ (t.probe u).test = { raised := false, ack := true, ticks := 0 }
       else t.check.kat = some { k with acked := true, ackTime := s.now } ∧ (t.probe u).test.ack = true)) ∧
  (∀ (u : Nat) (words : List Word) (k : KatRun) (s : State), s.chanOpen (.converter .probe u) = true → s.present u = true → s.checkerRuns = true → words.length = 7 →
    fld (words.getD 0 0) 24 8 = 255 → s.check.kat = some k → k.unit = u → k.acked = true → bit (s.hdr (pg 0x28)).inj 31 = false →
    ∃ t, exec (.signatureReport u words) s = .next t ∧ s.onlyChanges t [.out, .xfers, .lines, .inj, .taint, .kernels, .staged, .recs, .hdr 0x58, .regs 0x93,
        .regs 0x91, .regs 0x38, .violations, .ports, .suspects, .hdr 0x28, .hdr 0x12, .gens,
        .spares, .probes, .kats, .cmds, .word 0x08 0x100, .notices, .ringQ, .mbox, .word 0x28 0xC4,
        .redInputs] ∧ t.check.kat = none ∧ t.check.katLastUnit = u ∧
      (let good := decide (fld (words.getD 1 0) 0 32 = fld (s.sigWord u 0) 0 16) &&
         (List.range 4).all fun i => decide (words.getD (2 + i) 0 = s.sigWord u (1 + i))
       if good then t.check.katLast = 1 ∧ Tab.read boolFalse t.check.suspect u = false ∧
         Tab.read noPass t.check.passes u = some { time := s.now, taint := k.taint }
       else t.check.katLast = 2 ∧ bit (t.hdr (pg 0x28)).err 17 = true ∧ t.check.passes = s.check.passes)) ∧
  (∀ (k : KatRun) (s : State), s.check.kat = some k → k.acked = true →
    ∃ t, exec .katTimeout s = .next t ∧ s.onlyChanges t [.out, .xfers, .lines, .inj, .suspects, .staged, .recs, .hdr 0x58, .hdr 0x28, .hdr 0x12,
        .gens, .spares, .probes, .notices, .ringQ, .mbox, .word 0x28 0xC4, .kats, .cmds,
        .violations, .word 0x08 0x100, .now] ∧ t.check.kat = none ∧ t.check.katLast = 3 ∧ t.check.katLastUnit = k.unit ∧
      bit (t.hdr (pg 0x28)).err 17 = true ∧ t.now = max s.now (k.ackTime + s.regFld (pg 0x28) 0x50 0 16 * us)) ∧
  (∀ (s : State),
    (∃ t, exec .katStart s = .next t ∧ s.onlyChanges t [.out, .xfers, .lines, .inj, .probes, .kats]) ∧
    (∃ t, exec .katTimeout s = .next t ∧ s.onlyChanges t [.out, .xfers, .lines, .inj, .suspects, .staged, .recs, .hdr 0x58, .hdr 0x28, .hdr 0x12,
        .gens, .spares, .probes, .notices, .ringQ, .mbox, .word 0x28 0xC4, .kats, .cmds,
        .violations, .word 0x08 0x100, .now])) ∧
  (∀ (probe : Nat) (s : State),
    ∃ t, exec (.testAck probe) s = .next t ∧ s.onlyChanges t [.out, .xfers, .lines, .inj, .probes, .kats]) ∧
  (∀ (probe : Nat) (words : List Word) (s : State),
    ∃ t, exec (.signatureReport probe words) s = .next t ∧ s.onlyChanges t [.out, .xfers, .lines, .inj, .taint, .kernels, .staged, .recs, .hdr 0x58, .regs 0x93,
        .regs 0x91, .regs 0x38, .violations, .ports, .suspects, .hdr 0x28, .hdr 0x12, .gens,
        .spares, .probes, .kats, .cmds, .word 0x08 0x100, .notices, .ringQ, .mbox, .word 0x28 0xC4,
        .redInputs])

/-- R223: a whole notice goes to the ring once, and one that is written already, or that has no room, is acknowledged to its ORIGIN; a damaged one is discarded; an
acknowledgement ends the re-sendings of its notice, and after eight of them the notice counts as undelivered, with one record.
Completion, with nothing outside its frame changed: on every operand in every state poison, poisonAck, poisonResend each
answer a next state. -/
def Obligations.NoticesAreAcknowledgedOrSentAgain : Prop :=
  (∀ (b : List Byte) (s : State), s.isDie = true →
    ∃ t, exec (.poison b) s = .next t ∧ s.onlyChanges t [.out, .xfers, .lines, .inj, .mbox, .ringQ, .notices, .word 0x28 0xC4] ∧
      (if b.length ≠ 64 ∨ b.getD 0 0 ≠ 1 ∨ crc32c (b.take 60) ≠ word (leAt b 60 4) then t.mbox = s.mbox ∧ t.check = s.check
       else
         let o := word (leAt b 16 4)
         let dest : Dest := .node (nodeOf 0 (fld o 22 6) (fld o 17 5) (fld o 14 3))
         if s.check.seen.contains (noticeKey b) = true ∧ (s.ringWaiting poisonRing).any (fun w => decide (noticeKey w.bytes = noticeKey b)) = false then
           nodeOf 0 (fld o 22 6) (fld o 17 5) (fld o 14 3) ≠ s.node →
           t.mbox = s.mbox ++ (s.route dest).map (fun p => (p, { typ := 0x32, tag := 0, dest := dest, payload := leBytes 4 o.toNat ++ leBytes 4 (leAt b 20 4) ++ leBytes 2 s.node.toNat ++ zeros 2 }))
         else s.ringRoom poisonRing 64 = true → s.check.seen.contains (noticeKey b) = false →
           t.pages.ringQ.map (·.bytes) = s.pages.ringQ.map (·.bytes) ++ [b] ∧ noticeKey b ∈ t.check.seen)) ∧
  (∀ (b : List Byte) (s : State), s.isDie = true → b.length = 64 → b.getD 0 0 = 1 → crc32c (b.take 60) = word (leAt b 60 4) →
    s.check.seen.contains (noticeKey b) = false → s.ringRoom poisonRing 64 = false →
    ∃ t, exec (.poison b) s = .next t ∧ s.onlyChanges t [.out, .xfers, .lines, .inj, .mbox, .ringQ, .notices, .word 0x28 0xC4] ∧ t.check = s.check ∧ t.pages.ringQ = s.pages.ringQ ∧
      (let o := word (leAt b 16 4)
       let dest : Dest := .node (nodeOf 0 (fld o 22 6) (fld o 17 5) (fld o 14 3))
       nodeOf 0 (fld o 22 6) (fld o 17 5) (fld o 14 3) ≠ s.node →
         t.mbox = s.mbox ++ (s.route dest).map (fun p => (p, { typ := 0x32, tag := 0, dest := dest, payload := leBytes 4 o.toNat ++ leBytes 4 (leAt b 20 4) ++ leBytes 2 s.node.toNat ++ zeros 2 })))) ∧
  (∀ (seq : BitVec 32) (loc : BitVec 16) (s : State),
    ∃ t, exec (.poisonAck seq loc) s = .next t ∧ s.onlyChanges t [.notices, .lines, .xfers, .out, .inj] ∧
      t.check.unacked = s.check.unacked.filter (fun n => !(decide (n.seq = seq) && decide (locNode n.loc = locNode loc)))) ∧
  (∀ (seq : BitVec 32) (loc : BitVec 16) (n : Notice) (s : State),
    s.check.unacked.find? (fun n => decide (n.seq = seq) && decide (locNode n.loc = locNode loc)) = some n →
    ∃ t, exec (.poisonResend seq loc) s = .next t ∧ s.onlyChanges t [.out, .xfers, .lines, .inj, .now, .mbox, .notices, .staged, .recs, .hdr 0x58, .word 0x28 0xA0] ∧ t.now = max s.now (n.sent + 5 * us) ∧
      (let rest := s.check.unacked.filter fun m => !(decide (m.seq = n.seq) && decide (m.loc = n.loc))
       if n.tries < 8 then
         t.check.unacked = rest ++ [{ n with bytes := noticeResent n.bytes, tries := n.tries + 1, sent := t.now }]
       else t.check.unacked = rest ∧ t.mbox = s.mbox ∧ t.fum.seq = s.fum.seq + 1)) ∧
  (∀ (bytes : List Byte) (s : State),
    ∃ t, exec (.poison bytes) s = .next t ∧ s.onlyChanges t [.out, .xfers, .lines, .inj, .mbox, .ringQ, .notices, .word 0x28 0xC4]) ∧
  (∀ (seq : BitVec 32) (loc : BitVec 16) (s : State),
    (∃ t, exec (.poisonAck seq loc) s = .next t ∧ s.onlyChanges t [.out, .xfers, .lines, .inj, .notices]) ∧
    (∃ t, exec (.poisonResend seq loc) s = .next t ∧ s.onlyChanges t [.out, .xfers, .lines, .inj, .now, .mbox, .notices, .staged, .recs, .hdr 0x58, .word 0x28 0xA0]))

/-- R208, R217 to R221, R229: registration takes the first free entry, or ends FULL; a fence within the cap sets FENCED, and its
acknowledge lowers FENCE and falls after it; UNFENCE and KAT_RUN queue the unit first and wait, for 10 ms at most; a write of KDATA changes the
selected entry, and entry 255 ignores it.
Completion, with nothing outside its frame changed: on every operand in every state checkRegister, checkUnregister,
checkPoison, katRun, fence, unfence, checkClearStats, fenceAck, idleWindowTimeout, kernelWrite each answer a next state. -/
def Obligations.CheckCommandsFenceTestAndRegister : Prop :=
  (∀ (c : CmdIn) (s : State), s.takes c .operator = true → s.isDie = true →
    ∃ t, exec (.checkRegister c) s = .next t ∧ s.onlyChanges t (commandParts ++ [.kernels, .meas, .gens]) ∧
      (match (List.range 256).find? fun i => !bit (Tab.read wordZero s.check.regs i) 31 with
       | none => t.ended c stError 2 ∧ t.check = s.check
       | some i => t.ended c stOk 0 ∧ t.reg (cmdKey c.pkg c.page.toNat) 0x100 = BitVec.ofNat 32 i ∧
           Tab.read wordZero t.check.regs i = (argW c s 0 &&& 0xBFFFFFFF) ||| 0x80000000)) ∧
  (∀ (c : CmdIn) (s : State), s.takes c .operator = true → s.isDie = true →
    ∃ t, exec (.checkUnregister c) s = .next t ∧ s.onlyChanges t (commandParts ++ [.kernels, .meas, .gens]) ∧ t.ended c stOk 0 ∧
      ∀ i, Tab.read wordZero t.check.regs i = if i = argFld c s 0 0 8 then 0 else Tab.read wordZero s.check.regs i) ∧
  (∀ (c : CmdIn) (s : State), s.takes c .operator = true → s.isDie = true →
    ∃ t, exec (.checkPoison c) s = .next t ∧ s.onlyChanges t [.out, .xfers, .lines, .inj, .cmds, .power, .bpwr, .word 0x50 0x54, .activity, .host, .tap,
        .regs 0x08, .hdr 0x08, .notices, .ringQ, .mbox, .word 0x28 0xC4] ∧ t.ended c stOk 0 ∧ t.check.nextSeq = s.check.nextSeq + 1) ∧
  (∀ (c : CmdIn) (s : State), s.takes c .firmware = true → s.isDie = true →
    ∃ t, exec (.katRun c) s = .next t ∧ s.onlyChanges t (commandParts ++ [.kats]) ∧
      (if s.present (argFld c s 0 0 13) = false then t.ended c stError 1
       else t.waits c (.event 5 (argFld c s 0 0 13)) ∧
         t.check.katReqs = { unit := argFld c s 0 0 13, unfence := false, pkg := c.pkg, page := c.page.toNat } :: s.check.katReqs)) ∧
  (∀ (c : CmdIn) (s : State), s.takes c .firmware = true → s.isDie = true →
    ∃ t, exec (.fence c) s = .next t ∧ s.onlyChanges t [.out, .xfers, .lines, .inj, .cmds, .power, .bpwr, .word 0x50 0x54, .activity, .host, .tap,
        .regs 0x08, .hdr 0x08, .suspects, .staged, .recs, .hdr 0x58, .hdr 0x28, .hdr 0x12, .gens,
        .spares, .probes] ∧
      (let u := argFld c s 0 0 13
       if s.present u = false then t.ended c stError 1 ∧ t.samp = s.samp
       else t.ended c stOk 0 ∧ (bit (s.hdr (pg 0x28)).err errStorm = false →
         (withinMs s.now s.check.fences).length < s.regFld (pg 0x28) 0x9C 0 8 → (t.probe u).fenced = true))) ∧
  (∀ (c : CmdIn) (s : State), s.takes c .firmware = true → s.isDie = true →
    ∃ t, exec (.unfence c) s = .next t ∧ s.onlyChanges t (commandParts ++ [.kats]) ∧
      (let u := argFld c s 0 0 13
       if s.present u = false then t.ended c stError 1
       else if (s.probe u).fenced = false then t.ended c stError 5
       else t.waits c (.event 5 u) ∧
         t.check.katReqs = { unit := u, unfence := true, pkg := c.pkg, page := c.page.toNat } :: s.check.katReqs)) ∧
  (∀ (c : CmdIn) (s : State), s.takes c .operator = true → s.isDie = true →
    ∃ t, exec (.checkClearStats c) s = .next t ∧ s.onlyChanges t (commandParts ++ [.taint]) ∧ t.waits c (.event 4 0) ∧
      t.check.clears = s.check.clears ++ [(c.pkg, c.page.toNat)]) ∧
  (∀ (u : Nat) (s : State), s.chanOpen (.converter .probe u) = true →
    ∃ t, exec (.fenceAck u) s = .next t ∧ s.onlyChanges t [.probes, .lines, .xfers, .out, .inj] ∧
      t.probe u = { s.probe u with fence :=
        if (s.probe u).fence.raised then { raised := false, ack := true, ticks := 0 }
        else if (s.probe u).fence.ack then Gate.reset else (s.probe u).fence } ∧ ∀ q, q ≠ u → t.probe q = s.probe q) ∧
  (∀ (pkg : Bool) (page : BitVec 3) (r : KatReq) (s : State), s.check.kat = none →
    s.check.katReqs.find? (fun r => decide (r.pkg = pkg) && decide (r.page = page.toNat)) = some r →
    ∃ t, exec (.idleWindowTimeout pkg page) s = .next t ∧ s.onlyChanges t [.cmds, .kats, .lines, .xfers, .out, .inj] ∧
      (t.cmd pkg page.toNat).busy = false ∧ (t.cmd pkg page.toNat).status = stTimeout ∧
      t.check.katReqs = s.check.katReqs.filter fun r => !(decide (r.pkg = pkg) && decide (r.page = page.toNat))) ∧
  (∀ (a : Access) (s : State) (w : Nat), w < 8 → w ≠ 5 → s.mayWrite a (pg 0x28) (0x60 + 4 * w) → (s.hdr (pg 0x28)).guard = none →
    ∃ t, exec (.kernelWrite a) s = .next t ∧ s.answered t a.req .ok 0 ∧
      s.onlyChanges t (accessParts ++ [.hdr 0x28, .kernels, .meas, .gens]) ∧
      (let k := s.regFld (pg 0x28) 0x5C 0 8
       let x := t.kernel k
       if k = 255 then t.check = s.check
       else [x.absTol, x.relTol, x.lo, x.hi, x.limits, x.ctl, x.lambda, x.escape].getD w 0 = a.data)) ∧
  (∀ (c : CmdIn) (s : State),
    (∃ t, exec (.checkRegister c) s = .next t ∧ s.onlyChanges t [.out, .xfers, .lines, .inj, .cmds, .power, .bpwr, .word 0x50 0x54, .activity, .host, .tap,
        .regs 0x08, .hdr 0x08, .gens, .meas, .kernels]) ∧
    (∃ t, exec (.checkUnregister c) s = .next t ∧ s.onlyChanges t [.out, .xfers, .lines, .inj, .cmds, .power, .bpwr, .word 0x50 0x54, .activity, .host, .tap,
        .regs 0x08, .hdr 0x08, .gens, .meas, .kernels]) ∧
    (∃ t, exec (.checkPoison c) s = .next t ∧ s.onlyChanges t [.out, .xfers, .lines, .inj, .cmds, .power, .bpwr, .word 0x50 0x54, .activity, .host, .tap,
        .regs 0x08, .hdr 0x08, .notices, .ringQ, .mbox, .word 0x28 0xC4]) ∧
    (∃ t, exec (.katRun c) s = .next t ∧ s.onlyChanges t [.out, .xfers, .lines, .inj, .cmds, .power, .bpwr, .word 0x50 0x54, .activity, .host, .tap, .regs 0x08, .hdr 0x08, .kats]) ∧
    (∃ t, exec (.fence c) s = .next t ∧ s.onlyChanges t [.out, .xfers, .lines, .inj, .cmds, .power, .bpwr, .word 0x50 0x54, .activity, .host, .tap,
        .regs 0x08, .hdr 0x08, .suspects, .staged, .recs, .hdr 0x58, .hdr 0x28, .hdr 0x12, .gens,
        .spares, .probes]) ∧
    (∃ t, exec (.unfence c) s = .next t ∧ s.onlyChanges t [.out, .xfers, .lines, .inj, .cmds, .power, .bpwr, .word 0x50 0x54, .activity, .host, .tap, .regs 0x08, .hdr 0x08, .kats]) ∧
    (∃ t, exec (.checkClearStats c) s = .next t ∧ s.onlyChanges t [.out, .xfers, .lines, .inj, .cmds, .power, .bpwr, .word 0x50 0x54, .activity, .host, .tap, .regs 0x08, .hdr 0x08, .taint])) ∧
  (∀ (probe : Nat) (s : State),
    ∃ t, exec (.fenceAck probe) s = .next t ∧ s.onlyChanges t [.out, .xfers, .lines, .inj, .probes]) ∧
  (∀ (pkg : Bool) (page : BitVec 3) (s : State),
    ∃ t, exec (.idleWindowTimeout pkg page) s = .next t ∧ s.onlyChanges t [.out, .xfers, .lines, .inj, .cmds, .kats]) ∧
  (∀ (a : Access) (s : State),
    ∃ t, exec (.kernelWrite a) s = .next t ∧ s.onlyChanges t (([.out, .xfers, .lines, .inj, .allHdrs, .power, .bpwr, .cmds, .activity, .staged, .recs,
        .snap, .heldRecs, .host, .tap, .evts, .grid, .bcasts, .mbox, .probes, .pace, .clusters,
        .violations, .ports, .suspects, .gens, .spares, .regions, .geyser, .ringQ, .meas, .redNodes,
        .engines, .ftab, .kernels, .notices, .kats, .taint, .clock, .relock, .pps, .now, .tick,
        .tports, .svcNotices, .jobs, .waves, .snuff, .profiles,
        .watch] : List Part) ++ ([.redInputs, .cores, .rails, .snaps, .mirror, .replicas, .drift,
        .droops, .pkg, .rings, .sinter, .proxies, .chans, .links, .verify, .linkKeys, .peers,
        .plans, .forced, .change, .trace, .latches, .token, .log, .free, .rotState, .firmware,
        .allRegs, .tables, .rotOrders] : List Part)))

/-! ### Fleet time (R230 to R252) -/

/-- R231 to R235: a message of another domain or sdoId, or malformed, changes no clock and no port; else a two-step Sync keeps its
ingress time for the Follow_Up, which ends the exchange; a master port answers a Delay_Req with its ingress time; a
Delay_Resp of the pending Delay_Req completes that exchange; and an Announce becomes the port's.
Completion, with nothing outside its frame changed: on every operand in every state ptpSync, ptpFollowUp, ptpDelayReq,
ptpDelayResp, ptpAnnounce each answer a next state. -/
def Obligations.PtpMessagesAreTakenByTheirPorts : Prop :=
  (∀ (p ts : Nat) (m : PtpMsg) (ann : PtpAnn) (s : State), s.ptpFits m = false →
    (∃ t, exec (.ptpSync p m ts) s = .next t ∧ t.time = s.time ∧ t.now = s.now ∧ t.mbox = s.mbox) ∧
    (∃ t, exec (.ptpFollowUp p m) s = .next t ∧ t.time = s.time ∧ t.now = s.now ∧ t.mbox = s.mbox) ∧
    (∃ t, exec (.ptpDelayReq p m ts) s = .next t ∧ t.time = s.time ∧ t.now = s.now ∧ t.mbox = s.mbox) ∧
    (∃ t, exec (.ptpDelayResp p m) s = .next t ∧ t.time = s.time ∧ t.now = s.now ∧ t.mbox = s.mbox) ∧
    (∃ t, exec (.ptpAnnounce p m ann) s = .next t ∧ t.time = s.time ∧ t.now = s.now ∧ t.mbox = s.mbox)) ∧
  (∀ (p ts : Nat) (m : PtpMsg) (s : State), s.time.running = true → p < s.portCount → s.ptpFits m = true → measures (s.tport p) = true →
    m.twoStep = true →
    ∃ t, exec (.ptpSync p m ts) s = .next t ∧ s.onlyChanges t [.out, .xfers, .lines, .inj, .regs 0x31, .now, .tports, .clock, .hdr 0x30, .gens, .relock,
        .staged, .recs, .hdr 0x58, .mbox, .pps] ∧ t.now = max s.now (truncFT ts) ∧
      (t.tport p).heard = t.now ∧ ((t.tport p).sync.map (·.seq)) = some m.seq ∧ ((t.tport p).sync.map (·.corr)) = some m.corr ∧
      ((t.tport p).sync.map (·.came)) = some t.now ∧ t.time.servo = s.time.servo ∧ ∀ q, q ≠ p → t.tport q = s.tport q) ∧
  (∀ (p : Nat) (m : PtpMsg) (w : SyncWait) (s : State), s.time.running = true → p < s.portCount → s.ptpFits m = true →
    measures (s.tport p) = true → (s.tport p).sync = some w → w.seq = m.seq → s.time.slave ≠ some p →
    ∃ t, exec (.ptpFollowUp p m) s = .next t ∧ s.onlyChanges t [.out, .xfers, .lines, .inj, .regs 0x31, .clock, .hdr 0x30, .tports, .gens, .relock, .staged, .recs, .hdr 0x58, .mbox, .pps] ∧ (t.tport p).sync = none ∧
      t.time.servo = s.time.servo ∧ ∀ q, q ≠ p → t.tport q = s.tport q) ∧
  (∀ (p ts : Nat) (m : PtpMsg) (s : State), s.time.running = true → p < s.portCount → s.ptpFits m = true → (s.tport p).state = .master →
    ∃ t, exec (.ptpDelayReq p m ts) s = .next t ∧ s.onlyChanges t [.out, .xfers, .lines, .inj, .regs 0x31, .now, .mbox] ∧ t.now = max s.now (truncFT ts) ∧ t.time = s.time ∧
      ∃ b, t.mbox = s.mbox ++ [(p, { typ := 0x01, tag := 0, dest := .port p, payload := b ++ beBytes 8 m.sender.toNat ++ beBytes 2 m.port.toNat })]) ∧
  (∀ (p : Nat) (m : PtpMsg) (w : DelayWait) (s : State), s.time.running = true → p < s.portCount → s.ptpFits m = true →
    measures (s.tport p) = true → (s.tport p).dreq = some w → w.seq = m.seq → m.forMe = true → 0 ≤ s.ptpToFT m.sec m.nsec →
    ∃ t, exec (.ptpDelayResp p m) s = .next t ∧ s.onlyChanges t [.out, .xfers, .lines, .inj, .regs 0x31, .clock, .hdr 0x30, .tports] ∧ (t.tport p).dreq = none ∧
      ((t.tport p).exch.map (·.t3)) = some w.t3 ∧ ((t.tport p).exch.map (·.t4)) = some (s.ptpToFT m.sec m.nsec) ∧
      ((t.tport p).exch.map (·.corr)) = some m.corr ∧ ∀ q, q ≠ p → t.tport q = s.tport q) ∧
  (∀ (p : Nat) (m : PtpMsg) (ann : PtpAnn) (s : State), s.time.running = true → p < s.portCount → s.ptpFits m = true →
    (s.tport p).state ≠ .disabled → s.isBmca p = false →
    ∃ t, exec (.ptpAnnounce p m ann) s = .next t ∧ s.onlyChanges t [.out, .xfers, .lines, .inj, .regs 0x31, .tports, .evts, .clock, .relock, .cmds,
        .word 0x08 0x100, .hdr 0x30, .pps, .staged, .recs, .hdr 0x58] ∧ (t.tport p).ann = some ann ∧
      (s.time.slave = some p → t.time.gmId = ann.gm ∧ t.time.removed = ann.removed) ∧ ∀ q, q ≠ p → t.tport q = s.tport q) ∧
  (∀ (port : Nat) (m : PtpMsg) (ts : Nat) (s : State),
    (∃ t, exec (.ptpSync port m ts) s = .next t ∧ s.onlyChanges t [.out, .xfers, .lines, .inj, .regs 0x31, .now, .tports, .clock, .hdr 0x30, .gens, .relock,
        .staged, .recs, .hdr 0x58, .mbox, .pps]) ∧
    (∃ t, exec (.ptpDelayReq port m ts) s = .next t ∧ s.onlyChanges t [.out, .xfers, .lines, .inj, .regs 0x31, .now, .mbox])) ∧
  (∀ (port : Nat) (m : PtpMsg) (s : State),
    (∃ t, exec (.ptpFollowUp port m) s = .next t ∧ s.onlyChanges t [.out, .xfers, .lines, .inj, .regs 0x31, .clock, .hdr 0x30, .tports, .gens, .relock, .staged, .recs, .hdr 0x58, .mbox, .pps]) ∧
    (∃ t, exec (.ptpDelayResp port m) s = .next t ∧ s.onlyChanges t [.out, .xfers, .lines, .inj, .regs 0x31, .clock, .hdr 0x30, .tports])) ∧
  (∀ (port : Nat) (m : PtpMsg) (ann : PtpAnn) (s : State),
    ∃ t, exec (.ptpAnnounce port m ann) s = .next t ∧ s.onlyChanges t [.out, .xfers, .lines, .inj, .regs 0x31, .tports, .evts, .clock, .relock, .cmds,
        .word 0x08 0x100, .hdr 0x30, .pps, .staged, .recs, .hdr 0x58])

/-- R235, R238, R241, R252: a master port sends Sync and Follow_Up, a measuring port its Delay_Req, and every port takes its written
ROLE at its Announce boundary; a Follow_Up or Delay_Resp that does not come ends its exchange; no Sync in time ends ACQUIRE
in FREE and LOCKED in HOLDOVER; a time command with no master ends NO_MASTER.
Completion, with nothing outside its frame changed: on every operand in every state syncSend, delayReqSend, announceTimer,
tslost, syncTimeout, noMaster each answer a next state. -/
def Obligations.PtpTimersSendAndTimeOut : Prop :=
  (∀ (p ts : Nat) (s : State), s.time.running = true → p < s.portCount → (s.tport p).state = .master →
    ∃ t, exec (.syncSend p ts) s = .next t ∧ s.onlyChanges t [.out, .xfers, .lines, .inj, .now, .mbox, .tports] ∧ t.now = max s.now (truncFT ts) ∧
      (t.tport p).syncSeq = (s.tport p).syncSeq + 1 ∧
      ∃ a b, t.mbox = s.mbox ++ [(p, { typ := 0x01, tag := 0, dest := .port p, payload := a }), (p, { typ := 0x01, tag := 0, dest := .port p, payload := b })]) ∧
  (∀ (p ts : Nat) (s : State), s.time.running = true → p < s.portCount → measures (s.tport p) = true →
    ∃ t, exec (.delayReqSend p ts) s = .next t ∧ s.onlyChanges t [.out, .xfers, .lines, .inj, .now, .regs 0x31, .mbox, .tports] ∧ t.now = max s.now (truncFT ts) ∧
      (t.tport p).dreqSeq = (s.tport p).dreqSeq + 1 ∧ ((t.tport p).dreq.map (·.seq)) = some (s.tport p).dreqSeq ∧
      ∃ a, t.mbox = s.mbox ++ [(p, { typ := 0x01, tag := 0, dest := .port p, payload := a })]) ∧
  (∀ (p : Nat) (s : State), s.time.running = true → p < s.portCount → s.linkUp p = true →
    ∃ t, exec (.announceTimer p) s = .next t ∧ s.onlyChanges t [.out, .xfers, .lines, .inj, .tports, .evts, .clock, .relock, .cmds, .word 0x08 0x100,
        .hdr 0x30, .pps, .staged, .recs, .hdr 0x58, .gens, .mbox] ∧ (t.tport p).role = fld (s.tportReg p 0) 29 3 ∧
      (t.tport p).annSeq = (if (t.tport p).state = .master then (s.tport p).annSeq + 1 else (s.tport p).annSeq)) ∧
  (∀ (p : Nat) (s : State),
    (∀ w, (s.tport p).dreq = some w →
      ∃ t, exec (.tslost p true) s = .next t ∧ s.onlyChanges t [.out, .xfers, .lines, .inj, .regs 0x31, .now, .tports, .clock] ∧ (t.tport p).dreq = none ∧ (t.tport p).exch = (s.tport p).exch ∧
        t.now = max s.now (w.sent + s.dreqInterval p)) ∧
    (∀ w, (s.tport p).sync = some w →
      ∃ t, exec (.tslost p false) s = .next t ∧ s.onlyChanges t [.out, .xfers, .lines, .inj, .regs 0x31, .now, .tports, .clock] ∧ (t.tport p).sync = none ∧
        t.now = max s.now (w.came + s.syncInterval p) ∧ (s.time.slave = some p → t.time.samples = []))) ∧
  (∀ (p : Nat) (s : State), s.time.slave = some p →
    (s.time.servo = .acquire →
      ∃ t, exec .syncTimeout s = .next t ∧ s.onlyChanges t [.out, .xfers, .lines, .inj, .now, .evts, .clock, .relock, .cmds, .word 0x08 0x100,
        .hdr 0x30, .pps, .staged, .recs, .hdr 0x58, .tports] ∧ t.time.servo = .free ∧ t.time.slave = none ∧ (t.tport p).state = .listening) ∧
    (s.time.servo = .locked →
      ∃ t, exec .syncTimeout s = .next t ∧ s.onlyChanges t [.out, .xfers, .lines, .inj, .now, .evts, .clock, .relock, .cmds, .word 0x08 0x100,
        .hdr 0x30, .pps, .staged, .recs, .hdr 0x58, .tports] ∧ t.time.servo = .holdover ∧ t.time.holdFrom = t.now ∧
        bit (t.hdr (pg 0x30)).err 18 = true)) ∧
  (∀ (pkg : Bool) (page : BitVec 3) (v : FT) (s : State), s.time.setPps = some (v, pkg, page.toNat) → s.time.relock = none →
    ∃ t, exec (.noMaster pkg page) s = .next t ∧ s.onlyChanges t [.out, .xfers, .lines, .inj, .evts, .clock, .relock, .cmds, .word 0x08 0x100, .pps] ∧ t.time.setPps = none ∧
      (t.cmd pkg page.toNat).busy = false ∧ (t.cmd pkg page.toNat).status = stError ∧ (t.cmd pkg page.toNat).detail = 1) ∧
  (∀ (port ts : Nat) (s : State),
    (∃ t, exec (.syncSend port ts) s = .next t ∧ s.onlyChanges t [.out, .xfers, .lines, .inj, .now, .mbox, .tports]) ∧
    (∃ t, exec (.delayReqSend port ts) s = .next t ∧ s.onlyChanges t [.out, .xfers, .lines, .inj, .now, .regs 0x31, .mbox, .tports])) ∧
  (∀ (port : Nat) (s : State),
    ∃ t, exec (.announceTimer port) s = .next t ∧ s.onlyChanges t [.out, .xfers, .lines, .inj, .tports, .evts, .clock, .relock, .cmds, .word 0x08 0x100,
        .hdr 0x30, .pps, .staged, .recs, .hdr 0x58, .gens, .mbox]) ∧
  (∀ (port : Nat) (delay : Bool) (s : State),
    ∃ t, exec (.tslost port delay) s = .next t ∧ s.onlyChanges t [.out, .xfers, .lines, .inj, .regs 0x31, .now, .tports, .clock]) ∧
  (∀ (s : State),
    ∃ t, exec .syncTimeout s = .next t ∧ s.onlyChanges t [.out, .xfers, .lines, .inj, .now, .evts, .clock, .relock, .cmds, .word 0x08 0x100,
        .hdr 0x30, .pps, .staged, .recs, .hdr 0x58, .tports]) ∧
  (∀ (pkg : Bool) (page : BitVec 3) (s : State),
    ∃ t, exec (.noMaster pkg page) s = .next t ∧ s.onlyChanges t [.out, .xfers, .lines, .inj, .evts, .clock, .relock, .cmds, .word 0x08 0x100, .pps])

/-- R238, R243, R247, R252: the step of an acquisition or a relock locks the servo at the extrapolated instant; TIME_SET in FREE
sets the time at once or at the next edge of PPS_IN, TIME_HOLD forces HOLDOVER from LOCKED and lets it go, and
TIME_RELOCK gathers samples, or is refused.
Completion, with nothing outside its frame changed: on every operand in every state lockStep, relockStep, timeSet, timeHold,
timeRelock each answer a next state. -/
def Obligations.TheServoStepsAndHolds : Prop :=
  (∀ (x y : Int × Int) (s : State), s.dark = false → s.time.running = true → s.time.servo = .acquire → s.acqN ≤ s.time.samples.length →
    s.time.samples.head? = some x → s.time.samples.getLast? = some y → s.time.evts = [] →
    ∃ t, exec .lockStep s = .next t ∧ s.onlyChanges t (([.out, .xfers, .lines, .inj, .hdr 0x30, .now, .tick, .clock, .pps, .tports, .redNodes,
        .engines, .ftab, .cmds, .evts, .ringQ, .word 0x40 0x6C, .mbox, .svcNotices, .hdr 0x40,
        .gens, .jobs, .staged, .recs, .hdr 0x58, .waves, .regs 0x08, .snuff, .hdr 0x61, .geyser,
        .grid, .relock, .word 0x02 0x58, .probes, .kats, .profiles, .power, .activity, .regs 0x93,
        .regs 0x91, .regs 0x38, .violations, .ports, .suspects, .hdr 0x28, .hdr 0x12, .spares,
        .hdr 0x10, .clusters, .snap] : List Part) ++ ([.heldRecs, .taint, .watch, .word 0x28 0x98,
        .kernels, .redInputs, .cores, .rails, .regions, .word 0x20 0x54, .meas, .snaps, .hdr 0x18,
        .mirror, .replicas, .drift, .hdr 0x48, .droops, .pkg, .rings, .regs 0x18] : List Part)) ∧ t.time.servo = .locked ∧ t.time.samples = [] ∧
      t.time.stepSize = (t.time.lastStep : Int) - s.tickAfter y.2 ∧ t.time.steps = satAdd 8 s.time.steps 1) ∧
  (∀ (x y : Int × Int) (r : Relock) (s : State), s.dark = false → s.time.running = true → s.time.servo ≠ .acquire →
    s.time.relock = some r → r.page = none → s.acqN ≤ s.time.samples.length → s.time.samples.head? = some x →
    s.time.samples.getLast? = some y → s.time.evts = [] →
    s.earlierDue (max (s.tickAfter y.2) (match r.t with | some t => ceilDiv t us * us | none => 0)) 7 = false →
    ∃ t, exec .relockStep s = .next t ∧ s.onlyChanges t (([.out, .xfers, .lines, .inj, .evts, .relock, .hdr 0x30, .now, .tick, .clock, .pps,
        .tports, .redNodes, .engines, .ftab, .cmds, .ringQ, .word 0x40 0x6C, .mbox, .svcNotices,
        .hdr 0x40, .gens, .jobs, .staged, .recs, .hdr 0x58, .waves, .regs 0x08, .snuff, .hdr 0x61,
        .geyser, .grid, .word 0x02 0x58, .probes, .kats, .profiles, .power, .activity, .regs 0x93,
        .regs 0x91, .regs 0x38, .violations, .ports, .suspects, .hdr 0x28, .hdr 0x12, .spares,
        .hdr 0x10, .clusters, .snap] : List Part) ++ ([.heldRecs, .taint, .watch, .word 0x28 0x98,
        .kernels, .redInputs, .cores, .rails, .regions, .word 0x20 0x54, .meas, .snaps, .hdr 0x18,
        .mirror, .replicas, .drift, .hdr 0x48, .droops, .pkg, .rings, .bcasts,
        .regs 0x18] : List Part)) ∧ t.time.servo = .locked ∧ t.time.relock = none ∧
      t.time.steps = satAdd 8 s.time.steps 1) ∧
  (∀ (c : CmdIn) (s : State), s.takes c .firmware = true →
    ∃ t, exec (.timeSet c) s = .next t ∧ s.onlyChanges t (([.out, .xfers, .lines, .inj, .cmds, .power, .bpwr, .word 0x50 0x54, .activity, .host,
        .tap, .regs 0x08, .hdr 0x08, .pps, .now, .tick, .clock, .tports, .redNodes, .engines, .ftab,
        .evts, .ringQ, .word 0x40 0x6C, .mbox, .svcNotices, .hdr 0x40, .gens, .jobs, .staged, .recs,
        .hdr 0x58, .waves, .snuff, .hdr 0x61, .geyser, .grid, .relock, .word 0x02 0x58, .probes,
        .kats, .profiles, .regs 0x93, .regs 0x91, .regs 0x38, .violations, .ports, .suspects,
        .hdr 0x28, .hdr 0x12] : List Part) ++ ([.spares, .hdr 0x10, .clusters, .snap, .heldRecs,
        .taint, .watch, .word 0x28 0x98, .kernels, .redInputs, .cores, .rails, .regions,
        .word 0x20 0x54, .meas, .snaps, .hdr 0x18, .mirror, .replicas, .drift, .hdr 0x48, .droops,
        .pkg, .rings, .hdr 0x30, .regs 0x18] : List Part)) ∧
      (if s.gmEn = false ∨ s.time.servo ≠ .free ∨ s.time.setPps.isSome = true then t.ended c stError 3 ∧ t.time = s.time
       else if bit (argW c s 0) 0 then
         t.waits c (.event 7 0) ∧ t.time.setPps = some (argFT c s 1, c.pkg, c.page.toNat) ∧ t.now = s.now
       else s.time.evts = [] → t.time.servo = .locked ∧ t.time.lastStep = argFT c s 1)) ∧
  (∀ (c : CmdIn) (s : State), s.takes c .firmware = true →
    ∃ t, exec (.timeHold c) s = .next t ∧ s.onlyChanges t [.out, .xfers, .lines, .inj, .cmds, .power, .bpwr, .word 0x50 0x54, .activity, .host, .tap,
        .regs 0x08, .hdr 0x08, .staged, .recs, .hdr 0x58, .hdr 0x30, .clock, .pps] ∧
      (if argFld c s 0 0 1 = 1 then
         if s.time.servo = .locked ∨ s.time.servo = .holdover then
           t.ended c stOk 0 ∧ t.time.servo = .holdover ∧ t.time.forced = true
         else t.ended c stError 3 ∧ t.time = s.time
       else t.ended c stOk 0 ∧ t.time = { s.time with forced := false })) ∧
  (∀ (c : CmdIn) (s : State), s.takes c .firmware = true →
    (s.time.servo = .free ∨ s.time.relock.isSome = true →
      ∃ t, exec (.timeRelock c) s = .next t ∧ s.onlyChanges t [.out, .xfers, .lines, .inj, .cmds, .power, .bpwr, .word 0x50 0x54, .activity, .host, .tap,
        .regs 0x08, .hdr 0x08, .clock, .relock, .evts, .bcasts, .word 0x40 0x50, .hdr 0x40, .mbox] ∧ t.ended c stError 3 ∧ t.time = s.time) ∧
    (s.time.servo ≠ .free → s.time.relock = none → bit (argW c s 0) 0 = false → bit (argW c s 0) 1 = false →
      ∃ t, exec (.timeRelock c) s = .next t ∧ s.onlyChanges t [.out, .xfers, .lines, .inj, .cmds, .power, .bpwr, .word 0x50 0x54, .activity, .host, .tap,
        .regs 0x08, .hdr 0x08, .clock, .relock, .evts, .bcasts, .word 0x40 0x50, .hdr 0x40, .mbox] ∧ t.waits c (.event 6 0) ∧ t.time.samples = [] ∧
        t.time.relock.map (·.page) = some (some (c.pkg, c.page.toNat)))) ∧
  (∀ (s : State),
    (∃ t, exec .lockStep s = .next t ∧ s.onlyChanges t (([.out, .xfers, .lines, .inj, .hdr 0x30, .now, .tick, .clock, .pps, .tports, .redNodes,
        .engines, .ftab, .cmds, .evts, .ringQ, .word 0x40 0x6C, .mbox, .svcNotices, .hdr 0x40,
        .gens, .jobs, .staged, .recs, .hdr 0x58, .waves, .regs 0x08, .snuff, .hdr 0x61, .geyser,
        .grid, .relock, .word 0x02 0x58, .probes, .kats, .profiles, .power, .activity, .regs 0x93,
        .regs 0x91, .regs 0x38, .violations, .ports, .suspects, .hdr 0x28, .hdr 0x12, .spares,
        .hdr 0x10, .clusters, .snap] : List Part) ++ ([.heldRecs, .taint, .watch, .word 0x28 0x98,
        .kernels, .redInputs, .cores, .rails, .regions, .word 0x20 0x54, .meas, .snaps, .hdr 0x18,
        .mirror, .replicas, .drift, .hdr 0x48, .droops, .pkg, .rings, .regs 0x18] : List Part))) ∧
    (∃ t, exec .relockStep s = .next t ∧ s.onlyChanges t (([.out, .xfers, .lines, .inj, .evts, .relock, .hdr 0x30, .now, .tick, .clock, .pps,
        .tports, .redNodes, .engines, .ftab, .cmds, .ringQ, .word 0x40 0x6C, .mbox, .svcNotices,
        .hdr 0x40, .gens, .jobs, .staged, .recs, .hdr 0x58, .waves, .regs 0x08, .snuff, .hdr 0x61,
        .geyser, .grid, .word 0x02 0x58, .probes, .kats, .profiles, .power, .activity, .regs 0x93,
        .regs 0x91, .regs 0x38, .violations, .ports, .suspects, .hdr 0x28, .hdr 0x12, .spares,
        .hdr 0x10, .clusters, .snap] : List Part) ++ ([.heldRecs, .taint, .watch, .word 0x28 0x98,
        .kernels, .redInputs, .cores, .rails, .regions, .word 0x20 0x54, .meas, .snaps, .hdr 0x18,
        .mirror, .replicas, .drift, .hdr 0x48, .droops, .pkg, .rings, .bcasts,
        .regs 0x18] : List Part)))) ∧
  (∀ (c : CmdIn) (s : State),
    (∃ t, exec (.timeSet c) s = .next t ∧ s.onlyChanges t (([.out, .xfers, .lines, .inj, .cmds, .power, .bpwr, .word 0x50 0x54, .activity, .host,
        .tap, .regs 0x08, .hdr 0x08, .pps, .now, .tick, .clock, .tports, .redNodes, .engines, .ftab,
        .evts, .ringQ, .word 0x40 0x6C, .mbox, .svcNotices, .hdr 0x40, .gens, .jobs, .staged, .recs,
        .hdr 0x58, .waves, .snuff, .hdr 0x61, .geyser, .grid, .relock, .word 0x02 0x58, .probes,
        .kats, .profiles, .regs 0x93, .regs 0x91, .regs 0x38, .violations, .ports, .suspects,
        .hdr 0x28, .hdr 0x12] : List Part) ++ ([.spares, .hdr 0x10, .clusters, .snap, .heldRecs,
        .taint, .watch, .word 0x28 0x98, .kernels, .redInputs, .cores, .rails, .regions,
        .word 0x20 0x54, .meas, .snaps, .hdr 0x18, .mirror, .replicas, .drift, .hdr 0x48, .droops,
        .pkg, .rings, .hdr 0x30, .regs 0x18] : List Part))) ∧
    (∃ t, exec (.timeHold c) s = .next t ∧ s.onlyChanges t [.out, .xfers, .lines, .inj, .cmds, .power, .bpwr, .word 0x50 0x54, .activity, .host, .tap,
        .regs 0x08, .hdr 0x08, .staged, .recs, .hdr 0x58, .hdr 0x30, .clock, .pps]) ∧
    (∃ t, exec (.timeRelock c) s = .next t ∧ s.onlyChanges t [.out, .xfers, .lines, .inj, .cmds, .power, .bpwr, .word 0x50 0x54, .activity, .host, .tap,
        .regs 0x08, .hdr 0x08, .clock, .relock, .evts, .bcasts, .word 0x40 0x50, .hdr 0x40, .mbox]))

/-- R244, R247, R248, R250, R518: an edge of PPS_IN is kept in PPS_IN_TS, each whole second has one pulse of PPS_OUT, and edges that
stop set PPS_MISS; EPOCH_BASE is taken only in FREE, and KX_TIME_REFCLK only in range before the timekeeper runs, else
BASE_LOCKED is set; REFCLK that returns starts the timekeeper in FREE.
Completion, with nothing outside its frame changed: on every operand in every state ppsInEdge, ppsOutPulse, ppsMiss,
epochBaseWrite, refclkWrite, refclkReturn each answer a next state. -/
def Obligations.PulsesAndClockInputs : Prop :=
  (∀ (ts : Nat) (s : State), s.dark = false → s.time.running = true → s.regFld (pg 0x30) 0xA0 30 2 ≠ 0 → s.time.setPps = none →
    s.ppsSource = false →
    ∃ t, exec (.ppsInEdge ts) s = .next t ∧ s.onlyChanges t (([.out, .xfers, .lines, .inj, .now, .pps, .cmds, .tick, .clock, .tports, .redNodes,
        .engines, .ftab, .evts, .ringQ, .word 0x40 0x6C, .mbox, .svcNotices, .hdr 0x40, .gens,
        .jobs, .staged, .recs, .hdr 0x58, .waves, .regs 0x08, .snuff, .hdr 0x61, .geyser, .grid,
        .relock, .word 0x02 0x58, .probes, .kats, .profiles, .power, .activity, .regs 0x93,
        .regs 0x91, .regs 0x38, .violations, .ports, .suspects, .hdr 0x28, .hdr 0x12, .spares,
        .hdr 0x10, .clusters, .snap, .heldRecs] : List Part) ++ ([.taint, .watch, .word 0x28 0x98,
        .kernels, .redInputs, .cores, .rails, .regions, .word 0x20 0x54, .meas, .snaps, .hdr 0x18,
        .mirror, .replicas, .drift, .hdr 0x48, .droops, .pkg, .rings, .hdr 0x30,
        .regs 0x18] : List Part)) ∧ t.now = max s.now (truncFT ts) ∧
      t.time.ppsIn = truncFT ((truncFT ts : Int) - psToFT (sgn 16 (s.regFld (pg 0x30) 0xA4 16 16))).toNat) ∧
  (∀ s : State, s.time.running = true → (s.time.servo = .locked ∨ s.time.servo = .holdover) → bit (s.reg (pg 0x30) 0xA0) 29 = true →
    ∃ t, exec .ppsOutPulse s = .next t ∧ s.onlyChanges t [.now, .pps, .lines, .xfers, .out, .inj] ∧
      (let k := (s.now + s.epochBase) / second + 1
       if s.time.ppsLast < k then t.time.ppsOut = true ∧ t.time.ppsLast = k ∧ s.now ≤ t.now else t.time = s.time ∧ t.now = s.now)) ∧
  (∀ s : State, s.ppsSource = true →
    ∃ t, exec .ppsMiss s = .next t ∧ s.onlyChanges t [.now, .hdr 0x30, .lines, .xfers, .out, .inj] ∧
      bit (t.hdr (pg 0x30)).err 16 = true ∧ s.now ≤ t.now) ∧
  (∀ (a : Access) (s : State), s.mayWrite a (pg 0x30) 0x90 → (s.hdr (pg 0x30)).guard = none →
    ∃ t, exec (.epochBaseWrite a) s = .next t ∧ s.answered t a.req .ok 0 ∧
      s.onlyChanges t (accessParts ++ [.hdr 0x30, .word 0x30 0x90, .word 0x30 0x94, .word 0x30 0x98, .gens]) ∧
      (if s.time.servo = .free then t.reg (pg 0x30) 0x90 = a.data
       else bit (t.hdr (pg 0x30)).err 21 = true ∧ t.reg (pg 0x30) 0x90 = s.reg (pg 0x30) 0x90)) ∧
  (∀ (a : Access) (s : State), s.mayWrite a (pg 0x30) 0xCC → (s.hdr (pg 0x30)).guard = none →
    ∃ t, exec (.refclkWrite a) s = .next t ∧ s.answered t a.req .ok 0 ∧ s.onlyChanges t (([.out, .xfers, .lines, .inj, .allHdrs, .power, .bpwr, .cmds, .activity, .staged, .recs,
        .snap, .heldRecs, .host, .tap, .evts, .grid, .bcasts, .mbox, .probes, .pace, .clusters,
        .violations, .ports, .suspects, .gens, .spares, .regions, .geyser, .ringQ, .meas, .redNodes,
        .engines, .ftab, .kernels, .notices, .kats, .taint, .clock, .relock, .pps, .now, .tick,
        .tports, .svcNotices, .jobs, .waves, .snuff, .profiles,
        .watch] : List Part) ++ ([.redInputs, .cores, .rails, .snaps, .mirror, .replicas, .drift,
        .droops, .pkg, .rings, .sinter, .proxies, .chans, .links, .verify, .linkKeys, .peers,
        .plans, .forced, .change, .trace, .latches, .token, .log, .free, .rotState, .firmware,
        .allRegs, .tables, .rotOrders] : List Part)) ∧
      (if fld a.data 0 18 < 25000 ∨ 156250 < fld a.data 0 18 ∨ s.time.running = true then
         bit (t.hdr (pg 0x30)).err 21 = true ∧ t.reg (pg 0x30) 0xCC = s.reg (pg 0x30) 0xCC ∧ t.time = s.time
       else t.regFld (pg 0x30) 0xCC 0 18 = fld a.data 0 18 ∧ t.time.servo = s.time.servo)) ∧
  (∀ s : State, s.dark = false → s.time.running = false →
    ∃ t, exec .refclkReturn s = .next t ∧ s.onlyChanges t [.out, .xfers, .lines, .inj, .bpwr, .allHdrs, .clock, .grid, .relock, .pps, .evts, .tports, .now, .tick] ∧ t.bpwr.refclk = true ∧
      (bit s.bpwr.pg 3 = true → bit s.bpwr.pg 2 = true → s.refclkKhz.isSome = true → t.time.running = true ∧ t.time.servo = .free ∧ t.now = 0)) ∧
  (∀ (ts : Nat) (s : State),
    ∃ t, exec (.ppsInEdge ts) s = .next t ∧ s.onlyChanges t (([.out, .xfers, .lines, .inj, .now, .pps, .cmds, .tick, .clock, .tports, .redNodes,
        .engines, .ftab, .evts, .ringQ, .word 0x40 0x6C, .mbox, .svcNotices, .hdr 0x40, .gens,
        .jobs, .staged, .recs, .hdr 0x58, .waves, .regs 0x08, .snuff, .hdr 0x61, .geyser, .grid,
        .relock, .word 0x02 0x58, .probes, .kats, .profiles, .power, .activity, .regs 0x93,
        .regs 0x91, .regs 0x38, .violations, .ports, .suspects, .hdr 0x28, .hdr 0x12, .spares,
        .hdr 0x10, .clusters, .snap, .heldRecs] : List Part) ++ ([.taint, .watch, .word 0x28 0x98,
        .kernels, .redInputs, .cores, .rails, .regions, .word 0x20 0x54, .meas, .snaps, .hdr 0x18,
        .mirror, .replicas, .drift, .hdr 0x48, .droops, .pkg, .rings, .hdr 0x30,
        .regs 0x18] : List Part))) ∧
  (∀ (s : State),
    (∃ t, exec .ppsOutPulse s = .next t ∧ s.onlyChanges t [.out, .xfers, .lines, .inj, .now, .pps]) ∧
    (∃ t, exec .ppsMiss s = .next t ∧ s.onlyChanges t [.out, .xfers, .lines, .inj, .hdr 0x30, .now]) ∧
    (∃ t, exec .refclkReturn s = .next t ∧ s.onlyChanges t [.out, .xfers, .lines, .inj, .bpwr, .allHdrs, .clock, .grid, .relock, .pps, .evts, .tports, .now, .tick])) ∧
  (∀ (a : Access) (s : State),
    (∃ t, exec (.epochBaseWrite a) s = .next t ∧ s.onlyChanges t (([.out, .xfers, .lines, .inj, .allHdrs, .power, .bpwr, .cmds, .activity, .staged, .recs,
        .snap, .heldRecs, .host, .tap, .evts, .grid, .bcasts, .mbox, .probes, .pace, .clusters,
        .violations, .ports, .suspects, .gens, .spares, .regions, .geyser, .ringQ, .meas, .redNodes,
        .engines, .ftab, .kernels, .notices, .kats, .taint, .clock, .relock, .pps, .now, .tick,
        .tports, .svcNotices, .jobs, .waves, .snuff, .profiles,
        .watch] : List Part) ++ ([.redInputs, .cores, .rails, .snaps, .mirror, .replicas, .drift,
        .droops, .pkg, .rings, .sinter, .proxies, .chans, .links, .verify, .linkKeys, .peers,
        .plans, .forced, .change, .trace, .latches, .token, .log, .free, .rotState, .firmware,
        .allRegs, .tables, .rotOrders] : List Part))) ∧
    (∃ t, exec (.refclkWrite a) s = .next t ∧ s.onlyChanges t (([.out, .xfers, .lines, .inj, .allHdrs, .power, .bpwr, .cmds, .activity, .staged, .recs,
        .snap, .heldRecs, .host, .tap, .evts, .grid, .bcasts, .mbox, .probes, .pace, .clusters,
        .violations, .ports, .suspects, .gens, .spares, .regions, .geyser, .ringQ, .meas, .redNodes,
        .engines, .ftab, .kernels, .notices, .kats, .taint, .clock, .relock, .pps, .now, .tick,
        .tports, .svcNotices, .jobs, .waves, .snuff, .profiles,
        .watch] : List Part) ++ ([.redInputs, .cores, .rails, .snaps, .mirror, .replicas, .drift,
        .droops, .pkg, .rings, .sinter, .proxies, .chans, .links, .verify, .linkKeys, .peers,
        .plans, .forced, .change, .trace, .latches, .token, .log, .free, .rotState, .firmware,
        .allRegs, .tables, .rotOrders] : List Part))))

/-! ### Links, frames and traffic control (R253 to R297) -/

/-- R264, R266, R267, R269, R270: a LINK_CTRL brings its channel's credit counts and says that the partner lives; an owed ACK, 16
freed units and the keepalive period each send one; a partner lost takes its link out of service; and a sender that was
told BUSY goes on after its wait.
Completion, with nothing outside its frame changed: on every operand in every state linkCtrl, ackTimer, creditReturn,
keepaliveSend, partnerLost, busyReplay each answer a next state. -/
def Obligations.LinkControlKeepsChannelsAlive : Prop :=
  (∀ (c : Nat) (dst ack : BitVec 16) (m : LinkCtrl) (s : State), s.dark = false → m.swap = false → m.swapAck = false →
    m.nak = false → s.chanPort c ∉ s.parentPorts → s.links.swapWait = none →
    ∃ t, exec (.linkCtrl c dst ack m) s = .next t ∧ s.onlyChanges t (([.out, .xfers, .lines, .inj, .cmds, .links, .chans, .mirror, .gens, .jobs, .verify,
        .ringQ, .word 0x40 0x6C, .mbox, .svcNotices, .hdr 0x40, .redNodes, .hdr 0x18, .staged,
        .recs, .hdr 0x58, .tports, .evts, .clock, .relock, .word 0x08 0x100, .hdr 0x30, .pps,
        .sinter, .regs 0x93, .regs 0x91, .regs 0x38, .host, .tap, .proxies, .ports, .pkg, .hdr 0x93,
        .hdr 0x91, .hdr 0x38, .pace, .violations, .suspects, .hdr 0x28, .hdr 0x12, .spares, .probes,
        .linkKeys, .hdr 0x50, .word 0x50 0x5C] : List Part) ++ ([.peers, .snuff, .plans, .clusters,
        .watch, .bcasts, .regs 0x18] : List Part)) ∧ (t.chan c).heardAt = s.now ∧
      Tab.read natZero (t.chan c).count 2 = m.crd2.toNat ∧ Tab.read natZero (t.chan c).count 3 = m.crd3.toNat ∧
      Tab.read natZero (t.chan c).count 7 = m.crd7.toNat) ∧
  (∀ (c : Nat) (s : State), (s.chan c).owesAck = true → s.ctrlGoes (s.chanPort c) = true →
    ∃ t, exec (.ackTimer c) s = .next t ∧ s.onlyChanges t [.now, .chans, .lines, .xfers, .out, .inj] ∧
      t.now = max s.now ((s.chan c).sentAt + 200 * ns) ∧ (t.chan c).ctl = (s.chan c).ctl ++ [s.linkCtrl0 (s.chanPort c)] ∧
      ∀ d, d ≠ c → t.chan d = s.chan d) ∧
  (∀ (c : Nat) (s : State), 16 ≤ s.untold c → s.ctrlGoes (s.chanPort c) = true →
    ∃ t, exec (.creditReturn c) s = .next t ∧ s.onlyChanges t [.chans, .lines, .xfers, .out, .inj] ∧
      (t.chan c).ctl = (s.chan c).ctl ++ [s.linkCtrl0 (s.chanPort c)] ∧ ∀ d, d ≠ c → t.chan d = s.chan d) ∧
  (∀ (c : Nat) (s : State), s.ctrlGoes (s.chanPort c) = true →
    ∃ t, exec (.keepaliveSend c) s = .next t ∧ s.onlyChanges t [.now, .chans, .lines, .xfers, .out, .inj] ∧
      t.now = max s.now ((s.chan c).sentAt + s.keepPeriod c) ∧
      (t.chan c).ctl = (s.chan c).ctl ++ [{ s.linkCtrl0 (s.chanPort c) with ka := true }] ∧ ∀ d, d ≠ c → t.chan d = s.chan d) ∧
  (∀ (c : Nat) (s : State), s.isDie = true → c < 9 → s.linkUp c = true → s.parentPort ≠ some c → s.fum.peer = none →
    ∃ t, exec (.partnerLost c true) s = .next t ∧ s.onlyChanges t (([.out, .xfers, .lines, .inj, .now, .pace, .regs 0x93, .regs 0x91, .regs 0x38, .mbox,
        .host, .tap, .proxies, .ports, .chans, .staged, .recs, .hdr 0x58, .violations, .suspects,
        .hdr 0x28, .hdr 0x12, .gens, .spares, .probes, .linkKeys, .hdr 0x50, .word 0x50 0x5C,
        .links, .peers, .sinter, .tports, .evts, .clock, .relock, .cmds, .word 0x08 0x100,
        .hdr 0x30, .pps, .hdr 0x93, .hdr 0x91, .hdr 0x38, .snuff, .hdr 0x18, .plans, .mirror,
        .redNodes, .clusters, .watch, .jobs] : List Part) ++ ([.bcasts] : List Part)) ∧ t.linkUp c = false) ∧
  (∀ (c : Nat) (s : State), (s.chan c).again ≠ [] →
    ∃ t, exec (.busyReplay c) s = .next t ∧ s.onlyChanges t [.now, .chans, .lines, .xfers, .out, .inj] ∧
      t.now = max s.now (s.chan c).busyTo ∧ t.chan c = { s.chan c with busyTo := 0 } ∧ ∀ d, d ≠ c → t.chan d = s.chan d) ∧
  (∀ (chan : Nat) (dst ack : BitVec 16) (m : LinkCtrl) (s : State),
    ∃ t, exec (.linkCtrl chan dst ack m) s = .next t ∧ s.onlyChanges t (([.out, .xfers, .lines, .inj, .cmds, .links, .chans, .mirror, .gens, .jobs, .verify,
        .ringQ, .word 0x40 0x6C, .mbox, .svcNotices, .hdr 0x40, .redNodes, .hdr 0x18, .staged,
        .recs, .hdr 0x58, .tports, .evts, .clock, .relock, .word 0x08 0x100, .hdr 0x30, .pps,
        .sinter, .regs 0x93, .regs 0x91, .regs 0x38, .host, .tap, .proxies, .ports, .pkg, .hdr 0x93,
        .hdr 0x91, .hdr 0x38, .pace, .violations, .suspects, .hdr 0x28, .hdr 0x12, .spares, .probes,
        .linkKeys, .hdr 0x50, .word 0x50 0x5C] : List Part) ++ ([.peers, .snuff, .plans, .clusters,
        .watch, .bcasts, .regs 0x18] : List Part))) ∧
  (∀ (chan : Nat) (s : State),
    (∃ t, exec (.ackTimer chan) s = .next t ∧ s.onlyChanges t [.out, .xfers, .lines, .inj, .chans, .now]) ∧
    (∃ t, exec (.creditReturn chan) s = .next t ∧ s.onlyChanges t [.out, .xfers, .lines, .inj, .chans]) ∧
    (∃ t, exec (.keepaliveSend chan) s = .next t ∧ s.onlyChanges t [.out, .xfers, .lines, .inj, .chans, .now]) ∧
    (∃ t, exec (.busyReplay chan) s = .next t ∧ s.onlyChanges t [.out, .xfers, .lines, .inj, .now, .chans])) ∧
  (∀ (chan : Nat) (phy : Bool) (s : State),
    ∃ t, exec (.partnerLost chan phy) s = .next t ∧ s.onlyChanges t (([.out, .xfers, .lines, .inj, .now, .pace, .regs 0x93, .regs 0x91, .regs 0x38, .mbox,
        .host, .tap, .proxies, .ports, .chans, .staged, .recs, .hdr 0x58, .violations, .suspects,
        .hdr 0x28, .hdr 0x12, .gens, .spares, .probes, .linkKeys, .hdr 0x50, .word 0x50 0x5C,
        .links, .peers, .sinter, .tports, .evts, .clock, .relock, .cmds, .word 0x08 0x100,
        .hdr 0x30, .pps, .hdr 0x93, .hdr 0x91, .hdr 0x38, .snuff, .hdr 0x18, .plans, .mirror,
        .redNodes, .clusters, .watch, .jobs] : List Part) ++ ([.bcasts] : List Part)))

/-- R271, R272, R276: a TS1 block counts for its lane while good, and a bad one starts the lane's count afresh; 16 TS2 sent and
received start the stream; an attempt that times out starts again, and after 8 the port is FAILED; a trained port comes UP,
or STANDBY toward the other parent; a package link counts ALIGN chunks, goes DOWN with its adapter, and a repaired lane
enters the spare map.
Completion, with nothing outside its frame changed: on every operand in every state trainTs1, trainTs2, trainTimeout, linkUp,
ucieAlign, ucieActiveChange, ucieRepair each answer a next state. -/
def Obligations.LinksTrainAndComeUp : Prop :=
  (∀ (p : Nat) (lanes : List (List Byte)) (s : State), s.linkKind p = 1 → (s.port p).state = .training → (s.port p).phase = .ts1 →
    ∃ t, exec (.trainTs1 p lanes) s = .next t ∧ s.onlyChanges t [.ports, .lines, .xfers, .out, .inj] ∧
      (∀ l < 5, (lanes[l]?).getD [] = [] → Tab.read natZero (t.port p).good l = 0) ∧
      (∀ l < 5, ∀ b ∈ lanes[l]?, b.length = 16 → leAt b 0 1 = 0xA5 → leAt b 1 1 = l → leAt b 2 1 / 16 = 1 →
        Tab.read natZero (t.port p).good l = Tab.read natZero (s.port p).good l + 1 ∧
          (64 ≤ Tab.read natZero (t.port p).good l → bit (t.port p).trained l = true)) ∧
      (t.port p).phase = (if 4 ≤ ((List.range 5).filter fun l => bit (t.port p).trained l).length then .ts2 else .ts1)) ∧
  (∀ (p : Nat) (failed : BitVec 5) (s : State), s.linkKind p = 1 → (s.port p).state = .training → (s.port p).phase = .ts2 →
    ∃ t, exec (.trainTs2 { port := p, failed }) s = .next t ∧ s.onlyChanges t [.ports, .lines, .xfers, .out, .inj] ∧
      (t.port p).txMap.failed = failed ∧ (t.port p).ts2Got = (s.port p).ts2Got + 1 ∧ (t.port p).ts2Sent = (s.port p).ts2Sent + 1 ∧
      (t.port p).phase = (if 16 ≤ (s.port p).ts2Got + 1 ∧ 16 ≤ (s.port p).ts2Sent + 1 then .stream else .ts2)) ∧
  (∀ (p : Nat) (s : State), (s.port p).state = .training →
    ∃ t, exec (.trainTimeout p) s = .next t ∧ s.onlyChanges t [.out, .xfers, .lines, .inj, .staged, .recs, .hdr 0x58, .ports, .cmds] ∧
      (if 8 ≤ (s.port p).attempts then (t.port p).state = .failed ∧ t.fum.seq = s.fum.seq + 1
       else (t.port p).attempts = (s.port p).attempts + 1 ∧
         (t.port p).state = if bit (s.portReg p 0) 31 && !s.unusedDownlink p then .training else .down)) ∧
  (∀ (p : Nat) (s : State), s.trainedUp p = true →
    ∃ t, exec (.linkUp p) s = .next t ∧ s.onlyChanges t [.out, .xfers, .lines, .inj, .ports, .word 0x38 0x44, .chans, .pkg, .links, .redNodes,
        .hdr 0x18, .staged, .recs, .hdr 0x58, .gens, .mirror, .mbox, .bcasts, .snuff, .tports,
        .evts, .clock, .relock, .cmds, .word 0x08 0x100, .hdr 0x30, .pps, .regs 0x18] ∧ t.linkUp p = true ∧
      (t.port p).trains = satAdd 8 (s.port p).trains 1 ∧ (t.port p).attempts = 0) ∧
  (∀ (p : Nat) (s : State), s.linkKind p = 0 → (s.port p).state = .training → (s.port p).active = true →
    ∃ t, exec (.ucieAlign p (List.replicate 64 0xA5)) s = .next t ∧ s.onlyChanges t [.ports, .lines, .xfers, .out, .inj] ∧
      (t.port p).aligns = (s.port p).aligns + 1 ∧ (t.port p).phase = (s.port p).phase) ∧
  (∀ (p : Nat) (s : State), s.linkKind p = 0 → s.isDie = true → p < 7 → s.linkUp p = false →
    if (s.port p).state = .quarantined then
      ∀ b, ∃ t, exec (.ucieActiveChange p b) s = .next t ∧ s.onlyChanges t [.out, .xfers, .lines, .inj, .ports, .pace, .regs 0x93, .regs 0x91, .regs 0x38, .mbox,
        .host, .tap, .proxies, .chans, .staged, .recs, .hdr 0x58, .violations, .suspects, .hdr 0x28,
        .hdr 0x12, .gens, .spares, .probes, .linkKeys, .hdr 0x50, .word 0x50 0x5C, .links, .peers,
        .sinter, .tports, .evts, .clock, .relock, .cmds, .word 0x08 0x100, .hdr 0x30, .pps,
        .hdr 0x93, .hdr 0x91, .hdr 0x38, .snuff, .hdr 0x18, .plans, .mirror, .redNodes, .clusters,
        .watch, .jobs, .bcasts] ∧ (t.port p).state = .quarantined ∧ (t.port p).active = b
    else
    (∃ t, exec (.ucieActiveChange p false) s = .next t ∧ s.onlyChanges t [.out, .xfers, .lines, .inj, .ports, .pace, .regs 0x93, .regs 0x91, .regs 0x38, .mbox,
        .host, .tap, .proxies, .chans, .staged, .recs, .hdr 0x58, .violations, .suspects, .hdr 0x28,
        .hdr 0x12, .gens, .spares, .probes, .linkKeys, .hdr 0x50, .word 0x50 0x5C, .links, .peers,
        .sinter, .tports, .evts, .clock, .relock, .cmds, .word 0x08 0x100, .hdr 0x30, .pps,
        .hdr 0x93, .hdr 0x91, .hdr 0x38, .snuff, .hdr 0x18, .plans, .mirror, .redNodes, .clusters,
        .watch, .jobs, .bcasts] ∧ (t.port p).state = .down ∧ (t.port p).active = false) ∧
    (∃ t, exec (.ucieActiveChange p true) s = .next t ∧ s.onlyChanges t [.out, .xfers, .lines, .inj, .ports, .pace, .regs 0x93, .regs 0x91, .regs 0x38, .mbox,
        .host, .tap, .proxies, .chans, .staged, .recs, .hdr 0x58, .violations, .suspects, .hdr 0x28,
        .hdr 0x12, .gens, .spares, .probes, .linkKeys, .hdr 0x50, .word 0x50 0x5C, .links, .peers,
        .sinter, .tports, .evts, .clock, .relock, .cmds, .word 0x08 0x100, .hdr 0x30, .pps,
        .hdr 0x93, .hdr 0x91, .hdr 0x38, .snuff, .hdr 0x18, .plans, .mirror, .redNodes, .clusters,
        .watch, .jobs, .bcasts] ∧ (t.port p).active = true ∧
      (t.port p).state = if bit (s.portReg p 0) 31 then .training else .down)) ∧
  (∀ (p lane : Nat) (s : State), s.linkKind p = 0 → s.isDie = true → s.check.spare.length < (s.reg (pg 0x12) 0x40).toNat →
    ∃ t, exec (.ucieRepair p lane) s = .next t ∧ s.onlyChanges t [.out, .xfers, .lines, .inj, .staged, .recs, .hdr 0x58, .hdr 0x12, .gens, .spares] ∧
      ∃ e : SpareEntry, t.check.spare = s.check.spare ++ [e] ∧ e.kind = 5 ∧ e.cause = 9 ∧ e.index = BitVec.ofNat 16 lane) ∧
  (∀ (port : Nat) (lanes : List (List Byte)) (s : State),
    ∃ t, exec (.trainTs1 port lanes) s = .next t ∧ s.onlyChanges t [.out, .xfers, .lines, .inj, .ports]) ∧
  (∀ (b : TrainIn) (s : State),
    ∃ t, exec (.trainTs2 b) s = .next t ∧ s.onlyChanges t [.out, .xfers, .lines, .inj, .ports]) ∧
  (∀ (port : Nat) (s : State),
    (∃ t, exec (.trainTimeout port) s = .next t ∧ s.onlyChanges t [.out, .xfers, .lines, .inj, .staged, .recs, .hdr 0x58, .ports, .cmds]) ∧
    (∃ t, exec (.linkUp port) s = .next t ∧ s.onlyChanges t [.out, .xfers, .lines, .inj, .ports, .word 0x38 0x44, .chans, .pkg, .links, .redNodes,
        .hdr 0x18, .staged, .recs, .hdr 0x58, .gens, .mirror, .mbox, .bcasts, .snuff, .tports,
        .evts, .clock, .relock, .cmds, .word 0x08 0x100, .hdr 0x30, .pps, .regs 0x18])) ∧
  (∀ (port : Nat) (chunk : List Byte) (s : State),
    ∃ t, exec (.ucieAlign port chunk) s = .next t ∧ s.onlyChanges t [.out, .xfers, .lines, .inj, .ports]) ∧
  (∀ (port : Nat) (active : Bool) (s : State),
    ∃ t, exec (.ucieActiveChange port active) s = .next t ∧ s.onlyChanges t [.out, .xfers, .lines, .inj, .ports, .pace, .regs 0x93, .regs 0x91, .regs 0x38, .mbox,
        .host, .tap, .proxies, .chans, .staged, .recs, .hdr 0x58, .violations, .suspects, .hdr 0x28,
        .hdr 0x12, .gens, .spares, .probes, .linkKeys, .hdr 0x50, .word 0x50 0x5C, .links, .peers,
        .sinter, .tports, .evts, .clock, .relock, .cmds, .word 0x08 0x100, .hdr 0x30, .pps,
        .hdr 0x93, .hdr 0x91, .hdr 0x38, .snuff, .hdr 0x18, .plans, .mirror, .redNodes, .clusters,
        .watch, .jobs, .bcasts]) ∧
  (∀ (port lane : Nat) (s : State),
    ∃ t, exec (.ucieRepair port lane) s = .next t ∧ s.onlyChanges t [.out, .xfers, .lines, .inj, .staged, .recs, .hdr 0x58, .hdr 0x12, .gens, .spares])

/-- R265, R277 to R279: two missing markers or a lost signal fail a lane, a swap is asked for again up to four times and then the
link is reset, and at its pair the logical lane moves to the spare; a link reset trains the port afresh.
Completion, with nothing outside its frame changed: on every operand in every state alignmentMarker, laneFail, swapRepeat,
laneSwitch, linkResetEvent, laneRetire each answer a next state. -/
def Obligations.LanesFailAndSwap : Prop :=
  (∀ (p : Nat) (s : State), s.linkKind p = 1 → (s.port p).phase = .stream → (s.port p).trained = 0 →
    (s.port p).due = none → (s.linkUp p = true → bit (s.portReg p 0) 31 = true) →
    ∃ t, exec (.alignmentMarker p []) s = .next t ∧ s.onlyChanges t (([.out, .xfers, .lines, .inj, .ports, .pace, .regs 0x93, .regs 0x91, .regs 0x38, .mbox,
        .host, .tap, .proxies, .chans, .staged, .recs, .hdr 0x58, .violations, .suspects, .hdr 0x28,
        .hdr 0x12, .gens, .spares, .probes, .linkKeys, .hdr 0x50, .word 0x50 0x5C, .links, .peers,
        .sinter, .tports, .evts, .clock, .relock, .cmds, .word 0x08 0x100, .hdr 0x30, .pps,
        .hdr 0x93, .hdr 0x91, .hdr 0x38, .snuff, .hdr 0x18, .plans, .mirror, .redNodes, .clusters,
        .watch, .jobs, .bcasts] : List Part) ++ ([.pkg, .verify, .ringQ, .word 0x40 0x6C,
        .svcNotices, .hdr 0x40, .regs 0x18] : List Part)) ∧
      ∀ l < 5, Tab.read natZero (t.port p).missing l = Tab.read natZero (s.port p).missing l + 1) ∧
  (∀ (p l : Nat) (s : State), s.linkKind p = 1 → s.linkUp p = true → l < 5 →
    ∃ t, exec (.laneFail p l) s = .next t ∧ s.onlyChanges t (([.out, .xfers, .lines, .inj, .pace, .regs 0x93, .regs 0x91, .regs 0x38, .mbox, .host,
        .tap, .proxies, .ports, .chans, .staged, .recs, .hdr 0x58, .violations, .suspects,
        .hdr 0x28, .hdr 0x12, .gens, .spares, .probes, .linkKeys, .hdr 0x50, .word 0x50 0x5C,
        .links, .peers, .sinter, .tports, .evts, .clock, .relock, .cmds, .word 0x08 0x100,
        .hdr 0x30, .pps, .hdr 0x93, .hdr 0x91, .hdr 0x38, .snuff, .hdr 0x18, .plans, .mirror,
        .redNodes, .clusters, .watch, .jobs, .bcasts] : List Part) ++ ([.pkg, .verify, .ringQ,
        .word 0x40 0x6C, .svcNotices, .hdr 0x40, .regs 0x18] : List Part)) ∧ bit (t.port p).rxMap.failed l = true) ∧
  (∀ (p : Nat) (w : Swap) (s : State), (s.port p).swap = some w → w.answered = false →
    ∃ t, exec (.swapRepeat p) s = .next t ∧ s.onlyChanges t (([.out, .xfers, .lines, .inj, .pace, .regs 0x93, .regs 0x91, .regs 0x38, .mbox, .host,
        .tap, .proxies, .ports, .chans, .staged, .recs, .hdr 0x58, .violations, .suspects,
        .hdr 0x28, .hdr 0x12, .gens, .spares, .probes, .linkKeys, .hdr 0x50, .word 0x50 0x5C,
        .links, .peers, .sinter, .tports, .evts, .clock, .relock, .cmds, .word 0x08 0x100,
        .hdr 0x30, .pps, .hdr 0x93, .hdr 0x91, .hdr 0x38, .snuff, .hdr 0x18, .plans, .mirror,
        .redNodes, .clusters, .watch, .jobs, .bcasts] : List Part) ++ ([.pkg, .verify, .ringQ,
        .word 0x40 0x6C, .svcNotices, .hdr 0x40, .regs 0x18] : List Part)) ∧
      (if 4 ≤ w.repeats then t.linkUp p = false else (t.port p).swap = some { w with repeats := w.repeats + 1 })) ∧
  (∀ (p l : Nat) (y : Nat) (s : State), (s.port p).txSwap = some (l, y) → y ≤ (s.port p).txPair →
    ∃ t, exec (.laneSwitch p true) s = .next t ∧ s.onlyChanges t [.ports, .lines, .xfers, .out, .inj] ∧
      t.port p = { s.port p with txSwap := none, txMap := laneAfter (s.port p).txMap l } ∧ ∀ q, q ≠ p → t.port q = s.port q) ∧
  (∀ (p : Nat) (w : Swap) (s : State), (s.port p).swap = some w → w.answered = true → w.atPair ≤ (s.port p).rxPair →
    ∃ t, exec (.laneSwitch p false) s = .next t ∧ s.onlyChanges t [.ports, .lines, .xfers, .out, .inj] ∧
      t.port p = { s.port p with swap := none, rxMap := laneAfter (s.port p).rxMap w.lane, badRun := 0 } ∧
      ∀ q, q ≠ p → t.port q = s.port q) ∧
  (∀ (p : Nat) (s : State), p < s.portCount → s.dark = false → s.parentPort ≠ some p → s.linkUp p = false →
    ∃ t, exec (.linkResetEvent p) s = .next t ∧ s.onlyChanges t (([.out, .xfers, .lines, .inj, .sinter, .mbox, .regs 0x93, .regs 0x91, .regs 0x38, .host,
        .tap, .proxies, .ports, .chans, .links, .pkg, .hdr 0x93, .hdr 0x91, .hdr 0x38, .mirror,
        .gens, .jobs, .verify, .ringQ, .word 0x40 0x6C, .svcNotices, .hdr 0x40, .redNodes,
        .hdr 0x18, .staged, .recs, .hdr 0x58, .tports, .evts, .clock, .relock, .cmds,
        .word 0x08 0x100, .hdr 0x30, .pps, .pace, .violations, .suspects, .hdr 0x28, .hdr 0x12,
        .spares, .probes, .linkKeys, .hdr 0x50, .word 0x50 0x5C] : List Part) ++ ([.peers, .snuff,
        .plans, .clusters, .watch, .bcasts, .regs 0x18] : List Part)) ∧
      (t.port p).state = (if (s.port p).state = .quarantined then .quarantined
        else if bit (s.portReg p 0) 31 && !s.unusedDownlink p then .training else .down) ∧ (t.port p).attempts = 1) ∧
  (∀ (c : CmdIn) (s : State), s.takes c .firmware = true →
    ∃ t, exec (.laneRetire c) s = .next t ∧ s.onlyChanges t (([.out, .xfers, .lines, .inj, .cmds, .power, .bpwr, .word 0x50 0x54, .activity, .host,
        .tap, .regs 0x08, .hdr 0x08, .pace, .regs 0x93, .regs 0x91, .regs 0x38, .mbox, .proxies,
        .ports, .chans, .staged, .recs, .hdr 0x58, .violations, .suspects, .hdr 0x28, .hdr 0x12,
        .gens, .spares, .probes, .linkKeys, .hdr 0x50, .word 0x50 0x5C, .links, .peers, .sinter,
        .tports, .evts, .clock, .relock, .hdr 0x30, .pps, .hdr 0x93, .hdr 0x91, .hdr 0x38, .snuff,
        .hdr 0x18, .plans, .mirror] : List Part) ++ ([.redNodes, .clusters, .watch, .jobs, .bcasts,
        .pkg, .verify, .ringQ, .word 0x40 0x6C, .svcNotices, .hdr 0x40, .regs 0x18] : List Part)) ∧
      (let p := argFld c s 0 0 8
       let l := argFld c s 1 0 3
       if s.portCount ≤ p ∨ s.linkKind p ≠ 1 ∨ 5 ≤ l then t.ended c stError 1 ∧ t.links = s.links
       else if (s.port p).rxMap.spare = 7 ∨ bit (s.portReg p 0) 4 = false ∨ s.linkUp p = false ∨ (s.port p).swap.isSome = true then
         t.ended c stError 6 ∧ t.links = s.links
       else t.ended c stOk 0 ∧ bit (t.port p).rxMap.failed l = true)) ∧
  (∀ (port : Nat) (lanes : List (List Byte)) (s : State),
    ∃ t, exec (.alignmentMarker port lanes) s = .next t ∧ s.onlyChanges t (([.out, .xfers, .lines, .inj, .ports, .pace, .regs 0x93, .regs 0x91, .regs 0x38, .mbox,
        .host, .tap, .proxies, .chans, .staged, .recs, .hdr 0x58, .violations, .suspects, .hdr 0x28,
        .hdr 0x12, .gens, .spares, .probes, .linkKeys, .hdr 0x50, .word 0x50 0x5C, .links, .peers,
        .sinter, .tports, .evts, .clock, .relock, .cmds, .word 0x08 0x100, .hdr 0x30, .pps,
        .hdr 0x93, .hdr 0x91, .hdr 0x38, .snuff, .hdr 0x18, .plans, .mirror, .redNodes, .clusters,
        .watch, .jobs, .bcasts] : List Part) ++ ([.pkg, .verify, .ringQ, .word 0x40 0x6C,
        .svcNotices, .hdr 0x40, .regs 0x18] : List Part))) ∧
  (∀ (port lane : Nat) (s : State),
    ∃ t, exec (.laneFail port lane) s = .next t ∧ s.onlyChanges t (([.out, .xfers, .lines, .inj, .pace, .regs 0x93, .regs 0x91, .regs 0x38, .mbox, .host,
        .tap, .proxies, .ports, .chans, .staged, .recs, .hdr 0x58, .violations, .suspects,
        .hdr 0x28, .hdr 0x12, .gens, .spares, .probes, .linkKeys, .hdr 0x50, .word 0x50 0x5C,
        .links, .peers, .sinter, .tports, .evts, .clock, .relock, .cmds, .word 0x08 0x100,
        .hdr 0x30, .pps, .hdr 0x93, .hdr 0x91, .hdr 0x38, .snuff, .hdr 0x18, .plans, .mirror,
        .redNodes, .clusters, .watch, .jobs, .bcasts] : List Part) ++ ([.pkg, .verify, .ringQ,
        .word 0x40 0x6C, .svcNotices, .hdr 0x40, .regs 0x18] : List Part))) ∧
  (∀ (port : Nat) (s : State),
    (∃ t, exec (.swapRepeat port) s = .next t ∧ s.onlyChanges t (([.out, .xfers, .lines, .inj, .pace, .regs 0x93, .regs 0x91, .regs 0x38, .mbox, .host,
        .tap, .proxies, .ports, .chans, .staged, .recs, .hdr 0x58, .violations, .suspects,
        .hdr 0x28, .hdr 0x12, .gens, .spares, .probes, .linkKeys, .hdr 0x50, .word 0x50 0x5C,
        .links, .peers, .sinter, .tports, .evts, .clock, .relock, .cmds, .word 0x08 0x100,
        .hdr 0x30, .pps, .hdr 0x93, .hdr 0x91, .hdr 0x38, .snuff, .hdr 0x18, .plans, .mirror,
        .redNodes, .clusters, .watch, .jobs, .bcasts] : List Part) ++ ([.pkg, .verify, .ringQ,
        .word 0x40 0x6C, .svcNotices, .hdr 0x40, .regs 0x18] : List Part))) ∧
    (∃ t, exec (.linkResetEvent port) s = .next t ∧ s.onlyChanges t (([.out, .xfers, .lines, .inj, .sinter, .mbox, .regs 0x93, .regs 0x91, .regs 0x38, .host,
        .tap, .proxies, .ports, .chans, .links, .pkg, .hdr 0x93, .hdr 0x91, .hdr 0x38, .mirror,
        .gens, .jobs, .verify, .ringQ, .word 0x40 0x6C, .svcNotices, .hdr 0x40, .redNodes,
        .hdr 0x18, .staged, .recs, .hdr 0x58, .tports, .evts, .clock, .relock, .cmds,
        .word 0x08 0x100, .hdr 0x30, .pps, .pace, .violations, .suspects, .hdr 0x28, .hdr 0x12,
        .spares, .probes, .linkKeys, .hdr 0x50, .word 0x50 0x5C] : List Part) ++ ([.peers, .snuff,
        .plans, .clusters, .watch, .bcasts, .regs 0x18] : List Part)))) ∧
  (∀ (port : Nat) (tx : Bool) (s : State),
    ∃ t, exec (.laneSwitch port tx) s = .next t ∧ s.onlyChanges t [.out, .xfers, .lines, .inj, .ports]) ∧
  (∀ (c : CmdIn) (s : State),
    ∃ t, exec (.laneRetire c) s = .next t ∧ s.onlyChanges t (([.out, .xfers, .lines, .inj, .cmds, .power, .bpwr, .word 0x50 0x54, .activity, .host,
        .tap, .regs 0x08, .hdr 0x08, .pace, .regs 0x93, .regs 0x91, .regs 0x38, .mbox, .proxies,
        .ports, .chans, .staged, .recs, .hdr 0x58, .violations, .suspects, .hdr 0x28, .hdr 0x12,
        .gens, .spares, .probes, .linkKeys, .hdr 0x50, .word 0x50 0x5C, .links, .peers, .sinter,
        .tports, .evts, .clock, .relock, .hdr 0x30, .pps, .hdr 0x93, .hdr 0x91, .hdr 0x38, .snuff,
        .hdr 0x18, .plans, .mirror] : List Part) ++ ([.redNodes, .clusters, .watch, .jobs, .bcasts,
        .pkg, .verify, .ringQ, .word 0x40 0x6C, .svcNotices, .hdr 0x40, .regs 0x18] : List Part)))

/-- R288 to R297: GATE_SET holds its list until BASE, where it replaces the one in force and the command ends; LINK_RESET waits for
the port to train, LINK_STATS_CLEAR clears a port's counters, and PARENT_SWAP waits for the mirror, 20 µs at most; a lost
parent's traffic goes on at the other parent, whose TAKEOVER its held outputs await.
Completion, with nothing outside its frame changed: on every operand in every state linkReset, gateSet, gateSwitch,
gateWindowOpen, linkStatsClear, parentSwap, notSynced, parentChange each answer a next state. -/
def Obligations.GatesAndParentsChangeAtTheirInstants : Prop :=
  (∀ (c : CmdIn) (s : State), s.takes c .firmware = true →
    (s.portCount ≤ argFld c s 0 0 8 → ∃ t, exec (.linkReset c) s = .next t ∧ s.onlyChanges t (([.out, .xfers, .lines, .inj, .cmds, .power, .bpwr, .word 0x50 0x54, .activity, .host,
        .tap, .regs 0x08, .hdr 0x08, .sinter, .mbox, .regs 0x93, .regs 0x91, .regs 0x38, .proxies,
        .ports, .chans, .links, .pkg, .hdr 0x93, .hdr 0x91, .hdr 0x38, .mirror, .gens, .jobs,
        .verify, .ringQ, .word 0x40 0x6C, .svcNotices, .hdr 0x40, .redNodes, .hdr 0x18, .staged,
        .recs, .hdr 0x58, .tports, .evts, .clock, .relock, .hdr 0x30, .pps, .pace, .violations,
        .suspects, .hdr 0x28, .hdr 0x12] : List Part) ++ ([.spares, .probes, .linkKeys, .hdr 0x50,
        .word 0x50 0x5C, .peers, .snuff, .plans, .clusters, .watch, .bcasts,
        .regs 0x18] : List Part)) ∧ t.ended c stError 1 ∧ t.links = s.links) ∧
    (argFld c s 0 0 8 < s.portCount → s.parentPort ≠ some (argFld c s 0 0 8) → s.linkUp (argFld c s 0 0 8) = false →
      ∃ t, exec (.linkReset c) s = .next t ∧ s.onlyChanges t (([.out, .xfers, .lines, .inj, .cmds, .power, .bpwr, .word 0x50 0x54, .activity, .host,
        .tap, .regs 0x08, .hdr 0x08, .sinter, .mbox, .regs 0x93, .regs 0x91, .regs 0x38, .proxies,
        .ports, .chans, .links, .pkg, .hdr 0x93, .hdr 0x91, .hdr 0x38, .mirror, .gens, .jobs,
        .verify, .ringQ, .word 0x40 0x6C, .svcNotices, .hdr 0x40, .redNodes, .hdr 0x18, .staged,
        .recs, .hdr 0x58, .tports, .evts, .clock, .relock, .hdr 0x30, .pps, .pace, .violations,
        .suspects, .hdr 0x28, .hdr 0x12] : List Part) ++ ([.spares, .probes, .linkKeys, .hdr 0x50,
        .word 0x50 0x5C, .peers, .snuff, .plans, .clusters, .watch, .bcasts,
        .regs 0x18] : List Part)) ∧
        if bit (s.portReg (argFld c s 0 0 8) 0) 31 && !s.unusedDownlink (argFld c s 0 0 8) then t.waits c (.event 27 (argFld c s 0 0 8)) ∧ (t.port (argFld c s 0 0 8)).state = .training
        else t.ended c stOk 0 ∧ (t.port (argFld c s 0 0 8)).state = .down)) ∧
  (∀ (c : CmdIn) (s : State), s.takes c .firmware = true →
    ∃ t, exec (.gateSet c) s = .next t ∧ s.onlyChanges t (commandParts ++ [.ports]) ∧
      (let p := argFld c s 0 0 8
       if s.portCount ≤ p ∨ argFld c s 0 8 7 = 0 ∨ 64 < argFld c s 0 8 7 then t.ended c stError 1 ∧ t.links = s.links
       else t.links = s.links ∨ (s.now + 10 * us ≤ argFT c s 1 ∧ t.waits c (.time (argFT c s 1)) ∧
         t.port p = { s.port p with nextGates := some { entries := writtenList (s.port p) (argFld c s 0 8 7), base := argFT c s 1 }, gatePage := some (c.pkg, c.page.toNat) }))) ∧
  (∀ (p : Nat) (g : GateList) (s : State), (s.port p).nextGates = some g →
    ∃ t, exec (.gateSwitch p) s = .next t ∧ s.onlyChanges t [.now, .ports, .cmds, .lines, .xfers, .out, .inj] ∧ t.now = max s.now g.base ∧
      t.port p = { s.port p with gates := g, nextGates := none, gateNo := (s.port p).gateNo + 1, gatePage := none } ∧
      ∀ pkg n, (s.port p).gatePage = some (pkg, n) → (t.cmd pkg n).busy = false ∧ (t.cmd pkg n).status = stOk) ∧
  (∀ (p k : Nat) (s : State),
    ∃ t, exec (.gateWindowOpen p k) s = .next t ∧ s.onlyChanges t [.now, .lines, .xfers, .out, .inj] ∧ s.now ≤ t.now) ∧
  (∀ (c : CmdIn) (s : State), s.takes c .operator = true →
    ∃ t, exec (.linkStatsClear c) s = .next t ∧ s.onlyChanges t [.out, .xfers, .lines, .inj, .cmds, .power, .bpwr, .word 0x50 0x54, .activity, .host, .tap,
        .regs 0x08, .hdr 0x08, .regs 0x93, .regs 0x91, .regs 0x38] ∧
      (let p := argFld c s 0 0 8
       if p = 0xFF then t.ended c stOk 0
       else if s.portCount ≤ p then t.ended c stError 1 ∧ t.links = s.links
       else t.ended c stOk 0 ∧ ∀ i < 9, t.reg (s.portPage p) (s.portOff p (0x2C + 4 * i)) = 0)) ∧
  (∀ (c : CmdIn) (s : State), s.takes c .firmware = true → s.isDie = true →
    ∃ t, exec (.parentSwap c) s = .next t ∧ s.onlyChanges t [.out, .xfers, .lines, .inj, .cmds, .power, .bpwr, .word 0x50 0x54, .activity, .host, .tap,
        .regs 0x08, .hdr 0x08, .links, .chans] ∧
      (if s.links.swapWait.isSome ∨ (s.waiters fun w => decide (w = .event 39 2)) ≠ [] then t.waits c (.event 39 2) ∧ t.links = s.links
       else t.waits c (.event 8 0) ∧
         t.links.swapWait = some { pkg := c.pkg, page := c.page.toNat, down := argFld c s 0 0 8, start := s.now })) ∧
  (∀ (w : SwapWait) (s : State), s.links.swapWait = some w → (s.isSystem && s.mirrorCurrent) = false →
    ∃ t, exec .notSynced s = .next t ∧ s.onlyChanges t [.out, .xfers, .lines, .inj, .cmds, .links, .chans, .now] ∧
      t.now = max s.now (w.start + 20 * us) ∧ t.links.swapWait = none ∧ (t.cmd w.pkg w.page).busy = false ∧
      (t.cmd w.pkg w.page).status = stError ∧ (t.cmd w.pkg w.page).detail = 5) ∧
  (∀ (p : Nat) (s : State), s.isSystem = true → s.straps.cascade = false → p ∈ s.parentPorts → s.linkUp p = true → s.links.holding = true →
    ∃ t, exec (.parentChange p) s = .next t ∧ s.onlyChanges t [.out, .xfers, .lines, .inj, .sinter, .mbox, .regs 0x93, .regs 0x91, .regs 0x38, .host,
        .tap, .proxies, .ports, .chans, .links, .pkg, .hdr 0x93, .hdr 0x91, .hdr 0x38, .mirror,
        .gens, .jobs, .verify, .ringQ, .word 0x40 0x6C, .svcNotices, .hdr 0x40, .redNodes,
        .hdr 0x18, .staged, .recs, .hdr 0x58, .tports, .evts, .clock, .relock, .cmds,
        .word 0x08 0x100, .hdr 0x30, .pps, .regs 0x18] ∧ t.links.upPort = p ∧ t.links.holding = true) ∧
  (∀ (c : CmdIn) (s : State),
    (∃ t, exec (.linkReset c) s = .next t ∧ s.onlyChanges t (([.out, .xfers, .lines, .inj, .cmds, .power, .bpwr, .word 0x50 0x54, .activity, .host,
        .tap, .regs 0x08, .hdr 0x08, .sinter, .mbox, .regs 0x93, .regs 0x91, .regs 0x38, .proxies,
        .ports, .chans, .links, .pkg, .hdr 0x93, .hdr 0x91, .hdr 0x38, .mirror, .gens, .jobs,
        .verify, .ringQ, .word 0x40 0x6C, .svcNotices, .hdr 0x40, .redNodes, .hdr 0x18, .staged,
        .recs, .hdr 0x58, .tports, .evts, .clock, .relock, .hdr 0x30, .pps, .pace, .violations,
        .suspects, .hdr 0x28, .hdr 0x12] : List Part) ++ ([.spares, .probes, .linkKeys, .hdr 0x50,
        .word 0x50 0x5C, .peers, .snuff, .plans, .clusters, .watch, .bcasts,
        .regs 0x18] : List Part))) ∧
    (∃ t, exec (.gateSet c) s = .next t ∧ s.onlyChanges t [.out, .xfers, .lines, .inj, .cmds, .power, .bpwr, .word 0x50 0x54, .activity, .host, .tap, .regs 0x08, .hdr 0x08, .ports]) ∧
    (∃ t, exec (.linkStatsClear c) s = .next t ∧ s.onlyChanges t [.out, .xfers, .lines, .inj, .cmds, .power, .bpwr, .word 0x50 0x54, .activity, .host, .tap,
        .regs 0x08, .hdr 0x08, .regs 0x93, .regs 0x91, .regs 0x38]) ∧
    (∃ t, exec (.parentSwap c) s = .next t ∧ s.onlyChanges t [.out, .xfers, .lines, .inj, .cmds, .power, .bpwr, .word 0x50 0x54, .activity, .host, .tap,
        .regs 0x08, .hdr 0x08, .links, .chans])) ∧
  (∀ (port : Nat) (s : State),
    (∃ t, exec (.gateSwitch port) s = .next t ∧ s.onlyChanges t [.out, .xfers, .lines, .inj, .ports, .cmds, .now]) ∧
    (∃ t, exec (.parentChange port) s = .next t ∧ s.onlyChanges t [.out, .xfers, .lines, .inj, .sinter, .mbox, .regs 0x93, .regs 0x91, .regs 0x38, .host,
        .tap, .proxies, .ports, .chans, .links, .pkg, .hdr 0x93, .hdr 0x91, .hdr 0x38, .mirror,
        .gens, .jobs, .verify, .ringQ, .word 0x40 0x6C, .svcNotices, .hdr 0x40, .redNodes,
        .hdr 0x18, .staged, .recs, .hdr 0x58, .tports, .evts, .clock, .relock, .cmds,
        .word 0x08 0x100, .hdr 0x30, .pps, .regs 0x18])) ∧
  (∀ (port cls : Nat) (s : State),
    ∃ t, exec (.gateWindowOpen port cls) s = .next t ∧ s.onlyChanges t [.out, .xfers, .lines, .inj, .now]) ∧
  (∀ (s : State),
    ∃ t, exec .notSynced s = .next t ∧ s.onlyChanges t [.out, .xfers, .lines, .inj, .cmds, .links, .chans, .now])

/-- R263, R264, R268, R280, R283: an uncorrectable codeword discards the frame in progress; a frame that fails its trailer is taken
off and not accepted, and one in order is acknowledged; a port's LINK_CTRL goes before its other frames; a message leaves
for its port's queues; an Ethernet frame that fails its check is dropped; a proxy request is answered to its node, and its
answer or the time limit frees the requester.
Completion, with nothing outside its frame changed: on every operand in every state codewordReceive, frameReceive,
frameSelect, frameEnqueue, ethernetFrame, proxyReq, proxyRsp, proxyTimeout each answer a next state. -/
def Obligations.FramesAreCheckedSentAndAnswered : Prop :=
  (∀ (p : Nat) (lanes : List (List Byte)) (s : State), s.linkKind p = 1 → s.isEth p = false → s.linkUp p = true →
    s.chanOpen (s.linkConv p) = true → (s.port p).swap = none → (s.port p).due = none → bit (s.portReg p 0) 31 = true →
    rsPairDecode (scramble (s.port p).rxScr (gatherLanes (s.port p).rxMap (s.port p).invert lanes)).2 = none → (s.port p).badRun < 7 →
    ∃ t, exec (.codewordReceive p lanes) s = .next t ∧ s.onlyChanges t (([.out, .xfers, .lines, .inj, .pace, .regs 0x93, .regs 0x91, .regs 0x38, .mbox, .host,
        .tap, .proxies, .ports, .chans, .staged, .recs, .hdr 0x58, .violations, .suspects,
        .hdr 0x28, .hdr 0x12, .gens, .spares, .probes, .linkKeys, .hdr 0x50, .word 0x50 0x5C,
        .links, .peers, .sinter, .tports, .evts, .clock, .relock, .cmds, .word 0x08 0x100,
        .hdr 0x30, .pps, .hdr 0x93, .hdr 0x91, .hdr 0x38, .snuff, .hdr 0x18, .plans, .mirror,
        .redNodes, .clusters, .watch, .jobs, .bcasts] : List Part) ++ ([.pkg, .verify, .ringQ,
        .word 0x40 0x6C, .svcNotices, .hdr 0x40, .regs 0x18] : List Part)) ∧ (t.port p).rxPair = (s.port p).rxPair + 1 ∧
      (t.port p).badRun = (s.port p).badRun + 1 ∧ (t.port p).rxBuf = [] ∧ (t.port p).rxSkip = true ∧ (t.port p).rx = (s.port p).rx) ∧
  (∀ (p c : Nat) (b : List Byte) (rest : List (Nat × List Byte)) (s : State), s.dark = false → s.awake = true → s.isSystem = false →
    (s.port p).rx = (c, b) :: rest → (b.length ≠ (rxHeader b).len ∨ trailerGood b = false) →
    ∃ t, exec (.frameReceive p) s = .next t ∧ s.onlyChanges t [.out, .xfers, .lines, .inj, .power, .bpwr, .cmds, .word 0x08 0x104, .word 0x08 0x100,
        .word 0x50 0x54, .activity, .mirror, .redNodes, .mbox, .ports, .staged, .recs, .hdr 0x58,
        .regs 0x93, .regs 0x91, .regs 0x38, .violations, .suspects, .hdr 0x28, .hdr 0x12, .gens,
        .spares, .probes, .chans, .hdr 0x93, .hdr 0x91, .hdr 0x38, .snuff, .hdr 0x61, .sinter,
        .regs 0x31, .word 0x40 0x54, .links, .bcasts] ∧ (t.port p).rx = rest ∧ (t.chan c).rxSeq = (s.chan c).rxSeq) ∧
  (∀ (p c : Nat) (m : LinkCtrl) (s : State), s.linkUp p = true →
    (s.portChans p).findSome? (fun c => (s.chan c).ctl.head?.map fun m => (c, m)) = some (c, m) →
    ∃ t, exec (.frameSelect p) s = .next t ∧ s.onlyChanges t [.out, .xfers, .lines, .inj, .chans, .ports, .regs 0x93, .regs 0x91, .regs 0x38, .hdr 0x93, .hdr 0x91, .hdr 0x38] ∧ (t.chan c).ctl = (s.chan c).ctl.drop 1 ∧ (t.chan c).owesAck = false ∧
      (t.chan c).sentAt = s.now ∧ (t.port p).queues = (s.port p).queues) ∧
  (∀ (p : Nat) (e : Nat × Msg) (s : State), s.mbox.find? (fun e => decide (e.1 = p) && (decide (2 ≤ typeClass e.2.typ) || s.controlRoom p (typeClass e.2.typ) (s.msgBytes p e.2))) = some e →
    ∃ t, exec (.frameEnqueue p) s = .next t ∧ s.onlyChanges t [.out, .xfers, .lines, .inj, .regs 0x93, .regs 0x91, .regs 0x38, .ports, .hdr 0x39, .word 0x39 0x68, .sinter, .mbox] ∧ t.mbox = s.mbox.erase e) ∧
  (∀ (p : Nat) (b : List Byte) (s : State), b.length < 64 ∨ b.drop (b.length - 4) ≠ fcs (b.take (b.length - 4)) →
    ∃ t, exec (.ethernetFrame p b) s = .next t ∧ s.onlyChanges t [.lines, .xfers, .out, .inj]) ∧
  (∀ (p : Nat) (src tag : BitVec 16) (addr : BitVec 24) (wr : Bool) (data : Word) (priv : BitVec 2) (rid : Byte) (job : BitVec 16)
    (s u : State) (r : Resp) (d : Word),
    s.serve { addr, be := 0xF, wr, data, req := { port := .proxy, priv, job, rid } } (some (p, src, tag)) = (some (r, d), u) →
    ∃ t, exec (.proxyReq p src tag addr wr data priv rid job) s = .next t ∧ s.onlyChanges t (([.out, .xfers, .lines, .inj, .allHdrs, .power, .bpwr, .cmds, .activity, .staged, .recs,
        .snap, .heldRecs, .host, .tap, .evts, .grid, .bcasts, .mbox, .probes, .pace, .clusters,
        .violations, .ports, .suspects, .gens, .spares, .regions, .geyser, .ringQ, .meas, .redNodes,
        .engines, .ftab, .kernels, .notices, .kats, .taint, .clock, .relock, .pps, .now, .tick,
        .tports, .svcNotices, .jobs, .waves, .snuff, .profiles,
        .watch] : List Part) ++ ([.redInputs, .cores, .rails, .snaps, .mirror, .replicas, .drift,
        .droops, .pkg, .rings, .sinter, .proxies, .chans, .links, .verify, .linkKeys, .peers,
        .plans, .forced, .change, .trace, .latches, .token, .log, .free, .rotState, .firmware,
        .allRegs, .tables, .rotOrders] : List Part)) ∧
      t.mbox = u.mbox ++ [(p, { typ := 0x03, tag, dest := .node src, payload := [respByte r, 0, 0, 0] ++ leBytes 4 d.toNat ++ zeros 4 })]) ∧
  (∀ (p : Nat) (tag : BitVec 16) (data : Word) (x : ProxyTag) (s : State), Tab.read noProxy s.links.proxies tag.toNat = some x →
    x.dead = false → x.back = none → s.pages.host.order = [{ num := some x.num, req := x.req, ans := none }] →
    ∃ t, exec (.proxyRsp p tag 0 data) s = .next t ∧ s.onlyChanges t [.out, .xfers, .lines, .inj, .staged, .recs, .hdr 0x58, .regs 0x93, .regs 0x91, .regs 0x38,
        .violations, .ports, .suspects, .hdr 0x28, .hdr 0x12, .gens, .spares, .probes, .mbox, .host,
        .tap, .proxies] ∧ s.delivered t x.req .ok data ∧ t.pages.host.order = [] ∧
      Tab.read noProxy t.links.proxies tag.toNat = none) ∧
  (∀ (tag : Nat) (x : ProxyTag) (s : State), Tab.read noProxy s.links.proxies tag = some x →
    ∃ t, exec (.proxyTimeout tag) s = .next t ∧ s.onlyChanges t [.out, .xfers, .lines, .inj, .now, .proxies, .mbox, .host, .tap] ∧
      (if x.dead then Tab.read noProxy t.links.proxies tag = none ∧ t.now = max s.now (x.sent + 2 * ms)
       else Tab.read noProxy t.links.proxies tag = some { x with dead := true } ∧ t.now = max s.now (x.sent + ms) ∧
         (x.back = none → s.pages.host.order = [{ num := some x.num, req := x.req, ans := none }] →
          s.delivered t x.req .error 0))) ∧
  (∀ (port : Nat) (lanes : List (List Byte)) (s : State),
    ∃ t, exec (.codewordReceive port lanes) s = .next t ∧ s.onlyChanges t (([.out, .xfers, .lines, .inj, .pace, .regs 0x93, .regs 0x91, .regs 0x38, .mbox, .host,
        .tap, .proxies, .ports, .chans, .staged, .recs, .hdr 0x58, .violations, .suspects,
        .hdr 0x28, .hdr 0x12, .gens, .spares, .probes, .linkKeys, .hdr 0x50, .word 0x50 0x5C,
        .links, .peers, .sinter, .tports, .evts, .clock, .relock, .cmds, .word 0x08 0x100,
        .hdr 0x30, .pps, .hdr 0x93, .hdr 0x91, .hdr 0x38, .snuff, .hdr 0x18, .plans, .mirror,
        .redNodes, .clusters, .watch, .jobs, .bcasts] : List Part) ++ ([.pkg, .verify, .ringQ,
        .word 0x40 0x6C, .svcNotices, .hdr 0x40, .regs 0x18] : List Part))) ∧
  (∀ (port : Nat) (s : State),
    (∃ t, exec (.frameReceive port) s = .next t ∧ s.onlyChanges t [.out, .xfers, .lines, .inj, .power, .bpwr, .cmds, .word 0x08 0x104, .word 0x08 0x100,
        .word 0x50 0x54, .activity, .mirror, .redNodes, .mbox, .ports, .staged, .recs, .hdr 0x58,
        .regs 0x93, .regs 0x91, .regs 0x38, .violations, .suspects, .hdr 0x28, .hdr 0x12, .gens,
        .spares, .probes, .chans, .hdr 0x93, .hdr 0x91, .hdr 0x38, .snuff, .hdr 0x61, .sinter,
        .regs 0x31, .word 0x40 0x54, .links, .bcasts]) ∧
    (∃ t, exec (.frameSelect port) s = .next t ∧ s.onlyChanges t [.out, .xfers, .lines, .inj, .chans, .ports, .regs 0x93, .regs 0x91, .regs 0x38, .hdr 0x93, .hdr 0x91, .hdr 0x38]) ∧
    (∃ t, exec (.frameEnqueue port) s = .next t ∧ s.onlyChanges t [.out, .xfers, .lines, .inj, .regs 0x93, .regs 0x91, .regs 0x38, .ports, .hdr 0x39, .word 0x39 0x68, .sinter, .mbox])) ∧
  (∀ (port : Nat) (bytes : List Byte) (s : State),
    ∃ t, exec (.ethernetFrame port bytes) s = .next t ∧ s.onlyChanges t [.out, .xfers, .lines, .inj, .staged, .recs, .hdr 0x58, .regs 0x93, .regs 0x91, .regs 0x38,
        .violations, .ports, .suspects, .hdr 0x28, .hdr 0x12, .gens, .spares, .probes, .regs 0x31,
        .chans]) ∧
  (∀ (port : Nat) (src tag : BitVec 16) (addr : BitVec 24) (wr : Bool) (data : Word) (priv : BitVec 2) (rid : Byte) (job : BitVec 16) (s : State),
    ∃ t, exec (.proxyReq port src tag addr wr data priv rid job) s = .next t ∧ s.onlyChanges t (([.out, .xfers, .lines, .inj, .allHdrs, .power, .bpwr, .cmds, .activity, .staged, .recs,
        .snap, .heldRecs, .host, .tap, .evts, .grid, .bcasts, .mbox, .probes, .pace, .clusters,
        .violations, .ports, .suspects, .gens, .spares, .regions, .geyser, .ringQ, .meas, .redNodes,
        .engines, .ftab, .kernels, .notices, .kats, .taint, .clock, .relock, .pps, .now, .tick,
        .tports, .svcNotices, .jobs, .waves, .snuff, .profiles,
        .watch] : List Part) ++ ([.redInputs, .cores, .rails, .snaps, .mirror, .replicas, .drift,
        .droops, .pkg, .rings, .sinter, .proxies, .chans, .links, .verify, .linkKeys, .peers,
        .plans, .forced, .change, .trace, .latches, .token, .log, .free, .rotState, .firmware,
        .allRegs, .tables, .rotOrders] : List Part))) ∧
  (∀ (port : Nat) (tag : BitVec 16) (rsp : BitVec 8) (data : Word) (s : State),
    ∃ t, exec (.proxyRsp port tag rsp data) s = .next t ∧ s.onlyChanges t [.out, .xfers, .lines, .inj, .staged, .recs, .hdr 0x58, .regs 0x93, .regs 0x91, .regs 0x38,
        .violations, .ports, .suspects, .hdr 0x28, .hdr 0x12, .gens, .spares, .probes, .mbox, .host,
        .tap, .proxies]) ∧
  (∀ (tag : Nat) (s : State),
    ∃ t, exec (.proxyTimeout tag) s = .next t ∧ s.onlyChanges t [.out, .xfers, .lines, .inj, .now, .proxies, .mbox, .host, .tap])


/-! ### Sinter, services and jobs (R298 to R350) -/

/-- R304, R305, R309, R311, R312, R315: the compressor completes one block of the message in front, and takes the message off with
its last; the decompressor takes off the fragment in front, and one that is C7 frees its units; a snuffed node starts no
block; a SINTER_PACK is checked for its sizes and its capacity and a SINTER_UNPACK for its header's room, and each then holds
its engine.
Completion, with nothing outside its frame changed: on every operand in every state sinterEncodeBlock, sinterDecodeBlock,
sinterPack, sinterUnpack each answer a next state. -/
def Obligations.SinterCompletesBlocksAndStreams : Prop :=
  (∀ (s : State), s.snuff.state = .cut →
    (∃ t, exec .sinterEncodeBlock s = .next t ∧ s.onlyChanges t [.lines, .xfers, .out, .inj]) ∧
    (∃ t, exec .sinterDecodeBlock s = .next t ∧ s.onlyChanges t [.lines, .xfers, .out, .inj])) ∧
  (∀ (w : EncWork) (rest : List EncWork) (s : State), s.snuff.state ≠ .cut → s.sinter.enc = w :: rest →
    ∃ t, exec .sinterEncodeBlock s = .next t ∧ s.onlyChanges t [.out, .xfers, .lines, .inj, .regs 0x39, .hdr 0x39, .regs 0x93, .regs 0x91, .regs 0x38, .ports, .sinter, .cmds] ∧
      if w.rest.drop (szFrameBlock w.rest).2.1 = [] then t.sinter.enc = rest
      else ∃ b, b.length = (szFrameBlock w.rest).1.length ∧
        t.sinter.enc = { w with rest := w.rest.drop (szFrameBlock w.rest).2.1, blocks := w.blocks ++ [b] } :: rest) ∧
  (∀ (w : DecWork) (rest : List DecWork) (s : State), s.snuff.state ≠ .cut → s.sinter.dec = w :: rest →
    ∃ t, exec .sinterDecodeBlock s = .next t ∧ s.onlyChanges t [.out, .xfers, .lines, .inj, .sinter, .chans, .staged, .recs, .hdr 0x58, .regs 0x93,
        .regs 0x91, .regs 0x38, .violations, .ports, .suspects, .hdr 0x28, .hdr 0x12, .gens,
        .spares, .probes, .word 0x39 0x70, .hdr 0x39, .word 0x39 0x6C, .cmds, .regs 0x08] ∧ t.sinter.dec = rest ∧
      (w.cls = 7 → Tab.read natZero (t.chan w.chan).freed 7 = Tab.read natZero (s.chan w.chan).freed 7 + w.units)) ∧
  (∀ (c : CmdIn) (s : State), s.takes c .operator = true →
    ∃ t, exec (.sinterPack c) s = .next t ∧ s.onlyChanges t [.out, .xfers, .lines, .inj, .cmds, .power, .bpwr, .word 0x50 0x54, .activity, .host, .tap, .regs 0x08, .hdr 0x08, .sinter] ∧
      (if (argW c s 2).toNat = 0 ∨ argFld c s 6 0 13 = 0 ∨ 4096 < argFld c s 6 0 13 then
        t.ended c stBadArg 0 ∧ t.sinter = s.sinter
       else if s.sinter.pack.isSome ∨ (s.waiters fun w => decide (w = .event 39 0)) ≠ [] then t.waits c (.event 39 0) ∧ t.sinter = s.sinter
       else if (argW c s 5).toNat < 32 + 4 * ceilDiv (argW c s 2).toNat (argFld c s 6 0 13) then
        t.ended c stError 0x10 ∧ t.sinter = s.sinter
       else ∃ j, t.sinter.pack = some j ∧ j.page = c.page.toNat ∧ j.inAt = arg64 c s 0 ∧ j.total = (argW c s 2).toNat ∧
        j.outAt = arg64 c s 3 ∧ j.blkIn = argFld c s 6 0 13 ∧ j.next = 0)) ∧
  (∀ (c : CmdIn) (s : State), s.takes c .operator = true →
    ∃ t, exec (.sinterUnpack c) s = .next t ∧ s.onlyChanges t [.out, .xfers, .lines, .inj, .cmds, .power, .bpwr, .word 0x50 0x54, .activity, .host, .tap, .regs 0x08, .hdr 0x08, .sinter] ∧
      (if s.sinter.unpack.isSome ∨ (s.waiters fun w => decide (w = .event 39 1)) ≠ [] then t.waits c (.event 39 1) ∧ t.sinter = s.sinter
       else if (argW c s 2).toNat < 32 then t.ended c stError szBadStream ∧ t.sinter = s.sinter
       else ∃ j, t.sinter.unpack = some j ∧ j.page = c.page.toNat ∧ j.inAt = arg64 c s 0 ∧ j.outAt = arg64 c s 3 ∧
        j.first = (argW c s 5).toNat ∧ j.count = (argW c s 6).toNat ∧ j.next = 0)) ∧
  (∀ (s : State),
    (∃ t, exec .sinterEncodeBlock s = .next t ∧ s.onlyChanges t [.out, .xfers, .lines, .inj, .regs 0x39, .hdr 0x39, .regs 0x93, .regs 0x91, .regs 0x38, .ports, .sinter, .cmds]) ∧
    (∃ t, exec .sinterDecodeBlock s = .next t ∧ s.onlyChanges t [.out, .xfers, .lines, .inj, .sinter, .chans, .staged, .recs, .hdr 0x58, .regs 0x93,
        .regs 0x91, .regs 0x38, .violations, .ports, .suspects, .hdr 0x28, .hdr 0x12, .gens,
        .spares, .probes, .word 0x39 0x70, .hdr 0x39, .word 0x39 0x6C, .cmds, .regs 0x08])) ∧
  (∀ (c : CmdIn) (s : State),
    (∃ t, exec (.sinterPack c) s = .next t ∧ s.onlyChanges t [.out, .xfers, .lines, .inj, .cmds, .power, .bpwr, .word 0x50 0x54, .activity, .host, .tap, .regs 0x08, .hdr 0x08, .sinter]) ∧
    (∃ t, exec (.sinterUnpack c) s = .next t ∧ s.onlyChanges t [.out, .xfers, .lines, .inj, .cmds, .power, .bpwr, .word 0x50 0x54, .activity, .host, .tap, .regs 0x08, .hdr 0x08, .sinter]))

/-- R322, R323, R325 to R327: a broadcast received is known from then on, and a duplicate is only counted; an acknowledgement
replaces its sender's earlier one and is sent on; an entry leaves 1 ms after T, but a RELOCK's stays while a timekeeper has still to step (entry 101); JOB_START, JOB_END and RUNTIME_SET are refused
by name or wait for their broadcast; and an armed job runs at T.
Completion, with nothing outside its frame changed: on every operand in every state bcast, bcastAck, bcastAckSend,
pendingExpire, jobStart, jobEnd, runtimeSet, jobRelease each answer a next state. -/
def Obligations.BroadcastsAreKnownAckedAndReleased : Prop :=
  (∀ (p : Nat) (b : Bcast) (s : State), s.dark = false → s.awake = true → b.kind ≠ 8 →
    ∃ t, exec (.bcast p b) s = .next t ∧ s.onlyChanges t [.out, .xfers, .lines, .inj, .snuff, .hdr 0x61, .word 0x40 0x50, .hdr 0x40, .bcasts, .mbox,
        .evts, .grid, .clock, .relock, .hdr 0x48, .waves, .staged, .recs, .hdr 0x58, .jobs, .gens,
        .verify, .ringQ, .word 0x40 0x6C, .svcNotices, .cmds, .word 0x08 0x110, .word 0x08 0x10C,
        .word 0x08 0x108, .word 0x08 0x104, .word 0x08 0x100, .hdr 0x12, .spares] ∧ t.bcastKnown (bcastKey b) = true ∧
      (s.bcastKnown (bcastKey b) = true → t.svc = s.svc ∧ t.jobs = s.jobs ∧ t.mbox = s.mbox)) ∧
  (∀ (a : BcastAck) (s : State), s.pendOf (a.origin, a.seq) = none →
    ∃ t, exec (.bcastAck a) s = .next t ∧ s.onlyChanges t [.lines, .xfers, .out, .inj]) ∧
  (∀ (a : BcastAck) (e : PendBcast) (s : State), s.pendOf (a.origin, a.seq) = some e →
    ∃ t, exec (.bcastAck a) s = .next t ∧ s.onlyChanges t [.out, .xfers, .lines, .inj, .bcasts, .hdr 0x40, .gens, .jobs, .cmds, .word 0x08 0x100] ∧
      ∃ e', t.pendOf (a.origin, a.seq) = some e' ∧ Tab.read noAck e'.acks (s.ackKey a.sender) =
        some { armed := a.armed.toNat, notArmed := a.notArmed.toNat, notMember := a.notMember.toNat, missing := a.missing.toNat }) ∧
  (∀ (e : PendBcast) (s : State), s.pendOf (bcastKey e.b) = some e → e.b.origin ≠ s.node → e.sent = none → e.b.immediate = true →
    ∃ t, exec (.bcastAckSend e.b.origin e.b.seq) s = .next t ∧ s.onlyChanges t [.out, .xfers, .lines, .inj, .mbox, .now, .bcasts] ∧ t.now = s.now ∧
      t.pendOf (bcastKey e.b) = some { e with sent := some (s.ackCounts e, s.now) }) ∧
  (∀ (e : PendBcast) (s : State), s.pendOf (bcastKey e.b) = some e →
    ∃ t, exec (.pendingExpire e.b.origin e.b.seq) s = .next t ∧ s.onlyChanges t [.out, .xfers, .lines, .inj, .now, .bcasts, .word 0x08 0x100, .cmds] ∧
      (if relockOpen e then t.now = s.now ∧ t.svc = s.svc
       else t.now = max s.now e.leaves ∧ t.pendOf (bcastKey e.b) = none ∧ bcastKey e.b ∈ t.svc.past)) ∧
  (∀ (c : CmdIn) (s : State), s.takes c .operator = true →
    (∃ t, exec (.jobStart c) s = .next t ∧ s.onlyChanges t [.out, .xfers, .lines, .inj, .cmds, .power, .bpwr, .word 0x50 0x54, .activity, .host, .tap,
        .regs 0x08, .hdr 0x08, .hdr 0x40, .bcasts, .word 0x40 0x50, .mbox, .jobs, .gens, .evts,
        .verify, .staged, .recs, .hdr 0x58, .ringQ, .word 0x40 0x6C, .svcNotices, .hdr 0x12,
        .spares] ∧
      (let guard := if argFld c s 5 0 16 = 0 then s.regFld svcPage 0x4C 16 16 else argFld c s 5 0 16
       let job : BitVec 16 := BitVec.ofNat 16 (argFld c s 0 0 16)
       if job = 0 ∨ argFld c s 1 14 2 ≠ 0 then t.ended c stBadArg 0 ∧ t.jobs = s.jobs
       else if argFT c s 2 < s.now + (guard + 10) * us then t.ended c stError svLate ∧ t.jobs = s.jobs
       else if s.jobBusy job then t.ended c stError svBusy ∧ t.jobs = s.jobs
       else if (s.jobOf job).isNone ∧ s.jobFree.isNone then t.ended c stError svTableFull ∧ t.jobs = s.jobs
       else if 32 ≤ s.time.evts.length then t.ended c stError svEvtFull ∧ t.jobs = s.jobs
       else t.waits c (.event 10 job.toNat) ∧ t.svc.count = s.svc.count + 1)) ∧
    (∃ t, exec (.jobEnd c) s = .next t ∧ s.onlyChanges t [.out, .xfers, .lines, .inj, .cmds, .power, .bpwr, .word 0x50 0x54, .activity, .host, .tap,
        .regs 0x08, .hdr 0x08, .bcasts, .word 0x40 0x50, .hdr 0x40, .mbox, .jobs, .gens, .evts,
        .verify, .staged, .recs, .hdr 0x58, .ringQ, .word 0x40 0x6C, .svcNotices, .hdr 0x12,
        .spares] ∧
      (if (s.jobOf (BitVec.ofNat 16 (argFld c s 0 0 16))).isNone then t.ended c stError svNoJob ∧ t.svc = s.svc
       else t.svc.count = s.svc.count + 1 ∧
        (t.waits c (.event 11 ((s.hdr svcPage).incarn ++ s.svc.count).toNat) ∨ t.ended c stOk 0))) ∧
    (∃ t, exec (.runtimeSet c) s = .next t ∧ s.onlyChanges t [.out, .xfers, .lines, .inj, .cmds, .power, .bpwr, .word 0x50 0x54, .activity, .host, .tap,
        .regs 0x08, .hdr 0x08, .bcasts, .word 0x40 0x50, .hdr 0x40, .mbox, .jobs, .gens, .evts,
        .verify, .staged, .recs, .hdr 0x58, .ringQ, .word 0x40 0x6C, .svcNotices, .hdr 0x12,
        .spares] ∧
      (if ((s.jobOf (BitVec.ofNat 16 (argFld c s 0 0 16))).any fun e => e.2.root) = false then t.ended c stError svNoJob ∧ t.svc = s.svc
       else if argFld c s 1 14 2 ≠ 0 then t.ended c stBadArg 0 ∧ t.svc = s.svc
       else t.svc.count = s.svc.count + 1 ∧
        (t.waits c (.event 11 ((s.hdr svcPage).incarn ++ s.svc.count).toNat) ∨ t.ended c stOk 0)))) ∧
  (∀ (job : BitVec 16) (i : Nat) (j : JobEntry) (s : State), s.jobOf job = some (i, j) →
    (j.state ≠ .armed → ∃ t, exec (.jobRelease job) s = .next t ∧ s.onlyChanges t [.lines, .xfers, .out, .inj]) ∧
    (j.state = .armed → s.earlierDue j.t 2 = false → ∃ t, exec (.jobRelease job) s = .next t ∧ s.onlyChanges t [.out, .xfers, .lines, .inj, .now, .cmds, .word 0x08 0x110, .word 0x08 0x10C,
        .word 0x08 0x108, .word 0x08 0x104, .word 0x08 0x100, .evts, .ringQ, .word 0x40 0x6C, .mbox,
        .svcNotices, .hdr 0x40, .gens, .jobs, .hdr 0x48, .waves] ∧ t.now = max s.now j.t ∧
      (s.snuffedBy j.t = false → (t.jobOf job).map (·.2.state) = some .running))) ∧
  (∀ (port : Nat) (b : Bcast) (s : State),
    ∃ t, exec (.bcast port b) s = .next t ∧ s.onlyChanges t [.out, .xfers, .lines, .inj, .snuff, .hdr 0x61, .word 0x40 0x50, .hdr 0x40, .bcasts, .mbox,
        .evts, .grid, .clock, .relock, .hdr 0x48, .waves, .staged, .recs, .hdr 0x58, .jobs, .gens,
        .verify, .ringQ, .word 0x40 0x6C, .svcNotices, .cmds, .word 0x08 0x110, .word 0x08 0x10C,
        .word 0x08 0x108, .word 0x08 0x104, .word 0x08 0x100, .hdr 0x12, .spares]) ∧
  (∀ (a : BcastAck) (s : State),
    ∃ t, exec (.bcastAck a) s = .next t ∧ s.onlyChanges t [.out, .xfers, .lines, .inj, .bcasts, .hdr 0x40, .gens, .jobs, .cmds, .word 0x08 0x100]) ∧
  (∀ (origin : BitVec 16) (seq : BitVec 32) (s : State),
    (∃ t, exec (.bcastAckSend origin seq) s = .next t ∧ s.onlyChanges t [.out, .xfers, .lines, .inj, .mbox, .now, .bcasts]) ∧
    (∃ t, exec (.pendingExpire origin seq) s = .next t ∧ s.onlyChanges t [.out, .xfers, .lines, .inj, .now, .bcasts, .word 0x08 0x100, .cmds])) ∧
  (∀ (c : CmdIn) (s : State),
    (∃ t, exec (.jobStart c) s = .next t ∧ s.onlyChanges t [.out, .xfers, .lines, .inj, .cmds, .power, .bpwr, .word 0x50 0x54, .activity, .host, .tap,
        .regs 0x08, .hdr 0x08, .hdr 0x40, .bcasts, .word 0x40 0x50, .mbox, .jobs, .gens, .evts,
        .verify, .staged, .recs, .hdr 0x58, .ringQ, .word 0x40 0x6C, .svcNotices, .hdr 0x12,
        .spares]) ∧
    (∃ t, exec (.jobEnd c) s = .next t ∧ s.onlyChanges t [.out, .xfers, .lines, .inj, .cmds, .power, .bpwr, .word 0x50 0x54, .activity, .host, .tap,
        .regs 0x08, .hdr 0x08, .bcasts, .word 0x40 0x50, .hdr 0x40, .mbox, .jobs, .gens, .evts,
        .verify, .staged, .recs, .hdr 0x58, .ringQ, .word 0x40 0x6C, .svcNotices, .hdr 0x12,
        .spares]) ∧
    (∃ t, exec (.runtimeSet c) s = .next t ∧ s.onlyChanges t [.out, .xfers, .lines, .inj, .cmds, .power, .bpwr, .word 0x50 0x54, .activity, .host, .tap,
        .regs 0x08, .hdr 0x08, .bcasts, .word 0x40 0x50, .hdr 0x40, .mbox, .jobs, .gens, .evts,
        .verify, .staged, .recs, .hdr 0x58, .ringQ, .word 0x40 0x6C, .svcNotices, .hdr 0x12,
        .spares])) ∧
  (∀ (job : BitVec 16) (s : State),
    ∃ t, exec (.jobRelease job) s = .next t ∧ s.onlyChanges t [.out, .xfers, .lines, .inj, .now, .cmds, .word 0x08 0x110, .word 0x08 0x10C,
        .word 0x08 0x108, .word 0x08 0x104, .word 0x08 0x100, .evts, .ringQ, .word 0x40 0x6C, .mbox,
        .svcNotices, .hdr 0x40, .gens, .jobs, .hdr 0x48, .waves])

/-- R329 to R349: STEP_MARK needs a running member job and ends OK; a partial of no job changes nothing, and a window
leaves when STEP_WAIT has passed; a heartbeat of a watched node marks it heard; the check runs once for its close, and
checks nobody while a parent is lost; JOB_LIVENESS is the runtime's alone; a notice in order is written once; and a decision
that verifies leaves the verification log.
Completion, with nothing outside its frame changed: on every operand in every state stepMark, stepPartial, stepWaitExpire,
heartbeat, livenessCheck, jobLiveness, notice, verifyDecision each answer a next state. -/
def Obligations.StepsLivenessAndNotices : Prop :=
  (∀ (c : CmdIn) (s : State), s.takes c .tenant = true →
    ∃ t, exec (.stepMark c) s = .next t ∧ s.onlyChanges t [.out, .xfers, .lines, .inj, .cmds, .power, .bpwr, .word 0x50 0x54, .activity, .host, .tap,
        .regs 0x08, .hdr 0x08, .gens, .jobs, .ringQ, .word 0x40 0x6C, .mbox, .svcNotices,
        .redInputs, .verify, .hdr 0x40] ∧
      (match s.jobOf c.req.job with
       | none => t.ended c stError svNoJob ∧ t.jobs = s.jobs
       | some (_, j) => if j.state ≠ .running ∨ j.member = false then t.ended c stError svNoJob ∧ t.jobs = s.jobs
         else t.ended c stOk 0)) ∧
  (∀ (src : BitVec 16) (p : StepPart) (s : State), s.jobOf p.job = none →
    ∃ t, exec (.stepPartial src p) s = .next t ∧ s.onlyChanges t [.lines, .xfers, .out, .inj]) ∧
  (∀ (src : BitVec 16) (p : StepPart) (i : Nat) (j : JobEntry) (s : State), s.jobOf p.job = some (i, j) → s.isSystem = true →
    p.late = true → j.root = false →
    ∃ t, exec (.stepPartial src p) s = .next t ∧ s.onlyChanges t [.out, .xfers, .lines, .inj, .word 0x40 0x50, .verify, .ringQ, .word 0x40 0x6C, .mbox, .svcNotices, .hdr 0x40, .gens, .jobs] ∧ t.svc.wins = s.svc.wins ∧ t.jobs = s.jobs) ∧
  (∀ (job : BitVec 16) (step : BitVec 32) (i : Nat) (j : JobEntry) (w : StepWin) (s : State), s.jobOf job = some (i, j) →
    (s.svc.wins.find? fun w => decide (w.job = job) && decide (w.step = step)) = some w →
    ∃ t, exec (.stepWaitExpire job step) s = .next t ∧ s.onlyChanges t [.out, .xfers, .lines, .inj, .gens, .jobs, .verify, .ringQ, .word 0x40 0x6C, .mbox, .svcNotices, .hdr 0x40, .now] ∧ t.now = max s.now (w.since + j.stepWait.toNat * us) ∧
      (t.svc.wins.find? fun w => decide (w.job = job) && decide (w.step = step)) = none) ∧
  (∀ (src : BitVec 16) (b : Beat) (s : State),
    (s.watchOf src ∉ s.watchList → ∃ t, exec (.heartbeat src b) s = .next t ∧ s.onlyChanges t [.lines, .xfers, .out, .inj]) ∧
    (s.watchOf src ∈ s.watchList → s.isSystem = false → ∃ t, exec (.heartbeat src b) s = .next t ∧ s.onlyChanges t [.out, .xfers, .lines, .inj, .watch, .gens, .jobs, .verify, .ringQ, .word 0x40 0x6C, .mbox,
        .svcNotices, .hdr 0x40, .staged, .recs, .hdr 0x58, .hdr 0x12, .spares] ∧
      t.watch (s.watchOf src) = { s.watch (s.watchOf src) with heard := true, ever := true, parked := b.parked, downs := 0 } ∧
      ∀ w, w ≠ s.watchOf src → t.watch w = s.watch w)) ∧
  (∀ (t0 : FT) (rest : List FT) (s : State), s.svc.checkAt = t0 :: rest →
    ∃ t, exec .livenessCheck s = .next t ∧ s.onlyChanges t [.out, .xfers, .lines, .inj, .now, .watch, .gens, .jobs, .verify, .ringQ, .word 0x40 0x6C,
        .mbox, .svcNotices, .hdr 0x40, .staged, .recs, .hdr 0x58, .hdr 0x12, .spares] ∧ t.now = max s.now t0 ∧ t.svc.checkAt = rest ∧
      (s.links.holding = true → t.svc.watch = s.svc.watch)) ∧
  (∀ (c : CmdIn) (s : State), s.takes c .tenant = true → s.isDie = true →
    ∃ t, exec (.jobLiveness c) s = .next t ∧ s.onlyChanges t [.out, .xfers, .lines, .inj, .cmds, .power, .bpwr, .word 0x50 0x54, .activity, .host, .tap,
        .regs 0x08, .hdr 0x08, .hdr 0x40, .bcasts, .word 0x40 0x50, .mbox, .jobs, .gens, .evts,
        .verify, .staged, .recs, .hdr 0x58, .ringQ, .word 0x40 0x6C, .svcNotices, .hdr 0x12,
        .spares] ∧
      (match Tab.read (fun _ => none) s.svc.runtimes c.req.job.toNat with
       | none => t.ended c stDenied svNotRuntime ∧ t.svc = s.svc
       | some root => if argFld c s 1 0 2 = 3 then t.ended c stBadArg 0 ∧ t.svc = s.svc
         else if root ≠ s.node then t.waits c (.event 12 (c.req.job.toNat * 2 ^ 16 + argFld c s 0 0 16)) ∧ t.svc.claims = s.svc.claims
         else if ((s.jobOf c.req.job).any fun e => e.2.root) = false then t.ended c stError svNoJob ∧ t.svc.claims = s.svc.claims
         else t.ended c stError svTableFull ∨ t.ended c stOk 0 ∨ ∃ n, t.waits c (.event 11 n))) ∧
  (∀ (bytes : List Byte) (s : State),
    (let key := (BitVec.ofNat 16 (leAt bytes 4 2), BitVec.ofNat 32 (leAt bytes 8 4))
     if bytes.length ≠ 64 ∨ leAt bytes 0 1 ≠ 1 ∨ leAt bytes 60 4 ≠ (crc32c (bytes.take 60)).toNat ∨ key ∈ s.svc.written then
       ∃ t, exec (.notice bytes) s = .next t ∧ s.onlyChanges t [.lines, .xfers, .out, .inj]
     else ∃ t, exec (.notice bytes) s = .next t ∧ s.onlyChanges t [.out, .xfers, .lines, .inj, .ringQ, .word 0x40 0x6C, .svcNotices, .bcasts, .word 0x40 0x50,
        .hdr 0x40, .mbox, .jobs, .gens, .evts, .verify, .staged, .recs, .hdr 0x58, .cmds,
        .word 0x08 0x110, .word 0x08 0x10C, .word 0x08 0x108, .word 0x08 0x104, .word 0x08 0x100,
        .hdr 0x12, .spares] ∧ key ∈ t.svc.written)) ∧
  (∀ (d : Decision) (rest : List Decision) (result : Word) (s : State), s.rot.verify = d :: rest → d.at' + us ≤ s.now →
    ∃ t, exec (.verifyDecision result) s = .next t ∧ s.onlyChanges t [.out, .xfers, .lines, .inj, .verify, .staged, .recs, .hdr 0x58, .hdr 0x68, .word 0x68 0x54, .mbox, .rotOrders] ∧ t.rot.verify = rest ∧
      t.rot.mismatchAt = if result = d.result then s.rot.mismatchAt else some s.now) ∧
  (∀ (c : CmdIn) (s : State),
    (∃ t, exec (.stepMark c) s = .next t ∧ s.onlyChanges t [.out, .xfers, .lines, .inj, .cmds, .power, .bpwr, .word 0x50 0x54, .activity, .host, .tap,
        .regs 0x08, .hdr 0x08, .gens, .jobs, .ringQ, .word 0x40 0x6C, .mbox, .svcNotices,
        .redInputs, .verify, .hdr 0x40]) ∧
    (∃ t, exec (.jobLiveness c) s = .next t ∧ s.onlyChanges t [.out, .xfers, .lines, .inj, .cmds, .power, .bpwr, .word 0x50 0x54, .activity, .host, .tap,
        .regs 0x08, .hdr 0x08, .hdr 0x40, .bcasts, .word 0x40 0x50, .mbox, .jobs, .gens, .evts,
        .verify, .staged, .recs, .hdr 0x58, .ringQ, .word 0x40 0x6C, .svcNotices, .hdr 0x12,
        .spares])) ∧
  (∀ (src : BitVec 16) (p : StepPart) (s : State),
    ∃ t, exec (.stepPartial src p) s = .next t ∧ s.onlyChanges t [.out, .xfers, .lines, .inj, .word 0x40 0x50, .verify, .ringQ, .word 0x40 0x6C, .mbox, .svcNotices, .hdr 0x40, .gens, .jobs]) ∧
  (∀ (job : BitVec 16) (step : BitVec 32) (s : State),
    ∃ t, exec (.stepWaitExpire job step) s = .next t ∧ s.onlyChanges t [.out, .xfers, .lines, .inj, .gens, .jobs, .verify, .ringQ, .word 0x40 0x6C, .mbox, .svcNotices, .hdr 0x40, .now]) ∧
  (∀ (src : BitVec 16) (b : Beat) (s : State),
    ∃ t, exec (.heartbeat src b) s = .next t ∧ s.onlyChanges t [.out, .xfers, .lines, .inj, .watch, .gens, .jobs, .verify, .ringQ, .word 0x40 0x6C, .mbox,
        .svcNotices, .hdr 0x40, .staged, .recs, .hdr 0x58, .hdr 0x12, .spares]) ∧
  (∀ (s : State),
    ∃ t, exec .livenessCheck s = .next t ∧ s.onlyChanges t [.out, .xfers, .lines, .inj, .now, .watch, .gens, .jobs, .verify, .ringQ, .word 0x40 0x6C,
        .mbox, .svcNotices, .hdr 0x40, .staged, .recs, .hdr 0x58, .hdr 0x12, .spares]) ∧
  (∀ (result : Word) (s : State),
    ∃ t, exec (.verifyDecision result) s = .next t ∧ s.onlyChanges t [.out, .xfers, .lines, .inj, .verify, .staged, .recs, .hdr 0x58, .hdr 0x68, .word 0x68 0x54, .mbox, .rotOrders])


/-! ### Host power (R351 to R385) -/

/-- R356 to R364: the control loop decides at its epoch close; FC_ACK commits a code and FC_GO_ACK runs the committed
frequencies; an acknowledged rail stands at its point, and a missed deadline is a VFAULT; the correction starts its sums
afresh every 1 ms.
Completion, with nothing outside its frame changed: on every operand in every state powerDecision, fcAck, fcGoAck, vidAck,
pmbusVoutPoll, vfault, kCorrection each answer a next state. -/
def Obligations.PowerChangesCommitByHandshake : Prop :=
  (∀ (s : State), s.isDie = true → bit (s.reg hpPage 0x44) 0 = true → s.hpwr.forced = false → s.snuff.state ≠ .cut →
    s.hpwr.decidedAt + max 1 (s.regFld hpPage 0x54 16 16) * us ≤ s.samp.grid.lastClose →
    ∃ t, exec .powerDecision s = .next t ∧ s.onlyChanges t [.out, .xfers, .lines, .inj, .tables, .staged, .recs, .hdr 0x58, .regs 0x48, .hdr 0x48,
        .cores, .droops, .forced, .budgets, .change, .rails] ∧ t.hpwr.decidedAt = s.samp.grid.lastClose) ∧
  (∀ (r : Running) (c f : Nat) (s : State), s.chanOpen (.converter .pwr 0) = true → s.hpwr.running = some r → r.doing = .fc c f →
    ∃ t, exec .fcAck s = .next t ∧ s.onlyChanges t [.out, .xfers, .lines, .inj, .change, .hdr 0x48, .staged, .recs, .hdr 0x58, .rails, .cores] ∧ t.core c = { s.core c with loaded := some f } ∧ ∀ d, d ≠ c → t.core d = s.core d) ∧
  (∀ (r : Running) (s : State), s.hpwr.running = some r → r.doing = .go →
    ∃ t, exec .fcGoAck s = .next t ∧ s.onlyChanges t [.out, .xfers, .lines, .inj, .change, .hdr 0x48, .staged, .recs, .hdr 0x58, .rails, .cores] ∧
      ∀ c, t.core c = { s.core c with now := (s.core c).loaded.getD (s.core c).now, loaded := none }) ∧
  (∀ (u : Running) (r p : Nat) (s : State), s.hpwr.running = some u → u.doing = .rail r p →
    (bit (s.rail r).cfg 31 = true → ∃ t, exec .vidAck s = .next t ∧ s.onlyChanges t [.lines, .xfers, .out, .inj]) ∧
    (s.chanOpen (.converter .pwr 0) = true → bit (s.rail r).cfg 31 = false → u.abort = true → s.hpwr.held = none → (s.injTake hpPage 0x10).1 = false →
      ∃ t, exec .vidAck s = .next t ∧ s.onlyChanges t [.out, .xfers, .lines, .inj, .hdr 0x48, .change, .staged, .recs, .hdr 0x58, .rails] ∧ t.hpwr.running = none ∧ t.rail r = { s.rail r with now := p, ack := p } ∧
        ∀ q, q ≠ r → t.rail q = s.rail q) ∧
    (bit (s.rail r).cfg 31 = false → ∃ t, exec (.pmbusVoutPoll none) s = .next t ∧ s.onlyChanges t [.lines, .xfers, .out, .inj]) ∧
    (bit (s.rail r).cfg 31 = true → u.abort = true → s.hpwr.held = none →
      ∃ t, exec (.pmbusVoutPoll none) s = .next t ∧ s.onlyChanges t [.out, .xfers, .lines, .inj, .change, .hdr 0x48, .staged, .recs, .hdr 0x58, .rails] ∧ t.hpwr.running = none ∧
        t.rail r = { s.rail r with vfault := true, ack := min (s.rail r).now p }) ∧
    (u.abort = true → s.hpwr.held = none →
      ∃ t, exec .vfault s = .next t ∧ s.onlyChanges t [.out, .xfers, .lines, .inj, .change, .hdr 0x48, .staged, .recs, .hdr 0x58, .rails] ∧ t.hpwr.running = none ∧
        t.rail r = { s.rail r with vfault := true, ack := min (s.rail r).now p } ∧ ∀ q, q ≠ r → t.rail q = s.rail q)) ∧
  (∀ (s : State), s.isSystem = false →
    ∃ t, exec (.kCorrection []) s = .next t ∧ s.onlyChanges t [.out, .xfers, .lines, .inj, .now, .budgets, .rails] ∧ t.now = max s.now (s.hpwr.corrAt + ms) ∧
      t.hpwr.corrAt = t.now ∧ ∀ r < s.nRails, (t.rail r).sumMeas = 0 ∧ (t.rail r).sumModel = 0 ∧ (t.rail r).now = (s.rail r).now) ∧
  (∀ (s : State),
    (∃ t, exec .powerDecision s = .next t ∧ s.onlyChanges t [.out, .xfers, .lines, .inj, .tables, .staged, .recs, .hdr 0x58, .regs 0x48, .hdr 0x48,
        .cores, .droops, .forced, .budgets, .change, .rails]) ∧
    (∃ t, exec .fcAck s = .next t ∧ s.onlyChanges t [.out, .xfers, .lines, .inj, .change, .hdr 0x48, .staged, .recs, .hdr 0x58, .rails, .cores]) ∧
    (∃ t, exec .fcGoAck s = .next t ∧ s.onlyChanges t [.out, .xfers, .lines, .inj, .change, .hdr 0x48, .staged, .recs, .hdr 0x58, .rails, .cores]) ∧
    (∃ t, exec .vidAck s = .next t ∧ s.onlyChanges t [.out, .xfers, .lines, .inj, .hdr 0x48, .change, .staged, .recs, .hdr 0x58, .rails]) ∧
    (∃ t, exec .vfault s = .next t ∧ s.onlyChanges t [.out, .xfers, .lines, .inj, .change, .hdr 0x48, .staged, .recs, .hdr 0x58, .rails])) ∧
  (∀ (mv : Option Nat) (s : State),
    ∃ t, exec (.pmbusVoutPoll mv) s = .next t ∧ s.onlyChanges t [.out, .xfers, .lines, .inj, .change, .hdr 0x48, .staged, .recs, .hdr 0x58, .rails]) ∧
  (∀ (iout : List (Nat × Nat)) (s : State),
    ∃ t, exec (.kCorrection iout) s = .next t ∧ s.onlyChanges t [.out, .xfers, .lines, .inj, .now, .budgets, .rails])

/-- R364, R366 to R380: a droop stretches its region and is counted, clears after CLEAR_N short half-periods and holds its region; an
alert and a reading are kept; HPWR_SET_CAP checks its sums and its order, the other commands clear their causes, and a
BARRIER that is too late or finds no event ends so; a wave comes at its instant.
Completion, with nothing outside its frame changed: on every operand in every state droopDetect, droopClear, droopHoldEnd,
sustainedDroop, alertN, sensorReading, sensorQuiet, waveRelease, hpwrSetCap, hpwrResume, hpwrTripClear, hpwrRailClear,
barrier each answer a next state. -/
def Obligations.DroopsSensorsAndWaves : Prop :=
  (∀ (r : BitVec 4) (half : Nat) (s : State), s.isDie = true → (s.droop r.toNat).on = false → (s.droop r.toNat).halves ≠ [] →
    nominal (s.droop r.toNat) * s.regFld hpPage 0x68 20 12 * 1000 < half * 65536 * 256 →
    ∃ t, exec (.droopDetect r half) s = .next t ∧ s.onlyChanges t [.out, .xfers, .lines, .inj, .word 0x02 0x58, .staged, .recs, .hdr 0x58, .word 0x48 0x70, .hdr 0x48, .droops, .forced] ∧ (t.droop r.toNat).on = true ∧ (t.droop r.toNat).since = s.now ∧
      (t.droop r.toNat).events = (s.droop r.toNat).events + 1 ∧ (t.droop r.toNat).hold = none ∧ bit t.hpwr.stretch r.toNat = true) ∧
  (∀ (r : BitVec 4) (halves : List Nat) (s : State),
    (∃ t, exec (.droopClear r halves) s = .next t ∧ s.onlyChanges t [.out, .xfers, .lines, .inj, .droops, .forced] ∧
      (let n := max 1 (s.regFld hpPage 0x68 0 8)
       if (s.droop r.toNat).on = true ∧ n ≤ halves.length ∧ (halves.drop (halves.length - n)).all (fun h =>
          decide (h * 65536 * 256 < nominal (s.droop r.toNat) * s.regFld hpPage 0x68 8 12 * 1000)) = true then
        (t.droop r.toNat).on = false ∧ (t.droop r.toNat).hold = some (s.now + s.regFld hpPage 0x6C 16 16 * ns) ∧
          bit t.hpwr.stretch r.toNat = false
       else t.hpwr = s.hpwr)) ∧
    (∀ h, (s.droop r.toNat).hold = some h → ∃ t, exec (.droopHoldEnd r) s = .next t ∧ s.onlyChanges t [.out, .xfers, .lines, .inj, .hdr 0x48, .change, .staged, .recs, .hdr 0x58, .rails, .now, .droops] ∧ t.now = max s.now h ∧
      t.droop r.toNat = { s.droop r.toNat with hold := none }) ∧
    ((s.droop r.toNat).on = true → ∃ t, exec (.sustainedDroop r) s = .next t ∧ s.onlyChanges t [.out, .xfers, .lines, .inj, .now, .droops] ∧
      t.now = max s.now ((s.droop r.toNat).since + s.regFld hpPage 0x6C 8 8 * us) ∧
      t.droop r.toNat = { s.droop r.toNat with long := true })) ∧
  (∀ (status : List Nat) (s : State),
    (∃ t, exec (.alertN true status) s = .next t ∧ s.onlyChanges t [.out, .xfers, .lines, .inj, .forced, .staged, .recs, .hdr 0x58, .power, .bpwr, .cmds,
        .word 0x08 0x104, .word 0x08 0x100, .word 0x50 0x54, .activity, .change, .hdr 0x48, .rails] ∧ t.hpwr.alertLow = true) ∧
    (∃ t, exec (.alertN false status) s = .next t ∧ s.onlyChanges t [.out, .xfers, .lines, .inj, .forced, .staged, .recs, .hdr 0x58, .power, .bpwr, .cmds,
        .word 0x08 0x104, .word 0x08 0x100, .word 0x50 0x54, .activity, .change, .hdr 0x48, .rails] ∧ t.hpwr.alertLow = false ∧
      t.hpwr.alertHigh = if s.hpwr.alertLow then s.now else s.hpwr.alertHigh)) ∧
  (∀ (ch : BitVec 6) (v : BitVec 16) (s : State), s.isSystem = false →
    (ch.toNat < s.nChannels → ∃ t, exec (.sensorReading ch v) s = .next t ∧ s.onlyChanges t [.out, .xfers, .lines, .inj, .staged, .recs, .hdr 0x58, .regs 0x93, .regs 0x91, .regs 0x38,
        .violations, .ports, .suspects, .hdr 0x28, .hdr 0x12, .gens, .spares, .probes, .sensors] ∧
      t.sensor ch.toNat = { raw := some v, ticks := 0, quiet := false } ∧ ∀ k, k ≠ ch.toNat → t.sensor k = s.sensor k) ∧
    ((s.sensor ch.toNat).raw.isSome → 16 ≤ (s.sensor ch.toNat).ticks → ∃ t, exec (.sensorQuiet ch) s = .next t ∧ s.onlyChanges t [.out, .xfers, .lines, .inj, .staged, .recs, .hdr 0x58, .sensors] ∧
      t.sensor ch.toNat = { s.sensor ch.toNat with quiet := true })) ∧
  (∀ (s : State), ∃ t, exec .waveRelease s = .next t ∧ s.onlyChanges t [.out, .xfers, .lines, .inj, .now, .staged, .recs, .hdr 0x58, .evts, .waves, .regs 0x08, .cmds] ∧
    (match firstDue s.hpwr.waves with
     | none => t.hpwr = s.hpwr ∧ t.now = s.now
     | some w => s.snuffedBy (waveDue w) = true ∨ s.earlierDue (waveDue w) 4 = false → t.now = max s.now (waveDue w))) ∧
  (∀ (c : CmdIn) (s : State), s.takes c .firmware = true → s.isDie = true →
    (∃ t, exec (.hpwrSetCap c) s = .next t ∧ s.onlyChanges t [.out, .xfers, .lines, .inj, .cmds, .power, .bpwr, .word 0x50 0x54, .activity, .host, .tap,
        .regs 0x08, .hdr 0x08, .word 0x48 0x50, .word 0x48 0x4C, .word 0x48 0x48] ∧
      (if (argW c s 0).toNat < 1000 * (argFld c s 1 0 16 + argFld c s 1 16 16 + argFld c s 2 0 16) then t.ended c stError 1 ∧ t.hpwr = s.hpwr
       else if ([0, 1, 2].all fun g => decide (g ∈ [argFld c s 2 20 2, argFld c s 2 18 2, argFld c s 2 16 2])) = false then t.ended c stError 2 ∧ t.hpwr = s.hpwr
       else t.ended c stOk 0 ∧ t.reg hpPage 0x48 = argW c s 0 ∧ t.reg hpPage 0x4C = argW c s 1 ∧
        t.reg hpPage 0x50 = word (argFld c s 2 0 22))) ∧
    (∃ t, exec (.hpwrResume c) s = .next t ∧ s.onlyChanges t [.out, .xfers, .lines, .inj, .cmds, .power, .bpwr, .word 0x50 0x54, .activity, .host, .tap,
        .regs 0x08, .hdr 0x08, .hdr 0x48, .forced] ∧
      (if s.hpwr.alertLow = true ∨ (bit s.hpwr.cause 0 = true ∧ s.now < s.hpwr.alertHigh + ms) then t.ended c stError 3 ∧ t.hpwr = s.hpwr
       else t.ended c stOk 0 ∧ t.hpwr.cause = s.hpwr.cause &&& ~~~ 1 ∧ t.hpwr.forced = decide (s.hpwr.cause &&& ~~~ 1 ≠ 0))) ∧
    (∃ t, exec (.hpwrTripClear c) s = .next t ∧ s.onlyChanges t [.out, .xfers, .lines, .inj, .cmds, .power, .bpwr, .word 0x50 0x54, .activity, .host, .tap,
        .regs 0x08, .hdr 0x08, .forced, .hdr 0x48] ∧
      (if s.hottest < ((s.regFld hpPage 0x74 0 8 : Int) - 10) * 16 then t.ended c stOk 0 ∧ t.hpwr.cause = s.hpwr.cause &&& ~~~ 2 ∧
        t.hpwr.tripLow = false
       else t.ended c stError 4 ∧ t.hpwr = s.hpwr)) ∧
    (∃ t, exec (.hpwrRailClear c) s = .next t ∧ s.onlyChanges t [.out, .xfers, .lines, .inj, .cmds, .power, .bpwr, .word 0x50 0x54, .activity, .host, .tap,
        .regs 0x08, .hdr 0x08, .rails, .change, .hdr 0x48, .staged, .recs, .hdr 0x58] ∧
      (if s.nRails ≤ argFld c s 0 0 3 then t.ended c stError 5 ∧ t.hpwr = s.hpwr else t.ended c stOk 0))) ∧
  (∀ (c : CmdIn) (s : State), s.takes c .operator = true →
    ∃ t, exec (.barrier c) s = .next t ∧ s.onlyChanges t [.out, .xfers, .lines, .inj, .cmds, .power, .bpwr, .word 0x50 0x54, .activity, .host, .tap,
        .regs 0x08, .hdr 0x08, .bcasts, .word 0x40 0x50, .hdr 0x40, .mbox, .evts, .hdr 0x48, .waves,
        .staged, .recs, .hdr 0x58, .jobs, .gens, .verify, .ringQ, .word 0x40 0x6C, .svcNotices,
        .hdr 0x12, .spares] ∧
      (let guard := if argFld c s 5 0 16 = 0 then s.regFld svcPage 0x4C 16 16 else argFld c s 5 0 16
       if argFT c s 2 < s.now + (guard + 10) * us then t.ended c stError 0x11 ∧ t.svc = s.svc
       else if 32 ≤ s.time.evts.length then t.ended c stError 0x21 ∧ t.svc = s.svc
       else t.waits c (.event 13 ((s.hdr svcPage).incarn ++ s.svc.count).toNat) ∧ t.svc.count = s.svc.count + 1)) ∧
  (∀ (r : BitVec 4) (halfFs : Nat) (s : State),
    ∃ t, exec (.droopDetect r halfFs) s = .next t ∧ s.onlyChanges t [.out, .xfers, .lines, .inj, .word 0x02 0x58, .staged, .recs, .hdr 0x58, .word 0x48 0x70, .hdr 0x48, .droops, .forced]) ∧
  (∀ (r : BitVec 4) (s : State),
    (∃ t, exec (.droopHoldEnd r) s = .next t ∧ s.onlyChanges t [.out, .xfers, .lines, .inj, .hdr 0x48, .change, .staged, .recs, .hdr 0x58, .rails, .now, .droops]) ∧
    (∃ t, exec (.sustainedDroop r) s = .next t ∧ s.onlyChanges t [.out, .xfers, .lines, .inj, .now, .droops])) ∧
  (∀ (low : Bool) (status : List Nat) (s : State),
    ∃ t, exec (.alertN low status) s = .next t ∧ s.onlyChanges t [.out, .xfers, .lines, .inj, .forced, .staged, .recs, .hdr 0x58, .power, .bpwr, .cmds,
        .word 0x08 0x104, .word 0x08 0x100, .word 0x50 0x54, .activity, .change, .hdr 0x48, .rails]) ∧
  (∀ (ch : BitVec 6) (val : BitVec 16) (s : State),
    ∃ t, exec (.sensorReading ch val) s = .next t ∧ s.onlyChanges t [.out, .xfers, .lines, .inj, .staged, .recs, .hdr 0x58, .regs 0x93, .regs 0x91, .regs 0x38,
        .violations, .ports, .suspects, .hdr 0x28, .hdr 0x12, .gens, .spares, .probes, .sensors]) ∧
  (∀ (ch : BitVec 6) (s : State),
    ∃ t, exec (.sensorQuiet ch) s = .next t ∧ s.onlyChanges t [.out, .xfers, .lines, .inj, .staged, .recs, .hdr 0x58, .sensors]) ∧
  (∀ (c : CmdIn) (s : State),
    (∃ t, exec (.hpwrSetCap c) s = .next t ∧ s.onlyChanges t [.out, .xfers, .lines, .inj, .cmds, .power, .bpwr, .word 0x50 0x54, .activity, .host, .tap,
        .regs 0x08, .hdr 0x08, .word 0x48 0x50, .word 0x48 0x4C, .word 0x48 0x48]) ∧
    (∃ t, exec (.hpwrResume c) s = .next t ∧ s.onlyChanges t [.out, .xfers, .lines, .inj, .cmds, .power, .bpwr, .word 0x50 0x54, .activity, .host, .tap,
        .regs 0x08, .hdr 0x08, .hdr 0x48, .forced]) ∧
    (∃ t, exec (.hpwrTripClear c) s = .next t ∧ s.onlyChanges t [.out, .xfers, .lines, .inj, .cmds, .power, .bpwr, .word 0x50 0x54, .activity, .host, .tap,
        .regs 0x08, .hdr 0x08, .forced, .hdr 0x48]) ∧
    (∃ t, exec (.hpwrRailClear c) s = .next t ∧ s.onlyChanges t [.out, .xfers, .lines, .inj, .cmds, .power, .bpwr, .word 0x50 0x54, .activity, .host, .tap,
        .regs 0x08, .hdr 0x08, .rails, .change, .hdr 0x48, .staged, .recs, .hdr 0x58]) ∧
    (∃ t, exec (.barrier c) s = .next t ∧ s.onlyChanges t [.out, .xfers, .lines, .inj, .cmds, .power, .bpwr, .word 0x50 0x54, .activity, .host, .tap,
        .regs 0x08, .hdr 0x08, .bcasts, .word 0x40 0x50, .hdr 0x40, .mbox, .evts, .hdr 0x48, .waves,
        .staged, .recs, .hdr 0x58, .jobs, .gens, .verify, .ringQ, .word 0x40 0x6C, .svcNotices,
        .hdr 0x12, .spares]))


/-! ### Power states and resets (R386 to R413) -/

/-- R386 to R400: the idle timers enter DOZE and EMBER where their conditions hold; BPWR_ENTER is refused with its reason, or enters,
or waits for the answers of the subsystems that delay, whose refusal or whose time limit ends it; a wake source begins the
exit from the states it acts in, with its cause recorded, and WAKE ends an exit from DOZE; a WICK cycle is counted, or
skipped.
Completion, with nothing outside its frame changed: on every operand in every state idleTimerDoze, idleTimerEmber, bpwrEnter,
subsystemAnswer, entryTimeout, wake, wakeN, wakeLead, emberWakeTimer, wickCycle, bpwrWickTest each answer a next state. -/
def Obligations.IdleTimersEntriesAndWakes : Prop :=
  (∀ (s : State), ∃ t, exec .idleTimerDoze s = .next t ∧ s.onlyChanges t [.out, .xfers, .lines, .inj, .trace, .rings, .hdr 0x60, .regs 0x60, .ringQ, .mbox, .power,
        .bpwr, .staged, .latches, .token, .now] ∧
    (let due := s.bpwr.busyAt + s.regFld bpPage 0x48 16 16 * us
     if s.isDie = true ∧ bit (s.reg bpPage 0x44) 31 = true ∧ (s.bpwr.state = .run ∨ s.bpwr.state = .idle) ∧ s.bpwr.under = none ∧
        s.idleHolds = true ∧ s.noEventBy (max s.now due + s.wakeLead + dozeExitMax) = true then
      t.bpwr.state = .doze ∧ t.bpwr.mode = false ∧ t.now = max s.now due ∧ t.bpwr.dozeAt = t.now
     else t.bpwr = s.bpwr ∧ t.now = s.now)) ∧
  (∀ (s : State), s.bpwr.state = .doze → bit (s.reg bpPage 0x44) 30 = true → s.jobs = [] → s.time.evts = [] → s.isHead = false →
    ∃ t, exec .idleTimerEmber s = .next t ∧ s.onlyChanges t [.out, .xfers, .lines, .inj, .trace, .rings, .hdr 0x60, .regs 0x60, .ringQ, .mbox, .power,
        .bpwr, .staged, .latches, .token, .now] ∧ t.bpwr.state = .ember ∧
      t.now = max s.now (s.bpwr.dozeAt + s.regFld bpPage 0x48 0 16 * ms) ∧ t.bpwr.emberAt = t.now) ∧
  (∀ (c : CmdIn) (s : State), s.takes c .firmware = true →
    ∃ t, exec (.bpwrEnter c) s = .next t ∧ s.onlyChanges t [.out, .xfers, .lines, .inj, .cmds, .power, .bpwr, .word 0x50 0x54, .activity, .host, .tap,
        .regs 0x08, .hdr 0x08, .mbox, .trace, .rings, .hdr 0x60, .regs 0x60, .ringQ, .staged,
        .latches, .token] ∧
      (if argFld c s 0 0 3 < 2 ∨ 4 < argFld c s 0 0 3 then t.ended c stBadArg 0 ∧ t.bpwr.entry = s.bpwr.entry
       else if s.isSystem then t.ended c stRefused 0x0B ∧ t.bpwr.entry = s.bpwr.entry
       else (∃ d, t.ended c stRefused d) ∨ (t.ended c stOk 0 ∧ t.bpwr.entry = none) ∨
        (t.waits c (.event 26 0) ∧ t.bpwr.state = .entering))) ∧
  (∀ (sub : Nat) (s : State), s.bpwr.entry = none →
    (∃ t, exec (.subsystemAnswer sub) s = .next t ∧ s.onlyChanges t [.lines, .xfers, .out, .inj]) ∧
    ∃ t, exec .entryTimeout s = .next t ∧ s.onlyChanges t [.lines, .xfers, .out, .inj]) ∧
  (∀ (e : Entry) (s : State), s.bpwr.entry = some e →
    (∀ sub r, (e.delays.any fun d => decide (d.1 = sub)) = true → s.answerOf (e.pkg, e.page) e.target sub = .refuse r →
      ∃ t, exec (.subsystemAnswer sub) s = .next t ∧ s.onlyChanges t [.out, .xfers, .lines, .inj, .power, .bpwr, .cmds, .word 0x08 0x104, .word 0x08 0x100,
        .mbox, .trace, .rings, .hdr 0x60, .regs 0x60, .ringQ, .staged, .latches, .token] ∧ t.bpwr.state = .run ∧ t.bpwr.entry = none ∧
        (t.cmd e.pkg e.page).busy = false ∧ (t.cmd e.pkg e.page).status = stRefused ∧ (t.cmd e.pkg e.page).detail = BitVec.ofNat 8 r) ∧
    ∃ t, exec .entryTimeout s = .next t ∧ s.onlyChanges t [.out, .xfers, .lines, .inj, .now, .power, .bpwr, .cmds, .word 0x08 0x104, .word 0x08 0x100] ∧ t.now = max s.now (e.start + max 1 (s.regFld bpPage 0x44 0 16) * us) ∧
      t.bpwr.state = .run ∧ t.bpwr.entry = none ∧ (t.cmd e.pkg e.page).busy = false ∧
      (t.cmd e.pkg e.page).status = stRefused ∧ (t.cmd e.pkg e.page).detail = 9) ∧
  (∀ (n : Nat) (s : State),
    (s.bpwr.state ≠ .exiting → ∃ t, exec (.wake n) s = .next t ∧ s.onlyChanges t [.lines, .xfers, .out, .inj]) ∧
    (s.bpwr.state = .exiting → s.bpwr.under = none → s.regFld bpPage 0x54 28 4 = 2 →
      ∃ t, exec (.wake n) s = .next t ∧ s.onlyChanges t (([.out, .xfers, .lines, .inj, .power, .activity, .taint, .kernels, .staged, .recs,
        .violations, .ports, .suspects, .gens, .spares, .probes, .kats, .cmds, .notices, .ringQ,
        .mbox, .redInputs, .engines, .rings, .clusters, .bpwr, .allHdrs, .pkg, .pace, .allRegs,
        .snap, .host, .regions, .profiles, .heldRecs, .grid, .geyser, .redNodes, .ftab, .snaps,
        .rotState, .meas, .firmware, .keys, .spdm, .linkKeys, .verify, .rotOrders, .relock,
        .pps] : List Part) ++ ([.clock, .evts, .tports, .latches, .token, .trace, .snuff, .tap,
        .links, .chans, .proxies, .peers, .sinter, .watch, .jobs, .bcasts, .drift, .svcNotices,
        .cores, .change, .forced, .droops, .waves, .rails, .sensors, .tables, .budgets, .log, .errs,
        .mirror, .replicas, .plans, .now, .tick] : List Part)) ∧ t.bpwr.state = .run ∧ t.bpwr.active = [])) ∧
  (∀ (s : State),
    (s.bpwr.state = .run → ∃ t, exec .wakeN s = .next t ∧ s.onlyChanges t [.lines, .xfers, .out, .inj]) ∧
    (s.bpwr.state = .doze → ∃ t, exec .wakeN s = .next t ∧ s.onlyChanges t [.out, .xfers, .lines, .inj, .power, .bpwr, .cmds, .word 0x08 0x104, .word 0x08 0x100, .word 0x50 0x54, .activity] ∧ t.bpwr.state = .exiting ∧
      t.reg bpPage 0x54 = word (2 * 2 ^ 28 + 1 * 2 ^ 24)) ∧
    (∀ e, s.firstEvent = some e → s.bpwr.state = .doze → bit (s.reg bpPage 0x4C) 28 = true →
      ∃ t, exec .wakeLead s = .next t ∧ s.onlyChanges t [.out, .xfers, .lines, .inj, .power, .bpwr, .cmds, .word 0x08 0x104, .word 0x08 0x100, .word 0x50 0x54, .activity, .now] ∧ t.now = max s.now (e - s.wakeLead) ∧ t.bpwr.state = .exiting ∧
        t.reg bpPage 0x54 = word (2 * 2 ^ 28 + 2 * 2 ^ 24)) ∧
    (s.bpwr.state = .ember → (s.reg bpPage 0x50).toNat ≠ 0 →
      ∃ t, exec .emberWakeTimer s = .next t ∧ s.onlyChanges t [.out, .xfers, .lines, .inj, .power, .bpwr, .cmds, .word 0x08 0x104, .word 0x08 0x100, .word 0x50 0x54, .activity] ∧ t.bpwr.state = .exiting ∧
        t.reg bpPage 0x54 = word (3 * 2 ^ 28 + 9 * 2 ^ 24))) ∧
  (∀ (s : State), s.bpwr.state = .doze → bit (s.reg bpPage 0x44) 29 = true →
    s.samp.grid.epochNo % max 1 (s.regFld bpPage 0x44 16 8) = 0 → s.bpwr.wickAt ≠ s.samp.grid.epochNo + 1 →
    (∃ t, exec (.wickCycle true) s = .next t ∧ s.onlyChanges t [.out, .xfers, .lines, .inj, .bpwr, .probes, .staged, .recs, .hdr 0x58, .regs 0x93,
        .regs 0x91, .regs 0x38, .violations, .ports, .suspects, .hdr 0x28, .hdr 0x12, .gens,
        .spares, .hdr 0x10, .clusters, .power, .cmds, .word 0x08 0x104, .word 0x08 0x100,
        .word 0x50 0x54, .activity] ∧
      t.bpwr = { s.bpwr with wickAt := s.samp.grid.epochNo + 1, wickSkip := satAdd 8 s.bpwr.wickSkip 1 }) ∧
    ∃ t, exec (.wickCycle false) s = .next t ∧ s.onlyChanges t [.out, .xfers, .lines, .inj, .bpwr, .probes, .staged, .recs, .hdr 0x58, .regs 0x93,
        .regs 0x91, .regs 0x38, .violations, .ports, .suspects, .hdr 0x28, .hdr 0x12, .gens,
        .spares, .hdr 0x10, .clusters, .power, .cmds, .word 0x08 0x104, .word 0x08 0x100,
        .word 0x50 0x54, .activity] ∧ t.bpwr.wickAt = s.samp.grid.epochNo + 1 ∧
      t.bpwr.wicks = satAdd 16 s.bpwr.wicks 1 ∧ t.bpwr.wickSkip = s.bpwr.wickSkip) ∧
  (∀ (c : CmdIn) (s : State), s.takes c .operator = true →
    ∃ t, exec (.bpwrWickTest c) s = .next t ∧ s.onlyChanges t [.out, .xfers, .lines, .inj, .cmds, .power, .bpwr, .word 0x50 0x54, .activity, .host, .tap, .regs 0x08, .hdr 0x08] ∧ t.ended c stOk 0) ∧
  (∀ (s : State),
    (∃ t, exec .idleTimerEmber s = .next t ∧ s.onlyChanges t [.out, .xfers, .lines, .inj, .trace, .rings, .hdr 0x60, .regs 0x60, .ringQ, .mbox, .power,
        .bpwr, .staged, .latches, .token, .now]) ∧
    (∃ t, exec .entryTimeout s = .next t ∧ s.onlyChanges t [.out, .xfers, .lines, .inj, .now, .power, .bpwr, .cmds, .word 0x08 0x104, .word 0x08 0x100]) ∧
    (∃ t, exec .wakeN s = .next t ∧ s.onlyChanges t [.out, .xfers, .lines, .inj, .power, .bpwr, .cmds, .word 0x08 0x104, .word 0x08 0x100, .word 0x50 0x54, .activity]) ∧
    (∃ t, exec .wakeLead s = .next t ∧ s.onlyChanges t [.out, .xfers, .lines, .inj, .power, .bpwr, .cmds, .word 0x08 0x104, .word 0x08 0x100, .word 0x50 0x54, .activity, .now]) ∧
    (∃ t, exec .emberWakeTimer s = .next t ∧ s.onlyChanges t [.out, .xfers, .lines, .inj, .power, .bpwr, .cmds, .word 0x08 0x104, .word 0x08 0x100, .word 0x50 0x54, .activity])) ∧
  (∀ (c : CmdIn) (s : State),
    (∃ t, exec (.bpwrEnter c) s = .next t ∧ s.onlyChanges t [.out, .xfers, .lines, .inj, .cmds, .power, .bpwr, .word 0x50 0x54, .activity, .host, .tap,
        .regs 0x08, .hdr 0x08, .mbox, .trace, .rings, .hdr 0x60, .regs 0x60, .ringQ, .staged,
        .latches, .token]) ∧
    (∃ t, exec (.bpwrWickTest c) s = .next t ∧ s.onlyChanges t [.out, .xfers, .lines, .inj, .cmds, .power, .bpwr, .word 0x50 0x54, .activity, .host, .tap, .regs 0x08, .hdr 0x08])) ∧
  (∀ (sub : Nat) (s : State),
    ∃ t, exec (.subsystemAnswer sub) s = .next t ∧ s.onlyChanges t [.out, .xfers, .lines, .inj, .power, .bpwr, .cmds, .word 0x08 0x104, .word 0x08 0x100,
        .mbox, .trace, .rings, .hdr 0x60, .regs 0x60, .ringQ, .staged, .latches, .token]) ∧
  (∀ (periods : Nat) (s : State),
    ∃ t, exec (.wake periods) s = .next t ∧ s.onlyChanges t (([.out, .xfers, .lines, .inj, .power, .activity, .taint, .kernels, .staged, .recs,
        .violations, .ports, .suspects, .gens, .spares, .probes, .kats, .cmds, .notices, .ringQ,
        .mbox, .redInputs, .engines, .rings, .clusters, .bpwr, .allHdrs, .pkg, .pace, .allRegs,
        .snap, .host, .regions, .profiles, .heldRecs, .grid, .geyser, .redNodes, .ftab, .snaps,
        .rotState, .meas, .firmware, .keys, .spdm, .linkKeys, .verify, .rotOrders, .relock,
        .pps] : List Part) ++ ([.clock, .evts, .tports, .latches, .token, .trace, .snuff, .tap,
        .links, .chans, .proxies, .peers, .sinter, .watch, .jobs, .bcasts, .drift, .svcNotices,
        .cores, .change, .forced, .droops, .waves, .rails, .sensors, .tables, .budgets, .log, .errs,
        .mirror, .replicas, .plans, .now, .tick] : List Part))) ∧
  (∀ (running : Bool) (s : State),
    ∃ t, exec (.wickCycle running) s = .next t ∧ s.onlyChanges t [.out, .xfers, .lines, .inj, .bpwr, .probes, .staged, .recs, .hdr 0x58, .regs 0x93,
        .regs 0x91, .regs 0x38, .violations, .ports, .suspects, .hdr 0x28, .hdr 0x12, .gens,
        .spares, .hdr 0x10, .clusters, .power, .cmds, .word 0x08 0x104, .word 0x08 0x100,
        .word 0x50 0x54, .activity])

/-- R401 to R413: a rail that falls is recorded and a rail that is good again resets its domains; RST_N acts in every state but OFF,
and its release samples the straps; the RoT's reset starts fleet time afresh; BIST ends with its verdict; REFCLK's loss ends
EMBER's extrapolation; BPWR_RESET checks its kind and waits; warm, package and region resets start where ordered and end;
and a transaction older than 1 ms retires.
Completion, with nothing outside its frame changed: on every operand in every state supplyGood, brownout, pinReset,
pinResetRelease, rotReset, bistDone, refclkLoss, bpwrReset, warmReset, packageReset, regionReset, regionResetEnd,
transactionRetire, warmResetEnd each answer a next state. -/
def Obligations.RailsPinsAndResets : Prop :=
  (∀ (r : Rail) (ref : Bool) (s : State),
    (bit s.bpwr.pg r.bit = true → (∃ t, exec (.supplyGood r ref) s = .next t ∧ s.onlyChanges t [.lines, .xfers, .out, .inj]) ∧
      ∃ t, exec (.brownout r) s = .next t ∧ s.onlyChanges t [.out, .xfers, .lines, .inj, .bpwr, .allHdrs, .clock] ∧ bit t.bpwr.pg r.bit = false ∧ bit t.bpwr.fell r.bit = true) ∧
    (bit s.bpwr.pg r.bit = false → (∃ t, exec (.brownout r) s = .next t ∧ s.onlyChanges t [.lines, .xfers, .out, .inj]) ∧
      ∃ t, exec (.supplyGood r ref) s = .next t ∧ s.onlyChanges t (([.out, .xfers, .lines, .inj, .bpwr, .allHdrs, .pkg, .pace, .allRegs, .cmds, .snap, .ringQ,
        .host, .probes, .clusters, .regions, .profiles, .heldRecs, .grid, .geyser, .redNodes,
        .redInputs, .engines, .ftab, .snaps, .spares, .suspects, .violations, .kernels, .kats,
        .taint, .notices, .rotState, .meas, .firmware, .keys, .spdm, .linkKeys, .verify, .rotOrders,
        .relock, .pps, .clock, .evts, .tports, .staged, .rings, .latches, .token,
        .trace] : List Part) ++ ([.snuff, .tap, .links, .ports, .chans, .proxies, .peers, .sinter,
        .watch, .jobs, .bcasts, .drift, .svcNotices, .cores, .change, .forced, .droops, .waves,
        .rails, .sensors, .tables, .budgets, .recs, .log, .errs, .gens, .mirror, .replicas, .plans,
        .mbox, .power, .activity, .now, .tick] : List Part)) ∧ bit t.bpwr.pg r.bit = true)) ∧
  (∀ (s : State), ∃ t, exec .pinReset s = .next t ∧ s.onlyChanges t (([.out, .xfers, .lines, .inj, .allHdrs, .pkg, .pace, .allRegs, .cmds, .snap, .ringQ, .host,
        .probes, .clusters, .regions, .profiles, .heldRecs, .grid, .geyser, .redNodes, .redInputs,
        .engines, .ftab, .snaps, .spares, .suspects, .violations, .kernels, .kats, .taint, .notices,
        .rotState, .meas, .firmware, .keys, .spdm, .linkKeys, .verify, .rotOrders, .relock, .pps,
        .clock, .evts, .tports, .staged, .rings, .latches, .token, .trace,
        .snuff] : List Part) ++ ([.tap, .links, .ports, .chans, .proxies, .peers, .sinter, .watch,
        .jobs, .bcasts, .drift, .svcNotices, .cores, .change, .forced, .droops, .waves, .rails,
        .sensors, .tables, .budgets, .recs, .log, .errs, .gens, .mirror, .replicas, .plans, .mbox,
        .power, .bpwr, .activity, .now, .tick] : List Part)) ∧
    (if s.bpwr.state = .off ∨ bit s.bpwr.pg 3 = false then t.bpwr = s.bpwr ∧ t.now = s.now
     else t.bpwr.rstLow = true ∧ ∃ k, t.bpwr.under = some k)) ∧
  (∀ (i : StrapIn) (s : State), ∃ t, exec (.pinResetRelease i) s = .next t ∧ s.onlyChanges t [.out, .xfers, .lines, .inj, .allHdrs, .clock, .straps, .staged, .recs, .bpwr] ∧ t.bpwr.rstLow = false ∧
    t.straps = if s.bpwr.rstLow then { s.straps with
      dieIdx := i.dieIdx, headEn := i.headEn, twinSel := i.twinSel, cascade := i.cascade, refclkSel := i.refclkSel } else s.straps) ∧
  (∀ (s : State), s.rot.resetDue.isSome → s.dark = false →
    ∃ t, exec .rotReset s = .next t ∧ s.onlyChanges t (([.out, .xfers, .lines, .inj, .allHdrs, .pkg, .pace, .allRegs, .cmds, .snap, .ringQ, .host,
        .probes, .clusters, .regions, .profiles, .heldRecs, .grid, .geyser, .redNodes, .redInputs,
        .engines, .ftab, .snaps, .spares, .suspects, .violations, .kernels, .kats, .taint, .notices,
        .rotState, .meas, .firmware, .keys, .spdm, .linkKeys, .verify, .rotOrders, .relock, .pps,
        .clock, .evts, .tports, .staged, .rings, .latches, .token, .trace,
        .snuff] : List Part) ++ ([.tap, .links, .ports, .chans, .proxies, .peers, .sinter, .watch,
        .jobs, .bcasts, .drift, .svcNotices, .cores, .change, .forced, .droops, .waves, .rails,
        .sensors, .tables, .budgets, .recs, .log, .errs, .gens, .mirror, .replicas, .plans, .mbox,
        .power, .bpwr, .activity, .now, .tick] : List Part)) ∧ t.now = 0 ∧ t.tick = 0 ∧ t.bpwr.under = some .rot ∧ t.bpwr.state = .exiting ∧
      t.straps = s.straps) ∧
  (∀ (b : BistIn) (s : State), ∃ t, exec (.bistDone b) s = .next t ∧ s.onlyChanges t [.out, .xfers, .lines, .inj, .straps, .staged, .recs, .word 0x50 0x64, .allHdrs,
        .word 0x18 0x44, .links, .clock, .pkg, .power, .activity, .bpwr, .probes, .ports, .rings,
        .forced, .change, .rails, .snuff, .mbox, .pace, .word 0x02 0x5C, .spares, .gens, .engines,
        .regions, .clusters, .regs 0x93, .regs 0x91, .regs 0x38, .violations, .suspects] ∧
    (if s.bistRuns then t.bpwr.under = none ∧ t.bpwr.state = .run ∧ t.bpwr.failed = decide (b.failed ≠ 0) ∧
      bit (t.reg bpPage 0x64) 31 = true ∧ bit (t.reg bpPage 0x64) 30 = decide (b.failed = 0)
     else t.bpwr = s.bpwr ∧ t.straps = s.straps)) ∧
  (∀ (s : State), ∃ t, exec .refclkLoss s = .next t ∧ s.onlyChanges t [.out, .xfers, .lines, .inj, .bpwr, .word 0x50 0x60, .word 0x50 0x5C, .allHdrs, .clock] ∧ t.bpwr.refclk = false ∧
    t.bpwr.extrap = if s.bpwr.state = .ember then none else s.bpwr.extrap) ∧
  (∀ (c : CmdIn) (s : State), s.takes c .firmware = true →
    ∃ t, exec (.bpwrReset c) s = .next t ∧ s.onlyChanges t [.out, .xfers, .lines, .inj, .cmds, .power, .bpwr, .word 0x50 0x54, .activity, .host, .tap, .regs 0x08, .hdr 0x08] ∧
      (let kind := argFld c s 0 0 2
       let r := argFld c s 1 0 4
       if kind = 3 then t.ended c stBadArg 0
       else if kind = 1 ∧ s.isHead = false then t.ended c stError 1
       else if kind = 2 ∧ (s.isSystem = true ∨ Config.regions ≤ r) then t.ended c stError 2
       else t.ended c stError 3 ∨ t.waits c (.event 24 (orderCode kind (if kind = 2 then r else 0))))) ∧
  (∀ (s : State), s.resetFree = true →
    ((s.orders 0 ≠ [] ∨ s.rot.warmDue = true) → ∃ t, exec .warmReset s = .next t ∧ s.onlyChanges t [.out, .xfers, .lines, .inj, .power, .bpwr, .activity, .token, .trace, .staged, .rings,
        .heldRecs, .snuff, .jobs, .bcasts, .watch, .change, .probes, .kats, .taint, .allHdrs, .recs,
        .allRegs, .snap, .redNodes, .log, .ringQ, .notices, .grid, .geyser, .engines, .ftab,
        .relock, .pps, .ports, .links, .plans, .meas, .cmds, .pace, .redInputs, .snaps, .sinter,
        .rotOrders] ∧
      t.bpwr.under = some .warm ∧ t.bpwr.entry = none ∧ t.rot.warmDue = false) ∧
    (s.isDie = true → (s.isHead = false ∨ s.orders 1 ≠ []) → ∃ t, exec .packageReset s = .next t ∧ s.onlyChanges t (([.out, .xfers, .lines, .inj, .pace, .mbox, .host, .tap, .proxies, .ports, .chans, .staged,
        .recs, .violations, .suspects, .gens, .spares, .probes, .linkKeys, .power, .bpwr, .activity,
        .token, .trace, .rings, .heldRecs, .snuff, .jobs, .bcasts, .watch, .change, .kats, .taint,
        .allHdrs, .allRegs, .snap, .redNodes, .log, .ringQ, .notices, .grid, .geyser, .engines,
        .ftab, .relock, .pps, .links, .plans, .meas, .cmds] : List Part) ++ ([.redInputs, .snaps,
        .sinter, .pkg] : List Part)) ∧
      t.bpwr.under = some .package ∧ t.pkg.head = none)) ∧
  (∀ (r : BitVec 4) (s : State),
    (s.isDie = true → s.resetFree = true → (s.region r.toNat).inReset = false →
      ∃ t, exec (.regionReset r true) s = .next t ∧ s.onlyChanges t [.out, .xfers, .lines, .inj, .power, .activity, .regions, .ringQ, .notices, .cmds,
        .word 0x08 0x100, .probes, .hdr 0x61, .heldRecs, .snuff, .staged, .recs, .hdr 0x58, .kats,
        .gens, .spares, .violations, .chans, .regs 0x93, .regs 0x91, .regs 0x38, .ports, .suspects,
        .hdr 0x28, .hdr 0x12, .hdr 0x50, .word 0x50 0x5C, .word 0x50 0x58, .bpwr] ∧ (t.region r.toNat).inReset = true ∧
        (t.region r.toNat).incarn = (s.region r.toNat).incarn + 1) ∧
    ((s.region r.toNat).inReset = true →
      ∃ t, exec (.regionResetEnd r) s = .next t ∧ s.onlyChanges t [.out, .xfers, .lines, .inj, .cmds, .ports, .regions, .probes, .clusters, .staged, .recs,
        .hdr 0x58, .regs 0x93, .regs 0x91, .regs 0x38, .violations, .suspects, .hdr 0x28, .hdr 0x12,
        .gens, .spares, .hdr 0x10] ∧ (t.region r.toNat).inReset = false) ∧
    ((s.region r.toNat).inReset = false →
      ∃ t, exec (.regionResetEnd r) s = .next t ∧ s.onlyChanges t [.lines, .xfers, .out, .inj])) ∧
  (∀ (tag : Nat) (x : HmTag) (s : State), s.hmTag tag = some x → x.dead = false →
    ∃ t, exec (.transactionRetire tag) s = .next t ∧ s.onlyChanges t [.out, .xfers, .lines, .inj, .now, .cmds, .gens, .meas, .redNodes, .engines, .ftab, .sinter,
        .staged, .recs, .log, .plans, .mbox, .kernels, .allHdrs, .allRegs, .tables, .trace, .rings,
        .ringQ, .geyser, .grid, .clock, .ports, .peers, .drift, .jobs, .cores, .rails, .rotOrders,
        .mirror, .token, .snuff, .spdm, .free, .firmware, .notices] ∧ t.now = max s.now (x.sent + ms) ∧
      (t.hmTag tag).map (·.dead) = some true) ∧
  (∀ (s : State), s.bpwr.under = some .warm ∨ s.bpwr.under = some .package →
    ∃ t, exec .warmResetEnd s = .next t ∧ s.onlyChanges t [.out, .xfers, .lines, .inj, .allHdrs, .bpwr, .taint, .kernels, .staged, .recs, .regs 0x93,
        .regs 0x91, .regs 0x38, .violations, .ports, .suspects, .gens, .spares, .probes, .kats,
        .cmds, .word 0x08 0x100, .notices, .ringQ, .mbox, .word 0x28 0xC4, .redInputs, .meas,
        .engines] ∧ t.bpwr.under = none) ∧
  (∀ (r : Rail) (refclk : Bool) (s : State),
    ∃ t, exec (.supplyGood r refclk) s = .next t ∧ s.onlyChanges t (([.out, .xfers, .lines, .inj, .bpwr, .allHdrs, .pkg, .pace, .allRegs, .cmds, .snap, .ringQ,
        .host, .probes, .clusters, .regions, .profiles, .heldRecs, .grid, .geyser, .redNodes,
        .redInputs, .engines, .ftab, .snaps, .spares, .suspects, .violations, .kernels, .kats,
        .taint, .notices, .rotState, .meas, .firmware, .keys, .spdm, .linkKeys, .verify, .rotOrders,
        .relock, .pps, .clock, .evts, .tports, .staged, .rings, .latches, .token,
        .trace] : List Part) ++ ([.snuff, .tap, .links, .ports, .chans, .proxies, .peers, .sinter,
        .watch, .jobs, .bcasts, .drift, .svcNotices, .cores, .change, .forced, .droops, .waves,
        .rails, .sensors, .tables, .budgets, .recs, .log, .errs, .gens, .mirror, .replicas, .plans,
        .mbox, .power, .activity, .now, .tick] : List Part))) ∧
  (∀ (r : Rail) (s : State),
    ∃ t, exec (.brownout r) s = .next t ∧ s.onlyChanges t [.out, .xfers, .lines, .inj, .bpwr, .allHdrs, .clock]) ∧
  (∀ (s : State),
    (∃ t, exec .rotReset s = .next t ∧ s.onlyChanges t (([.out, .xfers, .lines, .inj, .allHdrs, .pkg, .pace, .allRegs, .cmds, .snap, .ringQ, .host,
        .probes, .clusters, .regions, .profiles, .heldRecs, .grid, .geyser, .redNodes, .redInputs,
        .engines, .ftab, .snaps, .spares, .suspects, .violations, .kernels, .kats, .taint, .notices,
        .rotState, .meas, .firmware, .keys, .spdm, .linkKeys, .verify, .rotOrders, .relock, .pps,
        .clock, .evts, .tports, .staged, .rings, .latches, .token, .trace,
        .snuff] : List Part) ++ ([.tap, .links, .ports, .chans, .proxies, .peers, .sinter, .watch,
        .jobs, .bcasts, .drift, .svcNotices, .cores, .change, .forced, .droops, .waves, .rails,
        .sensors, .tables, .budgets, .recs, .log, .errs, .gens, .mirror, .replicas, .plans, .mbox,
        .power, .bpwr, .activity, .now, .tick] : List Part))) ∧
    (∃ t, exec .warmReset s = .next t ∧ s.onlyChanges t [.out, .xfers, .lines, .inj, .power, .bpwr, .activity, .token, .trace, .staged, .rings,
        .heldRecs, .snuff, .jobs, .bcasts, .watch, .change, .probes, .kats, .taint, .allHdrs, .recs,
        .allRegs, .snap, .redNodes, .log, .ringQ, .notices, .grid, .geyser, .engines, .ftab,
        .relock, .pps, .ports, .links, .plans, .meas, .cmds, .pace, .redInputs, .snaps, .sinter,
        .rotOrders]) ∧
    (∃ t, exec .packageReset s = .next t ∧ s.onlyChanges t (([.out, .xfers, .lines, .inj, .pace, .mbox, .host, .tap, .proxies, .ports, .chans, .staged,
        .recs, .violations, .suspects, .gens, .spares, .probes, .linkKeys, .power, .bpwr, .activity,
        .token, .trace, .rings, .heldRecs, .snuff, .jobs, .bcasts, .watch, .change, .kats, .taint,
        .allHdrs, .allRegs, .snap, .redNodes, .log, .ringQ, .notices, .grid, .geyser, .engines,
        .ftab, .relock, .pps, .links, .plans, .meas, .cmds] : List Part) ++ ([.redInputs, .snaps,
        .sinter, .pkg] : List Part))) ∧
    (∃ t, exec .warmResetEnd s = .next t ∧ s.onlyChanges t [.out, .xfers, .lines, .inj, .allHdrs, .bpwr, .taint, .kernels, .staged, .recs, .regs 0x93,
        .regs 0x91, .regs 0x38, .violations, .ports, .suspects, .gens, .spares, .probes, .kats,
        .cmds, .word 0x08 0x100, .notices, .ringQ, .mbox, .word 0x28 0xC4, .redInputs, .meas,
        .engines])) ∧
  (∀ (c : CmdIn) (s : State),
    ∃ t, exec (.bpwrReset c) s = .next t ∧ s.onlyChanges t [.out, .xfers, .lines, .inj, .cmds, .power, .bpwr, .word 0x50 0x54, .activity, .host, .tap, .regs 0x08, .hdr 0x08]) ∧
  (∀ (region : BitVec 4) (rot : Bool) (s : State),
    ∃ t, exec (.regionReset region rot) s = .next t ∧ s.onlyChanges t [.out, .xfers, .lines, .inj, .power, .activity, .regions, .ringQ, .notices, .cmds,
        .word 0x08 0x100, .probes, .hdr 0x61, .heldRecs, .snuff, .staged, .recs, .hdr 0x58, .kats,
        .gens, .spares, .violations, .chans, .regs 0x93, .regs 0x91, .regs 0x38, .ports, .suspects,
        .hdr 0x28, .hdr 0x12, .hdr 0x50, .word 0x50 0x5C, .word 0x50 0x58, .bpwr]) ∧
  (∀ (region : BitVec 4) (s : State),
    ∃ t, exec (.regionResetEnd region) s = .next t ∧ s.onlyChanges t [.out, .xfers, .lines, .inj, .cmds, .ports, .regions, .probes, .clusters, .staged, .recs,
        .hdr 0x58, .regs 0x93, .regs 0x91, .regs 0x38, .violations, .suspects, .hdr 0x28, .hdr 0x12,
        .gens, .spares, .hdr 0x10]) ∧
  (∀ (tag : Nat) (s : State),
    ∃ t, exec (.transactionRetire tag) s = .next t ∧ s.onlyChanges t [.out, .xfers, .lines, .inj, .now, .cmds, .gens, .meas, .redNodes, .engines, .ftab, .sinter,
        .staged, .recs, .log, .plans, .mbox, .kernels, .allHdrs, .allRegs, .tables, .trace, .rings,
        .ringQ, .geyser, .grid, .clock, .ports, .peers, .drift, .jobs, .cores, .rails, .rotOrders,
        .mirror, .token, .snuff, .spdm, .free, .firmware, .notices])


/-! ### The black box: the log, the arrays, mirroring and checkpoints (R414 to R437) -/

/-- R419 to R428, R434, R437: the granted record enters the log under the next LOGNO, after the removal of older records of lower
severity where slots are short, or is dropped; a record of a child goes up unchanged; a write of RIDX captures the record of
that number, or none; a patrol read counts a corrected word; and FUM_DUMP, FUM_CLEAR and FUM_WRITE check their arguments.
Completion, with nothing outside its frame changed: on every operand in every state logWrite, event, logCapture, patrolRead,
fumDump, fumWrite, fumClear each answer a next state. -/
def Obligations.RecordsAreKeptReadAndCleared : Prop :=
  (∀ (s : State), s.fum.waiting = [] → ∃ t, exec .logWrite s = .next t ∧ s.onlyChanges t [.lines, .xfers, .out, .inj]) ∧
  (∀ (r : LogRec) (s : State), grantRec s.fum.waiting = some r → (s.injTake fumPage 0x10).1 = false →
    ∃ t, exec .logWrite s = .next t ∧ s.onlyChanges t [.out, .xfers, .lines, .inj, .word 0x02 0x58, .recs, .hdr 0x58, .free, .mbox, .log] ∧ t.fum.waiting = s.fum.waiting.erase r ∧
      (let b := recordBytes r
       let m := makeRoom (recordSev b) (recordSlots b) (s.logSlots - logUsed s.fum.log) s.fum.log
       if m.2 < recordSlots b then t.fum.log = s.fum.log ∧ t.fum.next = s.fum.next ∧
        t.fum.dropCount = BitVec.ofNat 32 (satAdd 32 s.fum.dropCount.toNat 1)
       else t.fum.log = m.1 ++ [{ logno := s.fum.next, bytes := b, copying := false }] ∧ t.fum.next = s.fum.next + 1)) ∧
  (∀ (b : List Byte) (s : State), 28 ≤ recordLen b → recordLen b ≤ 256 → recordLen b % 4 = 0 → b.length = recordLen b →
    bit (s.reg fumPage 0x40) 27 = false →
    ∃ t, exec (.event b) s = .next t ∧ s.onlyChanges t [.mbox, .lines, .xfers, .out, .inj] ∧
      ((bit (s.reg fumPage 0x40) 28 = false ∨ fld (s.reg fumPage 0x40) 29 3 > recordSev b) → t.mbox = s.mbox)) ∧
  (∀ (a : Access) (s : State), s.mayWrite a fumPage 0x60 → (s.hdr fumPage).guard = none →
    ∃ t, exec (.logCapture a) s = .next t ∧ s.answered t a.req .ok 0 ∧ t.fum.log = s.fum.log ∧
      (match s.logHeld a.data with
       | none => t.fum.captured = false ∧ t.fum.window = [] ∧ t.fum.capLen = 0
       | some e => t.fum.captured = true ∧ t.fum.window = e.bytes ∧ t.fum.capLen = e.bytes.length ∧
          t.fum.capCrcBad = !recordGood e.bytes)) ∧
  (∀ (u : ArrayUse) (w : BitVec 72) (v : BitVec 2) (h : WordHolds) (s : State),
    (eccRead (s.flipped u.page w).1 v = .clean → ∃ t, exec (.patrolRead u w v h) s = .next t ∧ s.onlyChanges t [.inj, .errs, .out, .xfers, .lines, .allHdrs, .staged, .recs, .host, .tap, .cmds, .mbox, .rotOrders, .log, .engines] ∧ t.fum.ceCount = s.fum.ceCount ∧
      t.fum.ueCount = s.fum.ueCount ∧ Tab.read boolFalse t.fum.ceWords (u.array.toNat * 2 ^ 24 + u.word.toNat) = false) ∧
    (eccRead (s.flipped u.page w).1 v = .corrected → ∃ t, exec (.patrolRead u w v h) s = .next t ∧ s.onlyChanges t [.inj, .errs, .out, .xfers, .lines, .allHdrs, .staged, .recs, .host, .tap, .cmds, .mbox, .rotOrders, .log, .engines] ∧
      t.fum.ceCount = BitVec.ofNat 32 (satAdd 32 s.fum.ceCount.toNat 1) ∧
      Tab.read boolFalse t.fum.ceWords (u.array.toNat * 2 ^ 24 + u.word.toNat) = true) ∧
    (eccRead (s.flipped u.page w).1 v = .uncorrectable → ∃ t, exec (.patrolRead u w v h) s = .next t ∧ s.onlyChanges t [.inj, .errs, .out, .xfers, .lines, .allHdrs, .staged, .recs, .host, .tap, .cmds, .mbox, .rotOrders, .log, .engines] ∧
      t.fum.ueCount = BitVec.ofNat 32 (satAdd 32 s.fum.ueCount.toNat 1))) ∧
  (∀ (c : CmdIn) (s : State), s.takes c .operator = true →
    (∃ t, exec (.fumDump c) s = .next t ∧ s.onlyChanges t [.out, .xfers, .lines, .inj, .cmds, .power, .bpwr, .word 0x50 0x54, .activity, .host, .tap,
        .regs 0x08, .hdr 0x08, .plans, .hdr 0x58, .log] ∧
      (if arg64 c s 0 % 64 ≠ 0 then t.ended c stBadArg 0 ∧ t.fum.log = s.fum.log
       else (t.ended c stError 1 ∧ t.fum.log = s.fum.log) ∨ (t.cmd c.pkg c.page.toNat).busy = true)) ∧
    (∃ t, exec (.fumWrite c) s = .next t ∧ s.onlyChanges t [.out, .xfers, .lines, .inj, .cmds, .power, .bpwr, .word 0x50 0x54, .activity, .host, .tap,
        .regs 0x08, .hdr 0x08, .staged, .recs, .hdr 0x58] ∧
      (if 5 < argFld c s 0 0 3 then t.ended c stError 5 ∧ t.fum.waiting = s.fum.waiting else t.ended c stOk 0))) ∧
  (∀ (c : CmdIn) (s : State), s.takes c .firmware = true →
    ∃ t, exec (.fumClear c) s = .next t ∧ s.onlyChanges t [.out, .xfers, .lines, .inj, .cmds, .power, .bpwr, .word 0x50 0x54, .activity, .host, .tap,
        .regs 0x08, .hdr 0x08, .log, .recs, .mbox, .hdr 0x58] ∧
      (if 8 < argFld c s 0 0 4 then t.ended c stBadArg 0 ∧ t.fum.log = s.fum.log
       else t.ended c stOk 0 ∧ (s.fum.lostCount = 0 →
        t.fum.log = s.fum.log.filter fun e => decide (argFld c s 0 0 4 ≤ recordSev e.bytes) || e.copying))) ∧
  (∀ (s : State),
    ∃ t, exec .logWrite s = .next t ∧ s.onlyChanges t [.out, .xfers, .lines, .inj, .word 0x02 0x58, .recs, .hdr 0x58, .free, .mbox, .log]) ∧
  (∀ (bytes : List Byte) (s : State),
    ∃ t, exec (.event bytes) s = .next t ∧ s.onlyChanges t [.out, .xfers, .lines, .inj, .hdr 0x58, .recs, .log, .mbox]) ∧
  (∀ (a : Access) (s : State),
    ∃ t, exec (.logCapture a) s = .next t ∧ s.onlyChanges t (([.out, .xfers, .lines, .inj, .allHdrs, .power, .bpwr, .cmds, .activity, .staged, .recs,
        .snap, .heldRecs, .host, .tap, .evts, .grid, .bcasts, .mbox, .probes, .pace, .clusters,
        .violations, .ports, .suspects, .gens, .spares, .regions, .geyser, .ringQ, .meas, .redNodes,
        .engines, .ftab, .kernels, .notices, .kats, .taint, .clock, .relock, .pps, .now, .tick,
        .tports, .svcNotices, .jobs, .waves, .snuff, .profiles,
        .watch] : List Part) ++ ([.redInputs, .cores, .rails, .snaps, .mirror, .replicas, .drift,
        .droops, .pkg, .rings, .sinter, .proxies, .chans, .links, .verify, .linkKeys, .peers,
        .plans, .forced, .change, .trace, .latches, .token, .log, .free, .rotState, .firmware,
        .allRegs, .tables, .rotOrders] : List Part))) ∧
  (∀ (u : ArrayUse) (stored : BitVec 72) (valid : BitVec 2) (holds : WordHolds) (s : State),
    ∃ t, exec (.patrolRead u stored valid holds) s = .next t ∧ s.onlyChanges t [.inj, .errs, .out, .xfers, .lines, .allHdrs, .staged, .recs, .host, .tap, .cmds, .mbox, .rotOrders, .log, .engines]) ∧
  (∀ (c : CmdIn) (s : State),
    (∃ t, exec (.fumDump c) s = .next t ∧ s.onlyChanges t [.out, .xfers, .lines, .inj, .cmds, .power, .bpwr, .word 0x50 0x54, .activity, .host, .tap,
        .regs 0x08, .hdr 0x08, .plans, .hdr 0x58, .log]) ∧
    (∃ t, exec (.fumWrite c) s = .next t ∧ s.onlyChanges t [.out, .xfers, .lines, .inj, .cmds, .power, .bpwr, .word 0x50 0x54, .activity, .host, .tap,
        .regs 0x08, .hdr 0x08, .staged, .recs, .hdr 0x58]) ∧
    (∃ t, exec (.fumClear c) s = .next t ∧ s.onlyChanges t [.out, .xfers, .lines, .inj, .cmds, .power, .bpwr, .word 0x50 0x54, .activity, .host, .tap,
        .regs 0x08, .hdr 0x08, .log, .recs, .mbox, .hdr 0x58]))

/-- R429 to R436: a request to pull is kept for the next close; an item that has changed is sent once; STATE_CKPT that does not fit
ends FULL, STATE_RESTORE reads its checkpoint whole, STATE_PULL needs a peer and waits, and STATE_DIGESTS gives the digests.
Completion, with nothing outside its frame changed: on every operand in every state mirror, mirrorUpdate, stateCkpt,
stateRestore, statePull, stateDigests each answer a next state. -/
def Obligations.StateIsMirroredPulledAndRestored : Prop :=
  (∀ (src : BitVec 16) (b : List Byte) (s : State),
    ∃ t, exec (.mirror src b) s = .next t ∧ s.onlyChanges t [.out, .xfers, .lines, .inj, .replicas, .mbox, .probes, .clusters, .redNodes, .clock,
        .watch, .jobs, .spares, .plans, .cmds, .staged, .recs, .gens, .meas, .engines, .ftab,
        .kernels, .allHdrs, .allRegs, .tables, .trace, .rings, .ringQ, .geyser, .grid, .ports,
        .peers, .drift, .cores, .rails, .log, .rotOrders] ∧
      ∀ items, Config.pullAsked b = some items → t.fum.asks = s.fum.asks ++ [(src, items)]) ∧
  (∀ (item : Nat) (s : State),
    ((s.mirrors = false ∨ item < 1 ∨ 9 < item ∨ (s.fum.full.contains item = false ∧
        Tab.read natZero s.fum.gens item = Tab.read natZero s.fum.sent item)) →
      ∃ t, exec (.mirrorUpdate item) s = .next t ∧ s.onlyChanges t [.lines, .xfers, .out, .inj]) ∧
    (s.mirrors = true → 1 ≤ item → item ≤ 9 → (s.fum.full.contains item = true ∨
        Tab.read natZero s.fum.gens item ≠ Tab.read natZero s.fum.sent item) →
      ∃ t, exec (.mirrorUpdate item) s = .next t ∧ s.onlyChanges t [.out, .xfers, .lines, .inj, .mirror, .mbox] ∧
        Tab.read natZero t.fum.sent item = Tab.read natZero s.fum.gens item ∧ t.fum.full = s.fum.full.erase item)) ∧
  (∀ (c : CmdIn) (s : State), s.takes c .firmware = true →
    (∃ t, exec (.stateCkpt c) s = .next t ∧ s.onlyChanges t [.out, .xfers, .lines, .inj, .cmds, .power, .bpwr, .word 0x50 0x54, .activity, .host, .tap,
        .regs 0x08, .hdr 0x08, .regs 0x39, .hdr 0x39, .plans] ∧
      ((argW c s 3).toNat < 64 → t.ended c stError 1 ∧ t.fum.ckpts = s.fum.ckpts)) ∧
    (bit (argW c s 4) 0 = false → ∃ t, exec (.stateRestore c) s = .next t ∧ s.onlyChanges t [.out, .xfers, .lines, .inj, .cmds, .power, .bpwr, .word 0x50 0x54, .activity, .host, .tap,
        .regs 0x08, .hdr 0x08, .plans, .staged, .recs, .hdr 0x58] ∧
      (if (argW c s 3).toNat = 0 then if argFld c s 0 0 5 = 0 then t.ended c stOk 2 else t.ended c stError 2
       else t.fum.restores = s.fum.restores ++
        [{ pkg := c.pkg, page := c.page.toNat, items := argFld c s 0 0 5, force := false, bytes := [] }])) ∧
    (∃ t, exec (.statePull c) s = .next t ∧ s.onlyChanges t [.out, .xfers, .lines, .inj, .cmds, .power, .bpwr, .word 0x50 0x54, .activity, .host, .tap,
        .regs 0x08, .hdr 0x08, .plans, .mbox, .mirror] ∧
      (if s.fum.peer = none then t.ended c stError 7 ∧ t.fum.pulls = s.fum.pulls
       else if argFld c s 0 0 9 = 0 then t.ended c stOk 0 ∧ t.fum.pulls = s.fum.pulls
       else t.waits c (.event 14 0) ∧ t.fum.pulls = s.fum.pulls ++
        [{ items := argFld c s 0 0 9, pkg := c.pkg, page := c.page.toNat, stale := 0, restore := false }]))) ∧
  (∀ (c : CmdIn) (s : State), s.takes c .operator = true →
    ∃ t, exec (.stateDigests c) s = .next t ∧ s.onlyChanges t [.out, .xfers, .lines, .inj, .cmds, .power, .bpwr, .word 0x50 0x54, .activity, .host, .tap, .regs 0x08, .hdr 0x08, .plans] ∧
      (t.ended c stOk 0 ∨ ∃ p, p ∈ t.fum.ckpts ∧ p.pkg = c.pkg ∧ p.page = c.page.toNat)) ∧
  (∀ (item : Nat) (s : State),
    ∃ t, exec (.mirrorUpdate item) s = .next t ∧ s.onlyChanges t [.out, .xfers, .lines, .inj, .mirror, .mbox]) ∧
  (∀ (c : CmdIn) (s : State),
    (∃ t, exec (.stateCkpt c) s = .next t ∧ s.onlyChanges t [.out, .xfers, .lines, .inj, .cmds, .power, .bpwr, .word 0x50 0x54, .activity, .host, .tap,
        .regs 0x08, .hdr 0x08, .regs 0x39, .hdr 0x39, .plans]) ∧
    (∃ t, exec (.stateRestore c) s = .next t ∧ s.onlyChanges t [.out, .xfers, .lines, .inj, .cmds, .power, .bpwr, .word 0x50 0x54, .activity, .host, .tap,
        .regs 0x08, .hdr 0x08, .plans, .staged, .recs, .hdr 0x58]) ∧
    (∃ t, exec (.statePull c) s = .next t ∧ s.onlyChanges t [.out, .xfers, .lines, .inj, .cmds, .power, .bpwr, .word 0x50 0x54, .activity, .host, .tap,
        .regs 0x08, .hdr 0x08, .plans, .mbox, .mirror]) ∧
    (∃ t, exec (.stateDigests c) s = .next t ∧ s.onlyChanges t [.out, .xfers, .lines, .inj, .cmds, .power, .bpwr, .word 0x50 0x54, .activity, .host, .tap, .regs 0x08, .hdr 0x08, .plans]))


/-! ### Trace, Snuff, loop-back and the test port (R438 to R483) -/

/-- R440 to R453: a placed packet leaves its source and a probe's latch rests in DOZE; the SYNC timer advances; a packet that waits at
a ring longer than STALL_US is dropped; a session starts and stops on its conditions and by command; an edge at a trigger
input has the line's ACTION, and an output's pulse rises, lengthens and ends; a TRACE_MARK stages its packet, and TRACE_AUTH
of length 0 withdraws the token.
Completion, with nothing outside its frame changed: on every operand in every state tracePacketPlace, traceSyncTimer,
traceStallLimit, trace, traceSessionStart, traceSessionStop, trigIn, trigOutPulse, trigOutEnd, traceStart, traceStop,
traceAuth, traceMark each answer a next state. -/
def Obligations.TraceSessionsTriggersAndMarks : Prop :=
  (∀ (p : Nat) (s : State), s.bpwr.state = .doze → (∀ r < 4, (s.tring r).wait = none) →
    ∃ t, exec (.tracePacketPlace (some p)) s = .next t ∧ s.onlyChanges t [.lines, .xfers, .out, .inj]) ∧
  (∀ (q : TPacket) (s : State), (s.trace.staged.find? fun p => !s.stalled p) = some q → (∀ r < 4, (s.tring r).wait = none) →
    ∃ t, exec (.tracePacketPlace none) s = .next t ∧ s.onlyChanges t [.hdr 0x60, .inj, .trace, .regs 0x60, .rings, .ringQ, .out, .xfers, .mbox, .lines, .latches, .probes, .staged] ∧ t.trace.staged = s.trace.staged.erase q ∧
      t.trace.run = s.trace.run) ∧
  (∀ (s : State), ∃ t, exec .traceSyncTimer s = .next t ∧ s.onlyChanges t [.now, .out, .xfers, .lines, .inj, .rings, .ringQ, .mbox, .trace] ∧
    (let due := s.trace.syncAt + max 1 (s.regFld tracePage 0x40 16 10) * ms
     t.now = max s.now due ∧ t.trace.syncAt = due ∧ t.trace.staged = s.trace.staged)) ∧
  (∀ (ring : Nat) (p : TPacket) (since : FT) (s : State), ring < 4 → (s.tring ring).wait = some (p, since) →
    ∃ t, exec (.traceStallLimit ring) s = .next t ∧ s.onlyChanges t [.out, .xfers, .lines, .inj, .now, .hdr 0x60, .trace, .word 0x60 (280 + 32 * ring), .rings] ∧
      t.now = max s.now (since + s.regFld tracePage 0x40 0 16 * us) ∧ (t.tring ring).wait = none ∧
      (t.tring ring).lost = (s.tring ring).lost + 1 ∧ ∀ q, q ≠ ring → t.tring q = s.tring q) ∧
  (∀ (src : BitVec 16) (b : List Byte) (s : State), ∃ t, exec (.trace src b) s = .next t ∧ s.onlyChanges t [.out, .xfers, .lines, .inj, .hdr 0x60, .trace, .regs 0x60, .rings, .ringQ, .mbox] ∧ t.trace.run = s.trace.run ∧
    t.trace.staged = s.trace.staged) ∧
  (∀ (s : State), s.trace.startDue = true →
    ∃ t, exec .traceSessionStart s = .next t ∧ s.onlyChanges t [.out, .xfers, .lines, .inj, .hdr 0x60, .trace, .rings, .ringQ, .mbox, .now] ∧ t.trace.run = true ∧
      (s.trace.run = false → t.trace.written = 0 ∧ t.trace.startDue = false ∧ t.trace.stopDue = false)) ∧
  (∀ (s : State), s.trace.stopDue = true →
    ∃ t, exec .traceSessionStop s = .next t ∧ s.onlyChanges t [.out, .xfers, .lines, .inj, .trace, .hdr 0x60, .now] ∧ t.trace.run = false ∧
      (s.trace.run = true → t.trace.startDue = false ∧ t.trace.stopDue = false)) ∧
  (∀ (line : BitVec 2) (rising : Bool) (ts : Nat) (s : State),
    ∃ t, exec (.trigIn line rising ts) s = .next t ∧ s.onlyChanges t [.now, .staged, .out, .xfers, .lines, .inj, .trace, .snuff] ∧ t.now = max s.now ts ∧ t.trace.run = s.trace.run ∧
      (let f := s.regFld tracePage 0x90 (8 * line.toNat) 4
       if rising = decide (f < 8) ∧ f % 8 = 3 ∧ s.snuff.state ≠ .cut then t.snuff.trigs = s.snuff.trigs ++
        [{ cause := .trigIn, scope := s.inScopeField, init := s.node, no := none, port := none }]
       else t.snuff = s.snuff)) ∧
  (∀ (line : BitVec 2) (s : State),
    (s.trace.outDue.contains line.toNat = true → s.bpwr.state ≠ .doze →
      ∃ t, exec (.trigOutPulse line) s = .next t ∧ s.onlyChanges t [.out, .xfers, .lines, .inj, .trace, .staged] ∧ t.trace.outDue = s.trace.outDue.erase line.toNat ∧
        Tab.read natZero t.trace.outEnd line.toNat = s.now + clamp 8 1000 (s.regFld tracePage 0x98 0 16) * ns) ∧
    (Tab.read natZero s.trace.outEnd line.toNat ≠ 0 →
      ∃ t, exec (.trigOutEnd line) s = .next t ∧ s.onlyChanges t [.out, .xfers, .lines, .inj, .now, .trace, .staged] ∧
        t.now = max s.now (Tab.read natZero s.trace.outEnd line.toNat) ∧ Tab.read natZero t.trace.outEnd line.toNat = 0)) ∧
  (∀ (c : CmdIn) (s : State), s.takes c .firmware = true →
    (∃ t, exec (.traceStart c) s = .next t ∧ s.onlyChanges t [.out, .xfers, .lines, .inj, .cmds, .power, .bpwr, .word 0x50 0x54, .activity, .host, .tap,
        .regs 0x08, .hdr 0x08, .hdr 0x60, .trace, .rings, .ringQ, .mbox] ∧ t.ended c stOk 0 ∧ t.trace.run = true) ∧
    (∃ t, exec (.traceStop c) s = .next t ∧ s.onlyChanges t [.out, .xfers, .lines, .inj, .cmds, .power, .bpwr, .word 0x50 0x54, .activity, .host, .tap,
        .regs 0x08, .hdr 0x08, .trace, .hdr 0x60] ∧ t.ended c stOk 0 ∧ t.trace.run = false) ∧
    (∃ t, exec (.traceAuth c) s = .next t ∧ s.onlyChanges t [.out, .xfers, .lines, .inj, .cmds, .power, .bpwr, .word 0x50 0x54, .activity, .host, .tap, .regs 0x08, .hdr 0x08, .token] ∧
      (if (argW c s 2).toNat = 0 then t.ended c stOk 0 ∧ t.trace.token = none
       else if (argW c s 2).toNat ≠ 48 then t.ended c stBadArg 0 ∧ t.trace = s.trace
       else (t.cmd c.pkg c.page.toNat).busy = true ∧ t.trace = s.trace))) ∧
  (∀ (c : CmdIn) (s : State), s.takes c .tenant = true →
    ∃ t, exec (.traceMark c) s = .next t ∧ s.onlyChanges t [.out, .xfers, .lines, .inj, .cmds, .power, .bpwr, .word 0x50 0x54, .activity, .host, .tap, .regs 0x08, .hdr 0x08, .staged] ∧ t.ended c stOk 0 ∧
      t.trace.staged = if s.trace.run then s.trace.staged ++
        [({ typ := 6, src := BitVec.ofNat 16 (3 * 2 ^ 13 + c.req.rid.toNat), time := s.ft, job := c.req.job, node := none, body := leBytes 4 (argW c s 0).toNat ++ leBytes 4 (argW c s 1).toNat } : TPacket)]
        else s.trace.staged) ∧
  (∀ (probe : Option Nat) (s : State),
    ∃ t, exec (.tracePacketPlace probe) s = .next t ∧ s.onlyChanges t [.hdr 0x60, .inj, .trace, .regs 0x60, .rings, .ringQ, .out, .xfers, .mbox, .lines, .latches, .probes, .staged]) ∧
  (∀ (ring : Nat) (s : State),
    ∃ t, exec (.traceStallLimit ring) s = .next t ∧ s.onlyChanges t [.out, .xfers, .lines, .inj, .now, .hdr 0x60, .trace, .word 0x60 (280 + 32 * ring), .rings]) ∧
  (∀ (s : State),
    (∃ t, exec .traceSessionStart s = .next t ∧ s.onlyChanges t [.out, .xfers, .lines, .inj, .hdr 0x60, .trace, .rings, .ringQ, .mbox, .now]) ∧
    (∃ t, exec .traceSessionStop s = .next t ∧ s.onlyChanges t [.out, .xfers, .lines, .inj, .trace, .hdr 0x60, .now])) ∧
  (∀ (line : BitVec 2) (s : State),
    (∃ t, exec (.trigOutPulse line) s = .next t ∧ s.onlyChanges t [.out, .xfers, .lines, .inj, .trace, .staged]) ∧
    (∃ t, exec (.trigOutEnd line) s = .next t ∧ s.onlyChanges t [.out, .xfers, .lines, .inj, .now, .trace, .staged])) ∧
  (∀ (c : CmdIn) (s : State),
    (∃ t, exec (.traceStart c) s = .next t ∧ s.onlyChanges t [.out, .xfers, .lines, .inj, .cmds, .power, .bpwr, .word 0x50 0x54, .activity, .host, .tap,
        .regs 0x08, .hdr 0x08, .hdr 0x60, .trace, .rings, .ringQ, .mbox]) ∧
    (∃ t, exec (.traceStop c) s = .next t ∧ s.onlyChanges t [.out, .xfers, .lines, .inj, .cmds, .power, .bpwr, .word 0x50 0x54, .activity, .host, .tap,
        .regs 0x08, .hdr 0x08, .trace, .hdr 0x60]) ∧
    (∃ t, exec (.traceAuth c) s = .next t ∧ s.onlyChanges t [.out, .xfers, .lines, .inj, .cmds, .power, .bpwr, .word 0x50 0x54, .activity, .host, .tap, .regs 0x08, .hdr 0x08, .token]) ∧
    (∃ t, exec (.traceMark c) s = .next t ∧ s.onlyChanges t [.out, .xfers, .lines, .inj, .cmds, .power, .bpwr, .word 0x50 0x54, .activity, .host, .tap, .regs 0x08, .hdr 0x08, .staged]))

/-- R458 to R483: the Snuff pin is taken, a node cuts on the trigger that wins and counts its cuts, a stop's acknowledge is taken, and
the clear ends the Snuff; SNUFF_NOW, SNUFF_AT, SNUFF_CLEAR, SNUFF_DUMP and SNUFF_RELEASE check their conditions; a loop-back
checks its arguments and times out; and each instruction of the test port shifts its own register and changes only what it
drives.
Completion, with nothing outside its frame changed: on every operand in every state snuffInN, snuffCut, stopAck,
snuffClearApply, snuffNow, snuffAt, snuffClear, snuffRelease, loopRun, snuffDump, loopTimeout, bypass, idcode, extest,
samplePreload, snuffScan, funnelRead, snuffReq, kxAccess each answer a next state. -/
def Obligations.SnuffCutsClearsAndScans : Prop :=
  (∀ (low : Bool) (s : State), ∃ t, exec (.snuffInN low) s = .next t ∧ s.onlyChanges t [.out, .xfers, .lines, .inj, .snuff, .power, .bpwr, .cmds, .word 0x08 0x104, .word 0x08 0x100, .word 0x50 0x54, .activity] ∧ t.snuff.pinLow = low ∧
    (s.bpwr.state = .run → s.dark = false → low = true → bit (s.reg snuffPage 0x40) 31 = true → s.snuff.state ≠ .cut →
      t.snuff.trigs = s.snuff.trigs ++ [{ cause := .pin, scope := s.inScopeField, init := s.node, no := none, port := none }])) ∧
  (∀ (s : State), s.snuff.order = none → s.snuff.trigs = [] →
    ∃ t, exec .snuffCut s = .next t ∧ s.onlyChanges t [.lines, .xfers, .out, .inj]) ∧
  (∀ (g : SnuffTrig) (s : State), s.snuff.order = none → firstTrig s.snuff.trigs = some g → s.snuff.state ≠ .cut →
    ∃ t, exec .snuffCut s = .next t ∧ s.onlyChanges t [.out, .xfers, .lines, .inj, .evts, .now, .snuff, .cmds, .word 0x08 0x114, .word 0x08 0x110,
        .word 0x08 0x10C, .word 0x08 0x108, .word 0x08 0x104, .word 0x08 0x100, .snap, .heldRecs,
        .hdr 0x61, .probes, .bcasts, .ports, .engines, .word 0x20 0x54, .staged, .recs, .hdr 0x58,
        .kats, .gens, .spares, .violations, .jobs, .geyser, .mbox, .ringQ, .trace, .hdr 0x60,
        .regs 0x60, .rings] ∧ t.snuff.state = .cut ∧ t.snuff.cutNo = s.snuff.cutNo + 1 ∧
      t.snuff.cause = g.cause ∧ t.snuff.scope = g.scope ∧ t.snuff.trigs = [] ∧ t.snuff.image = true) ∧
  (∀ (p n : Nat) (s : State), (s.probe p).stop.raised = (s.probe p).stop.ack →
    ∃ t, exec (.stopAck p n) s = .next t ∧ s.onlyChanges t [.lines, .xfers, .out, .inj]) ∧
  (∀ (p n : Nat) (s : State), (s.probe p).stop.raised = false → (s.probe p).stop.ack = true →
    s.chanOpen (.converter .probe p) = true →
    ∃ t, exec (.stopAck p n) s = .next t ∧ s.onlyChanges t [.out, .xfers, .lines, .inj, .probes, .snuff] ∧ (t.probe p).stop = Gate.reset ∧ t.snuff = s.snuff) ∧
  (∀ (p n : Nat) (s : State), s.present p = true → (s.probe p).stop.raised = true → (s.probe p).stop.ack = false →
    s.chanOpen (.converter .probe p) = true →
    ∃ t, exec (.stopAck p n) s = .next t ∧ s.onlyChanges t [.out, .xfers, .lines, .inj, .probes, .snuff] ∧ (t.probe p).stop.ack = true) ∧
  (∀ (t0 : FT) (s : State), s.snuff.clearAt = some t0 → s.snuff.held = [] → (s.waiters fun w => decide (w = .event 20 0)) = [] →
    ∃ t, exec .snuffClearApply s = .next t ∧ s.onlyChanges t (([.out, .xfers, .lines, .inj, .hdr 0x61, .snuff, .probes, .staged, .recs, .hdr 0x58,
        .regs 0x93, .regs 0x91, .regs 0x38, .violations, .ports, .suspects, .hdr 0x28, .hdr 0x12,
        .gens, .spares, .sinter, .chans, .regs 0x31, .word 0x40 0x54, .cmds, .trace, .hdr 0x60,
        .regs 0x60, .rings, .ringQ, .mbox, .engines, .taint, .kernels, .kats, .notices,
        .word 0x28 0xC4, .redInputs, .now, .power, .bpwr, .word 0x50 0x54, .activity, .host, .tap,
        .regs 0x08, .hdr 0x08, .evts, .grid, .bcasts] : List Part) ++ ([.word 0x40 0x50, .hdr 0x40,
        .hdr 0x10, .hdr 0x50, .word 0x50 0x5C, .pace, .clusters, .regions, .geyser, .hdr 0x18,
        .meas, .redNodes, .hdr 0x20, .word 0x20 0x5C, .hdr 0x21, .ftab, .clock, .relock, .pps,
        .tick, .tports, .word 0x40 0x6C, .svcNotices, .jobs, .waves, .word 0x02 0x58, .profiles,
        .snap, .heldRecs, .watch, .word 0x28 0x98, .cores, .rails, .word 0x20 0x54, .snaps, .mirror,
        .replicas, .drift, .hdr 0x48, .droops, .pkg, .hdr 0x30, .proxies, .links, .hdr 0x93,
        .hdr 0x91, .hdr 0x38, .verify, .linkKeys, .peers] : List Part) ++ ([.plans, .word 0x48 0x50,
        .word 0x48 0x4C, .word 0x48 0x48, .forced, .change, .latches, .token, .log, .regs 0x39,
        .hdr 0x39, .free, .rotState, .firmware, .regs 0x18] : List Part)) ∧ t.now = max s.now t0 ∧ t.snuff.clearAt = none ∧
      t.snuff.state = if s.snuff.order.isSome then .armed else .none) ∧
  (∀ (c : CmdIn) (s : State), s.takes c .firmware = true →
    (∃ t, exec (.snuffNow c) s = .next t ∧ s.onlyChanges t [.out, .xfers, .lines, .inj, .cmds, .power, .bpwr, .word 0x50 0x54, .activity, .host, .tap, .regs 0x08, .hdr 0x08, .snuff] ∧ t.waits c (.event 16 0) ∧
      t.snuff.trigs = s.snuff.trigs ++ [{ cause := .command, scope := argFld c s 0 0 2, init := s.node, no := none, port := none }]) ∧
    (∃ t, exec (.snuffAt c) s = .next t ∧ s.onlyChanges t [.out, .xfers, .lines, .inj, .cmds, .power, .bpwr, .word 0x50 0x54, .activity, .host, .tap,
        .regs 0x08, .hdr 0x08, .bcasts, .word 0x40 0x50, .hdr 0x40, .mbox, .snuff, .evts, .hdr 0x61] ∧
      (if s.scopeRoot (argFld c s 0 0 2) = false then t.ended c stError 1 ∧ t.svc = s.svc
       else if argFT c s 1 < s.now + 10 * us then t.ended c stError 2 ∧ t.svc = s.svc
       else if 32 ≤ s.time.evts.length then t.ended c stError 0x21 ∧ t.svc = s.svc
       else t.waits c (.event 15 ((s.hdr svcPage).incarn ++ s.svc.count).toNat))) ∧
    (∃ t, exec (.snuffClear c) s = .next t ∧ s.onlyChanges t [.out, .xfers, .lines, .inj, .cmds, .power, .bpwr, .word 0x50 0x54, .activity, .host, .tap,
        .regs 0x08, .hdr 0x08, .bcasts, .word 0x40 0x50, .hdr 0x40, .mbox, .snuff, .evts, .hdr 0x61] ∧ t.ended c stError 8 ∧ t.snuff = s.snuff) ∧
    (∃ t, exec (.snuffRelease c) s = .next t ∧ s.onlyChanges t [.out, .xfers, .lines, .inj, .cmds, .power, .bpwr, .word 0x50 0x54, .activity, .host, .tap, .regs 0x08, .hdr 0x08, .snuff] ∧ t.ended c stOk 0 ∧
      t.snuff = { s.snuff with image := false, stops := [], egress := [], pause := [], log := [], logUsed := 0 }) ∧
    (∃ t, exec (.loopRun c) s = .next t ∧ s.onlyChanges t (([.out, .xfers, .lines, .inj, .cmds, .power, .bpwr, .word 0x50 0x54, .activity, .host,
        .tap, .regs 0x08, .hdr 0x08, .free, .probes, .sinter, .mbox, .regs 0x93, .regs 0x91,
        .regs 0x38, .proxies, .ports, .chans, .links, .pkg, .hdr 0x93, .hdr 0x91, .hdr 0x38,
        .mirror, .gens, .jobs, .verify, .ringQ, .word 0x40 0x6C, .svcNotices, .hdr 0x40, .redNodes,
        .hdr 0x18, .staged, .recs, .hdr 0x58, .tports, .evts, .clock, .relock, .hdr 0x30, .pps,
        .pace, .violations, .suspects] : List Part) ++ ([.hdr 0x28, .hdr 0x12, .spares, .linkKeys,
        .hdr 0x50, .word 0x50 0x5C, .peers, .snuff, .plans, .clusters, .watch, .bcasts,
        .regs 0x18] : List Part)) ∧
      ((argW c s 1).toNat = 0 ∨ 2 ^ 24 < (argW c s 1).toNat ∨ argFld c s 2 0 11 < 32 ∨ 1056 < argFld c s 2 0 11 ∨
        5 < argFld c s 2 12 4 ∨ 7 < argFld c s 0 28 4 → t.ended c stBadArg 0 ∧ t.samp = s.samp))) ∧
  (∀ (c : CmdIn) (s : State), s.takes c .operator = true →
    ∃ t, exec (.snuffDump c) s = .next t ∧ s.onlyChanges t [.out, .xfers, .lines, .inj, .cmds, .power, .bpwr, .word 0x50 0x54, .activity, .host, .tap, .regs 0x08, .hdr 0x08, .snuff] ∧
      (if arg64 c s 0 % 64 ≠ 0 then t.ended c stBadArg 0
       else if s.snuff.image = false then t.ended c stError 8
       else t.ended c stError 7 ∨ (t.cmd c.pkg c.page.toNat).busy = true)) ∧
  (∀ (pkg : Bool) (page : BitVec 3) (p : Nat) (s : State), (s.cmd pkg page.toNat).busy = true → (s.cmd pkg page.toNat).wait = .event 19 p →
    ∃ t, exec (.loopTimeout pkg page) s = .next t ∧ s.onlyChanges t [.out, .xfers, .lines, .inj, .cmds, .ports] ∧ (t.cmd pkg page.toNat).busy = false ∧
      (t.cmd pkg page.toNat).status = stTimeout) ∧
  (∀ (shift pins : List Bool) (s : State), s.tapOff = false →
    (∃ t, exec (.bypass shift) s = .next t ∧ s.onlyChanges t [.lines, .xfers, .out, .inj] ∧
      .tdo shift.length (bitsNat ((false :: shift).take shift.length)) ∈ t.out) ∧
    (∃ t, exec .idcode s = .next t ∧ s.onlyChanges t [.lines, .xfers, .out, .inj] ∧ .tdo 32 s.idcode ∈ t.out) ∧
    (s.isDie = false → s.bpwr.state ≠ .ember →
      (∃ t, exec (.extest shift pins) s = .next t ∧ s.onlyChanges t [.tap, .lines, .xfers, .out, .inj] ∧
        (let cap := (pins ++ List.replicate boundaryCells false).take boundaryCells
         t.tap = { s.tap with cells := (cap ++ shift).drop shift.length, drive := true } ∧
         .tdo shift.length (bitsNat ((cap ++ shift).take shift.length)) ∈ t.out)) ∧
      ∃ t, exec (.samplePreload shift pins) s = .next t ∧ s.onlyChanges t [.tap, .lines, .xfers, .out, .inj] ∧
        let cap := (pins ++ List.replicate boundaryCells false).take boundaryCells
        t.tap = { s.tap with cells := (cap ++ shift).drop shift.length, drive := false } ∧
        .tdo shift.length (bitsNat ((cap ++ shift).take shift.length)) ∈ t.out)) ∧
  (∀ (s : State), s.tapActs = true →
    (∃ t, exec (.snuffScan true) s = .next t ∧ s.onlyChanges t [.tap, .lines, .xfers, .out, .inj] ∧ t.tap.scan = 0) ∧
    (∃ t, exec (.snuffScan false) s = .next t ∧ s.onlyChanges t [.tap, .lines, .xfers, .out, .inj] ∧ t.tap.scan = s.tap.scan + 1) ∧
    (∃ t, exec (.funnelRead true) s = .next t ∧ s.onlyChanges t [.tap, .lines, .xfers, .out, .inj] ∧ t.tap.funnel = 0) ∧
    (∃ t, exec (.funnelRead false) s = .next t ∧ s.onlyChanges t [.tap, .lines, .xfers, .out, .inj] ∧ t.tap.funnel = s.tap.funnel + 1) ∧
    (∃ t, exec (.snuffReq true) s = .next t ∧ s.onlyChanges t [.out, .xfers, .lines, .inj, .snuff] ∧ (s.snuff.state ≠ .cut → t.snuff.trigs = s.snuff.trigs ++
      [{ cause := .tap, scope := s.inScopeField, init := s.node, no := none, port := none }])) ∧
    ∀ dr : BitVec 60, bit dr 59 = false →
      ∃ t, exec (.kxAccess dr) s = .next t ∧ s.onlyChanges t [.lines, .xfers, .out, .inj] ∧
        .tdo 60 (s.tapShows.1.code * 2 ^ 58 + s.tapShows.2.toNat) ∈ t.out) ∧
  (∀ (s : State),
    (∃ t, exec .snuffCut s = .next t ∧ s.onlyChanges t [.out, .xfers, .lines, .inj, .evts, .now, .snuff, .cmds, .word 0x08 0x114, .word 0x08 0x110,
        .word 0x08 0x10C, .word 0x08 0x108, .word 0x08 0x104, .word 0x08 0x100, .snap, .heldRecs,
        .hdr 0x61, .probes, .bcasts, .ports, .engines, .word 0x20 0x54, .staged, .recs, .hdr 0x58,
        .kats, .gens, .spares, .violations, .jobs, .geyser, .mbox, .ringQ, .trace, .hdr 0x60,
        .regs 0x60, .rings]) ∧
    (∃ t, exec .snuffClearApply s = .next t ∧ s.onlyChanges t (([.out, .xfers, .lines, .inj, .hdr 0x61, .snuff, .probes, .staged, .recs, .hdr 0x58,
        .regs 0x93, .regs 0x91, .regs 0x38, .violations, .ports, .suspects, .hdr 0x28, .hdr 0x12,
        .gens, .spares, .sinter, .chans, .regs 0x31, .word 0x40 0x54, .cmds, .trace, .hdr 0x60,
        .regs 0x60, .rings, .ringQ, .mbox, .engines, .taint, .kernels, .kats, .notices,
        .word 0x28 0xC4, .redInputs, .now, .power, .bpwr, .word 0x50 0x54, .activity, .host, .tap,
        .regs 0x08, .hdr 0x08, .evts, .grid, .bcasts] : List Part) ++ ([.word 0x40 0x50, .hdr 0x40,
        .hdr 0x10, .hdr 0x50, .word 0x50 0x5C, .pace, .clusters, .regions, .geyser, .hdr 0x18,
        .meas, .redNodes, .hdr 0x20, .word 0x20 0x5C, .hdr 0x21, .ftab, .clock, .relock, .pps,
        .tick, .tports, .word 0x40 0x6C, .svcNotices, .jobs, .waves, .word 0x02 0x58, .profiles,
        .snap, .heldRecs, .watch, .word 0x28 0x98, .cores, .rails, .word 0x20 0x54, .snaps, .mirror,
        .replicas, .drift, .hdr 0x48, .droops, .pkg, .hdr 0x30, .proxies, .links, .hdr 0x93,
        .hdr 0x91, .hdr 0x38, .verify, .linkKeys, .peers] : List Part) ++ ([.plans, .word 0x48 0x50,
        .word 0x48 0x4C, .word 0x48 0x48, .forced, .change, .latches, .token, .log, .regs 0x39,
        .hdr 0x39, .free, .rotState, .firmware, .regs 0x18] : List Part))) ∧
    (∃ t, exec .idcode s = .next t ∧ s.onlyChanges t [.out, .xfers, .lines, .inj])) ∧
  (∀ (probe edges : Nat) (s : State),
    ∃ t, exec (.stopAck probe edges) s = .next t ∧ s.onlyChanges t [.out, .xfers, .lines, .inj, .probes, .snuff]) ∧
  (∀ (c : CmdIn) (s : State),
    (∃ t, exec (.snuffNow c) s = .next t ∧ s.onlyChanges t [.out, .xfers, .lines, .inj, .cmds, .power, .bpwr, .word 0x50 0x54, .activity, .host, .tap, .regs 0x08, .hdr 0x08, .snuff]) ∧
    (∃ t, exec (.snuffAt c) s = .next t ∧ s.onlyChanges t [.out, .xfers, .lines, .inj, .cmds, .power, .bpwr, .word 0x50 0x54, .activity, .host, .tap,
        .regs 0x08, .hdr 0x08, .bcasts, .word 0x40 0x50, .hdr 0x40, .mbox, .snuff, .evts, .hdr 0x61]) ∧
    (∃ t, exec (.snuffClear c) s = .next t ∧ s.onlyChanges t [.out, .xfers, .lines, .inj, .cmds, .power, .bpwr, .word 0x50 0x54, .activity, .host, .tap,
        .regs 0x08, .hdr 0x08, .bcasts, .word 0x40 0x50, .hdr 0x40, .mbox, .snuff, .evts, .hdr 0x61]) ∧
    (∃ t, exec (.snuffRelease c) s = .next t ∧ s.onlyChanges t [.out, .xfers, .lines, .inj, .cmds, .power, .bpwr, .word 0x50 0x54, .activity, .host, .tap, .regs 0x08, .hdr 0x08, .snuff]) ∧
    (∃ t, exec (.loopRun c) s = .next t ∧ s.onlyChanges t (([.out, .xfers, .lines, .inj, .cmds, .power, .bpwr, .word 0x50 0x54, .activity, .host,
        .tap, .regs 0x08, .hdr 0x08, .free, .probes, .sinter, .mbox, .regs 0x93, .regs 0x91,
        .regs 0x38, .proxies, .ports, .chans, .links, .pkg, .hdr 0x93, .hdr 0x91, .hdr 0x38,
        .mirror, .gens, .jobs, .verify, .ringQ, .word 0x40 0x6C, .svcNotices, .hdr 0x40, .redNodes,
        .hdr 0x18, .staged, .recs, .hdr 0x58, .tports, .evts, .clock, .relock, .hdr 0x30, .pps,
        .pace, .violations, .suspects] : List Part) ++ ([.hdr 0x28, .hdr 0x12, .spares, .linkKeys,
        .hdr 0x50, .word 0x50 0x5C, .peers, .snuff, .plans, .clusters, .watch, .bcasts,
        .regs 0x18] : List Part))) ∧
    (∃ t, exec (.snuffDump c) s = .next t ∧ s.onlyChanges t [.out, .xfers, .lines, .inj, .cmds, .power, .bpwr, .word 0x50 0x54, .activity, .host, .tap, .regs 0x08, .hdr 0x08, .snuff])) ∧
  (∀ (pkg : Bool) (page : BitVec 3) (s : State),
    ∃ t, exec (.loopTimeout pkg page) s = .next t ∧ s.onlyChanges t [.out, .xfers, .lines, .inj, .cmds, .ports]) ∧
  (∀ (shift : List Bool) (s : State),
    ∃ t, exec (.bypass shift) s = .next t ∧ s.onlyChanges t [.out, .xfers, .lines, .inj]) ∧
  (∀ (shift pins : List Bool) (s : State),
    (∃ t, exec (.extest shift pins) s = .next t ∧ s.onlyChanges t [.out, .xfers, .lines, .inj, .tap]) ∧
    (∃ t, exec (.samplePreload shift pins) s = .next t ∧ s.onlyChanges t [.out, .xfers, .lines, .inj, .tap])) ∧
  (∀ (restart : Bool) (s : State),
    (∃ t, exec (.snuffScan restart) s = .next t ∧ s.onlyChanges t [.out, .xfers, .lines, .inj, .tap]) ∧
    (∃ t, exec (.funnelRead restart) s = .next t ∧ s.onlyChanges t [.out, .xfers, .lines, .inj, .tap])) ∧
  (∀ (v : Bool) (s : State),
    ∃ t, exec (.snuffReq v) s = .next t ∧ s.onlyChanges t [.out, .xfers, .lines, .inj, .snuff]) ∧
  (∀ (dr : BitVec 60) (s : State),
    ∃ t, exec (.kxAccess dr) s = .next t ∧ s.onlyChanges t (([.out, .xfers, .lines, .inj, .allHdrs, .power, .bpwr, .cmds, .activity, .staged, .recs,
        .snap, .heldRecs, .host, .tap, .evts, .grid, .bcasts, .mbox, .probes, .pace, .clusters,
        .violations, .ports, .suspects, .gens, .spares, .regions, .geyser, .ringQ, .meas, .redNodes,
        .engines, .ftab, .kernels, .notices, .kats, .taint, .clock, .relock, .pps, .now, .tick,
        .tports, .svcNotices, .jobs, .waves, .snuff, .profiles,
        .watch] : List Part) ++ ([.redInputs, .cores, .rails, .snaps, .mirror, .replicas, .drift,
        .droops, .pkg, .rings, .sinter, .proxies, .chans, .links, .verify, .linkKeys, .peers,
        .plans, .forced, .change, .trace, .latches, .token, .log, .free, .rotState, .firmware,
        .allRegs, .tables, .rotOrders] : List Part)))


/-! ### The root of trust (R484 to R506) -/

/-- R484 to R496, R499, R504, R506: the ROM starts the firmware or enters RECOVERY; the oldest submitted item is measured; a kept copy
that hashes otherwise is discarded as MISMATCH; firmware that hashes otherwise, and a write of KX_ROT_CTRL.RESET, order the
RoT's reset; an idle session and an unused share are erased; and the commands of class 0x68 check their lengths and the
commit window.
Completion, with nothing outside its frame changed: on every operand in every state rotBoot, measureDone, rehash,
firmwareRehash, rotCtrlReset, sessionTimeout, shareExpire, spdmXfer, fwStage, fwCommit, fwAbort each answer a next state. -/
def Obligations.RotBootsMeasuresAndCommits : Prop :=
  (∀ (b : BootIn) (s : State),
    (s.rot.state ≠ .boot → ∃ t, exec (.rotBoot b) s = .next t ∧ s.onlyChanges t [.lines, .xfers, .out, .inj]) ∧
    (s.rot.state = .boot → ∃ t, exec (.rotBoot b) s = .next t ∧ s.onlyChanges t [.out, .xfers, .lines, .inj, .rotState, .staged, .recs, .hdr 0x58, .free, .keys, .firmware, .gens, .meas, .hdr 0x68] ∧ (t.rot.state = .run ∨ t.rot.state = .recovery) ∧
      (b.jedec = 0 ∨ b.jedec = 0xFFFFFF ∨ b.helperOk = false ∨ b.badBlock.isSome = true → t.rot.state = .recovery))) ∧
  (∀ (q : MeasReq) (rest : List MeasReq) (s : State), s.rot.state ≠ .boot → s.rot.queue = q :: rest →
    ∃ t, exec .measureDone s = .next t ∧ s.onlyChanges t [.out, .xfers, .lines, .inj, .gens, .meas, .cmds] ∧ t.rot.queue = rest ∧
      t.meas q.item = { status := .measured, digest := s.itemDigest q } ∧ (∀ i, i ≠ q.item → t.meas i = s.meas i) ∧
      t.rot.measGen = if s.meas q.item = { status := .measured, digest := s.itemDigest q } then s.rot.measGen else s.rot.measGen + 1) ∧
  (∀ (i : Nat) (rest : List Nat) (d : List Byte) (s : State), s.rot.rehash = i :: rest →
    ∃ t, exec (.rehash d) s = .next t ∧ s.onlyChanges t [.out, .xfers, .lines, .inj, .hdr 0x68, .meas, .staged, .recs, .hdr 0x58, .gens, .redNodes, .ftab, .engines, .kernels] ∧ t.rot.rehash = rest ∧
      t.meas i = (if (s.meas i).digest = d then { s.meas i with status := .measured } else { status := .mismatch, digest := [] })) ∧
  (∀ (same : Bool) (s : State), s.rot.state ≠ .boot → s.rot.fwAt + 1000 * ms ≤ s.now →
    ∃ t, exec (.firmwareRehash same) s = .next t ∧ s.onlyChanges t [.out, .xfers, .lines, .inj, .firmware, .mbox, .staged, .recs, .hdr 0x58, .rotOrders] ∧ t.rot.fwAt = s.now ∧
      t.rot.resetDue = if same = true ∨ s.rot.resetDue.isSome = true then s.rot.resetDue else some 4) ∧
  (∀ (a : Access) (s : State), s.mayWrite a rotPage 0x58 → (s.hdr rotPage).guard = none →
    ∃ t, exec (.rotCtrlReset a) s = .next t ∧ s.answered t a.req .ok 0 ∧
      t.rot.resetDue = if bit a.data 0 = false ∨ s.rot.resetDue.isSome = true then s.rot.resetDue else some 2) ∧
  (∀ (id : Word) (e : Session) (s : State), s.session id = some e →
    (e.last + 120000 * ms ≤ s.now → ∃ t, exec (.sessionTimeout id) s = .next t ∧ s.onlyChanges t [.out, .xfers, .lines, .inj, .spdm] ∧ t.session id = none) ∧
    (s.now < e.last + 120000 * ms → ∃ t, exec (.sessionTimeout id) s = .next t ∧ s.onlyChanges t [.lines, .xfers, .out, .inj])) ∧
  (∀ (p : Nat) (x : Share) (s : State), s.share p = some x →
    (x.at' + 1000 * ms ≤ s.now → ∃ t, exec (.shareExpire p) s = .next t ∧ s.onlyChanges t [.out, .xfers, .lines, .inj, .linkKeys] ∧ t.share p = none ∧
      ∀ q, q ≠ p → t.share q = s.share q) ∧
    (s.now < x.at' + 1000 * ms → ∃ t, exec (.shareExpire p) s = .next t ∧ s.onlyChanges t [.lines, .xfers, .out, .inj])) ∧
  (∀ (c : CmdIn) (s : State), s.takes c .operator = true →
    ∃ t, exec (.spdmXfer c) s = .next t ∧ s.onlyChanges t [.out, .xfers, .lines, .inj, .cmds, .power, .bpwr, .word 0x50 0x54, .activity, .host, .tap, .regs 0x08, .hdr 0x08] ∧
      (if (argW c s 2).toNat = 0 then t.ended c stBadArg 0
       else if 4096 < (argW c s 2).toNat then t.ended c stError rtTooLarge
       else (t.cmd c.pkg c.page.toNat).busy = true)) ∧
  (∀ (c : CmdIn) (s : State), s.takes c .firmware = true →
    (∃ t, exec (.fwStage c) s = .next t ∧ s.onlyChanges t [.out, .xfers, .lines, .inj, .cmds, .power, .bpwr, .word 0x50 0x54, .activity, .host, .tap, .regs 0x08, .hdr 0x08] ∧
      (if s.rot.state = .commit then t.ended c stError rtInCommit
       else if 1048576 < (argW c s 2).toNat then t.ended c stError rtTooLarge
       else if (argW c s 2).toNat = 0 then t.ended c stError rtBadImage
       else (t.cmd c.pkg c.page.toNat).busy = true)) ∧
    (∃ t, exec (.fwCommit c) s = .next t ∧ s.onlyChanges t [.out, .xfers, .lines, .inj, .cmds, .power, .bpwr, .word 0x50 0x54, .activity, .host, .tap,
        .regs 0x08, .hdr 0x08, .rotState, .firmware] ∧
      (if s.rot.state = .commit then t.ended c stError rtInCommit
       else if s.rot.staged = none then t.ended c stError rtNotStaged ∧ t.rot.state = s.rot.state
       else t.waits c (.event 22 0) ∧ t.rot.state = .commit)) ∧
    (∃ t, exec (.fwAbort c) s = .next t ∧ s.onlyChanges t [.out, .xfers, .lines, .inj, .cmds, .power, .bpwr, .word 0x50 0x54, .activity, .host, .tap,
        .regs 0x08, .hdr 0x08, .meas, .firmware] ∧
      (if s.rot.state = .commit ∨ s.rot.committed = true then t.ended c stError rtInCommit ∧ t.rot.staged = s.rot.staged
       else if s.rot.staged = none then t.ended c stError rtNotStaged
       else t.ended c stOk 0 ∧ t.rot.staged = none))) ∧
  (∀ (b : BootIn) (s : State),
    ∃ t, exec (.rotBoot b) s = .next t ∧ s.onlyChanges t [.out, .xfers, .lines, .inj, .rotState, .staged, .recs, .hdr 0x58, .free, .keys, .firmware, .gens, .meas, .hdr 0x68]) ∧
  (∀ (s : State),
    ∃ t, exec .measureDone s = .next t ∧ s.onlyChanges t [.out, .xfers, .lines, .inj, .gens, .meas, .cmds]) ∧
  (∀ (digest : List Byte) (s : State),
    ∃ t, exec (.rehash digest) s = .next t ∧ s.onlyChanges t [.out, .xfers, .lines, .inj, .hdr 0x68, .meas, .staged, .recs, .hdr 0x58, .gens, .redNodes, .ftab, .engines, .kernels]) ∧
  (∀ (same : Bool) (s : State),
    ∃ t, exec (.firmwareRehash same) s = .next t ∧ s.onlyChanges t [.out, .xfers, .lines, .inj, .firmware, .mbox, .staged, .recs, .hdr 0x58, .rotOrders]) ∧
  (∀ (a : Access) (s : State),
    ∃ t, exec (.rotCtrlReset a) s = .next t ∧ s.onlyChanges t (([.out, .xfers, .lines, .inj, .allHdrs, .power, .bpwr, .cmds, .activity, .staged, .recs,
        .snap, .heldRecs, .host, .tap, .evts, .grid, .bcasts, .mbox, .probes, .pace, .clusters,
        .violations, .ports, .suspects, .gens, .spares, .regions, .geyser, .ringQ, .meas, .redNodes,
        .engines, .ftab, .kernels, .notices, .kats, .taint, .clock, .relock, .pps, .now, .tick,
        .tports, .svcNotices, .jobs, .waves, .snuff, .profiles,
        .watch] : List Part) ++ ([.redInputs, .cores, .rails, .snaps, .mirror, .replicas, .drift,
        .droops, .pkg, .rings, .sinter, .proxies, .chans, .links, .verify, .linkKeys, .peers,
        .plans, .forced, .change, .trace, .latches, .token, .log, .free, .rotState, .firmware,
        .allRegs, .tables, .rotOrders] : List Part))) ∧
  (∀ (id : Word) (s : State),
    ∃ t, exec (.sessionTimeout id) s = .next t ∧ s.onlyChanges t [.out, .xfers, .lines, .inj, .spdm]) ∧
  (∀ (port : Nat) (s : State),
    ∃ t, exec (.shareExpire port) s = .next t ∧ s.onlyChanges t [.out, .xfers, .lines, .inj, .linkKeys]) ∧
  (∀ (c : CmdIn) (s : State),
    (∃ t, exec (.spdmXfer c) s = .next t ∧ s.onlyChanges t [.out, .xfers, .lines, .inj, .cmds, .power, .bpwr, .word 0x50 0x54, .activity, .host, .tap, .regs 0x08, .hdr 0x08]) ∧
    (∃ t, exec (.fwStage c) s = .next t ∧ s.onlyChanges t [.out, .xfers, .lines, .inj, .cmds, .power, .bpwr, .word 0x50 0x54, .activity, .host, .tap, .regs 0x08, .hdr 0x08]) ∧
    (∃ t, exec (.fwCommit c) s = .next t ∧ s.onlyChanges t [.out, .xfers, .lines, .inj, .cmds, .power, .bpwr, .word 0x50 0x54, .activity, .host, .tap,
        .regs 0x08, .hdr 0x08, .rotState, .firmware]) ∧
    (∃ t, exec (.fwAbort c) s = .next t ∧ s.onlyChanges t [.out, .xfers, .lines, .inj, .cmds, .power, .bpwr, .word 0x50 0x54, .activity, .host, .tap,
        .regs 0x08, .hdr 0x08, .meas, .firmware]))

/-- R490 to R502: outside a session GET_VERSION, GET_CAPABILITIES, NEGOTIATE_ALGORITHMS, GET_DIGESTS, GET_CERTIFICATE and CHALLENGE
are answered, and during the commit window a measured request is deferred under a token; FINISH with a root that is not the
OWNER's ends the session; a key update takes new keys and END_SESSION forgets the session; a vendor request acts only in a
session that is mutually authenticated.
Completion, with nothing outside its frame changed: on every operand in every state getVersion, getCapabilities,
negotiateAlgorithms, getDigests, getCertificate, challenge, getMeasurements, keyExchange, respondIfReady, finish,
spdmHeartbeat, keyUpdate, endSession, regAccess, linkShare, linkArm, linkInstall, traceToken each answer a next state. -/
def Obligations.SpdmRequestsAreAnswered : Prop :=
  (∀ (m : SpdmIn) (s : State), s.spdmHolds m = true → m.session = none →
    (∃ t, exec (.getVersion m) s = .next t ∧ s.onlyChanges t [.out, .xfers, .lines, .inj, .spdm, .cmds] ∧ .spdm none (.version [0x13]) ∈ t.out) ∧
    (∃ t, exec (.getCapabilities m) s = .next t ∧ s.onlyChanges t [.out, .xfers, .lines, .inj, .spdm, .cmds] ∧ .spdm none (.capabilities spdmFlags 11 4096 4096) ∈ t.out) ∧
    (∃ t, exec (.negotiateAlgorithms m) s = .next t ∧ s.onlyChanges t [.out, .xfers, .lines, .inj, .spdm, .cmds] ∧
      .spdm none (.algorithms 0x80 0x80 0x02 0x04 0x10 0x02 0x01 0x01) ∈ t.out) ∧
    (∃ t, exec (.getDigests m) s = .next t ∧ s.onlyChanges t [.out, .xfers, .lines, .inj, .spdm, .cmds] ∧ .spdm none (.digests 1 (sha384 s.certChain)) ∈ t.out) ∧
    (∀ slot off len, ∃ t, exec (.getCertificate m slot off len) s = .next t ∧ s.onlyChanges t [.out, .xfers, .lines, .inj, .spdm, .cmds] ∧
      .spdm none (if slot ≠ 0 then .error .invalidRequest else .certificate 0 ((s.certChain.drop off).take len)
        (s.certChain.length - off - ((s.certChain.drop off).take len).length)) ∈ t.out) ∧
    (∀ slot, ∃ t, exec (.challenge m slot) s = .next t ∧ s.onlyChanges t [.out, .xfers, .lines, .inj, .spdm, .cmds, .free] ∧
      (if s.rot.state = .commit then t.rot.deferrals = s.rot.deferrals + 1 ∧
          t.rot.deferred = some (BitVec.ofNat 8 s.rot.deferrals, none, .challenge slot) ∧
          .spdm none (.error (.responseNotReady 12 2 (BitVec.ofNat 8 s.rot.deferrals))) ∈ t.out
       else if slot ≠ 0 then .spdm none (.error .invalidRequest) ∈ t.out
       else ∃ b r g, .spdm none (.challengeAuth 0 b r g) ∈ t.out)) ∧
    (∀ op, s.rot.state ≠ .commit → ∃ t, exec (.getMeasurements m op false) s = .next t ∧ s.onlyChanges t [.out, .xfers, .lines, .inj, .spdm, .cmds, .free] ∧
      (match s.askedBlocks op with
       | none => .spdm none (.error .invalidRequest) ∈ t.out
       | some bs => .spdm none (.measurements (s.measIndices.length + 1) bs []) ∈ t.out)) ∧
    (∀ reqId point, s.rot.state ≠ .commit → s.sessionCount < 4 →
      ∃ t, exec (.keyExchange m reqId point) s = .next t ∧ s.onlyChanges t [.out, .xfers, .lines, .inj, .spdm, .cmds, .free] ∧
        ∀ secret, ecdh ((s.draw 384).1.toNat % (p384N - 1) + 1) point = some secret → t.rot.exchanges = s.rot.exchanges + 1 ∧
          (t.session (word (reqId.toNat + 2 ^ 16 * (s.rot.exchanges % 2 ^ 16)))).map (·.secret) = some secret) ∧
    (∀ token, s.rot.deferred = none → ∃ t, exec (.respondIfReady m token) s = .next t ∧ s.onlyChanges t [.out, .xfers, .lines, .inj, .spdm, .cmds, .free] ∧
      .spdm none (.error .requestResynch) ∈ t.out) ∧
    (∀ token slot, s.rot.deferred = some (token, none, .challenge slot) → s.rot.state ≠ .commit →
      ∃ t, exec (.respondIfReady m token) s = .next t ∧ s.onlyChanges t [.out, .xfers, .lines, .inj, .spdm, .cmds, .free] ∧ t.rot.deferred = none)) ∧
  (∀ (m : SpdmIn) (id : Word) (e : Session) (s : State), s.spdmHolds m = true → m.session = some id → s.session id = some e →
    (∀ root good, e.done = false → ∃ t, exec (.finish m root good) s = .next t ∧ s.onlyChanges t [.out, .xfers, .lines, .inj, .spdm, .cmds] ∧
      (if s.finishOk root good then (t.session id).map (·.done) = some true ∧ (t.session id).map (·.auth) = some s.owned
       else t.session id = none)) ∧
    (e.done = true →
      (∃ t, exec (.spdmHeartbeat m) s = .next t ∧ s.onlyChanges t [.out, .xfers, .lines, .inj, .spdm, .cmds] ∧ .spdm (some id) .heartbeatAck ∈ t.out ∧
        (t.session id).map (·.last) = some s.now) ∧
      (∀ op, op = 1 ∨ op = 2 → ∃ t, exec (.keyUpdate m op) s = .next t ∧ s.onlyChanges t [.out, .xfers, .lines, .inj, .spdm, .cmds] ∧
        (t.session id).map (·.keyGen) = some (e.keyGen + 1) ∧ .spdm (some id) (.keyUpdateAck op) ∈ t.out) ∧
      ∃ t, exec (.endSession m) s = .next t ∧ s.onlyChanges t [.out, .xfers, .lines, .inj, .spdm, .cmds] ∧ t.session id = none ∧ .spdm (some id) .endSessionAck ∈ t.out) ∧
    (e.done = true → e.auth = true →
      (∀ l : List RegEntry, l ≠ [] → l.length ≤ 32 → ∃ t, exec (.regAccess m l) s = .next t ∧ s.onlyChanges t (([.out, .xfers, .lines, .inj, .spdm, .cmds, .allHdrs, .staged, .recs, .snap, .heldRecs,
        .power, .bpwr, .activity, .host, .tap, .evts, .grid, .bcasts, .mbox, .probes, .pace,
        .clusters, .violations, .ports, .suspects, .gens, .spares, .regions, .geyser, .ringQ, .meas,
        .redNodes, .engines, .ftab, .kernels, .notices, .kats, .taint, .clock, .relock, .pps, .now,
        .tick, .tports, .svcNotices, .jobs, .waves, .snuff, .profiles] : List Part) ++ ([.watch,
        .redInputs, .cores, .rails, .snaps, .mirror, .replicas, .drift, .droops, .pkg, .rings,
        .sinter, .proxies, .chans, .links, .verify, .linkKeys, .peers, .plans, .forced, .change,
        .trace, .latches, .token, .log, .free, .rotState, .firmware, .allRegs, .tables,
        .rotOrders] : List Part)) ∧
        ∃ b, .spdm (some id) (.vendor (0 :: b)) ∈ t.out) ∧
      (∀ port, s.portStatus port = none →
        (∃ t, exec (.linkShare m port) s = .next t ∧ s.onlyChanges t [.out, .xfers, .lines, .inj, .spdm, .cmds, .hdr 0x68, .free, .linkKeys] ∧ (t.share port).map (·.at') = some s.now ∧
          ∀ q, q ≠ port → t.share q = s.share q) ∧
        (∀ k, Tab.read noAgreed s.rot.agreed port = some k → (s.chan port).rxKey.isSome →
          ∃ t, exec (.linkArm m port) s = .next t ∧ s.onlyChanges t [.out, .xfers, .lines, .inj, .spdm, .cmds, .hdr 0x68, .chans] ∧
            t.chan port = { s.chan port with armed := true, txKey := some { key := k.key, salt := k.salt, ctr := 0 } } ∧
            .spdm (some id) (.vendor [0]) ∈ t.out) ∧
        (∀ share chain x, s.share port = some x →
          ∃ t, exec (.linkInstall m port share chain) s = .next t ∧ s.onlyChanges t [.out, .xfers, .lines, .inj, .spdm, .cmds, .hdr 0x68, .linkKeys, .chans] ∧
            (if shareGood share chain = true ∧ leAt share 0 2 = (s.port port).peer.toNat ∧ leAt share 2 2 = s.node.toNat ∧
                (ecdh x.priv (slice share 8 97)).isSome then t.share port = none ∧
               (t.chan port).rxKey.isSome ∧ (Tab.read noAgreed t.rot.agreed port).isSome ∧ .spdm (some id) (.vendor [0]) ∈ t.out
             else t.share port = s.share port ∧ t.chan port = s.chan port))) ∧
      (∀ src dst till, ∃ t, exec (.traceToken m src dst till) s = .next t ∧ s.onlyChanges t [.out, .xfers, .lines, .inj, .spdm, .cmds, .hdr 0x68, .keys] ∧ t.rot.tokens = s.rot.tokens + 1 ∧
        ∃ b, .spdm (some id) (.vendor (0 :: b)) ∈ t.out)) ∧
    (e.done = false ∨ e.auth = false →
      (∀ l, ∃ t, exec (.regAccess m l) s = .next t ∧ .spdm (some id) (.error .unsupportedRequest) ∈ t.out) ∧
      (∀ p, ∃ t, exec (.linkShare m p) s = .next t ∧ t.share p = s.share p ∧ .spdm (some id) (.error .unsupportedRequest) ∈ t.out) ∧
      ∀ p, ∃ t, exec (.linkArm m p) s = .next t ∧ t.chan p = s.chan p ∧ .spdm (some id) (.error .unsupportedRequest) ∈ t.out)) ∧
  (∀ (m : SpdmIn) (s : State),
    (∃ t, exec (.getVersion m) s = .next t ∧ s.onlyChanges t [.out, .xfers, .lines, .inj, .spdm, .cmds]) ∧
    (∃ t, exec (.getCapabilities m) s = .next t ∧ s.onlyChanges t [.out, .xfers, .lines, .inj, .spdm, .cmds]) ∧
    (∃ t, exec (.negotiateAlgorithms m) s = .next t ∧ s.onlyChanges t [.out, .xfers, .lines, .inj, .spdm, .cmds]) ∧
    (∃ t, exec (.getDigests m) s = .next t ∧ s.onlyChanges t [.out, .xfers, .lines, .inj, .spdm, .cmds]) ∧
    (∃ t, exec (.spdmHeartbeat m) s = .next t ∧ s.onlyChanges t [.out, .xfers, .lines, .inj, .spdm, .cmds]) ∧
    (∃ t, exec (.endSession m) s = .next t ∧ s.onlyChanges t [.out, .xfers, .lines, .inj, .spdm, .cmds])) ∧
  (∀ (m : SpdmIn) (slot offset length : Nat) (s : State),
    ∃ t, exec (.getCertificate m slot offset length) s = .next t ∧ s.onlyChanges t [.out, .xfers, .lines, .inj, .spdm, .cmds]) ∧
  (∀ (m : SpdmIn) (slot : Nat) (s : State),
    ∃ t, exec (.challenge m slot) s = .next t ∧ s.onlyChanges t [.out, .xfers, .lines, .inj, .spdm, .cmds, .free]) ∧
  (∀ (m : SpdmIn) (op : Nat) (signed : Bool) (s : State),
    ∃ t, exec (.getMeasurements m op signed) s = .next t ∧ s.onlyChanges t [.out, .xfers, .lines, .inj, .spdm, .cmds, .free]) ∧
  (∀ (m : SpdmIn) (reqId : BitVec 16) (point : List Byte) (s : State),
    ∃ t, exec (.keyExchange m reqId point) s = .next t ∧ s.onlyChanges t [.out, .xfers, .lines, .inj, .spdm, .cmds, .free]) ∧
  (∀ (m : SpdmIn) (token : Byte) (s : State),
    ∃ t, exec (.respondIfReady m token) s = .next t ∧ s.onlyChanges t [.out, .xfers, .lines, .inj, .spdm, .cmds, .free]) ∧
  (∀ (m : SpdmIn) (root : Option (List Byte)) (good : Bool) (s : State),
    ∃ t, exec (.finish m root good) s = .next t ∧ s.onlyChanges t [.out, .xfers, .lines, .inj, .spdm, .cmds]) ∧
  (∀ (m : SpdmIn) (op : Nat) (s : State),
    ∃ t, exec (.keyUpdate m op) s = .next t ∧ s.onlyChanges t [.out, .xfers, .lines, .inj, .spdm, .cmds]) ∧
  (∀ (m : SpdmIn) (entries : List RegEntry) (s : State),
    ∃ t, exec (.regAccess m entries) s = .next t ∧ s.onlyChanges t (([.out, .xfers, .lines, .inj, .spdm, .cmds, .allHdrs, .staged, .recs, .snap, .heldRecs,
        .power, .bpwr, .activity, .host, .tap, .evts, .grid, .bcasts, .mbox, .probes, .pace,
        .clusters, .violations, .ports, .suspects, .gens, .spares, .regions, .geyser, .ringQ, .meas,
        .redNodes, .engines, .ftab, .kernels, .notices, .kats, .taint, .clock, .relock, .pps, .now,
        .tick, .tports, .svcNotices, .jobs, .waves, .snuff, .profiles] : List Part) ++ ([.watch,
        .redInputs, .cores, .rails, .snaps, .mirror, .replicas, .drift, .droops, .pkg, .rings,
        .sinter, .proxies, .chans, .links, .verify, .linkKeys, .peers, .plans, .forced, .change,
        .trace, .latches, .token, .log, .free, .rotState, .firmware, .allRegs, .tables,
        .rotOrders] : List Part))) ∧
  (∀ (m : SpdmIn) (port : Nat) (s : State),
    (∃ t, exec (.linkShare m port) s = .next t ∧ s.onlyChanges t [.out, .xfers, .lines, .inj, .spdm, .cmds, .hdr 0x68, .free, .linkKeys]) ∧
    (∃ t, exec (.linkArm m port) s = .next t ∧ s.onlyChanges t [.out, .xfers, .lines, .inj, .spdm, .cmds, .hdr 0x68, .chans])) ∧
  (∀ (m : SpdmIn) (port : Nat) (share chain : List Byte) (s : State),
    ∃ t, exec (.linkInstall m port share chain) s = .next t ∧ s.onlyChanges t [.out, .xfers, .lines, .inj, .spdm, .cmds, .hdr 0x68, .linkKeys, .chans]) ∧
  (∀ (m : SpdmIn) (sources dests : Byte) (notAfter : Nat) (s : State),
    ∃ t, exec (.traceToken m sources dests notAfter) s = .next t ∧ s.onlyChanges t [.out, .xfers, .lines, .inj, .spdm, .cmds, .hdr 0x68, .keys])

/-! ### The host and the module (R507 to R533) -/

/-- R509, R511, R523, R529 to R531: a RETRY has the request issued again 1 µs later, and a response to no request is a violation that
changes no request; the host takes its oldest response; the module's input turns it on and off at its limits, its converters'
words are kept, and its latch and its mating change its state.
Completion, with nothing outside its frame changed: on every operand in every state hostMemoryResponse, hostMemoryRetry,
hostResponseAck, moduleVin, converterPoll, presentN, ejectN each answer a next state. -/
def Obligations.HostAnswersAndModuleSignals : Prop :=
  (∀ (tag : Nat) (code : BitVec 2) (last : Bool) (d : List Byte) (s : State), s.hmTag tag = none →
    ∃ t, exec (.hostMemoryResponse tag code last d) s = .next t ∧ s.onlyChanges t [.out, .xfers, .lines, .inj, .staged, .recs, .violations, .ports, .suspects, .gens, .spares,
        .probes, .allHdrs, .cmds, .meas, .redNodes, .engines, .ftab, .sinter, .log, .plans, .mbox,
        .kernels, .allRegs, .tables, .trace, .rings, .ringQ, .geyser, .grid, .clock, .peers, .drift,
        .jobs, .cores, .rails, .rotOrders, .mirror, .token, .snuff, .spdm, .free, .firmware,
        .notices]) ∧
  (∀ (tag : Nat) (x : HmTag) (last : Bool) (d : List Byte) (s : State), s.hmTag tag = some x → x.dead = false → x.again = none →
    s.staleReply x = none → x.retries < 8 → s.chanOpen (.converter .host 1) = true →
    ∃ t, exec (.hostMemoryResponse tag 1 last d) s = .next t ∧ s.onlyChanges t [.out, .xfers, .lines, .inj, .staged, .recs, .violations, .ports, .suspects, .gens, .spares,
        .probes, .allHdrs, .cmds, .meas, .redNodes, .engines, .ftab, .sinter, .log, .plans, .mbox,
        .kernels, .allRegs, .tables, .trace, .rings, .ringQ, .geyser, .grid, .clock, .peers, .drift,
        .jobs, .cores, .rails, .rotOrders, .mirror, .token, .snuff, .spdm, .free, .firmware,
        .notices] ∧
      t.hmTag tag = some { x with retries := x.retries + 1, again := some (s.now + us), data := [], beats := 0 }) ∧
  (∀ (tag : Nat) (x : HmTag) (d : List Byte) (s : State), s.hmTag tag = some x → x.dead = false → x.again = none →
    s.staleReply x = none → x.wr = false → x.beats + 1 < hmBeats x → s.chanOpen (.converter .host 1) = true →
    ∃ t, exec (.hostMemoryResponse tag 0 false d) s = .next t ∧ s.onlyChanges t [.out, .xfers, .lines, .inj, .staged, .recs, .violations, .ports, .suspects, .gens, .spares,
        .probes, .allHdrs, .cmds, .meas, .redNodes, .engines, .ftab, .sinter, .log, .plans, .mbox,
        .kernels, .allRegs, .tables, .trace, .rings, .ringQ, .geyser, .grid, .clock, .peers, .drift,
        .jobs, .cores, .rails, .rotOrders, .mirror, .token, .snuff, .spdm, .free, .firmware,
        .notices] ∧
      t.hmTag tag = some { x with beats := x.beats + 1, data := x.data ++ padTo 32 d }) ∧
  (∀ (tag : Nat) (x : HmTag) (at' : FT) (s : State), s.hmTag tag = some x → x.again = some at' →
    ∃ t, exec (.hostMemoryRetry tag) s = .next t ∧ s.onlyChanges t [.out, .xfers, .lines, .inj, .now] ∧ t.now = max s.now at' ∧
      t.hmTag tag = some { x with again := none }) ∧
  (∀ (s : State), ∃ t, exec .hostResponseAck s = .next t ∧ s.onlyChanges t [.out, .xfers, .lines, .inj, .host] ∧
    t.pages.host.unacked = s.pages.host.unacked.drop 1) ∧
  (∀ (mv : Nat) (s : State), s.isSystem = true →
    ∃ t, exec (.moduleVin mv) s = .next t ∧ s.onlyChanges t [.out, .xfers, .lines, .inj, .board] ∧
      t.board = { s.board with vinOk := if s.board.vinOk then decide (51000 < mv ∧ mv < 84000) else decide (53000 ≤ mv ∧ mv ≤ 82000) }) ∧
  (∀ (words : List (BitVec 16)) (s : State), s.isSystem = true → s.dark = false →
    ∃ t, exec (.converterPoll words) s = .next t ∧ s.onlyChanges t [.out, .xfers, .lines, .inj, .board, .staged, .recs, .hdr 0x58, .mbox] ∧
      ∀ i, Tab.read (fun _ => (0 : BitVec 16)) t.board.status i =
        if i < 4 ∧ i < words.length then words.getD i 0 else Tab.read (fun _ => 0) s.board.status i) ∧
  (∀ (s : State), s.isSystem = true →
    (∃ t, exec (.presentN false) s = .next t ∧ s.onlyChanges t [.out, .xfers, .lines, .inj, .board] ∧ t.board = { s.board with present := false }) ∧
    (s.board.present = false → ∃ t, exec (.presentN true) s = .next t ∧ s.onlyChanges t [.out, .xfers, .lines, .inj, .board] ∧
      t.board = { s.board with present := true, ejected := false, led := .off, swap := none, offAt := none })) ∧
  (∀ (c : CmdIn) (s : State), s.isSystem = true →
    (∃ t, exec (.ejectN false c) s = .next t ∧ s.onlyChanges t [.out, .xfers, .lines, .inj, .board, .cmds, .power, .bpwr, .word 0x50 0x54, .activity,
        .host, .tap, .regs 0x08, .hdr 0x08, .links, .chans] ∧ t.board = { s.board with eject := false }) ∧
    (s.board.eject = false → ∃ t, exec (.ejectN true c) s = .next t ∧ s.onlyChanges t [.out, .xfers, .lines, .inj, .board, .cmds, .power, .bpwr, .word 0x50 0x54, .activity,
        .host, .tap, .regs 0x08, .hdr 0x08, .links, .chans] ∧ t.board.eject = true ∧
      (s.links.twin = .lost → t.board = { s.board with eject := true, led := .amber }))) ∧
  (∀ (tag : Nat) (code : BitVec 2) (last : Bool) (data : List Byte) (s : State),
    ∃ t, exec (.hostMemoryResponse tag code last data) s = .next t ∧ s.onlyChanges t [.out, .xfers, .lines, .inj, .staged, .recs, .violations, .ports, .suspects, .gens, .spares,
        .probes, .allHdrs, .cmds, .meas, .redNodes, .engines, .ftab, .sinter, .log, .plans, .mbox,
        .kernels, .allRegs, .tables, .trace, .rings, .ringQ, .geyser, .grid, .clock, .peers, .drift,
        .jobs, .cores, .rails, .rotOrders, .mirror, .token, .snuff, .spdm, .free, .firmware,
        .notices]) ∧
  (∀ (tag : Nat) (s : State),
    ∃ t, exec (.hostMemoryRetry tag) s = .next t ∧ s.onlyChanges t [.out, .xfers, .lines, .inj, .now]) ∧
  (∀ (mv : Nat) (s : State),
    ∃ t, exec (.moduleVin mv) s = .next t ∧ s.onlyChanges t [.out, .xfers, .lines, .inj, .board]) ∧
  (∀ (words : List (BitVec 16)) (s : State),
    ∃ t, exec (.converterPoll words) s = .next t ∧ s.onlyChanges t [.out, .xfers, .lines, .inj, .board, .staged, .recs, .hdr 0x58, .mbox]) ∧
  (∀ (low : Bool) (s : State),
    ∃ t, exec (.presentN low) s = .next t ∧ s.onlyChanges t [.out, .xfers, .lines, .inj, .board]) ∧
  (∀ (low : Bool) (c : CmdIn) (s : State),
    ∃ t, exec (.ejectN low c) s = .next t ∧ s.onlyChanges t [.out, .xfers, .lines, .inj, .board, .cmds, .power, .bpwr, .word 0x50 0x54, .activity,
        .host, .tap, .regs 0x08, .hdr 0x08, .links, .chans])

/-- R80, R85, R405: the model's choice, from the cut of this row: a command never stops the block. Whatever is commanded in whatever
state, the block answers a next state, whose interrupt lines hold their causes and whose queue stands; and the straps change only where RST_N is
released and where BIST ends. -/
def Obligations.NoCommandStopsTheBlock : Prop :=
  ∀ (i : Instr) (s : State), ∃ t, exec i s = .next t ∧ t.LinesHeld ∧ t.pending = s.pending ∧
    ((∀ x, i ≠ .pinResetRelease x) → (∀ x, i ≠ .bistDone x) → t.straps = s.straps)
end

