-- ==== Sys2Proof/Laws/State.lean ====
section
/-!
SUPPORT. What each update of State leaves alone, and what it puts where: one lemma for each field and update.
-/
namespace Sys2Proof.Machine

@[simp] theorem setReg_straps (s : State) (p o : Nat) (w : Word) : (s.setReg p o w).straps = s.straps := rfl
@[simp] theorem setReg_pkg (s : State) (p o : Nat) (w : Word) : (s.setReg p o w).pkg = s.pkg := rfl
@[simp] theorem setReg_pace (s : State) (p o : Nat) (w : Word) : (s.setReg p o w).pace = s.pace := rfl
@[simp] theorem setReg_samp (s : State) (p o : Nat) (w : Word) : (s.setReg p o w).samp = s.samp := rfl
@[simp] theorem setReg_reds (s : State) (p o : Nat) (w : Word) : (s.setReg p o w).reds = s.reds := rfl
@[simp] theorem setReg_forest (s : State) (p o : Nat) (w : Word) : (s.setReg p o w).forest = s.forest := rfl
@[simp] theorem setReg_check (s : State) (p o : Nat) (w : Word) : (s.setReg p o w).check = s.check := rfl
@[simp] theorem setReg_rot (s : State) (p o : Nat) (w : Word) : (s.setReg p o w).rot = s.rot := rfl
@[simp] theorem setReg_time (s : State) (p o : Nat) (w : Word) : (s.setReg p o w).time = s.time := rfl
@[simp] theorem setReg_bpwr (s : State) (p o : Nat) (w : Word) : (s.setReg p o w).bpwr = s.bpwr := rfl
@[simp] theorem setReg_trace (s : State) (p o : Nat) (w : Word) : (s.setReg p o w).trace = s.trace := rfl
@[simp] theorem setReg_snuff (s : State) (p o : Nat) (w : Word) : (s.setReg p o w).snuff = s.snuff := rfl
@[simp] theorem setReg_tap (s : State) (p o : Nat) (w : Word) : (s.setReg p o w).tap = s.tap := rfl
@[simp] theorem setReg_links (s : State) (p o : Nat) (w : Word) : (s.setReg p o w).links = s.links := rfl
@[simp] theorem setReg_sinter (s : State) (p o : Nat) (w : Word) : (s.setReg p o w).sinter = s.sinter := rfl
@[simp] theorem setReg_svc (s : State) (p o : Nat) (w : Word) : (s.setReg p o w).svc = s.svc := rfl
@[simp] theorem setReg_hpwr (s : State) (p o : Nat) (w : Word) : (s.setReg p o w).hpwr = s.hpwr := rfl
@[simp] theorem setReg_fum (s : State) (p o : Nat) (w : Word) : (s.setReg p o w).fum = s.fum := rfl
@[simp] theorem setReg_board (s : State) (p o : Nat) (w : Word) : (s.setReg p o w).board = s.board := rfl
@[simp] theorem setReg_now (s : State) (p o : Nat) (w : Word) : (s.setReg p o w).now = s.now := rfl
@[simp] theorem setReg_tick (s : State) (p o : Nat) (w : Word) : (s.setReg p o w).tick = s.tick := rfl
@[simp] theorem setReg_ticks (s : State) (p o : Nat) (w : Word) : (s.setReg p o w).ticks = s.ticks := rfl
@[simp] theorem setReg_mbox (s : State) (p o : Nat) (w : Word) : (s.setReg p o w).mbox = s.mbox := rfl
@[simp] theorem setReg_out (s : State) (p o : Nat) (w : Word) : (s.setReg p o w).out = s.out := rfl
@[simp] theorem setReg_free (s : State) (p o : Nat) (w : Word) : (s.setReg p o w).free = s.free := rfl
@[simp] theorem setReg_pending (s : State) (p o : Nat) (w : Word) : (s.setReg p o w).pending = s.pending := rfl

@[simp] theorem setRegFld_straps (s : State) (p o l n v : Nat) : (s.setRegFld p o l n v).straps = s.straps := rfl
@[simp] theorem setRegFld_pkg (s : State) (p o l n v : Nat) : (s.setRegFld p o l n v).pkg = s.pkg := rfl
@[simp] theorem setRegFld_pace (s : State) (p o l n v : Nat) : (s.setRegFld p o l n v).pace = s.pace := rfl
@[simp] theorem setRegFld_samp (s : State) (p o l n v : Nat) : (s.setRegFld p o l n v).samp = s.samp := rfl
@[simp] theorem setRegFld_reds (s : State) (p o l n v : Nat) : (s.setRegFld p o l n v).reds = s.reds := rfl
@[simp] theorem setRegFld_forest (s : State) (p o l n v : Nat) : (s.setRegFld p o l n v).forest = s.forest := rfl
@[simp] theorem setRegFld_check (s : State) (p o l n v : Nat) : (s.setRegFld p o l n v).check = s.check := rfl
@[simp] theorem setRegFld_rot (s : State) (p o l n v : Nat) : (s.setRegFld p o l n v).rot = s.rot := rfl
@[simp] theorem setRegFld_time (s : State) (p o l n v : Nat) : (s.setRegFld p o l n v).time = s.time := rfl
@[simp] theorem setRegFld_bpwr (s : State) (p o l n v : Nat) : (s.setRegFld p o l n v).bpwr = s.bpwr := rfl
@[simp] theorem setRegFld_trace (s : State) (p o l n v : Nat) : (s.setRegFld p o l n v).trace = s.trace := rfl
@[simp] theorem setRegFld_snuff (s : State) (p o l n v : Nat) : (s.setRegFld p o l n v).snuff = s.snuff := rfl
@[simp] theorem setRegFld_tap (s : State) (p o l n v : Nat) : (s.setRegFld p o l n v).tap = s.tap := rfl
@[simp] theorem setRegFld_links (s : State) (p o l n v : Nat) : (s.setRegFld p o l n v).links = s.links := rfl
@[simp] theorem setRegFld_sinter (s : State) (p o l n v : Nat) : (s.setRegFld p o l n v).sinter = s.sinter := rfl
@[simp] theorem setRegFld_svc (s : State) (p o l n v : Nat) : (s.setRegFld p o l n v).svc = s.svc := rfl
@[simp] theorem setRegFld_hpwr (s : State) (p o l n v : Nat) : (s.setRegFld p o l n v).hpwr = s.hpwr := rfl
@[simp] theorem setRegFld_fum (s : State) (p o l n v : Nat) : (s.setRegFld p o l n v).fum = s.fum := rfl
@[simp] theorem setRegFld_board (s : State) (p o l n v : Nat) : (s.setRegFld p o l n v).board = s.board := rfl
@[simp] theorem setRegFld_now (s : State) (p o l n v : Nat) : (s.setRegFld p o l n v).now = s.now := rfl
@[simp] theorem setRegFld_tick (s : State) (p o l n v : Nat) : (s.setRegFld p o l n v).tick = s.tick := rfl
@[simp] theorem setRegFld_ticks (s : State) (p o l n v : Nat) : (s.setRegFld p o l n v).ticks = s.ticks := rfl
@[simp] theorem setRegFld_mbox (s : State) (p o l n v : Nat) : (s.setRegFld p o l n v).mbox = s.mbox := rfl
@[simp] theorem setRegFld_out (s : State) (p o l n v : Nat) : (s.setRegFld p o l n v).out = s.out := rfl
@[simp] theorem setRegFld_free (s : State) (p o l n v : Nat) : (s.setRegFld p o l n v).free = s.free := rfl
@[simp] theorem setRegFld_pending (s : State) (p o l n v : Nat) : (s.setRegFld p o l n v).pending = s.pending := rfl

@[simp] theorem modHdr_straps (s : State) (p : Nat) (f : Header → Header) : (s.modHdr p f).straps = s.straps := rfl
@[simp] theorem modHdr_pkg (s : State) (p : Nat) (f : Header → Header) : (s.modHdr p f).pkg = s.pkg := rfl
@[simp] theorem modHdr_pace (s : State) (p : Nat) (f : Header → Header) : (s.modHdr p f).pace = s.pace := rfl
@[simp] theorem modHdr_samp (s : State) (p : Nat) (f : Header → Header) : (s.modHdr p f).samp = s.samp := rfl
@[simp] theorem modHdr_reds (s : State) (p : Nat) (f : Header → Header) : (s.modHdr p f).reds = s.reds := rfl
@[simp] theorem modHdr_forest (s : State) (p : Nat) (f : Header → Header) : (s.modHdr p f).forest = s.forest := rfl
@[simp] theorem modHdr_check (s : State) (p : Nat) (f : Header → Header) : (s.modHdr p f).check = s.check := rfl
@[simp] theorem modHdr_rot (s : State) (p : Nat) (f : Header → Header) : (s.modHdr p f).rot = s.rot := rfl
@[simp] theorem modHdr_time (s : State) (p : Nat) (f : Header → Header) : (s.modHdr p f).time = s.time := rfl
@[simp] theorem modHdr_bpwr (s : State) (p : Nat) (f : Header → Header) : (s.modHdr p f).bpwr = s.bpwr := rfl
@[simp] theorem modHdr_trace (s : State) (p : Nat) (f : Header → Header) : (s.modHdr p f).trace = s.trace := rfl
@[simp] theorem modHdr_snuff (s : State) (p : Nat) (f : Header → Header) : (s.modHdr p f).snuff = s.snuff := rfl
@[simp] theorem modHdr_tap (s : State) (p : Nat) (f : Header → Header) : (s.modHdr p f).tap = s.tap := rfl
@[simp] theorem modHdr_links (s : State) (p : Nat) (f : Header → Header) : (s.modHdr p f).links = s.links := rfl
@[simp] theorem modHdr_sinter (s : State) (p : Nat) (f : Header → Header) : (s.modHdr p f).sinter = s.sinter := rfl
@[simp] theorem modHdr_svc (s : State) (p : Nat) (f : Header → Header) : (s.modHdr p f).svc = s.svc := rfl
@[simp] theorem modHdr_hpwr (s : State) (p : Nat) (f : Header → Header) : (s.modHdr p f).hpwr = s.hpwr := rfl
@[simp] theorem modHdr_fum (s : State) (p : Nat) (f : Header → Header) : (s.modHdr p f).fum = s.fum := rfl
@[simp] theorem modHdr_board (s : State) (p : Nat) (f : Header → Header) : (s.modHdr p f).board = s.board := rfl
@[simp] theorem modHdr_now (s : State) (p : Nat) (f : Header → Header) : (s.modHdr p f).now = s.now := rfl
@[simp] theorem modHdr_tick (s : State) (p : Nat) (f : Header → Header) : (s.modHdr p f).tick = s.tick := rfl
@[simp] theorem modHdr_ticks (s : State) (p : Nat) (f : Header → Header) : (s.modHdr p f).ticks = s.ticks := rfl
@[simp] theorem modHdr_mbox (s : State) (p : Nat) (f : Header → Header) : (s.modHdr p f).mbox = s.mbox := rfl
@[simp] theorem modHdr_out (s : State) (p : Nat) (f : Header → Header) : (s.modHdr p f).out = s.out := rfl
@[simp] theorem modHdr_free (s : State) (p : Nat) (f : Header → Header) : (s.modHdr p f).free = s.free := rfl
@[simp] theorem modHdr_pending (s : State) (p : Nat) (f : Header → Header) : (s.modHdr p f).pending = s.pending := rfl

@[simp] theorem setErr_straps (s : State) (p b : Nat) : (s.setErr p b).straps = s.straps := rfl
@[simp] theorem setErr_pkg (s : State) (p b : Nat) : (s.setErr p b).pkg = s.pkg := rfl
@[simp] theorem setErr_pace (s : State) (p b : Nat) : (s.setErr p b).pace = s.pace := rfl
@[simp] theorem setErr_samp (s : State) (p b : Nat) : (s.setErr p b).samp = s.samp := rfl
@[simp] theorem setErr_reds (s : State) (p b : Nat) : (s.setErr p b).reds = s.reds := rfl
@[simp] theorem setErr_forest (s : State) (p b : Nat) : (s.setErr p b).forest = s.forest := rfl
@[simp] theorem setErr_check (s : State) (p b : Nat) : (s.setErr p b).check = s.check := rfl
@[simp] theorem setErr_rot (s : State) (p b : Nat) : (s.setErr p b).rot = s.rot := rfl
@[simp] theorem setErr_time (s : State) (p b : Nat) : (s.setErr p b).time = s.time := rfl
@[simp] theorem setErr_bpwr (s : State) (p b : Nat) : (s.setErr p b).bpwr = s.bpwr := rfl
@[simp] theorem setErr_trace (s : State) (p b : Nat) : (s.setErr p b).trace = s.trace := rfl
@[simp] theorem setErr_snuff (s : State) (p b : Nat) : (s.setErr p b).snuff = s.snuff := rfl
@[simp] theorem setErr_tap (s : State) (p b : Nat) : (s.setErr p b).tap = s.tap := rfl
@[simp] theorem setErr_links (s : State) (p b : Nat) : (s.setErr p b).links = s.links := rfl
@[simp] theorem setErr_sinter (s : State) (p b : Nat) : (s.setErr p b).sinter = s.sinter := rfl
@[simp] theorem setErr_svc (s : State) (p b : Nat) : (s.setErr p b).svc = s.svc := rfl
@[simp] theorem setErr_hpwr (s : State) (p b : Nat) : (s.setErr p b).hpwr = s.hpwr := rfl
@[simp] theorem setErr_fum (s : State) (p b : Nat) : (s.setErr p b).fum = s.fum := rfl
@[simp] theorem setErr_board (s : State) (p b : Nat) : (s.setErr p b).board = s.board := rfl
@[simp] theorem setErr_now (s : State) (p b : Nat) : (s.setErr p b).now = s.now := rfl
@[simp] theorem setErr_tick (s : State) (p b : Nat) : (s.setErr p b).tick = s.tick := rfl
@[simp] theorem setErr_ticks (s : State) (p b : Nat) : (s.setErr p b).ticks = s.ticks := rfl
@[simp] theorem setErr_mbox (s : State) (p b : Nat) : (s.setErr p b).mbox = s.mbox := rfl
@[simp] theorem setErr_out (s : State) (p b : Nat) : (s.setErr p b).out = s.out := rfl
@[simp] theorem setErr_free (s : State) (p b : Nat) : (s.setErr p b).free = s.free := rfl
@[simp] theorem setErr_pending (s : State) (p b : Nat) : (s.setErr p b).pending = s.pending := rfl

@[simp] theorem setStat_straps (s : State) (p b : Nat) (v : Bool) : (s.setStat p b v).straps = s.straps := rfl
@[simp] theorem setStat_pkg (s : State) (p b : Nat) (v : Bool) : (s.setStat p b v).pkg = s.pkg := rfl
@[simp] theorem setStat_pace (s : State) (p b : Nat) (v : Bool) : (s.setStat p b v).pace = s.pace := rfl
@[simp] theorem setStat_samp (s : State) (p b : Nat) (v : Bool) : (s.setStat p b v).samp = s.samp := rfl
@[simp] theorem setStat_reds (s : State) (p b : Nat) (v : Bool) : (s.setStat p b v).reds = s.reds := rfl
@[simp] theorem setStat_forest (s : State) (p b : Nat) (v : Bool) : (s.setStat p b v).forest = s.forest := rfl
@[simp] theorem setStat_check (s : State) (p b : Nat) (v : Bool) : (s.setStat p b v).check = s.check := rfl
@[simp] theorem setStat_rot (s : State) (p b : Nat) (v : Bool) : (s.setStat p b v).rot = s.rot := rfl
@[simp] theorem setStat_time (s : State) (p b : Nat) (v : Bool) : (s.setStat p b v).time = s.time := rfl
@[simp] theorem setStat_bpwr (s : State) (p b : Nat) (v : Bool) : (s.setStat p b v).bpwr = s.bpwr := rfl
@[simp] theorem setStat_trace (s : State) (p b : Nat) (v : Bool) : (s.setStat p b v).trace = s.trace := rfl
@[simp] theorem setStat_snuff (s : State) (p b : Nat) (v : Bool) : (s.setStat p b v).snuff = s.snuff := rfl
@[simp] theorem setStat_tap (s : State) (p b : Nat) (v : Bool) : (s.setStat p b v).tap = s.tap := rfl
@[simp] theorem setStat_links (s : State) (p b : Nat) (v : Bool) : (s.setStat p b v).links = s.links := rfl
@[simp] theorem setStat_sinter (s : State) (p b : Nat) (v : Bool) : (s.setStat p b v).sinter = s.sinter := rfl
@[simp] theorem setStat_svc (s : State) (p b : Nat) (v : Bool) : (s.setStat p b v).svc = s.svc := rfl
@[simp] theorem setStat_hpwr (s : State) (p b : Nat) (v : Bool) : (s.setStat p b v).hpwr = s.hpwr := rfl
@[simp] theorem setStat_fum (s : State) (p b : Nat) (v : Bool) : (s.setStat p b v).fum = s.fum := rfl
@[simp] theorem setStat_board (s : State) (p b : Nat) (v : Bool) : (s.setStat p b v).board = s.board := rfl
@[simp] theorem setStat_now (s : State) (p b : Nat) (v : Bool) : (s.setStat p b v).now = s.now := rfl
@[simp] theorem setStat_tick (s : State) (p b : Nat) (v : Bool) : (s.setStat p b v).tick = s.tick := rfl
@[simp] theorem setStat_ticks (s : State) (p b : Nat) (v : Bool) : (s.setStat p b v).ticks = s.ticks := rfl
@[simp] theorem setStat_mbox (s : State) (p b : Nat) (v : Bool) : (s.setStat p b v).mbox = s.mbox := rfl
@[simp] theorem setStat_out (s : State) (p b : Nat) (v : Bool) : (s.setStat p b v).out = s.out := rfl
@[simp] theorem setStat_free (s : State) (p b : Nat) (v : Bool) : (s.setStat p b v).free = s.free := rfl
@[simp] theorem setStat_pending (s : State) (p b : Nat) (v : Bool) : (s.setStat p b v).pending = s.pending := rfl

@[simp] theorem setCmd_straps (s : State) (g : Bool) (n : Nat) (c : CmdPage) : (s.setCmd g n c).straps = s.straps := rfl
@[simp] theorem setCmd_pkg (s : State) (g : Bool) (n : Nat) (c : CmdPage) : (s.setCmd g n c).pkg = s.pkg := rfl
@[simp] theorem setCmd_pace (s : State) (g : Bool) (n : Nat) (c : CmdPage) : (s.setCmd g n c).pace = s.pace := rfl
@[simp] theorem setCmd_samp (s : State) (g : Bool) (n : Nat) (c : CmdPage) : (s.setCmd g n c).samp = s.samp := rfl
@[simp] theorem setCmd_reds (s : State) (g : Bool) (n : Nat) (c : CmdPage) : (s.setCmd g n c).reds = s.reds := rfl
@[simp] theorem setCmd_forest (s : State) (g : Bool) (n : Nat) (c : CmdPage) : (s.setCmd g n c).forest = s.forest := rfl
@[simp] theorem setCmd_check (s : State) (g : Bool) (n : Nat) (c : CmdPage) : (s.setCmd g n c).check = s.check := rfl
@[simp] theorem setCmd_rot (s : State) (g : Bool) (n : Nat) (c : CmdPage) : (s.setCmd g n c).rot = s.rot := rfl
@[simp] theorem setCmd_time (s : State) (g : Bool) (n : Nat) (c : CmdPage) : (s.setCmd g n c).time = s.time := rfl
@[simp] theorem setCmd_bpwr (s : State) (g : Bool) (n : Nat) (c : CmdPage) : (s.setCmd g n c).bpwr = s.bpwr := rfl
@[simp] theorem setCmd_trace (s : State) (g : Bool) (n : Nat) (c : CmdPage) : (s.setCmd g n c).trace = s.trace := rfl
@[simp] theorem setCmd_snuff (s : State) (g : Bool) (n : Nat) (c : CmdPage) : (s.setCmd g n c).snuff = s.snuff := rfl
@[simp] theorem setCmd_tap (s : State) (g : Bool) (n : Nat) (c : CmdPage) : (s.setCmd g n c).tap = s.tap := rfl
@[simp] theorem setCmd_links (s : State) (g : Bool) (n : Nat) (c : CmdPage) : (s.setCmd g n c).links = s.links := rfl
@[simp] theorem setCmd_sinter (s : State) (g : Bool) (n : Nat) (c : CmdPage) : (s.setCmd g n c).sinter = s.sinter := rfl
@[simp] theorem setCmd_svc (s : State) (g : Bool) (n : Nat) (c : CmdPage) : (s.setCmd g n c).svc = s.svc := rfl
@[simp] theorem setCmd_hpwr (s : State) (g : Bool) (n : Nat) (c : CmdPage) : (s.setCmd g n c).hpwr = s.hpwr := rfl
@[simp] theorem setCmd_fum (s : State) (g : Bool) (n : Nat) (c : CmdPage) : (s.setCmd g n c).fum = s.fum := rfl
@[simp] theorem setCmd_board (s : State) (g : Bool) (n : Nat) (c : CmdPage) : (s.setCmd g n c).board = s.board := rfl
@[simp] theorem setCmd_now (s : State) (g : Bool) (n : Nat) (c : CmdPage) : (s.setCmd g n c).now = s.now := rfl
@[simp] theorem setCmd_tick (s : State) (g : Bool) (n : Nat) (c : CmdPage) : (s.setCmd g n c).tick = s.tick := rfl
@[simp] theorem setCmd_ticks (s : State) (g : Bool) (n : Nat) (c : CmdPage) : (s.setCmd g n c).ticks = s.ticks := rfl
@[simp] theorem setCmd_mbox (s : State) (g : Bool) (n : Nat) (c : CmdPage) : (s.setCmd g n c).mbox = s.mbox := rfl
@[simp] theorem setCmd_out (s : State) (g : Bool) (n : Nat) (c : CmdPage) : (s.setCmd g n c).out = s.out := rfl
@[simp] theorem setCmd_free (s : State) (g : Bool) (n : Nat) (c : CmdPage) : (s.setCmd g n c).free = s.free := rfl
@[simp] theorem setCmd_pending (s : State) (g : Bool) (n : Nat) (c : CmdPage) : (s.setCmd g n c).pending = s.pending := rfl

@[simp] theorem complete_straps (s : State) (g : Bool) (n : Nat) (x : Byte) (d : Nat) : (s.complete g n x d).straps = s.straps := rfl
@[simp] theorem complete_pkg (s : State) (g : Bool) (n : Nat) (x : Byte) (d : Nat) : (s.complete g n x d).pkg = s.pkg := rfl
@[simp] theorem complete_pace (s : State) (g : Bool) (n : Nat) (x : Byte) (d : Nat) : (s.complete g n x d).pace = s.pace := rfl
@[simp] theorem complete_samp (s : State) (g : Bool) (n : Nat) (x : Byte) (d : Nat) : (s.complete g n x d).samp = s.samp := rfl
@[simp] theorem complete_reds (s : State) (g : Bool) (n : Nat) (x : Byte) (d : Nat) : (s.complete g n x d).reds = s.reds := rfl
@[simp] theorem complete_forest (s : State) (g : Bool) (n : Nat) (x : Byte) (d : Nat) : (s.complete g n x d).forest = s.forest := rfl
@[simp] theorem complete_check (s : State) (g : Bool) (n : Nat) (x : Byte) (d : Nat) : (s.complete g n x d).check = s.check := rfl
@[simp] theorem complete_rot (s : State) (g : Bool) (n : Nat) (x : Byte) (d : Nat) : (s.complete g n x d).rot = s.rot := rfl
@[simp] theorem complete_time (s : State) (g : Bool) (n : Nat) (x : Byte) (d : Nat) : (s.complete g n x d).time = s.time := rfl
@[simp] theorem complete_bpwr (s : State) (g : Bool) (n : Nat) (x : Byte) (d : Nat) : (s.complete g n x d).bpwr = s.bpwr := rfl
@[simp] theorem complete_trace (s : State) (g : Bool) (n : Nat) (x : Byte) (d : Nat) : (s.complete g n x d).trace = s.trace := rfl
@[simp] theorem complete_snuff (s : State) (g : Bool) (n : Nat) (x : Byte) (d : Nat) : (s.complete g n x d).snuff = s.snuff := rfl
@[simp] theorem complete_tap (s : State) (g : Bool) (n : Nat) (x : Byte) (d : Nat) : (s.complete g n x d).tap = s.tap := rfl
@[simp] theorem complete_links (s : State) (g : Bool) (n : Nat) (x : Byte) (d : Nat) : (s.complete g n x d).links = s.links := rfl
@[simp] theorem complete_sinter (s : State) (g : Bool) (n : Nat) (x : Byte) (d : Nat) : (s.complete g n x d).sinter = s.sinter := rfl
@[simp] theorem complete_svc (s : State) (g : Bool) (n : Nat) (x : Byte) (d : Nat) : (s.complete g n x d).svc = s.svc := rfl
@[simp] theorem complete_hpwr (s : State) (g : Bool) (n : Nat) (x : Byte) (d : Nat) : (s.complete g n x d).hpwr = s.hpwr := rfl
@[simp] theorem complete_fum (s : State) (g : Bool) (n : Nat) (x : Byte) (d : Nat) : (s.complete g n x d).fum = s.fum := rfl
@[simp] theorem complete_board (s : State) (g : Bool) (n : Nat) (x : Byte) (d : Nat) : (s.complete g n x d).board = s.board := rfl
@[simp] theorem complete_now (s : State) (g : Bool) (n : Nat) (x : Byte) (d : Nat) : (s.complete g n x d).now = s.now := rfl
@[simp] theorem complete_tick (s : State) (g : Bool) (n : Nat) (x : Byte) (d : Nat) : (s.complete g n x d).tick = s.tick := rfl
@[simp] theorem complete_ticks (s : State) (g : Bool) (n : Nat) (x : Byte) (d : Nat) : (s.complete g n x d).ticks = s.ticks := rfl
@[simp] theorem complete_mbox (s : State) (g : Bool) (n : Nat) (x : Byte) (d : Nat) : (s.complete g n x d).mbox = s.mbox := rfl
@[simp] theorem complete_out (s : State) (g : Bool) (n : Nat) (x : Byte) (d : Nat) : (s.complete g n x d).out = s.out := rfl
@[simp] theorem complete_free (s : State) (g : Bool) (n : Nat) (x : Byte) (d : Nat) : (s.complete g n x d).free = s.free := rfl
@[simp] theorem complete_pending (s : State) (g : Bool) (n : Nat) (x : Byte) (d : Nat) : (s.complete g n x d).pending = s.pending := rfl

@[simp] theorem setRes_straps (s : State) (g : Bool) (n k v : Nat) : (s.setRes g n k v).straps = s.straps := rfl
@[simp] theorem setRes_pkg (s : State) (g : Bool) (n k v : Nat) : (s.setRes g n k v).pkg = s.pkg := rfl
@[simp] theorem setRes_pace (s : State) (g : Bool) (n k v : Nat) : (s.setRes g n k v).pace = s.pace := rfl
@[simp] theorem setRes_samp (s : State) (g : Bool) (n k v : Nat) : (s.setRes g n k v).samp = s.samp := rfl
@[simp] theorem setRes_reds (s : State) (g : Bool) (n k v : Nat) : (s.setRes g n k v).reds = s.reds := rfl
@[simp] theorem setRes_forest (s : State) (g : Bool) (n k v : Nat) : (s.setRes g n k v).forest = s.forest := rfl
@[simp] theorem setRes_check (s : State) (g : Bool) (n k v : Nat) : (s.setRes g n k v).check = s.check := rfl
@[simp] theorem setRes_rot (s : State) (g : Bool) (n k v : Nat) : (s.setRes g n k v).rot = s.rot := rfl
@[simp] theorem setRes_time (s : State) (g : Bool) (n k v : Nat) : (s.setRes g n k v).time = s.time := rfl
@[simp] theorem setRes_bpwr (s : State) (g : Bool) (n k v : Nat) : (s.setRes g n k v).bpwr = s.bpwr := rfl
@[simp] theorem setRes_trace (s : State) (g : Bool) (n k v : Nat) : (s.setRes g n k v).trace = s.trace := rfl
@[simp] theorem setRes_snuff (s : State) (g : Bool) (n k v : Nat) : (s.setRes g n k v).snuff = s.snuff := rfl
@[simp] theorem setRes_tap (s : State) (g : Bool) (n k v : Nat) : (s.setRes g n k v).tap = s.tap := rfl
@[simp] theorem setRes_links (s : State) (g : Bool) (n k v : Nat) : (s.setRes g n k v).links = s.links := rfl
@[simp] theorem setRes_sinter (s : State) (g : Bool) (n k v : Nat) : (s.setRes g n k v).sinter = s.sinter := rfl
@[simp] theorem setRes_svc (s : State) (g : Bool) (n k v : Nat) : (s.setRes g n k v).svc = s.svc := rfl
@[simp] theorem setRes_hpwr (s : State) (g : Bool) (n k v : Nat) : (s.setRes g n k v).hpwr = s.hpwr := rfl
@[simp] theorem setRes_fum (s : State) (g : Bool) (n k v : Nat) : (s.setRes g n k v).fum = s.fum := rfl
@[simp] theorem setRes_board (s : State) (g : Bool) (n k v : Nat) : (s.setRes g n k v).board = s.board := rfl
@[simp] theorem setRes_now (s : State) (g : Bool) (n k v : Nat) : (s.setRes g n k v).now = s.now := rfl
@[simp] theorem setRes_tick (s : State) (g : Bool) (n k v : Nat) : (s.setRes g n k v).tick = s.tick := rfl
@[simp] theorem setRes_ticks (s : State) (g : Bool) (n k v : Nat) : (s.setRes g n k v).ticks = s.ticks := rfl
@[simp] theorem setRes_mbox (s : State) (g : Bool) (n k v : Nat) : (s.setRes g n k v).mbox = s.mbox := rfl
@[simp] theorem setRes_out (s : State) (g : Bool) (n k v : Nat) : (s.setRes g n k v).out = s.out := rfl
@[simp] theorem setRes_free (s : State) (g : Bool) (n k v : Nat) : (s.setRes g n k v).free = s.free := rfl
@[simp] theorem setRes_pending (s : State) (g : Bool) (n k v : Nat) : (s.setRes g n k v).pending = s.pending := rfl

@[simp] theorem emit_straps (s : State) (o : Out) : (s.emit o).straps = s.straps := rfl
@[simp] theorem emit_pkg (s : State) (o : Out) : (s.emit o).pkg = s.pkg := rfl
@[simp] theorem emit_pace (s : State) (o : Out) : (s.emit o).pace = s.pace := rfl
@[simp] theorem emit_pages (s : State) (o : Out) : (s.emit o).pages = s.pages := rfl
@[simp] theorem emit_samp (s : State) (o : Out) : (s.emit o).samp = s.samp := rfl
@[simp] theorem emit_reds (s : State) (o : Out) : (s.emit o).reds = s.reds := rfl
@[simp] theorem emit_forest (s : State) (o : Out) : (s.emit o).forest = s.forest := rfl
@[simp] theorem emit_check (s : State) (o : Out) : (s.emit o).check = s.check := rfl
@[simp] theorem emit_rot (s : State) (o : Out) : (s.emit o).rot = s.rot := rfl
@[simp] theorem emit_time (s : State) (o : Out) : (s.emit o).time = s.time := rfl
@[simp] theorem emit_bpwr (s : State) (o : Out) : (s.emit o).bpwr = s.bpwr := rfl
@[simp] theorem emit_trace (s : State) (o : Out) : (s.emit o).trace = s.trace := rfl
@[simp] theorem emit_snuff (s : State) (o : Out) : (s.emit o).snuff = s.snuff := rfl
@[simp] theorem emit_tap (s : State) (o : Out) : (s.emit o).tap = s.tap := rfl
@[simp] theorem emit_links (s : State) (o : Out) : (s.emit o).links = s.links := rfl
@[simp] theorem emit_sinter (s : State) (o : Out) : (s.emit o).sinter = s.sinter := rfl
@[simp] theorem emit_svc (s : State) (o : Out) : (s.emit o).svc = s.svc := rfl
@[simp] theorem emit_hpwr (s : State) (o : Out) : (s.emit o).hpwr = s.hpwr := rfl
@[simp] theorem emit_fum (s : State) (o : Out) : (s.emit o).fum = s.fum := rfl
@[simp] theorem emit_board (s : State) (o : Out) : (s.emit o).board = s.board := rfl
@[simp] theorem emit_now (s : State) (o : Out) : (s.emit o).now = s.now := rfl
@[simp] theorem emit_tick (s : State) (o : Out) : (s.emit o).tick = s.tick := rfl
@[simp] theorem emit_ticks (s : State) (o : Out) : (s.emit o).ticks = s.ticks := rfl
@[simp] theorem emit_mbox (s : State) (o : Out) : (s.emit o).mbox = s.mbox := rfl
@[simp] theorem emit_out (s : State) (o : Out) : (s.emit o).out = o :: s.out := rfl
@[simp] theorem emit_free (s : State) (o : Out) : (s.emit o).free = s.free := rfl
@[simp] theorem emit_pending (s : State) (o : Out) : (s.emit o).pending = s.pending := rfl

@[simp] theorem advanceTo_straps (s : State) (t : FT) : (s.advanceTo t).straps = s.straps := rfl
@[simp] theorem advanceTo_pkg (s : State) (t : FT) : (s.advanceTo t).pkg = s.pkg := rfl
@[simp] theorem advanceTo_pace (s : State) (t : FT) : (s.advanceTo t).pace = s.pace := rfl
@[simp] theorem advanceTo_pages (s : State) (t : FT) : (s.advanceTo t).pages = s.pages := rfl
@[simp] theorem advanceTo_samp (s : State) (t : FT) : (s.advanceTo t).samp = s.samp := rfl
@[simp] theorem advanceTo_reds (s : State) (t : FT) : (s.advanceTo t).reds = s.reds := rfl
@[simp] theorem advanceTo_forest (s : State) (t : FT) : (s.advanceTo t).forest = s.forest := rfl
@[simp] theorem advanceTo_check (s : State) (t : FT) : (s.advanceTo t).check = s.check := rfl
@[simp] theorem advanceTo_rot (s : State) (t : FT) : (s.advanceTo t).rot = s.rot := rfl
@[simp] theorem advanceTo_time (s : State) (t : FT) : (s.advanceTo t).time = s.time := rfl
@[simp] theorem advanceTo_bpwr (s : State) (t : FT) : (s.advanceTo t).bpwr = s.bpwr := rfl
@[simp] theorem advanceTo_trace (s : State) (t : FT) : (s.advanceTo t).trace = s.trace := rfl
@[simp] theorem advanceTo_snuff (s : State) (t : FT) : (s.advanceTo t).snuff = s.snuff := rfl
@[simp] theorem advanceTo_tap (s : State) (t : FT) : (s.advanceTo t).tap = s.tap := rfl
@[simp] theorem advanceTo_links (s : State) (t : FT) : (s.advanceTo t).links = s.links := rfl
@[simp] theorem advanceTo_sinter (s : State) (t : FT) : (s.advanceTo t).sinter = s.sinter := rfl
@[simp] theorem advanceTo_svc (s : State) (t : FT) : (s.advanceTo t).svc = s.svc := rfl
@[simp] theorem advanceTo_hpwr (s : State) (t : FT) : (s.advanceTo t).hpwr = s.hpwr := rfl
@[simp] theorem advanceTo_fum (s : State) (t : FT) : (s.advanceTo t).fum = s.fum := rfl
@[simp] theorem advanceTo_board (s : State) (t : FT) : (s.advanceTo t).board = s.board := rfl
@[simp] theorem advanceTo_now (s : State) (t : FT) : (s.advanceTo t).now = max s.now t := rfl
@[simp] theorem advanceTo_tick (s : State) (t : FT) : (s.advanceTo t).tick = s.tick := rfl
@[simp] theorem advanceTo_ticks (s : State) (t : FT) : (s.advanceTo t).ticks = s.ticks := rfl
@[simp] theorem advanceTo_mbox (s : State) (t : FT) : (s.advanceTo t).mbox = s.mbox := rfl
@[simp] theorem advanceTo_out (s : State) (t : FT) : (s.advanceTo t).out = s.out := rfl
@[simp] theorem advanceTo_free (s : State) (t : FT) : (s.advanceTo t).free = s.free := rfl
@[simp] theorem advanceTo_pending (s : State) (t : FT) : (s.advanceTo t).pending = s.pending := rfl

@[simp] theorem work_straps (s : State) : (s.work).straps = s.straps := rfl
@[simp] theorem work_pkg (s : State) : (s.work).pkg = s.pkg := rfl
@[simp] theorem work_pace (s : State) : (s.work).pace = s.pace := rfl
@[simp] theorem work_pages (s : State) : (s.work).pages = s.pages := rfl
@[simp] theorem work_samp (s : State) : (s.work).samp = s.samp := rfl
@[simp] theorem work_reds (s : State) : (s.work).reds = s.reds := rfl
@[simp] theorem work_forest (s : State) : (s.work).forest = s.forest := rfl
@[simp] theorem work_check (s : State) : (s.work).check = s.check := rfl
@[simp] theorem work_rot (s : State) : (s.work).rot = s.rot := rfl
@[simp] theorem work_time (s : State) : (s.work).time = s.time := rfl
@[simp] theorem work_trace (s : State) : (s.work).trace = s.trace := rfl
@[simp] theorem work_snuff (s : State) : (s.work).snuff = s.snuff := rfl
@[simp] theorem work_tap (s : State) : (s.work).tap = s.tap := rfl
@[simp] theorem work_links (s : State) : (s.work).links = s.links := rfl
@[simp] theorem work_sinter (s : State) : (s.work).sinter = s.sinter := rfl
@[simp] theorem work_svc (s : State) : (s.work).svc = s.svc := rfl
@[simp] theorem work_hpwr (s : State) : (s.work).hpwr = s.hpwr := rfl
@[simp] theorem work_fum (s : State) : (s.work).fum = s.fum := rfl
@[simp] theorem work_board (s : State) : (s.work).board = s.board := rfl
@[simp] theorem work_now (s : State) : (s.work).now = s.now := rfl
@[simp] theorem work_tick (s : State) : (s.work).tick = s.tick := rfl
@[simp] theorem work_ticks (s : State) : (s.work).ticks = s.ticks := rfl
@[simp] theorem work_mbox (s : State) : (s.work).mbox = s.mbox := rfl
@[simp] theorem work_out (s : State) : (s.work).out = s.out := rfl
@[simp] theorem work_free (s : State) : (s.work).free = s.free := rfl
@[simp] theorem work_pending (s : State) : (s.work).pending = s.pending := rfl

@[simp] theorem busyNow_straps (s : State) : (s.busyNow).straps = s.straps := rfl
@[simp] theorem busyNow_pkg (s : State) : (s.busyNow).pkg = s.pkg := rfl
@[simp] theorem busyNow_pace (s : State) : (s.busyNow).pace = s.pace := rfl
@[simp] theorem busyNow_pages (s : State) : (s.busyNow).pages = s.pages := rfl
@[simp] theorem busyNow_samp (s : State) : (s.busyNow).samp = s.samp := rfl
@[simp] theorem busyNow_reds (s : State) : (s.busyNow).reds = s.reds := rfl
@[simp] theorem busyNow_forest (s : State) : (s.busyNow).forest = s.forest := rfl
@[simp] theorem busyNow_check (s : State) : (s.busyNow).check = s.check := rfl
@[simp] theorem busyNow_rot (s : State) : (s.busyNow).rot = s.rot := rfl
@[simp] theorem busyNow_time (s : State) : (s.busyNow).time = s.time := rfl
@[simp] theorem busyNow_trace (s : State) : (s.busyNow).trace = s.trace := rfl
@[simp] theorem busyNow_snuff (s : State) : (s.busyNow).snuff = s.snuff := rfl
@[simp] theorem busyNow_tap (s : State) : (s.busyNow).tap = s.tap := rfl
@[simp] theorem busyNow_links (s : State) : (s.busyNow).links = s.links := rfl
@[simp] theorem busyNow_sinter (s : State) : (s.busyNow).sinter = s.sinter := rfl
@[simp] theorem busyNow_svc (s : State) : (s.busyNow).svc = s.svc := rfl
@[simp] theorem busyNow_hpwr (s : State) : (s.busyNow).hpwr = s.hpwr := rfl
@[simp] theorem busyNow_fum (s : State) : (s.busyNow).fum = s.fum := rfl
@[simp] theorem busyNow_board (s : State) : (s.busyNow).board = s.board := rfl
@[simp] theorem busyNow_now (s : State) : (s.busyNow).now = s.now := rfl
@[simp] theorem busyNow_tick (s : State) : (s.busyNow).tick = s.tick := rfl
@[simp] theorem busyNow_ticks (s : State) : (s.busyNow).ticks = s.ticks := rfl
@[simp] theorem busyNow_mbox (s : State) : (s.busyNow).mbox = s.mbox := rfl
@[simp] theorem busyNow_out (s : State) : (s.busyNow).out = s.out := rfl
@[simp] theorem busyNow_free (s : State) : (s.busyNow).free = s.free := rfl
@[simp] theorem busyNow_pending (s : State) : (s.busyNow).pending = s.pending := rfl

@[simp] theorem setProbe_straps (s : State) (p : Nat) (x : Probe) : (s.setProbe p x).straps = s.straps := rfl
@[simp] theorem setProbe_pkg (s : State) (p : Nat) (x : Probe) : (s.setProbe p x).pkg = s.pkg := rfl
@[simp] theorem setProbe_pace (s : State) (p : Nat) (x : Probe) : (s.setProbe p x).pace = s.pace := rfl
@[simp] theorem setProbe_pages (s : State) (p : Nat) (x : Probe) : (s.setProbe p x).pages = s.pages := rfl
@[simp] theorem setProbe_reds (s : State) (p : Nat) (x : Probe) : (s.setProbe p x).reds = s.reds := rfl
@[simp] theorem setProbe_forest (s : State) (p : Nat) (x : Probe) : (s.setProbe p x).forest = s.forest := rfl
@[simp] theorem setProbe_check (s : State) (p : Nat) (x : Probe) : (s.setProbe p x).check = s.check := rfl
@[simp] theorem setProbe_rot (s : State) (p : Nat) (x : Probe) : (s.setProbe p x).rot = s.rot := rfl
@[simp] theorem setProbe_time (s : State) (p : Nat) (x : Probe) : (s.setProbe p x).time = s.time := rfl
@[simp] theorem setProbe_bpwr (s : State) (p : Nat) (x : Probe) : (s.setProbe p x).bpwr = s.bpwr := rfl
@[simp] theorem setProbe_trace (s : State) (p : Nat) (x : Probe) : (s.setProbe p x).trace = s.trace := rfl
@[simp] theorem setProbe_snuff (s : State) (p : Nat) (x : Probe) : (s.setProbe p x).snuff = s.snuff := rfl
@[simp] theorem setProbe_tap (s : State) (p : Nat) (x : Probe) : (s.setProbe p x).tap = s.tap := rfl
@[simp] theorem setProbe_links (s : State) (p : Nat) (x : Probe) : (s.setProbe p x).links = s.links := rfl
@[simp] theorem setProbe_sinter (s : State) (p : Nat) (x : Probe) : (s.setProbe p x).sinter = s.sinter := rfl
@[simp] theorem setProbe_svc (s : State) (p : Nat) (x : Probe) : (s.setProbe p x).svc = s.svc := rfl
@[simp] theorem setProbe_hpwr (s : State) (p : Nat) (x : Probe) : (s.setProbe p x).hpwr = s.hpwr := rfl
@[simp] theorem setProbe_fum (s : State) (p : Nat) (x : Probe) : (s.setProbe p x).fum = s.fum := rfl
@[simp] theorem setProbe_board (s : State) (p : Nat) (x : Probe) : (s.setProbe p x).board = s.board := rfl
@[simp] theorem setProbe_now (s : State) (p : Nat) (x : Probe) : (s.setProbe p x).now = s.now := rfl
@[simp] theorem setProbe_tick (s : State) (p : Nat) (x : Probe) : (s.setProbe p x).tick = s.tick := rfl
@[simp] theorem setProbe_ticks (s : State) (p : Nat) (x : Probe) : (s.setProbe p x).ticks = s.ticks := rfl
@[simp] theorem setProbe_mbox (s : State) (p : Nat) (x : Probe) : (s.setProbe p x).mbox = s.mbox := rfl
@[simp] theorem setProbe_out (s : State) (p : Nat) (x : Probe) : (s.setProbe p x).out = s.out := rfl
@[simp] theorem setProbe_free (s : State) (p : Nat) (x : Probe) : (s.setProbe p x).free = s.free := rfl
@[simp] theorem setProbe_pending (s : State) (p : Nat) (x : Probe) : (s.setProbe p x).pending = s.pending := rfl

@[simp] theorem modProbe_straps (s : State) (p : Nat) (f : Probe → Probe) : (s.modProbe p f).straps = s.straps := rfl
@[simp] theorem modProbe_pkg (s : State) (p : Nat) (f : Probe → Probe) : (s.modProbe p f).pkg = s.pkg := rfl
@[simp] theorem modProbe_pace (s : State) (p : Nat) (f : Probe → Probe) : (s.modProbe p f).pace = s.pace := rfl
@[simp] theorem modProbe_pages (s : State) (p : Nat) (f : Probe → Probe) : (s.modProbe p f).pages = s.pages := rfl
@[simp] theorem modProbe_reds (s : State) (p : Nat) (f : Probe → Probe) : (s.modProbe p f).reds = s.reds := rfl
@[simp] theorem modProbe_forest (s : State) (p : Nat) (f : Probe → Probe) : (s.modProbe p f).forest = s.forest := rfl
@[simp] theorem modProbe_check (s : State) (p : Nat) (f : Probe → Probe) : (s.modProbe p f).check = s.check := rfl
@[simp] theorem modProbe_rot (s : State) (p : Nat) (f : Probe → Probe) : (s.modProbe p f).rot = s.rot := rfl
@[simp] theorem modProbe_time (s : State) (p : Nat) (f : Probe → Probe) : (s.modProbe p f).time = s.time := rfl
@[simp] theorem modProbe_bpwr (s : State) (p : Nat) (f : Probe → Probe) : (s.modProbe p f).bpwr = s.bpwr := rfl
@[simp] theorem modProbe_trace (s : State) (p : Nat) (f : Probe → Probe) : (s.modProbe p f).trace = s.trace := rfl
@[simp] theorem modProbe_snuff (s : State) (p : Nat) (f : Probe → Probe) : (s.modProbe p f).snuff = s.snuff := rfl
@[simp] theorem modProbe_tap (s : State) (p : Nat) (f : Probe → Probe) : (s.modProbe p f).tap = s.tap := rfl
@[simp] theorem modProbe_links (s : State) (p : Nat) (f : Probe → Probe) : (s.modProbe p f).links = s.links := rfl
@[simp] theorem modProbe_sinter (s : State) (p : Nat) (f : Probe → Probe) : (s.modProbe p f).sinter = s.sinter := rfl
@[simp] theorem modProbe_svc (s : State) (p : Nat) (f : Probe → Probe) : (s.modProbe p f).svc = s.svc := rfl
@[simp] theorem modProbe_hpwr (s : State) (p : Nat) (f : Probe → Probe) : (s.modProbe p f).hpwr = s.hpwr := rfl
@[simp] theorem modProbe_fum (s : State) (p : Nat) (f : Probe → Probe) : (s.modProbe p f).fum = s.fum := rfl
@[simp] theorem modProbe_board (s : State) (p : Nat) (f : Probe → Probe) : (s.modProbe p f).board = s.board := rfl
@[simp] theorem modProbe_now (s : State) (p : Nat) (f : Probe → Probe) : (s.modProbe p f).now = s.now := rfl
@[simp] theorem modProbe_tick (s : State) (p : Nat) (f : Probe → Probe) : (s.modProbe p f).tick = s.tick := rfl
@[simp] theorem modProbe_ticks (s : State) (p : Nat) (f : Probe → Probe) : (s.modProbe p f).ticks = s.ticks := rfl
@[simp] theorem modProbe_mbox (s : State) (p : Nat) (f : Probe → Probe) : (s.modProbe p f).mbox = s.mbox := rfl
@[simp] theorem modProbe_out (s : State) (p : Nat) (f : Probe → Probe) : (s.modProbe p f).out = s.out := rfl
@[simp] theorem modProbe_free (s : State) (p : Nat) (f : Probe → Probe) : (s.modProbe p f).free = s.free := rfl
@[simp] theorem modProbe_pending (s : State) (p : Nat) (f : Probe → Probe) : (s.modProbe p f).pending = s.pending := rfl

@[simp] theorem modCluster_straps (s : State) (c : Nat) (f : Cluster → Cluster) : (s.modCluster c f).straps = s.straps := rfl
@[simp] theorem modCluster_pkg (s : State) (c : Nat) (f : Cluster → Cluster) : (s.modCluster c f).pkg = s.pkg := rfl
@[simp] theorem modCluster_pace (s : State) (c : Nat) (f : Cluster → Cluster) : (s.modCluster c f).pace = s.pace := rfl
@[simp] theorem modCluster_pages (s : State) (c : Nat) (f : Cluster → Cluster) : (s.modCluster c f).pages = s.pages := rfl
@[simp] theorem modCluster_reds (s : State) (c : Nat) (f : Cluster → Cluster) : (s.modCluster c f).reds = s.reds := rfl
@[simp] theorem modCluster_forest (s : State) (c : Nat) (f : Cluster → Cluster) : (s.modCluster c f).forest = s.forest := rfl
@[simp] theorem modCluster_check (s : State) (c : Nat) (f : Cluster → Cluster) : (s.modCluster c f).check = s.check := rfl
@[simp] theorem modCluster_rot (s : State) (c : Nat) (f : Cluster → Cluster) : (s.modCluster c f).rot = s.rot := rfl
@[simp] theorem modCluster_time (s : State) (c : Nat) (f : Cluster → Cluster) : (s.modCluster c f).time = s.time := rfl
@[simp] theorem modCluster_bpwr (s : State) (c : Nat) (f : Cluster → Cluster) : (s.modCluster c f).bpwr = s.bpwr := rfl
@[simp] theorem modCluster_trace (s : State) (c : Nat) (f : Cluster → Cluster) : (s.modCluster c f).trace = s.trace := rfl
@[simp] theorem modCluster_snuff (s : State) (c : Nat) (f : Cluster → Cluster) : (s.modCluster c f).snuff = s.snuff := rfl
@[simp] theorem modCluster_tap (s : State) (c : Nat) (f : Cluster → Cluster) : (s.modCluster c f).tap = s.tap := rfl
@[simp] theorem modCluster_links (s : State) (c : Nat) (f : Cluster → Cluster) : (s.modCluster c f).links = s.links := rfl
@[simp] theorem modCluster_sinter (s : State) (c : Nat) (f : Cluster → Cluster) : (s.modCluster c f).sinter = s.sinter := rfl
@[simp] theorem modCluster_svc (s : State) (c : Nat) (f : Cluster → Cluster) : (s.modCluster c f).svc = s.svc := rfl
@[simp] theorem modCluster_hpwr (s : State) (c : Nat) (f : Cluster → Cluster) : (s.modCluster c f).hpwr = s.hpwr := rfl
@[simp] theorem modCluster_fum (s : State) (c : Nat) (f : Cluster → Cluster) : (s.modCluster c f).fum = s.fum := rfl
@[simp] theorem modCluster_board (s : State) (c : Nat) (f : Cluster → Cluster) : (s.modCluster c f).board = s.board := rfl
@[simp] theorem modCluster_now (s : State) (c : Nat) (f : Cluster → Cluster) : (s.modCluster c f).now = s.now := rfl
@[simp] theorem modCluster_tick (s : State) (c : Nat) (f : Cluster → Cluster) : (s.modCluster c f).tick = s.tick := rfl
@[simp] theorem modCluster_ticks (s : State) (c : Nat) (f : Cluster → Cluster) : (s.modCluster c f).ticks = s.ticks := rfl
@[simp] theorem modCluster_mbox (s : State) (c : Nat) (f : Cluster → Cluster) : (s.modCluster c f).mbox = s.mbox := rfl
@[simp] theorem modCluster_out (s : State) (c : Nat) (f : Cluster → Cluster) : (s.modCluster c f).out = s.out := rfl
@[simp] theorem modCluster_free (s : State) (c : Nat) (f : Cluster → Cluster) : (s.modCluster c f).free = s.free := rfl
@[simp] theorem modCluster_pending (s : State) (c : Nat) (f : Cluster → Cluster) : (s.modCluster c f).pending = s.pending := rfl

@[simp] theorem modRegion_straps (s : State) (r : Nat) (f : Region → Region) : (s.modRegion r f).straps = s.straps := rfl
@[simp] theorem modRegion_pkg (s : State) (r : Nat) (f : Region → Region) : (s.modRegion r f).pkg = s.pkg := rfl
@[simp] theorem modRegion_pace (s : State) (r : Nat) (f : Region → Region) : (s.modRegion r f).pace = s.pace := rfl
@[simp] theorem modRegion_pages (s : State) (r : Nat) (f : Region → Region) : (s.modRegion r f).pages = s.pages := rfl
@[simp] theorem modRegion_reds (s : State) (r : Nat) (f : Region → Region) : (s.modRegion r f).reds = s.reds := rfl
@[simp] theorem modRegion_forest (s : State) (r : Nat) (f : Region → Region) : (s.modRegion r f).forest = s.forest := rfl
@[simp] theorem modRegion_check (s : State) (r : Nat) (f : Region → Region) : (s.modRegion r f).check = s.check := rfl
@[simp] theorem modRegion_rot (s : State) (r : Nat) (f : Region → Region) : (s.modRegion r f).rot = s.rot := rfl
@[simp] theorem modRegion_time (s : State) (r : Nat) (f : Region → Region) : (s.modRegion r f).time = s.time := rfl
@[simp] theorem modRegion_bpwr (s : State) (r : Nat) (f : Region → Region) : (s.modRegion r f).bpwr = s.bpwr := rfl
@[simp] theorem modRegion_trace (s : State) (r : Nat) (f : Region → Region) : (s.modRegion r f).trace = s.trace := rfl
@[simp] theorem modRegion_snuff (s : State) (r : Nat) (f : Region → Region) : (s.modRegion r f).snuff = s.snuff := rfl
@[simp] theorem modRegion_tap (s : State) (r : Nat) (f : Region → Region) : (s.modRegion r f).tap = s.tap := rfl
@[simp] theorem modRegion_links (s : State) (r : Nat) (f : Region → Region) : (s.modRegion r f).links = s.links := rfl
@[simp] theorem modRegion_sinter (s : State) (r : Nat) (f : Region → Region) : (s.modRegion r f).sinter = s.sinter := rfl
@[simp] theorem modRegion_svc (s : State) (r : Nat) (f : Region → Region) : (s.modRegion r f).svc = s.svc := rfl
@[simp] theorem modRegion_hpwr (s : State) (r : Nat) (f : Region → Region) : (s.modRegion r f).hpwr = s.hpwr := rfl
@[simp] theorem modRegion_fum (s : State) (r : Nat) (f : Region → Region) : (s.modRegion r f).fum = s.fum := rfl
@[simp] theorem modRegion_board (s : State) (r : Nat) (f : Region → Region) : (s.modRegion r f).board = s.board := rfl
@[simp] theorem modRegion_now (s : State) (r : Nat) (f : Region → Region) : (s.modRegion r f).now = s.now := rfl
@[simp] theorem modRegion_tick (s : State) (r : Nat) (f : Region → Region) : (s.modRegion r f).tick = s.tick := rfl
@[simp] theorem modRegion_ticks (s : State) (r : Nat) (f : Region → Region) : (s.modRegion r f).ticks = s.ticks := rfl
@[simp] theorem modRegion_mbox (s : State) (r : Nat) (f : Region → Region) : (s.modRegion r f).mbox = s.mbox := rfl
@[simp] theorem modRegion_out (s : State) (r : Nat) (f : Region → Region) : (s.modRegion r f).out = s.out := rfl
@[simp] theorem modRegion_free (s : State) (r : Nat) (f : Region → Region) : (s.modRegion r f).free = s.free := rfl
@[simp] theorem modRegion_pending (s : State) (r : Nat) (f : Region → Region) : (s.modRegion r f).pending = s.pending := rfl

@[simp] theorem modGeyser_straps (s : State) (f : Geyser → Geyser) : (s.modGeyser f).straps = s.straps := rfl
@[simp] theorem modGeyser_pkg (s : State) (f : Geyser → Geyser) : (s.modGeyser f).pkg = s.pkg := rfl
@[simp] theorem modGeyser_pace (s : State) (f : Geyser → Geyser) : (s.modGeyser f).pace = s.pace := rfl
@[simp] theorem modGeyser_pages (s : State) (f : Geyser → Geyser) : (s.modGeyser f).pages = s.pages := rfl
@[simp] theorem modGeyser_reds (s : State) (f : Geyser → Geyser) : (s.modGeyser f).reds = s.reds := rfl
@[simp] theorem modGeyser_forest (s : State) (f : Geyser → Geyser) : (s.modGeyser f).forest = s.forest := rfl
@[simp] theorem modGeyser_check (s : State) (f : Geyser → Geyser) : (s.modGeyser f).check = s.check := rfl
@[simp] theorem modGeyser_rot (s : State) (f : Geyser → Geyser) : (s.modGeyser f).rot = s.rot := rfl
@[simp] theorem modGeyser_time (s : State) (f : Geyser → Geyser) : (s.modGeyser f).time = s.time := rfl
@[simp] theorem modGeyser_bpwr (s : State) (f : Geyser → Geyser) : (s.modGeyser f).bpwr = s.bpwr := rfl
@[simp] theorem modGeyser_trace (s : State) (f : Geyser → Geyser) : (s.modGeyser f).trace = s.trace := rfl
@[simp] theorem modGeyser_snuff (s : State) (f : Geyser → Geyser) : (s.modGeyser f).snuff = s.snuff := rfl
@[simp] theorem modGeyser_tap (s : State) (f : Geyser → Geyser) : (s.modGeyser f).tap = s.tap := rfl
@[simp] theorem modGeyser_links (s : State) (f : Geyser → Geyser) : (s.modGeyser f).links = s.links := rfl
@[simp] theorem modGeyser_sinter (s : State) (f : Geyser → Geyser) : (s.modGeyser f).sinter = s.sinter := rfl
@[simp] theorem modGeyser_svc (s : State) (f : Geyser → Geyser) : (s.modGeyser f).svc = s.svc := rfl
@[simp] theorem modGeyser_hpwr (s : State) (f : Geyser → Geyser) : (s.modGeyser f).hpwr = s.hpwr := rfl
@[simp] theorem modGeyser_fum (s : State) (f : Geyser → Geyser) : (s.modGeyser f).fum = s.fum := rfl
@[simp] theorem modGeyser_board (s : State) (f : Geyser → Geyser) : (s.modGeyser f).board = s.board := rfl
@[simp] theorem modGeyser_now (s : State) (f : Geyser → Geyser) : (s.modGeyser f).now = s.now := rfl
@[simp] theorem modGeyser_tick (s : State) (f : Geyser → Geyser) : (s.modGeyser f).tick = s.tick := rfl
@[simp] theorem modGeyser_ticks (s : State) (f : Geyser → Geyser) : (s.modGeyser f).ticks = s.ticks := rfl
@[simp] theorem modGeyser_mbox (s : State) (f : Geyser → Geyser) : (s.modGeyser f).mbox = s.mbox := rfl
@[simp] theorem modGeyser_out (s : State) (f : Geyser → Geyser) : (s.modGeyser f).out = s.out := rfl
@[simp] theorem modGeyser_free (s : State) (f : Geyser → Geyser) : (s.modGeyser f).free = s.free := rfl
@[simp] theorem modGeyser_pending (s : State) (f : Geyser → Geyser) : (s.modGeyser f).pending = s.pending := rfl

@[simp] theorem modRed_straps (s : State) (c : Nat) (f : Red → Red) : (s.modRed c f).straps = s.straps := rfl
@[simp] theorem modRed_pkg (s : State) (c : Nat) (f : Red → Red) : (s.modRed c f).pkg = s.pkg := rfl
@[simp] theorem modRed_pace (s : State) (c : Nat) (f : Red → Red) : (s.modRed c f).pace = s.pace := rfl
@[simp] theorem modRed_pages (s : State) (c : Nat) (f : Red → Red) : (s.modRed c f).pages = s.pages := rfl
@[simp] theorem modRed_samp (s : State) (c : Nat) (f : Red → Red) : (s.modRed c f).samp = s.samp := rfl
@[simp] theorem modRed_forest (s : State) (c : Nat) (f : Red → Red) : (s.modRed c f).forest = s.forest := rfl
@[simp] theorem modRed_check (s : State) (c : Nat) (f : Red → Red) : (s.modRed c f).check = s.check := rfl
@[simp] theorem modRed_rot (s : State) (c : Nat) (f : Red → Red) : (s.modRed c f).rot = s.rot := rfl
@[simp] theorem modRed_time (s : State) (c : Nat) (f : Red → Red) : (s.modRed c f).time = s.time := rfl
@[simp] theorem modRed_bpwr (s : State) (c : Nat) (f : Red → Red) : (s.modRed c f).bpwr = s.bpwr := rfl
@[simp] theorem modRed_trace (s : State) (c : Nat) (f : Red → Red) : (s.modRed c f).trace = s.trace := rfl
@[simp] theorem modRed_snuff (s : State) (c : Nat) (f : Red → Red) : (s.modRed c f).snuff = s.snuff := rfl
@[simp] theorem modRed_tap (s : State) (c : Nat) (f : Red → Red) : (s.modRed c f).tap = s.tap := rfl
@[simp] theorem modRed_links (s : State) (c : Nat) (f : Red → Red) : (s.modRed c f).links = s.links := rfl
@[simp] theorem modRed_sinter (s : State) (c : Nat) (f : Red → Red) : (s.modRed c f).sinter = s.sinter := rfl
@[simp] theorem modRed_svc (s : State) (c : Nat) (f : Red → Red) : (s.modRed c f).svc = s.svc := rfl
@[simp] theorem modRed_hpwr (s : State) (c : Nat) (f : Red → Red) : (s.modRed c f).hpwr = s.hpwr := rfl
@[simp] theorem modRed_fum (s : State) (c : Nat) (f : Red → Red) : (s.modRed c f).fum = s.fum := rfl
@[simp] theorem modRed_board (s : State) (c : Nat) (f : Red → Red) : (s.modRed c f).board = s.board := rfl
@[simp] theorem modRed_now (s : State) (c : Nat) (f : Red → Red) : (s.modRed c f).now = s.now := rfl
@[simp] theorem modRed_tick (s : State) (c : Nat) (f : Red → Red) : (s.modRed c f).tick = s.tick := rfl
@[simp] theorem modRed_ticks (s : State) (c : Nat) (f : Red → Red) : (s.modRed c f).ticks = s.ticks := rfl
@[simp] theorem modRed_mbox (s : State) (c : Nat) (f : Red → Red) : (s.modRed c f).mbox = s.mbox := rfl
@[simp] theorem modRed_out (s : State) (c : Nat) (f : Red → Red) : (s.modRed c f).out = s.out := rfl
@[simp] theorem modRed_free (s : State) (c : Nat) (f : Red → Red) : (s.modRed c f).free = s.free := rfl
@[simp] theorem modRed_pending (s : State) (c : Nat) (f : Red → Red) : (s.modRed c f).pending = s.pending := rfl

@[simp] theorem modEngine_straps (s : State) (e : Nat) (f : Forest → Forest) : (s.modEngine e f).straps = s.straps := rfl
@[simp] theorem modEngine_pkg (s : State) (e : Nat) (f : Forest → Forest) : (s.modEngine e f).pkg = s.pkg := rfl
@[simp] theorem modEngine_pace (s : State) (e : Nat) (f : Forest → Forest) : (s.modEngine e f).pace = s.pace := rfl
@[simp] theorem modEngine_pages (s : State) (e : Nat) (f : Forest → Forest) : (s.modEngine e f).pages = s.pages := rfl
@[simp] theorem modEngine_samp (s : State) (e : Nat) (f : Forest → Forest) : (s.modEngine e f).samp = s.samp := rfl
@[simp] theorem modEngine_reds (s : State) (e : Nat) (f : Forest → Forest) : (s.modEngine e f).reds = s.reds := rfl
@[simp] theorem modEngine_check (s : State) (e : Nat) (f : Forest → Forest) : (s.modEngine e f).check = s.check := rfl
@[simp] theorem modEngine_rot (s : State) (e : Nat) (f : Forest → Forest) : (s.modEngine e f).rot = s.rot := rfl
@[simp] theorem modEngine_time (s : State) (e : Nat) (f : Forest → Forest) : (s.modEngine e f).time = s.time := rfl
@[simp] theorem modEngine_bpwr (s : State) (e : Nat) (f : Forest → Forest) : (s.modEngine e f).bpwr = s.bpwr := rfl
@[simp] theorem modEngine_trace (s : State) (e : Nat) (f : Forest → Forest) : (s.modEngine e f).trace = s.trace := rfl
@[simp] theorem modEngine_snuff (s : State) (e : Nat) (f : Forest → Forest) : (s.modEngine e f).snuff = s.snuff := rfl
@[simp] theorem modEngine_tap (s : State) (e : Nat) (f : Forest → Forest) : (s.modEngine e f).tap = s.tap := rfl
@[simp] theorem modEngine_links (s : State) (e : Nat) (f : Forest → Forest) : (s.modEngine e f).links = s.links := rfl
@[simp] theorem modEngine_sinter (s : State) (e : Nat) (f : Forest → Forest) : (s.modEngine e f).sinter = s.sinter := rfl
@[simp] theorem modEngine_svc (s : State) (e : Nat) (f : Forest → Forest) : (s.modEngine e f).svc = s.svc := rfl
@[simp] theorem modEngine_hpwr (s : State) (e : Nat) (f : Forest → Forest) : (s.modEngine e f).hpwr = s.hpwr := rfl
@[simp] theorem modEngine_fum (s : State) (e : Nat) (f : Forest → Forest) : (s.modEngine e f).fum = s.fum := rfl
@[simp] theorem modEngine_board (s : State) (e : Nat) (f : Forest → Forest) : (s.modEngine e f).board = s.board := rfl
@[simp] theorem modEngine_now (s : State) (e : Nat) (f : Forest → Forest) : (s.modEngine e f).now = s.now := rfl
@[simp] theorem modEngine_tick (s : State) (e : Nat) (f : Forest → Forest) : (s.modEngine e f).tick = s.tick := rfl
@[simp] theorem modEngine_ticks (s : State) (e : Nat) (f : Forest → Forest) : (s.modEngine e f).ticks = s.ticks := rfl
@[simp] theorem modEngine_mbox (s : State) (e : Nat) (f : Forest → Forest) : (s.modEngine e f).mbox = s.mbox := rfl
@[simp] theorem modEngine_out (s : State) (e : Nat) (f : Forest → Forest) : (s.modEngine e f).out = s.out := rfl
@[simp] theorem modEngine_free (s : State) (e : Nat) (f : Forest → Forest) : (s.modEngine e f).free = s.free := rfl
@[simp] theorem modEngine_pending (s : State) (e : Nat) (f : Forest → Forest) : (s.modEngine e f).pending = s.pending := rfl

@[simp] theorem modFtab_straps (s : State) (f : Ftab → Ftab) : (s.modFtab f).straps = s.straps := rfl
@[simp] theorem modFtab_pkg (s : State) (f : Ftab → Ftab) : (s.modFtab f).pkg = s.pkg := rfl
@[simp] theorem modFtab_pace (s : State) (f : Ftab → Ftab) : (s.modFtab f).pace = s.pace := rfl
@[simp] theorem modFtab_pages (s : State) (f : Ftab → Ftab) : (s.modFtab f).pages = s.pages := rfl
@[simp] theorem modFtab_samp (s : State) (f : Ftab → Ftab) : (s.modFtab f).samp = s.samp := rfl
@[simp] theorem modFtab_reds (s : State) (f : Ftab → Ftab) : (s.modFtab f).reds = s.reds := rfl
@[simp] theorem modFtab_check (s : State) (f : Ftab → Ftab) : (s.modFtab f).check = s.check := rfl
@[simp] theorem modFtab_rot (s : State) (f : Ftab → Ftab) : (s.modFtab f).rot = s.rot := rfl
@[simp] theorem modFtab_time (s : State) (f : Ftab → Ftab) : (s.modFtab f).time = s.time := rfl
@[simp] theorem modFtab_bpwr (s : State) (f : Ftab → Ftab) : (s.modFtab f).bpwr = s.bpwr := rfl
@[simp] theorem modFtab_trace (s : State) (f : Ftab → Ftab) : (s.modFtab f).trace = s.trace := rfl
@[simp] theorem modFtab_snuff (s : State) (f : Ftab → Ftab) : (s.modFtab f).snuff = s.snuff := rfl
@[simp] theorem modFtab_tap (s : State) (f : Ftab → Ftab) : (s.modFtab f).tap = s.tap := rfl
@[simp] theorem modFtab_links (s : State) (f : Ftab → Ftab) : (s.modFtab f).links = s.links := rfl
@[simp] theorem modFtab_sinter (s : State) (f : Ftab → Ftab) : (s.modFtab f).sinter = s.sinter := rfl
@[simp] theorem modFtab_svc (s : State) (f : Ftab → Ftab) : (s.modFtab f).svc = s.svc := rfl
@[simp] theorem modFtab_hpwr (s : State) (f : Ftab → Ftab) : (s.modFtab f).hpwr = s.hpwr := rfl
@[simp] theorem modFtab_fum (s : State) (f : Ftab → Ftab) : (s.modFtab f).fum = s.fum := rfl
@[simp] theorem modFtab_board (s : State) (f : Ftab → Ftab) : (s.modFtab f).board = s.board := rfl
@[simp] theorem modFtab_now (s : State) (f : Ftab → Ftab) : (s.modFtab f).now = s.now := rfl
@[simp] theorem modFtab_tick (s : State) (f : Ftab → Ftab) : (s.modFtab f).tick = s.tick := rfl
@[simp] theorem modFtab_ticks (s : State) (f : Ftab → Ftab) : (s.modFtab f).ticks = s.ticks := rfl
@[simp] theorem modFtab_mbox (s : State) (f : Ftab → Ftab) : (s.modFtab f).mbox = s.mbox := rfl
@[simp] theorem modFtab_out (s : State) (f : Ftab → Ftab) : (s.modFtab f).out = s.out := rfl
@[simp] theorem modFtab_free (s : State) (f : Ftab → Ftab) : (s.modFtab f).free = s.free := rfl
@[simp] theorem modFtab_pending (s : State) (f : Ftab → Ftab) : (s.modFtab f).pending = s.pending := rfl

@[simp] theorem modCheck_straps (s : State) (f : Check → Check) : (s.modCheck f).straps = s.straps := rfl
@[simp] theorem modCheck_pkg (s : State) (f : Check → Check) : (s.modCheck f).pkg = s.pkg := rfl
@[simp] theorem modCheck_pace (s : State) (f : Check → Check) : (s.modCheck f).pace = s.pace := rfl
@[simp] theorem modCheck_pages (s : State) (f : Check → Check) : (s.modCheck f).pages = s.pages := rfl
@[simp] theorem modCheck_samp (s : State) (f : Check → Check) : (s.modCheck f).samp = s.samp := rfl
@[simp] theorem modCheck_reds (s : State) (f : Check → Check) : (s.modCheck f).reds = s.reds := rfl
@[simp] theorem modCheck_forest (s : State) (f : Check → Check) : (s.modCheck f).forest = s.forest := rfl
@[simp] theorem modCheck_check (s : State) (f : Check → Check) : (s.modCheck f).check = f s.check := rfl
@[simp] theorem modCheck_rot (s : State) (f : Check → Check) : (s.modCheck f).rot = s.rot := rfl
@[simp] theorem modCheck_time (s : State) (f : Check → Check) : (s.modCheck f).time = s.time := rfl
@[simp] theorem modCheck_bpwr (s : State) (f : Check → Check) : (s.modCheck f).bpwr = s.bpwr := rfl
@[simp] theorem modCheck_trace (s : State) (f : Check → Check) : (s.modCheck f).trace = s.trace := rfl
@[simp] theorem modCheck_snuff (s : State) (f : Check → Check) : (s.modCheck f).snuff = s.snuff := rfl
@[simp] theorem modCheck_tap (s : State) (f : Check → Check) : (s.modCheck f).tap = s.tap := rfl
@[simp] theorem modCheck_links (s : State) (f : Check → Check) : (s.modCheck f).links = s.links := rfl
@[simp] theorem modCheck_sinter (s : State) (f : Check → Check) : (s.modCheck f).sinter = s.sinter := rfl
@[simp] theorem modCheck_svc (s : State) (f : Check → Check) : (s.modCheck f).svc = s.svc := rfl
@[simp] theorem modCheck_hpwr (s : State) (f : Check → Check) : (s.modCheck f).hpwr = s.hpwr := rfl
@[simp] theorem modCheck_fum (s : State) (f : Check → Check) : (s.modCheck f).fum = s.fum := rfl
@[simp] theorem modCheck_board (s : State) (f : Check → Check) : (s.modCheck f).board = s.board := rfl
@[simp] theorem modCheck_now (s : State) (f : Check → Check) : (s.modCheck f).now = s.now := rfl
@[simp] theorem modCheck_tick (s : State) (f : Check → Check) : (s.modCheck f).tick = s.tick := rfl
@[simp] theorem modCheck_ticks (s : State) (f : Check → Check) : (s.modCheck f).ticks = s.ticks := rfl
@[simp] theorem modCheck_mbox (s : State) (f : Check → Check) : (s.modCheck f).mbox = s.mbox := rfl
@[simp] theorem modCheck_out (s : State) (f : Check → Check) : (s.modCheck f).out = s.out := rfl
@[simp] theorem modCheck_free (s : State) (f : Check → Check) : (s.modCheck f).free = s.free := rfl
@[simp] theorem modCheck_pending (s : State) (f : Check → Check) : (s.modCheck f).pending = s.pending := rfl

@[simp] theorem modTime_straps (s : State) (f : Time → Time) : (s.modTime f).straps = s.straps := rfl
@[simp] theorem modTime_pkg (s : State) (f : Time → Time) : (s.modTime f).pkg = s.pkg := rfl
@[simp] theorem modTime_pace (s : State) (f : Time → Time) : (s.modTime f).pace = s.pace := rfl
@[simp] theorem modTime_pages (s : State) (f : Time → Time) : (s.modTime f).pages = s.pages := rfl
@[simp] theorem modTime_samp (s : State) (f : Time → Time) : (s.modTime f).samp = s.samp := rfl
@[simp] theorem modTime_reds (s : State) (f : Time → Time) : (s.modTime f).reds = s.reds := rfl
@[simp] theorem modTime_forest (s : State) (f : Time → Time) : (s.modTime f).forest = s.forest := rfl
@[simp] theorem modTime_check (s : State) (f : Time → Time) : (s.modTime f).check = s.check := rfl
@[simp] theorem modTime_rot (s : State) (f : Time → Time) : (s.modTime f).rot = s.rot := rfl
@[simp] theorem modTime_time (s : State) (f : Time → Time) : (s.modTime f).time = f s.time := rfl
@[simp] theorem modTime_bpwr (s : State) (f : Time → Time) : (s.modTime f).bpwr = s.bpwr := rfl
@[simp] theorem modTime_trace (s : State) (f : Time → Time) : (s.modTime f).trace = s.trace := rfl
@[simp] theorem modTime_snuff (s : State) (f : Time → Time) : (s.modTime f).snuff = s.snuff := rfl
@[simp] theorem modTime_tap (s : State) (f : Time → Time) : (s.modTime f).tap = s.tap := rfl
@[simp] theorem modTime_links (s : State) (f : Time → Time) : (s.modTime f).links = s.links := rfl
@[simp] theorem modTime_sinter (s : State) (f : Time → Time) : (s.modTime f).sinter = s.sinter := rfl
@[simp] theorem modTime_svc (s : State) (f : Time → Time) : (s.modTime f).svc = s.svc := rfl
@[simp] theorem modTime_hpwr (s : State) (f : Time → Time) : (s.modTime f).hpwr = s.hpwr := rfl
@[simp] theorem modTime_fum (s : State) (f : Time → Time) : (s.modTime f).fum = s.fum := rfl
@[simp] theorem modTime_board (s : State) (f : Time → Time) : (s.modTime f).board = s.board := rfl
@[simp] theorem modTime_now (s : State) (f : Time → Time) : (s.modTime f).now = s.now := rfl
@[simp] theorem modTime_tick (s : State) (f : Time → Time) : (s.modTime f).tick = s.tick := rfl
@[simp] theorem modTime_ticks (s : State) (f : Time → Time) : (s.modTime f).ticks = s.ticks := rfl
@[simp] theorem modTime_mbox (s : State) (f : Time → Time) : (s.modTime f).mbox = s.mbox := rfl
@[simp] theorem modTime_out (s : State) (f : Time → Time) : (s.modTime f).out = s.out := rfl
@[simp] theorem modTime_free (s : State) (f : Time → Time) : (s.modTime f).free = s.free := rfl
@[simp] theorem modTime_pending (s : State) (f : Time → Time) : (s.modTime f).pending = s.pending := rfl

@[simp] theorem modLinks_straps (s : State) (f : Links → Links) : (s.modLinks f).straps = s.straps := rfl
@[simp] theorem modLinks_pkg (s : State) (f : Links → Links) : (s.modLinks f).pkg = s.pkg := rfl
@[simp] theorem modLinks_pace (s : State) (f : Links → Links) : (s.modLinks f).pace = s.pace := rfl
@[simp] theorem modLinks_pages (s : State) (f : Links → Links) : (s.modLinks f).pages = s.pages := rfl
@[simp] theorem modLinks_samp (s : State) (f : Links → Links) : (s.modLinks f).samp = s.samp := rfl
@[simp] theorem modLinks_reds (s : State) (f : Links → Links) : (s.modLinks f).reds = s.reds := rfl
@[simp] theorem modLinks_forest (s : State) (f : Links → Links) : (s.modLinks f).forest = s.forest := rfl
@[simp] theorem modLinks_check (s : State) (f : Links → Links) : (s.modLinks f).check = s.check := rfl
@[simp] theorem modLinks_rot (s : State) (f : Links → Links) : (s.modLinks f).rot = s.rot := rfl
@[simp] theorem modLinks_time (s : State) (f : Links → Links) : (s.modLinks f).time = s.time := rfl
@[simp] theorem modLinks_bpwr (s : State) (f : Links → Links) : (s.modLinks f).bpwr = s.bpwr := rfl
@[simp] theorem modLinks_trace (s : State) (f : Links → Links) : (s.modLinks f).trace = s.trace := rfl
@[simp] theorem modLinks_snuff (s : State) (f : Links → Links) : (s.modLinks f).snuff = s.snuff := rfl
@[simp] theorem modLinks_tap (s : State) (f : Links → Links) : (s.modLinks f).tap = s.tap := rfl
@[simp] theorem modLinks_links (s : State) (f : Links → Links) : (s.modLinks f).links = f s.links := rfl
@[simp] theorem modLinks_sinter (s : State) (f : Links → Links) : (s.modLinks f).sinter = s.sinter := rfl
@[simp] theorem modLinks_svc (s : State) (f : Links → Links) : (s.modLinks f).svc = s.svc := rfl
@[simp] theorem modLinks_hpwr (s : State) (f : Links → Links) : (s.modLinks f).hpwr = s.hpwr := rfl
@[simp] theorem modLinks_fum (s : State) (f : Links → Links) : (s.modLinks f).fum = s.fum := rfl
@[simp] theorem modLinks_board (s : State) (f : Links → Links) : (s.modLinks f).board = s.board := rfl
@[simp] theorem modLinks_now (s : State) (f : Links → Links) : (s.modLinks f).now = s.now := rfl
@[simp] theorem modLinks_tick (s : State) (f : Links → Links) : (s.modLinks f).tick = s.tick := rfl
@[simp] theorem modLinks_ticks (s : State) (f : Links → Links) : (s.modLinks f).ticks = s.ticks := rfl
@[simp] theorem modLinks_mbox (s : State) (f : Links → Links) : (s.modLinks f).mbox = s.mbox := rfl
@[simp] theorem modLinks_out (s : State) (f : Links → Links) : (s.modLinks f).out = s.out := rfl
@[simp] theorem modLinks_free (s : State) (f : Links → Links) : (s.modLinks f).free = s.free := rfl
@[simp] theorem modLinks_pending (s : State) (f : Links → Links) : (s.modLinks f).pending = s.pending := rfl

@[simp] theorem modPort_straps (s : State) (p : Nat) (f : LinkPort → LinkPort) : (s.modPort p f).straps = s.straps := rfl
@[simp] theorem modPort_pkg (s : State) (p : Nat) (f : LinkPort → LinkPort) : (s.modPort p f).pkg = s.pkg := rfl
@[simp] theorem modPort_pace (s : State) (p : Nat) (f : LinkPort → LinkPort) : (s.modPort p f).pace = s.pace := rfl
@[simp] theorem modPort_pages (s : State) (p : Nat) (f : LinkPort → LinkPort) : (s.modPort p f).pages = s.pages := rfl
@[simp] theorem modPort_samp (s : State) (p : Nat) (f : LinkPort → LinkPort) : (s.modPort p f).samp = s.samp := rfl
@[simp] theorem modPort_reds (s : State) (p : Nat) (f : LinkPort → LinkPort) : (s.modPort p f).reds = s.reds := rfl
@[simp] theorem modPort_forest (s : State) (p : Nat) (f : LinkPort → LinkPort) : (s.modPort p f).forest = s.forest := rfl
@[simp] theorem modPort_check (s : State) (p : Nat) (f : LinkPort → LinkPort) : (s.modPort p f).check = s.check := rfl
@[simp] theorem modPort_rot (s : State) (p : Nat) (f : LinkPort → LinkPort) : (s.modPort p f).rot = s.rot := rfl
@[simp] theorem modPort_time (s : State) (p : Nat) (f : LinkPort → LinkPort) : (s.modPort p f).time = s.time := rfl
@[simp] theorem modPort_bpwr (s : State) (p : Nat) (f : LinkPort → LinkPort) : (s.modPort p f).bpwr = s.bpwr := rfl
@[simp] theorem modPort_trace (s : State) (p : Nat) (f : LinkPort → LinkPort) : (s.modPort p f).trace = s.trace := rfl
@[simp] theorem modPort_snuff (s : State) (p : Nat) (f : LinkPort → LinkPort) : (s.modPort p f).snuff = s.snuff := rfl
@[simp] theorem modPort_tap (s : State) (p : Nat) (f : LinkPort → LinkPort) : (s.modPort p f).tap = s.tap := rfl
@[simp] theorem modPort_sinter (s : State) (p : Nat) (f : LinkPort → LinkPort) : (s.modPort p f).sinter = s.sinter := rfl
@[simp] theorem modPort_svc (s : State) (p : Nat) (f : LinkPort → LinkPort) : (s.modPort p f).svc = s.svc := rfl
@[simp] theorem modPort_hpwr (s : State) (p : Nat) (f : LinkPort → LinkPort) : (s.modPort p f).hpwr = s.hpwr := rfl
@[simp] theorem modPort_fum (s : State) (p : Nat) (f : LinkPort → LinkPort) : (s.modPort p f).fum = s.fum := rfl
@[simp] theorem modPort_board (s : State) (p : Nat) (f : LinkPort → LinkPort) : (s.modPort p f).board = s.board := rfl
@[simp] theorem modPort_now (s : State) (p : Nat) (f : LinkPort → LinkPort) : (s.modPort p f).now = s.now := rfl
@[simp] theorem modPort_tick (s : State) (p : Nat) (f : LinkPort → LinkPort) : (s.modPort p f).tick = s.tick := rfl
@[simp] theorem modPort_ticks (s : State) (p : Nat) (f : LinkPort → LinkPort) : (s.modPort p f).ticks = s.ticks := rfl
@[simp] theorem modPort_mbox (s : State) (p : Nat) (f : LinkPort → LinkPort) : (s.modPort p f).mbox = s.mbox := rfl
@[simp] theorem modPort_out (s : State) (p : Nat) (f : LinkPort → LinkPort) : (s.modPort p f).out = s.out := rfl
@[simp] theorem modPort_free (s : State) (p : Nat) (f : LinkPort → LinkPort) : (s.modPort p f).free = s.free := rfl
@[simp] theorem modPort_pending (s : State) (p : Nat) (f : LinkPort → LinkPort) : (s.modPort p f).pending = s.pending := rfl

@[simp] theorem modChan_straps (s : State) (c : Nat) (f : Chan → Chan) : (s.modChan c f).straps = s.straps := rfl
@[simp] theorem modChan_pkg (s : State) (c : Nat) (f : Chan → Chan) : (s.modChan c f).pkg = s.pkg := rfl
@[simp] theorem modChan_pace (s : State) (c : Nat) (f : Chan → Chan) : (s.modChan c f).pace = s.pace := rfl
@[simp] theorem modChan_pages (s : State) (c : Nat) (f : Chan → Chan) : (s.modChan c f).pages = s.pages := rfl
@[simp] theorem modChan_samp (s : State) (c : Nat) (f : Chan → Chan) : (s.modChan c f).samp = s.samp := rfl
@[simp] theorem modChan_reds (s : State) (c : Nat) (f : Chan → Chan) : (s.modChan c f).reds = s.reds := rfl
@[simp] theorem modChan_forest (s : State) (c : Nat) (f : Chan → Chan) : (s.modChan c f).forest = s.forest := rfl
@[simp] theorem modChan_check (s : State) (c : Nat) (f : Chan → Chan) : (s.modChan c f).check = s.check := rfl
@[simp] theorem modChan_rot (s : State) (c : Nat) (f : Chan → Chan) : (s.modChan c f).rot = s.rot := rfl
@[simp] theorem modChan_time (s : State) (c : Nat) (f : Chan → Chan) : (s.modChan c f).time = s.time := rfl
@[simp] theorem modChan_bpwr (s : State) (c : Nat) (f : Chan → Chan) : (s.modChan c f).bpwr = s.bpwr := rfl
@[simp] theorem modChan_trace (s : State) (c : Nat) (f : Chan → Chan) : (s.modChan c f).trace = s.trace := rfl
@[simp] theorem modChan_snuff (s : State) (c : Nat) (f : Chan → Chan) : (s.modChan c f).snuff = s.snuff := rfl
@[simp] theorem modChan_tap (s : State) (c : Nat) (f : Chan → Chan) : (s.modChan c f).tap = s.tap := rfl
@[simp] theorem modChan_sinter (s : State) (c : Nat) (f : Chan → Chan) : (s.modChan c f).sinter = s.sinter := rfl
@[simp] theorem modChan_svc (s : State) (c : Nat) (f : Chan → Chan) : (s.modChan c f).svc = s.svc := rfl
@[simp] theorem modChan_hpwr (s : State) (c : Nat) (f : Chan → Chan) : (s.modChan c f).hpwr = s.hpwr := rfl
@[simp] theorem modChan_fum (s : State) (c : Nat) (f : Chan → Chan) : (s.modChan c f).fum = s.fum := rfl
@[simp] theorem modChan_board (s : State) (c : Nat) (f : Chan → Chan) : (s.modChan c f).board = s.board := rfl
@[simp] theorem modChan_now (s : State) (c : Nat) (f : Chan → Chan) : (s.modChan c f).now = s.now := rfl
@[simp] theorem modChan_tick (s : State) (c : Nat) (f : Chan → Chan) : (s.modChan c f).tick = s.tick := rfl
@[simp] theorem modChan_ticks (s : State) (c : Nat) (f : Chan → Chan) : (s.modChan c f).ticks = s.ticks := rfl
@[simp] theorem modChan_mbox (s : State) (c : Nat) (f : Chan → Chan) : (s.modChan c f).mbox = s.mbox := rfl
@[simp] theorem modChan_out (s : State) (c : Nat) (f : Chan → Chan) : (s.modChan c f).out = s.out := rfl
@[simp] theorem modChan_free (s : State) (c : Nat) (f : Chan → Chan) : (s.modChan c f).free = s.free := rfl
@[simp] theorem modChan_pending (s : State) (c : Nat) (f : Chan → Chan) : (s.modChan c f).pending = s.pending := rfl

@[simp] theorem modSinter_straps (s : State) (f : Sinter → Sinter) : (s.modSinter f).straps = s.straps := rfl
@[simp] theorem modSinter_pkg (s : State) (f : Sinter → Sinter) : (s.modSinter f).pkg = s.pkg := rfl
@[simp] theorem modSinter_pace (s : State) (f : Sinter → Sinter) : (s.modSinter f).pace = s.pace := rfl
@[simp] theorem modSinter_pages (s : State) (f : Sinter → Sinter) : (s.modSinter f).pages = s.pages := rfl
@[simp] theorem modSinter_samp (s : State) (f : Sinter → Sinter) : (s.modSinter f).samp = s.samp := rfl
@[simp] theorem modSinter_reds (s : State) (f : Sinter → Sinter) : (s.modSinter f).reds = s.reds := rfl
@[simp] theorem modSinter_forest (s : State) (f : Sinter → Sinter) : (s.modSinter f).forest = s.forest := rfl
@[simp] theorem modSinter_check (s : State) (f : Sinter → Sinter) : (s.modSinter f).check = s.check := rfl
@[simp] theorem modSinter_rot (s : State) (f : Sinter → Sinter) : (s.modSinter f).rot = s.rot := rfl
@[simp] theorem modSinter_time (s : State) (f : Sinter → Sinter) : (s.modSinter f).time = s.time := rfl
@[simp] theorem modSinter_bpwr (s : State) (f : Sinter → Sinter) : (s.modSinter f).bpwr = s.bpwr := rfl
@[simp] theorem modSinter_trace (s : State) (f : Sinter → Sinter) : (s.modSinter f).trace = s.trace := rfl
@[simp] theorem modSinter_snuff (s : State) (f : Sinter → Sinter) : (s.modSinter f).snuff = s.snuff := rfl
@[simp] theorem modSinter_tap (s : State) (f : Sinter → Sinter) : (s.modSinter f).tap = s.tap := rfl
@[simp] theorem modSinter_links (s : State) (f : Sinter → Sinter) : (s.modSinter f).links = s.links := rfl
@[simp] theorem modSinter_sinter (s : State) (f : Sinter → Sinter) : (s.modSinter f).sinter = f s.sinter := rfl
@[simp] theorem modSinter_svc (s : State) (f : Sinter → Sinter) : (s.modSinter f).svc = s.svc := rfl
@[simp] theorem modSinter_hpwr (s : State) (f : Sinter → Sinter) : (s.modSinter f).hpwr = s.hpwr := rfl
@[simp] theorem modSinter_fum (s : State) (f : Sinter → Sinter) : (s.modSinter f).fum = s.fum := rfl
@[simp] theorem modSinter_board (s : State) (f : Sinter → Sinter) : (s.modSinter f).board = s.board := rfl
@[simp] theorem modSinter_now (s : State) (f : Sinter → Sinter) : (s.modSinter f).now = s.now := rfl
@[simp] theorem modSinter_tick (s : State) (f : Sinter → Sinter) : (s.modSinter f).tick = s.tick := rfl
@[simp] theorem modSinter_ticks (s : State) (f : Sinter → Sinter) : (s.modSinter f).ticks = s.ticks := rfl
@[simp] theorem modSinter_mbox (s : State) (f : Sinter → Sinter) : (s.modSinter f).mbox = s.mbox := rfl
@[simp] theorem modSinter_out (s : State) (f : Sinter → Sinter) : (s.modSinter f).out = s.out := rfl
@[simp] theorem modSinter_free (s : State) (f : Sinter → Sinter) : (s.modSinter f).free = s.free := rfl
@[simp] theorem modSinter_pending (s : State) (f : Sinter → Sinter) : (s.modSinter f).pending = s.pending := rfl

@[simp] theorem modSvc_straps (s : State) (f : Svc → Svc) : (s.modSvc f).straps = s.straps := rfl
@[simp] theorem modSvc_pkg (s : State) (f : Svc → Svc) : (s.modSvc f).pkg = s.pkg := rfl
@[simp] theorem modSvc_pace (s : State) (f : Svc → Svc) : (s.modSvc f).pace = s.pace := rfl
@[simp] theorem modSvc_pages (s : State) (f : Svc → Svc) : (s.modSvc f).pages = s.pages := rfl
@[simp] theorem modSvc_samp (s : State) (f : Svc → Svc) : (s.modSvc f).samp = s.samp := rfl
@[simp] theorem modSvc_reds (s : State) (f : Svc → Svc) : (s.modSvc f).reds = s.reds := rfl
@[simp] theorem modSvc_forest (s : State) (f : Svc → Svc) : (s.modSvc f).forest = s.forest := rfl
@[simp] theorem modSvc_check (s : State) (f : Svc → Svc) : (s.modSvc f).check = s.check := rfl
@[simp] theorem modSvc_rot (s : State) (f : Svc → Svc) : (s.modSvc f).rot = s.rot := rfl
@[simp] theorem modSvc_time (s : State) (f : Svc → Svc) : (s.modSvc f).time = s.time := rfl
@[simp] theorem modSvc_bpwr (s : State) (f : Svc → Svc) : (s.modSvc f).bpwr = s.bpwr := rfl
@[simp] theorem modSvc_trace (s : State) (f : Svc → Svc) : (s.modSvc f).trace = s.trace := rfl
@[simp] theorem modSvc_snuff (s : State) (f : Svc → Svc) : (s.modSvc f).snuff = s.snuff := rfl
@[simp] theorem modSvc_tap (s : State) (f : Svc → Svc) : (s.modSvc f).tap = s.tap := rfl
@[simp] theorem modSvc_links (s : State) (f : Svc → Svc) : (s.modSvc f).links = s.links := rfl
@[simp] theorem modSvc_sinter (s : State) (f : Svc → Svc) : (s.modSvc f).sinter = s.sinter := rfl
@[simp] theorem modSvc_svc (s : State) (f : Svc → Svc) : (s.modSvc f).svc = f s.svc := rfl
@[simp] theorem modSvc_hpwr (s : State) (f : Svc → Svc) : (s.modSvc f).hpwr = s.hpwr := rfl
@[simp] theorem modSvc_fum (s : State) (f : Svc → Svc) : (s.modSvc f).fum = s.fum := rfl
@[simp] theorem modSvc_board (s : State) (f : Svc → Svc) : (s.modSvc f).board = s.board := rfl
@[simp] theorem modSvc_now (s : State) (f : Svc → Svc) : (s.modSvc f).now = s.now := rfl
@[simp] theorem modSvc_tick (s : State) (f : Svc → Svc) : (s.modSvc f).tick = s.tick := rfl
@[simp] theorem modSvc_ticks (s : State) (f : Svc → Svc) : (s.modSvc f).ticks = s.ticks := rfl
@[simp] theorem modSvc_mbox (s : State) (f : Svc → Svc) : (s.modSvc f).mbox = s.mbox := rfl
@[simp] theorem modSvc_out (s : State) (f : Svc → Svc) : (s.modSvc f).out = s.out := rfl
@[simp] theorem modSvc_free (s : State) (f : Svc → Svc) : (s.modSvc f).free = s.free := rfl
@[simp] theorem modSvc_pending (s : State) (f : Svc → Svc) : (s.modSvc f).pending = s.pending := rfl

@[simp] theorem modHp_straps (s : State) (f : Hpwr → Hpwr) : (s.modHp f).straps = s.straps := rfl
@[simp] theorem modHp_pkg (s : State) (f : Hpwr → Hpwr) : (s.modHp f).pkg = s.pkg := rfl
@[simp] theorem modHp_pace (s : State) (f : Hpwr → Hpwr) : (s.modHp f).pace = s.pace := rfl
@[simp] theorem modHp_pages (s : State) (f : Hpwr → Hpwr) : (s.modHp f).pages = s.pages := rfl
@[simp] theorem modHp_samp (s : State) (f : Hpwr → Hpwr) : (s.modHp f).samp = s.samp := rfl
@[simp] theorem modHp_reds (s : State) (f : Hpwr → Hpwr) : (s.modHp f).reds = s.reds := rfl
@[simp] theorem modHp_forest (s : State) (f : Hpwr → Hpwr) : (s.modHp f).forest = s.forest := rfl
@[simp] theorem modHp_check (s : State) (f : Hpwr → Hpwr) : (s.modHp f).check = s.check := rfl
@[simp] theorem modHp_rot (s : State) (f : Hpwr → Hpwr) : (s.modHp f).rot = s.rot := rfl
@[simp] theorem modHp_time (s : State) (f : Hpwr → Hpwr) : (s.modHp f).time = s.time := rfl
@[simp] theorem modHp_bpwr (s : State) (f : Hpwr → Hpwr) : (s.modHp f).bpwr = s.bpwr := rfl
@[simp] theorem modHp_trace (s : State) (f : Hpwr → Hpwr) : (s.modHp f).trace = s.trace := rfl
@[simp] theorem modHp_snuff (s : State) (f : Hpwr → Hpwr) : (s.modHp f).snuff = s.snuff := rfl
@[simp] theorem modHp_tap (s : State) (f : Hpwr → Hpwr) : (s.modHp f).tap = s.tap := rfl
@[simp] theorem modHp_links (s : State) (f : Hpwr → Hpwr) : (s.modHp f).links = s.links := rfl
@[simp] theorem modHp_sinter (s : State) (f : Hpwr → Hpwr) : (s.modHp f).sinter = s.sinter := rfl
@[simp] theorem modHp_svc (s : State) (f : Hpwr → Hpwr) : (s.modHp f).svc = s.svc := rfl
@[simp] theorem modHp_hpwr (s : State) (f : Hpwr → Hpwr) : (s.modHp f).hpwr = f s.hpwr := rfl
@[simp] theorem modHp_fum (s : State) (f : Hpwr → Hpwr) : (s.modHp f).fum = s.fum := rfl
@[simp] theorem modHp_board (s : State) (f : Hpwr → Hpwr) : (s.modHp f).board = s.board := rfl
@[simp] theorem modHp_now (s : State) (f : Hpwr → Hpwr) : (s.modHp f).now = s.now := rfl
@[simp] theorem modHp_tick (s : State) (f : Hpwr → Hpwr) : (s.modHp f).tick = s.tick := rfl
@[simp] theorem modHp_ticks (s : State) (f : Hpwr → Hpwr) : (s.modHp f).ticks = s.ticks := rfl
@[simp] theorem modHp_mbox (s : State) (f : Hpwr → Hpwr) : (s.modHp f).mbox = s.mbox := rfl
@[simp] theorem modHp_out (s : State) (f : Hpwr → Hpwr) : (s.modHp f).out = s.out := rfl
@[simp] theorem modHp_free (s : State) (f : Hpwr → Hpwr) : (s.modHp f).free = s.free := rfl
@[simp] theorem modHp_pending (s : State) (f : Hpwr → Hpwr) : (s.modHp f).pending = s.pending := rfl

@[simp] theorem modFum_straps (s : State) (f : Fum → Fum) : (s.modFum f).straps = s.straps := rfl
@[simp] theorem modFum_pkg (s : State) (f : Fum → Fum) : (s.modFum f).pkg = s.pkg := rfl
@[simp] theorem modFum_pace (s : State) (f : Fum → Fum) : (s.modFum f).pace = s.pace := rfl
@[simp] theorem modFum_pages (s : State) (f : Fum → Fum) : (s.modFum f).pages = s.pages := rfl
@[simp] theorem modFum_samp (s : State) (f : Fum → Fum) : (s.modFum f).samp = s.samp := rfl
@[simp] theorem modFum_reds (s : State) (f : Fum → Fum) : (s.modFum f).reds = s.reds := rfl
@[simp] theorem modFum_forest (s : State) (f : Fum → Fum) : (s.modFum f).forest = s.forest := rfl
@[simp] theorem modFum_check (s : State) (f : Fum → Fum) : (s.modFum f).check = s.check := rfl
@[simp] theorem modFum_rot (s : State) (f : Fum → Fum) : (s.modFum f).rot = s.rot := rfl
@[simp] theorem modFum_time (s : State) (f : Fum → Fum) : (s.modFum f).time = s.time := rfl
@[simp] theorem modFum_bpwr (s : State) (f : Fum → Fum) : (s.modFum f).bpwr = s.bpwr := rfl
@[simp] theorem modFum_trace (s : State) (f : Fum → Fum) : (s.modFum f).trace = s.trace := rfl
@[simp] theorem modFum_snuff (s : State) (f : Fum → Fum) : (s.modFum f).snuff = s.snuff := rfl
@[simp] theorem modFum_tap (s : State) (f : Fum → Fum) : (s.modFum f).tap = s.tap := rfl
@[simp] theorem modFum_links (s : State) (f : Fum → Fum) : (s.modFum f).links = s.links := rfl
@[simp] theorem modFum_sinter (s : State) (f : Fum → Fum) : (s.modFum f).sinter = s.sinter := rfl
@[simp] theorem modFum_svc (s : State) (f : Fum → Fum) : (s.modFum f).svc = s.svc := rfl
@[simp] theorem modFum_hpwr (s : State) (f : Fum → Fum) : (s.modFum f).hpwr = s.hpwr := rfl
@[simp] theorem modFum_fum (s : State) (f : Fum → Fum) : (s.modFum f).fum = f s.fum := rfl
@[simp] theorem modFum_board (s : State) (f : Fum → Fum) : (s.modFum f).board = s.board := rfl
@[simp] theorem modFum_now (s : State) (f : Fum → Fum) : (s.modFum f).now = s.now := rfl
@[simp] theorem modFum_tick (s : State) (f : Fum → Fum) : (s.modFum f).tick = s.tick := rfl
@[simp] theorem modFum_ticks (s : State) (f : Fum → Fum) : (s.modFum f).ticks = s.ticks := rfl
@[simp] theorem modFum_mbox (s : State) (f : Fum → Fum) : (s.modFum f).mbox = s.mbox := rfl
@[simp] theorem modFum_out (s : State) (f : Fum → Fum) : (s.modFum f).out = s.out := rfl
@[simp] theorem modFum_free (s : State) (f : Fum → Fum) : (s.modFum f).free = s.free := rfl
@[simp] theorem modFum_pending (s : State) (f : Fum → Fum) : (s.modFum f).pending = s.pending := rfl

@[simp] theorem modBpwr_straps (s : State) (f : Bpwr → Bpwr) : (s.modBpwr f).straps = s.straps := rfl
@[simp] theorem modBpwr_pkg (s : State) (f : Bpwr → Bpwr) : (s.modBpwr f).pkg = s.pkg := rfl
@[simp] theorem modBpwr_pace (s : State) (f : Bpwr → Bpwr) : (s.modBpwr f).pace = s.pace := rfl
@[simp] theorem modBpwr_pages (s : State) (f : Bpwr → Bpwr) : (s.modBpwr f).pages = s.pages := rfl
@[simp] theorem modBpwr_samp (s : State) (f : Bpwr → Bpwr) : (s.modBpwr f).samp = s.samp := rfl
@[simp] theorem modBpwr_reds (s : State) (f : Bpwr → Bpwr) : (s.modBpwr f).reds = s.reds := rfl
@[simp] theorem modBpwr_forest (s : State) (f : Bpwr → Bpwr) : (s.modBpwr f).forest = s.forest := rfl
@[simp] theorem modBpwr_check (s : State) (f : Bpwr → Bpwr) : (s.modBpwr f).check = s.check := rfl
@[simp] theorem modBpwr_rot (s : State) (f : Bpwr → Bpwr) : (s.modBpwr f).rot = s.rot := rfl
@[simp] theorem modBpwr_time (s : State) (f : Bpwr → Bpwr) : (s.modBpwr f).time = s.time := rfl
@[simp] theorem modBpwr_bpwr (s : State) (f : Bpwr → Bpwr) : (s.modBpwr f).bpwr = f s.bpwr := rfl
@[simp] theorem modBpwr_trace (s : State) (f : Bpwr → Bpwr) : (s.modBpwr f).trace = s.trace := rfl
@[simp] theorem modBpwr_snuff (s : State) (f : Bpwr → Bpwr) : (s.modBpwr f).snuff = s.snuff := rfl
@[simp] theorem modBpwr_tap (s : State) (f : Bpwr → Bpwr) : (s.modBpwr f).tap = s.tap := rfl
@[simp] theorem modBpwr_links (s : State) (f : Bpwr → Bpwr) : (s.modBpwr f).links = s.links := rfl
@[simp] theorem modBpwr_sinter (s : State) (f : Bpwr → Bpwr) : (s.modBpwr f).sinter = s.sinter := rfl
@[simp] theorem modBpwr_svc (s : State) (f : Bpwr → Bpwr) : (s.modBpwr f).svc = s.svc := rfl
@[simp] theorem modBpwr_hpwr (s : State) (f : Bpwr → Bpwr) : (s.modBpwr f).hpwr = s.hpwr := rfl
@[simp] theorem modBpwr_fum (s : State) (f : Bpwr → Bpwr) : (s.modBpwr f).fum = s.fum := rfl
@[simp] theorem modBpwr_board (s : State) (f : Bpwr → Bpwr) : (s.modBpwr f).board = s.board := rfl
@[simp] theorem modBpwr_now (s : State) (f : Bpwr → Bpwr) : (s.modBpwr f).now = s.now := rfl
@[simp] theorem modBpwr_tick (s : State) (f : Bpwr → Bpwr) : (s.modBpwr f).tick = s.tick := rfl
@[simp] theorem modBpwr_ticks (s : State) (f : Bpwr → Bpwr) : (s.modBpwr f).ticks = s.ticks := rfl
@[simp] theorem modBpwr_mbox (s : State) (f : Bpwr → Bpwr) : (s.modBpwr f).mbox = s.mbox := rfl
@[simp] theorem modBpwr_out (s : State) (f : Bpwr → Bpwr) : (s.modBpwr f).out = s.out := rfl
@[simp] theorem modBpwr_free (s : State) (f : Bpwr → Bpwr) : (s.modBpwr f).free = s.free := rfl
@[simp] theorem modBpwr_pending (s : State) (f : Bpwr → Bpwr) : (s.modBpwr f).pending = s.pending := rfl

@[simp] theorem modTrace_straps (s : State) (f : Trace → Trace) : (s.modTrace f).straps = s.straps := rfl
@[simp] theorem modTrace_pkg (s : State) (f : Trace → Trace) : (s.modTrace f).pkg = s.pkg := rfl
@[simp] theorem modTrace_pace (s : State) (f : Trace → Trace) : (s.modTrace f).pace = s.pace := rfl
@[simp] theorem modTrace_pages (s : State) (f : Trace → Trace) : (s.modTrace f).pages = s.pages := rfl
@[simp] theorem modTrace_samp (s : State) (f : Trace → Trace) : (s.modTrace f).samp = s.samp := rfl
@[simp] theorem modTrace_reds (s : State) (f : Trace → Trace) : (s.modTrace f).reds = s.reds := rfl
@[simp] theorem modTrace_forest (s : State) (f : Trace → Trace) : (s.modTrace f).forest = s.forest := rfl
@[simp] theorem modTrace_check (s : State) (f : Trace → Trace) : (s.modTrace f).check = s.check := rfl
@[simp] theorem modTrace_rot (s : State) (f : Trace → Trace) : (s.modTrace f).rot = s.rot := rfl
@[simp] theorem modTrace_time (s : State) (f : Trace → Trace) : (s.modTrace f).time = s.time := rfl
@[simp] theorem modTrace_bpwr (s : State) (f : Trace → Trace) : (s.modTrace f).bpwr = s.bpwr := rfl
@[simp] theorem modTrace_trace (s : State) (f : Trace → Trace) : (s.modTrace f).trace = f s.trace := rfl
@[simp] theorem modTrace_snuff (s : State) (f : Trace → Trace) : (s.modTrace f).snuff = s.snuff := rfl
@[simp] theorem modTrace_tap (s : State) (f : Trace → Trace) : (s.modTrace f).tap = s.tap := rfl
@[simp] theorem modTrace_links (s : State) (f : Trace → Trace) : (s.modTrace f).links = s.links := rfl
@[simp] theorem modTrace_sinter (s : State) (f : Trace → Trace) : (s.modTrace f).sinter = s.sinter := rfl
@[simp] theorem modTrace_svc (s : State) (f : Trace → Trace) : (s.modTrace f).svc = s.svc := rfl
@[simp] theorem modTrace_hpwr (s : State) (f : Trace → Trace) : (s.modTrace f).hpwr = s.hpwr := rfl
@[simp] theorem modTrace_fum (s : State) (f : Trace → Trace) : (s.modTrace f).fum = s.fum := rfl
@[simp] theorem modTrace_board (s : State) (f : Trace → Trace) : (s.modTrace f).board = s.board := rfl
@[simp] theorem modTrace_now (s : State) (f : Trace → Trace) : (s.modTrace f).now = s.now := rfl
@[simp] theorem modTrace_tick (s : State) (f : Trace → Trace) : (s.modTrace f).tick = s.tick := rfl
@[simp] theorem modTrace_ticks (s : State) (f : Trace → Trace) : (s.modTrace f).ticks = s.ticks := rfl
@[simp] theorem modTrace_mbox (s : State) (f : Trace → Trace) : (s.modTrace f).mbox = s.mbox := rfl
@[simp] theorem modTrace_out (s : State) (f : Trace → Trace) : (s.modTrace f).out = s.out := rfl
@[simp] theorem modTrace_free (s : State) (f : Trace → Trace) : (s.modTrace f).free = s.free := rfl
@[simp] theorem modTrace_pending (s : State) (f : Trace → Trace) : (s.modTrace f).pending = s.pending := rfl

@[simp] theorem modSnuff_straps (s : State) (f : Snuff → Snuff) : (s.modSnuff f).straps = s.straps := rfl
@[simp] theorem modSnuff_pkg (s : State) (f : Snuff → Snuff) : (s.modSnuff f).pkg = s.pkg := rfl
@[simp] theorem modSnuff_pace (s : State) (f : Snuff → Snuff) : (s.modSnuff f).pace = s.pace := rfl
@[simp] theorem modSnuff_pages (s : State) (f : Snuff → Snuff) : (s.modSnuff f).pages = s.pages := rfl
@[simp] theorem modSnuff_samp (s : State) (f : Snuff → Snuff) : (s.modSnuff f).samp = s.samp := rfl
@[simp] theorem modSnuff_reds (s : State) (f : Snuff → Snuff) : (s.modSnuff f).reds = s.reds := rfl
@[simp] theorem modSnuff_forest (s : State) (f : Snuff → Snuff) : (s.modSnuff f).forest = s.forest := rfl
@[simp] theorem modSnuff_check (s : State) (f : Snuff → Snuff) : (s.modSnuff f).check = s.check := rfl
@[simp] theorem modSnuff_rot (s : State) (f : Snuff → Snuff) : (s.modSnuff f).rot = s.rot := rfl
@[simp] theorem modSnuff_time (s : State) (f : Snuff → Snuff) : (s.modSnuff f).time = s.time := rfl
@[simp] theorem modSnuff_bpwr (s : State) (f : Snuff → Snuff) : (s.modSnuff f).bpwr = s.bpwr := rfl
@[simp] theorem modSnuff_trace (s : State) (f : Snuff → Snuff) : (s.modSnuff f).trace = s.trace := rfl
@[simp] theorem modSnuff_snuff (s : State) (f : Snuff → Snuff) : (s.modSnuff f).snuff = f s.snuff := rfl
@[simp] theorem modSnuff_tap (s : State) (f : Snuff → Snuff) : (s.modSnuff f).tap = s.tap := rfl
@[simp] theorem modSnuff_links (s : State) (f : Snuff → Snuff) : (s.modSnuff f).links = s.links := rfl
@[simp] theorem modSnuff_sinter (s : State) (f : Snuff → Snuff) : (s.modSnuff f).sinter = s.sinter := rfl
@[simp] theorem modSnuff_svc (s : State) (f : Snuff → Snuff) : (s.modSnuff f).svc = s.svc := rfl
@[simp] theorem modSnuff_hpwr (s : State) (f : Snuff → Snuff) : (s.modSnuff f).hpwr = s.hpwr := rfl
@[simp] theorem modSnuff_fum (s : State) (f : Snuff → Snuff) : (s.modSnuff f).fum = s.fum := rfl
@[simp] theorem modSnuff_board (s : State) (f : Snuff → Snuff) : (s.modSnuff f).board = s.board := rfl
@[simp] theorem modSnuff_now (s : State) (f : Snuff → Snuff) : (s.modSnuff f).now = s.now := rfl
@[simp] theorem modSnuff_tick (s : State) (f : Snuff → Snuff) : (s.modSnuff f).tick = s.tick := rfl
@[simp] theorem modSnuff_ticks (s : State) (f : Snuff → Snuff) : (s.modSnuff f).ticks = s.ticks := rfl
@[simp] theorem modSnuff_mbox (s : State) (f : Snuff → Snuff) : (s.modSnuff f).mbox = s.mbox := rfl
@[simp] theorem modSnuff_out (s : State) (f : Snuff → Snuff) : (s.modSnuff f).out = s.out := rfl
@[simp] theorem modSnuff_free (s : State) (f : Snuff → Snuff) : (s.modSnuff f).free = s.free := rfl
@[simp] theorem modSnuff_pending (s : State) (f : Snuff → Snuff) : (s.modSnuff f).pending = s.pending := rfl

@[simp] theorem modTap_straps (s : State) (f : Tap → Tap) : (s.modTap f).straps = s.straps := rfl
@[simp] theorem modTap_pkg (s : State) (f : Tap → Tap) : (s.modTap f).pkg = s.pkg := rfl
@[simp] theorem modTap_pace (s : State) (f : Tap → Tap) : (s.modTap f).pace = s.pace := rfl
@[simp] theorem modTap_pages (s : State) (f : Tap → Tap) : (s.modTap f).pages = s.pages := rfl
@[simp] theorem modTap_samp (s : State) (f : Tap → Tap) : (s.modTap f).samp = s.samp := rfl
@[simp] theorem modTap_reds (s : State) (f : Tap → Tap) : (s.modTap f).reds = s.reds := rfl
@[simp] theorem modTap_forest (s : State) (f : Tap → Tap) : (s.modTap f).forest = s.forest := rfl
@[simp] theorem modTap_check (s : State) (f : Tap → Tap) : (s.modTap f).check = s.check := rfl
@[simp] theorem modTap_rot (s : State) (f : Tap → Tap) : (s.modTap f).rot = s.rot := rfl
@[simp] theorem modTap_time (s : State) (f : Tap → Tap) : (s.modTap f).time = s.time := rfl
@[simp] theorem modTap_bpwr (s : State) (f : Tap → Tap) : (s.modTap f).bpwr = s.bpwr := rfl
@[simp] theorem modTap_trace (s : State) (f : Tap → Tap) : (s.modTap f).trace = s.trace := rfl
@[simp] theorem modTap_snuff (s : State) (f : Tap → Tap) : (s.modTap f).snuff = s.snuff := rfl
@[simp] theorem modTap_tap (s : State) (f : Tap → Tap) : (s.modTap f).tap = f s.tap := rfl
@[simp] theorem modTap_links (s : State) (f : Tap → Tap) : (s.modTap f).links = s.links := rfl
@[simp] theorem modTap_sinter (s : State) (f : Tap → Tap) : (s.modTap f).sinter = s.sinter := rfl
@[simp] theorem modTap_svc (s : State) (f : Tap → Tap) : (s.modTap f).svc = s.svc := rfl
@[simp] theorem modTap_hpwr (s : State) (f : Tap → Tap) : (s.modTap f).hpwr = s.hpwr := rfl
@[simp] theorem modTap_fum (s : State) (f : Tap → Tap) : (s.modTap f).fum = s.fum := rfl
@[simp] theorem modTap_board (s : State) (f : Tap → Tap) : (s.modTap f).board = s.board := rfl
@[simp] theorem modTap_now (s : State) (f : Tap → Tap) : (s.modTap f).now = s.now := rfl
@[simp] theorem modTap_tick (s : State) (f : Tap → Tap) : (s.modTap f).tick = s.tick := rfl
@[simp] theorem modTap_ticks (s : State) (f : Tap → Tap) : (s.modTap f).ticks = s.ticks := rfl
@[simp] theorem modTap_mbox (s : State) (f : Tap → Tap) : (s.modTap f).mbox = s.mbox := rfl
@[simp] theorem modTap_out (s : State) (f : Tap → Tap) : (s.modTap f).out = s.out := rfl
@[simp] theorem modTap_free (s : State) (f : Tap → Tap) : (s.modTap f).free = s.free := rfl
@[simp] theorem modTap_pending (s : State) (f : Tap → Tap) : (s.modTap f).pending = s.pending := rfl

@[simp] theorem modRot_straps (s : State) (f : Rot → Rot) : (s.modRot f).straps = s.straps := rfl
@[simp] theorem modRot_pkg (s : State) (f : Rot → Rot) : (s.modRot f).pkg = s.pkg := rfl
@[simp] theorem modRot_pace (s : State) (f : Rot → Rot) : (s.modRot f).pace = s.pace := rfl
@[simp] theorem modRot_pages (s : State) (f : Rot → Rot) : (s.modRot f).pages = s.pages := rfl
@[simp] theorem modRot_samp (s : State) (f : Rot → Rot) : (s.modRot f).samp = s.samp := rfl
@[simp] theorem modRot_reds (s : State) (f : Rot → Rot) : (s.modRot f).reds = s.reds := rfl
@[simp] theorem modRot_forest (s : State) (f : Rot → Rot) : (s.modRot f).forest = s.forest := rfl
@[simp] theorem modRot_check (s : State) (f : Rot → Rot) : (s.modRot f).check = s.check := rfl
@[simp] theorem modRot_rot (s : State) (f : Rot → Rot) : (s.modRot f).rot = f s.rot := rfl
@[simp] theorem modRot_time (s : State) (f : Rot → Rot) : (s.modRot f).time = s.time := rfl
@[simp] theorem modRot_bpwr (s : State) (f : Rot → Rot) : (s.modRot f).bpwr = s.bpwr := rfl
@[simp] theorem modRot_trace (s : State) (f : Rot → Rot) : (s.modRot f).trace = s.trace := rfl
@[simp] theorem modRot_snuff (s : State) (f : Rot → Rot) : (s.modRot f).snuff = s.snuff := rfl
@[simp] theorem modRot_tap (s : State) (f : Rot → Rot) : (s.modRot f).tap = s.tap := rfl
@[simp] theorem modRot_links (s : State) (f : Rot → Rot) : (s.modRot f).links = s.links := rfl
@[simp] theorem modRot_sinter (s : State) (f : Rot → Rot) : (s.modRot f).sinter = s.sinter := rfl
@[simp] theorem modRot_svc (s : State) (f : Rot → Rot) : (s.modRot f).svc = s.svc := rfl
@[simp] theorem modRot_hpwr (s : State) (f : Rot → Rot) : (s.modRot f).hpwr = s.hpwr := rfl
@[simp] theorem modRot_fum (s : State) (f : Rot → Rot) : (s.modRot f).fum = s.fum := rfl
@[simp] theorem modRot_board (s : State) (f : Rot → Rot) : (s.modRot f).board = s.board := rfl
@[simp] theorem modRot_now (s : State) (f : Rot → Rot) : (s.modRot f).now = s.now := rfl
@[simp] theorem modRot_tick (s : State) (f : Rot → Rot) : (s.modRot f).tick = s.tick := rfl
@[simp] theorem modRot_ticks (s : State) (f : Rot → Rot) : (s.modRot f).ticks = s.ticks := rfl
@[simp] theorem modRot_mbox (s : State) (f : Rot → Rot) : (s.modRot f).mbox = s.mbox := rfl
@[simp] theorem modRot_out (s : State) (f : Rot → Rot) : (s.modRot f).out = s.out := rfl
@[simp] theorem modRot_free (s : State) (f : Rot → Rot) : (s.modRot f).free = s.free := rfl
@[simp] theorem modRot_pending (s : State) (f : Rot → Rot) : (s.modRot f).pending = s.pending := rfl

@[simp] theorem modBoard_straps (s : State) (f : Board → Board) : (s.modBoard f).straps = s.straps := rfl
@[simp] theorem modBoard_pkg (s : State) (f : Board → Board) : (s.modBoard f).pkg = s.pkg := rfl
@[simp] theorem modBoard_pace (s : State) (f : Board → Board) : (s.modBoard f).pace = s.pace := rfl
@[simp] theorem modBoard_pages (s : State) (f : Board → Board) : (s.modBoard f).pages = s.pages := rfl
@[simp] theorem modBoard_samp (s : State) (f : Board → Board) : (s.modBoard f).samp = s.samp := rfl
@[simp] theorem modBoard_reds (s : State) (f : Board → Board) : (s.modBoard f).reds = s.reds := rfl
@[simp] theorem modBoard_forest (s : State) (f : Board → Board) : (s.modBoard f).forest = s.forest := rfl
@[simp] theorem modBoard_check (s : State) (f : Board → Board) : (s.modBoard f).check = s.check := rfl
@[simp] theorem modBoard_rot (s : State) (f : Board → Board) : (s.modBoard f).rot = s.rot := rfl
@[simp] theorem modBoard_time (s : State) (f : Board → Board) : (s.modBoard f).time = s.time := rfl
@[simp] theorem modBoard_bpwr (s : State) (f : Board → Board) : (s.modBoard f).bpwr = s.bpwr := rfl
@[simp] theorem modBoard_trace (s : State) (f : Board → Board) : (s.modBoard f).trace = s.trace := rfl
@[simp] theorem modBoard_snuff (s : State) (f : Board → Board) : (s.modBoard f).snuff = s.snuff := rfl
@[simp] theorem modBoard_tap (s : State) (f : Board → Board) : (s.modBoard f).tap = s.tap := rfl
@[simp] theorem modBoard_links (s : State) (f : Board → Board) : (s.modBoard f).links = s.links := rfl
@[simp] theorem modBoard_sinter (s : State) (f : Board → Board) : (s.modBoard f).sinter = s.sinter := rfl
@[simp] theorem modBoard_svc (s : State) (f : Board → Board) : (s.modBoard f).svc = s.svc := rfl
@[simp] theorem modBoard_hpwr (s : State) (f : Board → Board) : (s.modBoard f).hpwr = s.hpwr := rfl
@[simp] theorem modBoard_fum (s : State) (f : Board → Board) : (s.modBoard f).fum = s.fum := rfl
@[simp] theorem modBoard_board (s : State) (f : Board → Board) : (s.modBoard f).board = f s.board := rfl
@[simp] theorem modBoard_now (s : State) (f : Board → Board) : (s.modBoard f).now = s.now := rfl
@[simp] theorem modBoard_tick (s : State) (f : Board → Board) : (s.modBoard f).tick = s.tick := rfl
@[simp] theorem modBoard_ticks (s : State) (f : Board → Board) : (s.modBoard f).ticks = s.ticks := rfl
@[simp] theorem modBoard_mbox (s : State) (f : Board → Board) : (s.modBoard f).mbox = s.mbox := rfl
@[simp] theorem modBoard_out (s : State) (f : Board → Board) : (s.modBoard f).out = s.out := rfl
@[simp] theorem modBoard_free (s : State) (f : Board → Board) : (s.modBoard f).free = s.free := rfl
@[simp] theorem modBoard_pending (s : State) (f : Board → Board) : (s.modBoard f).pending = s.pending := rfl

end Sys2Proof.Machine
end

