-- ==== Sys2Proof/Laws/Table.lean ====
section
/-!
SUPPORT. The laws of sparse tables: a read after a write, and the canonical form that every write keeps.
-/
namespace Sys2Proof

theorem Tab.read_insert {α : Type} (d : Nat → α) (k j : Nat) (v : α) (t : Tab α) :
    Tab.read d (Tab.insert k v t) j = if j = k then v else Tab.read d t j := by
  induction t with
  | nil => rfl
  | cons e t ih =>
    obtain ⟨a, w⟩ := e
    unfold Tab.insert
    split_ifs with h1 h2 h3 h4 <;> simp_all [Tab.read]

theorem Tab.read_remove {α : Type} (d : Nat → α) (k j : Nat) (t : Tab α) :
    Tab.read d (Tab.remove k t) j = if j = k then d k else Tab.read d t j := by
  induction t with
  | nil => by_cases h : j = k <;> simp [Tab.remove, Tab.read, h]
  | cons e t ih =>
    obtain ⟨a, w⟩ := e
    unfold Tab.remove at ih ⊢
    by_cases h : a = k
    · subst h
      rw [List.filter_cons_of_neg (by simp), ih]
      by_cases hj : j = a <;> simp [Tab.read, hj]
    · rw [List.filter_cons_of_pos (by simpa using h)]
      simp only [Tab.read, ih]
      by_cases hj : j = k
      · subst hj; simp [Ne.symm h]
      · simp [hj]

/-- A read after a write: the value written at its number, and what stood there at every other. -/
theorem Tab.read_write {α : Type} [DecidableEq α] (d : Nat → α) (t : Tab α) (k j : Nat) (v : α) :
    Tab.read d (Tab.write d t k v) j = if j = k then v else Tab.read d t j := by
  unfold Tab.write
  by_cases hv : v = d k
  · rw [if_pos hv, Tab.read_remove, hv]
  · rw [if_neg hv, Tab.read_insert]

@[simp] theorem Tab.read_write_same {α : Type} [DecidableEq α] (d : Nat → α) (t : Tab α) (k : Nat) (v : α) :
    Tab.read d (Tab.write d t k v) k = v := by rw [Tab.read_write, if_pos rfl]

theorem Tab.read_write_ne {α : Type} [DecidableEq α] (d : Nat → α) (t : Tab α) {k j : Nat} (v : α) (h : j ≠ k) :
    Tab.read d (Tab.write d t k v) j = Tab.read d t j := by rw [Tab.read_write, if_neg h]

theorem Tab.read_modify {α : Type} [DecidableEq α] (d : Nat → α) (t : Tab α) (k j : Nat) (f : α → α) :
    Tab.read d (Tab.modify d t k f) j = if j = k then f (Tab.read d t k) else Tab.read d t j := Tab.read_write d t k j _

@[simp] theorem Tab.read_modify_same {α : Type} [DecidableEq α] (d : Nat → α) (t : Tab α) (k : Nat) (f : α → α) :
    Tab.read d (Tab.modify d t k f) k = f (Tab.read d t k) := by rw [Tab.read_modify, if_pos rfl]

/-- A table mapped entry by entry, where the default maps to itself. -/
theorem Tab.read_map {α : Type} (d : Nat → α) (f : α → α) (hd : ∀ k, f (d k) = d k) (t : Tab α) (k : Nat) :
    Tab.read d (t.map fun e => (e.1, f e.2)) k = f (Tab.read d t k) := by
  induction t with
  | nil => simp [Tab.read, hd]
  | cons e t ih => simp only [List.map_cons, Tab.read]; split_ifs <;> simp [ih]

/-- The listed numbers rise. -/
def Tab.rises {α : Type} (t : Tab α) : Prop := t.Pairwise fun a b => a.1 < b.1

theorem Tab.wfFrom_iff {α : Type} [DecidableEq α] (d : Nat → α) (lo : Option Nat) (t : Tab α) :
    Tab.wfFrom d lo t = true ↔ (∀ l ∈ lo, ∀ e ∈ t, l < e.1) ∧ Tab.rises t ∧ ∀ e ∈ t, e.2 ≠ d e.1 := by
  induction t generalizing lo with
  | nil => simp [Tab.wfFrom, Tab.rises]
  | cons e t ih =>
    obtain ⟨a, v⟩ := e
    unfold Tab.wfFrom
    rw [Bool.and_eq_true, Bool.and_eq_true, ih]
    cases lo with
    | none => simp [Tab.rises, List.pairwise_cons]; tauto
    | some l =>
      simp [Tab.rises, List.pairwise_cons]
      constructor
      · rintro ⟨⟨h1, h2⟩, h3, h4, h5⟩
        exact ⟨⟨h1, fun x y hx => lt_trans h1 (h3 x y hx)⟩, ⟨h3, h4⟩, h2, h5⟩
      · rintro ⟨⟨h1, _⟩, ⟨h3, h4⟩, h2, h5⟩
        exact ⟨⟨h1, h2⟩, h3, h4, h5⟩

theorem Tab.wf_iff {α : Type} [DecidableEq α] (d : Nat → α) (t : Tab α) :
    Tab.wf d t = true ↔ Tab.rises t ∧ ∀ e ∈ t, e.2 ≠ d e.1 := by
  simp [Tab.wf, Tab.wfFrom_iff]

theorem Tab.mem_insert {α : Type} (k : Nat) (v : α) (t : Tab α) (e : Nat × α) :
    e ∈ Tab.insert k v t → e = (k, v) ∨ e ∈ t := by
  induction t with
  | nil => simp [Tab.insert]
  | cons x t ih =>
    unfold Tab.insert
    split_ifs <;> intro h <;> rcases List.mem_cons.1 h with h | h
    · exact .inl h
    · exact .inr (List.mem_cons_of_mem _ h)
    · exact .inl h
    · exact .inr h
    · exact .inr (by simp [h])
    · rcases ih h with h | h
      · exact .inl h
      · exact .inr (List.mem_cons_of_mem _ h)

theorem Tab.rises_insert {α : Type} (k : Nat) (v : α) (t : Tab α) (h : Tab.rises t) : Tab.rises (Tab.insert k v t) := by
  induction t with
  | nil => simp [Tab.insert, Tab.rises]
  | cons x t ih =>
    have hx := List.pairwise_cons.1 h
    unfold Tab.insert
    split_ifs with h1 h2
    · subst h1; exact List.pairwise_cons.2 ⟨hx.1, hx.2⟩
    · refine List.pairwise_cons.2 ⟨fun e he => ?_, h⟩
      rcases List.mem_cons.1 he with rfl | he
      · exact h2
      · exact lt_trans h2 (hx.1 e he)
    · refine List.pairwise_cons.2 ⟨fun e he => ?_, ih hx.2⟩
      rcases Tab.mem_insert k v t e he with rfl | he
      · show x.1 < k; omega
      · exact hx.1 e he

/-- A write keeps the canonical form. -/
theorem Tab.wf_write {α : Type} [DecidableEq α] (d : Nat → α) (t : Tab α) (k : Nat) (v : α) (h : Tab.wf d t = true) :
    Tab.wf d (Tab.write d t k v) = true := by
  rw [Tab.wf_iff] at h ⊢
  unfold Tab.write
  split_ifs with hv
  · exact ⟨List.Pairwise.filter _ h.1, fun e he => h.2 e (List.mem_filter.1 he).1⟩
  · refine ⟨Tab.rises_insert k v t h.1, fun e he => ?_⟩
    rcases Tab.mem_insert k v t e he with rfl | he
    · exact hv
    · exact h.2 e he

/-- A change keeps the canonical form. -/
theorem Tab.wf_modify {α : Type} [DecidableEq α] (d : Nat → α) (t : Tab α) (k : Nat) (f : α → α) (h : Tab.wf d t = true) :
    Tab.wf d (Tab.modify d t k f) = true := Tab.wf_write d t k _ h

/-- Mapping the entries keeps the canonical form. -/
theorem Tab.wf_mapTab {α : Type} [DecidableEq α] (d : Nat → α) (f : Nat → α → α) (t : Tab α) (h : Tab.wf d t = true) :
    Tab.wf d (Tab.mapTab d f t) = true := by
  rw [Tab.wf_iff] at h ⊢
  refine ⟨List.Pairwise.filter _ (List.pairwise_map.2 (h.1.imp fun h => h)), fun e he => ?_⟩
  simpa using (List.mem_filter.1 he).2

end Sys2Proof
end

