-- ==== Sys2Proof/Laws/Settle.lean ====
section
/-!
SUPPORT. What settling the interrupts at the end of a step can do: it lowers lines, remembers the causes, and sends message
writes; every register, header and command page, and everything outside pages, log marks and ports, stays.
-/
namespace Sys2Proof.Machine

/-- Issuing a request of a transfer changes the transfers, the tags and what has left the block. -/
theorem issueXfer_eq (s : State) (id : Nat) : ∃ x t o, s.issueXfer id =
    { s with out := o, pages := { s.pages with xfers := x, hmTags := t } } := by
  unfold State.issueXfer
  split
  · exact ⟨_, _, _, rfl⟩
  · split
    · exact ⟨_, _, _, rfl⟩
    · split
      · exact ⟨_, _, _, rfl⟩
      · exact ⟨_, _, _, rfl⟩

/-- Starting a transfer changes the transfers, their numbering, the tags and what has left the block. -/
theorem startXferOf_eq (s : State) (r : Option Nat) (w : XferOwner) (wr : Bool) (a l : Nat) (d : List Byte) :
    ∃ n x t o, s.startXferOf r w wr a l d =
      { s with out := o, pages := { s.pages with nextXfer := n, xfers := x, hmTags := t } } := by
  unfold State.startXferOf
  obtain ⟨x, t, o, h⟩ := issueXfer_eq
    { s with pages := { s.pages with
        nextXfer := s.pages.nextXfer + 1
        xfers := Tab.write noXfer s.pages.xfers s.pages.nextXfer
          (some { owner := w, wr, addr := a, len := l, issued := 0, data := d, failed := false, region := r }) } }
    s.pages.nextXfer
  exact ⟨_, _, _, _, h⟩

theorem messages_eq (l : List Nat) (s : State) : ∃ n x t o, l.foldl State.messageWrite s =
    { s with out := o, pages := { s.pages with nextXfer := n, xfers := x, hmTags := t } } := by
  induction l generalizing s with
  | nil => exact ⟨_, _, _, _, rfl⟩
  | cons k l ih =>
    obtain ⟨n, x, t, o, h⟩ := startXferOf_eq s none .message true
      ((s.reg (pg 0x01) (0x80 + 0x10 * k)).toNat + 2 ^ 32 * (s.reg (pg 0x01) (0x84 + 0x10 * k)).toNat) 4
      (leBytes 4 (s.reg (pg 0x01) (0x88 + 0x10 * k)).toNat)
    have hk : State.messageWrite s k =
        { s with out := o, pages := { s.pages with nextXfer := n, xfers := x, hmTags := t } } := h
    obtain ⟨n', x', t', o', h'⟩ := ih (State.messageWrite s k)
    rw [List.foldl_cons, h', hk]
    exact ⟨_, _, _, _, rfl⟩

/-- Everything that settling can change. -/
theorem settle_eq (s : State) : ∃ n x t o, s.settle =
    { s with
      out := o
      fum := { s.fum with injNow := false }
      pages := { s.pages with
        irq := s.pages.irq ||| linesOf s.pages.cmds s.pages.hdr
        causes := causesOf s.pages.cmds s.pages.hdr
        nextXfer := n, xfers := x, hmTags := t } } := by
  obtain ⟨n, x, t, o, h⟩ := messages_eq (newMessages s.pages.cmds s.pages.causes s.pages.hdr)
    { s with
      fum := { s.fum with injNow := false }
      pages := { s.pages with
        irq := s.pages.irq ||| linesOf s.pages.cmds s.pages.hdr
        causes := causesOf s.pages.cmds s.pages.hdr } }
  exact ⟨n, x, t, o, h⟩

@[simp] theorem settle_straps (s : State) : s.settle.straps = s.straps := by
  obtain ⟨_, _, _, _, h⟩ := settle_eq s; rw [h]

@[simp] theorem settle_pkg (s : State) : s.settle.pkg = s.pkg := by
  obtain ⟨_, _, _, _, h⟩ := settle_eq s; rw [h]

@[simp] theorem settle_pace (s : State) : s.settle.pace = s.pace := by
  obtain ⟨_, _, _, _, h⟩ := settle_eq s; rw [h]

@[simp] theorem settle_samp (s : State) : s.settle.samp = s.samp := by
  obtain ⟨_, _, _, _, h⟩ := settle_eq s; rw [h]

@[simp] theorem settle_reds (s : State) : s.settle.reds = s.reds := by
  obtain ⟨_, _, _, _, h⟩ := settle_eq s; rw [h]

@[simp] theorem settle_forest (s : State) : s.settle.forest = s.forest := by
  obtain ⟨_, _, _, _, h⟩ := settle_eq s; rw [h]

@[simp] theorem settle_check (s : State) : s.settle.check = s.check := by
  obtain ⟨_, _, _, _, h⟩ := settle_eq s; rw [h]

@[simp] theorem settle_rot (s : State) : s.settle.rot = s.rot := by
  obtain ⟨_, _, _, _, h⟩ := settle_eq s; rw [h]

@[simp] theorem settle_time (s : State) : s.settle.time = s.time := by
  obtain ⟨_, _, _, _, h⟩ := settle_eq s; rw [h]

@[simp] theorem settle_bpwr (s : State) : s.settle.bpwr = s.bpwr := by
  obtain ⟨_, _, _, _, h⟩ := settle_eq s; rw [h]

@[simp] theorem settle_trace (s : State) : s.settle.trace = s.trace := by
  obtain ⟨_, _, _, _, h⟩ := settle_eq s; rw [h]

@[simp] theorem settle_snuff (s : State) : s.settle.snuff = s.snuff := by
  obtain ⟨_, _, _, _, h⟩ := settle_eq s; rw [h]

@[simp] theorem settle_tap (s : State) : s.settle.tap = s.tap := by
  obtain ⟨_, _, _, _, h⟩ := settle_eq s; rw [h]

@[simp] theorem settle_links (s : State) : s.settle.links = s.links := by
  obtain ⟨_, _, _, _, h⟩ := settle_eq s; rw [h]

@[simp] theorem settle_sinter (s : State) : s.settle.sinter = s.sinter := by
  obtain ⟨_, _, _, _, h⟩ := settle_eq s; rw [h]

@[simp] theorem settle_svc (s : State) : s.settle.svc = s.svc := by
  obtain ⟨_, _, _, _, h⟩ := settle_eq s; rw [h]

@[simp] theorem settle_hpwr (s : State) : s.settle.hpwr = s.hpwr := by
  obtain ⟨_, _, _, _, h⟩ := settle_eq s; rw [h]

@[simp] theorem settle_board (s : State) : s.settle.board = s.board := by
  obtain ⟨_, _, _, _, h⟩ := settle_eq s; rw [h]

@[simp] theorem settle_now (s : State) : s.settle.now = s.now := by
  obtain ⟨_, _, _, _, h⟩ := settle_eq s; rw [h]

@[simp] theorem settle_tick (s : State) : s.settle.tick = s.tick := by
  obtain ⟨_, _, _, _, h⟩ := settle_eq s; rw [h]

@[simp] theorem settle_ticks (s : State) : s.settle.ticks = s.ticks := by
  obtain ⟨_, _, _, _, h⟩ := settle_eq s; rw [h]

@[simp] theorem settle_mbox (s : State) : s.settle.mbox = s.mbox := by
  obtain ⟨_, _, _, _, h⟩ := settle_eq s; rw [h]

@[simp] theorem settle_free (s : State) : s.settle.free = s.free := by
  obtain ⟨_, _, _, _, h⟩ := settle_eq s; rw [h]

@[simp] theorem settle_pending (s : State) : s.settle.pending = s.pending := by
  obtain ⟨_, _, _, _, h⟩ := settle_eq s; rw [h]

@[simp] theorem settle_regs (s : State) : s.settle.pages.regs = s.pages.regs := by
  obtain ⟨_, _, _, _, h⟩ := settle_eq s; rw [h]

@[simp] theorem settle_hdr (s : State) : s.settle.pages.hdr = s.pages.hdr := by
  obtain ⟨_, _, _, _, h⟩ := settle_eq s; rw [h]

@[simp] theorem settle_cmds (s : State) : s.settle.pages.cmds = s.pages.cmds := by
  obtain ⟨_, _, _, _, h⟩ := settle_eq s; rw [h]

@[simp] theorem settle_snapSeq (s : State) : s.settle.pages.snapSeq = s.pages.snapSeq := by
  obtain ⟨_, _, _, _, h⟩ := settle_eq s; rw [h]

@[simp] theorem settle_snapPartial (s : State) : s.settle.pages.snapPartial = s.pages.snapPartial := by
  obtain ⟨_, _, _, _, h⟩ := settle_eq s; rw [h]

@[simp] theorem settle_snapBusy (s : State) : s.settle.pages.snapBusy = s.pages.snapBusy := by
  obtain ⟨_, _, _, _, h⟩ := settle_eq s; rw [h]

@[simp] theorem settle_snapTime (s : State) : s.settle.pages.snapTime = s.pages.snapTime := by
  obtain ⟨_, _, _, _, h⟩ := settle_eq s; rw [h]

@[simp] theorem settle_ringQ (s : State) : s.settle.pages.ringQ = s.pages.ringQ := by
  obtain ⟨_, _, _, _, h⟩ := settle_eq s; rw [h]

@[simp] theorem settle_host (s : State) : s.settle.pages.host = s.pages.host := by
  obtain ⟨_, _, _, _, h⟩ := settle_eq s; rw [h]

@[simp] theorem settle_irq (s : State) : s.settle.pages.irq = s.pages.irq ||| linesOf s.pages.cmds s.pages.hdr := by
  obtain ⟨_, _, _, _, h⟩ := settle_eq s; rw [h]

@[simp] theorem settle_fum (s : State) : s.settle.fum = { s.fum with injNow := false } := by
  obtain ⟨_, _, _, _, h⟩ := settle_eq s; rw [h]

@[simp] theorem settle_reg (s : State) (p o : Nat) : s.settle.reg p o = s.reg p o := by simp [State.reg]

@[simp] theorem settle_hdrOf (s : State) (p : Nat) : s.settle.hdr p = s.hdr p := by simp [State.hdr]

@[simp] theorem settle_cmd (s : State) (g : Bool) (n : Nat) : s.settle.cmd g n = s.cmd g n := by simp [State.cmd]

/-- A settled state holds its lines. -/
theorem settle_linesHeld (s : State) : linesOf s.settle.pages.cmds s.settle.pages.hdr &&& ~~~ s.settle.pages.irq = 0 := by
  simp only [settle_cmds, settle_hdr, settle_irq]
  ext i hi
  simp
  tauto

/-- Issuing a request leaves what has left the block before. -/
theorem issueXfer_out (s : State) (id : Nat) : ∃ l, (s.issueXfer id).out = l ++ s.out := by
  unfold State.issueXfer
  split
  · exact ⟨[], rfl⟩
  · split
    · exact ⟨[], rfl⟩
    · split
      · exact ⟨[], rfl⟩
      · exact ⟨[_], rfl⟩

theorem messages_out (l : List Nat) (s : State) : ∃ m, (l.foldl State.messageWrite s).out = m ++ s.out := by
  induction l generalizing s with
  | nil => exact ⟨[], rfl⟩
  | cons k l ih =>
    obtain ⟨m, h⟩ := ih (State.messageWrite s k)
    obtain ⟨n, h'⟩ := issueXfer_out
      { s with pages := { s.pages with
          nextXfer := s.pages.nextXfer + 1
          xfers := Tab.write noXfer s.pages.xfers s.pages.nextXfer
            (some { owner := .message, wr := true
                    addr := (s.reg (pg 0x01) (0x80 + 0x10 * k)).toNat + 2 ^ 32 * (s.reg (pg 0x01) (0x84 + 0x10 * k)).toNat
                    len := 4, issued := 0, data := leBytes 4 (s.reg (pg 0x01) (0x88 + 0x10 * k)).toNat
                    failed := false, region := none }) } }
      s.pages.nextXfer
    have hk : (State.messageWrite s k).out = n ++ s.out := h'
    rw [List.foldl_cons, h, hk, ← List.append_assoc]
    exact ⟨_, rfl⟩

/-- Settling adds message writes to what has left the block. -/
theorem settle_out (s : State) : ∃ l, s.settle.out = l ++ s.out :=
  messages_out _ _

end Sys2Proof.Machine
end

