-- ==== Sys2Proof/Laws/Only.lean ====
section
/-!
SUPPORT. The frame relation: which parts of State an operation may change. It is reflexive, it composes, and it passes through
record updates, ifs and folds, so each operation's frame follows from those of the operations it calls.
-/
namespace Sys2Proof.Machine

/-- Every part that one list names, another names too. -/
def names (l m : List Part) : Bool := m.all fun p => l.any fun q => q.covers p

theorem covers_self (p : Part) : p.covers p = true := by simp [Part.covers]

/-- What a set of words names is words of that set. -/
theorem wordType_of_covers {q r : Part} {a : Nat} (k : q.wordType = some a) (h : q.covers r = true) : r.wordType = some a := by
  by_cases e : q = r
  · exact e ▸ k
  · cases q <;> simp only [Part.wordType, reduceCtorEq, Option.some.injEq] at k <;> simp_all [Part.covers]
    cases r <;> simp_all [Part.wordAt, Part.wordType]

theorem isHdr_of_covers {q r : Part} (k : q.isHdr = true) (h : q.covers r = true) : r.isHdr = true := by
  by_cases e : q = r
  · exact e ▸ k
  · cases q <;> simp only [Part.isHdr, Bool.false_eq_true] at k
    simp_all [Part.covers]

theorem wordSome_of_covers {q r : Part} (k : q.wordType.isSome = true) (h : q.covers r = true) : r.wordType.isSome = true := by
  obtain ⟨a, ha⟩ := Option.isSome_iff_exists.mp k
  simp [wordType_of_covers ha h]

theorem wordAt_of_covers {q r : Part} {a : Nat × Nat} (k : q.wordAt = some a) (h : q.covers r = true) : r.wordAt = some a := by
  by_cases e : q = r
  · exact e ▸ k
  · cases q <;> simp only [Part.wordAt, reduceCtorEq, Option.some.injEq] at k
    simp_all [Part.covers]

theorem covers_trans {p q r : Part} (h : p.covers q = true) (k : q.covers r = true) : p.covers r = true := by
  by_cases e : p = q
  · exact e ▸ k
  · cases p <;> simp only [Part.covers, e, decide_false, Bool.false_or, Bool.or_eq_true, decide_eq_true_eq,
      Bool.false_eq_true] at h ⊢
    · exact .inr (wordAt_of_covers h k)
    · exact .inr (wordType_of_covers h k)
    · exact .inr (wordSome_of_covers h k)
    · exact .inr (isHdr_of_covers h k)

theorem names_trans {l m n : List Part} (h : names l m = true) (k : names m n = true) : names l n = true := by
  simp only [names, List.all_eq_true, List.any_eq_true] at *
  intro p hp
  obtain ⟨q, hq, hc⟩ := k p hp
  obtain ⟨r, hr, hd⟩ := h q hq
  exact ⟨r, hr, covers_trans hd hc⟩

theorem names_of_subset {l m : List Part} (h : m ⊆ l) : names l m = true := by
  simp only [names, List.all_eq_true, List.any_eq_true]
  exact fun p hp => ⟨p, h hp, covers_self p⟩

/-- A list of names, one by one. -/
theorem names_cons {l m : List Part} {p q : Part} (h : names l [p] = true) (k : names l (q :: m) = true) :
    names l (p :: q :: m) = true := by
  simp only [names, List.all_cons, List.all_nil, Bool.and_true, Bool.and_eq_true] at *
  exact ⟨h, k⟩

theorem names_regs_word {t o : Nat} : names [.regs t] [.word t o] = true := by
  simp [names, Part.covers, Part.wordType]

theorem names_all_word {t o : Nat} : names [.allRegs] [.word t o] = true := by
  simp [names, Part.covers, Part.wordType]

theorem names_all_regs {t : Nat} : names [.allRegs] [.regs t] = true := by
  simp [names, Part.covers, Part.wordType]

theorem names_all_hdr {t : Nat} : names [.allHdrs] [.hdr t] = true := by
  simp [names, Part.covers, Part.isHdr]

/-- A part that a list does not name. -/
abbrev outside (l : List Part) (p : Part) : Prop := ∀ q ∈ l, q.covers p = false

theorem outside_of_names {l m : List Part} {p : Part} (h : names l m = true) (hp : outside l p) : outside m p := by
  intro q hq
  simp only [names, List.all_eq_true, List.any_eq_true] at h
  obtain ⟨r, hr, hc⟩ := h q hq
  cases hv : q.covers p with
  | false => rfl
  | true => rw [← hp r hr, covers_trans hc hv]

theorem same_refl (p : Part) (s : State) : p.same s s := by cases p <;> first | rfl | exact fun _ _ => rfl | trivial

theorem same_trans {p : Part} {s t u : State} (h : p.same s t) (k : p.same t u) : p.same s u := by
  cases p <;> first | exact Eq.trans k h | exact fun a b => Eq.trans (k a b) (h a b) | trivial

theorem onlyChanges_refl (s : State) (l : List Part) : s.onlyChanges s l := fun p _ => same_refl p s

theorem onlyChanges_trans {s t u : State} {l : List Part} (h : s.onlyChanges t l) (k : t.onlyChanges u l) :
    s.onlyChanges u l := fun p hp => same_trans (h p hp) (k p hp)

theorem onlyChanges_mono {s t : State} {l m : List Part} (h : s.onlyChanges t l) (k : names m l = true) : s.onlyChanges t m :=
  fun p hp => h p (outside_of_names k hp)

/-- A record update: its base, and why each part outside the list is kept. -/
theorem only_mk {s0 s : State} {l z : List Part} {a2 a3 a4 a5 a6 a7 a8 a9 a10 a11 a12 a13 a14 a15 a16 a17 a18 a19 a20 a21 a22
      a23 a24 a25 a26 a27} (hL : names l z = true)
    (hx : ∀ p, outside z p → p.same s (State.mk s.straps a2 a3 a4 a5 a6 a7 a8 a9 a10 a11 a12 a13 a14 a15 a16 a17 a18 a19 a20
      a21 a22 a23 a24 a25 a26 a27)) (h : s0.onlyChanges s l) :
    s0.onlyChanges (State.mk s.straps a2 a3 a4 a5 a6 a7 a8 a9 a10 a11 a12 a13 a14 a15 a16 a17 a18 a19 a20 a21 a22 a23 a24 a25
      a26 a27) l := fun p hp => same_trans (h p hp) (hx p (outside_of_names hL hp))

/-- A part that a list does not name, as data. -/
def free (l : List Part) (p : Part) : Bool := l.all fun q => !q.covers p

theorem free_of_outside {l : List Part} {p : Part} (h : outside l p) : free l p = true := by
  simp only [free, List.all_eq_true, Bool.not_eq_true']
  exact h

theorem not_free {P : Prop} {b : Bool} (h : b = true) (e : b = false) : P := by simp_all

theorem only_straps {s0 s : State} {l z : List Part} {x : Straps} (hL : names l z = true)
    (h_straps : free z .straps = true → x = s.straps)
    (h : s0.onlyChanges s l) : s0.onlyChanges { s with straps := x } l := fun p hp => by
  refine same_trans (h p hp) ?_
  have hq := free_of_outside (outside_of_names hL hp)
  cases p <;> first | exact rfl | exact trivial | exact fun _ _ => rfl | exact h_straps hq

theorem only_pkg {s0 s : State} {l z : List Part} {x : Package} (hL : names l z = true)
    (h_pkg : free z .pkg = true → x = s.pkg)
    (h : s0.onlyChanges s l) : s0.onlyChanges { s with pkg := x } l := fun p hp => by
  refine same_trans (h p hp) ?_
  have hq := free_of_outside (outside_of_names hL hp)
  cases p <;> first | exact rfl | exact trivial | exact fun _ _ => rfl | exact h_pkg hq

theorem only_pace {s0 s : State} {l z : List Part} {x : Pace} (hL : names l z = true)
    (h_pace : free z .pace = true → x = s.pace)
    (h : s0.onlyChanges s l) : s0.onlyChanges { s with pace := x } l := fun p hp => by
  refine same_trans (h p hp) ?_
  have hq := free_of_outside (outside_of_names hL hp)
  cases p <;> first | exact rfl | exact trivial | exact fun _ _ => rfl | exact h_pace hq

theorem only_samp {s0 s : State} {l z : List Part} {x : Samp} (hL : names l z = true)
    (h_probes : free z .probes = true → x.probes = s.samp.probes)
    (h_clusters : free z .clusters = true → x.clusters = s.samp.clusters)
    (h_regions : free z .regions = true → x.regions = s.samp.regions)
    (h_profiles : free z .profiles = true → (x.units, x.evsel, x.rmask, x.slotJob) =
        (s.samp.units, s.samp.evsel, s.samp.rmask, s.samp.slotJob))
    (h_heldRecs : free z .heldRecs = true → (x.heldP, x.heldC, x.heldTag) =
        (s.samp.heldP, s.samp.heldC, s.samp.heldTag))
    (h_grid : free z .grid = true → x.grid = s.samp.grid)
    (h_geyser : free z .geyser = true → x.geyser = s.samp.geyser)
    (h : s0.onlyChanges s l) : s0.onlyChanges { s with samp := x } l := fun p hp => by
  refine same_trans (h p hp) ?_
  have hq := free_of_outside (outside_of_names hL hp)
  cases p <;> first | exact rfl | exact trivial | exact fun _ _ => rfl | exact h_probes hq | exact h_clusters hq | exact h_regions hq | exact h_profiles hq | exact h_heldRecs hq | exact h_grid hq | exact h_geyser hq

theorem only_reds {s0 s : State} {l z : List Part} {x : Reds} (hL : names l z = true)
    (h_redNodes : free z .redNodes = true → x.nodes = s.reds.nodes)
    (h_redInputs : free z .redInputs = true → (x.tiles, x.verdicts, x.staleVerdicts, x.services) =
        (s.reds.tiles, s.reds.verdicts, s.reds.staleVerdicts, s.reds.services))
    (h : s0.onlyChanges s l) : s0.onlyChanges { s with reds := x } l := fun p hp => by
  refine same_trans (h p hp) ?_
  have hq := free_of_outside (outside_of_names hL hp)
  cases p <;> first | exact rfl | exact trivial | exact fun _ _ => rfl | exact h_redNodes hq | exact h_redInputs hq

theorem only_forest {s0 s : State} {l z : List Part} {x : Forests} (hL : names l z = true)
    (h_engines : free z .engines = true → x.engines = s.forest.engines)
    (h_ftab : free z .ftab = true → x.ftab = s.forest.ftab)
    (h_snaps : free z .snaps = true → x.snaps = s.forest.snaps)
    (h : s0.onlyChanges s l) : s0.onlyChanges { s with forest := x } l := fun p hp => by
  refine same_trans (h p hp) ?_
  have hq := free_of_outside (outside_of_names hL hp)
  cases p <;> first | exact rfl | exact trivial | exact fun _ _ => rfl | exact h_engines hq | exact h_ftab hq | exact h_snaps hq

theorem only_check {s0 s : State} {l z : List Part} {x : Check} (hL : names l z = true)
    (h_spares : free z .spares = true → x.spare = s.check.spare)
    (h_suspects : free z .suspects = true → (x.suspect, x.fences) =
        (s.check.suspect, s.check.fences))
    (h_violations : free z .violations = true → x.violations = s.check.violations)
    (h_kernels : free z .kernels = true → (x.kernels, x.regs) =
        (s.check.kernels, s.check.regs))
    (h_kats : free z .kats = true → (x.idle, x.passes, x.kat, x.katReqs, x.katLast, x.katLastUnit, x.unfence) =
        (s.check.idle, s.check.passes, s.check.kat, s.check.katReqs, s.check.katLast, s.check.katLastUnit, s.check.unfence))
    (h_taint : free z .taint = true → (x.tdiv, x.taint, x.taintPrev, x.clears, x.held, x.lane, x.lost) =
        (s.check.tdiv, s.check.taint, s.check.taintPrev, s.check.clears, s.check.held, s.check.lane, s.check.lost))
    (h_notices : free z .notices = true → (x.nextSeq, x.unacked, x.seen) =
        (s.check.nextSeq, s.check.unacked, s.check.seen))
    (h : s0.onlyChanges s l) : s0.onlyChanges { s with check := x } l := fun p hp => by
  refine same_trans (h p hp) ?_
  have hq := free_of_outside (outside_of_names hL hp)
  cases p <;> first | exact rfl | exact trivial | exact fun _ _ => rfl | exact h_spares hq | exact h_suspects hq | exact h_violations hq | exact h_kernels hq | exact h_kats hq | exact h_taint hq | exact h_notices hq

theorem only_rot {s0 s : State} {l z : List Part} {x : Rot} (hL : names l z = true)
    (h_rotState : free z .rotState = true → x.state = s.rot.state)
    (h_meas : free z .meas = true → (x.queue, x.log, x.measGen, x.rehash) =
        (s.rot.queue, s.rot.log, s.rot.measGen, s.rot.rehash))
    (h_firmware : free z .firmware = true → (x.updatePending, x.committed, x.fallback, x.image, x.ctr, x.ctrCopy, x.staged, x.commit, x.fwAt) =
        (s.rot.updatePending, s.rot.committed, s.rot.fallback, s.rot.image, s.rot.ctr, s.rot.ctrCopy, s.rot.staged, s.rot.commit, s.rot.fwAt))
    (h_keys : free z .keys = true → (x.identityOk, x.uds, x.devKey, x.aliasKey, x.kMem, x.kTrace, x.devCert, x.aliasCert, x.tokens) =
        (s.rot.identityOk, s.rot.uds, s.rot.devKey, s.rot.aliasKey, s.rot.kMem, s.rot.kTrace, s.rot.devCert, s.rot.aliasCert, s.rot.tokens))
    (h_spdm : free z .spdm = true → (x.sessions, x.exchanges, x.transcript, x.deferred, x.deferrals) =
        (s.rot.sessions, s.rot.exchanges, s.rot.transcript, s.rot.deferred, s.rot.deferrals))
    (h_linkKeys : free z .linkKeys = true → (x.shares, x.agreed) =
        (s.rot.shares, s.rot.agreed))
    (h_verify : free z .verify = true → (x.verify, x.checks, x.mismatchAt) =
        (s.rot.verify, s.rot.checks, s.rot.mismatchAt))
    (h_rotOrders : free z .rotOrders = true → (x.resetDue, x.warmDue) =
        (s.rot.resetDue, s.rot.warmDue))
    (h : s0.onlyChanges s l) : s0.onlyChanges { s with rot := x } l := fun p hp => by
  refine same_trans (h p hp) ?_
  have hq := free_of_outside (outside_of_names hL hp)
  cases p <;> first | exact rfl | exact trivial | exact fun _ _ => rfl | exact h_rotState hq | exact h_meas hq | exact h_firmware hq | exact h_keys hq | exact h_spdm hq | exact h_linkKeys hq | exact h_verify hq | exact h_rotOrders hq

theorem only_time {s0 s : State} {l z : List Part} {x : Time} (hL : names l z = true)
    (h_clock : free z .clock = true → (x.servo, x.running, x.rate, x.base, x.integ, x.slave, x.gm, x.samples, x.settled, x.run, x.offset, x.mpd, x.lastStep, x.stepSize, x.steps, x.outliers, x.masterChg, x.gmId, x.removed, x.lead, x.forced, x.holdFrom, x.holdMs) =
        (s.time.servo, s.time.running, s.time.rate, s.time.base, s.time.integ, s.time.slave, s.time.gm, s.time.samples, s.time.settled, s.time.run, s.time.offset, s.time.mpd, s.time.lastStep, s.time.stepSize, s.time.steps, s.time.outliers, s.time.masterChg, s.time.gmId, s.time.removed, s.time.lead, s.time.forced, s.time.holdFrom, s.time.holdMs))
    (h_relock : free z .relock = true → (x.relock, x.relockBad) =
        (s.time.relock, s.time.relockBad))
    (h_pps : free z .pps = true → (x.setPps, x.ppsIn, x.ppsPrev, x.ppsOut, x.ppsFall, x.ppsLast) =
        (s.time.setPps, s.time.ppsIn, s.time.ppsPrev, s.time.ppsOut, s.time.ppsFall, s.time.ppsLast))
    (h_evts : free z .evts = true → x.evts = s.time.evts)
    (h_tports : free z .tports = true → x.ports = s.time.ports)
    (h : s0.onlyChanges s l) : s0.onlyChanges { s with time := x } l := fun p hp => by
  refine same_trans (h p hp) ?_
  have hq := free_of_outside (outside_of_names hL hp)
  cases p <;> first | exact rfl | exact trivial | exact fun _ _ => rfl | exact h_clock hq | exact h_relock hq | exact h_pps hq | exact h_evts hq | exact h_tports hq

theorem only_bpwr {s0 s : State} {l z : List Part} {x : Bpwr} (hL : names l z = true)
    (h_power : free z .power = true → x.state = s.bpwr.state)
    (h_activity : free z .activity = true → (x.busyAt, x.quiet) =
        (s.bpwr.busyAt, s.bpwr.quiet))
    (h_bpwr : free z .bpwr = true → (x.mode, x.entry, x.dozeAt, x.emberAt, x.active, x.wickSkip, x.wicks, x.wickAt, x.pg, x.fell, x.refclk, x.extrap, x.rstLow, x.under, x.times, x.failed, x.shown) =
        (s.bpwr.mode, s.bpwr.entry, s.bpwr.dozeAt, s.bpwr.emberAt, s.bpwr.active, s.bpwr.wickSkip, s.bpwr.wicks, s.bpwr.wickAt, s.bpwr.pg, s.bpwr.fell, s.bpwr.refclk, s.bpwr.extrap, s.bpwr.rstLow, s.bpwr.under, s.bpwr.times, s.bpwr.failed, s.bpwr.shown))
    (h : s0.onlyChanges s l) : s0.onlyChanges { s with bpwr := x } l := fun p hp => by
  refine same_trans (h p hp) ?_
  have hq := free_of_outside (outside_of_names hL hp)
  cases p <;> first | exact rfl | exact trivial | exact fun _ _ => rfl | exact h_power hq | exact h_activity hq | exact h_bpwr hq

theorem only_trace {s0 s : State} {l z : List Part} {x : Trace} (hL : names l z = true)
    (h_staged : free z .staged = true → x.staged = s.trace.staged)
    (h_rings : free z .rings = true → x.rings = s.trace.rings)
    (h_latches : free z .latches = true → x.latches = s.trace.latches)
    (h_token : free z .token = true → x.token = s.trace.token)
    (h_trace : free z .trace = true → (x.run, x.written, x.startDue, x.stopDue, x.startUsed, x.stopUsed, x.outUsed, x.funnel, x.overwr, x.outDue, x.outEnd, x.syncAt) =
        (s.trace.run, s.trace.written, s.trace.startDue, s.trace.stopDue, s.trace.startUsed, s.trace.stopUsed, s.trace.outUsed, s.trace.funnel, s.trace.overwr, s.trace.outDue, s.trace.outEnd, s.trace.syncAt))
    (h : s0.onlyChanges s l) : s0.onlyChanges { s with trace := x } l := fun p hp => by
  refine same_trans (h p hp) ?_
  have hq := free_of_outside (outside_of_names hL hp)
  cases p <;> first | exact rfl | exact trivial | exact fun _ _ => rfl | exact h_staged hq | exact h_rings hq | exact h_latches hq | exact h_token hq | exact h_trace hq

theorem only_snuff {s0 s : State} {l z : List Part} {x : Snuff} (hL : names l z = true)
    (h_snuff : free z .snuff = true → x = s.snuff)
    (h : s0.onlyChanges s l) : s0.onlyChanges { s with snuff := x } l := fun p hp => by
  refine same_trans (h p hp) ?_
  have hq := free_of_outside (outside_of_names hL hp)
  cases p <;> first | exact rfl | exact trivial | exact fun _ _ => rfl | exact h_snuff hq

theorem only_tap {s0 s : State} {l z : List Part} {x : Tap} (hL : names l z = true)
    (h_tap : free z .tap = true → x = s.tap)
    (h : s0.onlyChanges s l) : s0.onlyChanges { s with tap := x } l := fun p hp => by
  refine same_trans (h p hp) ?_
  have hq := free_of_outside (outside_of_names hL hp)
  cases p <;> first | exact rfl | exact trivial | exact fun _ _ => rfl | exact h_tap hq

theorem only_links {s0 s : State} {l z : List Part} {x : Links} (hL : names l z = true)
    (h_ports : free z .ports = true → x.ports = s.links.ports)
    (h_chans : free z .chans = true → x.chans = s.links.chans)
    (h_proxies : free z .proxies = true → x.proxies = s.links.proxies)
    (h_peers : free z .peers = true → x.peers = s.links.peers)
    (h_links : free z .links = true → (x.tray, x.trayKnown, x.down, x.upPort, x.spareFor, x.trays, x.changes, x.holding, x.twin, x.takeovers, x.downPrimary, x.swapWait) =
        (s.links.tray, s.links.trayKnown, s.links.down, s.links.upPort, s.links.spareFor, s.links.trays, s.links.changes, s.links.holding, s.links.twin, s.links.takeovers, s.links.downPrimary, s.links.swapWait))
    (h : s0.onlyChanges s l) : s0.onlyChanges { s with links := x } l := fun p hp => by
  refine same_trans (h p hp) ?_
  have hq := free_of_outside (outside_of_names hL hp)
  cases p <;> first | exact rfl | exact trivial | exact fun _ _ => rfl | exact h_ports hq | exact h_chans hq | exact h_proxies hq | exact h_peers hq | exact h_links hq

theorem only_sinter {s0 s : State} {l z : List Part} {x : Sinter} (hL : names l z = true)
    (h_sinter : free z .sinter = true → x = s.sinter)
    (h : s0.onlyChanges s l) : s0.onlyChanges { s with sinter := x } l := fun p hp => by
  refine same_trans (h p hp) ?_
  have hq := free_of_outside (outside_of_names hL hp)
  cases p <;> first | exact rfl | exact trivial | exact fun _ _ => rfl | exact h_sinter hq

theorem only_svc {s0 s : State} {l z : List Part} {x : Svc} (hL : names l z = true)
    (h_jobs : free z .jobs = true → (x.jobs, x.wins, x.runtimes, x.claims) =
        (s.svc.jobs, s.svc.wins, s.svc.runtimes, s.svc.claims))
    (h_bcasts : free z .bcasts = true → (x.pend, x.past, x.count, x.delayed) =
        (s.svc.pend, s.svc.past, s.svc.count, s.svc.delayed))
    (h_watch : free z .watch = true → (x.gap, x.watch, x.dies, x.checkAt) =
        (s.svc.gap, s.svc.watch, s.svc.dies, s.svc.checkAt))
    (h_drift : free z .drift = true → (x.drift, x.driftLast, x.predict, x.batches, x.batchAt) =
        (s.svc.drift, s.svc.driftLast, s.svc.predict, s.svc.batches, s.svc.batchAt))
    (h_svcNotices : free z .svcNotices = true → (x.noticeSeq, x.written) =
        (s.svc.noticeSeq, s.svc.written))
    (h : s0.onlyChanges s l) : s0.onlyChanges { s with svc := x } l := fun p hp => by
  refine same_trans (h p hp) ?_
  have hq := free_of_outside (outside_of_names hL hp)
  cases p <;> first | exact rfl | exact trivial | exact fun _ _ => rfl | exact h_jobs hq | exact h_bcasts hq | exact h_watch hq | exact h_drift hq | exact h_svcNotices hq

theorem only_hpwr {s0 s : State} {l z : List Part} {x : Hpwr} (hL : names l z = true)
    (h_cores : free z .cores = true → x.cores = s.hpwr.cores)
    (h_rails : free z .rails = true → x.rails = s.hpwr.rails)
    (h_sensors : free z .sensors = true → (x.sensors, x.shown) =
        (s.hpwr.sensors, s.hpwr.shown))
    (h_tables : free z .tables = true → (x.weights, x.dmap, x.points) =
        (s.hpwr.weights, s.hpwr.dmap, s.hpwr.points))
    (h_change : free z .change = true → (x.running, x.held, x.goHeld) =
        (s.hpwr.running, s.hpwr.held, s.hpwr.goHeld))
    (h_forced : free z .forced = true → (x.forced, x.cause, x.fixedFloor, x.stretch, x.tripLow, x.alertLow, x.alertHigh, x.alertHeld) =
        (s.hpwr.forced, s.hpwr.cause, s.hpwr.fixedFloor, s.hpwr.stretch, s.hpwr.tripLow, s.hpwr.alertLow, s.hpwr.alertHigh, s.hpwr.alertHeld))
    (h_budgets : free z .budgets = true → (x.budgets, x.decidedAt, x.corrAt, x.unmetAt) =
        (s.hpwr.budgets, s.hpwr.decidedAt, s.hpwr.corrAt, s.hpwr.unmetAt))
    (h_droops : free z .droops = true → (x.droops, x.vholds) =
        (s.hpwr.droops, s.hpwr.vholds))
    (h_waves : free z .waves = true → x.waves = s.hpwr.waves)
    (h : s0.onlyChanges s l) : s0.onlyChanges { s with hpwr := x } l := fun p hp => by
  refine same_trans (h p hp) ?_
  have hq := free_of_outside (outside_of_names hL hp)
  cases p <;> first | exact rfl | exact trivial | exact fun _ _ => rfl | exact h_cores hq | exact h_rails hq | exact h_sensors hq | exact h_tables hq | exact h_change hq | exact h_forced hq | exact h_budgets hq | exact h_droops hq | exact h_waves hq

theorem only_fum {s0 s : State} {l z : List Part} {x : Fum} (hL : names l z = true)
    (h_recs : free z .recs = true → (x.waiting, x.seq, x.dropCount, x.dropSev, x.lostCount, x.lostMask, x.lostFirst, x.lostLast) =
        (s.fum.waiting, s.fum.seq, s.fum.dropCount, s.fum.dropSev, s.fum.lostCount, s.fum.lostMask, s.fum.lostFirst, s.fum.lostLast))
    (h_log : free z .log = true → (x.log, x.next, x.window, x.captured, x.capCrcBad, x.capLen) =
        (s.fum.log, s.fum.next, s.fum.window, s.fum.captured, s.fum.capCrcBad, s.fum.capLen))
    (h_errs : free z .errs = true → (x.ceCount, x.ueCount, x.ueLoc, x.ceWords) =
        (s.fum.ceCount, s.fum.ueCount, s.fum.ueLoc, s.fum.ceWords))
    (h_gens : free z .gens = true → x.gens = s.fum.gens)
    (h_mirror : free z .mirror = true → (x.peer, x.mirror, x.sent, x.full, x.lastWin, x.unacked, x.totTicks) =
        (s.fum.peer, s.fum.mirror, s.fum.sent, s.fum.full, s.fum.lastWin, s.fum.unacked, s.fum.totTicks))
    (h_replicas : free z .replicas = true → (x.replica, x.replicaGen, x.parts, x.asks) =
        (s.fum.replica, s.fum.replicaGen, s.fum.parts, s.fum.asks))
    (h_plans : free z .plans = true → (x.pulls, x.pulled, x.dumps, x.ckpts, x.restores) =
        (s.fum.pulls, s.fum.pulled, s.fum.dumps, s.fum.ckpts, s.fum.restores))
    (h_inj : free z .inj = true → (x.injNow, x.flips) =
        (s.fum.injNow, s.fum.flips))
    (h : s0.onlyChanges s l) : s0.onlyChanges { s with fum := x } l := fun p hp => by
  refine same_trans (h p hp) ?_
  have hq := free_of_outside (outside_of_names hL hp)
  cases p <;> first | exact rfl | exact trivial | exact fun _ _ => rfl | exact h_recs hq | exact h_log hq | exact h_errs hq | exact h_gens hq | exact h_mirror hq | exact h_replicas hq | exact h_plans hq | exact h_inj hq

theorem only_board {s0 s : State} {l z : List Part} {x : Board} (hL : names l z = true)
    (h_board : free z .board = true → x = s.board)
    (h : s0.onlyChanges s l) : s0.onlyChanges { s with board := x } l := fun p hp => by
  refine same_trans (h p hp) ?_
  have hq := free_of_outside (outside_of_names hL hp)
  cases p <;> first | exact rfl | exact trivial | exact fun _ _ => rfl | exact h_board hq

theorem only_now {s0 s : State} {l z : List Part} {x : FT} (hL : names l z = true)
    (h_now : free z .now = true → x = s.now)
    (h : s0.onlyChanges s l) : s0.onlyChanges { s with now := x } l := fun p hp => by
  refine same_trans (h p hp) ?_
  have hq := free_of_outside (outside_of_names hL hp)
  cases p <;> first | exact rfl | exact trivial | exact fun _ _ => rfl | exact h_now hq

theorem only_tick {s0 s : State} {l z : List Part} {x : FT} (hL : names l z = true)
    (h_tick : free z .tick = true → x = s.tick)
    (h : s0.onlyChanges s l) : s0.onlyChanges { s with tick := x } l := fun p hp => by
  refine same_trans (h p hp) ?_
  have hq := free_of_outside (outside_of_names hL hp)
  cases p <;> first | exact rfl | exact trivial | exact fun _ _ => rfl | exact h_tick hq

theorem only_ticks {s0 s : State} {l z : List Part} {x : Nat} (hL : names l z = true)
    (h_ticks : free z .ticks = true → x = s.ticks)
    (h : s0.onlyChanges s l) : s0.onlyChanges { s with ticks := x } l := fun p hp => by
  refine same_trans (h p hp) ?_
  have hq := free_of_outside (outside_of_names hL hp)
  cases p <;> first | exact rfl | exact trivial | exact fun _ _ => rfl | exact h_ticks hq

theorem only_mbox {s0 s : State} {l z : List Part} {x : List (Nat × Msg)} (hL : names l z = true)
    (h_mbox : free z .mbox = true → x = s.mbox)
    (h : s0.onlyChanges s l) : s0.onlyChanges { s with mbox := x } l := fun p hp => by
  refine same_trans (h p hp) ?_
  have hq := free_of_outside (outside_of_names hL hp)
  cases p <;> first | exact rfl | exact trivial | exact fun _ _ => rfl | exact h_mbox hq

theorem only_out {s0 s : State} {l z : List Part} {x : List Out} (hL : names l z = true)
    (h_out : free z .out = true → x = s.out)
    (h : s0.onlyChanges s l) : s0.onlyChanges { s with out := x } l := fun p hp => by
  refine same_trans (h p hp) ?_
  have hq := free_of_outside (outside_of_names hL hp)
  cases p <;> first | exact rfl | exact trivial | exact fun _ _ => rfl | exact h_out hq

theorem only_free {s0 s : State} {l z : List Part} {x : Nat} (hL : names l z = true)
    (h_free : free z .free = true → x = s.free)
    (h : s0.onlyChanges s l) : s0.onlyChanges { s with free := x } l := fun p hp => by
  refine same_trans (h p hp) ?_
  have hq := free_of_outside (outside_of_names hL hp)
  cases p <;> first | exact rfl | exact trivial | exact fun _ _ => rfl | exact h_free hq

theorem only_pending {s0 s : State} {l z : List Part} {x : List Instr} (hL : names l z = true)
    (h_pending : free z .pending = true → x = s.pending)
    (h : s0.onlyChanges s l) : s0.onlyChanges { s with pending := x } l := fun p hp => by
  refine same_trans (h p hp) ?_
  have hq := free_of_outside (outside_of_names hL hp)
  cases p <;> first | exact rfl | exact trivial | exact fun _ _ => rfl | exact h_pending hq

theorem only_pages {s0 s : State} {l z : List Part} {x : Pages} (hL : names l z = true)
    (hr : x.regs = s.pages.regs) (hh : x.hdr = s.pages.hdr)
    (h_cmds : free z .cmds = true → x.cmds = s.pages.cmds)
    (h_lines : free z .lines = true → (x.irq, x.causes) =
        (s.pages.irq, s.pages.causes))
    (h_snap : free z .snap = true → (x.snapSeq, x.snapPartial, x.snapBusy, x.snapTime) =
        (s.pages.snapSeq, s.pages.snapPartial, s.pages.snapBusy, s.pages.snapTime))
    (h_xfers : free z .xfers = true → (x.xfers, x.nextXfer, x.hmTags) =
        (s.pages.xfers, s.pages.nextXfer, s.pages.hmTags))
    (h_ringQ : free z .ringQ = true → x.ringQ = s.pages.ringQ)
    (h_host : free z .host = true → x.host = s.pages.host)
    (h : s0.onlyChanges s l) : s0.onlyChanges { s with pages := x } l := fun p hp => by
  refine same_trans (h p hp) ?_
  have hq := free_of_outside (outside_of_names hL hp)
  cases p <;> first | exact rfl | exact trivial | exact fun _ _ => congrArg (fun r => Tab.read regReset r _) hr | exact fun _ _ => congrArg (fun r => Tab.read Header.reset r _) hh | exact h_cmds hq | exact h_lines hq | exact h_snap hq | exact h_xfers hq | exact h_ringQ hq | exact h_host hq

theorem modBoard_only {s0 s : State} {l z : List Part} {f : Board → Board} (hL : names l z = true)
    (h_board : free z .board = true → f s.board = s.board)
    (h : s0.onlyChanges s l) : s0.onlyChanges (s.modBoard f) l :=
  only_board hL h_board h

theorem modFum_only {s0 s : State} {l z : List Part} {f : Fum → Fum} (hL : names l z = true)
    (h_recs : free z .recs = true → ((f s.fum).waiting, (f s.fum).seq, (f s.fum).dropCount, (f s.fum).dropSev, (f s.fum).lostCount, (f s.fum).lostMask, (f s.fum).lostFirst, (f s.fum).lostLast) =
        (s.fum.waiting, s.fum.seq, s.fum.dropCount, s.fum.dropSev, s.fum.lostCount, s.fum.lostMask, s.fum.lostFirst, s.fum.lostLast))
    (h_log : free z .log = true → ((f s.fum).log, (f s.fum).next, (f s.fum).window, (f s.fum).captured, (f s.fum).capCrcBad, (f s.fum).capLen) =
        (s.fum.log, s.fum.next, s.fum.window, s.fum.captured, s.fum.capCrcBad, s.fum.capLen))
    (h_errs : free z .errs = true → ((f s.fum).ceCount, (f s.fum).ueCount, (f s.fum).ueLoc, (f s.fum).ceWords) =
        (s.fum.ceCount, s.fum.ueCount, s.fum.ueLoc, s.fum.ceWords))
    (h_gens : free z .gens = true → (f s.fum).gens = s.fum.gens)
    (h_mirror : free z .mirror = true → ((f s.fum).peer, (f s.fum).mirror, (f s.fum).sent, (f s.fum).full, (f s.fum).lastWin, (f s.fum).unacked, (f s.fum).totTicks) =
        (s.fum.peer, s.fum.mirror, s.fum.sent, s.fum.full, s.fum.lastWin, s.fum.unacked, s.fum.totTicks))
    (h_replicas : free z .replicas = true → ((f s.fum).replica, (f s.fum).replicaGen, (f s.fum).parts, (f s.fum).asks) =
        (s.fum.replica, s.fum.replicaGen, s.fum.parts, s.fum.asks))
    (h_plans : free z .plans = true → ((f s.fum).pulls, (f s.fum).pulled, (f s.fum).dumps, (f s.fum).ckpts, (f s.fum).restores) =
        (s.fum.pulls, s.fum.pulled, s.fum.dumps, s.fum.ckpts, s.fum.restores))
    (h_inj : free z .inj = true → ((f s.fum).injNow, (f s.fum).flips) =
        (s.fum.injNow, s.fum.flips))
    (h : s0.onlyChanges s l) : s0.onlyChanges (s.modFum f) l :=
  only_fum hL h_recs h_log h_errs h_gens h_mirror h_replicas h_plans h_inj h

theorem modHp_only {s0 s : State} {l z : List Part} {f : Hpwr → Hpwr} (hL : names l z = true)
    (h_cores : free z .cores = true → (f s.hpwr).cores = s.hpwr.cores)
    (h_rails : free z .rails = true → (f s.hpwr).rails = s.hpwr.rails)
    (h_sensors : free z .sensors = true → ((f s.hpwr).sensors, (f s.hpwr).shown) =
        (s.hpwr.sensors, s.hpwr.shown))
    (h_tables : free z .tables = true → ((f s.hpwr).weights, (f s.hpwr).dmap, (f s.hpwr).points) =
        (s.hpwr.weights, s.hpwr.dmap, s.hpwr.points))
    (h_change : free z .change = true → ((f s.hpwr).running, (f s.hpwr).held, (f s.hpwr).goHeld) =
        (s.hpwr.running, s.hpwr.held, s.hpwr.goHeld))
    (h_forced : free z .forced = true → ((f s.hpwr).forced, (f s.hpwr).cause, (f s.hpwr).fixedFloor, (f s.hpwr).stretch, (f s.hpwr).tripLow, (f s.hpwr).alertLow, (f s.hpwr).alertHigh, (f s.hpwr).alertHeld) =
        (s.hpwr.forced, s.hpwr.cause, s.hpwr.fixedFloor, s.hpwr.stretch, s.hpwr.tripLow, s.hpwr.alertLow, s.hpwr.alertHigh, s.hpwr.alertHeld))
    (h_budgets : free z .budgets = true → ((f s.hpwr).budgets, (f s.hpwr).decidedAt, (f s.hpwr).corrAt, (f s.hpwr).unmetAt) =
        (s.hpwr.budgets, s.hpwr.decidedAt, s.hpwr.corrAt, s.hpwr.unmetAt))
    (h_droops : free z .droops = true → ((f s.hpwr).droops, (f s.hpwr).vholds) =
        (s.hpwr.droops, s.hpwr.vholds))
    (h_waves : free z .waves = true → (f s.hpwr).waves = s.hpwr.waves)
    (h : s0.onlyChanges s l) : s0.onlyChanges (s.modHp f) l :=
  only_hpwr hL h_cores h_rails h_sensors h_tables h_change h_forced h_budgets h_droops h_waves h

theorem modLinks_only {s0 s : State} {l z : List Part} {f : Links → Links} (hL : names l z = true)
    (h_ports : free z .ports = true → (f s.links).ports = s.links.ports)
    (h_chans : free z .chans = true → (f s.links).chans = s.links.chans)
    (h_proxies : free z .proxies = true → (f s.links).proxies = s.links.proxies)
    (h_peers : free z .peers = true → (f s.links).peers = s.links.peers)
    (h_links : free z .links = true → ((f s.links).tray, (f s.links).trayKnown, (f s.links).down, (f s.links).upPort, (f s.links).spareFor, (f s.links).trays, (f s.links).changes, (f s.links).holding, (f s.links).twin, (f s.links).takeovers, (f s.links).downPrimary, (f s.links).swapWait) =
        (s.links.tray, s.links.trayKnown, s.links.down, s.links.upPort, s.links.spareFor, s.links.trays, s.links.changes, s.links.holding, s.links.twin, s.links.takeovers, s.links.downPrimary, s.links.swapWait))
    (h : s0.onlyChanges s l) : s0.onlyChanges (s.modLinks f) l :=
  only_links hL h_ports h_chans h_proxies h_peers h_links h

theorem modBpwr_only {s0 s : State} {l z : List Part} {f : Bpwr → Bpwr} (hL : names l z = true)
    (h_power : free z .power = true → (f s.bpwr).state = s.bpwr.state)
    (h_activity : free z .activity = true → ((f s.bpwr).busyAt, (f s.bpwr).quiet) =
        (s.bpwr.busyAt, s.bpwr.quiet))
    (h_bpwr : free z .bpwr = true → ((f s.bpwr).mode, (f s.bpwr).entry, (f s.bpwr).dozeAt, (f s.bpwr).emberAt, (f s.bpwr).active, (f s.bpwr).wickSkip, (f s.bpwr).wicks, (f s.bpwr).wickAt, (f s.bpwr).pg, (f s.bpwr).fell, (f s.bpwr).refclk, (f s.bpwr).extrap, (f s.bpwr).rstLow, (f s.bpwr).under, (f s.bpwr).times, (f s.bpwr).failed, (f s.bpwr).shown) =
        (s.bpwr.mode, s.bpwr.entry, s.bpwr.dozeAt, s.bpwr.emberAt, s.bpwr.active, s.bpwr.wickSkip, s.bpwr.wicks, s.bpwr.wickAt, s.bpwr.pg, s.bpwr.fell, s.bpwr.refclk, s.bpwr.extrap, s.bpwr.rstLow, s.bpwr.under, s.bpwr.times, s.bpwr.failed, s.bpwr.shown))
    (h : s0.onlyChanges s l) : s0.onlyChanges (s.modBpwr f) l :=
  only_bpwr hL h_power h_activity h_bpwr h

theorem modRot_only {s0 s : State} {l z : List Part} {f : Rot → Rot} (hL : names l z = true)
    (h_rotState : free z .rotState = true → (f s.rot).state = s.rot.state)
    (h_meas : free z .meas = true → ((f s.rot).queue, (f s.rot).log, (f s.rot).measGen, (f s.rot).rehash) =
        (s.rot.queue, s.rot.log, s.rot.measGen, s.rot.rehash))
    (h_firmware : free z .firmware = true → ((f s.rot).updatePending, (f s.rot).committed, (f s.rot).fallback, (f s.rot).image, (f s.rot).ctr, (f s.rot).ctrCopy, (f s.rot).staged, (f s.rot).commit, (f s.rot).fwAt) =
        (s.rot.updatePending, s.rot.committed, s.rot.fallback, s.rot.image, s.rot.ctr, s.rot.ctrCopy, s.rot.staged, s.rot.commit, s.rot.fwAt))
    (h_keys : free z .keys = true → ((f s.rot).identityOk, (f s.rot).uds, (f s.rot).devKey, (f s.rot).aliasKey, (f s.rot).kMem, (f s.rot).kTrace, (f s.rot).devCert, (f s.rot).aliasCert, (f s.rot).tokens) =
        (s.rot.identityOk, s.rot.uds, s.rot.devKey, s.rot.aliasKey, s.rot.kMem, s.rot.kTrace, s.rot.devCert, s.rot.aliasCert, s.rot.tokens))
    (h_spdm : free z .spdm = true → ((f s.rot).sessions, (f s.rot).exchanges, (f s.rot).transcript, (f s.rot).deferred, (f s.rot).deferrals) =
        (s.rot.sessions, s.rot.exchanges, s.rot.transcript, s.rot.deferred, s.rot.deferrals))
    (h_linkKeys : free z .linkKeys = true → ((f s.rot).shares, (f s.rot).agreed) =
        (s.rot.shares, s.rot.agreed))
    (h_verify : free z .verify = true → ((f s.rot).verify, (f s.rot).checks, (f s.rot).mismatchAt) =
        (s.rot.verify, s.rot.checks, s.rot.mismatchAt))
    (h_rotOrders : free z .rotOrders = true → ((f s.rot).resetDue, (f s.rot).warmDue) =
        (s.rot.resetDue, s.rot.warmDue))
    (h : s0.onlyChanges s l) : s0.onlyChanges (s.modRot f) l :=
  only_rot hL h_rotState h_meas h_firmware h_keys h_spdm h_linkKeys h_verify h_rotOrders h

theorem modSinter_only {s0 s : State} {l z : List Part} {f : Sinter → Sinter} (hL : names l z = true)
    (h_sinter : free z .sinter = true → f s.sinter = s.sinter)
    (h : s0.onlyChanges s l) : s0.onlyChanges (s.modSinter f) l :=
  only_sinter hL h_sinter h

theorem modSnuff_only {s0 s : State} {l z : List Part} {f : Snuff → Snuff} (hL : names l z = true)
    (h_snuff : free z .snuff = true → f s.snuff = s.snuff)
    (h : s0.onlyChanges s l) : s0.onlyChanges (s.modSnuff f) l :=
  only_snuff hL h_snuff h

theorem modSvc_only {s0 s : State} {l z : List Part} {f : Svc → Svc} (hL : names l z = true)
    (h_jobs : free z .jobs = true → ((f s.svc).jobs, (f s.svc).wins, (f s.svc).runtimes, (f s.svc).claims) =
        (s.svc.jobs, s.svc.wins, s.svc.runtimes, s.svc.claims))
    (h_bcasts : free z .bcasts = true → ((f s.svc).pend, (f s.svc).past, (f s.svc).count, (f s.svc).delayed) =
        (s.svc.pend, s.svc.past, s.svc.count, s.svc.delayed))
    (h_watch : free z .watch = true → ((f s.svc).gap, (f s.svc).watch, (f s.svc).dies, (f s.svc).checkAt) =
        (s.svc.gap, s.svc.watch, s.svc.dies, s.svc.checkAt))
    (h_drift : free z .drift = true → ((f s.svc).drift, (f s.svc).driftLast, (f s.svc).predict, (f s.svc).batches, (f s.svc).batchAt) =
        (s.svc.drift, s.svc.driftLast, s.svc.predict, s.svc.batches, s.svc.batchAt))
    (h_svcNotices : free z .svcNotices = true → ((f s.svc).noticeSeq, (f s.svc).written) =
        (s.svc.noticeSeq, s.svc.written))
    (h : s0.onlyChanges s l) : s0.onlyChanges (s.modSvc f) l :=
  only_svc hL h_jobs h_bcasts h_watch h_drift h_svcNotices h

theorem modTap_only {s0 s : State} {l z : List Part} {f : Tap → Tap} (hL : names l z = true)
    (h_tap : free z .tap = true → f s.tap = s.tap)
    (h : s0.onlyChanges s l) : s0.onlyChanges (s.modTap f) l :=
  only_tap hL h_tap h

theorem modCheck_only {s0 s : State} {l z : List Part} {f : Check → Check} (hL : names l z = true)
    (h_spares : free z .spares = true → (f s.check).spare = s.check.spare)
    (h_suspects : free z .suspects = true → ((f s.check).suspect, (f s.check).fences) =
        (s.check.suspect, s.check.fences))
    (h_violations : free z .violations = true → (f s.check).violations = s.check.violations)
    (h_kernels : free z .kernels = true → ((f s.check).kernels, (f s.check).regs) =
        (s.check.kernels, s.check.regs))
    (h_kats : free z .kats = true → ((f s.check).idle, (f s.check).passes, (f s.check).kat, (f s.check).katReqs, (f s.check).katLast, (f s.check).katLastUnit, (f s.check).unfence) =
        (s.check.idle, s.check.passes, s.check.kat, s.check.katReqs, s.check.katLast, s.check.katLastUnit, s.check.unfence))
    (h_taint : free z .taint = true → ((f s.check).tdiv, (f s.check).taint, (f s.check).taintPrev, (f s.check).clears, (f s.check).held, (f s.check).lane, (f s.check).lost) =
        (s.check.tdiv, s.check.taint, s.check.taintPrev, s.check.clears, s.check.held, s.check.lane, s.check.lost))
    (h_notices : free z .notices = true → ((f s.check).nextSeq, (f s.check).unacked, (f s.check).seen) =
        (s.check.nextSeq, s.check.unacked, s.check.seen))
    (h : s0.onlyChanges s l) : s0.onlyChanges (s.modCheck f) l :=
  only_check hL h_spares h_suspects h_violations h_kernels h_kats h_taint h_notices h

theorem modTime_only {s0 s : State} {l z : List Part} {f : Time → Time} (hL : names l z = true)
    (h_clock : free z .clock = true → ((f s.time).servo, (f s.time).running, (f s.time).rate, (f s.time).base, (f s.time).integ, (f s.time).slave, (f s.time).gm, (f s.time).samples, (f s.time).settled, (f s.time).run, (f s.time).offset, (f s.time).mpd, (f s.time).lastStep, (f s.time).stepSize, (f s.time).steps, (f s.time).outliers, (f s.time).masterChg, (f s.time).gmId, (f s.time).removed, (f s.time).lead, (f s.time).forced, (f s.time).holdFrom, (f s.time).holdMs) =
        (s.time.servo, s.time.running, s.time.rate, s.time.base, s.time.integ, s.time.slave, s.time.gm, s.time.samples, s.time.settled, s.time.run, s.time.offset, s.time.mpd, s.time.lastStep, s.time.stepSize, s.time.steps, s.time.outliers, s.time.masterChg, s.time.gmId, s.time.removed, s.time.lead, s.time.forced, s.time.holdFrom, s.time.holdMs))
    (h_relock : free z .relock = true → ((f s.time).relock, (f s.time).relockBad) =
        (s.time.relock, s.time.relockBad))
    (h_pps : free z .pps = true → ((f s.time).setPps, (f s.time).ppsIn, (f s.time).ppsPrev, (f s.time).ppsOut, (f s.time).ppsFall, (f s.time).ppsLast) =
        (s.time.setPps, s.time.ppsIn, s.time.ppsPrev, s.time.ppsOut, s.time.ppsFall, s.time.ppsLast))
    (h_evts : free z .evts = true → (f s.time).evts = s.time.evts)
    (h_tports : free z .tports = true → (f s.time).ports = s.time.ports)
    (h : s0.onlyChanges s l) : s0.onlyChanges (s.modTime f) l :=
  only_time hL h_clock h_relock h_pps h_evts h_tports h

theorem modTrace_only {s0 s : State} {l z : List Part} {f : Trace → Trace} (hL : names l z = true)
    (h_staged : free z .staged = true → (f s.trace).staged = s.trace.staged)
    (h_rings : free z .rings = true → (f s.trace).rings = s.trace.rings)
    (h_latches : free z .latches = true → (f s.trace).latches = s.trace.latches)
    (h_token : free z .token = true → (f s.trace).token = s.trace.token)
    (h_trace : free z .trace = true → ((f s.trace).run, (f s.trace).written, (f s.trace).startDue, (f s.trace).stopDue, (f s.trace).startUsed, (f s.trace).stopUsed, (f s.trace).outUsed, (f s.trace).funnel, (f s.trace).overwr, (f s.trace).outDue, (f s.trace).outEnd, (f s.trace).syncAt) =
        (s.trace.run, s.trace.written, s.trace.startDue, s.trace.stopDue, s.trace.startUsed, s.trace.stopUsed, s.trace.outUsed, s.trace.funnel, s.trace.overwr, s.trace.outDue, s.trace.outEnd, s.trace.syncAt))
    (h : s0.onlyChanges s l) : s0.onlyChanges (s.modTrace f) l :=
  only_trace hL h_staged h_rings h_latches h_token h_trace h

theorem only_ite {s0 a b : State} {l : List Part} {c : Prop} [Decidable c] (ha : s0.onlyChanges a l) (hb : s0.onlyChanges b l) :
    s0.onlyChanges (if c then a else b) l := by split <;> assumption

theorem only_ite_snd {α : Type} {s0 : State} {a b : α × State} {l : List Part} {c : Prop} [Decidable c]
    (ha : s0.onlyChanges a.2 l) (hb : s0.onlyChanges b.2 l) : s0.onlyChanges (if c then a else b).2 l := by split <;> assumption

theorem only_ite_s {s0 : State} {a b : Acted} {l : List Part} {c : Prop} [Decidable c]
    (ha : s0.onlyChanges a.s l) (hb : s0.onlyChanges b.s l) : s0.onlyChanges (if c then a else b).s l := by split <;> assumption

theorem only_ite_fst {α : Type} {s0 : State} {a b : State × α} {l : List Part} {c : Prop} [Decidable c]
    (ha : s0.onlyChanges a.1 l) (hb : s0.onlyChanges b.1 l) : s0.onlyChanges (if c then a else b).1 l := by split <;> assumption

theorem only_foldl {α : Type} {s0 t : State} {l : List Part} {g : State → α → State} {xs : List α}
    (hg : ∀ u a, s0.onlyChanges u l → s0.onlyChanges (g u a) l) (h : s0.onlyChanges t l) : s0.onlyChanges (xs.foldl g t) l := by
  induction xs generalizing t with
  | nil => exact h
  | cons a xs ih => exact ih (hg t a h)

theorem only_foldl_snd {α β : Type} {s0 : State} {t : β × State} {l : List Part} {g : β × State → α → β × State} {xs : List α}
    (hg : ∀ u a, s0.onlyChanges u.2 l → s0.onlyChanges (g u a).2 l) (h : s0.onlyChanges t.2 l) :
    s0.onlyChanges (xs.foldl g t).2 l := by
  induction xs generalizing t with
  | nil => exact h
  | cons a xs ih => exact ih (hg t a h)

theorem only_foldl_snd2 {α β γ : Type} {s0 : State} {t : β × γ × State} {l : List Part} {g : β × γ × State → α → β × γ × State}
    {xs : List α} (hg : ∀ u a, s0.onlyChanges u.2.2 l → s0.onlyChanges (g u a).2.2 l) (h : s0.onlyChanges t.2.2 l) :
    s0.onlyChanges (xs.foldl g t).2.2 l := by
  induction xs generalizing t with
  | nil => exact h
  | cons a xs ih => exact ih (hg t a h)

theorem only_foldl_snd3 {α β γ δ : Type} {s0 : State} {t : β × γ × δ × State} {l : List Part}
    {g : β × γ × δ × State → α → β × γ × δ × State} {xs : List α}
    (hg : ∀ u a, s0.onlyChanges u.2.2.2 l → s0.onlyChanges (g u a).2.2.2 l) (h : s0.onlyChanges t.2.2.2 l) :
    s0.onlyChanges (xs.foldl g t).2.2.2 l := by
  induction xs generalizing t with
  | nil => exact h
  | cons a xs ih => exact ih (hg t a h)

theorem only_ite_snd2 {α β : Type} {s0 : State} {a b : α × β × State} {l : List Part} {c : Prop} [Decidable c]
    (ha : s0.onlyChanges a.2.2 l) (hb : s0.onlyChanges b.2.2 l) : s0.onlyChanges (if c then a else b).2.2 l := by split <;> assumption

/-- The state of a pair that has been taken apart. -/
theorem only_of_pair {α : Type} {s0 t : State} {l : List Part} {x : α × State} {a : α} (e : x = (a, t))
    (h : s0.onlyChanges x.2 l) : s0.onlyChanges t l := by rw [e] at h; exact h

theorem only_getD {s0 s : State} {l : List Part} {o : Option State} (ho : ∀ t, o = some t → s0.onlyChanges t l)
    (h : s0.onlyChanges s l) : s0.onlyChanges (o.getD s) l := by
  cases o with
  | none => exact h
  | some t => exact ho t rfl

theorem only_after {s0 s : State} {l z : List Part} {o : Host.Outcome State Fault Refusal} (hL : names l z = true)
    (ho : ∃ t, o = .next t ∧ s.onlyChanges t z) (h : s0.onlyChanges s l) : s0.onlyChanges (after s o) l := by
  obtain ⟨t, rfl, ht⟩ := ho
  exact onlyChanges_trans h (onlyChanges_mono ht hL)

theorem only_widen {s : State} {l z : List Part} {o : Host.Outcome State Fault Refusal}
    (h : ∃ t, o = .next t ∧ s.onlyChanges t z) (hL : names l z = true) : ∃ t, o = .next t ∧ s.onlyChanges t l := by
  obtain ⟨t, e, ht⟩ := h
  exact ⟨t, e, onlyChanges_mono ht hL⟩

theorem only_foldl_fst {α β : Type} {s0 : State} {t : State × β} {l : List Part} {g : State × β → α → State × β} {xs : List α}
    (hg : ∀ u a, s0.onlyChanges u.1 l → s0.onlyChanges (g u a).1 l) (h : s0.onlyChanges t.1 l) :
    s0.onlyChanges (xs.foldl g t).1 l := by
  induction xs generalizing t with
  | nil => exact h
  | cons a xs ih => exact ih (hg t a h)

/-! ### The operations that store -/

@[simp] theorem keyType_pageKey (ty i c : Nat) : keyType (pageKey ty i c) = ty % 256 := by simp only [keyType, pageKey]; omega

@[simp] theorem keyType_pg (ty : Nat) : keyType (pg ty) = ty % 256 := keyType_pageKey ty 0 0

@[simp] theorem keyType_cmdKey (g : Bool) (n : Nat) : keyType (cmdKey g n) = 8 := keyType_pageKey _ _ _

@[simp] theorem keyType_fPage (e : Nat) : keyType (fPage e) = 0x20 := keyType_pageKey _ _ _

@[simp] theorem keyType_redPage (e : Nat) : keyType (redPage e) = 0x18 := keyType_pageKey _ _ _

@[simp] theorem keyType_tportPage (e : Nat) : keyType (tportPage e) = 0x31 := keyType_pageKey _ _ _

@[simp] theorem keyType_ftabPage : keyType ftabPage = 0x21 := rfl

@[simp] theorem keyType_fumPage : keyType fumPage = 0x58 := rfl

@[simp] theorem keyType_gyPage : keyType gyPage = 0x11 := rfl

@[simp] theorem keyType_hpPage : keyType hpPage = 0x48 := rfl

@[simp] theorem keyType_pacePage : keyType pacePage = 0x02 := rfl

@[simp] theorem keyType_bpPage : keyType bpPage = 0x50 := rfl

@[simp] theorem keyType_rotPage : keyType rotPage = 0x68 := rfl

@[simp] theorem keyType_szPage : keyType szPage = 0x39 := rfl

@[simp] theorem keyType_snuffPage : keyType snuffPage = 0x61 := rfl

@[simp] theorem keyType_svcPage : keyType svcPage = 0x40 := rfl

@[simp] theorem keyType_chkPage : keyType chkPage = 0x28 := rfl

@[simp] theorem keyType_timePage : keyType timePage = 0x30 := rfl

@[simp] theorem keyType_tracePage : keyType tracePage = 0x60 := rfl

theorem names_port_word {s : State} {p o : Nat} : names [.regs 0x93, .regs 0x91, .regs 0x38] [.word (keyType (s.portPage p)) o] = true := by
  unfold State.portPage
  repeat' split
  all_goals simp [names, Part.covers, Part.wordType]

theorem names_port_hdr {s : State} {p : Nat} : names [.hdr 0x93, .hdr 0x91, .hdr 0x38] [.hdr (keyType (s.portPage p))] = true := by
  unfold State.portPage
  repeat' split
  all_goals simp [names, Part.covers]

theorem keyType_key8 (g : Bool) (n : Nat) : keyType (XferOwner.key (.command g n)) = 8 := keyType_pageKey _ _ _

/-- The types of the pages that the chapters name, at once. -/
theorem keyTypes : (∀ g n, keyType (cmdKey g n) = 8) ∧ (∀ ty i c, keyType (pageKey ty i c) = ty % 256) ∧
    (∀ ty, keyType (pg ty) = ty % 256) ∧ (∀ g n, keyType (XferOwner.key (.command g n)) = 8) ∧ (∀ e, keyType (fPage e) = 0x20) ∧
    (∀ e, keyType (redPage e) = 0x18) ∧ (∀ e, keyType (tportPage e) = 0x31) ∧ keyType ftabPage = 0x21 ∧ keyType fumPage = 0x58 ∧
    keyType gyPage = 0x11 ∧ keyType hpPage = 0x48 ∧ keyType pacePage = 0x02 ∧ keyType bpPage = 0x50 ∧ keyType rotPage = 0x68 ∧
    keyType szPage = 0x39 ∧ keyType snuffPage = 0x61 ∧ keyType svcPage = 0x40 ∧ keyType chkPage = 0x28 ∧
    keyType timePage = 0x30 ∧ keyType tracePage = 0x60 :=
  ⟨keyType_cmdKey, keyType_pageKey, keyType_pg, keyType_key8, keyType_fPage, keyType_redPage, keyType_tportPage, rfl, rfl, rfl,
    rfl, rfl, rfl, rfl, rfl, rfl, rfl, rfl, rfl, rfl⟩

/-- To start the frame of a meaning: its own list of parts names itself, and nothing has changed yet. -/
theorem only_start {s t : State} {z : List Part} (h : names z z = true → s.onlyChanges s z → s.onlyChanges t z) :
    s.onlyChanges t z :=
  h (names_of_subset fun _ h => h) (onlyChanges_refl s z)

/-- Two words of different numbers are different. -/
theorem regKey_inj {p q a b : Nat} (h : regKey p a = regKey q b) : p = q ∧ a / 4 % 1024 = b / 4 % 1024 := by
  simp only [regKey] at h; omega

theorem setReg_only {s0 s : State} {l : List Part} {page off : Nat} {w : Word}
    (hL : names l [.word (keyType page) off] = true) (h : s0.onlyChanges s l) : s0.onlyChanges (s.setReg page off w) l :=
  fun p hp => by
    refine same_trans (h p hp) ?_
    have hq := outside_of_names hL hp
    cases p <;> try first | rfl | trivial | exact fun _ _ => rfl
    rename_i ty o
    intro q hqt
    simp only [State.reg, State.setReg]
    refine Tab.read_write_ne _ _ _ fun e => ?_
    obtain ⟨e1, e2⟩ := regKey_inj e
    simp [outside, Part.covers, Part.wordAt, ← e1, ← e2, hqt] at hq

theorem modHdr_only {s0 s : State} {l : List Part} {page : Nat} {f : Header → Header}
    (hL : names l [.hdr (keyType page)] = true) (h : s0.onlyChanges s l) : s0.onlyChanges (s.modHdr page f) l :=
  fun p hp => by
    refine same_trans (h p hp) ?_
    have hq := outside_of_names hL hp
    cases p <;> try first | rfl | trivial | exact fun _ _ => rfl
    rename_i ty
    intro q hqt
    simp only [State.hdr, State.modHdr]
    rw [Tab.read_modify, if_neg]
    rintro rfl
    simp [outside, Part.covers, hqt] at hq

theorem settle_only {s0 s : State} {l : List Part} (hL : names l [.lines, .xfers, .inj, .out] = true)
    (h : s0.onlyChanges s l) : s0.onlyChanges s.settle l := fun p hp => by
  refine same_trans (h p hp) ?_
  have hq := outside_of_names hL hp
  cases p <;> first | exact absurd hq (by decide) | trivial | simp [Part.same]

end Sys2Proof.Machine
end

