-- ==== Sys2Proof/Laws/Access.lean ====
section
/-!
SUPPORT. What an access that reaches a page does: the one operation of the page on the state with the idle timer restarted, and
the answer at the port; and the frame of a statement from the frame of its meaning.
-/
namespace Sys2Proof.Machine

/-- The frame of the state that a meaning answers. -/
theorem frame_of {o : Host.Outcome State Fault Refusal} {s t : State} {l : List Part}
    (h : ∃ t', o = .next t' ∧ s.onlyChanges t' l) (e : o = .next t) : s.onlyChanges t l := by
  obtain ⟨t', h, k⟩ := h
  rw [e] at h
  injection h with h
  exact h ▸ k

/-- A page's target has the offset of the address. -/
theorem pageTarget_off {l : List (Nat × Nat)} {n a key page off : Nat} (h : pageTarget l n (a % 4096) = .page key page off) :
    off = a % 4096 := by
  unfold pageTarget at h
  split at h <;> cases h
  rfl

/-- The offset of a page's target is aligned as its address is. -/
theorem target_off {s : State} {a key page off : Nat} (h : s.target false a = .page key page off) : off = a % 4096 := by
  unfold State.target State.dieTarget State.proxyTarget at h
  dsimp only at h
  repeat' first
    | exact pageTarget_off h
    | cases h
    | split at h

/-- An access that reaches a page is the page's own operation. -/
theorem access_reaches {s : State} {a : Access} {key off : Nat} (h : s.reaches a key off) :
    ∃ page, s.access a = (s.busyNow.pageAccess key page off a).2.respond a.req
      (s.busyNow.pageAccess key page off a).1.1 (s.busyNow.pageAccess key page off a).1.2 := by
  obtain ⟨hd, hp, hw, ⟨page, ht, hc⟩, ho, hb⟩ := h
  refine ⟨page, ?_⟩
  have ha : s.awake = true := by rcases hp with hp | hp <;> simp [State.awake, hp]
  have hh : s.hostWakes = s := by rcases hp with hp | hp <;> simp [State.hostWakes, hp]
  have h4 : a.addr.toNat % 4 = 0 := by
    have := target_off ht
    omega
  have hbad : (decide (a.addr.toNat % 4 ≠ 0) || decide (a.be ≠ 0xF)) = false := by simp [h4, hb]
  have hc' : s.busyNow.chanOpen (.subsystem page) = true := hc
  simp only [State.access, hw, if_false, State.serve, Option.isSome_none, ht, hd, Bool.false_eq_true, ha, Bool.not_true,
    Bool.false_and, if_true, hh, hbad, hc', reduceCtorEq]

@[simp] theorem busyNow_hdr (s : State) (p : Nat) : s.busyNow.hdr p = s.hdr p := rfl
@[simp] theorem busyNow_regAt (s : State) (p o : Nat) : s.busyNow.reg p o = s.reg p o := rfl
@[simp] theorem busyNow_cmd (s : State) (g : Bool) (n : Nat) : s.busyNow.cmd g n = s.cmd g n := rfl

/-- A write past the checks of its page, with no guard latch armed. -/
theorem access_fresh {s : State} {a : Access} {key off : Nat} (h : s.mayWrite a key off) (hg : (s.hdr key).guard = none) :
    s.access a = (let r := s.busyNow.freshWrite key off a.req a.data
      (if r.1 = .error || r.1 = .denied || (decide (r.1 = .retry) && s.isSystem && decide (a.req.port = .host)) then
        r.2.setErr key errAccess else r.2).respond a.req r.1 0) := by
  obtain ⟨hr, hw, hk, hs, hb, hi⟩ := h
  obtain ⟨page, e⟩ := access_reaches hr
  obtain ⟨-, -, -, -, ho, hbe⟩ := hr
  rw [e]
  have h1 : ¬(off % 4 ≠ 0 ∨ a.be ≠ 0xF) := by simp [ho, hbe]
  have h2 : ¬(a.req.tag.rank < s.busyNow.writeRank key (off % 0x800)) := by
    have : s.busyNow.writeRank key (off % 0x800) = s.writeRank key (off % 0x800) := rfl
    omega
  have h3 : ¬(0x40 ≤ off % 0x800 ∧ s.busyNow.pageShut key = true) := fun ⟨x, y⟩ => by
    have : s.busyNow.pageShut key = s.pageShut key := rfl
    rw [this, hs x] at y; simp at y
  have h4 : s.busyNow.behindReset key (off % 0x800) = false := hb
  have h5 : s.busyNow.isSystem = s.isSystem := rfl
  simp only [State.pageAccess, h1, if_false, hw, if_true, State.writeAnswered, State.writePage, h2, h3, h4, Bool.false_eq_true,
    State.latchedWrite, busyNow_hdr, hg, hi, and_false, h5]

/-- A read past the checks of its page. -/
theorem access_read {s : State} {a : Access} {key off : Nat} (h : s.mayRead a key off) (hk : keyType key ≠ 0x08)
    (hd : dataWindow key off = none) (hn : s.redDenied key off a.req = false) :
    s.access a = (s.busyNow.readReg key off).2.respond a.req .ok (s.busyNow.readReg key off).1 := by
  obtain ⟨hr, hw, h4, h8, ht, hs, hb⟩ := h
  obtain ⟨page, e⟩ := access_reaches hr
  obtain ⟨-, -, -, -, ho, hbe⟩ := hr
  rw [e]
  have h1 : ¬(off % 4 ≠ 0 ∨ a.be ≠ 0xF) := by simp [ho, hbe]
  have h2 : ¬(a.req.tag.rank < s.busyNow.readRank key off) := by
    have : s.busyNow.readRank key off = s.readRank key off := rfl
    omega
  have h3 : s.busyNow.pageShut key = false := hs
  have h5 : s.busyNow.behindReset key off = false := hb
  have h6 : s.busyNow.redDenied key off a.req = false := hn
  have h7 : ¬ off < 0x10 := by omega
  have h9 : ¬ off < 0x40 := by omega
  simp only [State.pageAccess, h1, if_false, hw, Bool.false_eq_true, State.readPage, h8, if_true, State.readAt, h7, h2, h9, h3, h5, hk, hd, h6]

/-- The answer is seen at the port once the step has ended. -/
theorem answered_settle {s u : State} {q : Req} {r : Resp} {d : Word} (ho : ∃ m, u.out = m ++ s.out)
    (hh : u.pages.host = s.pages.host) : s.answered (u.respond q r d).settle q r d := by
  unfold State.answered State.respond
  rw [hh]
  split_ifs with h
  · simp [hh]
  · unfold State.delivered State.answerNow
    split
    · obtain ⟨m, hm⟩ := ho
      refine ⟨?_, by simp [hh, State.emit]⟩
      obtain ⟨l, hl⟩ := settle_out (({ u.emit (.response q.rid r d) with pages := { (u.emit (.response q.rid r d)).pages with
        host := { (u.emit (.response q.rid r d)).pages.host with unacked := (u.emit (.response q.rid r d)).pages.host.unacked ++ [q.rid] } } } : State))
      exact ⟨l, m, by rw [hl]; simp [State.emit, hm]⟩
    · split
      · simp
      · trivial

end Sys2Proof.Machine
end

