-- ==== Sys2Proof/Laws/Command.lean ====
section
/-!
SUPPORT. What an accepted command finds: its own effect starts in the state `begun`, which differs from the state before only in
its page, the result words, the port's answer and the idle timer (R80, R81, R385).
-/
namespace Sys2Proof.Machine

theorem takes_iff (s : State) (c : CmdIn) (tag : Tag) : s.takes c tag = true ↔
    s.dark = false ∧ (s.bpwr.state = .run ∨ s.bpwr.state = .idle) ∧ s.rot.state ≠ .recovery ∧ s.snuff.state ≠ .cut ∧
      s.cmdGate c.pkg c.page.toNat c.req = .ok ∧ c.nargs.toNat ≤ 32 ∧ c.req.tag.atLeast tag = true := by
  simp [State.takes, State.serving, and_assoc]

/-- A page that answers OK is idle (R80). -/
theorem cmdGate_idle {s : State} {g : Bool} {n : Nat} {q : Req} (h : s.cmdGate g n q = .ok) : (s.cmd g n).busy = false := by
  unfold State.cmdGate at h
  by_contra hb
  simp only [Bool.not_eq_false] at hb
  simp only [hb, if_true] at h
  split_ifs at h

/-! ### The state in which the effect begins -/

theorem clearRes_frame (s : State) (g : Bool) (n : Nat) : ∃ r, s.clearRes g n = { s with pages := { s.pages with regs := r } } := by
  unfold State.clearRes
  generalize List.range 32 = l
  induction l generalizing s with
  | nil => exact ⟨_, rfl⟩
  | cons k l ih =>
    obtain ⟨r, h⟩ := ih (s.setReg (cmdKey g n) (0x100 + 4 * k) 0)
    exact ⟨r, by rw [List.foldl_cons, h]; rfl⟩

theorem respond_frame (s : State) (q : Req) (r : Resp) (d : Word) : ∃ o h t, s.respond q r d =
    { s with out := o, tap := t, pages := { s.pages with host := h } } := by
  unfold State.respond State.answerNow
  split_ifs <;> exact ⟨_, _, _, rfl⟩

/-- What acceptance can change. -/
theorem begun_eq (s : State) (c : CmdIn) (cls op : Nat) : ∃ r o h t k, (∀ x ∈ k, x ∈ s.pages.causes) ∧ s.begun c cls op =
    { s with
      out := o, tap := t, bpwr := s.busyNow.bpwr
      pages := { s.pages with
        regs := r, host := h, causes := k
        cmds := Tab.write CmdPage.reset s.pages.cmds (c.page.toNat % 8 + if c.pkg then 8 else 0)
          { s.cmd c.pkg c.page.toNat with
            busy := true, done := false, seq := (s.cmd c.pkg c.page.toNat).seq + 1, status := 0, detail := 0,
            cmd := word (cls * 2 ^ 24 + op * 2 ^ 8 + c.nargs.toNat), req := c.req, wait := .none, ticks := 0, order := (s.pages.cmds.map fun e => e.2.order).foldl max 0 + 1 } } } := by
  unfold State.begun State.accept
  obtain ⟨r, hr⟩ := clearRes_frame s.busyNow c.pkg c.page.toNat
  rw [hr]
  obtain ⟨o, h, t, hq⟩ := respond_frame
    (({ s.busyNow with pages := { s.busyNow.pages with regs := r } } : State).setCmd c.pkg c.page.toNat
      { s.busyNow.cmd c.pkg c.page.toNat with
        busy := true, done := false, seq := (s.busyNow.cmd c.pkg c.page.toNat).seq + 1, status := 0, detail := 0,
        cmd := word (cls * 2 ^ 24 + op * 2 ^ 8 + c.nargs.toNat), req := c.req, wait := .none, ticks := 0, order := (s.pages.cmds.map fun e => e.2.order).foldl max 0 + 1 }).causesFall c.req .ok 0
  exact ⟨r, o, h, t, _, fun x hx => (List.mem_filter.mp hx).1, hq⟩

@[simp] theorem begun_straps (s : State) (c : CmdIn) (a b : Nat) : (s.begun c a b).straps = s.straps := by
  obtain ⟨_, _, _, _, _, _, h⟩ := begun_eq s c a b; rw [h]

@[simp] theorem begun_pkg (s : State) (c : CmdIn) (a b : Nat) : (s.begun c a b).pkg = s.pkg := by
  obtain ⟨_, _, _, _, _, _, h⟩ := begun_eq s c a b; rw [h]

@[simp] theorem begun_pace (s : State) (c : CmdIn) (a b : Nat) : (s.begun c a b).pace = s.pace := by
  obtain ⟨_, _, _, _, _, _, h⟩ := begun_eq s c a b; rw [h]

@[simp] theorem begun_samp (s : State) (c : CmdIn) (a b : Nat) : (s.begun c a b).samp = s.samp := by
  obtain ⟨_, _, _, _, _, _, h⟩ := begun_eq s c a b; rw [h]

@[simp] theorem begun_reds (s : State) (c : CmdIn) (a b : Nat) : (s.begun c a b).reds = s.reds := by
  obtain ⟨_, _, _, _, _, _, h⟩ := begun_eq s c a b; rw [h]

@[simp] theorem begun_forest (s : State) (c : CmdIn) (a b : Nat) : (s.begun c a b).forest = s.forest := by
  obtain ⟨_, _, _, _, _, _, h⟩ := begun_eq s c a b; rw [h]

@[simp] theorem begun_check (s : State) (c : CmdIn) (a b : Nat) : (s.begun c a b).check = s.check := by
  obtain ⟨_, _, _, _, _, _, h⟩ := begun_eq s c a b; rw [h]

@[simp] theorem begun_rot (s : State) (c : CmdIn) (a b : Nat) : (s.begun c a b).rot = s.rot := by
  obtain ⟨_, _, _, _, _, _, h⟩ := begun_eq s c a b; rw [h]

@[simp] theorem begun_time (s : State) (c : CmdIn) (a b : Nat) : (s.begun c a b).time = s.time := by
  obtain ⟨_, _, _, _, _, _, h⟩ := begun_eq s c a b; rw [h]

@[simp] theorem begun_trace (s : State) (c : CmdIn) (a b : Nat) : (s.begun c a b).trace = s.trace := by
  obtain ⟨_, _, _, _, _, _, h⟩ := begun_eq s c a b; rw [h]

@[simp] theorem begun_snuff (s : State) (c : CmdIn) (a b : Nat) : (s.begun c a b).snuff = s.snuff := by
  obtain ⟨_, _, _, _, _, _, h⟩ := begun_eq s c a b; rw [h]

@[simp] theorem begun_links (s : State) (c : CmdIn) (a b : Nat) : (s.begun c a b).links = s.links := by
  obtain ⟨_, _, _, _, _, _, h⟩ := begun_eq s c a b; rw [h]

@[simp] theorem begun_sinter (s : State) (c : CmdIn) (a b : Nat) : (s.begun c a b).sinter = s.sinter := by
  obtain ⟨_, _, _, _, _, _, h⟩ := begun_eq s c a b; rw [h]

@[simp] theorem begun_svc (s : State) (c : CmdIn) (a b : Nat) : (s.begun c a b).svc = s.svc := by
  obtain ⟨_, _, _, _, _, _, h⟩ := begun_eq s c a b; rw [h]

@[simp] theorem begun_hpwr (s : State) (c : CmdIn) (a b : Nat) : (s.begun c a b).hpwr = s.hpwr := by
  obtain ⟨_, _, _, _, _, _, h⟩ := begun_eq s c a b; rw [h]

@[simp] theorem begun_fum (s : State) (c : CmdIn) (a b : Nat) : (s.begun c a b).fum = s.fum := by
  obtain ⟨_, _, _, _, _, _, h⟩ := begun_eq s c a b; rw [h]

@[simp] theorem begun_board (s : State) (c : CmdIn) (a b : Nat) : (s.begun c a b).board = s.board := by
  obtain ⟨_, _, _, _, _, _, h⟩ := begun_eq s c a b; rw [h]

@[simp] theorem begun_now (s : State) (c : CmdIn) (a b : Nat) : (s.begun c a b).now = s.now := by
  obtain ⟨_, _, _, _, _, _, h⟩ := begun_eq s c a b; rw [h]

@[simp] theorem begun_tick (s : State) (c : CmdIn) (a b : Nat) : (s.begun c a b).tick = s.tick := by
  obtain ⟨_, _, _, _, _, _, h⟩ := begun_eq s c a b; rw [h]

@[simp] theorem begun_ticks (s : State) (c : CmdIn) (a b : Nat) : (s.begun c a b).ticks = s.ticks := by
  obtain ⟨_, _, _, _, _, _, h⟩ := begun_eq s c a b; rw [h]

@[simp] theorem begun_mbox (s : State) (c : CmdIn) (a b : Nat) : (s.begun c a b).mbox = s.mbox := by
  obtain ⟨_, _, _, _, _, _, h⟩ := begun_eq s c a b; rw [h]

@[simp] theorem begun_free (s : State) (c : CmdIn) (a b : Nat) : (s.begun c a b).free = s.free := by
  obtain ⟨_, _, _, _, _, _, h⟩ := begun_eq s c a b; rw [h]

@[simp] theorem begun_pending (s : State) (c : CmdIn) (a b : Nat) : (s.begun c a b).pending = s.pending := by
  obtain ⟨_, _, _, _, _, _, h⟩ := begun_eq s c a b; rw [h]

@[simp] theorem begun_pages_hdr (s : State) (c : CmdIn) (a b : Nat) : (s.begun c a b).pages.hdr = s.pages.hdr := by
  obtain ⟨_, _, _, _, _, _, h⟩ := begun_eq s c a b; rw [h]

@[simp] theorem begun_pages_irq (s : State) (c : CmdIn) (a b : Nat) : (s.begun c a b).pages.irq = s.pages.irq := by
  obtain ⟨_, _, _, _, _, _, h⟩ := begun_eq s c a b; rw [h]

/-- Acceptance forgets causes and adds none (R85). -/
theorem begun_pages_causes (s : State) (c : CmdIn) (a b : Nat) : ∀ x ∈ (s.begun c a b).pages.causes, x ∈ s.pages.causes := by
  obtain ⟨_, _, _, _, _, k, h⟩ := begun_eq s c a b; rw [h]; exact k

@[simp] theorem begun_pages_snapSeq (s : State) (c : CmdIn) (a b : Nat) : (s.begun c a b).pages.snapSeq = s.pages.snapSeq := by
  obtain ⟨_, _, _, _, _, _, h⟩ := begun_eq s c a b; rw [h]

@[simp] theorem begun_pages_snapPartial (s : State) (c : CmdIn) (a b : Nat) : (s.begun c a b).pages.snapPartial = s.pages.snapPartial := by
  obtain ⟨_, _, _, _, _, _, h⟩ := begun_eq s c a b; rw [h]

@[simp] theorem begun_pages_snapBusy (s : State) (c : CmdIn) (a b : Nat) : (s.begun c a b).pages.snapBusy = s.pages.snapBusy := by
  obtain ⟨_, _, _, _, _, _, h⟩ := begun_eq s c a b; rw [h]

@[simp] theorem begun_pages_snapTime (s : State) (c : CmdIn) (a b : Nat) : (s.begun c a b).pages.snapTime = s.pages.snapTime := by
  obtain ⟨_, _, _, _, _, _, h⟩ := begun_eq s c a b; rw [h]

@[simp] theorem begun_pages_ringQ (s : State) (c : CmdIn) (a b : Nat) : (s.begun c a b).pages.ringQ = s.pages.ringQ := by
  obtain ⟨_, _, _, _, _, _, h⟩ := begun_eq s c a b; rw [h]

@[simp] theorem begun_pages_xfers (s : State) (c : CmdIn) (a b : Nat) : (s.begun c a b).pages.xfers = s.pages.xfers := by
  obtain ⟨_, _, _, _, _, _, h⟩ := begun_eq s c a b; rw [h]

@[simp] theorem begun_pages_nextXfer (s : State) (c : CmdIn) (a b : Nat) : (s.begun c a b).pages.nextXfer = s.pages.nextXfer := by
  obtain ⟨_, _, _, _, _, _, h⟩ := begun_eq s c a b; rw [h]

@[simp] theorem begun_pages_hmTags (s : State) (c : CmdIn) (a b : Nat) : (s.begun c a b).pages.hmTags = s.pages.hmTags := by
  obtain ⟨_, _, _, _, _, _, h⟩ := begun_eq s c a b; rw [h]

@[simp] theorem begun_hdrOf (s : State) (c : CmdIn) (a b p : Nat) : (s.begun c a b).hdr p = s.hdr p := by
  simp [State.hdr]

theorem reg_setReg (s : State) (p o p' o' : Nat) (w : Word) : (s.setReg p o w).reg p' o' =
    if regKey p' o' = regKey p o then w else s.reg p' o' := by
  simp [State.reg, State.setReg, Tab.read_write]

@[simp] theorem reg_setReg_same (s : State) (p o : Nat) (w : Word) : (s.setReg p o w).reg p o = w := by simp [reg_setReg]

/-- The words that acceptance clears: RES_0 to RES_31 of the page. -/
theorem clearRes_reg (s : State) (g : Bool) (n p o : Nat)
    (h : ∀ k < 32, regKey p o ≠ regKey (cmdKey g n) (0x100 + 4 * k)) : (s.clearRes g n).reg p o = s.reg p o := by
  unfold State.clearRes
  have : ∀ (l : List Nat) (s : State), (∀ k ∈ l, k < 32) →
      (l.foldl (fun s k => s.setReg (cmdKey g n) (0x100 + 4 * k) 0) s).reg p o = s.reg p o := by
    intro l
    induction l with
    | nil => intro s _; rfl
    | cons k l ih =>
      intro s hl
      rw [List.foldl_cons, ih _ fun j hj => hl j (by simp [hj]), reg_setReg, if_neg (h k (hl k (by simp)))]
  exact this _ s fun k hk => List.mem_range.1 hk

theorem respond_reg (s : State) (q : Req) (r : Resp) (d : Word) (p o : Nat) : (s.respond q r d).reg p o = s.reg p o := by
  obtain ⟨_, _, _, h⟩ := respond_frame s q r d; rw [h]; rfl

theorem setCmd_reg (s : State) (g : Bool) (n : Nat) (x : CmdPage) (p o : Nat) : (s.setCmd g n x).reg p o = s.reg p o := rfl

theorem causesFall_reg (s : State) (p o : Nat) : s.causesFall.reg p o = s.reg p o := rfl

theorem busyNow_reg (s : State) (p o : Nat) : s.busyNow.reg p o = s.reg p o := rfl

/-- Registers other than the result words of the page stay as they were. -/
theorem begun_reg (s : State) (c : CmdIn) (a b p o : Nat)
    (h : ∀ k < 32, regKey p o ≠ regKey (cmdKey c.pkg c.page.toNat) (0x100 + 4 * k)) : (s.begun c a b).reg p o = s.reg p o := by
  unfold State.begun State.accept
  rw [respond_reg, causesFall_reg, setCmd_reg, clearRes_reg _ _ _ _ _ h, busyNow_reg]

/-- The argument words are those written. -/
@[simp] theorem begun_argW (s : State) (c : CmdIn) (a b k : Nat) (hk : k < 32) : argW c (s.begun c a b) k = argW c s k := by
  refine begun_reg s c a b _ _ fun j hj => ?_
  simp only [regKey]; omega

theorem begun_cmd (s : State) (c : CmdIn) (a b : Nat) : (s.begun c a b).cmd c.pkg c.page.toNat =
    { s.cmd c.pkg c.page.toNat with
      busy := true, done := false, seq := (s.cmd c.pkg c.page.toNat).seq + 1, status := 0, detail := 0,
      cmd := word (a * 2 ^ 24 + b * 2 ^ 8 + c.nargs.toNat), req := c.req, wait := .none, ticks := 0, order := (s.pages.cmds.map fun e => e.2.order).foldl max 0 + 1 } := by
  obtain ⟨_, _, _, _, _, _, h⟩ := begun_eq s c a b
  rw [h]; simp [State.cmd]

/-- An accepted command of a class and opcode that the role knows has its own effect. -/
theorem runCmd_takes {s : State} {c : CmdIn} {tag : Tag} (h : s.takes c tag = true) (cls op : Nat) {known : Bool}
    (hk : known = true) (effect : State → State) :
    runCmd c cls op tag known effect s = effect (s.begun c cls op) := by
  obtain ⟨hd, hp, hr, hs, hg, hn, ht⟩ := (takes_iff s c tag).1 h
  have hb := cmdGate_idle hg
  have ha : s.awake = true := by rcases hp with hp | hp <;> simp [State.awake, hp]
  have hw : s.hostWakes = s := by
    rcases hp with hp | hp <;> simp [State.hostWakes, hp]
  have hbeg : s.busyNow.accept c.pkg c.page.toNat c.req (word (cls * 2 ^ 24 + op * 2 ^ 8 + c.nargs.toNat)) = s.begun c cls op := rfl
  have hpz : (s.begun c cls op).cmdPaused ((s.begun c cls op).cmd c.pkg c.page.toNat).cmd = false := by
    simp [State.cmdPaused, hs]
  have hpo : (s.begun c cls op).rot = s.rot := begun_rot s c cls op
  have e1 : ¬((s.cmd c.pkg c.page.toNat).busy = true ∧ (s.cmd c.pkg c.page.toNat).wait = .event 20 1) := by simp [hb]
  have e2 : ¬(32 < c.nargs.toNat) := by omega
  simp only [runCmd, e1, if_false, hd, Bool.false_eq_true, ha, Bool.not_true, Bool.false_and, hg, hw, hbeg, e2, hk, Bool.false_or]
  simp only [hpo, hr, decide_false, Bool.false_and, Bool.false_eq_true, if_false, ht, Bool.not_true, hpz]

/-- The state in which a command has completed. -/
theorem complete_ended (s : State) (c : CmdIn) (st : Byte) (d : Nat) : (s.complete c.pkg c.page.toNat st d).ended c st d := by
  simp [State.ended, State.complete, State.cmd, State.setCmd]

theorem settle_ended {s : State} {c : CmdIn} {st : Byte} {d : Nat} (h : s.ended c st d) : s.settle.ended c st d := by
  simpa [State.ended] using h

end Sys2Proof.Machine
end

