-- ==== Sys2Proof/Laws/FramesBlock.lean ====
section
/-!
SUPPORT. What each operation and each command of Ops, Operands, Fence, Time, Links, LinkRx, LinkTx, Sinter, Rings may change.
-/
set_option linter.all false
namespace Sys2Proof.Machine

variable {s0 : State} {L : List Part}

/-! Ops -/

theorem traceStage_only {s : State} {p : TPacket} (hL : names L [.staged] = true) 
    (ho : s0.onlyChanges s L) : s0.onlyChanges (State.traceStage s p) L := by
  unfold State.traceStage
  try dsimp only
  repeat' first
    | with_reducible assumption
    | (refine names_trans hL ?_
       try simp only [keyTypes, Nat.reduceMod]
       decide)
    | with_reducible first
      | refine names_cons ?_ ?_
      | refine only_ite ?_ ?_
      | refine only_ite_snd ?_ ?_
      | refine only_ite_fst ?_ ?_
    | split
    | (with_reducible refine only_trace (z := [.staged]) ?_ ?_ ?_ ?_ ?_ ?_ ?_
       · refine names_trans hL ?_
         first | decide | (refine names_of_subset ?_; simp; done)
       iterate 5 · first | with_reducible rfl | (intro _; with_reducible rfl) | exact fun h => not_free h rfl | (intro _; dsimp only; split <;> rfl) | exact rfl | exact fun _ => rfl)
    | dsimp only

theorem traceRec_only {s : State} {r : LogRec} (hL : names L [.staged] = true) 
    (ho : s0.onlyChanges s L) : s0.onlyChanges (State.traceRec s r) L := by
  unfold State.traceRec
  try dsimp only
  repeat' first
    | with_reducible assumption
    | (refine names_trans hL ?_
       try simp only [keyTypes, Nat.reduceMod]
       decide)
    | with_reducible first
      | refine names_cons ?_ ?_
      | refine only_ite ?_ ?_
      | refine only_ite_snd ?_ ?_
      | refine only_ite_fst ?_ ?_
      | refine traceStage_only (hL := ?_) (ho := ?_)
    | split
    | dsimp only

theorem setErr_only {s : State} {page b : Nat} (hL : names L [.hdr (keyType page)] = true) 
    (ho : s0.onlyChanges s L) : s0.onlyChanges (State.setErr s page b) L := by
  unfold State.setErr
  try dsimp only
  repeat' first
    | with_reducible assumption
    | (refine names_trans hL ?_
       try simp only [keyTypes, Nat.reduceMod]
       refine names_of_subset ?_
       simp
       done)
    | with_reducible first
      | refine names_cons ?_ ?_
      | refine only_ite ?_ ?_
      | refine only_ite_snd ?_ ?_
      | refine only_ite_fst ?_ ?_
      | refine modHdr_only (hL := ?_) (h := ?_)
    | split
    | dsimp only

theorem dropRec_only {s : State} {sev : Nat} (hL : names L [.hdr 0x58, .recs] = true) 
    (ho : s0.onlyChanges s L) : s0.onlyChanges (State.dropRec s sev) L := by
  unfold State.dropRec
  try dsimp only
  repeat' first
    | with_reducible assumption
    | (refine names_trans hL ?_
       try simp only [keyTypes, Nat.reduceMod]
       decide)
    | with_reducible first
      | refine names_cons ?_ ?_
      | refine only_ite ?_ ?_
      | refine only_ite_snd ?_ ?_
      | refine only_ite_fst ?_ ?_
      | refine setErr_only (hL := ?_) (ho := ?_)
    | split
    | (with_reducible refine only_fum (z := [.recs]) ?_ ?_ ?_ ?_ ?_ ?_ ?_ ?_ ?_ ?_
       · refine names_trans hL ?_
         first | decide | (refine names_of_subset ?_; simp; done)
       iterate 8 · first | with_reducible rfl | (intro _; with_reducible rfl) | exact fun h => not_free h rfl | (intro _; dsimp only; split <;> rfl) | exact rfl | exact fun _ => rfl)
    | dsimp only

theorem logRec_only {s : State} {page inst code sev : Nat} {inj : Bool} {schema : Byte} {body : List Byte} (hL : names L [.staged, .recs, .hdr 0x58] = true) 
    (ho : s0.onlyChanges s L) : s0.onlyChanges (State.logRec s page inst code sev inj schema body) L := by
  unfold State.logRec
  try dsimp only
  repeat' first
    | with_reducible assumption
    | (refine names_trans hL ?_
       try simp only [keyTypes, Nat.reduceMod]
       decide)
    | with_reducible first
      | refine names_cons ?_ ?_
      | refine only_ite ?_ ?_
      | refine only_ite_snd ?_ ?_
      | refine only_ite_fst ?_ ?_
      | refine traceRec_only (hL := ?_) (ho := ?_)
      | refine dropRec_only (hL := ?_) (ho := ?_)
    | split
    | (with_reducible refine only_fum (z := [.recs]) ?_ ?_ ?_ ?_ ?_ ?_ ?_ ?_ ?_ ?_
       · refine names_trans hL ?_
         first | decide | (refine names_of_subset ?_; simp; done)
       iterate 8 · first | with_reducible rfl | (intro _; with_reducible rfl) | exact fun h => not_free h rfl | (intro _; dsimp only; split <;> rfl) | exact rfl | exact fun _ => rfl)
    | dsimp only

theorem log_only {s : State} {page inst code sev subject arg : Nat} {content : List Byte} (hL : names L [.staged, .recs, .hdr 0x58] = true) 
    (ho : s0.onlyChanges s L) : s0.onlyChanges (State.log s page inst code sev subject arg content) L := by
  unfold State.log
  try dsimp only
  repeat' first
    | with_reducible assumption
    | (refine names_trans hL ?_
       try simp only [keyTypes, Nat.reduceMod]
       decide)
    | with_reducible first
      | refine names_cons ?_ ?_
      | refine only_ite ?_ ?_
      | refine only_ite_snd ?_ ?_
      | refine only_ite_fst ?_ ?_
      | refine logRec_only (hL := ?_) (ho := ?_)
    | split
    | dsimp only

theorem send_only {s : State} {m : Msg} (hL : names L [.mbox] = true) 
    (ho : s0.onlyChanges s L) : s0.onlyChanges (State.send s m) L := by
  unfold State.send
  try dsimp only
  repeat' first
    | with_reducible assumption
    | (refine names_trans hL ?_
       try simp only [keyTypes, Nat.reduceMod]
       decide)
    | with_reducible first
      | refine names_cons ?_ ?_
      | refine only_ite ?_ ?_
      | refine only_ite_snd ?_ ?_
      | refine only_ite_fst ?_ ?_
    | split
    | (with_reducible refine only_mbox (z := [.mbox]) ?_ ?_ ?_
       · refine names_trans hL ?_
         first | decide | (refine names_of_subset ?_; simp; done)
       iterate 1 · first | with_reducible rfl | (intro _; with_reducible rfl) | exact fun h => not_free h rfl | (intro _; dsimp only; split <;> rfl) | exact rfl | exact fun _ => rfl)
    | dsimp only

theorem sendTyp_only {s : State} {typ : Byte} {dest : Dest} {payload : List Byte} (hL : names L [.mbox] = true) 
    (ho : s0.onlyChanges s L) : s0.onlyChanges (State.sendTyp s typ dest payload) L := by
  unfold State.sendTyp
  try dsimp only
  repeat' first
    | with_reducible assumption
    | (refine names_trans hL ?_
       try simp only [keyTypes, Nat.reduceMod]
       decide)
    | with_reducible first
      | refine names_cons ?_ ?_
      | refine only_ite ?_ ?_
      | refine only_ite_snd ?_ ?_
      | refine only_ite_fst ?_ ?_
      | refine send_only (hL := ?_) (ho := ?_)
    | split
    | dsimp only

theorem replaceTray_only {s : State} {page inst subject cause : Nat} (hL : names L [.mbox, .staged, .recs, .hdr 0x58] = true) 
    (ho : s0.onlyChanges s L) : s0.onlyChanges (State.replaceTray s page inst subject cause) L := by
  unfold State.replaceTray
  try dsimp only
  repeat' first
    | with_reducible assumption
    | (refine names_trans hL ?_
       try simp only [keyTypes, Nat.reduceMod]
       decide)
    | with_reducible first
      | refine names_cons ?_ ?_
      | refine only_ite ?_ ?_
      | refine only_ite_snd ?_ ?_
      | refine only_ite_fst ?_ ?_
      | refine sendTyp_only (hL := ?_) (ho := ?_)
      | refine log_only (hL := ?_) (ho := ?_)
    | split
    | dsimp only

theorem setCmd_only {s : State} {pkg : Bool} {n : Nat} {c : CmdPage} (hL : names L [.cmds] = true) 
    (ho : s0.onlyChanges s L) : s0.onlyChanges (State.setCmd s pkg n c) L := by
  unfold State.setCmd
  try dsimp only
  repeat' first
    | with_reducible assumption
    | (refine names_trans hL ?_
       try simp only [keyTypes, Nat.reduceMod]
       decide)
    | with_reducible first
      | refine names_cons ?_ ?_
      | refine only_ite ?_ ?_
      | refine only_ite_snd ?_ ?_
      | refine only_ite_fst ?_ ?_
    | split
    | (with_reducible refine only_pages (z := [.cmds]) ?_ ?_ ?_ ?_ ?_ ?_ ?_ ?_ ?_ ?_
       · refine names_trans hL ?_
         first | decide | (refine names_of_subset ?_; simp; done)
       iterate 8 · first | with_reducible rfl | (intro _; with_reducible rfl) | exact fun h => not_free h rfl | (intro _; dsimp only; split <;> rfl) | exact rfl | exact fun _ => rfl)
    | dsimp only

theorem work_only {s : State} (hL : names L [.power, .activity] = true) 
    (ho : s0.onlyChanges s L) : s0.onlyChanges (State.work s) L := by
  unfold State.work
  try dsimp only
  repeat' first
    | with_reducible assumption
    | (refine names_trans hL ?_
       try simp only [keyTypes, Nat.reduceMod]
       decide)
    | with_reducible first
      | refine names_cons ?_ ?_
      | refine only_ite ?_ ?_
      | refine only_ite_snd ?_ ?_
      | refine only_ite_fst ?_ ?_
    | split
    | (with_reducible refine only_bpwr (z := [.power, .activity]) ?_ ?_ ?_ ?_ ?_
       · refine names_trans hL ?_
         first | decide | (refine names_of_subset ?_; simp; done)
       iterate 3 · first | with_reducible rfl | (intro _; with_reducible rfl) | exact fun h => not_free h rfl | (intro _; dsimp only; split <;> rfl) | exact rfl | exact fun _ => rfl)
    | dsimp only

theorem emit_only {s : State} {o : Out} (hL : names L [.out] = true) 
    (ho : s0.onlyChanges s L) : s0.onlyChanges (State.emit s o) L := by
  unfold State.emit
  try dsimp only
  repeat' first
    | with_reducible assumption
    | (refine names_trans hL ?_
       try simp only [keyTypes, Nat.reduceMod]
       decide)
    | with_reducible first
      | refine names_cons ?_ ?_
      | refine only_ite ?_ ?_
      | refine only_ite_snd ?_ ?_
      | refine only_ite_fst ?_ ?_
    | split
    | (with_reducible refine only_out (z := [.out]) ?_ ?_ ?_
       · refine names_trans hL ?_
         first | decide | (refine names_of_subset ?_; simp; done)
       iterate 1 · first | with_reducible rfl | (intro _; with_reducible rfl) | exact fun h => not_free h rfl | (intro _; dsimp only; split <;> rfl) | exact rfl | exact fun _ => rfl)
    | dsimp only

theorem answerNow_only {s : State} {q : Req} {code : Resp} {data : Word} (hL : names L [.out, .host, .tap] = true) 
    (ho : s0.onlyChanges s L) : s0.onlyChanges (State.answerNow s q code data) L := by
  unfold State.answerNow
  try dsimp only
  repeat' first
    | with_reducible assumption
    | (refine names_trans hL ?_
       try simp only [keyTypes, Nat.reduceMod]
       decide)
    | with_reducible first
      | refine names_cons ?_ ?_
      | refine only_ite ?_ ?_
      | refine only_ite_snd ?_ ?_
      | refine only_ite_fst ?_ ?_
      | refine emit_only (hL := ?_) (ho := ?_)
    | split
    | (with_reducible refine only_pages (z := [.host]) ?_ ?_ ?_ ?_ ?_ ?_ ?_ ?_ ?_ ?_
       · refine names_trans hL ?_
         first | decide | (refine names_of_subset ?_; simp; done)
       iterate 8 · first | with_reducible rfl | (intro _; with_reducible rfl) | exact fun h => not_free h rfl | (intro _; dsimp only; split <;> rfl) | exact rfl | exact fun _ => rfl)
    | (with_reducible refine only_tap (z := [.tap]) ?_ ?_ ?_
       · refine names_trans hL ?_
         first | decide | (refine names_of_subset ?_; simp; done)
       iterate 1 · first | with_reducible rfl | (intro _; with_reducible rfl) | exact fun h => not_free h rfl | (intro _; dsimp only; split <;> rfl) | exact rfl | exact fun _ => rfl)
    | (with_reducible refine only_mk (z := [.out, .host, .tap]) hL ?_ ?_
       · intro p hp
         cases p <;> first | (dsimp only [Part.same]; done) | (dsimp only [Part.same, State.reg, State.hdr]; intro _ _; with_reducible rfl) | exact not_free (free_of_outside hp) (by decide) | exact not_free (free_of_outside hp) rfl | exact trivial | (dsimp only [Part.same]; split <;> rfl))
    | dsimp only

theorem respond_only {s : State} {q : Req} {code : Resp} {data : Word} (hL : names L [.out, .host, .tap] = true)
    (ho : s0.onlyChanges s L) : s0.onlyChanges (s.respond q code data) L := by
  have e : ∃ o h t, s.respond q code data = { s with out := o, tap := t, pages := { s.pages with host := h } } := by
    unfold State.respond State.answerNow
    split_ifs <;> exact ⟨_, _, _, rfl⟩
  obtain ⟨o, h, t, e⟩ := e
  rw [e]
  with_reducible refine only_mk (z := [.out, .host, .tap]) hL ?_ ho
  intro p hp
  cases p <;> first | exact rfl | exact trivial | exact fun _ _ => rfl | exact absurd hp (by decide)

theorem busyNow_only {s : State} (hL : names L [.power, .activity] = true) 
    (ho : s0.onlyChanges s L) : s0.onlyChanges (State.busyNow s) L := by
  unfold State.busyNow
  try dsimp only
  repeat' first
    | with_reducible assumption
    | (refine names_trans hL ?_
       try simp only [keyTypes, Nat.reduceMod]
       decide)
    | with_reducible first
      | refine names_cons ?_ ?_
      | refine only_ite ?_ ?_
      | refine only_ite_snd ?_ ?_
      | refine only_ite_fst ?_ ?_
      | refine work_only (hL := ?_) (ho := ?_)
    | split
    | (with_reducible refine only_bpwr (z := [.power, .activity]) ?_ ?_ ?_ ?_ ?_
       · refine names_trans hL ?_
         first | decide | (refine names_of_subset ?_; simp; done)
       iterate 3 · first | with_reducible rfl | (intro _; with_reducible rfl) | exact fun h => not_free h rfl | (intro _; dsimp only; split <;> rfl) | exact rfl | exact fun _ => rfl)
    | dsimp only

theorem setRegFld_only {s : State} {page off lo len v : Nat} (hL : names L [.word (keyType page) off] = true) 
    (ho : s0.onlyChanges s L) : s0.onlyChanges (State.setRegFld s page off lo len v) L := by
  unfold State.setRegFld
  try dsimp only
  repeat' first
    | with_reducible assumption
    | (refine names_trans hL ?_
       try simp only [keyTypes, Nat.reduceMod]
       refine names_of_subset ?_
       simp
       done)
    | with_reducible first
      | refine names_cons ?_ ?_
      | refine only_ite ?_ ?_
      | refine only_ite_snd ?_ ?_
      | refine only_ite_fst ?_ ?_
      | refine setReg_only (hL := ?_) (h := ?_)
    | split
    | dsimp only

theorem issueXfer_only {s : State} {id : Nat} (hL : names L [.xfers, .out] = true)
    (ho : s0.onlyChanges s L) : s0.onlyChanges (s.issueXfer id) L := by
  obtain ⟨x, t, o, e⟩ := issueXfer_eq s id
  rw [e]
  with_reducible refine only_mk (z := [.xfers, .out]) hL ?_ ho
  intro p hp
  cases p <;> first | exact rfl | exact trivial | exact fun _ _ => rfl | exact absurd hp (by decide)

theorem startXferOf_only {s : State} {region : Option Nat} {owner : XferOwner} {wr : Bool} {addr len : Nat} {data : List Byte} (hL : names L [.out, .xfers] = true) 
    (ho : s0.onlyChanges s L) : s0.onlyChanges (State.startXferOf s region owner wr addr len data) L := by
  unfold State.startXferOf
  try dsimp only
  repeat' first
    | with_reducible assumption
    | (refine names_trans hL ?_
       try simp only [keyTypes, Nat.reduceMod]
       decide)
    | with_reducible first
      | refine names_cons ?_ ?_
      | refine only_ite ?_ ?_
      | refine only_ite_snd ?_ ?_
      | refine only_ite_fst ?_ ?_
      | refine issueXfer_only (hL := ?_) (ho := ?_)
    | split
    | (with_reducible refine only_pages (z := [.xfers]) ?_ ?_ ?_ ?_ ?_ ?_ ?_ ?_ ?_ ?_
       · refine names_trans hL ?_
         first | decide | (refine names_of_subset ?_; simp; done)
       iterate 8 · first | with_reducible rfl | (intro _; with_reducible rfl) | exact fun h => not_free h rfl | (intro _; dsimp only; split <;> rfl) | exact rfl | exact fun _ => rfl)
    | dsimp only

theorem startXfer_only {s : State} {owner : XferOwner} {wr : Bool} {addr len : Nat} {data : List Byte} (hL : names L [.out, .xfers] = true) 
    (ho : s0.onlyChanges s L) : s0.onlyChanges (State.startXfer s owner wr addr len data) L := by
  unfold State.startXfer
  try dsimp only
  repeat' first
    | with_reducible assumption
    | (refine names_trans hL ?_
       try simp only [keyTypes, Nat.reduceMod]
       decide)
    | with_reducible first
      | refine names_cons ?_ ?_
      | refine only_ite ?_ ?_
      | refine only_ite_snd ?_ ?_
      | refine only_ite_fst ?_ ?_
      | refine startXferOf_only (hL := ?_) (ho := ?_)
    | split
    | dsimp only

theorem messageWrite_only {s : State} {n : Nat} (hL : names L [.out, .xfers] = true) 
    (ho : s0.onlyChanges s L) : s0.onlyChanges (State.messageWrite s n) L := by
  unfold State.messageWrite
  try dsimp only
  repeat' first
    | with_reducible assumption
    | (refine names_trans hL ?_
       try simp only [keyTypes, Nat.reduceMod]
       decide)
    | with_reducible first
      | refine names_cons ?_ ?_
      | refine only_ite ?_ ?_
      | refine only_ite_snd ?_ ?_
      | refine only_ite_fst ?_ ?_
      | refine startXfer_only (hL := ?_) (ho := ?_)
    | split
    | dsimp only

theorem bumpFld_only {s : State} {page off lo len n : Nat} (hL : names L [.word (keyType page) off] = true) 
    (ho : s0.onlyChanges s L) : s0.onlyChanges (State.bumpFld s page off lo len n) L := by
  unfold State.bumpFld
  try dsimp only
  repeat' first
    | with_reducible assumption
    | (refine names_trans hL ?_
       try simp only [keyTypes, Nat.reduceMod]
       refine names_of_subset ?_
       simp
       done)
    | with_reducible first
      | refine names_cons ?_ ?_
      | refine only_ite ?_ ?_
      | refine only_ite_snd ?_ ?_
      | refine only_ite_fst ?_ ?_
      | refine setRegFld_only (hL := ?_) (ho := ?_)
    | split
    | dsimp only

theorem injTake_only {s : State} {page kind : Nat} (hL : names L [.hdr (keyType page), .inj] = true) 
    (ho : s0.onlyChanges s L) : s0.onlyChanges (State.injTake s page kind).2 L := by
  unfold State.injTake
  try dsimp only
  repeat' first
    | with_reducible assumption
    | (refine names_trans hL ?_
       try simp only [keyTypes, Nat.reduceMod]
       refine names_of_subset ?_
       simp
       done)
    | with_reducible first
      | refine names_cons ?_ ?_
      | refine only_ite ?_ ?_
      | refine only_ite_snd ?_ ?_
      | refine only_ite_fst ?_ ?_
      | refine setErr_only (hL := ?_) (ho := ?_)
      | refine modHdr_only (hL := ?_) (h := ?_)
    | split
    | (with_reducible refine only_fum (z := [.inj]) ?_ ?_ ?_ ?_ ?_ ?_ ?_ ?_ ?_ ?_
       · refine names_trans hL ?_
         first | decide | (refine names_of_subset ?_; simp; done)
       iterate 8 · first | with_reducible rfl | (intro _; with_reducible rfl) | exact fun h => not_free h rfl | (intro _; dsimp only; split <;> rfl) | exact rfl | exact fun _ => rfl)
    | dsimp only

theorem loseBits_only {s : State} {l : List Nat} (hL : names L [.hdr 0x50, .word 0x50 0x5C] = true) 
    (ho : s0.onlyChanges s L) : s0.onlyChanges (State.loseBits s l) L := by
  unfold State.loseBits
  try dsimp only
  repeat' first
    | with_reducible assumption
    | (refine names_trans hL ?_
       try simp only [keyTypes, Nat.reduceMod]
       decide)
    | with_reducible first
      | refine names_cons ?_ ?_
      | refine only_ite ?_ ?_
      | refine only_ite_snd ?_ ?_
      | refine only_ite_fst ?_ ?_
      | refine setErr_only (hL := ?_) (ho := ?_)
      | refine setReg_only (hL := ?_) (h := ?_)
    | split
    | dsimp only

theorem applySync_only {s : State} {lo : Nat} (hL : names L [.pace] = true) 
    (ho : s0.onlyChanges s L) : s0.onlyChanges (State.applySync s lo) L := by
  unfold State.applySync
  try dsimp only
  repeat' first
    | with_reducible assumption
    | (refine names_trans hL ?_
       try simp only [keyTypes, Nat.reduceMod]
       decide)
    | with_reducible first
      | refine names_cons ?_ ?_
      | refine only_ite ?_ ?_
      | refine only_ite_snd ?_ ?_
      | refine only_ite_fst ?_ ?_
    | split
    | (with_reducible refine only_pace (z := [.pace]) ?_ ?_ ?_
       · refine names_trans hL ?_
         first | decide | (refine names_of_subset ?_; simp; done)
       iterate 1 · first | with_reducible rfl | (intro _; with_reducible rfl) | exact fun h => not_free h rfl | (intro _; dsimp only; split <;> rfl) | exact rfl | exact fun _ => rfl)
    | dsimp only

theorem bump_only {s : State} {page off n : Nat} (hL : names L [.word (keyType page) off] = true) 
    (ho : s0.onlyChanges s L) : s0.onlyChanges (State.bump s page off n) L := by
  unfold State.bump
  try dsimp only
  repeat' first
    | with_reducible assumption
    | (refine names_trans hL ?_
       try simp only [keyTypes, Nat.reduceMod]
       refine names_of_subset ?_
       simp
       done)
    | with_reducible first
      | refine names_cons ?_ ?_
      | refine only_ite ?_ ?_
      | refine only_ite_snd ?_ ?_
      | refine only_ite_fst ?_ ?_
      | refine bumpFld_only (hL := ?_) (ho := ?_)
    | split
    | dsimp only

theorem touchItem_only {s : State} {item : Nat} (hL : names L [.gens] = true) 
    (ho : s0.onlyChanges s L) : s0.onlyChanges (State.touchItem s item) L := by
  unfold State.touchItem
  try dsimp only
  repeat' first
    | with_reducible assumption
    | (refine names_trans hL ?_
       try simp only [keyTypes, Nat.reduceMod]
       decide)
    | with_reducible first
      | refine names_cons ?_ ?_
      | refine only_ite ?_ ?_
      | refine only_ite_snd ?_ ?_
      | refine only_ite_fst ?_ ?_
    | split
    | (with_reducible refine only_fum (z := [.gens]) ?_ ?_ ?_ ?_ ?_ ?_ ?_ ?_ ?_ ?_
       · refine names_trans hL ?_
         first | decide | (refine names_of_subset ?_; simp; done)
       iterate 8 · first | with_reducible rfl | (intro _; with_reducible rfl) | exact fun h => not_free h rfl | (intro _; dsimp only; split <;> rfl) | exact rfl | exact fun _ => rfl)
    | dsimp only

theorem putMeas_only {s : State} {item : Nat} {e : MeasEntry} (hL : names L [.meas] = true) 
    (ho : s0.onlyChanges s L) : s0.onlyChanges (State.putMeas s item e) L := by
  unfold State.putMeas
  try dsimp only
  repeat' first
    | with_reducible assumption
    | (refine names_trans hL ?_
       try simp only [keyTypes, Nat.reduceMod]
       decide)
    | with_reducible first
      | refine names_cons ?_ ?_
      | refine only_ite ?_ ?_
      | refine only_ite_snd ?_ ?_
      | refine only_ite_fst ?_ ?_
    | split
    | (with_reducible refine only_rot (z := [.meas]) ?_ ?_ ?_ ?_ ?_ ?_ ?_ ?_ ?_ ?_
       · refine names_trans hL ?_
         first | decide | (refine names_of_subset ?_; simp; done)
       iterate 8 · first | with_reducible rfl | (intro _; with_reducible rfl) | exact fun h => not_free h rfl | (intro _; dsimp only; split <;> rfl) | exact rfl | exact fun _ => rfl)
    | dsimp only

theorem setMeas_only {s : State} {item : Nat} {e : MeasEntry} (hL : names L [.meas] = true) 
    (ho : s0.onlyChanges s L) : s0.onlyChanges (State.setMeas s item e) L := by
  unfold State.setMeas
  try dsimp only
  repeat' first
    | with_reducible assumption
    | (refine names_trans hL ?_
       try simp only [keyTypes, Nat.reduceMod]
       decide)
    | with_reducible first
      | refine names_cons ?_ ?_
      | refine only_ite ?_ ?_
      | refine only_ite_snd ?_ ?_
      | refine only_ite_fst ?_ ?_
      | refine putMeas_only (hL := ?_) (ho := ?_)
    | split
    | (with_reducible refine only_rot (z := [.meas]) ?_ ?_ ?_ ?_ ?_ ?_ ?_ ?_ ?_ ?_
       · refine names_trans hL ?_
         first | decide | (refine names_of_subset ?_; simp; done)
       iterate 8 · first | with_reducible rfl | (intro _; with_reducible rfl) | exact fun h => not_free h rfl | (intro _; dsimp only; split <;> rfl) | exact rfl | exact fun _ => rfl)
    | dsimp only

theorem measure_only {s : State} {item : Nat} {digest : List Byte} {page : Option (Bool × Nat)} (hL : names L [.gens, .meas] = true) 
    (ho : s0.onlyChanges s L) : s0.onlyChanges (State.measure s item digest page) L := by
  unfold State.measure
  try dsimp only
  repeat' first
    | with_reducible assumption
    | (refine names_trans hL ?_
       try simp only [keyTypes, Nat.reduceMod]
       decide)
    | with_reducible first
      | refine names_cons ?_ ?_
      | refine only_ite ?_ ?_
      | refine only_ite_snd ?_ ?_
      | refine only_ite_fst ?_ ?_
      | refine touchItem_only (hL := ?_) (ho := ?_)
      | refine setMeas_only (hL := ?_) (ho := ?_)
    | split
    | (with_reducible refine only_rot (z := [.meas]) ?_ ?_ ?_ ?_ ?_ ?_ ?_ ?_ ?_ ?_
       · refine names_trans hL ?_
         first | decide | (refine names_of_subset ?_; simp; done)
       iterate 8 · first | with_reducible rfl | (intro _; with_reducible rfl) | exact fun h => not_free h rfl | (intro _; dsimp only; split <;> rfl) | exact rfl | exact fun _ => rfl)
    | dsimp only

theorem setStat_only {s : State} {page b : Nat} {v : Bool} (hL : names L [.hdr (keyType page)] = true) 
    (ho : s0.onlyChanges s L) : s0.onlyChanges (State.setStat s page b v) L := by
  unfold State.setStat
  try dsimp only
  repeat' first
    | with_reducible assumption
    | (refine names_trans hL ?_
       try simp only [keyTypes, Nat.reduceMod]
       refine names_of_subset ?_
       simp
       done)
    | with_reducible first
      | refine names_cons ?_ ?_
      | refine only_ite ?_ ?_
      | refine only_ite_snd ?_ ?_
      | refine only_ite_fst ?_ ?_
      | refine modHdr_only (hL := ?_) (h := ?_)
    | split
    | dsimp only

theorem measSwap_only {s : State} {a b : Nat} (hL : names L [.gens, .meas] = true) 
    (ho : s0.onlyChanges s L) : s0.onlyChanges (State.measSwap s a b) L := by
  unfold State.measSwap
  try dsimp only
  repeat' first
    | with_reducible assumption
    | (refine names_trans hL ?_
       try simp only [keyTypes, Nat.reduceMod]
       decide)
    | with_reducible first
      | refine names_cons ?_ ?_
      | refine only_ite ?_ ?_
      | refine only_ite_snd ?_ ?_
      | refine only_ite_fst ?_ ?_
      | refine touchItem_only (hL := ?_) (ho := ?_)
      | refine putMeas_only (hL := ?_) (ho := ?_)
    | split
    | (with_reducible refine only_rot (z := [.meas]) ?_ ?_ ?_ ?_ ?_ ?_ ?_ ?_ ?_ ?_
       · refine names_trans hL ?_
         first | decide | (refine names_of_subset ?_; simp; done)
       iterate 8 · first | with_reducible rfl | (intro _; with_reducible rfl) | exact fun h => not_free h rfl | (intro _; dsimp only; split <;> rfl) | exact rfl | exact fun _ => rfl)
    | dsimp only

theorem touchWindow_only {s : State} {w : Nat} (hL : names L [.gens, .mirror] = true) 
    (ho : s0.onlyChanges s L) : s0.onlyChanges (State.touchWindow s w) L := by
  unfold State.touchWindow
  try dsimp only
  repeat' first
    | with_reducible assumption
    | (refine names_trans hL ?_
       try simp only [keyTypes, Nat.reduceMod]
       decide)
    | with_reducible first
      | refine names_cons ?_ ?_
      | refine only_ite ?_ ?_
      | refine only_ite_snd ?_ ?_
      | refine only_ite_fst ?_ ?_
      | refine touchItem_only (hL := ?_) (ho := ?_)
    | split
    | (with_reducible refine only_fum (z := [.gens, .mirror]) ?_ ?_ ?_ ?_ ?_ ?_ ?_ ?_ ?_ ?_
       · refine names_trans hL ?_
         first | decide | (refine names_of_subset ?_; simp; done)
       iterate 8 · first | with_reducible rfl | (intro _; with_reducible rfl) | exact fun h => not_free h rfl | (intro _; dsimp only; split <;> rfl) | exact rfl | exact fun _ => rfl)
    | dsimp only

theorem gridFrom_only {s : State} {t : FT} (hL : names L [.grid] = true) 
    (ho : s0.onlyChanges s L) : s0.onlyChanges (State.gridFrom s t) L := by
  unfold State.gridFrom
  try dsimp only
  repeat' first
    | with_reducible assumption
    | (refine names_trans hL ?_
       try simp only [keyTypes, Nat.reduceMod]
       decide)
    | with_reducible first
      | refine names_cons ?_ ?_
      | refine only_ite ?_ ?_
      | refine only_ite_snd ?_ ?_
      | refine only_ite_fst ?_ ?_
    | split
    | (with_reducible refine only_samp (z := [.grid]) ?_ ?_ ?_ ?_ ?_ ?_ ?_ ?_ ?_
       · refine names_trans hL ?_
         first | decide | (refine names_of_subset ?_; simp; done)
       iterate 7 · first | with_reducible rfl | (intro _; with_reducible rfl) | exact fun h => not_free h rfl | (intro _; dsimp only; split <;> rfl) | exact rfl | exact fun _ => rfl)
    | dsimp only

theorem orderFlush_only {q : Req} {s : State} {held l : List Ordered} (hL : names L [.out, .host, .tap] = true)
    (ho : s0.onlyChanges s L) : s0.onlyChanges (State.orderFlush q s held l) L := by
  have e : ∀ (l held : List Ordered) (s : State), ∃ o h t, State.orderFlush q s held l =
      { s with out := o, tap := t, pages := { s.pages with host := h } } := by
    intro l
    induction l with
    | nil => intro held s; exact ⟨_, _, _, rfl⟩
    | cons e l ih =>
      intro held s
      unfold State.orderFlush
      split
      · next r d _ =>
        split
        · obtain ⟨o, h, t, k⟩ := ih held (s.answerNow e.req r d)
          rw [k]
          unfold State.answerNow
          split_ifs <;> exact ⟨_, _, _, rfl⟩
        · exact ih _ s
      · exact ih _ s
  obtain ⟨o, h, t, e⟩ := e l held s
  rw [e]
  with_reducible refine only_mk (z := [.out, .host, .tap]) hL ?_ ho
  intro p hp
  cases p <;> first | exact rfl | exact trivial | exact fun _ _ => rfl | exact absurd hp (by decide)

theorem orderAnswer_only {s : State} {num : Nat} {q : Req} {code : Resp} {data : Word} (hL : names L [.out, .host, .tap] = true)
    (ho : s0.onlyChanges s L) : s0.onlyChanges (s.orderAnswer num q code data) L := by
  unfold State.orderAnswer
  exact orderFlush_only hL ho

theorem decided_only {s : State} {kind : Nat} {inputs : List Byte} {result : Nat} (hL : names L [.verify] = true) 
    (ho : s0.onlyChanges s L) : s0.onlyChanges (State.decided s kind inputs result) L := by
  unfold State.decided
  try dsimp only
  repeat' first
    | with_reducible assumption
    | (refine names_trans hL ?_
       try simp only [keyTypes, Nat.reduceMod]
       decide)
    | with_reducible first
      | refine names_cons ?_ ?_
      | refine only_ite ?_ ?_
      | refine only_ite_snd ?_ ?_
      | refine only_ite_fst ?_ ?_
    | split
    | (with_reducible refine modRot_only (z := [.verify]) ?_ ?_ ?_ ?_ ?_ ?_ ?_ ?_ ?_ ?_
       · refine names_trans hL ?_
         first | decide | (refine names_of_subset ?_; simp; done)
       iterate 8 · first | with_reducible rfl | (intro _; with_reducible rfl) | exact fun h => not_free h rfl | (intro _; dsimp only; split <;> rfl) | exact rfl | exact fun _ => rfl)
    | dsimp only

theorem faultMsg_only {s : State} {page code : Nat} {content : List Byte} (hL : names L [.mbox] = true) 
    (ho : s0.onlyChanges s L) : s0.onlyChanges (State.faultMsg s page code content) L := by
  unfold State.faultMsg
  try dsimp only
  repeat' first
    | with_reducible assumption
    | (refine names_trans hL ?_
       try simp only [keyTypes, Nat.reduceMod]
       decide)
    | with_reducible first
      | refine names_cons ?_ ?_
      | refine only_ite ?_ ?_
      | refine only_ite_snd ?_ ?_
      | refine only_ite_fst ?_ ?_
      | refine sendTyp_only (hL := ?_) (ho := ?_)
    | split
    | dsimp only

theorem setRegWide_only {s : State} {page off : Nat} {n v : Nat} (hL : names L [.regs (keyType page)] = true) 
    (ho : s0.onlyChanges s L) : s0.onlyChanges (State.setRegWide s page off n v) L := by
  unfold State.setRegWide
  try dsimp only
  repeat' first
    | with_reducible assumption
    | (refine names_trans hL ?_
       try simp only [keyTypes, Nat.reduceMod]
       refine names_of_subset ?_
       simp
       done)
    | (refine names_trans hL ?_
       try simp only [keyTypes, Nat.reduceMod]
       refine names_trans (names_of_subset ?_) names_regs_word
       simp
       done)
    | with_reducible first
      | refine names_cons ?_ ?_
      | refine only_ite ?_ ?_
      | refine only_ite_snd ?_ ?_
      | refine only_ite_fst ?_ ?_
      | refine setReg_only (hL := ?_) (h := ?_)
      | refine only_foldl (fun u x hu => ?_) ?_
      | refine only_foldl_snd (fun u x hu => ?_) ?_
      | refine only_foldl_fst (fun u x hu => ?_) ?_
    | split
    | dsimp only

theorem draw_only {s : State} {w : Nat} (hL : names L [.free] = true) 
    (ho : s0.onlyChanges s L) : s0.onlyChanges (State.draw s w).2 L := by
  unfold State.draw
  try dsimp only
  repeat' first
    | with_reducible assumption
    | (refine names_trans hL ?_
       try simp only [keyTypes, Nat.reduceMod]
       decide)
    | with_reducible first
      | refine names_cons ?_ ?_
      | refine only_ite ?_ ?_
      | refine only_ite_snd ?_ ?_
      | refine only_ite_fst ?_ ?_
    | split
    | (with_reducible refine only_free (z := [.free]) ?_ ?_ ?_
       · refine names_trans hL ?_
         first | decide | (refine names_of_subset ?_; simp; done)
       iterate 1 · first | with_reducible rfl | (intro _; with_reducible rfl) | exact fun h => not_free h rfl | (intro _; dsimp only; split <;> rfl) | exact rfl | exact fun _ => rfl)
    | dsimp only

theorem rotOrder_only {s : State} {cause : Nat} (hL : names L [.mbox, .staged, .recs, .hdr 0x58, .rotOrders] = true) 
    (ho : s0.onlyChanges s L) : s0.onlyChanges (State.rotOrder s cause) L := by
  unfold State.rotOrder
  try dsimp only
  repeat' first
    | with_reducible assumption
    | (refine names_trans hL ?_
       try simp only [keyTypes, Nat.reduceMod]
       decide)
    | with_reducible first
      | refine names_cons ?_ ?_
      | refine only_ite ?_ ?_
      | refine only_ite_snd ?_ ?_
      | refine only_ite_fst ?_ ?_
      | refine faultMsg_only (hL := ?_) (ho := ?_)
      | refine log_only (hL := ?_) (ho := ?_)
    | split
    | (with_reducible refine modRot_only (z := [.rotOrders]) ?_ ?_ ?_ ?_ ?_ ?_ ?_ ?_ ?_ ?_
       · refine names_trans hL ?_
         first | decide | (refine names_of_subset ?_; simp; done)
       iterate 8 · first | with_reducible rfl | (intro _; with_reducible rfl) | exact fun h => not_free h rfl | (intro _; dsimp only; split <;> rfl) | exact rfl | exact fun _ => rfl)
    | dsimp only

theorem guardDiscard_only {s : State} {page off : Nat} {rid : Byte} {reason : Nat} (hL : names L [.staged, .recs, .hdr 0x58, .hdr (keyType page)] = true) 
    (ho : s0.onlyChanges s L) : s0.onlyChanges (State.guardDiscard s page off rid reason) L := by
  unfold State.guardDiscard
  try dsimp only
  repeat' first
    | with_reducible assumption
    | (refine names_trans hL ?_
       try simp only [keyTypes, Nat.reduceMod]
       refine names_of_subset ?_
       simp
       done)
    | with_reducible first
      | refine names_cons ?_ ?_
      | refine only_ite ?_ ?_
      | refine only_ite_snd ?_ ?_
      | refine only_ite_fst ?_ ?_
      | refine log_only (hL := ?_) (ho := ?_)
      | refine setErr_only (hL := ?_) (ho := ?_)
    | split
    | dsimp only

theorem advanceTo_only {s : State} {t : FT} (hL : names L [.now] = true) 
    (ho : s0.onlyChanges s L) : s0.onlyChanges (State.advanceTo s t) L := by
  unfold State.advanceTo
  try dsimp only
  repeat' first
    | with_reducible assumption
    | (refine names_trans hL ?_
       try simp only [keyTypes, Nat.reduceMod]
       decide)
    | with_reducible first
      | refine names_cons ?_ ?_
      | refine only_ite ?_ ?_
      | refine only_ite_snd ?_ ?_
      | refine only_ite_fst ?_ ?_
    | split
    | (with_reducible refine only_now (z := [.now]) ?_ ?_ ?_
       · refine names_trans hL ?_
         first | decide | (refine names_of_subset ?_; simp; done)
       iterate 1 · first | with_reducible rfl | (intro _; with_reducible rfl) | exact fun h => not_free h rfl | (intro _; dsimp only; split <;> rfl) | exact rfl | exact fun _ => rfl)
    | dsimp only

/-! Operands -/

theorem waitPage_only {s : State} {pkg : Bool} {n : Nat} {w : Wait} (hL : names L [.cmds] = true) 
    (ho : s0.onlyChanges s L) : s0.onlyChanges (State.waitPage s pkg n w) L := by
  unfold State.waitPage
  try dsimp only
  repeat' first
    | with_reducible assumption
    | (refine names_trans hL ?_
       try simp only [keyTypes, Nat.reduceMod]
       decide)
    | with_reducible first
      | refine names_cons ?_ ?_
      | refine only_ite ?_ ?_
      | refine only_ite_snd ?_ ?_
      | refine only_ite_fst ?_ ?_
      | refine setCmd_only (hL := ?_) (ho := ?_)
    | split
    | dsimp only

theorem complete_only {s : State} {pkg : Bool} {n : Nat} {status : Byte} {detail : Nat} (hL : names L [.cmds] = true) 
    (ho : s0.onlyChanges s L) : s0.onlyChanges (State.complete s pkg n status detail) L := by
  unfold State.complete
  try dsimp only
  repeat' first
    | with_reducible assumption
    | (refine names_trans hL ?_
       try simp only [keyTypes, Nat.reduceMod]
       decide)
    | with_reducible first
      | refine names_cons ?_ ?_
      | refine only_ite ?_ ?_
      | refine only_ite_snd ?_ ?_
      | refine only_ite_fst ?_ ?_
      | refine setCmd_only (hL := ?_) (ho := ?_)
    | split
    | dsimp only

theorem setRes_only {s : State} {pkg : Bool} {n k v : Nat} (hL : names L [.word 0x08 (256 + 4 * k)] = true) 
    (ho : s0.onlyChanges s L) : s0.onlyChanges (State.setRes s pkg n k v) L := by
  unfold State.setRes
  try dsimp only
  repeat' first
    | with_reducible assumption
    | (refine names_trans hL ?_
       try simp only [keyTypes, Nat.reduceMod]
       refine names_of_subset ?_
       simp
       done)
    | with_reducible first
      | refine names_cons ?_ ?_
      | refine only_ite ?_ ?_
      | refine only_ite_snd ?_ ?_
      | refine only_ite_fst ?_ ?_
      | refine setReg_only (hL := ?_) (h := ?_)
    | split
    | dsimp only

theorem refuseEntry_only {s : State} {e : Entry} {reason sub : Nat} (hL : names L [.power, .bpwr, .cmds, .word 0x08 0x104, .word 0x08 0x100] = true) 
    (ho : s0.onlyChanges s L) : s0.onlyChanges (State.refuseEntry s e reason sub) L := by
  unfold State.refuseEntry
  try dsimp only
  repeat' first
    | with_reducible assumption
    | (refine names_trans hL ?_
       try simp only [keyTypes, Nat.reduceMod]
       decide)
    | with_reducible first
      | refine names_cons ?_ ?_
      | refine only_ite ?_ ?_
      | refine only_ite_snd ?_ ?_
      | refine only_ite_fst ?_ ?_
      | refine complete_only (hL := ?_) (ho := ?_)
      | refine setRes_only (hL := ?_) (ho := ?_)
    | split
    | (with_reducible refine only_bpwr (z := [.power, .bpwr]) ?_ ?_ ?_ ?_ ?_
       · refine names_trans hL ?_
         first | decide | (refine names_of_subset ?_; simp; done)
       iterate 3 · first | with_reducible rfl | (intro _; with_reducible rfl) | exact fun h => not_free h rfl | (intro _; dsimp only; split <;> rfl) | exact rfl | exact fun _ => rfl)
    | dsimp only

theorem leave_only {s : State} {src cause wick : Nat} (hL : names L [.power, .word 0x50 0x54] = true) 
    (ho : s0.onlyChanges s L) : s0.onlyChanges (State.leave s src cause wick) L := by
  unfold State.leave
  try dsimp only
  repeat' first
    | with_reducible assumption
    | (refine names_trans hL ?_
       try simp only [keyTypes, Nat.reduceMod]
       decide)
    | with_reducible first
      | refine names_cons ?_ ?_
      | refine only_ite ?_ ?_
      | refine only_ite_snd ?_ ?_
      | refine only_ite_fst ?_ ?_
      | refine setReg_only (hL := ?_) (h := ?_)
    | split
    | (with_reducible refine only_bpwr (z := [.power]) ?_ ?_ ?_ ?_ ?_
       · refine names_trans hL ?_
         first | decide | (refine names_of_subset ?_; simp; done)
       iterate 3 · first | with_reducible rfl | (intro _; with_reducible rfl) | exact fun h => not_free h rfl | (intro _; dsimp only; split <;> rfl) | exact rfl | exact fun _ => rfl)
    | dsimp only

theorem wakeSrc_only {s : State} {cause : Nat} {wick : Nat} (hL : names L [.power, .bpwr, .cmds, .word 0x08 0x104, .word 0x08 0x100, .word 0x50 0x54, .activity] = true) 
    (ho : s0.onlyChanges s L) : s0.onlyChanges (State.wakeSrc s cause wick) L := by
  unfold State.wakeSrc
  try dsimp only
  repeat' first
    | with_reducible assumption
    | (refine names_trans hL ?_
       try simp only [keyTypes, Nat.reduceMod]
       decide)
    | with_reducible first
      | refine names_cons ?_ ?_
      | refine only_ite ?_ ?_
      | refine only_ite_snd ?_ ?_
      | refine only_ite_fst ?_ ?_
      | refine refuseEntry_only (hL := ?_) (ho := ?_)
      | refine leave_only (hL := ?_) (ho := ?_)
      | refine work_only (hL := ?_) (ho := ?_)
    | split
    | dsimp only

theorem dozeRetry_only {s : State} {q : Req} (hL : names L [.power, .bpwr, .cmds, .word 0x08 0x104, .word 0x08 0x100, .word 0x50 0x54, .activity, .host, .out, .tap] = true) 
    (ho : s0.onlyChanges s L) : s0.onlyChanges (State.dozeRetry s q) L := by
  unfold State.dozeRetry
  try dsimp only
  repeat' first
    | with_reducible assumption
    | (refine names_trans hL ?_
       try simp only [keyTypes, Nat.reduceMod]
       decide)
    | with_reducible first
      | refine names_cons ?_ ?_
      | refine only_ite ?_ ?_
      | refine only_ite_snd ?_ ?_
      | refine only_ite_fst ?_ ?_
      | refine wakeSrc_only (hL := ?_) (ho := ?_)
      | refine respond_only (hL := ?_) (ho := ?_)
    | split
    | dsimp only

theorem causesFall_only {s : State} (hL : names L [.lines] = true) 
    (ho : s0.onlyChanges s L) : s0.onlyChanges (State.causesFall s) L := by
  unfold State.causesFall
  try dsimp only
  repeat' first
    | with_reducible assumption
    | (refine names_trans hL ?_
       try simp only [keyTypes, Nat.reduceMod]
       decide)
    | with_reducible first
      | refine names_cons ?_ ?_
      | refine only_ite ?_ ?_
      | refine only_ite_snd ?_ ?_
      | refine only_ite_fst ?_ ?_
    | split
    | (with_reducible refine only_pages (z := [.lines]) ?_ ?_ ?_ ?_ ?_ ?_ ?_ ?_ ?_ ?_
       · refine names_trans hL ?_
         first | decide | (refine names_of_subset ?_; simp; done)
       iterate 8 · first | with_reducible rfl | (intro _; with_reducible rfl) | exact fun h => not_free h rfl | (intro _; dsimp only; split <;> rfl) | exact rfl | exact fun _ => rfl)
    | dsimp only

theorem clearRes_only {s : State} {pkg : Bool} {n : Nat} (hL : names L [.regs 0x08] = true) 
    (ho : s0.onlyChanges s L) : s0.onlyChanges (State.clearRes s pkg n) L := by
  unfold State.clearRes
  try dsimp only
  repeat' first
    | with_reducible assumption
    | (refine names_trans hL ?_
       try simp only [keyTypes, Nat.reduceMod]
       decide)
    | (refine names_trans hL ?_
       try simp only [keyTypes, Nat.reduceMod]
       refine names_trans (names_of_subset ?_) names_regs_word
       simp
       done)
    | with_reducible first
      | refine names_cons ?_ ?_
      | refine only_ite ?_ ?_
      | refine only_ite_snd ?_ ?_
      | refine only_ite_fst ?_ ?_
      | refine setReg_only (hL := ?_) (h := ?_)
      | refine only_foldl (fun u x hu => ?_) ?_
      | refine only_foldl_snd (fun u x hu => ?_) ?_
      | refine only_foldl_fst (fun u x hu => ?_) ?_
    | split
    | dsimp only

theorem accept_only {s : State} {pkg : Bool} {n : Nat} {q : Req} {w : Word} (hL : names L [.host, .out, .tap, .lines, .cmds, .regs 0x08] = true) 
    (ho : s0.onlyChanges s L) : s0.onlyChanges (State.accept s pkg n q w) L := by
  unfold State.accept
  try dsimp only
  repeat' first
    | with_reducible assumption
    | (refine names_trans hL ?_
       try simp only [keyTypes, Nat.reduceMod]
       decide)
    | (refine names_trans hL ?_
       try simp only [keyTypes, Nat.reduceMod]
       refine names_trans (names_of_subset ?_) names_regs_word
       simp
       done)
    | with_reducible first
      | refine names_cons ?_ ?_
      | refine only_ite ?_ ?_
      | refine only_ite_snd ?_ ?_
      | refine only_ite_fst ?_ ?_
      | refine respond_only (hL := ?_) (ho := ?_)
      | refine causesFall_only (hL := ?_) (ho := ?_)
      | refine setCmd_only (hL := ?_) (ho := ?_)
      | refine clearRes_only (hL := ?_) (ho := ?_)
      | refine only_foldl (fun u x hu => ?_) ?_
      | refine only_foldl_snd (fun u x hu => ?_) ?_
      | refine only_foldl_fst (fun u x hu => ?_) ?_
    | split
    | dsimp only

theorem hostWakes_only {s : State} (hL : names L [.power, .bpwr, .cmds, .word 0x08 0x104, .word 0x08 0x100, .word 0x50 0x54, .activity] = true) 
    (ho : s0.onlyChanges s L) : s0.onlyChanges (State.hostWakes s) L := by
  unfold State.hostWakes
  try dsimp only
  repeat' first
    | with_reducible assumption
    | (refine names_trans hL ?_
       try simp only [keyTypes, Nat.reduceMod]
       decide)
    | with_reducible first
      | refine names_cons ?_ ?_
      | refine only_ite ?_ ?_
      | refine only_ite_snd ?_ ?_
      | refine only_ite_fst ?_ ?_
      | refine wakeSrc_only (hL := ?_) (ho := ?_)
    | split
    | dsimp only

theorem done_only {s : State} {c : CmdIn} {status : Byte} {detail : Nat} (hL : names L [.cmds] = true) 
    (ho : s0.onlyChanges s L) : s0.onlyChanges (State.done s c status detail) L := by
  unfold State.done
  try dsimp only
  repeat' first
    | with_reducible assumption
    | (refine names_trans hL ?_
       try simp only [keyTypes, Nat.reduceMod]
       decide)
    | with_reducible first
      | refine names_cons ?_ ?_
      | refine only_ite ?_ ?_
      | refine only_ite_snd ?_ ?_
      | refine only_ite_fst ?_ ?_
      | refine complete_only (hL := ?_) (ho := ?_)
    | split
    | dsimp only

theorem badArg_only {s : State} {c : CmdIn} (hL : names L [.cmds] = true) 
    (ho : s0.onlyChanges s L) : s0.onlyChanges (State.badArg s c) L := by
  unfold State.badArg
  try dsimp only
  repeat' first
    | with_reducible assumption
    | (refine names_trans hL ?_
       try simp only [keyTypes, Nat.reduceMod]
       decide)
    | with_reducible first
      | refine names_cons ?_ ?_
      | refine only_ite ?_ ?_
      | refine only_ite_snd ?_ ?_
      | refine only_ite_fst ?_ ?_
      | refine done_only (hL := ?_) (ho := ?_)
    | split
    | dsimp only

theorem waitFor_only {s : State} {c : CmdIn} {w : Wait} (hL : names L [.cmds] = true) 
    (ho : s0.onlyChanges s L) : s0.onlyChanges (State.waitFor s c w) L := by
  unfold State.waitFor
  try dsimp only
  repeat' first
    | with_reducible assumption
    | (refine names_trans hL ?_
       try simp only [keyTypes, Nat.reduceMod]
       decide)
    | with_reducible first
      | refine names_cons ?_ ?_
      | refine only_ite ?_ ?_
      | refine only_ite_snd ?_ ?_
      | refine only_ite_fst ?_ ?_
      | refine setCmd_only (hL := ?_) (ho := ?_)
    | split
    | dsimp only

theorem cmdTurnAway_only {s : State} {pkg : Bool} {n : Nat} {q : Req} {r : Resp} (hL : names L [.hdr 0x08, .host, .out, .tap] = true) 
    (ho : s0.onlyChanges s L) : s0.onlyChanges (State.cmdTurnAway s pkg n q r) L := by
  unfold State.cmdTurnAway
  try dsimp only
  repeat' first
    | with_reducible assumption
    | (refine names_trans hL ?_
       try simp only [keyTypes, Nat.reduceMod]
       decide)
    | with_reducible first
      | refine names_cons ?_ ?_
      | refine only_ite ?_ ?_
      | refine only_ite_snd ?_ ?_
      | refine only_ite_fst ?_ ?_
      | refine setErr_only (hL := ?_) (ho := ?_)
      | refine respond_only (hL := ?_) (ho := ?_)
    | split
    | dsimp only

theorem runCmd_only {c : CmdIn} {cls op : Nat} {tag : Tag} {known : Bool} {effect : State → State} {s : State} (hL : names L [.cmds, .power, .bpwr, .word 0x50 0x54, .activity, .host, .out, .tap, .lines, .regs 0x08, .hdr 0x08] = true) (h_effect : ∀ (u : State), s0.onlyChanges u L → s0.onlyChanges (effect u) L)
    (ho : s0.onlyChanges s L) : s0.onlyChanges (runCmd c cls op tag known effect s) L := by
  unfold runCmd
  try dsimp only
  repeat' first
    | with_reducible assumption
    | (refine names_trans hL ?_
       try simp only [keyTypes, Nat.reduceMod]
       decide)
    | (refine names_trans hL ?_
       try simp only [keyTypes, Nat.reduceMod]
       refine names_trans (names_of_subset ?_) names_regs_word
       simp
       done)
    | with_reducible first
      | refine names_cons ?_ ?_
      | refine only_ite ?_ ?_
      | refine only_ite_snd ?_ ?_
      | refine only_ite_fst ?_ ?_
      | refine h_effect _ ?_
      | refine waitPage_only (hL := ?_) (ho := ?_)
      | refine dozeRetry_only (hL := ?_) (ho := ?_)
      | refine accept_only (hL := ?_) (ho := ?_)
      | refine busyNow_only (hL := ?_) (ho := ?_)
      | refine hostWakes_only (hL := ?_) (ho := ?_)
      | refine badArg_only (hL := ?_) (ho := ?_)
      | refine done_only (hL := ?_) (ho := ?_)
      | refine waitFor_only (hL := ?_) (ho := ?_)
      | refine cmdTurnAway_only (hL := ?_) (ho := ?_)
    | split
    | dsimp only

theorem ok_only {s : State} {c : CmdIn} (hL : names L [.cmds] = true) 
    (ho : s0.onlyChanges s L) : s0.onlyChanges (State.ok s c) L := by
  unfold State.ok
  try dsimp only
  repeat' first
    | with_reducible assumption
    | (refine names_trans hL ?_
       try simp only [keyTypes, Nat.reduceMod]
       decide)
    | with_reducible first
      | refine names_cons ?_ ?_
      | refine only_ite ?_ ?_
      | refine only_ite_snd ?_ ?_
      | refine only_ite_fst ?_ ?_
      | refine done_only (hL := ?_) (ho := ?_)
    | split
    | dsimp only

theorem failCmd_only {s : State} {c : CmdIn} {detail : Nat} (hL : names L [.cmds] = true) 
    (ho : s0.onlyChanges s L) : s0.onlyChanges (State.failCmd s c detail) L := by
  unfold State.failCmd
  try dsimp only
  repeat' first
    | with_reducible assumption
    | (refine names_trans hL ?_
       try simp only [keyTypes, Nat.reduceMod]
       decide)
    | with_reducible first
      | refine names_cons ?_ ?_
      | refine only_ite ?_ ?_
      | refine only_ite_snd ?_ ?_
      | refine only_ite_fst ?_ ?_
      | refine done_only (hL := ?_) (ho := ?_)
    | split
    | dsimp only

theorem res_only {s : State} {c : CmdIn} {k v : Nat} (hL : names L [.word 0x08 (256 + 4 * k)] = true) 
    (ho : s0.onlyChanges s L) : s0.onlyChanges (State.res s c k v) L := by
  unfold State.res
  try dsimp only
  repeat' first
    | with_reducible assumption
    | (refine names_trans hL ?_
       try simp only [keyTypes, Nat.reduceMod]
       refine names_of_subset ?_
       simp
       done)
    | with_reducible first
      | refine names_cons ?_ ?_
      | refine only_ite ?_ ?_
      | refine only_ite_snd ?_ ?_
      | refine only_ite_fst ?_ ?_
      | refine setRes_only (hL := ?_) (ho := ?_)
    | split
    | dsimp only

theorem endWait_only {s : State} {pkg : Bool} {n : Nat} {w : Wait} {status : Byte} {detail : Nat} (hL : names L [.cmds] = true) 
    (ho : s0.onlyChanges s L) : s0.onlyChanges (State.endWait s pkg n w status detail) L := by
  unfold State.endWait
  try dsimp only
  repeat' first
    | with_reducible assumption
    | (refine names_trans hL ?_
       try simp only [keyTypes, Nat.reduceMod]
       decide)
    | with_reducible first
      | refine names_cons ?_ ?_
      | refine only_ite ?_ ?_
      | refine only_ite_snd ?_ ?_
      | refine only_ite_fst ?_ ?_
      | refine complete_only (hL := ?_) (ho := ?_)
    | split
    | dsimp only

/-! Fence -/

theorem setProbe_only {s : State} {p : Nat} {x : Probe} (hL : names L [.probes] = true) 
    (ho : s0.onlyChanges s L) : s0.onlyChanges (State.setProbe s p x) L := by
  unfold State.setProbe
  try dsimp only
  repeat' first
    | with_reducible assumption
    | (refine names_trans hL ?_
       try simp only [keyTypes, Nat.reduceMod]
       decide)
    | with_reducible first
      | refine names_cons ?_ ?_
      | refine only_ite ?_ ?_
      | refine only_ite_snd ?_ ?_
      | refine only_ite_fst ?_ ?_
    | split
    | (with_reducible refine only_samp (z := [.probes]) ?_ ?_ ?_ ?_ ?_ ?_ ?_ ?_ ?_
       · refine names_trans hL ?_
         first | decide | (refine names_of_subset ?_; simp; done)
       iterate 7 · first | with_reducible rfl | (intro _; with_reducible rfl) | exact fun h => not_free h rfl | (intro _; dsimp only; split <;> rfl) | exact rfl | exact fun _ => rfl)
    | dsimp only

theorem modProbe_only {s : State} {p : Nat} {f : Probe → Probe} (hL : names L [.probes] = true) 
    (ho : s0.onlyChanges s L) : s0.onlyChanges (State.modProbe s p f) L := by
  unfold State.modProbe
  try dsimp only
  repeat' first
    | with_reducible assumption
    | (refine names_trans hL ?_
       try simp only [keyTypes, Nat.reduceMod]
       decide)
    | with_reducible first
      | refine names_cons ?_ ?_
      | refine only_ite ?_ ?_
      | refine only_ite_snd ?_ ?_
      | refine only_ite_fst ?_ ?_
      | refine setProbe_only (hL := ?_) (ho := ?_)
    | split
    | dsimp only

theorem modCluster_only {s : State} {c : Nat} {f : Cluster → Cluster} (hL : names L [.clusters] = true) 
    (ho : s0.onlyChanges s L) : s0.onlyChanges (State.modCluster s c f) L := by
  unfold State.modCluster
  try dsimp only
  repeat' first
    | with_reducible assumption
    | (refine names_trans hL ?_
       try simp only [keyTypes, Nat.reduceMod]
       decide)
    | with_reducible first
      | refine names_cons ?_ ?_
      | refine only_ite ?_ ?_
      | refine only_ite_snd ?_ ?_
      | refine only_ite_fst ?_ ?_
    | split
    | (with_reducible refine only_samp (z := [.clusters]) ?_ ?_ ?_ ?_ ?_ ?_ ?_ ?_ ?_
       · refine names_trans hL ?_
         first | decide | (refine names_of_subset ?_; simp; done)
       iterate 7 · first | with_reducible rfl | (intro _; with_reducible rfl) | exact fun h => not_free h rfl | (intro _; dsimp only; split <;> rfl) | exact rfl | exact fun _ => rfl)
    | dsimp only

theorem bumpPort_only {s : State} {p off n : Nat} (hL : names L [.regs 0x93, .regs 0x91, .regs 0x38] = true) 
    (ho : s0.onlyChanges s L) : s0.onlyChanges (State.bumpPort s p off n) L := by
  unfold State.bumpPort
  try dsimp only
  repeat' first
    | with_reducible assumption
    | (refine names_trans hL ?_
       try simp only [keyTypes, Nat.reduceMod]
       decide)
    | (refine names_trans hL ?_
       try simp only [keyTypes, Nat.reduceMod]
       refine names_trans (names_of_subset ?_) names_regs_word
       simp
       done)
    | (refine names_trans hL ?_
       refine names_trans (names_of_subset ?_) names_port_word
       simp
       done)
    | with_reducible first
      | refine names_cons ?_ ?_
      | refine only_ite ?_ ?_
      | refine only_ite_snd ?_ ?_
      | refine only_ite_fst ?_ ?_
      | refine bump_only (hL := ?_) (ho := ?_)
    | split
    | dsimp only

theorem modPort_only {s : State} {p : Nat} {f : LinkPort → LinkPort} (hL : names L [.ports] = true) 
    (ho : s0.onlyChanges s L) : s0.onlyChanges (State.modPort s p f) L := by
  unfold State.modPort
  try dsimp only
  repeat' first
    | with_reducible assumption
    | (refine names_trans hL ?_
       try simp only [keyTypes, Nat.reduceMod]
       decide)
    | with_reducible first
      | refine names_cons ?_ ?_
      | refine only_ite ?_ ?_
      | refine only_ite_snd ?_ ?_
      | refine only_ite_fst ?_ ?_
    | split
    | (with_reducible refine only_links (z := [.ports]) ?_ ?_ ?_ ?_ ?_ ?_ ?_
       · refine names_trans hL ?_
         first | decide | (refine names_of_subset ?_; simp; done)
       iterate 5 · first | with_reducible rfl | (intro _; with_reducible rfl) | exact fun h => not_free h rfl | (intro _; dsimp only; split <;> rfl) | exact rfl | exact fun _ => rfl)
    | dsimp only

theorem markSuspect_only {s : State} {u : Nat} (hL : names L [.suspects] = true) 
    (ho : s0.onlyChanges s L) : s0.onlyChanges (State.markSuspect s u) L := by
  unfold State.markSuspect
  try dsimp only
  repeat' first
    | with_reducible assumption
    | (refine names_trans hL ?_
       try simp only [keyTypes, Nat.reduceMod]
       decide)
    | with_reducible first
      | refine names_cons ?_ ?_
      | refine only_ite ?_ ?_
      | refine only_ite_snd ?_ ?_
      | refine only_ite_fst ?_ ?_
    | split
    | (with_reducible refine only_check (z := [.suspects]) ?_ ?_ ?_ ?_ ?_ ?_ ?_ ?_ ?_
       · refine names_trans hL ?_
         first | decide | (refine names_of_subset ?_; simp; done)
       iterate 7 · first | with_reducible rfl | (intro _; with_reducible rfl) | exact fun h => not_free h rfl | (intro _; dsimp only; split <;> rfl) | exact rfl | exact fun _ => rfl)
    | dsimp only

theorem spareAdd_only {s : State} {kind cause index detail : Nat} (hL : names L [.staged, .recs, .hdr 0x58, .hdr 0x12, .gens, .spares] = true) 
    (ho : s0.onlyChanges s L) : s0.onlyChanges (State.spareAdd s kind cause index detail) L := by
  unfold State.spareAdd
  try dsimp only
  repeat' first
    | with_reducible assumption
    | (refine names_trans hL ?_
       try simp only [keyTypes, Nat.reduceMod]
       decide)
    | with_reducible first
      | refine names_cons ?_ ?_
      | refine only_ite ?_ ?_
      | refine only_ite_snd ?_ ?_
      | refine only_ite_fst ?_ ?_
      | refine log_only (hL := ?_) (ho := ?_)
      | refine setErr_only (hL := ?_) (ho := ?_)
      | refine touchItem_only (hL := ?_) (ho := ?_)
    | split
    | (with_reducible refine only_check (z := [.spares]) ?_ ?_ ?_ ?_ ?_ ?_ ?_ ?_ ?_
       · refine names_trans hL ?_
         first | decide | (refine names_of_subset ?_; simp; done)
       iterate 7 · first | with_reducible rfl | (intro _; with_reducible rfl) | exact fun h => not_free h rfl | (intro _; dsimp only; split <;> rfl) | exact rfl | exact fun _ => rfl)
    | dsimp only

theorem raiseGate_only {s : State} {p : Nat} {k : GateKind} (hL : names L [.probes] = true) 
    (ho : s0.onlyChanges s L) : s0.onlyChanges (State.raiseGate s p k) L := by
  unfold State.raiseGate
  try dsimp only
  repeat' first
    | with_reducible assumption
    | (refine names_trans hL ?_
       try simp only [keyTypes, Nat.reduceMod]
       decide)
    | with_reducible first
      | refine names_cons ?_ ?_
      | refine only_ite ?_ ?_
      | refine only_ite_snd ?_ ?_
      | refine only_ite_fst ?_ ?_
      | refine modProbe_only (hL := ?_) (ho := ?_)
      | refine setProbe_only (hL := ?_) (ho := ?_)
    | split
    | dsimp only

theorem fenceUnit_only {s : State} {u cause detail : Nat} (hL : names L [.suspects, .staged, .recs, .hdr 0x58, .hdr 0x28, .hdr 0x12, .gens, .spares, .probes] = true) 
    (ho : s0.onlyChanges s L) : s0.onlyChanges (State.fenceUnit s u cause detail) L := by
  unfold State.fenceUnit
  try dsimp only
  repeat' first
    | with_reducible assumption
    | (refine names_trans hL ?_
       try simp only [keyTypes, Nat.reduceMod]
       decide)
    | with_reducible first
      | refine names_cons ?_ ?_
      | refine only_ite ?_ ?_
      | refine only_ite_snd ?_ ?_
      | refine only_ite_fst ?_ ?_
      | refine markSuspect_only (hL := ?_) (ho := ?_)
      | refine log_only (hL := ?_) (ho := ?_)
      | refine setErr_only (hL := ?_) (ho := ?_)
      | refine spareAdd_only (hL := ?_) (ho := ?_)
      | refine raiseGate_only (hL := ?_) (ho := ?_)
      | refine modProbe_only (hL := ?_) (ho := ?_)
      | refine setProbe_only (hL := ?_) (ho := ?_)
    | split
    | (with_reducible refine only_check (z := [.suspects, .spares]) ?_ ?_ ?_ ?_ ?_ ?_ ?_ ?_ ?_
       · refine names_trans hL ?_
         first | decide | (refine names_of_subset ?_; simp; done)
       iterate 7 · first | with_reducible rfl | (intro _; with_reducible rfl) | exact fun h => not_free h rfl | (intro _; dsimp only; split <;> rfl) | exact rfl | exact fun _ => rfl)
    | dsimp only

theorem quarantine_only {s : State} {port : PortId} {count : Nat} (hL : names L [.staged, .recs, .hdr 0x58, .ports, .suspects, .hdr 0x28, .hdr 0x12, .gens, .spares, .probes] = true) 
    (ho : s0.onlyChanges s L) : s0.onlyChanges (State.quarantine s port count) L := by
  unfold State.quarantine
  try dsimp only
  repeat' first
    | with_reducible assumption
    | (refine names_trans hL ?_
       try simp only [keyTypes, Nat.reduceMod]
       decide)
    | with_reducible first
      | refine names_cons ?_ ?_
      | refine only_ite ?_ ?_
      | refine only_ite_snd ?_ ?_
      | refine only_ite_fst ?_ ?_
      | refine log_only (hL := ?_) (ho := ?_)
      | refine modPort_only (hL := ?_) (ho := ?_)
      | refine fenceUnit_only (hL := ?_) (ho := ?_)
    | split
    | dsimp only

theorem violate_only {s : State} {port : PortId} {cls : Nat} {item : List Byte} {counted : Bool} (hL : names L [.staged, .recs, .hdr 0x58, .regs 0x93, .regs 0x91, .regs 0x38, .violations, .ports, .suspects, .hdr 0x28, .hdr 0x12, .gens, .spares, .probes] = true) 
    (ho : s0.onlyChanges s L) : s0.onlyChanges (State.violate s port cls item counted) L := by
  unfold State.violate
  try dsimp only
  repeat' first
    | with_reducible assumption
    | (refine names_trans hL ?_
       try simp only [keyTypes, Nat.reduceMod]
       decide)
    | (refine names_trans hL ?_
       try simp only [keyTypes, Nat.reduceMod]
       refine names_trans (names_of_subset ?_) names_regs_word
       simp
       done)
    | (refine names_trans hL ?_
       refine names_trans (names_of_subset ?_) names_port_word
       simp
       done)
    | with_reducible first
      | refine names_cons ?_ ?_
      | refine only_ite ?_ ?_
      | refine only_ite_snd ?_ ?_
      | refine only_ite_fst ?_ ?_
      | refine log_only (hL := ?_) (ho := ?_)
      | refine bumpPort_only (hL := ?_) (ho := ?_)
      | refine quarantine_only (hL := ?_) (ho := ?_)
    | split
    | (with_reducible refine only_check (z := [.violations, .suspects, .spares]) ?_ ?_ ?_ ?_ ?_ ?_ ?_ ?_ ?_
       · refine names_trans hL ?_
         first | decide | (refine names_of_subset ?_; simp; done)
       iterate 7 · first | with_reducible rfl | (intro _; with_reducible rfl) | exact fun h => not_free h rfl | (intro _; dsimp only; split <;> rfl) | exact rfl | exact fun _ => rfl)
    | dsimp only

theorem modRegion_only {s : State} {r : Nat} {f : Region → Region} (hL : names L [.regions] = true) 
    (ho : s0.onlyChanges s L) : s0.onlyChanges (State.modRegion s r f) L := by
  unfold State.modRegion
  try dsimp only
  repeat' first
    | with_reducible assumption
    | (refine names_trans hL ?_
       try simp only [keyTypes, Nat.reduceMod]
       decide)
    | with_reducible first
      | refine names_cons ?_ ?_
      | refine only_ite ?_ ?_
      | refine only_ite_snd ?_ ?_
      | refine only_ite_fst ?_ ?_
    | split
    | (with_reducible refine only_samp (z := [.regions]) ?_ ?_ ?_ ?_ ?_ ?_ ?_ ?_ ?_
       · refine names_trans hL ?_
         first | decide | (refine names_of_subset ?_; simp; done)
       iterate 7 · first | with_reducible rfl | (intro _; with_reducible rfl) | exact fun h => not_free h rfl | (intro _; dsimp only; split <;> rfl) | exact rfl | exact fun _ => rfl)
    | dsimp only

theorem ackFalls_only {s : State} {p : Nat} {k : GateKind} (hL : names L [.probes] = true) 
    (ho : s0.onlyChanges s L) : s0.onlyChanges (State.ackFalls s p k) L := by
  unfold State.ackFalls
  try dsimp only
  repeat' first
    | with_reducible assumption
    | (refine names_trans hL ?_
       try simp only [keyTypes, Nat.reduceMod]
       decide)
    | with_reducible first
      | refine names_cons ?_ ?_
      | refine only_ite ?_ ?_
      | refine only_ite_snd ?_ ?_
      | refine only_ite_fst ?_ ?_
      | refine modProbe_only (hL := ?_) (ho := ?_)
      | refine setProbe_only (hL := ?_) (ho := ?_)
    | split
    | dsimp only

theorem lowerGate_only {s : State} {p : Nat} {k : GateKind} (hL : names L [.probes] = true) 
    (ho : s0.onlyChanges s L) : s0.onlyChanges (State.lowerGate s p k) L := by
  unfold State.lowerGate
  try dsimp only
  repeat' first
    | with_reducible assumption
    | (refine names_trans hL ?_
       try simp only [keyTypes, Nat.reduceMod]
       decide)
    | with_reducible first
      | refine names_cons ?_ ?_
      | refine only_ite ?_ ?_
      | refine only_ite_snd ?_ ?_
      | refine only_ite_fst ?_ ?_
      | refine modProbe_only (hL := ?_) (ho := ?_)
      | refine setProbe_only (hL := ?_) (ho := ?_)
    | split
    | dsimp only

theorem ackGate_only {s : State} {p : Nat} {k : GateKind} (hL : names L [.probes] = true) 
    (ho : s0.onlyChanges s L) : s0.onlyChanges (State.ackGate s p k) L := by
  unfold State.ackGate
  try dsimp only
  repeat' first
    | with_reducible assumption
    | (refine names_trans hL ?_
       try simp only [keyTypes, Nat.reduceMod]
       decide)
    | with_reducible first
      | refine names_cons ?_ ?_
      | refine only_ite ?_ ?_
      | refine only_ite_snd ?_ ?_
      | refine only_ite_fst ?_ ?_
      | refine modProbe_only (hL := ?_) (ho := ?_)
      | refine setProbe_only (hL := ?_) (ho := ?_)
    | split
    | dsimp only

theorem spareRelease_only {s : State} {kind index : Nat} (hL : names L [.gens, .spares] = true) 
    (ho : s0.onlyChanges s L) : s0.onlyChanges (State.spareRelease s kind index) L := by
  unfold State.spareRelease
  try dsimp only
  repeat' first
    | with_reducible assumption
    | (refine names_trans hL ?_
       try simp only [keyTypes, Nat.reduceMod]
       decide)
    | with_reducible first
      | refine names_cons ?_ ?_
      | refine only_ite ?_ ?_
      | refine only_ite_snd ?_ ?_
      | refine only_ite_fst ?_ ?_
      | refine touchItem_only (hL := ?_) (ho := ?_)
    | split
    | (with_reducible refine only_check (z := [.spares]) ?_ ?_ ?_ ?_ ?_ ?_ ?_ ?_ ?_
       · refine names_trans hL ?_
         first | decide | (refine names_of_subset ?_; simp; done)
       iterate 7 · first | with_reducible rfl | (intro _; with_reducible rfl) | exact fun h => not_free h rfl | (intro _; dsimp only; split <;> rfl) | exact rfl | exact fun _ => rfl)
    | dsimp only

/-! Time -/

theorem evtAdd_only {t0 : State} {s : State} {kind : EvtKind} {t : FT} {key : Nat} (he : State.evtAdd s kind t key = some t0) (hL : names L [.evts] = true) 
    (ho : s0.onlyChanges s L) : s0.onlyChanges t0 L := by
  unfold State.evtAdd at he
  try dsimp only at he
  repeat' split at he
  all_goals first | (injection he with he; subst he) | injection he
  repeat' first
    | with_reducible assumption
    | (refine names_trans hL ?_
       try simp only [keyTypes, Nat.reduceMod]
       decide)
    | with_reducible first
      | refine names_cons ?_ ?_
      | refine only_ite ?_ ?_
      | refine only_ite_snd ?_ ?_
      | refine only_ite_fst ?_ ?_
    | split
    | (with_reducible refine modTime_only (z := [.evts]) ?_ ?_ ?_ ?_ ?_ ?_ ?_
       · refine names_trans hL ?_
         first | decide | (refine names_of_subset ?_; simp; done)
       iterate 5 · first | with_reducible rfl | (intro _; with_reducible rfl) | exact fun h => not_free h rfl | (intro _; dsimp only; split <;> rfl) | exact rfl | exact fun _ => rfl)
    | dsimp only

theorem evtDrop_only {s : State} {kind : EvtKind} {key : Nat} (hL : names L [.evts] = true) 
    (ho : s0.onlyChanges s L) : s0.onlyChanges (State.evtDrop s kind key) L := by
  unfold State.evtDrop
  try dsimp only
  repeat' first
    | with_reducible assumption
    | (refine names_trans hL ?_
       try simp only [keyTypes, Nat.reduceMod]
       decide)
    | with_reducible first
      | refine names_cons ?_ ?_
      | refine only_ite ?_ ?_
      | refine only_ite_snd ?_ ?_
      | refine only_ite_fst ?_ ?_
    | split
    | (with_reducible refine modTime_only (z := [.evts]) ?_ ?_ ?_ ?_ ?_ ?_ ?_
       · refine names_trans hL ?_
         first | decide | (refine names_of_subset ?_; simp; done)
       iterate 5 · first | with_reducible rfl | (intro _; with_reducible rfl) | exact fun h => not_free h rfl | (intro _; dsimp only; split <;> rfl) | exact rfl | exact fun _ => rfl)
    | dsimp only

theorem relockStart_only {t0 : State} {s : State} {t : Option FT} {page : Option (Bool × Nat)} (he : State.relockStart s t page = .ok t0) (hL : names L [.clock, .relock, .evts] = true) 
    (ho : s0.onlyChanges s L) : s0.onlyChanges t0 L := by
  unfold State.relockStart at he
  try dsimp only at he
  repeat' split at he
  all_goals first | (injection he with he; subst he) | injection he
  repeat' first
    | with_reducible assumption
    | (refine names_trans hL ?_
       try simp only [keyTypes, Nat.reduceMod]
       decide)
    | with_reducible first
      | refine names_cons ?_ ?_
      | refine only_ite ?_ ?_
      | refine only_ite_snd ?_ ?_
      | refine only_ite_fst ?_ ?_
      | refine evtAdd_only (he := by assumption) (hL := ?_) (ho := ?_)
    | split
    | (with_reducible refine modTime_only (z := [.clock, .relock, .evts]) ?_ ?_ ?_ ?_ ?_ ?_ ?_
       · refine names_trans hL ?_
         first | decide | (refine names_of_subset ?_; simp; done)
       iterate 5 · first | with_reducible rfl | (intro _; with_reducible rfl) | exact fun h => not_free h rfl | (intro _; dsimp only; split <;> rfl) | exact rfl | exact fun _ => rfl)
    | dsimp only

theorem relockFail_only {s : State} {detail : Nat} (hL : names L [.evts, .clock, .relock, .cmds, .word 0x08 0x100] = true) 
    (ho : s0.onlyChanges s L) : s0.onlyChanges (State.relockFail s detail) L := by
  unfold State.relockFail
  try dsimp only
  repeat' first
    | with_reducible assumption
    | (refine names_trans hL ?_
       try simp only [keyTypes, Nat.reduceMod]
       decide)
    | with_reducible first
      | refine names_cons ?_ ?_
      | refine only_ite ?_ ?_
      | refine only_ite_snd ?_ ?_
      | refine only_ite_fst ?_ ?_
      | refine evtDrop_only (hL := ?_) (ho := ?_)
      | refine complete_only (hL := ?_) (ho := ?_)
      | refine setRes_only (hL := ?_) (ho := ?_)
    | split
    | (with_reducible refine modTime_only (z := [.evts, .clock, .relock]) ?_ ?_ ?_ ?_ ?_ ?_ ?_
       · refine names_trans hL ?_
         first | decide | (refine names_of_subset ?_; simp; done)
       iterate 5 · first | with_reducible rfl | (intro _; with_reducible rfl) | exact fun h => not_free h rfl | (intro _; dsimp only; split <;> rfl) | exact rfl | exact fun _ => rfl)
    | dsimp only

theorem timeErr_only {s : State} {b : Nat} (hL : names L [.hdr 0x30] = true) 
    (ho : s0.onlyChanges s L) : s0.onlyChanges (State.timeErr s b) L := by
  unfold State.timeErr
  try dsimp only
  repeat' first
    | with_reducible assumption
    | (refine names_trans hL ?_
       try simp only [keyTypes, Nat.reduceMod]
       decide)
    | with_reducible first
      | refine names_cons ?_ ?_
      | refine only_ite ?_ ?_
      | refine only_ite_snd ?_ ?_
      | refine only_ite_fst ?_ ?_
      | refine setErr_only (hL := ?_) (ho := ?_)
    | split
    | dsimp only

theorem setServo_only {s : State} {v : Servo} (hL : names L [.clock, .pps] = true) 
    (ho : s0.onlyChanges s L) : s0.onlyChanges (State.setServo s v) L := by
  unfold State.setServo
  try dsimp only
  repeat' first
    | with_reducible assumption
    | (refine names_trans hL ?_
       try simp only [keyTypes, Nat.reduceMod]
       decide)
    | with_reducible first
      | refine names_cons ?_ ?_
      | refine only_ite ?_ ?_
      | refine only_ite_snd ?_ ?_
      | refine only_ite_fst ?_ ?_
    | split
    | (with_reducible refine modTime_only (z := [.clock, .pps]) ?_ ?_ ?_ ?_ ?_ ?_ ?_
       · refine names_trans hL ?_
         first | decide | (refine names_of_subset ?_; simp; done)
       iterate 5 · first | with_reducible rfl | (intro _; with_reducible rfl) | exact fun h => not_free h rfl | (intro _; dsimp only; split <;> rfl) | exact rfl | exact fun _ => rfl)
    | dsimp only

theorem enterHoldover_only {s : State} {port why : Nat} (hL : names L [.staged, .recs, .hdr 0x58, .hdr 0x30, .clock, .pps] = true) 
    (ho : s0.onlyChanges s L) : s0.onlyChanges (State.enterHoldover s port why) L := by
  unfold State.enterHoldover
  try dsimp only
  repeat' first
    | with_reducible assumption
    | (refine names_trans hL ?_
       try simp only [keyTypes, Nat.reduceMod]
       decide)
    | with_reducible first
      | refine names_cons ?_ ?_
      | refine only_ite ?_ ?_
      | refine only_ite_snd ?_ ?_
      | refine only_ite_fst ?_ ?_
      | refine log_only (hL := ?_) (ho := ?_)
      | refine timeErr_only (hL := ?_) (ho := ?_)
      | refine setServo_only (hL := ?_) (ho := ?_)
    | split
    | (with_reducible refine modTime_only (z := [.clock, .pps]) ?_ ?_ ?_ ?_ ?_ ?_ ?_
       · refine names_trans hL ?_
         first | decide | (refine names_of_subset ?_; simp; done)
       iterate 5 · first | with_reducible rfl | (intro _; with_reducible rfl) | exact fun h => not_free h rfl | (intro _; dsimp only; split <;> rfl) | exact rfl | exact fun _ => rfl)
    | dsimp only

theorem execTimeHold_only (c : CmdIn) (s : State) : ∃ st', execTimeHold c s = .next st' ∧ s.onlyChanges st' [.out, .xfers, .lines, .inj, .cmds, .power, .bpwr, .word 0x50 0x54, .activity, .host, .tap, .regs 0x08, .hdr 0x08, .staged, .recs, .hdr 0x58, .hdr 0x30, .clock, .pps] := by
  refine ⟨_, rfl, only_start fun hL h0 => ?_⟩
  refine settle_only (names_of_subset (by simp)) ?_
  repeat' first
    | with_reducible first
      | exact h0
      | assumption
    | (refine names_trans hL ?_
       try simp only [keyTypes, Nat.reduceMod]
       decide)
    | (refine names_trans hL ?_
       try simp only [keyTypes, Nat.reduceMod]
       refine names_trans (names_of_subset ?_) names_regs_word
       simp
       done)
    | with_reducible first
      | refine names_cons ?_ ?_
      | refine only_ite ?_ ?_
      | refine only_ite_snd ?_ ?_
      | refine only_ite_fst ?_ ?_
      | refine runCmd_only (hL := ?_) (h_effect := fun u hu => ?_) (ho := ?_)
      | refine ok_only (hL := ?_) (ho := ?_)
      | refine enterHoldover_only (hL := ?_) (ho := ?_)
      | refine failCmd_only (hL := ?_) (ho := ?_)
    | split
    | (with_reducible refine modTime_only (z := [.clock, .pps]) ?_ ?_ ?_ ?_ ?_ ?_ ?_
       · refine names_trans hL ?_
         first | decide | (refine names_of_subset ?_; simp; done)
       iterate 5 · first | with_reducible rfl | (intro _; with_reducible rfl) | exact fun h => not_free h rfl | (intro _; dsimp only; split <;> rfl) | exact rfl | exact fun _ => rfl)
    | dsimp only

theorem modTport_only {s : State} {p : Nat} {f : TPort → TPort} (hL : names L [.tports] = true) 
    (ho : s0.onlyChanges s L) : s0.onlyChanges (State.modTport s p f) L := by
  unfold State.modTport
  try dsimp only
  repeat' first
    | with_reducible assumption
    | (refine names_trans hL ?_
       try simp only [keyTypes, Nat.reduceMod]
       decide)
    | with_reducible first
      | refine names_cons ?_ ?_
      | refine only_ite ?_ ?_
      | refine only_ite_snd ?_ ?_
      | refine only_ite_fst ?_ ?_
    | split
    | (with_reducible refine modTime_only (z := [.tports]) ?_ ?_ ?_ ?_ ?_ ?_ ?_
       · refine names_trans hL ?_
         first | decide | (refine names_of_subset ?_; simp; done)
       iterate 5 · first | with_reducible rfl | (intro _; with_reducible rfl) | exact fun h => not_free h rfl | (intro _; dsimp only; split <;> rfl) | exact rfl | exact fun _ => rfl)
    | dsimp only

theorem track_only {s : State} {off : Int} (hL : names L [.hdr 0x30, .clock] = true) 
    (ho : s0.onlyChanges s L) : s0.onlyChanges (State.track s off) L := by
  unfold State.track
  try dsimp only
  repeat' first
    | with_reducible assumption
    | (refine names_trans hL ?_
       try simp only [keyTypes, Nat.reduceMod]
       decide)
    | with_reducible first
      | refine names_cons ?_ ?_
      | refine only_ite ?_ ?_
      | refine only_ite_snd ?_ ?_
      | refine only_ite_fst ?_ ?_
      | refine timeErr_only (hL := ?_) (ho := ?_)
    | split
    | (with_reducible refine modTime_only (z := [.clock]) ?_ ?_ ?_ ?_ ?_ ?_ ?_
       · refine names_trans hL ?_
         first | decide | (refine names_of_subset ?_; simp; done)
       iterate 5 · first | with_reducible rfl | (intro _; with_reducible rfl) | exact fun h => not_free h rfl | (intro _; dsimp only; split <;> rfl) | exact rfl | exact fun _ => rfl)
    | dsimp only

theorem timeFault_only {s : State} (hL : names L [.staged, .recs, .hdr 0x58, .mbox, .hdr 0x30, .clock, .pps] = true) 
    (ho : s0.onlyChanges s L) : s0.onlyChanges (State.timeFault s) L := by
  unfold State.timeFault
  try dsimp only
  repeat' first
    | with_reducible assumption
    | (refine names_trans hL ?_
       try simp only [keyTypes, Nat.reduceMod]
       decide)
    | with_reducible first
      | refine names_cons ?_ ?_
      | refine only_ite ?_ ?_
      | refine only_ite_snd ?_ ?_
      | refine only_ite_fst ?_ ?_
      | refine log_only (hL := ?_) (ho := ?_)
      | refine faultMsg_only (hL := ?_) (ho := ?_)
      | refine timeErr_only (hL := ?_) (ho := ?_)
      | refine setServo_only (hL := ?_) (ho := ?_)
    | split
    | (with_reducible refine modTime_only (z := [.clock, .pps]) ?_ ?_ ?_ ?_ ?_ ?_ ?_
       · refine names_trans hL ?_
         first | decide | (refine names_of_subset ?_; simp; done)
       iterate 5 · first | with_reducible rfl | (intro _; with_reducible rfl) | exact fun h => not_free h rfl | (intro _; dsimp only; split <;> rfl) | exact rfl | exact fun _ => rfl)
    | dsimp only

theorem servoSample_only {s : State} {off l : Int} (hL : names L [.gens, .clock, .relock, .hdr 0x30, .staged, .recs, .hdr 0x58, .mbox, .pps] = true) 
    (ho : s0.onlyChanges s L) : s0.onlyChanges (State.servoSample s off l) L := by
  unfold State.servoSample
  try dsimp only
  repeat' first
    | with_reducible assumption
    | (refine names_trans hL ?_
       try simp only [keyTypes, Nat.reduceMod]
       decide)
    | with_reducible first
      | refine names_cons ?_ ?_
      | refine only_ite ?_ ?_
      | refine only_ite_snd ?_ ?_
      | refine only_ite_fst ?_ ?_
      | refine touchItem_only (hL := ?_) (ho := ?_)
      | refine track_only (hL := ?_) (ho := ?_)
      | refine timeFault_only (hL := ?_) (ho := ?_)
      | refine setServo_only (hL := ?_) (ho := ?_)
    | split
    | (with_reducible refine modTime_only (z := [.clock, .relock, .pps]) ?_ ?_ ?_ ?_ ?_ ?_ ?_
       · refine names_trans hL ?_
         first | decide | (refine names_of_subset ?_; simp; done)
       iterate 5 · first | with_reducible rfl | (intro _; with_reducible rfl) | exact fun h => not_free h rfl | (intro _; dsimp only; split <;> rfl) | exact rfl | exact fun _ => rfl)
    | dsimp only

theorem takeOver_only {s : State} {old : Option Nat} {p : Nat} {off l : Int} (hL : names L [.tports, .evts, .clock, .relock, .cmds, .word 0x08 0x100, .gens, .hdr 0x30, .staged, .recs, .hdr 0x58, .mbox, .pps] = true) 
    (ho : s0.onlyChanges s L) : s0.onlyChanges (State.takeOver s old p off l) L := by
  unfold State.takeOver
  try dsimp only
  repeat' first
    | with_reducible assumption
    | (refine names_trans hL ?_
       try simp only [keyTypes, Nat.reduceMod]
       decide)
    | with_reducible first
      | refine names_cons ?_ ?_
      | refine only_ite ?_ ?_
      | refine only_ite_snd ?_ ?_
      | refine only_ite_fst ?_ ?_
      | refine modTport_only (hL := ?_) (ho := ?_)
      | refine relockFail_only (hL := ?_) (ho := ?_)
      | refine servoSample_only (hL := ?_) (ho := ?_)
      | refine log_only (hL := ?_) (ho := ?_)
      | refine timeErr_only (hL := ?_) (ho := ?_)
    | split
    | (with_reducible refine modTime_only (z := [.tports, .evts, .clock, .relock, .pps]) ?_ ?_ ?_ ?_ ?_ ?_ ?_
       · refine names_trans hL ?_
         first | decide | (refine names_of_subset ?_; simp; done)
       iterate 5 · first | with_reducible rfl | (intro _; with_reducible rfl) | exact fun h => not_free h rfl | (intro _; dsimp only; split <;> rfl) | exact rfl | exact fun _ => rfl)
    | dsimp only

theorem masterLost_only {s : State} {why : Nat} (hL : names L [.evts, .clock, .relock, .cmds, .word 0x08 0x100, .hdr 0x30, .pps, .staged, .recs, .hdr 0x58] = true) 
    (ho : s0.onlyChanges s L) : s0.onlyChanges (State.masterLost s why) L := by
  unfold State.masterLost
  try dsimp only
  repeat' first
    | with_reducible assumption
    | (refine names_trans hL ?_
       try simp only [keyTypes, Nat.reduceMod]
       decide)
    | with_reducible first
      | refine names_cons ?_ ?_
      | refine only_ite ?_ ?_
      | refine only_ite_snd ?_ ?_
      | refine only_ite_fst ?_ ?_
      | refine relockFail_only (hL := ?_) (ho := ?_)
      | refine timeErr_only (hL := ?_) (ho := ?_)
      | refine setServo_only (hL := ?_) (ho := ?_)
      | refine enterHoldover_only (hL := ?_) (ho := ?_)
    | split
    | (with_reducible refine modTime_only (z := [.evts, .clock, .relock, .pps]) ?_ ?_ ?_ ?_ ?_ ?_ ?_
       · refine names_trans hL ?_
         first | decide | (refine names_of_subset ?_; simp; done)
       iterate 5 · first | with_reducible rfl | (intro _; with_reducible rfl) | exact fun h => not_free h rfl | (intro _; dsimp only; split <;> rfl) | exact rfl | exact fun _ => rfl)
    | dsimp only

theorem takeState_only {s : State} {p : Nat} {st : PtpState} (hL : names L [.tports, .evts, .clock, .relock, .cmds, .word 0x08 0x100, .hdr 0x30, .pps, .staged, .recs, .hdr 0x58] = true) 
    (ho : s0.onlyChanges s L) : s0.onlyChanges (State.takeState s p st) L := by
  unfold State.takeState
  try dsimp only
  repeat' first
    | with_reducible assumption
    | (refine names_trans hL ?_
       try simp only [keyTypes, Nat.reduceMod]
       decide)
    | with_reducible first
      | refine names_cons ?_ ?_
      | refine only_ite ?_ ?_
      | refine only_ite_snd ?_ ?_
      | refine only_ite_fst ?_ ?_
      | refine modTport_only (hL := ?_) (ho := ?_)
      | refine masterLost_only (hL := ?_) (ho := ?_)
      | refine setServo_only (hL := ?_) (ho := ?_)
    | split
    | (with_reducible refine modTime_only (z := [.tports, .evts, .clock, .relock, .pps]) ?_ ?_ ?_ ?_ ?_ ?_ ?_
       · refine names_trans hL ?_
         first | decide | (refine names_of_subset ?_; simp; done)
       iterate 5 · first | with_reducible rfl | (intro _; with_reducible rfl) | exact fun h => not_free h rfl | (intro _; dsimp only; split <;> rfl) | exact rfl | exact fun _ => rfl)
    | dsimp only

theorem rerole_only {s : State} (hL : names L [.tports, .evts, .clock, .relock, .cmds, .word 0x08 0x100, .gens, .hdr 0x30, .staged, .recs, .hdr 0x58, .mbox, .pps] = true) 
    (ho : s0.onlyChanges s L) : s0.onlyChanges (State.rerole s) L := by
  unfold State.rerole
  try dsimp only
  repeat' first
    | with_reducible assumption
    | (refine names_trans hL ?_
       try simp only [keyTypes, Nat.reduceMod]
       decide)
    | with_reducible first
      | refine names_cons ?_ ?_
      | refine only_ite ?_ ?_
      | refine only_ite_snd ?_ ?_
      | refine only_ite_fst ?_ ?_
      | refine takeOver_only (hL := ?_) (ho := ?_)
      | refine masterLost_only (hL := ?_) (ho := ?_)
      | refine takeState_only (hL := ?_) (ho := ?_)
      | refine only_foldl (fun u x hu => ?_) ?_
      | refine only_foldl_snd (fun u x hu => ?_) ?_
      | refine only_foldl_fst (fun u x hu => ?_) ?_
    | split
    | dsimp only

theorem timeLinks_only {s : State} (hL : names L [.tports, .evts, .clock, .relock, .cmds, .word 0x08 0x100, .gens, .hdr 0x30, .staged, .recs, .hdr 0x58, .mbox, .pps] = true) 
    (ho : s0.onlyChanges s L) : s0.onlyChanges (State.timeLinks s) L := by
  unfold State.timeLinks
  try dsimp only
  repeat' first
    | with_reducible assumption
    | (refine names_trans hL ?_
       try simp only [keyTypes, Nat.reduceMod]
       decide)
    | with_reducible first
      | refine names_cons ?_ ?_
      | refine only_ite ?_ ?_
      | refine only_ite_snd ?_ ?_
      | refine only_ite_fst ?_ ?_
      | refine rerole_only (hL := ?_) (ho := ?_)
      | refine takeState_only (hL := ?_) (ho := ?_)
      | refine only_foldl (fun u x hu => ?_) ?_
      | refine only_foldl_snd (fun u x hu => ?_) ?_
      | refine only_foldl_fst (fun u x hu => ?_) ?_
    | split
    | dsimp only

theorem timePortLost_only {s : State} {p : Nat} (hL : names L [.tports, .evts, .clock, .relock, .cmds, .word 0x08 0x100, .hdr 0x30, .pps, .staged, .recs, .hdr 0x58] = true) 
    (ho : s0.onlyChanges s L) : s0.onlyChanges (State.timePortLost s p) L := by
  unfold State.timePortLost
  try dsimp only
  repeat' first
    | with_reducible assumption
    | (refine names_trans hL ?_
       try simp only [keyTypes, Nat.reduceMod]
       decide)
    | with_reducible first
      | refine names_cons ?_ ?_
      | refine only_ite ?_ ?_
      | refine only_ite_snd ?_ ?_
      | refine only_ite_fst ?_ ?_
      | refine modTport_only (hL := ?_) (ho := ?_)
      | refine takeState_only (hL := ?_) (ho := ?_)
    | split
    | (with_reducible refine modTime_only (z := [.tports, .evts, .clock, .relock, .pps]) ?_ ?_ ?_ ?_ ?_ ?_ ?_
       · refine names_trans hL ?_
         first | decide | (refine names_of_subset ?_; simp; done)
       iterate 5 · first | with_reducible rfl | (intro _; with_reducible rfl) | exact fun h => not_free h rfl | (intro _; dsimp only; split <;> rfl) | exact rfl | exact fun _ => rfl)
    | dsimp only

theorem ptpIgnored_only {s : State} {p n : Nat} (hL : names L [.regs 0x31] = true) 
    (ho : s0.onlyChanges s L) : s0.onlyChanges (State.ptpIgnored s p n) L := by
  unfold State.ptpIgnored
  try dsimp only
  repeat' first
    | with_reducible assumption
    | (refine names_trans hL ?_
       try simp only [keyTypes, Nat.reduceMod]
       decide)
    | (refine names_trans hL ?_
       try simp only [keyTypes, Nat.reduceMod]
       refine names_trans (names_of_subset ?_) names_regs_word
       simp
       done)
    | with_reducible first
      | refine names_cons ?_ ?_
      | refine only_ite ?_ ?_
      | refine only_ite_snd ?_ ?_
      | refine only_ite_fst ?_ ?_
      | refine bumpFld_only (hL := ?_) (ho := ?_)
    | split
    | dsimp only

theorem ptpBad_only {s : State} {p : Nat} (hL : names L [.regs 0x31] = true) 
    (ho : s0.onlyChanges s L) : s0.onlyChanges (State.ptpBad s p) L := by
  unfold State.ptpBad
  try dsimp only
  repeat' first
    | with_reducible assumption
    | (refine names_trans hL ?_
       try simp only [keyTypes, Nat.reduceMod]
       decide)
    | (refine names_trans hL ?_
       try simp only [keyTypes, Nat.reduceMod]
       refine names_trans (names_of_subset ?_) names_regs_word
       simp
       done)
    | with_reducible first
      | refine names_cons ?_ ?_
      | refine only_ite ?_ ?_
      | refine only_ite_snd ?_ ?_
      | refine only_ite_fst ?_ ?_
      | refine bumpFld_only (hL := ?_) (ho := ?_)
    | split
    | dsimp only

theorem ptpLost_only {s : State} {p : Nat} (hL : names L [.regs 0x31] = true) 
    (ho : s0.onlyChanges s L) : s0.onlyChanges (State.ptpLost s p) L := by
  unfold State.ptpLost
  try dsimp only
  repeat' first
    | with_reducible assumption
    | (refine names_trans hL ?_
       try simp only [keyTypes, Nat.reduceMod]
       decide)
    | (refine names_trans hL ?_
       try simp only [keyTypes, Nat.reduceMod]
       refine names_trans (names_of_subset ?_) names_regs_word
       simp
       done)
    | with_reducible first
      | refine names_cons ?_ ?_
      | refine only_ite ?_ ?_
      | refine only_ite_snd ?_ ?_
      | refine only_ite_fst ?_ ?_
      | refine bump_only (hL := ?_) (ho := ?_)
    | split
    | dsimp only

theorem ptpSend_only {s : State} {p : Nat} {bytes : List Byte} (hL : names L [.mbox] = true) 
    (ho : s0.onlyChanges s L) : s0.onlyChanges (State.ptpSend s p bytes) L := by
  unfold State.ptpSend
  try dsimp only
  repeat' first
    | with_reducible assumption
    | (refine names_trans hL ?_
       try simp only [keyTypes, Nat.reduceMod]
       decide)
    | with_reducible first
      | refine names_cons ?_ ?_
      | refine only_ite ?_ ?_
      | refine only_ite_snd ?_ ?_
      | refine only_ite_fst ?_ ?_
      | refine sendTyp_only (hL := ?_) (ho := ?_)
    | split
    | dsimp only

theorem ptpTake_only {s : State} {p : Nat} {m : PtpMsg} {act : State → State} (hL : names L [.regs 0x31] = true) (h_act : ∀ (u : State), s0.onlyChanges u L → s0.onlyChanges (act u) L)
    (ho : s0.onlyChanges s L) : s0.onlyChanges (State.ptpTake s p m act) L := by
  unfold State.ptpTake
  try dsimp only
  repeat' first
    | with_reducible assumption
    | (refine names_trans hL ?_
       try simp only [keyTypes, Nat.reduceMod]
       decide)
    | (refine names_trans hL ?_
       try simp only [keyTypes, Nat.reduceMod]
       refine names_trans (names_of_subset ?_) names_regs_word
       simp
       done)
    | with_reducible first
      | refine names_cons ?_ ?_
      | refine only_ite ?_ ?_
      | refine only_ite_snd ?_ ?_
      | refine only_ite_fst ?_ ?_
      | refine h_act _ ?_
      | refine ptpIgnored_only (hL := ?_) (ho := ?_)
      | refine ptpBad_only (hL := ?_) (ho := ?_)
    | split
    | dsimp only

theorem sampleFails_only {s : State} {p : Nat} (hL : names L [.clock] = true) 
    (ho : s0.onlyChanges s L) : s0.onlyChanges (State.sampleFails s p) L := by
  unfold State.sampleFails
  try dsimp only
  repeat' first
    | with_reducible assumption
    | (refine names_trans hL ?_
       try simp only [keyTypes, Nat.reduceMod]
       decide)
    | with_reducible first
      | refine names_cons ?_ ?_
      | refine only_ite ?_ ?_
      | refine only_ite_snd ?_ ?_
      | refine only_ite_fst ?_ ?_
    | split
    | (with_reducible refine modTime_only (z := [.clock]) ?_ ?_ ?_ ?_ ?_ ?_ ?_
       · refine names_trans hL ?_
         first | decide | (refine names_of_subset ?_; simp; done)
       iterate 5 · first | with_reducible rfl | (intro _; with_reducible rfl) | exact fun h => not_free h rfl | (intro _; dsimp only; split <;> rfl) | exact rfl | exact fun _ => rfl)
    | dsimp only

theorem syncDone_only {s : State} {p : Nat} {t1 t2 corr : Int} (hL : names L [.clock, .hdr 0x30, .tports, .gens, .relock, .staged, .recs, .hdr 0x58, .mbox, .pps] = true) 
    (ho : s0.onlyChanges s L) : s0.onlyChanges (State.syncDone s p t1 t2 corr) L := by
  unfold State.syncDone
  try dsimp only
  repeat' first
    | with_reducible assumption
    | (refine names_trans hL ?_
       try simp only [keyTypes, Nat.reduceMod]
       decide)
    | with_reducible first
      | refine names_cons ?_ ?_
      | refine only_ite ?_ ?_
      | refine only_ite_snd ?_ ?_
      | refine only_ite_fst ?_ ?_
      | refine sampleFails_only (hL := ?_) (ho := ?_)
      | refine timeErr_only (hL := ?_) (ho := ?_)
      | refine modTport_only (hL := ?_) (ho := ?_)
      | refine servoSample_only (hL := ?_) (ho := ?_)
    | split
    | (with_reducible refine modTime_only (z := [.clock, .tports, .relock, .pps]) ?_ ?_ ?_ ?_ ?_ ?_ ?_
       · refine names_trans hL ?_
         first | decide | (refine names_of_subset ?_; simp; done)
       iterate 5 · first | with_reducible rfl | (intro _; with_reducible rfl) | exact fun h => not_free h rfl | (intro _; dsimp only; split <;> rfl) | exact rfl | exact fun _ => rfl)
    | dsimp only

theorem ptpSync_only {s : State} {p : Nat} {m : PtpMsg} {ts : FT} (hL : names L [.now, .tports, .clock, .regs 0x31, .hdr 0x30, .gens, .relock, .staged, .recs, .hdr 0x58, .mbox, .pps] = true) 
    (ho : s0.onlyChanges s L) : s0.onlyChanges (State.ptpSync s p m ts) L := by
  unfold State.ptpSync
  try dsimp only
  repeat' first
    | with_reducible assumption
    | (refine names_trans hL ?_
       try simp only [keyTypes, Nat.reduceMod]
       decide)
    | (refine names_trans hL ?_
       try simp only [keyTypes, Nat.reduceMod]
       refine names_trans (names_of_subset ?_) names_regs_word
       simp
       done)
    | with_reducible first
      | refine names_cons ?_ ?_
      | refine only_ite ?_ ?_
      | refine only_ite_snd ?_ ?_
      | refine only_ite_fst ?_ ?_
      | refine advanceTo_only (hL := ?_) (ho := ?_)
      | refine modTport_only (hL := ?_) (ho := ?_)
      | refine sampleFails_only (hL := ?_) (ho := ?_)
      | refine ptpLost_only (hL := ?_) (ho := ?_)
      | refine syncDone_only (hL := ?_) (ho := ?_)
    | split
    | (with_reducible refine modTime_only (z := [.tports, .clock, .relock, .pps]) ?_ ?_ ?_ ?_ ?_ ?_ ?_
       · refine names_trans hL ?_
         first | decide | (refine names_of_subset ?_; simp; done)
       iterate 5 · first | with_reducible rfl | (intro _; with_reducible rfl) | exact fun h => not_free h rfl | (intro _; dsimp only; split <;> rfl) | exact rfl | exact fun _ => rfl)
    | dsimp only

theorem annExpire_only {s : State} {p : Nat} (hL : names L [.tports] = true) 
    (ho : s0.onlyChanges s L) : s0.onlyChanges (State.annExpire s p) L := by
  unfold State.annExpire
  try dsimp only
  repeat' first
    | with_reducible assumption
    | (refine names_trans hL ?_
       try simp only [keyTypes, Nat.reduceMod]
       decide)
    | with_reducible first
      | refine names_cons ?_ ?_
      | refine only_ite ?_ ?_
      | refine only_ite_snd ?_ ?_
      | refine only_ite_fst ?_ ?_
      | refine modTport_only (hL := ?_) (ho := ?_)
    | split
    | (with_reducible refine modTime_only (z := [.tports]) ?_ ?_ ?_ ?_ ?_ ?_ ?_
       · refine names_trans hL ?_
         first | decide | (refine names_of_subset ?_; simp; done)
       iterate 5 · first | with_reducible rfl | (intro _; with_reducible rfl) | exact fun h => not_free h rfl | (intro _; dsimp only; split <;> rfl) | exact rfl | exact fun _ => rfl)
    | dsimp only

theorem bmca_only {s : State} (hL : names L [.tports, .evts, .clock, .relock, .cmds, .word 0x08 0x100, .hdr 0x30, .pps, .staged, .recs, .hdr 0x58] = true) 
    (ho : s0.onlyChanges s L) : s0.onlyChanges (State.bmca s) L := by
  unfold State.bmca
  try dsimp only
  repeat' first
    | with_reducible assumption
    | (refine names_trans hL ?_
       try simp only [keyTypes, Nat.reduceMod]
       decide)
    | with_reducible first
      | refine names_cons ?_ ?_
      | refine only_ite ?_ ?_
      | refine only_ite_snd ?_ ?_
      | refine only_ite_fst ?_ ?_
      | refine annExpire_only (hL := ?_) (ho := ?_)
      | refine masterLost_only (hL := ?_) (ho := ?_)
      | refine takeState_only (hL := ?_) (ho := ?_)
      | refine only_foldl (fun u x hu => ?_) ?_
      | refine only_foldl_snd (fun u x hu => ?_) ?_
      | refine only_foldl_fst (fun u x hu => ?_) ?_
    | split
    | dsimp only

theorem parentData_only {s : State} {p : Nat} {a : PtpAnn} (hL : names L [.clock] = true) 
    (ho : s0.onlyChanges s L) : s0.onlyChanges (State.parentData s p a) L := by
  unfold State.parentData
  try dsimp only
  repeat' first
    | with_reducible assumption
    | (refine names_trans hL ?_
       try simp only [keyTypes, Nat.reduceMod]
       decide)
    | with_reducible first
      | refine names_cons ?_ ?_
      | refine only_ite ?_ ?_
      | refine only_ite_snd ?_ ?_
      | refine only_ite_fst ?_ ?_
    | split
    | (with_reducible refine modTime_only (z := [.clock]) ?_ ?_ ?_ ?_ ?_ ?_ ?_
       · refine names_trans hL ?_
         first | decide | (refine names_of_subset ?_; simp; done)
       iterate 5 · first | with_reducible rfl | (intro _; with_reducible rfl) | exact fun h => not_free h rfl | (intro _; dsimp only; split <;> rfl) | exact rfl | exact fun _ => rfl)
    | dsimp only

theorem timeTick_only {s : State} (hL : names L [.clock, .pps] = true) 
    (ho : s0.onlyChanges s L) : s0.onlyChanges (State.timeTick s) L := by
  unfold State.timeTick
  try dsimp only
  repeat' first
    | with_reducible assumption
    | (refine names_trans hL ?_
       try simp only [keyTypes, Nat.reduceMod]
       decide)
    | with_reducible first
      | refine names_cons ?_ ?_
      | refine only_ite ?_ ?_
      | refine only_ite_snd ?_ ?_
      | refine only_ite_fst ?_ ?_
    | split
    | (with_reducible refine modTime_only (z := [.clock, .pps]) ?_ ?_ ?_ ?_ ?_ ?_ ?_
       · refine names_trans hL ?_
         first | decide | (refine names_of_subset ?_; simp; done)
       iterate 5 · first | with_reducible rfl | (intro _; with_reducible rfl) | exact fun h => not_free h rfl | (intro _; dsimp only; split <;> rfl) | exact rfl | exact fun _ => rfl)
    | dsimp only

theorem execPtpSync_only (port : Nat) (m : PtpMsg) (ts : Nat) (s : State) : ∃ st', execPtpSync port m ts s = .next st' ∧ s.onlyChanges st' [.out, .xfers, .lines, .inj, .regs 0x31, .now, .tports, .clock, .hdr 0x30, .gens, .relock, .staged, .recs, .hdr 0x58, .mbox, .pps] := by
  refine ⟨_, rfl, only_start fun hL h0 => ?_⟩
  refine settle_only (names_of_subset (by simp)) ?_
  repeat' first
    | with_reducible first
      | exact h0
      | assumption
    | (refine names_trans hL ?_
       try simp only [keyTypes, Nat.reduceMod]
       decide)
    | (refine names_trans hL ?_
       try simp only [keyTypes, Nat.reduceMod]
       refine names_trans (names_of_subset ?_) names_regs_word
       simp
       done)
    | with_reducible first
      | refine names_cons ?_ ?_
      | refine only_ite ?_ ?_
      | refine only_ite_snd ?_ ?_
      | refine only_ite_fst ?_ ?_
      | refine ptpTake_only (hL := ?_) (h_act := fun u hu => ?_) (ho := ?_)
      | refine ptpSync_only (hL := ?_) (ho := ?_)
    | split
    | dsimp only

theorem execPtpFollowUp_only (port : Nat) (m : PtpMsg) (s : State) : ∃ st', execPtpFollowUp port m s = .next st' ∧ s.onlyChanges st' [.out, .xfers, .lines, .inj, .regs 0x31, .clock, .hdr 0x30, .tports, .gens, .relock, .staged, .recs, .hdr 0x58, .mbox, .pps] := by
  refine ⟨_, rfl, only_start fun hL h0 => ?_⟩
  refine settle_only (names_of_subset (by simp)) ?_
  repeat' first
    | with_reducible first
      | exact h0
      | assumption
    | (refine names_trans hL ?_
       try simp only [keyTypes, Nat.reduceMod]
       decide)
    | (refine names_trans hL ?_
       try simp only [keyTypes, Nat.reduceMod]
       refine names_trans (names_of_subset ?_) names_regs_word
       simp
       done)
    | with_reducible first
      | refine names_cons ?_ ?_
      | refine only_ite ?_ ?_
      | refine only_ite_snd ?_ ?_
      | refine only_ite_fst ?_ ?_
      | refine ptpTake_only (hL := ?_) (h_act := fun u hu => ?_) (ho := ?_)
      | refine syncDone_only (hL := ?_) (ho := ?_)
      | refine modTport_only (hL := ?_) (ho := ?_)
    | split
    | (with_reducible refine modTime_only (z := [.clock, .tports, .relock, .pps]) ?_ ?_ ?_ ?_ ?_ ?_ ?_
       · refine names_trans hL ?_
         first | decide | (refine names_of_subset ?_; simp; done)
       iterate 5 · first | with_reducible rfl | (intro _; with_reducible rfl) | exact fun h => not_free h rfl | (intro _; dsimp only; split <;> rfl) | exact rfl | exact fun _ => rfl)
    | dsimp only

theorem execPtpDelayReq_only (port : Nat) (m : PtpMsg) (ts : Nat) (s : State) : ∃ st', execPtpDelayReq port m ts s = .next st' ∧ s.onlyChanges st' [.out, .xfers, .lines, .inj, .regs 0x31, .now, .mbox] := by
  refine ⟨_, rfl, only_start fun hL h0 => ?_⟩
  refine settle_only (names_of_subset (by simp)) ?_
  repeat' first
    | with_reducible first
      | exact h0
      | assumption
    | (refine names_trans hL ?_
       try simp only [keyTypes, Nat.reduceMod]
       decide)
    | (refine names_trans hL ?_
       try simp only [keyTypes, Nat.reduceMod]
       refine names_trans (names_of_subset ?_) names_regs_word
       simp
       done)
    | with_reducible first
      | refine names_cons ?_ ?_
      | refine only_ite ?_ ?_
      | refine only_ite_snd ?_ ?_
      | refine only_ite_fst ?_ ?_
      | refine ptpTake_only (hL := ?_) (h_act := fun u hu => ?_) (ho := ?_)
      | refine advanceTo_only (hL := ?_) (ho := ?_)
      | refine ptpSend_only (hL := ?_) (ho := ?_)
    | split
    | dsimp only

theorem execPtpDelayResp_only (port : Nat) (m : PtpMsg) (s : State) : ∃ st', execPtpDelayResp port m s = .next st' ∧ s.onlyChanges st' [.out, .xfers, .lines, .inj, .regs 0x31, .clock, .hdr 0x30, .tports] := by
  refine ⟨_, rfl, only_start fun hL h0 => ?_⟩
  refine settle_only (names_of_subset (by simp)) ?_
  repeat' first
    | with_reducible first
      | exact h0
      | assumption
    | (refine names_trans hL ?_
       try simp only [keyTypes, Nat.reduceMod]
       decide)
    | (refine names_trans hL ?_
       try simp only [keyTypes, Nat.reduceMod]
       refine names_trans (names_of_subset ?_) names_regs_word
       simp
       done)
    | with_reducible first
      | refine names_cons ?_ ?_
      | refine only_ite ?_ ?_
      | refine only_ite_snd ?_ ?_
      | refine only_ite_fst ?_ ?_
      | refine ptpTake_only (hL := ?_) (h_act := fun u hu => ?_) (ho := ?_)
      | refine sampleFails_only (hL := ?_) (ho := ?_)
      | refine timeErr_only (hL := ?_) (ho := ?_)
      | refine modTport_only (hL := ?_) (ho := ?_)
    | split
    | (with_reducible refine modTime_only (z := [.clock, .tports]) ?_ ?_ ?_ ?_ ?_ ?_ ?_
       · refine names_trans hL ?_
         first | decide | (refine names_of_subset ?_; simp; done)
       iterate 5 · first | with_reducible rfl | (intro _; with_reducible rfl) | exact fun h => not_free h rfl | (intro _; dsimp only; split <;> rfl) | exact rfl | exact fun _ => rfl)
    | dsimp only

theorem execSyncSend_only (port ts : Nat) (s : State) : ∃ st', execSyncSend port ts s = .next st' ∧ s.onlyChanges st' [.out, .xfers, .lines, .inj, .now, .mbox, .tports] := by
  refine ⟨_, rfl, only_start fun hL h0 => ?_⟩
  refine settle_only (names_of_subset (by simp)) ?_
  repeat' first
    | with_reducible first
      | exact h0
      | assumption
    | (refine names_trans hL ?_
       try simp only [keyTypes, Nat.reduceMod]
       decide)
    | with_reducible first
      | refine names_cons ?_ ?_
      | refine only_ite ?_ ?_
      | refine only_ite_snd ?_ ?_
      | refine only_ite_fst ?_ ?_
      | refine advanceTo_only (hL := ?_) (ho := ?_)
      | refine ptpSend_only (hL := ?_) (ho := ?_)
      | refine modTport_only (hL := ?_) (ho := ?_)
    | split
    | (with_reducible refine modTime_only (z := [.tports]) ?_ ?_ ?_ ?_ ?_ ?_ ?_
       · refine names_trans hL ?_
         first | decide | (refine names_of_subset ?_; simp; done)
       iterate 5 · first | with_reducible rfl | (intro _; with_reducible rfl) | exact fun h => not_free h rfl | (intro _; dsimp only; split <;> rfl) | exact rfl | exact fun _ => rfl)
    | dsimp only

theorem execDelayReqSend_only (port ts : Nat) (s : State) : ∃ st', execDelayReqSend port ts s = .next st' ∧ s.onlyChanges st' [.out, .xfers, .lines, .inj, .now, .regs 0x31, .mbox, .tports] := by
  refine ⟨_, rfl, only_start fun hL h0 => ?_⟩
  refine settle_only (names_of_subset (by simp)) ?_
  repeat' first
    | with_reducible first
      | exact h0
      | assumption
    | (refine names_trans hL ?_
       try simp only [keyTypes, Nat.reduceMod]
       decide)
    | (refine names_trans hL ?_
       try simp only [keyTypes, Nat.reduceMod]
       refine names_trans (names_of_subset ?_) names_regs_word
       simp
       done)
    | with_reducible first
      | refine names_cons ?_ ?_
      | refine only_ite ?_ ?_
      | refine only_ite_snd ?_ ?_
      | refine only_ite_fst ?_ ?_
      | refine advanceTo_only (hL := ?_) (ho := ?_)
      | refine ptpLost_only (hL := ?_) (ho := ?_)
      | refine ptpSend_only (hL := ?_) (ho := ?_)
      | refine modTport_only (hL := ?_) (ho := ?_)
    | split
    | (with_reducible refine modTime_only (z := [.tports]) ?_ ?_ ?_ ?_ ?_ ?_ ?_
       · refine names_trans hL ?_
         first | decide | (refine names_of_subset ?_; simp; done)
       iterate 5 · first | with_reducible rfl | (intro _; with_reducible rfl) | exact fun h => not_free h rfl | (intro _; dsimp only; split <;> rfl) | exact rfl | exact fun _ => rfl)
    | dsimp only

theorem execTslost_only (port : Nat) (delay : Bool) (s : State) : ∃ st', execTslost port delay s = .next st' ∧ s.onlyChanges st' [.out, .xfers, .lines, .inj, .regs 0x31, .now, .tports, .clock] := by
  refine ⟨_, rfl, only_start fun hL h0 => ?_⟩
  refine settle_only (names_of_subset (by simp)) ?_
  repeat' first
    | with_reducible first
      | exact h0
      | assumption
    | (refine names_trans hL ?_
       try simp only [keyTypes, Nat.reduceMod]
       decide)
    | (refine names_trans hL ?_
       try simp only [keyTypes, Nat.reduceMod]
       refine names_trans (names_of_subset ?_) names_regs_word
       simp
       done)
    | with_reducible first
      | refine names_cons ?_ ?_
      | refine only_ite ?_ ?_
      | refine only_ite_snd ?_ ?_
      | refine only_ite_fst ?_ ?_
      | refine ptpLost_only (hL := ?_) (ho := ?_)
      | refine modTport_only (hL := ?_) (ho := ?_)
      | refine advanceTo_only (hL := ?_) (ho := ?_)
      | refine sampleFails_only (hL := ?_) (ho := ?_)
    | split
    | (with_reducible refine modTime_only (z := [.tports, .clock]) ?_ ?_ ?_ ?_ ?_ ?_ ?_
       · refine names_trans hL ?_
         first | decide | (refine names_of_subset ?_; simp; done)
       iterate 5 · first | with_reducible rfl | (intro _; with_reducible rfl) | exact fun h => not_free h rfl | (intro _; dsimp only; split <;> rfl) | exact rfl | exact fun _ => rfl)
    | dsimp only

theorem execSyncTimeout_only (s : State) : ∃ st', execSyncTimeout s = .next st' ∧ s.onlyChanges st' [.out, .xfers, .lines, .inj, .now, .evts, .clock, .relock, .cmds, .word 0x08 0x100, .hdr 0x30, .pps, .staged, .recs, .hdr 0x58, .tports] := by
  refine ⟨_, rfl, only_start fun hL h0 => ?_⟩
  refine settle_only (names_of_subset (by simp)) ?_
  repeat' first
    | with_reducible first
      | exact h0
      | assumption
    | (refine names_trans hL ?_
       try simp only [keyTypes, Nat.reduceMod]
       decide)
    | with_reducible first
      | refine names_cons ?_ ?_
      | refine only_ite ?_ ?_
      | refine only_ite_snd ?_ ?_
      | refine only_ite_fst ?_ ?_
      | refine advanceTo_only (hL := ?_) (ho := ?_)
      | refine modTport_only (hL := ?_) (ho := ?_)
      | refine masterLost_only (hL := ?_) (ho := ?_)
    | split
    | (with_reducible refine modTime_only (z := [.evts, .clock, .relock, .pps, .tports]) ?_ ?_ ?_ ?_ ?_ ?_ ?_
       · refine names_trans hL ?_
         first | decide | (refine names_of_subset ?_; simp; done)
       iterate 5 · first | with_reducible rfl | (intro _; with_reducible rfl) | exact fun h => not_free h rfl | (intro _; dsimp only; split <;> rfl) | exact rfl | exact fun _ => rfl)
    | dsimp only

theorem execPtpAnnounce_only (port : Nat) (m : PtpMsg) (ann : PtpAnn) (s : State) : ∃ st', execPtpAnnounce port m ann s = .next st' ∧ s.onlyChanges st' [.out, .xfers, .lines, .inj, .regs 0x31, .tports, .evts, .clock, .relock, .cmds, .word 0x08 0x100, .hdr 0x30, .pps, .staged, .recs, .hdr 0x58] := by
  refine ⟨_, rfl, only_start fun hL h0 => ?_⟩
  refine settle_only (names_of_subset (by simp)) ?_
  repeat' first
    | with_reducible first
      | exact h0
      | assumption
    | (refine names_trans hL ?_
       try simp only [keyTypes, Nat.reduceMod]
       decide)
    | (refine names_trans hL ?_
       try simp only [keyTypes, Nat.reduceMod]
       refine names_trans (names_of_subset ?_) names_regs_word
       simp
       done)
    | with_reducible first
      | refine names_cons ?_ ?_
      | refine only_ite ?_ ?_
      | refine only_ite_snd ?_ ?_
      | refine only_ite_fst ?_ ?_
      | refine ptpTake_only (hL := ?_) (h_act := fun u hu => ?_) (ho := ?_)
      | refine modTport_only (hL := ?_) (ho := ?_)
      | refine masterLost_only (hL := ?_) (ho := ?_)
      | refine bmca_only (hL := ?_) (ho := ?_)
      | refine parentData_only (hL := ?_) (ho := ?_)
    | split
    | (with_reducible refine modTime_only (z := [.tports, .evts, .clock, .relock, .pps]) ?_ ?_ ?_ ?_ ?_ ?_ ?_
       · refine names_trans hL ?_
         first | decide | (refine names_of_subset ?_; simp; done)
       iterate 5 · first | with_reducible rfl | (intro _; with_reducible rfl) | exact fun h => not_free h rfl | (intro _; dsimp only; split <;> rfl) | exact rfl | exact fun _ => rfl)
    | dsimp only

theorem execAnnounceTimer_only (port : Nat) (s : State) : ∃ st', execAnnounceTimer port s = .next st' ∧ s.onlyChanges st' [.out, .xfers, .lines, .inj, .tports, .evts, .clock, .relock, .cmds, .word 0x08 0x100, .hdr 0x30, .pps, .staged, .recs, .hdr 0x58, .gens, .mbox] := by
  refine ⟨_, rfl, only_start fun hL h0 => ?_⟩
  refine settle_only (names_of_subset (by simp)) ?_
  repeat' first
    | with_reducible first
      | exact h0
      | assumption
    | (refine names_trans hL ?_
       try simp only [keyTypes, Nat.reduceMod]
       decide)
    | with_reducible first
      | refine names_cons ?_ ?_
      | refine only_ite ?_ ?_
      | refine only_ite_snd ?_ ?_
      | refine only_ite_fst ?_ ?_
      | refine modTport_only (hL := ?_) (ho := ?_)
      | refine bmca_only (hL := ?_) (ho := ?_)
      | refine takeState_only (hL := ?_) (ho := ?_)
      | refine rerole_only (hL := ?_) (ho := ?_)
      | refine ptpSend_only (hL := ?_) (ho := ?_)
    | split
    | (with_reducible refine modTime_only (z := [.tports, .evts, .clock, .relock, .pps]) ?_ ?_ ?_ ?_ ?_ ?_ ?_
       · refine names_trans hL ?_
         first | decide | (refine names_of_subset ?_; simp; done)
       iterate 5 · first | with_reducible rfl | (intro _; with_reducible rfl) | exact fun h => not_free h rfl | (intro _; dsimp only; split <;> rfl) | exact rfl | exact fun _ => rfl)
    | dsimp only

theorem execPpsMiss_only (s : State) : ∃ st', execPpsMiss s = .next st' ∧ s.onlyChanges st' [.out, .xfers, .lines, .inj, .hdr 0x30, .now] := by
  refine ⟨_, rfl, only_start fun hL h0 => ?_⟩
  refine settle_only (names_of_subset (by simp)) ?_
  repeat' first
    | with_reducible first
      | exact h0
      | assumption
    | (refine names_trans hL ?_
       try simp only [keyTypes, Nat.reduceMod]
       decide)
    | with_reducible first
      | refine names_cons ?_ ?_
      | refine only_ite ?_ ?_
      | refine only_ite_snd ?_ ?_
      | refine only_ite_fst ?_ ?_
      | refine timeErr_only (hL := ?_) (ho := ?_)
      | refine advanceTo_only (hL := ?_) (ho := ?_)
    | split
    | dsimp only

theorem execPpsOutPulse_only (s : State) : ∃ st', execPpsOutPulse s = .next st' ∧ s.onlyChanges st' [.out, .xfers, .lines, .inj, .now, .pps] := by
  refine ⟨_, rfl, only_start fun hL h0 => ?_⟩
  refine settle_only (names_of_subset (by simp)) ?_
  repeat' first
    | with_reducible first
      | exact h0
      | assumption
    | (refine names_trans hL ?_
       try simp only [keyTypes, Nat.reduceMod]
       decide)
    | with_reducible first
      | refine names_cons ?_ ?_
      | refine only_ite ?_ ?_
      | refine only_ite_snd ?_ ?_
      | refine only_ite_fst ?_ ?_
      | refine advanceTo_only (hL := ?_) (ho := ?_)
    | split
    | (with_reducible refine modTime_only (z := [.pps]) ?_ ?_ ?_ ?_ ?_ ?_ ?_
       · refine names_trans hL ?_
         first | decide | (refine names_of_subset ?_; simp; done)
       iterate 5 · first | with_reducible rfl | (intro _; with_reducible rfl) | exact fun h => not_free h rfl | (intro _; dsimp only; split <;> rfl) | exact rfl | exact fun _ => rfl)
    | dsimp only

theorem execNoMaster_only (pkg : Bool) (page : BitVec 3) (s : State) : ∃ st', execNoMaster pkg page s = .next st' ∧ s.onlyChanges st' [.out, .xfers, .lines, .inj, .evts, .clock, .relock, .cmds, .word 0x08 0x100, .pps] := by
  refine ⟨_, rfl, only_start fun hL h0 => ?_⟩
  refine settle_only (names_of_subset (by simp)) ?_
  repeat' first
    | with_reducible first
      | exact h0
      | assumption
    | (refine names_trans hL ?_
       try simp only [keyTypes, Nat.reduceMod]
       decide)
    | with_reducible first
      | refine names_cons ?_ ?_
      | refine only_ite ?_ ?_
      | refine only_ite_snd ?_ ?_
      | refine only_ite_fst ?_ ?_
      | refine relockFail_only (hL := ?_) (ho := ?_)
      | refine complete_only (hL := ?_) (ho := ?_)
    | split
    | (with_reducible refine modTime_only (z := [.evts, .clock, .relock, .pps]) ?_ ?_ ?_ ?_ ?_ ?_ ?_
       · refine names_trans hL ?_
         first | decide | (refine names_of_subset ?_; simp; done)
       iterate 5 · first | with_reducible rfl | (intro _; with_reducible rfl) | exact fun h => not_free h rfl | (intro _; dsimp only; split <;> rfl) | exact rfl | exact fun _ => rfl)
    | dsimp only

/-! Links -/

theorem modChan_only {s : State} {c : Nat} {f : Chan → Chan} (hL : names L [.chans] = true) 
    (ho : s0.onlyChanges s L) : s0.onlyChanges (State.modChan s c f) L := by
  unfold State.modChan
  try dsimp only
  repeat' first
    | with_reducible assumption
    | (refine names_trans hL ?_
       try simp only [keyTypes, Nat.reduceMod]
       decide)
    | with_reducible first
      | refine names_cons ?_ ?_
      | refine only_ite ?_ ?_
      | refine only_ite_snd ?_ ?_
      | refine only_ite_fst ?_ ?_
    | split
    | (with_reducible refine only_links (z := [.chans]) ?_ ?_ ?_ ?_ ?_ ?_ ?_
       · refine names_trans hL ?_
         first | decide | (refine names_of_subset ?_; simp; done)
       iterate 5 · first | with_reducible rfl | (intro _; with_reducible rfl) | exact fun h => not_free h rfl | (intro _; dsimp only; split <;> rfl) | exact rfl | exact fun _ => rfl)
    | dsimp only

theorem pushCtl_only {s : State} {c : Nat} {m : LinkCtrl} (hL : names L [.chans] = true) 
    (ho : s0.onlyChanges s L) : s0.onlyChanges (State.pushCtl s c m) L := by
  unfold State.pushCtl
  try dsimp only
  repeat' first
    | with_reducible assumption
    | (refine names_trans hL ?_
       try simp only [keyTypes, Nat.reduceMod]
       decide)
    | with_reducible first
      | refine names_cons ?_ ?_
      | refine only_ite ?_ ?_
      | refine only_ite_snd ?_ ?_
      | refine only_ite_fst ?_ ?_
      | refine modChan_only (hL := ?_) (ho := ?_)
    | split
    | dsimp only

theorem proxyRsp_only {s : State} {p : Nat} {node tag : BitVec 16} {r : Resp} {data : Word} (hL : names L [.mbox] = true) 
    (ho : s0.onlyChanges s L) : s0.onlyChanges (State.proxyRsp s p node tag r data) L := by
  unfold State.proxyRsp
  try dsimp only
  repeat' first
    | with_reducible assumption
    | (refine names_trans hL ?_
       try simp only [keyTypes, Nat.reduceMod]
       decide)
    | with_reducible first
      | refine names_cons ?_ ?_
      | refine only_ite ?_ ?_
      | refine only_ite_snd ?_ ?_
      | refine only_ite_fst ?_ ?_
    | split
    | (with_reducible refine only_mbox (z := [.mbox]) ?_ ?_ ?_
       · refine names_trans hL ?_
         first | decide | (refine names_of_subset ?_; simp; done)
       iterate 1 · first | with_reducible rfl | (intro _; with_reducible rfl) | exact fun h => not_free h rfl | (intro _; dsimp only; split <;> rfl) | exact rfl | exact fun _ => rfl)
    | dsimp only

theorem proxyAnswer_only {s : State} {t : ProxyTag} {r : Resp} {data : Word} (hL : names L [.mbox, .host, .out, .tap] = true) 
    (ho : s0.onlyChanges s L) : s0.onlyChanges (State.proxyAnswer s t r data) L := by
  unfold State.proxyAnswer
  try dsimp only
  repeat' first
    | with_reducible assumption
    | (refine names_trans hL ?_
       try simp only [keyTypes, Nat.reduceMod]
       decide)
    | with_reducible first
      | refine names_cons ?_ ?_
      | refine only_ite ?_ ?_
      | refine only_ite_snd ?_ ?_
      | refine only_ite_fst ?_ ?_
      | refine proxyRsp_only (hL := ?_) (ho := ?_)
      | refine orderAnswer_only (hL := ?_) (ho := ?_)
    | split
    | dsimp only

theorem retryWhere_only {s : State} {f : ProxyTag → Bool} (hL : names L [.mbox, .host, .out, .tap, .proxies] = true) 
    (ho : s0.onlyChanges s L) : s0.onlyChanges (State.retryWhere s f) L := by
  unfold State.retryWhere
  try dsimp only
  repeat' first
    | with_reducible assumption
    | (refine names_trans hL ?_
       try simp only [keyTypes, Nat.reduceMod]
       decide)
    | with_reducible first
      | refine names_cons ?_ ?_
      | refine only_ite ?_ ?_
      | refine only_ite_snd ?_ ?_
      | refine only_ite_fst ?_ ?_
      | refine proxyAnswer_only (hL := ?_) (ho := ?_)
      | refine only_foldl (fun u x hu => ?_) ?_
      | refine only_foldl_snd (fun u x hu => ?_) ?_
      | refine only_foldl_fst (fun u x hu => ?_) ?_
    | split
    | (with_reducible refine modLinks_only (z := [.proxies]) ?_ ?_ ?_ ?_ ?_ ?_ ?_
       · refine names_trans hL ?_
         first | decide | (refine names_of_subset ?_; simp; done)
       iterate 5 · first | with_reducible rfl | (intro _; with_reducible rfl) | exact fun h => not_free h rfl | (intro _; dsimp only; split <;> rfl) | exact rfl | exact fun _ => rfl)
    | dsimp only

theorem retryProxies_only {s : State} {p : Nat} (hL : names L [.mbox, .host, .out, .tap, .proxies] = true) 
    (ho : s0.onlyChanges s L) : s0.onlyChanges (State.retryProxies s p) L := by
  unfold State.retryProxies
  try dsimp only
  repeat' first
    | with_reducible assumption
    | (refine names_trans hL ?_
       try simp only [keyTypes, Nat.reduceMod]
       decide)
    | with_reducible first
      | refine names_cons ?_ ?_
      | refine only_ite ?_ ?_
      | refine only_ite_snd ?_ ?_
      | refine only_ite_fst ?_ ?_
      | refine retryWhere_only (hL := ?_) (ho := ?_)
    | split
    | dsimp only

theorem setQueue_only {s : State} {p cls : Nat} {q : List QFrame} (hL : names L [.ports] = true) 
    (ho : s0.onlyChanges s L) : s0.onlyChanges (State.setQueue s p cls q) L := by
  unfold State.setQueue
  try dsimp only
  repeat' first
    | with_reducible assumption
    | (refine names_trans hL ?_
       try simp only [keyTypes, Nat.reduceMod]
       decide)
    | with_reducible first
      | refine names_cons ?_ ?_
      | refine only_ite ?_ ?_
      | refine only_ite_snd ?_ ?_
      | refine only_ite_fst ?_ ?_
      | refine modPort_only (hL := ?_) (ho := ?_)
    | split
    | dsimp only

theorem enqueue_only {s : State} {p : Nat} {f : QFrame} (hL : names L [.regs 0x93, .regs 0x91, .regs 0x38, .ports] = true) 
    (ho : s0.onlyChanges s L) : s0.onlyChanges (State.enqueue s p f) L := by
  unfold State.enqueue
  try dsimp only
  repeat' first
    | with_reducible assumption
    | (refine names_trans hL ?_
       try simp only [keyTypes, Nat.reduceMod]
       decide)
    | (refine names_trans hL ?_
       try simp only [keyTypes, Nat.reduceMod]
       refine names_trans (names_of_subset ?_) names_regs_word
       simp
       done)
    | (refine names_trans hL ?_
       refine names_trans (names_of_subset ?_) names_port_word
       simp
       done)
    | with_reducible first
      | refine names_cons ?_ ?_
      | refine only_ite ?_ ?_
      | refine only_ite_snd ?_ ?_
      | refine only_ite_fst ?_ ?_
      | refine bumpPort_only (hL := ?_) (ho := ?_)
      | refine setQueue_only (hL := ?_) (ho := ?_)
      | refine modPort_only (hL := ?_) (ho := ?_)
    | split
    | dsimp only

theorem moveFrames_only {s : State} {p dst : Nat} (hL : names L [.regs 0x93, .regs 0x91, .regs 0x38, .mbox, .host, .out, .tap, .proxies, .ports, .chans] = true) 
    (ho : s0.onlyChanges s L) : s0.onlyChanges (State.moveFrames s p dst) L := by
  unfold State.moveFrames
  try dsimp only
  repeat' first
    | with_reducible assumption
    | (refine names_trans hL ?_
       try simp only [keyTypes, Nat.reduceMod]
       decide)
    | (refine names_trans hL ?_
       try simp only [keyTypes, Nat.reduceMod]
       refine names_trans (names_of_subset ?_) names_regs_word
       simp
       done)
    | (refine names_trans hL ?_
       refine names_trans (names_of_subset ?_) names_port_word
       simp
       done)
    | with_reducible first
      | refine names_cons ?_ ?_
      | refine only_ite ?_ ?_
      | refine only_ite_snd ?_ ?_
      | refine only_ite_fst ?_ ?_
      | refine bumpPort_only (hL := ?_) (ho := ?_)
      | refine retryProxies_only (hL := ?_) (ho := ?_)
      | refine modPort_only (hL := ?_) (ho := ?_)
      | refine modChan_only (hL := ?_) (ho := ?_)
      | refine enqueue_only (hL := ?_) (ho := ?_)
      | refine only_foldl (fun u x hu => ?_) ?_
      | refine only_foldl_snd (fun u x hu => ?_) ?_
      | refine only_foldl_fst (fun u x hu => ?_) ?_
    | split
    | dsimp only

theorem portErr_only {s : State} {p b : Nat} (hL : names L [.hdr 0x93, .hdr 0x91, .hdr 0x38] = true) 
    (ho : s0.onlyChanges s L) : s0.onlyChanges (State.portErr s p b) L := by
  unfold State.portErr
  try dsimp only
  repeat' first
    | with_reducible assumption
    | (refine names_trans hL ?_
       try simp only [keyTypes, Nat.reduceMod]
       decide)
    | (refine names_trans hL ?_
       refine names_trans (names_of_subset ?_) names_port_hdr
       simp
       done)
    | with_reducible first
      | refine names_cons ?_ ?_
      | refine only_ite ?_ ?_
      | refine only_ite_snd ?_ ?_
      | refine only_ite_fst ?_ ?_
      | refine setErr_only (hL := ?_) (ho := ?_)
    | split
    | dsimp only

theorem resetChan_only {s : State} {c : Nat} (hL : names L [.chans, .staged, .recs, .hdr 0x58, .regs 0x93, .regs 0x91, .regs 0x38, .violations, .ports, .suspects, .hdr 0x28, .hdr 0x12, .gens, .spares, .probes] = true) 
    (ho : s0.onlyChanges s L) : s0.onlyChanges (State.resetChan s c) L := by
  unfold State.resetChan
  try dsimp only
  repeat' first
    | with_reducible assumption
    | (refine names_trans hL ?_
       try simp only [keyTypes, Nat.reduceMod]
       decide)
    | (refine names_trans hL ?_
       try simp only [keyTypes, Nat.reduceMod]
       refine names_trans (names_of_subset ?_) names_regs_word
       simp
       done)
    | (refine names_trans hL ?_
       refine names_trans (names_of_subset ?_) names_port_word
       simp
       done)
    | with_reducible first
      | refine names_cons ?_ ?_
      | refine only_ite ?_ ?_
      | refine only_ite_snd ?_ ?_
      | refine only_ite_fst ?_ ?_
      | refine modChan_only (hL := ?_) (ho := ?_)
      | refine violate_only (hL := ?_) (ho := ?_)
      | refine only_foldl (fun u x hu => ?_) ?_
      | refine only_foldl_snd (fun u x hu => ?_) ?_
      | refine only_foldl_fst (fun u x hu => ?_) ?_
    | split
    | dsimp only

theorem emitLanes_only {s : State} {p : Nat} {f : Nat → List Byte} (hL : names L [.out] = true) 
    (ho : s0.onlyChanges s L) : s0.onlyChanges (State.emitLanes s p f) L := by
  unfold State.emitLanes
  try dsimp only
  repeat' first
    | with_reducible assumption
    | (refine names_trans hL ?_
       try simp only [keyTypes, Nat.reduceMod]
       decide)
    | with_reducible first
      | refine names_cons ?_ ?_
      | refine only_ite ?_ ?_
      | refine only_ite_snd ?_ ?_
      | refine only_ite_fst ?_ ?_
      | refine emit_only (hL := ?_) (ho := ?_)
      | refine only_foldl (fun u x hu => ?_) ?_
      | refine only_foldl_snd (fun u x hu => ?_) ?_
      | refine only_foldl_fst (fun u x hu => ?_) ?_
    | split
    | dsimp only

theorem startTraining_only {s : State} {p : Nat} (hL : names L [.ports, .out] = true) 
    (ho : s0.onlyChanges s L) : s0.onlyChanges (State.startTraining s p) L := by
  unfold State.startTraining
  try dsimp only
  repeat' first
    | with_reducible assumption
    | (refine names_trans hL ?_
       try simp only [keyTypes, Nat.reduceMod]
       decide)
    | with_reducible first
      | refine names_cons ?_ ?_
      | refine only_ite ?_ ?_
      | refine only_ite_snd ?_ ?_
      | refine only_ite_fst ?_ ?_
      | refine modPort_only (hL := ?_) (ho := ?_)
      | refine emitLanes_only (hL := ?_) (ho := ?_)
      | refine emit_only (hL := ?_) (ho := ?_)
      | refine only_foldl (fun u x hu => ?_) ?_
      | refine only_foldl_snd (fun u x hu => ?_) ?_
      | refine only_foldl_fst (fun u x hu => ?_) ?_
    | split
    | dsimp only

theorem linkReset_only {s : State} {p dst : Nat} (hL : names L [.pace, .regs 0x93, .regs 0x91, .regs 0x38, .mbox, .host, .out, .tap, .proxies, .ports, .chans, .staged, .recs, .hdr 0x58, .violations, .suspects, .hdr 0x28, .hdr 0x12, .gens, .spares, .probes, .linkKeys, .hdr 0x50, .word 0x50 0x5C] = true) 
    (ho : s0.onlyChanges s L) : s0.onlyChanges (State.linkReset s p dst) L := by
  unfold State.linkReset
  try dsimp only
  repeat' first
    | with_reducible assumption
    | (refine names_trans hL ?_
       try simp only [keyTypes, Nat.reduceMod]
       decide)
    | (refine names_trans hL ?_
       try simp only [keyTypes, Nat.reduceMod]
       refine names_trans (names_of_subset ?_) names_regs_word
       simp
       done)
    | (refine names_trans hL ?_
       refine names_trans (names_of_subset ?_) names_port_word
       simp
       done)
    | with_reducible first
      | refine names_cons ?_ ?_
      | refine only_ite ?_ ?_
      | refine only_ite_snd ?_ ?_
      | refine only_ite_fst ?_ ?_
      | refine applySync_only (hL := ?_) (ho := ?_)
      | refine moveFrames_only (hL := ?_) (ho := ?_)
      | refine resetChan_only (hL := ?_) (ho := ?_)
      | refine startTraining_only (hL := ?_) (ho := ?_)
      | refine modPort_only (hL := ?_) (ho := ?_)
      | refine loseBits_only (hL := ?_) (ho := ?_)
      | refine only_foldl (fun u x hu => ?_) ?_
      | refine only_foldl_snd (fun u x hu => ?_) ?_
      | refine only_foldl_fst (fun u x hu => ?_) ?_
    | split
    | (with_reducible refine modRot_only (z := [.linkKeys]) ?_ ?_ ?_ ?_ ?_ ?_ ?_ ?_ ?_ ?_
       · refine names_trans hL ?_
         first | decide | (refine names_of_subset ?_; simp; done)
       iterate 8 · first | with_reducible rfl | (intro _; with_reducible rfl) | exact fun h => not_free h rfl | (intro _; dsimp only; split <;> rfl) | exact rfl | exact fun _ => rfl)
    | (with_reducible refine only_check (z := [.violations, .suspects, .spares]) ?_ ?_ ?_ ?_ ?_ ?_ ?_ ?_ ?_
       · refine names_trans hL ?_
         first | decide | (refine names_of_subset ?_; simp; done)
       iterate 7 · first | with_reducible rfl | (intro _; with_reducible rfl) | exact fun h => not_free h rfl | (intro _; dsimp only; split <;> rfl) | exact rfl | exact fun _ => rfl)
    | dsimp only

theorem linkLog_only {s : State} {p code sev subject arg : Nat} (hL : names L [.staged, .recs, .hdr 0x58] = true) 
    (ho : s0.onlyChanges s L) : s0.onlyChanges (State.linkLog s p code sev subject arg) L := by
  unfold State.linkLog
  try dsimp only
  repeat' first
    | with_reducible assumption
    | (refine names_trans hL ?_
       try simp only [keyTypes, Nat.reduceMod]
       decide)
    | with_reducible first
      | refine names_cons ?_ ?_
      | refine only_ite ?_ ?_
      | refine only_ite_snd ?_ ?_
      | refine only_ite_fst ?_ ?_
      | refine log_only (hL := ?_) (ho := ?_)
    | split
    | dsimp only

theorem sendNak_only {s : State} {c why : Nat} (hL : names L [.chans] = true) 
    (ho : s0.onlyChanges s L) : s0.onlyChanges (State.sendNak s c why) L := by
  unfold State.sendNak
  try dsimp only
  repeat' first
    | with_reducible assumption
    | (refine names_trans hL ?_
       try simp only [keyTypes, Nat.reduceMod]
       decide)
    | with_reducible first
      | refine names_cons ?_ ?_
      | refine only_ite ?_ ?_
      | refine only_ite_snd ?_ ?_
      | refine only_ite_fst ?_ ?_
      | refine pushCtl_only (hL := ?_) (ho := ?_)
      | refine modChan_only (hL := ?_) (ho := ?_)
    | split
    | dsimp only

theorem takeAck_only {s : State} {c : Nat} {ack : BitVec 16} (hL : names L [.chans] = true) 
    (ho : s0.onlyChanges s L) : s0.onlyChanges (State.takeAck s c ack) L := by
  unfold State.takeAck
  try dsimp only
  repeat' first
    | with_reducible assumption
    | (refine names_trans hL ?_
       try simp only [keyTypes, Nat.reduceMod]
       decide)
    | with_reducible first
      | refine names_cons ?_ ?_
      | refine only_ite ?_ ?_
      | refine only_ite_snd ?_ ?_
      | refine only_ite_fst ?_ ?_
      | refine modChan_only (hL := ?_) (ho := ?_)
    | split
    | dsimp only

theorem enqueueMsg_only {s : State} {p : Nat} {m : Msg} (hL : names L [.regs 0x93, .regs 0x91, .regs 0x38, .ports] = true) 
    (ho : s0.onlyChanges s L) : s0.onlyChanges (State.enqueueMsg s p m) L := by
  unfold State.enqueueMsg
  try dsimp only
  repeat' first
    | with_reducible assumption
    | (refine names_trans hL ?_
       try simp only [keyTypes, Nat.reduceMod]
       decide)
    | (refine names_trans hL ?_
       try simp only [keyTypes, Nat.reduceMod]
       refine names_trans (names_of_subset ?_) names_regs_word
       simp
       done)
    | (refine names_trans hL ?_
       refine names_trans (names_of_subset ?_) names_port_word
       simp
       done)
    | with_reducible first
      | refine names_cons ?_ ?_
      | refine only_ite ?_ ?_
      | refine only_ite_snd ?_ ?_
      | refine only_ite_fst ?_ ?_
      | refine enqueue_only (hL := ?_) (ho := ?_)
      | refine only_foldl (fun u x hu => ?_) ?_
      | refine only_foldl_snd (fun u x hu => ?_) ?_
      | refine only_foldl_fst (fun u x hu => ?_) ?_
    | split
    | dsimp only

/-! LinkRx -/

theorem spareLost_only {s : State} {p l : Nat} {down : Bool} (hL : names L [.hdr 0x93, .hdr 0x91, .hdr 0x38, .mbox, .staged, .recs, .hdr 0x58, .ports] = true) 
    (ho : s0.onlyChanges s L) : s0.onlyChanges (State.spareLost s p l down) L := by
  unfold State.spareLost
  try dsimp only
  repeat' first
    | with_reducible assumption
    | (refine names_trans hL ?_
       try simp only [keyTypes, Nat.reduceMod]
       decide)
    | (refine names_trans hL ?_
       refine names_trans (names_of_subset ?_) names_port_hdr
       simp
       done)
    | with_reducible first
      | refine names_cons ?_ ?_
      | refine only_ite ?_ ?_
      | refine only_ite_snd ?_ ?_
      | refine only_ite_fst ?_ ?_
      | refine portErr_only (hL := ?_) (ho := ?_)
      | refine replaceTray_only (hL := ?_) (ho := ?_)
      | refine modPort_only (hL := ?_) (ho := ?_)
      | refine linkLog_only (hL := ?_) (ho := ?_)
    | split
    | dsimp only

theorem sendSwap_only {s : State} {p : Nat} {w : Swap} (hL : names L [.chans] = true) 
    (ho : s0.onlyChanges s L) : s0.onlyChanges (State.sendSwap s p w) L := by
  unfold State.sendSwap
  try dsimp only
  repeat' first
    | with_reducible assumption
    | (refine names_trans hL ?_
       try simp only [keyTypes, Nat.reduceMod]
       decide)
    | with_reducible first
      | refine names_cons ?_ ?_
      | refine only_ite ?_ ?_
      | refine only_ite_snd ?_ ?_
      | refine only_ite_fst ?_ ?_
      | refine pushCtl_only (hL := ?_) (ho := ?_)
    | split
    | dsimp only

theorem laneFail_only {s : State} {p l cause : Nat} (hL : names L [.ports, .hdr 0x93, .hdr 0x91, .hdr 0x38, .mbox, .staged, .recs, .hdr 0x58, .chans, .hdr 0x12, .gens, .spares] = true) 
    (ho : s0.onlyChanges s L) : s0.onlyChanges (State.laneFail s p l cause) L := by
  unfold State.laneFail
  try dsimp only
  repeat' first
    | with_reducible assumption
    | (refine names_trans hL ?_
       try simp only [keyTypes, Nat.reduceMod]
       decide)
    | (refine names_trans hL ?_
       refine names_trans (names_of_subset ?_) names_port_hdr
       simp
       done)
    | with_reducible first
      | refine names_cons ?_ ?_
      | refine only_ite ?_ ?_
      | refine only_ite_snd ?_ ?_
      | refine only_ite_fst ?_ ?_
      | refine modPort_only (hL := ?_) (ho := ?_)
      | refine spareLost_only (hL := ?_) (ho := ?_)
      | refine sendSwap_only (hL := ?_) (ho := ?_)
      | refine linkLog_only (hL := ?_) (ho := ?_)
      | refine portErr_only (hL := ?_) (ho := ?_)
      | refine spareAdd_only (hL := ?_) (ho := ?_)
    | split
    | dsimp only

theorem police_only {s : State} {p cls : Nat} {src : BitVec 16} {len : Nat} (hL : names L [.ports, .hdr 0x93, .hdr 0x91, .hdr 0x38, .regs 0x93, .regs 0x91, .regs 0x38] = true) 
    (ho : s0.onlyChanges s L) : s0.onlyChanges (State.police s p cls src len).2 L := by
  unfold State.police
  try dsimp only
  repeat' first
    | with_reducible assumption
    | (refine names_trans hL ?_
       try simp only [keyTypes, Nat.reduceMod]
       decide)
    | (refine names_trans hL ?_
       try simp only [keyTypes, Nat.reduceMod]
       refine names_trans (names_of_subset ?_) names_regs_word
       simp
       done)
    | (refine names_trans hL ?_
       refine names_trans (names_of_subset ?_) names_port_word
       simp
       done)
    | (refine names_trans hL ?_
       refine names_trans (names_of_subset ?_) names_port_hdr
       simp
       done)
    | with_reducible first
      | refine names_cons ?_ ?_
      | refine only_ite ?_ ?_
      | refine only_ite_snd ?_ ?_
      | refine only_ite_fst ?_ ?_
      | refine modPort_only (hL := ?_) (ho := ?_)
      | refine portErr_only (hL := ?_) (ho := ?_)
      | refine bumpPort_only (hL := ?_) (ho := ?_)
      | refine only_foldl (fun u x hu => ?_) ?_
      | refine only_foldl_snd (fun u x hu => ?_) ?_
      | refine only_foldl_fst (fun u x hu => ?_) ?_
    | split
    | dsimp only

theorem snuffHold_only {s : State} {p c : Nat} {h : RxHeader} {payload b : List Byte} (hL : names L [.snuff, .hdr 0x61] = true) 
    (ho : s0.onlyChanges s L) : s0.onlyChanges (State.snuffHold s p c h payload b) L := by
  unfold State.snuffHold
  try dsimp only
  repeat' first
    | with_reducible assumption
    | (refine names_trans hL ?_
       try simp only [keyTypes, Nat.reduceMod]
       decide)
    | with_reducible first
      | refine names_cons ?_ ?_
      | refine only_ite ?_ ?_
      | refine only_ite_snd ?_ ?_
      | refine only_ite_fst ?_ ?_
      | refine setErr_only (hL := ?_) (ho := ?_)
    | split
    | (with_reducible refine only_snuff (z := [.snuff]) ?_ ?_ ?_
       · refine names_trans hL ?_
         first | decide | (refine names_of_subset ?_; simp; done)
       iterate 1 · first | with_reducible rfl | (intro _; with_reducible rfl) | exact fun h => not_free h rfl | (intro _; dsimp only; split <;> rfl) | exact rfl | exact fun _ => rfl)
    | dsimp only

theorem sinterIn_only {s : State} {p c : Nat} {h : RxHeader} {payload : List Byte} (hL : names L [.staged, .recs, .hdr 0x58, .regs 0x93, .regs 0x91, .regs 0x38, .violations, .ports, .suspects, .hdr 0x28, .hdr 0x12, .gens, .spares, .probes, .sinter] = true) 
    (ho : s0.onlyChanges s L) : s0.onlyChanges (State.sinterIn s p c h payload) L := by
  unfold State.sinterIn
  try dsimp only
  repeat' first
    | with_reducible assumption
    | (refine names_trans hL ?_
       try simp only [keyTypes, Nat.reduceMod]
       decide)
    | (refine names_trans hL ?_
       try simp only [keyTypes, Nat.reduceMod]
       refine names_trans (names_of_subset ?_) names_regs_word
       simp
       done)
    | (refine names_trans hL ?_
       refine names_trans (names_of_subset ?_) names_port_word
       simp
       done)
    | with_reducible first
      | refine names_cons ?_ ?_
      | refine only_ite ?_ ?_
      | refine only_ite_snd ?_ ?_
      | refine only_ite_fst ?_ ?_
      | refine violate_only (hL := ?_) (ho := ?_)
      | refine bumpPort_only (hL := ?_) (ho := ?_)
    | split
    | (with_reducible refine only_sinter (z := [.sinter]) ?_ ?_ ?_
       · refine names_trans hL ?_
         first | decide | (refine names_of_subset ?_; simp; done)
       iterate 1 · first | with_reducible rfl | (intro _; with_reducible rfl) | exact fun h => not_free h rfl | (intro _; dsimp only; split <;> rfl) | exact rfl | exact fun _ => rfl)
    | dsimp only

theorem gatherStep_only {s : State} {p c : Nat} {h : RxHeader} {payload : List Byte} (hL : names L [.chans, .staged, .recs, .hdr 0x58, .regs 0x93, .regs 0x91, .regs 0x38, .violations, .ports, .suspects, .hdr 0x28, .hdr 0x12, .gens, .spares, .probes] = true) 
    (ho : s0.onlyChanges s L) : s0.onlyChanges (State.gatherStep s p c h payload).1 L := by
  unfold State.gatherStep
  try dsimp only
  repeat' first
    | with_reducible assumption
    | (refine names_trans hL ?_
       try simp only [keyTypes, Nat.reduceMod]
       decide)
    | (refine names_trans hL ?_
       try simp only [keyTypes, Nat.reduceMod]
       refine names_trans (names_of_subset ?_) names_regs_word
       simp
       done)
    | (refine names_trans hL ?_
       refine names_trans (names_of_subset ?_) names_port_word
       simp
       done)
    | with_reducible first
      | refine names_cons ?_ ?_
      | refine only_ite ?_ ?_
      | refine only_ite_snd ?_ ?_
      | refine only_ite_fst ?_ ?_
      | refine modChan_only (hL := ?_) (ho := ?_)
      | refine violate_only (hL := ?_) (ho := ?_)
    | split
    | dsimp only

theorem forward_only {s : State} {p q : Nat} {m : Msg} (hL : names L [.ports, .regs 0x93, .regs 0x91, .regs 0x38] = true) 
    (ho : s0.onlyChanges s L) : s0.onlyChanges (State.forward s p q m) L := by
  unfold State.forward
  try dsimp only
  repeat' first
    | with_reducible assumption
    | (refine names_trans hL ?_
       try simp only [keyTypes, Nat.reduceMod]
       decide)
    | (refine names_trans hL ?_
       try simp only [keyTypes, Nat.reduceMod]
       refine names_trans (names_of_subset ?_) names_regs_word
       simp
       done)
    | (refine names_trans hL ?_
       refine names_trans (names_of_subset ?_) names_port_word
       simp
       done)
    | with_reducible first
      | refine names_cons ?_ ?_
      | refine only_ite ?_ ?_
      | refine only_ite_snd ?_ ?_
      | refine only_ite_fst ?_ ?_
      | refine modPort_only (hL := ?_) (ho := ?_)
      | refine enqueueMsg_only (hL := ?_) (ho := ?_)
    | split
    | dsimp only

theorem relay_only {s : State} {p c : Nat} {h : RxHeader} {dest : Dest} {payload : List Byte} (hL : names L [.chans, .staged, .recs, .hdr 0x58, .regs 0x93, .regs 0x91, .regs 0x38, .violations, .ports, .suspects, .hdr 0x28, .hdr 0x12, .gens, .spares, .probes] = true)
    (ho : s0.onlyChanges s L) : s0.onlyChanges (State.relay s p c h dest payload) L := by
  unfold State.relay
  have k : s0.onlyChanges (s.gatherStep p c h payload).1 L := by
    refine gatherStep_only (hL := names_trans hL ?_) (ho := ho)
    decide
  generalize s.gatherStep p c h payload = r at k
  obtain ⟨s', b⟩ := r
  dsimp only at k
  cases b <;> dsimp only
  · exact k
  repeat' first
    | with_reducible assumption
    | (refine names_trans hL ?_
       try simp only [keyTypes, Nat.reduceMod]
       decide)
    | (refine names_trans hL ?_
       try simp only [keyTypes, Nat.reduceMod]
       refine names_trans (names_of_subset ?_) names_regs_word
       simp
       done)
    | (refine names_trans hL ?_
       refine names_trans (names_of_subset ?_) names_port_word
       simp
       done)
    | with_reducible first
      | refine names_cons ?_ ?_
      | refine only_ite ?_ ?_
      | refine only_ite_snd ?_ ?_
      | refine only_ite_fst ?_ ?_
      | refine gatherStep_only (hL := ?_) (ho := ?_)
      | refine forward_only (hL := ?_) (ho := ?_)
      | refine only_foldl (fun u x hu => ?_) ?_
      | refine only_foldl_snd (fun u x hu => ?_) ?_
      | refine only_foldl_fst (fun u x hu => ?_) ?_
    | split
    | dsimp only
    | with_reducible refine only_of_pair (by assumption) ?_

theorem ptpOther_only {s : State} {p : Nat} {b : List Byte} (hL : names L [.regs 0x31] = true) 
    (ho : s0.onlyChanges s L) : s0.onlyChanges (State.ptpOther s p b) L := by
  unfold State.ptpOther
  try dsimp only
  repeat' first
    | with_reducible assumption
    | (refine names_trans hL ?_
       try simp only [keyTypes, Nat.reduceMod]
       decide)
    | (refine names_trans hL ?_
       try simp only [keyTypes, Nat.reduceMod]
       refine names_trans (names_of_subset ?_) names_regs_word
       simp
       done)
    | with_reducible first
      | refine names_cons ?_ ?_
      | refine only_ite ?_ ?_
      | refine only_ite_snd ?_ ?_
      | refine only_ite_fst ?_ ?_
      | refine ptpIgnored_only (hL := ?_) (ho := ?_)
    | split
    | dsimp only

theorem gather_only {s : State} {p c : Nat} {h : RxHeader} {payload : List Byte} (hL : names L [.chans, .staged, .recs, .hdr 0x58, .regs 0x93, .regs 0x91, .regs 0x38, .violations, .ports, .suspects, .hdr 0x28, .hdr 0x12, .gens, .spares, .probes, .regs 0x31] = true)
    (ho : s0.onlyChanges s L) : s0.onlyChanges (State.gather s p c h payload) L := by
  unfold State.gather
  have k : s0.onlyChanges (s.gatherStep p c h payload).1 L := by
    refine gatherStep_only (hL := names_trans hL ?_) (ho := ho)
    decide
  generalize s.gatherStep p c h payload = r at k
  obtain ⟨s', b⟩ := r
  dsimp only at k
  cases b <;> dsimp only
  · exact k
  repeat' first
    | with_reducible assumption
    | (refine names_trans hL ?_
       try simp only [keyTypes, Nat.reduceMod]
       decide)
    | (refine names_trans hL ?_
       try simp only [keyTypes, Nat.reduceMod]
       refine names_trans (names_of_subset ?_) names_regs_word
       simp
       done)
    | (refine names_trans hL ?_
       refine names_trans (names_of_subset ?_) names_port_word
       simp
       done)
    | with_reducible first
      | refine names_cons ?_ ?_
      | refine only_ite ?_ ?_
      | refine only_ite_snd ?_ ?_
      | refine only_ite_fst ?_ ?_
      | refine gatherStep_only (hL := ?_) (ho := ?_)
      | refine ptpOther_only (hL := ?_) (ho := ?_)
    | split
    | dsimp only
    | with_reducible refine only_of_pair (by assumption) ?_

theorem setParts_only {s : State} {c cls : Nat} {l : List Msg} (hL : names L [.chans] = true) 
    (ho : s0.onlyChanges s L) : s0.onlyChanges (State.setParts s c cls l) L := by
  unfold State.setParts
  try dsimp only
  repeat' first
    | with_reducible assumption
    | (refine names_trans hL ?_
       try simp only [keyTypes, Nat.reduceMod]
       decide)
    | with_reducible first
      | refine names_cons ?_ ?_
      | refine only_ite ?_ ?_
      | refine only_ite_snd ?_ ?_
      | refine only_ite_fst ?_ ?_
      | refine modChan_only (hL := ?_) (ho := ?_)
    | split
    | dsimp only

theorem relaySz_only {s : State} {p c : Nat} {h : RxHeader} {m : Msg} (hL : names L [.staged, .recs, .hdr 0x58, .regs 0x93, .regs 0x91, .regs 0x38, .violations, .ports, .suspects, .hdr 0x28, .hdr 0x12, .gens, .spares, .probes, .chans] = true) 
    (ho : s0.onlyChanges s L) : s0.onlyChanges (State.relaySz s p c h m) L := by
  unfold State.relaySz
  try dsimp only
  repeat' first
    | with_reducible assumption
    | (refine names_trans hL ?_
       try simp only [keyTypes, Nat.reduceMod]
       decide)
    | (refine names_trans hL ?_
       try simp only [keyTypes, Nat.reduceMod]
       refine names_trans (names_of_subset ?_) names_regs_word
       simp
       done)
    | (refine names_trans hL ?_
       refine names_trans (names_of_subset ?_) names_port_word
       simp
       done)
    | with_reducible first
      | refine names_cons ?_ ?_
      | refine only_ite ?_ ?_
      | refine only_ite_snd ?_ ?_
      | refine only_ite_fst ?_ ?_
      | refine violate_only (hL := ?_) (ho := ?_)
      | refine setParts_only (hL := ?_) (ho := ?_)
      | refine forward_only (hL := ?_) (ho := ?_)
      | refine only_foldl (fun u x hu => ?_) ?_
      | refine only_foldl_snd (fun u x hu => ?_) ?_
      | refine only_foldl_fst (fun u x hu => ?_) ?_
    | split
    | dsimp only

theorem dispatch_only {s : State} {p c : Nat} {h : RxHeader} {payload : List Byte} {dead : Bool} {raw : List Byte} (hL : names L [.staged, .recs, .hdr 0x58, .regs 0x93, .regs 0x91, .regs 0x38, .violations, .ports, .suspects, .hdr 0x28, .hdr 0x12, .gens, .spares, .probes, .sinter, .chans, .regs 0x31, .word 0x40 0x54] = true) 
    (ho : s0.onlyChanges s L) : s0.onlyChanges (State.dispatch s p c h payload dead raw) L := by
  unfold State.dispatch
  try dsimp only
  repeat' first
    | with_reducible assumption
    | (refine names_trans hL ?_
       try simp only [keyTypes, Nat.reduceMod]
       decide)
    | (refine names_trans hL ?_
       try simp only [keyTypes, Nat.reduceMod]
       refine names_trans (names_of_subset ?_) names_regs_word
       simp
       done)
    | (refine names_trans hL ?_
       refine names_trans (names_of_subset ?_) names_port_word
       simp
       done)
    | with_reducible first
      | refine names_cons ?_ ?_
      | refine only_ite ?_ ?_
      | refine only_ite_snd ?_ ?_
      | refine only_ite_fst ?_ ?_
      | refine sinterIn_only (hL := ?_) (ho := ?_)
      | refine relay_only (hL := ?_) (ho := ?_)
      | refine gather_only (hL := ?_) (ho := ?_)
      | refine violate_only (hL := ?_) (ho := ?_)
      | refine bumpFld_only (hL := ?_) (ho := ?_)
      | refine relaySz_only (hL := ?_) (ho := ?_)
    | split
    | dsimp only

theorem arrive_only {s : State} {p c : Nat} {h : RxHeader} {payload : List Byte} {dead : Bool} {raw : List Byte} (hL : names L [.snuff, .hdr 0x61, .staged, .recs, .hdr 0x58, .regs 0x93, .regs 0x91, .regs 0x38, .violations, .ports, .suspects, .hdr 0x28, .hdr 0x12, .gens, .spares, .probes, .sinter, .chans, .regs 0x31, .word 0x40 0x54] = true) 
    (ho : s0.onlyChanges s L) : s0.onlyChanges (State.arrive s p c h payload dead raw) L := by
  unfold State.arrive
  try dsimp only
  repeat' first
    | with_reducible assumption
    | (refine names_trans hL ?_
       try simp only [keyTypes, Nat.reduceMod]
       decide)
    | (refine names_trans hL ?_
       try simp only [keyTypes, Nat.reduceMod]
       refine names_trans (names_of_subset ?_) names_regs_word
       simp
       done)
    | (refine names_trans hL ?_
       refine names_trans (names_of_subset ?_) names_port_word
       simp
       done)
    | with_reducible first
      | refine names_cons ?_ ?_
      | refine only_ite ?_ ?_
      | refine only_ite_snd ?_ ?_
      | refine only_ite_fst ?_ ?_
      | refine snuffHold_only (hL := ?_) (ho := ?_)
      | refine dispatch_only (hL := ?_) (ho := ?_)
    | split
    | dsimp only

theorem frameReceive_only {s : State} {p : Nat} {dead : BitVec 16 → Nat → Bool} (hL : names L [.ports, .staged, .recs, .hdr 0x58, .regs 0x93, .regs 0x91, .regs 0x38, .violations, .suspects, .hdr 0x28, .hdr 0x12, .gens, .spares, .probes, .chans, .hdr 0x93, .hdr 0x91, .hdr 0x38, .snuff, .hdr 0x61, .sinter, .regs 0x31, .word 0x40 0x54] = true) 
    (ho : s0.onlyChanges s L) : s0.onlyChanges (State.frameReceive s p dead) L := by
  unfold State.frameReceive
  try dsimp only
  repeat' first
    | with_reducible assumption
    | (refine names_trans hL ?_
       try simp only [keyTypes, Nat.reduceMod]
       decide)
    | (refine names_trans hL ?_
       try simp only [keyTypes, Nat.reduceMod]
       refine names_trans (names_of_subset ?_) names_regs_word
       simp
       done)
    | (refine names_trans hL ?_
       refine names_trans (names_of_subset ?_) names_port_word
       simp
       done)
    | (refine names_trans hL ?_
       refine names_trans (names_of_subset ?_) names_port_hdr
       simp
       done)
    | with_reducible first
      | refine names_cons ?_ ?_
      | refine only_ite ?_ ?_
      | refine only_ite_snd ?_ ?_
      | refine only_ite_fst ?_ ?_
      | refine modPort_only (hL := ?_) (ho := ?_)
      | refine violate_only (hL := ?_) (ho := ?_)
      | refine sendNak_only (hL := ?_) (ho := ?_)
      | refine modChan_only (hL := ?_) (ho := ?_)
      | refine takeAck_only (hL := ?_) (ho := ?_)
      | refine portErr_only (hL := ?_) (ho := ?_)
      | refine police_only (hL := ?_) (ho := ?_)
      | refine arrive_only (hL := ?_) (ho := ?_)
    | split
    | dsimp only

theorem takeStream_only {s : State} {p : Nat} {data : List Byte} (hL : names L [.ports, .staged, .recs, .hdr 0x58, .regs 0x93, .regs 0x91, .regs 0x38, .violations, .suspects, .hdr 0x28, .hdr 0x12, .gens, .spares, .probes, .chans] = true) 
    (ho : s0.onlyChanges s L) : s0.onlyChanges (State.takeStream s p data) L := by
  unfold State.takeStream
  try dsimp only
  repeat' first
    | with_reducible assumption
    | (refine names_trans hL ?_
       try simp only [keyTypes, Nat.reduceMod]
       decide)
    | (refine names_trans hL ?_
       try simp only [keyTypes, Nat.reduceMod]
       refine names_trans (names_of_subset ?_) names_regs_word
       simp
       done)
    | (refine names_trans hL ?_
       refine names_trans (names_of_subset ?_) names_port_word
       simp
       done)
    | with_reducible first
      | refine names_cons ?_ ?_
      | refine only_ite ?_ ?_
      | refine only_ite_snd ?_ ?_
      | refine only_ite_fst ?_ ?_
      | refine modPort_only (hL := ?_) (ho := ?_)
      | refine violate_only (hL := ?_) (ho := ?_)
      | refine sendNak_only (hL := ?_) (ho := ?_)
      | refine only_foldl (fun u x hu => ?_) ?_
      | refine only_foldl_snd (fun u x hu => ?_) ?_
      | refine only_foldl_fst (fun u x hu => ?_) ?_
    | split
    | dsimp only

theorem codewordBad_only {s : State} {p : Nat} (hL : names L [.chans, .hdr 0x93, .hdr 0x91, .hdr 0x38, .regs 0x93, .regs 0x91, .regs 0x38, .ports] = true) 
    (ho : s0.onlyChanges s L) : s0.onlyChanges (State.codewordBad s p) L := by
  unfold State.codewordBad
  try dsimp only
  repeat' first
    | with_reducible assumption
    | (refine names_trans hL ?_
       try simp only [keyTypes, Nat.reduceMod]
       decide)
    | (refine names_trans hL ?_
       try simp only [keyTypes, Nat.reduceMod]
       refine names_trans (names_of_subset ?_) names_regs_word
       simp
       done)
    | (refine names_trans hL ?_
       refine names_trans (names_of_subset ?_) names_port_word
       simp
       done)
    | (refine names_trans hL ?_
       refine names_trans (names_of_subset ?_) names_port_hdr
       simp
       done)
    | with_reducible first
      | refine names_cons ?_ ?_
      | refine only_ite ?_ ?_
      | refine only_ite_snd ?_ ?_
      | refine only_ite_fst ?_ ?_
      | refine sendNak_only (hL := ?_) (ho := ?_)
      | refine portErr_only (hL := ?_) (ho := ?_)
      | refine bumpPort_only (hL := ?_) (ho := ?_)
      | refine modPort_only (hL := ?_) (ho := ?_)
    | split
    | dsimp only

theorem laneErrors_only {s : State} {p : Nat} {places : List Nat} (hL : names L [.ports, .hdr 0x93, .hdr 0x91, .hdr 0x38, .mbox, .staged, .recs, .hdr 0x58, .chans, .hdr 0x12, .gens, .spares] = true) 
    (ho : s0.onlyChanges s L) : s0.onlyChanges (State.laneErrors s p places) L := by
  unfold State.laneErrors
  try dsimp only
  repeat' first
    | with_reducible assumption
    | (refine names_trans hL ?_
       try simp only [keyTypes, Nat.reduceMod]
       decide)
    | (refine names_trans hL ?_
       refine names_trans (names_of_subset ?_) names_port_hdr
       simp
       done)
    | with_reducible first
      | refine names_cons ?_ ?_
      | refine only_ite ?_ ?_
      | refine only_ite_snd ?_ ?_
      | refine only_ite_fst ?_ ?_
      | refine modPort_only (hL := ?_) (ho := ?_)
      | refine laneFail_only (hL := ?_) (ho := ?_)
      | refine only_foldl (fun u x hu => ?_) ?_
      | refine only_foldl_snd (fun u x hu => ?_) ?_
      | refine only_foldl_fst (fun u x hu => ?_) ?_
    | split
    | dsimp only

theorem rxSwitch_only {s : State} {p : Nat} (hL : names L [.ports] = true) 
    (ho : s0.onlyChanges s L) : s0.onlyChanges (State.rxSwitch s p) L := by
  unfold State.rxSwitch
  try dsimp only
  repeat' first
    | with_reducible assumption
    | (refine names_trans hL ?_
       try simp only [keyTypes, Nat.reduceMod]
       decide)
    | with_reducible first
      | refine names_cons ?_ ?_
      | refine only_ite ?_ ?_
      | refine only_ite_snd ?_ ?_
      | refine only_ite_fst ?_ ?_
      | refine modPort_only (hL := ?_) (ho := ?_)
    | split
    | dsimp only

theorem codeword_only {s : State} {p : Nat} {lanes : List (List Byte)} (hL : names L [.ports, .hdr 0x93, .hdr 0x91, .hdr 0x38, .mbox, .staged, .recs, .hdr 0x58, .chans, .hdr 0x12, .gens, .spares, .regs 0x93, .regs 0x91, .regs 0x38, .violations, .suspects, .hdr 0x28, .probes] = true) 
    (ho : s0.onlyChanges s L) : s0.onlyChanges (State.codeword s p lanes) L := by
  unfold State.codeword
  try dsimp only
  repeat' first
    | with_reducible assumption
    | (refine names_trans hL ?_
       try simp only [keyTypes, Nat.reduceMod]
       decide)
    | (refine names_trans hL ?_
       try simp only [keyTypes, Nat.reduceMod]
       refine names_trans (names_of_subset ?_) names_regs_word
       simp
       done)
    | (refine names_trans hL ?_
       refine names_trans (names_of_subset ?_) names_port_word
       simp
       done)
    | (refine names_trans hL ?_
       refine names_trans (names_of_subset ?_) names_port_hdr
       simp
       done)
    | with_reducible first
      | refine names_cons ?_ ?_
      | refine only_ite ?_ ?_
      | refine only_ite_snd ?_ ?_
      | refine only_ite_fst ?_ ?_
      | refine rxSwitch_only (hL := ?_) (ho := ?_)
      | refine modPort_only (hL := ?_) (ho := ?_)
      | refine laneErrors_only (hL := ?_) (ho := ?_)
      | refine bumpPort_only (hL := ?_) (ho := ?_)
      | refine takeStream_only (hL := ?_) (ho := ?_)
      | refine codewordBad_only (hL := ?_) (ho := ?_)
    | split
    | dsimp only

theorem emitMarkers_only {s : State} {p : Nat} (hL : names L [.out] = true) 
    (ho : s0.onlyChanges s L) : s0.onlyChanges (State.emitMarkers s p) L := by
  unfold State.emitMarkers
  try dsimp only
  repeat' first
    | with_reducible assumption
    | (refine names_trans hL ?_
       try simp only [keyTypes, Nat.reduceMod]
       decide)
    | with_reducible first
      | refine names_cons ?_ ?_
      | refine only_ite ?_ ?_
      | refine only_ite_snd ?_ ?_
      | refine only_ite_fst ?_ ?_
      | refine emitLanes_only (hL := ?_) (ho := ?_)
    | split
    | dsimp only

theorem answerSwap_only {s : State} {p : Nat} {m : LinkCtrl} (hL : names L [.chans, .ports] = true) 
    (ho : s0.onlyChanges s L) : s0.onlyChanges (State.answerSwap s p m) L := by
  unfold State.answerSwap
  try dsimp only
  repeat' first
    | with_reducible assumption
    | (refine names_trans hL ?_
       try simp only [keyTypes, Nat.reduceMod]
       decide)
    | with_reducible first
      | refine names_cons ?_ ?_
      | refine only_ite ?_ ?_
      | refine only_ite_snd ?_ ?_
      | refine only_ite_fst ?_ ?_
      | refine pushCtl_only (hL := ?_) (ho := ?_)
      | refine modPort_only (hL := ?_) (ho := ?_)
    | split
    | dsimp only

theorem takeNak_only {s : State} {c : Nat} {m : LinkCtrl} (hL : names L [.staged, .recs, .hdr 0x58, .hdr 0x93, .hdr 0x91, .hdr 0x38, .chans, .regs 0x93, .regs 0x91, .regs 0x38] = true) 
    (ho : s0.onlyChanges s L) : s0.onlyChanges (State.takeNak s c m) L := by
  unfold State.takeNak
  try dsimp only
  repeat' first
    | with_reducible assumption
    | (refine names_trans hL ?_
       try simp only [keyTypes, Nat.reduceMod]
       decide)
    | (refine names_trans hL ?_
       try simp only [keyTypes, Nat.reduceMod]
       refine names_trans (names_of_subset ?_) names_regs_word
       simp
       done)
    | (refine names_trans hL ?_
       refine names_trans (names_of_subset ?_) names_port_word
       simp
       done)
    | (refine names_trans hL ?_
       refine names_trans (names_of_subset ?_) names_port_hdr
       simp
       done)
    | with_reducible first
      | refine names_cons ?_ ?_
      | refine only_ite ?_ ?_
      | refine only_ite_snd ?_ ?_
      | refine only_ite_fst ?_ ?_
      | refine linkLog_only (hL := ?_) (ho := ?_)
      | refine portErr_only (hL := ?_) (ho := ?_)
      | refine modChan_only (hL := ?_) (ho := ?_)
      | refine bumpPort_only (hL := ?_) (ho := ?_)
    | split
    | dsimp only

theorem learnNode_only {s : State} {p : Nat} {dst : BitVec 16} (hL : names L [.links] = true) 
    (ho : s0.onlyChanges s L) : s0.onlyChanges (State.learnNode s p dst) L := by
  unfold State.learnNode
  try dsimp only
  repeat' first
    | with_reducible assumption
    | (refine names_trans hL ?_
       try simp only [keyTypes, Nat.reduceMod]
       decide)
    | with_reducible first
      | refine names_cons ?_ ?_
      | refine only_ite ?_ ?_
      | refine only_ite_snd ?_ ?_
      | refine only_ite_fst ?_ ?_
    | split
    | (with_reducible refine modLinks_only (z := [.links]) ?_ ?_ ?_ ?_ ?_ ?_ ?_
       · refine names_trans hL ?_
         first | decide | (refine names_of_subset ?_; simp; done)
       iterate 5 · first | with_reducible rfl | (intro _; with_reducible rfl) | exact fun h => not_free h rfl | (intro _; dsimp only; split <;> rfl) | exact rfl | exact fun _ => rfl)
    | dsimp only

theorem linkCtrl_only {s : State} {c : Nat} {dst ack : BitVec 16} {m : LinkCtrl} (hL : names L [.chans, .links, .pkg, .ports, .staged, .recs, .hdr 0x58, .regs 0x93, .regs 0x91, .regs 0x38, .violations, .suspects, .hdr 0x28, .hdr 0x12, .gens, .spares, .probes, .hdr 0x93, .hdr 0x91, .hdr 0x38] = true) 
    (ho : s0.onlyChanges s L) : s0.onlyChanges (State.linkCtrl s c dst ack m) L := by
  unfold State.linkCtrl
  try dsimp only
  repeat' first
    | with_reducible assumption
    | (refine names_trans hL ?_
       try simp only [keyTypes, Nat.reduceMod]
       decide)
    | (refine names_trans hL ?_
       try simp only [keyTypes, Nat.reduceMod]
       refine names_trans (names_of_subset ?_) names_regs_word
       simp
       done)
    | (refine names_trans hL ?_
       refine names_trans (names_of_subset ?_) names_port_word
       simp
       done)
    | (refine names_trans hL ?_
       refine names_trans (names_of_subset ?_) names_port_hdr
       simp
       done)
    | with_reducible first
      | refine names_cons ?_ ?_
      | refine only_ite ?_ ?_
      | refine only_ite_snd ?_ ?_
      | refine only_ite_fst ?_ ?_
      | refine modChan_only (hL := ?_) (ho := ?_)
      | refine learnNode_only (hL := ?_) (ho := ?_)
      | refine takeAck_only (hL := ?_) (ho := ?_)
      | refine answerSwap_only (hL := ?_) (ho := ?_)
      | refine modPort_only (hL := ?_) (ho := ?_)
      | refine violate_only (hL := ?_) (ho := ?_)
      | refine takeNak_only (hL := ?_) (ho := ?_)
    | split
    | (with_reducible refine only_pkg (z := [.pkg]) ?_ ?_ ?_
       · refine names_trans hL ?_
         first | decide | (refine names_of_subset ?_; simp; done)
       iterate 1 · first | with_reducible rfl | (intro _; with_reducible rfl) | exact fun h => not_free h rfl | (intro _; dsimp only; split <;> rfl) | exact rfl | exact fun _ => rfl)
    | dsimp only

theorem execLaneSwitch_only (port : Nat) (tx : Bool) (s : State) : ∃ st', execLaneSwitch port tx s = .next st' ∧ s.onlyChanges st' [.out, .xfers, .lines, .inj, .ports] := by
  refine ⟨_, rfl, only_start fun hL h0 => ?_⟩
  refine settle_only (names_of_subset (by simp)) ?_
  repeat' first
    | with_reducible first
      | exact h0
      | assumption
    | (refine names_trans hL ?_
       try simp only [keyTypes, Nat.reduceMod]
       decide)
    | with_reducible first
      | refine names_cons ?_ ?_
      | refine only_ite ?_ ?_
      | refine only_ite_snd ?_ ?_
      | refine only_ite_fst ?_ ?_
      | refine modPort_only (hL := ?_) (ho := ?_)
    | split
    | dsimp only

theorem execTrainTs1_only (port : Nat) (lanes : List (List Byte)) (s : State) : ∃ st', execTrainTs1 port lanes s = .next st' ∧ s.onlyChanges st' [.out, .xfers, .lines, .inj, .ports] := by
  refine ⟨_, rfl, only_start fun hL h0 => ?_⟩
  refine settle_only (names_of_subset (by simp)) ?_
  repeat' first
    | with_reducible first
      | exact h0
      | assumption
    | (refine names_trans hL ?_
       try simp only [keyTypes, Nat.reduceMod]
       decide)
    | with_reducible first
      | refine names_cons ?_ ?_
      | refine only_ite ?_ ?_
      | refine only_ite_snd ?_ ?_
      | refine only_ite_fst ?_ ?_
      | refine modPort_only (hL := ?_) (ho := ?_)
      | refine emitLanes_only (hL := ?_) (ho := ?_)
      | refine only_foldl (fun u x hu => ?_) ?_
      | refine only_foldl_snd (fun u x hu => ?_) ?_
      | refine only_foldl_fst (fun u x hu => ?_) ?_
    | split
    | dsimp only

theorem execTrainTs2_only (b : TrainIn) (s : State) : ∃ st', execTrainTs2 b s = .next st' ∧ s.onlyChanges st' [.out, .xfers, .lines, .inj, .ports] := by
  refine ⟨_, rfl, only_start fun hL h0 => ?_⟩
  refine settle_only (names_of_subset (by simp)) ?_
  repeat' first
    | with_reducible first
      | exact h0
      | assumption
    | (refine names_trans hL ?_
       try simp only [keyTypes, Nat.reduceMod]
       decide)
    | with_reducible first
      | refine names_cons ?_ ?_
      | refine only_ite ?_ ?_
      | refine only_ite_snd ?_ ?_
      | refine only_ite_fst ?_ ?_
      | refine modPort_only (hL := ?_) (ho := ?_)
      | refine emitMarkers_only (hL := ?_) (ho := ?_)
    | split
    | dsimp only

theorem execUcieAlign_only (port : Nat) (chunk : List Byte) (s : State) : ∃ st', execUcieAlign port chunk s = .next st' ∧ s.onlyChanges st' [.out, .xfers, .lines, .inj, .ports] := by
  refine ⟨_, rfl, only_start fun hL h0 => ?_⟩
  refine settle_only (names_of_subset (by simp)) ?_
  repeat' first
    | with_reducible first
      | exact h0
      | assumption
    | (refine names_trans hL ?_
       try simp only [keyTypes, Nat.reduceMod]
       decide)
    | with_reducible first
      | refine names_cons ?_ ?_
      | refine only_ite ?_ ?_
      | refine only_ite_snd ?_ ?_
      | refine only_ite_fst ?_ ?_
      | refine modPort_only (hL := ?_) (ho := ?_)
    | split
    | dsimp only

theorem execUcieRepair_only (port lane : Nat) (s : State) : ∃ st', execUcieRepair port lane s = .next st' ∧ s.onlyChanges st' [.out, .xfers, .lines, .inj, .staged, .recs, .hdr 0x58, .hdr 0x12, .gens, .spares] := by
  refine ⟨_, rfl, only_start fun hL h0 => ?_⟩
  refine settle_only (names_of_subset (by simp)) ?_
  repeat' first
    | with_reducible first
      | exact h0
      | assumption
    | (refine names_trans hL ?_
       try simp only [keyTypes, Nat.reduceMod]
       decide)
    | with_reducible first
      | refine names_cons ?_ ?_
      | refine only_ite ?_ ?_
      | refine only_ite_snd ?_ ?_
      | refine only_ite_fst ?_ ?_
      | refine spareAdd_only (hL := ?_) (ho := ?_)
    | split
    | dsimp only

theorem execEthernetFrame_only (port : Nat) (bytes : List Byte) (s : State) : ∃ st', execEthernetFrame port bytes s = .next st' ∧ s.onlyChanges st' [.out, .xfers, .lines, .inj, .staged, .recs, .hdr 0x58, .regs 0x93, .regs 0x91, .regs 0x38, .violations, .ports, .suspects, .hdr 0x28, .hdr 0x12, .gens, .spares, .probes, .regs 0x31, .chans] := by
  refine ⟨_, rfl, only_start fun hL h0 => ?_⟩
  refine settle_only (names_of_subset (by simp)) ?_
  repeat' first
    | with_reducible first
      | exact h0
      | assumption
    | (refine names_trans hL ?_
       try simp only [keyTypes, Nat.reduceMod]
       decide)
    | (refine names_trans hL ?_
       try simp only [keyTypes, Nat.reduceMod]
       refine names_trans (names_of_subset ?_) names_regs_word
       simp
       done)
    | (refine names_trans hL ?_
       refine names_trans (names_of_subset ?_) names_port_word
       simp
       done)
    | with_reducible first
      | refine names_cons ?_ ?_
      | refine only_ite ?_ ?_
      | refine only_ite_snd ?_ ?_
      | refine only_ite_fst ?_ ?_
      | refine violate_only (hL := ?_) (ho := ?_)
      | refine ptpOther_only (hL := ?_) (ho := ?_)
      | refine sendNak_only (hL := ?_) (ho := ?_)
      | refine modPort_only (hL := ?_) (ho := ?_)
    | split
    | dsimp only

/-! LinkTx -/

theorem gateSwitch_only {s : State} {p : Nat} (hL : names L [.ports, .cmds] = true) 
    (ho : s0.onlyChanges s L) : s0.onlyChanges (State.gateSwitch s p) L := by
  unfold State.gateSwitch
  try dsimp only
  repeat' first
    | with_reducible assumption
    | (refine names_trans hL ?_
       try simp only [keyTypes, Nat.reduceMod]
       decide)
    | with_reducible first
      | refine names_cons ?_ ?_
      | refine only_ite ?_ ?_
      | refine only_ite_snd ?_ ?_
      | refine only_ite_fst ?_ ?_
      | refine modPort_only (hL := ?_) (ho := ?_)
      | refine complete_only (hL := ?_) (ho := ?_)
    | split
    | dsimp only

theorem gatesStep_only {s : State} (hL : names L [.ports, .cmds] = true) 
    (ho : s0.onlyChanges s L) : s0.onlyChanges (State.gatesStep s) L := by
  unfold State.gatesStep
  try dsimp only
  repeat' first
    | with_reducible assumption
    | (refine names_trans hL ?_
       try simp only [keyTypes, Nat.reduceMod]
       decide)
    | with_reducible first
      | refine names_cons ?_ ?_
      | refine only_ite ?_ ?_
      | refine only_ite_snd ?_ ?_
      | refine only_ite_fst ?_ ?_
      | refine gateSwitch_only (hL := ?_) (ho := ?_)
      | refine modPort_only (hL := ?_) (ho := ?_)
      | refine only_foldl (fun u x hu => ?_) ?_
      | refine only_foldl_snd (fun u x hu => ?_) ?_
      | refine only_foldl_fst (fun u x hu => ?_) ?_
    | split
    | dsimp only

theorem gateSet_only {c : CmdIn} {s : State} (hL : names L [.cmds, .ports] = true) 
    (ho : s0.onlyChanges s L) : s0.onlyChanges (gateSet c s) L := by
  unfold gateSet
  try dsimp only
  repeat' first
    | with_reducible assumption
    | (refine names_trans hL ?_
       try simp only [keyTypes, Nat.reduceMod]
       decide)
    | with_reducible first
      | refine names_cons ?_ ?_
      | refine only_ite ?_ ?_
      | refine only_ite_snd ?_ ?_
      | refine only_ite_fst ?_ ?_
      | refine failCmd_only (hL := ?_) (ho := ?_)
      | refine done_only (hL := ?_) (ho := ?_)
      | refine complete_only (hL := ?_) (ho := ?_)
      | refine waitFor_only (hL := ?_) (ho := ?_)
      | refine modPort_only (hL := ?_) (ho := ?_)
    | split
    | dsimp only

theorem execGateSet_only (c : CmdIn) (s : State) : ∃ st', execGateSet c s = .next st' ∧ s.onlyChanges st' [.out, .xfers, .lines, .inj, .cmds, .power, .bpwr, .word 0x50 0x54, .activity, .host, .tap, .regs 0x08, .hdr 0x08, .ports] := by
  refine ⟨_, rfl, only_start fun hL h0 => ?_⟩
  refine settle_only (names_of_subset (by simp)) ?_
  repeat' first
    | with_reducible first
      | exact h0
      | assumption
    | (refine names_trans hL ?_
       try simp only [keyTypes, Nat.reduceMod]
       decide)
    | (refine names_trans hL ?_
       try simp only [keyTypes, Nat.reduceMod]
       refine names_trans (names_of_subset ?_) names_regs_word
       simp
       done)
    | with_reducible first
      | refine names_cons ?_ ?_
      | refine only_ite ?_ ?_
      | refine only_ite_snd ?_ ?_
      | refine only_ite_fst ?_ ?_
      | refine runCmd_only (hL := ?_) (h_effect := fun u hu => ?_) (ho := ?_)
      | refine gateSet_only (hL := ?_) (ho := ?_)
    | split
    | dsimp only

theorem clearPort_only {s : State} {p : Nat} (hL : names L [.regs 0x93, .regs 0x91, .regs 0x38] = true) 
    (ho : s0.onlyChanges s L) : s0.onlyChanges (State.clearPort s p) L := by
  unfold State.clearPort
  try dsimp only
  repeat' first
    | with_reducible assumption
    | (refine names_trans hL ?_
       try simp only [keyTypes, Nat.reduceMod]
       decide)
    | (refine names_trans hL ?_
       try simp only [keyTypes, Nat.reduceMod]
       refine names_trans (names_of_subset ?_) names_regs_word
       simp
       done)
    | (refine names_trans hL ?_
       refine names_trans (names_of_subset ?_) names_port_word
       simp
       done)
    | with_reducible first
      | refine names_cons ?_ ?_
      | refine only_ite ?_ ?_
      | refine only_ite_snd ?_ ?_
      | refine only_ite_fst ?_ ?_
      | refine setReg_only (hL := ?_) (h := ?_)
      | refine only_foldl (fun u x hu => ?_) ?_
      | refine only_foldl_snd (fun u x hu => ?_) ?_
      | refine only_foldl_fst (fun u x hu => ?_) ?_
    | split
    | dsimp only

theorem execLinkStatsClear_only (c : CmdIn) (s : State) : ∃ st', execLinkStatsClear c s = .next st' ∧ s.onlyChanges st' [.out, .xfers, .lines, .inj, .cmds, .power, .bpwr, .word 0x50 0x54, .activity, .host, .tap, .regs 0x08, .hdr 0x08, .regs 0x93, .regs 0x91, .regs 0x38] := by
  refine ⟨_, rfl, only_start fun hL h0 => ?_⟩
  refine settle_only (names_of_subset (by simp)) ?_
  repeat' first
    | with_reducible first
      | exact h0
      | assumption
    | (refine names_trans hL ?_
       try simp only [keyTypes, Nat.reduceMod]
       decide)
    | (refine names_trans hL ?_
       try simp only [keyTypes, Nat.reduceMod]
       refine names_trans (names_of_subset ?_) names_regs_word
       simp
       done)
    | (refine names_trans hL ?_
       refine names_trans (names_of_subset ?_) names_port_word
       simp
       done)
    | with_reducible first
      | refine names_cons ?_ ?_
      | refine only_ite ?_ ?_
      | refine only_ite_snd ?_ ?_
      | refine only_ite_fst ?_ ?_
      | refine runCmd_only (hL := ?_) (h_effect := fun u hu => ?_) (ho := ?_)
      | refine ok_only (hL := ?_) (ho := ?_)
      | refine clearPort_only (hL := ?_) (ho := ?_)
      | refine failCmd_only (hL := ?_) (ho := ?_)
      | refine only_foldl (fun u x hu => ?_) ?_
      | refine only_foldl_snd (fun u x hu => ?_) ?_
      | refine only_foldl_fst (fun u x hu => ?_) ?_
    | split
    | dsimp only

theorem txSwitch_only {s : State} {p : Nat} (hL : names L [.ports] = true) 
    (ho : s0.onlyChanges s L) : s0.onlyChanges (State.txSwitch s p) L := by
  unfold State.txSwitch
  try dsimp only
  repeat' first
    | with_reducible assumption
    | (refine names_trans hL ?_
       try simp only [keyTypes, Nat.reduceMod]
       decide)
    | with_reducible first
      | refine names_cons ?_ ?_
      | refine only_ite ?_ ?_
      | refine only_ite_snd ?_ ?_
      | refine only_ite_fst ?_ ?_
      | refine modPort_only (hL := ?_) (ho := ?_)
    | split
    | dsimp only

theorem sendCodeword_only {s : State} {p : Nat} {ffp : Nat} {body : List Byte} (hL : names L [.ports, .out] = true) 
    (ho : s0.onlyChanges s L) : s0.onlyChanges (State.sendCodeword s p ffp body) L := by
  unfold State.sendCodeword
  try dsimp only
  repeat' first
    | with_reducible assumption
    | (refine names_trans hL ?_
       try simp only [keyTypes, Nat.reduceMod]
       decide)
    | with_reducible first
      | refine names_cons ?_ ?_
      | refine only_ite ?_ ?_
      | refine only_ite_snd ?_ ?_
      | refine only_ite_fst ?_ ?_
      | refine txSwitch_only (hL := ?_) (ho := ?_)
      | refine emitLanes_only (hL := ?_) (ho := ?_)
      | refine modPort_only (hL := ?_) (ho := ?_)
      | refine emitMarkers_only (hL := ?_) (ho := ?_)
      | refine emit_only (hL := ?_) (ho := ?_)
    | split
    | dsimp only

theorem drainStream_only {s : State} {p n fuel : Nat} (hL : names L [.ports, .out] = true)
    (ho : s0.onlyChanges s L) : s0.onlyChanges (s.drainStream p n fuel) L := by
  induction fuel generalizing s with
  | zero => exact ho
  | succ k ih =>
    unfold State.drainStream
    try dsimp only
    repeat' first
      | with_reducible assumption
      | (refine names_trans hL ?_
         try simp only [keyTypes, Nat.reduceMod]
         decide)
      | with_reducible first
        | refine names_cons ?_ ?_
        | refine ih ?_
        | refine only_ite ?_ ?_
        | refine only_ite_snd ?_ ?_
        | refine only_ite_fst ?_ ?_
        | refine sendCodeword_only (hL := ?_) (ho := ?_)
        | refine modPort_only (hL := ?_) (ho := ?_)
      | split
      | dsimp only

theorem pushStream_only {s : State} {p : Nat} {bytes : List Byte} (hL : names L [.ports, .out] = true) 
    (ho : s0.onlyChanges s L) : s0.onlyChanges (State.pushStream s p bytes) L := by
  unfold State.pushStream
  try dsimp only
  repeat' first
    | with_reducible assumption
    | (refine names_trans hL ?_
       try simp only [keyTypes, Nat.reduceMod]
       decide)
    | with_reducible first
      | refine names_cons ?_ ?_
      | refine only_ite ?_ ?_
      | refine only_ite_snd ?_ ?_
      | refine only_ite_fst ?_ ?_
      | refine modPort_only (hL := ?_) (ho := ?_)
      | refine drainStream_only (hL := ?_) (ho := ?_)
    | split
    | dsimp only

theorem fillStream_only {s : State} {p : Nat} (hL : names L [.ports, .out] = true) 
    (ho : s0.onlyChanges s L) : s0.onlyChanges (State.fillStream s p) L := by
  unfold State.fillStream
  try dsimp only
  repeat' first
    | with_reducible assumption
    | (refine names_trans hL ?_
       try simp only [keyTypes, Nat.reduceMod]
       decide)
    | with_reducible first
      | refine names_cons ?_ ?_
      | refine only_ite ?_ ?_
      | refine only_ite_snd ?_ ?_
      | refine only_ite_fst ?_ ?_
      | refine drainStream_only (hL := ?_) (ho := ?_)
      | refine modPort_only (hL := ?_) (ho := ?_)
    | split
    | dsimp only

theorem numberFrame_only {s : State} {f : QFrame} (hL : names L [.chans] = true) 
    (ho : s0.onlyChanges s L) : s0.onlyChanges (State.numberFrame s f).2 L := by
  unfold State.numberFrame
  try dsimp only
  repeat' first
    | with_reducible assumption
    | (refine names_trans hL ?_
       try simp only [keyTypes, Nat.reduceMod]
       decide)
    | with_reducible first
      | refine names_cons ?_ ?_
      | refine only_ite ?_ ?_
      | refine only_ite_snd ?_ ?_
      | refine only_ite_fst ?_ ?_
      | refine modChan_only (hL := ?_) (ho := ?_)
    | split
    | dsimp only

theorem unqueue_only {s : State} {p : Nat} {f : QFrame} (hL : names L [.ports] = true) 
    (ho : s0.onlyChanges s L) : s0.onlyChanges (State.unqueue s p f) L := by
  unfold State.unqueue
  try dsimp only
  repeat' first
    | with_reducible assumption
    | (refine names_trans hL ?_
       try simp only [keyTypes, Nat.reduceMod]
       decide)
    | with_reducible first
      | refine names_cons ?_ ?_
      | refine only_ite ?_ ?_
      | refine only_ite_snd ?_ ?_
      | refine only_ite_fst ?_ ?_
      | refine setQueue_only (hL := ?_) (ho := ?_)
      | refine modPort_only (hL := ?_) (ho := ?_)
    | split
    | dsimp only

theorem packMore_only {s : State} {p c cls : Nat} {acc : List (List Byte)} {fuel : Nat} (hL : names L [.chans, .ports] = true)
    (ho : s0.onlyChanges s L) : s0.onlyChanges (s.packMore p c cls acc fuel).2 L := by
  induction fuel generalizing s acc with
  | zero => exact ho
  | succ k ih =>
    unfold State.packMore
    try dsimp only
    repeat' first
      | with_reducible assumption
      | (refine names_trans hL ?_
         try simp only [keyTypes, Nat.reduceMod]
         decide)
      | with_reducible first
        | refine names_cons ?_ ?_
        | refine ih ?_
        | refine only_ite ?_ ?_
        | refine only_ite_snd ?_ ?_
        | refine only_ite_fst ?_ ?_
        | refine numberFrame_only (hL := ?_) (ho := ?_)
        | refine unqueue_only (hL := ?_) (ho := ?_)
      | split
      | dsimp only

theorem sendNew_only {s : State} {p : Nat} {f : QFrame} (hL : names L [.ports, .out, .chans, .hdr 0x93, .hdr 0x91, .hdr 0x38, .inj] = true) 
    (ho : s0.onlyChanges s L) : s0.onlyChanges (State.sendNew s p f) L := by
  unfold State.sendNew
  try dsimp only
  repeat' first
    | with_reducible assumption
    | (refine names_trans hL ?_
       try simp only [keyTypes, Nat.reduceMod]
       decide)
    | (refine names_trans hL ?_
       refine names_trans (names_of_subset ?_) names_port_hdr
       simp
       done)
    | with_reducible first
      | refine names_cons ?_ ?_
      | refine only_ite ?_ ?_
      | refine only_ite_snd ?_ ?_
      | refine only_ite_fst ?_ ?_
      | refine unqueue_only (hL := ?_) (ho := ?_)
      | refine emit_only (hL := ?_) (ho := ?_)
      | refine numberFrame_only (hL := ?_) (ho := ?_)
      | refine packMore_only (hL := ?_) (ho := ?_)
      | refine injTake_only (hL := ?_) (ho := ?_)
      | refine pushStream_only (hL := ?_) (ho := ?_)
    | split
    | dsimp only

theorem sendRaw_only {s : State} {p c cls : Nat} {b : List Byte} (hL : names L [.chans, .out, .ports] = true) 
    (ho : s0.onlyChanges s L) : s0.onlyChanges (State.sendRaw s p c cls b) L := by
  unfold State.sendRaw
  try dsimp only
  repeat' first
    | with_reducible assumption
    | (refine names_trans hL ?_
       try simp only [keyTypes, Nat.reduceMod]
       decide)
    | with_reducible first
      | refine names_cons ?_ ?_
      | refine only_ite ?_ ?_
      | refine only_ite_snd ?_ ?_
      | refine only_ite_fst ?_ ?_
      | refine modChan_only (hL := ?_) (ho := ?_)
      | refine emit_only (hL := ?_) (ho := ?_)
      | refine pushStream_only (hL := ?_) (ho := ?_)
    | split
    | dsimp only

theorem sendCtl_only {s : State} {p c : Nat} {m : LinkCtrl} (hL : names L [.chans, .out, .ports] = true) 
    (ho : s0.onlyChanges s L) : s0.onlyChanges (State.sendCtl s p c m) L := by
  unfold State.sendCtl
  try dsimp only
  repeat' first
    | with_reducible assumption
    | (refine names_trans hL ?_
       try simp only [keyTypes, Nat.reduceMod]
       decide)
    | with_reducible first
      | refine names_cons ?_ ?_
      | refine only_ite ?_ ?_
      | refine only_ite_snd ?_ ?_
      | refine only_ite_fst ?_ ?_
      | refine modChan_only (hL := ?_) (ho := ?_)
      | refine sendRaw_only (hL := ?_) (ho := ?_)
      | refine only_foldl (fun u x hu => ?_) ?_
      | refine only_foldl_snd (fun u x hu => ?_) ?_
      | refine only_foldl_fst (fun u x hu => ?_) ?_
    | split
    | dsimp only

theorem unhold_only {s : State} {q : Nat} (hL : names L [.regs 0x93, .regs 0x91, .regs 0x38, .ports] = true) 
    (ho : s0.onlyChanges s L) : s0.onlyChanges (State.unhold s q) L := by
  unfold State.unhold
  try dsimp only
  repeat' first
    | with_reducible assumption
    | (refine names_trans hL ?_
       try simp only [keyTypes, Nat.reduceMod]
       decide)
    | (refine names_trans hL ?_
       try simp only [keyTypes, Nat.reduceMod]
       refine names_trans (names_of_subset ?_) names_regs_word
       simp
       done)
    | (refine names_trans hL ?_
       refine names_trans (names_of_subset ?_) names_port_word
       simp
       done)
    | with_reducible first
      | refine names_cons ?_ ?_
      | refine only_ite ?_ ?_
      | refine only_ite_snd ?_ ?_
      | refine only_ite_fst ?_ ?_
      | refine enqueueMsg_only (hL := ?_) (ho := ?_)
      | refine modPort_only (hL := ?_) (ho := ?_)
      | refine only_foldl (fun u x hu => ?_) ?_
      | refine only_foldl_snd (fun u x hu => ?_) ?_
      | refine only_foldl_fst (fun u x hu => ?_) ?_
    | split
    | dsimp only

theorem frameSelect_only {s : State} {p : Nat} (hL : names L [.chans, .out, .ports, .regs 0x93, .regs 0x91, .regs 0x38, .hdr 0x93, .hdr 0x91, .hdr 0x38, .inj] = true) 
    (ho : s0.onlyChanges s L) : s0.onlyChanges (State.frameSelect s p) L := by
  unfold State.frameSelect
  try dsimp only
  repeat' first
    | with_reducible assumption
    | (refine names_trans hL ?_
       try simp only [keyTypes, Nat.reduceMod]
       decide)
    | (refine names_trans hL ?_
       try simp only [keyTypes, Nat.reduceMod]
       refine names_trans (names_of_subset ?_) names_regs_word
       simp
       done)
    | (refine names_trans hL ?_
       refine names_trans (names_of_subset ?_) names_port_word
       simp
       done)
    | (refine names_trans hL ?_
       refine names_trans (names_of_subset ?_) names_port_hdr
       simp
       done)
    | with_reducible first
      | refine names_cons ?_ ?_
      | refine only_ite ?_ ?_
      | refine only_ite_snd ?_ ?_
      | refine only_ite_fst ?_ ?_
      | refine sendCtl_only (hL := ?_) (ho := ?_)
      | refine sendRaw_only (hL := ?_) (ho := ?_)
      | refine modChan_only (hL := ?_) (ho := ?_)
      | refine unhold_only (hL := ?_) (ho := ?_)
      | refine sendNew_only (hL := ?_) (ho := ?_)
      | refine fillStream_only (hL := ?_) (ho := ?_)
    | split
    | dsimp only

theorem linkTick_only {s : State} (hL : names L [.ports] = true) 
    (ho : s0.onlyChanges s L) : s0.onlyChanges (State.linkTick s) L := by
  unfold State.linkTick
  try dsimp only
  repeat' first
    | with_reducible assumption
    | (refine names_trans hL ?_
       try simp only [keyTypes, Nat.reduceMod]
       decide)
    | with_reducible first
      | refine names_cons ?_ ?_
      | refine only_ite ?_ ?_
      | refine only_ite_snd ?_ ?_
      | refine only_ite_fst ?_ ?_
      | refine modPort_only (hL := ?_) (ho := ?_)
      | refine only_foldl (fun u x hu => ?_) ?_
      | refine only_foldl_snd (fun u x hu => ?_) ?_
      | refine only_foldl_fst (fun u x hu => ?_) ?_
    | split
    | dsimp only

theorem execFrameSelect_only (port : Nat) (s : State) : ∃ st', execFrameSelect port s = .next st' ∧ s.onlyChanges st' [.out, .xfers, .lines, .inj, .chans, .ports, .regs 0x93, .regs 0x91, .regs 0x38, .hdr 0x93, .hdr 0x91, .hdr 0x38] := by
  refine ⟨_, rfl, only_start fun hL h0 => ?_⟩
  refine settle_only (names_of_subset (by simp)) ?_
  repeat' first
    | with_reducible first
      | exact h0
      | assumption
    | (refine names_trans hL ?_
       try simp only [keyTypes, Nat.reduceMod]
       decide)
    | (refine names_trans hL ?_
       try simp only [keyTypes, Nat.reduceMod]
       refine names_trans (names_of_subset ?_) names_regs_word
       simp
       done)
    | (refine names_trans hL ?_
       refine names_trans (names_of_subset ?_) names_port_word
       simp
       done)
    | (refine names_trans hL ?_
       refine names_trans (names_of_subset ?_) names_port_hdr
       simp
       done)
    | with_reducible first
      | refine names_cons ?_ ?_
      | refine only_ite ?_ ?_
      | refine only_ite_snd ?_ ?_
      | refine only_ite_fst ?_ ?_
      | refine frameSelect_only (hL := ?_) (ho := ?_)
    | split
    | dsimp only

theorem execAckTimer_only (chan : Nat) (s : State) : ∃ st', execAckTimer chan s = .next st' ∧ s.onlyChanges st' [.out, .xfers, .lines, .inj, .chans, .now] := by
  refine ⟨_, rfl, only_start fun hL h0 => ?_⟩
  refine settle_only (names_of_subset (by simp)) ?_
  repeat' first
    | with_reducible first
      | exact h0
      | assumption
    | (refine names_trans hL ?_
       try simp only [keyTypes, Nat.reduceMod]
       decide)
    | with_reducible first
      | refine names_cons ?_ ?_
      | refine only_ite ?_ ?_
      | refine only_ite_snd ?_ ?_
      | refine only_ite_fst ?_ ?_
      | refine pushCtl_only (hL := ?_) (ho := ?_)
      | refine advanceTo_only (hL := ?_) (ho := ?_)
    | split
    | dsimp only

theorem execCreditReturn_only (chan : Nat) (s : State) : ∃ st', execCreditReturn chan s = .next st' ∧ s.onlyChanges st' [.out, .xfers, .lines, .inj, .chans] := by
  refine ⟨_, rfl, only_start fun hL h0 => ?_⟩
  refine settle_only (names_of_subset (by simp)) ?_
  repeat' first
    | with_reducible first
      | exact h0
      | assumption
    | (refine names_trans hL ?_
       try simp only [keyTypes, Nat.reduceMod]
       decide)
    | with_reducible first
      | refine names_cons ?_ ?_
      | refine only_ite ?_ ?_
      | refine only_ite_snd ?_ ?_
      | refine only_ite_fst ?_ ?_
      | refine pushCtl_only (hL := ?_) (ho := ?_)
    | split
    | dsimp only

theorem execKeepaliveSend_only (chan : Nat) (s : State) : ∃ st', execKeepaliveSend chan s = .next st' ∧ s.onlyChanges st' [.out, .xfers, .lines, .inj, .chans, .now] := by
  refine ⟨_, rfl, only_start fun hL h0 => ?_⟩
  refine settle_only (names_of_subset (by simp)) ?_
  repeat' first
    | with_reducible first
      | exact h0
      | assumption
    | (refine names_trans hL ?_
       try simp only [keyTypes, Nat.reduceMod]
       decide)
    | with_reducible first
      | refine names_cons ?_ ?_
      | refine only_ite ?_ ?_
      | refine only_ite_snd ?_ ?_
      | refine only_ite_fst ?_ ?_
      | refine pushCtl_only (hL := ?_) (ho := ?_)
      | refine advanceTo_only (hL := ?_) (ho := ?_)
    | split
    | dsimp only

theorem execBusyReplay_only (chan : Nat) (s : State) : ∃ st', execBusyReplay chan s = .next st' ∧ s.onlyChanges st' [.out, .xfers, .lines, .inj, .now, .chans] := by
  refine ⟨_, rfl, only_start fun hL h0 => ?_⟩
  refine settle_only (names_of_subset (by simp)) ?_
  repeat' first
    | with_reducible first
      | exact h0
      | assumption
    | (refine names_trans hL ?_
       try simp only [keyTypes, Nat.reduceMod]
       decide)
    | with_reducible first
      | refine names_cons ?_ ?_
      | refine only_ite ?_ ?_
      | refine only_ite_snd ?_ ?_
      | refine only_ite_fst ?_ ?_
      | refine modChan_only (hL := ?_) (ho := ?_)
      | refine advanceTo_only (hL := ?_) (ho := ?_)
    | split
    | dsimp only

theorem execGateWindowOpen_only (port cls : Nat) (s : State) : ∃ st', execGateWindowOpen port cls s = .next st' ∧ s.onlyChanges st' [.out, .xfers, .lines, .inj, .now] := by
  refine ⟨_, rfl, only_start fun hL h0 => ?_⟩
  refine settle_only (names_of_subset (by simp)) ?_
  repeat' first
    | with_reducible first
      | exact h0
      | assumption
    | (refine names_trans hL ?_
       try simp only [keyTypes, Nat.reduceMod]
       decide)
    | with_reducible first
      | refine names_cons ?_ ?_
      | refine only_ite ?_ ?_
      | refine only_ite_snd ?_ ?_
      | refine only_ite_fst ?_ ?_
      | refine advanceTo_only (hL := ?_) (ho := ?_)
    | split
    | dsimp only

theorem execGateSwitch_only (port : Nat) (s : State) : ∃ st', execGateSwitch port s = .next st' ∧ s.onlyChanges st' [.out, .xfers, .lines, .inj, .ports, .cmds, .now] := by
  refine ⟨_, rfl, only_start fun hL h0 => ?_⟩
  refine settle_only (names_of_subset (by simp)) ?_
  repeat' first
    | with_reducible first
      | exact h0
      | assumption
    | (refine names_trans hL ?_
       try simp only [keyTypes, Nat.reduceMod]
       decide)
    | with_reducible first
      | refine names_cons ?_ ?_
      | refine only_ite ?_ ?_
      | refine only_ite_snd ?_ ?_
      | refine only_ite_fst ?_ ?_
      | refine gateSwitch_only (hL := ?_) (ho := ?_)
      | refine advanceTo_only (hL := ?_) (ho := ?_)
    | split
    | dsimp only

theorem execProxyRsp_only (port : Nat) (tag : BitVec 16) (rsp : BitVec 8) (data : Word) (s : State) : ∃ st', execProxyRsp port tag rsp data s = .next st' ∧ s.onlyChanges st' [.out, .xfers, .lines, .inj, .staged, .recs, .hdr 0x58, .regs 0x93, .regs 0x91, .regs 0x38, .violations, .ports, .suspects, .hdr 0x28, .hdr 0x12, .gens, .spares, .probes, .mbox, .host, .tap, .proxies] := by
  refine ⟨_, rfl, only_start fun hL h0 => ?_⟩
  refine settle_only (names_of_subset (by simp)) ?_
  repeat' first
    | with_reducible first
      | exact h0
      | assumption
    | (refine names_trans hL ?_
       try simp only [keyTypes, Nat.reduceMod]
       decide)
    | (refine names_trans hL ?_
       try simp only [keyTypes, Nat.reduceMod]
       refine names_trans (names_of_subset ?_) names_regs_word
       simp
       done)
    | (refine names_trans hL ?_
       refine names_trans (names_of_subset ?_) names_port_word
       simp
       done)
    | with_reducible first
      | refine names_cons ?_ ?_
      | refine only_ite ?_ ?_
      | refine only_ite_snd ?_ ?_
      | refine only_ite_fst ?_ ?_
      | refine violate_only (hL := ?_) (ho := ?_)
      | refine proxyAnswer_only (hL := ?_) (ho := ?_)
    | split
    | (with_reducible refine modLinks_only (z := [.ports, .proxies]) ?_ ?_ ?_ ?_ ?_ ?_ ?_
       · refine names_trans hL ?_
         first | decide | (refine names_of_subset ?_; simp; done)
       iterate 5 · first | with_reducible rfl | (intro _; with_reducible rfl) | exact fun h => not_free h rfl | (intro _; dsimp only; split <;> rfl) | exact rfl | exact fun _ => rfl)
    | dsimp only

theorem execProxyTimeout_only (tag : Nat) (s : State) : ∃ st', execProxyTimeout tag s = .next st' ∧ s.onlyChanges st' [.out, .xfers, .lines, .inj, .now, .proxies, .mbox, .host, .tap] := by
  refine ⟨_, rfl, only_start fun hL h0 => ?_⟩
  refine settle_only (names_of_subset (by simp)) ?_
  repeat' first
    | with_reducible first
      | exact h0
      | assumption
    | (refine names_trans hL ?_
       try simp only [keyTypes, Nat.reduceMod]
       decide)
    | with_reducible first
      | refine names_cons ?_ ?_
      | refine only_ite ?_ ?_
      | refine only_ite_snd ?_ ?_
      | refine only_ite_fst ?_ ?_
      | refine advanceTo_only (hL := ?_) (ho := ?_)
      | refine proxyAnswer_only (hL := ?_) (ho := ?_)
    | split
    | (with_reducible refine modLinks_only (z := [.proxies]) ?_ ?_ ?_ ?_ ?_ ?_ ?_
       · refine names_trans hL ?_
         first | decide | (refine names_of_subset ?_; simp; done)
       iterate 5 · first | with_reducible rfl | (intro _; with_reducible rfl) | exact fun h => not_free h rfl | (intro _; dsimp only; split <;> rfl) | exact rfl | exact fun _ => rfl)
    | dsimp only

/-! Sinter -/

theorem cmdXfer_only {s : State} {pkg : Bool} {page : Nat} {wr : Bool} {addr len : Nat} {data : List Byte} (hL : names L [.cmds, .out, .xfers] = true) 
    (ho : s0.onlyChanges s L) : s0.onlyChanges (State.cmdXfer s pkg page wr addr len data) L := by
  unfold State.cmdXfer
  try dsimp only
  repeat' first
    | with_reducible assumption
    | (refine names_trans hL ?_
       try simp only [keyTypes, Nat.reduceMod]
       decide)
    | with_reducible first
      | refine names_cons ?_ ?_
      | refine only_ite ?_ ?_
      | refine only_ite_snd ?_ ?_
      | refine only_ite_fst ?_ ?_
      | refine waitPage_only (hL := ?_) (ho := ?_)
      | refine startXfer_only (hL := ?_) (ho := ?_)
    | split
    | dsimp only

theorem packNext_only {s : State} {j : PackJob} (hL : names L [.cmds, .out, .xfers, .sinter] = true) 
    (ho : s0.onlyChanges s L) : s0.onlyChanges (State.packNext s j) L := by
  unfold State.packNext
  try dsimp only
  repeat' first
    | with_reducible assumption
    | (refine names_trans hL ?_
       try simp only [keyTypes, Nat.reduceMod]
       decide)
    | with_reducible first
      | refine names_cons ?_ ?_
      | refine only_ite ?_ ?_
      | refine only_ite_snd ?_ ?_
      | refine only_ite_fst ?_ ?_
      | refine cmdXfer_only (hL := ?_) (ho := ?_)
    | split
    | (with_reducible refine modSinter_only (z := [.sinter]) ?_ ?_ ?_
       · refine names_trans hL ?_
         first | decide | (refine names_of_subset ?_; simp; done)
       iterate 1 · first | with_reducible rfl | (intro _; with_reducible rfl) | exact fun h => not_free h rfl | (intro _; dsimp only; split <;> rfl) | exact rfl | exact fun _ => rfl)
    | dsimp only

theorem execSinterPack_only (c : CmdIn) (s : State) : ∃ st', execSinterPack c s = .next st' ∧ s.onlyChanges st' [.out, .xfers, .lines, .inj, .cmds, .power, .bpwr, .word 0x50 0x54, .activity, .host, .tap, .regs 0x08, .hdr 0x08, .sinter] := by
  refine ⟨_, rfl, only_start fun hL h0 => ?_⟩
  refine settle_only (names_of_subset (by simp)) ?_
  repeat' first
    | with_reducible first
      | exact h0
      | assumption
    | (refine names_trans hL ?_
       try simp only [keyTypes, Nat.reduceMod]
       decide)
    | (refine names_trans hL ?_
       try simp only [keyTypes, Nat.reduceMod]
       refine names_trans (names_of_subset ?_) names_regs_word
       simp
       done)
    | with_reducible first
      | refine names_cons ?_ ?_
      | refine only_ite ?_ ?_
      | refine only_ite_snd ?_ ?_
      | refine only_ite_fst ?_ ?_
      | refine runCmd_only (hL := ?_) (h_effect := fun u hu => ?_) (ho := ?_)
      | refine badArg_only (hL := ?_) (ho := ?_)
      | refine waitFor_only (hL := ?_) (ho := ?_)
      | refine failCmd_only (hL := ?_) (ho := ?_)
      | refine packNext_only (hL := ?_) (ho := ?_)
    | split
    | dsimp only

theorem execSinterUnpack_only (c : CmdIn) (s : State) : ∃ st', execSinterUnpack c s = .next st' ∧ s.onlyChanges st' [.out, .xfers, .lines, .inj, .cmds, .power, .bpwr, .word 0x50 0x54, .activity, .host, .tap, .regs 0x08, .hdr 0x08, .sinter] := by
  refine ⟨_, rfl, only_start fun hL h0 => ?_⟩
  refine settle_only (names_of_subset (by simp)) ?_
  repeat' first
    | with_reducible first
      | exact h0
      | assumption
    | (refine names_trans hL ?_
       try simp only [keyTypes, Nat.reduceMod]
       decide)
    | (refine names_trans hL ?_
       try simp only [keyTypes, Nat.reduceMod]
       refine names_trans (names_of_subset ?_) names_regs_word
       simp
       done)
    | with_reducible first
      | refine names_cons ?_ ?_
      | refine only_ite ?_ ?_
      | refine only_ite_snd ?_ ?_
      | refine only_ite_fst ?_ ?_
      | refine runCmd_only (hL := ?_) (h_effect := fun u hu => ?_) (ho := ?_)
      | refine waitFor_only (hL := ?_) (ho := ?_)
      | refine failCmd_only (hL := ?_) (ho := ?_)
      | refine cmdXfer_only (hL := ?_) (ho := ?_)
    | split
    | (with_reducible refine modSinter_only (z := [.sinter]) ?_ ?_ ?_
       · refine names_trans hL ?_
         first | decide | (refine names_of_subset ?_; simp; done)
       iterate 1 · first | with_reducible rfl | (intro _; with_reducible rfl) | exact fun h => not_free h rfl | (intro _; dsimp only; split <;> rfl) | exact rfl | exact fun _ => rfl)
    | dsimp only

theorem szCount_only {s : State} {off n : Nat} (hL : names L [.regs 0x39] = true) 
    (ho : s0.onlyChanges s L) : s0.onlyChanges (State.szCount s off n) L := by
  unfold State.szCount
  try dsimp only
  repeat' first
    | with_reducible assumption
    | (refine names_trans hL ?_
       try simp only [keyTypes, Nat.reduceMod]
       decide)
    | (refine names_trans hL ?_
       try simp only [keyTypes, Nat.reduceMod]
       refine names_trans (names_of_subset ?_) names_regs_word
       simp
       done)
    | with_reducible first
      | refine names_cons ?_ ?_
      | refine only_ite ?_ ?_
      | refine only_ite_snd ?_ ?_
      | refine only_ite_fst ?_ ?_
      | refine setRegWide_only (hL := ?_) (ho := ?_)
    | split
    | dsimp only

theorem szWrote_only {s : State} {inN : Nat} {block : List Byte} {raw : Bool} (hL : names L [.regs 0x39, .hdr 0x39, .inj] = true) 
    (ho : s0.onlyChanges s L) : s0.onlyChanges (State.szWrote s inN block raw).2 L := by
  unfold State.szWrote
  try dsimp only
  repeat' first
    | with_reducible assumption
    | (refine names_trans hL ?_
       try simp only [keyTypes, Nat.reduceMod]
       decide)
    | (refine names_trans hL ?_
       try simp only [keyTypes, Nat.reduceMod]
       refine names_trans (names_of_subset ?_) names_regs_word
       simp
       done)
    | with_reducible first
      | refine names_cons ?_ ?_
      | refine only_ite ?_ ?_
      | refine only_ite_snd ?_ ?_
      | refine only_ite_fst ?_ ?_
      | refine bump_only (hL := ?_) (ho := ?_)
      | refine szCount_only (hL := ?_) (ho := ?_)
      | refine injTake_only (hL := ?_) (ho := ?_)
    | split
    | dsimp only

theorem szReject_only {s : State} {cause cls src : Nat} {box : List Byte} (hL : names L [.staged, .recs, .hdr 0x58, .word 0x39 0x70, .hdr 0x39, .word 0x39 0x6C] = true) 
    (ho : s0.onlyChanges s L) : s0.onlyChanges (State.szReject s cause cls src box) L := by
  unfold State.szReject
  try dsimp only
  repeat' first
    | with_reducible assumption
    | (refine names_trans hL ?_
       try simp only [keyTypes, Nat.reduceMod]
       decide)
    | with_reducible first
      | refine names_cons ?_ ?_
      | refine only_ite ?_ ?_
      | refine only_ite_snd ?_ ?_
      | refine only_ite_fst ?_ ?_
      | refine log_only (hL := ?_) (ho := ?_)
      | refine setReg_only (hL := ?_) (h := ?_)
      | refine setErr_only (hL := ?_) (ho := ?_)
      | refine bump_only (hL := ?_) (ho := ?_)
    | split
    | dsimp only

theorem packWritten_only {s : State} {j : PackJob} (hL : names L [.cmds, .out, .xfers, .sinter, .word 0x08 0x108, .word 0x08 0x104, .word 0x08 0x100] = true) 
    (ho : s0.onlyChanges s L) : s0.onlyChanges (State.packWritten s j) L := by
  unfold State.packWritten
  try dsimp only
  repeat' first
    | with_reducible assumption
    | (refine names_trans hL ?_
       try simp only [keyTypes, Nat.reduceMod]
       decide)
    | with_reducible first
      | refine names_cons ?_ ?_
      | refine only_ite ?_ ?_
      | refine only_ite_snd ?_ ?_
      | refine only_ite_fst ?_ ?_
      | refine packNext_only (hL := ?_) (ho := ?_)
      | refine cmdXfer_only (hL := ?_) (ho := ?_)
      | refine setRes_only (hL := ?_) (ho := ?_)
      | refine complete_only (hL := ?_) (ho := ?_)
    | split
    | (with_reducible refine modSinter_only (z := [.sinter]) ?_ ?_ ?_
       · refine names_trans hL ?_
         first | decide | (refine names_of_subset ?_; simp; done)
       iterate 1 · first | with_reducible rfl | (intro _; with_reducible rfl) | exact fun h => not_free h rfl | (intro _; dsimp only; split <;> rfl) | exact rfl | exact fun _ => rfl)
    | dsimp only

theorem packLoaded_only {s : State} {data : List Byte} {wr failed : Bool} (hL : names L [.cmds, .sinter, .out, .xfers, .word 0x08 0x108, .word 0x08 0x104, .word 0x08 0x100] = true) 
    (ho : s0.onlyChanges s L) : s0.onlyChanges (State.packLoaded s data wr failed) L := by
  unfold State.packLoaded
  try dsimp only
  repeat' first
    | with_reducible assumption
    | (refine names_trans hL ?_
       try simp only [keyTypes, Nat.reduceMod]
       decide)
    | with_reducible first
      | refine names_cons ?_ ?_
      | refine only_ite ?_ ?_
      | refine only_ite_snd ?_ ?_
      | refine only_ite_fst ?_ ?_
      | refine complete_only (hL := ?_) (ho := ?_)
      | refine waitPage_only (hL := ?_) (ho := ?_)
      | refine packWritten_only (hL := ?_) (ho := ?_)
    | split
    | (with_reducible refine modSinter_only (z := [.sinter]) ?_ ?_ ?_
       · refine names_trans hL ?_
         first | decide | (refine names_of_subset ?_; simp; done)
       iterate 1 · first | with_reducible rfl | (intro _; with_reducible rfl) | exact fun h => not_free h rfl | (intro _; dsimp only; split <;> rfl) | exact rfl | exact fun _ => rfl)
    | dsimp only

theorem unpackEnd_only {s : State} {j : UnpackJob} {st : Byte} {detail : Nat} (hL : names L [.regs 0x08, .cmds, .sinter] = true) 
    (ho : s0.onlyChanges s L) : s0.onlyChanges (State.unpackEnd s j st detail) L := by
  unfold State.unpackEnd
  try dsimp only
  repeat' first
    | with_reducible assumption
    | (refine names_trans hL ?_
       try simp only [keyTypes, Nat.reduceMod]
       decide)
    | (refine names_trans hL ?_
       try simp only [keyTypes, Nat.reduceMod]
       refine names_trans (names_of_subset ?_) names_regs_word
       simp
       done)
    | with_reducible first
      | refine names_cons ?_ ?_
      | refine only_ite ?_ ?_
      | refine only_ite_snd ?_ ?_
      | refine only_ite_fst ?_ ?_
      | refine setRes_only (hL := ?_) (ho := ?_)
      | refine complete_only (hL := ?_) (ho := ?_)
    | split
    | (with_reducible refine modSinter_only (z := [.sinter]) ?_ ?_ ?_
       · refine names_trans hL ?_
         first | decide | (refine names_of_subset ?_; simp; done)
       iterate 1 · first | with_reducible rfl | (intro _; with_reducible rfl) | exact fun h => not_free h rfl | (intro _; dsimp only; split <;> rfl) | exact rfl | exact fun _ => rfl)
    | dsimp only

theorem unpackNext_only {s : State} {j : UnpackJob} (hL : names L [.cmds, .sinter, .out, .xfers, .regs 0x08] = true) 
    (ho : s0.onlyChanges s L) : s0.onlyChanges (State.unpackNext s j) L := by
  unfold State.unpackNext
  try dsimp only
  repeat' first
    | with_reducible assumption
    | (refine names_trans hL ?_
       try simp only [keyTypes, Nat.reduceMod]
       decide)
    | (refine names_trans hL ?_
       try simp only [keyTypes, Nat.reduceMod]
       refine names_trans (names_of_subset ?_) names_regs_word
       simp
       done)
    | with_reducible first
      | refine names_cons ?_ ?_
      | refine only_ite ?_ ?_
      | refine only_ite_snd ?_ ?_
      | refine only_ite_fst ?_ ?_
      | refine waitPage_only (hL := ?_) (ho := ?_)
      | refine cmdXfer_only (hL := ?_) (ho := ?_)
      | refine unpackEnd_only (hL := ?_) (ho := ?_)
    | split
    | (with_reducible refine modSinter_only (z := [.sinter]) ?_ ?_ ?_
       · refine names_trans hL ?_
         first | decide | (refine names_of_subset ?_; simp; done)
       iterate 1 · first | with_reducible rfl | (intro _; with_reducible rfl) | exact fun h => not_free h rfl | (intro _; dsimp only; split <;> rfl) | exact rfl | exact fun _ => rfl)
    | dsimp only

theorem unpackLoaded_only {s : State} {data : List Byte} {wr failed : Bool} (hL : names L [.regs 0x08, .cmds, .sinter, .staged, .recs, .hdr 0x58, .word 0x39 0x70, .hdr 0x39, .word 0x39 0x6C, .out, .xfers] = true) 
    (ho : s0.onlyChanges s L) : s0.onlyChanges (State.unpackLoaded s data wr failed) L := by
  unfold State.unpackLoaded
  try dsimp only
  repeat' first
    | with_reducible assumption
    | (refine names_trans hL ?_
       try simp only [keyTypes, Nat.reduceMod]
       decide)
    | (refine names_trans hL ?_
       try simp only [keyTypes, Nat.reduceMod]
       refine names_trans (names_of_subset ?_) names_regs_word
       simp
       done)
    | with_reducible first
      | refine names_cons ?_ ?_
      | refine only_ite ?_ ?_
      | refine only_ite_snd ?_ ?_
      | refine only_ite_fst ?_ ?_
      | refine unpackEnd_only (hL := ?_) (ho := ?_)
      | refine szReject_only (hL := ?_) (ho := ?_)
      | refine unpackNext_only (hL := ?_) (ho := ?_)
      | refine cmdXfer_only (hL := ?_) (ho := ?_)
      | refine waitPage_only (hL := ?_) (ho := ?_)
    | split
    | (with_reducible refine modSinter_only (z := [.sinter]) ?_ ?_ ?_
       · refine names_trans hL ?_
         first | decide | (refine names_of_subset ?_; simp; done)
       iterate 1 · first | with_reducible rfl | (intro _; with_reducible rfl) | exact fun h => not_free h rfl | (intro _; dsimp only; split <;> rfl) | exact rfl | exact fun _ => rfl)
    | dsimp only

theorem frameMsg_only {s : State} {p : Nat} {m : Msg} (hL : names L [.regs 0x93, .regs 0x91, .regs 0x38, .ports, .hdr 0x39, .word 0x39 0x68, .sinter] = true) 
    (ho : s0.onlyChanges s L) : s0.onlyChanges (State.frameMsg s p m) L := by
  unfold State.frameMsg
  try dsimp only
  repeat' first
    | with_reducible assumption
    | (refine names_trans hL ?_
       try simp only [keyTypes, Nat.reduceMod]
       decide)
    | (refine names_trans hL ?_
       try simp only [keyTypes, Nat.reduceMod]
       refine names_trans (names_of_subset ?_) names_regs_word
       simp
       done)
    | (refine names_trans hL ?_
       refine names_trans (names_of_subset ?_) names_port_word
       simp
       done)
    | with_reducible first
      | refine names_cons ?_ ?_
      | refine only_ite ?_ ?_
      | refine only_ite_snd ?_ ?_
      | refine only_ite_fst ?_ ?_
      | refine enqueueMsg_only (hL := ?_) (ho := ?_)
      | refine setErr_only (hL := ?_) (ho := ?_)
      | refine bump_only (hL := ?_) (ho := ?_)
    | split
    | (with_reducible refine modSinter_only (z := [.sinter]) ?_ ?_ ?_
       · refine names_trans hL ?_
         first | decide | (refine names_of_subset ?_; simp; done)
       iterate 1 · first | with_reducible rfl | (intro _; with_reducible rfl) | exact fun h => not_free h rfl | (intro _; dsimp only; split <;> rfl) | exact rfl | exact fun _ => rfl)
    | dsimp only

theorem szEmit_only {s : State} {w : EncWork} (hL : names L [.regs 0x93, .regs 0x91, .regs 0x38, .ports] = true) 
    (ho : s0.onlyChanges s L) : s0.onlyChanges (State.szEmit s w) L := by
  unfold State.szEmit
  try dsimp only
  repeat' first
    | with_reducible assumption
    | (refine names_trans hL ?_
       try simp only [keyTypes, Nat.reduceMod]
       decide)
    | (refine names_trans hL ?_
       try simp only [keyTypes, Nat.reduceMod]
       refine names_trans (names_of_subset ?_) names_regs_word
       simp
       done)
    | (refine names_trans hL ?_
       refine names_trans (names_of_subset ?_) names_port_word
       simp
       done)
    | with_reducible first
      | refine names_cons ?_ ?_
      | refine only_ite ?_ ?_
      | refine only_ite_snd ?_ ?_
      | refine only_ite_fst ?_ ?_
      | refine enqueueMsg_only (hL := ?_) (ho := ?_)
      | refine enqueue_only (hL := ?_) (ho := ?_)
      | refine only_foldl (fun u x hu => ?_) ?_
      | refine only_foldl_snd (fun u x hu => ?_) ?_
      | refine only_foldl_fst (fun u x hu => ?_) ?_
      | refine only_getD (fun t ht => ?_) ?_
    | split
    | dsimp only

theorem packResume_only {s : State} (hL : names L [.cmds, .out, .xfers, .sinter, .word 0x08 0x108, .word 0x08 0x104, .word 0x08 0x100] = true) 
    (ho : s0.onlyChanges s L) : s0.onlyChanges (State.packResume s) L := by
  unfold State.packResume
  try dsimp only
  repeat' first
    | with_reducible assumption
    | (refine names_trans hL ?_
       try simp only [keyTypes, Nat.reduceMod]
       decide)
    | with_reducible first
      | refine names_cons ?_ ?_
      | refine only_ite ?_ ?_
      | refine only_ite_snd ?_ ?_
      | refine only_ite_fst ?_ ?_
      | refine packWritten_only (hL := ?_) (ho := ?_)
    | split
    | dsimp only

theorem packBlock_only {s : State} {j : PackJob} {data : List Byte} (hL : names L [.regs 0x39, .hdr 0x39, .inj, .cmds, .sinter, .out, .xfers] = true) 
    (ho : s0.onlyChanges s L) : s0.onlyChanges (State.packBlock s j data) L := by
  unfold State.packBlock
  try dsimp only
  repeat' first
    | with_reducible assumption
    | (refine names_trans hL ?_
       try simp only [keyTypes, Nat.reduceMod]
       decide)
    | (refine names_trans hL ?_
       try simp only [keyTypes, Nat.reduceMod]
       refine names_trans (names_of_subset ?_) names_regs_word
       simp
       done)
    | with_reducible first
      | refine names_cons ?_ ?_
      | refine only_ite ?_ ?_
      | refine only_ite_snd ?_ ?_
      | refine only_ite_fst ?_ ?_
      | refine szWrote_only (hL := ?_) (ho := ?_)
      | refine complete_only (hL := ?_) (ho := ?_)
      | refine cmdXfer_only (hL := ?_) (ho := ?_)
    | split
    | (with_reducible refine modSinter_only (z := [.sinter]) ?_ ?_ ?_
       · refine names_trans hL ?_
         first | decide | (refine names_of_subset ?_; simp; done)
       iterate 1 · first | with_reducible rfl | (intro _; with_reducible rfl) | exact fun h => not_free h rfl | (intro _; dsimp only; split <;> rfl) | exact rfl | exact fun _ => rfl)
    | dsimp only

theorem unpackBlock_only {s : State} {j : UnpackJob} {box : List Byte} (hL : names L [.cmds, .out, .xfers, .sinter, .regs 0x08, .staged, .recs, .hdr 0x58, .word 0x39 0x70, .hdr 0x39, .word 0x39 0x6C] = true) 
    (ho : s0.onlyChanges s L) : s0.onlyChanges (State.unpackBlock s j box) L := by
  unfold State.unpackBlock
  try dsimp only
  repeat' first
    | with_reducible assumption
    | (refine names_trans hL ?_
       try simp only [keyTypes, Nat.reduceMod]
       decide)
    | (refine names_trans hL ?_
       try simp only [keyTypes, Nat.reduceMod]
       refine names_trans (names_of_subset ?_) names_regs_word
       simp
       done)
    | with_reducible first
      | refine names_cons ?_ ?_
      | refine only_ite ?_ ?_
      | refine only_ite_snd ?_ ?_
      | refine only_ite_fst ?_ ?_
      | refine cmdXfer_only (hL := ?_) (ho := ?_)
      | refine unpackNext_only (hL := ?_) (ho := ?_)
      | refine szReject_only (hL := ?_) (ho := ?_)
    | split
    | (with_reducible refine modSinter_only (z := [.sinter]) ?_ ?_ ?_
       · refine names_trans hL ?_
         first | decide | (refine names_of_subset ?_; simp; done)
       iterate 1 · first | with_reducible rfl | (intro _; with_reducible rfl) | exact fun h => not_free h rfl | (intro _; dsimp only; split <;> rfl) | exact rfl | exact fun _ => rfl)
    | dsimp only

theorem szGather_only {s : State} {w : DecWork} {data : Option (List Byte)} (hL : names L [.chans, .staged, .recs, .hdr 0x58, .regs 0x93, .regs 0x91, .regs 0x38, .violations, .ports, .suspects, .hdr 0x28, .hdr 0x12, .gens, .spares, .probes] = true) 
    (ho : s0.onlyChanges s L) : s0.onlyChanges (State.szGather s w data) L := by
  unfold State.szGather
  try dsimp only
  repeat' first
    | with_reducible assumption
    | (refine names_trans hL ?_
       try simp only [keyTypes, Nat.reduceMod]
       decide)
    | (refine names_trans hL ?_
       try simp only [keyTypes, Nat.reduceMod]
       refine names_trans (names_of_subset ?_) names_regs_word
       simp
       done)
    | (refine names_trans hL ?_
       refine names_trans (names_of_subset ?_) names_port_word
       simp
       done)
    | with_reducible first
      | refine names_cons ?_ ?_
      | refine only_ite ?_ ?_
      | refine only_ite_snd ?_ ?_
      | refine only_ite_fst ?_ ?_
      | refine modChan_only (hL := ?_) (ho := ?_)
      | refine violate_only (hL := ?_) (ho := ?_)
      | refine forward_only (hL := ?_) (ho := ?_)
      | refine only_foldl (fun u x hu => ?_) ?_
      | refine only_foldl_snd (fun u x hu => ?_) ?_
      | refine only_foldl_fst (fun u x hu => ?_) ?_
    | split
    | dsimp only

theorem execFrameEnqueue_only (port : Nat) (s : State) : ∃ st', execFrameEnqueue port s = .next st' ∧ s.onlyChanges st' [.out, .xfers, .lines, .inj, .regs 0x93, .regs 0x91, .regs 0x38, .ports, .hdr 0x39, .word 0x39 0x68, .sinter, .mbox] := by
  refine ⟨_, rfl, only_start fun hL h0 => ?_⟩
  refine settle_only (names_of_subset (by simp)) ?_
  repeat' first
    | with_reducible first
      | exact h0
      | assumption
    | (refine names_trans hL ?_
       try simp only [keyTypes, Nat.reduceMod]
       decide)
    | (refine names_trans hL ?_
       try simp only [keyTypes, Nat.reduceMod]
       refine names_trans (names_of_subset ?_) names_regs_word
       simp
       done)
    | (refine names_trans hL ?_
       refine names_trans (names_of_subset ?_) names_port_word
       simp
       done)
    | with_reducible first
      | refine names_cons ?_ ?_
      | refine only_ite ?_ ?_
      | refine only_ite_snd ?_ ?_
      | refine only_ite_fst ?_ ?_
      | refine frameMsg_only (hL := ?_) (ho := ?_)
    | split
    | (with_reducible refine only_mbox (z := [.mbox]) ?_ ?_ ?_
       · refine names_trans hL ?_
         first | decide | (refine names_of_subset ?_; simp; done)
       iterate 1 · first | with_reducible rfl | (intro _; with_reducible rfl) | exact fun h => not_free h rfl | (intro _; dsimp only; split <;> rfl) | exact rfl | exact fun _ => rfl)
    | dsimp only

theorem execSinterEncodeBlock_only (s : State) : ∃ st', execSinterEncodeBlock s = .next st' ∧ s.onlyChanges st' [.out, .xfers, .lines, .inj, .regs 0x39, .hdr 0x39, .regs 0x93, .regs 0x91, .regs 0x38, .ports, .sinter, .cmds] := by
  refine ⟨_, rfl, only_start fun hL h0 => ?_⟩
  refine settle_only (names_of_subset (by simp)) ?_
  repeat' first
    | with_reducible first
      | exact h0
      | assumption
    | (refine names_trans hL ?_
       try simp only [keyTypes, Nat.reduceMod]
       decide)
    | (refine names_trans hL ?_
       try simp only [keyTypes, Nat.reduceMod]
       refine names_trans (names_of_subset ?_) names_regs_word
       simp
       done)
    | (refine names_trans hL ?_
       refine names_trans (names_of_subset ?_) names_port_word
       simp
       done)
    | with_reducible first
      | refine names_cons ?_ ?_
      | refine only_ite ?_ ?_
      | refine only_ite_snd ?_ ?_
      | refine only_ite_fst ?_ ?_
      | refine szWrote_only (hL := ?_) (ho := ?_)
      | refine szEmit_only (hL := ?_) (ho := ?_)
      | refine packBlock_only (hL := ?_) (ho := ?_)
      | refine only_foldl_snd2 (fun u x hu => ?_) ?_
      | refine only_ite_snd2 ?_ ?_
    | split
    | (with_reducible refine modSinter_only (z := [.sinter]) ?_ ?_ ?_
       · refine names_trans hL ?_
         first | decide | (refine names_of_subset ?_; simp; done)
       iterate 1 · first | with_reducible rfl | (intro _; with_reducible rfl) | exact fun h => not_free h rfl | (intro _; dsimp only; split <;> rfl) | exact rfl | exact fun _ => rfl)
    | dsimp only

theorem execSinterDecodeBlock_only (s : State) : ∃ st', execSinterDecodeBlock s = .next st' ∧ s.onlyChanges st' [.out, .xfers, .lines, .inj, .sinter, .chans, .staged, .recs, .hdr 0x58, .regs 0x93, .regs 0x91, .regs 0x38, .violations, .ports, .suspects, .hdr 0x28, .hdr 0x12, .gens, .spares, .probes, .word 0x39 0x70, .hdr 0x39, .word 0x39 0x6C, .cmds, .regs 0x08] := by
  refine ⟨_, rfl, only_start fun hL h0 => ?_⟩
  refine settle_only (names_of_subset (by simp)) ?_
  repeat' first
    | with_reducible first
      | exact h0
      | assumption
    | (refine names_trans hL ?_
       try simp only [keyTypes, Nat.reduceMod]
       decide)
    | (refine names_trans hL ?_
       try simp only [keyTypes, Nat.reduceMod]
       refine names_trans (names_of_subset ?_) names_regs_word
       simp
       done)
    | (refine names_trans hL ?_
       refine names_trans (names_of_subset ?_) names_port_word
       simp
       done)
    | with_reducible first
      | refine names_cons ?_ ?_
      | refine only_ite ?_ ?_
      | refine only_ite_snd ?_ ?_
      | refine only_ite_fst ?_ ?_
      | refine modChan_only (hL := ?_) (ho := ?_)
      | refine szGather_only (hL := ?_) (ho := ?_)
      | refine violate_only (hL := ?_) (ho := ?_)
      | refine szReject_only (hL := ?_) (ho := ?_)
      | refine unpackBlock_only (hL := ?_) (ho := ?_)
    | split
    | (with_reducible refine modSinter_only (z := [.sinter]) ?_ ?_ ?_
       · refine names_trans hL ?_
         first | decide | (refine names_of_subset ?_; simp; done)
       iterate 1 · first | with_reducible rfl | (intro _; with_reducible rfl) | exact fun h => not_free h rfl | (intro _; dsimp only; split <;> rfl) | exact rfl | exact fun _ => rfl)
    | dsimp only

/-! Rings -/

theorem ringGo_only {s : State} {r : RingRegs} (hL : names L [.ringQ, .out, .xfers] = true) 
    (ho : s0.onlyChanges s L) : s0.onlyChanges (State.ringGo s r) L := by
  unfold State.ringGo
  try dsimp only
  repeat' first
    | with_reducible assumption
    | (refine names_trans hL ?_
       try simp only [keyTypes, Nat.reduceMod]
       decide)
    | with_reducible first
      | refine names_cons ?_ ?_
      | refine only_ite ?_ ?_
      | refine only_ite_snd ?_ ?_
      | refine only_ite_fst ?_ ?_
      | refine startXferOf_only (hL := ?_) (ho := ?_)
    | split
    | (with_reducible refine only_pages (z := [.ringQ, .xfers]) ?_ ?_ ?_ ?_ ?_ ?_ ?_ ?_ ?_ ?_
       · refine names_trans hL ?_
         first | decide | (refine names_of_subset ?_; simp; done)
       iterate 8 · first | with_reducible rfl | (intro _; with_reducible rfl) | exact fun h => not_free h rfl | (intro _; dsimp only; split <;> rfl) | exact rfl | exact fun _ => rfl)
    | dsimp only

theorem ringPutOf_only {s : State} {region : Option Nat} {r : RingRegs} {bytes : List Byte} (hL : names L [.ringQ, .out, .xfers] = true) 
    (ho : s0.onlyChanges s L) : s0.onlyChanges (State.ringPutOf s region r bytes) L := by
  unfold State.ringPutOf
  try dsimp only
  repeat' first
    | with_reducible assumption
    | (refine names_trans hL ?_
       try simp only [keyTypes, Nat.reduceMod]
       decide)
    | with_reducible first
      | refine names_cons ?_ ?_
      | refine only_ite ?_ ?_
      | refine only_ite_snd ?_ ?_
      | refine only_ite_fst ?_ ?_
      | refine ringGo_only (hL := ?_) (ho := ?_)
    | split
    | (with_reducible refine only_pages (z := [.ringQ, .xfers]) ?_ ?_ ?_ ?_ ?_ ?_ ?_ ?_ ?_ ?_
       · refine names_trans hL ?_
         first | decide | (refine names_of_subset ?_; simp; done)
       iterate 8 · first | with_reducible rfl | (intro _; with_reducible rfl) | exact fun h => not_free h rfl | (intro _; dsimp only; split <;> rfl) | exact rfl | exact fun _ => rfl)
    | dsimp only

theorem ringPut_only {s : State} {r : RingRegs} {bytes : List Byte} (hL : names L [.ringQ, .out, .xfers] = true) 
    (ho : s0.onlyChanges s L) : s0.onlyChanges (State.ringPut s r bytes) L := by
  unfold State.ringPut
  try dsimp only
  repeat' first
    | with_reducible assumption
    | (refine names_trans hL ?_
       try simp only [keyTypes, Nat.reduceMod]
       decide)
    | with_reducible first
      | refine names_cons ?_ ?_
      | refine only_ite ?_ ?_
      | refine only_ite_snd ?_ ?_
      | refine only_ite_fst ?_ ?_
      | refine ringPutOf_only (hL := ?_) (ho := ?_)
    | split
    | dsimp only

theorem poisonAck_only {s : State} {b : List Byte} (hL : names L [.mbox] = true) 
    (ho : s0.onlyChanges s L) : s0.onlyChanges (State.poisonAck s b) L := by
  unfold State.poisonAck
  try dsimp only
  repeat' first
    | with_reducible assumption
    | (refine names_trans hL ?_
       try simp only [keyTypes, Nat.reduceMod]
       decide)
    | with_reducible first
      | refine names_cons ?_ ?_
      | refine only_ite ?_ ?_
      | refine only_ite_snd ?_ ?_
      | refine only_ite_fst ?_ ?_
      | refine sendTyp_only (hL := ?_) (ho := ?_)
    | split
    | dsimp only

theorem ringSetRptr_only {s : State} {r : RingRegs} {v : Word} (hL : names L [.allRegs] = true) 
    (ho : s0.onlyChanges s L) : s0.onlyChanges (State.ringSetRptr s r v) L := by
  unfold State.ringSetRptr
  try dsimp only
  repeat' first
    | with_reducible assumption
    | (refine names_trans hL ?_
       try simp only [keyTypes, Nat.reduceMod]
       decide)
    | (refine names_trans hL ?_
       refine names_trans (names_of_subset ?_) names_all_word
       simp
       done)
    | (refine names_trans hL ?_
       refine names_trans (names_of_subset ?_) names_all_regs
       simp
       done)
    | with_reducible first
      | refine names_cons ?_ ?_
      | refine only_ite ?_ ?_
      | refine only_ite_snd ?_ ?_
      | refine only_ite_fst ?_ ?_
      | refine setReg_only (hL := ?_) (h := ?_)
    | split
    | dsimp only

theorem ringSetSize_only {s : State} {r : RingRegs} {v : Word} (hL : names L [.allRegs] = true) 
    (ho : s0.onlyChanges s L) : s0.onlyChanges (State.ringSetSize s r v) L := by
  unfold State.ringSetSize
  try dsimp only
  repeat' first
    | with_reducible assumption
    | (refine names_trans hL ?_
       try simp only [keyTypes, Nat.reduceMod]
       decide)
    | (refine names_trans hL ?_
       refine names_trans (names_of_subset ?_) names_all_word
       simp
       done)
    | (refine names_trans hL ?_
       refine names_trans (names_of_subset ?_) names_all_regs
       simp
       done)
    | with_reducible first
      | refine names_cons ?_ ?_
      | refine only_ite ?_ ?_
      | refine only_ite_snd ?_ ?_
      | refine only_ite_fst ?_ ?_
      | refine setReg_only (hL := ?_) (h := ?_)
    | split
    | dsimp only

theorem ringEnded_only {s : State} {r : RingRegs} {b : List Byte} {good : Bool} (hL : names L [.mbox, .hdr 0x28, .notices] = true) 
    (ho : s0.onlyChanges s L) : s0.onlyChanges (State.ringEnded s r b good) L := by
  unfold State.ringEnded
  try dsimp only
  repeat' first
    | with_reducible assumption
    | (refine names_trans hL ?_
       try simp only [keyTypes, Nat.reduceMod]
       decide)
    | with_reducible first
      | refine names_cons ?_ ?_
      | refine only_ite ?_ ?_
      | refine only_ite_snd ?_ ?_
      | refine only_ite_fst ?_ ?_
      | refine poisonAck_only (hL := ?_) (ho := ?_)
      | refine setErr_only (hL := ?_) (ho := ?_)
    | split
    | (with_reducible refine only_check (z := [.notices]) ?_ ?_ ?_ ?_ ?_ ?_ ?_ ?_ ?_
       · refine names_trans hL ?_
         first | decide | (refine names_of_subset ?_; simp; done)
       iterate 7 · first | with_reducible rfl | (intro _; with_reducible rfl) | exact fun h => not_free h rfl | (intro _; dsimp only; split <;> rfl) | exact rfl | exact fun _ => rfl)
    | dsimp only

theorem ringDone_only {s : State} {r : RingRegs} {id : Nat} {good : Bool} (hL : names L [.ringQ, .out, .xfers, .mbox, .hdr 0x28, .notices, .allRegs] = true) 
    (ho : s0.onlyChanges s L) : s0.onlyChanges (State.ringDone s r id good).2 L := by
  unfold State.ringDone
  try dsimp only
  repeat' first
    | with_reducible assumption
    | (refine names_trans hL ?_
       try simp only [keyTypes, Nat.reduceMod]
       decide)
    | (refine names_trans hL ?_
       refine names_trans (names_of_subset ?_) names_all_word
       simp
       done)
    | (refine names_trans hL ?_
       refine names_trans (names_of_subset ?_) names_all_regs
       simp
       done)
    | with_reducible first
      | refine names_cons ?_ ?_
      | refine only_ite ?_ ?_
      | refine only_ite_snd ?_ ?_
      | refine only_ite_fst ?_ ?_
      | refine ringGo_only (hL := ?_) (ho := ?_)
      | refine ringEnded_only (hL := ?_) (ho := ?_)
      | refine setReg_only (hL := ?_) (h := ?_)
    | split
    | (with_reducible refine only_pages (z := [.ringQ, .xfers]) ?_ ?_ ?_ ?_ ?_ ?_ ?_ ?_ ?_ ?_
       · refine names_trans hL ?_
         first | decide | (refine names_of_subset ?_; simp; done)
       iterate 8 · first | with_reducible rfl | (intro _; with_reducible rfl) | exact fun h => not_free h rfl | (intro _; dsimp only; split <;> rfl) | exact rfl | exact fun _ => rfl)
    | (with_reducible refine only_mk (z := [.ringQ, .out, .xfers, .mbox, .hdr 0x28, .notices, .allRegs]) hL ?_ ?_
       · intro p hp
         cases p <;> first | (dsimp only [Part.same]; done) | (dsimp only [Part.same, State.reg, State.hdr]; intro _ _; with_reducible rfl) | exact not_free (free_of_outside hp) (by decide) | exact not_free (free_of_outside hp) rfl | exact trivial | (dsimp only [Part.same]; split <;> rfl))
    | dsimp only

end Sys2Proof.Machine
end

