-- ==== Sys2Proof/Laws/FramesWork.lean ====
section
/-!
SUPPORT. What each operation and each command of Probes, Geyser, Red, RedCmd, ForestRun, ForestCmd, Svc, SvcCmd, Hpwr may
change.
-/
set_option linter.all false
namespace Sys2Proof.Machine

variable {s0 : State} {L : List Part}

/-! Probes -/

theorem probeRange_only {c : CmdIn} {act : State → Nat → State} {fin : State → Nat → State} {s : State} (hL : names L [.cmds, .word 0x08 0x100] = true) (h_act : ∀ (u : State) (x1 : Nat), s0.onlyChanges u L → s0.onlyChanges (act u x1) L) (h_fin : ∀ (u : State) (x1 : Nat), s0.onlyChanges u L → s0.onlyChanges (fin u x1) L)
    (ho : s0.onlyChanges s L) : s0.onlyChanges (probeRange c act fin s) L := by
  unfold probeRange
  try dsimp only
  repeat' first
    | with_reducible assumption
    | (refine names_trans hL ?_
       try simp only [keyTypes, Nat.reduceMod]
       decide)
    | with_reducible first
      | refine names_cons ?_ ?_
      | refine only_ite ?_ ?_
      | refine only_ite_snd ?_ ?_
      | refine only_ite_fst ?_ ?_
      | refine h_act _ _ ?_
      | refine h_fin _ _ ?_
      | refine badArg_only (hL := ?_) (ho := ?_)
      | refine failCmd_only (hL := ?_) (ho := ?_)
      | refine done_only (hL := ?_) (ho := ?_)
      | refine res_only (hL := ?_) (ho := ?_)
      | refine only_foldl (fun u x hu => ?_) ?_
      | refine only_foldl_snd (fun u x hu => ?_) ?_
      | refine only_foldl_fst (fun u x hu => ?_) ?_
    | split
    | dsimp only

theorem probeReset_only {s : State} {p : Nat} (hL : names L [.hdr 0x10, .probes] = true) 
    (ho : s0.onlyChanges s L) : s0.onlyChanges (State.probeReset s p) L := by
  unfold State.probeReset
  try dsimp only
  repeat' first
    | with_reducible assumption
    | (refine names_trans hL ?_
       try simp only [keyTypes, Nat.reduceMod]
       decide)
    | with_reducible first
      | refine names_cons ?_ ?_
      | refine only_ite ?_ ?_
      | refine only_ite_snd ?_ ?_
      | refine only_ite_fst ?_ ?_
      | refine setErr_only (hL := ?_) (ho := ?_)
      | refine modProbe_only (hL := ?_) (ho := ?_)
      | refine setProbe_only (hL := ?_) (ho := ?_)
    | split
    | dsimp only

theorem execProbeReset_only (c : CmdIn) (s : State) : ∃ st', execProbeReset c s = .next st' ∧ s.onlyChanges st' [.out, .xfers, .lines, .inj, .cmds, .power, .bpwr, .word 0x50 0x54, .activity, .host, .tap, .regs 0x08, .hdr 0x08, .hdr 0x10, .probes, .hdr 0x50, .word 0x50 0x5C, .pace] := by
  refine ⟨_, rfl, only_start fun hL h0 => ?_⟩
  refine settle_only (names_of_subset (by simp)) ?_
  repeat' first
    | with_reducible first
      | exact h0
      | assumption
    | (refine names_trans hL ?_
       try simp only [keyTypes, Nat.reduceMod]
       decide)
    | (refine names_trans hL ?_
       try simp only [keyTypes, Nat.reduceMod]
       refine names_trans (names_of_subset ?_) names_regs_word
       simp
       done)
    | with_reducible first
      | refine names_cons ?_ ?_
      | refine only_ite ?_ ?_
      | refine only_ite_snd ?_ ?_
      | refine only_ite_fst ?_ ?_
      | refine runCmd_only (hL := ?_) (h_effect := fun u hu => ?_) (ho := ?_)
      | refine probeRange_only (hL := ?_) (h_act := fun u x1 hu => ?_) (h_fin := fun u x1 hu => ?_) (ho := ?_)
      | refine probeReset_only (hL := ?_) (ho := ?_)
      | refine ok_only (hL := ?_) (ho := ?_)
      | refine res_only (hL := ?_) (ho := ?_)
      | refine loseBits_only (hL := ?_) (ho := ?_)
      | refine applySync_only (hL := ?_) (ho := ?_)
    | split
    | dsimp only

theorem execClearTotals_only (c : CmdIn) (s : State) : ∃ st', execClearTotals c s = .next st' ∧ s.onlyChanges st' [.out, .xfers, .lines, .inj, .cmds, .power, .bpwr, .word 0x50 0x54, .activity, .host, .tap, .regs 0x08, .hdr 0x08, .probes] := by
  refine ⟨_, rfl, only_start fun hL h0 => ?_⟩
  refine settle_only (names_of_subset (by simp)) ?_
  repeat' first
    | with_reducible first
      | exact h0
      | assumption
    | (refine names_trans hL ?_
       try simp only [keyTypes, Nat.reduceMod]
       decide)
    | (refine names_trans hL ?_
       try simp only [keyTypes, Nat.reduceMod]
       refine names_trans (names_of_subset ?_) names_regs_word
       simp
       done)
    | with_reducible first
      | refine names_cons ?_ ?_
      | refine only_ite ?_ ?_
      | refine only_ite_snd ?_ ?_
      | refine only_ite_fst ?_ ?_
      | refine runCmd_only (hL := ?_) (h_effect := fun u hu => ?_) (ho := ?_)
      | refine probeRange_only (hL := ?_) (h_act := fun u x1 hu => ?_) (h_fin := fun u x1 hu => ?_) (ho := ?_)
      | refine modProbe_only (hL := ?_) (ho := ?_)
      | refine setProbe_only (hL := ?_) (ho := ?_)
      | refine waitFor_only (hL := ?_) (ho := ?_)
      | refine res_only (hL := ?_) (ho := ?_)
    | split
    | dsimp only

theorem chanClear_only {s : State} {c : Channel} (hL : names L [.pace] = true) 
    (ho : s0.onlyChanges s L) : s0.onlyChanges (State.chanClear s c) L := by
  unfold State.chanClear
  try dsimp only
  repeat' first
    | with_reducible assumption
    | (refine names_trans hL ?_
       try simp only [keyTypes, Nat.reduceMod]
       decide)
    | with_reducible first
      | refine names_cons ?_ ?_
      | refine only_ite ?_ ?_
      | refine only_ite_snd ?_ ?_
      | refine only_ite_fst ?_ ?_
    | split
    | (with_reducible refine only_pace (z := [.pace]) ?_ ?_ ?_
       · refine names_trans hL ?_
         first | decide | (refine names_of_subset ?_; simp; done)
       iterate 1 · first | with_reducible rfl | (intro _; with_reducible rfl) | exact fun h => not_free h rfl | (intro _; dsimp only; split <;> rfl) | exact rfl | exact fun _ => rfl)
    | dsimp only

theorem loadMirror_only {s : State} {c : Nat} (hL : names L [.probes, .clusters] = true) 
    (ho : s0.onlyChanges s L) : s0.onlyChanges (State.loadMirror s c) L := by
  unfold State.loadMirror
  try dsimp only
  repeat' first
    | with_reducible assumption
    | (refine names_trans hL ?_
       try simp only [keyTypes, Nat.reduceMod]
       decide)
    | with_reducible first
      | refine names_cons ?_ ?_
      | refine only_ite ?_ ?_
      | refine only_ite_snd ?_ ?_
      | refine only_ite_fst ?_ ?_
      | refine modProbe_only (hL := ?_) (ho := ?_)
      | refine setProbe_only (hL := ?_) (ho := ?_)
      | refine modCluster_only (hL := ?_) (ho := ?_)
      | refine only_foldl (fun u x hu => ?_) ?_
      | refine only_foldl_snd (fun u x hu => ?_) ?_
      | refine only_foldl_fst (fun u x hu => ?_) ?_
    | split
    | dsimp only

theorem addRecord_only {s : State} {p : Nat} {r : ProbeRec} (hL : names L [.probes, .hdr 0x10, .clusters] = true) 
    (ho : s0.onlyChanges s L) : s0.onlyChanges (State.addRecord s p r) L := by
  unfold State.addRecord
  try dsimp only
  repeat' first
    | with_reducible assumption
    | (refine names_trans hL ?_
       try simp only [keyTypes, Nat.reduceMod]
       decide)
    | with_reducible first
      | refine names_cons ?_ ?_
      | refine only_ite ?_ ?_
      | refine only_ite_snd ?_ ?_
      | refine only_ite_fst ?_ ?_
      | refine modProbe_only (hL := ?_) (ho := ?_)
      | refine setProbe_only (hL := ?_) (ho := ?_)
      | refine setErr_only (hL := ?_) (ho := ?_)
      | refine modCluster_only (hL := ?_) (ho := ?_)
    | split
    | dsimp only

theorem addAgain_only {s : State} {p : Nat} {r : ProbeRec} (hL : names L [.probes, .hdr 0x10, .clusters] = true) 
    (ho : s0.onlyChanges s L) : s0.onlyChanges (State.addAgain s p r) L := by
  unfold State.addAgain
  try dsimp only
  repeat' first
    | with_reducible assumption
    | (refine names_trans hL ?_
       try simp only [keyTypes, Nat.reduceMod]
       decide)
    | with_reducible first
      | refine names_cons ?_ ?_
      | refine only_ite ?_ ?_
      | refine only_ite_snd ?_ ?_
      | refine only_ite_fst ?_ ?_
      | refine modProbe_only (hL := ?_) (ho := ?_)
      | refine setProbe_only (hL := ?_) (ho := ?_)
      | refine addRecord_only (hL := ?_) (ho := ?_)
    | split
    | dsimp only

theorem takeRecord_only {s : State} {p : Nat} {r : ProbeRec} (hL : names L [.probes, .staged, .recs, .hdr 0x58, .regs 0x93, .regs 0x91, .regs 0x38, .violations, .ports, .suspects, .hdr 0x28, .hdr 0x12, .gens, .spares, .hdr 0x10, .clusters] = true) 
    (ho : s0.onlyChanges s L) : s0.onlyChanges (State.takeRecord s p r) L := by
  unfold State.takeRecord
  try dsimp only
  repeat' first
    | with_reducible assumption
    | (refine names_trans hL ?_
       try simp only [keyTypes, Nat.reduceMod]
       decide)
    | (refine names_trans hL ?_
       try simp only [keyTypes, Nat.reduceMod]
       refine names_trans (names_of_subset ?_) names_regs_word
       simp
       done)
    | (refine names_trans hL ?_
       refine names_trans (names_of_subset ?_) names_port_word
       simp
       done)
    | with_reducible first
      | refine names_cons ?_ ?_
      | refine only_ite ?_ ?_
      | refine only_ite_snd ?_ ?_
      | refine only_ite_fst ?_ ?_
      | refine modProbe_only (hL := ?_) (ho := ?_)
      | refine setProbe_only (hL := ?_) (ho := ?_)
      | refine violate_only (hL := ?_) (ho := ?_)
      | refine setErr_only (hL := ?_) (ho := ?_)
      | refine addRecord_only (hL := ?_) (ho := ?_)
    | split
    | dsimp only

theorem deliver_only {s : State} {p : Nat} (hL : names L [.probes, .staged, .recs, .hdr 0x58, .regs 0x93, .regs 0x91, .regs 0x38, .violations, .ports, .suspects, .hdr 0x28, .hdr 0x12, .gens, .spares, .hdr 0x10, .clusters] = true) 
    (ho : s0.onlyChanges s L) : s0.onlyChanges (State.deliver s p) L := by
  unfold State.deliver
  try dsimp only
  repeat' first
    | with_reducible assumption
    | (refine names_trans hL ?_
       try simp only [keyTypes, Nat.reduceMod]
       decide)
    | (refine names_trans hL ?_
       try simp only [keyTypes, Nat.reduceMod]
       refine names_trans (names_of_subset ?_) names_regs_word
       simp
       done)
    | (refine names_trans hL ?_
       refine names_trans (names_of_subset ?_) names_port_word
       simp
       done)
    | with_reducible first
      | refine names_cons ?_ ?_
      | refine only_ite ?_ ?_
      | refine only_ite_snd ?_ ?_
      | refine only_ite_fst ?_ ?_
      | refine takeRecord_only (hL := ?_) (ho := ?_)
      | refine modProbe_only (hL := ?_) (ho := ?_)
      | refine setProbe_only (hL := ?_) (ho := ?_)
    | split
    | dsimp only

theorem resend_only {s : State} {p : Nat} (hL : names L [.probes, .hdr 0x10, .clusters, .staged, .recs, .hdr 0x58, .regs 0x93, .regs 0x91, .regs 0x38, .violations, .ports, .suspects, .hdr 0x28, .hdr 0x12, .gens, .spares] = true) 
    (ho : s0.onlyChanges s L) : s0.onlyChanges (State.resend s p) L := by
  unfold State.resend
  try dsimp only
  repeat' first
    | with_reducible assumption
    | (refine names_trans hL ?_
       try simp only [keyTypes, Nat.reduceMod]
       decide)
    | (refine names_trans hL ?_
       try simp only [keyTypes, Nat.reduceMod]
       refine names_trans (names_of_subset ?_) names_regs_word
       simp
       done)
    | (refine names_trans hL ?_
       refine names_trans (names_of_subset ?_) names_port_word
       simp
       done)
    | with_reducible first
      | refine names_cons ?_ ?_
      | refine only_ite ?_ ?_
      | refine only_ite_snd ?_ ?_
      | refine only_ite_fst ?_ ?_
      | refine addAgain_only (hL := ?_) (ho := ?_)
      | refine deliver_only (hL := ?_) (ho := ?_)
    | split
    | dsimp only

theorem commit_only {s : State} {c : Nat} (hL : names L [.probes, .clusters] = true) 
    (ho : s0.onlyChanges s L) : s0.onlyChanges (State.commit s c) L := by
  unfold State.commit
  try dsimp only
  repeat' first
    | with_reducible assumption
    | (refine names_trans hL ?_
       try simp only [keyTypes, Nat.reduceMod]
       decide)
    | with_reducible first
      | refine names_cons ?_ ?_
      | refine only_ite ?_ ?_
      | refine only_ite_snd ?_ ?_
      | refine only_ite_fst ?_ ?_
      | refine modProbe_only (hL := ?_) (ho := ?_)
      | refine setProbe_only (hL := ?_) (ho := ?_)
      | refine modCluster_only (hL := ?_) (ho := ?_)
      | refine only_foldl (fun u x hu => ?_) ?_
      | refine only_foldl_snd (fun u x hu => ?_) ?_
      | refine only_foldl_fst (fun u x hu => ?_) ?_
    | split
    | dsimp only

theorem adopt_only {s : State} {c cause arg : Nat} (hL : names L [.pace, .clusters, .probes, .hdr 0x10, .staged, .recs, .hdr 0x58, .regs 0x93, .regs 0x91, .regs 0x38, .violations, .ports, .suspects, .hdr 0x28, .hdr 0x12, .gens, .spares, .regions] = true) 
    (ho : s0.onlyChanges s L) : s0.onlyChanges (State.adopt s c cause arg) L := by
  unfold State.adopt
  try dsimp only
  repeat' first
    | with_reducible assumption
    | (refine names_trans hL ?_
       try simp only [keyTypes, Nat.reduceMod]
       decide)
    | (refine names_trans hL ?_
       try simp only [keyTypes, Nat.reduceMod]
       refine names_trans (names_of_subset ?_) names_regs_word
       simp
       done)
    | (refine names_trans hL ?_
       refine names_trans (names_of_subset ?_) names_port_word
       simp
       done)
    | with_reducible first
      | refine names_cons ?_ ?_
      | refine only_ite ?_ ?_
      | refine only_ite_snd ?_ ?_
      | refine only_ite_fst ?_ ?_
      | refine modCluster_only (hL := ?_) (ho := ?_)
      | refine chanClear_only (hL := ?_) (ho := ?_)
      | refine loadMirror_only (hL := ?_) (ho := ?_)
      | refine resend_only (hL := ?_) (ho := ?_)
      | refine commit_only (hL := ?_) (ho := ?_)
      | refine modRegion_only (hL := ?_) (ho := ?_)
      | refine spareAdd_only (hL := ?_) (ho := ?_)
      | refine setErr_only (hL := ?_) (ho := ?_)
      | refine log_only (hL := ?_) (ho := ?_)
      | refine only_foldl (fun u x hu => ?_) ?_
      | refine only_foldl_snd (fun u x hu => ?_) ?_
      | refine only_foldl_fst (fun u x hu => ?_) ?_
    | split
    | dsimp only

theorem execForceAdopt_only (c : CmdIn) (s : State) : ∃ st', execForceAdopt c s = .next st' ∧ s.onlyChanges st' [.out, .xfers, .lines, .inj, .cmds, .power, .bpwr, .word 0x50 0x54, .activity, .host, .tap, .regs 0x08, .hdr 0x08, .pace, .clusters, .probes, .hdr 0x10, .staged, .recs, .hdr 0x58, .regs 0x93, .regs 0x91, .regs 0x38, .violations, .ports, .suspects, .hdr 0x28, .hdr 0x12, .gens, .spares, .regions] := by
  refine ⟨_, rfl, only_start fun hL h0 => ?_⟩
  refine settle_only (names_of_subset (by simp)) ?_
  repeat' first
    | with_reducible first
      | exact h0
      | assumption
    | (refine names_trans hL ?_
       try simp only [keyTypes, Nat.reduceMod]
       decide)
    | (refine names_trans hL ?_
       try simp only [keyTypes, Nat.reduceMod]
       refine names_trans (names_of_subset ?_) names_regs_word
       simp
       done)
    | (refine names_trans hL ?_
       refine names_trans (names_of_subset ?_) names_port_word
       simp
       done)
    | with_reducible first
      | refine names_cons ?_ ?_
      | refine only_ite ?_ ?_
      | refine only_ite_snd ?_ ?_
      | refine only_ite_fst ?_ ?_
      | refine runCmd_only (hL := ?_) (h_effect := fun u hu => ?_) (ho := ?_)
      | refine failCmd_only (hL := ?_) (ho := ?_)
      | refine ok_only (hL := ?_) (ho := ?_)
      | refine adopt_only (hL := ?_) (ho := ?_)
    | split
    | dsimp only

theorem clearTotal_only {s : State} {p : Nat} (hL : names L [.probes, .clusters] = true) 
    (ho : s0.onlyChanges s L) : s0.onlyChanges (State.clearTotal s p) L := by
  unfold State.clearTotal
  try dsimp only
  repeat' first
    | with_reducible assumption
    | (refine names_trans hL ?_
       try simp only [keyTypes, Nat.reduceMod]
       decide)
    | with_reducible first
      | refine names_cons ?_ ?_
      | refine only_ite ?_ ?_
      | refine only_ite_snd ?_ ?_
      | refine only_ite_fst ?_ ?_
      | refine modCluster_only (hL := ?_) (ho := ?_)
      | refine modProbe_only (hL := ?_) (ho := ?_)
      | refine setProbe_only (hL := ?_) (ho := ?_)
      | refine only_foldl (fun u x hu => ?_) ?_
      | refine only_foldl_snd (fun u x hu => ?_) ?_
      | refine only_foldl_fst (fun u x hu => ?_) ?_
    | split
    | dsimp only

theorem countEdge_only {s : State} {p : Nat} {st : UnitState} {reason : BitVec 3} {evt : BitVec 16}
    {cmdStart : Bool} (hL : names L [.probes, .hdr 0x10] = true) 
    (ho : s0.onlyChanges s L) : s0.onlyChanges (State.countEdge s p st reason evt cmdStart) L := by
  unfold State.countEdge
  try dsimp only
  repeat' first
    | with_reducible assumption
    | (refine names_trans hL ?_
       try simp only [keyTypes, Nat.reduceMod]
       decide)
    | with_reducible first
      | refine names_cons ?_ ?_
      | refine only_ite ?_ ?_
      | refine only_ite_snd ?_ ?_
      | refine only_ite_fst ?_ ?_
      | refine modProbe_only (hL := ?_) (ho := ?_)
      | refine setProbe_only (hL := ?_) (ho := ?_)
      | refine setErr_only (hL := ?_) (ho := ?_)
    | split
    | dsimp only

theorem grantReset_only {s : State} {p : Nat} (hL : names L [.probes] = true) 
    (ho : s0.onlyChanges s L) : s0.onlyChanges (State.grantReset s p) L := by
  unfold State.grantReset
  try dsimp only
  repeat' first
    | with_reducible assumption
    | (refine names_trans hL ?_
       try simp only [keyTypes, Nat.reduceMod]
       decide)
    | with_reducible first
      | refine names_cons ?_ ?_
      | refine only_ite ?_ ?_
      | refine only_ite_snd ?_ ?_
      | refine only_ite_fst ?_ ?_
      | refine modProbe_only (hL := ?_) (ho := ?_)
      | refine setProbe_only (hL := ?_) (ho := ?_)
    | split
    | dsimp only

theorem loseCluster_only {s : State} {c cause : Nat} (hL : names L [.clusters, .mbox, .staged, .recs, .hdr 0x58, .hdr 0x12, .gens, .spares] = true) 
    (ho : s0.onlyChanges s L) : s0.onlyChanges (State.loseCluster s c cause) L := by
  unfold State.loseCluster
  try dsimp only
  repeat' first
    | with_reducible assumption
    | (refine names_trans hL ?_
       try simp only [keyTypes, Nat.reduceMod]
       decide)
    | with_reducible first
      | refine names_cons ?_ ?_
      | refine only_ite ?_ ?_
      | refine only_ite_snd ?_ ?_
      | refine only_ite_fst ?_ ?_
      | refine modCluster_only (hL := ?_) (ho := ?_)
      | refine replaceTray_only (hL := ?_) (ho := ?_)
      | refine spareAdd_only (hL := ?_) (ho := ?_)
    | split
    | dsimp only

theorem concFail_only {s : State} {c cause arg : Nat} (hL : names L [.clusters, .mbox, .staged, .recs, .hdr 0x58, .hdr 0x12, .gens, .spares, .pace, .probes, .hdr 0x10, .regs 0x93, .regs 0x91, .regs 0x38, .violations, .ports, .suspects, .hdr 0x28, .regions] = true) 
    (ho : s0.onlyChanges s L) : s0.onlyChanges (State.concFail s c cause arg) L := by
  unfold State.concFail
  try dsimp only
  repeat' first
    | with_reducible assumption
    | (refine names_trans hL ?_
       try simp only [keyTypes, Nat.reduceMod]
       decide)
    | (refine names_trans hL ?_
       try simp only [keyTypes, Nat.reduceMod]
       refine names_trans (names_of_subset ?_) names_regs_word
       simp
       done)
    | (refine names_trans hL ?_
       refine names_trans (names_of_subset ?_) names_port_word
       simp
       done)
    | with_reducible first
      | refine names_cons ?_ ?_
      | refine only_ite ?_ ?_
      | refine only_ite_snd ?_ ?_
      | refine only_ite_fst ?_ ?_
      | refine loseCluster_only (hL := ?_) (ho := ?_)
      | refine adopt_only (hL := ?_) (ho := ?_)
    | split
    | dsimp only

theorem regionFail_only {s : State} {r : Nat} (hL : names L [.mbox, .staged, .recs, .hdr 0x58, .regions] = true) 
    (ho : s0.onlyChanges s L) : s0.onlyChanges (State.regionFail s r) L := by
  unfold State.regionFail
  try dsimp only
  repeat' first
    | with_reducible assumption
    | (refine names_trans hL ?_
       try simp only [keyTypes, Nat.reduceMod]
       decide)
    | with_reducible first
      | refine names_cons ?_ ?_
      | refine only_ite ?_ ?_
      | refine only_ite_snd ?_ ?_
      | refine only_ite_fst ?_ ?_
      | refine replaceTray_only (hL := ?_) (ho := ?_)
      | refine modRegion_only (hL := ?_) (ho := ?_)
    | split
    | dsimp only

theorem watchChannel_only {s : State} {c : Channel} (hL : names L [.pace] = true) 
    (ho : s0.onlyChanges s L) : s0.onlyChanges (State.watchChannel s c) L := by
  unfold State.watchChannel
  try dsimp only
  repeat' first
    | with_reducible assumption
    | (refine names_trans hL ?_
       try simp only [keyTypes, Nat.reduceMod]
       decide)
    | with_reducible first
      | refine names_cons ?_ ?_
      | refine only_ite ?_ ?_
      | refine only_ite_snd ?_ ?_
      | refine only_ite_fst ?_ ?_
    | split
    | (with_reducible refine only_pace (z := [.pace]) ?_ ?_ ?_
       · refine names_trans hL ?_
         first | decide | (refine names_of_subset ?_; simp; done)
       iterate 1 · first | with_reducible rfl | (intro _; with_reducible rfl) | exact fun h => not_free h rfl | (intro _; dsimp only; split <;> rfl) | exact rfl | exact fun _ => rfl)
    | dsimp only

theorem execConcSelfchkFail_only (cluster : Nat) (s : State) : ∃ st', execConcSelfchkFail cluster s = .next st' ∧ s.onlyChanges st' [.out, .xfers, .lines, .inj, .clusters, .mbox, .staged, .recs, .hdr 0x58, .hdr 0x12, .gens, .spares, .pace, .probes, .hdr 0x10, .regs 0x93, .regs 0x91, .regs 0x38, .violations, .ports, .suspects, .hdr 0x28, .regions] := by
  refine ⟨_, rfl, only_start fun hL h0 => ?_⟩
  refine settle_only (names_of_subset (by simp)) ?_
  repeat' first
    | with_reducible first
      | exact h0
      | assumption
    | (refine names_trans hL ?_
       try simp only [keyTypes, Nat.reduceMod]
       decide)
    | (refine names_trans hL ?_
       try simp only [keyTypes, Nat.reduceMod]
       refine names_trans (names_of_subset ?_) names_regs_word
       simp
       done)
    | (refine names_trans hL ?_
       refine names_trans (names_of_subset ?_) names_port_word
       simp
       done)
    | with_reducible first
      | refine names_cons ?_ ?_
      | refine only_ite ?_ ?_
      | refine only_ite_snd ?_ ?_
      | refine only_ite_fst ?_ ?_
      | refine concFail_only (hL := ?_) (ho := ?_)
    | split
    | dsimp only

theorem execRegionConcFail_only (region : Nat) (s : State) : ∃ st', execRegionConcFail region s = .next st' ∧ s.onlyChanges st' [.out, .xfers, .lines, .inj, .mbox, .staged, .recs, .hdr 0x58, .regions] := by
  refine ⟨_, rfl, only_start fun hL h0 => ?_⟩
  refine settle_only (names_of_subset (by simp)) ?_
  repeat' first
    | with_reducible first
      | exact h0
      | assumption
    | (refine names_trans hL ?_
       try simp only [keyTypes, Nat.reduceMod]
       decide)
    | with_reducible first
      | refine names_cons ?_ ?_
      | refine only_ite ?_ ?_
      | refine only_ite_snd ?_ ?_
      | refine only_ite_fst ?_ ?_
      | refine regionFail_only (hL := ?_) (ho := ?_)
    | split
    | dsimp only

theorem execRecordDeliver_only (probe : Nat) (s : State) : ∃ st', execRecordDeliver probe s = .next st' ∧ s.onlyChanges st' [.out, .xfers, .lines, .inj, .hdr 0x10, .pace, .probes, .staged, .recs, .hdr 0x58, .regs 0x93, .regs 0x91, .regs 0x38, .violations, .ports, .suspects, .hdr 0x28, .hdr 0x12, .gens, .spares, .clusters] := by
  refine ⟨_, rfl, only_start fun hL h0 => ?_⟩
  refine settle_only (names_of_subset (by simp)) ?_
  repeat' first
    | with_reducible first
      | exact h0
      | assumption
    | (refine names_trans hL ?_
       try simp only [keyTypes, Nat.reduceMod]
       decide)
    | (refine names_trans hL ?_
       try simp only [keyTypes, Nat.reduceMod]
       refine names_trans (names_of_subset ?_) names_regs_word
       simp
       done)
    | (refine names_trans hL ?_
       refine names_trans (names_of_subset ?_) names_port_word
       simp
       done)
    | with_reducible first
      | refine names_cons ?_ ?_
      | refine only_ite ?_ ?_
      | refine only_ite_snd ?_ ?_
      | refine only_ite_fst ?_ ?_
      | refine injTake_only (hL := ?_) (ho := ?_)
      | refine watchChannel_only (hL := ?_) (ho := ?_)
      | refine deliver_only (hL := ?_) (ho := ?_)
    | split
    | (with_reducible refine only_pace (z := [.pace]) ?_ ?_ ?_
       · refine names_trans hL ?_
         first | decide | (refine names_of_subset ?_; simp; done)
       iterate 1 · first | with_reducible rfl | (intro _; with_reducible rfl) | exact fun h => not_free h rfl | (intro _; dsimp only; split <;> rfl) | exact rfl | exact fun _ => rfl)
    | dsimp only

theorem execConcCommit_only (cluster : Nat) (s : State) : ∃ st', execConcCommit cluster s = .next st' ∧ s.onlyChanges st' [.out, .xfers, .lines, .inj, .probes, .clusters] := by
  refine ⟨_, rfl, only_start fun hL h0 => ?_⟩
  refine settle_only (names_of_subset (by simp)) ?_
  repeat' first
    | with_reducible first
      | exact h0
      | assumption
    | (refine names_trans hL ?_
       try simp only [keyTypes, Nat.reduceMod]
       decide)
    | with_reducible first
      | refine names_cons ?_ ?_
      | refine only_ite ?_ ?_
      | refine only_ite_snd ?_ ?_
      | refine only_ite_fst ?_ ?_
      | refine commit_only (hL := ?_) (ho := ?_)
    | split
    | dsimp only

/-! Geyser -/

theorem modGeyser_only {s : State} {f : Geyser → Geyser} (hL : names L [.geyser] = true) 
    (ho : s0.onlyChanges s L) : s0.onlyChanges (State.modGeyser s f) L := by
  unfold State.modGeyser
  try dsimp only
  repeat' first
    | with_reducible assumption
    | (refine names_trans hL ?_
       try simp only [keyTypes, Nat.reduceMod]
       decide)
    | with_reducible first
      | refine names_cons ?_ ?_
      | refine only_ite ?_ ?_
      | refine only_ite_snd ?_ ?_
      | refine only_ite_fst ?_ ?_
    | split
    | (with_reducible refine only_samp (z := [.geyser]) ?_ ?_ ?_ ?_ ?_ ?_ ?_ ?_ ?_
       · refine names_trans hL ?_
         first | decide | (refine names_of_subset ?_; simp; done)
       iterate 7 · first | with_reducible rfl | (intro _; with_reducible rfl) | exact fun h => not_free h rfl | (intro _; dsimp only; split <;> rfl) | exact rfl | exact fun _ => rfl)
    | dsimp only

theorem gyArm_only {c : CmdIn} {s : State} (hL : names L [.geyser, .cmds, .evts] = true) 
    (ho : s0.onlyChanges s L) : s0.onlyChanges (gyArm c s) L := by
  unfold gyArm
  try dsimp only
  repeat' first
    | with_reducible assumption
    | (refine names_trans hL ?_
       try simp only [keyTypes, Nat.reduceMod]
       decide)
    | with_reducible first
      | refine names_cons ?_ ?_
      | refine only_ite ?_ ?_
      | refine only_ite_snd ?_ ?_
      | refine only_ite_fst ?_ ?_
      | refine modGeyser_only (hL := ?_) (ho := ?_)
      | refine failCmd_only (hL := ?_) (ho := ?_)
      | refine done_only (hL := ?_) (ho := ?_)
      | refine badArg_only (hL := ?_) (ho := ?_)
      | refine ok_only (hL := ?_) (ho := ?_)
      | refine evtAdd_only (he := by assumption) (hL := ?_) (ho := ?_)
      | refine waitFor_only (hL := ?_) (ho := ?_)
    | split
    | dsimp only

theorem execGeyserArm_only (c : CmdIn) (s : State) : ∃ st', execGeyserArm c s = .next st' ∧ s.onlyChanges st' [.out, .xfers, .lines, .inj, .cmds, .power, .bpwr, .word 0x50 0x54, .activity, .host, .tap, .regs 0x08, .hdr 0x08, .geyser, .evts] := by
  refine ⟨_, rfl, only_start fun hL h0 => ?_⟩
  refine settle_only (names_of_subset (by simp)) ?_
  repeat' first
    | with_reducible first
      | exact h0
      | assumption
    | (refine names_trans hL ?_
       try simp only [keyTypes, Nat.reduceMod]
       decide)
    | (refine names_trans hL ?_
       try simp only [keyTypes, Nat.reduceMod]
       refine names_trans (names_of_subset ?_) names_regs_word
       simp
       done)
    | with_reducible first
      | refine names_cons ?_ ?_
      | refine only_ite ?_ ?_
      | refine only_ite_snd ?_ ?_
      | refine only_ite_fst ?_ ?_
      | refine runCmd_only (hL := ?_) (h_effect := fun u hu => ?_) (ho := ?_)
      | refine gyArm_only (hL := ?_) (ho := ?_)
    | split
    | dsimp only

theorem gyOut_only {s : State} {r : List Byte} (hL : names L [.mbox, .ringQ, .out, .xfers, .geyser] = true) 
    (ho : s0.onlyChanges s L) : s0.onlyChanges (State.gyOut s r) L := by
  unfold State.gyOut
  try dsimp only
  repeat' first
    | with_reducible assumption
    | (refine names_trans hL ?_
       try simp only [keyTypes, Nat.reduceMod]
       decide)
    | with_reducible first
      | refine names_cons ?_ ?_
      | refine only_ite ?_ ?_
      | refine only_ite_snd ?_ ?_
      | refine only_ite_fst ?_ ?_
      | refine sendTyp_only (hL := ?_) (ho := ?_)
      | refine modGeyser_only (hL := ?_) (ho := ?_)
      | refine ringPut_only (hL := ?_) (ho := ?_)
    | split
    | dsimp only

theorem gyEnd_only {s : State} {snuffed : Bool} (hL : names L [.mbox, .ringQ, .out, .xfers, .geyser, .cmds, .evts] = true) 
    (ho : s0.onlyChanges s L) : s0.onlyChanges (State.gyEnd s snuffed) L := by
  unfold State.gyEnd
  try dsimp only
  repeat' first
    | with_reducible assumption
    | (refine names_trans hL ?_
       try simp only [keyTypes, Nat.reduceMod]
       decide)
    | with_reducible first
      | refine names_cons ?_ ?_
      | refine only_ite ?_ ?_
      | refine only_ite_snd ?_ ?_
      | refine only_ite_fst ?_ ?_
      | refine gyOut_only (hL := ?_) (ho := ?_)
      | refine complete_only (hL := ?_) (ho := ?_)
      | refine evtDrop_only (hL := ?_) (ho := ?_)
      | refine modGeyser_only (hL := ?_) (ho := ?_)
    | split
    | dsimp only

theorem gyStop_only {c : CmdIn} {s : State} (hL : names L [.cmds, .evts, .mbox, .ringQ, .out, .xfers, .geyser] = true) 
    (ho : s0.onlyChanges s L) : s0.onlyChanges (gyStop c s) L := by
  unfold gyStop
  try dsimp only
  repeat' first
    | with_reducible assumption
    | (refine names_trans hL ?_
       try simp only [keyTypes, Nat.reduceMod]
       decide)
    | with_reducible first
      | refine names_cons ?_ ?_
      | refine only_ite ?_ ?_
      | refine only_ite_snd ?_ ?_
      | refine only_ite_fst ?_ ?_
      | refine complete_only (hL := ?_) (ho := ?_)
      | refine evtDrop_only (hL := ?_) (ho := ?_)
      | refine ok_only (hL := ?_) (ho := ?_)
      | refine gyEnd_only (hL := ?_) (ho := ?_)
    | split
    | dsimp only

theorem execGeyserStop_only (c : CmdIn) (s : State) : ∃ st', execGeyserStop c s = .next st' ∧ s.onlyChanges st' [.out, .xfers, .lines, .inj, .cmds, .power, .bpwr, .word 0x50 0x54, .activity, .host, .tap, .regs 0x08, .hdr 0x08, .evts, .mbox, .ringQ, .geyser] := by
  refine ⟨_, rfl, only_start fun hL h0 => ?_⟩
  refine settle_only (names_of_subset (by simp)) ?_
  repeat' first
    | with_reducible first
      | exact h0
      | assumption
    | (refine names_trans hL ?_
       try simp only [keyTypes, Nat.reduceMod]
       decide)
    | (refine names_trans hL ?_
       try simp only [keyTypes, Nat.reduceMod]
       refine names_trans (names_of_subset ?_) names_regs_word
       simp
       done)
    | with_reducible first
      | refine names_cons ?_ ?_
      | refine only_ite ?_ ?_
      | refine only_ite_snd ?_ ?_
      | refine only_ite_fst ?_ ?_
      | refine runCmd_only (hL := ?_) (h_effect := fun u hu => ?_) (ho := ?_)
      | refine gyStop_only (hL := ?_) (ho := ?_)
    | split
    | dsimp only

theorem gyRoom_only {s : State} (hL : names L [.ringQ, .out, .xfers, .geyser] = true) 
    (ho : s0.onlyChanges s L) : s0.onlyChanges (State.gyRoom s) L := by
  unfold State.gyRoom
  try dsimp only
  repeat' first
    | with_reducible assumption
    | (refine names_trans hL ?_
       try simp only [keyTypes, Nat.reduceMod]
       decide)
    | with_reducible first
      | refine names_cons ?_ ?_
      | refine only_ite ?_ ?_
      | refine only_ite_snd ?_ ?_
      | refine only_ite_fst ?_ ?_
      | refine modGeyser_only (hL := ?_) (ho := ?_)
      | refine ringPut_only (hL := ?_) (ho := ?_)
    | split
    | dsimp only

theorem gyOpen_only {s : State} {z : FT} (hL : names L [.mbox, .ringQ, .out, .xfers, .geyser] = true) 
    (ho : s0.onlyChanges s L) : s0.onlyChanges (State.gyOpen s z) L := by
  unfold State.gyOpen
  try dsimp only
  repeat' first
    | with_reducible assumption
    | (refine names_trans hL ?_
       try simp only [keyTypes, Nat.reduceMod]
       decide)
    | with_reducible first
      | refine names_cons ?_ ?_
      | refine only_ite ?_ ?_
      | refine only_ite_snd ?_ ?_
      | refine only_ite_fst ?_ ?_
      | refine gyOut_only (hL := ?_) (ho := ?_)
      | refine modGeyser_only (hL := ?_) (ho := ?_)
      | refine only_foldl (fun u x hu => ?_) ?_
      | refine only_foldl_snd (fun u x hu => ?_) ?_
      | refine only_foldl_fst (fun u x hu => ?_) ?_
    | split
    | dsimp only

theorem gyTrigger_only {s : State} {t : GeyserTrigger} (hL : names L [.mbox, .ringQ, .out, .xfers, .geyser] = true) 
    (ho : s0.onlyChanges s L) : s0.onlyChanges (State.gyTrigger s t) L := by
  unfold State.gyTrigger
  try dsimp only
  repeat' first
    | with_reducible assumption
    | (refine names_trans hL ?_
       try simp only [keyTypes, Nat.reduceMod]
       decide)
    | with_reducible first
      | refine names_cons ?_ ?_
      | refine only_ite ?_ ?_
      | refine only_ite_snd ?_ ?_
      | refine only_ite_fst ?_ ?_
      | refine gyOpen_only (hL := ?_) (ho := ?_)
      | refine modGeyser_only (hL := ?_) (ho := ?_)
    | split
    | dsimp only

theorem gySnuff_only {s : State} (hL : names L [.cmds, .evts, .geyser, .mbox, .ringQ, .out, .xfers] = true) 
    (ho : s0.onlyChanges s L) : s0.onlyChanges (State.gySnuff s) L := by
  unfold State.gySnuff
  try dsimp only
  repeat' first
    | with_reducible assumption
    | (refine names_trans hL ?_
       try simp only [keyTypes, Nat.reduceMod]
       decide)
    | with_reducible first
      | refine names_cons ?_ ?_
      | refine only_ite ?_ ?_
      | refine only_ite_snd ?_ ?_
      | refine only_ite_fst ?_ ?_
      | refine modGeyser_only (hL := ?_) (ho := ?_)
      | refine complete_only (hL := ?_) (ho := ?_)
      | refine evtDrop_only (hL := ?_) (ho := ?_)
      | refine gyEnd_only (hL := ?_) (ho := ?_)
    | split
    | dsimp only

theorem gySampleUnit_only {s : State} {p : Nat} (hL : names L [.probes, .mbox, .ringQ, .out, .xfers, .geyser] = true) 
    (ho : s0.onlyChanges s L) : s0.onlyChanges (State.gySampleUnit s p) L := by
  unfold State.gySampleUnit
  try dsimp only
  repeat' first
    | with_reducible assumption
    | (refine names_trans hL ?_
       try simp only [keyTypes, Nat.reduceMod]
       decide)
    | with_reducible first
      | refine names_cons ?_ ?_
      | refine only_ite ?_ ?_
      | refine only_ite_snd ?_ ?_
      | refine only_ite_fst ?_ ?_
      | refine modProbe_only (hL := ?_) (ho := ?_)
      | refine setProbe_only (hL := ?_) (ho := ?_)
      | refine gyOut_only (hL := ?_) (ho := ?_)
      | refine modGeyser_only (hL := ?_) (ho := ?_)
    | split
    | dsimp only

theorem gySample_only {s : State} (hL : names L [.now, .mbox, .ringQ, .out, .xfers, .geyser, .probes, .cmds, .evts] = true) 
    (ho : s0.onlyChanges s L) : s0.onlyChanges (gySample s) L := by
  unfold gySample
  try dsimp only
  repeat' first
    | with_reducible assumption
    | (refine names_trans hL ?_
       try simp only [keyTypes, Nat.reduceMod]
       decide)
    | with_reducible first
      | refine names_cons ?_ ?_
      | refine only_ite ?_ ?_
      | refine only_ite_snd ?_ ?_
      | refine only_ite_fst ?_ ?_
      | refine advanceTo_only (hL := ?_) (ho := ?_)
      | refine gyOpen_only (hL := ?_) (ho := ?_)
      | refine modGeyser_only (hL := ?_) (ho := ?_)
      | refine gySampleUnit_only (hL := ?_) (ho := ?_)
      | refine gyEnd_only (hL := ?_) (ho := ?_)
      | refine only_foldl (fun u x hu => ?_) ?_
      | refine only_foldl_snd (fun u x hu => ?_) ?_
      | refine only_foldl_fst (fun u x hu => ?_) ?_
    | split
    | dsimp only

theorem execGeyserTrigger_only (t : GeyserTrigger) (s : State) : ∃ st', execGeyserTrigger t s = .next st' ∧ s.onlyChanges st' [.out, .xfers, .lines, .inj, .cmds, .evts, .now, .geyser, .mbox, .ringQ] := by
  refine ⟨_, rfl, only_start fun hL h0 => ?_⟩
  refine settle_only (names_of_subset (by simp)) ?_
  repeat' first
    | with_reducible first
      | exact h0
      | assumption
    | (refine names_trans hL ?_
       try simp only [keyTypes, Nat.reduceMod]
       decide)
    | with_reducible first
      | refine names_cons ?_ ?_
      | refine only_ite ?_ ?_
      | refine only_ite_snd ?_ ?_
      | refine only_ite_fst ?_ ?_
      | refine modGeyser_only (hL := ?_) (ho := ?_)
      | refine complete_only (hL := ?_) (ho := ?_)
      | refine evtDrop_only (hL := ?_) (ho := ?_)
      | refine advanceTo_only (hL := ?_) (ho := ?_)
      | refine gyTrigger_only (hL := ?_) (ho := ?_)
    | split
    | dsimp only

theorem execGeyserSample_only (s : State) : ∃ st', execGeyserSample s = .next st' ∧ s.onlyChanges st' [.out, .xfers, .lines, .inj, .now, .mbox, .ringQ, .geyser, .probes, .cmds, .evts] := by
  refine ⟨_, rfl, only_start fun hL h0 => ?_⟩
  refine settle_only (names_of_subset (by simp)) ?_
  repeat' first
    | with_reducible first
      | exact h0
      | assumption
    | (refine names_trans hL ?_
       try simp only [keyTypes, Nat.reduceMod]
       decide)
    | with_reducible first
      | refine names_cons ?_ ?_
      | refine only_ite ?_ ?_
      | refine only_ite_snd ?_ ?_
      | refine only_ite_fst ?_ ?_
      | refine gySample_only (hL := ?_) (ho := ?_)
    | split
    | dsimp only

/-! Red -/

theorem modRed_only {s : State} {sc : Nat} {f : Red → Red} (hL : names L [.redNodes] = true) 
    (ho : s0.onlyChanges s L) : s0.onlyChanges (State.modRed s sc f) L := by
  unfold State.modRed
  try dsimp only
  repeat' first
    | with_reducible assumption
    | (refine names_trans hL ?_
       try simp only [keyTypes, Nat.reduceMod]
       decide)
    | with_reducible first
      | refine names_cons ?_ ?_
      | refine only_ite ?_ ?_
      | refine only_ite_snd ?_ ?_
      | refine only_ite_fst ?_ ?_
    | split
    | (with_reducible refine only_reds (z := [.redNodes]) ?_ ?_ ?_ ?_
       · refine names_trans hL ?_
         first | decide | (refine names_of_subset ?_; simp; done)
       iterate 2 · first | with_reducible rfl | (intro _; with_reducible rfl) | exact fun h => not_free h rfl | (intro _; dsimp only; split <;> rfl) | exact rfl | exact fun _ => rfl)
    | dsimp only

theorem redDozeClose_only {s : State} {c : CloseInfo} (hL : names L [.redNodes, .redInputs] = true) 
    (ho : s0.onlyChanges s L) : s0.onlyChanges (State.redDozeClose s c) L := by
  unfold State.redDozeClose
  try dsimp only
  repeat' first
    | with_reducible assumption
    | (refine names_trans hL ?_
       try simp only [keyTypes, Nat.reduceMod]
       decide)
    | with_reducible first
      | refine names_cons ?_ ?_
      | refine only_ite ?_ ?_
      | refine only_ite_snd ?_ ?_
      | refine only_ite_fst ?_ ?_
      | refine modRed_only (hL := ?_) (ho := ?_)
    | split
    | (with_reducible refine only_reds (z := [.redNodes, .redInputs]) ?_ ?_ ?_ ?_
       · refine names_trans hL ?_
         first | decide | (refine names_of_subset ?_; simp; done)
       iterate 2 · first | with_reducible rfl | (intro _; with_reducible rfl) | exact fun h => not_free h rfl | (intro _; dsimp only; split <;> rfl) | exact rfl | exact fun _ => rfl)
    | dsimp only

theorem redClearAt_only {s : State} {sc slot window : Nat} (hL : names L [.redNodes] = true) 
    (ho : s0.onlyChanges s L) : s0.onlyChanges (State.redClearAt s sc slot window) L := by
  unfold State.redClearAt
  try dsimp only
  repeat' first
    | with_reducible assumption
    | (refine names_trans hL ?_
       try simp only [keyTypes, Nat.reduceMod]
       decide)
    | with_reducible first
      | refine names_cons ?_ ?_
      | refine only_ite ?_ ?_
      | refine only_ite_snd ?_ ?_
      | refine only_ite_fst ?_ ?_
      | refine modRed_only (hL := ?_) (ho := ?_)
    | split
    | dsimp only

theorem redErr_only {s : State} {sc : Nat} {flags : Word} (hL : names L [.hdr 0x18] = true) 
    (ho : s0.onlyChanges s L) : s0.onlyChanges (State.redErr s sc flags) L := by
  unfold State.redErr
  try dsimp only
  repeat' first
    | with_reducible assumption
    | (refine names_trans hL ?_
       try simp only [keyTypes, Nat.reduceMod]
       decide)
    | with_reducible first
      | refine names_cons ?_ ?_
      | refine only_ite ?_ ?_
      | refine only_ite_snd ?_ ?_
      | refine only_ite_fst ?_ ?_
      | refine setErr_only (hL := ?_) (ho := ?_)
    | split
    | dsimp only

theorem dropWin_only {s : State} {sc slot window : Nat} (hL : names L [.redNodes] = true) 
    (ho : s0.onlyChanges s L) : s0.onlyChanges (State.dropWin s sc slot window) L := by
  unfold State.dropWin
  try dsimp only
  repeat' first
    | with_reducible assumption
    | (refine names_trans hL ?_
       try simp only [keyTypes, Nat.reduceMod]
       decide)
    | with_reducible first
      | refine names_cons ?_ ?_
      | refine only_ite ?_ ?_
      | refine only_ite_snd ?_ ?_
      | refine only_ite_fst ?_ ?_
      | refine modRed_only (hL := ?_) (ho := ?_)
    | split
    | dsimp only

theorem redRecord_only {s : State} {sc : Nat} {r : Rule} {w : Win} {alarm : Nat} (hL : names L [.redNodes, .hdr 0x18, .gens, .mirror] = true) 
    (ho : s0.onlyChanges s L) : s0.onlyChanges (State.redRecord s sc r w alarm) L := by
  unfold State.redRecord
  try dsimp only
  repeat' first
    | with_reducible assumption
    | (refine names_trans hL ?_
       try simp only [keyTypes, Nat.reduceMod]
       decide)
    | with_reducible first
      | refine names_cons ?_ ?_
      | refine only_ite ?_ ?_
      | refine only_ite_snd ?_ ?_
      | refine only_ite_fst ?_ ?_
      | refine redClearAt_only (hL := ?_) (ho := ?_)
      | refine modRed_only (hL := ?_) (ho := ?_)
      | refine redErr_only (hL := ?_) (ho := ?_)
      | refine dropWin_only (hL := ?_) (ho := ?_)
      | refine touchWindow_only (hL := ?_) (ho := ?_)
      | refine only_foldl_snd2 (fun u x hu => ?_) ?_
      | refine only_ite_snd2 ?_ ?_
    | split
    | dsimp only

theorem redAlarm_only {s : State} {sc : Nat} {r : Rule} {x : Int} {window alarm : Nat} {up : Bool} (hL : names L [.staged, .recs, .hdr 0x58, .hdr 0x18, .redNodes] = true) 
    (ho : s0.onlyChanges s L) : s0.onlyChanges (State.redAlarm s sc r x window alarm up) L := by
  unfold State.redAlarm
  try dsimp only
  repeat' first
    | with_reducible assumption
    | (refine names_trans hL ?_
       try simp only [keyTypes, Nat.reduceMod]
       decide)
    | with_reducible first
      | refine names_cons ?_ ?_
      | refine only_ite ?_ ?_
      | refine only_ite_snd ?_ ?_
      | refine only_ite_fst ?_ ?_
      | refine log_only (hL := ?_) (ho := ?_)
      | refine setErr_only (hL := ?_) (ho := ?_)
      | refine modRed_only (hL := ?_) (ho := ?_)
    | split
    | dsimp only

theorem redSlotRule_only {s : State} {sc : Nat} {r : Rule} {x : SlotRec} (hL : names L [.redNodes, .hdr 0x18, .gens, .mirror, .staged, .recs, .hdr 0x58] = true) 
    (ho : s0.onlyChanges s L) : s0.onlyChanges (State.redSlotRule s sc r x) L := by
  unfold State.redSlotRule
  try dsimp only
  repeat' first
    | with_reducible assumption
    | (refine names_trans hL ?_
       try simp only [keyTypes, Nat.reduceMod]
       decide)
    | with_reducible first
      | refine names_cons ?_ ?_
      | refine only_ite ?_ ?_
      | refine only_ite_snd ?_ ?_
      | refine only_ite_fst ?_ ?_
      | refine redClearAt_only (hL := ?_) (ho := ?_)
      | refine redRecord_only (hL := ?_) (ho := ?_)
      | refine modRed_only (hL := ?_) (ho := ?_)
      | refine redAlarm_only (hL := ?_) (ho := ?_)
    | split
    | dsimp only

theorem redDepends_only {sc fuel : Nat} {s : State} {slot window : Nat} (hL : names L [.redNodes, .hdr 0x18, .gens, .mirror, .staged, .recs, .hdr 0x58] = true)
    (ho : s0.onlyChanges s L) : s0.onlyChanges (redDepends sc fuel s slot window) L := by
  induction fuel generalizing s slot window with
  | zero => exact ho
  | succ k ih =>
    unfold redDepends
    try dsimp only
    repeat' first
      | with_reducible assumption
      | (refine names_trans hL ?_
         try simp only [keyTypes, Nat.reduceMod]
         decide)
      | with_reducible first
        | refine names_cons ?_ ?_
        | refine ih ?_
        | refine only_ite ?_ ?_
        | refine only_ite_snd ?_ ?_
        | refine only_ite_fst ?_ ?_
        | refine redSlotRule_only (hL := ?_) (ho := ?_)
        | refine only_foldl (fun u x hu => ?_) ?_
        | refine only_foldl_snd (fun u x hu => ?_) ?_
        | refine only_foldl_fst (fun u x hu => ?_) ?_
      | split
      | dsimp only

theorem redEmit_only {s : State} {sc : Nat} {r : Rule} {w : Win} (hL : names L [.redNodes, .hdr 0x18, .gens, .mirror, .staged, .recs, .hdr 0x58] = true) 
    (ho : s0.onlyChanges s L) : s0.onlyChanges (State.redEmit s sc r w) L := by
  unfold State.redEmit
  try dsimp only
  repeat' first
    | with_reducible assumption
    | (refine names_trans hL ?_
       try simp only [keyTypes, Nat.reduceMod]
       decide)
    | with_reducible first
      | refine names_cons ?_ ?_
      | refine only_ite ?_ ?_
      | refine only_ite_snd ?_ ?_
      | refine only_ite_fst ?_ ?_
      | refine redDepends_only (hL := ?_) (ho := ?_)
      | refine redRecord_only (hL := ?_) (ho := ?_)
    | split
    | dsimp only

theorem redOwed_only {s : State} {sc : Nat} (hL : names L [.redNodes, .hdr 0x18, .gens, .mirror, .staged, .recs, .hdr 0x58] = true) 
    (ho : s0.onlyChanges s L) : s0.onlyChanges (State.redOwed s sc) L := by
  unfold State.redOwed
  try dsimp only
  repeat' first
    | with_reducible assumption
    | (refine names_trans hL ?_
       try simp only [keyTypes, Nat.reduceMod]
       decide)
    | with_reducible first
      | refine names_cons ?_ ?_
      | refine only_ite ?_ ?_
      | refine only_ite_snd ?_ ?_
      | refine only_ite_fst ?_ ?_
      | refine modRed_only (hL := ?_) (ho := ?_)
      | refine redEmit_only (hL := ?_) (ho := ?_)
      | refine only_foldl (fun u x hu => ?_) ?_
      | refine only_foldl_snd (fun u x hu => ?_) ?_
      | refine only_foldl_fst (fun u x hu => ?_) ?_
      | refine only_foldl_snd2 (fun u x hu => ?_) ?_
      | refine only_ite_snd2 ?_ ?_
    | split
    | dsimp only

theorem redReject_only {s : State} {sc : Nat} {src : BitVec 16} {p : RedPartial} {arg : Nat} (hL : names L [.regs 0x18, .hdr 0x18, .staged, .recs, .hdr 0x58] = true) 
    (ho : s0.onlyChanges s L) : s0.onlyChanges (State.redReject s sc src p arg) L := by
  unfold State.redReject
  try dsimp only
  repeat' first
    | with_reducible assumption
    | (refine names_trans hL ?_
       try simp only [keyTypes, Nat.reduceMod]
       decide)
    | (refine names_trans hL ?_
       try simp only [keyTypes, Nat.reduceMod]
       refine names_trans (names_of_subset ?_) names_regs_word
       simp
       done)
    | with_reducible first
      | refine names_cons ?_ ?_
      | refine only_ite ?_ ?_
      | refine only_ite_snd ?_ ?_
      | refine only_ite_fst ?_ ?_
      | refine bump_only (hL := ?_) (ho := ?_)
      | refine setErr_only (hL := ?_) (ho := ?_)
      | refine log_only (hL := ?_) (ho := ?_)
    | split
    | dsimp only

theorem setWin_only {s : State} {sc : Nat} {w : Win} (hL : names L [.redNodes] = true) 
    (ho : s0.onlyChanges s L) : s0.onlyChanges (State.setWin s sc w) L := by
  unfold State.setWin
  try dsimp only
  repeat' first
    | with_reducible assumption
    | (refine names_trans hL ?_
       try simp only [keyTypes, Nat.reduceMod]
       decide)
    | with_reducible first
      | refine names_cons ?_ ?_
      | refine only_ite ?_ ?_
      | refine only_ite_snd ?_ ?_
      | refine only_ite_fst ?_ ?_
      | refine modRed_only (hL := ?_) (ho := ?_)
    | split
    | dsimp only

theorem redTry_only {s : State} {sc : Nat} {r : Rule} {window : Nat} (hL : names L [.redNodes, .hdr 0x18, .gens, .mirror, .staged, .recs, .hdr 0x58] = true) 
    (ho : s0.onlyChanges s L) : s0.onlyChanges (State.redTry s sc r window) L := by
  unfold State.redTry
  try dsimp only
  repeat' first
    | with_reducible assumption
    | (refine names_trans hL ?_
       try simp only [keyTypes, Nat.reduceMod]
       decide)
    | with_reducible first
      | refine names_cons ?_ ?_
      | refine only_ite ?_ ?_
      | refine only_ite_snd ?_ ?_
      | refine only_ite_fst ?_ ?_
      | refine redEmit_only (hL := ?_) (ho := ?_)
    | split
    | dsimp only

theorem redIngest_only {s : State} {sc : Nat} {src : BitVec 16} {p : RedPartial} (hL : names L [.hdr 0x18, .staged, .recs, .hdr 0x58, .redNodes, .gens, .mirror, .regs 0x18] = true) 
    (ho : s0.onlyChanges s L) : s0.onlyChanges (State.redIngest s sc src p) L := by
  unfold State.redIngest
  try dsimp only
  repeat' first
    | with_reducible assumption
    | (refine names_trans hL ?_
       try simp only [keyTypes, Nat.reduceMod]
       decide)
    | (refine names_trans hL ?_
       try simp only [keyTypes, Nat.reduceMod]
       refine names_trans (names_of_subset ?_) names_regs_word
       simp
       done)
    | with_reducible first
      | refine names_cons ?_ ?_
      | refine only_ite ?_ ?_
      | refine only_ite_snd ?_ ?_
      | refine only_ite_fst ?_ ?_
      | refine redReject_only (hL := ?_) (ho := ?_)
      | refine setWin_only (hL := ?_) (ho := ?_)
      | refine modRed_only (hL := ?_) (ho := ?_)
      | refine redTry_only (hL := ?_) (ho := ?_)
      | refine redErr_only (hL := ?_) (ho := ?_)
    | split
    | dsimp only

theorem redTransmit_only {s : State} {sc : Nat} (hL : names L [.mbox, .redNodes] = true) 
    (ho : s0.onlyChanges s L) : s0.onlyChanges (State.redTransmit s sc) L := by
  unfold State.redTransmit
  try dsimp only
  repeat' first
    | with_reducible assumption
    | (refine names_trans hL ?_
       try simp only [keyTypes, Nat.reduceMod]
       decide)
    | with_reducible first
      | refine names_cons ?_ ?_
      | refine only_ite ?_ ?_
      | refine only_ite_snd ?_ ?_
      | refine only_ite_fst ?_ ?_
      | refine sendTyp_only (hL := ?_) (ho := ?_)
      | refine modRed_only (hL := ?_) (ho := ?_)
      | refine only_foldl (fun u x hu => ?_) ?_
      | refine only_foldl_snd (fun u x hu => ?_) ?_
      | refine only_foldl_fst (fun u x hu => ?_) ?_
    | split
    | dsimp only

theorem redFlush_only {s : State} (hL : names L [.redNodes, .hdr 0x18, .staged, .recs, .hdr 0x58, .gens, .mirror, .mbox, .regs 0x18] = true) 
    (ho : s0.onlyChanges s L) : s0.onlyChanges (State.redFlush s) L := by
  unfold State.redFlush
  try dsimp only
  repeat' first
    | with_reducible assumption
    | (refine names_trans hL ?_
       try simp only [keyTypes, Nat.reduceMod]
       decide)
    | (refine names_trans hL ?_
       try simp only [keyTypes, Nat.reduceMod]
       refine names_trans (names_of_subset ?_) names_regs_word
       simp
       done)
    | with_reducible first
      | refine names_cons ?_ ?_
      | refine only_ite ?_ ?_
      | refine only_ite_snd ?_ ?_
      | refine only_ite_fst ?_ ?_
      | refine modRed_only (hL := ?_) (ho := ?_)
      | refine redIngest_only (hL := ?_) (ho := ?_)
      | refine redTransmit_only (hL := ?_) (ho := ?_)
      | refine only_foldl (fun u x hu => ?_) ?_
      | refine only_foldl_snd (fun u x hu => ?_) ?_
      | refine only_foldl_fst (fun u x hu => ?_) ?_
    | split
    | dsimp only

theorem redActivate_only {s : State} {sc : Nat} {c : CloseInfo} {a : PendAct} (hL : names L [.redNodes, .hdr 0x18, .gens, .mirror, .staged, .recs, .hdr 0x58, .meas, .cmds, .word 0x08 0x108, .word 0x08 0x104, .word 0x08 0x100] = true) 
    (ho : s0.onlyChanges s L) : s0.onlyChanges (State.redActivate s sc c a) L := by
  unfold State.redActivate
  try dsimp only
  repeat' first
    | with_reducible assumption
    | (refine names_trans hL ?_
       try simp only [keyTypes, Nat.reduceMod]
       decide)
    | with_reducible first
      | refine names_cons ?_ ?_
      | refine only_ite ?_ ?_
      | refine only_ite_snd ?_ ?_
      | refine only_ite_fst ?_ ?_
      | refine redEmit_only (hL := ?_) (ho := ?_)
      | refine modRed_only (hL := ?_) (ho := ?_)
      | refine measSwap_only (hL := ?_) (ho := ?_)
      | refine complete_only (hL := ?_) (ho := ?_)
      | refine setRes_only (hL := ?_) (ho := ?_)
      | refine only_foldl (fun u x hu => ?_) ?_
      | refine only_foldl_snd (fun u x hu => ?_) ?_
      | refine only_foldl_fst (fun u x hu => ?_) ?_
    | split
    | dsimp only

theorem redActs_only {s : State} {sc : Nat} {c : CloseInfo} (hL : names L [.redNodes, .cmds, .hdr 0x18, .gens, .mirror, .staged, .recs, .hdr 0x58, .meas, .word 0x08 0x108, .word 0x08 0x104, .word 0x08 0x100] = true) 
    (ho : s0.onlyChanges s L) : s0.onlyChanges (State.redActs s sc c) L := by
  unfold State.redActs
  try dsimp only
  repeat' first
    | with_reducible assumption
    | (refine names_trans hL ?_
       try simp only [keyTypes, Nat.reduceMod]
       decide)
    | with_reducible first
      | refine names_cons ?_ ?_
      | refine only_ite ?_ ?_
      | refine only_ite_snd ?_ ?_
      | refine only_ite_fst ?_ ?_
      | refine modRed_only (hL := ?_) (ho := ?_)
      | refine complete_only (hL := ?_) (ho := ?_)
      | refine redActivate_only (hL := ?_) (ho := ?_)
      | refine only_foldl (fun u x hu => ?_) ?_
      | refine only_foldl_snd (fun u x hu => ?_) ?_
      | refine only_foldl_fst (fun u x hu => ?_) ?_
    | split
    | dsimp only

theorem redDieRule_only {s : State} {sens : Nat → List (Nat × Int)} {c : CloseInfo} {r : Rule} (hL : names L [.staged, .recs, .hdr 0x58, .hdr 0x18, .redNodes, .gens, .mirror] = true) 
    (ho : s0.onlyChanges s L) : s0.onlyChanges (State.redDieRule s sens c r) L := by
  unfold State.redDieRule
  try dsimp only
  repeat' first
    | with_reducible assumption
    | (refine names_trans hL ?_
       try simp only [keyTypes, Nat.reduceMod]
       decide)
    | with_reducible first
      | refine names_cons ?_ ?_
      | refine only_ite ?_ ?_
      | refine only_ite_snd ?_ ?_
      | refine only_ite_fst ?_ ?_
      | refine log_only (hL := ?_) (ho := ?_)
      | refine modRed_only (hL := ?_) (ho := ?_)
      | refine redErr_only (hL := ?_) (ho := ?_)
      | refine redEmit_only (hL := ?_) (ho := ?_)
      | refine setWin_only (hL := ?_) (ho := ?_)
      | refine only_foldl (fun u x hu => ?_) ?_
      | refine only_foldl_snd (fun u x hu => ?_) ?_
      | refine only_foldl_fst (fun u x hu => ?_) ?_
    | split
    | dsimp only

theorem redStray_only {s : State} {c : CloseInfo} (hL : names L [.redNodes, .hdr 0x18, .gens, .mirror, .staged, .recs, .hdr 0x58] = true) 
    (ho : s0.onlyChanges s L) : s0.onlyChanges (State.redStray s c) L := by
  unfold State.redStray
  try dsimp only
  repeat' first
    | with_reducible assumption
    | (refine names_trans hL ?_
       try simp only [keyTypes, Nat.reduceMod]
       decide)
    | with_reducible first
      | refine names_cons ?_ ?_
      | refine only_ite ?_ ?_
      | refine only_ite_snd ?_ ?_
      | refine only_ite_fst ?_ ?_
      | refine redEmit_only (hL := ?_) (ho := ?_)
      | refine only_foldl (fun u x hu => ?_) ?_
      | refine only_foldl_snd (fun u x hu => ?_) ?_
      | refine only_foldl_fst (fun u x hu => ?_) ?_
    | split
    | dsimp only

theorem redExpect_only {s : State} {sc : Nat} {c : CloseInfo} {r : Rule} {w : Win} (hL : names L [.redNodes, .hdr 0x18, .gens, .mirror, .staged, .recs, .hdr 0x58] = true) 
    (ho : s0.onlyChanges s L) : s0.onlyChanges (State.redExpect s sc c r w) L := by
  unfold State.redExpect
  try dsimp only
  repeat' first
    | with_reducible assumption
    | (refine names_trans hL ?_
       try simp only [keyTypes, Nat.reduceMod]
       decide)
    | with_reducible first
      | refine names_cons ?_ ?_
      | refine only_ite ?_ ?_
      | refine only_ite_snd ?_ ?_
      | refine only_ite_fst ?_ ?_
      | refine redTry_only (hL := ?_) (ho := ?_)
      | refine setWin_only (hL := ?_) (ho := ?_)
    | split
    | dsimp only

theorem redMergeRule_only {s : State} {sc : Nat} {c : CloseInfo} {r : Rule} (hL : names L [.redNodes, .hdr 0x18, .gens, .mirror, .staged, .recs, .hdr 0x58] = true) 
    (ho : s0.onlyChanges s L) : s0.onlyChanges (State.redMergeRule s sc c r) L := by
  unfold State.redMergeRule
  try dsimp only
  repeat' first
    | with_reducible assumption
    | (refine names_trans hL ?_
       try simp only [keyTypes, Nat.reduceMod]
       decide)
    | with_reducible first
      | refine names_cons ?_ ?_
      | refine only_ite ?_ ?_
      | refine only_ite_snd ?_ ?_
      | refine only_ite_fst ?_ ?_
      | refine redExpect_only (hL := ?_) (ho := ?_)
    | split
    | dsimp only

theorem redPassed_only {s : State} {sc : Nat} {c : CloseInfo} (hL : names L [.redNodes, .hdr 0x18, .gens, .mirror, .staged, .recs, .hdr 0x58] = true) 
    (ho : s0.onlyChanges s L) : s0.onlyChanges (State.redPassed s sc c) L := by
  unfold State.redPassed
  try dsimp only
  repeat' first
    | with_reducible assumption
    | (refine names_trans hL ?_
       try simp only [keyTypes, Nat.reduceMod]
       decide)
    | with_reducible first
      | refine names_cons ?_ ?_
      | refine only_ite ?_ ?_
      | refine only_ite_snd ?_ ?_
      | refine only_ite_fst ?_ ?_
      | refine redExpect_only (hL := ?_) (ho := ?_)
      | refine only_foldl (fun u x hu => ?_) ?_
      | refine only_foldl_snd (fun u x hu => ?_) ?_
      | refine only_foldl_fst (fun u x hu => ?_) ?_
    | split
    | dsimp only

theorem redClears_only {s : State} {sc : Nat} {c : CloseInfo} (hL : names L [.redNodes, .cmds] = true) 
    (ho : s0.onlyChanges s L) : s0.onlyChanges (State.redClears s sc c) L := by
  unfold State.redClears
  try dsimp only
  repeat' first
    | with_reducible assumption
    | (refine names_trans hL ?_
       try simp only [keyTypes, Nat.reduceMod]
       decide)
    | with_reducible first
      | refine names_cons ?_ ?_
      | refine only_ite ?_ ?_
      | refine only_ite_snd ?_ ?_
      | refine only_ite_fst ?_ ?_
      | refine modRed_only (hL := ?_) (ho := ?_)
      | refine complete_only (hL := ?_) (ho := ?_)
      | refine only_foldl (fun u x hu => ?_) ?_
      | refine only_foldl_snd (fun u x hu => ?_) ?_
      | refine only_foldl_fst (fun u x hu => ?_) ?_
      | refine only_foldl_snd2 (fun u x hu => ?_) ?_
      | refine only_ite_snd2 ?_ ?_
    | split
    | dsimp only

theorem redClose_only {s : State} {sens : Nat → List (Nat × Int)} {c : CloseInfo} (hL : names L [.redNodes, .hdr 0x18, .gens, .mirror, .staged, .recs, .hdr 0x58, .mbox, .cmds, .meas, .word 0x08 0x108, .word 0x08 0x104, .word 0x08 0x100, .probes, .redInputs, .regs 0x18] = true) 
    (ho : s0.onlyChanges s L) : s0.onlyChanges (State.redClose s sens c) L := by
  unfold State.redClose
  try dsimp only
  repeat' first
    | with_reducible assumption
    | (refine names_trans hL ?_
       try simp only [keyTypes, Nat.reduceMod]
       decide)
    | (refine names_trans hL ?_
       try simp only [keyTypes, Nat.reduceMod]
       refine names_trans (names_of_subset ?_) names_regs_word
       simp
       done)
    | with_reducible first
      | refine names_cons ?_ ?_
      | refine only_ite ?_ ?_
      | refine only_ite_snd ?_ ?_
      | refine only_ite_fst ?_ ?_
      | refine redOwed_only (hL := ?_) (ho := ?_)
      | refine redFlush_only (hL := ?_) (ho := ?_)
      | refine redActs_only (hL := ?_) (ho := ?_)
      | refine redDieRule_only (hL := ?_) (ho := ?_)
      | refine redStray_only (hL := ?_) (ho := ?_)
      | refine redMergeRule_only (hL := ?_) (ho := ?_)
      | refine redPassed_only (hL := ?_) (ho := ?_)
      | refine redClears_only (hL := ?_) (ho := ?_)
      | refine only_foldl (fun u x hu => ?_) ?_
      | refine only_foldl_snd (fun u x hu => ?_) ?_
      | refine only_foldl_fst (fun u x hu => ?_) ?_
    | split
    | (with_reducible refine only_reds (z := [.redNodes, .redInputs]) ?_ ?_ ?_ ?_
       · refine names_trans hL ?_
         first | decide | (refine names_of_subset ?_; simp; done)
       iterate 2 · first | with_reducible rfl | (intro _; with_reducible rfl) | exact fun h => not_free h rfl | (intro _; dsimp only; split <;> rfl) | exact rfl | exact fun _ => rfl)
    | (with_reducible refine only_samp (z := [.probes]) ?_ ?_ ?_ ?_ ?_ ?_ ?_ ?_ ?_
       · refine names_trans hL ?_
         first | decide | (refine names_of_subset ?_; simp; done)
       iterate 7 · first | with_reducible rfl | (intro _; with_reducible rfl) | exact fun h => not_free h rfl | (intro _; dsimp only; split <;> rfl) | exact rfl | exact fun _ => rfl)
    | (with_reducible refine only_mk (z := [.redNodes, .hdr 0x18, .gens, .mirror, .staged, .recs, .hdr 0x58, .mbox, .cmds, .meas, .word 0x08 0x108, .word 0x08 0x104, .word 0x08 0x100, .probes, .redInputs, .regs 0x18]) hL ?_ ?_
       · intro p hp
         cases p <;> first | (dsimp only [Part.same]; done) | (dsimp only [Part.same, State.reg, State.hdr]; intro _ _; with_reducible rfl) | exact not_free (free_of_outside hp) (by decide) | exact not_free (free_of_outside hp) rfl | exact trivial | (dsimp only [Part.same]; split <;> rfl))
    | dsimp only

theorem redAcks_only {s : State} {sc gen : Nat} (hL : names L [.redNodes, .mbox] = true) 
    (ho : s0.onlyChanges s L) : s0.onlyChanges (State.redAcks s sc gen) L := by
  unfold State.redAcks
  try dsimp only
  repeat' first
    | with_reducible assumption
    | (refine names_trans hL ?_
       try simp only [keyTypes, Nat.reduceMod]
       decide)
    | with_reducible first
      | refine names_cons ?_ ?_
      | refine only_ite ?_ ?_
      | refine only_ite_snd ?_ ?_
      | refine only_ite_fst ?_ ?_
      | refine modRed_only (hL := ?_) (ho := ?_)
      | refine sendTyp_only (hL := ?_) (ho := ?_)
      | refine only_foldl (fun u x hu => ?_) ?_
      | refine only_foldl_snd (fun u x hu => ?_) ?_
      | refine only_foldl_fst (fun u x hu => ?_) ?_
      | refine only_foldl_snd2 (fun u x hu => ?_) ?_
      | refine only_ite_snd2 ?_ ?_
      | refine only_foldl_snd3 (fun u x hu => ?_) ?_
    | split
    | dsimp only

theorem redReceive_only {s : State} {src : BitVec 16} {p : RedPartial} (hL : names L [.gens, .hdr 0x18, .staged, .recs, .hdr 0x58, .redNodes, .mirror, .mbox, .regs 0x18] = true) 
    (ho : s0.onlyChanges s L) : s0.onlyChanges (State.redReceive s src p) L := by
  unfold State.redReceive
  try dsimp only
  repeat' first
    | with_reducible assumption
    | (refine names_trans hL ?_
       try simp only [keyTypes, Nat.reduceMod]
       decide)
    | (refine names_trans hL ?_
       try simp only [keyTypes, Nat.reduceMod]
       refine names_trans (names_of_subset ?_) names_regs_word
       simp
       done)
    | with_reducible first
      | refine names_cons ?_ ?_
      | refine only_ite ?_ ?_
      | refine only_ite_snd ?_ ?_
      | refine only_ite_fst ?_ ?_
      | refine touchItem_only (hL := ?_) (ho := ?_)
      | refine redIngest_only (hL := ?_) (ho := ?_)
      | refine modRed_only (hL := ?_) (ho := ?_)
      | refine redAcks_only (hL := ?_) (ho := ?_)
      | refine redFlush_only (hL := ?_) (ho := ?_)
    | split
    | dsimp only

theorem redExpire_only {s : State} {slot window : Nat} (hL : names L [.now, .redNodes, .hdr 0x18, .staged, .recs, .hdr 0x58, .gens, .mirror, .mbox, .regs 0x18] = true) 
    (ho : s0.onlyChanges s L) : s0.onlyChanges (State.redExpire s slot window) L := by
  unfold State.redExpire
  try dsimp only
  repeat' first
    | with_reducible assumption
    | (refine names_trans hL ?_
       try simp only [keyTypes, Nat.reduceMod]
       decide)
    | (refine names_trans hL ?_
       try simp only [keyTypes, Nat.reduceMod]
       refine names_trans (names_of_subset ?_) names_regs_word
       simp
       done)
    | with_reducible first
      | refine names_cons ?_ ?_
      | refine only_ite ?_ ?_
      | refine only_ite_snd ?_ ?_
      | refine only_ite_fst ?_ ?_
      | refine advanceTo_only (hL := ?_) (ho := ?_)
      | refine redFlush_only (hL := ?_) (ho := ?_)
      | refine redEmit_only (hL := ?_) (ho := ?_)
    | split
    | dsimp only

theorem redAck_only {s : State} {slot window : Nat} (hL : names L [.mbox, .redNodes] = true) 
    (ho : s0.onlyChanges s L) : s0.onlyChanges (State.redAck s slot window) L := by
  unfold State.redAck
  try dsimp only
  repeat' first
    | with_reducible assumption
    | (refine names_trans hL ?_
       try simp only [keyTypes, Nat.reduceMod]
       decide)
    | with_reducible first
      | refine names_cons ?_ ?_
      | refine only_ite ?_ ?_
      | refine only_ite_snd ?_ ?_
      | refine only_ite_fst ?_ ?_
      | refine redTransmit_only (hL := ?_) (ho := ?_)
      | refine modRed_only (hL := ?_) (ho := ?_)
    | split
    | dsimp only

theorem execPartialAck_only (slot window : Nat) (s : State) : ∃ st', execPartialAck slot window s = .next st' ∧ s.onlyChanges st' [.out, .xfers, .lines, .inj, .mbox, .redNodes] := by
  refine ⟨_, rfl, only_start fun hL h0 => ?_⟩
  refine settle_only (names_of_subset (by simp)) ?_
  repeat' first
    | with_reducible first
      | exact h0
      | assumption
    | (refine names_trans hL ?_
       try simp only [keyTypes, Nat.reduceMod]
       decide)
    | with_reducible first
      | refine names_cons ?_ ?_
      | refine only_ite ?_ ?_
      | refine only_ite_snd ?_ ?_
      | refine only_ite_fst ?_ ?_
      | refine redAck_only (hL := ?_) (ho := ?_)
    | split
    | dsimp only

/-! RedCmd -/

theorem redCapture_only {s : State} {sc : Nat} (hL : names L [.redNodes] = true) 
    (ho : s0.onlyChanges s L) : s0.onlyChanges (State.redCapture s sc) L := by
  unfold State.redCapture
  try dsimp only
  repeat' first
    | with_reducible assumption
    | (refine names_trans hL ?_
       try simp only [keyTypes, Nat.reduceMod]
       decide)
    | with_reducible first
      | refine names_cons ?_ ?_
      | refine only_ite ?_ ?_
      | refine only_ite_snd ?_ ?_
      | refine only_ite_fst ?_ ?_
      | refine modRed_only (hL := ?_) (ho := ?_)
    | split
    | dsimp only

theorem redLoaded_only {s : State} {pkg : Bool} {n : Nat} {data : List Byte} {failed : Bool} (hL : names L [.cmds, .word 0x08 0x100, .hdr 0x18, .gens, .meas, .redNodes] = true) 
    (ho : s0.onlyChanges s L) : s0.onlyChanges (State.redLoaded s pkg n data failed) L := by
  unfold State.redLoaded
  try dsimp only
  repeat' first
    | with_reducible assumption
    | (refine names_trans hL ?_
       try simp only [keyTypes, Nat.reduceMod]
       decide)
    | with_reducible first
      | refine names_cons ?_ ?_
      | refine only_ite ?_ ?_
      | refine only_ite_snd ?_ ?_
      | refine only_ite_fst ?_ ?_
      | refine complete_only (hL := ?_) (ho := ?_)
      | refine setRes_only (hL := ?_) (ho := ?_)
      | refine setErr_only (hL := ?_) (ho := ?_)
      | refine waitPage_only (hL := ?_) (ho := ?_)
      | refine measure_only (hL := ?_) (ho := ?_)
      | refine modRed_only (hL := ?_) (ho := ?_)
    | split
    | dsimp only

theorem redLoad_only {c : CmdIn} {s : State} (hL : names L [.cmds, .word 0x08 0x100, .hdr 0x18, .gens, .meas, .redNodes, .out, .xfers] = true) 
    (ho : s0.onlyChanges s L) : s0.onlyChanges (redLoad c s) L := by
  unfold redLoad
  try dsimp only
  repeat' first
    | with_reducible assumption
    | (refine names_trans hL ?_
       try simp only [keyTypes, Nat.reduceMod]
       decide)
    | with_reducible first
      | refine names_cons ?_ ?_
      | refine only_ite ?_ ?_
      | refine only_ite_snd ?_ ?_
      | refine only_ite_fst ?_ ?_
      | refine redLoaded_only (hL := ?_) (ho := ?_)
      | refine startXfer_only (hL := ?_) (ho := ?_)
      | refine waitFor_only (hL := ?_) (ho := ?_)
    | split
    | dsimp only

theorem execRedLoad_only (c : CmdIn) (s : State) : ∃ st', execRedLoad c s = .next st' ∧ s.onlyChanges st' [.out, .xfers, .lines, .inj, .cmds, .power, .bpwr, .word 0x50 0x54, .activity, .host, .tap, .regs 0x08, .hdr 0x08, .hdr 0x18, .gens, .meas, .redNodes] := by
  refine ⟨_, rfl, only_start fun hL h0 => ?_⟩
  refine settle_only (names_of_subset (by simp)) ?_
  repeat' first
    | with_reducible first
      | exact h0
      | assumption
    | (refine names_trans hL ?_
       try simp only [keyTypes, Nat.reduceMod]
       decide)
    | (refine names_trans hL ?_
       try simp only [keyTypes, Nat.reduceMod]
       refine names_trans (names_of_subset ?_) names_regs_word
       simp
       done)
    | with_reducible first
      | refine names_cons ?_ ?_
      | refine only_ite ?_ ?_
      | refine only_ite_snd ?_ ?_
      | refine only_ite_fst ?_ ?_
      | refine runCmd_only (hL := ?_) (h_effect := fun u hu => ?_) (ho := ?_)
      | refine redLoad_only (hL := ?_) (ho := ?_)
    | split
    | dsimp only

theorem actCheck_only {s : State} {c : CmdIn} {valid measured : Bool} {late noImage : Nat} {good : State} (hL : names L [.cmds] = true) (h_good : s0.onlyChanges good L)
    (ho : s0.onlyChanges s L) : s0.onlyChanges (State.actCheck s c valid measured late noImage good) L := by
  unfold State.actCheck
  try dsimp only
  repeat' first
    | with_reducible assumption
    | (refine names_trans hL ?_
       try simp only [keyTypes, Nat.reduceMod]
       decide)
    | with_reducible first
      | refine names_cons ?_ ?_
      | refine only_ite ?_ ?_
      | refine only_ite_snd ?_ ?_
      | refine only_ite_fst ?_ ?_
      | refine failCmd_only (hL := ?_) (ho := ?_)
      | refine done_only (hL := ?_) (ho := ?_)
      | refine waitFor_only (hL := ?_) (ho := ?_)
    | split
    | dsimp only

theorem redActivateCmd_only {c : CmdIn} {s : State} (hL : names L [.cmds, .redNodes] = true) 
    (ho : s0.onlyChanges s L) : s0.onlyChanges (redActivateCmd c s) L := by
  unfold redActivateCmd
  try dsimp only
  repeat' first
    | with_reducible assumption
    | (refine names_trans hL ?_
       try simp only [keyTypes, Nat.reduceMod]
       decide)
    | with_reducible first
      | refine names_cons ?_ ?_
      | refine only_ite ?_ ?_
      | refine only_ite_snd ?_ ?_
      | refine only_ite_fst ?_ ?_
      | refine actCheck_only (hL := ?_) (h_good := ?_) (ho := ?_)
      | refine modRed_only (hL := ?_) (ho := ?_)
    | split
    | dsimp only

theorem execRedActivate_only (c : CmdIn) (s : State) : ∃ st', execRedActivate c s = .next st' ∧ s.onlyChanges st' [.out, .xfers, .lines, .inj, .cmds, .power, .bpwr, .word 0x50 0x54, .activity, .host, .tap, .regs 0x08, .hdr 0x08, .redNodes] := by
  refine ⟨_, rfl, only_start fun hL h0 => ?_⟩
  refine settle_only (names_of_subset (by simp)) ?_
  repeat' first
    | with_reducible first
      | exact h0
      | assumption
    | (refine names_trans hL ?_
       try simp only [keyTypes, Nat.reduceMod]
       decide)
    | (refine names_trans hL ?_
       try simp only [keyTypes, Nat.reduceMod]
       refine names_trans (names_of_subset ?_) names_regs_word
       simp
       done)
    | with_reducible first
      | refine names_cons ?_ ?_
      | refine only_ite ?_ ?_
      | refine only_ite_snd ?_ ?_
      | refine only_ite_fst ?_ ?_
      | refine runCmd_only (hL := ?_) (h_effect := fun u hu => ?_) (ho := ?_)
      | refine redActivateCmd_only (hL := ?_) (ho := ?_)
    | split
    | dsimp only

theorem redClearSlot_only {c : CmdIn} {s : State} (hL : names L [.cmds, .redNodes] = true) 
    (ho : s0.onlyChanges s L) : s0.onlyChanges (redClearSlot c s) L := by
  unfold redClearSlot
  try dsimp only
  repeat' first
    | with_reducible assumption
    | (refine names_trans hL ?_
       try simp only [keyTypes, Nat.reduceMod]
       decide)
    | with_reducible first
      | refine names_cons ?_ ?_
      | refine only_ite ?_ ?_
      | refine only_ite_snd ?_ ?_
      | refine only_ite_fst ?_ ?_
      | refine waitFor_only (hL := ?_) (ho := ?_)
      | refine modRed_only (hL := ?_) (ho := ?_)
      | refine failCmd_only (hL := ?_) (ho := ?_)
    | split
    | dsimp only

theorem execRedClearSlot_only (c : CmdIn) (s : State) : ∃ st', execRedClearSlot c s = .next st' ∧ s.onlyChanges st' [.out, .xfers, .lines, .inj, .cmds, .power, .bpwr, .word 0x50 0x54, .activity, .host, .tap, .regs 0x08, .hdr 0x08, .redNodes] := by
  refine ⟨_, rfl, only_start fun hL h0 => ?_⟩
  refine settle_only (names_of_subset (by simp)) ?_
  repeat' first
    | with_reducible first
      | exact h0
      | assumption
    | (refine names_trans hL ?_
       try simp only [keyTypes, Nat.reduceMod]
       decide)
    | (refine names_trans hL ?_
       try simp only [keyTypes, Nat.reduceMod]
       refine names_trans (names_of_subset ?_) names_regs_word
       simp
       done)
    | with_reducible first
      | refine names_cons ?_ ?_
      | refine only_ite ?_ ?_
      | refine only_ite_snd ?_ ?_
      | refine only_ite_fst ?_ ?_
      | refine runCmd_only (hL := ?_) (h_effect := fun u hu => ?_) (ho := ?_)
      | refine redClearSlot_only (hL := ?_) (ho := ?_)
    | split
    | dsimp only

theorem writeOut_only {s : State} {c : CmdIn} {addr : Nat} {bytes : List Byte} (hL : names L [.cmds, .out, .xfers] = true) 
    (ho : s0.onlyChanges s L) : s0.onlyChanges (State.writeOut s c addr bytes) L := by
  unfold State.writeOut
  try dsimp only
  repeat' first
    | with_reducible assumption
    | (refine names_trans hL ?_
       try simp only [keyTypes, Nat.reduceMod]
       decide)
    | with_reducible first
      | refine names_cons ?_ ?_
      | refine only_ite ?_ ?_
      | refine only_ite_snd ?_ ?_
      | refine only_ite_fst ?_ ?_
      | refine ok_only (hL := ?_) (ho := ?_)
      | refine startXfer_only (hL := ?_) (ho := ?_)
      | refine waitFor_only (hL := ?_) (ho := ?_)
    | split
    | dsimp only

theorem redCopySlot_only {c : CmdIn} {s : State} (hL : names L [.cmds, .out, .xfers, .word 0x08 0x100] = true) 
    (ho : s0.onlyChanges s L) : s0.onlyChanges (redCopySlot c s) L := by
  unfold redCopySlot
  try dsimp only
  repeat' first
    | with_reducible assumption
    | (refine names_trans hL ?_
       try simp only [keyTypes, Nat.reduceMod]
       decide)
    | with_reducible first
      | refine names_cons ?_ ?_
      | refine only_ite ?_ ?_
      | refine only_ite_snd ?_ ?_
      | refine only_ite_fst ?_ ?_
      | refine done_only (hL := ?_) (ho := ?_)
      | refine badArg_only (hL := ?_) (ho := ?_)
      | refine writeOut_only (hL := ?_) (ho := ?_)
      | refine res_only (hL := ?_) (ho := ?_)
    | split
    | dsimp only

theorem execRedCopySlot_only (c : CmdIn) (s : State) : ∃ st', execRedCopySlot c s = .next st' ∧ s.onlyChanges st' [.out, .xfers, .lines, .inj, .cmds, .power, .bpwr, .word 0x50 0x54, .activity, .host, .tap, .regs 0x08, .hdr 0x08] := by
  refine ⟨_, rfl, only_start fun hL h0 => ?_⟩
  refine settle_only (names_of_subset (by simp)) ?_
  repeat' first
    | with_reducible first
      | exact h0
      | assumption
    | (refine names_trans hL ?_
       try simp only [keyTypes, Nat.reduceMod]
       decide)
    | (refine names_trans hL ?_
       try simp only [keyTypes, Nat.reduceMod]
       refine names_trans (names_of_subset ?_) names_regs_word
       simp
       done)
    | with_reducible first
      | refine names_cons ?_ ?_
      | refine only_ite ?_ ?_
      | refine only_ite_snd ?_ ?_
      | refine only_ite_fst ?_ ?_
      | refine runCmd_only (hL := ?_) (h_effect := fun u hu => ?_) (ho := ?_)
      | refine redCopySlot_only (hL := ?_) (ho := ?_)
    | split
    | dsimp only

theorem redDump_only {c : CmdIn} {s : State} (hL : names L [.cmds, .out, .xfers, .word 0x08 0x100] = true) 
    (ho : s0.onlyChanges s L) : s0.onlyChanges (redDump c s) L := by
  unfold redDump
  try dsimp only
  repeat' first
    | with_reducible assumption
    | (refine names_trans hL ?_
       try simp only [keyTypes, Nat.reduceMod]
       decide)
    | with_reducible first
      | refine names_cons ?_ ?_
      | refine only_ite ?_ ?_
      | refine only_ite_snd ?_ ?_
      | refine only_ite_fst ?_ ?_
      | refine failCmd_only (hL := ?_) (ho := ?_)
      | refine writeOut_only (hL := ?_) (ho := ?_)
      | refine res_only (hL := ?_) (ho := ?_)
    | split
    | dsimp only

theorem execRedDump_only (c : CmdIn) (s : State) : ∃ st', execRedDump c s = .next st' ∧ s.onlyChanges st' [.out, .xfers, .lines, .inj, .cmds, .power, .bpwr, .word 0x50 0x54, .activity, .host, .tap, .regs 0x08, .hdr 0x08] := by
  refine ⟨_, rfl, only_start fun hL h0 => ?_⟩
  refine settle_only (names_of_subset (by simp)) ?_
  repeat' first
    | with_reducible first
      | exact h0
      | assumption
    | (refine names_trans hL ?_
       try simp only [keyTypes, Nat.reduceMod]
       decide)
    | (refine names_trans hL ?_
       try simp only [keyTypes, Nat.reduceMod]
       refine names_trans (names_of_subset ?_) names_regs_word
       simp
       done)
    | with_reducible first
      | refine names_cons ?_ ?_
      | refine only_ite ?_ ?_
      | refine only_ite_snd ?_ ?_
      | refine only_ite_fst ?_ ?_
      | refine runCmd_only (hL := ?_) (h_effect := fun u hu => ?_) (ho := ?_)
      | refine redDump_only (hL := ?_) (ho := ?_)
    | split
    | dsimp only

theorem redQuantile_only {s : State} {sc : Nat} {w : Word} (hL : names L [.redNodes, .regs 0x18] = true) 
    (ho : s0.onlyChanges s L) : s0.onlyChanges (State.redQuantile s sc w) L := by
  unfold State.redQuantile
  try dsimp only
  repeat' first
    | with_reducible assumption
    | (refine names_trans hL ?_
       try simp only [keyTypes, Nat.reduceMod]
       decide)
    | (refine names_trans hL ?_
       try simp only [keyTypes, Nat.reduceMod]
       refine names_trans (names_of_subset ?_) names_regs_word
       simp
       done)
    | with_reducible first
      | refine names_cons ?_ ?_
      | refine only_ite ?_ ?_
      | refine only_ite_snd ?_ ?_
      | refine only_ite_fst ?_ ?_
      | refine redCapture_only (hL := ?_) (ho := ?_)
      | refine setReg_only (hL := ?_) (h := ?_)
      | refine setRegWide_only (hL := ?_) (ho := ?_)
    | split
    | dsimp only

/-! ForestRun -/

theorem modEngine_only {s : State} {e : Nat} {f : Forest → Forest} (hL : names L [.engines] = true) 
    (ho : s0.onlyChanges s L) : s0.onlyChanges (State.modEngine s e f) L := by
  unfold State.modEngine
  try dsimp only
  repeat' first
    | with_reducible assumption
    | (refine names_trans hL ?_
       try simp only [keyTypes, Nat.reduceMod]
       decide)
    | with_reducible first
      | refine names_cons ?_ ?_
      | refine only_ite ?_ ?_
      | refine only_ite_snd ?_ ?_
      | refine only_ite_fst ?_ ?_
    | split
    | (with_reducible refine only_forest (z := [.engines]) ?_ ?_ ?_ ?_ ?_
       · refine names_trans hL ?_
         first | decide | (refine names_of_subset ?_; simp; done)
       iterate 3 · first | with_reducible rfl | (intro _; with_reducible rfl) | exact fun h => not_free h rfl | (intro _; dsimp only; split <;> rfl) | exact rfl | exact fun _ => rfl)
    | dsimp only

theorem scoreNow_only {s : State} {e : Nat} {pkg : Bool} {page : Nat} (hL : names L [.hdr 0x20, .word 0x20 0x5C, .regs 0x08, .cmds] = true) 
    (ho : s0.onlyChanges s L) : s0.onlyChanges (State.scoreNow s e pkg page) L := by
  unfold State.scoreNow
  try dsimp only
  repeat' first
    | with_reducible assumption
    | (refine names_trans hL ?_
       try simp only [keyTypes, Nat.reduceMod]
       decide)
    | (refine names_trans hL ?_
       try simp only [keyTypes, Nat.reduceMod]
       refine names_trans (names_of_subset ?_) names_regs_word
       simp
       done)
    | with_reducible first
      | refine names_cons ?_ ?_
      | refine only_ite ?_ ?_
      | refine only_ite_snd ?_ ?_
      | refine only_ite_fst ?_ ?_
      | refine setErr_only (hL := ?_) (ho := ?_)
      | refine bump_only (hL := ?_) (ho := ?_)
      | refine setRes_only (hL := ?_) (ho := ?_)
      | refine complete_only (hL := ?_) (ho := ?_)
      | refine only_foldl (fun u x hu => ?_) ?_
      | refine only_foldl_snd (fun u x hu => ?_) ?_
      | refine only_foldl_fst (fun u x hu => ?_) ?_
      | refine only_foldl_snd2 (fun u x hu => ?_) ?_
      | refine only_ite_snd2 ?_ ?_
      | refine only_foldl_snd3 (fun u x hu => ?_) ?_
    | split
    | dsimp only

theorem scoreServe_only {s : State} {e : Nat} (hL : names L [.hdr 0x20, .word 0x20 0x5C, .regs 0x08, .cmds, .engines] = true) 
    (ho : s0.onlyChanges s L) : s0.onlyChanges (State.scoreServe s e) L := by
  unfold State.scoreServe
  try dsimp only
  repeat' first
    | with_reducible assumption
    | (refine names_trans hL ?_
       try simp only [keyTypes, Nat.reduceMod]
       decide)
    | (refine names_trans hL ?_
       try simp only [keyTypes, Nat.reduceMod]
       refine names_trans (names_of_subset ?_) names_regs_word
       simp
       done)
    | with_reducible first
      | refine names_cons ?_ ?_
      | refine only_ite ?_ ?_
      | refine only_ite_snd ?_ ?_
      | refine only_ite_fst ?_ ?_
      | refine scoreNow_only (hL := ?_) (ho := ?_)
      | refine modEngine_only (hL := ?_) (ho := ?_)
      | refine only_foldl (fun u x hu => ?_) ?_
      | refine only_foldl_snd (fun u x hu => ?_) ?_
      | refine only_foldl_fst (fun u x hu => ?_) ?_
    | split
    | dsimp only

theorem modFtab_only {s : State} {f : Ftab → Ftab} (hL : names L [.ftab] = true) 
    (ho : s0.onlyChanges s L) : s0.onlyChanges (State.modFtab s f) L := by
  unfold State.modFtab
  try dsimp only
  repeat' first
    | with_reducible assumption
    | (refine names_trans hL ?_
       try simp only [keyTypes, Nat.reduceMod]
       decide)
    | with_reducible first
      | refine names_cons ?_ ?_
      | refine only_ite ?_ ?_
      | refine only_ite_snd ?_ ?_
      | refine only_ite_fst ?_ ?_
    | split
    | (with_reducible refine only_forest (z := [.ftab]) ?_ ?_ ?_ ?_ ?_
       · refine names_trans hL ?_
         first | decide | (refine names_of_subset ?_; simp; done)
       iterate 3 · first | with_reducible rfl | (intro _; with_reducible rfl) | exact fun h => not_free h rfl | (intro _; dsimp only; split <;> rfl) | exact rfl | exact fun _ => rfl)
    | dsimp only

theorem rebuildStart_only {s : State} {e : Nat} {k : Rebuild} (hL : names L [.engines] = true) 
    (ho : s0.onlyChanges s L) : s0.onlyChanges (State.rebuildStart s e k) L := by
  unfold State.rebuildStart
  try dsimp only
  repeat' first
    | with_reducible assumption
    | (refine names_trans hL ?_
       try simp only [keyTypes, Nat.reduceMod]
       decide)
    | with_reducible first
      | refine names_cons ?_ ?_
      | refine only_ite ?_ ?_
      | refine only_ite_snd ?_ ?_
      | refine only_ite_fst ?_ ?_
      | refine modEngine_only (hL := ?_) (ho := ?_)
    | split
    | dsimp only

theorem batchEnd_only {s : State} {e : Nat} (hL : names L [.engines, .word 0x20 0x54, .staged, .recs, .hdr 0x58] = true) 
    (ho : s0.onlyChanges s L) : s0.onlyChanges (State.batchEnd s e) L := by
  unfold State.batchEnd
  try dsimp only
  repeat' first
    | with_reducible assumption
    | (refine names_trans hL ?_
       try simp only [keyTypes, Nat.reduceMod]
       decide)
    | with_reducible first
      | refine names_cons ?_ ?_
      | refine only_ite ?_ ?_
      | refine only_ite_snd ?_ ?_
      | refine only_ite_fst ?_ ?_
      | refine modEngine_only (hL := ?_) (ho := ?_)
      | refine bump_only (hL := ?_) (ho := ?_)
      | refine log_only (hL := ?_) (ho := ?_)
    | split
    | dsimp only

theorem forestActs_only {s : State} {e : Nat} {c : CloseInfo} (hL : names L [.engines, .cmds, .word 0x20 0x54, .staged, .recs, .hdr 0x58, .word 0x08 0x108, .word 0x08 0x104, .word 0x08 0x100] = true) 
    (ho : s0.onlyChanges s L) : s0.onlyChanges (State.forestActs s e c) L := by
  unfold State.forestActs
  try dsimp only
  repeat' first
    | with_reducible assumption
    | (refine names_trans hL ?_
       try simp only [keyTypes, Nat.reduceMod]
       decide)
    | with_reducible first
      | refine names_cons ?_ ?_
      | refine only_ite ?_ ?_
      | refine only_ite_snd ?_ ?_
      | refine only_ite_fst ?_ ?_
      | refine modEngine_only (hL := ?_) (ho := ?_)
      | refine complete_only (hL := ?_) (ho := ?_)
      | refine rebuildStart_only (hL := ?_) (ho := ?_)
      | refine batchEnd_only (hL := ?_) (ho := ?_)
      | refine setRes_only (hL := ?_) (ho := ?_)
      | refine only_foldl (fun u x hu => ?_) ?_
      | refine only_foldl_snd (fun u x hu => ?_) ?_
      | refine only_foldl_fst (fun u x hu => ?_) ?_
    | split
    | dsimp only

theorem ftabActs_only {s : State} {c : CloseInfo} (hL : names L [.ftab, .cmds, .engines, .gens, .meas, .word 0x08 0x108, .word 0x08 0x104, .word 0x08 0x100] = true) 
    (ho : s0.onlyChanges s L) : s0.onlyChanges (State.ftabActs s c) L := by
  unfold State.ftabActs
  try dsimp only
  repeat' first
    | with_reducible assumption
    | (refine names_trans hL ?_
       try simp only [keyTypes, Nat.reduceMod]
       decide)
    | with_reducible first
      | refine names_cons ?_ ?_
      | refine only_ite ?_ ?_
      | refine only_ite_snd ?_ ?_
      | refine only_ite_fst ?_ ?_
      | refine modFtab_only (hL := ?_) (ho := ?_)
      | refine complete_only (hL := ?_) (ho := ?_)
      | refine modEngine_only (hL := ?_) (ho := ?_)
      | refine measSwap_only (hL := ?_) (ho := ?_)
      | refine setRes_only (hL := ?_) (ho := ?_)
      | refine only_foldl (fun u x hu => ?_) ?_
      | refine only_foldl_snd (fun u x hu => ?_) ?_
      | refine only_foldl_fst (fun u x hu => ?_) ?_
    | split
    | dsimp only

theorem forestClose_only {s : State} {c : CloseInfo} (hL : names L [.engines, .cmds, .word 0x20 0x54, .staged, .recs, .hdr 0x58, .word 0x08 0x108, .word 0x08 0x104, .word 0x08 0x100, .ftab, .gens, .meas, .snaps] = true) 
    (ho : s0.onlyChanges s L) : s0.onlyChanges (State.forestClose s c) L := by
  unfold State.forestClose
  try dsimp only
  repeat' first
    | with_reducible assumption
    | (refine names_trans hL ?_
       try simp only [keyTypes, Nat.reduceMod]
       decide)
    | with_reducible first
      | refine names_cons ?_ ?_
      | refine only_ite ?_ ?_
      | refine only_ite_snd ?_ ?_
      | refine only_ite_fst ?_ ?_
      | refine forestActs_only (hL := ?_) (ho := ?_)
      | refine ftabActs_only (hL := ?_) (ho := ?_)
      | refine only_foldl (fun u x hu => ?_) ?_
      | refine only_foldl_snd (fun u x hu => ?_) ?_
      | refine only_foldl_fst (fun u x hu => ?_) ?_
    | split
    | (with_reducible refine only_forest (z := [.engines, .ftab, .snaps]) ?_ ?_ ?_ ?_ ?_
       · refine names_trans hL ?_
         first | decide | (refine names_of_subset ?_; simp; done)
       iterate 3 · first | with_reducible rfl | (intro _; with_reducible rfl) | exact fun h => not_free h rfl | (intro _; dsimp only; split <;> rfl) | exact rfl | exact fun _ => rfl)
    | dsimp only

theorem batchStart_only {s : State} {e : Nat} (hL : names L [.engines, .word 0x20 0x54, .staged, .recs, .hdr 0x58, .hdr 0x20, .word 0x20 0x5C, .regs 0x08, .cmds, .now] = true) 
    (ho : s0.onlyChanges s L) : s0.onlyChanges (State.batchStart s e) L := by
  unfold State.batchStart
  try dsimp only
  repeat' first
    | with_reducible assumption
    | (refine names_trans hL ?_
       try simp only [keyTypes, Nat.reduceMod]
       decide)
    | (refine names_trans hL ?_
       try simp only [keyTypes, Nat.reduceMod]
       refine names_trans (names_of_subset ?_) names_regs_word
       simp
       done)
    | with_reducible first
      | refine names_cons ?_ ?_
      | refine only_ite ?_ ?_
      | refine only_ite_snd ?_ ?_
      | refine only_ite_fst ?_ ?_
      | refine modEngine_only (hL := ?_) (ho := ?_)
      | refine batchEnd_only (hL := ?_) (ho := ?_)
      | refine bump_only (hL := ?_) (ho := ?_)
      | refine scoreServe_only (hL := ?_) (ho := ?_)
      | refine advanceTo_only (hL := ?_) (ho := ?_)
    | split
    | dsimp only

theorem defaultHits_only {s : State} {e epoch : Nat} {defs : List (Nat × Nat × BitVec 256)} (hL : names L [.hdr 0x20, .word 0x20 0x5C, .staged, .recs, .hdr 0x58, .engines] = true) 
    (ho : s0.onlyChanges s L) : s0.onlyChanges (State.defaultHits s e epoch defs) L := by
  unfold State.defaultHits
  try dsimp only
  repeat' first
    | with_reducible assumption
    | (refine names_trans hL ?_
       try simp only [keyTypes, Nat.reduceMod]
       decide)
    | with_reducible first
      | refine names_cons ?_ ?_
      | refine only_ite ?_ ?_
      | refine only_ite_snd ?_ ?_
      | refine only_ite_fst ?_ ?_
      | refine setErr_only (hL := ?_) (ho := ?_)
      | refine bump_only (hL := ?_) (ho := ?_)
      | refine modEngine_only (hL := ?_) (ho := ?_)
      | refine log_only (hL := ?_) (ho := ?_)
      | refine only_foldl (fun u x hu => ?_) ?_
      | refine only_foldl_snd (fun u x hu => ?_) ?_
      | refine only_foldl_fst (fun u x hu => ?_) ?_
      | refine only_foldl_snd2 (fun u x hu => ?_) ?_
      | refine only_ite_snd2 ?_ ?_
    | split
    | dsimp only

theorem inferIssue_only {s : State} {e : Nat} (hL : names L [.now, .word 0x02 0x58, .hdr 0x20, .inj, .engines, .word 0x20 0x58, .word 0x20 0x5C, .staged, .recs, .hdr 0x58, .regs 0x08, .cmds, .word 0x20 0x54] = true) 
    (ho : s0.onlyChanges s L) : s0.onlyChanges (State.inferIssue s e) L := by
  unfold State.inferIssue
  try dsimp only
  repeat' first
    | with_reducible assumption
    | (refine names_trans hL ?_
       try simp only [keyTypes, Nat.reduceMod]
       decide)
    | (refine names_trans hL ?_
       try simp only [keyTypes, Nat.reduceMod]
       refine names_trans (names_of_subset ?_) names_regs_word
       simp
       done)
    | with_reducible first
      | refine names_cons ?_ ?_
      | refine only_ite ?_ ?_
      | refine only_ite_snd ?_ ?_
      | refine only_ite_fst ?_ ?_
      | refine advanceTo_only (hL := ?_) (ho := ?_)
      | refine bump_only (hL := ?_) (ho := ?_)
      | refine injTake_only (hL := ?_) (ho := ?_)
      | refine modEngine_only (hL := ?_) (ho := ?_)
      | refine setErr_only (hL := ?_) (ho := ?_)
      | refine defaultHits_only (hL := ?_) (ho := ?_)
      | refine scoreServe_only (hL := ?_) (ho := ?_)
      | refine batchEnd_only (hL := ?_) (ho := ?_)
      | refine only_foldl_snd2 (fun u x hu => ?_) ?_
      | refine only_ite_snd2 ?_ ?_
    | split
    | dsimp only

theorem verdictPost_only {s : State} {e : Nat} {v : Verdict} (hL : names L [.engines, .redInputs, .mbox, .ringQ, .out, .xfers, .geyser, .word 0x20 0x84] = true) 
    (ho : s0.onlyChanges s L) : s0.onlyChanges (State.verdictPost s e v) L := by
  unfold State.verdictPost
  try dsimp only
  repeat' first
    | with_reducible assumption
    | (refine names_trans hL ?_
       try simp only [keyTypes, Nat.reduceMod]
       decide)
    | with_reducible first
      | refine names_cons ?_ ?_
      | refine only_ite ?_ ?_
      | refine only_ite_snd ?_ ?_
      | refine only_ite_fst ?_ ?_
      | refine modEngine_only (hL := ?_) (ho := ?_)
      | refine gyTrigger_only (hL := ?_) (ho := ?_)
      | refine ringPut_only (hL := ?_) (ho := ?_)
      | refine bump_only (hL := ?_) (ho := ?_)
      | refine sendTyp_only (hL := ?_) (ho := ?_)
    | split
    | (with_reducible refine only_reds (z := [.redInputs]) ?_ ?_ ?_ ?_
       · refine names_trans hL ?_
         first | decide | (refine names_of_subset ?_; simp; done)
       iterate 2 · first | with_reducible rfl | (intro _; with_reducible rfl) | exact fun h => not_free h rfl | (intro _; dsimp only; split <;> rfl) | exact rfl | exact fun _ => rfl)
    | dsimp only

theorem batchAfter_only {s : State} {e : Nat} (hL : names L [.engines] = true) 
    (ho : s0.onlyChanges s L) : s0.onlyChanges (State.batchAfter s e) L := by
  unfold State.batchAfter
  try dsimp only
  repeat' first
    | with_reducible assumption
    | (refine names_trans hL ?_
       try simp only [keyTypes, Nat.reduceMod]
       decide)
    | with_reducible first
      | refine names_cons ?_ ?_
      | refine only_ite ?_ ?_
      | refine only_ite_snd ?_ ?_
      | refine only_ite_fst ?_ ?_
      | refine modEngine_only (hL := ?_) (ho := ?_)
    | split
    | dsimp only

theorem rebuildEnd_only {s : State} {e : Nat} (hL : names L [.engines, .gens, .meas, .hdr 0x20, .word 0x20 0x5C, .regs 0x08, .cmds] = true) 
    (ho : s0.onlyChanges s L) : s0.onlyChanges (State.rebuildEnd s e) L := by
  unfold State.rebuildEnd
  try dsimp only
  repeat' first
    | with_reducible assumption
    | (refine names_trans hL ?_
       try simp only [keyTypes, Nat.reduceMod]
       decide)
    | (refine names_trans hL ?_
       try simp only [keyTypes, Nat.reduceMod]
       refine names_trans (names_of_subset ?_) names_regs_word
       simp
       done)
    | with_reducible first
      | refine names_cons ?_ ?_
      | refine only_ite ?_ ?_
      | refine only_ite_snd ?_ ?_
      | refine only_ite_fst ?_ ?_
      | refine modEngine_only (hL := ?_) (ho := ?_)
      | refine batchAfter_only (hL := ?_) (ho := ?_)
      | refine measSwap_only (hL := ?_) (ho := ?_)
      | refine scoreServe_only (hL := ?_) (ho := ?_)
    | split
    | dsimp only

theorem bankMove_only {s : State} {e bank : Nat} (hL : names L [.engines, .staged, .recs, .hdr 0x58, .hdr 0x12, .gens, .spares, .hdr 0x20, .mbox] = true) 
    (ho : s0.onlyChanges s L) : s0.onlyChanges (State.bankMove s e bank) L := by
  unfold State.bankMove
  try dsimp only
  repeat' first
    | with_reducible assumption
    | (refine names_trans hL ?_
       try simp only [keyTypes, Nat.reduceMod]
       decide)
    | with_reducible first
      | refine names_cons ?_ ?_
      | refine only_ite ?_ ?_
      | refine only_ite_snd ?_ ?_
      | refine only_ite_fst ?_ ?_
      | refine modEngine_only (hL := ?_) (ho := ?_)
      | refine rebuildStart_only (hL := ?_) (ho := ?_)
      | refine spareAdd_only (hL := ?_) (ho := ?_)
      | refine setErr_only (hL := ?_) (ho := ?_)
      | refine replaceTray_only (hL := ?_) (ho := ?_)
    | split
    | dsimp only

theorem scrubRowAt_only {s : State} {e bank : Nat} {bad stuck : Bool} (hL : names L [.hdr 0x20, .inj, .engines, .staged, .recs, .hdr 0x58, .word 0x20 0x60, .hdr 0x12, .gens, .spares, .mbox] = true) 
    (ho : s0.onlyChanges s L) : s0.onlyChanges (State.scrubRowAt s e bank bad stuck) L := by
  unfold State.scrubRowAt
  try dsimp only
  repeat' first
    | with_reducible assumption
    | (refine names_trans hL ?_
       try simp only [keyTypes, Nat.reduceMod]
       decide)
    | with_reducible first
      | refine names_cons ?_ ?_
      | refine only_ite ?_ ?_
      | refine only_ite_snd ?_ ?_
      | refine only_ite_fst ?_ ?_
      | refine injTake_only (hL := ?_) (ho := ?_)
      | refine modEngine_only (hL := ?_) (ho := ?_)
      | refine log_only (hL := ?_) (ho := ?_)
      | refine setErr_only (hL := ?_) (ho := ?_)
      | refine bump_only (hL := ?_) (ho := ?_)
      | refine bankMove_only (hL := ?_) (ho := ?_)
      | refine spareAdd_only (hL := ?_) (ho := ?_)
    | split
    | dsimp only

theorem treeDisable_only {s : State} {e tree : Nat} (hL : names L [.staged, .recs, .hdr 0x58, .engines] = true) 
    (ho : s0.onlyChanges s L) : s0.onlyChanges (State.treeDisable s e tree) L := by
  unfold State.treeDisable
  try dsimp only
  repeat' first
    | with_reducible assumption
    | (refine names_trans hL ?_
       try simp only [keyTypes, Nat.reduceMod]
       decide)
    | with_reducible first
      | refine names_cons ?_ ?_
      | refine only_ite ?_ ?_
      | refine only_ite_snd ?_ ?_
      | refine only_ite_fst ?_ ?_
      | refine log_only (hL := ?_) (ho := ?_)
      | refine modEngine_only (hL := ?_) (ho := ?_)
    | split
    | dsimp only

theorem execBatchStart_only (engine : Nat) (s : State) : ∃ st', execBatchStart engine s = .next st' ∧ s.onlyChanges st' [.out, .xfers, .lines, .inj, .engines, .word 0x20 0x54, .staged, .recs, .hdr 0x58, .hdr 0x20, .word 0x20 0x5C, .regs 0x08, .cmds, .now] := by
  refine ⟨_, rfl, only_start fun hL h0 => ?_⟩
  refine settle_only (names_of_subset (by simp)) ?_
  repeat' first
    | with_reducible first
      | exact h0
      | assumption
    | (refine names_trans hL ?_
       try simp only [keyTypes, Nat.reduceMod]
       decide)
    | (refine names_trans hL ?_
       try simp only [keyTypes, Nat.reduceMod]
       refine names_trans (names_of_subset ?_) names_regs_word
       simp
       done)
    | with_reducible first
      | refine names_cons ?_ ?_
      | refine only_ite ?_ ?_
      | refine only_ite_snd ?_ ?_
      | refine only_ite_fst ?_ ?_
      | refine batchStart_only (hL := ?_) (ho := ?_)
    | split
    | dsimp only

theorem execInferenceIssue_only (engine : Nat) (s : State) : ∃ st', execInferenceIssue engine s = .next st' ∧ s.onlyChanges st' [.out, .xfers, .lines, .inj, .now, .word 0x02 0x58, .hdr 0x20, .engines, .word 0x20 0x58, .word 0x20 0x5C, .staged, .recs, .hdr 0x58, .regs 0x08, .cmds, .word 0x20 0x54] := by
  refine ⟨_, rfl, only_start fun hL h0 => ?_⟩
  refine settle_only (names_of_subset (by simp)) ?_
  repeat' first
    | with_reducible first
      | exact h0
      | assumption
    | (refine names_trans hL ?_
       try simp only [keyTypes, Nat.reduceMod]
       decide)
    | (refine names_trans hL ?_
       try simp only [keyTypes, Nat.reduceMod]
       refine names_trans (names_of_subset ?_) names_regs_word
       simp
       done)
    | with_reducible first
      | refine names_cons ?_ ?_
      | refine only_ite ?_ ?_
      | refine only_ite_snd ?_ ?_
      | refine only_ite_fst ?_ ?_
      | refine inferIssue_only (hL := ?_) (ho := ?_)
    | split
    | dsimp only

theorem execTcamRewrite_only (engine : Nat) (s : State) : ∃ st', execTcamRewrite engine s = .next st' ∧ s.onlyChanges st' [.out, .xfers, .lines, .inj, .engines, .gens, .meas, .hdr 0x20, .word 0x20 0x5C, .regs 0x08, .cmds] := by
  refine ⟨_, rfl, only_start fun hL h0 => ?_⟩
  refine settle_only (names_of_subset (by simp)) ?_
  repeat' first
    | with_reducible first
      | exact h0
      | assumption
    | (refine names_trans hL ?_
       try simp only [keyTypes, Nat.reduceMod]
       decide)
    | (refine names_trans hL ?_
       try simp only [keyTypes, Nat.reduceMod]
       refine names_trans (names_of_subset ?_) names_regs_word
       simp
       done)
    | with_reducible first
      | refine names_cons ?_ ?_
      | refine only_ite ?_ ?_
      | refine only_ite_snd ?_ ?_
      | refine only_ite_fst ?_ ?_
      | refine rebuildEnd_only (hL := ?_) (ho := ?_)
    | split
    | dsimp only

theorem execBankMove_only (engine bank : Nat) (s : State) : ∃ st', execBankMove engine bank s = .next st' ∧ s.onlyChanges st' [.out, .xfers, .lines, .inj, .engines, .staged, .recs, .hdr 0x58, .hdr 0x12, .gens, .spares, .hdr 0x20, .mbox] := by
  refine ⟨_, rfl, only_start fun hL h0 => ?_⟩
  refine settle_only (names_of_subset (by simp)) ?_
  repeat' first
    | with_reducible first
      | exact h0
      | assumption
    | (refine names_trans hL ?_
       try simp only [keyTypes, Nat.reduceMod]
       decide)
    | with_reducible first
      | refine names_cons ?_ ?_
      | refine only_ite ?_ ?_
      | refine only_ite_snd ?_ ?_
      | refine only_ite_fst ?_ ?_
      | refine bankMove_only (hL := ?_) (ho := ?_)
    | split
    | dsimp only

theorem execScrubRow_only (engine bank : Nat) (bad stuck : Bool) (s : State) : ∃ st', execScrubRow engine bank bad stuck s = .next st' ∧ s.onlyChanges st' [.out, .xfers, .lines, .inj, .hdr 0x20, .engines, .staged, .recs, .hdr 0x58, .word 0x20 0x60, .hdr 0x12, .gens, .spares, .mbox] := by
  refine ⟨_, rfl, only_start fun hL h0 => ?_⟩
  refine settle_only (names_of_subset (by simp)) ?_
  repeat' first
    | with_reducible first
      | exact h0
      | assumption
    | (refine names_trans hL ?_
       try simp only [keyTypes, Nat.reduceMod]
       decide)
    | with_reducible first
      | refine names_cons ?_ ?_
      | refine only_ite ?_ ?_
      | refine only_ite_snd ?_ ?_
      | refine only_ite_fst ?_ ?_
      | refine scrubRowAt_only (hL := ?_) (ho := ?_)
    | split
    | dsimp only

/-! ForestCmd -/

theorem forestLoadCmd_only {c : CmdIn} {s : State} (hL : names L [.cmds, .hdr 0x20, .out, .xfers] = true) 
    (ho : s0.onlyChanges s L) : s0.onlyChanges (forestLoadCmd c s) L := by
  unfold forestLoadCmd
  try dsimp only
  repeat' first
    | with_reducible assumption
    | (refine names_trans hL ?_
       try simp only [keyTypes, Nat.reduceMod]
       decide)
    | with_reducible first
      | refine names_cons ?_ ?_
      | refine only_ite ?_ ?_
      | refine only_ite_snd ?_ ?_
      | refine only_ite_fst ?_ ?_
      | refine failCmd_only (hL := ?_) (ho := ?_)
      | refine setErr_only (hL := ?_) (ho := ?_)
      | refine startXfer_only (hL := ?_) (ho := ?_)
      | refine waitFor_only (hL := ?_) (ho := ?_)
    | split
    | dsimp only

theorem execForestLoad_only (c : CmdIn) (s : State) : ∃ st', execForestLoad c s = .next st' ∧ s.onlyChanges st' [.out, .xfers, .lines, .inj, .cmds, .power, .bpwr, .word 0x50 0x54, .activity, .host, .tap, .regs 0x08, .hdr 0x08, .hdr 0x20] := by
  refine ⟨_, rfl, only_start fun hL h0 => ?_⟩
  refine settle_only (names_of_subset (by simp)) ?_
  repeat' first
    | with_reducible first
      | exact h0
      | assumption
    | (refine names_trans hL ?_
       try simp only [keyTypes, Nat.reduceMod]
       decide)
    | (refine names_trans hL ?_
       try simp only [keyTypes, Nat.reduceMod]
       refine names_trans (names_of_subset ?_) names_regs_word
       simp
       done)
    | with_reducible first
      | refine names_cons ?_ ?_
      | refine only_ite ?_ ?_
      | refine only_ite_snd ?_ ?_
      | refine only_ite_fst ?_ ?_
      | refine runCmd_only (hL := ?_) (h_effect := fun u hu => ?_) (ho := ?_)
      | refine forestLoadCmd_only (hL := ?_) (ho := ?_)
    | split
    | dsimp only

theorem forestActivateCmd_only {c : CmdIn} {s : State} (hL : names L [.cmds, .engines] = true) 
    (ho : s0.onlyChanges s L) : s0.onlyChanges (forestActivateCmd c s) L := by
  unfold forestActivateCmd
  try dsimp only
  repeat' first
    | with_reducible assumption
    | (refine names_trans hL ?_
       try simp only [keyTypes, Nat.reduceMod]
       decide)
    | with_reducible first
      | refine names_cons ?_ ?_
      | refine only_ite ?_ ?_
      | refine only_ite_snd ?_ ?_
      | refine only_ite_fst ?_ ?_
      | refine actCheck_only (hL := ?_) (h_good := ?_) (ho := ?_)
      | refine modEngine_only (hL := ?_) (ho := ?_)
    | split
    | dsimp only

theorem execForestActivate_only (c : CmdIn) (s : State) : ∃ st', execForestActivate c s = .next st' ∧ s.onlyChanges st' [.out, .xfers, .lines, .inj, .cmds, .power, .bpwr, .word 0x50 0x54, .activity, .host, .tap, .regs 0x08, .hdr 0x08, .engines] := by
  refine ⟨_, rfl, only_start fun hL h0 => ?_⟩
  refine settle_only (names_of_subset (by simp)) ?_
  repeat' first
    | with_reducible first
      | exact h0
      | assumption
    | (refine names_trans hL ?_
       try simp only [keyTypes, Nat.reduceMod]
       decide)
    | (refine names_trans hL ?_
       try simp only [keyTypes, Nat.reduceMod]
       refine names_trans (names_of_subset ?_) names_regs_word
       simp
       done)
    | with_reducible first
      | refine names_cons ?_ ?_
      | refine only_ite ?_ ?_
      | refine only_ite_snd ?_ ?_
      | refine only_ite_fst ?_ ?_
      | refine runCmd_only (hL := ?_) (h_effect := fun u hu => ?_) (ho := ?_)
      | refine forestActivateCmd_only (hL := ?_) (ho := ?_)
    | split
    | dsimp only

theorem forestScoreCmd_only {c : CmdIn} {s : State} (hL : names L [.cmds, .hdr 0x20, .word 0x20 0x5C, .regs 0x08, .engines] = true) 
    (ho : s0.onlyChanges s L) : s0.onlyChanges (forestScoreCmd c s) L := by
  unfold forestScoreCmd
  try dsimp only
  repeat' first
    | with_reducible assumption
    | (refine names_trans hL ?_
       try simp only [keyTypes, Nat.reduceMod]
       decide)
    | (refine names_trans hL ?_
       try simp only [keyTypes, Nat.reduceMod]
       refine names_trans (names_of_subset ?_) names_regs_word
       simp
       done)
    | with_reducible first
      | refine names_cons ?_ ?_
      | refine only_ite ?_ ?_
      | refine only_ite_snd ?_ ?_
      | refine only_ite_fst ?_ ?_
      | refine badArg_only (hL := ?_) (ho := ?_)
      | refine failCmd_only (hL := ?_) (ho := ?_)
      | refine scoreServe_only (hL := ?_) (ho := ?_)
      | refine waitFor_only (hL := ?_) (ho := ?_)
      | refine modEngine_only (hL := ?_) (ho := ?_)
    | split
    | dsimp only

theorem execForestScore_only (c : CmdIn) (s : State) : ∃ st', execForestScore c s = .next st' ∧ s.onlyChanges st' [.out, .xfers, .lines, .inj, .cmds, .power, .bpwr, .word 0x50 0x54, .activity, .host, .tap, .regs 0x08, .hdr 0x08, .hdr 0x20, .word 0x20 0x5C, .engines] := by
  refine ⟨_, rfl, only_start fun hL h0 => ?_⟩
  refine settle_only (names_of_subset (by simp)) ?_
  repeat' first
    | with_reducible first
      | exact h0
      | assumption
    | (refine names_trans hL ?_
       try simp only [keyTypes, Nat.reduceMod]
       decide)
    | (refine names_trans hL ?_
       try simp only [keyTypes, Nat.reduceMod]
       refine names_trans (names_of_subset ?_) names_regs_word
       simp
       done)
    | with_reducible first
      | refine names_cons ?_ ?_
      | refine only_ite ?_ ?_
      | refine only_ite_snd ?_ ?_
      | refine only_ite_fst ?_ ?_
      | refine runCmd_only (hL := ?_) (h_effect := fun u hu => ?_) (ho := ?_)
      | refine forestScoreCmd_only (hL := ?_) (ho := ?_)
    | split
    | dsimp only

theorem forestDumpCmd_only {c : CmdIn} {s : State} (hL : names L [.cmds, .out, .xfers, .word 0x08 0x100] = true) 
    (ho : s0.onlyChanges s L) : s0.onlyChanges (forestDumpCmd c s) L := by
  unfold forestDumpCmd
  try dsimp only
  repeat' first
    | with_reducible assumption
    | (refine names_trans hL ?_
       try simp only [keyTypes, Nat.reduceMod]
       decide)
    | with_reducible first
      | refine names_cons ?_ ?_
      | refine only_ite ?_ ?_
      | refine only_ite_snd ?_ ?_
      | refine only_ite_fst ?_ ?_
      | refine failCmd_only (hL := ?_) (ho := ?_)
      | refine writeOut_only (hL := ?_) (ho := ?_)
      | refine res_only (hL := ?_) (ho := ?_)
    | split
    | dsimp only

theorem execForestDump_only (c : CmdIn) (s : State) : ∃ st', execForestDump c s = .next st' ∧ s.onlyChanges st' [.out, .xfers, .lines, .inj, .cmds, .power, .bpwr, .word 0x50 0x54, .activity, .host, .tap, .regs 0x08, .hdr 0x08] := by
  refine ⟨_, rfl, only_start fun hL h0 => ?_⟩
  refine settle_only (names_of_subset (by simp)) ?_
  repeat' first
    | with_reducible first
      | exact h0
      | assumption
    | (refine names_trans hL ?_
       try simp only [keyTypes, Nat.reduceMod]
       decide)
    | (refine names_trans hL ?_
       try simp only [keyTypes, Nat.reduceMod]
       refine names_trans (names_of_subset ?_) names_regs_word
       simp
       done)
    | with_reducible first
      | refine names_cons ?_ ?_
      | refine only_ite ?_ ?_
      | refine only_ite_snd ?_ ?_
      | refine only_ite_fst ?_ ?_
      | refine runCmd_only (hL := ?_) (h_effect := fun u hu => ?_) (ho := ?_)
      | refine forestDumpCmd_only (hL := ?_) (ho := ?_)
    | split
    | dsimp only

theorem ftabLoadCmd_only {c : CmdIn} {s : State} (hL : names L [.cmds, .hdr 0x21, .out, .xfers] = true) 
    (ho : s0.onlyChanges s L) : s0.onlyChanges (ftabLoadCmd c s) L := by
  unfold ftabLoadCmd
  try dsimp only
  repeat' first
    | with_reducible assumption
    | (refine names_trans hL ?_
       try simp only [keyTypes, Nat.reduceMod]
       decide)
    | with_reducible first
      | refine names_cons ?_ ?_
      | refine only_ite ?_ ?_
      | refine only_ite_snd ?_ ?_
      | refine only_ite_fst ?_ ?_
      | refine failCmd_only (hL := ?_) (ho := ?_)
      | refine setErr_only (hL := ?_) (ho := ?_)
      | refine startXfer_only (hL := ?_) (ho := ?_)
      | refine waitFor_only (hL := ?_) (ho := ?_)
    | split
    | dsimp only

theorem execFtabLoad_only (c : CmdIn) (s : State) : ∃ st', execFtabLoad c s = .next st' ∧ s.onlyChanges st' [.out, .xfers, .lines, .inj, .cmds, .power, .bpwr, .word 0x50 0x54, .activity, .host, .tap, .regs 0x08, .hdr 0x08, .hdr 0x21] := by
  refine ⟨_, rfl, only_start fun hL h0 => ?_⟩
  refine settle_only (names_of_subset (by simp)) ?_
  repeat' first
    | with_reducible first
      | exact h0
      | assumption
    | (refine names_trans hL ?_
       try simp only [keyTypes, Nat.reduceMod]
       decide)
    | (refine names_trans hL ?_
       try simp only [keyTypes, Nat.reduceMod]
       refine names_trans (names_of_subset ?_) names_regs_word
       simp
       done)
    | with_reducible first
      | refine names_cons ?_ ?_
      | refine only_ite ?_ ?_
      | refine only_ite_snd ?_ ?_
      | refine only_ite_fst ?_ ?_
      | refine runCmd_only (hL := ?_) (h_effect := fun u hu => ?_) (ho := ?_)
      | refine ftabLoadCmd_only (hL := ?_) (ho := ?_)
    | split
    | dsimp only

theorem ftabSealCmd_only {c : CmdIn} {s : State} (hL : names L [.cmds, .gens, .meas, .ftab] = true) 
    (ho : s0.onlyChanges s L) : s0.onlyChanges (ftabSealCmd c s) L := by
  unfold ftabSealCmd
  try dsimp only
  repeat' first
    | with_reducible assumption
    | (refine names_trans hL ?_
       try simp only [keyTypes, Nat.reduceMod]
       decide)
    | with_reducible first
      | refine names_cons ?_ ?_
      | refine only_ite ?_ ?_
      | refine only_ite_snd ?_ ?_
      | refine only_ite_fst ?_ ?_
      | refine failCmd_only (hL := ?_) (ho := ?_)
      | refine waitFor_only (hL := ?_) (ho := ?_)
      | refine measure_only (hL := ?_) (ho := ?_)
      | refine modFtab_only (hL := ?_) (ho := ?_)
    | split
    | dsimp only

theorem execFtabSeal_only (c : CmdIn) (s : State) : ∃ st', execFtabSeal c s = .next st' ∧ s.onlyChanges st' [.out, .xfers, .lines, .inj, .cmds, .power, .bpwr, .word 0x50 0x54, .activity, .host, .tap, .regs 0x08, .hdr 0x08, .gens, .meas, .ftab] := by
  refine ⟨_, rfl, only_start fun hL h0 => ?_⟩
  refine settle_only (names_of_subset (by simp)) ?_
  repeat' first
    | with_reducible first
      | exact h0
      | assumption
    | (refine names_trans hL ?_
       try simp only [keyTypes, Nat.reduceMod]
       decide)
    | (refine names_trans hL ?_
       try simp only [keyTypes, Nat.reduceMod]
       refine names_trans (names_of_subset ?_) names_regs_word
       simp
       done)
    | with_reducible first
      | refine names_cons ?_ ?_
      | refine only_ite ?_ ?_
      | refine only_ite_snd ?_ ?_
      | refine only_ite_fst ?_ ?_
      | refine runCmd_only (hL := ?_) (h_effect := fun u hu => ?_) (ho := ?_)
      | refine ftabSealCmd_only (hL := ?_) (ho := ?_)
    | split
    | dsimp only

theorem ftabActivateCmd_only {c : CmdIn} {s : State} (hL : names L [.cmds, .ftab] = true) 
    (ho : s0.onlyChanges s L) : s0.onlyChanges (ftabActivateCmd c s) L := by
  unfold ftabActivateCmd
  try dsimp only
  repeat' first
    | with_reducible assumption
    | (refine names_trans hL ?_
       try simp only [keyTypes, Nat.reduceMod]
       decide)
    | with_reducible first
      | refine names_cons ?_ ?_
      | refine only_ite ?_ ?_
      | refine only_ite_snd ?_ ?_
      | refine only_ite_fst ?_ ?_
      | refine actCheck_only (hL := ?_) (h_good := ?_) (ho := ?_)
      | refine modFtab_only (hL := ?_) (ho := ?_)
    | split
    | dsimp only

theorem execFtabActivate_only (c : CmdIn) (s : State) : ∃ st', execFtabActivate c s = .next st' ∧ s.onlyChanges st' [.out, .xfers, .lines, .inj, .cmds, .power, .bpwr, .word 0x50 0x54, .activity, .host, .tap, .regs 0x08, .hdr 0x08, .ftab] := by
  refine ⟨_, rfl, only_start fun hL h0 => ?_⟩
  refine settle_only (names_of_subset (by simp)) ?_
  repeat' first
    | with_reducible first
      | exact h0
      | assumption
    | (refine names_trans hL ?_
       try simp only [keyTypes, Nat.reduceMod]
       decide)
    | (refine names_trans hL ?_
       try simp only [keyTypes, Nat.reduceMod]
       refine names_trans (names_of_subset ?_) names_regs_word
       simp
       done)
    | with_reducible first
      | refine names_cons ?_ ?_
      | refine only_ite ?_ ?_
      | refine only_ite_snd ?_ ?_
      | refine only_ite_fst ?_ ?_
      | refine runCmd_only (hL := ?_) (h_effect := fun u hu => ?_) (ho := ?_)
      | refine ftabActivateCmd_only (hL := ?_) (ho := ?_)
    | split
    | dsimp only

theorem ftabCopyCmd_only {c : CmdIn} {s : State} (hL : names L [.cmds, .meas, .ftab] = true) 
    (ho : s0.onlyChanges s L) : s0.onlyChanges (ftabCopyCmd c s) L := by
  unfold ftabCopyCmd
  try dsimp only
  repeat' first
    | with_reducible assumption
    | (refine names_trans hL ?_
       try simp only [keyTypes, Nat.reduceMod]
       decide)
    | with_reducible first
      | refine names_cons ?_ ?_
      | refine only_ite ?_ ?_
      | refine only_ite_snd ?_ ?_
      | refine only_ite_fst ?_ ?_
      | refine failCmd_only (hL := ?_) (ho := ?_)
      | refine ok_only (hL := ?_) (ho := ?_)
      | refine setMeas_only (hL := ?_) (ho := ?_)
      | refine modFtab_only (hL := ?_) (ho := ?_)
    | split
    | dsimp only

theorem execFtabCopy_only (c : CmdIn) (s : State) : ∃ st', execFtabCopy c s = .next st' ∧ s.onlyChanges st' [.out, .xfers, .lines, .inj, .cmds, .power, .bpwr, .word 0x50 0x54, .activity, .host, .tap, .regs 0x08, .hdr 0x08, .meas, .ftab] := by
  refine ⟨_, rfl, only_start fun hL h0 => ?_⟩
  refine settle_only (names_of_subset (by simp)) ?_
  repeat' first
    | with_reducible first
      | exact h0
      | assumption
    | (refine names_trans hL ?_
       try simp only [keyTypes, Nat.reduceMod]
       decide)
    | (refine names_trans hL ?_
       try simp only [keyTypes, Nat.reduceMod]
       refine names_trans (names_of_subset ?_) names_regs_word
       simp
       done)
    | with_reducible first
      | refine names_cons ?_ ?_
      | refine only_ite ?_ ?_
      | refine only_ite_snd ?_ ?_
      | refine only_ite_fst ?_ ?_
      | refine runCmd_only (hL := ?_) (h_effect := fun u hu => ?_) (ho := ?_)
      | refine ftabCopyCmd_only (hL := ?_) (ho := ?_)
    | split
    | dsimp only

theorem measDrop_only {s : State} {item : Nat} (hL : names L [.meas, .cmds] = true) 
    (ho : s0.onlyChanges s L) : s0.onlyChanges (State.measDrop s item) L := by
  unfold State.measDrop
  try dsimp only
  repeat' first
    | with_reducible assumption
    | (refine names_trans hL ?_
       try simp only [keyTypes, Nat.reduceMod]
       decide)
    | with_reducible first
      | refine names_cons ?_ ?_
      | refine only_ite ?_ ?_
      | refine only_ite_snd ?_ ?_
      | refine only_ite_fst ?_ ?_
      | refine complete_only (hL := ?_) (ho := ?_)
      | refine only_foldl (fun u x hu => ?_) ?_
      | refine only_foldl_snd (fun u x hu => ?_) ?_
      | refine only_foldl_fst (fun u x hu => ?_) ?_
    | split
    | (with_reducible refine only_rot (z := [.meas]) ?_ ?_ ?_ ?_ ?_ ?_ ?_ ?_ ?_ ?_
       · refine names_trans hL ?_
         first | decide | (refine names_of_subset ?_; simp; done)
       iterate 8 · first | with_reducible rfl | (intro _; with_reducible rfl) | exact fun h => not_free h rfl | (intro _; dsimp only; split <;> rfl) | exact rfl | exact fun _ => rfl)
    | dsimp only

theorem ftabWrite_only {s : State} {off : Nat} {w : Word} (hL : names L [.hdr 0x21, .ftab, .meas, .cmds] = true) 
    (ho : s0.onlyChanges s L) : s0.onlyChanges (State.ftabWrite s off w) L := by
  unfold State.ftabWrite
  try dsimp only
  repeat' first
    | with_reducible assumption
    | (refine names_trans hL ?_
       try simp only [keyTypes, Nat.reduceMod]
       decide)
    | with_reducible first
      | refine names_cons ?_ ?_
      | refine only_ite ?_ ?_
      | refine only_ite_snd ?_ ?_
      | refine only_ite_fst ?_ ?_
      | refine setErr_only (hL := ?_) (ho := ?_)
      | refine modFtab_only (hL := ?_) (ho := ?_)
      | refine setMeas_only (hL := ?_) (ho := ?_)
      | refine measDrop_only (hL := ?_) (ho := ?_)
    | split
    | dsimp only

theorem forestLoaded_only {s : State} {pkg : Bool} {n : Nat} {data : List Byte} {failed : Bool} (hL : names L [.cmds, .word 0x08 0x100, .hdr 0x20, .gens, .meas, .engines] = true) 
    (ho : s0.onlyChanges s L) : s0.onlyChanges (State.forestLoaded s pkg n data failed) L := by
  unfold State.forestLoaded
  try dsimp only
  repeat' first
    | with_reducible assumption
    | (refine names_trans hL ?_
       try simp only [keyTypes, Nat.reduceMod]
       decide)
    | with_reducible first
      | refine names_cons ?_ ?_
      | refine only_ite ?_ ?_
      | refine only_ite_snd ?_ ?_
      | refine only_ite_fst ?_ ?_
      | refine complete_only (hL := ?_) (ho := ?_)
      | refine setRes_only (hL := ?_) (ho := ?_)
      | refine setErr_only (hL := ?_) (ho := ?_)
      | refine waitPage_only (hL := ?_) (ho := ?_)
      | refine measure_only (hL := ?_) (ho := ?_)
      | refine modEngine_only (hL := ?_) (ho := ?_)
    | split
    | dsimp only

theorem ftabLoaded_only {s : State} {pkg : Bool} {n : Nat} {data : List Byte} {failed : Bool} (hL : names L [.cmds, .hdr 0x21, .gens, .meas, .ftab] = true) 
    (ho : s0.onlyChanges s L) : s0.onlyChanges (State.ftabLoaded s pkg n data failed) L := by
  unfold State.ftabLoaded
  try dsimp only
  repeat' first
    | with_reducible assumption
    | (refine names_trans hL ?_
       try simp only [keyTypes, Nat.reduceMod]
       decide)
    | with_reducible first
      | refine names_cons ?_ ?_
      | refine only_ite ?_ ?_
      | refine only_ite_snd ?_ ?_
      | refine only_ite_fst ?_ ?_
      | refine complete_only (hL := ?_) (ho := ?_)
      | refine setErr_only (hL := ?_) (ho := ?_)
      | refine waitPage_only (hL := ?_) (ho := ?_)
      | refine measure_only (hL := ?_) (ho := ?_)
      | refine modFtab_only (hL := ?_) (ho := ?_)
    | split
    | dsimp only

theorem execScoreSlotTimeout_only (pkg : Bool) (page : BitVec 3) (s : State) : ∃ st', execScoreSlotTimeout pkg page s = .next st' ∧ s.onlyChanges st' [.out, .xfers, .lines, .inj, .cmds, .engines] := by
  refine ⟨_, rfl, only_start fun hL h0 => ?_⟩
  refine settle_only (names_of_subset (by simp)) ?_
  repeat' first
    | with_reducible first
      | exact h0
      | assumption
    | (refine names_trans hL ?_
       try simp only [keyTypes, Nat.reduceMod]
       decide)
    | with_reducible first
      | refine names_cons ?_ ?_
      | refine only_ite ?_ ?_
      | refine only_ite_snd ?_ ?_
      | refine only_ite_fst ?_ ?_
      | refine complete_only (hL := ?_) (ho := ?_)
      | refine modEngine_only (hL := ?_) (ho := ?_)
    | split
    | dsimp only

/-! Svc -/

theorem bcastNew_only {s : State} {kind : Nat} {immediate waves : Bool} {job guard : Nat} {t : FT} {runtime : Nat}
    {args : List Byte} (hL : names L [.bcasts] = true) 
    (ho : s0.onlyChanges s L) : s0.onlyChanges (State.bcastNew s kind immediate waves job guard t runtime args).2 L := by
  unfold State.bcastNew
  try dsimp only
  repeat' first
    | with_reducible assumption
    | (refine names_trans hL ?_
       try simp only [keyTypes, Nat.reduceMod]
       decide)
    | with_reducible first
      | refine names_cons ?_ ?_
      | refine only_ite ?_ ?_
      | refine only_ite_snd ?_ ?_
      | refine only_ite_fst ?_ ?_
    | split
    | (with_reducible refine modSvc_only (z := [.bcasts]) ?_ ?_ ?_ ?_ ?_ ?_ ?_
       · refine names_trans hL ?_
         first | decide | (refine names_of_subset ?_; simp; done)
       iterate 5 · first | with_reducible rfl | (intro _; with_reducible rfl) | exact fun h => not_free h rfl | (intro _; dsimp only; split <;> rfl) | exact rfl | exact fun _ => rfl)
    | dsimp only

theorem svcErr_only {s : State} {b : Nat} (hL : names L [.hdr 0x40] = true) 
    (ho : s0.onlyChanges s L) : s0.onlyChanges (State.svcErr s b) L := by
  unfold State.svcErr
  try dsimp only
  repeat' first
    | with_reducible assumption
    | (refine names_trans hL ?_
       try simp only [keyTypes, Nat.reduceMod]
       decide)
    | with_reducible first
      | refine names_cons ?_ ?_
      | refine only_ite ?_ ?_
      | refine only_ite_snd ?_ ?_
      | refine only_ite_fst ?_ ?_
      | refine setErr_only (hL := ?_) (ho := ?_)
    | split
    | dsimp only

theorem sendOn_only {s : State} {p : Nat} {typ : Byte} {dest : Dest} {payload : List Byte} (hL : names L [.mbox] = true) 
    (ho : s0.onlyChanges s L) : s0.onlyChanges (State.sendOn s p typ dest payload) L := by
  unfold State.sendOn
  try dsimp only
  repeat' first
    | with_reducible assumption
    | (refine names_trans hL ?_
       try simp only [keyTypes, Nat.reduceMod]
       decide)
    | with_reducible first
      | refine names_cons ?_ ?_
      | refine only_ite ?_ ?_
      | refine only_ite_snd ?_ ?_
      | refine only_ite_fst ?_ ?_
    | split
    | (with_reducible refine only_mbox (z := [.mbox]) ?_ ?_ ?_
       · refine names_trans hL ?_
         first | decide | (refine names_of_subset ?_; simp; done)
       iterate 1 · first | with_reducible rfl | (intro _; with_reducible rfl) | exact fun h => not_free h rfl | (intro _; dsimp only; split <;> rfl) | exact rfl | exact fun _ => rfl)
    | dsimp only

theorem sendBcast_only {s : State} {b : Bcast} {p : Nat} (hL : names L [.mbox] = true) 
    (ho : s0.onlyChanges s L) : s0.onlyChanges (State.sendBcast s b p) L := by
  unfold State.sendBcast
  try dsimp only
  repeat' first
    | with_reducible assumption
    | (refine names_trans hL ?_
       try simp only [keyTypes, Nat.reduceMod]
       decide)
    | with_reducible first
      | refine names_cons ?_ ?_
      | refine only_ite ?_ ?_
      | refine only_ite_snd ?_ ?_
      | refine only_ite_fst ?_ ?_
      | refine sendOn_only (hL := ?_) (ho := ?_)
    | split
    | dsimp only

theorem bcastForward_only {s : State} {b : Bcast} {ports : List Nat} (hL : names L [.hdr 0x40, .inj, .bcasts, .mbox] = true) 
    (ho : s0.onlyChanges s L) : s0.onlyChanges (State.bcastForward s b ports) L := by
  unfold State.bcastForward
  try dsimp only
  repeat' first
    | with_reducible assumption
    | (refine names_trans hL ?_
       try simp only [keyTypes, Nat.reduceMod]
       decide)
    | with_reducible first
      | refine names_cons ?_ ?_
      | refine only_ite ?_ ?_
      | refine only_ite_snd ?_ ?_
      | refine only_ite_fst ?_ ?_
      | refine injTake_only (hL := ?_) (ho := ?_)
      | refine sendBcast_only (hL := ?_) (ho := ?_)
      | refine only_foldl (fun u x hu => ?_) ?_
      | refine only_foldl_snd (fun u x hu => ?_) ?_
      | refine only_foldl_fst (fun u x hu => ?_) ?_
    | split
    | (with_reducible refine modSvc_only (z := [.bcasts]) ?_ ?_ ?_ ?_ ?_ ?_ ?_
       · refine names_trans hL ?_
         first | decide | (refine names_of_subset ?_; simp; done)
       iterate 5 · first | with_reducible rfl | (intro _; with_reducible rfl) | exact fun h => not_free h rfl | (intro _; dsimp only; split <;> rfl) | exact rfl | exact fun _ => rfl)
    | dsimp only

theorem modPend_only {s : State} {k : BitVec 16 × BitVec 32} {f : PendBcast → PendBcast} (hL : names L [.bcasts] = true) 
    (ho : s0.onlyChanges s L) : s0.onlyChanges (State.modPend s k f) L := by
  unfold State.modPend
  try dsimp only
  repeat' first
    | with_reducible assumption
    | (refine names_trans hL ?_
       try simp only [keyTypes, Nat.reduceMod]
       decide)
    | with_reducible first
      | refine names_cons ?_ ?_
      | refine only_ite ?_ ?_
      | refine only_ite_snd ?_ ?_
      | refine only_ite_fst ?_ ?_
    | split
    | (with_reducible refine modSvc_only (z := [.bcasts]) ?_ ?_ ?_ ?_ ?_ ?_ ?_
       · refine names_trans hL ?_
         first | decide | (refine names_of_subset ?_; simp; done)
       iterate 5 · first | with_reducible rfl | (intro _; with_reducible rfl) | exact fun h => not_free h rfl | (intro _; dsimp only; split <;> rfl) | exact rfl | exact fun _ => rfl)
    | dsimp only

theorem bcastTake_only {s : State} {came : Option Nat} {b : Bcast} {act : State → Bcast → Acted} (hL : names L [.word 0x40 0x50, .hdr 0x40, .bcasts, .inj, .mbox] = true) (h_act : ∀ (u : State) (x1 : Bcast), s0.onlyChanges u L → s0.onlyChanges (act u x1).s L)
    (ho : s0.onlyChanges s L) : s0.onlyChanges (State.bcastTake s came b act) L := by
  unfold State.bcastTake
  try dsimp only
  repeat' first
    | with_reducible assumption
    | (refine names_trans hL ?_
       try simp only [keyTypes, Nat.reduceMod]
       decide)
    | with_reducible first
      | refine names_cons ?_ ?_
      | refine only_ite ?_ ?_
      | refine only_ite_snd ?_ ?_
      | refine only_ite_fst ?_ ?_
      | refine only_ite_s ?_ ?_
      | refine h_act _ _ ?_
      | refine bumpFld_only (hL := ?_) (ho := ?_)
      | refine svcErr_only (hL := ?_) (ho := ?_)
      | refine bcastForward_only (hL := ?_) (ho := ?_)
      | refine modPend_only (hL := ?_) (ho := ?_)
    | split
    | (with_reducible refine modSvc_only (z := [.bcasts]) ?_ ?_ ?_ ?_ ?_ ?_ ?_
       · refine names_trans hL ?_
         first | decide | (refine names_of_subset ?_; simp; done)
       iterate 5 · first | with_reducible rfl | (intro _; with_reducible rfl) | exact fun h => not_free h rfl | (intro _; dsimp only; split <;> rfl) | exact rfl | exact fun _ => rfl)
    | dsimp only

theorem endBcast_only {s : State} {w : Wait} {count : Nat} {st : Byte} {detail : Nat} (hL : names L [.cmds, .word 0x08 0x100] = true) 
    (ho : s0.onlyChanges s L) : s0.onlyChanges (State.endBcast s w count st detail) L := by
  unfold State.endBcast
  try dsimp only
  repeat' first
    | with_reducible assumption
    | (refine names_trans hL ?_
       try simp only [keyTypes, Nat.reduceMod]
       decide)
    | with_reducible first
      | refine names_cons ?_ ?_
      | refine only_ite ?_ ?_
      | refine only_ite_snd ?_ ?_
      | refine only_ite_fst ?_ ?_
      | refine complete_only (hL := ?_) (ho := ?_)
      | refine setRes_only (hL := ?_) (ho := ?_)
      | refine only_foldl (fun u x hu => ?_) ?_
      | refine only_foldl_snd (fun u x hu => ?_) ?_
      | refine only_foldl_fst (fun u x hu => ?_) ?_
    | split
    | dsimp only

theorem bcastDone_only {s : State} (hL : names L [.cmds, .word 0x08 0x100] = true) 
    (ho : s0.onlyChanges s L) : s0.onlyChanges (State.bcastDone s) L := by
  unfold State.bcastDone
  try dsimp only
  repeat' first
    | with_reducible assumption
    | (refine names_trans hL ?_
       try simp only [keyTypes, Nat.reduceMod]
       decide)
    | with_reducible first
      | refine names_cons ?_ ?_
      | refine only_ite ?_ ?_
      | refine only_ite_snd ?_ ?_
      | refine only_ite_fst ?_ ?_
      | refine complete_only (hL := ?_) (ho := ?_)
      | refine endBcast_only (hL := ?_) (ho := ?_)
      | refine only_foldl (fun u x hu => ?_) ?_
      | refine only_foldl_snd (fun u x hu => ?_) ?_
      | refine only_foldl_fst (fun u x hu => ?_) ?_
    | split
    | dsimp only

theorem startResults_only {s : State} {p : Bool × Nat} {j : JobEntry} (hL : names L [.word 0x08 0x110, .word 0x08 0x10C, .word 0x08 0x108, .word 0x08 0x104, .word 0x08 0x100] = true) 
    (ho : s0.onlyChanges s L) : s0.onlyChanges (State.startResults s p j) L := by
  unfold State.startResults
  try dsimp only
  repeat' first
    | with_reducible assumption
    | (refine names_trans hL ?_
       try simp only [keyTypes, Nat.reduceMod]
       decide)
    | with_reducible first
      | refine names_cons ?_ ?_
      | refine only_ite ?_ ?_
      | refine only_ite_snd ?_ ?_
      | refine only_ite_fst ?_ ?_
      | refine setRes_only (hL := ?_) (ho := ?_)
    | split
    | dsimp only

theorem startEnd_only {s : State} {j : JobEntry} {st : Byte} {detail : Nat} (hL : names L [.cmds, .word 0x08 0x110, .word 0x08 0x10C, .word 0x08 0x108, .word 0x08 0x104, .word 0x08 0x100] = true) 
    (ho : s0.onlyChanges s L) : s0.onlyChanges (State.startEnd s j st detail) L := by
  unfold State.startEnd
  try dsimp only
  repeat' first
    | with_reducible assumption
    | (refine names_trans hL ?_
       try simp only [keyTypes, Nat.reduceMod]
       decide)
    | with_reducible first
      | refine names_cons ?_ ?_
      | refine only_ite ?_ ?_
      | refine only_ite_snd ?_ ?_
      | refine only_ite_fst ?_ ?_
      | refine complete_only (hL := ?_) (ho := ?_)
      | refine startResults_only (hL := ?_) (ho := ?_)
      | refine only_foldl (fun u x hu => ?_) ?_
      | refine only_foldl_snd (fun u x hu => ?_) ?_
      | refine only_foldl_fst (fun u x hu => ?_) ?_
    | split
    | dsimp only

theorem svcRing_only {s : State} {bytes : List Byte} (hL : names L [.ringQ, .out, .xfers, .word 0x40 0x6C] = true) 
    (ho : s0.onlyChanges s L) : s0.onlyChanges (State.svcRing s bytes) L := by
  unfold State.svcRing
  try dsimp only
  repeat' first
    | with_reducible assumption
    | (refine names_trans hL ?_
       try simp only [keyTypes, Nat.reduceMod]
       decide)
    | with_reducible first
      | refine names_cons ?_ ?_
      | refine only_ite ?_ ?_
      | refine only_ite_snd ?_ ?_
      | refine only_ite_fst ?_ ?_
      | refine ringPut_only (hL := ?_) (ho := ?_)
      | refine bump_only (hL := ?_) (ho := ?_)
    | split
    | dsimp only

theorem noticeTo_only {s : State} {bytes : List Byte} {n : BitVec 16} (hL : names L [.ringQ, .out, .xfers, .word 0x40 0x6C, .mbox] = true) 
    (ho : s0.onlyChanges s L) : s0.onlyChanges (State.noticeTo s bytes n) L := by
  unfold State.noticeTo
  try dsimp only
  repeat' first
    | with_reducible assumption
    | (refine names_trans hL ?_
       try simp only [keyTypes, Nat.reduceMod]
       decide)
    | with_reducible first
      | refine names_cons ?_ ?_
      | refine only_ite ?_ ?_
      | refine only_ite_snd ?_ ?_
      | refine only_ite_fst ?_ ?_
      | refine svcRing_only (hL := ?_) (ho := ?_)
      | refine sendTyp_only (hL := ?_) (ho := ?_)
    | split
    | dsimp only

theorem notice_only {s : State} {kind : Nat} {job subject : BitVec 16} {when' : FT} {flags : Nat} {param body : List Byte}
    {dests : List (BitVec 16)} (hL : names L [.ringQ, .out, .xfers, .word 0x40 0x6C, .mbox, .svcNotices] = true) 
    (ho : s0.onlyChanges s L) : s0.onlyChanges (State.notice s kind job subject when' flags param body dests) L := by
  unfold State.notice
  try dsimp only
  repeat' first
    | with_reducible assumption
    | (refine names_trans hL ?_
       try simp only [keyTypes, Nat.reduceMod]
       decide)
    | with_reducible first
      | refine names_cons ?_ ?_
      | refine only_ite ?_ ?_
      | refine only_ite_snd ?_ ?_
      | refine only_ite_fst ?_ ?_
      | refine noticeTo_only (hL := ?_) (ho := ?_)
      | refine only_foldl (fun u x hu => ?_) ?_
      | refine only_foldl_snd (fun u x hu => ?_) ?_
      | refine only_foldl_fst (fun u x hu => ?_) ?_
    | split
    | (with_reducible refine modSvc_only (z := [.svcNotices]) ?_ ?_ ?_ ?_ ?_ ?_ ?_
       · refine names_trans hL ?_
         first | decide | (refine names_of_subset ?_; simp; done)
       iterate 5 · first | with_reducible rfl | (intro _; with_reducible rfl) | exact fun h => not_free h rfl | (intro _; dsimp only; split <;> rfl) | exact rfl | exact fun _ => rfl)
    | dsimp only

theorem notArmed_only {s : State} {job runtime : BitVec 16} {reason : Nat} {t : FT} (hL : names L [.ringQ, .out, .xfers, .word 0x40 0x6C, .mbox, .svcNotices, .hdr 0x40] = true) 
    (ho : s0.onlyChanges s L) : s0.onlyChanges (State.notArmed s job runtime reason t) L := by
  unfold State.notArmed
  try dsimp only
  repeat' first
    | with_reducible assumption
    | (refine names_trans hL ?_
       try simp only [keyTypes, Nat.reduceMod]
       decide)
    | with_reducible first
      | refine names_cons ?_ ?_
      | refine only_ite ?_ ?_
      | refine only_ite_snd ?_ ?_
      | refine only_ite_fst ?_ ?_
      | refine notice_only (hL := ?_) (ho := ?_)
      | refine svcErr_only (hL := ?_) (ho := ?_)
    | split
    | dsimp only

theorem svcStat_only {s : State} (hL : names L [.hdr 0x40] = true) 
    (ho : s0.onlyChanges s L) : s0.onlyChanges (State.svcStat s) L := by
  unfold State.svcStat
  try dsimp only
  repeat' first
    | with_reducible assumption
    | (refine names_trans hL ?_
       try simp only [keyTypes, Nat.reduceMod]
       decide)
    | with_reducible first
      | refine names_cons ?_ ?_
      | refine only_ite ?_ ?_
      | refine only_ite_snd ?_ ?_
      | refine only_ite_fst ?_ ?_
      | refine setStat_only (hL := ?_) (ho := ?_)
    | split
    | dsimp only

theorem setJob_only {s : State} {i : Nat} {j : Option JobEntry} (hL : names L [.gens, .jobs] = true) 
    (ho : s0.onlyChanges s L) : s0.onlyChanges (State.setJob s i j) L := by
  unfold State.setJob
  try dsimp only
  repeat' first
    | with_reducible assumption
    | (refine names_trans hL ?_
       try simp only [keyTypes, Nat.reduceMod]
       decide)
    | with_reducible first
      | refine names_cons ?_ ?_
      | refine only_ite ?_ ?_
      | refine only_ite_snd ?_ ?_
      | refine only_ite_fst ?_ ?_
      | refine touchItem_only (hL := ?_) (ho := ?_)
    | split
    | (with_reducible refine modSvc_only (z := [.jobs]) ?_ ?_ ?_ ?_ ?_ ?_ ?_
       · refine names_trans hL ?_
         first | decide | (refine names_of_subset ?_; simp; done)
       iterate 5 · first | with_reducible rfl | (intro _; with_reducible rfl) | exact fun h => not_free h rfl | (intro _; dsimp only; split <;> rfl) | exact rfl | exact fun _ => rfl)
    | dsimp only

theorem startFail_only {s : State} {job : BitVec 16} {reason : Nat} (hL : names L [.cmds, .word 0x08 0x110, .word 0x08 0x10C, .word 0x08 0x108, .word 0x08 0x104, .word 0x08 0x100, .evts, .ringQ, .out, .xfers, .word 0x40 0x6C, .mbox, .svcNotices, .hdr 0x40, .gens, .jobs] = true) 
    (ho : s0.onlyChanges s L) : s0.onlyChanges (State.startFail s job reason) L := by
  unfold State.startFail
  try dsimp only
  repeat' first
    | with_reducible assumption
    | (refine names_trans hL ?_
       try simp only [keyTypes, Nat.reduceMod]
       decide)
    | with_reducible first
      | refine names_cons ?_ ?_
      | refine only_ite ?_ ?_
      | refine only_ite_snd ?_ ?_
      | refine only_ite_fst ?_ ?_
      | refine startEnd_only (hL := ?_) (ho := ?_)
      | refine evtDrop_only (hL := ?_) (ho := ?_)
      | refine notArmed_only (hL := ?_) (ho := ?_)
      | refine svcStat_only (hL := ?_) (ho := ?_)
      | refine setJob_only (hL := ?_) (ho := ?_)
    | split
    | dsimp only

theorem driftEntry_only {s : State} {a : RedAlarm} {i : Nat} (hL : names L [.hdr 0x40, .drift, .ringQ, .out, .xfers, .word 0x40 0x6C, .mbox, .svcNotices] = true) 
    (ho : s0.onlyChanges s L) : s0.onlyChanges (State.driftEntry s a i).1 L := by
  unfold State.driftEntry
  try dsimp only
  repeat' first
    | with_reducible assumption
    | (refine names_trans hL ?_
       try simp only [keyTypes, Nat.reduceMod]
       decide)
    | with_reducible first
      | refine names_cons ?_ ?_
      | refine only_ite ?_ ?_
      | refine only_ite_snd ?_ ?_
      | refine only_ite_fst ?_ ?_
      | refine svcErr_only (hL := ?_) (ho := ?_)
      | refine notice_only (hL := ?_) (ho := ?_)
    | split
    | (with_reducible refine modSvc_only (z := [.drift, .svcNotices]) ?_ ?_ ?_ ?_ ?_ ?_ ?_
       · refine names_trans hL ?_
         first | decide | (refine names_of_subset ?_; simp; done)
       iterate 5 · first | with_reducible rfl | (intro _; with_reducible rfl) | exact fun h => not_free h rfl | (intro _; dsimp only; split <;> rfl) | exact rfl | exact fun _ => rfl)
    | dsimp only

theorem driftAll_only {s : State} (hL : names L [.redNodes, .hdr 0x40, .drift, .ringQ, .out, .xfers, .word 0x40 0x6C, .mbox, .svcNotices] = true) 
    (ho : s0.onlyChanges s L) : s0.onlyChanges (State.driftAll s).1 L := by
  unfold State.driftAll
  try dsimp only
  repeat' first
    | with_reducible assumption
    | (refine names_trans hL ?_
       try simp only [keyTypes, Nat.reduceMod]
       decide)
    | with_reducible first
      | refine names_cons ?_ ?_
      | refine only_ite ?_ ?_
      | refine only_ite_snd ?_ ?_
      | refine only_ite_fst ?_ ?_
      | refine modRed_only (hL := ?_) (ho := ?_)
      | refine driftEntry_only (hL := ?_) (ho := ?_)
      | refine only_foldl (fun u x hu => ?_) ?_
      | refine only_foldl_snd (fun u x hu => ?_) ?_
      | refine only_foldl_fst (fun u x hu => ?_) ?_
    | split
    | dsimp only

theorem stepTest_only {s : State} {job : BitVec 16} {step q sub flags : Nat} {more : Bool} {l : List (Int × Nat)} (hL : names L [.verify, .ringQ, .out, .xfers, .word 0x40 0x6C, .mbox, .svcNotices, .hdr 0x40, .gens, .jobs] = true)
    (ho : s0.onlyChanges s L) : s0.onlyChanges (s.stepTest job step q sub flags more l) L := by
  induction l generalizing s with
  | nil => exact ho
  | cons a l ih =>
    unfold State.stepTest
    try dsimp only
    repeat' first
      | with_reducible assumption
      | (refine names_trans hL ?_
         try simp only [keyTypes, Nat.reduceMod]
         decide)
      | with_reducible first
        | refine names_cons ?_ ?_
        | refine ih ?_
        | refine only_ite ?_ ?_
        | refine only_ite_snd ?_ ?_
        | refine only_ite_fst ?_ ?_
        | refine decided_only (hL := ?_) (ho := ?_)
        | refine notice_only (hL := ?_) (ho := ?_)
        | refine svcErr_only (hL := ?_) (ho := ?_)
        | refine setJob_only (hL := ?_) (ho := ?_)
      | split
      | dsimp only

theorem modJob_only {s : State} {job : BitVec 16} {f : JobEntry → JobEntry} (hL : names L [.gens, .jobs] = true) 
    (ho : s0.onlyChanges s L) : s0.onlyChanges (State.modJob s job f) L := by
  unfold State.modJob
  try dsimp only
  repeat' first
    | with_reducible assumption
    | (refine names_trans hL ?_
       try simp only [keyTypes, Nat.reduceMod]
       decide)
    | with_reducible first
      | refine names_cons ?_ ?_
      | refine only_ite ?_ ?_
      | refine only_ite_snd ?_ ?_
      | refine only_ite_fst ?_ ?_
      | refine setJob_only (hL := ?_) (ho := ?_)
    | split
    | dsimp only

theorem stepLate_only {s : State} {job : BitVec 16} {step : BitVec 32} {q : Nat} {pairs : List (Int × Nat)} (hL : names L [.verify, .ringQ, .out, .xfers, .word 0x40 0x6C, .mbox, .svcNotices, .hdr 0x40, .gens, .jobs] = true) 
    (ho : s0.onlyChanges s L) : s0.onlyChanges (State.stepLate s job step q pairs) L := by
  unfold State.stepLate
  try dsimp only
  repeat' first
    | with_reducible assumption
    | (refine names_trans hL ?_
       try simp only [keyTypes, Nat.reduceMod]
       decide)
    | with_reducible first
      | refine names_cons ?_ ?_
      | refine only_ite ?_ ?_
      | refine only_ite_snd ?_ ?_
      | refine only_ite_fst ?_ ?_
      | refine stepTest_only (hL := ?_) (ho := ?_)
      | refine setJob_only (hL := ?_) (ho := ?_)
    | split
    | dsimp only

theorem sendStep_only {s : State} {p : StepPart} (hL : names L [.mbox, .svcNotices] = true) 
    (ho : s0.onlyChanges s L) : s0.onlyChanges (State.sendStep s p) L := by
  unfold State.sendStep
  try dsimp only
  repeat' first
    | with_reducible assumption
    | (refine names_trans hL ?_
       try simp only [keyTypes, Nat.reduceMod]
       decide)
    | with_reducible first
      | refine names_cons ?_ ?_
      | refine only_ite ?_ ?_
      | refine only_ite_snd ?_ ?_
      | refine only_ite_fst ?_ ?_
      | refine sendTyp_only (hL := ?_) (ho := ?_)
    | split
    | (with_reducible refine modSvc_only (z := [.svcNotices]) ?_ ?_ ?_ ?_ ?_ ?_ ?_
       · refine names_trans hL ?_
         first | decide | (refine names_of_subset ?_; simp; done)
       iterate 5 · first | with_reducible rfl | (intro _; with_reducible rfl) | exact fun h => not_free h rfl | (intro _; dsimp only; split <;> rfl) | exact rfl | exact fun _ => rfl)
    | dsimp only

theorem stepEmit_only {s : State} {w : StepWin} (hL : names L [.gens, .jobs, .verify, .ringQ, .out, .xfers, .word 0x40 0x6C, .mbox, .svcNotices, .hdr 0x40] = true) 
    (ho : s0.onlyChanges s L) : s0.onlyChanges (State.stepEmit s w) L := by
  unfold State.stepEmit
  try dsimp only
  repeat' first
    | with_reducible assumption
    | (refine names_trans hL ?_
       try simp only [keyTypes, Nat.reduceMod]
       decide)
    | with_reducible first
      | refine names_cons ?_ ?_
      | refine only_ite ?_ ?_
      | refine only_ite_snd ?_ ?_
      | refine only_ite_fst ?_ ?_
      | refine touchItem_only (hL := ?_) (ho := ?_)
      | refine setJob_only (hL := ?_) (ho := ?_)
      | refine stepTest_only (hL := ?_) (ho := ?_)
      | refine notice_only (hL := ?_) (ho := ?_)
      | refine svcErr_only (hL := ?_) (ho := ?_)
      | refine modJob_only (hL := ?_) (ho := ?_)
      | refine decided_only (hL := ?_) (ho := ?_)
      | refine stepLate_only (hL := ?_) (ho := ?_)
      | refine sendStep_only (hL := ?_) (ho := ?_)
      | refine only_foldl (fun u x hu => ?_) ?_
      | refine only_foldl_snd (fun u x hu => ?_) ?_
      | refine only_foldl_fst (fun u x hu => ?_) ?_
    | split
    | (with_reducible refine modSvc_only (z := [.jobs, .svcNotices]) ?_ ?_ ?_ ?_ ?_ ?_ ?_
       · refine names_trans hL ?_
         first | decide | (refine names_of_subset ?_; simp; done)
       iterate 5 · first | with_reducible rfl | (intro _; with_reducible rfl) | exact fun h => not_free h rfl | (intro _; dsimp only; split <;> rfl) | exact rfl | exact fun _ => rfl)
    | dsimp only

theorem stepTry_only {s : State} {job : BitVec 16} {step : BitVec 32} (hL : names L [.gens, .jobs, .verify, .ringQ, .out, .xfers, .word 0x40 0x6C, .mbox, .svcNotices, .hdr 0x40] = true) 
    (ho : s0.onlyChanges s L) : s0.onlyChanges (State.stepTry s job step) L := by
  unfold State.stepTry
  try dsimp only
  repeat' first
    | with_reducible assumption
    | (refine names_trans hL ?_
       try simp only [keyTypes, Nat.reduceMod]
       decide)
    | with_reducible first
      | refine names_cons ?_ ?_
      | refine only_ite ?_ ?_
      | refine only_ite_snd ?_ ?_
      | refine only_ite_fst ?_ ?_
      | refine stepEmit_only (hL := ?_) (ho := ?_)
    | split
    | dsimp only

theorem stepRetry_only {s : State} (hL : names L [.gens, .jobs, .verify, .ringQ, .out, .xfers, .word 0x40 0x6C, .mbox, .svcNotices, .hdr 0x40] = true) 
    (ho : s0.onlyChanges s L) : s0.onlyChanges (State.stepRetry s) L := by
  unfold State.stepRetry
  try dsimp only
  repeat' first
    | with_reducible assumption
    | (refine names_trans hL ?_
       try simp only [keyTypes, Nat.reduceMod]
       decide)
    | with_reducible first
      | refine names_cons ?_ ?_
      | refine only_ite ?_ ?_
      | refine only_ite_snd ?_ ?_
      | refine only_ite_fst ?_ ?_
      | refine stepTry_only (hL := ?_) (ho := ?_)
      | refine only_foldl (fun u x hu => ?_) ?_
      | refine only_foldl_snd (fun u x hu => ?_) ?_
      | refine only_foldl_fst (fun u x hu => ?_) ?_
    | split
    | dsimp only

theorem putJob_only {t0 : State} {s : State} {j : JobEntry} (he : State.putJob s j = some t0) (hL : names L [.hdr 0x40, .gens, .jobs] = true) 
    (ho : s0.onlyChanges s L) : s0.onlyChanges t0 L := by
  unfold State.putJob at he
  try dsimp only at he
  repeat' split at he
  all_goals first | (injection he with he; subst he) | injection he
  repeat' first
    | with_reducible assumption
    | (refine names_trans hL ?_
       try simp only [keyTypes, Nat.reduceMod]
       decide)
    | with_reducible first
      | refine names_cons ?_ ?_
      | refine only_ite ?_ ?_
      | refine only_ite_snd ?_ ?_
      | refine only_ite_fst ?_ ?_
      | refine svcStat_only (hL := ?_) (ho := ?_)
      | refine setJob_only (hL := ?_) (ho := ?_)
    | split
    | dsimp only

theorem jobArm_only {s : State} {b : Bcast} {root : Bool} (hL : names L [.jobs, .hdr 0x40, .gens, .evts, .word 0x40 0x50, .verify, .staged, .recs, .hdr 0x58, .ringQ, .out, .xfers, .word 0x40 0x6C, .mbox, .svcNotices] = true) 
    (ho : s0.onlyChanges s L) : s0.onlyChanges (State.jobArm s b root).s L := by
  unfold State.jobArm
  try dsimp only
  repeat' first
    | with_reducible assumption
    | (refine names_trans hL ?_
       try simp only [keyTypes, Nat.reduceMod]
       decide)
    | with_reducible first
      | refine names_cons ?_ ?_
      | refine only_ite ?_ ?_
      | refine only_ite_snd ?_ ?_
      | refine only_ite_fst ?_ ?_
      | refine only_ite_s ?_ ?_
      | refine putJob_only (he := by assumption) (hL := ?_) (ho := ?_)
      | refine evtAdd_only (he := by assumption) (hL := ?_) (ho := ?_)
      | refine bumpFld_only (hL := ?_) (ho := ?_)
      | refine svcErr_only (hL := ?_) (ho := ?_)
      | refine decided_only (hL := ?_) (ho := ?_)
      | refine log_only (hL := ?_) (ho := ?_)
      | refine notArmed_only (hL := ?_) (ho := ?_)
      | refine only_getD (fun t ht => ?_) ?_
    | split
    | (with_reducible refine modSvc_only (z := [.jobs, .svcNotices]) ?_ ?_ ?_ ?_ ?_ ?_ ?_
       · refine names_trans hL ?_
         first | decide | (refine names_of_subset ?_; simp; done)
       iterate 5 · first | with_reducible rfl | (intro _; with_reducible rfl) | exact fun h => not_free h rfl | (intro _; dsimp only; split <;> rfl) | exact rfl | exact fun _ => rfl)
    | dsimp only

theorem dropJob_only {s : State} {job : BitVec 16} (hL : names L [.gens, .jobs, .hdr 0x40, .evts] = true) 
    (ho : s0.onlyChanges s L) : s0.onlyChanges (State.dropJob s job) L := by
  unfold State.dropJob
  try dsimp only
  repeat' first
    | with_reducible assumption
    | (refine names_trans hL ?_
       try simp only [keyTypes, Nat.reduceMod]
       decide)
    | with_reducible first
      | refine names_cons ?_ ?_
      | refine only_ite ?_ ?_
      | refine only_ite_snd ?_ ?_
      | refine only_ite_fst ?_ ?_
      | refine setJob_only (hL := ?_) (ho := ?_)
      | refine svcStat_only (hL := ?_) (ho := ?_)
      | refine evtDrop_only (hL := ?_) (ho := ?_)
    | split
    | (with_reducible refine modSvc_only (z := [.jobs]) ?_ ?_ ?_ ?_ ?_ ?_ ?_
       · refine names_trans hL ?_
         first | decide | (refine names_of_subset ?_; simp; done)
       iterate 5 · first | with_reducible rfl | (intro _; with_reducible rfl) | exact fun h => not_free h rfl | (intro _; dsimp only; split <;> rfl) | exact rfl | exact fun _ => rfl)
    | dsimp only

theorem jobEndHere_only {s : State} {job : BitVec 16} (hL : names L [.cmds, .word 0x08 0x110, .word 0x08 0x10C, .word 0x08 0x108, .word 0x08 0x104, .word 0x08 0x100, .gens, .jobs, .hdr 0x40, .evts] = true) 
    (ho : s0.onlyChanges s L) : s0.onlyChanges (State.jobEndHere s job) L := by
  unfold State.jobEndHere
  try dsimp only
  repeat' first
    | with_reducible assumption
    | (refine names_trans hL ?_
       try simp only [keyTypes, Nat.reduceMod]
       decide)
    | with_reducible first
      | refine names_cons ?_ ?_
      | refine only_ite ?_ ?_
      | refine only_ite_snd ?_ ?_
      | refine only_ite_fst ?_ ?_
      | refine startEnd_only (hL := ?_) (ho := ?_)
      | refine dropJob_only (hL := ?_) (ho := ?_)
    | split
    | dsimp only

theorem runtimeHere_only {s : State} {b : Bcast} (hL : names L [.gens, .jobs] = true) 
    (ho : s0.onlyChanges s L) : s0.onlyChanges (State.runtimeHere s b) L := by
  unfold State.runtimeHere
  try dsimp only
  repeat' first
    | with_reducible assumption
    | (refine names_trans hL ?_
       try simp only [keyTypes, Nat.reduceMod]
       decide)
    | with_reducible first
      | refine names_cons ?_ ?_
      | refine only_ite ?_ ?_
      | refine only_ite_snd ?_ ?_
      | refine only_ite_fst ?_ ?_
      | refine modJob_only (hL := ?_) (ho := ?_)
      | refine setJob_only (hL := ?_) (ho := ?_)
    | split
    | (with_reducible refine modSvc_only (z := [.jobs]) ?_ ?_ ?_ ?_ ?_ ?_ ?_
       · refine names_trans hL ?_
         first | decide | (refine names_of_subset ?_; simp; done)
       iterate 5 · first | with_reducible rfl | (intro _; with_reducible rfl) | exact fun h => not_free h rfl | (intro _; dsimp only; split <;> rfl) | exact rfl | exact fun _ => rfl)
    | dsimp only

theorem stepAdd_only {s : State} {k : Nat} {p : StepPart} (hL : names L [.gens, .jobs, .verify, .ringQ, .out, .xfers, .word 0x40 0x6C, .mbox, .svcNotices, .hdr 0x40] = true) 
    (ho : s0.onlyChanges s L) : s0.onlyChanges (State.stepAdd s k p) L := by
  unfold State.stepAdd
  try dsimp only
  repeat' first
    | with_reducible assumption
    | (refine names_trans hL ?_
       try simp only [keyTypes, Nat.reduceMod]
       decide)
    | with_reducible first
      | refine names_cons ?_ ?_
      | refine only_ite ?_ ?_
      | refine only_ite_snd ?_ ?_
      | refine only_ite_fst ?_ ?_
      | refine stepTry_only (hL := ?_) (ho := ?_)
      | refine touchItem_only (hL := ?_) (ho := ?_)
    | split
    | (with_reducible refine modSvc_only (z := [.jobs, .svcNotices]) ?_ ?_ ?_ ?_ ?_ ?_ ?_
       · refine names_trans hL ?_
         first | decide | (refine names_of_subset ?_; simp; done)
       iterate 5 · first | with_reducible rfl | (intro _; with_reducible rfl) | exact fun h => not_free h rfl | (intro _; dsimp only; split <;> rfl) | exact rfl | exact fun _ => rfl)
    | dsimp only

theorem stepMark_only {c : CmdIn} {s : State} (hL : names L [.cmds, .gens, .jobs, .ringQ, .out, .xfers, .word 0x40 0x6C, .mbox, .svcNotices, .redInputs, .verify, .hdr 0x40, .word 0x08 0x100] = true) 
    (ho : s0.onlyChanges s L) : s0.onlyChanges (stepMark c s) L := by
  unfold stepMark
  try dsimp only
  repeat' first
    | with_reducible assumption
    | (refine names_trans hL ?_
       try simp only [keyTypes, Nat.reduceMod]
       decide)
    | with_reducible first
      | refine names_cons ?_ ?_
      | refine only_ite ?_ ?_
      | refine only_ite_snd ?_ ?_
      | refine only_ite_fst ?_ ?_
      | refine failCmd_only (hL := ?_) (ho := ?_)
      | refine setJob_only (hL := ?_) (ho := ?_)
      | refine notice_only (hL := ?_) (ho := ?_)
      | refine stepAdd_only (hL := ?_) (ho := ?_)
      | refine ok_only (hL := ?_) (ho := ?_)
      | refine res_only (hL := ?_) (ho := ?_)
    | split
    | (with_reducible refine only_reds (z := [.redInputs]) ?_ ?_ ?_ ?_
       · refine names_trans hL ?_
         first | decide | (refine names_of_subset ?_; simp; done)
       iterate 2 · first | with_reducible rfl | (intro _; with_reducible rfl) | exact fun h => not_free h rfl | (intro _; dsimp only; split <;> rfl) | exact rfl | exact fun _ => rfl)
    | dsimp only

theorem execStepMark_only (c : CmdIn) (s : State) : ∃ st', execStepMark c s = .next st' ∧ s.onlyChanges st' [.out, .xfers, .lines, .inj, .cmds, .power, .bpwr, .word 0x50 0x54, .activity, .host, .tap, .regs 0x08, .hdr 0x08, .gens, .jobs, .ringQ, .word 0x40 0x6C, .mbox, .svcNotices, .redInputs, .verify, .hdr 0x40] := by
  refine ⟨_, rfl, only_start fun hL h0 => ?_⟩
  refine settle_only (names_of_subset (by simp)) ?_
  repeat' first
    | with_reducible first
      | exact h0
      | assumption
    | (refine names_trans hL ?_
       try simp only [keyTypes, Nat.reduceMod]
       decide)
    | (refine names_trans hL ?_
       try simp only [keyTypes, Nat.reduceMod]
       refine names_trans (names_of_subset ?_) names_regs_word
       simp
       done)
    | with_reducible first
      | refine names_cons ?_ ?_
      | refine only_ite ?_ ?_
      | refine only_ite_snd ?_ ?_
      | refine only_ite_fst ?_ ?_
      | refine runCmd_only (hL := ?_) (h_effect := fun u hu => ?_) (ho := ?_)
      | refine stepMark_only (hL := ?_) (ho := ?_)
    | split
    | dsimp only

theorem modWatch_only {s : State} {w : Nat} {f : Watch → Watch} (hL : names L [.watch] = true) 
    (ho : s0.onlyChanges s L) : s0.onlyChanges (State.modWatch s w f) L := by
  unfold State.modWatch
  try dsimp only
  repeat' first
    | with_reducible assumption
    | (refine names_trans hL ?_
       try simp only [keyTypes, Nat.reduceMod]
       decide)
    | with_reducible first
      | refine names_cons ?_ ?_
      | refine only_ite ?_ ?_
      | refine only_ite_snd ?_ ?_
      | refine only_ite_fst ?_ ?_
    | split
    | (with_reducible refine modSvc_only (z := [.watch]) ?_ ?_ ?_ ?_ ?_ ?_ ?_
       · refine names_trans hL ?_
         first | decide | (refine names_of_subset ?_; simp; done)
       iterate 5 · first | with_reducible rfl | (intro _; with_reducible rfl) | exact fun h => not_free h rfl | (intro _; dsimp only; split <;> rfl) | exact rfl | exact fun _ => rfl)
    | dsimp only

theorem bcastDelayed_only {s : State} (hL : names L [.mbox, .bcasts] = true) 
    (ho : s0.onlyChanges s L) : s0.onlyChanges (State.bcastDelayed s) L := by
  unfold State.bcastDelayed
  try dsimp only
  repeat' first
    | with_reducible assumption
    | (refine names_trans hL ?_
       try simp only [keyTypes, Nat.reduceMod]
       decide)
    | with_reducible first
      | refine names_cons ?_ ?_
      | refine only_ite ?_ ?_
      | refine only_ite_snd ?_ ?_
      | refine only_ite_fst ?_ ?_
      | refine sendBcast_only (hL := ?_) (ho := ?_)
      | refine only_foldl (fun u x hu => ?_) ?_
      | refine only_foldl_snd (fun u x hu => ?_) ?_
      | refine only_foldl_fst (fun u x hu => ?_) ?_
      | refine only_foldl_snd2 (fun u x hu => ?_) ?_
      | refine only_ite_snd2 ?_ ?_
    | split
    | (with_reducible refine modSvc_only (z := [.bcasts]) ?_ ?_ ?_ ?_ ?_ ?_ ?_
       · refine names_trans hL ?_
         first | decide | (refine names_of_subset ?_; simp; done)
       iterate 5 · first | with_reducible rfl | (intro _; with_reducible rfl) | exact fun h => not_free h rfl | (intro _; dsimp only; split <;> rfl) | exact rfl | exact fun _ => rfl)
    | dsimp only

theorem jobRelease_only {s : State} {job : BitVec 16} (hL : names L [.now, .cmds, .word 0x08 0x110, .word 0x08 0x10C, .word 0x08 0x108, .word 0x08 0x104, .word 0x08 0x100, .evts, .ringQ, .out, .xfers, .word 0x40 0x6C, .mbox, .svcNotices, .hdr 0x40, .gens, .jobs] = true) 
    (ho : s0.onlyChanges s L) : s0.onlyChanges (State.jobRelease s job) L := by
  unfold State.jobRelease
  try dsimp only
  repeat' first
    | with_reducible assumption
    | (refine names_trans hL ?_
       try simp only [keyTypes, Nat.reduceMod]
       decide)
    | with_reducible first
      | refine names_cons ?_ ?_
      | refine only_ite ?_ ?_
      | refine only_ite_snd ?_ ?_
      | refine only_ite_fst ?_ ?_
      | refine advanceTo_only (hL := ?_) (ho := ?_)
      | refine startFail_only (hL := ?_) (ho := ?_)
      | refine svcStat_only (hL := ?_) (ho := ?_)
      | refine evtDrop_only (hL := ?_) (ho := ?_)
      | refine setJob_only (hL := ?_) (ho := ?_)
      | refine notice_only (hL := ?_) (ho := ?_)
      | refine startEnd_only (hL := ?_) (ho := ?_)
    | split
    | dsimp only

theorem stepReceive_only {s : State} {src : BitVec 16} {p : StepPart} (hL : names L [.word 0x40 0x50, .verify, .ringQ, .out, .xfers, .word 0x40 0x6C, .mbox, .svcNotices, .hdr 0x40, .gens, .jobs] = true) 
    (ho : s0.onlyChanges s L) : s0.onlyChanges (State.stepReceive s src p) L := by
  unfold State.stepReceive
  try dsimp only
  repeat' first
    | with_reducible assumption
    | (refine names_trans hL ?_
       try simp only [keyTypes, Nat.reduceMod]
       decide)
    | with_reducible first
      | refine names_cons ?_ ?_
      | refine only_ite ?_ ?_
      | refine only_ite_snd ?_ ?_
      | refine only_ite_fst ?_ ?_
      | refine bumpFld_only (hL := ?_) (ho := ?_)
      | refine stepLate_only (hL := ?_) (ho := ?_)
      | refine sendStep_only (hL := ?_) (ho := ?_)
      | refine stepAdd_only (hL := ?_) (ho := ?_)
    | split
    | (with_reducible refine modSvc_only (z := [.svcNotices, .jobs]) ?_ ?_ ?_ ?_ ?_ ?_ ?_
       · refine names_trans hL ?_
         first | decide | (refine names_of_subset ?_; simp; done)
       iterate 5 · first | with_reducible rfl | (intro _; with_reducible rfl) | exact fun h => not_free h rfl | (intro _; dsimp only; split <;> rfl) | exact rfl | exact fun _ => rfl)
    | dsimp only

theorem svcVerdict_only {s : State} {e : Nat} {v : Verdict} (hL : names L [.drift, .ringQ, .out, .xfers, .word 0x40 0x6C, .mbox, .svcNotices, .suspects] = true) 
    (ho : s0.onlyChanges s L) : s0.onlyChanges (State.svcVerdict s e v) L := by
  unfold State.svcVerdict
  try dsimp only
  repeat' first
    | with_reducible assumption
    | (refine names_trans hL ?_
       try simp only [keyTypes, Nat.reduceMod]
       decide)
    | with_reducible first
      | refine names_cons ?_ ?_
      | refine only_ite ?_ ?_
      | refine only_ite_snd ?_ ?_
      | refine only_ite_fst ?_ ?_
      | refine notice_only (hL := ?_) (ho := ?_)
      | refine markSuspect_only (hL := ?_) (ho := ?_)
    | split
    | (with_reducible refine modSvc_only (z := [.drift, .svcNotices]) ?_ ?_ ?_ ?_ ?_ ?_ ?_
       · refine names_trans hL ?_
         first | decide | (refine names_of_subset ?_; simp; done)
       iterate 5 · first | with_reducible rfl | (intro _; with_reducible rfl) | exact fun h => not_free h rfl | (intro _; dsimp only; split <;> rfl) | exact rfl | exact fun _ => rfl)
    | dsimp only

theorem execStepPartial_only (src : BitVec 16) (p : StepPart) (s : State) : ∃ st', execStepPartial src p s = .next st' ∧ s.onlyChanges st' [.out, .xfers, .lines, .inj, .word 0x40 0x50, .verify, .ringQ, .word 0x40 0x6C, .mbox, .svcNotices, .hdr 0x40, .gens, .jobs] := by
  refine ⟨_, rfl, only_start fun hL h0 => ?_⟩
  refine settle_only (names_of_subset (by simp)) ?_
  repeat' first
    | with_reducible first
      | exact h0
      | assumption
    | (refine names_trans hL ?_
       try simp only [keyTypes, Nat.reduceMod]
       decide)
    | with_reducible first
      | refine names_cons ?_ ?_
      | refine only_ite ?_ ?_
      | refine only_ite_snd ?_ ?_
      | refine only_ite_fst ?_ ?_
      | refine stepReceive_only (hL := ?_) (ho := ?_)
    | split
    | dsimp only

theorem execStepWaitExpire_only (job : BitVec 16) (step : BitVec 32) (s : State) : ∃ st', execStepWaitExpire job step s = .next st' ∧ s.onlyChanges st' [.out, .xfers, .lines, .inj, .gens, .jobs, .verify, .ringQ, .word 0x40 0x6C, .mbox, .svcNotices, .hdr 0x40, .now] := by
  refine ⟨_, rfl, only_start fun hL h0 => ?_⟩
  refine settle_only (names_of_subset (by simp)) ?_
  repeat' first
    | with_reducible first
      | exact h0
      | assumption
    | (refine names_trans hL ?_
       try simp only [keyTypes, Nat.reduceMod]
       decide)
    | with_reducible first
      | refine names_cons ?_ ?_
      | refine only_ite ?_ ?_
      | refine only_ite_snd ?_ ?_
      | refine only_ite_fst ?_ ?_
      | refine stepEmit_only (hL := ?_) (ho := ?_)
      | refine advanceTo_only (hL := ?_) (ho := ?_)
    | split
    | dsimp only

/-! SvcCmd -/

theorem bcastSend_only {s : State} {kind : Nat} {immediate waves : Bool} {job guard : Nat} {t : FT} {runtime : Nat}
    {args : List Byte} {act : State → Bcast → Acted} (hL : names L [.bcasts, .word 0x40 0x50, .hdr 0x40, .inj, .mbox] = true) (h_act : ∀ (u : State) (x1 : Bcast), s0.onlyChanges u L → s0.onlyChanges (act u x1).s L)
    (ho : s0.onlyChanges s L) : s0.onlyChanges (State.bcastSend s kind immediate waves job guard t runtime args act).2 L := by
  unfold State.bcastSend
  try dsimp only
  repeat' first
    | with_reducible assumption
    | (refine names_trans hL ?_
       try simp only [keyTypes, Nat.reduceMod]
       decide)
    | with_reducible first
      | refine names_cons ?_ ?_
      | refine only_ite ?_ ?_
      | refine only_ite_snd ?_ ?_
      | refine only_ite_fst ?_ ?_
      | refine only_ite_s ?_ ?_
      | refine h_act _ _ ?_
      | refine bcastNew_only (hL := ?_) (ho := ?_)
      | refine bcastTake_only (hL := ?_) (h_act := fun u x1 hu => ?_) (ho := ?_)
    | split
    | dsimp only

theorem sendBeat_only {s : State} {epoch : Nat} {parked : Bool} (hL : names L [.mbox] = true) 
    (ho : s0.onlyChanges s L) : s0.onlyChanges (State.sendBeat s epoch parked) L := by
  unfold State.sendBeat
  try dsimp only
  repeat' first
    | with_reducible assumption
    | (refine names_trans hL ?_
       try simp only [keyTypes, Nat.reduceMod]
       decide)
    | with_reducible first
      | refine names_cons ?_ ?_
      | refine only_ite ?_ ?_
      | refine only_ite_snd ?_ ?_
      | refine only_ite_fst ?_ ?_
      | refine sendTyp_only (hL := ?_) (ho := ?_)
    | split
    | dsimp only

theorem svcClose_only {s : State} {epoch : Nat} {t : FT} (hL : names L [.redInputs, .hdr 0x40, .inj, .mbox, .watch] = true) 
    (ho : s0.onlyChanges s L) : s0.onlyChanges (State.svcClose s epoch t) L := by
  unfold State.svcClose
  try dsimp only
  repeat' first
    | with_reducible assumption
    | (refine names_trans hL ?_
       try simp only [keyTypes, Nat.reduceMod]
       decide)
    | with_reducible first
      | refine names_cons ?_ ?_
      | refine only_ite ?_ ?_
      | refine only_ite_snd ?_ ?_
      | refine only_ite_fst ?_ ?_
      | refine injTake_only (hL := ?_) (ho := ?_)
      | refine sendBeat_only (hL := ?_) (ho := ?_)
    | split
    | (with_reducible refine modSvc_only (z := [.watch]) ?_ ?_ ?_ ?_ ?_ ?_ ?_
       · refine names_trans hL ?_
         first | decide | (refine names_of_subset ?_; simp; done)
       iterate 5 · first | with_reducible rfl | (intro _; with_reducible rfl) | exact fun h => not_free h rfl | (intro _; dsimp only; split <;> rfl) | exact rfl | exact fun _ => rfl)
    | (with_reducible refine only_reds (z := [.redInputs]) ?_ ?_ ?_ ?_
       · refine names_trans hL ?_
         first | decide | (refine names_of_subset ?_; simp; done)
       iterate 2 · first | with_reducible rfl | (intro _; with_reducible rfl) | exact fun h => not_free h rfl | (intro _; dsimp only; split <;> rfl) | exact rfl | exact fun _ => rfl)
    | dsimp only

theorem bcastRepair_only {s : State} {p : Nat} (hL : names L [.mbox, .bcasts] = true) 
    (ho : s0.onlyChanges s L) : s0.onlyChanges (State.bcastRepair s p) L := by
  unfold State.bcastRepair
  try dsimp only
  repeat' first
    | with_reducible assumption
    | (refine names_trans hL ?_
       try simp only [keyTypes, Nat.reduceMod]
       decide)
    | with_reducible first
      | refine names_cons ?_ ?_
      | refine only_ite ?_ ?_
      | refine only_ite_snd ?_ ?_
      | refine only_ite_fst ?_ ?_
      | refine sendBcast_only (hL := ?_) (ho := ?_)
      | refine modPend_only (hL := ?_) (ho := ?_)
      | refine only_foldl (fun u x hu => ?_) ?_
      | refine only_foldl_snd (fun u x hu => ?_) ?_
      | refine only_foldl_fst (fun u x hu => ?_) ?_
    | split
    | (with_reducible refine modSvc_only (z := [.bcasts]) ?_ ?_ ?_ ?_ ?_ ?_ ?_
       · refine names_trans hL ?_
         first | decide | (refine names_of_subset ?_; simp; done)
       iterate 5 · first | with_reducible rfl | (intro _; with_reducible rfl) | exact fun h => not_free h rfl | (intro _; dsimp only; split <;> rfl) | exact rfl | exact fun _ => rfl)
    | dsimp only

theorem deadSync_only {s : State} (hL : names L [.staged, .recs, .hdr 0x58, .hdr 0x12, .gens, .spares] = true) 
    (ho : s0.onlyChanges s L) : s0.onlyChanges (State.deadSync s) L := by
  unfold State.deadSync
  try dsimp only
  repeat' first
    | with_reducible assumption
    | (refine names_trans hL ?_
       try simp only [keyTypes, Nat.reduceMod]
       decide)
    | with_reducible first
      | refine names_cons ?_ ?_
      | refine only_ite ?_ ?_
      | refine only_ite_snd ?_ ?_
      | refine only_ite_fst ?_ ?_
      | refine spareAdd_only (hL := ?_) (ho := ?_)
      | refine only_foldl (fun u x hu => ?_) ?_
      | refine only_foldl_snd (fun u x hu => ?_) ?_
      | refine only_foldl_fst (fun u x hu => ?_) ?_
    | split
    | (with_reducible refine only_check (z := [.spares]) ?_ ?_ ?_ ?_ ?_ ?_ ?_ ?_ ?_
       · refine names_trans hL ?_
         first | decide | (refine names_of_subset ?_; simp; done)
       iterate 7 · first | with_reducible rfl | (intro _; with_reducible rfl) | exact fun h => not_free h rfl | (intro _; dsimp only; split <;> rfl) | exact rfl | exact fun _ => rfl)
    | dsimp only

theorem claimMark_only {s : State} {a : Assertion} (hL : names L [.ringQ, .out, .xfers, .word 0x40 0x6C, .mbox, .svcNotices, .staged, .recs, .hdr 0x58, .jobs, .hdr 0x40] = true) 
    (ho : s0.onlyChanges s L) : s0.onlyChanges (State.claimMark s a) L := by
  unfold State.claimMark
  try dsimp only
  repeat' first
    | with_reducible assumption
    | (refine names_trans hL ?_
       try simp only [keyTypes, Nat.reduceMod]
       decide)
    | with_reducible first
      | refine names_cons ?_ ?_
      | refine only_ite ?_ ?_
      | refine only_ite_snd ?_ ?_
      | refine only_ite_fst ?_ ?_
      | refine notice_only (hL := ?_) (ho := ?_)
      | refine log_only (hL := ?_) (ho := ?_)
      | refine svcErr_only (hL := ?_) (ho := ?_)
    | split
    | (with_reducible refine modSvc_only (z := [.svcNotices, .jobs]) ?_ ?_ ?_ ?_ ?_ ?_ ?_
       · refine names_trans hL ?_
         first | decide | (refine names_of_subset ?_; simp; done)
       iterate 5 · first | with_reducible rfl | (intro _; with_reducible rfl) | exact fun h => not_free h rfl | (intro _; dsimp only; split <;> rfl) | exact rfl | exact fun _ => rfl)
    | dsimp only

theorem claimSync_only {s : State} (hL : names L [.gens, .jobs, .verify, .ringQ, .out, .xfers, .word 0x40 0x6C, .mbox, .svcNotices, .hdr 0x40, .staged, .recs, .hdr 0x58, .hdr 0x12, .spares] = true) 
    (ho : s0.onlyChanges s L) : s0.onlyChanges (State.claimSync s) L := by
  unfold State.claimSync
  try dsimp only
  repeat' first
    | with_reducible assumption
    | (refine names_trans hL ?_
       try simp only [keyTypes, Nat.reduceMod]
       decide)
    | with_reducible first
      | refine names_cons ?_ ?_
      | refine only_ite ?_ ?_
      | refine only_ite_snd ?_ ?_
      | refine only_ite_fst ?_ ?_
      | refine stepRetry_only (hL := ?_) (ho := ?_)
      | refine deadSync_only (hL := ?_) (ho := ?_)
      | refine claimMark_only (hL := ?_) (ho := ?_)
      | refine only_foldl (fun u x hu => ?_) ?_
      | refine only_foldl_snd (fun u x hu => ?_) ?_
      | refine only_foldl_fst (fun u x hu => ?_) ?_
    | split
    | dsimp only

theorem assertHere_only {s : State} {b : Bcast} (hL : names L [.cmds, .gens, .jobs, .verify, .ringQ, .out, .xfers, .word 0x40 0x6C, .mbox, .svcNotices, .hdr 0x40, .staged, .recs, .hdr 0x58, .hdr 0x12, .spares] = true) 
    (ho : s0.onlyChanges s L) : s0.onlyChanges (State.assertHere s b) L := by
  unfold State.assertHere
  try dsimp only
  repeat' first
    | with_reducible assumption
    | (refine names_trans hL ?_
       try simp only [keyTypes, Nat.reduceMod]
       decide)
    | with_reducible first
      | refine names_cons ?_ ?_
      | refine only_ite ?_ ?_
      | refine only_ite_snd ?_ ?_
      | refine only_ite_fst ?_ ?_
      | refine complete_only (hL := ?_) (ho := ?_)
      | refine claimSync_only (hL := ?_) (ho := ?_)
      | refine svcErr_only (hL := ?_) (ho := ?_)
      | refine touchItem_only (hL := ?_) (ho := ?_)
      | refine only_foldl (fun u x hu => ?_) ?_
      | refine only_foldl_snd (fun u x hu => ?_) ?_
      | refine only_foldl_fst (fun u x hu => ?_) ?_
    | split
    | (with_reducible refine modSvc_only (z := [.jobs, .svcNotices]) ?_ ?_ ?_ ?_ ?_ ?_ ?_
       · refine names_trans hL ?_
         first | decide | (refine names_of_subset ?_; simp; done)
       iterate 5 · first | with_reducible rfl | (intro _; with_reducible rfl) | exact fun h => not_free h rfl | (intro _; dsimp only; split <;> rfl) | exact rfl | exact fun _ => rfl)
    | dsimp only

theorem actSvc_only {s : State} {b : Bcast} (hL : names L [.jobs, .hdr 0x40, .gens, .evts, .word 0x40 0x50, .verify, .staged, .recs, .hdr 0x58, .ringQ, .out, .xfers, .word 0x40 0x6C, .mbox, .svcNotices, .cmds, .word 0x08 0x110, .word 0x08 0x10C, .word 0x08 0x108, .word 0x08 0x104, .word 0x08 0x100, .hdr 0x12, .spares] = true) 
    (ho : s0.onlyChanges s L) : s0.onlyChanges (actSvc s b).s L := by
  unfold actSvc
  try dsimp only
  repeat' first
    | with_reducible assumption
    | (refine names_trans hL ?_
       try simp only [keyTypes, Nat.reduceMod]
       decide)
    | with_reducible first
      | refine names_cons ?_ ?_
      | refine only_ite ?_ ?_
      | refine only_ite_snd ?_ ?_
      | refine only_ite_fst ?_ ?_
      | refine only_ite_s ?_ ?_
      | refine jobArm_only (hL := ?_) (ho := ?_)
      | refine jobEndHere_only (hL := ?_) (ho := ?_)
      | refine assertHere_only (hL := ?_) (ho := ?_)
      | refine runtimeHere_only (hL := ?_) (ho := ?_)
    | split
    | dsimp only

theorem jobStart_only {c : CmdIn} {s : State} (hL : names L [.cmds, .hdr 0x40, .bcasts, .word 0x40 0x50, .inj, .mbox, .jobs, .gens, .evts, .verify, .staged, .recs, .hdr 0x58, .ringQ, .out, .xfers, .word 0x40 0x6C, .svcNotices, .word 0x08 0x110, .word 0x08 0x10C, .word 0x08 0x108, .word 0x08 0x104, .word 0x08 0x100, .hdr 0x12, .spares] = true) 
    (ho : s0.onlyChanges s L) : s0.onlyChanges (jobStart c s) L := by
  unfold jobStart
  try dsimp only
  repeat' first
    | with_reducible assumption
    | (refine names_trans hL ?_
       try simp only [keyTypes, Nat.reduceMod]
       decide)
    | with_reducible first
      | refine names_cons ?_ ?_
      | refine only_ite ?_ ?_
      | refine only_ite_snd ?_ ?_
      | refine only_ite_fst ?_ ?_
      | refine badArg_only (hL := ?_) (ho := ?_)
      | refine failCmd_only (hL := ?_) (ho := ?_)
      | refine svcErr_only (hL := ?_) (ho := ?_)
      | refine waitFor_only (hL := ?_) (ho := ?_)
      | refine bcastSend_only (hL := ?_) (h_act := fun u x1 hu => ?_) (ho := ?_)
      | refine actSvc_only (hL := ?_) (ho := ?_)
    | split
    | dsimp only

theorem execJobStart_only (c : CmdIn) (s : State) : ∃ st', execJobStart c s = .next st' ∧ s.onlyChanges st' [.out, .xfers, .lines, .inj, .cmds, .power, .bpwr, .word 0x50 0x54, .activity, .host, .tap, .regs 0x08, .hdr 0x08, .hdr 0x40, .bcasts, .word 0x40 0x50, .mbox, .jobs, .gens, .evts, .verify, .staged, .recs, .hdr 0x58, .ringQ, .word 0x40 0x6C, .svcNotices, .hdr 0x12, .spares] := by
  refine ⟨_, rfl, only_start fun hL h0 => ?_⟩
  refine settle_only (names_of_subset (by simp)) ?_
  repeat' first
    | with_reducible first
      | exact h0
      | assumption
    | (refine names_trans hL ?_
       try simp only [keyTypes, Nat.reduceMod]
       decide)
    | (refine names_trans hL ?_
       try simp only [keyTypes, Nat.reduceMod]
       refine names_trans (names_of_subset ?_) names_regs_word
       simp
       done)
    | with_reducible first
      | refine names_cons ?_ ?_
      | refine only_ite ?_ ?_
      | refine only_ite_snd ?_ ?_
      | refine only_ite_fst ?_ ?_
      | refine runCmd_only (hL := ?_) (h_effect := fun u hu => ?_) (ho := ?_)
      | refine jobStart_only (hL := ?_) (ho := ?_)
    | split
    | dsimp only

theorem execJobEnd_only (c : CmdIn) (s : State) : ∃ st', execJobEnd c s = .next st' ∧ s.onlyChanges st' [.out, .xfers, .lines, .inj, .cmds, .power, .bpwr, .word 0x50 0x54, .activity, .host, .tap, .regs 0x08, .hdr 0x08, .bcasts, .word 0x40 0x50, .hdr 0x40, .mbox, .jobs, .gens, .evts, .verify, .staged, .recs, .hdr 0x58, .ringQ, .word 0x40 0x6C, .svcNotices, .hdr 0x12, .spares] := by
  refine ⟨_, rfl, only_start fun hL h0 => ?_⟩
  refine settle_only (names_of_subset (by simp)) ?_
  repeat' first
    | with_reducible first
      | exact h0
      | assumption
    | (refine names_trans hL ?_
       try simp only [keyTypes, Nat.reduceMod]
       decide)
    | (refine names_trans hL ?_
       try simp only [keyTypes, Nat.reduceMod]
       refine names_trans (names_of_subset ?_) names_regs_word
       simp
       done)
    | with_reducible first
      | refine names_cons ?_ ?_
      | refine only_ite ?_ ?_
      | refine only_ite_snd ?_ ?_
      | refine only_ite_fst ?_ ?_
      | refine runCmd_only (hL := ?_) (h_effect := fun u hu => ?_) (ho := ?_)
      | refine failCmd_only (hL := ?_) (ho := ?_)
      | refine bcastSend_only (hL := ?_) (h_act := fun u x1 hu => ?_) (ho := ?_)
      | refine actSvc_only (hL := ?_) (ho := ?_)
      | refine bcastDone_only (hL := ?_) (ho := ?_)
      | refine waitFor_only (hL := ?_) (ho := ?_)
    | split
    | dsimp only

theorem assertRoot_only {s : State} {job target : BitVec 16} {claim : Nat} (hL : names L [.bcasts, .word 0x40 0x50, .hdr 0x40, .inj, .mbox, .jobs, .gens, .evts, .verify, .staged, .recs, .hdr 0x58, .ringQ, .out, .xfers, .word 0x40 0x6C, .svcNotices, .cmds, .word 0x08 0x110, .word 0x08 0x10C, .word 0x08 0x108, .word 0x08 0x104, .word 0x08 0x100, .hdr 0x12, .spares] = true) 
    (ho : s0.onlyChanges s L) : s0.onlyChanges (State.assertRoot s job target claim).2 L := by
  unfold State.assertRoot
  try dsimp only
  repeat' first
    | with_reducible assumption
    | (refine names_trans hL ?_
       try simp only [keyTypes, Nat.reduceMod]
       decide)
    | with_reducible first
      | refine names_cons ?_ ?_
      | refine only_ite ?_ ?_
      | refine only_ite_snd ?_ ?_
      | refine only_ite_fst ?_ ?_
      | refine bcastSend_only (hL := ?_) (h_act := fun u x1 hu => ?_) (ho := ?_)
      | refine actSvc_only (hL := ?_) (ho := ?_)
    | split
    | dsimp only

theorem jobLiveness_only {c : CmdIn} {s : State} (hL : names L [.cmds, .hdr 0x40, .bcasts, .word 0x40 0x50, .inj, .mbox, .jobs, .gens, .evts, .verify, .staged, .recs, .hdr 0x58, .ringQ, .out, .xfers, .word 0x40 0x6C, .svcNotices, .word 0x08 0x110, .word 0x08 0x10C, .word 0x08 0x108, .word 0x08 0x104, .word 0x08 0x100, .hdr 0x12, .spares] = true) 
    (ho : s0.onlyChanges s L) : s0.onlyChanges (jobLiveness c s) L := by
  unfold jobLiveness
  try dsimp only
  repeat' first
    | with_reducible assumption
    | (refine names_trans hL ?_
       try simp only [keyTypes, Nat.reduceMod]
       decide)
    | with_reducible first
      | refine names_cons ?_ ?_
      | refine only_ite ?_ ?_
      | refine only_ite_snd ?_ ?_
      | refine only_ite_fst ?_ ?_
      | refine done_only (hL := ?_) (ho := ?_)
      | refine badArg_only (hL := ?_) (ho := ?_)
      | refine failCmd_only (hL := ?_) (ho := ?_)
      | refine svcErr_only (hL := ?_) (ho := ?_)
      | refine assertRoot_only (hL := ?_) (ho := ?_)
      | refine bcastDone_only (hL := ?_) (ho := ?_)
      | refine waitFor_only (hL := ?_) (ho := ?_)
      | refine notice_only (hL := ?_) (ho := ?_)
    | split
    | dsimp only

theorem execJobLiveness_only (c : CmdIn) (s : State) : ∃ st', execJobLiveness c s = .next st' ∧ s.onlyChanges st' [.out, .xfers, .lines, .inj, .cmds, .power, .bpwr, .word 0x50 0x54, .activity, .host, .tap, .regs 0x08, .hdr 0x08, .hdr 0x40, .bcasts, .word 0x40 0x50, .mbox, .jobs, .gens, .evts, .verify, .staged, .recs, .hdr 0x58, .ringQ, .word 0x40 0x6C, .svcNotices, .hdr 0x12, .spares] := by
  refine ⟨_, rfl, only_start fun hL h0 => ?_⟩
  refine settle_only (names_of_subset (by simp)) ?_
  repeat' first
    | with_reducible first
      | exact h0
      | assumption
    | (refine names_trans hL ?_
       try simp only [keyTypes, Nat.reduceMod]
       decide)
    | (refine names_trans hL ?_
       try simp only [keyTypes, Nat.reduceMod]
       refine names_trans (names_of_subset ?_) names_regs_word
       simp
       done)
    | with_reducible first
      | refine names_cons ?_ ?_
      | refine only_ite ?_ ?_
      | refine only_ite_snd ?_ ?_
      | refine only_ite_fst ?_ ?_
      | refine runCmd_only (hL := ?_) (h_effect := fun u hu => ?_) (ho := ?_)
      | refine jobLiveness_only (hL := ?_) (ho := ?_)
    | split
    | dsimp only

theorem execRuntimeSet_only (c : CmdIn) (s : State) : ∃ st', execRuntimeSet c s = .next st' ∧ s.onlyChanges st' [.out, .xfers, .lines, .inj, .cmds, .power, .bpwr, .word 0x50 0x54, .activity, .host, .tap, .regs 0x08, .hdr 0x08, .bcasts, .word 0x40 0x50, .hdr 0x40, .mbox, .jobs, .gens, .evts, .verify, .staged, .recs, .hdr 0x58, .ringQ, .word 0x40 0x6C, .svcNotices, .hdr 0x12, .spares] := by
  refine ⟨_, rfl, only_start fun hL h0 => ?_⟩
  refine settle_only (names_of_subset (by simp)) ?_
  repeat' first
    | with_reducible first
      | exact h0
      | assumption
    | (refine names_trans hL ?_
       try simp only [keyTypes, Nat.reduceMod]
       decide)
    | (refine names_trans hL ?_
       try simp only [keyTypes, Nat.reduceMod]
       refine names_trans (names_of_subset ?_) names_regs_word
       simp
       done)
    | with_reducible first
      | refine names_cons ?_ ?_
      | refine only_ite ?_ ?_
      | refine only_ite_snd ?_ ?_
      | refine only_ite_fst ?_ ?_
      | refine runCmd_only (hL := ?_) (h_effect := fun u hu => ?_) (ho := ?_)
      | refine failCmd_only (hL := ?_) (ho := ?_)
      | refine badArg_only (hL := ?_) (ho := ?_)
      | refine bcastSend_only (hL := ?_) (h_act := fun u x1 hu => ?_) (ho := ?_)
      | refine actSvc_only (hL := ?_) (ho := ?_)
      | refine bcastDone_only (hL := ?_) (ho := ?_)
      | refine waitFor_only (hL := ?_) (ho := ?_)
    | split
    | dsimp only

theorem svcWarm_only {s : State} (hL : names L [.jobs, .bcasts, .watch] = true) 
    (ho : s0.onlyChanges s L) : s0.onlyChanges (State.svcWarm s) L := by
  unfold State.svcWarm
  try dsimp only
  repeat' first
    | with_reducible assumption
    | (refine names_trans hL ?_
       try simp only [keyTypes, Nat.reduceMod]
       decide)
    | with_reducible first
      | refine names_cons ?_ ?_
      | refine only_ite ?_ ?_
      | refine only_ite_snd ?_ ?_
      | refine only_ite_fst ?_ ?_
    | split
    | (with_reducible refine modSvc_only (z := [.jobs, .bcasts, .watch]) ?_ ?_ ?_ ?_ ?_ ?_ ?_
       · refine names_trans hL ?_
         first | decide | (refine names_of_subset ?_; simp; done)
       iterate 5 · first | with_reducible rfl | (intro _; with_reducible rfl) | exact fun h => not_free h rfl | (intro _; dsimp only; split <;> rfl) | exact rfl | exact fun _ => rfl)
    | dsimp only

theorem svcSnuff_only {s : State} (hL : names L [.jobs] = true) 
    (ho : s0.onlyChanges s L) : s0.onlyChanges (State.svcSnuff s) L := by
  unfold State.svcSnuff
  try dsimp only
  repeat' first
    | with_reducible assumption
    | (refine names_trans hL ?_
       try simp only [keyTypes, Nat.reduceMod]
       decide)
    | with_reducible first
      | refine names_cons ?_ ?_
      | refine only_ite ?_ ?_
      | refine only_ite_snd ?_ ?_
      | refine only_ite_fst ?_ ?_
    | split
    | (with_reducible refine modSvc_only (z := [.jobs]) ?_ ?_ ?_ ?_ ?_ ?_ ?_
       · refine names_trans hL ?_
         first | decide | (refine names_of_subset ?_; simp; done)
       iterate 5 · first | with_reducible rfl | (intro _; with_reducible rfl) | exact fun h => not_free h rfl | (intro _; dsimp only; split <;> rfl) | exact rfl | exact fun _ => rfl)
    | dsimp only

theorem setLevel_only {s : State} {w : Nat} {l : Level} (hL : names L [.staged, .recs, .hdr 0x58, .watch, .verify, .hdr 0x40, .ringQ, .out, .xfers, .word 0x40 0x6C, .mbox, .svcNotices] = true) 
    (ho : s0.onlyChanges s L) : s0.onlyChanges (State.setLevel s w l) L := by
  unfold State.setLevel
  try dsimp only
  repeat' first
    | with_reducible assumption
    | (refine names_trans hL ?_
       try simp only [keyTypes, Nat.reduceMod]
       decide)
    | with_reducible first
      | refine names_cons ?_ ?_
      | refine only_ite ?_ ?_
      | refine only_ite_snd ?_ ?_
      | refine only_ite_fst ?_ ?_
      | refine log_only (hL := ?_) (ho := ?_)
      | refine modWatch_only (hL := ?_) (ho := ?_)
      | refine decided_only (hL := ?_) (ho := ?_)
      | refine svcErr_only (hL := ?_) (ho := ?_)
      | refine notice_only (hL := ?_) (ho := ?_)
    | split
    | (with_reducible refine modSvc_only (z := [.watch, .svcNotices]) ?_ ?_ ?_ ?_ ?_ ?_ ?_
       · refine names_trans hL ?_
         first | decide | (refine names_of_subset ?_; simp; done)
       iterate 5 · first | with_reducible rfl | (intro _; with_reducible rfl) | exact fun h => not_free h rfl | (intro _; dsimp only; split <;> rfl) | exact rfl | exact fun _ => rfl)
    | dsimp only

theorem checkNode_only {s : State} {w : Nat} (hL : names L [.watch, .verify, .staged, .recs, .hdr 0x58, .hdr 0x40, .ringQ, .out, .xfers, .word 0x40 0x6C, .mbox, .svcNotices] = true) 
    (ho : s0.onlyChanges s L) : s0.onlyChanges (State.checkNode s w) L := by
  unfold State.checkNode
  try dsimp only
  repeat' first
    | with_reducible assumption
    | (refine names_trans hL ?_
       try simp only [keyTypes, Nat.reduceMod]
       decide)
    | with_reducible first
      | refine names_cons ?_ ?_
      | refine only_ite ?_ ?_
      | refine only_ite_snd ?_ ?_
      | refine only_ite_fst ?_ ?_
      | refine modWatch_only (hL := ?_) (ho := ?_)
      | refine decided_only (hL := ?_) (ho := ?_)
      | refine setLevel_only (hL := ?_) (ho := ?_)
    | split
    | (with_reducible refine modSvc_only (z := [.watch, .svcNotices]) ?_ ?_ ?_ ?_ ?_ ?_ ?_
       · refine names_trans hL ?_
         first | decide | (refine names_of_subset ?_; simp; done)
       iterate 5 · first | with_reducible rfl | (intro _; with_reducible rfl) | exact fun h => not_free h rfl | (intro _; dsimp only; split <;> rfl) | exact rfl | exact fun _ => rfl)
    | dsimp only

theorem dieTable_only {s : State} {down die : Nat} {levels : List (BitVec 2)} (hL : names L [.watch] = true) 
    (ho : s0.onlyChanges s L) : s0.onlyChanges (State.dieTable s down die levels) L := by
  unfold State.dieTable
  try dsimp only
  repeat' first
    | with_reducible assumption
    | (refine names_trans hL ?_
       try simp only [keyTypes, Nat.reduceMod]
       decide)
    | with_reducible first
      | refine names_cons ?_ ?_
      | refine only_ite ?_ ?_
      | refine only_ite_snd ?_ ?_
      | refine only_ite_fst ?_ ?_
    | split
    | (with_reducible refine modSvc_only (z := [.watch]) ?_ ?_ ?_ ?_ ?_ ?_ ?_
       · refine names_trans hL ?_
         first | decide | (refine names_of_subset ?_; simp; done)
       iterate 5 · first | with_reducible rfl | (intro _; with_reducible rfl) | exact fun h => not_free h rfl | (intro _; dsimp only; split <;> rfl) | exact rfl | exact fun _ => rfl)
    | dsimp only

theorem jobKid_only {s : State} {e : PendBcast} {w armed members : Nat} (hL : names L [.hdr 0x40, .gens, .jobs] = true) 
    (ho : s0.onlyChanges s L) : s0.onlyChanges (State.jobKid s e w armed members) L := by
  unfold State.jobKid
  try dsimp only
  repeat' first
    | with_reducible assumption
    | (refine names_trans hL ?_
       try simp only [keyTypes, Nat.reduceMod]
       decide)
    | with_reducible first
      | refine names_cons ?_ ?_
      | refine only_ite ?_ ?_
      | refine only_ite_snd ?_ ?_
      | refine only_ite_fst ?_ ?_
      | refine putJob_only (he := by assumption) (hL := ?_) (ho := ?_)
      | refine svcErr_only (hL := ?_) (ho := ?_)
      | refine modJob_only (hL := ?_) (ho := ?_)
      | refine setJob_only (hL := ?_) (ho := ?_)
    | split
    | dsimp only

theorem execLivenessCheck_only (s : State) : ∃ st', execLivenessCheck s = .next st' ∧ s.onlyChanges st' [.out, .xfers, .lines, .inj, .now, .watch, .gens, .jobs, .verify, .ringQ, .word 0x40 0x6C, .mbox, .svcNotices, .hdr 0x40, .staged, .recs, .hdr 0x58, .hdr 0x12, .spares] := by
  refine ⟨_, rfl, only_start fun hL h0 => ?_⟩
  refine settle_only (names_of_subset (by simp)) ?_
  repeat' first
    | with_reducible first
      | exact h0
      | assumption
    | (refine names_trans hL ?_
       try simp only [keyTypes, Nat.reduceMod]
       decide)
    | with_reducible first
      | refine names_cons ?_ ?_
      | refine only_ite ?_ ?_
      | refine only_ite_snd ?_ ?_
      | refine only_ite_fst ?_ ?_
      | refine advanceTo_only (hL := ?_) (ho := ?_)
      | refine claimSync_only (hL := ?_) (ho := ?_)
      | refine touchItem_only (hL := ?_) (ho := ?_)
      | refine checkNode_only (hL := ?_) (ho := ?_)
      | refine only_foldl (fun u x hu => ?_) ?_
      | refine only_foldl_snd (fun u x hu => ?_) ?_
      | refine only_foldl_fst (fun u x hu => ?_) ?_
    | split
    | (with_reducible refine modSvc_only (z := [.watch, .jobs, .svcNotices]) ?_ ?_ ?_ ?_ ?_ ?_ ?_
       · refine names_trans hL ?_
         first | decide | (refine names_of_subset ?_; simp; done)
       iterate 5 · first | with_reducible rfl | (intro _; with_reducible rfl) | exact fun h => not_free h rfl | (intro _; dsimp only; split <;> rfl) | exact rfl | exact fun _ => rfl)
    | dsimp only

theorem execHeartbeat_only (src : BitVec 16) (b : Beat) (s : State) : ∃ st', execHeartbeat src b s = .next st' ∧ s.onlyChanges st' [.out, .xfers, .lines, .inj, .watch, .gens, .jobs, .verify, .ringQ, .word 0x40 0x6C, .mbox, .svcNotices, .hdr 0x40, .staged, .recs, .hdr 0x58, .hdr 0x12, .spares] := by
  refine ⟨_, rfl, only_start fun hL h0 => ?_⟩
  refine settle_only (names_of_subset (by simp)) ?_
  repeat' first
    | with_reducible first
      | exact h0
      | assumption
    | (refine names_trans hL ?_
       try simp only [keyTypes, Nat.reduceMod]
       decide)
    | with_reducible first
      | refine names_cons ?_ ?_
      | refine only_ite ?_ ?_
      | refine only_ite_snd ?_ ?_
      | refine only_ite_fst ?_ ?_
      | refine modWatch_only (hL := ?_) (ho := ?_)
      | refine claimSync_only (hL := ?_) (ho := ?_)
      | refine dieTable_only (hL := ?_) (ho := ?_)
    | split
    | (with_reducible refine modSvc_only (z := [.watch, .jobs, .svcNotices]) ?_ ?_ ?_ ?_ ?_ ?_ ?_
       · refine names_trans hL ?_
         first | decide | (refine names_of_subset ?_; simp; done)
       iterate 5 · first | with_reducible rfl | (intro _; with_reducible rfl) | exact fun h => not_free h rfl | (intro _; dsimp only; split <;> rfl) | exact rfl | exact fun _ => rfl)
    | dsimp only

theorem execBcastAck_only (a : BcastAck) (s : State) : ∃ st', execBcastAck a s = .next st' ∧ s.onlyChanges st' [.out, .xfers, .lines, .inj, .bcasts, .hdr 0x40, .gens, .jobs, .cmds, .word 0x08 0x100] := by
  refine ⟨_, rfl, only_start fun hL h0 => ?_⟩
  refine settle_only (names_of_subset (by simp)) ?_
  repeat' first
    | with_reducible first
      | exact h0
      | assumption
    | (refine names_trans hL ?_
       try simp only [keyTypes, Nat.reduceMod]
       decide)
    | with_reducible first
      | refine names_cons ?_ ?_
      | refine only_ite ?_ ?_
      | refine only_ite_snd ?_ ?_
      | refine only_ite_fst ?_ ?_
      | refine modPend_only (hL := ?_) (ho := ?_)
      | refine jobKid_only (hL := ?_) (ho := ?_)
      | refine bcastDone_only (hL := ?_) (ho := ?_)
    | split
    | (with_reducible refine modSvc_only (z := [.bcasts, .jobs]) ?_ ?_ ?_ ?_ ?_ ?_ ?_
       · refine names_trans hL ?_
         first | decide | (refine names_of_subset ?_; simp; done)
       iterate 5 · first | with_reducible rfl | (intro _; with_reducible rfl) | exact fun h => not_free h rfl | (intro _; dsimp only; split <;> rfl) | exact rfl | exact fun _ => rfl)
    | dsimp only

theorem execBcastAckSend_only (origin : BitVec 16) (seq : BitVec 32) (s : State) : ∃ st', execBcastAckSend origin seq s = .next st' ∧ s.onlyChanges st' [.out, .xfers, .lines, .inj, .mbox, .now, .bcasts] := by
  refine ⟨_, rfl, only_start fun hL h0 => ?_⟩
  refine settle_only (names_of_subset (by simp)) ?_
  repeat' first
    | with_reducible first
      | exact h0
      | assumption
    | (refine names_trans hL ?_
       try simp only [keyTypes, Nat.reduceMod]
       decide)
    | with_reducible first
      | refine names_cons ?_ ?_
      | refine only_ite ?_ ?_
      | refine only_ite_snd ?_ ?_
      | refine only_ite_fst ?_ ?_
      | refine modPend_only (hL := ?_) (ho := ?_)
      | refine sendTyp_only (hL := ?_) (ho := ?_)
      | refine advanceTo_only (hL := ?_) (ho := ?_)
    | split
    | (with_reducible refine modSvc_only (z := [.bcasts]) ?_ ?_ ?_ ?_ ?_ ?_ ?_
       · refine names_trans hL ?_
         first | decide | (refine names_of_subset ?_; simp; done)
       iterate 5 · first | with_reducible rfl | (intro _; with_reducible rfl) | exact fun h => not_free h rfl | (intro _; dsimp only; split <;> rfl) | exact rfl | exact fun _ => rfl)
    | dsimp only

theorem execPendingExpire_only (origin : BitVec 16) (seq : BitVec 32) (s : State) : ∃ st', execPendingExpire origin seq s = .next st' ∧ s.onlyChanges st' [.out, .xfers, .lines, .inj, .now, .bcasts, .word 0x08 0x100, .cmds] := by
  refine ⟨_, rfl, only_start fun hL h0 => ?_⟩
  refine settle_only (names_of_subset (by simp)) ?_
  repeat' first
    | with_reducible first
      | exact h0
      | assumption
    | (refine names_trans hL ?_
       try simp only [keyTypes, Nat.reduceMod]
       decide)
    | with_reducible first
      | refine names_cons ?_ ?_
      | refine only_ite ?_ ?_
      | refine only_ite_snd ?_ ?_
      | refine only_ite_fst ?_ ?_
      | refine advanceTo_only (hL := ?_) (ho := ?_)
      | refine setRes_only (hL := ?_) (ho := ?_)
      | refine endBcast_only (hL := ?_) (ho := ?_)
      | refine only_foldl (fun u x hu => ?_) ?_
      | refine only_foldl_snd (fun u x hu => ?_) ?_
      | refine only_foldl_fst (fun u x hu => ?_) ?_
    | split
    | (with_reducible refine modSvc_only (z := [.bcasts]) ?_ ?_ ?_ ?_ ?_ ?_ ?_
       · refine names_trans hL ?_
         first | decide | (refine names_of_subset ?_; simp; done)
       iterate 5 · first | with_reducible rfl | (intro _; with_reducible rfl) | exact fun h => not_free h rfl | (intro _; dsimp only; split <;> rfl) | exact rfl | exact fun _ => rfl)
    | dsimp only

theorem execNotice_only (bytes : List Byte) (s : State) : ∃ st', execNotice bytes s = .next st' ∧ s.onlyChanges st' [.out, .xfers, .lines, .inj, .ringQ, .word 0x40 0x6C, .svcNotices, .bcasts, .word 0x40 0x50, .hdr 0x40, .mbox, .jobs, .gens, .evts, .verify, .staged, .recs, .hdr 0x58, .cmds, .word 0x08 0x110, .word 0x08 0x10C, .word 0x08 0x108, .word 0x08 0x104, .word 0x08 0x100, .hdr 0x12, .spares] := by
  refine ⟨_, rfl, only_start fun hL h0 => ?_⟩
  refine settle_only (names_of_subset (by simp)) ?_
  repeat' first
    | with_reducible first
      | exact h0
      | assumption
    | (refine names_trans hL ?_
       try simp only [keyTypes, Nat.reduceMod]
       decide)
    | with_reducible first
      | refine names_cons ?_ ?_
      | refine only_ite ?_ ?_
      | refine only_ite_snd ?_ ?_
      | refine only_ite_fst ?_ ?_
      | refine svcRing_only (hL := ?_) (ho := ?_)
      | refine assertRoot_only (hL := ?_) (ho := ?_)
    | split
    | (with_reducible refine modSvc_only (z := [.svcNotices, .bcasts, .jobs]) ?_ ?_ ?_ ?_ ?_ ?_ ?_
       · refine names_trans hL ?_
         first | decide | (refine names_of_subset ?_; simp; done)
       iterate 5 · first | with_reducible rfl | (intro _; with_reducible rfl) | exact fun h => not_free h rfl | (intro _; dsimp only; split <;> rfl) | exact rfl | exact fun _ => rfl)
    | dsimp only

/-! Hpwr -/

theorem modCore_only {s : State} {c : Nat} {f : PwrCore → PwrCore} (hL : names L [.cores] = true) 
    (ho : s0.onlyChanges s L) : s0.onlyChanges (State.modCore s c f) L := by
  unfold State.modCore
  try dsimp only
  repeat' first
    | with_reducible assumption
    | (refine names_trans hL ?_
       try simp only [keyTypes, Nat.reduceMod]
       decide)
    | with_reducible first
      | refine names_cons ?_ ?_
      | refine only_ite ?_ ?_
      | refine only_ite_snd ?_ ?_
      | refine only_ite_fst ?_ ?_
    | split
    | (with_reducible refine modHp_only (z := [.cores]) ?_ ?_ ?_ ?_ ?_ ?_ ?_ ?_ ?_ ?_ ?_
       · refine names_trans hL ?_
         first | decide | (refine names_of_subset ?_; simp; done)
       iterate 9 · first | with_reducible rfl | (intro _; with_reducible rfl) | exact fun h => not_free h rfl | (intro _; dsimp only; split <;> rfl) | exact rfl | exact fun _ => rfl)
    | dsimp only

theorem modRail_only {s : State} {r : Nat} {f : PwrRail → PwrRail} (hL : names L [.rails] = true) 
    (ho : s0.onlyChanges s L) : s0.onlyChanges (State.modRail s r f) L := by
  unfold State.modRail
  try dsimp only
  repeat' first
    | with_reducible assumption
    | (refine names_trans hL ?_
       try simp only [keyTypes, Nat.reduceMod]
       decide)
    | with_reducible first
      | refine names_cons ?_ ?_
      | refine only_ite ?_ ?_
      | refine only_ite_snd ?_ ?_
      | refine only_ite_fst ?_ ?_
    | split
    | (with_reducible refine modHp_only (z := [.rails]) ?_ ?_ ?_ ?_ ?_ ?_ ?_ ?_ ?_ ?_ ?_
       · refine names_trans hL ?_
         first | decide | (refine names_of_subset ?_; simp; done)
       iterate 9 · first | with_reducible rfl | (intro _; with_reducible rfl) | exact fun h => not_free h rfl | (intro _; dsimp only; split <;> rfl) | exact rfl | exact fun _ => rfl)
    | dsimp only

theorem hpClose_only {s : State} (hL : names L [.cores, .rails] = true) 
    (ho : s0.onlyChanges s L) : s0.onlyChanges (State.hpClose s) L := by
  unfold State.hpClose
  try dsimp only
  repeat' first
    | with_reducible assumption
    | (refine names_trans hL ?_
       try simp only [keyTypes, Nat.reduceMod]
       decide)
    | with_reducible first
      | refine names_cons ?_ ?_
      | refine only_ite ?_ ?_
      | refine only_ite_snd ?_ ?_
      | refine only_ite_fst ?_ ?_
      | refine modCore_only (hL := ?_) (ho := ?_)
      | refine modRail_only (hL := ?_) (ho := ?_)
      | refine only_foldl (fun u x hu => ?_) ?_
      | refine only_foldl_snd (fun u x hu => ?_) ?_
      | refine only_foldl_fst (fun u x hu => ?_) ?_
    | split
    | (with_reducible refine modHp_only (z := [.cores, .rails]) ?_ ?_ ?_ ?_ ?_ ?_ ?_ ?_ ?_ ?_ ?_
       · refine names_trans hL ?_
         first | decide | (refine names_of_subset ?_; simp; done)
       iterate 9 · first | with_reducible rfl | (intro _; with_reducible rfl) | exact fun h => not_free h rfl | (intro _; dsimp only; split <;> rfl) | exact rfl | exact fun _ => rfl)
    | dsimp only

theorem hpErr_only {s : State} {b : Nat} (hL : names L [.hdr 0x48] = true) 
    (ho : s0.onlyChanges s L) : s0.onlyChanges (State.hpErr s b) L := by
  unfold State.hpErr
  try dsimp only
  repeat' first
    | with_reducible assumption
    | (refine names_trans hL ?_
       try simp only [keyTypes, Nat.reduceMod]
       decide)
    | with_reducible first
      | refine names_cons ?_ ?_
      | refine only_ite ?_ ?_
      | refine only_ite_snd ?_ ?_
      | refine only_ite_fst ?_ ?_
      | refine setErr_only (hL := ?_) (ho := ?_)
    | split
    | dsimp only

theorem pwrAge_only {s : State} {entry : Nat} {a : RedAlarm} (hL : names L [.cores, .hdr 0x48] = true) 
    (ho : s0.onlyChanges s L) : s0.onlyChanges (State.pwrAge s entry a) L := by
  unfold State.pwrAge
  try dsimp only
  repeat' first
    | with_reducible assumption
    | (refine names_trans hL ?_
       try simp only [keyTypes, Nat.reduceMod]
       decide)
    | with_reducible first
      | refine names_cons ?_ ?_
      | refine only_ite ?_ ?_
      | refine only_ite_snd ?_ ?_
      | refine only_ite_fst ?_ ?_
      | refine modCore_only (hL := ?_) (ho := ?_)
      | refine hpErr_only (hL := ?_) (ho := ?_)
      | refine only_foldl (fun u x hu => ?_) ?_
      | refine only_foldl_snd (fun u x hu => ?_) ?_
      | refine only_foldl_fst (fun u x hu => ?_) ?_
    | split
    | (with_reducible refine modHp_only (z := [.cores]) ?_ ?_ ?_ ?_ ?_ ?_ ?_ ?_ ?_ ?_ ?_
       · refine names_trans hL ?_
         first | decide | (refine names_of_subset ?_; simp; done)
       iterate 9 · first | with_reducible rfl | (intro _; with_reducible rfl) | exact fun h => not_free h rfl | (intro _; dsimp only; split <;> rfl) | exact rfl | exact fun _ => rfl)
    | dsimp only

theorem drift_only {s : State} (hL : names L [.redNodes, .hdr 0x40, .drift, .ringQ, .out, .xfers, .word 0x40 0x6C, .mbox, .svcNotices, .cores, .hdr 0x48] = true) 
    (ho : s0.onlyChanges s L) : s0.onlyChanges (State.drift s) L := by
  unfold State.drift
  try dsimp only
  repeat' first
    | with_reducible assumption
    | (refine names_trans hL ?_
       try simp only [keyTypes, Nat.reduceMod]
       decide)
    | with_reducible first
      | refine names_cons ?_ ?_
      | refine only_ite ?_ ?_
      | refine only_ite_snd ?_ ?_
      | refine only_ite_fst ?_ ?_
      | refine driftAll_only (hL := ?_) (ho := ?_)
      | refine pwrAge_only (hL := ?_) (ho := ?_)
      | refine only_foldl (fun u x hu => ?_) ?_
      | refine only_foldl_snd (fun u x hu => ?_) ?_
      | refine only_foldl_fst (fun u x hu => ?_) ?_
    | split
    | dsimp only

theorem hpClosed_only {s : State} (hL : names L [.droops] = true) 
    (ho : s0.onlyChanges s L) : s0.onlyChanges (State.hpClosed s) L := by
  unfold State.hpClosed
  try dsimp only
  repeat' first
    | with_reducible assumption
    | (refine names_trans hL ?_
       try simp only [keyTypes, Nat.reduceMod]
       decide)
    | with_reducible first
      | refine names_cons ?_ ?_
      | refine only_ite ?_ ?_
      | refine only_ite_snd ?_ ?_
      | refine only_ite_fst ?_ ?_
    | split
    | (with_reducible refine modHp_only (z := [.droops]) ?_ ?_ ?_ ?_ ?_ ?_ ?_ ?_ ?_ ?_ ?_
       · refine names_trans hL ?_
         first | decide | (refine names_of_subset ?_; simp; done)
       iterate 9 · first | with_reducible rfl | (intro _; with_reducible rfl) | exact fun h => not_free h rfl | (intro _; dsimp only; split <;> rfl) | exact rfl | exact fun _ => rfl)
    | dsimp only

theorem execHpwrSetCap_only (c : CmdIn) (s : State) : ∃ st', execHpwrSetCap c s = .next st' ∧ s.onlyChanges st' [.out, .xfers, .lines, .inj, .cmds, .power, .bpwr, .word 0x50 0x54, .activity, .host, .tap, .regs 0x08, .hdr 0x08, .word 0x48 0x50, .word 0x48 0x4C, .word 0x48 0x48] := by
  refine ⟨_, rfl, only_start fun hL h0 => ?_⟩
  refine settle_only (names_of_subset (by simp)) ?_
  repeat' first
    | with_reducible first
      | exact h0
      | assumption
    | (refine names_trans hL ?_
       try simp only [keyTypes, Nat.reduceMod]
       decide)
    | (refine names_trans hL ?_
       try simp only [keyTypes, Nat.reduceMod]
       refine names_trans (names_of_subset ?_) names_regs_word
       simp
       done)
    | with_reducible first
      | refine names_cons ?_ ?_
      | refine only_ite ?_ ?_
      | refine only_ite_snd ?_ ?_
      | refine only_ite_fst ?_ ?_
      | refine runCmd_only (hL := ?_) (h_effect := fun u hu => ?_) (ho := ?_)
      | refine failCmd_only (hL := ?_) (ho := ?_)
      | refine setReg_only (hL := ?_) (h := ?_)
      | refine ok_only (hL := ?_) (ho := ?_)
    | split
    | dsimp only

theorem hpStat_only {s : State} (hL : names L [.hdr 0x48] = true) 
    (ho : s0.onlyChanges s L) : s0.onlyChanges (State.hpStat s) L := by
  unfold State.hpStat
  try dsimp only
  repeat' first
    | with_reducible assumption
    | (refine names_trans hL ?_
       try simp only [keyTypes, Nat.reduceMod]
       decide)
    | with_reducible first
      | refine names_cons ?_ ?_
      | refine only_ite ?_ ?_
      | refine only_ite_snd ?_ ?_
      | refine only_ite_fst ?_ ?_
      | refine setStat_only (hL := ?_) (ho := ?_)
    | split
    | dsimp only

theorem unforce_only {s : State} {cause : BitVec 2} (hL : names L [.hdr 0x48, .forced] = true) 
    (ho : s0.onlyChanges s L) : s0.onlyChanges (State.unforce s cause) L := by
  unfold State.unforce
  try dsimp only
  repeat' first
    | with_reducible assumption
    | (refine names_trans hL ?_
       try simp only [keyTypes, Nat.reduceMod]
       decide)
    | with_reducible first
      | refine names_cons ?_ ?_
      | refine only_ite ?_ ?_
      | refine only_ite_snd ?_ ?_
      | refine only_ite_fst ?_ ?_
      | refine hpStat_only (hL := ?_) (ho := ?_)
    | split
    | (with_reducible refine modHp_only (z := [.forced]) ?_ ?_ ?_ ?_ ?_ ?_ ?_ ?_ ?_ ?_ ?_
       · refine names_trans hL ?_
         first | decide | (refine names_of_subset ?_; simp; done)
       iterate 9 · first | with_reducible rfl | (intro _; with_reducible rfl) | exact fun h => not_free h rfl | (intro _; dsimp only; split <;> rfl) | exact rfl | exact fun _ => rfl)
    | dsimp only

theorem execHpwrResume_only (c : CmdIn) (s : State) : ∃ st', execHpwrResume c s = .next st' ∧ s.onlyChanges st' [.out, .xfers, .lines, .inj, .cmds, .power, .bpwr, .word 0x50 0x54, .activity, .host, .tap, .regs 0x08, .hdr 0x08, .hdr 0x48, .forced] := by
  refine ⟨_, rfl, only_start fun hL h0 => ?_⟩
  refine settle_only (names_of_subset (by simp)) ?_
  repeat' first
    | with_reducible first
      | exact h0
      | assumption
    | (refine names_trans hL ?_
       try simp only [keyTypes, Nat.reduceMod]
       decide)
    | (refine names_trans hL ?_
       try simp only [keyTypes, Nat.reduceMod]
       refine names_trans (names_of_subset ?_) names_regs_word
       simp
       done)
    | with_reducible first
      | refine names_cons ?_ ?_
      | refine only_ite ?_ ?_
      | refine only_ite_snd ?_ ?_
      | refine only_ite_fst ?_ ?_
      | refine runCmd_only (hL := ?_) (h_effect := fun u hu => ?_) (ho := ?_)
      | refine failCmd_only (hL := ?_) (ho := ?_)
      | refine ok_only (hL := ?_) (ho := ?_)
      | refine unforce_only (hL := ?_) (ho := ?_)
    | split
    | dsimp only

theorem execHpwrTripClear_only (c : CmdIn) (s : State) : ∃ st', execHpwrTripClear c s = .next st' ∧ s.onlyChanges st' [.out, .xfers, .lines, .inj, .cmds, .power, .bpwr, .word 0x50 0x54, .activity, .host, .tap, .regs 0x08, .hdr 0x08, .forced, .hdr 0x48] := by
  refine ⟨_, rfl, only_start fun hL h0 => ?_⟩
  refine settle_only (names_of_subset (by simp)) ?_
  repeat' first
    | with_reducible first
      | exact h0
      | assumption
    | (refine names_trans hL ?_
       try simp only [keyTypes, Nat.reduceMod]
       decide)
    | (refine names_trans hL ?_
       try simp only [keyTypes, Nat.reduceMod]
       refine names_trans (names_of_subset ?_) names_regs_word
       simp
       done)
    | with_reducible first
      | refine names_cons ?_ ?_
      | refine only_ite ?_ ?_
      | refine only_ite_snd ?_ ?_
      | refine only_ite_fst ?_ ?_
      | refine runCmd_only (hL := ?_) (h_effect := fun u hu => ?_) (ho := ?_)
      | refine emit_only (hL := ?_) (ho := ?_)
      | refine ok_only (hL := ?_) (ho := ?_)
      | refine unforce_only (hL := ?_) (ho := ?_)
      | refine failCmd_only (hL := ?_) (ho := ?_)
    | split
    | (with_reducible refine modHp_only (z := [.forced]) ?_ ?_ ?_ ?_ ?_ ?_ ?_ ?_ ?_ ?_ ?_
       · refine names_trans hL ?_
         first | decide | (refine names_of_subset ?_; simp; done)
       iterate 9 · first | with_reducible rfl | (intro _; with_reducible rfl) | exact fun h => not_free h rfl | (intro _; dsimp only; split <;> rfl) | exact rfl | exact fun _ => rfl)
    | dsimp only

theorem setRunning_only {s : State} {r : Option Running} (hL : names L [.hdr 0x48, .change] = true) 
    (ho : s0.onlyChanges s L) : s0.onlyChanges (State.setRunning s r) L := by
  unfold State.setRunning
  try dsimp only
  repeat' first
    | with_reducible assumption
    | (refine names_trans hL ?_
       try simp only [keyTypes, Nat.reduceMod]
       decide)
    | with_reducible first
      | refine names_cons ?_ ?_
      | refine only_ite ?_ ?_
      | refine only_ite_snd ?_ ?_
      | refine only_ite_fst ?_ ?_
      | refine hpStat_only (hL := ?_) (ho := ?_)
    | split
    | (with_reducible refine modHp_only (z := [.change]) ?_ ?_ ?_ ?_ ?_ ?_ ?_ ?_ ?_ ?_ ?_
       · refine names_trans hL ?_
         first | decide | (refine names_of_subset ?_; simp; done)
       iterate 9 · first | with_reducible rfl | (intro _; with_reducible rfl) | exact fun h => not_free h rfl | (intro _; dsimp only; split <;> rfl) | exact rfl | exact fun _ => rfl)
    | dsimp only

theorem interlock_only {s : State} (hL : names L [.hdr 0x48, .change] = true) 
    (ho : s0.onlyChanges s L) : s0.onlyChanges (State.interlock s) L := by
  unfold State.interlock
  try dsimp only
  repeat' first
    | with_reducible assumption
    | (refine names_trans hL ?_
       try simp only [keyTypes, Nat.reduceMod]
       decide)
    | with_reducible first
      | refine names_cons ?_ ?_
      | refine only_ite ?_ ?_
      | refine only_ite_snd ?_ ?_
      | refine only_ite_fst ?_ ?_
      | refine setRunning_only (hL := ?_) (ho := ?_)
      | refine hpErr_only (hL := ?_) (ho := ?_)
    | split
    | dsimp only

theorem askRail_only {s : State} {t : Running} {r p : Nat} (hL : names L [.rails, .out, .hdr 0x48, .change] = true) 
    (ho : s0.onlyChanges s L) : s0.onlyChanges (State.askRail s t r p) L := by
  unfold State.askRail
  try dsimp only
  repeat' first
    | with_reducible assumption
    | (refine names_trans hL ?_
       try simp only [keyTypes, Nat.reduceMod]
       decide)
    | with_reducible first
      | refine names_cons ?_ ?_
      | refine only_ite ?_ ?_
      | refine only_ite_snd ?_ ?_
      | refine only_ite_fst ?_ ?_
      | refine modRail_only (hL := ?_) (ho := ?_)
      | refine emit_only (hL := ?_) (ho := ?_)
      | refine setRunning_only (hL := ?_) (ho := ?_)
    | split
    | (with_reducible refine modHp_only (z := [.rails, .change]) ?_ ?_ ?_ ?_ ?_ ?_ ?_ ?_ ?_ ?_ ?_
       · refine names_trans hL ?_
         first | decide | (refine names_of_subset ?_; simp; done)
       iterate 9 · first | with_reducible rfl | (intro _; with_reducible rfl) | exact fun h => not_free h rfl | (intro _; dsimp only; split <;> rfl) | exact rfl | exact fun _ => rfl)
    | dsimp only

theorem hpTry_only {s : State} {t : Running} (hL : names L [.hdr 0x48, .change, .out, .staged, .recs, .hdr 0x58, .rails] = true) 
    (ho : s0.onlyChanges s L) : s0.onlyChanges (State.hpTry s t).1 L := by
  unfold State.hpTry
  try dsimp only
  repeat' first
    | with_reducible assumption
    | (refine names_trans hL ?_
       try simp only [keyTypes, Nat.reduceMod]
       decide)
    | with_reducible first
      | refine names_cons ?_ ?_
      | refine only_ite ?_ ?_
      | refine only_ite_snd ?_ ?_
      | refine only_ite_fst ?_ ?_
      | refine setRunning_only (hL := ?_) (ho := ?_)
      | refine emit_only (hL := ?_) (ho := ?_)
      | refine interlock_only (hL := ?_) (ho := ?_)
      | refine log_only (hL := ?_) (ho := ?_)
      | refine hpErr_only (hL := ?_) (ho := ?_)
      | refine askRail_only (hL := ?_) (ho := ?_)
    | split
    | (with_reducible refine modHp_only (z := [.change, .rails]) ?_ ?_ ?_ ?_ ?_ ?_ ?_ ?_ ?_ ?_ ?_
       · refine names_trans hL ?_
         first | decide | (refine names_of_subset ?_; simp; done)
       iterate 9 · first | with_reducible rfl | (intro _; with_reducible rfl) | exact fun h => not_free h rfl | (intro _; dsimp only; split <;> rfl) | exact rfl | exact fun _ => rfl)
    | dsimp only

theorem hpAdvance_only {fuel : Nat} {s : State} (hL : names L [.hdr 0x48, .change, .out, .staged, .recs, .hdr 0x58, .rails] = true)
    (ho : s0.onlyChanges s L) : s0.onlyChanges (hpAdvance fuel s) L := by
  induction fuel generalizing s with
  | zero => exact ho
  | succ k ih =>
    unfold hpAdvance
    try dsimp only
    repeat' first
      | with_reducible assumption
      | (refine names_trans hL ?_
         try simp only [keyTypes, Nat.reduceMod]
         decide)
      | with_reducible first
        | refine names_cons ?_ ?_
        | refine ih ?_
        | refine only_ite ?_ ?_
        | refine only_ite_snd ?_ ?_
        | refine only_ite_fst ?_ ?_
        | refine hpTry_only (hL := ?_) (ho := ?_)
      | split
      | dsimp only

theorem hpStart_only {s : State} {t : ChangeSet} (hL : names L [.change, .hdr 0x48, .out, .staged, .recs, .hdr 0x58, .rails] = true) 
    (ho : s0.onlyChanges s L) : s0.onlyChanges (State.hpStart s t) L := by
  unfold State.hpStart
  try dsimp only
  repeat' first
    | with_reducible assumption
    | (refine names_trans hL ?_
       try simp only [keyTypes, Nat.reduceMod]
       decide)
    | with_reducible first
      | refine names_cons ?_ ?_
      | refine only_ite ?_ ?_
      | refine only_ite_snd ?_ ?_
      | refine only_ite_fst ?_ ?_
      | refine hpAdvance_only (hL := ?_) (ho := ?_)
      | refine setRunning_only (hL := ?_) (ho := ?_)
    | split
    | (with_reducible refine modHp_only (z := [.change, .rails]) ?_ ?_ ?_ ?_ ?_ ?_ ?_ ?_ ?_ ?_ ?_
       · refine names_trans hL ?_
         first | decide | (refine names_of_subset ?_; simp; done)
       iterate 9 · first | with_reducible rfl | (intro _; with_reducible rfl) | exact fun h => not_free h rfl | (intro _; dsimp only; split <;> rfl) | exact rfl | exact fun _ => rfl)
    | dsimp only

theorem execHpwrRailClear_only (c : CmdIn) (s : State) : ∃ st', execHpwrRailClear c s = .next st' ∧ s.onlyChanges st' [.out, .xfers, .lines, .inj, .cmds, .power, .bpwr, .word 0x50 0x54, .activity, .host, .tap, .regs 0x08, .hdr 0x08, .rails, .change, .hdr 0x48, .staged, .recs, .hdr 0x58] := by
  refine ⟨_, rfl, only_start fun hL h0 => ?_⟩
  refine settle_only (names_of_subset (by simp)) ?_
  repeat' first
    | with_reducible first
      | exact h0
      | assumption
    | (refine names_trans hL ?_
       try simp only [keyTypes, Nat.reduceMod]
       decide)
    | (refine names_trans hL ?_
       try simp only [keyTypes, Nat.reduceMod]
       refine names_trans (names_of_subset ?_) names_regs_word
       simp
       done)
    | with_reducible first
      | refine names_cons ?_ ?_
      | refine only_ite ?_ ?_
      | refine only_ite_snd ?_ ?_
      | refine only_ite_fst ?_ ?_
      | refine runCmd_only (hL := ?_) (h_effect := fun u hu => ?_) (ho := ?_)
      | refine failCmd_only (hL := ?_) (ho := ?_)
      | refine modRail_only (hL := ?_) (ho := ?_)
      | refine ok_only (hL := ?_) (ho := ?_)
      | refine hpStart_only (hL := ?_) (ho := ?_)
    | split
    | (with_reducible refine modHp_only (z := [.rails, .change]) ?_ ?_ ?_ ?_ ?_ ?_ ?_ ?_ ?_ ?_ ?_
       · refine names_trans hL ?_
         first | decide | (refine names_of_subset ?_; simp; done)
       iterate 9 · first | with_reducible rfl | (intro _; with_reducible rfl) | exact fun h => not_free h rfl | (intro _; dsimp only; split <;> rfl) | exact rfl | exact fun _ => rfl)
    | dsimp only

theorem modDroop_only {s : State} {r : Nat} {f : Droop → Droop} (hL : names L [.droops] = true) 
    (ho : s0.onlyChanges s L) : s0.onlyChanges (State.modDroop s r f) L := by
  unfold State.modDroop
  try dsimp only
  repeat' first
    | with_reducible assumption
    | (refine names_trans hL ?_
       try simp only [keyTypes, Nat.reduceMod]
       decide)
    | with_reducible first
      | refine names_cons ?_ ?_
      | refine only_ite ?_ ?_
      | refine only_ite_snd ?_ ?_
      | refine only_ite_fst ?_ ?_
    | split
    | (with_reducible refine modHp_only (z := [.droops]) ?_ ?_ ?_ ?_ ?_ ?_ ?_ ?_ ?_ ?_ ?_
       · refine names_trans hL ?_
         first | decide | (refine names_of_subset ?_; simp; done)
       iterate 9 · first | with_reducible rfl | (intro _; with_reducible rfl) | exact fun h => not_free h rfl | (intro _; dsimp only; split <;> rfl) | exact rfl | exact fun _ => rfl)
    | dsimp only

theorem hpNext_only {s : State} {t : Running} (hL : names L [.change, .hdr 0x48, .out, .staged, .recs, .hdr 0x58, .rails] = true) 
    (ho : s0.onlyChanges s L) : s0.onlyChanges (State.hpNext s t) L := by
  unfold State.hpNext
  try dsimp only
  repeat' first
    | with_reducible assumption
    | (refine names_trans hL ?_
       try simp only [keyTypes, Nat.reduceMod]
       decide)
    | with_reducible first
      | refine names_cons ?_ ?_
      | refine only_ite ?_ ?_
      | refine only_ite_snd ?_ ?_
      | refine only_ite_fst ?_ ?_
      | refine hpStart_only (hL := ?_) (ho := ?_)
      | refine setRunning_only (hL := ?_) (ho := ?_)
      | refine hpAdvance_only (hL := ?_) (ho := ?_)
    | split
    | (with_reducible refine modHp_only (z := [.change, .rails]) ?_ ?_ ?_ ?_ ?_ ?_ ?_ ?_ ?_ ?_ ?_
       · refine names_trans hL ?_
         first | decide | (refine names_of_subset ?_; simp; done)
       iterate 9 · first | with_reducible rfl | (intro _; with_reducible rfl) | exact fun h => not_free h rfl | (intro _; dsimp only; split <;> rfl) | exact rfl | exact fun _ => rfl)
    | dsimp only

theorem vfault_only {s : State} {t : Running} {r p : Nat} (hL : names L [.change, .hdr 0x48, .out, .staged, .recs, .hdr 0x58, .rails] = true) 
    (ho : s0.onlyChanges s L) : s0.onlyChanges (State.vfault s t r p) L := by
  unfold State.vfault
  try dsimp only
  repeat' first
    | with_reducible assumption
    | (refine names_trans hL ?_
       try simp only [keyTypes, Nat.reduceMod]
       decide)
    | with_reducible first
      | refine names_cons ?_ ?_
      | refine only_ite ?_ ?_
      | refine only_ite_snd ?_ ?_
      | refine only_ite_fst ?_ ?_
      | refine hpNext_only (hL := ?_) (ho := ?_)
      | refine log_only (hL := ?_) (ho := ?_)
      | refine hpErr_only (hL := ?_) (ho := ?_)
      | refine modRail_only (hL := ?_) (ho := ?_)
    | split
    | (with_reducible refine modHp_only (z := [.change, .rails]) ?_ ?_ ?_ ?_ ?_ ?_ ?_ ?_ ?_ ?_ ?_
       · refine names_trans hL ?_
         first | decide | (refine names_of_subset ?_; simp; done)
       iterate 9 · first | with_reducible rfl | (intro _; with_reducible rfl) | exact fun h => not_free h rfl | (intro _; dsimp only; split <;> rfl) | exact rfl | exact fun _ => rfl)
    | dsimp only

theorem railAck_only {s : State} {t : Running} {r p : Nat} (hL : names L [.hdr 0x48, .inj, .change, .out, .staged, .recs, .hdr 0x58, .rails] = true) 
    (ho : s0.onlyChanges s L) : s0.onlyChanges (State.railAck s t r p) L := by
  unfold State.railAck
  try dsimp only
  repeat' first
    | with_reducible assumption
    | (refine names_trans hL ?_
       try simp only [keyTypes, Nat.reduceMod]
       decide)
    | with_reducible first
      | refine names_cons ?_ ?_
      | refine only_ite ?_ ?_
      | refine only_ite_snd ?_ ?_
      | refine only_ite_fst ?_ ?_
      | refine injTake_only (hL := ?_) (ho := ?_)
      | refine vfault_only (hL := ?_) (ho := ?_)
      | refine hpNext_only (hL := ?_) (ho := ?_)
      | refine modRail_only (hL := ?_) (ho := ?_)
    | split
    | (with_reducible refine modHp_only (z := [.change, .rails]) ?_ ?_ ?_ ?_ ?_ ?_ ?_ ?_ ?_ ?_ ?_
       · refine names_trans hL ?_
         first | decide | (refine names_of_subset ?_; simp; done)
       iterate 9 · first | with_reducible rfl | (intro _; with_reducible rfl) | exact fun h => not_free h rfl | (intro _; dsimp only; split <;> rfl) | exact rfl | exact fun _ => rfl)
    | dsimp only

theorem forceLowest_only {s : State} {cause : BitVec 2} (hL : names L [.forced, .change, .hdr 0x48, .out, .staged, .recs, .hdr 0x58, .rails] = true) 
    (ho : s0.onlyChanges s L) : s0.onlyChanges (State.forceLowest s cause) L := by
  unfold State.forceLowest
  try dsimp only
  repeat' first
    | with_reducible assumption
    | (refine names_trans hL ?_
       try simp only [keyTypes, Nat.reduceMod]
       decide)
    | with_reducible first
      | refine names_cons ?_ ?_
      | refine only_ite ?_ ?_
      | refine only_ite_snd ?_ ?_
      | refine only_ite_fst ?_ ?_
      | refine hpStart_only (hL := ?_) (ho := ?_)
      | refine setRunning_only (hL := ?_) (ho := ?_)
      | refine hpStat_only (hL := ?_) (ho := ?_)
    | split
    | (with_reducible refine modHp_only (z := [.forced, .change, .rails]) ?_ ?_ ?_ ?_ ?_ ?_ ?_ ?_ ?_ ?_ ?_
       · refine names_trans hL ?_
         first | decide | (refine names_of_subset ?_; simp; done)
       iterate 9 · first | with_reducible rfl | (intro _; with_reducible rfl) | exact fun h => not_free h rfl | (intro _; dsimp only; split <;> rfl) | exact rfl | exact fun _ => rfl)
    | dsimp only

theorem tripLine_only {s : State} (hL : names L [.out, .forced] = true) 
    (ho : s0.onlyChanges s L) : s0.onlyChanges (State.tripLine s) L := by
  unfold State.tripLine
  try dsimp only
  repeat' first
    | with_reducible assumption
    | (refine names_trans hL ?_
       try simp only [keyTypes, Nat.reduceMod]
       decide)
    | with_reducible first
      | refine names_cons ?_ ?_
      | refine only_ite ?_ ?_
      | refine only_ite_snd ?_ ?_
      | refine only_ite_fst ?_ ?_
      | refine emit_only (hL := ?_) (ho := ?_)
    | split
    | (with_reducible refine modHp_only (z := [.forced]) ?_ ?_ ?_ ?_ ?_ ?_ ?_ ?_ ?_ ?_ ?_
       · refine names_trans hL ?_
         first | decide | (refine names_of_subset ?_; simp; done)
       iterate 9 · first | with_reducible rfl | (intro _; with_reducible rfl) | exact fun h => not_free h rfl | (intro _; dsimp only; split <;> rfl) | exact rfl | exact fun _ => rfl)
    | dsimp only

theorem tripTick_only {s : State} (hL : names L [.out, .forced, .power, .bpwr, .cmds, .word 0x08 0x104, .word 0x08 0x100, .word 0x50 0x54, .activity, .change, .hdr 0x48, .staged, .recs, .hdr 0x58, .rails] = true) 
    (ho : s0.onlyChanges s L) : s0.onlyChanges (State.tripTick s) L := by
  unfold State.tripTick
  try dsimp only
  repeat' first
    | with_reducible assumption
    | (refine names_trans hL ?_
       try simp only [keyTypes, Nat.reduceMod]
       decide)
    | with_reducible first
      | refine names_cons ?_ ?_
      | refine only_ite ?_ ?_
      | refine only_ite_snd ?_ ?_
      | refine only_ite_fst ?_ ?_
      | refine tripLine_only (hL := ?_) (ho := ?_)
      | refine wakeSrc_only (hL := ?_) (ho := ?_)
      | refine forceLowest_only (hL := ?_) (ho := ?_)
      | refine log_only (hL := ?_) (ho := ?_)
      | refine hpErr_only (hL := ?_) (ho := ?_)
    | split
    | dsimp only

theorem alertForce_only {s : State} {status : List Nat} (hL : names L [.forced, .change, .hdr 0x48, .out, .staged, .recs, .hdr 0x58, .rails] = true) 
    (ho : s0.onlyChanges s L) : s0.onlyChanges (State.alertForce s status) L := by
  unfold State.alertForce
  try dsimp only
  repeat' first
    | with_reducible assumption
    | (refine names_trans hL ?_
       try simp only [keyTypes, Nat.reduceMod]
       decide)
    | with_reducible first
      | refine names_cons ?_ ?_
      | refine only_ite ?_ ?_
      | refine only_ite_snd ?_ ?_
      | refine only_ite_fst ?_ ?_
      | refine forceLowest_only (hL := ?_) (ho := ?_)
      | refine log_only (hL := ?_) (ho := ?_)
      | refine hpErr_only (hL := ?_) (ho := ?_)
      | refine emit_only (hL := ?_) (ho := ?_)
      | refine only_foldl (fun u x hu => ?_) ?_
      | refine only_foldl_snd (fun u x hu => ?_) ?_
      | refine only_foldl_fst (fun u x hu => ?_) ?_
    | split
    | dsimp only

theorem alertTick_only {s : State} (hL : names L [.forced, .change, .hdr 0x48, .out, .staged, .recs, .hdr 0x58, .rails] = true) 
    (ho : s0.onlyChanges s L) : s0.onlyChanges (State.alertTick s) L := by
  unfold State.alertTick
  try dsimp only
  repeat' first
    | with_reducible assumption
    | (refine names_trans hL ?_
       try simp only [keyTypes, Nat.reduceMod]
       decide)
    | with_reducible first
      | refine names_cons ?_ ?_
      | refine only_ite ?_ ?_
      | refine only_ite_snd ?_ ?_
      | refine only_ite_fst ?_ ?_
      | refine alertForce_only (hL := ?_) (ho := ?_)
    | split
    | (with_reducible refine modHp_only (z := [.forced, .change, .rails]) ?_ ?_ ?_ ?_ ?_ ?_ ?_ ?_ ?_ ?_ ?_
       · refine names_trans hL ?_
         first | decide | (refine names_of_subset ?_; simp; done)
       iterate 9 · first | with_reducible rfl | (intro _; with_reducible rfl) | exact fun h => not_free h rfl | (intro _; dsimp only; split <;> rfl) | exact rfl | exact fun _ => rfl)
    | dsimp only

theorem modSensor_only {s : State} {ch : Nat} {f : Sensor → Sensor} (hL : names L [.sensors] = true) 
    (ho : s0.onlyChanges s L) : s0.onlyChanges (State.modSensor s ch f) L := by
  unfold State.modSensor
  try dsimp only
  repeat' first
    | with_reducible assumption
    | (refine names_trans hL ?_
       try simp only [keyTypes, Nat.reduceMod]
       decide)
    | with_reducible first
      | refine names_cons ?_ ?_
      | refine only_ite ?_ ?_
      | refine only_ite_snd ?_ ?_
      | refine only_ite_fst ?_ ?_
    | split
    | (with_reducible refine modHp_only (z := [.sensors]) ?_ ?_ ?_ ?_ ?_ ?_ ?_ ?_ ?_ ?_ ?_
       · refine names_trans hL ?_
         first | decide | (refine names_of_subset ?_; simp; done)
       iterate 9 · first | with_reducible rfl | (intro _; with_reducible rfl) | exact fun h => not_free h rfl | (intro _; dsimp only; split <;> rfl) | exact rfl | exact fun _ => rfl)
    | dsimp only

theorem droopAt_only {s : State} {r : Nat} (hL : names L [.word 0x02 0x58, .staged, .recs, .hdr 0x58, .out, .word 0x48 0x70, .hdr 0x48, .droops, .forced] = true) 
    (ho : s0.onlyChanges s L) : s0.onlyChanges (State.droopAt s r) L := by
  unfold State.droopAt
  try dsimp only
  repeat' first
    | with_reducible assumption
    | (refine names_trans hL ?_
       try simp only [keyTypes, Nat.reduceMod]
       decide)
    | with_reducible first
      | refine names_cons ?_ ?_
      | refine only_ite ?_ ?_
      | refine only_ite_snd ?_ ?_
      | refine only_ite_fst ?_ ?_
      | refine bump_only (hL := ?_) (ho := ?_)
      | refine log_only (hL := ?_) (ho := ?_)
      | refine emit_only (hL := ?_) (ho := ?_)
      | refine bumpFld_only (hL := ?_) (ho := ?_)
      | refine hpErr_only (hL := ?_) (ho := ?_)
      | refine modDroop_only (hL := ?_) (ho := ?_)
    | split
    | (with_reducible refine modHp_only (z := [.droops, .forced]) ?_ ?_ ?_ ?_ ?_ ?_ ?_ ?_ ?_ ?_ ?_
       · refine names_trans hL ?_
         first | decide | (refine names_of_subset ?_; simp; done)
       iterate 9 · first | with_reducible rfl | (intro _; with_reducible rfl) | exact fun h => not_free h rfl | (intro _; dsimp only; split <;> rfl) | exact rfl | exact fun _ => rfl)
    | dsimp only

theorem hpTick_only {s : State} {vcounts : List Nat} (hL : names L [.sensors, .droops, .hdr 0x48, .inj, .word 0x02 0x58, .staged, .recs, .hdr 0x58, .out, .word 0x48 0x70, .forced] = true) 
    (ho : s0.onlyChanges s L) : s0.onlyChanges (State.hpTick s vcounts) L := by
  unfold State.hpTick
  try dsimp only
  repeat' first
    | with_reducible assumption
    | (refine names_trans hL ?_
       try simp only [keyTypes, Nat.reduceMod]
       decide)
    | with_reducible first
      | refine names_cons ?_ ?_
      | refine only_ite ?_ ?_
      | refine only_ite_snd ?_ ?_
      | refine only_ite_fst ?_ ?_
      | refine modDroop_only (hL := ?_) (ho := ?_)
      | refine injTake_only (hL := ?_) (ho := ?_)
      | refine droopAt_only (hL := ?_) (ho := ?_)
      | refine only_foldl (fun u x hu => ?_) ?_
      | refine only_foldl_snd (fun u x hu => ?_) ?_
      | refine only_foldl_fst (fun u x hu => ?_) ?_
    | split
    | (with_reducible refine modHp_only (z := [.sensors, .droops, .forced]) ?_ ?_ ?_ ?_ ?_ ?_ ?_ ?_ ?_ ?_ ?_
       · refine names_trans hL ?_
         first | decide | (refine names_of_subset ?_; simp; done)
       iterate 9 · first | with_reducible rfl | (intro _; with_reducible rfl) | exact fun h => not_free h rfl | (intro _; dsimp only; split <;> rfl) | exact rfl | exact fun _ => rfl)
    | dsimp only

theorem takePoints_only {s : State} (hL : names L [.tables, .staged, .recs, .hdr 0x58, .regs 0x48, .hdr 0x48] = true) 
    (ho : s0.onlyChanges s L) : s0.onlyChanges (State.takePoints s) L := by
  unfold State.takePoints
  try dsimp only
  repeat' first
    | with_reducible assumption
    | (refine names_trans hL ?_
       try simp only [keyTypes, Nat.reduceMod]
       decide)
    | (refine names_trans hL ?_
       try simp only [keyTypes, Nat.reduceMod]
       refine names_trans (names_of_subset ?_) names_regs_word
       simp
       done)
    | with_reducible first
      | refine names_cons ?_ ?_
      | refine only_ite ?_ ?_
      | refine only_ite_snd ?_ ?_
      | refine only_ite_fst ?_ ?_
      | refine log_only (hL := ?_) (ho := ?_)
      | refine setReg_only (hL := ?_) (h := ?_)
      | refine hpErr_only (hL := ?_) (ho := ?_)
      | refine only_foldl (fun u x hu => ?_) ?_
      | refine only_foldl_snd (fun u x hu => ?_) ?_
      | refine only_foldl_fst (fun u x hu => ?_) ?_
    | split
    | (with_reducible refine modHp_only (z := [.tables]) ?_ ?_ ?_ ?_ ?_ ?_ ?_ ?_ ?_ ?_ ?_
       · refine names_trans hL ?_
         first | decide | (refine names_of_subset ?_; simp; done)
       iterate 9 · first | with_reducible rfl | (intro _; with_reducible rfl) | exact fun h => not_free h rfl | (intro _; dsimp only; split <;> rfl) | exact rfl | exact fun _ => rfl)
    | dsimp only

theorem thermalLimit_only {s : State} {c tgt : Nat} (hL : names L [.staged, .recs, .hdr 0x58, .hdr 0x48, .cores] = true) 
    (ho : s0.onlyChanges s L) : s0.onlyChanges (State.thermalLimit s c tgt) L := by
  unfold State.thermalLimit
  try dsimp only
  repeat' first
    | with_reducible assumption
    | (refine names_trans hL ?_
       try simp only [keyTypes, Nat.reduceMod]
       decide)
    | with_reducible first
      | refine names_cons ?_ ?_
      | refine only_ite ?_ ?_
      | refine only_ite_snd ?_ ?_
      | refine only_ite_fst ?_ ?_
      | refine log_only (hL := ?_) (ho := ?_)
      | refine hpErr_only (hL := ?_) (ho := ?_)
      | refine modCore_only (hL := ?_) (ho := ?_)
    | split
    | (with_reducible refine modHp_only (z := [.cores]) ?_ ?_ ?_ ?_ ?_ ?_ ?_ ?_ ?_ ?_ ?_
       · refine names_trans hL ?_
         first | decide | (refine names_of_subset ?_; simp; done)
       iterate 9 · first | with_reducible rfl | (intro _; with_reducible rfl) | exact fun h => not_free h rfl | (intro _; dsimp only; split <;> rfl) | exact rfl | exact fun _ => rfl)
    | dsimp only

theorem droopLimit_only {s : State} {c tgt : Nat} (hL : names L [.cores] = true) 
    (ho : s0.onlyChanges s L) : s0.onlyChanges (State.droopLimit s c tgt) L := by
  unfold State.droopLimit
  try dsimp only
  repeat' first
    | with_reducible assumption
    | (refine names_trans hL ?_
       try simp only [keyTypes, Nat.reduceMod]
       decide)
    | with_reducible first
      | refine names_cons ?_ ?_
      | refine only_ite ?_ ?_
      | refine only_ite_snd ?_ ?_
      | refine only_ite_fst ?_ ?_
      | refine modCore_only (hL := ?_) (ho := ?_)
    | split
    | (with_reducible refine modHp_only (z := [.cores]) ?_ ?_ ?_ ?_ ?_ ?_ ?_ ?_ ?_ ?_ ?_
       · refine names_trans hL ?_
         first | decide | (refine names_of_subset ?_; simp; done)
       iterate 9 · first | with_reducible rfl | (intro _; with_reducible rfl) | exact fun h => not_free h rfl | (intro _; dsimp only; split <;> rfl) | exact rfl | exact fun _ => rfl)
    | dsimp only

theorem capUnmet_only {s : State} {g budget : Nat} (hL : names L [.staged, .recs, .hdr 0x58, .hdr 0x48, .budgets] = true) 
    (ho : s0.onlyChanges s L) : s0.onlyChanges (State.capUnmet s g budget) L := by
  unfold State.capUnmet
  try dsimp only
  repeat' first
    | with_reducible assumption
    | (refine names_trans hL ?_
       try simp only [keyTypes, Nat.reduceMod]
       decide)
    | with_reducible first
      | refine names_cons ?_ ?_
      | refine only_ite ?_ ?_
      | refine only_ite_snd ?_ ?_
      | refine only_ite_fst ?_ ?_
      | refine log_only (hL := ?_) (ho := ?_)
      | refine hpErr_only (hL := ?_) (ho := ?_)
    | split
    | (with_reducible refine modHp_only (z := [.budgets]) ?_ ?_ ?_ ?_ ?_ ?_ ?_ ?_ ?_ ?_ ?_
       · refine names_trans hL ?_
         first | decide | (refine names_of_subset ?_; simp; done)
       iterate 9 · first | with_reducible rfl | (intro _; with_reducible rfl) | exact fun h => not_free h rfl | (intro _; dsimp only; split <;> rfl) | exact rfl | exact fun _ => rfl)
    | dsimp only

theorem powerLimits_only {s : State} (hL : names L [.tables, .staged, .recs, .hdr 0x58, .regs 0x48, .hdr 0x48, .cores, .droops] = true) 
    (ho : s0.onlyChanges s L) : s0.onlyChanges (State.powerLimits s) L := by
  unfold State.powerLimits
  try dsimp only
  repeat' first
    | with_reducible assumption
    | (refine names_trans hL ?_
       try simp only [keyTypes, Nat.reduceMod]
       decide)
    | (refine names_trans hL ?_
       try simp only [keyTypes, Nat.reduceMod]
       refine names_trans (names_of_subset ?_) names_regs_word
       simp
       done)
    | with_reducible first
      | refine names_cons ?_ ?_
      | refine only_ite ?_ ?_
      | refine only_ite_snd ?_ ?_
      | refine only_ite_fst ?_ ?_
      | refine takePoints_only (hL := ?_) (ho := ?_)
      | refine droopLimit_only (hL := ?_) (ho := ?_)
      | refine thermalLimit_only (hL := ?_) (ho := ?_)
      | refine only_foldl (fun u x hu => ?_) ?_
      | refine only_foldl_snd (fun u x hu => ?_) ?_
      | refine only_foldl_fst (fun u x hu => ?_) ?_
    | split
    | (with_reducible refine modHp_only (z := [.tables, .cores, .droops]) ?_ ?_ ?_ ?_ ?_ ?_ ?_ ?_ ?_ ?_ ?_
       · refine names_trans hL ?_
         first | decide | (refine names_of_subset ?_; simp; done)
       iterate 9 · first | with_reducible rfl | (intro _; with_reducible rfl) | exact fun h => not_free h rfl | (intro _; dsimp only; split <;> rfl) | exact rfl | exact fun _ => rfl)
    | dsimp only

theorem powerDecide_only {s : State} (hL : names L [.tables, .staged, .recs, .hdr 0x58, .regs 0x48, .hdr 0x48, .cores, .droops, .forced, .budgets, .change, .out, .rails] = true) 
    (ho : s0.onlyChanges s L) : s0.onlyChanges (State.powerDecide s) L := by
  unfold State.powerDecide
  try dsimp only
  repeat' first
    | with_reducible assumption
    | (refine names_trans hL ?_
       try simp only [keyTypes, Nat.reduceMod]
       decide)
    | (refine names_trans hL ?_
       try simp only [keyTypes, Nat.reduceMod]
       refine names_trans (names_of_subset ?_) names_regs_word
       simp
       done)
    | with_reducible first
      | refine names_cons ?_ ?_
      | refine only_ite ?_ ?_
      | refine only_ite_snd ?_ ?_
      | refine only_ite_fst ?_ ?_
      | refine powerLimits_only (hL := ?_) (ho := ?_)
      | refine capUnmet_only (hL := ?_) (ho := ?_)
      | refine hpStart_only (hL := ?_) (ho := ?_)
      | refine only_foldl (fun u x hu => ?_) ?_
      | refine only_foldl_snd (fun u x hu => ?_) ?_
      | refine only_foldl_fst (fun u x hu => ?_) ?_
    | split
    | (with_reducible refine modHp_only (z := [.tables, .cores, .droops, .forced, .budgets, .change, .rails]) ?_ ?_ ?_ ?_ ?_ ?_ ?_ ?_ ?_ ?_ ?_
       · refine names_trans hL ?_
         first | decide | (refine names_of_subset ?_; simp; done)
       iterate 9 · first | with_reducible rfl | (intro _; with_reducible rfl) | exact fun h => not_free h rfl | (intro _; dsimp only; split <;> rfl) | exact rfl | exact fun _ => rfl)
    | dsimp only

theorem pwrVerdict_only {s : State} {v : Verdict} (hL : names L [.droops] = true) 
    (ho : s0.onlyChanges s L) : s0.onlyChanges (State.pwrVerdict s v) L := by
  unfold State.pwrVerdict
  try dsimp only
  repeat' first
    | with_reducible assumption
    | (refine names_trans hL ?_
       try simp only [keyTypes, Nat.reduceMod]
       decide)
    | with_reducible first
      | refine names_cons ?_ ?_
      | refine only_ite ?_ ?_
      | refine only_ite_snd ?_ ?_
      | refine only_ite_fst ?_ ?_
    | split
    | (with_reducible refine modHp_only (z := [.droops]) ?_ ?_ ?_ ?_ ?_ ?_ ?_ ?_ ?_ ?_ ?_
       · refine names_trans hL ?_
         first | decide | (refine names_of_subset ?_; simp; done)
       iterate 9 · first | with_reducible rfl | (intro _; with_reducible rfl) | exact fun h => not_free h rfl | (intro _; dsimp only; split <;> rfl) | exact rfl | exact fun _ => rfl)
    | dsimp only

theorem hpWarm_only {s : State} (hL : names L [.change, .hdr 0x48] = true) 
    (ho : s0.onlyChanges s L) : s0.onlyChanges (State.hpWarm s) L := by
  unfold State.hpWarm
  try dsimp only
  repeat' first
    | with_reducible assumption
    | (refine names_trans hL ?_
       try simp only [keyTypes, Nat.reduceMod]
       decide)
    | with_reducible first
      | refine names_cons ?_ ?_
      | refine only_ite ?_ ?_
      | refine only_ite_snd ?_ ?_
      | refine only_ite_fst ?_ ?_
      | refine setRunning_only (hL := ?_) (ho := ?_)
    | split
    | (with_reducible refine modHp_only (z := [.change]) ?_ ?_ ?_ ?_ ?_ ?_ ?_ ?_ ?_ ?_ ?_
       · refine names_trans hL ?_
         first | decide | (refine names_of_subset ?_; simp; done)
       iterate 9 · first | with_reducible rfl | (intro _; with_reducible rfl) | exact fun h => not_free h rfl | (intro _; dsimp only; split <;> rfl) | exact rfl | exact fun _ => rfl)
    | dsimp only

theorem execFcAck_only (s : State) : ∃ st', execFcAck s = .next st' ∧ s.onlyChanges st' [.out, .xfers, .lines, .inj, .change, .hdr 0x48, .staged, .recs, .hdr 0x58, .rails, .cores] := by
  refine ⟨_, rfl, only_start fun hL h0 => ?_⟩
  refine settle_only (names_of_subset (by simp)) ?_
  repeat' first
    | with_reducible first
      | exact h0
      | assumption
    | (refine names_trans hL ?_
       try simp only [keyTypes, Nat.reduceMod]
       decide)
    | with_reducible first
      | refine names_cons ?_ ?_
      | refine only_ite ?_ ?_
      | refine only_ite_snd ?_ ?_
      | refine only_ite_fst ?_ ?_
      | refine hpNext_only (hL := ?_) (ho := ?_)
      | refine modCore_only (hL := ?_) (ho := ?_)
    | split
    | (with_reducible refine modHp_only (z := [.change, .rails, .cores]) ?_ ?_ ?_ ?_ ?_ ?_ ?_ ?_ ?_ ?_ ?_
       · refine names_trans hL ?_
         first | decide | (refine names_of_subset ?_; simp; done)
       iterate 9 · first | with_reducible rfl | (intro _; with_reducible rfl) | exact fun h => not_free h rfl | (intro _; dsimp only; split <;> rfl) | exact rfl | exact fun _ => rfl)
    | dsimp only

theorem execFcGoAck_only (s : State) : ∃ st', execFcGoAck s = .next st' ∧ s.onlyChanges st' [.out, .xfers, .lines, .inj, .change, .hdr 0x48, .staged, .recs, .hdr 0x58, .rails, .cores] := by
  refine ⟨_, rfl, only_start fun hL h0 => ?_⟩
  refine settle_only (names_of_subset (by simp)) ?_
  repeat' first
    | with_reducible first
      | exact h0
      | assumption
    | (refine names_trans hL ?_
       try simp only [keyTypes, Nat.reduceMod]
       decide)
    | with_reducible first
      | refine names_cons ?_ ?_
      | refine only_ite ?_ ?_
      | refine only_ite_snd ?_ ?_
      | refine only_ite_fst ?_ ?_
      | refine hpNext_only (hL := ?_) (ho := ?_)
    | split
    | (with_reducible refine modHp_only (z := [.change, .rails, .cores]) ?_ ?_ ?_ ?_ ?_ ?_ ?_ ?_ ?_ ?_ ?_
       · refine names_trans hL ?_
         first | decide | (refine names_of_subset ?_; simp; done)
       iterate 9 · first | with_reducible rfl | (intro _; with_reducible rfl) | exact fun h => not_free h rfl | (intro _; dsimp only; split <;> rfl) | exact rfl | exact fun _ => rfl)
    | dsimp only

theorem execVidAck_only (s : State) : ∃ st', execVidAck s = .next st' ∧ s.onlyChanges st' [.out, .xfers, .lines, .inj, .hdr 0x48, .change, .staged, .recs, .hdr 0x58, .rails] := by
  refine ⟨_, rfl, only_start fun hL h0 => ?_⟩
  refine settle_only (names_of_subset (by simp)) ?_
  repeat' first
    | with_reducible first
      | exact h0
      | assumption
    | (refine names_trans hL ?_
       try simp only [keyTypes, Nat.reduceMod]
       decide)
    | with_reducible first
      | refine names_cons ?_ ?_
      | refine only_ite ?_ ?_
      | refine only_ite_snd ?_ ?_
      | refine only_ite_fst ?_ ?_
      | refine railAck_only (hL := ?_) (ho := ?_)
    | split
    | dsimp only

theorem execPmbusVoutPoll_only (mv : Option Nat) (s : State) : ∃ st', execPmbusVoutPoll mv s = .next st' ∧ s.onlyChanges st' [.out, .xfers, .lines, .inj, .change, .hdr 0x48, .staged, .recs, .hdr 0x58, .rails] := by
  refine ⟨_, rfl, only_start fun hL h0 => ?_⟩
  refine settle_only (names_of_subset (by simp)) ?_
  repeat' first
    | with_reducible first
      | exact h0
      | assumption
    | (refine names_trans hL ?_
       try simp only [keyTypes, Nat.reduceMod]
       decide)
    | with_reducible first
      | refine names_cons ?_ ?_
      | refine only_ite ?_ ?_
      | refine only_ite_snd ?_ ?_
      | refine only_ite_fst ?_ ?_
      | refine vfault_only (hL := ?_) (ho := ?_)
      | refine railAck_only (hL := ?_) (ho := ?_)
    | split
    | dsimp only

theorem execVfault_only (s : State) : ∃ st', execVfault s = .next st' ∧ s.onlyChanges st' [.out, .xfers, .lines, .inj, .change, .hdr 0x48, .staged, .recs, .hdr 0x58, .rails] := by
  refine ⟨_, rfl, only_start fun hL h0 => ?_⟩
  refine settle_only (names_of_subset (by simp)) ?_
  repeat' first
    | with_reducible first
      | exact h0
      | assumption
    | (refine names_trans hL ?_
       try simp only [keyTypes, Nat.reduceMod]
       decide)
    | with_reducible first
      | refine names_cons ?_ ?_
      | refine only_ite ?_ ?_
      | refine only_ite_snd ?_ ?_
      | refine only_ite_fst ?_ ?_
      | refine vfault_only (hL := ?_) (ho := ?_)
    | split
    | dsimp only

theorem execAlertN_only (low : Bool) (status : List Nat) (s : State) : ∃ st', execAlertN low status s = .next st' ∧ s.onlyChanges st' [.out, .xfers, .lines, .inj, .forced, .staged, .recs, .hdr 0x58, .power, .bpwr, .cmds, .word 0x08 0x104, .word 0x08 0x100, .word 0x50 0x54, .activity, .change, .hdr 0x48, .rails] := by
  refine ⟨_, rfl, only_start fun hL h0 => ?_⟩
  refine settle_only (names_of_subset (by simp)) ?_
  repeat' first
    | with_reducible first
      | exact h0
      | assumption
    | (refine names_trans hL ?_
       try simp only [keyTypes, Nat.reduceMod]
       decide)
    | with_reducible first
      | refine names_cons ?_ ?_
      | refine only_ite ?_ ?_
      | refine only_ite_snd ?_ ?_
      | refine only_ite_fst ?_ ?_
      | refine log_only (hL := ?_) (ho := ?_)
      | refine wakeSrc_only (hL := ?_) (ho := ?_)
      | refine alertForce_only (hL := ?_) (ho := ?_)
    | split
    | (with_reducible refine modHp_only (z := [.forced, .change, .rails]) ?_ ?_ ?_ ?_ ?_ ?_ ?_ ?_ ?_ ?_ ?_
       · refine names_trans hL ?_
         first | decide | (refine names_of_subset ?_; simp; done)
       iterate 9 · first | with_reducible rfl | (intro _; with_reducible rfl) | exact fun h => not_free h rfl | (intro _; dsimp only; split <;> rfl) | exact rfl | exact fun _ => rfl)
    | dsimp only

theorem execSensorReading_only (ch : BitVec 6) (val : BitVec 16) (s : State) : ∃ st', execSensorReading ch val s = .next st' ∧ s.onlyChanges st' [.out, .xfers, .lines, .inj, .staged, .recs, .hdr 0x58, .regs 0x93, .regs 0x91, .regs 0x38, .violations, .ports, .suspects, .hdr 0x28, .hdr 0x12, .gens, .spares, .probes, .sensors] := by
  refine ⟨_, rfl, only_start fun hL h0 => ?_⟩
  refine settle_only (names_of_subset (by simp)) ?_
  repeat' first
    | with_reducible first
      | exact h0
      | assumption
    | (refine names_trans hL ?_
       try simp only [keyTypes, Nat.reduceMod]
       decide)
    | (refine names_trans hL ?_
       try simp only [keyTypes, Nat.reduceMod]
       refine names_trans (names_of_subset ?_) names_regs_word
       simp
       done)
    | (refine names_trans hL ?_
       refine names_trans (names_of_subset ?_) names_port_word
       simp
       done)
    | with_reducible first
      | refine names_cons ?_ ?_
      | refine only_ite ?_ ?_
      | refine only_ite_snd ?_ ?_
      | refine only_ite_fst ?_ ?_
      | refine violate_only (hL := ?_) (ho := ?_)
      | refine modSensor_only (hL := ?_) (ho := ?_)
      | refine log_only (hL := ?_) (ho := ?_)
    | split
    | (with_reducible refine modHp_only (z := [.sensors]) ?_ ?_ ?_ ?_ ?_ ?_ ?_ ?_ ?_ ?_ ?_
       · refine names_trans hL ?_
         first | decide | (refine names_of_subset ?_; simp; done)
       iterate 9 · first | with_reducible rfl | (intro _; with_reducible rfl) | exact fun h => not_free h rfl | (intro _; dsimp only; split <;> rfl) | exact rfl | exact fun _ => rfl)
    | dsimp only

theorem execSensorQuiet_only (ch : BitVec 6) (s : State) : ∃ st', execSensorQuiet ch s = .next st' ∧ s.onlyChanges st' [.out, .xfers, .lines, .inj, .staged, .recs, .hdr 0x58, .sensors] := by
  refine ⟨_, rfl, only_start fun hL h0 => ?_⟩
  refine settle_only (names_of_subset (by simp)) ?_
  repeat' first
    | with_reducible first
      | exact h0
      | assumption
    | (refine names_trans hL ?_
       try simp only [keyTypes, Nat.reduceMod]
       decide)
    | with_reducible first
      | refine names_cons ?_ ?_
      | refine only_ite ?_ ?_
      | refine only_ite_snd ?_ ?_
      | refine only_ite_fst ?_ ?_
      | refine log_only (hL := ?_) (ho := ?_)
      | refine modSensor_only (hL := ?_) (ho := ?_)
    | split
    | (with_reducible refine modHp_only (z := [.sensors]) ?_ ?_ ?_ ?_ ?_ ?_ ?_ ?_ ?_ ?_ ?_
       · refine names_trans hL ?_
         first | decide | (refine names_of_subset ?_; simp; done)
       iterate 9 · first | with_reducible rfl | (intro _; with_reducible rfl) | exact fun h => not_free h rfl | (intro _; dsimp only; split <;> rfl) | exact rfl | exact fun _ => rfl)
    | dsimp only

theorem execDroopDetect_only (r : BitVec 4) (halfFs : Nat) (s : State) : ∃ st', execDroopDetect r halfFs s = .next st' ∧ s.onlyChanges st' [.out, .xfers, .lines, .inj, .word 0x02 0x58, .staged, .recs, .hdr 0x58, .word 0x48 0x70, .hdr 0x48, .droops, .forced] := by
  refine ⟨_, rfl, only_start fun hL h0 => ?_⟩
  refine settle_only (names_of_subset (by simp)) ?_
  repeat' first
    | with_reducible first
      | exact h0
      | assumption
    | (refine names_trans hL ?_
       try simp only [keyTypes, Nat.reduceMod]
       decide)
    | with_reducible first
      | refine names_cons ?_ ?_
      | refine only_ite ?_ ?_
      | refine only_ite_snd ?_ ?_
      | refine only_ite_fst ?_ ?_
      | refine droopAt_only (hL := ?_) (ho := ?_)
    | split
    | dsimp only

theorem execDroopClear_only (r : BitVec 4) (halvesFs : List Nat) (s : State) : ∃ st', execDroopClear r halvesFs s = .next st' ∧ s.onlyChanges st' [.out, .xfers, .lines, .inj, .droops, .forced] := by
  refine ⟨_, rfl, only_start fun hL h0 => ?_⟩
  refine settle_only (names_of_subset (by simp)) ?_
  repeat' first
    | with_reducible first
      | exact h0
      | assumption
    | (refine names_trans hL ?_
       try simp only [keyTypes, Nat.reduceMod]
       decide)
    | with_reducible first
      | refine names_cons ?_ ?_
      | refine only_ite ?_ ?_
      | refine only_ite_snd ?_ ?_
      | refine only_ite_fst ?_ ?_
      | refine emit_only (hL := ?_) (ho := ?_)
      | refine modDroop_only (hL := ?_) (ho := ?_)
    | split
    | (with_reducible refine modHp_only (z := [.droops, .forced]) ?_ ?_ ?_ ?_ ?_ ?_ ?_ ?_ ?_ ?_ ?_
       · refine names_trans hL ?_
         first | decide | (refine names_of_subset ?_; simp; done)
       iterate 9 · first | with_reducible rfl | (intro _; with_reducible rfl) | exact fun h => not_free h rfl | (intro _; dsimp only; split <;> rfl) | exact rfl | exact fun _ => rfl)
    | dsimp only

theorem execDroopHoldEnd_only (r : BitVec 4) (s : State) : ∃ st', execDroopHoldEnd r s = .next st' ∧ s.onlyChanges st' [.out, .xfers, .lines, .inj, .hdr 0x48, .change, .staged, .recs, .hdr 0x58, .rails, .now, .droops] := by
  refine ⟨_, rfl, only_start fun hL h0 => ?_⟩
  refine settle_only (names_of_subset (by simp)) ?_
  repeat' first
    | with_reducible first
      | exact h0
      | assumption
    | (refine names_trans hL ?_
       try simp only [keyTypes, Nat.reduceMod]
       decide)
    | with_reducible first
      | refine names_cons ?_ ?_
      | refine only_ite ?_ ?_
      | refine only_ite_snd ?_ ?_
      | refine only_ite_fst ?_ ?_
      | refine hpAdvance_only (hL := ?_) (ho := ?_)
      | refine modDroop_only (hL := ?_) (ho := ?_)
      | refine advanceTo_only (hL := ?_) (ho := ?_)
    | split
    | (with_reducible refine modHp_only (z := [.change, .rails, .droops]) ?_ ?_ ?_ ?_ ?_ ?_ ?_ ?_ ?_ ?_ ?_
       · refine names_trans hL ?_
         first | decide | (refine names_of_subset ?_; simp; done)
       iterate 9 · first | with_reducible rfl | (intro _; with_reducible rfl) | exact fun h => not_free h rfl | (intro _; dsimp only; split <;> rfl) | exact rfl | exact fun _ => rfl)
    | dsimp only

theorem execSustainedDroop_only (r : BitVec 4) (s : State) : ∃ st', execSustainedDroop r s = .next st' ∧ s.onlyChanges st' [.out, .xfers, .lines, .inj, .now, .droops] := by
  refine ⟨_, rfl, only_start fun hL h0 => ?_⟩
  refine settle_only (names_of_subset (by simp)) ?_
  repeat' first
    | with_reducible first
      | exact h0
      | assumption
    | (refine names_trans hL ?_
       try simp only [keyTypes, Nat.reduceMod]
       decide)
    | with_reducible first
      | refine names_cons ?_ ?_
      | refine only_ite ?_ ?_
      | refine only_ite_snd ?_ ?_
      | refine only_ite_fst ?_ ?_
      | refine modDroop_only (hL := ?_) (ho := ?_)
      | refine advanceTo_only (hL := ?_) (ho := ?_)
    | split
    | (with_reducible refine modHp_only (z := [.droops]) ?_ ?_ ?_ ?_ ?_ ?_ ?_ ?_ ?_ ?_ ?_
       · refine names_trans hL ?_
         first | decide | (refine names_of_subset ?_; simp; done)
       iterate 9 · first | with_reducible rfl | (intro _; with_reducible rfl) | exact fun h => not_free h rfl | (intro _; dsimp only; split <;> rfl) | exact rfl | exact fun _ => rfl)
    | dsimp only

theorem execKCorrection_only (iout : List (Nat × Nat)) (s : State) : ∃ st', execKCorrection iout s = .next st' ∧ s.onlyChanges st' [.out, .xfers, .lines, .inj, .now, .budgets, .rails] := by
  refine ⟨_, rfl, only_start fun hL h0 => ?_⟩
  refine settle_only (names_of_subset (by simp)) ?_
  repeat' first
    | with_reducible first
      | exact h0
      | assumption
    | (refine names_trans hL ?_
       try simp only [keyTypes, Nat.reduceMod]
       decide)
    | with_reducible first
      | refine names_cons ?_ ?_
      | refine only_ite ?_ ?_
      | refine only_ite_snd ?_ ?_
      | refine only_ite_fst ?_ ?_
      | refine advanceTo_only (hL := ?_) (ho := ?_)
      | refine modRail_only (hL := ?_) (ho := ?_)
      | refine only_foldl (fun u x hu => ?_) ?_
      | refine only_foldl_snd (fun u x hu => ?_) ?_
      | refine only_foldl_fst (fun u x hu => ?_) ?_
    | split
    | (with_reducible refine modHp_only (z := [.budgets, .rails]) ?_ ?_ ?_ ?_ ?_ ?_ ?_ ?_ ?_ ?_ ?_
       · refine names_trans hL ?_
         first | decide | (refine names_of_subset ?_; simp; done)
       iterate 9 · first | with_reducible rfl | (intro _; with_reducible rfl) | exact fun h => not_free h rfl | (intro _; dsimp only; split <;> rfl) | exact rfl | exact fun _ => rfl)
    | dsimp only

theorem execPowerDecision_only (s : State) : ∃ st', execPowerDecision s = .next st' ∧ s.onlyChanges st' [.out, .xfers, .lines, .inj, .tables, .staged, .recs, .hdr 0x58, .regs 0x48, .hdr 0x48, .cores, .droops, .forced, .budgets, .change, .rails] := by
  refine ⟨_, rfl, only_start fun hL h0 => ?_⟩
  refine settle_only (names_of_subset (by simp)) ?_
  repeat' first
    | with_reducible first
      | exact h0
      | assumption
    | (refine names_trans hL ?_
       try simp only [keyTypes, Nat.reduceMod]
       decide)
    | (refine names_trans hL ?_
       try simp only [keyTypes, Nat.reduceMod]
       refine names_trans (names_of_subset ?_) names_regs_word
       simp
       done)
    | with_reducible first
      | refine names_cons ?_ ?_
      | refine only_ite ?_ ?_
      | refine only_ite_snd ?_ ?_
      | refine only_ite_fst ?_ ?_
      | refine powerDecide_only (hL := ?_) (ho := ?_)
    | split
    | (with_reducible refine modHp_only (z := [.tables, .cores, .droops, .forced, .budgets, .change, .rails]) ?_ ?_ ?_ ?_ ?_ ?_ ?_ ?_ ?_ ?_ ?_
       · refine names_trans hL ?_
         first | decide | (refine names_of_subset ?_; simp; done)
       iterate 9 · first | with_reducible rfl | (intro _; with_reducible rfl) | exact fun h => not_free h rfl | (intro _; dsimp only; split <;> rfl) | exact rfl | exact fun _ => rfl)
    | dsimp only

end Sys2Proof.Machine
end

