-- ==== Sys2Proof/Laws/FramesRoot.lean ====
section
/-!
SUPPORT. What each operation and each command of Fum, Mirror, Rot, Spdm, Trace, UnitWin, Tiles, Kat, Snuff, Waves may change.
-/
set_option linter.all false
namespace Sys2Proof.Machine

variable {s0 : State} {L : List Part}

/-! Fum -/

theorem logPlain_only {s : State} {page code sev : Nat} {body : List Byte} (hL : names L [.staged, .recs, .hdr 0x58] = true) 
    (ho : s0.onlyChanges s L) : s0.onlyChanges (State.logPlain s page code sev body) L := by
  unfold State.logPlain
  try dsimp only
  repeat' first
    | with_reducible assumption
    | (refine names_trans hL ?_
       try simp only [keyTypes, Nat.reduceMod]
       decide)
    | with_reducible first
      | refine names_cons ?_ ?_
      | refine only_ite ?_ ?_
      | refine only_ite_snd ?_ ?_
      | refine only_ite_fst ?_ ?_
      | refine logRec_only (hL := ?_) (ho := ?_)
    | split
    | dsimp only

theorem setDump_only {s : State} {d : Dump} (hL : names L [.plans] = true) 
    (ho : s0.onlyChanges s L) : s0.onlyChanges (State.setDump s d) L := by
  unfold State.setDump
  try dsimp only
  repeat' first
    | with_reducible assumption
    | (refine names_trans hL ?_
       try simp only [keyTypes, Nat.reduceMod]
       decide)
    | with_reducible first
      | refine names_cons ?_ ?_
      | refine only_ite ?_ ?_
      | refine only_ite_snd ?_ ?_
      | refine only_ite_fst ?_ ?_
    | split
    | (with_reducible refine modFum_only (z := [.plans]) ?_ ?_ ?_ ?_ ?_ ?_ ?_ ?_ ?_ ?_
       · refine names_trans hL ?_
         first | decide | (refine names_of_subset ?_; simp; done)
       iterate 8 · first | with_reducible rfl | (intro _; with_reducible rfl) | exact fun h => not_free h rfl | (intro _; dsimp only; split <;> rfl) | exact rfl | exact fun _ => rfl)
    | dsimp only

theorem markCopy_only {s : State} {n : BitVec 32} {v : Bool} (hL : names L [.log] = true) 
    (ho : s0.onlyChanges s L) : s0.onlyChanges (State.markCopy s n v) L := by
  unfold State.markCopy
  try dsimp only
  repeat' first
    | with_reducible assumption
    | (refine names_trans hL ?_
       try simp only [keyTypes, Nat.reduceMod]
       decide)
    | with_reducible first
      | refine names_cons ?_ ?_
      | refine only_ite ?_ ?_
      | refine only_ite_snd ?_ ?_
      | refine only_ite_fst ?_ ?_
    | split
    | (with_reducible refine modFum_only (z := [.log]) ?_ ?_ ?_ ?_ ?_ ?_ ?_ ?_ ?_ ?_
       · refine names_trans hL ?_
         first | decide | (refine names_of_subset ?_; simp; done)
       iterate 8 · first | with_reducible rfl | (intro _; with_reducible rfl) | exact fun h => not_free h rfl | (intro _; dsimp only; split <;> rfl) | exact rfl | exact fun _ => rfl)
    | dsimp only

theorem dumpNext_only {s : State} {d : Dump} (hL : names L [.cmds, .out, .xfers, .plans, .hdr 0x58, .log] = true) 
    (ho : s0.onlyChanges s L) : s0.onlyChanges (State.dumpNext s d) L := by
  unfold State.dumpNext
  try dsimp only
  repeat' first
    | with_reducible assumption
    | (refine names_trans hL ?_
       try simp only [keyTypes, Nat.reduceMod]
       decide)
    | with_reducible first
      | refine names_cons ?_ ?_
      | refine only_ite ?_ ?_
      | refine only_ite_snd ?_ ?_
      | refine only_ite_fst ?_ ?_
      | refine cmdXfer_only (hL := ?_) (ho := ?_)
      | refine setDump_only (hL := ?_) (ho := ?_)
      | refine setErr_only (hL := ?_) (ho := ?_)
      | refine markCopy_only (hL := ?_) (ho := ?_)
    | split
    | dsimp only

theorem fumDumpCmd_only {c : CmdIn} {s : State} (hL : names L [.cmds, .out, .xfers, .plans, .hdr 0x58, .log] = true) 
    (ho : s0.onlyChanges s L) : s0.onlyChanges (fumDumpCmd c s) L := by
  unfold fumDumpCmd
  try dsimp only
  repeat' first
    | with_reducible assumption
    | (refine names_trans hL ?_
       try simp only [keyTypes, Nat.reduceMod]
       decide)
    | with_reducible first
      | refine names_cons ?_ ?_
      | refine only_ite ?_ ?_
      | refine only_ite_snd ?_ ?_
      | refine only_ite_fst ?_ ?_
      | refine badArg_only (hL := ?_) (ho := ?_)
      | refine failCmd_only (hL := ?_) (ho := ?_)
      | refine dumpNext_only (hL := ?_) (ho := ?_)
      | refine setStat_only (hL := ?_) (ho := ?_)
    | split
    | dsimp only

theorem execFumDump_only (c : CmdIn) (s : State) : ∃ st', execFumDump c s = .next st' ∧ s.onlyChanges st' [.out, .xfers, .lines, .inj, .cmds, .power, .bpwr, .word 0x50 0x54, .activity, .host, .tap, .regs 0x08, .hdr 0x08, .plans, .hdr 0x58, .log] := by
  refine ⟨_, rfl, only_start fun hL h0 => ?_⟩
  refine settle_only (names_of_subset (by simp)) ?_
  repeat' first
    | with_reducible first
      | exact h0
      | assumption
    | (refine names_trans hL ?_
       try simp only [keyTypes, Nat.reduceMod]
       decide)
    | (refine names_trans hL ?_
       try simp only [keyTypes, Nat.reduceMod]
       refine names_trans (names_of_subset ?_) names_regs_word
       simp
       done)
    | with_reducible first
      | refine names_cons ?_ ?_
      | refine only_ite ?_ ?_
      | refine only_ite_snd ?_ ?_
      | refine only_ite_fst ?_ ?_
      | refine runCmd_only (hL := ?_) (h_effect := fun u hu => ?_) (ho := ?_)
      | refine fumDumpCmd_only (hL := ?_) (ho := ?_)
    | split
    | dsimp only

theorem eventUp_only {s : State} {b : List Byte} (hL : names L [.mbox] = true) 
    (ho : s0.onlyChanges s L) : s0.onlyChanges (State.eventUp s b) L := by
  unfold State.eventUp
  try dsimp only
  repeat' first
    | with_reducible assumption
    | (refine names_trans hL ?_
       try simp only [keyTypes, Nat.reduceMod]
       decide)
    | with_reducible first
      | refine names_cons ?_ ?_
      | refine only_ite ?_ ?_
      | refine only_ite_snd ?_ ?_
      | refine only_ite_fst ?_ ?_
      | refine sendTyp_only (hL := ?_) (ho := ?_)
    | split
    | dsimp only

theorem placeRecord_only {s : State} {b : List Byte} (hL : names L [.hdr 0x58, .recs, .log] = true) 
    (ho : s0.onlyChanges s L) : s0.onlyChanges (State.placeRecord s b) L := by
  unfold State.placeRecord
  try dsimp only
  repeat' first
    | with_reducible assumption
    | (refine names_trans hL ?_
       try simp only [keyTypes, Nat.reduceMod]
       decide)
    | with_reducible first
      | refine names_cons ?_ ?_
      | refine only_ite ?_ ?_
      | refine only_ite_snd ?_ ?_
      | refine only_ite_fst ?_ ?_
      | refine dropRec_only (hL := ?_) (ho := ?_)
      | refine setErr_only (hL := ?_) (ho := ?_)
    | split
    | (with_reducible refine modFum_only (z := [.recs, .log]) ?_ ?_ ?_ ?_ ?_ ?_ ?_ ?_ ?_ ?_
       · refine names_trans hL ?_
         first | decide | (refine names_of_subset ?_; simp; done)
       iterate 8 · first | with_reducible rfl | (intro _; with_reducible rfl) | exact fun h => not_free h rfl | (intro _; dsimp only; split <;> rfl) | exact rfl | exact fun _ => rfl)
    | dsimp only

theorem writeOwn_only {s : State} {code sev : Nat} {schema : Byte} {body : List Byte} (hL : names L [.recs, .mbox, .hdr 0x58, .log] = true) 
    (ho : s0.onlyChanges s L) : s0.onlyChanges (State.writeOwn s code sev schema body) L := by
  unfold State.writeOwn
  try dsimp only
  repeat' first
    | with_reducible assumption
    | (refine names_trans hL ?_
       try simp only [keyTypes, Nat.reduceMod]
       decide)
    | with_reducible first
      | refine names_cons ?_ ?_
      | refine only_ite ?_ ?_
      | refine only_ite_snd ?_ ?_
      | refine only_ite_fst ?_ ?_
      | refine eventUp_only (hL := ?_) (ho := ?_)
      | refine placeRecord_only (hL := ?_) (ho := ?_)
    | split
    | (with_reducible refine modFum_only (z := [.recs, .log]) ?_ ?_ ?_ ?_ ?_ ?_ ?_ ?_ ?_ ?_
       · refine names_trans hL ?_
         first | decide | (refine names_of_subset ?_; simp; done)
       iterate 8 · first | with_reducible rfl | (intro _; with_reducible rfl) | exact fun h => not_free h rfl | (intro _; dsimp only; split <;> rfl) | exact rfl | exact fun _ => rfl)
    | dsimp only

theorem slotsFreed_only {s : State} (hL : names L [.recs, .mbox, .hdr 0x58, .log] = true) 
    (ho : s0.onlyChanges s L) : s0.onlyChanges (State.slotsFreed s) L := by
  unfold State.slotsFreed
  try dsimp only
  repeat' first
    | with_reducible assumption
    | (refine names_trans hL ?_
       try simp only [keyTypes, Nat.reduceMod]
       decide)
    | with_reducible first
      | refine names_cons ?_ ?_
      | refine only_ite ?_ ?_
      | refine only_ite_snd ?_ ?_
      | refine only_ite_fst ?_ ?_
      | refine writeOwn_only (hL := ?_) (ho := ?_)
    | split
    | (with_reducible refine modFum_only (z := [.recs, .log]) ?_ ?_ ?_ ?_ ?_ ?_ ?_ ?_ ?_ ?_
       · refine names_trans hL ?_
         first | decide | (refine names_of_subset ?_; simp; done)
       iterate 8 · first | with_reducible rfl | (intro _; with_reducible rfl) | exact fun h => not_free h rfl | (intro _; dsimp only; split <;> rfl) | exact rfl | exact fun _ => rfl)
    | dsimp only

theorem fumClearCmd_only {c : CmdIn} {s : State} (hL : names L [.cmds, .log, .recs, .mbox, .hdr 0x58] = true) 
    (ho : s0.onlyChanges s L) : s0.onlyChanges (fumClearCmd c s) L := by
  unfold fumClearCmd
  try dsimp only
  repeat' first
    | with_reducible assumption
    | (refine names_trans hL ?_
       try simp only [keyTypes, Nat.reduceMod]
       decide)
    | with_reducible first
      | refine names_cons ?_ ?_
      | refine only_ite ?_ ?_
      | refine only_ite_snd ?_ ?_
      | refine only_ite_fst ?_ ?_
      | refine badArg_only (hL := ?_) (ho := ?_)
      | refine ok_only (hL := ?_) (ho := ?_)
      | refine slotsFreed_only (hL := ?_) (ho := ?_)
    | split
    | (with_reducible refine modFum_only (z := [.log, .recs]) ?_ ?_ ?_ ?_ ?_ ?_ ?_ ?_ ?_ ?_
       · refine names_trans hL ?_
         first | decide | (refine names_of_subset ?_; simp; done)
       iterate 8 · first | with_reducible rfl | (intro _; with_reducible rfl) | exact fun h => not_free h rfl | (intro _; dsimp only; split <;> rfl) | exact rfl | exact fun _ => rfl)
    | dsimp only

theorem execFumClear_only (c : CmdIn) (s : State) : ∃ st', execFumClear c s = .next st' ∧ s.onlyChanges st' [.out, .xfers, .lines, .inj, .cmds, .power, .bpwr, .word 0x50 0x54, .activity, .host, .tap, .regs 0x08, .hdr 0x08, .log, .recs, .mbox, .hdr 0x58] := by
  refine ⟨_, rfl, only_start fun hL h0 => ?_⟩
  refine settle_only (names_of_subset (by simp)) ?_
  repeat' first
    | with_reducible first
      | exact h0
      | assumption
    | (refine names_trans hL ?_
       try simp only [keyTypes, Nat.reduceMod]
       decide)
    | (refine names_trans hL ?_
       try simp only [keyTypes, Nat.reduceMod]
       refine names_trans (names_of_subset ?_) names_regs_word
       simp
       done)
    | with_reducible first
      | refine names_cons ?_ ?_
      | refine only_ite ?_ ?_
      | refine only_ite_snd ?_ ?_
      | refine only_ite_fst ?_ ?_
      | refine runCmd_only (hL := ?_) (h_effect := fun u hu => ?_) (ho := ?_)
      | refine fumClearCmd_only (hL := ?_) (ho := ?_)
    | split
    | dsimp only

theorem fumWriteCmd_only {c : CmdIn} {s : State} (hL : names L [.cmds, .staged, .recs, .hdr 0x58] = true) 
    (ho : s0.onlyChanges s L) : s0.onlyChanges (fumWriteCmd c s) L := by
  unfold fumWriteCmd
  try dsimp only
  repeat' first
    | with_reducible assumption
    | (refine names_trans hL ?_
       try simp only [keyTypes, Nat.reduceMod]
       decide)
    | with_reducible first
      | refine names_cons ?_ ?_
      | refine only_ite ?_ ?_
      | refine only_ite_snd ?_ ?_
      | refine only_ite_fst ?_ ?_
      | refine failCmd_only (hL := ?_) (ho := ?_)
      | refine ok_only (hL := ?_) (ho := ?_)
      | refine logRec_only (hL := ?_) (ho := ?_)
    | split
    | dsimp only

theorem execFumWrite_only (c : CmdIn) (s : State) : ∃ st', execFumWrite c s = .next st' ∧ s.onlyChanges st' [.out, .xfers, .lines, .inj, .cmds, .power, .bpwr, .word 0x50 0x54, .activity, .host, .tap, .regs 0x08, .hdr 0x08, .staged, .recs, .hdr 0x58] := by
  refine ⟨_, rfl, only_start fun hL h0 => ?_⟩
  refine settle_only (names_of_subset (by simp)) ?_
  repeat' first
    | with_reducible first
      | exact h0
      | assumption
    | (refine names_trans hL ?_
       try simp only [keyTypes, Nat.reduceMod]
       decide)
    | (refine names_trans hL ?_
       try simp only [keyTypes, Nat.reduceMod]
       refine names_trans (names_of_subset ?_) names_regs_word
       simp
       done)
    | with_reducible first
      | refine names_cons ?_ ?_
      | refine only_ite ?_ ?_
      | refine only_ite_snd ?_ ?_
      | refine only_ite_fst ?_ ?_
      | refine runCmd_only (hL := ?_) (h_effect := fun u hu => ?_) (ho := ?_)
      | refine fumWriteCmd_only (hL := ?_) (ho := ?_)
    | split
    | dsimp only

theorem logCapture_only {s : State} {n : BitVec 32} (hL : names L [.log, .hdr 0x58] = true) 
    (ho : s0.onlyChanges s L) : s0.onlyChanges (State.logCapture s n) L := by
  unfold State.logCapture
  try dsimp only
  repeat' first
    | with_reducible assumption
    | (refine names_trans hL ?_
       try simp only [keyTypes, Nat.reduceMod]
       decide)
    | with_reducible first
      | refine names_cons ?_ ?_
      | refine only_ite ?_ ?_
      | refine only_ite_snd ?_ ?_
      | refine only_ite_fst ?_ ?_
      | refine setErr_only (hL := ?_) (ho := ?_)
    | split
    | (with_reducible refine modFum_only (z := [.log]) ?_ ?_ ?_ ?_ ?_ ?_ ?_ ?_ ?_ ?_
       · refine names_trans hL ?_
         first | decide | (refine names_of_subset ?_; simp; done)
       iterate 8 · first | with_reducible rfl | (intro _; with_reducible rfl) | exact fun h => not_free h rfl | (intro _; dsimp only; split <;> rfl) | exact rfl | exact fun _ => rfl)
    | dsimp only

theorem freeRecord_only {s : State} {n : BitVec 32} (hL : names L [.recs, .mbox, .hdr 0x58, .log] = true) 
    (ho : s0.onlyChanges s L) : s0.onlyChanges (State.freeRecord s n) L := by
  unfold State.freeRecord
  try dsimp only
  repeat' first
    | with_reducible assumption
    | (refine names_trans hL ?_
       try simp only [keyTypes, Nat.reduceMod]
       decide)
    | with_reducible first
      | refine names_cons ?_ ?_
      | refine only_ite ?_ ?_
      | refine only_ite_snd ?_ ?_
      | refine only_ite_fst ?_ ?_
      | refine slotsFreed_only (hL := ?_) (ho := ?_)
    | split
    | (with_reducible refine modFum_only (z := [.recs, .log]) ?_ ?_ ?_ ?_ ?_ ?_ ?_ ?_ ?_ ?_
       · refine names_trans hL ?_
         first | decide | (refine names_of_subset ?_; simp; done)
       iterate 8 · first | with_reducible rfl | (intro _; with_reducible rfl) | exact fun h => not_free h rfl | (intro _; dsimp only; split <;> rfl) | exact rfl | exact fun _ => rfl)
    | dsimp only

theorem dropDump_only {s : State} {pkg : Bool} {page : Nat} (hL : names L [.plans, .hdr 0x58] = true) 
    (ho : s0.onlyChanges s L) : s0.onlyChanges (State.dropDump s pkg page) L := by
  unfold State.dropDump
  try dsimp only
  repeat' first
    | with_reducible assumption
    | (refine names_trans hL ?_
       try simp only [keyTypes, Nat.reduceMod]
       decide)
    | with_reducible first
      | refine names_cons ?_ ?_
      | refine only_ite ?_ ?_
      | refine only_ite_snd ?_ ?_
      | refine only_ite_fst ?_ ?_
      | refine setStat_only (hL := ?_) (ho := ?_)
    | split
    | (with_reducible refine modFum_only (z := [.plans]) ?_ ?_ ?_ ?_ ?_ ?_ ?_ ?_ ?_ ?_
       · refine names_trans hL ?_
         first | decide | (refine names_of_subset ?_; simp; done)
       iterate 8 · first | with_reducible rfl | (intro _; with_reducible rfl) | exact fun h => not_free h rfl | (intro _; dsimp only; split <;> rfl) | exact rfl | exact fun _ => rfl)
    | dsimp only

theorem dumpLoaded_only {s : State} {pkg : Bool} {page : Nat} {failed : Bool} (hL : names L [.log, .cmds, .plans, .hdr 0x58, .out, .xfers, .recs, .mbox, .word 0x08 0x110, .word 0x08 0x10C, .word 0x08 0x108, .word 0x08 0x104, .word 0x08 0x100] = true) 
    (ho : s0.onlyChanges s L) : s0.onlyChanges (State.dumpLoaded s pkg page failed) L := by
  unfold State.dumpLoaded
  try dsimp only
  repeat' first
    | with_reducible assumption
    | (refine names_trans hL ?_
       try simp only [keyTypes, Nat.reduceMod]
       decide)
    | with_reducible first
      | refine names_cons ?_ ?_
      | refine only_ite ?_ ?_
      | refine only_ite_snd ?_ ?_
      | refine only_ite_fst ?_ ?_
      | refine markCopy_only (hL := ?_) (ho := ?_)
      | refine complete_only (hL := ?_) (ho := ?_)
      | refine dropDump_only (hL := ?_) (ho := ?_)
      | refine dumpNext_only (hL := ?_) (ho := ?_)
      | refine freeRecord_only (hL := ?_) (ho := ?_)
      | refine setRes_only (hL := ?_) (ho := ?_)
    | split
    | dsimp only

theorem uncorrectable_only {s : State} {u : ArrayUse} {syn : Byte} {holds : WordHolds} (hL : names L [.errs, .staged, .recs, .allHdrs, .host, .out, .tap, .cmds, .mbox, .rotOrders, .log, .engines] = true) 
    (ho : s0.onlyChanges s L) : s0.onlyChanges (State.uncorrectable s u syn holds) L := by
  unfold State.uncorrectable
  try dsimp only
  repeat' first
    | with_reducible assumption
    | (refine names_trans hL ?_
       try simp only [keyTypes, Nat.reduceMod]
       decide)
    | (refine names_trans hL ?_
       refine names_trans (names_of_subset ?_) names_all_hdr
       simp
       done)
    | with_reducible first
      | refine names_cons ?_ ?_
      | refine only_ite ?_ ?_
      | refine only_ite_snd ?_ ?_
      | refine only_ite_fst ?_ ?_
      | refine logPlain_only (hL := ?_) (ho := ?_)
      | refine setErr_only (hL := ?_) (ho := ?_)
      | refine respond_only (hL := ?_) (ho := ?_)
      | refine complete_only (hL := ?_) (ho := ?_)
      | refine rotOrder_only (hL := ?_) (ho := ?_)
      | refine freeRecord_only (hL := ?_) (ho := ?_)
      | refine treeDisable_only (hL := ?_) (ho := ?_)
    | split
    | (with_reducible refine modFum_only (z := [.errs, .recs, .log]) ?_ ?_ ?_ ?_ ?_ ?_ ?_ ?_ ?_ ?_
       · refine names_trans hL ?_
         first | decide | (refine names_of_subset ?_; simp; done)
       iterate 8 · first | with_reducible rfl | (intro _; with_reducible rfl) | exact fun h => not_free h rfl | (intro _; dsimp only; split <;> rfl) | exact rfl | exact fun _ => rfl)
    | dsimp only

theorem flipped_only {s : State} {page : Nat} {stored : BitVec 72} (hL : names L [.inj] = true) 
    (ho : s0.onlyChanges s L) : s0.onlyChanges (State.flipped s page stored).2 L := by
  unfold State.flipped
  try dsimp only
  repeat' first
    | with_reducible assumption
    | (refine names_trans hL ?_
       try simp only [keyTypes, Nat.reduceMod]
       decide)
    | with_reducible first
      | refine names_cons ?_ ?_
      | refine only_ite ?_ ?_
      | refine only_ite_snd ?_ ?_
      | refine only_ite_fst ?_ ?_
    | split
    | (with_reducible refine modFum_only (z := [.inj]) ?_ ?_ ?_ ?_ ?_ ?_ ?_ ?_ ?_ ?_
       · refine names_trans hL ?_
         first | decide | (refine names_of_subset ?_; simp; done)
       iterate 8 · first | with_reducible rfl | (intro _; with_reducible rfl) | exact fun h => not_free h rfl | (intro _; dsimp only; split <;> rfl) | exact rfl | exact fun _ => rfl)
    | dsimp only

theorem execLogWrite_only (s : State) : ∃ st', execLogWrite s = .next st' ∧ s.onlyChanges st' [.out, .xfers, .lines, .inj, .word 0x02 0x58, .recs, .hdr 0x58, .free, .mbox, .log] := by
  refine ⟨_, rfl, only_start fun hL h0 => ?_⟩
  refine settle_only (names_of_subset (by simp)) ?_
  repeat' first
    | with_reducible first
      | exact h0
      | assumption
    | (refine names_trans hL ?_
       try simp only [keyTypes, Nat.reduceMod]
       decide)
    | with_reducible first
      | refine names_cons ?_ ?_
      | refine only_ite ?_ ?_
      | refine only_ite_snd ?_ ?_
      | refine only_ite_fst ?_ ?_
      | refine bump_only (hL := ?_) (ho := ?_)
      | refine injTake_only (hL := ?_) (ho := ?_)
      | refine draw_only (hL := ?_) (ho := ?_)
      | refine eventUp_only (hL := ?_) (ho := ?_)
      | refine placeRecord_only (hL := ?_) (ho := ?_)
    | split
    | (with_reducible refine modFum_only (z := [.inj, .recs, .log]) ?_ ?_ ?_ ?_ ?_ ?_ ?_ ?_ ?_ ?_
       · refine names_trans hL ?_
         first | decide | (refine names_of_subset ?_; simp; done)
       iterate 8 · first | with_reducible rfl | (intro _; with_reducible rfl) | exact fun h => not_free h rfl | (intro _; dsimp only; split <;> rfl) | exact rfl | exact fun _ => rfl)
    | dsimp only

theorem execEvent_only (bytes : List Byte) (s : State) : ∃ st', execEvent bytes s = .next st' ∧ s.onlyChanges st' [.out, .xfers, .lines, .inj, .hdr 0x58, .recs, .log, .mbox] := by
  refine ⟨_, rfl, only_start fun hL h0 => ?_⟩
  refine settle_only (names_of_subset (by simp)) ?_
  repeat' first
    | with_reducible first
      | exact h0
      | assumption
    | (refine names_trans hL ?_
       try simp only [keyTypes, Nat.reduceMod]
       decide)
    | with_reducible first
      | refine names_cons ?_ ?_
      | refine only_ite ?_ ?_
      | refine only_ite_snd ?_ ?_
      | refine only_ite_fst ?_ ?_
      | refine placeRecord_only (hL := ?_) (ho := ?_)
      | refine eventUp_only (hL := ?_) (ho := ?_)
    | split
    | dsimp only

theorem execPatrolRead_only (u : ArrayUse) (stored : BitVec 72) (valid : BitVec 2) (holds : WordHolds) (s : State) : ∃ st', execPatrolRead u stored valid holds s = .next st' ∧ s.onlyChanges st' [.inj, .errs, .out, .xfers, .lines, .allHdrs, .staged, .recs, .host, .tap, .cmds, .mbox, .rotOrders, .log, .engines] := by
  refine ⟨_, rfl, only_start fun hL h0 => ?_⟩
  refine settle_only (names_of_subset (by simp)) ?_
  repeat' first
    | with_reducible first
      | exact h0
      | assumption
    | (refine names_trans hL ?_
       try simp only [keyTypes, Nat.reduceMod]
       decide)
    | (refine names_trans hL ?_
       refine names_trans (names_of_subset ?_) names_all_hdr
       simp
       done)
    | with_reducible first
      | refine names_cons ?_ ?_
      | refine only_ite ?_ ?_
      | refine only_ite_snd ?_ ?_
      | refine only_ite_fst ?_ ?_
      | refine flipped_only (hL := ?_) (ho := ?_)
      | refine setErr_only (hL := ?_) (ho := ?_)
      | refine logPlain_only (hL := ?_) (ho := ?_)
      | refine uncorrectable_only (hL := ?_) (ho := ?_)
    | split
    | (with_reducible refine modFum_only (z := [.inj, .errs, .recs, .log]) ?_ ?_ ?_ ?_ ?_ ?_ ?_ ?_ ?_ ?_
       · refine names_trans hL ?_
         first | decide | (refine names_of_subset ?_; simp; done)
       iterate 8 · first | with_reducible rfl | (intro _; with_reducible rfl) | exact fun h => not_free h rfl | (intro _; dsimp only; split <;> rfl) | exact rfl | exact fun _ => rfl)
    | dsimp only

theorem execArrayAccessTimeout_only (u : ArrayUse) (second : Bool) (holds : WordHolds) (s : State) : ∃ st', execArrayAccessTimeout u second holds s = .next st' ∧ s.onlyChanges st' [.out, .xfers, .lines, .inj, .errs, .staged, .recs, .allHdrs, .host, .tap, .cmds, .mbox, .rotOrders, .log, .engines, .free] := by
  refine ⟨_, rfl, only_start fun hL h0 => ?_⟩
  refine settle_only (names_of_subset (by simp)) ?_
  repeat' first
    | with_reducible first
      | exact h0
      | assumption
    | (refine names_trans hL ?_
       try simp only [keyTypes, Nat.reduceMod]
       decide)
    | (refine names_trans hL ?_
       refine names_trans (names_of_subset ?_) names_all_hdr
       simp
       done)
    | with_reducible first
      | refine names_cons ?_ ?_
      | refine only_ite ?_ ?_
      | refine only_ite_snd ?_ ?_
      | refine only_ite_fst ?_ ?_
      | refine uncorrectable_only (hL := ?_) (ho := ?_)
      | refine draw_only (hL := ?_) (ho := ?_)
    | split
    | dsimp only

/-! Mirror -/

theorem answerPulls_only {s : State} (hL : names L [.mbox, .replicas] = true) 
    (ho : s0.onlyChanges s L) : s0.onlyChanges (State.answerPulls s) L := by
  unfold State.answerPulls
  try dsimp only
  repeat' first
    | with_reducible assumption
    | (refine names_trans hL ?_
       try simp only [keyTypes, Nat.reduceMod]
       decide)
    | with_reducible first
      | refine names_cons ?_ ?_
      | refine only_ite ?_ ?_
      | refine only_ite_snd ?_ ?_
      | refine only_ite_fst ?_ ?_
      | refine sendTyp_only (hL := ?_) (ho := ?_)
      | refine only_foldl (fun u x hu => ?_) ?_
      | refine only_foldl_snd (fun u x hu => ?_) ?_
      | refine only_foldl_fst (fun u x hu => ?_) ?_
    | split
    | (with_reducible refine modFum_only (z := [.replicas]) ?_ ?_ ?_ ?_ ?_ ?_ ?_ ?_ ?_ ?_
       · refine names_trans hL ?_
         first | decide | (refine names_of_subset ?_; simp; done)
       iterate 8 · first | with_reducible rfl | (intro _; with_reducible rfl) | exact fun h => not_free h rfl | (intro _; dsimp only; split <;> rfl) | exact rfl | exact fun _ => rfl)
    | dsimp only

theorem peerCheck_only {s : State} (hL : names L [.mirror] = true) 
    (ho : s0.onlyChanges s L) : s0.onlyChanges (State.peerCheck s) L := by
  unfold State.peerCheck
  try dsimp only
  repeat' first
    | with_reducible assumption
    | (refine names_trans hL ?_
       try simp only [keyTypes, Nat.reduceMod]
       decide)
    | with_reducible first
      | refine names_cons ?_ ?_
      | refine only_ite ?_ ?_
      | refine only_ite_snd ?_ ?_
      | refine only_ite_fst ?_ ?_
    | split
    | (with_reducible refine modFum_only (z := [.mirror]) ?_ ?_ ?_ ?_ ?_ ?_ ?_ ?_ ?_ ?_
       · refine names_trans hL ?_
         first | decide | (refine names_of_subset ?_; simp; done)
       iterate 8 · first | with_reducible rfl | (intro _; with_reducible rfl) | exact fun h => not_free h rfl | (intro _; dsimp only; split <;> rfl) | exact rfl | exact fun _ => rfl)
    | dsimp only

theorem dropPull_only {s : State} {p : Pull} (hL : names L [.plans] = true) 
    (ho : s0.onlyChanges s L) : s0.onlyChanges (State.dropPull s p) L := by
  unfold State.dropPull
  try dsimp only
  repeat' first
    | with_reducible assumption
    | (refine names_trans hL ?_
       try simp only [keyTypes, Nat.reduceMod]
       decide)
    | with_reducible first
      | refine names_cons ?_ ?_
      | refine only_ite ?_ ?_
      | refine only_ite_snd ?_ ?_
      | refine only_ite_fst ?_ ?_
    | split
    | (with_reducible refine modFum_only (z := [.plans]) ?_ ?_ ?_ ?_ ?_ ?_ ?_ ?_ ?_ ?_
       · refine names_trans hL ?_
         first | decide | (refine names_of_subset ?_; simp; done)
       iterate 8 · first | with_reducible rfl | (intro _; with_reducible rfl) | exact fun h => not_free h rfl | (intro _; dsimp only; split <;> rfl) | exact rfl | exact fun _ => rfl)
    | dsimp only

theorem mirrorLost_only {s : State} (hL : names L [.staged, .recs, .hdr 0x58, .cmds, .plans, .mirror] = true) 
    (ho : s0.onlyChanges s L) : s0.onlyChanges (State.mirrorLost s) L := by
  unfold State.mirrorLost
  try dsimp only
  repeat' first
    | with_reducible assumption
    | (refine names_trans hL ?_
       try simp only [keyTypes, Nat.reduceMod]
       decide)
    | with_reducible first
      | refine names_cons ?_ ?_
      | refine only_ite ?_ ?_
      | refine only_ite_snd ?_ ?_
      | refine only_ite_fst ?_ ?_
      | refine logPlain_only (hL := ?_) (ho := ?_)
      | refine setErr_only (hL := ?_) (ho := ?_)
      | refine complete_only (hL := ?_) (ho := ?_)
      | refine dropPull_only (hL := ?_) (ho := ?_)
      | refine peerCheck_only (hL := ?_) (ho := ?_)
      | refine only_foldl (fun u x hu => ?_) ?_
      | refine only_foldl_snd (fun u x hu => ?_) ?_
      | refine only_foldl_fst (fun u x hu => ?_) ?_
    | split
    | (with_reducible refine modFum_only (z := [.recs, .plans, .mirror]) ?_ ?_ ?_ ?_ ?_ ?_ ?_ ?_ ?_ ?_
       · refine names_trans hL ?_
         first | decide | (refine names_of_subset ?_; simp; done)
       iterate 8 · first | with_reducible rfl | (intro _; with_reducible rfl) | exact fun h => not_free h rfl | (intro _; dsimp only; split <;> rfl) | exact rfl | exact fun _ => rfl)
    | dsimp only

theorem installSlot_only {s : State} {x : SlotState} (hL : names L [.redNodes] = true) 
    (ho : s0.onlyChanges s L) : s0.onlyChanges (State.installSlot s x) L := by
  unfold State.installSlot
  try dsimp only
  repeat' first
    | with_reducible assumption
    | (refine names_trans hL ?_
       try simp only [keyTypes, Nat.reduceMod]
       decide)
    | with_reducible first
      | refine names_cons ?_ ?_
      | refine only_ite ?_ ?_
      | refine only_ite_snd ?_ ?_
      | refine only_ite_fst ?_ ?_
      | refine modRed_only (hL := ?_) (ho := ?_)
      | refine setWin_only (hL := ?_) (ho := ?_)
    | split
    | dsimp only

theorem staleSlots_only {s : State} {l : List SlotState} (hL : names L [.redNodes] = true) 
    (ho : s0.onlyChanges s L) : s0.onlyChanges (State.staleSlots s l).2 L := by
  unfold State.staleSlots
  try dsimp only
  repeat' first
    | with_reducible assumption
    | (refine names_trans hL ?_
       try simp only [keyTypes, Nat.reduceMod]
       decide)
    | with_reducible first
      | refine names_cons ?_ ?_
      | refine only_ite ?_ ?_
      | refine only_ite_snd ?_ ?_
      | refine only_ite_fst ?_ ?_
      | refine setWin_only (hL := ?_) (ho := ?_)
      | refine only_foldl (fun u x hu => ?_) ?_
      | refine only_foldl_snd (fun u x hu => ?_) ?_
      | refine only_foldl_fst (fun u x hu => ?_) ?_
    | split
    | dsimp only

theorem install_only {s : State} {x : MirrorItem} (hL : names L [.probes, .clusters, .redNodes, .clock, .watch, .jobs, .spares, .plans] = true)
    (ho : s0.onlyChanges s L) : s0.onlyChanges (s.install x).2 L := by
  cases x <;> unfold State.install <;> try dsimp only
  all_goals
    try dsimp only
    repeat' first
      | with_reducible assumption
      | (refine names_trans hL ?_
         try simp only [keyTypes, Nat.reduceMod]
         decide)
      | with_reducible first
        | refine names_cons ?_ ?_
        | refine only_ite ?_ ?_
        | refine only_ite_snd ?_ ?_
        | refine only_ite_fst ?_ ?_
        | refine modProbe_only (hL := ?_) (ho := ?_)
        | refine setProbe_only (hL := ?_) (ho := ?_)
        | refine modCluster_only (hL := ?_) (ho := ?_)
        | refine staleSlots_only (hL := ?_) (ho := ?_)
        | refine installSlot_only (hL := ?_) (ho := ?_)
        | refine modRed_only (hL := ?_) (ho := ?_)
        | refine only_foldl (fun u x hu => ?_) ?_
        | refine only_foldl_snd (fun u x hu => ?_) ?_
        | refine only_foldl_fst (fun u x hu => ?_) ?_
      | split
      | (with_reducible refine modFum_only (z := [.plans]) ?_ ?_ ?_ ?_ ?_ ?_ ?_ ?_ ?_ ?_
         · refine names_trans hL ?_
           first | decide | (refine names_of_subset ?_; simp; done)
         iterate 8 · first | with_reducible rfl | (intro _; with_reducible rfl) | exact fun h => not_free h rfl | (intro _; dsimp only; split <;> rfl) | exact rfl | exact fun _ => rfl)
      | (with_reducible refine only_time (z := [.clock]) ?_ ?_ ?_ ?_ ?_ ?_ ?_
         · refine names_trans hL ?_
           first | decide | (refine names_of_subset ?_; simp; done)
         iterate 5 · first | with_reducible rfl | (intro _; with_reducible rfl) | exact fun h => not_free h rfl | (intro _; dsimp only; split <;> rfl) | exact rfl | exact fun _ => rfl)
      | (with_reducible refine only_svc (z := [.watch, .jobs]) ?_ ?_ ?_ ?_ ?_ ?_ ?_
         · refine names_trans hL ?_
           first | decide | (refine names_of_subset ?_; simp; done)
         iterate 5 · first | with_reducible rfl | (intro _; with_reducible rfl) | exact fun h => not_free h rfl | (intro _; dsimp only; split <;> rfl) | exact rfl | exact fun _ => rfl)
      | (with_reducible refine only_check (z := [.spares]) ?_ ?_ ?_ ?_ ?_ ?_ ?_ ?_ ?_
         · refine names_trans hL ?_
           first | decide | (refine names_of_subset ?_; simp; done)
         iterate 7 · first | with_reducible rfl | (intro _; with_reducible rfl) | exact fun h => not_free h rfl | (intro _; dsimp only; split <;> rfl) | exact rfl | exact fun _ => rfl)
      | (with_reducible refine only_mk (z := [.probes, .clusters, .redNodes, .clock, .watch, .jobs, .spares, .plans]) hL ?_ ?_
         · intro p hp
           cases p <;> first | (dsimp only [Part.same]; done) | (dsimp only [Part.same, State.reg, State.hdr]; intro _ _; with_reducible rfl) | exact not_free (free_of_outside hp) (by decide) | exact not_free (free_of_outside hp) rfl | exact trivial | (dsimp only [Part.same]; split <;> rfl))
      | dsimp only

theorem mirrorSend_only {s : State} {item gen : Nat} {frames : List (List Byte)} (hL : names L [.mbox, .mirror] = true) 
    (ho : s0.onlyChanges s L) : s0.onlyChanges (State.mirrorSend s item gen frames) L := by
  unfold State.mirrorSend
  try dsimp only
  repeat' first
    | with_reducible assumption
    | (refine names_trans hL ?_
       try simp only [keyTypes, Nat.reduceMod]
       decide)
    | with_reducible first
      | refine names_cons ?_ ?_
      | refine only_ite ?_ ?_
      | refine only_ite_snd ?_ ?_
      | refine only_ite_fst ?_ ?_
      | refine sendTyp_only (hL := ?_) (ho := ?_)
      | refine only_foldl (fun u x hu => ?_) ?_
      | refine only_foldl_snd (fun u x hu => ?_) ?_
      | refine only_foldl_fst (fun u x hu => ?_) ?_
    | split
    | (with_reducible refine modFum_only (z := [.mirror]) ?_ ?_ ?_ ?_ ?_ ?_ ?_ ?_ ?_ ?_
       · refine names_trans hL ?_
         first | decide | (refine names_of_subset ?_; simp; done)
       iterate 8 · first | with_reducible rfl | (intro _; with_reducible rfl) | exact fun h => not_free h rfl | (intro _; dsimp only; split <;> rfl) | exact rfl | exact fun _ => rfl)
    | dsimp only

theorem statePullCmd_only {c : CmdIn} {s : State} (hL : names L [.cmds, .plans, .mbox, .mirror] = true) 
    (ho : s0.onlyChanges s L) : s0.onlyChanges (statePullCmd c s) L := by
  unfold statePullCmd
  try dsimp only
  repeat' first
    | with_reducible assumption
    | (refine names_trans hL ?_
       try simp only [keyTypes, Nat.reduceMod]
       decide)
    | with_reducible first
      | refine names_cons ?_ ?_
      | refine only_ite ?_ ?_
      | refine only_ite_snd ?_ ?_
      | refine only_ite_fst ?_ ?_
      | refine failCmd_only (hL := ?_) (ho := ?_)
      | refine ok_only (hL := ?_) (ho := ?_)
      | refine waitFor_only (hL := ?_) (ho := ?_)
      | refine mirrorSend_only (hL := ?_) (ho := ?_)
    | split
    | (with_reducible refine modFum_only (z := [.plans, .mirror]) ?_ ?_ ?_ ?_ ?_ ?_ ?_ ?_ ?_ ?_
       · refine names_trans hL ?_
         first | decide | (refine names_of_subset ?_; simp; done)
       iterate 8 · first | with_reducible rfl | (intro _; with_reducible rfl) | exact fun h => not_free h rfl | (intro _; dsimp only; split <;> rfl) | exact rfl | exact fun _ => rfl)
    | dsimp only

theorem execStatePull_only (c : CmdIn) (s : State) : ∃ st', execStatePull c s = .next st' ∧ s.onlyChanges st' [.out, .xfers, .lines, .inj, .cmds, .power, .bpwr, .word 0x50 0x54, .activity, .host, .tap, .regs 0x08, .hdr 0x08, .plans, .mbox, .mirror] := by
  refine ⟨_, rfl, only_start fun hL h0 => ?_⟩
  refine settle_only (names_of_subset (by simp)) ?_
  repeat' first
    | with_reducible first
      | exact h0
      | assumption
    | (refine names_trans hL ?_
       try simp only [keyTypes, Nat.reduceMod]
       decide)
    | (refine names_trans hL ?_
       try simp only [keyTypes, Nat.reduceMod]
       refine names_trans (names_of_subset ?_) names_regs_word
       simp
       done)
    | with_reducible first
      | refine names_cons ?_ ?_
      | refine only_ite ?_ ?_
      | refine only_ite_snd ?_ ?_
      | refine only_ite_fst ?_ ?_
      | refine runCmd_only (hL := ?_) (h_effect := fun u hu => ?_) (ho := ?_)
      | refine statePullCmd_only (hL := ?_) (ho := ?_)
    | split
    | dsimp only

theorem mirrorTake_only {s : State} {src : BitVec 16} {bytes : List Byte} (hL : names L [.replicas, .mbox] = true) 
    (ho : s0.onlyChanges s L) : s0.onlyChanges (State.mirrorTake s src bytes).2 L := by
  unfold State.mirrorTake
  try dsimp only
  repeat' first
    | with_reducible assumption
    | (refine names_trans hL ?_
       try simp only [keyTypes, Nat.reduceMod]
       decide)
    | with_reducible first
      | refine names_cons ?_ ?_
      | refine only_ite ?_ ?_
      | refine only_ite_snd ?_ ?_
      | refine only_ite_fst ?_ ?_
      | refine sendTyp_only (hL := ?_) (ho := ?_)
    | split
    | (with_reducible refine modFum_only (z := [.replicas]) ?_ ?_ ?_ ?_ ?_ ?_ ?_ ?_ ?_ ?_
       · refine names_trans hL ?_
         first | decide | (refine names_of_subset ?_; simp; done)
       iterate 8 · first | with_reducible rfl | (intro _; with_reducible rfl) | exact fun h => not_free h rfl | (intro _; dsimp only; split <;> rfl) | exact rfl | exact fun _ => rfl)
    | dsimp only

theorem pullTake_only {s : State} {item : Nat} {data : List Byte} (hL : names L [.probes, .clusters, .redNodes, .clock, .watch, .jobs, .spares, .plans, .cmds, .word 0x08 0x104] = true) 
    (ho : s0.onlyChanges s L) : s0.onlyChanges (State.pullTake s item data) L := by
  unfold State.pullTake
  try dsimp only
  repeat' first
    | with_reducible assumption
    | (refine names_trans hL ?_
       try simp only [keyTypes, Nat.reduceMod]
       decide)
    | with_reducible first
      | refine names_cons ?_ ?_
      | refine only_ite ?_ ?_
      | refine only_ite_snd ?_ ?_
      | refine only_ite_fst ?_ ?_
      | refine install_only (hL := ?_) (ho := ?_)
      | refine dropPull_only (hL := ?_) (ho := ?_)
      | refine complete_only (hL := ?_) (ho := ?_)
      | refine setRes_only (hL := ?_) (ho := ?_)
      | refine only_foldl (fun u x hu => ?_) ?_
      | refine only_foldl_snd (fun u x hu => ?_) ?_
      | refine only_foldl_fst (fun u x hu => ?_) ?_
    | split
    | (with_reducible refine modFum_only (z := [.plans]) ?_ ?_ ?_ ?_ ?_ ?_ ?_ ?_ ?_ ?_
       · refine names_trans hL ?_
         first | decide | (refine names_of_subset ?_; simp; done)
       iterate 8 · first | with_reducible rfl | (intro _; with_reducible rfl) | exact fun h => not_free h rfl | (intro _; dsimp only; split <;> rfl) | exact rfl | exact fun _ => rfl)
    | dsimp only

theorem mirrorAcked_only {s : State} (hL : names L [.mirror, .redNodes, .mbox] = true) 
    (ho : s0.onlyChanges s L) : s0.onlyChanges (State.mirrorAcked s) L := by
  unfold State.mirrorAcked
  try dsimp only
  repeat' first
    | with_reducible assumption
    | (refine names_trans hL ?_
       try simp only [keyTypes, Nat.reduceMod]
       decide)
    | with_reducible first
      | refine names_cons ?_ ?_
      | refine only_ite ?_ ?_
      | refine only_ite_snd ?_ ?_
      | refine only_ite_fst ?_ ?_
      | refine redAcks_only (hL := ?_) (ho := ?_)
      | refine only_foldl (fun u x hu => ?_) ?_
      | refine only_foldl_snd (fun u x hu => ?_) ?_
      | refine only_foldl_fst (fun u x hu => ?_) ?_
    | split
    | (with_reducible refine modFum_only (z := [.mirror]) ?_ ?_ ?_ ?_ ?_ ?_ ?_ ?_ ?_ ?_
       · refine names_trans hL ?_
         first | decide | (refine names_of_subset ?_; simp; done)
       iterate 8 · first | with_reducible rfl | (intro _; with_reducible rfl) | exact fun h => not_free h rfl | (intro _; dsimp only; split <;> rfl) | exact rfl | exact fun _ => rfl)
    | dsimp only

theorem mirrorTick_only {s : State} (hL : names L [.gens, .mirror] = true) 
    (ho : s0.onlyChanges s L) : s0.onlyChanges (State.mirrorTick s) L := by
  unfold State.mirrorTick
  try dsimp only
  repeat' first
    | with_reducible assumption
    | (refine names_trans hL ?_
       try simp only [keyTypes, Nat.reduceMod]
       decide)
    | with_reducible first
      | refine names_cons ?_ ?_
      | refine only_ite ?_ ?_
      | refine only_ite_snd ?_ ?_
      | refine only_ite_fst ?_ ?_
      | refine touchItem_only (hL := ?_) (ho := ?_)
    | split
    | (with_reducible refine modFum_only (z := [.gens, .mirror]) ?_ ?_ ?_ ?_ ?_ ?_ ?_ ?_ ?_ ?_
       · refine names_trans hL ?_
         first | decide | (refine names_of_subset ?_; simp; done)
       iterate 8 · first | with_reducible rfl | (intro _; with_reducible rfl) | exact fun h => not_free h rfl | (intro _; dsimp only; split <;> rfl) | exact rfl | exact fun _ => rfl)
    | dsimp only

theorem execMirrorUpdate_only (item : Nat) (s : State) : ∃ st', execMirrorUpdate item s = .next st' ∧ s.onlyChanges st' [.out, .xfers, .lines, .inj, .mirror, .mbox] := by
  refine ⟨_, rfl, only_start fun hL h0 => ?_⟩
  refine settle_only (names_of_subset (by simp)) ?_
  repeat' first
    | with_reducible first
      | exact h0
      | assumption
    | (refine names_trans hL ?_
       try simp only [keyTypes, Nat.reduceMod]
       decide)
    | with_reducible first
      | refine names_cons ?_ ?_
      | refine only_ite ?_ ?_
      | refine only_ite_snd ?_ ?_
      | refine only_ite_fst ?_ ?_
      | refine mirrorSend_only (hL := ?_) (ho := ?_)
    | split
    | (with_reducible refine modFum_only (z := [.inj, .mirror]) ?_ ?_ ?_ ?_ ?_ ?_ ?_ ?_ ?_ ?_
       · refine names_trans hL ?_
         first | decide | (refine names_of_subset ?_; simp; done)
       iterate 8 · first | with_reducible rfl | (intro _; with_reducible rfl) | exact fun h => not_free h rfl | (intro _; dsimp only; split <;> rfl) | exact rfl | exact fun _ => rfl)
    | dsimp only

/-! Rot -/

theorem fwStageCmd_only {c : CmdIn} {s : State} (hL : names L [.cmds, .out, .xfers] = true) 
    (ho : s0.onlyChanges s L) : s0.onlyChanges (fwStageCmd c s) L := by
  unfold fwStageCmd
  try dsimp only
  repeat' first
    | with_reducible assumption
    | (refine names_trans hL ?_
       try simp only [keyTypes, Nat.reduceMod]
       decide)
    | with_reducible first
      | refine names_cons ?_ ?_
      | refine only_ite ?_ ?_
      | refine only_ite_snd ?_ ?_
      | refine only_ite_fst ?_ ?_
      | refine failCmd_only (hL := ?_) (ho := ?_)
      | refine cmdXfer_only (hL := ?_) (ho := ?_)
    | split
    | dsimp only

theorem execFwStage_only (c : CmdIn) (s : State) : ∃ st', execFwStage c s = .next st' ∧ s.onlyChanges st' [.out, .xfers, .lines, .inj, .cmds, .power, .bpwr, .word 0x50 0x54, .activity, .host, .tap, .regs 0x08, .hdr 0x08] := by
  refine ⟨_, rfl, only_start fun hL h0 => ?_⟩
  refine settle_only (names_of_subset (by simp)) ?_
  repeat' first
    | with_reducible first
      | exact h0
      | assumption
    | (refine names_trans hL ?_
       try simp only [keyTypes, Nat.reduceMod]
       decide)
    | (refine names_trans hL ?_
       try simp only [keyTypes, Nat.reduceMod]
       refine names_trans (names_of_subset ?_) names_regs_word
       simp
       done)
    | with_reducible first
      | refine names_cons ?_ ?_
      | refine only_ite ?_ ?_
      | refine only_ite_snd ?_ ?_
      | refine only_ite_fst ?_ ?_
      | refine runCmd_only (hL := ?_) (h_effect := fun u hu => ?_) (ho := ?_)
      | refine fwStageCmd_only (hL := ?_) (ho := ?_)
    | split
    | dsimp only

theorem flashWrite_only {s : State} {a : Nat} {b : List Byte} (hL : names L [.out] = true) 
    (ho : s0.onlyChanges s L) : s0.onlyChanges (State.flashWrite s a b) L := by
  unfold State.flashWrite
  try dsimp only
  repeat' first
    | with_reducible assumption
    | (refine names_trans hL ?_
       try simp only [keyTypes, Nat.reduceMod]
       decide)
    | with_reducible first
      | refine names_cons ?_ ?_
      | refine only_ite ?_ ?_
      | refine only_ite_snd ?_ ?_
      | refine only_ite_fst ?_ ?_
      | refine emit_only (hL := ?_) (ho := ?_)
      | refine only_foldl (fun u x hu => ?_) ?_
      | refine only_foldl_snd (fun u x hu => ?_) ?_
      | refine only_foldl_fst (fun u x hu => ?_) ?_
    | split
    | dsimp only

theorem flashErase_only {s : State} {a n : Nat} (hL : names L [.out] = true) 
    (ho : s0.onlyChanges s L) : s0.onlyChanges (State.flashErase s a n) L := by
  unfold State.flashErase
  try dsimp only
  repeat' first
    | with_reducible assumption
    | (refine names_trans hL ?_
       try simp only [keyTypes, Nat.reduceMod]
       decide)
    | with_reducible first
      | refine names_cons ?_ ?_
      | refine only_ite ?_ ?_
      | refine only_ite_snd ?_ ?_
      | refine only_ite_fst ?_ ?_
      | refine emit_only (hL := ?_) (ho := ?_)
      | refine only_foldl (fun u x hu => ?_) ?_
      | refine only_foldl_snd (fun u x hu => ?_) ?_
      | refine only_foldl_fst (fun u x hu => ?_) ?_
    | split
    | dsimp only

theorem writeCounters_only {s : State} {c : Counters} (hL : names L [.out] = true) 
    (ho : s0.onlyChanges s L) : s0.onlyChanges (State.writeCounters s c) L := by
  unfold State.writeCounters
  try dsimp only
  repeat' first
    | with_reducible assumption
    | (refine names_trans hL ?_
       try simp only [keyTypes, Nat.reduceMod]
       decide)
    | with_reducible first
      | refine names_cons ?_ ?_
      | refine only_ite ?_ ?_
      | refine only_ite_snd ?_ ?_
      | refine only_ite_fst ?_ ?_
      | refine flashWrite_only (hL := ?_) (ho := ?_)
      | refine flashErase_only (hL := ?_) (ho := ?_)
    | split
    | dsimp only

theorem fwCommitCmd_only {c : CmdIn} {s : State} (hL : names L [.cmds, .out, .rotState, .firmware] = true) 
    (ho : s0.onlyChanges s L) : s0.onlyChanges (fwCommitCmd c s) L := by
  unfold fwCommitCmd
  try dsimp only
  repeat' first
    | with_reducible assumption
    | (refine names_trans hL ?_
       try simp only [keyTypes, Nat.reduceMod]
       decide)
    | with_reducible first
      | refine names_cons ?_ ?_
      | refine only_ite ?_ ?_
      | refine only_ite_snd ?_ ?_
      | refine only_ite_fst ?_ ?_
      | refine failCmd_only (hL := ?_) (ho := ?_)
      | refine waitFor_only (hL := ?_) (ho := ?_)
      | refine writeCounters_only (hL := ?_) (ho := ?_)
    | split
    | (with_reducible refine modRot_only (z := [.rotState, .firmware]) ?_ ?_ ?_ ?_ ?_ ?_ ?_ ?_ ?_ ?_
       · refine names_trans hL ?_
         first | decide | (refine names_of_subset ?_; simp; done)
       iterate 8 · first | with_reducible rfl | (intro _; with_reducible rfl) | exact fun h => not_free h rfl | (intro _; dsimp only; split <;> rfl) | exact rfl | exact fun _ => rfl)
    | dsimp only

theorem execFwCommit_only (c : CmdIn) (s : State) : ∃ st', execFwCommit c s = .next st' ∧ s.onlyChanges st' [.out, .xfers, .lines, .inj, .cmds, .power, .bpwr, .word 0x50 0x54, .activity, .host, .tap, .regs 0x08, .hdr 0x08, .rotState, .firmware] := by
  refine ⟨_, rfl, only_start fun hL h0 => ?_⟩
  refine settle_only (names_of_subset (by simp)) ?_
  repeat' first
    | with_reducible first
      | exact h0
      | assumption
    | (refine names_trans hL ?_
       try simp only [keyTypes, Nat.reduceMod]
       decide)
    | (refine names_trans hL ?_
       try simp only [keyTypes, Nat.reduceMod]
       refine names_trans (names_of_subset ?_) names_regs_word
       simp
       done)
    | with_reducible first
      | refine names_cons ?_ ?_
      | refine only_ite ?_ ?_
      | refine only_ite_snd ?_ ?_
      | refine only_ite_fst ?_ ?_
      | refine runCmd_only (hL := ?_) (h_effect := fun u hu => ?_) (ho := ?_)
      | refine fwCommitCmd_only (hL := ?_) (ho := ?_)
    | split
    | dsimp only

theorem unstage_only {s : State} {slot : Bool} (hL : names L [.meas, .out, .firmware] = true) 
    (ho : s0.onlyChanges s L) : s0.onlyChanges (State.unstage s slot) L := by
  unfold State.unstage
  try dsimp only
  repeat' first
    | with_reducible assumption
    | (refine names_trans hL ?_
       try simp only [keyTypes, Nat.reduceMod]
       decide)
    | with_reducible first
      | refine names_cons ?_ ?_
      | refine only_ite ?_ ?_
      | refine only_ite_snd ?_ ?_
      | refine only_ite_fst ?_ ?_
      | refine setMeas_only (hL := ?_) (ho := ?_)
      | refine flashErase_only (hL := ?_) (ho := ?_)
    | split
    | (with_reducible refine modRot_only (z := [.meas, .firmware]) ?_ ?_ ?_ ?_ ?_ ?_ ?_ ?_ ?_ ?_
       · refine names_trans hL ?_
         first | decide | (refine names_of_subset ?_; simp; done)
       iterate 8 · first | with_reducible rfl | (intro _; with_reducible rfl) | exact fun h => not_free h rfl | (intro _; dsimp only; split <;> rfl) | exact rfl | exact fun _ => rfl)
    | dsimp only

theorem fwAbortCmd_only {c : CmdIn} {s : State} (hL : names L [.cmds, .meas, .out, .firmware] = true) 
    (ho : s0.onlyChanges s L) : s0.onlyChanges (fwAbortCmd c s) L := by
  unfold fwAbortCmd
  try dsimp only
  repeat' first
    | with_reducible assumption
    | (refine names_trans hL ?_
       try simp only [keyTypes, Nat.reduceMod]
       decide)
    | with_reducible first
      | refine names_cons ?_ ?_
      | refine only_ite ?_ ?_
      | refine only_ite_snd ?_ ?_
      | refine only_ite_fst ?_ ?_
      | refine failCmd_only (hL := ?_) (ho := ?_)
      | refine ok_only (hL := ?_) (ho := ?_)
      | refine unstage_only (hL := ?_) (ho := ?_)
    | split
    | dsimp only

theorem execFwAbort_only (c : CmdIn) (s : State) : ∃ st', execFwAbort c s = .next st' ∧ s.onlyChanges st' [.out, .xfers, .lines, .inj, .cmds, .power, .bpwr, .word 0x50 0x54, .activity, .host, .tap, .regs 0x08, .hdr 0x08, .meas, .firmware] := by
  refine ⟨_, rfl, only_start fun hL h0 => ?_⟩
  refine settle_only (names_of_subset (by simp)) ?_
  repeat' first
    | with_reducible first
      | exact h0
      | assumption
    | (refine names_trans hL ?_
       try simp only [keyTypes, Nat.reduceMod]
       decide)
    | (refine names_trans hL ?_
       try simp only [keyTypes, Nat.reduceMod]
       refine names_trans (names_of_subset ?_) names_regs_word
       simp
       done)
    | with_reducible first
      | refine names_cons ?_ ?_
      | refine only_ite ?_ ?_
      | refine only_ite_snd ?_ ?_
      | refine only_ite_fst ?_ ?_
      | refine runCmd_only (hL := ?_) (h_effect := fun u hu => ?_) (ho := ?_)
      | refine fwAbortCmd_only (hL := ?_) (ho := ?_)
    | split
    | dsimp only

theorem record_only {s : State} {item : Nat} {value : List Byte} (hL : names L [.meas] = true) 
    (ho : s0.onlyChanges s L) : s0.onlyChanges (State.record s item value) L := by
  unfold State.record
  try dsimp only
  repeat' first
    | with_reducible assumption
    | (refine names_trans hL ?_
       try simp only [keyTypes, Nat.reduceMod]
       decide)
    | with_reducible first
      | refine names_cons ?_ ?_
      | refine only_ite ?_ ?_
      | refine only_ite_snd ?_ ?_
      | refine only_ite_fst ?_ ?_
      | refine setMeas_only (hL := ?_) (ho := ?_)
    | split
    | dsimp only

theorem fwStaged_only {s : State} {pkg : Bool} {n : Nat} {data : List Byte} {failed : Bool} (hL : names L [.cmds, .out, .free, .meas, .firmware] = true) 
    (ho : s0.onlyChanges s L) : s0.onlyChanges (State.fwStaged s pkg n data failed) L := by
  unfold State.fwStaged
  try dsimp only
  repeat' first
    | with_reducible assumption
    | (refine names_trans hL ?_
       try simp only [keyTypes, Nat.reduceMod]
       decide)
    | with_reducible first
      | refine names_cons ?_ ?_
      | refine only_ite ?_ ?_
      | refine only_ite_snd ?_ ?_
      | refine only_ite_fst ?_ ?_
      | refine complete_only (hL := ?_) (ho := ?_)
      | refine flashWrite_only (hL := ?_) (ho := ?_)
      | refine flashErase_only (hL := ?_) (ho := ?_)
      | refine draw_only (hL := ?_) (ho := ?_)
      | refine unstage_only (hL := ?_) (ho := ?_)
      | refine record_only (hL := ?_) (ho := ?_)
    | split
    | (with_reducible refine modRot_only (z := [.meas, .firmware]) ?_ ?_ ?_ ?_ ?_ ?_ ?_ ?_ ?_ ?_
       · refine names_trans hL ?_
         first | decide | (refine names_of_subset ?_; simp; done)
       iterate 8 · first | with_reducible rfl | (intro _; with_reducible rfl) | exact fun h => not_free h rfl | (intro _; dsimp only; split <;> rfl) | exact rfl | exact fun _ => rfl)
    | dsimp only

theorem rehashStart_only {s : State} (hL : names L [.meas, .hdr 0x68] = true) 
    (ho : s0.onlyChanges s L) : s0.onlyChanges (State.rehashStart s) L := by
  unfold State.rehashStart
  try dsimp only
  repeat' first
    | with_reducible assumption
    | (refine names_trans hL ?_
       try simp only [keyTypes, Nat.reduceMod]
       decide)
    | with_reducible first
      | refine names_cons ?_ ?_
      | refine only_ite ?_ ?_
      | refine only_ite_snd ?_ ?_
      | refine only_ite_fst ?_ ?_
      | refine setMeas_only (hL := ?_) (ho := ?_)
      | refine setStat_only (hL := ?_) (ho := ?_)
      | refine only_foldl (fun u x hu => ?_) ?_
      | refine only_foldl_snd (fun u x hu => ?_) ?_
      | refine only_foldl_fst (fun u x hu => ?_) ?_
    | split
    | (with_reducible refine modRot_only (z := [.meas]) ?_ ?_ ?_ ?_ ?_ ?_ ?_ ?_ ?_ ?_
       · refine names_trans hL ?_
         first | decide | (refine names_of_subset ?_; simp; done)
       iterate 8 · first | with_reducible rfl | (intro _; with_reducible rfl) | exact fun h => not_free h rfl | (intro _; dsimp only; split <;> rfl) | exact rfl | exact fun _ => rfl)
    | dsimp only

theorem takeCounters_only {s : State} {c : Counters} (hL : names L [.firmware] = true) 
    (ho : s0.onlyChanges s L) : s0.onlyChanges (State.takeCounters s c) L := by
  unfold State.takeCounters
  try dsimp only
  repeat' first
    | with_reducible assumption
    | (refine names_trans hL ?_
       try simp only [keyTypes, Nat.reduceMod]
       decide)
    | with_reducible first
      | refine names_cons ?_ ?_
      | refine only_ite ?_ ?_
      | refine only_ite_snd ?_ ?_
      | refine only_ite_fst ?_ ?_
    | split
    | (with_reducible refine modRot_only (z := [.firmware]) ?_ ?_ ?_ ?_ ?_ ?_ ?_ ?_ ?_ ?_
       · refine names_trans hL ?_
         first | decide | (refine names_of_subset ?_; simp; done)
       iterate 8 · first | with_reducible rfl | (intro _; with_reducible rfl) | exact fun h => not_free h rfl | (intro _; dsimp only; split <;> rfl) | exact rfl | exact fun _ => rfl)
    | dsimp only

theorem recover_only {s : State} {step : Option Nat} (hL : names L [.rotState, .staged, .recs, .hdr 0x58] = true) 
    (ho : s0.onlyChanges s L) : s0.onlyChanges (State.recover s step) L := by
  unfold State.recover
  try dsimp only
  repeat' first
    | with_reducible assumption
    | (refine names_trans hL ?_
       try simp only [keyTypes, Nat.reduceMod]
       decide)
    | with_reducible first
      | refine names_cons ?_ ?_
      | refine only_ite ?_ ?_
      | refine only_ite_snd ?_ ?_
      | refine only_ite_fst ?_ ?_
      | refine log_only (hL := ?_) (ho := ?_)
    | split
    | (with_reducible refine modRot_only (z := [.rotState]) ?_ ?_ ?_ ?_ ?_ ?_ ?_ ?_ ?_ ?_
       · refine names_trans hL ?_
         first | decide | (refine names_of_subset ?_; simp; done)
       iterate 8 · first | with_reducible rfl | (intro _; with_reducible rfl) | exact fun h => not_free h rfl | (intro _; dsimp only; split <;> rfl) | exact rfl | exact fun _ => rfl)
    | dsimp only

theorem bootKeys_only {s : State} {uds : List Byte} (hL : names L [.free, .keys] = true) 
    (ho : s0.onlyChanges s L) : s0.onlyChanges (State.bootKeys s uds) L := by
  unfold State.bootKeys
  try dsimp only
  repeat' first
    | with_reducible assumption
    | (refine names_trans hL ?_
       try simp only [keyTypes, Nat.reduceMod]
       decide)
    | with_reducible first
      | refine names_cons ?_ ?_
      | refine only_ite ?_ ?_
      | refine only_ite_snd ?_ ?_
      | refine only_ite_fst ?_ ?_
      | refine draw_only (hL := ?_) (ho := ?_)
    | split
    | (with_reducible refine modRot_only (z := [.keys]) ?_ ?_ ?_ ?_ ?_ ?_ ?_ ?_ ?_ ?_
       · refine names_trans hL ?_
         first | decide | (refine names_of_subset ?_; simp; done)
       iterate 8 · first | with_reducible rfl | (intro _; with_reducible rfl) | exact fun h => not_free h rfl | (intro _; dsimp only; split <;> rfl) | exact rfl | exact fun _ => rfl)
    | dsimp only

theorem applyPending_only {s : State} (hL : names L [.firmware, .out] = true) 
    (ho : s0.onlyChanges s L) : s0.onlyChanges (State.applyPending s) L := by
  unfold State.applyPending
  try dsimp only
  repeat' first
    | with_reducible assumption
    | (refine names_trans hL ?_
       try simp only [keyTypes, Nat.reduceMod]
       decide)
    | with_reducible first
      | refine names_cons ?_ ?_
      | refine only_ite ?_ ?_
      | refine only_ite_snd ?_ ?_
      | refine only_ite_fst ?_ ?_
      | refine takeCounters_only (hL := ?_) (ho := ?_)
      | refine writeCounters_only (hL := ?_) (ho := ?_)
    | split
    | dsimp only

theorem startFirmware_only {s : State} {img : FwImage} (hL : names L [.free, .rotState, .firmware, .keys, .gens, .meas, .hdr 0x68] = true) 
    (ho : s0.onlyChanges s L) : s0.onlyChanges (State.startFirmware s img) L := by
  unfold State.startFirmware
  try dsimp only
  repeat' first
    | with_reducible assumption
    | (refine names_trans hL ?_
       try simp only [keyTypes, Nat.reduceMod]
       decide)
    | with_reducible first
      | refine names_cons ?_ ?_
      | refine only_ite ?_ ?_
      | refine only_ite_snd ?_ ?_
      | refine only_ite_fst ?_ ?_
      | refine draw_only (hL := ?_) (ho := ?_)
      | refine measure_only (hL := ?_) (ho := ?_)
      | refine setStat_only (hL := ?_) (ho := ?_)
      | refine record_only (hL := ?_) (ho := ?_)
    | split
    | (with_reducible refine modRot_only (z := [.rotState, .firmware, .keys, .meas]) ?_ ?_ ?_ ?_ ?_ ?_ ?_ ?_ ?_ ?_
       · refine names_trans hL ?_
         first | decide | (refine names_of_subset ?_; simp; done)
       iterate 8 · first | with_reducible rfl | (intro _; with_reducible rfl) | exact fun h => not_free h rfl | (intro _; dsimp only; split <;> rfl) | exact rfl | exact fun _ => rfl)
    | dsimp only

theorem romBoot_only {s : State} {b : BootIn} (hL : names L [.rotState, .staged, .recs, .hdr 0x58, .free, .keys, .firmware, .gens, .meas, .hdr 0x68, .out] = true) 
    (ho : s0.onlyChanges s L) : s0.onlyChanges (State.romBoot s b) L := by
  unfold State.romBoot
  try dsimp only
  repeat' first
    | with_reducible assumption
    | (refine names_trans hL ?_
       try simp only [keyTypes, Nat.reduceMod]
       decide)
    | with_reducible first
      | refine names_cons ?_ ?_
      | refine only_ite ?_ ?_
      | refine only_ite_snd ?_ ?_
      | refine only_ite_fst ?_ ?_
      | refine recover_only (hL := ?_) (ho := ?_)
      | refine log_only (hL := ?_) (ho := ?_)
      | refine bootKeys_only (hL := ?_) (ho := ?_)
      | refine startFirmware_only (hL := ?_) (ho := ?_)
      | refine applyPending_only (hL := ?_) (ho := ?_)
      | refine setErr_only (hL := ?_) (ho := ?_)
    | split
    | (with_reducible refine modRot_only (z := [.rotState, .keys, .firmware, .meas]) ?_ ?_ ?_ ?_ ?_ ?_ ?_ ?_ ?_ ?_
       · refine names_trans hL ?_
         first | decide | (refine names_of_subset ?_; simp; done)
       iterate 8 · first | with_reducible rfl | (intro _; with_reducible rfl) | exact fun h => not_free h rfl | (intro _; dsimp only; split <;> rfl) | exact rfl | exact fun _ => rfl)
    | dsimp only

theorem commitEnd_only {s : State} {w : Commit} (hL : names L [.free, .hdr 0x68, .rotState, .firmware, .cmds, .meas, .mbox, .staged, .recs, .hdr 0x58, .rotOrders] = true) 
    (ho : s0.onlyChanges s L) : s0.onlyChanges (State.commitEnd s w) L := by
  unfold State.commitEnd
  try dsimp only
  repeat' first
    | with_reducible assumption
    | (refine names_trans hL ?_
       try simp only [keyTypes, Nat.reduceMod]
       decide)
    | with_reducible first
      | refine names_cons ?_ ?_
      | refine only_ite ?_ ?_
      | refine only_ite_snd ?_ ?_
      | refine only_ite_fst ?_ ?_
      | refine draw_only (hL := ?_) (ho := ?_)
      | refine setErr_only (hL := ?_) (ho := ?_)
      | refine endWait_only (hL := ?_) (ho := ?_)
      | refine takeCounters_only (hL := ?_) (ho := ?_)
      | refine record_only (hL := ?_) (ho := ?_)
      | refine rotOrder_only (hL := ?_) (ho := ?_)
    | split
    | (with_reducible refine modRot_only (z := [.rotState, .firmware, .meas, .rotOrders]) ?_ ?_ ?_ ?_ ?_ ?_ ?_ ?_ ?_ ?_
       · refine names_trans hL ?_
         first | decide | (refine names_of_subset ?_; simp; done)
       iterate 8 · first | with_reducible rfl | (intro _; with_reducible rfl) | exact fun h => not_free h rfl | (intro _; dsimp only; split <;> rfl) | exact rfl | exact fun _ => rfl)
    | dsimp only

theorem commitTick_only {s : State} (hL : names L [.free, .hdr 0x68, .rotState, .firmware, .cmds, .meas, .mbox, .staged, .recs, .hdr 0x58, .rotOrders] = true) 
    (ho : s0.onlyChanges s L) : s0.onlyChanges (State.commitTick s) L := by
  unfold State.commitTick
  try dsimp only
  repeat' first
    | with_reducible assumption
    | (refine names_trans hL ?_
       try simp only [keyTypes, Nat.reduceMod]
       decide)
    | with_reducible first
      | refine names_cons ?_ ?_
      | refine only_ite ?_ ?_
      | refine only_ite_snd ?_ ?_
      | refine only_ite_fst ?_ ?_
      | refine draw_only (hL := ?_) (ho := ?_)
      | refine commitEnd_only (hL := ?_) (ho := ?_)
    | split
    | (with_reducible refine modRot_only (z := [.rotState, .firmware, .meas, .rotOrders]) ?_ ?_ ?_ ?_ ?_ ?_ ?_ ?_ ?_ ?_
       · refine names_trans hL ?_
         first | decide | (refine names_of_subset ?_; simp; done)
       iterate 8 · first | with_reducible rfl | (intro _; with_reducible rfl) | exact fun h => not_free h rfl | (intro _; dsimp only; split <;> rfl) | exact rfl | exact fun _ => rfl)
    | dsimp only

theorem discardCopy_only {s : State} {item : Nat} (hL : names L [.redNodes, .ftab, .engines, .kernels] = true) 
    (ho : s0.onlyChanges s L) : s0.onlyChanges (State.discardCopy s item) L := by
  unfold State.discardCopy
  try dsimp only
  repeat' first
    | with_reducible assumption
    | (refine names_trans hL ?_
       try simp only [keyTypes, Nat.reduceMod]
       decide)
    | with_reducible first
      | refine names_cons ?_ ?_
      | refine only_ite ?_ ?_
      | refine only_ite_snd ?_ ?_
      | refine only_ite_fst ?_ ?_
      | refine modRed_only (hL := ?_) (ho := ?_)
      | refine modFtab_only (hL := ?_) (ho := ?_)
      | refine modEngine_only (hL := ?_) (ho := ?_)
    | split
    | (with_reducible refine only_check (z := [.kernels]) ?_ ?_ ?_ ?_ ?_ ?_ ?_ ?_ ?_
       · refine names_trans hL ?_
         first | decide | (refine names_of_subset ?_; simp; done)
       iterate 7 · first | with_reducible rfl | (intro _; with_reducible rfl) | exact fun h => not_free h rfl | (intro _; dsimp only; split <;> rfl) | exact rfl | exact fun _ => rfl)
    | dsimp only

theorem execMeasureDone_only (s : State) : ∃ st', execMeasureDone s = .next st' ∧ s.onlyChanges st' [.out, .xfers, .lines, .inj, .gens, .meas, .cmds] := by
  refine ⟨_, rfl, only_start fun hL h0 => ?_⟩
  refine settle_only (names_of_subset (by simp)) ?_
  repeat' first
    | with_reducible first
      | exact h0
      | assumption
    | (refine names_trans hL ?_
       try simp only [keyTypes, Nat.reduceMod]
       decide)
    | with_reducible first
      | refine names_cons ?_ ?_
      | refine only_ite ?_ ?_
      | refine only_ite_snd ?_ ?_
      | refine only_ite_fst ?_ ?_
      | refine touchItem_only (hL := ?_) (ho := ?_)
      | refine record_only (hL := ?_) (ho := ?_)
      | refine endWait_only (hL := ?_) (ho := ?_)
    | split
    | (with_reducible refine modRot_only (z := [.meas]) ?_ ?_ ?_ ?_ ?_ ?_ ?_ ?_ ?_ ?_
       · refine names_trans hL ?_
         first | decide | (refine names_of_subset ?_; simp; done)
       iterate 8 · first | with_reducible rfl | (intro _; with_reducible rfl) | exact fun h => not_free h rfl | (intro _; dsimp only; split <;> rfl) | exact rfl | exact fun _ => rfl)
    | dsimp only

theorem execRotBoot_only (b : BootIn) (s : State) : ∃ st', execRotBoot b s = .next st' ∧ s.onlyChanges st' [.out, .xfers, .lines, .inj, .rotState, .staged, .recs, .hdr 0x58, .free, .keys, .firmware, .gens, .meas, .hdr 0x68] := by
  refine ⟨_, rfl, only_start fun hL h0 => ?_⟩
  refine settle_only (names_of_subset (by simp)) ?_
  repeat' first
    | with_reducible first
      | exact h0
      | assumption
    | (refine names_trans hL ?_
       try simp only [keyTypes, Nat.reduceMod]
       decide)
    | with_reducible first
      | refine names_cons ?_ ?_
      | refine only_ite ?_ ?_
      | refine only_ite_snd ?_ ?_
      | refine only_ite_fst ?_ ?_
      | refine romBoot_only (hL := ?_) (ho := ?_)
    | split
    | dsimp only

theorem execRehash_only (digest : List Byte) (s : State) : ∃ st', execRehash digest s = .next st' ∧ s.onlyChanges st' [.out, .xfers, .lines, .inj, .hdr 0x68, .meas, .staged, .recs, .hdr 0x58, .gens, .redNodes, .ftab, .engines, .kernels] := by
  refine ⟨_, rfl, only_start fun hL h0 => ?_⟩
  refine settle_only (names_of_subset (by simp)) ?_
  repeat' first
    | with_reducible first
      | exact h0
      | assumption
    | (refine names_trans hL ?_
       try simp only [keyTypes, Nat.reduceMod]
       decide)
    | with_reducible first
      | refine names_cons ?_ ?_
      | refine only_ite ?_ ?_
      | refine only_ite_snd ?_ ?_
      | refine only_ite_fst ?_ ?_
      | refine setStat_only (hL := ?_) (ho := ?_)
      | refine setMeas_only (hL := ?_) (ho := ?_)
      | refine log_only (hL := ?_) (ho := ?_)
      | refine touchItem_only (hL := ?_) (ho := ?_)
      | refine setErr_only (hL := ?_) (ho := ?_)
      | refine discardCopy_only (hL := ?_) (ho := ?_)
    | split
    | (with_reducible refine modRot_only (z := [.meas]) ?_ ?_ ?_ ?_ ?_ ?_ ?_ ?_ ?_ ?_
       · refine names_trans hL ?_
         first | decide | (refine names_of_subset ?_; simp; done)
       iterate 8 · first | with_reducible rfl | (intro _; with_reducible rfl) | exact fun h => not_free h rfl | (intro _; dsimp only; split <;> rfl) | exact rfl | exact fun _ => rfl)
    | dsimp only

theorem execFirmwareRehash_only (same : Bool) (s : State) : ∃ st', execFirmwareRehash same s = .next st' ∧ s.onlyChanges st' [.out, .xfers, .lines, .inj, .firmware, .mbox, .staged, .recs, .hdr 0x58, .rotOrders] := by
  refine ⟨_, rfl, only_start fun hL h0 => ?_⟩
  refine settle_only (names_of_subset (by simp)) ?_
  repeat' first
    | with_reducible first
      | exact h0
      | assumption
    | (refine names_trans hL ?_
       try simp only [keyTypes, Nat.reduceMod]
       decide)
    | with_reducible first
      | refine names_cons ?_ ?_
      | refine only_ite ?_ ?_
      | refine only_ite_snd ?_ ?_
      | refine only_ite_fst ?_ ?_
      | refine rotOrder_only (hL := ?_) (ho := ?_)
    | split
    | (with_reducible refine modRot_only (z := [.firmware, .rotOrders]) ?_ ?_ ?_ ?_ ?_ ?_ ?_ ?_ ?_ ?_
       · refine names_trans hL ?_
         first | decide | (refine names_of_subset ?_; simp; done)
       iterate 8 · first | with_reducible rfl | (intro _; with_reducible rfl) | exact fun h => not_free h rfl | (intro _; dsimp only; split <;> rfl) | exact rfl | exact fun _ => rfl)
    | dsimp only

theorem execVerifyDecision_only (result : Word) (s : State) : ∃ st', execVerifyDecision result s = .next st' ∧ s.onlyChanges st' [.out, .xfers, .lines, .inj, .verify, .staged, .recs, .hdr 0x58, .hdr 0x68, .word 0x68 0x54, .mbox, .rotOrders] := by
  refine ⟨_, rfl, only_start fun hL h0 => ?_⟩
  refine settle_only (names_of_subset (by simp)) ?_
  repeat' first
    | with_reducible first
      | exact h0
      | assumption
    | (refine names_trans hL ?_
       try simp only [keyTypes, Nat.reduceMod]
       decide)
    | with_reducible first
      | refine names_cons ?_ ?_
      | refine only_ite ?_ ?_
      | refine only_ite_snd ?_ ?_
      | refine only_ite_fst ?_ ?_
      | refine log_only (hL := ?_) (ho := ?_)
      | refine setErr_only (hL := ?_) (ho := ?_)
      | refine bumpFld_only (hL := ?_) (ho := ?_)
      | refine faultMsg_only (hL := ?_) (ho := ?_)
    | split
    | (with_reducible refine modRot_only (z := [.verify, .rotOrders]) ?_ ?_ ?_ ?_ ?_ ?_ ?_ ?_ ?_ ?_
       · refine names_trans hL ?_
         first | decide | (refine names_of_subset ?_; simp; done)
       iterate 8 · first | with_reducible rfl | (intro _; with_reducible rfl) | exact fun h => not_free h rfl | (intro _; dsimp only; split <;> rfl) | exact rfl | exact fun _ => rfl)
    | dsimp only

/-! Spdm -/

theorem traceAuthCmd_only {c : CmdIn} {s : State} (hL : names L [.cmds, .token, .out, .xfers] = true) 
    (ho : s0.onlyChanges s L) : s0.onlyChanges (traceAuthCmd c s) L := by
  unfold traceAuthCmd
  try dsimp only
  repeat' first
    | with_reducible assumption
    | (refine names_trans hL ?_
       try simp only [keyTypes, Nat.reduceMod]
       decide)
    | with_reducible first
      | refine names_cons ?_ ?_
      | refine only_ite ?_ ?_
      | refine only_ite_snd ?_ ?_
      | refine only_ite_fst ?_ ?_
      | refine ok_only (hL := ?_) (ho := ?_)
      | refine badArg_only (hL := ?_) (ho := ?_)
      | refine cmdXfer_only (hL := ?_) (ho := ?_)
    | split
    | (with_reducible refine only_trace (z := [.token]) ?_ ?_ ?_ ?_ ?_ ?_ ?_
       · refine names_trans hL ?_
         first | decide | (refine names_of_subset ?_; simp; done)
       iterate 5 · first | with_reducible rfl | (intro _; with_reducible rfl) | exact fun h => not_free h rfl | (intro _; dsimp only; split <;> rfl) | exact rfl | exact fun _ => rfl)
    | dsimp only

theorem execTraceAuth_only (c : CmdIn) (s : State) : ∃ st', execTraceAuth c s = .next st' ∧ s.onlyChanges st' [.out, .xfers, .lines, .inj, .cmds, .power, .bpwr, .word 0x50 0x54, .activity, .host, .tap, .regs 0x08, .hdr 0x08, .token] := by
  refine ⟨_, rfl, only_start fun hL h0 => ?_⟩
  refine settle_only (names_of_subset (by simp)) ?_
  repeat' first
    | with_reducible first
      | exact h0
      | assumption
    | (refine names_trans hL ?_
       try simp only [keyTypes, Nat.reduceMod]
       decide)
    | (refine names_trans hL ?_
       try simp only [keyTypes, Nat.reduceMod]
       refine names_trans (names_of_subset ?_) names_regs_word
       simp
       done)
    | with_reducible first
      | refine names_cons ?_ ?_
      | refine only_ite ?_ ?_
      | refine only_ite_snd ?_ ?_
      | refine only_ite_fst ?_ ?_
      | refine runCmd_only (hL := ?_) (h_effect := fun u hu => ?_) (ho := ?_)
      | refine traceAuthCmd_only (hL := ?_) (ho := ?_)
    | split
    | dsimp only

theorem spdmXferCmd_only {c : CmdIn} {s : State} (hL : names L [.cmds, .out, .xfers] = true) 
    (ho : s0.onlyChanges s L) : s0.onlyChanges (spdmXferCmd c s) L := by
  unfold spdmXferCmd
  try dsimp only
  repeat' first
    | with_reducible assumption
    | (refine names_trans hL ?_
       try simp only [keyTypes, Nat.reduceMod]
       decide)
    | with_reducible first
      | refine names_cons ?_ ?_
      | refine only_ite ?_ ?_
      | refine only_ite_snd ?_ ?_
      | refine only_ite_fst ?_ ?_
      | refine badArg_only (hL := ?_) (ho := ?_)
      | refine failCmd_only (hL := ?_) (ho := ?_)
      | refine cmdXfer_only (hL := ?_) (ho := ?_)
    | split
    | dsimp only

theorem execSpdmXfer_only (c : CmdIn) (s : State) : ∃ st', execSpdmXfer c s = .next st' ∧ s.onlyChanges st' [.out, .xfers, .lines, .inj, .cmds, .power, .bpwr, .word 0x50 0x54, .activity, .host, .tap, .regs 0x08, .hdr 0x08] := by
  refine ⟨_, rfl, only_start fun hL h0 => ?_⟩
  refine settle_only (names_of_subset (by simp)) ?_
  repeat' first
    | with_reducible first
      | exact h0
      | assumption
    | (refine names_trans hL ?_
       try simp only [keyTypes, Nat.reduceMod]
       decide)
    | (refine names_trans hL ?_
       try simp only [keyTypes, Nat.reduceMod]
       refine names_trans (names_of_subset ?_) names_regs_word
       simp
       done)
    | with_reducible first
      | refine names_cons ?_ ?_
      | refine only_ite ?_ ?_
      | refine only_ite_snd ?_ ?_
      | refine only_ite_fst ?_ ?_
      | refine runCmd_only (hL := ?_) (h_effect := fun u hu => ?_) (ho := ?_)
      | refine spdmXferCmd_only (hL := ?_) (ho := ?_)
    | split
    | dsimp only

theorem authLoaded_only {s : State} {pkg : Bool} {n : Nat} {data : List Byte} {failed : Bool} (hL : names L [.cmds, .token] = true) 
    (ho : s0.onlyChanges s L) : s0.onlyChanges (State.authLoaded s pkg n data failed) L := by
  unfold State.authLoaded
  try dsimp only
  repeat' first
    | with_reducible assumption
    | (refine names_trans hL ?_
       try simp only [keyTypes, Nat.reduceMod]
       decide)
    | with_reducible first
      | refine names_cons ?_ ?_
      | refine only_ite ?_ ?_
      | refine only_ite_snd ?_ ?_
      | refine only_ite_fst ?_ ?_
      | refine complete_only (hL := ?_) (ho := ?_)
    | split
    | (with_reducible refine only_trace (z := [.token]) ?_ ?_ ?_ ?_ ?_ ?_ ?_
       · refine names_trans hL ?_
         first | decide | (refine names_of_subset ?_; simp; done)
       iterate 5 · first | with_reducible rfl | (intro _; with_reducible rfl) | exact fun h => not_free h rfl | (intro _; dsimp only; split <;> rfl) | exact rfl | exact fun _ => rfl)
    | dsimp only

theorem spdmSend_only {s : State} {m : SpdmIn} {r : SpdmRsp} (hL : names L [.out, .spdm, .cmds, .xfers] = true) 
    (ho : s0.onlyChanges s L) : s0.onlyChanges (State.spdmSend s m r) L := by
  unfold State.spdmSend
  try dsimp only
  repeat' first
    | with_reducible assumption
    | (refine names_trans hL ?_
       try simp only [keyTypes, Nat.reduceMod]
       decide)
    | with_reducible first
      | refine names_cons ?_ ?_
      | refine only_ite ?_ ?_
      | refine only_ite_snd ?_ ?_
      | refine only_ite_fst ?_ ?_
      | refine emit_only (hL := ?_) (ho := ?_)
      | refine complete_only (hL := ?_) (ho := ?_)
      | refine cmdXfer_only (hL := ?_) (ho := ?_)
    | split
    | (with_reducible refine modRot_only (z := [.spdm]) ?_ ?_ ?_ ?_ ?_ ?_ ?_ ?_ ?_ ?_
       · refine names_trans hL ?_
         first | decide | (refine names_of_subset ?_; simp; done)
       iterate 8 · first | with_reducible rfl | (intro _; with_reducible rfl) | exact fun h => not_free h rfl | (intro _; dsimp only; split <;> rfl) | exact rfl | exact fun _ => rfl)
    | dsimp only

theorem spdmError_only {s : State} {m : SpdmIn} {e : SpdmError} (hL : names L [.out, .spdm, .cmds, .xfers] = true) 
    (ho : s0.onlyChanges s L) : s0.onlyChanges (State.spdmError s m e) L := by
  unfold State.spdmError
  try dsimp only
  repeat' first
    | with_reducible assumption
    | (refine names_trans hL ?_
       try simp only [keyTypes, Nat.reduceMod]
       decide)
    | with_reducible first
      | refine names_cons ?_ ?_
      | refine only_ite ?_ ?_
      | refine only_ite_snd ?_ ?_
      | refine only_ite_fst ?_ ?_
      | refine spdmSend_only (hL := ?_) (ho := ?_)
    | split
    | dsimp only

theorem spdmLoaded_only {s : State} {pkg : Bool} {n : Nat} {data : List Byte} {wr failed : Bool} (hL : names L [.cmds, .word 0x08 0x100, .out, .spdm, .xfers] = true) 
    (ho : s0.onlyChanges s L) : s0.onlyChanges (State.spdmLoaded s pkg n data wr failed) L := by
  unfold State.spdmLoaded
  try dsimp only
  repeat' first
    | with_reducible assumption
    | (refine names_trans hL ?_
       try simp only [keyTypes, Nat.reduceMod]
       decide)
    | with_reducible first
      | refine names_cons ?_ ?_
      | refine only_ite ?_ ?_
      | refine only_ite_snd ?_ ?_
      | refine only_ite_fst ?_ ?_
      | refine complete_only (hL := ?_) (ho := ?_)
      | refine setRes_only (hL := ?_) (ho := ?_)
      | refine waitPage_only (hL := ?_) (ho := ?_)
      | refine spdmError_only (hL := ?_) (ho := ?_)
    | split
    | dsimp only

theorem setSession_only {s : State} {id : Word} {e : Option Session} (hL : names L [.spdm] = true) 
    (ho : s0.onlyChanges s L) : s0.onlyChanges (State.setSession s id e) L := by
  unfold State.setSession
  try dsimp only
  repeat' first
    | with_reducible assumption
    | (refine names_trans hL ?_
       try simp only [keyTypes, Nat.reduceMod]
       decide)
    | with_reducible first
      | refine names_cons ?_ ?_
      | refine only_ite ?_ ?_
      | refine only_ite_snd ?_ ?_
      | refine only_ite_fst ?_ ?_
    | split
    | (with_reducible refine modRot_only (z := [.spdm]) ?_ ?_ ?_ ?_ ?_ ?_ ?_ ?_ ?_ ?_
       · refine names_trans hL ?_
         first | decide | (refine names_of_subset ?_; simp; done)
       iterate 8 · first | with_reducible rfl | (intro _; with_reducible rfl) | exact fun h => not_free h rfl | (intro _; dsimp only; split <;> rfl) | exact rfl | exact fun _ => rfl)
    | dsimp only

theorem spdmTake_only {s : State} {m : SpdmIn} {act : State → State} (hL : names L [.out, .spdm, .cmds, .xfers] = true) (h_act : ∀ (u : State), s0.onlyChanges u L → s0.onlyChanges (act u) L)
    (ho : s0.onlyChanges s L) : s0.onlyChanges (State.spdmTake s m act) L := by
  unfold State.spdmTake
  try dsimp only
  repeat' first
    | with_reducible assumption
    | (refine names_trans hL ?_
       try simp only [keyTypes, Nat.reduceMod]
       decide)
    | with_reducible first
      | refine names_cons ?_ ?_
      | refine only_ite ?_ ?_
      | refine only_ite_snd ?_ ?_
      | refine only_ite_fst ?_ ?_
      | refine h_act _ ?_
      | refine spdmError_only (hL := ?_) (ho := ?_)
      | refine setSession_only (hL := ?_) (ho := ?_)
    | split
    | dsimp only

theorem spdmSign_only {s : State} (hL : names L [.free] = true) 
    (ho : s0.onlyChanges s L) : s0.onlyChanges (State.spdmSign s).2 L := by
  unfold State.spdmSign
  try dsimp only
  repeat' first
    | with_reducible assumption
    | (refine names_trans hL ?_
       try simp only [keyTypes, Nat.reduceMod]
       decide)
    | with_reducible first
      | refine names_cons ?_ ?_
      | refine only_ite ?_ ?_
      | refine only_ite_snd ?_ ?_
      | refine only_ite_fst ?_ ?_
      | refine draw_only (hL := ?_) (ho := ?_)
    | split
    | dsimp only

theorem spdmDefer_only {s : State} {m : SpdmIn} {d : Deferred} (hL : names L [.out, .spdm, .cmds, .xfers] = true) 
    (ho : s0.onlyChanges s L) : s0.onlyChanges (State.spdmDefer s m d) L := by
  unfold State.spdmDefer
  try dsimp only
  repeat' first
    | with_reducible assumption
    | (refine names_trans hL ?_
       try simp only [keyTypes, Nat.reduceMod]
       decide)
    | with_reducible first
      | refine names_cons ?_ ?_
      | refine only_ite ?_ ?_
      | refine only_ite_snd ?_ ?_
      | refine only_ite_fst ?_ ?_
      | refine spdmError_only (hL := ?_) (ho := ?_)
    | split
    | (with_reducible refine modRot_only (z := [.spdm]) ?_ ?_ ?_ ?_ ?_ ?_ ?_ ?_ ?_ ?_
       · refine names_trans hL ?_
         first | decide | (refine names_of_subset ?_; simp; done)
       iterate 8 · first | with_reducible rfl | (intro _; with_reducible rfl) | exact fun h => not_free h rfl | (intro _; dsimp only; split <;> rfl) | exact rfl | exact fun _ => rfl)
    | dsimp only

theorem answerChallenge_only {s : State} {m : SpdmIn} {slot : Nat} (hL : names L [.out, .spdm, .cmds, .xfers, .free] = true) 
    (ho : s0.onlyChanges s L) : s0.onlyChanges (State.answerChallenge s m slot) L := by
  unfold State.answerChallenge
  try dsimp only
  repeat' first
    | with_reducible assumption
    | (refine names_trans hL ?_
       try simp only [keyTypes, Nat.reduceMod]
       decide)
    | with_reducible first
      | refine names_cons ?_ ?_
      | refine only_ite ?_ ?_
      | refine only_ite_snd ?_ ?_
      | refine only_ite_fst ?_ ?_
      | refine spdmError_only (hL := ?_) (ho := ?_)
      | refine spdmSign_only (hL := ?_) (ho := ?_)
      | refine spdmSend_only (hL := ?_) (ho := ?_)
    | split
    | dsimp only

theorem endTranscript_only {s : State} {session : Option Word} (hL : names L [.spdm] = true) 
    (ho : s0.onlyChanges s L) : s0.onlyChanges (State.endTranscript s session) L := by
  unfold State.endTranscript
  try dsimp only
  repeat' first
    | with_reducible assumption
    | (refine names_trans hL ?_
       try simp only [keyTypes, Nat.reduceMod]
       decide)
    | with_reducible first
      | refine names_cons ?_ ?_
      | refine only_ite ?_ ?_
      | refine only_ite_snd ?_ ?_
      | refine only_ite_fst ?_ ?_
    | split
    | (with_reducible refine modRot_only (z := [.spdm]) ?_ ?_ ?_ ?_ ?_ ?_ ?_ ?_ ?_ ?_
       · refine names_trans hL ?_
         first | decide | (refine names_of_subset ?_; simp; done)
       iterate 8 · first | with_reducible rfl | (intro _; with_reducible rfl) | exact fun h => not_free h rfl | (intro _; dsimp only; split <;> rfl) | exact rfl | exact fun _ => rfl)
    | dsimp only

theorem answerMeasurements_only {s : State} {m : SpdmIn} {op : Nat} {signed : Bool} (hL : names L [.out, .spdm, .cmds, .xfers, .free] = true) 
    (ho : s0.onlyChanges s L) : s0.onlyChanges (State.answerMeasurements s m op signed) L := by
  unfold State.answerMeasurements
  try dsimp only
  repeat' first
    | with_reducible assumption
    | (refine names_trans hL ?_
       try simp only [keyTypes, Nat.reduceMod]
       decide)
    | with_reducible first
      | refine names_cons ?_ ?_
      | refine only_ite ?_ ?_
      | refine only_ite_snd ?_ ?_
      | refine only_ite_fst ?_ ?_
      | refine spdmError_only (hL := ?_) (ho := ?_)
      | refine endTranscript_only (hL := ?_) (ho := ?_)
      | refine spdmSign_only (hL := ?_) (ho := ?_)
      | refine spdmSend_only (hL := ?_) (ho := ?_)
    | split
    | (with_reducible refine modRot_only (z := [.spdm]) ?_ ?_ ?_ ?_ ?_ ?_ ?_ ?_ ?_ ?_
       · refine names_trans hL ?_
         first | decide | (refine names_of_subset ?_; simp; done)
       iterate 8 · first | with_reducible rfl | (intro _; with_reducible rfl) | exact fun h => not_free h rfl | (intro _; dsimp only; split <;> rfl) | exact rfl | exact fun _ => rfl)
    | dsimp only

theorem answerKeyExchange_only {s : State} {m : SpdmIn} {reqId : BitVec 16} {point : List Byte} (hL : names L [.out, .spdm, .cmds, .xfers, .free] = true) 
    (ho : s0.onlyChanges s L) : s0.onlyChanges (State.answerKeyExchange s m reqId point) L := by
  unfold State.answerKeyExchange
  try dsimp only
  repeat' first
    | with_reducible assumption
    | (refine names_trans hL ?_
       try simp only [keyTypes, Nat.reduceMod]
       decide)
    | with_reducible first
      | refine names_cons ?_ ?_
      | refine only_ite ?_ ?_
      | refine only_ite_snd ?_ ?_
      | refine only_ite_fst ?_ ?_
      | refine spdmError_only (hL := ?_) (ho := ?_)
      | refine draw_only (hL := ?_) (ho := ?_)
      | refine spdmSign_only (hL := ?_) (ho := ?_)
      | refine setSession_only (hL := ?_) (ho := ?_)
      | refine spdmSend_only (hL := ?_) (ho := ?_)
    | split
    | (with_reducible refine modRot_only (z := [.spdm]) ?_ ?_ ?_ ?_ ?_ ?_ ?_ ?_ ?_ ?_
       · refine names_trans hL ?_
         first | decide | (refine names_of_subset ?_; simp; done)
       iterate 8 · first | with_reducible rfl | (intro _; with_reducible rfl) | exact fun h => not_free h rfl | (intro _; dsimp only; split <;> rfl) | exact rfl | exact fun _ => rfl)
    | dsimp only

theorem inSession_only {s : State} {m : SpdmIn} {act : Word → Session → State → State} (hL : names L [.out, .spdm, .cmds, .xfers] = true) (h_act : ∀ (x0 : Word) (x1 : Session) (u : State), s0.onlyChanges u L → s0.onlyChanges (act x0 x1 u) L)
    (ho : s0.onlyChanges s L) : s0.onlyChanges (State.inSession s m act) L := by
  unfold State.inSession
  try dsimp only
  repeat' first
    | with_reducible assumption
    | (refine names_trans hL ?_
       try simp only [keyTypes, Nat.reduceMod]
       decide)
    | with_reducible first
      | refine names_cons ?_ ?_
      | refine only_ite ?_ ?_
      | refine only_ite_snd ?_ ?_
      | refine only_ite_fst ?_ ?_
      | refine h_act _ _ _ ?_
      | refine spdmError_only (hL := ?_) (ho := ?_)
    | split
    | dsimp only

theorem dropSession_only {s : State} {id : Word} (hL : names L [.spdm] = true) 
    (ho : s0.onlyChanges s L) : s0.onlyChanges (State.dropSession s id) L := by
  unfold State.dropSession
  try dsimp only
  repeat' first
    | with_reducible assumption
    | (refine names_trans hL ?_
       try simp only [keyTypes, Nat.reduceMod]
       decide)
    | with_reducible first
      | refine names_cons ?_ ?_
      | refine only_ite ?_ ?_
      | refine only_ite_snd ?_ ?_
      | refine only_ite_fst ?_ ?_
      | refine endTranscript_only (hL := ?_) (ho := ?_)
      | refine setSession_only (hL := ?_) (ho := ?_)
    | split
    | dsimp only

theorem vendorTake_only {s : State} {m : SpdmIn} {act : State → State} (hL : names L [.out, .spdm, .cmds, .xfers, .hdr 0x68] = true) (h_act : ∀ (u : State), s0.onlyChanges u L → s0.onlyChanges (act u) L)
    (ho : s0.onlyChanges s L) : s0.onlyChanges (State.vendorTake s m act) L := by
  unfold State.vendorTake
  try dsimp only
  repeat' first
    | with_reducible assumption
    | (refine names_trans hL ?_
       try simp only [keyTypes, Nat.reduceMod]
       decide)
    | with_reducible first
      | refine names_cons ?_ ?_
      | refine only_ite ?_ ?_
      | refine only_ite_snd ?_ ?_
      | refine only_ite_fst ?_ ?_
      | refine h_act _ ?_
      | refine spdmTake_only (hL := ?_) (h_act := fun u hu => ?_) (ho := ?_)
      | refine spdmError_only (hL := ?_) (ho := ?_)
      | refine setErr_only (hL := ?_) (ho := ?_)
    | split
    | dsimp only

theorem vendorSend_only {s : State} {m : SpdmIn} {status : Byte} {body : List Byte} (hL : names L [.out, .spdm, .cmds, .xfers] = true) 
    (ho : s0.onlyChanges s L) : s0.onlyChanges (State.vendorSend s m status body) L := by
  unfold State.vendorSend
  try dsimp only
  repeat' first
    | with_reducible assumption
    | (refine names_trans hL ?_
       try simp only [keyTypes, Nat.reduceMod]
       decide)
    | with_reducible first
      | refine names_cons ?_ ?_
      | refine only_ite ?_ ?_
      | refine only_ite_snd ?_ ?_
      | refine only_ite_fst ?_ ?_
      | refine spdmSend_only (hL := ?_) (ho := ?_)
    | split
    | dsimp only

theorem setShare_only {s : State} {p : Nat} {x : Option Share} (hL : names L [.linkKeys] = true) 
    (ho : s0.onlyChanges s L) : s0.onlyChanges (State.setShare s p x) L := by
  unfold State.setShare
  try dsimp only
  repeat' first
    | with_reducible assumption
    | (refine names_trans hL ?_
       try simp only [keyTypes, Nat.reduceMod]
       decide)
    | with_reducible first
      | refine names_cons ?_ ?_
      | refine only_ite ?_ ?_
      | refine only_ite_snd ?_ ?_
      | refine only_ite_fst ?_ ?_
    | split
    | (with_reducible refine modRot_only (z := [.linkKeys]) ?_ ?_ ?_ ?_ ?_ ?_ ?_ ?_ ?_ ?_
       · refine names_trans hL ?_
         first | decide | (refine names_of_subset ?_; simp; done)
       iterate 8 · first | with_reducible rfl | (intro _; with_reducible rfl) | exact fun h => not_free h rfl | (intro _; dsimp only; split <;> rfl) | exact rfl | exact fun _ => rfl)
    | dsimp only

theorem linkInstall_only {s : State} {port : Nat} {share chain : List Byte} (hL : names L [.linkKeys, .chans] = true) 
    (ho : s0.onlyChanges s L) : s0.onlyChanges (State.linkInstall s port share chain).2 L := by
  unfold State.linkInstall
  try dsimp only
  repeat' first
    | with_reducible assumption
    | (refine names_trans hL ?_
       try simp only [keyTypes, Nat.reduceMod]
       decide)
    | with_reducible first
      | refine names_cons ?_ ?_
      | refine only_ite ?_ ?_
      | refine only_ite_snd ?_ ?_
      | refine only_ite_fst ?_ ?_
      | refine modChan_only (hL := ?_) (ho := ?_)
      | refine setShare_only (hL := ?_) (ho := ?_)
    | split
    | (with_reducible refine modRot_only (z := [.linkKeys]) ?_ ?_ ?_ ?_ ?_ ?_ ?_ ?_ ?_ ?_
       · refine names_trans hL ?_
         first | decide | (refine names_of_subset ?_; simp; done)
       iterate 8 · first | with_reducible rfl | (intro _; with_reducible rfl) | exact fun h => not_free h rfl | (intro _; dsimp only; split <;> rfl) | exact rfl | exact fun _ => rfl)
    | dsimp only

theorem linkArm_only {s : State} {port : Nat} (hL : names L [.chans] = true) 
    (ho : s0.onlyChanges s L) : s0.onlyChanges (State.linkArm s port).2 L := by
  unfold State.linkArm
  try dsimp only
  repeat' first
    | with_reducible assumption
    | (refine names_trans hL ?_
       try simp only [keyTypes, Nat.reduceMod]
       decide)
    | with_reducible first
      | refine names_cons ?_ ?_
      | refine only_ite ?_ ?_
      | refine only_ite_snd ?_ ?_
      | refine only_ite_fst ?_ ?_
      | refine modChan_only (hL := ?_) (ho := ?_)
    | split
    | dsimp only

theorem execGetVersion_only (m : SpdmIn) (s : State) : ∃ st', execGetVersion m s = .next st' ∧ s.onlyChanges st' [.out, .xfers, .lines, .inj, .spdm, .cmds] := by
  refine ⟨_, rfl, only_start fun hL h0 => ?_⟩
  refine settle_only (names_of_subset (by simp)) ?_
  repeat' first
    | with_reducible first
      | exact h0
      | assumption
    | (refine names_trans hL ?_
       try simp only [keyTypes, Nat.reduceMod]
       decide)
    | with_reducible first
      | refine names_cons ?_ ?_
      | refine only_ite ?_ ?_
      | refine only_ite_snd ?_ ?_
      | refine only_ite_fst ?_ ?_
      | refine spdmTake_only (hL := ?_) (h_act := fun u hu => ?_) (ho := ?_)
      | refine spdmSend_only (hL := ?_) (ho := ?_)
    | split
    | (with_reducible refine modRot_only (z := [.spdm]) ?_ ?_ ?_ ?_ ?_ ?_ ?_ ?_ ?_ ?_
       · refine names_trans hL ?_
         first | decide | (refine names_of_subset ?_; simp; done)
       iterate 8 · first | with_reducible rfl | (intro _; with_reducible rfl) | exact fun h => not_free h rfl | (intro _; dsimp only; split <;> rfl) | exact rfl | exact fun _ => rfl)
    | dsimp only

theorem execGetCapabilities_only (m : SpdmIn) (s : State) : ∃ st', execGetCapabilities m s = .next st' ∧ s.onlyChanges st' [.out, .xfers, .lines, .inj, .spdm, .cmds] := by
  refine ⟨_, rfl, only_start fun hL h0 => ?_⟩
  refine settle_only (names_of_subset (by simp)) ?_
  repeat' first
    | with_reducible first
      | exact h0
      | assumption
    | (refine names_trans hL ?_
       try simp only [keyTypes, Nat.reduceMod]
       decide)
    | with_reducible first
      | refine names_cons ?_ ?_
      | refine only_ite ?_ ?_
      | refine only_ite_snd ?_ ?_
      | refine only_ite_fst ?_ ?_
      | refine spdmTake_only (hL := ?_) (h_act := fun u hu => ?_) (ho := ?_)
      | refine spdmSend_only (hL := ?_) (ho := ?_)
    | split
    | dsimp only

theorem execNegotiateAlgorithms_only (m : SpdmIn) (s : State) : ∃ st', execNegotiateAlgorithms m s = .next st' ∧ s.onlyChanges st' [.out, .xfers, .lines, .inj, .spdm, .cmds] := by
  refine ⟨_, rfl, only_start fun hL h0 => ?_⟩
  refine settle_only (names_of_subset (by simp)) ?_
  repeat' first
    | with_reducible first
      | exact h0
      | assumption
    | (refine names_trans hL ?_
       try simp only [keyTypes, Nat.reduceMod]
       decide)
    | with_reducible first
      | refine names_cons ?_ ?_
      | refine only_ite ?_ ?_
      | refine only_ite_snd ?_ ?_
      | refine only_ite_fst ?_ ?_
      | refine spdmTake_only (hL := ?_) (h_act := fun u hu => ?_) (ho := ?_)
      | refine spdmSend_only (hL := ?_) (ho := ?_)
    | split
    | dsimp only

theorem execGetDigests_only (m : SpdmIn) (s : State) : ∃ st', execGetDigests m s = .next st' ∧ s.onlyChanges st' [.out, .xfers, .lines, .inj, .spdm, .cmds] := by
  refine ⟨_, rfl, only_start fun hL h0 => ?_⟩
  refine settle_only (names_of_subset (by simp)) ?_
  repeat' first
    | with_reducible first
      | exact h0
      | assumption
    | (refine names_trans hL ?_
       try simp only [keyTypes, Nat.reduceMod]
       decide)
    | with_reducible first
      | refine names_cons ?_ ?_
      | refine only_ite ?_ ?_
      | refine only_ite_snd ?_ ?_
      | refine only_ite_fst ?_ ?_
      | refine spdmTake_only (hL := ?_) (h_act := fun u hu => ?_) (ho := ?_)
      | refine spdmSend_only (hL := ?_) (ho := ?_)
    | split
    | dsimp only

theorem execGetCertificate_only (m : SpdmIn) (slot offset length : Nat) (s : State) : ∃ st', execGetCertificate m slot offset length s = .next st' ∧ s.onlyChanges st' [.out, .xfers, .lines, .inj, .spdm, .cmds] := by
  refine ⟨_, rfl, only_start fun hL h0 => ?_⟩
  refine settle_only (names_of_subset (by simp)) ?_
  repeat' first
    | with_reducible first
      | exact h0
      | assumption
    | (refine names_trans hL ?_
       try simp only [keyTypes, Nat.reduceMod]
       decide)
    | with_reducible first
      | refine names_cons ?_ ?_
      | refine only_ite ?_ ?_
      | refine only_ite_snd ?_ ?_
      | refine only_ite_fst ?_ ?_
      | refine spdmTake_only (hL := ?_) (h_act := fun u hu => ?_) (ho := ?_)
      | refine spdmError_only (hL := ?_) (ho := ?_)
      | refine spdmSend_only (hL := ?_) (ho := ?_)
    | split
    | dsimp only

theorem execChallenge_only (m : SpdmIn) (slot : Nat) (s : State) : ∃ st', execChallenge m slot s = .next st' ∧ s.onlyChanges st' [.out, .xfers, .lines, .inj, .spdm, .cmds, .free] := by
  refine ⟨_, rfl, only_start fun hL h0 => ?_⟩
  refine settle_only (names_of_subset (by simp)) ?_
  repeat' first
    | with_reducible first
      | exact h0
      | assumption
    | (refine names_trans hL ?_
       try simp only [keyTypes, Nat.reduceMod]
       decide)
    | with_reducible first
      | refine names_cons ?_ ?_
      | refine only_ite ?_ ?_
      | refine only_ite_snd ?_ ?_
      | refine only_ite_fst ?_ ?_
      | refine spdmTake_only (hL := ?_) (h_act := fun u hu => ?_) (ho := ?_)
      | refine spdmDefer_only (hL := ?_) (ho := ?_)
      | refine answerChallenge_only (hL := ?_) (ho := ?_)
    | split
    | dsimp only

theorem execGetMeasurements_only (m : SpdmIn) (op : Nat) (signed : Bool) (s : State) : ∃ st', execGetMeasurements m op signed s = .next st' ∧ s.onlyChanges st' [.out, .xfers, .lines, .inj, .spdm, .cmds, .free] := by
  refine ⟨_, rfl, only_start fun hL h0 => ?_⟩
  refine settle_only (names_of_subset (by simp)) ?_
  repeat' first
    | with_reducible first
      | exact h0
      | assumption
    | (refine names_trans hL ?_
       try simp only [keyTypes, Nat.reduceMod]
       decide)
    | with_reducible first
      | refine names_cons ?_ ?_
      | refine only_ite ?_ ?_
      | refine only_ite_snd ?_ ?_
      | refine only_ite_fst ?_ ?_
      | refine spdmTake_only (hL := ?_) (h_act := fun u hu => ?_) (ho := ?_)
      | refine spdmDefer_only (hL := ?_) (ho := ?_)
      | refine answerMeasurements_only (hL := ?_) (ho := ?_)
    | split
    | dsimp only

theorem execKeyExchange_only (m : SpdmIn) (reqId : BitVec 16) (point : List Byte) (s : State) : ∃ st', execKeyExchange m reqId point s = .next st' ∧ s.onlyChanges st' [.out, .xfers, .lines, .inj, .spdm, .cmds, .free] := by
  refine ⟨_, rfl, only_start fun hL h0 => ?_⟩
  refine settle_only (names_of_subset (by simp)) ?_
  repeat' first
    | with_reducible first
      | exact h0
      | assumption
    | (refine names_trans hL ?_
       try simp only [keyTypes, Nat.reduceMod]
       decide)
    | with_reducible first
      | refine names_cons ?_ ?_
      | refine only_ite ?_ ?_
      | refine only_ite_snd ?_ ?_
      | refine only_ite_fst ?_ ?_
      | refine spdmTake_only (hL := ?_) (h_act := fun u hu => ?_) (ho := ?_)
      | refine spdmDefer_only (hL := ?_) (ho := ?_)
      | refine answerKeyExchange_only (hL := ?_) (ho := ?_)
    | split
    | dsimp only

theorem execFinish_only (m : SpdmIn) (root : Option (List Byte)) (good : Bool) (s : State) : ∃ st', execFinish m root good s = .next st' ∧ s.onlyChanges st' [.out, .xfers, .lines, .inj, .spdm, .cmds] := by
  refine ⟨_, rfl, only_start fun hL h0 => ?_⟩
  refine settle_only (names_of_subset (by simp)) ?_
  repeat' first
    | with_reducible first
      | exact h0
      | assumption
    | (refine names_trans hL ?_
       try simp only [keyTypes, Nat.reduceMod]
       decide)
    | with_reducible first
      | refine names_cons ?_ ?_
      | refine only_ite ?_ ?_
      | refine only_ite_snd ?_ ?_
      | refine only_ite_fst ?_ ?_
      | refine spdmTake_only (hL := ?_) (h_act := fun u hu => ?_) (ho := ?_)
      | refine spdmError_only (hL := ?_) (ho := ?_)
      | refine spdmSend_only (hL := ?_) (ho := ?_)
      | refine setSession_only (hL := ?_) (ho := ?_)
    | split
    | dsimp only

theorem execSpdmHeartbeat_only (m : SpdmIn) (s : State) : ∃ st', execSpdmHeartbeat m s = .next st' ∧ s.onlyChanges st' [.out, .xfers, .lines, .inj, .spdm, .cmds] := by
  refine ⟨_, rfl, only_start fun hL h0 => ?_⟩
  refine settle_only (names_of_subset (by simp)) ?_
  repeat' first
    | with_reducible first
      | exact h0
      | assumption
    | (refine names_trans hL ?_
       try simp only [keyTypes, Nat.reduceMod]
       decide)
    | with_reducible first
      | refine names_cons ?_ ?_
      | refine only_ite ?_ ?_
      | refine only_ite_snd ?_ ?_
      | refine only_ite_fst ?_ ?_
      | refine spdmTake_only (hL := ?_) (h_act := fun u hu => ?_) (ho := ?_)
      | refine inSession_only (hL := ?_) (h_act := fun u x1 x2 hu => ?_) (ho := ?_)
      | refine spdmSend_only (hL := ?_) (ho := ?_)
    | split
    | dsimp only

theorem execKeyUpdate_only (m : SpdmIn) (op : Nat) (s : State) : ∃ st', execKeyUpdate m op s = .next st' ∧ s.onlyChanges st' [.out, .xfers, .lines, .inj, .spdm, .cmds] := by
  refine ⟨_, rfl, only_start fun hL h0 => ?_⟩
  refine settle_only (names_of_subset (by simp)) ?_
  repeat' first
    | with_reducible first
      | exact h0
      | assumption
    | (refine names_trans hL ?_
       try simp only [keyTypes, Nat.reduceMod]
       decide)
    | with_reducible first
      | refine names_cons ?_ ?_
      | refine only_ite ?_ ?_
      | refine only_ite_snd ?_ ?_
      | refine only_ite_fst ?_ ?_
      | refine spdmTake_only (hL := ?_) (h_act := fun u hu => ?_) (ho := ?_)
      | refine inSession_only (hL := ?_) (h_act := fun u x1 x2 hu => ?_) (ho := ?_)
      | refine spdmSend_only (hL := ?_) (ho := ?_)
      | refine setSession_only (hL := ?_) (ho := ?_)
      | refine spdmError_only (hL := ?_) (ho := ?_)
    | split
    | dsimp only

theorem execEndSession_only (m : SpdmIn) (s : State) : ∃ st', execEndSession m s = .next st' ∧ s.onlyChanges st' [.out, .xfers, .lines, .inj, .spdm, .cmds] := by
  refine ⟨_, rfl, only_start fun hL h0 => ?_⟩
  refine settle_only (names_of_subset (by simp)) ?_
  repeat' first
    | with_reducible first
      | exact h0
      | assumption
    | (refine names_trans hL ?_
       try simp only [keyTypes, Nat.reduceMod]
       decide)
    | with_reducible first
      | refine names_cons ?_ ?_
      | refine only_ite ?_ ?_
      | refine only_ite_snd ?_ ?_
      | refine only_ite_fst ?_ ?_
      | refine spdmTake_only (hL := ?_) (h_act := fun u hu => ?_) (ho := ?_)
      | refine inSession_only (hL := ?_) (h_act := fun u x1 x2 hu => ?_) (ho := ?_)
      | refine dropSession_only (hL := ?_) (ho := ?_)
      | refine spdmSend_only (hL := ?_) (ho := ?_)
    | split
    | dsimp only

theorem execSessionTimeout_only (id : Word) (s : State) : ∃ st', execSessionTimeout id s = .next st' ∧ s.onlyChanges st' [.out, .xfers, .lines, .inj, .spdm] := by
  refine ⟨_, rfl, only_start fun hL h0 => ?_⟩
  refine settle_only (names_of_subset (by simp)) ?_
  repeat' first
    | with_reducible first
      | exact h0
      | assumption
    | (refine names_trans hL ?_
       try simp only [keyTypes, Nat.reduceMod]
       decide)
    | with_reducible first
      | refine names_cons ?_ ?_
      | refine only_ite ?_ ?_
      | refine only_ite_snd ?_ ?_
      | refine only_ite_fst ?_ ?_
      | refine dropSession_only (hL := ?_) (ho := ?_)
    | split
    | dsimp only

theorem execRespondIfReady_only (m : SpdmIn) (token : Byte) (s : State) : ∃ st', execRespondIfReady m token s = .next st' ∧ s.onlyChanges st' [.out, .xfers, .lines, .inj, .spdm, .cmds, .free] := by
  refine ⟨_, rfl, only_start fun hL h0 => ?_⟩
  refine settle_only (names_of_subset (by simp)) ?_
  repeat' first
    | with_reducible first
      | exact h0
      | assumption
    | (refine names_trans hL ?_
       try simp only [keyTypes, Nat.reduceMod]
       decide)
    | with_reducible first
      | refine names_cons ?_ ?_
      | refine only_ite ?_ ?_
      | refine only_ite_snd ?_ ?_
      | refine only_ite_fst ?_ ?_
      | refine spdmTake_only (hL := ?_) (h_act := fun u hu => ?_) (ho := ?_)
      | refine spdmError_only (hL := ?_) (ho := ?_)
      | refine answerChallenge_only (hL := ?_) (ho := ?_)
      | refine answerMeasurements_only (hL := ?_) (ho := ?_)
      | refine answerKeyExchange_only (hL := ?_) (ho := ?_)
    | split
    | (with_reducible refine modRot_only (z := [.spdm]) ?_ ?_ ?_ ?_ ?_ ?_ ?_ ?_ ?_ ?_
       · refine names_trans hL ?_
         first | decide | (refine names_of_subset ?_; simp; done)
       iterate 8 · first | with_reducible rfl | (intro _; with_reducible rfl) | exact fun h => not_free h rfl | (intro _; dsimp only; split <;> rfl) | exact rfl | exact fun _ => rfl)
    | dsimp only

theorem execLinkShare_only (m : SpdmIn) (port : Nat) (s : State) : ∃ st', execLinkShare m port s = .next st' ∧ s.onlyChanges st' [.out, .xfers, .lines, .inj, .spdm, .cmds, .hdr 0x68, .free, .linkKeys] := by
  refine ⟨_, rfl, only_start fun hL h0 => ?_⟩
  refine settle_only (names_of_subset (by simp)) ?_
  repeat' first
    | with_reducible first
      | exact h0
      | assumption
    | (refine names_trans hL ?_
       try simp only [keyTypes, Nat.reduceMod]
       decide)
    | with_reducible first
      | refine names_cons ?_ ?_
      | refine only_ite ?_ ?_
      | refine only_ite_snd ?_ ?_
      | refine only_ite_fst ?_ ?_
      | refine vendorTake_only (hL := ?_) (h_act := fun u hu => ?_) (ho := ?_)
      | refine vendorSend_only (hL := ?_) (ho := ?_)
      | refine draw_only (hL := ?_) (ho := ?_)
      | refine setShare_only (hL := ?_) (ho := ?_)
    | split
    | dsimp only

theorem execLinkInstall_only (m : SpdmIn) (port : Nat) (share chain : List Byte) (s : State) : ∃ st', execLinkInstall m port share chain s = .next st' ∧ s.onlyChanges st' [.out, .xfers, .lines, .inj, .spdm, .cmds, .hdr 0x68, .linkKeys, .chans] := by
  refine ⟨_, rfl, only_start fun hL h0 => ?_⟩
  refine settle_only (names_of_subset (by simp)) ?_
  repeat' first
    | with_reducible first
      | exact h0
      | assumption
    | (refine names_trans hL ?_
       try simp only [keyTypes, Nat.reduceMod]
       decide)
    | with_reducible first
      | refine names_cons ?_ ?_
      | refine only_ite ?_ ?_
      | refine only_ite_snd ?_ ?_
      | refine only_ite_fst ?_ ?_
      | refine vendorTake_only (hL := ?_) (h_act := fun u hu => ?_) (ho := ?_)
      | refine vendorSend_only (hL := ?_) (ho := ?_)
      | refine linkInstall_only (hL := ?_) (ho := ?_)
    | split
    | dsimp only

theorem execLinkArm_only (m : SpdmIn) (port : Nat) (s : State) : ∃ st', execLinkArm m port s = .next st' ∧ s.onlyChanges st' [.out, .xfers, .lines, .inj, .spdm, .cmds, .hdr 0x68, .chans] := by
  refine ⟨_, rfl, only_start fun hL h0 => ?_⟩
  refine settle_only (names_of_subset (by simp)) ?_
  repeat' first
    | with_reducible first
      | exact h0
      | assumption
    | (refine names_trans hL ?_
       try simp only [keyTypes, Nat.reduceMod]
       decide)
    | with_reducible first
      | refine names_cons ?_ ?_
      | refine only_ite ?_ ?_
      | refine only_ite_snd ?_ ?_
      | refine only_ite_fst ?_ ?_
      | refine vendorTake_only (hL := ?_) (h_act := fun u hu => ?_) (ho := ?_)
      | refine vendorSend_only (hL := ?_) (ho := ?_)
      | refine linkArm_only (hL := ?_) (ho := ?_)
    | split
    | dsimp only

theorem execShareExpire_only (port : Nat) (s : State) : ∃ st', execShareExpire port s = .next st' ∧ s.onlyChanges st' [.out, .xfers, .lines, .inj, .linkKeys] := by
  refine ⟨_, rfl, only_start fun hL h0 => ?_⟩
  refine settle_only (names_of_subset (by simp)) ?_
  repeat' first
    | with_reducible first
      | exact h0
      | assumption
    | (refine names_trans hL ?_
       try simp only [keyTypes, Nat.reduceMod]
       decide)
    | with_reducible first
      | refine names_cons ?_ ?_
      | refine only_ite ?_ ?_
      | refine only_ite_snd ?_ ?_
      | refine only_ite_fst ?_ ?_
      | refine setShare_only (hL := ?_) (ho := ?_)
    | split
    | dsimp only

theorem execTraceToken_only (m : SpdmIn) (sources dests : Byte) (notAfter : Nat) (s : State) : ∃ st', execTraceToken m sources dests notAfter s = .next st' ∧ s.onlyChanges st' [.out, .xfers, .lines, .inj, .spdm, .cmds, .hdr 0x68, .keys] := by
  refine ⟨_, rfl, only_start fun hL h0 => ?_⟩
  refine settle_only (names_of_subset (by simp)) ?_
  repeat' first
    | with_reducible first
      | exact h0
      | assumption
    | (refine names_trans hL ?_
       try simp only [keyTypes, Nat.reduceMod]
       decide)
    | with_reducible first
      | refine names_cons ?_ ?_
      | refine only_ite ?_ ?_
      | refine only_ite_snd ?_ ?_
      | refine only_ite_fst ?_ ?_
      | refine vendorTake_only (hL := ?_) (h_act := fun u hu => ?_) (ho := ?_)
      | refine vendorSend_only (hL := ?_) (ho := ?_)
    | split
    | (with_reducible refine modRot_only (z := [.spdm, .keys]) ?_ ?_ ?_ ?_ ?_ ?_ ?_ ?_ ?_ ?_
       · refine names_trans hL ?_
         first | decide | (refine names_of_subset ?_; simp; done)
       iterate 8 · first | with_reducible rfl | (intro _; with_reducible rfl) | exact fun h => not_free h rfl | (intro _; dsimp only; split <;> rfl) | exact rfl | exact fun _ => rfl)
    | dsimp only

/-! Trace -/

theorem modRing_only {s : State} {r : Nat} {f : TRing → TRing} (hL : names L [.rings] = true) 
    (ho : s0.onlyChanges s L) : s0.onlyChanges (State.modRing s r f) L := by
  unfold State.modRing
  try dsimp only
  repeat' first
    | with_reducible assumption
    | (refine names_trans hL ?_
       try simp only [keyTypes, Nat.reduceMod]
       decide)
    | with_reducible first
      | refine names_cons ?_ ?_
      | refine only_ite ?_ ?_
      | refine only_ite_snd ?_ ?_
      | refine only_ite_fst ?_ ?_
    | split
    | (with_reducible refine modTrace_only (z := [.rings]) ?_ ?_ ?_ ?_ ?_ ?_ ?_
       · refine names_trans hL ?_
         first | decide | (refine names_of_subset ?_; simp; done)
       iterate 5 · first | with_reducible rfl | (intro _; with_reducible rfl) | exact fun h => not_free h rfl | (intro _; dsimp only; split <;> rfl) | exact rfl | exact fun _ => rfl)
    | dsimp only

theorem ringSync_only {s : State} {cause r : Nat} (hL : names L [.rings, .ringQ, .out, .xfers, .mbox] = true) 
    (ho : s0.onlyChanges s L) : s0.onlyChanges (State.ringSync s cause r) L := by
  unfold State.ringSync
  try dsimp only
  repeat' first
    | with_reducible assumption
    | (refine names_trans hL ?_
       try simp only [keyTypes, Nat.reduceMod]
       decide)
    | with_reducible first
      | refine names_cons ?_ ?_
      | refine only_ite ?_ ?_
      | refine only_ite_snd ?_ ?_
      | refine only_ite_fst ?_ ?_
      | refine modRing_only (hL := ?_) (ho := ?_)
      | refine ringPut_only (hL := ?_) (ho := ?_)
      | refine sendTyp_only (hL := ?_) (ho := ?_)
    | split
    | (with_reducible refine modTrace_only (z := [.rings]) ?_ ?_ ?_ ?_ ?_ ?_ ?_
       · refine names_trans hL ?_
         first | decide | (refine names_of_subset ?_; simp; done)
       iterate 5 · first | with_reducible rfl | (intro _; with_reducible rfl) | exact fun h => not_free h rfl | (intro _; dsimp only; split <;> rfl) | exact rfl | exact fun _ => rfl)
    | dsimp only

theorem syncAll_only {s : State} {cause : Nat} (hL : names L [.rings, .ringQ, .out, .xfers, .mbox] = true) 
    (ho : s0.onlyChanges s L) : s0.onlyChanges (State.syncAll s cause) L := by
  unfold State.syncAll
  try dsimp only
  repeat' first
    | with_reducible assumption
    | (refine names_trans hL ?_
       try simp only [keyTypes, Nat.reduceMod]
       decide)
    | with_reducible first
      | refine names_cons ?_ ?_
      | refine only_ite ?_ ?_
      | refine only_ite_snd ?_ ?_
      | refine only_ite_fst ?_ ?_
      | refine ringSync_only (hL := ?_) (ho := ?_)
      | refine only_foldl (fun u x hu => ?_) ?_
      | refine only_foldl_snd (fun u x hu => ?_) ?_
      | refine only_foldl_fst (fun u x hu => ?_) ?_
    | split
    | dsimp only

theorem funnelWrite_only {s : State} {p : TPacket} (hL : names L [.trace, .rings] = true) 
    (ho : s0.onlyChanges s L) : s0.onlyChanges (State.funnelWrite s p) L := by
  unfold State.funnelWrite
  try dsimp only
  repeat' first
    | with_reducible assumption
    | (refine names_trans hL ?_
       try simp only [keyTypes, Nat.reduceMod]
       decide)
    | with_reducible first
      | refine names_cons ?_ ?_
      | refine only_ite ?_ ?_
      | refine only_ite_snd ?_ ?_
      | refine only_ite_fst ?_ ?_
      | refine modRing_only (hL := ?_) (ho := ?_)
    | split
    | (with_reducible refine modTrace_only (z := [.trace, .rings]) ?_ ?_ ?_ ?_ ?_ ?_ ?_
       · refine names_trans hL ?_
         first | decide | (refine names_of_subset ?_; simp; done)
       iterate 5 · first | with_reducible rfl | (intro _; with_reducible rfl) | exact fun h => not_free h rfl | (intro _; dsimp only; split <;> rfl) | exact rfl | exact fun _ => rfl)
    | dsimp only

theorem trigOut_only {s : State} {code : Nat} (hL : names L [.trace] = true) 
    (ho : s0.onlyChanges s L) : s0.onlyChanges (State.trigOut s code) L := by
  unfold State.trigOut
  try dsimp only
  repeat' first
    | with_reducible assumption
    | (refine names_trans hL ?_
       try simp only [keyTypes, Nat.reduceMod]
       decide)
    | with_reducible first
      | refine names_cons ?_ ?_
      | refine only_ite ?_ ?_
      | refine only_ite_snd ?_ ?_
      | refine only_ite_fst ?_ ?_
    | split
    | (with_reducible refine modTrace_only (z := [.trace]) ?_ ?_ ?_ ?_ ?_ ?_ ?_
       · refine names_trans hL ?_
         first | decide | (refine names_of_subset ?_; simp; done)
       iterate 5 · first | with_reducible rfl | (intro _; with_reducible rfl) | exact fun h => not_free h rfl | (intro _; dsimp only; split <;> rfl) | exact rfl | exact fun _ => rfl)
    | dsimp only

theorem ringDrop_only {s : State} {r why : Nat} (hL : names L [.trace, .hdr 0x60, .word 0x60 (280 + 32 * r), .rings] = true) 
    (ho : s0.onlyChanges s L) : s0.onlyChanges (State.ringDrop s r why) L := by
  unfold State.ringDrop
  try dsimp only
  repeat' first
    | with_reducible assumption
    | (refine names_trans hL ?_
       try simp only [keyTypes, Nat.reduceMod]
       refine names_of_subset ?_
       simp
       done)
    | with_reducible first
      | refine names_cons ?_ ?_
      | refine only_ite ?_ ?_
      | refine only_ite_snd ?_ ?_
      | refine only_ite_fst ?_ ?_
      | refine trigOut_only (hL := ?_) (ho := ?_)
      | refine setErr_only (hL := ?_) (ho := ?_)
      | refine bump_only (hL := ?_) (ho := ?_)
      | refine modRing_only (hL := ?_) (ho := ?_)
    | split
    | (with_reducible refine modTrace_only (z := [.trace, .rings]) ?_ ?_ ?_ ?_ ?_ ?_ ?_
       · refine names_trans hL ?_
         first | decide | (refine names_of_subset ?_; simp; done)
       iterate 5 · first | with_reducible rfl | (intro _; with_reducible rfl) | exact fun h => not_free h rfl | (intro _; dsimp only; split <;> rfl) | exact rfl | exact fun _ => rfl)
    | dsimp only

theorem ringWrite_only {s : State} {r : Nat} {p : TPacket} (hL : names L [.hdr 0x60, .inj, .trace, .word 0x60 (280 + 32 * r), .rings, .ringQ, .out, .xfers, .mbox] = true) 
    (ho : s0.onlyChanges s L) : s0.onlyChanges (State.ringWrite s r p).2 L := by
  unfold State.ringWrite
  try dsimp only
  repeat' first
    | with_reducible assumption
    | (refine names_trans hL ?_
       try simp only [keyTypes, Nat.reduceMod]
       refine names_of_subset ?_
       simp
       done)
    | with_reducible first
      | refine names_cons ?_ ?_
      | refine only_ite ?_ ?_
      | refine only_ite_snd ?_ ?_
      | refine only_ite_fst ?_ ?_
      | refine injTake_only (hL := ?_) (ho := ?_)
      | refine ringDrop_only (hL := ?_) (ho := ?_)
      | refine ringPutOf_only (hL := ?_) (ho := ?_)
      | refine sendTyp_only (hL := ?_) (ho := ?_)
      | refine modRing_only (hL := ?_) (ho := ?_)
      | refine only_getD (fun t ht => ?_) ?_
    | split
    | (with_reducible refine modTrace_only (z := [.trace, .rings]) ?_ ?_ ?_ ?_ ?_ ?_ ?_
       · refine names_trans hL ?_
         first | decide | (refine names_of_subset ?_; simp; done)
       iterate 5 · first | with_reducible rfl | (intro _; with_reducible rfl) | exact fun h => not_free h rfl | (intro _; dsimp only; split <;> rfl) | exact rfl | exact fun _ => rfl)
    | dsimp only

theorem ringOffer_only {s : State} {p : TPacket} {r : Nat} (hL : names L [.hdr 0x60, .inj, .trace, .word 0x60 (280 + 32 * r), .rings, .ringQ, .out, .xfers, .mbox] = true) 
    (ho : s0.onlyChanges s L) : s0.onlyChanges (State.ringOffer s p r) L := by
  unfold State.ringOffer
  try dsimp only
  repeat' first
    | with_reducible assumption
    | (refine names_trans hL ?_
       try simp only [keyTypes, Nat.reduceMod]
       refine names_of_subset ?_
       simp
       done)
    | with_reducible first
      | refine names_cons ?_ ?_
      | refine only_ite ?_ ?_
      | refine only_ite_snd ?_ ?_
      | refine only_ite_fst ?_ ?_
      | refine ringWrite_only (hL := ?_) (ho := ?_)
      | refine modRing_only (hL := ?_) (ho := ?_)
      | refine ringDrop_only (hL := ?_) (ho := ?_)
    | split
    | (with_reducible refine modTrace_only (z := [.trace, .rings]) ?_ ?_ ?_ ?_ ?_ ?_ ?_
       · refine names_trans hL ?_
         first | decide | (refine names_of_subset ?_; simp; done)
       iterate 5 · first | with_reducible rfl | (intro _; with_reducible rfl) | exact fun h => not_free h rfl | (intro _; dsimp only; split <;> rfl) | exact rfl | exact fun _ => rfl)
    | dsimp only

theorem tracePwr_only {s : State} {state : Nat} {handshake : Bool} (hL : names L [.trace, .rings, .hdr 0x60, .inj, .regs 0x60, .ringQ, .out, .xfers, .mbox] = true) 
    (ho : s0.onlyChanges s L) : s0.onlyChanges (State.tracePwr s state handshake) L := by
  unfold State.tracePwr
  try dsimp only
  repeat' first
    | with_reducible assumption
    | (refine names_trans hL ?_
       try simp only [keyTypes, Nat.reduceMod]
       decide)
    | (refine names_trans hL ?_
       try simp only [keyTypes, Nat.reduceMod]
       refine names_trans (names_of_subset ?_) names_regs_word
       simp
       done)
    | with_reducible first
      | refine names_cons ?_ ?_
      | refine only_ite ?_ ?_
      | refine only_ite_snd ?_ ?_
      | refine only_ite_fst ?_ ?_
      | refine funnelWrite_only (hL := ?_) (ho := ?_)
      | refine ringOffer_only (hL := ?_) (ho := ?_)
      | refine only_foldl (fun u x hu => ?_) ?_
      | refine only_foldl_snd (fun u x hu => ?_) ?_
      | refine only_foldl_fst (fun u x hu => ?_) ?_
    | split
    | dsimp only

theorem traceLose_only {s : State} (hL : names L [.staged, .latches, .trace, .token, .hdr 0x60] = true) 
    (ho : s0.onlyChanges s L) : s0.onlyChanges (State.traceLose s) L := by
  unfold State.traceLose
  try dsimp only
  repeat' first
    | with_reducible assumption
    | (refine names_trans hL ?_
       try simp only [keyTypes, Nat.reduceMod]
       decide)
    | with_reducible first
      | refine names_cons ?_ ?_
      | refine only_ite ?_ ?_
      | refine only_ite_snd ?_ ?_
      | refine only_ite_fst ?_ ?_
      | refine setErr_only (hL := ?_) (ho := ?_)
    | split
    | (with_reducible refine modTrace_only (z := [.staged, .latches, .trace, .token]) ?_ ?_ ?_ ?_ ?_ ?_ ?_
       · refine names_trans hL ?_
         first | decide | (refine names_of_subset ?_; simp; done)
       iterate 5 · first | with_reducible rfl | (intro _; with_reducible rfl) | exact fun h => not_free h rfl | (intro _; dsimp only; split <;> rfl) | exact rfl | exact fun _ => rfl)
    | dsimp only

theorem sessionStart_only {s : State} (hL : names L [.hdr 0x60, .trace, .rings, .ringQ, .out, .xfers, .mbox] = true) 
    (ho : s0.onlyChanges s L) : s0.onlyChanges (State.sessionStart s) L := by
  unfold State.sessionStart
  try dsimp only
  repeat' first
    | with_reducible assumption
    | (refine names_trans hL ?_
       try simp only [keyTypes, Nat.reduceMod]
       decide)
    | with_reducible first
      | refine names_cons ?_ ?_
      | refine only_ite ?_ ?_
      | refine only_ite_snd ?_ ?_
      | refine only_ite_fst ?_ ?_
      | refine setStat_only (hL := ?_) (ho := ?_)
      | refine trigOut_only (hL := ?_) (ho := ?_)
      | refine syncAll_only (hL := ?_) (ho := ?_)
    | split
    | (with_reducible refine modTrace_only (z := [.trace, .rings]) ?_ ?_ ?_ ?_ ?_ ?_ ?_
       · refine names_trans hL ?_
         first | decide | (refine names_of_subset ?_; simp; done)
       iterate 5 · first | with_reducible rfl | (intro _; with_reducible rfl) | exact fun h => not_free h rfl | (intro _; dsimp only; split <;> rfl) | exact rfl | exact fun _ => rfl)
    | dsimp only

theorem execTraceStart_only (c : CmdIn) (s : State) : ∃ st', execTraceStart c s = .next st' ∧ s.onlyChanges st' [.out, .xfers, .lines, .inj, .cmds, .power, .bpwr, .word 0x50 0x54, .activity, .host, .tap, .regs 0x08, .hdr 0x08, .hdr 0x60, .trace, .rings, .ringQ, .mbox] := by
  refine ⟨_, rfl, only_start fun hL h0 => ?_⟩
  refine settle_only (names_of_subset (by simp)) ?_
  repeat' first
    | with_reducible first
      | exact h0
      | assumption
    | (refine names_trans hL ?_
       try simp only [keyTypes, Nat.reduceMod]
       decide)
    | (refine names_trans hL ?_
       try simp only [keyTypes, Nat.reduceMod]
       refine names_trans (names_of_subset ?_) names_regs_word
       simp
       done)
    | with_reducible first
      | refine names_cons ?_ ?_
      | refine only_ite ?_ ?_
      | refine only_ite_snd ?_ ?_
      | refine only_ite_fst ?_ ?_
      | refine runCmd_only (hL := ?_) (h_effect := fun u hu => ?_) (ho := ?_)
      | refine ok_only (hL := ?_) (ho := ?_)
      | refine sessionStart_only (hL := ?_) (ho := ?_)
    | split
    | dsimp only

theorem sessionStop_only {s : State} (hL : names L [.trace, .hdr 0x60] = true) 
    (ho : s0.onlyChanges s L) : s0.onlyChanges (State.sessionStop s) L := by
  unfold State.sessionStop
  try dsimp only
  repeat' first
    | with_reducible assumption
    | (refine names_trans hL ?_
       try simp only [keyTypes, Nat.reduceMod]
       decide)
    | with_reducible first
      | refine names_cons ?_ ?_
      | refine only_ite ?_ ?_
      | refine only_ite_snd ?_ ?_
      | refine only_ite_fst ?_ ?_
      | refine trigOut_only (hL := ?_) (ho := ?_)
      | refine setStat_only (hL := ?_) (ho := ?_)
    | split
    | (with_reducible refine modTrace_only (z := [.trace]) ?_ ?_ ?_ ?_ ?_ ?_ ?_
       · refine names_trans hL ?_
         first | decide | (refine names_of_subset ?_; simp; done)
       iterate 5 · first | with_reducible rfl | (intro _; with_reducible rfl) | exact fun h => not_free h rfl | (intro _; dsimp only; split <;> rfl) | exact rfl | exact fun _ => rfl)
    | dsimp only

theorem execTraceStop_only (c : CmdIn) (s : State) : ∃ st', execTraceStop c s = .next st' ∧ s.onlyChanges st' [.out, .xfers, .lines, .inj, .cmds, .power, .bpwr, .word 0x50 0x54, .activity, .host, .tap, .regs 0x08, .hdr 0x08, .trace, .hdr 0x60] := by
  refine ⟨_, rfl, only_start fun hL h0 => ?_⟩
  refine settle_only (names_of_subset (by simp)) ?_
  repeat' first
    | with_reducible first
      | exact h0
      | assumption
    | (refine names_trans hL ?_
       try simp only [keyTypes, Nat.reduceMod]
       decide)
    | (refine names_trans hL ?_
       try simp only [keyTypes, Nat.reduceMod]
       refine names_trans (names_of_subset ?_) names_regs_word
       simp
       done)
    | with_reducible first
      | refine names_cons ?_ ?_
      | refine only_ite ?_ ?_
      | refine only_ite_snd ?_ ?_
      | refine only_ite_fst ?_ ?_
      | refine runCmd_only (hL := ?_) (h_effect := fun u hu => ?_) (ho := ?_)
      | refine ok_only (hL := ?_) (ho := ?_)
      | refine sessionStop_only (hL := ?_) (ho := ?_)
    | split
    | dsimp only

theorem execTraceMark_only (c : CmdIn) (s : State) : ∃ st', execTraceMark c s = .next st' ∧ s.onlyChanges st' [.out, .xfers, .lines, .inj, .cmds, .power, .bpwr, .word 0x50 0x54, .activity, .host, .tap, .regs 0x08, .hdr 0x08, .staged] := by
  refine ⟨_, rfl, only_start fun hL h0 => ?_⟩
  refine settle_only (names_of_subset (by simp)) ?_
  repeat' first
    | with_reducible first
      | exact h0
      | assumption
    | (refine names_trans hL ?_
       try simp only [keyTypes, Nat.reduceMod]
       decide)
    | (refine names_trans hL ?_
       try simp only [keyTypes, Nat.reduceMod]
       refine names_trans (names_of_subset ?_) names_regs_word
       simp
       done)
    | with_reducible first
      | refine names_cons ?_ ?_
      | refine only_ite ?_ ?_
      | refine only_ite_snd ?_ ?_
      | refine only_ite_fst ?_ ?_
      | refine runCmd_only (hL := ?_) (h_effect := fun u hu => ?_) (ho := ?_)
      | refine ok_only (hL := ?_) (ho := ?_)
      | refine traceStage_only (hL := ?_) (ho := ?_)
    | split
    | dsimp only

theorem snuffTrig_only {s : State} {cause : SnuffCause} {scope : Nat} {init : BitVec 16} {port : Option Nat} (hL : names L [.snuff] = true) 
    (ho : s0.onlyChanges s L) : s0.onlyChanges (State.snuffTrig s cause scope init port) L := by
  unfold State.snuffTrig
  try dsimp only
  repeat' first
    | with_reducible assumption
    | (refine names_trans hL ?_
       try simp only [keyTypes, Nat.reduceMod]
       decide)
    | with_reducible first
      | refine names_cons ?_ ?_
      | refine only_ite ?_ ?_
      | refine only_ite_snd ?_ ?_
      | refine only_ite_fst ?_ ?_
    | split
    | (with_reducible refine only_snuff (z := [.snuff]) ?_ ?_ ?_
       · refine names_trans hL ?_
         first | decide | (refine names_of_subset ?_; simp; done)
       iterate 1 · first | with_reducible rfl | (intro _; with_reducible rfl) | exact fun h => not_free h rfl | (intro _; dsimp only; split <;> rfl) | exact rfl | exact fun _ => rfl)
    | dsimp only

theorem ringRetry_only {s : State} {r : Nat} (hL : names L [.hdr 0x60, .inj, .trace, .word 0x60 (280 + 32 * r), .rings, .ringQ, .out, .xfers, .mbox] = true) 
    (ho : s0.onlyChanges s L) : s0.onlyChanges (State.ringRetry s r) L := by
  unfold State.ringRetry
  try dsimp only
  repeat' first
    | with_reducible assumption
    | (refine names_trans hL ?_
       try simp only [keyTypes, Nat.reduceMod]
       refine names_of_subset ?_
       simp
       done)
    | with_reducible first
      | refine names_cons ?_ ?_
      | refine only_ite ?_ ?_
      | refine only_ite_snd ?_ ?_
      | refine only_ite_fst ?_ ?_
      | refine ringWrite_only (hL := ?_) (ho := ?_)
      | refine modRing_only (hL := ?_) (ho := ?_)
    | split
    | (with_reducible refine modTrace_only (z := [.trace, .rings]) ?_ ?_ ?_ ?_ ?_ ?_ ?_
       · refine names_trans hL ?_
         first | decide | (refine names_of_subset ?_; simp; done)
       iterate 5 · first | with_reducible rfl | (intro _; with_reducible rfl) | exact fun h => not_free h rfl | (intro _; dsimp only; split <;> rfl) | exact rfl | exact fun _ => rfl)
    | dsimp only

theorem tokenLose_only {s : State} (hL : names L [.hdr 0x60, .token] = true) 
    (ho : s0.onlyChanges s L) : s0.onlyChanges (State.tokenLose s) L := by
  unfold State.tokenLose
  try dsimp only
  repeat' first
    | with_reducible assumption
    | (refine names_trans hL ?_
       try simp only [keyTypes, Nat.reduceMod]
       decide)
    | with_reducible first
      | refine names_cons ?_ ?_
      | refine only_ite ?_ ?_
      | refine only_ite_snd ?_ ?_
      | refine only_ite_fst ?_ ?_
      | refine setErr_only (hL := ?_) (ho := ?_)
    | split
    | (with_reducible refine modTrace_only (z := [.token]) ?_ ?_ ?_ ?_ ?_ ?_ ?_
       · refine names_trans hL ?_
         first | decide | (refine names_of_subset ?_; simp; done)
       iterate 5 · first | with_reducible rfl | (intro _; with_reducible rfl) | exact fun h => not_free h rfl | (intro _; dsimp only; split <;> rfl) | exact rfl | exact fun _ => rfl)
    | dsimp only

theorem traceWake_only {s : State} {lost : Nat} (hL : names L [.rings] = true) 
    (ho : s0.onlyChanges s L) : s0.onlyChanges (State.traceWake s lost) L := by
  unfold State.traceWake
  try dsimp only
  repeat' first
    | with_reducible assumption
    | (refine names_trans hL ?_
       try simp only [keyTypes, Nat.reduceMod]
       decide)
    | with_reducible first
      | refine names_cons ?_ ?_
      | refine only_ite ?_ ?_
      | refine only_ite_snd ?_ ?_
      | refine only_ite_fst ?_ ?_
      | refine modRing_only (hL := ?_) (ho := ?_)
      | refine only_foldl (fun u x hu => ?_) ?_
      | refine only_foldl_snd (fun u x hu => ?_) ?_
      | refine only_foldl_fst (fun u x hu => ?_) ?_
    | split
    | (with_reducible refine modTrace_only (z := [.rings]) ?_ ?_ ?_ ?_ ?_ ?_ ?_
       · refine names_trans hL ?_
         first | decide | (refine names_of_subset ?_; simp; done)
       iterate 5 · first | with_reducible rfl | (intro _; with_reducible rfl) | exact fun h => not_free h rfl | (intro _; dsimp only; split <;> rfl) | exact rfl | exact fun _ => rfl)
    | dsimp only

theorem traceTick_only {s : State} (hL : names L [.trace, .hdr 0x60, .token] = true) 
    (ho : s0.onlyChanges s L) : s0.onlyChanges (State.traceTick s) L := by
  unfold State.traceTick
  try dsimp only
  repeat' first
    | with_reducible assumption
    | (refine names_trans hL ?_
       try simp only [keyTypes, Nat.reduceMod]
       decide)
    | with_reducible first
      | refine names_cons ?_ ?_
      | refine only_ite ?_ ?_
      | refine only_ite_snd ?_ ?_
      | refine only_ite_fst ?_ ?_
      | refine trigOut_only (hL := ?_) (ho := ?_)
      | refine setErr_only (hL := ?_) (ho := ?_)
    | split
    | (with_reducible refine modTrace_only (z := [.trace, .token]) ?_ ?_ ?_ ?_ ?_ ?_ ?_
       · refine names_trans hL ?_
         first | decide | (refine names_of_subset ?_; simp; done)
       iterate 5 · first | with_reducible rfl | (intro _; with_reducible rfl) | exact fun h => not_free h rfl | (intro _; dsimp only; split <;> rfl) | exact rfl | exact fun _ => rfl)
    | dsimp only

theorem placePacket_only {s : State} {p : TPacket} (hL : names L [.hdr 0x60, .inj, .trace, .regs 0x60, .rings, .ringQ, .out, .xfers, .mbox] = true) 
    (ho : s0.onlyChanges s L) : s0.onlyChanges (State.placePacket s p) L := by
  unfold State.placePacket
  try dsimp only
  repeat' first
    | with_reducible assumption
    | (refine names_trans hL ?_
       try simp only [keyTypes, Nat.reduceMod]
       decide)
    | (refine names_trans hL ?_
       try simp only [keyTypes, Nat.reduceMod]
       refine names_trans (names_of_subset ?_) names_regs_word
       simp
       done)
    | with_reducible first
      | refine names_cons ?_ ?_
      | refine only_ite ?_ ?_
      | refine only_ite_snd ?_ ?_
      | refine only_ite_fst ?_ ?_
      | refine ringOffer_only (hL := ?_) (ho := ?_)
      | refine funnelWrite_only (hL := ?_) (ho := ?_)
      | refine only_foldl (fun u x hu => ?_) ?_
      | refine only_foldl_snd (fun u x hu => ?_) ?_
      | refine only_foldl_fst (fun u x hu => ?_) ?_
    | split
    | (with_reducible refine modTrace_only (z := [.trace, .rings]) ?_ ?_ ?_ ?_ ?_ ?_ ?_
       · refine names_trans hL ?_
         first | decide | (refine names_of_subset ?_; simp; done)
       iterate 5 · first | with_reducible rfl | (intro _; with_reducible rfl) | exact fun h => not_free h rfl | (intro _; dsimp only; split <;> rfl) | exact rfl | exact fun _ => rfl)
    | dsimp only

theorem modLatch_only {s : State} {p : Nat} {f : TLatch → TLatch} (hL : names L [.latches] = true) 
    (ho : s0.onlyChanges s L) : s0.onlyChanges (State.modLatch s p f) L := by
  unfold State.modLatch
  try dsimp only
  repeat' first
    | with_reducible assumption
    | (refine names_trans hL ?_
       try simp only [keyTypes, Nat.reduceMod]
       decide)
    | with_reducible first
      | refine names_cons ?_ ?_
      | refine only_ite ?_ ?_
      | refine only_ite_snd ?_ ?_
      | refine only_ite_fst ?_ ?_
    | split
    | (with_reducible refine modTrace_only (z := [.latches]) ?_ ?_ ?_ ?_ ?_ ?_ ?_
       · refine names_trans hL ?_
         first | decide | (refine names_of_subset ?_; simp; done)
       iterate 5 · first | with_reducible rfl | (intro _; with_reducible rfl) | exact fun h => not_free h rfl | (intro _; dsimp only; split <;> rfl) | exact rfl | exact fun _ => rfl)
    | dsimp only

theorem latchPacket_only {s : State} {p : Nat} {q : TPacket} (hL : names L [.latches, .hdr 0x60, .probes] = true) 
    (ho : s0.onlyChanges s L) : s0.onlyChanges (State.latchPacket s p q) L := by
  unfold State.latchPacket
  try dsimp only
  repeat' first
    | with_reducible assumption
    | (refine names_trans hL ?_
       try simp only [keyTypes, Nat.reduceMod]
       decide)
    | with_reducible first
      | refine names_cons ?_ ?_
      | refine only_ite ?_ ?_
      | refine only_ite_snd ?_ ?_
      | refine only_ite_fst ?_ ?_
      | refine modLatch_only (hL := ?_) (ho := ?_)
      | refine setErr_only (hL := ?_) (ho := ?_)
      | refine raiseGate_only (hL := ?_) (ho := ?_)
    | split
    | (with_reducible refine modTrace_only (z := [.latches]) ?_ ?_ ?_ ?_ ?_ ?_ ?_
       · refine names_trans hL ?_
         first | decide | (refine names_of_subset ?_; simp; done)
       iterate 5 · first | with_reducible rfl | (intro _; with_reducible rfl) | exact fun h => not_free h rfl | (intro _; dsimp only; split <;> rfl) | exact rfl | exact fun _ => rfl)
    | dsimp only

theorem traceEdge_only {s : State} {p : Nat} {st : UnitState} {reason : BitVec 3} (hL : names L [.latches, .hdr 0x60, .probes] = true) 
    (ho : s0.onlyChanges s L) : s0.onlyChanges (State.traceEdge s p st reason) L := by
  unfold State.traceEdge
  try dsimp only
  repeat' first
    | with_reducible assumption
    | (refine names_trans hL ?_
       try simp only [keyTypes, Nat.reduceMod]
       decide)
    | with_reducible first
      | refine names_cons ?_ ?_
      | refine only_ite ?_ ?_
      | refine only_ite_snd ?_ ?_
      | refine only_ite_fst ?_ ?_
      | refine modLatch_only (hL := ?_) (ho := ?_)
      | refine latchPacket_only (hL := ?_) (ho := ?_)
    | split
    | (with_reducible refine modTrace_only (z := [.latches]) ?_ ?_ ?_ ?_ ?_ ?_ ?_
       · refine names_trans hL ?_
         first | decide | (refine names_of_subset ?_; simp; done)
       iterate 5 · first | with_reducible rfl | (intro _; with_reducible rfl) | exact fun h => not_free h rfl | (intro _; dsimp only; split <;> rfl) | exact rfl | exact fun _ => rfl)
    | dsimp only

theorem latchOut_only {s : State} {p : Nat} (hL : names L [.latches, .probes, .hdr 0x60, .inj, .trace, .regs 0x60, .rings, .ringQ, .out, .xfers, .mbox] = true) 
    (ho : s0.onlyChanges s L) : s0.onlyChanges (State.latchOut s p) L := by
  unfold State.latchOut
  try dsimp only
  repeat' first
    | with_reducible assumption
    | (refine names_trans hL ?_
       try simp only [keyTypes, Nat.reduceMod]
       decide)
    | (refine names_trans hL ?_
       try simp only [keyTypes, Nat.reduceMod]
       refine names_trans (names_of_subset ?_) names_regs_word
       simp
       done)
    | with_reducible first
      | refine names_cons ?_ ?_
      | refine only_ite ?_ ?_
      | refine only_ite_snd ?_ ?_
      | refine only_ite_fst ?_ ?_
      | refine modLatch_only (hL := ?_) (ho := ?_)
      | refine lowerGate_only (hL := ?_) (ho := ?_)
      | refine placePacket_only (hL := ?_) (ho := ?_)
      | refine only_foldl (fun u x hu => ?_) ?_
      | refine only_foldl_snd (fun u x hu => ?_) ?_
      | refine only_foldl_fst (fun u x hu => ?_) ?_
    | split
    | (with_reducible refine modTrace_only (z := [.latches, .trace, .rings]) ?_ ?_ ?_ ?_ ?_ ?_ ?_
       · refine names_trans hL ?_
         first | decide | (refine names_of_subset ?_; simp; done)
       iterate 5 · first | with_reducible rfl | (intro _; with_reducible rfl) | exact fun h => not_free h rfl | (intro _; dsimp only; split <;> rfl) | exact rfl | exact fun _ => rfl)
    | dsimp only

theorem traceVerdict_only {s : State} {code : Byte} (hL : names L [.trace] = true) 
    (ho : s0.onlyChanges s L) : s0.onlyChanges (State.traceVerdict s code) L := by
  unfold State.traceVerdict
  try dsimp only
  repeat' first
    | with_reducible assumption
    | (refine names_trans hL ?_
       try simp only [keyTypes, Nat.reduceMod]
       decide)
    | with_reducible first
      | refine names_cons ?_ ?_
      | refine only_ite ?_ ?_
      | refine only_ite_snd ?_ ?_
      | refine only_ite_fst ?_ ?_
      | refine trigOut_only (hL := ?_) (ho := ?_)
    | split
    | (with_reducible refine modTrace_only (z := [.trace]) ?_ ?_ ?_ ?_ ?_ ?_ ?_
       · refine names_trans hL ?_
         first | decide | (refine names_of_subset ?_; simp; done)
       iterate 5 · first | with_reducible rfl | (intro _; with_reducible rfl) | exact fun h => not_free h rfl | (intro _; dsimp only; split <;> rfl) | exact rfl | exact fun _ => rfl)
    | dsimp only

theorem execTracePacketPlace_only (probe : Option Nat) (s : State) : ∃ st', execTracePacketPlace probe s = .next st' ∧ s.onlyChanges st' [.hdr 0x60, .inj, .trace, .regs 0x60, .rings, .ringQ, .out, .xfers, .mbox, .lines, .latches, .probes, .staged] := by
  refine ⟨_, rfl, only_start fun hL h0 => ?_⟩
  refine settle_only (names_of_subset (by simp)) ?_
  repeat' first
    | with_reducible first
      | exact h0
      | assumption
    | (refine names_trans hL ?_
       try simp only [keyTypes, Nat.reduceMod]
       decide)
    | (refine names_trans hL ?_
       try simp only [keyTypes, Nat.reduceMod]
       refine names_trans (names_of_subset ?_) names_regs_word
       simp
       done)
    | with_reducible first
      | refine names_cons ?_ ?_
      | refine only_ite ?_ ?_
      | refine only_ite_snd ?_ ?_
      | refine only_ite_fst ?_ ?_
      | refine ringRetry_only (hL := ?_) (ho := ?_)
      | refine latchOut_only (hL := ?_) (ho := ?_)
      | refine placePacket_only (hL := ?_) (ho := ?_)
      | refine only_foldl (fun u x hu => ?_) ?_
      | refine only_foldl_snd (fun u x hu => ?_) ?_
      | refine only_foldl_fst (fun u x hu => ?_) ?_
    | split
    | (with_reducible refine modTrace_only (z := [.trace, .rings, .latches, .staged]) ?_ ?_ ?_ ?_ ?_ ?_ ?_
       · refine names_trans hL ?_
         first | decide | (refine names_of_subset ?_; simp; done)
       iterate 5 · first | with_reducible rfl | (intro _; with_reducible rfl) | exact fun h => not_free h rfl | (intro _; dsimp only; split <;> rfl) | exact rfl | exact fun _ => rfl)
    | dsimp only

theorem execTraceSyncTimer_only (s : State) : ∃ st', execTraceSyncTimer s = .next st' ∧ s.onlyChanges st' [.now, .out, .xfers, .lines, .inj, .rings, .ringQ, .mbox, .trace] := by
  refine ⟨_, rfl, only_start fun hL h0 => ?_⟩
  refine settle_only (names_of_subset (by simp)) ?_
  repeat' first
    | with_reducible first
      | exact h0
      | assumption
    | (refine names_trans hL ?_
       try simp only [keyTypes, Nat.reduceMod]
       decide)
    | with_reducible first
      | refine names_cons ?_ ?_
      | refine only_ite ?_ ?_
      | refine only_ite_snd ?_ ?_
      | refine only_ite_fst ?_ ?_
      | refine advanceTo_only (hL := ?_) (ho := ?_)
      | refine syncAll_only (hL := ?_) (ho := ?_)
    | split
    | (with_reducible refine modTrace_only (z := [.rings, .trace]) ?_ ?_ ?_ ?_ ?_ ?_ ?_
       · refine names_trans hL ?_
         first | decide | (refine names_of_subset ?_; simp; done)
       iterate 5 · first | with_reducible rfl | (intro _; with_reducible rfl) | exact fun h => not_free h rfl | (intro _; dsimp only; split <;> rfl) | exact rfl | exact fun _ => rfl)
    | dsimp only

theorem execTraceStallLimit_only (ring : Nat) (s : State) : ∃ st', execTraceStallLimit ring s = .next st' ∧ s.onlyChanges st' [.out, .xfers, .lines, .inj, .now, .hdr 0x60, .trace, .word 0x60 (280 + 32 * ring), .rings] := by
  refine ⟨_, rfl, only_start fun hL h0 => ?_⟩
  refine settle_only (names_of_subset (by simp)) ?_
  repeat' first
    | with_reducible first
      | exact h0
      | assumption
    | (refine names_trans hL ?_
       try simp only [keyTypes, Nat.reduceMod]
       refine names_of_subset ?_
       simp
       done)
    | with_reducible first
      | refine names_cons ?_ ?_
      | refine only_ite ?_ ?_
      | refine only_ite_snd ?_ ?_
      | refine only_ite_fst ?_ ?_
      | refine advanceTo_only (hL := ?_) (ho := ?_)
      | refine setErr_only (hL := ?_) (ho := ?_)
      | refine ringDrop_only (hL := ?_) (ho := ?_)
      | refine modRing_only (hL := ?_) (ho := ?_)
    | split
    | (with_reducible refine modTrace_only (z := [.trace, .rings]) ?_ ?_ ?_ ?_ ?_ ?_ ?_
       · refine names_trans hL ?_
         first | decide | (refine names_of_subset ?_; simp; done)
       iterate 5 · first | with_reducible rfl | (intro _; with_reducible rfl) | exact fun h => not_free h rfl | (intro _; dsimp only; split <;> rfl) | exact rfl | exact fun _ => rfl)
    | dsimp only

theorem execTrace_only (src : BitVec 16) (bytes : List Byte) (s : State) : ∃ st', execTrace src bytes s = .next st' ∧ s.onlyChanges st' [.out, .xfers, .lines, .inj, .hdr 0x60, .trace, .regs 0x60, .rings, .ringQ, .mbox] := by
  refine ⟨_, rfl, only_start fun hL h0 => ?_⟩
  refine settle_only (names_of_subset (by simp)) ?_
  repeat' first
    | with_reducible first
      | exact h0
      | assumption
    | (refine names_trans hL ?_
       try simp only [keyTypes, Nat.reduceMod]
       decide)
    | (refine names_trans hL ?_
       try simp only [keyTypes, Nat.reduceMod]
       refine names_trans (names_of_subset ?_) names_regs_word
       simp
       done)
    | with_reducible first
      | refine names_cons ?_ ?_
      | refine only_ite ?_ ?_
      | refine only_ite_snd ?_ ?_
      | refine only_ite_fst ?_ ?_
      | refine placePacket_only (hL := ?_) (ho := ?_)
      | refine only_foldl (fun u x hu => ?_) ?_
      | refine only_foldl_snd (fun u x hu => ?_) ?_
      | refine only_foldl_fst (fun u x hu => ?_) ?_
    | split
    | dsimp only

theorem execTraceSessionStart_only (s : State) : ∃ st', execTraceSessionStart s = .next st' ∧ s.onlyChanges st' [.out, .xfers, .lines, .inj, .hdr 0x60, .trace, .rings, .ringQ, .mbox, .now] := by
  refine ⟨_, rfl, only_start fun hL h0 => ?_⟩
  refine settle_only (names_of_subset (by simp)) ?_
  repeat' first
    | with_reducible first
      | exact h0
      | assumption
    | (refine names_trans hL ?_
       try simp only [keyTypes, Nat.reduceMod]
       decide)
    | with_reducible first
      | refine names_cons ?_ ?_
      | refine only_ite ?_ ?_
      | refine only_ite_snd ?_ ?_
      | refine only_ite_fst ?_ ?_
      | refine sessionStart_only (hL := ?_) (ho := ?_)
      | refine advanceTo_only (hL := ?_) (ho := ?_)
    | split
    | (with_reducible refine modTrace_only (z := [.trace, .rings]) ?_ ?_ ?_ ?_ ?_ ?_ ?_
       · refine names_trans hL ?_
         first | decide | (refine names_of_subset ?_; simp; done)
       iterate 5 · first | with_reducible rfl | (intro _; with_reducible rfl) | exact fun h => not_free h rfl | (intro _; dsimp only; split <;> rfl) | exact rfl | exact fun _ => rfl)
    | dsimp only

theorem execTraceSessionStop_only (s : State) : ∃ st', execTraceSessionStop s = .next st' ∧ s.onlyChanges st' [.out, .xfers, .lines, .inj, .trace, .hdr 0x60, .now] := by
  refine ⟨_, rfl, only_start fun hL h0 => ?_⟩
  refine settle_only (names_of_subset (by simp)) ?_
  repeat' first
    | with_reducible first
      | exact h0
      | assumption
    | (refine names_trans hL ?_
       try simp only [keyTypes, Nat.reduceMod]
       decide)
    | with_reducible first
      | refine names_cons ?_ ?_
      | refine only_ite ?_ ?_
      | refine only_ite_snd ?_ ?_
      | refine only_ite_fst ?_ ?_
      | refine sessionStop_only (hL := ?_) (ho := ?_)
      | refine advanceTo_only (hL := ?_) (ho := ?_)
    | split
    | (with_reducible refine modTrace_only (z := [.trace]) ?_ ?_ ?_ ?_ ?_ ?_ ?_
       · refine names_trans hL ?_
         first | decide | (refine names_of_subset ?_; simp; done)
       iterate 5 · first | with_reducible rfl | (intro _; with_reducible rfl) | exact fun h => not_free h rfl | (intro _; dsimp only; split <;> rfl) | exact rfl | exact fun _ => rfl)
    | dsimp only

theorem execTrigIn_only (line : BitVec 2) (rising : Bool) (ts : Nat) (s : State) : ∃ st', execTrigIn line rising ts s = .next st' ∧ s.onlyChanges st' [.now, .staged, .out, .xfers, .lines, .inj, .trace, .snuff] := by
  refine ⟨_, rfl, only_start fun hL h0 => ?_⟩
  refine settle_only (names_of_subset (by simp)) ?_
  repeat' first
    | with_reducible first
      | exact h0
      | assumption
    | (refine names_trans hL ?_
       try simp only [keyTypes, Nat.reduceMod]
       decide)
    | with_reducible first
      | refine names_cons ?_ ?_
      | refine only_ite ?_ ?_
      | refine only_ite_snd ?_ ?_
      | refine only_ite_fst ?_ ?_
      | refine advanceTo_only (hL := ?_) (ho := ?_)
      | refine traceStage_only (hL := ?_) (ho := ?_)
      | refine snuffTrig_only (hL := ?_) (ho := ?_)
    | split
    | (with_reducible refine modTrace_only (z := [.staged, .trace]) ?_ ?_ ?_ ?_ ?_ ?_ ?_
       · refine names_trans hL ?_
         first | decide | (refine names_of_subset ?_; simp; done)
       iterate 5 · first | with_reducible rfl | (intro _; with_reducible rfl) | exact fun h => not_free h rfl | (intro _; dsimp only; split <;> rfl) | exact rfl | exact fun _ => rfl)
    | dsimp only

theorem execTrigOutPulse_only (line : BitVec 2) (s : State) : ∃ st', execTrigOutPulse line s = .next st' ∧ s.onlyChanges st' [.out, .xfers, .lines, .inj, .trace, .staged] := by
  refine ⟨_, rfl, only_start fun hL h0 => ?_⟩
  refine settle_only (names_of_subset (by simp)) ?_
  repeat' first
    | with_reducible first
      | exact h0
      | assumption
    | (refine names_trans hL ?_
       try simp only [keyTypes, Nat.reduceMod]
       decide)
    | with_reducible first
      | refine names_cons ?_ ?_
      | refine only_ite ?_ ?_
      | refine only_ite_snd ?_ ?_
      | refine only_ite_fst ?_ ?_
      | refine traceStage_only (hL := ?_) (ho := ?_)
    | split
    | (with_reducible refine modTrace_only (z := [.trace, .staged]) ?_ ?_ ?_ ?_ ?_ ?_ ?_
       · refine names_trans hL ?_
         first | decide | (refine names_of_subset ?_; simp; done)
       iterate 5 · first | with_reducible rfl | (intro _; with_reducible rfl) | exact fun h => not_free h rfl | (intro _; dsimp only; split <;> rfl) | exact rfl | exact fun _ => rfl)
    | dsimp only

theorem execTrigOutEnd_only (line : BitVec 2) (s : State) : ∃ st', execTrigOutEnd line s = .next st' ∧ s.onlyChanges st' [.out, .xfers, .lines, .inj, .now, .trace, .staged] := by
  refine ⟨_, rfl, only_start fun hL h0 => ?_⟩
  refine settle_only (names_of_subset (by simp)) ?_
  repeat' first
    | with_reducible first
      | exact h0
      | assumption
    | (refine names_trans hL ?_
       try simp only [keyTypes, Nat.reduceMod]
       decide)
    | with_reducible first
      | refine names_cons ?_ ?_
      | refine only_ite ?_ ?_
      | refine only_ite_snd ?_ ?_
      | refine only_ite_fst ?_ ?_
      | refine advanceTo_only (hL := ?_) (ho := ?_)
      | refine traceStage_only (hL := ?_) (ho := ?_)
    | split
    | (with_reducible refine modTrace_only (z := [.trace, .staged]) ?_ ?_ ?_ ?_ ?_ ?_ ?_
       · refine names_trans hL ?_
         first | decide | (refine names_of_subset ?_; simp; done)
       iterate 5 · first | with_reducible rfl | (intro _; with_reducible rfl) | exact fun h => not_free h rfl | (intro _; dsimp only; split <;> rfl) | exact rfl | exact fun _ => rfl)
    | dsimp only

/-! UnitWin -/

theorem snapHold_only {s : State} (hL : names L [.snap, .heldRecs] = true) 
    (ho : s0.onlyChanges s L) : s0.onlyChanges (State.snapHold s) L := by
  unfold State.snapHold
  try dsimp only
  repeat' first
    | with_reducible assumption
    | (refine names_trans hL ?_
       try simp only [keyTypes, Nat.reduceMod]
       decide)
    | with_reducible first
      | refine names_cons ?_ ?_
      | refine only_ite ?_ ?_
      | refine only_ite_snd ?_ ?_
      | refine only_ite_fst ?_ ?_
      | refine only_foldl (fun u x hu => ?_) ?_
      | refine only_foldl_snd (fun u x hu => ?_) ?_
      | refine only_foldl_fst (fun u x hu => ?_) ?_
    | split
    | (with_reducible refine only_pages (z := [.snap]) ?_ ?_ ?_ ?_ ?_ ?_ ?_ ?_ ?_ ?_
       · refine names_trans hL ?_
         first | decide | (refine names_of_subset ?_; simp; done)
       iterate 8 · first | with_reducible rfl | (intro _; with_reducible rfl) | exact fun h => not_free h rfl | (intro _; dsimp only; split <;> rfl) | exact rfl | exact fun _ => rfl)
    | (with_reducible refine only_samp (z := [.heldRecs]) ?_ ?_ ?_ ?_ ?_ ?_ ?_ ?_ ?_
       · refine names_trans hL ?_
         first | decide | (refine names_of_subset ?_; simp; done)
       iterate 7 · first | with_reducible rfl | (intro _; with_reducible rfl) | exact fun h => not_free h rfl | (intro _; dsimp only; split <;> rfl) | exact rfl | exact fun _ => rfl)
    | (with_reducible refine only_mk (z := [.snap, .heldRecs]) hL ?_ ?_
       · intro p hp
         cases p <;> first | (dsimp only [Part.same]; done) | (dsimp only [Part.same, State.reg, State.hdr]; intro _ _; with_reducible rfl) | exact not_free (free_of_outside hp) (by decide) | exact not_free (free_of_outside hp) rfl | exact trivial | (dsimp only [Part.same]; split <;> rfl))
    | dsimp only

theorem snapClose_only {s : State} (hL : names L [.snap, .heldRecs] = true) 
    (ho : s0.onlyChanges s L) : s0.onlyChanges (State.snapClose s) L := by
  unfold State.snapClose
  try dsimp only
  repeat' first
    | with_reducible assumption
    | (refine names_trans hL ?_
       try simp only [keyTypes, Nat.reduceMod]
       decide)
    | with_reducible first
      | refine names_cons ?_ ?_
      | refine only_ite ?_ ?_
      | refine only_ite_snd ?_ ?_
      | refine only_ite_fst ?_ ?_
      | refine snapHold_only (hL := ?_) (ho := ?_)
    | split
    | dsimp only

theorem snapTake_only {s : State} (hL : names L [.snap, .heldRecs] = true) 
    (ho : s0.onlyChanges s L) : s0.onlyChanges (State.snapTake s) L := by
  unfold State.snapTake
  try dsimp only
  repeat' first
    | with_reducible assumption
    | (refine names_trans hL ?_
       try simp only [keyTypes, Nat.reduceMod]
       decide)
    | with_reducible first
      | refine names_cons ?_ ?_
      | refine only_ite ?_ ?_
      | refine only_ite_snd ?_ ?_
      | refine only_ite_fst ?_ ?_
      | refine snapHold_only (hL := ?_) (ho := ?_)
    | split
    | (with_reducible refine only_pages (z := [.snap]) ?_ ?_ ?_ ?_ ?_ ?_ ?_ ?_ ?_ ?_
       · refine names_trans hL ?_
         first | decide | (refine names_of_subset ?_; simp; done)
       iterate 8 · first | with_reducible rfl | (intro _; with_reducible rfl) | exact fun h => not_free h rfl | (intro _; dsimp only; split <;> rfl) | exact rfl | exact fun _ => rfl)
    | dsimp only

/-! Tiles -/

theorem kernelChanged_only {s : State} (hL : names L [.gens, .meas] = true) 
    (ho : s0.onlyChanges s L) : s0.onlyChanges (State.kernelChanged s) L := by
  unfold State.kernelChanged
  try dsimp only
  repeat' first
    | with_reducible assumption
    | (refine names_trans hL ?_
       try simp only [keyTypes, Nat.reduceMod]
       decide)
    | with_reducible first
      | refine names_cons ?_ ?_
      | refine only_ite ?_ ?_
      | refine only_ite_snd ?_ ?_
      | refine only_ite_fst ?_ ?_
      | refine measure_only (hL := ?_) (ho := ?_)
    | split
    | dsimp only

theorem poisonStore_only {s : State} {b : List Byte} (hL : names L [.ringQ, .out, .xfers, .notices, .mbox, .word 0x28 0xC4] = true) 
    (ho : s0.onlyChanges s L) : s0.onlyChanges (State.poisonStore s b) L := by
  unfold State.poisonStore
  try dsimp only
  repeat' first
    | with_reducible assumption
    | (refine names_trans hL ?_
       try simp only [keyTypes, Nat.reduceMod]
       decide)
    | with_reducible first
      | refine names_cons ?_ ?_
      | refine only_ite ?_ ?_
      | refine only_ite_snd ?_ ?_
      | refine only_ite_fst ?_ ?_
      | refine ringPut_only (hL := ?_) (ho := ?_)
      | refine poisonAck_only (hL := ?_) (ho := ?_)
      | refine bump_only (hL := ?_) (ho := ?_)
    | split
    | (with_reducible refine modCheck_only (z := [.notices]) ?_ ?_ ?_ ?_ ?_ ?_ ?_ ?_ ?_
       · refine names_trans hL ?_
         first | decide | (refine names_of_subset ?_; simp; done)
       iterate 7 · first | with_reducible rfl | (intro _; with_reducible rfl) | exact fun h => not_free h rfl | (intro _; dsimp only; split <;> rfl) | exact rfl | exact fun _ => rfl)
    | dsimp only

theorem poisonSend_only {s : State} {n : NoticeArgs} (hL : names L [.notices, .ringQ, .out, .xfers, .mbox, .word 0x28 0xC4] = true) 
    (ho : s0.onlyChanges s L) : s0.onlyChanges (State.poisonSend s n) L := by
  unfold State.poisonSend
  try dsimp only
  repeat' first
    | with_reducible assumption
    | (refine names_trans hL ?_
       try simp only [keyTypes, Nat.reduceMod]
       decide)
    | with_reducible first
      | refine names_cons ?_ ?_
      | refine only_ite ?_ ?_
      | refine only_ite_snd ?_ ?_
      | refine only_ite_fst ?_ ?_
      | refine poisonStore_only (hL := ?_) (ho := ?_)
      | refine sendTyp_only (hL := ?_) (ho := ?_)
      | refine only_foldl (fun u x hu => ?_) ?_
      | refine only_foldl_snd (fun u x hu => ?_) ?_
      | refine only_foldl_fst (fun u x hu => ?_) ?_
    | split
    | (with_reducible refine modCheck_only (z := [.notices]) ?_ ?_ ?_ ?_ ?_ ?_ ?_ ?_ ?_
       · refine names_trans hL ?_
         first | decide | (refine names_of_subset ?_; simp; done)
       iterate 7 · first | with_reducible rfl | (intro _; with_reducible rfl) | exact fun h => not_free h rfl | (intro _; dsimp only; split <;> rfl) | exact rfl | exact fun _ => rfl)
    | dsimp only

theorem unfenceClose_only {s : State} (hL : names L [.probes, .kats] = true) 
    (ho : s0.onlyChanges s L) : s0.onlyChanges (State.unfenceClose s) L := by
  unfold State.unfenceClose
  try dsimp only
  repeat' first
    | with_reducible assumption
    | (refine names_trans hL ?_
       try simp only [keyTypes, Nat.reduceMod]
       decide)
    | with_reducible first
      | refine names_cons ?_ ?_
      | refine only_ite ?_ ?_
      | refine only_ite_snd ?_ ?_
      | refine only_ite_fst ?_ ?_
      | refine modProbe_only (hL := ?_) (ho := ?_)
      | refine setProbe_only (hL := ?_) (ho := ?_)
      | refine only_foldl (fun u x hu => ?_) ?_
      | refine only_foldl_snd (fun u x hu => ?_) ?_
      | refine only_foldl_fst (fun u x hu => ?_) ?_
    | split
    | (with_reducible refine modCheck_only (z := [.kats]) ?_ ?_ ?_ ?_ ?_ ?_ ?_ ?_ ?_
       · refine names_trans hL ?_
         first | decide | (refine names_of_subset ?_; simp; done)
       iterate 7 · first | with_reducible rfl | (intro _; with_reducible rfl) | exact fun h => not_free h rfl | (intro _; dsimp only; split <;> rfl) | exact rfl | exact fun _ => rfl)
    | dsimp only

theorem checkEpoch_only {s : State} {no : Nat} (hL : names L [.taint] = true) 
    (ho : s0.onlyChanges s L) : s0.onlyChanges (State.checkEpoch s no) L := by
  unfold State.checkEpoch
  try dsimp only
  repeat' first
    | with_reducible assumption
    | (refine names_trans hL ?_
       try simp only [keyTypes, Nat.reduceMod]
       decide)
    | with_reducible first
      | refine names_cons ?_ ?_
      | refine only_ite ?_ ?_
      | refine only_ite_snd ?_ ?_
      | refine only_ite_fst ?_ ?_
    | split
    | (with_reducible refine modCheck_only (z := [.taint]) ?_ ?_ ?_ ?_ ?_ ?_ ?_ ?_ ?_
       · refine names_trans hL ?_
         first | decide | (refine names_of_subset ?_; simp; done)
       iterate 7 · first | with_reducible rfl | (intro _; with_reducible rfl) | exact fun h => not_free h rfl | (intro _; dsimp only; split <;> rfl) | exact rfl | exact fun _ => rfl)
    | dsimp only

theorem taintEnd_only {s : State} {tag : Nat} (hL : names L [.word 0x28 0x98, .staged, .recs, .hdr 0x58, .hdr 0x28, .kernels, .taint, .cmds] = true) 
    (ho : s0.onlyChanges s L) : s0.onlyChanges (State.taintEnd s tag) L := by
  unfold State.taintEnd
  try dsimp only
  repeat' first
    | with_reducible assumption
    | (refine names_trans hL ?_
       try simp only [keyTypes, Nat.reduceMod]
       decide)
    | with_reducible first
      | refine names_cons ?_ ?_
      | refine only_ite ?_ ?_
      | refine only_ite_snd ?_ ?_
      | refine only_ite_fst ?_ ?_
      | refine setReg_only (hL := ?_) (h := ?_)
      | refine log_only (hL := ?_) (ho := ?_)
      | refine setErr_only (hL := ?_) (ho := ?_)
      | refine complete_only (hL := ?_) (ho := ?_)
      | refine only_foldl (fun u x hu => ?_) ?_
      | refine only_foldl_snd (fun u x hu => ?_) ?_
      | refine only_foldl_fst (fun u x hu => ?_) ?_
    | split
    | (with_reducible refine modCheck_only (z := [.kernels, .taint]) ?_ ?_ ?_ ?_ ?_ ?_ ?_ ?_ ?_
       · refine names_trans hL ?_
         first | decide | (refine names_of_subset ?_; simp; done)
       iterate 7 · first | with_reducible rfl | (intro _; with_reducible rfl) | exact fun h => not_free h rfl | (intro _; dsimp only; split <;> rfl) | exact rfl | exact fun _ => rfl)
    | dsimp only

theorem checkClose_only {s : State} {no : Nat} (hL : names L [.taint, .word 0x28 0x98, .staged, .recs, .hdr 0x58, .hdr 0x28, .kernels, .cmds] = true) 
    (ho : s0.onlyChanges s L) : s0.onlyChanges (State.checkClose s no) L := by
  unfold State.checkClose
  try dsimp only
  repeat' first
    | with_reducible assumption
    | (refine names_trans hL ?_
       try simp only [keyTypes, Nat.reduceMod]
       decide)
    | with_reducible first
      | refine names_cons ?_ ?_
      | refine only_ite ?_ ?_
      | refine only_ite_snd ?_ ?_
      | refine only_ite_fst ?_ ?_
      | refine checkEpoch_only (hL := ?_) (ho := ?_)
      | refine taintEnd_only (hL := ?_) (ho := ?_)
    | split
    | dsimp only

theorem modKernel_only {s : State} {k : Nat} {f : Kernel → Kernel} (hL : names L [.kernels] = true) 
    (ho : s0.onlyChanges s L) : s0.onlyChanges (State.modKernel s k f) L := by
  unfold State.modKernel
  try dsimp only
  repeat' first
    | with_reducible assumption
    | (refine names_trans hL ?_
       try simp only [keyTypes, Nat.reduceMod]
       decide)
    | with_reducible first
      | refine names_cons ?_ ?_
      | refine only_ite ?_ ?_
      | refine only_ite_snd ?_ ?_
      | refine only_ite_fst ?_ ?_
    | split
    | (with_reducible refine modCheck_only (z := [.kernels]) ?_ ?_ ?_ ?_ ?_ ?_ ?_ ?_ ?_
       · refine names_trans hL ?_
         first | decide | (refine names_of_subset ?_; simp; done)
       iterate 7 · first | with_reducible rfl | (intro _; with_reducible rfl) | exact fun h => not_free h rfl | (intro _; dsimp only; split <;> rfl) | exact rfl | exact fun _ => rfl)
    | dsimp only

theorem kernelWrite_only {s : State} {w : Nat} {v : Word} (hL : names L [.gens, .meas, .kernels, .hdr 0x28] = true) 
    (ho : s0.onlyChanges s L) : s0.onlyChanges (State.kernelWrite s w v) L := by
  unfold State.kernelWrite
  try dsimp only
  repeat' first
    | with_reducible assumption
    | (refine names_trans hL ?_
       try simp only [keyTypes, Nat.reduceMod]
       decide)
    | with_reducible first
      | refine names_cons ?_ ?_
      | refine only_ite ?_ ?_
      | refine only_ite_snd ?_ ?_
      | refine only_ite_fst ?_ ?_
      | refine modKernel_only (hL := ?_) (ho := ?_)
      | refine kernelChanged_only (hL := ?_) (ho := ?_)
      | refine setErr_only (hL := ?_) (ho := ?_)
    | split
    | (with_reducible refine modCheck_only (z := [.kernels]) ?_ ?_ ?_ ?_ ?_ ?_ ?_ ?_ ?_
       · refine names_trans hL ?_
         first | decide | (refine names_of_subset ?_; simp; done)
       iterate 7 · first | with_reducible rfl | (intro _; with_reducible rfl) | exact fun h => not_free h rfl | (intro _; dsimp only; split <;> rfl) | exact rfl | exact fun _ => rfl)
    | dsimp only

theorem countUnchecked_only {s : State} {k : Nat} (hL : names L [.kernels] = true) 
    (ho : s0.onlyChanges s L) : s0.onlyChanges (State.countUnchecked s k) L := by
  unfold State.countUnchecked
  try dsimp only
  repeat' first
    | with_reducible assumption
    | (refine names_trans hL ?_
       try simp only [keyTypes, Nat.reduceMod]
       decide)
    | with_reducible first
      | refine names_cons ?_ ?_
      | refine only_ite ?_ ?_
      | refine only_ite_snd ?_ ?_
      | refine only_ite_fst ?_ ?_
      | refine modKernel_only (hL := ?_) (ho := ?_)
    | split
    | (with_reducible refine modCheck_only (z := [.kernels]) ?_ ?_ ?_ ?_ ?_ ?_ ?_ ?_ ?_
       · refine names_trans hL ?_
         first | decide | (refine names_of_subset ?_; simp; done)
       iterate 7 · first | with_reducible rfl | (intro _; with_reducible rfl) | exact fun h => not_free h rfl | (intro _; dsimp only; split <;> rfl) | exact rfl | exact fun _ => rfl)
    | dsimp only

theorem tileBadLength_only {s : State} {u : Nat} {w : List Word} (hL : names L [.kernels, .staged, .recs, .hdr 0x58, .regs 0x93, .regs 0x91, .regs 0x38, .violations, .ports, .suspects, .hdr 0x28, .hdr 0x12, .gens, .spares, .probes] = true) 
    (ho : s0.onlyChanges s L) : s0.onlyChanges (State.tileBadLength s u w) L := by
  unfold State.tileBadLength
  try dsimp only
  repeat' first
    | with_reducible assumption
    | (refine names_trans hL ?_
       try simp only [keyTypes, Nat.reduceMod]
       decide)
    | (refine names_trans hL ?_
       try simp only [keyTypes, Nat.reduceMod]
       refine names_trans (names_of_subset ?_) names_regs_word
       simp
       done)
    | (refine names_trans hL ?_
       refine names_trans (names_of_subset ?_) names_port_word
       simp
       done)
    | with_reducible first
      | refine names_cons ?_ ?_
      | refine only_ite ?_ ?_
      | refine only_ite_snd ?_ ?_
      | refine only_ite_fst ?_ ?_
      | refine countUnchecked_only (hL := ?_) (ho := ?_)
      | refine violate_only (hL := ?_) (ho := ?_)
    | split
    | dsimp only

theorem countChecked_only {s : State} {k : Nat} (hL : names L [.kernels] = true) 
    (ho : s0.onlyChanges s L) : s0.onlyChanges (State.countChecked s k) L := by
  unfold State.countChecked
  try dsimp only
  repeat' first
    | with_reducible assumption
    | (refine names_trans hL ?_
       try simp only [keyTypes, Nat.reduceMod]
       decide)
    | with_reducible first
      | refine names_cons ?_ ?_
      | refine only_ite ?_ ?_
      | refine only_ite_snd ?_ ?_
      | refine only_ite_fst ?_ ?_
      | refine modKernel_only (hL := ?_) (ho := ?_)
    | split
    | (with_reducible refine modCheck_only (z := [.kernels]) ?_ ?_ ?_ ?_ ?_ ?_ ?_ ?_ ?_
       · refine names_trans hL ?_
         first | decide | (refine names_of_subset ?_; simp; done)
       iterate 7 · first | with_reducible rfl | (intro _; with_reducible rfl) | exact fun h => not_free h rfl | (intro _; dsimp only; split <;> rfl) | exact rfl | exact fun _ => rfl)
    | dsimp only

theorem tileFail_only {s : State} {u k cause : Nat} {w : List Word} (hL : names L [.notices, .ringQ, .out, .xfers, .mbox, .word 0x28 0xC4, .suspects, .staged, .recs, .hdr 0x58, .hdr 0x28, .hdr 0x12, .gens, .spares, .probes, .kernels] = true) 
    (ho : s0.onlyChanges s L) : s0.onlyChanges (State.tileFail s u k cause w) L := by
  unfold State.tileFail
  try dsimp only
  repeat' first
    | with_reducible assumption
    | (refine names_trans hL ?_
       try simp only [keyTypes, Nat.reduceMod]
       decide)
    | with_reducible first
      | refine names_cons ?_ ?_
      | refine only_ite ?_ ?_
      | refine only_ite_snd ?_ ?_
      | refine only_ite_fst ?_ ?_
      | refine poisonSend_only (hL := ?_) (ho := ?_)
      | refine fenceUnit_only (hL := ?_) (ho := ?_)
      | refine markSuspect_only (hL := ?_) (ho := ?_)
      | refine modKernel_only (hL := ?_) (ho := ?_)
      | refine log_only (hL := ?_) (ho := ?_)
      | refine setErr_only (hL := ?_) (ho := ?_)
    | split
    | (with_reducible refine modCheck_only (z := [.notices, .suspects, .spares, .kernels]) ?_ ?_ ?_ ?_ ?_ ?_ ?_ ?_ ?_
       · refine names_trans hL ?_
         first | decide | (refine names_of_subset ?_; simp; done)
       iterate 7 · first | with_reducible rfl | (intro _; with_reducible rfl) | exact fun h => not_free h rfl | (intro _; dsimp only; split <;> rfl) | exact rfl | exact fun _ => rfl)
    | dsimp only

theorem tileCheck_only {s : State} {u : Nat} {w : List Word} (hL : names L [.kernels, .notices, .ringQ, .out, .xfers, .mbox, .word 0x28 0xC4, .suspects, .staged, .recs, .hdr 0x58, .hdr 0x28, .hdr 0x12, .gens, .spares, .probes] = true) 
    (ho : s0.onlyChanges s L) : s0.onlyChanges (State.tileCheck s u w) L := by
  unfold State.tileCheck
  try dsimp only
  repeat' first
    | with_reducible assumption
    | (refine names_trans hL ?_
       try simp only [keyTypes, Nat.reduceMod]
       decide)
    | with_reducible first
      | refine names_cons ?_ ?_
      | refine only_ite ?_ ?_
      | refine only_ite_snd ?_ ?_
      | refine only_ite_fst ?_ ?_
      | refine countUnchecked_only (hL := ?_) (ho := ?_)
      | refine countChecked_only (hL := ?_) (ho := ?_)
      | refine tileFail_only (hL := ?_) (ho := ?_)
    | split
    | dsimp only

theorem tileElem_only {s : State} {u : Nat} {w : List Word} (hL : names L [.redInputs] = true) 
    (ho : s0.onlyChanges s L) : s0.onlyChanges (State.tileElem s u w) L := by
  unfold State.tileElem
  try dsimp only
  repeat' first
    | with_reducible assumption
    | (refine names_trans hL ?_
       try simp only [keyTypes, Nat.reduceMod]
       decide)
    | with_reducible first
      | refine names_cons ?_ ?_
      | refine only_ite ?_ ?_
      | refine only_ite_snd ?_ ?_
      | refine only_ite_fst ?_ ?_
    | split
    | (with_reducible refine only_reds (z := [.redInputs]) ?_ ?_ ?_ ?_
       · refine names_trans hL ?_
         first | decide | (refine names_of_subset ?_; simp; done)
       iterate 2 · first | with_reducible rfl | (intro _; with_reducible rfl) | exact fun h => not_free h rfl | (intro _; dsimp only; split <;> rfl) | exact rfl | exact fun _ => rfl)
    | dsimp only

theorem tileTake_only {s : State} {u : Nat} {w : List Word} (hL : names L [.staged, .recs, .hdr 0x58, .regs 0x93, .regs 0x91, .regs 0x38, .violations, .ports, .suspects, .hdr 0x28, .hdr 0x12, .gens, .spares, .probes, .inj, .kernels, .notices, .ringQ, .out, .xfers, .mbox, .word 0x28 0xC4, .redInputs] = true) 
    (ho : s0.onlyChanges s L) : s0.onlyChanges (State.tileTake s u w) L := by
  unfold State.tileTake
  try dsimp only
  repeat' first
    | with_reducible assumption
    | (refine names_trans hL ?_
       try simp only [keyTypes, Nat.reduceMod]
       decide)
    | (refine names_trans hL ?_
       try simp only [keyTypes, Nat.reduceMod]
       refine names_trans (names_of_subset ?_) names_regs_word
       simp
       done)
    | (refine names_trans hL ?_
       refine names_trans (names_of_subset ?_) names_port_word
       simp
       done)
    | with_reducible first
      | refine names_cons ?_ ?_
      | refine only_ite ?_ ?_
      | refine only_ite_snd ?_ ?_
      | refine only_ite_fst ?_ ?_
      | refine violate_only (hL := ?_) (ho := ?_)
      | refine injTake_only (hL := ?_) (ho := ?_)
      | refine tileCheck_only (hL := ?_) (ho := ?_)
      | refine tileElem_only (hL := ?_) (ho := ?_)
    | split
    | dsimp only

theorem poisonReceive_only {s : State} {b : List Byte} (hL : names L [.mbox, .ringQ, .out, .xfers, .notices, .word 0x28 0xC4] = true) 
    (ho : s0.onlyChanges s L) : s0.onlyChanges (State.poisonReceive s b) L := by
  unfold State.poisonReceive
  try dsimp only
  repeat' first
    | with_reducible assumption
    | (refine names_trans hL ?_
       try simp only [keyTypes, Nat.reduceMod]
       decide)
    | with_reducible first
      | refine names_cons ?_ ?_
      | refine only_ite ?_ ?_
      | refine only_ite_snd ?_ ?_
      | refine only_ite_fst ?_ ?_
      | refine poisonAck_only (hL := ?_) (ho := ?_)
      | refine poisonStore_only (hL := ?_) (ho := ?_)
    | split
    | dsimp only

theorem poisonAgain_only {s : State} {seq : BitVec 32} {loc : BitVec 16} (hL : names L [.now, .mbox, .notices, .staged, .recs, .hdr 0x58, .word 0x28 0xA0] = true) 
    (ho : s0.onlyChanges s L) : s0.onlyChanges (State.poisonAgain s seq loc) L := by
  unfold State.poisonAgain
  try dsimp only
  repeat' first
    | with_reducible assumption
    | (refine names_trans hL ?_
       try simp only [keyTypes, Nat.reduceMod]
       decide)
    | with_reducible first
      | refine names_cons ?_ ?_
      | refine only_ite ?_ ?_
      | refine only_ite_snd ?_ ?_
      | refine only_ite_fst ?_ ?_
      | refine advanceTo_only (hL := ?_) (ho := ?_)
      | refine sendTyp_only (hL := ?_) (ho := ?_)
      | refine log_only (hL := ?_) (ho := ?_)
      | refine bump_only (hL := ?_) (ho := ?_)
    | split
    | (with_reducible refine modCheck_only (z := [.notices]) ?_ ?_ ?_ ?_ ?_ ?_ ?_ ?_ ?_
       · refine names_trans hL ?_
         first | decide | (refine names_of_subset ?_; simp; done)
       iterate 7 · first | with_reducible rfl | (intro _; with_reducible rfl) | exact fun h => not_free h rfl | (intro _; dsimp only; split <;> rfl) | exact rfl | exact fun _ => rfl)
    | dsimp only

theorem execPoison_only (bytes : List Byte) (s : State) : ∃ st', execPoison bytes s = .next st' ∧ s.onlyChanges st' [.out, .xfers, .lines, .inj, .mbox, .ringQ, .notices, .word 0x28 0xC4] := by
  refine ⟨_, rfl, only_start fun hL h0 => ?_⟩
  refine settle_only (names_of_subset (by simp)) ?_
  repeat' first
    | with_reducible first
      | exact h0
      | assumption
    | (refine names_trans hL ?_
       try simp only [keyTypes, Nat.reduceMod]
       decide)
    | with_reducible first
      | refine names_cons ?_ ?_
      | refine only_ite ?_ ?_
      | refine only_ite_snd ?_ ?_
      | refine only_ite_fst ?_ ?_
      | refine poisonReceive_only (hL := ?_) (ho := ?_)
    | split
    | dsimp only

theorem execPoisonAck_only (seq : BitVec 32) (loc : BitVec 16) (s : State) : ∃ st', execPoisonAck seq loc s = .next st' ∧ s.onlyChanges st' [.out, .xfers, .lines, .inj, .notices] := by
  refine ⟨_, rfl, only_start fun hL h0 => ?_⟩
  refine settle_only (names_of_subset (by simp)) ?_
  repeat' first
    | with_reducible first
      | exact h0
      | assumption
    | (refine names_trans hL ?_
       try simp only [keyTypes, Nat.reduceMod]
       decide)
    | with_reducible first
      | refine names_cons ?_ ?_
      | refine only_ite ?_ ?_
      | refine only_ite_snd ?_ ?_
      | refine only_ite_fst ?_ ?_
    | split
    | (with_reducible refine modCheck_only (z := [.notices]) ?_ ?_ ?_ ?_ ?_ ?_ ?_ ?_ ?_
       · refine names_trans hL ?_
         first | decide | (refine names_of_subset ?_; simp; done)
       iterate 7 · first | with_reducible rfl | (intro _; with_reducible rfl) | exact fun h => not_free h rfl | (intro _; dsimp only; split <;> rfl) | exact rfl | exact fun _ => rfl)
    | dsimp only

theorem execPoisonResend_only (seq : BitVec 32) (loc : BitVec 16) (s : State) : ∃ st', execPoisonResend seq loc s = .next st' ∧ s.onlyChanges st' [.out, .xfers, .lines, .inj, .now, .mbox, .notices, .staged, .recs, .hdr 0x58, .word 0x28 0xA0] := by
  refine ⟨_, rfl, only_start fun hL h0 => ?_⟩
  refine settle_only (names_of_subset (by simp)) ?_
  repeat' first
    | with_reducible first
      | exact h0
      | assumption
    | (refine names_trans hL ?_
       try simp only [keyTypes, Nat.reduceMod]
       decide)
    | with_reducible first
      | refine names_cons ?_ ?_
      | refine only_ite ?_ ?_
      | refine only_ite_snd ?_ ?_
      | refine only_ite_fst ?_ ?_
      | refine poisonAgain_only (hL := ?_) (ho := ?_)
    | split
    | dsimp only

/-! Kat -/

theorem checkRegisterCmd_only {c : CmdIn} {s : State} (hL : names L [.cmds, .word 0x08 0x100, .gens, .meas, .kernels] = true) 
    (ho : s0.onlyChanges s L) : s0.onlyChanges (checkRegisterCmd c s) L := by
  unfold checkRegisterCmd
  try dsimp only
  repeat' first
    | with_reducible assumption
    | (refine names_trans hL ?_
       try simp only [keyTypes, Nat.reduceMod]
       decide)
    | with_reducible first
      | refine names_cons ?_ ?_
      | refine only_ite ?_ ?_
      | refine only_ite_snd ?_ ?_
      | refine only_ite_fst ?_ ?_
      | refine failCmd_only (hL := ?_) (ho := ?_)
      | refine ok_only (hL := ?_) (ho := ?_)
      | refine res_only (hL := ?_) (ho := ?_)
      | refine kernelChanged_only (hL := ?_) (ho := ?_)
    | split
    | (with_reducible refine modCheck_only (z := [.kernels]) ?_ ?_ ?_ ?_ ?_ ?_ ?_ ?_ ?_
       · refine names_trans hL ?_
         first | decide | (refine names_of_subset ?_; simp; done)
       iterate 7 · first | with_reducible rfl | (intro _; with_reducible rfl) | exact fun h => not_free h rfl | (intro _; dsimp only; split <;> rfl) | exact rfl | exact fun _ => rfl)
    | dsimp only

theorem execCheckRegister_only (c : CmdIn) (s : State) : ∃ st', execCheckRegister c s = .next st' ∧ s.onlyChanges st' [.out, .xfers, .lines, .inj, .cmds, .power, .bpwr, .word 0x50 0x54, .activity, .host, .tap, .regs 0x08, .hdr 0x08, .gens, .meas, .kernels] := by
  refine ⟨_, rfl, only_start fun hL h0 => ?_⟩
  refine settle_only (names_of_subset (by simp)) ?_
  repeat' first
    | with_reducible first
      | exact h0
      | assumption
    | (refine names_trans hL ?_
       try simp only [keyTypes, Nat.reduceMod]
       decide)
    | (refine names_trans hL ?_
       try simp only [keyTypes, Nat.reduceMod]
       refine names_trans (names_of_subset ?_) names_regs_word
       simp
       done)
    | with_reducible first
      | refine names_cons ?_ ?_
      | refine only_ite ?_ ?_
      | refine only_ite_snd ?_ ?_
      | refine only_ite_fst ?_ ?_
      | refine runCmd_only (hL := ?_) (h_effect := fun u hu => ?_) (ho := ?_)
      | refine checkRegisterCmd_only (hL := ?_) (ho := ?_)
    | split
    | dsimp only

theorem checkUnregisterCmd_only {c : CmdIn} {s : State} (hL : names L [.cmds, .gens, .meas, .kernels] = true) 
    (ho : s0.onlyChanges s L) : s0.onlyChanges (checkUnregisterCmd c s) L := by
  unfold checkUnregisterCmd
  try dsimp only
  repeat' first
    | with_reducible assumption
    | (refine names_trans hL ?_
       try simp only [keyTypes, Nat.reduceMod]
       decide)
    | with_reducible first
      | refine names_cons ?_ ?_
      | refine only_ite ?_ ?_
      | refine only_ite_snd ?_ ?_
      | refine only_ite_fst ?_ ?_
      | refine ok_only (hL := ?_) (ho := ?_)
      | refine kernelChanged_only (hL := ?_) (ho := ?_)
    | split
    | (with_reducible refine modCheck_only (z := [.kernels]) ?_ ?_ ?_ ?_ ?_ ?_ ?_ ?_ ?_
       · refine names_trans hL ?_
         first | decide | (refine names_of_subset ?_; simp; done)
       iterate 7 · first | with_reducible rfl | (intro _; with_reducible rfl) | exact fun h => not_free h rfl | (intro _; dsimp only; split <;> rfl) | exact rfl | exact fun _ => rfl)
    | dsimp only

theorem execCheckUnregister_only (c : CmdIn) (s : State) : ∃ st', execCheckUnregister c s = .next st' ∧ s.onlyChanges st' [.out, .xfers, .lines, .inj, .cmds, .power, .bpwr, .word 0x50 0x54, .activity, .host, .tap, .regs 0x08, .hdr 0x08, .gens, .meas, .kernels] := by
  refine ⟨_, rfl, only_start fun hL h0 => ?_⟩
  refine settle_only (names_of_subset (by simp)) ?_
  repeat' first
    | with_reducible first
      | exact h0
      | assumption
    | (refine names_trans hL ?_
       try simp only [keyTypes, Nat.reduceMod]
       decide)
    | (refine names_trans hL ?_
       try simp only [keyTypes, Nat.reduceMod]
       refine names_trans (names_of_subset ?_) names_regs_word
       simp
       done)
    | with_reducible first
      | refine names_cons ?_ ?_
      | refine only_ite ?_ ?_
      | refine only_ite_snd ?_ ?_
      | refine only_ite_fst ?_ ?_
      | refine runCmd_only (hL := ?_) (h_effect := fun u hu => ?_) (ho := ?_)
      | refine checkUnregisterCmd_only (hL := ?_) (ho := ?_)
    | split
    | dsimp only

theorem checkPoisonCmd_only {c : CmdIn} {s : State} (hL : names L [.cmds, .notices, .ringQ, .out, .xfers, .mbox, .word 0x28 0xC4] = true) 
    (ho : s0.onlyChanges s L) : s0.onlyChanges (checkPoisonCmd c s) L := by
  unfold checkPoisonCmd
  try dsimp only
  repeat' first
    | with_reducible assumption
    | (refine names_trans hL ?_
       try simp only [keyTypes, Nat.reduceMod]
       decide)
    | with_reducible first
      | refine names_cons ?_ ?_
      | refine only_ite ?_ ?_
      | refine only_ite_snd ?_ ?_
      | refine only_ite_fst ?_ ?_
      | refine ok_only (hL := ?_) (ho := ?_)
      | refine poisonSend_only (hL := ?_) (ho := ?_)
    | split
    | dsimp only

theorem execCheckPoison_only (c : CmdIn) (s : State) : ∃ st', execCheckPoison c s = .next st' ∧ s.onlyChanges st' [.out, .xfers, .lines, .inj, .cmds, .power, .bpwr, .word 0x50 0x54, .activity, .host, .tap, .regs 0x08, .hdr 0x08, .notices, .ringQ, .mbox, .word 0x28 0xC4] := by
  refine ⟨_, rfl, only_start fun hL h0 => ?_⟩
  refine settle_only (names_of_subset (by simp)) ?_
  repeat' first
    | with_reducible first
      | exact h0
      | assumption
    | (refine names_trans hL ?_
       try simp only [keyTypes, Nat.reduceMod]
       decide)
    | (refine names_trans hL ?_
       try simp only [keyTypes, Nat.reduceMod]
       refine names_trans (names_of_subset ?_) names_regs_word
       simp
       done)
    | with_reducible first
      | refine names_cons ?_ ?_
      | refine only_ite ?_ ?_
      | refine only_ite_snd ?_ ?_
      | refine only_ite_fst ?_ ?_
      | refine runCmd_only (hL := ?_) (h_effect := fun u hu => ?_) (ho := ?_)
      | refine checkPoisonCmd_only (hL := ?_) (ho := ?_)
    | split
    | dsimp only

theorem katQueue_only {s : State} {c : CmdIn} {u : Nat} {unfence : Bool} (hL : names L [.cmds, .kats] = true) 
    (ho : s0.onlyChanges s L) : s0.onlyChanges (State.katQueue s c u unfence) L := by
  unfold State.katQueue
  try dsimp only
  repeat' first
    | with_reducible assumption
    | (refine names_trans hL ?_
       try simp only [keyTypes, Nat.reduceMod]
       decide)
    | with_reducible first
      | refine names_cons ?_ ?_
      | refine only_ite ?_ ?_
      | refine only_ite_snd ?_ ?_
      | refine only_ite_fst ?_ ?_
      | refine waitFor_only (hL := ?_) (ho := ?_)
    | split
    | (with_reducible refine modCheck_only (z := [.kats]) ?_ ?_ ?_ ?_ ?_ ?_ ?_ ?_ ?_
       · refine names_trans hL ?_
         first | decide | (refine names_of_subset ?_; simp; done)
       iterate 7 · first | with_reducible rfl | (intro _; with_reducible rfl) | exact fun h => not_free h rfl | (intro _; dsimp only; split <;> rfl) | exact rfl | exact fun _ => rfl)
    | dsimp only

theorem katRunCmd_only {c : CmdIn} {s : State} (hL : names L [.cmds, .kats] = true) 
    (ho : s0.onlyChanges s L) : s0.onlyChanges (katRunCmd c s) L := by
  unfold katRunCmd
  try dsimp only
  repeat' first
    | with_reducible assumption
    | (refine names_trans hL ?_
       try simp only [keyTypes, Nat.reduceMod]
       decide)
    | with_reducible first
      | refine names_cons ?_ ?_
      | refine only_ite ?_ ?_
      | refine only_ite_snd ?_ ?_
      | refine only_ite_fst ?_ ?_
      | refine katQueue_only (hL := ?_) (ho := ?_)
      | refine failCmd_only (hL := ?_) (ho := ?_)
    | split
    | dsimp only

theorem execKatRun_only (c : CmdIn) (s : State) : ∃ st', execKatRun c s = .next st' ∧ s.onlyChanges st' [.out, .xfers, .lines, .inj, .cmds, .power, .bpwr, .word 0x50 0x54, .activity, .host, .tap, .regs 0x08, .hdr 0x08, .kats] := by
  refine ⟨_, rfl, only_start fun hL h0 => ?_⟩
  refine settle_only (names_of_subset (by simp)) ?_
  repeat' first
    | with_reducible first
      | exact h0
      | assumption
    | (refine names_trans hL ?_
       try simp only [keyTypes, Nat.reduceMod]
       decide)
    | (refine names_trans hL ?_
       try simp only [keyTypes, Nat.reduceMod]
       refine names_trans (names_of_subset ?_) names_regs_word
       simp
       done)
    | with_reducible first
      | refine names_cons ?_ ?_
      | refine only_ite ?_ ?_
      | refine only_ite_snd ?_ ?_
      | refine only_ite_fst ?_ ?_
      | refine runCmd_only (hL := ?_) (h_effect := fun u hu => ?_) (ho := ?_)
      | refine katRunCmd_only (hL := ?_) (ho := ?_)
    | split
    | dsimp only

theorem fenceCmd_only {c : CmdIn} {s : State} (hL : names L [.cmds, .suspects, .staged, .recs, .hdr 0x58, .hdr 0x28, .hdr 0x12, .gens, .spares, .probes] = true) 
    (ho : s0.onlyChanges s L) : s0.onlyChanges (fenceCmd c s) L := by
  unfold fenceCmd
  try dsimp only
  repeat' first
    | with_reducible assumption
    | (refine names_trans hL ?_
       try simp only [keyTypes, Nat.reduceMod]
       decide)
    | with_reducible first
      | refine names_cons ?_ ?_
      | refine only_ite ?_ ?_
      | refine only_ite_snd ?_ ?_
      | refine only_ite_fst ?_ ?_
      | refine ok_only (hL := ?_) (ho := ?_)
      | refine fenceUnit_only (hL := ?_) (ho := ?_)
      | refine failCmd_only (hL := ?_) (ho := ?_)
    | split
    | dsimp only

theorem execFence_only (c : CmdIn) (s : State) : ∃ st', execFence c s = .next st' ∧ s.onlyChanges st' [.out, .xfers, .lines, .inj, .cmds, .power, .bpwr, .word 0x50 0x54, .activity, .host, .tap, .regs 0x08, .hdr 0x08, .suspects, .staged, .recs, .hdr 0x58, .hdr 0x28, .hdr 0x12, .gens, .spares, .probes] := by
  refine ⟨_, rfl, only_start fun hL h0 => ?_⟩
  refine settle_only (names_of_subset (by simp)) ?_
  repeat' first
    | with_reducible first
      | exact h0
      | assumption
    | (refine names_trans hL ?_
       try simp only [keyTypes, Nat.reduceMod]
       decide)
    | (refine names_trans hL ?_
       try simp only [keyTypes, Nat.reduceMod]
       refine names_trans (names_of_subset ?_) names_regs_word
       simp
       done)
    | with_reducible first
      | refine names_cons ?_ ?_
      | refine only_ite ?_ ?_
      | refine only_ite_snd ?_ ?_
      | refine only_ite_fst ?_ ?_
      | refine runCmd_only (hL := ?_) (h_effect := fun u hu => ?_) (ho := ?_)
      | refine fenceCmd_only (hL := ?_) (ho := ?_)
    | split
    | dsimp only

theorem unfenceCmd_only {c : CmdIn} {s : State} (hL : names L [.cmds, .kats] = true) 
    (ho : s0.onlyChanges s L) : s0.onlyChanges (unfenceCmd c s) L := by
  unfold unfenceCmd
  try dsimp only
  repeat' first
    | with_reducible assumption
    | (refine names_trans hL ?_
       try simp only [keyTypes, Nat.reduceMod]
       decide)
    | with_reducible first
      | refine names_cons ?_ ?_
      | refine only_ite ?_ ?_
      | refine only_ite_snd ?_ ?_
      | refine only_ite_fst ?_ ?_
      | refine failCmd_only (hL := ?_) (ho := ?_)
      | refine katQueue_only (hL := ?_) (ho := ?_)
    | split
    | dsimp only

theorem execUnfence_only (c : CmdIn) (s : State) : ∃ st', execUnfence c s = .next st' ∧ s.onlyChanges st' [.out, .xfers, .lines, .inj, .cmds, .power, .bpwr, .word 0x50 0x54, .activity, .host, .tap, .regs 0x08, .hdr 0x08, .kats] := by
  refine ⟨_, rfl, only_start fun hL h0 => ?_⟩
  refine settle_only (names_of_subset (by simp)) ?_
  repeat' first
    | with_reducible first
      | exact h0
      | assumption
    | (refine names_trans hL ?_
       try simp only [keyTypes, Nat.reduceMod]
       decide)
    | (refine names_trans hL ?_
       try simp only [keyTypes, Nat.reduceMod]
       refine names_trans (names_of_subset ?_) names_regs_word
       simp
       done)
    | with_reducible first
      | refine names_cons ?_ ?_
      | refine only_ite ?_ ?_
      | refine only_ite_snd ?_ ?_
      | refine only_ite_fst ?_ ?_
      | refine runCmd_only (hL := ?_) (h_effect := fun u hu => ?_) (ho := ?_)
      | refine unfenceCmd_only (hL := ?_) (ho := ?_)
    | split
    | dsimp only

theorem checkClearCmd_only {c : CmdIn} {s : State} (hL : names L [.cmds, .taint] = true) 
    (ho : s0.onlyChanges s L) : s0.onlyChanges (checkClearCmd c s) L := by
  unfold checkClearCmd
  try dsimp only
  repeat' first
    | with_reducible assumption
    | (refine names_trans hL ?_
       try simp only [keyTypes, Nat.reduceMod]
       decide)
    | with_reducible first
      | refine names_cons ?_ ?_
      | refine only_ite ?_ ?_
      | refine only_ite_snd ?_ ?_
      | refine only_ite_fst ?_ ?_
      | refine waitFor_only (hL := ?_) (ho := ?_)
    | split
    | (with_reducible refine modCheck_only (z := [.taint]) ?_ ?_ ?_ ?_ ?_ ?_ ?_ ?_ ?_
       · refine names_trans hL ?_
         first | decide | (refine names_of_subset ?_; simp; done)
       iterate 7 · first | with_reducible rfl | (intro _; with_reducible rfl) | exact fun h => not_free h rfl | (intro _; dsimp only; split <;> rfl) | exact rfl | exact fun _ => rfl)
    | dsimp only

theorem execCheckClearStats_only (c : CmdIn) (s : State) : ∃ st', execCheckClearStats c s = .next st' ∧ s.onlyChanges st' [.out, .xfers, .lines, .inj, .cmds, .power, .bpwr, .word 0x50 0x54, .activity, .host, .tap, .regs 0x08, .hdr 0x08, .taint] := by
  refine ⟨_, rfl, only_start fun hL h0 => ?_⟩
  refine settle_only (names_of_subset (by simp)) ?_
  repeat' first
    | with_reducible first
      | exact h0
      | assumption
    | (refine names_trans hL ?_
       try simp only [keyTypes, Nat.reduceMod]
       decide)
    | (refine names_trans hL ?_
       try simp only [keyTypes, Nat.reduceMod]
       refine names_trans (names_of_subset ?_) names_regs_word
       simp
       done)
    | with_reducible first
      | refine names_cons ?_ ?_
      | refine only_ite ?_ ?_
      | refine only_ite_snd ?_ ?_
      | refine only_ite_fst ?_ ?_
      | refine runCmd_only (hL := ?_) (h_effect := fun u hu => ?_) (ho := ?_)
      | refine checkClearCmd_only (hL := ?_) (ho := ?_)
    | split
    | dsimp only

theorem katStart_only {s : State} (hL : names L [.probes, .kats] = true) 
    (ho : s0.onlyChanges s L) : s0.onlyChanges (State.katStart s) L := by
  unfold State.katStart
  try dsimp only
  repeat' first
    | with_reducible assumption
    | (refine names_trans hL ?_
       try simp only [keyTypes, Nat.reduceMod]
       decide)
    | with_reducible first
      | refine names_cons ?_ ?_
      | refine only_ite ?_ ?_
      | refine only_ite_snd ?_ ?_
      | refine only_ite_fst ?_ ?_
      | refine raiseGate_only (hL := ?_) (ho := ?_)
    | split
    | (with_reducible refine modCheck_only (z := [.kats]) ?_ ?_ ?_ ?_ ?_ ?_ ?_ ?_ ?_
       · refine names_trans hL ?_
         first | decide | (refine names_of_subset ?_; simp; done)
       iterate 7 · first | with_reducible rfl | (intro _; with_reducible rfl) | exact fun h => not_free h rfl | (intro _; dsimp only; split <;> rfl) | exact rfl | exact fun _ => rfl)
    | dsimp only

theorem testAck_only {s : State} {u : Nat} (hL : names L [.probes, .kats] = true) 
    (ho : s0.onlyChanges s L) : s0.onlyChanges (State.testAck s u) L := by
  unfold State.testAck
  try dsimp only
  repeat' first
    | with_reducible assumption
    | (refine names_trans hL ?_
       try simp only [keyTypes, Nat.reduceMod]
       decide)
    | with_reducible first
      | refine names_cons ?_ ?_
      | refine only_ite ?_ ?_
      | refine only_ite_snd ?_ ?_
      | refine only_ite_fst ?_ ?_
      | refine ackFalls_only (hL := ?_) (ho := ?_)
      | refine lowerGate_only (hL := ?_) (ho := ?_)
      | refine ackGate_only (hL := ?_) (ho := ?_)
    | split
    | (with_reducible refine modCheck_only (z := [.kats]) ?_ ?_ ?_ ?_ ?_ ?_ ?_ ?_ ?_
       · refine names_trans hL ?_
         first | decide | (refine names_of_subset ?_; simp; done)
       iterate 7 · first | with_reducible rfl | (intro _; with_reducible rfl) | exact fun h => not_free h rfl | (intro _; dsimp only; split <;> rfl) | exact rfl | exact fun _ => rfl)
    | dsimp only

theorem katResult_only {s : State} {u last : Nat} (hL : names L [.probes, .kats, .cmds, .gens, .spares, .violations, .word 0x08 0x100] = true) 
    (ho : s0.onlyChanges s L) : s0.onlyChanges (State.katResult s u last) L := by
  unfold State.katResult
  try dsimp only
  repeat' first
    | with_reducible assumption
    | (refine names_trans hL ?_
       try simp only [keyTypes, Nat.reduceMod]
       decide)
    | with_reducible first
      | refine names_cons ?_ ?_
      | refine only_ite ?_ ?_
      | refine only_ite_snd ?_ ?_
      | refine only_ite_fst ?_ ?_
      | refine lowerGate_only (hL := ?_) (ho := ?_)
      | refine complete_only (hL := ?_) (ho := ?_)
      | refine spareRelease_only (hL := ?_) (ho := ?_)
      | refine setRes_only (hL := ?_) (ho := ?_)
      | refine only_foldl (fun u x hu => ?_) ?_
      | refine only_foldl_snd (fun u x hu => ?_) ?_
      | refine only_foldl_fst (fun u x hu => ?_) ?_
    | split
    | (with_reducible refine modCheck_only (z := [.kats, .spares, .violations]) ?_ ?_ ?_ ?_ ?_ ?_ ?_ ?_ ?_
       · refine names_trans hL ?_
         first | decide | (refine names_of_subset ?_; simp; done)
       iterate 7 · first | with_reducible rfl | (intro _; with_reducible rfl) | exact fun h => not_free h rfl | (intro _; dsimp only; split <;> rfl) | exact rfl | exact fun _ => rfl)
    | dsimp only

theorem katFail_only {s : State} {u cause : Nat} {content : List Byte} (hL : names L [.suspects, .staged, .recs, .hdr 0x58, .hdr 0x28, .hdr 0x12, .gens, .spares, .probes, .notices, .ringQ, .out, .xfers, .mbox, .word 0x28 0xC4, .kats, .cmds, .violations, .word 0x08 0x100] = true) 
    (ho : s0.onlyChanges s L) : s0.onlyChanges (State.katFail s u cause content) L := by
  unfold State.katFail
  try dsimp only
  repeat' first
    | with_reducible assumption
    | (refine names_trans hL ?_
       try simp only [keyTypes, Nat.reduceMod]
       decide)
    | with_reducible first
      | refine names_cons ?_ ?_
      | refine only_ite ?_ ?_
      | refine only_ite_snd ?_ ?_
      | refine only_ite_fst ?_ ?_
      | refine fenceUnit_only (hL := ?_) (ho := ?_)
      | refine poisonSend_only (hL := ?_) (ho := ?_)
      | refine log_only (hL := ?_) (ho := ?_)
      | refine setErr_only (hL := ?_) (ho := ?_)
      | refine katResult_only (hL := ?_) (ho := ?_)
      | refine only_foldl_snd2 (fun u x hu => ?_) ?_
      | refine only_ite_snd2 ?_ ?_
    | split
    | dsimp only

theorem katPass_only {s : State} {u taint : Nat} (hL : names L [.probes, .kats, .cmds, .gens, .spares, .violations, .word 0x08 0x100, .suspects] = true) 
    (ho : s0.onlyChanges s L) : s0.onlyChanges (State.katPass s u taint) L := by
  unfold State.katPass
  try dsimp only
  repeat' first
    | with_reducible assumption
    | (refine names_trans hL ?_
       try simp only [keyTypes, Nat.reduceMod]
       decide)
    | with_reducible first
      | refine names_cons ?_ ?_
      | refine only_ite ?_ ?_
      | refine only_ite_snd ?_ ?_
      | refine only_ite_fst ?_ ?_
      | refine katResult_only (hL := ?_) (ho := ?_)
    | split
    | (with_reducible refine modCheck_only (z := [.kats, .spares, .violations, .suspects]) ?_ ?_ ?_ ?_ ?_ ?_ ?_ ?_ ?_
       · refine names_trans hL ?_
         first | decide | (refine names_of_subset ?_; simp; done)
       iterate 7 · first | with_reducible rfl | (intro _; with_reducible rfl) | exact fun h => not_free h rfl | (intro _; dsimp only; split <;> rfl) | exact rfl | exact fun _ => rfl)
    | dsimp only

theorem signature_only {s : State} {u : Nat} {w : List Word} (hL : names L [.hdr 0x28, .inj, .probes, .kats, .cmds, .gens, .spares, .violations, .word 0x08 0x100, .suspects, .staged, .recs, .hdr 0x58, .hdr 0x12, .notices, .ringQ, .out, .xfers, .mbox, .word 0x28 0xC4] = true) 
    (ho : s0.onlyChanges s L) : s0.onlyChanges (State.signature s u w) L := by
  unfold State.signature
  try dsimp only
  repeat' first
    | with_reducible assumption
    | (refine names_trans hL ?_
       try simp only [keyTypes, Nat.reduceMod]
       decide)
    | with_reducible first
      | refine names_cons ?_ ?_
      | refine only_ite ?_ ?_
      | refine only_ite_snd ?_ ?_
      | refine only_ite_fst ?_ ?_
      | refine injTake_only (hL := ?_) (ho := ?_)
      | refine katPass_only (hL := ?_) (ho := ?_)
      | refine katFail_only (hL := ?_) (ho := ?_)
    | split
    | dsimp only

theorem sideReport_only {s : State} {u : Nat} {w : List Word} {last : Bool} (hL : names L [.taint, .kernels, .staged, .recs, .hdr 0x58, .regs 0x93, .regs 0x91, .regs 0x38, .violations, .ports, .suspects, .hdr 0x28, .hdr 0x12, .gens, .spares, .probes, .inj, .kats, .cmds, .word 0x08 0x100, .notices, .ringQ, .out, .xfers, .mbox, .word 0x28 0xC4, .redInputs] = true) 
    (ho : s0.onlyChanges s L) : s0.onlyChanges (State.sideReport s u w last) L := by
  unfold State.sideReport
  try dsimp only
  repeat' first
    | with_reducible assumption
    | (refine names_trans hL ?_
       try simp only [keyTypes, Nat.reduceMod]
       decide)
    | (refine names_trans hL ?_
       try simp only [keyTypes, Nat.reduceMod]
       refine names_trans (names_of_subset ?_) names_regs_word
       simp
       done)
    | (refine names_trans hL ?_
       refine names_trans (names_of_subset ?_) names_port_word
       simp
       done)
    | with_reducible first
      | refine names_cons ?_ ?_
      | refine only_ite ?_ ?_
      | refine only_ite_snd ?_ ?_
      | refine only_ite_fst ?_ ?_
      | refine tileBadLength_only (hL := ?_) (ho := ?_)
      | refine signature_only (hL := ?_) (ho := ?_)
      | refine tileTake_only (hL := ?_) (ho := ?_)
    | split
    | (with_reducible refine modCheck_only (z := [.taint, .kernels, .violations, .suspects, .spares, .kats, .notices]) ?_ ?_ ?_ ?_ ?_ ?_ ?_ ?_ ?_
       · refine names_trans hL ?_
         first | decide | (refine names_of_subset ?_; simp; done)
       iterate 7 · first | with_reducible rfl | (intro _; with_reducible rfl) | exact fun h => not_free h rfl | (intro _; dsimp only; split <;> rfl) | exact rfl | exact fun _ => rfl)
    | dsimp only

theorem sideResume_only {s : State} (hL : names L [.taint, .kernels, .staged, .recs, .hdr 0x58, .regs 0x93, .regs 0x91, .regs 0x38, .violations, .ports, .suspects, .hdr 0x28, .hdr 0x12, .gens, .spares, .probes, .inj, .kats, .cmds, .word 0x08 0x100, .notices, .ringQ, .out, .xfers, .mbox, .word 0x28 0xC4, .redInputs] = true) 
    (ho : s0.onlyChanges s L) : s0.onlyChanges (State.sideResume s) L := by
  unfold State.sideResume
  try dsimp only
  repeat' first
    | with_reducible assumption
    | (refine names_trans hL ?_
       try simp only [keyTypes, Nat.reduceMod]
       decide)
    | (refine names_trans hL ?_
       try simp only [keyTypes, Nat.reduceMod]
       refine names_trans (names_of_subset ?_) names_regs_word
       simp
       done)
    | (refine names_trans hL ?_
       refine names_trans (names_of_subset ?_) names_port_word
       simp
       done)
    | with_reducible first
      | refine names_cons ?_ ?_
      | refine only_ite ?_ ?_
      | refine only_ite_snd ?_ ?_
      | refine only_ite_fst ?_ ?_
      | refine sideReport_only (hL := ?_) (ho := ?_)
      | refine only_foldl (fun u x hu => ?_) ?_
      | refine only_foldl_snd (fun u x hu => ?_) ?_
      | refine only_foldl_fst (fun u x hu => ?_) ?_
    | split
    | (with_reducible refine modCheck_only (z := [.taint, .kernels, .violations, .suspects, .spares, .kats, .notices]) ?_ ?_ ?_ ?_ ?_ ?_ ?_ ?_ ?_
       · refine names_trans hL ?_
         first | decide | (refine names_of_subset ?_; simp; done)
       iterate 7 · first | with_reducible rfl | (intro _; with_reducible rfl) | exact fun h => not_free h rfl | (intro _; dsimp only; split <;> rfl) | exact rfl | exact fun _ => rfl)
    | dsimp only

theorem katTimeout_only {s : State} (hL : names L [.suspects, .staged, .recs, .hdr 0x58, .hdr 0x28, .hdr 0x12, .gens, .spares, .probes, .notices, .ringQ, .out, .xfers, .mbox, .word 0x28 0xC4, .kats, .cmds, .violations, .word 0x08 0x100, .now] = true) 
    (ho : s0.onlyChanges s L) : s0.onlyChanges (State.katTimeout s) L := by
  unfold State.katTimeout
  try dsimp only
  repeat' first
    | with_reducible assumption
    | (refine names_trans hL ?_
       try simp only [keyTypes, Nat.reduceMod]
       decide)
    | with_reducible first
      | refine names_cons ?_ ?_
      | refine only_ite ?_ ?_
      | refine only_ite_snd ?_ ?_
      | refine only_ite_fst ?_ ?_
      | refine katFail_only (hL := ?_) (ho := ?_)
      | refine advanceTo_only (hL := ?_) (ho := ?_)
    | split
    | dsimp only

theorem katPutOff_only {s : State} {u : Nat} (hL : names L [.probes, .kats] = true) 
    (ho : s0.onlyChanges s L) : s0.onlyChanges (State.katPutOff s u) L := by
  unfold State.katPutOff
  try dsimp only
  repeat' first
    | with_reducible assumption
    | (refine names_trans hL ?_
       try simp only [keyTypes, Nat.reduceMod]
       decide)
    | with_reducible first
      | refine names_cons ?_ ?_
      | refine only_ite ?_ ?_
      | refine only_ite_snd ?_ ?_
      | refine only_ite_fst ?_ ?_
      | refine lowerGate_only (hL := ?_) (ho := ?_)
    | split
    | (with_reducible refine modCheck_only (z := [.kats]) ?_ ?_ ?_ ?_ ?_ ?_ ?_ ?_ ?_
       · refine names_trans hL ?_
         first | decide | (refine names_of_subset ?_; simp; done)
       iterate 7 · first | with_reducible rfl | (intro _; with_reducible rfl) | exact fun h => not_free h rfl | (intro _; dsimp only; split <;> rfl) | exact rfl | exact fun _ => rfl)
    | dsimp only

theorem katAbandon_only {s : State} {why : Nat} (hL : names L [.staged, .recs, .hdr 0x58, .probes, .kats, .cmds, .gens, .spares, .violations, .word 0x08 0x100] = true) 
    (ho : s0.onlyChanges s L) : s0.onlyChanges (State.katAbandon s why) L := by
  unfold State.katAbandon
  try dsimp only
  repeat' first
    | with_reducible assumption
    | (refine names_trans hL ?_
       try simp only [keyTypes, Nat.reduceMod]
       decide)
    | with_reducible first
      | refine names_cons ?_ ?_
      | refine only_ite ?_ ?_
      | refine only_ite_snd ?_ ?_
      | refine only_ite_fst ?_ ?_
      | refine log_only (hL := ?_) (ho := ?_)
      | refine katPutOff_only (hL := ?_) (ho := ?_)
      | refine katResult_only (hL := ?_) (ho := ?_)
      | refine raiseGate_only (hL := ?_) (ho := ?_)
    | split
    | (with_reducible refine modCheck_only (z := [.kats, .spares, .violations]) ?_ ?_ ?_ ?_ ?_ ?_ ?_ ?_ ?_
       · refine names_trans hL ?_
         first | decide | (refine names_of_subset ?_; simp; done)
       iterate 7 · first | with_reducible rfl | (intro _; with_reducible rfl) | exact fun h => not_free h rfl | (intro _; dsimp only; split <;> rfl) | exact rfl | exact fun _ => rfl)
    | dsimp only

theorem katCommand_only {s : State} {u : Nat} (hL : names L [.suspects, .staged, .recs, .hdr 0x58, .probes, .kats, .cmds, .gens, .spares, .violations, .word 0x08 0x100, .regs 0x93, .regs 0x91, .regs 0x38, .ports, .hdr 0x28, .hdr 0x12] = true) 
    (ho : s0.onlyChanges s L) : s0.onlyChanges (State.katCommand s u) L := by
  unfold State.katCommand
  try dsimp only
  repeat' first
    | with_reducible assumption
    | (refine names_trans hL ?_
       try simp only [keyTypes, Nat.reduceMod]
       decide)
    | (refine names_trans hL ?_
       try simp only [keyTypes, Nat.reduceMod]
       refine names_trans (names_of_subset ?_) names_regs_word
       simp
       done)
    | (refine names_trans hL ?_
       refine names_trans (names_of_subset ?_) names_port_word
       simp
       done)
    | with_reducible first
      | refine names_cons ?_ ?_
      | refine only_ite ?_ ?_
      | refine only_ite_snd ?_ ?_
      | refine only_ite_fst ?_ ?_
      | refine markSuspect_only (hL := ?_) (ho := ?_)
      | refine katAbandon_only (hL := ?_) (ho := ?_)
      | refine violate_only (hL := ?_) (ho := ?_)
    | split
    | dsimp only

theorem katEdge_only {s : State} {u : Nat} {idle : Bool} (hL : names L [.kats] = true) 
    (ho : s0.onlyChanges s L) : s0.onlyChanges (State.katEdge s u idle) L := by
  unfold State.katEdge
  try dsimp only
  repeat' first
    | with_reducible assumption
    | (refine names_trans hL ?_
       try simp only [keyTypes, Nat.reduceMod]
       decide)
    | with_reducible first
      | refine names_cons ?_ ?_
      | refine only_ite ?_ ?_
      | refine only_ite_snd ?_ ?_
      | refine only_ite_fst ?_ ?_
    | split
    | (with_reducible refine modCheck_only (z := [.kats]) ?_ ?_ ?_ ?_ ?_ ?_ ?_ ?_ ?_
       · refine names_trans hL ?_
         first | decide | (refine names_of_subset ?_; simp; done)
       iterate 7 · first | with_reducible rfl | (intro _; with_reducible rfl) | exact fun h => not_free h rfl | (intro _; dsimp only; split <;> rfl) | exact rfl | exact fun _ => rfl)
    | dsimp only

theorem fenceAck_only {s : State} {u : Nat} (hL : names L [.probes] = true) 
    (ho : s0.onlyChanges s L) : s0.onlyChanges (State.fenceAck s u) L := by
  unfold State.fenceAck
  try dsimp only
  repeat' first
    | with_reducible assumption
    | (refine names_trans hL ?_
       try simp only [keyTypes, Nat.reduceMod]
       decide)
    | with_reducible first
      | refine names_cons ?_ ?_
      | refine only_ite ?_ ?_
      | refine only_ite_snd ?_ ?_
      | refine only_ite_fst ?_ ?_
      | refine lowerGate_only (hL := ?_) (ho := ?_)
      | refine ackGate_only (hL := ?_) (ho := ?_)
      | refine ackFalls_only (hL := ?_) (ho := ?_)
    | split
    | dsimp only

theorem execKatStart_only (s : State) : ∃ st', execKatStart s = .next st' ∧ s.onlyChanges st' [.out, .xfers, .lines, .inj, .probes, .kats] := by
  refine ⟨_, rfl, only_start fun hL h0 => ?_⟩
  refine settle_only (names_of_subset (by simp)) ?_
  repeat' first
    | with_reducible first
      | exact h0
      | assumption
    | (refine names_trans hL ?_
       try simp only [keyTypes, Nat.reduceMod]
       decide)
    | with_reducible first
      | refine names_cons ?_ ?_
      | refine only_ite ?_ ?_
      | refine only_ite_snd ?_ ?_
      | refine only_ite_fst ?_ ?_
      | refine katStart_only (hL := ?_) (ho := ?_)
    | split
    | dsimp only

theorem execTestAck_only (probe : Nat) (s : State) : ∃ st', execTestAck probe s = .next st' ∧ s.onlyChanges st' [.out, .xfers, .lines, .inj, .probes, .kats] := by
  refine ⟨_, rfl, only_start fun hL h0 => ?_⟩
  refine settle_only (names_of_subset (by simp)) ?_
  repeat' first
    | with_reducible first
      | exact h0
      | assumption
    | (refine names_trans hL ?_
       try simp only [keyTypes, Nat.reduceMod]
       decide)
    | with_reducible first
      | refine names_cons ?_ ?_
      | refine only_ite ?_ ?_
      | refine only_ite_snd ?_ ?_
      | refine only_ite_fst ?_ ?_
      | refine testAck_only (hL := ?_) (ho := ?_)
    | split
    | dsimp only

theorem execTileReport_only (probe : Nat) (words : List Word) (last : Bool) (s : State) : ∃ st', execTileReport probe words last s = .next st' ∧ s.onlyChanges st' [.out, .xfers, .lines, .inj, .taint, .kernels, .staged, .recs, .hdr 0x58, .regs 0x93, .regs 0x91, .regs 0x38, .violations, .ports, .suspects, .hdr 0x28, .hdr 0x12, .gens, .spares, .probes, .kats, .cmds, .word 0x08 0x100, .notices, .ringQ, .mbox, .word 0x28 0xC4, .redInputs] := by
  refine ⟨_, rfl, only_start fun hL h0 => ?_⟩
  refine settle_only (names_of_subset (by simp)) ?_
  repeat' first
    | with_reducible first
      | exact h0
      | assumption
    | (refine names_trans hL ?_
       try simp only [keyTypes, Nat.reduceMod]
       decide)
    | (refine names_trans hL ?_
       try simp only [keyTypes, Nat.reduceMod]
       refine names_trans (names_of_subset ?_) names_regs_word
       simp
       done)
    | (refine names_trans hL ?_
       refine names_trans (names_of_subset ?_) names_port_word
       simp
       done)
    | with_reducible first
      | refine names_cons ?_ ?_
      | refine only_ite ?_ ?_
      | refine only_ite_snd ?_ ?_
      | refine only_ite_fst ?_ ?_
      | refine sideReport_only (hL := ?_) (ho := ?_)
    | split
    | dsimp only

theorem execSignatureReport_only (probe : Nat) (words : List Word) (s : State) : ∃ st', execSignatureReport probe words s = .next st' ∧ s.onlyChanges st' [.out, .xfers, .lines, .inj, .taint, .kernels, .staged, .recs, .hdr 0x58, .regs 0x93, .regs 0x91, .regs 0x38, .violations, .ports, .suspects, .hdr 0x28, .hdr 0x12, .gens, .spares, .probes, .kats, .cmds, .word 0x08 0x100, .notices, .ringQ, .mbox, .word 0x28 0xC4, .redInputs] := by
  refine ⟨_, rfl, only_start fun hL h0 => ?_⟩
  refine settle_only (names_of_subset (by simp)) ?_
  repeat' first
    | with_reducible first
      | exact h0
      | assumption
    | (refine names_trans hL ?_
       try simp only [keyTypes, Nat.reduceMod]
       decide)
    | (refine names_trans hL ?_
       try simp only [keyTypes, Nat.reduceMod]
       refine names_trans (names_of_subset ?_) names_regs_word
       simp
       done)
    | (refine names_trans hL ?_
       refine names_trans (names_of_subset ?_) names_port_word
       simp
       done)
    | with_reducible first
      | refine names_cons ?_ ?_
      | refine only_ite ?_ ?_
      | refine only_ite_snd ?_ ?_
      | refine only_ite_fst ?_ ?_
      | refine sideReport_only (hL := ?_) (ho := ?_)
    | split
    | dsimp only

theorem execKatTimeout_only (s : State) : ∃ st', execKatTimeout s = .next st' ∧ s.onlyChanges st' [.out, .xfers, .lines, .inj, .suspects, .staged, .recs, .hdr 0x58, .hdr 0x28, .hdr 0x12, .gens, .spares, .probes, .notices, .ringQ, .mbox, .word 0x28 0xC4, .kats, .cmds, .violations, .word 0x08 0x100, .now] := by
  refine ⟨_, rfl, only_start fun hL h0 => ?_⟩
  refine settle_only (names_of_subset (by simp)) ?_
  repeat' first
    | with_reducible first
      | exact h0
      | assumption
    | (refine names_trans hL ?_
       try simp only [keyTypes, Nat.reduceMod]
       decide)
    | with_reducible first
      | refine names_cons ?_ ?_
      | refine only_ite ?_ ?_
      | refine only_ite_snd ?_ ?_
      | refine only_ite_fst ?_ ?_
      | refine katTimeout_only (hL := ?_) (ho := ?_)
    | split
    | dsimp only

theorem execFenceAck_only (probe : Nat) (s : State) : ∃ st', execFenceAck probe s = .next st' ∧ s.onlyChanges st' [.out, .xfers, .lines, .inj, .probes] := by
  refine ⟨_, rfl, only_start fun hL h0 => ?_⟩
  refine settle_only (names_of_subset (by simp)) ?_
  repeat' first
    | with_reducible first
      | exact h0
      | assumption
    | (refine names_trans hL ?_
       try simp only [keyTypes, Nat.reduceMod]
       decide)
    | with_reducible first
      | refine names_cons ?_ ?_
      | refine only_ite ?_ ?_
      | refine only_ite_snd ?_ ?_
      | refine only_ite_fst ?_ ?_
      | refine fenceAck_only (hL := ?_) (ho := ?_)
    | split
    | dsimp only

theorem execIdleWindowTimeout_only (pkg : Bool) (page : BitVec 3) (s : State) : ∃ st', execIdleWindowTimeout pkg page s = .next st' ∧ s.onlyChanges st' [.out, .xfers, .lines, .inj, .cmds, .kats] := by
  refine ⟨_, rfl, only_start fun hL h0 => ?_⟩
  refine settle_only (names_of_subset (by simp)) ?_
  repeat' first
    | with_reducible first
      | exact h0
      | assumption
    | (refine names_trans hL ?_
       try simp only [keyTypes, Nat.reduceMod]
       decide)
    | with_reducible first
      | refine names_cons ?_ ?_
      | refine only_ite ?_ ?_
      | refine only_ite_snd ?_ ?_
      | refine only_ite_fst ?_ ?_
      | refine complete_only (hL := ?_) (ho := ?_)
    | split
    | (with_reducible refine modCheck_only (z := [.kats]) ?_ ?_ ?_ ?_ ?_ ?_ ?_ ?_ ?_
       · refine names_trans hL ?_
         first | decide | (refine names_of_subset ?_; simp; done)
       iterate 7 · first | with_reducible rfl | (intro _; with_reducible rfl) | exact fun h => not_free h rfl | (intro _; dsimp only; split <;> rfl) | exact rfl | exact fun _ => rfl)
    | dsimp only

/-! Snuff -/

theorem snuffAtDone_only {s : State} {o : SnuffOrder} {st : Byte} {detail absorbed : Nat} (hL : names L [.cmds, .word 0x08 0x114, .word 0x08 0x110, .word 0x08 0x10C, .word 0x08 0x108, .word 0x08 0x104, .word 0x08 0x100] = true) 
    (ho : s0.onlyChanges s L) : s0.onlyChanges (State.snuffAtDone s o st detail absorbed) L := by
  unfold State.snuffAtDone
  try dsimp only
  repeat' first
    | with_reducible assumption
    | (refine names_trans hL ?_
       try simp only [keyTypes, Nat.reduceMod]
       decide)
    | with_reducible first
      | refine names_cons ?_ ?_
      | refine only_ite ?_ ?_
      | refine only_ite_snd ?_ ?_
      | refine only_ite_fst ?_ ?_
      | refine complete_only (hL := ?_) (ho := ?_)
      | refine setRes_only (hL := ?_) (ho := ?_)
      | refine only_foldl (fun u x hu => ?_) ?_
      | refine only_foldl_snd (fun u x hu => ?_) ?_
      | refine only_foldl_fst (fun u x hu => ?_) ?_
    | split
    | dsimp only

theorem snuffState_only {s : State} {v : SnuffState} (hL : names L [.hdr 0x61, .snuff] = true) 
    (ho : s0.onlyChanges s L) : s0.onlyChanges (State.snuffState s v) L := by
  unfold State.snuffState
  try dsimp only
  repeat' first
    | with_reducible assumption
    | (refine names_trans hL ?_
       try simp only [keyTypes, Nat.reduceMod]
       decide)
    | with_reducible first
      | refine names_cons ?_ ?_
      | refine only_ite ?_ ?_
      | refine only_ite_snd ?_ ?_
      | refine only_ite_fst ?_ ?_
      | refine setStat_only (hL := ?_) (ho := ?_)
    | split
    | (with_reducible refine modSnuff_only (z := [.snuff]) ?_ ?_ ?_
       · refine names_trans hL ?_
         first | decide | (refine names_of_subset ?_; simp; done)
       iterate 1 · first | with_reducible rfl | (intro _; with_reducible rfl) | exact fun h => not_free h rfl | (intro _; dsimp only; split <;> rfl) | exact rfl | exact fun _ => rfl)
    | dsimp only

theorem snuffStepped_only {s : State} (hL : names L [.evts, .snuff, .cmds, .word 0x08 0x114, .word 0x08 0x110, .word 0x08 0x10C, .word 0x08 0x108, .word 0x08 0x104, .word 0x08 0x100, .hdr 0x61] = true) 
    (ho : s0.onlyChanges s L) : s0.onlyChanges (State.snuffStepped s) L := by
  unfold State.snuffStepped
  try dsimp only
  repeat' first
    | with_reducible assumption
    | (refine names_trans hL ?_
       try simp only [keyTypes, Nat.reduceMod]
       decide)
    | with_reducible first
      | refine names_cons ?_ ?_
      | refine only_ite ?_ ?_
      | refine only_ite_snd ?_ ?_
      | refine only_ite_fst ?_ ?_
      | refine evtDrop_only (hL := ?_) (ho := ?_)
      | refine snuffAtDone_only (hL := ?_) (ho := ?_)
      | refine snuffState_only (hL := ?_) (ho := ?_)
    | split
    | (with_reducible refine modSnuff_only (z := [.snuff]) ?_ ?_ ?_
       · refine names_trans hL ?_
         first | decide | (refine names_of_subset ?_; simp; done)
       iterate 1 · first | with_reducible rfl | (intro _; with_reducible rfl) | exact fun h => not_free h rfl | (intro _; dsimp only; split <;> rfl) | exact rfl | exact fun _ => rfl)
    | dsimp only

theorem snuffPortLost_only {s : State} {p : Nat} (hL : names L [.snuff] = true) 
    (ho : s0.onlyChanges s L) : s0.onlyChanges (State.snuffPortLost s p) L := by
  unfold State.snuffPortLost
  try dsimp only
  repeat' first
    | with_reducible assumption
    | (refine names_trans hL ?_
       try simp only [keyTypes, Nat.reduceMod]
       decide)
    | with_reducible first
      | refine names_cons ?_ ?_
      | refine only_ite ?_ ?_
      | refine only_ite_snd ?_ ?_
      | refine only_ite_fst ?_ ?_
    | split
    | (with_reducible refine modSnuff_only (z := [.snuff]) ?_ ?_ ?_
       · refine names_trans hL ?_
         first | decide | (refine names_of_subset ?_; simp; done)
       iterate 1 · first | with_reducible rfl | (intro _; with_reducible rfl) | exact fun h => not_free h rfl | (intro _; dsimp only; split <;> rfl) | exact rfl | exact fun _ => rfl)
    | dsimp only

theorem snuffNowCmd_only {c : CmdIn} {s : State} (hL : names L [.cmds, .snuff] = true) 
    (ho : s0.onlyChanges s L) : s0.onlyChanges (snuffNowCmd c s) L := by
  unfold snuffNowCmd
  try dsimp only
  repeat' first
    | with_reducible assumption
    | (refine names_trans hL ?_
       try simp only [keyTypes, Nat.reduceMod]
       decide)
    | with_reducible first
      | refine names_cons ?_ ?_
      | refine only_ite ?_ ?_
      | refine only_ite_snd ?_ ?_
      | refine only_ite_fst ?_ ?_
      | refine ok_only (hL := ?_) (ho := ?_)
      | refine waitFor_only (hL := ?_) (ho := ?_)
      | refine snuffTrig_only (hL := ?_) (ho := ?_)
    | split
    | dsimp only

theorem execSnuffNow_only (c : CmdIn) (s : State) : ∃ st', execSnuffNow c s = .next st' ∧ s.onlyChanges st' [.out, .xfers, .lines, .inj, .cmds, .power, .bpwr, .word 0x50 0x54, .activity, .host, .tap, .regs 0x08, .hdr 0x08, .snuff] := by
  refine ⟨_, rfl, only_start fun hL h0 => ?_⟩
  refine settle_only (names_of_subset (by simp)) ?_
  repeat' first
    | with_reducible first
      | exact h0
      | assumption
    | (refine names_trans hL ?_
       try simp only [keyTypes, Nat.reduceMod]
       decide)
    | (refine names_trans hL ?_
       try simp only [keyTypes, Nat.reduceMod]
       refine names_trans (names_of_subset ?_) names_regs_word
       simp
       done)
    | with_reducible first
      | refine names_cons ?_ ?_
      | refine only_ite ?_ ?_
      | refine only_ite_snd ?_ ?_
      | refine only_ite_fst ?_ ?_
      | refine runCmd_only (hL := ?_) (h_effect := fun u hu => ?_) (ho := ?_)
      | refine snuffNowCmd_only (hL := ?_) (ho := ?_)
    | split
    | dsimp only

theorem actSnuff_only {s : State} {b : Bcast} (hL : names L [.snuff, .evts, .hdr 0x61] = true) 
    (ho : s0.onlyChanges s L) : s0.onlyChanges (actSnuff s b).s L := by
  unfold actSnuff
  try dsimp only
  repeat' first
    | with_reducible assumption
    | (refine names_trans hL ?_
       try simp only [keyTypes, Nat.reduceMod]
       decide)
    | with_reducible first
      | refine names_cons ?_ ?_
      | refine only_ite ?_ ?_
      | refine only_ite_snd ?_ ?_
      | refine only_ite_fst ?_ ?_
      | refine only_ite_s ?_ ?_
      | refine evtAdd_only (he := by assumption) (hL := ?_) (ho := ?_)
      | refine snuffState_only (hL := ?_) (ho := ?_)
    | split
    | (with_reducible refine modSnuff_only (z := [.snuff]) ?_ ?_ ?_
       · refine names_trans hL ?_
         first | decide | (refine names_of_subset ?_; simp; done)
       iterate 1 · first | with_reducible rfl | (intro _; with_reducible rfl) | exact fun h => not_free h rfl | (intro _; dsimp only; split <;> rfl) | exact rfl | exact fun _ => rfl)
    | dsimp only

theorem snuffAtCmd_only {c : CmdIn} {s : State} (hL : names L [.cmds, .word 0x08 0x114, .bcasts, .word 0x40 0x50, .hdr 0x40, .inj, .mbox, .snuff, .evts, .hdr 0x61] = true) 
    (ho : s0.onlyChanges s L) : s0.onlyChanges (snuffAtCmd c s) L := by
  unfold snuffAtCmd
  try dsimp only
  repeat' first
    | with_reducible assumption
    | (refine names_trans hL ?_
       try simp only [keyTypes, Nat.reduceMod]
       decide)
    | with_reducible first
      | refine names_cons ?_ ?_
      | refine only_ite ?_ ?_
      | refine only_ite_snd ?_ ?_
      | refine only_ite_fst ?_ ?_
      | refine failCmd_only (hL := ?_) (ho := ?_)
      | refine ok_only (hL := ?_) (ho := ?_)
      | refine res_only (hL := ?_) (ho := ?_)
      | refine bcastSend_only (hL := ?_) (h_act := fun u x1 hu => ?_) (ho := ?_)
      | refine actSnuff_only (hL := ?_) (ho := ?_)
      | refine waitFor_only (hL := ?_) (ho := ?_)
    | split
    | dsimp only

theorem execSnuffAt_only (c : CmdIn) (s : State) : ∃ st', execSnuffAt c s = .next st' ∧ s.onlyChanges st' [.out, .xfers, .lines, .inj, .cmds, .power, .bpwr, .word 0x50 0x54, .activity, .host, .tap, .regs 0x08, .hdr 0x08, .bcasts, .word 0x40 0x50, .hdr 0x40, .mbox, .snuff, .evts, .hdr 0x61] := by
  refine ⟨_, rfl, only_start fun hL h0 => ?_⟩
  refine settle_only (names_of_subset (by simp)) ?_
  repeat' first
    | with_reducible first
      | exact h0
      | assumption
    | (refine names_trans hL ?_
       try simp only [keyTypes, Nat.reduceMod]
       decide)
    | (refine names_trans hL ?_
       try simp only [keyTypes, Nat.reduceMod]
       refine names_trans (names_of_subset ?_) names_regs_word
       simp
       done)
    | with_reducible first
      | refine names_cons ?_ ?_
      | refine only_ite ?_ ?_
      | refine only_ite_snd ?_ ?_
      | refine only_ite_fst ?_ ?_
      | refine runCmd_only (hL := ?_) (h_effect := fun u hu => ?_) (ho := ?_)
      | refine snuffAtCmd_only (hL := ?_) (ho := ?_)
    | split
    | dsimp only

theorem snuffClearCmd_only {c : CmdIn} {s : State} (hL : names L [.cmds, .bcasts, .word 0x40 0x50, .hdr 0x40, .inj, .mbox, .snuff, .evts, .hdr 0x61] = true) 
    (ho : s0.onlyChanges s L) : s0.onlyChanges (snuffClearCmd c s) L := by
  unfold snuffClearCmd
  try dsimp only
  repeat' first
    | with_reducible assumption
    | (refine names_trans hL ?_
       try simp only [keyTypes, Nat.reduceMod]
       decide)
    | with_reducible first
      | refine names_cons ?_ ?_
      | refine only_ite ?_ ?_
      | refine only_ite_snd ?_ ?_
      | refine only_ite_fst ?_ ?_
      | refine failCmd_only (hL := ?_) (ho := ?_)
      | refine waitFor_only (hL := ?_) (ho := ?_)
      | refine bcastSend_only (hL := ?_) (h_act := fun u x1 hu => ?_) (ho := ?_)
      | refine actSnuff_only (hL := ?_) (ho := ?_)
    | split
    | dsimp only

theorem execSnuffClear_only (c : CmdIn) (s : State) : ∃ st', execSnuffClear c s = .next st' ∧ s.onlyChanges st' [.out, .xfers, .lines, .inj, .cmds, .power, .bpwr, .word 0x50 0x54, .activity, .host, .tap, .regs 0x08, .hdr 0x08, .bcasts, .word 0x40 0x50, .hdr 0x40, .mbox, .snuff, .evts, .hdr 0x61] := by
  refine ⟨_, rfl, only_start fun hL h0 => ?_⟩
  refine settle_only (names_of_subset (by simp)) ?_
  repeat' first
    | with_reducible first
      | exact h0
      | assumption
    | (refine names_trans hL ?_
       try simp only [keyTypes, Nat.reduceMod]
       decide)
    | (refine names_trans hL ?_
       try simp only [keyTypes, Nat.reduceMod]
       refine names_trans (names_of_subset ?_) names_regs_word
       simp
       done)
    | with_reducible first
      | refine names_cons ?_ ?_
      | refine only_ite ?_ ?_
      | refine only_ite_snd ?_ ?_
      | refine only_ite_fst ?_ ?_
      | refine runCmd_only (hL := ?_) (h_effect := fun u hu => ?_) (ho := ?_)
      | refine snuffClearCmd_only (hL := ?_) (ho := ?_)
    | split
    | dsimp only

theorem setSnuffDump_only {s : State} {d : WritePlan} (hL : names L [.snuff] = true) 
    (ho : s0.onlyChanges s L) : s0.onlyChanges (State.setSnuffDump s d) L := by
  unfold State.setSnuffDump
  try dsimp only
  repeat' first
    | with_reducible assumption
    | (refine names_trans hL ?_
       try simp only [keyTypes, Nat.reduceMod]
       decide)
    | with_reducible first
      | refine names_cons ?_ ?_
      | refine only_ite ?_ ?_
      | refine only_ite_snd ?_ ?_
      | refine only_ite_fst ?_ ?_
    | split
    | (with_reducible refine modSnuff_only (z := [.snuff]) ?_ ?_ ?_
       · refine names_trans hL ?_
         first | decide | (refine names_of_subset ?_; simp; done)
       iterate 1 · first | with_reducible rfl | (intro _; with_reducible rfl) | exact fun h => not_free h rfl | (intro _; dsimp only; split <;> rfl) | exact rfl | exact fun _ => rfl)
    | dsimp only

theorem snuffDumpNext_only {s : State} {d : WritePlan} (hL : names L [.cmds, .word 0x08 0x100, .snuff, .out, .xfers] = true) 
    (ho : s0.onlyChanges s L) : s0.onlyChanges (State.snuffDumpNext s d) L := by
  unfold State.snuffDumpNext
  try dsimp only
  repeat' first
    | with_reducible assumption
    | (refine names_trans hL ?_
       try simp only [keyTypes, Nat.reduceMod]
       decide)
    | with_reducible first
      | refine names_cons ?_ ?_
      | refine only_ite ?_ ?_
      | refine only_ite_snd ?_ ?_
      | refine only_ite_fst ?_ ?_
      | refine complete_only (hL := ?_) (ho := ?_)
      | refine setRes_only (hL := ?_) (ho := ?_)
      | refine cmdXfer_only (hL := ?_) (ho := ?_)
      | refine setSnuffDump_only (hL := ?_) (ho := ?_)
    | split
    | (with_reducible refine modSnuff_only (z := [.snuff]) ?_ ?_ ?_
       · refine names_trans hL ?_
         first | decide | (refine names_of_subset ?_; simp; done)
       iterate 1 · first | with_reducible rfl | (intro _; with_reducible rfl) | exact fun h => not_free h rfl | (intro _; dsimp only; split <;> rfl) | exact rfl | exact fun _ => rfl)
    | dsimp only

theorem snuffDumpCmd_only {c : CmdIn} {s : State} (hL : names L [.cmds, .word 0x08 0x100, .snuff, .out, .xfers] = true) 
    (ho : s0.onlyChanges s L) : s0.onlyChanges (snuffDumpCmd c s) L := by
  unfold snuffDumpCmd
  try dsimp only
  repeat' first
    | with_reducible assumption
    | (refine names_trans hL ?_
       try simp only [keyTypes, Nat.reduceMod]
       decide)
    | with_reducible first
      | refine names_cons ?_ ?_
      | refine only_ite ?_ ?_
      | refine only_ite_snd ?_ ?_
      | refine only_ite_fst ?_ ?_
      | refine badArg_only (hL := ?_) (ho := ?_)
      | refine failCmd_only (hL := ?_) (ho := ?_)
      | refine snuffDumpNext_only (hL := ?_) (ho := ?_)
    | split
    | dsimp only

theorem execSnuffDump_only (c : CmdIn) (s : State) : ∃ st', execSnuffDump c s = .next st' ∧ s.onlyChanges st' [.out, .xfers, .lines, .inj, .cmds, .power, .bpwr, .word 0x50 0x54, .activity, .host, .tap, .regs 0x08, .hdr 0x08, .snuff] := by
  refine ⟨_, rfl, only_start fun hL h0 => ?_⟩
  refine settle_only (names_of_subset (by simp)) ?_
  repeat' first
    | with_reducible first
      | exact h0
      | assumption
    | (refine names_trans hL ?_
       try simp only [keyTypes, Nat.reduceMod]
       decide)
    | (refine names_trans hL ?_
       try simp only [keyTypes, Nat.reduceMod]
       refine names_trans (names_of_subset ?_) names_regs_word
       simp
       done)
    | with_reducible first
      | refine names_cons ?_ ?_
      | refine only_ite ?_ ?_
      | refine only_ite_snd ?_ ?_
      | refine only_ite_fst ?_ ?_
      | refine runCmd_only (hL := ?_) (h_effect := fun u hu => ?_) (ho := ?_)
      | refine snuffDumpCmd_only (hL := ?_) (ho := ?_)
    | split
    | dsimp only

theorem execSnuffRelease_only (c : CmdIn) (s : State) : ∃ st', execSnuffRelease c s = .next st' ∧ s.onlyChanges st' [.out, .xfers, .lines, .inj, .cmds, .power, .bpwr, .word 0x50 0x54, .activity, .host, .tap, .regs 0x08, .hdr 0x08, .snuff] := by
  refine ⟨_, rfl, only_start fun hL h0 => ?_⟩
  refine settle_only (names_of_subset (by simp)) ?_
  repeat' first
    | with_reducible first
      | exact h0
      | assumption
    | (refine names_trans hL ?_
       try simp only [keyTypes, Nat.reduceMod]
       decide)
    | (refine names_trans hL ?_
       try simp only [keyTypes, Nat.reduceMod]
       refine names_trans (names_of_subset ?_) names_regs_word
       simp
       done)
    | with_reducible first
      | refine names_cons ?_ ?_
      | refine only_ite ?_ ?_
      | refine only_ite_snd ?_ ?_
      | refine only_ite_fst ?_ ?_
      | refine runCmd_only (hL := ?_) (h_effect := fun u hu => ?_) (ho := ?_)
      | refine ok_only (hL := ?_) (ho := ?_)
    | split
    | (with_reducible refine modSnuff_only (z := [.snuff]) ?_ ?_ ?_
       · refine names_trans hL ?_
         first | decide | (refine names_of_subset ?_; simp; done)
       iterate 1 · first | with_reducible rfl | (intro _; with_reducible rfl) | exact fun h => not_free h rfl | (intro _; dsimp only; split <;> rfl) | exact rfl | exact fun _ => rfl)
    | dsimp only

theorem snuffPin_only {s : State} {low : Bool} (hL : names L [.snuff] = true) 
    (ho : s0.onlyChanges s L) : s0.onlyChanges (State.snuffPin s low) L := by
  unfold State.snuffPin
  try dsimp only
  repeat' first
    | with_reducible assumption
    | (refine names_trans hL ?_
       try simp only [keyTypes, Nat.reduceMod]
       decide)
    | with_reducible first
      | refine names_cons ?_ ?_
      | refine only_ite ?_ ?_
      | refine only_ite_snd ?_ ?_
      | refine only_ite_fst ?_ ?_
      | refine snuffTrig_only (hL := ?_) (ho := ?_)
    | split
    | (with_reducible refine modSnuff_only (z := [.snuff]) ?_ ?_ ?_
       · refine names_trans hL ?_
         first | decide | (refine names_of_subset ?_; simp; done)
       iterate 1 · first | with_reducible rfl | (intro _; with_reducible rfl) | exact fun h => not_free h rfl | (intro _; dsimp only; split <;> rfl) | exact rfl | exact fun _ => rfl)
    | dsimp only

theorem snuffDumpLoaded_only {s : State} {pkg : Bool} {page : Nat} {failed : Bool} (hL : names L [.cmds, .snuff, .word 0x08 0x100, .out, .xfers] = true) 
    (ho : s0.onlyChanges s L) : s0.onlyChanges (State.snuffDumpLoaded s pkg page failed) L := by
  unfold State.snuffDumpLoaded
  try dsimp only
  repeat' first
    | with_reducible assumption
    | (refine names_trans hL ?_
       try simp only [keyTypes, Nat.reduceMod]
       decide)
    | with_reducible first
      | refine names_cons ?_ ?_
      | refine only_ite ?_ ?_
      | refine only_ite_snd ?_ ?_
      | refine only_ite_fst ?_ ?_
      | refine complete_only (hL := ?_) (ho := ?_)
      | refine snuffDumpNext_only (hL := ?_) (ho := ?_)
    | split
    | (with_reducible refine modSnuff_only (z := [.snuff]) ?_ ?_ ?_
       · refine names_trans hL ?_
         first | decide | (refine names_of_subset ?_; simp; done)
       iterate 1 · first | with_reducible rfl | (intro _; with_reducible rfl) | exact fun h => not_free h rfl | (intro _; dsimp only; split <;> rfl) | exact rfl | exact fun _ => rfl)
    | dsimp only

theorem stopNoAck_only {s : State} {p : Nat} (hL : names L [.hdr 0x61, .snuff] = true) 
    (ho : s0.onlyChanges s L) : s0.onlyChanges (State.stopNoAck s p) L := by
  unfold State.stopNoAck
  try dsimp only
  repeat' first
    | with_reducible assumption
    | (refine names_trans hL ?_
       try simp only [keyTypes, Nat.reduceMod]
       decide)
    | with_reducible first
      | refine names_cons ?_ ?_
      | refine only_ite ?_ ?_
      | refine only_ite_snd ?_ ?_
      | refine only_ite_fst ?_ ?_
      | refine setErr_only (hL := ?_) (ho := ?_)
    | split
    | (with_reducible refine modSnuff_only (z := [.snuff]) ?_ ?_ ?_
       · refine names_trans hL ?_
         first | decide | (refine names_of_subset ?_; simp; done)
       iterate 1 · first | with_reducible rfl | (intro _; with_reducible rfl) | exact fun h => not_free h rfl | (intro _; dsimp only; split <;> rfl) | exact rfl | exact fun _ => rfl)
    | dsimp only

theorem markerBcast_only {s : State} (hL : names L [.bcasts] = true) 
    (ho : s0.onlyChanges s L) : s0.onlyChanges (State.markerBcast s).2 L := by
  unfold State.markerBcast
  try dsimp only
  repeat' first
    | with_reducible assumption
    | (refine names_trans hL ?_
       try simp only [keyTypes, Nat.reduceMod]
       decide)
    | with_reducible first
      | refine names_cons ?_ ?_
      | refine only_ite ?_ ?_
      | refine only_ite_snd ?_ ?_
      | refine only_ite_fst ?_ ?_
      | refine bcastNew_only (hL := ?_) (ho := ?_)
    | split
    | dsimp only

theorem markerOn_only {s : State} {b : Bcast} {p : Nat} (hL : names L [.ports] = true) 
    (ho : s0.onlyChanges s L) : s0.onlyChanges (State.markerOn s b p) L := by
  unfold State.markerOn
  try dsimp only
  repeat' first
    | with_reducible assumption
    | (refine names_trans hL ?_
       try simp only [keyTypes, Nat.reduceMod]
       decide)
    | with_reducible first
      | refine names_cons ?_ ?_
      | refine only_ite ?_ ?_
      | refine only_ite_snd ?_ ?_
      | refine only_ite_fst ?_ ?_
      | refine setQueue_only (hL := ?_) (ho := ?_)
      | refine only_foldl (fun u x hu => ?_) ?_
      | refine only_foldl_snd (fun u x hu => ?_) ?_
      | refine only_foldl_fst (fun u x hu => ?_) ?_
    | split
    | dsimp only

theorem snuffLinkUp_only {s : State} {p : Nat} (hL : names L [.bcasts, .ports, .snuff] = true) 
    (ho : s0.onlyChanges s L) : s0.onlyChanges (State.snuffLinkUp s p) L := by
  unfold State.snuffLinkUp
  try dsimp only
  repeat' first
    | with_reducible assumption
    | (refine names_trans hL ?_
       try simp only [keyTypes, Nat.reduceMod]
       decide)
    | with_reducible first
      | refine names_cons ?_ ?_
      | refine only_ite ?_ ?_
      | refine only_ite_snd ?_ ?_
      | refine only_ite_fst ?_ ?_
      | refine markerBcast_only (hL := ?_) (ho := ?_)
      | refine markerOn_only (hL := ?_) (ho := ?_)
    | split
    | (with_reducible refine modSnuff_only (z := [.snuff]) ?_ ?_ ?_
       · refine names_trans hL ?_
         first | decide | (refine names_of_subset ?_; simp; done)
       iterate 1 · first | with_reducible rfl | (intro _; with_reducible rfl) | exact fun h => not_free h rfl | (intro _; dsimp only; split <;> rfl) | exact rfl | exact fun _ => rfl)
    | dsimp only

theorem snuffWarm_only {s : State} (hL : names L [.hdr 0x61, .heldRecs, .snuff] = true) 
    (ho : s0.onlyChanges s L) : s0.onlyChanges (State.snuffWarm s) L := by
  unfold State.snuffWarm
  try dsimp only
  repeat' first
    | with_reducible assumption
    | (refine names_trans hL ?_
       try simp only [keyTypes, Nat.reduceMod]
       decide)
    | with_reducible first
      | refine names_cons ?_ ?_
      | refine only_ite ?_ ?_
      | refine only_ite_snd ?_ ?_
      | refine only_ite_fst ?_ ?_
      | refine setErr_only (hL := ?_) (ho := ?_)
    | split
    | (with_reducible refine modSnuff_only (z := [.snuff]) ?_ ?_ ?_
       · refine names_trans hL ?_
         first | decide | (refine names_of_subset ?_; simp; done)
       iterate 1 · first | with_reducible rfl | (intro _; with_reducible rfl) | exact fun h => not_free h rfl | (intro _; dsimp only; split <;> rfl) | exact rfl | exact fun _ => rfl)
    | (with_reducible refine only_samp (z := [.heldRecs]) ?_ ?_ ?_ ?_ ?_ ?_ ?_ ?_ ?_
       · refine names_trans hL ?_
         first | decide | (refine names_of_subset ?_; simp; done)
       iterate 7 · first | with_reducible rfl | (intro _; with_reducible rfl) | exact fun h => not_free h rfl | (intro _; dsimp only; split <;> rfl) | exact rfl | exact fun _ => rfl)
    | dsimp only

theorem snuffRegion_only {s : State} {r : Nat} (hL : names L [.hdr 0x61, .heldRecs, .snuff] = true) 
    (ho : s0.onlyChanges s L) : s0.onlyChanges (State.snuffRegion s r) L := by
  unfold State.snuffRegion
  try dsimp only
  repeat' first
    | with_reducible assumption
    | (refine names_trans hL ?_
       try simp only [keyTypes, Nat.reduceMod]
       decide)
    | with_reducible first
      | refine names_cons ?_ ?_
      | refine only_ite ?_ ?_
      | refine only_ite_snd ?_ ?_
      | refine only_ite_fst ?_ ?_
      | refine setErr_only (hL := ?_) (ho := ?_)
    | split
    | (with_reducible refine modSnuff_only (z := [.snuff]) ?_ ?_ ?_
       · refine names_trans hL ?_
         first | decide | (refine names_of_subset ?_; simp; done)
       iterate 1 · first | with_reducible rfl | (intro _; with_reducible rfl) | exact fun h => not_free h rfl | (intro _; dsimp only; split <;> rfl) | exact rfl | exact fun _ => rfl)
    | (with_reducible refine only_samp (z := [.heldRecs]) ?_ ?_ ?_ ?_ ?_ ?_ ?_ ?_ ?_
       · refine names_trans hL ?_
         first | decide | (refine names_of_subset ?_; simp; done)
       iterate 7 · first | with_reducible rfl | (intro _; with_reducible rfl) | exact fun h => not_free h rfl | (intro _; dsimp only; split <;> rfl) | exact rfl | exact fun _ => rfl)
    | dsimp only

theorem stopProbe_only {s : State} {p : Nat} (hL : names L [.probes, .snuff] = true) 
    (ho : s0.onlyChanges s L) : s0.onlyChanges (State.stopProbe s p) L := by
  unfold State.stopProbe
  try dsimp only
  repeat' first
    | with_reducible assumption
    | (refine names_trans hL ?_
       try simp only [keyTypes, Nat.reduceMod]
       decide)
    | with_reducible first
      | refine names_cons ?_ ?_
      | refine only_ite ?_ ?_
      | refine only_ite_snd ?_ ?_
      | refine only_ite_fst ?_ ?_
      | refine raiseGate_only (hL := ?_) (ho := ?_)
    | split
    | (with_reducible refine modSnuff_only (z := [.snuff]) ?_ ?_ ?_
       · refine names_trans hL ?_
         first | decide | (refine names_of_subset ?_; simp; done)
       iterate 1 · first | with_reducible rfl | (intro _; with_reducible rfl) | exact fun h => not_free h rfl | (intro _; dsimp only; split <;> rfl) | exact rfl | exact fun _ => rfl)
    | dsimp only

theorem snuffPacket_only {s : State} {clear : Bool} (hL : names L [.hdr 0x60, .inj, .trace, .regs 0x60, .rings, .ringQ, .out, .xfers, .mbox] = true) 
    (ho : s0.onlyChanges s L) : s0.onlyChanges (State.snuffPacket s clear) L := by
  unfold State.snuffPacket
  try dsimp only
  repeat' first
    | with_reducible assumption
    | (refine names_trans hL ?_
       try simp only [keyTypes, Nat.reduceMod]
       decide)
    | (refine names_trans hL ?_
       try simp only [keyTypes, Nat.reduceMod]
       refine names_trans (names_of_subset ?_) names_regs_word
       simp
       done)
    | with_reducible first
      | refine names_cons ?_ ?_
      | refine only_ite ?_ ?_
      | refine only_ite_snd ?_ ?_
      | refine only_ite_fst ?_ ?_
      | refine ringOffer_only (hL := ?_) (ho := ?_)
      | refine only_foldl (fun u x hu => ?_) ?_
      | refine only_foldl_snd (fun u x hu => ?_) ?_
      | refine only_foldl_fst (fun u x hu => ?_) ?_
    | split
    | dsimp only

theorem snuffCut_only {s : State} {t : SnuffTrig} {late : Bool} (hL : names L [.snap, .heldRecs, .hdr 0x61, .snuff, .probes, .inj, .bcasts, .ports, .engines, .word 0x20 0x54, .staged, .recs, .hdr 0x58, .kats, .cmds, .gens, .spares, .violations, .word 0x08 0x100, .jobs, .evts, .geyser, .mbox, .ringQ, .out, .xfers, .trace, .hdr 0x60, .regs 0x60, .rings] = true) 
    (ho : s0.onlyChanges s L) : s0.onlyChanges (State.snuffCut s t late) L := by
  unfold State.snuffCut
  try dsimp only
  repeat' first
    | with_reducible assumption
    | (refine names_trans hL ?_
       try simp only [keyTypes, Nat.reduceMod]
       decide)
    | (refine names_trans hL ?_
       try simp only [keyTypes, Nat.reduceMod]
       refine names_trans (names_of_subset ?_) names_regs_word
       simp
       done)
    | with_reducible first
      | refine names_cons ?_ ?_
      | refine only_ite ?_ ?_
      | refine only_ite_snd ?_ ?_
      | refine only_ite_fst ?_ ?_
      | refine snapTake_only (hL := ?_) (ho := ?_)
      | refine snuffState_only (hL := ?_) (ho := ?_)
      | refine stopProbe_only (hL := ?_) (ho := ?_)
      | refine injTake_only (hL := ?_) (ho := ?_)
      | refine markerBcast_only (hL := ?_) (ho := ?_)
      | refine markerOn_only (hL := ?_) (ho := ?_)
      | refine batchEnd_only (hL := ?_) (ho := ?_)
      | refine katAbandon_only (hL := ?_) (ho := ?_)
      | refine svcSnuff_only (hL := ?_) (ho := ?_)
      | refine gySnuff_only (hL := ?_) (ho := ?_)
      | refine trigOut_only (hL := ?_) (ho := ?_)
      | refine snuffPacket_only (hL := ?_) (ho := ?_)
      | refine only_foldl (fun u x hu => ?_) ?_
      | refine only_foldl_snd (fun u x hu => ?_) ?_
      | refine only_foldl_fst (fun u x hu => ?_) ?_
    | split
    | (with_reducible refine modSnuff_only (z := [.snuff]) ?_ ?_ ?_
       · refine names_trans hL ?_
         first | decide | (refine names_of_subset ?_; simp; done)
       iterate 1 · first | with_reducible rfl | (intro _; with_reducible rfl) | exact fun h => not_free h rfl | (intro _; dsimp only; split <;> rfl) | exact rfl | exact fun _ => rfl)
    | dsimp only

theorem snuffAtEnd_only {s : State} {o : SnuffOrder} {absorbed : Nat} (hL : names L [.cmds, .word 0x08 0x114, .word 0x08 0x110, .word 0x08 0x10C, .word 0x08 0x108, .word 0x08 0x104, .word 0x08 0x100] = true) 
    (ho : s0.onlyChanges s L) : s0.onlyChanges (State.snuffAtEnd s o absorbed) L := by
  unfold State.snuffAtEnd
  try dsimp only
  repeat' first
    | with_reducible assumption
    | (refine names_trans hL ?_
       try simp only [keyTypes, Nat.reduceMod]
       decide)
    | with_reducible first
      | refine names_cons ?_ ?_
      | refine only_ite ?_ ?_
      | refine only_ite_snd ?_ ?_
      | refine only_ite_fst ?_ ?_
      | refine snuffAtDone_only (hL := ?_) (ho := ?_)
    | split
    | dsimp only

theorem snuffNowDone_only {s : State} (hL : names L [.cmds] = true) 
    (ho : s0.onlyChanges s L) : s0.onlyChanges (State.snuffNowDone s) L := by
  unfold State.snuffNowDone
  try dsimp only
  repeat' first
    | with_reducible assumption
    | (refine names_trans hL ?_
       try simp only [keyTypes, Nat.reduceMod]
       decide)
    | with_reducible first
      | refine names_cons ?_ ?_
      | refine only_ite ?_ ?_
      | refine only_ite_snd ?_ ?_
      | refine only_ite_fst ?_ ?_
      | refine complete_only (hL := ?_) (ho := ?_)
      | refine only_foldl (fun u x hu => ?_) ?_
      | refine only_foldl_snd (fun u x hu => ?_) ?_
      | refine only_foldl_fst (fun u x hu => ?_) ?_
    | split
    | dsimp only

theorem snuffTime_only {s : State} {o : SnuffOrder} (hL : names L [.evts, .now, .snuff, .cmds, .word 0x08 0x114, .word 0x08 0x110, .word 0x08 0x10C, .word 0x08 0x108, .word 0x08 0x104, .word 0x08 0x100, .snap, .heldRecs, .hdr 0x61, .probes, .inj, .bcasts, .ports, .engines, .word 0x20 0x54, .staged, .recs, .hdr 0x58, .kats, .gens, .spares, .violations, .jobs, .geyser, .mbox, .ringQ, .out, .xfers, .trace, .hdr 0x60, .regs 0x60, .rings] = true) 
    (ho : s0.onlyChanges s L) : s0.onlyChanges (State.snuffTime s o) L := by
  unfold State.snuffTime
  try dsimp only
  repeat' first
    | with_reducible assumption
    | (refine names_trans hL ?_
       try simp only [keyTypes, Nat.reduceMod]
       decide)
    | (refine names_trans hL ?_
       try simp only [keyTypes, Nat.reduceMod]
       refine names_trans (names_of_subset ?_) names_regs_word
       simp
       done)
    | with_reducible first
      | refine names_cons ?_ ?_
      | refine only_ite ?_ ?_
      | refine only_ite_snd ?_ ?_
      | refine only_ite_fst ?_ ?_
      | refine evtDrop_only (hL := ?_) (ho := ?_)
      | refine advanceTo_only (hL := ?_) (ho := ?_)
      | refine snuffAtDone_only (hL := ?_) (ho := ?_)
      | refine snuffNowDone_only (hL := ?_) (ho := ?_)
      | refine snuffAtEnd_only (hL := ?_) (ho := ?_)
      | refine snuffCut_only (hL := ?_) (ho := ?_)
    | split
    | (with_reducible refine modSnuff_only (z := [.snuff]) ?_ ?_ ?_
       · refine names_trans hL ?_
         first | decide | (refine names_of_subset ?_; simp; done)
       iterate 1 · first | with_reducible rfl | (intro _; with_reducible rfl) | exact fun h => not_free h rfl | (intro _; dsimp only; split <;> rfl) | exact rfl | exact fun _ => rfl)
    | dsimp only

theorem markerTake_only {s : State} {p : Nat} {b : Bcast} (hL : names L [.snuff, .hdr 0x61] = true) 
    (ho : s0.onlyChanges s L) : s0.onlyChanges (State.markerTake s p b) L := by
  unfold State.markerTake
  try dsimp only
  repeat' first
    | with_reducible assumption
    | (refine names_trans hL ?_
       try simp only [keyTypes, Nat.reduceMod]
       decide)
    | with_reducible first
      | refine names_cons ?_ ?_
      | refine only_ite ?_ ?_
      | refine only_ite_snd ?_ ?_
      | refine only_ite_fst ?_ ?_
      | refine setErr_only (hL := ?_) (ho := ?_)
    | split
    | (with_reducible refine modSnuff_only (z := [.snuff]) ?_ ?_ ?_
       · refine names_trans hL ?_
         first | decide | (refine names_of_subset ?_; simp; done)
       iterate 1 · first | with_reducible rfl | (intro _; with_reducible rfl) | exact fun h => not_free h rfl | (intro _; dsimp only; split <;> rfl) | exact rfl | exact fun _ => rfl)
    | dsimp only

theorem snuffResume_only {s : State} {dead : BitVec 16 → Nat → Bool} (hL : names L [.hdr 0x61, .snuff, .probes, .staged, .recs, .hdr 0x58, .regs 0x93, .regs 0x91, .regs 0x38, .violations, .ports, .suspects, .hdr 0x28, .hdr 0x12, .gens, .spares, .sinter, .chans, .regs 0x31, .word 0x40 0x54, .cmds, .out, .xfers, .word 0x08 0x108, .word 0x08 0x104, .word 0x08 0x100, .trace, .hdr 0x60, .inj, .regs 0x60, .rings, .ringQ, .mbox, .engines, .taint, .kernels, .kats, .notices, .word 0x28 0xC4, .redInputs] = true) 
    (ho : s0.onlyChanges s L) : s0.onlyChanges (State.snuffResume s dead) L := by
  unfold State.snuffResume
  try dsimp only
  repeat' first
    | with_reducible assumption
    | (refine names_trans hL ?_
       try simp only [keyTypes, Nat.reduceMod]
       decide)
    | (refine names_trans hL ?_
       try simp only [keyTypes, Nat.reduceMod]
       refine names_trans (names_of_subset ?_) names_regs_word
       simp
       done)
    | (refine names_trans hL ?_
       refine names_trans (names_of_subset ?_) names_port_word
       simp
       done)
    | with_reducible first
      | refine names_cons ?_ ?_
      | refine only_ite ?_ ?_
      | refine only_ite_snd ?_ ?_
      | refine only_ite_fst ?_ ?_
      | refine snuffState_only (hL := ?_) (ho := ?_)
      | refine lowerGate_only (hL := ?_) (ho := ?_)
      | refine dispatch_only (hL := ?_) (ho := ?_)
      | refine packResume_only (hL := ?_) (ho := ?_)
      | refine trigOut_only (hL := ?_) (ho := ?_)
      | refine snuffPacket_only (hL := ?_) (ho := ?_)
      | refine batchAfter_only (hL := ?_) (ho := ?_)
      | refine sideResume_only (hL := ?_) (ho := ?_)
      | refine complete_only (hL := ?_) (ho := ?_)
      | refine only_foldl (fun u x hu => ?_) ?_
      | refine only_foldl_snd (fun u x hu => ?_) ?_
      | refine only_foldl_fst (fun u x hu => ?_) ?_
    | split
    | (with_reducible refine modSnuff_only (z := [.snuff]) ?_ ?_ ?_
       · refine names_trans hL ?_
         first | decide | (refine names_of_subset ?_; simp; done)
       iterate 1 · first | with_reducible rfl | (intro _; with_reducible rfl) | exact fun h => not_free h rfl | (intro _; dsimp only; split <;> rfl) | exact rfl | exact fun _ => rfl)
    | dsimp only

theorem execSnuffCut_only (s : State) : ∃ st', execSnuffCut s = .next st' ∧ s.onlyChanges st' [.out, .xfers, .lines, .inj, .evts, .now, .snuff, .cmds, .word 0x08 0x114, .word 0x08 0x110, .word 0x08 0x10C, .word 0x08 0x108, .word 0x08 0x104, .word 0x08 0x100, .snap, .heldRecs, .hdr 0x61, .probes, .bcasts, .ports, .engines, .word 0x20 0x54, .staged, .recs, .hdr 0x58, .kats, .gens, .spares, .violations, .jobs, .geyser, .mbox, .ringQ, .trace, .hdr 0x60, .regs 0x60, .rings] := by
  refine ⟨_, rfl, only_start fun hL h0 => ?_⟩
  refine settle_only (names_of_subset (by simp)) ?_
  repeat' first
    | with_reducible first
      | exact h0
      | assumption
    | (refine names_trans hL ?_
       try simp only [keyTypes, Nat.reduceMod]
       decide)
    | (refine names_trans hL ?_
       try simp only [keyTypes, Nat.reduceMod]
       refine names_trans (names_of_subset ?_) names_regs_word
       simp
       done)
    | with_reducible first
      | refine names_cons ?_ ?_
      | refine only_ite ?_ ?_
      | refine only_ite_snd ?_ ?_
      | refine only_ite_fst ?_ ?_
      | refine snuffTime_only (hL := ?_) (ho := ?_)
      | refine snuffNowDone_only (hL := ?_) (ho := ?_)
      | refine snuffCut_only (hL := ?_) (ho := ?_)
    | split
    | (with_reducible refine modSnuff_only (z := [.snuff]) ?_ ?_ ?_
       · refine names_trans hL ?_
         first | decide | (refine names_of_subset ?_; simp; done)
       iterate 1 · first | with_reducible rfl | (intro _; with_reducible rfl) | exact fun h => not_free h rfl | (intro _; dsimp only; split <;> rfl) | exact rfl | exact fun _ => rfl)
    | dsimp only

theorem execStopAck_only (probe edges : Nat) (s : State) : ∃ st', execStopAck probe edges s = .next st' ∧ s.onlyChanges st' [.out, .xfers, .lines, .inj, .probes, .snuff] := by
  refine ⟨_, rfl, only_start fun hL h0 => ?_⟩
  refine settle_only (names_of_subset (by simp)) ?_
  repeat' first
    | with_reducible first
      | exact h0
      | assumption
    | (refine names_trans hL ?_
       try simp only [keyTypes, Nat.reduceMod]
       decide)
    | with_reducible first
      | refine names_cons ?_ ?_
      | refine only_ite ?_ ?_
      | refine only_ite_snd ?_ ?_
      | refine only_ite_fst ?_ ?_
      | refine ackFalls_only (hL := ?_) (ho := ?_)
      | refine ackGate_only (hL := ?_) (ho := ?_)
    | split
    | (with_reducible refine modSnuff_only (z := [.snuff]) ?_ ?_ ?_
       · refine names_trans hL ?_
         first | decide | (refine names_of_subset ?_; simp; done)
       iterate 1 · first | with_reducible rfl | (intro _; with_reducible rfl) | exact fun h => not_free h rfl | (intro _; dsimp only; split <;> rfl) | exact rfl | exact fun _ => rfl)
    | dsimp only

/-! Waves -/

theorem waveLog_only {s : State} {w : WaveSet} (hL : names L [.staged, .recs, .hdr 0x58] = true) 
    (ho : s0.onlyChanges s L) : s0.onlyChanges (State.waveLog s w) L := by
  unfold State.waveLog
  try dsimp only
  repeat' first
    | with_reducible assumption
    | (refine names_trans hL ?_
       try simp only [keyTypes, Nat.reduceMod]
       decide)
    | with_reducible first
      | refine names_cons ?_ ?_
      | refine only_ite ?_ ?_
      | refine only_ite_snd ?_ ?_
      | refine only_ite_fst ?_ ?_
      | refine log_only (hL := ?_) (ho := ?_)
    | split
    | dsimp only

theorem waveDrop_only {s : State} {w : WaveSet} (hL : names L [.evts, .waves] = true) 
    (ho : s0.onlyChanges s L) : s0.onlyChanges (State.waveDrop s w) L := by
  unfold State.waveDrop
  try dsimp only
  repeat' first
    | with_reducible assumption
    | (refine names_trans hL ?_
       try simp only [keyTypes, Nat.reduceMod]
       decide)
    | with_reducible first
      | refine names_cons ?_ ?_
      | refine only_ite ?_ ?_
      | refine only_ite_snd ?_ ?_
      | refine only_ite_fst ?_ ?_
      | refine evtDrop_only (hL := ?_) (ho := ?_)
    | split
    | (with_reducible refine modHp_only (z := [.waves]) ?_ ?_ ?_ ?_ ?_ ?_ ?_ ?_ ?_ ?_ ?_
       · refine names_trans hL ?_
         first | decide | (refine names_of_subset ?_; simp; done)
       iterate 9 · first | with_reducible rfl | (intro _; with_reducible rfl) | exact fun h => not_free h rfl | (intro _; dsimp only; split <;> rfl) | exact rfl | exact fun _ => rfl)
    | dsimp only

theorem barrierEnd_only {s : State} {w : WaveSet} {st : Byte} {detail : Nat} (hL : names L [.regs 0x08, .cmds] = true) 
    (ho : s0.onlyChanges s L) : s0.onlyChanges (State.barrierEnd s w st detail) L := by
  unfold State.barrierEnd
  try dsimp only
  repeat' first
    | with_reducible assumption
    | (refine names_trans hL ?_
       try simp only [keyTypes, Nat.reduceMod]
       decide)
    | (refine names_trans hL ?_
       try simp only [keyTypes, Nat.reduceMod]
       refine names_trans (names_of_subset ?_) names_regs_word
       simp
       done)
    | with_reducible first
      | refine names_cons ?_ ?_
      | refine only_ite ?_ ?_
      | refine only_ite_snd ?_ ?_
      | refine only_ite_fst ?_ ?_
      | refine setRes_only (hL := ?_) (ho := ?_)
      | refine complete_only (hL := ?_) (ho := ?_)
      | refine only_foldl (fun u x hu => ?_) ?_
      | refine only_foldl_snd (fun u x hu => ?_) ?_
      | refine only_foldl_fst (fun u x hu => ?_) ?_
    | split
    | dsimp only

theorem waveFail_only {s : State} {w : WaveSet} {snuffed : Bool} (hL : names L [.staged, .recs, .hdr 0x58, .evts, .waves, .regs 0x08, .cmds] = true) 
    (ho : s0.onlyChanges s L) : s0.onlyChanges (State.waveFail s w snuffed) L := by
  unfold State.waveFail
  try dsimp only
  repeat' first
    | with_reducible assumption
    | (refine names_trans hL ?_
       try simp only [keyTypes, Nat.reduceMod]
       decide)
    | (refine names_trans hL ?_
       try simp only [keyTypes, Nat.reduceMod]
       refine names_trans (names_of_subset ?_) names_regs_word
       simp
       done)
    | with_reducible first
      | refine names_cons ?_ ?_
      | refine only_ite ?_ ?_
      | refine only_ite_snd ?_ ?_
      | refine only_ite_fst ?_ ?_
      | refine waveLog_only (hL := ?_) (ho := ?_)
      | refine waveDrop_only (hL := ?_) (ho := ?_)
      | refine barrierEnd_only (hL := ?_) (ho := ?_)
    | split
    | dsimp only

theorem waveArm_only {s : State} {origin : BitVec 16} {seq : BitVec 32} {job : Bool} {ident : BitVec 32} {t : FT} {mask window : Nat} (hL : names L [.hdr 0x48, .waves] = true) 
    (ho : s0.onlyChanges s L) : s0.onlyChanges (State.waveArm s origin seq job ident t mask window) L := by
  unfold State.waveArm
  try dsimp only
  repeat' first
    | with_reducible assumption
    | (refine names_trans hL ?_
       try simp only [keyTypes, Nat.reduceMod]
       decide)
    | with_reducible first
      | refine names_cons ?_ ?_
      | refine only_ite ?_ ?_
      | refine only_ite_snd ?_ ?_
      | refine only_ite_fst ?_ ?_
      | refine hpErr_only (hL := ?_) (ho := ?_)
    | split
    | (with_reducible refine modHp_only (z := [.waves]) ?_ ?_ ?_ ?_ ?_ ?_ ?_ ?_ ?_ ?_ ?_
       · refine names_trans hL ?_
         first | decide | (refine names_of_subset ?_; simp; done)
       iterate 9 · first | with_reducible rfl | (intro _; with_reducible rfl) | exact fun h => not_free h rfl | (intro _; dsimp only; split <;> rfl) | exact rfl | exact fun _ => rfl)
    | dsimp only

theorem barrierArm_only {s : State} {b : Bcast} (hL : names L [.evts, .hdr 0x48, .waves, .staged, .recs, .hdr 0x58, .hdr 0x40, .word 0x40 0x50] = true) 
    (ho : s0.onlyChanges s L) : s0.onlyChanges (State.barrierArm s b).s L := by
  unfold State.barrierArm
  try dsimp only
  repeat' first
    | with_reducible assumption
    | (refine names_trans hL ?_
       try simp only [keyTypes, Nat.reduceMod]
       decide)
    | with_reducible first
      | refine names_cons ?_ ?_
      | refine only_ite ?_ ?_
      | refine only_ite_snd ?_ ?_
      | refine only_ite_fst ?_ ?_
      | refine only_ite_s ?_ ?_
      | refine evtAdd_only (he := by assumption) (hL := ?_) (ho := ?_)
      | refine waveArm_only (hL := ?_) (ho := ?_)
      | refine log_only (hL := ?_) (ho := ?_)
      | refine svcErr_only (hL := ?_) (ho := ?_)
      | refine bumpFld_only (hL := ?_) (ho := ?_)
      | refine only_getD (fun t ht => ?_) ?_
    | split
    | dsimp only

theorem actWaves_only {s : State} {b : Bcast} (hL : names L [.evts, .hdr 0x48, .waves, .staged, .recs, .hdr 0x58, .hdr 0x40, .word 0x40 0x50, .jobs, .gens, .verify, .ringQ, .out, .xfers, .word 0x40 0x6C, .mbox, .svcNotices, .cmds, .word 0x08 0x110, .word 0x08 0x10C, .word 0x08 0x108, .word 0x08 0x104, .word 0x08 0x100, .hdr 0x12, .spares] = true) 
    (ho : s0.onlyChanges s L) : s0.onlyChanges (actWaves s b).s L := by
  unfold actWaves
  try dsimp only
  repeat' first
    | with_reducible assumption
    | (refine names_trans hL ?_
       try simp only [keyTypes, Nat.reduceMod]
       decide)
    | with_reducible first
      | refine names_cons ?_ ?_
      | refine only_ite ?_ ?_
      | refine only_ite_snd ?_ ?_
      | refine only_ite_fst ?_ ?_
      | refine only_ite_s ?_ ?_
      | refine barrierArm_only (hL := ?_) (ho := ?_)
      | refine actSvc_only (hL := ?_) (ho := ?_)
    | split
    | dsimp only

theorem barrier_only {c : CmdIn} {s : State} (hL : names L [.cmds, .bcasts, .word 0x40 0x50, .hdr 0x40, .inj, .mbox, .evts, .hdr 0x48, .waves, .staged, .recs, .hdr 0x58, .jobs, .gens, .verify, .ringQ, .out, .xfers, .word 0x40 0x6C, .svcNotices, .word 0x08 0x110, .word 0x08 0x10C, .word 0x08 0x108, .word 0x08 0x104, .word 0x08 0x100, .hdr 0x12, .spares] = true) 
    (ho : s0.onlyChanges s L) : s0.onlyChanges (barrier c s) L := by
  unfold barrier
  try dsimp only
  repeat' first
    | with_reducible assumption
    | (refine names_trans hL ?_
       try simp only [keyTypes, Nat.reduceMod]
       decide)
    | with_reducible first
      | refine names_cons ?_ ?_
      | refine only_ite ?_ ?_
      | refine only_ite_snd ?_ ?_
      | refine only_ite_fst ?_ ?_
      | refine failCmd_only (hL := ?_) (ho := ?_)
      | refine bcastSend_only (hL := ?_) (h_act := fun u x1 hu => ?_) (ho := ?_)
      | refine actWaves_only (hL := ?_) (ho := ?_)
      | refine waitFor_only (hL := ?_) (ho := ?_)
    | split
    | dsimp only

theorem execBarrier_only (c : CmdIn) (s : State) : ∃ st', execBarrier c s = .next st' ∧ s.onlyChanges st' [.out, .xfers, .lines, .inj, .cmds, .power, .bpwr, .word 0x50 0x54, .activity, .host, .tap, .regs 0x08, .hdr 0x08, .bcasts, .word 0x40 0x50, .hdr 0x40, .mbox, .evts, .hdr 0x48, .waves, .staged, .recs, .hdr 0x58, .jobs, .gens, .verify, .ringQ, .word 0x40 0x6C, .svcNotices, .hdr 0x12, .spares] := by
  refine ⟨_, rfl, only_start fun hL h0 => ?_⟩
  refine settle_only (names_of_subset (by simp)) ?_
  repeat' first
    | with_reducible first
      | exact h0
      | assumption
    | (refine names_trans hL ?_
       try simp only [keyTypes, Nat.reduceMod]
       decide)
    | (refine names_trans hL ?_
       try simp only [keyTypes, Nat.reduceMod]
       refine names_trans (names_of_subset ?_) names_regs_word
       simp
       done)
    | with_reducible first
      | refine names_cons ?_ ?_
      | refine only_ite ?_ ?_
      | refine only_ite_snd ?_ ?_
      | refine only_ite_fst ?_ ?_
      | refine runCmd_only (hL := ?_) (h_effect := fun u hu => ?_) (ho := ?_)
      | refine barrier_only (hL := ?_) (ho := ?_)
    | split
    | dsimp only

theorem wavePut_only {s : State} {w : WaveSet} (hL : names L [.waves] = true) 
    (ho : s0.onlyChanges s L) : s0.onlyChanges (State.wavePut s w) L := by
  unfold State.wavePut
  try dsimp only
  repeat' first
    | with_reducible assumption
    | (refine names_trans hL ?_
       try simp only [keyTypes, Nat.reduceMod]
       decide)
    | with_reducible first
      | refine names_cons ?_ ?_
      | refine only_ite ?_ ?_
      | refine only_ite_snd ?_ ?_
      | refine only_ite_fst ?_ ?_
    | split
    | (with_reducible refine modHp_only (z := [.waves]) ?_ ?_ ?_ ?_ ?_ ?_ ?_ ?_ ?_ ?_ ?_
       · refine names_trans hL ?_
         first | decide | (refine names_of_subset ?_; simp; done)
       iterate 9 · first | with_reducible rfl | (intro _; with_reducible rfl) | exact fun h => not_free h rfl | (intro _; dsimp only; split <;> rfl) | exact rfl | exact fun _ => rfl)
    | dsimp only

theorem waveStep_only {s : State} {w : WaveSet} (hL : names L [.evts, .waves, .staged, .recs, .hdr 0x58, .out] = true) 
    (ho : s0.onlyChanges s L) : s0.onlyChanges (State.waveStep s w) L := by
  unfold State.waveStep
  try dsimp only
  repeat' first
    | with_reducible assumption
    | (refine names_trans hL ?_
       try simp only [keyTypes, Nat.reduceMod]
       decide)
    | with_reducible first
      | refine names_cons ?_ ?_
      | refine only_ite ?_ ?_
      | refine only_ite_snd ?_ ?_
      | refine only_ite_fst ?_ ?_
      | refine waveDrop_only (hL := ?_) (ho := ?_)
      | refine waveLog_only (hL := ?_) (ho := ?_)
      | refine wavePut_only (hL := ?_) (ho := ?_)
      | refine emit_only (hL := ?_) (ho := ?_)
    | split
    | dsimp only

theorem execWaveRelease_only (s : State) : ∃ st', execWaveRelease s = .next st' ∧ s.onlyChanges st' [.out, .xfers, .lines, .inj, .now, .staged, .recs, .hdr 0x58, .evts, .waves, .regs 0x08, .cmds] := by
  refine ⟨_, rfl, only_start fun hL h0 => ?_⟩
  refine settle_only (names_of_subset (by simp)) ?_
  repeat' first
    | with_reducible first
      | exact h0
      | assumption
    | (refine names_trans hL ?_
       try simp only [keyTypes, Nat.reduceMod]
       decide)
    | (refine names_trans hL ?_
       try simp only [keyTypes, Nat.reduceMod]
       refine names_trans (names_of_subset ?_) names_regs_word
       simp
       done)
    | with_reducible first
      | refine names_cons ?_ ?_
      | refine only_ite ?_ ?_
      | refine only_ite_snd ?_ ?_
      | refine only_ite_fst ?_ ?_
      | refine advanceTo_only (hL := ?_) (ho := ?_)
      | refine waveFail_only (hL := ?_) (ho := ?_)
      | refine waveStep_only (hL := ?_) (ho := ?_)
      | refine barrierEnd_only (hL := ?_) (ho := ?_)
      | refine wavePut_only (hL := ?_) (ho := ?_)
      | refine evtDrop_only (hL := ?_) (ho := ?_)
    | split
    | dsimp only

theorem execJobRelease_only (job : BitVec 16) (s : State) : ∃ st', execJobRelease job s = .next st' ∧ s.onlyChanges st' [.out, .xfers, .lines, .inj, .now, .cmds, .word 0x08 0x110, .word 0x08 0x10C, .word 0x08 0x108, .word 0x08 0x104, .word 0x08 0x100, .evts, .ringQ, .word 0x40 0x6C, .mbox, .svcNotices, .hdr 0x40, .gens, .jobs, .hdr 0x48, .waves] := by
  refine ⟨_, rfl, only_start fun hL h0 => ?_⟩
  refine settle_only (names_of_subset (by simp)) ?_
  repeat' first
    | with_reducible first
      | exact h0
      | assumption
    | (refine names_trans hL ?_
       try simp only [keyTypes, Nat.reduceMod]
       decide)
    | with_reducible first
      | refine names_cons ?_ ?_
      | refine only_ite ?_ ?_
      | refine only_ite_snd ?_ ?_
      | refine only_ite_fst ?_ ?_
      | refine jobRelease_only (hL := ?_) (ho := ?_)
      | refine waveArm_only (hL := ?_) (ho := ?_)
    | split
    | dsimp only

end Sys2Proof.Machine
end

