-- ==== Sys2Proof/Laws/FramesReset.lean ====
section
/-!
SUPPORT. What each operation and each command of Loss, Reset, Power, RegWrite, Ckpt, HostMem may change.
-/
set_option linter.all false
namespace Sys2Proof.Machine

variable {s0 : State} {L : List Part}

/-! Loss -/

theorem pagesInReset_only {s : State} {keys : List Nat} {v : Bool} (hL : names L [.allHdrs] = true) 
    (ho : s0.onlyChanges s L) : s0.onlyChanges (State.pagesInReset s keys v) L := by
  unfold State.pagesInReset
  try dsimp only
  repeat' first
    | with_reducible assumption
    | (refine names_trans hL ?_
       try simp only [keyTypes, Nat.reduceMod]
       decide)
    | (refine names_trans hL ?_
       refine names_trans (names_of_subset ?_) names_all_hdr
       simp
       done)
    | with_reducible first
      | refine names_cons ?_ ?_
      | refine only_ite ?_ ?_
      | refine only_ite_snd ?_ ?_
      | refine only_ite_fst ?_ ?_
      | refine setStat_only (hL := ?_) (ho := ?_)
      | refine only_foldl (fun u x hu => ?_) ?_
      | refine only_foldl_snd (fun u x hu => ?_) ?_
      | refine only_foldl_fst (fun u x hu => ?_) ?_
    | split
    | dsimp only

theorem noteReset_only {s : State} {k : ResetKind} (hL : names L [.word 0x50 0x58] = true) 
    (ho : s0.onlyChanges s L) : s0.onlyChanges (State.noteReset s k) L := by
  unfold State.noteReset
  try dsimp only
  repeat' first
    | with_reducible assumption
    | (refine names_trans hL ?_
       try simp only [keyTypes, Nat.reduceMod]
       decide)
    | with_reducible first
      | refine names_cons ?_ ?_
      | refine only_ite ?_ ?_
      | refine only_ite_snd ?_ ?_
      | refine only_ite_fst ?_ ?_
      | refine setReg_only (hL := ?_) (h := ?_)
    | split
    | dsimp only

theorem nextIncarn_only {s : State} {keys : List Nat} (hL : names L [.allHdrs] = true) 
    (ho : s0.onlyChanges s L) : s0.onlyChanges (State.nextIncarn s keys) L := by
  unfold State.nextIncarn
  try dsimp only
  repeat' first
    | with_reducible assumption
    | (refine names_trans hL ?_
       try simp only [keyTypes, Nat.reduceMod]
       decide)
    | (refine names_trans hL ?_
       refine names_trans (names_of_subset ?_) names_all_hdr
       simp
       done)
    | with_reducible first
      | refine names_cons ?_ ?_
      | refine only_ite ?_ ?_
      | refine only_ite_snd ?_ ?_
      | refine only_ite_fst ?_ ?_
      | refine modHdr_only (hL := ?_) (h := ?_)
      | refine only_foldl (fun u x hu => ?_) ?_
      | refine only_foldl_snd (fun u x hu => ?_) ?_
      | refine only_foldl_fst (fun u x hu => ?_) ?_
    | split
    | dsimp only

theorem tellLatch_only {s : State} {key : Nat} (hL : names L [.staged, .recs, .hdr 0x58] = true) 
    (ho : s0.onlyChanges s L) : s0.onlyChanges (State.tellLatch s key) L := by
  unfold State.tellLatch
  try dsimp only
  repeat' first
    | with_reducible assumption
    | (refine names_trans hL ?_
       try simp only [keyTypes, Nat.reduceMod]
       decide)
    | with_reducible first
      | refine names_cons ?_ ?_
      | refine only_ite ?_ ?_
      | refine only_ite_snd ?_ ?_
      | refine only_ite_fst ?_ ?_
      | refine log_only (hL := ?_) (ho := ?_)
    | split
    | dsimp only

theorem dropLatches_only {s : State} {key : Nat} (hL : names L [.hdr (keyType key), .staged, .recs, .hdr 0x58] = true) 
    (ho : s0.onlyChanges s L) : s0.onlyChanges (State.dropLatches s key) L := by
  unfold State.dropLatches
  try dsimp only
  repeat' first
    | with_reducible assumption
    | (refine names_trans hL ?_
       try simp only [keyTypes, Nat.reduceMod]
       refine names_of_subset ?_
       simp
       done)
    | with_reducible first
      | refine names_cons ?_ ?_
      | refine only_ite ?_ ?_
      | refine only_ite_snd ?_ ?_
      | refine only_ite_fst ?_ ?_
      | refine modHdr_only (hL := ?_) (h := ?_)
      | refine guardDiscard_only (hL := ?_) (ho := ?_)
    | split
    | dsimp only

theorem cmdReset_only {s : State} {code : Nat} {pkg : Bool} {n : Nat} (hL : names L [.cmds, .regs 0x08] = true) 
    (ho : s0.onlyChanges s L) : s0.onlyChanges (State.cmdReset s code pkg n) L := by
  unfold State.cmdReset
  try dsimp only
  repeat' first
    | with_reducible assumption
    | (refine names_trans hL ?_
       try simp only [keyTypes, Nat.reduceMod]
       decide)
    | (refine names_trans hL ?_
       try simp only [keyTypes, Nat.reduceMod]
       refine names_trans (names_of_subset ?_) names_regs_word
       simp
       done)
    | with_reducible first
      | refine names_cons ?_ ?_
      | refine only_ite ?_ ?_
      | refine only_ite_snd ?_ ?_
      | refine only_ite_fst ?_ ?_
      | refine complete_only (hL := ?_) (ho := ?_)
      | refine clearRes_only (hL := ?_) (ho := ?_)
      | refine setCmd_only (hL := ?_) (ho := ?_)
    | split
    | dsimp only

theorem cmdsReset_only {s : State} {code : Nat} (hL : names L [.cmds, .regs 0x08] = true) 
    (ho : s0.onlyChanges s L) : s0.onlyChanges (State.cmdsReset s code) L := by
  unfold State.cmdsReset
  try dsimp only
  repeat' first
    | with_reducible assumption
    | (refine names_trans hL ?_
       try simp only [keyTypes, Nat.reduceMod]
       decide)
    | (refine names_trans hL ?_
       try simp only [keyTypes, Nat.reduceMod]
       refine names_trans (names_of_subset ?_) names_regs_word
       simp
       done)
    | with_reducible first
      | refine names_cons ?_ ?_
      | refine only_ite ?_ ?_
      | refine only_ite_snd ?_ ?_
      | refine only_ite_fst ?_ ?_
      | refine cmdReset_only (hL := ?_) (ho := ?_)
      | refine only_foldl (fun u x hu => ?_) ?_
      | refine only_foldl_snd (fun u x hu => ?_) ?_
      | refine only_foldl_fst (fun u x hu => ?_) ?_
    | split
    | dsimp only

theorem dropWaits_only {s : State} (hL : names L [.grid, .geyser, .redNodes, .engines, .ftab, .kats, .taint, .relock, .pps, .snuff, .ports, .links, .plans, .meas] = true) 
    (ho : s0.onlyChanges s L) : s0.onlyChanges (State.dropWaits s) L := by
  unfold State.dropWaits
  try dsimp only
  repeat' first
    | with_reducible assumption
    | (refine names_trans hL ?_
       try simp only [keyTypes, Nat.reduceMod]
       decide)
    | with_reducible first
      | refine names_cons ?_ ?_
      | refine only_ite ?_ ?_
      | refine only_ite_snd ?_ ?_
      | refine only_ite_fst ?_ ?_
    | split
    | (with_reducible refine modRot_only (z := [.meas]) ?_ ?_ ?_ ?_ ?_ ?_ ?_ ?_ ?_ ?_
       · refine names_trans hL ?_
         first | decide | (refine names_of_subset ?_; simp; done)
       iterate 8 · first | with_reducible rfl | (intro _; with_reducible rfl) | exact fun h => not_free h rfl | (intro _; dsimp only; split <;> rfl) | exact rfl | exact fun _ => rfl)
    | (with_reducible refine only_samp (z := [.grid, .geyser]) ?_ ?_ ?_ ?_ ?_ ?_ ?_ ?_ ?_
       · refine names_trans hL ?_
         first | decide | (refine names_of_subset ?_; simp; done)
       iterate 7 · first | with_reducible rfl | (intro _; with_reducible rfl) | exact fun h => not_free h rfl | (intro _; dsimp only; split <;> rfl) | exact rfl | exact fun _ => rfl)
    | (with_reducible refine only_reds (z := [.redNodes]) ?_ ?_ ?_ ?_
       · refine names_trans hL ?_
         first | decide | (refine names_of_subset ?_; simp; done)
       iterate 2 · first | with_reducible rfl | (intro _; with_reducible rfl) | exact fun h => not_free h rfl | (intro _; dsimp only; split <;> rfl) | exact rfl | exact fun _ => rfl)
    | (with_reducible refine only_forest (z := [.engines, .ftab]) ?_ ?_ ?_ ?_ ?_
       · refine names_trans hL ?_
         first | decide | (refine names_of_subset ?_; simp; done)
       iterate 3 · first | with_reducible rfl | (intro _; with_reducible rfl) | exact fun h => not_free h rfl | (intro _; dsimp only; split <;> rfl) | exact rfl | exact fun _ => rfl)
    | (with_reducible refine only_check (z := [.kats, .taint]) ?_ ?_ ?_ ?_ ?_ ?_ ?_ ?_ ?_
       · refine names_trans hL ?_
         first | decide | (refine names_of_subset ?_; simp; done)
       iterate 7 · first | with_reducible rfl | (intro _; with_reducible rfl) | exact fun h => not_free h rfl | (intro _; dsimp only; split <;> rfl) | exact rfl | exact fun _ => rfl)
    | (with_reducible refine only_time (z := [.relock, .pps]) ?_ ?_ ?_ ?_ ?_ ?_ ?_
       · refine names_trans hL ?_
         first | decide | (refine names_of_subset ?_; simp; done)
       iterate 5 · first | with_reducible rfl | (intro _; with_reducible rfl) | exact fun h => not_free h rfl | (intro _; dsimp only; split <;> rfl) | exact rfl | exact fun _ => rfl)
    | (with_reducible refine only_snuff (z := [.snuff]) ?_ ?_ ?_
       · refine names_trans hL ?_
         first | decide | (refine names_of_subset ?_; simp; done)
       iterate 1 · first | with_reducible rfl | (intro _; with_reducible rfl) | exact fun h => not_free h rfl | (intro _; dsimp only; split <;> rfl) | exact rfl | exact fun _ => rfl)
    | (with_reducible refine only_links (z := [.ports, .links]) ?_ ?_ ?_ ?_ ?_ ?_ ?_
       · refine names_trans hL ?_
         first | decide | (refine names_of_subset ?_; simp; done)
       iterate 5 · first | with_reducible rfl | (intro _; with_reducible rfl) | exact fun h => not_free h rfl | (intro _; dsimp only; split <;> rfl) | exact rfl | exact fun _ => rfl)
    | (with_reducible refine only_fum (z := [.plans]) ?_ ?_ ?_ ?_ ?_ ?_ ?_ ?_ ?_ ?_
       · refine names_trans hL ?_
         first | decide | (refine names_of_subset ?_; simp; done)
       iterate 8 · first | with_reducible rfl | (intro _; with_reducible rfl) | exact fun h => not_free h rfl | (intro _; dsimp only; split <;> rfl) | exact rfl | exact fun _ => rfl)
    | (with_reducible refine only_mk (z := [.grid, .geyser, .redNodes, .engines, .ftab, .kats, .taint, .relock, .pps, .snuff, .ports, .links, .plans, .meas]) hL ?_ ?_
       · intro p hp
         cases p <;> first | (dsimp only [Part.same]; done) | (dsimp only [Part.same, State.reg, State.hdr]; intro _ _; with_reducible rfl) | exact not_free (free_of_outside hp) (by decide) | exact not_free (free_of_outside hp) rfl | exact trivial | (dsimp only [Part.same]; split <;> rfl))
    | dsimp only

theorem dropXfers_only {s : State} {p : Option Nat → Bool} (hL : names L [.xfers, .ringQ, .notices] = true) 
    (ho : s0.onlyChanges s L) : s0.onlyChanges (State.dropXfers s p) L := by
  unfold State.dropXfers
  try dsimp only
  repeat' first
    | with_reducible assumption
    | (refine names_trans hL ?_
       try simp only [keyTypes, Nat.reduceMod]
       decide)
    | with_reducible first
      | refine names_cons ?_ ?_
      | refine only_ite ?_ ?_
      | refine only_ite_snd ?_ ?_
      | refine only_ite_fst ?_ ?_
    | split
    | (with_reducible refine only_pages (z := [.xfers, .ringQ]) ?_ ?_ ?_ ?_ ?_ ?_ ?_ ?_ ?_ ?_
       · refine names_trans hL ?_
         first | decide | (refine names_of_subset ?_; simp; done)
       iterate 8 · first | with_reducible rfl | (intro _; with_reducible rfl) | exact fun h => not_free h rfl | (intro _; dsimp only; split <;> rfl) | exact rfl | exact fun _ => rfl)
    | (with_reducible refine only_check (z := [.notices]) ?_ ?_ ?_ ?_ ?_ ?_ ?_ ?_ ?_
       · refine names_trans hL ?_
         first | decide | (refine names_of_subset ?_; simp; done)
       iterate 7 · first | with_reducible rfl | (intro _; with_reducible rfl) | exact fun h => not_free h rfl | (intro _; dsimp only; split <;> rfl) | exact rfl | exact fun _ => rfl)
    | (with_reducible refine only_mk (z := [.xfers, .ringQ, .notices]) hL ?_ ?_
       · intro p hp
         cases p <;> first | (dsimp only [Part.same]; done) | (dsimp only [Part.same, State.reg, State.hdr]; intro _ _; with_reducible rfl) | exact not_free (free_of_outside hp) (by decide) | exact not_free (free_of_outside hp) rfl | exact trivial | (dsimp only [Part.same]; split <;> rfl))
    | dsimp only

theorem clearCounters_only {s : State} {keys : List Nat} (hL : names L [.allRegs] = true) 
    (ho : s0.onlyChanges s L) : s0.onlyChanges (State.clearCounters s keys) L := by
  unfold State.clearCounters
  try dsimp only
  repeat' first
    | with_reducible assumption
    | (refine names_trans hL ?_
       try simp only [keyTypes, Nat.reduceMod]
       decide)
    | (refine names_trans hL ?_
       refine names_trans (names_of_subset ?_) names_all_word
       simp
       done)
    | (refine names_trans hL ?_
       refine names_trans (names_of_subset ?_) names_all_regs
       simp
       done)
    | with_reducible first
      | refine names_cons ?_ ?_
      | refine only_ite ?_ ?_
      | refine only_ite_snd ?_ ?_
      | refine only_ite_fst ?_ ?_
      | refine setReg_only (hL := ?_) (h := ?_)
      | refine only_foldl (fun u x hu => ?_) ?_
      | refine only_foldl_snd (fun u x hu => ?_) ?_
      | refine only_foldl_fst (fun u x hu => ?_) ?_
    | split
    | dsimp only

theorem dropHeld_only {s : State} (hL : names L [.snap, .heldRecs, .redNodes, .log] = true) 
    (ho : s0.onlyChanges s L) : s0.onlyChanges (State.dropHeld s) L := by
  unfold State.dropHeld
  try dsimp only
  repeat' first
    | with_reducible assumption
    | (refine names_trans hL ?_
       try simp only [keyTypes, Nat.reduceMod]
       decide)
    | with_reducible first
      | refine names_cons ?_ ?_
      | refine only_ite ?_ ?_
      | refine only_ite_snd ?_ ?_
      | refine only_ite_fst ?_ ?_
    | split
    | (with_reducible refine only_pages (z := [.snap]) ?_ ?_ ?_ ?_ ?_ ?_ ?_ ?_ ?_ ?_
       · refine names_trans hL ?_
         first | decide | (refine names_of_subset ?_; simp; done)
       iterate 8 · first | with_reducible rfl | (intro _; with_reducible rfl) | exact fun h => not_free h rfl | (intro _; dsimp only; split <;> rfl) | exact rfl | exact fun _ => rfl)
    | (with_reducible refine only_samp (z := [.heldRecs]) ?_ ?_ ?_ ?_ ?_ ?_ ?_ ?_ ?_
       · refine names_trans hL ?_
         first | decide | (refine names_of_subset ?_; simp; done)
       iterate 7 · first | with_reducible rfl | (intro _; with_reducible rfl) | exact fun h => not_free h rfl | (intro _; dsimp only; split <;> rfl) | exact rfl | exact fun _ => rfl)
    | (with_reducible refine only_reds (z := [.redNodes]) ?_ ?_ ?_ ?_
       · refine names_trans hL ?_
         first | decide | (refine names_of_subset ?_; simp; done)
       iterate 2 · first | with_reducible rfl | (intro _; with_reducible rfl) | exact fun h => not_free h rfl | (intro _; dsimp only; split <;> rfl) | exact rfl | exact fun _ => rfl)
    | (with_reducible refine only_fum (z := [.log]) ?_ ?_ ?_ ?_ ?_ ?_ ?_ ?_ ?_ ?_
       · refine names_trans hL ?_
         first | decide | (refine names_of_subset ?_; simp; done)
       iterate 8 · first | with_reducible rfl | (intro _; with_reducible rfl) | exact fun h => not_free h rfl | (intro _; dsimp only; split <;> rfl) | exact rfl | exact fun _ => rfl)
    | (with_reducible refine only_mk (z := [.snap, .heldRecs, .redNodes, .log]) hL ?_ ?_
       · intro p hp
         cases p <;> first | (dsimp only [Part.same]; done) | (dsimp only [Part.same, State.reg, State.hdr]; intro _ _; with_reducible rfl) | exact not_free (free_of_outside hp) (by decide) | exact not_free (free_of_outside hp) rfl | exact trivial | (dsimp only [Part.same]; split <;> rfl))
    | dsimp only

theorem tcamRestore_only {s : State} (hL : names L [.engines] = true) 
    (ho : s0.onlyChanges s L) : s0.onlyChanges (State.tcamRestore s) L := by
  unfold State.tcamRestore
  try dsimp only
  repeat' first
    | with_reducible assumption
    | (refine names_trans hL ?_
       try simp only [keyTypes, Nat.reduceMod]
       decide)
    | with_reducible first
      | refine names_cons ?_ ?_
      | refine only_ite ?_ ?_
      | refine only_ite_snd ?_ ?_
      | refine only_ite_fst ?_ ?_
      | refine rebuildStart_only (hL := ?_) (ho := ?_)
      | refine only_foldl (fun u x hu => ?_) ?_
      | refine only_foldl_snd (fun u x hu => ?_) ?_
      | refine only_foldl_fst (fun u x hu => ?_) ?_
    | split
    | dsimp only

theorem loseReports_only {s : State} (hL : names L [.taint] = true) 
    (ho : s0.onlyChanges s L) : s0.onlyChanges (State.loseReports s) L := by
  unfold State.loseReports
  try dsimp only
  repeat' first
    | with_reducible assumption
    | (refine names_trans hL ?_
       try simp only [keyTypes, Nat.reduceMod]
       decide)
    | with_reducible first
      | refine names_cons ?_ ?_
      | refine only_ite ?_ ?_
      | refine only_ite_snd ?_ ?_
      | refine only_ite_fst ?_ ?_
      | refine only_foldl (fun u x hu => ?_) ?_
      | refine only_foldl_snd (fun u x hu => ?_) ?_
      | refine only_foldl_fst (fun u x hu => ?_) ?_
    | split
    | (with_reducible refine modCheck_only (z := [.taint]) ?_ ?_ ?_ ?_ ?_ ?_ ?_ ?_ ?_
       · refine names_trans hL ?_
         first | decide | (refine names_of_subset ?_; simp; done)
       iterate 7 · first | with_reducible rfl | (intro _; with_reducible rfl) | exact fun h => not_free h rfl | (intro _; dsimp only; split <;> rfl) | exact rfl | exact fun _ => rfl)
    | dsimp only

theorem katDrop_only {s : State} (hL : names L [.probes, .kats] = true) 
    (ho : s0.onlyChanges s L) : s0.onlyChanges (State.katDrop s) L := by
  unfold State.katDrop
  try dsimp only
  repeat' first
    | with_reducible assumption
    | (refine names_trans hL ?_
       try simp only [keyTypes, Nat.reduceMod]
       decide)
    | with_reducible first
      | refine names_cons ?_ ?_
      | refine only_ite ?_ ?_
      | refine only_ite_snd ?_ ?_
      | refine only_ite_fst ?_ ?_
      | refine lowerGate_only (hL := ?_) (ho := ?_)
    | split
    | (with_reducible refine modCheck_only (z := [.kats]) ?_ ?_ ?_ ?_ ?_ ?_ ?_ ?_ ?_
       · refine names_trans hL ?_
         first | decide | (refine names_of_subset ?_; simp; done)
       iterate 7 · first | with_reducible rfl | (intro _; with_reducible rfl) | exact fun h => not_free h rfl | (intro _; dsimp only; split <;> rfl) | exact rfl | exact fun _ => rfl)
    | dsimp only

theorem syncWarm_only {s : State} (hL : names L [.pace] = true) 
    (ho : s0.onlyChanges s L) : s0.onlyChanges (State.syncWarm s) L := by
  unfold State.syncWarm
  try dsimp only
  repeat' first
    | with_reducible assumption
    | (refine names_trans hL ?_
       try simp only [keyTypes, Nat.reduceMod]
       decide)
    | with_reducible first
      | refine names_cons ?_ ?_
      | refine only_ite ?_ ?_
      | refine only_ite_snd ?_ ?_
      | refine only_ite_fst ?_ ?_
      | refine applySync_only (hL := ?_) (ho := ?_)
    | split
    | dsimp only

theorem traceWarm_only {s : State} (hL : names L [.hdr 0x60, .token, .trace, .staged, .rings] = true) 
    (ho : s0.onlyChanges s L) : s0.onlyChanges (State.traceWarm s) L := by
  unfold State.traceWarm
  try dsimp only
  repeat' first
    | with_reducible assumption
    | (refine names_trans hL ?_
       try simp only [keyTypes, Nat.reduceMod]
       decide)
    | with_reducible first
      | refine names_cons ?_ ?_
      | refine only_ite ?_ ?_
      | refine only_ite_snd ?_ ?_
      | refine only_ite_fst ?_ ?_
      | refine tokenLose_only (hL := ?_) (ho := ?_)
    | split
    | (with_reducible refine modTrace_only (z := [.token, .trace, .staged, .rings]) ?_ ?_ ?_ ?_ ?_ ?_ ?_
       · refine names_trans hL ?_
         first | decide | (refine names_of_subset ?_; simp; done)
       iterate 5 · first | with_reducible rfl | (intro _; with_reducible rfl) | exact fun h => not_free h rfl | (intro _; dsimp only; split <;> rfl) | exact rfl | exact fun _ => rfl)
    | dsimp only

theorem warmStart_only {s : State} {code : Nat} (hL : names L [.token, .trace, .staged, .rings, .heldRecs, .snuff, .jobs, .bcasts, .watch, .change, .probes, .kats, .taint, .allHdrs, .recs, .allRegs, .snap, .redNodes, .log, .xfers, .ringQ, .notices, .grid, .geyser, .engines, .ftab, .relock, .pps, .ports, .links, .plans, .meas, .cmds, .pace, .redInputs, .snaps, .sinter] = true) 
    (ho : s0.onlyChanges s L) : s0.onlyChanges (State.warmStart s code) L := by
  unfold State.warmStart
  try dsimp only
  repeat' first
    | with_reducible assumption
    | (refine names_trans hL ?_
       try simp only [keyTypes, Nat.reduceMod]
       decide)
    | (refine names_trans hL ?_
       refine names_trans (names_of_subset ?_) names_all_word
       simp
       done)
    | (refine names_trans hL ?_
       refine names_trans (names_of_subset ?_) names_all_regs
       simp
       done)
    | (refine names_trans hL ?_
       refine names_trans (names_of_subset ?_) names_all_hdr
       simp
       done)
    | with_reducible first
      | refine names_cons ?_ ?_
      | refine only_ite ?_ ?_
      | refine only_ite_snd ?_ ?_
      | refine only_ite_fst ?_ ?_
      | refine traceWarm_only (hL := ?_) (ho := ?_)
      | refine snuffWarm_only (hL := ?_) (ho := ?_)
      | refine svcWarm_only (hL := ?_) (ho := ?_)
      | refine hpWarm_only (hL := ?_) (ho := ?_)
      | refine katDrop_only (hL := ?_) (ho := ?_)
      | refine loseReports_only (hL := ?_) (ho := ?_)
      | refine dropLatches_only (hL := ?_) (ho := ?_)
      | refine clearCounters_only (hL := ?_) (ho := ?_)
      | refine dropHeld_only (hL := ?_) (ho := ?_)
      | refine dropXfers_only (hL := ?_) (ho := ?_)
      | refine dropWaits_only (hL := ?_) (ho := ?_)
      | refine cmdsReset_only (hL := ?_) (ho := ?_)
      | refine pagesInReset_only (hL := ?_) (ho := ?_)
      | refine nextIncarn_only (hL := ?_) (ho := ?_)
      | refine syncWarm_only (hL := ?_) (ho := ?_)
      | refine only_foldl (fun u x hu => ?_) ?_
      | refine only_foldl_snd (fun u x hu => ?_) ?_
      | refine only_foldl_fst (fun u x hu => ?_) ?_
    | split
    | (with_reducible refine only_samp (z := [.heldRecs, .probes, .grid, .geyser]) ?_ ?_ ?_ ?_ ?_ ?_ ?_ ?_ ?_
       · refine names_trans hL ?_
         first | decide | (refine names_of_subset ?_; simp; done)
       iterate 7 · first | with_reducible rfl | (intro _; with_reducible rfl) | exact fun h => not_free h rfl | (intro _; dsimp only; split <;> rfl) | exact rfl | exact fun _ => rfl)
    | (with_reducible refine only_reds (z := [.redNodes, .redInputs]) ?_ ?_ ?_ ?_
       · refine names_trans hL ?_
         first | decide | (refine names_of_subset ?_; simp; done)
       iterate 2 · first | with_reducible rfl | (intro _; with_reducible rfl) | exact fun h => not_free h rfl | (intro _; dsimp only; split <;> rfl) | exact rfl | exact fun _ => rfl)
    | (with_reducible refine only_forest (z := [.engines, .ftab, .snaps]) ?_ ?_ ?_ ?_ ?_
       · refine names_trans hL ?_
         first | decide | (refine names_of_subset ?_; simp; done)
       iterate 3 · first | with_reducible rfl | (intro _; with_reducible rfl) | exact fun h => not_free h rfl | (intro _; dsimp only; split <;> rfl) | exact rfl | exact fun _ => rfl)
    | (with_reducible refine only_pace (z := [.pace]) ?_ ?_ ?_
       · refine names_trans hL ?_
         first | decide | (refine names_of_subset ?_; simp; done)
       iterate 1 · first | with_reducible rfl | (intro _; with_reducible rfl) | exact fun h => not_free h rfl | (intro _; dsimp only; split <;> rfl) | exact rfl | exact fun _ => rfl)
    | (with_reducible refine only_sinter (z := [.sinter]) ?_ ?_ ?_
       · refine names_trans hL ?_
         first | decide | (refine names_of_subset ?_; simp; done)
       iterate 1 · first | with_reducible rfl | (intro _; with_reducible rfl) | exact fun h => not_free h rfl | (intro _; dsimp only; split <;> rfl) | exact rfl | exact fun _ => rfl)
    | (with_reducible refine only_mk (z := [.token, .trace, .staged, .rings, .heldRecs, .snuff, .jobs, .bcasts, .watch, .change, .probes, .kats, .taint, .allHdrs, .recs, .allRegs, .snap, .redNodes, .log, .xfers, .ringQ, .notices, .grid, .geyser, .engines, .ftab, .relock, .pps, .ports, .links, .plans, .meas, .cmds, .pace, .redInputs, .snaps, .sinter]) hL ?_ ?_
       · intro p hp
         cases p <;> first | (dsimp only [Part.same]; done) | (dsimp only [Part.same, State.reg, State.hdr]; intro _ _; with_reducible rfl) | exact not_free (free_of_outside hp) (by decide) | exact not_free (free_of_outside hp) rfl | exact trivial | (dsimp only [Part.same]; split <;> rfl))
    | dsimp only

theorem packageLinks_only {s : State} (hL : names L [.pace, .regs 0x93, .regs 0x91, .regs 0x38, .mbox, .host, .out, .tap, .proxies, .ports, .chans, .staged, .recs, .hdr 0x58, .violations, .suspects, .hdr 0x28, .hdr 0x12, .gens, .spares, .probes, .linkKeys, .hdr 0x50, .word 0x50 0x5C] = true) 
    (ho : s0.onlyChanges s L) : s0.onlyChanges (State.packageLinks s) L := by
  unfold State.packageLinks
  try dsimp only
  repeat' first
    | with_reducible assumption
    | (refine names_trans hL ?_
       try simp only [keyTypes, Nat.reduceMod]
       decide)
    | (refine names_trans hL ?_
       try simp only [keyTypes, Nat.reduceMod]
       refine names_trans (names_of_subset ?_) names_regs_word
       simp
       done)
    | (refine names_trans hL ?_
       refine names_trans (names_of_subset ?_) names_port_word
       simp
       done)
    | with_reducible first
      | refine names_cons ?_ ?_
      | refine only_ite ?_ ?_
      | refine only_ite_snd ?_ ?_
      | refine only_ite_fst ?_ ?_
      | refine linkReset_only (hL := ?_) (ho := ?_)
      | refine only_foldl (fun u x hu => ?_) ?_
      | refine only_foldl_snd (fun u x hu => ?_) ?_
      | refine only_foldl_fst (fun u x hu => ?_) ?_
    | split
    | dsimp only

theorem clearTotalsReset_only {s : State} {r : Nat} (hL : names L [.cmds, .word 0x08 0x100, .probes] = true) 
    (ho : s0.onlyChanges s L) : s0.onlyChanges (State.clearTotalsReset s r) L := by
  unfold State.clearTotalsReset
  try dsimp only
  repeat' first
    | with_reducible assumption
    | (refine names_trans hL ?_
       try simp only [keyTypes, Nat.reduceMod]
       decide)
    | with_reducible first
      | refine names_cons ?_ ?_
      | refine only_ite ?_ ?_
      | refine only_ite_snd ?_ ?_
      | refine only_ite_fst ?_ ?_
      | refine complete_only (hL := ?_) (ho := ?_)
      | refine setRes_only (hL := ?_) (ho := ?_)
      | refine modProbe_only (hL := ?_) (ho := ?_)
      | refine setProbe_only (hL := ?_) (ho := ?_)
      | refine only_foldl (fun u x hu => ?_) ?_
      | refine only_foldl_snd (fun u x hu => ?_) ?_
      | refine only_foldl_fst (fun u x hu => ?_) ?_
    | split
    | dsimp only

theorem regionStart_only {s : State} {r : Nat} (hL : names L [.regions, .xfers, .ringQ, .notices, .cmds, .word 0x08 0x100, .probes, .hdr 0x61, .heldRecs, .snuff, .staged, .recs, .hdr 0x58, .kats, .gens, .spares, .violations, .chans, .regs 0x93, .regs 0x91, .regs 0x38, .ports, .suspects, .hdr 0x28, .hdr 0x12, .hdr 0x50, .word 0x50 0x5C, .out] = true) 
    (ho : s0.onlyChanges s L) : s0.onlyChanges (State.regionStart s r) L := by
  unfold State.regionStart
  try dsimp only
  repeat' first
    | with_reducible assumption
    | (refine names_trans hL ?_
       try simp only [keyTypes, Nat.reduceMod]
       decide)
    | (refine names_trans hL ?_
       try simp only [keyTypes, Nat.reduceMod]
       refine names_trans (names_of_subset ?_) names_regs_word
       simp
       done)
    | (refine names_trans hL ?_
       refine names_trans (names_of_subset ?_) names_port_word
       simp
       done)
    | with_reducible first
      | refine names_cons ?_ ?_
      | refine only_ite ?_ ?_
      | refine only_ite_snd ?_ ?_
      | refine only_ite_fst ?_ ?_
      | refine modRegion_only (hL := ?_) (ho := ?_)
      | refine dropXfers_only (hL := ?_) (ho := ?_)
      | refine clearTotalsReset_only (hL := ?_) (ho := ?_)
      | refine modProbe_only (hL := ?_) (ho := ?_)
      | refine setProbe_only (hL := ?_) (ho := ?_)
      | refine snuffRegion_only (hL := ?_) (ho := ?_)
      | refine katAbandon_only (hL := ?_) (ho := ?_)
      | refine modPort_only (hL := ?_) (ho := ?_)
      | refine resetChan_only (hL := ?_) (ho := ?_)
      | refine loseBits_only (hL := ?_) (ho := ?_)
      | refine ringGo_only (hL := ?_) (ho := ?_)
      | refine only_foldl (fun u x hu => ?_) ?_
      | refine only_foldl_snd (fun u x hu => ?_) ?_
      | refine only_foldl_fst (fun u x hu => ?_) ?_
    | split
    | dsimp only

theorem regionFinish_only {s : State} {r : Nat} (hL : names L [.regions, .probes, .clusters, .staged, .recs, .hdr 0x58, .regs 0x93, .regs 0x91, .regs 0x38, .violations, .ports, .suspects, .hdr 0x28, .hdr 0x12, .gens, .spares, .hdr 0x10] = true) 
    (ho : s0.onlyChanges s L) : s0.onlyChanges (State.regionFinish s r) L := by
  unfold State.regionFinish
  try dsimp only
  repeat' first
    | with_reducible assumption
    | (refine names_trans hL ?_
       try simp only [keyTypes, Nat.reduceMod]
       decide)
    | (refine names_trans hL ?_
       try simp only [keyTypes, Nat.reduceMod]
       refine names_trans (names_of_subset ?_) names_regs_word
       simp
       done)
    | (refine names_trans hL ?_
       refine names_trans (names_of_subset ?_) names_port_word
       simp
       done)
    | with_reducible first
      | refine names_cons ?_ ?_
      | refine only_ite ?_ ?_
      | refine only_ite_snd ?_ ?_
      | refine only_ite_fst ?_ ?_
      | refine modRegion_only (hL := ?_) (ho := ?_)
      | refine commit_only (hL := ?_) (ho := ?_)
      | refine deliver_only (hL := ?_) (ho := ?_)
      | refine only_foldl (fun u x hu => ?_) ?_
      | refine only_foldl_snd (fun u x hu => ?_) ?_
      | refine only_foldl_fst (fun u x hu => ?_) ?_
    | split
    | dsimp only

theorem latchesFall_only {s : State} {k : ResetKind} (hL : names L [.staged, .recs, .hdr 0x58] = true) 
    (ho : s0.onlyChanges s L) : s0.onlyChanges (State.latchesFall s k) L := by
  unfold State.latchesFall
  try dsimp only
  repeat' first
    | with_reducible assumption
    | (refine names_trans hL ?_
       try simp only [keyTypes, Nat.reduceMod]
       decide)
    | with_reducible first
      | refine names_cons ?_ ?_
      | refine only_ite ?_ ?_
      | refine only_ite_snd ?_ ?_
      | refine only_ite_fst ?_ ?_
      | refine tellLatch_only (hL := ?_) (ho := ?_)
      | refine only_foldl (fun u x hu => ?_) ?_
      | refine only_foldl_snd (fun u x hu => ?_) ?_
      | refine only_foldl_fst (fun u x hu => ?_) ?_
    | split
    | dsimp only

theorem fallen_only {s : State} {k : ResetKind} (hL : names L (([.pkg, .pace, .allRegs, .allHdrs, .cmds, .lines, .snap, .xfers, .ringQ, .host, .probes, .clusters, .regions, .profiles, .heldRecs, .grid, .geyser, .redNodes, .redInputs, .engines, .ftab, .snaps, .spares, .suspects, .violations, .kernels, .kats, .taint, .notices, .rotState, .meas, .firmware, .keys, .spdm, .linkKeys, .verify, .rotOrders, .relock, .pps, .clock, .evts, .tports, .staged, .rings, .latches, .token, .trace, .snuff, .tap, .links] : List Part) ++ ([.ports, .chans, .proxies, .peers, .sinter, .watch, .jobs, .bcasts, .drift, .svcNotices, .cores, .change, .forced, .droops, .waves, .rails, .sensors, .tables, .budgets, .recs, .log, .errs, .gens, .mirror, .replicas, .plans, .inj, .mbox] : List Part)) = true) 
    (ho : s0.onlyChanges s L) : s0.onlyChanges (State.fallen s k) L := by
  unfold State.fallen
  try dsimp only
  repeat' first
    | with_reducible assumption
    | (refine names_trans hL ?_
       try simp only [keyTypes, Nat.reduceMod]
       decide)
    | (refine names_trans hL ?_
       refine names_trans (names_of_subset ?_) names_all_word
       simp
       done)
    | (refine names_trans hL ?_
       refine names_trans (names_of_subset ?_) names_all_regs
       simp
       done)
    | (refine names_trans hL ?_
       refine names_trans (names_of_subset ?_) names_all_hdr
       simp
       done)
    | with_reducible first
      | refine names_cons ?_ ?_
      | refine only_ite ?_ ?_
      | refine only_ite_snd ?_ ?_
      | refine only_ite_fst ?_ ?_
    | split
    | (with_reducible refine only_pkg (z := [.pkg]) ?_ ?_ ?_
       · refine names_trans hL ?_
         first | decide | (refine names_of_subset ?_; simp; done)
       iterate 1 · first | with_reducible rfl | (intro _; with_reducible rfl) | exact fun h => not_free h rfl | (intro _; dsimp only; split <;> rfl) | exact rfl | exact fun _ => rfl)
    | (with_reducible refine only_pace (z := [.pace]) ?_ ?_ ?_
       · refine names_trans hL ?_
         first | decide | (refine names_of_subset ?_; simp; done)
       iterate 1 · first | with_reducible rfl | (intro _; with_reducible rfl) | exact fun h => not_free h rfl | (intro _; dsimp only; split <;> rfl) | exact rfl | exact fun _ => rfl)
    | (with_reducible refine only_pages (z := [.cmds, .lines, .snap, .xfers, .ringQ, .host]) ?_ ?_ ?_ ?_ ?_ ?_ ?_ ?_ ?_ ?_
       · refine names_trans hL ?_
         first | decide | (refine names_of_subset ?_; simp; done)
       iterate 8 · first | with_reducible rfl | (intro _; with_reducible rfl) | exact fun h => not_free h rfl | (intro _; dsimp only; split <;> rfl) | exact rfl | exact fun _ => rfl)
    | (with_reducible refine only_samp (z := [.probes, .clusters, .regions, .profiles, .heldRecs, .grid, .geyser]) ?_ ?_ ?_ ?_ ?_ ?_ ?_ ?_ ?_
       · refine names_trans hL ?_
         first | decide | (refine names_of_subset ?_; simp; done)
       iterate 7 · first | with_reducible rfl | (intro _; with_reducible rfl) | exact fun h => not_free h rfl | (intro _; dsimp only; split <;> rfl) | exact rfl | exact fun _ => rfl)
    | (with_reducible refine only_reds (z := [.redNodes, .redInputs]) ?_ ?_ ?_ ?_
       · refine names_trans hL ?_
         first | decide | (refine names_of_subset ?_; simp; done)
       iterate 2 · first | with_reducible rfl | (intro _; with_reducible rfl) | exact fun h => not_free h rfl | (intro _; dsimp only; split <;> rfl) | exact rfl | exact fun _ => rfl)
    | (with_reducible refine only_forest (z := [.engines, .ftab, .snaps]) ?_ ?_ ?_ ?_ ?_
       · refine names_trans hL ?_
         first | decide | (refine names_of_subset ?_; simp; done)
       iterate 3 · first | with_reducible rfl | (intro _; with_reducible rfl) | exact fun h => not_free h rfl | (intro _; dsimp only; split <;> rfl) | exact rfl | exact fun _ => rfl)
    | (with_reducible refine only_check (z := [.spares, .suspects, .violations, .kernels, .kats, .taint, .notices]) ?_ ?_ ?_ ?_ ?_ ?_ ?_ ?_ ?_
       · refine names_trans hL ?_
         first | decide | (refine names_of_subset ?_; simp; done)
       iterate 7 · first | with_reducible rfl | (intro _; with_reducible rfl) | exact fun h => not_free h rfl | (intro _; dsimp only; split <;> rfl) | exact rfl | exact fun _ => rfl)
    | (with_reducible refine only_rot (z := [.rotState, .meas, .firmware, .keys, .spdm, .linkKeys, .verify, .rotOrders]) ?_ ?_ ?_ ?_ ?_ ?_ ?_ ?_ ?_ ?_
       · refine names_trans hL ?_
         first | decide | (refine names_of_subset ?_; simp; done)
       iterate 8 · first | with_reducible rfl | (intro _; with_reducible rfl) | exact fun h => not_free h rfl | (intro _; dsimp only; split <;> rfl) | exact rfl | exact fun _ => rfl)
    | (with_reducible refine only_time (z := [.relock, .pps, .clock, .evts, .tports]) ?_ ?_ ?_ ?_ ?_ ?_ ?_
       · refine names_trans hL ?_
         first | decide | (refine names_of_subset ?_; simp; done)
       iterate 5 · first | with_reducible rfl | (intro _; with_reducible rfl) | exact fun h => not_free h rfl | (intro _; dsimp only; split <;> rfl) | exact rfl | exact fun _ => rfl)
    | (with_reducible refine only_trace (z := [.staged, .rings, .latches, .token, .trace]) ?_ ?_ ?_ ?_ ?_ ?_ ?_
       · refine names_trans hL ?_
         first | decide | (refine names_of_subset ?_; simp; done)
       iterate 5 · first | with_reducible rfl | (intro _; with_reducible rfl) | exact fun h => not_free h rfl | (intro _; dsimp only; split <;> rfl) | exact rfl | exact fun _ => rfl)
    | (with_reducible refine only_snuff (z := [.snuff]) ?_ ?_ ?_
       · refine names_trans hL ?_
         first | decide | (refine names_of_subset ?_; simp; done)
       iterate 1 · first | with_reducible rfl | (intro _; with_reducible rfl) | exact fun h => not_free h rfl | (intro _; dsimp only; split <;> rfl) | exact rfl | exact fun _ => rfl)
    | (with_reducible refine only_tap (z := [.tap]) ?_ ?_ ?_
       · refine names_trans hL ?_
         first | decide | (refine names_of_subset ?_; simp; done)
       iterate 1 · first | with_reducible rfl | (intro _; with_reducible rfl) | exact fun h => not_free h rfl | (intro _; dsimp only; split <;> rfl) | exact rfl | exact fun _ => rfl)
    | (with_reducible refine only_links (z := [.links, .ports, .chans, .proxies, .peers]) ?_ ?_ ?_ ?_ ?_ ?_ ?_
       · refine names_trans hL ?_
         first | decide | (refine names_of_subset ?_; simp; done)
       iterate 5 · first | with_reducible rfl | (intro _; with_reducible rfl) | exact fun h => not_free h rfl | (intro _; dsimp only; split <;> rfl) | exact rfl | exact fun _ => rfl)
    | (with_reducible refine only_sinter (z := [.sinter]) ?_ ?_ ?_
       · refine names_trans hL ?_
         first | decide | (refine names_of_subset ?_; simp; done)
       iterate 1 · first | with_reducible rfl | (intro _; with_reducible rfl) | exact fun h => not_free h rfl | (intro _; dsimp only; split <;> rfl) | exact rfl | exact fun _ => rfl)
    | (with_reducible refine only_svc (z := [.watch, .jobs, .bcasts, .drift, .svcNotices]) ?_ ?_ ?_ ?_ ?_ ?_ ?_
       · refine names_trans hL ?_
         first | decide | (refine names_of_subset ?_; simp; done)
       iterate 5 · first | with_reducible rfl | (intro _; with_reducible rfl) | exact fun h => not_free h rfl | (intro _; dsimp only; split <;> rfl) | exact rfl | exact fun _ => rfl)
    | (with_reducible refine only_hpwr (z := [.cores, .change, .forced, .droops, .waves, .rails, .sensors, .tables, .budgets]) ?_ ?_ ?_ ?_ ?_ ?_ ?_ ?_ ?_ ?_ ?_
       · refine names_trans hL ?_
         first | decide | (refine names_of_subset ?_; simp; done)
       iterate 9 · first | with_reducible rfl | (intro _; with_reducible rfl) | exact fun h => not_free h rfl | (intro _; dsimp only; split <;> rfl) | exact rfl | exact fun _ => rfl)
    | (with_reducible refine only_fum (z := [.recs, .log, .errs, .gens, .mirror, .replicas, .plans, .inj]) ?_ ?_ ?_ ?_ ?_ ?_ ?_ ?_ ?_ ?_
       · refine names_trans hL ?_
         first | decide | (refine names_of_subset ?_; simp; done)
       iterate 8 · first | with_reducible rfl | (intro _; with_reducible rfl) | exact fun h => not_free h rfl | (intro _; dsimp only; split <;> rfl) | exact rfl | exact fun _ => rfl)
    | (with_reducible refine only_mbox (z := [.mbox]) ?_ ?_ ?_
       · refine names_trans hL ?_
         first | decide | (refine names_of_subset ?_; simp; done)
       iterate 1 · first | with_reducible rfl | (intro _; with_reducible rfl) | exact fun h => not_free h rfl | (intro _; dsimp only; split <;> rfl) | exact rfl | exact fun _ => rfl)
    | (with_reducible refine only_mk (z := (([.pkg, .pace, .allRegs, .allHdrs, .cmds, .lines, .snap, .xfers, .ringQ, .host, .probes, .clusters, .regions, .profiles, .heldRecs, .grid, .geyser, .redNodes, .redInputs, .engines, .ftab, .snaps, .spares, .suspects, .violations, .kernels, .kats, .taint, .notices, .rotState, .meas, .firmware, .keys, .spdm, .linkKeys, .verify, .rotOrders, .relock, .pps, .clock, .evts, .tports, .staged, .rings, .latches, .token, .trace, .snuff, .tap, .links] : List Part) ++ ([.ports, .chans, .proxies, .peers, .sinter, .watch, .jobs, .bcasts, .drift, .svcNotices, .cores, .change, .forced, .droops, .waves, .rails, .sensors, .tables, .budgets, .recs, .log, .errs, .gens, .mirror, .replicas, .plans, .inj, .mbox] : List Part))) hL ?_ ?_
       · intro p hp
         cases p <;> first | (dsimp only [Part.same]; done) | (dsimp only [Part.same, State.reg, State.hdr]; intro _ _; with_reducible rfl) | exact not_free (free_of_outside hp) (by decide) | exact not_free (free_of_outside hp) rfl | exact trivial | (dsimp only [Part.same]; split <;> rfl))
    | dsimp only

theorem powerLost_only {s : State} {k : ResetKind} (hL : names L (([.pkg, .pace, .allRegs, .allHdrs, .cmds, .lines, .snap, .xfers, .ringQ, .host, .probes, .clusters, .regions, .profiles, .heldRecs, .grid, .geyser, .redNodes, .redInputs, .engines, .ftab, .snaps, .spares, .suspects, .violations, .kernels, .kats, .taint, .notices, .rotState, .meas, .firmware, .keys, .spdm, .linkKeys, .verify, .rotOrders, .relock, .pps, .clock, .evts, .tports, .staged, .rings, .latches, .token, .trace, .snuff, .tap, .links] : List Part) ++ ([.ports, .chans, .proxies, .peers, .sinter, .watch, .jobs, .bcasts, .drift, .svcNotices, .cores, .change, .forced, .droops, .waves, .rails, .sensors, .tables, .budgets, .recs, .log, .errs, .gens, .mirror, .replicas, .plans, .inj, .mbox] : List Part)) = true) 
    (ho : s0.onlyChanges s L) : s0.onlyChanges (State.powerLost s k) L := by
  unfold State.powerLost
  try dsimp only
  repeat' first
    | with_reducible assumption
    | (refine names_trans hL ?_
       try simp only [keyTypes, Nat.reduceMod]
       decide)
    | (refine names_trans hL ?_
       refine names_trans (names_of_subset ?_) names_all_word
       simp
       done)
    | (refine names_trans hL ?_
       refine names_trans (names_of_subset ?_) names_all_regs
       simp
       done)
    | (refine names_trans hL ?_
       refine names_trans (names_of_subset ?_) names_all_hdr
       simp
       done)
    | with_reducible first
      | refine names_cons ?_ ?_
      | refine only_ite ?_ ?_
      | refine only_ite_snd ?_ ?_
      | refine only_ite_fst ?_ ?_
      | refine fallen_only (hL := ?_) (ho := ?_)
      | refine latchesFall_only (hL := ?_) (ho := ?_)
    | split
    | dsimp only

/-! Reset -/

theorem bpwrResetCmd_only {c : CmdIn} {s : State} (hL : names L [.cmds, .power, .bpwr, .word 0x08 0x104, .word 0x08 0x100, .word 0x50 0x54, .activity] = true) 
    (ho : s0.onlyChanges s L) : s0.onlyChanges (bpwrResetCmd c s) L := by
  unfold bpwrResetCmd
  try dsimp only
  repeat' first
    | with_reducible assumption
    | (refine names_trans hL ?_
       try simp only [keyTypes, Nat.reduceMod]
       decide)
    | with_reducible first
      | refine names_cons ?_ ?_
      | refine only_ite ?_ ?_
      | refine only_ite_snd ?_ ?_
      | refine only_ite_fst ?_ ?_
      | refine badArg_only (hL := ?_) (ho := ?_)
      | refine failCmd_only (hL := ?_) (ho := ?_)
      | refine waitFor_only (hL := ?_) (ho := ?_)
      | refine wakeSrc_only (hL := ?_) (ho := ?_)
    | split
    | dsimp only

theorem execBpwrReset_only (c : CmdIn) (s : State) : ∃ st', execBpwrReset c s = .next st' ∧ s.onlyChanges st' [.out, .xfers, .lines, .inj, .cmds, .power, .bpwr, .word 0x50 0x54, .activity, .host, .tap, .regs 0x08, .hdr 0x08] := by
  refine ⟨_, rfl, only_start fun hL h0 => ?_⟩
  refine settle_only (names_of_subset (by simp)) ?_
  repeat' first
    | with_reducible first
      | exact h0
      | assumption
    | (refine names_trans hL ?_
       try simp only [keyTypes, Nat.reduceMod]
       decide)
    | (refine names_trans hL ?_
       try simp only [keyTypes, Nat.reduceMod]
       refine names_trans (names_of_subset ?_) names_regs_word
       simp
       done)
    | with_reducible first
      | refine names_cons ?_ ?_
      | refine only_ite ?_ ?_
      | refine only_ite_snd ?_ ?_
      | refine only_ite_fst ?_ ?_
      | refine runCmd_only (hL := ?_) (h_effect := fun u hu => ?_) (ho := ?_)
      | refine bpwrResetCmd_only (hL := ?_) (ho := ?_)
    | split
    | dsimp only

theorem timeStart_only {s : State} (hL : names L [.allHdrs, .clock] = true) 
    (ho : s0.onlyChanges s L) : s0.onlyChanges (State.timeStart s) L := by
  unfold State.timeStart
  try dsimp only
  repeat' first
    | with_reducible assumption
    | (refine names_trans hL ?_
       try simp only [keyTypes, Nat.reduceMod]
       decide)
    | (refine names_trans hL ?_
       refine names_trans (names_of_subset ?_) names_all_hdr
       simp
       done)
    | with_reducible first
      | refine names_cons ?_ ?_
      | refine only_ite ?_ ?_
      | refine only_ite_snd ?_ ?_
      | refine only_ite_fst ?_ ?_
      | refine pagesInReset_only (hL := ?_) (ho := ?_)
    | split
    | (with_reducible refine only_time (z := [.clock]) ?_ ?_ ?_ ?_ ?_ ?_ ?_
       · refine names_trans hL ?_
         first | decide | (refine names_of_subset ?_; simp; done)
       iterate 5 · first | with_reducible rfl | (intro _; with_reducible rfl) | exact fun h => not_free h rfl | (intro _; dsimp only; split <;> rfl) | exact rfl | exact fun _ => rfl)
    | dsimp only

theorem takeStraps_only {s : State} {i : StrapIn} (hL : names L [.straps, .staged, .recs, .hdr 0x58] = true) 
    (ho : s0.onlyChanges s L) : s0.onlyChanges (State.takeStraps s i) L := by
  unfold State.takeStraps
  try dsimp only
  repeat' first
    | with_reducible assumption
    | (refine names_trans hL ?_
       try simp only [keyTypes, Nat.reduceMod]
       decide)
    | with_reducible first
      | refine names_cons ?_ ?_
      | refine only_ite ?_ ?_
      | refine only_ite_snd ?_ ?_
      | refine only_ite_fst ?_ ?_
      | refine log_only (hL := ?_) (ho := ?_)
    | split
    | (with_reducible refine only_straps (z := [.straps]) ?_ ?_ ?_
       · refine names_trans hL ?_
         first | decide | (refine names_of_subset ?_; simp; done)
       iterate 1 · first | with_reducible rfl | (intro _; with_reducible rfl) | exact fun h => not_free h rfl | (intro _; dsimp only; split <;> rfl) | exact rfl | exact fun _ => rfl)
    | dsimp only

theorem powerReset_only {s : State} {k : ResetKind} {t : FT} (hL : names L (([.allHdrs, .pkg, .pace, .allRegs, .cmds, .lines, .snap, .xfers, .ringQ, .host, .probes, .clusters, .regions, .profiles, .heldRecs, .grid, .geyser, .redNodes, .redInputs, .engines, .ftab, .snaps, .spares, .suspects, .violations, .kernels, .kats, .taint, .notices, .rotState, .meas, .firmware, .keys, .spdm, .linkKeys, .verify, .rotOrders, .relock, .pps, .clock, .evts, .tports, .staged, .rings, .latches, .token, .trace, .snuff, .tap, .links] : List Part) ++ ([.ports, .chans, .proxies, .peers, .sinter, .watch, .jobs, .bcasts, .drift, .svcNotices, .cores, .change, .forced, .droops, .waves, .rails, .sensors, .tables, .budgets, .recs, .log, .errs, .gens, .mirror, .replicas, .plans, .inj, .mbox, .power, .bpwr, .activity, .now, .tick] : List Part)) = true) 
    (ho : s0.onlyChanges s L) : s0.onlyChanges (State.powerReset s k t) L := by
  unfold State.powerReset
  try dsimp only
  repeat' first
    | with_reducible assumption
    | (refine names_trans hL ?_
       try simp only [keyTypes, Nat.reduceMod]
       decide)
    | (refine names_trans hL ?_
       refine names_trans (names_of_subset ?_) names_all_word
       simp
       done)
    | (refine names_trans hL ?_
       refine names_trans (names_of_subset ?_) names_all_regs
       simp
       done)
    | (refine names_trans hL ?_
       refine names_trans (names_of_subset ?_) names_all_hdr
       simp
       done)
    | with_reducible first
      | refine names_cons ?_ ?_
      | refine only_ite ?_ ?_
      | refine only_ite_snd ?_ ?_
      | refine only_ite_fst ?_ ?_
      | refine noteReset_only (hL := ?_) (ho := ?_)
      | refine setStat_only (hL := ?_) (ho := ?_)
      | refine pagesInReset_only (hL := ?_) (ho := ?_)
      | refine powerLost_only (hL := ?_) (ho := ?_)
      | refine setReg_only (hL := ?_) (h := ?_)
      | refine loseBits_only (hL := ?_) (ho := ?_)
      | refine gridFrom_only (hL := ?_) (ho := ?_)
    | split
    | (with_reducible refine modBpwr_only (z := [.power, .bpwr, .activity]) ?_ ?_ ?_ ?_ ?_
       · refine names_trans hL ?_
         first | decide | (refine names_of_subset ?_; simp; done)
       iterate 3 · first | with_reducible rfl | (intro _; with_reducible rfl) | exact fun h => not_free h rfl | (intro _; dsimp only; split <;> rfl) | exact rfl | exact fun _ => rfl)
    | (with_reducible refine only_now (z := [.now]) ?_ ?_ ?_
       · refine names_trans hL ?_
         first | decide | (refine names_of_subset ?_; simp; done)
       iterate 1 · first | with_reducible rfl | (intro _; with_reducible rfl) | exact fun h => not_free h rfl | (intro _; dsimp only; split <;> rfl) | exact rfl | exact fun _ => rfl)
    | (with_reducible refine only_tick (z := [.tick]) ?_ ?_ ?_
       · refine names_trans hL ?_
         first | decide | (refine names_of_subset ?_; simp; done)
       iterate 1 · first | with_reducible rfl | (intro _; with_reducible rfl) | exact fun h => not_free h rfl | (intro _; dsimp only; split <;> rfl) | exact rfl | exact fun _ => rfl)
    | (with_reducible refine only_mk (z := (([.allHdrs, .pkg, .pace, .allRegs, .cmds, .lines, .snap, .xfers, .ringQ, .host, .probes, .clusters, .regions, .profiles, .heldRecs, .grid, .geyser, .redNodes, .redInputs, .engines, .ftab, .snaps, .spares, .suspects, .violations, .kernels, .kats, .taint, .notices, .rotState, .meas, .firmware, .keys, .spdm, .linkKeys, .verify, .rotOrders, .relock, .pps, .clock, .evts, .tports, .staged, .rings, .latches, .token, .trace, .snuff, .tap, .links] : List Part) ++ ([.ports, .chans, .proxies, .peers, .sinter, .watch, .jobs, .bcasts, .drift, .svcNotices, .cores, .change, .forced, .droops, .waves, .rails, .sensors, .tables, .budgets, .recs, .log, .errs, .gens, .mirror, .replicas, .plans, .inj, .mbox, .power, .bpwr, .activity, .now, .tick] : List Part))) hL ?_ ?_
       · intro p hp
         cases p <;> first | (dsimp only [Part.same]; done) | (dsimp only [Part.same, State.reg, State.hdr]; intro _ _; with_reducible rfl) | exact not_free (free_of_outside hp) (by decide) | exact not_free (free_of_outside hp) rfl | exact trivial | (dsimp only [Part.same]; split <;> rfl))
    | dsimp only

theorem vddtReset_only {s : State} (hL : names L [.allHdrs, .staged, .recs, .cmds, .word 0x50 0x5C, .word 0x50 0x58, .clock, .grid, .relock, .pps, .evts, .tports, .now, .tick] = true) 
    (ho : s0.onlyChanges s L) : s0.onlyChanges (State.vddtReset s) L := by
  unfold State.vddtReset
  try dsimp only
  repeat' first
    | with_reducible assumption
    | (refine names_trans hL ?_
       try simp only [keyTypes, Nat.reduceMod]
       decide)
    | (refine names_trans hL ?_
       refine names_trans (names_of_subset ?_) names_all_hdr
       simp
       done)
    | with_reducible first
      | refine names_cons ?_ ?_
      | refine only_ite ?_ ?_
      | refine only_ite_snd ?_ ?_
      | refine only_ite_fst ?_ ?_
      | refine dropLatches_only (hL := ?_) (ho := ?_)
      | refine complete_only (hL := ?_) (ho := ?_)
      | refine loseBits_only (hL := ?_) (ho := ?_)
      | refine noteReset_only (hL := ?_) (ho := ?_)
      | refine nextIncarn_only (hL := ?_) (ho := ?_)
      | refine timeStart_only (hL := ?_) (ho := ?_)
      | refine gridFrom_only (hL := ?_) (ho := ?_)
      | refine only_foldl (fun u x hu => ?_) ?_
      | refine only_foldl_snd (fun u x hu => ?_) ?_
      | refine only_foldl_fst (fun u x hu => ?_) ?_
    | split
    | (with_reducible refine only_time (z := [.clock, .relock, .pps, .evts, .tports]) ?_ ?_ ?_ ?_ ?_ ?_ ?_
       · refine names_trans hL ?_
         first | decide | (refine names_of_subset ?_; simp; done)
       iterate 5 · first | with_reducible rfl | (intro _; with_reducible rfl) | exact fun h => not_free h rfl | (intro _; dsimp only; split <;> rfl) | exact rfl | exact fun _ => rfl)
    | (with_reducible refine only_now (z := [.now]) ?_ ?_ ?_
       · refine names_trans hL ?_
         first | decide | (refine names_of_subset ?_; simp; done)
       iterate 1 · first | with_reducible rfl | (intro _; with_reducible rfl) | exact fun h => not_free h rfl | (intro _; dsimp only; split <;> rfl) | exact rfl | exact fun _ => rfl)
    | (with_reducible refine only_tick (z := [.tick]) ?_ ?_ ?_
       · refine names_trans hL ?_
         first | decide | (refine names_of_subset ?_; simp; done)
       iterate 1 · first | with_reducible rfl | (intro _; with_reducible rfl) | exact fun h => not_free h rfl | (intro _; dsimp only; split <;> rfl) | exact rfl | exact fun _ => rfl)
    | (with_reducible refine only_mk (z := [.allHdrs, .staged, .recs, .cmds, .word 0x50 0x5C, .word 0x50 0x58, .clock, .grid, .relock, .pps, .evts, .tports, .now, .tick]) hL ?_ ?_
       · intro p hp
         cases p <;> first | (dsimp only [Part.same]; done) | (dsimp only [Part.same, State.reg, State.hdr]; intro _ _; with_reducible rfl) | exact not_free (free_of_outside hp) (by decide) | exact not_free (free_of_outside hp) rfl | exact trivial | (dsimp only [Part.same]; split <;> rfl))
    | dsimp only

theorem brownoutBack_only {s : State} {r : Rail} (hL : names L [.bpwr, .hdr 0x50, .word 0x50 0x60] = true) 
    (ho : s0.onlyChanges s L) : s0.onlyChanges (State.brownoutBack s r) L := by
  unfold State.brownoutBack
  try dsimp only
  repeat' first
    | with_reducible assumption
    | (refine names_trans hL ?_
       try simp only [keyTypes, Nat.reduceMod]
       decide)
    | with_reducible first
      | refine names_cons ?_ ?_
      | refine only_ite ?_ ?_
      | refine only_ite_snd ?_ ?_
      | refine only_ite_fst ?_ ?_
      | refine setErr_only (hL := ?_) (ho := ?_)
      | refine setReg_only (hL := ?_) (h := ?_)
    | split
    | (with_reducible refine modBpwr_only (z := [.bpwr]) ?_ ?_ ?_ ?_ ?_
       · refine names_trans hL ?_
         first | decide | (refine names_of_subset ?_; simp; done)
       iterate 3 · first | with_reducible rfl | (intro _; with_reducible rfl) | exact fun h => not_free h rfl | (intro _; dsimp only; split <;> rfl) | exact rfl | exact fun _ => rfl)
    | dsimp only

theorem railReset_only {s : State} {r : Rail} (hL : names L (([.allHdrs, .pkg, .pace, .allRegs, .cmds, .lines, .snap, .xfers, .ringQ, .host, .probes, .clusters, .regions, .profiles, .heldRecs, .grid, .geyser, .redNodes, .redInputs, .engines, .ftab, .snaps, .spares, .suspects, .violations, .kernels, .kats, .taint, .notices, .rotState, .meas, .firmware, .keys, .spdm, .linkKeys, .verify, .rotOrders, .relock, .pps, .clock, .evts, .tports, .staged, .rings, .latches, .token, .trace, .snuff, .tap, .links] : List Part) ++ ([.ports, .chans, .proxies, .peers, .sinter, .watch, .jobs, .bcasts, .drift, .svcNotices, .cores, .change, .forced, .droops, .waves, .rails, .sensors, .tables, .budgets, .recs, .log, .errs, .gens, .mirror, .replicas, .plans, .inj, .mbox, .power, .bpwr, .activity, .now, .tick] : List Part)) = true) 
    (ho : s0.onlyChanges s L) : s0.onlyChanges (State.railReset s r) L := by
  unfold State.railReset
  try dsimp only
  repeat' first
    | with_reducible assumption
    | (refine names_trans hL ?_
       try simp only [keyTypes, Nat.reduceMod]
       decide)
    | (refine names_trans hL ?_
       refine names_trans (names_of_subset ?_) names_all_word
       simp
       done)
    | (refine names_trans hL ?_
       refine names_trans (names_of_subset ?_) names_all_regs
       simp
       done)
    | (refine names_trans hL ?_
       refine names_trans (names_of_subset ?_) names_all_hdr
       simp
       done)
    | with_reducible first
      | refine names_cons ?_ ?_
      | refine only_ite ?_ ?_
      | refine only_ite_snd ?_ ?_
      | refine only_ite_fst ?_ ?_
      | refine powerReset_only (hL := ?_) (ho := ?_)
      | refine timeStart_only (hL := ?_) (ho := ?_)
      | refine vddtReset_only (hL := ?_) (ho := ?_)
    | split
    | dsimp only

theorem bistRow_only {s : State} {x : Nat × Nat × Nat} (hL : names L [.staged, .recs, .hdr 0x58, .hdr 0x12, .gens, .spares, .hdr 0x20, .engines] = true) 
    (ho : s0.onlyChanges s L) : s0.onlyChanges (State.bistRow s x) L := by
  unfold State.bistRow
  try dsimp only
  repeat' first
    | with_reducible assumption
    | (refine names_trans hL ?_
       try simp only [keyTypes, Nat.reduceMod]
       decide)
    | with_reducible first
      | refine names_cons ?_ ?_
      | refine only_ite ?_ ?_
      | refine only_ite_snd ?_ ?_
      | refine only_ite_fst ?_ ?_
      | refine spareAdd_only (hL := ?_) (ho := ?_)
      | refine setErr_only (hL := ?_) (ho := ?_)
      | refine modEngine_only (hL := ?_) (ho := ?_)
      | refine only_foldl_snd2 (fun u x hu => ?_) ?_
      | refine only_ite_snd2 ?_ ?_
    | split
    | dsimp only

theorem bistBank_only {s : State} {x : Nat × Nat} (hL : names L [.staged, .recs, .hdr 0x58, .hdr 0x12, .gens, .spares, .hdr 0x20, .engines, .mbox] = true) 
    (ho : s0.onlyChanges s L) : s0.onlyChanges (State.bistBank s x) L := by
  unfold State.bistBank
  try dsimp only
  repeat' first
    | with_reducible assumption
    | (refine names_trans hL ?_
       try simp only [keyTypes, Nat.reduceMod]
       decide)
    | with_reducible first
      | refine names_cons ?_ ?_
      | refine only_ite ?_ ?_
      | refine only_ite_snd ?_ ?_
      | refine only_ite_fst ?_ ?_
      | refine spareAdd_only (hL := ?_) (ho := ?_)
      | refine setErr_only (hL := ?_) (ho := ?_)
      | refine modEngine_only (hL := ?_) (ho := ?_)
      | refine replaceTray_only (hL := ?_) (ho := ?_)
    | split
    | dsimp only

theorem bistRepair_only {s : State} {b : BistIn} (hL : names L [.spares, .staged, .recs, .hdr 0x58, .hdr 0x12, .gens, .hdr 0x20, .engines, .mbox, .regions, .clusters, .pace, .probes, .hdr 0x10, .regs 0x93, .regs 0x91, .regs 0x38, .violations, .ports, .suspects, .hdr 0x28] = true) 
    (ho : s0.onlyChanges s L) : s0.onlyChanges (State.bistRepair s b) L := by
  unfold State.bistRepair
  try dsimp only
  repeat' first
    | with_reducible assumption
    | (refine names_trans hL ?_
       try simp only [keyTypes, Nat.reduceMod]
       decide)
    | (refine names_trans hL ?_
       try simp only [keyTypes, Nat.reduceMod]
       refine names_trans (names_of_subset ?_) names_regs_word
       simp
       done)
    | (refine names_trans hL ?_
       refine names_trans (names_of_subset ?_) names_port_word
       simp
       done)
    | with_reducible first
      | refine names_cons ?_ ?_
      | refine only_ite ?_ ?_
      | refine only_ite_snd ?_ ?_
      | refine only_ite_fst ?_ ?_
      | refine spareAdd_only (hL := ?_) (ho := ?_)
      | refine bistRow_only (hL := ?_) (ho := ?_)
      | refine bistBank_only (hL := ?_) (ho := ?_)
      | refine regionFail_only (hL := ?_) (ho := ?_)
      | refine concFail_only (hL := ?_) (ho := ?_)
      | refine only_foldl (fun u x hu => ?_) ?_
      | refine only_foldl_snd (fun u x hu => ?_) ?_
      | refine only_foldl_fst (fun u x hu => ?_) ?_
      | refine only_foldl_snd2 (fun u x hu => ?_) ?_
      | refine only_ite_snd2 ?_ ?_
    | split
    | (with_reducible refine only_check (z := [.spares, .violations, .suspects]) ?_ ?_ ?_ ?_ ?_ ?_ ?_ ?_ ?_
       · refine names_trans hL ?_
         first | decide | (refine names_of_subset ?_; simp; done)
       iterate 7 · first | with_reducible rfl | (intro _; with_reducible rfl) | exact fun h => not_free h rfl | (intro _; dsimp only; split <;> rfl) | exact rfl | exact fun _ => rfl)
    | dsimp only

theorem bistCal_only {s : State} {b : BistIn} (hL : names L [.pace, .word 0x02 0x5C] = true) 
    (ho : s0.onlyChanges s L) : s0.onlyChanges (State.bistCal s b) L := by
  unfold State.bistCal
  try dsimp only
  repeat' first
    | with_reducible assumption
    | (refine names_trans hL ?_
       try simp only [keyTypes, Nat.reduceMod]
       decide)
    | with_reducible first
      | refine names_cons ?_ ?_
      | refine only_ite ?_ ?_
      | refine only_ite_snd ?_ ?_
      | refine only_ite_fst ?_ ?_
      | refine setReg_only (hL := ?_) (h := ?_)
    | split
    | (with_reducible refine only_pace (z := [.pace]) ?_ ?_ ?_
       · refine names_trans hL ?_
         first | decide | (refine names_of_subset ?_; simp; done)
       iterate 1 · first | with_reducible rfl | (intro _; with_reducible rfl) | exact fun h => not_free h rfl | (intro _; dsimp only; split <;> rfl) | exact rfl | exact fun _ => rfl)
    | dsimp only

theorem fencesAgain_only {s : State} (hL : names L [.probes] = true) 
    (ho : s0.onlyChanges s L) : s0.onlyChanges (State.fencesAgain s) L := by
  unfold State.fencesAgain
  try dsimp only
  repeat' first
    | with_reducible assumption
    | (refine names_trans hL ?_
       try simp only [keyTypes, Nat.reduceMod]
       decide)
    | with_reducible first
      | refine names_cons ?_ ?_
      | refine only_ite ?_ ?_
      | refine only_ite_snd ?_ ?_
      | refine only_ite_fst ?_ ?_
      | refine raiseGate_only (hL := ?_) (ho := ?_)
      | refine only_foldl (fun u x hu => ?_) ?_
      | refine only_foldl_snd (fun u x hu => ?_) ?_
      | refine only_foldl_fst (fun u x hu => ?_) ?_
    | split
    | dsimp only

theorem rise_only {s : State} {k : Option ResetKind} (hL : names L [.probes, .ports, .out, .rings, .forced, .change, .hdr 0x48, .staged, .recs, .hdr 0x58, .rails, .hdr 0x61, .snuff] = true) 
    (ho : s0.onlyChanges s L) : s0.onlyChanges (State.rise s k) L := by
  unfold State.rise
  try dsimp only
  repeat' first
    | with_reducible assumption
    | (refine names_trans hL ?_
       try simp only [keyTypes, Nat.reduceMod]
       decide)
    | with_reducible first
      | refine names_cons ?_ ?_
      | refine only_ite ?_ ?_
      | refine only_ite_snd ?_ ?_
      | refine only_ite_fst ?_ ?_
      | refine fencesAgain_only (hL := ?_) (ho := ?_)
      | refine startTraining_only (hL := ?_) (ho := ?_)
      | refine traceWake_only (hL := ?_) (ho := ?_)
      | refine forceLowest_only (hL := ?_) (ho := ?_)
      | refine log_only (hL := ?_) (ho := ?_)
      | refine setErr_only (hL := ?_) (ho := ?_)
      | refine only_foldl (fun u x hu => ?_) ?_
      | refine only_foldl_snd (fun u x hu => ?_) ?_
      | refine only_foldl_fst (fun u x hu => ?_) ?_
    | split
    | (with_reducible refine only_snuff (z := [.snuff]) ?_ ?_ ?_
       · refine names_trans hL ?_
         first | decide | (refine names_of_subset ?_; simp; done)
       iterate 1 · first | with_reducible rfl | (intro _; with_reducible rfl) | exact fun h => not_free h rfl | (intro _; dsimp only; split <;> rfl) | exact rfl | exact fun _ => rfl)
    | dsimp only

theorem systemStart_only {s : State} {k : Option ResetKind} (hL : names L [.word 0x18 0x44, .links] = true) 
    (ho : s0.onlyChanges s L) : s0.onlyChanges (State.systemStart s k) L := by
  unfold State.systemStart
  try dsimp only
  repeat' first
    | with_reducible assumption
    | (refine names_trans hL ?_
       try simp only [keyTypes, Nat.reduceMod]
       decide)
    | with_reducible first
      | refine names_cons ?_ ?_
      | refine only_ite ?_ ?_
      | refine only_ite_snd ?_ ?_
      | refine only_ite_fst ?_ ?_
      | refine setReg_only (hL := ?_) (h := ?_)
    | split
    | (with_reducible refine only_links (z := [.links]) ?_ ?_ ?_ ?_ ?_ ?_ ?_
       · refine names_trans hL ?_
         first | decide | (refine names_of_subset ?_; simp; done)
       iterate 5 · first | with_reducible rfl | (intro _; with_reducible rfl) | exact fun h => not_free h rfl | (intro _; dsimp only; split <;> rfl) | exact rfl | exact fun _ => rfl)
    | dsimp only

theorem bistEnd_only {s : State} {b : BistIn} (hL : names L [.word 0x50 0x64, .allHdrs, .word 0x18 0x44, .links, .clock, .pkg, .power, .activity, .bpwr, .probes, .ports, .out, .rings, .forced, .change, .staged, .recs, .rails, .snuff, .mbox] = true) 
    (ho : s0.onlyChanges s L) : s0.onlyChanges (State.bistEnd s b) L := by
  unfold State.bistEnd
  try dsimp only
  repeat' first
    | with_reducible assumption
    | (refine names_trans hL ?_
       try simp only [keyTypes, Nat.reduceMod]
       decide)
    | (refine names_trans hL ?_
       refine names_trans (names_of_subset ?_) names_all_hdr
       simp
       done)
    | with_reducible first
      | refine names_cons ?_ ?_
      | refine only_ite ?_ ?_
      | refine only_ite_snd ?_ ?_
      | refine only_ite_fst ?_ ?_
      | refine setReg_only (hL := ?_) (h := ?_)
      | refine pagesInReset_only (hL := ?_) (ho := ?_)
      | refine setStat_only (hL := ?_) (ho := ?_)
      | refine systemStart_only (hL := ?_) (ho := ?_)
      | refine timeStart_only (hL := ?_) (ho := ?_)
      | refine rise_only (hL := ?_) (ho := ?_)
      | refine replaceTray_only (hL := ?_) (ho := ?_)
      | refine setErr_only (hL := ?_) (ho := ?_)
      | refine only_foldl (fun u x hu => ?_) ?_
      | refine only_foldl_snd (fun u x hu => ?_) ?_
      | refine only_foldl_fst (fun u x hu => ?_) ?_
    | split
    | (with_reducible refine modBpwr_only (z := [.power, .activity, .bpwr]) ?_ ?_ ?_ ?_ ?_
       · refine names_trans hL ?_
         first | decide | (refine names_of_subset ?_; simp; done)
       iterate 3 · first | with_reducible rfl | (intro _; with_reducible rfl) | exact fun h => not_free h rfl | (intro _; dsimp only; split <;> rfl) | exact rfl | exact fun _ => rfl)
    | (with_reducible refine only_time (z := [.clock]) ?_ ?_ ?_ ?_ ?_ ?_ ?_
       · refine names_trans hL ?_
         first | decide | (refine names_of_subset ?_; simp; done)
       iterate 5 · first | with_reducible rfl | (intro _; with_reducible rfl) | exact fun h => not_free h rfl | (intro _; dsimp only; split <;> rfl) | exact rfl | exact fun _ => rfl)
    | (with_reducible refine only_pkg (z := [.pkg]) ?_ ?_ ?_
       · refine names_trans hL ?_
         first | decide | (refine names_of_subset ?_; simp; done)
       iterate 1 · first | with_reducible rfl | (intro _; with_reducible rfl) | exact fun h => not_free h rfl | (intro _; dsimp only; split <;> rfl) | exact rfl | exact fun _ => rfl)
    | (with_reducible refine only_mk (z := [.word 0x50 0x64, .allHdrs, .word 0x18 0x44, .links, .clock, .pkg, .power, .activity, .bpwr, .probes, .ports, .out, .rings, .forced, .change, .staged, .recs, .rails, .snuff, .mbox]) hL ?_ ?_
       · intro p hp
         cases p <;> first | (dsimp only [Part.same]; done) | (dsimp only [Part.same, State.reg, State.hdr]; intro _ _; with_reducible rfl) | exact not_free (free_of_outside hp) (by decide) | exact not_free (free_of_outside hp) rfl | exact trivial | (dsimp only [Part.same]; split <;> rfl))
    | dsimp only

theorem countReset_only {s : State} {scope : Nat} (hL : names L [.bpwr] = true) 
    (ho : s0.onlyChanges s L) : s0.onlyChanges (State.countReset s scope) L := by
  unfold State.countReset
  try dsimp only
  repeat' first
    | with_reducible assumption
    | (refine names_trans hL ?_
       try simp only [keyTypes, Nat.reduceMod]
       decide)
    | with_reducible first
      | refine names_cons ?_ ?_
      | refine only_ite ?_ ?_
      | refine only_ite_snd ?_ ?_
      | refine only_ite_fst ?_ ?_
    | split
    | (with_reducible refine modBpwr_only (z := [.bpwr]) ?_ ?_ ?_ ?_ ?_
       · refine names_trans hL ?_
         first | decide | (refine names_of_subset ?_; simp; done)
       iterate 3 · first | with_reducible rfl | (intro _; with_reducible rfl) | exact fun h => not_free h rfl | (intro _; dsimp only; split <;> rfl) | exact rfl | exact fun _ => rfl)
    | dsimp only

theorem hubReset_only {s : State} {k : ResetKind} {code : Nat} (hL : names L [.power, .bpwr, .activity, .token, .trace, .staged, .rings, .heldRecs, .snuff, .jobs, .bcasts, .watch, .change, .probes, .kats, .taint, .allHdrs, .recs, .allRegs, .snap, .redNodes, .log, .xfers, .ringQ, .notices, .grid, .geyser, .engines, .ftab, .relock, .pps, .ports, .links, .plans, .meas, .cmds, .pace, .redInputs, .snaps, .sinter] = true) 
    (ho : s0.onlyChanges s L) : s0.onlyChanges (State.hubReset s k code) L := by
  unfold State.hubReset
  try dsimp only
  repeat' first
    | with_reducible assumption
    | (refine names_trans hL ?_
       try simp only [keyTypes, Nat.reduceMod]
       decide)
    | (refine names_trans hL ?_
       refine names_trans (names_of_subset ?_) names_all_word
       simp
       done)
    | (refine names_trans hL ?_
       refine names_trans (names_of_subset ?_) names_all_regs
       simp
       done)
    | (refine names_trans hL ?_
       refine names_trans (names_of_subset ?_) names_all_hdr
       simp
       done)
    | with_reducible first
      | refine names_cons ?_ ?_
      | refine only_ite ?_ ?_
      | refine only_ite_snd ?_ ?_
      | refine only_ite_fst ?_ ?_
      | refine noteReset_only (hL := ?_) (ho := ?_)
      | refine countReset_only (hL := ?_) (ho := ?_)
      | refine busyNow_only (hL := ?_) (ho := ?_)
      | refine loseBits_only (hL := ?_) (ho := ?_)
      | refine warmStart_only (hL := ?_) (ho := ?_)
    | split
    | (with_reducible refine modBpwr_only (z := [.power, .bpwr, .activity]) ?_ ?_ ?_ ?_ ?_
       · refine names_trans hL ?_
         first | decide | (refine names_of_subset ?_; simp; done)
       iterate 3 · first | with_reducible rfl | (intro _; with_reducible rfl) | exact fun h => not_free h rfl | (intro _; dsimp only; split <;> rfl) | exact rfl | exact fun _ => rfl)
    | dsimp only

theorem lostNotices_only {s : State} (hL : names L [.notices, .ringQ, .out, .xfers, .mbox, .word 0x28 0xC4, .taint] = true) 
    (ho : s0.onlyChanges s L) : s0.onlyChanges (State.lostNotices s) L := by
  unfold State.lostNotices
  try dsimp only
  repeat' first
    | with_reducible assumption
    | (refine names_trans hL ?_
       try simp only [keyTypes, Nat.reduceMod]
       decide)
    | with_reducible first
      | refine names_cons ?_ ?_
      | refine only_ite ?_ ?_
      | refine only_ite_snd ?_ ?_
      | refine only_ite_fst ?_ ?_
      | refine poisonSend_only (hL := ?_) (ho := ?_)
      | refine only_foldl (fun u x hu => ?_) ?_
      | refine only_foldl_snd (fun u x hu => ?_) ?_
      | refine only_foldl_fst (fun u x hu => ?_) ?_
      | refine only_foldl_snd2 (fun u x hu => ?_) ?_
      | refine only_ite_snd2 ?_ ?_
    | split
    | (with_reducible refine modCheck_only (z := [.notices, .taint]) ?_ ?_ ?_ ?_ ?_ ?_ ?_ ?_ ?_
       · refine names_trans hL ?_
         first | decide | (refine names_of_subset ?_; simp; done)
       iterate 7 · first | with_reducible rfl | (intro _; with_reducible rfl) | exact fun h => not_free h rfl | (intro _; dsimp only; split <;> rfl) | exact rfl | exact fun _ => rfl)
    | dsimp only

theorem hubResetEnd_only {s : State} {code : Nat} (hL : names L [.allHdrs, .bpwr, .taint, .kernels, .staged, .recs, .regs 0x93, .regs 0x91, .regs 0x38, .violations, .ports, .suspects, .gens, .spares, .probes, .inj, .kats, .cmds, .word 0x08 0x100, .notices, .ringQ, .out, .xfers, .mbox, .word 0x28 0xC4, .redInputs, .meas, .engines] = true) 
    (ho : s0.onlyChanges s L) : s0.onlyChanges (State.hubResetEnd s code) L := by
  unfold State.hubResetEnd
  try dsimp only
  repeat' first
    | with_reducible assumption
    | (refine names_trans hL ?_
       try simp only [keyTypes, Nat.reduceMod]
       decide)
    | (refine names_trans hL ?_
       try simp only [keyTypes, Nat.reduceMod]
       refine names_trans (names_of_subset ?_) names_regs_word
       simp
       done)
    | (refine names_trans hL ?_
       refine names_trans (names_of_subset ?_) names_all_hdr
       simp
       done)
    | (refine names_trans hL ?_
       refine names_trans (names_of_subset ?_) names_port_word
       simp
       done)
    | with_reducible first
      | refine names_cons ?_ ?_
      | refine only_ite ?_ ?_
      | refine only_ite_snd ?_ ?_
      | refine only_ite_fst ?_ ?_
      | refine pagesInReset_only (hL := ?_) (ho := ?_)
      | refine sideResume_only (hL := ?_) (ho := ?_)
      | refine rehashStart_only (hL := ?_) (ho := ?_)
      | refine tcamRestore_only (hL := ?_) (ho := ?_)
      | refine fencesAgain_only (hL := ?_) (ho := ?_)
      | refine lostNotices_only (hL := ?_) (ho := ?_)
      | refine complete_only (hL := ?_) (ho := ?_)
      | refine waitPage_only (hL := ?_) (ho := ?_)
      | refine only_foldl (fun u x hu => ?_) ?_
      | refine only_foldl_snd (fun u x hu => ?_) ?_
      | refine only_foldl_fst (fun u x hu => ?_) ?_
    | split
    | (with_reducible refine modBpwr_only (z := [.bpwr]) ?_ ?_ ?_ ?_ ?_
       · refine names_trans hL ?_
         first | decide | (refine names_of_subset ?_; simp; done)
       iterate 3 · first | with_reducible rfl | (intro _; with_reducible rfl) | exact fun h => not_free h rfl | (intro _; dsimp only; split <;> rfl) | exact rfl | exact fun _ => rfl)
    | dsimp only

theorem execSupplyGood_only (r : Rail) (refclk : Bool) (s : State) : ∃ st', execSupplyGood r refclk s = .next st' ∧ s.onlyChanges st' (([.out, .xfers, .lines, .inj, .bpwr, .allHdrs, .pkg, .pace, .allRegs, .cmds, .snap, .ringQ, .host, .probes, .clusters, .regions, .profiles, .heldRecs, .grid, .geyser, .redNodes, .redInputs, .engines, .ftab, .snaps, .spares, .suspects, .violations, .kernels, .kats, .taint, .notices, .rotState, .meas, .firmware, .keys, .spdm, .linkKeys, .verify, .rotOrders, .relock, .pps, .clock, .evts, .tports, .staged, .rings, .latches, .token, .trace] : List Part) ++ ([.snuff, .tap, .links, .ports, .chans, .proxies, .peers, .sinter, .watch, .jobs, .bcasts, .drift, .svcNotices, .cores, .change, .forced, .droops, .waves, .rails, .sensors, .tables, .budgets, .recs, .log, .errs, .gens, .mirror, .replicas, .plans, .mbox, .power, .activity, .now, .tick] : List Part)) := by
  refine ⟨_, rfl, only_start fun hL h0 => ?_⟩
  refine settle_only (names_of_subset (by simp)) ?_
  repeat' first
    | with_reducible first
      | exact h0
      | assumption
    | (refine names_trans hL ?_
       try simp only [keyTypes, Nat.reduceMod]
       decide)
    | (refine names_trans hL ?_
       refine names_trans (names_of_subset ?_) names_all_word
       simp
       done)
    | (refine names_trans hL ?_
       refine names_trans (names_of_subset ?_) names_all_regs
       simp
       done)
    | (refine names_trans hL ?_
       refine names_trans (names_of_subset ?_) names_all_hdr
       simp
       done)
    | with_reducible first
      | refine names_cons ?_ ?_
      | refine only_ite ?_ ?_
      | refine only_ite_snd ?_ ?_
      | refine only_ite_fst ?_ ?_
      | refine brownoutBack_only (hL := ?_) (ho := ?_)
      | refine railReset_only (hL := ?_) (ho := ?_)
    | split
    | (with_reducible refine modBpwr_only (z := [.bpwr, .power, .activity]) ?_ ?_ ?_ ?_ ?_
       · refine names_trans hL ?_
         first | decide | (refine names_of_subset ?_; simp; done)
       iterate 3 · first | with_reducible rfl | (intro _; with_reducible rfl) | exact fun h => not_free h rfl | (intro _; dsimp only; split <;> rfl) | exact rfl | exact fun _ => rfl)
    | dsimp only

theorem execBrownout_only (r : Rail) (s : State) : ∃ st', execBrownout r s = .next st' ∧ s.onlyChanges st' [.out, .xfers, .lines, .inj, .bpwr, .allHdrs, .clock] := by
  refine ⟨_, rfl, only_start fun hL h0 => ?_⟩
  refine settle_only (names_of_subset (by simp)) ?_
  repeat' first
    | with_reducible first
      | exact h0
      | assumption
    | (refine names_trans hL ?_
       try simp only [keyTypes, Nat.reduceMod]
       decide)
    | (refine names_trans hL ?_
       refine names_trans (names_of_subset ?_) names_all_hdr
       simp
       done)
    | with_reducible first
      | refine names_cons ?_ ?_
      | refine only_ite ?_ ?_
      | refine only_ite_snd ?_ ?_
      | refine only_ite_fst ?_ ?_
      | refine timeStart_only (hL := ?_) (ho := ?_)
    | split
    | (with_reducible refine modBpwr_only (z := [.bpwr]) ?_ ?_ ?_ ?_ ?_
       · refine names_trans hL ?_
         first | decide | (refine names_of_subset ?_; simp; done)
       iterate 3 · first | with_reducible rfl | (intro _; with_reducible rfl) | exact fun h => not_free h rfl | (intro _; dsimp only; split <;> rfl) | exact rfl | exact fun _ => rfl)
    | dsimp only

theorem execPinReset_only (s : State) : ∃ st', execPinReset s = .next st' ∧ s.onlyChanges st' (([.out, .xfers, .lines, .inj, .allHdrs, .pkg, .pace, .allRegs, .cmds, .snap, .ringQ, .host, .probes, .clusters, .regions, .profiles, .heldRecs, .grid, .geyser, .redNodes, .redInputs, .engines, .ftab, .snaps, .spares, .suspects, .violations, .kernels, .kats, .taint, .notices, .rotState, .meas, .firmware, .keys, .spdm, .linkKeys, .verify, .rotOrders, .relock, .pps, .clock, .evts, .tports, .staged, .rings, .latches, .token, .trace, .snuff] : List Part) ++ ([.tap, .links, .ports, .chans, .proxies, .peers, .sinter, .watch, .jobs, .bcasts, .drift, .svcNotices, .cores, .change, .forced, .droops, .waves, .rails, .sensors, .tables, .budgets, .recs, .log, .errs, .gens, .mirror, .replicas, .plans, .mbox, .power, .bpwr, .activity, .now, .tick] : List Part)) := by
  refine ⟨_, rfl, only_start fun hL h0 => ?_⟩
  refine settle_only (names_of_subset (by simp)) ?_
  repeat' first
    | with_reducible first
      | exact h0
      | assumption
    | (refine names_trans hL ?_
       try simp only [keyTypes, Nat.reduceMod]
       decide)
    | (refine names_trans hL ?_
       refine names_trans (names_of_subset ?_) names_all_word
       simp
       done)
    | (refine names_trans hL ?_
       refine names_trans (names_of_subset ?_) names_all_regs
       simp
       done)
    | (refine names_trans hL ?_
       refine names_trans (names_of_subset ?_) names_all_hdr
       simp
       done)
    | with_reducible first
      | refine names_cons ?_ ?_
      | refine only_ite ?_ ?_
      | refine only_ite_snd ?_ ?_
      | refine only_ite_fst ?_ ?_
      | refine powerReset_only (hL := ?_) (ho := ?_)
    | split
    | (with_reducible refine modBpwr_only (z := [.power, .bpwr, .activity]) ?_ ?_ ?_ ?_ ?_
       · refine names_trans hL ?_
         first | decide | (refine names_of_subset ?_; simp; done)
       iterate 3 · first | with_reducible rfl | (intro _; with_reducible rfl) | exact fun h => not_free h rfl | (intro _; dsimp only; split <;> rfl) | exact rfl | exact fun _ => rfl)
    | dsimp only

theorem execPinResetRelease_only (i : StrapIn) (s : State) : ∃ st', execPinResetRelease i s = .next st' ∧ s.onlyChanges st' [.out, .xfers, .lines, .inj, .allHdrs, .clock, .straps, .staged, .recs, .bpwr] := by
  refine ⟨_, rfl, only_start fun hL h0 => ?_⟩
  refine settle_only (names_of_subset (by simp)) ?_
  repeat' first
    | with_reducible first
      | exact h0
      | assumption
    | (refine names_trans hL ?_
       try simp only [keyTypes, Nat.reduceMod]
       decide)
    | (refine names_trans hL ?_
       refine names_trans (names_of_subset ?_) names_all_hdr
       simp
       done)
    | with_reducible first
      | refine names_cons ?_ ?_
      | refine only_ite ?_ ?_
      | refine only_ite_snd ?_ ?_
      | refine only_ite_fst ?_ ?_
      | refine timeStart_only (hL := ?_) (ho := ?_)
      | refine takeStraps_only (hL := ?_) (ho := ?_)
    | split
    | (with_reducible refine modBpwr_only (z := [.bpwr]) ?_ ?_ ?_ ?_ ?_
       · refine names_trans hL ?_
         first | decide | (refine names_of_subset ?_; simp; done)
       iterate 3 · first | with_reducible rfl | (intro _; with_reducible rfl) | exact fun h => not_free h rfl | (intro _; dsimp only; split <;> rfl) | exact rfl | exact fun _ => rfl)
    | dsimp only

theorem execRotReset_only (s : State) : ∃ st', execRotReset s = .next st' ∧ s.onlyChanges st' (([.out, .xfers, .lines, .inj, .allHdrs, .pkg, .pace, .allRegs, .cmds, .snap, .ringQ, .host, .probes, .clusters, .regions, .profiles, .heldRecs, .grid, .geyser, .redNodes, .redInputs, .engines, .ftab, .snaps, .spares, .suspects, .violations, .kernels, .kats, .taint, .notices, .rotState, .meas, .firmware, .keys, .spdm, .linkKeys, .verify, .rotOrders, .relock, .pps, .clock, .evts, .tports, .staged, .rings, .latches, .token, .trace, .snuff] : List Part) ++ ([.tap, .links, .ports, .chans, .proxies, .peers, .sinter, .watch, .jobs, .bcasts, .drift, .svcNotices, .cores, .change, .forced, .droops, .waves, .rails, .sensors, .tables, .budgets, .recs, .log, .errs, .gens, .mirror, .replicas, .plans, .mbox, .power, .bpwr, .activity, .now, .tick] : List Part)) := by
  refine ⟨_, rfl, only_start fun hL h0 => ?_⟩
  refine settle_only (names_of_subset (by simp)) ?_
  repeat' first
    | with_reducible first
      | exact h0
      | assumption
    | (refine names_trans hL ?_
       try simp only [keyTypes, Nat.reduceMod]
       decide)
    | (refine names_trans hL ?_
       refine names_trans (names_of_subset ?_) names_all_word
       simp
       done)
    | (refine names_trans hL ?_
       refine names_trans (names_of_subset ?_) names_all_regs
       simp
       done)
    | (refine names_trans hL ?_
       refine names_trans (names_of_subset ?_) names_all_hdr
       simp
       done)
    | with_reducible first
      | refine names_cons ?_ ?_
      | refine only_ite ?_ ?_
      | refine only_ite_snd ?_ ?_
      | refine only_ite_fst ?_ ?_
      | refine powerReset_only (hL := ?_) (ho := ?_)
    | split
    | dsimp only

theorem execBistDone_only (b : BistIn) (s : State) : ∃ st', execBistDone b s = .next st' ∧ s.onlyChanges st' [.out, .xfers, .lines, .inj, .straps, .staged, .recs, .word 0x50 0x64, .allHdrs, .word 0x18 0x44, .links, .clock, .pkg, .power, .activity, .bpwr, .probes, .ports, .rings, .forced, .change, .rails, .snuff, .mbox, .pace, .word 0x02 0x5C, .spares, .gens, .engines, .regions, .clusters, .regs 0x93, .regs 0x91, .regs 0x38, .violations, .suspects] := by
  refine ⟨_, rfl, only_start fun hL h0 => ?_⟩
  refine settle_only (names_of_subset (by simp)) ?_
  repeat' first
    | with_reducible first
      | exact h0
      | assumption
    | (refine names_trans hL ?_
       try simp only [keyTypes, Nat.reduceMod]
       decide)
    | (refine names_trans hL ?_
       try simp only [keyTypes, Nat.reduceMod]
       refine names_trans (names_of_subset ?_) names_regs_word
       simp
       done)
    | (refine names_trans hL ?_
       refine names_trans (names_of_subset ?_) names_all_hdr
       simp
       done)
    | (refine names_trans hL ?_
       refine names_trans (names_of_subset ?_) names_port_word
       simp
       done)
    | with_reducible first
      | refine names_cons ?_ ?_
      | refine only_ite ?_ ?_
      | refine only_ite_snd ?_ ?_
      | refine only_ite_fst ?_ ?_
      | refine takeStraps_only (hL := ?_) (ho := ?_)
      | refine bistEnd_only (hL := ?_) (ho := ?_)
      | refine bistCal_only (hL := ?_) (ho := ?_)
      | refine bistRepair_only (hL := ?_) (ho := ?_)
    | split
    | dsimp only

theorem execWarmReset_only (s : State) : ∃ st', execWarmReset s = .next st' ∧ s.onlyChanges st' [.out, .xfers, .lines, .inj, .power, .bpwr, .activity, .token, .trace, .staged, .rings, .heldRecs, .snuff, .jobs, .bcasts, .watch, .change, .probes, .kats, .taint, .allHdrs, .recs, .allRegs, .snap, .redNodes, .log, .ringQ, .notices, .grid, .geyser, .engines, .ftab, .relock, .pps, .ports, .links, .plans, .meas, .cmds, .pace, .redInputs, .snaps, .sinter, .rotOrders] := by
  refine ⟨_, rfl, only_start fun hL h0 => ?_⟩
  refine settle_only (names_of_subset (by simp)) ?_
  repeat' first
    | with_reducible first
      | exact h0
      | assumption
    | (refine names_trans hL ?_
       try simp only [keyTypes, Nat.reduceMod]
       decide)
    | (refine names_trans hL ?_
       refine names_trans (names_of_subset ?_) names_all_word
       simp
       done)
    | (refine names_trans hL ?_
       refine names_trans (names_of_subset ?_) names_all_regs
       simp
       done)
    | (refine names_trans hL ?_
       refine names_trans (names_of_subset ?_) names_all_hdr
       simp
       done)
    | with_reducible first
      | refine names_cons ?_ ?_
      | refine only_ite ?_ ?_
      | refine only_ite_snd ?_ ?_
      | refine only_ite_fst ?_ ?_
      | refine hubReset_only (hL := ?_) (ho := ?_)
    | split
    | (with_reducible refine modRot_only (z := [.meas, .rotOrders]) ?_ ?_ ?_ ?_ ?_ ?_ ?_ ?_ ?_ ?_
       · refine names_trans hL ?_
         first | decide | (refine names_of_subset ?_; simp; done)
       iterate 8 · first | with_reducible rfl | (intro _; with_reducible rfl) | exact fun h => not_free h rfl | (intro _; dsimp only; split <;> rfl) | exact rfl | exact fun _ => rfl)
    | dsimp only

theorem execPackageReset_only (s : State) : ∃ st', execPackageReset s = .next st' ∧ s.onlyChanges st' (([.out, .xfers, .lines, .inj, .pace, .mbox, .host, .tap, .proxies, .ports, .chans, .staged, .recs, .violations, .suspects, .gens, .spares, .probes, .linkKeys, .power, .bpwr, .activity, .token, .trace, .rings, .heldRecs, .snuff, .jobs, .bcasts, .watch, .change, .kats, .taint, .allHdrs, .allRegs, .snap, .redNodes, .log, .ringQ, .notices, .grid, .geyser, .engines, .ftab, .relock, .pps, .links, .plans, .meas, .cmds] : List Part) ++ ([.redInputs, .snaps, .sinter, .pkg] : List Part)) := by
  refine ⟨_, rfl, only_start fun hL h0 => ?_⟩
  refine settle_only (names_of_subset (by simp)) ?_
  repeat' first
    | with_reducible first
      | exact h0
      | assumption
    | (refine names_trans hL ?_
       try simp only [keyTypes, Nat.reduceMod]
       decide)
    | (refine names_trans hL ?_
       refine names_trans (names_of_subset ?_) names_all_word
       simp
       done)
    | (refine names_trans hL ?_
       refine names_trans (names_of_subset ?_) names_all_regs
       simp
       done)
    | (refine names_trans hL ?_
       refine names_trans (names_of_subset ?_) names_all_hdr
       simp
       done)
    | with_reducible first
      | refine names_cons ?_ ?_
      | refine only_ite ?_ ?_
      | refine only_ite_snd ?_ ?_
      | refine only_ite_fst ?_ ?_
      | refine packageLinks_only (hL := ?_) (ho := ?_)
      | refine hubReset_only (hL := ?_) (ho := ?_)
    | split
    | (with_reducible refine only_pkg (z := [.pkg]) ?_ ?_ ?_
       · refine names_trans hL ?_
         first | decide | (refine names_of_subset ?_; simp; done)
       iterate 1 · first | with_reducible rfl | (intro _; with_reducible rfl) | exact fun h => not_free h rfl | (intro _; dsimp only; split <;> rfl) | exact rfl | exact fun _ => rfl)
    | dsimp only

theorem execWarmResetEnd_only (s : State) : ∃ st', execWarmResetEnd s = .next st' ∧ s.onlyChanges st' [.out, .xfers, .lines, .inj, .allHdrs, .bpwr, .taint, .kernels, .staged, .recs, .regs 0x93, .regs 0x91, .regs 0x38, .violations, .ports, .suspects, .gens, .spares, .probes, .kats, .cmds, .word 0x08 0x100, .notices, .ringQ, .mbox, .word 0x28 0xC4, .redInputs, .meas, .engines] := by
  refine ⟨_, rfl, only_start fun hL h0 => ?_⟩
  refine settle_only (names_of_subset (by simp)) ?_
  repeat' first
    | with_reducible first
      | exact h0
      | assumption
    | (refine names_trans hL ?_
       try simp only [keyTypes, Nat.reduceMod]
       decide)
    | (refine names_trans hL ?_
       try simp only [keyTypes, Nat.reduceMod]
       refine names_trans (names_of_subset ?_) names_regs_word
       simp
       done)
    | (refine names_trans hL ?_
       refine names_trans (names_of_subset ?_) names_all_hdr
       simp
       done)
    | (refine names_trans hL ?_
       refine names_trans (names_of_subset ?_) names_port_word
       simp
       done)
    | with_reducible first
      | refine names_cons ?_ ?_
      | refine only_ite ?_ ?_
      | refine only_ite_snd ?_ ?_
      | refine only_ite_fst ?_ ?_
      | refine hubResetEnd_only (hL := ?_) (ho := ?_)
    | split
    | dsimp only

theorem execRegionReset_only (region : BitVec 4) (rot : Bool) (s : State) : ∃ st', execRegionReset region rot s = .next st' ∧ s.onlyChanges st' [.out, .xfers, .lines, .inj, .power, .activity, .regions, .ringQ, .notices, .cmds, .word 0x08 0x100, .probes, .hdr 0x61, .heldRecs, .snuff, .staged, .recs, .hdr 0x58, .kats, .gens, .spares, .violations, .chans, .regs 0x93, .regs 0x91, .regs 0x38, .ports, .suspects, .hdr 0x28, .hdr 0x12, .hdr 0x50, .word 0x50 0x5C, .word 0x50 0x58, .bpwr] := by
  refine ⟨_, rfl, only_start fun hL h0 => ?_⟩
  refine settle_only (names_of_subset (by simp)) ?_
  repeat' first
    | with_reducible first
      | exact h0
      | assumption
    | (refine names_trans hL ?_
       try simp only [keyTypes, Nat.reduceMod]
       decide)
    | (refine names_trans hL ?_
       try simp only [keyTypes, Nat.reduceMod]
       refine names_trans (names_of_subset ?_) names_regs_word
       simp
       done)
    | (refine names_trans hL ?_
       refine names_trans (names_of_subset ?_) names_port_word
       simp
       done)
    | with_reducible first
      | refine names_cons ?_ ?_
      | refine only_ite ?_ ?_
      | refine only_ite_snd ?_ ?_
      | refine only_ite_fst ?_ ?_
      | refine busyNow_only (hL := ?_) (ho := ?_)
      | refine regionStart_only (hL := ?_) (ho := ?_)
      | refine noteReset_only (hL := ?_) (ho := ?_)
      | refine countReset_only (hL := ?_) (ho := ?_)
    | split
    | dsimp only

theorem execRegionResetEnd_only (region : BitVec 4) (s : State) : ∃ st', execRegionResetEnd region s = .next st' ∧ s.onlyChanges st' [.out, .xfers, .lines, .inj, .cmds, .ports, .regions, .probes, .clusters, .staged, .recs, .hdr 0x58, .regs 0x93, .regs 0x91, .regs 0x38, .violations, .suspects, .hdr 0x28, .hdr 0x12, .gens, .spares, .hdr 0x10] := by
  refine ⟨_, rfl, only_start fun hL h0 => ?_⟩
  refine settle_only (names_of_subset (by simp)) ?_
  repeat' first
    | with_reducible first
      | exact h0
      | assumption
    | (refine names_trans hL ?_
       try simp only [keyTypes, Nat.reduceMod]
       decide)
    | (refine names_trans hL ?_
       try simp only [keyTypes, Nat.reduceMod]
       refine names_trans (names_of_subset ?_) names_regs_word
       simp
       done)
    | (refine names_trans hL ?_
       refine names_trans (names_of_subset ?_) names_port_word
       simp
       done)
    | with_reducible first
      | refine names_cons ?_ ?_
      | refine only_ite ?_ ?_
      | refine only_ite_snd ?_ ?_
      | refine only_ite_fst ?_ ?_
      | refine complete_only (hL := ?_) (ho := ?_)
      | refine startTraining_only (hL := ?_) (ho := ?_)
      | refine regionFinish_only (hL := ?_) (ho := ?_)
      | refine only_foldl (fun u x hu => ?_) ?_
      | refine only_foldl_snd (fun u x hu => ?_) ?_
      | refine only_foldl_fst (fun u x hu => ?_) ?_
    | split
    | dsimp only

/-! Power -/

theorem gateDomains_only {s : State} {target : Nat} {hand : Bool} (hL : names L [.trace, .rings, .hdr 0x60, .inj, .regs 0x60, .ringQ, .out, .xfers, .mbox, .power, .bpwr, .staged, .latches, .token] = true) 
    (ho : s0.onlyChanges s L) : s0.onlyChanges (State.gateDomains s target hand) L := by
  unfold State.gateDomains
  try dsimp only
  repeat' first
    | with_reducible assumption
    | (refine names_trans hL ?_
       try simp only [keyTypes, Nat.reduceMod]
       decide)
    | (refine names_trans hL ?_
       try simp only [keyTypes, Nat.reduceMod]
       refine names_trans (names_of_subset ?_) names_regs_word
       simp
       done)
    | with_reducible first
      | refine names_cons ?_ ?_
      | refine only_ite ?_ ?_
      | refine only_ite_snd ?_ ?_
      | refine only_ite_fst ?_ ?_
      | refine tracePwr_only (hL := ?_) (ho := ?_)
      | refine traceLose_only (hL := ?_) (ho := ?_)
    | split
    | (with_reducible refine modBpwr_only (z := [.power, .bpwr]) ?_ ?_ ?_ ?_ ?_
       · refine names_trans hL ?_
         first | decide | (refine names_of_subset ?_; simp; done)
       iterate 3 · first | with_reducible rfl | (intro _; with_reducible rfl) | exact fun h => not_free h rfl | (intro _; dsimp only; split <;> rfl) | exact rfl | exact fun _ => rfl)
    | dsimp only

theorem enterNow_only {s : State} {target : Nat} {own : Bool × Nat} (hL : names L [.mbox, .cmds, .trace, .rings, .hdr 0x60, .inj, .regs 0x60, .ringQ, .out, .xfers, .power, .bpwr, .staged, .latches, .token] = true) 
    (ho : s0.onlyChanges s L) : s0.onlyChanges (State.enterNow s target own) L := by
  unfold State.enterNow
  try dsimp only
  repeat' first
    | with_reducible assumption
    | (refine names_trans hL ?_
       try simp only [keyTypes, Nat.reduceMod]
       decide)
    | (refine names_trans hL ?_
       try simp only [keyTypes, Nat.reduceMod]
       refine names_trans (names_of_subset ?_) names_regs_word
       simp
       done)
    | with_reducible first
      | refine names_cons ?_ ?_
      | refine only_ite ?_ ?_
      | refine only_ite_snd ?_ ?_
      | refine only_ite_fst ?_ ?_
      | refine sendTyp_only (hL := ?_) (ho := ?_)
      | refine complete_only (hL := ?_) (ho := ?_)
      | refine gateDomains_only (hL := ?_) (ho := ?_)
      | refine only_foldl (fun u x hu => ?_) ?_
      | refine only_foldl_snd (fun u x hu => ?_) ?_
      | refine only_foldl_fst (fun u x hu => ?_) ?_
    | split
    | dsimp only

theorem bpwrEnterCmd_only {c : CmdIn} {s : State} (hL : names L [.cmds, .word 0x08 0x104, .word 0x08 0x100, .mbox, .trace, .rings, .hdr 0x60, .inj, .regs 0x60, .ringQ, .out, .xfers, .power, .bpwr, .staged, .latches, .token] = true) 
    (ho : s0.onlyChanges s L) : s0.onlyChanges (bpwrEnterCmd c s) L := by
  unfold bpwrEnterCmd
  try dsimp only
  repeat' first
    | with_reducible assumption
    | (refine names_trans hL ?_
       try simp only [keyTypes, Nat.reduceMod]
       decide)
    | (refine names_trans hL ?_
       try simp only [keyTypes, Nat.reduceMod]
       refine names_trans (names_of_subset ?_) names_regs_word
       simp
       done)
    | with_reducible first
      | refine names_cons ?_ ?_
      | refine only_ite ?_ ?_
      | refine only_ite_snd ?_ ?_
      | refine only_ite_fst ?_ ?_
      | refine done_only (hL := ?_) (ho := ?_)
      | refine res_only (hL := ?_) (ho := ?_)
      | refine badArg_only (hL := ?_) (ho := ?_)
      | refine enterNow_only (hL := ?_) (ho := ?_)
      | refine waitFor_only (hL := ?_) (ho := ?_)
    | split
    | (with_reducible refine modBpwr_only (z := [.power, .bpwr]) ?_ ?_ ?_ ?_ ?_
       · refine names_trans hL ?_
         first | decide | (refine names_of_subset ?_; simp; done)
       iterate 3 · first | with_reducible rfl | (intro _; with_reducible rfl) | exact fun h => not_free h rfl | (intro _; dsimp only; split <;> rfl) | exact rfl | exact fun _ => rfl)
    | dsimp only

theorem execBpwrEnter_only (c : CmdIn) (s : State) : ∃ st', execBpwrEnter c s = .next st' ∧ s.onlyChanges st' [.out, .xfers, .lines, .inj, .cmds, .power, .bpwr, .word 0x50 0x54, .activity, .host, .tap, .regs 0x08, .hdr 0x08, .mbox, .trace, .rings, .hdr 0x60, .regs 0x60, .ringQ, .staged, .latches, .token] := by
  refine ⟨_, rfl, only_start fun hL h0 => ?_⟩
  refine settle_only (names_of_subset (by simp)) ?_
  repeat' first
    | with_reducible first
      | exact h0
      | assumption
    | (refine names_trans hL ?_
       try simp only [keyTypes, Nat.reduceMod]
       decide)
    | (refine names_trans hL ?_
       try simp only [keyTypes, Nat.reduceMod]
       refine names_trans (names_of_subset ?_) names_regs_word
       simp
       done)
    | with_reducible first
      | refine names_cons ?_ ?_
      | refine only_ite ?_ ?_
      | refine only_ite_snd ?_ ?_
      | refine only_ite_fst ?_ ?_
      | refine runCmd_only (hL := ?_) (h_effect := fun u hu => ?_) (ho := ?_)
      | refine bpwrEnterCmd_only (hL := ?_) (ho := ?_)
    | split
    | dsimp only

theorem execBpwrWickTest_only (c : CmdIn) (s : State) : ∃ st', execBpwrWickTest c s = .next st' ∧ s.onlyChanges st' [.out, .xfers, .lines, .inj, .cmds, .power, .bpwr, .word 0x50 0x54, .activity, .host, .tap, .regs 0x08, .hdr 0x08] := by
  refine ⟨_, rfl, only_start fun hL h0 => ?_⟩
  refine settle_only (names_of_subset (by simp)) ?_
  repeat' first
    | with_reducible first
      | exact h0
      | assumption
    | (refine names_trans hL ?_
       try simp only [keyTypes, Nat.reduceMod]
       decide)
    | (refine names_trans hL ?_
       try simp only [keyTypes, Nat.reduceMod]
       refine names_trans (names_of_subset ?_) names_regs_word
       simp
       done)
    | with_reducible first
      | refine names_cons ?_ ?_
      | refine only_ite ?_ ?_
      | refine only_ite_snd ?_ ?_
      | refine only_ite_fst ?_ ?_
      | refine runCmd_only (hL := ?_) (h_effect := fun u hu => ?_) (ho := ?_)
      | refine ok_only (hL := ?_) (ho := ?_)
      | refine res_only (hL := ?_) (ho := ?_)
      | refine only_foldl_snd2 (fun u x hu => ?_) ?_
      | refine only_ite_snd2 ?_ ?_
      | refine only_foldl_snd3 (fun u x hu => ?_) ?_
    | split
    | dsimp only

theorem idleTick_only {s : State} (hL : names L [.activity, .power] = true) 
    (ho : s0.onlyChanges s L) : s0.onlyChanges (State.idleTick s) L := by
  unfold State.idleTick
  try dsimp only
  repeat' first
    | with_reducible assumption
    | (refine names_trans hL ?_
       try simp only [keyTypes, Nat.reduceMod]
       decide)
    | with_reducible first
      | refine names_cons ?_ ?_
      | refine only_ite ?_ ?_
      | refine only_ite_snd ?_ ?_
      | refine only_ite_fst ?_ ?_
    | split
    | (with_reducible refine modBpwr_only (z := [.activity, .power]) ?_ ?_ ?_ ?_ ?_
       · refine names_trans hL ?_
         first | decide | (refine names_of_subset ?_; simp; done)
       iterate 3 · first | with_reducible rfl | (intro _; with_reducible rfl) | exact fun h => not_free h rfl | (intro _; dsimp only; split <;> rfl) | exact rfl | exact fun _ => rfl)
    | dsimp only

theorem mirrorWake_only {s : State} (hL : names L [.probes, .staged, .recs, .hdr 0x58, .regs 0x93, .regs 0x91, .regs 0x38, .violations, .ports, .suspects, .hdr 0x28, .hdr 0x12, .gens, .spares, .hdr 0x10, .clusters] = true) 
    (ho : s0.onlyChanges s L) : s0.onlyChanges (State.mirrorWake s) L := by
  unfold State.mirrorWake
  try dsimp only
  repeat' first
    | with_reducible assumption
    | (refine names_trans hL ?_
       try simp only [keyTypes, Nat.reduceMod]
       decide)
    | (refine names_trans hL ?_
       try simp only [keyTypes, Nat.reduceMod]
       refine names_trans (names_of_subset ?_) names_regs_word
       simp
       done)
    | (refine names_trans hL ?_
       refine names_trans (names_of_subset ?_) names_port_word
       simp
       done)
    | with_reducible first
      | refine names_cons ?_ ?_
      | refine only_ite ?_ ?_
      | refine only_ite_snd ?_ ?_
      | refine only_ite_fst ?_ ?_
      | refine deliver_only (hL := ?_) (ho := ?_)
      | refine commit_only (hL := ?_) (ho := ?_)
      | refine only_foldl (fun u x hu => ?_) ?_
      | refine only_foldl_snd (fun u x hu => ?_) ?_
      | refine only_foldl_fst (fun u x hu => ?_) ?_
    | split
    | dsimp only

theorem dozeExit_only {s : State} (hL : names L [.power, .activity, .taint, .kernels, .staged, .recs, .hdr 0x58, .regs 0x93, .regs 0x91, .regs 0x38, .violations, .ports, .suspects, .hdr 0x28, .hdr 0x12, .gens, .spares, .probes, .inj, .kats, .cmds, .word 0x08 0x100, .notices, .ringQ, .out, .xfers, .mbox, .word 0x28 0xC4, .redInputs, .engines, .rings, .hdr 0x10, .clusters, .bpwr] = true) 
    (ho : s0.onlyChanges s L) : s0.onlyChanges (State.dozeExit s) L := by
  unfold State.dozeExit
  try dsimp only
  repeat' first
    | with_reducible assumption
    | (refine names_trans hL ?_
       try simp only [keyTypes, Nat.reduceMod]
       decide)
    | (refine names_trans hL ?_
       try simp only [keyTypes, Nat.reduceMod]
       refine names_trans (names_of_subset ?_) names_regs_word
       simp
       done)
    | (refine names_trans hL ?_
       refine names_trans (names_of_subset ?_) names_port_word
       simp
       done)
    | with_reducible first
      | refine names_cons ?_ ?_
      | refine only_ite ?_ ?_
      | refine only_ite_snd ?_ ?_
      | refine only_ite_fst ?_ ?_
      | refine busyNow_only (hL := ?_) (ho := ?_)
      | refine sideResume_only (hL := ?_) (ho := ?_)
      | refine tcamRestore_only (hL := ?_) (ho := ?_)
      | refine traceWake_only (hL := ?_) (ho := ?_)
      | refine mirrorWake_only (hL := ?_) (ho := ?_)
    | split
    | (with_reducible refine modBpwr_only (z := [.power, .activity, .bpwr]) ?_ ?_ ?_ ?_ ?_
       · refine names_trans hL ?_
         first | decide | (refine names_of_subset ?_; simp; done)
       iterate 3 · first | with_reducible rfl | (intro _; with_reducible rfl) | exact fun h => not_free h rfl | (intro _; dsimp only; split <;> rfl) | exact rfl | exact fun _ => rfl)
    | dsimp only

theorem wickTake_only {s : State} {p : Nat} (hL : names L [.probes, .staged, .recs, .hdr 0x58, .regs 0x93, .regs 0x91, .regs 0x38, .violations, .ports, .suspects, .hdr 0x28, .hdr 0x12, .gens, .spares, .hdr 0x10, .clusters] = true) 
    (ho : s0.onlyChanges s L) : s0.onlyChanges (State.wickTake s p) L := by
  unfold State.wickTake
  try dsimp only
  repeat' first
    | with_reducible assumption
    | (refine names_trans hL ?_
       try simp only [keyTypes, Nat.reduceMod]
       decide)
    | (refine names_trans hL ?_
       try simp only [keyTypes, Nat.reduceMod]
       refine names_trans (names_of_subset ?_) names_regs_word
       simp
       done)
    | (refine names_trans hL ?_
       refine names_trans (names_of_subset ?_) names_port_word
       simp
       done)
    | with_reducible first
      | refine names_cons ?_ ?_
      | refine only_ite ?_ ?_
      | refine only_ite_snd ?_ ?_
      | refine only_ite_fst ?_ ?_
      | refine takeRecord_only (hL := ?_) (ho := ?_)
      | refine modProbe_only (hL := ?_) (ho := ?_)
      | refine setProbe_only (hL := ?_) (ho := ?_)
    | split
    | dsimp only

theorem wickCluster_only {s : State} {c : Nat} (hL : names L [.probes, .staged, .recs, .hdr 0x58, .regs 0x93, .regs 0x91, .regs 0x38, .violations, .ports, .suspects, .hdr 0x28, .hdr 0x12, .gens, .spares, .hdr 0x10, .clusters, .power, .bpwr, .cmds, .word 0x08 0x104, .word 0x08 0x100, .word 0x50 0x54, .activity] = true) 
    (ho : s0.onlyChanges s L) : s0.onlyChanges (State.wickCluster s c) L := by
  unfold State.wickCluster
  try dsimp only
  repeat' first
    | with_reducible assumption
    | (refine names_trans hL ?_
       try simp only [keyTypes, Nat.reduceMod]
       decide)
    | (refine names_trans hL ?_
       try simp only [keyTypes, Nat.reduceMod]
       refine names_trans (names_of_subset ?_) names_regs_word
       simp
       done)
    | (refine names_trans hL ?_
       refine names_trans (names_of_subset ?_) names_port_word
       simp
       done)
    | with_reducible first
      | refine names_cons ?_ ?_
      | refine only_ite ?_ ?_
      | refine only_ite_snd ?_ ?_
      | refine only_ite_fst ?_ ?_
      | refine wickTake_only (hL := ?_) (ho := ?_)
      | refine wakeSrc_only (hL := ?_) (ho := ?_)
      | refine log_only (hL := ?_) (ho := ?_)
      | refine only_foldl (fun u x hu => ?_) ?_
      | refine only_foldl_snd (fun u x hu => ?_) ?_
      | refine only_foldl_fst (fun u x hu => ?_) ?_
      | refine only_foldl_snd2 (fun u x hu => ?_) ?_
      | refine only_ite_snd2 ?_ ?_
      | refine only_foldl_snd3 (fun u x hu => ?_) ?_
    | split
    | dsimp only

theorem execIdleTimerDoze_only (s : State) : ∃ st', execIdleTimerDoze s = .next st' ∧ s.onlyChanges st' [.out, .xfers, .lines, .inj, .trace, .rings, .hdr 0x60, .regs 0x60, .ringQ, .mbox, .power, .bpwr, .staged, .latches, .token, .now] := by
  refine ⟨_, rfl, only_start fun hL h0 => ?_⟩
  refine settle_only (names_of_subset (by simp)) ?_
  repeat' first
    | with_reducible first
      | exact h0
      | assumption
    | (refine names_trans hL ?_
       try simp only [keyTypes, Nat.reduceMod]
       decide)
    | (refine names_trans hL ?_
       try simp only [keyTypes, Nat.reduceMod]
       refine names_trans (names_of_subset ?_) names_regs_word
       simp
       done)
    | with_reducible first
      | refine names_cons ?_ ?_
      | refine only_ite ?_ ?_
      | refine only_ite_snd ?_ ?_
      | refine only_ite_fst ?_ ?_
      | refine gateDomains_only (hL := ?_) (ho := ?_)
      | refine advanceTo_only (hL := ?_) (ho := ?_)
    | split
    | dsimp only

theorem execIdleTimerEmber_only (s : State) : ∃ st', execIdleTimerEmber s = .next st' ∧ s.onlyChanges st' [.out, .xfers, .lines, .inj, .trace, .rings, .hdr 0x60, .regs 0x60, .ringQ, .mbox, .power, .bpwr, .staged, .latches, .token, .now] := by
  refine ⟨_, rfl, only_start fun hL h0 => ?_⟩
  refine settle_only (names_of_subset (by simp)) ?_
  repeat' first
    | with_reducible first
      | exact h0
      | assumption
    | (refine names_trans hL ?_
       try simp only [keyTypes, Nat.reduceMod]
       decide)
    | (refine names_trans hL ?_
       try simp only [keyTypes, Nat.reduceMod]
       refine names_trans (names_of_subset ?_) names_regs_word
       simp
       done)
    | with_reducible first
      | refine names_cons ?_ ?_
      | refine only_ite ?_ ?_
      | refine only_ite_snd ?_ ?_
      | refine only_ite_fst ?_ ?_
      | refine gateDomains_only (hL := ?_) (ho := ?_)
      | refine advanceTo_only (hL := ?_) (ho := ?_)
    | split
    | dsimp only

theorem execSubsystemAnswer_only (sub : Nat) (s : State) : ∃ st', execSubsystemAnswer sub s = .next st' ∧ s.onlyChanges st' [.out, .xfers, .lines, .inj, .power, .bpwr, .cmds, .word 0x08 0x104, .word 0x08 0x100, .mbox, .trace, .rings, .hdr 0x60, .regs 0x60, .ringQ, .staged, .latches, .token] := by
  refine ⟨_, rfl, only_start fun hL h0 => ?_⟩
  refine settle_only (names_of_subset (by simp)) ?_
  repeat' first
    | with_reducible first
      | exact h0
      | assumption
    | (refine names_trans hL ?_
       try simp only [keyTypes, Nat.reduceMod]
       decide)
    | (refine names_trans hL ?_
       try simp only [keyTypes, Nat.reduceMod]
       refine names_trans (names_of_subset ?_) names_regs_word
       simp
       done)
    | with_reducible first
      | refine names_cons ?_ ?_
      | refine only_ite ?_ ?_
      | refine only_ite_snd ?_ ?_
      | refine only_ite_fst ?_ ?_
      | refine refuseEntry_only (hL := ?_) (ho := ?_)
      | refine enterNow_only (hL := ?_) (ho := ?_)
    | split
    | (with_reducible refine modBpwr_only (z := [.power, .bpwr]) ?_ ?_ ?_ ?_ ?_
       · refine names_trans hL ?_
         first | decide | (refine names_of_subset ?_; simp; done)
       iterate 3 · first | with_reducible rfl | (intro _; with_reducible rfl) | exact fun h => not_free h rfl | (intro _; dsimp only; split <;> rfl) | exact rfl | exact fun _ => rfl)
    | dsimp only

theorem execEntryTimeout_only (s : State) : ∃ st', execEntryTimeout s = .next st' ∧ s.onlyChanges st' [.out, .xfers, .lines, .inj, .now, .power, .bpwr, .cmds, .word 0x08 0x104, .word 0x08 0x100] := by
  refine ⟨_, rfl, only_start fun hL h0 => ?_⟩
  refine settle_only (names_of_subset (by simp)) ?_
  repeat' first
    | with_reducible first
      | exact h0
      | assumption
    | (refine names_trans hL ?_
       try simp only [keyTypes, Nat.reduceMod]
       decide)
    | with_reducible first
      | refine names_cons ?_ ?_
      | refine only_ite ?_ ?_
      | refine only_ite_snd ?_ ?_
      | refine only_ite_fst ?_ ?_
      | refine advanceTo_only (hL := ?_) (ho := ?_)
      | refine refuseEntry_only (hL := ?_) (ho := ?_)
    | split
    | dsimp only

theorem execWake_only (periods : Nat) (s : State) : ∃ st', execWake periods s = .next st' ∧ s.onlyChanges st' (([.out, .xfers, .lines, .inj, .power, .activity, .taint, .kernels, .staged, .recs, .violations, .ports, .suspects, .gens, .spares, .probes, .kats, .cmds, .notices, .ringQ, .mbox, .redInputs, .engines, .rings, .clusters, .bpwr, .allHdrs, .pkg, .pace, .allRegs, .snap, .host, .regions, .profiles, .heldRecs, .grid, .geyser, .redNodes, .ftab, .snaps, .rotState, .meas, .firmware, .keys, .spdm, .linkKeys, .verify, .rotOrders, .relock, .pps] : List Part) ++ ([.clock, .evts, .tports, .latches, .token, .trace, .snuff, .tap, .links, .chans, .proxies, .peers, .sinter, .watch, .jobs, .bcasts, .drift, .svcNotices, .cores, .change, .forced, .droops, .waves, .rails, .sensors, .tables, .budgets, .log, .errs, .mirror, .replicas, .plans, .now, .tick] : List Part)) := by
  refine ⟨_, rfl, only_start fun hL h0 => ?_⟩
  refine settle_only (names_of_subset (by simp)) ?_
  repeat' first
    | with_reducible first
      | exact h0
      | assumption
    | (refine names_trans hL ?_
       try simp only [keyTypes, Nat.reduceMod]
       decide)
    | (refine names_trans hL ?_
       refine names_trans (names_of_subset ?_) names_all_word
       simp
       done)
    | (refine names_trans hL ?_
       refine names_trans (names_of_subset ?_) names_all_regs
       simp
       done)
    | (refine names_trans hL ?_
       refine names_trans (names_of_subset ?_) names_all_hdr
       simp
       done)
    | with_reducible first
      | refine names_cons ?_ ?_
      | refine only_ite ?_ ?_
      | refine only_ite_snd ?_ ?_
      | refine only_ite_fst ?_ ?_
      | refine dozeExit_only (hL := ?_) (ho := ?_)
      | refine powerReset_only (hL := ?_) (ho := ?_)
      | refine timeStart_only (hL := ?_) (ho := ?_)
    | split
    | dsimp only

theorem execWakeN_only (s : State) : ∃ st', execWakeN s = .next st' ∧ s.onlyChanges st' [.out, .xfers, .lines, .inj, .power, .bpwr, .cmds, .word 0x08 0x104, .word 0x08 0x100, .word 0x50 0x54, .activity] := by
  refine ⟨_, rfl, only_start fun hL h0 => ?_⟩
  refine settle_only (names_of_subset (by simp)) ?_
  repeat' first
    | with_reducible first
      | exact h0
      | assumption
    | (refine names_trans hL ?_
       try simp only [keyTypes, Nat.reduceMod]
       decide)
    | with_reducible first
      | refine names_cons ?_ ?_
      | refine only_ite ?_ ?_
      | refine only_ite_snd ?_ ?_
      | refine only_ite_fst ?_ ?_
      | refine wakeSrc_only (hL := ?_) (ho := ?_)
    | split
    | dsimp only

theorem execWakeLead_only (s : State) : ∃ st', execWakeLead s = .next st' ∧ s.onlyChanges st' [.out, .xfers, .lines, .inj, .power, .bpwr, .cmds, .word 0x08 0x104, .word 0x08 0x100, .word 0x50 0x54, .activity, .now] := by
  refine ⟨_, rfl, only_start fun hL h0 => ?_⟩
  refine settle_only (names_of_subset (by simp)) ?_
  repeat' first
    | with_reducible first
      | exact h0
      | assumption
    | (refine names_trans hL ?_
       try simp only [keyTypes, Nat.reduceMod]
       decide)
    | with_reducible first
      | refine names_cons ?_ ?_
      | refine only_ite ?_ ?_
      | refine only_ite_snd ?_ ?_
      | refine only_ite_fst ?_ ?_
      | refine wakeSrc_only (hL := ?_) (ho := ?_)
      | refine advanceTo_only (hL := ?_) (ho := ?_)
    | split
    | dsimp only

theorem execEmberWakeTimer_only (s : State) : ∃ st', execEmberWakeTimer s = .next st' ∧ s.onlyChanges st' [.out, .xfers, .lines, .inj, .power, .bpwr, .cmds, .word 0x08 0x104, .word 0x08 0x100, .word 0x50 0x54, .activity] := by
  refine ⟨_, rfl, only_start fun hL h0 => ?_⟩
  refine settle_only (names_of_subset (by simp)) ?_
  repeat' first
    | with_reducible first
      | exact h0
      | assumption
    | (refine names_trans hL ?_
       try simp only [keyTypes, Nat.reduceMod]
       decide)
    | with_reducible first
      | refine names_cons ?_ ?_
      | refine only_ite ?_ ?_
      | refine only_ite_snd ?_ ?_
      | refine only_ite_fst ?_ ?_
      | refine wakeSrc_only (hL := ?_) (ho := ?_)
    | split
    | dsimp only

theorem execRefclkLoss_only (s : State) : ∃ st', execRefclkLoss s = .next st' ∧ s.onlyChanges st' [.out, .xfers, .lines, .inj, .bpwr, .word 0x50 0x60, .word 0x50 0x5C, .allHdrs, .clock] := by
  refine ⟨_, rfl, only_start fun hL h0 => ?_⟩
  refine settle_only (names_of_subset (by simp)) ?_
  repeat' first
    | with_reducible first
      | exact h0
      | assumption
    | (refine names_trans hL ?_
       try simp only [keyTypes, Nat.reduceMod]
       decide)
    | (refine names_trans hL ?_
       refine names_trans (names_of_subset ?_) names_all_hdr
       simp
       done)
    | with_reducible first
      | refine names_cons ?_ ?_
      | refine only_ite ?_ ?_
      | refine only_ite_snd ?_ ?_
      | refine only_ite_fst ?_ ?_
      | refine setReg_only (hL := ?_) (h := ?_)
      | refine loseBits_only (hL := ?_) (ho := ?_)
      | refine setErr_only (hL := ?_) (ho := ?_)
      | refine timeStart_only (hL := ?_) (ho := ?_)
    | split
    | (with_reducible refine modBpwr_only (z := [.bpwr]) ?_ ?_ ?_ ?_ ?_
       · refine names_trans hL ?_
         first | decide | (refine names_of_subset ?_; simp; done)
       iterate 3 · first | with_reducible rfl | (intro _; with_reducible rfl) | exact fun h => not_free h rfl | (intro _; dsimp only; split <;> rfl) | exact rfl | exact fun _ => rfl)
    | dsimp only

theorem execRefclkReturn_only (s : State) : ∃ st', execRefclkReturn s = .next st' ∧ s.onlyChanges st' [.out, .xfers, .lines, .inj, .bpwr, .allHdrs, .clock, .grid, .relock, .pps, .evts, .tports, .now, .tick] := by
  refine ⟨_, rfl, only_start fun hL h0 => ?_⟩
  refine settle_only (names_of_subset (by simp)) ?_
  repeat' first
    | with_reducible first
      | exact h0
      | assumption
    | (refine names_trans hL ?_
       try simp only [keyTypes, Nat.reduceMod]
       decide)
    | (refine names_trans hL ?_
       refine names_trans (names_of_subset ?_) names_all_hdr
       simp
       done)
    | with_reducible first
      | refine names_cons ?_ ?_
      | refine only_ite ?_ ?_
      | refine only_ite_snd ?_ ?_
      | refine only_ite_fst ?_ ?_
      | refine timeStart_only (hL := ?_) (ho := ?_)
      | refine gridFrom_only (hL := ?_) (ho := ?_)
    | split
    | (with_reducible refine modBpwr_only (z := [.bpwr]) ?_ ?_ ?_ ?_ ?_
       · refine names_trans hL ?_
         first | decide | (refine names_of_subset ?_; simp; done)
       iterate 3 · first | with_reducible rfl | (intro _; with_reducible rfl) | exact fun h => not_free h rfl | (intro _; dsimp only; split <;> rfl) | exact rfl | exact fun _ => rfl)
    | (with_reducible refine only_time (z := [.clock, .relock, .pps, .evts, .tports]) ?_ ?_ ?_ ?_ ?_ ?_ ?_
       · refine names_trans hL ?_
         first | decide | (refine names_of_subset ?_; simp; done)
       iterate 5 · first | with_reducible rfl | (intro _; with_reducible rfl) | exact fun h => not_free h rfl | (intro _; dsimp only; split <;> rfl) | exact rfl | exact fun _ => rfl)
    | (with_reducible refine only_now (z := [.now]) ?_ ?_ ?_
       · refine names_trans hL ?_
         first | decide | (refine names_of_subset ?_; simp; done)
       iterate 1 · first | with_reducible rfl | (intro _; with_reducible rfl) | exact fun h => not_free h rfl | (intro _; dsimp only; split <;> rfl) | exact rfl | exact fun _ => rfl)
    | (with_reducible refine only_tick (z := [.tick]) ?_ ?_ ?_
       · refine names_trans hL ?_
         first | decide | (refine names_of_subset ?_; simp; done)
       iterate 1 · first | with_reducible rfl | (intro _; with_reducible rfl) | exact fun h => not_free h rfl | (intro _; dsimp only; split <;> rfl) | exact rfl | exact fun _ => rfl)
    | (with_reducible refine only_mk (z := [.out, .xfers, .lines, .inj, .bpwr, .allHdrs, .clock, .grid, .relock, .pps, .evts, .tports, .now, .tick]) hL ?_ ?_
       · intro p hp
         cases p <;> first | (dsimp only [Part.same]; done) | (dsimp only [Part.same, State.reg, State.hdr]; intro _ _; with_reducible rfl) | exact not_free (free_of_outside hp) (by decide) | exact not_free (free_of_outside hp) rfl | exact trivial | (dsimp only [Part.same]; split <;> rfl))
    | dsimp only

theorem execWickCycle_only (running : Bool) (s : State) : ∃ st', execWickCycle running s = .next st' ∧ s.onlyChanges st' [.out, .xfers, .lines, .inj, .bpwr, .probes, .staged, .recs, .hdr 0x58, .regs 0x93, .regs 0x91, .regs 0x38, .violations, .ports, .suspects, .hdr 0x28, .hdr 0x12, .gens, .spares, .hdr 0x10, .clusters, .power, .cmds, .word 0x08 0x104, .word 0x08 0x100, .word 0x50 0x54, .activity] := by
  refine ⟨_, rfl, only_start fun hL h0 => ?_⟩
  refine settle_only (names_of_subset (by simp)) ?_
  repeat' first
    | with_reducible first
      | exact h0
      | assumption
    | (refine names_trans hL ?_
       try simp only [keyTypes, Nat.reduceMod]
       decide)
    | (refine names_trans hL ?_
       try simp only [keyTypes, Nat.reduceMod]
       refine names_trans (names_of_subset ?_) names_regs_word
       simp
       done)
    | (refine names_trans hL ?_
       refine names_trans (names_of_subset ?_) names_port_word
       simp
       done)
    | with_reducible first
      | refine names_cons ?_ ?_
      | refine only_ite ?_ ?_
      | refine only_ite_snd ?_ ?_
      | refine only_ite_fst ?_ ?_
      | refine wickCluster_only (hL := ?_) (ho := ?_)
      | refine only_foldl (fun u x hu => ?_) ?_
      | refine only_foldl_snd (fun u x hu => ?_) ?_
      | refine only_foldl_fst (fun u x hu => ?_) ?_
      | refine only_foldl_snd2 (fun u x hu => ?_) ?_
      | refine only_ite_snd2 ?_ ?_
    | split
    | (with_reducible refine modBpwr_only (z := [.bpwr, .power, .activity]) ?_ ?_ ?_ ?_ ?_
       · refine names_trans hL ?_
         first | decide | (refine names_of_subset ?_; simp; done)
       iterate 3 · first | with_reducible rfl | (intro _; with_reducible rfl) | exact fun h => not_free h rfl | (intro _; dsimp only; split <;> rfl) | exact rfl | exact fun _ => rfl)
    | dsimp only

/-! RegWrite -/

theorem readReg_only {s : State} {key off : Nat} (hL : names L [.hdr (keyType key), .redNodes] = true) 
    (ho : s0.onlyChanges s L) : s0.onlyChanges (State.readReg s key off).2 L := by
  unfold State.readReg
  try dsimp only
  repeat' first
    | with_reducible assumption
    | (refine names_trans hL ?_
       try simp only [keyTypes, Nat.reduceMod]
       refine names_of_subset ?_
       simp
       done)
    | with_reducible first
      | refine names_cons ?_ ?_
      | refine only_ite ?_ ?_
      | refine only_ite_snd ?_ ?_
      | refine only_ite_fst ?_ ?_
      | refine modHdr_only (hL := ?_) (h := ?_)
      | refine redCapture_only (hL := ?_) (ho := ?_)
    | split
    | dsimp only

theorem writeHead_only {s : State} {key off : Nat} {w : Word} (hL : names L [.hdr (keyType key)] = true) 
    (ho : s0.onlyChanges s L) : s0.onlyChanges (State.writeHead s key off w) L := by
  unfold State.writeHead
  try dsimp only
  repeat' first
    | with_reducible assumption
    | (refine names_trans hL ?_
       try simp only [keyTypes, Nat.reduceMod]
       refine names_of_subset ?_
       simp
       done)
    | with_reducible first
      | refine names_cons ?_ ?_
      | refine only_ite ?_ ?_
      | refine only_ite_snd ?_ ?_
      | refine only_ite_fst ?_ ?_
      | refine modHdr_only (hL := ?_) (h := ?_)
      | refine setErr_only (hL := ?_) (ho := ?_)
    | split
    | dsimp only

theorem aonWrite_only {s : State} {key off : Nat} {w : Word} (hL : names L [.hdr (keyType key)] = true) 
    (ho : s0.onlyChanges s L) : s0.onlyChanges (State.aonWrite s key off w) L := by
  unfold State.aonWrite
  try dsimp only
  repeat' first
    | with_reducible assumption
    | (refine names_trans hL ?_
       try simp only [keyTypes, Nat.reduceMod]
       refine names_of_subset ?_
       simp
       done)
    | with_reducible first
      | refine names_cons ?_ ?_
      | refine only_ite ?_ ?_
      | refine only_ite_snd ?_ ?_
      | refine only_ite_fst ?_ ?_
      | refine modHdr_only (hL := ?_) (h := ?_)
    | split
    | dsimp only

theorem storeWord_only {s : State} {key off : Nat} {w : Word} (hL : names L [.word (keyType key) off] = true) 
    (ho : s0.onlyChanges s L) : s0.onlyChanges (State.storeWord s key off w) L := by
  unfold State.storeWord
  try dsimp only
  repeat' first
    | with_reducible assumption
    | (refine names_trans hL ?_
       try simp only [keyTypes, Nat.reduceMod]
       refine names_of_subset ?_
       simp
       done)
    | with_reducible first
      | refine names_cons ?_ ?_
      | refine only_ite ?_ ?_
      | refine only_ite_snd ?_ ?_
      | refine only_ite_fst ?_ ?_
      | refine setReg_only (hL := ?_) (h := ?_)
    | split
    | dsimp only

theorem traceArm_only {s : State} (hL : names L [.trace] = true) 
    (ho : s0.onlyChanges s L) : s0.onlyChanges (State.traceArm s) L := by
  unfold State.traceArm
  try dsimp only
  repeat' first
    | with_reducible assumption
    | (refine names_trans hL ?_
       try simp only [keyTypes, Nat.reduceMod]
       decide)
    | with_reducible first
      | refine names_cons ?_ ?_
      | refine only_ite ?_ ?_
      | refine only_ite_snd ?_ ?_
      | refine only_ite_fst ?_ ?_
    | split
    | (with_reducible refine modTrace_only (z := [.trace]) ?_ ?_ ?_ ?_ ?_ ?_ ?_
       · refine names_trans hL ?_
         first | decide | (refine names_of_subset ?_; simp; done)
       iterate 5 · first | with_reducible rfl | (intro _; with_reducible rfl) | exact fun h => not_free h rfl | (intro _; dsimp only; split <;> rfl) | exact rfl | exact fun _ => rfl)
    | dsimp only

theorem writeWide_only {s : State} {key base : Nat} {ws : List Word} (hL : names L [.regs (keyType key), .hdr (keyType key), .tables, .trace] = true) 
    (ho : s0.onlyChanges s L) : s0.onlyChanges (State.writeWide s key base ws) L := by
  unfold State.writeWide
  try dsimp only
  repeat' first
    | with_reducible assumption
    | (refine names_trans hL ?_
       try simp only [keyTypes, Nat.reduceMod]
       refine names_of_subset ?_
       simp
       done)
    | (refine names_trans hL ?_
       try simp only [keyTypes, Nat.reduceMod]
       refine names_trans (names_of_subset ?_) names_regs_word
       simp
       done)
    | with_reducible first
      | refine names_cons ?_ ?_
      | refine only_ite ?_ ?_
      | refine only_ite_snd ?_ ?_
      | refine only_ite_fst ?_ ?_
      | refine storeWord_only (hL := ?_) (ho := ?_)
      | refine setErr_only (hL := ?_) (ho := ?_)
      | refine traceArm_only (hL := ?_) (ho := ?_)
      | refine only_foldl (fun u x hu => ?_) ?_
      | refine only_foldl_snd (fun u x hu => ?_) ?_
      | refine only_foldl_fst (fun u x hu => ?_) ?_
    | split
    | (with_reducible refine modHp_only (z := [.tables]) ?_ ?_ ?_ ?_ ?_ ?_ ?_ ?_ ?_ ?_ ?_
       · refine names_trans hL ?_
         first | decide | (refine names_of_subset ?_; simp; done)
       iterate 9 · first | with_reducible rfl | (intro _; with_reducible rfl) | exact fun h => not_free h rfl | (intro _; dsimp only; split <;> rfl) | exact rfl | exact fun _ => rfl)
    | dsimp only

theorem wideWrite_only {s : State} {key base words i : Nat} {w : Word} (hL : names L [.hdr (keyType key), .regs (keyType key), .tables, .trace] = true) 
    (ho : s0.onlyChanges s L) : s0.onlyChanges (State.wideWrite s key base words i w) L := by
  unfold State.wideWrite
  try dsimp only
  repeat' first
    | with_reducible assumption
    | (refine names_trans hL ?_
       try simp only [keyTypes, Nat.reduceMod]
       refine names_of_subset ?_
       simp
       done)
    | (refine names_trans hL ?_
       try simp only [keyTypes, Nat.reduceMod]
       refine names_trans (names_of_subset ?_) names_regs_word
       simp
       done)
    | with_reducible first
      | refine names_cons ?_ ?_
      | refine only_ite ?_ ?_
      | refine only_ite_snd ?_ ?_
      | refine only_ite_fst ?_ ?_
      | refine modHdr_only (hL := ?_) (h := ?_)
      | refine writeWide_only (hL := ?_) (ho := ?_)
    | split
    | dsimp only

theorem rptrWrite_only {s : State} {r : RingRegs} {w : Word} (hL : names L [.allRegs, .hdr 0x60, .inj, .trace, .rings, .ringQ, .out, .xfers, .mbox, .geyser] = true) 
    (ho : s0.onlyChanges s L) : s0.onlyChanges (State.rptrWrite s r w) L := by
  unfold State.rptrWrite
  try dsimp only
  repeat' first
    | with_reducible assumption
    | (refine names_trans hL ?_
       try simp only [keyTypes, Nat.reduceMod]
       decide)
    | (refine names_trans hL ?_
       refine names_trans (names_of_subset ?_) names_all_word
       simp
       done)
    | (refine names_trans hL ?_
       refine names_trans (names_of_subset ?_) names_all_regs
       simp
       done)
    | with_reducible first
      | refine names_cons ?_ ?_
      | refine only_ite ?_ ?_
      | refine only_ite_snd ?_ ?_
      | refine only_ite_fst ?_ ?_
      | refine ringSetRptr_only (hL := ?_) (ho := ?_)
      | refine ringRetry_only (hL := ?_) (ho := ?_)
      | refine gyRoom_only (hL := ?_) (ho := ?_)
    | split
    | dsimp only

theorem paceSync_only {s : State} {w : Word} (hL : names L [.word 0x02 0x5C, .word 0x02 0x40] = true) 
    (ho : s0.onlyChanges s L) : s0.onlyChanges (State.paceSync s w) L := by
  unfold State.paceSync
  try dsimp only
  repeat' first
    | with_reducible assumption
    | (refine names_trans hL ?_
       try simp only [keyTypes, Nat.reduceMod]
       decide)
    | with_reducible first
      | refine names_cons ?_ ?_
      | refine only_ite ?_ ?_
      | refine only_ite_snd ?_ ?_
      | refine only_ite_fst ?_ ?_
      | refine setReg_only (hL := ?_) (h := ?_)
      | refine setRegFld_only (hL := ?_) (ho := ?_)
      | refine only_foldl (fun u x hu => ?_) ?_
      | refine only_foldl_snd (fun u x hu => ?_) ?_
      | refine only_foldl_fst (fun u x hu => ?_) ?_
    | split
    | dsimp only

theorem hstoWrite_only {s : State} {w : Word} (hL : names L [.word 0x02 0x44, .word 0x02 0x5C] = true) 
    (ho : s0.onlyChanges s L) : s0.onlyChanges (State.hstoWrite s w) L := by
  unfold State.hstoWrite
  try dsimp only
  repeat' first
    | with_reducible assumption
    | (refine names_trans hL ?_
       try simp only [keyTypes, Nat.reduceMod]
       decide)
    | with_reducible first
      | refine names_cons ?_ ?_
      | refine only_ite ?_ ?_
      | refine only_ite_snd ?_ ?_
      | refine only_ite_fst ?_ ?_
      | refine storeWord_only (hL := ?_) (ho := ?_)
      | refine setReg_only (hL := ?_) (h := ?_)
    | split
    | dsimp only

theorem sampCfgWrite_only {s : State} {w : Word} (hL : names L [.word 0x10 0x44, .grid] = true) 
    (ho : s0.onlyChanges s L) : s0.onlyChanges (State.sampCfgWrite s w) L := by
  unfold State.sampCfgWrite
  try dsimp only
  repeat' first
    | with_reducible assumption
    | (refine names_trans hL ?_
       try simp only [keyTypes, Nat.reduceMod]
       decide)
    | with_reducible first
      | refine names_cons ?_ ?_
      | refine only_ite ?_ ?_
      | refine only_ite_snd ?_ ?_
      | refine only_ite_fst ?_ ?_
      | refine storeWord_only (hL := ?_) (ho := ?_)
      | refine gridFrom_only (hL := ?_) (ho := ?_)
    | split
    | dsimp only

theorem regDataWrite_only {s : State} {w : Word} (hL : names L [.gens, .meas, .kernels] = true) 
    (ho : s0.onlyChanges s L) : s0.onlyChanges (State.regDataWrite s w) L := by
  unfold State.regDataWrite
  try dsimp only
  repeat' first
    | with_reducible assumption
    | (refine names_trans hL ?_
       try simp only [keyTypes, Nat.reduceMod]
       decide)
    | with_reducible first
      | refine names_cons ?_ ?_
      | refine only_ite ?_ ?_
      | refine only_ite_snd ?_ ?_
      | refine only_ite_fst ?_ ?_
      | refine kernelChanged_only (hL := ?_) (ho := ?_)
    | split
    | (with_reducible refine modCheck_only (z := [.kernels]) ?_ ?_ ?_ ?_ ?_ ?_ ?_ ?_ ?_
       · refine names_trans hL ?_
         first | decide | (refine names_of_subset ?_; simp; done)
       iterate 7 · first | with_reducible rfl | (intro _; with_reducible rfl) | exact fun h => not_free h rfl | (intro _; dsimp only; split <;> rfl) | exact rfl | exact fun _ => rfl)
    | dsimp only

theorem refclkWrite_only {s : State} {w : Word} (hL : names L [.allHdrs, .clock, .word 0x30 0xCC] = true) 
    (ho : s0.onlyChanges s L) : s0.onlyChanges (State.refclkWrite s w) L := by
  unfold State.refclkWrite
  try dsimp only
  repeat' first
    | with_reducible assumption
    | (refine names_trans hL ?_
       try simp only [keyTypes, Nat.reduceMod]
       decide)
    | (refine names_trans hL ?_
       refine names_trans (names_of_subset ?_) names_all_hdr
       simp
       done)
    | with_reducible first
      | refine names_cons ?_ ?_
      | refine only_ite ?_ ?_
      | refine only_ite_snd ?_ ?_
      | refine only_ite_fst ?_ ?_
      | refine setErr_only (hL := ?_) (ho := ?_)
      | refine timeStart_only (hL := ?_) (ho := ?_)
      | refine storeWord_only (hL := ?_) (ho := ?_)
    | split
    | dsimp only

theorem gdataWrite_only {s : State} {key : Nat} {w : Word} (hL : names L [.ports] = true) 
    (ho : s0.onlyChanges s L) : s0.onlyChanges (State.gdataWrite s key w) L := by
  unfold State.gdataWrite
  try dsimp only
  repeat' first
    | with_reducible assumption
    | (refine names_trans hL ?_
       try simp only [keyTypes, Nat.reduceMod]
       decide)
    | with_reducible first
      | refine names_cons ?_ ?_
      | refine only_ite ?_ ?_
      | refine only_ite_snd ?_ ?_
      | refine only_ite_fst ?_ ?_
      | refine modPort_only (hL := ?_) (ho := ?_)
    | split
    | dsimp only

theorem peerWrite_only {s : State} {off : Nat} {w : Word} (hL : names L [.peers] = true) 
    (ho : s0.onlyChanges s L) : s0.onlyChanges (State.peerWrite s off w) L := by
  unfold State.peerWrite
  try dsimp only
  repeat' first
    | with_reducible assumption
    | (refine names_trans hL ?_
       try simp only [keyTypes, Nat.reduceMod]
       decide)
    | with_reducible first
      | refine names_cons ?_ ?_
      | refine only_ite ?_ ?_
      | refine only_ite_snd ?_ ?_
      | refine only_ite_fst ?_ ?_
    | split
    | (with_reducible refine only_links (z := [.peers]) ?_ ?_ ?_ ?_ ?_ ?_ ?_
       · refine names_trans hL ?_
         first | decide | (refine names_of_subset ?_; simp; done)
       iterate 5 · first | with_reducible rfl | (intro _; with_reducible rfl) | exact fun h => not_free h rfl | (intro _; dsimp only; split <;> rfl) | exact rfl | exact fun _ => rfl)
    | dsimp only

theorem jobWrite_only {s : State} {k : Nat} {w : Word} (hL : names L [.jobs] = true) 
    (ho : s0.onlyChanges s L) : s0.onlyChanges (State.jobWrite s k w) L := by
  unfold State.jobWrite
  try dsimp only
  repeat' first
    | with_reducible assumption
    | (refine names_trans hL ?_
       try simp only [keyTypes, Nat.reduceMod]
       decide)
    | with_reducible first
      | refine names_cons ?_ ?_
      | refine only_ite ?_ ?_
      | refine only_ite_snd ?_ ?_
      | refine only_ite_fst ?_ ?_
    | split
    | (with_reducible refine modSvc_only (z := [.jobs]) ?_ ?_ ?_ ?_ ?_ ?_ ?_
       · refine names_trans hL ?_
         first | decide | (refine names_of_subset ?_; simp; done)
       iterate 5 · first | with_reducible rfl | (intro _; with_reducible rfl) | exact fun h => not_free h rfl | (intro _; dsimp only; split <;> rfl) | exact rfl | exact fun _ => rfl)
    | dsimp only

theorem svcWrite_only {s : State} {off : Nat} {w : Word} (hL : names L [.drift, .jobs, .word 0x40 off] = true) 
    (ho : s0.onlyChanges s L) : s0.onlyChanges (State.svcWrite s off w) L := by
  unfold State.svcWrite
  try dsimp only
  repeat' first
    | with_reducible assumption
    | (refine names_trans hL ?_
       try simp only [keyTypes, Nat.reduceMod]
       refine names_of_subset ?_
       simp
       done)
    | with_reducible first
      | refine names_cons ?_ ?_
      | refine only_ite ?_ ?_
      | refine only_ite_snd ?_ ?_
      | refine only_ite_fst ?_ ?_
      | refine jobWrite_only (hL := ?_) (ho := ?_)
      | refine storeWord_only (hL := ?_) (ho := ?_)
    | split
    | (with_reducible refine modSvc_only (z := [.drift, .jobs]) ?_ ?_ ?_ ?_ ?_ ?_ ?_
       · refine names_trans hL ?_
         first | decide | (refine names_of_subset ?_; simp; done)
       iterate 5 · first | with_reducible rfl | (intro _; with_reducible rfl) | exact fun h => not_free h rfl | (intro _; dsimp only; split <;> rfl) | exact rfl | exact fun _ => rfl)
    | dsimp only

theorem hpwrWrite_only {s : State} {off : Nat} {w : Word} (hL : names L [.word 0x48 0x74, .hdr 0x48, .cores, .rails, .tables, .word 0x48 off] = true) 
    (ho : s0.onlyChanges s L) : s0.onlyChanges (State.hpwrWrite s off w) L := by
  unfold State.hpwrWrite
  try dsimp only
  repeat' first
    | with_reducible assumption
    | (refine names_trans hL ?_
       try simp only [keyTypes, Nat.reduceMod]
       refine names_of_subset ?_
       simp
       done)
    | with_reducible first
      | refine names_cons ?_ ?_
      | refine only_ite ?_ ?_
      | refine only_ite_snd ?_ ?_
      | refine only_ite_fst ?_ ?_
      | refine storeWord_only (hL := ?_) (ho := ?_)
      | refine setErr_only (hL := ?_) (ho := ?_)
      | refine modCore_only (hL := ?_) (ho := ?_)
      | refine modRail_only (hL := ?_) (ho := ?_)
    | split
    | (with_reducible refine modHp_only (z := [.cores, .rails, .tables]) ?_ ?_ ?_ ?_ ?_ ?_ ?_ ?_ ?_ ?_ ?_
       · refine names_trans hL ?_
         first | decide | (refine names_of_subset ?_; simp; done)
       iterate 9 · first | with_reducible rfl | (intro _; with_reducible rfl) | exact fun h => not_free h rfl | (intro _; dsimp only; split <;> rfl) | exact rfl | exact fun _ => rfl)
    | dsimp only

theorem rcfgWrite_only {s : State} {r off : Nat} {w : Word} (hL : names L [.word 0x60 off, .rings, .ringQ, .out, .xfers, .mbox] = true) 
    (ho : s0.onlyChanges s L) : s0.onlyChanges (State.rcfgWrite s r off w) L := by
  unfold State.rcfgWrite
  try dsimp only
  repeat' first
    | with_reducible assumption
    | (refine names_trans hL ?_
       try simp only [keyTypes, Nat.reduceMod]
       refine names_of_subset ?_
       simp
       done)
    | with_reducible first
      | refine names_cons ?_ ?_
      | refine only_ite ?_ ?_
      | refine only_ite_snd ?_ ?_
      | refine only_ite_fst ?_ ?_
      | refine storeWord_only (hL := ?_) (ho := ?_)
      | refine ringSync_only (hL := ?_) (ho := ?_)
    | split
    | dsimp only

theorem writeWord_only {s : State} {key off : Nat} {w : Word} (hL : names L [.redNodes, .allRegs, .inj, .trace, .rings, .ringQ, .out, .xfers, .mbox, .geyser, .grid, .ftab, .meas, .cmds, .gens, .kernels, .allHdrs, .clock, .ports, .peers, .drift, .jobs, .cores, .rails, .tables, .log, .staged, .recs, .rotOrders] = true) 
    (ho : s0.onlyChanges s L) : s0.onlyChanges (State.writeWord s key off w) L := by
  unfold State.writeWord
  try dsimp only
  repeat' first
    | with_reducible assumption
    | (refine names_trans hL ?_
       try simp only [keyTypes, Nat.reduceMod]
       decide)
    | (refine names_trans hL ?_
       refine names_trans (names_of_subset ?_) names_all_word
       simp
       done)
    | (refine names_trans hL ?_
       refine names_trans (names_of_subset ?_) names_all_regs
       simp
       done)
    | (refine names_trans hL ?_
       refine names_trans (names_of_subset ?_) names_all_hdr
       simp
       done)
    | with_reducible first
      | refine names_cons ?_ ?_
      | refine only_ite ?_ ?_
      | refine only_ite_snd ?_ ?_
      | refine only_ite_fst ?_ ?_
      | refine redQuantile_only (hL := ?_) (ho := ?_)
      | refine storeWord_only (hL := ?_) (ho := ?_)
      | refine ringSetRptr_only (hL := ?_) (ho := ?_)
      | refine ringSetSize_only (hL := ?_) (ho := ?_)
      | refine rptrWrite_only (hL := ?_) (ho := ?_)
      | refine paceSync_only (hL := ?_) (ho := ?_)
      | refine hstoWrite_only (hL := ?_) (ho := ?_)
      | refine sampCfgWrite_only (hL := ?_) (ho := ?_)
      | refine ftabWrite_only (hL := ?_) (ho := ?_)
      | refine kernelWrite_only (hL := ?_) (ho := ?_)
      | refine regDataWrite_only (hL := ?_) (ho := ?_)
      | refine refclkWrite_only (hL := ?_) (ho := ?_)
      | refine gdataWrite_only (hL := ?_) (ho := ?_)
      | refine peerWrite_only (hL := ?_) (ho := ?_)
      | refine svcWrite_only (hL := ?_) (ho := ?_)
      | refine hpwrWrite_only (hL := ?_) (ho := ?_)
      | refine logCapture_only (hL := ?_) (ho := ?_)
      | refine traceArm_only (hL := ?_) (ho := ?_)
      | refine rcfgWrite_only (hL := ?_) (ho := ?_)
      | refine rotOrder_only (hL := ?_) (ho := ?_)
    | split
    | dsimp only

theorem writeReg_only {s : State} {key off : Nat} {w : Word} (hL : names L [.gens, .tables, .trace, .redNodes, .allRegs, .inj, .rings, .ringQ, .out, .xfers, .mbox, .geyser, .grid, .ftab, .meas, .cmds, .kernels, .allHdrs, .clock, .ports, .peers, .drift, .jobs, .cores, .rails, .log, .staged, .recs, .rotOrders] = true) 
    (ho : s0.onlyChanges s L) : s0.onlyChanges (State.writeReg s key off w).2 L := by
  unfold State.writeReg
  try dsimp only
  repeat' first
    | with_reducible assumption
    | (refine names_trans hL ?_
       try simp only [keyTypes, Nat.reduceMod]
       decide)
    | (refine names_trans hL ?_
       refine names_trans (names_of_subset ?_) names_all_word
       simp
       done)
    | (refine names_trans hL ?_
       refine names_trans (names_of_subset ?_) names_all_regs
       simp
       done)
    | (refine names_trans hL ?_
       refine names_trans (names_of_subset ?_) names_all_hdr
       simp
       done)
    | with_reducible first
      | refine names_cons ?_ ?_
      | refine only_ite ?_ ?_
      | refine only_ite_snd ?_ ?_
      | refine only_ite_fst ?_ ?_
      | refine touchItem_only (hL := ?_) (ho := ?_)
      | refine aonWrite_only (hL := ?_) (ho := ?_)
      | refine wideWrite_only (hL := ?_) (ho := ?_)
      | refine writeWord_only (hL := ?_) (ho := ?_)
    | split
    | dsimp only

theorem putReg_only {s : State} {key off : Nat} {w : Word} (hL : names L [.gens, .tables, .trace, .redNodes, .allRegs, .inj, .rings, .ringQ, .out, .xfers, .mbox, .geyser, .grid, .ftab, .meas, .cmds, .kernels, .allHdrs, .clock, .ports, .peers, .drift, .jobs, .cores, .rails, .log, .staged, .recs, .rotOrders] = true) 
    (ho : s0.onlyChanges s L) : s0.onlyChanges (State.putReg s key off w) L := by
  unfold State.putReg
  try dsimp only
  repeat' first
    | with_reducible assumption
    | (refine names_trans hL ?_
       try simp only [keyTypes, Nat.reduceMod]
       decide)
    | (refine names_trans hL ?_
       refine names_trans (names_of_subset ?_) names_all_word
       simp
       done)
    | (refine names_trans hL ?_
       refine names_trans (names_of_subset ?_) names_all_regs
       simp
       done)
    | (refine names_trans hL ?_
       refine names_trans (names_of_subset ?_) names_all_hdr
       simp
       done)
    | with_reducible first
      | refine names_cons ?_ ?_
      | refine only_ite ?_ ?_
      | refine only_ite_snd ?_ ?_
      | refine only_ite_fst ?_ ?_
      | refine writeReg_only (hL := ?_) (ho := ?_)
    | split
    | dsimp only

theorem aonCopyPage_only {s : State} {key : Nat} (hL : names L [.hdr (keyType key), .regs (keyType key)] = true) 
    (ho : s0.onlyChanges s L) : s0.onlyChanges (State.aonCopyPage s key) L := by
  unfold State.aonCopyPage
  try dsimp only
  repeat' first
    | with_reducible assumption
    | (refine names_trans hL ?_
       try simp only [keyTypes, Nat.reduceMod]
       refine names_of_subset ?_
       simp
       done)
    | (refine names_trans hL ?_
       try simp only [keyTypes, Nat.reduceMod]
       refine names_trans (names_of_subset ?_) names_regs_word
       simp
       done)
    | with_reducible first
      | refine names_cons ?_ ?_
      | refine only_ite ?_ ?_
      | refine only_ite_snd ?_ ?_
      | refine only_ite_fst ?_ ?_
      | refine modHdr_only (hL := ?_) (h := ?_)
      | refine storeWord_only (hL := ?_) (ho := ?_)
      | refine only_foldl (fun u x hu => ?_) ?_
      | refine only_foldl_snd (fun u x hu => ?_) ?_
      | refine only_foldl_fst (fun u x hu => ?_) ?_
    | split
    | dsimp only

theorem aonCopy_only {s : State} (hL : names L [.allHdrs, .allRegs] = true) 
    (ho : s0.onlyChanges s L) : s0.onlyChanges (State.aonCopy s) L := by
  unfold State.aonCopy
  try dsimp only
  repeat' first
    | with_reducible assumption
    | (refine names_trans hL ?_
       try simp only [keyTypes, Nat.reduceMod]
       decide)
    | (refine names_trans hL ?_
       refine names_trans (names_of_subset ?_) names_all_word
       simp
       done)
    | (refine names_trans hL ?_
       refine names_trans (names_of_subset ?_) names_all_regs
       simp
       done)
    | (refine names_trans hL ?_
       refine names_trans (names_of_subset ?_) names_all_hdr
       simp
       done)
    | with_reducible first
      | refine names_cons ?_ ?_
      | refine only_ite ?_ ?_
      | refine only_ite_snd ?_ ?_
      | refine only_ite_fst ?_ ?_
      | refine aonCopyPage_only (hL := ?_) (ho := ?_)
      | refine only_foldl (fun u x hu => ?_) ?_
      | refine only_foldl_snd (fun u x hu => ?_) ?_
      | refine only_foldl_fst (fun u x hu => ?_) ?_
    | split
    | dsimp only

/-! Ckpt -/

theorem packImage_only {s : State} {img : List Byte} (hL : names L [.regs 0x39, .hdr 0x39, .inj] = true) 
    (ho : s0.onlyChanges s L) : s0.onlyChanges (State.packImage s img).2 L := by
  unfold State.packImage
  try dsimp only
  repeat' first
    | with_reducible assumption
    | (refine names_trans hL ?_
       try simp only [keyTypes, Nat.reduceMod]
       decide)
    | (refine names_trans hL ?_
       try simp only [keyTypes, Nat.reduceMod]
       refine names_trans (names_of_subset ?_) names_regs_word
       simp
       done)
    | with_reducible first
      | refine names_cons ?_ ?_
      | refine only_ite ?_ ?_
      | refine only_ite_snd ?_ ?_
      | refine only_ite_fst ?_ ?_
      | refine szWrote_only (hL := ?_) (ho := ?_)
      | refine only_foldl (fun u x hu => ?_) ?_
      | refine only_foldl_snd (fun u x hu => ?_) ?_
      | refine only_foldl_fst (fun u x hu => ?_) ?_
      | refine only_foldl_snd2 (fun u x hu => ?_) ?_
      | refine only_ite_snd2 ?_ ?_
    | split
    | dsimp only

theorem ckptStreams_only {s : State} {imgs : List CkptImage} (hL : names L [.regs 0x39, .hdr 0x39, .inj] = true) 
    (ho : s0.onlyChanges s L) : s0.onlyChanges (State.ckptStreams s imgs).2.2.2 L := by
  unfold State.ckptStreams
  try dsimp only
  repeat' first
    | with_reducible assumption
    | (refine names_trans hL ?_
       try simp only [keyTypes, Nat.reduceMod]
       decide)
    | (refine names_trans hL ?_
       try simp only [keyTypes, Nat.reduceMod]
       refine names_trans (names_of_subset ?_) names_regs_word
       simp
       done)
    | with_reducible first
      | refine names_cons ?_ ?_
      | refine only_ite ?_ ?_
      | refine only_ite_snd ?_ ?_
      | refine only_ite_fst ?_ ?_
      | refine packImage_only (hL := ?_) (ho := ?_)
      | refine only_foldl (fun u x hu => ?_) ?_
      | refine only_foldl_snd (fun u x hu => ?_) ?_
      | refine only_foldl_fst (fun u x hu => ?_) ?_
      | refine only_foldl_snd2 (fun u x hu => ?_) ?_
      | refine only_ite_snd2 ?_ ?_
      | refine only_foldl_snd3 (fun u x hu => ?_) ?_
    | split
    | dsimp only

theorem planNext_only {s : State} {p : WritePlan} (hL : names L [.plans, .cmds, .word 0x08 0x100, .out, .xfers] = true) 
    (ho : s0.onlyChanges s L) : s0.onlyChanges (State.planNext s p) L := by
  unfold State.planNext
  try dsimp only
  repeat' first
    | with_reducible assumption
    | (refine names_trans hL ?_
       try simp only [keyTypes, Nat.reduceMod]
       decide)
    | with_reducible first
      | refine names_cons ?_ ?_
      | refine only_ite ?_ ?_
      | refine only_ite_snd ?_ ?_
      | refine only_ite_fst ?_ ?_
      | refine complete_only (hL := ?_) (ho := ?_)
      | refine setRes_only (hL := ?_) (ho := ?_)
      | refine cmdXfer_only (hL := ?_) (ho := ?_)
    | split
    | (with_reducible refine modFum_only (z := [.plans]) ?_ ?_ ?_ ?_ ?_ ?_ ?_ ?_ ?_ ?_
       · refine names_trans hL ?_
         first | decide | (refine names_of_subset ?_; simp; done)
       iterate 8 · first | with_reducible rfl | (intro _; with_reducible rfl) | exact fun h => not_free h rfl | (intro _; dsimp only; split <;> rfl) | exact rfl | exact fun _ => rfl)
    | dsimp only

theorem stateCkptCmd_only {c : CmdIn} {s : State} (hL : names L [.regs 0x39, .hdr 0x39, .inj, .cmds, .plans, .word 0x08 0x100, .out, .xfers] = true) 
    (ho : s0.onlyChanges s L) : s0.onlyChanges (stateCkptCmd c s) L := by
  unfold stateCkptCmd
  try dsimp only
  repeat' first
    | with_reducible assumption
    | (refine names_trans hL ?_
       try simp only [keyTypes, Nat.reduceMod]
       decide)
    | (refine names_trans hL ?_
       try simp only [keyTypes, Nat.reduceMod]
       refine names_trans (names_of_subset ?_) names_regs_word
       simp
       done)
    | with_reducible first
      | refine names_cons ?_ ?_
      | refine only_ite ?_ ?_
      | refine only_ite_snd ?_ ?_
      | refine only_ite_fst ?_ ?_
      | refine ckptStreams_only (hL := ?_) (ho := ?_)
      | refine failCmd_only (hL := ?_) (ho := ?_)
      | refine planNext_only (hL := ?_) (ho := ?_)
      | refine only_foldl_snd2 (fun u x hu => ?_) ?_
      | refine only_ite_snd2 ?_ ?_
      | refine only_foldl_snd3 (fun u x hu => ?_) ?_
    | split
    | dsimp only

theorem execStateCkpt_only (c : CmdIn) (s : State) : ∃ st', execStateCkpt c s = .next st' ∧ s.onlyChanges st' [.out, .xfers, .lines, .inj, .cmds, .power, .bpwr, .word 0x50 0x54, .activity, .host, .tap, .regs 0x08, .hdr 0x08, .regs 0x39, .hdr 0x39, .plans] := by
  refine ⟨_, rfl, only_start fun hL h0 => ?_⟩
  refine settle_only (names_of_subset (by simp)) ?_
  repeat' first
    | with_reducible first
      | exact h0
      | assumption
    | (refine names_trans hL ?_
       try simp only [keyTypes, Nat.reduceMod]
       decide)
    | (refine names_trans hL ?_
       try simp only [keyTypes, Nat.reduceMod]
       refine names_trans (names_of_subset ?_) names_regs_word
       simp
       done)
    | with_reducible first
      | refine names_cons ?_ ?_
      | refine only_ite ?_ ?_
      | refine only_ite_snd ?_ ?_
      | refine only_ite_fst ?_ ?_
      | refine runCmd_only (hL := ?_) (h_effect := fun u hu => ?_) (ho := ?_)
      | refine stateCkptCmd_only (hL := ?_) (ho := ?_)
    | split
    | dsimp only

theorem restoreEnd_only {s : State} {r : Restore} {refused detail : Nat} (hL : names L [.plans, .staged, .recs, .hdr 0x58, .cmds, .word 0x08 0x100] = true) 
    (ho : s0.onlyChanges s L) : s0.onlyChanges (State.restoreEnd s r refused detail) L := by
  unfold State.restoreEnd
  try dsimp only
  repeat' first
    | with_reducible assumption
    | (refine names_trans hL ?_
       try simp only [keyTypes, Nat.reduceMod]
       decide)
    | with_reducible first
      | refine names_cons ?_ ?_
      | refine only_ite ?_ ?_
      | refine only_ite_snd ?_ ?_
      | refine only_ite_fst ?_ ?_
      | refine logPlain_only (hL := ?_) (ho := ?_)
      | refine setErr_only (hL := ?_) (ho := ?_)
      | refine complete_only (hL := ?_) (ho := ?_)
      | refine setRes_only (hL := ?_) (ho := ?_)
    | split
    | (with_reducible refine modFum_only (z := [.plans, .recs]) ?_ ?_ ?_ ?_ ?_ ?_ ?_ ?_ ?_ ?_
       · refine names_trans hL ?_
         first | decide | (refine names_of_subset ?_; simp; done)
       iterate 8 · first | with_reducible rfl | (intro _; with_reducible rfl) | exact fun h => not_free h rfl | (intro _; dsimp only; split <;> rfl) | exact rfl | exact fun _ => rfl)
    | dsimp only

theorem stateRestoreCmd_only {c : CmdIn} {s : State} (hL : names L [.plans, .staged, .recs, .hdr 0x58, .cmds, .word 0x08 0x100, .out, .xfers] = true) 
    (ho : s0.onlyChanges s L) : s0.onlyChanges (stateRestoreCmd c s) L := by
  unfold stateRestoreCmd
  try dsimp only
  repeat' first
    | with_reducible assumption
    | (refine names_trans hL ?_
       try simp only [keyTypes, Nat.reduceMod]
       decide)
    | with_reducible first
      | refine names_cons ?_ ?_
      | refine only_ite ?_ ?_
      | refine only_ite_snd ?_ ?_
      | refine only_ite_fst ?_ ?_
      | refine restoreEnd_only (hL := ?_) (ho := ?_)
      | refine cmdXfer_only (hL := ?_) (ho := ?_)
    | split
    | (with_reducible refine modFum_only (z := [.plans, .recs]) ?_ ?_ ?_ ?_ ?_ ?_ ?_ ?_ ?_ ?_
       · refine names_trans hL ?_
         first | decide | (refine names_of_subset ?_; simp; done)
       iterate 8 · first | with_reducible rfl | (intro _; with_reducible rfl) | exact fun h => not_free h rfl | (intro _; dsimp only; split <;> rfl) | exact rfl | exact fun _ => rfl)
    | dsimp only

theorem execStateRestore_only (c : CmdIn) (s : State) : ∃ st', execStateRestore c s = .next st' ∧ s.onlyChanges st' [.out, .xfers, .lines, .inj, .cmds, .power, .bpwr, .word 0x50 0x54, .activity, .host, .tap, .regs 0x08, .hdr 0x08, .plans, .staged, .recs, .hdr 0x58] := by
  refine ⟨_, rfl, only_start fun hL h0 => ?_⟩
  refine settle_only (names_of_subset (by simp)) ?_
  repeat' first
    | with_reducible first
      | exact h0
      | assumption
    | (refine names_trans hL ?_
       try simp only [keyTypes, Nat.reduceMod]
       decide)
    | (refine names_trans hL ?_
       try simp only [keyTypes, Nat.reduceMod]
       refine names_trans (names_of_subset ?_) names_regs_word
       simp
       done)
    | with_reducible first
      | refine names_cons ?_ ?_
      | refine only_ite ?_ ?_
      | refine only_ite_snd ?_ ?_
      | refine only_ite_fst ?_ ?_
      | refine runCmd_only (hL := ?_) (h_effect := fun u hu => ?_) (ho := ?_)
      | refine stateRestoreCmd_only (hL := ?_) (ho := ?_)
    | split
    | dsimp only

theorem stateDigestsCmd_only {c : CmdIn} {s : State} (hL : names L [.plans, .cmds, .word 0x08 0x100, .out, .xfers] = true) 
    (ho : s0.onlyChanges s L) : s0.onlyChanges (stateDigestsCmd c s) L := by
  unfold stateDigestsCmd
  try dsimp only
  repeat' first
    | with_reducible assumption
    | (refine names_trans hL ?_
       try simp only [keyTypes, Nat.reduceMod]
       decide)
    | with_reducible first
      | refine names_cons ?_ ?_
      | refine only_ite ?_ ?_
      | refine only_ite_snd ?_ ?_
      | refine only_ite_fst ?_ ?_
      | refine planNext_only (hL := ?_) (ho := ?_)
    | split
    | dsimp only

theorem execStateDigests_only (c : CmdIn) (s : State) : ∃ st', execStateDigests c s = .next st' ∧ s.onlyChanges st' [.out, .xfers, .lines, .inj, .cmds, .power, .bpwr, .word 0x50 0x54, .activity, .host, .tap, .regs 0x08, .hdr 0x08, .plans] := by
  refine ⟨_, rfl, only_start fun hL h0 => ?_⟩
  refine settle_only (names_of_subset (by simp)) ?_
  repeat' first
    | with_reducible first
      | exact h0
      | assumption
    | (refine names_trans hL ?_
       try simp only [keyTypes, Nat.reduceMod]
       decide)
    | (refine names_trans hL ?_
       try simp only [keyTypes, Nat.reduceMod]
       refine names_trans (names_of_subset ?_) names_regs_word
       simp
       done)
    | with_reducible first
      | refine names_cons ?_ ?_
      | refine only_ite ?_ ?_
      | refine only_ite_snd ?_ ?_
      | refine only_ite_fst ?_ ?_
      | refine runCmd_only (hL := ?_) (h_effect := fun u hu => ?_) (ho := ?_)
      | refine stateDigestsCmd_only (hL := ?_) (ho := ?_)
    | split
    | dsimp only

theorem planLoaded_only {s : State} {pkg : Bool} {n : Nat} {failed : Bool} (hL : names L [.cmds, .plans, .word 0x08 0x100, .out, .xfers] = true) 
    (ho : s0.onlyChanges s L) : s0.onlyChanges (State.planLoaded s pkg n failed) L := by
  unfold State.planLoaded
  try dsimp only
  repeat' first
    | with_reducible assumption
    | (refine names_trans hL ?_
       try simp only [keyTypes, Nat.reduceMod]
       decide)
    | with_reducible first
      | refine names_cons ?_ ?_
      | refine only_ite ?_ ?_
      | refine only_ite_snd ?_ ?_
      | refine only_ite_fst ?_ ?_
      | refine complete_only (hL := ?_) (ho := ?_)
      | refine planNext_only (hL := ?_) (ho := ?_)
    | split
    | (with_reducible refine modFum_only (z := [.plans]) ?_ ?_ ?_ ?_ ?_ ?_ ?_ ?_ ?_ ?_
       · refine names_trans hL ?_
         first | decide | (refine names_of_subset ?_; simp; done)
       iterate 8 · first | with_reducible rfl | (intro _; with_reducible rfl) | exact fun h => not_free h rfl | (intro _; dsimp only; split <;> rfl) | exact rfl | exact fun _ => rfl)
    | dsimp only

theorem installKernels_only {s : State} {img : List Byte} (hL : names L [.kernels, .regs 0x28, .gens, .meas] = true) 
    (ho : s0.onlyChanges s L) : s0.onlyChanges (State.installKernels s img) L := by
  unfold State.installKernels
  try dsimp only
  repeat' first
    | with_reducible assumption
    | (refine names_trans hL ?_
       try simp only [keyTypes, Nat.reduceMod]
       decide)
    | (refine names_trans hL ?_
       try simp only [keyTypes, Nat.reduceMod]
       refine names_trans (names_of_subset ?_) names_regs_word
       simp
       done)
    | with_reducible first
      | refine names_cons ?_ ?_
      | refine only_ite ?_ ?_
      | refine only_ite_snd ?_ ?_
      | refine only_ite_fst ?_ ?_
      | refine modKernel_only (hL := ?_) (ho := ?_)
      | refine storeWord_only (hL := ?_) (ho := ?_)
      | refine kernelChanged_only (hL := ?_) (ho := ?_)
      | refine only_foldl (fun u x hu => ?_) ?_
      | refine only_foldl_snd (fun u x hu => ?_) ?_
      | refine only_foldl_fst (fun u x hu => ?_) ?_
    | split
    | (with_reducible refine modCheck_only (z := [.kernels]) ?_ ?_ ?_ ?_ ?_ ?_ ?_ ?_ ?_
       · refine names_trans hL ?_
         first | decide | (refine names_of_subset ?_; simp; done)
       iterate 7 · first | with_reducible rfl | (intro _; with_reducible rfl) | exact fun h => not_free h rfl | (intro _; dsimp only; split <;> rfl) | exact rfl | exact fun _ => rfl)
    | dsimp only

theorem installConfig_only {s : State} {a : Nat} {v : Word} (hL : names L [.allHdrs, .allRegs, .tables, .trace, .gens, .redNodes, .inj, .rings, .ringQ, .out, .xfers, .mbox, .geyser, .grid, .ftab, .meas, .cmds, .kernels, .clock, .ports, .peers, .drift, .jobs, .cores, .rails, .log, .staged, .recs, .rotOrders] = true) 
    (ho : s0.onlyChanges s L) : s0.onlyChanges (State.installConfig s a v) L := by
  unfold State.installConfig
  try dsimp only
  repeat' first
    | with_reducible assumption
    | (refine names_trans hL ?_
       try simp only [keyTypes, Nat.reduceMod]
       decide)
    | (refine names_trans hL ?_
       refine names_trans (names_of_subset ?_) names_all_word
       simp
       done)
    | (refine names_trans hL ?_
       refine names_trans (names_of_subset ?_) names_all_regs
       simp
       done)
    | (refine names_trans hL ?_
       refine names_trans (names_of_subset ?_) names_all_hdr
       simp
       done)
    | with_reducible first
      | refine names_cons ?_ ?_
      | refine only_ite ?_ ?_
      | refine only_ite_snd ?_ ?_
      | refine only_ite_fst ?_ ?_
      | refine writeHead_only (hL := ?_) (ho := ?_)
      | refine setReg_only (hL := ?_) (h := ?_)
      | refine writeWide_only (hL := ?_) (ho := ?_)
      | refine putReg_only (hL := ?_) (ho := ?_)
    | split
    | dsimp only

theorem loadItem_only {t0 : State} {s : State} {e : DirEntry} {img : List Byte} (he : State.loadItem s e img = .inr t0) (hL : names L [.gens, .meas, .redNodes, .engines, .ftab, .kernels, .allHdrs, .allRegs, .tables, .trace, .inj, .rings, .ringQ, .out, .xfers, .mbox, .geyser, .grid, .cmds, .clock, .ports, .peers, .drift, .jobs, .cores, .rails, .log, .staged, .recs, .rotOrders] = true) 
    (ho : s0.onlyChanges s L) : s0.onlyChanges t0 L := by
  unfold State.loadItem at he
  try dsimp only at he
  repeat' split at he
  all_goals first | (injection he with he; subst he) | injection he
  repeat' first
    | with_reducible assumption
    | (refine names_trans hL ?_
       try simp only [keyTypes, Nat.reduceMod]
       decide)
    | (refine names_trans hL ?_
       refine names_trans (names_of_subset ?_) names_all_word
       simp
       done)
    | (refine names_trans hL ?_
       refine names_trans (names_of_subset ?_) names_all_regs
       simp
       done)
    | (refine names_trans hL ?_
       refine names_trans (names_of_subset ?_) names_all_hdr
       simp
       done)
    | with_reducible first
      | refine names_cons ?_ ?_
      | refine only_ite ?_ ?_
      | refine only_ite_snd ?_ ?_
      | refine only_ite_fst ?_ ?_
      | refine measure_only (hL := ?_) (ho := ?_)
      | refine modRed_only (hL := ?_) (ho := ?_)
      | refine modEngine_only (hL := ?_) (ho := ?_)
      | refine modFtab_only (hL := ?_) (ho := ?_)
      | refine installKernels_only (hL := ?_) (ho := ?_)
      | refine installConfig_only (hL := ?_) (ho := ?_)
      | refine only_foldl (fun u x hu => ?_) ?_
      | refine only_foldl_snd (fun u x hu => ?_) ?_
      | refine only_foldl_fst (fun u x hu => ?_) ?_
    | split
    | dsimp only

theorem restoreItem_only {s : State} {b : List Byte} {es : List DirEntry} {table : Option (List DigestEntry)} {item : Nat} (hL : names L [.staged, .recs, .gens, .meas, .redNodes, .engines, .ftab, .kernels, .allHdrs, .allRegs, .tables, .trace, .inj, .rings, .ringQ, .out, .xfers, .mbox, .geyser, .grid, .cmds, .clock, .ports, .peers, .drift, .jobs, .cores, .rails, .log, .rotOrders] = true) 
    (ho : s0.onlyChanges s L) : s0.onlyChanges (State.restoreItem s b es table item).2 L := by
  unfold State.restoreItem
  try dsimp only
  repeat' first
    | with_reducible assumption
    | (refine names_trans hL ?_
       try simp only [keyTypes, Nat.reduceMod]
       decide)
    | (refine names_trans hL ?_
       refine names_trans (names_of_subset ?_) names_all_word
       simp
       done)
    | (refine names_trans hL ?_
       refine names_trans (names_of_subset ?_) names_all_regs
       simp
       done)
    | (refine names_trans hL ?_
       refine names_trans (names_of_subset ?_) names_all_hdr
       simp
       done)
    | with_reducible first
      | refine names_cons ?_ ?_
      | refine only_ite ?_ ?_
      | refine only_ite_snd ?_ ?_
      | refine only_ite_fst ?_ ?_
      | refine szReject_only (hL := ?_) (ho := ?_)
      | refine loadItem_only (he := by assumption) (hL := ?_) (ho := ?_)
      | refine only_foldl (fun u x hu => ?_) ?_
      | refine only_foldl_snd (fun u x hu => ?_) ?_
      | refine only_foldl_fst (fun u x hu => ?_) ?_
      | refine only_foldl_snd2 (fun u x hu => ?_) ?_
      | refine only_ite_snd2 ?_ ?_
    | split
    | dsimp only

theorem restoreRun_only {s : State} {r : Restore} {table : Option (List DigestEntry)} (hL : names L [.plans, .staged, .recs, .cmds, .gens, .meas, .redNodes, .engines, .ftab, .kernels, .allHdrs, .allRegs, .tables, .trace, .inj, .rings, .ringQ, .out, .xfers, .mbox, .geyser, .grid, .clock, .ports, .peers, .drift, .jobs, .cores, .rails, .log, .rotOrders] = true) 
    (ho : s0.onlyChanges s L) : s0.onlyChanges (State.restoreRun s r table) L := by
  unfold State.restoreRun
  try dsimp only
  repeat' first
    | with_reducible assumption
    | (refine names_trans hL ?_
       try simp only [keyTypes, Nat.reduceMod]
       decide)
    | (refine names_trans hL ?_
       refine names_trans (names_of_subset ?_) names_all_word
       simp
       done)
    | (refine names_trans hL ?_
       refine names_trans (names_of_subset ?_) names_all_regs
       simp
       done)
    | (refine names_trans hL ?_
       refine names_trans (names_of_subset ?_) names_all_hdr
       simp
       done)
    | with_reducible first
      | refine names_cons ?_ ?_
      | refine only_ite ?_ ?_
      | refine only_ite_snd ?_ ?_
      | refine only_ite_fst ?_ ?_
      | refine restoreEnd_only (hL := ?_) (ho := ?_)
      | refine restoreItem_only (hL := ?_) (ho := ?_)
      | refine only_foldl (fun u x hu => ?_) ?_
      | refine only_foldl_snd (fun u x hu => ?_) ?_
      | refine only_foldl_fst (fun u x hu => ?_) ?_
      | refine only_foldl_snd2 (fun u x hu => ?_) ?_
      | refine only_ite_snd2 ?_ ?_
    | split
    | dsimp only

theorem restoreGo_only {s : State} {r : Restore} (hL : names L [.plans, .staged, .recs, .cmds, .gens, .meas, .redNodes, .engines, .ftab, .kernels, .allHdrs, .allRegs, .tables, .trace, .inj, .rings, .ringQ, .out, .xfers, .mbox, .geyser, .grid, .clock, .ports, .peers, .drift, .jobs, .cores, .rails, .log, .rotOrders, .mirror] = true) 
    (ho : s0.onlyChanges s L) : s0.onlyChanges (State.restoreGo s r) L := by
  unfold State.restoreGo
  try dsimp only
  repeat' first
    | with_reducible assumption
    | (refine names_trans hL ?_
       try simp only [keyTypes, Nat.reduceMod]
       decide)
    | (refine names_trans hL ?_
       refine names_trans (names_of_subset ?_) names_all_word
       simp
       done)
    | (refine names_trans hL ?_
       refine names_trans (names_of_subset ?_) names_all_regs
       simp
       done)
    | (refine names_trans hL ?_
       refine names_trans (names_of_subset ?_) names_all_hdr
       simp
       done)
    | with_reducible first
      | refine names_cons ?_ ?_
      | refine only_ite ?_ ?_
      | refine only_ite_snd ?_ ?_
      | refine only_ite_fst ?_ ?_
      | refine restoreEnd_only (hL := ?_) (ho := ?_)
      | refine restoreRun_only (hL := ?_) (ho := ?_)
      | refine waitPage_only (hL := ?_) (ho := ?_)
      | refine mirrorSend_only (hL := ?_) (ho := ?_)
    | split
    | (with_reducible refine modFum_only (z := [.plans, .recs, .gens, .inj, .log, .mirror]) ?_ ?_ ?_ ?_ ?_ ?_ ?_ ?_ ?_ ?_
       · refine names_trans hL ?_
         first | decide | (refine names_of_subset ?_; simp; done)
       iterate 8 · first | with_reducible rfl | (intro _; with_reducible rfl) | exact fun h => not_free h rfl | (intro _; dsimp only; split <;> rfl) | exact rfl | exact fun _ => rfl)
    | dsimp only

theorem restoreLoaded_only {s : State} {pkg : Bool} {n : Nat} {data : List Byte} {failed : Bool} (hL : names L [.cmds, .plans, .staged, .recs, .gens, .meas, .redNodes, .engines, .ftab, .kernels, .allHdrs, .allRegs, .tables, .trace, .inj, .rings, .ringQ, .out, .xfers, .mbox, .geyser, .grid, .clock, .ports, .peers, .drift, .jobs, .cores, .rails, .log, .rotOrders, .mirror] = true) 
    (ho : s0.onlyChanges s L) : s0.onlyChanges (State.restoreLoaded s pkg n data failed) L := by
  unfold State.restoreLoaded
  try dsimp only
  repeat' first
    | with_reducible assumption
    | (refine names_trans hL ?_
       try simp only [keyTypes, Nat.reduceMod]
       decide)
    | (refine names_trans hL ?_
       refine names_trans (names_of_subset ?_) names_all_word
       simp
       done)
    | (refine names_trans hL ?_
       refine names_trans (names_of_subset ?_) names_all_regs
       simp
       done)
    | (refine names_trans hL ?_
       refine names_trans (names_of_subset ?_) names_all_hdr
       simp
       done)
    | with_reducible first
      | refine names_cons ?_ ?_
      | refine only_ite ?_ ?_
      | refine only_ite_snd ?_ ?_
      | refine only_ite_fst ?_ ?_
      | refine complete_only (hL := ?_) (ho := ?_)
      | refine restoreGo_only (hL := ?_) (ho := ?_)
    | split
    | (with_reducible refine modFum_only (z := [.plans, .recs, .gens, .inj, .log, .mirror]) ?_ ?_ ?_ ?_ ?_ ?_ ?_ ?_ ?_ ?_
       · refine names_trans hL ?_
         first | decide | (refine names_of_subset ?_; simp; done)
       iterate 8 · first | with_reducible rfl | (intro _; with_reducible rfl) | exact fun h => not_free h rfl | (intro _; dsimp only; split <;> rfl) | exact rfl | exact fun _ => rfl)
    | dsimp only

theorem restoresGoOn_only {s : State} {data : List Byte} (hL : names L [.plans, .staged, .recs, .cmds, .gens, .meas, .redNodes, .engines, .ftab, .kernels, .allHdrs, .allRegs, .tables, .trace, .inj, .rings, .ringQ, .out, .xfers, .mbox, .geyser, .grid, .clock, .ports, .peers, .drift, .jobs, .cores, .rails, .log, .rotOrders] = true) 
    (ho : s0.onlyChanges s L) : s0.onlyChanges (State.restoresGoOn s data) L := by
  unfold State.restoresGoOn
  try dsimp only
  repeat' first
    | with_reducible assumption
    | (refine names_trans hL ?_
       try simp only [keyTypes, Nat.reduceMod]
       decide)
    | (refine names_trans hL ?_
       refine names_trans (names_of_subset ?_) names_all_word
       simp
       done)
    | (refine names_trans hL ?_
       refine names_trans (names_of_subset ?_) names_all_regs
       simp
       done)
    | (refine names_trans hL ?_
       refine names_trans (names_of_subset ?_) names_all_hdr
       simp
       done)
    | with_reducible first
      | refine names_cons ?_ ?_
      | refine only_ite ?_ ?_
      | refine only_ite_snd ?_ ?_
      | refine only_ite_fst ?_ ?_
      | refine dropPull_only (hL := ?_) (ho := ?_)
      | refine restoreRun_only (hL := ?_) (ho := ?_)
      | refine only_foldl (fun u x hu => ?_) ?_
      | refine only_foldl_snd (fun u x hu => ?_) ?_
      | refine only_foldl_fst (fun u x hu => ?_) ?_
    | split
    | dsimp only

theorem mirrorRow_only {src : BitVec 16} {bytes : List Byte} {s : State} (hL : names L [.replicas, .mbox, .probes, .clusters, .redNodes, .clock, .watch, .jobs, .spares, .plans, .cmds, .staged, .recs, .gens, .meas, .engines, .ftab, .kernels, .allHdrs, .allRegs, .tables, .trace, .inj, .rings, .ringQ, .out, .xfers, .geyser, .grid, .ports, .peers, .drift, .cores, .rails, .log, .rotOrders] = true) 
    (ho : s0.onlyChanges s L) : s0.onlyChanges (mirrorRow src bytes s) L := by
  unfold mirrorRow
  try dsimp only
  repeat' first
    | with_reducible assumption
    | (refine names_trans hL ?_
       try simp only [keyTypes, Nat.reduceMod]
       decide)
    | (refine names_trans hL ?_
       refine names_trans (names_of_subset ?_) names_all_word
       simp
       done)
    | (refine names_trans hL ?_
       refine names_trans (names_of_subset ?_) names_all_regs
       simp
       done)
    | (refine names_trans hL ?_
       refine names_trans (names_of_subset ?_) names_all_hdr
       simp
       done)
    | with_reducible first
      | refine names_cons ?_ ?_
      | refine only_ite ?_ ?_
      | refine only_ite_snd ?_ ?_
      | refine only_ite_fst ?_ ?_
      | refine mirrorTake_only (hL := ?_) (ho := ?_)
      | refine pullTake_only (hL := ?_) (ho := ?_)
      | refine restoresGoOn_only (hL := ?_) (ho := ?_)
    | split
    | (with_reducible refine modFum_only (z := [.replicas, .plans, .recs, .gens, .inj, .log]) ?_ ?_ ?_ ?_ ?_ ?_ ?_ ?_ ?_ ?_
       · refine names_trans hL ?_
         first | decide | (refine names_of_subset ?_; simp; done)
       iterate 8 · first | with_reducible rfl | (intro _; with_reducible rfl) | exact fun h => not_free h rfl | (intro _; dsimp only; split <;> rfl) | exact rfl | exact fun _ => rfl)
    | dsimp only
    | with_reducible refine only_of_pair (by assumption) ?_

theorem execMirror_only (src : BitVec 16) (bytes : List Byte) (s : State) : ∃ st', execMirror src bytes s = .next st' ∧ s.onlyChanges st' [.out, .xfers, .lines, .inj, .replicas, .mbox, .probes, .clusters, .redNodes, .clock, .watch, .jobs, .spares, .plans, .cmds, .staged, .recs, .gens, .meas, .engines, .ftab, .kernels, .allHdrs, .allRegs, .tables, .trace, .rings, .ringQ, .geyser, .grid, .ports, .peers, .drift, .cores, .rails, .log, .rotOrders] := by
  refine ⟨_, rfl, only_start fun hL h0 => ?_⟩
  refine settle_only (names_of_subset (by simp)) ?_
  repeat' first
    | with_reducible first
      | exact h0
      | assumption
    | (refine names_trans hL ?_
       try simp only [keyTypes, Nat.reduceMod]
       decide)
    | (refine names_trans hL ?_
       refine names_trans (names_of_subset ?_) names_all_word
       simp
       done)
    | (refine names_trans hL ?_
       refine names_trans (names_of_subset ?_) names_all_regs
       simp
       done)
    | (refine names_trans hL ?_
       refine names_trans (names_of_subset ?_) names_all_hdr
       simp
       done)
    | with_reducible first
      | refine names_cons ?_ ?_
      | refine only_ite ?_ ?_
      | refine only_ite_snd ?_ ?_
      | refine only_ite_fst ?_ ?_
      | refine mirrorRow_only (hL := ?_) (ho := ?_)
    | split
    | dsimp only

/-! HostMem -/

theorem cmdLoaded_only {s : State} {pkg : Bool} {n id : Nat} {x : Xfer} (hL : names L [.cmds, .gens, .meas, .redNodes, .engines, .ftab, .sinter, .out, .xfers, .staged, .recs, .log, .plans, .mbox, .kernels, .allHdrs, .allRegs, .tables, .trace, .inj, .rings, .ringQ, .geyser, .grid, .clock, .ports, .peers, .drift, .jobs, .cores, .rails, .rotOrders, .mirror, .token, .snuff, .spdm, .free, .firmware] = true) 
    (ho : s0.onlyChanges s L) : s0.onlyChanges (State.cmdLoaded s pkg n id x) L := by
  unfold State.cmdLoaded
  try dsimp only
  repeat' first
    | with_reducible assumption
    | (refine names_trans hL ?_
       try simp only [keyTypes, Nat.reduceMod]
       decide)
    | (refine names_trans hL ?_
       refine names_trans (names_of_subset ?_) names_all_word
       simp
       done)
    | (refine names_trans hL ?_
       refine names_trans (names_of_subset ?_) names_all_regs
       simp
       done)
    | (refine names_trans hL ?_
       refine names_trans (names_of_subset ?_) names_all_hdr
       simp
       done)
    | with_reducible first
      | refine names_cons ?_ ?_
      | refine only_ite ?_ ?_
      | refine only_ite_snd ?_ ?_
      | refine only_ite_fst ?_ ?_
      | refine redLoaded_only (hL := ?_) (ho := ?_)
      | refine forestLoaded_only (hL := ?_) (ho := ?_)
      | refine ftabLoaded_only (hL := ?_) (ho := ?_)
      | refine packLoaded_only (hL := ?_) (ho := ?_)
      | refine unpackLoaded_only (hL := ?_) (ho := ?_)
      | refine dumpLoaded_only (hL := ?_) (ho := ?_)
      | refine planLoaded_only (hL := ?_) (ho := ?_)
      | refine restoreLoaded_only (hL := ?_) (ho := ?_)
      | refine authLoaded_only (hL := ?_) (ho := ?_)
      | refine snuffDumpLoaded_only (hL := ?_) (ho := ?_)
      | refine spdmLoaded_only (hL := ?_) (ho := ?_)
      | refine fwStaged_only (hL := ?_) (ho := ?_)
      | refine complete_only (hL := ?_) (ho := ?_)
    | split
    | dsimp only

theorem ringLost_only {s : State} {page wptr : Nat} (hL : names L [.geyser, .word (keyType page) 132, .word 0x28 0xC4, .word 0x40 0x6C, .trace, .hdr 0x60, .word 0x60 (280 + 32 * ((wptr - 272) / 32)), .rings] = true) 
    (ho : s0.onlyChanges s L) : s0.onlyChanges (State.ringLost s page wptr) L := by
  unfold State.ringLost
  try dsimp only
  repeat' first
    | with_reducible assumption
    | (refine names_trans hL ?_
       try simp only [keyTypes, Nat.reduceMod]
       refine names_of_subset ?_
       simp
       done)
    | with_reducible first
      | refine names_cons ?_ ?_
      | refine only_ite ?_ ?_
      | refine only_ite_snd ?_ ?_
      | refine only_ite_fst ?_ ?_
      | refine modGeyser_only (hL := ?_) (ho := ?_)
      | refine bump_only (hL := ?_) (ho := ?_)
      | refine ringDrop_only (hL := ?_) (ho := ?_)
    | split
    | dsimp only

theorem xferEnd_only {s : State} {id : Nat} {x : Xfer} (hL : names L [.xfers, .cmds, .gens, .meas, .redNodes, .engines, .ftab, .sinter, .out, .staged, .recs, .log, .plans, .mbox, .kernels, .allHdrs, .allRegs, .tables, .trace, .inj, .rings, .ringQ, .geyser, .grid, .clock, .ports, .peers, .drift, .jobs, .cores, .rails, .rotOrders, .mirror, .token, .snuff, .spdm, .free, .firmware, .notices] = true) 
    (ho : s0.onlyChanges s L) : s0.onlyChanges (State.xferEnd s id x) L := by
  unfold State.xferEnd
  try dsimp only
  repeat' first
    | with_reducible assumption
    | (refine names_trans hL ?_
       try simp only [keyTypes, Nat.reduceMod]
       decide)
    | (refine names_trans hL ?_
       refine names_trans (names_of_subset ?_) names_all_word
       simp
       done)
    | (refine names_trans hL ?_
       refine names_trans (names_of_subset ?_) names_all_regs
       simp
       done)
    | (refine names_trans hL ?_
       refine names_trans (names_of_subset ?_) names_all_hdr
       simp
       done)
    | with_reducible first
      | refine names_cons ?_ ?_
      | refine only_ite ?_ ?_
      | refine only_ite_snd ?_ ?_
      | refine only_ite_fst ?_ ?_
      | refine cmdLoaded_only (hL := ?_) (ho := ?_)
      | refine ringDone_only (hL := ?_) (ho := ?_)
      | refine ringLost_only (hL := ?_) (ho := ?_)
      | refine gyRoom_only (hL := ?_) (ho := ?_)
    | split
    | (with_reducible refine only_pages (z := [.xfers, .cmds, .ringQ]) ?_ ?_ ?_ ?_ ?_ ?_ ?_ ?_ ?_ ?_
       · refine names_trans hL ?_
         first | decide | (refine names_of_subset ?_; simp; done)
       iterate 8 · first | with_reducible rfl | (intro _; with_reducible rfl) | exact fun h => not_free h rfl | (intro _; dsimp only; split <;> rfl) | exact rfl | exact fun _ => rfl)
    | (with_reducible refine only_mk (z := [.xfers, .cmds, .gens, .meas, .redNodes, .engines, .ftab, .sinter, .out, .staged, .recs, .log, .plans, .mbox, .kernels, .allHdrs, .allRegs, .tables, .trace, .inj, .rings, .ringQ, .geyser, .grid, .clock, .ports, .peers, .drift, .jobs, .cores, .rails, .rotOrders, .mirror, .token, .snuff, .spdm, .free, .firmware, .notices]) hL ?_ ?_
       · intro p hp
         cases p <;> first | (dsimp only [Part.same]; done) | (dsimp only [Part.same, State.reg, State.hdr]; intro _ _; with_reducible rfl) | exact not_free (free_of_outside hp) (by decide) | exact not_free (free_of_outside hp) rfl | exact trivial | (dsimp only [Part.same]; split <;> rfl))
    | dsimp only

theorem setHmTag_only {s : State} {tag : Nat} {t : Option HmTag} (hL : names L [.xfers] = true) 
    (ho : s0.onlyChanges s L) : s0.onlyChanges (State.setHmTag s tag t) L := by
  unfold State.setHmTag
  try dsimp only
  repeat' first
    | with_reducible assumption
    | (refine names_trans hL ?_
       try simp only [keyTypes, Nat.reduceMod]
       decide)
    | with_reducible first
      | refine names_cons ?_ ?_
      | refine only_ite ?_ ?_
      | refine only_ite_snd ?_ ?_
      | refine only_ite_fst ?_ ?_
    | split
    | (with_reducible refine only_pages (z := [.xfers]) ?_ ?_ ?_ ?_ ?_ ?_ ?_ ?_ ?_ ?_
       · refine names_trans hL ?_
         first | decide | (refine names_of_subset ?_; simp; done)
       iterate 8 · first | with_reducible rfl | (intro _; with_reducible rfl) | exact fun h => not_free h rfl | (intro _; dsimp only; split <;> rfl) | exact rfl | exact fun _ => rfl)
    | dsimp only

theorem hmPump_only {s : State} (hL : names L [.word 0x02 0x58, .out, .xfers] = true) 
    (ho : s0.onlyChanges s L) : s0.onlyChanges (State.hmPump s) L := by
  unfold State.hmPump
  try dsimp only
  repeat' first
    | with_reducible assumption
    | (refine names_trans hL ?_
       try simp only [keyTypes, Nat.reduceMod]
       decide)
    | with_reducible first
      | refine names_cons ?_ ?_
      | refine only_ite ?_ ?_
      | refine only_ite_snd ?_ ?_
      | refine only_ite_fst ?_ ?_
      | refine bump_only (hL := ?_) (ho := ?_)
      | refine issueXfer_only (hL := ?_) (ho := ?_)
      | refine only_foldl (fun u x hu => ?_) ?_
      | refine only_foldl_snd (fun u x hu => ?_) ?_
      | refine only_foldl_fst (fun u x hu => ?_) ?_
    | split
    | dsimp only

theorem hmDone_only {s : State} {t : HmTag} {good : Bool} {data : List Byte} (hL : names L [.xfers, .cmds, .gens, .meas, .redNodes, .engines, .ftab, .sinter, .out, .staged, .recs, .log, .plans, .mbox, .kernels, .allHdrs, .allRegs, .tables, .trace, .inj, .rings, .ringQ, .geyser, .grid, .clock, .ports, .peers, .drift, .jobs, .cores, .rails, .rotOrders, .mirror, .token, .snuff, .spdm, .free, .firmware, .notices] = true) 
    (ho : s0.onlyChanges s L) : s0.onlyChanges (State.hmDone s t good data) L := by
  unfold State.hmDone
  try dsimp only
  repeat' first
    | with_reducible assumption
    | (refine names_trans hL ?_
       try simp only [keyTypes, Nat.reduceMod]
       decide)
    | (refine names_trans hL ?_
       refine names_trans (names_of_subset ?_) names_all_word
       simp
       done)
    | (refine names_trans hL ?_
       refine names_trans (names_of_subset ?_) names_all_regs
       simp
       done)
    | (refine names_trans hL ?_
       refine names_trans (names_of_subset ?_) names_all_hdr
       simp
       done)
    | with_reducible first
      | refine names_cons ?_ ?_
      | refine only_ite ?_ ?_
      | refine only_ite_snd ?_ ?_
      | refine only_ite_fst ?_ ?_
      | refine xferEnd_only (hL := ?_) (ho := ?_)
    | split
    | (with_reducible refine only_pages (z := [.xfers, .cmds, .ringQ]) ?_ ?_ ?_ ?_ ?_ ?_ ?_ ?_ ?_ ?_
       · refine names_trans hL ?_
         first | decide | (refine names_of_subset ?_; simp; done)
       iterate 8 · first | with_reducible rfl | (intro _; with_reducible rfl) | exact fun h => not_free h rfl | (intro _; dsimp only; split <;> rfl) | exact rfl | exact fun _ => rfl)
    | (with_reducible refine only_mk (z := [.xfers, .cmds, .gens, .meas, .redNodes, .engines, .ftab, .sinter, .out, .staged, .recs, .log, .plans, .mbox, .kernels, .allHdrs, .allRegs, .tables, .trace, .inj, .rings, .ringQ, .geyser, .grid, .clock, .ports, .peers, .drift, .jobs, .cores, .rails, .rotOrders, .mirror, .token, .snuff, .spdm, .free, .firmware, .notices]) hL ?_ ?_
       · intro p hp
         cases p <;> first | (dsimp only [Part.same]; done) | (dsimp only [Part.same, State.reg, State.hdr]; intro _ _; with_reducible rfl) | exact not_free (free_of_outside hp) (by decide) | exact not_free (free_of_outside hp) rfl | exact trivial | (dsimp only [Part.same]; split <;> rfl))
    | dsimp only

theorem hmAnswer_only {s : State} {tag : Nat} {t : HmTag} {good : Bool} {data : List Byte} (hL : names L [.out, .xfers, .cmds, .gens, .meas, .redNodes, .engines, .ftab, .sinter, .staged, .recs, .log, .plans, .mbox, .kernels, .allHdrs, .allRegs, .tables, .trace, .inj, .rings, .ringQ, .geyser, .grid, .clock, .ports, .peers, .drift, .jobs, .cores, .rails, .rotOrders, .mirror, .token, .snuff, .spdm, .free, .firmware, .notices] = true) 
    (ho : s0.onlyChanges s L) : s0.onlyChanges (State.hmAnswer s tag t good data) L := by
  unfold State.hmAnswer
  try dsimp only
  repeat' first
    | with_reducible assumption
    | (refine names_trans hL ?_
       try simp only [keyTypes, Nat.reduceMod]
       decide)
    | (refine names_trans hL ?_
       refine names_trans (names_of_subset ?_) names_all_word
       simp
       done)
    | (refine names_trans hL ?_
       refine names_trans (names_of_subset ?_) names_all_regs
       simp
       done)
    | (refine names_trans hL ?_
       refine names_trans (names_of_subset ?_) names_all_hdr
       simp
       done)
    | with_reducible first
      | refine names_cons ?_ ?_
      | refine only_ite ?_ ?_
      | refine only_ite_snd ?_ ?_
      | refine only_ite_fst ?_ ?_
      | refine hmPump_only (hL := ?_) (ho := ?_)
      | refine hmDone_only (hL := ?_) (ho := ?_)
      | refine setHmTag_only (hL := ?_) (ho := ?_)
    | split
    | dsimp only

theorem dropReply_only {s : State} {t : HmTag} {e : BitVec 4 × BitVec 4} (hL : names L [.staged, .recs, .allHdrs, .word 0x50 0x68] = true) 
    (ho : s0.onlyChanges s L) : s0.onlyChanges (State.dropReply s t e) L := by
  unfold State.dropReply
  try dsimp only
  repeat' first
    | with_reducible assumption
    | (refine names_trans hL ?_
       try simp only [keyTypes, Nat.reduceMod]
       decide)
    | (refine names_trans hL ?_
       refine names_trans (names_of_subset ?_) names_all_hdr
       simp
       done)
    | with_reducible first
      | refine names_cons ?_ ?_
      | refine only_ite ?_ ?_
      | refine only_ite_snd ?_ ?_
      | refine only_ite_fst ?_ ?_
      | refine logRec_only (hL := ?_) (ho := ?_)
      | refine setErr_only (hL := ?_) (ho := ?_)
      | refine bump_only (hL := ?_) (ho := ?_)
    | split
    | dsimp only

theorem hmRetry_only {s : State} {tag : Nat} {t : HmTag} (hL : names L [.xfers, .out, .cmds, .gens, .meas, .redNodes, .engines, .ftab, .sinter, .staged, .recs, .log, .plans, .mbox, .kernels, .allHdrs, .allRegs, .tables, .trace, .inj, .rings, .ringQ, .geyser, .grid, .clock, .ports, .peers, .drift, .jobs, .cores, .rails, .rotOrders, .mirror, .token, .snuff, .spdm, .free, .firmware, .notices] = true) 
    (ho : s0.onlyChanges s L) : s0.onlyChanges (State.hmRetry s tag t) L := by
  unfold State.hmRetry
  try dsimp only
  repeat' first
    | with_reducible assumption
    | (refine names_trans hL ?_
       try simp only [keyTypes, Nat.reduceMod]
       decide)
    | (refine names_trans hL ?_
       refine names_trans (names_of_subset ?_) names_all_word
       simp
       done)
    | (refine names_trans hL ?_
       refine names_trans (names_of_subset ?_) names_all_regs
       simp
       done)
    | (refine names_trans hL ?_
       refine names_trans (names_of_subset ?_) names_all_hdr
       simp
       done)
    | with_reducible first
      | refine names_cons ?_ ?_
      | refine only_ite ?_ ?_
      | refine only_ite_snd ?_ ?_
      | refine only_ite_fst ?_ ?_
      | refine setHmTag_only (hL := ?_) (ho := ?_)
      | refine hmAnswer_only (hL := ?_) (ho := ?_)
    | split
    | dsimp only

theorem hmBeat_only {s : State} {tag : Nat} {t : HmTag} {last : Bool} {data : List Byte} (hL : names L [.out, .xfers, .cmds, .gens, .meas, .redNodes, .engines, .ftab, .sinter, .staged, .recs, .log, .plans, .mbox, .kernels, .allHdrs, .allRegs, .tables, .trace, .inj, .rings, .ringQ, .geyser, .grid, .clock, .ports, .peers, .drift, .jobs, .cores, .rails, .rotOrders, .mirror, .token, .snuff, .spdm, .free, .firmware, .notices, .violations, .suspects, .spares, .probes] = true) 
    (ho : s0.onlyChanges s L) : s0.onlyChanges (State.hmBeat s tag t last data) L := by
  unfold State.hmBeat
  try dsimp only
  repeat' first
    | with_reducible assumption
    | (refine names_trans hL ?_
       try simp only [keyTypes, Nat.reduceMod]
       decide)
    | (refine names_trans hL ?_
       refine names_trans (names_of_subset ?_) names_all_word
       simp
       done)
    | (refine names_trans hL ?_
       refine names_trans (names_of_subset ?_) names_all_regs
       simp
       done)
    | (refine names_trans hL ?_
       refine names_trans (names_of_subset ?_) names_all_hdr
       simp
       done)
    | with_reducible first
      | refine names_cons ?_ ?_
      | refine only_ite ?_ ?_
      | refine only_ite_snd ?_ ?_
      | refine only_ite_fst ?_ ?_
      | refine hmAnswer_only (hL := ?_) (ho := ?_)
      | refine violate_only (hL := ?_) (ho := ?_)
      | refine setHmTag_only (hL := ?_) (ho := ?_)
    | split
    | dsimp only

theorem hostTick_only {s : State} (hL : names L [.word 0x02 0x58, .out, .xfers] = true) 
    (ho : s0.onlyChanges s L) : s0.onlyChanges (State.hostTick s) L := by
  unfold State.hostTick
  try dsimp only
  repeat' first
    | with_reducible assumption
    | (refine names_trans hL ?_
       try simp only [keyTypes, Nat.reduceMod]
       decide)
    | with_reducible first
      | refine names_cons ?_ ?_
      | refine only_ite ?_ ?_
      | refine only_ite_snd ?_ ?_
      | refine only_ite_fst ?_ ?_
      | refine hmPump_only (hL := ?_) (ho := ?_)
    | split
    | (with_reducible refine only_pages (z := [.xfers]) ?_ ?_ ?_ ?_ ?_ ?_ ?_ ?_ ?_ ?_
       · refine names_trans hL ?_
         first | decide | (refine names_of_subset ?_; simp; done)
       iterate 8 · first | with_reducible rfl | (intro _; with_reducible rfl) | exact fun h => not_free h rfl | (intro _; dsimp only; split <;> rfl) | exact rfl | exact fun _ => rfl)
    | dsimp only

theorem execHostMemoryResponse_only (tag : Nat) (code : BitVec 2) (last : Bool) (data : List Byte) (s : State) : ∃ st', execHostMemoryResponse tag code last data s = .next st' ∧ s.onlyChanges st' [.out, .xfers, .lines, .inj, .staged, .recs, .violations, .ports, .suspects, .gens, .spares, .probes, .allHdrs, .cmds, .meas, .redNodes, .engines, .ftab, .sinter, .log, .plans, .mbox, .kernels, .allRegs, .tables, .trace, .rings, .ringQ, .geyser, .grid, .clock, .peers, .drift, .jobs, .cores, .rails, .rotOrders, .mirror, .token, .snuff, .spdm, .free, .firmware, .notices] := by
  refine ⟨_, rfl, only_start fun hL h0 => ?_⟩
  refine settle_only (names_of_subset (by simp)) ?_
  repeat' first
    | with_reducible first
      | exact h0
      | assumption
    | (refine names_trans hL ?_
       try simp only [keyTypes, Nat.reduceMod]
       decide)
    | (refine names_trans hL ?_
       refine names_trans (names_of_subset ?_) names_all_word
       simp
       done)
    | (refine names_trans hL ?_
       refine names_trans (names_of_subset ?_) names_all_regs
       simp
       done)
    | (refine names_trans hL ?_
       refine names_trans (names_of_subset ?_) names_all_hdr
       simp
       done)
    | with_reducible first
      | refine names_cons ?_ ?_
      | refine only_ite ?_ ?_
      | refine only_ite_snd ?_ ?_
      | refine only_ite_fst ?_ ?_
      | refine violate_only (hL := ?_) (ho := ?_)
      | refine hmPump_only (hL := ?_) (ho := ?_)
      | refine dropReply_only (hL := ?_) (ho := ?_)
      | refine setHmTag_only (hL := ?_) (ho := ?_)
      | refine hmBeat_only (hL := ?_) (ho := ?_)
      | refine hmRetry_only (hL := ?_) (ho := ?_)
      | refine hmAnswer_only (hL := ?_) (ho := ?_)
    | split
    | dsimp only

theorem execHostMemoryRetry_only (tag : Nat) (s : State) : ∃ st', execHostMemoryRetry tag s = .next st' ∧ s.onlyChanges st' [.out, .xfers, .lines, .inj, .now] := by
  refine ⟨_, rfl, only_start fun hL h0 => ?_⟩
  refine settle_only (names_of_subset (by simp)) ?_
  repeat' first
    | with_reducible first
      | exact h0
      | assumption
    | (refine names_trans hL ?_
       try simp only [keyTypes, Nat.reduceMod]
       decide)
    | with_reducible first
      | refine names_cons ?_ ?_
      | refine only_ite ?_ ?_
      | refine only_ite_snd ?_ ?_
      | refine only_ite_fst ?_ ?_
      | refine setHmTag_only (hL := ?_) (ho := ?_)
      | refine advanceTo_only (hL := ?_) (ho := ?_)
      | refine emit_only (hL := ?_) (ho := ?_)
    | split
    | dsimp only

theorem execTransactionRetire_only (tag : Nat) (s : State) : ∃ st', execTransactionRetire tag s = .next st' ∧ s.onlyChanges st' [.out, .xfers, .lines, .inj, .now, .cmds, .gens, .meas, .redNodes, .engines, .ftab, .sinter, .staged, .recs, .log, .plans, .mbox, .kernels, .allHdrs, .allRegs, .tables, .trace, .rings, .ringQ, .geyser, .grid, .clock, .ports, .peers, .drift, .jobs, .cores, .rails, .rotOrders, .mirror, .token, .snuff, .spdm, .free, .firmware, .notices] := by
  refine ⟨_, rfl, only_start fun hL h0 => ?_⟩
  refine settle_only (names_of_subset (by simp)) ?_
  repeat' first
    | with_reducible first
      | exact h0
      | assumption
    | (refine names_trans hL ?_
       try simp only [keyTypes, Nat.reduceMod]
       decide)
    | (refine names_trans hL ?_
       refine names_trans (names_of_subset ?_) names_all_word
       simp
       done)
    | (refine names_trans hL ?_
       refine names_trans (names_of_subset ?_) names_all_regs
       simp
       done)
    | (refine names_trans hL ?_
       refine names_trans (names_of_subset ?_) names_all_hdr
       simp
       done)
    | with_reducible first
      | refine names_cons ?_ ?_
      | refine only_ite ?_ ?_
      | refine only_ite_snd ?_ ?_
      | refine only_ite_fst ?_ ?_
      | refine advanceTo_only (hL := ?_) (ho := ?_)
      | refine hmPump_only (hL := ?_) (ho := ?_)
      | refine hmDone_only (hL := ?_) (ho := ?_)
      | refine setHmTag_only (hL := ?_) (ho := ?_)
    | split
    | dsimp only

theorem execHostResponseAck_only (s : State) : ∃ st', execHostResponseAck s = .next st' ∧ s.onlyChanges st' [.out, .xfers, .lines, .inj, .host] := by
  refine ⟨_, rfl, only_start fun hL h0 => ?_⟩
  refine settle_only (names_of_subset (by simp)) ?_
  repeat' first
    | with_reducible first
      | exact h0
      | assumption
    | (refine names_trans hL ?_
       try simp only [keyTypes, Nat.reduceMod]
       decide)
    | with_reducible first
      | refine names_cons ?_ ?_
      | refine only_ite ?_ ?_
      | refine only_ite_snd ?_ ?_
      | refine only_ite_fst ?_ ?_
    | split
    | (with_reducible refine only_pages (z := [.xfers, .lines, .host]) ?_ ?_ ?_ ?_ ?_ ?_ ?_ ?_ ?_ ?_
       · refine names_trans hL ?_
         first | decide | (refine names_of_subset ?_; simp; done)
       iterate 8 · first | with_reducible rfl | (intro _; with_reducible rfl) | exact fun h => not_free h rfl | (intro _; dsimp only; split <;> rfl) | exact rfl | exact fun _ => rfl)
    | dsimp only

end Sys2Proof.Machine
end

