-- ==== Sys2Proof/Laws/FramesLevels.lean ====
section
/-!
SUPPORT. What each operation and each command of LinkLate, Levels, Close, TimeStep, Loop, Command, Board, Tap, Bus, Tick may
change.
-/
set_option linter.all false
namespace Sys2Proof.Machine

variable {s0 : State} {L : List Part}

/-! LinkLate -/

theorem dropDownlink_only {s : State} {d : Nat} (hL : names L [.links] = true) 
    (ho : s0.onlyChanges s L) : s0.onlyChanges (State.dropDownlink s d) L := by
  unfold State.dropDownlink
  try dsimp only
  repeat' first
    | with_reducible assumption
    | (refine names_trans hL ?_
       try simp only [keyTypes, Nat.reduceMod]
       decide)
    | with_reducible first
      | refine names_cons ?_ ?_
      | refine only_ite ?_ ?_
      | refine only_ite_snd ?_ ?_
      | refine only_ite_fst ?_ ?_
    | split
    | (with_reducible refine modLinks_only (z := [.links]) ?_ ?_ ?_ ?_ ?_ ?_ ?_
       · refine names_trans hL ?_
         first | decide | (refine names_of_subset ?_; simp; done)
       iterate 5 · first | with_reducible rfl | (intro _; with_reducible rfl) | exact fun h => not_free h rfl | (intro _; dsimp only; split <;> rfl) | exact rfl | exact fun _ => rfl)
    | dsimp only

theorem swapDownlinks_only {s : State} {down : Nat} (hL : names L [.links, .chans] = true) 
    (ho : s0.onlyChanges s L) : s0.onlyChanges (State.swapDownlinks s down) L := by
  unfold State.swapDownlinks
  try dsimp only
  repeat' first
    | with_reducible assumption
    | (refine names_trans hL ?_
       try simp only [keyTypes, Nat.reduceMod]
       decide)
    | with_reducible first
      | refine names_cons ?_ ?_
      | refine only_ite ?_ ?_
      | refine only_ite_snd ?_ ?_
      | refine only_ite_fst ?_ ?_
      | refine dropDownlink_only (hL := ?_) (ho := ?_)
      | refine pushCtl_only (hL := ?_) (ho := ?_)
      | refine only_foldl (fun u x hu => ?_) ?_
      | refine only_foldl_snd (fun u x hu => ?_) ?_
      | refine only_foldl_fst (fun u x hu => ?_) ?_
    | split
    | dsimp only

theorem swapCheck_only {s : State} (hL : names L [.cmds, .links, .chans] = true) 
    (ho : s0.onlyChanges s L) : s0.onlyChanges (State.swapCheck s) L := by
  unfold State.swapCheck
  try dsimp only
  repeat' first
    | with_reducible assumption
    | (refine names_trans hL ?_
       try simp only [keyTypes, Nat.reduceMod]
       decide)
    | with_reducible first
      | refine names_cons ?_ ?_
      | refine only_ite ?_ ?_
      | refine only_ite_snd ?_ ?_
      | refine only_ite_fst ?_ ?_
      | refine complete_only (hL := ?_) (ho := ?_)
      | refine swapDownlinks_only (hL := ?_) (ho := ?_)
    | split
    | (with_reducible refine modLinks_only (z := [.links, .chans]) ?_ ?_ ?_ ?_ ?_ ?_ ?_
       · refine names_trans hL ?_
         first | decide | (refine names_of_subset ?_; simp; done)
       iterate 5 · first | with_reducible rfl | (intro _; with_reducible rfl) | exact fun h => not_free h rfl | (intro _; dsimp only; split <;> rfl) | exact rfl | exact fun _ => rfl)
    | dsimp only

theorem parentSwap_only {c : CmdIn} {s : State} (hL : names L [.cmds, .links, .chans] = true) 
    (ho : s0.onlyChanges s L) : s0.onlyChanges (parentSwap c s) L := by
  unfold parentSwap
  try dsimp only
  repeat' first
    | with_reducible assumption
    | (refine names_trans hL ?_
       try simp only [keyTypes, Nat.reduceMod]
       decide)
    | with_reducible first
      | refine names_cons ?_ ?_
      | refine only_ite ?_ ?_
      | refine only_ite_snd ?_ ?_
      | refine only_ite_fst ?_ ?_
      | refine ok_only (hL := ?_) (ho := ?_)
      | refine failCmd_only (hL := ?_) (ho := ?_)
      | refine waitFor_only (hL := ?_) (ho := ?_)
      | refine swapCheck_only (hL := ?_) (ho := ?_)
    | split
    | (with_reducible refine modLinks_only (z := [.links, .chans]) ?_ ?_ ?_ ?_ ?_ ?_ ?_
       · refine names_trans hL ?_
         first | decide | (refine names_of_subset ?_; simp; done)
       iterate 5 · first | with_reducible rfl | (intro _; with_reducible rfl) | exact fun h => not_free h rfl | (intro _; dsimp only; split <;> rfl) | exact rfl | exact fun _ => rfl)
    | dsimp only

theorem moveMbox_only {s : State} {p q : Nat} (hL : names L [.sinter, .mbox] = true) 
    (ho : s0.onlyChanges s L) : s0.onlyChanges (State.moveMbox s p q) L := by
  unfold State.moveMbox
  try dsimp only
  repeat' first
    | with_reducible assumption
    | (refine names_trans hL ?_
       try simp only [keyTypes, Nat.reduceMod]
       decide)
    | with_reducible first
      | refine names_cons ?_ ?_
      | refine only_ite ?_ ?_
      | refine only_ite_snd ?_ ?_
      | refine only_ite_fst ?_ ?_
    | split
    | (with_reducible refine only_sinter (z := [.sinter]) ?_ ?_ ?_
       · refine names_trans hL ?_
         first | decide | (refine names_of_subset ?_; simp; done)
       iterate 1 · first | with_reducible rfl | (intro _; with_reducible rfl) | exact fun h => not_free h rfl | (intro _; dsimp only; split <;> rfl) | exact rfl | exact fun _ => rfl)
    | (with_reducible refine only_mbox (z := [.mbox]) ?_ ?_ ?_
       · refine names_trans hL ?_
         first | decide | (refine names_of_subset ?_; simp; done)
       iterate 1 · first | with_reducible rfl | (intro _; with_reducible rfl) | exact fun h => not_free h rfl | (intro _; dsimp only; split <;> rfl) | exact rfl | exact fun _ => rfl)
    | (with_reducible refine only_mk (z := [.sinter, .mbox]) hL ?_ ?_
       · intro p hp
         cases p <;> first | (dsimp only [Part.same]; done) | (dsimp only [Part.same, State.reg, State.hdr]; intro _ _; with_reducible rfl) | exact not_free (free_of_outside hp) (by decide) | exact not_free (free_of_outside hp) rfl | exact trivial | (dsimp only [Part.same]; split <;> rfl))
    | dsimp only

theorem setParent_only {s : State} {q : Nat} (hL : names L [.links, .word 0x38 0x44, .pkg] = true) 
    (ho : s0.onlyChanges s L) : s0.onlyChanges (State.setParent s q) L := by
  unfold State.setParent
  try dsimp only
  repeat' first
    | with_reducible assumption
    | (refine names_trans hL ?_
       try simp only [keyTypes, Nat.reduceMod]
       decide)
    | with_reducible first
      | refine names_cons ?_ ?_
      | refine only_ite ?_ ?_
      | refine only_ite_snd ?_ ?_
      | refine only_ite_fst ?_ ?_
      | refine setRegFld_only (hL := ?_) (ho := ?_)
    | split
    | (with_reducible refine modLinks_only (z := [.links]) ?_ ?_ ?_ ?_ ?_ ?_ ?_
       · refine names_trans hL ?_
         first | decide | (refine names_of_subset ?_; simp; done)
       iterate 5 · first | with_reducible rfl | (intro _; with_reducible rfl) | exact fun h => not_free h rfl | (intro _; dsimp only; split <;> rfl) | exact rfl | exact fun _ => rfl)
    | (with_reducible refine only_pkg (z := [.pkg]) ?_ ?_ ?_
       · refine names_trans hL ?_
         first | decide | (refine names_of_subset ?_; simp; done)
       iterate 1 · first | with_reducible rfl | (intro _; with_reducible rfl) | exact fun h => not_free h rfl | (intro _; dsimp only; split <;> rfl) | exact rfl | exact fun _ => rfl)
    | dsimp only

theorem resendPartials_only {s : State} (hL : names L [.redNodes, .hdr 0x18, .staged, .recs, .hdr 0x58, .gens, .mirror, .mbox, .regs 0x18] = true) 
    (ho : s0.onlyChanges s L) : s0.onlyChanges (State.resendPartials s) L := by
  unfold State.resendPartials
  try dsimp only
  repeat' first
    | with_reducible assumption
    | (refine names_trans hL ?_
       try simp only [keyTypes, Nat.reduceMod]
       decide)
    | (refine names_trans hL ?_
       try simp only [keyTypes, Nat.reduceMod]
       refine names_trans (names_of_subset ?_) names_regs_word
       simp
       done)
    | with_reducible first
      | refine names_cons ?_ ?_
      | refine only_ite ?_ ?_
      | refine only_ite_snd ?_ ?_
      | refine only_ite_fst ?_ ?_
      | refine redFlush_only (hL := ?_) (ho := ?_)
      | refine modRed_only (hL := ?_) (ho := ?_)
    | split
    | dsimp only

theorem parentChange_only {s : State} {q : Nat} (hL : names L [.sinter, .mbox, .regs 0x93, .regs 0x91, .regs 0x38, .host, .out, .tap, .proxies, .ports, .chans, .links, .pkg, .hdr 0x93, .hdr 0x91, .hdr 0x38, .mirror, .gens, .jobs, .verify, .ringQ, .xfers, .word 0x40 0x6C, .svcNotices, .hdr 0x40, .redNodes, .hdr 0x18, .staged, .recs, .hdr 0x58, .tports, .evts, .clock, .relock, .cmds, .word 0x08 0x100, .hdr 0x30, .pps, .regs 0x18] = true) 
    (ho : s0.onlyChanges s L) : s0.onlyChanges (State.parentChange s q) L := by
  unfold State.parentChange
  try dsimp only
  repeat' first
    | with_reducible assumption
    | (refine names_trans hL ?_
       try simp only [keyTypes, Nat.reduceMod]
       decide)
    | (refine names_trans hL ?_
       try simp only [keyTypes, Nat.reduceMod]
       refine names_trans (names_of_subset ?_) names_regs_word
       simp
       done)
    | (refine names_trans hL ?_
       refine names_trans (names_of_subset ?_) names_port_word
       simp
       done)
    | (refine names_trans hL ?_
       refine names_trans (names_of_subset ?_) names_port_hdr
       simp
       done)
    | with_reducible first
      | refine names_cons ?_ ?_
      | refine only_ite ?_ ?_
      | refine only_ite_snd ?_ ?_
      | refine only_ite_fst ?_ ?_
      | refine moveMbox_only (hL := ?_) (ho := ?_)
      | refine moveFrames_only (hL := ?_) (ho := ?_)
      | refine setParent_only (hL := ?_) (ho := ?_)
      | refine portErr_only (hL := ?_) (ho := ?_)
      | refine modPort_only (hL := ?_) (ho := ?_)
      | refine peerCheck_only (hL := ?_) (ho := ?_)
      | refine stepRetry_only (hL := ?_) (ho := ?_)
      | refine resendPartials_only (hL := ?_) (ho := ?_)
      | refine timeLinks_only (hL := ?_) (ho := ?_)
    | split
    | (with_reducible refine modLinks_only (z := [.proxies, .ports, .chans, .links]) ?_ ?_ ?_ ?_ ?_ ?_ ?_
       · refine names_trans hL ?_
         first | decide | (refine names_of_subset ?_; simp; done)
       iterate 5 · first | with_reducible rfl | (intro _; with_reducible rfl) | exact fun h => not_free h rfl | (intro _; dsimp only; split <;> rfl) | exact rfl | exact fun _ => rfl)
    | dsimp only

theorem u3Takes_only {s : State} {p : Nat} (hL : names L [.regs 0x93, .regs 0x91, .regs 0x38, .mbox, .host, .out, .tap, .proxies, .chans, .staged, .recs, .hdr 0x58, .violations, .ports, .suspects, .hdr 0x28, .hdr 0x12, .gens, .spares, .probes, .links, .peers, .sinter, .tports, .evts, .clock, .relock, .cmds, .word 0x08 0x100, .hdr 0x30, .pps, .hdr 0x93, .hdr 0x91, .hdr 0x38] = true) 
    (ho : s0.onlyChanges s L) : s0.onlyChanges (State.u3Takes s p) L := by
  unfold State.u3Takes
  try dsimp only
  repeat' first
    | with_reducible assumption
    | (refine names_trans hL ?_
       try simp only [keyTypes, Nat.reduceMod]
       decide)
    | (refine names_trans hL ?_
       try simp only [keyTypes, Nat.reduceMod]
       refine names_trans (names_of_subset ?_) names_regs_word
       simp
       done)
    | (refine names_trans hL ?_
       refine names_trans (names_of_subset ?_) names_port_word
       simp
       done)
    | (refine names_trans hL ?_
       refine names_trans (names_of_subset ?_) names_port_hdr
       simp
       done)
    | with_reducible first
      | refine names_cons ?_ ?_
      | refine only_ite ?_ ?_
      | refine only_ite_snd ?_ ?_
      | refine only_ite_fst ?_ ?_
      | refine bumpPort_only (hL := ?_) (ho := ?_)
      | refine retryProxies_only (hL := ?_) (ho := ?_)
      | refine resetChan_only (hL := ?_) (ho := ?_)
      | refine modPort_only (hL := ?_) (ho := ?_)
      | refine moveMbox_only (hL := ?_) (ho := ?_)
      | refine enqueue_only (hL := ?_) (ho := ?_)
      | refine timeLinks_only (hL := ?_) (ho := ?_)
      | refine portErr_only (hL := ?_) (ho := ?_)
      | refine only_foldl (fun u x hu => ?_) ?_
      | refine only_foldl_snd (fun u x hu => ?_) ?_
      | refine only_foldl_fst (fun u x hu => ?_) ?_
    | split
    | (with_reducible refine modLinks_only (z := [.proxies, .chans, .ports, .links, .peers]) ?_ ?_ ?_ ?_ ?_ ?_ ?_
       · refine names_trans hL ?_
         first | decide | (refine names_of_subset ?_; simp; done)
       iterate 5 · first | with_reducible rfl | (intro _; with_reducible rfl) | exact fun h => not_free h rfl | (intro _; dsimp only; split <;> rfl) | exact rfl | exact fun _ => rfl)
    | dsimp only

theorem holdOutputs_only {s : State} {v : Bool} (hL : names L [.hdr 0x18, .links] = true) 
    (ho : s0.onlyChanges s L) : s0.onlyChanges (State.holdOutputs s v) L := by
  unfold State.holdOutputs
  try dsimp only
  repeat' first
    | with_reducible assumption
    | (refine names_trans hL ?_
       try simp only [keyTypes, Nat.reduceMod]
       decide)
    | with_reducible first
      | refine names_cons ?_ ?_
      | refine only_ite ?_ ?_
      | refine only_ite_snd ?_ ?_
      | refine only_ite_fst ?_ ?_
      | refine setStat_only (hL := ?_) (ho := ?_)
    | split
    | (with_reducible refine modLinks_only (z := [.links]) ?_ ?_ ?_ ?_ ?_ ?_ ?_
       · refine names_trans hL ?_
         first | decide | (refine names_of_subset ?_; simp; done)
       iterate 5 · first | with_reducible rfl | (intro _; with_reducible rfl) | exact fun h => not_free h rfl | (intro _; dsimp only; split <;> rfl) | exact rfl | exact fun _ => rfl)
    | dsimp only

theorem waitsAgain_only {s : State} (hL : names L [.redNodes] = true) 
    (ho : s0.onlyChanges s L) : s0.onlyChanges (State.waitsAgain s) L := by
  unfold State.waitsAgain
  try dsimp only
  repeat' first
    | with_reducible assumption
    | (refine names_trans hL ?_
       try simp only [keyTypes, Nat.reduceMod]
       decide)
    | with_reducible first
      | refine names_cons ?_ ?_
      | refine only_ite ?_ ?_
      | refine only_ite_snd ?_ ?_
      | refine only_ite_fst ?_ ?_
    | split
    | (with_reducible refine only_reds (z := [.redNodes]) ?_ ?_ ?_ ?_
       · refine names_trans hL ?_
         first | decide | (refine names_of_subset ?_; simp; done)
       iterate 2 · first | with_reducible rfl | (intro _; with_reducible rfl) | exact fun h => not_free h rfl | (intro _; dsimp only; split <;> rfl) | exact rfl | exact fun _ => rfl)
    | dsimp only

theorem takeItem_only {s : State} {x : MirrorItem} (hL : names L [.redNodes, .probes, .clusters, .clock, .watch, .jobs, .spares, .plans] = true)
    (ho : s0.onlyChanges s L) : s0.onlyChanges (s.takeItem x) L := by
  cases x <;> unfold State.takeItem <;> try dsimp only
  all_goals
    try dsimp only
    repeat' first
      | with_reducible assumption
      | (refine names_trans hL ?_
         try simp only [keyTypes, Nat.reduceMod]
         decide)
      | with_reducible first
        | refine names_cons ?_ ?_
        | refine only_ite ?_ ?_
        | refine only_ite_snd ?_ ?_
        | refine only_ite_fst ?_ ?_
        | refine installSlot_only (hL := ?_) (ho := ?_)
        | refine install_only (hL := ?_) (ho := ?_)
        | refine only_foldl (fun u x hu => ?_) ?_
        | refine only_foldl_snd (fun u x hu => ?_) ?_
        | refine only_foldl_fst (fun u x hu => ?_) ?_
      | split
      | dsimp only

theorem takeReplica_only {s : State} {src : BitVec 16} (hL : names L [.redNodes, .probes, .clusters, .clock, .watch, .jobs, .spares, .plans] = true) 
    (ho : s0.onlyChanges s L) : s0.onlyChanges (State.takeReplica s src) L := by
  unfold State.takeReplica
  try dsimp only
  repeat' first
    | with_reducible assumption
    | (refine names_trans hL ?_
       try simp only [keyTypes, Nat.reduceMod]
       decide)
    | with_reducible first
      | refine names_cons ?_ ?_
      | refine only_ite ?_ ?_
      | refine only_ite_snd ?_ ?_
      | refine only_ite_fst ?_ ?_
      | refine waitsAgain_only (hL := ?_) (ho := ?_)
      | refine takeItem_only (hL := ?_) (ho := ?_)
      | refine only_foldl (fun u x hu => ?_) ?_
      | refine only_foldl_snd (fun u x hu => ?_) ?_
      | refine only_foldl_fst (fun u x hu => ?_) ?_
    | split
    | dsimp only

theorem takeDownlink_only {s : State} {d : Nat} (hL : names L [.links, .mbox, .bcasts, .chans] = true) 
    (ho : s0.onlyChanges s L) : s0.onlyChanges (State.takeDownlink s d) L := by
  unfold State.takeDownlink
  try dsimp only
  repeat' first
    | with_reducible assumption
    | (refine names_trans hL ?_
       try simp only [keyTypes, Nat.reduceMod]
       decide)
    | with_reducible first
      | refine names_cons ?_ ?_
      | refine only_ite ?_ ?_
      | refine only_ite_snd ?_ ?_
      | refine only_ite_fst ?_ ?_
      | refine bcastRepair_only (hL := ?_) (ho := ?_)
      | refine pushCtl_only (hL := ?_) (ho := ?_)
    | split
    | (with_reducible refine modLinks_only (z := [.links, .chans]) ?_ ?_ ?_ ?_ ?_ ?_ ?_
       · refine names_trans hL ?_
         first | decide | (refine names_of_subset ?_; simp; done)
       iterate 5 · first | with_reducible rfl | (intro _; with_reducible rfl) | exact fun h => not_free h rfl | (intro _; dsimp only; split <;> rfl) | exact rfl | exact fun _ => rfl)
    | dsimp only

theorem twinLost_only {s : State} (hL : names L [.links, .mbox, .staged, .recs, .hdr 0x58, .redNodes, .probes, .clusters, .clock, .watch, .jobs, .spares, .plans, .bcasts, .chans] = true) 
    (ho : s0.onlyChanges s L) : s0.onlyChanges (State.twinLost s) L := by
  unfold State.twinLost
  try dsimp only
  repeat' first
    | with_reducible assumption
    | (refine names_trans hL ?_
       try simp only [keyTypes, Nat.reduceMod]
       decide)
    | with_reducible first
      | refine names_cons ?_ ?_
      | refine only_ite ?_ ?_
      | refine only_ite_snd ?_ ?_
      | refine only_ite_fst ?_ ?_
      | refine replaceTray_only (hL := ?_) (ho := ?_)
      | refine takeReplica_only (hL := ?_) (ho := ?_)
      | refine takeDownlink_only (hL := ?_) (ho := ?_)
      | refine only_foldl (fun u x hu => ?_) ?_
      | refine only_foldl_snd (fun u x hu => ?_) ?_
      | refine only_foldl_fst (fun u x hu => ?_) ?_
    | split
    | (with_reducible refine modLinks_only (z := [.links, .chans]) ?_ ?_ ?_ ?_ ?_ ?_ ?_
       · refine names_trans hL ?_
         first | decide | (refine names_of_subset ?_; simp; done)
       iterate 5 · first | with_reducible rfl | (intro _; with_reducible rfl) | exact fun h => not_free h rfl | (intro _; dsimp only; split <;> rfl) | exact rfl | exact fun _ => rfl)
    | dsimp only

theorem portGone_only {s : State} {p : Nat} {lost : Bool} (hL : names L [.pace, .regs 0x93, .regs 0x91, .regs 0x38, .mbox, .host, .out, .tap, .proxies, .ports, .chans, .staged, .recs, .hdr 0x58, .violations, .suspects, .hdr 0x28, .hdr 0x12, .gens, .spares, .probes, .linkKeys, .hdr 0x50, .word 0x50 0x5C, .links, .peers, .sinter, .tports, .evts, .clock, .relock, .cmds, .word 0x08 0x100, .hdr 0x30, .pps, .hdr 0x93, .hdr 0x91, .hdr 0x38, .snuff, .hdr 0x18, .plans, .mirror, .redNodes, .clusters, .watch, .jobs, .bcasts] = true) 
    (ho : s0.onlyChanges s L) : s0.onlyChanges (State.portGone s p lost) L := by
  unfold State.portGone
  try dsimp only
  repeat' first
    | with_reducible assumption
    | (refine names_trans hL ?_
       try simp only [keyTypes, Nat.reduceMod]
       decide)
    | (refine names_trans hL ?_
       try simp only [keyTypes, Nat.reduceMod]
       refine names_trans (names_of_subset ?_) names_regs_word
       simp
       done)
    | (refine names_trans hL ?_
       refine names_trans (names_of_subset ?_) names_port_word
       simp
       done)
    | (refine names_trans hL ?_
       refine names_trans (names_of_subset ?_) names_port_hdr
       simp
       done)
    | with_reducible first
      | refine names_cons ?_ ?_
      | refine only_ite ?_ ?_
      | refine only_ite_snd ?_ ?_
      | refine only_ite_fst ?_ ?_
      | refine linkReset_only (hL := ?_) (ho := ?_)
      | refine u3Takes_only (hL := ?_) (ho := ?_)
      | refine snuffPortLost_only (hL := ?_) (ho := ?_)
      | refine timePortLost_only (hL := ?_) (ho := ?_)
      | refine modPort_only (hL := ?_) (ho := ?_)
      | refine holdOutputs_only (hL := ?_) (ho := ?_)
      | refine mirrorLost_only (hL := ?_) (ho := ?_)
      | refine twinLost_only (hL := ?_) (ho := ?_)
      | refine dropDownlink_only (hL := ?_) (ho := ?_)
      | refine replaceTray_only (hL := ?_) (ho := ?_)
    | split
    | dsimp only

theorem resetPort_only {s : State} {p : Nat} (hL : names L (([.sinter, .mbox, .regs 0x93, .regs 0x91, .regs 0x38, .host, .out, .tap, .proxies, .ports, .chans, .links, .pkg, .hdr 0x93, .hdr 0x91, .hdr 0x38, .mirror, .gens, .jobs, .verify, .ringQ, .xfers, .word 0x40 0x6C, .svcNotices, .hdr 0x40, .redNodes, .hdr 0x18, .staged, .recs, .hdr 0x58, .tports, .evts, .clock, .relock, .cmds, .word 0x08 0x100, .hdr 0x30, .pps, .pace, .violations, .suspects, .hdr 0x28, .hdr 0x12, .spares, .probes, .linkKeys, .hdr 0x50, .word 0x50 0x5C, .peers, .snuff] : List Part) ++ ([.plans, .clusters, .watch, .bcasts, .regs 0x18] : List Part)) = true) 
    (ho : s0.onlyChanges s L) : s0.onlyChanges (State.resetPort s p) L := by
  unfold State.resetPort
  try dsimp only
  repeat' first
    | with_reducible assumption
    | (refine names_trans hL ?_
       try simp only [keyTypes, Nat.reduceMod]
       decide)
    | (refine names_trans hL ?_
       try simp only [keyTypes, Nat.reduceMod]
       refine names_trans (names_of_subset ?_) names_regs_word
       simp
       done)
    | (refine names_trans hL ?_
       refine names_trans (names_of_subset ?_) names_port_word
       simp
       done)
    | (refine names_trans hL ?_
       refine names_trans (names_of_subset ?_) names_port_hdr
       simp
       done)
    | with_reducible first
      | refine names_cons ?_ ?_
      | refine only_ite ?_ ?_
      | refine only_ite_snd ?_ ?_
      | refine only_ite_fst ?_ ?_
      | refine parentChange_only (hL := ?_) (ho := ?_)
      | refine portGone_only (hL := ?_) (ho := ?_)
      | refine linkReset_only (hL := ?_) (ho := ?_)
    | split
    | dsimp only

theorem execLinkReset_only (c : CmdIn) (s : State) : ∃ st', execLinkReset c s = .next st' ∧ s.onlyChanges st' (([.out, .xfers, .lines, .inj, .cmds, .power, .bpwr, .word 0x50 0x54, .activity, .host, .tap, .regs 0x08, .hdr 0x08, .sinter, .mbox, .regs 0x93, .regs 0x91, .regs 0x38, .proxies, .ports, .chans, .links, .pkg, .hdr 0x93, .hdr 0x91, .hdr 0x38, .mirror, .gens, .jobs, .verify, .ringQ, .word 0x40 0x6C, .svcNotices, .hdr 0x40, .redNodes, .hdr 0x18, .staged, .recs, .hdr 0x58, .tports, .evts, .clock, .relock, .hdr 0x30, .pps, .pace, .violations, .suspects, .hdr 0x28, .hdr 0x12] : List Part) ++ ([.spares, .probes, .linkKeys, .hdr 0x50, .word 0x50 0x5C, .peers, .snuff, .plans, .clusters, .watch, .bcasts, .regs 0x18] : List Part)) := by
  refine ⟨_, rfl, only_start fun hL h0 => ?_⟩
  refine settle_only (names_of_subset (by simp)) ?_
  repeat' first
    | with_reducible first
      | exact h0
      | assumption
    | (refine names_trans hL ?_
       try simp only [keyTypes, Nat.reduceMod]
       decide)
    | (refine names_trans hL ?_
       try simp only [keyTypes, Nat.reduceMod]
       refine names_trans (names_of_subset ?_) names_regs_word
       simp
       done)
    | (refine names_trans hL ?_
       refine names_trans (names_of_subset ?_) names_port_word
       simp
       done)
    | (refine names_trans hL ?_
       refine names_trans (names_of_subset ?_) names_port_hdr
       simp
       done)
    | with_reducible first
      | refine names_cons ?_ ?_
      | refine only_ite ?_ ?_
      | refine only_ite_snd ?_ ?_
      | refine only_ite_fst ?_ ?_
      | refine runCmd_only (hL := ?_) (h_effect := fun u hu => ?_) (ho := ?_)
      | refine failCmd_only (hL := ?_) (ho := ?_)
      | refine resetPort_only (hL := ?_) (ho := ?_)
      | refine startTraining_only (hL := ?_) (ho := ?_)
      | refine modPort_only (hL := ?_) (ho := ?_)
      | refine waitFor_only (hL := ?_) (ho := ?_)
      | refine ok_only (hL := ?_) (ho := ?_)
    | split
    | dsimp only

theorem execParentSwap_only (c : CmdIn) (s : State) : ∃ st', execParentSwap c s = .next st' ∧ s.onlyChanges st' [.out, .xfers, .lines, .inj, .cmds, .power, .bpwr, .word 0x50 0x54, .activity, .host, .tap, .regs 0x08, .hdr 0x08, .links, .chans] := by
  refine ⟨_, rfl, only_start fun hL h0 => ?_⟩
  refine settle_only (names_of_subset (by simp)) ?_
  repeat' first
    | with_reducible first
      | exact h0
      | assumption
    | (refine names_trans hL ?_
       try simp only [keyTypes, Nat.reduceMod]
       decide)
    | (refine names_trans hL ?_
       try simp only [keyTypes, Nat.reduceMod]
       refine names_trans (names_of_subset ?_) names_regs_word
       simp
       done)
    | with_reducible first
      | refine names_cons ?_ ?_
      | refine only_ite ?_ ?_
      | refine only_ite_snd ?_ ?_
      | refine only_ite_fst ?_ ?_
      | refine runCmd_only (hL := ?_) (h_effect := fun u hu => ?_) (ho := ?_)
      | refine parentSwap_only (hL := ?_) (ho := ?_)
    | split
    | dsimp only

theorem settleLink_only {s : State} {p : Nat} (hL : names L (([.pace, .regs 0x93, .regs 0x91, .regs 0x38, .mbox, .host, .out, .tap, .proxies, .ports, .chans, .staged, .recs, .hdr 0x58, .violations, .suspects, .hdr 0x28, .hdr 0x12, .gens, .spares, .probes, .linkKeys, .hdr 0x50, .word 0x50 0x5C, .links, .peers, .sinter, .tports, .evts, .clock, .relock, .cmds, .word 0x08 0x100, .hdr 0x30, .pps, .hdr 0x93, .hdr 0x91, .hdr 0x38, .snuff, .hdr 0x18, .plans, .mirror, .redNodes, .clusters, .watch, .jobs, .bcasts, .pkg, .verify, .ringQ] : List Part) ++ ([.xfers, .word 0x40 0x6C, .svcNotices, .hdr 0x40, .regs 0x18] : List Part)) = true) 
    (ho : s0.onlyChanges s L) : s0.onlyChanges (State.settleLink s p) L := by
  unfold State.settleLink
  try dsimp only
  repeat' first
    | with_reducible assumption
    | (refine names_trans hL ?_
       try simp only [keyTypes, Nat.reduceMod]
       decide)
    | (refine names_trans hL ?_
       try simp only [keyTypes, Nat.reduceMod]
       refine names_trans (names_of_subset ?_) names_regs_word
       simp
       done)
    | (refine names_trans hL ?_
       refine names_trans (names_of_subset ?_) names_port_word
       simp
       done)
    | (refine names_trans hL ?_
       refine names_trans (names_of_subset ?_) names_port_hdr
       simp
       done)
    | with_reducible first
      | refine names_cons ?_ ?_
      | refine only_ite ?_ ?_
      | refine only_ite_snd ?_ ?_
      | refine only_ite_fst ?_ ?_
      | refine modPort_only (hL := ?_) (ho := ?_)
      | refine portGone_only (hL := ?_) (ho := ?_)
      | refine resetPort_only (hL := ?_) (ho := ?_)
    | split
    | dsimp only

theorem execLaneRetire_only (c : CmdIn) (s : State) : ∃ st', execLaneRetire c s = .next st' ∧ s.onlyChanges st' (([.out, .xfers, .lines, .inj, .cmds, .power, .bpwr, .word 0x50 0x54, .activity, .host, .tap, .regs 0x08, .hdr 0x08, .pace, .regs 0x93, .regs 0x91, .regs 0x38, .mbox, .proxies, .ports, .chans, .staged, .recs, .hdr 0x58, .violations, .suspects, .hdr 0x28, .hdr 0x12, .gens, .spares, .probes, .linkKeys, .hdr 0x50, .word 0x50 0x5C, .links, .peers, .sinter, .tports, .evts, .clock, .relock, .hdr 0x30, .pps, .hdr 0x93, .hdr 0x91, .hdr 0x38, .snuff, .hdr 0x18, .plans, .mirror] : List Part) ++ ([.redNodes, .clusters, .watch, .jobs, .bcasts, .pkg, .verify, .ringQ, .word 0x40 0x6C, .svcNotices, .hdr 0x40, .regs 0x18] : List Part)) := by
  refine ⟨_, rfl, only_start fun hL h0 => ?_⟩
  refine settle_only (names_of_subset (by simp)) ?_
  repeat' first
    | with_reducible first
      | exact h0
      | assumption
    | (refine names_trans hL ?_
       try simp only [keyTypes, Nat.reduceMod]
       decide)
    | (refine names_trans hL ?_
       try simp only [keyTypes, Nat.reduceMod]
       refine names_trans (names_of_subset ?_) names_regs_word
       simp
       done)
    | (refine names_trans hL ?_
       refine names_trans (names_of_subset ?_) names_port_word
       simp
       done)
    | (refine names_trans hL ?_
       refine names_trans (names_of_subset ?_) names_port_hdr
       simp
       done)
    | with_reducible first
      | refine names_cons ?_ ?_
      | refine only_ite ?_ ?_
      | refine only_ite_snd ?_ ?_
      | refine only_ite_fst ?_ ?_
      | refine runCmd_only (hL := ?_) (h_effect := fun u hu => ?_) (ho := ?_)
      | refine failCmd_only (hL := ?_) (ho := ?_)
      | refine ok_only (hL := ?_) (ho := ?_)
      | refine settleLink_only (hL := ?_) (ho := ?_)
      | refine laneFail_only (hL := ?_) (ho := ?_)
    | split
    | dsimp only

theorem frameIn_only {s : State} {p : Nat} (hL : names L [.power, .bpwr, .cmds, .word 0x08 0x104, .word 0x08 0x100, .word 0x50 0x54, .activity, .mirror, .redNodes, .mbox, .ports, .staged, .recs, .hdr 0x58, .regs 0x93, .regs 0x91, .regs 0x38, .violations, .suspects, .hdr 0x28, .hdr 0x12, .gens, .spares, .probes, .chans, .hdr 0x93, .hdr 0x91, .hdr 0x38, .snuff, .hdr 0x61, .sinter, .regs 0x31, .word 0x40 0x54, .links, .bcasts] = true) 
    (ho : s0.onlyChanges s L) : s0.onlyChanges (State.frameIn s p) L := by
  unfold State.frameIn
  try dsimp only
  repeat' first
    | with_reducible assumption
    | (refine names_trans hL ?_
       try simp only [keyTypes, Nat.reduceMod]
       decide)
    | (refine names_trans hL ?_
       try simp only [keyTypes, Nat.reduceMod]
       refine names_trans (names_of_subset ?_) names_regs_word
       simp
       done)
    | (refine names_trans hL ?_
       refine names_trans (names_of_subset ?_) names_port_word
       simp
       done)
    | (refine names_trans hL ?_
       refine names_trans (names_of_subset ?_) names_port_hdr
       simp
       done)
    | with_reducible first
      | refine names_cons ?_ ?_
      | refine only_ite ?_ ?_
      | refine only_ite_snd ?_ ?_
      | refine only_ite_fst ?_ ?_
      | refine wakeSrc_only (hL := ?_) (ho := ?_)
      | refine busyNow_only (hL := ?_) (ho := ?_)
      | refine mirrorAcked_only (hL := ?_) (ho := ?_)
      | refine frameReceive_only (hL := ?_) (ho := ?_)
      | refine takeDownlink_only (hL := ?_) (ho := ?_)
    | split
    | dsimp only

theorem peerGone_only {s : State} {c : Nat} (hL : names L [.ports, .mbox, .host, .out, .tap, .proxies, .regs 0x93, .regs 0x91, .regs 0x38, .chans, .staged, .recs, .hdr 0x58, .violations, .suspects, .hdr 0x28, .hdr 0x12, .gens, .spares, .probes, .hdr 0x18, .links] = true) 
    (ho : s0.onlyChanges s L) : s0.onlyChanges (State.peerGone s c) L := by
  unfold State.peerGone
  try dsimp only
  repeat' first
    | with_reducible assumption
    | (refine names_trans hL ?_
       try simp only [keyTypes, Nat.reduceMod]
       decide)
    | (refine names_trans hL ?_
       try simp only [keyTypes, Nat.reduceMod]
       refine names_trans (names_of_subset ?_) names_regs_word
       simp
       done)
    | (refine names_trans hL ?_
       refine names_trans (names_of_subset ?_) names_port_word
       simp
       done)
    | with_reducible first
      | refine names_cons ?_ ?_
      | refine only_ite ?_ ?_
      | refine only_ite_snd ?_ ?_
      | refine only_ite_fst ?_ ?_
      | refine setQueue_only (hL := ?_) (ho := ?_)
      | refine retryWhere_only (hL := ?_) (ho := ?_)
      | refine bumpPort_only (hL := ?_) (ho := ?_)
      | refine resetChan_only (hL := ?_) (ho := ?_)
      | refine enqueue_only (hL := ?_) (ho := ?_)
      | refine holdOutputs_only (hL := ?_) (ho := ?_)
      | refine only_foldl (fun u x hu => ?_) ?_
      | refine only_foldl_snd (fun u x hu => ?_) ?_
      | refine only_foldl_fst (fun u x hu => ?_) ?_
    | split
    | dsimp only

theorem linkGoesUp_only {s : State} {p : Nat} (hL : names L [.ports, .word 0x38 0x44, .chans, .pkg, .links, .redNodes, .hdr 0x18, .staged, .recs, .hdr 0x58, .gens, .mirror, .mbox, .bcasts, .snuff, .tports, .evts, .clock, .relock, .cmds, .word 0x08 0x100, .hdr 0x30, .pps, .regs 0x18] = true) 
    (ho : s0.onlyChanges s L) : s0.onlyChanges (State.linkGoesUp s p) L := by
  unfold State.linkGoesUp
  try dsimp only
  repeat' first
    | with_reducible assumption
    | (refine names_trans hL ?_
       try simp only [keyTypes, Nat.reduceMod]
       decide)
    | (refine names_trans hL ?_
       try simp only [keyTypes, Nat.reduceMod]
       refine names_trans (names_of_subset ?_) names_regs_word
       simp
       done)
    | with_reducible first
      | refine names_cons ?_ ?_
      | refine only_ite ?_ ?_
      | refine only_ite_snd ?_ ?_
      | refine only_ite_fst ?_ ?_
      | refine modPort_only (hL := ?_) (ho := ?_)
      | refine setRegFld_only (hL := ?_) (ho := ?_)
      | refine pushCtl_only (hL := ?_) (ho := ?_)
      | refine modChan_only (hL := ?_) (ho := ?_)
      | refine redFlush_only (hL := ?_) (ho := ?_)
      | refine peerCheck_only (hL := ?_) (ho := ?_)
      | refine snuffLinkUp_only (hL := ?_) (ho := ?_)
      | refine bcastRepair_only (hL := ?_) (ho := ?_)
      | refine timeLinks_only (hL := ?_) (ho := ?_)
      | refine complete_only (hL := ?_) (ho := ?_)
      | refine only_foldl (fun u x hu => ?_) ?_
      | refine only_foldl_snd (fun u x hu => ?_) ?_
      | refine only_foldl_fst (fun u x hu => ?_) ?_
    | split
    | (with_reducible refine modLinks_only (z := [.ports, .chans, .links]) ?_ ?_ ?_ ?_ ?_ ?_ ?_
       · refine names_trans hL ?_
         first | decide | (refine names_of_subset ?_; simp; done)
       iterate 5 · first | with_reducible rfl | (intro _; with_reducible rfl) | exact fun h => not_free h rfl | (intro _; dsimp only; split <;> rfl) | exact rfl | exact fun _ => rfl)
    | (with_reducible refine only_pkg (z := [.pkg]) ?_ ?_ ?_
       · refine names_trans hL ?_
         first | decide | (refine names_of_subset ?_; simp; done)
       iterate 1 · first | with_reducible rfl | (intro _; with_reducible rfl) | exact fun h => not_free h rfl | (intro _; dsimp only; split <;> rfl) | exact rfl | exact fun _ => rfl)
    | dsimp only

theorem nakReset_only {s : State} {c : Nat} {m : LinkCtrl} (hL : names L (([.sinter, .mbox, .regs 0x93, .regs 0x91, .regs 0x38, .host, .out, .tap, .proxies, .ports, .chans, .links, .pkg, .hdr 0x93, .hdr 0x91, .hdr 0x38, .mirror, .gens, .jobs, .verify, .ringQ, .xfers, .word 0x40 0x6C, .svcNotices, .hdr 0x40, .redNodes, .hdr 0x18, .staged, .recs, .hdr 0x58, .tports, .evts, .clock, .relock, .cmds, .word 0x08 0x100, .hdr 0x30, .pps, .pace, .violations, .suspects, .hdr 0x28, .hdr 0x12, .spares, .probes, .linkKeys, .hdr 0x50, .word 0x50 0x5C, .peers, .snuff] : List Part) ++ ([.plans, .clusters, .watch, .bcasts, .regs 0x18] : List Part)) = true) 
    (ho : s0.onlyChanges s L) : s0.onlyChanges (State.nakReset s c m) L := by
  unfold State.nakReset
  try dsimp only
  repeat' first
    | with_reducible assumption
    | (refine names_trans hL ?_
       try simp only [keyTypes, Nat.reduceMod]
       decide)
    | (refine names_trans hL ?_
       try simp only [keyTypes, Nat.reduceMod]
       refine names_trans (names_of_subset ?_) names_regs_word
       simp
       done)
    | (refine names_trans hL ?_
       refine names_trans (names_of_subset ?_) names_port_word
       simp
       done)
    | (refine names_trans hL ?_
       refine names_trans (names_of_subset ?_) names_port_hdr
       simp
       done)
    | with_reducible first
      | refine names_cons ?_ ?_
      | refine only_ite ?_ ?_
      | refine only_ite_snd ?_ ?_
      | refine only_ite_fst ?_ ?_
      | refine resetPort_only (hL := ?_) (ho := ?_)
    | split
    | dsimp only

theorem deposed_only {s : State} {p : Nat} (hL : names L [.mirror, .gens, .jobs, .verify, .ringQ, .out, .xfers, .word 0x40 0x6C, .mbox, .svcNotices, .hdr 0x40, .redNodes, .hdr 0x18, .staged, .recs, .hdr 0x58, .tports, .evts, .clock, .relock, .cmds, .word 0x08 0x100, .hdr 0x30, .pps, .sinter, .regs 0x93, .regs 0x91, .regs 0x38, .host, .tap, .proxies, .ports, .chans, .regs 0x18] = true) 
    (ho : s0.onlyChanges s L) : s0.onlyChanges (State.deposed s p) L := by
  unfold State.deposed
  try dsimp only
  repeat' first
    | with_reducible assumption
    | (refine names_trans hL ?_
       try simp only [keyTypes, Nat.reduceMod]
       decide)
    | (refine names_trans hL ?_
       try simp only [keyTypes, Nat.reduceMod]
       refine names_trans (names_of_subset ?_) names_regs_word
       simp
       done)
    | (refine names_trans hL ?_
       refine names_trans (names_of_subset ?_) names_port_word
       simp
       done)
    | with_reducible first
      | refine names_cons ?_ ?_
      | refine only_ite ?_ ?_
      | refine only_ite_snd ?_ ?_
      | refine only_ite_fst ?_ ?_
      | refine peerCheck_only (hL := ?_) (ho := ?_)
      | refine stepRetry_only (hL := ?_) (ho := ?_)
      | refine resendPartials_only (hL := ?_) (ho := ?_)
      | refine timeLinks_only (hL := ?_) (ho := ?_)
      | refine moveMbox_only (hL := ?_) (ho := ?_)
      | refine moveFrames_only (hL := ?_) (ho := ?_)
    | split
    | dsimp only

theorem takenOver_only {s : State} {p : Nat} (hL : names L [.hdr 0x18, .links, .sinter, .mbox, .regs 0x93, .regs 0x91, .regs 0x38, .host, .out, .tap, .proxies, .ports, .chans, .pkg, .hdr 0x93, .hdr 0x91, .hdr 0x38, .mirror, .gens, .jobs, .verify, .ringQ, .xfers, .word 0x40 0x6C, .svcNotices, .hdr 0x40, .redNodes, .staged, .recs, .hdr 0x58, .tports, .evts, .clock, .relock, .cmds, .word 0x08 0x100, .hdr 0x30, .pps, .regs 0x18] = true) 
    (ho : s0.onlyChanges s L) : s0.onlyChanges (State.takenOver s p) L := by
  unfold State.takenOver
  try dsimp only
  repeat' first
    | with_reducible assumption
    | (refine names_trans hL ?_
       try simp only [keyTypes, Nat.reduceMod]
       decide)
    | (refine names_trans hL ?_
       try simp only [keyTypes, Nat.reduceMod]
       refine names_trans (names_of_subset ?_) names_regs_word
       simp
       done)
    | (refine names_trans hL ?_
       refine names_trans (names_of_subset ?_) names_port_word
       simp
       done)
    | (refine names_trans hL ?_
       refine names_trans (names_of_subset ?_) names_port_hdr
       simp
       done)
    | with_reducible first
      | refine names_cons ?_ ?_
      | refine only_ite ?_ ?_
      | refine only_ite_snd ?_ ?_
      | refine only_ite_fst ?_ ?_
      | refine holdOutputs_only (hL := ?_) (ho := ?_)
      | refine parentChange_only (hL := ?_) (ho := ?_)
      | refine complete_only (hL := ?_) (ho := ?_)
    | split
    | (with_reducible refine modLinks_only (z := [.links, .proxies, .ports, .chans]) ?_ ?_ ?_ ?_ ?_ ?_ ?_
       · refine names_trans hL ?_
         first | decide | (refine names_of_subset ?_; simp; done)
       iterate 5 · first | with_reducible rfl | (intro _; with_reducible rfl) | exact fun h => not_free h rfl | (intro _; dsimp only; split <;> rfl) | exact rfl | exact fun _ => rfl)
    | dsimp only

theorem parentSays_only {s : State} {p : Nat} {m : LinkCtrl} (hL : names L [.mirror, .gens, .jobs, .verify, .ringQ, .out, .xfers, .word 0x40 0x6C, .mbox, .svcNotices, .hdr 0x40, .redNodes, .hdr 0x18, .staged, .recs, .hdr 0x58, .tports, .evts, .clock, .relock, .cmds, .word 0x08 0x100, .hdr 0x30, .pps, .sinter, .regs 0x93, .regs 0x91, .regs 0x38, .host, .tap, .proxies, .ports, .chans, .pkg, .links, .hdr 0x93, .hdr 0x91, .hdr 0x38, .regs 0x18] = true) 
    (ho : s0.onlyChanges s L) : s0.onlyChanges (State.parentSays s p m) L := by
  unfold State.parentSays
  try dsimp only
  repeat' first
    | with_reducible assumption
    | (refine names_trans hL ?_
       try simp only [keyTypes, Nat.reduceMod]
       decide)
    | (refine names_trans hL ?_
       try simp only [keyTypes, Nat.reduceMod]
       refine names_trans (names_of_subset ?_) names_regs_word
       simp
       done)
    | (refine names_trans hL ?_
       refine names_trans (names_of_subset ?_) names_port_word
       simp
       done)
    | (refine names_trans hL ?_
       refine names_trans (names_of_subset ?_) names_port_hdr
       simp
       done)
    | with_reducible first
      | refine names_cons ?_ ?_
      | refine only_ite ?_ ?_
      | refine only_ite_snd ?_ ?_
      | refine only_ite_fst ?_ ?_
      | refine deposed_only (hL := ?_) (ho := ?_)
      | refine takenOver_only (hL := ?_) (ho := ?_)
      | refine parentChange_only (hL := ?_) (ho := ?_)
    | split
    | (with_reducible refine only_pkg (z := [.pkg]) ?_ ?_ ?_
       · refine names_trans hL ?_
         first | decide | (refine names_of_subset ?_; simp; done)
       iterate 1 · first | with_reducible rfl | (intro _; with_reducible rfl) | exact fun h => not_free h rfl | (intro _; dsimp only; split <;> rfl) | exact rfl | exact fun _ => rfl)
    | dsimp only

theorem quarantineLost_only {s : State} (hL : names L [.hdr 0x18, .links] = true) 
    (ho : s0.onlyChanges s L) : s0.onlyChanges (State.quarantineLost s) L := by
  unfold State.quarantineLost
  try dsimp only
  repeat' first
    | with_reducible assumption
    | (refine names_trans hL ?_
       try simp only [keyTypes, Nat.reduceMod]
       decide)
    | with_reducible first
      | refine names_cons ?_ ?_
      | refine only_ite ?_ ?_
      | refine only_ite_snd ?_ ?_
      | refine only_ite_fst ?_ ?_
      | refine holdOutputs_only (hL := ?_) (ho := ?_)
    | split
    | dsimp only

theorem execFrameReceive_only (port : Nat) (s : State) : ∃ st', execFrameReceive port s = .next st' ∧ s.onlyChanges st' [.out, .xfers, .lines, .inj, .power, .bpwr, .cmds, .word 0x08 0x104, .word 0x08 0x100, .word 0x50 0x54, .activity, .mirror, .redNodes, .mbox, .ports, .staged, .recs, .hdr 0x58, .regs 0x93, .regs 0x91, .regs 0x38, .violations, .suspects, .hdr 0x28, .hdr 0x12, .gens, .spares, .probes, .chans, .hdr 0x93, .hdr 0x91, .hdr 0x38, .snuff, .hdr 0x61, .sinter, .regs 0x31, .word 0x40 0x54, .links, .bcasts] := by
  refine ⟨_, rfl, only_start fun hL h0 => ?_⟩
  refine settle_only (names_of_subset (by simp)) ?_
  repeat' first
    | with_reducible first
      | exact h0
      | assumption
    | (refine names_trans hL ?_
       try simp only [keyTypes, Nat.reduceMod]
       decide)
    | (refine names_trans hL ?_
       try simp only [keyTypes, Nat.reduceMod]
       refine names_trans (names_of_subset ?_) names_regs_word
       simp
       done)
    | (refine names_trans hL ?_
       refine names_trans (names_of_subset ?_) names_port_word
       simp
       done)
    | (refine names_trans hL ?_
       refine names_trans (names_of_subset ?_) names_port_hdr
       simp
       done)
    | with_reducible first
      | refine names_cons ?_ ?_
      | refine only_ite ?_ ?_
      | refine only_ite_snd ?_ ?_
      | refine only_ite_fst ?_ ?_
      | refine frameIn_only (hL := ?_) (ho := ?_)
    | split
    | dsimp only

theorem execParentChange_only (port : Nat) (s : State) : ∃ st', execParentChange port s = .next st' ∧ s.onlyChanges st' [.out, .xfers, .lines, .inj, .sinter, .mbox, .regs 0x93, .regs 0x91, .regs 0x38, .host, .tap, .proxies, .ports, .chans, .links, .pkg, .hdr 0x93, .hdr 0x91, .hdr 0x38, .mirror, .gens, .jobs, .verify, .ringQ, .word 0x40 0x6C, .svcNotices, .hdr 0x40, .redNodes, .hdr 0x18, .staged, .recs, .hdr 0x58, .tports, .evts, .clock, .relock, .cmds, .word 0x08 0x100, .hdr 0x30, .pps, .regs 0x18] := by
  refine ⟨_, rfl, only_start fun hL h0 => ?_⟩
  refine settle_only (names_of_subset (by simp)) ?_
  repeat' first
    | with_reducible first
      | exact h0
      | assumption
    | (refine names_trans hL ?_
       try simp only [keyTypes, Nat.reduceMod]
       decide)
    | (refine names_trans hL ?_
       try simp only [keyTypes, Nat.reduceMod]
       refine names_trans (names_of_subset ?_) names_regs_word
       simp
       done)
    | (refine names_trans hL ?_
       refine names_trans (names_of_subset ?_) names_port_word
       simp
       done)
    | (refine names_trans hL ?_
       refine names_trans (names_of_subset ?_) names_port_hdr
       simp
       done)
    | with_reducible first
      | refine names_cons ?_ ?_
      | refine only_ite ?_ ?_
      | refine only_ite_snd ?_ ?_
      | refine only_ite_fst ?_ ?_
      | refine parentChange_only (hL := ?_) (ho := ?_)
    | split
    | dsimp only

theorem execPartnerLost_only (chan : Nat) (phy : Bool) (s : State) : ∃ st', execPartnerLost chan phy s = .next st' ∧ s.onlyChanges st' (([.out, .xfers, .lines, .inj, .now, .pace, .regs 0x93, .regs 0x91, .regs 0x38, .mbox, .host, .tap, .proxies, .ports, .chans, .staged, .recs, .hdr 0x58, .violations, .suspects, .hdr 0x28, .hdr 0x12, .gens, .spares, .probes, .linkKeys, .hdr 0x50, .word 0x50 0x5C, .links, .peers, .sinter, .tports, .evts, .clock, .relock, .cmds, .word 0x08 0x100, .hdr 0x30, .pps, .hdr 0x93, .hdr 0x91, .hdr 0x38, .snuff, .hdr 0x18, .plans, .mirror, .redNodes, .clusters, .watch, .jobs] : List Part) ++ ([.bcasts] : List Part)) := by
  refine ⟨_, rfl, only_start fun hL h0 => ?_⟩
  refine settle_only (names_of_subset (by simp)) ?_
  repeat' first
    | with_reducible first
      | exact h0
      | assumption
    | (refine names_trans hL ?_
       try simp only [keyTypes, Nat.reduceMod]
       decide)
    | (refine names_trans hL ?_
       try simp only [keyTypes, Nat.reduceMod]
       refine names_trans (names_of_subset ?_) names_regs_word
       simp
       done)
    | (refine names_trans hL ?_
       refine names_trans (names_of_subset ?_) names_port_word
       simp
       done)
    | (refine names_trans hL ?_
       refine names_trans (names_of_subset ?_) names_port_hdr
       simp
       done)
    | with_reducible first
      | refine names_cons ?_ ?_
      | refine only_ite ?_ ?_
      | refine only_ite_snd ?_ ?_
      | refine only_ite_fst ?_ ?_
      | refine advanceTo_only (hL := ?_) (ho := ?_)
      | refine portGone_only (hL := ?_) (ho := ?_)
      | refine peerGone_only (hL := ?_) (ho := ?_)
    | split
    | dsimp only

theorem execLinkUp_only (port : Nat) (s : State) : ∃ st', execLinkUp port s = .next st' ∧ s.onlyChanges st' [.out, .xfers, .lines, .inj, .ports, .word 0x38 0x44, .chans, .pkg, .links, .redNodes, .hdr 0x18, .staged, .recs, .hdr 0x58, .gens, .mirror, .mbox, .bcasts, .snuff, .tports, .evts, .clock, .relock, .cmds, .word 0x08 0x100, .hdr 0x30, .pps, .regs 0x18] := by
  refine ⟨_, rfl, only_start fun hL h0 => ?_⟩
  refine settle_only (names_of_subset (by simp)) ?_
  repeat' first
    | with_reducible first
      | exact h0
      | assumption
    | (refine names_trans hL ?_
       try simp only [keyTypes, Nat.reduceMod]
       decide)
    | (refine names_trans hL ?_
       try simp only [keyTypes, Nat.reduceMod]
       refine names_trans (names_of_subset ?_) names_regs_word
       simp
       done)
    | with_reducible first
      | refine names_cons ?_ ?_
      | refine only_ite ?_ ?_
      | refine only_ite_snd ?_ ?_
      | refine only_ite_fst ?_ ?_
      | refine linkGoesUp_only (hL := ?_) (ho := ?_)
    | split
    | dsimp only

theorem execTrainTimeout_only (port : Nat) (s : State) : ∃ st', execTrainTimeout port s = .next st' ∧ s.onlyChanges st' [.out, .xfers, .lines, .inj, .staged, .recs, .hdr 0x58, .ports, .cmds] := by
  refine ⟨_, rfl, only_start fun hL h0 => ?_⟩
  refine settle_only (names_of_subset (by simp)) ?_
  repeat' first
    | with_reducible first
      | exact h0
      | assumption
    | (refine names_trans hL ?_
       try simp only [keyTypes, Nat.reduceMod]
       decide)
    | with_reducible first
      | refine names_cons ?_ ?_
      | refine only_ite ?_ ?_
      | refine only_ite_snd ?_ ?_
      | refine only_ite_fst ?_ ?_
      | refine linkLog_only (hL := ?_) (ho := ?_)
      | refine modPort_only (hL := ?_) (ho := ?_)
      | refine complete_only (hL := ?_) (ho := ?_)
      | refine startTraining_only (hL := ?_) (ho := ?_)
      | refine only_foldl (fun u x hu => ?_) ?_
      | refine only_foldl_snd (fun u x hu => ?_) ?_
      | refine only_foldl_fst (fun u x hu => ?_) ?_
    | split
    | dsimp only

theorem execUcieActiveChange_only (port : Nat) (active : Bool) (s : State) : ∃ st', execUcieActiveChange port active s = .next st' ∧ s.onlyChanges st' [.out, .xfers, .lines, .inj, .ports, .pace, .regs 0x93, .regs 0x91, .regs 0x38, .mbox, .host, .tap, .proxies, .chans, .staged, .recs, .hdr 0x58, .violations, .suspects, .hdr 0x28, .hdr 0x12, .gens, .spares, .probes, .linkKeys, .hdr 0x50, .word 0x50 0x5C, .links, .peers, .sinter, .tports, .evts, .clock, .relock, .cmds, .word 0x08 0x100, .hdr 0x30, .pps, .hdr 0x93, .hdr 0x91, .hdr 0x38, .snuff, .hdr 0x18, .plans, .mirror, .redNodes, .clusters, .watch, .jobs, .bcasts] := by
  refine ⟨_, rfl, only_start fun hL h0 => ?_⟩
  refine settle_only (names_of_subset (by simp)) ?_
  repeat' first
    | with_reducible first
      | exact h0
      | assumption
    | (refine names_trans hL ?_
       try simp only [keyTypes, Nat.reduceMod]
       decide)
    | (refine names_trans hL ?_
       try simp only [keyTypes, Nat.reduceMod]
       refine names_trans (names_of_subset ?_) names_regs_word
       simp
       done)
    | (refine names_trans hL ?_
       refine names_trans (names_of_subset ?_) names_port_word
       simp
       done)
    | (refine names_trans hL ?_
       refine names_trans (names_of_subset ?_) names_port_hdr
       simp
       done)
    | with_reducible first
      | refine names_cons ?_ ?_
      | refine only_ite ?_ ?_
      | refine only_ite_snd ?_ ?_
      | refine only_ite_fst ?_ ?_
      | refine modPort_only (hL := ?_) (ho := ?_)
      | refine startTraining_only (hL := ?_) (ho := ?_)
      | refine portGone_only (hL := ?_) (ho := ?_)
    | split
    | dsimp only

theorem execLinkResetEvent_only (port : Nat) (s : State) : ∃ st', execLinkResetEvent port s = .next st' ∧ s.onlyChanges st' (([.out, .xfers, .lines, .inj, .sinter, .mbox, .regs 0x93, .regs 0x91, .regs 0x38, .host, .tap, .proxies, .ports, .chans, .links, .pkg, .hdr 0x93, .hdr 0x91, .hdr 0x38, .mirror, .gens, .jobs, .verify, .ringQ, .word 0x40 0x6C, .svcNotices, .hdr 0x40, .redNodes, .hdr 0x18, .staged, .recs, .hdr 0x58, .tports, .evts, .clock, .relock, .cmds, .word 0x08 0x100, .hdr 0x30, .pps, .pace, .violations, .suspects, .hdr 0x28, .hdr 0x12, .spares, .probes, .linkKeys, .hdr 0x50, .word 0x50 0x5C] : List Part) ++ ([.peers, .snuff, .plans, .clusters, .watch, .bcasts, .regs 0x18] : List Part)) := by
  refine ⟨_, rfl, only_start fun hL h0 => ?_⟩
  refine settle_only (names_of_subset (by simp)) ?_
  repeat' first
    | with_reducible first
      | exact h0
      | assumption
    | (refine names_trans hL ?_
       try simp only [keyTypes, Nat.reduceMod]
       decide)
    | (refine names_trans hL ?_
       try simp only [keyTypes, Nat.reduceMod]
       refine names_trans (names_of_subset ?_) names_regs_word
       simp
       done)
    | (refine names_trans hL ?_
       refine names_trans (names_of_subset ?_) names_port_word
       simp
       done)
    | (refine names_trans hL ?_
       refine names_trans (names_of_subset ?_) names_port_hdr
       simp
       done)
    | with_reducible first
      | refine names_cons ?_ ?_
      | refine only_ite ?_ ?_
      | refine only_ite_snd ?_ ?_
      | refine only_ite_fst ?_ ?_
      | refine resetPort_only (hL := ?_) (ho := ?_)
    | split
    | dsimp only

theorem execLinkCtrl_only (chan : Nat) (dst ack : BitVec 16) (m : LinkCtrl) (s : State) : ∃ st', execLinkCtrl chan dst ack m s = .next st' ∧ s.onlyChanges st' (([.out, .xfers, .lines, .inj, .cmds, .links, .chans, .mirror, .gens, .jobs, .verify, .ringQ, .word 0x40 0x6C, .mbox, .svcNotices, .hdr 0x40, .redNodes, .hdr 0x18, .staged, .recs, .hdr 0x58, .tports, .evts, .clock, .relock, .word 0x08 0x100, .hdr 0x30, .pps, .sinter, .regs 0x93, .regs 0x91, .regs 0x38, .host, .tap, .proxies, .ports, .pkg, .hdr 0x93, .hdr 0x91, .hdr 0x38, .pace, .violations, .suspects, .hdr 0x28, .hdr 0x12, .spares, .probes, .linkKeys, .hdr 0x50, .word 0x50 0x5C] : List Part) ++ ([.peers, .snuff, .plans, .clusters, .watch, .bcasts, .regs 0x18] : List Part)) := by
  refine ⟨_, rfl, only_start fun hL h0 => ?_⟩
  refine settle_only (names_of_subset (by simp)) ?_
  repeat' first
    | with_reducible first
      | exact h0
      | assumption
    | (refine names_trans hL ?_
       try simp only [keyTypes, Nat.reduceMod]
       decide)
    | (refine names_trans hL ?_
       try simp only [keyTypes, Nat.reduceMod]
       refine names_trans (names_of_subset ?_) names_regs_word
       simp
       done)
    | (refine names_trans hL ?_
       refine names_trans (names_of_subset ?_) names_port_word
       simp
       done)
    | (refine names_trans hL ?_
       refine names_trans (names_of_subset ?_) names_port_hdr
       simp
       done)
    | with_reducible first
      | refine names_cons ?_ ?_
      | refine only_ite ?_ ?_
      | refine only_ite_snd ?_ ?_
      | refine only_ite_fst ?_ ?_
      | refine swapCheck_only (hL := ?_) (ho := ?_)
      | refine parentSays_only (hL := ?_) (ho := ?_)
      | refine mirrorAcked_only (hL := ?_) (ho := ?_)
      | refine nakReset_only (hL := ?_) (ho := ?_)
      | refine linkCtrl_only (hL := ?_) (ho := ?_)
    | split
    | dsimp only

theorem execLaneFail_only (port lane : Nat) (s : State) : ∃ st', execLaneFail port lane s = .next st' ∧ s.onlyChanges st' (([.out, .xfers, .lines, .inj, .pace, .regs 0x93, .regs 0x91, .regs 0x38, .mbox, .host, .tap, .proxies, .ports, .chans, .staged, .recs, .hdr 0x58, .violations, .suspects, .hdr 0x28, .hdr 0x12, .gens, .spares, .probes, .linkKeys, .hdr 0x50, .word 0x50 0x5C, .links, .peers, .sinter, .tports, .evts, .clock, .relock, .cmds, .word 0x08 0x100, .hdr 0x30, .pps, .hdr 0x93, .hdr 0x91, .hdr 0x38, .snuff, .hdr 0x18, .plans, .mirror, .redNodes, .clusters, .watch, .jobs, .bcasts] : List Part) ++ ([.pkg, .verify, .ringQ, .word 0x40 0x6C, .svcNotices, .hdr 0x40, .regs 0x18] : List Part)) := by
  refine ⟨_, rfl, only_start fun hL h0 => ?_⟩
  refine settle_only (names_of_subset (by simp)) ?_
  repeat' first
    | with_reducible first
      | exact h0
      | assumption
    | (refine names_trans hL ?_
       try simp only [keyTypes, Nat.reduceMod]
       decide)
    | (refine names_trans hL ?_
       try simp only [keyTypes, Nat.reduceMod]
       refine names_trans (names_of_subset ?_) names_regs_word
       simp
       done)
    | (refine names_trans hL ?_
       refine names_trans (names_of_subset ?_) names_port_word
       simp
       done)
    | (refine names_trans hL ?_
       refine names_trans (names_of_subset ?_) names_port_hdr
       simp
       done)
    | with_reducible first
      | refine names_cons ?_ ?_
      | refine only_ite ?_ ?_
      | refine only_ite_snd ?_ ?_
      | refine only_ite_fst ?_ ?_
      | refine settleLink_only (hL := ?_) (ho := ?_)
      | refine laneFail_only (hL := ?_) (ho := ?_)
    | split
    | dsimp only

theorem execSwapRepeat_only (port : Nat) (s : State) : ∃ st', execSwapRepeat port s = .next st' ∧ s.onlyChanges st' (([.out, .xfers, .lines, .inj, .pace, .regs 0x93, .regs 0x91, .regs 0x38, .mbox, .host, .tap, .proxies, .ports, .chans, .staged, .recs, .hdr 0x58, .violations, .suspects, .hdr 0x28, .hdr 0x12, .gens, .spares, .probes, .linkKeys, .hdr 0x50, .word 0x50 0x5C, .links, .peers, .sinter, .tports, .evts, .clock, .relock, .cmds, .word 0x08 0x100, .hdr 0x30, .pps, .hdr 0x93, .hdr 0x91, .hdr 0x38, .snuff, .hdr 0x18, .plans, .mirror, .redNodes, .clusters, .watch, .jobs, .bcasts] : List Part) ++ ([.pkg, .verify, .ringQ, .word 0x40 0x6C, .svcNotices, .hdr 0x40, .regs 0x18] : List Part)) := by
  refine ⟨_, rfl, only_start fun hL h0 => ?_⟩
  refine settle_only (names_of_subset (by simp)) ?_
  repeat' first
    | with_reducible first
      | exact h0
      | assumption
    | (refine names_trans hL ?_
       try simp only [keyTypes, Nat.reduceMod]
       decide)
    | (refine names_trans hL ?_
       try simp only [keyTypes, Nat.reduceMod]
       refine names_trans (names_of_subset ?_) names_regs_word
       simp
       done)
    | (refine names_trans hL ?_
       refine names_trans (names_of_subset ?_) names_port_word
       simp
       done)
    | (refine names_trans hL ?_
       refine names_trans (names_of_subset ?_) names_port_hdr
       simp
       done)
    | with_reducible first
      | refine names_cons ?_ ?_
      | refine only_ite ?_ ?_
      | refine only_ite_snd ?_ ?_
      | refine only_ite_fst ?_ ?_
      | refine settleLink_only (hL := ?_) (ho := ?_)
      | refine modPort_only (hL := ?_) (ho := ?_)
      | refine sendSwap_only (hL := ?_) (ho := ?_)
    | split
    | dsimp only

theorem execCodewordReceive_only (port : Nat) (lanes : List (List Byte)) (s : State) : ∃ st', execCodewordReceive port lanes s = .next st' ∧ s.onlyChanges st' (([.out, .xfers, .lines, .inj, .pace, .regs 0x93, .regs 0x91, .regs 0x38, .mbox, .host, .tap, .proxies, .ports, .chans, .staged, .recs, .hdr 0x58, .violations, .suspects, .hdr 0x28, .hdr 0x12, .gens, .spares, .probes, .linkKeys, .hdr 0x50, .word 0x50 0x5C, .links, .peers, .sinter, .tports, .evts, .clock, .relock, .cmds, .word 0x08 0x100, .hdr 0x30, .pps, .hdr 0x93, .hdr 0x91, .hdr 0x38, .snuff, .hdr 0x18, .plans, .mirror, .redNodes, .clusters, .watch, .jobs, .bcasts] : List Part) ++ ([.pkg, .verify, .ringQ, .word 0x40 0x6C, .svcNotices, .hdr 0x40, .regs 0x18] : List Part)) := by
  refine ⟨_, rfl, only_start fun hL h0 => ?_⟩
  refine settle_only (names_of_subset (by simp)) ?_
  repeat' first
    | with_reducible first
      | exact h0
      | assumption
    | (refine names_trans hL ?_
       try simp only [keyTypes, Nat.reduceMod]
       decide)
    | (refine names_trans hL ?_
       try simp only [keyTypes, Nat.reduceMod]
       refine names_trans (names_of_subset ?_) names_regs_word
       simp
       done)
    | (refine names_trans hL ?_
       refine names_trans (names_of_subset ?_) names_port_word
       simp
       done)
    | (refine names_trans hL ?_
       refine names_trans (names_of_subset ?_) names_port_hdr
       simp
       done)
    | with_reducible first
      | refine names_cons ?_ ?_
      | refine only_ite ?_ ?_
      | refine only_ite_snd ?_ ?_
      | refine only_ite_fst ?_ ?_
      | refine settleLink_only (hL := ?_) (ho := ?_)
      | refine codeword_only (hL := ?_) (ho := ?_)
    | split
    | dsimp only

theorem execAlignmentMarker_only (port : Nat) (lanes : List (List Byte)) (s : State) : ∃ st', execAlignmentMarker port lanes s = .next st' ∧ s.onlyChanges st' (([.out, .xfers, .lines, .inj, .ports, .pace, .regs 0x93, .regs 0x91, .regs 0x38, .mbox, .host, .tap, .proxies, .chans, .staged, .recs, .hdr 0x58, .violations, .suspects, .hdr 0x28, .hdr 0x12, .gens, .spares, .probes, .linkKeys, .hdr 0x50, .word 0x50 0x5C, .links, .peers, .sinter, .tports, .evts, .clock, .relock, .cmds, .word 0x08 0x100, .hdr 0x30, .pps, .hdr 0x93, .hdr 0x91, .hdr 0x38, .snuff, .hdr 0x18, .plans, .mirror, .redNodes, .clusters, .watch, .jobs, .bcasts] : List Part) ++ ([.pkg, .verify, .ringQ, .word 0x40 0x6C, .svcNotices, .hdr 0x40, .regs 0x18] : List Part)) := by
  refine ⟨_, rfl, only_start fun hL h0 => ?_⟩
  refine settle_only (names_of_subset (by simp)) ?_
  repeat' first
    | with_reducible first
      | exact h0
      | assumption
    | (refine names_trans hL ?_
       try simp only [keyTypes, Nat.reduceMod]
       decide)
    | (refine names_trans hL ?_
       try simp only [keyTypes, Nat.reduceMod]
       refine names_trans (names_of_subset ?_) names_regs_word
       simp
       done)
    | (refine names_trans hL ?_
       refine names_trans (names_of_subset ?_) names_port_word
       simp
       done)
    | (refine names_trans hL ?_
       refine names_trans (names_of_subset ?_) names_port_hdr
       simp
       done)
    | with_reducible first
      | refine names_cons ?_ ?_
      | refine only_ite ?_ ?_
      | refine only_ite_snd ?_ ?_
      | refine only_ite_fst ?_ ?_
      | refine modPort_only (hL := ?_) (ho := ?_)
      | refine settleLink_only (hL := ?_) (ho := ?_)
      | refine laneFail_only (hL := ?_) (ho := ?_)
      | refine only_foldl (fun u x hu => ?_) ?_
      | refine only_foldl_snd (fun u x hu => ?_) ?_
      | refine only_foldl_fst (fun u x hu => ?_) ?_
    | split
    | dsimp only

theorem execNotSynced_only (s : State) : ∃ st', execNotSynced s = .next st' ∧ s.onlyChanges st' [.out, .xfers, .lines, .inj, .cmds, .links, .chans, .now] := by
  refine ⟨_, rfl, only_start fun hL h0 => ?_⟩
  refine settle_only (names_of_subset (by simp)) ?_
  repeat' first
    | with_reducible first
      | exact h0
      | assumption
    | (refine names_trans hL ?_
       try simp only [keyTypes, Nat.reduceMod]
       decide)
    | with_reducible first
      | refine names_cons ?_ ?_
      | refine only_ite ?_ ?_
      | refine only_ite_snd ?_ ?_
      | refine only_ite_fst ?_ ?_
      | refine swapCheck_only (hL := ?_) (ho := ?_)
      | refine complete_only (hL := ?_) (ho := ?_)
      | refine advanceTo_only (hL := ?_) (ho := ?_)
    | split
    | (with_reducible refine modLinks_only (z := [.links, .chans]) ?_ ?_ ?_ ?_ ?_ ?_ ?_
       · refine names_trans hL ?_
         first | decide | (refine names_of_subset ?_; simp; done)
       iterate 5 · first | with_reducible rfl | (intro _; with_reducible rfl) | exact fun h => not_free h rfl | (intro _; dsimp only; split <;> rfl) | exact rfl | exact fun _ => rfl)
    | dsimp only

/-! Levels -/

theorem elect_only {s : State} {rs : List DieReport} (hL : names L [.pkg, .staged, .recs, .hdr 0x58, .redNodes, .hdr 0x18, .gens, .mirror, .mbox, .tports, .evts, .clock, .relock, .cmds, .word 0x08 0x100, .hdr 0x30, .pps, .regs 0x18] = true) 
    (ho : s0.onlyChanges s L) : s0.onlyChanges (State.elect s rs) L := by
  unfold State.elect
  try dsimp only
  repeat' first
    | with_reducible assumption
    | (refine names_trans hL ?_
       try simp only [keyTypes, Nat.reduceMod]
       decide)
    | (refine names_trans hL ?_
       try simp only [keyTypes, Nat.reduceMod]
       refine names_trans (names_of_subset ?_) names_regs_word
       simp
       done)
    | with_reducible first
      | refine names_cons ?_ ?_
      | refine only_ite ?_ ?_
      | refine only_ite_snd ?_ ?_
      | refine only_ite_fst ?_ ?_
      | refine log_only (hL := ?_) (ho := ?_)
      | refine redFlush_only (hL := ?_) (ho := ?_)
      | refine peerCheck_only (hL := ?_) (ho := ?_)
      | refine timeLinks_only (hL := ?_) (ho := ?_)
      | refine complete_only (hL := ?_) (ho := ?_)
      | refine only_foldl (fun u x hu => ?_) ?_
      | refine only_foldl_snd (fun u x hu => ?_) ?_
      | refine only_foldl_fst (fun u x hu => ?_) ?_
    | split
    | (with_reducible refine only_pkg (z := [.pkg]) ?_ ?_ ?_
       · refine names_trans hL ?_
         first | decide | (refine names_of_subset ?_; simp; done)
       iterate 1 · first | with_reducible rfl | (intro _; with_reducible rfl) | exact fun h => not_free h rfl | (intro _; dsimp only; split <;> rfl) | exact rfl | exact fun _ => rfl)
    | dsimp only

theorem headTick_only {s : State} (hL : names L [.pkg] = true) 
    (ho : s0.onlyChanges s L) : s0.onlyChanges (State.headTick s) L := by
  unfold State.headTick
  try dsimp only
  repeat' first
    | with_reducible assumption
    | (refine names_trans hL ?_
       try simp only [keyTypes, Nat.reduceMod]
       decide)
    | with_reducible first
      | refine names_cons ?_ ?_
      | refine only_ite ?_ ?_
      | refine only_ite_snd ?_ ?_
      | refine only_ite_fst ?_ ?_
    | split
    | (with_reducible refine only_pkg (z := [.pkg]) ?_ ?_ ?_
       · refine names_trans hL ?_
         first | decide | (refine names_of_subset ?_; simp; done)
       iterate 1 · first | with_reducible rfl | (intro _; with_reducible rfl) | exact fun h => not_free h rfl | (intro _; dsimp only; split <;> rfl) | exact rfl | exact fun _ => rfl)
    | dsimp only

theorem becomeHead_only {s : State} {old : BitVec 3} (hL : names L [.sinter, .mbox, .regs 0x93, .regs 0x91, .regs 0x38, .host, .out, .tap, .proxies, .ports, .chans, .pkg, .hdr 0x93, .hdr 0x91, .hdr 0x38, .redNodes, .probes, .clusters, .clock, .watch, .jobs, .spares, .plans, .bcasts, .mirror, .gens, .verify, .ringQ, .xfers, .word 0x40 0x6C, .svcNotices, .hdr 0x40, .hdr 0x18, .staged, .recs, .hdr 0x58, .tports, .evts, .relock, .cmds, .word 0x08 0x100, .hdr 0x30, .pps, .regs 0x18] = true) 
    (ho : s0.onlyChanges s L) : s0.onlyChanges (State.becomeHead s old) L := by
  unfold State.becomeHead
  try dsimp only
  repeat' first
    | with_reducible assumption
    | (refine names_trans hL ?_
       try simp only [keyTypes, Nat.reduceMod]
       decide)
    | (refine names_trans hL ?_
       try simp only [keyTypes, Nat.reduceMod]
       refine names_trans (names_of_subset ?_) names_regs_word
       simp
       done)
    | (refine names_trans hL ?_
       refine names_trans (names_of_subset ?_) names_port_word
       simp
       done)
    | (refine names_trans hL ?_
       refine names_trans (names_of_subset ?_) names_port_hdr
       simp
       done)
    | with_reducible first
      | refine names_cons ?_ ?_
      | refine only_ite ?_ ?_
      | refine only_ite_snd ?_ ?_
      | refine only_ite_fst ?_ ?_
      | refine moveMbox_only (hL := ?_) (ho := ?_)
      | refine moveFrames_only (hL := ?_) (ho := ?_)
      | refine portErr_only (hL := ?_) (ho := ?_)
      | refine takeReplica_only (hL := ?_) (ho := ?_)
      | refine pushCtl_only (hL := ?_) (ho := ?_)
      | refine bcastRepair_only (hL := ?_) (ho := ?_)
      | refine peerCheck_only (hL := ?_) (ho := ?_)
      | refine stepRetry_only (hL := ?_) (ho := ?_)
      | refine resendPartials_only (hL := ?_) (ho := ?_)
      | refine timeLinks_only (hL := ?_) (ho := ?_)
      | refine only_foldl (fun u x hu => ?_) ?_
      | refine only_foldl_snd (fun u x hu => ?_) ?_
      | refine only_foldl_fst (fun u x hu => ?_) ?_
    | split
    | (with_reducible refine only_pkg (z := [.pkg]) ?_ ?_ ?_
       · refine names_trans hL ?_
         first | decide | (refine names_of_subset ?_; simp; done)
       iterate 1 · first | with_reducible rfl | (intro _; with_reducible rfl) | exact fun h => not_free h rfl | (intro _; dsimp only; split <;> rfl) | exact rfl | exact fun _ => rfl)
    | dsimp only

theorem headLost_only {s : State} {h : BitVec 3} (hL : names L [.mbox, .host, .out, .tap, .proxies, .pkg, .staged, .recs, .hdr 0x58, .sinter, .regs 0x93, .regs 0x91, .regs 0x38, .ports, .chans, .hdr 0x93, .hdr 0x91, .hdr 0x38, .redNodes, .probes, .clusters, .clock, .watch, .jobs, .spares, .plans, .bcasts, .mirror, .gens, .verify, .ringQ, .xfers, .word 0x40 0x6C, .svcNotices, .hdr 0x40, .hdr 0x18, .tports, .evts, .relock, .cmds, .word 0x08 0x100, .hdr 0x30, .pps, .links, .regs 0x18] = true) 
    (ho : s0.onlyChanges s L) : s0.onlyChanges (State.headLost s h) L := by
  unfold State.headLost
  try dsimp only
  repeat' first
    | with_reducible assumption
    | (refine names_trans hL ?_
       try simp only [keyTypes, Nat.reduceMod]
       decide)
    | (refine names_trans hL ?_
       try simp only [keyTypes, Nat.reduceMod]
       refine names_trans (names_of_subset ?_) names_regs_word
       simp
       done)
    | (refine names_trans hL ?_
       refine names_trans (names_of_subset ?_) names_port_word
       simp
       done)
    | (refine names_trans hL ?_
       refine names_trans (names_of_subset ?_) names_port_hdr
       simp
       done)
    | with_reducible first
      | refine names_cons ?_ ?_
      | refine only_ite ?_ ?_
      | refine only_ite_snd ?_ ?_
      | refine only_ite_fst ?_ ?_
      | refine retryProxies_only (hL := ?_) (ho := ?_)
      | refine replaceTray_only (hL := ?_) (ho := ?_)
      | refine becomeHead_only (hL := ?_) (ho := ?_)
      | refine parentChange_only (hL := ?_) (ho := ?_)
    | split
    | (with_reducible refine only_pkg (z := [.pkg]) ?_ ?_ ?_
       · refine names_trans hL ?_
         first | decide | (refine names_of_subset ?_; simp; done)
       iterate 1 · first | with_reducible rfl | (intro _; with_reducible rfl) | exact fun h => not_free h rfl | (intro _; dsimp only; split <;> rfl) | exact rfl | exact fun _ => rfl)
    | dsimp only

theorem paceFault_only {s : State} {b : Nat} (hL : names L [.word 0x02 0x5C] = true) 
    (ho : s0.onlyChanges s L) : s0.onlyChanges (State.paceFault s b) L := by
  unfold State.paceFault
  try dsimp only
  repeat' first
    | with_reducible assumption
    | (refine names_trans hL ?_
       try simp only [keyTypes, Nat.reduceMod]
       decide)
    | with_reducible first
      | refine names_cons ?_ ?_
      | refine only_ite ?_ ?_
      | refine only_ite_snd ?_ ?_
      | refine only_ite_fst ?_ ?_
      | refine setReg_only (hL := ?_) (h := ?_)
    | split
    | dsimp only

theorem gatesStuck_only {s : State} {p : Nat} (hL : names L [.hdr 0x61, .snuff, .probes, .kats, .suspects, .staged, .recs, .hdr 0x58, .hdr 0x28, .hdr 0x12, .gens, .spares, .notices, .ringQ, .out, .xfers, .mbox, .word 0x28 0xC4, .cmds, .violations, .word 0x08 0x100] = true) 
    (ho : s0.onlyChanges s L) : s0.onlyChanges (State.gatesStuck s p) L := by
  unfold State.gatesStuck
  try dsimp only
  repeat' first
    | with_reducible assumption
    | (refine names_trans hL ?_
       try simp only [keyTypes, Nat.reduceMod]
       decide)
    | with_reducible first
      | refine names_cons ?_ ?_
      | refine only_ite ?_ ?_
      | refine only_ite_snd ?_ ?_
      | refine only_ite_fst ?_ ?_
      | refine stopNoAck_only (hL := ?_) (ho := ?_)
      | refine lowerGate_only (hL := ?_) (ho := ?_)
      | refine katFail_only (hL := ?_) (ho := ?_)
      | refine ackFalls_only (hL := ?_) (ho := ?_)
      | refine only_foldl (fun u x hu => ?_) ?_
      | refine only_foldl_snd (fun u x hu => ?_) ?_
      | refine only_foldl_fst (fun u x hu => ?_) ?_
    | split
    | (with_reducible refine modCheck_only (z := [.kats, .suspects, .spares, .notices, .violations]) ?_ ?_ ?_ ?_ ?_ ?_ ?_ ?_ ?_
       · refine names_trans hL ?_
         first | decide | (refine names_of_subset ?_; simp; done)
       iterate 7 · first | with_reducible rfl | (intro _; with_reducible rfl) | exact fun h => not_free h rfl | (intro _; dsimp only; split <;> rfl) | exact rfl | exact fun _ => rfl)
    | dsimp only

theorem hmFailAll_only {s : State} (hL : names L [.out, .xfers, .cmds, .gens, .meas, .redNodes, .engines, .ftab, .sinter, .staged, .recs, .log, .plans, .mbox, .kernels, .allHdrs, .allRegs, .tables, .trace, .inj, .rings, .ringQ, .geyser, .grid, .clock, .ports, .peers, .drift, .jobs, .cores, .rails, .rotOrders, .mirror, .token, .snuff, .spdm, .free, .firmware, .notices] = true) 
    (ho : s0.onlyChanges s L) : s0.onlyChanges (State.hmFailAll s) L := by
  unfold State.hmFailAll
  try dsimp only
  repeat' first
    | with_reducible assumption
    | (refine names_trans hL ?_
       try simp only [keyTypes, Nat.reduceMod]
       decide)
    | (refine names_trans hL ?_
       refine names_trans (names_of_subset ?_) names_all_word
       simp
       done)
    | (refine names_trans hL ?_
       refine names_trans (names_of_subset ?_) names_all_regs
       simp
       done)
    | (refine names_trans hL ?_
       refine names_trans (names_of_subset ?_) names_all_hdr
       simp
       done)
    | with_reducible first
      | refine names_cons ?_ ?_
      | refine only_ite ?_ ?_
      | refine only_ite_snd ?_ ?_
      | refine only_ite_fst ?_ ?_
      | refine hmAnswer_only (hL := ?_) (ho := ?_)
      | refine only_foldl (fun u x hu => ?_) ?_
      | refine only_foldl_snd (fun u x hu => ?_) ?_
      | refine only_foldl_fst (fun u x hu => ?_) ?_
    | split
    | dsimp only

theorem sideDrop_only {s : State} {u : Nat} (hL : names L [.taint, .kernels] = true) 
    (ho : s0.onlyChanges s L) : s0.onlyChanges (State.sideDrop s u) L := by
  unfold State.sideDrop
  try dsimp only
  repeat' first
    | with_reducible assumption
    | (refine names_trans hL ?_
       try simp only [keyTypes, Nat.reduceMod]
       decide)
    | with_reducible first
      | refine names_cons ?_ ?_
      | refine only_ite ?_ ?_
      | refine only_ite_snd ?_ ?_
      | refine only_ite_fst ?_ ?_
      | refine countUnchecked_only (hL := ?_) (ho := ?_)
    | split
    | (with_reducible refine modCheck_only (z := [.taint, .kernels]) ?_ ?_ ?_ ?_ ?_ ?_ ?_ ?_ ?_
       · refine names_trans hL ?_
         first | decide | (refine names_of_subset ?_; simp; done)
       iterate 7 · first | with_reducible rfl | (intro _; with_reducible rfl) | exact fun h => not_free h rfl | (intro _; dsimp only; split <;> rfl) | exact rfl | exact fun _ => rfl)
    | dsimp only

theorem converterStuck_only {s : State} {cls : ConvClass} {i : Nat} (hL : names L (([.suspects, .snuff, .probes, .kats, .staged, .recs, .gens, .spares, .notices, .ringQ, .out, .xfers, .mbox, .cmds, .violations, .ports, .taint, .kernels, .host, .meas, .redNodes, .engines, .ftab, .sinter, .log, .plans, .allHdrs, .allRegs, .tables, .trace, .inj, .rings, .geyser, .grid, .clock, .peers, .drift, .jobs, .cores, .rails, .rotOrders, .mirror, .token, .spdm, .free, .firmware, .tap, .proxies, .chans, .links] : List Part) ++ ([.pkg, .verify, .svcNotices, .tports, .evts, .relock, .pps, .pace, .linkKeys, .clusters, .watch, .bcasts, .change] : List Part)) = true) 
    (ho : s0.onlyChanges s L) : s0.onlyChanges (State.converterStuck s cls i) L := by
  unfold State.converterStuck
  try dsimp only
  repeat' first
    | with_reducible assumption
    | (refine names_trans hL ?_
       try simp only [keyTypes, Nat.reduceMod]
       decide)
    | (refine names_trans hL ?_
       refine names_trans (names_of_subset ?_) names_all_word
       simp
       done)
    | (refine names_trans hL ?_
       refine names_trans (names_of_subset ?_) names_all_regs
       simp
       done)
    | (refine names_trans hL ?_
       refine names_trans (names_of_subset ?_) names_all_hdr
       simp
       done)
    | with_reducible first
      | refine names_cons ?_ ?_
      | refine only_ite ?_ ?_
      | refine only_ite_snd ?_ ?_
      | refine only_ite_fst ?_ ?_
      | refine markSuspect_only (hL := ?_) (ho := ?_)
      | refine gatesStuck_only (hL := ?_) (ho := ?_)
      | refine violate_only (hL := ?_) (ho := ?_)
      | refine sideDrop_only (hL := ?_) (ho := ?_)
      | refine hmFailAll_only (hL := ?_) (ho := ?_)
      | refine resetPort_only (hL := ?_) (ho := ?_)
      | refine interlock_only (hL := ?_) (ho := ?_)
    | split
    | (with_reducible refine only_pages (z := [.ringQ, .xfers, .cmds, .host]) ?_ ?_ ?_ ?_ ?_ ?_ ?_ ?_ ?_ ?_
       · refine names_trans hL ?_
         first | decide | (refine names_of_subset ?_; simp; done)
       iterate 8 · first | with_reducible rfl | (intro _; with_reducible rfl) | exact fun h => not_free h rfl | (intro _; dsimp only; split <;> rfl) | exact rfl | exact fun _ => rfl)
    | (with_reducible refine only_mk (z := (([.suspects, .snuff, .probes, .kats, .staged, .recs, .gens, .spares, .notices, .ringQ, .out, .xfers, .mbox, .cmds, .violations, .ports, .taint, .kernels, .host, .meas, .redNodes, .engines, .ftab, .sinter, .log, .plans, .allHdrs, .allRegs, .tables, .trace, .inj, .rings, .geyser, .grid, .clock, .peers, .drift, .jobs, .cores, .rails, .rotOrders, .mirror, .token, .spdm, .free, .firmware, .tap, .proxies, .chans, .links] : List Part) ++ ([.pkg, .verify, .svcNotices, .tports, .evts, .relock, .pps, .pace, .linkKeys, .clusters, .watch, .bcasts, .change] : List Part))) hL ?_ ?_
       · intro p hp
         cases p <;> first | (dsimp only [Part.same]; done) | (dsimp only [Part.same, State.reg, State.hdr]; intro _ _; with_reducible rfl) | exact not_free (free_of_outside hp) (by decide) | exact not_free (free_of_outside hp) rfl | exact trivial | (dsimp only [Part.same]; split <;> rfl))
    | dsimp only

theorem paceInject_only {s : State} {ch : Channel} (hL : names L [.pace, .inj] = true) 
    (ho : s0.onlyChanges s L) : s0.onlyChanges (State.paceInject s ch) L := by
  unfold State.paceInject
  try dsimp only
  repeat' first
    | with_reducible assumption
    | (refine names_trans hL ?_
       try simp only [keyTypes, Nat.reduceMod]
       decide)
    | with_reducible first
      | refine names_cons ?_ ?_
      | refine only_ite ?_ ?_
      | refine only_ite_snd ?_ ?_
      | refine only_ite_fst ?_ ?_
    | split
    | (with_reducible refine only_pace (z := [.pace]) ?_ ?_ ?_
       · refine names_trans hL ?_
         first | decide | (refine names_of_subset ?_; simp; done)
       iterate 1 · first | with_reducible rfl | (intro _; with_reducible rfl) | exact fun h => not_free h rfl | (intro _; dsimp only; split <;> rfl) | exact rfl | exact fun _ => rfl)
    | (with_reducible refine only_fum (z := [.inj]) ?_ ?_ ?_ ?_ ?_ ?_ ?_ ?_ ?_ ?_
       · refine names_trans hL ?_
         first | decide | (refine names_of_subset ?_; simp; done)
       iterate 8 · first | with_reducible rfl | (intro _; with_reducible rfl) | exact fun h => not_free h rfl | (intro _; dsimp only; split <;> rfl) | exact rfl | exact fun _ => rfl)
    | (with_reducible refine only_mk (z := [.pace, .inj]) hL ?_ ?_
       · intro p hp
         cases p <;> first | (dsimp only [Part.same]; done) | (dsimp only [Part.same, State.reg, State.hdr]; intro _ _; with_reducible rfl) | exact not_free (free_of_outside hp) (by decide) | exact not_free (free_of_outside hp) rfl | exact trivial | (dsimp only [Part.same]; split <;> rfl))
    | dsimp only

theorem watchTick_only {s : State} (hL : names L [.pace, .host, .probes] = true) 
    (ho : s0.onlyChanges s L) : s0.onlyChanges (State.watchTick s) L := by
  unfold State.watchTick
  try dsimp only
  repeat' first
    | with_reducible assumption
    | (refine names_trans hL ?_
       try simp only [keyTypes, Nat.reduceMod]
       decide)
    | with_reducible first
      | refine names_cons ?_ ?_
      | refine only_ite ?_ ?_
      | refine only_ite_snd ?_ ?_
      | refine only_ite_fst ?_ ?_
    | split
    | (with_reducible refine only_pace (z := [.pace]) ?_ ?_ ?_
       · refine names_trans hL ?_
         first | decide | (refine names_of_subset ?_; simp; done)
       iterate 1 · first | with_reducible rfl | (intro _; with_reducible rfl) | exact fun h => not_free h rfl | (intro _; dsimp only; split <;> rfl) | exact rfl | exact fun _ => rfl)
    | (with_reducible refine only_pages (z := [.host]) ?_ ?_ ?_ ?_ ?_ ?_ ?_ ?_ ?_ ?_
       · refine names_trans hL ?_
         first | decide | (refine names_of_subset ?_; simp; done)
       iterate 8 · first | with_reducible rfl | (intro _; with_reducible rfl) | exact fun h => not_free h rfl | (intro _; dsimp only; split <;> rfl) | exact rfl | exact fun _ => rfl)
    | (with_reducible refine only_samp (z := [.probes]) ?_ ?_ ?_ ?_ ?_ ?_ ?_ ?_ ?_
       · refine names_trans hL ?_
         first | decide | (refine names_of_subset ?_; simp; done)
       iterate 7 · first | with_reducible rfl | (intro _; with_reducible rfl) | exact fun h => not_free h rfl | (intro _; dsimp only; split <;> rfl) | exact rfl | exact fun _ => rfl)
    | (with_reducible refine only_mk (z := [.pace, .host, .probes]) hL ?_ ?_
       · intro p hp
         cases p <;> first | (dsimp only [Part.same]; done) | (dsimp only [Part.same, State.reg, State.hdr]; intro _ _; with_reducible rfl) | exact not_free (free_of_outside hp) (by decide) | exact not_free (free_of_outside hp) rfl | exact trivial | (dsimp only [Part.same]; split <;> rfl))
    | dsimp only

theorem channelStuck_only {s : State} {c : Channel} (hL : names L (([.clusters, .mbox, .staged, .recs, .gens, .spares, .pace, .probes, .violations, .ports, .suspects, .regions, .snuff, .kats, .notices, .ringQ, .out, .xfers, .cmds, .taint, .kernels, .host, .meas, .redNodes, .engines, .ftab, .sinter, .log, .plans, .allHdrs, .allRegs, .tables, .trace, .inj, .rings, .geyser, .grid, .clock, .peers, .drift, .jobs, .cores, .rails, .rotOrders, .mirror, .token, .spdm, .free, .firmware, .tap] : List Part) ++ ([.proxies, .chans, .links, .pkg, .verify, .svcNotices, .tports, .evts, .relock, .pps, .linkKeys, .watch, .bcasts, .change] : List Part)) = true)
    (ho : s0.onlyChanges s L) : s0.onlyChanges (s.channelStuck c) L := by
  cases c <;> unfold State.channelStuck <;> try dsimp only
  all_goals
    try dsimp only
    repeat' first
      | with_reducible assumption
      | (refine names_trans hL ?_
         try simp only [keyTypes, Nat.reduceMod]
         decide)
      | (refine names_trans hL ?_
         refine names_trans (names_of_subset ?_) names_all_word
         simp
         done)
      | (refine names_trans hL ?_
         refine names_trans (names_of_subset ?_) names_all_regs
         simp
         done)
      | (refine names_trans hL ?_
         refine names_trans (names_of_subset ?_) names_all_hdr
         simp
         done)
      | with_reducible first
        | refine names_cons ?_ ?_
        | refine only_ite ?_ ?_
        | refine only_ite_snd ?_ ?_
        | refine only_ite_fst ?_ ?_
        | refine concFail_only (hL := ?_) (ho := ?_)
        | refine regionFail_only (hL := ?_) (ho := ?_)
        | refine converterStuck_only (hL := ?_) (ho := ?_)
      | split
      | dsimp only

theorem execHeadElection_only (reports : List DieReport) (s : State) : ∃ st', execHeadElection reports s = .next st' ∧ s.onlyChanges st' [.out, .xfers, .lines, .inj, .pkg, .staged, .recs, .hdr 0x58, .redNodes, .hdr 0x18, .gens, .mirror, .mbox, .tports, .evts, .clock, .relock, .cmds, .word 0x08 0x100, .hdr 0x30, .pps, .regs 0x18] := by
  refine ⟨_, rfl, only_start fun hL h0 => ?_⟩
  refine settle_only (names_of_subset (by simp)) ?_
  repeat' first
    | with_reducible first
      | exact h0
      | assumption
    | (refine names_trans hL ?_
       try simp only [keyTypes, Nat.reduceMod]
       decide)
    | (refine names_trans hL ?_
       try simp only [keyTypes, Nat.reduceMod]
       refine names_trans (names_of_subset ?_) names_regs_word
       simp
       done)
    | with_reducible first
      | refine names_cons ?_ ?_
      | refine only_ite ?_ ?_
      | refine only_ite_snd ?_ ?_
      | refine only_ite_fst ?_ ?_
      | refine elect_only (hL := ?_) (ho := ?_)
    | split
    | dsimp only

theorem execHeadKeepaliveSend_only (s : State) : ∃ st', execHeadKeepaliveSend s = .next st' ∧ s.onlyChanges st' [.out, .xfers, .lines, .inj, .chans] := by
  refine ⟨_, rfl, only_start fun hL h0 => ?_⟩
  refine settle_only (names_of_subset (by simp)) ?_
  repeat' first
    | with_reducible first
      | exact h0
      | assumption
    | (refine names_trans hL ?_
       try simp only [keyTypes, Nat.reduceMod]
       decide)
    | with_reducible first
      | refine names_cons ?_ ?_
      | refine only_ite ?_ ?_
      | refine only_ite_snd ?_ ?_
      | refine only_ite_fst ?_ ?_
      | refine pushCtl_only (hL := ?_) (ho := ?_)
      | refine only_foldl (fun u x hu => ?_) ?_
      | refine only_foldl_snd (fun u x hu => ?_) ?_
      | refine only_foldl_fst (fun u x hu => ?_) ?_
    | split
    | dsimp only

theorem execHeadLost_only (s : State) : ∃ st', execHeadLost s = .next st' ∧ s.onlyChanges st' [.out, .xfers, .lines, .inj, .mbox, .host, .tap, .proxies, .pkg, .staged, .recs, .hdr 0x58, .sinter, .regs 0x93, .regs 0x91, .regs 0x38, .ports, .chans, .hdr 0x93, .hdr 0x91, .hdr 0x38, .redNodes, .probes, .clusters, .clock, .watch, .jobs, .spares, .plans, .bcasts, .mirror, .gens, .verify, .ringQ, .word 0x40 0x6C, .svcNotices, .hdr 0x40, .hdr 0x18, .tports, .evts, .relock, .cmds, .word 0x08 0x100, .hdr 0x30, .pps, .links, .regs 0x18] := by
  refine ⟨_, rfl, only_start fun hL h0 => ?_⟩
  refine settle_only (names_of_subset (by simp)) ?_
  repeat' first
    | with_reducible first
      | exact h0
      | assumption
    | (refine names_trans hL ?_
       try simp only [keyTypes, Nat.reduceMod]
       decide)
    | (refine names_trans hL ?_
       try simp only [keyTypes, Nat.reduceMod]
       refine names_trans (names_of_subset ?_) names_regs_word
       simp
       done)
    | (refine names_trans hL ?_
       refine names_trans (names_of_subset ?_) names_port_word
       simp
       done)
    | (refine names_trans hL ?_
       refine names_trans (names_of_subset ?_) names_port_hdr
       simp
       done)
    | with_reducible first
      | refine names_cons ?_ ?_
      | refine only_ite ?_ ?_
      | refine only_ite_snd ?_ ?_
      | refine only_ite_fst ?_ ?_
      | refine headLost_only (hL := ?_) (ho := ?_)
    | split
    | dsimp only

theorem execCodeErr_only (ch : Channel) (s : State) : ∃ st', execCodeErr ch s = .next st' ∧ s.onlyChanges st' [.out, .xfers, .lines, .inj, .pace, .staged, .recs, .hdr 0x58, .word 0x02 0x5C] := by
  refine ⟨_, rfl, only_start fun hL h0 => ?_⟩
  refine settle_only (names_of_subset (by simp)) ?_
  repeat' first
    | with_reducible first
      | exact h0
      | assumption
    | (refine names_trans hL ?_
       try simp only [keyTypes, Nat.reduceMod]
       decide)
    | with_reducible first
      | refine names_cons ?_ ?_
      | refine only_ite ?_ ?_
      | refine only_ite_snd ?_ ?_
      | refine only_ite_fst ?_ ?_
      | refine watchChannel_only (hL := ?_) (ho := ?_)
      | refine log_only (hL := ?_) (ho := ?_)
      | refine paceFault_only (hL := ?_) (ho := ?_)
    | split
    | dsimp only

theorem execHsTimeout_only (ch : Channel) (phase : HsPhase) (s : State) : ∃ st', execHsTimeout ch phase s = .next st' ∧ s.onlyChanges st' (([.out, .xfers, .lines, .inj, .staged, .recs, .pace, .clusters, .mbox, .gens, .spares, .probes, .violations, .ports, .suspects, .regions, .snuff, .kats, .notices, .ringQ, .cmds, .taint, .kernels, .host, .meas, .redNodes, .engines, .ftab, .sinter, .log, .plans, .allHdrs, .allRegs, .tables, .trace, .rings, .geyser, .grid, .clock, .peers, .drift, .jobs, .cores, .rails, .rotOrders, .mirror, .token, .spdm, .free, .firmware] : List Part) ++ ([.tap, .proxies, .chans, .links, .pkg, .verify, .svcNotices, .tports, .evts, .relock, .pps, .linkKeys, .watch, .bcasts, .change] : List Part)) := by
  refine ⟨_, rfl, only_start fun hL h0 => ?_⟩
  refine settle_only (names_of_subset (by simp)) ?_
  repeat' first
    | with_reducible first
      | exact h0
      | assumption
    | (refine names_trans hL ?_
       try simp only [keyTypes, Nat.reduceMod]
       decide)
    | (refine names_trans hL ?_
       refine names_trans (names_of_subset ?_) names_all_word
       simp
       done)
    | (refine names_trans hL ?_
       refine names_trans (names_of_subset ?_) names_all_regs
       simp
       done)
    | (refine names_trans hL ?_
       refine names_trans (names_of_subset ?_) names_all_hdr
       simp
       done)
    | with_reducible first
      | refine names_cons ?_ ?_
      | refine only_ite ?_ ?_
      | refine only_ite_snd ?_ ?_
      | refine only_ite_fst ?_ ?_
      | refine log_only (hL := ?_) (ho := ?_)
      | refine paceFault_only (hL := ?_) (ho := ?_)
      | refine paceInject_only (hL := ?_) (ho := ?_)
      | refine channelStuck_only (hL := ?_) (ho := ?_)
    | split
    | (with_reducible refine only_pace (z := [.pace]) ?_ ?_ ?_
       · refine names_trans hL ?_
         first | decide | (refine names_of_subset ?_; simp; done)
       iterate 1 · first | with_reducible rfl | (intro _; with_reducible rfl) | exact fun h => not_free h rfl | (intro _; dsimp only; split <;> rfl) | exact rfl | exact fun _ => rfl)
    | dsimp only

/-! Close -/

theorem gridPend_only {t0 : State} {s : State} {period : Nat} {origin : FT} {page : Option (Bool × Nat)} (he : State.gridPend s period origin page = .ok t0) (hL : names L [.evts, .grid] = true) 
    (ho : s0.onlyChanges s L) : s0.onlyChanges t0 L := by
  unfold State.gridPend at he
  try dsimp only at he
  repeat' split at he
  all_goals first | (injection he with he; subst he) | injection he
  repeat' first
    | with_reducible assumption
    | (refine names_trans hL ?_
       try simp only [keyTypes, Nat.reduceMod]
       decide)
    | with_reducible first
      | refine names_cons ?_ ?_
      | refine only_ite ?_ ?_
      | refine only_ite_snd ?_ ?_
      | refine only_ite_fst ?_ ?_
      | refine evtAdd_only (he := by assumption) (hL := ?_) (ho := ?_)
    | split
    | (with_reducible refine only_samp (z := [.grid]) ?_ ?_ ?_ ?_ ?_ ?_ ?_ ?_ ?_
       · refine names_trans hL ?_
         first | decide | (refine names_of_subset ?_; simp; done)
       iterate 7 · first | with_reducible rfl | (intro _; with_reducible rfl) | exact fun h => not_free h rfl | (intro _; dsimp only; split <;> rfl) | exact rfl | exact fun _ => rfl)
    | dsimp only

theorem actEpoch_only {s : State} {b : Bcast} (hL : names L [.evts, .grid] = true) 
    (ho : s0.onlyChanges s L) : s0.onlyChanges (actEpoch s b).s L := by
  unfold actEpoch
  try dsimp only
  repeat' first
    | with_reducible assumption
    | (refine names_trans hL ?_
       try simp only [keyTypes, Nat.reduceMod]
       decide)
    | with_reducible first
      | refine names_cons ?_ ?_
      | refine only_ite ?_ ?_
      | refine only_ite_snd ?_ ?_
      | refine only_ite_fst ?_ ?_
      | refine only_ite_s ?_ ?_
      | refine gridPend_only (he := by assumption) (hL := ?_) (ho := ?_)
    | split
    | dsimp only

theorem setEpochCmd_only {c : CmdIn} {s : State} (hL : names L [.cmds, .evts, .grid, .bcasts, .word 0x40 0x50, .hdr 0x40, .inj, .mbox, .word 0x08 0x100] = true) 
    (ho : s0.onlyChanges s L) : s0.onlyChanges (setEpochCmd c s) L := by
  unfold setEpochCmd
  try dsimp only
  repeat' first
    | with_reducible assumption
    | (refine names_trans hL ?_
       try simp only [keyTypes, Nat.reduceMod]
       decide)
    | with_reducible first
      | refine names_cons ?_ ?_
      | refine only_ite ?_ ?_
      | refine only_ite_snd ?_ ?_
      | refine only_ite_fst ?_ ?_
      | refine badArg_only (hL := ?_) (ho := ?_)
      | refine gridPend_only (he := by assumption) (hL := ?_) (ho := ?_)
      | refine failCmd_only (hL := ?_) (ho := ?_)
      | refine bcastSend_only (hL := ?_) (h_act := fun u x1 hu => ?_) (ho := ?_)
      | refine actEpoch_only (hL := ?_) (ho := ?_)
      | refine bcastDone_only (hL := ?_) (ho := ?_)
      | refine waitFor_only (hL := ?_) (ho := ?_)
    | split
    | dsimp only

theorem execSetEpoch_only (c : CmdIn) (s : State) : ∃ st', execSetEpoch c s = .next st' ∧ s.onlyChanges st' [.out, .xfers, .lines, .inj, .cmds, .power, .bpwr, .word 0x50 0x54, .activity, .host, .tap, .regs 0x08, .hdr 0x08, .evts, .grid, .bcasts, .word 0x40 0x50, .hdr 0x40, .mbox] := by
  refine ⟨_, rfl, only_start fun hL h0 => ?_⟩
  refine settle_only (names_of_subset (by simp)) ?_
  repeat' first
    | with_reducible first
      | exact h0
      | assumption
    | (refine names_trans hL ?_
       try simp only [keyTypes, Nat.reduceMod]
       decide)
    | (refine names_trans hL ?_
       try simp only [keyTypes, Nat.reduceMod]
       refine names_trans (names_of_subset ?_) names_regs_word
       simp
       done)
    | with_reducible first
      | refine names_cons ?_ ?_
      | refine only_ite ?_ ?_
      | refine only_ite_snd ?_ ?_
      | refine only_ite_fst ?_ ?_
      | refine runCmd_only (hL := ?_) (h_effect := fun u hu => ?_) (ho := ?_)
      | refine setEpochCmd_only (hL := ?_) (ho := ?_)
    | split
    | dsimp only

theorem originEnd_only {s : State} {q : PendEpoch} {st : Byte} {detail : Nat} (hL : names L [.evts, .grid, .cmds, .word 0x08 0x100] = true) 
    (ho : s0.onlyChanges s L) : s0.onlyChanges (State.originEnd s q st detail) L := by
  unfold State.originEnd
  try dsimp only
  repeat' first
    | with_reducible assumption
    | (refine names_trans hL ?_
       try simp only [keyTypes, Nat.reduceMod]
       decide)
    | with_reducible first
      | refine names_cons ?_ ?_
      | refine only_ite ?_ ?_
      | refine only_ite_snd ?_ ?_
      | refine only_ite_fst ?_ ?_
      | refine evtDrop_only (hL := ?_) (ho := ?_)
      | refine bcastDone_only (hL := ?_) (ho := ?_)
      | refine endWait_only (hL := ?_) (ho := ?_)
    | split
    | (with_reducible refine only_samp (z := [.grid]) ?_ ?_ ?_ ?_ ?_ ?_ ?_ ?_ ?_
       · refine names_trans hL ?_
         first | decide | (refine names_of_subset ?_; simp; done)
       iterate 7 · first | with_reducible rfl | (intro _; with_reducible rfl) | exact fun h => not_free h rfl | (intro _; dsimp only; split <;> rfl) | exact rfl | exact fun _ => rfl)
    | dsimp only

theorem bindClose_only {s : State} (hL : names L [.profiles] = true) 
    (ho : s0.onlyChanges s L) : s0.onlyChanges (State.bindClose s) L := by
  unfold State.bindClose
  try dsimp only
  repeat' first
    | with_reducible assumption
    | (refine names_trans hL ?_
       try simp only [keyTypes, Nat.reduceMod]
       decide)
    | with_reducible first
      | refine names_cons ?_ ?_
      | refine only_ite ?_ ?_
      | refine only_ite_snd ?_ ?_
      | refine only_ite_fst ?_ ?_
    | split
    | (with_reducible refine only_samp (z := [.profiles]) ?_ ?_ ?_ ?_ ?_ ?_ ?_ ?_ ?_
       · refine names_trans hL ?_
         first | decide | (refine names_of_subset ?_; simp; done)
       iterate 7 · first | with_reducible rfl | (intro _; with_reducible rfl) | exact fun h => not_free h rfl | (intro _; dsimp only; split <;> rfl) | exact rfl | exact fun _ => rfl)
    | dsimp only

theorem sampleAll_only {s : State} {no : Nat} (hL : names L [.probes] = true) 
    (ho : s0.onlyChanges s L) : s0.onlyChanges (State.sampleAll s no) L := by
  unfold State.sampleAll
  try dsimp only
  repeat' first
    | with_reducible assumption
    | (refine names_trans hL ?_
       try simp only [keyTypes, Nat.reduceMod]
       decide)
    | with_reducible first
      | refine names_cons ?_ ?_
      | refine only_ite ?_ ?_
      | refine only_ite_snd ?_ ?_
      | refine only_ite_fst ?_ ?_
      | refine modProbe_only (hL := ?_) (ho := ?_)
      | refine setProbe_only (hL := ?_) (ho := ?_)
      | refine only_foldl (fun u x hu => ?_) ?_
      | refine only_foldl_snd (fun u x hu => ?_) ?_
      | refine only_foldl_fst (fun u x hu => ?_) ?_
    | split
    | dsimp only

theorem clusterClose_only {s : State} {c : Nat} (hL : names L [.clusters] = true) 
    (ho : s0.onlyChanges s L) : s0.onlyChanges (State.clusterClose s c) L := by
  unfold State.clusterClose
  try dsimp only
  repeat' first
    | with_reducible assumption
    | (refine names_trans hL ?_
       try simp only [keyTypes, Nat.reduceMod]
       decide)
    | with_reducible first
      | refine names_cons ?_ ?_
      | refine only_ite ?_ ?_
      | refine only_ite_snd ?_ ?_
      | refine only_ite_fst ?_ ?_
      | refine modCluster_only (hL := ?_) (ho := ?_)
    | split
    | dsimp only

theorem gapStart_only {s : State} (hL : names L [.staged, .recs, .hdr 0x58, .watch] = true) 
    (ho : s0.onlyChanges s L) : s0.onlyChanges (State.gapStart s) L := by
  unfold State.gapStart
  try dsimp only
  repeat' first
    | with_reducible assumption
    | (refine names_trans hL ?_
       try simp only [keyTypes, Nat.reduceMod]
       decide)
    | with_reducible first
      | refine names_cons ?_ ?_
      | refine only_ite ?_ ?_
      | refine only_ite_snd ?_ ?_
      | refine only_ite_fst ?_ ?_
      | refine log_only (hL := ?_) (ho := ?_)
      | refine only_foldl (fun u x hu => ?_) ?_
      | refine only_foldl_snd (fun u x hu => ?_) ?_
      | refine only_foldl_fst (fun u x hu => ?_) ?_
    | split
    | (with_reducible refine modSvc_only (z := [.watch]) ?_ ?_ ?_ ?_ ?_ ?_ ?_
       · refine names_trans hL ?_
         first | decide | (refine names_of_subset ?_; simp; done)
       iterate 5 · first | with_reducible rfl | (intro _; with_reducible rfl) | exact fun h => not_free h rfl | (intro _; dsimp only; split <;> rfl) | exact rfl | exact fun _ => rfl)
    | dsimp only

theorem dozeBeat_only {s : State} {no : Nat} (hL : names L [.mbox] = true) 
    (ho : s0.onlyChanges s L) : s0.onlyChanges (State.dozeBeat s no) L := by
  unfold State.dozeBeat
  try dsimp only
  repeat' first
    | with_reducible assumption
    | (refine names_trans hL ?_
       try simp only [keyTypes, Nat.reduceMod]
       decide)
    | with_reducible first
      | refine names_cons ?_ ?_
      | refine only_ite ?_ ?_
      | refine only_ite_snd ?_ ?_
      | refine only_ite_fst ?_ ?_
      | refine sendBeat_only (hL := ?_) (ho := ?_)
    | split
    | dsimp only

theorem regionGaps_only {s : State} (hL : names L [.staged, .recs, .hdr 0x58, .regions] = true) 
    (ho : s0.onlyChanges s L) : s0.onlyChanges (State.regionGaps s) L := by
  unfold State.regionGaps
  try dsimp only
  repeat' first
    | with_reducible assumption
    | (refine names_trans hL ?_
       try simp only [keyTypes, Nat.reduceMod]
       decide)
    | with_reducible first
      | refine names_cons ?_ ?_
      | refine only_ite ?_ ?_
      | refine only_ite_snd ?_ ?_
      | refine only_ite_fst ?_ ?_
      | refine modRegion_only (hL := ?_) (ho := ?_)
      | refine log_only (hL := ?_) (ho := ?_)
      | refine only_foldl (fun u x hu => ?_) ?_
      | refine only_foldl_snd (fun u x hu => ?_) ?_
      | refine only_foldl_fst (fun u x hu => ?_) ?_
    | split
    | dsimp only

theorem gapEnd_only {s : State} (hL : names L [.watch] = true) 
    (ho : s0.onlyChanges s L) : s0.onlyChanges (State.gapEnd s) L := by
  unfold State.gapEnd
  try dsimp only
  repeat' first
    | with_reducible assumption
    | (refine names_trans hL ?_
       try simp only [keyTypes, Nat.reduceMod]
       decide)
    | with_reducible first
      | refine names_cons ?_ ?_
      | refine only_ite ?_ ?_
      | refine only_ite_snd ?_ ?_
      | refine only_ite_fst ?_ ?_
    | split
    | (with_reducible refine modSvc_only (z := [.watch]) ?_ ?_ ?_ ?_ ?_ ?_ ?_
       · refine names_trans hL ?_
         first | decide | (refine names_of_subset ?_; simp; done)
       iterate 5 · first | with_reducible rfl | (intro _; with_reducible rfl) | exact fun h => not_free h rfl | (intro _; dsimp only; split <;> rfl) | exact rfl | exact fun _ => rfl)
    | dsimp only

theorem closeWork_only {s : State} {c : CloseInfo} (hL : names L [.taint, .staged, .recs, .hdr 0x58, .watch, .word 0x28 0x98, .hdr 0x28, .kernels, .cmds, .redNodes, .redInputs, .mbox, .hdr 0x40, .inj, .cores, .rails, .regions, .engines, .word 0x20 0x54, .word 0x08 0x108, .word 0x08 0x104, .word 0x08 0x100, .ftab, .gens, .meas, .snaps, .hdr 0x18, .mirror, .probes, .replicas, .drift, .ringQ, .out, .xfers, .word 0x40 0x6C, .svcNotices, .hdr 0x48, .droops, .regs 0x18] = true) 
    (ho : s0.onlyChanges s L) : s0.onlyChanges (State.closeWork s c) L := by
  unfold State.closeWork
  try dsimp only
  repeat' first
    | with_reducible assumption
    | (refine names_trans hL ?_
       try simp only [keyTypes, Nat.reduceMod]
       decide)
    | (refine names_trans hL ?_
       try simp only [keyTypes, Nat.reduceMod]
       refine names_trans (names_of_subset ?_) names_regs_word
       simp
       done)
    | with_reducible first
      | refine names_cons ?_ ?_
      | refine only_ite ?_ ?_
      | refine only_ite_snd ?_ ?_
      | refine only_ite_fst ?_ ?_
      | refine checkEpoch_only (hL := ?_) (ho := ?_)
      | refine gapStart_only (hL := ?_) (ho := ?_)
      | refine checkClose_only (hL := ?_) (ho := ?_)
      | refine redDozeClose_only (hL := ?_) (ho := ?_)
      | refine dozeBeat_only (hL := ?_) (ho := ?_)
      | refine svcClose_only (hL := ?_) (ho := ?_)
      | refine hpClose_only (hL := ?_) (ho := ?_)
      | refine regionGaps_only (hL := ?_) (ho := ?_)
      | refine gapEnd_only (hL := ?_) (ho := ?_)
      | refine forestClose_only (hL := ?_) (ho := ?_)
      | refine redClose_only (hL := ?_) (ho := ?_)
      | refine answerPulls_only (hL := ?_) (ho := ?_)
      | refine drift_only (hL := ?_) (ho := ?_)
      | refine hpClosed_only (hL := ?_) (ho := ?_)
    | split
    | dsimp only

theorem closeAt_only {s : State} {no : Nat} {t : FT} {short : Bool} {ties stuck : List Nat} (hL : names L (([.word 0x02 0x58, .probes, .kats, .profiles, .power, .activity, .grid, .staged, .recs, .hdr 0x58, .regs 0x93, .regs 0x91, .regs 0x38, .violations, .ports, .suspects, .hdr 0x28, .hdr 0x12, .gens, .spares, .hdr 0x10, .clusters, .snap, .heldRecs, .taint, .watch, .word 0x28 0x98, .kernels, .cmds, .redNodes, .redInputs, .mbox, .hdr 0x40, .inj, .cores, .rails, .regions, .engines, .word 0x20 0x54, .word 0x08 0x108, .word 0x08 0x104, .word 0x08 0x100, .ftab, .meas, .snaps, .hdr 0x18, .mirror, .replicas, .drift, .ringQ] : List Part) ++ ([.out, .xfers, .word 0x40 0x6C, .svcNotices, .hdr 0x48, .droops, .pkg, .regs 0x18] : List Part)) = true) 
    (ho : s0.onlyChanges s L) : s0.onlyChanges (State.closeAt s no t short ties stuck) L := by
  unfold State.closeAt
  try dsimp only
  repeat' first
    | with_reducible assumption
    | (refine names_trans hL ?_
       try simp only [keyTypes, Nat.reduceMod]
       decide)
    | (refine names_trans hL ?_
       try simp only [keyTypes, Nat.reduceMod]
       refine names_trans (names_of_subset ?_) names_regs_word
       simp
       done)
    | (refine names_trans hL ?_
       refine names_trans (names_of_subset ?_) names_port_word
       simp
       done)
    | with_reducible first
      | refine names_cons ?_ ?_
      | refine only_ite ?_ ?_
      | refine only_ite_snd ?_ ?_
      | refine only_ite_fst ?_ ?_
      | refine bump_only (hL := ?_) (ho := ?_)
      | refine unfenceClose_only (hL := ?_) (ho := ?_)
      | refine bindClose_only (hL := ?_) (ho := ?_)
      | refine work_only (hL := ?_) (ho := ?_)
      | refine sampleAll_only (hL := ?_) (ho := ?_)
      | refine deliver_only (hL := ?_) (ho := ?_)
      | refine clusterClose_only (hL := ?_) (ho := ?_)
      | refine snapClose_only (hL := ?_) (ho := ?_)
      | refine clearTotal_only (hL := ?_) (ho := ?_)
      | refine closeWork_only (hL := ?_) (ho := ?_)
      | refine complete_only (hL := ?_) (ho := ?_)
      | refine only_foldl (fun u x hu => ?_) ?_
      | refine only_foldl_snd (fun u x hu => ?_) ?_
      | refine only_foldl_fst (fun u x hu => ?_) ?_
    | split
    | (with_reducible refine only_samp (z := [.probes, .profiles, .grid, .clusters, .heldRecs, .regions]) ?_ ?_ ?_ ?_ ?_ ?_ ?_ ?_ ?_
       · refine names_trans hL ?_
         first | decide | (refine names_of_subset ?_; simp; done)
       iterate 7 · first | with_reducible rfl | (intro _; with_reducible rfl) | exact fun h => not_free h rfl | (intro _; dsimp only; split <;> rfl) | exact rfl | exact fun _ => rfl)
    | (with_reducible refine only_pkg (z := [.pkg]) ?_ ?_ ?_
       · refine names_trans hL ?_
         first | decide | (refine names_of_subset ?_; simp; done)
       iterate 1 · first | with_reducible rfl | (intro _; with_reducible rfl) | exact fun h => not_free h rfl | (intro _; dsimp only; split <;> rfl) | exact rfl | exact fun _ => rfl)
    | (with_reducible refine only_mk (z := (([.word 0x02 0x58, .probes, .kats, .profiles, .power, .activity, .grid, .staged, .recs, .hdr 0x58, .regs 0x93, .regs 0x91, .regs 0x38, .violations, .ports, .suspects, .hdr 0x28, .hdr 0x12, .gens, .spares, .hdr 0x10, .clusters, .snap, .heldRecs, .taint, .watch, .word 0x28 0x98, .kernels, .cmds, .redNodes, .redInputs, .mbox, .hdr 0x40, .inj, .cores, .rails, .regions, .engines, .word 0x20 0x54, .word 0x08 0x108, .word 0x08 0x104, .word 0x08 0x100, .ftab, .meas, .snaps, .hdr 0x18, .mirror, .replicas, .drift, .ringQ] : List Part) ++ ([.out, .xfers, .word 0x40 0x6C, .svcNotices, .hdr 0x48, .droops, .pkg, .regs 0x18] : List Part))) hL ?_ ?_
       · intro p hp
         cases p <;> first | (dsimp only [Part.same]; done) | (dsimp only [Part.same, State.reg, State.hdr]; intro _ _; with_reducible rfl) | exact not_free (free_of_outside hp) (by decide) | exact not_free (free_of_outside hp) rfl | exact trivial | (dsimp only [Part.same]; split <;> rfl))
    | dsimp only

theorem edgeActive_only {s : State} {p : Nat} {st : UnitState} (hL : names L [.bpwr, .activity, .power, .cmds, .word 0x08 0x104, .word 0x08 0x100, .word 0x50 0x54] = true) 
    (ho : s0.onlyChanges s L) : s0.onlyChanges (State.edgeActive s p st) L := by
  unfold State.edgeActive
  try dsimp only
  repeat' first
    | with_reducible assumption
    | (refine names_trans hL ?_
       try simp only [keyTypes, Nat.reduceMod]
       decide)
    | with_reducible first
      | refine names_cons ?_ ?_
      | refine only_ite ?_ ?_
      | refine only_ite_snd ?_ ?_
      | refine only_ite_fst ?_ ?_
      | refine wakeSrc_only (hL := ?_) (ho := ?_)
    | split
    | (with_reducible refine modBpwr_only (z := [.bpwr, .activity, .power]) ?_ ?_ ?_ ?_ ?_
       · refine names_trans hL ?_
         first | decide | (refine names_of_subset ?_; simp; done)
       iterate 3 · first | with_reducible rfl | (intro _; with_reducible rfl) | exact fun h => not_free h rfl | (intro _; dsimp only; split <;> rfl) | exact rfl | exact fun _ => rfl)
    | dsimp only

theorem originStep_only {s : State} {q : PendEpoch} {ties stuck : List Nat} (hL : names L (([.now, .grid, .evts, .cmds, .word 0x08 0x100, .word 0x02 0x58, .probes, .kats, .profiles, .power, .activity, .staged, .recs, .hdr 0x58, .regs 0x93, .regs 0x91, .regs 0x38, .violations, .ports, .suspects, .hdr 0x28, .hdr 0x12, .gens, .spares, .hdr 0x10, .clusters, .snap, .heldRecs, .taint, .watch, .word 0x28 0x98, .kernels, .redNodes, .redInputs, .mbox, .hdr 0x40, .inj, .cores, .rails, .regions, .engines, .word 0x20 0x54, .word 0x08 0x108, .word 0x08 0x104, .ftab, .meas, .snaps, .hdr 0x18, .mirror, .replicas] : List Part) ++ ([.drift, .ringQ, .out, .xfers, .word 0x40 0x6C, .svcNotices, .hdr 0x48, .droops, .pkg, .regs 0x18] : List Part)) = true) 
    (ho : s0.onlyChanges s L) : s0.onlyChanges (State.originStep s q ties stuck) L := by
  unfold State.originStep
  try dsimp only
  repeat' first
    | with_reducible assumption
    | (refine names_trans hL ?_
       try simp only [keyTypes, Nat.reduceMod]
       decide)
    | (refine names_trans hL ?_
       try simp only [keyTypes, Nat.reduceMod]
       refine names_trans (names_of_subset ?_) names_regs_word
       simp
       done)
    | (refine names_trans hL ?_
       refine names_trans (names_of_subset ?_) names_port_word
       simp
       done)
    | with_reducible first
      | refine names_cons ?_ ?_
      | refine only_ite ?_ ?_
      | refine only_ite_snd ?_ ?_
      | refine only_ite_fst ?_ ?_
      | refine advanceTo_only (hL := ?_) (ho := ?_)
      | refine originEnd_only (hL := ?_) (ho := ?_)
      | refine closeAt_only (hL := ?_) (ho := ?_)
    | split
    | (with_reducible refine only_samp (z := [.grid, .probes, .profiles, .clusters, .heldRecs, .regions]) ?_ ?_ ?_ ?_ ?_ ?_ ?_ ?_ ?_
       · refine names_trans hL ?_
         first | decide | (refine names_of_subset ?_; simp; done)
       iterate 7 · first | with_reducible rfl | (intro _; with_reducible rfl) | exact fun h => not_free h rfl | (intro _; dsimp only; split <;> rfl) | exact rfl | exact fun _ => rfl)
    | dsimp only

theorem execUnitEdge_only (probe : Nat) (st : UnitState) (reason : BitVec 3) (evt : BitVec 16) (cmdStart : Bool) (s : State) : ∃ st', execUnitEdge probe st reason evt cmdStart s = .next st' ∧ s.onlyChanges st' [.out, .xfers, .lines, .inj, .kats, .probes, .hdr 0x10, .latches, .hdr 0x60, .bpwr, .activity, .power, .cmds, .word 0x08 0x104, .word 0x08 0x100, .word 0x50 0x54, .suspects, .staged, .recs, .hdr 0x58, .gens, .spares, .violations, .regs 0x93, .regs 0x91, .regs 0x38, .ports, .hdr 0x28, .hdr 0x12] := by
  refine ⟨_, rfl, only_start fun hL h0 => ?_⟩
  refine settle_only (names_of_subset (by simp)) ?_
  repeat' first
    | with_reducible first
      | exact h0
      | assumption
    | (refine names_trans hL ?_
       try simp only [keyTypes, Nat.reduceMod]
       decide)
    | (refine names_trans hL ?_
       try simp only [keyTypes, Nat.reduceMod]
       refine names_trans (names_of_subset ?_) names_regs_word
       simp
       done)
    | (refine names_trans hL ?_
       refine names_trans (names_of_subset ?_) names_port_word
       simp
       done)
    | with_reducible first
      | refine names_cons ?_ ?_
      | refine only_ite ?_ ?_
      | refine only_ite_snd ?_ ?_
      | refine only_ite_fst ?_ ?_
      | refine katEdge_only (hL := ?_) (ho := ?_)
      | refine countEdge_only (hL := ?_) (ho := ?_)
      | refine traceEdge_only (hL := ?_) (ho := ?_)
      | refine edgeActive_only (hL := ?_) (ho := ?_)
      | refine katCommand_only (hL := ?_) (ho := ?_)
    | split
    | dsimp only

theorem execCounterReset_only (probe : Nat) (s : State) : ∃ st', execCounterReset probe s = .next st' ∧ s.onlyChanges st' [.out, .xfers, .lines, .inj, .probes] := by
  refine ⟨_, rfl, only_start fun hL h0 => ?_⟩
  refine settle_only (names_of_subset (by simp)) ?_
  repeat' first
    | with_reducible first
      | exact h0
      | assumption
    | (refine names_trans hL ?_
       try simp only [keyTypes, Nat.reduceMod]
       decide)
    | with_reducible first
      | refine names_cons ?_ ?_
      | refine only_ite ?_ ?_
      | refine only_ite_snd ?_ ?_
      | refine only_ite_fst ?_ ?_
      | refine grantReset_only (hL := ?_) (ho := ?_)
    | split
    | dsimp only

theorem execEpochClose_only (ties stuck : List Nat) (s : State) : ∃ st', execEpochClose ties stuck s = .next st' ∧ s.onlyChanges st' (([.out, .xfers, .lines, .inj, .now, .grid, .evts, .cmds, .word 0x08 0x100, .word 0x02 0x58, .probes, .kats, .profiles, .power, .activity, .staged, .recs, .hdr 0x58, .regs 0x93, .regs 0x91, .regs 0x38, .violations, .ports, .suspects, .hdr 0x28, .hdr 0x12, .gens, .spares, .hdr 0x10, .clusters, .snap, .heldRecs, .taint, .watch, .word 0x28 0x98, .kernels, .redNodes, .redInputs, .mbox, .hdr 0x40, .cores, .rails, .regions, .engines, .word 0x20 0x54, .word 0x08 0x108, .word 0x08 0x104, .ftab, .meas, .snaps] : List Part) ++ ([.hdr 0x18, .mirror, .replicas, .drift, .ringQ, .word 0x40 0x6C, .svcNotices, .hdr 0x48, .droops, .pkg, .regs 0x18] : List Part)) := by
  refine ⟨_, rfl, only_start fun hL h0 => ?_⟩
  refine settle_only (names_of_subset (by simp)) ?_
  repeat' first
    | with_reducible first
      | exact h0
      | assumption
    | (refine names_trans hL ?_
       try simp only [keyTypes, Nat.reduceMod]
       decide)
    | (refine names_trans hL ?_
       try simp only [keyTypes, Nat.reduceMod]
       refine names_trans (names_of_subset ?_) names_regs_word
       simp
       done)
    | (refine names_trans hL ?_
       refine names_trans (names_of_subset ?_) names_port_word
       simp
       done)
    | with_reducible first
      | refine names_cons ?_ ?_
      | refine only_ite ?_ ?_
      | refine only_ite_snd ?_ ?_
      | refine only_ite_fst ?_ ?_
      | refine originStep_only (hL := ?_) (ho := ?_)
      | refine closeAt_only (hL := ?_) (ho := ?_)
      | refine advanceTo_only (hL := ?_) (ho := ?_)
    | split
    | (with_reducible refine only_samp (z := [.grid, .probes, .profiles, .clusters, .heldRecs, .regions]) ?_ ?_ ?_ ?_ ?_ ?_ ?_ ?_ ?_
       · refine names_trans hL ?_
         first | decide | (refine names_of_subset ?_; simp; done)
       iterate 7 · first | with_reducible rfl | (intro _; with_reducible rfl) | exact fun h => not_free h rfl | (intro _; dsimp only; split <;> rfl) | exact rfl | exact fun _ => rfl)
    | dsimp only

theorem execEpochOrigin_only (stuck : List Nat) (s : State) : ∃ st', execEpochOrigin stuck s = .next st' ∧ s.onlyChanges st' (([.out, .xfers, .lines, .inj, .now, .grid, .evts, .cmds, .word 0x08 0x100, .word 0x02 0x58, .probes, .kats, .profiles, .power, .activity, .staged, .recs, .hdr 0x58, .regs 0x93, .regs 0x91, .regs 0x38, .violations, .ports, .suspects, .hdr 0x28, .hdr 0x12, .gens, .spares, .hdr 0x10, .clusters, .snap, .heldRecs, .taint, .watch, .word 0x28 0x98, .kernels, .redNodes, .redInputs, .mbox, .hdr 0x40, .cores, .rails, .regions, .engines, .word 0x20 0x54, .word 0x08 0x108, .word 0x08 0x104, .ftab, .meas, .snaps] : List Part) ++ ([.hdr 0x18, .mirror, .replicas, .drift, .ringQ, .word 0x40 0x6C, .svcNotices, .hdr 0x48, .droops, .pkg, .regs 0x18] : List Part)) := by
  refine ⟨_, rfl, only_start fun hL h0 => ?_⟩
  refine settle_only (names_of_subset (by simp)) ?_
  repeat' first
    | with_reducible first
      | exact h0
      | assumption
    | (refine names_trans hL ?_
       try simp only [keyTypes, Nat.reduceMod]
       decide)
    | (refine names_trans hL ?_
       try simp only [keyTypes, Nat.reduceMod]
       refine names_trans (names_of_subset ?_) names_regs_word
       simp
       done)
    | (refine names_trans hL ?_
       refine names_trans (names_of_subset ?_) names_port_word
       simp
       done)
    | with_reducible first
      | refine names_cons ?_ ?_
      | refine only_ite ?_ ?_
      | refine only_ite_snd ?_ ?_
      | refine only_ite_fst ?_ ?_
      | refine originStep_only (hL := ?_) (ho := ?_)
    | split
    | dsimp only

theorem execPartialMsg_only (src : BitVec 16) (p : RedPartial) (s : State) : ∃ st', execPartialMsg src p s = .next st' ∧ s.onlyChanges st' [.out, .xfers, .lines, .inj, .redNodes, .hdr 0x40, .drift, .ringQ, .word 0x40 0x6C, .mbox, .svcNotices, .cores, .hdr 0x48, .gens, .hdr 0x18, .staged, .recs, .hdr 0x58, .mirror, .regs 0x18] := by
  refine ⟨_, rfl, only_start fun hL h0 => ?_⟩
  refine settle_only (names_of_subset (by simp)) ?_
  repeat' first
    | with_reducible first
      | exact h0
      | assumption
    | (refine names_trans hL ?_
       try simp only [keyTypes, Nat.reduceMod]
       decide)
    | (refine names_trans hL ?_
       try simp only [keyTypes, Nat.reduceMod]
       refine names_trans (names_of_subset ?_) names_regs_word
       simp
       done)
    | with_reducible first
      | refine names_cons ?_ ?_
      | refine only_ite ?_ ?_
      | refine only_ite_snd ?_ ?_
      | refine only_ite_fst ?_ ?_
      | refine drift_only (hL := ?_) (ho := ?_)
      | refine redReceive_only (hL := ?_) (ho := ?_)
    | split
    | dsimp only

theorem execMergeWaitExpire_only (slot window : Nat) (s : State) : ∃ st', execMergeWaitExpire slot window s = .next st' ∧ s.onlyChanges st' [.out, .xfers, .lines, .inj, .redNodes, .hdr 0x40, .drift, .ringQ, .word 0x40 0x6C, .mbox, .svcNotices, .cores, .hdr 0x48, .now, .hdr 0x18, .staged, .recs, .hdr 0x58, .gens, .mirror, .regs 0x18] := by
  refine ⟨_, rfl, only_start fun hL h0 => ?_⟩
  refine settle_only (names_of_subset (by simp)) ?_
  repeat' first
    | with_reducible first
      | exact h0
      | assumption
    | (refine names_trans hL ?_
       try simp only [keyTypes, Nat.reduceMod]
       decide)
    | (refine names_trans hL ?_
       try simp only [keyTypes, Nat.reduceMod]
       refine names_trans (names_of_subset ?_) names_regs_word
       simp
       done)
    | with_reducible first
      | refine names_cons ?_ ?_
      | refine only_ite ?_ ?_
      | refine only_ite_snd ?_ ?_
      | refine only_ite_fst ?_ ?_
      | refine drift_only (hL := ?_) (ho := ?_)
      | refine redExpire_only (hL := ?_) (ho := ?_)
    | split
    | dsimp only

theorem execVerdictOut_only (engine : Nat) (s : State) : ∃ st', execVerdictOut engine s = .next st' ∧ s.onlyChanges st' [.out, .xfers, .lines, .inj, .engines, .drift, .ringQ, .word 0x40 0x6C, .mbox, .svcNotices, .suspects, .redInputs, .geyser, .word 0x20 0x84, .trace, .droops] := by
  refine ⟨_, rfl, only_start fun hL h0 => ?_⟩
  refine settle_only (names_of_subset (by simp)) ?_
  repeat' first
    | with_reducible first
      | exact h0
      | assumption
    | (refine names_trans hL ?_
       try simp only [keyTypes, Nat.reduceMod]
       decide)
    | with_reducible first
      | refine names_cons ?_ ?_
      | refine only_ite ?_ ?_
      | refine only_ite_snd ?_ ?_
      | refine only_ite_fst ?_ ?_
      | refine modEngine_only (hL := ?_) (ho := ?_)
      | refine svcVerdict_only (hL := ?_) (ho := ?_)
      | refine verdictPost_only (hL := ?_) (ho := ?_)
      | refine traceVerdict_only (hL := ?_) (ho := ?_)
      | refine pwrVerdict_only (hL := ?_) (ho := ?_)
    | split
    | dsimp only

/-! TimeStep -/

theorem actRelock_only {s : State} {b : Bcast} (hL : names L [.clock, .relock, .evts] = true) 
    (ho : s0.onlyChanges s L) : s0.onlyChanges (actRelock s b).s L := by
  unfold actRelock
  try dsimp only
  repeat' first
    | with_reducible assumption
    | (refine names_trans hL ?_
       try simp only [keyTypes, Nat.reduceMod]
       decide)
    | with_reducible first
      | refine names_cons ?_ ?_
      | refine only_ite ?_ ?_
      | refine only_ite_snd ?_ ?_
      | refine only_ite_fst ?_ ?_
      | refine only_ite_s ?_ ?_
      | refine relockStart_only (he := by assumption) (hL := ?_) (ho := ?_)
    | split
    | dsimp only

theorem timeRelockCmd_only {c : CmdIn} {s : State} (hL : names L [.clock, .relock, .evts, .cmds, .bcasts, .word 0x40 0x50, .hdr 0x40, .inj, .mbox] = true) 
    (ho : s0.onlyChanges s L) : s0.onlyChanges (timeRelockCmd c s) L := by
  unfold timeRelockCmd
  try dsimp only
  repeat' first
    | with_reducible assumption
    | (refine names_trans hL ?_
       try simp only [keyTypes, Nat.reduceMod]
       decide)
    | with_reducible first
      | refine names_cons ?_ ?_
      | refine only_ite ?_ ?_
      | refine only_ite_snd ?_ ?_
      | refine only_ite_fst ?_ ?_
      | refine relockStart_only (he := by assumption) (hL := ?_) (ho := ?_)
      | refine failCmd_only (hL := ?_) (ho := ?_)
      | refine bcastSend_only (hL := ?_) (h_act := fun u x1 hu => ?_) (ho := ?_)
      | refine actRelock_only (hL := ?_) (ho := ?_)
      | refine waitFor_only (hL := ?_) (ho := ?_)
    | split
    | dsimp only

theorem execTimeRelock_only (c : CmdIn) (s : State) : ∃ st', execTimeRelock c s = .next st' ∧ s.onlyChanges st' [.out, .xfers, .lines, .inj, .cmds, .power, .bpwr, .word 0x50 0x54, .activity, .host, .tap, .regs 0x08, .hdr 0x08, .clock, .relock, .evts, .bcasts, .word 0x40 0x50, .hdr 0x40, .mbox] := by
  refine ⟨_, rfl, only_start fun hL h0 => ?_⟩
  refine settle_only (names_of_subset (by simp)) ?_
  repeat' first
    | with_reducible first
      | exact h0
      | assumption
    | (refine names_trans hL ?_
       try simp only [keyTypes, Nat.reduceMod]
       decide)
    | (refine names_trans hL ?_
       try simp only [keyTypes, Nat.reduceMod]
       refine names_trans (names_of_subset ?_) names_regs_word
       simp
       done)
    | with_reducible first
      | refine names_cons ?_ ?_
      | refine only_ite ?_ ?_
      | refine only_ite_snd ?_ ?_
      | refine only_ite_fst ?_ ?_
      | refine runCmd_only (hL := ?_) (h_effect := fun u hu => ?_) (ho := ?_)
      | refine timeRelockCmd_only (hL := ?_) (ho := ?_)
    | split
    | dsimp only

theorem actsStep_only {s : State} {d : Int} (hL : names L [.redNodes, .engines, .ftab] = true) 
    (ho : s0.onlyChanges s L) : s0.onlyChanges (State.actsStep s d) L := by
  unfold State.actsStep
  try dsimp only
  repeat' first
    | with_reducible assumption
    | (refine names_trans hL ?_
       try simp only [keyTypes, Nat.reduceMod]
       decide)
    | with_reducible first
      | refine names_cons ?_ ?_
      | refine only_ite ?_ ?_
      | refine only_ite_snd ?_ ?_
      | refine only_ite_fst ?_ ?_
    | split
    | (with_reducible refine only_reds (z := [.redNodes]) ?_ ?_ ?_ ?_
       · refine names_trans hL ?_
         first | decide | (refine names_of_subset ?_; simp; done)
       iterate 2 · first | with_reducible rfl | (intro _; with_reducible rfl) | exact fun h => not_free h rfl | (intro _; dsimp only; split <;> rfl) | exact rfl | exact fun _ => rfl)
    | (with_reducible refine only_forest (z := [.engines, .ftab]) ?_ ?_ ?_ ?_ ?_
       · refine names_trans hL ?_
         first | decide | (refine names_of_subset ?_; simp; done)
       iterate 3 · first | with_reducible rfl | (intro _; with_reducible rfl) | exact fun h => not_free h rfl | (intro _; dsimp only; split <;> rfl) | exact rfl | exact fun _ => rfl)
    | (with_reducible refine only_mk (z := [.redNodes, .engines, .ftab]) hL ?_ ?_
       · intro p hp
         cases p <;> first | (dsimp only [Part.same]; done) | (dsimp only [Part.same, State.reg, State.hdr]; intro _ _; with_reducible rfl) | exact not_free (free_of_outside hp) (by decide) | exact not_free (free_of_outside hp) rfl | exact trivial | (dsimp only [Part.same]; split <;> rfl))
    | dsimp only

theorem evtStepped_only {s : State} {e : Evt} (hL : names L [.cmds, .evts, .ringQ, .out, .xfers, .word 0x40 0x6C, .mbox, .svcNotices, .hdr 0x40, .gens, .jobs, .staged, .recs, .hdr 0x58, .waves, .regs 0x08, .snuff, .hdr 0x61, .geyser, .grid, .clock, .relock] = true) 
    (ho : s0.onlyChanges s L) : s0.onlyChanges (State.evtStepped s e) L := by
  unfold State.evtStepped
  try dsimp only
  repeat' first
    | with_reducible assumption
    | (refine names_trans hL ?_
       try simp only [keyTypes, Nat.reduceMod]
       decide)
    | (refine names_trans hL ?_
       try simp only [keyTypes, Nat.reduceMod]
       refine names_trans (names_of_subset ?_) names_regs_word
       simp
       done)
    | with_reducible first
      | refine names_cons ?_ ?_
      | refine only_ite ?_ ?_
      | refine only_ite_snd ?_ ?_
      | refine only_ite_fst ?_ ?_
      | refine startFail_only (hL := ?_) (ho := ?_)
      | refine waveFail_only (hL := ?_) (ho := ?_)
      | refine snuffStepped_only (hL := ?_) (ho := ?_)
      | refine evtDrop_only (hL := ?_) (ho := ?_)
      | refine complete_only (hL := ?_) (ho := ?_)
      | refine modGeyser_only (hL := ?_) (ho := ?_)
      | refine endBcast_only (hL := ?_) (ho := ?_)
      | refine originEnd_only (hL := ?_) (ho := ?_)
      | refine relockFail_only (hL := ?_) (ho := ?_)
      | refine only_foldl (fun u x hu => ?_) ?_
      | refine only_foldl_snd (fun u x hu => ?_) ?_
      | refine only_foldl_fst (fun u x hu => ?_) ?_
    | split
    | dsimp only

theorem geyserStepped_only {s : State} {vNew : FT} (hL : names L [.geyser] = true) 
    (ho : s0.onlyChanges s L) : s0.onlyChanges (State.geyserStepped s vNew) L := by
  unfold State.geyserStepped
  try dsimp only
  repeat' first
    | with_reducible assumption
    | (refine names_trans hL ?_
       try simp only [keyTypes, Nat.reduceMod]
       decide)
    | with_reducible first
      | refine names_cons ?_ ?_
      | refine only_ite ?_ ?_
      | refine only_ite_snd ?_ ?_
      | refine only_ite_fst ?_ ?_
      | refine modGeyser_only (hL := ?_) (ho := ?_)
    | split
    | dsimp only

theorem stepTime_only {s : State} {vOld vNew : FT} (hL : names L (([.now, .tick, .clock, .pps, .tports, .redNodes, .engines, .ftab, .cmds, .evts, .ringQ, .out, .xfers, .word 0x40 0x6C, .mbox, .svcNotices, .hdr 0x40, .gens, .jobs, .staged, .recs, .hdr 0x58, .waves, .regs 0x08, .snuff, .hdr 0x61, .geyser, .grid, .relock, .word 0x02 0x58, .probes, .kats, .profiles, .power, .activity, .regs 0x93, .regs 0x91, .regs 0x38, .violations, .ports, .suspects, .hdr 0x28, .hdr 0x12, .spares, .hdr 0x10, .clusters, .snap, .heldRecs, .taint, .watch] : List Part) ++ ([.word 0x28 0x98, .kernels, .redInputs, .inj, .cores, .rails, .regions, .word 0x20 0x54, .meas, .snaps, .hdr 0x18, .mirror, .replicas, .drift, .hdr 0x48, .droops, .pkg, .rings, .regs 0x18] : List Part)) = true) 
    (ho : s0.onlyChanges s L) : s0.onlyChanges (State.stepTime s vOld vNew) L := by
  unfold State.stepTime
  try dsimp only
  repeat' first
    | with_reducible assumption
    | (refine names_trans hL ?_
       try simp only [keyTypes, Nat.reduceMod]
       decide)
    | (refine names_trans hL ?_
       try simp only [keyTypes, Nat.reduceMod]
       refine names_trans (names_of_subset ?_) names_regs_word
       simp
       done)
    | (refine names_trans hL ?_
       refine names_trans (names_of_subset ?_) names_port_word
       simp
       done)
    | with_reducible first
      | refine names_cons ?_ ?_
      | refine only_ite ?_ ?_
      | refine only_ite_snd ?_ ?_
      | refine only_ite_fst ?_ ?_
      | refine actsStep_only (hL := ?_) (ho := ?_)
      | refine evtStepped_only (hL := ?_) (ho := ?_)
      | refine geyserStepped_only (hL := ?_) (ho := ?_)
      | refine closeAt_only (hL := ?_) (ho := ?_)
      | refine gridFrom_only (hL := ?_) (ho := ?_)
      | refine syncAll_only (hL := ?_) (ho := ?_)
      | refine gatesStep_only (hL := ?_) (ho := ?_)
      | refine only_foldl (fun u x hu => ?_) ?_
      | refine only_foldl_snd (fun u x hu => ?_) ?_
      | refine only_foldl_fst (fun u x hu => ?_) ?_
    | split
    | (with_reducible refine modTime_only (z := [.clock, .pps, .tports, .evts, .relock]) ?_ ?_ ?_ ?_ ?_ ?_ ?_
       · refine names_trans hL ?_
         first | decide | (refine names_of_subset ?_; simp; done)
       iterate 5 · first | with_reducible rfl | (intro _; with_reducible rfl) | exact fun h => not_free h rfl | (intro _; dsimp only; split <;> rfl) | exact rfl | exact fun _ => rfl)
    | (with_reducible refine only_now (z := [.now]) ?_ ?_ ?_
       · refine names_trans hL ?_
         first | decide | (refine names_of_subset ?_; simp; done)
       iterate 1 · first | with_reducible rfl | (intro _; with_reducible rfl) | exact fun h => not_free h rfl | (intro _; dsimp only; split <;> rfl) | exact rfl | exact fun _ => rfl)
    | (with_reducible refine only_tick (z := [.tick]) ?_ ?_ ?_
       · refine names_trans hL ?_
         first | decide | (refine names_of_subset ?_; simp; done)
       iterate 1 · first | with_reducible rfl | (intro _; with_reducible rfl) | exact fun h => not_free h rfl | (intro _; dsimp only; split <;> rfl) | exact rfl | exact fun _ => rfl)
    | (with_reducible refine only_mk (z := (([.now, .tick, .clock, .pps, .tports, .redNodes, .engines, .ftab, .cmds, .evts, .ringQ, .out, .xfers, .word 0x40 0x6C, .mbox, .svcNotices, .hdr 0x40, .gens, .jobs, .staged, .recs, .hdr 0x58, .waves, .regs 0x08, .snuff, .hdr 0x61, .geyser, .grid, .relock, .word 0x02 0x58, .probes, .kats, .profiles, .power, .activity, .regs 0x93, .regs 0x91, .regs 0x38, .violations, .ports, .suspects, .hdr 0x28, .hdr 0x12, .spares, .hdr 0x10, .clusters, .snap, .heldRecs, .taint, .watch] : List Part) ++ ([.word 0x28 0x98, .kernels, .redInputs, .inj, .cores, .rails, .regions, .word 0x20 0x54, .meas, .snaps, .hdr 0x18, .mirror, .replicas, .drift, .hdr 0x48, .droops, .pkg, .rings, .regs 0x18] : List Part))) hL ?_ ?_
       · intro p hp
         cases p <;> first | (dsimp only [Part.same]; done) | (dsimp only [Part.same, State.reg, State.hdr]; intro _ _; with_reducible rfl) | exact not_free (free_of_outside hp) (by decide) | exact not_free (free_of_outside hp) rfl | exact trivial | (dsimp only [Part.same]; split <;> rfl))
    | dsimp only

theorem lockAt_only {s : State} {vOld vNew : FT} {rate : Int} (hL : names L (([.now, .tick, .clock, .pps, .tports, .redNodes, .engines, .ftab, .cmds, .evts, .ringQ, .out, .xfers, .word 0x40 0x6C, .mbox, .svcNotices, .hdr 0x40, .gens, .jobs, .staged, .recs, .hdr 0x58, .waves, .regs 0x08, .snuff, .hdr 0x61, .geyser, .grid, .relock, .word 0x02 0x58, .probes, .kats, .profiles, .power, .activity, .regs 0x93, .regs 0x91, .regs 0x38, .violations, .ports, .suspects, .hdr 0x28, .hdr 0x12, .spares, .hdr 0x10, .clusters, .snap, .heldRecs, .taint, .watch] : List Part) ++ ([.word 0x28 0x98, .kernels, .redInputs, .inj, .cores, .rails, .regions, .word 0x20 0x54, .meas, .snaps, .hdr 0x18, .mirror, .replicas, .drift, .hdr 0x48, .droops, .pkg, .rings, .hdr 0x30, .regs 0x18] : List Part)) = true) 
    (ho : s0.onlyChanges s L) : s0.onlyChanges (State.lockAt s vOld vNew rate) L := by
  unfold State.lockAt
  try dsimp only
  repeat' first
    | with_reducible assumption
    | (refine names_trans hL ?_
       try simp only [keyTypes, Nat.reduceMod]
       decide)
    | (refine names_trans hL ?_
       try simp only [keyTypes, Nat.reduceMod]
       refine names_trans (names_of_subset ?_) names_regs_word
       simp
       done)
    | (refine names_trans hL ?_
       refine names_trans (names_of_subset ?_) names_port_word
       simp
       done)
    | with_reducible first
      | refine names_cons ?_ ?_
      | refine only_ite ?_ ?_
      | refine only_ite_snd ?_ ?_
      | refine only_ite_fst ?_ ?_
      | refine stepTime_only (hL := ?_) (ho := ?_)
      | refine timeErr_only (hL := ?_) (ho := ?_)
      | refine setServo_only (hL := ?_) (ho := ?_)
      | refine log_only (hL := ?_) (ho := ?_)
    | split
    | (with_reducible refine modTime_only (z := [.clock, .pps, .tports, .evts, .relock]) ?_ ?_ ?_ ?_ ?_ ?_ ?_
       · refine names_trans hL ?_
         first | decide | (refine names_of_subset ?_; simp; done)
       iterate 5 · first | with_reducible rfl | (intro _; with_reducible rfl) | exact fun h => not_free h rfl | (intro _; dsimp only; split <;> rfl) | exact rfl | exact fun _ => rfl)
    | dsimp only

theorem timeSetAt_only {s : State} {vOld vNew : FT} (hL : names L (([.now, .tick, .clock, .pps, .tports, .redNodes, .engines, .ftab, .cmds, .evts, .ringQ, .out, .xfers, .word 0x40 0x6C, .mbox, .svcNotices, .hdr 0x40, .gens, .jobs, .staged, .recs, .hdr 0x58, .waves, .regs 0x08, .snuff, .hdr 0x61, .geyser, .grid, .relock, .word 0x02 0x58, .probes, .kats, .profiles, .power, .activity, .regs 0x93, .regs 0x91, .regs 0x38, .violations, .ports, .suspects, .hdr 0x28, .hdr 0x12, .spares, .hdr 0x10, .clusters, .snap, .heldRecs, .taint, .watch] : List Part) ++ ([.word 0x28 0x98, .kernels, .redInputs, .inj, .cores, .rails, .regions, .word 0x20 0x54, .meas, .snaps, .hdr 0x18, .mirror, .replicas, .drift, .hdr 0x48, .droops, .pkg, .rings, .hdr 0x30, .regs 0x18] : List Part)) = true) 
    (ho : s0.onlyChanges s L) : s0.onlyChanges (State.timeSetAt s vOld vNew) L := by
  unfold State.timeSetAt
  try dsimp only
  repeat' first
    | with_reducible assumption
    | (refine names_trans hL ?_
       try simp only [keyTypes, Nat.reduceMod]
       decide)
    | (refine names_trans hL ?_
       try simp only [keyTypes, Nat.reduceMod]
       refine names_trans (names_of_subset ?_) names_regs_word
       simp
       done)
    | (refine names_trans hL ?_
       refine names_trans (names_of_subset ?_) names_port_word
       simp
       done)
    | with_reducible first
      | refine names_cons ?_ ?_
      | refine only_ite ?_ ?_
      | refine only_ite_snd ?_ ?_
      | refine only_ite_fst ?_ ?_
      | refine lockAt_only (hL := ?_) (ho := ?_)
    | split
    | (with_reducible refine modTime_only (z := [.clock, .pps, .tports, .evts, .relock]) ?_ ?_ ?_ ?_ ?_ ?_ ?_
       · refine names_trans hL ?_
         first | decide | (refine names_of_subset ?_; simp; done)
       iterate 5 · first | with_reducible rfl | (intro _; with_reducible rfl) | exact fun h => not_free h rfl | (intro _; dsimp only; split <;> rfl) | exact rfl | exact fun _ => rfl)
    | dsimp only

theorem execTimeSet_only (c : CmdIn) (s : State) : ∃ st', execTimeSet c s = .next st' ∧ s.onlyChanges st' (([.out, .xfers, .lines, .inj, .cmds, .power, .bpwr, .word 0x50 0x54, .activity, .host, .tap, .regs 0x08, .hdr 0x08, .pps, .now, .tick, .clock, .tports, .redNodes, .engines, .ftab, .evts, .ringQ, .word 0x40 0x6C, .mbox, .svcNotices, .hdr 0x40, .gens, .jobs, .staged, .recs, .hdr 0x58, .waves, .snuff, .hdr 0x61, .geyser, .grid, .relock, .word 0x02 0x58, .probes, .kats, .profiles, .regs 0x93, .regs 0x91, .regs 0x38, .violations, .ports, .suspects, .hdr 0x28, .hdr 0x12] : List Part) ++ ([.spares, .hdr 0x10, .clusters, .snap, .heldRecs, .taint, .watch, .word 0x28 0x98, .kernels, .redInputs, .cores, .rails, .regions, .word 0x20 0x54, .meas, .snaps, .hdr 0x18, .mirror, .replicas, .drift, .hdr 0x48, .droops, .pkg, .rings, .hdr 0x30, .regs 0x18] : List Part)) := by
  refine ⟨_, rfl, only_start fun hL h0 => ?_⟩
  refine settle_only (names_of_subset (by simp)) ?_
  repeat' first
    | with_reducible first
      | exact h0
      | assumption
    | (refine names_trans hL ?_
       try simp only [keyTypes, Nat.reduceMod]
       decide)
    | (refine names_trans hL ?_
       try simp only [keyTypes, Nat.reduceMod]
       refine names_trans (names_of_subset ?_) names_regs_word
       simp
       done)
    | (refine names_trans hL ?_
       refine names_trans (names_of_subset ?_) names_port_word
       simp
       done)
    | with_reducible first
      | refine names_cons ?_ ?_
      | refine only_ite ?_ ?_
      | refine only_ite_snd ?_ ?_
      | refine only_ite_fst ?_ ?_
      | refine runCmd_only (hL := ?_) (h_effect := fun u hu => ?_) (ho := ?_)
      | refine failCmd_only (hL := ?_) (ho := ?_)
      | refine waitFor_only (hL := ?_) (ho := ?_)
      | refine ok_only (hL := ?_) (ho := ?_)
      | refine timeSetAt_only (hL := ?_) (ho := ?_)
    | split
    | (with_reducible refine modTime_only (z := [.pps, .clock, .tports, .evts, .relock]) ?_ ?_ ?_ ?_ ?_ ?_ ?_
       · refine names_trans hL ?_
         first | decide | (refine names_of_subset ?_; simp; done)
       iterate 5 · first | with_reducible rfl | (intro _; with_reducible rfl) | exact fun h => not_free h rfl | (intro _; dsimp only; split <;> rfl) | exact rfl | exact fun _ => rfl)
    | dsimp only

theorem relockOwn_only {s : State} {ok : Bool} (hL : names L [.bcasts] = true) 
    (ho : s0.onlyChanges s L) : s0.onlyChanges (State.relockOwn s ok) L := by
  unfold State.relockOwn
  try dsimp only
  repeat' first
    | with_reducible assumption
    | (refine names_trans hL ?_
       try simp only [keyTypes, Nat.reduceMod]
       decide)
    | with_reducible first
      | refine names_cons ?_ ?_
      | refine only_ite ?_ ?_
      | refine only_ite_snd ?_ ?_
      | refine only_ite_fst ?_ ?_
    | split
    | (with_reducible refine modSvc_only (z := [.bcasts]) ?_ ?_ ?_ ?_ ?_ ?_ ?_
       · refine names_trans hL ?_
         first | decide | (refine names_of_subset ?_; simp; done)
       iterate 5 · first | with_reducible rfl | (intro _; with_reducible rfl) | exact fun h => not_free h rfl | (intro _; dsimp only; split <;> rfl) | exact rfl | exact fun _ => rfl)
    | dsimp only

theorem relockReport_only {s : State} (hL : names L [.bcasts, .relock] = true) 
    (ho : s0.onlyChanges s L) : s0.onlyChanges (State.relockReport s) L := by
  unfold State.relockReport
  try dsimp only
  repeat' first
    | with_reducible assumption
    | (refine names_trans hL ?_
       try simp only [keyTypes, Nat.reduceMod]
       decide)
    | with_reducible first
      | refine names_cons ?_ ?_
      | refine only_ite ?_ ?_
      | refine only_ite_snd ?_ ?_
      | refine only_ite_fst ?_ ?_
      | refine relockOwn_only (hL := ?_) (ho := ?_)
    | split
    | (with_reducible refine modTime_only (z := [.relock]) ?_ ?_ ?_ ?_ ?_ ?_ ?_
       · refine names_trans hL ?_
         first | decide | (refine names_of_subset ?_; simp; done)
       iterate 5 · first | with_reducible rfl | (intro _; with_reducible rfl) | exact fun h => not_free h rfl | (intro _; dsimp only; split <;> rfl) | exact rfl | exact fun _ => rfl)
    | dsimp only

theorem sampleStep_only {s : State} {ls : FT} {first last : Int × Int} (hL : names L (([.hdr 0x30, .now, .tick, .clock, .pps, .tports, .redNodes, .engines, .ftab, .cmds, .evts, .ringQ, .out, .xfers, .word 0x40 0x6C, .mbox, .svcNotices, .hdr 0x40, .gens, .jobs, .staged, .recs, .hdr 0x58, .waves, .regs 0x08, .snuff, .hdr 0x61, .geyser, .grid, .relock, .word 0x02 0x58, .probes, .kats, .profiles, .power, .activity, .regs 0x93, .regs 0x91, .regs 0x38, .violations, .ports, .suspects, .hdr 0x28, .hdr 0x12, .spares, .hdr 0x10, .clusters, .snap, .heldRecs, .taint] : List Part) ++ ([.watch, .word 0x28 0x98, .kernels, .redInputs, .inj, .cores, .rails, .regions, .word 0x20 0x54, .meas, .snaps, .hdr 0x18, .mirror, .replicas, .drift, .hdr 0x48, .droops, .pkg, .rings, .regs 0x18] : List Part)) = true) 
    (ho : s0.onlyChanges s L) : s0.onlyChanges (State.sampleStep s ls first last) L := by
  unfold State.sampleStep
  try dsimp only
  repeat' first
    | with_reducible assumption
    | (refine names_trans hL ?_
       try simp only [keyTypes, Nat.reduceMod]
       decide)
    | (refine names_trans hL ?_
       try simp only [keyTypes, Nat.reduceMod]
       refine names_trans (names_of_subset ?_) names_regs_word
       simp
       done)
    | (refine names_trans hL ?_
       refine names_trans (names_of_subset ?_) names_port_word
       simp
       done)
    | with_reducible first
      | refine names_cons ?_ ?_
      | refine only_ite ?_ ?_
      | refine only_ite_snd ?_ ?_
      | refine only_ite_fst ?_ ?_
      | refine timeErr_only (hL := ?_) (ho := ?_)
      | refine lockAt_only (hL := ?_) (ho := ?_)
    | split
    | dsimp only

theorem relockDone_only {s : State} {p : Bool × Nat} (hL : names L [.cmds, .word 0x08 0x100] = true) 
    (ho : s0.onlyChanges s L) : s0.onlyChanges (State.relockDone s p) L := by
  unfold State.relockDone
  try dsimp only
  repeat' first
    | with_reducible assumption
    | (refine names_trans hL ?_
       try simp only [keyTypes, Nat.reduceMod]
       decide)
    | with_reducible first
      | refine names_cons ?_ ?_
      | refine only_ite ?_ ?_
      | refine only_ite_snd ?_ ?_
      | refine only_ite_fst ?_ ?_
      | refine bcastDone_only (hL := ?_) (ho := ?_)
      | refine waitPage_only (hL := ?_) (ho := ?_)
      | refine endWait_only (hL := ?_) (ho := ?_)
    | split
    | dsimp only

theorem ppsSample_only {s : State} {t : Int} (hL : names L [.hdr 0x30, .pps, .clock, .gens, .relock, .staged, .recs, .hdr 0x58, .mbox] = true) 
    (ho : s0.onlyChanges s L) : s0.onlyChanges (State.ppsSample s t) L := by
  unfold State.ppsSample
  try dsimp only
  repeat' first
    | with_reducible assumption
    | (refine names_trans hL ?_
       try simp only [keyTypes, Nat.reduceMod]
       decide)
    | with_reducible first
      | refine names_cons ?_ ?_
      | refine only_ite ?_ ?_
      | refine only_ite_snd ?_ ?_
      | refine only_ite_fst ?_ ?_
      | refine timeErr_only (hL := ?_) (ho := ?_)
      | refine setServo_only (hL := ?_) (ho := ?_)
      | refine servoSample_only (hL := ?_) (ho := ?_)
    | split
    | (with_reducible refine modTime_only (z := [.pps, .clock, .relock]) ?_ ?_ ?_ ?_ ?_ ?_ ?_
       · refine names_trans hL ?_
         first | decide | (refine names_of_subset ?_; simp; done)
       iterate 5 · first | with_reducible rfl | (intro _; with_reducible rfl) | exact fun h => not_free h rfl | (intro _; dsimp only; split <;> rfl) | exact rfl | exact fun _ => rfl)
    | dsimp only

theorem actAll_only {s : State} {b : Bcast} (hL : names L [.evts, .grid, .clock, .relock, .snuff, .hdr 0x61, .hdr 0x48, .waves, .staged, .recs, .hdr 0x58, .hdr 0x40, .word 0x40 0x50, .jobs, .gens, .verify, .ringQ, .out, .xfers, .word 0x40 0x6C, .mbox, .svcNotices, .cmds, .word 0x08 0x110, .word 0x08 0x10C, .word 0x08 0x108, .word 0x08 0x104, .word 0x08 0x100, .hdr 0x12, .spares] = true) 
    (ho : s0.onlyChanges s L) : s0.onlyChanges (actAll s b).s L := by
  unfold actAll
  try dsimp only
  repeat' first
    | with_reducible assumption
    | (refine names_trans hL ?_
       try simp only [keyTypes, Nat.reduceMod]
       decide)
    | with_reducible first
      | refine names_cons ?_ ?_
      | refine only_ite ?_ ?_
      | refine only_ite_snd ?_ ?_
      | refine only_ite_fst ?_ ?_
      | refine only_ite_s ?_ ?_
      | refine actEpoch_only (hL := ?_) (ho := ?_)
      | refine actRelock_only (hL := ?_) (ho := ?_)
      | refine actSnuff_only (hL := ?_) (ho := ?_)
      | refine actWaves_only (hL := ?_) (ho := ?_)
    | split
    | dsimp only

theorem execLockStep_only (s : State) : ∃ st', execLockStep s = .next st' ∧ s.onlyChanges st' (([.out, .xfers, .lines, .inj, .hdr 0x30, .now, .tick, .clock, .pps, .tports, .redNodes, .engines, .ftab, .cmds, .evts, .ringQ, .word 0x40 0x6C, .mbox, .svcNotices, .hdr 0x40, .gens, .jobs, .staged, .recs, .hdr 0x58, .waves, .regs 0x08, .snuff, .hdr 0x61, .geyser, .grid, .relock, .word 0x02 0x58, .probes, .kats, .profiles, .power, .activity, .regs 0x93, .regs 0x91, .regs 0x38, .violations, .ports, .suspects, .hdr 0x28, .hdr 0x12, .spares, .hdr 0x10, .clusters, .snap] : List Part) ++ ([.heldRecs, .taint, .watch, .word 0x28 0x98, .kernels, .redInputs, .cores, .rails, .regions, .word 0x20 0x54, .meas, .snaps, .hdr 0x18, .mirror, .replicas, .drift, .hdr 0x48, .droops, .pkg, .rings, .regs 0x18] : List Part)) := by
  refine ⟨_, rfl, only_start fun hL h0 => ?_⟩
  refine settle_only (names_of_subset (by simp)) ?_
  repeat' first
    | with_reducible first
      | exact h0
      | assumption
    | (refine names_trans hL ?_
       try simp only [keyTypes, Nat.reduceMod]
       decide)
    | (refine names_trans hL ?_
       try simp only [keyTypes, Nat.reduceMod]
       refine names_trans (names_of_subset ?_) names_regs_word
       simp
       done)
    | (refine names_trans hL ?_
       refine names_trans (names_of_subset ?_) names_port_word
       simp
       done)
    | with_reducible first
      | refine names_cons ?_ ?_
      | refine only_ite ?_ ?_
      | refine only_ite_snd ?_ ?_
      | refine only_ite_fst ?_ ?_
      | refine sampleStep_only (hL := ?_) (ho := ?_)
    | split
    | dsimp only

theorem execRelockStep_only (s : State) : ∃ st', execRelockStep s = .next st' ∧ s.onlyChanges st' (([.out, .xfers, .lines, .inj, .evts, .relock, .hdr 0x30, .now, .tick, .clock, .pps, .tports, .redNodes, .engines, .ftab, .cmds, .ringQ, .word 0x40 0x6C, .mbox, .svcNotices, .hdr 0x40, .gens, .jobs, .staged, .recs, .hdr 0x58, .waves, .regs 0x08, .snuff, .hdr 0x61, .geyser, .grid, .word 0x02 0x58, .probes, .kats, .profiles, .power, .activity, .regs 0x93, .regs 0x91, .regs 0x38, .violations, .ports, .suspects, .hdr 0x28, .hdr 0x12, .spares, .hdr 0x10, .clusters, .snap] : List Part) ++ ([.heldRecs, .taint, .watch, .word 0x28 0x98, .kernels, .redInputs, .cores, .rails, .regions, .word 0x20 0x54, .meas, .snaps, .hdr 0x18, .mirror, .replicas, .drift, .hdr 0x48, .droops, .pkg, .rings, .bcasts, .regs 0x18] : List Part)) := by
  refine ⟨_, rfl, only_start fun hL h0 => ?_⟩
  refine settle_only (names_of_subset (by simp)) ?_
  repeat' first
    | with_reducible first
      | exact h0
      | assumption
    | (refine names_trans hL ?_
       try simp only [keyTypes, Nat.reduceMod]
       decide)
    | (refine names_trans hL ?_
       try simp only [keyTypes, Nat.reduceMod]
       refine names_trans (names_of_subset ?_) names_regs_word
       simp
       done)
    | (refine names_trans hL ?_
       refine names_trans (names_of_subset ?_) names_port_word
       simp
       done)
    | with_reducible first
      | refine names_cons ?_ ?_
      | refine only_ite ?_ ?_
      | refine only_ite_snd ?_ ?_
      | refine only_ite_fst ?_ ?_
      | refine evtDrop_only (hL := ?_) (ho := ?_)
      | refine sampleStep_only (hL := ?_) (ho := ?_)
      | refine relockDone_only (hL := ?_) (ho := ?_)
      | refine relockOwn_only (hL := ?_) (ho := ?_)
    | split
    | (with_reducible refine modTime_only (z := [.evts, .relock, .clock, .pps, .tports]) ?_ ?_ ?_ ?_ ?_ ?_ ?_
       · refine names_trans hL ?_
         first | decide | (refine names_of_subset ?_; simp; done)
       iterate 5 · first | with_reducible rfl | (intro _; with_reducible rfl) | exact fun h => not_free h rfl | (intro _; dsimp only; split <;> rfl) | exact rfl | exact fun _ => rfl)
    | dsimp only

theorem execPpsInEdge_only (ts : Nat) (s : State) : ∃ st', execPpsInEdge ts s = .next st' ∧ s.onlyChanges st' (([.out, .xfers, .lines, .inj, .now, .pps, .cmds, .tick, .clock, .tports, .redNodes, .engines, .ftab, .evts, .ringQ, .word 0x40 0x6C, .mbox, .svcNotices, .hdr 0x40, .gens, .jobs, .staged, .recs, .hdr 0x58, .waves, .regs 0x08, .snuff, .hdr 0x61, .geyser, .grid, .relock, .word 0x02 0x58, .probes, .kats, .profiles, .power, .activity, .regs 0x93, .regs 0x91, .regs 0x38, .violations, .ports, .suspects, .hdr 0x28, .hdr 0x12, .spares, .hdr 0x10, .clusters, .snap, .heldRecs] : List Part) ++ ([.taint, .watch, .word 0x28 0x98, .kernels, .redInputs, .cores, .rails, .regions, .word 0x20 0x54, .meas, .snaps, .hdr 0x18, .mirror, .replicas, .drift, .hdr 0x48, .droops, .pkg, .rings, .hdr 0x30, .regs 0x18] : List Part)) := by
  refine ⟨_, rfl, only_start fun hL h0 => ?_⟩
  refine settle_only (names_of_subset (by simp)) ?_
  repeat' first
    | with_reducible first
      | exact h0
      | assumption
    | (refine names_trans hL ?_
       try simp only [keyTypes, Nat.reduceMod]
       decide)
    | (refine names_trans hL ?_
       try simp only [keyTypes, Nat.reduceMod]
       refine names_trans (names_of_subset ?_) names_regs_word
       simp
       done)
    | (refine names_trans hL ?_
       refine names_trans (names_of_subset ?_) names_port_word
       simp
       done)
    | with_reducible first
      | refine names_cons ?_ ?_
      | refine only_ite ?_ ?_
      | refine only_ite_snd ?_ ?_
      | refine only_ite_fst ?_ ?_
      | refine advanceTo_only (hL := ?_) (ho := ?_)
      | refine endWait_only (hL := ?_) (ho := ?_)
      | refine timeSetAt_only (hL := ?_) (ho := ?_)
      | refine ppsSample_only (hL := ?_) (ho := ?_)
    | split
    | (with_reducible refine modTime_only (z := [.pps, .clock, .tports, .evts, .relock]) ?_ ?_ ?_ ?_ ?_ ?_ ?_
       · refine names_trans hL ?_
         first | decide | (refine names_of_subset ?_; simp; done)
       iterate 5 · first | with_reducible rfl | (intro _; with_reducible rfl) | exact fun h => not_free h rfl | (intro _; dsimp only; split <;> rfl) | exact rfl | exact fun _ => rfl)
    | (with_reducible refine only_pkg (z := [.pkg]) ?_ ?_ ?_
       · refine names_trans hL ?_
         first | decide | (refine names_of_subset ?_; simp; done)
       iterate 1 · first | with_reducible rfl | (intro _; with_reducible rfl) | exact fun h => not_free h rfl | (intro _; dsimp only; split <;> rfl) | exact rfl | exact fun _ => rfl)
    | dsimp only

theorem execBcast_only (port : Nat) (b : Bcast) (s : State) : ∃ st', execBcast port b s = .next st' ∧ s.onlyChanges st' [.out, .xfers, .lines, .inj, .snuff, .hdr 0x61, .word 0x40 0x50, .hdr 0x40, .bcasts, .mbox, .evts, .grid, .clock, .relock, .hdr 0x48, .waves, .staged, .recs, .hdr 0x58, .jobs, .gens, .verify, .ringQ, .word 0x40 0x6C, .svcNotices, .cmds, .word 0x08 0x110, .word 0x08 0x10C, .word 0x08 0x108, .word 0x08 0x104, .word 0x08 0x100, .hdr 0x12, .spares] := by
  refine ⟨_, rfl, only_start fun hL h0 => ?_⟩
  refine settle_only (names_of_subset (by simp)) ?_
  repeat' first
    | with_reducible first
      | exact h0
      | assumption
    | (refine names_trans hL ?_
       try simp only [keyTypes, Nat.reduceMod]
       decide)
    | with_reducible first
      | refine names_cons ?_ ?_
      | refine only_ite ?_ ?_
      | refine only_ite_snd ?_ ?_
      | refine only_ite_fst ?_ ?_
      | refine markerTake_only (hL := ?_) (ho := ?_)
      | refine bcastTake_only (hL := ?_) (h_act := fun u x1 hu => ?_) (ho := ?_)
      | refine actAll_only (hL := ?_) (ho := ?_)
    | split
    | dsimp only

/-! Loop -/

theorem execNop_only (c : CmdIn) (s : State) : ∃ st', execNop c s = .next st' ∧ s.onlyChanges st' [.out, .xfers, .lines, .inj, .cmds, .power, .bpwr, .word 0x50 0x54, .activity, .host, .tap, .regs 0x08, .hdr 0x08] := by
  refine ⟨_, rfl, only_start fun hL h0 => ?_⟩
  refine settle_only (names_of_subset (by simp)) ?_
  repeat' first
    | with_reducible first
      | exact h0
      | assumption
    | (refine names_trans hL ?_
       try simp only [keyTypes, Nat.reduceMod]
       decide)
    | (refine names_trans hL ?_
       try simp only [keyTypes, Nat.reduceMod]
       refine names_trans (names_of_subset ?_) names_regs_word
       simp
       done)
    | with_reducible first
      | refine names_cons ?_ ?_
      | refine only_ite ?_ ?_
      | refine only_ite_snd ?_ ?_
      | refine only_ite_fst ?_ ?_
      | refine runCmd_only (hL := ?_) (h_effect := fun u hu => ?_) (ho := ?_)
      | refine ok_only (hL := ?_) (ho := ?_)
    | split
    | dsimp only

theorem execEcho_only (c : CmdIn) (s : State) : ∃ st', execEcho c s = .next st' ∧ s.onlyChanges st' [.out, .xfers, .lines, .inj, .cmds, .power, .bpwr, .word 0x50 0x54, .activity, .host, .tap, .regs 0x08, .hdr 0x08] := by
  refine ⟨_, rfl, only_start fun hL h0 => ?_⟩
  refine settle_only (names_of_subset (by simp)) ?_
  repeat' first
    | with_reducible first
      | exact h0
      | assumption
    | (refine names_trans hL ?_
       try simp only [keyTypes, Nat.reduceMod]
       decide)
    | (refine names_trans hL ?_
       try simp only [keyTypes, Nat.reduceMod]
       refine names_trans (names_of_subset ?_) names_regs_word
       simp
       done)
    | with_reducible first
      | refine names_cons ?_ ?_
      | refine only_ite ?_ ?_
      | refine only_ite_snd ?_ ?_
      | refine only_ite_fst ?_ ?_
      | refine runCmd_only (hL := ?_) (h_effect := fun u hu => ?_) (ho := ?_)
      | refine ok_only (hL := ?_) (ho := ?_)
      | refine res_only (hL := ?_) (ho := ?_)
      | refine only_foldl (fun u x hu => ?_) ?_
      | refine only_foldl_snd (fun u x hu => ?_) ?_
      | refine only_foldl_fst (fun u x hu => ?_) ?_
    | split
    | dsimp only

theorem loopResults_only {s : State} {c : CmdIn} {depth frames : Nat} (hL : names L [.free, .word 0x08 0x110, .word 0x08 0x10C, .word 0x08 0x108, .word 0x08 0x104, .word 0x08 0x100, .word 0x08 0x11C, .word 0x08 0x118, .word 0x08 0x114] = true) 
    (ho : s0.onlyChanges s L) : s0.onlyChanges (State.loopResults s c depth frames).2 L := by
  unfold State.loopResults
  try dsimp only
  repeat' first
    | with_reducible assumption
    | (refine names_trans hL ?_
       try simp only [keyTypes, Nat.reduceMod]
       decide)
    | with_reducible first
      | refine names_cons ?_ ?_
      | refine only_ite ?_ ?_
      | refine only_ite_snd ?_ ?_
      | refine only_ite_fst ?_ ?_
      | refine draw_only (hL := ?_) (ho := ?_)
      | refine res_only (hL := ?_) (ho := ?_)
    | split
    | dsimp only

theorem loopDone_only {s : State} {c : CmdIn} {depth frames : Nat} (hL : names L [.free, .word 0x08 0x110, .word 0x08 0x10C, .word 0x08 0x108, .word 0x08 0x104, .word 0x08 0x100, .word 0x08 0x11C, .word 0x08 0x118, .word 0x08 0x114, .cmds] = true) 
    (ho : s0.onlyChanges s L) : s0.onlyChanges (State.loopDone s c depth frames) L := by
  unfold State.loopDone
  try dsimp only
  repeat' first
    | with_reducible assumption
    | (refine names_trans hL ?_
       try simp only [keyTypes, Nat.reduceMod]
       decide)
    | with_reducible first
      | refine names_cons ?_ ?_
      | refine only_ite ?_ ?_
      | refine only_ite_snd ?_ ?_
      | refine only_ite_fst ?_ ?_
      | refine loopResults_only (hL := ?_) (ho := ?_)
      | refine ok_only (hL := ?_) (ho := ?_)
      | refine failCmd_only (hL := ?_) (ho := ?_)
    | split
    | dsimp only

theorem loopPort_only {s : State} {c : CmdIn} {depth p frames len : Nat} (hL : names L (([.cmds, .sinter, .mbox, .regs 0x93, .regs 0x91, .regs 0x38, .host, .out, .tap, .proxies, .ports, .chans, .links, .pkg, .hdr 0x93, .hdr 0x91, .hdr 0x38, .mirror, .gens, .jobs, .verify, .ringQ, .xfers, .word 0x40 0x6C, .svcNotices, .hdr 0x40, .redNodes, .hdr 0x18, .staged, .recs, .hdr 0x58, .tports, .evts, .clock, .relock, .word 0x08 0x100, .hdr 0x30, .pps, .pace, .violations, .suspects, .hdr 0x28, .hdr 0x12, .spares, .probes, .linkKeys, .hdr 0x50, .word 0x50 0x5C, .peers, .snuff] : List Part) ++ ([.plans, .clusters, .watch, .bcasts, .free, .word 0x08 0x110, .word 0x08 0x10C, .word 0x08 0x108, .word 0x08 0x104, .word 0x08 0x11C, .word 0x08 0x118, .word 0x08 0x114, .regs 0x18] : List Part)) = true) 
    (ho : s0.onlyChanges s L) : s0.onlyChanges (State.loopPort s c depth p frames len) L := by
  unfold State.loopPort
  try dsimp only
  repeat' first
    | with_reducible assumption
    | (refine names_trans hL ?_
       try simp only [keyTypes, Nat.reduceMod]
       decide)
    | (refine names_trans hL ?_
       try simp only [keyTypes, Nat.reduceMod]
       refine names_trans (names_of_subset ?_) names_regs_word
       simp
       done)
    | (refine names_trans hL ?_
       refine names_trans (names_of_subset ?_) names_port_word
       simp
       done)
    | (refine names_trans hL ?_
       refine names_trans (names_of_subset ?_) names_port_hdr
       simp
       done)
    | with_reducible first
      | refine names_cons ?_ ?_
      | refine only_ite ?_ ?_
      | refine only_ite_snd ?_ ?_
      | refine only_ite_fst ?_ ?_
      | refine failCmd_only (hL := ?_) (ho := ?_)
      | refine resetPort_only (hL := ?_) (ho := ?_)
      | refine loopDone_only (hL := ?_) (ho := ?_)
      | refine waitFor_only (hL := ?_) (ho := ?_)
      | refine modPort_only (hL := ?_) (ho := ?_)
    | split
    | dsimp only

theorem loopRunCmd_only {c : CmdIn} {s : State} (hL : names L (([.cmds, .free, .word 0x08 0x110, .word 0x08 0x10C, .word 0x08 0x108, .word 0x08 0x104, .word 0x08 0x100, .word 0x08 0x11C, .word 0x08 0x118, .word 0x08 0x114, .probes, .sinter, .mbox, .regs 0x93, .regs 0x91, .regs 0x38, .host, .out, .tap, .proxies, .ports, .chans, .links, .pkg, .hdr 0x93, .hdr 0x91, .hdr 0x38, .mirror, .gens, .jobs, .verify, .ringQ, .xfers, .word 0x40 0x6C, .svcNotices, .hdr 0x40, .redNodes, .hdr 0x18, .staged, .recs, .hdr 0x58, .tports, .evts, .clock, .relock, .hdr 0x30, .pps, .pace, .violations, .suspects] : List Part) ++ ([.hdr 0x28, .hdr 0x12, .spares, .linkKeys, .hdr 0x50, .word 0x50 0x5C, .peers, .snuff, .plans, .clusters, .watch, .bcasts, .regs 0x18] : List Part)) = true) 
    (ho : s0.onlyChanges s L) : s0.onlyChanges (loopRunCmd c s) L := by
  unfold loopRunCmd
  try dsimp only
  repeat' first
    | with_reducible assumption
    | (refine names_trans hL ?_
       try simp only [keyTypes, Nat.reduceMod]
       decide)
    | (refine names_trans hL ?_
       try simp only [keyTypes, Nat.reduceMod]
       refine names_trans (names_of_subset ?_) names_regs_word
       simp
       done)
    | (refine names_trans hL ?_
       refine names_trans (names_of_subset ?_) names_port_word
       simp
       done)
    | (refine names_trans hL ?_
       refine names_trans (names_of_subset ?_) names_port_hdr
       simp
       done)
    | with_reducible first
      | refine names_cons ?_ ?_
      | refine only_ite ?_ ?_
      | refine only_ite_snd ?_ ?_
      | refine only_ite_fst ?_ ?_
      | refine badArg_only (hL := ?_) (ho := ?_)
      | refine failCmd_only (hL := ?_) (ho := ?_)
      | refine loopDone_only (hL := ?_) (ho := ?_)
      | refine modProbe_only (hL := ?_) (ho := ?_)
      | refine setProbe_only (hL := ?_) (ho := ?_)
      | refine loopPort_only (hL := ?_) (ho := ?_)
    | split
    | dsimp only

theorem execLoopRun_only (c : CmdIn) (s : State) : ∃ st', execLoopRun c s = .next st' ∧ s.onlyChanges st' (([.out, .xfers, .lines, .inj, .cmds, .power, .bpwr, .word 0x50 0x54, .activity, .host, .tap, .regs 0x08, .hdr 0x08, .free, .probes, .sinter, .mbox, .regs 0x93, .regs 0x91, .regs 0x38, .proxies, .ports, .chans, .links, .pkg, .hdr 0x93, .hdr 0x91, .hdr 0x38, .mirror, .gens, .jobs, .verify, .ringQ, .word 0x40 0x6C, .svcNotices, .hdr 0x40, .redNodes, .hdr 0x18, .staged, .recs, .hdr 0x58, .tports, .evts, .clock, .relock, .hdr 0x30, .pps, .pace, .violations, .suspects] : List Part) ++ ([.hdr 0x28, .hdr 0x12, .spares, .linkKeys, .hdr 0x50, .word 0x50 0x5C, .peers, .snuff, .plans, .clusters, .watch, .bcasts, .regs 0x18] : List Part)) := by
  refine ⟨_, rfl, only_start fun hL h0 => ?_⟩
  refine settle_only (names_of_subset (by simp)) ?_
  repeat' first
    | with_reducible first
      | exact h0
      | assumption
    | (refine names_trans hL ?_
       try simp only [keyTypes, Nat.reduceMod]
       decide)
    | (refine names_trans hL ?_
       try simp only [keyTypes, Nat.reduceMod]
       refine names_trans (names_of_subset ?_) names_regs_word
       simp
       done)
    | (refine names_trans hL ?_
       refine names_trans (names_of_subset ?_) names_port_word
       simp
       done)
    | (refine names_trans hL ?_
       refine names_trans (names_of_subset ?_) names_port_hdr
       simp
       done)
    | with_reducible first
      | refine names_cons ?_ ?_
      | refine only_ite ?_ ?_
      | refine only_ite_snd ?_ ?_
      | refine only_ite_fst ?_ ?_
      | refine runCmd_only (hL := ?_) (h_effect := fun u hu => ?_) (ho := ?_)
      | refine loopRunCmd_only (hL := ?_) (ho := ?_)
    | split
    | dsimp only

theorem execLoopTimeout_only (pkg : Bool) (page : BitVec 3) (s : State) : ∃ st', execLoopTimeout pkg page s = .next st' ∧ s.onlyChanges st' [.out, .xfers, .lines, .inj, .cmds, .ports] := by
  refine ⟨_, rfl, only_start fun hL h0 => ?_⟩
  refine settle_only (names_of_subset (by simp)) ?_
  repeat' first
    | with_reducible first
      | exact h0
      | assumption
    | (refine names_trans hL ?_
       try simp only [keyTypes, Nat.reduceMod]
       decide)
    | with_reducible first
      | refine names_cons ?_ ?_
      | refine only_ite ?_ ?_
      | refine only_ite_snd ?_ ?_
      | refine only_ite_fst ?_ ?_
      | refine complete_only (hL := ?_) (ho := ?_)
      | refine startTraining_only (hL := ?_) (ho := ?_)
    | split
    | dsimp only

/-! Command -/

theorem noCommand_only (cls op : Nat) (c : CmdIn) (s : State) : ∃ st', noCommand cls op c s = .next st' ∧ s.onlyChanges st' [.out, .xfers, .lines, .inj, .cmds, .power, .bpwr, .word 0x50 0x54, .activity, .host, .tap, .regs 0x08, .hdr 0x08] := by
  refine ⟨_, rfl, only_start fun hL h0 => ?_⟩
  refine settle_only (names_of_subset (by simp)) ?_
  repeat' first
    | with_reducible first
      | exact h0
      | assumption
    | (refine names_trans hL ?_
       try simp only [keyTypes, Nat.reduceMod]
       decide)
    | (refine names_trans hL ?_
       try simp only [keyTypes, Nat.reduceMod]
       refine names_trans (names_of_subset ?_) names_regs_word
       simp
       done)
    | with_reducible first
      | refine names_cons ?_ ?_
      | refine only_ite ?_ ?_
      | refine only_ite_snd ?_ ?_
      | refine only_ite_fst ?_ ?_
      | refine runCmd_only (hL := ?_) (h_effect := fun u hu => ?_) (ho := ?_)
    | split
    | dsimp only

theorem baseCommand_only (op : Nat) (c : CmdIn) (s : State) : ∃ st', baseCommand op c s = .next st' ∧ s.onlyChanges st' [.out, .xfers, .lines, .inj, .cmds, .power, .bpwr, .word 0x50 0x54, .activity, .host, .tap, .regs 0x08, .hdr 0x08] := by
  unfold baseCommand
  split
  · exact only_widen (execNop_only _ _) (by decide)
  · exact only_widen (execEcho_only _ _) (by decide)
  · exact only_widen (noCommand_only _ _ _ _) (by decide)

theorem samplingCommand_only (op : Nat) (c : CmdIn) (s : State) : ∃ st', samplingCommand op c s = .next st' ∧ s.onlyChanges st' [.out, .xfers, .lines, .inj, .cmds, .power, .bpwr, .word 0x50 0x54, .activity, .host, .tap, .regs 0x08, .hdr 0x08, .evts, .grid, .bcasts, .word 0x40 0x50, .hdr 0x40, .mbox, .hdr 0x10, .probes, .hdr 0x50, .word 0x50 0x5C, .pace, .clusters, .staged, .recs, .hdr 0x58, .regs 0x93, .regs 0x91, .regs 0x38, .violations, .ports, .suspects, .hdr 0x28, .hdr 0x12, .gens, .spares, .regions, .geyser, .ringQ] := by
  unfold samplingCommand
  split
  · exact only_widen (execSetEpoch_only _ _) (by decide)
  · exact only_widen (execProbeReset_only _ _) (by decide)
  · exact only_widen (execClearTotals_only _ _) (by decide)
  · exact only_widen (execForceAdopt_only _ _) (by decide)
  · exact only_widen (execGeyserArm_only _ _) (by decide)
  · exact only_widen (execGeyserStop_only _ _) (by decide)
  · exact only_widen (noCommand_only _ _ _ _) (by decide)

theorem reductionCommand_only (op : Nat) (c : CmdIn) (s : State) : ∃ st', reductionCommand op c s = .next st' ∧ s.onlyChanges st' [.out, .xfers, .lines, .inj, .cmds, .power, .bpwr, .word 0x50 0x54, .activity, .host, .tap, .regs 0x08, .hdr 0x08, .hdr 0x18, .gens, .meas, .redNodes] := by
  unfold reductionCommand
  split
  · exact only_widen (execRedLoad_only _ _) (by decide)
  · exact only_widen (execRedActivate_only _ _) (by decide)
  · exact only_widen (execRedClearSlot_only _ _) (by decide)
  · exact only_widen (execRedCopySlot_only _ _) (by decide)
  · exact only_widen (execRedDump_only _ _) (by decide)
  · exact only_widen (noCommand_only _ _ _ _) (by decide)

theorem forestCommand_only (op : Nat) (c : CmdIn) (s : State) : ∃ st', forestCommand op c s = .next st' ∧ s.onlyChanges st' [.out, .xfers, .lines, .inj, .cmds, .power, .bpwr, .word 0x50 0x54, .activity, .host, .tap, .regs 0x08, .hdr 0x08, .hdr 0x20, .engines, .word 0x20 0x5C, .hdr 0x21, .gens, .meas, .ftab] := by
  unfold forestCommand
  split
  · exact only_widen (execForestLoad_only _ _) (by decide)
  · exact only_widen (execForestActivate_only _ _) (by decide)
  · exact only_widen (execForestScore_only _ _) (by decide)
  · exact only_widen (execForestDump_only _ _) (by decide)
  · exact only_widen (execFtabLoad_only _ _) (by decide)
  · exact only_widen (execFtabSeal_only _ _) (by decide)
  · exact only_widen (execFtabActivate_only _ _) (by decide)
  · exact only_widen (execFtabCopy_only _ _) (by decide)
  · exact only_widen (noCommand_only _ _ _ _) (by decide)

theorem checkCommand_only (op : Nat) (c : CmdIn) (s : State) : ∃ st', checkCommand op c s = .next st' ∧ s.onlyChanges st' [.out, .xfers, .lines, .inj, .cmds, .power, .bpwr, .word 0x50 0x54, .activity, .host, .tap, .regs 0x08, .hdr 0x08, .gens, .meas, .kernels, .notices, .ringQ, .mbox, .word 0x28 0xC4, .kats, .suspects, .staged, .recs, .hdr 0x58, .hdr 0x28, .hdr 0x12, .spares, .probes, .taint] := by
  unfold checkCommand
  split
  · exact only_widen (execCheckRegister_only _ _) (by decide)
  · exact only_widen (execCheckUnregister_only _ _) (by decide)
  · exact only_widen (execCheckPoison_only _ _) (by decide)
  · exact only_widen (execKatRun_only _ _) (by decide)
  · exact only_widen (execFence_only _ _) (by decide)
  · exact only_widen (execUnfence_only _ _) (by decide)
  · exact only_widen (execCheckClearStats_only _ _) (by decide)
  · exact only_widen (noCommand_only _ _ _ _) (by decide)

theorem timeCommand_only (op : Nat) (c : CmdIn) (s : State) : ∃ st', timeCommand op c s = .next st' ∧ s.onlyChanges st' (([.out, .xfers, .lines, .inj, .cmds, .power, .bpwr, .word 0x50 0x54, .activity, .host, .tap, .regs 0x08, .hdr 0x08, .clock, .relock, .evts, .bcasts, .word 0x40 0x50, .hdr 0x40, .mbox, .pps, .now, .tick, .tports, .redNodes, .engines, .ftab, .ringQ, .word 0x40 0x6C, .svcNotices, .gens, .jobs, .staged, .recs, .hdr 0x58, .waves, .snuff, .hdr 0x61, .geyser, .grid, .word 0x02 0x58, .probes, .kats, .profiles, .regs 0x93, .regs 0x91, .regs 0x38, .violations, .ports, .suspects] : List Part) ++ ([.hdr 0x28, .hdr 0x12, .spares, .hdr 0x10, .clusters, .snap, .heldRecs, .taint, .watch, .word 0x28 0x98, .kernels, .redInputs, .cores, .rails, .regions, .word 0x20 0x54, .meas, .snaps, .hdr 0x18, .mirror, .replicas, .drift, .hdr 0x48, .droops, .pkg, .rings, .hdr 0x30, .regs 0x18] : List Part)) := by
  unfold timeCommand
  split
  · exact only_widen (execTimeRelock_only _ _) (by decide)
  · exact only_widen (execTimeSet_only _ _) (by decide)
  · exact only_widen (execTimeHold_only _ _) (by decide)
  · exact only_widen (noCommand_only _ _ _ _) (by decide)

theorem linkCommand_only (op : Nat) (c : CmdIn) (s : State) : ∃ st', linkCommand op c s = .next st' ∧ s.onlyChanges st' (([.out, .xfers, .lines, .inj, .cmds, .power, .bpwr, .word 0x50 0x54, .activity, .host, .tap, .regs 0x08, .hdr 0x08, .sinter, .mbox, .regs 0x93, .regs 0x91, .regs 0x38, .proxies, .ports, .chans, .links, .pkg, .hdr 0x93, .hdr 0x91, .hdr 0x38, .mirror, .gens, .jobs, .verify, .ringQ, .word 0x40 0x6C, .svcNotices, .hdr 0x40, .redNodes, .hdr 0x18, .staged, .recs, .hdr 0x58, .tports, .evts, .clock, .relock, .hdr 0x30, .pps, .pace, .violations, .suspects, .hdr 0x28, .hdr 0x12] : List Part) ++ ([.spares, .probes, .linkKeys, .hdr 0x50, .word 0x50 0x5C, .peers, .snuff, .plans, .clusters, .watch, .bcasts, .regs 0x18] : List Part)) := by
  unfold linkCommand
  split
  · exact only_widen (execLinkReset_only _ _) (by decide)
  · exact only_widen (execGateSet_only _ _) (by decide)
  · exact only_widen (execParentSwap_only _ _) (by decide)
  · exact only_widen (execLaneRetire_only _ _) (by decide)
  · exact only_widen (execLinkStatsClear_only _ _) (by decide)
  · exact only_widen (execSinterPack_only _ _) (by decide)
  · exact only_widen (execSinterUnpack_only _ _) (by decide)
  · exact only_widen (noCommand_only _ _ _ _) (by decide)

theorem serviceCommand_only (op : Nat) (c : CmdIn) (s : State) : ∃ st', serviceCommand op c s = .next st' ∧ s.onlyChanges st' [.out, .xfers, .lines, .inj, .cmds, .power, .bpwr, .word 0x50 0x54, .activity, .host, .tap, .regs 0x08, .hdr 0x08, .hdr 0x40, .bcasts, .word 0x40 0x50, .mbox, .jobs, .gens, .evts, .verify, .staged, .recs, .hdr 0x58, .ringQ, .word 0x40 0x6C, .svcNotices, .hdr 0x12, .spares, .redInputs] := by
  unfold serviceCommand
  split
  · exact only_widen (execJobStart_only _ _) (by decide)
  · exact only_widen (execJobEnd_only _ _) (by decide)
  · exact only_widen (execStepMark_only _ _) (by decide)
  · exact only_widen (execJobLiveness_only _ _) (by decide)
  · exact only_widen (execRuntimeSet_only _ _) (by decide)
  · exact only_widen (noCommand_only _ _ _ _) (by decide)

theorem powerCommand_only (op : Nat) (c : CmdIn) (s : State) : ∃ st', powerCommand op c s = .next st' ∧ s.onlyChanges st' [.out, .xfers, .lines, .inj, .cmds, .power, .bpwr, .word 0x50 0x54, .activity, .host, .tap, .regs 0x08, .hdr 0x08, .word 0x48 0x50, .word 0x48 0x4C, .word 0x48 0x48, .hdr 0x48, .forced, .rails, .change, .staged, .recs, .hdr 0x58, .bcasts, .word 0x40 0x50, .hdr 0x40, .mbox, .evts, .waves, .jobs, .gens, .verify, .ringQ, .word 0x40 0x6C, .svcNotices, .hdr 0x12, .spares] := by
  unfold powerCommand
  split
  · exact only_widen (execHpwrSetCap_only _ _) (by decide)
  · exact only_widen (execHpwrResume_only _ _) (by decide)
  · exact only_widen (execHpwrTripClear_only _ _) (by decide)
  · exact only_widen (execHpwrRailClear_only _ _) (by decide)
  · exact only_widen (execBarrier_only _ _) (by decide)
  · exact only_widen (noCommand_only _ _ _ _) (by decide)

theorem blockCommand_only (op : Nat) (c : CmdIn) (s : State) : ∃ st', blockCommand op c s = .next st' ∧ s.onlyChanges st' [.out, .xfers, .lines, .inj, .cmds, .power, .bpwr, .word 0x50 0x54, .activity, .host, .tap, .regs 0x08, .hdr 0x08, .mbox, .trace, .rings, .hdr 0x60, .regs 0x60, .ringQ, .staged, .latches, .token] := by
  unfold blockCommand
  split
  · exact only_widen (execBpwrEnter_only _ _) (by decide)
  · exact only_widen (execBpwrReset_only _ _) (by decide)
  · exact only_widen (execBpwrWickTest_only _ _) (by decide)
  · exact only_widen (noCommand_only _ _ _ _) (by decide)

theorem fumCommand_only (op : Nat) (c : CmdIn) (s : State) : ∃ st', fumCommand op c s = .next st' ∧ s.onlyChanges st' [.out, .xfers, .lines, .inj, .cmds, .power, .bpwr, .word 0x50 0x54, .activity, .host, .tap, .regs 0x08, .hdr 0x08, .plans, .hdr 0x58, .log, .recs, .mbox, .staged, .regs 0x39, .hdr 0x39, .mirror] := by
  unfold fumCommand
  split
  · exact only_widen (execFumDump_only _ _) (by decide)
  · exact only_widen (execFumClear_only _ _) (by decide)
  · exact only_widen (execFumWrite_only _ _) (by decide)
  · exact only_widen (execStateCkpt_only _ _) (by decide)
  · exact only_widen (execStateRestore_only _ _) (by decide)
  · exact only_widen (execStatePull_only _ _) (by decide)
  · exact only_widen (execStateDigests_only _ _) (by decide)
  · exact only_widen (noCommand_only _ _ _ _) (by decide)

theorem debugCommand_only (op : Nat) (c : CmdIn) (s : State) : ∃ st', debugCommand op c s = .next st' ∧ s.onlyChanges st' (([.out, .xfers, .lines, .inj, .cmds, .power, .bpwr, .word 0x50 0x54, .activity, .host, .tap, .regs 0x08, .hdr 0x08, .hdr 0x60, .trace, .rings, .ringQ, .mbox, .staged, .token, .snuff, .bcasts, .word 0x40 0x50, .hdr 0x40, .evts, .hdr 0x61, .free, .probes, .sinter, .regs 0x93, .regs 0x91, .regs 0x38, .proxies, .ports, .chans, .links, .pkg, .hdr 0x93, .hdr 0x91, .hdr 0x38, .mirror, .gens, .jobs, .verify, .word 0x40 0x6C, .svcNotices, .redNodes, .hdr 0x18, .recs, .hdr 0x58] : List Part) ++ ([.tports, .clock, .relock, .hdr 0x30, .pps, .pace, .violations, .suspects, .hdr 0x28, .hdr 0x12, .spares, .linkKeys, .hdr 0x50, .word 0x50 0x5C, .peers, .plans, .clusters, .watch, .regs 0x18] : List Part)) := by
  unfold debugCommand
  split
  · exact only_widen (execTraceStart_only _ _) (by decide)
  · exact only_widen (execTraceStop_only _ _) (by decide)
  · exact only_widen (execTraceMark_only _ _) (by decide)
  · exact only_widen (execTraceAuth_only _ _) (by decide)
  · exact only_widen (execSnuffNow_only _ _) (by decide)
  · exact only_widen (execSnuffAt_only _ _) (by decide)
  · exact only_widen (execSnuffClear_only _ _) (by decide)
  · exact only_widen (execSnuffDump_only _ _) (by decide)
  · exact only_widen (execSnuffRelease_only _ _) (by decide)
  · exact only_widen (execLoopRun_only _ _) (by decide)
  · exact only_widen (noCommand_only _ _ _ _) (by decide)

theorem rootCommand_only (op : Nat) (c : CmdIn) (s : State) : ∃ st', rootCommand op c s = .next st' ∧ s.onlyChanges st' [.out, .xfers, .lines, .inj, .cmds, .power, .bpwr, .word 0x50 0x54, .activity, .host, .tap, .regs 0x08, .hdr 0x08, .rotState, .firmware, .meas] := by
  unfold rootCommand
  split
  · exact only_widen (execSpdmXfer_only _ _) (by decide)
  · exact only_widen (execFwStage_only _ _) (by decide)
  · exact only_widen (execFwCommit_only _ _) (by decide)
  · exact only_widen (execFwAbort_only _ _) (by decide)
  · exact only_widen (noCommand_only _ _ _ _) (by decide)

theorem names_baseCommand : names (([.out, .xfers, .lines, .inj, .cmds, .power, .bpwr, .word 0x50 0x54, .activity, .host, .tap, .regs 0x08, .hdr 0x08, .evts, .grid, .bcasts, .word 0x40 0x50, .hdr 0x40, .mbox, .hdr 0x10, .probes, .hdr 0x50, .word 0x50 0x5C, .pace, .clusters, .staged, .recs, .hdr 0x58, .regs 0x93, .regs 0x91, .regs 0x38, .violations, .ports, .suspects, .hdr 0x28, .hdr 0x12, .gens, .spares, .regions, .geyser, .ringQ, .hdr 0x18, .meas, .redNodes, .hdr 0x20, .engines, .word 0x20 0x5C, .hdr 0x21, .ftab, .kernels] : List Part) ++ ([.notices, .word 0x28 0xC4, .kats, .taint, .clock, .relock, .pps, .now, .tick, .tports, .word 0x40 0x6C, .svcNotices, .jobs, .waves, .snuff, .hdr 0x61, .word 0x02 0x58, .profiles, .snap, .heldRecs, .watch, .word 0x28 0x98, .redInputs, .cores, .rails, .word 0x20 0x54, .snaps, .mirror, .replicas, .drift, .hdr 0x48, .droops, .pkg, .rings, .hdr 0x30, .sinter, .proxies, .chans, .links, .hdr 0x93, .hdr 0x91, .hdr 0x38, .verify, .linkKeys, .peers, .plans, .word 0x48 0x50, .word 0x48 0x4C, .word 0x48 0x48, .forced] : List Part) ++ ([.change, .trace, .hdr 0x60, .regs 0x60, .latches, .token, .log, .regs 0x39, .hdr 0x39, .free, .rotState, .firmware, .regs 0x18] : List Part))
    [.out, .xfers, .lines, .inj, .cmds, .power, .bpwr, .word 0x50 0x54, .activity, .host, .tap, .regs 0x08, .hdr 0x08] = true := by decide

theorem names_samplingCommand : names (([.out, .xfers, .lines, .inj, .cmds, .power, .bpwr, .word 0x50 0x54, .activity, .host, .tap, .regs 0x08, .hdr 0x08, .evts, .grid, .bcasts, .word 0x40 0x50, .hdr 0x40, .mbox, .hdr 0x10, .probes, .hdr 0x50, .word 0x50 0x5C, .pace, .clusters, .staged, .recs, .hdr 0x58, .regs 0x93, .regs 0x91, .regs 0x38, .violations, .ports, .suspects, .hdr 0x28, .hdr 0x12, .gens, .spares, .regions, .geyser, .ringQ, .hdr 0x18, .meas, .redNodes, .hdr 0x20, .engines, .word 0x20 0x5C, .hdr 0x21, .ftab, .kernels] : List Part) ++ ([.notices, .word 0x28 0xC4, .kats, .taint, .clock, .relock, .pps, .now, .tick, .tports, .word 0x40 0x6C, .svcNotices, .jobs, .waves, .snuff, .hdr 0x61, .word 0x02 0x58, .profiles, .snap, .heldRecs, .watch, .word 0x28 0x98, .redInputs, .cores, .rails, .word 0x20 0x54, .snaps, .mirror, .replicas, .drift, .hdr 0x48, .droops, .pkg, .rings, .hdr 0x30, .sinter, .proxies, .chans, .links, .hdr 0x93, .hdr 0x91, .hdr 0x38, .verify, .linkKeys, .peers, .plans, .word 0x48 0x50, .word 0x48 0x4C, .word 0x48 0x48, .forced] : List Part) ++ ([.change, .trace, .hdr 0x60, .regs 0x60, .latches, .token, .log, .regs 0x39, .hdr 0x39, .free, .rotState, .firmware, .regs 0x18] : List Part))
    [.out, .xfers, .lines, .inj, .cmds, .power, .bpwr, .word 0x50 0x54, .activity, .host, .tap, .regs 0x08, .hdr 0x08, .evts, .grid, .bcasts, .word 0x40 0x50, .hdr 0x40, .mbox, .hdr 0x10, .probes, .hdr 0x50, .word 0x50 0x5C, .pace, .clusters, .staged, .recs, .hdr 0x58, .regs 0x93, .regs 0x91, .regs 0x38, .violations, .ports, .suspects, .hdr 0x28, .hdr 0x12, .gens, .spares, .regions, .geyser, .ringQ] = true := by decide

theorem names_reductionCommand : names (([.out, .xfers, .lines, .inj, .cmds, .power, .bpwr, .word 0x50 0x54, .activity, .host, .tap, .regs 0x08, .hdr 0x08, .evts, .grid, .bcasts, .word 0x40 0x50, .hdr 0x40, .mbox, .hdr 0x10, .probes, .hdr 0x50, .word 0x50 0x5C, .pace, .clusters, .staged, .recs, .hdr 0x58, .regs 0x93, .regs 0x91, .regs 0x38, .violations, .ports, .suspects, .hdr 0x28, .hdr 0x12, .gens, .spares, .regions, .geyser, .ringQ, .hdr 0x18, .meas, .redNodes, .hdr 0x20, .engines, .word 0x20 0x5C, .hdr 0x21, .ftab, .kernels] : List Part) ++ ([.notices, .word 0x28 0xC4, .kats, .taint, .clock, .relock, .pps, .now, .tick, .tports, .word 0x40 0x6C, .svcNotices, .jobs, .waves, .snuff, .hdr 0x61, .word 0x02 0x58, .profiles, .snap, .heldRecs, .watch, .word 0x28 0x98, .redInputs, .cores, .rails, .word 0x20 0x54, .snaps, .mirror, .replicas, .drift, .hdr 0x48, .droops, .pkg, .rings, .hdr 0x30, .sinter, .proxies, .chans, .links, .hdr 0x93, .hdr 0x91, .hdr 0x38, .verify, .linkKeys, .peers, .plans, .word 0x48 0x50, .word 0x48 0x4C, .word 0x48 0x48, .forced] : List Part) ++ ([.change, .trace, .hdr 0x60, .regs 0x60, .latches, .token, .log, .regs 0x39, .hdr 0x39, .free, .rotState, .firmware, .regs 0x18] : List Part))
    [.out, .xfers, .lines, .inj, .cmds, .power, .bpwr, .word 0x50 0x54, .activity, .host, .tap, .regs 0x08, .hdr 0x08, .hdr 0x18, .gens, .meas, .redNodes] = true := by decide

theorem names_forestCommand : names (([.out, .xfers, .lines, .inj, .cmds, .power, .bpwr, .word 0x50 0x54, .activity, .host, .tap, .regs 0x08, .hdr 0x08, .evts, .grid, .bcasts, .word 0x40 0x50, .hdr 0x40, .mbox, .hdr 0x10, .probes, .hdr 0x50, .word 0x50 0x5C, .pace, .clusters, .staged, .recs, .hdr 0x58, .regs 0x93, .regs 0x91, .regs 0x38, .violations, .ports, .suspects, .hdr 0x28, .hdr 0x12, .gens, .spares, .regions, .geyser, .ringQ, .hdr 0x18, .meas, .redNodes, .hdr 0x20, .engines, .word 0x20 0x5C, .hdr 0x21, .ftab, .kernels] : List Part) ++ ([.notices, .word 0x28 0xC4, .kats, .taint, .clock, .relock, .pps, .now, .tick, .tports, .word 0x40 0x6C, .svcNotices, .jobs, .waves, .snuff, .hdr 0x61, .word 0x02 0x58, .profiles, .snap, .heldRecs, .watch, .word 0x28 0x98, .redInputs, .cores, .rails, .word 0x20 0x54, .snaps, .mirror, .replicas, .drift, .hdr 0x48, .droops, .pkg, .rings, .hdr 0x30, .sinter, .proxies, .chans, .links, .hdr 0x93, .hdr 0x91, .hdr 0x38, .verify, .linkKeys, .peers, .plans, .word 0x48 0x50, .word 0x48 0x4C, .word 0x48 0x48, .forced] : List Part) ++ ([.change, .trace, .hdr 0x60, .regs 0x60, .latches, .token, .log, .regs 0x39, .hdr 0x39, .free, .rotState, .firmware, .regs 0x18] : List Part))
    [.out, .xfers, .lines, .inj, .cmds, .power, .bpwr, .word 0x50 0x54, .activity, .host, .tap, .regs 0x08, .hdr 0x08, .hdr 0x20, .engines, .word 0x20 0x5C, .hdr 0x21, .gens, .meas, .ftab] = true := by decide

theorem names_checkCommand : names (([.out, .xfers, .lines, .inj, .cmds, .power, .bpwr, .word 0x50 0x54, .activity, .host, .tap, .regs 0x08, .hdr 0x08, .evts, .grid, .bcasts, .word 0x40 0x50, .hdr 0x40, .mbox, .hdr 0x10, .probes, .hdr 0x50, .word 0x50 0x5C, .pace, .clusters, .staged, .recs, .hdr 0x58, .regs 0x93, .regs 0x91, .regs 0x38, .violations, .ports, .suspects, .hdr 0x28, .hdr 0x12, .gens, .spares, .regions, .geyser, .ringQ, .hdr 0x18, .meas, .redNodes, .hdr 0x20, .engines, .word 0x20 0x5C, .hdr 0x21, .ftab, .kernels] : List Part) ++ ([.notices, .word 0x28 0xC4, .kats, .taint, .clock, .relock, .pps, .now, .tick, .tports, .word 0x40 0x6C, .svcNotices, .jobs, .waves, .snuff, .hdr 0x61, .word 0x02 0x58, .profiles, .snap, .heldRecs, .watch, .word 0x28 0x98, .redInputs, .cores, .rails, .word 0x20 0x54, .snaps, .mirror, .replicas, .drift, .hdr 0x48, .droops, .pkg, .rings, .hdr 0x30, .sinter, .proxies, .chans, .links, .hdr 0x93, .hdr 0x91, .hdr 0x38, .verify, .linkKeys, .peers, .plans, .word 0x48 0x50, .word 0x48 0x4C, .word 0x48 0x48, .forced] : List Part) ++ ([.change, .trace, .hdr 0x60, .regs 0x60, .latches, .token, .log, .regs 0x39, .hdr 0x39, .free, .rotState, .firmware, .regs 0x18] : List Part))
    [.out, .xfers, .lines, .inj, .cmds, .power, .bpwr, .word 0x50 0x54, .activity, .host, .tap, .regs 0x08, .hdr 0x08, .gens, .meas, .kernels, .notices, .ringQ, .mbox, .word 0x28 0xC4, .kats, .suspects, .staged, .recs, .hdr 0x58, .hdr 0x28, .hdr 0x12, .spares, .probes, .taint] = true := by decide

theorem names_timeCommand : names (([.out, .xfers, .lines, .inj, .cmds, .power, .bpwr, .word 0x50 0x54, .activity, .host, .tap, .regs 0x08, .hdr 0x08, .evts, .grid, .bcasts, .word 0x40 0x50, .hdr 0x40, .mbox, .hdr 0x10, .probes, .hdr 0x50, .word 0x50 0x5C, .pace, .clusters, .staged, .recs, .hdr 0x58, .regs 0x93, .regs 0x91, .regs 0x38, .violations, .ports, .suspects, .hdr 0x28, .hdr 0x12, .gens, .spares, .regions, .geyser, .ringQ, .hdr 0x18, .meas, .redNodes, .hdr 0x20, .engines, .word 0x20 0x5C, .hdr 0x21, .ftab, .kernels] : List Part) ++ ([.notices, .word 0x28 0xC4, .kats, .taint, .clock, .relock, .pps, .now, .tick, .tports, .word 0x40 0x6C, .svcNotices, .jobs, .waves, .snuff, .hdr 0x61, .word 0x02 0x58, .profiles, .snap, .heldRecs, .watch, .word 0x28 0x98, .redInputs, .cores, .rails, .word 0x20 0x54, .snaps, .mirror, .replicas, .drift, .hdr 0x48, .droops, .pkg, .rings, .hdr 0x30, .sinter, .proxies, .chans, .links, .hdr 0x93, .hdr 0x91, .hdr 0x38, .verify, .linkKeys, .peers, .plans, .word 0x48 0x50, .word 0x48 0x4C, .word 0x48 0x48, .forced] : List Part) ++ ([.change, .trace, .hdr 0x60, .regs 0x60, .latches, .token, .log, .regs 0x39, .hdr 0x39, .free, .rotState, .firmware, .regs 0x18] : List Part))
    (([.out, .xfers, .lines, .inj, .cmds, .power, .bpwr, .word 0x50 0x54, .activity, .host, .tap, .regs 0x08, .hdr 0x08, .clock, .relock, .evts, .bcasts, .word 0x40 0x50, .hdr 0x40, .mbox, .pps, .now, .tick, .tports, .redNodes, .engines, .ftab, .ringQ, .word 0x40 0x6C, .svcNotices, .gens, .jobs, .staged, .recs, .hdr 0x58, .waves, .snuff, .hdr 0x61, .geyser, .grid, .word 0x02 0x58, .probes, .kats, .profiles, .regs 0x93, .regs 0x91, .regs 0x38, .violations, .ports, .suspects] : List Part) ++ ([.hdr 0x28, .hdr 0x12, .spares, .hdr 0x10, .clusters, .snap, .heldRecs, .taint, .watch, .word 0x28 0x98, .kernels, .redInputs, .cores, .rails, .regions, .word 0x20 0x54, .meas, .snaps, .hdr 0x18, .mirror, .replicas, .drift, .hdr 0x48, .droops, .pkg, .rings, .hdr 0x30, .regs 0x18] : List Part)) = true := by decide

theorem names_linkCommand : names (([.out, .xfers, .lines, .inj, .cmds, .power, .bpwr, .word 0x50 0x54, .activity, .host, .tap, .regs 0x08, .hdr 0x08, .evts, .grid, .bcasts, .word 0x40 0x50, .hdr 0x40, .mbox, .hdr 0x10, .probes, .hdr 0x50, .word 0x50 0x5C, .pace, .clusters, .staged, .recs, .hdr 0x58, .regs 0x93, .regs 0x91, .regs 0x38, .violations, .ports, .suspects, .hdr 0x28, .hdr 0x12, .gens, .spares, .regions, .geyser, .ringQ, .hdr 0x18, .meas, .redNodes, .hdr 0x20, .engines, .word 0x20 0x5C, .hdr 0x21, .ftab, .kernels] : List Part) ++ ([.notices, .word 0x28 0xC4, .kats, .taint, .clock, .relock, .pps, .now, .tick, .tports, .word 0x40 0x6C, .svcNotices, .jobs, .waves, .snuff, .hdr 0x61, .word 0x02 0x58, .profiles, .snap, .heldRecs, .watch, .word 0x28 0x98, .redInputs, .cores, .rails, .word 0x20 0x54, .snaps, .mirror, .replicas, .drift, .hdr 0x48, .droops, .pkg, .rings, .hdr 0x30, .sinter, .proxies, .chans, .links, .hdr 0x93, .hdr 0x91, .hdr 0x38, .verify, .linkKeys, .peers, .plans, .word 0x48 0x50, .word 0x48 0x4C, .word 0x48 0x48, .forced] : List Part) ++ ([.change, .trace, .hdr 0x60, .regs 0x60, .latches, .token, .log, .regs 0x39, .hdr 0x39, .free, .rotState, .firmware, .regs 0x18] : List Part))
    (([.out, .xfers, .lines, .inj, .cmds, .power, .bpwr, .word 0x50 0x54, .activity, .host, .tap, .regs 0x08, .hdr 0x08, .sinter, .mbox, .regs 0x93, .regs 0x91, .regs 0x38, .proxies, .ports, .chans, .links, .pkg, .hdr 0x93, .hdr 0x91, .hdr 0x38, .mirror, .gens, .jobs, .verify, .ringQ, .word 0x40 0x6C, .svcNotices, .hdr 0x40, .redNodes, .hdr 0x18, .staged, .recs, .hdr 0x58, .tports, .evts, .clock, .relock, .hdr 0x30, .pps, .pace, .violations, .suspects, .hdr 0x28, .hdr 0x12] : List Part) ++ ([.spares, .probes, .linkKeys, .hdr 0x50, .word 0x50 0x5C, .peers, .snuff, .plans, .clusters, .watch, .bcasts, .regs 0x18] : List Part)) = true := by decide

theorem names_serviceCommand : names (([.out, .xfers, .lines, .inj, .cmds, .power, .bpwr, .word 0x50 0x54, .activity, .host, .tap, .regs 0x08, .hdr 0x08, .evts, .grid, .bcasts, .word 0x40 0x50, .hdr 0x40, .mbox, .hdr 0x10, .probes, .hdr 0x50, .word 0x50 0x5C, .pace, .clusters, .staged, .recs, .hdr 0x58, .regs 0x93, .regs 0x91, .regs 0x38, .violations, .ports, .suspects, .hdr 0x28, .hdr 0x12, .gens, .spares, .regions, .geyser, .ringQ, .hdr 0x18, .meas, .redNodes, .hdr 0x20, .engines, .word 0x20 0x5C, .hdr 0x21, .ftab, .kernels] : List Part) ++ ([.notices, .word 0x28 0xC4, .kats, .taint, .clock, .relock, .pps, .now, .tick, .tports, .word 0x40 0x6C, .svcNotices, .jobs, .waves, .snuff, .hdr 0x61, .word 0x02 0x58, .profiles, .snap, .heldRecs, .watch, .word 0x28 0x98, .redInputs, .cores, .rails, .word 0x20 0x54, .snaps, .mirror, .replicas, .drift, .hdr 0x48, .droops, .pkg, .rings, .hdr 0x30, .sinter, .proxies, .chans, .links, .hdr 0x93, .hdr 0x91, .hdr 0x38, .verify, .linkKeys, .peers, .plans, .word 0x48 0x50, .word 0x48 0x4C, .word 0x48 0x48, .forced] : List Part) ++ ([.change, .trace, .hdr 0x60, .regs 0x60, .latches, .token, .log, .regs 0x39, .hdr 0x39, .free, .rotState, .firmware, .regs 0x18] : List Part))
    [.out, .xfers, .lines, .inj, .cmds, .power, .bpwr, .word 0x50 0x54, .activity, .host, .tap, .regs 0x08, .hdr 0x08, .hdr 0x40, .bcasts, .word 0x40 0x50, .mbox, .jobs, .gens, .evts, .verify, .staged, .recs, .hdr 0x58, .ringQ, .word 0x40 0x6C, .svcNotices, .hdr 0x12, .spares, .redInputs] = true := by decide

theorem names_powerCommand : names (([.out, .xfers, .lines, .inj, .cmds, .power, .bpwr, .word 0x50 0x54, .activity, .host, .tap, .regs 0x08, .hdr 0x08, .evts, .grid, .bcasts, .word 0x40 0x50, .hdr 0x40, .mbox, .hdr 0x10, .probes, .hdr 0x50, .word 0x50 0x5C, .pace, .clusters, .staged, .recs, .hdr 0x58, .regs 0x93, .regs 0x91, .regs 0x38, .violations, .ports, .suspects, .hdr 0x28, .hdr 0x12, .gens, .spares, .regions, .geyser, .ringQ, .hdr 0x18, .meas, .redNodes, .hdr 0x20, .engines, .word 0x20 0x5C, .hdr 0x21, .ftab, .kernels] : List Part) ++ ([.notices, .word 0x28 0xC4, .kats, .taint, .clock, .relock, .pps, .now, .tick, .tports, .word 0x40 0x6C, .svcNotices, .jobs, .waves, .snuff, .hdr 0x61, .word 0x02 0x58, .profiles, .snap, .heldRecs, .watch, .word 0x28 0x98, .redInputs, .cores, .rails, .word 0x20 0x54, .snaps, .mirror, .replicas, .drift, .hdr 0x48, .droops, .pkg, .rings, .hdr 0x30, .sinter, .proxies, .chans, .links, .hdr 0x93, .hdr 0x91, .hdr 0x38, .verify, .linkKeys, .peers, .plans, .word 0x48 0x50, .word 0x48 0x4C, .word 0x48 0x48, .forced] : List Part) ++ ([.change, .trace, .hdr 0x60, .regs 0x60, .latches, .token, .log, .regs 0x39, .hdr 0x39, .free, .rotState, .firmware, .regs 0x18] : List Part))
    [.out, .xfers, .lines, .inj, .cmds, .power, .bpwr, .word 0x50 0x54, .activity, .host, .tap, .regs 0x08, .hdr 0x08, .word 0x48 0x50, .word 0x48 0x4C, .word 0x48 0x48, .hdr 0x48, .forced, .rails, .change, .staged, .recs, .hdr 0x58, .bcasts, .word 0x40 0x50, .hdr 0x40, .mbox, .evts, .waves, .jobs, .gens, .verify, .ringQ, .word 0x40 0x6C, .svcNotices, .hdr 0x12, .spares] = true := by decide

theorem names_blockCommand : names (([.out, .xfers, .lines, .inj, .cmds, .power, .bpwr, .word 0x50 0x54, .activity, .host, .tap, .regs 0x08, .hdr 0x08, .evts, .grid, .bcasts, .word 0x40 0x50, .hdr 0x40, .mbox, .hdr 0x10, .probes, .hdr 0x50, .word 0x50 0x5C, .pace, .clusters, .staged, .recs, .hdr 0x58, .regs 0x93, .regs 0x91, .regs 0x38, .violations, .ports, .suspects, .hdr 0x28, .hdr 0x12, .gens, .spares, .regions, .geyser, .ringQ, .hdr 0x18, .meas, .redNodes, .hdr 0x20, .engines, .word 0x20 0x5C, .hdr 0x21, .ftab, .kernels] : List Part) ++ ([.notices, .word 0x28 0xC4, .kats, .taint, .clock, .relock, .pps, .now, .tick, .tports, .word 0x40 0x6C, .svcNotices, .jobs, .waves, .snuff, .hdr 0x61, .word 0x02 0x58, .profiles, .snap, .heldRecs, .watch, .word 0x28 0x98, .redInputs, .cores, .rails, .word 0x20 0x54, .snaps, .mirror, .replicas, .drift, .hdr 0x48, .droops, .pkg, .rings, .hdr 0x30, .sinter, .proxies, .chans, .links, .hdr 0x93, .hdr 0x91, .hdr 0x38, .verify, .linkKeys, .peers, .plans, .word 0x48 0x50, .word 0x48 0x4C, .word 0x48 0x48, .forced] : List Part) ++ ([.change, .trace, .hdr 0x60, .regs 0x60, .latches, .token, .log, .regs 0x39, .hdr 0x39, .free, .rotState, .firmware, .regs 0x18] : List Part))
    [.out, .xfers, .lines, .inj, .cmds, .power, .bpwr, .word 0x50 0x54, .activity, .host, .tap, .regs 0x08, .hdr 0x08, .mbox, .trace, .rings, .hdr 0x60, .regs 0x60, .ringQ, .staged, .latches, .token] = true := by decide

theorem names_fumCommand : names (([.out, .xfers, .lines, .inj, .cmds, .power, .bpwr, .word 0x50 0x54, .activity, .host, .tap, .regs 0x08, .hdr 0x08, .evts, .grid, .bcasts, .word 0x40 0x50, .hdr 0x40, .mbox, .hdr 0x10, .probes, .hdr 0x50, .word 0x50 0x5C, .pace, .clusters, .staged, .recs, .hdr 0x58, .regs 0x93, .regs 0x91, .regs 0x38, .violations, .ports, .suspects, .hdr 0x28, .hdr 0x12, .gens, .spares, .regions, .geyser, .ringQ, .hdr 0x18, .meas, .redNodes, .hdr 0x20, .engines, .word 0x20 0x5C, .hdr 0x21, .ftab, .kernels] : List Part) ++ ([.notices, .word 0x28 0xC4, .kats, .taint, .clock, .relock, .pps, .now, .tick, .tports, .word 0x40 0x6C, .svcNotices, .jobs, .waves, .snuff, .hdr 0x61, .word 0x02 0x58, .profiles, .snap, .heldRecs, .watch, .word 0x28 0x98, .redInputs, .cores, .rails, .word 0x20 0x54, .snaps, .mirror, .replicas, .drift, .hdr 0x48, .droops, .pkg, .rings, .hdr 0x30, .sinter, .proxies, .chans, .links, .hdr 0x93, .hdr 0x91, .hdr 0x38, .verify, .linkKeys, .peers, .plans, .word 0x48 0x50, .word 0x48 0x4C, .word 0x48 0x48, .forced] : List Part) ++ ([.change, .trace, .hdr 0x60, .regs 0x60, .latches, .token, .log, .regs 0x39, .hdr 0x39, .free, .rotState, .firmware, .regs 0x18] : List Part))
    [.out, .xfers, .lines, .inj, .cmds, .power, .bpwr, .word 0x50 0x54, .activity, .host, .tap, .regs 0x08, .hdr 0x08, .plans, .hdr 0x58, .log, .recs, .mbox, .staged, .regs 0x39, .hdr 0x39, .mirror] = true := by decide

theorem names_debugCommand : names (([.out, .xfers, .lines, .inj, .cmds, .power, .bpwr, .word 0x50 0x54, .activity, .host, .tap, .regs 0x08, .hdr 0x08, .evts, .grid, .bcasts, .word 0x40 0x50, .hdr 0x40, .mbox, .hdr 0x10, .probes, .hdr 0x50, .word 0x50 0x5C, .pace, .clusters, .staged, .recs, .hdr 0x58, .regs 0x93, .regs 0x91, .regs 0x38, .violations, .ports, .suspects, .hdr 0x28, .hdr 0x12, .gens, .spares, .regions, .geyser, .ringQ, .hdr 0x18, .meas, .redNodes, .hdr 0x20, .engines, .word 0x20 0x5C, .hdr 0x21, .ftab, .kernels] : List Part) ++ ([.notices, .word 0x28 0xC4, .kats, .taint, .clock, .relock, .pps, .now, .tick, .tports, .word 0x40 0x6C, .svcNotices, .jobs, .waves, .snuff, .hdr 0x61, .word 0x02 0x58, .profiles, .snap, .heldRecs, .watch, .word 0x28 0x98, .redInputs, .cores, .rails, .word 0x20 0x54, .snaps, .mirror, .replicas, .drift, .hdr 0x48, .droops, .pkg, .rings, .hdr 0x30, .sinter, .proxies, .chans, .links, .hdr 0x93, .hdr 0x91, .hdr 0x38, .verify, .linkKeys, .peers, .plans, .word 0x48 0x50, .word 0x48 0x4C, .word 0x48 0x48, .forced] : List Part) ++ ([.change, .trace, .hdr 0x60, .regs 0x60, .latches, .token, .log, .regs 0x39, .hdr 0x39, .free, .rotState, .firmware, .regs 0x18] : List Part))
    (([.out, .xfers, .lines, .inj, .cmds, .power, .bpwr, .word 0x50 0x54, .activity, .host, .tap, .regs 0x08, .hdr 0x08, .hdr 0x60, .trace, .rings, .ringQ, .mbox, .staged, .token, .snuff, .bcasts, .word 0x40 0x50, .hdr 0x40, .evts, .hdr 0x61, .free, .probes, .sinter, .regs 0x93, .regs 0x91, .regs 0x38, .proxies, .ports, .chans, .links, .pkg, .hdr 0x93, .hdr 0x91, .hdr 0x38, .mirror, .gens, .jobs, .verify, .word 0x40 0x6C, .svcNotices, .redNodes, .hdr 0x18, .recs, .hdr 0x58] : List Part) ++ ([.tports, .clock, .relock, .hdr 0x30, .pps, .pace, .violations, .suspects, .hdr 0x28, .hdr 0x12, .spares, .linkKeys, .hdr 0x50, .word 0x50 0x5C, .peers, .plans, .clusters, .watch, .regs 0x18] : List Part)) = true := by decide

theorem names_rootCommand : names (([.out, .xfers, .lines, .inj, .cmds, .power, .bpwr, .word 0x50 0x54, .activity, .host, .tap, .regs 0x08, .hdr 0x08, .evts, .grid, .bcasts, .word 0x40 0x50, .hdr 0x40, .mbox, .hdr 0x10, .probes, .hdr 0x50, .word 0x50 0x5C, .pace, .clusters, .staged, .recs, .hdr 0x58, .regs 0x93, .regs 0x91, .regs 0x38, .violations, .ports, .suspects, .hdr 0x28, .hdr 0x12, .gens, .spares, .regions, .geyser, .ringQ, .hdr 0x18, .meas, .redNodes, .hdr 0x20, .engines, .word 0x20 0x5C, .hdr 0x21, .ftab, .kernels] : List Part) ++ ([.notices, .word 0x28 0xC4, .kats, .taint, .clock, .relock, .pps, .now, .tick, .tports, .word 0x40 0x6C, .svcNotices, .jobs, .waves, .snuff, .hdr 0x61, .word 0x02 0x58, .profiles, .snap, .heldRecs, .watch, .word 0x28 0x98, .redInputs, .cores, .rails, .word 0x20 0x54, .snaps, .mirror, .replicas, .drift, .hdr 0x48, .droops, .pkg, .rings, .hdr 0x30, .sinter, .proxies, .chans, .links, .hdr 0x93, .hdr 0x91, .hdr 0x38, .verify, .linkKeys, .peers, .plans, .word 0x48 0x50, .word 0x48 0x4C, .word 0x48 0x48, .forced] : List Part) ++ ([.change, .trace, .hdr 0x60, .regs 0x60, .latches, .token, .log, .regs 0x39, .hdr 0x39, .free, .rotState, .firmware, .regs 0x18] : List Part))
    [.out, .xfers, .lines, .inj, .cmds, .power, .bpwr, .word 0x50 0x54, .activity, .host, .tap, .regs 0x08, .hdr 0x08, .rotState, .firmware, .meas] = true := by decide

theorem names_noCommand : names (([.out, .xfers, .lines, .inj, .cmds, .power, .bpwr, .word 0x50 0x54, .activity, .host, .tap, .regs 0x08, .hdr 0x08, .evts, .grid, .bcasts, .word 0x40 0x50, .hdr 0x40, .mbox, .hdr 0x10, .probes, .hdr 0x50, .word 0x50 0x5C, .pace, .clusters, .staged, .recs, .hdr 0x58, .regs 0x93, .regs 0x91, .regs 0x38, .violations, .ports, .suspects, .hdr 0x28, .hdr 0x12, .gens, .spares, .regions, .geyser, .ringQ, .hdr 0x18, .meas, .redNodes, .hdr 0x20, .engines, .word 0x20 0x5C, .hdr 0x21, .ftab, .kernels] : List Part) ++ ([.notices, .word 0x28 0xC4, .kats, .taint, .clock, .relock, .pps, .now, .tick, .tports, .word 0x40 0x6C, .svcNotices, .jobs, .waves, .snuff, .hdr 0x61, .word 0x02 0x58, .profiles, .snap, .heldRecs, .watch, .word 0x28 0x98, .redInputs, .cores, .rails, .word 0x20 0x54, .snaps, .mirror, .replicas, .drift, .hdr 0x48, .droops, .pkg, .rings, .hdr 0x30, .sinter, .proxies, .chans, .links, .hdr 0x93, .hdr 0x91, .hdr 0x38, .verify, .linkKeys, .peers, .plans, .word 0x48 0x50, .word 0x48 0x4C, .word 0x48 0x48, .forced] : List Part) ++ ([.change, .trace, .hdr 0x60, .regs 0x60, .latches, .token, .log, .regs 0x39, .hdr 0x39, .free, .rotState, .firmware, .regs 0x18] : List Part))
    [.out, .xfers, .lines, .inj, .cmds, .power, .bpwr, .word 0x50 0x54, .activity, .host, .tap, .regs 0x08, .hdr 0x08] = true := by decide

theorem command_only {s : State} {c : CmdIn} {w : Word} (hL : names L (([.out, .xfers, .lines, .inj, .cmds, .power, .bpwr, .word 0x50 0x54, .activity, .host, .tap, .regs 0x08, .hdr 0x08, .evts, .grid, .bcasts, .word 0x40 0x50, .hdr 0x40, .mbox, .hdr 0x10, .probes, .hdr 0x50, .word 0x50 0x5C, .pace, .clusters, .staged, .recs, .hdr 0x58, .regs 0x93, .regs 0x91, .regs 0x38, .violations, .ports, .suspects, .hdr 0x28, .hdr 0x12, .gens, .spares, .regions, .geyser, .ringQ, .hdr 0x18, .meas, .redNodes, .hdr 0x20, .engines, .word 0x20 0x5C, .hdr 0x21, .ftab, .kernels] : List Part) ++ ([.notices, .word 0x28 0xC4, .kats, .taint, .clock, .relock, .pps, .now, .tick, .tports, .word 0x40 0x6C, .svcNotices, .jobs, .waves, .snuff, .hdr 0x61, .word 0x02 0x58, .profiles, .snap, .heldRecs, .watch, .word 0x28 0x98, .redInputs, .cores, .rails, .word 0x20 0x54, .snaps, .mirror, .replicas, .drift, .hdr 0x48, .droops, .pkg, .rings, .hdr 0x30, .sinter, .proxies, .chans, .links, .hdr 0x93, .hdr 0x91, .hdr 0x38, .verify, .linkKeys, .peers, .plans, .word 0x48 0x50, .word 0x48 0x4C, .word 0x48 0x48, .forced] : List Part) ++ ([.change, .trace, .hdr 0x60, .regs 0x60, .latches, .token, .log, .regs 0x39, .hdr 0x39, .free, .rotState, .firmware, .regs 0x18] : List Part)) = true)
    (ho : s0.onlyChanges s L) : s0.onlyChanges (s.command c w) L := by
  unfold State.command
  dsimp only
  refine only_after (z := (([.out, .xfers, .lines, .inj, .cmds, .power, .bpwr, .word 0x50 0x54, .activity, .host, .tap, .regs 0x08, .hdr 0x08, .evts, .grid, .bcasts, .word 0x40 0x50, .hdr 0x40, .mbox, .hdr 0x10, .probes, .hdr 0x50, .word 0x50 0x5C, .pace, .clusters, .staged, .recs, .hdr 0x58, .regs 0x93, .regs 0x91, .regs 0x38, .violations, .ports, .suspects, .hdr 0x28, .hdr 0x12, .gens, .spares, .regions, .geyser, .ringQ, .hdr 0x18, .meas, .redNodes, .hdr 0x20, .engines, .word 0x20 0x5C, .hdr 0x21, .ftab, .kernels] : List Part) ++ ([.notices, .word 0x28 0xC4, .kats, .taint, .clock, .relock, .pps, .now, .tick, .tports, .word 0x40 0x6C, .svcNotices, .jobs, .waves, .snuff, .hdr 0x61, .word 0x02 0x58, .profiles, .snap, .heldRecs, .watch, .word 0x28 0x98, .redInputs, .cores, .rails, .word 0x20 0x54, .snaps, .mirror, .replicas, .drift, .hdr 0x48, .droops, .pkg, .rings, .hdr 0x30, .sinter, .proxies, .chans, .links, .hdr 0x93, .hdr 0x91, .hdr 0x38, .verify, .linkKeys, .peers, .plans, .word 0x48 0x50, .word 0x48 0x4C, .word 0x48 0x48, .forced] : List Part) ++ ([.change, .trace, .hdr 0x60, .regs 0x60, .latches, .token, .log, .regs 0x39, .hdr 0x39, .free, .rotState, .firmware, .regs 0x18] : List Part))) hL ?_ ho
  split
  · exact only_widen (baseCommand_only _ _ _) names_baseCommand
  · exact only_widen (samplingCommand_only _ _ _) names_samplingCommand
  · exact only_widen (reductionCommand_only _ _ _) names_reductionCommand
  · exact only_widen (forestCommand_only _ _ _) names_forestCommand
  · exact only_widen (checkCommand_only _ _ _) names_checkCommand
  · exact only_widen (timeCommand_only _ _ _) names_timeCommand
  · exact only_widen (linkCommand_only _ _ _) names_linkCommand
  · exact only_widen (serviceCommand_only _ _ _) names_serviceCommand
  · exact only_widen (powerCommand_only _ _ _) names_powerCommand
  · exact only_widen (blockCommand_only _ _ _) names_blockCommand
  · exact only_widen (fumCommand_only _ _ _) names_fumCommand
  · exact only_widen (debugCommand_only _ _ _) names_debugCommand
  · exact only_widen (rootCommand_only _ _ _) names_rootCommand
  · exact only_widen (noCommand_only _ _ _ _) names_noCommand

theorem snuffIn_only {s : State} {low : Bool} (hL : names L [.snuff, .power, .bpwr, .cmds, .word 0x08 0x104, .word 0x08 0x100, .word 0x50 0x54, .activity] = true) 
    (ho : s0.onlyChanges s L) : s0.onlyChanges (State.snuffIn s low) L := by
  unfold State.snuffIn
  try dsimp only
  repeat' first
    | with_reducible assumption
    | (refine names_trans hL ?_
       try simp only [keyTypes, Nat.reduceMod]
       decide)
    | with_reducible first
      | refine names_cons ?_ ?_
      | refine only_ite ?_ ?_
      | refine only_ite_snd ?_ ?_
      | refine only_ite_fst ?_ ?_
      | refine wakeSrc_only (hL := ?_) (ho := ?_)
      | refine snuffPin_only (hL := ?_) (ho := ?_)
    | split
    | (with_reducible refine modSnuff_only (z := [.snuff]) ?_ ?_ ?_
       · refine names_trans hL ?_
         first | decide | (refine names_of_subset ?_; simp; done)
       iterate 1 · first | with_reducible rfl | (intro _; with_reducible rfl) | exact fun h => not_free h rfl | (intro _; dsimp only; split <;> rfl) | exact rfl | exact fun _ => rfl)
    | dsimp only

theorem commandGoesOn_only {s : State} {p : Bool × Nat} (hL : names L (([.out, .xfers, .lines, .inj, .cmds, .power, .bpwr, .word 0x50 0x54, .activity, .host, .tap, .regs 0x08, .hdr 0x08, .evts, .grid, .bcasts, .word 0x40 0x50, .hdr 0x40, .mbox, .hdr 0x10, .probes, .hdr 0x50, .word 0x50 0x5C, .pace, .clusters, .staged, .recs, .hdr 0x58, .regs 0x93, .regs 0x91, .regs 0x38, .violations, .ports, .suspects, .hdr 0x28, .hdr 0x12, .gens, .spares, .regions, .geyser, .ringQ, .hdr 0x18, .meas, .redNodes, .hdr 0x20, .engines, .word 0x20 0x5C, .hdr 0x21, .ftab, .kernels] : List Part) ++ ([.notices, .word 0x28 0xC4, .kats, .taint, .clock, .relock, .pps, .now, .tick, .tports, .word 0x40 0x6C, .svcNotices, .jobs, .waves, .snuff, .hdr 0x61, .word 0x02 0x58, .profiles, .snap, .heldRecs, .watch, .word 0x28 0x98, .redInputs, .cores, .rails, .word 0x20 0x54, .snaps, .mirror, .replicas, .drift, .hdr 0x48, .droops, .pkg, .rings, .hdr 0x30, .sinter, .proxies, .chans, .links, .hdr 0x93, .hdr 0x91, .hdr 0x38, .verify, .linkKeys, .peers, .plans, .word 0x48 0x50, .word 0x48 0x4C, .word 0x48 0x48, .forced] : List Part) ++ ([.change, .trace, .hdr 0x60, .regs 0x60, .latches, .token, .log, .regs 0x39, .hdr 0x39, .free, .rotState, .firmware, .regs 0x18] : List Part)) = true) 
    (ho : s0.onlyChanges s L) : s0.onlyChanges (State.commandGoesOn s p) L := by
  unfold State.commandGoesOn
  try dsimp only
  repeat' first
    | with_reducible assumption
    | (refine names_trans hL ?_
       try simp only [keyTypes, Nat.reduceMod]
       decide)
    | (refine names_trans hL ?_
       try simp only [keyTypes, Nat.reduceMod]
       refine names_trans (names_of_subset ?_) names_regs_word
       simp
       done)
    | (refine names_trans hL ?_
       refine names_trans (names_of_subset ?_) names_port_word
       simp
       done)
    | (refine names_trans hL ?_
       refine names_trans (names_of_subset ?_) names_port_hdr
       simp
       done)
    | with_reducible first
      | refine names_cons ?_ ?_
      | refine only_ite ?_ ?_
      | refine only_ite_snd ?_ ?_
      | refine only_ite_fst ?_ ?_
      | refine command_only (hL := ?_) (ho := ?_)
      | refine waitPage_only (hL := ?_) (ho := ?_)
    | split
    | (with_reducible refine only_pkg (z := [.pkg]) ?_ ?_ ?_
       · refine names_trans hL ?_
         first | decide | (refine names_of_subset ?_; simp; done)
       iterate 1 · first | with_reducible rfl | (intro _; with_reducible rfl) | exact fun h => not_free h rfl | (intro _; dsimp only; split <;> rfl) | exact rfl | exact fun _ => rfl)
    | dsimp only

theorem execSnuffInN_only (low : Bool) (s : State) : ∃ st', execSnuffInN low s = .next st' ∧ s.onlyChanges st' [.out, .xfers, .lines, .inj, .snuff, .power, .bpwr, .cmds, .word 0x08 0x104, .word 0x08 0x100, .word 0x50 0x54, .activity] := by
  refine ⟨_, rfl, only_start fun hL h0 => ?_⟩
  refine settle_only (names_of_subset (by simp)) ?_
  repeat' first
    | with_reducible first
      | exact h0
      | assumption
    | (refine names_trans hL ?_
       try simp only [keyTypes, Nat.reduceMod]
       decide)
    | with_reducible first
      | refine names_cons ?_ ?_
      | refine only_ite ?_ ?_
      | refine only_ite_snd ?_ ?_
      | refine only_ite_fst ?_ ?_
      | refine snuffIn_only (hL := ?_) (ho := ?_)
    | split
    | dsimp only

theorem execSnuffClearApply_only (s : State) : ∃ st', execSnuffClearApply s = .next st' ∧ s.onlyChanges st' (([.out, .xfers, .lines, .inj, .hdr 0x61, .snuff, .probes, .staged, .recs, .hdr 0x58, .regs 0x93, .regs 0x91, .regs 0x38, .violations, .ports, .suspects, .hdr 0x28, .hdr 0x12, .gens, .spares, .sinter, .chans, .regs 0x31, .word 0x40 0x54, .cmds, .trace, .hdr 0x60, .regs 0x60, .rings, .ringQ, .mbox, .engines, .taint, .kernels, .kats, .notices, .word 0x28 0xC4, .redInputs, .now, .power, .bpwr, .word 0x50 0x54, .activity, .host, .tap, .regs 0x08, .hdr 0x08, .evts, .grid, .bcasts] : List Part) ++ ([.word 0x40 0x50, .hdr 0x40, .hdr 0x10, .hdr 0x50, .word 0x50 0x5C, .pace, .clusters, .regions, .geyser, .hdr 0x18, .meas, .redNodes, .hdr 0x20, .word 0x20 0x5C, .hdr 0x21, .ftab, .clock, .relock, .pps, .tick, .tports, .word 0x40 0x6C, .svcNotices, .jobs, .waves, .word 0x02 0x58, .profiles, .snap, .heldRecs, .watch, .word 0x28 0x98, .cores, .rails, .word 0x20 0x54, .snaps, .mirror, .replicas, .drift, .hdr 0x48, .droops, .pkg, .hdr 0x30, .proxies, .links, .hdr 0x93, .hdr 0x91, .hdr 0x38, .verify, .linkKeys, .peers] : List Part) ++ ([.plans, .word 0x48 0x50, .word 0x48 0x4C, .word 0x48 0x48, .forced, .change, .latches, .token, .log, .regs 0x39, .hdr 0x39, .free, .rotState, .firmware, .regs 0x18] : List Part)) := by
  refine ⟨_, rfl, only_start fun hL h0 => ?_⟩
  refine settle_only (names_of_subset (by simp)) ?_
  repeat' first
    | with_reducible first
      | exact h0
      | assumption
    | (refine names_trans hL ?_
       try simp only [keyTypes, Nat.reduceMod]
       decide)
    | (refine names_trans hL ?_
       try simp only [keyTypes, Nat.reduceMod]
       refine names_trans (names_of_subset ?_) names_regs_word
       simp
       done)
    | (refine names_trans hL ?_
       refine names_trans (names_of_subset ?_) names_port_word
       simp
       done)
    | (refine names_trans hL ?_
       refine names_trans (names_of_subset ?_) names_port_hdr
       simp
       done)
    | with_reducible first
      | refine names_cons ?_ ?_
      | refine only_ite ?_ ?_
      | refine only_ite_snd ?_ ?_
      | refine only_ite_fst ?_ ?_
      | refine snuffResume_only (hL := ?_) (ho := ?_)
      | refine advanceTo_only (hL := ?_) (ho := ?_)
      | refine commandGoesOn_only (hL := ?_) (ho := ?_)
      | refine only_foldl (fun u x hu => ?_) ?_
      | refine only_foldl_snd (fun u x hu => ?_) ?_
      | refine only_foldl_fst (fun u x hu => ?_) ?_
    | split
    | dsimp only

/-! Board -/

theorem pollOne_only {s : State} {i : Nat} {w : BitVec 16} (hL : names L [.board, .staged, .recs, .hdr 0x58, .mbox] = true) 
    (ho : s0.onlyChanges s L) : s0.onlyChanges (State.pollOne s i w) L := by
  unfold State.pollOne
  try dsimp only
  repeat' first
    | with_reducible assumption
    | (refine names_trans hL ?_
       try simp only [keyTypes, Nat.reduceMod]
       decide)
    | with_reducible first
      | refine names_cons ?_ ?_
      | refine only_ite ?_ ?_
      | refine only_ite_snd ?_ ?_
      | refine only_ite_fst ?_ ?_
      | refine log_only (hL := ?_) (ho := ?_)
      | refine replaceTray_only (hL := ?_) (ho := ?_)
    | split
    | (with_reducible refine modBoard_only (z := [.board]) ?_ ?_ ?_
       · refine names_trans hL ?_
         first | decide | (refine names_of_subset ?_; simp; done)
       iterate 1 · first | with_reducible rfl | (intro _; with_reducible rfl) | exact fun h => not_free h rfl | (intro _; dsimp only; split <;> rfl) | exact rfl | exact fun _ => rfl)
    | dsimp only

theorem ejectSwap_only {s : State} {c : CmdIn} (hL : names L [.cmds, .power, .bpwr, .word 0x50 0x54, .activity, .host, .out, .tap, .lines, .regs 0x08, .hdr 0x08, .links, .chans, .board] = true) 
    (ho : s0.onlyChanges s L) : s0.onlyChanges (State.ejectSwap s c) L := by
  unfold State.ejectSwap
  try dsimp only
  repeat' first
    | with_reducible assumption
    | (refine names_trans hL ?_
       try simp only [keyTypes, Nat.reduceMod]
       decide)
    | (refine names_trans hL ?_
       try simp only [keyTypes, Nat.reduceMod]
       refine names_trans (names_of_subset ?_) names_regs_word
       simp
       done)
    | with_reducible first
      | refine names_cons ?_ ?_
      | refine only_ite ?_ ?_
      | refine only_ite_snd ?_ ?_
      | refine only_ite_fst ?_ ?_
      | refine setReg_only (hL := ?_) (h := ?_)
      | refine runCmd_only (hL := ?_) (h_effect := fun u hu => ?_) (ho := ?_)
      | refine parentSwap_only (hL := ?_) (ho := ?_)
    | split
    | (with_reducible refine modBoard_only (z := [.board]) ?_ ?_ ?_
       · refine names_trans hL ?_
         first | decide | (refine names_of_subset ?_; simp; done)
       iterate 1 · first | with_reducible rfl | (intro _; with_reducible rfl) | exact fun h => not_free h rfl | (intro _; dsimp only; split <;> rfl) | exact rfl | exact fun _ => rfl)
    | dsimp only

theorem boardTick_only {s : State} (hL : names L [.board] = true) 
    (ho : s0.onlyChanges s L) : s0.onlyChanges (State.boardTick s) L := by
  unfold State.boardTick
  try dsimp only
  repeat' first
    | with_reducible assumption
    | (refine names_trans hL ?_
       try simp only [keyTypes, Nat.reduceMod]
       decide)
    | with_reducible first
      | refine names_cons ?_ ?_
      | refine only_ite ?_ ?_
      | refine only_ite_snd ?_ ?_
      | refine only_ite_fst ?_ ?_
    | split
    | (with_reducible refine modBoard_only (z := [.board]) ?_ ?_ ?_
       · refine names_trans hL ?_
         first | decide | (refine names_of_subset ?_; simp; done)
       iterate 1 · first | with_reducible rfl | (intro _; with_reducible rfl) | exact fun h => not_free h rfl | (intro _; dsimp only; split <;> rfl) | exact rfl | exact fun _ => rfl)
    | dsimp only

theorem execModuleVin_only (mv : Nat) (s : State) : ∃ st', execModuleVin mv s = .next st' ∧ s.onlyChanges st' [.out, .xfers, .lines, .inj, .board] := by
  refine ⟨_, rfl, only_start fun hL h0 => ?_⟩
  refine settle_only (names_of_subset (by simp)) ?_
  repeat' first
    | with_reducible first
      | exact h0
      | assumption
    | (refine names_trans hL ?_
       try simp only [keyTypes, Nat.reduceMod]
       decide)
    | with_reducible first
      | refine names_cons ?_ ?_
      | refine only_ite ?_ ?_
      | refine only_ite_snd ?_ ?_
      | refine only_ite_fst ?_ ?_
    | split
    | (with_reducible refine modBoard_only (z := [.board]) ?_ ?_ ?_
       · refine names_trans hL ?_
         first | decide | (refine names_of_subset ?_; simp; done)
       iterate 1 · first | with_reducible rfl | (intro _; with_reducible rfl) | exact fun h => not_free h rfl | (intro _; dsimp only; split <;> rfl) | exact rfl | exact fun _ => rfl)
    | dsimp only

theorem execConverterPoll_only (words : List (BitVec 16)) (s : State) : ∃ st', execConverterPoll words s = .next st' ∧ s.onlyChanges st' [.out, .xfers, .lines, .inj, .board, .staged, .recs, .hdr 0x58, .mbox] := by
  refine ⟨_, rfl, only_start fun hL h0 => ?_⟩
  refine settle_only (names_of_subset (by simp)) ?_
  repeat' first
    | with_reducible first
      | exact h0
      | assumption
    | (refine names_trans hL ?_
       try simp only [keyTypes, Nat.reduceMod]
       decide)
    | with_reducible first
      | refine names_cons ?_ ?_
      | refine only_ite ?_ ?_
      | refine only_ite_snd ?_ ?_
      | refine only_ite_fst ?_ ?_
      | refine pollOne_only (hL := ?_) (ho := ?_)
      | refine only_foldl (fun u x hu => ?_) ?_
      | refine only_foldl_snd (fun u x hu => ?_) ?_
      | refine only_foldl_fst (fun u x hu => ?_) ?_
    | split
    | dsimp only

theorem execPresentN_only (low : Bool) (s : State) : ∃ st', execPresentN low s = .next st' ∧ s.onlyChanges st' [.out, .xfers, .lines, .inj, .board] := by
  refine ⟨_, rfl, only_start fun hL h0 => ?_⟩
  refine settle_only (names_of_subset (by simp)) ?_
  repeat' first
    | with_reducible first
      | exact h0
      | assumption
    | (refine names_trans hL ?_
       try simp only [keyTypes, Nat.reduceMod]
       decide)
    | with_reducible first
      | refine names_cons ?_ ?_
      | refine only_ite ?_ ?_
      | refine only_ite_snd ?_ ?_
      | refine only_ite_fst ?_ ?_
    | split
    | (with_reducible refine modBoard_only (z := [.board]) ?_ ?_ ?_
       · refine names_trans hL ?_
         first | decide | (refine names_of_subset ?_; simp; done)
       iterate 1 · first | with_reducible rfl | (intro _; with_reducible rfl) | exact fun h => not_free h rfl | (intro _; dsimp only; split <;> rfl) | exact rfl | exact fun _ => rfl)
    | dsimp only

theorem execEjectN_only (low : Bool) (c : CmdIn) (s : State) : ∃ st', execEjectN low c s = .next st' ∧ s.onlyChanges st' [.out, .xfers, .lines, .inj, .board, .cmds, .power, .bpwr, .word 0x50 0x54, .activity, .host, .tap, .regs 0x08, .hdr 0x08, .links, .chans] := by
  refine ⟨_, rfl, only_start fun hL h0 => ?_⟩
  refine settle_only (names_of_subset (by simp)) ?_
  repeat' first
    | with_reducible first
      | exact h0
      | assumption
    | (refine names_trans hL ?_
       try simp only [keyTypes, Nat.reduceMod]
       decide)
    | (refine names_trans hL ?_
       try simp only [keyTypes, Nat.reduceMod]
       refine names_trans (names_of_subset ?_) names_regs_word
       simp
       done)
    | with_reducible first
      | refine names_cons ?_ ?_
      | refine only_ite ?_ ?_
      | refine only_ite_snd ?_ ?_
      | refine only_ite_fst ?_ ?_
      | refine ejectSwap_only (hL := ?_) (ho := ?_)
    | split
    | (with_reducible refine modBoard_only (z := [.board]) ?_ ?_ ?_
       · refine names_trans hL ?_
         first | decide | (refine names_of_subset ?_; simp; done)
       iterate 1 · first | with_reducible rfl | (intro _; with_reducible rfl) | exact fun h => not_free h rfl | (intro _; dsimp only; split <;> rfl) | exact rfl | exact fun _ => rfl)
    | dsimp only

/-! Tap -/

theorem tdo_only {s : State} {n v : Nat} (hL : names L [.out] = true) 
    (ho : s0.onlyChanges s L) : s0.onlyChanges (State.tdo s n v) L := by
  unfold State.tdo
  try dsimp only
  repeat' first
    | with_reducible assumption
    | (refine names_trans hL ?_
       try simp only [keyTypes, Nat.reduceMod]
       decide)
    | with_reducible first
      | refine names_cons ?_ ?_
      | refine only_ite ?_ ?_
      | refine only_ite_snd ?_ ?_
      | refine only_ite_fst ?_ ?_
      | refine emit_only (hL := ?_) (ho := ?_)
    | split
    | dsimp only

theorem bypass_only {s : State} {shift : List Bool} (hL : names L [.out] = true) 
    (ho : s0.onlyChanges s L) : s0.onlyChanges (State.bypass s shift) L := by
  unfold State.bypass
  try dsimp only
  repeat' first
    | with_reducible assumption
    | (refine names_trans hL ?_
       try simp only [keyTypes, Nat.reduceMod]
       decide)
    | with_reducible first
      | refine names_cons ?_ ?_
      | refine only_ite ?_ ?_
      | refine only_ite_snd ?_ ?_
      | refine only_ite_fst ?_ ?_
      | refine tdo_only (hL := ?_) (ho := ?_)
    | split
    | dsimp only

theorem boundaryScan_only {s : State} {shift pins : List Bool} {drive : Bool} (hL : names L [.out, .tap] = true) 
    (ho : s0.onlyChanges s L) : s0.onlyChanges (State.boundaryScan s shift pins drive) L := by
  unfold State.boundaryScan
  try dsimp only
  repeat' first
    | with_reducible assumption
    | (refine names_trans hL ?_
       try simp only [keyTypes, Nat.reduceMod]
       decide)
    | with_reducible first
      | refine names_cons ?_ ?_
      | refine only_ite ?_ ?_
      | refine only_ite_snd ?_ ?_
      | refine only_ite_fst ?_ ?_
      | refine tdo_only (hL := ?_) (ho := ?_)
    | split
    | (with_reducible refine modTap_only (z := [.tap]) ?_ ?_ ?_
       · refine names_trans hL ?_
         first | decide | (refine names_of_subset ?_; simp; done)
       iterate 1 · first | with_reducible rfl | (intro _; with_reducible rfl) | exact fun h => not_free h rfl | (intro _; dsimp only; split <;> rfl) | exact rfl | exact fun _ => rfl)
    | dsimp only

theorem execBypass_only (shift : List Bool) (s : State) : ∃ st', execBypass shift s = .next st' ∧ s.onlyChanges st' [.out, .xfers, .lines, .inj] := by
  refine ⟨_, rfl, only_start fun hL h0 => ?_⟩
  refine settle_only (names_of_subset (by simp)) ?_
  repeat' first
    | with_reducible first
      | exact h0
      | assumption
    | (refine names_trans hL ?_
       try simp only [keyTypes, Nat.reduceMod]
       decide)
    | with_reducible first
      | refine names_cons ?_ ?_
      | refine only_ite ?_ ?_
      | refine only_ite_snd ?_ ?_
      | refine only_ite_fst ?_ ?_
      | refine bypass_only (hL := ?_) (ho := ?_)
    | split
    | dsimp only

theorem execIdcode_only (s : State) : ∃ st', execIdcode s = .next st' ∧ s.onlyChanges st' [.out, .xfers, .lines, .inj] := by
  refine ⟨_, rfl, only_start fun hL h0 => ?_⟩
  refine settle_only (names_of_subset (by simp)) ?_
  repeat' first
    | with_reducible first
      | exact h0
      | assumption
    | (refine names_trans hL ?_
       try simp only [keyTypes, Nat.reduceMod]
       decide)
    | with_reducible first
      | refine names_cons ?_ ?_
      | refine only_ite ?_ ?_
      | refine only_ite_snd ?_ ?_
      | refine only_ite_fst ?_ ?_
      | refine tdo_only (hL := ?_) (ho := ?_)
    | split
    | dsimp only

theorem execSamplePreload_only (shift pins : List Bool) (s : State) : ∃ st', execSamplePreload shift pins s = .next st' ∧ s.onlyChanges st' [.out, .xfers, .lines, .inj, .tap] := by
  refine ⟨_, rfl, only_start fun hL h0 => ?_⟩
  refine settle_only (names_of_subset (by simp)) ?_
  repeat' first
    | with_reducible first
      | exact h0
      | assumption
    | (refine names_trans hL ?_
       try simp only [keyTypes, Nat.reduceMod]
       decide)
    | with_reducible first
      | refine names_cons ?_ ?_
      | refine only_ite ?_ ?_
      | refine only_ite_snd ?_ ?_
      | refine only_ite_fst ?_ ?_
      | refine bypass_only (hL := ?_) (ho := ?_)
      | refine boundaryScan_only (hL := ?_) (ho := ?_)
    | split
    | dsimp only

theorem execExtest_only (shift pins : List Bool) (s : State) : ∃ st', execExtest shift pins s = .next st' ∧ s.onlyChanges st' [.out, .xfers, .lines, .inj, .tap] := by
  refine ⟨_, rfl, only_start fun hL h0 => ?_⟩
  refine settle_only (names_of_subset (by simp)) ?_
  repeat' first
    | with_reducible first
      | exact h0
      | assumption
    | (refine names_trans hL ?_
       try simp only [keyTypes, Nat.reduceMod]
       decide)
    | with_reducible first
      | refine names_cons ?_ ?_
      | refine only_ite ?_ ?_
      | refine only_ite_snd ?_ ?_
      | refine only_ite_fst ?_ ?_
      | refine bypass_only (hL := ?_) (ho := ?_)
      | refine boundaryScan_only (hL := ?_) (ho := ?_)
    | split
    | dsimp only

theorem execSnuffScan_only (restart : Bool) (s : State) : ∃ st', execSnuffScan restart s = .next st' ∧ s.onlyChanges st' [.out, .xfers, .lines, .inj, .tap] := by
  refine ⟨_, rfl, only_start fun hL h0 => ?_⟩
  refine settle_only (names_of_subset (by simp)) ?_
  repeat' first
    | with_reducible first
      | exact h0
      | assumption
    | (refine names_trans hL ?_
       try simp only [keyTypes, Nat.reduceMod]
       decide)
    | with_reducible first
      | refine names_cons ?_ ?_
      | refine only_ite ?_ ?_
      | refine only_ite_snd ?_ ?_
      | refine only_ite_fst ?_ ?_
      | refine tdo_only (hL := ?_) (ho := ?_)
    | split
    | (with_reducible refine modTap_only (z := [.tap]) ?_ ?_ ?_
       · refine names_trans hL ?_
         first | decide | (refine names_of_subset ?_; simp; done)
       iterate 1 · first | with_reducible rfl | (intro _; with_reducible rfl) | exact fun h => not_free h rfl | (intro _; dsimp only; split <;> rfl) | exact rfl | exact fun _ => rfl)
    | dsimp only

theorem execFunnelRead_only (restart : Bool) (s : State) : ∃ st', execFunnelRead restart s = .next st' ∧ s.onlyChanges st' [.out, .xfers, .lines, .inj, .tap] := by
  refine ⟨_, rfl, only_start fun hL h0 => ?_⟩
  refine settle_only (names_of_subset (by simp)) ?_
  repeat' first
    | with_reducible first
      | exact h0
      | assumption
    | (refine names_trans hL ?_
       try simp only [keyTypes, Nat.reduceMod]
       decide)
    | with_reducible first
      | refine names_cons ?_ ?_
      | refine only_ite ?_ ?_
      | refine only_ite_snd ?_ ?_
      | refine only_ite_fst ?_ ?_
      | refine tdo_only (hL := ?_) (ho := ?_)
    | split
    | (with_reducible refine modTap_only (z := [.tap]) ?_ ?_ ?_
       · refine names_trans hL ?_
         first | decide | (refine names_of_subset ?_; simp; done)
       iterate 1 · first | with_reducible rfl | (intro _; with_reducible rfl) | exact fun h => not_free h rfl | (intro _; dsimp only; split <;> rfl) | exact rfl | exact fun _ => rfl)
    | dsimp only

theorem execSnuffReq_only (v : Bool) (s : State) : ∃ st', execSnuffReq v s = .next st' ∧ s.onlyChanges st' [.out, .xfers, .lines, .inj, .snuff] := by
  refine ⟨_, rfl, only_start fun hL h0 => ?_⟩
  refine settle_only (names_of_subset (by simp)) ?_
  repeat' first
    | with_reducible first
      | exact h0
      | assumption
    | (refine names_trans hL ?_
       try simp only [keyTypes, Nat.reduceMod]
       decide)
    | with_reducible first
      | refine names_cons ?_ ?_
      | refine only_ite ?_ ?_
      | refine only_ite_snd ?_ ?_
      | refine only_ite_fst ?_ ?_
      | refine tdo_only (hL := ?_) (ho := ?_)
      | refine snuffTrig_only (hL := ?_) (ho := ?_)
    | split
    | dsimp only

/-! Bus -/

theorem unitRead_only {s : State} {c w off : Nat} (hL : names L [.hdr 0x03, .regs 0x03] = true) 
    (ho : s0.onlyChanges s L) : s0.onlyChanges (State.unitRead s c w off).2 L := by
  unfold State.unitRead
  try dsimp only
  repeat' first
    | with_reducible assumption
    | (refine names_trans hL ?_
       try simp only [keyTypes, Nat.reduceMod]
       decide)
    | (refine names_trans hL ?_
       try simp only [keyTypes, Nat.reduceMod]
       refine names_trans (names_of_subset ?_) names_regs_word
       simp
       done)
    | with_reducible first
      | refine names_cons ?_ ?_
      | refine only_ite ?_ ?_
      | refine only_ite_snd ?_ ?_
      | refine only_ite_fst ?_ ?_
      | refine modHdr_only (hL := ?_) (h := ?_)
      | refine setRegFld_only (hL := ?_) (ho := ?_)
    | split
    | dsimp only

theorem turnAway_only {s : State} {key : Nat} {r : Resp} (hL : names L [.hdr (keyType key)] = true) 
    (ho : s0.onlyChanges s L) : s0.onlyChanges (State.turnAway s key r).2 L := by
  unfold State.turnAway
  try dsimp only
  repeat' first
    | with_reducible assumption
    | (refine names_trans hL ?_
       try simp only [keyTypes, Nat.reduceMod]
       refine names_of_subset ?_
       simp
       done)
    | with_reducible first
      | refine names_cons ?_ ?_
      | refine only_ite ?_ ?_
      | refine only_ite_snd ?_ ?_
      | refine only_ite_fst ?_ ?_
      | refine setErr_only (hL := ?_) (ho := ?_)
    | split
    | dsimp only

theorem readAt_only {s : State} {key page off : Nat} {q : Req} (hL : names L [.hdr (keyType key), .hdr 0x03, .regs 0x03, .redNodes] = true) 
    (ho : s0.onlyChanges s L) : s0.onlyChanges (State.readAt s key page off q).2 L := by
  unfold State.readAt
  try dsimp only
  repeat' first
    | with_reducible assumption
    | (refine names_trans hL ?_
       try simp only [keyTypes, Nat.reduceMod]
       refine names_of_subset ?_
       simp
       done)
    | (refine names_trans hL ?_
       try simp only [keyTypes, Nat.reduceMod]
       refine names_trans (names_of_subset ?_) names_regs_word
       simp
       done)
    | with_reducible first
      | refine names_cons ?_ ?_
      | refine only_ite ?_ ?_
      | refine only_ite_snd ?_ ?_
      | refine only_ite_fst ?_ ?_
      | refine turnAway_only (hL := ?_) (ho := ?_)
      | refine unitRead_only (hL := ?_) (ho := ?_)
      | refine readReg_only (hL := ?_) (ho := ?_)
    | split
    | dsimp only

theorem readPage_only {s : State} {key page off : Nat} {q : Req} (hL : names L [.hdr (keyType key), .hdr 0x03, .regs 0x03, .redNodes] = true) 
    (ho : s0.onlyChanges s L) : s0.onlyChanges (State.readPage s key page off q).2 L := by
  unfold State.readPage
  try dsimp only
  repeat' first
    | with_reducible assumption
    | (refine names_trans hL ?_
       try simp only [keyTypes, Nat.reduceMod]
       refine names_of_subset ?_
       simp
       done)
    | (refine names_trans hL ?_
       try simp only [keyTypes, Nat.reduceMod]
       refine names_trans (names_of_subset ?_) names_regs_word
       simp
       done)
    | with_reducible first
      | refine names_cons ?_ ?_
      | refine only_ite ?_ ?_
      | refine only_ite_snd ?_ ?_
      | refine only_ite_fst ?_ ?_
      | refine readAt_only (hL := ?_) (ho := ?_)
      | refine turnAway_only (hL := ?_) (ho := ?_)
    | split
    | dsimp only
    | with_reducible refine only_of_pair (by assumption) ?_

theorem lockWrite_only {s : State} {pkg : Bool} {n : Nat} {q : Req} {w : Word} (hL : names L [.cmds] = true) 
    (ho : s0.onlyChanges s L) : s0.onlyChanges (State.lockWrite s pkg n q w).2 L := by
  unfold State.lockWrite
  try dsimp only
  repeat' first
    | with_reducible assumption
    | (refine names_trans hL ?_
       try simp only [keyTypes, Nat.reduceMod]
       decide)
    | with_reducible first
      | refine names_cons ?_ ?_
      | refine only_ite ?_ ?_
      | refine only_ite_snd ?_ ?_
      | refine only_ite_fst ?_ ?_
      | refine setCmd_only (hL := ?_) (ho := ?_)
    | split
    | dsimp only

theorem cmdWrite_only {s : State} {pkg : Bool} {n : Nat} {q : Req} {w : Word} (hL : names L (([.out, .xfers, .lines, .inj, .cmds, .power, .bpwr, .word 0x50 0x54, .activity, .host, .tap, .regs 0x08, .hdr 0x08, .evts, .grid, .bcasts, .word 0x40 0x50, .hdr 0x40, .mbox, .hdr 0x10, .probes, .hdr 0x50, .word 0x50 0x5C, .pace, .clusters, .staged, .recs, .hdr 0x58, .regs 0x93, .regs 0x91, .regs 0x38, .violations, .ports, .suspects, .hdr 0x28, .hdr 0x12, .gens, .spares, .regions, .geyser, .ringQ, .hdr 0x18, .meas, .redNodes, .hdr 0x20, .engines, .word 0x20 0x5C, .hdr 0x21, .ftab, .kernels] : List Part) ++ ([.notices, .word 0x28 0xC4, .kats, .taint, .clock, .relock, .pps, .now, .tick, .tports, .word 0x40 0x6C, .svcNotices, .jobs, .waves, .snuff, .hdr 0x61, .word 0x02 0x58, .profiles, .snap, .heldRecs, .watch, .word 0x28 0x98, .redInputs, .cores, .rails, .word 0x20 0x54, .snaps, .mirror, .replicas, .drift, .hdr 0x48, .droops, .pkg, .rings, .hdr 0x30, .sinter, .proxies, .chans, .links, .hdr 0x93, .hdr 0x91, .hdr 0x38, .verify, .linkKeys, .peers, .plans, .word 0x48 0x50, .word 0x48 0x4C, .word 0x48 0x48, .forced] : List Part) ++ ([.change, .trace, .hdr 0x60, .regs 0x60, .latches, .token, .log, .regs 0x39, .hdr 0x39, .free, .rotState, .firmware, .regs 0x18] : List Part)) = true) 
    (ho : s0.onlyChanges s L) : s0.onlyChanges (State.cmdWrite s pkg n q w).2 L := by
  unfold State.cmdWrite
  try dsimp only
  repeat' first
    | with_reducible assumption
    | (refine names_trans hL ?_
       try simp only [keyTypes, Nat.reduceMod]
       decide)
    | (refine names_trans hL ?_
       try simp only [keyTypes, Nat.reduceMod]
       refine names_trans (names_of_subset ?_) names_regs_word
       simp
       done)
    | (refine names_trans hL ?_
       refine names_trans (names_of_subset ?_) names_port_word
       simp
       done)
    | (refine names_trans hL ?_
       refine names_trans (names_of_subset ?_) names_port_hdr
       simp
       done)
    | with_reducible first
      | refine names_cons ?_ ?_
      | refine only_ite ?_ ?_
      | refine only_ite_snd ?_ ?_
      | refine only_ite_fst ?_ ?_
      | refine command_only (hL := ?_) (ho := ?_)
      | refine setCmd_only (hL := ?_) (ho := ?_)
    | split
    | dsimp only

theorem cmdPageWrite_only {s : State} {pkg : Bool} {n off : Nat} {q : Req} {w : Word} (hL : names L (([.out, .xfers, .lines, .inj, .cmds, .power, .bpwr, .word 0x50 0x54, .activity, .host, .tap, .regs 0x08, .hdr 0x08, .evts, .grid, .bcasts, .word 0x40 0x50, .hdr 0x40, .mbox, .hdr 0x10, .probes, .hdr 0x50, .word 0x50 0x5C, .pace, .clusters, .staged, .recs, .hdr 0x58, .regs 0x93, .regs 0x91, .regs 0x38, .violations, .ports, .suspects, .hdr 0x28, .hdr 0x12, .gens, .spares, .regions, .geyser, .ringQ, .hdr 0x18, .meas, .redNodes, .hdr 0x20, .engines, .word 0x20 0x5C, .hdr 0x21, .ftab, .kernels] : List Part) ++ ([.notices, .word 0x28 0xC4, .kats, .taint, .clock, .relock, .pps, .now, .tick, .tports, .word 0x40 0x6C, .svcNotices, .jobs, .waves, .snuff, .hdr 0x61, .word 0x02 0x58, .profiles, .snap, .heldRecs, .watch, .word 0x28 0x98, .redInputs, .cores, .rails, .word 0x20 0x54, .snaps, .mirror, .replicas, .drift, .hdr 0x48, .droops, .pkg, .rings, .hdr 0x30, .sinter, .proxies, .chans, .links, .hdr 0x93, .hdr 0x91, .hdr 0x38, .verify, .linkKeys, .peers, .plans, .word 0x48 0x50, .word 0x48 0x4C, .word 0x48 0x48, .forced] : List Part) ++ ([.change, .trace, .hdr 0x60, .regs 0x60, .latches, .token, .log, .regs 0x39, .hdr 0x39, .free, .rotState, .firmware, .regs 0x18] : List Part)) = true) 
    (ho : s0.onlyChanges s L) : s0.onlyChanges (State.cmdPageWrite s pkg n off q w).2 L := by
  unfold State.cmdPageWrite
  try dsimp only
  repeat' first
    | with_reducible assumption
    | (refine names_trans hL ?_
       try simp only [keyTypes, Nat.reduceMod]
       decide)
    | (refine names_trans hL ?_
       try simp only [keyTypes, Nat.reduceMod]
       refine names_trans (names_of_subset ?_) names_regs_word
       simp
       done)
    | (refine names_trans hL ?_
       refine names_trans (names_of_subset ?_) names_port_word
       simp
       done)
    | (refine names_trans hL ?_
       refine names_trans (names_of_subset ?_) names_port_hdr
       simp
       done)
    | with_reducible first
      | refine names_cons ?_ ?_
      | refine only_ite ?_ ?_
      | refine only_ite_snd ?_ ?_
      | refine only_ite_fst ?_ ?_
      | refine cmdWrite_only (hL := ?_) (ho := ?_)
      | refine setCmd_only (hL := ?_) (ho := ?_)
      | refine lockWrite_only (hL := ?_) (ho := ?_)
      | refine setReg_only (hL := ?_) (h := ?_)
    | split
    | dsimp only

theorem unitWrite_only {s : State} {level index w : Nat} {v : Word} (hL : names L [.probes] = true) 
    (ho : s0.onlyChanges s L) : s0.onlyChanges (State.unitWrite s level index w v) L := by
  unfold State.unitWrite
  try dsimp only
  repeat' first
    | with_reducible assumption
    | (refine names_trans hL ?_
       try simp only [keyTypes, Nat.reduceMod]
       decide)
    | with_reducible first
      | refine names_cons ?_ ?_
      | refine only_ite ?_ ?_
      | refine only_ite_snd ?_ ?_
      | refine only_ite_fst ?_ ?_
      | refine modProbe_only (hL := ?_) (ho := ?_)
      | refine setProbe_only (hL := ?_) (ho := ?_)
    | split
    | dsimp only

theorem takeWrite_only {s : State} {w : Word} (hL : names L [.snap, .heldRecs] = true) 
    (ho : s0.onlyChanges s L) : s0.onlyChanges (State.takeWrite s w).2 L := by
  unfold State.takeWrite
  try dsimp only
  repeat' first
    | with_reducible assumption
    | (refine names_trans hL ?_
       try simp only [keyTypes, Nat.reduceMod]
       decide)
    | with_reducible first
      | refine names_cons ?_ ?_
      | refine only_ite ?_ ?_
      | refine only_ite_snd ?_ ?_
      | refine only_ite_fst ?_ ?_
      | refine snapTake_only (hL := ?_) (ho := ?_)
    | split
    | dsimp only

theorem plainWrite_only {s : State} {key off : Nat} {q : Req} {w : Word} (hL : names L (([.snap, .heldRecs, .out, .xfers, .lines, .inj, .cmds, .power, .bpwr, .activity, .host, .tap, .evts, .grid, .bcasts, .mbox, .probes, .pace, .clusters, .staged, .recs, .violations, .ports, .suspects, .gens, .spares, .regions, .geyser, .ringQ, .meas, .redNodes, .engines, .ftab, .kernels, .notices, .kats, .taint, .clock, .relock, .pps, .now, .tick, .tports, .svcNotices, .jobs, .waves, .snuff, .profiles, .watch, .redInputs] : List Part) ++ ([.cores, .rails, .snaps, .mirror, .replicas, .drift, .droops, .pkg, .rings, .sinter, .proxies, .chans, .links, .verify, .linkKeys, .peers, .plans, .forced, .change, .trace, .latches, .token, .log, .free, .rotState, .firmware, .tables, .allRegs, .allHdrs, .rotOrders] : List Part)) = true) 
    (ho : s0.onlyChanges s L) : s0.onlyChanges (State.plainWrite s key off q w).2 L := by
  unfold State.plainWrite
  try dsimp only
  repeat' first
    | with_reducible assumption
    | (refine names_trans hL ?_
       try simp only [keyTypes, Nat.reduceMod]
       decide)
    | (refine names_trans hL ?_
       refine names_trans (names_of_subset ?_) names_all_word
       simp
       done)
    | (refine names_trans hL ?_
       refine names_trans (names_of_subset ?_) names_all_regs
       simp
       done)
    | (refine names_trans hL ?_
       refine names_trans (names_of_subset ?_) names_all_hdr
       simp
       done)
    | with_reducible first
      | refine names_cons ?_ ?_
      | refine only_ite ?_ ?_
      | refine only_ite_snd ?_ ?_
      | refine only_ite_fst ?_ ?_
      | refine takeWrite_only (hL := ?_) (ho := ?_)
      | refine writeHead_only (hL := ?_) (ho := ?_)
      | refine cmdPageWrite_only (hL := ?_) (ho := ?_)
      | refine unitWrite_only (hL := ?_) (ho := ?_)
      | refine writeReg_only (hL := ?_) (ho := ?_)
    | split
    | dsimp only

theorem guardCommit_only {s : State} {key : Nat} {g : Guard} (hL : names L [.gens, .tables, .trace, .redNodes, .allRegs, .inj, .rings, .ringQ, .out, .xfers, .mbox, .geyser, .grid, .ftab, .meas, .cmds, .kernels, .allHdrs, .clock, .ports, .peers, .drift, .jobs, .cores, .rails, .log, .staged, .recs, .rotOrders] = true) 
    (ho : s0.onlyChanges s L) : s0.onlyChanges (State.guardCommit s key g) L := by
  unfold State.guardCommit
  try dsimp only
  repeat' first
    | with_reducible assumption
    | (refine names_trans hL ?_
       try simp only [keyTypes, Nat.reduceMod]
       decide)
    | (refine names_trans hL ?_
       refine names_trans (names_of_subset ?_) names_all_word
       simp
       done)
    | (refine names_trans hL ?_
       refine names_trans (names_of_subset ?_) names_all_regs
       simp
       done)
    | (refine names_trans hL ?_
       refine names_trans (names_of_subset ?_) names_all_hdr
       simp
       done)
    | with_reducible first
      | refine names_cons ?_ ?_
      | refine only_ite ?_ ?_
      | refine only_ite_snd ?_ ?_
      | refine only_ite_fst ?_ ?_
      | refine modHdr_only (hL := ?_) (h := ?_)
      | refine touchItem_only (hL := ?_) (ho := ?_)
      | refine writeHead_only (hL := ?_) (ho := ?_)
      | refine writeReg_only (hL := ?_) (ho := ?_)
      | refine measure_only (hL := ?_) (ho := ?_)
    | split
    | dsimp only

theorem latchDrop_only {s : State} {key : Nat} {g : Guard} {reason : Nat} (hL : names L [.staged, .recs, .hdr 0x58, .hdr (keyType key)] = true) 
    (ho : s0.onlyChanges s L) : s0.onlyChanges (State.latchDrop s key g reason) L := by
  unfold State.latchDrop
  try dsimp only
  repeat' first
    | with_reducible assumption
    | (refine names_trans hL ?_
       try simp only [keyTypes, Nat.reduceMod]
       refine names_of_subset ?_
       simp
       done)
    | with_reducible first
      | refine names_cons ?_ ?_
      | refine only_ite ?_ ?_
      | refine only_ite_snd ?_ ?_
      | refine only_ite_fst ?_ ?_
      | refine guardDiscard_only (hL := ?_) (ho := ?_)
      | refine modHdr_only (hL := ?_) (h := ?_)
    | split
    | dsimp only

theorem freshWrite_only {s : State} {key off : Nat} {q : Req} {w : Word} (hL : names L (([.staged, .recs, .snap, .heldRecs, .out, .xfers, .lines, .inj, .cmds, .power, .bpwr, .activity, .host, .tap, .evts, .grid, .bcasts, .mbox, .probes, .pace, .clusters, .violations, .ports, .suspects, .gens, .spares, .regions, .geyser, .ringQ, .meas, .redNodes, .engines, .ftab, .kernels, .notices, .kats, .taint, .clock, .relock, .pps, .now, .tick, .tports, .svcNotices, .jobs, .waves, .snuff, .profiles, .watch, .redInputs] : List Part) ++ ([.cores, .rails, .snaps, .mirror, .replicas, .drift, .droops, .pkg, .rings, .sinter, .proxies, .chans, .links, .verify, .linkKeys, .peers, .plans, .forced, .change, .trace, .latches, .token, .log, .free, .rotState, .firmware, .tables, .allRegs, .allHdrs, .rotOrders] : List Part)) = true) 
    (ho : s0.onlyChanges s L) : s0.onlyChanges (State.freshWrite s key off q w).2 L := by
  unfold State.freshWrite
  try dsimp only
  repeat' first
    | with_reducible assumption
    | (refine names_trans hL ?_
       try simp only [keyTypes, Nat.reduceMod]
       decide)
    | (refine names_trans hL ?_
       refine names_trans (names_of_subset ?_) names_all_word
       simp
       done)
    | (refine names_trans hL ?_
       refine names_trans (names_of_subset ?_) names_all_regs
       simp
       done)
    | (refine names_trans hL ?_
       refine names_trans (names_of_subset ?_) names_all_hdr
       simp
       done)
    | with_reducible first
      | refine names_cons ?_ ?_
      | refine only_ite ?_ ?_
      | refine only_ite_snd ?_ ?_
      | refine only_ite_fst ?_ ?_
      | refine guardDiscard_only (hL := ?_) (ho := ?_)
      | refine modHdr_only (hL := ?_) (h := ?_)
      | refine plainWrite_only (hL := ?_) (ho := ?_)
    | split
    | dsimp only

theorem latchedWrite_only {s : State} {key off : Nat} {q : Req} {w : Word} (hL : names L (([.staged, .recs, .snap, .heldRecs, .out, .xfers, .lines, .inj, .cmds, .power, .bpwr, .activity, .host, .tap, .evts, .grid, .bcasts, .mbox, .probes, .pace, .clusters, .violations, .ports, .suspects, .gens, .spares, .regions, .geyser, .ringQ, .meas, .redNodes, .engines, .ftab, .kernels, .notices, .kats, .taint, .clock, .relock, .pps, .now, .tick, .tports, .svcNotices, .jobs, .waves, .snuff, .profiles, .watch, .redInputs] : List Part) ++ ([.cores, .rails, .snaps, .mirror, .replicas, .drift, .droops, .pkg, .rings, .sinter, .proxies, .chans, .links, .verify, .linkKeys, .peers, .plans, .forced, .change, .trace, .latches, .token, .log, .free, .rotState, .firmware, .tables, .allRegs, .allHdrs, .rotOrders] : List Part)) = true) 
    (ho : s0.onlyChanges s L) : s0.onlyChanges (State.latchedWrite s key off q w).2 L := by
  unfold State.latchedWrite
  try dsimp only
  repeat' first
    | with_reducible assumption
    | (refine names_trans hL ?_
       try simp only [keyTypes, Nat.reduceMod]
       decide)
    | (refine names_trans hL ?_
       refine names_trans (names_of_subset ?_) names_all_word
       simp
       done)
    | (refine names_trans hL ?_
       refine names_trans (names_of_subset ?_) names_all_regs
       simp
       done)
    | (refine names_trans hL ?_
       refine names_trans (names_of_subset ?_) names_all_hdr
       simp
       done)
    | with_reducible first
      | refine names_cons ?_ ?_
      | refine only_ite ?_ ?_
      | refine only_ite_snd ?_ ?_
      | refine only_ite_fst ?_ ?_
      | refine freshWrite_only (hL := ?_) (ho := ?_)
      | refine latchDrop_only (hL := ?_) (ho := ?_)
      | refine guardCommit_only (hL := ?_) (ho := ?_)
    | split
    | dsimp only

theorem injFlip_only {s : State} {key : Nat} (hL : names L [.hdr (keyType key), .inj] = true) 
    (ho : s0.onlyChanges s L) : s0.onlyChanges (State.injFlip s key) L := by
  unfold State.injFlip
  try dsimp only
  repeat' first
    | with_reducible assumption
    | (refine names_trans hL ?_
       try simp only [keyTypes, Nat.reduceMod]
       refine names_of_subset ?_
       simp
       done)
    | with_reducible first
      | refine names_cons ?_ ?_
      | refine only_ite ?_ ?_
      | refine only_ite_snd ?_ ?_
      | refine only_ite_fst ?_ ?_
      | refine injTake_only (hL := ?_) (ho := ?_)
      | refine only_foldl (fun u x hu => ?_) ?_
      | refine only_foldl_snd (fun u x hu => ?_) ?_
      | refine only_foldl_fst (fun u x hu => ?_) ?_
    | split
    | (with_reducible refine only_fum (z := [.inj]) ?_ ?_ ?_ ?_ ?_ ?_ ?_ ?_ ?_ ?_
       · refine names_trans hL ?_
         first | decide | (refine names_of_subset ?_; simp; done)
       iterate 8 · first | with_reducible rfl | (intro _; with_reducible rfl) | exact fun h => not_free h rfl | (intro _; dsimp only; split <;> rfl) | exact rfl | exact fun _ => rfl)
    | dsimp only

theorem writePage_only {s : State} {key off : Nat} {q : Req} {w : Word} (hL : names L (([.staged, .recs, .snap, .heldRecs, .out, .xfers, .lines, .inj, .cmds, .power, .bpwr, .activity, .host, .tap, .evts, .grid, .bcasts, .mbox, .probes, .pace, .clusters, .violations, .ports, .suspects, .gens, .spares, .regions, .geyser, .ringQ, .meas, .redNodes, .engines, .ftab, .kernels, .notices, .kats, .taint, .clock, .relock, .pps, .now, .tick, .tports, .svcNotices, .jobs, .waves, .snuff, .profiles, .watch, .redInputs] : List Part) ++ ([.cores, .rails, .snaps, .mirror, .replicas, .drift, .droops, .pkg, .rings, .sinter, .proxies, .chans, .links, .verify, .linkKeys, .peers, .plans, .forced, .change, .trace, .latches, .token, .log, .free, .rotState, .firmware, .tables, .allRegs, .allHdrs, .rotOrders] : List Part)) = true) 
    (ho : s0.onlyChanges s L) : s0.onlyChanges (State.writePage s key off q w).2 L := by
  unfold State.writePage
  try dsimp only
  repeat' first
    | with_reducible assumption
    | (refine names_trans hL ?_
       try simp only [keyTypes, Nat.reduceMod]
       decide)
    | (refine names_trans hL ?_
       refine names_trans (names_of_subset ?_) names_all_word
       simp
       done)
    | (refine names_trans hL ?_
       refine names_trans (names_of_subset ?_) names_all_regs
       simp
       done)
    | (refine names_trans hL ?_
       refine names_trans (names_of_subset ?_) names_all_hdr
       simp
       done)
    | with_reducible first
      | refine names_cons ?_ ?_
      | refine only_ite ?_ ?_
      | refine only_ite_snd ?_ ?_
      | refine only_ite_fst ?_ ?_
      | refine latchedWrite_only (hL := ?_) (ho := ?_)
      | refine injFlip_only (hL := ?_) (ho := ?_)
    | split
    | dsimp only

theorem writeAnswered_only {s : State} {key off : Nat} {q : Req} {w : Word} (hL : names L (([.staged, .recs, .snap, .heldRecs, .out, .xfers, .lines, .inj, .cmds, .power, .bpwr, .activity, .host, .tap, .evts, .grid, .bcasts, .mbox, .probes, .pace, .clusters, .violations, .ports, .suspects, .gens, .spares, .regions, .geyser, .ringQ, .meas, .redNodes, .engines, .ftab, .kernels, .notices, .kats, .taint, .clock, .relock, .pps, .now, .tick, .tports, .svcNotices, .jobs, .waves, .snuff, .profiles, .watch, .redInputs] : List Part) ++ ([.cores, .rails, .snaps, .mirror, .replicas, .drift, .droops, .pkg, .rings, .sinter, .proxies, .chans, .links, .verify, .linkKeys, .peers, .plans, .forced, .change, .trace, .latches, .token, .log, .free, .rotState, .firmware, .tables, .allRegs, .allHdrs, .rotOrders] : List Part)) = true) 
    (ho : s0.onlyChanges s L) : s0.onlyChanges (State.writeAnswered s key off q w).2 L := by
  unfold State.writeAnswered
  try dsimp only
  repeat' first
    | with_reducible assumption
    | (refine names_trans hL ?_
       try simp only [keyTypes, Nat.reduceMod]
       decide)
    | (refine names_trans hL ?_
       refine names_trans (names_of_subset ?_) names_all_word
       simp
       done)
    | (refine names_trans hL ?_
       refine names_trans (names_of_subset ?_) names_all_regs
       simp
       done)
    | (refine names_trans hL ?_
       refine names_trans (names_of_subset ?_) names_all_hdr
       simp
       done)
    | with_reducible first
      | refine names_cons ?_ ?_
      | refine only_ite ?_ ?_
      | refine only_ite_snd ?_ ?_
      | refine only_ite_fst ?_ ?_
      | refine writePage_only (hL := ?_) (ho := ?_)
      | refine setErr_only (hL := ?_) (ho := ?_)
    | split
    | dsimp only

theorem pageAccess_only {s : State} {key page off : Nat} {a : Access} (hL : names L (([.staged, .recs, .snap, .heldRecs, .out, .xfers, .lines, .inj, .cmds, .power, .bpwr, .activity, .host, .tap, .evts, .grid, .bcasts, .mbox, .probes, .pace, .clusters, .violations, .ports, .suspects, .gens, .spares, .regions, .geyser, .ringQ, .meas, .redNodes, .engines, .ftab, .kernels, .notices, .kats, .taint, .clock, .relock, .pps, .now, .tick, .tports, .svcNotices, .jobs, .waves, .snuff, .profiles, .watch, .redInputs] : List Part) ++ ([.cores, .rails, .snaps, .mirror, .replicas, .drift, .droops, .pkg, .rings, .sinter, .proxies, .chans, .links, .verify, .linkKeys, .peers, .plans, .forced, .change, .trace, .latches, .token, .log, .free, .rotState, .firmware, .tables, .allRegs, .allHdrs, .rotOrders] : List Part)) = true) 
    (ho : s0.onlyChanges s L) : s0.onlyChanges (State.pageAccess s key page off a).2 L := by
  unfold State.pageAccess
  try dsimp only
  repeat' first
    | with_reducible assumption
    | (refine names_trans hL ?_
       try simp only [keyTypes, Nat.reduceMod]
       decide)
    | (refine names_trans hL ?_
       refine names_trans (names_of_subset ?_) names_all_word
       simp
       done)
    | (refine names_trans hL ?_
       refine names_trans (names_of_subset ?_) names_all_regs
       simp
       done)
    | (refine names_trans hL ?_
       refine names_trans (names_of_subset ?_) names_all_hdr
       simp
       done)
    | with_reducible first
      | refine names_cons ?_ ?_
      | refine only_ite ?_ ?_
      | refine only_ite_snd ?_ ?_
      | refine only_ite_fst ?_ ?_
      | refine turnAway_only (hL := ?_) (ho := ?_)
      | refine writeAnswered_only (hL := ?_) (ho := ?_)
      | refine readPage_only (hL := ?_) (ho := ?_)
    | split
    | dsimp only

theorem proxySend_only {s : State} {dest : Dest} {addr : Nat} {a : Access} {back : Option (Nat × BitVec 16 × BitVec 16)} (hL : names L [.proxies, .host, .mbox] = true) 
    (ho : s0.onlyChanges s L) : s0.onlyChanges (State.proxySend s dest addr a back).2 L := by
  unfold State.proxySend
  try dsimp only
  repeat' first
    | with_reducible assumption
    | (refine names_trans hL ?_
       try simp only [keyTypes, Nat.reduceMod]
       decide)
    | with_reducible first
      | refine names_cons ?_ ?_
      | refine only_ite ?_ ?_
      | refine only_ite_snd ?_ ?_
      | refine only_ite_fst ?_ ?_
      | refine send_only (hL := ?_) (ho := ?_)
      | refine only_foldl (fun u x hu => ?_) ?_
      | refine only_foldl_snd (fun u x hu => ?_) ?_
      | refine only_foldl_fst (fun u x hu => ?_) ?_
    | split
    | (with_reducible refine modLinks_only (z := [.proxies]) ?_ ?_ ?_ ?_ ?_ ?_ ?_
       · refine names_trans hL ?_
         first | decide | (refine names_of_subset ?_; simp; done)
       iterate 5 · first | with_reducible rfl | (intro _; with_reducible rfl) | exact fun h => not_free h rfl | (intro _; dsimp only; split <;> rfl) | exact rfl | exact fun _ => rfl)
    | (with_reducible refine only_pages (z := [.host]) ?_ ?_ ?_ ?_ ?_ ?_ ?_ ?_ ?_ ?_
       · refine names_trans hL ?_
         first | decide | (refine names_of_subset ?_; simp; done)
       iterate 8 · first | with_reducible rfl | (intro _; with_reducible rfl) | exact fun h => not_free h rfl | (intro _; dsimp only; split <;> rfl) | exact rfl | exact fun _ => rfl)
    | dsimp only

theorem serve_only {s : State} {a : Access} {back : Option (Nat × BitVec 16 × BitVec 16)} (hL : names L (([.allHdrs, .power, .bpwr, .cmds, .activity, .staged, .recs, .snap, .heldRecs, .out, .xfers, .lines, .inj, .host, .tap, .evts, .grid, .bcasts, .mbox, .probes, .pace, .clusters, .violations, .ports, .suspects, .gens, .spares, .regions, .geyser, .ringQ, .meas, .redNodes, .engines, .ftab, .kernels, .notices, .kats, .taint, .clock, .relock, .pps, .now, .tick, .tports, .svcNotices, .jobs, .waves, .snuff, .profiles, .watch] : List Part) ++ ([.redInputs, .cores, .rails, .snaps, .mirror, .replicas, .drift, .droops, .pkg, .rings, .sinter, .proxies, .chans, .links, .verify, .linkKeys, .peers, .plans, .forced, .change, .trace, .latches, .token, .log, .free, .rotState, .firmware, .allRegs, .tables, .rotOrders] : List Part)) = true) 
    (ho : s0.onlyChanges s L) : s0.onlyChanges (State.serve s a back).2 L := by
  unfold State.serve
  try dsimp only
  repeat' first
    | with_reducible assumption
    | (refine names_trans hL ?_
       try simp only [keyTypes, Nat.reduceMod]
       decide)
    | (refine names_trans hL ?_
       refine names_trans (names_of_subset ?_) names_all_word
       simp
       done)
    | (refine names_trans hL ?_
       refine names_trans (names_of_subset ?_) names_all_regs
       simp
       done)
    | (refine names_trans hL ?_
       refine names_trans (names_of_subset ?_) names_all_hdr
       simp
       done)
    | with_reducible first
      | refine names_cons ?_ ?_
      | refine only_ite ?_ ?_
      | refine only_ite_snd ?_ ?_
      | refine only_ite_fst ?_ ?_
      | refine turnAway_only (hL := ?_) (ho := ?_)
      | refine wakeSrc_only (hL := ?_) (ho := ?_)
      | refine busyNow_only (hL := ?_) (ho := ?_)
      | refine hostWakes_only (hL := ?_) (ho := ?_)
      | refine pageAccess_only (hL := ?_) (ho := ?_)
      | refine proxySend_only (hL := ?_) (ho := ?_)
    | split
    | dsimp only

theorem access_only {s : State} {a : Access} (hL : names L (([.allHdrs, .power, .bpwr, .cmds, .activity, .staged, .recs, .snap, .heldRecs, .out, .xfers, .lines, .inj, .host, .tap, .evts, .grid, .bcasts, .mbox, .probes, .pace, .clusters, .violations, .ports, .suspects, .gens, .spares, .regions, .geyser, .ringQ, .meas, .redNodes, .engines, .ftab, .kernels, .notices, .kats, .taint, .clock, .relock, .pps, .now, .tick, .tports, .svcNotices, .jobs, .waves, .snuff, .profiles, .watch] : List Part) ++ ([.redInputs, .cores, .rails, .snaps, .mirror, .replicas, .drift, .droops, .pkg, .rings, .sinter, .proxies, .chans, .links, .verify, .linkKeys, .peers, .plans, .forced, .change, .trace, .latches, .token, .log, .free, .rotState, .firmware, .allRegs, .tables, .rotOrders] : List Part)) = true) 
    (ho : s0.onlyChanges s L) : s0.onlyChanges (State.access s a) L := by
  unfold State.access
  try dsimp only
  repeat' first
    | with_reducible assumption
    | (refine names_trans hL ?_
       try simp only [keyTypes, Nat.reduceMod]
       decide)
    | (refine names_trans hL ?_
       refine names_trans (names_of_subset ?_) names_all_word
       simp
       done)
    | (refine names_trans hL ?_
       refine names_trans (names_of_subset ?_) names_all_regs
       simp
       done)
    | (refine names_trans hL ?_
       refine names_trans (names_of_subset ?_) names_all_hdr
       simp
       done)
    | with_reducible first
      | refine names_cons ?_ ?_
      | refine only_ite ?_ ?_
      | refine only_ite_snd ?_ ?_
      | refine only_ite_fst ?_ ?_
      | refine serve_only (hL := ?_) (ho := ?_)
      | refine respond_only (hL := ?_) (ho := ?_)
    | split
    | dsimp only
    | with_reducible refine only_of_pair (by assumption) ?_

theorem kxAccess_only {s : State} {dr : BitVec 60} (hL : names L (([.out, .allHdrs, .power, .bpwr, .cmds, .activity, .staged, .recs, .snap, .heldRecs, .xfers, .lines, .inj, .host, .tap, .evts, .grid, .bcasts, .mbox, .probes, .pace, .clusters, .violations, .ports, .suspects, .gens, .spares, .regions, .geyser, .ringQ, .meas, .redNodes, .engines, .ftab, .kernels, .notices, .kats, .taint, .clock, .relock, .pps, .now, .tick, .tports, .svcNotices, .jobs, .waves, .snuff, .profiles, .watch] : List Part) ++ ([.redInputs, .cores, .rails, .snaps, .mirror, .replicas, .drift, .droops, .pkg, .rings, .sinter, .proxies, .chans, .links, .verify, .linkKeys, .peers, .plans, .forced, .change, .trace, .latches, .token, .log, .free, .rotState, .firmware, .allRegs, .tables, .rotOrders] : List Part)) = true) 
    (ho : s0.onlyChanges s L) : s0.onlyChanges (State.kxAccess s dr) L := by
  unfold State.kxAccess
  try dsimp only
  repeat' first
    | with_reducible assumption
    | (refine names_trans hL ?_
       try simp only [keyTypes, Nat.reduceMod]
       decide)
    | (refine names_trans hL ?_
       refine names_trans (names_of_subset ?_) names_all_word
       simp
       done)
    | (refine names_trans hL ?_
       refine names_trans (names_of_subset ?_) names_all_regs
       simp
       done)
    | (refine names_trans hL ?_
       refine names_trans (names_of_subset ?_) names_all_hdr
       simp
       done)
    | with_reducible first
      | refine names_cons ?_ ?_
      | refine only_ite ?_ ?_
      | refine only_ite_snd ?_ ?_
      | refine only_ite_fst ?_ ?_
      | refine tdo_only (hL := ?_) (ho := ?_)
      | refine access_only (hL := ?_) (ho := ?_)
    | split
    | (with_reducible refine modTap_only (z := [.tap]) ?_ ?_ ?_
       · refine names_trans hL ?_
         first | decide | (refine names_of_subset ?_; simp; done)
       iterate 1 · first | with_reducible rfl | (intro _; with_reducible rfl) | exact fun h => not_free h rfl | (intro _; dsimp only; split <;> rfl) | exact rfl | exact fun _ => rfl)
    | dsimp only

theorem regEntry_only {s : State} {e : RegEntry} (hL : names L (([.allHdrs, .staged, .recs, .snap, .heldRecs, .out, .xfers, .lines, .inj, .cmds, .power, .bpwr, .activity, .host, .tap, .evts, .grid, .bcasts, .mbox, .probes, .pace, .clusters, .violations, .ports, .suspects, .gens, .spares, .regions, .geyser, .ringQ, .meas, .redNodes, .engines, .ftab, .kernels, .notices, .kats, .taint, .clock, .relock, .pps, .now, .tick, .tports, .svcNotices, .jobs, .waves, .snuff, .profiles, .watch] : List Part) ++ ([.redInputs, .cores, .rails, .snaps, .mirror, .replicas, .drift, .droops, .pkg, .rings, .sinter, .proxies, .chans, .links, .verify, .linkKeys, .peers, .plans, .forced, .change, .trace, .latches, .token, .log, .free, .rotState, .firmware, .allRegs, .tables, .rotOrders] : List Part)) = true) 
    (ho : s0.onlyChanges s L) : s0.onlyChanges (State.regEntry s e).2 L := by
  unfold State.regEntry
  try dsimp only
  repeat' first
    | with_reducible assumption
    | (refine names_trans hL ?_
       try simp only [keyTypes, Nat.reduceMod]
       decide)
    | (refine names_trans hL ?_
       refine names_trans (names_of_subset ?_) names_all_word
       simp
       done)
    | (refine names_trans hL ?_
       refine names_trans (names_of_subset ?_) names_all_regs
       simp
       done)
    | (refine names_trans hL ?_
       refine names_trans (names_of_subset ?_) names_all_hdr
       simp
       done)
    | with_reducible first
      | refine names_cons ?_ ?_
      | refine only_ite ?_ ?_
      | refine only_ite_snd ?_ ?_
      | refine only_ite_fst ?_ ?_
      | refine pageAccess_only (hL := ?_) (ho := ?_)
    | split
    | dsimp only

theorem execRegisterWrite_only (a : Access) (s : State) : ∃ st', execRegisterWrite a s = .next st' ∧ s.onlyChanges st' (([.out, .xfers, .lines, .inj, .allHdrs, .power, .bpwr, .cmds, .activity, .staged, .recs, .snap, .heldRecs, .host, .tap, .evts, .grid, .bcasts, .mbox, .probes, .pace, .clusters, .violations, .ports, .suspects, .gens, .spares, .regions, .geyser, .ringQ, .meas, .redNodes, .engines, .ftab, .kernels, .notices, .kats, .taint, .clock, .relock, .pps, .now, .tick, .tports, .svcNotices, .jobs, .waves, .snuff, .profiles, .watch] : List Part) ++ ([.redInputs, .cores, .rails, .snaps, .mirror, .replicas, .drift, .droops, .pkg, .rings, .sinter, .proxies, .chans, .links, .verify, .linkKeys, .peers, .plans, .forced, .change, .trace, .latches, .token, .log, .free, .rotState, .firmware, .allRegs, .tables, .rotOrders] : List Part)) := by
  refine ⟨_, rfl, only_start fun hL h0 => ?_⟩
  refine settle_only (names_of_subset (by simp)) ?_
  repeat' first
    | with_reducible first
      | exact h0
      | assumption
    | (refine names_trans hL ?_
       try simp only [keyTypes, Nat.reduceMod]
       decide)
    | (refine names_trans hL ?_
       refine names_trans (names_of_subset ?_) names_all_word
       simp
       done)
    | (refine names_trans hL ?_
       refine names_trans (names_of_subset ?_) names_all_regs
       simp
       done)
    | (refine names_trans hL ?_
       refine names_trans (names_of_subset ?_) names_all_hdr
       simp
       done)
    | with_reducible first
      | refine names_cons ?_ ?_
      | refine only_ite ?_ ?_
      | refine only_ite_snd ?_ ?_
      | refine only_ite_fst ?_ ?_
      | refine access_only (hL := ?_) (ho := ?_)
    | split
    | dsimp only

theorem execGuardArm_only (a : Access) (s : State) : ∃ st', execGuardArm a s = .next st' ∧ s.onlyChanges st' (([.out, .xfers, .lines, .inj, .allHdrs, .power, .bpwr, .cmds, .activity, .staged, .recs, .snap, .heldRecs, .host, .tap, .evts, .grid, .bcasts, .mbox, .probes, .pace, .clusters, .violations, .ports, .suspects, .gens, .spares, .regions, .geyser, .ringQ, .meas, .redNodes, .engines, .ftab, .kernels, .notices, .kats, .taint, .clock, .relock, .pps, .now, .tick, .tports, .svcNotices, .jobs, .waves, .snuff, .profiles, .watch] : List Part) ++ ([.redInputs, .cores, .rails, .snaps, .mirror, .replicas, .drift, .droops, .pkg, .rings, .sinter, .proxies, .chans, .links, .verify, .linkKeys, .peers, .plans, .forced, .change, .trace, .latches, .token, .log, .free, .rotState, .firmware, .allRegs, .tables, .rotOrders] : List Part)) := by
  refine ⟨_, rfl, only_start fun hL h0 => ?_⟩
  refine settle_only (names_of_subset (by simp)) ?_
  repeat' first
    | with_reducible first
      | exact h0
      | assumption
    | (refine names_trans hL ?_
       try simp only [keyTypes, Nat.reduceMod]
       decide)
    | (refine names_trans hL ?_
       refine names_trans (names_of_subset ?_) names_all_word
       simp
       done)
    | (refine names_trans hL ?_
       refine names_trans (names_of_subset ?_) names_all_regs
       simp
       done)
    | (refine names_trans hL ?_
       refine names_trans (names_of_subset ?_) names_all_hdr
       simp
       done)
    | with_reducible first
      | refine names_cons ?_ ?_
      | refine only_ite ?_ ?_
      | refine only_ite_snd ?_ ?_
      | refine only_ite_fst ?_ ?_
      | refine access_only (hL := ?_) (ho := ?_)
    | split
    | dsimp only

theorem execGuardCommit_only (a : Access) (s : State) : ∃ st', execGuardCommit a s = .next st' ∧ s.onlyChanges st' (([.out, .xfers, .lines, .inj, .allHdrs, .power, .bpwr, .cmds, .activity, .staged, .recs, .snap, .heldRecs, .host, .tap, .evts, .grid, .bcasts, .mbox, .probes, .pace, .clusters, .violations, .ports, .suspects, .gens, .spares, .regions, .geyser, .ringQ, .meas, .redNodes, .engines, .ftab, .kernels, .notices, .kats, .taint, .clock, .relock, .pps, .now, .tick, .tports, .svcNotices, .jobs, .waves, .snuff, .profiles, .watch] : List Part) ++ ([.redInputs, .cores, .rails, .snaps, .mirror, .replicas, .drift, .droops, .pkg, .rings, .sinter, .proxies, .chans, .links, .verify, .linkKeys, .peers, .plans, .forced, .change, .trace, .latches, .token, .log, .free, .rotState, .firmware, .allRegs, .tables, .rotOrders] : List Part)) := by
  refine ⟨_, rfl, only_start fun hL h0 => ?_⟩
  refine settle_only (names_of_subset (by simp)) ?_
  repeat' first
    | with_reducible first
      | exact h0
      | assumption
    | (refine names_trans hL ?_
       try simp only [keyTypes, Nat.reduceMod]
       decide)
    | (refine names_trans hL ?_
       refine names_trans (names_of_subset ?_) names_all_word
       simp
       done)
    | (refine names_trans hL ?_
       refine names_trans (names_of_subset ?_) names_all_regs
       simp
       done)
    | (refine names_trans hL ?_
       refine names_trans (names_of_subset ?_) names_all_hdr
       simp
       done)
    | with_reducible first
      | refine names_cons ?_ ?_
      | refine only_ite ?_ ?_
      | refine only_ite_snd ?_ ?_
      | refine only_ite_fst ?_ ?_
      | refine access_only (hL := ?_) (ho := ?_)
    | split
    | dsimp only

theorem execWideCapture_only (a : Access) (s : State) : ∃ st', execWideCapture a s = .next st' ∧ s.onlyChanges st' (([.out, .xfers, .lines, .inj, .allHdrs, .power, .bpwr, .cmds, .activity, .staged, .recs, .snap, .heldRecs, .host, .tap, .evts, .grid, .bcasts, .mbox, .probes, .pace, .clusters, .violations, .ports, .suspects, .gens, .spares, .regions, .geyser, .ringQ, .meas, .redNodes, .engines, .ftab, .kernels, .notices, .kats, .taint, .clock, .relock, .pps, .now, .tick, .tports, .svcNotices, .jobs, .waves, .snuff, .profiles, .watch] : List Part) ++ ([.redInputs, .cores, .rails, .snaps, .mirror, .replicas, .drift, .droops, .pkg, .rings, .sinter, .proxies, .chans, .links, .verify, .linkKeys, .peers, .plans, .forced, .change, .trace, .latches, .token, .log, .free, .rotState, .firmware, .allRegs, .tables, .rotOrders] : List Part)) := by
  refine ⟨_, rfl, only_start fun hL h0 => ?_⟩
  refine settle_only (names_of_subset (by simp)) ?_
  repeat' first
    | with_reducible first
      | exact h0
      | assumption
    | (refine names_trans hL ?_
       try simp only [keyTypes, Nat.reduceMod]
       decide)
    | (refine names_trans hL ?_
       refine names_trans (names_of_subset ?_) names_all_word
       simp
       done)
    | (refine names_trans hL ?_
       refine names_trans (names_of_subset ?_) names_all_regs
       simp
       done)
    | (refine names_trans hL ?_
       refine names_trans (names_of_subset ?_) names_all_hdr
       simp
       done)
    | with_reducible first
      | refine names_cons ?_ ?_
      | refine only_ite ?_ ?_
      | refine only_ite_snd ?_ ?_
      | refine only_ite_fst ?_ ?_
      | refine access_only (hL := ?_) (ho := ?_)
    | split
    | dsimp only

theorem execWideWriteCommit_only (a : Access) (s : State) : ∃ st', execWideWriteCommit a s = .next st' ∧ s.onlyChanges st' (([.out, .xfers, .lines, .inj, .allHdrs, .power, .bpwr, .cmds, .activity, .staged, .recs, .snap, .heldRecs, .host, .tap, .evts, .grid, .bcasts, .mbox, .probes, .pace, .clusters, .violations, .ports, .suspects, .gens, .spares, .regions, .geyser, .ringQ, .meas, .redNodes, .engines, .ftab, .kernels, .notices, .kats, .taint, .clock, .relock, .pps, .now, .tick, .tports, .svcNotices, .jobs, .waves, .snuff, .profiles, .watch] : List Part) ++ ([.redInputs, .cores, .rails, .snaps, .mirror, .replicas, .drift, .droops, .pkg, .rings, .sinter, .proxies, .chans, .links, .verify, .linkKeys, .peers, .plans, .forced, .change, .trace, .latches, .token, .log, .free, .rotState, .firmware, .allRegs, .tables, .rotOrders] : List Part)) := by
  refine ⟨_, rfl, only_start fun hL h0 => ?_⟩
  refine settle_only (names_of_subset (by simp)) ?_
  repeat' first
    | with_reducible first
      | exact h0
      | assumption
    | (refine names_trans hL ?_
       try simp only [keyTypes, Nat.reduceMod]
       decide)
    | (refine names_trans hL ?_
       refine names_trans (names_of_subset ?_) names_all_word
       simp
       done)
    | (refine names_trans hL ?_
       refine names_trans (names_of_subset ?_) names_all_regs
       simp
       done)
    | (refine names_trans hL ?_
       refine names_trans (names_of_subset ?_) names_all_hdr
       simp
       done)
    | with_reducible first
      | refine names_cons ?_ ?_
      | refine only_ite ?_ ?_
      | refine only_ite_snd ?_ ?_
      | refine only_ite_fst ?_ ?_
      | refine access_only (hL := ?_) (ho := ?_)
    | split
    | dsimp only

theorem execSnapTake_only (a : Access) (s : State) : ∃ st', execSnapTake a s = .next st' ∧ s.onlyChanges st' (([.out, .xfers, .lines, .inj, .allHdrs, .power, .bpwr, .cmds, .activity, .staged, .recs, .snap, .heldRecs, .host, .tap, .evts, .grid, .bcasts, .mbox, .probes, .pace, .clusters, .violations, .ports, .suspects, .gens, .spares, .regions, .geyser, .ringQ, .meas, .redNodes, .engines, .ftab, .kernels, .notices, .kats, .taint, .clock, .relock, .pps, .now, .tick, .tports, .svcNotices, .jobs, .waves, .snuff, .profiles, .watch] : List Part) ++ ([.redInputs, .cores, .rails, .snaps, .mirror, .replicas, .drift, .droops, .pkg, .rings, .sinter, .proxies, .chans, .links, .verify, .linkKeys, .peers, .plans, .forced, .change, .trace, .latches, .token, .log, .free, .rotState, .firmware, .allRegs, .tables, .rotOrders] : List Part)) := by
  refine ⟨_, rfl, only_start fun hL h0 => ?_⟩
  refine settle_only (names_of_subset (by simp)) ?_
  repeat' first
    | with_reducible first
      | exact h0
      | assumption
    | (refine names_trans hL ?_
       try simp only [keyTypes, Nat.reduceMod]
       decide)
    | (refine names_trans hL ?_
       refine names_trans (names_of_subset ?_) names_all_word
       simp
       done)
    | (refine names_trans hL ?_
       refine names_trans (names_of_subset ?_) names_all_regs
       simp
       done)
    | (refine names_trans hL ?_
       refine names_trans (names_of_subset ?_) names_all_hdr
       simp
       done)
    | with_reducible first
      | refine names_cons ?_ ?_
      | refine only_ite ?_ ?_
      | refine only_ite_snd ?_ ?_
      | refine only_ite_fst ?_ ?_
      | refine access_only (hL := ?_) (ho := ?_)
    | split
    | dsimp only

theorem execUnitwinAccess_only (a : Access) (s : State) : ∃ st', execUnitwinAccess a s = .next st' ∧ s.onlyChanges st' (([.out, .xfers, .lines, .inj, .allHdrs, .power, .bpwr, .cmds, .activity, .staged, .recs, .snap, .heldRecs, .host, .tap, .evts, .grid, .bcasts, .mbox, .probes, .pace, .clusters, .violations, .ports, .suspects, .gens, .spares, .regions, .geyser, .ringQ, .meas, .redNodes, .engines, .ftab, .kernels, .notices, .kats, .taint, .clock, .relock, .pps, .now, .tick, .tports, .svcNotices, .jobs, .waves, .snuff, .profiles, .watch] : List Part) ++ ([.redInputs, .cores, .rails, .snaps, .mirror, .replicas, .drift, .droops, .pkg, .rings, .sinter, .proxies, .chans, .links, .verify, .linkKeys, .peers, .plans, .forced, .change, .trace, .latches, .token, .log, .free, .rotState, .firmware, .allRegs, .tables, .rotOrders] : List Part)) := by
  refine ⟨_, rfl, only_start fun hL h0 => ?_⟩
  refine settle_only (names_of_subset (by simp)) ?_
  repeat' first
    | with_reducible first
      | exact h0
      | assumption
    | (refine names_trans hL ?_
       try simp only [keyTypes, Nat.reduceMod]
       decide)
    | (refine names_trans hL ?_
       refine names_trans (names_of_subset ?_) names_all_word
       simp
       done)
    | (refine names_trans hL ?_
       refine names_trans (names_of_subset ?_) names_all_regs
       simp
       done)
    | (refine names_trans hL ?_
       refine names_trans (names_of_subset ?_) names_all_hdr
       simp
       done)
    | with_reducible first
      | refine names_cons ?_ ?_
      | refine only_ite ?_ ?_
      | refine only_ite_snd ?_ ?_
      | refine only_ite_fst ?_ ?_
      | refine access_only (hL := ?_) (ho := ?_)
    | split
    | dsimp only

theorem execRingRptrWrite_only (a : Access) (s : State) : ∃ st', execRingRptrWrite a s = .next st' ∧ s.onlyChanges st' (([.out, .xfers, .lines, .inj, .allHdrs, .power, .bpwr, .cmds, .activity, .staged, .recs, .snap, .heldRecs, .host, .tap, .evts, .grid, .bcasts, .mbox, .probes, .pace, .clusters, .violations, .ports, .suspects, .gens, .spares, .regions, .geyser, .ringQ, .meas, .redNodes, .engines, .ftab, .kernels, .notices, .kats, .taint, .clock, .relock, .pps, .now, .tick, .tports, .svcNotices, .jobs, .waves, .snuff, .profiles, .watch] : List Part) ++ ([.redInputs, .cores, .rails, .snaps, .mirror, .replicas, .drift, .droops, .pkg, .rings, .sinter, .proxies, .chans, .links, .verify, .linkKeys, .peers, .plans, .forced, .change, .trace, .latches, .token, .log, .free, .rotState, .firmware, .allRegs, .tables, .rotOrders] : List Part)) := by
  refine ⟨_, rfl, only_start fun hL h0 => ?_⟩
  refine settle_only (names_of_subset (by simp)) ?_
  repeat' first
    | with_reducible first
      | exact h0
      | assumption
    | (refine names_trans hL ?_
       try simp only [keyTypes, Nat.reduceMod]
       decide)
    | (refine names_trans hL ?_
       refine names_trans (names_of_subset ?_) names_all_word
       simp
       done)
    | (refine names_trans hL ?_
       refine names_trans (names_of_subset ?_) names_all_regs
       simp
       done)
    | (refine names_trans hL ?_
       refine names_trans (names_of_subset ?_) names_all_hdr
       simp
       done)
    | with_reducible first
      | refine names_cons ?_ ?_
      | refine only_ite ?_ ?_
      | refine only_ite_snd ?_ ?_
      | refine only_ite_fst ?_ ?_
      | refine access_only (hL := ?_) (ho := ?_)
    | split
    | dsimp only

theorem execRingSizeWrite_only (a : Access) (s : State) : ∃ st', execRingSizeWrite a s = .next st' ∧ s.onlyChanges st' (([.out, .xfers, .lines, .inj, .allHdrs, .power, .bpwr, .cmds, .activity, .staged, .recs, .snap, .heldRecs, .host, .tap, .evts, .grid, .bcasts, .mbox, .probes, .pace, .clusters, .violations, .ports, .suspects, .gens, .spares, .regions, .geyser, .ringQ, .meas, .redNodes, .engines, .ftab, .kernels, .notices, .kats, .taint, .clock, .relock, .pps, .now, .tick, .tports, .svcNotices, .jobs, .waves, .snuff, .profiles, .watch] : List Part) ++ ([.redInputs, .cores, .rails, .snaps, .mirror, .replicas, .drift, .droops, .pkg, .rings, .sinter, .proxies, .chans, .links, .verify, .linkKeys, .peers, .plans, .forced, .change, .trace, .latches, .token, .log, .free, .rotState, .firmware, .allRegs, .tables, .rotOrders] : List Part)) := by
  refine ⟨_, rfl, only_start fun hL h0 => ?_⟩
  refine settle_only (names_of_subset (by simp)) ?_
  repeat' first
    | with_reducible first
      | exact h0
      | assumption
    | (refine names_trans hL ?_
       try simp only [keyTypes, Nat.reduceMod]
       decide)
    | (refine names_trans hL ?_
       refine names_trans (names_of_subset ?_) names_all_word
       simp
       done)
    | (refine names_trans hL ?_
       refine names_trans (names_of_subset ?_) names_all_regs
       simp
       done)
    | (refine names_trans hL ?_
       refine names_trans (names_of_subset ?_) names_all_hdr
       simp
       done)
    | with_reducible first
      | refine names_cons ?_ ?_
      | refine only_ite ?_ ?_
      | refine only_ite_snd ?_ ?_
      | refine only_ite_fst ?_ ?_
      | refine access_only (hL := ?_) (ho := ?_)
    | split
    | dsimp only

theorem execCmdLock_only (a : Access) (s : State) : ∃ st', execCmdLock a s = .next st' ∧ s.onlyChanges st' (([.out, .xfers, .lines, .inj, .allHdrs, .power, .bpwr, .cmds, .activity, .staged, .recs, .snap, .heldRecs, .host, .tap, .evts, .grid, .bcasts, .mbox, .probes, .pace, .clusters, .violations, .ports, .suspects, .gens, .spares, .regions, .geyser, .ringQ, .meas, .redNodes, .engines, .ftab, .kernels, .notices, .kats, .taint, .clock, .relock, .pps, .now, .tick, .tports, .svcNotices, .jobs, .waves, .snuff, .profiles, .watch] : List Part) ++ ([.redInputs, .cores, .rails, .snaps, .mirror, .replicas, .drift, .droops, .pkg, .rings, .sinter, .proxies, .chans, .links, .verify, .linkKeys, .peers, .plans, .forced, .change, .trace, .latches, .token, .log, .free, .rotState, .firmware, .allRegs, .tables, .rotOrders] : List Part)) := by
  refine ⟨_, rfl, only_start fun hL h0 => ?_⟩
  refine settle_only (names_of_subset (by simp)) ?_
  repeat' first
    | with_reducible first
      | exact h0
      | assumption
    | (refine names_trans hL ?_
       try simp only [keyTypes, Nat.reduceMod]
       decide)
    | (refine names_trans hL ?_
       refine names_trans (names_of_subset ?_) names_all_word
       simp
       done)
    | (refine names_trans hL ?_
       refine names_trans (names_of_subset ?_) names_all_regs
       simp
       done)
    | (refine names_trans hL ?_
       refine names_trans (names_of_subset ?_) names_all_hdr
       simp
       done)
    | with_reducible first
      | refine names_cons ?_ ?_
      | refine only_ite ?_ ?_
      | refine only_ite_snd ?_ ?_
      | refine only_ite_fst ?_ ?_
      | refine access_only (hL := ?_) (ho := ?_)
    | split
    | dsimp only

theorem execCmdDoneClear_only (a : Access) (s : State) : ∃ st', execCmdDoneClear a s = .next st' ∧ s.onlyChanges st' (([.out, .xfers, .lines, .inj, .allHdrs, .power, .bpwr, .cmds, .activity, .staged, .recs, .snap, .heldRecs, .host, .tap, .evts, .grid, .bcasts, .mbox, .probes, .pace, .clusters, .violations, .ports, .suspects, .gens, .spares, .regions, .geyser, .ringQ, .meas, .redNodes, .engines, .ftab, .kernels, .notices, .kats, .taint, .clock, .relock, .pps, .now, .tick, .tports, .svcNotices, .jobs, .waves, .snuff, .profiles, .watch] : List Part) ++ ([.redInputs, .cores, .rails, .snaps, .mirror, .replicas, .drift, .droops, .pkg, .rings, .sinter, .proxies, .chans, .links, .verify, .linkKeys, .peers, .plans, .forced, .change, .trace, .latches, .token, .log, .free, .rotState, .firmware, .allRegs, .tables, .rotOrders] : List Part)) := by
  refine ⟨_, rfl, only_start fun hL h0 => ?_⟩
  refine settle_only (names_of_subset (by simp)) ?_
  repeat' first
    | with_reducible first
      | exact h0
      | assumption
    | (refine names_trans hL ?_
       try simp only [keyTypes, Nat.reduceMod]
       decide)
    | (refine names_trans hL ?_
       refine names_trans (names_of_subset ?_) names_all_word
       simp
       done)
    | (refine names_trans hL ?_
       refine names_trans (names_of_subset ?_) names_all_regs
       simp
       done)
    | (refine names_trans hL ?_
       refine names_trans (names_of_subset ?_) names_all_hdr
       simp
       done)
    | with_reducible first
      | refine names_cons ?_ ?_
      | refine only_ite ?_ ?_
      | refine only_ite_snd ?_ ?_
      | refine only_ite_fst ?_ ?_
      | refine access_only (hL := ?_) (ho := ?_)
    | split
    | dsimp only

theorem execCmdReject_only (a : Access) (s : State) : ∃ st', execCmdReject a s = .next st' ∧ s.onlyChanges st' (([.out, .xfers, .lines, .inj, .allHdrs, .power, .bpwr, .cmds, .activity, .staged, .recs, .snap, .heldRecs, .host, .tap, .evts, .grid, .bcasts, .mbox, .probes, .pace, .clusters, .violations, .ports, .suspects, .gens, .spares, .regions, .geyser, .ringQ, .meas, .redNodes, .engines, .ftab, .kernels, .notices, .kats, .taint, .clock, .relock, .pps, .now, .tick, .tports, .svcNotices, .jobs, .waves, .snuff, .profiles, .watch] : List Part) ++ ([.redInputs, .cores, .rails, .snaps, .mirror, .replicas, .drift, .droops, .pkg, .rings, .sinter, .proxies, .chans, .links, .verify, .linkKeys, .peers, .plans, .forced, .change, .trace, .latches, .token, .log, .free, .rotState, .firmware, .allRegs, .tables, .rotOrders] : List Part)) := by
  refine ⟨_, rfl, only_start fun hL h0 => ?_⟩
  refine settle_only (names_of_subset (by simp)) ?_
  repeat' first
    | with_reducible first
      | exact h0
      | assumption
    | (refine names_trans hL ?_
       try simp only [keyTypes, Nat.reduceMod]
       decide)
    | (refine names_trans hL ?_
       refine names_trans (names_of_subset ?_) names_all_word
       simp
       done)
    | (refine names_trans hL ?_
       refine names_trans (names_of_subset ?_) names_all_regs
       simp
       done)
    | (refine names_trans hL ?_
       refine names_trans (names_of_subset ?_) names_all_hdr
       simp
       done)
    | with_reducible first
      | refine names_cons ?_ ?_
      | refine only_ite ?_ ?_
      | refine only_ite_snd ?_ ?_
      | refine only_ite_fst ?_ ?_
      | refine access_only (hL := ?_) (ho := ?_)
    | split
    | dsimp only

theorem execProxyRequest_only (a : Access) (s : State) : ∃ st', execProxyRequest a s = .next st' ∧ s.onlyChanges st' (([.out, .xfers, .lines, .inj, .allHdrs, .power, .bpwr, .cmds, .activity, .staged, .recs, .snap, .heldRecs, .host, .tap, .evts, .grid, .bcasts, .mbox, .probes, .pace, .clusters, .violations, .ports, .suspects, .gens, .spares, .regions, .geyser, .ringQ, .meas, .redNodes, .engines, .ftab, .kernels, .notices, .kats, .taint, .clock, .relock, .pps, .now, .tick, .tports, .svcNotices, .jobs, .waves, .snuff, .profiles, .watch] : List Part) ++ ([.redInputs, .cores, .rails, .snaps, .mirror, .replicas, .drift, .droops, .pkg, .rings, .sinter, .proxies, .chans, .links, .verify, .linkKeys, .peers, .plans, .forced, .change, .trace, .latches, .token, .log, .free, .rotState, .firmware, .allRegs, .tables, .rotOrders] : List Part)) := by
  refine ⟨_, rfl, only_start fun hL h0 => ?_⟩
  refine settle_only (names_of_subset (by simp)) ?_
  repeat' first
    | with_reducible first
      | exact h0
      | assumption
    | (refine names_trans hL ?_
       try simp only [keyTypes, Nat.reduceMod]
       decide)
    | (refine names_trans hL ?_
       refine names_trans (names_of_subset ?_) names_all_word
       simp
       done)
    | (refine names_trans hL ?_
       refine names_trans (names_of_subset ?_) names_all_regs
       simp
       done)
    | (refine names_trans hL ?_
       refine names_trans (names_of_subset ?_) names_all_hdr
       simp
       done)
    | with_reducible first
      | refine names_cons ?_ ?_
      | refine only_ite ?_ ?_
      | refine only_ite_snd ?_ ?_
      | refine only_ite_fst ?_ ?_
      | refine access_only (hL := ?_) (ho := ?_)
    | split
    | dsimp only

theorem execProxyWrite_only (a : Access) (s : State) : ∃ st', execProxyWrite a s = .next st' ∧ s.onlyChanges st' (([.out, .xfers, .lines, .inj, .allHdrs, .power, .bpwr, .cmds, .activity, .staged, .recs, .snap, .heldRecs, .host, .tap, .evts, .grid, .bcasts, .mbox, .probes, .pace, .clusters, .violations, .ports, .suspects, .gens, .spares, .regions, .geyser, .ringQ, .meas, .redNodes, .engines, .ftab, .kernels, .notices, .kats, .taint, .clock, .relock, .pps, .now, .tick, .tports, .svcNotices, .jobs, .waves, .snuff, .profiles, .watch] : List Part) ++ ([.redInputs, .cores, .rails, .snaps, .mirror, .replicas, .drift, .droops, .pkg, .rings, .sinter, .proxies, .chans, .links, .verify, .linkKeys, .peers, .plans, .forced, .change, .trace, .latches, .token, .log, .free, .rotState, .firmware, .allRegs, .tables, .rotOrders] : List Part)) := by
  refine ⟨_, rfl, only_start fun hL h0 => ?_⟩
  refine settle_only (names_of_subset (by simp)) ?_
  repeat' first
    | with_reducible first
      | exact h0
      | assumption
    | (refine names_trans hL ?_
       try simp only [keyTypes, Nat.reduceMod]
       decide)
    | (refine names_trans hL ?_
       refine names_trans (names_of_subset ?_) names_all_word
       simp
       done)
    | (refine names_trans hL ?_
       refine names_trans (names_of_subset ?_) names_all_regs
       simp
       done)
    | (refine names_trans hL ?_
       refine names_trans (names_of_subset ?_) names_all_hdr
       simp
       done)
    | with_reducible first
      | refine names_cons ?_ ?_
      | refine only_ite ?_ ?_
      | refine only_ite_snd ?_ ?_
      | refine only_ite_fst ?_ ?_
      | refine access_only (hL := ?_) (ho := ?_)
    | split
    | dsimp only

theorem execSlotCapture_only (a : Access) (s : State) : ∃ st', execSlotCapture a s = .next st' ∧ s.onlyChanges st' (([.out, .xfers, .lines, .inj, .allHdrs, .power, .bpwr, .cmds, .activity, .staged, .recs, .snap, .heldRecs, .host, .tap, .evts, .grid, .bcasts, .mbox, .probes, .pace, .clusters, .violations, .ports, .suspects, .gens, .spares, .regions, .geyser, .ringQ, .meas, .redNodes, .engines, .ftab, .kernels, .notices, .kats, .taint, .clock, .relock, .pps, .now, .tick, .tports, .svcNotices, .jobs, .waves, .snuff, .profiles, .watch] : List Part) ++ ([.redInputs, .cores, .rails, .snaps, .mirror, .replicas, .drift, .droops, .pkg, .rings, .sinter, .proxies, .chans, .links, .verify, .linkKeys, .peers, .plans, .forced, .change, .trace, .latches, .token, .log, .free, .rotState, .firmware, .allRegs, .tables, .rotOrders] : List Part)) := by
  refine ⟨_, rfl, only_start fun hL h0 => ?_⟩
  refine settle_only (names_of_subset (by simp)) ?_
  repeat' first
    | with_reducible first
      | exact h0
      | assumption
    | (refine names_trans hL ?_
       try simp only [keyTypes, Nat.reduceMod]
       decide)
    | (refine names_trans hL ?_
       refine names_trans (names_of_subset ?_) names_all_word
       simp
       done)
    | (refine names_trans hL ?_
       refine names_trans (names_of_subset ?_) names_all_regs
       simp
       done)
    | (refine names_trans hL ?_
       refine names_trans (names_of_subset ?_) names_all_hdr
       simp
       done)
    | with_reducible first
      | refine names_cons ?_ ?_
      | refine only_ite ?_ ?_
      | refine only_ite_snd ?_ ?_
      | refine only_ite_fst ?_ ?_
      | refine access_only (hL := ?_) (ho := ?_)
    | split
    | dsimp only

theorem execQpWrite_only (a : Access) (s : State) : ∃ st', execQpWrite a s = .next st' ∧ s.onlyChanges st' (([.out, .xfers, .lines, .inj, .allHdrs, .power, .bpwr, .cmds, .activity, .staged, .recs, .snap, .heldRecs, .host, .tap, .evts, .grid, .bcasts, .mbox, .probes, .pace, .clusters, .violations, .ports, .suspects, .gens, .spares, .regions, .geyser, .ringQ, .meas, .redNodes, .engines, .ftab, .kernels, .notices, .kats, .taint, .clock, .relock, .pps, .now, .tick, .tports, .svcNotices, .jobs, .waves, .snuff, .profiles, .watch] : List Part) ++ ([.redInputs, .cores, .rails, .snaps, .mirror, .replicas, .drift, .droops, .pkg, .rings, .sinter, .proxies, .chans, .links, .verify, .linkKeys, .peers, .plans, .forced, .change, .trace, .latches, .token, .log, .free, .rotState, .firmware, .allRegs, .tables, .rotOrders] : List Part)) := by
  refine ⟨_, rfl, only_start fun hL h0 => ?_⟩
  refine settle_only (names_of_subset (by simp)) ?_
  repeat' first
    | with_reducible first
      | exact h0
      | assumption
    | (refine names_trans hL ?_
       try simp only [keyTypes, Nat.reduceMod]
       decide)
    | (refine names_trans hL ?_
       refine names_trans (names_of_subset ?_) names_all_word
       simp
       done)
    | (refine names_trans hL ?_
       refine names_trans (names_of_subset ?_) names_all_regs
       simp
       done)
    | (refine names_trans hL ?_
       refine names_trans (names_of_subset ?_) names_all_hdr
       simp
       done)
    | with_reducible first
      | refine names_cons ?_ ?_
      | refine only_ite ?_ ?_
      | refine only_ite_snd ?_ ?_
      | refine only_ite_fst ?_ ?_
      | refine access_only (hL := ?_) (ho := ?_)
    | split
    | dsimp only

theorem execFtabWrite_only (a : Access) (s : State) : ∃ st', execFtabWrite a s = .next st' ∧ s.onlyChanges st' (([.out, .xfers, .lines, .inj, .allHdrs, .power, .bpwr, .cmds, .activity, .staged, .recs, .snap, .heldRecs, .host, .tap, .evts, .grid, .bcasts, .mbox, .probes, .pace, .clusters, .violations, .ports, .suspects, .gens, .spares, .regions, .geyser, .ringQ, .meas, .redNodes, .engines, .ftab, .kernels, .notices, .kats, .taint, .clock, .relock, .pps, .now, .tick, .tports, .svcNotices, .jobs, .waves, .snuff, .profiles, .watch] : List Part) ++ ([.redInputs, .cores, .rails, .snaps, .mirror, .replicas, .drift, .droops, .pkg, .rings, .sinter, .proxies, .chans, .links, .verify, .linkKeys, .peers, .plans, .forced, .change, .trace, .latches, .token, .log, .free, .rotState, .firmware, .allRegs, .tables, .rotOrders] : List Part)) := by
  refine ⟨_, rfl, only_start fun hL h0 => ?_⟩
  refine settle_only (names_of_subset (by simp)) ?_
  repeat' first
    | with_reducible first
      | exact h0
      | assumption
    | (refine names_trans hL ?_
       try simp only [keyTypes, Nat.reduceMod]
       decide)
    | (refine names_trans hL ?_
       refine names_trans (names_of_subset ?_) names_all_word
       simp
       done)
    | (refine names_trans hL ?_
       refine names_trans (names_of_subset ?_) names_all_regs
       simp
       done)
    | (refine names_trans hL ?_
       refine names_trans (names_of_subset ?_) names_all_hdr
       simp
       done)
    | with_reducible first
      | refine names_cons ?_ ?_
      | refine only_ite ?_ ?_
      | refine only_ite_snd ?_ ?_
      | refine only_ite_fst ?_ ?_
      | refine access_only (hL := ?_) (ho := ?_)
    | split
    | dsimp only

theorem execKernelWrite_only (a : Access) (s : State) : ∃ st', execKernelWrite a s = .next st' ∧ s.onlyChanges st' (([.out, .xfers, .lines, .inj, .allHdrs, .power, .bpwr, .cmds, .activity, .staged, .recs, .snap, .heldRecs, .host, .tap, .evts, .grid, .bcasts, .mbox, .probes, .pace, .clusters, .violations, .ports, .suspects, .gens, .spares, .regions, .geyser, .ringQ, .meas, .redNodes, .engines, .ftab, .kernels, .notices, .kats, .taint, .clock, .relock, .pps, .now, .tick, .tports, .svcNotices, .jobs, .waves, .snuff, .profiles, .watch] : List Part) ++ ([.redInputs, .cores, .rails, .snaps, .mirror, .replicas, .drift, .droops, .pkg, .rings, .sinter, .proxies, .chans, .links, .verify, .linkKeys, .peers, .plans, .forced, .change, .trace, .latches, .token, .log, .free, .rotState, .firmware, .allRegs, .tables, .rotOrders] : List Part)) := by
  refine ⟨_, rfl, only_start fun hL h0 => ?_⟩
  refine settle_only (names_of_subset (by simp)) ?_
  repeat' first
    | with_reducible first
      | exact h0
      | assumption
    | (refine names_trans hL ?_
       try simp only [keyTypes, Nat.reduceMod]
       decide)
    | (refine names_trans hL ?_
       refine names_trans (names_of_subset ?_) names_all_word
       simp
       done)
    | (refine names_trans hL ?_
       refine names_trans (names_of_subset ?_) names_all_regs
       simp
       done)
    | (refine names_trans hL ?_
       refine names_trans (names_of_subset ?_) names_all_hdr
       simp
       done)
    | with_reducible first
      | refine names_cons ?_ ?_
      | refine only_ite ?_ ?_
      | refine only_ite_snd ?_ ?_
      | refine only_ite_fst ?_ ?_
      | refine access_only (hL := ?_) (ho := ?_)
    | split
    | dsimp only

theorem execEpochBaseWrite_only (a : Access) (s : State) : ∃ st', execEpochBaseWrite a s = .next st' ∧ s.onlyChanges st' (([.out, .xfers, .lines, .inj, .allHdrs, .power, .bpwr, .cmds, .activity, .staged, .recs, .snap, .heldRecs, .host, .tap, .evts, .grid, .bcasts, .mbox, .probes, .pace, .clusters, .violations, .ports, .suspects, .gens, .spares, .regions, .geyser, .ringQ, .meas, .redNodes, .engines, .ftab, .kernels, .notices, .kats, .taint, .clock, .relock, .pps, .now, .tick, .tports, .svcNotices, .jobs, .waves, .snuff, .profiles, .watch] : List Part) ++ ([.redInputs, .cores, .rails, .snaps, .mirror, .replicas, .drift, .droops, .pkg, .rings, .sinter, .proxies, .chans, .links, .verify, .linkKeys, .peers, .plans, .forced, .change, .trace, .latches, .token, .log, .free, .rotState, .firmware, .allRegs, .tables, .rotOrders] : List Part)) := by
  refine ⟨_, rfl, only_start fun hL h0 => ?_⟩
  refine settle_only (names_of_subset (by simp)) ?_
  repeat' first
    | with_reducible first
      | exact h0
      | assumption
    | (refine names_trans hL ?_
       try simp only [keyTypes, Nat.reduceMod]
       decide)
    | (refine names_trans hL ?_
       refine names_trans (names_of_subset ?_) names_all_word
       simp
       done)
    | (refine names_trans hL ?_
       refine names_trans (names_of_subset ?_) names_all_regs
       simp
       done)
    | (refine names_trans hL ?_
       refine names_trans (names_of_subset ?_) names_all_hdr
       simp
       done)
    | with_reducible first
      | refine names_cons ?_ ?_
      | refine only_ite ?_ ?_
      | refine only_ite_snd ?_ ?_
      | refine only_ite_fst ?_ ?_
      | refine access_only (hL := ?_) (ho := ?_)
    | split
    | dsimp only

theorem execRefclkWrite_only (a : Access) (s : State) : ∃ st', execRefclkWrite a s = .next st' ∧ s.onlyChanges st' (([.out, .xfers, .lines, .inj, .allHdrs, .power, .bpwr, .cmds, .activity, .staged, .recs, .snap, .heldRecs, .host, .tap, .evts, .grid, .bcasts, .mbox, .probes, .pace, .clusters, .violations, .ports, .suspects, .gens, .spares, .regions, .geyser, .ringQ, .meas, .redNodes, .engines, .ftab, .kernels, .notices, .kats, .taint, .clock, .relock, .pps, .now, .tick, .tports, .svcNotices, .jobs, .waves, .snuff, .profiles, .watch] : List Part) ++ ([.redInputs, .cores, .rails, .snaps, .mirror, .replicas, .drift, .droops, .pkg, .rings, .sinter, .proxies, .chans, .links, .verify, .linkKeys, .peers, .plans, .forced, .change, .trace, .latches, .token, .log, .free, .rotState, .firmware, .allRegs, .tables, .rotOrders] : List Part)) := by
  refine ⟨_, rfl, only_start fun hL h0 => ?_⟩
  refine settle_only (names_of_subset (by simp)) ?_
  repeat' first
    | with_reducible first
      | exact h0
      | assumption
    | (refine names_trans hL ?_
       try simp only [keyTypes, Nat.reduceMod]
       decide)
    | (refine names_trans hL ?_
       refine names_trans (names_of_subset ?_) names_all_word
       simp
       done)
    | (refine names_trans hL ?_
       refine names_trans (names_of_subset ?_) names_all_regs
       simp
       done)
    | (refine names_trans hL ?_
       refine names_trans (names_of_subset ?_) names_all_hdr
       simp
       done)
    | with_reducible first
      | refine names_cons ?_ ?_
      | refine only_ite ?_ ?_
      | refine only_ite_snd ?_ ?_
      | refine only_ite_fst ?_ ?_
      | refine access_only (hL := ?_) (ho := ?_)
    | split
    | dsimp only

theorem execLogCapture_only (a : Access) (s : State) : ∃ st', execLogCapture a s = .next st' ∧ s.onlyChanges st' (([.out, .xfers, .lines, .inj, .allHdrs, .power, .bpwr, .cmds, .activity, .staged, .recs, .snap, .heldRecs, .host, .tap, .evts, .grid, .bcasts, .mbox, .probes, .pace, .clusters, .violations, .ports, .suspects, .gens, .spares, .regions, .geyser, .ringQ, .meas, .redNodes, .engines, .ftab, .kernels, .notices, .kats, .taint, .clock, .relock, .pps, .now, .tick, .tports, .svcNotices, .jobs, .waves, .snuff, .profiles, .watch] : List Part) ++ ([.redInputs, .cores, .rails, .snaps, .mirror, .replicas, .drift, .droops, .pkg, .rings, .sinter, .proxies, .chans, .links, .verify, .linkKeys, .peers, .plans, .forced, .change, .trace, .latches, .token, .log, .free, .rotState, .firmware, .allRegs, .tables, .rotOrders] : List Part)) := by
  refine ⟨_, rfl, only_start fun hL h0 => ?_⟩
  refine settle_only (names_of_subset (by simp)) ?_
  repeat' first
    | with_reducible first
      | exact h0
      | assumption
    | (refine names_trans hL ?_
       try simp only [keyTypes, Nat.reduceMod]
       decide)
    | (refine names_trans hL ?_
       refine names_trans (names_of_subset ?_) names_all_word
       simp
       done)
    | (refine names_trans hL ?_
       refine names_trans (names_of_subset ?_) names_all_regs
       simp
       done)
    | (refine names_trans hL ?_
       refine names_trans (names_of_subset ?_) names_all_hdr
       simp
       done)
    | with_reducible first
      | refine names_cons ?_ ?_
      | refine only_ite ?_ ?_
      | refine only_ite_snd ?_ ?_
      | refine only_ite_fst ?_ ?_
      | refine access_only (hL := ?_) (ho := ?_)
    | split
    | dsimp only

theorem execPaceHstoWrite_only (a : Access) (s : State) : ∃ st', execPaceHstoWrite a s = .next st' ∧ s.onlyChanges st' (([.out, .xfers, .lines, .inj, .allHdrs, .power, .bpwr, .cmds, .activity, .staged, .recs, .snap, .heldRecs, .host, .tap, .evts, .grid, .bcasts, .mbox, .probes, .pace, .clusters, .violations, .ports, .suspects, .gens, .spares, .regions, .geyser, .ringQ, .meas, .redNodes, .engines, .ftab, .kernels, .notices, .kats, .taint, .clock, .relock, .pps, .now, .tick, .tports, .svcNotices, .jobs, .waves, .snuff, .profiles, .watch] : List Part) ++ ([.redInputs, .cores, .rails, .snaps, .mirror, .replicas, .drift, .droops, .pkg, .rings, .sinter, .proxies, .chans, .links, .verify, .linkKeys, .peers, .plans, .forced, .change, .trace, .latches, .token, .log, .free, .rotState, .firmware, .allRegs, .tables, .rotOrders] : List Part)) := by
  refine ⟨_, rfl, only_start fun hL h0 => ?_⟩
  refine settle_only (names_of_subset (by simp)) ?_
  repeat' first
    | with_reducible first
      | exact h0
      | assumption
    | (refine names_trans hL ?_
       try simp only [keyTypes, Nat.reduceMod]
       decide)
    | (refine names_trans hL ?_
       refine names_trans (names_of_subset ?_) names_all_word
       simp
       done)
    | (refine names_trans hL ?_
       refine names_trans (names_of_subset ?_) names_all_regs
       simp
       done)
    | (refine names_trans hL ?_
       refine names_trans (names_of_subset ?_) names_all_hdr
       simp
       done)
    | with_reducible first
      | refine names_cons ?_ ?_
      | refine only_ite ?_ ?_
      | refine only_ite_snd ?_ ?_
      | refine only_ite_fst ?_ ?_
      | refine access_only (hL := ?_) (ho := ?_)
    | split
    | dsimp only

theorem execPackageWindowRequest_only (a : Access) (s : State) : ∃ st', execPackageWindowRequest a s = .next st' ∧ s.onlyChanges st' (([.out, .xfers, .lines, .inj, .allHdrs, .power, .bpwr, .cmds, .activity, .staged, .recs, .snap, .heldRecs, .host, .tap, .evts, .grid, .bcasts, .mbox, .probes, .pace, .clusters, .violations, .ports, .suspects, .gens, .spares, .regions, .geyser, .ringQ, .meas, .redNodes, .engines, .ftab, .kernels, .notices, .kats, .taint, .clock, .relock, .pps, .now, .tick, .tports, .svcNotices, .jobs, .waves, .snuff, .profiles, .watch] : List Part) ++ ([.redInputs, .cores, .rails, .snaps, .mirror, .replicas, .drift, .droops, .pkg, .rings, .sinter, .proxies, .chans, .links, .verify, .linkKeys, .peers, .plans, .forced, .change, .trace, .latches, .token, .log, .free, .rotState, .firmware, .allRegs, .tables, .rotOrders] : List Part)) := by
  refine ⟨_, rfl, only_start fun hL h0 => ?_⟩
  refine settle_only (names_of_subset (by simp)) ?_
  repeat' first
    | with_reducible first
      | exact h0
      | assumption
    | (refine names_trans hL ?_
       try simp only [keyTypes, Nat.reduceMod]
       decide)
    | (refine names_trans hL ?_
       refine names_trans (names_of_subset ?_) names_all_word
       simp
       done)
    | (refine names_trans hL ?_
       refine names_trans (names_of_subset ?_) names_all_regs
       simp
       done)
    | (refine names_trans hL ?_
       refine names_trans (names_of_subset ?_) names_all_hdr
       simp
       done)
    | with_reducible first
      | refine names_cons ?_ ?_
      | refine only_ite ?_ ?_
      | refine only_ite_snd ?_ ?_
      | refine only_ite_fst ?_ ?_
      | refine access_only (hL := ?_) (ho := ?_)
    | split
    | dsimp only

theorem execRotCtrlReset_only (a : Access) (s : State) : ∃ st', execRotCtrlReset a s = .next st' ∧ s.onlyChanges st' (([.out, .xfers, .lines, .inj, .allHdrs, .power, .bpwr, .cmds, .activity, .staged, .recs, .snap, .heldRecs, .host, .tap, .evts, .grid, .bcasts, .mbox, .probes, .pace, .clusters, .violations, .ports, .suspects, .gens, .spares, .regions, .geyser, .ringQ, .meas, .redNodes, .engines, .ftab, .kernels, .notices, .kats, .taint, .clock, .relock, .pps, .now, .tick, .tports, .svcNotices, .jobs, .waves, .snuff, .profiles, .watch] : List Part) ++ ([.redInputs, .cores, .rails, .snaps, .mirror, .replicas, .drift, .droops, .pkg, .rings, .sinter, .proxies, .chans, .links, .verify, .linkKeys, .peers, .plans, .forced, .change, .trace, .latches, .token, .log, .free, .rotState, .firmware, .allRegs, .tables, .rotOrders] : List Part)) := by
  refine ⟨_, rfl, only_start fun hL h0 => ?_⟩
  refine settle_only (names_of_subset (by simp)) ?_
  repeat' first
    | with_reducible first
      | exact h0
      | assumption
    | (refine names_trans hL ?_
       try simp only [keyTypes, Nat.reduceMod]
       decide)
    | (refine names_trans hL ?_
       refine names_trans (names_of_subset ?_) names_all_word
       simp
       done)
    | (refine names_trans hL ?_
       refine names_trans (names_of_subset ?_) names_all_regs
       simp
       done)
    | (refine names_trans hL ?_
       refine names_trans (names_of_subset ?_) names_all_hdr
       simp
       done)
    | with_reducible first
      | refine names_cons ?_ ?_
      | refine only_ite ?_ ?_
      | refine only_ite_snd ?_ ?_
      | refine only_ite_fst ?_ ?_
      | refine access_only (hL := ?_) (ho := ?_)
    | split
    | dsimp only

theorem execGuardExpire_only (page : Nat) (s : State) : ∃ st', execGuardExpire page s = .next st' ∧ s.onlyChanges st' [.out, .xfers, .lines, .inj, .staged, .recs, .hdr 0x58, .hdr (keyType page)] := by
  refine ⟨_, rfl, only_start fun hL h0 => ?_⟩
  refine settle_only (names_of_subset (by simp)) ?_
  repeat' first
    | with_reducible first
      | exact h0
      | assumption
    | (refine names_trans hL ?_
       try simp only [keyTypes, Nat.reduceMod]
       refine names_of_subset ?_
       simp
       done)
    | with_reducible first
      | refine names_cons ?_ ?_
      | refine only_ite ?_ ?_
      | refine only_ite_snd ?_ ?_
      | refine only_ite_fst ?_ ?_
      | refine latchDrop_only (hL := ?_) (ho := ?_)
    | split
    | dsimp only

theorem execProxyReq_only (port : Nat) (src tag : BitVec 16) (addr : BitVec 24) (wr : Bool) (data : Word) (priv : BitVec 2) (rid : Byte)
    (job : BitVec 16) (s : State) : ∃ st', execProxyReq port src tag addr wr data priv rid job s = .next st' ∧ s.onlyChanges st' (([.out, .xfers, .lines, .inj, .allHdrs, .power, .bpwr, .cmds, .activity, .staged, .recs, .snap, .heldRecs, .host, .tap, .evts, .grid, .bcasts, .mbox, .probes, .pace, .clusters, .violations, .ports, .suspects, .gens, .spares, .regions, .geyser, .ringQ, .meas, .redNodes, .engines, .ftab, .kernels, .notices, .kats, .taint, .clock, .relock, .pps, .now, .tick, .tports, .svcNotices, .jobs, .waves, .snuff, .profiles, .watch] : List Part) ++ ([.redInputs, .cores, .rails, .snaps, .mirror, .replicas, .drift, .droops, .pkg, .rings, .sinter, .proxies, .chans, .links, .verify, .linkKeys, .peers, .plans, .forced, .change, .trace, .latches, .token, .log, .free, .rotState, .firmware, .allRegs, .tables, .rotOrders] : List Part)) := by
  refine ⟨_, rfl, only_start fun hL h0 => ?_⟩
  refine settle_only (names_of_subset (by simp)) ?_
  repeat' first
    | with_reducible first
      | exact h0
      | assumption
    | (refine names_trans hL ?_
       try simp only [keyTypes, Nat.reduceMod]
       decide)
    | (refine names_trans hL ?_
       refine names_trans (names_of_subset ?_) names_all_word
       simp
       done)
    | (refine names_trans hL ?_
       refine names_trans (names_of_subset ?_) names_all_regs
       simp
       done)
    | (refine names_trans hL ?_
       refine names_trans (names_of_subset ?_) names_all_hdr
       simp
       done)
    | with_reducible first
      | refine names_cons ?_ ?_
      | refine only_ite ?_ ?_
      | refine only_ite_snd ?_ ?_
      | refine only_ite_fst ?_ ?_
      | refine serve_only (hL := ?_) (ho := ?_)
      | refine proxyRsp_only (hL := ?_) (ho := ?_)
    | split
    | dsimp only
    | with_reducible refine only_of_pair (by assumption) ?_

theorem execKxAccess_only (dr : BitVec 60) (s : State) : ∃ st', execKxAccess dr s = .next st' ∧ s.onlyChanges st' (([.out, .xfers, .lines, .inj, .allHdrs, .power, .bpwr, .cmds, .activity, .staged, .recs, .snap, .heldRecs, .host, .tap, .evts, .grid, .bcasts, .mbox, .probes, .pace, .clusters, .violations, .ports, .suspects, .gens, .spares, .regions, .geyser, .ringQ, .meas, .redNodes, .engines, .ftab, .kernels, .notices, .kats, .taint, .clock, .relock, .pps, .now, .tick, .tports, .svcNotices, .jobs, .waves, .snuff, .profiles, .watch] : List Part) ++ ([.redInputs, .cores, .rails, .snaps, .mirror, .replicas, .drift, .droops, .pkg, .rings, .sinter, .proxies, .chans, .links, .verify, .linkKeys, .peers, .plans, .forced, .change, .trace, .latches, .token, .log, .free, .rotState, .firmware, .allRegs, .tables, .rotOrders] : List Part)) := by
  refine ⟨_, rfl, only_start fun hL h0 => ?_⟩
  refine settle_only (names_of_subset (by simp)) ?_
  repeat' first
    | with_reducible first
      | exact h0
      | assumption
    | (refine names_trans hL ?_
       try simp only [keyTypes, Nat.reduceMod]
       decide)
    | (refine names_trans hL ?_
       refine names_trans (names_of_subset ?_) names_all_word
       simp
       done)
    | (refine names_trans hL ?_
       refine names_trans (names_of_subset ?_) names_all_regs
       simp
       done)
    | (refine names_trans hL ?_
       refine names_trans (names_of_subset ?_) names_all_hdr
       simp
       done)
    | with_reducible first
      | refine names_cons ?_ ?_
      | refine only_ite ?_ ?_
      | refine only_ite_snd ?_ ?_
      | refine only_ite_fst ?_ ?_
      | refine kxAccess_only (hL := ?_) (ho := ?_)
    | split
    | dsimp only

theorem execRegAccess_only (m : SpdmIn) (entries : List RegEntry) (s : State) : ∃ st', execRegAccess m entries s = .next st' ∧ s.onlyChanges st' (([.out, .xfers, .lines, .inj, .spdm, .cmds, .allHdrs, .staged, .recs, .snap, .heldRecs, .power, .bpwr, .activity, .host, .tap, .evts, .grid, .bcasts, .mbox, .probes, .pace, .clusters, .violations, .ports, .suspects, .gens, .spares, .regions, .geyser, .ringQ, .meas, .redNodes, .engines, .ftab, .kernels, .notices, .kats, .taint, .clock, .relock, .pps, .now, .tick, .tports, .svcNotices, .jobs, .waves, .snuff, .profiles] : List Part) ++ ([.watch, .redInputs, .cores, .rails, .snaps, .mirror, .replicas, .drift, .droops, .pkg, .rings, .sinter, .proxies, .chans, .links, .verify, .linkKeys, .peers, .plans, .forced, .change, .trace, .latches, .token, .log, .free, .rotState, .firmware, .allRegs, .tables, .rotOrders] : List Part)) := by
  refine ⟨_, rfl, only_start fun hL h0 => ?_⟩
  refine settle_only (names_of_subset (by simp)) ?_
  repeat' first
    | with_reducible first
      | exact h0
      | assumption
    | (refine names_trans hL ?_
       try simp only [keyTypes, Nat.reduceMod]
       decide)
    | (refine names_trans hL ?_
       refine names_trans (names_of_subset ?_) names_all_word
       simp
       done)
    | (refine names_trans hL ?_
       refine names_trans (names_of_subset ?_) names_all_regs
       simp
       done)
    | (refine names_trans hL ?_
       refine names_trans (names_of_subset ?_) names_all_hdr
       simp
       done)
    | with_reducible first
      | refine names_cons ?_ ?_
      | refine only_ite ?_ ?_
      | refine only_ite_snd ?_ ?_
      | refine only_ite_fst ?_ ?_
      | refine vendorTake_only (hL := ?_) (h_act := fun u hu => ?_) (ho := ?_)
      | refine spdmError_only (hL := ?_) (ho := ?_)
      | refine regEntry_only (hL := ?_) (ho := ?_)
      | refine vendorSend_only (hL := ?_) (ho := ?_)
      | refine only_foldl (fun u x hu => ?_) ?_
      | refine only_foldl_snd (fun u x hu => ?_) ?_
      | refine only_foldl_fst (fun u x hu => ?_) ?_
    | split
    | dsimp only

/-! Tick -/

theorem estimate_only {s : State} {r v t : Nat} (hL : names L [.free] = true) 
    (ho : s0.onlyChanges s L) : s0.onlyChanges (State.estimate s r v t).2 L := by
  unfold State.estimate
  try dsimp only
  repeat' first
    | with_reducible assumption
    | (refine names_trans hL ?_
       try simp only [keyTypes, Nat.reduceMod]
       decide)
    | with_reducible first
      | refine names_cons ?_ ?_
      | refine only_ite ?_ ?_
      | refine only_ite_snd ?_ ?_
      | refine only_ite_fst ?_ ?_
      | refine draw_only (hL := ?_) (ho := ?_)
    | split
    | dsimp only

theorem ringTick_only {s : State} {rings : List (Nat × Nat)} (hL : names L [.regs 0x02, .free] = true) 
    (ho : s0.onlyChanges s L) : s0.onlyChanges (State.ringTick s rings) L := by
  unfold State.ringTick
  try dsimp only
  repeat' first
    | with_reducible assumption
    | (refine names_trans hL ?_
       try simp only [keyTypes, Nat.reduceMod]
       decide)
    | (refine names_trans hL ?_
       try simp only [keyTypes, Nat.reduceMod]
       refine names_trans (names_of_subset ?_) names_regs_word
       simp
       done)
    | with_reducible first
      | refine names_cons ?_ ?_
      | refine only_ite ?_ ?_
      | refine only_ite_snd ?_ ?_
      | refine only_ite_fst ?_ ?_
      | refine setReg_only (hL := ?_) (h := ?_)
      | refine estimate_only (hL := ?_) (ho := ?_)
      | refine only_foldl (fun u x hu => ?_) ?_
      | refine only_foldl_snd (fun u x hu => ?_) ?_
      | refine only_foldl_fst (fun u x hu => ?_) ?_
    | split
    | dsimp only

theorem clockTick_only {s : State} {clocks : List Nat} (hL : names L [.regs 0x02] = true) 
    (ho : s0.onlyChanges s L) : s0.onlyChanges (State.clockTick s clocks) L := by
  unfold State.clockTick
  try dsimp only
  repeat' first
    | with_reducible assumption
    | (refine names_trans hL ?_
       try simp only [keyTypes, Nat.reduceMod]
       decide)
    | (refine names_trans hL ?_
       try simp only [keyTypes, Nat.reduceMod]
       refine names_trans (names_of_subset ?_) names_regs_word
       simp
       done)
    | with_reducible first
      | refine names_cons ?_ ?_
      | refine only_ite ?_ ?_
      | refine only_ite_snd ?_ ?_
      | refine only_ite_fst ?_ ?_
      | refine setRegFld_only (hL := ?_) (ho := ?_)
      | refine paceFault_only (hL := ?_) (ho := ?_)
      | refine only_foldl (fun u x hu => ?_) ?_
      | refine only_foldl_snd (fun u x hu => ?_) ?_
      | refine only_foldl_fst (fun u x hu => ?_) ?_
    | split
    | dsimp only

theorem shadows_only {s : State} (hL : names L [.word 0x28 0x58, .word 0x92 0x48, .word 0x58 0x80] = true) 
    (ho : s0.onlyChanges s L) : s0.onlyChanges (State.shadows s) L := by
  unfold State.shadows
  try dsimp only
  repeat' first
    | with_reducible assumption
    | (refine names_trans hL ?_
       try simp only [keyTypes, Nat.reduceMod]
       decide)
    | with_reducible first
      | refine names_cons ?_ ?_
      | refine only_ite ?_ ?_
      | refine only_ite_snd ?_ ?_
      | refine only_ite_fst ?_ ?_
      | refine setReg_only (hL := ?_) (h := ?_)
    | split
    | dsimp only

theorem guardTick_only {s : State} (hL : names L [.allHdrs] = true) 
    (ho : s0.onlyChanges s L) : s0.onlyChanges (State.guardTick s) L := by
  unfold State.guardTick
  try dsimp only
  repeat' first
    | with_reducible assumption
    | (refine names_trans hL ?_
       try simp only [keyTypes, Nat.reduceMod]
       decide)
    | (refine names_trans hL ?_
       refine names_trans (names_of_subset ?_) names_all_hdr
       simp
       done)
    | with_reducible first
      | refine names_cons ?_ ?_
      | refine only_ite ?_ ?_
      | refine only_ite_snd ?_ ?_
      | refine only_ite_fst ?_ ?_
    | split
    | (with_reducible refine only_mk (z := [.allHdrs]) hL ?_ ?_
       · intro p hp
         cases p <;> first | (dsimp only [Part.same]; done) | (dsimp only [Part.same, State.reg, State.hdr]; intro _ _; with_reducible rfl) | exact not_free (free_of_outside hp) (by decide) | exact not_free (free_of_outside hp) rfl | exact trivial | (dsimp only [Part.same]; split <;> rfl))
    | dsimp only

theorem lineTick_only {s : State} (hL : names L [.lines] = true) 
    (ho : s0.onlyChanges s L) : s0.onlyChanges (State.lineTick s) L := by
  unfold State.lineTick
  try dsimp only
  repeat' first
    | with_reducible assumption
    | (refine names_trans hL ?_
       try simp only [keyTypes, Nat.reduceMod]
       decide)
    | with_reducible first
      | refine names_cons ?_ ?_
      | refine only_ite ?_ ?_
      | refine only_ite_snd ?_ ?_
      | refine only_ite_fst ?_ ?_
    | split
    | (with_reducible refine only_pages (z := [.lines]) ?_ ?_ ?_ ?_ ?_ ?_ ?_ ?_ ?_ ?_
       · refine names_trans hL ?_
         first | decide | (refine names_of_subset ?_; simp; done)
       iterate 8 · first | with_reducible rfl | (intro _; with_reducible rfl) | exact fun h => not_free h rfl | (intro _; dsimp only; split <;> rfl) | exact rfl | exact fun _ => rfl)
    | dsimp only

theorem hubTick_only {s : State} {m : TickIn} (hL : names L [.regs 0x02, .free, .ports, .bcasts, .relock, .hdr 0x18, .links, .pkg, .pace, .host, .probes, .trace, .hdr 0x60, .token, .gens, .mirror, .mbox, .forced, .change, .hdr 0x48, .out, .staged, .recs, .hdr 0x58, .rails, .sensors, .droops, .inj, .word 0x48 0x70, .word 0x28 0x58, .word 0x92 0x48, .word 0x58 0x80, .cmds, .chans, .xfers, .hdr 0x68, .rotState, .firmware, .meas, .rotOrders] = true) 
    (ho : s0.onlyChanges s L) : s0.onlyChanges (State.hubTick s m) L := by
  unfold State.hubTick
  try dsimp only
  repeat' first
    | with_reducible assumption
    | (refine names_trans hL ?_
       try simp only [keyTypes, Nat.reduceMod]
       decide)
    | (refine names_trans hL ?_
       try simp only [keyTypes, Nat.reduceMod]
       refine names_trans (names_of_subset ?_) names_regs_word
       simp
       done)
    | with_reducible first
      | refine names_cons ?_ ?_
      | refine only_ite ?_ ?_
      | refine only_ite_snd ?_ ?_
      | refine only_ite_fst ?_ ?_
      | refine ringTick_only (hL := ?_) (ho := ?_)
      | refine clockTick_only (hL := ?_) (ho := ?_)
      | refine linkTick_only (hL := ?_) (ho := ?_)
      | refine relockReport_only (hL := ?_) (ho := ?_)
      | refine quarantineLost_only (hL := ?_) (ho := ?_)
      | refine headTick_only (hL := ?_) (ho := ?_)
      | refine watchTick_only (hL := ?_) (ho := ?_)
      | refine traceTick_only (hL := ?_) (ho := ?_)
      | refine mirrorTick_only (hL := ?_) (ho := ?_)
      | refine bcastDelayed_only (hL := ?_) (ho := ?_)
      | refine alertTick_only (hL := ?_) (ho := ?_)
      | refine hpTick_only (hL := ?_) (ho := ?_)
      | refine shadows_only (hL := ?_) (ho := ?_)
      | refine swapCheck_only (hL := ?_) (ho := ?_)
      | refine hostTick_only (hL := ?_) (ho := ?_)
      | refine commitTick_only (hL := ?_) (ho := ?_)
    | split
    | dsimp only

theorem rsTick_only {s : State} (hL : names L [.sensors, .bpwr] = true) 
    (ho : s0.onlyChanges s L) : s0.onlyChanges (State.rsTick s) L := by
  unfold State.rsTick
  try dsimp only
  repeat' first
    | with_reducible assumption
    | (refine names_trans hL ?_
       try simp only [keyTypes, Nat.reduceMod]
       decide)
    | with_reducible first
      | refine names_cons ?_ ?_
      | refine only_ite ?_ ?_
      | refine only_ite_snd ?_ ?_
      | refine only_ite_fst ?_ ?_
    | split
    | (with_reducible refine modHp_only (z := [.sensors]) ?_ ?_ ?_ ?_ ?_ ?_ ?_ ?_ ?_ ?_ ?_
       · refine names_trans hL ?_
         first | decide | (refine names_of_subset ?_; simp; done)
       iterate 9 · first | with_reducible rfl | (intro _; with_reducible rfl) | exact fun h => not_free h rfl | (intro _; dsimp only; split <;> rfl) | exact rfl | exact fun _ => rfl)
    | (with_reducible refine modBpwr_only (z := [.bpwr]) ?_ ?_ ?_ ?_ ?_
       · refine names_trans hL ?_
         first | decide | (refine names_of_subset ?_; simp; done)
       iterate 3 · first | with_reducible rfl | (intro _; with_reducible rfl) | exact fun h => not_free h rfl | (intro _; dsimp only; split <;> rfl) | exact rfl | exact fun _ => rfl)
    | dsimp only

theorem resourceServe_only {s : State} (hL : names L (([.out, .xfers, .lines, .inj, .cmds, .power, .bpwr, .word 0x50 0x54, .activity, .host, .tap, .regs 0x08, .hdr 0x08, .evts, .grid, .bcasts, .word 0x40 0x50, .hdr 0x40, .mbox, .hdr 0x10, .probes, .hdr 0x50, .word 0x50 0x5C, .pace, .clusters, .staged, .recs, .hdr 0x58, .regs 0x93, .regs 0x91, .regs 0x38, .violations, .ports, .suspects, .hdr 0x28, .hdr 0x12, .gens, .spares, .regions, .geyser, .ringQ, .hdr 0x18, .meas, .redNodes, .hdr 0x20, .engines, .word 0x20 0x5C, .hdr 0x21, .ftab, .kernels] : List Part) ++ ([.notices, .word 0x28 0xC4, .kats, .taint, .clock, .relock, .pps, .now, .tick, .tports, .word 0x40 0x6C, .svcNotices, .jobs, .waves, .snuff, .hdr 0x61, .word 0x02 0x58, .profiles, .snap, .heldRecs, .watch, .word 0x28 0x98, .redInputs, .cores, .rails, .word 0x20 0x54, .snaps, .mirror, .replicas, .drift, .hdr 0x48, .droops, .pkg, .rings, .hdr 0x30, .sinter, .proxies, .chans, .links, .hdr 0x93, .hdr 0x91, .hdr 0x38, .verify, .linkKeys, .peers, .plans, .word 0x48 0x50, .word 0x48 0x4C, .word 0x48 0x48, .forced] : List Part) ++ ([.change, .trace, .hdr 0x60, .regs 0x60, .latches, .token, .log, .regs 0x39, .hdr 0x39, .free, .rotState, .firmware, .regs 0x18] : List Part)) = true) 
    (ho : s0.onlyChanges s L) : s0.onlyChanges (State.resourceServe s) L := by
  unfold State.resourceServe
  try dsimp only
  repeat' first
    | with_reducible assumption
    | (refine names_trans hL ?_
       try simp only [keyTypes, Nat.reduceMod]
       decide)
    | (refine names_trans hL ?_
       try simp only [keyTypes, Nat.reduceMod]
       refine names_trans (names_of_subset ?_) names_regs_word
       simp
       done)
    | (refine names_trans hL ?_
       refine names_trans (names_of_subset ?_) names_port_word
       simp
       done)
    | (refine names_trans hL ?_
       refine names_trans (names_of_subset ?_) names_port_hdr
       simp
       done)
    | with_reducible first
      | refine names_cons ?_ ?_
      | refine only_ite ?_ ?_
      | refine only_ite_snd ?_ ?_
      | refine only_ite_fst ?_ ?_
      | refine commandGoesOn_only (hL := ?_) (ho := ?_)
      | refine only_foldl (fun u x hu => ?_) ?_
      | refine only_foldl_snd (fun u x hu => ?_) ?_
      | refine only_foldl_fst (fun u x hu => ?_) ?_
    | split
    | dsimp only

theorem execSlowTick_only (m : TickIn) (s : State) : ∃ st', execSlowTick m s = .next st' ∧ s.onlyChanges st' (([.out, .xfers, .lines, .inj, .now, .tick, .ticks, .clock, .pps, .free, .ports, .bcasts, .relock, .links, .pkg, .pace, .host, .probes, .trace, .token, .gens, .mirror, .mbox, .forced, .change, .staged, .recs, .rails, .sensors, .droops, .cmds, .chans, .rotState, .firmware, .meas, .rotOrders, .board, .power, .bpwr, .activity, .tap, .proxies, .violations, .suspects, .spares, .linkKeys, .peers, .sinter, .tports, .evts] : List Part) ++ ([.snuff, .plans, .redNodes, .clusters, .watch, .jobs, .verify, .ringQ, .svcNotices, .grid, .regions, .geyser, .engines, .ftab, .kernels, .notices, .kats, .taint, .waves, .profiles, .snap, .heldRecs, .redInputs, .cores, .snaps, .replicas, .drift, .rings, .latches, .log, .allHdrs, .allRegs] : List Part)) := by
  refine ⟨_, rfl, only_start fun hL h0 => ?_⟩
  refine settle_only (names_of_subset (by simp)) ?_
  repeat' first
    | with_reducible first
      | exact h0
      | assumption
    | (refine names_trans hL ?_
       try simp only [keyTypes, Nat.reduceMod]
       decide)
    | (refine names_trans hL ?_
       refine names_trans (names_of_subset ?_) names_all_word
       simp
       done)
    | (refine names_trans hL ?_
       refine names_trans (names_of_subset ?_) names_all_regs
       simp
       done)
    | (refine names_trans hL ?_
       refine names_trans (names_of_subset ?_) names_all_hdr
       simp
       done)
    | with_reducible first
      | refine names_cons ?_ ?_
      | refine only_ite ?_ ?_
      | refine only_ite_snd ?_ ?_
      | refine only_ite_fst ?_ ?_
      | refine timeTick_only (hL := ?_) (ho := ?_)
      | refine hubTick_only (hL := ?_) (ho := ?_)
      | refine boardTick_only (hL := ?_) (ho := ?_)
      | refine tripTick_only (hL := ?_) (ho := ?_)
      | refine settleLink_only (hL := ?_) (ho := ?_)
      | refine resourceServe_only (hL := ?_) (ho := ?_)
      | refine idleTick_only (hL := ?_) (ho := ?_)
      | refine aonCopy_only (hL := ?_) (ho := ?_)
      | refine lineTick_only (hL := ?_) (ho := ?_)
      | refine guardTick_only (hL := ?_) (ho := ?_)
      | refine rsTick_only (hL := ?_) (ho := ?_)
      | refine setReg_only (hL := ?_) (h := ?_)
      | refine only_foldl (fun u x hu => ?_) ?_
      | refine only_foldl_snd (fun u x hu => ?_) ?_
      | refine only_foldl_fst (fun u x hu => ?_) ?_
    | split
    | (with_reducible refine only_now (z := [.now]) ?_ ?_ ?_
       · refine names_trans hL ?_
         first | decide | (refine names_of_subset ?_; simp; done)
       iterate 1 · first | with_reducible rfl | (intro _; with_reducible rfl) | exact fun h => not_free h rfl | (intro _; dsimp only; split <;> rfl) | exact rfl | exact fun _ => rfl)
    | (with_reducible refine only_tick (z := [.tick]) ?_ ?_ ?_
       · refine names_trans hL ?_
         first | decide | (refine names_of_subset ?_; simp; done)
       iterate 1 · first | with_reducible rfl | (intro _; with_reducible rfl) | exact fun h => not_free h rfl | (intro _; dsimp only; split <;> rfl) | exact rfl | exact fun _ => rfl)
    | (with_reducible refine only_ticks (z := [.ticks]) ?_ ?_ ?_
       · refine names_trans hL ?_
         first | decide | (refine names_of_subset ?_; simp; done)
       iterate 1 · first | with_reducible rfl | (intro _; with_reducible rfl) | exact fun h => not_free h rfl | (intro _; dsimp only; split <;> rfl) | exact rfl | exact fun _ => rfl)
    | (with_reducible refine only_mk (z := (([.out, .xfers, .lines, .inj, .now, .tick, .ticks, .clock, .pps, .free, .ports, .bcasts, .relock, .links, .pkg, .pace, .host, .probes, .trace, .token, .gens, .mirror, .mbox, .forced, .change, .staged, .recs, .rails, .sensors, .droops, .cmds, .chans, .rotState, .firmware, .meas, .rotOrders, .board, .power, .bpwr, .activity, .tap, .proxies, .violations, .suspects, .spares, .linkKeys, .peers, .sinter, .tports, .evts] : List Part) ++ ([.snuff, .plans, .redNodes, .clusters, .watch, .jobs, .verify, .ringQ, .svcNotices, .grid, .regions, .geyser, .engines, .ftab, .kernels, .notices, .kats, .taint, .waves, .profiles, .snap, .heldRecs, .redInputs, .cores, .snaps, .replicas, .drift, .rings, .latches, .log, .allHdrs, .allRegs] : List Part))) hL ?_ ?_
       · intro p hp
         cases p <;> first | (dsimp only [Part.same]; done) | (dsimp only [Part.same, State.reg, State.hdr]; intro _ _; with_reducible rfl) | exact not_free (free_of_outside hp) (by decide) | exact not_free (free_of_outside hp) rfl | exact trivial | (dsimp only [Part.same]; split <;> rfl))
    | dsimp only

end Sys2Proof.Machine
end

