-- ==== Sys2Proof/Tests/Slice0.lean ====
section
/-!
SUPPORT. Tests: each check of WellFormed refuses an ill-formed command; witnesses that the hypotheses of the statements can be met;
and small steps with values taken from the manual.
-/
open Sys2Proof Sys2Proof.Machine

/-! ### Each check refuses an ill-formed command -/

theorem test_wf_probe : (Instr.counterReset 8192).wf = false ∧ (Instr.counterReset 8191).wf = true := by decide
theorem test_wf_cluster : (Instr.concCommit 256).wf = false ∧ (Instr.concCommit 255).wf = true := by decide
theorem test_wf_region : (Instr.regionConcFail 16).wf = false ∧ (Instr.regionConcFail 15).wf = true := by decide
theorem test_wf_slot : (Instr.partialAck 256 0).wf = false ∧ (Instr.partialAck 255 0).wf = true := by decide
theorem test_wf_port : (Instr.linkUp 36).wf = false ∧ (Instr.linkUp 35).wf = true ∧ (Instr.linkUp 64).wf = true := by decide
theorem test_wf_channel : (Instr.ackTimer 512).wf = false ∧ (Instr.ackTimer 256).wf = true := by decide
theorem test_wf_engine : (Instr.batchStart 16).wf = false ∧ (Instr.batchStart 15).wf = true := by decide
theorem test_wf_bank : (Instr.bankMove 0 65).wf = false ∧ (Instr.bankMove 0 64).wf = true := by decide
theorem test_wf_tag : (Instr.proxyTimeout 65536).wf = false ∧ (Instr.proxyTimeout 65535).wf = true := by decide
theorem test_wf_payload : (Instr.event (List.replicate 1057 0)).wf = false ∧ (Instr.event []).wf = true := by decide +kernel
theorem test_wf_ethernet : (Instr.ethernetFrame 32 (List.replicate 9023 0)).wf = false ∧ (Instr.ethernetFrame 32 []).wf = true := by
  decide +kernel
theorem test_wf_lanes : (Instr.codewordReceive 7 [[], [], [], [], [], []]).wf = false ∧ (Instr.codewordReceive 7 []).wf = true := by decide
theorem test_wf_lane : (Instr.laneFail 7 256).wf = false ∧ (Instr.laneFail 7 4).wf = true := by decide
theorem test_wf_instant : (Instr.ppsInEdge (2 ^ 80)).wf = false ∧ (Instr.ppsInEdge 0).wf = true := by decide
theorem test_wf_report : (Instr.tileReport 0 (List.replicate 4097 0) true).wf = false ∧ (Instr.tileReport 0 [] true).wf = true := by
  decide +kernel
theorem test_wf_tick : (Instr.slowTick { rings := [(65536, 0)], clocks := [] }).wf = false ∧
    (Instr.slowTick { rings := [(1000, 1000)], clocks := [800] }).wf = true := by decide

/-! ### The hypotheses of the statements can be met -/

namespace Sys2Proof.Tests

set_option Elab.async false

/-- A die hub and a KXA-32 right after power-on. -/
def die : State := State.reset
def sys : State := { State.reset with straps := { Straps.reset with role := .system } }

/-- A request of the highest tag, a command of command page 0, and an access to a page of the block. -/
def req : Req := { port := .rot, priv := 3, job := 0, rid := 0 }
def cmd : CmdIn := { pkg := false, page := 0, req, nargs := 0 }
def acc (page off : Nat) (wr : Bool) (data : Word) : Access :=
  { addr := BitVec.ofNat 24 (4096 * page + off), be := 0xF, wr, data, req }


/-- An array of a page. -/
def use (ty : Nat) : ArrayUse := { array := 0, word := 0, page := pg ty, cmd := none, req := none }

/-- The conditions of `reaches`, `mayWrite` and `mayRead`, in a form that can be decided. -/
def reachable (s : State) (a : Access) (key page off : Nat) : Bool :=
  !s.dark && (decide (s.bpwr.state = .run) || decide (s.bpwr.state = .idle)) &&
    !(decide (a.req.port = .host) && (decide (64 ≤ s.hostWaits) || !s.chanOpen (.converter .host 0))) &&
    decide (s.target false a.addr.toNat = .page key page off) && s.chanOpen (.subsystem page) && decide (off % 4 = 0) && decide (a.be = 0xF)

theorem reaches_of {s : State} {a : Access} {key off : Nat} (page : Nat) (h : reachable s a key page off = true) :
    s.reaches a key off := by
  simp only [reachable, Bool.and_eq_true, decide_eq_true_eq, Bool.or_eq_true, Bool.not_eq_true', Bool.and_eq_false_iff,
    decide_eq_false_iff_not, Bool.or_eq_false_iff, Bool.not_eq_false'] at h
  obtain ⟨⟨⟨⟨⟨⟨h1, h2⟩, h3⟩, h4⟩, h5⟩, h6⟩, h7⟩ := h
  refine ⟨h1, h2, ?_, ⟨page, h4, h5⟩, h6, h7⟩
  rintro ⟨x, y⟩
  rcases h3 with h3 | ⟨h3, h8⟩
  · exact h3 x
  · rcases y with y | y
    · exact h3 y
    · rw [h8] at y; cases y

theorem may_write {s : State} {a : Access} {key off : Nat} (page : Nat) (h : reachable s a key page off = true)
    (k : a.wr = true ∧ s.writeRank key (off % 0x800) ≤ a.req.tag.rank ∧ (0x40 ≤ off % 0x800 → s.pageShut key = false) ∧
      s.behindReset key (off % 0x800) = false ∧ bit (s.hdr key).inj 31 = false) : s.mayWrite a key off :=
  ⟨reaches_of page h, k⟩

theorem may_read {s : State} {a : Access} {key off : Nat} (page : Nat) (h : reachable s a key page off = true)
    (k : a.wr = false ∧ 0x40 ≤ off ∧ off < 0x800 ∧ s.readRank key off ≤ a.req.tag.rank ∧ s.pageShut key = false ∧
      s.behindReset key off = false) : s.mayRead a key off :=
  ⟨reaches_of page h, k⟩

def rule : Rule :=
  { oper := .sum, slot := 0, dest := 3, cls := 0, dom := false, src := 0, fmt := 0, mask := 0, sel := 0, maskArg := 0, pshift := 0,
    div := 1, p0 := 0, p1 := 0, p2 := 0, chk := 0 }
def win : Win :=
  { slot := 0, window := 0, flags := 0, units := 0, dies := 0, op := .sum 0 0, got := [], expected := none, close := 0, since := 0 }
def partl : RedPartial := { slot := 0, window := 0, chk := 0, flags := 0, units := 0, dies := 0, op := .sum 0 0, close := 0 }
def snap : CloseSnap := { epoch := 0, dir := [], cols := [], ftabAct := 0, probes := [], clusters := [], regions := [] }
def batch : Batch :=
  { epoch := 0, start := 0, limit := none, todo := [0, 1], issued := 0, window := 0, slots := [], rules := [], kids := [], snap,
    dir := [], cols := [], ftabAct := 0, nans := 0, firstNan := (0, 0), defTrees := [] }
def verdict : Verdict := { entity := 0, code := 0, cls := 0, flags := 0, sum := 0, act := 0, ftabAct := 0, epoch := 0 }
def katRun : KatRun := { unit := 0, acked := false, ackTime := 0, taint := 0, abandoned := false }
def ptp : PtpMsg :=
  { domain := 0, sdo := 0, good := true, tlvs := 0, seq := 0, twoStep := true, sec := 0, nsec := 0, corr := 0, sender := 0, port := 0,
    forMe := true }
def ctrl : LinkCtrl :=
  { ka := true, nak := false, swap := false, swapAck := false, takeover := false, head := false, primary := false, nakWhy := 0,
    swapLane := 0, nakSeq := 0, crd2 := 0, crd3 := 0, crd7 := 0, swapAt := 0 }
def frame : QFrame :=
  { typ := 0, sz := false, more := false, frag := 0, src := 0, dst := 0, hops := 8, tag := 0, payload := [], chan := 0, ftag := 0 }
def msg : Msg := { typ := 0x20, tag := 0, dest := .up, payload := [] }
def bcast : Bcast :=
  { seq := 0, origin := 1, kind := 1, immediate := true, waves := false, job := 0, guard := 0, t := 0, runtime := 0, args := [] }
def pendBcast : PendBcast :=
  { b := bcast, leaves := 0, own := AckCounts.zero 0, expect := [], acks := [], reason := 0, first := 0, sent := none }
def ack : BcastAck :=
  { seq := 0, origin := 1, sender := 2, armed := 0, notArmed := 0, notMember := 0, missing := 0, reason := 0, first := 0 }
def job : JobEntry :=
  { root := false, state := .running, member := true, job := 1, runtime := 0, rootNode := 0, seq := 0, qp := 0, ratio := 0, loExp := 0,
    stepWait := 0, t := 0, waves := false, lastStep := 0, lastQ := 0, armedAtT := 0, stragglers := 0, stepGap := 0, mark := 0,
    markNo := none, snuffed := false, kids := [], done := [], lates := [] }
def stepPart : StepPart :=
  { job := 1, step := 0, dies := 0, expect := 0, under := 0, above := 0, c := [], pairs := [], stale := false, late := true }
def stepWin : StepWin :=
  { job := 1, step := 0, under := 0, above := 0, c := [], pairs := [], dies := 0, expect := 0, got := [], since := 0, stale := false,
    late := [] }
def beat : Beat := { epochLo := 0, head := false, primary := false, parked := false, levels := [] }
def change : ChangeSet := { freqs := [], points := [], forced := false }
def running (d : PwrWait) : Running := { set := change, step := 1, todo := [], doing := d, abort := true }
def logRec : LogRec :=
  { sev := 1, inj := false, unlocked := false, schema := 0, seq := 0, time := 0, page := 0, inst := 0, code := 0, origin := 0, body := [] }
def packet : TPacket := { typ := 6, src := 0, time := 0, body := [], job := 0, node := none }
def trig : SnuffTrig := { cause := .pin, scope := 0, init := 0, no := none, port := none }
def boot : BootIn :=
  { jedec := 0, helperOk := true, badBlock := none, uds := [], ctr0 := [], ctr1 := [], cert := [], slotA := [], slotB := [] }
def session : Session := { done := true, auth := true, secret := [], keyGen := 0, rx := 0, tx := 0, last := 0 }
def spdm : SpdmIn := { pkg := false, page := 0, session := none }
def share : Share := { priv := 1, nonce := [], at' := 0 }
def hmTag : HmTag :=
  { xfer := 0, addr := 0, len := 64, wr := false, data := [], beats := 0, retries := 0, sent := 0, again := none, dead := false, page := 0,
    region := none, incarn := 0, rIncarn := 0 }

theorem test_meets_StepTakesTheFrontCommand :
    ∃ (i : Instr) (rest : List Instr) (s : State), s.pending = i :: rest :=
  ⟨.headLost, [], { die with pending := [.headLost] }, by decide +kernel⟩

theorem test_meets_EveryStepHoldsItsLines :
    (∃ (s : State) (t : State), s.LinesHeld ∧ step s = .next t) ∧
    (∃ (m : TickIn) (s : State) (t : State), exec (.slowTick m) s = .next t) :=
  ⟨⟨die, die, by unfold State.LinesHeld; decide +kernel, rfl⟩,
    ⟨{ rings := [], clocks := [] }, die, _, rfl⟩⟩

theorem test_meets_ElectionTakesTheLowestEligibleDie :
    ∃ (s : State), s.isDie = true ∧ s.pkg.head = none ∧ s.pkg.elected = false ∧ s.awake = true :=
  ⟨die, by decide +kernel, by decide +kernel, by decide +kernel, by decide +kernel⟩

theorem test_meets_HeadKeepalivesAndItsLoss :
    (∃ (s : State), s.isHead = true) ∧
    (∃ (s : State) (h : BitVec 3), s.isDie = true ∧ s.pkg.head = some h ∧ h ≠ s.straps.dieIdx ∧ (8 ≤ s.pkg.missed ∨
      s.linkUp (s.diePort h.toNat) = false)) :=
  ⟨⟨{ die with pkg := { die.pkg with head := some 0 } }, by decide +kernel⟩,
    ⟨{ die with pkg := { die.pkg with head := some 1, missed := 8 } }, 1, by decide +kernel, by decide +kernel, by
      decide +kernel, by decide +kernel⟩⟩

theorem test_meets_ConcentratorFailuresAreAbsorbed :
    (∃ (c : Nat) (s : State), s.isDie = true ∧ c < Config.clusters ∧ (s.cluster c).lost = false ∧ (s.region (regionOf
      c)).absent = false) ∧
    (∃ (r : Nat) (s : State), s.isDie = true ∧ r < Config.regions ∧ (s.region r).absent = false) :=
  ⟨⟨0, die, by decide +kernel, by decide +kernel, by decide +kernel, by decide +kernel⟩,
    ⟨0, die, by decide +kernel, by decide +kernel, by decide +kernel⟩⟩

theorem test_meets_StuckHandshakesAreReported :
    (∃ (s : State), s.dark = false) ∧
    (∃ (p : Nat) (s : State), s.dark = false ∧ s.watchRuns (Channel.subsystem p).code = true ∧ (Tab.read natZero
      s.pace.watch (Channel.subsystem p).code = 0 ∨ s.hsTimeoutTicks < Tab.read natZero s.pace.watch (Channel.subsystem
      p).code)) :=
  ⟨⟨die, by decide +kernel⟩,
    ⟨0, die, by decide +kernel, by decide +kernel, by decide +kernel⟩⟩

theorem test_meets_SlowArrayAccessIsRetriedOnce :
    ∃ (u : ArrayUse), u.req = none ∧ u.cmd = none ∧ keyType u.page ≠ 0x68 :=
  ⟨use 0x10, by decide +kernel, by decide +kernel, by decide +kernel⟩

theorem test_meets_UnalignedAccessesHaveNoEffect :
    ∃ (a : Access) (s : State) (key : Nat) (page : Nat) (off : Nat), s.dark = false ∧ (s.bpwr.state = .run ∨ s.bpwr.state
      = .idle) ∧ (¬(a.req.port = .host ∧ (64 ≤ s.hostWaits ∨ s.chanOpen (.converter .host 0) = false))) ∧ s.target false
      a.addr.toNat = .page key page off ∧ (off % 4 ≠ 0 ∨ a.be ≠ 0xF) :=
  ⟨acc 0x10 0x42 true 0, die, pg 0x10, 0x10, 0x42, by decide +kernel, by decide +kernel, by decide +kernel, by
    decide +kernel, by decide +kernel⟩

theorem test_meets_RegisterWritesChangeTheirOwnBits :
    (∃ (a : Access) (s : State) (key : Nat) (off : Nat), keyType key ∈ [0x31, 0x39, 0x61, 0x92] ∧ keyScope key = 0 ∧ 0x40 ≤
      off ∧ off < 0x800 ∧ s.mayWrite a key off ∧ (s.hdr key).guard = none ∧ guardedAt key off = false ∧ isAon key off =
      false ∧ wideAt (keyType key) off = none) ∧
    (∃ (a : Access) (s : State) (key : Nat) (off : Nat), s.reaches a key off ∧ a.wr = true ∧ a.req.tag.rank < s.writeRank
      key (off % 0x800)) ∧
    (∃ (a : Access) (s : State) (key : Nat) (off : Nat), s.isSystem = false ∧ s.reaches a key off ∧ a.wr = true ∧
      s.writeRank key (off % 0x800) ≤ a.req.tag.rank ∧ s.pageShut key = false ∧ s.behindReset key (off % 0x800) = true) :=
  ⟨⟨acc 0x31 0x44 true 0, die, pg 0x31, 0x44, by decide +kernel, by decide +kernel, by decide +kernel, by decide +kernel,
      may_write 0x31 (by decide +kernel) (by decide +kernel), by decide +kernel, by decide +kernel, by decide +kernel, by
      decide +kernel⟩,
    ⟨{ acc 0x31 0x44 true 0 with req := { req with priv := 0 } }, die, pg 0x31, 0x44, reaches_of 0x31 (by decide +kernel),
      by decide +kernel, by decide +kernel⟩,
    ⟨acc 0x31 0x44 true 0, die.modHdr (pg 0x31) fun h => { h with stat := bw 3 }, pg 0x31, 0x44, by decide +kernel,
      reaches_of 0x31 (by decide +kernel), by decide +kernel, by decide +kernel, by decide +kernel, by decide +kernel⟩⟩

theorem test_meets_HandshakeTimeoutIsClamped :
    ∃ (a : Access) (s : State), s.mayWrite a (pg 0x02) 0x44 ∧ (s.hdr (pg 0x02)).guard = none :=
  ⟨acc 1 0x44 true 0, die, may_write 1 (by decide +kernel) (by decide +kernel), by decide +kernel⟩

theorem test_meets_RequestsTravelToTheirTargets :
    (∃ (a : Access) (s : State) (h : BitVec 3) (tag : Nat), s.isDie = true ∧ s.pkg.head = some h ∧ h ≠ s.straps.dieIdx ∧
      a.addr.toNat / 2 ^ 20 = 1 ∧ a.addr.toNat % 4 = 0 ∧ a.be = 0xF ∧ s.dark = false ∧ (s.bpwr.state = .run ∨ s.bpwr.state =
      .idle) ∧ (¬(a.req.port = .host ∧ (64 ≤ s.hostWaits ∨ s.chanOpen (.converter .host 0) = false))) ∧ s.freeTag = some tag) ∧
    (∃ (a : Access) (s : State) (n : Nat) (tag : Nat), s.isSystem = true ∧ s.straps.cascade = false ∧ n < 8 ∧ a.addr.toNat
      / 2 ^ 20 = 8 + n ∧ a.addr.toNat % 4 = 0 ∧ a.be = 0xF ∧ s.dark = false ∧ (s.bpwr.state = .run ∨ s.bpwr.state = .idle) ∧
      (¬(a.req.port = .host ∧ (64 ≤ s.hostWaits ∨ s.chanOpen (.converter .host 0) = false))) ∧ s.freeTag = some tag ∧ bit
      (s.reg (pg 0x01) (0xC0 + 4 * n)) 31 = true ∧ bit (s.reg (pg 0x01) (0xC0 + 4 * n)) 30 = false ∧ fld (s.reg (pg 0x01)
      (0xC0 + 4 * n)) 8 8 < 32) ∧
    (∃ (a : Access) (s : State) (n : Nat), s.isSystem = true ∧ n < 8 ∧ s.mayWrite a (pg 0x01) (0xC0 + 4 * n) ∧ (s.hdr (pg
      0x01)).guard = none) :=
  ⟨⟨{ acc 0 0 true 0 with addr := 0x100000 }, { die with pkg := { die.pkg with head := some 1 } }, 1, 0, by
      decide +kernel, by decide +kernel, by decide +kernel, by decide +kernel, by decide +kernel, by decide +kernel, by
      decide +kernel, by decide +kernel, by decide +kernel, by decide +kernel⟩,
    ⟨{ acc 0 0 true 0 with addr := 0x800000 }, sys.setReg (pg 0x01) 0xC0 0x80000000, 0, 0, by decide +kernel, by
      decide +kernel, by decide +kernel, by decide +kernel, by decide +kernel, by decide +kernel, by decide +kernel, by
      decide +kernel, by decide +kernel, by decide +kernel, by decide +kernel, by decide +kernel, by decide +kernel⟩,
    ⟨acc 0 0xC0 true 0, sys, 0, by decide +kernel, by decide +kernel, may_write 0 (by decide +kernel) (by decide +kernel),
      by decide +kernel⟩⟩

theorem test_meets_GuardedWritesNeedTheirComplement :
    (∃ (a : Access) (s : State) (key : Nat) (off : Nat), off < 0x800 ∧ guardedAt key off = true ∧ s.mayWrite a key off ∧
      (s.hdr key).guard = none) ∧
    (∃ (a : Access) (s : State) (key : Nat) (g : Guard), (s.hdr key).guard = some g ∧ g.off = 0x2C ∧ g.ticks < 8 ∧ g.rid =
      a.req.rid ∧ s.mayWrite a key 0x82C ∧ a.data = ~~~g.value) ∧
    (∃ (a : Access) (s : State) (key : Nat) (off : Nat) (g : Guard), (s.hdr key).guard = some g ∧ g.ticks < 8 ∧ g.rid =
      a.req.rid ∧ s.mayWrite a key off ∧ (¬(off = g.off + 0x800 ∧ a.data = ~~~g.value))) ∧
    (∃ (page : Nat) (s : State) (g : Guard), (s.hdr page).guard = some g) :=
  ⟨⟨acc 0x31 0x2C true 0, die, pg 0x31, 0x2C, by decide +kernel, by decide +kernel, may_write 0x31 (by decide +kernel)
      (by decide +kernel), by decide +kernel⟩,
    ⟨acc 0x31 0x82C true (~~~1), die.modHdr (pg 0x31) fun h =>
      { h with guard := some { off := 0x2C, value := 1, rid := 0, ticks := 0 } }, pg 0x31,
      { off := 0x2C, value := 1, rid := 0, ticks := 0 }, by decide +kernel, by decide +kernel, by decide +kernel, by
      decide +kernel, may_write 0x31 (by decide +kernel) (by decide +kernel), by decide +kernel⟩,
    ⟨acc 0x31 0x44 true 0, die.modHdr (pg 0x31) fun h =>
      { h with guard := some { off := 0x2C, value := 1, rid := 0, ticks := 0 } }, pg 0x31, 0x44,
      { off := 0x2C, value := 1, rid := 0, ticks := 0 }, by decide +kernel, by decide +kernel, by decide +kernel, may_write
      0x31 (by decide +kernel) (by decide +kernel), by decide +kernel⟩,
    ⟨pg 0x31, die.modHdr (pg 0x31) fun h => { h with guard := some { off := 0x2C, value := 1, rid := 0, ticks := 0 } },
      { off := 0x2C, value := 1, rid := 0, ticks := 0 }, by decide +kernel⟩⟩

theorem test_meets_WideRegistersMoveWhole :
    (∃ (a : Access) (s : State) (key : Nat) (off : Nat) (n : Nat), wideAt (keyType key) off = some (off, n, 0) ∧ keyType
      key ≠ 0x08 ∧ keyType key ≠ 0x03 ∧ keyType key ≠ 0x18 ∧ s.mayRead a key off ∧ 0 < n) ∧
    (∃ (a : Access) (s : State) (hi : Word), s.mayWrite a (pg 0x28) 0xB0 ∧ (s.hdr (pg 0x28)).guard = none ∧ (s.hdr (pg
      0x28)).staged = [(0xB4, hi)]) :=
  ⟨⟨acc 0x30 0x40 false 0, die, pg 0x30, 0x40, 3, by decide +kernel, by decide +kernel, by decide +kernel, by
      decide +kernel, may_read 0x30 (by decide +kernel) (by decide +kernel), by decide +kernel⟩,
    ⟨acc 0x28 0xB0 true 0, die.modHdr (pg 0x28) fun h => { h with staged := [(0xB4, 0)] }, 0, may_write 0x28 (by
      decide +kernel) (by decide +kernel), by decide +kernel, by decide +kernel⟩⟩

theorem test_meets_UnitWindowShowsRecords :
    (∃ (a : Access) (s : State), s.mayWrite a (pg 0x03) 0x24 ∧ (s.hdr (pg 0x03)).guard = none ∧ bit a.data 0 = true ∧
      s.snapRuns = false ∧ s.takeBarred = false) ∧
    (∃ (a : Access) (s : State) (c : Nat) (w : Nat) (off : Nat), c < 4 ∧ w < 63 ∧ (w = 0 ∨ 39 ≤ w) ∧ off = 0x100 + 0x100 *
      c + 4 * w ∧ s.mayRead a (pg 0x03) off ∧ s.unitCheck a.req (s.context c).1 (s.context c).2 = .ok) ∧
    (∃ (a : Access) (s : State) (c : Nat) (off : Nat) (p : Nat), c < 4 ∧ off = 0x1FC + 0x100 * c ∧ s.mayWrite a (pg 0x03)
      off ∧ (s.hdr (pg 0x03)).guard = none ∧ s.context c = (0, p) ∧ s.unitCheck a.req 0 p = .ok ∧ s.present p = true) :=
  ⟨⟨acc 2 0x24 true 1, die, may_write 2 (by decide +kernel) (by decide +kernel), by decide +kernel, by decide +kernel, by
      decide +kernel, by decide +kernel⟩,
    ⟨acc 2 0x100 false 0, die, 0, 0, 0x100, by decide +kernel, by decide +kernel, by decide +kernel, by decide +kernel,
      may_read 2 (by decide +kernel) (by decide +kernel), by decide +kernel⟩,
    ⟨acc 2 0x1FC true 0, die, 0, 0x1FC, 0, by decide +kernel, by decide +kernel, may_write 2 (by decide +kernel) (by
      decide +kernel), by decide +kernel, by decide +kernel, by decide +kernel, by decide +kernel⟩⟩

theorem test_meets_RingPointersStayInTheirRing :
    (∃ (a : Access) (s : State) (r : RingRegs), (r = poisonRing ∨ r = serviceRing) ∧ s.mayWrite a r.page r.rptr ∧ (s.hdr
      r.page).guard = none) ∧
    (∃ (a : Access) (s : State) (r : RingRegs), (r = poisonRing ∨ r = serviceRing) ∧ s.mayWrite a r.page r.size ∧ (s.hdr
      r.page).guard = none) :=
  ⟨⟨acc 0x28 0xC0 true 0, die, poisonRing, .inl rfl, may_write 0x28 (by decide +kernel) (by decide +kernel), by
      decide +kernel⟩,
    ⟨acc 0x28 0xB8 true 0, die, poisonRing, .inl rfl, may_write 0x28 (by decide +kernel) (by decide +kernel), by
      decide +kernel⟩⟩

theorem test_meets_CommandPagesAreLockedAndCleared :
    (∃ (a : Access) (s : State) (n : Nat), n < 8 ∧ s.mayWrite a (cmdKey false n) 0x48 ∧ (s.hdr (cmdKey false n)).guard =
      none) ∧
    (∃ (a : Access) (s : State) (n : Nat), n < 8 ∧ s.mayWrite a (cmdKey false n) 0x44 ∧ (s.hdr (cmdKey false n)).guard =
      none ∧ bit a.data 30 = true) ∧
    (∃ (a : Access) (s : State) (n : Nat), n < 8 ∧ s.isSystem = false ∧ s.mayWrite a (cmdKey false n) 0x40 ∧ (s.hdr (cmdKey
      false n)).guard = none ∧ s.bpwr.failed = false ∧ (bit (s.hdr (cmdKey false n)).stat 3 = false) ∧ (s.cmd false n).owner
      ≠ 0 ∧ (s.cmd false n).holder ≠ a.req.rid) ∧
    (∃ (a : Access) (s : State) (n : Nat), n < 8 ∧ s.isSystem = false ∧ s.mayWrite a (cmdKey false n) 0x40 ∧ (s.hdr (cmdKey
      false n)).guard = none ∧ s.bpwr.failed = false ∧ (bit (s.hdr (cmdKey false n)).stat 3 = false) ∧ (s.cmd false n).owner
      = 0 ∧ (s.cmd false n).busy = true) :=
  ⟨⟨acc 8 0x48 true 0, die, 0, by decide +kernel, may_write 8 (by decide +kernel) (by decide +kernel), by decide +kernel⟩,
    ⟨acc 8 0x44 true 0x40000000, die, 0, by decide +kernel, may_write 8 (by decide +kernel) (by decide +kernel), by
      decide +kernel, by decide +kernel⟩,
    ⟨acc 8 0x40 true 0, die.setCmd false 0 { CmdPage.reset 0 with owner := 1, holder := 1 }, 0, by decide +kernel, by
      decide +kernel, may_write 8 (by decide +kernel) (by decide +kernel), by decide +kernel, by decide +kernel, by
      decide +kernel, by decide +kernel, by decide +kernel⟩,
    ⟨acc 8 0x40 true 0, die.setCmd false 0 { CmdPage.reset 0 with busy := true }, 0, by decide +kernel, by decide +kernel,
      may_write 8 (by decide +kernel) (by decide +kernel), by decide +kernel, by decide +kernel, by decide +kernel, by
      decide +kernel, by decide +kernel⟩⟩

theorem test_meets_NopAndEchoComplete :
    ∃ (c : CmdIn) (s : State), s.takes c .tenant = true :=
  ⟨cmd, die, by decide +kernel⟩

theorem test_meets_EdgesCountAndResetsRestart :
    (∃ (p : Nat) (start : Bool) (s : State), s.dark = false ∧ s.present p = true ∧ (start = true → s.check.kat = none)) ∧
    (∃ (p : Nat) (s : State) (d : Tab (BitVec 40)) (ds : List (Tab (BitVec 40))), s.dark = false ∧ s.present p = true ∧
      (s.probe p).divs = d :: ds) :=
  ⟨⟨0, false, die, by decide +kernel, by decide +kernel, fun h => nomatch h⟩,
    ⟨0, die.modProbe 0 fun x => { x with divs := [[]] }, [], [], by decide +kernel, by decide +kernel, by decide +kernel⟩⟩

theorem test_meets_ClosesFollowTheirGrid :
    (∃ (s : State), s.closesRun = true ∧ s.samp.grid.pend = none) ∧
    (∃ (q : PendEpoch) (s : State), s.samp.grid.pend = some q ∧ s.dark = false ∧ (s.closesRun = true → s.nextClose =
      q.origin)) :=
  ⟨⟨die.setReg (pg 0x10) 0x44 0x4, by decide +kernel, by decide +kernel⟩,
    ⟨{ period := 1000000, origin := 0, page := none },
      { die with samp := { die.samp with grid := { die.samp.grid with pend := some { period := 1000000, origin := 0, page := none } } } },
      by decide +kernel, by decide +kernel, by decide +kernel⟩⟩

theorem test_meets_RecordsAreAddedOnceAndCommitted :
    (∃ (p : Nat) (s : State) (r : ProbeRec), (s.probe p).latch = some r ∧ s.concReady p = true ∧ bit (s.hdr (pg 0x10)).inj
      31 = false ∧ r.excl = false ∧ (bit (s.reg (pg 0x10) 0x44) 1 = false ∨ r.rsts ≠ 0 ∨ r.lost = true ∨ recordPasses
      (s.probe p).s r = true)) ∧
    (∃ (p : Nat) (s : State) (r : ProbeRec), (s.probe p).latch = some r ∧ s.concReady p = true ∧ bit (s.hdr (pg 0x10)).inj
      31 = false ∧ bit (s.reg (pg 0x10) 0x44) 1 = true ∧ r.rsts = 0 ∧ r.lost = false ∧ recordPasses (s.probe p).s r = false) ∧
    (∃ (c : Nat) (s : State), s.isDie = true ∧ c < Config.clusters) :=
  ⟨⟨0, die.modProbe 0 fun x =>
      { x with latch := some { d := [], s := [], gen := 0, rsts := 1, missed := 0, lost := false, excl := false, epoch := 0 } },
      { d := [], s := [], gen := 0, rsts := 1, missed := 0, lost := false, excl := false, epoch := 0 }, by decide +kernel,
      by decide +kernel, by decide +kernel, by decide +kernel, by decide +kernel⟩,
    ⟨0, (die.modProbe 0 fun x =>
      { x with latch := some { d := [(0, 1)], s := [], gen := 0, rsts := 0, missed := 0, lost := false, excl := false, epoch := 0 } }).setReg
      (pg 0x10) 0x44 2,
      { d := [(0, 1)], s := [], gen := 0, rsts := 0, missed := 0, lost := false, excl := false, epoch := 0 }, by
      decide +kernel, by decide +kernel, by decide +kernel, by decide +kernel, by decide +kernel, by decide +kernel, by
      decide +kernel⟩,
    ⟨0, die, by decide +kernel, by decide +kernel⟩⟩

theorem test_meets_SamplingCommandsActOnTheirRange :
    (∃ (c : CmdIn) (s : State), s.takes c .operator = true ∧ c.pkg = false ∧ s.isDie = true ∧ 1024 ≤ (argW c s 0).toNat ∧
      argFTraw c s 1 % ns = 0 ∧ s.samp.grid.pend = none ∧ s.time.evts.length < 32) ∧
    (∃ (c : CmdIn) (s : State), s.takes c .operator = true ∧ s.isDie = true ∧ 0 < argFld c s 1 0 14 ∧ argFld c s 0 0 13 +
      argFld c s 1 0 14 ≤ 8192 ∧ (∀ p, argFld c s 0 0 13 ≤ p → p < argFld c s 0 0 13 + argFld c s 1 0 14 → (s.region
      (regionOf (clusterOf p))).inReset = false)) ∧
    (∃ (c : CmdIn) (s : State), s.takes c .firmware = true ∧ s.isDie = true) :=
  ⟨⟨cmd, (die).setReg (cmdKey false 0) (0x80 + 4 * 0) 1024, by decide +kernel, by decide +kernel, by decide +kernel, by
      decide +kernel, by decide +kernel, by decide +kernel, by decide +kernel⟩,
    ⟨cmd, (die).setReg (cmdKey false 0) (0x80 + 4 * 1) 1, by decide +kernel, by decide +kernel, by decide +kernel, by
      decide +kernel, fun p _ _ => by simp [State.region, State.setReg, die, State.reset, Samp.reset, Tab.read,
      Region.reset]⟩,
    ⟨cmd, die, by decide +kernel, by decide +kernel⟩⟩

theorem test_meets_GeyserWindowsOpenAndEnd :
    (∃ (c : CmdIn) (s : State), s.takes c .operator = true ∧ s.isDie = true ∧ s.gyActive = false ∧ 480 * s.gyUnits.length ≤
      32 * (s.gyGI / ns) ∧ s.gyPre * s.gyUnits.length ≤ 512 ∧ (s.gyKind = 0 ∧ s.gyPre = 0 ∨ 2 ≤ s.gyKind ∧ s.gyKind ≤ 4) ∧
      (s.gyKind = 3 → argFld c s 0 0 14 < Config.entities)) ∧
    (∃ (c : CmdIn) (s : State), s.takes c .operator = true ∧ s.isDie = true ∧ s.gyActive = false ∧ 480 * s.gyUnits.length ≤
      32 * (s.gyGI / ns) ∧ s.gyPre * s.gyUnits.length ≤ 512 ∧ s.gyKind = 1 ∧ s.time.evts.length < 32 ∧ s.now + s.gyPre *
      s.gyGI + 10 * us ≤ truncFT (s.regWide (pg 0x11) 0x48 3)) ∧
    (∃ (s : State), s.gyActive = true ∧ s.samp.geyser.zero = none ∧ s.earlierDue s.samp.geyser.next 5 = false) ∧
    (∃ (z : FT) (s : State), s.gyActive = true ∧ s.samp.geyser.zero = some z ∧ s.earlierDue s.samp.geyser.next 5 = false) ∧
    (∃ (g : GeyserTrigger) (s : State), g ≠ .fleetTime ∧ s.samp.geyser.state = .armed ∧ s.samp.geyser.zero = none ∧
      s.gyMatches g = true) ∧
    (∃ (pkg : Bool) (n : Nat) (z : FT) (s : State), s.samp.geyser.page = some (pkg, n) ∧ s.samp.geyser.zero = some z ∧
      s.gyKind = 1 ∧ s.gyActive = true ∧ s.earlierDue z 5 = false) ∧
    (∃ (c : CmdIn) (s : State), s.takes c .operator = true ∧ s.isDie = true) :=
  ⟨⟨cmd, die, by decide +kernel, by decide +kernel, by decide +kernel, by decide +kernel, by decide +kernel, by
      decide +kernel, by decide +kernel⟩,
    ⟨cmd, ((die.setReg gyPage 0x54 0x20000000).setReg gyPage 0x4C 0xFFFFFFFF), by decide +kernel, by decide +kernel, by
      decide +kernel, by decide +kernel, by decide +kernel, by decide +kernel, by decide +kernel, by decide +kernel⟩,
    ⟨{ die with samp := { die.samp with geyser := { die.samp.geyser with state := .armed } } }, by decide +kernel, by
      decide +kernel, by decide +kernel⟩,
    ⟨0, { die with samp := { die.samp with geyser := { die.samp.geyser with state := .pre, zero := some 0 } } }, by
      decide +kernel, by decide +kernel, by decide +kernel⟩,
    ⟨.trigIn 0, ({ die with samp := { die.samp with geyser := { die.samp.geyser with state := .armed } } }).setReg gyPage
      0x54 0x80000000, by decide +kernel, by decide +kernel, by decide +kernel, by decide +kernel⟩,
    ⟨false, 0, 0,
      ({ die with samp := { die.samp with geyser := { die.samp.geyser with state := .pre, zero := some 0, page := some (false, 0) } } }).setReg
      gyPage 0x54 0x20000000, by decide +kernel, by decide +kernel, by decide +kernel, by decide +kernel, by decide +kernel⟩,
    ⟨cmd, die, by decide +kernel, by decide +kernel⟩⟩

theorem test_meets_PartialsMergeExpireAndAreKept :
    (∃ (src : BitVec 16) (p : RedPartial) (s : State) (r : Rule) (w : Win), s.dark = false ∧ (s.red 0).alarms = [] ∧ (s.red
      1).alarms = [] ∧ s.redRule (if s.isHead then 1 else 0) p.slot = some r ∧ s.redWin (if s.isHead then 1 else 0) p.slot
      p.window = some w ∧ w.expected = none ∧ w.got.contains (s.childOf src) = false ∧ Tab.read natZero (s.red (if s.isHead
      then 1 else 0)).emitted p.slot ≤ p.window ∧ p.chk = r.chk) ∧
    (∃ (slot : Nat) (window : Nat) (s : State) (r : Rule) (w : Win), s.dark = false ∧ (s.red 0).alarms = [] ∧ (s.red
      1).alarms = [] ∧ s.redRule (if s.isSystem then 0 else 1) slot = some r ∧ s.redWin (if s.isSystem then 0 else 1) slot
      window = some w ∧ w.expected.isSome = true ∧ (∀ q ∈ s.redRules (if s.isSystem then 0 else 1), q.src ≠ 6)) :=
  ⟨⟨1, partl, die.modRed 0 fun r =>
      { r with active := { image := [], rules := [rule], sets := [], valid := true }, wins := [win] }, rule, win, by
      decide +kernel, by decide +kernel, by decide +kernel, by decide +kernel, by decide +kernel, by decide +kernel, by
      decide +kernel, by decide +kernel, by decide +kernel⟩,
    ⟨0, 0, die.modRed 1 fun r =>
      { r with active := { image := [], rules := [rule], sets := [], valid := true }, wins := [{ win with expected := some [] }] },
      rule, { win with expected := some [] }, by decide +kernel, by decide +kernel, by decide +kernel, by decide +kernel, by
      decide +kernel, by decide +kernel, by decide +kernel⟩⟩

theorem test_meets_ReductionCommandsLoadActivateAndCopy :
    (∃ (c : CmdIn) (s : State), s.takes c .operator = true ∧ 0 < min (argW c s 2).toNat redMaxImage) ∧
    (∃ (c : CmdIn) (s : State), s.takes c .operator = true) ∧
    (∃ (c : CmdIn) (s : State), s.takes c .tenant = true) :=
  ⟨⟨cmd, (die).setReg (cmdKey false 0) (0x80 + 4 * 2) 64, by decide +kernel, by decide +kernel⟩,
    ⟨cmd, die, by decide +kernel⟩,
    ⟨cmd, die, by decide +kernel⟩⟩

theorem test_meets_SlotRecordsAreCaptured :
    (∃ (a : Access) (s : State), s.mayRead a (pg 0x18) 0x200 ∧ s.redDenied (pg 0x18) 0x200 a.req = false) ∧
    (∃ (a : Access) (s : State), s.mayWrite a (pg 0x18) 0x58 ∧ (s.hdr (pg 0x18)).guard = none) :=
  ⟨⟨acc 0x18 0x200 false 0, die, may_read 0x18 (by decide +kernel) (by decide +kernel), by decide +kernel⟩,
    ⟨acc 0x18 0x58 true 0, die, may_write 0x18 (by decide +kernel) (by decide +kernel), by decide +kernel⟩⟩

theorem test_meets_BatchesIssueAndPostVerdicts :
    (∃ (e : Nat) (epoch : Nat) (window : Nat) (s : State), e < s.engineCount ∧ s.forestRuns = true ∧ (s.engine
      e).active.valid = true ∧ s.batchClose (s.engine e).active = some (epoch, window) ∧ (s.engine e).done ≤ epoch ∧
      (s.engine e).batch = none ∧ (s.engine e).scores = []) ∧
    (∃ (e : Nat) (x : Nat) (y : Nat) (rest : List Nat) (b : Batch) (s : State), (s.engine e).batch = some b ∧ b.todo = x ::
      y :: rest ∧ b.limit = none ∧ s.forestRuns = true ∧ rewrites (s.engine e) = false) ∧
    (∃ (e : Nat) (v : Verdict) (vs : List Verdict) (s : State), (s.engine e).flight = v :: vs) :=
  ⟨⟨0, 0, 0, ({ die with samp := { die.samp with grid := { die.samp.grid with closed := true } } }).modEngine 0 fun f =>
      { f with active := { f.active with valid := true } }, by decide +kernel, by decide +kernel, by decide +kernel, by
      decide +kernel, by decide +kernel, by decide +kernel, by decide +kernel⟩,
    ⟨0, 0, 1, [], batch, (die).modEngine 0 fun f => { f with batch := some batch }, by decide +kernel, by decide +kernel,
      by decide +kernel, by decide +kernel, by decide +kernel⟩,
    ⟨0, verdict, [], (die).modEngine 0 fun f => { f with flight := [verdict] }, by decide +kernel⟩⟩

theorem test_meets_BanksAreScrubbedMovedAndRewritten :
    (∃ (e : Nat) (bank : Nat) (s : State), e < s.engineCount ∧ bank < 64 ∧ s.bpwr.state ≠ .doze) ∧
    (∃ (e : Nat) (bank : Nat) (s : State), e < s.engineCount ∧ bank < 64 ∧ (s.engine e).dead.contains bank = false) ∧
    (∃ (e : Nat) (k : Rebuild) (ks : List Rebuild) (s : State), (s.engine e).rebuild = k :: ks ∧ (s.engine e).scores = []) :=
  ⟨⟨0, 0, die, by decide +kernel, by decide +kernel, by decide +kernel⟩,
    ⟨0, 0, die, by decide +kernel, by decide +kernel, by decide +kernel⟩,
    ⟨0, .restore, [], (die).modEngine 0 fun f => { f with rebuild := [.restore] }, by decide +kernel, by decide +kernel⟩⟩

theorem test_meets_ForestCommandsLoadActivateAndScore :
    (∃ (c : CmdIn) (s : State), s.takes c .firmware = true) ∧
    (∃ (c : CmdIn) (s : State), s.takes c .operator = true) ∧
    (∃ (pkg : Bool) (page : BitVec 3) (s : State), { pkg, page := page.toNat } ∈ (s.engine 0).scores) :=
  ⟨⟨cmd, die, by decide +kernel⟩,
    ⟨cmd, die, by decide +kernel⟩,
    ⟨false, 0, (die).modEngine 0 fun f => { f with scores := [{ pkg := false, page := 0 }] }, by decide +kernel⟩⟩

theorem test_meets_FeatureTableIsSealedActivatedAndWritten :
    (∃ (c : CmdIn) (s : State), s.takes c .firmware = true) ∧
    (∃ (a : Access) (s : State), s.mayWrite a (pg 0x21) 0x48 ∧ (s.hdr (pg 0x21)).guard = none ∧ s.eitherRuns 0x200010 =
      false) :=
  ⟨⟨cmd, die, by decide +kernel⟩,
    ⟨acc 0x21 0x48 true 0, die, may_write 0x21 (by decide +kernel) (by decide +kernel), by decide +kernel, by
      decide +kernel⟩⟩

theorem test_meets_TileReportsAreHeldOrTaken :
    (∃ (u : Nat) (s : State), s.chanOpen (.converter .probe u) = true ∧ s.present u = true ∧ s.checkerRuns = false) ∧
    (∃ (u : Nat) (words : List Word) (s : State), s.chanOpen (.converter .probe u) = true ∧ s.present u = true ∧
      s.checkerRuns = true ∧ words.length = 7 ∧ fld (words.getD 0 0) 24 8 ≠ 255 ∧ fld (words.getD 0 0) 0 16 = s.check.taint
      % 2 ^ 16 ∧ bit (s.hdr (pg 0x28)).inj 31 = false) :=
  ⟨⟨0, { die with snuff := { die.snuff with state := .cut } }, by decide +kernel, by decide +kernel, by decide +kernel⟩,
    ⟨0, [0, 0, 0, 0, 0, 0, 0], die, by decide +kernel, by decide +kernel, by decide +kernel, by decide +kernel, by
      decide +kernel, by decide +kernel, by decide +kernel⟩⟩

theorem test_meets_KnownAnswerTestsPassOrFail :
    (∃ (u : Nat) (s : State), s.check.kat = none ∧ s.checkerRuns = true ∧ s.katSelect = some u) ∧
    (∃ (u : Nat) (s : State), s.chanOpen (.converter .probe u) = true ∧ (∀ k, s.check.kat = some k → k.unit ≠ u) ∧ (s.probe
      u).test.ack = true ∧ (s.probe u).test.raised = false) ∧
    (∃ (u : Nat) (k : KatRun) (s : State), s.chanOpen (.converter .probe u) = true ∧ s.check.kat = some k ∧ k.unit = u ∧
      k.acked = false) ∧
    (∃ (u : Nat) (words : List Word) (k : KatRun) (s : State), s.chanOpen (.converter .probe u) = true ∧ s.present u = true
      ∧ s.checkerRuns = true ∧ words.length = 7 ∧ fld (words.getD 0 0) 24 8 = 255 ∧ s.check.kat = some k ∧ k.unit = u ∧
      k.acked = true ∧ bit (s.hdr (pg 0x28)).inj 31 = false) ∧
    (∃ (k : KatRun) (s : State), s.check.kat = some k ∧ k.acked = true) :=
  ⟨⟨0,
      ({ die with check := { die.check with katReqs := [{ unit := 0, unfence := true, pkg := false, page := 0 }] } }.setReg
      chkPage 0x100 0x80000000).setReg chkPage 0x4C 0, by decide +kernel, by decide +kernel, by decide +kernel⟩,
    ⟨0, die.modProbe 0 fun x => { x with test := { raised := false, ack := true, ticks := 0 } }, by decide +kernel, fun k
      h => (by cases (show (none : Option KatRun) = some k from h)), by decide +kernel, by decide +kernel⟩,
    ⟨0, katRun, { die with check := { die.check with kat := some { katRun with acked := false } } }, by decide +kernel, by
      decide +kernel, by decide +kernel, by decide +kernel⟩,
    ⟨0, [0xFF000000, 0, 0, 0, 0, 0, 0], { katRun with acked := true },
      { die with check := { die.check with kat := some { katRun with acked := true } } }, by decide +kernel, by
      decide +kernel, by decide +kernel, by decide +kernel, by decide +kernel, by decide +kernel, by decide +kernel, by
      decide +kernel, by decide +kernel⟩,
    ⟨{ katRun with acked := true }, { die with check := { die.check with kat := some { katRun with acked := true } } }, by
      decide +kernel, by decide +kernel⟩⟩

theorem test_meets_NoticesAreAcknowledgedOrSentAgain :
    (∃ (s : State), s.isDie = true) ∧
    (∃ (b : List Byte) (s : State), s.isDie = true ∧ b.length = 64 ∧ b.getD 0 0 = 1 ∧ crc32c (b.take 60) = word (leAt b 60
      4) ∧ s.check.seen.contains (noticeKey b) = false ∧ s.ringRoom poisonRing 64 = false) ∧
    (∃ (seq : BitVec 32) (loc : BitVec 16) (n : Notice) (s : State), s.check.unacked.find? (fun n => decide (n.seq = seq)
      && decide (locNode n.loc = locNode loc)) = some n) :=
  ⟨⟨die, by decide +kernel⟩,
    ⟨((1 : Byte) :: zeros 59) ++ leBytes 4 (crc32c ((1 : Byte) :: zeros 59)).toNat, die.setReg poisonRing.page
      poisonRing.rptr 64, by decide +kernel, by decide +kernel, by decide +kernel, by decide +kernel, by decide +kernel, by
      decide +kernel⟩,
    ⟨0, 0, { loc := 0, seq := 0, bytes := [], tries := 0, sent := 0 },
      { die with check := { die.check with unacked := [{ loc := 0, seq := 0, bytes := [], tries := 0, sent := 0 }] } }, by
      decide +kernel⟩⟩

theorem test_meets_CheckCommandsFenceTestAndRegister :
    (∃ (c : CmdIn) (s : State), s.takes c .operator = true ∧ s.isDie = true) ∧
    (∃ (c : CmdIn) (s : State), s.takes c .firmware = true ∧ s.isDie = true) ∧
    (∃ (u : Nat) (s : State), s.chanOpen (.converter .probe u) = true) ∧
    (∃ (pkg : Bool) (page : BitVec 3) (r : KatReq) (s : State), s.check.kat = none ∧ s.check.katReqs.find? (fun r => decide
      (r.pkg = pkg) && decide (r.page = page.toNat)) = some r) ∧
    (∃ (a : Access) (s : State) (w : Nat), w < 8 ∧ w ≠ 5 ∧ s.mayWrite a (pg 0x28) (0x60 + 4 * w) ∧ (s.hdr (pg 0x28)).guard
      = none) :=
  ⟨⟨cmd, die, by decide +kernel, by decide +kernel⟩,
    ⟨cmd, die, by decide +kernel, by decide +kernel⟩,
    ⟨0, die, by decide +kernel⟩,
    ⟨false, 0, { unit := 0, unfence := false, pkg := false, page := 0 },
      { die with check := { die.check with katReqs := [{ unit := 0, unfence := false, pkg := false, page := 0 }] } }, by
      decide +kernel, by decide +kernel⟩,
    ⟨acc 0x28 0x60 true 0, die, 0, by decide +kernel, by decide +kernel, may_write 0x28 (by decide +kernel) (by
      decide +kernel), by decide +kernel⟩⟩

theorem test_meets_PtpMessagesAreTakenByTheirPorts :
    (∃ (m : PtpMsg) (s : State), s.ptpFits m = false) ∧
    (∃ (p : Nat) (m : PtpMsg) (s : State), s.time.running = true ∧ p < s.portCount ∧ s.ptpFits m = true ∧ measures (s.tport
      p) = true ∧ m.twoStep = true) ∧
    (∃ (p : Nat) (m : PtpMsg) (w : SyncWait) (s : State), s.time.running = true ∧ p < s.portCount ∧ s.ptpFits m = true ∧
      measures (s.tport p) = true ∧ (s.tport p).sync = some w ∧ w.seq = m.seq ∧ s.time.slave ≠ some p) ∧
    (∃ (p : Nat) (m : PtpMsg) (s : State), s.time.running = true ∧ p < s.portCount ∧ s.ptpFits m = true ∧ (s.tport p).state
      = .master) ∧
    (∃ (p : Nat) (m : PtpMsg) (w : DelayWait) (s : State), s.time.running = true ∧ p < s.portCount ∧ s.ptpFits m = true ∧
      measures (s.tport p) = true ∧ (s.tport p).dreq = some w ∧ w.seq = m.seq ∧ m.forMe = true ∧ 0 ≤ s.ptpToFT m.sec m.nsec) ∧
    (∃ (p : Nat) (m : PtpMsg) (s : State), s.time.running = true ∧ p < s.portCount ∧ s.ptpFits m = true ∧ (s.tport p).state
      ≠ .disabled ∧ s.isBmca p = false) :=
  ⟨⟨{ ptp with good := false }, die, by decide +kernel⟩,
    ⟨0, ptp, die.modTport 0 fun x => { x with state := .slave }, by decide +kernel, by decide +kernel, by decide +kernel,
      by decide +kernel, by decide +kernel⟩,
    ⟨0, ptp, { seq := 0, t2 := 0, corr := 0, came := 0 }, die.modTport 0 fun x =>
      { x with state := .slave, sync := some { seq := 0, t2 := 0, corr := 0, came := 0 } }, by decide +kernel, by
      decide +kernel, by decide +kernel, by decide +kernel, by decide +kernel, by decide +kernel, by decide +kernel⟩,
    ⟨0, ptp, die.modTport 0 fun x => { x with state := .master }, by decide +kernel, by decide +kernel, by decide +kernel,
      by decide +kernel⟩,
    ⟨0, ptp, { seq := 0, t3 := 0, sent := 0 }, die.modTport 0 fun x =>
      { x with state := .slave, dreq := some { seq := 0, t3 := 0, sent := 0 } }, by decide +kernel, by decide +kernel, by
      decide +kernel, by decide +kernel, by decide +kernel, by decide +kernel, by decide +kernel, by decide +kernel⟩,
    ⟨0, ptp, die.modTport 0 fun x => { x with state := .slave }, by decide +kernel, by decide +kernel, by decide +kernel,
      by decide +kernel, by decide +kernel⟩⟩

theorem test_meets_PtpTimersSendAndTimeOut :
    (∃ (p : Nat) (s : State), s.time.running = true ∧ p < s.portCount ∧ (s.tport p).state = .master) ∧
    (∃ (p : Nat) (s : State), s.time.running = true ∧ p < s.portCount ∧ measures (s.tport p) = true) ∧
    (∃ (p : Nat) (s : State), s.time.running = true ∧ p < s.portCount ∧ s.linkUp p = true) ∧
    (∃ (p : Nat) (s : State) (w : DelayWait), (s.tport p).dreq = some w) ∧
    (∃ (p : Nat) (s : State) (w : SyncWait), (s.tport p).sync = some w) ∧
    (∃ (p : Nat) (s : State), s.time.slave = some p ∧ s.time.servo = .acquire) ∧
    (∃ (p : Nat) (s : State), s.time.slave = some p ∧ s.time.servo = .locked) ∧
    (∃ (pkg : Bool) (page : BitVec 3) (v : FT) (s : State), s.time.setPps = some (v, pkg, page.toNat) ∧ s.time.relock =
      none) :=
  ⟨⟨0, die.modTport 0 fun x => { x with state := .master }, by decide +kernel, by decide +kernel, by decide +kernel⟩,
    ⟨0, die.modTport 0 fun x => { x with state := .slave }, by decide +kernel, by decide +kernel, by decide +kernel⟩,
    ⟨0, die.modPort 0 fun x => { x with state := .up }, by decide +kernel, by decide +kernel, by decide +kernel⟩,
    ⟨0, die.modTport 0 fun x => { x with dreq := some { seq := 0, t3 := 0, sent := 0 } },
      { seq := 0, t3 := 0, sent := 0 }, by decide +kernel⟩,
    ⟨0, die.modTport 0 fun x => { x with sync := some { seq := 0, t2 := 0, corr := 0, came := 0 } },
      { seq := 0, t2 := 0, corr := 0, came := 0 }, by decide +kernel⟩,
    ⟨0, { die with time := { die.time with slave := some 0, servo := .acquire } }, by decide +kernel, by decide +kernel⟩,
    ⟨0, { die with time := { die.time with slave := some 0, servo := .locked } }, by decide +kernel, by decide +kernel⟩,
    ⟨false, 0, 0, { die with time := { die.time with setPps := some (0, false, 0) } }, by decide +kernel, by
      decide +kernel⟩⟩

theorem test_meets_TheServoStepsAndHolds :
    (∃ (x : Int × Int) (y : Int × Int) (s : State), s.dark = false ∧ s.time.running = true ∧ s.time.servo = .acquire ∧
      s.acqN ≤ s.time.samples.length ∧ s.time.samples.head? = some x ∧ s.time.samples.getLast? = some y ∧ s.time.evts = []) ∧
    (∃ (x : Int × Int) (y : Int × Int) (r : Relock) (s : State), s.dark = false ∧ s.time.running = true ∧ s.time.servo ≠
      .acquire ∧ s.time.relock = some r ∧ r.page = none ∧ s.acqN ≤ s.time.samples.length ∧ s.time.samples.head? = some x ∧
      s.time.samples.getLast? = some y ∧ s.time.evts = [] ∧ (s.earlierDue (max (s.tickAfter y.2)
      (match r.t with | some t => ceilDiv t us * us | none => 0)) 7 = false)) ∧
    (∃ (c : CmdIn) (s : State), s.takes c .firmware = true) ∧
    (∃ (c : CmdIn) (s : State), s.takes c .firmware = true ∧ (s.time.servo = .free ∨ s.time.relock.isSome = true)) ∧
    (∃ (c : CmdIn) (s : State), s.takes c .firmware = true ∧ s.time.servo ≠ .free ∧ s.time.relock = none ∧ bit (argW c s 0)
      0 = false ∧ bit (argW c s 0) 1 = false) :=
  ⟨⟨(0, 0), (0, 16),
      { die with time := { die.time with servo := .acquire, samples := [(0, 0), (0, 1), (0, 2), (0, 3), (0, 4), (0, 5), (0, 6), (0, 7), (0, 8), (0, 9), (0, 10), (0, 11), (0, 12), (0, 13), (0, 14), (0, 15), (0, 16)] } },
      by decide +kernel, by decide +kernel, by decide +kernel, by decide +kernel, by decide +kernel, by decide +kernel, by
      decide +kernel⟩,
    ⟨(0, 0), (0, 16), { t := none, due := true, started := true, page := none },
      { die with time := { die.time with servo := .locked, relock := some { t := none, due := true, started := true, page := none }, samples := [(0, 0), (0, 1), (0, 2), (0, 3), (0, 4), (0, 5), (0, 6), (0, 7), (0, 8), (0, 9), (0, 10), (0, 11), (0, 12), (0, 13), (0, 14), (0, 15), (0, 16)] } },
      by decide +kernel, by decide +kernel, by decide +kernel, by decide +kernel, by decide +kernel, by decide +kernel, by
      decide +kernel, by decide +kernel, by decide +kernel, by decide +kernel⟩,
    ⟨cmd, die, by decide +kernel⟩,
    ⟨cmd, die, by decide +kernel, by decide +kernel⟩,
    ⟨cmd, { die with time := { die.time with servo := .locked } }, by decide +kernel, by decide +kernel, by
      decide +kernel, by decide +kernel, by decide +kernel⟩⟩

theorem test_meets_PulsesAndClockInputs :
    (∃ (s : State), s.dark = false ∧ s.time.running = true ∧ s.regFld (pg 0x30) 0xA0 30 2 ≠ 0 ∧ s.time.setPps = none ∧
      s.ppsSource = false) ∧
    (∃ (s : State), s.time.running = true ∧ (s.time.servo = .locked ∨ s.time.servo = .holdover) ∧ bit (s.reg (pg 0x30)
      0xA0) 29 = true) ∧
    (∃ (s : State), s.ppsSource = true) ∧
    (∃ (a : Access) (s : State), s.mayWrite a (pg 0x30) 0x90 ∧ (s.hdr (pg 0x30)).guard = none) ∧
    (∃ (a : Access) (s : State), s.mayWrite a (pg 0x30) 0xCC ∧ (s.hdr (pg 0x30)).guard = none) ∧
    (∃ (s : State), s.dark = false ∧ s.time.running = false) :=
  ⟨⟨die.setReg (pg 0x30) 0xA0 0x40000000, by decide +kernel, by decide +kernel, by decide +kernel, by decide +kernel, by
      decide +kernel⟩,
    ⟨({ die with time := { die.time with servo := .locked } }).setReg (pg 0x30) 0xA0 0x20000000, by decide +kernel, by
      decide +kernel, by decide +kernel⟩,
    ⟨(die.setReg (pg 0x30) 0xA0 0x80000000).setReg (pg 0x30) 0x50 0x80, by decide +kernel⟩,
    ⟨acc 0x30 0x90 true 0, die, may_write 0x30 (by decide +kernel) (by decide +kernel), by decide +kernel⟩,
    ⟨acc 0x30 0xCC true 0, die, may_write 0x30 (by decide +kernel) (by decide +kernel), by decide +kernel⟩,
    ⟨{ die with time := { die.time with running := false } }, by decide +kernel, by decide +kernel⟩⟩

theorem test_meets_LinkControlKeepsChannelsAlive :
    (∃ (c : Nat) (m : LinkCtrl) (s : State), s.dark = false ∧ m.swap = false ∧ m.swapAck = false ∧ m.nak = false ∧
      s.chanPort c ∉ s.parentPorts ∧ s.links.swapWait = none) ∧
    (∃ (c : Nat) (s : State), (s.chan c).owesAck = true ∧ s.ctrlGoes (s.chanPort c) = true) ∧
    (∃ (c : Nat) (s : State), 16 ≤ s.untold c ∧ s.ctrlGoes (s.chanPort c) = true) ∧
    (∃ (c : Nat) (s : State), s.ctrlGoes (s.chanPort c) = true) ∧
    (∃ (c : Nat) (s : State), s.isDie = true ∧ c < 9 ∧ s.linkUp c = true ∧ s.parentPort ≠ some c ∧ s.fum.peer = none) ∧
    (∃ (c : Nat) (s : State), (s.chan c).again ≠ []) :=
  ⟨⟨7, ctrl, die, by decide +kernel, by decide +kernel, by decide +kernel, by decide +kernel, by decide +kernel, by
      decide +kernel⟩,
    ⟨0, (die.modPort 0 fun x => { x with state := .up }).modChan 0 fun x => { x with owesAck := true }, by decide +kernel,
      by decide +kernel⟩,
    ⟨0, (die.modPort 0 fun x => { x with state := .up }).modChan 0 fun x => { x with freed := [(2, 16)] }, by
      decide +kernel, by decide +kernel⟩,
    ⟨0, die.modPort 0 fun x => { x with state := .up }, by decide +kernel⟩,
    ⟨0, die.modPort 0 fun x => { x with state := .up }, by decide +kernel, by decide +kernel, by decide +kernel, by
      decide +kernel, by decide +kernel⟩,
    ⟨0, (die).modChan 0 fun x => { x with again := [{ seq := 0, bytes := [], frame }] }, by decide +kernel⟩⟩

theorem test_meets_LinksTrainAndComeUp :
    (∃ (p : Nat) (s : State), s.linkKind p = 1 ∧ (s.port p).state = .training ∧ (s.port p).phase = .ts1) ∧
    (∃ (p : Nat) (s : State), s.linkKind p = 1 ∧ (s.port p).state = .training ∧ (s.port p).phase = .ts2) ∧
    (∃ (p : Nat) (s : State), (s.port p).state = .training) ∧
    (∃ (p : Nat) (s : State), s.trainedUp p = true) ∧
    (∃ (p : Nat) (s : State), s.linkKind p = 0 ∧ (s.port p).state = .training ∧ (s.port p).active = true) ∧
    (∃ (p : Nat) (s : State), s.linkKind p = 0 ∧ s.isDie = true ∧ p < 7 ∧ s.linkUp p = false) ∧
    (∃ (p : Nat) (s : State), s.linkKind p = 0 ∧ s.isDie = true ∧ s.check.spare.length < (s.reg (pg 0x12) 0x40).toNat) :=
  ⟨⟨0, sys.modPort 0 fun x => { x with state := .training, phase := .ts1 }, by decide +kernel, by decide +kernel, by
      decide +kernel⟩,
    ⟨0, sys.modPort 0 fun x => { x with state := .training, phase := .ts2 }, by decide +kernel, by decide +kernel, by
      decide +kernel⟩,
    ⟨0, sys.modPort 0 fun x => { x with state := .training }, by decide +kernel⟩,
    ⟨0, sys.modPort 0 fun x => { x with state := .training, phase := .stream, trained := 0xF }, by decide +kernel⟩,
    ⟨0, die.modPort 0 fun x => { x with state := .training, active := true }, by decide +kernel, by decide +kernel, by
      decide +kernel⟩,
    ⟨0, die, by decide +kernel, by decide +kernel, by decide +kernel, by decide +kernel⟩,
    ⟨0, die, by decide +kernel, by decide +kernel, by decide +kernel⟩⟩

theorem test_meets_LanesFailAndSwap :
    (∃ (p : Nat) (s : State), s.linkKind p = 1 ∧ (s.port p).phase = .stream ∧ (s.port p).trained = 0 ∧ (s.port p).due =
      none ∧ (s.linkUp p = true → bit (s.portReg p 0) 31 = true)) ∧
    (∃ (p : Nat) (l : Nat) (s : State), s.linkKind p = 1 ∧ s.linkUp p = true ∧ l < 5) ∧
    (∃ (p : Nat) (w : Swap) (s : State), (s.port p).swap = some w ∧ w.answered = false) ∧
    (∃ (p : Nat) (l : Nat) (y : Nat) (s : State), (s.port p).txSwap = some (l, y) ∧ y ≤ (s.port p).txPair) ∧
    (∃ (p : Nat) (w : Swap) (s : State), (s.port p).swap = some w ∧ w.answered = true ∧ w.atPair ≤ (s.port p).rxPair) ∧
    (∃ (p : Nat) (s : State), p < s.portCount ∧ s.dark = false ∧ s.parentPort ≠ some p ∧ s.linkUp p = false) ∧
    (∃ (c : CmdIn) (s : State), s.takes c .firmware = true) :=
  ⟨⟨0, sys.modPort 0 fun x => { x with phase := .stream }, by decide +kernel, by decide +kernel, by decide +kernel, by
      decide +kernel, fun h => by revert h; decide +kernel⟩,
    ⟨0, 0, sys.modPort 0 fun x => { x with state := .up }, by decide +kernel, by decide +kernel, by decide +kernel⟩,
    ⟨0, { lane := 0, atPair := 0, answered := false, repeats := 0 }, sys.modPort 0 fun x =>
      { x with swap := some { lane := 0, atPair := 0, answered := false, repeats := 0 } }, by decide +kernel, by
      decide +kernel⟩,
    ⟨0, 0, 0, sys.modPort 0 fun x => { x with txSwap := some (0, 0) }, by decide +kernel, by decide +kernel⟩,
    ⟨0, { lane := 0, atPair := 0, answered := true, repeats := 0 }, sys.modPort 0 fun x =>
      { x with swap := some { lane := 0, atPair := 0, answered := true, repeats := 0 } }, by decide +kernel, by
      decide +kernel, by decide +kernel⟩,
    ⟨0, die, by decide +kernel, by decide +kernel, by decide +kernel, by decide +kernel⟩,
    ⟨cmd, die, by decide +kernel⟩⟩

theorem test_meets_GatesAndParentsChangeAtTheirInstants :
    (∃ (c : CmdIn) (s : State), s.takes c .firmware = true ∧ s.portCount ≤ argFld c s 0 0 8) ∧
    (∃ (c : CmdIn) (s : State), s.takes c .firmware = true ∧ argFld c s 0 0 8 < s.portCount ∧ s.parentPort ≠ some (argFld c
      s 0 0 8) ∧ s.linkUp (argFld c s 0 0 8) = false) ∧
    (∃ (c : CmdIn) (s : State), s.takes c .firmware = true) ∧
    (∃ (p : Nat) (g : GateList) (s : State), (s.port p).nextGates = some g) ∧
    (∃ (c : CmdIn) (s : State), s.takes c .operator = true) ∧
    (∃ (c : CmdIn) (s : State), s.takes c .firmware = true ∧ s.isDie = true) ∧
    (∃ (w : SwapWait) (s : State), s.links.swapWait = some w ∧ (s.isSystem && s.mirrorCurrent) = false) ∧
    (∃ (p : Nat) (s : State), s.isSystem = true ∧ s.straps.cascade = false ∧ p ∈ s.parentPorts ∧ s.linkUp p = true ∧
      s.links.holding = true) :=
  ⟨⟨cmd, (die).setReg (cmdKey false 0) (0x80 + 4 * 0) 200, by decide +kernel, by decide +kernel⟩,
    ⟨cmd, die, by decide +kernel, by decide +kernel, by decide +kernel, by decide +kernel⟩,
    ⟨cmd, die, by decide +kernel⟩,
    ⟨0, { entries := [], base := 0 }, die.modPort 0 fun x => { x with nextGates := some { entries := [], base := 0 } }, by
      decide +kernel⟩,
    ⟨cmd, die, by decide +kernel⟩,
    ⟨cmd, die, by decide +kernel, by decide +kernel⟩,
    ⟨{ pkg := false, page := 0, down := 0, start := 0 },
      { die with links := { die.links with swapWait := some { pkg := false, page := 0, down := 0, start := 0 } } }, by
      decide +kernel, by decide +kernel⟩,
    ⟨32, { sys with links := { (sys.modPort 32 fun x => { x with state := .up }).links with holding := true } }, by
      decide +kernel, by decide +kernel, by decide +kernel, by decide +kernel, by decide +kernel⟩⟩

theorem test_meets_FramesAreCheckedSentAndAnswered :
    (∃ (p : Nat) (lanes : List (List Byte)) (s : State), s.linkKind p = 1 ∧ s.isEth p = false ∧ s.linkUp p = true ∧
      s.chanOpen (s.linkConv p) = true ∧ (s.port p).swap = none ∧ (s.port p).due = none ∧ bit (s.portReg p 0) 31 = true ∧
      rsPairDecode (scramble (s.port p).rxScr (gatherLanes (s.port p).rxMap (s.port p).invert lanes)).2 = none ∧ (s.port
      p).badRun < 7) ∧
    (∃ (p : Nat) (c : Nat) (b : List Byte) (rest : List (Nat × List Byte)) (s : State), s.dark = false ∧ s.awake = true ∧
      s.isSystem = false ∧ (s.port p).rx = (c, b) :: rest ∧ (b.length ≠ (rxHeader b).len ∨ trailerGood b = false)) ∧
    (∃ (p : Nat) (c : Nat) (m : LinkCtrl) (s : State), s.linkUp p = true ∧ (s.portChans p).findSome? (fun c => (s.chan
      c).ctl.head?.map fun m => (c, m)) = some (c, m)) ∧
    (∃ (p : Nat) (e : Nat × Msg) (s : State), s.mbox.find? (fun e => decide (e.1 = p) && (decide (2 ≤ typeClass e.2.typ) ||
      s.controlRoom p (typeClass e.2.typ) (s.msgBytes p e.2))) = some e) ∧
    (∃ (b : List Byte), (b.length < 64 ∨ b.drop (b.length - 4) ≠ fcs (b.take (b.length - 4)))) ∧
    (∃ (p : Nat) (src : BitVec 16) (tag : BitVec 16) (addr : BitVec 24) (wr : Bool) (data : Word) (priv : BitVec 2) (rid :
      Byte) (job : BitVec 16) (s : State) (u : State) (r : Resp) (d : Word), s.serve
      { addr, be := 0xF, wr, data, req := { port := .proxy, priv, job, rid } } (some (p, src, tag)) = (some (r, d), u)) ∧
    (∃ (tag : BitVec 16) (x : ProxyTag) (s : State), Tab.read noProxy s.links.proxies tag.toNat = some x ∧ x.dead = false ∧
      x.back = none ∧ s.pages.host.order = [{ num := some x.num, req := x.req, ans := none }]) ∧
    (∃ (tag : Nat) (x : ProxyTag) (s : State), Tab.read noProxy s.links.proxies tag = some x) :=
  ⟨⟨7, [], { die with links := { (die.modPort 7 fun x => { x with state := .up }).links with holding := false } }, by
      decide +kernel, by decide +kernel, by decide +kernel, by decide +kernel, by decide +kernel, by decide +kernel, by
      decide +kernel, by decide +kernel, by decide +kernel⟩,
    ⟨0, 0, (1 : Byte) :: zeros 63, [], (die).modPort 0 fun x => { x with rx := [(0, (1 : Byte) :: zeros 63)] }, by
      decide +kernel, by decide +kernel, by decide +kernel, by decide +kernel, by decide +kernel⟩,
    ⟨0, 0, ctrl, (die.modPort 0 fun x => { x with state := .up }).modChan 0 fun x => { x with ctl := [ctrl] }, by
      decide +kernel, by decide +kernel⟩,
    ⟨0, (0, msg), { die with mbox := [(0, msg)] }, by decide +kernel⟩,
    ⟨[], by decide +kernel⟩,
    ⟨0, 0, 0, 0, false, 0, 0, 0, 0, die, _, _, _, rfl⟩,
    ⟨0, { req, sent := 0, dead := false, port := 0, back := none, num := 0, chan := 0 },
      { die with links := { die.links with proxies := [(0, some { req, sent := 0, dead := false, port := 0, back := none, num := 0, chan := 0 })] }, pages := { die.pages with host := { die.pages.host with order := [{ num := some 0, req, ans := none }] } } },
      by decide +kernel, by decide +kernel, by decide +kernel, by decide +kernel⟩,
    ⟨0, { req, sent := 0, dead := false, port := 0, back := none, num := 0, chan := 0 },
      { die with links := { die.links with proxies := [(0, some { req, sent := 0, dead := false, port := 0, back := none, num := 0, chan := 0 })] } },
      by decide +kernel⟩⟩

theorem test_meets_SinterCompletesBlocksAndStreams :
    (∃ (s : State), s.snuff.state = .cut) ∧
    (∃ (w : EncWork) (rest : List EncWork) (s : State), s.snuff.state ≠ .cut ∧ s.sinter.enc = w :: rest) ∧
    (∃ (w : DecWork) (rest : List DecWork) (s : State), s.snuff.state ≠ .cut ∧ s.sinter.dec = w :: rest) ∧
    (∃ (c : CmdIn) (s : State), s.takes c .operator = true) :=
  ⟨⟨{ die with snuff := { die.snuff with state := .cut } }, by decide +kernel⟩,
    ⟨{ port := 0, msg, rest := [], blocks := [] }, [],
      { die with sinter := { die.sinter with enc := [{ port := 0, msg, rest := [], blocks := [] }] } }, by decide +kernel,
      by decide +kernel⟩,
    ⟨{ port := 0, chan := 0, typ := 0, cls := 0, more := false, frag := 0, src := 0, tag := 0, payload := [], units := 0 },
      [],
      { die with sinter := { die.sinter with dec := [{ port := 0, chan := 0, typ := 0, cls := 0, more := false, frag := 0, src := 0, tag := 0, payload := [], units := 0 }] } },
      by decide +kernel, by decide +kernel⟩,
    ⟨cmd, die, by decide +kernel⟩⟩

theorem test_meets_BroadcastsAreKnownAckedAndReleased :
    (∃ (b : Bcast) (s : State), s.dark = false ∧ s.awake = true ∧ b.kind ≠ 8) ∧
    (∃ (a : BcastAck) (s : State), s.pendOf (a.origin, a.seq) = none) ∧
    (∃ (a : BcastAck) (e : PendBcast) (s : State), s.pendOf (a.origin, a.seq) = some e) ∧
    (∃ (e : PendBcast) (s : State), s.pendOf (bcastKey e.b) = some e ∧ e.b.origin ≠ s.node ∧ e.sent = none ∧ e.b.immediate
      = true) ∧
    (∃ (e : PendBcast) (s : State), s.pendOf (bcastKey e.b) = some e) ∧
    (∃ (c : CmdIn) (s : State), s.takes c .operator = true) ∧
    (∃ (job : BitVec 16) (i : Nat) (j : JobEntry) (s : State), s.jobOf job = some (i, j) ∧ j.state ≠ .armed) ∧
    (∃ (job : BitVec 16) (i : Nat) (j : JobEntry) (s : State), s.jobOf job = some (i, j) ∧ j.state = .armed ∧ s.earlierDue
      j.t 2 = false) :=
  ⟨⟨bcast, die, by decide +kernel, by decide +kernel, by decide +kernel⟩,
    ⟨ack, die, by decide +kernel⟩,
    ⟨ack, pendBcast, { die with svc := { die.svc with pend := [pendBcast] } }, by decide +kernel⟩,
    ⟨pendBcast, { die with svc := { die.svc with pend := [pendBcast] } }, by decide +kernel, by decide +kernel, by
      decide +kernel, by decide +kernel⟩,
    ⟨pendBcast, { die with svc := { die.svc with pend := [pendBcast] } }, by decide +kernel⟩,
    ⟨cmd, die, by decide +kernel⟩,
    ⟨1, 0, job, { die with svc := { die.svc with jobs := [(0, some job)] } }, by decide +kernel, by decide +kernel⟩,
    ⟨1, 0, { job with state := .armed },
      { die with svc := { die.svc with jobs := [(0, some { job with state := .armed })] } }, by decide +kernel, by
      decide +kernel, by decide +kernel⟩⟩

theorem test_meets_StepsLivenessAndNotices :
    (∃ (c : CmdIn) (s : State), s.takes c .tenant = true) ∧
    (∃ (p : StepPart) (s : State), s.jobOf p.job = none) ∧
    (∃ (p : StepPart) (i : Nat) (j : JobEntry) (s : State), s.jobOf p.job = some (i, j) ∧ s.isSystem = true ∧ p.late = true
      ∧ j.root = false) ∧
    (∃ (job : BitVec 16) (step : BitVec 32) (i : Nat) (j : JobEntry) (w : StepWin) (s : State), s.jobOf job = some (i, j) ∧
      (s.svc.wins.find? fun w => decide (w.job = job) && decide (w.step = step)) = some w) ∧
    (∃ (src : BitVec 16) (s : State), s.watchOf src ∉ s.watchList) ∧
    (∃ (src : BitVec 16) (s : State), s.watchOf src ∈ s.watchList ∧ s.isSystem = false) ∧
    (∃ (t0 : FT) (rest : List FT) (s : State), s.svc.checkAt = t0 :: rest) ∧
    (∃ (c : CmdIn) (s : State), s.takes c .tenant = true ∧ s.isDie = true) ∧
    (∃ (d : Decision) (rest : List Decision) (s : State), s.rot.verify = d :: rest ∧ d.at' + us ≤ s.now) :=
  ⟨⟨cmd, die, by decide +kernel⟩,
    ⟨stepPart, die, by decide +kernel⟩,
    ⟨stepPart, 0, job, { sys with svc := { sys.svc with jobs := [(0, some job)] } }, by decide +kernel, by decide +kernel,
      by decide +kernel, by decide +kernel⟩,
    ⟨1, 0, 0, job, stepWin, { die with svc := { die.svc with jobs := [(0, some job)], wins := [stepWin] } }, by
      decide +kernel, by decide +kernel⟩,
    ⟨0, die, by decide +kernel⟩,
    ⟨1, { die with pkg := { die.pkg with head := some 0 } }, by decide +kernel, by decide +kernel⟩,
    ⟨0, [], { die with svc := { die.svc with checkAt := [0] } }, by decide +kernel⟩,
    ⟨cmd, die, by decide +kernel, by decide +kernel⟩,
    ⟨{ kind := 0, inputs := [], result := 0, at' := 0 }, [],
      { die with now := us, rot := { die.rot with verify := [{ kind := 0, inputs := [], result := 0, at' := 0 }] } }, by
      decide +kernel, by decide +kernel⟩⟩

theorem test_meets_PowerChangesCommitByHandshake :
    (∃ (s : State), s.isDie = true ∧ bit (s.reg hpPage 0x44) 0 = true ∧ s.hpwr.forced = false ∧ s.snuff.state ≠ .cut ∧
      s.hpwr.decidedAt + max 1 (s.regFld hpPage 0x54 16 16) * us ≤ s.samp.grid.lastClose) ∧
    (∃ (r : Running) (c : Nat) (f : Nat) (s : State), s.chanOpen (.converter .pwr 0) = true ∧ s.hpwr.running = some r ∧
      r.doing = .fc c f) ∧
    (∃ (r : Running) (s : State), s.hpwr.running = some r ∧ r.doing = .go) ∧
    (∃ (u : Running) (r : Nat) (p : Nat) (s : State), s.hpwr.running = some u ∧ u.doing = .rail r p ∧ bit (s.rail r).cfg 31
      = true) ∧
    (∃ (u : Running) (r : Nat) (p : Nat) (s : State), s.hpwr.running = some u ∧ u.doing = .rail r p ∧ s.chanOpen
      (.converter .pwr 0) = true ∧ bit (s.rail r).cfg 31 = false ∧ u.abort = true ∧ s.hpwr.held = none ∧ (s.injTake hpPage
      0x10).1 = false) ∧
    (∃ (u : Running) (r : Nat) (p : Nat) (s : State), s.hpwr.running = some u ∧ u.doing = .rail r p ∧ bit (s.rail r).cfg 31
      = false) ∧
    (∃ (u : Running) (r : Nat) (p : Nat) (s : State), s.hpwr.running = some u ∧ u.doing = .rail r p ∧ bit (s.rail r).cfg 31
      = true ∧ u.abort = true ∧ s.hpwr.held = none) ∧
    (∃ (u : Running) (r : Nat) (p : Nat) (s : State), s.hpwr.running = some u ∧ u.doing = .rail r p ∧ u.abort = true ∧
      s.hpwr.held = none) ∧
    (∃ (s : State), s.isSystem = false) :=
  ⟨⟨({ die with samp := { die.samp with grid := { die.samp.grid with lastClose := 1000 * ms } } }).setReg hpPage 0x44 1,
      by decide +kernel, by decide +kernel, by decide +kernel, by decide +kernel, by decide +kernel⟩,
    ⟨running (.fc 0 0), 0, 0, { die with hpwr := { die.hpwr with running := some (running (.fc 0 0)) } }, by
      decide +kernel, by decide +kernel, by decide +kernel⟩,
    ⟨running .go, { die with hpwr := { die.hpwr with running := some (running (.go)) } }, by decide +kernel, by
      decide +kernel⟩,
    ⟨running (.rail 0 0), 0, 0, ({ die with hpwr := { die.hpwr with running := some (running (.rail 0 0)) } }).modRail 0
      fun r => { r with cfg := 0x80000000 }, by decide +kernel, by decide +kernel, by decide +kernel⟩,
    ⟨running (.rail 0 0), 0, 0, ({ die with hpwr := { die.hpwr with running := some (running (.rail 0 0)) } }), by
      decide +kernel, by decide +kernel, by decide +kernel, by decide +kernel, by decide +kernel, by decide +kernel, by
      decide +kernel⟩,
    ⟨running (.rail 0 0), 0, 0, ({ die with hpwr := { die.hpwr with running := some (running (.rail 0 0)) } }), by
      decide +kernel, by decide +kernel, by decide +kernel⟩,
    ⟨running (.rail 0 0), 0, 0, ({ die with hpwr := { die.hpwr with running := some (running (.rail 0 0)) } }).modRail 0
      fun r => { r with cfg := 0x80000000 }, by decide +kernel, by decide +kernel, by decide +kernel, by decide +kernel, by
      decide +kernel⟩,
    ⟨running (.rail 0 0), 0, 0, ({ die with hpwr := { die.hpwr with running := some (running (.rail 0 0)) } }), by
      decide +kernel, by decide +kernel, by decide +kernel, by decide +kernel⟩,
    ⟨die, by decide +kernel⟩⟩

theorem test_meets_DroopsSensorsAndWaves :
    (∃ (r : BitVec 4) (half : Nat) (s : State), s.isDie = true ∧ (s.droop r.toNat).on = false ∧ (s.droop r.toNat).halves ≠
      [] ∧ nominal (s.droop r.toNat) * s.regFld hpPage 0x68 20 12 * 1000 < half * 65536 * 256) ∧
    (∃ (r : BitVec 4) (s : State) (h : FT), (s.droop r.toNat).hold = some h) ∧
    (∃ (r : BitVec 4) (s : State), (s.droop r.toNat).on = true) ∧
    (∃ (ch : BitVec 6) (s : State), s.isSystem = false ∧ ch.toNat < s.nChannels) ∧
    (∃ (ch : BitVec 6) (s : State), s.isSystem = false ∧ (s.sensor ch.toNat).raw.isSome ∧ 16 ≤ (s.sensor ch.toNat).ticks) ∧
    (∃ (c : CmdIn) (s : State), s.takes c .firmware = true ∧ s.isDie = true) ∧
    (∃ (c : CmdIn) (s : State), s.takes c .operator = true) :=
  ⟨⟨0, 10 ^ 18, die.modDroop 0 fun r => { r with halves := [1] }, by decide +kernel, by decide +kernel, by
      decide +kernel, by decide +kernel⟩,
    ⟨0, die.modDroop 0 fun r => { r with hold := some 0 }, 0, by decide +kernel⟩,
    ⟨0, die.modDroop 0 fun r => { r with on := true }, by decide +kernel⟩,
    ⟨0, die, by decide +kernel, by decide +kernel⟩,
    ⟨0, { die with hpwr := { die.hpwr with sensors := [(0, { raw := some 0, ticks := 16, quiet := false })] } }, by
      decide +kernel, by decide +kernel, by decide +kernel⟩,
    ⟨cmd, die, by decide +kernel, by decide +kernel⟩,
    ⟨cmd, die, by decide +kernel⟩⟩

theorem test_meets_IdleTimersEntriesAndWakes :
    (∃ (s : State), s.bpwr.state = .doze ∧ bit (s.reg bpPage 0x44) 30 = true ∧ s.jobs = [] ∧ s.time.evts = [] ∧ s.isHead =
      false) ∧
    (∃ (c : CmdIn) (s : State), s.takes c .firmware = true) ∧
    (∃ (s : State), s.bpwr.entry = none) ∧
    (∃ (e : Entry) (s : State) (sub : Nat) (r : Nat), s.bpwr.entry = some e ∧ (e.delays.any fun d => decide (d.1 = sub)) =
      true ∧ s.answerOf (e.pkg, e.page) e.target sub = .refuse r) ∧
    (∃ (e : Entry) (s : State), s.bpwr.entry = some e) ∧
    (∃ (s : State), s.bpwr.state ≠ .exiting) ∧
    (∃ (s : State), s.bpwr.state = .exiting ∧ s.bpwr.under = none ∧ s.regFld bpPage 0x54 28 4 = 2) ∧
    (∃ (s : State), s.bpwr.state = .run) ∧
    (∃ (s : State), s.bpwr.state = .doze) ∧
    (∃ (s : State) (e : FT), s.firstEvent = some e ∧ s.bpwr.state = .doze ∧ bit (s.reg bpPage 0x4C) 28 = true) ∧
    (∃ (s : State), s.bpwr.state = .ember ∧ (s.reg bpPage 0x50).toNat ≠ 0) ∧
    (∃ (s : State), s.bpwr.state = .doze ∧ bit (s.reg bpPage 0x44) 29 = true ∧ s.samp.grid.epochNo % max 1 (s.regFld bpPage
      0x44 16 8) = 0 ∧ s.bpwr.wickAt ≠ s.samp.grid.epochNo + 1) ∧
    (∃ (c : CmdIn) (s : State), s.takes c .operator = true) :=
  ⟨⟨({ die with bpwr := { die.bpwr with state := .doze } }).setReg bpPage 0x44 0x40000000, by decide +kernel, by
      decide +kernel, by decide +kernel, by decide +kernel, by decide +kernel⟩,
    ⟨cmd, die, by decide +kernel⟩,
    ⟨die, by decide +kernel⟩,
    ⟨{ target := 2, pkg := false, page := 0, start := 0, delays := [(10, 1)], last := 0 },
      { { die with bpwr := { die.bpwr with entry := some { target := 2, pkg := false, page := 0, start := 0, delays := [(10, 1)], last := 0 } } } with snuff := { die.snuff with state := .cut } },
      10, 8, by decide +kernel, by decide +kernel, by decide +kernel⟩,
    ⟨{ target := 2, pkg := false, page := 0, start := 0, delays := [(10, 1)], last := 0 },
      { die with bpwr := { die.bpwr with entry := some { target := 2, pkg := false, page := 0, start := 0, delays := [(10, 1)], last := 0 } } },
      by decide +kernel⟩,
    ⟨die, by decide +kernel⟩,
    ⟨({ die with bpwr := { die.bpwr with state := .exiting } }).setReg bpPage 0x54 0x20000000, by decide +kernel, by
      decide +kernel, by decide +kernel⟩,
    ⟨die, by decide +kernel⟩,
    ⟨{ die with bpwr := { die.bpwr with state := .doze } }, by decide +kernel⟩,
    ⟨{ { die with bpwr := { die.bpwr with state := .doze } } with time := { die.time with evts := [{ kind := .wave, t := 0, key := 0 }] } }.setReg
      bpPage 0x4C 0x10000000, 0, by decide +kernel, by decide +kernel, by decide +kernel⟩,
    ⟨({ die with bpwr := { die.bpwr with state := .ember } }).setReg bpPage 0x50 1, by decide +kernel, by decide +kernel⟩,
    ⟨({ die with bpwr := { die.bpwr with state := .doze } }).setReg bpPage 0x44 0x20000000, by decide +kernel, by
      decide +kernel, by decide +kernel, by decide +kernel⟩,
    ⟨cmd, die, by decide +kernel⟩⟩

theorem test_meets_RailsPinsAndResets :
    (∃ (r : Rail) (s : State), bit s.bpwr.pg r.bit = true) ∧
    (∃ (r : Rail) (s : State), bit s.bpwr.pg r.bit = false) ∧
    (∃ (s : State), s.rot.resetDue.isSome ∧ s.dark = false) ∧
    (∃ (c : CmdIn) (s : State), s.takes c .firmware = true) ∧
    (∃ (s : State), s.resetFree = true ∧ (s.orders 0 ≠ [] ∨ s.rot.warmDue = true)) ∧
    (∃ (s : State), s.resetFree = true ∧ s.isDie = true ∧ (s.isHead = false ∨ s.orders 1 ≠ [])) ∧
    (∃ (r : BitVec 4) (s : State), s.isDie = true ∧ s.resetFree = true ∧ (s.region r.toNat).inReset = false) ∧
    (∃ (r : BitVec 4) (s : State), (s.region r.toNat).inReset = true) ∧
    (∃ (r : BitVec 4) (s : State), (s.region r.toNat).inReset = false) ∧
    (∃ (tag : Nat) (x : HmTag) (s : State), s.hmTag tag = some x ∧ x.dead = false) ∧
    (∃ (s : State), (s.bpwr.under = some .warm ∨ s.bpwr.under = some .package)) :=
  ⟨⟨.vddk, die, by decide +kernel⟩,
    ⟨.vddk, { die with bpwr := { die.bpwr with pg := 0 } }, by decide +kernel⟩,
    ⟨{ die with rot := { die.rot with resetDue := some 2 } }, by decide +kernel, by decide +kernel⟩,
    ⟨cmd, die, by decide +kernel⟩,
    ⟨{ die with rot := { die.rot with warmDue := true } }, by decide +kernel, by decide +kernel⟩,
    ⟨die, by decide +kernel, by decide +kernel, by decide +kernel⟩,
    ⟨0, die, by decide +kernel, by decide +kernel, by decide +kernel⟩,
    ⟨0, die.modRegion 0 fun r => { r with inReset := true }, by decide +kernel⟩,
    ⟨0, die, by decide +kernel⟩,
    ⟨0, hmTag, { die with pages := { die.pages with hmTags := [(0, some hmTag)] } }, by decide +kernel, by decide +kernel⟩,
    ⟨{ die with bpwr := { die.bpwr with under := some .warm } }, by decide +kernel⟩⟩

theorem test_meets_RecordsAreKeptReadAndCleared :
    (∃ (s : State), s.fum.waiting = []) ∧
    (∃ (r : LogRec) (s : State), grantRec s.fum.waiting = some r ∧ (s.injTake fumPage 0x10).1 = false) ∧
    (∃ (b : List Byte) (s : State), 28 ≤ recordLen b ∧ recordLen b ≤ 256 ∧ recordLen b % 4 = 0 ∧ b.length = recordLen b ∧
      bit (s.reg fumPage 0x40) 27 = false) ∧
    (∃ (a : Access) (s : State), s.mayWrite a fumPage 0x60 ∧ (s.hdr fumPage).guard = none) ∧
    (∃ (u : ArrayUse) (w : BitVec 72) (v : BitVec 2) (s : State), eccRead (s.flipped u.page w).1 v = .clean) ∧
    (∃ (u : ArrayUse) (w : BitVec 72) (v : BitVec 2) (s : State), eccRead (s.flipped u.page w).1 v = .corrected) ∧
    (∃ (u : ArrayUse) (w : BitVec 72) (v : BitVec 2) (s : State), eccRead (s.flipped u.page w).1 v = .uncorrectable) ∧
    (∃ (c : CmdIn) (s : State), s.takes c .operator = true) ∧
    (∃ (c : CmdIn) (s : State), s.takes c .firmware = true) :=
  ⟨⟨die, by decide +kernel⟩,
    ⟨logRec, { die with fum := { die.fum with waiting := [logRec] } }, by decide +kernel, by decide +kernel⟩,
    ⟨leBytes 4 28 ++ zeros 24, die.setReg fumPage 0x40 0, by decide +kernel, by decide +kernel, by decide +kernel, by
      decide +kernel, by decide +kernel⟩,
    ⟨acc 0x58 0x60 true 0, die, may_write 0x58 (by decide +kernel) (by decide +kernel), by decide +kernel⟩,
    ⟨use 0x10, 0, 0, die, by decide +kernel⟩,
    ⟨use 0x10, 1, 3, die, by decide +kernel⟩,
    ⟨use 0x10, 0, 1, die, by decide +kernel⟩,
    ⟨cmd, die, by decide +kernel⟩,
    ⟨cmd, die, by decide +kernel⟩⟩

theorem test_meets_StateIsMirroredPulledAndRestored :
    (∃ (item : Nat) (s : State), (s.mirrors = false ∨ item < 1 ∨ 9 < item ∨ (s.fum.full.contains item = false ∧ Tab.read
      natZero s.fum.gens item = Tab.read natZero s.fum.sent item))) ∧
    (∃ (item : Nat) (s : State), s.mirrors = true ∧ 1 ≤ item ∧ item ≤ 9 ∧ (s.fum.full.contains item = true ∨ Tab.read
      natZero s.fum.gens item ≠ Tab.read natZero s.fum.sent item)) ∧
    (∃ (c : CmdIn) (s : State), s.takes c .firmware = true) ∧
    (∃ (c : CmdIn) (s : State), s.takes c .firmware = true ∧ bit (argW c s 4) 0 = false) ∧
    (∃ (c : CmdIn) (s : State), s.takes c .operator = true) :=
  ⟨⟨0, die, by decide +kernel⟩,
    ⟨1, { die.setReg (pg 0x58) 0x78 0x80000000 with fum := { die.fum with peer := some 1, full := [1] } }, by
      decide +kernel, by decide +kernel, by decide +kernel, by decide +kernel⟩,
    ⟨cmd, die, by decide +kernel⟩,
    ⟨cmd, die, by decide +kernel, by decide +kernel⟩,
    ⟨cmd, die, by decide +kernel⟩⟩

theorem test_meets_TraceSessionsTriggersAndMarks :
    (∃ (s : State), s.bpwr.state = .doze ∧ (∀ r < 4, (s.tring r).wait = none)) ∧
    (∃ (q : TPacket) (s : State), (s.trace.staged.find? fun p => !s.stalled p) = some q ∧ (∀ r < 4, (s.tring r).wait =
      none)) ∧
    (∃ (ring : Nat) (p : TPacket) (since : FT) (s : State), ring < 4 ∧ (s.tring ring).wait = some (p, since)) ∧
    (∃ (s : State), s.trace.startDue = true) ∧
    (∃ (s : State), s.trace.stopDue = true) ∧
    (∃ (line : BitVec 2) (s : State), s.trace.outDue.contains line.toNat = true ∧ s.bpwr.state ≠ .doze) ∧
    (∃ (line : BitVec 2) (s : State), Tab.read natZero s.trace.outEnd line.toNat ≠ 0) ∧
    (∃ (c : CmdIn) (s : State), s.takes c .firmware = true) ∧
    (∃ (c : CmdIn) (s : State), s.takes c .tenant = true) :=
  ⟨⟨{ die with bpwr := { die.bpwr with state := .doze } }, by decide +kernel, by decide +kernel⟩,
    ⟨packet, { die with trace := { die.trace with staged := [packet] } }, by decide +kernel, by decide +kernel⟩,
    ⟨0, packet, 0,
      { die with trace := { die.trace with rings := [(0, { base := none, since := 0, lost := 0, why := 0, owed := none, node := none, wait := some (packet, 0) })] } },
      by decide +kernel, by decide +kernel⟩,
    ⟨{ die with trace := { die.trace with startDue := true } }, by decide +kernel⟩,
    ⟨{ die with trace := { die.trace with stopDue := true } }, by decide +kernel⟩,
    ⟨0, { die with trace := { die.trace with outDue := [0] } }, by decide +kernel, by decide +kernel⟩,
    ⟨0, { die with trace := { die.trace with outEnd := [(0, 1)] } }, by decide +kernel⟩,
    ⟨cmd, die, by decide +kernel⟩,
    ⟨cmd, die, by decide +kernel⟩⟩

theorem test_meets_SnuffCutsClearsAndScans :
    (∃ (s : State), s.snuff.order = none ∧ s.snuff.trigs = []) ∧
    (∃ (g : SnuffTrig) (s : State), s.snuff.order = none ∧ firstTrig s.snuff.trigs = some g ∧ s.snuff.state ≠ .cut) ∧
    (∃ (p : Nat) (s : State), (s.probe p).stop.raised = (s.probe p).stop.ack) ∧
    (∃ (p : Nat) (s : State), (s.probe p).stop.raised = false ∧ (s.probe p).stop.ack = true ∧ s.chanOpen (.converter .probe
      p) = true) ∧
    (∃ (p : Nat) (s : State), s.present p = true ∧ (s.probe p).stop.raised = true ∧ (s.probe p).stop.ack = false ∧
      s.chanOpen (.converter .probe p) = true) ∧
    (∃ (t0 : FT) (s : State), s.snuff.clearAt = some t0 ∧ s.snuff.held = [] ∧ (s.waiters fun w => decide (w = .event 20 0))
      = []) ∧
    (∃ (c : CmdIn) (s : State), s.takes c .firmware = true) ∧
    (∃ (c : CmdIn) (s : State), s.takes c .operator = true) ∧
    (∃ (pkg : Bool) (page : BitVec 3) (p : Nat) (s : State), (s.cmd pkg page.toNat).busy = true ∧ (s.cmd pkg
      page.toNat).wait = .event 19 p) ∧
    (∃ (s : State), s.tapOff = false) ∧
    (∃ (s : State), s.tapOff = false ∧ s.isDie = false ∧ s.bpwr.state ≠ .ember) ∧
    (∃ (s : State), s.tapActs = true) ∧
    (∃ (s : State) (dr : BitVec 60), s.tapActs = true ∧ bit dr 59 = false) :=
  ⟨⟨die, by decide +kernel, by decide +kernel⟩,
    ⟨trig, { die with snuff := { die.snuff with trigs := [trig] } }, by decide +kernel, by decide +kernel, by
      decide +kernel⟩,
    ⟨0, die, by decide +kernel⟩,
    ⟨0, die.modProbe 0 fun x => { x with stop := { raised := false, ack := true, ticks := 0 } }, by decide +kernel, by
      decide +kernel, by decide +kernel⟩,
    ⟨0, die.modProbe 0 fun x => { x with stop := { raised := true, ack := false, ticks := 0 } }, by decide +kernel, by
      decide +kernel, by decide +kernel, by decide +kernel⟩,
    ⟨0, { die with snuff := { die.snuff with clearAt := some 0 } }, by decide +kernel, by decide +kernel, by
      decide +kernel⟩,
    ⟨cmd, die, by decide +kernel⟩,
    ⟨cmd, die, by decide +kernel⟩,
    ⟨false, 0, 0, die.setCmd false 0 { CmdPage.reset 0 with busy := true, wait := .event 19 0 }, by decide +kernel, by
      decide +kernel⟩,
    ⟨die, by decide +kernel⟩,
    ⟨sys, by decide +kernel, by decide +kernel, by decide +kernel⟩,
    ⟨die, by decide +kernel⟩,
    ⟨die, 0, by decide +kernel, by decide +kernel⟩⟩

theorem test_meets_RotBootsMeasuresAndCommits :
    (∃ (s : State), s.rot.state ≠ .boot) ∧
    (∃ (s : State), s.rot.state = .boot) ∧
    (∃ (q : MeasReq) (rest : List MeasReq) (s : State), s.rot.state ≠ .boot ∧ s.rot.queue = q :: rest) ∧
    (∃ (i : Nat) (rest : List Nat) (s : State), s.rot.rehash = i :: rest) ∧
    (∃ (s : State), s.rot.state ≠ .boot ∧ s.rot.fwAt + 1000 * ms ≤ s.now) ∧
    (∃ (a : Access) (s : State), s.mayWrite a rotPage 0x58 ∧ (s.hdr rotPage).guard = none) ∧
    (∃ (id : Word) (e : Session) (s : State), s.session id = some e ∧ e.last + 120000 * ms ≤ s.now) ∧
    (∃ (id : Word) (e : Session) (s : State), s.session id = some e ∧ s.now < e.last + 120000 * ms) ∧
    (∃ (p : Nat) (x : Share) (s : State), s.share p = some x ∧ x.at' + 1000 * ms ≤ s.now) ∧
    (∃ (p : Nat) (x : Share) (s : State), s.share p = some x ∧ s.now < x.at' + 1000 * ms) ∧
    (∃ (c : CmdIn) (s : State), s.takes c .operator = true) ∧
    (∃ (c : CmdIn) (s : State), s.takes c .firmware = true) :=
  ⟨⟨{ die with rot := { die.rot with state := .run } }, by decide +kernel⟩,
    ⟨die, by decide +kernel⟩,
    ⟨{ item := 2, digest := [], page := none }, [],
      { die with rot := { die.rot with state := .run, queue := [{ item := 2, digest := [], page := none }] } }, by
      decide +kernel, by decide +kernel⟩,
    ⟨2, [], { die with rot := { die.rot with rehash := [2] } }, by decide +kernel⟩,
    ⟨{ die with now := 1000 * ms, rot := { die.rot with state := .run } }, by decide +kernel, by decide +kernel⟩,
    ⟨acc 0x68 0x58 true 0, die, may_write 0x68 (by decide +kernel) (by decide +kernel), by decide +kernel⟩,
    ⟨0, session, { die with now := 120000 * ms, rot := { die.rot with sessions := [(0, some session)] } }, by
      decide +kernel, by decide +kernel⟩,
    ⟨0, session, { die with rot := { die.rot with sessions := [(0, some session)] } }, by decide +kernel, by
      decide +kernel⟩,
    ⟨0, share, { die with now := 1000 * ms, rot := { die.rot with shares := [(0, some share)] } }, by decide +kernel, by
      decide +kernel⟩,
    ⟨0, share, { die with rot := { die.rot with shares := [(0, some share)] } }, by decide +kernel, by decide +kernel⟩,
    ⟨cmd, die, by decide +kernel⟩,
    ⟨cmd, die, by decide +kernel⟩⟩

theorem test_meets_SpdmRequestsAreAnswered :
    (∃ (m : SpdmIn) (s : State), s.spdmHolds m = true ∧ m.session = none) ∧
    (∃ (m : SpdmIn) (s : State), s.spdmHolds m = true ∧ m.session = none ∧ s.rot.state ≠ .commit) ∧
    (∃ (m : SpdmIn) (s : State), s.spdmHolds m = true ∧ m.session = none ∧ s.rot.state ≠ .commit ∧ s.sessionCount < 4) ∧
    (∃ (m : SpdmIn) (s : State), s.spdmHolds m = true ∧ m.session = none ∧ s.rot.deferred = none) ∧
    (∃ (m : SpdmIn) (s : State) (token : Byte) (slot : Nat), s.spdmHolds m = true ∧ m.session = none ∧ s.rot.deferred =
      some (token, none, .challenge slot) ∧ s.rot.state ≠ .commit) ∧
    (∃ (m : SpdmIn) (id : Word) (e : Session) (s : State), s.spdmHolds m = true ∧ m.session = some id ∧ s.session id = some
      e ∧ e.done = false) ∧
    (∃ (m : SpdmIn) (id : Word) (e : Session) (s : State), s.spdmHolds m = true ∧ m.session = some id ∧ s.session id = some
      e ∧ e.done = true) ∧
    (∃ (m : SpdmIn) (id : Word) (e : Session) (s : State) (op : Nat), s.spdmHolds m = true ∧ m.session = some id ∧
      s.session id = some e ∧ e.done = true ∧ (op = 1 ∨ op = 2)) ∧
    (∃ (m : SpdmIn) (id : Word) (e : Session) (s : State) (l : List RegEntry), s.spdmHolds m = true ∧ m.session = some id ∧
      s.session id = some e ∧ e.done = true ∧ e.auth = true ∧ l ≠ [] ∧ l.length ≤ 32) ∧
    (∃ (m : SpdmIn) (id : Word) (e : Session) (s : State) (port : Nat), s.spdmHolds m = true ∧ m.session = some id ∧
      s.session id = some e ∧ e.done = true ∧ e.auth = true ∧ s.portStatus port = none) ∧
    (∃ (m : SpdmIn) (id : Word) (e : Session) (s : State) (port : Nat) (k : LinkAgreed), s.spdmHolds m = true ∧ m.session =
      some id ∧ s.session id = some e ∧ e.done = true ∧ e.auth = true ∧ s.portStatus port = none ∧ Tab.read noAgreed
      s.rot.agreed port = some k ∧ (s.chan port).rxKey.isSome) ∧
    (∃ (m : SpdmIn) (id : Word) (e : Session) (s : State) (port : Nat) (x : Share), s.spdmHolds m = true ∧ m.session = some
      id ∧ s.session id = some e ∧ e.done = true ∧ e.auth = true ∧ s.portStatus port = none ∧ s.share port = some x) ∧
    (∃ (m : SpdmIn) (id : Word) (e : Session) (s : State), s.spdmHolds m = true ∧ m.session = some id ∧ s.session id = some
      e ∧ e.done = true ∧ e.auth = true) ∧
    (∃ (m : SpdmIn) (id : Word) (e : Session) (s : State), s.spdmHolds m = true ∧ m.session = some id ∧ s.session id = some
      e ∧ (e.done = false ∨ e.auth = false)) :=
  ⟨⟨spdm, die.setCmd false 0 { CmdPage.reset 0 with busy := true, wait := .event 23 0 }, by decide +kernel, by
      decide +kernel⟩,
    ⟨spdm, die.setCmd false 0 { CmdPage.reset 0 with busy := true, wait := .event 23 0 }, by decide +kernel, by
      decide +kernel, by decide +kernel⟩,
    ⟨spdm, die.setCmd false 0 { CmdPage.reset 0 with busy := true, wait := .event 23 0 }, by decide +kernel, by
      decide +kernel, by decide +kernel, by decide +kernel⟩,
    ⟨spdm, die.setCmd false 0 { CmdPage.reset 0 with busy := true, wait := .event 23 0 }, by decide +kernel, by
      decide +kernel, by decide +kernel⟩,
    ⟨spdm,
      { die.setCmd false 0 { CmdPage.reset 0 with busy := true, wait := .event 23 0 } with rot := { die.rot with deferred := some (0, none, .challenge 0) } },
      0, 0, by decide +kernel, by decide +kernel, by decide +kernel, by decide +kernel⟩,
    ⟨{ spdm with session := some 0 }, 0, { session with done := false },
      { die.setCmd false 0 { CmdPage.reset 0 with busy := true, wait := .event 23 0 } with rot := { die.rot with sessions := [(0, some { session with done := false })] } },
      by decide +kernel, by decide +kernel, by decide +kernel, by decide +kernel⟩,
    ⟨{ spdm with session := some 0 }, 0, session,
      { die.setCmd false 0 { CmdPage.reset 0 with busy := true, wait := .event 23 0 } with rot := { die.rot with sessions := [(0, some session)] } },
      by decide +kernel, by decide +kernel, by decide +kernel, by decide +kernel⟩,
    ⟨{ spdm with session := some 0 }, 0, session,
      { die.setCmd false 0 { CmdPage.reset 0 with busy := true, wait := .event 23 0 } with rot := { die.rot with sessions := [(0, some session)] } },
      1, by decide +kernel, by decide +kernel, by decide +kernel, by decide +kernel, by decide +kernel⟩,
    ⟨{ spdm with session := some 0 }, 0, session,
      { die.setCmd false 0 { CmdPage.reset 0 with busy := true, wait := .event 23 0 } with rot := { die.rot with sessions := [(0, some session)] } },
      [{ addr := 0, data := 0, wr := false }], by decide +kernel, by decide +kernel, by decide +kernel, by decide +kernel,
      by decide +kernel, by decide +kernel, by decide +kernel⟩,
    ⟨{ spdm with session := some 0 }, 0, session,
      { die.setCmd false 0 { CmdPage.reset 0 with busy := true, wait := .event 23 0 } with rot := { die.rot with sessions := [(0, some session)] } },
      0, by decide +kernel, by decide +kernel, by decide +kernel, by decide +kernel, by decide +kernel, by decide +kernel⟩,
    ⟨{ spdm with session := some 0 }, 0, session,
      (({ die.setCmd false 0 { CmdPage.reset 0 with busy := true, wait := .event 23 0 } with rot := { die.rot with sessions := [(0, some session)], agreed := [(0, some { key := [], salt := [], peer := 0 })] } }).modChan
      0 fun x => { x with rxKey := some { key := [], salt := [], ctr := 0 } }), 0, { key := [], salt := [], peer := 0 }, by
      decide +kernel, by decide +kernel, by decide +kernel, by decide +kernel, by decide +kernel, by decide +kernel, by
      decide +kernel, by decide +kernel⟩,
    ⟨{ spdm with session := some 0 }, 0, session,
      { die.setCmd false 0 { CmdPage.reset 0 with busy := true, wait := .event 23 0 } with rot := { die.rot with sessions := [(0, some session)], shares := [(0, some share)] } },
      0, share, by decide +kernel, by decide +kernel, by decide +kernel, by decide +kernel, by decide +kernel, by
      decide +kernel, by decide +kernel⟩,
    ⟨{ spdm with session := some 0 }, 0, session,
      { die.setCmd false 0 { CmdPage.reset 0 with busy := true, wait := .event 23 0 } with rot := { die.rot with sessions := [(0, some session)] } },
      by decide +kernel, by decide +kernel, by decide +kernel, by decide +kernel, by decide +kernel⟩,
    ⟨{ spdm with session := some 0 }, 0, { session with done := false },
      { die.setCmd false 0 { CmdPage.reset 0 with busy := true, wait := .event 23 0 } with rot := { die.rot with sessions := [(0, some { session with done := false })] } },
      by decide +kernel, by decide +kernel, by decide +kernel, by decide +kernel⟩⟩

theorem test_meets_HostAnswersAndModuleSignals :
    (∃ (tag : Nat) (s : State), s.hmTag tag = none) ∧
    (∃ (tag : Nat) (x : HmTag) (s : State), s.hmTag tag = some x ∧ x.dead = false ∧ x.again = none ∧ s.staleReply x = none
      ∧ x.retries < 8 ∧ s.chanOpen (.converter .host 1) = true) ∧
    (∃ (tag : Nat) (x : HmTag) (s : State), s.hmTag tag = some x ∧ x.dead = false ∧ x.again = none ∧ s.staleReply x = none
      ∧ x.wr = false ∧ x.beats + 1 < hmBeats x ∧ s.chanOpen (.converter .host 1) = true) ∧
    (∃ (tag : Nat) (x : HmTag) (at' : FT) (s : State), s.hmTag tag = some x ∧ x.again = some at') ∧
    (∃ (s : State), s.isSystem = true) ∧
    (∃ (s : State), s.isSystem = true ∧ s.dark = false) ∧
    (∃ (s : State), s.isSystem = true ∧ s.board.present = false) ∧
    (∃ (s : State), s.isSystem = true ∧ s.board.eject = false) :=
  ⟨⟨0, die, by decide +kernel⟩,
    ⟨0, hmTag, { die with pages := { die.pages with hmTags := [(0, some hmTag)] } }, by decide +kernel, by decide +kernel,
      by decide +kernel, by decide +kernel, by decide +kernel, by decide +kernel⟩,
    ⟨0, hmTag, { die with pages := { die.pages with hmTags := [(0, some hmTag)] } }, by decide +kernel, by decide +kernel,
      by decide +kernel, by decide +kernel, by decide +kernel, by decide +kernel, by decide +kernel⟩,
    ⟨0, { hmTag with again := some 0 }, 0,
      { die with pages := { die.pages with hmTags := [(0, some { hmTag with again := some 0 })] } }, by decide +kernel, by
      decide +kernel⟩,
    ⟨sys, by decide +kernel⟩,
    ⟨sys, by decide +kernel, by decide +kernel⟩,
    ⟨{ sys with board := { sys.board with present := false } }, by decide +kernel, by decide +kernel⟩,
    ⟨sys, by decide +kernel, by decide +kernel⟩⟩

/-! ### Small steps, with values taken from the manual -/

/-- What a step leaves, checked. -/
def after (o : Host.Outcome State Fault Refusal) (p : State → Bool) : Bool :=
  match o with
  | .next t => p t
  | _ => false

theorem test_nop_is_done : after (exec (.nop cmd) die) (fun t => (t.cmd false 0).done && decide ((t.cmd false 0).status = stOk)) = true := by
  decide +kernel
theorem test_tenant_cannot_set_epoch : after (exec (.setEpoch { cmd with req := { req with priv := 0 } }) die)
    (fun t => decide (t.samp = die.samp)) = true := by decide +kernel
theorem test_hsto_clamps_to_8 : after (exec (.paceHstoWrite (acc 1 0x44 true 15)) die)
    (fun t => decide (t.reg (pg 0x02) 0x44 = 8)) = true := by decide +kernel
theorem test_ring_size_clamps_to_12 : after (exec (.ringSizeWrite (acc 0x28 0xB8 true 1)) die)
    (fun t => decide (t.reg (pg 0x28) 0xB8 = 12)) = true := by decide +kernel
theorem test_guard_arms_and_changes_nothing : after (exec (.guardArm (acc 0x31 0x2C true 1)) die)
    (fun t => (t.hdr (pg 0x31)).guard.isSome && decide (t.reg (pg 0x31) 0x2C = die.reg (pg 0x31) 0x2C)) = true := by decide +kernel
theorem test_package_of_one_elects_itself : after (exec (.headElection []) die)
    (fun t => decide (t.pkg.elected = true)) = true := by decide +kernel
theorem test_edge_counts_once : after (exec (.unitEdge 5 .busy 0 0 true) die)
    (fun t => decide ((t.probe 5).ustate = .busy) && decide (t.probe 4 = die.probe 4)) = true := by decide +kernel
theorem test_bypass_is_one_bit : after (exec (.bypass [true, true]) die)
    (fun t => t.out.contains (.tdo 2 2)) = true := by decide +kernel
theorem test_misaligned_read_is_error : after (exec (.registerWrite { acc 0x31 0x42 true 0 with req := { req with port := .host, priv := 2 } }) die)
    (fun t => t.out.contains (.response 0 .error 0)) = true := by decide +kernel

end Sys2Proof.Tests
end

section
/-!
O12 (R4, R61, R67). The statement's first clause speaks of every register row of TYPE 0x31, and the row table of that page has 40
port blocks. A die holds 9 of them: at the offset of an absent one the page implements nothing, so by R61 the write is
answered OK and ignored, and the RW bits of the row do not take it.
-/
namespace Sys2Proof.Machine

/-! ### Writes at a port block that the TPORT page does not hold (R61) -/

section AbsentPort
variable {s : State} {key off : Nat} {w : Word}

theorem writeWord_of_absentBlock (hk : keyType key = 0x31) (hs : keyScope key = 0)
    (hb : s.absentBlock (keyInst key) off = true) : s.writeWord key off w = s := by
  have hr : ringOf key off = none := by simp [ringOf, hk]
  simp [State.writeWord, hk, hs, hr, hb]

/-- The write counts as a change of the configuration (R431), and stores nothing. -/
theorem writeReg_reg_of_absentBlock (hk : keyType key = 0x31) (hs : keyScope key = 0) (ha : isAon key off = false)
    (hw : wideAt (keyType key) off = none) (hb : s.absentBlock (keyInst key) off = true) (p o : Nat) :
    (s.writeReg key off w).2.reg p o = s.reg p o := by
  have hy : ∀ u : State, u.writeBusy key off = false := fun u => by simp [State.writeBusy, hk, hs]
  unfold State.writeReg
  split
  · simp [hy, ha, hw, writeWord_of_absentBlock hk hs hb]
  · have hb' : (s.touchItem 0x09).absentBlock (keyInst key) off = true := hb
    simp only [hy, ha, hw, writeWord_of_absentBlock hk hs hb', Bool.false_eq_true, if_false]
    rfl

/-- With no latch armed, a write to an unguarded word of TPORT goes straight to the word. -/
theorem freshWrite_eq_writeReg {q : Req} (hk : keyType key = 0x31) (h4 : 0x40 ≤ off) (h8 : off < 0x800)
    (hg : guardedAt key off = false) : s.freshWrite key off q w = s.writeReg key off w := by
  have hd : dataWindow key off = none := by simp [dataWindow, hk]
  simp [State.freshWrite, State.plainWrite, hk, hd, hg, show ¬ 0x800 ≤ off by omega, show ¬ off < 0x40 by omega]

/-- However its page answers it, no register changes. -/
theorem registerWrite_reg_of_absentBlock {a : Access} {t : State} (hm : s.mayWrite a key off) (hl : (s.hdr key).guard = none)
    (hk : keyType key = 0x31) (hs : keyScope key = 0) (h4 : 0x40 ≤ off) (h8 : off < 0x800) (hg : guardedAt key off = false)
    (ha : isAon key off = false) (hw : wideAt (keyType key) off = none) (hb : s.absentBlock (keyInst key) off = true)
    (ht : exec (.registerWrite a) s = .next t) (p o : Nat) : t.reg p o = s.reg p o := by
  have he : exec (.registerWrite a) s = .next (s.access a).settle := rfl
  rw [he] at ht
  injection ht with ht
  have hb' : s.busyNow.absentBlock (keyInst key) off = true := hb
  have hkeep : ∀ (u : State) (c : Bool), (if c then u.setErr key errAccess else u).reg p o = u.reg p o := fun u c => by
    cases c <;> rfl
  rw [← ht, settle_reg, access_fresh hm hl, freshWrite_eq_writeReg hk h4 h8 hg, respond_reg, hkeep,
    writeReg_reg_of_absentBlock hk hs ha hw hb', busyNow_regAt]

end AbsentPort

/-! ### The counterexample -/

/-- All ones, written at tag ROT to KX_TPORT_INGRESS of port 9, the first that a die does not have. -/
def absentPortWrite : Access :=
  { addr := 0x31344, be := 0xF, wr := true, data := 0xFFFFFFFF, req := { port := .rot, priv := 3, job := 0, rid := 0 } }

theorem reset_reaches_absentPort : State.reset.reaches absentPortWrite (pg 0x31) 0x344 :=
  ⟨by decide +kernel, by decide +kernel, by decide +kernel, ⟨0x31, by decide +kernel, by decide +kernel⟩, by decide +kernel,
    by decide +kernel⟩

theorem reset_mayWrite_absentPort : State.reset.mayWrite absentPortWrite (pg 0x31) 0x344 :=
  ⟨reset_reaches_absentPort, by decide +kernel, by decide +kernel, by decide +kernel, by decide +kernel, by decide +kernel⟩

/-- Refutes O12: on a die after reset the write to the absent port 9 passes its page, and bit 0 of KX_TPORT_INGRESS, an RW bit of
the row, is written 1 and stays 0. -/
theorem not_registerWritesChangeTheirOwnBits : ¬ Obligations.RegisterWritesChangeTheirOwnBits := by
  unfold Obligations.RegisterWritesChangeTheirOwnBits
  rintro ⟨hpass, -, -⟩
  have hlatch : (State.reset.hdr (pg 0x31)).guard = none := by decide +kernel
  have hguard : guardedAt (pg 0x31) 0x344 = false := by decide +kernel
  have haon : isAon (pg 0x31) 0x344 = false := by decide +kernel
  have hwide : wideAt (keyType (pg 0x31)) 0x344 = none := by decide +kernel
  have habsent : State.reset.absentBlock (keyInst (pg 0x31)) 0x344 = true := by decide +kernel
  obtain ⟨t, ht, -, -, -, hbits⟩ := hpass absentPortWrite State.reset (pg 0x31) 0x344 (by decide) (by decide) (by decide)
    (by decide) reset_mayWrite_absentPort hlatch hguard haon hwide
  have hkept : t.reg (pg 0x31) 0x344 = State.reset.reg (pg 0x31) 0x344 :=
    registerWrite_reg_of_absentBlock reset_mayWrite_absentPort hlatch (by decide) (by decide) (by decide) (by decide) hguard haon
      hwide habsent ht _ _
  have hold : bit (State.reset.reg (pg 0x31) 0x344) 0 = false := by decide +kernel
  have hrw : bit (writeMasks (pg 0x31) 0x344).1 0 = true := by decide +kernel
  have hdata : bit absentPortWrite.data 0 = true := by decide
  have h0 := hbits 0 (by decide)
  rw [hkept, hold, if_pos hrw, hdata] at h0
  cases h0

end Sys2Proof.Machine
end

section
/-!
O5, O6, O7 and O14 (R11 to R17, R64, R87): the election and the loss of the head, the concentrators, and the requests that travel
to another node. What an operation leaves alone comes from its frame in the laws.
-/
namespace Sys2Proof.Machine

/-! ### What an operation keeps, from its frame -/

/-- An operation keeps every part that its frame's own list does not name. -/
theorem same_of_only (p : Part) {s t : State} {l : List Part} (h : names l l = true → s.onlyChanges s l → s.onlyChanges t l)
    (hp : ∀ q ∈ l, q.covers p = false) : p.same s t := only_start h p hp

/-- A fold keeps what each of its steps keeps. -/
theorem foldl_keeps {α β : Type} (f : State → β) {g : State → α → State} (hg : ∀ u a, f (g u a) = f u) (l : List α) (s : State) :
    f (l.foldl g s) = f s := by
  induction l generalizing s with
  | nil => rfl
  | cons a l ih => rw [List.foldl_cons, ih, hg]

@[simp] theorem log_pkg (s : State) (p i c v b a : Nat) (l : List Byte) : (s.log p i c v b a l).pkg = s.pkg :=
  same_of_only .pkg (fun hL ho => log_only hL ho) (by decide)

@[simp] theorem log_samp_clusters (s : State) (p i c v b a : Nat) (l : List Byte) :
    (s.log p i c v b a l).samp.clusters = s.samp.clusters :=
  same_of_only .clusters (fun hL ho => log_only hL ho) (by decide)

@[simp] theorem log_samp_regions (s : State) (p i c v b a : Nat) (l : List Byte) :
    (s.log p i c v b a l).samp.regions = s.samp.regions :=
  same_of_only .regions (fun hL ho => log_only hL ho) (by decide)

@[simp] theorem spareAdd_samp_clusters (s : State) (k c i d : Nat) : (s.spareAdd k c i d).samp.clusters = s.samp.clusters :=
  same_of_only .clusters (fun hL ho => spareAdd_only hL ho) (by decide)

@[simp] theorem spareAdd_samp_regions (s : State) (k c i d : Nat) : (s.spareAdd k c i d).samp.regions = s.samp.regions :=
  same_of_only .regions (fun hL ho => spareAdd_only hL ho) (by decide)

@[simp] theorem replaceTray_pkg (s : State) (p i b c : Nat) : (s.replaceTray p i b c).pkg = s.pkg :=
  same_of_only .pkg (fun hL ho => replaceTray_only hL ho) (by decide)

@[simp] theorem replaceTray_samp_clusters (s : State) (p i b c : Nat) : (s.replaceTray p i b c).samp.clusters = s.samp.clusters :=
  same_of_only .clusters (fun hL ho => replaceTray_only hL ho) (by decide)

@[simp] theorem replaceTray_samp_regions (s : State) (p i b c : Nat) : (s.replaceTray p i b c).samp.regions = s.samp.regions :=
  same_of_only .regions (fun hL ho => replaceTray_only hL ho) (by decide)

@[simp] theorem timeLinks_pkg (s : State) : s.timeLinks.pkg = s.pkg :=
  same_of_only .pkg (fun hL ho => timeLinks_only hL ho) (by decide)

@[simp] theorem peerCheck_pkg (s : State) : s.peerCheck.pkg = s.pkg :=
  same_of_only .pkg (fun hL ho => peerCheck_only hL ho) (by decide)

@[simp] theorem redFlush_pkg (s : State) : s.redFlush.pkg = s.pkg :=
  same_of_only .pkg (fun hL ho => redFlush_only hL ho) (by decide)

@[simp] theorem resendPartials_pkg (s : State) : s.resendPartials.pkg = s.pkg :=
  same_of_only .pkg (fun hL ho => resendPartials_only hL ho) (by decide)

@[simp] theorem stepRetry_pkg (s : State) : s.stepRetry.pkg = s.pkg :=
  same_of_only .pkg (fun hL ho => stepRetry_only hL ho) (by decide)

@[simp] theorem takeReplica_pkg (s : State) (n : BitVec 16) : (s.takeReplica n).pkg = s.pkg :=
  same_of_only .pkg (fun hL ho => takeReplica_only hL ho) (by decide)

@[simp] theorem bcastRepair_pkg (s : State) (p : Nat) : (s.bcastRepair p).pkg = s.pkg :=
  same_of_only .pkg (fun hL ho => bcastRepair_only hL ho) (by decide)

@[simp] theorem retryProxies_pkg (s : State) (p : Nat) : (s.retryProxies p).pkg = s.pkg :=
  same_of_only .pkg (fun hL ho => retryProxies_only hL ho) (by decide)

@[simp] theorem retryProxies_straps (s : State) (p : Nat) : (s.retryProxies p).straps = s.straps :=
  same_of_only .straps (fun hL ho => retryProxies_only hL ho) (by decide)

@[simp] theorem moveFrames_pkg (s : State) (p q : Nat) : (s.moveFrames p q).pkg = s.pkg :=
  same_of_only .pkg (fun hL ho => moveFrames_only hL ho) (by decide)

@[simp] theorem moveFrames_straps (s : State) (p q : Nat) : (s.moveFrames p q).straps = s.straps :=
  same_of_only .straps (fun hL ho => moveFrames_only hL ho) (by decide)

@[simp] theorem moveMbox_pkg (s : State) (p q : Nat) : (s.moveMbox p q).pkg = s.pkg := rfl
@[simp] theorem moveMbox_straps (s : State) (p q : Nat) : (s.moveMbox p q).straps = s.straps := rfl
@[simp] theorem pushCtl_pkg (s : State) (c : Nat) (m : LinkCtrl) : (s.pushCtl c m).pkg = s.pkg := rfl
@[simp] theorem portErr_pkg (s : State) (p b : Nat) : (s.portErr p b).pkg = s.pkg := rfl

/-! ### The lowest eligible die (R14 to R16) -/

/-- The die that is found is admitted and eligible, and no die below it is. -/
theorem lowestDie_eq_some {t : Tab Member} {alone : Bool} {p : Nat → Bool} {d : BitVec 3} (h : lowestDie t alone p = some d) :
    (p d.toNat && eligibleDie alone (Tab.read Member.none t d.toNat)) = true ∧
      ∀ j < d.toNat, (p j && eligibleDie alone (Tab.read Member.none t j)) = false := by
  obtain ⟨n, hn, rfl⟩ := Option.map_eq_some_iff.mp h
  obtain ⟨hok, hlt, hlow⟩ := List.find?_range_eq_some.mp hn
  have h8 : (BitVec.ofNat 3 n).toNat = n := by
    simp only [List.mem_range] at hlt
    simpa using hlt
  rw [h8]
  exact ⟨hok, fun j hj => (Bool.not_eq_true' _).mp (hlow j hj)⟩

/-- Where none is found, no die is both admitted and eligible. -/
theorem lowestDie_eq_none {t : Tab Member} {alone : Bool} {p : Nat → Bool} (h : lowestDie t alone p = none) :
    ∀ j < 8, (p j && eligibleDie alone (Tab.read Member.none t j)) = false :=
  fun j hj => (Bool.not_eq_true' _).mp (List.find?_range_eq_none.mp (Option.map_eq_none_iff.mp h) j hj)

/-! ### The election (R14, R15) -/

/-- A package of one, as the election tells it: no reports, and no package-link adapter active or up. -/
def State.aloneIn (s : State) (rs : List DieReport) : Bool :=
  decide (rs = []) && (List.range 7).all fun p => !(s.port p).active && !s.linkUp p

/-- What the election leaves of the package where no head was known: the members' table and its lowest eligible die. -/
theorem elect_pkg {s : State} (rs : List DieReport) (h : s.pkg.head = none) :
    (s.elect rs).pkg = { s.pkg with
      members := memberTable s.straps.dieIdx.toNat s.ownMember rs
      head := lowestDie (memberTable s.straps.dieIdx.toNat s.ownMember rs) (s.aloneIn rs) fun _ => true
      missed := 0, heard := true, elected := true } := by
  unfold State.elect
  rw [foldl_keeps State.pkg fun u x => complete_pkg u _ _ _ _]
  simp only [redFlush_pkg, peerCheck_pkg, timeLinks_pkg, h]
  split
  · rw [log_pkg]; rfl
  · rfl

/-- Settles O5: the election's only change to the package is its table and `lowestDie` of that table. -/
theorem electionTakesTheLowestEligibleDie : Obligations.ElectionTakesTheLowestEligibleDie := by
  unfold Obligations.ElectionTakesTheLowestEligibleDie
  intro reports s hdie hhead helected hawake
  have hx : exec (.headElection reports) s = .next (s.elect reports).settle := by
    show finish _ = _
    rw [if_pos ⟨hdie, helected, hawake⟩]; rfl
  refine ⟨_, hx, frame_of (execHeadElection_only reports s) hx, ?_⟩
  dsimp only
  rw [settle_pkg, elect_pkg reports hhead]
  constructor
  · intro d hd
    simpa [State.aloneIn] using lowestDie_eq_some hd
  · intro hn
    simpa [State.aloneIn] using lowestDie_eq_none hn

/-! ### The head's keepalive (R16) -/

/-- This node's keepalive on a link. -/
def State.keepalive (s : State) (p : Nat) : LinkCtrl := { s.linkCtrl0 p with ka := true }

theorem pushCtl_chan (s : State) (c p : Nat) (m : LinkCtrl) :
    (s.pushCtl c m).chan p = if p = c then { s.chan c with ctl := (s.chan c).ctl ++ [m] } else s.chan p :=
  Tab.read_modify Chan.reset s.links.chans c p fun x => { x with ctl := x.ctl ++ [m] }

/-- A keepalive on each listed link: one more message on these, and nothing on the others. -/
theorem keepalives_chan {l : List Nat} (hl : l.Nodup) (s : State) (p : Nat) :
    (l.foldl (fun u q => u.pushCtl q (u.keepalive q)) s).chan p =
      if p ∈ l then { s.chan p with ctl := (s.chan p).ctl ++ [s.keepalive p] } else s.chan p := by
  induction l generalizing s with
  | nil => simp
  | cons q l ih =>
    obtain ⟨hq, hl⟩ := List.nodup_cons.mp hl
    have hka : (s.pushCtl q (s.keepalive q)).keepalive p = s.keepalive p := rfl
    rw [List.foldl_cons, ih hl, hka, pushCtl_chan]
    by_cases hp : p = q
    · subst hp; simp [hq]
    · simp [hp]

theorem execHeadKeepaliveSend_eq {s : State} (h : s.isHead = true) : exec .headKeepaliveSend s =
    .next (((List.range 7).filter s.linkUp).foldl (fun u q => u.pushCtl q (u.keepalive q)) s).settle := by
  show finish _ = _
  rw [if_pos h]; rfl

@[simp] theorem settle_chan (s : State) (p : Nat) : s.settle.chan p = s.chan p := by rw [State.chan, settle_links]; rfl

/-! ### The loss of the head (R16, R17) -/

/-- The die that follows a lost head: the lowest other eligible one within reach. -/
def State.nextHead (s : State) (h : BitVec 3) : Option (BitVec 3) :=
  lowestDie s.pkg.members false fun d => decide (d ≠ h.toNat) &&
    (decide (d = s.straps.dieIdx.toNat) || s.linkUp (s.diePort d))

/-- The state without its head: the requests sent to it are answered RETRY, telemetry is STALE from the next epoch on, and the
lost die has no trained link. -/
def State.withoutHead (s : State) (h : BitVec 3) : State :=
  let u := s.retryProxies (s.diePort h.toNat)
  { u with pkg := { u.pkg with
    stale := true
    gap := some (u.samp.grid.epochNo + 1)
    members := Tab.modify Member.none u.pkg.members h.toNat fun m => { m with trained := false } } }

theorem headLost_of_none {s : State} {h : BitVec 3} (e : s.nextHead h = none) :
    s.headLost h = { s.withoutHead h with pkg := { (s.withoutHead h).pkg with head := none, missed := 0 } } := by
  unfold State.nextHead at e
  unfold State.headLost
  simp only [e]
  rfl

/-- This die hub becomes head, or the follower's port leads to the parent from now on. -/
theorem headLost_of_some {s : State} {h d : BitVec 3} (e : s.nextHead h = some d) :
    s.headLost h =
      if d = (s.withoutHead h).straps.dieIdx then
        ((s.withoutHead h).becomeHead h).replaceTray 0x38 (s.diePort h.toNat)
          (nodeOf 0 (s.withoutHead h).links.tray (s.withoutHead h).links.down h.toNat).toNat 4
      else if (s.withoutHead h).linkUp ((s.withoutHead h).diePort d.toNat) then
        (s.withoutHead h).parentChange ((s.withoutHead h).diePort d.toNat)
      else { s.withoutHead h with pkg := { (s.withoutHead h).pkg with head := some d, missed := 0 } } := by
  unfold State.nextHead at e
  unfold State.headLost
  simp only [e]
  rfl

@[simp] theorem withoutHead_straps (s : State) (h : BitVec 3) : (s.withoutHead h).straps = s.straps :=
  retryProxies_straps s _

@[simp] theorem withoutHead_pkg_head (s : State) (h : BitVec 3) : (s.withoutHead h).pkg.head = s.pkg.head := by
  show (s.retryProxies _).pkg.head = _
  rw [retryProxies_pkg]

@[simp] theorem withoutHead_pkg_stale (s : State) (h : BitVec 3) : (s.withoutHead h).pkg.stale = true := rfl

/-- Ports to different dies of the package are different. -/
theorem diePort_ne {s : State} {d h : Nat} (hd : d ≠ s.straps.dieIdx.toNat) (hh : h ≠ s.straps.dieIdx.toNat) (hne : h ≠ d) :
    s.diePort h ≠ s.diePort d := by
  unfold State.diePort
  split_ifs <;> omega

/-- The port to another die leads to that die. -/
theorem portDie_diePort {s : State} {d : Nat} (hd : d ≠ s.straps.dieIdx.toNat) : s.portDie (s.diePort d) = d := by
  unfold State.portDie State.diePort
  split_ifs <;> omega

theorem isSystem_of_isDie {s : State} (h : s.isDie = true) : s.isSystem = false := by
  simp_all [State.isDie, State.isSystem]

theorem isHead_of_other {s : State} {h : BitVec 3} (hh : s.pkg.head = some h) (hne : h ≠ s.straps.dieIdx) : s.isHead = false := by
  simp [State.isHead, hh, hne]

/-- A member's parent stands behind its port to the head. -/
theorem parentPort_of_member {s : State} {h : BitVec 3} (hd : s.isDie = true) (hh : s.pkg.head = some h)
    (hne : h ≠ s.straps.dieIdx) : s.parentPort = some (s.diePort h.toNat) := by
  simp [State.parentPort, State.route, isSystem_of_isDie hd, isHead_of_other hh hne, hh]

/-- A member that takes another port as its parent's has the die behind it as head. -/
theorem setParent_pkg_of_member {s : State} (hs : s.isSystem = false) (hh : s.isHead = false) (q : Nat) :
    (s.setParent q).pkg = { s.pkg with head := some (BitVec.ofNat 3 (s.portDie q)), missed := 0, heard := true } := by
  simp [State.setParent, hs, hh]

theorem parentChange_pkg_of_member {s : State} {h : BitVec 3} {q : Nat} (hd : s.isDie = true) (hh : s.pkg.head = some h)
    (hne : h ≠ s.straps.dieIdx) (hq : s.diePort h.toNat ≠ q) :
    (s.parentChange q).pkg = { s.pkg with head := some (BitVec.ofNat 3 (s.portDie q)), missed := 0, heard := true } := by
  have hs := isSystem_of_isDie hd
  have hi := isHead_of_other hh hne
  unfold State.parentChange
  rw [parentPort_of_member hd hh hne]
  dsimp only
  rw [if_neg hq]
  simp only [peerCheck_pkg, stepRetry_pkg, resendPartials_pkg, timeLinks_pkg, modPort_pkg, portErr_pkg, modLinks_pkg]
  rw [setParent_pkg_of_member]
  · simp [State.portDie]
  · simpa [State.isSystem] using hs
  · simpa [State.isHead, State.isDie] using hi

theorem becomeHead_pkg (s : State) (old : BitVec 3) :
    (s.becomeHead old).pkg = { s.pkg with head := some s.straps.dieIdx, missed := 0, heard := true, tookHead := true } := by
  unfold State.becomeHead
  dsimp only
  rw [foldl_keeps State.pkg bcastRepair_pkg]
  simp only [peerCheck_pkg, stepRetry_pkg, resendPartials_pkg, timeLinks_pkg]
  rw [foldl_keeps State.pkg fun u q => pushCtl_pkg u q _]
  simp

/-- A member that goes over to the port of another die than its head has that die as head. -/
theorem parentChange_pkg_of_die {s : State} {h d : BitVec 3} (hd : s.isDie = true) (hh : s.pkg.head = some h)
    (hne : h ≠ s.straps.dieIdx) (hown : d ≠ s.straps.dieIdx) (hdh : d ≠ h) :
    (s.parentChange (s.diePort d.toNat)).pkg = { s.pkg with head := some d, missed := 0, heard := true } := by
  have hd' : d.toNat ≠ s.straps.dieIdx.toNat := fun e => hown (BitVec.eq_of_toNat_eq e)
  have hh' : h.toNat ≠ s.straps.dieIdx.toNat := fun e => hne (BitVec.eq_of_toNat_eq e)
  have hhd : h.toNat ≠ d.toNat := fun e => hdh (BitVec.eq_of_toNat_eq e.symm)
  rw [parentChange_pkg_of_member hd hh hne (diePort_ne hd' hh' hhd), portDie_diePort hd', BitVec.ofNat_toNat,
    BitVec.setWidth_eq]

/-- A follower is another die than the head that was lost. -/
theorem nextHead_ne {s : State} {h d : BitVec 3} (e : s.nextHead h = some d) : d ≠ h := by
  rintro rfl
  have := (lowestDie_eq_some e).1
  simp at this

/-- What the loss of the head leaves of the package: STALE, and its follower as head. -/
theorem headLost_pkg {s : State} {h : BitVec 3} (hd : s.isDie = true) (hh : s.pkg.head = some h) (hne : h ≠ s.straps.dieIdx) :
    (s.headLost h).pkg.stale = true ∧ (s.headLost h).pkg.head = s.nextHead h := by
  cases e : s.nextHead h with
  | none =>
    rw [headLost_of_none e]
    exact ⟨rfl, rfl⟩
  | some d =>
    rw [headLost_of_some e, withoutHead_straps]
    split_ifs with hown
    · rw [replaceTray_pkg, becomeHead_pkg, hown]
      simp
    · rw [parentChange_pkg_of_die (h := h) (by simpa [State.isDie] using hd) (by simpa using hh) (by simpa using hne)
        (by simpa using hown) (nextHead_ne e)]
      simp
    · exact ⟨rfl, rfl⟩

theorem execHeadLost_eq {s : State} {h : BitVec 3} (hd : s.isDie = true) (hh : s.pkg.head = some h) (hne : h ≠ s.straps.dieIdx)
    (hl : 8 ≤ s.pkg.missed ∨ s.linkUp (s.diePort h.toNat) = false) : exec .headLost s = .next (s.headLost h).settle := by
  show finish _ = _
  simp only [hh]
  rw [if_pos ⟨hd, hne, hl⟩]; rfl

/-- Settles O6: a keepalive on each link that is up; and after the loss the head is `nextHead`, the lowest die that the
statement admits. -/
theorem headKeepalivesAndItsLoss : Obligations.HeadKeepalivesAndItsLoss := by
  unfold Obligations.HeadKeepalivesAndItsLoss
  refine ⟨fun s h => ?_, fun s h hd hh hne hl => ?_⟩
  · have hx := execHeadKeepaliveSend_eq h
    refine ⟨_, hx, frame_of (execHeadKeepaliveSend_only s) hx, fun p hp => ?_⟩
    rw [settle_chan, keepalives_chan (List.nodup_range.filter _)]
    by_cases hu : s.linkUp p = true
    · rw [if_pos hu, if_pos (by simp [hp, hu])]
      exact ⟨s.keepalive p, rfl, rfl, h⟩
    · rw [if_neg hu, if_neg (by simp [hu])]
  · have hx := execHeadLost_eq hd hh hne hl
    obtain ⟨hstale, hhead⟩ := headLost_pkg hd hh hne
    refine ⟨_, hx, frame_of (execHeadLost_only s) hx, by rw [settle_pkg, hstale], ?_⟩
    dsimp only
    rw [settle_pkg, hhead]
    exact ⟨fun d => lowestDie_eq_some, lowestDie_eq_none⟩

/-! ### Concentrators that fail (R11 to R13) -/

@[simp] theorem modCluster_cluster_same (s : State) (c : Nat) (f : Cluster → Cluster) :
    (s.modCluster c f).cluster c = f (s.cluster c) := Tab.read_modify_same _ _ _ _

@[simp] theorem modRegion_region_same (s : State) (r : Nat) (f : Region → Region) :
    (s.modRegion r f).region r = f (s.region r) := Tab.read_modify_same _ _ _ _

@[simp] theorem modRegion_cluster (s : State) (r c : Nat) (f : Region → Region) : (s.modRegion r f).cluster c = s.cluster c := rfl

@[simp] theorem setErr_cluster (s : State) (p b c : Nat) : (s.setErr p b).cluster c = s.cluster c := rfl
@[simp] theorem setErr_region (s : State) (p b r : Nat) : (s.setErr p b).region r = s.region r := rfl

@[simp] theorem log_cluster (s : State) (p i k v b a : Nat) (l : List Byte) (c : Nat) :
    (s.log p i k v b a l).cluster c = s.cluster c := by rw [State.cluster, log_samp_clusters]; rfl

@[simp] theorem log_region (s : State) (p i k v b a : Nat) (l : List Byte) (r : Nat) :
    (s.log p i k v b a l).region r = s.region r := by rw [State.region, log_samp_regions]; rfl

@[simp] theorem spareAdd_cluster (s : State) (k v i d c : Nat) : (s.spareAdd k v i d).cluster c = s.cluster c := by
  rw [State.cluster, spareAdd_samp_clusters]; rfl

@[simp] theorem spareAdd_region (s : State) (k v i d r : Nat) : (s.spareAdd k v i d).region r = s.region r := by
  rw [State.region, spareAdd_samp_regions]; rfl

@[simp] theorem replaceTray_cluster (s : State) (p i b v c : Nat) : (s.replaceTray p i b v).cluster c = s.cluster c := by
  rw [State.cluster, replaceTray_samp_clusters]; rfl

@[simp] theorem replaceTray_region (s : State) (p i b v r : Nat) : (s.replaceTray p i b v).region r = s.region r := by
  rw [State.region, replaceTray_samp_regions]; rfl

@[simp] theorem settle_cluster (s : State) (c : Nat) : s.settle.cluster c = s.cluster c := by rw [State.cluster, settle_samp]; rfl
@[simp] theorem settle_region (s : State) (r : Nat) : s.settle.region r = s.region r := by rw [State.region, settle_samp]; rfl

/-- An adoption's last steps: the flags of the cluster and of its region, then the spare map and the record. -/
theorem adopt_eq (s : State) (c cause arg : Nat) : ∃ u : State, s.adopt c cause arg =
    (((((u.modCluster c fun y => { y with adopted := true, selfchk := y.selfchk || decide (arg = 1) }).modRegion (regionOf c)
      fun y => { y with spareUsed := true, adopted := BitVec.ofNat 8 c }).setErr (pg 0x10) 16).spareAdd 2 cause c (regionOf c)).log
        0x10 (regionOf c) 0x0001 5 c arg []) := ⟨_, rfl⟩

/-- The record and the spare-map entry leave the adoption. -/
theorem adopt_adopted (s : State) (c cause arg : Nat) :
    ((s.adopt c cause arg).cluster c).adopted = true ∧ ((s.adopt c cause arg).region (regionOf c)).spareUsed = true ∧
      ((s.adopt c cause arg).region (regionOf c)).adopted = BitVec.ofNat 8 c := by
  obtain ⟨u, h⟩ := adopt_eq s c cause arg
  rw [h]
  simp

theorem loseCluster_lost (s : State) (c cause : Nat) : ((s.loseCluster c cause).cluster c).lost = true := by
  simp [State.loseCluster]

/-! A record takes one SEQ, whether the write port takes it or drops it (R416). -/

@[simp] theorem dropRec_fum_seq (s : State) (v : Nat) : (s.dropRec v).fum.seq = s.fum.seq := rfl

@[simp] theorem traceRec_fum (s : State) (r : LogRec) : (s.traceRec r).fum = s.fum := by
  unfold State.traceRec State.traceStage
  dsimp only
  split_ifs <;> rfl

theorem logRec_fum_seq (s : State) (p i k v : Nat) (j : Bool) (c : Byte) (b : List Byte) :
    (s.logRec p i k v j c b).fum.seq = s.fum.seq + 1 := by
  unfold State.logRec
  extract_lets r f u
  have hu : u.fum.seq = s.fum.seq + 1 := congrArg Fum.seq (traceRec_fum _ r)
  split
  · rw [dropRec_fum_seq, hu]
  · exact hu

theorem replaceTray_fum_seq (s : State) (p i b v : Nat) : (s.replaceTray p i b v).fum.seq = s.fum.seq + 1 :=
  logRec_fum_seq s p i 0xFFF3 6 false 2 _

/-- The concentrator of a cluster that is there fails: the cluster is LOST where the region's spare is in use, else adopted. -/
theorem concFail_eq {s : State} {c : Nat} (hc : c < Config.clusters) (hl : (s.cluster c).lost = false)
    (ha : (s.region (regionOf c)).absent = false) (cause arg : Nat) : s.concFail c cause arg =
      if (s.region (regionOf c)).spareUsed then s.loseCluster c cause else s.adopt c cause arg :=
  if_neg (by simp [hl, ha, hc])

/-- A region concentrator that is there fails: the region is ABSENT, and its record is written. -/
theorem regionFail_eq {s : State} {r : Nat} (hr : r < Config.regions) (ha : (s.region r).absent = false) : s.regionFail r =
    (s.modRegion r fun y => { y with absent := true }).replaceTray (pg 0x10) r r 2 :=
  if_neg (by simp [ha, hr])

theorem execConcSelfchkFail_eq {s : State} (hd : s.isDie = true) (c : Nat) :
    exec (.concSelfchkFail c) s = .next (s.concFail c 6 1).settle := by
  show finish _ = _
  rw [if_pos hd]; rfl

theorem execRegionConcFail_eq {s : State} (hd : s.isDie = true) (r : Nat) :
    exec (.regionConcFail r) s = .next (s.regionFail r).settle := by
  show finish _ = _
  rw [if_pos hd]; rfl

/-- Settles O7: by whether the region's spare is in use, and by the region's one record. -/
theorem concentratorFailuresAreAbsorbed : Obligations.ConcentratorFailuresAreAbsorbed := by
  unfold Obligations.ConcentratorFailuresAreAbsorbed
  refine ⟨fun c s hd hc hl ha => ?_, fun r s hd hr ha => ?_⟩
  · have hx := execConcSelfchkFail_eq hd c
    refine ⟨_, hx, onlyChanges_mono (frame_of (execConcSelfchkFail_only c s) hx) (by decide), ?_⟩
    rw [settle_cluster, settle_region, concFail_eq hc hl ha]
    split
    · exact loseCluster_lost s c 6
    · exact adopt_adopted s c 6 1
  · have hx := execRegionConcFail_eq hd r
    refine ⟨_, hx, frame_of (execRegionConcFail_only r s) hx, ?_⟩
    rw [settle_region, settle_fum, regionFail_eq hr ha, replaceTray_region, modRegion_region_same, replaceTray_fum_seq]
    exact ⟨rfl, rfl⟩

/-! ### Requests that travel to another node (R17, R64) -/

/-- Activity takes no tag. -/
theorem busyNow_freeTag (s : State) : s.busyNow.freeTag = s.freeTag := by
  have h : ∀ fuel n, s.busyNow.freeTagFrom fuel n = s.freeTagFrom fuel n := by
    intro fuel
    induction fuel with
    | zero => exact fun _ => rfl
    | succ fuel ih =>
      intro n
      rw [State.freeTagFrom, State.freeTagFrom, ih]
      rfl
  exact h _ _

/-- The request that `proxySend` forms for a port. -/
def proxyMsg (p addr tag : Nat) (a : Access) : Msg :=
  { typ := 0x02, tag := BitVec.ofNat 16 tag, dest := .port p, payload := proxyPayload addr a }

/-- A request to a port with a tag free is not answered yet: it leaves as one message, and holds the tag. -/
theorem proxySend_port {s : State} {p addr tag : Nat} {a : Access} (hf : s.freeTag = some tag) :
    (s.proxySend (.port p) addr a none).1 = none ∧
      (s.proxySend (.port p) addr a none).2.mbox = s.mbox ++ [(p, proxyMsg p addr tag a)] ∧
      (Tab.read noProxy (s.proxySend (.port p) addr a none).2.links.proxies tag).map (·.req) = some a.req := by
  simp [State.proxySend, State.route, hf, State.send, proxyMsg]

/-- An aligned access of a block that runs, to an address of another node, is sent on. -/
theorem access_forward {s : State} {a : Access} {dest : Dest} {addr : Nat} (hd : s.dark = false)
    (hp : s.bpwr.state = .run ∨ s.bpwr.state = .idle)
    (hw : ¬(a.req.port = .host ∧ (64 ≤ s.hostWaits ∨ s.chanOpen (.converter .host 0) = false)))
    (h4 : a.addr.toNat % 4 = 0) (hb : a.be = 0xF) (ht : s.target false a.addr.toNat = .forward dest addr)
    (hn : (s.busyNow.proxySend dest addr a none).1 = none) :
    s.access a = (s.busyNow.proxySend dest addr a none).2 := by
  have ha : s.awake = true := by rcases hp with hp | hp <;> simp [State.awake, hp]
  have hh : s.hostWakes = s := by rcases hp with hp | hp <;> simp [State.hostWakes, hp]
  have hs : s.serve a none = (none, (s.busyNow.proxySend dest addr a none).2) := by
    rw [← hn]
    simp [State.serve, ht, hd, ha, hh, h4, hb]
  rw [State.access, if_neg hw, hs]

/-- The parts that a request sent on can change. -/
def proxyParts : List Part := [.host, .proxies, .mbox, .power, .activity, .lines, .xfers, .out, .inj]

/-- What O14 says of a request that goes on through a port, wherever its target stands. -/
theorem request_travels {s : State} {a : Access} {p addr tag : Nat} (hd : s.dark = false)
    (hp : s.bpwr.state = .run ∨ s.bpwr.state = .idle)
    (hw : ¬(a.req.port = .host ∧ (64 ≤ s.hostWaits ∨ s.chanOpen (.converter .host 0) = false)))
    (h4 : a.addr.toNat % 4 = 0) (hb : a.be = 0xF) (ht : s.target false a.addr.toNat = .forward (.port p) addr)
    (hf : s.freeTag = some tag) :
    ∃ t, finish (s.access a) = .next t ∧ s.onlyChanges t proxyParts ∧ t.mbox = s.mbox ++ [(p, proxyMsg p addr tag a)] ∧
      (Tab.read noProxy t.links.proxies tag).map (·.req) = some a.req := by
  have hf' : s.busyNow.freeTag = some tag := by rw [busyNow_freeTag, hf]
  obtain ⟨hn, hm, hr⟩ := proxySend_port (p := p) (addr := addr) (a := a) hf'
  rw [access_forward hd hp hw h4 hb ht hn]
  refine ⟨_, rfl, ?_, by rw [settle_mbox, hm]; rfl, by rw [settle_links, hr]⟩
  exact settle_only (by decide) (proxySend_only (by decide) (busyNow_only (by decide) (onlyChanges_refl s _)))

/-- A member's package window leads to the head (R17). -/
theorem target_packageWindow {s : State} {h : BitVec 3} {a : Nat} (hd : s.isDie = true) (hh : s.pkg.head = some h)
    (hne : h ≠ s.straps.dieIdx) (ha : a / 2 ^ 20 = 1) : s.target false a = .forward (.port (s.diePort h.toNat)) a := by
  rw [State.target, if_pos hd, State.dieTarget]
  simp only [ha, isHead_of_other hh hne, hh]
  simp

/-- A proxy window leads to the port and the address that its PROXY_n names (R64). -/
theorem target_proxyWindow {s : State} {n a : Nat} (hs : s.isSystem = true) (hc : s.straps.cascade = false)
    (ha : a / 2 ^ 20 = 8 + n) (hv : bit (s.reg (pg 0x01) (0xC0 + 4 * n)) 31 = true)
    (hk : bit (s.reg (pg 0x01) (0xC0 + 4 * n)) 30 = false) (ht : fld (s.reg (pg 0x01) (0xC0 + 4 * n)) 8 8 < 32) :
    s.target false a = .forward (.port (fld (s.reg (pg 0x01) (0xC0 + 4 * n)) 8 8))
      (fld (s.reg (pg 0x01) (0xC0 + 4 * n)) 0 4 * 2 ^ 20 + a % 2 ^ 20) := by
  have hd : s.isDie = false := by simp_all [State.isDie, State.isSystem]
  have hlo : 2 ^ 23 ≤ a := by omega
  have hwin : (a - 2 ^ 23) / 2 ^ 20 = n := by omega
  rw [State.target, hd, if_neg (by simp), if_pos hlo, hwin, State.proxyTarget]
  simp [hv, hk, ht, hc]

/-! ### A write of PROXY_n (R87) -/

/-- The row of PROXY_n. -/
theorem regAt_proxy : ∀ n < 8, regAt 0x01 (0xC0 + 4 * n) = some (rrow 0x0C0 8 4 1 0xC000FF0F 0 0, n, 0) := by decide

section ProxyWord
variable {s : State} {n : Nat}

theorem writeMasks_proxy (hn : n < 8) : writeMasks (pg 0x01) (0xC0 + 4 * n) = (0xC000FF0F, 0) := by
  simp only [writeMasks, keyType_pg, regAt_proxy n hn]; rfl

/-- The word takes VALID, KIND, TARGET and WINDOW of the value written; the other bits stand. -/
theorem newWord_proxy (hn : n < 8) (w : Word) : s.newWord (pg 0x01) (0xC0 + 4 * n) w =
    (s.reg (pg 0x01) (0xC0 + 4 * n) &&& 0x3FFF00F0) ||| (w &&& 0xC000FF0F) := by
  have hkeep : ~~~(w &&& 0) = BitVec.allOnes 32 := by simp
  simp only [State.newWord, writeMasks_proxy hn, keyType_pg, fixWord, mergeWrite, hkeep, BitVec.and_allOnes]
  rfl

/-- A write of PROXY_n is stored at once, and counts as a change of the configuration (R431). -/
theorem writeReg_proxy (hs : s.isSystem = true) (hn : n < 8) (w : Word) : s.writeReg (pg 0x01) (0xC0 + 4 * n) w =
    (.ok, (s.touchItem 0x09).storeWord (pg 0x01) (0xC0 + 4 * n) w) := by
  have hr : ringOf (pg 0x01) (0xC0 + 4 * n) = none := by simp [ringOf]
  have hscope : keyScope (pg 0x01) = 0 := rfl
  have haon : isAon (pg 0x01) (0xC0 + 4 * n) = false := by simp [isAon, regAt_proxy n hn, rrow]
  have hwide : wideAt 0x01 (0xC0 + 4 * n) = none := by simp [wideAt, regAt_proxy n hn, rrow]
  have hsys : (s.touchItem 0x09).isSystem = true := hs
  simp [State.writeReg, writeMasks_proxy hn, cfgWindow, State.writeBusy, hscope, haon, hwide, State.writeWord, hr, hsys]

theorem freshWrite_proxy (hs : s.isSystem = true) (hn : n < 8) (q : Req) (w : Word) :
    s.freshWrite (pg 0x01) (0xC0 + 4 * n) q w = (.ok, (s.touchItem 0x09).storeWord (pg 0x01) (0xC0 + 4 * n) w) := by
  have hg : guardedAt (pg 0x01) (0xC0 + 4 * n) = false := by
    simp [guardedAt, show ¬ 0xC0 + 4 * n < 0x40 by omega, regAt_proxy n hn, rrow]
  have hw : dataWindow (pg 0x01) (0xC0 + 4 * n) = none := by simp [dataWindow]
  rw [State.freshWrite, if_neg (by omega), hg, State.plainWrite, if_neg (by simp), if_neg (by simp), if_neg (by omega),
    if_neg (by simp), hw]
  exact writeReg_proxy hs hn w

/-- The whole access: the word is stored, and the write answered OK. -/
theorem access_proxyWord {a : Access} (hs : s.isSystem = true) (hn : n < 8) (hm : s.mayWrite a (pg 0x01) (0xC0 + 4 * n))
    (hg : (s.hdr (pg 0x01)).guard = none) :
    s.access a = ((s.busyNow.touchItem 0x09).storeWord (pg 0x01) (0xC0 + 4 * n) a.data).respond a.req .ok 0 := by
  rw [access_fresh hm hg, freshWrite_proxy (s := s.busyNow) hs hn]
  rfl

end ProxyWord

/-- Settles O14: each request by the target of its address, and the write by the row of PROXY_n. -/
theorem requestsTravelToTheirTargets : Obligations.RequestsTravelToTheirTargets := by
  unfold Obligations.RequestsTravelToTheirTargets
  refine ⟨fun a s h tag hdie hh hne hwin h4 hb hd hp hw hf => ?_,
    fun a s n tag hs hc _ hwin h4 hb hd hp hw hf hv hk ht => ?_, fun a s n hs hn hm hg => ?_⟩
  · exact request_travels hd hp hw h4 hb (target_packageWindow hdie hh hne hwin) hf
  · exact request_travels hd hp hw h4 hb (target_proxyWindow hs hc hwin hv hk ht) hf
  · have hx : exec (.proxyWrite a) s = .next (s.access a).settle := rfl
    rw [access_proxyWord hs hn hm hg] at hx
    refine ⟨_, hx, answered_settle ⟨[], rfl⟩ rfl, ?_, ?_⟩
    · refine settle_only ?_ (respond_only ?_ (storeWord_only ?_ (touchItem_only ?_ (busyNow_only ?_ (onlyChanges_refl s _)))))
      all_goals exact names_of_subset (by simp [accessParts])
    · rw [settle_reg, respond_reg, State.storeWord, reg_setReg_same, newWord_proxy hn]
      rfl

end Sys2Proof.Machine
end

section
/-!
O8, O9, O10 and O13 (R42, R44, R47, R48, R57, R85): stuck handshakes, array accesses that do not complete, the limits of the
watchdog time-out, and the slow tick. What an operation leaves alone comes from its frame in the laws.
-/
namespace Sys2Proof.Machine

/-! ### Bits and low fields -/

theorem bit_setBit_same {n i : Nat} (w : BitVec n) (h : i < n) : bit (setBit w i true) i = true := by
  simp only [bit, setBit, if_true, BitVec.getLsbD_or, BitVec.getLsbD_ofNat, Nat.testBit_two_pow_self, h, decide_true, Bool.and_self,
    Bool.or_true]

/-- Setting a bit clears none. -/
theorem bit_setBit_of_bit {n j : Nat} {w : BitVec n} (i : Nat) (h : bit w j = true) : bit (setBit w i true) j = true := by
  simp only [bit, setBit, if_true, BitVec.getLsbD_or] at h ⊢
  rw [h, Bool.true_or]

/-- A field at bit 0 is read from its own bits. -/
theorem fld_low_congr {n len : Nat} {v w : BitVec n} (h : ∀ i < len, bit v i = bit w i) : fld v 0 len = fld w 0 len := by
  refine Nat.eq_of_testBit_eq fun i => ?_
  simp only [fld, pow_zero, Nat.div_one, Nat.testBit_mod_two_pow, BitVec.testBit_toNat]
  by_cases hi : i < len
  · rw [show v.getLsbD i = w.getLsbD i from h i hi]
  · simp [hi]

/-- A field at bit 0 reads what was put there. -/
theorem fld_setFld_low {n len : Nat} (w : BitVec n) (v : Nat) (h : len ≤ n) : fld (setFld w 0 len v) 0 len = v % 2 ^ len := by
  have hw : w.toNat - w.toNat % 2 ^ len = 2 ^ len * (w.toNat / 2 ^ len) := by
    have := Nat.mod_add_div w.toNat (2 ^ len)
    omega
  simp only [fld, setFld, pow_zero, Nat.div_one, mul_one, BitVec.toNat_ofNat, hw]
  rw [Nat.mod_mod_of_dvd _ (pow_dvd_pow 2 h), Nat.mul_add_mod, Nat.mod_mod]

/-- `limitFld` on a field at bit 0, where the range fits the field. -/
theorem fld_limitFld_low {len a b : Nat} (w : Word) (hn : len ≤ 32) (hab : a ≤ b) (hb : b < 2 ^ len) :
    fld (limitFld 0 len a b w) 0 len = min b (max a (fld w 0 len)) := by
  have hc : clamp a b (fld w 0 len) = min b (max a (fld w 0 len)) := by
    unfold clamp
    split_ifs <;> omega
  rw [limitFld, fld_setFld_low _ _ hn, hc, Nat.mod_eq_of_lt (lt_of_le_of_lt (min_le_left _ _) hb)]

/-! ### What a record leaves -/

/-- A record changes no register. -/
@[simp] theorem log_reg (s : State) (p i c v b a : Nat) (l : List Byte) (page off : Nat) :
    (s.log p i c v b a l).reg page off = s.reg page off :=
  same_of_only (.word (keyType page) off) (fun hL ho => log_only hL ho) (by simp [Part.covers, Part.wordAt]) page rfl

@[simp] theorem traceRec_hdr (s : State) (r : LogRec) (page : Nat) : (s.traceRec r).hdr page = s.hdr page :=
  same_of_only (.hdr (keyType page)) (fun hL ho => traceRec_only hL ho) (by simp [Part.covers]) page rfl

theorem setErr_hdr (s : State) (p b q : Nat) :
    (s.setErr p b).hdr q = if q = p then { s.hdr p with err := setBit (s.hdr p).err b true } else s.hdr q :=
  Tab.read_modify Header.reset s.pages.hdr p q fun h => { h with err := setBit h.err b true }

/-- Setting an error bit clears none, of any page. -/
theorem setErr_err_bit {s : State} {q j : Nat} (p b : Nat) (h : bit (s.hdr q).err j = true) :
    bit ((s.setErr p b).hdr q).err j = true := by
  rw [setErr_hdr]
  split_ifs with e
  · exact bit_setBit_of_bit b (e ▸ h)
  · exact h

/-- A record clears no PAGE_ERR bit: a dropped one sets a bit, and a waiting one leaves the headers. -/
theorem logRec_err_bit {s : State} {q j : Nat} (p i c v : Nat) (inj : Bool) (x : Byte) (l : List Byte)
    (h : bit (s.hdr q).err j = true) : bit ((s.logRec p i c v inj x l).hdr q).err j = true := by
  unfold State.logRec
  extract_lets r f u
  have hu : bit (u.hdr q).err j = true := by
    rw [traceRec_hdr]
    exact h
  split
  · exact setErr_err_bit (s := { u with fum := _ }) _ _ hu
  · exact hu

/-- A record counts no error of the arrays. -/
theorem logPlain_ueCount (s : State) (p c v : Nat) (l : List Byte) : (s.logPlain p c v l).fum.ueCount = s.fum.ueCount := by
  have h : Part.errs.same s (s.logPlain p c v l) := same_of_only .errs (fun hL ho => logPlain_only hL ho) (by decide)
  exact congrArg (fun x => x.2.1) h

/-! ### Stuck handshakes (R42, R47) -/

/-- The bit of KX_PACE_FAULT that was set stands. -/
theorem paceFault_bit (s : State) {b : Nat} (h : b < 32) : bit ((s.paceFault b).reg (pg 0x02) 0x5C) b = true := by
  have hr : (s.paceFault b).reg (pg 0x02) 0x5C = setBit (s.reg (pg 0x02) 0x5C) b true := reg_setReg_same _ _ _ _
  rw [hr, bit_setBit_same _ h]

theorem execCodeErr_eq {s : State} (hd : s.dark = false) (ch : Channel) :
    exec (.codeErr ch) s = .next (((s.paceFault 4).log 0x01 0 0x0001 6 ch.code 0 []).watchChannel ch).settle := by
  show finish _ = _
  rw [hd]; rfl

theorem watchChannel_watch (s : State) (ch : Channel) : Tab.read natZero (s.watchChannel ch).pace.watch ch.code = 1 :=
  Tab.read_write_same natZero s.pace.watch ch.code 1

/-- A stuck channel is reported and forced to the spacer: HS_TIMEOUT, its record, and its watchdog stopped (R47). -/
def State.hsRelease (s : State) (ch : Channel) (phase : HsPhase) : State :=
  let u := ((s.paceInject ch).paceFault 3).log 0x01 0 0x0002 5 ch.code phase.code []
  { u with pace := { u.pace with watch := Tab.write natZero u.pace.watch ch.code 0 } }

/-- A watchdog that has expired releases a subsystem's channel; its owner there does nothing more. -/
theorem execHsTimeout_subsystem {s : State} {p : Nat} (phase : HsPhase) (hd : s.dark = false)
    (hr : s.watchRuns (Channel.subsystem p).code = true)
    (hw : Tab.read natZero s.pace.watch (Channel.subsystem p).code = 0 ∨
      s.hsTimeoutTicks < Tab.read natZero s.pace.watch (Channel.subsystem p).code) :
    exec (.hsTimeout (.subsystem p) phase) s = .next (s.hsRelease (.subsystem p) phase).settle := by
  show finish _ = _
  dsimp only
  rw [if_neg (by simp [hd, hr]; omega)]
  rfl

theorem hsRelease_watch (s : State) (ch : Channel) (phase : HsPhase) :
    Tab.read natZero (s.hsRelease ch phase).pace.watch ch.code = 0 :=
  Tab.read_write_same natZero _ ch.code 0

theorem hsRelease_only {s : State} {ch : Channel} {phase : HsPhase} :
    s.onlyChanges (s.hsRelease ch phase) [.inj, .pace, .staged, .recs, .hdr 0x58, .word 0x02 0x5C] := by
  refine only_start fun hL h0 => ?_
  refine only_pace (z := [.pace]) (by decide) (fun h => not_free h rfl) ?_
  exact log_only (by decide) (paceFault_only (by decide) (paceInject_only (by decide) h0))

/-- Settles O8: the fault bit stands after the record, and the watchdog's count is the one written. -/
theorem stuckHandshakesAreReported : Obligations.StuckHandshakesAreReported := by
  unfold Obligations.StuckHandshakesAreReported
  refine ⟨fun ch s hd => ?_, fun p phase s hd hr hw => ?_⟩
  · have hx := execCodeErr_eq hd ch
    refine ⟨_, hx, frame_of (execCodeErr_only ch s) hx, ?_, ?_⟩
    · have hlog : (((s.paceFault 4).log 0x01 0 0x0001 6 ch.code 0 []).watchChannel ch).reg (pg 0x02) 0x5C =
          (s.paceFault 4).reg (pg 0x02) 0x5C := log_reg _ _ _ _ _ _ _ _ _ _
      rw [settle_reg, hlog, paceFault_bit s (by decide)]
    · rw [settle_pace, watchChannel_watch]
  · have hx := execHsTimeout_subsystem phase hd hr hw
    refine ⟨_, hx, settle_only (by decide) (onlyChanges_mono hsRelease_only (by decide)), ?_, ?_⟩
    · have hlog : (s.hsRelease (.subsystem p) phase).reg (pg 0x02) 0x5C =
          ((s.paceInject (.subsystem p)).paceFault 3).reg (pg 0x02) 0x5C := log_reg _ _ _ _ _ _ _ _ _ _
      rw [settle_reg, hlog, paceFault_bit _ (by decide)]
    · rw [settle_pace, hsRelease_watch]

/-! ### Array accesses that do not complete (R44, R428) -/

/-- The uncorrectable word, counted: its number of errors advances, and the first one keeps its place (R428). -/
def State.countUe (s : State) (u : ArrayUse) : State :=
  s.modFum fun f => { f with
    ueCount := BitVec.ofNat 32 (satAdd 32 f.ueCount.toNat 1)
    ueLoc := if s.fum.ueCount = 0 then word (u.array.toNat * 2 ^ 24 + u.word.toNat) else f.ueLoc }

/-- A word that nobody waits for, and that holds nothing of its own, is counted and reported. -/
theorem uncorrectable_plain {s : State} {u : ArrayUse} (syn : Byte) (hq : u.req = none) (hc : u.cmd = none)
    (hp : keyType u.page ≠ 0x68) : s.uncorrectable u syn .plain =
      ((s.countUe u).setErr u.page errUe).logPlain u.page 0xFFF0 6 (ueBody u syn) := by
  unfold State.uncorrectable
  simp only [hq, hc, hp, if_false]
  rfl

theorem countUe_only {s0 s : State} {L : List Part} {u : ArrayUse} (hL : names L [.errs] = true) (ho : s0.onlyChanges s L) :
    s0.onlyChanges (s.countUe u) L :=
  modFum_only hL (fun _ => rfl) (fun _ => rfl) (fun h => not_free h rfl) (fun _ => rfl) (fun _ => rfl) (fun _ => rfl)
    (fun _ => rfl) (fun _ => rfl) ho

/-- Settles O9: a first time-out leaves the state as it is, and a second ends in `uncorrectable_plain`. -/
theorem slowArrayAccessIsRetriedOnce : Obligations.SlowArrayAccessIsRetriedOnce := by
  unfold Obligations.SlowArrayAccessIsRetriedOnce
  refine ⟨fun u h s => ⟨_, rfl, settle_only (by decide) (onlyChanges_refl s _)⟩, fun u s hq hc hp => ?_⟩
  have hx : exec (.arrayAccessTimeout u true .plain) s =
      .next ((s.draw 8).2.uncorrectable u (s.draw 8).1 .plain).settle := rfl
  rw [uncorrectable_plain _ hq hc hp] at hx
  refine ⟨_, hx, ?_, ?_, ?_⟩
  · refine only_start fun hL h0 => settle_only (by decide) (logPlain_only (by decide) (setErr_only ?_
      (countUe_only (by decide) (draw_only (by decide) h0))))
    exact names_trans (names_of_subset (by simp)) names_all_hdr
  · rw [settle_hdrOf]
    refine logRec_err_bit _ _ _ _ _ _ _ ?_
    rw [setErr_hdr, if_pos rfl]
    exact bit_setBit_same _ (by decide)
  · rw [settle_fum, logPlain_ueCount]
    rfl

/-! ### A write of KX_PACE_HSTO (R48) -/

theorem regAt_hsto : regAt 0x02 0x44 = some (rrow 0x044 1 4 1 0xF 0 0x4, 0, 0) := by decide

section HstoWord
variable {s : State} {w : Word}

theorem writeMasks_hsto : writeMasks (pg 0x02) 0x44 = (0xF, 0) := by
  simp only [writeMasks, keyType_pg]; rfl

/-- TIMEOUT takes the value written, limited to 2 to 8. -/
theorem fld_newWord_hsto : fld (s.newWord (pg 0x02) 0x44 w) 0 4 = min 8 (max 2 (fld w 0 4)) := by
  have hlow : fld (mergeWrite 0xF 0 (s.reg (pg 0x02) 0x44) w) 0 4 = fld w 0 4 := by
    refine fld_low_congr fun i hi => ?_
    have hrw : (0xF : Word).getLsbD i = true := by interval_cases i <;> rfl
    have hi' : i < 32 := by omega
    simp only [bit, mergeWrite, BitVec.getLsbD_and, BitVec.getLsbD_or, BitVec.getLsbD_not, hrw, hi']
    simp
  have hfix : s.newWord (pg 0x02) 0x44 w = limitFld 0 4 2 8 (mergeWrite 0xF 0 (s.reg (pg 0x02) 0x44) w) := by
    simp only [State.newWord, writeMasks_hsto]; rfl
  rw [hfix, fld_limitFld_low _ (by decide) (by decide) (by decide), hlow]

/-- A write of KX_PACE_HSTO counts as a change of the configuration (R431), and is stored under its limits. -/
theorem freshWrite_hsto (q : Req) : s.freshWrite (pg 0x02) 0x44 q w = (.ok, (s.touchItem 0x09).hstoWrite w) := by
  have hg : guardedAt (pg 0x02) 0x44 = false := by simp [guardedAt, regAt_hsto, rrow]
  have hdata : dataWindow (pg 0x02) 0x44 = none := by simp [dataWindow]
  have haon : isAon (pg 0x02) 0x44 = false := by simp [isAon, regAt_hsto, rrow]
  have hwide : wideAt 0x02 0x44 = none := by simp [wideAt, regAt_hsto, rrow]
  have hr : ringOf (pg 0x02) 0x44 = none := by simp [ringOf]
  have hscope : keyScope (pg 0x02) = 0 := rfl
  simp [State.freshWrite, hg, State.plainWrite, hdata, State.writeReg, writeMasks_hsto, cfgWindow, State.writeBusy, hscope, haon,
    hwide, State.writeWord, hr]

theorem hstoWrite_timeout : ((s.hstoWrite w).reg (pg 0x02) 0x44) = s.newWord (pg 0x02) 0x44 w := by
  unfold State.hstoWrite
  dsimp only
  split_ifs
  · rw [reg_setReg, if_neg (by decide), State.storeWord, reg_setReg_same]
  · rw [State.storeWord, reg_setReg_same]

/-- HSTO_CLAMP is set by a value out of range, and else stands. -/
theorem hstoWrite_clamp : bit ((s.hstoWrite w).reg (pg 0x02) 0x5C) 1 = true ↔
    bit (s.reg (pg 0x02) 0x5C) 1 = true ∨ fld w 0 4 < 2 ∨ 8 < fld w 0 4 := by
  have hother : (s.storeWord (pg 0x02) 0x44 w).reg (pg 0x02) 0x5C = s.reg (pg 0x02) 0x5C := by
    rw [State.storeWord, reg_setReg, if_neg (by decide)]
  unfold State.hstoWrite
  dsimp only
  split_ifs with h
  · rw [reg_setReg_same, bit_setBit_same _ (by decide)]
    exact iff_of_true rfl (.inr h)
  · rw [hother]
    exact (or_iff_left h).symm

end HstoWord

/-- Settles O13: the write goes through to `hstoWrite`, and the answer is OK. -/
theorem handshakeTimeoutIsClamped : Obligations.HandshakeTimeoutIsClamped := by
  unfold Obligations.HandshakeTimeoutIsClamped
  intro a s hm hg
  have hx : exec (.paceHstoWrite a) s = .next (s.access a).settle := rfl
  have hacc : s.access a = ((s.busyNow.touchItem 0x09).hstoWrite a.data).respond a.req .ok 0 := by
    rw [access_fresh hm hg, freshWrite_hsto]; rfl
  have hu : s.onlyChanges ((s.busyNow.touchItem 0x09).hstoWrite a.data)
      [.word 0x02 0x44, .word 0x02 0x5C, .gens, .power, .activity] :=
    only_start fun hL h0 => hstoWrite_only (by decide) (touchItem_only (by decide) (busyNow_only (by decide) h0))
  have hout : ((s.busyNow.touchItem 0x09).hstoWrite a.data).out = s.out := hu .out (by decide)
  have hhost : ((s.busyNow.touchItem 0x09).hstoWrite a.data).pages.host = s.pages.host := hu .host (by decide)
  rw [hacc] at hx
  refine ⟨_, hx, answered_settle ⟨[], hout⟩ hhost, ?_, ?_, ?_⟩
  · exact settle_only (by decide) (respond_only (by decide) (onlyChanges_mono hu (by decide)))
  · rw [State.regFld, settle_reg, respond_reg, hstoWrite_timeout, fld_newWord_hsto]
  · rw [settle_reg, respond_reg, hstoWrite_clamp]
    rfl

/-! ### The slow tick (R57, R83, R85) -/

/-- A KXA-32 in EMBER with a grandmaster's timekeeper that is FREE, whose command page 0 waits for the packer (R83) and holds a
TIME_SET to time 0. -/
def packerHeldTimeSet : State :=
  { (State.reset.setReg timePage 0x50 0x80).setCmd false 0
      { CmdPage.reset 0 with busy := true, wait := .event 39 0, cmd := 0x30000203 } with
    straps := { Straps.reset with role := .system }
    bpwr := { Bpwr.reset with state := .ember } }

/-- The tick serves the waiting command, and the step that it makes takes the tick's instant back to 0. -/
theorem packerHeldTimeSet_tick :
    (after packerHeldTimeSet (exec (.slowTick { rings := [], clocks := [] }) packerHeldTimeSet)).tick = 0 := by
  decide +kernel

/-- Refutes O10: the statement admits every state, also one in which the command that waits for a shared resource is a TIME_SET.
The tick lets it go on (R83), fleet time steps to the command's time 0, and the instant of the latest tick is 0 again, not later
than the one before. The model has only PARENT_SWAP, SINTER_PACK and SINTER_UNPACK wait so; the statement does not ask for that. -/
theorem not_slowTickMovesTimeAndLetsLinesRise : ¬ Obligations.SlowTickMovesTimeAndLetsLinesRise := by
  unfold Obligations.SlowTickMovesTimeAndLetsLinesRise
  intro h
  obtain ⟨t, ht, -, -, hlater, -⟩ := h { rings := [], clocks := [] } packerHeldTimeSet
  have hback : t.tick = 0 := by
    have := packerHeldTimeSet_tick
    rwa [ht] at this
  rw [hback] at hlater
  exact Nat.not_lt_zero _ hlater

end Sys2Proof.Machine
end

section
/-!
O3, O4 and O60 (R80, R85, R404): every command ends by settling the interrupts, which holds every line that has a cause; and the
frame of no command names the queue, nor, but for the two that sample the straps, the straps.
-/
namespace Sys2Proof.Machine

/-! ### Every command ends settled (R85) -/

/-- Every command goes on, and ends by settling the interrupts. -/
theorem exec_finishes (i : Instr) (s : State) : ∃ u : State, exec i s = finish u := by
  cases i <;> exact ⟨_, rfl⟩

/-- After a command every line with a present cause is low, whatever was before. -/
theorem exec_linesHeld {i : Instr} {s t : State} (h : exec i s = .next t) : t.LinesHeld := by
  obtain ⟨u, hu⟩ := exec_finishes i s
  rw [hu] at h
  cases h
  exact settle_linesHeld u

/-! ### The slow tick (R57, R85) -/

/-- Settling lowers no further line where the lines follow the causes. -/
theorem settle_irq_of_linesOf {s : State} (h : s.pages.irq = linesOf s.pages.cmds s.pages.hdr) :
    s.settle.pages.irq = linesOf s.settle.pages.cmds s.settle.pages.hdr := by
  rw [settle_irq, settle_cmds, settle_hdr, h, BitVec.or_self]

/-- The tick's last act is on the lines, and its instant has reached every cause by then. -/
theorem execSlowTick_ends_lineTick (m : TickIn) (s : State) : ∃ u : State, exec (.slowTick m) s = finish u.lineTick :=
  ⟨_, rfl⟩

/-- Settles O3: a step is idle or a command, a command ends settled, and the slow tick settles lines that it has just recomputed. -/
theorem everyStepHoldsItsLines : Obligations.EveryStepHoldsItsLines := by
  unfold Obligations.EveryStepHoldsItsLines
  refine ⟨fun s t hs ht => ?_, fun m s t ht => ?_⟩
  · unfold step at ht
    split at ht
    next => cases ht; exact hs
    next => exact exec_linesHeld ht
  · obtain ⟨u, hu⟩ := execSlowTick_ends_lineTick m s
    rw [hu] at ht
    cases ht
    exact settle_irq_of_linesOf (s := u.lineTick) rfl

/-- Settles O4: after reset no page has a cause. -/
theorem resetHoldsItsLines : Obligations.ResetHoldsItsLines := by
  unfold Obligations.ResetHoldsItsLines State.LinesHeld
  rfl

/-! ### The queue and the straps (R80, R404) -/

/-- The frame of every command: it names neither the queue nor, but where RST_N is released and where BIST ends, the straps. -/
theorem exec_frame (i : Instr) (s : State) : ∃ l, (∃ t, exec i s = .next t ∧ s.onlyChanges t l) ∧ free l .pending = true ∧
    (free l .straps = true ∨ (∃ x, i = .pinResetRelease x) ∨ ∃ x, i = .bistDone x) := by
  cases i with
  | headElection reports => exact ⟨_, execHeadElection_only reports s, rfl, .inl rfl⟩
  | headKeepaliveSend => exact ⟨_, execHeadKeepaliveSend_only s, rfl, .inl rfl⟩
  | headLost => exact ⟨_, execHeadLost_only s, rfl, .inl rfl⟩
  | packageWindowRequest a => exact ⟨_, execPackageWindowRequest_only a s, rfl, .inl rfl⟩
  | concSelfchkFail cluster => exact ⟨_, execConcSelfchkFail_only cluster s, rfl, .inl rfl⟩
  | regionConcFail region => exact ⟨_, execRegionConcFail_only region s, rfl, .inl rfl⟩
  | codeErr ch => exact ⟨_, execCodeErr_only ch s, rfl, .inl rfl⟩
  | arrayAccessTimeout u second holds => exact ⟨_, execArrayAccessTimeout_only u second holds s, rfl, .inl rfl⟩
  | hsTimeout ch phase => exact ⟨_, execHsTimeout_only ch phase s, rfl, .inl rfl⟩
  | slowTick m => exact ⟨_, execSlowTick_only m s, rfl, .inl rfl⟩
  | paceHstoWrite a => exact ⟨_, execPaceHstoWrite_only a s, rfl, .inl rfl⟩
  | registerWrite a => exact ⟨_, execRegisterWrite_only a s, rfl, .inl rfl⟩
  | guardArm a => exact ⟨_, execGuardArm_only a s, rfl, .inl rfl⟩
  | guardCommit a => exact ⟨_, execGuardCommit_only a s, rfl, .inl rfl⟩
  | guardExpire page => exact ⟨_, execGuardExpire_only page s, rfl, .inl rfl⟩
  | wideCapture a => exact ⟨_, execWideCapture_only a s, rfl, .inl rfl⟩
  | wideWriteCommit a => exact ⟨_, execWideWriteCommit_only a s, rfl, .inl rfl⟩
  | snapTake a => exact ⟨_, execSnapTake_only a s, rfl, .inl rfl⟩
  | unitwinAccess a => exact ⟨_, execUnitwinAccess_only a s, rfl, .inl rfl⟩
  | ringRptrWrite a => exact ⟨_, execRingRptrWrite_only a s, rfl, .inl rfl⟩
  | ringSizeWrite a => exact ⟨_, execRingSizeWrite_only a s, rfl, .inl rfl⟩
  | cmdLock a => exact ⟨_, execCmdLock_only a s, rfl, .inl rfl⟩
  | cmdDoneClear a => exact ⟨_, execCmdDoneClear_only a s, rfl, .inl rfl⟩
  | cmdReject a => exact ⟨_, execCmdReject_only a s, rfl, .inl rfl⟩
  | nop c => exact ⟨_, execNop_only c s, rfl, .inl rfl⟩
  | echo c => exact ⟨_, execEcho_only c s, rfl, .inl rfl⟩
  | proxyRequest a => exact ⟨_, execProxyRequest_only a s, rfl, .inl rfl⟩
  | proxyWrite a => exact ⟨_, execProxyWrite_only a s, rfl, .inl rfl⟩
  | unitEdge probe st reason evt cmdStart => exact ⟨_, execUnitEdge_only probe st reason evt cmdStart s, rfl, .inl rfl⟩
  | counterReset probe => exact ⟨_, execCounterReset_only probe s, rfl, .inl rfl⟩
  | epochClose ties stuck => exact ⟨_, execEpochClose_only ties stuck s, rfl, .inl rfl⟩
  | epochOrigin stuck => exact ⟨_, execEpochOrigin_only stuck s, rfl, .inl rfl⟩
  | recordDeliver probe => exact ⟨_, execRecordDeliver_only probe s, rfl, .inl rfl⟩
  | concCommit cluster => exact ⟨_, execConcCommit_only cluster s, rfl, .inl rfl⟩
  | setEpoch c => exact ⟨_, execSetEpoch_only c s, rfl, .inl rfl⟩
  | probeReset c => exact ⟨_, execProbeReset_only c s, rfl, .inl rfl⟩
  | clearTotals c => exact ⟨_, execClearTotals_only c s, rfl, .inl rfl⟩
  | forceAdopt c => exact ⟨_, execForceAdopt_only c s, rfl, .inl rfl⟩
  | geyserArm c => exact ⟨_, execGeyserArm_only c s, rfl, .inl rfl⟩
  | geyserStop c => exact ⟨_, execGeyserStop_only c s, rfl, .inl rfl⟩
  | geyserSample => exact ⟨_, execGeyserSample_only s, rfl, .inl rfl⟩
  | geyserTrigger t => exact ⟨_, execGeyserTrigger_only t s, rfl, .inl rfl⟩
  | partialMsg src p => exact ⟨_, execPartialMsg_only src p s, rfl, .inl rfl⟩
  | partialAck slot window => exact ⟨_, execPartialAck_only slot window s, rfl, .inl rfl⟩
  | mergeWaitExpire slot window => exact ⟨_, execMergeWaitExpire_only slot window s, rfl, .inl rfl⟩
  | slotCapture a => exact ⟨_, execSlotCapture_only a s, rfl, .inl rfl⟩
  | qpWrite a => exact ⟨_, execQpWrite_only a s, rfl, .inl rfl⟩
  | redLoad c => exact ⟨_, execRedLoad_only c s, rfl, .inl rfl⟩
  | redActivate c => exact ⟨_, execRedActivate_only c s, rfl, .inl rfl⟩
  | redClearSlot c => exact ⟨_, execRedClearSlot_only c s, rfl, .inl rfl⟩
  | redCopySlot c => exact ⟨_, execRedCopySlot_only c s, rfl, .inl rfl⟩
  | redDump c => exact ⟨_, execRedDump_only c s, rfl, .inl rfl⟩
  | batchStart engine => exact ⟨_, execBatchStart_only engine s, rfl, .inl rfl⟩
  | inferenceIssue engine => exact ⟨_, execInferenceIssue_only engine s, rfl, .inl rfl⟩
  | verdictOut engine => exact ⟨_, execVerdictOut_only engine s, rfl, .inl rfl⟩
  | scrubRow engine bank bad stuck => exact ⟨_, execScrubRow_only engine bank bad stuck s, rfl, .inl rfl⟩
  | bankMove engine bank => exact ⟨_, execBankMove_only engine bank s, rfl, .inl rfl⟩
  | tcamRewrite engine => exact ⟨_, execTcamRewrite_only engine s, rfl, .inl rfl⟩
  | forestLoad c => exact ⟨_, execForestLoad_only c s, rfl, .inl rfl⟩
  | forestActivate c => exact ⟨_, execForestActivate_only c s, rfl, .inl rfl⟩
  | forestScore c => exact ⟨_, execForestScore_only c s, rfl, .inl rfl⟩
  | forestDump c => exact ⟨_, execForestDump_only c s, rfl, .inl rfl⟩
  | ftabLoad c => exact ⟨_, execFtabLoad_only c s, rfl, .inl rfl⟩
  | ftabSeal c => exact ⟨_, execFtabSeal_only c s, rfl, .inl rfl⟩
  | ftabActivate c => exact ⟨_, execFtabActivate_only c s, rfl, .inl rfl⟩
  | ftabCopy c => exact ⟨_, execFtabCopy_only c s, rfl, .inl rfl⟩
  | ftabWrite a => exact ⟨_, execFtabWrite_only a s, rfl, .inl rfl⟩
  | tileReport probe words last => exact ⟨_, execTileReport_only probe words last s, rfl, .inl rfl⟩
  | katStart => exact ⟨_, execKatStart_only s, rfl, .inl rfl⟩
  | testAck probe => exact ⟨_, execTestAck_only probe s, rfl, .inl rfl⟩
  | signatureReport probe words => exact ⟨_, execSignatureReport_only probe words s, rfl, .inl rfl⟩
  | katTimeout => exact ⟨_, execKatTimeout_only s, rfl, .inl rfl⟩
  | poison bytes => exact ⟨_, execPoison_only bytes s, rfl, .inl rfl⟩
  | poisonAck seq loc => exact ⟨_, execPoisonAck_only seq loc s, rfl, .inl rfl⟩
  | poisonResend seq loc => exact ⟨_, execPoisonResend_only seq loc s, rfl, .inl rfl⟩
  | kernelWrite a => exact ⟨_, execKernelWrite_only a s, rfl, .inl rfl⟩
  | checkRegister c => exact ⟨_, execCheckRegister_only c s, rfl, .inl rfl⟩
  | checkUnregister c => exact ⟨_, execCheckUnregister_only c s, rfl, .inl rfl⟩
  | checkPoison c => exact ⟨_, execCheckPoison_only c s, rfl, .inl rfl⟩
  | katRun c => exact ⟨_, execKatRun_only c s, rfl, .inl rfl⟩
  | fence c => exact ⟨_, execFence_only c s, rfl, .inl rfl⟩
  | unfence c => exact ⟨_, execUnfence_only c s, rfl, .inl rfl⟩
  | checkClearStats c => exact ⟨_, execCheckClearStats_only c s, rfl, .inl rfl⟩
  | ptpSync port m ts => exact ⟨_, execPtpSync_only port m ts s, rfl, .inl rfl⟩
  | ptpFollowUp port m => exact ⟨_, execPtpFollowUp_only port m s, rfl, .inl rfl⟩
  | ptpDelayReq port m ts => exact ⟨_, execPtpDelayReq_only port m ts s, rfl, .inl rfl⟩
  | ptpDelayResp port m => exact ⟨_, execPtpDelayResp_only port m s, rfl, .inl rfl⟩
  | ptpAnnounce port m ann => exact ⟨_, execPtpAnnounce_only port m ann s, rfl, .inl rfl⟩
  | syncSend port ts => exact ⟨_, execSyncSend_only port ts s, rfl, .inl rfl⟩
  | delayReqSend port ts => exact ⟨_, execDelayReqSend_only port ts s, rfl, .inl rfl⟩
  | announceTimer port => exact ⟨_, execAnnounceTimer_only port s, rfl, .inl rfl⟩
  | tslost port delay => exact ⟨_, execTslost_only port delay s, rfl, .inl rfl⟩
  | lockStep => exact ⟨_, execLockStep_only s, rfl, .inl rfl⟩
  | syncTimeout => exact ⟨_, execSyncTimeout_only s, rfl, .inl rfl⟩
  | relockStep => exact ⟨_, execRelockStep_only s, rfl, .inl rfl⟩
  | ppsInEdge ts => exact ⟨_, execPpsInEdge_only ts s, rfl, .inl rfl⟩
  | ppsOutPulse => exact ⟨_, execPpsOutPulse_only s, rfl, .inl rfl⟩
  | epochBaseWrite a => exact ⟨_, execEpochBaseWrite_only a s, rfl, .inl rfl⟩
  | refclkWrite a => exact ⟨_, execRefclkWrite_only a s, rfl, .inl rfl⟩
  | timeRelock c => exact ⟨_, execTimeRelock_only c s, rfl, .inl rfl⟩
  | timeSet c => exact ⟨_, execTimeSet_only c s, rfl, .inl rfl⟩
  | timeHold c => exact ⟨_, execTimeHold_only c s, rfl, .inl rfl⟩
  | frameReceive port => exact ⟨_, execFrameReceive_only port s, rfl, .inl rfl⟩
  | codewordReceive port lanes => exact ⟨_, execCodewordReceive_only port lanes s, rfl, .inl rfl⟩
  | linkCtrl chan dst ack m => exact ⟨_, execLinkCtrl_only chan dst ack m s, rfl, .inl rfl⟩
  | ackTimer chan => exact ⟨_, execAckTimer_only chan s, rfl, .inl rfl⟩
  | creditReturn chan => exact ⟨_, execCreditReturn_only chan s, rfl, .inl rfl⟩
  | keepaliveSend chan => exact ⟨_, execKeepaliveSend_only chan s, rfl, .inl rfl⟩
  | partnerLost chan phy => exact ⟨_, execPartnerLost_only chan phy s, rfl, .inl rfl⟩
  | linkUp port => exact ⟨_, execLinkUp_only port s, rfl, .inl rfl⟩
  | trainTs1 port lanes => exact ⟨_, execTrainTs1_only port lanes s, rfl, .inl rfl⟩
  | trainTs2 b => exact ⟨_, execTrainTs2_only b s, rfl, .inl rfl⟩
  | trainTimeout port => exact ⟨_, execTrainTimeout_only port s, rfl, .inl rfl⟩
  | alignmentMarker port lanes => exact ⟨_, execAlignmentMarker_only port lanes s, rfl, .inl rfl⟩
  | ucieAlign port chunk => exact ⟨_, execUcieAlign_only port chunk s, rfl, .inl rfl⟩
  | ucieActiveChange port active => exact ⟨_, execUcieActiveChange_only port active s, rfl, .inl rfl⟩
  | ucieRepair port lane => exact ⟨_, execUcieRepair_only port lane s, rfl, .inl rfl⟩
  | laneFail port lane => exact ⟨_, execLaneFail_only port lane s, rfl, .inl rfl⟩
  | swapRepeat port => exact ⟨_, execSwapRepeat_only port s, rfl, .inl rfl⟩
  | laneSwitch port tx => exact ⟨_, execLaneSwitch_only port tx s, rfl, .inl rfl⟩
  | linkResetEvent port => exact ⟨_, execLinkResetEvent_only port s, rfl, .inl rfl⟩
  | frameSelect port => exact ⟨_, execFrameSelect_only port s, rfl, .inl rfl⟩
  | frameEnqueue port => exact ⟨_, execFrameEnqueue_only port s, rfl, .inl rfl⟩
  | ethernetFrame port bytes => exact ⟨_, execEthernetFrame_only port bytes s, rfl, .inl rfl⟩
  | gateSwitch port => exact ⟨_, execGateSwitch_only port s, rfl, .inl rfl⟩
  | parentChange port => exact ⟨_, execParentChange_only port s, rfl, .inl rfl⟩
  | proxyReq port src tag addr wr data priv rid job =>
    exact ⟨_, execProxyReq_only port src tag addr wr data priv rid job s, rfl, .inl rfl⟩
  | proxyRsp port tag rsp data => exact ⟨_, execProxyRsp_only port tag rsp data s, rfl, .inl rfl⟩
  | proxyTimeout tag => exact ⟨_, execProxyTimeout_only tag s, rfl, .inl rfl⟩
  | linkReset c => exact ⟨_, execLinkReset_only c s, rfl, .inl rfl⟩
  | gateSet c => exact ⟨_, execGateSet_only c s, rfl, .inl rfl⟩
  | parentSwap c => exact ⟨_, execParentSwap_only c s, rfl, .inl rfl⟩
  | laneRetire c => exact ⟨_, execLaneRetire_only c s, rfl, .inl rfl⟩
  | linkStatsClear c => exact ⟨_, execLinkStatsClear_only c s, rfl, .inl rfl⟩
  | sinterEncodeBlock => exact ⟨_, execSinterEncodeBlock_only s, rfl, .inl rfl⟩
  | sinterDecodeBlock => exact ⟨_, execSinterDecodeBlock_only s, rfl, .inl rfl⟩
  | sinterPack c => exact ⟨_, execSinterPack_only c s, rfl, .inl rfl⟩
  | sinterUnpack c => exact ⟨_, execSinterUnpack_only c s, rfl, .inl rfl⟩
  | bcast port b => exact ⟨_, execBcast_only port b s, rfl, .inl rfl⟩
  | bcastAck a => exact ⟨_, execBcastAck_only a s, rfl, .inl rfl⟩
  | bcastAckSend origin seq => exact ⟨_, execBcastAckSend_only origin seq s, rfl, .inl rfl⟩
  | pendingExpire origin seq => exact ⟨_, execPendingExpire_only origin seq s, rfl, .inl rfl⟩
  | jobRelease job => exact ⟨_, execJobRelease_only job s, rfl, .inl rfl⟩
  | jobStart c => exact ⟨_, execJobStart_only c s, rfl, .inl rfl⟩
  | jobEnd c => exact ⟨_, execJobEnd_only c s, rfl, .inl rfl⟩
  | stepMark c => exact ⟨_, execStepMark_only c s, rfl, .inl rfl⟩
  | jobLiveness c => exact ⟨_, execJobLiveness_only c s, rfl, .inl rfl⟩
  | runtimeSet c => exact ⟨_, execRuntimeSet_only c s, rfl, .inl rfl⟩
  | stepPartial src p => exact ⟨_, execStepPartial_only src p s, rfl, .inl rfl⟩
  | stepWaitExpire job step => exact ⟨_, execStepWaitExpire_only job step s, rfl, .inl rfl⟩
  | heartbeat src b => exact ⟨_, execHeartbeat_only src b s, rfl, .inl rfl⟩
  | livenessCheck => exact ⟨_, execLivenessCheck_only s, rfl, .inl rfl⟩
  | notice bytes => exact ⟨_, execNotice_only bytes s, rfl, .inl rfl⟩
  | verifyDecision result => exact ⟨_, execVerifyDecision_only result s, rfl, .inl rfl⟩
  | powerDecision => exact ⟨_, execPowerDecision_only s, rfl, .inl rfl⟩
  | fcAck => exact ⟨_, execFcAck_only s, rfl, .inl rfl⟩
  | fcGoAck => exact ⟨_, execFcGoAck_only s, rfl, .inl rfl⟩
  | vidAck => exact ⟨_, execVidAck_only s, rfl, .inl rfl⟩
  | pmbusVoutPoll mv => exact ⟨_, execPmbusVoutPoll_only mv s, rfl, .inl rfl⟩
  | vfault => exact ⟨_, execVfault_only s, rfl, .inl rfl⟩
  | kCorrection iout => exact ⟨_, execKCorrection_only iout s, rfl, .inl rfl⟩
  | droopDetect r halfFs => exact ⟨_, execDroopDetect_only r halfFs s, rfl, .inl rfl⟩
  | droopClear r halvesFs => exact ⟨_, execDroopClear_only r halvesFs s, rfl, .inl rfl⟩
  | droopHoldEnd r => exact ⟨_, execDroopHoldEnd_only r s, rfl, .inl rfl⟩
  | sustainedDroop r => exact ⟨_, execSustainedDroop_only r s, rfl, .inl rfl⟩
  | alertN low status => exact ⟨_, execAlertN_only low status s, rfl, .inl rfl⟩
  | sensorReading ch val => exact ⟨_, execSensorReading_only ch val s, rfl, .inl rfl⟩
  | sensorQuiet ch => exact ⟨_, execSensorQuiet_only ch s, rfl, .inl rfl⟩
  | waveRelease => exact ⟨_, execWaveRelease_only s, rfl, .inl rfl⟩
  | hpwrSetCap c => exact ⟨_, execHpwrSetCap_only c s, rfl, .inl rfl⟩
  | hpwrResume c => exact ⟨_, execHpwrResume_only c s, rfl, .inl rfl⟩
  | hpwrTripClear c => exact ⟨_, execHpwrTripClear_only c s, rfl, .inl rfl⟩
  | hpwrRailClear c => exact ⟨_, execHpwrRailClear_only c s, rfl, .inl rfl⟩
  | barrier c => exact ⟨_, execBarrier_only c s, rfl, .inl rfl⟩
  | idleTimerDoze => exact ⟨_, execIdleTimerDoze_only s, rfl, .inl rfl⟩
  | idleTimerEmber => exact ⟨_, execIdleTimerEmber_only s, rfl, .inl rfl⟩
  | bpwrEnter c => exact ⟨_, execBpwrEnter_only c s, rfl, .inl rfl⟩
  | subsystemAnswer sub => exact ⟨_, execSubsystemAnswer_only sub s, rfl, .inl rfl⟩
  | entryTimeout => exact ⟨_, execEntryTimeout_only s, rfl, .inl rfl⟩
  | wake periods => exact ⟨_, execWake_only periods s, rfl, .inl rfl⟩
  | wakeN => exact ⟨_, execWakeN_only s, rfl, .inl rfl⟩
  | wakeLead => exact ⟨_, execWakeLead_only s, rfl, .inl rfl⟩
  | emberWakeTimer => exact ⟨_, execEmberWakeTimer_only s, rfl, .inl rfl⟩
  | wickCycle running => exact ⟨_, execWickCycle_only running s, rfl, .inl rfl⟩
  | supplyGood r refclk => exact ⟨_, execSupplyGood_only r refclk s, rfl, .inl rfl⟩
  | brownout r => exact ⟨_, execBrownout_only r s, rfl, .inl rfl⟩
  | pinReset => exact ⟨_, execPinReset_only s, rfl, .inl rfl⟩
  | rotReset => exact ⟨_, execRotReset_only s, rfl, .inl rfl⟩
  | bistDone b => exact ⟨_, execBistDone_only b s, rfl, .inr (.inr ⟨_, rfl⟩)⟩
  | refclkLoss => exact ⟨_, execRefclkLoss_only s, rfl, .inl rfl⟩
  | bpwrReset c => exact ⟨_, execBpwrReset_only c s, rfl, .inl rfl⟩
  | warmReset => exact ⟨_, execWarmReset_only s, rfl, .inl rfl⟩
  | packageReset => exact ⟨_, execPackageReset_only s, rfl, .inl rfl⟩
  | regionReset region rot => exact ⟨_, execRegionReset_only region rot s, rfl, .inl rfl⟩
  | regionResetEnd region => exact ⟨_, execRegionResetEnd_only region s, rfl, .inl rfl⟩
  | transactionRetire tag => exact ⟨_, execTransactionRetire_only tag s, rfl, .inl rfl⟩
  | bpwrWickTest c => exact ⟨_, execBpwrWickTest_only c s, rfl, .inl rfl⟩
  | logWrite => exact ⟨_, execLogWrite_only s, rfl, .inl rfl⟩
  | event bytes => exact ⟨_, execEvent_only bytes s, rfl, .inl rfl⟩
  | logCapture a => exact ⟨_, execLogCapture_only a s, rfl, .inl rfl⟩
  | patrolRead u stored valid holds => exact ⟨_, execPatrolRead_only u stored valid holds s, rfl, .inl rfl⟩
  | mirror src bytes => exact ⟨_, execMirror_only src bytes s, rfl, .inl rfl⟩
  | mirrorUpdate item => exact ⟨_, execMirrorUpdate_only item s, rfl, .inl rfl⟩
  | fumDump c => exact ⟨_, execFumDump_only c s, rfl, .inl rfl⟩
  | fumClear c => exact ⟨_, execFumClear_only c s, rfl, .inl rfl⟩
  | fumWrite c => exact ⟨_, execFumWrite_only c s, rfl, .inl rfl⟩
  | stateCkpt c => exact ⟨_, execStateCkpt_only c s, rfl, .inl rfl⟩
  | stateRestore c => exact ⟨_, execStateRestore_only c s, rfl, .inl rfl⟩
  | statePull c => exact ⟨_, execStatePull_only c s, rfl, .inl rfl⟩
  | stateDigests c => exact ⟨_, execStateDigests_only c s, rfl, .inl rfl⟩
  | tracePacketPlace probe => exact ⟨_, execTracePacketPlace_only probe s, rfl, .inl rfl⟩
  | traceSyncTimer => exact ⟨_, execTraceSyncTimer_only s, rfl, .inl rfl⟩
  | traceStallLimit ring => exact ⟨_, execTraceStallLimit_only ring s, rfl, .inl rfl⟩
  | trace src bytes => exact ⟨_, execTrace_only src bytes s, rfl, .inl rfl⟩
  | traceSessionStart => exact ⟨_, execTraceSessionStart_only s, rfl, .inl rfl⟩
  | traceSessionStop => exact ⟨_, execTraceSessionStop_only s, rfl, .inl rfl⟩
  | trigIn line rising ts => exact ⟨_, execTrigIn_only line rising ts s, rfl, .inl rfl⟩
  | trigOutPulse line => exact ⟨_, execTrigOutPulse_only line s, rfl, .inl rfl⟩
  | trigOutEnd line => exact ⟨_, execTrigOutEnd_only line s, rfl, .inl rfl⟩
  | traceStart c => exact ⟨_, execTraceStart_only c s, rfl, .inl rfl⟩
  | traceStop c => exact ⟨_, execTraceStop_only c s, rfl, .inl rfl⟩
  | traceMark c => exact ⟨_, execTraceMark_only c s, rfl, .inl rfl⟩
  | traceAuth c => exact ⟨_, execTraceAuth_only c s, rfl, .inl rfl⟩
  | snuffInN low => exact ⟨_, execSnuffInN_only low s, rfl, .inl rfl⟩
  | snuffCut => exact ⟨_, execSnuffCut_only s, rfl, .inl rfl⟩
  | stopAck probe edges => exact ⟨_, execStopAck_only probe edges s, rfl, .inl rfl⟩
  | snuffClearApply => exact ⟨_, execSnuffClearApply_only s, rfl, .inl rfl⟩
  | snuffNow c => exact ⟨_, execSnuffNow_only c s, rfl, .inl rfl⟩
  | snuffAt c => exact ⟨_, execSnuffAt_only c s, rfl, .inl rfl⟩
  | snuffClear c => exact ⟨_, execSnuffClear_only c s, rfl, .inl rfl⟩
  | snuffDump c => exact ⟨_, execSnuffDump_only c s, rfl, .inl rfl⟩
  | snuffRelease c => exact ⟨_, execSnuffRelease_only c s, rfl, .inl rfl⟩
  | loopRun c => exact ⟨_, execLoopRun_only c s, rfl, .inl rfl⟩
  | extest shift pins => exact ⟨_, execExtest_only shift pins s, rfl, .inl rfl⟩
  | idcode => exact ⟨_, execIdcode_only s, rfl, .inl rfl⟩
  | samplePreload shift pins => exact ⟨_, execSamplePreload_only shift pins s, rfl, .inl rfl⟩
  | kxAccess dr => exact ⟨_, execKxAccess_only dr s, rfl, .inl rfl⟩
  | snuffScan restart => exact ⟨_, execSnuffScan_only restart s, rfl, .inl rfl⟩
  | funnelRead restart => exact ⟨_, execFunnelRead_only restart s, rfl, .inl rfl⟩
  | snuffReq v => exact ⟨_, execSnuffReq_only v s, rfl, .inl rfl⟩
  | bypass shift => exact ⟨_, execBypass_only shift s, rfl, .inl rfl⟩
  | rotBoot b => exact ⟨_, execRotBoot_only b s, rfl, .inl rfl⟩
  | measureDone => exact ⟨_, execMeasureDone_only s, rfl, .inl rfl⟩
  | rehash digest => exact ⟨_, execRehash_only digest s, rfl, .inl rfl⟩
  | firmwareRehash same => exact ⟨_, execFirmwareRehash_only same s, rfl, .inl rfl⟩
  | getVersion m => exact ⟨_, execGetVersion_only m s, rfl, .inl rfl⟩
  | getCapabilities m => exact ⟨_, execGetCapabilities_only m s, rfl, .inl rfl⟩
  | negotiateAlgorithms m => exact ⟨_, execNegotiateAlgorithms_only m s, rfl, .inl rfl⟩
  | getDigests m => exact ⟨_, execGetDigests_only m s, rfl, .inl rfl⟩
  | getCertificate m slot offset length => exact ⟨_, execGetCertificate_only m slot offset length s, rfl, .inl rfl⟩
  | challenge m slot => exact ⟨_, execChallenge_only m slot s, rfl, .inl rfl⟩
  | getMeasurements m op signed => exact ⟨_, execGetMeasurements_only m op signed s, rfl, .inl rfl⟩
  | keyExchange m reqId point => exact ⟨_, execKeyExchange_only m reqId point s, rfl, .inl rfl⟩
  | finish m root good => exact ⟨_, execFinish_only m root good s, rfl, .inl rfl⟩
  | spdmHeartbeat m => exact ⟨_, execSpdmHeartbeat_only m s, rfl, .inl rfl⟩
  | keyUpdate m op => exact ⟨_, execKeyUpdate_only m op s, rfl, .inl rfl⟩
  | endSession m => exact ⟨_, execEndSession_only m s, rfl, .inl rfl⟩
  | respondIfReady m token => exact ⟨_, execRespondIfReady_only m token s, rfl, .inl rfl⟩
  | sessionTimeout id => exact ⟨_, execSessionTimeout_only id s, rfl, .inl rfl⟩
  | regAccess m entries => exact ⟨_, execRegAccess_only m entries s, rfl, .inl rfl⟩
  | linkShare m port => exact ⟨_, execLinkShare_only m port s, rfl, .inl rfl⟩
  | linkInstall m port share chain => exact ⟨_, execLinkInstall_only m port share chain s, rfl, .inl rfl⟩
  | linkArm m port => exact ⟨_, execLinkArm_only m port s, rfl, .inl rfl⟩
  | traceToken m sources dests notAfter => exact ⟨_, execTraceToken_only m sources dests notAfter s, rfl, .inl rfl⟩
  | shareExpire port => exact ⟨_, execShareExpire_only port s, rfl, .inl rfl⟩
  | spdmXfer c => exact ⟨_, execSpdmXfer_only c s, rfl, .inl rfl⟩
  | fwStage c => exact ⟨_, execFwStage_only c s, rfl, .inl rfl⟩
  | fwCommit c => exact ⟨_, execFwCommit_only c s, rfl, .inl rfl⟩
  | fwAbort c => exact ⟨_, execFwAbort_only c s, rfl, .inl rfl⟩
  | rotCtrlReset a => exact ⟨_, execRotCtrlReset_only a s, rfl, .inl rfl⟩
  | hostMemoryResponse tag code last data => exact ⟨_, execHostMemoryResponse_only tag code last data s, rfl, .inl rfl⟩
  | hostMemoryRetry tag => exact ⟨_, execHostMemoryRetry_only tag s, rfl, .inl rfl⟩
  | hostResponseAck => exact ⟨_, execHostResponseAck_only s, rfl, .inl rfl⟩
  | moduleVin mv => exact ⟨_, execModuleVin_only mv s, rfl, .inl rfl⟩
  | converterPoll words => exact ⟨_, execConverterPoll_only words s, rfl, .inl rfl⟩
  | presentN low => exact ⟨_, execPresentN_only low s, rfl, .inl rfl⟩
  | ejectN low c => exact ⟨_, execEjectN_only low c s, rfl, .inl rfl⟩
  | fenceAck probe => exact ⟨_, execFenceAck_only probe s, rfl, .inl rfl⟩
  | ppsMiss => exact ⟨_, execPpsMiss_only s, rfl, .inl rfl⟩
  | refclkReturn => exact ⟨_, execRefclkReturn_only s, rfl, .inl rfl⟩
  | pinResetRelease straps => exact ⟨_, execPinResetRelease_only straps s, rfl, .inr (.inl ⟨_, rfl⟩)⟩
  | warmResetEnd => exact ⟨_, execWarmResetEnd_only s, rfl, .inl rfl⟩
  | busyReplay chan => exact ⟨_, execBusyReplay_only chan s, rfl, .inl rfl⟩
  | gateWindowOpen port cls => exact ⟨_, execGateWindowOpen_only port cls s, rfl, .inl rfl⟩
  | idleWindowTimeout pkg page => exact ⟨_, execIdleWindowTimeout_only pkg page s, rfl, .inl rfl⟩
  | scoreSlotTimeout pkg page => exact ⟨_, execScoreSlotTimeout_only pkg page s, rfl, .inl rfl⟩
  | notSynced => exact ⟨_, execNotSynced_only s, rfl, .inl rfl⟩
  | loopTimeout pkg page => exact ⟨_, execLoopTimeout_only pkg page s, rfl, .inl rfl⟩
  | noMaster pkg page => exact ⟨_, execNoMaster_only pkg page s, rfl, .inl rfl⟩

/-- What a frame does not name is kept. -/
theorem same_of_free {s t : State} {l : List Part} {p : Part} (h : s.onlyChanges t l) (hp : free l p = true) : p.same s t :=
  h p fun q hq => by simpa using List.all_eq_true.mp hp q hq

/-- Settles O60: every command goes on to a settled state, by its frame with the queue that it found and, but for two, its
straps. -/
theorem noCommandStopsTheBlock : Obligations.NoCommandStopsTheBlock := by
  unfold Obligations.NoCommandStopsTheBlock
  intro i s
  obtain ⟨l, ⟨t, ht, ho⟩, hqueue, hstraps⟩ := exec_frame i s
  refine ⟨t, ht, exec_linesHeld ht, same_of_free ho hqueue, fun hrelease hbist => ?_⟩
  rcases hstraps with hfree | ⟨x, rfl⟩ | ⟨x, rfl⟩
  · exact same_of_free ho hfree
  · exact absurd rfl (hrelease x)
  · exact absurd rfl (hbist x)

end Sys2Proof.Machine
end

section
/-!
O11 and O15 to O20 (R60, R73, R74, R76, R77, R79, R80, R82, R534): accesses to register pages and command pages. An access that
its page lets pass is one operation on the state with the idle timer restarted, and then the answer; so each statement is the
meaning of that operation, and its frame.
-/
namespace Sys2Proof.Machine

/-! ### What the answer, and a change of one header or one page, leave -/

section Leaves
variable (s : State) (q : Req) (r : Resp) (d : Word)

@[simp] theorem respond_hdr (p : Nat) : (s.respond q r d).hdr p = s.hdr p := by
  obtain ⟨_, _, _, h⟩ := respond_frame s q r d; rw [h]; rfl

@[simp] theorem respond_cmd (g : Bool) (n : Nat) : (s.respond q r d).cmd g n = s.cmd g n := by
  obtain ⟨_, _, _, h⟩ := respond_frame s q r d; rw [h]; rfl

@[simp] theorem respond_samp : (s.respond q r d).samp = s.samp := by
  obtain ⟨_, _, _, h⟩ := respond_frame s q r d; rw [h]

@[simp] theorem respond_fum : (s.respond q r d).fum = s.fum := by
  obtain ⟨_, _, _, h⟩ := respond_frame s q r d; rw [h]

@[simp] theorem respond_rot : (s.respond q r d).rot = s.rot := by
  obtain ⟨_, _, _, h⟩ := respond_frame s q r d; rw [h]

@[simp] theorem respond_snapSeq : (s.respond q r d).pages.snapSeq = s.pages.snapSeq := by
  obtain ⟨_, _, _, h⟩ := respond_frame s q r d; rw [h]

@[simp] theorem respond_snapTime : (s.respond q r d).pages.snapTime = s.pages.snapTime := by
  obtain ⟨_, _, _, h⟩ := respond_frame s q r d; rw [h]

theorem modHdr_hdr (p k : Nat) (f : Header → Header) : (s.modHdr p f).hdr k = if k = p then f (s.hdr p) else s.hdr k :=
  Tab.read_modify Header.reset s.pages.hdr p k f

@[simp] theorem modHdr_hdr_same (p : Nat) (f : Header → Header) : (s.modHdr p f).hdr p = f (s.hdr p) := by
  rw [modHdr_hdr, if_pos rfl]

@[simp] theorem setErr_hdr_same (p b : Nat) :
    (s.setErr p b).hdr p = { s.hdr p with err := setBit (s.hdr p).err b true } := modHdr_hdr_same s p _

@[simp] theorem setCmd_cmd_same (g : Bool) (n : Nat) (c : CmdPage) : (s.setCmd g n c).cmd g n = c :=
  Tab.read_write_same _ _ _ _

@[simp] theorem touchItem_hdr (i p : Nat) : (s.touchItem i).hdr p = s.hdr p := rfl

end Leaves

/-! ### From an access to what its step leaves -/

/-- The step of an access that answers from state `u` is `u` with the answer delivered and the interrupts settled. -/
theorem access_ends {s u : State} {a : Access} {r : Resp} {d : Word} {L : List Part} {P : State → Prop}
    (hx : s.access a = u.respond a.req r d) (hu : s.onlyChanges u ([.power, .activity] ++ L)) (hout : free L .out = true)
    (hhost : free L .host = true) (hP : P (u.respond a.req r d).settle) :
    ∃ t, finish (s.access a) = .next t ∧ s.answered t a.req r d ∧ s.onlyChanges t (accessParts ++ L) ∧ P t := by
  have ho : u.out = s.out := same_of_free (p := .out) hu hout
  have hh : u.pages.host = s.pages.host := same_of_free (p := .host) hu hhost
  have hsub : ∀ z ⊆ accessParts, names (accessParts ++ L) z = true := fun z hz =>
    names_of_subset (List.subset_append_of_subset_left L hz)
  rw [hx]
  refine ⟨_, rfl, answered_settle ⟨[], ho⟩ hh, ?_, hP⟩
  refine settle_only (hsub _ (by simp [accessParts])) (respond_only (hsub _ (by simp [accessParts])) ?_)
  exact onlyChanges_mono hu (names_of_subset (List.append_subset.mpr
    ⟨List.subset_append_of_subset_left L (by simp [accessParts]), List.subset_append_right accessParts L⟩))

/-- Restarting the idle timer is within every frame of an access. -/
theorem busyNow_changes (s : State) (L : List Part) : s.onlyChanges s.busyNow ([.power, .activity] ++ L) :=
  busyNow_only (names_of_subset (by simp)) (onlyChanges_refl s _)

/-- A write past the checks of its page meets the page's guard latch. -/
theorem access_latched {s u : State} {a : Access} {key off : Nat} (h : s.mayWrite a key off)
    (hw : s.busyNow.latchedWrite key off a.req a.data = (.ok, u)) : s.access a = u.respond a.req .ok 0 := by
  obtain ⟨hr, hwr, hk, hs, hb, hi⟩ := h
  obtain ⟨page, e⟩ := access_reaches hr
  obtain ⟨-, -, -, -, ho, hbe⟩ := hr
  have htag : ¬(a.req.tag.rank < s.busyNow.writeRank key (off % 0x800)) := not_lt.mpr hk
  have hopen : ¬(0x40 ≤ off % 0x800 ∧ s.busyNow.pageShut key = true) := fun ⟨x, y⟩ =>
    Bool.false_ne_true ((hs x).symm.trans y)
  have hfree : s.busyNow.behindReset key (off % 0x800) = false := hb
  rw [e]
  simp [State.pageAccess, ho, hbe, hwr, State.writeAnswered, State.writePage, htag, hopen, hfree, hw, hi]

/-- With no latch armed, a write past the checks of its page that is answered OK. -/
theorem access_fresh_ok {s u : State} {a : Access} {key off : Nat} (h : s.mayWrite a key off) (hg : (s.hdr key).guard = none)
    (hw : s.busyNow.freshWrite key off a.req a.data = (.ok, u)) : s.access a = u.respond a.req .ok 0 := by
  rw [access_fresh h hg]
  simp [hw]

/-- A write past the checks of its page to a register that is not guarded. -/
theorem freshWrite_plain {s : State} {key off : Nat} {q : Req} {w : Word} (ho : off < 0x800) (hg : guardedAt key off = false) :
    s.freshWrite key off q w = s.plainWrite key off q w := by
  simp [State.freshWrite, hg, not_le.mpr ho]

/-! ### Accesses that are not one aligned word (R60) -/

/-- Such an access is turned away before anything else is looked at. -/
theorem access_unaligned {s : State} {a : Access} {key page off : Nat} (hd : s.dark = false)
    (hw : ¬(a.req.port = .host ∧ (64 ≤ s.hostWaits ∨ s.chanOpen (.converter .host 0) = false)))
    (ht : s.target false a.addr.toNat = .page key page off) (hbad : off % 4 ≠ 0 ∨ a.be ≠ 0xF) :
    s.access a = (s.setErr key errAccess).respond a.req .error 0 := by
  have hoff := target_off ht
  have hbad' : (decide (a.addr.toNat % 4 ≠ 0) || decide (a.be ≠ 0xF)) = true := by
    rw [Bool.or_eq_true, decide_eq_true_eq, decide_eq_true_eq]
    exact hbad.imp_left fun h => by omega
  simp only [State.access, hw, if_false, State.serve, Option.isSome_none, ht, hd, Bool.false_eq_true, hbad', if_true,
    State.turnAway, decide_true, Bool.true_or]

/-- Settles O11: the access is turned away with ACCESS_ERR of its page. -/
theorem unalignedAccessesHaveNoEffect : Obligations.UnalignedAccessesHaveNoEffect := by
  unfold Obligations.UnalignedAccessesHaveNoEffect
  intro a s key page off hd _ hw ht hbad
  refine access_ends (access_unaligned hd hw ht hbad) (setErr_only ?_ (onlyChanges_refl s _)) rfl rfl ⟨?_, fun k hk => ?_⟩
  · exact names_of_subset (by simp)
  · rw [settle_hdrOf, respond_hdr, setErr_hdr_same]
    rfl
  · rw [settle_hdrOf, respond_hdr, setErr_hdr, if_neg hk]

/-! ### Guarded writes (R73, R74) -/

theorem setErr_hdr_upto (s : State) (p b k : Nat) : ∃ e, (s.setErr p b).hdr k = { s.hdr k with err := e } := by
  rw [setErr_hdr]
  split_ifs with h
  · subst h
    exact ⟨_, rfl⟩
  · exact ⟨_, rfl⟩

theorem dropRec_hdr_upto (s : State) (v k : Nat) : ∃ e, (s.dropRec v).hdr k = { s.hdr k with err := e } :=
  setErr_hdr_upto _ _ _ _

/-- A record changes no header but for PAGE_ERR. -/
theorem log_hdr_upto (s : State) (p i c v b a : Nat) (l : List Byte) (k : Nat) :
    ∃ e, (s.log p i c v b a l).hdr k = { s.hdr k with err := e } := by
  unfold State.log State.logRec
  extract_lets r f u
  have hu : u.hdr k = s.hdr k := traceRec_hdr _ r k
  split
  · obtain ⟨e, he⟩ := dropRec_hdr_upto u v k
    exact ⟨e, by rw [he, hu]⟩
  · exact ⟨_, hu⟩

section Latch
variable (s : State) (key : Nat) (g : Guard)

/-- A latch that is discarded leaves the page disarmed, with GUARD_ERR. -/
theorem latchDrop_hdr (reason : Nat) : ((s.latchDrop key g reason).hdr key).guard = none ∧
    bit ((s.latchDrop key g reason).hdr key).err 7 = true := by
  unfold State.latchDrop State.guardDiscard
  constructor
  · obtain ⟨e, h⟩ := log_hdr_upto ((s.modHdr key fun h => { h with guard := none }).setErr key errGuard) (pageNo key)
      (keyInst key) 0xFFF6 2 g.off (g.rid.toNat + 256 * reason) [] key
    rw [h, setErr_hdr_same, modHdr_hdr_same]
  · refine logRec_err_bit _ _ _ _ _ _ _ ?_
    rw [setErr_hdr_same]
    exact bit_setBit_same _ (by decide)

/-- A latch that is discarded is one record. -/
theorem latchDrop_fum_seq (reason : Nat) : (s.latchDrop key g reason).fum.seq = s.fum.seq + 1 :=
  logRec_fum_seq _ _ _ _ _ _ _ _

/-- A header that has taken a value of PAGE_PRIV, within the floors of its page's TYPE (R65). -/
def privTaken (ty : Nat) (w : Word) (h : Header) : Header :=
  { h with
    rd := BitVec.ofNat 2 (max (pageFloor ty).1.toNat (fld w 30 2))
    wr := BitVec.ofNat 2 (max (pageFloor ty).2.toNat (fld w 28 2)) }

theorem writeHead_priv (w : Word) : s.writeHead key 0x2C w =
    if fld w 30 2 < (pageFloor (keyType key)).1.toNat ∨ fld w 28 2 < (pageFloor (keyType key)).2.toNat then
      (s.modHdr key (privTaken (keyType key) w)).setErr key errPrivClamp
    else s.modHdr key (privTaken (keyType key) w) := rfl

/-- A value below a floor sets PRIV_CLAMP, and is otherwise taken alike. -/
theorem writeHead_priv_hdr (w : Word) :
    ∃ e, (s.writeHead key 0x2C w).hdr key = { privTaken (keyType key) w (s.hdr key) with err := e } := by
  rw [writeHead_priv]
  split_ifs
  · rw [setErr_hdr_same, modHdr_hdr_same]
    exact ⟨_, rfl⟩
  · rw [modHdr_hdr_same]
    exact ⟨_, rfl⟩

@[simp] theorem measure_hdr (i : Nat) (d : List Byte) (p : Option (Bool × Nat)) (k : Nat) :
    (s.measure i d p).hdr k = s.hdr k :=
  same_of_only (.hdr (keyType k)) (fun hL ho => measure_only hL ho) (by simp [Part.covers]) k rfl

/-- An item submitted to the root of trust reads UNMEASURED (R28). -/
theorem measure_status (i : Nat) (d : List Byte) (p : Option (Bool × Nat)) : ((s.measure i d p).meas i).status = .unmeasured := by
  have hset : ((s.setMeas i { status := .unmeasured, digest := [] }).meas i).status = .unmeasured := by
    unfold State.setMeas
    split_ifs with h
    · rw [h]
    · simp only [State.meas, State.putMeas, Tab.read_write_same]
  exact hset

/-- The commit of a guarded PAGE_PRIV. -/
theorem guardCommit_priv (hg : g.off = 0x2C) : s.guardCommit key g =
    (((s.modHdr key fun h => { h with guard := none }).writeHead key 0x2C g.value).touchItem 0x09).measure 5 [] none := by
  simp [State.guardCommit, hg]

theorem guardCommit_priv_hdr (hg : g.off = 0x2C) :
    ∃ e, (s.guardCommit key g).hdr key = { privTaken (keyType key) g.value (s.hdr key) with guard := none, err := e } := by
  obtain ⟨e, he⟩ := writeHead_priv_hdr (s.modHdr key fun h => { h with guard := none }) key g.value
  refine ⟨e, ?_⟩
  rw [guardCommit_priv s key g hg, measure_hdr, touchItem_hdr, he, modHdr_hdr_same]
  rfl

end Latch

/-- A two-bit field and its floor, at their greater. -/
theorem toNat_ofNat_max_fld (f : BitVec 2) (w : Word) (lo : Nat) :
    (BitVec.ofNat 2 (max f.toNat (fld w lo 2))).toNat = max f.toNat (fld w lo 2) := by
  have hf : f.toNat < 2 ^ 2 := f.isLt
  have hw : fld w lo 2 < 2 ^ 2 := Nat.mod_lt _ (by decide)
  rw [BitVec.toNat_ofNat, Nat.mod_eq_of_lt (max_lt hf hw)]

/-- Settles O15: each clause by the one operation on the latch that its write, or the tick, performs. -/
theorem guardedWritesNeedTheirComplement : Obligations.GuardedWritesNeedTheirComplement := by
  unfold Obligations.GuardedWritesNeedTheirComplement
  refine ⟨fun a s key off ho hgd hm hn => ?_, fun a s key g hg hoff ht hr hm hd => ?_, fun a s key off g hg ht hr hm hno => ?_,
    fun page s g hg => ?_⟩
  · have hw : s.busyNow.freshWrite key off a.req a.data =
        (.ok, s.busyNow.modHdr key fun h => { h with guard := some { off, value := a.data, rid := a.req.rid, ticks := 0 } }) := by
      simp [State.freshWrite, hgd, not_le.mpr ho]
    refine access_ends (access_fresh_ok hm hn hw) (modHdr_only ?_ (busyNow_changes s _)) rfl rfl ?_
    · exact names_of_subset (by simp)
    · rw [settle_hdrOf, respond_hdr, modHdr_hdr_same, busyNow_hdr]
  · have hw : s.busyNow.latchedWrite key 0x82C a.req a.data = (.ok, s.busyNow.guardCommit key g) := by
      simp [State.latchedWrite, hg, hr, hoff, hd, not_le.mpr ht]
    have hc := guardCommit_priv s.busyNow key g hoff
    obtain ⟨e, he⟩ := guardCommit_priv_hdr s.busyNow key g hoff
    refine access_ends (access_latched hm hw) ?_ rfl rfl ?_
    · rw [hc]
      refine measure_only ?_ (touchItem_only ?_ (writeHead_only ?_ (modHdr_only ?_ (busyNow_changes s _)))) <;>
        exact names_of_subset (by simp)
    · rw [settle_hdrOf, respond_hdr, he]
      refine ⟨rfl, toNat_ofNat_max_fld _ _ _, toNat_ofNat_max_fld _ _ _, ?_⟩
      rw [State.meas, settle_rot, respond_rot, hc]
      exact measure_status _ _ _ _
  · have hw : s.busyNow.latchedWrite key off a.req a.data = (.ok, s.busyNow.latchDrop key g 1) := by
      simp [State.latchedWrite, hg, hr, hno, not_le.mpr ht]
    obtain ⟨hnone, herr⟩ := latchDrop_hdr s.busyNow key g 1
    refine access_ends (access_latched hm hw) (latchDrop_only ?_ (busyNow_changes s _)) rfl rfl ?_
    · exact names_of_subset (by simp)
    · rw [settle_hdrOf, respond_hdr, settle_fum, respond_fum]
      exact ⟨hnone, herr, latchDrop_fum_seq _ _ _ _⟩
  · have hx : exec (.guardExpire page) s = .next (s.latchDrop page g 2).settle := by
      show finish _ = _
      rw [hg]
      rfl
    obtain ⟨hnone, herr⟩ := latchDrop_hdr s page g 2
    refine ⟨_, hx, frame_of (execGuardExpire_only page s) hx, ?_⟩
    rw [settle_hdrOf, settle_fum]
    exact ⟨hnone, herr, latchDrop_fum_seq _ _ _ _⟩

/-! ### Wide registers (R76)

No page's words show the idle timer, so a read finds what stood there before its own activity. -/

section BusyNow
variable (s : State) (off i key : Nat)

theorem busyNow_portWord : s.busyNow.portWord i off = s.portWord i off := rfl

theorem busyNow_absentBlock : s.busyNow.absentBlock i off = s.absentBlock i off := by
  unfold State.absentBlock
  rfl

theorem busyNow_tportWord : s.busyNow.tportWord i off = s.tportWord i off := by
  have hsys : s.busyNow.isSystem = s.isSystem := rfl
  have hport : ∀ p, s.busyNow.tport p = s.tport p := fun _ => rfl
  have hreg : ∀ p k, s.busyNow.tportReg p k = s.tportReg p k := fun _ _ => rfl
  have hkind : ∀ p, s.busyNow.portKind p = s.portKind p := fun _ => rfl
  have hpeer : ∀ p, s.busyNow.tportPeer p = s.tportPeer p := fun _ => rfl
  simp only [State.tportWord, busyNow_absentBlock, hsys, hport, hreg, hkind, hpeer]

theorem busyNow_plinkWord : s.busyNow.plinkWord off = s.plinkWord off := by
  simp only [State.plinkWord, busyNow_portWord]
  rfl

theorem busyNow_ethWord : s.busyNow.ethWord off = s.ethWord off := by
  simp only [State.ethWord, busyNow_portWord]
  rfl

theorem busyNow_liveWord : s.busyNow.liveWord key off = s.liveWord key off := by
  simp only [State.liveWord, busyNow_tportWord, busyNow_plinkWord, busyNow_ethWord, busyNow_portWord]
  rfl

theorem busyNow_pageWord : s.busyNow.pageWord key off = s.pageWord key off := by
  unfold State.pageWord
  rw [busyNow_liveWord]
  rfl

end BusyNow

/-- A read of the lowest word of a wide register. -/
theorem readReg_wide {s : State} {key off n : Nat} (h : wideAt (keyType key) off = some (off, n, 0)) (hn : 0 < n) :
    s.readReg key off = (s.pageWord key off, s.modHdr key fun h =>
      { h with wide := some (off, (List.range n).map fun j => s.pageWord key (off + 4 * j)) }) := by
  simp [State.readReg, h, List.getD_eq_getElem?_getD, hn]

/-- A header in which nothing is staged for the wide register of `words` words from `base` on. -/
def unstaged (base words : Nat) (h : Header) : Header :=
  { h with staged := h.staged.filter fun e => decide (e.1 < base) || decide (base + 4 * words ≤ e.1) }

theorem storeWord_hdr (s : State) (key off : Nat) (w : Word) (p : Nat) : (s.storeWord key off w).hdr p = s.hdr p := rfl

section PoisonRingBase
variable {s : State} {q : Req} {w hi : Word}

theorem writeMasks_poisonBase_low : writeMasks (pg 0x28) 0xB0 = (0xFFFFFFC0, 0) := by decide

theorem writeMasks_poisonBase_high : writeMasks (pg 0x28) 0xB4 = (BitVec.allOnes 32, 0) := by decide

theorem newWord_poisonBase_low : s.newWord (pg 0x28) 0xB0 w &&& 0xFFFFFC00 = w &&& 0xFFFFFC00 := by
  have hfix : s.newWord (pg 0x28) 0xB0 w = mergeWrite 0xFFFFFFC0 0 (s.reg (pg 0x28) 0xB0) w := by
    simp only [State.newWord, writeMasks_poisonBase_low]; rfl
  rw [hfix, mergeWrite]
  simp [BitVec.and_or_distrib_right, BitVec.and_assoc]

/-- A register all of whose bits are RW takes the word written. -/
theorem mergeWrite_allOnes (v : Word) : mergeWrite (BitVec.allOnes 32) 0 v w = w := by
  show mergeWrite (BitVec.allOnes 32) 0#32 v w = w
  simp only [mergeWrite, BitVec.not_allOnes, BitVec.and_zero, BitVec.zero_or, BitVec.and_allOnes, BitVec.not_zero]

theorem newWord_poisonBase_high : s.newWord (pg 0x28) 0xB4 w = w := by
  have hfix : s.newWord (pg 0x28) 0xB4 w = mergeWrite (BitVec.allOnes 32) 0 (s.reg (pg 0x28) 0xB4) w := by
    simp only [State.newWord, writeMasks_poisonBase_high]; rfl
  rw [hfix, mergeWrite_allOnes]

/-- A write of the lowest word stores both, the higher one as it was staged. -/
theorem freshWrite_poisonBase (hs : (s.hdr (pg 0x28)).staged = [(0xB4, hi)]) : s.freshWrite (pg 0x28) 0xB0 q w =
    (.ok, (((s.touchItem 0x09).modHdr (pg 0x28) (unstaged 0xB0 2)).storeWord (pg 0x28) 0xB0 w).storeWord (pg 0x28) 0xB4 hi) := by
  have hg : guardedAt (pg 0x28) 0xB0 = false := by decide
  have hdata : dataWindow (pg 0x28) 0xB0 = none := by decide
  have haon : isAon (pg 0x28) 0xB0 = false := by decide
  have hwide : wideAt 0x28 0xB0 = some (0xB0, 2, 0) := by decide
  have hkey : keyType (pg 0x28) = 0x28 := by decide
  have hscope : keyScope (pg 0x28) = 0 := by decide
  have hbusy : (s.touchItem 0x09).writeBusy (pg 0x28) 0xB0 = false := by simp [State.writeBusy, hkey, hscope]
  have hcommit : (s.touchItem 0x09).wideWrite (pg 0x28) 0xB0 2 0 w =
      (((s.touchItem 0x09).modHdr (pg 0x28) (unstaged 0xB0 2)).storeWord (pg 0x28) 0xB0 w).storeWord (pg 0x28) 0xB4 hi := by
    rw [State.wideWrite, touchItem_hdr, hs]
    rfl
  rw [freshWrite_plain (by decide) hg]
  simp [State.plainWrite, hdata, State.writeReg, writeMasks_poisonBase_low, cfgWindow, hbusy, haon, hwide, hkey, hcommit]

end PoisonRingBase

/-- Settles O16: the read captures into the header's latch, and the write stores the staged word with its own. -/
theorem wideRegistersMoveWhole : Obligations.WideRegistersMoveWhole := by
  unfold Obligations.WideRegistersMoveWhole
  refine ⟨fun a s key off n hwide h8 h3 h18 hm hn => ?_, fun a s hi hm hg hs => ?_⟩
  · have hdata : dataWindow key off = none := by simp [dataWindow, h3]
    have hread := readReg_wide (s := s.busyNow) hwide hn
    have hx := access_read hm h8 hdata (by simp [State.redDenied, h18])
    simp only [hread, busyNow_pageWord] at hx
    refine access_ends hx (modHdr_only ?_ (busyNow_changes s _)) rfl rfl ?_
    · exact names_of_subset (by simp)
    · rw [settle_hdrOf, respond_hdr, modHdr_hdr_same]
  · have hw := freshWrite_poisonBase (s := s.busyNow) (q := a.req) (w := a.data) hs
    refine access_ends (access_fresh_ok hm hg hw) ?_ rfl rfl ⟨?_, ?_, ?_⟩
    · exact storeWord_only (by decide) (storeWord_only (by decide) (modHdr_only (by decide) (touchItem_only (by decide)
        (busyNow_changes s _))))
    · rw [settle_reg, respond_reg, State.storeWord, reg_setReg_same, newWord_poisonBase_high]
    · rw [settle_reg, respond_reg, State.storeWord, reg_setReg, if_neg (by decide), State.storeWord, reg_setReg_same,
        newWord_poisonBase_low]
    · rw [settle_hdrOf, respond_hdr, storeWord_hdr, storeWord_hdr, modHdr_hdr_same, touchItem_hdr, busyNow_hdr, unstaged, hs]
      rfl

/-! ### The unit window (R77, R79) -/

section UnitWindow
variable {s : State} {a : Access} {q : Req} {c w off : Nat}

/-- A write of TAKE with no wavefront under way. -/
theorem freshWrite_take {v : Word} (hv : bit v 0 = true) (hr : s.snapRuns = false) (hb : s.takeBarred = false) :
    s.freshWrite (pg 0x03) 0x24 q v = (.ok, s.snapTake) := by
  rw [freshWrite_plain (by decide) (by decide)]
  have hkey : keyType (pg 0x03) = 0x03 := by decide
  simp [State.plainWrite, hkey, State.takeWrite, hv, hr, hb]

/-- What a TAKE holds of a probe: its totals with the counts that its concentrator has not taken yet, and its counters. -/
def heldOf (x : Probe) : Held := { t := pendingCounts x x.t, s := x.c, gen := x.gen }

/-- A TAKE holds every probe of a running region that has counted anything. -/
theorem mem_snapTake_heldP {e : Nat × Probe} (he : e ∈ s.samp.probes) (hr : s.regionReset e.1 = false) :
    heldOf e.2 = Held.zero e.1 ∨ (e.1, heldOf e.2) ∈ s.snapTake.samp.heldP := by
  refine or_iff_not_imp_left.mpr fun hne => ?_
  exact List.mem_filter.mpr ⟨List.mem_map.mpr ⟨e, List.mem_filter.mpr ⟨he, by simp [hr]⟩, rfl⟩, by simpa using hne⟩

/-- Word `w` of the data window of context `c`. -/
theorem dataWindow_word (hw : w < 64) (hc : c < 4) : dataWindow (pg 0x03) (0x100 + 0x100 * c + 4 * w) = some (c, w) := by
  have hkey : keyType (pg 0x03) = 0x03 := by decide
  have h1 : (0x100 + 0x100 * c + 4 * w - 0x100) / 0x100 = c := by omega
  have h2 : (0x100 + 0x100 * c + 4 * w) % 0x100 / 4 = w := by omega
  rw [dataWindow, if_pos ⟨hkey, by omega, by omega⟩, h1, h2]

/-- A read through a data window that the checks of the unit let pass. -/
theorem access_unitRead (h : s.mayRead a (pg 0x03) off) (hd : dataWindow (pg 0x03) off = some (c, w))
    (hu : s.unitCheck a.req (s.context c).1 (s.context c).2 = .ok) :
    s.access a = (s.busyNow.unitRead c w off).2.respond a.req .ok (s.busyNow.unitRead c w off).1 := by
  obtain ⟨hr, hwr, hlo, hhi, ht, hs, hb⟩ := h
  obtain ⟨page, e⟩ := access_reaches hr
  obtain ⟨-, -, -, -, ho, hbe⟩ := hr
  have htag : ¬(a.req.tag.rank < s.busyNow.readRank (pg 0x03) off) := not_lt.mpr ht
  have hopen : s.busyNow.pageShut (pg 0x03) = false := hs
  have hfree : s.busyNow.behindReset (pg 0x03) off = false := hb
  have hcheck : s.busyNow.unitCheck a.req (s.busyNow.context c).1 (s.busyNow.context c).2 = .ok := hu
  have hkey : keyType (pg 0x03) = 0x03 := by decide
  rw [e]
  simp [State.pageAccess, ho, hbe, hwr, State.readPage, hhi, State.readAt, show ¬off < 0x10 by omega, htag, not_lt.mpr hlo, hopen,
    hfree, hkey, hd, hcheck]

/-- The words that are neither totals nor JOB_BIND are read alone. -/
theorem unitRead_single (h63 : w < 63) (hw : w = 0 ∨ 39 ≤ w) :
    s.unitRead c w off = (s.unitWord (s.context c).1 (s.context c).2 w, s) := by
  have htotal : (decide (1 ≤ w) && decide (w < 39)) = false := by
    rw [Bool.and_eq_false_iff, decide_eq_false_iff_not, decide_eq_false_iff_not]
    omega
  simp [State.unitRead, htotal, show w ≠ 63 by omega]

theorem guardedAt_jobBind (hc : c < 4) : guardedAt (pg 0x03) (0x100 + 0x100 * c + 4 * 63) = false := by
  interval_cases c <;> decide

/-- A write of word 63 through a data window. -/
theorem freshWrite_jobBind {p : Nat} {v : Word} (hc : c < 4) (hx : s.context c = (0, p)) (hu : s.unitCheck q 0 p = .ok)
    (hp : s.present p = true) : s.freshWrite (pg 0x03) (0x100 + 0x100 * c + 4 * 63) q v =
      (.ok, s.modProbe p fun x => { x with jobNext := v.setWidth 16 }) := by
  have hkey : keyType (pg 0x03) = 0x03 := by decide
  rw [freshWrite_plain (by omega) (guardedAt_jobBind hc)]
  simp [State.plainWrite, hkey, dataWindow_word (show 63 < 64 by decide) hc, hx, hu, State.unitWrite, hp]

end UnitWindow

theorem modProbe_probe_same (s : State) (p : Nat) (f : Probe → Probe) : (s.modProbe p f).probe p = f (s.probe p) :=
  Tab.read_write_same _ _ _ _

/-- Settles O17: TAKE is `snapTake`, and the data windows reach the unit that their context selects. -/
theorem unitWindowShowsRecords : Obligations.UnitWindowShowsRecords := by
  unfold Obligations.UnitWindowShowsRecords
  refine ⟨fun a s hm hg hv hr hb => ?_, fun a s c w off hc h63 hw hoff hm hu => ?_,
    fun a s c off p hc hoff hm hg hx hu hp => ?_⟩
  · have hw := freshWrite_take (s := s.busyNow) (q := a.req) hv hr hb
    refine access_ends (access_fresh_ok hm hg hw) (snapTake_only (by decide) (busyNow_changes s _)) rfl rfl ?_
    rw [settle_snapSeq, respond_snapSeq, settle_snapTime, respond_snapTime, settle_samp, respond_samp]
    exact ⟨rfl, rfl, rfl, fun e he hreset => mem_snapTake_heldP (s := s.busyNow) he hreset⟩
  · subst hoff
    have hx := access_unitRead hm (dataWindow_word (by omega) hc) hu
    rw [unitRead_single h63 hw] at hx
    obtain ⟨t, ht, ha, ho, -⟩ := access_ends (L := []) (P := fun _ => True) hx (busyNow_changes s []) rfl rfl trivial
    exact ⟨t, ht, ho, ha⟩
  · obtain rfl : off = 0x100 + 0x100 * c + 4 * 63 := by omega
    have hw := freshWrite_jobBind (s := s.busyNow) (q := a.req) (v := a.data) hc hx hu hp
    refine access_ends (access_fresh_ok hm hg hw) (modProbe_only (by decide) (busyNow_changes s _)) rfl rfl ?_
    rw [State.probe, settle_samp, respond_samp]
    exact modProbe_probe_same _ _ _

/-! ### Rings (R534) -/

section Rings
variable {s : State} {q : Req} {v : Word} {r : RingRegs}

/-- A write of RPTR of a ring of notices. -/
theorem freshWrite_rptr (hr : r = poisonRing ∨ r = serviceRing) :
    s.freshWrite r.page r.rptr q v = (.ok, (s.touchItem 0x09).ringSetRptr r v) := by
  rcases hr with rfl | rfl
  all_goals
    rw [freshWrite_plain (by decide) (by decide)]
    rfl

/-- A write of RING_SIZE of a ring of notices. -/
theorem freshWrite_ringSize (hr : r = poisonRing ∨ r = serviceRing) :
    s.freshWrite r.page r.size q v = (.ok, (s.touchItem 0x09).ringSetSize r v) := by
  rcases hr with rfl | rfl
  all_goals
    rw [freshWrite_plain (by decide) (by decide)]
    rfl

/-- RPTR is what was written modulo the ring's size. -/
theorem ringSetRptr_rptr : ((s.ringSetRptr r v).reg r.page r.rptr).toNat = v.toNat % s.ringSize r := by
  rw [State.ringSetRptr, reg_setReg_same, word, BitVec.toNat_ofNat, Nat.mod_eq_of_lt]
  exact lt_of_le_of_lt (Nat.mod_le _ _) v.isLt

/-- LOG2 is what was written, limited to 12 to 24. -/
theorem ringSetSize_size (hw : regKey r.page r.size ≠ regKey r.page r.wptr)
    (hr : regKey r.page r.size ≠ regKey r.page r.rptr) : ((s.ringSetSize r v).reg r.page r.size).toNat = min 24 (max 12 (fld v 0 5)) := by
  have hclamp : clamp 12 24 (fld v 0 5) = min 24 (max 12 (fld v 0 5)) := by
    unfold clamp
    split_ifs <;> omega
  rw [State.ringSetSize, reg_setReg, if_neg hr, reg_setReg, if_neg hw, reg_setReg_same, word, BitVec.toNat_ofNat, hclamp]
  omega

end Rings

/-- Settles O18: the writes of RPTR and of RING_SIZE are `ringSetRptr` and `ringSetSize`. -/
theorem ringPointersStayInTheirRing : Obligations.RingPointersStayInTheirRing := by
  unfold Obligations.RingPointersStayInTheirRing
  refine ⟨fun a s r hr hm hg => ?_, fun a s r hr hm hg => ?_⟩
  · refine access_ends (access_fresh_ok hm hg (freshWrite_rptr hr)) ?_ rfl rfl ?_
    · refine setReg_only ?_ (touchItem_only ?_ (busyNow_changes s _)) <;> exact names_of_subset (by simp)
    · rw [settle_reg, respond_reg, ringSetRptr_rptr]
      rfl
  · have hne : regKey r.page r.size ≠ regKey r.page r.wptr ∧ regKey r.page r.size ≠ regKey r.page r.rptr := by
      rcases hr with rfl | rfl <;> decide
    refine access_ends (access_fresh_ok hm hg (freshWrite_ringSize hr)) ?_ rfl rfl ?_
    · refine setReg_only ?_ (setReg_only ?_ (setReg_only ?_ (touchItem_only ?_ (busyNow_changes s _)))) <;>
        exact names_of_subset (by simp)
    · rw [settle_reg, respond_reg, ringSetSize_size hne.1 hne.2]

/-! ### Command pages (R80, R82) -/

section CommandPages
variable {s : State} {a : Access} {n off : Nat} {q : Req} {w : Word}

theorem keyScope_cmdKey_own (n : Nat) : keyScope (cmdKey false n) = 0 := by
  simp [keyScope, cmdKey, pageKey]
  omega

theorem keyInst_cmdKey_own (hn : n < 8) : keyInst (cmdKey false n) = n := by
  simp [keyInst, cmdKey, pageKey]
  omega

/-- A write to a command page of the block's own window. -/
theorem freshWrite_cmdPage (hn : n < 8) (hlo : 0x40 ≤ off) (hhi : off < 0x80) :
    s.freshWrite (cmdKey false n) off q w = s.cmdPageWrite false n off q w := by
  have hguard : guardedAt (cmdKey false n) off = false := by
    rw [guardedAt, if_neg (by omega), keyType_cmdKey]
    interval_cases off <;> rfl
  rw [freshWrite_plain (by omega) hguard]
  simp [State.plainWrite, keyType_cmdKey, keyScope_cmdKey_own, keyInst_cmdKey_own hn, not_lt.mpr hlo]

/-- A write that is DENIED sets ACCESS_ERR of its page (R65). -/
theorem access_fresh_denied {u : State} {key : Nat} (h : s.mayWrite a key off) (hg : (s.hdr key).guard = none)
    (hw : s.busyNow.freshWrite key off a.req a.data = (.denied, u)) :
    s.access a = (u.setErr key errAccess).respond a.req .denied 0 := by
  rw [access_fresh h hg]
  simp [hw]

/-- A write that is answered RETRY, where no host posts its writes (R526). -/
theorem access_fresh_retry {u : State} {key : Nat} (h : s.mayWrite a key off) (hg : (s.hdr key).guard = none)
    (hs : s.isSystem = false) (hw : s.busyNow.freshWrite key off a.req a.data = (.retry, u)) :
    s.access a = u.respond a.req .retry 0 := by
  rw [access_fresh h hg]
  simp [hw, hs]

/-- A command page that denies a write sets ACCESS_ERR, and its command stands. -/
theorem cmdPage_denied_ends (h : s.mayWrite a (cmdKey false n) off) (hg : (s.hdr (cmdKey false n)).guard = none)
    (hw : s.busyNow.freshWrite (cmdKey false n) off a.req a.data = (.denied, s.busyNow)) :
    ∃ t, finish (s.access a) = .next t ∧ s.answered t a.req .denied 0 ∧ s.onlyChanges t (accessParts ++ [.hdr 0x08]) ∧
      t.cmd false n = s.cmd false n ∧ bit (t.hdr (cmdKey false n)).err 0 = true := by
  refine access_ends (access_fresh_denied h hg hw) (setErr_only ?_ (busyNow_changes s _)) rfl rfl ⟨?_, ?_⟩
  · rw [keyType_cmdKey]
    decide
  · rw [settle_cmd, respond_cmd]
    rfl
  · rw [settle_hdrOf, respond_hdr, setErr_hdr_same]
    exact bit_setBit_same _ (by decide)

/-- A write of an OWNER takes a free page. -/
theorem lockWrite_free (ho : (s.cmd false n).owner = 0) (hv : w.setWidth 16 ≠ (0 : BitVec 16)) : s.lockWrite false n q w =
    (.ok, s.setCmd false n { s.cmd false n with owner := w.setWidth 16, holder := q.rid }) := by
  rw [State.lockWrite, if_pos ho, if_neg hv]

/-- A page that another requester holds is denied below FIRMWARE. -/
theorem lockWrite_held (ho : (s.cmd false n).owner ≠ 0) (hh : (s.cmd false n).holder ≠ q.rid)
    (ht : q.tag.atLeast .firmware = false) : s.lockWrite false n q w = (.denied, s) := by
  rw [State.lockWrite, if_neg ho, if_neg (by simp [hh, ht])]

/-- A page turns a CMD write away: nothing runs. -/
theorem cmdWrite_turnedAway {r : Resp} (hr : s.cmdGate false n q = r) (hne : r ≠ .ok) : s.cmdWrite false n q w = (r, s) := by
  simp [State.cmdWrite, hr, hne]

/-- The last two checks of a CMD write, where the first let it pass. -/
theorem cmdGate_open (hf : s.bpwr.failed = false) (ht : (s.hdr (cmdKey false n)).wr.toNat ≤ q.tag.rank)
    (hr : bit (s.hdr (cmdKey false n)).stat 3 = false) : s.cmdGate false n q =
      if (s.cmd false n).owner ≠ 0 ∧ (s.cmd false n).holder ≠ q.rid then .denied
      else if (s.cmd false n).busy then .retry else .ok := by
  simp [State.cmdGate, State.cmdReach, hf, not_lt.mpr ht, statInReset, hr]

end CommandPages

/-- Settles O19: each write is decided by LOCK's owner and holder, and a CMD write by its gate before any command runs. -/
theorem commandPagesAreLockedAndCleared : Obligations.CommandPagesAreLockedAndCleared := by
  unfold Obligations.CommandPagesAreLockedAndCleared
  refine ⟨fun a s n hn hm hg => ?_, fun a s n hn hm hg hb => ?_, fun a s n hn hs hm hg hf hr => ?_⟩
  · have hlock : s.busyNow.freshWrite (cmdKey false n) 0x48 a.req a.data = s.busyNow.lockWrite false n a.req a.data :=
      freshWrite_cmdPage hn (by decide) (by decide)
    dsimp only
    by_cases hfree : (s.cmd false n).owner = 0 ∧ a.data.setWidth 16 ≠ (0 : BitVec 16)
    · obtain ⟨ho, hv⟩ := hfree
      have hw := hlock.trans (lockWrite_free (s := s.busyNow) ho hv)
      obtain ⟨t, ht, hans, honly, hcmd⟩ := access_ends (L := [.cmds])
        (P := fun t => t.cmd false n = { s.cmd false n with owner := a.data.setWidth 16, holder := a.req.rid })
        (access_fresh_ok hm hg hw) (setCmd_only (by decide) (busyNow_changes s _)) rfl rfl
        (by rw [settle_cmd, respond_cmd, setCmd_cmd_same, busyNow_cmd])
      exact ⟨t, ht, by rw [if_pos ⟨ho, hv⟩]; exact ⟨hans, hcmd, honly⟩⟩
    · by_cases hheld : (s.cmd false n).owner ≠ 0 ∧ (s.cmd false n).holder ≠ a.req.rid ∧ a.req.tag.atLeast .firmware = false
      · obtain ⟨ho, hh, ht⟩ := hheld
        obtain ⟨t, ht, hans, honly, hcmd, -⟩ :=
          cmdPage_denied_ends hm hg (hlock.trans (lockWrite_held (s := s.busyNow) ho hh ht))
        exact ⟨t, ht, by rw [if_neg hfree]; exact fun _ _ _ => ⟨hans, hcmd, honly⟩⟩
      · exact ⟨_, rfl, by rw [if_neg hfree]; exact fun ho hh ht => absurd ⟨ho, hh, ht⟩ hheld⟩
  · have hw : s.busyNow.freshWrite (cmdKey false n) 0x44 a.req a.data =
        (.ok, s.busyNow.setCmd false n { s.cmd false n with done := false }) := by
      rw [freshWrite_cmdPage hn (by decide) (by decide)]
      simp [State.cmdPageWrite, hb]
    refine access_ends (access_fresh_ok hm hg hw) (setCmd_only (by decide) (busyNow_changes s _)) rfl rfl ?_
    rw [settle_cmd, respond_cmd, setCmd_cmd_same]
  · have hrank : (s.hdr (cmdKey false n)).wr.toNat ≤ a.req.tag.rank := by
      obtain ⟨-, -, hk, -⟩ := hm
      exact hk
    have hgate := cmdGate_open (s := s.busyNow) (q := a.req) hf hrank hr
    have hcmd : s.busyNow.freshWrite (cmdKey false n) 0x40 a.req a.data = s.busyNow.cmdWrite false n a.req a.data :=
      freshWrite_cmdPage hn (by decide) (by decide)
    refine ⟨fun ho hh => ?_, fun ho hb => ?_⟩
    · have hdenied : s.busyNow.cmdGate false n a.req = .denied := by rw [hgate, if_pos ⟨ho, hh⟩]
      obtain ⟨t, ht, hans, honly, -, herr⟩ :=
        cmdPage_denied_ends hm hg (hcmd.trans (cmdWrite_turnedAway hdenied (by decide)))
      exact ⟨t, ht, hans, herr, honly⟩
    · have hretry : s.busyNow.cmdGate false n a.req = .retry := by
        rw [hgate, if_neg fun h => h.1 ho]
        exact if_pos hb
      have hw := hcmd.trans (cmdWrite_turnedAway hretry (by decide))
      obtain ⟨t, ht, hans, honly, -⟩ := access_ends (L := []) (P := fun _ => True) (access_fresh_retry hm hg hs hw)
        (busyNow_changes s []) rfl rfl trivial
      exact ⟨t, ht, hans, honly⟩

/-! ### NOP and ECHO (R80) -/

/-- Result words written one after the other: each listed one has its value, and the others stand. -/
theorem foldl_setRes_reg (f : Nat → Nat) (g : Bool) (n : Nat) {k : Nat} (hk : k < 32) (l : List Nat) (hl : ∀ j ∈ l, j < 32)
    (s : State) :
    (l.foldl (fun s j => s.setRes g n j (f j)) s).reg (cmdKey g n) (0x100 + 4 * k) =
      if k ∈ l then word (f k) else s.reg (cmdKey g n) (0x100 + 4 * k) := by
  induction l generalizing s with
  | nil => simp
  | cons j l ih =>
    have hj : j < 32 := hl j (by simp)
    have hkey : regKey (cmdKey g n) (0x100 + 4 * k) = regKey (cmdKey g n) (0x100 + 4 * j) ↔ k = j := by
      simp only [regKey]
      omega
    rw [List.foldl_cons, ih fun i hi => hl i (List.mem_cons_of_mem j hi), State.setRes, reg_setReg]
    by_cases hkj : k = j
    · simp [hkj]
    · simp [hkey, hkj]

/-- Acceptance clears the result words. -/
theorem begun_res {s : State} {c : CmdIn} {a b k : Nat} (hk : k < 32) :
    (s.begun c a b).reg (cmdKey c.pkg c.page.toNat) (0x100 + 4 * k) = 0 := by
  unfold State.begun State.accept
  rw [respond_reg, causesFall_reg, setCmd_reg]
  refine (foldl_setRes_reg (fun _ => 0) c.pkg c.page.toNat hk (List.range 32) (fun j hj => List.mem_range.mp hj)
    s.busyNow).trans ?_
  rw [if_pos (List.mem_range.mpr hk)]
  rfl

theorem begun_only {s0 s : State} {L : List Part} {c : CmdIn} {a b : Nat} (hL : names L commandParts = true)
    (ho : s0.onlyChanges s L) : s0.onlyChanges (s.begun c a b) L :=
  accept_only (names_trans hL (by decide)) (busyNow_only (names_trans hL (by decide)) ho)

theorem ok_reg (s : State) (c : CmdIn) (p o : Nat) : (s.ok c).reg p o = s.reg p o := rfl

/-- The result words that ECHO writes: the argument words, which the writing leaves. -/
theorem echo_eq (c : CmdIn) (l : List Nat) (hl : ∀ j ∈ l, j < 32) (s u : State) (hu : ∀ k < 32, argW c u k = argW c s k) :
    l.foldl (fun (s : State) k => s.res c k (argW c s k).toNat) u =
      l.foldl (fun (x : State) k => x.setRes c.pkg c.page.toNat k (argW c s k).toNat) u := by
  induction l generalizing u with
  | nil => rfl
  | cons j l ih =>
    have hj : j < 32 := hl j (by simp)
    rw [List.foldl_cons, List.foldl_cons, hu j hj]
    refine ih (fun i hi => hl i (List.mem_cons_of_mem j hi)) _ fun k hk => ?_
    rw [← hu k hk, argW, State.res, State.setRes, reg_setReg, if_neg, argW]
    simp only [regKey]
    omega

/-- A command that takes its effect and ends OK. -/
theorem ok_ends {s u : State} {c : CmdIn} (hu : s.onlyChanges u commandParts) :
    (u.ok c).settle.ended c stOk 0 ∧ s.onlyChanges (u.ok c).settle commandParts :=
  ⟨settle_ended (complete_ended u c stOk 0), settle_only (by decide) (ok_only (by decide) hu)⟩

/-- Settles O20: acceptance has cleared the result words, and ECHO writes the first NARGS of them from the argument words. -/
theorem nopAndEchoComplete : Obligations.NopAndEchoComplete := by
  unfold Obligations.NopAndEchoComplete
  refine ⟨fun c s h => ?_, fun c s h => ?_⟩
  · have hx : exec (.nop c) s = .next ((s.begun c 0 0).ok c).settle := by
      show finish _ = _
      rw [runCmd_takes h 0 0 rfl]
      rfl
    obtain ⟨hend, honly⟩ := ok_ends (c := c)
      (begun_only (c := c) (a := 0) (b := 0) (by decide) (onlyChanges_refl s commandParts))
    refine ⟨_, hx, hend, honly, fun k hk => ?_⟩
    rw [settle_reg, ok_reg, begun_res hk]
  · obtain ⟨-, -, -, -, -, hn, -⟩ := (takes_iff s c .tenant).mp h
    have hl : ∀ j ∈ List.range c.nargs.toNat, j < 32 := fun j hj => lt_of_lt_of_le (List.mem_range.mp hj) hn
    have hecho := echo_eq c _ hl s (s.begun c 0 1) fun k hk => begun_argW s c 0 1 k hk
    have hx : exec (.echo c) s = .next (((List.range c.nargs.toNat).foldl
        (fun (x : State) k => x.setRes c.pkg c.page.toNat k (argW c s k).toNat) (s.begun c 0 1)).ok c).settle := by
      show finish _ = _
      rw [runCmd_takes h 0 1 rfl, hecho]
      rfl
    have hword : ∀ k, names commandParts [.word 0x08 (256 + 4 * k)] = true := fun k =>
      names_trans (by decide : names commandParts [.regs 0x08] = true) names_regs_word
    obtain ⟨hend, honly⟩ := ok_ends (c := c) (only_foldl (fun u k hu => setRes_only (hword k) hu)
      (begun_only (c := c) (a := 0) (b := 1) (by decide) (onlyChanges_refl s commandParts)))
    refine ⟨_, hx, hend, honly, fun k hk => ?_⟩
    rw [settle_reg, ok_reg, foldl_setRes_reg _ _ _ hk _ hl, begun_res hk]
    simp [word]

end Sys2Proof.Machine
end

section
/-!
O21 to O24 (R90 to R107, R111, R120): unit edges, the epoch grid, the records and their totals, and the sampling commands. What an
operation leaves alone comes from its frame in the laws.
-/
namespace Sys2Proof.Machine

/-! ### What a change of one probe or one cluster leaves -/

section Leaves
variable {s : State}

theorem modProbe_probe (p q : Nat) (f : Probe → Probe) : (s.modProbe p f).probe q = if q = p then f (s.probe p) else s.probe q :=
  Tab.read_write Probe.reset s.samp.probes p q _

@[simp] theorem modProbe_cluster (p c : Nat) (f : Probe → Probe) : (s.modProbe p f).cluster c = s.cluster c := rfl
@[simp] theorem modProbe_cmd (p : Nat) (f : Probe → Probe) (g : Bool) (n : Nat) : (s.modProbe p f).cmd g n = s.cmd g n := rfl
@[simp] theorem modProbe_samp_grid (p : Nat) (f : Probe → Probe) : (s.modProbe p f).samp.grid = s.samp.grid := rfl
@[simp] theorem modCluster_probe (c p : Nat) (f : Cluster → Cluster) : (s.modCluster c f).probe p = s.probe p := rfl
@[simp] theorem setErr_probe (k b p : Nat) : (s.setErr k b).probe p = s.probe p := rfl
@[simp] theorem settle_probe (p : Nat) : s.settle.probe p = s.probe p := by rw [State.probe, settle_samp]; rfl

theorem modCluster_cluster (c k : Nat) (f : Cluster → Cluster) :
    (s.modCluster c f).cluster k = if k = c then f (s.cluster c) else s.cluster k :=
  Tab.read_modify Cluster.reset s.samp.clusters c k f

@[simp] theorem log_probe (p i k v b a : Nat) (l : List Byte) (q : Nat) : (s.log p i k v b a l).probe q = s.probe q := by
  have h : Part.probes.same s (s.log p i k v b a l) := same_of_only .probes (fun hL ho => log_only hL ho) (by decide)
  rw [State.probe, h]; rfl

@[simp] theorem spareAdd_probe (k v i d q : Nat) : (s.spareAdd k v i d).probe q = s.probe q := by
  have h : Part.probes.same s (s.spareAdd k v i d) := same_of_only .probes (fun hL ho => spareAdd_only hL ho) (by decide)
  rw [State.probe, h]; rfl

end Leaves

/-- A fold over distinct probes, each step of which changes its own probe alone, changes each listed probe once; `P` is what the
steps rest on and keep. -/
theorem foldl_probe {P : State → Prop} {g : State → Nat → State} {F : Nat → Probe → Probe}
    (hP : ∀ u a, P u → P (g u a)) (hg : ∀ u a q, P u → (g u a).probe q = if q = a then F a (u.probe a) else u.probe q)
    {l : List Nat} (hl : l.Nodup) {s : State} (hs : P s) (q : Nat) :
    (l.foldl g s).probe q = if q ∈ l then F q (s.probe q) else s.probe q := by
  induction l generalizing s with
  | nil => rfl
  | cons a l ih =>
    obtain ⟨ha, hl⟩ := List.nodup_cons.mp hl
    rw [List.foldl_cons, ih hl (hP s a hs), hg s a q hs]
    by_cases hq : q = a
    · subst hq; simp [ha]
    · simp [hq]

theorem foldl_modProbe_probe (f : Probe → Probe) {l : List Nat} (hl : l.Nodup) (s : State) (q : Nat) :
    (l.foldl (fun u p => u.modProbe p f) s).probe q = if q ∈ l then f (s.probe q) else s.probe q :=
  foldl_probe (P := fun _ => True) (F := fun _ => f) (fun _ _ _ => trivial) (fun _ a b _ => modProbe_probe a b f) hl trivial q

/-! ### Edges at a stuck channel (R42, R91) -/

/-- A die after reset whose completion detector of the converter of probe 0 has seen a 0b11 (CODE_ERR): the channel is stuck. -/
def edgeChannelStuck : State := after State.reset (exec (.codeErr (.converter .probe 0)) State.reset)

/-- The word of the edge is not passed on: the unit's state stays. -/
theorem edgeChannelStuck_edge :
    ((after edgeChannelStuck (exec (.unitEdge 0 .busy 0 0 false) edgeChannelStuck)).probe 0).ustate = .idle := by
  decide +kernel

/-- Refutes O21: its first clause asks for a present probe in a running block, and not that the channel of its converter is open. A
converter that has seen a 0b11 withholds its acknowledge and passes no word on (R42), so an edge at a stuck channel reaches no
counter, and the STATE that it drives is not taken. -/
theorem not_edgesCountAndResetsRestart : ¬ Obligations.EdgesCountAndResetsRestart := by
  unfold Obligations.EdgesCountAndResetsRestart
  rintro ⟨hedge, -⟩
  have hdark : edgeChannelStuck.dark = false := by decide +kernel
  have hpresent : edgeChannelStuck.present 0 = true := by decide +kernel
  obtain ⟨t, ht, -, hstate, -⟩ := hedge 0 .busy 0 0 false edgeChannelStuck hdark hpresent (by decide)
  have hidle : (t.probe 0).ustate = .idle := by
    have := edgeChannelStuck_edge
    rwa [ht] at this
  rw [hidle] at hstate
  cases hstate

/-! ### The grid at a close (R94, R95, R97, R98) -/

section Grid
variable {s : State}

@[simp] theorem bump_samp_grid (k o n : Nat) : (s.bump k o n).samp.grid = s.samp.grid := rfl
@[simp] theorem work_samp_grid : s.work.samp.grid = s.samp.grid := rfl
@[simp] theorem bindClose_samp_grid : s.bindClose.samp.grid = s.samp.grid := rfl

@[simp] theorem unfenceClose_samp_grid : s.unfenceClose.samp.grid = s.samp.grid :=
  same_of_only .grid (fun hL ho => unfenceClose_only hL ho) (by decide)

@[simp] theorem sampleAll_samp_grid (no : Nat) : (s.sampleAll no).samp.grid = s.samp.grid :=
  same_of_only .grid (fun hL ho => sampleAll_only hL ho) (by decide)

@[simp] theorem deliver_samp_grid (p : Nat) : (s.deliver p).samp.grid = s.samp.grid :=
  same_of_only .grid (fun hL ho => deliver_only hL ho) (by decide)

@[simp] theorem clusterClose_samp_grid (c : Nat) : (s.clusterClose c).samp.grid = s.samp.grid :=
  same_of_only .grid (fun hL ho => clusterClose_only hL ho) (by decide)

@[simp] theorem clearTotal_samp_grid (p : Nat) : (s.clearTotal p).samp.grid = s.samp.grid :=
  same_of_only .grid (fun hL ho => clearTotal_only hL ho) (by decide)

@[simp] theorem snapClose_samp_grid : s.snapClose.samp.grid = s.samp.grid :=
  same_of_only .grid (fun hL ho => snapClose_only hL ho) (by decide)

@[simp] theorem closeWork_samp_grid (c : CloseInfo) : (s.closeWork c).samp.grid = s.samp.grid :=
  same_of_only .grid (fun hL ho => closeWork_only hL ho) (by decide)

@[simp] theorem endWait_samp_grid (g : Bool) (n : Nat) (w : Wait) (st : Byte) (d : Nat) :
    (s.endWait g n w st d).samp.grid = s.samp.grid :=
  same_of_only .grid (fun hL ho => endWait_only hL ho) (by decide)

@[simp] theorem bcastDone_samp_grid : s.bcastDone.samp.grid = s.samp.grid :=
  same_of_only .grid (fun hL ho => bcastDone_only hL ho) (by decide)

@[simp] theorem closeAt_now (no : Nat) (t : FT) (short : Bool) (ties stuck : List Nat) :
    (s.closeAt no t short ties stuck).now = s.now :=
  same_of_only .now (fun hL ho => closeAt_only hL ho) (by decide)

theorem clusterCloses_samp_grid (l : List Nat) :
    (if s.isDie then l.foldl State.clusterClose s else s).samp.grid = s.samp.grid := by
  split
  · exact foldl_keeps (fun u => u.samp.grid) (fun u c => clusterClose_samp_grid c) l s
  · rfl

/-- What a close leaves of the grid: its number, its instant and its flags are the close's, and the rest stays. The states between
the steps of a close are nested deep, so each is forgotten once its grid is known. -/
theorem closeAt_grid (no : Nat) (t : FT) (short : Bool) (ties stuck : List Nat) :
    ∃ f, (s.closeAt no t short ties stuck).samp.grid =
      { s.samp.grid with epochNo := no, closed := true, lastClose := t, since := t, flags := f } := by
  unfold State.closeAt
  extract_lets prev s1 samp1 grid1 s2 s3 s4 s5 s6 flags samp6 grid6 s7 s8 pkg8 s9 grid0
  have h1 : s1.samp.grid = s.samp.grid := by simp [s1]
  have h2 : s2.samp.grid = { s1.samp.grid with epochNo := no, closed := true, lastClose := t, since := t } := rfl
  clear_value s2
  have h3 : s3.samp.grid = s2.samp.grid := sampleAll_samp_grid no
  clear_value s3
  have h4 : s4.samp.grid = s3.samp.grid := foldl_keeps (fun u => u.samp.grid) (fun u p => deliver_samp_grid p) _ _
  clear_value s4
  have h5 : s5.samp.grid = s4.samp.grid := clusterCloses_samp_grid (List.range Config.clusters)
  clear_value s5
  have h6 : s6.samp.grid = s5.samp.grid :=
    Eq.trans snapClose_samp_grid (foldl_keeps (fun u => u.samp.grid) (fun u p => clearTotal_samp_grid p) _ s5)
  clear_value s6
  have h7 : s7.samp.grid = { s6.samp.grid with flags } := rfl
  clear_value s7
  have h8 : s8.samp.grid = s7.samp.grid := closeWork_samp_grid _
  have h9 : s9.samp.grid = s8.samp.grid := rfl
  clear_value s9
  refine ⟨flags, (foldl_keeps (fun u => u.samp.grid)
    (fun u (p : Bool × Nat) => congrArg Samp.grid (complete_samp u p.1 p.2 stOk 0)) _ s9).trans ?_⟩
  rw [h9, h8, h7, h6, h5, h4, h3, h2, h1]

theorem originEnd_grid (q : PendEpoch) (st : Byte) (d : Nat) :
    (s.originEnd q st d).samp.grid = { s.samp.grid with pend := none } := by
  unfold State.originEnd
  dsimp only
  rw [bcastDone_samp_grid]
  split
  · rw [endWait_samp_grid]; rfl
  · rfl

/-- The number of a close and BASE_NO after it: that of the grid's index, but never one already used (R98). -/
theorem closeNumber_fst (g : Grid) (n : Nat) : (closeNumber g n).1 = max (g.baseNo + n) (g.epochNo + 1) := by
  unfold closeNumber
  split_ifs <;> dsimp only <;> omega

end Grid

section Closes
variable {s : State}

/-- The number of the next close of the grid, and BASE_NO from then on (R98). -/
def State.nextNumber (s : State) : Nat × Nat :=
  closeNumber s.samp.grid ((s.nextClose - s.samp.grid.origin) / (s.samp.grid.period * ns))

/-- A close that no SET_EPOCH awaits: BASE_NO takes its value of R98, time comes to the close, and the epoch closes. -/
theorem execEpochClose_eq (ties stuck : List Nat) (hc : s.closesRun = true) (hp : s.samp.grid.pend = none) :
    ∃ u : State, u.now = max s.now s.nextClose ∧ u.samp.grid = { s.samp.grid with baseNo := s.nextNumber.2 } ∧
      exec (.epochClose ties stuck) s = .next (u.closeAt s.nextNumber.1 s.nextClose false ties stuck).settle := by
  unfold State.nextNumber
  refine ⟨State.advanceTo { s with samp := { s.samp with grid := { s.samp.grid with
    baseNo := (closeNumber s.samp.grid ((s.nextClose - s.samp.grid.origin) / (s.samp.grid.period * ns))).2 } } } s.nextClose,
    rfl, rfl, ?_⟩
  show finish _ = _
  dsimp only
  rw [hc, hp]
  rfl

/-- A SET_EPOCH's ORIGIN while epochs close: a close there, as index 0 of the new grid (R97, R98). -/
theorem originStep_grid_of_closesRun (q : PendEpoch) (ties stuck : List Nat) (hc : s.closesRun = true) :
    ∃ f, (s.originStep q ties stuck).samp.grid =
      { s.samp.grid with
        period := q.period, origin := q.origin, baseNo := s.samp.grid.epochNo + 1, epochNo := s.samp.grid.epochNo + 1,
        closed := true, lastClose := q.origin, since := q.origin, flags := f, pend := none } := by
  have hc' : (s.advanceTo q.origin).closesRun = true := hc
  unfold State.originStep
  extract_lets g u sampU start no
  rw [if_pos hc', originEnd_grid]
  obtain ⟨f, hf⟩ := closeAt_grid (s := start no) no q.origin
    (decide (q.origin < (if g.closed then g.lastClose else 0) + g.period * ns)) ties stuck
  exact ⟨f, by rw [hf]⟩

/-- While no epoch closes, the grid only starts at the ORIGIN (R97). -/
theorem originStep_grid_of_not_closesRun (q : PendEpoch) (ties stuck : List Nat) (hc : s.closesRun = false) :
    (s.originStep q ties stuck).samp.grid =
      { s.samp.grid with
        period := q.period, origin := q.origin, baseNo := s.samp.grid.epochNo, since := q.origin, pend := none } := by
  have hc' : (s.advanceTo q.origin).closesRun = false := hc
  unfold State.originStep
  extract_lets g u sampU start no
  rw [if_neg (by rw [hc']; decide), originEnd_grid]

theorem execEpochOrigin_eq {q : PendEpoch} (stuck : List Nat) (hp : s.samp.grid.pend = some q) (hd : s.dark = false)
    (hn : s.closesRun = true → s.nextClose = q.origin) :
    exec (.epochOrigin stuck) s = .next (s.originStep q [] stuck).settle := by
  have hgo : (s.dark || (s.closesRun && decide (s.nextClose ≠ q.origin))) = false := by
    cases hc : s.closesRun
    · simp [hd]
    · simp [hd, hn hc]
  show finish _ = _
  rw [hp]
  dsimp only
  rw [hgo]
  rfl

end Closes

/-- Settles O22: what `closeAt` and `originStep` leave of the grid, the number being the greater of the two in `closeNumber`. -/
theorem closesFollowTheirGrid : Obligations.ClosesFollowTheirGrid := by
  unfold Obligations.ClosesFollowTheirGrid
  refine ⟨fun ties stuck s hc hp => ?_, fun stuck q s hp hd hn => ?_⟩
  · obtain ⟨u, hnow, hgrid, hx⟩ := execEpochClose_eq ties stuck hc hp
    refine ⟨_, hx, frame_of (execEpochClose_only ties stuck s) hx, ?_⟩
    dsimp only
    obtain ⟨f, hf⟩ := closeAt_grid (s := u) s.nextNumber.1 s.nextClose false ties stuck
    rw [settle_samp, settle_now, hf, closeAt_now, hgrid, State.nextNumber, closeNumber_fst]
    exact ⟨rfl, lt_of_lt_of_le (Nat.lt_succ_self _) (le_max_right _ _), rfl, rfl, rfl, rfl, hnow⟩
  · have hx := execEpochOrigin_eq stuck hp hd hn
    refine ⟨_, hx, frame_of (execEpochOrigin_only stuck s) hx, ?_⟩
    rw [settle_samp]
    cases hc : s.closesRun
    · rw [originStep_grid_of_not_closesRun q [] stuck hc]
      exact ⟨rfl, rfl, rfl, rfl, nofun⟩
    · obtain ⟨f, hf⟩ := originStep_grid_of_closesRun q [] stuck hc
      rw [hf]
      exact ⟨rfl, rfl, rfl, rfl, fun _ => ⟨rfl, rfl⟩⟩

/-! ### Records and their totals (R101, R102, R104) -/

section Records
variable {s : State} {p : Nat} {r : ProbeRec}

theorem injTake_of_disarmed {k : Nat} (h : bit (s.hdr k).inj 31 = false) (kind : Nat) : s.injTake k kind = (false, s) := by
  simp [State.injTake, h]

/-- A probe whose latched record has been acknowledged: the latch is empty, and it keeps the record. -/
def handedOver (r : ProbeRec) (x : Probe) : Probe := { x with latch := none, acked := some r }

/-- The record leaves the latch, the probe keeps it until COMMIT, and the concentrator takes it (R101). -/
theorem execRecordDeliver_eq (hl : (s.probe p).latch = some r) (hc : s.concReady p = true)
    (hi : bit (s.hdr (pg 0x10)).inj 31 = false) : exec (.recordDeliver p) s =
      .next ((s.modProbe p (handedOver r)).takeRecord p r).settle := by
  show finish _ = _
  dsimp only
  rw [if_pos ⟨by rw [hl]; rfl, hc⟩, injTake_of_disarmed hi, if_neg Bool.false_ne_true, State.deliver, hl]
  dsimp only
  rw [if_pos hc]
  rfl

/-- A record that R102 does not check, or that passes, is added. -/
theorem takeRecord_of_passes (h : bit (s.reg (pg 0x10) 0x44) 1 = false ∨ r.rsts ≠ 0 ∨ r.lost = true ∨
    recordPasses (s.probe p).s r = true) :
    s.takeRecord p r = (s.modProbe p (acceptRec s.samp.grid.epochNo r)).addRecord p r := by
  unfold State.takeRecord
  refine if_neg ?_
  rcases h with h | h | h | h <;> simp_all

/-- The probe of a record that has failed its check. -/
def mismatched (x : Probe) : Probe := { x with mismatch := true, counted := false, acked := none }

/-- A record that fails its check is marked and is a violation of class 6. -/
theorem takeRecord_of_fails (hc : bit (s.reg (pg 0x10) 0x44) 1 = true) (hr : r.rsts = 0) (hl : r.lost = false)
    (hf : recordPasses (s.probe p).s r = false) : s.takeRecord p r =
      (((s.modProbe p (acceptRec s.samp.grid.epochNo r)).modProbe p mismatched).setErr (pg 0x10) 17).violate (.probe p) 6 []
        true := by
  unfold State.takeRecord
  refine if_pos ?_
  simp [hc, hr, hl, hf]

/-- The probe of a record that has been added. -/
def addedTo (r : ProbeRec) (x : Probe) : Probe :=
  { x with
    t := (addDeltas r.d x.t).1, counted := true, arrAll := (addDeltas r.d x.arrAll).1
    inSum := (addDeltas r.d x.inSum).1, arr := (addDeltas r.d x.arr).1, arrived := true }

theorem addRecord_probe (hx : r.excl = false) (q : Nat) :
    (s.addRecord p r).probe q = if q = p then addedTo r (s.probe p) else s.probe q := by
  unfold State.addRecord
  dsimp only
  rw [if_neg (by rw [hx]; decide)]
  split_ifs <;> simp_all [modProbe_probe, addedTo]

theorem addRecord_cluster (hx : r.excl = false) (c : Nat) : (s.addRecord p r).cluster c =
    if c = clusterOf p then { s.cluster c with t := (addDeltas r.d (s.cluster c).t).1 } else s.cluster c := by
  unfold State.addRecord
  dsimp only
  rw [if_neg (by rw [hx]; decide)]
  split_ifs <;> simp_all [modCluster_cluster]

/-! What a violation leaves of the probe it is at, and of the error bits. -/

theorem raiseGate_fence_probe (u : Nat) : ∃ g, (s.raiseGate u .fence).probe u = { s.probe u with fence := g } := by
  unfold State.raiseGate
  dsimp only
  split
  · exact ⟨_, modProbe_probe_same s u _⟩
  · exact ⟨_, rfl⟩

theorem fenceUnit_probe (u c d : Nat) : ∃ b g, (s.fenceUnit u c d).probe u = { s.probe u with fenced := b, fence := g } := by
  unfold State.fenceUnit
  extract_lets recent cap chk s1
  split
  · exact ⟨_, _, rfl⟩
  split
  · exact ⟨_, _, rfl⟩
  split
  · exact ⟨_, _, log_probe (s := s.setErr (pg 0x28) errStorm) _ _ _ _ _ _ _ u⟩
  · obtain ⟨g, hg⟩ := raiseGate_fence_probe (s := s1.modProbe u fun x => { x with fenced := true }) u
    exact ⟨true, g, by rw [spareAdd_probe, hg, modProbe_probe_same]; rfl⟩

theorem log_err_bit {k j : Nat} (p i c v b a : Nat) (l : List Byte) (h : bit (s.hdr k).err j = true) :
    bit ((s.log p i c v b a l).hdr k).err j = true := logRec_err_bit p i c v false 2 _ h

theorem spareAdd_err_bit {k j : Nat} (a c i d : Nat) (h : bit (s.hdr k).err j = true) :
    bit ((s.spareAdd a c i d).hdr k).err j = true := by
  unfold State.spareAdd
  dsimp only
  split
  · exact log_err_bit _ _ _ _ _ _ _ (setErr_err_bit _ _ h)
  · exact h

theorem raiseGate_hdr (u k : Nat) (g : GateKind) : (s.raiseGate u g).hdr k = s.hdr k := by
  unfold State.raiseGate
  dsimp only
  split <;> rfl

theorem fenceUnit_err_bit {k j : Nat} (u c d : Nat) (h : bit (s.hdr k).err j = true) :
    bit ((s.fenceUnit u c d).hdr k).err j = true := by
  unfold State.fenceUnit
  extract_lets recent cap chk s1
  split
  · exact h
  split
  · exact h
  split
  · exact log_err_bit (s := s.setErr (pg 0x28) errStorm) _ _ _ _ _ _ _ (setErr_err_bit _ _ h)
  · refine spareAdd_err_bit _ _ _ _ ?_
    rw [raiseGate_hdr]
    exact h

/-- A counted violation at a probe: its record and its instant, and at the sixteenth within 1 ms a second record and the fence
(R523, R524). -/
theorem violate_probe_eq (u cls : Nat) (item : List Byte) : s.violate (.probe u) cls item true =
    let port := PortId.probe u
    let s1 := s.log 0x10 0 0xFFF4 3 port.subject cls (padTo 16 item)
    let l := withinMs s1.now (Tab.read noTimes s1.check.violations port.subject) ++ [s1.now]
    if 16 ≤ l.length then
      ((s1.modCheck fun c => { c with violations := Tab.write noTimes c.violations port.subject [] }).log 0x10 0 0xFFF5 5
        port.subject l.length []).fenceUnit u 10 0
    else s1.modCheck fun c => { c with violations := Tab.write noTimes c.violations port.subject l } := rfl

@[simp] theorem modCheck_probe (f : Check → Check) (q : Nat) : (s.modCheck f).probe q = s.probe q := rfl

theorem violate_probe (u cls : Nat) (item : List Byte) :
    ∃ b g, (s.violate (.probe u) cls item true).probe u = { s.probe u with fenced := b, fence := g } := by
  rw [violate_probe_eq]
  extract_lets port s1 l
  split
  · obtain ⟨b, g, hf⟩ := fenceUnit_probe (s := ((s1.modCheck fun c =>
      { c with violations := Tab.write noTimes c.violations port.subject [] }).log 0x10 0 0xFFF5 5 port.subject l.length [])) u 10 0
    exact ⟨b, g, by rw [hf, log_probe, modCheck_probe, log_probe]⟩
  · exact ⟨_, _, by rw [modCheck_probe, log_probe]⟩

theorem violate_err_bit {k j : Nat} (u cls : Nat) (item : List Byte) (h : bit (s.hdr k).err j = true) :
    bit ((s.violate (.probe u) cls item true).hdr k).err j = true := by
  rw [violate_probe_eq]
  extract_lets port s1 l
  have h1 : bit (s1.hdr k).err j = true := log_err_bit _ _ _ _ _ _ _ h
  split
  · exact fenceUnit_err_bit _ _ _ (log_err_bit _ _ _ _ _ _ _ h1)
  · exact h1

theorem violate_samp_clusters (port : PortId) (cls : Nat) (item : List Byte) (b : Bool) :
    (s.violate port cls item b).samp.clusters = s.samp.clusters :=
  same_of_only .clusters (fun hL ho => violate_only hL ho) (by decide)

end Records

/-! ### COMMIT (R101) -/

theorem mem_probesOf {p c : Nat} : p ∈ probesOf c ↔ clusterOf p = c := by
  simp only [probesOf, clusterOf, List.mem_range'_1]
  omega

/-- A probe whose cluster has committed: the region mirrors its totals, and its copy is dropped. -/
def committed (x : Probe) : Probe := { x with mirror := x.t, inSumMirror := x.inSum, acked := none }

theorem commit_eq (s : State) (c : Nat) : s.commit c =
    ((probesOf c).foldl (fun u p => u.modProbe p committed) s).modCluster c fun y => { y with mirror := y.t } := rfl

theorem nodup_probesOf (c : Nat) : (probesOf c).Nodup := List.nodup_range'

theorem commit_probe (s : State) (c p : Nat) :
    (s.commit c).probe p = if clusterOf p = c then committed (s.probe p) else s.probe p := by
  rw [commit_eq, modCluster_probe, foldl_modProbe_probe committed (nodup_probesOf c)]
  simp only [mem_probesOf]

theorem commit_cluster (s : State) (c : Nat) : (s.commit c).cluster c = { s.cluster c with mirror := (s.cluster c).t } := by
  rw [commit_eq, modCluster_cluster_same, foldl_keeps (fun u => u.cluster c) fun u p => modProbe_cluster p c committed]

/-- Settles O23: by whether the record is added (`addRecord`) or is a violation, and by the fold of COMMIT over its cluster. -/
theorem recordsAreAddedOnceAndCommitted : Obligations.RecordsAreAddedOnceAndCommitted := by
  unfold Obligations.RecordsAreAddedOnceAndCommitted
  refine ⟨fun p s r hl hc hi he hp => ?_, fun p s r hl hc hi hb hr hn hf => ?_, fun c s hd hc => ?_⟩
  · have htake := takeRecord_of_passes (s := s.modProbe p (handedOver r)) (p := p) (r := r)
      (by rw [modProbe_probe_same]; exact hp)
    have hx := execRecordDeliver_eq hl hc hi
    rw [htake] at hx
    have hprobe : ∀ q,
        (((s.modProbe p (handedOver r)).modProbe p (acceptRec s.samp.grid.epochNo r)).addRecord p r).settle.probe q =
        if q = p then addedTo r (acceptRec s.samp.grid.epochNo r (handedOver r (s.probe p))) else s.probe q := fun q => by
      rw [settle_probe, addRecord_probe he, modProbe_probe_same, modProbe_probe_same]
      split_ifs with h
      · rfl
      · rw [modProbe_probe, if_neg h, modProbe_probe, if_neg h]
    refine ⟨_, hx, ?_, ?_⟩
    · exact only_start fun hL h0 => settle_only (by decide) (addRecord_only (by decide) (modProbe_only (by decide)
        (modProbe_only (by decide) h0)))
    · rw [modProbe_samp_grid, hprobe p, if_pos rfl]
      refine ⟨rfl, rfl, rfl, rfl, rfl, ?_, fun q hq => (hprobe q).trans (if_neg hq), fun c hc => ?_⟩
      · rw [settle_cluster, addRecord_cluster he, if_pos rfl]; rfl
      · rw [settle_cluster, addRecord_cluster he, if_neg hc]; rfl
  · have hx := execRecordDeliver_eq hl hc hi
    rw [takeRecord_of_fails (s := s.modProbe p (handedOver r)) hb hr hn (by rw [modProbe_probe_same]; exact hf)] at hx
    refine ⟨_, hx, frame_of (execRecordDeliver_only p s) hx, ?_⟩
    obtain ⟨b, g, hv⟩ := violate_probe (s := (((s.modProbe p (handedOver r)).modProbe p
      (acceptRec s.samp.grid.epochNo r)).modProbe p mismatched).setErr (pg 0x10) 17) p 6 []
    rw [settle_probe, settle_samp, settle_hdrOf, modProbe_samp_grid, hv, setErr_probe, modProbe_probe_same, modProbe_probe_same,
      modProbe_probe_same, violate_samp_clusters]
    refine ⟨rfl, rfl, rfl, rfl, rfl, violate_err_bit _ _ _ ?_⟩
    rw [setErr_hdr, if_pos rfl]
    exact bit_setBit_same _ (by decide)
  · have hx : exec (.concCommit c) s = .next (s.commit c).settle := by
      show finish _ = _
      rw [if_pos (by simp [hd, hc])]
      rfl
    refine ⟨_, hx, frame_of (execConcCommit_only c s) hx, ?_, ?_, fun p => ?_⟩
    · rw [settle_cluster, commit_cluster]
    · rw [settle_cluster, commit_cluster]
    · rw [settle_probe, commit_probe]
      split <;> rfl

/-! ### SET_EPOCH in the die window (R97) -/

section SetEpoch
variable {s : State} {c : CmdIn}

/-- An instant on the ns grid has no part that a fleet time drops. -/
theorem argFT_of_ns {k : Nat} (h : argFTraw c s k % ns = 0) : argFT c s k = argFTraw c s k := by
  have h1024 : argFTraw c s k % 1024 = 0 := by
    simp only [ns] at h
    omega
  exact (congrArg (argFTraw c s k - ·) h1024).trans (Nat.sub_zero _)

theorem begun_argFTraw (a b : Nat) : argFTraw c (s.begun c a b) 1 = argFTraw c s 1 := by
  simp only [argFTraw, begun_argW s c a b 1 (by decide), begun_argW s c a b (1 + 1) (by decide),
    begun_argW s c a b (1 + 2) (by decide)]

/-- A SET_EPOCH whose arguments are good, in the die window. -/
theorem setEpochCmd_die (hg : c.pkg = false) (hd : s.isSystem = false) (hp : 1024 ≤ (argW c s 0).toNat)
    (ho : argFTraw c s 1 % ns = 0) : setEpochCmd c s =
      match s.gridPend (argW c s 0).toNat (argFTraw c s 1) (some (false, c.page.toNat)) with
      | .error d => s.failCmd c d
      | .ok t => t.waitFor c (.time (argFTraw c s 1)) := by
  unfold setEpochCmd
  rw [argFT_of_ns ho, hg, hd, if_neg (not_or.mpr ⟨Nat.not_lt.mpr hp, not_not.mpr ho⟩)]
  rfl

theorem gridPend_late {period : Nat} {origin : FT} {page : Option (Bool × Nat)} (hp : s.samp.grid.pend = none)
    (h : origin < s.now + 10 * us) : s.gridPend period origin page = .error 1 := by
  unfold State.gridPend
  rw [hp, if_neg (by decide), if_pos h]

/-- The state that holds a pending change of the grid. -/
def State.gridPending (s : State) (q : PendEpoch) : State :=
  let u := s.modTime fun x => { x with evts := x.evts ++ [{ kind := .epochOrigin, t := q.origin, key := 0 }] }
  { u with samp := { u.samp with grid := { u.samp.grid with pend := some q } } }

theorem gridPending_cmd (q : PendEpoch) (g : Bool) (n : Nat) : (s.gridPending q).cmd g n = s.cmd g n := rfl

theorem gridPending_grid (q : PendEpoch) : (s.gridPending q).samp.grid = { s.samp.grid with pend := some q } := rfl

theorem gridPend_ok {period : Nat} {origin : FT} {page : Option (Bool × Nat)} (hp : s.samp.grid.pend = none)
    (h : ¬ origin < s.now + 10 * us) (he : s.time.evts.length < 32) :
    s.gridPend period origin page = .ok (s.gridPending { period, origin, page }) := by
  unfold State.gridPend State.evtAdd
  rw [hp, if_neg (by decide), if_neg h, if_neg (by omega)]
  rfl

theorem ok_ended : (s.ok c).settle.ended c stOk 0 := settle_ended (complete_ended s c stOk 0)

theorem failCmd_ended (d : Nat) : (s.failCmd c d).settle.ended c stError d := settle_ended (complete_ended s c stError d)

/-- A command that has been accepted and stays waits. -/
theorem begun_waits {u : State} {a b : Nat} (w : Wait) (h : u.cmd c.pkg c.page.toNat = (s.begun c a b).cmd c.pkg c.page.toNat) :
    (u.waitFor c w).settle.waits c w := by
  have hc : (u.waitFor c w).settle.cmd c.pkg c.page.toNat = { u.cmd c.pkg c.page.toNat with wait := w, ticks := 0 } := by
    rw [settle_cmd]
    exact Tab.read_write_same _ _ _ _
  rw [State.waits, hc, h, begun_cmd]
  exact ⟨rfl, rfl⟩

end SetEpoch

/-! ### Commands over a range of probes (R106, R120) -/

section Ranges
variable {s : State} {c : CmdIn}

theorem begun_argFld (a b k lo len : Nat) (hk : k < 32) : argFld c (s.begun c a b) k lo len = argFld c s k lo len := by
  rw [argFld, begun_argW s c a b k hk]; rfl

theorem begun_probe (a b p : Nat) : (s.begun c a b).probe p = s.probe p := by rw [State.probe, begun_samp]; rfl
theorem begun_cluster (a b k : Nat) : (s.begun c a b).cluster k = s.cluster k := by rw [State.cluster, begun_samp]; rfl
theorem begun_region (a b r : Nat) : (s.begun c a b).region r = s.region r := by rw [State.region, begun_samp]; rfl

theorem begun_present (a b : Nat) : (s.begun c a b).present = s.present := by
  funext p
  rw [State.present, State.isDie, begun_straps, begun_samp]; rfl

/-- Acceptance leaves the registers of every page that is no command page. -/
theorem begun_reg_of_type {k o : Nat} (a b : Nat) (hk : keyType k ≠ 8) : (s.begun c a b).reg k o = s.reg k o := by
  refine begun_reg s c a b k o fun j _ e => hk ?_
  rw [(regKey_inj e).1, keyType_cmdKey]

theorem begun_gyStart (a b : Nat) : (s.begun c a b).gyStart = s.gyStart := by
  unfold State.gyStart State.regFld
  rw [begun_reg_of_type a b (show keyType (pg 0x11) ≠ 8 by decide), begun_samp, begun_now]

/-- The range that the arguments name is a range of probes, and no region of it is under reset (R120). -/
def State.servesRange (s : State) (c : CmdIn) : Prop :=
  0 < argFld c s 1 0 14 ∧ argFld c s 0 0 13 + argFld c s 1 0 14 ≤ 8192 ∧
    ∀ p, argFld c s 0 0 13 ≤ p → p < argFld c s 0 0 13 + argFld c s 1 0 14 →
      (s.region (regionOf (clusterOf p))).inReset = false

/-- Such a range is done whole. -/
theorem probeRange_of_servesRange {a b : Nat} (act fin : State → Nat → State) (h : s.servesRange c) :
    probeRange c act fin (s.begun c a b) =
      fin ((List.range' (argFld c s 0 0 13) (argFld c s 1 0 14)).foldl act (s.begun c a b)) (argFld c s 1 0 14) := by
  obtain ⟨hcount, hlast, hreset⟩ := h
  have hwhole : (s.begun c a b).rangeDone (List.range' (argFld c s 0 0 13) (argFld c s 1 0 14)) =
      List.range' (argFld c s 0 0 13) (argFld c s 1 0 14) := by
    refine List.takeWhile_eq_self_iff.mpr fun p hp => ?_
    obtain ⟨hlow, hhigh⟩ := List.mem_range'_1.mp hp
    rw [begun_region, hreset p hlow hhigh]
    rfl
  unfold probeRange
  rw [begun_argFld a b 0 0 13 (by decide), begun_argFld a b 1 0 14 (by decide)]
  dsimp only
  rw [if_neg hcount.ne', if_neg (show ¬ Config.probes < _ from Nat.not_lt.mpr hlast), hwhole, if_neg (lt_irrefl _),
    List.length_range']

theorem probeReset_probe (p q : Nat) : (s.probeReset p).probe q =
    if q = p then if s.present p then clearProbe (gyRoll s.gyStart (s.probe p)) else s.probe p else s.probe q := by
  unfold State.probeReset
  by_cases hp : s.present p = true
  · simp only [hp, if_true]
    rw [modProbe_probe]
    split_ifs <;> rfl
  · simp only [if_neg hp]
    split_ifs with h
    · rw [h]
    · rfl

theorem probeReset_gyStart (p : Nat) : (s.probeReset p).gyStart = s.gyStart := by
  unfold State.probeReset
  dsimp only
  split_ifs <;> rfl

theorem probeReset_present (p : Nat) : (s.probeReset p).present = s.present := by
  unfold State.probeReset
  dsimp only
  split_ifs <;> rfl

/-- A reset of a range clears each present probe of it. -/
theorem rangeReset_probe (first count q : Nat) : ((List.range' first count).foldl State.probeReset s).probe q =
    if first ≤ q ∧ q < first + count ∧ s.present q = true then clearProbe (gyRoll s.gyStart (s.probe q)) else s.probe q := by
  rw [foldl_probe (P := fun u => u.gyStart = s.gyStart ∧ u.present = s.present) (g := State.probeReset)
    (F := fun p x => if s.present p then clearProbe (gyRoll s.gyStart x) else x)
    (fun u a hu => ⟨(probeReset_gyStart a).trans hu.1, (probeReset_present a).trans hu.2⟩)
    (fun u a q hu => by rw [probeReset_probe, hu.1, hu.2]) List.nodup_range' ⟨rfl, rfl⟩]
  simp only [List.mem_range'_1, ← ite_and, and_assoc]

theorem res_reg (k n : Nat) : (s.res c k n).reg (cmdKey c.pkg c.page.toNat) (0x100 + 4 * k) = word n := reg_setReg_same _ _ _ _

theorem res_probe (k n p : Nat) : (s.res c k n).probe p = s.probe p := rfl
theorem ok_probe (p : Nat) : (s.ok c).probe p = s.probe p := rfl
theorem waitFor_probe (w : Wait) (p : Nat) : (s.waitFor c w).probe p = s.probe p := rfl
theorem waitFor_reg (w : Wait) (p o : Nat) : (s.waitFor c w).reg p o = s.reg p o := rfl

/-- The synchronisers take their new settings and lose bits: no probe changes. -/
theorem syncLoss_probe (lo p : Nat) (l : List Nat) : ((s.applySync lo).loseBits l).probe p = s.probe p := by
  unfold State.loseBits
  split <;> rfl

theorem execProbeReset_eq (h : s.takes c .operator = true) (hd : s.isDie = true) (hr : s.servesRange c) :
    exec (.probeReset c) s = .next ((((((List.range' (argFld c s 0 0 13) (argFld c s 1 0 14)).foldl State.probeReset
      (s.begun c 0x10 0x0002)).applySync 0).loseBits [0]).res c 0 (argFld c s 1 0 14)).ok c).settle := by
  show finish _ = _
  rw [runCmd_takes h 0x10 0x0002 hd, probeRange_of_servesRange _ _ hr]
  rfl

/-- A probe whose totals the next close clears. -/
def toClear (x : Probe) : Probe := { x with clear := true }

theorem rangeToClear_probe (first count q : Nat) :
    ((List.range' first count).foldl (fun u p => u.modProbe p toClear) s).probe q =
      if first ≤ q ∧ q < first + count then toClear (s.probe q) else s.probe q := by
  rw [foldl_modProbe_probe toClear List.nodup_range']
  simp only [List.mem_range'_1]

theorem toClears_cmd (l : List Nat) (g : Bool) (n : Nat) :
    (l.foldl (fun u p => u.modProbe p toClear) s).cmd g n = s.cmd g n :=
  foldl_keeps (fun u => u.cmd g n) (fun _ p => modProbe_cmd p toClear g n) l s

theorem toClears_samp_grid (l : List Nat) : (l.foldl (fun u p => u.modProbe p toClear) s).samp.grid = s.samp.grid :=
  foldl_keeps (fun u => u.samp.grid) (fun _ p => modProbe_samp_grid p toClear) l s

theorem execClearTotals_eq (h : s.takes c .operator = true) (hd : s.isDie = true) (hr : s.servesRange c) :
    exec (.clearTotals c) s = .next ((((List.range' (argFld c s 0 0 13) (argFld c s 1 0 14)).foldl
      (fun u p => u.modProbe p toClear) (s.begun c 0x10 0x0003)).res c 0 (argFld c s 1 0 14)).waitFor c
        (.close (s.samp.grid.epochNo + 1))).settle := by
  have hgrid := toClears_samp_grid (s := s.begun c 0x10 0x0003) (List.range' (argFld c s 0 0 13) (argFld c s 1 0 14))
  rw [begun_samp] at hgrid
  show finish _ = _
  rw [runCmd_takes h 0x10 0x0003 hd, probeRange_of_servesRange _ _ hr, ← hgrid]
  rfl

end Ranges

/-! ### FORCE_ADOPT (R111, R120) -/

theorem execForceAdopt_eq {s : State} {c : CmdIn} (h : s.takes c .firmware = true) (hd : s.isDie = true) :
    exec (.forceAdopt c) s = .next (
      let u := s.begun c 0x10 0x0004
      let k := argFld c s 0 0 8
      if (s.region (regionOf k)).absent then u.failCmd c 6
      else if (s.region (regionOf k)).spareUsed || (s.cluster k).lost then u.failCmd c 5
      else (u.adopt k 5 3).ok c).settle := by
  show finish _ = _
  rw [runCmd_takes h 0x10 0x0004 hd, begun_argFld _ _ _ _ _ (by decide)]
  simp only [begun_region, begun_cluster]
  rfl

/-- Settles O24: a grid change by `gridPend`, the two range commands by their folds over distinct probes, and FORCE_ADOPT by
`adopt_adopted`. -/
theorem samplingCommandsActOnTheirRange : Obligations.SamplingCommandsActOnTheirRange := by
  unfold Obligations.SamplingCommandsActOnTheirRange
  refine ⟨fun c s h hg hd hp ho hn he => ?_, fun c s h hd h0 hle hr => ⟨?_, ?_⟩, fun c s h hd => ?_⟩
  · have hbegun : s.onlyChanges (s.begun c 0x10 0x0001) (commandParts ++ [.grid, .evts]) :=
      begun_only (by decide) (onlyChanges_refl s _)
    have hcmd := setEpochCmd_die (c := c) (s := s.begun c 0x10 0x0001) hg (isSystem_of_isDie (by
      rw [State.isDie, begun_straps]; exact hd)) (by rw [begun_argW s c _ _ 0 (by decide)]; exact hp)
      (by rw [begun_argFTraw]; exact ho)
    rw [begun_argFTraw, begun_argW s c _ _ 0 (by decide)] at hcmd
    have hx : exec (.setEpoch c) s = finish (setEpochCmd c (s.begun c 0x10 0x0001)) := by
      show finish _ = _
      rw [runCmd_takes h 0x10 0x0001 rfl]
    by_cases hlate : argFTraw c s 1 < s.now + 10 * us
    · rw [hcmd, gridPend_late (by rw [begun_samp]; exact hn) (by rw [begun_now]; exact hlate)] at hx
      refine ⟨_, hx, settle_only (by decide) (failCmd_only (by decide) hbegun), ?_⟩
      rw [if_pos hlate, settle_samp]
      exact ⟨failCmd_ended 1, congrArg Samp.grid (begun_samp s c _ _)⟩
    · have hok := gridPend_ok (period := (argW c s 0).toNat) (page := some (false, c.page.toNat))
        (show (s.begun c 0x10 0x0001).samp.grid.pend = none by rw [begun_samp]; exact hn)
        (show ¬ argFTraw c s 1 < (s.begun c 0x10 0x0001).now + 10 * us by rw [begun_now]; exact hlate)
        (by rw [begun_time]; exact he)
      rw [hcmd, hok] at hx
      refine ⟨_, hx, settle_only (by decide) (waitFor_only (by decide) (gridPend_only hok (by decide) hbegun)), ?_⟩
      rw [if_neg hlate, settle_samp]
      exact ⟨begun_waits (a := 0x10) (b := 0x0001) _ (gridPending_cmd _ _ _), congrArg Grid.pend (gridPending_grid _)⟩
  · have hx := execProbeReset_eq h hd ⟨h0, hle, hr⟩
    refine ⟨_, hx, frame_of (execProbeReset_only c s) hx, ok_ended, ?_, fun p => ?_⟩
    · rw [settle_reg, ok_reg]
      exact res_reg 0 _
    · rw [settle_probe, ok_probe, res_probe, syncLoss_probe, rangeReset_probe, begun_present, begun_gyStart, begun_probe]
      split_ifs <;> rfl
  · have hx := execClearTotals_eq h hd ⟨h0, hle, hr⟩
    refine ⟨_, hx, frame_of (execClearTotals_only c s) hx, ?_, ?_, fun p => ?_⟩
    · refine begun_waits (s := s) (a := 0x10) (b := 0x0003) _ ?_
      exact toClears_cmd _ _ _
    · rw [settle_reg, waitFor_reg]
      exact res_reg 0 _
    · rw [settle_probe, waitFor_probe, res_probe, rangeToClear_probe, begun_probe]
      split_ifs <;> rfl
  · have hx := execForceAdopt_eq h hd
    refine ⟨_, hx, frame_of (execForceAdopt_only c s) hx, ?_⟩
    dsimp only
    split_ifs
    · exact failCmd_ended 6
    · exact failCmd_ended 5
    · obtain ⟨hadopted, hused, hregion⟩ := adopt_adopted (s.begun c 0x10 0x0004) (argFld c s 0 0 8) 5 3
      rw [settle_cluster, settle_region]
      exact ⟨ok_ended, hadopted, hused, hregion⟩

end Sys2Proof.Machine
end

section
/-!
O27 and O28 (R152, R154, R155, R157 to R159, R162): the reduction commands and the record latch. A command's own effect begins
in the state `begun`, whose engines, arguments, measurements and slots are those before; a capture puts the record of the slot
that KX_RED_SLOT names into the latch, and leaves the slots.
-/
namespace Sys2Proof.Machine

/-! ### What an operation leaves of the engines, the registers and the command pages -/

section Leaves
variable (s : State)

@[simp] theorem modRed_red_same (sc : Nat) (f : Red → Red) : (s.modRed sc f).red sc = f (s.red sc) :=
  Tab.read_modify_same _ _ _ _

@[simp] theorem settle_red (sc : Nat) : s.settle.red sc = s.red sc := by rw [State.red, settle_reds]; rfl

@[simp] theorem respond_red (q : Req) (r : Resp) (d : Word) (sc : Nat) : (s.respond q r d).red sc = s.red sc := by
  obtain ⟨_, _, _, h⟩ := respond_frame s q r d
  rw [h]; rfl

theorem startXfer_cmd (w : XferOwner) (wr : Bool) (a l : Nat) (d : List Byte) (g : Bool) (n : Nat) :
    (s.startXfer w wr a l d).cmd g n = s.cmd g n := by
  obtain ⟨_, _, _, _, h⟩ := startXferOf_eq s none w wr a l d
  rw [State.startXfer, h]; rfl

theorem startXfer_reg (w : XferOwner) (wr : Bool) (a l : Nat) (d : List Byte) (p o : Nat) :
    (s.startXfer w wr a l d).reg p o = s.reg p o := by
  obtain ⟨_, _, _, _, h⟩ := startXferOf_eq s none w wr a l d
  rw [State.startXfer, h]; rfl

/-- Writing bytes out to host memory changes no register. -/
theorem writeOut_reg (c : CmdIn) (a : Nat) (l : List Byte) (p o : Nat) : (s.writeOut c a l).reg p o = s.reg p o := by
  unfold State.writeOut
  split
  · exact ok_reg s c p o
  · exact startXfer_reg _ _ _ _ _ _ p o

end Leaves

/-! ### What a reduction command finds as its effect begins -/

section Begun
variable (s : State) (c : CmdIn) (a b : Nat)

@[simp] theorem begun_red (sc : Nat) : (s.begun c a b).red sc = s.red sc := by rw [State.red, begun_reds]; rfl

@[simp] theorem begun_isMeasured (item : Nat) : (s.begun c a b).isMeasured item = s.isMeasured item := by
  rw [State.isMeasured, State.meas, begun_rot]; rfl

@[simp] theorem begun_slotBound (q : Req) (slot : Nat) : (s.begun c a b).slotBound q slot = s.slotBound q slot := by
  rw [State.slotBound, begun_samp]; rfl

@[simp] theorem begun_arg64 (k : Nat) (hk : k + 1 < 32) : arg64 c (s.begun c a b) k = arg64 c s k := by
  rw [arg64, begun_argW s c a b k (by omega), begun_argW s c a b (k + 1) hk]; rfl

@[simp] theorem begun_pendAct : (s.begun c a b).pendAct c = s.pendAct c := by
  rw [State.pendAct, begun_argW s c a b 0 (by decide), begun_arg64 s c a b 1 (by decide), begun_now, begun_samp]; rfl

end Begun

/-! ### The effects of the reduction commands, case by case -/

section Effects
variable {s : State} {c : CmdIn}

/-- An image is fetched by a transfer, for which the command waits (R154). -/
theorem redLoad_of_pos (h : 0 < min (argW c s 2).toNat redMaxImage) : redLoad c s =
    (s.waitFor c (.transfer s.pages.nextXfer)).startXfer (.command c.pkg c.page.toNat) false (arg64 c s 0)
      (min (argW c s 2).toNat redMaxImage) [] := if_neg h.ne'

theorem redActivateCmd_of_noImage (h : (s.red (scopeOf c.pkg)).inactive.valid = false) :
    redActivateCmd c s = s.failCmd c 0x0E := by
  simp [redActivateCmd, State.actCheck, h]

theorem redActivateCmd_of_unmeasured (hv : (s.red (scopeOf c.pkg)).inactive.valid = true)
    (hm : s.isMeasured (redItem (scopeOf c.pkg) true) = false) : redActivateCmd c s = s.done c stUnmeasured 0 := by
  simp [redActivateCmd, State.actCheck, hv, hm]

/-- A node with one more activation pending. -/
def withAct (p : PendAct) (n : Red) : Red := { n with acts := n.acts ++ [p] }

/-- An activation that names no epoch is never late (R155). -/
theorem redActivateCmd_of_measured (hv : (s.red (scopeOf c.pkg)).inactive.valid = true)
    (hm : s.isMeasured (redItem (scopeOf c.pkg) true) = true) (hb : bit (argW c s 0) 0 = false) :
    redActivateCmd c s = (s.modRed (scopeOf c.pkg) (withAct (s.pendAct c))).waitFor c (.event 1 0) := by
  simp only [redActivateCmd, State.actCheck, hv, hm, hb, Bool.not_true, Bool.false_eq_true, false_and, if_false]
  rfl

/-- A rule of the active program writes the slot that the command names. -/
def State.slotInUse (s : State) (c : CmdIn) : Bool :=
  (s.red (scopeOf c.pkg)).active.rules.any fun r => decide (r.slot = argFld c s 0 0 8)

/-- A node with one more slot to be cleared, for a command page. -/
def withClear (slot : Nat) (c : CmdIn) (n : Red) : Red := { n with clears := n.clears ++ [(slot, c.pkg, c.page.toNat)] }

theorem redClearSlot_eq : redClearSlot c s =
    if s.slotInUse c then (s.modRed (scopeOf c.pkg) (withClear (argFld c s 0 0 8) c)).waitFor c (.event 2 (argFld c s 0 0 8))
    else s.failCmd c 0x0F := rfl

/-- The record of the slot that a RED_COPY_SLOT names, as bytes (R157). -/
def State.copiedSlot (s : State) (c : CmdIn) : List Byte :=
  slotBytes (Tab.read SlotRec.empty (s.red (scopeOf c.pkg)).slots (argFld c s 0 0 8))

theorem redCopySlot_eq : redCopySlot c s =
    if s.slotBound c.req (argFld c s 0 0 8) = false then s.done c stDenied 0
    else if arg64 c s 1 % 64 ≠ 0 then s.done c stBadArg 0
    else (s.res c 0 (s.copiedSlot c).length).writeOut c (arg64 c s 1) (s.copiedSlot c) := by
  simp only [redCopySlot, State.badArg, State.copiedSlot, Bool.not_eq_true']

/-- The copy of the program that a RED_DUMP names (R162). -/
def State.dumped (s : State) (c : CmdIn) : RedCopy :=
  if bit (argW c s 0) 0 then (s.red (scopeOf c.pkg)).inactive else (s.red (scopeOf c.pkg)).active

theorem redDump_eq : redDump c s =
    if (s.dumped c).valid = false then s.failCmd c 0x0E
    else (s.res c 0 (s.dumped c).image.length).writeOut c (arg64 c s 1) (s.dumped c).image := by
  simp only [redDump, State.dumped, Bool.not_eq_true']
  rfl

theorem begun_slotInUse (a b : Nat) : (s.begun c a b).slotInUse c = s.slotInUse c := by
  simp only [State.slotInUse, begun_red, begun_argFld a b 0 0 8 (by decide)]

theorem begun_copiedSlot (a b : Nat) : (s.begun c a b).copiedSlot c = s.copiedSlot c := by
  simp only [State.copiedSlot, begun_red, begun_argFld a b 0 0 8 (by decide)]

theorem begun_dumped (a b : Nat) : (s.begun c a b).dumped c = s.dumped c := by
  simp only [State.dumped, begun_red, begun_argW s c a b 0 (by decide)]

theorem done_ended (st : Byte) (d : Nat) : (s.done c st d).settle.ended c st d := settle_ended (complete_ended s c st d)

/-- Bytes written out, with their number in RES_0. -/
theorem writeOut_res_zero (n a : Nat) (l : List Byte) :
    ((s.res c 0 n).writeOut c a l).settle.reg (cmdKey c.pkg c.page.toNat) 0x100 = BitVec.ofNat 32 n := by
  rw [settle_reg, writeOut_reg]
  exact res_reg 0 n

end Effects

/-! ### The steps of the reduction commands -/

section Steps
variable {s : State} {c : CmdIn}

/-- What every command's frame names, it names of the state in which the effect begins. -/
theorem begun_changes (a b : Nat) (L : List Part) : s.onlyChanges (s.begun c a b) (commandParts ++ L) :=
  begun_only (names_of_subset (List.subset_append_left _ _)) (onlyChanges_refl s _)

/-- A command that starts a transfer and waits for it. -/
theorem begun_startXfer_waits {a b : Nat} (w : Wait) (o : XferOwner) (wr : Bool) (ad l : Nat) (d : List Byte) :
    (((s.begun c a b).waitFor c w).startXfer o wr ad l d).settle.waits c w := by
  have hwait := begun_waits (s := s) (c := c) (a := a) (b := b) w rfl
  rw [State.waits, settle_cmd, startXfer_cmd, ← settle_cmd]
  exact hwait

/-- An activation with its image measured waits, and is the last of those pending (R155). -/
theorem begun_redActivate_pends {a b : Nat} (hv : (s.red (scopeOf c.pkg)).inactive.valid = true)
    (hm : s.isMeasured (redItem (scopeOf c.pkg) true) = true) (hb : bit (argW c s 0) 0 = false) :
    (redActivateCmd c (s.begun c a b)).settle.waits c (.event 1 0) ∧
      (redActivateCmd c (s.begun c a b)).settle.red (scopeOf c.pkg) = withAct (s.pendAct c) (s.red (scopeOf c.pkg)) := by
  rw [redActivateCmd_of_measured (by rw [begun_red]; exact hv) (by rw [begun_isMeasured]; exact hm)
    (by rw [begun_argW s c a b 0 (by decide)]; exact hb), begun_pendAct]
  refine ⟨begun_waits _ rfl, ?_⟩
  rw [settle_red, ← begun_red s c a b]
  exact modRed_red_same _ _ _

theorem execRedLoad_eq (h : s.takes c .operator = true) :
    exec (.redLoad c) s = .next (redLoad c (s.begun c 0x18 0x0001)).settle :=
  congrArg finish (runCmd_takes h 0x18 0x0001 rfl (redLoad c))

theorem execRedActivate_eq (h : s.takes c .operator = true) :
    exec (.redActivate c) s = .next (redActivateCmd c (s.begun c 0x18 0x0002)).settle :=
  congrArg finish (runCmd_takes h 0x18 0x0002 rfl (redActivateCmd c))

theorem execRedClearSlot_eq (h : s.takes c .operator = true) :
    exec (.redClearSlot c) s = .next (redClearSlot c (s.begun c 0x18 0x0003)).settle :=
  congrArg finish (runCmd_takes h 0x18 0x0003 rfl (redClearSlot c))

theorem execRedCopySlot_eq (h : s.takes c .tenant = true) :
    exec (.redCopySlot c) s = .next (redCopySlot c (s.begun c 0x18 0x0004)).settle :=
  congrArg finish (runCmd_takes h 0x18 0x0004 rfl (redCopySlot c))

theorem execRedDump_eq (h : s.takes c .operator = true) :
    exec (.redDump c) s = .next (redDump c (s.begun c 0x18 0x0005)).settle :=
  congrArg finish (runCmd_takes h 0x18 0x0005 rfl (redDump c))

end Steps

/-- Settles O27: each command by the equation of its effect, on the state in which it begins. -/
theorem reductionCommandsLoadActivateAndCopy : Obligations.ReductionCommandsLoadActivateAndCopy := by
  unfold Obligations.ReductionCommandsLoadActivateAndCopy
  refine ⟨fun c s h hlen => ?_, fun c s h => ?_, fun c s h => ?_, fun c s h => ?_, fun c s h => ?_, fun c s =>
    ⟨execRedLoad_only c s, execRedActivate_only c s, execRedClearSlot_only c s, execRedCopySlot_only c s,
      execRedDump_only c s⟩⟩
  · have hload := redLoad_of_pos (c := c) (s := s.begun c 0x18 0x0001) (by rw [begun_argW s c _ _ 2 (by decide)]; exact hlen)
    refine ⟨_, execRedLoad_eq h, ?_, ?_⟩
    · rw [hload]
      exact settle_only (by decide) (startXfer_only (by decide) (waitFor_only (by decide) (begun_changes _ _ _)))
    · rw [hload, begun_pages_nextXfer]
      exact begun_startXfer_waits _ _ _ _ _ _
  · refine ⟨_, execRedActivate_eq h, settle_only (by decide) (redActivateCmd_only (by decide) (begun_changes _ _ _)), ?_⟩
    split_ifs with hv hm
    · rw [redActivateCmd_of_noImage (by rw [begun_red]; exact hv), settle_reds]
      exact ⟨failCmd_ended _, begun_reds s c _ _⟩
    · rw [redActivateCmd_of_unmeasured (by rw [begun_red]; exact eq_true_of_ne_false hv)
        (by rw [begun_isMeasured]; exact hm), settle_reds]
      exact ⟨done_ended _ _, begun_reds s c _ _⟩
    · intro hb
      obtain ⟨hwait, hnode⟩ := begun_redActivate_pends (a := 0x18) (b := 0x0002) (eq_true_of_ne_false hv)
        (eq_true_of_ne_false hm) hb
      rw [hnode]
      exact ⟨hwait, rfl, rfl⟩
  · refine ⟨_, execRedClearSlot_eq h, settle_only (by decide) (redClearSlot_only (by decide) (begun_changes _ _ _)), ?_⟩
    rw [redClearSlot_eq, begun_slotInUse, begun_argFld _ _ 0 0 8 (by decide)]
    change if s.slotInUse c = true then _ else _
    split_ifs with hslot
    · refine ⟨begun_waits (s := s) (a := 0x18) (b := 0x0003) _ rfl, ?_⟩
      rw [settle_red, ← begun_red s c 0x18 0x0003]
      exact congrArg Red.clears (modRed_red_same (s.begun c 0x18 0x0003) _ _)
    · rw [settle_reds]
      exact ⟨failCmd_ended _, begun_reds s c _ _⟩
  · refine ⟨_, execRedCopySlot_eq h, settle_only (by decide) (redCopySlot_only (by decide)
      (begun_only (by decide) (onlyChanges_refl s _))), ?_⟩
    rw [redCopySlot_eq, begun_slotBound, begun_arg64 s c _ _ 1 (by decide), begun_copiedSlot,
      begun_argFld _ _ 0 0 8 (by decide)]
    split_ifs
    · exact done_ended _ _
    · exact done_ended _ _
    · exact writeOut_res_zero _ _ _
  · refine ⟨_, execRedDump_eq h, settle_only (by decide) (redDump_only (by decide)
      (begun_only (by decide) (onlyChanges_refl s _))), ?_⟩
    rw [redDump_eq, begun_dumped]
    change if (s.dumped c).valid = false then _ else _ = BitVec.ofNat 32 (s.dumped c).image.length
    split_ifs
    · exact failCmd_ended _
    · exact writeOut_res_zero _ _ _

/-! ### The record latch and the quantile readout (R152, R159) -/

section RecordLatch
variable {s : State} {q : Req} {w : Word}

/-- The record of the slot that KX_RED_SLOT selects. -/
def State.selectedSlot (s : State) (sc : Nat) : SlotRec :=
  Tab.read SlotRec.empty (s.red sc).slots (s.regFld (redPage sc) 0x54 0 8)

theorem redCapture_red (sc : Nat) : (s.redCapture sc).red sc =
    { s.red sc with latch := padTo 1096 (slotBytes (s.selectedSlot sc)), latchRec := s.selectedSlot sc } :=
  modRed_red_same _ _ _

/-- A read of the first word of the captured record captures the record. -/
theorem readReg_recordLatch :
    s.readReg (pg 0x18) 0x200 = ((s.redCapture 0).pageWord (pg 0x18) 0x200, s.redCapture 0) := by
  have hwide : wideAt 0x18 0x200 = none := by decide
  have hkey : keyType (pg 0x18) = 0x18 := by decide
  have hscope : keyScope (pg 0x18) = 0 := by decide
  simp [State.readReg, hkey, hwide, hscope]

/-- What QP takes from a write: 0 stores 1. -/
def quantileOf (w : Word) : Nat := if fld w 0 16 = 0 then 1 else fld w 0 16

/-- A write of QP stores it and captures the record; then only QINFO and QVAL follow. -/
theorem redQuantile_eq (sc : Nat) (w : Word) : ∃ info v, s.redQuantile sc w =
    (((s.setReg (redPage sc) 0x58 (word (quantileOf w))).redCapture sc).setReg (redPage sc) 0x5C info).setRegWide
      (redPage sc) 0x60 2 v := by
  unfold State.redQuantile
  extract_lets qp u x
  split
  · split
    · exact ⟨_, _, rfl⟩
    · exact ⟨_, _, rfl⟩
  · exact ⟨_, _, rfl⟩

theorem setRegWide_two (p o v : Nat) :
    s.setRegWide p o 2 v = (s.setReg p o (wordOf v 0)).setReg p (o + 4) (wordOf v 1) := rfl

theorem redQuantile_qp : (s.redQuantile 0 w).reg (pg 0x18) 0x58 = word (quantileOf w) := by
  obtain ⟨info, v, h⟩ := redQuantile_eq (s := s) 0 w
  rw [h, setRegWide_two, reg_setReg, if_neg (by decide), reg_setReg, if_neg (by decide), reg_setReg, if_neg (by decide)]
  exact reg_setReg_same s (pg 0x18) 0x58 _

/-- QP is not the word that selects the slot. -/
theorem setReg_qp_selectedSlot : (s.setReg (redPage 0) 0x58 w).selectedSlot 0 = s.selectedSlot 0 := by
  have hslot : (s.setReg (redPage 0) 0x58 w).reg (redPage 0) 0x54 = s.reg (redPage 0) 0x54 := by
    rw [reg_setReg, if_neg (by decide)]
  rw [State.selectedSlot, State.regFld, hslot]
  rfl

theorem redQuantile_latchRec : ((s.redQuantile 0 w).red 0).latchRec = s.selectedSlot 0 := by
  obtain ⟨info, v, h⟩ := redQuantile_eq (s := s) 0 w
  have hcapture := congrArg Red.latchRec (redCapture_red (s := s.setReg (redPage 0) 0x58 (word (quantileOf w))) 0)
  rw [h, ← setReg_qp_selectedSlot (s := s) (w := word (quantileOf w))]
  exact hcapture

/-- A write of KX_RED_QP is stored at once, and counts as a change of the configuration (R431). -/
theorem freshWrite_qp : s.freshWrite (pg 0x18) 0x58 q w = (.ok, (s.touchItem 0x09).redQuantile 0 w) := by
  rw [freshWrite_plain (by decide) (by decide)]
  rfl

end RecordLatch

/-- Settles O28: the read of the latch is `redCapture`, and the write of QP is `redQuantile`. -/
theorem slotRecordsAreCaptured : Obligations.SlotRecordsAreCaptured := by
  unfold Obligations.SlotRecordsAreCaptured
  refine ⟨fun a s hm hd => ?_, fun a s hm hg => ?_, fun a s => ⟨execSlotCapture_only a s, execQpWrite_only a s⟩⟩
  · have hx := access_read hm (by decide) (by decide) hd
    rw [readReg_recordLatch] at hx
    obtain ⟨t, ht, -, honly, hred⟩ := access_ends (L := [.redNodes])
      (P := fun t => t.red 0 = (s.busyNow.redCapture 0).red 0) hx (redCapture_only (by decide) (busyNow_changes s _)) rfl rfl
      (by rw [settle_red, respond_red])
    rw [redCapture_red] at hred
    refine ⟨t, ht, honly, ?_⟩
    rw [hred]
    exact ⟨rfl, rfl, rfl⟩
  · refine access_ends (access_fresh_ok hm hg freshWrite_qp) (redQuantile_only (by decide) (touchItem_only (by decide)
      (busyNow_changes s _))) rfl rfl ⟨?_, ?_⟩
    · rw [settle_reg, respond_reg, redQuantile_qp]
      rfl
    · rw [settle_red, respond_red, redQuantile_latchRec]
      rfl

end Sys2Proof.Machine
end

section
/-!
O29 (R168, R175, R179, R180, R182, R183, R193): batches, issues and verdicts. Each step makes its own change to the engine, and
what follows of counts, error bits and records leaves the engines as they are.
-/
namespace Sys2Proof.Machine

/-! ### What an operation leaves of the engines -/

section Engines
variable (s : State) (e : Nat)

theorem modEngine_engine_same (f : Forest → Forest) : (s.modEngine e f).engine e = f (s.engine e) :=
  Tab.read_modify_same _ _ _ _

/-- An engine reads the same wherever the forest engines are the same. -/
theorem engine_of_same {t : State} (h : Part.engines.same s t) : t.engine e = s.engine e :=
  congrArg (Tab.read Forest.reset · e) h

@[simp] theorem settle_engine : s.settle.engine e = s.engine e := by rw [State.engine, settle_forest]; rfl

@[simp] theorem begun_engine (c : CmdIn) (a b : Nat) : (s.begun c a b).engine e = s.engine e := by
  rw [State.engine, begun_forest]; rfl

@[simp] theorem advanceTo_engine (t : FT) : (s.advanceTo t).engine e = s.engine e := rfl
@[simp] theorem bump_engine (p o n : Nat) : (s.bump p o n).engine e = s.engine e := rfl
@[simp] theorem setErr_engine (p b : Nat) : (s.setErr p b).engine e = s.engine e := rfl

@[simp] theorem log_engine (p i c v b a : Nat) (l : List Byte) : (s.log p i c v b a l).engine e = s.engine e :=
  engine_of_same s e (same_of_only .engines (fun hL ho => log_only hL ho) (by decide))

@[simp] theorem injTake_engine (p k : Nat) : (s.injTake p k).2.engine e = s.engine e := by
  unfold State.injTake
  dsimp only
  split_ifs <;> rfl

@[simp] theorem scoreNow_engine (f : Nat) (g : Bool) (n : Nat) : (s.scoreNow f g n).engine e = s.engine e :=
  engine_of_same s e (same_of_only .engines (fun hL ho => scoreNow_only hL ho) (by decide))

/-- Serving the commands that wait for an issue slot leaves of the engine all but its queue of them. -/
theorem scoreServe_engine : (s.scoreServe e).engine e =
    if scoreFree (s.engine e) then { s.engine e with scores := [] } else s.engine e := by
  have hkept (u : State) (r : ScoreReq) : (u.scoreNow e r.pkg r.page).engine e = u.engine e :=
    scoreNow_engine u e e r.pkg r.page
  have hserved := foldl_keeps (State.engine · e) hkept (s.engine e).scores s
  unfold State.scoreServe
  dsimp only
  split_ifs
  · rw [modEngine_engine_same, hserved]
  · rfl

theorem scoreServe_engine_of_idle (h : (s.engine e).scores = []) : (s.scoreServe e).engine e = s.engine e := by
  rw [scoreServe_engine, ← h, ite_self]

end Engines

/-! ### A batch's start (R182, R183, R193) -/

section Batches
variable {s : State} {e : Nat}

theorem batchEnd_of_none (h : (s.engine e).batch = none) : s.batchEnd e = s := by
  unfold State.batchEnd
  rw [h]

/-- A close is behind the engine, with a batch or without one. -/
def closed (epoch : Nat) (f : Forest) : Forest := { f with done := epoch + 1 }

/-- The batch of a close begins, with nothing issued. -/
def withBatch (epoch : Nat) (b : Batch) (f : Forest) : Forest :=
  { f with batch := some b, tag := BitVec.ofNat 8 epoch, issued := 0 }

/-- A batch's start with a close to begin: the engine is past that close and, unless its TCAM is rewritten, holds the
eligible entities of the close as its batch (R183, R193). -/
theorem batchStart_eq {epoch window : Nat} (he : e < s.engineCount) (hr : s.forestRuns = true)
    (hv : (s.engine e).active.valid = true) (hc : s.batchClose (s.engine e).active = some (epoch, window))
    (hd : (s.engine e).done ≤ epoch) (hb : (s.engine e).batch = none) :
    ∃ (k : Nat) (start : FT) (b : Batch), b.todo = eligible (s.engine e).active (s.snapOf epoch).dir (s.engine e).next ∧
      b.epoch = epoch ∧ s.batchStart e =
        if rewrites (s.engine e) then (s.modEngine e (closed epoch)).bump (fPage e) 0x54 k
        else (((s.modEngine e (closed epoch)).advanceTo start).modEngine e (withBatch epoch b)).scoreServe e := by
  have hgo : (!(s.engine e).active.valid || !s.forestRuns || !decide (e < s.engineCount)) = false := by simp [hv, hr, he]
  unfold State.batchStart
  simp only [hgo, hc, batchEnd_of_none hb, if_neg (Nat.not_lt.mpr hd), Bool.false_eq_true, if_false]
  exact ⟨_, _, _, rfl, rfl, rfl⟩

theorem batchStart_engine {epoch window : Nat} (he : e < s.engineCount) (hr : s.forestRuns = true)
    (hv : (s.engine e).active.valid = true) (hc : s.batchClose (s.engine e).active = some (epoch, window))
    (hd : (s.engine e).done ≤ epoch) (hb : (s.engine e).batch = none) (hs : (s.engine e).scores = []) :
    ∃ b : Batch, b.todo = eligible (s.engine e).active (s.snapOf epoch).dir (s.engine e).next ∧ b.epoch = epoch ∧
      (s.batchStart e).engine e =
        if rewrites (s.engine e) then closed epoch (s.engine e) else withBatch epoch b (closed epoch (s.engine e)) := by
  obtain ⟨k, start, b, htodo, hepoch, h⟩ := batchStart_eq he hr hv hc hd hb
  refine ⟨b, htodo, hepoch, ?_⟩
  rw [h]
  split_ifs
  · rw [bump_engine, modEngine_engine_same]
  · have hengine : (((s.modEngine e (closed epoch)).advanceTo start).modEngine e (withBatch epoch b)).engine e =
        withBatch epoch b (closed epoch (s.engine e)) := by
      rw [modEngine_engine_same, advanceTo_engine, modEngine_engine_same]
    rw [scoreServe_engine_of_idle _ _ (by rw [hengine]; exact hs), hengine]

/-! ### An issue (R175, R183, R184) -/

theorem inferOne_entity (units : Nat) (f : Forest) (b : Batch) (x : Nat) (forced : Bool) :
    (inferOne units f b x forced).1.entity = x := by
  unfold inferOne
  dsimp only
  split <;> rfl

theorem inferOne_epoch (units : Nat) (f : Forest) (b : Batch) (x : Nat) (forced : Bool) :
    (inferOne units f b x forced).1.epoch = b.epoch := by
  unfold inferOne
  dsimp only
  split <;> rfl

/-- The engine with its batch's list of trees whose default leaf is recorded. -/
def withHits (b : Batch) (l : List Nat) (f : Forest) : Forest := { f with batch := some { b with defTrees := l } }

theorem withHits_self {b : Batch} {f : Forest} (h : f.batch = some b) : withHits b b.defTrees f = f := by
  unfold withHits
  rw [← h]

/-- Default leaves are noted in the batch, and nowhere else in the engine (R168). -/
theorem defaultHits_engine {b : Batch} (epoch : Nat) (defs : List (Nat × Nat × BitVec 256))
    (h : (s.engine e).batch = some b) : ∃ l, (s.defaultHits e epoch defs).engine e = withHits b l (s.engine e) := by
  unfold State.defaultHits
  extract_lets u
  have hu : u.engine e = withHits b b.defTrees (s.engine e) := by
    rw [withHits_self h]
    unfold u
    split_ifs <;> rfl
  clear_value u
  generalize b.defTrees = l at hu
  induction defs generalizing u l with
  | nil => exact ⟨l, hu⟩
  | cons d defs ih =>
    have hbatch : (u.engine e).batch = some { b with defTrees := l } := congrArg Forest.batch hu
    rw [List.foldl_cons, hbatch]
    dsimp only
    split_ifs
    · exact ih u l hu
    · exact ih _ (d.1 :: l) (by rw [modEngine_engine_same, log_engine, hu]; rfl)

/-- The engine after an issue: the entity has left the batch, and its verdict is the last in flight. -/
def issuing (x : Nat) (v : Verdict) (b : Batch) (f : Forest) : Forest :=
  { f with next := (x + 1) % 16384, issued := f.issued + 1, flight := f.flight ++ [v], batch := some b }

theorem inferIssue_engine {x y : Nat} {rest : List Nat} {b : Batch} (hb : (s.engine e).batch = some b)
    (ht : b.todo = x :: y :: rest) (hl : b.limit = none) (hr : s.forestRuns = true) (hw : rewrites (s.engine e) = false) :
    ∃ (v : Verdict) (b' : Batch), v.entity = x ∧ v.epoch = b.epoch ∧ b'.todo = y :: rest ∧
      (s.inferIssue e).engine e = issuing x v b' (s.engine e) := by
  generalize hissue : s.inferIssue e = t
  unfold State.inferIssue at hissue
  extract_lets f used at hissue
  have hf : f = s.engine e := rfl
  clear_value f
  simp -zeta only [hb, hf, ht, hl, hr, hw] at hissue
  extract_lets inTime late counted inj found answer issued noted flagged at hissue
  have hfound : found.engine e = s.engine e := by
    unfold found inj
    split_ifs
    · rw [injTake_engine]; rfl
    · rfl
  have hissued : ∃ b' : Batch, b'.todo = y :: rest ∧ issued.engine e = issuing x answer.1 b' (s.engine e) :=
    ⟨_, rfl, (modEngine_engine_same _ _ _).trans (by rw [hfound]; rfl)⟩
  obtain ⟨b', htodo, hissued⟩ := hissued
  have hnoted : ∃ l, noted.engine e = withHits b' l (issuing x answer.1 b' (s.engine e)) := by
    rw [← hissued]
    unfold noted
    split
    · exact ⟨b'.defTrees, (withHits_self (congrArg Forest.batch hissued)).symm⟩
    · exact defaultHits_engine _ _ (congrArg Forest.batch hissued)
  obtain ⟨l, hnoted⟩ := hnoted
  refine ⟨answer.1, { b' with defTrees := l }, inferOne_entity _ _ _ _ _, inferOne_epoch _ _ _ _ _, htodo, ?_⟩
  have hflagged : flagged.engine e = noted.engine e := by
    unfold flagged
    split_ifs <;> rfl
  rw [← hissue]
  exact hflagged.trans hnoted

/-! ### A verdict (R179, R180) -/

/-- The verdict table with a verdict's word in it (R200). -/
def tabled (v : Verdict) (f : Forest) : Forest := { f with table := Tab.write wordZero f.table v.entity (vdataWord v) }

/-- A verdict in the table and, unless UNSCORED, among the ENTITY elements. -/
def State.verdictListed (s : State) (e : Nat) (v : Verdict) : State :=
  let u := s.modEngine e (tabled v)
  if bit v.flags vfUnscored then u
  else { u with reds := { u.reds with
    verdicts := u.reds.verdicts ++ [(v.entity, v.code.toNat, v.sum)]
    staleVerdicts := if bit v.flags vfStale then u.reds.staleVerdicts ++ [v.entity] else u.reds.staleVerdicts } }

theorem verdictListed_engine (v : Verdict) : (s.verdictListed e v).engine e = tabled v (s.engine e) := by
  rw [← modEngine_engine_same s e (tabled v)]
  unfold State.verdictListed
  split <;> rfl

theorem verdictListed_verdicts (v : Verdict) : (s.verdictListed e v).reds.verdicts =
    s.reds.verdicts ++ if bit v.flags vfUnscored then [] else [(v.entity, v.code.toNat, v.sum)] := by
  unfold State.verdictListed
  split
  · exact (List.append_nil _).symm
  · rfl

/-- What a listed verdict goes on to. -/
def verdictSent : List Part := [.mbox, .ringQ, .out, .xfers, .geyser, .word 0x20 0x84, .drift, .word 0x40 0x6C, .svcNotices,
  .suspects, .droops, .trace]

theorem verdictPost_only_sends (v : Verdict) : (s.verdictListed e v).onlyChanges (s.verdictPost e v) verdictSent := by
  unfold State.verdictPost
  extract_lets f listed reds entered triggered ring ringed
  have htriggered : (s.verdictListed e v).onlyChanges triggered verdictSent :=
    gyTrigger_only (by decide) (onlyChanges_refl _ _)
  have hringed : (s.verdictListed e v).onlyChanges ringed verdictSent := by
    unfold ringed
    split_ifs
    · exact ringPut_only (by decide) htriggered
    · exact bump_only (by rw [keyType_fPage]; decide) htriggered
    · exact htriggered
  split_ifs
  · exact sendTyp_only (by decide) hringed
  · exact hringed

theorem execVerdictOut_sends {v : Verdict} {vs : List Verdict} (h : (s.engine e).flight = v :: vs) :
    ∃ u, exec (.verdictOut e) s = .next u.settle ∧
      ((s.modEngine e fun f => { f with flight := vs }).verdictListed e v).onlyChanges u verdictSent := by
  show ∃ u, execVerdictOut e s = _ ∧ _
  unfold execVerdictOut
  rw [h]
  refine ⟨_, rfl, traceVerdict_only (by decide) ?_⟩
  have hsvc := svcVerdict_only (e := e) (v := v) (by decide)
    (verdictPost_only_sends (s := s.modEngine e fun f => { f with flight := vs }) (e := e) v)
  split_ifs
  · exact pwrVerdict_only (by decide) hsvc
  · exact hsvc

end Batches

/-- Settles O29: each step by what it makes of its engine, and a verdict by the frame of all that follows its listing. -/
theorem batchesIssueAndPostVerdicts : Obligations.BatchesIssueAndPostVerdicts := by
  unfold Obligations.BatchesIssueAndPostVerdicts
  refine ⟨fun e epoch window s he hr hv hc hd hb hs => ?_, fun e x y rest b s hb ht hl hr hw => ?_, fun e v vs s h => ?_,
    fun e s => ⟨execBatchStart_only e s, execInferenceIssue_only e s, execVerdictOut_only e s⟩⟩
  · obtain ⟨b, htodo, hepoch, hengine⟩ := batchStart_engine he hr hv hc hd hb hs
    have hx : exec (.batchStart e) s = .next (s.batchStart e).settle := rfl
    refine ⟨_, hx, frame_of (execBatchStart_only e s) hx, ?_⟩
    rw [settle_engine, hengine]
    cases hw : rewrites (s.engine e) with
    | true => exact ⟨rfl, hb⟩
    | false => exact ⟨rfl, congrArg some htodo, congrArg some hepoch, rfl, rfl⟩
  · obtain ⟨v, b', hentity, hepoch, htodo, hengine⟩ := inferIssue_engine hb ht hl hr hw
    have hx : exec (.inferenceIssue e) s = .next (s.inferIssue e).settle := rfl
    refine ⟨_, hx, frame_of (execInferenceIssue_only e s) hx, ?_⟩
    rw [settle_engine, hengine]
    exact ⟨congrArg some htodo, rfl, rfl, v, rfl, hentity, hepoch⟩
  · obtain ⟨u, hx, hu⟩ := execVerdictOut_sends h
    have hengine : u.engine e = _ := engine_of_same _ e (same_of_free hu (by decide))
    have hverdicts : u.reds.verdicts = _ := congrArg (·.2.1) (same_of_free (p := .redInputs) hu (by decide))
    refine ⟨_, hx, frame_of (execVerdictOut_only e s) hx, ?_⟩
    rw [settle_engine, hengine, verdictListed_engine, modEngine_engine_same, settle_reds, hverdicts, verdictListed_verdicts]
    exact ⟨rfl, Tab.read_write_same _ _ _ _, rfl, rfl⟩

end Sys2Proof.Machine
end

section
/-!
O30 (R193 to R198): scrubbing, bank moves and rewrites. Records, error bits and the spare map are no part of an engine; what a
step makes of its engine is said once for each of the three.
-/
namespace Sys2Proof.Machine

section Banks
variable {s : State} {e bank : Nat}

theorem spareAdd_engine (k c i d : Nat) : (s.spareAdd k c i d).engine e = s.engine e :=
  engine_of_same s e (same_of_only .engines (fun hL ho => spareAdd_only hL ho) (by decide))

theorem replaceTray_engine (p i b c : Nat) : (s.replaceTray p i b c).engine e = s.engine e :=
  engine_of_same s e (same_of_only .engines (fun hL ho => replaceTray_only hL ho) (by decide))

theorem measSwap_engine (a b : Nat) : (s.measSwap a b).engine e = s.engine e :=
  engine_of_same s e (same_of_only .engines (fun hL ho => measSwap_only hL ho) (by decide))

/-! ### The scrubber (R194, R195) -/

/-- No row fails that stands as it was written. -/
theorem rowFails_tcamRow (r : LeafRow) : rowFails (tcamRow r) r = false := by
  simp [rowFails, tcamRow]

/-- A flipped bit of VALUE differs from the shadow, whatever the parity bits say. -/
theorem rowFails_upset (r : LeafRow) : rowFails (tcamRow r).upset r = true := by
  have hflip : (tcamRow r).upset.value ≠ r.value := by simp [tcamRow, TcamRow.upset]
  simp [rowFails, hflip]

/-- With no injection armed, nothing is taken. -/
theorem injTake_of_unarmed {page : Nat} (kind : Nat) (h : bit (s.hdr page).inj 31 = false) :
    s.injTake page kind = (false, s) := by
  simp [State.injTake, h]

theorem injTake_fum_seq (page kind : Nat) : (s.injTake page kind).2.fum.seq = s.fum.seq := by
  unfold State.injTake
  dsimp only
  split_ifs <;> rfl

/-- The row after a row, of a bank's 1,026. -/
def rowAfter (row : Nat) : Nat := if row = 1025 then 0 else row + 1

/-- The bank's scrubber at a row. -/
def scrubTo (bank row : Nat) (f : Forest) : Forest := { f with scrubRow := Tab.write natZero f.scrubRow bank row }

/-- The row that the bank's scrubber reads next. -/
def State.scrubAt (s : State) (e bank : Nat) : Nat := Tab.read natZero (s.engine e).scrubRow bank

/-- A row with the time of its latest clean check. -/
def cleanAt (key : Nat) (t : FT) (f : Forest) : Forest := { f with clean := Tab.write natZero f.clean key t }

/-- The state in which the row read is compared, the scrubber already at the row after it. -/
def State.scrubRead (s : State) (e bank : Nat) : State :=
  (s.injTake (fPage e) 0x10).2.modEngine e (scrubTo bank (rowAfter (s.scrubAt e bank)))

theorem scrubRead_engine : (s.scrubRead e bank).engine e = scrubTo bank (rowAfter (s.scrubAt e bank)) (s.engine e) := by
  rw [State.scrubRead, modEngine_engine_same, injTake_engine]

/-- A row that fails is counted and recorded; one that passes is marked clean. -/
theorem scrubRowAt_eq (bad : Bool) : ∃ (shadow : LeafRow) (subject arg : Nat) (l : List Byte),
    s.scrubRowAt e bank bad false =
    if rowFails (if bad || (s.injTake (fPage e) 0x10).1 then (tcamRow shadow).upset else tcamRow shadow) shadow then
      (((s.scrubRead e bank).bump (fPage e) 0x60 1).setErr (fPage e) 19).log 0x20 e 0x0003 4 subject arg l
    else (s.scrubRead e bank).modEngine e (cleanAt (bank * 1026 + s.scrubAt e bank) (s.injTake (fPage e) 0x10).2.ft) := by
  unfold State.scrubRowAt
  simp only [Bool.false_and, Bool.false_eq_true, if_false]
  exact ⟨_, _, _, _, rfl⟩

/-- A failing row is counted in the page, and its record takes one SEQ. -/
theorem scrubRowAt_bad : ∃ (subject arg : Nat) (l : List Byte), s.scrubRowAt e bank true false =
    (((s.scrubRead e bank).bump (fPage e) 0x60 1).setErr (fPage e) 19).log 0x20 e 0x0003 4 subject arg l := by
  obtain ⟨shadow, subject, arg, l, h⟩ := scrubRowAt_eq (s := s) (e := e) (bank := bank) true
  refine ⟨subject, arg, l, ?_⟩
  rw [h, Bool.true_or, if_pos rfl, rowFails_upset, if_pos rfl]

theorem scrubRowAt_good (hi : bit (s.hdr (fPage e)).inj 31 = false) : s.scrubRowAt e bank false false =
    (s.scrubRead e bank).modEngine e (cleanAt (bank * 1026 + s.scrubAt e bank) s.ft) := by
  obtain ⟨shadow, subject, arg, l, h⟩ := scrubRowAt_eq (s := s) (e := e) (bank := bank) false
  rw [h, injTake_of_unarmed _ hi, Bool.or_self, if_neg Bool.false_ne_true, rowFails_tcamRow, if_neg Bool.false_ne_true]

/-- Whatever the row, the scrubber goes on. -/
theorem scrubRowAt_scrubAt (bad : Bool) : (s.scrubRowAt e bank bad false).scrubAt e bank = rowAfter (s.scrubAt e bank) := by
  have hread : (s.scrubRead e bank).scrubAt e bank = rowAfter (s.scrubAt e bank) := by
    rw [State.scrubAt, scrubRead_engine]
    exact Tab.read_write_same _ _ _ _
  rw [← hread]
  obtain ⟨shadow, subject, arg, l, h⟩ := scrubRowAt_eq (s := s) (e := e) (bank := bank) bad
  rw [h]
  generalize rowFails _ _ = fails
  split
  · rw [State.scrubAt, log_engine]
    rfl
  · rw [State.scrubAt, modEngine_engine_same]
    rfl

theorem execScrubRow_eq (he : e < s.engineCount) (hb : bank < 64) (hd : s.bpwr.state ≠ .doze) (bad stuck : Bool) :
    exec (.scrubRow e bank bad stuck) s = .next (s.scrubRowAt e bank bad stuck).settle := by
  show finish _ = _
  rw [if_pos ⟨he, hb, hd⟩]
  rfl

/-! ### A bank's move (R196) -/

/-- The engine with a bank's logical index at the spare bank, to which its rows are yet to be written. -/
def movesBank (bank : Nat) (f : Forest) : Forest :=
  { f with bankFor := some bank, rowSpare := f.rowSpare.filter fun r => decide (r.1 / 1024 ≠ bank),
           rebuild := f.rebuild ++ [.move bank] }

def losesBank (bank : Nat) (f : Forest) : Forest := { f with dead := f.dead ++ [bank] }

theorem bankMove_engine (h : (s.engine e).dead.contains bank = false) : (s.bankMove e bank).engine e =
    if (s.engine e).bankFor = none then movesBank bank (s.engine e) else losesBank bank (s.engine e) := by
  unfold State.bankMove State.rebuildStart
  dsimp only
  rw [h, if_neg Bool.false_ne_true]
  simp only [Option.isNone_iff_eq_none]
  split
  · rw [modEngine_engine_same, spareAdd_engine, setErr_engine, modEngine_engine_same]
    rfl
  · rw [replaceTray_engine, modEngine_engine_same]
    rfl

theorem execBankMove_eq (he : e < s.engineCount) (hb : bank < 64) :
    exec (.bankMove e bank) s = .next (s.bankMove e bank).settle := by
  show finish _ = _
  rw [if_pos ⟨he, hb⟩]
  rfl

/-! ### The end of a rewrite (R193, R198) -/

/-- The engine whose rewrite has ended. -/
def rewritten (ks : List Rebuild) (f : Forest) : Forest := { f with rebuild := ks }

/-- The first batch is that of a close after number `n`. -/
def fromClose (n : Nat) (f : Forest) : Forest := { f with done := max f.done (n + 1) }

/-- The copies swap, and what belonged to the old one goes (R193). -/
def activated (f : Forest) : Forest :=
  { f with active := f.inactive, inactive := f.active, act := f.act + 1, next := 0, table := [], disabled := [] }

/-- The inactive copy of the engine can become the active one. -/
def State.canActivate (s : State) (e : Nat) : Bool := (s.engine e).inactive.valid && s.isMeasured (forestItem e true)

/-- The effect of an activation's end. -/
def State.activate (s : State) (e : Nat) : State :=
  if s.canActivate e then ((s.modEngine e activated).measSwap (forestItem e false) (forestItem e true)).batchAfter e
  else s.batchAfter e

theorem batchAfter_engine : (s.batchAfter e).engine e = fromClose s.samp.grid.epochNo (s.engine e) :=
  modEngine_engine_same _ _ _

theorem measSwap_samp (a b : Nat) : (s.measSwap a b).samp = s.samp := rfl

theorem activate_engine : (s.activate e).engine e =
    fromClose s.samp.grid.epochNo (if s.canActivate e then activated (s.engine e) else s.engine e) := by
  unfold State.activate
  split
  · rw [batchAfter_engine, measSwap_engine, modEngine_engine_same, measSwap_samp, modEngine_samp]
  · exact batchAfter_engine

/-! The end of each kind of rewrite: only an activation's touches the copies. -/

section RewriteEnds
variable {ks : List Rebuild}

theorem rebuildEnd_activate (h : (s.engine e).rebuild = .activate :: ks) :
    s.rebuildEnd e = ((s.modEngine e (rewritten ks)).activate e).scoreServe e := by
  unfold State.rebuildEnd
  rw [h]
  rfl

theorem rebuildEnd_restore (h : (s.engine e).rebuild = .restore :: ks) :
    s.rebuildEnd e = ((s.modEngine e (rewritten ks)).batchAfter e).scoreServe e := by
  unfold State.rebuildEnd
  rw [h]
  rfl

theorem rebuildEnd_move {bank : Nat} (h : (s.engine e).rebuild = .move bank :: ks) :
    s.rebuildEnd e = (s.modEngine e (rewritten ks)).scoreServe e := by
  unfold State.rebuildEnd
  rw [h]
  rfl

theorem rewritten_engine : (s.modEngine e (rewritten ks)).engine e = rewritten ks (s.engine e) := modEngine_engine_same _ _ _

theorem rewritten_canActivate : (s.modEngine e (rewritten ks)).canActivate e = s.canActivate e := by
  rw [State.canActivate, rewritten_engine]
  rfl

theorem rebuildEnd_activate_engine (h : (s.engine e).rebuild = .activate :: ks) (hs : (s.engine e).scores = []) :
    (s.rebuildEnd e).engine e = fromClose s.samp.grid.epochNo
      (if s.canActivate e then activated (rewritten ks (s.engine e)) else rewritten ks (s.engine e)) := by
  have hengine := activate_engine (s := s.modEngine e (rewritten ks)) (e := e)
  rw [rewritten_canActivate, rewritten_engine, modEngine_samp] at hengine
  rw [rebuildEnd_activate h, scoreServe_engine_of_idle, hengine]
  rw [hengine]
  split <;> exact hs

theorem rebuildEnd_restore_engine (h : (s.engine e).rebuild = .restore :: ks) (hs : (s.engine e).scores = []) :
    (s.rebuildEnd e).engine e = fromClose s.samp.grid.epochNo (rewritten ks (s.engine e)) := by
  have hengine := batchAfter_engine (s := s.modEngine e (rewritten ks)) (e := e)
  rw [rewritten_engine, modEngine_samp] at hengine
  rw [rebuildEnd_restore h, scoreServe_engine_of_idle, hengine]
  rw [hengine]
  exact hs

theorem rebuildEnd_move_engine {bank : Nat} (h : (s.engine e).rebuild = .move bank :: ks) (hs : (s.engine e).scores = []) :
    (s.rebuildEnd e).engine e = rewritten ks (s.engine e) := by
  rw [rebuildEnd_move h, scoreServe_engine_of_idle, rewritten_engine]
  rw [rewritten_engine]
  exact hs

end RewriteEnds

end Banks

/-- Settles O30: the scrubber and the move by the engine that each leaves, and a rewrite's end by its kind. -/
theorem banksAreScrubbedMovedAndRewritten : Obligations.BanksAreScrubbedMovedAndRewritten := by
  unfold Obligations.BanksAreScrubbedMovedAndRewritten
  refine ⟨fun e bank bad s he hb hd => ?_, fun e bank s he hb hd => ?_, fun e k ks s h hs => ?_, execScrubRow_only,
    execBankMove_only, execTcamRewrite_only⟩
  · have hx := execScrubRow_eq (s := s) he hb hd bad false
    refine ⟨_, hx, frame_of (execScrubRow_only e bank bad false s) hx, ?_, fun hbad hi => ?_, fun hbad => ?_⟩
    · rw [settle_engine]
      have hnext := scrubRowAt_scrubAt (s := s) (e := e) (bank := bank) bad
      unfold State.scrubAt rowAfter at hnext
      refine hnext.trans ?_
      split_ifs <;> rfl
    · rw [settle_engine, hbad, scrubRowAt_good hi, modEngine_engine_same, scrubRead_engine]
      exact Tab.read_write_same _ _ _ _
    · obtain ⟨subject, arg, l, hfails⟩ := scrubRowAt_bad (s := s) (e := e) (bank := bank)
      rw [settle_hdrOf, settle_fum, hbad, hfails]
      refine ⟨log_err_bit _ _ _ _ _ _ _ ?_, (logRec_fum_seq _ _ _ _ _ _ _ _).trans (congrArg (· + 1) ?_)⟩
      · change bit (State.hdr _ (fPage e)).err 19 = true
        rw [setErr_hdr_same]
        exact bit_setBit_same _ (by decide)
      · exact injTake_fum_seq _ _
  · have hx := execBankMove_eq (s := s) he hb
    refine ⟨_, hx, frame_of (execBankMove_only e bank s) hx, ?_⟩
    rw [settle_engine, bankMove_engine hd]
    by_cases hfree : (s.engine e).bankFor = none
    · rw [if_pos hfree, if_pos hfree]
      exact ⟨rfl, rfl⟩
    · rw [if_neg hfree, if_neg hfree]
      exact ⟨rfl, rfl⟩
  · have hx : exec (.tcamRewrite e) s = .next (s.rebuildEnd e).settle := rfl
    refine ⟨_, hx, frame_of (execTcamRewrite_only e s) hx, ?_⟩
    rw [settle_engine]
    cases k with
    | activate =>
      rw [rebuildEnd_activate_engine h hs]
      by_cases hc : s.canActivate e = true
      · rw [if_pos hc]
        exact ⟨rfl, by rw [if_pos (Bool.and_eq_true_iff.mp hc)]; exact ⟨rfl, rfl, rfl, rfl, rfl⟩⟩
      · rw [if_neg hc]
        exact ⟨rfl, by rw [if_neg fun h => hc (Bool.and_eq_true_iff.mpr h)]; exact ⟨rfl, rfl⟩⟩
    | restore =>
      rw [rebuildEnd_restore_engine h hs]
      exact ⟨rfl, rfl, rfl⟩
    | move bank =>
      rw [rebuildEnd_move_engine h hs]
      exact ⟨rfl, rfl, rfl⟩

end Sys2Proof.Machine
end

section
/-!
O31 (R192, R193, R198, R202): the forest commands. Each command's effect is an equation on the state in which it begins, whose
engines, arguments and measurements are those before.
-/
namespace Sys2Proof.Machine

/-! ### What a forest command finds as its effect begins -/

section Begun
variable (s : State) (c : CmdIn) (a b : Nat)

@[simp] theorem begun_engineArg : engineArg c (s.begun c a b) = engineArg c s := by
  rw [engineArg, begun_argFld a b 3 0 4 (by decide), State.isSystem, begun_straps]
  rfl

end Begun

/-! ### What a command's end, or its wait, leaves -/

section Leaves
variable (s : State) (c : CmdIn) (e : Nat)

theorem failCmd_hdr (d p : Nat) : (s.failCmd c d).hdr p = s.hdr p := rfl
theorem waitFor_engine (w : Wait) : (s.waitFor c w).engine e = s.engine e := rfl
theorem complete_engine (g : Bool) (n : Nat) (st : Byte) (d : Nat) : (s.complete g n st d).engine e = s.engine e := rfl

theorem modEngine_ended (f : Forest → Forest) (st : Byte) (d : Nat) : (s.modEngine e f).ended c st d ↔ s.ended c st d :=
  Iff.rfl

/-- An error bit that was set stands when its command has failed. -/
theorem setErr_failCmd_bit (d p : Nat) {b : Nat} (hb : b < 32) : bit (((s.setErr p b).failCmd c d).hdr p).err b = true := by
  rw [failCmd_hdr, setErr_hdr_same]
  exact bit_setBit_same _ hb

end Leaves

/-! ### The checks of an activation (R155, R187, R193) -/

section Activations
variable {s good : State} {c : CmdIn}

theorem actCheck_of_noImage (measured : Bool) (late noImage : Nat) :
    s.actCheck c false measured late noImage good = s.failCmd c noImage := rfl

theorem actCheck_of_unmeasured (late noImage : Nat) :
    s.actCheck c true false late noImage good = s.done c stUnmeasured 0 := rfl

/-- An activation that names no epoch is never late. -/
theorem actCheck_of_measured (late noImage : Nat) (h : bit (argW c s 0) 0 = false) :
    s.actCheck c true true late noImage good = good.waitFor c (.event 1 0) := by
  simp [State.actCheck, h]

end Activations

/-! ### The effects of the forest commands -/

section Effects
variable {s : State} {c : CmdIn} {a b : Nat}

theorem forestLoadCmd_eq : forestLoadCmd c s =
    if (argW c s 2).toNat = 0 then (s.setErr (fPage (engineArg c s)) 17).failCmd c 1
    else (s.waitFor c (.transfer s.pages.nextXfer)).startXfer (.command c.pkg c.page.toNat) false (arg64 c s 0)
      (argW c s 2).toNat [] := rfl

/-- An engine with one more activation pending. -/
def withForestAct (p : PendAct) (f : Forest) : Forest := { f with acts := f.acts ++ [p] }

theorem begun_forestActivateCmd : forestActivateCmd c (s.begun c a b) =
    (s.begun c a b).actCheck c (s.engine (engineArg c s)).inactive.valid (s.isMeasured (forestItem (engineArg c s) true))
      0x0D 0x0E ((s.begun c a b).modEngine (engineArg c s) (withForestAct (s.pendAct c))) := by
  simp only [forestActivateCmd, begun_engineArg, begun_engine, begun_isMeasured, begun_pendAct]
  rfl

/-- A command page among those that wait for an issue slot. -/
def withScore (c : CmdIn) (f : Forest) : Forest := { f with scores := f.scores ++ [{ pkg := c.pkg, page := c.page.toNat }] }

theorem forestScoreCmd_eq : forestScoreCmd c s =
    if c.nargs ≠ 32 then s.badArg c
    else if (s.engine 0).active.valid = false then s.failCmd c 0x0E
    else ((s.modEngine 0 (withScore c)).waitFor c (.event 3 0)).scoreServe 0 := by
  simp only [forestScoreCmd, Bool.not_eq_true']
  rfl

/-- Which commands wait for a slot does not matter to whether one is free. -/
theorem scoreFree_withScore (f : Forest) : scoreFree (withScore c f) = scoreFree f := rfl

theorem scoreServe_of_busy (e : Nat) (h : scoreFree (s.engine e) = false) : s.scoreServe e = s := by
  unfold State.scoreServe
  dsimp only
  rw [h, if_neg Bool.false_ne_true]

theorem scoreNow_ended (e : Nat) : (s.scoreNow e c.pkg c.page.toNat).ended c stOk 0 := complete_ended _ c stOk 0

/-- The last of the commands that wait is served last, so its page ends as its score left it. -/
theorem scoreServe_ended {e : Nat} {l : List ScoreReq} (hf : scoreFree (s.engine e) = true)
    (hl : (s.engine e).scores = l ++ [{ pkg := c.pkg, page := c.page.toNat }]) : (s.scoreServe e).ended c stOk 0 := by
  unfold State.scoreServe
  dsimp only
  rw [if_pos hf, hl, List.foldl_append]
  exact (modEngine_ended _ _ _ _ _ _).mpr (scoreNow_ended e)

/-- The forest image that a FOREST_DUMP names (R202). -/
def State.forestDumped (s : State) (c : CmdIn) : ForestCopy :=
  if bit (argW c s 0) 0 then (s.engine 0).inactive else (s.engine 0).active

theorem forestDumpCmd_eq : forestDumpCmd c s =
    if (s.forestDumped c).valid = false then s.failCmd c 0x0E
    else (s.res c 0 (s.forestDumped c).image.length).writeOut c (arg64 c s 1) (s.forestDumped c).image := by
  simp only [forestDumpCmd, State.forestDumped, Bool.not_eq_true']
  rfl

theorem begun_forestDumped : (s.begun c a b).forestDumped c = s.forestDumped c := by
  simp only [State.forestDumped, begun_engine, begun_argW s c a b 0 (by decide)]

/-! The steps of the commands. -/

theorem execForestLoad_eq (h : s.takes c .firmware = true) :
    exec (.forestLoad c) s = .next (forestLoadCmd c (s.begun c 0x20 0x0001)).settle :=
  congrArg finish (runCmd_takes h 0x20 0x0001 rfl (forestLoadCmd c))

theorem execForestActivate_eq (h : s.takes c .firmware = true) :
    exec (.forestActivate c) s = .next (forestActivateCmd c (s.begun c 0x20 0x0002)).settle :=
  congrArg finish (runCmd_takes h 0x20 0x0002 rfl (forestActivateCmd c))

theorem execForestScore_eq (h : s.takes c .operator = true) :
    exec (.forestScore c) s = .next (forestScoreCmd c (s.begun c 0x20 0x0003)).settle :=
  congrArg finish (runCmd_takes h 0x20 0x0003 rfl (forestScoreCmd c))

theorem execForestDump_eq (h : s.takes c .firmware = true) :
    exec (.forestDump c) s = .next (forestDumpCmd c (s.begun c 0x20 0x0004)).settle :=
  congrArg finish (runCmd_takes h 0x20 0x0004 rfl (forestDumpCmd c))

end Effects

/-! ### A FOREST_SCORE that found no slot in time (R198) -/

section ScoreTimeout
variable {s : State} {pkg : Bool} {page : BitVec 3}

/-- The commands that wait for a slot, but for those of one page. -/
def withoutScore (pkg : Bool) (page : Nat) (f : Forest) : Forest :=
  { f with scores := f.scores.filter fun r => !(decide (r.pkg = pkg) && decide (r.page = page)) }

theorem not_mem_withoutScore (pkg : Bool) (page : Nat) (f : Forest) : { pkg, page } ∉ (withoutScore pkg page f).scores := by
  simp [withoutScore]

theorem execScoreSlotTimeout_eq (h : { pkg, page := page.toNat } ∈ (s.engine 0).scores) :
    exec (.scoreSlotTimeout pkg page) s =
      .next ((s.modEngine 0 (withoutScore pkg page.toNat)).complete pkg page.toNat stTimeout 0).settle := by
  have hwaits : ((s.engine 0).scores.any fun r => decide (r.pkg = pkg) && decide (r.page = page.toNat)) = true :=
    List.any_eq_true.mpr ⟨_, h, by simp⟩
  show finish _ = _
  rw [if_pos hwaits]
  rfl

end ScoreTimeout

/-- Settles O31: each command by the equation of its effect, on the state in which it begins. -/
theorem forestCommandsLoadActivateAndScore : Obligations.ForestCommandsLoadActivateAndScore := by
  unfold Obligations.ForestCommandsLoadActivateAndScore
  refine ⟨fun c s h => ?_, fun c s h => ?_, fun c s h => ?_, fun c s h => ?_, fun pkg page s h => ?_, fun c s =>
    ⟨execForestLoad_only c s, execForestActivate_only c s, execForestScore_only c s, execForestDump_only c s⟩,
    execScoreSlotTimeout_only⟩
  · refine ⟨_, execForestLoad_eq h, settle_only (by decide) (forestLoadCmd_only (by decide) (begun_changes _ _ _)), ?_⟩
    rw [forestLoadCmd_eq, begun_argW s c _ _ 2 (by decide), begun_engineArg, begun_pages_nextXfer]
    by_cases hlen : (argW c s 2).toNat = 0
    · rw [if_pos hlen, if_pos hlen, settle_hdrOf]
      exact ⟨failCmd_ended 1, setErr_failCmd_bit _ c 1 _ (by decide)⟩
    · rw [if_neg hlen, if_neg hlen]
      exact begun_startXfer_waits _ _ _ _ _ _
  · refine ⟨_, execForestActivate_eq h,
      settle_only (by decide) (forestActivateCmd_only (by decide) (begun_changes _ _ _)), ?_⟩
    rw [begun_forestActivateCmd]
    dsimp only
    split_ifs with hv hm
    · rw [hv, actCheck_of_noImage, settle_forest]
      exact ⟨failCmd_ended _, begun_forest s c _ _⟩
    · rw [eq_true_of_ne_false hv, hm, actCheck_of_unmeasured, settle_forest]
      exact ⟨done_ended _ _, begun_forest s c _ _⟩
    · intro hb
      rw [eq_true_of_ne_false hv, eq_true_of_ne_false hm,
        actCheck_of_measured _ _ (by rw [begun_argW s c _ _ 0 (by decide)]; exact hb), settle_engine, waitFor_engine,
        modEngine_engine_same, begun_engine]
      exact ⟨begun_waits _ rfl, rfl, rfl⟩
  · refine ⟨_, execForestScore_eq h, settle_only (by decide) (forestScoreCmd_only (by decide) (begun_changes _ _ _)), ?_⟩
    rw [forestScoreCmd_eq, begun_engine]
    have hslot : (((s.begun c 0x20 0x0003).modEngine 0 (withScore c)).waitFor c (.event 3 0)).engine 0 =
        withScore c (s.engine 0) := by
      rw [waitFor_engine, modEngine_engine_same, begun_engine]
    split_ifs with hn hv hf
    · exact done_ended _ _
    · exact failCmd_ended _
    · exact settle_ended (scoreServe_ended (l := (s.engine 0).scores) (by rw [hslot]; exact hf) (by rw [hslot]; rfl))
    · rw [scoreServe_of_busy 0 (by rw [hslot, scoreFree_withScore]; exact eq_false_of_ne_true hf)]
      exact begun_waits _ rfl
  · refine ⟨_, execForestDump_eq h, settle_only (by decide) (forestDumpCmd_only (by decide)
      (begun_only (by decide) (onlyChanges_refl s _))), ?_⟩
    rw [forestDumpCmd_eq, begun_forestDumped]
    change if (s.forestDumped c).valid = false then _ else _ = BitVec.ofNat 32 (s.forestDumped c).image.length
    split_ifs
    · exact failCmd_ended _
    · exact writeOut_res_zero _ _ _
  · have hx := execScoreSlotTimeout_eq h
    refine ⟨_, hx, frame_of (execScoreSlotTimeout_only pkg page s) hx, ?_⟩
    rw [settle_cmd, settle_engine, complete_engine, modEngine_engine_same, State.complete, setCmd_cmd_same]
    exact ⟨rfl, rfl, not_mem_withoutScore _ _ _⟩

end Sys2Proof.Machine
end

section
/-!
O32 (R185 to R187, R201, R202): the feature table. Its commands work on its inactive copy and that copy's measurement, and a
write through its window changes the inactive copy alone.
-/
namespace Sys2Proof.Machine

/-! ### What an operation leaves of the table and of its measurements -/

section Leaves
variable (s : State)

theorem setMeas_meas_same (i : Nat) (x : MeasEntry) : (s.setMeas i x).meas i = x := by
  unfold State.setMeas
  split_ifs with h
  · exact h
  · exact Tab.read_write_same _ _ _ _

theorem setMeas_forest (i : Nat) (x : MeasEntry) : (s.setMeas i x).forest = s.forest := by
  unfold State.setMeas
  split_ifs <;> rfl

theorem measure_forest (i : Nat) (d : List Byte) (p : Option (Bool × Nat)) : (s.measure i d p).forest = s.forest :=
  setMeas_forest s i _

theorem setMeas_cmd (i : Nat) (x : MeasEntry) (g : Bool) (n : Nat) : (s.setMeas i x).cmd g n = s.cmd g n := by
  unfold State.setMeas
  split_ifs <;> rfl

theorem measure_cmd (i : Nat) (d : List Byte) (p : Option (Bool × Nat)) (g : Bool) (n : Nat) :
    (s.measure i d p).cmd g n = s.cmd g n := setMeas_cmd s i _ g n

theorem modFtab_ftab (f : Ftab → Ftab) : (s.modFtab f).forest.ftab = f s.forest.ftab := rfl
theorem waitFor_forest (c : CmdIn) (w : Wait) : (s.waitFor c w).forest = s.forest := rfl
theorem ok_forest (c : CmdIn) : (s.ok c).forest = s.forest := rfl
theorem ok_meas (c : CmdIn) (i : Nat) : (s.ok c).meas i = s.meas i := rfl
theorem waitFor_meas (c : CmdIn) (w : Wait) (i : Nat) : (s.waitFor c w).meas i = s.meas i := rfl
theorem settle_meas (i : Nat) : s.settle.meas i = s.meas i := by rw [State.meas, settle_rot]; rfl
theorem begun_meas (c : CmdIn) (a b i : Nat) : (s.begun c a b).meas i = s.meas i := by rw [State.meas, begun_rot]; rfl

theorem respond_forest (q : Req) (r : Resp) (d : Word) : (s.respond q r d).forest = s.forest := by
  obtain ⟨_, _, _, h⟩ := respond_frame s q r d
  rw [h]

theorem respond_meas (q : Req) (r : Resp) (d : Word) (i : Nat) : (s.respond q r d).meas i = s.meas i := by
  rw [State.meas, respond_rot]
  rfl

/-- Submissions that leave the queue end their commands, and change no table. -/
theorem measDrop_forest (i : Nat) : (s.measDrop i).forest = s.forest := by
  unfold State.measDrop
  extract_lets l rot u
  refine foldl_keeps State.forest (fun v q => ?_) l u
  split <;> rfl

end Leaves

/-! ### The effects of the table's commands -/

section Effects
variable {s : State} {c : CmdIn} {a b : Nat}

theorem ftabLoadCmd_eq : ftabLoadCmd c s =
    if min (argW c s 2).toNat ftabMax = 0 then (s.setErr ftabPage 17).failCmd c 1
    else (s.waitFor c (.transfer s.pages.nextXfer)).startXfer (.command c.pkg c.page.toNat) false (arg64 c s 0)
      (min (argW c s 2).toNat ftabMax) [] := rfl

/-- The table with no write since its inactive copy was sealed, loaded or copied. -/
def notDirty (f : Ftab) : Ftab := { f with dirty := false }

theorem ftabSealCmd_eq : ∃ d, ftabSealCmd c s =
    if s.forest.ftab.inactive.valid = false then s.failCmd c 0x0E
    else ((s.modFtab notDirty).measure (ftabItem true) d (some (c.pkg, c.page.toNat))).waitFor c
      (.measure (ftabItem true)) := by
  refine ⟨sha384 (ftabCanonical s.forest.ftab.inactive), ?_⟩
  simp only [ftabSealCmd, Bool.not_eq_true']
  rfl

/-- The table with one more activation pending. -/
def withFtabAct (p : PendAct) (f : Ftab) : Ftab := { f with acts := f.acts ++ [p] }

theorem begun_ftabActivateCmd : ftabActivateCmd c (s.begun c a b) =
    (s.begun c a b).actCheck c s.forest.ftab.inactive.valid (s.isMeasured (ftabItem true)) 0x0D 0x0E
      ((s.begun c a b).modFtab (withFtabAct (s.pendAct c))) := by
  simp only [ftabActivateCmd, begun_forest, begun_isMeasured, begun_pendAct]
  rfl

/-- The table whose inactive copy is the active one's. -/
def copied (f : Ftab) : Ftab := { f with inactive := f.active, dirty := false }

theorem ftabCopyCmd_eq : ftabCopyCmd c s =
    if s.forest.ftab.active.valid = false then s.failCmd c 0x0E
    else ((s.modFtab copied).setMeas (ftabItem true) (s.meas (ftabItem false))).ok c := by
  simp only [ftabCopyCmd, Bool.not_eq_true']
  rfl

theorem execFtabLoad_eq (h : s.takes c .firmware = true) :
    exec (.ftabLoad c) s = .next (ftabLoadCmd c (s.begun c 0x20 0x0010)).settle :=
  congrArg finish (runCmd_takes h 0x20 0x0010 rfl (ftabLoadCmd c))

theorem execFtabSeal_eq (h : s.takes c .firmware = true) :
    exec (.ftabSeal c) s = .next (ftabSealCmd c (s.begun c 0x20 0x0011)).settle :=
  congrArg finish (runCmd_takes h 0x20 0x0011 rfl (ftabSealCmd c))

theorem execFtabActivate_eq (h : s.takes c .firmware = true) :
    exec (.ftabActivate c) s = .next (ftabActivateCmd c (s.begun c 0x20 0x0012)).settle :=
  congrArg finish (runCmd_takes h 0x20 0x0012 rfl (ftabActivateCmd c))

theorem execFtabCopy_eq (h : s.takes c .firmware = true) :
    exec (.ftabCopy c) s = .next (ftabCopyCmd c (s.begun c 0x20 0x0013)).settle :=
  congrArg finish (runCmd_takes h 0x20 0x0013 rfl (ftabCopyCmd c))

end Effects

/-! ### A write of DIR (R187, R201) -/

section DirWrite
variable {s : State} {w : Word}

theorem busyNow_eitherRuns : s.busyNow.eitherRuns 0x200010 = s.eitherRuns 0x200010 := rfl

theorem freshWrite_dir (h : s.eitherRuns 0x200010 = false) (q : Req) :
    s.freshWrite (pg 0x21) 0x48 q w = (.ok, s.ftabWrite 0x48 w) := by
  have hwindow : dataWindow (pg 0x21) 0x48 = none := by decide
  have hplain : s.plainWrite (pg 0x21) 0x48 q w = s.writeReg (pg 0x21) 0x48 w := by
    simp [State.plainWrite, hwindow]
  have hbusy : s.writeBusy (pg 0x21) 0x48 = false := by
    simp [State.writeBusy, h, show keyScope (pg 0x21) = 0 from rfl]
  have hunmarked : (writeMasks (pg 0x21) 0x48).1 = 0 ∨ cfgWindow (keyType (pg 0x21)) 0x48 = true := .inr rfl
  have haon : isAon (pg 0x21) 0x48 = false := by decide
  have hwide : wideAt (keyType (pg 0x21)) 0x48 = none := by decide
  have hring : ringOf (pg 0x21) 0x48 = none := rfl
  rw [freshWrite_plain (by decide) (by decide), hplain, State.writeReg, if_pos hunmarked]
  simp only [hbusy, haon, hwide, Bool.false_eq_true, if_false]
  rw [State.writeWord, hring]
  rfl

/-- The table with a word in the directory of its inactive copy (R185). -/
def withDir (e : Nat) (w : Word) (f : Ftab) : Ftab :=
  { f with dirty := true,
           inactive := { f.inactive with valid := true, dir := Tab.write wordZero f.inactive.dir e (dirWord w) } }

theorem ftabWrite_dir : s.ftabWrite 0x48 w =
    if bit (s.reg (pg 0x21) 0x44) 31 = false then s.setErr (pg 0x21) 16
    else (((s.modFtab (withDir (s.regFld (pg 0x21) 0x44 0 14) w)).measDrop (ftabItem true)).setMeas (ftabItem true)
      { status := .unmeasured, digest := [] }) := by
  simp only [State.ftabWrite, Bool.not_eq_true']
  rfl

end DirWrite

/-- Settles O32: each command by the equation of its effect, and a write of DIR by the copy that the index selects. -/
theorem featureTableIsSealedActivatedAndWritten : Obligations.FeatureTableIsSealedActivatedAndWritten := by
  unfold Obligations.FeatureTableIsSealedActivatedAndWritten
  refine ⟨fun c s h => ?_, fun c s h => ?_, fun c s h => ?_, fun c s h => ?_, fun a s hm hg hr => ?_, fun c s =>
    ⟨execFtabLoad_only c s, execFtabSeal_only c s, execFtabActivate_only c s, execFtabCopy_only c s⟩, execFtabWrite_only⟩
  · refine ⟨_, execFtabLoad_eq h, settle_only (by decide) (ftabLoadCmd_only (by decide) (begun_changes _ _ _)), ?_⟩
    rw [ftabLoadCmd_eq, begun_argW s c _ _ 2 (by decide), begun_pages_nextXfer]
    by_cases hlen : min (argW c s 2).toNat ftabMax = 0
    · rw [if_pos hlen, if_pos hlen, settle_hdrOf]
      exact ⟨failCmd_ended 1, setErr_failCmd_bit _ c 1 _ (by decide)⟩
    · rw [if_neg hlen, if_neg hlen]
      exact begun_startXfer_waits _ _ _ _ _ _
  · refine ⟨_, execFtabSeal_eq h, settle_only (by decide) (ftabSealCmd_only (by decide) (begun_changes _ _ _)), ?_⟩
    obtain ⟨d, hseal⟩ := ftabSealCmd_eq (s := s.begun c 0x20 0x0011) (c := c)
    rw [hseal, begun_forest]
    split_ifs
    · rw [settle_forest]
      exact ⟨failCmd_ended _, begun_forest s c _ _⟩
    · rw [settle_meas, settle_forest, waitFor_meas, waitFor_forest, measure_forest, modFtab_ftab, begun_forest]
      exact ⟨begun_waits _ (measure_cmd _ _ _ _ _ _), measure_status _ _ _ _, rfl⟩
  · refine ⟨_, execFtabActivate_eq h,
      settle_only (by decide) (ftabActivateCmd_only (by decide) (begun_changes _ _ _)), ?_⟩
    rw [begun_ftabActivateCmd]
    split_ifs with hv hm
    · rw [hv, actCheck_of_noImage, settle_forest]
      exact ⟨failCmd_ended _, begun_forest s c _ _⟩
    · rw [eq_true_of_ne_false hv, hm, actCheck_of_unmeasured, settle_forest]
      exact ⟨done_ended _ _, begun_forest s c _ _⟩
    · intro hb
      rw [eq_true_of_ne_false hv, eq_true_of_ne_false hm,
        actCheck_of_measured _ _ (by rw [begun_argW s c _ _ 0 (by decide)]; exact hb), settle_forest,
        waitFor_forest, modFtab_ftab, begun_forest]
      exact ⟨begun_waits _ rfl, rfl⟩
  · refine ⟨_, execFtabCopy_eq h, settle_only (by decide) (ftabCopyCmd_only (by decide) (begun_changes _ _ _)), ?_⟩
    rw [ftabCopyCmd_eq, begun_forest, begun_meas]
    split_ifs
    · rw [settle_forest]
      exact ⟨failCmd_ended _, begun_forest s c _ _⟩
    · rw [settle_meas, settle_forest, ok_meas, ok_forest, setMeas_meas_same, setMeas_forest, modFtab_ftab, begun_forest]
      exact ⟨ok_ended, rfl, rfl⟩
  · refine access_ends (access_fresh_ok hm hg (freshWrite_dir (busyNow_eitherRuns.trans hr) _))
      (ftabWrite_only (by decide) (busyNow_changes s _)) rfl rfl ?_
    rw [settle_hdrOf, settle_forest, settle_meas, respond_hdr, respond_forest, respond_meas, ftabWrite_dir, busyNow_reg]
    split_ifs
    · rw [setErr_hdr_same]
      exact ⟨bit_setBit_same _ (by decide), rfl⟩
    · rw [setMeas_forest, measDrop_forest, setMeas_meas_same]
      exact ⟨Tab.read_write_same _ _ _ _, rfl, rfl, rfl⟩

end Sys2Proof.Machine
end

section
/-!
O33 (R203, R204, R205, R207, R209, R226): reports at the side channel. A probe holds one report while the checker is stopped; a
whole report at a running checker goes to the lane of its region, and its tests leave the CHECK elements as they are.
-/
namespace Sys2Proof.Machine

section Reports
variable {s : State} {u : Nat} {w : List Word} {last : Bool}

/-! ### A report that waits at its probe (R226) -/

/-- The checker with a report held at a probe. -/
def holding (u : Nat) (w : List Word) (last : Bool) (c : Check) : Check :=
  { c with held := Tab.write noReport c.held u (some (w, last)) }

theorem sideReport_of_held {r : List Word × Bool} (hp : s.present u = true) (hr : s.checkerRuns = false)
    (hh : Tab.read noReport s.check.held u = some r) : s.sideReport u w last = s := by
  simp [State.sideReport, hp, hr, hh]

theorem sideReport_of_unheld (hp : s.present u = true) (hr : s.checkerRuns = false)
    (hh : Tab.read noReport s.check.held u = none) : s.sideReport u w last = s.modCheck (holding u w last) := by
  simp [State.sideReport, hp, hr, hh]
  rfl

theorem holding_held (q : Nat) : Tab.read noReport (s.modCheck (holding u w last)).check.held q =
    if q = u then some (w, last) else Tab.read noReport s.check.held q := Tab.read_write noReport s.check.held u q (some (w, last))

/-- What a stopped checker makes of a report changes the held reports alone. -/
theorem sideReport_only_taint (hp : s.present u = true) (hr : s.checkerRuns = false) :
    s.onlyChanges (s.sideReport u w last).settle [.taint, .lines, .xfers, .out, .inj] := by
  refine settle_only (by decide) ?_
  cases hh : Tab.read noReport s.check.held u with
  | some r =>
    rw [sideReport_of_held hp hr hh]
    exact onlyChanges_refl s _
  | none =>
    rw [sideReport_of_unheld hp hr hh]
    exact modCheck_only (z := [.taint]) (by decide) (fun _ => rfl) (fun _ => rfl) (fun _ => rfl) (fun _ => rfl) (fun _ => rfl)
      (fun h => not_free h rfl) (fun _ => rfl) (onlyChanges_refl s _)

/-! ### A whole report at its lane (R203 to R205, R209) -/

/-- The checker with a probe as the last that its region's lane has served. -/
def serving (u : Nat) (c : Check) : Check := { c with lane := Tab.write natZero c.lane (regionOf (clusterOf u)) (u + 1) }

theorem sideReport_of_whole (hp : s.present u = true) (hr : s.checkerRuns = true) (hl : w.length = 7) :
    s.sideReport u w true = if fld (w.getD 0 0) 24 8 = 255 then (s.modCheck (serving u)).signature u w
      else (s.modCheck (serving u)).tileTake u w := by
  have hwhole : ¬(w.length ≠ 7 ∨ true = false) := by simp [hl]
  rw [State.sideReport, hp, hr]
  simp only [Bool.not_true, Bool.false_eq_true, if_false]
  exact if_neg hwhole

/-- A report of the present taint epoch is no violation; with no injection armed it is tested as it came. -/
theorem tileTake_of_current (ht : fld (w.getD 0 0) 0 16 = s.check.taint % 2 ^ 16)
    (hi : bit (s.hdr chkPage).inj 31 = false) : s.tileTake u w = (s.tileElem u w).tileCheck u w := by
  rw [State.tileTake]
  rw [if_pos (.inl ht), injTake_of_disarmed hi, if_neg Bool.false_ne_true]

theorem tileCheck_tiles : (s.tileCheck u w).reds.tiles = s.reds.tiles :=
  congrArg (·.1) (same_of_only (s := s) .redInputs (fun hL ho => tileCheck_only hL ho) (by decide))

theorem execTileReport_eq (hc : s.chanOpen (.converter .probe u) = true) :
    exec (.tileReport u w last) s = .next (s.sideReport u w last).settle := by
  show finish _ = _
  rw [if_pos hc]
  rfl

end Reports

/-- Settles O33: a stopped checker holds the report, and a running one takes it as one element and tests it. -/
theorem tileReportsAreHeldOrTaken : Obligations.TileReportsAreHeldOrTaken := by
  unfold Obligations.TileReportsAreHeldOrTaken
  refine ⟨fun u w last s hc hp hr => ?_, fun u w s hc hp hr hl hk ht hi => ?_, execTileReport_only⟩
  · refine ⟨_, execTileReport_eq hc, sideReport_only_taint hp hr, ?_⟩
    rw [settle_check]
    cases hh : Tab.read noReport s.check.held u with
    | some r =>
      rw [sideReport_of_held hp hr hh]
      exact ⟨hh, fun _ _ => rfl⟩
    | none =>
      rw [sideReport_of_unheld hp hr hh]
      exact ⟨(holding_held u).trans (if_pos rfl), fun q hq => (holding_held q).trans (if_neg hq)⟩
  · have hx := execTileReport_eq (w := w) (last := true) hc
    refine ⟨_, hx, frame_of (execTileReport_only u w true s) hx, ?_⟩
    rw [settle_reds, sideReport_of_whole hp hr hl, if_neg hk,
      tileTake_of_current (s := s.modCheck (serving u)) ht hi, tileCheck_tiles]
    rfl

end Sys2Proof.Machine
end

section
/-!
O34 (R89, R213 to R216): known-answer tests. A test stands in `kat`; what ends one is `katResult`, which leaves the passes and every
header, so that each outcome is read off before it.
-/
namespace Sys2Proof.Machine

section Tests
variable {s : State} {u : Nat}

/-- The checker with a test in progress, or with none. -/
def withKat (k : Option KatRun) (c : Check) : Check := { c with kat := k }

/-! ### The start of a test and its acknowledge (R89, R213, R214) -/

/-- A test of a unit that has not acknowledged TEST. -/
def newTest (u taint : Nat) : KatRun := { unit := u, acked := false, ackTime := 0, taint, abandoned := false }

theorem katStart_of_select (hk : s.check.kat = none) (hr : s.checkerRuns = true) (hs : s.katSelect = some u) :
    s.katStart = (s.raiseGate u .test).modCheck (withKat (some (newTest u s.check.taint))) := by
  simp [State.katStart, hk, hr, hs]
  rfl

theorem raiseGate_of_low {k : GateKind} (hp : s.present u = true) (hr : (gateOf (s.probe u) k).raised = false)
    (ha : (gateOf (s.probe u) k).ack = false) :
    s.raiseGate u k = s.modProbe u fun x => setGate x k { raised := true, ack := false, ticks := 0 } :=
  if_pos (by simp [hp, hr, ha])

theorem ackFalls_of_standing {k : GateKind} (ha : (gateOf (s.probe u) k).ack = true)
    (hr : (gateOf (s.probe u) k).raised = false) : s.ackFalls u k = s.modProbe u fun x => setGate x k Gate.reset :=
  if_pos (by simp [ha, hr])

/-- An acknowledge of a unit that is not tested belongs to a gate that has fallen. -/
theorem testAck_of_untested (h : ∀ k, s.check.kat = some k → k.unit ≠ u) : s.testAck u = s.ackFalls u .test := by
  unfold State.testAck
  cases hk : s.check.kat with
  | none => rfl
  | some k => exact if_pos (h k hk)

/-- The acknowledge that a test waits for starts the unit's routine; after an abandoned raise TEST falls (R216). -/
theorem testAck_of_unacked {k : KatRun} (hk : s.check.kat = some k) (hu : k.unit = u) (ha : k.acked = false) :
    s.testAck u = if k.abandoned then ((s.ackGate u .test).lowerGate u .test).modCheck (withKat none)
      else (s.ackGate u .test).modCheck (withKat (some { k with acked := true, ackTime := s.now })) := by
  unfold State.testAck
  rw [hk]
  simp only [hu, ne_eq, not_true_eq_false, if_false, ha, Bool.false_eq_true]
  rfl

theorem ackGate_test_probe :
    (s.ackGate u .test).probe u = { s.probe u with test := { (s.probe u).test with ack := true, ticks := 0 } } :=
  modProbe_probe_same _ _ _

theorem lowerGate_test_probe :
    (s.lowerGate u .test).probe u = { s.probe u with test := { (s.probe u).test with raised := false, ticks := 0 } } :=
  modProbe_probe_same _ _ _

theorem execTestAck_eq (hc : s.chanOpen (.converter .probe u) = true) : exec (.testAck u) s = .next (s.testAck u).settle := by
  show finish _ = _
  rw [if_pos hc]
  rfl

/-! ### The result of a test (R214, R215, R228) -/

/-- After a test of a unit none is in progress, its result is the last, and these are the passes. -/
def katEnds (u last : Nat) (passes : Tab (Option KatPass)) (c : Check) : Prop :=
  c.kat = none ∧ c.katLast = last ∧ c.katLastUnit = u ∧ c.passes = passes

/-- The commands that wait for a test leave its outcome as they end. -/
theorem katResult_ends (last : Nat) : katEnds u last s.check.passes (s.katResult u last).check := by
  unfold State.katResult
  extract_lets lowered waiting ended
  refine (foldl_keeps (fun v => katEnds u last s.check.passes v.check) (fun v r => ?_) waiting ended).mpr ⟨rfl, rfl, rfl, rfl⟩
  split_ifs <;> rfl

theorem katResult_hdr (last : Nat) : (s.katResult u last).hdr chkPage = s.hdr chkPage :=
  same_of_only (s := s) (.hdr 0x28) (fun hL ho => katResult_only hL ho) (by decide) chkPage rfl

theorem katResult_suspect (last : Nat) : (s.katResult u last).check.suspect = s.check.suspect :=
  congrArg (·.1) (same_of_only (s := s) .suspects (fun hL ho => katResult_only hL ho) (by decide))

/-- The checker with a unit that has passed its test. -/
def passing (u : Nat) (p : KatPass) (c : Check) : Check :=
  { c with suspect := Tab.write boolFalse c.suspect u false, passes := Tab.write noPass c.passes u (some p) }

theorem katPass_eq (taint : Nat) : s.katPass u taint = (s.modCheck (passing u { time := s.now, taint })).katResult u 1 := rfl

theorem katPass_ends (taint : Nat) :
    katEnds u 1 (Tab.write noPass s.check.passes u (some { time := s.now, taint })) (s.katPass u taint).check :=
  katResult_ends (s := s.modCheck (passing u { time := s.now, taint })) 1

theorem katPass_suspect (taint : Nat) : Tab.read boolFalse (s.katPass u taint).check.suspect u = false := by
  rw [katPass_eq, katResult_suspect]
  exact Tab.read_write_same boolFalse s.check.suspect u false

/-- A failed test fences the unit, sends a notice, sets TEST_FAIL and is logged; then it has its result (R215). -/
theorem katFail_eq (cause : Nat) (l : List Byte) : ∃ v : State,
    s.onlyChanges v [.suspects, .staged, .recs, .hdr 0x58, .hdr 0x28, .hdr 0x12, .gens, .spares, .probes, .notices, .ringQ, .out,
      .xfers, .mbox, .word 0x28 0xC4] ∧
    bit (v.hdr chkPage).err 17 = true ∧ s.katFail u cause l = v.katResult u (cause - 1) := by
  refine ⟨_, ?_, ?_, rfl⟩
  · exact log_only (by decide) (setErr_only (by decide) (poisonSend_only (by decide) (fenceUnit_only (by decide)
      (onlyChanges_refl s _))))
  · refine log_err_bit _ _ _ _ _ _ _ ?_
    rw [setErr_hdr_same]
    exact bit_setBit_same _ (by decide)

theorem katFail_ends (cause : Nat) (l : List Byte) : katEnds u (cause - 1) s.check.passes (s.katFail u cause l).check := by
  obtain ⟨v, hv, -, h⟩ := katFail_eq (s := s) (u := u) cause l
  have hpasses : v.check.passes = s.check.passes := congrArg (·.2.1) (same_of_free (p := .kats) hv (by decide))
  rw [h, ← hpasses]
  exact katResult_ends _

theorem katFail_err_bit (cause : Nat) (l : List Byte) : bit ((s.katFail u cause l).hdr chkPage).err 17 = true := by
  obtain ⟨v, -, hbit, h⟩ := katFail_eq (s := s) (u := u) cause l
  rw [h, katResult_hdr]
  exact hbit

/-! ### The signature and the time limit (R214) -/

/-- A report's routine number and signature are those of the unit's signature entry. -/
def State.signatureFits (s : State) (u : Nat) (w : List Word) : Bool :=
  decide (fld (w.getD 1 0) 0 32 = fld (s.sigWord u 0) 0 16) &&
    (List.range 4).all fun i => decide (w.getD (2 + i) 0 = s.sigWord u (1 + i))

theorem signature_of_acked {k : KatRun} {w : List Word} (hk : s.check.kat = some k) (ha : k.acked = true)
    (hi : bit (s.hdr chkPage).inj 31 = false) : s.signature k.unit w =
      if s.signatureFits k.unit w then s.katPass k.unit k.taint
      else s.katFail k.unit 3 (leBytes 4 (w.getD 1 0).toNat ++ bytesOfWords ((w.drop 2).take 4)) := by
  have hours : ¬(k.unit ≠ k.unit ∨ k.acked = false) := by simp [ha]
  unfold State.signature
  rw [hk]
  dsimp only
  rw [if_neg hours, injTake_of_disarmed hi]
  rfl

theorem execSignatureReport_eq {w : List Word} (hc : s.chanOpen (.converter .probe u) = true) :
    exec (.signatureReport u w) s = .next (s.sideReport u w true).settle := by
  show finish _ = _
  rw [if_pos hc]
  rfl

theorem katTimeout_of_acked {k : KatRun} (hk : s.check.kat = some k) (ha : k.acked = true) : s.katTimeout =
    (s.advanceTo (k.ackTime + s.regFld chkPage 0x50 0 16 * us)).katFail k.unit 4 (zeros 20) := by
  unfold State.katTimeout
  rw [hk]
  exact if_pos ha

theorem katFail_now (cause : Nat) (l : List Byte) : (s.katFail u cause l).now = s.now :=
  same_of_only .now (fun hL ho => katFail_only hL ho) (by decide)

end Tests

/-- Settles O34: the start and the acknowledge by what they make of the gate and of `kat`, and each end by the outcome of
`katResult`. -/
theorem knownAnswerTestsPassOrFail : Obligations.KnownAnswerTestsPassOrFail := by
  unfold Obligations.KnownAnswerTestsPassOrFail
  refine ⟨fun u s hk hr hs => ?_, fun u s hc hk ha hl => ?_, fun u k s hc hk hu ha => ?_,
    fun u w k s hc hp hr hl hw hk hu ha hi => ?_, fun k s hk ha => ?_, fun s => ⟨execKatStart_only s, execKatTimeout_only s⟩,
    execTestAck_only, execSignatureReport_only⟩
  · have hx : exec .katStart s = .next s.katStart.settle := rfl
    refine ⟨_, hx, frame_of (execKatStart_only s) hx, ?_, fun hp hl ha => ?_⟩
    · rw [settle_check, katStart_of_select hk hr hs]
      rfl
    · rw [settle_probe, katStart_of_select hk hr hs, modCheck_probe, raiseGate_of_low (k := .test) hp hl ha,
        modProbe_probe_same]
      rfl
  · have hx := execTestAck_eq hc
    have hfalls := (testAck_of_untested hk).trans (ackFalls_of_standing (k := .test) ha hl)
    refine ⟨_, hx, frame_of (execTestAck_only u s) hx, ?_, ?_, fun q hq => ?_⟩
    · rw [settle_check, hfalls]
      rfl
    · rw [settle_probe, hfalls, modProbe_probe_same]
      rfl
    · rw [settle_probe, hfalls, modProbe_probe, if_neg hq]
  · have hx := execTestAck_eq hc
    refine ⟨_, hx, frame_of (execTestAck_only u s) hx, ?_⟩
    rw [settle_check, settle_probe, testAck_of_unacked hk hu ha]
    split_ifs
    · rw [modCheck_probe, lowerGate_test_probe, ackGate_test_probe]
      exact ⟨rfl, rfl⟩
    · rw [modCheck_probe, ackGate_test_probe]
      exact ⟨rfl, rfl⟩
  · subst hu
    have hx := execSignatureReport_eq (w := w) hc
    refine ⟨_, hx, frame_of (execSignatureReport_only k.unit w s) hx, ?_⟩
    have hsig : s.sideReport k.unit w true = (s.modCheck (serving k.unit)).signature k.unit w :=
      (sideReport_of_whole hp hr hl).trans (if_pos hw)
    rw [settle_check, settle_hdrOf, hsig, signature_of_acked (s := s.modCheck (serving k.unit)) hk ha hi]
    by_cases hfit : s.signatureFits k.unit w = true
    · rw [if_pos (show (s.modCheck (serving k.unit)).signatureFits k.unit w = true from hfit)]
      obtain ⟨hkat, hlast, hunit, hpasses⟩ := katPass_ends (s := s.modCheck (serving k.unit)) (u := k.unit) k.taint
      refine ⟨hkat, hunit, (if_pos hfit).mpr ⟨hlast, katPass_suspect _, ?_⟩⟩
      rw [hpasses]
      exact Tab.read_write_same _ _ _ _
    · rw [if_neg (show ¬(s.modCheck (serving k.unit)).signatureFits k.unit w = true from hfit)]
      obtain ⟨hkat, hlast, hunit, hpasses⟩ := katFail_ends (s := s.modCheck (serving k.unit)) (u := k.unit) 3
        (leBytes 4 (w.getD 1 0).toNat ++ bytesOfWords ((w.drop 2).take 4))
      exact ⟨hkat, hunit, (if_neg hfit).mpr ⟨hlast, katFail_err_bit _ _, hpasses⟩⟩
  · have hx : exec .katTimeout s = .next s.katTimeout.settle := rfl
    refine ⟨_, hx, frame_of (execKatTimeout_only s) hx, ?_⟩
    rw [settle_check, settle_hdrOf, settle_now, katTimeout_of_acked hk ha]
    obtain ⟨hkat, hlast, hunit, -⟩ := katFail_ends (s := s.advanceTo (k.ackTime + s.regFld chkPage 0x50 0 16 * us))
      (u := k.unit) 4 (zeros 20)
    exact ⟨hkat, hlast, hunit, katFail_err_bit _ _, katFail_now _ _⟩

end Sys2Proof.Machine
end

section
/-!
O35 (R222, R223, R534): poison notices. A notice that comes is discarded, acknowledged or stored; one that was sent stands among the
unacknowledged until its acknowledgement or its eighth re-sending.
-/
namespace Sys2Proof.Machine

section Receive
variable {s : State} {b : List Byte}

/-! ### What a record on its way to a ring leaves (R534) -/

/-- A record whose transfers are issued stays the record that it is. -/
theorem replace_xfers_bytes (w : RingWrite) (ids : Option (List Nat)) (l : List RingWrite) :
    (l.replace w { w with xfers := ids }).map (·.bytes) = l.map (·.bytes) := by
  induction l with
  | nil => rfl
  | cons a l ih =>
    rw [List.replace_cons]
    split
    · next ha => rw [List.map_cons, List.map_cons, eq_of_beq ha]
    · rw [List.map_cons, List.map_cons, ih]

theorem startXferOf_ringQ (g : Option Nat) (o : XferOwner) (wr : Bool) (a n : Nat) (d : List Byte) :
    (s.startXferOf g o wr a n d).pages.ringQ = s.pages.ringQ :=
  same_of_only .ringQ (fun hL ho => startXferOf_only hL ho) (by decide)

/-- Issuing a ring's oldest record leaves what the records on their way are. -/
theorem ringGo_bytes (r : RingRegs) : (s.ringGo r).pages.ringQ.map (·.bytes) = s.pages.ringQ.map (·.bytes) := by
  unfold State.ringGo
  split
  · dsimp only
    split_ifs
    · rfl
    · rw [startXferOf_ringQ, startXferOf_ringQ]
      exact replace_xfers_bytes _ _ _
    · rw [startXferOf_ringQ]
      exact replace_xfers_bytes _ _ _
  · rfl

theorem ringPut_bytes (r : RingRegs) :
    (s.ringPut r b).pages.ringQ.map (·.bytes) = s.pages.ringQ.map (·.bytes) ++ [b] := by
  rw [State.ringPut, State.ringPutOf, ringGo_bytes]
  exact List.map_append

theorem ringPut_notices (r : RingRegs) : Part.notices.same s (s.ringPut r b) :=
  same_of_only .notices (fun hL ho => ringPut_only hL ho) (by decide)

theorem ringPut_nextSeq (r : RingRegs) : (s.ringPut r b).check.nextSeq = s.check.nextSeq :=
  congrArg (·.1) (ringPut_notices r)

theorem ringPut_seen (r : RingRegs) : (s.ringPut r b).check.seen = s.check.seen :=
  congrArg (·.2.2) (ringPut_notices r)

/-! ### A notice that comes (R223) -/

/-- The node whose notice it is. -/
def noticeOrigin (b : List Byte) : BitVec 16 :=
  nodeOf 0 (fld (word (leAt b 16 4)) 22 6) (fld (word (leAt b 16 4)) 17 5) (fld (word (leAt b 16 4)) 14 3)

/-- The acknowledgement of a notice by this node. -/
def State.noticeAck (s : State) (b : List Byte) : Msg :=
  { typ := 0x32, tag := 0, dest := .node (noticeOrigin b)
    payload := leBytes 4 (word (leAt b 16 4)).toNat ++ leBytes 4 (leAt b 20 4) ++ leBytes 2 s.node.toNat ++ zeros 2 }

theorem poisonAck_mbox (h : noticeOrigin b ≠ s.node) :
    (s.poisonAck b).mbox = s.mbox ++ (s.route (.node (noticeOrigin b))).map fun p => (p, s.noticeAck b) := by
  rw [State.poisonAck]
  exact congrArg State.mbox (if_neg h)

theorem poisonAck_check : (s.poisonAck b).check = s.check := by
  unfold State.poisonAck
  dsimp only
  split_ifs <;> rfl

theorem poisonAck_ringQ : (s.poisonAck b).pages.ringQ = s.pages.ringQ :=
  same_of_only .ringQ (fun hL ho => poisonAck_only hL ho) (by decide)

/-- No way through the fleet depends on the count of refused notices. -/
theorem bump_route (d : Dest) : (s.bump chkPage 0xC4 1).route d = s.route d := by
  have hlink : (s.bump chkPage 0xC4 1).primaryKlink = s.primaryKlink := by
    have hreg : (s.bump chkPage 0xC4 1).reg (pg 0x38) 0x44 = s.reg (pg 0x38) 0x44 :=
      (reg_setReg _ _ _ _ _ _).trans (if_neg (by decide))
    rw [State.primaryKlink, State.regFld, hreg]
    rfl
  simp only [State.route, hlink]
  rfl

/-- A notice of another length or version, or whose CHK fails. -/
def noticeDamaged (b : List Byte) : Prop := b.length ≠ 64 ∨ b.getD 0 0 ≠ 1 ∨ crc32c (b.take 60) ≠ word (leAt b 60 4)

/-- The notice has been taken, and is no longer on its way to the ring. -/
def State.noticeWritten (s : State) (b : List Byte) : Prop :=
  s.check.seen.contains (noticeKey b) = true ∧
    ((s.ringWaiting poisonRing).any fun w => decide (noticeKey w.bytes = noticeKey b)) = false

theorem poisonReceive_of_damaged (h : noticeDamaged b) : s.poisonReceive b = s := if_pos h

theorem poisonReceive_of_written (h : ¬noticeDamaged b) (hw : s.noticeWritten b) : s.poisonReceive b = s.poisonAck b :=
  (if_neg h).trans (if_pos hw)

theorem poisonReceive_of_new (h : ¬noticeDamaged b) (hw : ¬s.noticeWritten b) : s.poisonReceive b = s.poisonStore b :=
  (if_neg h).trans (if_neg hw)

/-- The checker that has taken a notice. -/
def seeing (b : List Byte) (c : Check) : Check := { c with seen := c.seen ++ [noticeKey b] }

theorem poisonStore_of_room (hs : s.check.seen.contains (noticeKey b) = false) (hr : s.ringRoom poisonRing 64 = true) :
    s.poisonStore b = (s.modCheck (seeing b)).ringPut poisonRing b := by
  simp only [State.poisonStore, hs, hr, Bool.false_eq_true, if_false, if_true]
  rfl

theorem poisonStore_of_full (hs : s.check.seen.contains (noticeKey b) = false) (hr : s.ringRoom poisonRing 64 = false) :
    s.poisonStore b = (s.bump chkPage 0xC4 1).poisonAck b := by
  simp only [State.poisonStore, hs, hr, Bool.false_eq_true, if_false]

theorem execPoison_eq (hd : s.isDie = true) : exec (.poison b) s = .next (s.poisonReceive b).settle := by
  show finish _ = _
  rw [if_pos hd]
  rfl

end Receive

/-! ### A notice that was sent (R223) -/

section Sent
variable {s : State} {n : Notice} {seq : BitVec 32} {loc : BitVec 16}

/-- The checker with these notices not acknowledged. -/
def withUnacked (l : List Notice) (c : Check) : Check := { c with unacked := l }

/-- The notices that are not acknowledged, but for one. -/
def State.unackedBut (s : State) (n : Notice) : List Notice :=
  s.check.unacked.filter fun m => !(decide (m.seq = n.seq) && decide (m.loc = n.loc))

/-- A notice as it stands after its next re-sending. -/
def resent (now : FT) (n : Notice) : Notice := { n with bytes := noticeResent n.bytes, tries := n.tries + 1, sent := now }

theorem poisonAgain_of_few
    (hf : (s.check.unacked.find? fun n => decide (n.seq = seq) && decide (locNode n.loc = locNode loc)) = some n)
    (ht : n.tries < 8) : s.poisonAgain seq loc =
      ((s.advanceTo (n.sent + 5 * us)).sendTyp 0x31 (.node (locNode n.loc)) (noticeResent n.bytes)).modCheck
        (withUnacked (s.unackedBut n ++ [resent (max s.now (n.sent + 5 * us)) n])) := by
  unfold State.poisonAgain
  rw [hf]
  exact if_pos ht

/-- The eighth re-sending was the last: the notice is undelivered, and one record says so. -/
theorem poisonAgain_of_many
    (hf : (s.check.unacked.find? fun n => decide (n.seq = seq) && decide (locNode n.loc = locNode loc)) = some n)
    (ht : ¬n.tries < 8) : s.poisonAgain seq loc =
      (((s.advanceTo (n.sent + 5 * us)).modCheck (withUnacked (s.unackedBut n))).bump chkPage 0xA0 1).log 0x28 0 0x0005 6
        n.loc.toNat n.seq.toNat [] := by
  unfold State.poisonAgain
  rw [hf]
  exact if_neg ht

theorem log_mbox (p i c v b a : Nat) (l : List Byte) : (s.log p i c v b a l).mbox = s.mbox :=
  same_of_only .mbox (fun hL ho => log_only hL ho) (by decide)

theorem log_now (p i c v b a : Nat) (l : List Byte) : (s.log p i c v b a l).now = s.now :=
  same_of_only .now (fun hL ho => log_only hL ho) (by decide)

theorem log_unacked (p i c v b a : Nat) (l : List Byte) : (s.log p i c v b a l).check.unacked = s.check.unacked :=
  congrArg (·.2.1) (same_of_only (s := s) .notices (fun hL ho => log_only hL ho) (by decide))

end Sent

/-- Settles O35: a notice that comes by what `poisonReceive` makes of it, and one that was sent by its re-sendings. -/
theorem noticesAreAcknowledgedOrSentAgain : Obligations.NoticesAreAcknowledgedOrSentAgain := by
  unfold Obligations.NoticesAreAcknowledgedOrSentAgain
  refine ⟨fun b s hd => ?_, fun b s hd h64 h1 hc hs hr => ?_, fun seq loc s => ?_, fun seq loc n s hf => ?_, execPoison_only,
    fun seq loc s => ⟨execPoisonAck_only seq loc s, execPoisonResend_only seq loc s⟩⟩
  · have hx := execPoison_eq (b := b) hd
    refine ⟨_, hx, frame_of (execPoison_only b s) hx, ?_⟩
    rw [settle_mbox, settle_check, settle_ringQ]
    by_cases hdam : noticeDamaged b
    · rw [if_pos (show _ ∨ _ from hdam), poisonReceive_of_damaged hdam]
      exact ⟨rfl, rfl⟩
    · rw [if_neg (show ¬(_ ∨ _) from hdam)]
      by_cases hw : s.noticeWritten b
      · rw [poisonReceive_of_written hdam hw]
        dsimp only
        rw [if_pos (show _ ∧ _ from hw)]
        exact poisonAck_mbox
      · rw [poisonReceive_of_new hdam hw]
        dsimp only
        rw [if_neg (show ¬(_ ∧ _) from hw)]
        intro hr hs
        rw [poisonStore_of_room hs hr]
        refine ⟨ringPut_bytes _, ?_⟩
        rw [ringPut_seen]
        exact List.mem_append_right _ (List.mem_singleton_self _)
  · have hx := execPoison_eq (b := b) hd
    have hdam : ¬noticeDamaged b := by
      rw [noticeDamaged, h64, h1, hc]
      simp
    have hw : ¬s.noticeWritten b := fun h => Bool.false_ne_true (hs.symm.trans h.1)
    refine ⟨_, hx, frame_of (execPoison_only b s) hx, ?_⟩
    rw [settle_mbox, settle_check, settle_ringQ, poisonReceive_of_new hdam hw, poisonStore_of_full hs hr, poisonAck_check,
      poisonAck_ringQ]
    refine ⟨rfl, rfl, fun ho => ?_⟩
    rw [poisonAck_mbox (s := s.bump chkPage 0xC4 1) ho, bump_route]
    rfl
  · have hx : exec (.poisonAck seq loc) s = .next (s.modCheck (withUnacked (s.check.unacked.filter fun n =>
        !(decide (n.seq = seq) && decide (locNode n.loc = locNode loc))))).settle := rfl
    refine ⟨_, hx, onlyChanges_mono (frame_of (execPoisonAck_only seq loc s) hx) (by decide), ?_⟩
    rw [settle_check]
    rfl
  · have hx : exec (.poisonResend seq loc) s = .next (s.poisonAgain seq loc).settle := rfl
    refine ⟨_, hx, frame_of (execPoisonResend_only seq loc s) hx, ?_⟩
    rw [settle_now, settle_check, settle_mbox, settle_fum]
    by_cases ht : n.tries < 8
    · rw [poisonAgain_of_few hf ht]
      refine ⟨rfl, ?_⟩
      dsimp only
      rw [if_pos ht]
      rfl
    · rw [poisonAgain_of_many hf ht, log_now, log_mbox, log_unacked]
      refine ⟨rfl, ?_⟩
      dsimp only
      rw [if_neg ht]
      exact ⟨rfl, rfl, logRec_fum_seq _ _ _ _ _ _ _ _⟩

end Sys2Proof.Machine
end

section
/-!
O36 (R208, R217 to R221, R229): the checker's commands, the acknowledge of FENCE, and writes of a kernel entry. Each command's
effect is said by cases on the state in which it begins, whose tables, probes and registers are those before.
-/
namespace Sys2Proof.Machine

/-! ### What an operation leaves of the checker -/

section Leaves
variable (s : State)

theorem setMeas_check (i : Nat) (x : MeasEntry) : (s.setMeas i x).check = s.check := by
  unfold State.setMeas
  split_ifs <;> rfl

theorem touchItem_check (i : Nat) : (s.touchItem i).check = s.check := rfl

theorem kernelChanged_check : s.kernelChanged.check = s.check := by
  rw [State.kernelChanged, State.measure]
  dsimp only
  rw [touchItem_check, setMeas_check]

theorem respond_check (q : Req) (r : Resp) (d : Word) : (s.respond q r d).check = s.check := by
  obtain ⟨_, _, _, h⟩ := respond_frame s q r d
  rw [h]

theorem waitFor_check (c : CmdIn) (w : Wait) : (s.waitFor c w).check = s.check := rfl
theorem ok_check (c : CmdIn) : (s.ok c).check = s.check := rfl
theorem modCheck_cmd (f : Check → Check) (g : Bool) (n : Nat) : (s.modCheck f).cmd g n = s.cmd g n := rfl
theorem res_check (c : CmdIn) (k n : Nat) : (s.res c k n).check = s.check := rfl
theorem failCmd_check (c : CmdIn) (d : Nat) : (s.failCmd c d).check = s.check := rfl

theorem poisonStore_nextSeq (b : List Byte) : (s.poisonStore b).check.nextSeq = s.check.nextSeq := by
  unfold State.poisonStore
  dsimp only
  split_ifs
  · rfl
  · exact ringPut_nextSeq (s := s.modCheck (seeing b)) poisonRing
  · rw [poisonAck_check]
    rfl

/-- Each notice takes one SEQ (R222), however many consumers it goes to. -/
theorem poisonSend_nextSeq (n : NoticeArgs) : (s.poisonSend n).check.nextSeq = s.check.nextSeq + 1 := by
  unfold State.poisonSend
  extract_lets seq b counted stored dests
  refine (foldl_keeps (fun v => v.check.nextSeq) (fun v l => ?_) dests stored).trans (poisonStore_nextSeq counted b)
  rfl

end Leaves

/-! ### The registration table (R221) -/

section Commands
variable {s : State} {c : CmdIn} {a b : Nat}

/-- The first free entry of the registration table. -/
def State.freeEntry (s : State) : Option Nat := (List.range 256).find? fun i => !bit (Tab.read wordZero s.check.regs i) 31

/-- The checker with a word in its registration table. -/
def withReg (i : Nat) (w : Word) (x : Check) : Check := { x with regs := Tab.write wordZero x.regs i w }

theorem checkRegisterCmd_of_full (h : s.freeEntry = none) : checkRegisterCmd c s = s.failCmd c 2 := by
  unfold checkRegisterCmd
  unfold State.freeEntry at h
  rw [h]

theorem checkRegisterCmd_of_free {i : Nat} (h : s.freeEntry = some i) : checkRegisterCmd c s =
    ((s.modCheck (withReg i ((argW c s 0 &&& 0xBFFFFFFF) ||| 0x80000000))).kernelChanged.res c 0 i).ok c := by
  unfold checkRegisterCmd
  unfold State.freeEntry at h
  rw [h]
  rfl

theorem begun_freeEntry : (s.begun c a b).freeEntry = s.freeEntry := by rw [State.freeEntry, begun_check]; rfl

/-- A command that ends OK with a number in RES_0. -/
theorem ok_res_zero (n : Nat) :
    ((s.res c 0 n).ok c).settle.reg (cmdKey c.pkg c.page.toNat) 0x100 = BitVec.ofNat 32 n := by
  rw [settle_reg, ok_reg]
  exact res_reg 0 n

/-- A registered word stands in its entry, and every other entry stands. -/
theorem withReg_regs (i : Nat) (w : Word) (j : Nat) :
    Tab.read wordZero (s.modCheck (withReg i w)).kernelChanged.check.regs j =
      if j = i then w else Tab.read wordZero s.check.regs j := by
  rw [kernelChanged_check]
  exact Tab.read_write wordZero s.check.regs i j w

theorem checkUnregisterCmd_eq : checkUnregisterCmd c s =
    (s.modCheck (withReg (argFld c s 0 0 8) 0)).kernelChanged.ok c := rfl

theorem checkPoisonCmd_eq : ∃ n : NoticeArgs, checkPoisonCmd c s = (s.poisonSend n).ok c := ⟨_, rfl⟩

/-! ### Tests, fences and counts by command (R213, R217, R219, R229) -/

/-- The checker with a request for a unit's test before all others. -/
def withReq (r : KatReq) (x : Check) : Check := { x with katReqs := r :: x.katReqs }

theorem katQueue_eq (u : Nat) (unfence : Bool) : s.katQueue c u unfence =
    (s.modCheck (withReq { unit := u, unfence, pkg := c.pkg, page := c.page.toNat })).waitFor c (.event 5 u) := rfl

theorem katRunCmd_eq : katRunCmd c s =
    if s.present (argFld c s 0 0 13) = false then s.failCmd c 1 else s.katQueue c (argFld c s 0 0 13) false := by
  cases h : s.present (argFld c s 0 0 13) <;> simp [katRunCmd, h]

theorem fenceCmd_eq : fenceCmd c s =
    if s.present (argFld c s 0 0 13) = false then s.failCmd c 1 else (s.fenceUnit (argFld c s 0 0 13) 5 0).ok c := by
  cases h : s.present (argFld c s 0 0 13) <;> simp [fenceCmd, h]

theorem unfenceCmd_eq : unfenceCmd c s =
    if s.present (argFld c s 0 0 13) = false then s.failCmd c 1
    else if (s.probe (argFld c s 0 0 13)).fenced = false then s.failCmd c 5
    else s.katQueue c (argFld c s 0 0 13) true := by
  simp only [unfenceCmd, Bool.not_eq_true']

/-- The checker with one more command that waits for the counts to be cleared. -/
def withClearing (c : CmdIn) (x : Check) : Check := { x with clears := x.clears ++ [(c.pkg, c.page.toNat)] }

theorem checkClearCmd_eq : checkClearCmd c s = (s.modCheck (withClearing c)).waitFor c (.event 4 0) := rfl

/-- A queued test waits, and is the first of the requests. -/
theorem begun_katQueue (u : Nat) (unfence : Bool) :
    ((s.begun c a b).katQueue c u unfence).settle.waits c (.event 5 u) ∧
      ((s.begun c a b).katQueue c u unfence).settle.check.katReqs =
        { unit := u, unfence, pkg := c.pkg, page := c.page.toNat } :: s.check.katReqs := by
  rw [katQueue_eq, settle_check, waitFor_check, ← begun_check s c a b]
  exact ⟨begun_waits (s := s) (a := a) (b := b) _ (modCheck_cmd _ _ _ _), rfl⟩

/-- Below the cap of fences within 1 ms, and with no storm, a unit is fenced (R217, R218). -/
theorem fenceUnit_fenced {u : Nat} (cause detail : Nat) (hs : bit (s.hdr chkPage).err errStorm = false)
    (hn : (withinMs s.now s.check.fences).length < s.regFld chkPage 0x9C 0 8) :
    ((s.fenceUnit u cause detail).probe u).fenced = true := by
  unfold State.fenceUnit
  extract_lets recent cap chk s1
  have hcap : ¬cap < recent.length + 1 := not_lt.mpr hn
  split_ifs with hf hstorm
  · exact hf
  · exact absurd (hs.symm.trans hstorm) Bool.false_ne_true
  · obtain ⟨g, hg⟩ := raiseGate_fence_probe (s := s1.modProbe u fun x => { x with fenced := true }) u
    rw [spareAdd_probe, hg, modProbe_probe_same]

/-! The steps of the commands. -/

theorem execCheckRegister_eq (h : s.takes c .operator = true) (hd : s.isDie = true) :
    exec (.checkRegister c) s = .next (checkRegisterCmd c (s.begun c 0x28 0x0001)).settle :=
  congrArg finish (runCmd_takes h 0x28 0x0001 hd (checkRegisterCmd c))

theorem execCheckUnregister_eq (h : s.takes c .operator = true) (hd : s.isDie = true) :
    exec (.checkUnregister c) s = .next (checkUnregisterCmd c (s.begun c 0x28 0x0002)).settle :=
  congrArg finish (runCmd_takes h 0x28 0x0002 hd (checkUnregisterCmd c))

theorem execCheckPoison_eq (h : s.takes c .operator = true) (hd : s.isDie = true) :
    exec (.checkPoison c) s = .next (checkPoisonCmd c (s.begun c 0x28 0x0003)).settle :=
  congrArg finish (runCmd_takes h 0x28 0x0003 hd (checkPoisonCmd c))

theorem execKatRun_eq (h : s.takes c .firmware = true) (hd : s.isDie = true) :
    exec (.katRun c) s = .next (katRunCmd c (s.begun c 0x28 0x0004)).settle :=
  congrArg finish (runCmd_takes h 0x28 0x0004 hd (katRunCmd c))

theorem execFence_eq (h : s.takes c .firmware = true) (hd : s.isDie = true) :
    exec (.fence c) s = .next (fenceCmd c (s.begun c 0x28 0x0005)).settle :=
  congrArg finish (runCmd_takes h 0x28 0x0005 hd (fenceCmd c))

theorem execUnfence_eq (h : s.takes c .firmware = true) (hd : s.isDie = true) :
    exec (.unfence c) s = .next (unfenceCmd c (s.begun c 0x28 0x0006)).settle :=
  congrArg finish (runCmd_takes h 0x28 0x0006 hd (unfenceCmd c))

theorem execCheckClearStats_eq (h : s.takes c .operator = true) (hd : s.isDie = true) :
    exec (.checkClearStats c) s = .next (checkClearCmd c (s.begun c 0x28 0x0007)).settle :=
  congrArg finish (runCmd_takes h 0x28 0x0007 hd (checkClearCmd c))

end Commands

/-! ### The acknowledge of FENCE (R89, R217) and the idle window (R229) -/

section Fences
variable {s : State} {u : Nat}

/-- What FENCE_ACK makes of the gate FENCE: one that is raised falls, and an acknowledge that stands after it falls. -/
def fenceAcked (g : Gate) : Gate :=
  if g.raised then { raised := false, ack := true, ticks := 0 } else if g.ack then Gate.reset else g

theorem fenceAck_probe (q : Nat) : (s.fenceAck u).probe q =
    if q = u then { s.probe u with fence := fenceAcked (s.probe u).fence } else s.probe q := by
  unfold State.fenceAck fenceAcked
  by_cases hr : (s.probe u).fence.raised = true
  · simp only [hr, if_true, State.lowerGate, State.ackGate, modProbe_probe]
    split_ifs <;> rfl
  · by_cases ha : (s.probe u).fence.ack = true
    · rw [if_neg hr, if_neg hr, if_pos ha, ackFalls_of_standing (k := .fence) ha (eq_false_of_ne_true hr)]
      exact modProbe_probe _ _ _
    · have hstands : s.ackFalls u .fence = s := if_neg (by simp [gateOf, ha])
      rw [if_neg hr, if_neg hr, if_neg ha, hstands]
      split_ifs with hq
      · rw [hq]
      · rfl

theorem execFenceAck_eq (hc : s.chanOpen (.converter .probe u) = true) : exec (.fenceAck u) s = .next (s.fenceAck u).settle := by
  show finish _ = _
  rw [if_pos hc]
  rfl

/-- The checker without the requests of a command page. -/
def withoutReqs (pkg : Bool) (page : Nat) (x : Check) : Check :=
  { x with katReqs := x.katReqs.filter fun r => !(decide (r.pkg = pkg) && decide (r.page = page)) }

theorem execIdleWindowTimeout_eq {pkg : Bool} {page : BitVec 3} {r : KatReq} (hk : s.check.kat = none)
    (hf : (s.check.katReqs.find? fun r => decide (r.pkg = pkg) && decide (r.page = page.toNat)) = some r) :
    exec (.idleWindowTimeout pkg page) s =
      .next ((s.modCheck (withoutReqs pkg page.toNat)).complete pkg page.toNat stTimeout 0).settle := by
  show finish _ = _
  dsimp only
  rw [hf, hk]
  rfl

end Fences

/-! ### A write of KDATA (R208, R228) -/

section KernelData
variable {s : State} {w : Nat} {v : Word}

theorem regAt_kdata : ∀ w < 8, regAt 0x28 (0x60 + 4 * w) = some (rrow 0x060 14 4 1 0xFFFFFFFF 0 0, w, 0) := by decide

/-- A write of KDATA reaches the selected entry at once. -/
theorem freshWrite_kdata (hw : w < 8) (q : Req) : s.freshWrite (pg 0x28) (0x60 + 4 * w) q v = (.ok, s.kernelWrite w v) := by
  have hbody : ¬0x60 + 4 * w < 0x40 := by omega
  have hg : guardedAt (pg 0x28) (0x60 + 4 * w) = false := by
    simp [guardedAt, hbody, regAt_kdata w hw, rrow]
  have hdata : dataWindow (pg 0x28) (0x60 + 4 * w) = none := by simp [dataWindow]
  have haon : isAon (pg 0x28) (0x60 + 4 * w) = false := by simp [isAon, regAt_kdata w hw, rrow]
  have hwide : wideAt 0x28 (0x60 + 4 * w) = none := by simp [wideAt, regAt_kdata w hw, rrow]
  have hcfg : cfgWindow 0x28 (0x60 + 4 * w) = true := by
    simp only [cfgWindow, Bool.or_eq_true, Bool.and_eq_true, decide_eq_true_eq]
    omega
  have hring : ringOf (pg 0x28) (0x60 + 4 * w) = none := by
    simp [ringOf, poisonRing]
    omega
  have hscope : keyScope (pg 0x28) = 0 := rfl
  have hbusy : s.writeBusy (pg 0x28) (0x60 + 4 * w) = false := by simp [State.writeBusy, hscope]
  have hwindow : 0x60 ≤ 0x60 + 4 * w ∧ 0x60 + 4 * w < 0x98 := by omega
  rw [freshWrite_plain (by omega) hg]
  simp [State.plainWrite, hdata, State.writeReg, hcfg, hbusy, haon, hwide, State.writeWord, hring, hscope, hwindow, hbody]

/-- A kernel entry with a word of KDATA written. -/
def kdataWritten (w : Nat) (v : Word) (x : Kernel) : Kernel :=
  if w = 0 then { x with absTol := v } else if w = 1 then { x with relTol := v }
  else if w = 2 then { x with lo := v } else if w = 3 then { x with hi := v }
  else if w = 4 then { x with limits := v } else if w = 5 then { x with ctl := v &&& 0xF8000000 }
  else if w = 6 then { x with lambda := v } else if w = 7 then { x with escape := v } else x

/-- An entry that its values make invalid. -/
def disabled (x : Kernel) : Kernel := { x with ctl := setBit x.ctl 31 false }

/-- A configuration word of an entry. -/
def kdataWord (x : Kernel) (w : Nat) : Word := [x.absTol, x.relTol, x.lo, x.hi, x.limits, x.ctl, x.lambda, x.escape].getD w 0

/-- CTL alone does not read back as written: its bits below 27 are no bits of an entry (R228). -/
theorem kdataWord_written (hw : w < 8) (h5 : w ≠ 5) (x : Kernel) : kdataWord (kdataWritten w v x) w = v := by
  obtain h | rfl | rfl : w < 5 ∨ w = 6 ∨ w = 7 := by omega
  · interval_cases w <;> rfl
  · rfl
  · rfl

theorem kdataWord_disabled (hw : w < 8) (h5 : w ≠ 5) (x : Kernel) : kdataWord (disabled x) w = kdataWord x w := by
  obtain h | rfl | rfl : w < 5 ∨ w = 6 ∨ w = 7 := by omega
  · interval_cases w <;> rfl
  · rfl
  · rfl

theorem kernelWrite_of_none (hk : s.regFld chkPage 0x5C 0 8 = 255) : s.kernelWrite w v = s := if_pos hk

theorem modKernel_kernel_same (s : State) (k : Nat) (f : Kernel → Kernel) : (s.modKernel k f).kernel k = f (s.kernel k) :=
  Tab.read_modify_same _ _ _ _

/-- The selected entry takes the word, and is disabled where its values make it invalid. -/
theorem kernelWrite_eq (hk : s.regFld chkPage 0x5C 0 8 ≠ 255) : s.kernelWrite w v =
    let k := s.regFld chkPage 0x5C 0 8
    let t := s.kernelChanged.modKernel k (kdataWritten w v)
    if w < 6 ∧ kernelBad (t.kernel k) = true then (t.modKernel k disabled).setErr chkPage 19 else t := if_neg hk

theorem kernelWrite_kernel (hk : s.regFld chkPage 0x5C 0 8 ≠ 255) : ∃ x : Kernel,
    (s.kernelWrite w v).kernel (s.regFld chkPage 0x5C 0 8) = kdataWritten w v x ∨
      (s.kernelWrite w v).kernel (s.regFld chkPage 0x5C 0 8) = disabled (kdataWritten w v x) := by
  rw [kernelWrite_eq hk]
  extract_lets k t
  have ht : t.kernel k = kdataWritten w v (s.kernelChanged.kernel k) := modKernel_kernel_same _ _ _
  refine ⟨s.kernelChanged.kernel k, ?_⟩
  rw [← ht]
  split_ifs
  · exact .inr (modKernel_kernel_same _ _ _)
  · exact .inl rfl

theorem kernelWrite_word (hk : s.regFld chkPage 0x5C 0 8 ≠ 255) (hw : w < 8) (h5 : w ≠ 5) :
    kdataWord ((s.kernelWrite w v).kernel (s.regFld chkPage 0x5C 0 8)) w = v := by
  obtain ⟨x, h | h⟩ := kernelWrite_kernel (s := s) (w := w) (v := v) hk
  · rw [h, kdataWord_written hw h5]
  · rw [h, kdataWord_disabled hw h5, kdataWord_written hw h5]

end KernelData

/-- Settles O36: each command by its effect on the state in which it begins, FENCE's acknowledge by the gate, and a write of KDATA
by the selected entry. -/
theorem checkCommandsFenceTestAndRegister : Obligations.CheckCommandsFenceTestAndRegister := by
  unfold Obligations.CheckCommandsFenceTestAndRegister
  refine ⟨fun c s h hd => ?_, fun c s h hd => ?_, fun c s h hd => ?_, fun c s h hd => ?_, fun c s h hd => ?_, fun c s h hd => ?_,
    fun c s h hd => ?_, fun u s hc => ?_, fun pkg page r s hk hf => ?_, fun a s w hw h5 hm hg => ?_, fun c s =>
    ⟨execCheckRegister_only c s, execCheckUnregister_only c s, execCheckPoison_only c s, execKatRun_only c s, execFence_only c s,
      execUnfence_only c s, execCheckClearStats_only c s⟩, execFenceAck_only, execIdleWindowTimeout_only, execKernelWrite_only⟩
  · refine ⟨_, execCheckRegister_eq h hd,
      settle_only (by decide) (checkRegisterCmd_only (by decide) (begun_changes _ _ _)), ?_⟩
    change match s.freeEntry with | none => _ | some i => _
    rw [settle_check]
    cases hfree : s.freeEntry with
    | none =>
      rw [checkRegisterCmd_of_full (begun_freeEntry.trans hfree), failCmd_check, begun_check]
      exact ⟨failCmd_ended _, rfl⟩
    | some i =>
      rw [checkRegisterCmd_of_free (begun_freeEntry.trans hfree), begun_argW s c _ _ 0 (by decide), ok_check, res_check]
      exact ⟨ok_ended, ok_res_zero i, (withReg_regs _ _ _).trans (if_pos rfl)⟩
  · refine ⟨_, execCheckUnregister_eq h hd,
      settle_only (by decide) (checkUnregisterCmd_only (by decide) (begun_changes _ _ _)), ok_ended, fun i => ?_⟩
    rw [settle_check, checkUnregisterCmd_eq, ok_check, withReg_regs, begun_argFld _ _ 0 0 8 (by decide), begun_check]
  · have hx := execCheckPoison_eq h hd
    obtain ⟨n, hn⟩ := checkPoisonCmd_eq (c := c) (s := s.begun c 0x28 0x0003)
    rw [hn] at hx
    refine ⟨_, hx, frame_of (execCheckPoison_only c s) hx, ok_ended, ?_⟩
    rw [settle_check, ok_check, poisonSend_nextSeq, begun_check]
  · refine ⟨_, execKatRun_eq h hd, settle_only (by decide) (katRunCmd_only (by decide) (begun_changes _ _ _)), ?_⟩
    rw [katRunCmd_eq, begun_present, begun_argFld _ _ 0 0 13 (by decide)]
    split_ifs
    · exact failCmd_ended _
    · exact begun_katQueue _ _
  · have hx := execFence_eq h hd
    refine ⟨_, hx, frame_of (execFence_only c s) hx, ?_⟩
    rw [fenceCmd_eq, begun_present, begun_argFld _ _ 0 0 13 (by decide), settle_samp]
    dsimp only
    split_ifs
    · exact ⟨failCmd_ended _, begun_samp s c _ _⟩
    · refine ⟨ok_ended, fun hs hn => ?_⟩
      rw [settle_probe, ok_probe]
      refine fenceUnit_fenced 5 0 ?_ ?_
      · rw [begun_hdrOf]
        exact hs
      · rw [begun_now, begun_check, State.regFld, begun_reg_of_type _ _ (by decide)]
        exact hn
  · refine ⟨_, execUnfence_eq h hd, settle_only (by decide) (unfenceCmd_only (by decide) (begun_changes _ _ _)), ?_⟩
    rw [unfenceCmd_eq, begun_present, begun_argFld _ _ 0 0 13 (by decide), begun_probe]
    dsimp only
    split_ifs
    · exact failCmd_ended _
    · exact failCmd_ended _
    · exact begun_katQueue _ _
  · refine ⟨_, execCheckClearStats_eq h hd, settle_only (by decide) (checkClearCmd_only (by decide) (begun_changes _ _ _)), ?_⟩
    rw [checkClearCmd_eq, settle_check, waitFor_check, ← begun_check s c 0x28 0x0007]
    exact ⟨begun_waits (s := s) (a := 0x28) (b := 0x0007) _ (modCheck_cmd _ _ _ _), rfl⟩
  · have hx := execFenceAck_eq hc
    refine ⟨_, hx, onlyChanges_mono (frame_of (execFenceAck_only u s) hx) (by decide), ?_, fun q hq => ?_⟩
    · rw [settle_probe, fenceAck_probe, if_pos rfl]
      rfl
    · rw [settle_probe, fenceAck_probe, if_neg hq]
  · have hx := execIdleWindowTimeout_eq hk hf
    refine ⟨_, hx, onlyChanges_mono (frame_of (execIdleWindowTimeout_only pkg page s) hx) (by decide), ?_⟩
    rw [settle_cmd, settle_check, State.complete, setCmd_cmd_same]
    exact ⟨rfl, rfl, rfl⟩
  · refine access_ends (access_fresh_ok hm hg (freshWrite_kdata hw _))
      (kernelWrite_only (by decide) (busyNow_changes s _)) rfl rfl ?_
    change if s.busyNow.regFld chkPage 0x5C 0 8 = 255 then _ else _
    rw [settle_check, respond_check]
    split_ifs with hk
    · rw [kernelWrite_of_none hk]
      rfl
    · rw [State.kernel, settle_check, respond_check]
      exact kernelWrite_word hk hw h5

end Sys2Proof.Machine
end

section
/-!
O40 (R244, R247, R248, R250, R518): PPS_IN, PPS_OUT, EPOCH_BASE and the reference clock. A pin moves fleet time and sets what the
timekeeper keeps of it; a write reaches its register or sets BASE_LOCKED; and REFCLK that returns starts a fresh timekeeper.
-/
namespace Sys2Proof.Machine

/-! ### What an error bit and an answer leave -/

/-- An error bit that is set reads 1. -/
theorem setErr_err_bit_same (s : State) (p : Nat) {b : Nat} (hb : b < 32) : bit ((s.setErr p b).hdr p).err b = true := by
  rw [setErr_hdr_same]
  exact bit_setBit_same _ hb

@[simp] theorem respond_time (s : State) (q : Req) (r : Resp) (d : Word) : (s.respond q r d).time = s.time := by
  obtain ⟨_, _, _, h⟩ := respond_frame s q r d
  rw [h]

/-! ### The 1PPS pins (R244, R247, R248) -/

section Pulses
variable {s : State}

/-- The timekeeper that has kept an edge of PPS_IN. -/
def keepingEdge (t : FT) (x : Time) : Time := { x with ppsIn := t }

/-- The instant of an edge sampled at `ts`, less the delay of the input. -/
def State.ppsEdge (s : State) (ts : Nat) : Int := (truncFT ts : Int) - psToFT (sgn 16 (s.regFld timePage 0xA4 16 16))

/-- An edge that no TIME_SET waits for, and that is not the servo's source, is only kept. -/
theorem execPpsInEdge_kept {ts : Nat} (hd : s.dark = false) (hr : s.time.running = true) (hm : s.regFld timePage 0xA0 30 2 ≠ 0)
    (hset : s.time.setPps = none) (hsrc : s.ppsSource = false) : exec (.ppsInEdge ts) s =
      .next ((s.advanceTo (truncFT ts)).modTime (keepingEdge (truncFT (s.ppsEdge ts).toNat))).settle := by
  have hsrc' : ((s.advanceTo (truncFT ts)).modTime (keepingEdge (truncFT (s.ppsEdge ts).toNat))).ppsSource = false := hsrc
  show execPpsInEdge ts s = _
  simp only [execPpsInEdge, hd, hr, hm, Bool.not_true, decide_false, Bool.or_false, Bool.false_eq_true, if_false,
    modTime_time, advanceTo_time, hset, ite_self]
  exact congrArg finish (if_neg (ne_true_of_eq_false hsrc'))

/-- The second of PTP time that begins next. -/
def State.nextSecond (s : State) : Nat := (s.now + s.epochBase) / second + 1

/-- The timekeeper in the pulse for a second, high until `fall`. -/
def pulsing (k fall : Nat) (x : Time) : Time := { x with ppsOut := true, ppsLast := k, ppsFall := fall }

/-- A second that has had no pulse gets one. -/
theorem execPpsOutPulse_due (hr : s.time.running = true) (hl : s.time.servo = .locked ∨ s.time.servo = .holdover)
    (he : bit (s.reg timePage 0xA0) 29 = true) (hk : s.time.ppsLast < s.nextSecond) :
    ∃ rise fall, exec .ppsOutPulse s = .next ((s.advanceTo rise).modTime (pulsing s.nextSecond fall)).settle := by
  have hlive : (decide (s.time.servo = .locked) || decide (s.time.servo = .holdover)) = true := by simpa using hl
  show ∃ _ _, execPpsOutPulse s = _
  simp only [execPpsOutPulse, he, hlive, hr, Bool.and_true, if_true]
  exact ⟨_, _, congrArg finish (if_pos hk)⟩

/-- A second that has had its pulse gets no second one. -/
theorem execPpsOutPulse_had (hk : ¬s.time.ppsLast < s.nextSecond) : exec .ppsOutPulse s = .next s.settle := by
  show finish _ = _
  dsimp only
  split_ifs with _ h
  · exact absurd h hk
  · rfl
  · rfl

theorem execPpsMiss_source (h : s.ppsSource = true) :
    ∃ n, exec .ppsMiss s = .next ((s.advanceTo n).timeErr errPpsMiss).settle :=
  ⟨_, congrArg finish (if_pos h)⟩

end Pulses

/-! ### Writes of EPOCH_BASE and KX_TIME_REFCLK (R250, R518) -/

section TimeWrites
variable {s : State} {q : Req} {w : Word} {off : Nat}

/-- A write of a register of the TIME page that is not guarded. -/
theorem freshWrite_time (hlo : 0x40 ≤ off) (hhi : off < 0x800) (hg : guardedAt (pg 0x30) off = false) :
    s.freshWrite (pg 0x30) off q w = s.writeReg (pg 0x30) off w := by
  have hdata : dataWindow (pg 0x30) off = none := by simp [dataWindow]
  rw [freshWrite_plain hhi hg]
  simp [State.plainWrite, hdata, not_lt.mpr hlo]

theorem writeBusy_time : s.writeBusy (pg 0x30) off = false := by
  simp [State.writeBusy]

/-! EPOCH_BASE -/

theorem writeMasks_epochBase : writeMasks (pg 0x30) 0x90 = (BitVec.allOnes 32, 0) := by decide

theorem newWord_epochBase : s.newWord (pg 0x30) 0x90 w = w := by
  have hfix : s.newWord (pg 0x30) 0x90 w = mergeWrite (BitVec.allOnes 32) 0 (s.reg (pg 0x30) 0x90) w := by
    simp only [State.newWord, writeMasks_epochBase]; rfl
  rw [hfix, mergeWrite_allOnes]

/-- The three words of EPOCH_BASE stored together. -/
def State.storeEpochBase (s : State) (w w1 w2 : Word) : State :=
  ((s.storeWord (pg 0x30) 0x90 w).storeWord (pg 0x30) 0x94 w1).storeWord (pg 0x30) 0x98 w2

theorem storeEpochBase_reg (w1 w2 : Word) : (s.storeEpochBase w w1 w2).reg (pg 0x30) 0x90 = w := by
  rw [State.storeEpochBase, State.storeWord, reg_setReg, if_neg (by decide), State.storeWord, reg_setReg, if_neg (by decide),
    State.storeWord, reg_setReg_same, newWord_epochBase]

/-- A write of EPOCH_BASE changes the configuration, and nothing of it stays staged; the value is taken in FREE only (R250). -/
def State.writeEpochBase (s : State) (w w1 w2 : Word) : State :=
  let u := (s.touchItem 0x09).modHdr (pg 0x30) (unstaged 0x90 3)
  if u.time.servo = .free then u.storeEpochBase w w1 w2 else u.setErr (pg 0x30) errBaseLocked

theorem writeEpochBase_free (hf : s.time.servo = .free) (w1 w2 : Word) : (s.writeEpochBase w w1 w2).reg (pg 0x30) 0x90 = w :=
  (congrArg (State.reg · (pg 0x30) 0x90) (if_pos hf)).trans (storeEpochBase_reg w1 w2)

theorem writeEpochBase_locked (hf : s.time.servo ≠ .free) (w1 w2 : Word) : s.writeEpochBase w w1 w2 =
    ((s.touchItem 0x09).modHdr (pg 0x30) (unstaged 0x90 3)).setErr (pg 0x30) errBaseLocked := if_neg hf

theorem writeEpochBase_only {s0 : State} {L : List Part} (w1 w2 : Word)
    (hL : names L [.hdr 0x30, .word 0x30 0x90, .word 0x30 0x94, .word 0x30 0x98, .gens] = true) (ho : s0.onlyChanges s L) :
    s0.onlyChanges (s.writeEpochBase w w1 w2) L := by
  have hu : s0.onlyChanges ((s.touchItem 0x09).modHdr (pg 0x30) (unstaged 0x90 3)) L :=
    modHdr_only (names_trans hL (by decide)) (touchItem_only (names_trans hL (by decide)) ho)
  refine only_ite (storeWord_only ?_ (storeWord_only ?_ (storeWord_only ?_ hu))) (setErr_only ?_ hu) <;>
    exact names_trans hL (by decide)

theorem writeWide_epochBase (w1 w2 : Word) : s.writeWide (pg 0x30) 0x90 [w, w1, w2] =
    if s.time.servo = .free then s.storeEpochBase w w1 w2 else s.setErr (pg 0x30) errBaseLocked :=
  (if_congr (and_iff_right rfl) rfl rfl).trans (ite_not ..)

/-- A write of the lowest word commits EPOCH_BASE, the higher words as they were staged or stand. -/
theorem freshWrite_epochBase : ∃ w1 w2, s.freshWrite (pg 0x30) 0x90 q w = (.ok, s.writeEpochBase w w1 w2) := by
  have haon : isAon (pg 0x30) 0x90 = false := by decide
  have hwide : wideAt 0x30 0x90 = some (0x90, 3, 0) := by decide
  obtain ⟨w1, w2, hcommit⟩ : ∃ w1 w2, (s.touchItem 0x09).wideWrite (pg 0x30) 0x90 3 0 w =
      ((s.touchItem 0x09).modHdr (pg 0x30) (unstaged 0x90 3)).writeWide (pg 0x30) 0x90 [w, w1, w2] := ⟨_, _, rfl⟩
  refine ⟨w1, w2, ?_⟩
  rw [freshWrite_time (by decide) (by decide) (by decide)]
  simp [State.writeReg, writeMasks_epochBase, cfgWindow, haon, hwide, writeBusy_time, hcommit, writeWide_epochBase,
    State.writeEpochBase]

/-! KX_TIME_REFCLK -/

theorem writeMasks_refclk : writeMasks (pg 0x30) 0xCC = (0x3FFFF, 0) := by decide

/-- A low field whose bits are all RW takes its value from the word written. -/
theorem fld_mergeWrite_low {len : Nat} {rw : Word} (hlen : len ≤ 32) (hrw : ∀ i < len, bit rw i = true) (old : Word) :
    fld (mergeWrite rw 0 old w) 0 len = fld w 0 len := by
  refine fld_low_congr fun i hi => ?_
  have hbit : rw.getLsbD i = true := hrw i hi
  have hi' : i < 32 := by omega
  simp only [bit, mergeWrite, BitVec.getLsbD_and, BitVec.getLsbD_or, BitVec.getLsbD_not, hbit, hi']
  simp

theorem fld_newWord_refclk : fld (s.newWord (pg 0x30) 0xCC w) 0 18 = fld w 0 18 := by
  have hfix : s.newWord (pg 0x30) 0xCC w = mergeWrite 0x3FFFF 0 (s.reg (pg 0x30) 0xCC) w := by
    simp only [State.newWord, writeMasks_refclk]; rfl
  rw [hfix, fld_mergeWrite_low (by decide) (by decide)]

theorem freshWrite_refclk : s.freshWrite (pg 0x30) 0xCC q w = (.ok, (s.touchItem 0x09).refclkWrite w) := by
  have haon : isAon (pg 0x30) 0xCC = false := by decide
  have hwide : wideAt 0x30 0xCC = none := by decide
  have hring : ringOf (pg 0x30) 0xCC = none := by simp [ringOf]
  have hscope : keyScope (pg 0x30) = 0 := rfl
  rw [freshWrite_time (by decide) (by decide) (by decide)]
  simp [State.writeReg, writeMasks_refclk, cfgWindow, haon, hwide, writeBusy_time, State.writeWord, hring, hscope]

/-- A frequency out of range, or one that comes when the timekeeper runs, is discarded. -/
theorem refclkWrite_of_bad (h : fld w 0 18 < 25000 ∨ 156250 < fld w 0 18 ∨ s.time.running = true) :
    s.refclkWrite w = s.setErr (pg 0x30) errBaseLocked := if_pos h

theorem refclkWrite_of_good (h : ¬(fld w 0 18 < 25000 ∨ 156250 < fld w 0 18 ∨ s.time.running = true)) :
    s.refclkWrite w = (s.storeWord (pg 0x30) 0xCC w).timeStart := if_neg h

end TimeWrites

/-! ### The start of the timekeeper (R57, R518, R519) -/

section Starts
variable (s : State)

/-- Pages that enter or leave reset show it in their headers, and nothing else changes. -/
theorem pagesInReset_keeps {β : Type} {f : State → β} (hf : ∀ u p g, f (State.modHdr u p g) = f u) (keys : List Nat) (v : Bool) :
    f (s.pagesInReset keys v) = f s :=
  foldl_keeps f (fun u k => hf u k _) _ s

theorem timeStart_time : s.timeStart.time = { s.time with running := s.timeRuns } :=
  pagesInReset_keeps _ (f := State.time) (fun _ _ _ => rfl) _ _

theorem timeStart_now : s.timeStart.now = s.now :=
  pagesInReset_keeps _ (f := State.now) (fun _ _ _ => rfl) _ _

theorem timeStart_bpwr : s.timeStart.bpwr = s.bpwr :=
  pagesInReset_keeps _ (f := State.bpwr) (fun _ _ _ => rfl) _ _

theorem timeStart_reg (p o : Nat) : s.timeStart.reg p o = s.reg p o :=
  pagesInReset_keeps _ (f := fun u => u.reg p o) (fun _ _ _ => rfl) _ _

/-- The supply that has REFCLK. -/
def clocked (b : Bpwr) : Bpwr := { b with refclk := true }

/-- The block whose timekeeper has been reset: FREE, at fleet time 0. -/
def State.freshTime (s : State) : State := ({ s with time := timeAfter .poVddt s.time, now := 0, tick := 0 }).gridFrom 0

/-- REFCLK starts a timekeeper that stood, where its rails and its frequency let it run. -/
theorem execRefclkReturn_eq (hd : s.dark = false) (hr : s.time.running = false) : exec .refclkReturn s = .next
    (if (s.modBpwr clocked).timeRuns = true then (s.modBpwr clocked).freshTime.timeStart else s.modBpwr clocked).settle := by
  show finish (if ((s.modBpwr clocked).dark || s.time.running || !(s.modBpwr clocked).timeRuns) = true then _ else _) = _
  rw [show (s.modBpwr clocked).dark = false from hd, hr]
  cases (s.modBpwr clocked).timeRuns <;> rfl

/-- What the timekeeper needs to run does not change with it. -/
theorem freshTime_timeRuns : s.freshTime.timeRuns = s.timeRuns := rfl

theorem clocked_timeRuns (h3 : bit s.bpwr.pg 3 = true) (h2 : bit s.bpwr.pg 2 = true) (hk : s.refclkKhz.isSome = true) :
    (s.modBpwr clocked).timeRuns = true := by
  show (bit s.bpwr.pg 3 && bit s.bpwr.pg 2 && true && s.refclkKhz.isSome) = true
  rw [h3, h2, hk]
  rfl

end Starts

/-- Settles O40: each pin by what it leaves of the timekeeper, a write by its register or BASE_LOCKED, and REFCLK by the fresh
timekeeper that it starts. -/
theorem pulsesAndClockInputs : Obligations.PulsesAndClockInputs := by
  unfold Obligations.PulsesAndClockInputs
  refine ⟨fun ts s hd hr hm hset hsrc => ?_, fun s hr hl he => ?_, fun s hsrc => ?_, fun a s hm hg => ?_, fun a s hm hg => ?_,
    fun s hd hr => ?_, execPpsInEdge_only, fun s => ⟨execPpsOutPulse_only s, execPpsMiss_only s, execRefclkReturn_only s⟩,
    fun a s => ⟨execEpochBaseWrite_only a s, execRefclkWrite_only a s⟩⟩
  · have hx := execPpsInEdge_kept (ts := ts) hd hr hm hset hsrc
    refine ⟨_, hx, frame_of (execPpsInEdge_only ts s) hx, ?_, ?_⟩
    · rw [settle_now]
      rfl
    · rw [settle_time]
      rfl
  · by_cases hk : s.time.ppsLast < s.nextSecond
    · obtain ⟨rise, fall, hx⟩ := execPpsOutPulse_due hr hl he hk
      refine ⟨_, hx, onlyChanges_mono (frame_of (execPpsOutPulse_only s) hx) (by decide), ?_⟩
      change if s.time.ppsLast < s.nextSecond then _ else _
      rw [if_pos hk, settle_time, settle_now]
      exact ⟨rfl, rfl, le_max_left _ _⟩
    · have hx := execPpsOutPulse_had hk
      refine ⟨_, hx, onlyChanges_mono (frame_of (execPpsOutPulse_only s) hx) (by decide), ?_⟩
      change if s.time.ppsLast < s.nextSecond then _ else _
      rw [if_neg hk, settle_time, settle_now]
      exact ⟨rfl, rfl⟩
  · obtain ⟨n, hx⟩ := execPpsMiss_source hsrc
    refine ⟨_, hx, onlyChanges_mono (frame_of (execPpsMiss_only s) hx) (by decide), ?_, ?_⟩
    · rw [settle_hdrOf]
      exact setErr_err_bit_same _ timePage (by decide)
    · rw [settle_now]
      exact le_max_left _ _
  · obtain ⟨w1, w2, hw⟩ := freshWrite_epochBase (s := s.busyNow) (q := a.req) (w := a.data)
    refine access_ends (access_fresh_ok hm hg hw) ?_ rfl rfl ?_
    · exact writeEpochBase_only w1 w2 (by decide) (busyNow_changes s _)
    · rw [settle_hdrOf, settle_reg, respond_hdr, respond_reg]
      split_ifs with hf
      · exact writeEpochBase_free (s := s.busyNow) hf w1 w2
      · rw [writeEpochBase_locked (s := s.busyNow) hf]
        exact ⟨setErr_err_bit_same _ _ (by decide), rfl⟩
  · have hx : exec (.refclkWrite a) s = .next (((s.busyNow.touchItem 0x09).refclkWrite a.data).respond a.req .ok 0).settle :=
      congrArg finish (access_fresh_ok hm hg freshWrite_refclk)
    have hu : s.onlyChanges ((s.busyNow.touchItem 0x09).refclkWrite a.data)
        ([.power, .activity] ++ [.allHdrs, .clock, .word 0x30 0xCC, .gens]) :=
      refclkWrite_only (by decide) (touchItem_only (by decide) (busyNow_changes s _))
    refine ⟨_, hx, answered_settle ⟨[], same_of_free (p := .out) hu (by decide)⟩ (same_of_free (p := .host) hu (by decide)),
      frame_of (execRefclkWrite_only a s) hx, ?_⟩
    rw [settle_hdrOf, settle_reg, settle_time, State.regFld, settle_reg, respond_hdr, respond_reg, respond_time]
    split_ifs with h
    · rw [refclkWrite_of_bad (s := s.busyNow.touchItem 0x09) h]
      exact ⟨setErr_err_bit_same _ _ (by decide), rfl, rfl⟩
    · rw [refclkWrite_of_good (s := s.busyNow.touchItem 0x09) h, timeStart_reg, timeStart_time, State.storeWord,
        reg_setReg_same, fld_newWord_refclk]
      exact ⟨rfl, rfl⟩
  · have hx := execRefclkReturn_eq s hd hr
    refine ⟨_, hx, frame_of (execRefclkReturn_only s) hx, ?_, fun h3 h2 hk => ?_⟩
    · rw [settle_bpwr]
      split_ifs
      · rw [timeStart_bpwr]
        rfl
      · rfl
    · have hrun := clocked_timeRuns s h3 h2 hk
      rw [if_pos hrun, settle_time, settle_now, timeStart_time, timeStart_now]
      exact ⟨(freshTime_timeRuns _).trans hrun, rfl, rfl⟩

end Sys2Proof.Machine
end

section
/-!
O41 (R264, R266, R267, R269, R270): a channel's LINK_CTRL frames and its partner. What a received LINK_CTRL writes of a channel
outlasts all that the step does after it; each reason to send one appends it to the channel's own list; and a lost partner's port
trains again, so its link is not up.
-/
namespace Sys2Proof.Machine

/-! ### What an operation leaves of the channels and the ports -/

section Leaves
variable {s t : State} {l : List Part}

/-- An operation whose frame does not name the channels keeps each of them. -/
theorem chan_of_only (h : names l l = true → s.onlyChanges s l → s.onlyChanges t l) (hl : ∀ q ∈ l, q.covers .chans = false)
    (c : Nat) : t.chan c = s.chan c := congrArg (Tab.read Chan.reset · c) (same_of_only .chans h hl)

/-- An operation whose frame does not name the ports keeps each of them. -/
theorem port_of_only (h : names l l = true → s.onlyChanges s l → s.onlyChanges t l) (hl : ∀ q ∈ l, q.covers .ports = false)
    (p : Nat) : t.port p = s.port p := congrArg (Tab.read LinkPort.reset · p) (same_of_only .ports h hl)

theorem modChan_chan (s : State) (c d : Nat) (f : Chan → Chan) :
    (s.modChan c f).chan d = if d = c then f (s.chan c) else s.chan d := Tab.read_modify _ _ _ _ _

theorem modPort_port (s : State) (p q : Nat) (f : LinkPort → LinkPort) :
    (s.modPort p f).port q = if q = p then f (s.port p) else s.port q := Tab.read_modify _ _ _ _ _

@[simp] theorem modPort_chan (s : State) (p : Nat) (f : LinkPort → LinkPort) (c : Nat) : (s.modPort p f).chan c = s.chan c := rfl
@[simp] theorem portErr_chan (s : State) (p b c : Nat) : (s.portErr p b).chan c = s.chan c := rfl
@[simp] theorem moveMbox_chan (s : State) (p q c : Nat) : (s.moveMbox p q).chan c = s.chan c := rfl
@[simp] theorem advanceTo_chan (s : State) (n : FT) (c : Nat) : (s.advanceTo n).chan c = s.chan c := rfl

theorem modLinks_chan (s : State) {f : Links → Links} (hf : ∀ x, (f x).chans = x.chans) (c : Nat) :
    (s.modLinks f).chan c = s.chan c := congrArg (Tab.read Chan.reset · c) (hf s.links)

@[simp] theorem modPort_port_same (s : State) (p : Nat) (f : LinkPort → LinkPort) : (s.modPort p f).port p = f (s.port p) :=
  Tab.read_modify_same _ _ _ _

@[simp] theorem settle_port (s : State) (p : Nat) : s.settle.port p = s.port p := by rw [State.port, settle_links]; rfl

/-- Whether a link is up is its port's own state. -/
theorem linkUp_congr {p : Nat} (h : t.port p = s.port p) : t.linkUp p = s.linkUp p := by rw [State.linkUp, h]; rfl

theorem emitLanes_port (s : State) (p : Nat) (f : Nat → List Byte) (q : Nat) : (s.emitLanes p f).port q = s.port q :=
  port_of_only (fun hL ho => emitLanes_only hL ho) (by decide) q

end Leaves

/-! ### What a LINK_CTRL brings (R266, R269, R270) -/

section Heard
variable {s : State} {c : Nat}

/-- What a channel has from its partner's latest frame: the instant, and the credit counts. -/
def heardOf (x : Chan) : FT × Tab Nat := (x.heardAt, x.count)

/-- A change of a channel that leaves what its partner said leaves it on every channel. -/
theorem modChan_heard (s : State) (d : Nat) {f : Chan → Chan} (hf : ∀ x, heardOf (f x) = heardOf x) (c : Nat) :
    heardOf ((s.modChan d f).chan c) = heardOf (s.chan c) := by
  rw [modChan_chan]
  split_ifs with h
  · rw [hf, h]
  · rfl

theorem pushCtl_heard (s : State) (d : Nat) (m : LinkCtrl) (c : Nat) : heardOf ((s.pushCtl d m).chan c) = heardOf (s.chan c) :=
  modChan_heard s d (by exact fun _ => rfl) c

/-- The frames that move leave the channels they were on empty, and what these channels heard. -/
theorem moveFrames_heard (s : State) (p q : Nat) (c : Nat) : heardOf ((s.moveFrames p q).chan c) = heardOf (s.chan c) := by
  unfold State.moveFrames
  extract_lets toChan keep lost u v w chanOf
  have hw : heardOf (w.chan c) = heardOf (v.chan c) :=
    foldl_keeps (fun u : State => heardOf (u.chan c)) (fun u d => modChan_heard u d (by exact fun _ => rfl) c) _ v
  have hv : v.chan c = s.chan c := chan_of_only (t := s.retryProxies p) (fun hL ho => retryProxies_only hL ho) (by decide) c
  rw [foldl_keeps (fun u : State => heardOf (u.chan c))
    (fun u f => congrArg heardOf (chan_of_only (fun hL ho => enqueue_only hL ho) (by decide) c)), hw, hv]

/-- What follows when the traffic has moved: roles, partials, step windows and the peer. -/
theorem afterMove_chan (s : State) (c : Nat) : s.timeLinks.resendPartials.stepRetry.peerCheck.chan c = s.chan c := by
  rw [chan_of_only (fun hL ho => peerCheck_only hL ho) (by decide), chan_of_only (fun hL ho => stepRetry_only hL ho) (by decide),
    chan_of_only (fun hL ho => resendPartials_only hL ho) (by decide), chan_of_only (fun hL ho => timeLinks_only hL ho) (by decide)]

theorem setParent_chan (s : State) (q c : Nat) : (s.setParent q).chan c = s.chan c :=
  chan_of_only (fun hL ho => setParent_only hL ho) (by decide) c

theorem parentChange_heard (s : State) (q c : Nat) : heardOf ((s.parentChange q).chan c) = heardOf (s.chan c) := by
  unfold State.parentChange
  split
  · rfl
  · next p _ =>
    split_ifs
    · rfl
    · rw [afterMove_chan]
      rw [modPort_chan, modPort_chan, portErr_chan, modLinks_chan _ (by exact fun _ => rfl), setParent_chan, moveMbox_chan,
        moveFrames_heard]

theorem deposed_heard (s : State) (p c : Nat) : heardOf ((s.deposed p).chan c) = heardOf (s.chan c) := by
  unfold State.deposed
  extract_lets k
  rw [afterMove_chan]
  exact moveFrames_heard s k p c

theorem takenOver_heard (s : State) (p c : Nat) : heardOf ((s.takenOver p).chan c) = heardOf (s.chan c) := by
  unfold State.takenOver
  extract_lets moved u
  have hu : heardOf (u.chan c) = heardOf (s.chan c) :=
    (congrArg heardOf (chan_of_only (fun hL ho => holdOutputs_only hL ho) (by decide) c)).trans (parentChange_heard s p c)
  rw [← hu]
  split
  · split_ifs <;> rfl
  · rfl

theorem parentSays_heard (s : State) (p : Nat) (m : LinkCtrl) (c : Nat) :
    heardOf ((s.parentSays p m).chan c) = heardOf (s.chan c) := by
  unfold State.parentSays
  split_ifs
  · exact deposed_heard _ p c
  · rfl
  · rfl
  · exact takenOver_heard s p c
  · rfl
  · exact takenOver_heard s p c
  · split
    · exact parentChange_heard s _ c
    · rfl
  · rfl

/-- What the partner said also stands when the downlinks are told of a parent swap. -/
theorem swapDownlinks_heard (s : State) (down c : Nat) : heardOf ((s.swapDownlinks down).chan c) = heardOf (s.chan c) := by
  refine foldl_keeps (fun u : State => heardOf (u.chan c)) (fun u d => ?_) _ s
  dsimp only
  split_ifs
  · exact pushCtl_heard _ d _ c
  · rfl
  · rfl

theorem swapCheck_heard (s : State) (c : Nat) : heardOf (s.swapCheck.chan c) = heardOf (s.chan c) := by
  unfold State.swapCheck
  split
  · split_ifs
    · exact swapDownlinks_heard s _ c
    · rfl
  · rfl

theorem mirrorAcked_chan (s : State) (c : Nat) : s.mirrorAcked.chan c = s.chan c :=
  chan_of_only (fun hL ho => mirrorAcked_only hL ho) (by decide) c

theorem learnNode_chan (s : State) (p : Nat) (dst : BitVec 16) (c : Nat) : (s.learnNode p dst).chan c = s.chan c :=
  chan_of_only (fun hL ho => learnNode_only hL ho) (by decide) c

/-- The channel that has taken a LINK_CTRL at `now`. -/
def counted (now : FT) (m : LinkCtrl) (x : Chan) : Chan :=
  { x with
    heardAt := now
    count := Tab.write natZero (Tab.write natZero (Tab.write natZero x.count 2 m.crd2.toNat) 3 m.crd3.toNat) 7 m.crd7.toNat }

/-- A LINK_CTRL that names no lane swap and no NAK leaves its instant and its counts. -/
theorem linkCtrl_heard {m : LinkCtrl} (dst ack : BitVec 16) (hs : m.swap = false) (ha : m.swapAck = false) (hn : m.nak = false) :
    heardOf ((s.linkCtrl c dst ack m).chan c) = heardOf (counted s.now m (s.chan c)) := by
  have hu : heardOf ((((s.modChan c (counted s.now m)).takeAck c ack).learnNode (s.chanPort c) dst).chan c) =
      heardOf (counted s.now m (s.chan c)) := by
    rw [learnNode_chan, State.takeAck, modChan_heard _ _ (by exact fun _ => rfl), modChan_chan, if_pos rfl]
  rw [← hu]
  unfold State.linkCtrl
  simp only [hs, ha, hn, Bool.false_eq_true, if_false]
  split_ifs <;> rfl

/-- What the LINK_CTRL said outlasts the rest of its step. -/
theorem linkCtrlStep_heard {m : LinkCtrl} (dst ack : BitVec 16) (p : Nat) (hs : m.swap = false) (ha : m.swapAck = false)
    (hn : m.nak = false) : heardOf ((((s.linkCtrl c dst ack m).mirrorAcked).parentSays p m).swapCheck.chan c) =
      heardOf (counted s.now m (s.chan c)) := by
  rw [swapCheck_heard, parentSays_heard, mirrorAcked_chan, linkCtrl_heard dst ack hs ha hn]

theorem nakReset_of_not_nak {m : LinkCtrl} (hn : m.nak = false) : s.nakReset c m = s := by
  simp [State.nakReset, hn]

theorem execLinkCtrl_eq {m : LinkCtrl} (dst ack : BitVec 16) (hd : s.dark = false) (hn : m.nak = false) :
    exec (.linkCtrl c dst ack m) s =
      .next (((s.linkCtrl c dst ack m).mirrorAcked).parentSays (s.chanPort c) m).swapCheck.settle := by
  show finish _ = _
  rw [hd, nakReset_of_not_nak hn]
  rfl

end Heard

/-! ### LINK_CTRL sent for its own sake, and a replay that goes on (R264, R266, R267, R270) -/

section Sent
variable {s : State} {c : Nat}

/-- One more LINK_CTRL to send on a channel, and nothing on the others. -/
theorem pushCtl_appends (s : State) (c : Nat) (m : LinkCtrl) : ((s.pushCtl c m).settle.chan c).ctl = (s.chan c).ctl ++ [m] ∧
    ∀ d, d ≠ c → (s.pushCtl c m).settle.chan d = s.chan d := by
  simp only [settle_chan, pushCtl_chan, if_true, true_and]
  exact fun d hd => if_neg hd

theorem execAckTimer_eq (ho : (s.chan c).owesAck = true) (hg : s.ctrlGoes (s.chanPort c) = true) : exec (.ackTimer c) s =
    .next ((s.advanceTo ((s.chan c).sentAt + 200 * ns)).pushCtl c (s.linkCtrl0 (s.chanPort c))).settle :=
  congrArg finish (if_pos ⟨ho, hg⟩)

theorem execCreditReturn_eq (hu : 16 ≤ s.untold c) (hg : s.ctrlGoes (s.chanPort c) = true) :
    exec (.creditReturn c) s = .next (s.pushCtl c (s.linkCtrl0 (s.chanPort c))).settle :=
  congrArg finish (if_pos ⟨hu, hg⟩)

theorem execKeepaliveSend_eq (hg : s.ctrlGoes (s.chanPort c) = true) : exec (.keepaliveSend c) s =
    .next ((s.advanceTo ((s.chan c).sentAt + s.keepPeriod c)).pushCtl c (s.keepalive (s.chanPort c))).settle :=
  congrArg finish (if_pos hg)

/-- The channel whose wait has passed. -/
def unbusy (x : Chan) : Chan := { x with busyTo := 0 }

theorem execBusyReplay_eq (h : (s.chan c).again ≠ []) :
    exec (.busyReplay c) s = .next ((s.advanceTo (s.chan c).busyTo).modChan c unbusy).settle :=
  congrArg finish (if_neg h)

end Sent

/-! ### The start of a training, and a lost partner (R265, R270, R272, R276) -/

section Training
variable {s : State} {p : Nat}

/-- The port of a link that may not train. -/
def stopped (x : LinkPort) : LinkPort := { x with state := .down, phase := .idle }

/-- The port as its training begins. -/
def retrained (x : LinkPort) : LinkPort :=
  { x with
    state := .training, phase := .ts1, good := [], invert := 0, trained := 0, ts2Got := 0, ts2Sent := 0, aligns := 0
    swap := none, txSwap := none, badRun := 0, rxBuf := [], rxSkip := false, rx := [], txBuf := [], txStarts := []
    laneErr := [], missing := [] }

/-- A training leaves a quarantined port as it is, and starts where the port is enabled and in use. -/
theorem startTraining_port (s : State) (p : Nat) : (s.startTraining p).port p =
    if (s.port p).state = .quarantined then s.port p
    else if (bit (s.portReg p 0) 31 && !s.unusedDownlink p) = true then retrained (s.port p) else stopped (s.port p) := by
  have hgate : (!bit (s.portReg p 0) 31 || s.unusedDownlink p) = !(bit (s.portReg p 0) 31 && !s.unusedDownlink p) := by
    rw [Bool.not_and, Bool.not_not]
  unfold State.startTraining
  rw [hgate]
  by_cases hq : (s.port p).state = .quarantined
  · rw [if_pos hq, if_pos hq]
  rw [if_neg hq, if_neg hq]
  cases bit (s.portReg p 0) 31 && !s.unusedDownlink p
  · rw [if_pos (Bool.not_false), if_neg Bool.false_ne_true]
    exact modPort_port_same s p stopped
  · rw [if_neg (by decide), if_pos rfl, ← modPort_port_same s p retrained]
    extract_lets u
    split
    · exact emitLanes_port u p _ p
    · split_ifs
      · exact foldl_keeps (fun v : State => v.port p) (by exact fun _ _ => rfl) _ u
      · rfl
    · rfl

/-- No link is up as its training starts. -/
theorem startTraining_linkUp (s : State) (p : Nat) : (s.startTraining p).linkUp p = false := by
  rw [State.linkUp, startTraining_port]
  split_ifs with hq
  · rw [hq]
    rfl
  · rfl
  · rfl

/-- A link reset ends with the port's training. -/
theorem linkReset_linkUp (s : State) (p q : Nat) : (s.linkReset p q).linkUp p = false := startTraining_linkUp _ p

/-- An operation that leaves the ports leaves each link up or not. -/
theorem linkUp_of_only {t : State} {l : List Part} (h : names l l = true → s.onlyChanges s l → s.onlyChanges t l)
    (hl : ∀ q ∈ l, q.covers .ports = false) (p : Nat) : t.linkUp p = s.linkUp p := linkUp_congr (port_of_only h hl p)

/-- Whatever hangs on a link that is gone, its port is not up (R265, R270). -/
theorem portGone_linkUp (s : State) {p : Nat} (hp : p < 32) (lost : Bool) : (s.portGone p lost).linkUp p = false := by
  unfold State.portGone
  extract_lets parent u1 u2 u3 u4 u5 u6
  have h2 : u2.linkUp p = false := by
    rw [show u2 = u1 from if_neg fun h => by omega]
    exact linkReset_linkUp s p p
  have h3 : u3.linkUp p = false := by
    rw [linkUp_of_only (fun hL ho => snuffPortLost_only hL ho) (by decide),
      linkUp_of_only (fun hL ho => timePortLost_only hL ho) (by decide), h2]
  have h4 : u4.linkUp p = false := by
    by_cases hc : u3.linkKind p = 0 ∧ (u3.port p).active = false ∧ (u3.port p).state ≠ .quarantined
    · rw [show u4 = u3.modPort p stopped from if_pos hc, State.linkUp, modPort_port_same]
      rfl
    · rw [show u4 = u3 from if_neg hc, h3]
  have h5 : u5.linkUp p = false := by
    unfold u5
    split_ifs
    · rw [linkUp_of_only (fun hL ho => holdOutputs_only hL ho) (by decide), h4]
    · exact h4
  have h6 : u6.linkUp p = false := by
    unfold u6
    split
    · split_ifs
      · rw [linkUp_of_only (fun hL ho => mirrorLost_only hL ho) (by decide), h5]
      · exact h5
    · exact h5
  split_ifs
  · omega
  · omega
  · exact h6
  · rw [linkUp_of_only (fun hL ho => replaceTray_only hL ho) (by decide), h6]
  · exact h6

theorem execPartnerLost_eq (hp : p < 9) (hu : s.linkUp p = true) :
    exec (.partnerLost p true) s = .next (s.portGone p true).settle := by
  have hc : s.chanPort p = p := if_neg (by omega)
  have hup : (s.linkUp (s.chanPort p) || decide ((s.port (s.chanPort p)).state = .quarantined)) = true := by
    rw [hc, hu, Bool.true_or]
  refine congrArg finish ((if_pos hup).trans ?_)
  rw [hc]
  rfl

end Training

/-- Settles O41: what a LINK_CTRL says of its channel is kept through the rest of the step, the three senders each append theirs,
and the lost partner's port is left by the training that starts. -/
theorem linkControlKeepsChannelsAlive : Obligations.LinkControlKeepsChannelsAlive := by
  unfold Obligations.LinkControlKeepsChannelsAlive
  refine ⟨fun c dst ack m s hd hs ha hn _ _ => ?_, fun c s ho hg => ?_, fun c s hu hg => ?_, fun c s hg => ?_,
    fun c s _ hc hu _ _ => ?_, fun c s h => ?_, execLinkCtrl_only, fun c s => ⟨execAckTimer_only c s, execCreditReturn_only c s,
      execKeepaliveSend_only c s, execBusyReplay_only c s⟩, execPartnerLost_only⟩
  · have hx := execLinkCtrl_eq (c := c) dst ack hd hn
    refine ⟨_, hx, frame_of (execLinkCtrl_only c dst ack m s) hx, ?_⟩
    rw [settle_chan]
    obtain ⟨hat, hcount⟩ := Prod.mk.inj (linkCtrlStep_heard dst ack (s.chanPort c) hs ha hn)
    rw [hat, hcount]
    simp [counted, Tab.read_write]
  · have hx := execAckTimer_eq ho hg
    exact ⟨_, hx, onlyChanges_mono (frame_of (execAckTimer_only c s) hx) (by decide), by rw [settle_now]; rfl,
      pushCtl_appends _ c _⟩
  · have hx := execCreditReturn_eq hu hg
    exact ⟨_, hx, onlyChanges_mono (frame_of (execCreditReturn_only c s) hx) (by decide), pushCtl_appends s c _⟩
  · have hx := execKeepaliveSend_eq hg
    exact ⟨_, hx, onlyChanges_mono (frame_of (execKeepaliveSend_only c s) hx) (by decide), by rw [settle_now]; rfl,
      pushCtl_appends _ c _⟩
  · have hx := execPartnerLost_eq hc hu
    refine ⟨_, hx, frame_of (execPartnerLost_only c true s) hx, ?_⟩
    rw [linkUp_congr (settle_port _ c), portGone_linkUp s (by omega) true]
  · have hx := execBusyReplay_eq h
    refine ⟨_, hx, onlyChanges_mono (frame_of (execBusyReplay_only c s) hx) (by decide), by rw [settle_now]; rfl, ?_,
      fun d hd => ?_⟩
    · rw [settle_chan, modChan_chan, if_pos rfl]
      rfl
    · rw [settle_chan, modChan_chan, if_neg hd]
      rfl

end Sys2Proof.Machine
end

section
/-!
O42 (R271, R272, R276): training. Each block that comes changes its own lane's count of the port that trains; an attempt ends as a
fresh one, as FAILED, or with the port UP; and a package link follows its adapter.
-/
namespace Sys2Proof.Machine

/-! ### TS1 (R276) -/

section Ts1
variable {lanes : List (List Byte)} {x : LinkPort} {l : Nat}

/-- The block of lane `l`, empty where none came, in its true polarity. -/
def ts1Block (lanes : List (List Byte)) (l : Nat) : List Byte :=
  if decide (leAt ((lanes[l]?).getD []) 0 1 = 0x5A) then ((lanes[l]?).getD []).map (~~~ ·) else (lanes[l]?).getD []

/-- The block is a good TS1 of its lane. -/
def ts1Good (lanes : List (List Byte)) (l : Nat) : Bool :=
  decide ((ts1Block lanes l).length = 16) && decide (leAt (ts1Block lanes l) 0 1 = 0xA5) &&
    decide (leAt (ts1Block lanes l) 1 1 = l) && decide (leAt (ts1Block lanes l) 2 1 / 16 = 1)

/-- The consecutive good blocks of a lane, with the one that has come. -/
def ts1Count (lanes : List (List Byte)) (x : LinkPort) (l : Nat) : Nat :=
  if ts1Good lanes l then Tab.read natZero x.good l + 1 else 0

/-- The port that has taken the block of lane `l`. -/
def ts1Taken (lanes : List (List Byte)) (x : LinkPort) (l : Nat) : LinkPort :=
  let b := ts1Block lanes l
  let ok := ts1Good lanes l
  let g := ts1Count lanes x l
  let fl := BitVec.ofNat 8 (leAt b 3 1)
  { x with
    good := Tab.write natZero x.good l g
    invert := if ok then setBit x.invert l (decide (leAt ((lanes[l]?).getD []) 0 1 = 0x5A)) else x.invert
    trained := if 64 ≤ g then setBit x.trained l true else x.trained
    agg := if ok then bit fl 0 else x.agg, primary := if ok then bit fl 1 else x.primary
    peer := if ok then BitVec.ofNat 16 (leAt b 4 2) else x.peer
    txMap := if ok then { x.txMap with failed := BitVec.ofNat 5 (leAt b 6 1) } else x.txMap }

theorem ts1Taken_good (lanes : List (List Byte)) (x : LinkPort) (l k : Nat) :
    Tab.read natZero (ts1Taken lanes x l).good k = if k = l then ts1Count lanes x l else Tab.read natZero x.good k :=
  Tab.read_write _ _ _ _ _

/-- A lane that has trained stays so. -/
theorem ts1Taken_trained {k : Nat} (h : bit x.trained k = true) : bit (ts1Taken lanes x l).trained k = true := by
  show bit (if 64 ≤ ts1Count lanes x l then _ else _) k = true
  split_ifs
  · exact bit_setBit_of_bit l h
  · exact h

/-- 64 good blocks train their lane. -/
theorem ts1Taken_trains (hl : l < 5) (h : 64 ≤ ts1Count lanes x l) : bit (ts1Taken lanes x l).trained l = true := by
  show bit (if 64 ≤ ts1Count lanes x l then _ else _) l = true
  rw [if_pos h, bit_setBit_same _ hl]

/-- The blocks of other lanes leave a lane's count, and its training. -/
theorem foldl_ts1Taken_other {ls : List Nat} (hl : l ∉ ls) (x : LinkPort) :
    Tab.read natZero (ls.foldl (ts1Taken lanes) x).good l = Tab.read natZero x.good l ∧
      (bit x.trained l = true → bit (ls.foldl (ts1Taken lanes) x).trained l = true) := by
  induction ls generalizing x with
  | nil => exact ⟨rfl, id⟩
  | cons k ls ih =>
    obtain ⟨hk, hls⟩ := not_or.mp (List.mem_cons.not.mp hl)
    obtain ⟨hgood, htrained⟩ := ih hls (ts1Taken lanes x k)
    exact ⟨hgood.trans (by rw [ts1Taken_good, if_neg hk]), fun h => htrained (ts1Taken_trained h)⟩

/-- Of the blocks that come together, each counts for its own lane. -/
theorem foldl_ts1Taken {ls : List Nat} (hd : ls.Nodup) (hl : l ∈ ls) (h5 : l < 5) (x : LinkPort) :
    Tab.read natZero (ls.foldl (ts1Taken lanes) x).good l = ts1Count lanes x l ∧
      (64 ≤ ts1Count lanes x l → bit (ls.foldl (ts1Taken lanes) x).trained l = true) := by
  induction ls generalizing x with
  | nil => cases hl
  | cons k ls ih =>
    obtain ⟨hk, hd⟩ := List.nodup_cons.mp hd
    by_cases he : l = k
    · subst he
      obtain ⟨hgood, htrained⟩ := foldl_ts1Taken_other (lanes := lanes) hk (ts1Taken lanes x l)
      exact ⟨hgood.trans (by rw [ts1Taken_good, if_pos rfl]), fun h => htrained (ts1Taken_trains h5 h)⟩
    · have hcount : ts1Count lanes (ts1Taken lanes x k) l = ts1Count lanes x l := by
        rw [ts1Count, ts1Taken_good, if_neg he]
        rfl
      rw [← hcount]
      exact ih hd ((List.mem_cons.mp hl).resolve_left he) _

/-- Where no block came, none is good. -/
theorem ts1Count_of_empty (h : (lanes[l]?).getD [] = []) : ts1Count lanes x l = 0 := by
  have hb : ts1Good lanes l = false := by simp [ts1Good, ts1Block, h]
  rw [ts1Count, hb]
  rfl

/-- A good block in true polarity counts. -/
theorem ts1Count_of_good {b : List Byte} (hb : b ∈ lanes[l]?) (hn : b.length = 16) (h0 : leAt b 0 1 = 0xA5) (h1 : leAt b 1 1 = l)
    (h2 : leAt b 2 1 / 16 = 1) : ts1Count lanes x l = Tab.read natZero x.good l + 1 := by
  have hget : (lanes[l]?).getD [] = b := by rw [Option.mem_def.mp hb]; rfl
  have hblock : ts1Block lanes l = b := by rw [ts1Block, hget, h0]; rfl
  have hgood : ts1Good lanes l = true := by simp [ts1Good, hblock, hn, h0, h1, h2]
  rw [ts1Count, hgood]
  rfl

/-- Changes of one port, one after the other. -/
theorem foldl_modPort_port {α : Type} (f : LinkPort → α → LinkPort) (l : List α) (s : State) (p : Nat) :
    (l.foldl (fun u a => u.modPort p fun x => f x a) s).port p = l.foldl f (s.port p) := by
  induction l generalizing s with
  | nil => rfl
  | cons a l ih => rw [List.foldl_cons, ih, modPort_port_same]; rfl

theorem foldl_ts1Taken_phase (ls : List Nat) (x : LinkPort) : (ls.foldl (ts1Taken lanes) x).phase = x.phase := by
  induction ls generalizing x with
  | nil => rfl
  | cons k ls ih => rw [List.foldl_cons, ih]; rfl

/-- The state whose port has taken the five lanes' blocks. -/
def State.ts1In (s : State) (p : Nat) (lanes : List (List Byte)) : State :=
  (List.range 5).foldl (fun u l => u.modPort p fun x => ts1Taken lanes x l) s

theorem ts1In_port (s : State) (p : Nat) (lanes : List (List Byte)) :
    (s.ts1In p lanes).port p = (List.range 5).foldl (ts1Taken lanes) (s.port p) := foldl_modPort_port (ts1Taken lanes) _ s p

/-- The port that sends TS2. -/
def inTs2 (x : LinkPort) : LinkPort := { x with phase := .ts2 }

/-- With four lanes trained the port goes on to TS2. -/
def State.ts1Out (u : State) (p : Nat) : State :=
  if 4 ≤ ((List.range 5).filter fun l => bit (u.port p).trained l).length then
    (u.modPort p inTs2).emitLanes p (u.tsBlock p true)
  else u

theorem execTrainTs1_eq {s : State} {p : Nat} (lanes : List (List Byte)) (hk : s.linkKind p = 1)
    (ht : (s.port p).state = .training) (hp : (s.port p).phase = .ts1) :
    exec (.trainTs1 p lanes) s = .next ((s.ts1In p lanes).ts1Out p).settle :=
  congrArg finish (if_pos ⟨hk, ht, hp⟩)

theorem ts1Out_port (u : State) (p : Nat) : (u.ts1Out p).port p =
    if 4 ≤ ((List.range 5).filter fun l => bit (u.port p).trained l).length then inTs2 (u.port p) else u.port p := by
  unfold State.ts1Out
  split_ifs
  · rw [emitLanes_port, modPort_port_same]
  · rfl

theorem ts1Out_good (u : State) (p : Nat) : ((u.ts1Out p).port p).good = (u.port p).good := by
  rw [ts1Out_port]
  split_ifs <;> rfl

theorem ts1Out_trained (u : State) (p : Nat) : ((u.ts1Out p).port p).trained = (u.port p).trained := by
  rw [ts1Out_port]
  split_ifs <;> rfl

theorem ts1Out_phase {u : State} {p : Nat} (h : (u.port p).phase = .ts1) : ((u.ts1Out p).port p).phase =
    if 4 ≤ ((List.range 5).filter fun l => bit (u.port p).trained l).length then .ts2 else .ts1 := by
  rw [ts1Out_port]
  split_ifs
  · rfl
  · exact h

theorem ts1In_phase (s : State) (p : Nat) (lanes : List (List Byte)) : ((s.ts1In p lanes).port p).phase = (s.port p).phase := by
  rw [ts1In_port, foldl_ts1Taken_phase]

/-- Each lane's count after the blocks, and its training (R276). -/
theorem ts1In_lane (s : State) (p : Nat) (lanes : List (List Byte)) {l : Nat} (hl : l < 5) :
    Tab.read natZero ((s.ts1In p lanes).port p).good l = ts1Count lanes (s.port p) l ∧
      (64 ≤ ts1Count lanes (s.port p) l → bit ((s.ts1In p lanes).port p).trained l = true) := by
  rw [ts1In_port]
  exact foldl_ts1Taken List.nodup_range (List.mem_range.mpr hl) hl _

end Ts1

/-! ### TS2 and ALIGN (R272, R276) -/

section Ts2
variable {s : State} {p : Nat}

/-- The port that has taken a TS2 block. -/
def ts2Taken (failed : BitVec 5) (x : LinkPort) : LinkPort :=
  { x with ts2Got := x.ts2Got + 1, ts2Sent := x.ts2Sent + 1, txMap := { x.txMap with failed } }

/-- The port whose codeword stream starts. -/
def streaming (x : LinkPort) : LinkPort := { x with phase := .stream, rxPair := 0, txPair := 0 }

/-- With 16 blocks received and 16 sent the codeword stream starts. -/
def State.ts2Out (u : State) (p : Nat) : State :=
  if 16 ≤ (u.port p).ts2Got ∧ 16 ≤ (u.port p).ts2Sent then (u.modPort p streaming).emitMarkers p else u

theorem execTrainTs2_eq (failed : BitVec 5) (hk : s.linkKind p = 1) (ht : (s.port p).state = .training)
    (hp : (s.port p).phase = .ts2) :
    exec (.trainTs2 { port := p, failed }) s = .next ((s.modPort p (ts2Taken failed)).ts2Out p).settle :=
  congrArg finish (if_pos ⟨hk, ht, hp⟩)

theorem ts2Out_port (u : State) (p : Nat) : (u.ts2Out p).port p =
    if 16 ≤ (u.port p).ts2Got ∧ 16 ≤ (u.port p).ts2Sent then streaming (u.port p) else u.port p := by
  unfold State.ts2Out
  split_ifs
  · rw [State.emitMarkers, emitLanes_port, modPort_port_same]
  · rfl

/-- The port that has seen one more ALIGN chunk. -/
def aligned (x : LinkPort) : LinkPort := { x with aligns := x.aligns + 1 }

theorem execUcieAlign_eq (hk : s.linkKind p = 0) (ht : (s.port p).state = .training) (ha : (s.port p).active = true) :
    exec (.ucieAlign p (List.replicate 64 0xA5)) s = .next (s.modPort p aligned).settle :=
  congrArg finish ((if_pos ⟨hk, ht, ha⟩).trans (if_pos rfl))

end Ts2

/-! ### An attempt that runs out of time, and a port that comes up (R276) -/

section Ends
variable {s : State} {p : Nat}

/-- The commands that waited for something end, and no port changes. -/
theorem completes_port (l : List (Bool × Nat)) (st : Byte) (d : Nat) (s : State) (q : Nat) :
    (l.foldl (fun u w => u.complete w.1 w.2 st d) s).port q = s.port q :=
  foldl_keeps (fun u : State => u.port q) (by exact fun _ _ => rfl) l s

theorem completes_fum (l : List (Bool × Nat)) (st : Byte) (d : Nat) (s : State) :
    (l.foldl (fun u w => u.complete w.1 w.2 st d) s).fum = s.fum := foldl_keeps State.fum (by exact fun _ _ => rfl) l s

/-- A training that starts, where its port is enabled and in use, or not, is of the same attempt and under the same adapter. -/
theorem startTraining_shows (hq : (s.port p).state ≠ .quarantined) : ((s.startTraining p).port p).state =
      (if bit (s.portReg p 0) 31 && !s.unusedDownlink p then .training else .down) ∧
    ((s.startTraining p).port p).attempts = (s.port p).attempts ∧ ((s.startTraining p).port p).active = (s.port p).active := by
  rw [startTraining_port, if_neg hq]
  split_ifs <;> exact ⟨rfl, rfl, rfl⟩

theorem startTraining_of_quarantined (hq : (s.port p).state = .quarantined) : s.startTraining p = s := if_pos hq

/-- The port whose training has failed. -/
def failedPort (x : LinkPort) : LinkPort := { x with state := .failed, phase := .idle }

/-- The port in its next attempt. -/
def nextAttempt (x : LinkPort) : LinkPort := { x with attempts := x.attempts + 1 }

/-- The eighth attempt was the last. -/
theorem execTrainTimeout_failed (ht : (s.port p).state = .training) (ha : 8 ≤ (s.port p).attempts) :
    exec (.trainTimeout p) s = .next
      (let u := (s.modPort p failedPort).linkLog p 0x0002 6 (s.port p).attempts (s.port p).trained.toNat
       (u.resetWaiters p).foldl (fun v w => v.complete w.1 w.2 stTimeout 0) u).settle :=
  congrArg finish ((if_pos ht).trans (if_pos ha))

theorem execTrainTimeout_again (ht : (s.port p).state = .training) (ha : ¬8 ≤ (s.port p).attempts) :
    exec (.trainTimeout p) s = .next ((s.modPort p nextAttempt).startTraining p).settle :=
  congrArg finish ((if_pos ht).trans (if_neg ha))

/-- What a port shows of its trainings: its state, how often it came up, and the attempts. -/
def trainingOf (x : LinkPort) : PortState × Nat × Nat := (x.state, x.trains, x.attempts)

theorem modPort_trainingOf (s : State) (q : Nat) {f : LinkPort → LinkPort} (hf : ∀ x, trainingOf (f x) = trainingOf x)
    (p : Nat) : trainingOf ((s.modPort q f).port p) = trainingOf (s.port p) := by
  rw [modPort_port]
  split_ifs with h
  · rw [hf, h]
  · rfl

/-- A MARKER enters queues. -/
theorem markerOn_trainingOf (s : State) (b : Bcast) (q p : Nat) :
    trainingOf ((s.markerOn b q).port p) = trainingOf (s.port p) :=
  foldl_keeps (fun u : State => trainingOf (u.port p))
    (by exact fun u c => modPort_trainingOf u q (by exact fun _ => rfl) p) _ s

theorem snuffLinkUp_trainingOf (s : State) (q p : Nat) : trainingOf ((s.snuffLinkUp q).port p) = trainingOf (s.port p) := by
  unfold State.snuffLinkUp
  split_ifs
  · exact (markerOn_trainingOf _ _ q p).trans
      (congrArg trainingOf (port_of_only (fun hL ho => markerBcast_only hL ho) (by decide) p))
  · rfl

/-- A port that comes up is UP, or STANDBY. -/
theorem upState_cases (s : State) (p : Nat) : s.upState p = .up ∨ s.upState p = .standby := by
  unfold State.upState
  split_ifs <;> simp

/-- What hangs on a link that has come up leaves what its port shows of its trainings. -/
theorem afterUp_trainingOf (s : State) (q p : Nat) :
    trainingOf (((((s.timeLinks.bcastRepair q).snuffLinkUp q).peerCheck).redFlush).port p) = trainingOf (s.port p) := by
  rw [port_of_only (fun hL ho => redFlush_only hL ho) (by decide), port_of_only (fun hL ho => peerCheck_only hL ho) (by decide),
    snuffLinkUp_trainingOf, port_of_only (fun hL ho => bcastRepair_only hL ho) (by decide),
    port_of_only (fun hL ho => timeLinks_only hL ho) (by decide)]

/-- The port that has come up counts the training, and its attempts start afresh. -/
theorem linkGoesUp_trainingOf (s : State) (p : Nat) : ∃ v : PortState, (v = .up ∨ v = .standby) ∧
    trainingOf ((s.linkGoesUp p).port p) = (v, satAdd 8 (s.port p).trains 1, 0) := by
  unfold State.linkGoesUp
  extract_lets u1 u2 u3 u4 die pkg u5 u6 u7
  have h1 : trainingOf (u1.port p) = ((s.port p).state, satAdd 8 (s.port p).trains 1, 0) :=
    congrArg trainingOf (modPort_port_same s p _)
  have h2 : u2.port p = u1.port p := by
    unfold u2
    split_ifs <;> rfl
  have h3 : trainingOf (u3.port p) = (u2.upState p, satAdd 8 (s.port p).trains 1, 0) := by
    obtain ⟨-, hrest⟩ := Prod.mk.inj h1
    rw [← h2] at hrest
    exact (congrArg trainingOf (modPort_port_same u2 p _)).trans (congrArg (Prod.mk _) hrest)
  have h4 : u4.port p = u3.port p := foldl_keeps (fun u : State => u.port p) (by exact fun _ _ => rfl) _ u3
  have h5 : u5.port p = u4.port p := by
    unfold u5
    split_ifs <;> rfl
  have h6 : u6.port p = u5.port p := by
    unfold u6
    split_ifs <;> rfl
  refine ⟨u2.upState p, upState_cases u2 p, ?_⟩
  rw [completes_port, afterUp_trainingOf, h6, h5, h4, h3]

theorem execLinkUp_eq (h : s.trainedUp p = true) : exec (.linkUp p) s = .next (s.linkGoesUp p).settle :=
  congrArg finish (if_pos h)

end Ends

/-! ### The adapter of a package link (R271) -/

section Adapter
variable {s : State} {p : Nat}

/-- The port as its adapter reports it. -/
def reported (b : Bool) (x : LinkPort) : LinkPort := { x with active := b }

/-- The port in the first attempt of a training. -/
def firstAttempt (x : LinkPort) : LinkPort := { x with attempts := 1 }

/-- A link that was not up and is active now trains. -/
theorem execUcieActiveChange_on (hk : s.linkKind p = 0) (hd : s.isDie = true) (hp : p < 7) (hu : s.linkUp p = false) :
    exec (.ucieActiveChange p true) s =
      .next (((s.modPort p (reported true)).modPort p firstAttempt).startTraining p).settle := by
  refine congrArg finish ((if_pos ⟨hk, hd, hp⟩).trans ?_)
  rw [hu]
  rfl

/-- A link that was not up and is not active either is DOWN, but for a quarantined one. -/
theorem execUcieActiveChange_off (hk : s.linkKind p = 0) (hd : s.isDie = true) (hp : p < 7) (hu : s.linkUp p = false) :
    exec (.ucieActiveChange p false) s = .next (if ((s.modPort p (reported false)).port p).state = .quarantined then
      s.modPort p (reported false) else (s.modPort p (reported false)).modPort p stopped).settle := by
  refine congrArg finish ((if_pos ⟨hk, hd, hp⟩).trans ?_)
  rw [hu]
  rfl

theorem unusedDownlink_of_isDie (h : s.isDie = true) (p : Nat) : s.unusedDownlink p = false := by
  rw [State.unusedDownlink, isSystem_of_isDie h]
  rfl

/-- Where the spare map has room, an entry joins it (R220). -/
theorem spareAdd_of_room (k c i d : Nat) (h : s.check.spare.length < (s.reg (pg 0x12) 0x40).toNat) :
    ∃ e : SpareEntry, (s.spareAdd k c i d).check.spare = s.check.spare ++ [e] ∧ e.kind = k ∧ e.cause = c ∧
      e.index = BitVec.ofNat 16 i :=
  ⟨_, congrArg (fun u : State => u.check.spare) (if_neg (not_le.mpr h)), rfl, rfl, rfl⟩

theorem execUcieRepair_eq (lane : Nat) (hk : s.linkKind p = 0) (hd : s.isDie = true) :
    exec (.ucieRepair p lane) s = .next (s.spareAdd 5 9 lane (256 * p)).settle := congrArg finish (if_pos ⟨hk, hd⟩)

end Adapter

/-- Settles O42: each training step by the port that it leaves, an attempt's end by the port or its next training, and a repair by
its spare entry. -/
theorem linksTrainAndComeUp : Obligations.LinksTrainAndComeUp := by
  unfold Obligations.LinksTrainAndComeUp
  refine ⟨fun p lanes s hk ht hp => ?_, fun p failed s hk ht hp => ?_, fun p s ht => ?_, fun p s h => ?_, fun p s hk ht ha => ?_,
    fun p s hk hd hp hu => ?_, fun p lane s hk hd hr => ?_, execTrainTs1_only, execTrainTs2_only,
    fun p s => ⟨execTrainTimeout_only p s, execLinkUp_only p s⟩, execUcieAlign_only, execUcieActiveChange_only,
    execUcieRepair_only⟩
  · have hx := execTrainTs1_eq lanes hk ht hp
    refine ⟨_, hx, onlyChanges_mono (frame_of (execTrainTs1_only p lanes s) hx) (by decide), ?_⟩
    rw [settle_port, ts1Out_good, ts1Out_trained, ts1Out_phase ((ts1In_phase s p lanes).trans hp)]
    refine ⟨fun l hl he => (ts1In_lane s p lanes hl).1.trans (ts1Count_of_empty he), fun l hl b hb hn h0 h1 h2 => ?_, rfl⟩
    obtain ⟨hcount, hbit⟩ := ts1In_lane s p lanes hl
    exact ⟨hcount.trans (ts1Count_of_good hb hn h0 h1 h2), fun h => hbit (hcount ▸ h)⟩
  · have hx := execTrainTs2_eq failed hk ht hp
    refine ⟨_, hx, onlyChanges_mono (frame_of (execTrainTs2_only _ s) hx) (by decide), ?_⟩
    rw [settle_port, ts2Out_port, modPort_port_same]
    change _ ∧ _ ∧ _ ∧
      _ = if 16 ≤ (ts2Taken failed (s.port p)).ts2Got ∧ 16 ≤ (ts2Taken failed (s.port p)).ts2Sent then _ else _
    split_ifs
    · exact ⟨rfl, rfl, rfl, rfl⟩
    · exact ⟨rfl, rfl, rfl, hp⟩
  · by_cases ha : 8 ≤ (s.port p).attempts
    · have hx := execTrainTimeout_failed ht ha
      refine ⟨_, hx, frame_of (execTrainTimeout_only p s) hx, ?_⟩
      rw [if_pos ha, settle_port, settle_fum, completes_port, completes_fum,
        port_of_only (fun hL ho => linkLog_only hL ho) (by decide), modPort_port_same]
      exact ⟨rfl, logRec_fum_seq _ _ _ _ _ _ _ _⟩
    · have hx := execTrainTimeout_again ht ha
      have hport : (s.modPort p nextAttempt).port p = nextAttempt (s.port p) := modPort_port_same s p _
      have hnext : ((s.modPort p nextAttempt).port p).state = .training := by rw [hport]; exact ht
      obtain ⟨hstate, hattempts, -⟩ := startTraining_shows (s := s.modPort p nextAttempt) (p := p) (by rw [hnext]; decide)
      refine ⟨_, hx, frame_of (execTrainTimeout_only p s) hx, ?_⟩
      rw [if_neg ha, settle_port, hattempts, hport]
      exact ⟨rfl, hstate⟩
  · have hx := execLinkUp_eq h
    obtain ⟨v, hv, htr⟩ := linkGoesUp_trainingOf s p
    obtain ⟨hstate, hrest⟩ := Prod.mk.inj htr
    obtain ⟨htrains, hattempts⟩ := Prod.mk.inj hrest
    refine ⟨_, hx, frame_of (execLinkUp_only p s) hx, ?_, ?_, ?_⟩
    · rw [linkUp_congr (settle_port _ p), State.linkUp, hstate]
      rcases hv with rfl | rfl <;> rfl
    · rw [settle_port, htrains]
    · rw [settle_port, hattempts]
  · have hx := execUcieAlign_eq hk ht ha
    refine ⟨_, hx, onlyChanges_mono (frame_of (execUcieAlign_only p _ s) hx) (by decide), ?_⟩
    rw [settle_port, modPort_port_same]
    exact ⟨rfl, rfl⟩
  · have hon := execUcieActiveChange_on hk hd hp hu
    have hoff := execUcieActiveChange_off hk hd hp hu
    have fon := frame_of (execUcieActiveChange_only p true s) hon
    have foff := frame_of (execUcieActiveChange_only p false s) hoff
    have hport : (s.modPort p (reported false)).port p = reported false (s.port p) := modPort_port_same s p _
    have hfirst : ((s.modPort p (reported true)).modPort p firstAttempt).port p = firstAttempt (reported true (s.port p)) := by
      rw [modPort_port_same, modPort_port_same]
    by_cases hq : (s.port p).state = .quarantined
    · rw [if_pos hq]
      rintro (_ | _)
      · refine ⟨_, hoff, foff, ?_⟩
        rw [hport, if_pos (show (reported false (s.port p)).state = _ from hq), settle_port, hport]
        exact ⟨hq, rfl⟩
      · refine ⟨_, hon, fon, ?_⟩
        rw [startTraining_of_quarantined (by rw [hfirst]; exact hq), settle_port, hfirst]
        exact ⟨hq, rfl⟩
    · rw [if_neg hq]
      refine ⟨⟨_, hoff, foff, ?_⟩, _, hon, fon, ?_⟩
      · rw [hport, if_neg (show (reported false (s.port p)).state ≠ _ from hq), settle_port, modPort_port_same, hport]
        exact ⟨rfl, rfl⟩
      · obtain ⟨hstate, -, hactive⟩ := startTraining_shows (s := (s.modPort p (reported true)).modPort p firstAttempt) (p := p)
          (by rw [hfirst]; exact hq)
        rw [settle_port, hactive, hstate, hfirst, unusedDownlink_of_isDie (by exact hd), Bool.not_false, Bool.and_true]
        exact ⟨rfl, rfl⟩
  · have hx := execUcieRepair_eq lane hk hd
    refine ⟨_, hx, frame_of (execUcieRepair_only p lane s) hx, ?_⟩
    rw [settle_check]
    exact spareAdd_of_room 5 9 lane _ hr

end Sys2Proof.Machine
end

section
/-!
O46 (R304, R305, R309, R311, R312, R315): the blocks of the Sinter codec and its two commands. What a block does after it has left
its queue changes neither the queues nor what a channel has freed; and a command that finds its engine free holds it from then on.
-/
namespace Sys2Proof.Machine

/-! ### What an operation leaves of the codec -/

section Leaves
variable {s t : State} {l : List Part}

/-- An operation whose frame does not name the codec keeps its queues and its engines. -/
theorem sinter_of_only (h : names l l = true → s.onlyChanges s l → s.onlyChanges t l)
    (hl : ∀ q ∈ l, q.covers .sinter = false) : t.sinter = s.sinter := same_of_only .sinter h hl

@[simp] theorem szWrote_sinter (s : State) (n : Nat) (b : List Byte) (raw : Bool) : (s.szWrote n b raw).2.sinter = s.sinter :=
  sinter_of_only (fun hL ho => szWrote_only hL ho) (by decide)

@[simp] theorem szEmit_sinter (s : State) (w : EncWork) : (s.szEmit w).sinter = s.sinter :=
  sinter_of_only (fun hL ho => szEmit_only hL ho) (by decide)

@[simp] theorem szReject_sinter (s : State) (k cls src : Nat) (b : List Byte) : (s.szReject k cls src b).sinter = s.sinter :=
  sinter_of_only (fun hL ho => szReject_only hL ho) (by decide)

@[simp] theorem violate_sinter (s : State) (p : PortId) (k : Nat) (b : List Byte) (n : Bool) :
    (s.violate p k b n).sinter = s.sinter :=
  sinter_of_only (fun hL ho => violate_only hL ho) (by decide)

@[simp] theorem szGather_sinter (s : State) (w : DecWork) (d : Option (List Byte)) : (s.szGather w d).sinter = s.sinter :=
  sinter_of_only (fun hL ho => szGather_only hL ho) (by decide)

@[simp] theorem cmdXfer_sinter (s : State) (g : Bool) (n : Nat) (wr : Bool) (a len : Nat) (d : List Byte) :
    (s.cmdXfer g n wr a len d).sinter = s.sinter :=
  sinter_of_only (fun hL ho => cmdXfer_only hL ho) (by decide)

@[simp] theorem badArg_sinter (s : State) (c : CmdIn) : (s.badArg c).sinter = s.sinter := rfl
@[simp] theorem failCmd_sinter (s : State) (c : CmdIn) (d : Nat) : (s.failCmd c d).sinter = s.sinter := rfl
@[simp] theorem waitFor_sinter (s : State) (c : CmdIn) (w : Wait) : (s.waitFor c w).sinter = s.sinter := rfl

end Leaves

/-! ### The compressor (R304, R307) -/

theorem length_modNth {α : Type} (i : Nat) (f : α → α) (l : List α) : (modNth i f l).length = l.length := by
  induction l generalizing i with
  | nil => rw [modNth]
  | cons x xs ih =>
    cases i with
    | zero => simp [modNth]
    | succ j => simp [modNth, ih]

/-- An injected body bit changes no length (R68, R316). -/
theorem szWrote_length (s : State) (n : Nat) (b : List Byte) (raw : Bool) : (s.szWrote n b raw).1.length = b.length := by
  unfold State.szWrote
  extract_lets counted u inj
  show (if inj.1 then modNth 4 (· ^^^ 1) b else b).length = _
  split_ifs
  · exact length_modNth _ _ _
  · rfl

section Encode
variable {s : State} {w : EncWork} {rest : List EncWork}

/-- The next block of a message as it leaves the compressor, and the state that has counted it. -/
def State.frontBlock (s : State) (w : EncWork) : List Byte × State :=
  s.szWrote (szFrameBlock w.rest).2.1 (szFrameBlock w.rest).1 (szFrameBlock w.rest).2.2

/-- A message with one block more formed. -/
def formed (b : List Byte) (w : EncWork) : EncWork :=
  { w with rest := w.rest.drop (szFrameBlock w.rest).2.1, blocks := w.blocks ++ [b] }

/-- The codec with these messages in the compressor's queue. -/
def withEnc (q : List EncWork) (x : Sinter) : Sinter := { x with enc := q }

theorem szStopped_eq_false (h : s.snuff.state ≠ .cut) : s.szStopped = false := decide_eq_false h

theorem execSinterEncodeBlock_stopped (h : s.snuff.state = .cut) : exec .sinterEncodeBlock s = .next s.settle :=
  congrArg finish (if_pos (decide_eq_true h))

theorem execSinterEncodeBlock_front (hs : s.snuff.state ≠ .cut) (he : s.sinter.enc = w :: rest) :
    exec .sinterEncodeBlock s = .next
    (if w.rest.drop (szFrameBlock w.rest).2.1 = [] then
      ((s.frontBlock w).2.modSinter (withEnc rest)).szEmit (formed (s.frontBlock w).1 w)
    else (s.frontBlock w).2.modSinter (withEnc (formed (s.frontBlock w).1 w :: rest))).settle := by
  show finish _ = _
  rw [szStopped_eq_false hs, he]
  rfl

end Encode

/-! ### The decompressor (R305, R309) -/

section Decode
variable {s : State} {w : DecWork} {rest : List DecWork}

/-- A change of a channel that leaves its freed units leaves them on every channel. -/
theorem modChan_freed (s : State) (d : Nat) {f : Chan → Chan} (hf : ∀ x, (f x).freed = x.freed) (c : Nat) :
    ((s.modChan d f).chan c).freed = (s.chan c).freed := by
  rw [modChan_chan]
  split_ifs with h
  · rw [hf, h]
  · rfl

theorem violate_chan (s : State) (p : PortId) (k : Nat) (b : List Byte) (n : Bool) (c : Nat) :
    (s.violate p k b n).chan c = s.chan c :=
  chan_of_only (fun hL ho => violate_only hL ho) (by decide) c

theorem forward_chan (s : State) (p q : Nat) (m : Msg) (c : Nat) : (s.forward p q m).chan c = s.chan c :=
  chan_of_only (fun hL ho => forward_only hL ho) (by decide) c

theorem szReject_chan (s : State) (k cls src : Nat) (b : List Byte) (c : Nat) : (s.szReject k cls src b).chan c = s.chan c :=
  chan_of_only (fun hL ho => szReject_only hL ho) (by decide) c

/-- A fragment changes what a channel has in reassembly, and not the units that it has freed. -/
theorem szGather_freed (s : State) (w : DecWork) (d : Option (List Byte)) (c : Nat) :
    ((s.szGather w d).chan c).freed = (s.chan c).freed := by
  unfold State.szGather
  extract_lets put fresh old u r r'
  have hput (v : State) (x : Option Reasm) : ((put v x).chan c).freed = (v.chan c).freed :=
    modChan_freed v w.chan (by exact fun _ => rfl) c
  have hu : (u.chan c).freed = (s.chan c).freed := by
    show ((if _ then _ else s : State).chan c).freed = _
    split_ifs
    · rw [violate_chan]
    · rfl
  split_ifs
  · rw [violate_chan, hput, hu]
  · rw [hput, hu]
  · rw [foldl_keeps (fun v : State => (v.chan c).freed) (fun v q => congrArg Chan.freed (forward_chan v w.port q _ c)), hput, hu]
  · rw [hput, hu]

/-- The codec with these fragments in the decompressor's queue. -/
def withDec (q : List DecWork) (x : Sinter) : Sinter := { x with dec := q }

/-- A channel with so many units more freed for C7. -/
def freeing (n : Nat) (x : Chan) : Chan := { x with freed := Tab.modify natZero x.freed 7 (· + n) }

/-- The fragment in front leaves the queue, and one of C7 frees its units. -/
def State.decTaken (s : State) (w : DecWork) (rest : List DecWork) : State :=
  if w.cls = 7 then (s.modSinter (withDec rest)).modChan w.chan (freeing w.units) else s.modSinter (withDec rest)

/-- What the decompressor makes of a fragment: it is gathered, or rejected and its message with it. -/
def State.szDecoded (u : State) (w : DecWork) : State :=
  match szDecodeBlock w.payload with
  | .ok d => u.szGather w (some d)
  | .error e => ((u.szReject e w.cls w.src.toNat w.payload).violate (.link w.port) 1 (w.payload.take 16) true).szGather w none

theorem execSinterDecodeBlock_stopped (h : s.snuff.state = .cut) : exec .sinterDecodeBlock s = .next s.settle :=
  congrArg finish (if_pos (decide_eq_true h))

theorem execSinterDecodeBlock_front (hs : s.snuff.state ≠ .cut) (hd : s.sinter.dec = w :: rest) :
    exec .sinterDecodeBlock s = .next ((s.decTaken w rest).szDecoded w).settle := by
  show finish _ = _
  rw [szStopped_eq_false hs, hd]
  rfl

theorem szDecoded_sinter (u : State) (w : DecWork) : (u.szDecoded w).sinter = u.sinter := by
  unfold State.szDecoded
  split
  · exact szGather_sinter _ _ _
  · rw [szGather_sinter, violate_sinter, szReject_sinter]

theorem szDecoded_freed (u : State) (w : DecWork) (c : Nat) : ((u.szDecoded w).chan c).freed = (u.chan c).freed := by
  unfold State.szDecoded
  split
  · exact szGather_freed _ _ _ _
  · rw [szGather_freed, violate_chan, szReject_chan]

theorem decTaken_sinter : (s.decTaken w rest).sinter = withDec rest s.sinter := by
  unfold State.decTaken
  split_ifs <;> rfl

theorem decTaken_freed (h : w.cls = 7) :
    Tab.read natZero ((s.decTaken w rest).chan w.chan).freed 7 = Tab.read natZero (s.chan w.chan).freed 7 + w.units := by
  rw [State.decTaken, if_pos h, modChan_chan, if_pos rfl]
  exact Tab.read_modify_same natZero (s.chan w.chan).freed 7 (· + w.units)

end Decode

/-! ### Commands that wait for an engine (R83) -/

section Engines
variable {s : State} {c : CmdIn} {a b : Nat}

theorem inOrder_ne_nil (s : State) (x : Bool × Nat) (l : List (Bool × Nat)) : s.inOrder x l ≠ [] := by
  cases l with
  | nil => exact List.cons_ne_nil _ _
  | cons y l =>
    unfold State.inOrder
    split_ifs
    · exact List.cons_ne_nil _ _
    · exact List.cons_ne_nil _ _

/-- Nothing waits where no page does: the order of acceptance drops none. -/
theorem waiters_eq_nil_iff (s : State) (p : Wait → Bool) :
    s.waiters p = [] ↔ (allPages.filter fun x => (s.cmd x.1 x.2).busy && p (s.cmd x.1 x.2).wait) = [] := by
  unfold State.waiters
  generalize allPages.filter _ = l
  cases l with
  | nil => exact Iff.rfl
  | cons x l => exact iff_of_false (inOrder_ne_nil s x _) (List.cons_ne_nil _ _)

/-- A page that was idle, and has just accepted a command, is none of those that wait. -/
theorem begun_awaits {p : Wait → Bool} (hb : (s.cmd c.pkg c.page.toNat).busy = false) (hp : p .none = false) (g : Bool)
    (n : Nat) : (((s.begun c a b).cmd g n).busy && p ((s.begun c a b).cmd g n).wait) = ((s.cmd g n).busy && p (s.cmd g n).wait) := by
  by_cases hk : (n % 8 + if g then 8 else 0) = c.page.toNat % 8 + if c.pkg then 8 else 0
  · have hpage (u : State) : u.cmd g n = u.cmd c.pkg c.page.toNat := congrArg (Tab.read CmdPage.reset u.pages.cmds) hk
    rw [hpage, hpage, begun_cmd, hb]
    exact hp
  · obtain ⟨_, _, _, _, _, _, h⟩ := begun_eq s c a b
    have hcmd : (s.begun c a b).cmd g n = s.cmd g n := by
      rw [h, State.cmd, Tab.read_write_ne _ _ _ hk]
      rfl
    rw [hcmd]

/-- A second command for an engine waits behind every command that waits for it (R83, log entry 126). -/
theorem begun_resourceTaken {tag : Tag} (h : s.takes c tag = true) (k : Nat) (taken : Bool) :
    (s.begun c a b).resourceTaken c k taken = true ↔ taken = true ∨ (s.waiters fun w => decide (w = .event 39 k)) ≠ [] := by
  obtain ⟨-, -, -, -, hg, -, -⟩ := (takes_iff s c tag).1 h
  have hw : ((s.begun c a b).waiters fun w => decide (w = .event 39 k)) = [] ↔
      (s.waiters fun w => decide (w = .event 39 k)) = [] := by
    simp only [waiters_eq_nil_iff, begun_awaits (cmdGate_idle hg) (p := fun w => decide (w = .event 39 k)) rfl]
  simp [State.resourceTaken, begun_cmd, hw]

end Engines

/-! ### SINTER_PACK (R310, R311) -/

section Pack
variable {s : State} {c : CmdIn}

theorem ceilDiv_pos {n d : Nat} (hn : n ≠ 0) (hd : d ≠ 0) : 0 < ceilDiv n d := Nat.div_pos (by omega) (by omega)

/-- The SINTER_PACK that the argument words name, with no block formed. -/
def State.packJob (s : State) (c : CmdIn) : PackJob :=
  { pkg := c.pkg, page := c.page.toNat, inAt := arg64 c s 0, total := (argW c s 2).toNat, outAt := arg64 c s 3,
    cap := (argW c s 5).toNat, blkIn := argFld c s 6 0 13, next := 0,
    pos := 32 + 4 * ceilDiv (argW c s 2).toNat (argFld c s 6 0 13), offs := [], raws := 0, buf := none, phase := 0 }

theorem packNext_pack {j : PackJob} (h : j.next < ceilDiv j.total j.blkIn) : (s.packNext j).sinter.pack = some j := by
  unfold State.packNext
  dsimp only
  rw [if_pos h, cmdXfer_sinter]
  rfl

theorem execSinterPack_eq (h : s.takes c .operator = true) : exec (.sinterPack c) s = .next
    (if (argW c s 2).toNat = 0 ∨ argFld c s 6 0 13 = 0 ∨ 4096 < argFld c s 6 0 13 then (s.begun c 0x38 0x0100).badArg c
    else if s.sinter.pack.isSome ∨ (s.waiters fun w => decide (w = .event 39 0)) ≠ [] then
      (s.begun c 0x38 0x0100).waitFor c (.event 39 0)
    else if (argW c s 5).toNat < 32 + 4 * ceilDiv (argW c s 2).toNat (argFld c s 6 0 13) then (s.begun c 0x38 0x0100).failCmd c 0x10
    else (s.begun c 0x38 0x0100).packNext (s.packJob c)).settle := by
  refine (congrArg finish (runCmd_takes h 0x38 0x0100 rfl _)).trans ?_
  simp only [begun_resourceTaken h, begun_sinter, begun_argW s c _ _ 2 (by decide), begun_argW s c _ _ 5 (by decide),
    begun_argFld _ _ 6 0 13 (by decide), begun_arg64 s c _ _ 0 (by decide), begun_arg64 s c _ _ 3 (by decide)]
  rfl

end Pack

/-! ### SINTER_UNPACK (R312) -/

section Unpack
variable {s : State} {c : CmdIn}

/-- The SINTER_UNPACK that the argument words name, with nothing read. -/
def State.unpackJob (s : State) (c : CmdIn) : UnpackJob :=
  { pkg := c.pkg, page := c.page.toNat, inAt := arg64 c s 0, len := (argW c s 2).toNat, outAt := arg64 c s 3,
    first := (argW c s 5).toNat, count := (argW c s 6).toNat, blkIn := 0, total := 0, nblk := 0, chk := 0, offs := [],
    next := 0, buf := none, wrote := 0, good := 0, bad := 0, badAt := 0, phase := 0 }

/-- The codec with its decompressor held by a SINTER_UNPACK. -/
def withUnpack (j : UnpackJob) (x : Sinter) : Sinter := { x with unpack := some j }

theorem execSinterUnpack_eq (h : s.takes c .operator = true) : exec (.sinterUnpack c) s = .next
    (if s.sinter.unpack.isSome ∨ (s.waiters fun w => decide (w = .event 39 1)) ≠ [] then
      (s.begun c 0x38 0x0101).waitFor c (.event 39 1)
    else if (argW c s 2).toNat < 32 then (s.begun c 0x38 0x0101).failCmd c szBadStream
    else ((s.begun c 0x38 0x0101).modSinter (withUnpack (s.unpackJob c))).cmdXfer c.pkg c.page.toNat false (arg64 c s 0) 32
      []).settle := by
  refine (congrArg finish (runCmd_takes h 0x38 0x0101 rfl _)).trans ?_
  simp only [begun_resourceTaken h, begun_sinter, begun_argW s c _ _ 2 (by decide), begun_argW s c _ _ 5 (by decide),
    begun_argW s c _ _ 6 (by decide), begun_arg64 s c _ _ 0 (by decide), begun_arg64 s c _ _ 3 (by decide)]
  rfl

end Unpack

/-- Settles O46: each block by what it makes of the queue that it was in front of, and each command by the equation of its step. -/
theorem sinterCompletesBlocksAndStreams : Obligations.SinterCompletesBlocksAndStreams := by
  unfold Obligations.SinterCompletesBlocksAndStreams
  refine ⟨fun s hc => ?_, fun w rest s hs he => ?_, fun w rest s hs hd => ?_, fun c s h => ?_, fun c s h => ?_,
    fun s => ⟨execSinterEncodeBlock_only s, execSinterDecodeBlock_only s⟩,
    fun c s => ⟨execSinterPack_only c s, execSinterUnpack_only c s⟩⟩
  · have hsettle := settle_only (s := s) (by decide) (onlyChanges_refl s [.lines, .xfers, .out, .inj])
    exact ⟨⟨_, execSinterEncodeBlock_stopped hc, hsettle⟩, _, execSinterDecodeBlock_stopped hc, hsettle⟩
  · have hx := execSinterEncodeBlock_front hs he
    refine ⟨_, hx, frame_of (execSinterEncodeBlock_only s) hx, ?_⟩
    rw [settle_sinter]
    split_ifs
    · rw [szEmit_sinter]
      rfl
    · exact ⟨(s.frontBlock w).1, szWrote_length _ _ _ _, rfl⟩
  · have hx := execSinterDecodeBlock_front hs hd
    refine ⟨_, hx, frame_of (execSinterDecodeBlock_only s) hx, ?_, fun h7 => ?_⟩
    · rw [settle_sinter, szDecoded_sinter, decTaken_sinter]
      rfl
    · rw [settle_chan, szDecoded_freed, decTaken_freed h7]
  · have hx := execSinterPack_eq h
    refine ⟨_, hx, frame_of (execSinterPack_only c s) hx, ?_⟩
    rw [settle_sinter]
    split_ifs with hbad htaken hcap
    · exact ⟨done_ended _ _, begun_sinter s c _ _⟩
    · exact ⟨begun_waits _ rfl, begun_sinter s c _ _⟩
    · exact ⟨failCmd_ended _, begun_sinter s c _ _⟩
    · obtain ⟨htotal, hblock, -⟩ := not_or.1 hbad |>.imp_right not_or.1
      exact ⟨s.packJob c, packNext_pack (j := s.packJob c) (ceilDiv_pos htotal hblock), rfl, rfl, rfl, rfl, rfl, rfl⟩
  · have hx := execSinterUnpack_eq h
    refine ⟨_, hx, frame_of (execSinterUnpack_only c s) hx, ?_⟩
    rw [settle_sinter]
    split_ifs
    · exact ⟨begun_waits _ rfl, begun_sinter s c _ _⟩
    · exact ⟨failCmd_ended _, begun_sinter s c _ _⟩
    · rw [cmdXfer_sinter]
      exact ⟨s.unpackJob c, rfl, rfl, rfl, rfl, rfl, rfl, rfl⟩

end Sys2Proof.Machine
end

section
/-!
O1 and O2: one step, by the command at the front of the queue.
-/
namespace Sys2Proof.Machine

/-- Settles O1: with a command in front, `step` is its execution on the queue's rest. -/
theorem stepTakesTheFrontCommand : Obligations.StepTakesTheFrontCommand := by
  unfold Obligations.StepTakesTheFrontCommand
  intro i rest s hfront
  rw [step, hfront]

/-- Settles O2: with an empty queue `step` answers the state that it found. -/
theorem emptyQueueIdles : Obligations.EmptyQueueIdles := by
  unfold Obligations.EmptyQueueIdles
  intro s hempty
  rw [step, hempty]

end Sys2Proof.Machine
end

section
/-!
O49 (R359): FC_GO_ACK changes the cores by one map over their table. The map drops an entry that has become the reset value, and a
table that lists the core a second time, further on, then shows that second entry.
-/
namespace Sys2Proof.Machine

/-- A die after reset whose table of cores lists core 0 twice: in front loaded with code 0, which it also runs, and behind at
0x100. A change that is to be given up waits for the acknowledge of its release. -/
def coreListedTwice : State :=
  State.reset.modHp fun x => { x with
    cores := [(0, { PwrCore.reset 0 with loaded := some 0 }), (0, { PwrCore.reset 0 with now := 0x100 })]
    running := some { set := { freqs := [], points := [], forced := false }, step := 2, todo := [], doing := .go, abort := true } }

/-- The acknowledge makes the entry in front the reset value, and core 0 reads the entry behind it. -/
theorem coreListedTwice_fcGoAck : ((after coreListedTwice (exec .fcGoAck coreListedTwice)).core 0).now = 0x100 := by
  decide +kernel

/-- Refutes O49: the statement admits every state, also one whose table of cores is not in the canonical form that writes keep
(`Tab.wf`) and lists core 0 twice. FC_GO_ACK leaves core 0 at the frequency of the second entry, and not at the one loaded. -/
theorem not_powerChangesCommitByHandshake : ¬ Obligations.PowerChangesCommitByHandshake := by
  unfold Obligations.PowerChangesCommitByHandshake
  rintro ⟨-, -, hgo, -⟩
  obtain ⟨t, ht, -, hcores⟩ := hgo _ coreListedTwice rfl rfl
  have hnow : (t.core 0).now = 0x100 := by
    have := coreListedTwice_fcGoAck
    rwa [ht] at this
  have hloaded : ((coreListedTwice.core 0).loaded.getD (coreListedTwice.core 0).now) = 0 := by decide +kernel
  rw [hcores 0, hloaded] at hnow
  cases hnow

end Sys2Proof.Machine
end

section
/-!
O58 (R490 to R502): the SPDM responder. A response leaves at the port and counts in its session; a request acts on the state in
which its session has counted it. What each request answers and keeps follows from these two.
-/
namespace Sys2Proof.Machine

/-- A command that ends in `finish`: what its state shows when settled, within the command's frame. -/
theorem next_of_finish {o : Host.Outcome State Fault Refusal} {s u : State} {l : List Part} {P : State → Prop} (hx : o = finish u)
    (hf : ∃ t, o = .next t ∧ s.onlyChanges t l) (hP : P u.settle) : ∃ t, o = .next t ∧ s.onlyChanges t l ∧ P t :=
  ⟨_, hx, frame_of hf hx, hP⟩

/-! ### A response leaves (R496) -/

section Send
variable {s : State} {m : SpdmIn} {r : SpdmRsp} {id : Word}

/-- A session with one response more. -/
def oneMoreSent (e : Session) : Session := { e with tx := e.tx + 1 }

/-- The response counts in the session that it is secured under. -/
def countSent (session : Option Word) (x : Rot) : Rot :=
  match session with
  | some id => { x with sessions := Tab.modify noSession x.sessions id.toNat fun o => o.map oneMoreSent }
  | none => x

@[simp] theorem countSent_none (x : Rot) : countSent none x = x := rfl
@[simp] theorem countSent_shares (o : Option Word) (x : Rot) : (countSent o x).shares = x.shares := by cases o <;> rfl
@[simp] theorem countSent_agreed (o : Option Word) (x : Rot) : (countSent o x).agreed = x.agreed := by cases o <;> rfl
@[simp] theorem countSent_tokens (o : Option Word) (x : Rot) : (countSent o x).tokens = x.tokens := by cases o <;> rfl

/-- The response has left, and is counted. -/
def State.spdmSent (s : State) (m : SpdmIn) (r : SpdmRsp) : State :=
  (s.emit (.spdm m.session r)).modRot (countSent m.session)

/-- What follows is the end of the command page, or the transfer of the response's bytes. -/
theorem spdmSend_cases (s : State) (m : SpdmIn) (r : SpdmRsp) :
    s.spdmSend m r = (s.spdmSent m r).complete m.pkg m.page.toNat stError rtTooLarge ∨
    ∃ a l d, s.spdmSend m r = (s.spdmSent m r).cmdXfer m.pkg m.page.toNat true a l d := by
  obtain ⟨g, n, x⟩ := m
  unfold State.spdmSend State.spdmSent
  cases x <;> dsimp only <;> split_ifs
  · exact .inl rfl
  · exact .inr ⟨_, _, _, rfl⟩
  · exact .inl rfl
  · exact .inr ⟨_, _, _, rfl⟩

@[simp] theorem cmdXfer_rot (s : State) (g : Bool) (n : Nat) (wr : Bool) (a l : Nat) (d : List Byte) :
    (s.cmdXfer g n wr a l d).rot = s.rot := by
  unfold State.cmdXfer State.startXfer
  obtain ⟨_, _, _, _, h⟩ := startXferOf_eq s none (.command g n) wr a l d
  rw [h]
  rfl

/-- A transfer adds its requests to what has left the block. -/
theorem cmdXfer_out (s : State) (g : Bool) (n : Nat) (wr : Bool) (a l : Nat) (d : List Byte) :
    ∃ k, (s.cmdXfer g n wr a l d).out = k ++ s.out := by
  unfold State.cmdXfer State.startXfer State.startXferOf
  exact issueXfer_out _ _

@[simp] theorem spdmSend_rot (s : State) (m : SpdmIn) (r : SpdmRsp) : (s.spdmSend m r).rot = countSent m.session s.rot := by
  rcases spdmSend_cases s m r with h | ⟨_, _, _, h⟩ <;> rw [h]
  · rfl
  · rw [cmdXfer_rot]
    rfl

theorem mem_spdmSend_out (s : State) (m : SpdmIn) (r : SpdmRsp) : .spdm m.session r ∈ (s.spdmSend m r).out := by
  have hsent : .spdm m.session r ∈ (s.spdmSent m r).out := List.mem_cons_self
  rcases spdmSend_cases s m r with h | ⟨_, _, _, h⟩ <;> rw [h]
  · exact hsent
  · obtain ⟨k, hk⟩ := cmdXfer_out (s.spdmSent m r) m.pkg m.page.toNat true _ _ _
    rw [hk]
    exact List.mem_append_right _ hsent

theorem mem_settle_out {o : Out} (h : o ∈ s.out) : o ∈ s.settle.out := by
  obtain ⟨k, hk⟩ := settle_out s
  rw [hk]
  exact List.mem_append_right _ h

/-- A response outside a session has left the block when the step has ended. -/
theorem answered_none (hm : m.session = none) : .spdm none r ∈ (s.spdmSend m r).settle.out :=
  hm ▸ mem_settle_out (mem_spdmSend_out s m r)

/-- A response within a session has left the block when the step has ended. -/
theorem answered_some (hm : m.session = some id) : .spdm (some id) r ∈ (s.spdmSend m r).settle.out :=
  hm ▸ mem_settle_out (mem_spdmSend_out s m r)

theorem spdmSend_chan (s : State) (m : SpdmIn) (r : SpdmRsp) (c : Nat) : (s.spdmSend m r).chan c = s.chan c :=
  chan_of_only (fun hL ho => spdmSend_only hL ho) (by decide) c

end Send

/-! ### Sessions (R495, R497) -/

section Sessions
variable {s t : State} {m : SpdmIn} {r : SpdmRsp} {id : Word} {e : Session}

/-- A session of the table is one of the root of trust's own state. -/
theorem session_congr (h : t.rot = s.rot) (id : Word) : t.session id = s.session id := by rw [State.session, h]; rfl

@[simp] theorem settle_session (s : State) (id : Word) : s.settle.session id = s.session id := session_congr (settle_rot s) id

@[simp] theorem setSession_session_same (s : State) (id : Word) (x : Option Session) : (s.setSession id x).session id = x :=
  Tab.read_write_same _ _ _ _

@[simp] theorem endTranscript_session (s : State) (o : Option Word) (id : Word) : (s.endTranscript o).session id = s.session id := rfl

theorem spdmSend_session_none (hm : m.session = none) : (s.spdmSend m r).session id = s.session id :=
  session_congr (by rw [spdmSend_rot, hm, countSent_none]) id

theorem spdmSend_session (hm : m.session = some id) : (s.spdmSend m r).session id = (s.session id).map oneMoreSent := by
  rw [State.session, spdmSend_rot, hm]
  exact Tab.read_modify_same _ _ _ _

/-- The session has counted a request. -/
def State.received (s : State) (id : Word) (e : Session) : State :=
  s.setSession id (some { e with rx := e.rx + 1, last := s.now })

theorem received_session (s : State) (id : Word) (e : Session) :
    (s.received id e).session id = some { e with rx := e.rx + 1, last := s.now } := setSession_session_same _ _ _

/-! ### A request acts (R495 to R497) -/

theorem spdmTake_none (h : s.spdmHolds m = true) (hm : m.session = none) (act : State → State) : s.spdmTake m act = act s := by
  simp [State.spdmTake, h, hm]

theorem spdmTake_some (h : s.spdmHolds m = true) (hm : m.session = some id) (he : s.session id = some e) (act : State → State) :
    s.spdmTake m act = act (s.received id e) := by
  simp [State.spdmTake, h, hm, he, State.received]

/-- The session that a message names, with its entry. -/
theorem session_bind (hm : m.session = some id) (he : s.session id = some e) :
    (m.session.bind fun id => (s.session id).map fun e => (id, e)) = some (id, e) := by
  simp [hm, he]

theorem inSession_done (hm : m.session = some id) (he : s.session id = some e) (hd : e.done = true)
    (act : Word → Session → State → State) : s.inSession m act = act id e s := by
  rw [State.inSession, session_bind hm he]
  exact if_pos hd

/-- A request of an established session acts on the session that has counted it. -/
theorem spdmTake_inSession (h : s.spdmHolds m = true) (hm : m.session = some id) (he : s.session id = some e) (hd : e.done = true)
    (act : Word → Session → State → State) : (s.spdmTake m fun s => s.inSession m act) =
      act id { e with rx := e.rx + 1, last := s.now } (s.received id e) := by
  rw [spdmTake_some h hm he]
  exact inSession_done hm (received_session s id e) hd act

theorem vendorTake_auth (h : s.spdmHolds m = true) (hm : m.session = some id) (he : s.session id = some e) (hd : e.done = true)
    (ha : e.auth = true) (act : State → State) : s.vendorTake m act = act (s.received id e) := by
  rw [State.vendorTake, spdmTake_some h hm he]
  simp [hm, received_session, hd, ha]

theorem vendorTake_refused (h : s.spdmHolds m = true) (hm : m.session = some id) (he : s.session id = some e)
    (hn : e.done = false ∨ e.auth = false) (act : State → State) : s.vendorTake m act =
      ((s.received id e).setErr rotPage errAuthFail).spdmError m .unsupportedRequest := by
  rw [State.vendorTake, spdmTake_some h hm he]
  rcases hn with hn | hn <;> simp [hm, received_session, hn]

end Sessions

/-! ### Requests outside a session (R490 to R493) -/

section Outside
variable {s : State} {m : SpdmIn}

theorem inCommit_eq_false (h : s.rot.state ≠ .commit) : s.inCommit = false := decide_eq_false h
theorem inCommit_eq_true (h : s.rot.state = .commit) : s.inCommit = true := decide_eq_true h

/-- A deferred request is kept under its token, and the token is answered. -/
theorem spdmDefer_settle (hm : m.session = none) (d : Deferred) :
    (s.spdmDefer m d).settle.rot.deferrals = s.rot.deferrals + 1 ∧
    (s.spdmDefer m d).settle.rot.deferred = some (BitVec.ofNat 8 s.rot.deferrals, none, d) ∧
    .spdm none (.error (.responseNotReady 12 2 (BitVec.ofNat 8 s.rot.deferrals))) ∈ (s.spdmDefer m d).settle.out := by
  unfold State.spdmDefer State.spdmError
  refine ⟨?_, ?_, answered_none hm⟩ <;> rw [settle_rot, spdmSend_rot, hm, countSent_none] <;> rfl

theorem answerChallenge_slot {slot : Nat} (hm : m.session = none) (h0 : slot ≠ 0) :
    .spdm none (.error .invalidRequest) ∈ (s.answerChallenge m slot).settle.out := by
  rw [State.answerChallenge, if_pos h0]
  exact answered_none hm

theorem answerChallenge_zero (hm : m.session = none) :
    ∃ b r g, .spdm none (.challengeAuth 0 b r g) ∈ (s.answerChallenge m 0).settle.out := by
  refine ⟨sha384 s.spdmSign.2.certChain, s.spdmSign.2.report, s.spdmSign.1, ?_⟩
  rw [State.answerChallenge, if_neg (by simp)]
  exact answered_none hm

theorem answerChallenge_deferred (hm : m.session = none) (slot : Nat) :
    (s.answerChallenge m slot).rot.deferred = s.rot.deferred := by
  unfold State.answerChallenge State.spdmError
  split_ifs <;> rw [spdmSend_rot, hm, countSent_none]
  rfl

/-- Nothing is deferred. -/
def deferNothing (x : Rot) : Rot := { x with deferred := none }

/-- A challenge that is asked for again, by its token, after the commit window. -/
theorem execRespondIfReady_challenge {token : Byte} {slot : Nat} (h : s.spdmHolds m = true) (hm : m.session = none)
    (hd : s.rot.deferred = some (token, none, .challenge slot)) (hc : s.rot.state ≠ .commit) :
    exec (.respondIfReady m token) s = finish ((s.modRot deferNothing).answerChallenge m slot) := by
  have hours : ¬(token ≠ token ∨ (none : Option Word) ≠ m.session) := by simp [hm]
  refine congrArg finish ((spdmTake_none h hm _).trans ?_)
  simp only [hd, if_neg hours, inCommit_eq_false hc, if_neg Bool.false_ne_true]
  rfl

theorem answerMeasurements_none {op : Nat} (hm : m.session = none) (ho : s.askedBlocks op = none) (signed : Bool) :
    .spdm none (.error .invalidRequest) ∈ (s.answerMeasurements m op signed).settle.out := by
  rw [State.answerMeasurements, ho]
  exact answered_none hm

theorem answerMeasurements_unsigned {op : Nat} {bs : List MeasBlock} (hm : m.session = none) (ho : s.askedBlocks op = some bs) :
    .spdm none (.measurements (s.measIndices.length + 1) bs []) ∈ (s.answerMeasurements m op false).settle.out := by
  rw [State.answerMeasurements, ho]
  exact answered_none hm

/-- A key exchange that finds room opens the session with its secret. -/
theorem answerKeyExchange_opens (hm : m.session = none) (hroom : s.sessionCount < 4) (reqId : BitVec 16) (point secret : List Byte)
    (hs : ecdh ((s.draw 384).1.toNat % (p384N - 1) + 1) point = some secret) :
    (s.answerKeyExchange m reqId point).rot.exchanges = s.rot.exchanges + 1 ∧
    ((s.answerKeyExchange m reqId point).session (word (reqId.toNat + 2 ^ 16 * (s.rot.exchanges % 2 ^ 16)))).map (·.secret) =
      some secret := by
  have h4 : ¬ 4 ≤ s.sessionCount := by omega
  simp only [State.answerKeyExchange, h4, if_false, hs]
  refine ⟨?_, ?_⟩
  · rw [spdmSend_rot, hm]
    rfl
  · rw [spdmSend_session_none hm]
    exact congrArg (Option.map (·.secret)) (setSession_session_same _ _ _)

end Outside

/-! ### Requests of a session (R495, R497) -/

section Inside
variable {s : State} {m : SpdmIn} {id : Word} {e : Session}

@[simp] theorem received_now (s : State) (id : Word) (e : Session) : (s.received id e).now = s.now := rfl
@[simp] theorem received_links (s : State) (id : Word) (e : Session) : (s.received id e).links = s.links := rfl
@[simp] theorem received_chan (s : State) (id : Word) (e : Session) (c : Nat) : (s.received id e).chan c = s.chan c := rfl
@[simp] theorem received_share (s : State) (id : Word) (e : Session) (p : Nat) : (s.received id e).share p = s.share p := rfl

/-- FINISH of a handshake in progress: the session is established, or it is gone. -/
def State.finishStep (s : State) (m : SpdmIn) (id : Word) (e : Session) (ok : Bool) : State :=
  if ok then (s.setSession id (some { e with done := true, auth := s.owned })).spdmSend m .finishRsp
  else (s.spdmError m .unspecified).setSession id none

theorem execFinish_open (h : s.spdmHolds m = true) (hm : m.session = some id) (he : s.session id = some e) (hd : e.done = false)
    (root : Option (List Byte)) (good : Bool) : exec (.finish m root good) s =
      finish ((s.received id e).finishStep m id { e with rx := e.rx + 1, last := s.now } (s.finishOk root good)) := by
  refine congrArg finish ((spdmTake_some h hm he _).trans ?_)
  rw [session_bind hm (received_session s id e)]
  exact if_neg (by simp [hd])

theorem finishStep_established (hm : m.session = some id) :
    ((s.finishStep m id e true).session id).map (·.done) = some true ∧
    ((s.finishStep m id e true).session id).map (·.auth) = some s.owned := by
  rw [State.finishStep, if_pos rfl, spdmSend_session hm, setSession_session_same]
  exact ⟨rfl, rfl⟩

theorem finishStep_gone : (s.finishStep m id e false).session id = none := by
  rw [State.finishStep, if_neg Bool.false_ne_true]
  exact setSession_session_same _ _ _

theorem heartbeat_session (hm : m.session = some id) :
    (((s.received id e).spdmSend m .heartbeatAck).session id).map (·.last) = some s.now := by
  rw [spdmSend_session hm, received_session]
  rfl

/-- A session with its next keys, `tx` counted from there. -/
def rekeyed (tx : Nat) (e : Session) : Session := { e with keyGen := e.keyGen + 1, rx := 0, tx }

/-- What KEY_UPDATE of operation 1 or 2 does. -/
def State.rekey (s : State) (m : SpdmIn) (id : Word) (e : Session) (op : Nat) : State :=
  (s.setSession id (some (rekeyed (if op = 1 then e.tx else 0) e))).spdmSend m (.keyUpdateAck op)

theorem execKeyUpdate_rekeys (h : s.spdmHolds m = true) (hm : m.session = some id) (he : s.session id = some e)
    (hd : e.done = true) {op : Nat} (ho : op = 1 ∨ op = 2) : exec (.keyUpdate m op) s =
      finish ((s.received id e).rekey m id { e with rx := e.rx + 1, last := s.now } op) := by
  refine congrArg finish ((spdmTake_inSession h hm he hd _).trans ?_)
  rcases ho with rfl | rfl <;> rfl

theorem rekey_session (hm : m.session = some id) (op : Nat) :
    ((s.rekey m id e op).session id).map (·.keyGen) = some (e.keyGen + 1) := by
  rw [State.rekey, spdmSend_session hm, setSession_session_same]
  rfl

theorem dropSession_session (s : State) (id : Word) : (s.dropSession id).session id = none := by
  rw [State.dropSession, endTranscript_session, setSession_session_same]

@[simp] theorem dropSession_out (s : State) (id : Word) : (s.dropSession id).out = s.out := rfl

end Inside

/-! ### Vendor-defined requests (R498 to R502) -/

section Vendor
variable {s : State} {m : SpdmIn} {id : Word} {e : Session} {port : Nat}

@[simp] theorem settle_share (s : State) (p : Nat) : s.settle.share p = s.share p := by rw [State.share, settle_rot]; rfl

@[simp] theorem spdmSend_share (s : State) (m : SpdmIn) (r : SpdmRsp) (p : Nat) : (s.spdmSend m r).share p = s.share p := by
  rw [State.share, spdmSend_rot, countSent_shares]; rfl

theorem setShare_share (s : State) (p q : Nat) (x : Option Share) :
    (s.setShare p x).share q = if q = p then x else s.share q := Tab.read_write _ _ _ _ _

/-- A vendor response has left the block when the step has ended. -/
theorem vendor_answered (hm : m.session = some id) (st : Byte) (b : List Byte) :
    .spdm (some id) (.vendor (st :: b)) ∈ (s.vendorSend m st b).settle.out := answered_some hm

/-- A port of the block: LINK_SHARE draws the key pair, and answers the share made of it. -/
theorem execLinkShare_port (h : s.spdmHolds m = true) (hm : m.session = some id) (he : s.session id = some e)
    (hd : e.done = true) (ha : e.auth = true) (hp : s.portStatus port = none) : ∃ (u : State) (x : Share) (b : List Byte),
      exec (.linkShare m port) s = finish ((u.setShare port (some x)).vendorSend m 0 b) ∧ x.at' = s.now ∧
      ∀ q, u.share q = s.share q := by
  have hp' : (s.received id e).portStatus port = none := hp
  rw [show exec (.linkShare m port) s = _ from congrArg finish (vendorTake_auth h hm he hd ha _)]
  simp only [hp']
  exact ⟨_, _, _, rfl, rfl, fun q => rfl⟩

/-- The link keys that an agreement arms. -/
def armed (k : LinkAgreed) (c : Chan) : Chan := { c with armed := true, txKey := some { key := k.key, salt := k.salt, ctr := 0 } }

theorem execLinkArm_installed (h : s.spdmHolds m = true) (hm : m.session = some id) (he : s.session id = some e)
    (hd : e.done = true) (ha : e.auth = true) (hp : s.portStatus port = none) {k : LinkAgreed}
    (hk : Tab.read noAgreed s.rot.agreed port = some k) (hr : (s.chan port).rxKey.isSome = true) :
    exec (.linkArm m port) s = finish (((s.received id e).modChan port (armed k)).vendorSend m 0 []) := by
  have hp' : (s.received id e).portStatus port = none := hp
  have hk' : Tab.read noAgreed (s.received id e).rot.agreed port = some k := hk
  have hr' : ¬ ((s.received id e).chan port).rxKey.isNone = true := by simp [Option.isNone_iff_eq_none, Option.isSome_iff_ne_none.1 hr]
  refine congrArg finish ((vendorTake_auth h hm he hd ha _).trans ?_)
  rw [hp']
  simp only [State.linkArm, hk', if_neg hr']
  rfl

theorem execLinkInstall_port (h : s.spdmHolds m = true) (hm : m.session = some id) (he : s.session id = some e)
    (hd : e.done = true) (ha : e.auth = true) (hp : s.portStatus port = none) (share chain : List Byte) :
    exec (.linkInstall m port share chain) s = finish (((s.received id e).linkInstall port share chain).2.vendorSend m
      ((s.received id e).linkInstall port share chain).1 []) := by
  have hp' : (s.received id e).portStatus port = none := hp
  refine congrArg finish ((vendorTake_auth h hm he hd ha _).trans ?_)
  rw [hp']

/-- The checks of LINK_INSTALL (R500) but for the port's own share. -/
def State.shareFits (s : State) (port : Nat) (share chain : List Byte) (x : Share) : Prop :=
  shareGood share chain = true ∧ leAt share 0 2 = (s.port port).peer.toNat ∧ leAt share 2 2 = s.node.toNat ∧
    (ecdh x.priv (slice share 8 97)).isSome

/-- A channel with its receive key. -/
def withRxKey (k : LinkKey) (c : Chan) : Chan := { c with rxKey := some k }

/-- The state in which LINK_INSTALL has used up the share, installed the receive key and kept the agreement. -/
def State.withKeys (s : State) (port : Nat) (rx : LinkKey) (a : LinkAgreed) : State :=
  ((s.setShare port none).modChan port (withRxKey rx)).modRot fun r =>
    { r with agreed := Tab.write noAgreed r.agreed port (some a) }

theorem withKeys_share (s : State) (port : Nat) (rx : LinkKey) (a : LinkAgreed) : (s.withKeys port rx a).share port = none :=
  Tab.read_write_same noShare s.rot.shares port none

theorem withKeys_chan (s : State) (port : Nat) (rx : LinkKey) (a : LinkAgreed) :
    (s.withKeys port rx a).chan port = withRxKey rx (s.chan port) :=
  Tab.read_modify_same Chan.reset s.links.chans port _

theorem withKeys_agreed (s : State) (port : Nat) (rx : LinkKey) (a : LinkAgreed) :
    Tab.read noAgreed (s.withKeys port rx a).rot.agreed port = some a :=
  Tab.read_write_same noAgreed s.rot.agreed port (some a)

theorem linkInstall_fits {share chain : List Byte} {x : Share} (hx : s.share port = some x) (hf : s.shareFits port share chain x) :
    ∃ rx a, s.linkInstall port share chain = (0, s.withKeys port rx a) := by
  obtain ⟨hgood, hpeer, hnode, hz⟩ := hf
  obtain ⟨z, hz⟩ := Option.isSome_iff_exists.1 hz
  have hplace : ¬(leAt share 0 2 ≠ (s.port port).peer.toNat ∨ leAt share 2 2 ≠ s.node.toNat) := by simp [hpeer, hnode]
  unfold State.linkInstall
  simp only [hgood, Bool.not_true, Bool.false_eq_true, if_false, if_neg hplace, hx, hz]
  exact ⟨_, _, rfl⟩

theorem linkInstall_unfit {share chain : List Byte} {x : Share} (hx : s.share port = some x)
    (hf : ¬ s.shareFits port share chain x) : (s.linkInstall port share chain).2 = s := by
  unfold State.linkInstall
  by_cases hgood : shareGood share chain = true
  · by_cases hplace : leAt share 0 2 ≠ (s.port port).peer.toNat ∨ leAt share 2 2 ≠ s.node.toNat
    · simp only [hgood, Bool.not_true, Bool.false_eq_true, if_false, if_pos hplace]
    · have hz : ecdh x.priv (slice share 8 97) = none := by
        by_contra hz
        obtain ⟨hpeer, hnode⟩ := not_or.1 hplace
        exact hf ⟨hgood, not_not.1 hpeer, not_not.1 hnode, Option.isSome_iff_ne_none.2 hz⟩
      simp only [hgood, Bool.not_true, Bool.false_eq_true, if_false, if_neg hplace, hx, hz]
  · simp only [hgood, Bool.not_false, if_true]

end Vendor

/-- Settles O58: each request acts on the state that its session has counted, and its response leaves whatever follows. -/
theorem spdmRequestsAreAnswered : Obligations.SpdmRequestsAreAnswered := by
  unfold Obligations.SpdmRequestsAreAnswered
  refine ⟨fun m s h hm => ⟨?_, ?_, ?_, ?_, fun slot off len => ?_, fun slot => ?_, fun op hc => ?_, fun reqId point hc hroom => ?_,
      fun token hd => ?_, fun token slot hd hc => ?_⟩,
    fun m id e s h hm he => ⟨fun root good hd => ?_, fun hd => ⟨?_, fun op ho => ?_, ?_⟩, fun hd ha => ⟨fun l hl hlen => ?_,
      fun port hp => ⟨?_, fun k hk hr => ?_, fun share chain x hx => ?_⟩, fun src dst till => ?_⟩,
      fun hn => ⟨fun l => ?_, fun p => ?_, fun p => ?_⟩⟩,
    fun m s => ⟨execGetVersion_only m s, execGetCapabilities_only m s, execNegotiateAlgorithms_only m s, execGetDigests_only m s,
      execSpdmHeartbeat_only m s, execEndSession_only m s⟩,
    execGetCertificate_only, execChallenge_only, execGetMeasurements_only, execKeyExchange_only, execRespondIfReady_only,
    execFinish_only, execKeyUpdate_only, execRegAccess_only,
    fun m port s => ⟨execLinkShare_only m port s, execLinkArm_only m port s⟩, execLinkInstall_only, execTraceToken_only⟩
  · exact next_of_finish (congrArg finish (spdmTake_none h hm _)) (execGetVersion_only m s) (answered_none hm)
  · exact next_of_finish (congrArg finish (spdmTake_none h hm _)) (execGetCapabilities_only m s) (answered_none hm)
  · exact next_of_finish (congrArg finish (spdmTake_none h hm _)) (execNegotiateAlgorithms_only m s) (answered_none hm)
  · exact next_of_finish (congrArg finish (spdmTake_none h hm _)) (execGetDigests_only m s) (answered_none hm)
  · refine next_of_finish (congrArg finish (spdmTake_none h hm _)) (execGetCertificate_only m slot off len s) ?_
    split_ifs
    · exact answered_none hm
    · exact answered_none hm
  · refine next_of_finish (congrArg finish (spdmTake_none h hm _)) (execChallenge_only m slot s) ?_
    by_cases hc : s.rot.state = .commit
    · rw [if_pos hc, inCommit_eq_true hc, if_pos rfl]
      exact spdmDefer_settle hm _
    · rw [if_neg hc, inCommit_eq_false hc, if_neg Bool.false_ne_true]
      split_ifs with h0
      · exact answerChallenge_slot hm h0
      · obtain rfl := not_not.1 h0
        exact answerChallenge_zero hm
  · refine next_of_finish (congrArg finish (spdmTake_none h hm _)) (execGetMeasurements_only m op false s) ?_
    rw [inCommit_eq_false hc, if_neg Bool.false_ne_true]
    cases ho : s.askedBlocks op with
    | none => exact answerMeasurements_none hm ho false
    | some bs => exact answerMeasurements_unsigned hm ho
  · refine next_of_finish (congrArg finish (spdmTake_none h hm _)) (execKeyExchange_only m reqId point s) fun secret hs => ?_
    rw [inCommit_eq_false hc, if_neg Bool.false_ne_true, settle_rot, settle_session]
    exact answerKeyExchange_opens hm hroom reqId point secret hs
  · refine next_of_finish (congrArg finish (spdmTake_none h hm _)) (execRespondIfReady_only m token s) ?_
    rw [hd]
    exact answered_none hm
  · refine next_of_finish (execRespondIfReady_challenge h hm hd hc) (execRespondIfReady_only m token s) ?_
    rw [settle_rot, answerChallenge_deferred hm]
    rfl
  · refine next_of_finish (execFinish_open h hm he hd root good) (execFinish_only m root good s) ?_
    rw [settle_session]
    cases s.finishOk root good with
    | true => exact finishStep_established hm
    | false => exact finishStep_gone
  · refine next_of_finish (congrArg finish (spdmTake_inSession h hm he hd _)) (execSpdmHeartbeat_only m s) ⟨answered_some hm, ?_⟩
    rw [settle_session]
    exact heartbeat_session hm
  · refine next_of_finish (execKeyUpdate_rekeys h hm he hd ho) (execKeyUpdate_only m op s) ⟨?_, answered_some hm⟩
    rw [settle_session]
    exact rekey_session hm op
  · refine next_of_finish (congrArg finish (spdmTake_inSession h hm he hd _)) (execEndSession_only m s) ⟨?_, ?_⟩
    · rw [settle_session]
      exact dropSession_session _ id
    · exact mem_settle_out (hm ▸ mem_spdmSend_out _ m .endSessionAck)
  · refine next_of_finish (congrArg finish (vendorTake_auth h hm he hd ha _)) (execRegAccess_only m l s) ?_
    rw [if_neg (not_or.2 ⟨hl, not_lt.2 hlen⟩)]
    exact ⟨_, vendor_answered hm 0 _⟩
  · obtain ⟨u, x, b, hx, hat, hu⟩ := execLinkShare_port h hm he hd ha hp
    refine next_of_finish hx (execLinkShare_only m port s) ⟨?_, fun q hq => ?_⟩
    · rw [settle_share, State.vendorSend, spdmSend_share, setShare_share, if_pos rfl]
      exact congrArg some hat
    · rw [settle_share, State.vendorSend, spdmSend_share, setShare_share, if_neg hq, hu]
  · refine next_of_finish (execLinkArm_installed h hm he hd ha hp hk hr) (execLinkArm_only m port s) ⟨?_, vendor_answered hm 0 []⟩
    rw [settle_chan, State.vendorSend, spdmSend_chan, modChan_chan, if_pos rfl]
    rfl
  · refine next_of_finish (execLinkInstall_port h hm he hd ha hp share chain) (execLinkInstall_only m port share chain s) ?_
    have hx' : (s.received id e).share port = some x := hx
    split_ifs with hf
    · obtain ⟨rx, a, hi⟩ := linkInstall_fits (s := s.received id e) hx' hf
      rw [hi, settle_share, settle_chan, State.vendorSend, spdmSend_share, spdmSend_chan, withKeys_share, withKeys_chan,
        settle_rot, spdmSend_rot, countSent_agreed, withKeys_agreed]
      exact ⟨rfl, rfl, rfl, answered_some hm⟩
    · rw [linkInstall_unfit (s := s.received id e) hx' hf, settle_share, settle_chan, State.vendorSend, spdmSend_share,
        spdmSend_chan]
      exact ⟨rfl, rfl⟩
  · refine next_of_finish (congrArg finish (vendorTake_auth h hm he hd ha _)) (execTraceToken_only m src dst till s) ⟨?_, _,
      vendor_answered hm 0 _⟩
    rw [settle_rot, State.vendorSend, spdmSend_rot, countSent_tokens]
    rfl
  · exact ⟨_, congrArg finish (vendorTake_refused h hm he hn _), answered_some hm⟩
  · refine ⟨_, congrArg finish (vendorTake_refused h hm he hn _), ?_, answered_some hm⟩
    rw [settle_share, State.spdmError, spdmSend_share]
    rfl
  · refine ⟨_, congrArg finish (vendorTake_refused h hm he hn _), ?_, answered_some hm⟩
    rw [settle_chan, State.spdmError, spdmSend_chan]
    rfl

end Sys2Proof.Machine
end

section
/-!
O47 (R321 to R328): broadcasts and the commands that send them. A node enters a broadcast that it does not know, acts, notes what the
act answered and forwards it; of these only the entry and the note touch the pending table. A command page that waits is ended by
what it waits for and by nothing else.
-/
namespace Sys2Proof.Machine

/-! ### What an operation leaves of the service processors, from its frame -/

section Leaves
variable {s t : State} {l : List Part}

theorem cmd_of_only (h : names l l = true → s.onlyChanges s l → s.onlyChanges t l) (hl : ∀ q ∈ l, q.covers .cmds = false)
    (g : Bool) (n : Nat) : t.cmd g n = s.cmd g n := congrArg (Tab.read CmdPage.reset · _) (same_of_only .cmds h hl)

theorem now_of_only (h : names l l = true → s.onlyChanges s l → s.onlyChanges t l) (hl : ∀ q ∈ l, q.covers .now = false) :
    t.now = s.now := same_of_only .now h hl

theorem pend_of_only (h : names l l = true → s.onlyChanges s l → s.onlyChanges t l) (hl : ∀ q ∈ l, q.covers .bcasts = false) :
    t.svc.pend = s.svc.pend := congrArg Prod.fst (same_of_only .bcasts h hl)

theorem past_of_only (h : names l l = true → s.onlyChanges s l → s.onlyChanges t l) (hl : ∀ q ∈ l, q.covers .bcasts = false) :
    t.svc.past = s.svc.past := congrArg (·.2.1) (same_of_only .bcasts h hl)

theorem count_of_only (h : names l l = true → s.onlyChanges s l → s.onlyChanges t l) (hl : ∀ q ∈ l, q.covers .bcasts = false) :
    t.svc.count = s.svc.count := congrArg (·.2.2.1) (same_of_only .bcasts h hl)

theorem svcJobs_of_only (h : names l l = true → s.onlyChanges s l → s.onlyChanges t l) (hl : ∀ q ∈ l, q.covers .jobs = false) :
    t.svc.jobs = s.svc.jobs := congrArg Prod.fst (same_of_only .jobs h hl)

theorem jobs_congr (h : t.svc.jobs = s.svc.jobs) : t.jobs = s.jobs := by rw [State.jobs, h]; rfl

theorem jobOf_congr (h : t.svc.jobs = s.svc.jobs) (job : BitVec 16) : t.jobOf job = s.jobOf job := by
  rw [State.jobOf, jobs_congr h]; rfl

theorem pendOf_congr (h : t.svc.pend = s.svc.pend) (k : BitVec 16 × BitVec 32) : t.pendOf k = s.pendOf k := by
  rw [State.pendOf, h]; rfl

theorem bcastKnown_congr (hpend : t.svc.pend = s.svc.pend) (hpast : t.svc.past = s.svc.past) (k : BitVec 16 × BitVec 32) :
    t.bcastKnown k = s.bcastKnown k := by
  rw [State.bcastKnown, hpend, hpast]; rfl

@[simp] theorem settle_jobs (s : State) : s.settle.jobs = s.jobs := jobs_congr (by rw [settle_svc])
@[simp] theorem settle_jobOf (s : State) (job : BitVec 16) : s.settle.jobOf job = s.jobOf job := jobOf_congr (by rw [settle_svc]) job
@[simp] theorem settle_pendOf (s : State) (k : BitVec 16 × BitVec 32) : s.settle.pendOf k = s.pendOf k :=
  pendOf_congr (by rw [settle_svc]) k
@[simp] theorem settle_bcastKnown (s : State) (k : BitVec 16 × BitVec 32) : s.settle.bcastKnown k = s.bcastKnown k :=
  bcastKnown_congr (by rw [settle_svc]) (by rw [settle_svc]) k

@[simp] theorem injTake_svc (s : State) (p k : Nat) : (s.injTake p k).2.svc = s.svc := by
  unfold State.injTake
  dsimp only
  split_ifs <;> rfl

end Leaves

/-! ### The pending table (R323) -/

section Pending
variable {s : State} {k : BitVec 16 × BitVec 32} {e : PendBcast} {f : PendBcast → PendBcast}

/-- A change of entries that keeps their broadcasts keeps their keys. -/
theorem key_of_keeps (hf : ∀ e, (f e).b = e.b) (e : PendBcast) :
    bcastKey (if bcastKey e.b = k then f e else e).b = bcastKey e.b := by
  split_ifs
  · rw [hf]
  · rfl

theorem modPend_known (hf : ∀ e, (f e).b = e.b) (j : BitVec 16 × BitVec 32) :
    (s.modPend k f).bcastKnown j = s.bcastKnown j := by
  simp only [State.bcastKnown, State.modPend, modSvc_svc, List.any_map, Function.comp_def, key_of_keeps hf]

theorem key_of_pendOf (h : s.pendOf k = some e) : bcastKey e.b = k := by
  simpa using List.find?_some h

theorem modPend_pendOf (hf : ∀ e, (f e).b = e.b) (h : s.pendOf k = some e) : (s.modPend k f).pendOf k = some (f e) := by
  have hk := key_of_pendOf h
  have hfind : s.svc.pend.find? (fun v => decide (bcastKey v.b = k)) = some e := h
  simp only [State.pendOf, State.modPend, modSvc_svc, List.find?_map, Function.comp_def, key_of_keeps hf, hfind, Option.map_some,
    if_pos hk]

end Pending

/-! ### A node takes a broadcast (R322, R323) -/

section Take
variable {s : State} {came : Option Nat} {b : Bcast} {act : State → Bcast → Acted}

/-- The entry that a broadcast opens in the pending table. -/
def State.pendNew (s : State) (came : Option Nat) (b : Bcast) : PendBcast :=
  { b, leaves := (if b.immediate then s.now else b.t) + ms, own := AckCounts.zero 0
    expect := s.upChildren.filter fun w => (s.watchPorts w).any fun p => decide (p ∈ s.forwardPorts came b)
    acks := [], reason := 0, first := 0, sent := none }

/-- The broadcast enters the pending table, or, where that is full, the list of those that have left it. -/
def State.bcastEnter (s : State) (came : Option Nat) (b : Bcast) : State :=
  if 32 ≤ s.svc.pend.length then (s.svcErr errBcastFull).modSvc fun x => { x with past := (bcastKey b :: x.past).take 256 }
  else s.modSvc fun x => { x with pend := x.pend ++ [s.pendNew came b] }

/-- An entry with what the node's own act answered. -/
def Acted.noted (a : Acted) (node : BitVec 16) (e : PendBcast) : PendBcast :=
  { e with own := a.own, reason := BitVec.ofNat 8 a.reason, first := if a.reason = 0 then 0 else node }

theorem bcastTake_known (h : s.bcastKnown (bcastKey b) = true) : s.bcastTake came b act = s.bumpFld svcPage 0x50 16 8 1 := by
  rw [State.bcastTake, if_pos h]

theorem bcastTake_new (h : s.bcastKnown (bcastKey b) = false) : s.bcastTake came b act =
    ((act (s.bcastEnter came b) b).s.modPend (bcastKey b) ((act (s.bcastEnter came b) b).noted (s.bcastEnter came b).node)).bcastForward
      b (s.forwardPorts came b) := by
  rw [State.bcastTake, if_neg (by simp [h])]
  simp only [decide_eq_true_eq]
  rfl

/-- The service processors with these broadcasts delayed by an injection. -/
def withDelayed (d : List (FT × List Nat × Bcast)) (x : Svc) : Svc := { x with delayed := d }

theorem bcastForward_svc (s : State) (b : Bcast) (ports : List Nat) : ∃ d, (s.bcastForward b ports).svc = withDelayed d s.svc := by
  unfold State.bcastForward
  dsimp only
  split_ifs
  · exact ⟨s.svc.delayed, rfl⟩
  · rw [modSvc_svc, injTake_svc]
    exact ⟨s.svc.delayed ++ [(s.now + 20 * us, ports, b)], rfl⟩
  · have hsend : (ports.foldl (fun (u : State) p => u.sendBcast b p) (s.injTake svcPage 0x11).2).svc = s.svc :=
      (foldl_keeps (fun u : State => u.svc) (g := fun (u : State) p => u.sendBcast b p) (fun _ _ => rfl) ports _).trans
        (injTake_svc s _ _)
    exact ⟨s.svc.delayed, hsend⟩

theorem bcastForward_known (s : State) (b : Bcast) (ports : List Nat) (k : BitVec 16 × BitVec 32) :
    (s.bcastForward b ports).bcastKnown k = s.bcastKnown k := by
  obtain ⟨d, hd⟩ := bcastForward_svc s b ports
  exact bcastKnown_congr (by rw [hd]; rfl) (by rw [hd]; rfl) k

theorem bcastForward_count (s : State) (b : Bcast) (ports : List Nat) : (s.bcastForward b ports).svc.count = s.svc.count := by
  obtain ⟨d, hd⟩ := bcastForward_svc s b ports
  rw [hd]
  rfl

theorem bcastEnter_known (s : State) (came : Option Nat) (b : Bcast) : (s.bcastEnter came b).bcastKnown (bcastKey b) = true := by
  unfold State.bcastEnter State.bcastKnown
  split_ifs
  · simp
  · simp [State.pendNew]

/-- A broadcast that has been taken is known, where the node's act keeps the pending table and the list of those that left it. -/
theorem bcastTake_isKnown (hpend : ∀ u, (act u b).s.svc.pend = u.svc.pend) (hpast : ∀ u, (act u b).s.svc.past = u.svc.past) :
    (s.bcastTake came b act).bcastKnown (bcastKey b) = true := by
  cases h : s.bcastKnown (bcastKey b) with
  | true => rw [bcastTake_known h]; exact h
  | false =>
    rw [bcastTake_new h, bcastForward_known, modPend_known (by exact fun e => rfl),
      bcastKnown_congr (hpend _) (hpast _)]
    exact bcastEnter_known s came b

theorem bcastTake_count (hact : ∀ u, (act u b).s.svc.count = u.svc.count) : (s.bcastTake came b act).svc.count = s.svc.count := by
  cases h : s.bcastKnown (bcastKey b) with
  | true => rw [bcastTake_known h]; rfl
  | false =>
    rw [bcastTake_new h, bcastForward_count]
    refine (hact _).trans ?_
    unfold State.bcastEnter
    split_ifs <;> rfl

/-- A command page that the node's act leaves as it is stays as it is. -/
theorem bcastTake_cmd {g : Bool} {n : Nat} (hact : ∀ u : State, u.cmd g n = s.cmd g n → (act u b).s.cmd g n = s.cmd g n) :
    (s.bcastTake came b act).cmd g n = s.cmd g n := by
  cases h : s.bcastKnown (bcastKey b) with
  | true => rw [bcastTake_known h]; rfl
  | false =>
    rw [bcastTake_new h, cmd_of_only (fun hL ho => bcastForward_only hL ho) (by decide)]
    refine hact _ ?_
    unfold State.bcastEnter
    split_ifs <;> rfl

end Take

/-! ### Acknowledgements (R325) -/

section Acks
variable {s : State} {a : BcastAck} {e : PendBcast}

/-- The counts of an acknowledgement. -/
def ackOf (a : BcastAck) : AckCounts :=
  { armed := a.armed.toNat, notArmed := a.notArmed.toNat, notMember := a.notMember.toNat, missing := a.missing.toNat }

/-- An entry with the acknowledgement of the sender numbered `n`. -/
def ackStored (a : BcastAck) (n : Nat) (e : PendBcast) : PendBcast :=
  { e with
    acks := Tab.write noAck e.acks n (some (ackOf a))
    reason := if e.reason = 0 then a.reason else e.reason
    first := if e.reason = 0 then a.first else e.first }

theorem ackStored_read (a : BcastAck) (n : Nat) (e : PendBcast) : Tab.read noAck (ackStored a n e).acks n = some (ackOf a) :=
  Tab.read_write_same noAck e.acks n (some (ackOf a))

/-- The broadcast of an acknowledgement. -/
def ackedKey (a : BcastAck) : BitVec 16 × BitVec 32 := (a.origin, a.seq)

/-- A child's acknowledgement makes it, or not, the job's child here; then commands whose subtree has answered end. -/
def State.ackTaken (s : State) (e : PendBcast) (n : Nat) : State :=
  (if n < 1000 ∧ s.isMate = false then
    s.jobKid e (n / 2) ((childAck e (n / 2)).map (·.armed) |>.getD 0)
      ((childAck e (n / 2)).map (fun a => a.armed + a.notArmed) |>.getD 0)
  else s).bcastDone

theorem execBcastAck_none (h : s.pendOf (ackedKey a) = none) : exec (.bcastAck a) s = finish s := by
  show finish _ = _
  dsimp only
  split
  next => rfl
  next hs => cases h.symm.trans hs

theorem execBcastAck_known (h : s.pendOf (ackedKey a) = some e) : exec (.bcastAck a) s =
    finish ((s.modPend (ackedKey a) (ackStored a (s.ackKey a.sender))).ackTaken (ackStored a (s.ackKey a.sender) e)
      (s.ackKey a.sender)) := by
  have hstored := modPend_pendOf (f := ackStored a (s.ackKey a.sender)) (by exact fun e => rfl) h
  show finish _ = _
  dsimp only
  split
  next hn => cases h.symm.trans hn
  next =>
    split
    next hs =>
      cases hstored.symm.trans hs
      rfl
    next hn => cases hstored.symm.trans hn

theorem ackTaken_pendOf (s : State) (e : PendBcast) (n : Nat) (k : BitVec 16 × BitVec 32) : (s.ackTaken e n).pendOf k = s.pendOf k := by
  unfold State.ackTaken
  rw [pendOf_congr (pend_of_only (fun hL ho => bcastDone_only hL ho) (by decide))]
  split_ifs
  · exact pendOf_congr (pend_of_only (fun hL ho => jobKid_only hL ho) (by decide)) k
  · rfl

/-- An entry whose acknowledgement has been sent at `t`. -/
def ackSent (c : AckCounts) (t : FT) (e : PendBcast) : PendBcast := { e with sent := some (c, t) }

/-- The first acknowledgement of an immediate broadcast of another node leaves at once. -/
theorem execBcastAckSend_first (h : s.pendOf (bcastKey e.b) = some e) (ho : e.b.origin ≠ s.node) (hs : e.sent = none)
    (hi : e.b.immediate = true) : exec (.bcastAckSend e.b.origin e.b.seq) s =
      finish (((s.advanceTo s.now).sendTyp 0x05 s.parentDests (ackBytes e (s.ackCounts e) s.node)).modPend (bcastKey e.b)
        (ackSent (s.ackCounts e) s.now)) := by
  show finish _ = _
  rw [show s.pendOf (e.b.origin, e.b.seq) = some e from h]
  simp only [hs, hi, ho, Nat.max_zero, Option.map_none, reduceCtorEq, Bool.true_eq_false, false_and, or_self, if_false]
  rfl

end Acks

/-! ### A broadcast leaves the pending table (R323, R326) -/

section Expire
variable {s : State} {e : PendBcast}

/-- The pending table without a broadcast, which has left it. -/
def unlisted (k : BitVec 16 × BitVec 32) (x : Svc) : Svc :=
  { x with pend := x.pend.filter fun v => !decide (bcastKey v.b = k), past := (k :: x.past).take 256 }

/-- The state in which a broadcast has left the pending table at its instant. -/
def State.expired (s : State) (e : PendBcast) : State := (s.advanceTo e.leaves).modSvc (unlisted (bcastKey e.b))

/-- The end of an entry of this node ends the commands that waited for its subtree. -/
def State.expireEnds (s : State) (node origin : BitVec 16) (seq : BitVec 32) (c : AckCounts) : State :=
  if origin = node ∧ 0 < c.notArmed + c.missing then
    let s := (s.waiters fun w => decide (w = .event 30 seq.toNat)).foldl (fun s p => s.setRes p.1 p.2 0 (c.notArmed + c.missing)) s
    if c.missing = 0 then s else
    (s.endBcast (.event 28 seq.toNat) (c.notArmed + c.missing) stTimeout 0).endBcast (.event 29 seq.toNat)
      (c.notArmed + c.missing) stTimeout 0
  else s

/-- What an entry's instant does: a RELOCK's stays while a timekeeper has still to step (log entry 101). -/
def State.entryEnds (s : State) (e : PendBcast) : State :=
  if relockOpen e then s else (s.expired e).expireEnds s.node e.b.origin e.b.seq (s.ackCounts e)

theorem execPendingExpire_known (h : s.pendOf (bcastKey e.b) = some e) :
    exec (.pendingExpire e.b.origin e.b.seq) s = finish (s.entryEnds e) := by
  show finish _ = _
  split
  next hn => cases h.symm.trans hn
  next hs =>
    cases h.symm.trans hs
    rfl

theorem endBcast_svc (s : State) (w : Wait) (m : Nat) (st : Byte) (d : Nat) : (s.endBcast w m st d).svc = s.svc :=
  foldl_keeps (fun u : State => u.svc) (g := fun u (p : Bool × Nat) => (u.setRes p.1 p.2 0 m).complete p.1 p.2 st d) (fun _ _ => rfl) _ s

theorem endBcast_now (s : State) (w : Wait) (m : Nat) (st : Byte) (d : Nat) : (s.endBcast w m st d).now = s.now :=
  now_of_only (fun hL ho => endBcast_only hL ho) (by decide)

theorem foldl_setRes_svc (l : List (Bool × Nat)) (m : Nat) (s : State) :
    (l.foldl (fun (u : State) p => u.setRes p.1 p.2 0 m) s).svc = s.svc :=
  foldl_keeps (fun u : State => u.svc) (g := fun u (p : Bool × Nat) => u.setRes p.1 p.2 0 m) (fun _ _ => rfl) l s

theorem foldl_setRes_now (l : List (Bool × Nat)) (m : Nat) (s : State) :
    (l.foldl (fun (u : State) p => u.setRes p.1 p.2 0 m) s).now = s.now :=
  foldl_keeps (fun u : State => u.now) (g := fun u (p : Bool × Nat) => u.setRes p.1 p.2 0 m) (fun _ _ => rfl) l s

/-- What follows the entry's end concerns the command pages alone. -/
theorem expireEnds_keeps (s : State) (node origin : BitVec 16) (seq : BitVec 32) (c : AckCounts) :
    (s.expireEnds node origin seq c).svc = s.svc ∧ (s.expireEnds node origin seq c).now = s.now := by
  unfold State.expireEnds
  dsimp only
  split_ifs
  · exact ⟨foldl_setRes_svc _ _ _, foldl_setRes_now _ _ _⟩
  · rw [endBcast_svc, endBcast_svc, endBcast_now, endBcast_now]
    exact ⟨foldl_setRes_svc _ _ _, foldl_setRes_now _ _ _⟩
  · exact ⟨rfl, rfl⟩

theorem unlisted_pendOf (s : State) (k : BitVec 16 × BitVec 32) : (s.modSvc (unlisted k)).pendOf k = none := by
  simp [State.pendOf, unlisted, List.find?_eq_none]

theorem mem_unlisted_past (k : BitVec 16 × BitVec 32) (x : Svc) : k ∈ (unlisted k x).past := by
  simp [unlisted]

end Expire

/-! ### Commands that wait (R81, R83) -/

section Waiting
variable {s : State} {g : Bool} {n : Nat}

/-- The number under which a command page stands. -/
def cmdIx (q : Bool × Nat) : Nat := q.2 % 8 + if q.1 then 8 else 0

theorem cmd_of_cmdIx {q r : Bool × Nat} (h : cmdIx q = cmdIx r) (s : State) : s.cmd q.1 q.2 = s.cmd r.1 r.2 :=
  congrArg (Tab.read CmdPage.reset s.pages.cmds) h

theorem mem_inOrder {x y : Bool × Nat} {l : List (Bool × Nat)} (h : y ∈ s.inOrder x l) : y = x ∨ y ∈ l := by
  induction l with
  | nil => exact .inl (List.mem_singleton.1 h)
  | cons z l ih =>
    unfold State.inOrder at h
    split_ifs at h
    · exact List.mem_cons.1 h
    · rcases List.mem_cons.1 h with rfl | h
      · exact .inr List.mem_cons_self
      · exact (ih h).imp_right (List.mem_cons_of_mem _)

/-- A page among those that wait is BUSY and waits for what is asked. -/
theorem waits_of_mem_waiters {p : Wait → Bool} {q : Bool × Nat} (h : q ∈ s.waiters p) :
    (s.cmd q.1 q.2).busy = true ∧ p (s.cmd q.1 q.2).wait = true := by
  unfold State.waiters at h
  have hsub : ∀ l : List (Bool × Nat), q ∈ l.foldr s.inOrder [] → q ∈ l := by
    intro l
    induction l with
    | nil => exact id
    | cons x l ih => exact fun h => List.mem_cons.2 ((mem_inOrder h).imp_right ih)
  simpa using (List.mem_filter.1 (hsub _ h)).2

/-- A command page whose command has ended. -/
def cmdEnded (st : Byte) (d : Nat) (x : CmdPage) : CmdPage :=
  { x with busy := false, done := true, status := st, detail := BitVec.ofNat 8 d, wait := .none, ticks := 0 }

theorem complete_cmd (s : State) (q : Bool × Nat) (st : Byte) (d : Nat) : (s.complete q.1 q.2 st d).cmd g n =
    if cmdIx (g, n) = cmdIx q then cmdEnded st d (s.cmd q.1 q.2) else s.cmd g n :=
  Tab.read_write CmdPage.reset s.pages.cmds (cmdIx q) (cmdIx (g, n)) (cmdEnded st d (s.cmd q.1 q.2))

theorem startResults_cmd (s : State) (p : Bool × Nat) (j : JobEntry) : (s.startResults p j).cmd g n = s.cmd g n := by
  unfold State.startResults
  rfl

/-- A page stays as it is where each of those that are served is another. -/
theorem foldl_pages_cmd {F : State → Bool × Nat → State} {l : List (Bool × Nat)}
    (hF : ∀ u q, cmdIx (g, n) ≠ cmdIx q → (F u q).cmd g n = u.cmd g n) (hl : ∀ q ∈ l, cmdIx (g, n) ≠ cmdIx q) (s : State) :
    (l.foldl F s).cmd g n = s.cmd g n := by
  induction l generalizing s with
  | nil => rfl
  | cons q l ih =>
    rw [List.foldl_cons, ih (fun r hr => hl r (List.mem_cons_of_mem _ hr)), hF s q (hl q List.mem_cons_self)]

/-- A page that does not wait for what is asked is none of those that do. -/
theorem not_waiter {p : Wait → Bool} (h : ((s.cmd g n).busy && p (s.cmd g n).wait) = false) :
    ∀ q ∈ s.waiters p, cmdIx (g, n) ≠ cmdIx q := by
  intro q hq he
  obtain ⟨hb, hw⟩ := waits_of_mem_waiters hq
  rw [← cmd_of_cmdIx he] at hb hw
  simp [hb, hw] at h

theorem endBcast_cmd {w : Wait} (h : ((s.cmd g n).busy && decide ((s.cmd g n).wait = w)) = false) (count : Nat) (st : Byte) (d : Nat) :
    (s.endBcast w count st d).cmd g n = s.cmd g n :=
  foldl_pages_cmd (F := fun s p => (s.setRes p.1 p.2 0 count).complete p.1 p.2 st d)
    (fun _ q hq => (complete_cmd _ q st d).trans (if_neg hq)) (not_waiter (p := fun x => decide (x = w)) h) s

theorem startEnd_cmd {j : JobEntry} (h : ((s.cmd g n).busy && decide ((s.cmd g n).wait = .event 10 j.job.toNat)) = false)
    (st : Byte) (d : Nat) :
    (s.startEnd j st d).cmd g n = s.cmd g n :=
  foldl_pages_cmd (F := fun s p => (s.startResults p j).complete p.1 p.2 st d)
    (fun u q hq => ((complete_cmd _ q st d).trans (if_neg hq)).trans (startResults_cmd u q j))
    (not_waiter (p := fun x => decide (x = .event 10 j.job.toNat)) h) s

/-- A page waits for the subtree of the broadcast numbered `k`, or it has ended OK. -/
def subtreeWait (k : Nat) (x : CmdPage) : Prop :=
  (x.busy = true ∧ x.wait = .event 11 k) ∨ (x.busy = false ∧ x.done = true ∧ x.status = stOk ∧ x.detail = BitVec.ofNat 8 0)

theorem subtreeWait_not_other {k : Nat} {x : CmdPage} (h : subtreeWait k x) {w : Wait} (hw : Wait.event 11 k ≠ w) :
    (x.busy && decide (x.wait = w)) = false := by
  rcases h with ⟨-, h⟩ | ⟨h, -⟩
  · simp [h, hw]
  · simp [h]

theorem foldl_complete_subtreeWait {k : Nat} (l : List (Bool × Nat)) (s : State) (h : subtreeWait k (s.cmd g n)) :
    subtreeWait k ((l.foldl (fun (s : State) p => s.complete p.1 p.2 stOk 0) s).cmd g n) := by
  induction l generalizing s with
  | nil => exact h
  | cons q l ih =>
    refine ih _ ?_
    rw [complete_cmd]
    split_ifs
    · exact .inr ⟨rfl, rfl, rfl, rfl⟩
    · exact h

/-- The commands that wait for the subtree of one entry, and those of SET_EPOCH and TIME_RELOCK, end where it has answered. -/
def State.entryDone (s : State) (e : PendBcast) : State :=
  if e.b.origin = s.node ∧ (s.ackCounts e).missing = 0 then
    let q := e.b.seq.toNat
    let m := (s.ackCounts e).notArmed
    let s := (s.waiters fun w => decide (w = .event 11 q)).foldl (fun (s : State) p => s.complete p.1 p.2 stOk 0) s
    let s := if 0 < m then s.endBcast (.event 28 q) m stError 0x01
      else if s.samp.grid.pend.isSome then s
      else s.endBcast (.event 28 q) 0 stOk 0
    if 0 < m then s.endBcast (.event 29 q) m stError 0x03 else s.endBcast (.event 29 q) 0 stOk 0
  else s

theorem bcastDone_eq (s : State) : s.bcastDone = s.svc.pend.foldl State.entryDone s := rfl

theorem endBcast_subtreeWait {k : Nat} {w : Wait} (hw : Wait.event 11 k ≠ w) (h : subtreeWait k (s.cmd g n)) (m : Nat) (st : Byte)
    (d : Nat) : subtreeWait k ((s.endBcast w m st d).cmd g n) := by
  rw [endBcast_cmd (subtreeWait_not_other h hw)]
  exact h

theorem entryDone_subtreeWait {k : Nat} (h : subtreeWait k (s.cmd g n)) (e : PendBcast) : subtreeWait k ((s.entryDone e).cmd g n) := by
  have h28 (q : Nat) : Wait.event 11 k ≠ .event 28 q := by simp
  have h29 (q : Nat) : Wait.event 11 k ≠ .event 29 q := by simp
  unfold State.entryDone
  have hok := foldl_complete_subtreeWait (s.waiters fun w => decide (w = .event 11 e.b.seq.toNat)) s h
  dsimp only
  split_ifs
  · exact endBcast_subtreeWait (h29 _) (endBcast_subtreeWait (h28 _) hok _ _ _) _ _ _
  · exact endBcast_subtreeWait (h29 _) hok _ _ _
  · exact endBcast_subtreeWait (h29 _) (endBcast_subtreeWait (h28 _) hok _ _ _) _ _ _
  · exact h

theorem bcastDone_subtreeWait {k : Nat} (h : subtreeWait k (s.cmd g n)) : subtreeWait k (s.bcastDone.cmd g n) := by
  rw [bcastDone_eq]
  generalize s.svc.pend = l
  induction l generalizing s with
  | nil => exact h
  | cons e l ih => exact ih (entryDone_subtreeWait h e)

end Waiting

/-! ### The commands that send a broadcast (R324, R328, R344) -/

section Commands
variable {s u : State} {c : CmdIn} {a b : Nat} {g : Bool} {n : Nat}

/-- A page that has just accepted a command waits for nothing. -/
theorem begun_waits_nothing (hu : u.cmd c.pkg c.page.toNat = (s.begun c a b).cmd c.pkg c.page.toNat) {w : Wait} (hw : w ≠ .none) :
    ((u.cmd c.pkg c.page.toNat).busy && decide ((u.cmd c.pkg c.page.toNat).wait = w)) = false := by
  rw [hu, begun_cmd]
  simp [hw.symm]

theorem bcastSend_count (s : State) (kind : Nat) (immediate waves : Bool) (job guard : Nat) (t : FT) (runtime : Nat) (args : List Byte) :
    (s.bcastSend kind immediate waves job guard t runtime args actSvc).2.svc.count = s.svc.count + 1 :=
  (bcastTake_count fun _ => count_of_only (fun hL ho => actSvc_only hL ho) (by decide)).trans rfl

theorem actSvc_start {x : Bcast} (h : x.kind = 1) (s : State) : actSvc s x = s.jobArm x (decide (x.origin = s.node)) := by
  rw [actSvc, h]; rfl

theorem actSvc_end {x : Bcast} (h : x.kind = 2) (s : State) : (actSvc s x).s = s.jobEndHere x.job := by
  rw [actSvc, h]; rfl

theorem actSvc_runtime {x : Bcast} (h : x.kind = 6) (s : State) : (actSvc s x).s = s.runtimeHere x := by
  rw [actSvc, h]; rfl

/-- The end of a job ends the commands that wait for its start, and no other. -/
theorem jobEndHere_cmd (h : ∀ k, ((s.cmd g n).busy && decide ((s.cmd g n).wait = .event 10 k)) = false) (job : BitVec 16) :
    (s.jobEndHere job).cmd g n = s.cmd g n := by
  unfold State.jobEndHere
  dsimp only
  rw [cmd_of_only (fun hL ho => dropJob_only hL ho) (by decide)]
  split
  · split_ifs
    · exact startEnd_cmd (h _) _ _
    · rfl
  · rfl

/-- A page waits for a subtree, or has ended OK: so the command of the page does. -/
theorem subtreeWait_answers {t : State} {k : Nat} (h : subtreeWait k (t.cmd c.pkg c.page.toNat)) :
    t.settle.waits c (.event 11 k) ∨ t.settle.ended c stOk 0 := by
  rw [State.waits, State.ended, settle_cmd]
  exact h

/-- A command that has sent its broadcast waits for the subtree, unless that has answered already. -/
theorem waitSubtree_answers (hu : u.cmd c.pkg c.page.toNat = (s.begun c a b).cmd c.pkg c.page.toNat) (k : Nat) :
    ((u.waitFor c (.event 11 k)).bcastDone).settle.waits c (.event 11 k) ∨
    ((u.waitFor c (.event 11 k)).bcastDone).settle.ended c stOk 0 := by
  have hc : (u.waitFor c (.event 11 k)).cmd c.pkg c.page.toNat =
      { u.cmd c.pkg c.page.toNat with wait := .event 11 k, ticks := 0 } := Tab.read_write_same _ _ _ _
  refine subtreeWait_answers (bcastDone_subtreeWait (.inl ?_))
  rw [hc, hu, begun_cmd]
  exact ⟨rfl, rfl⟩

theorem bcastDone_count (s : State) : s.bcastDone.svc.count = s.svc.count :=
  count_of_only (fun hL ho => bcastDone_only hL ho) (by decide)

@[simp] theorem begun_jobOf (job : BitVec 16) : (s.begun c a b).jobOf job = s.jobOf job := jobOf_congr (by rw [begun_svc]) job

theorem begun_jobBusy (job : BitVec 16) : (s.begun c a b).jobBusy job = s.jobBusy job := by
  rw [State.jobBusy, begun_jobOf]; rfl

theorem begun_jobFree : (s.begun c a b).jobFree = s.jobFree := by
  obtain ⟨_, _, _, _, _, _, h⟩ := begun_eq s c a b
  rw [h]; rfl

/-- The registers of the service processors' page are none of the result words. -/
theorem begun_svcFld (off lo len : Nat) : (s.begun c a b).regFld svcPage off lo len = s.regFld svcPage off lo len := by
  refine congrArg (fld · lo len) (begun_reg s c a b _ _ fun k _ h => ?_)
  have htype := congrArg keyType (regKey_inj h).1
  rw [keyType_svcPage, keyType_cmdKey] at htype
  cases htype

theorem begun_jobStartFT : argFT c (s.begun c a b) 2 = argFT c s 2 := by
  simp only [argFT, argFTraw, begun_argW s c a b 2 (by decide), begun_argW s c a b (2 + 1) (by decide),
    begun_argW s c a b (2 + 2) (by decide)]

/-- A JOB_START that nothing refuses: the root takes its own broadcast, and the command waits for T. -/
def State.jobStarted (s : State) (c : CmdIn) (u : State) : State :=
  let guard := if argFld c s 5 0 16 = 0 then s.regFld svcPage 0x4C 16 16 else argFld c s 5 0 16
  (u.bcastSend 1 false (bit (argW c s 0) 16) (BitVec.ofNat 16 (argFld c s 0 0 16)).toNat guard (argFT c s 2) (argFld c s 1 0 16)
    (startArgs (argW c s 6).toNat (argW c s 7).toNat (argFld c s 8 0 6)) actSvc).2

theorem execJobStart_eq (h : s.takes c .operator = true) : exec (.jobStart c) s = finish
    (let guard := if argFld c s 5 0 16 = 0 then s.regFld svcPage 0x4C 16 16 else argFld c s 5 0 16
     let job : BitVec 16 := BitVec.ofNat 16 (argFld c s 0 0 16)
     let u := s.begun c 0x40 0x0001
     if job = 0 ∨ argFld c s 1 14 2 ≠ 0 then u.badArg c
     else if argFT c s 2 < s.now + (guard + 10) * us then u.failCmd c svLate
     else if s.jobBusy job then u.failCmd c svBusy
     else if (s.jobOf job).isNone ∧ s.jobFree.isNone then (u.svcErr errTableFull).failCmd c svTableFull
     else if 32 ≤ s.time.evts.length then u.failCmd c svEvtFull
     else (s.jobStarted c u).waitFor c (.event 10 job.toNat)) := by
  refine congrArg finish ((runCmd_takes h 0x40 0x0001 rfl _).trans ?_)
  simp only [jobStart, begun_argFld _ _ _ _ _ (show 0 < 32 by decide), begun_argFld _ _ 1 _ _ (by decide),
    begun_argFld _ _ 5 _ _ (by decide), begun_argFld _ _ 8 _ _ (by decide), begun_argW s c _ _ 0 (by decide),
    begun_argW s c _ _ 6 (by decide), begun_argW s c _ _ 7 (by decide), begun_jobOf, begun_jobBusy, begun_jobFree, begun_svcFld,
    begun_jobStartFT, begun_now, begun_time, State.jobStarted]

theorem jobStarted_cmd (s u : State) (c : CmdIn) : (s.jobStarted c u).cmd g n = u.cmd g n := by
  refine (bcastTake_cmd (s := (u.bcastNew _ _ _ _ _ _ _ _).2) fun v hv => ?_).trans rfl
  rw [actSvc_start rfl, cmd_of_only (fun hL ho => jobArm_only hL ho) (by decide), hv]

theorem execJobEnd_eq (h : s.takes c .operator = true) : exec (.jobEnd c) s = finish
    (let job : BitVec 16 := BitVec.ofNat 16 (argFld c s 0 0 16)
     let u := s.begun c 0x40 0x0002
     if (s.jobOf job).isNone then u.failCmd c svNoJob
     else ((u.bcastSend 2 true false job.toNat 0 0 0 [] actSvc).2.waitFor c
       (.event 11 ((s.hdr svcPage).incarn ++ s.svc.count).toNat)).bcastDone) := by
  refine congrArg finish ((runCmd_takes h 0x40 0x0002 rfl _).trans ?_)
  simp only [begun_argFld _ _ 0 _ _ (by decide), begun_jobOf]
  rw [← begun_hdrOf s c 0x40 0x0002, ← begun_svc s c 0x40 0x0002]
  rfl

theorem jobEnd_cmd (hu : u = s.begun c a b) (job : Nat) :
    (u.bcastSend 2 true false job 0 0 0 [] actSvc).2.cmd c.pkg c.page.toNat = u.cmd c.pkg c.page.toNat := by
  refine (bcastTake_cmd (s := (u.bcastNew _ _ _ _ _ _ _ _).2) fun v hv => ?_).trans rfl
  rw [actSvc_end rfl, jobEndHere_cmd (fun k => begun_waits_nothing (hv.trans (by rw [hu]; rfl)) (by simp)), hv]

theorem execRuntimeSet_eq (h : s.takes c .operator = true) : exec (.runtimeSet c) s = finish
    (let job : BitVec 16 := BitVec.ofNat 16 (argFld c s 0 0 16)
     let u := s.begun c 0x40 0x0005
     if ((s.jobOf job).any fun e => e.2.root) = false then u.failCmd c svNoJob
     else if argFld c s 1 14 2 ≠ 0 then u.badArg c
     else ((u.bcastSend 6 true false job.toNat 0 0 0 (leBytes 2 (argFld c s 1 0 16)) actSvc).2.waitFor c
       (.event 11 ((s.hdr svcPage).incarn ++ s.svc.count).toNat)).bcastDone) := by
  refine congrArg finish ((runCmd_takes h 0x40 0x0005 rfl _).trans ?_)
  simp only [begun_argFld _ _ 0 _ _ (show 0 < 32 by decide), begun_argFld _ _ 1 _ _ (show 1 < 32 by decide), begun_jobOf,
    Bool.not_eq_true']
  rw [← begun_hdrOf s c 0x40 0x0005, ← begun_svc s c 0x40 0x0005]
  rfl

theorem runtimeSet_cmd (u : State) (job : Nat) (args : List Byte) :
    (u.bcastSend 6 true false job 0 0 0 args actSvc).2.cmd g n = u.cmd g n := by
  refine (bcastTake_cmd (s := (u.bcastNew _ _ _ _ _ _ _ _).2) fun v hv => ?_).trans rfl
  rw [actSvc_runtime rfl, cmd_of_only (fun hL ho => runtimeHere_only hL ho) (by decide), hv]

end Commands

/-! ### The release of a job (R327) -/

section Release
variable {s : State} {job : BitVec 16} {i : Nat} {j : JobEntry}

/-- A job's number and entry, from an entry of the table. -/
def listedJob (e : Nat × Option JobEntry) : Option (Nat × JobEntry) := e.2.map fun j => (e.1, j)

/-- The entry of a job written again in its place is the one found for the job. -/
theorem find_insert_job {x : JobEntry} (hx : x.job = job) {l : Tab (Option JobEntry)}
    (h : (l.filterMap listedJob).find? (fun e => decide (e.2.job = job)) = some (i, j)) :
    ((Tab.insert i (some x) l).filterMap listedJob).find? (fun e => decide (e.2.job = job)) = some (i, x) := by
  have hnew : listedJob (i, some x) = some (i, x) := rfl
  induction l with
  | nil => cases h
  | cons e l ih =>
    obtain ⟨k, w⟩ := e
    unfold Tab.insert
    split_ifs with hik hlt
    · simp [hnew, hx]
    · simp [hnew, hx]
    · cases w with
      | none => exact ih h
      | some y =>
        have hcons (l : Tab (Option JobEntry)) : ((k, some y) :: l).filterMap listedJob = (k, y) :: l.filterMap listedJob := rfl
        rw [hcons, List.find?_cons] at h ⊢
        by_cases hy : y.job = job
        · simp only [hy, decide_true] at h
          cases h
          exact absurd rfl hik
        · simp only [hy, decide_false] at h ⊢
          exact ih h

theorem setJob_jobOf {x : JobEntry} (hx : x.job = job) (h : s.jobOf job = some (i, j)) :
    (s.setJob i (some x)).jobOf job = some (i, x) := by
  have hw : Tab.write noJobEntry s.svc.jobs i (some x) = Tab.insert i (some x) s.svc.jobs := if_neg (by simp [noJobEntry])
  show ((Tab.write noJobEntry s.svc.jobs i (some x)).filterMap listedJob).find? _ = _
  rw [hw]
  exact find_insert_job hx h

theorem job_of_jobOf (h : s.jobOf job = some (i, j)) : j.job = job := by simpa using List.find?_some h

/-- The entry of a job as it is released, with the dies that are armed. -/
def releasedEntry (count : Nat) (j : JobEntry) : JobEntry :=
  { j with state := .running, armedAtT := BitVec.ofNat 16 count, mark := j.t, markNo := none, snuffed := false }

/-- The state in which the entry of a job runs, its event is gone and STARTED is written. -/
def State.jobRuns (s : State) (job : BitVec 16) (i : Nat) (j : JobEntry) : State :=
  let u := ((s.advanceTo j.t).setJob i (some (releasedEntry ((s.advanceTo j.t).countsOf (j.rootNode, j.seq)).armed j))).evtDrop
    .jobStart job.toNat |>.svcStat
  if j.member then u.notice 0x0B job u.node j.t 0 [] (ftBytes j.t) [u.node] else u

theorem jobRelease_idle (h : s.jobOf job = some (i, j)) (hj : j.state ≠ .armed) : s.jobRelease job = s := by
  rw [State.jobRelease, h]
  exact if_neg hj

theorem jobRelease_snuffed (h : s.jobOf job = some (i, j)) (hj : j.state = .armed) (hs : s.snuffedBy j.t = true) :
    s.jobRelease job = (s.advanceTo j.t).startFail job 5 := by
  rw [State.jobRelease, h]
  exact (if_pos hj).trans (if_pos hs)

theorem jobRelease_runs (h : s.jobOf job = some (i, j)) (hj : j.state = .armed) (hs : s.snuffedBy j.t = false) :
    ∃ st d, s.jobRelease job = (s.jobRuns job i j).startEnd j st d := by
  rw [State.jobRelease, h]
  by_cases hc : ((s.advanceTo j.t).countsOf (j.rootNode, j.seq)).notArmed = 0 ∧
      ((s.advanceTo j.t).countsOf (j.rootNode, j.seq)).missing = 0
  · exact ⟨stOk, 0, (if_pos hj).trans ((if_neg (by simp [hs])).trans (if_pos hc))⟩
  · exact ⟨stError, svNotAll, (if_pos hj).trans ((if_neg (by simp [hs])).trans (if_neg hc))⟩

theorem jobRuns_now (s : State) (job : BitVec 16) (i : Nat) (j : JobEntry) : (s.jobRuns job i j).now = max s.now j.t := by
  unfold State.jobRuns
  dsimp only
  split_ifs
  · rw [now_of_only (fun hL ho => notice_only hL ho) (by decide)]
    rfl
  · rfl

theorem jobRuns_jobOf (h : s.jobOf job = some (i, j)) :
    (s.jobRuns job i j).jobOf job = some (i, releasedEntry ((s.advanceTo j.t).countsOf (j.rootNode, j.seq)).armed j) := by
  have hset := setJob_jobOf (s := s.advanceTo j.t) (x := releasedEntry ((s.advanceTo j.t).countsOf (j.rootNode, j.seq)).armed j)
    (show j.job = job from job_of_jobOf h) h
  unfold State.jobRuns
  dsimp only
  split_ifs
  · rw [jobOf_congr (svcJobs_of_only (fun hL ho => notice_only hL ho) (by decide))]
    exact hset
  · exact hset

theorem jobRelease_now (h : s.jobOf job = some (i, j)) (hj : j.state = .armed) : (s.jobRelease job).now = max s.now j.t := by
  cases hs : s.snuffedBy j.t with
  | true =>
    rw [jobRelease_snuffed h hj hs, now_of_only (fun hL ho => startFail_only hL ho) (by decide)]
    rfl
  | false =>
    obtain ⟨st, d, hr⟩ := jobRelease_runs h hj hs
    rw [hr, now_of_only (fun hL ho => startEnd_only hL ho) (by decide), jobRuns_now]

theorem jobRelease_running (h : s.jobOf job = some (i, j)) (hj : j.state = .armed) (hs : s.snuffedBy j.t = false) :
    ((s.jobRelease job).jobOf job).map (·.2.state) = some .running := by
  obtain ⟨st, d, hr⟩ := jobRelease_runs h hj hs
  rw [hr, jobOf_congr (svcJobs_of_only (fun hL ho => startEnd_only hL ho) (by decide)), jobRuns_jobOf h]
  rfl

theorem execJobRelease_idle (h : s.jobOf job = some (i, j)) (hj : j.state ≠ .armed) : exec (.jobRelease job) s = finish s := by
  show finish _ = _
  rw [h]
  dsimp only
  simp only [jobRelease_idle h hj, decide_eq_false hj, Bool.false_and, Bool.false_eq_true, if_false, ite_self]

/-- The waves of a released job change neither the clock nor the job table. -/
theorem execJobRelease_due (h : s.jobOf job = some (i, j)) (hd : s.earlierDue j.t 2 = false) : ∃ u : State,
    exec (.jobRelease job) s = finish u ∧ u.now = (s.jobRelease job).now ∧ u.svc.jobs = (s.jobRelease job).svc.jobs := by
  refine ⟨_, rfl, ?_⟩
  rw [h]
  dsimp only
  rw [if_neg (by simp [hd])]
  split_ifs
  · exact ⟨now_of_only (fun hL ho => waveArm_only hL ho) (by decide), svcJobs_of_only (fun hL ho => waveArm_only hL ho) (by decide)⟩
  · exact ⟨rfl, rfl⟩

end Release

end Sys2Proof.Machine
end

section
/-!
O47, clause by clause.
-/
namespace Sys2Proof.Machine

section Broadcasts
variable {s : State} {c : CmdIn} {a b : Nat}

theorem execBcast_taken {p : Nat} {b : Bcast} (hd : s.dark = false) (ha : s.awake = true) (hk : b.kind ≠ 8) :
    exec (.bcast p b) s = finish (s.bcastTake (some p) b actAll) :=
  congrArg finish ((if_neg (by simp [hd, ha])).trans (if_neg fun h => hk h.1))

theorem bcast_isKnown (s : State) (p : Nat) (b : Bcast) : (s.bcastTake (some p) b actAll).settle.bcastKnown (bcastKey b) = true := by
  rw [settle_bcastKnown]
  exact bcastTake_isKnown (fun _ => pend_of_only (fun hL ho => actAll_only hL ho) (by decide))
    fun _ => past_of_only (fun hL ho => actAll_only hL ho) (by decide)

/-- A duplicate is only counted. -/
theorem bcast_duplicate {p : Nat} {b : Bcast} (h : s.bcastKnown (bcastKey b) = true) :
    (s.bcastTake (some p) b actAll).settle.svc = s.svc ∧ (s.bcastTake (some p) b actAll).settle.jobs = s.jobs ∧
      (s.bcastTake (some p) b actAll).settle.mbox = s.mbox := by
  rw [bcastTake_known h, settle_svc, settle_jobs, settle_mbox]
  exact ⟨rfl, rfl, rfl⟩

theorem bcastAck_stored {a : BcastAck} {e : PendBcast} (h : s.pendOf (ackedKey a) = some e) :
    ((s.modPend (ackedKey a) (ackStored a (s.ackKey a.sender))).ackTaken (ackStored a (s.ackKey a.sender) e)
      (s.ackKey a.sender)).settle.pendOf (ackedKey a) = some (ackStored a (s.ackKey a.sender) e) := by
  rw [settle_pendOf, ackTaken_pendOf, modPend_pendOf (by exact fun e => rfl) h]

theorem bcastAckSend_sent {e : PendBcast} (h : s.pendOf (bcastKey e.b) = some e) (c : AckCounts) (bytes : List Byte) :
    (((s.advanceTo s.now).sendTyp 0x05 s.parentDests bytes).modPend (bcastKey e.b) (ackSent c s.now)).settle.now = s.now ∧
    (((s.advanceTo s.now).sendTyp 0x05 s.parentDests bytes).modPend (bcastKey e.b) (ackSent c s.now)).settle.pendOf (bcastKey e.b) =
      some (ackSent c s.now e) := by
  rw [settle_now, settle_pendOf]
  exact ⟨Nat.max_self s.now, modPend_pendOf (s := (s.advanceTo s.now).sendTyp 0x05 s.parentDests bytes) (by exact fun e => rfl) h⟩

theorem pendingExpire_ends (s : State) (e : PendBcast) :
    if relockOpen e then (s.entryEnds e).settle.now = s.now ∧ (s.entryEnds e).settle.svc = s.svc
    else (s.entryEnds e).settle.now = max s.now e.leaves ∧ (s.entryEnds e).settle.pendOf (bcastKey e.b) = none ∧
      bcastKey e.b ∈ (s.entryEnds e).settle.svc.past := by
  obtain ⟨hsvc, hnow⟩ := expireEnds_keeps (s.expired e) s.node e.b.origin e.b.seq (s.ackCounts e)
  unfold State.entryEnds
  split_ifs
  · exact ⟨settle_now s, settle_svc s⟩
  · rw [settle_now, settle_pendOf, settle_svc, hnow, pendOf_congr (congrArg Svc.pend hsvc), hsvc]
    exact ⟨rfl, unlisted_pendOf (s.advanceTo e.leaves) _, mem_unlisted_past _ _⟩

theorem jobStart_answers (h : s.takes c .operator = true) : ∃ u, exec (.jobStart c) s = finish u ∧
    (let guard := if argFld c s 5 0 16 = 0 then s.regFld svcPage 0x4C 16 16 else argFld c s 5 0 16
     let job : BitVec 16 := BitVec.ofNat 16 (argFld c s 0 0 16)
     if job = 0 ∨ argFld c s 1 14 2 ≠ 0 then u.settle.ended c stBadArg 0 ∧ u.settle.jobs = s.jobs
     else if argFT c s 2 < s.now + (guard + 10) * us then u.settle.ended c stError svLate ∧ u.settle.jobs = s.jobs
     else if s.jobBusy job then u.settle.ended c stError svBusy ∧ u.settle.jobs = s.jobs
     else if (s.jobOf job).isNone ∧ s.jobFree.isNone then u.settle.ended c stError svTableFull ∧ u.settle.jobs = s.jobs
     else if 32 ≤ s.time.evts.length then u.settle.ended c stError svEvtFull ∧ u.settle.jobs = s.jobs
     else u.settle.waits c (.event 10 job.toNat) ∧ u.settle.svc.count = s.svc.count + 1) := by
  refine ⟨_, execJobStart_eq h, ?_⟩
  have hjobs : (s.begun c 0x40 0x0001).jobs = s.jobs := jobs_congr (by rw [begun_svc])
  dsimp only
  generalize (if argFld c s 5 0 16 = 0 then s.regFld svcPage 0x4C 16 16 else argFld c s 5 0 16) = guard
  split_ifs
  · exact ⟨done_ended stBadArg 0, (settle_jobs _).trans hjobs⟩
  · exact ⟨failCmd_ended svLate, (settle_jobs _).trans hjobs⟩
  · exact ⟨failCmd_ended svBusy, (settle_jobs _).trans hjobs⟩
  · exact ⟨failCmd_ended svTableFull, (settle_jobs _).trans hjobs⟩
  · exact ⟨failCmd_ended svEvtFull, (settle_jobs _).trans hjobs⟩
  · refine ⟨begun_waits _ (jobStarted_cmd s _ c), ?_⟩
    rw [settle_svc]
    refine (bcastSend_count (s.begun c 0x40 0x0001) ..).trans ?_
    rw [begun_svc]

/-- A command that sends a broadcast and waits for its subtree has counted that broadcast. -/
theorem subtree_count {u : State} (k : Nat) (h : u.svc.count = (s.begun c a b).svc.count + 1) :
    ((u.waitFor c (.event 11 k)).bcastDone).settle.svc.count = s.svc.count + 1 := by
  rw [settle_svc, bcastDone_count]
  exact h.trans (by rw [begun_svc])

theorem jobEnd_answers (h : s.takes c .operator = true) : ∃ u, exec (.jobEnd c) s = finish u ∧
    (if (s.jobOf (BitVec.ofNat 16 (argFld c s 0 0 16))).isNone then u.settle.ended c stError svNoJob ∧ u.settle.svc = s.svc
     else u.settle.svc.count = s.svc.count + 1 ∧
      (u.settle.waits c (.event 11 ((s.hdr svcPage).incarn ++ s.svc.count).toNat) ∨ u.settle.ended c stOk 0)) := by
  refine ⟨_, execJobEnd_eq h, ?_⟩
  dsimp only
  split_ifs
  · exact ⟨failCmd_ended svNoJob, (settle_svc _).trans (begun_svc s c _ _)⟩
  · exact ⟨subtree_count _ (bcastSend_count ..), waitSubtree_answers (jobEnd_cmd rfl _) _⟩

theorem runtimeSet_answers (h : s.takes c .operator = true) : ∃ u, exec (.runtimeSet c) s = finish u ∧
    (if ((s.jobOf (BitVec.ofNat 16 (argFld c s 0 0 16))).any fun e => e.2.root) = false then
       u.settle.ended c stError svNoJob ∧ u.settle.svc = s.svc
     else if argFld c s 1 14 2 ≠ 0 then u.settle.ended c stBadArg 0 ∧ u.settle.svc = s.svc
     else u.settle.svc.count = s.svc.count + 1 ∧
      (u.settle.waits c (.event 11 ((s.hdr svcPage).incarn ++ s.svc.count).toNat) ∨ u.settle.ended c stOk 0)) := by
  refine ⟨_, execRuntimeSet_eq h, ?_⟩
  dsimp only
  split_ifs
  · exact ⟨failCmd_ended svNoJob, (settle_svc _).trans (begun_svc s c _ _)⟩
  · exact ⟨done_ended stBadArg 0, (settle_svc _).trans (begun_svc s c _ _)⟩
  · exact ⟨subtree_count _ (bcastSend_count ..), waitSubtree_answers (runtimeSet_cmd _ _ _) _⟩

theorem jobRelease_answers {job : BitVec 16} {i : Nat} {j : JobEntry} (h : s.jobOf job = some (i, j)) (hj : j.state = .armed)
    (hd : s.earlierDue j.t 2 = false) : ∃ u, exec (.jobRelease job) s = finish u ∧ u.settle.now = max s.now j.t ∧
      (s.snuffedBy j.t = false → (u.settle.jobOf job).map (·.2.state) = some .running) := by
  obtain ⟨u, hx, hnow, hjobs⟩ := execJobRelease_due h hd
  refine ⟨u, hx, ?_, fun hs => ?_⟩
  · rw [settle_now, hnow, jobRelease_now h hj]
  · rw [settle_jobOf, jobOf_congr hjobs]
    exact jobRelease_running h hj hs

end Broadcasts

/-- A state that nothing touches settles within the parts that settling owns. -/
theorem next_of_finish_self {o : Host.Outcome State Fault Refusal} {s : State} (hx : o = finish s) :
    ∃ t, o = .next t ∧ s.onlyChanges t [.lines, .xfers, .out, .inj] :=
  ⟨_, hx, settle_only (by decide) (onlyChanges_refl s _)⟩

/-- Settles O47, a lemma for each clause. -/
theorem broadcastsAreKnownAckedAndReleased : Obligations.BroadcastsAreKnownAckedAndReleased := by
  unfold Obligations.BroadcastsAreKnownAckedAndReleased
  refine ⟨?bcast, ?ackNone, ?ack, ?ackSend, ?expire, ?commands, ?release, execBcast_only, execBcastAck_only,
    fun o q s => ⟨execBcastAckSend_only o q s, execPendingExpire_only o q s⟩,
    fun c s => ⟨execJobStart_only c s, execJobEnd_only c s, execRuntimeSet_only c s⟩, execJobRelease_only⟩
  case bcast =>
    intro p b s hd ha hk
    exact next_of_finish (execBcast_taken hd ha hk) (execBcast_only p b s) ⟨bcast_isKnown s p b, bcast_duplicate⟩
  case ackNone =>
    intro a s h
    exact next_of_finish_self (execBcastAck_none h)
  case ack =>
    intro a e s h
    exact next_of_finish (execBcastAck_known h) (execBcastAck_only a s) ⟨_, bcastAck_stored h, ackStored_read a _ e⟩
  case ackSend =>
    intro e s h ho hs hi
    exact next_of_finish (execBcastAckSend_first h ho hs hi) (execBcastAckSend_only _ _ s) (bcastAckSend_sent h _ _)
  case expire =>
    intro e s h
    exact next_of_finish (execPendingExpire_known h) (execPendingExpire_only _ _ s) (pendingExpire_ends s e)
  case commands =>
    intro c s h
    obtain ⟨u, hu, hstart⟩ := jobStart_answers h
    obtain ⟨v, hv, hend⟩ := jobEnd_answers h
    obtain ⟨w, hw, hruntime⟩ := runtimeSet_answers h
    exact ⟨next_of_finish hu (execJobStart_only c s) hstart, next_of_finish hv (execJobEnd_only c s) hend,
      next_of_finish hw (execRuntimeSet_only c s) hruntime⟩
  case release =>
    intro job i j s h
    refine ⟨fun hj => next_of_finish_self (execJobRelease_idle h hj), fun hj hd => ?_⟩
    obtain ⟨u, hu, hruns⟩ := jobRelease_answers h hj hd
    exact next_of_finish hu (execJobRelease_only job s) hruns

end Sys2Proof.Machine
end

section
/-!
O48 (R329 to R349): step windows, liveness, notices and the verification log. What a node does about a step or a notice keeps the open
windows and the notices already written, but for the one window that it emits and the one notice that it writes.
-/
namespace Sys2Proof.Machine

/-! ### What an operation leaves of the windows, the notices and the checks, from its frame -/

section Leaves
variable {s t : State} {l : List Part}

theorem wins_of_only (h : names l l = true → s.onlyChanges s l → s.onlyChanges t l) (hl : ∀ q ∈ l, q.covers .jobs = false) :
    t.svc.wins = s.svc.wins := congrArg (·.2.1) (same_of_only .jobs h hl)

theorem claims_of_only (h : names l l = true → s.onlyChanges s l → s.onlyChanges t l) (hl : ∀ q ∈ l, q.covers .jobs = false) :
    t.svc.claims = s.svc.claims := congrArg (·.2.2.2) (same_of_only .jobs h hl)

theorem written_of_only (h : names l l = true → s.onlyChanges s l → s.onlyChanges t l)
    (hl : ∀ q ∈ l, q.covers .svcNotices = false) :
    t.svc.written = s.svc.written := congrArg Prod.snd (same_of_only .svcNotices h hl)

theorem checkAt_of_only (h : names l l = true → s.onlyChanges s l → s.onlyChanges t l) (hl : ∀ q ∈ l, q.covers .watch = false) :
    t.svc.checkAt = s.svc.checkAt := congrArg (·.2.2.2) (same_of_only .watch h hl)

theorem verify_of_only (h : names l l = true → s.onlyChanges s l → s.onlyChanges t l) (hl : ∀ q ∈ l, q.covers .verify = false) :
    t.rot.verify = s.rot.verify := congrArg Prod.fst (same_of_only .verify h hl)

end Leaves

/-! ### Windows and written notices (R331, R333, R348) -/

section Windows
variable {s : State}

/-- The open step windows, and the notices that have been written to the ring. -/
def State.winsWritten (s : State) : List StepWin × List (BitVec 16 × BitVec 32) := (s.svc.wins, s.svc.written)

/-- To send a notice writes none here that was received. -/
theorem notice_winsWritten (s : State) (kind : Nat) (job subject : BitVec 16) (when' : FT) (flags : Nat) (param body : List Byte)
    (dests : List (BitVec 16)) : (s.notice kind job subject when' flags param body dests).winsWritten = s.winsWritten := by
  have hto (bytes : List Byte) (u : State) (n : BitVec 16) : (u.noticeTo bytes n).winsWritten = u.winsWritten :=
    Prod.ext (wins_of_only (fun hL ho => noticeTo_only hL ho) (by decide))
      (written_of_only (fun hL ho => noticeTo_only hL ho) (by decide))
  exact (foldl_keeps State.winsWritten (hto _) dests.eraseDups _).trans rfl

theorem notice_written (s : State) (kind : Nat) (job subject : BitVec 16) (when' : FT) (flags : Nat) (param body : List Byte)
    (dests : List (BitVec 16)) : (s.notice kind job subject when' flags param body dests).svc.written = s.svc.written :=
  congrArg Prod.snd (notice_winsWritten s kind job subject when' flags param body dests)

theorem modJob_winsWritten (s : State) (job : BitVec 16) (f : JobEntry → JobEntry) : (s.modJob job f).winsWritten = s.winsWritten := by
  unfold State.modJob
  split <;> rfl

theorem stepTest_winsWritten (job : BitVec 16) (step q sub flags : Nat) (more : Bool) (l : List (Int × Nat)) (s : State) :
    (s.stepTest job step q sub flags more l).winsWritten = s.winsWritten := by
  induction l generalizing s with
  | nil => rfl
  | cons p l ih =>
    unfold State.stepTest
    split
    next => rfl
    next i j hj =>
      refine (ih _).trans ?_
      by_cases hp : straggler p.1.toNat q j.ratio.toNat = true
      · rw [if_pos hp]
        exact (notice_winsWritten ..).trans rfl
      · rw [if_neg hp]

theorem stepLate_winsWritten (s : State) (job : BitVec 16) (step : BitVec 32) (q : Nat) (pairs : List (Int × Nat)) :
    (s.stepLate job step q pairs).winsWritten = s.winsWritten := by
  unfold State.stepLate
  split
  · rfl
  · exact (stepTest_winsWritten ..).trans rfl

/-- The windows of other steps. -/
def otherWins (w : StepWin) (l : List StepWin) : List StepWin := l.filter fun v => !(decide (v.job = w.job) && decide (v.step = w.step))

theorem stepEmit_winsWritten {w : StepWin} {i : Nat} {j : JobEntry} (h : s.jobOf w.job = some (i, j)) :
    (s.stepEmit w).winsWritten = (otherWins w s.svc.wins, s.svc.written) := by
  unfold State.stepEmit
  rw [h]
  dsimp only
  split_ifs
  · refine (stepLate_winsWritten ..).trans ?_
    refine (foldl_keeps State.winsWritten (fun u k => ?_) _ _).trans ?_
    · exact (notice_winsWritten ..).trans ((modJob_winsWritten ..).trans rfl)
    · exact (stepTest_winsWritten ..).trans rfl
  · exact (stepLate_winsWritten ..).trans ((stepTest_winsWritten ..).trans rfl)
  · rfl

theorem stepEmit_written (s : State) (w : StepWin) : (s.stepEmit w).svc.written = s.svc.written := by
  cases h : s.jobOf w.job with
  | none =>
    unfold State.stepEmit
    rw [h]
  | some e => exact congrArg Prod.snd (stepEmit_winsWritten h)

theorem stepRetry_written (s : State) : s.stepRetry.svc.written = s.svc.written := by
  refine foldl_keeps (fun u : State => u.svc.written) (g := fun (u : State) w => u.stepTry w.job w.step) (fun u w => ?_) s.svc.wins s
  unfold State.stepTry
  split
  · split_ifs
    · exact stepEmit_written ..
    · rfl
  · rfl

end Windows

/-! ### Assertions (R342, R343) -/

section Assertions
variable {s : State}

theorem claimMark_written (s : State) (a : Assertion) : (s.claimMark a).svc.written = s.svc.written := by
  have hlog (u : State) (code subject arg : Nat) : (u.log 0x40 0 code 5 subject arg []).svc.written = u.svc.written :=
    written_of_only (fun hL ho => log_only hL ho) (by decide)
  have herr (u : State) (k : Nat) : (u.svcErr k).svc.written = u.svc.written := rfl
  unfold State.claimMark
  dsimp only
  split_ifs
  · rw [notice_written, hlog, herr, notice_written, hlog, modSvc_svc]
  · rw [notice_written, hlog, modSvc_svc]
  · rw [herr, notice_written, hlog, modSvc_svc]
  · rw [modSvc_svc]

theorem claimSync_written (s : State) : s.claimSync.svc.written = s.svc.written := by
  unfold State.claimSync
  rw [stepRetry_written, written_of_only (fun hL ho => deadSync_only hL ho) (by decide)]
  exact foldl_keeps (fun u : State => u.svc.written) claimMark_written _ s

theorem foldl_complete_written (st : Byte) (d : Nat) (l : List (Bool × Nat)) (s : State) :
    (l.foldl (fun (u : State) p => u.complete p.1 p.2 st d) s).svc.written = s.svc.written :=
  foldl_keeps (fun u : State => u.svc.written) (g := fun u (p : Bool × Nat) => u.complete p.1 p.2 st d) (fun _ _ => rfl) l s

theorem assertHere_written (s : State) (b : Bcast) : (s.assertHere b).svc.written = s.svc.written := by
  unfold State.assertHere
  dsimp only
  split_ifs
  · exact foldl_complete_written ..
  · exact (foldl_complete_written ..).trans ((claimSync_written _).trans rfl)
  · exact (foldl_complete_written ..).trans rfl
  · exact (foldl_complete_written ..).trans ((claimSync_written _).trans rfl)
  · exact (foldl_complete_written ..).trans ((claimSync_written _).trans rfl)

theorem actSvc_assert {x : Bcast} (h : x.kind = 3) (s : State) : (actSvc s x).s = s.assertHere x := by
  rw [actSvc, h]; rfl

theorem bcastTake_written {came : Option Nat} {b : Bcast} {act : State → Bcast → Acted}
    (hact : ∀ u, (act u b).s.svc.written = u.svc.written) : (s.bcastTake came b act).svc.written = s.svc.written := by
  cases h : s.bcastKnown (bcastKey b) with
  | true => rw [bcastTake_known h]; rfl
  | false =>
    rw [bcastTake_new h, written_of_only (fun hL ho => bcastForward_only hL ho) (by decide)]
    refine (hact _).trans ?_
    unfold State.bcastEnter
    split_ifs <;> rfl

theorem assertRoot_written (s : State) (job target : BitVec 16) (claim : Nat) :
    (s.assertRoot job target claim).2.svc.written = s.svc.written := by
  refine (bcastTake_written (s := (s.bcastNew _ _ _ _ _ _ _ _).2) fun u => ?_).trans rfl
  rw [actSvc_assert rfl, assertHere_written]

/-- An assertion ends the commands that wait for it, and no other. -/
theorem assertHere_cmd {g : Bool} {n : Nat} (h : ∀ k, ((s.cmd g n).busy && decide ((s.cmd g n).wait = .event 12 k)) = false)
    (b : Bcast) :
    (s.assertHere b).cmd g n = s.cmd g n := by
  have hfin (u : State) (hu : u.cmd g n = s.cmd g n) (k : Nat) (st : Byte) (d : Nat) :
      ((u.waiters fun w => decide (w = .event 12 k)).foldl (fun u p => u.complete p.1 p.2 st d) u).cmd g n = s.cmd g n :=
    (foldl_pages_cmd (fun v q hq => (complete_cmd v q st d).trans (if_neg hq))
      (not_waiter (p := fun x => decide (x = .event 12 k)) (by rw [hu]; exact h k)) u).trans hu
  have hsync (u : State) : u.claimSync.cmd g n = u.cmd g n := cmd_of_only (fun hL ho => claimSync_only hL ho) (by decide) g n
  unfold State.assertHere
  dsimp only
  split_ifs
  · exact hfin s rfl ..
  · refine hfin _ ?_ _ _ _
    exact (hsync _).trans rfl
  · refine hfin _ ?_ _ _ _
    rfl
  · refine hfin _ ?_ _ _ _
    exact (hsync _).trans rfl
  · refine hfin _ ?_ _ _ _
    exact (hsync _).trans rfl

theorem assertRoot_cmd {u : State} {c : CmdIn} {a b : Nat} (hu : u = s.begun c a b) (job target : BitVec 16) (claim : Nat) :
    (u.assertRoot job target claim).2.cmd c.pkg c.page.toNat = u.cmd c.pkg c.page.toNat := by
  refine (bcastTake_cmd (s := (u.bcastNew _ _ _ _ _ _ _ _).2) fun v hv => ?_).trans rfl
  rw [actSvc_assert rfl, assertHere_cmd (fun k => begun_waits_nothing (hv.trans (by rw [hu]; rfl)) (by simp)), hv]

end Assertions

/-! ### A step partial, a window, a mark (R329 to R332) -/

section Steps
variable {s : State} {c : CmdIn} {a b : Nat} {i : Nat} {j : JobEntry}

theorem execStepPartial_unknown {src : BitVec 16} {p : StepPart} (h : s.jobOf p.job = none) :
    exec (.stepPartial src p) s = finish s := by
  show finish (s.stepReceive src p) = _
  rw [State.stepReceive, h]

/-- A LATE partial of a system controller that is not the root goes on to the parents, and no more. -/
theorem stepReceive_late {src : BitVec 16} {p : StepPart} (h : s.jobOf p.job = some (i, j)) (hs : s.isSystem = true)
    (hp : p.late = true) (hj : j.root = false) :
    (s.stepReceive src p).svc.wins = s.svc.wins ∧ (s.stepReceive src p).svc.jobs = s.svc.jobs := by
  rw [State.stepReceive, h]
  simp only [hs, hp, hj, Bool.not_true, Bool.false_and, Bool.true_eq_false, Bool.false_eq_true, false_and, true_or, if_false, if_true]
  split_ifs
  · exact ⟨rfl, rfl⟩
  · exact ⟨rfl, rfl⟩

/-- Does a window stand for this step of the job? -/
def winOf (job : BitVec 16) (step : BitVec 32) (w : StepWin) : Bool := decide (w.job = job) && decide (w.step = step)

theorem execStepWaitExpire_open {job : BitVec 16} {step : BitVec 32} {w : StepWin} (h : s.jobOf job = some (i, j))
    (hw : s.svc.wins.find? (winOf job step) = some w) : exec (.stepWaitExpire job step) s =
      finish ((s.advanceTo (w.since + j.stepWait.toNat * us)).stepEmit { w with stale := true }) := by
  show finish _ = _
  split
  next h' hw' =>
    cases h.symm.trans h'
    cases hw.symm.trans hw'
    rfl
  next hn => exact absurd hw (hn i j w h)

theorem find_otherWins {job : BitVec 16} {step : BitVec 32} {w : StepWin} (h : winOf job step w = true) (l : List StepWin) :
    (otherWins w l).find? (winOf job step) = none := by
  obtain ⟨hjob, hstep⟩ : w.job = job ∧ w.step = step := by simpa [winOf] using h
  simp only [otherWins, winOf, List.find?_eq_none, List.mem_filter, hjob, hstep, Bool.not_eq_true', and_imp]
  exact fun _ _ hother => Bool.not_eq_true _ ▸ hother

/-- The window has left when STEP_WAIT has passed. -/
theorem stepWaitExpire_leaves {job : BitVec 16} {step : BitVec 32} {w : StepWin} (h : s.jobOf job = some (i, j))
    (hw : s.svc.wins.find? (winOf job step) = some w) (t : FT) :
    ((s.advanceTo t).stepEmit { w with stale := true }).now = max s.now t ∧
      (((s.advanceTo t).stepEmit { w with stale := true }).svc.wins.find? (winOf job step)) = none := by
  have hwin : winOf job step w = true := List.find?_some hw
  have hjob : w.job = job := by simp [winOf] at hwin; exact hwin.1
  have hemit := stepEmit_winsWritten (s := s.advanceTo t) (w := { w with stale := true }) (i := i) (j := j)
    (by rw [← h, ← hjob]; rfl)
  refine ⟨?_, ?_⟩
  · rw [now_of_only (fun hL ho => stepEmit_only hL ho) (by decide)]
    rfl
  · rw [show ((s.advanceTo t).stepEmit { w with stale := true }).svc.wins = _ from congrArg Prod.fst hemit]
    exact find_otherWins hwin _

theorem execStepMark_eq (h : s.takes c .tenant = true) : exec (.stepMark c) s = finish (stepMark c (s.begun c 0x40 0x0003)) :=
  congrArg finish (runCmd_takes h 0x40 0x0003 rfl _)

theorem stepMark_none (h : s.jobOf c.req.job = none) : stepMark c s = s.failCmd c svNoJob := by
  rw [stepMark, h]

theorem stepMark_idle (h : s.jobOf c.req.job = some (i, j)) (hj : j.state ≠ .running ∨ j.member = false) :
    stepMark c s = s.failCmd c svNoJob := by
  rw [stepMark, h]
  exact if_pos hj

theorem stepMark_runs (h : s.jobOf c.req.job = some (i, j)) (hj : ¬ (j.state ≠ .running ∨ j.member = false)) :
    ∃ u : State, stepMark c s = u.ok c := by
  rw [stepMark, h]
  exact ⟨_, if_neg hj⟩

end Steps

/-! ### Heartbeats and the liveness check (R337, R338, R341) -/

section Liveness
variable {s : State}

/-- A watched node that has been heard. -/
def heardFrom (b : Beat) (x : Watch) : Watch := { x with heard := true, ever := true, parked := b.parked, downs := 0 }

theorem execHeartbeat_stranger {src : BitVec 16} (b : Beat) (h : s.watchOf src ∉ s.watchList) : exec (.heartbeat src b) s = finish s :=
  congrArg finish (if_neg h)

theorem execHeartbeat_watched {src : BitVec 16} (b : Beat) (h : s.watchOf src ∈ s.watchList) (hs : s.isSystem = false) :
    exec (.heartbeat src b) s = finish (s.modWatch (s.watchOf src) (heardFrom b)) := by
  refine congrArg finish ((if_pos h).trans (if_neg fun hc => ?_))
  exact Bool.false_ne_true (hs.symm.trans hc.1)

theorem settle_modWatch (w v : Nat) (f : Watch → Watch) :
    (s.modWatch w f).settle.watch v = if v = w then f (s.watch w) else s.watch v := by
  rw [State.watch, settle_svc]
  exact Tab.read_modify Watch.reset s.svc.watch w v f

theorem setLevel_checkAt (s : State) (w : Nat) (l : Level) : (s.setLevel w l).svc.checkAt = s.svc.checkAt := by
  have hnotice (u : State) (kind : Nat) (job subject : BitVec 16) (t : FT) (param body : List Byte) (dests : List (BitVec 16)) :
      (u.notice kind job subject t 0 param body dests).svc.checkAt = u.svc.checkAt :=
    checkAt_of_only (fun hL ho => notice_only hL ho) (by decide)
  have hdecided (u : State) (inputs : List Byte) (r : Nat) : (u.decided 2 inputs r).svc.checkAt = u.svc.checkAt :=
    checkAt_of_only (fun hL ho => decided_only hL ho) (by decide)
  have hlog (u : State) (sev subject arg : Nat) : (u.log 0x40 0 0x0002 sev subject arg []).svc.checkAt = u.svc.checkAt :=
    checkAt_of_only (fun hL ho => log_only hL ho) (by decide)
  have herr (u : State) : (u.svcErr errLiveness).svc.checkAt = u.svc.checkAt := rfl
  have hwatch (u : State) (f : Watch → Watch) : (u.modWatch w f).svc.checkAt = u.svc.checkAt := rfl
  unfold State.setLevel
  dsimp only
  split_ifs <;> simp only [modSvc_svc, hnotice, hdecided, hlog, herr, hwatch]

theorem checkNode_checkAt (s : State) (w : Nat) : (s.checkNode w).svc.checkAt = s.svc.checkAt := by
  have hlevel (same : Prop) [Decidable same] (f : Watch → Watch) (inputs : List Byte) (r : Nat) (l : Level) :
      (if same then (s.modWatch w f).decided 4 inputs r else (s.modWatch w f).setLevel w l).svc.checkAt = s.svc.checkAt := by
    split_ifs
    · rw [checkAt_of_only (fun hL ho => decided_only hL ho) (by decide)]
      rfl
    · rw [setLevel_checkAt]
      rfl
  unfold State.checkNode
  dsimp only
  split
  · rfl
  · exact hlevel ..

/-- The state in which the check of the close at `t` is taken. -/
def State.checkTaken (s : State) (t : FT) (rest : List FT) : State := (s.advanceTo t).modSvc fun x => { x with checkAt := rest }

theorem execLivenessCheck_due {t : FT} {rest : List FT} (h : s.svc.checkAt = t :: rest) : exec .livenessCheck s =
    finish (if s.links.holding || decide (s.snuff.state = .cut) then s.checkTaken t rest
      else (((s.checkTaken t rest).watchList.foldl State.checkNode (s.checkTaken t rest)).touchItem 0x04).claimSync) := by
  show finish _ = _
  split
  next hn => cases h.symm.trans hn
  next hs =>
    cases h.symm.trans hs
    rfl

theorem checks_keep (l : List Nat) (s : State) :
    ((l.foldl State.checkNode s).touchItem 0x04).claimSync.now = s.now ∧
    ((l.foldl State.checkNode s).touchItem 0x04).claimSync.svc.checkAt = s.svc.checkAt := by
  rw [now_of_only (fun hL ho => claimSync_only hL ho) (by decide), checkAt_of_only (fun hL ho => claimSync_only hL ho) (by decide)]
  exact ⟨foldl_keeps (fun u : State => u.now) (fun _ _ => now_of_only (fun hL ho => checkNode_only hL ho) (by decide)) l s,
    foldl_keeps (fun u : State => u.svc.checkAt) checkNode_checkAt l s⟩

/-- The check is run once for its close, and checks nobody while a parent is lost. -/
theorem livenessCheck_answers {t : FT} {rest : List FT} (h : s.svc.checkAt = t :: rest) : ∃ u, exec .livenessCheck s = finish u ∧
    u.now = max s.now t ∧ u.svc.checkAt = rest ∧ (s.links.holding = true → u.svc.watch = s.svc.watch) := by
  refine ⟨_, execLivenessCheck_due h, ?_⟩
  split_ifs with hc
  · exact ⟨rfl, rfl, fun _ => rfl⟩
  · obtain ⟨hnow, hat⟩ := checks_keep (s.checkTaken t rest).watchList (s.checkTaken t rest)
    exact ⟨hnow, hat, fun hh => absurd (by simp [hh]) hc⟩

end Liveness

/-! ### JOB_LIVENESS (R342, R344) -/

section JobLiveness
variable {s : State} {c : CmdIn} {a b : Nat}

theorem execJobLiveness_eq (h : s.takes c .tenant = true) (hd : s.isDie = true) :
    exec (.jobLiveness c) s = finish (jobLiveness c (s.begun c 0x40 0x0004)) :=
  congrArg finish (runCmd_takes h 0x40 0x0004 hd _)

theorem begun_node : (s.begun c a b).node = s.node := by
  obtain ⟨_, _, _, _, _, _, h⟩ := begun_eq s c a b
  rw [h]; rfl

/-- The job's root, where this die hub is its runtime. -/
def State.runtimeRoot (s : State) (job : BitVec 16) : Option (BitVec 16) := Tab.read (fun _ => none) s.svc.runtimes job.toNat

theorem begun_runtimeRoot (job : BitVec 16) : (s.begun c a b).runtimeRoot job = s.runtimeRoot job := by
  rw [State.runtimeRoot, begun_svc]; rfl

theorem jobLiveness_stranger (h : s.runtimeRoot c.req.job = none) : jobLiveness c s = s.done c stDenied svNotRuntime := by
  rw [jobLiveness, show Tab.read (fun _ => none) s.svc.runtimes c.req.job.toNat = none from h]

/-- The root takes an assertion of the runtime: it refuses it, or broadcasts it and waits for the subtree. -/
def State.livenessAtRoot (s : State) (c : CmdIn) : State :=
  let job := c.req.job
  let target : BitVec 16 := BitVec.ofNat 16 (argFld c s 0 0 16)
  let claim := argFld c s 1 0 2
  if !(s.jobOf job).any fun e => e.2.root then s.failCmd c svNoJob
  else if 64 ≤ s.svc.claims.length ∧ s.svc.claims.all (fun a => !(decide (a.job = job) && decide (a.target = target))) = true ∧
      claim ≠ 0 then (s.svcErr errTableFull).failCmd c svTableFull
  else ((s.assertRoot job target claim).2.waitFor c (.event 11 (s.assertRoot job target claim).1)).bcastDone

/-- The assertion goes to a root elsewhere as a notice, and the command waits for it. -/
def State.livenessAsked (s : State) (c : CmdIn) (root : BitVec 16) : State :=
  let target : BitVec 16 := BitVec.ofNat 16 (argFld c s 0 0 16)
  s.notice 0x0A c.req.job target s.ft 0 (leBytes 2 target.toNat ++ leBytes 1 (argFld c s 1 0 2)) [] [root]

theorem jobLiveness_runtime {root : BitVec 16} (h : s.runtimeRoot c.req.job = some root) : jobLiveness c s =
    if argFld c s 1 0 2 = 3 then s.badArg c
    else if root ≠ s.node then
      (s.livenessAsked c root).waitFor c (.event 12 (c.req.job.toNat * 2 ^ 16 + argFld c s 0 0 16))
    else s.livenessAtRoot c := by
  have htarget : (BitVec.ofNat 16 (argFld c s 0 0 16)).toNat = argFld c s 0 0 16 :=
    (BitVec.toNat_ofNat ..).trans (Nat.mod_eq_of_lt (Nat.mod_lt _ (by decide)))
  rw [jobLiveness, show Tab.read (fun _ => none) s.svc.runtimes c.req.job.toNat = some root from h]
  by_cases hclaim : argFld c s 1 0 2 = 3
  · exact (if_pos hclaim).trans (if_pos hclaim).symm
  · rw [if_neg hclaim]
    refine (if_neg hclaim).trans ?_
    by_cases hnode : root = s.node
    · rw [if_neg (not_not.2 hnode)]
      exact if_pos hnode
    · rw [if_pos hnode]
      refine (if_neg hnode).trans ?_
      exact congrArg (fun n => (s.livenessAsked c root).waitFor c (.event 12 (c.req.job.toNat * 2 ^ 16 + n))) htarget

theorem livenessAsked_cmd (s : State) (c : CmdIn) (root : BitVec 16) (g : Bool) (n : Nat) :
    (s.livenessAsked c root).cmd g n = s.cmd g n := cmd_of_only (fun hL ho => notice_only hL ho) (by decide) g n

theorem livenessAsked_claims (s : State) (c : CmdIn) (root : BitVec 16) : (s.livenessAsked c root).svc.claims = s.svc.claims :=
  claims_of_only (fun hL ho => notice_only hL ho) (by decide)

theorem livenessAtRoot_answers :
    if ((s.jobOf c.req.job).any fun e => e.2.root) = false then
      ((s.begun c a b).livenessAtRoot c).settle.ended c stError svNoJob ∧
        ((s.begun c a b).livenessAtRoot c).settle.svc.claims = s.svc.claims
    else ((s.begun c a b).livenessAtRoot c).settle.ended c stError svTableFull ∨
      ((s.begun c a b).livenessAtRoot c).settle.ended c stOk 0 ∨
      ∃ n, ((s.begun c a b).livenessAtRoot c).settle.waits c (.event 11 n) := by
  unfold State.livenessAtRoot
  simp only [begun_jobOf, Bool.not_eq_true']
  by_cases hroot : ((s.jobOf c.req.job).any fun e => e.2.root) = false
  · rw [if_pos hroot, if_pos hroot]
    exact ⟨failCmd_ended svNoJob, congrArg Svc.claims ((settle_svc _).trans (begun_svc s c a b))⟩
  · rw [if_neg hroot, if_neg hroot]
    split_ifs
    · exact .inl (failCmd_ended svTableFull)
    · rcases waitSubtree_answers (assertRoot_cmd rfl c.req.job _ _) _ with hw | he
      · exact .inr (.inr ⟨_, hw⟩)
      · exact .inr (.inl he)

theorem jobLiveness_answers (h : s.takes c .tenant = true) (hd : s.isDie = true) {root : BitVec 16}
    (hr : s.runtimeRoot c.req.job = some root) : ∃ u, exec (.jobLiveness c) s = finish u ∧
      (if argFld c s 1 0 2 = 3 then u.settle.ended c stBadArg 0 ∧ u.settle.svc = s.svc
       else if root ≠ s.node then
         u.settle.waits c (.event 12 (c.req.job.toNat * 2 ^ 16 + argFld c s 0 0 16)) ∧ u.settle.svc.claims = s.svc.claims
       else if ((s.jobOf c.req.job).any fun e => e.2.root) = false then
         u.settle.ended c stError svNoJob ∧ u.settle.svc.claims = s.svc.claims
       else u.settle.ended c stError svTableFull ∨ u.settle.ended c stOk 0 ∨ ∃ n, u.settle.waits c (.event 11 n)) := by
  refine ⟨_, (execJobLiveness_eq h hd).trans (congrArg finish (jobLiveness_runtime ((begun_runtimeRoot _).trans hr))), ?_⟩
  rw [begun_argFld _ _ 0 _ _ (by decide), begun_argFld _ _ 1 _ _ (by decide), begun_node]
  by_cases hclaim : argFld c s 1 0 2 = 3
  · rw [if_pos hclaim, if_pos hclaim]
    exact ⟨done_ended stBadArg 0, (settle_svc _).trans (begun_svc s c _ _)⟩
  · rw [if_neg hclaim, if_neg hclaim]
    by_cases hnode : root ≠ s.node
    · rw [if_pos hnode, if_pos hnode]
      exact ⟨begun_waits _ (livenessAsked_cmd ..),
        (congrArg Svc.claims (settle_svc _)).trans ((livenessAsked_claims ..).trans (by rw [begun_svc]))⟩
    · rw [if_neg hnode, if_neg hnode]
      exact livenessAtRoot_answers

end JobLiveness

/-! ### Received notices and decisions checked again (R348, R503) -/

section Received
variable {s : State}

/-- ORIGIN and SEQ of a notice. -/
def svcNoticeKey (bytes : List Byte) : BitVec 16 × BitVec 32 := (BitVec.ofNat 16 (leAt bytes 4 2), BitVec.ofNat 32 (leAt bytes 8 4))

/-- A notice whose check fails, or that has been written already. -/
def State.noticeIgnored (s : State) (bytes : List Byte) : Prop :=
  bytes.length ≠ 64 ∨ leAt bytes 0 1 ≠ 1 ∨ leAt bytes 60 4 ≠ (crc32c (bytes.take 60)).toNat ∨
    svcNoticeKey bytes ∈ s.svc.written

theorem execNotice_ignored {bytes : List Byte} (h : s.noticeIgnored bytes) : exec (.notice bytes) s = finish s :=
  congrArg finish (if_pos h)

/-- A notice is written to the ring once, and noted. -/
def State.noticeRecorded (s : State) (bytes : List Byte) : State :=
  (s.modSvc fun x => { x with written := (svcNoticeKey bytes :: x.written).take 256 }).svcRing bytes

theorem noticeRecorded_mem (s : State) (bytes : List Byte) : svcNoticeKey bytes ∈ (s.noticeRecorded bytes).svc.written := by
  rw [State.noticeRecorded, written_of_only (fun hL ho => svcRing_only hL ho) (by decide)]
  exact List.mem_cons_self

/-- What a notice does beside keeps the notices that have been written. -/
theorem execNotice_taken {bytes : List Byte} (h : ¬ s.noticeIgnored bytes) : ∃ u, exec (.notice bytes) s = finish u ∧
    u.svc.written = (s.noticeRecorded bytes).svc.written := by
  refine ⟨_, congrArg finish (if_neg h), ?_⟩
  dsimp only
  split
  · split_ifs
    · exact assertRoot_written ..
    · rfl
  · rfl

/-- The core's result disagrees with the decision: the mismatch is counted, told and noted. -/
theorem verifyDecision_answers {d : Decision} {rest : List Decision} (result : Word) (h : s.rot.verify = d :: rest)
    (ht : d.at' + us ≤ s.now) : ∃ u, exec (.verifyDecision result) s = finish u ∧ u.rot.verify = rest ∧
      u.rot.mismatchAt = if result = d.result then s.rot.mismatchAt else some s.now := by
  refine ⟨_, rfl, ?_⟩
  rw [h]
  dsimp only
  rw [if_neg (Nat.not_lt.2 ht)]
  split_ifs
  · exact ⟨rfl, rfl⟩
  · refine ⟨?_, congrArg some ?_⟩
    · refine (verify_of_only (fun hL ho => faultMsg_only hL ho) (by decide)).trans ?_
      exact (verify_of_only (fun hL ho => log_only hL ho) (by decide)).trans rfl
    · refine (now_of_only (fun hL ho => faultMsg_only hL ho) (by decide)).trans ?_
      exact (now_of_only (fun hL ho => log_only hL ho) (by decide)).trans rfl

end Received

/-- Settles O48, a lemma for each clause. -/
theorem stepsLivenessAndNotices : Obligations.StepsLivenessAndNotices := by
  unfold Obligations.StepsLivenessAndNotices
  refine ⟨?mark, ?unknown, ?late, ?wait, ?beat, ?check, ?liveness, ?notice, ?decision,
    fun c s => ⟨execStepMark_only c s, execJobLiveness_only c s⟩, execStepPartial_only, execStepWaitExpire_only, execHeartbeat_only,
    execLivenessCheck_only, execVerifyDecision_only⟩
  case mark =>
    intro c s h
    have hfail {u : State} (hu : u.svc = s.svc) : (u.failCmd c svNoJob).settle.ended c stError svNoJob ∧
        (u.failCmd c svNoJob).settle.jobs = s.jobs :=
      ⟨failCmd_ended svNoJob, (settle_jobs _).trans (jobs_congr (congrArg Svc.jobs hu))⟩
    have hbegun : (s.begun c 0x40 0x0003).jobOf c.req.job = s.jobOf c.req.job := begun_jobOf _
    refine next_of_finish (execStepMark_eq h) (execStepMark_only c s) ?_
    split
    next hn =>
      rw [stepMark_none (hbegun.trans hn)]
      exact hfail (begun_svc ..)
    next i j hs =>
      split_ifs with hj
      · rw [stepMark_idle (hbegun.trans hs) hj]
        exact hfail (begun_svc ..)
      · obtain ⟨u, hu⟩ := stepMark_runs (hbegun.trans hs) hj
        rw [hu]
        exact ok_ended
  case unknown =>
    intro src p s h
    exact next_of_finish_self (execStepPartial_unknown h)
  case late =>
    intro src p i j s h hs hp hj
    obtain ⟨hwins, hjobs⟩ := stepReceive_late (src := src) h hs hp hj
    exact next_of_finish rfl (execStepPartial_only src p s)
      ⟨(congrArg Svc.wins (settle_svc _)).trans hwins, (settle_jobs _).trans (jobs_congr hjobs)⟩
  case wait =>
    intro job step i j w s h hw
    obtain ⟨hnow, hgone⟩ := stepWaitExpire_leaves h hw (w.since + j.stepWait.toNat * us)
    refine next_of_finish (execStepWaitExpire_open h hw) (execStepWaitExpire_only job step s) ⟨(settle_now _).trans hnow, ?_⟩
    rw [settle_svc]
    exact hgone
  case beat =>
    intro src b s
    refine ⟨fun h => next_of_finish_self (execHeartbeat_stranger b h), fun h hs => ?_⟩
    exact next_of_finish (execHeartbeat_watched b h hs) (execHeartbeat_only src b s)
      ⟨(settle_modWatch ..).trans (if_pos rfl), fun v hv => (settle_modWatch ..).trans (if_neg hv)⟩
  case check =>
    intro t0 rest s h
    obtain ⟨u, hu, hnow, hat, hheld⟩ := livenessCheck_answers h
    refine next_of_finish hu (execLivenessCheck_only s) ?_
    rw [settle_now, settle_svc]
    exact ⟨hnow, hat, hheld⟩
  case liveness =>
    intro c s h hd
    split
    next hn =>
      refine next_of_finish (execJobLiveness_eq h hd) (execJobLiveness_only c s) ?_
      rw [jobLiveness_stranger ((begun_runtimeRoot _).trans hn)]
      exact ⟨done_ended stDenied svNotRuntime, (settle_svc _).trans (begun_svc ..)⟩
    next root hr =>
      obtain ⟨u, hu, hP⟩ := jobLiveness_answers h hd hr
      exact next_of_finish hu (execJobLiveness_only c s) hP
  case notice =>
    intro bytes s
    dsimp only
    split
    next h => exact next_of_finish_self (execNotice_ignored h)
    next h =>
      obtain ⟨u, hu, hw⟩ := execNotice_taken h
      refine next_of_finish hu (execNotice_only bytes s) ?_
      rw [settle_svc, hw]
      exact noticeRecorded_mem s bytes
  case decision =>
    intro d rest result s h ht
    obtain ⟨u, hu, hrot⟩ := verifyDecision_answers result h ht
    refine next_of_finish hu (execVerifyDecision_only result s) ?_
    rw [settle_rot]
    exact hrot

end Sys2Proof.Machine
end
